-- ==== Sys2Proof/Word.lean ====
section
/-! DEFINITION. The word types of the FZ4800 and the sparse map every banked part of the state is held in. -/

namespace Sys2Proof

/-- A register of control space: 32 bits (R8). -/
abbrev Word := BitVec 32

/-- A byte of the internal address map. -/
abbrev Byte := BitVec 8

/-- A doubleword: hatch entries (R30), queue entries of the gravers (R359), cell link entries (R330). -/
abbrev DWord := BitVec 64

/-- The 4,096 user bytes of a sector (R16), byte 0 in bits 7 to 0. -/
abbrev Payload := BitVec 32768

/-- Sparse data by number: pairs in strictly rising order of the number, without an entry equal to the value
an unlisted number has (the operations stand in Machine/Maps.lean). -/
abbrev SMap (α : Type) := List (Nat × α)

end Sys2Proof
end

