-- ==== Sys2Proof/Syntax.lean ====
section
/-! DEFINITION. The commands of the FZ4800 as a block: one constructor for each row of spec/opcode_table.json, with the
operands of the row. A command that is a register write carries the word written; a host command carries the command slot
that holds it or, when it is fetched, its submission entry; an event of the device's surroundings carries what was
measured. -/

namespace Sys2Proof

/-- Eight dwords: a descriptor (Table 6-5), a parity job (Table 9-6) or a cipher job (Table 10-5). -/
structure Desc where
  d0 : Word
  d1 : Word
  d2 : Word
  d3 : Word
  d4 : Word
  d5 : Word
  d6 : Word
  d7 : Word
  deriving DecidableEq, Repr

/-- The payload of a codeword (R247, R248): the user bytes and the 64 bytes of sector metadata, byte 0 in the low bits. -/
structure Sector where
  data : Payload
  md : BitVec 512
  deriving DecidableEq, Repr

/-- What a status poll of a die returns (R178, R196): ready, failed, and the status byte. -/
structure PollResult where
  ready : Bool
  fail : Bool
  status : Byte
  deriving DecidableEq, Repr

/-- What a calibration step measured on the target it ran on (R200): the eye's width and centre in taps. -/
structure EyeMeasure where
  ch : Fin 48
  width : Byte
  center : Byte
  deriving DecidableEq, Repr

/-- What the surroundings show at a stroke boundary: the channels whose hatch entry reads uncorrectable (R49), the eyes
measured by the calibration steps of the stroke (R200), the composite temperature in kelvin (R427), the on-die temperature in
degrees Celsius (R347, R429) and the AON tick count (R423). -/
structure BoundaryObs where
  eccNull : List (Fin 48)
  eyes : List EyeMeasure
  kelvin : Nat
  celsius : Int
  ticks : BitVec 48
  deriving DecidableEq, Repr

/-- The outcome of one decode: bit errors in the raw codeword, whether the decoder's syndrome checks, whether the decoder
returned a wrong codeword that its syndrome passes (R250), and the zero bits of the raw read (R251). -/
structure DecodeResult where
  errs : Nat
  ok : Bool
  wrong : Bool
  zeros : Nat
  deriving DecidableEq, Repr

/-- The kinds of memory access of a graver (R355). -/
inductive MemKind where
  | load | store | lr | sc
  | amoSwap | amoAdd | amoXor | amoAnd | amoOr | amoMin | amoMax | amoMinu | amoMaxu
  deriving DecidableEq, Repr

/-- A memory instruction of a graver (R355): kind, width (2^log2 bytes), zero extension, registers and offset. -/
structure MemOp where
  kind : MemKind
  log2 : Fin 4
  unsigned : Bool
  rd : Fin 32
  rs1 : Fin 32
  rs2 : Fin 32
  imm : BitVec 12
  deriving DecidableEq, Repr

/-- A submission queue entry (R72): the 64 bytes by field. -/
structure Sqe where
  opc : BitVec 8
  flags : BitVec 8
  cid : BitVec 16
  nsid : Word
  cdw2 : Word
  cdw3 : Word
  mptr : DWord
  dptr1 : DWord
  dptr2 : DWord
  cdw10 : Word
  cdw11 : Word
  cdw12 : Word
  cdw13 : Word
  cdw14 : Word
  cdw15 : Word
  deriving DecidableEq, Repr

/-- A list of source ranges of a refold (R134): source namespace of the command, starting LBA and length of each. -/
structure RefoldRange where
  slba : Nat
  nlb : Nat
  deriving DecidableEq, Repr

/-- How a memory word, or a copy of a DRAM line, reads (R273, R319). -/
inductive CopyState where
  | good | corrected | bad
  deriving DecidableEq, Repr

/-- A sub-channel that failed training (step 0) or a step of its self-test (R313). -/
structure DramFail where
  sub : Fin 8
  step : Fin 64
  deriving DecidableEq, Repr

/-- What DRAM training found: the sub-channels present, die density in Gb, ranks, the activates of a bank after which the devices require an
RFM, 0 where they require none (RAAIMT), failures (R310, R313). -/
structure DramTraining where
  present : BitVec 8
  density : Nat
  ranks : Nat
  raaimt : Nat
  failed : List DramFail
  deriving DecidableEq, Repr

/-- A Dalesk flit (Table 17-2): type, sequence number, destination, source, virtual channel, payload, whether its CRC checks. -/
structure DlkFlit where
  kind : Fin 4
  seq : BitVec 12
  dst : Fin 4
  src : Fin 4
  vc : Fin 3
  payload : BitVec 1920
  ok : Bool
  deriving DecidableEq, Repr

/-- A checker that failed its self-test (Table 9-10): checker, first failing step, and for a checker with several units (a graver of 63,
a bank of 61, a lane of 67, a channel of 65) the unit. -/
structure CheckFail where
  index : Fin 68
  step : Fin 64
  unit : Nat
  deriving DecidableEq, Repr

/-- Where the memory patrol, or an access, met an error (R274, R275, Table 9-8). -/
inductive SramSite where
  | cell (h : BitVec 26)
  | accumulator (g : Fin 96)
  | hatch (ch : Fin 48) (bankB : Bool) (k : Fin 256)
  | camEntry (i : Fin 32768)
  | table
  | hardDecoder (ch : Fin 48)
  | softDecoder (s : Fin 8)
  | deepDecoder (s : Fin 2)
  | graverRam (g : Fin 64)
  | keepBank (b : Fin 32)
  deriving DecidableEq, Repr

/-- What the release of cold reset finds (R368, R423, R454, R362): the role straps, the AON tick count, the gravers that fail the clear of
their local SRAM, the exponent of VOUT_MODE. -/
structure ResetObs where
  role : Fin 4
  ticks : BitVec 48
  badGravers : List (Fin 64)
  exp : BitVec 5
  deriving DecidableEq, Repr

/-- What start-up finds (R435, R443, R444): checkers that fail, dies that answer, blocks with a factory mark (R195), channels whose training fails twice, the images whose
directories cannot be read, the units that fail every decoder tier (image and index), and the copies of bad-block records whose CRC fails (SEQ and die, R234). -/
structure StartObs where
  fails : List CheckFail
  dies : List (Fin 1536)
  marked : List (Fin 1536 × BitVec 12)
  badChannels : List (Fin 48)
  badImages : List Nat
  badUnits : List (Nat × Nat)
  badCopies : List (Nat × Nat)
  deriving DecidableEq, Repr

/-- What a wake finds: the AON tick count, and the keep banks with an uncorrectable word (R416). -/
structure WakeObs where
  ticks : BitVec 48
  badBanks : List (Fin 32)
  deriving DecidableEq, Repr

/-- Where a Jenam packet comes from (R384, R386): a Jenam Send, or SMBus or I3C with the requester's EID and message tag. -/
inductive JenamSrc where
  | send (slot : Fin 131072)
  | mctp (i3c : Bool) (eid tag : Byte)
  deriving DecidableEq, Repr

/-- A request of one device of a cascade to another (R463, R464, R395, R467): a descriptor for a channel, ciphertext sectors for cells, a
Jenam packet, a liveness message. -/
inductive DlkRequest where
  | media (ch : Fin 48) (desc : Desc)
  | cells (tenant : BitVec 10) (sectors : List Sector)
  | jenam (packet : List Byte)
  | live
  deriving DecidableEq, Repr

/-- A follower's response taken whole (R463, R467, R395, R469): sectors acknowledged in its cells or on its media, a read sector for a command
slot, a sector that every tier failed to recover, a Jenam reply, liveness with whether step 8 has ended, or its HOLD directory entries, each
as namespace × 2^40 + first LBA of a unit. -/
inductive DlkResponse where
  | acked (id : Word)
  | sector (id : Word) (slot : Fin 131072) (idx : Fin 512) (ch : Fin 48) (owned : Bool) (data : Sector)
  | lost (id : Word) (slot : Fin 131072) (idx : Fin 512)
  | jenam (id : Word) (packet : List Byte)
  | live (ready : Bool)
  | hold (units : List (BitVec 64))
  deriving DecidableEq, Repr

/-- The commands, in the order of the table. -/
inductive Instr where
  /-- STROKE_BOUNDARY (R35): At each 1,024th stroke-clock cycle the counter advances, the hatch entry for the new stroke governs every channel and every per-stroke budget is refilled. -/
  | strokeBoundary (obs : BoundaryObs)
  /-- SHEET_BOUNDARY (R34): The stroke boundary at which the stroke index returns to 0 applies pending bank switches, starts, stops and loads and drains the leaky buckets. -/
  | sheetBoundary (obs : BoundaryObs)
  /-- STRK_LOAD (R36): A write of 1 to STRK.CTL.LOAD samples LOAD_HI and LOAD_LO for a counter load at the next sheet boundary, unless a load is pending. -/
  | strkLoad (v : Word) (cyc : BitVec 10)
  /-- COUNT_LO_READ (R64): A read of STRK.COUNT_LO returns counter bits [31:0] and latches bits [63:32] into COUNT_HI. -/
  | countLoRead (cyc : BitVec 10)
  /-- STROKE_PLL_UNLOCK (R37): Loss of stroke PLL lock holds the counter, PHASE and graver time, sets UNLOCK and SYS.FAULT.UNLOCK and makes every channel serve in arrival order. -/
  | strokePllUnlock (cyc : BitVec 10)
  /-- STROKE_PLL_RELOCK (R37): On regained lock the counter resumes from its held value and scheduling resumes at the next sheet boundary with the bank last live. -/
  | strokePllRelock
  /-- HATCH_CTL_ARM (R54): A write of 1 to HATCH_CTL.ARM requests a bank to take effect at a sheet boundary, locks the bank and starts its check. -/
  | hatchCtlArm (ch : Fin 48) (v : Word) (cyc : BitVec 10)
  /-- HATCH_ARM_CHECK_DONE (R54): Within 256 cycles the bank check ends, setting ARMED or refusing with NOCAL, RSVBIT or LATE. -/
  | hatchArmCheckDone (ch : Fin 48) (cyc : BitVec 10)
  /-- HATCH_CTL_DISARM (R57): A write of 1 to HATCH_CTL.DISARM withdraws an armed or checking request and unlocks the bank. -/
  | hatchCtlDisarm (ch : Fin 48) (v : Word) (cyc : BitVec 10)
  /-- HATCH_CTL_STOP (R58): A write of 1 to HATCH_CTL.STOP ends scheduling at the next sheet boundary at least one stroke ahead and withdraws any pending arm. -/
  | hatchCtlStop (ch : Fin 48) (v : Word) (cyc : BitVec 10)
  /-- HATCH_ENTRY_WRITE (R53): A write to a hatch bank entry is stored unless the bank is live under scheduling or locked, in which case it is ignored and sets WR_IGN. -/
  | hatchEntryWrite (ch : Fin 48) (bankB : Bool) (k : Fin 256) (high : Bool) (v : Word)
  /-- HATCH_SEAL_WRITE (R55): A write to a seal mask is stored unless its bank is live under scheduling or locked, in which case it is ignored and sets WR_IGN. -/
  | hatchSealWrite (ch : Fin 48) (bankB : Bool) (v : Word)
  /-- REGISTER_WRITE (R10): A write to a register without a row of its own behaves by its fields' access codes, with reserved encodings and empty offsets ignored. -/
  | registerWrite (g : Fin 64) (addr : BitVec 40) (v : Word) (cyc : BitVec 10)
  /-- GRAVER_LOAD_STORE (R355): A graver load, store, LR, SC or AMO reaches local SRAM, shared SRAM, DRAM or control space in program order. -/
  | graverLoadStore (g : Fin 64) (op : MemOp) (comp : Bool) (cyc : BitVec 10)
  /-- SQ_TAIL_DOORBELL (R84): A host write to an SQ tail doorbell records new entries for fetch. -/
  | sqTailDoorbell (f : Fin 1026) (q : BitVec 16) (v : Word)
  /-- CQ_HEAD_DOORBELL (R87): A host write to a CQ head doorbell frees entries and releases completions held for a full CQ. -/
  | cqHeadDoorbell (f : Fin 1026) (q : BitVec 16) (v : Word)
  /-- COMMAND_FETCH_ISSUE (R82): The host interface visits functions with recorded doorbells in round robin and issues submission-entry reads within its per-stroke budget. -/
  | commandFetchIssue
  /-- COMMAND_FETCH (R81): A submission entry returns and its command is fetched, in queue order within its SQ. -/
  | commandFetch (f : Fin 1026) (q idx : BitVec 16) (sqe : Sqe)
  /-- COMPLETION_POST (R85): A command's single completion entry is written to its CQ with CID, SQ identifier, head pointer and phase tag. -/
  | completionPost (slot : Fin 131072) (cyc : BitVec 10)
  /-- PACE_EXPIRY (R154): PACE cycles after a paced read reaches its die queue head, its held completion-entry write is issued. -/
  | paceExpiry (slot : Fin 131072) (cyc : BitVec 10)
  /-- CREATE_IO_SQ (R79): Creates an I/O SQ within the function's quota, or completes with Invalid Queue Identifier. -/
  | createIoSq (slot : Fin 131072)
  /-- CREATE_IO_CQ (R79): Creates an I/O CQ within the function's quota, or completes with Invalid Queue Identifier. -/
  | createIoCq (slot : Fin 131072)
  /-- DELETE_IO_SQ (R96): Deletes an SQ, aborting its commands before their commit points and completing after all its completions are written. -/
  | deleteIoSq (slot : Fin 131072)
  /-- DELETE_IO_CQ (R96): Deletes a CQ, or completes with Invalid Queue Deletion while an SQ is attached. -/
  | deleteIoCq (slot : Fin 131072)
  /-- GET_LOG_PAGE (R74): Returns a supported log page of its scope, or Invalid Log Page. -/
  | getLogPage (slot : Fin 131072)
  /-- IDENTIFY (R142): Returns Identify data, listing only namespaces attached to the issuing function. -/
  | identify (slot : Fin 131072)
  /-- ABORT (R94): Examines the named SQ and CID once against its commit point and withdraws or leaves the target. -/
  | abortCmd (slot : Fin 131072)
  /-- SET_FEATURES (R75): Sets a supported feature not given its own row, or completes with Invalid Field in Command. -/
  | setFeatures (slot : Fin 131072)
  /-- GET_FEATURES (R75): Returns a supported feature's current value. -/
  | getFeatures (slot : Fin 131072)
  /-- SET_FEATURES_NUMBER_OF_QUEUES (R79): Returns the function's quotas less one whatever was requested. -/
  | setFeaturesNumberOfQueues (slot : Fin 131072)
  /-- SET_FEATURES_POWER_MANAGEMENT (R404): A PF selects a power state; on a VF the value is stored with no effect. -/
  | setFeaturesPowerManagement (slot : Fin 131072)
  /-- SET_FEATURES_APST (R410): Loads the autonomous power-state transition table, refusing entries with ITPS 0 to 2 and non-zero ITPT. -/
  | setFeaturesApst (slot : Fin 131072) (table : List DWord)
  /-- SET_FEATURES_TIMESTAMP (R426): Sets the subsystem timestamp and records the counter value. -/
  | setFeaturesTimestamp (slot : Fin 131072) (ts : BitVec 48)
  /-- GET_FEATURES_TIMESTAMP (R426): Returns the set timestamp advanced by counter time, with Origin and Synch. -/
  | getFeaturesTimestamp (slot : Fin 131072)
  /-- SET_FEATURES_SERVICE_STATE (R90): Puts a namespace in normal service or maintenance state for commands fetched after completion. -/
  | setFeaturesServiceState (slot : Fin 131072)
  /-- SET_FEATURES_ASYNC_EVENT_CONFIG (R99): Enables asynchronous events, including the vendor deferred-error event in CDW11[31]. -/
  | setFeaturesAsyncEventConfig (slot : Fin 131072)
  /-- SET_FEATURES_TEMP_THRESHOLD (R428): Sets the composite sensor's over and under thresholds. -/
  | setFeaturesTempThreshold (slot : Fin 131072)
  /-- ASYNCHRONOUS_EVENT_REQUEST (R99): Stays outstanding until an enabled event completes it; it has no commit point. -/
  | asynchronousEventRequest (slot : Fin 131072)
  /-- FIRMWARE_IMAGE_DOWNLOAD (R374): Accepts a piece of an image of up to 20,480 KiB in multiples of 4 KiB. -/
  | firmwareImageDownload (slot : Fin 131072) (data : List Byte)
  /-- FIRMWARE_COMMIT_REPLACE (R374): Commit action 0b000 checks the downloaded images and writes them to slot 2 or 3. -/
  | firmwareCommitReplace (slot : Fin 131072)
  /-- FIRMWARE_COMMIT_REPLACE_ACTIVATE (R374): Commit action 0b001 checks and writes the images and sets the slot pending for the next reset. -/
  | firmwareCommitReplaceActivate (slot : Fin 131072)
  /-- FIRMWARE_COMMIT_ACTIVATE (R374): Commit action 0b010 selects an existing slot, including slot 1, for activation at the next reset. -/
  | firmwareCommitActivate (slot : Fin 131072)
  /-- FIRMWARE_COMMIT_ACTIVATE_NOW (R375): Commit action 0b011 writes the images and moves each role to them by migration without failing any command. -/
  | firmwareCommitActivateNow (slot : Fin 131072)
  /-- DEVICE_SELF_TEST_SHORT (R284): Runs segments 1 to 3 device-wide within 2 minutes. -/
  | deviceSelfTestShort (slot : Fin 131072)
  /-- DEVICE_SELF_TEST_EXTENDED (R284): Runs segments 1 to 4, including one stipple pass on every healthy channel. -/
  | deviceSelfTestExtended (slot : Fin 131072)
  /-- DEVICE_SELF_TEST_ABORT (R284): Code 0xF aborts a running device self-test. -/
  | deviceSelfTestAbort (slot : Fin 131072)
  /-- NVME_MI_SEND (R386): Carries an NVMe-MI command in band, never Jenam. -/
  | nvmeMiSend (slot : Fin 131072) (data : List Byte)
  /-- NVME_MI_RECEIVE (R386): Returns an NVMe-MI response in band. -/
  | nvmeMiReceive (slot : Fin 131072)
  /-- FORMAT_NVM (R303): Cryptographically erases a namespace: purge, discard staged data, new key, durable blob, reset zones. -/
  | formatNvm (slot : Fin 131072)
  /-- SANITIZE (R303): Applies the crypto erase to every namespace within 10 s. -/
  | sanitize (slot : Fin 131072)
  /-- JENAM_SEND (R384): Carries one Jenam request on a PF and completes with the reply length and Jenam status once the reply is formed. -/
  | jenamSend (slot : Fin 131072)
  /-- JENAM_RECEIVE (R385): Returns the cached reply for an ORIGIN and SEQ, waits for one being formed, or completes with Jenam Reply Not Held. -/
  | jenamReceive (slot : Fin 131072)
  /-- FLUSH (R80): Completes at once since completed writes are within the staged ceiling, or carries a pending deferred write error. -/
  | flushCmd (slot : Fin 131072)
  /-- WRITE (R77): Writes sectors to a zone at its check pointer or to a conventional namespace, completing once staged in cells. -/
  | writeCmd (slot : Fin 131072)
  /-- READ (R88): Reads sectors, returning the data of one write per sector and waiting on overlapping in-flight writes. -/
  | readCmd (slot : Fin 131072)
  /-- WRITE_ZEROES (R77): Writes zeros to a range, completing under the same conditions as Write. -/
  | writeZeroes (slot : Fin 131072)
  /-- VERIFY (R88): Reads and checks sectors without transfer. -/
  | verifyCmd (slot : Fin 131072)
  /-- ZONE_APPEND (R119): Appends at the zone's check pointer and returns the landing LBA. -/
  | zoneAppend (slot : Fin 131072)
  /-- WRITE_GRANT (R145): A waiting write receives its whole cell grant and staged-ceiling share, and its data transfer begins. -/
  | writeGrant
  /-- WRITE_COMMIT (R93): A write whose last sector is in cells reaches its commit point in check order and the visible write pointer advances. -/
  | writeCommit (slot : Fin 131072)
  /-- ZONE_OPEN (R124): Open binds an Empty zone or changes the state of a bound one to Explicitly Opened. -/
  | zoneOpen (slot : Fin 131072)
  /-- ZONE_CLOSE (R124): Close keeps the partial unit staged and makes the zone Closed. -/
  | zoneClose (slot : Fin 131072)
  /-- ZONE_FINISH (R124): Finish pads the partial unit, completes P and Q and sets the write pointer to capacity. -/
  | zoneFinish (slot : Fin 131072)
  /-- ZONE_RESET (R123): Reset returns a zone to Empty, discarding staged data and landing records and releasing its row. -/
  | zoneReset (slot : Fin 131072)
  /-- ZONE_OFFLINE (R112): Offline takes a Read Only zone Offline. -/
  | zoneOffline (slot : Fin 131072)
  /-- ZONE_REGROUND (R117): Vendor action 0x80 takes an Offline zone to Empty, retiring and replacing its row if worn. -/
  | zoneReground (slot : Fin 131072)
  /-- REPORT_ZONES (R125): Returns zone descriptors with every filter and partial reporting. -/
  | reportZones (slot : Fin 131072)
  /-- REPORT_ZONE_PLACEMENT (R125): Returns each matching zone's die group, handle, flags, device, row and wear. -/
  | reportZonePlacement (slot : Fin 131072)
  /-- EXTENDED_REPORT_ZONES (R125): Completes with Invalid Field in Command. -/
  | extendedReportZones (slot : Fin 131072)
  /-- REFOLD (R134): Checks a refold of ranges into an Empty destination zone and refuses it whole or queues it. -/
  | refoldCmd (slot : Fin 131072) (ranges : List RefoldRange)
  /-- REFOLD_START (R135): A queued refold takes one of 64 slots and copies ranges as device work of its class. -/
  | refoldStart
  /-- REFOLD_COMMIT (R137): After every stripe is programmed and proofed, the destination's pointer, state and lost marks become visible and RESET_SRC acts. -/
  | refoldCommit (seq : BitVec 64) (lost : List Nat)
  /-- ZONE_READ_ONLY_ENTRY (R115): Once committed data is programmed and padded, the marked zone enters Read Only. -/
  | zoneReadOnlyEntry (nsid : Fin 4097) (z : Fin 524288)
  /-- DATA_AGE_EXPIRY (R238): The oldest committed data of an extended-life row reaches AGE_EXT and the row is worn by W2. -/
  | dataAgeExpiry (g : Fin 96) (r : Fin 3600)
  /-- CC_EN_SET (R161): A host write setting CC.EN makes CSTS.RDY read 1 within 2 ms. -/
  | ccEnSet (f : Fin 1026) (asqs acqs : BitVec 12)
  /-- CC_EN_CLEAR (R101): Clearing CC.EN stops fetch, posting and requests for the function on the next clock. -/
  | ccEnClear (f : Fin 1026)
  /-- FUNCTION_LEVEL_RESET (R101): An FLR disables the function, and on a PF every VF of its port. -/
  | functionLevelReset (f : Fin 1026)
  /-- VF_ENABLE_CLEAR (R163): Clearing VF Enable disables every VF of the port at the same clock. -/
  | vfEnableClear (port : Fin 2)
  /-- PORT_LINK_DOWN (R101): A port's link going down disables its functions and sets HQ.EVT.LINKn. -/
  | portLinkDown (port : Fin 2)
  /-- PORT_LINK_UP (R66): A port's link comes up and sets HQ.EVT.LINKn. -/
  | portLinkUp (port : Fin 2) (flit : Bool) (rate : Fin 6) (width : BitVec 5)
  /-- TEARDOWN_DONE (R161): A disabled function holds no slot, withdrawn cell or refold slot, and TEARDOWN_DONE is set. -/
  | teardownDone (f : Fin 1026)
  /-- SHUTDOWN_NOTIFICATION (R102): CC.SHN stops fetch, completes fetched commands and sets CSTS.SHST within 1 s. -/
  | shutdownNotification (f : Fin 1026)
  /-- IDE_INTEGRITY_FAILURE (R71): An IDE stream in Insecure state issues no request and completes received requests as Unsupported Request. -/
  | ideIntegrityFailure (port : Fin 2) (stream : Fin 9)
  /-- PORT_RESET (R432): PERST_N asserted resets the port's link, configuration space and functions. -/
  | portReset (port : Fin 2)
  /-- PERST_RISE (R484): PERST_N rising starts link training once the boot ROM has released the link. -/
  | perstRise (port : Fin 2)
  /-- DOE_DISCOVERY (R70): Answers a DOE Discovery object on a PF mailbox. -/
  | doeDiscovery (port : Fin 2) (index : Byte)
  /-- SPDM_GET_VERSION (R70): SPDM GET_VERSION request served as responder. -/
  | spdmGetVersion (port : Fin 2)
  /-- SPDM_GET_CAPABILITIES (R70): SPDM GET_CAPABILITIES request. -/
  | spdmGetCapabilities (port : Fin 2) (version : Byte)
  /-- SPDM_NEGOTIATE_ALGORITHMS (R70): SPDM NEGOTIATE_ALGORITHMS request. -/
  | spdmNegotiateAlgorithms (port : Fin 2) (sig hash dhe aead : Bool)
  /-- SPDM_GET_DIGESTS (R70): SPDM GET_DIGESTS request. -/
  | spdmGetDigests (port : Fin 2)
  /-- SPDM_GET_CERTIFICATE (R70): SPDM GET_CERTIFICATE request for slot 0 or 1. -/
  | spdmGetCertificate (port : Fin 2) (cert : Fin 8) (off len : BitVec 16)
  /-- SPDM_CHALLENGE (R70): SPDM CHALLENGE request. -/
  | spdmChallenge (port : Fin 2) (cert : Fin 8) (nonce : BitVec 256)
  /-- SPDM_GET_MEASUREMENTS (R373): Returns the measurement registers of the boot chain and etchings. -/
  | spdmGetMeasurements (port : Fin 2) (index : Byte) (sign : Bool) (nonce : BitVec 256)
  /-- SPDM_KEY_EXCHANGE (R70): SPDM KEY_EXCHANGE opens a secure session, up to 4 per PF. -/
  | spdmKeyExchange (port : Fin 2) (cert : Fin 8) (nonce : BitVec 256) (pub : BitVec 768)
  /-- SPDM_FINISH (R70): SPDM FINISH request. -/
  | spdmFinish (port : Fin 2) (session : BitVec 16) (mac : Bool)
  /-- SPDM_HEARTBEAT (R70): SPDM HEARTBEAT request. -/
  | spdmHeartbeat (port : Fin 2) (session : BitVec 16)
  /-- SPDM_KEY_UPDATE (R70): SPDM KEY_UPDATE request. -/
  | spdmKeyUpdate (port : Fin 2) (session : BitVec 16) (op : Byte)
  /-- SPDM_END_SESSION (R70): SPDM END_SESSION request. -/
  | spdmEndSession (port : Fin 2) (session : BitVec 16)
  /-- F_CFG_TENANT_WRITE (R141): A write moving a function to another tenant takes effect only while it is not present or idle, and otherwise sets MOVE_IGN. -/
  | fCfgTenantWrite (v : Word)
  /-- CLS_CFG_WRITE (R149): A write to TEN.CLS_CFG stores EXCL, PACE, SOFT_RSV and OWNER, keeping class 15 flags 0 and refusing a fifth soft reserve. -/
  | clsCfgWrite (v : Word)
  /-- DESCRIPTOR_READ (R179): A posted read descriptor is taken into its die's queue if there is room. -/
  | descriptorRead (ch : Fin 48) (g : Fin 64) (desc : Desc) (dev : Bool) (cyc : BitVec 10)
  /-- DESCRIPTOR_PROGRAM (R181): A posted program descriptor is queued to load and program one unit from its cell chain. -/
  | descriptorProgram (ch : Fin 48) (g : Fin 64) (desc : Desc) (dev : Bool) (cyc : BitVec 10)
  /-- DESCRIPTOR_ERASE (R182): A posted erase descriptor is queued for one multi-plane block. -/
  | descriptorErase (ch : Fin 48) (g : Fin 64) (desc : Desc) (dev : Bool) (cyc : BitVec 10)
  /-- DESCRIPTOR_PROOF_READ (R183): A posted proof read is queued to count corrected or zero bits against its limit. -/
  | descriptorProofRead (ch : Fin 48) (g : Fin 64) (desc : Desc) (dev : Bool) (cyc : BitVec 10)
  /-- DESCRIPTOR_STATUS (R184): A posted status descriptor polls the die and completes with its status byte. -/
  | descriptorStatus (ch : Fin 48) (g : Fin 64) (desc : Desc) (dev : Bool) (cyc : BitVec 10)
  /-- DESCRIPTOR_RESET (R184): A posted reset descriptor resets the die, ending any running or suspended operation. -/
  | descriptorReset (ch : Fin 48) (g : Fin 64) (desc : Desc) (dev : Bool) (cyc : BitVec 10)
  /-- DECISION_POINT (R205): At the start of a command slot no burst holds, the arbiter grants at most one eligible request by tier, kind and age. -/
  | decisionPoint (ch : Fin 48) (slot : Fin 4) (poll : PollResult)
  /-- PREEMPTION_POINT (R209): At a command slot inside a LOAD burst of an owned stroke, the burst ends if the owner has an eligible read request. -/
  | preemptionPoint (ch : Fin 48) (slot : Fin 4) (poll : PollResult)
  /-- READ_BURST_END (R179): A read's last codeword leaves the bus, the read completes and its codewords go to the decoder or buffer. -/
  | readBurstEnd (ch : Fin 48) (zeros : List Nat) (drift : Option Bool)
  /-- LOAD_BURST_END (R181): A load burst ends; after the last page the program start becomes due. -/
  | loadBurstEnd (ch : Fin 48)
  /-- POLL_FLOOR_PASS (R178): The poll floor since a start sequence passes and the sequencer begins polling in granted slots. -/
  | pollFloorPass (ch : Fin 48) (t : Fin 32) (cyc : BitVec 10)
  /-- OPERATION_TIMEOUT (R178): A die still busy past its time-out is reset on its program path, completes with 0x30 and sets TIMEOUT. -/
  | operationTimeout (ch : Fin 48) (t : Fin 32) (cyc : BitVec 10)
  /-- DIE_RESET_DONE (R184): tSUS after a die reset the die is IDLE and a reset operation completes with 0x00. -/
  | dieResetDone (ch : Fin 48) (t : Fin 32) (cyc : BitVec 10)
  /-- SEQ_CQ_HEAD_WRITE (R175): Firmware advancing SEQ_CQ_HEAD frees ring room so held entries are written. -/
  | seqCqHeadWrite (ch : Fin 48) (v : Word)
  /-- BLOCK_STATE_WRITE (R195): A write to SEQ_BST_DATA sets a block's state for descriptors checked after it. -/
  | blockStateWrite (ch : Fin 48) (v : Word)
  /-- DIE_RETIRE (R197): SEQ_DIE_CTL.RETIRE ends the die's operations and queued descriptors with 0x31 until cold reset. -/
  | dieRetire (ch : Fin 48) (v : Word)
  /-- CHANNEL_RETIRE (R197): SEQ_CTL.RETIRE retires the channel and all its dies. -/
  | channelRetire (ch : Fin 48) (v : Word)
  /-- DIE_PRESENT_WRITE (R202): While EN = 0, a PRESENT write takes an ABSENT die to IDLE or an IDLE die to ABSENT; otherwise CFG_IGN is set. -/
  | diePresentWrite (ch : Fin 48) (v : Word)
  /-- PHY_RETRAIN (R201): A write of RETRAIN requests a full training at RATE, acted on only while scheduling is inactive. -/
  | phyRetrain (ch : Fin 48) (v : Word)
  /-- TRAINING_END (R201): A full PHY training ends, with the new rate due at the next sheet boundary. -/
  | trainingEnd (ch : Fin 48)
  /-- BLOCK_REPLACEMENT (R230): A block of a bound row is replaced by a spare: record durable, spare erased, good wordlines copied, later units programmed. -/
  | blockReplacement (die : Fin 1536)
  /-- REPLACEMENT_SWITCH (R230): After the copy the remap names the spare and the old block is made BAD or returned to the spares. -/
  | replacementSwitch (die : Fin 1536)
  /-- ROW_MIGRATION (R224): Thrumlux copies a cold Full zone into a worn free row to level wear. -/
  | rowMigration (g : Fin 96)
  /-- MIGRATION_SWITCH (R224): Once every stripe is programmed and proofed, the zone's binding switches to the new row. -/
  | migrationSwitch (g : Fin 96)
  /-- REBUILD_SWITCH (R271): When every committed stripe is rebuilt, the destination replaces the lost member as a remap. -/
  | rebuildSwitch (g : Fin 96) (r : Fin 3600) (m : Fin 16)
  /-- METADATA_CHECKPOINT (R222): Wear, level and read counts are written to metadata blocks at least once every 65,536 sheets. -/
  | metadataCheckpoint
  /-- HARD_DECODE_DONE (R252): The channel's hard decoder corrects a codeword or fails it, within 2.5 µs of its slot. -/
  | hardDecodeDone (ch : Fin 48) (r : DecodeResult) (cyc : BitVec 10)
  /-- SOFT_DECODE_START (R254): A codeword awaiting soft decode takes a free or displaceable soft decoder, contracted classes first. -/
  | softDecodeStart
  /-- SOFT_DECODE_DONE (R253): A soft decode succeeds with SOFT_OK or leads to the next re-read or the deep tier. -/
  | softDecodeDone (dec : Fin 8) (r : DecodeResult)
  /-- DEEP_ESCALATION (R255): A codeword takes an escalation record, writes TO_DEEP, queues to the deep decoders and posts deep reads. -/
  | deepEscalation
  /-- DEEP_DECODE_DONE (R255): A deep decode writes DEEP_OK or DEEP_FAIL. -/
  | deepDecodeDone (esc : Fin 128) (r : DecodeResult)
  /-- ESC_HEAD_WRITE (R258): Firmware advancing the notice ring head frees room for held notices. -/
  | escHeadWrite (v : Word)
  /-- PARITY_OPEN (R263): Opens an accumulator for a stripe. -/
  | parityOpen (g : Fin 64) (job : Desc)
  /-- PARITY_ADD (R263): Adds a data unit to an accumulator from cells or reads, ignoring a position already added. -/
  | parityAdd (g : Fin 64) (job : Desc)
  /-- PARITY_CLOSE (R264): Writes P and Q into chains and frees the accumulator. -/
  | parityClose (g : Fin 64) (job : Desc)
  /-- PARITY_RECON (R266): Reconstructs one or two positions from 14 contributions. -/
  | parityRecon (g : Fin 64) (job : Desc)
  /-- PARITY_DROP (R264): Drops a stripe's accumulator after a Reset or an emptying withdrawal. -/
  | parityDrop (g : Fin 64) (job : Desc)
  /-- PARITY_CANCEL (R269): Cancels a job in a named slot. -/
  | parityCancel (g : Fin 64) (job : Desc)
  /-- PARITY_CONTRIBUTION (R270): A decoder contribution to a reconstruction arrives and is absorbed within the band's budget. -/
  | parityContribution (band : Fin 3)
  /-- PARITY_JOB_DONE (R269): A parity job completes with one entry in the job ring. -/
  | parityJobDone (engine : Fin 3) (slot : Fin 256)
  /-- PARITY_JCQ_HEAD_WRITE (R269): Firmware advancing the job ring head frees room for held completions. -/
  | parityJcqHeadWrite (v : Word)
  /-- SRAM_PATROL (R274): The patrol reads each on-chip SRAM word once per 1,024 sheets and writes back corrected words. -/
  | sramPatrol (site : SramSite) (found : CopyState)
  /-- STIPPLE_READ_POST (R278): Stipple posts the next proof read of its pass, to start only in an idle stroke. -/
  | stippleReadPost (ch : Fin 48)
  /-- STIPPLE_LATE (R280): A channel's current pass exceeds STIP.TARGET and LATE is set once. -/
  | stippleLate (ch : Fin 48)
  /-- STIP_URG_POST (R281): A write to STIP.URG_POST queues a row for reading before the pass resumes, or sets URG_FULL. -/
  | stipUrgPost (v : Word)
  /-- SELFTEST_RUN (R282): A write of 1 to LDPC.ST_SEL.RUN starts the start-up self-test of every checker. -/
  | selftestRun (v : Word)
  /-- SELFTEST_DONE (R282): The self-test ends and ST_RES gives each checker's result. -/
  | selftestDone (fails : List CheckFail)
  /-- CHECKER_RETEST (R283): A decoder, engine or lane idle for a sheet is retested in service. -/
  | checkerRetest (index : Fin 68) (unit : Nat) (step : Fin 64)
  /-- LANE_SECTOR_START (R289): A cipher lane at a sector boundary takes the next sector by tier order. -/
  | laneSectorStart (lane : Fin 48) (cyc : BitVec 10)
  /-- LANE_SECTOR_DONE (R288): A lane finishes a sector in 2.56 µs, filling cipher fields and SCRC on a write or releasing plaintext on a read. -/
  | laneSectorDone (lane : Fin 48) (cyc : BitVec 10)
  /-- KEY_GENERATE (R301): Fills a slot from the random generator, increments KEYGEN and writes the ROOT-wrapped blob. -/
  | keyGenerate (v : Word)
  /-- KEY_LOAD (R300): Loads an EMPTY slot from a wrapped or plain key after checking tag and binding. -/
  | keyLoad (v : Word)
  /-- KEY_CMD_PURGE (R301): Sets a slot PURGING and clears its key. -/
  | keyCmdPurge (v : Word)
  /-- CIPH_EPOCH_WRITE (R294): A write to CIPH.EPOCH while EN = 0 sets the nonce epoch, zeroes the counter and sets EPOCH_SET. -/
  | ciphEpochWrite (v : Word)
  /-- NONCE_LO_READ (R309): A read of NONCE_LO returns counter bits [31:0] and latches the high half. -/
  | nonceLoRead
  /-- CIPHER_JOB_ENCRYPT (R305): A posted encrypt job runs XTS or GCM on a management object. -/
  | cipherJobEncrypt (g : Fin 64) (job : Desc)
  /-- CIPHER_JOB_DECRYPT (R305): A posted decrypt job runs XTS or GCM, zeroing output on a tag mismatch. -/
  | cipherJobDecrypt (g : Fin 64) (job : Desc)
  /-- CIPHER_JOB_DONE (R306): A cipher job completes with one entry in the job ring. -/
  | cipherJobDone (lane : Fin 48)
  /-- DRAM_TRAIN (R313): A write of DMC.CTL.TRAIN while EN = 0 starts DRAM training and self-test index 64. -/
  | dramTrain (v : Word)
  /-- DRAM_TRAINED (R313): Training ends, failing sub-channels are retired and TRAINED is set. -/
  | dramTrained (obs : DramTraining)
  /-- DRAM_INIT_DONE (R313): Every line is initialised and READY is set. -/
  | dramInitDone
  /-- SUBCHANNEL_RETIRE (R321): A DMC.RETIRE write retires a sub-channel, reissuing its reads to its partner, unless it would retire a whole pair. -/
  | subchannelRetire (v : Word)
  /-- DRAM_REQUEST_ADMIT (R325): A DRAM request is admitted to its sub-channel queue by credit, patrol or spill order. -/
  | dramRequestAdmit (port : Fin 8) (addr : BitVec 40) (write whole : Bool)
  /-- THROTTLE_HOLD_END (R327): A port's row-hammer throttle expires after HOLD strokes. -/
  | throttleHoldEnd (port : Fin 8) (sub : Fin 8) (bank : Fin 32)
  /-- DRAM_READ_RETURN (R319): A DRAM read returns corrected data, or reads the other copy when its copy is uncorrectable. -/
  | dramReadReturn (sub : Fin 8) (own other : CopyState)
  /-- DRAM_PATROL_READ (R320): Patrol reads the next line copy, paced across its lap. -/
  | dramPatrolRead (own other : CopyState)
  /-- DQS_TRACKING (R314): Once every 64 sheets each sub-channel's timing is tracked inside a refresh. -/
  | dqsTracking (sub : Fin 8)
  /-- CELL_ALLOC_REQUEST (R332): A write to CELL.ALLOC_REQ asks for 1 to 1,024 cells for a tenant or the device. -/
  | cellAllocRequest (g : Fin 64) (v : Word)
  /-- CELL_ALLOC_GRANT (R332): A waiting allocation is granted whole as a linked chain. -/
  | cellAllocGrant
  /-- CELL_FREE (R333): A write to CELL.FREE walks a chain and frees each cell. -/
  | cellFree (g : Fin 64) (v : Word)
  /-- CELL_SPLICE (R334): A write to CELL.SPLICE_H joins a chain's tail to another's head. -/
  | cellSplice (g : Fin 64) (v : Word)
  /-- CELL_POOL_ENABLE (R336): Setting CELL.CTL.EN checks the pool areas and initialises the pool, or sets CFG_ERR. -/
  | cellPoolEnable (v : Word)
  /-- CELL_POOL_READY (R336): Pool initialisation ends and READY is set. -/
  | cellPoolReady
  /-- LINK_LO_READ (R338): A read of CELL.LINK_LO takes both halves of the selected link entry. -/
  | linkLoRead
  /-- CAM_SEARCH_RESULT (R345): 96 ns after issue a search returns its winner, MULTI and POISON. -/
  | camSearchResult (slot : Fin 131072)
  /-- CAM_RESEARCH (R346): After the winner's slot completes or is withdrawn, a conventional command searches again with the same limit. -/
  | camResearch (slot : Fin 131072)
  /-- CAM_INVALIDATE (R350): Makes a LIVE or FREE entry HELD. -/
  | camInvalidate (g : Fin 64) (v : Word)
  /-- CAM_WRITE (R350): Loads the ENT registers into a HELD entry. -/
  | camWrite (g : Fin 64) (v : Word)
  /-- CAM_VALIDATE (R350): Checks a HELD entry and makes it LIVE or FREE, or refuses it. -/
  | camValidate (g : Fin 64) (v : Word)
  /-- CAM_READ (R350): Copies an entry into the ENT registers. -/
  | camRead (g : Fin 64) (v : Word)
  /-- CAM_SEARCH (R350): A firmware search with the key in the ENT registers. -/
  | camSearch (g : Fin 64) (v : Word)
  /-- QPUSH (R360): Appends a value to a hardware queue if permitted and not full. -/
  | qpush (g : Fin 64) (rd rs1 rs2 : Fin 32)
  /-- QPOP (R360): Removes and returns the head of an owned queue, or 0. -/
  | qpop (g : Fin 64) (rd rs1 : Fin 32)
  /-- QWAIT (R360): Stalls until an owned queue of the graver's group is non-empty or an enabled interrupt is pending. -/
  | qwait (g : Fin 64) (rd rs1 : Fin 32)
  /-- QWAITG (R360): Stalls until an owned queue of the named groups is non-empty or an enabled interrupt is pending. -/
  | qwaitg (g : Fin 64) (rd rs1 : Fin 32)
  /-- QWAIT_RESUME (R360): A stalled QWAIT or QWAITG resumes with the non-empty queues or groups. -/
  | qwaitResume (g : Fin 64) (irq : Bool)
  /-- WATCHDOG_EXPIRY (R363): A graver's watchdog expires without a pet. -/
  | watchdogExpiry (g : Fin 64)
  /-- GRAVER_PET (R363): A write to GRV.PET restarts the writer's watchdog. -/
  | graverPet (g : Fin 64) (v : Word)
  /-- GRV_CTL_RUN (R381): Takes the selected graver from HALT to RUN at START. -/
  | grvCtlRun (v : Word)
  /-- GRV_CTL_HALT (R381): Takes the selected graver from RUN to HALT. -/
  | grvCtlHalt (v : Word)
  /-- GRV_CTL_FAIL (R363): Firmware fails the selected graver. -/
  | grvCtlFail (v : Word)
  /-- GRV_CTL_MLOCK (R373): Locks measurements 1 to 4 against further extension. -/
  | grvCtlMlock (v : Word)
  /-- GRAVER_MIGRATE (R365): Moves a FAILED graver's queues, routes, start and watchdog to a SPARE and runs it, or is refused. -/
  | graverMigrate (v : Word)
  /-- MEASUREMENT_EXTEND (R373): A write of MEAS_EXT11 extends the selected measurement with SHA-384 unless locked. -/
  | measurementExtend (v : Word)
  /-- ETCHING_STOP (R378): An etching's fault, illegal instruction, watchdog or overlong call clears and restarts it. -/
  | etchingStop (e : Fin 8) (cause : Fin 4)
  /-- EV_NEXT (R379): An etching waits for the next event of its subscribed classes. -/
  | evNext (g : Fin 64)
  /-- EV_NEXT_RETURN (R379): A waiting EV_NEXT returns the next event's record. -/
  | evNextReturn (g : Fin 64)
  /-- STAT_READ (R379): Copies a counter set to the etching. -/
  | statRead (g : Fin 64)
  /-- HATCH_PROPOSE (R379): Writes a plan to standby banks and arms it, checked as a Jenam request. -/
  | hatchPropose (g : Fin 64)
  /-- LEND_PRI (R379): Sets a channel's lend priorities. -/
  | lendPri (g : Fin 64)
  /-- STIP_URGENT (R379): Posts an urgent stipple row. -/
  | stipUrgent (g : Fin 64)
  /-- LOG (R379): Appends to telemetry Data Area 2. -/
  | logAppend (g : Fin 64)
  /-- EXIT (R379): Stops the etching without counting a stop. -/
  | etchExit (g : Fin 64)
  /-- JENAM_PACKET_COMPLETE (R389): A Jenam request complete in its buffer is checked and handled by its SEQ against its origin record. -/
  | jenamPacketComplete (src : JenamSrc) (packet : List Byte)
  /-- JENAM_REPLY_SEND (R401): A write to JNM.TX sends the reply on its path, caches it unless excluded and frees the buffer. -/
  | jenamReplySend (v : Word)
  /-- GET_INFO (R395): Returns part, vendor, stepping, position, cascade size, slot and SVN. -/
  | getInfo (buf : Fin 32)
  /-- GET_GEOMETRY (R21): Returns the die geometry and block division. -/
  | getGeometry (buf : Fin 32)
  /-- TEN_CREATE (R394): Creates a tenant with its floors, caps and reserve. -/
  | tenCreate (buf : Fin 32)
  /-- TEN_SET (R144): Changes an existing tenant's holdings within the sums. -/
  | tenSet (buf : Fin 32)
  /-- TEN_DELETE (R395): Deletes a tenant that owns no functions or namespaces. -/
  | tenDelete (buf : Fin 32)
  /-- FUNC_ASSIGN (R141): Assigns a function's tenant, queue quotas and slot floor and cap. -/
  | funcAssign (buf : Fin 32)
  /-- CLASS_SET (R149): Sets a class's exclusivity, pacing, soft reserve, owner and pace. -/
  | classSet (buf : Fin 32)
  /-- TEN_USAGE (R395): Returns a tenant's sector, command, cell, staged and refold usage. -/
  | tenUsage (buf : Fin 32)
  /-- NS_CREATE (R396): Creates a namespace with its key, class, reservations and active-zone limit. -/
  | nsCreate (buf : Fin 32)
  /-- NS_DELETE (R397): Deletes a namespace: purge key, reset zones, release reservations, erase blobs. -/
  | nsDelete (buf : Fin 32)
  /-- NS_ATTACH (R397): Attaches a namespace to a function of its owner, or of another tenant if shared. -/
  | nsAttach (buf : Fin 32)
  /-- NS_DETACH (R397): Detaches a namespace from a function, ordered as a Send with Select All. -/
  | nsDetach (buf : Fin 32)
  /-- NS_SET (R397): Changes a namespace's class, shared flag or active-zone limit. -/
  | nsSet (buf : Fin 32)
  /-- RESERVE_SET (R397): Changes a namespace's row reservations and zone count. -/
  | reserveSet (buf : Fin 32)
  /-- HANDLE_SET (R109): Defines or deletes a placement handle's groups and SPILL flag. -/
  | handleSet (buf : Fin 32)
  /-- HATCH_WRITE (R398): Writes a plan and seal mask to the standby bank of each named channel. -/
  | hatchWrite (buf : Fin 32)
  /-- HATCH_ARM (R398): Arms the named channels for one sheet, disarming all if any refuses. -/
  | hatchArm (buf : Fin 32)
  /-- HATCH_READ (R398): Returns a channel bank's entries and seal mask. -/
  | hatchRead (buf : Fin 32)
  /-- ARB_SET (R398): Sets lend priorities and the wait limit on named channels. -/
  | arbSet (buf : Fin 32)
  /-- KEY_EXCHANGE (R399): Performs ECDH and loads the derived IMPORT key, returning a signed device public key. -/
  | keyExchange (buf : Fin 32)
  /-- KEY_IMPORT (R399): Loads a namespace's EMPTY slot from a blob wrapped under IMPORT. -/
  | keyImport (buf : Fin 32)
  /-- KEY_PURGE (R399): Purges a namespace's key slot. -/
  | keyPurge (buf : Fin 32)
  /-- KEY_SET (R399): Sets AUTH_FLAG and the mode for the next cryptographic erase. -/
  | keySet (buf : Fin 32)
  /-- DIE_HEALTH (R246): Returns die health records. -/
  | dieHealth (buf : Fin 32)
  /-- BB_RECORDS (R246): Returns grown bad-block records from a SEQ. -/
  | bbRecords (buf : Fin 32)
  /-- ROW_INFO (R246): Returns each row's phase, wear and binding in a die group. -/
  | rowInfo (buf : Fin 32)
  /-- THRESH_GET (R220): Returns the health thresholds. -/
  | threshGet (buf : Fin 32)
  /-- THRESH_SET (R220): Sets a settable health threshold from the next sheet boundary. -/
  | threshSet (buf : Fin 32)
  /-- RETIRE (R235): Retires a die or channel with cause 0x0C. -/
  | retireUnit (buf : Fin 32)
  /-- POWER_GET (R404): Returns power state, operating point, throttle, refusals and temperature. -/
  | powerGet (buf : Fin 32)
  /-- POWER_SET (R419): Sets the operator operating-point cap and the PS0 hold. -/
  | powerSet (buf : Fin 32)
  /-- ECHO (R382): Returns the parameters unchanged. -/
  | echo (buf : Fin 32)
  /-- REG_READ (R395): Reads control-space dwords. -/
  | regRead (buf : Fin 32)
  /-- REG_WRITE (R392): Makes one control-space write when DIAG_WR is 1. -/
  | regWrite (buf : Fin 32)
  /-- SELFTEST_GET (R282): Returns every checker's self-test result. -/
  | selftestGet (buf : Fin 32)
  /-- CAS_TOPOLOGY (R456): Returns each cascade position's presence, role, link and retries. -/
  | casTopology (buf : Fin 32)
  /-- FW_INFO (R400): Returns active and pending slots, SVNs and revoked keys. -/
  | fwInfo (buf : Fin 32)
  /-- OWNER_CERT_SET (R400): Provisions the owner certificate chain in SPDM slot 1. -/
  | ownerCertSet (buf : Fin 32)
  /-- OWNER_CERT_CLEAR (R400): Clears slot 1 and unloads every etching. -/
  | ownerCertClear (buf : Fin 32)
  /-- ETCH_STAGE (R400): Stages a piece of an etching image. -/
  | etchStage (buf : Fin 32)
  /-- ETCH_LOAD (R376): Checks and starts an etching on a graver. -/
  | etchLoad (buf : Fin 32)
  /-- ETCH_UNLOAD (R400): Stops an etching, releases its graver and resets its measurement. -/
  | etchUnload (buf : Fin 32)
  /-- ETCH_STATUS (R400): Returns each etching slot's state and stop records. -/
  | etchStatus (buf : Fin 32)
  /-- SET_ENDPOINT_ID (R386): MCTP control message assigning the device's EID. -/
  | setEndpointId (i3c : Bool) (src tag : Byte) (op eid : Byte)
  /-- GET_ENDPOINT_ID (R386): MCTP control message returning the EID. -/
  | getEndpointId (i3c : Bool) (src tag : Byte)
  /-- GET_MCTP_VERSION_SUPPORT (R386): MCTP control message returning supported versions. -/
  | getMctpVersionSupport (i3c : Bool) (src tag : Byte) (kind : Byte)
  /-- GET_MESSAGE_TYPE_SUPPORT (R386): MCTP control message returning supported message types. -/
  | getMessageTypeSupport (i3c : Bool) (src tag : Byte)
  /-- GET_VENDOR_DEFINED_MESSAGE_SUPPORT (R386): MCTP control message returning vendor-defined support. -/
  | getVendorDefinedMessageSupport (i3c : Bool) (src tag : Byte) (sel : Byte)
  /-- READ_NVME_MI_DATA_STRUCTURE (R386): NVMe-MI command returning a data structure. -/
  | readNvmeMiDataStructure (i3c : Bool) (src tag : Byte) (dw0 dw1 : Word)
  /-- NVM_SUBSYSTEM_HEALTH_STATUS_POLL (R386): NVMe-MI subsystem health poll. -/
  | nvmSubsystemHealthStatusPoll (i3c : Bool) (src tag : Byte) (dw0 dw1 : Word)
  /-- CONTROLLER_HEALTH_STATUS_POLL (R386): NVMe-MI controller health poll. -/
  | controllerHealthStatusPoll (i3c : Bool) (src tag : Byte) (dw0 dw1 : Word)
  /-- CONFIGURATION_GET (R386): NVMe-MI Configuration Get. -/
  | configurationGet (i3c : Bool) (src tag : Byte) (dw0 dw1 : Word)
  /-- CONFIGURATION_SET (R386): NVMe-MI Configuration Set. -/
  | configurationSet (i3c : Bool) (src tag : Byte) (dw0 dw1 : Word)
  /-- VPD_READ (R386): NVMe-MI VPD Read. -/
  | vpdRead (i3c : Bool) (src tag : Byte) (dw0 dw1 : Word)
  /-- PS_ENTRY_ATTEMPT (R406): An idle device attempts entry to the selected non-operational state, repeated every 256 sheets. -/
  | psEntryAttempt (followers : List (Fin 4))
  /-- APST_IDLE_EXPIRY (R410): Device idle time reaches a PF's APST entry and its selection moves to ITPS. -/
  | apstIdleExpiry (port : Fin 2)
  /-- WAKE_SOURCE (R411): An enabled wake source starts exit from PS3 or PS4, or aborts an entry. -/
  | wakeSource (bit : Fin 24) (obs : WakeObs)
  /-- AON_ALARM (R411): AON.TICK reaches AON.ALARM. -/
  | aonAlarm
  /-- CLK32K_STOP (R423): The 32.768 kHz input stops for more than 2 ms and CLK_STOP is set. -/
  | clk32kStop
  /-- OP_TARGET_WRITE (R420): A new target operating point starts a voltage-first rise or frequency-first fall. -/
  | opTargetWrite (v : Word)
  /-- VOLTAGE_CONFIRMED (R420): The regulator's read-back lies within tolerance, or settling time passes, and the frequency may rise. -/
  | voltageConfirmed
  /-- OP_TRIM_WRITE (R420): A change of TRIM for the current point is sent to the regulator at once. -/
  | opTrimWrite (point : Fin 4) (v : Word)
  /-- PMBUS_TRANSACTION_FAIL (R422): A PMBus transaction failing three times sets PMB_FAIL and abandons a rise. -/
  | pmbusTransactionFail
  /-- THERMAL_TRIP (R429): A sensor at 125 °C for a whole stroke trips the device into a flush and fatal stop. -/
  | thermalTrip
  /-- THERM_N_FALL (R482): THERM_N low for 1 µs forces throttle level 3. -/
  | thermNFall
  /-- POWER_ON_RESET (R432): VDD_AON rising resets everything and sets AON_LOST. -/
  | powerOnReset
  /-- COLD_RESET (R434): Release of cold reset at power good starts the stroke PLL, boot ROM and the cold start. -/
  | coldReset (obs : ResetObs)
  /-- THRUMLUX_STARTUP (R435): Thrumlux completes start-up steps 1 to 9 in order and enables fetch. -/
  | thrumluxStartup (obs : StartObs)
  /-- ADMISSION_TIMEOUT (R456): 5 s after power good, followers not ready are unreachable and CSTS.RDY may be set. -/
  | admissionTimeout
  /-- RST_CTL_COLD (R439): A write of SYS.RST_CTL.COLD starts the flush and then a cold reset. -/
  | rstCtlCold (v : Word)
  /-- PWRFAIL_FALL (R439): PWRFAIL_N low for 500 ns disables every function and starts the flush. -/
  | pwrfailFall
  /-- FLUSH_END (R442): The end marker is programmed, SYS.FLUSH records the flush and a cold reset follows if power remains. -/
  | flushEnd (us10 : BitVec 16) (power : Bool)
  /-- RAIL_FAULT (R480): A rail out of limits drives WP_N low and CE_N high on every flash channel within 1 µs. -/
  | railFault
  /-- FATAL_STOP (R452): A fatal stop flushes, sets CSTS.CFS and FATAL and stops fetching. -/
  | fatalStop
  /-- DALESK_FLIT_RECEIVE (R460): A received data flit is accepted, NAKed or dropped as a duplicate by its sequence number. -/
  | daleskFlitReceive (port : Fin 2) (flit : DlkFlit)
  /-- DALESK_ACK_SEND (R460): An ACK is sent after 64 accepted flits or 1 µs. -/
  | daleskAckSend (port : Fin 2)
  /-- DALESK_REPLAY_TIMEOUT (R460): A NAK or 4 µs without ACK replays from the oldest unacknowledged flit. -/
  | daleskReplayTimeout (port : Fin 2)
  /-- DALESK_PORT_DOWN (R460): Eight replays from one flit, or 1 ms without training, take the port down. -/
  | daleskPortDown (port : Fin 2)
  /-- DALESK_LANE_FAIL (R460): A failing lane makes the port retrain at x2 and sets LANE and DLK_LANE. -/
  | daleskLaneFail (port : Fin 2)
  /-- DALESK_REQUEST_RECEIVE (R461): A cascade request is executed once by its request ID. -/
  | daleskRequestReceive (src : Fin 4) (id : Word) (body : DlkRequest)
  /-- FOLLOWER_UNREACHABLE (R467): No route or 10 ms without liveness makes a follower unreachable and its commands wait. -/
  | followerUnreachable (pos : Fin 4)
  /-- UNREACHABLE_HOLD_EXPIRY (R467): After DLK.HOLD.MS, uncommitted commands needing the follower complete with Device Unreachable. -/
  | unreachableHoldExpiry (pos : Fin 4)
  /-- FOLLOWER_RETURN (R468): A returning follower is readmitted and the master resends unanswered requests. -/
  | followerReturn (pos : Fin 4)
  /-- PWRFAIL_N_RISE (R481): PWRFAIL_N having been high for 10 ms releases a held start, or makes the cold reset after a fall before step 5 of start-up. -/
  | pwrfailNRise
  /-- DATA_TRANSFER_ERROR (R120): A host data-transfer error on a write's data withdraws the write before its commit point, and its zone's check pointer falls back. -/
  | dataTransferError (slot : Fin 131072)
  /-- WRITE_DATA_ARRIVAL (R78): Write data returns from host memory after the grant and is queued to the cipher lanes as write sectors. -/
  | writeDataArrival (slot : Fin 131072) (idx : Fin 65536) (data : Payload)
  /-- DALESK_PORT_UP (R460): A Dalesk port that was down completes retraining, comes up and sets DLK.EVT.LINK_UP. -/
  | daleskPortUp (port : Fin 2) (width : Fin 5) (peer : Fin 4)
  /-- VF_ENABLE_SET (R69): Setting VF Enable with NumVFs makes the covered VFs present as NVMe controllers. -/
  | vfEnableSet (port : Fin 2) (n : Fin 1025)
  /-- IDE_KM_REQUEST (R70): An IDE_KM message over a secure SPDM session programs or activates the keys of a port's IDE stream. -/
  | ideKmRequest (port : Fin 2) (session : BitVec 16) (stream : Fin 9) (go : Bool)
  /-- DALESK_RESPONSE_RECEIVE (R463): The master takes a follower's response whole: sectors acknowledged in follower cells, read ciphertext for its cipher lane, or a liveness or replay report. -/
  | daleskResponseReceive (src : Fin 4) (body : DlkResponse)
  deriving DecidableEq, Repr

end Sys2Proof
end

