-- ==== Sys2Proof/Config.lean ====
section
/-! DEFINITION. What the spec leaves open: free values (opaque, no body; log entry 9), and the published standards the
device follows whose text is not in the spec (log entry 8). -/

namespace Sys2Proof.Config

/-! ### Free values, applied to the counter `Dev.nfree` and to a place -/

/-- User bytes of a codeword of which the spec says nothing: a unit whose program failed or was broken off, the
uncorrected bytes of a RAW read. -/
opaque freePayload : Nat → Nat → Payload
/-- The metadata bytes of such a codeword. -/
opaque freeMd : Nat → Nat → BitVec 512

/-- Whether a completion with this status (256 × SCT + SC) carries Do Not Retry, where the spec does not say. -/
opaque dnr : Nat → Bool

/-! ### Published ciphers (R292, R293): the texts of XTS-AES-256 and AES-256-GCM are not in the spec -/

/-- XTS-AES-256 over one data unit: key (data key, then tweak key), tweak, length in bytes, data. -/
opaque xtsEnc : BitVec 512 → Nat → Nat → Nat → Nat
opaque xtsDec : BitVec 512 → Nat → Nat → Nat → Nat
/-- The AES-256-GCM key stream over a text: key, IV, length in bytes, text; the same both ways. -/
opaque gcmText : BitVec 512 → Nat → Nat → Nat → Nat
/-- The AES-256-GCM tag: key, IV, additional data, length of the ciphertext, ciphertext. -/
opaque gcmTag : BitVec 512 → Nat → List Byte → Nat → Nat → BitVec 128
/-- What the internal random generator gives, draw by draw (R299). -/
opaque random : Nat → BitVec 512
/-- The ROOT key, fixed in manufacture (Table 10-3). -/
opaque rootKey : BitVec 512

/-- SHA-384 (FIPS 180-4). -/
opaque sha384 : List Byte → BitVec 384
/-- A key pair of ECDH over P-384: the public key of the device's pair number n (x then y). -/
opaque ecdhPublic : Nat → BitVec 768
/-- The 32 bytes that HKDF-SHA384 derives from the ECDH secret of the device's pair number n and a peer's public key, for a label. -/
opaque ecdhDerive : Nat → BitVec 768 → Nat → BitVec 512
/-- The ECDSA P-384 signature, r then s, that the device makes of a message with its identity key, draw by draw. -/
opaque ecdsaSign : Nat → List Byte → BitVec 768
/-- Whether an ECDSA P-384 signature verifies: hash of the public key, message, signature (R370). -/
opaque ecdsaVerify : BitVec 384 → List Byte → List Byte → Bool
/-- The hashes of the firmware keys fused in manufacture, by key index (R370). -/
opaque fusedKey : Nat → BitVec 384
/-- Whether an owner's certificate chain checks, and the hash of the owner key it holds (R376, R400). -/
opaque chainOk : List Byte → Bool
opaque chainKey : List Byte → BitVec 384

/-! ### What manufacture put into the part (R15, R21, R369) -/

/-- The images of firmware slot 1, and the certificate chain of SPDM slot 0. -/
opaque slot1 : List Byte
opaque deviceChain : List Byte
/-- The boot ROM, by offset. -/
opaque bootRom : Nat → Byte
/-- The settings in the body of a configuration image (R66, R369, R392): `HQ.PORT_CFG.MODE`, and `JNM.CTL` MCTP_WR and DIAG_WR. -/
opaque imageMode : List Byte → Nat
opaque imageMctpWr : List Byte → Bool
opaque imageDiagWr : List Byte → Bool

/-! ### What the host has set in PCIe configuration space, which no register of the spec shows -/

/-- The Selective IDE stream (1 to 8) that the association registers give to a function's traffic, 0 for none. -/
opaque selectiveStream : Nat → Nat
/-- Relaxed Ordering is enabled in a function's Device Control register (R68). -/
opaque relaxedOrdering : Nat → Bool

/-! ### Layouts the spec does not state -/

/-- A byte of a log page or data structure that the spec leaves to the base standards: page, offset, counter. -/
opaque freeByte : Nat → Nat → Nat → Byte
/-- The FEC parity of a Dalesk flit over its bytes 0 to 251 (Table 17-2), whose code the spec does not give. -/
opaque laneFec : List Byte → Word
/-- The bytes in which an object is laid out whose layout the spec does not state: its kind and its contents. -/
opaque encode : Nat → List Nat → List Byte
/-- The status code of Firmware Slot Read Only, which no source in the spec numbers. -/
opaque slotReadOnly : Nat

end Sys2Proof.Config
end

