-- ==== Sys2Proof/Machine/Maps.lean ====
section
/-! DEFINITION. The operations over sparse maps and over lists that every block uses. -/

namespace Sys2Proof.Machine

/-- What a sparse map holds at `k`, `dflt` where it lists nothing. -/
def mapGet {α : Type} (dflt : α) : SMap α → Nat → α
  | [], _ => dflt
  | (a, v) :: rest, k => if a = k then v else mapGet dflt rest k

/-- Removes what is listed at `k`. -/
def mapErase {α : Type} : SMap α → Nat → SMap α
  | [], _ => []
  | (a, v) :: rest, k => if a = k then mapErase rest k else (a, v) :: mapErase rest k

/-- Lists `v` at `k`, keeping the numbers strictly rising. -/
def mapInsert {α : Type} : SMap α → Nat → α → SMap α
  | [], k, v => [(k, v)]
  | (a, w) :: rest, k, v =>
    if k < a then (k, v) :: (a, w) :: rest
    else if a = k then (k, v) :: rest
    else (a, w) :: mapInsert rest k v

/-- Writes `v` at `k`; writing the value an unlisted number has removes the entry, so equal maps are equal lists. -/
def mapSet {α : Type} [DecidableEq α] (dflt : α) (m : SMap α) (k : Nat) (v : α) : SMap α :=
  if v = dflt then mapErase m k else mapInsert m k v

/-- Changes what stands at `k`. -/
def mapMod {α : Type} [DecidableEq α] (dflt : α) (m : SMap α) (k : Nat) (f : α → α) : SMap α :=
  mapSet dflt m k (f (mapGet dflt m k))

/-- What stands at `k`, if anything is listed there. -/
def mapFind {α : Type} : SMap α → Nat → Option α
  | [], _ => none
  | (a, v) :: rest, k => if a = k then some v else mapFind rest k

/-- The numbers of a map are above `k` and strictly rising. -/
def mapSortedFrom {α : Type} : Nat → SMap α → Bool
  | _, [] => true
  | k, (a, _) :: rest => decide (k ≤ a) && mapSortedFrom (a + 1) rest

/-- The canonical form: numbers strictly rising, no entry equal to what an unlisted number has. -/
def mapWf {α : Type} [DecidableEq α] (dflt : α) (m : SMap α) : Bool :=
  mapSortedFrom 0 m && m.all (fun e => decide (e.2 ≠ dflt))

/-- Replaces the first element `p` holds of by `f` of it. -/
def listModFirst {α : Type} (p : α → Bool) (f : α → α) : List α → List α
  | [] => []
  | x :: xs => if p x then f x :: xs else x :: listModFirst p f xs

/-- Removes the first element `p` holds of. -/
def listEraseFirst {α : Type} (p : α → Bool) : List α → List α
  | [] => []
  | x :: xs => if p x then xs else x :: listEraseFirst p xs

/-- Replaces element `n`. -/
def listSetAt {α : Type} : List α → Nat → α → List α
  | [], _, _ => []
  | _ :: xs, 0, v => v :: xs
  | x :: xs, n + 1, v => x :: listSetAt xs n v

/-- Adds `x` at the end unless it is there. -/
def listAdd {α : Type} [DecidableEq α] (l : List α) (x : α) : List α :=
  if x ∈ l then l else l ++ [x]

/-- Applies `f` for every index below `n`, in rising order. -/
@[irreducible] def forUpTo {σ : Type} (n : Nat) (f : Nat → σ → σ) (s : σ) : σ := (List.range n).foldl (fun s i => f i s) s

/-- The numbers below `n` that `p` holds of. -/
def countUpTo (n : Nat) (p : Nat → Bool) : Nat := ((List.range n).filter p).length

/-- A counter that stops at `top`. -/
def satAdd (top x y : Nat) : Nat := min top (x + y)

/-- Bits `hi` to `lo` of a number. -/
def bits (w hi lo : Nat) : Nat := (w / 2 ^ lo) % 2 ^ (hi - lo + 1)

/-- Bit `i` of a number. -/
def bit (w i : Nat) : Bool := w / 2 ^ i % 2 = 1

/-- `w` with bits `hi` to `lo` replaced by the low bits of `v`. -/
def setBits (w hi lo v : Nat) : Nat :=
  w - bits w hi lo * 2 ^ lo + v % 2 ^ (hi - lo + 1) * 2 ^ lo

/-- 1 for true. -/
def b2n (b : Bool) : Nat := if b then 1 else 0

end Sys2Proof.Machine
end

