-- ==== Sys2Proof/Machine/RegTable.lean ====
section
/-! DEFINITION. The register tables of the spec as data (rules R64, R65, R103, R140, R164, R202, R217, R285, R286, R287, R309,
R337, R338, R353, R381, R401, R430, R431, R453, R471): every register with its address, its bank and its fields, each
with its bits, its access code (Table 0-3), its reset value and, where the table gives one, its legal range. -/

namespace Sys2Proof.Machine

/-- The access codes of Table 0-3. -/
inductive Access where
  | rw | ro | w1c | w1s | wo | rc
  deriving DecidableEq, Repr

/-- What selects the copy of a register that is held more than once: the initiating graver, a selection register of
the same window, or nothing. -/
inductive Bank where

  | one
  | graver
  | tenant
  | tenFunc
  | cls
  | func
  | ns
  | zone
  | keepBank
  | port
  | subch
  | keySlot
  | bucket
  | checker
  | chSel
  | origin
  | gravSel
  | queue
  | irq
  | die
  | blockState
  | eye
  | pq
  deriving DecidableEq, Repr

/-- One field of a register: bits, access, reset value, legal range (none: every value). -/
structure FieldDef where
  hi : Nat
  lo : Nat
  acc : Access
  reset : Nat
  range : Option (Nat × Nat)
  deriving DecidableEq, Repr

/-- One register: its number in these tables, its address (of channel 0 for a register of the CHANn windows), its bank, its fields. -/
structure RegDef where
  num : Nat
  addr : Nat
  bank : Bank
  fields : List FieldDef
  deriving DecidableEq, Repr

/-- A field by name: its register and its bits. -/
structure Fld where
  reg : RegDef
  hi : Nat
  lo : Nat
  deriving DecidableEq, Repr

namespace Rg

/-- SYS.IDENT (R453). -/
def SYS_IDENT : RegDef := ⟨0, 0x0200000000, .one, [⟨31, 16, .ro, 0x5658, none⟩, ⟨15, 0, .ro, 0x4800, none⟩]⟩
/-- SYS.REVISION (R453). -/
def SYS_REVISION : RegDef := ⟨1, 0x0200000004, .one, [⟨15, 8, .ro, 0xA1, none⟩, ⟨7, 0, .ro, 0x0, none⟩]⟩
/-- SYS.RST_CTL (R453). -/
def SYS_RST_CTL : RegDef := ⟨2, 0x0200000008, .one, [⟨0, 0, .w1s, 0x0, none⟩]⟩
/-- SYS.RST_CAUSE (R453). -/
def SYS_RST_CAUSE : RegDef := ⟨3, 0x020000000C, .one, [⟨4, 4, .ro, 0x0, none⟩, ⟨3, 3, .ro, 0x0, none⟩, ⟨2, 2, .ro, 0x0, none⟩, ⟨1, 1, .ro, 0x0, none⟩, ⟨0, 0, .ro, 0x1, none⟩]⟩
/-- SYS.FAULT (R453). -/
def SYS_FAULT : RegDef := ⟨4, 0x0200000010, .one, [⟨9, 9, .ro, 0x0, none⟩, ⟨8, 8, .ro, 0x0, none⟩, ⟨7, 7, .ro, 0x0, none⟩, ⟨6, 6, .ro, 0x0, none⟩, ⟨5, 5, .ro, 0x0, none⟩, ⟨4, 4, .ro, 0x0, none⟩, ⟨3, 3, .ro, 0x0, none⟩, ⟨2, 2, .ro, 0x0, none⟩, ⟨1, 1, .ro, 0x0, none⟩, ⟨0, 0, .ro, 0x0, none⟩]⟩
/-- SYS.EVT (R453). -/
def SYS_EVT : RegDef := ⟨5, 0x0200000014, .one, [⟨9, 0, .w1c, 0x0, none⟩]⟩
/-- SYS.EVT_IE (R453). -/
def SYS_EVT_IE : RegDef := ⟨6, 0x0200000018, .one, [⟨9, 0, .rw, 0x0, none⟩]⟩
/-- SYS.FLUSH_SEQ (R453). -/
def SYS_FLUSH_SEQ : RegDef := ⟨7, 0x0200000020, .one, [⟨31, 0, .ro, 0x0, none⟩]⟩
/-- SYS.FLUSH_TIME (R453). -/
def SYS_FLUSH_TIME : RegDef := ⟨8, 0x0200000024, .one, [⟨31, 31, .ro, 0x0, none⟩, ⟨15, 0, .ro, 0x0, none⟩]⟩
/-- STRK.CTL (R64). -/
def STRK_CTL : RegDef := ⟨9, 0x0200010000, .one, [⟨2, 2, .w1s, 0x0, none⟩, ⟨1, 1, .rw, 0x0, none⟩, ⟨0, 0, .rw, 0x0, none⟩]⟩
/-- STRK.STAT (R64). -/
def STRK_STAT : RegDef := ⟨10, 0x0200010004, .one, [⟨4, 4, .w1c, 0x0, none⟩, ⟨3, 3, .w1c, 0x0, none⟩, ⟨2, 2, .w1c, 0x0, none⟩, ⟨1, 1, .w1c, 0x0, none⟩, ⟨0, 0, .ro, 0x0, none⟩]⟩
/-- STRK.COUNT_LO (R64). -/
def STRK_COUNT_LO : RegDef := ⟨11, 0x0200010008, .one, [⟨31, 0, .ro, 0x0, none⟩]⟩
/-- STRK.COUNT_HI (R64). -/
def STRK_COUNT_HI : RegDef := ⟨12, 0x020001000C, .one, [⟨31, 0, .ro, 0x0, none⟩]⟩
/-- STRK.PHASE (R64). -/
def STRK_PHASE : RegDef := ⟨13, 0x0200010010, .one, [⟨17, 10, .ro, 0x0, none⟩, ⟨9, 0, .ro, 0x0, none⟩]⟩
/-- STRK.CMP_LO (R64). -/
def STRK_CMP_LO : RegDef := ⟨14, 0x0200010014, .one, [⟨31, 0, .rw, 0x0, none⟩]⟩
/-- STRK.CMP_HI (R64). -/
def STRK_CMP_HI : RegDef := ⟨15, 0x0200010018, .one, [⟨31, 0, .rw, 0x0, none⟩]⟩
/-- STRK.LOAD_LO (R64). -/
def STRK_LOAD_LO : RegDef := ⟨16, 0x020001001C, .one, [⟨31, 0, .rw, 0x0, none⟩]⟩
/-- STRK.LOAD_HI (R64). -/
def STRK_LOAD_HI : RegDef := ⟨17, 0x0200010020, .one, [⟨23, 0, .rw, 0x0, none⟩]⟩
/-- STRK.SLIPS (R64). -/
def STRK_SLIPS : RegDef := ⟨18, 0x0200010024, .one, [⟨15, 0, .rc, 0x0, none⟩]⟩
/-- PWR.CTL (R430). -/
def PWR_CTL : RegDef := ⟨19, 0x0200020000, .one, [⟨1, 1, .rw, 0x0, none⟩, ⟨0, 0, .rw, 0x1, none⟩]⟩
/-- PWR.STAT (R430). -/
def PWR_STAT : RegDef := ⟨20, 0x0200020004, .one, [⟨31, 31, .ro, 0x0, none⟩, ⟨25, 24, .ro, 0x0, none⟩, ⟨21, 20, .ro, 0x0, none⟩, ⟨17, 16, .ro, 0x0, none⟩, ⟨10, 8, .ro, 0x0, none⟩, ⟨2, 0, .ro, 0x0, none⟩]⟩
/-- PWR.OP_CTL (R430). -/
def PWR_OP_CTL : RegDef := ⟨21, 0x0200020008, .one, [⟨5, 4, .rw, 0x0, none⟩, ⟨1, 0, .rw, 0x0, none⟩]⟩
/-- PWR.OP_V0 (R430). -/
def PWR_OP_V0 : RegDef := ⟨22, 0x0200020010, .one, [⟨31, 16, .ro, 0x0, none⟩, ⟨3, 0, .rw, 0x0, some (0, 10)⟩]⟩
/-- PWR.OP_V1 (R430). -/
def PWR_OP_V1 : RegDef := ⟨23, 0x0200020014, .one, [⟨31, 16, .ro, 0x0, none⟩, ⟨3, 0, .rw, 0x0, some (0, 10)⟩]⟩
/-- PWR.OP_V2 (R430). -/
def PWR_OP_V2 : RegDef := ⟨24, 0x0200020018, .one, [⟨31, 16, .ro, 0x0, none⟩, ⟨3, 0, .rw, 0x0, some (0, 10)⟩]⟩
/-- PWR.OP_V3 (R430). -/
def PWR_OP_V3 : RegDef := ⟨25, 0x020002001C, .one, [⟨31, 16, .ro, 0x0, none⟩, ⟨3, 0, .rw, 0x0, some (0, 10)⟩]⟩
/-- PWR.PMB_CFG (R430). -/
def PWR_PMB_CFG : RegDef := ⟨26, 0x0200020020, .one, [⟨28, 24, .ro, 0x0, none⟩, ⟨17, 16, .rw, 0x1, some (0, 2)⟩, ⟨15, 8, .rw, 0x0, none⟩, ⟨6, 0, .rw, 0x40, none⟩]⟩
/-- PWR.VSETTLE (R430). -/
def PWR_VSETTLE : RegDef := ⟨27, 0x0200020024, .one, [⟨23, 16, .rw, 0xA, none⟩, ⟨15, 0, .rw, 0xC8, none⟩]⟩
/-- PWR.IDLE (R430). -/
def PWR_IDLE : RegDef := ⟨28, 0x0200020028, .one, [⟨31, 0, .ro, 0x0, none⟩]⟩
/-- PWR.ENTRY_CNT (R430). -/
def PWR_ENTRY_CNT : RegDef := ⟨29, 0x020002002C, .one, [⟨31, 16, .rc, 0x0, none⟩, ⟨15, 0, .rc, 0x0, none⟩]⟩
/-- PWR.REFUSER (R430). -/
def PWR_REFUSER : RegDef := ⟨30, 0x0200020030, .one, [⟨23, 20, .ro, 0x0, none⟩, ⟨15, 12, .ro, 0x0, none⟩, ⟨11, 0, .ro, 0x0, none⟩]⟩
/-- PWR.THERM (R430). -/
def PWR_THERM : RegDef := ⟨31, 0x0200020034, .one, [⟨16, 16, .ro, 0x0, none⟩, ⟨15, 0, .ro, 0x0, none⟩]⟩
/-- PWR.THERM_CFG (R430). -/
def PWR_THERM_CFG : RegDef := ⟨32, 0x0200020038, .one, [⟨31, 24, .rw, 0x3, none⟩, ⟨23, 16, .rw, 0x69, none⟩, ⟨15, 8, .rw, 0x64, none⟩, ⟨7, 0, .rw, 0x5F, none⟩]⟩
/-- PWR.EVT (R430). -/
def PWR_EVT : RegDef := ⟨33, 0x0200020040, .one, [⟨5, 5, .w1c, 0x0, none⟩, ⟨4, 4, .w1c, 0x0, none⟩, ⟨3, 3, .w1c, 0x0, none⟩, ⟨2, 2, .w1c, 0x0, none⟩, ⟨1, 1, .w1c, 0x0, none⟩, ⟨0, 0, .w1c, 0x0, none⟩]⟩
/-- PWR.EVT_IE (R430). -/
def PWR_EVT_IE : RegDef := ⟨34, 0x0200020044, .one, [⟨5, 0, .rw, 0x0, none⟩]⟩
/-- AON.STAT (R431). -/
def AON_STAT : RegDef := ⟨35, 0x0200030000, .one, [⟨5, 5, .w1c, 0x1, none⟩, ⟨4, 4, .w1c, 0x0, none⟩, ⟨3, 3, .w1c, 0x0, none⟩, ⟨1, 1, .ro, 0x0, none⟩, ⟨0, 0, .ro, 0x0, none⟩]⟩
/-- AON.TICK_LO (R431). -/
def AON_TICK_LO : RegDef := ⟨36, 0x0200030004, .one, [⟨31, 0, .ro, 0x0, none⟩]⟩
/-- AON.TICK_HI (R431). -/
def AON_TICK_HI : RegDef := ⟨37, 0x0200030008, .one, [⟨15, 0, .ro, 0x0, none⟩]⟩
/-- AON.SAVE_SHEET_LO (R431). -/
def AON_SAVE_SHEET_LO : RegDef := ⟨38, 0x020003000C, .one, [⟨31, 0, .ro, 0x0, none⟩]⟩
/-- AON.SAVE_SHEET_HI (R431). -/
def AON_SAVE_SHEET_HI : RegDef := ⟨39, 0x0200030010, .one, [⟨23, 0, .ro, 0x0, none⟩]⟩
/-- AON.SAVE_TICK_LO (R431). -/
def AON_SAVE_TICK_LO : RegDef := ⟨40, 0x0200030014, .one, [⟨31, 0, .ro, 0x0, none⟩]⟩
/-- AON.SAVE_TICK_HI (R431). -/
def AON_SAVE_TICK_HI : RegDef := ⟨41, 0x0200030018, .one, [⟨15, 0, .ro, 0x0, none⟩]⟩
/-- AON.WAKE_EN (R431). -/
def AON_WAKE_EN : RegDef := ⟨42, 0x020003001C, .one, [⟨23, 0, .rw, 0x7F, none⟩]⟩
/-- AON.WAKE_SRC (R431). -/
def AON_WAKE_SRC : RegDef := ⟨43, 0x0200030020, .one, [⟨23, 0, .w1c, 0x0, none⟩]⟩
/-- AON.ALARM_LO (R431). -/
def AON_ALARM_LO : RegDef := ⟨44, 0x0200030024, .one, [⟨31, 0, .rw, 0xFFFFFFFF, none⟩]⟩
/-- AON.ALARM_HI (R431). -/
def AON_ALARM_HI : RegDef := ⟨45, 0x0200030028, .one, [⟨15, 0, .rw, 0xFFFF, none⟩]⟩
/-- AON.KB_BAD (R431). -/
def AON_KB_BAD : RegDef := ⟨46, 0x020003002C, .one, [⟨31, 0, .w1c, 0x0, none⟩]⟩
/-- AON.KB_SEL (R431). -/
def AON_KB_SEL : RegDef := ⟨47, 0x0200030030, .one, [⟨4, 0, .rw, 0x0, none⟩]⟩
/-- AON.KB_SIG_LO (R431). -/
def AON_KB_SIG_LO : RegDef := ⟨48, 0x0200030034, .keepBank, [⟨31, 0, .ro, 0x0, none⟩]⟩
/-- AON.KB_SIG_HI (R431). -/
def AON_KB_SIG_HI : RegDef := ⟨49, 0x0200030038, .keepBank, [⟨31, 0, .ro, 0x0, none⟩]⟩
/-- AON.EVT_IE (R431). -/
def AON_EVT_IE : RegDef := ⟨50, 0x0200030040, .one, [⟨3, 0, .rw, 0x0, none⟩]⟩
/-- HQ.CTL (R103). -/
def HQ_CTL : RegDef := ⟨51, 0x0200100000, .one, [⟨0, 0, .rw, 0x0, none⟩]⟩
/-- HQ.PORT_CFG (R103). -/
def HQ_PORT_CFG : RegDef := ⟨52, 0x0200100004, .one, [⟨1, 0, .rw, 0x0, some (0, 1)⟩]⟩
/-- HQ.LINK_STAT (R103). -/
def HQ_LINK_STAT : RegDef := ⟨53, 0x0200100008, .one, [⟨31, 31, .ro, 0x0, none⟩, ⟨30, 30, .ro, 0x0, none⟩, ⟨29, 29, .ro, 0x0, none⟩, ⟨28, 26, .ro, 0x0, none⟩, ⟨25, 21, .ro, 0x0, none⟩, ⟨15, 15, .ro, 0x0, none⟩, ⟨14, 14, .ro, 0x0, none⟩, ⟨13, 13, .ro, 0x0, none⟩, ⟨12, 10, .ro, 0x0, none⟩, ⟨9, 5, .ro, 0x0, none⟩]⟩
/-- HQ.FETCH_BUDGET (R103). -/
def HQ_FETCH_BUDGET : RegDef := ⟨54, 0x020010000C, .one, [⟨9, 0, .rw, 0x200, some (1, 1023)⟩]⟩
/-- HQ.INFLIGHT (R103). -/
def HQ_INFLIGHT : RegDef := ⟨55, 0x0200100010, .one, [⟨17, 0, .ro, 0x0, none⟩]⟩
/-- HQ.QPOOL (R103). -/
def HQ_QPOOL : RegDef := ⟨56, 0x0200100014, .one, [⟨30, 16, .ro, 0x4000, none⟩, ⟨14, 0, .ro, 0x4000, none⟩]⟩
/-- HQ.FUNC_SEL (R103). -/
def HQ_FUNC_SEL : RegDef := ⟨57, 0x0200100018, .one, [⟨10, 0, .rw, 0x0, some (0, 1025)⟩]⟩
/-- HQ.FUNC_STAT (R103). -/
def HQ_FUNC_STAT : RegDef := ⟨58, 0x020010001C, .func, [⟨6, 6, .ro, 0x0, none⟩, ⟨5, 5, .ro, 0x0, none⟩, ⟨4, 4, .ro, 0x0, none⟩, ⟨3, 3, .ro, 0x0, none⟩, ⟨2, 2, .ro, 0x0, none⟩, ⟨1, 1, .ro, 0x0, none⟩, ⟨0, 0, .ro, 0x0, none⟩]⟩
/-- HQ.FUNC_QUEUES (R103). -/
def HQ_FUNC_QUEUES : RegDef := ⟨59, 0x0200100020, .func, [⟨28, 16, .ro, 0x0, none⟩, ⟨12, 0, .ro, 0x0, none⟩]⟩
/-- HQ.FUNC_INFLIGHT (R103). -/
def HQ_FUNC_INFLIGHT : RegDef := ⟨60, 0x0200100024, .func, [⟨17, 0, .ro, 0x0, none⟩]⟩
/-- HQ.CIDC (R103). -/
def HQ_CIDC : RegDef := ⟨61, 0x0200100028, .one, [⟨15, 0, .rc, 0x0, none⟩]⟩
/-- HQ.ABORTS (R103). -/
def HQ_ABORTS : RegDef := ⟨62, 0x020010002C, .one, [⟨31, 16, .rc, 0x0, none⟩, ⟨15, 0, .rc, 0x0, none⟩]⟩
/-- HQ.EVT (R103). -/
def HQ_EVT : RegDef := ⟨63, 0x0200100030, .one, [⟨5, 5, .w1c, 0x0, none⟩, ⟨4, 4, .w1c, 0x0, none⟩, ⟨3, 3, .w1c, 0x0, none⟩, ⟨2, 2, .w1c, 0x0, none⟩, ⟨1, 1, .w1c, 0x0, none⟩, ⟨0, 0, .w1c, 0x0, none⟩]⟩
/-- HQ.EVT_IE (R103). -/
def HQ_EVT_IE : RegDef := ⟨64, 0x0200100034, .one, [⟨5, 0, .rw, 0x0, none⟩]⟩
/-- ZONE.CTL (R140). -/
def ZONE_CTL : RegDef := ⟨65, 0x0200110000, .one, [⟨1, 1, .rw, 0x0, none⟩, ⟨0, 0, .rw, 0x0, none⟩]⟩
/-- ZONE.ACTIVE (R140). -/
def ZONE_ACTIVE : RegDef := ⟨66, 0x0200110004, .one, [⟨27, 16, .ro, 0x800, none⟩, ⟨11, 0, .ro, 0x0, none⟩]⟩
/-- ZONE.ROWS (R140). -/
def ZONE_ROWS : RegDef := ⟨67, 0x0200110008, .one, [⟨18, 0, .ro, 0x0, none⟩]⟩
/-- ZONE.ROWS_LOW (R140). -/
def ZONE_ROWS_LOW : RegDef := ⟨68, 0x020011000C, .one, [⟨18, 0, .rw, 0x60, none⟩]⟩
/-- ZONE.REFOLD (R140). -/
def ZONE_REFOLD : RegDef := ⟨69, 0x0200110010, .one, [⟨31, 16, .ro, 0x0, none⟩, ⟨6, 0, .ro, 0x0, none⟩]⟩
/-- ZONE.NS_SEL (R140). -/
def ZONE_NS_SEL : RegDef := ⟨70, 0x0200110014, .one, [⟨12, 0, .rw, 0x1, some (1, 4096)⟩]⟩
/-- ZONE.NS_INFO (R140). -/
def ZONE_NS_INFO : RegDef := ⟨71, 0x0200110018, .ns, [⟨31, 31, .ro, 0x0, none⟩, ⟨30, 30, .ro, 0x0, none⟩, ⟨18, 0, .ro, 0x0, none⟩]⟩
/-- ZONE.NS_ACT (R140). -/
def ZONE_NS_ACT : RegDef := ⟨72, 0x020011001C, .ns, [⟨27, 16, .ro, 0x0, none⟩, ⟨11, 0, .ro, 0x0, none⟩]⟩
/-- ZONE.Z_SEL (R140). -/
def ZONE_Z_SEL : RegDef := ⟨73, 0x0200110020, .one, [⟨18, 0, .rw, 0x0, none⟩]⟩
/-- ZONE.Z_INFO (R140). -/
def ZONE_Z_INFO : RegDef := ⟨74, 0x0200110024, .zone, [⟨31, 28, .ro, 0x0, none⟩, ⟨27, 24, .ro, 0x0, none⟩, ⟨23, 23, .ro, 0x0, none⟩, ⟨22, 22, .ro, 0x0, none⟩, ⟨21, 21, .ro, 0x0, none⟩, ⟨20, 20, .ro, 0x0, none⟩, ⟨18, 12, .ro, 0x0, none⟩, ⟨11, 0, .ro, 0x0, none⟩]⟩
/-- ZONE.Z_WP (R140). -/
def ZONE_Z_WP : RegDef := ⟨75, 0x0200110028, .zone, [⟨18, 0, .ro, 0x0, none⟩]⟩
/-- ZONE.Z_CP (R140). -/
def ZONE_Z_CP : RegDef := ⟨76, 0x020011002C, .zone, [⟨18, 0, .ro, 0x0, none⟩]⟩
/-- ZONE.LAND_CNT (R140). -/
def ZONE_LAND_CNT : RegDef := ⟨77, 0x0200110030, .one, [⟨31, 16, .rc, 0x0, none⟩, ⟨15, 0, .rc, 0x0, none⟩]⟩
/-- ZONE.EVT (R140). -/
def ZONE_EVT : RegDef := ⟨78, 0x0200110034, .one, [⟨5, 5, .w1c, 0x0, none⟩, ⟨4, 4, .w1c, 0x0, none⟩, ⟨3, 3, .w1c, 0x0, none⟩, ⟨2, 2, .w1c, 0x0, none⟩, ⟨1, 1, .w1c, 0x0, none⟩, ⟨0, 0, .w1c, 0x0, none⟩]⟩
/-- ZONE.EVT_IE (R140). -/
def ZONE_EVT_IE : RegDef := ⟨79, 0x0200110038, .one, [⟨5, 0, .rw, 0x0, none⟩]⟩
/-- ZONE.Z_LOC (R140). -/
def ZONE_Z_LOC : RegDef := ⟨80, 0x020011003C, .zone, [⟨10, 9, .ro, 0x0, none⟩, ⟨8, 0, .ro, 0x1FF, none⟩]⟩
/-- TEN.T_SEL (R164). -/
def TEN_T_SEL : RegDef := ⟨81, 0x0200120000, .one, [⟨9, 0, .rw, 0x0, none⟩]⟩
/-- TEN.T_CFG (R164). -/
def TEN_T_CFG : RegDef := ⟨82, 0x0200120004, .tenant, [⟨31, 31, .rw, 0x1, none⟩, ⟨30, 30, .rw, 0x0, none⟩, ⟨12, 0, .ro, 0x0, none⟩]⟩
/-- TEN.T_CELL_FLOOR (R164). -/
def TEN_T_CELL_FLOOR : RegDef := ⟨83, 0x0200120008, .tenant, [⟨25, 0, .rw, 0x0, none⟩]⟩
/-- TEN.T_CELL_CAP (R164). -/
def TEN_T_CELL_CAP : RegDef := ⟨84, 0x020012000C, .tenant, [⟨25, 0, .rw, 0x3FFFFFF, none⟩]⟩
/-- TEN.T_CELL_USED (R164). -/
def TEN_T_CELL_USED : RegDef := ⟨85, 0x0200120010, .tenant, [⟨25, 0, .ro, 0x0, none⟩]⟩
/-- TEN.T_STAGE (R164). -/
def TEN_T_STAGE : RegDef := ⟨86, 0x0200120014, .tenant, [⟨26, 16, .ro, 0x0, none⟩, ⟨8, 0, .rw, 0x0, some (0, 256)⟩]⟩
/-- TEN.T_REFOLD (R164). -/
def TEN_T_REFOLD : RegDef := ⟨87, 0x0200120018, .tenant, [⟨22, 16, .ro, 0x0, none⟩, ⟨14, 8, .rw, 0x40, some (0, 64)⟩, ⟨6, 0, .rw, 0x0, some (0, 64)⟩]⟩
/-- TEN.F_SEL (R164). -/
def TEN_F_SEL : RegDef := ⟨88, 0x0200120020, .one, [⟨10, 0, .rw, 0x0, some (0, 1025)⟩]⟩
/-- TEN.F_CFG (R164). -/
def TEN_F_CFG : RegDef := ⟨89, 0x0200120024, .tenFunc, [⟨31, 31, .ro, 0x0, none⟩, ⟨9, 0, .rw, 0x0, none⟩]⟩
/-- TEN.F_SLOT_FLOOR (R164). -/
def TEN_F_SLOT_FLOOR : RegDef := ⟨90, 0x0200120028, .tenFunc, [⟨17, 0, .rw, 0x0, some (0, 131072)⟩]⟩
/-- TEN.F_SLOT_CAP (R164). -/
def TEN_F_SLOT_CAP : RegDef := ⟨91, 0x020012002C, .tenFunc, [⟨17, 0, .rw, 0x20000, some (0, 131072)⟩]⟩
/-- TEN.CLS_SEL (R164). -/
def TEN_CLS_SEL : RegDef := ⟨92, 0x0200120030, .one, [⟨3, 0, .rw, 0x0, none⟩]⟩
/-- TEN.CLS_CFG (R164). -/
def TEN_CLS_CFG : RegDef := ⟨93, 0x0200120034, .cls, [⟨31, 31, .rw, 0x0, none⟩, ⟨30, 30, .rw, 0x0, none⟩, ⟨29, 29, .rw, 0x0, none⟩, ⟨9, 0, .rw, 0x0, none⟩]⟩
/-- TEN.CLS_PACE (R164). -/
def TEN_CLS_PACE : RegDef := ⟨94, 0x0200120038, .cls, [⟨19, 0, .rw, 0x0, none⟩]⟩
/-- TEN.CLS_MISS (R164). -/
def TEN_CLS_MISS : RegDef := ⟨95, 0x020012003C, .cls, [⟨31, 16, .rc, 0x0, none⟩, ⟨15, 0, .rc, 0x0, none⟩]⟩
/-- TEN.EVT (R164). -/
def TEN_EVT : RegDef := ⟨96, 0x0200120040, .one, [⟨3, 3, .w1c, 0x0, none⟩, ⟨2, 2, .w1c, 0x0, none⟩, ⟨1, 1, .w1c, 0x0, none⟩, ⟨0, 0, .w1c, 0x0, none⟩]⟩
/-- TEN.EVT_IE (R164). -/
def TEN_EVT_IE : RegDef := ⟨97, 0x0200120044, .one, [⟨3, 0, .rw, 0x0, none⟩]⟩
/-- CAM.CTL (R353). -/
def CAM_CTL : RegDef := ⟨98, 0x0200130000, .one, [⟨1, 1, .rw, 0x0, none⟩, ⟨0, 0, .rw, 0x0, none⟩]⟩
/-- CAM.STAT (R353). -/
def CAM_STAT : RegDef := ⟨99, 0x0200130004, .one, [⟨31, 16, .ro, 0x0, none⟩, ⟨15, 14, .ro, 0x0, none⟩, ⟨13, 0, .ro, 0x0, none⟩]⟩
/-- CAM.PART (R353). -/
def CAM_PART : RegDef := ⟨100, 0x0200130008, .one, [⟨31, 24, .rw, 0x0, none⟩, ⟨13, 0, .rw, 0x1000, some (2048, 8192)⟩]⟩
/-- CAM.RATE (R353). -/
def CAM_RATE : RegDef := ⟨101, 0x020013000C, .one, [⟨31, 24, .rw, 0x4, some (4, 16)⟩, ⟨23, 16, .rw, 0x8, some (4, 16)⟩, ⟨15, 8, .rw, 0xC, some (4, 16)⟩, ⟨7, 0, .rw, 0x10, some (4, 16)⟩]⟩
/-- CAM.TEMP (R353). -/
def CAM_TEMP : RegDef := ⟨102, 0x0200130010, .one, [⟨31, 24, .rw, 0x3, none⟩, ⟨23, 16, .rw, 0x69, none⟩, ⟨15, 8, .rw, 0x5F, none⟩, ⟨7, 0, .rw, 0x55, none⟩]⟩
/-- CAM.IDX (R353). -/
def CAM_IDX : RegDef := ⟨103, 0x0200130020, .graver, [⟨14, 0, .rw, 0x0, none⟩]⟩
/-- CAM.ENT_D0 (R353). -/
def CAM_ENT_D0 : RegDef := ⟨104, 0x0200130024, .graver, [⟨31, 0, .rw, 0x0, none⟩]⟩
/-- CAM.ENT_D1 (R353). -/
def CAM_ENT_D1 : RegDef := ⟨105, 0x0200130028, .graver, [⟨31, 0, .rw, 0x0, none⟩]⟩
/-- CAM.ENT_D2 (R353). -/
def CAM_ENT_D2 : RegDef := ⟨106, 0x020013002C, .graver, [⟨31, 0, .rw, 0x0, none⟩]⟩
/-- CAM.ENT_D3 (R353). -/
def CAM_ENT_D3 : RegDef := ⟨107, 0x0200130030, .graver, [⟨31, 0, .rw, 0x0, none⟩]⟩
/-- CAM.ENT_D4 (R353). -/
def CAM_ENT_D4 : RegDef := ⟨108, 0x0200130034, .graver, [⟨31, 0, .rw, 0x0, none⟩]⟩
/-- CAM.ENT_D5 (R353). -/
def CAM_ENT_D5 : RegDef := ⟨109, 0x0200130038, .graver, [⟨31, 0, .rw, 0x0, none⟩]⟩
/-- CAM.OP (R353). -/
def CAM_OP : RegDef := ⟨110, 0x020013003C, .graver, [⟨31, 31, .w1s, 0x0, none⟩, ⟨3, 3, .rw, 0x0, none⟩, ⟨2, 0, .rw, 0x0, some (1, 5)⟩]⟩
/-- CAM.RES (R353). -/
def CAM_RES : RegDef := ⟨111, 0x0200130040, .graver, [⟨31, 31, .ro, 0x0, none⟩, ⟨30, 30, .ro, 0x0, none⟩, ⟨29, 29, .ro, 0x0, none⟩, ⟨28, 25, .ro, 0x0, none⟩, ⟨24, 23, .ro, 0x0, none⟩, ⟨14, 0, .ro, 0x0, none⟩]⟩
/-- CAM.CNT (R353). -/
def CAM_CNT : RegDef := ⟨112, 0x0200130050, .one, [⟨31, 16, .rc, 0x0, none⟩, ⟨15, 0, .rc, 0x0, none⟩]⟩
/-- CAM.CNT_WAIT (R353). -/
def CAM_CNT_WAIT : RegDef := ⟨113, 0x0200130054, .one, [⟨31, 16, .rc, 0x0, none⟩, ⟨15, 0, .rc, 0x0, none⟩]⟩
/-- CAM.EVT (R353). -/
def CAM_EVT : RegDef := ⟨114, 0x0200130060, .one, [⟨5, 5, .w1c, 0x0, none⟩, ⟨4, 4, .w1c, 0x0, none⟩, ⟨3, 3, .w1c, 0x0, none⟩, ⟨2, 2, .w1c, 0x0, none⟩, ⟨1, 1, .w1c, 0x0, none⟩, ⟨0, 0, .w1c, 0x0, none⟩]⟩
/-- CAM.EVT_IE (R353). -/
def CAM_EVT_IE : RegDef := ⟨115, 0x0200130064, .one, [⟨5, 0, .rw, 0x0, none⟩]⟩
/-- CELL.CTL (R338). -/
def CELL_CTL : RegDef := ⟨116, 0x0200140000, .one, [⟨1, 1, .rw, 0x0, none⟩, ⟨0, 0, .rw, 0x0, none⟩]⟩
/-- CELL.STAT (R338). -/
def CELL_STAT : RegDef := ⟨117, 0x0200140004, .one, [⟨31, 31, .ro, 0x0, none⟩, ⟨30, 30, .ro, 0x0, none⟩, ⟨25, 0, .ro, 0x0, none⟩]⟩
/-- CELL.DRAM_N (R338). -/
def CELL_DRAM_N : RegDef := ⟨118, 0x0200140008, .one, [⟨25, 0, .rw, 0x0, some (0, 33554432)⟩]⟩
/-- CELL.ONCHIP (R338). -/
def CELL_ONCHIP : RegDef := ⟨119, 0x020014000C, .one, [⟨21, 16, .ro, 0x0, none⟩, ⟨15, 0, .ro, 0xA000, none⟩]⟩
/-- CELL.DEV (R338). -/
def CELL_DEV : RegDef := ⟨120, 0x0200140010, .one, [⟨16, 0, .ro, 0x0, none⟩]⟩
/-- CELL.BASE_LO (R338). -/
def CELL_BASE_LO : RegDef := ⟨121, 0x0200140020, .one, [⟨31, 12, .rw, 0x0, none⟩]⟩
/-- CELL.BASE_HI (R338). -/
def CELL_BASE_HI : RegDef := ⟨122, 0x0200140024, .one, [⟨7, 0, .rw, 0x0, none⟩]⟩
/-- CELL.LINK_BASE_LO (R338). -/
def CELL_LINK_BASE_LO : RegDef := ⟨123, 0x0200140028, .one, [⟨31, 12, .rw, 0x0, none⟩]⟩
/-- CELL.LINK_BASE_HI (R338). -/
def CELL_LINK_BASE_HI : RegDef := ⟨124, 0x020014002C, .one, [⟨7, 0, .rw, 0x0, none⟩]⟩
/-- CELL.META_BASE_LO (R338). -/
def CELL_META_BASE_LO : RegDef := ⟨125, 0x0200140030, .one, [⟨31, 12, .rw, 0x0, none⟩]⟩
/-- CELL.META_BASE_HI (R338). -/
def CELL_META_BASE_HI : RegDef := ⟨126, 0x0200140034, .one, [⟨7, 0, .rw, 0x0, none⟩]⟩
/-- CELL.RING_BASE_LO (R338). -/
def CELL_RING_BASE_LO : RegDef := ⟨127, 0x0200140038, .one, [⟨31, 12, .rw, 0x0, none⟩]⟩
/-- CELL.RING_BASE_HI (R338). -/
def CELL_RING_BASE_HI : RegDef := ⟨128, 0x020014003C, .one, [⟨7, 0, .rw, 0x0, none⟩]⟩
/-- CELL.ALLOC_REQ (R338). -/
def CELL_ALLOC_REQ : RegDef := ⟨129, 0x0200140040, .graver, [⟨31, 31, .wo, 0x0, none⟩, ⟨30, 21, .wo, 0x0, none⟩, ⟨10, 0, .wo, 0x0, none⟩]⟩
/-- CELL.ALLOC_RES (R338). -/
def CELL_ALLOC_RES : RegDef := ⟨130, 0x0200140044, .graver, [⟨31, 30, .ro, 0x0, none⟩, ⟨25, 0, .ro, 0x3FFFFFF, none⟩]⟩
/-- CELL.FREE (R338). -/
def CELL_FREE : RegDef := ⟨131, 0x0200140048, .graver, [⟨25, 0, .wo, 0x0, none⟩]⟩
/-- CELL.FREE_RES (R338). -/
def CELL_FREE_RES : RegDef := ⟨132, 0x020014004C, .graver, [⟨31, 30, .ro, 0x0, none⟩, ⟨25, 0, .ro, 0x0, none⟩]⟩
/-- CELL.SPLICE_T (R338). -/
def CELL_SPLICE_T : RegDef := ⟨133, 0x0200140050, .graver, [⟨25, 0, .rw, 0x0, none⟩]⟩
/-- CELL.SPLICE_H (R338). -/
def CELL_SPLICE_H : RegDef := ⟨134, 0x0200140054, .graver, [⟨25, 0, .rw, 0x0, none⟩]⟩
/-- CELL.SPLICE_RES (R338). -/
def CELL_SPLICE_RES : RegDef := ⟨135, 0x0200140058, .graver, [⟨1, 0, .ro, 0x0, none⟩]⟩
/-- CELL.LINK_SEL (R338). -/
def CELL_LINK_SEL : RegDef := ⟨136, 0x0200140060, .one, [⟨25, 0, .rw, 0x0, none⟩]⟩
/-- CELL.LINK_LO (R338). -/
def CELL_LINK_LO : RegDef := ⟨137, 0x0200140064, .one, [⟨31, 0, .ro, 0x0, none⟩]⟩
/-- CELL.LINK_HI (R338). -/
def CELL_LINK_HI : RegDef := ⟨138, 0x0200140068, .one, [⟨31, 0, .ro, 0x0, none⟩]⟩
/-- CELL.DBL (R338). -/
def CELL_DBL : RegDef := ⟨139, 0x0200140070, .one, [⟨25, 0, .ro, 0x0, none⟩]⟩
/-- CELL.CNT (R338). -/
def CELL_CNT : RegDef := ⟨140, 0x0200140074, .one, [⟨31, 16, .rc, 0x0, none⟩, ⟨15, 0, .rc, 0x0, none⟩]⟩
/-- CELL.EVT (R338). -/
def CELL_EVT : RegDef := ⟨141, 0x0200140080, .one, [⟨3, 3, .w1c, 0x0, none⟩, ⟨2, 2, .w1c, 0x0, none⟩, ⟨1, 1, .w1c, 0x0, none⟩, ⟨0, 0, .w1c, 0x0, none⟩]⟩
/-- CELL.EVT_IE (R338). -/
def CELL_EVT_IE : RegDef := ⟨142, 0x0200140084, .one, [⟨3, 0, .rw, 0x0, none⟩]⟩
/-- DMC.CTL (R337). -/
def DMC_CTL : RegDef := ⟨143, 0x0200150000, .one, [⟨2, 2, .rw, 0x1, none⟩, ⟨1, 1, .w1s, 0x0, none⟩, ⟨0, 0, .rw, 0x0, none⟩]⟩
/-- DMC.STAT (R337). -/
def DMC_STAT : RegDef := ⟨144, 0x0200150004, .one, [⟨31, 24, .ro, 0x0, none⟩, ⟨23, 16, .ro, 0x0, none⟩, ⟨2, 2, .ro, 0x0, none⟩, ⟨1, 1, .ro, 0x0, none⟩, ⟨0, 0, .ro, 0x0, none⟩]⟩
/-- DMC.CAP (R337). -/
def DMC_CAP : RegDef := ⟨145, 0x0200150008, .one, [⟨16, 0, .ro, 0x0, none⟩]⟩
/-- DMC.GEOM (R337). -/
def DMC_GEOM : RegDef := ⟨146, 0x020015000C, .one, [⟨31, 24, .ro, 0x0, none⟩, ⟨23, 22, .ro, 0x0, none⟩, ⟨21, 0, .ro, 0x0, none⟩]⟩
/-- DMC.RETIRE (R337). -/
def DMC_RETIRE : RegDef := ⟨147, 0x0200150010, .one, [⟨7, 0, .w1s, 0x0, none⟩]⟩
/-- DMC.HASH_P0 (R337). -/
def DMC_HASH_P0 : RegDef := ⟨148, 0x0200150020, .one, [⟨29, 2, .rw, 0x4440, none⟩]⟩
/-- DMC.HASH_P1 (R337). -/
def DMC_HASH_P1 : RegDef := ⟨149, 0x0200150024, .one, [⟨29, 2, .rw, 0x8880, none⟩]⟩
/-- DMC.HASH_B0 (R337). -/
def DMC_HASH_B0 : RegDef := ⟨150, 0x0200150028, .one, [⟨27, 9, .rw, 0x11, none⟩]⟩
/-- DMC.HASH_B1 (R337). -/
def DMC_HASH_B1 : RegDef := ⟨151, 0x020015002C, .one, [⟨27, 9, .rw, 0x22, none⟩]⟩
/-- DMC.HASH_B2 (R337). -/
def DMC_HASH_B2 : RegDef := ⟨152, 0x0200150030, .one, [⟨27, 9, .rw, 0x44, none⟩]⟩
/-- DMC.HASH_B3 (R337). -/
def DMC_HASH_B3 : RegDef := ⟨153, 0x0200150034, .one, [⟨27, 9, .rw, 0x88, none⟩]⟩
/-- DMC.WM (R337). -/
def DMC_WM : RegDef := ⟨154, 0x0200150040, .one, [⟨31, 24, .rw, 0x4, some (1, 255)⟩, ⟨15, 8, .rw, 0x30, some (2, 64)⟩, ⟨7, 0, .rw, 0x10, none⟩]⟩
/-- DMC.PORT_SEL (R337). -/
def DMC_PORT_SEL : RegDef := ⟨155, 0x0200150050, .one, [⟨2, 0, .rw, 0x0, none⟩]⟩
/-- DMC.PORT_CFG (R337). -/
def DMC_PORT_CFG : RegDef := ⟨156, 0x0200150054, .port, [⟨31, 31, .rw, 0x1, none⟩, ⟨15, 0, .rw, 0x0, none⟩]⟩
/-- DMC.PORT_USE (R337). -/
def DMC_PORT_USE : RegDef := ⟨157, 0x0200150058, .port, [⟨31, 16, .rc, 0x0, none⟩, ⟨15, 0, .ro, 0x0, none⟩]⟩
/-- DMC.RH_CFG (R337). -/
def DMC_RH_CFG : RegDef := ⟨158, 0x0200150060, .one, [⟨31, 16, .rw, 0x1000, some (256, 65535)⟩, ⟨15, 8, .rw, 0x40, some (1, 255)⟩, ⟨7, 0, .rw, 0x1, some (1, 255)⟩]⟩
/-- DMC.RH_CNT (R337). -/
def DMC_RH_CNT : RegDef := ⟨159, 0x0200150064, .one, [⟨31, 16, .rc, 0x0, none⟩, ⟨15, 0, .rc, 0x0, none⟩]⟩
/-- DMC.PATROL (R337). -/
def DMC_PATROL : RegDef := ⟨160, 0x0200150070, .one, [⟨31, 0, .rw, 0x10000, some (1024, 4294967295)⟩]⟩
/-- DMC.PATROL_LAP (R337). -/
def DMC_PATROL_LAP : RegDef := ⟨161, 0x0200150074, .one, [⟨31, 0, .ro, 0x0, none⟩]⟩
/-- DMC.ECC_SEL (R337). -/
def DMC_ECC_SEL : RegDef := ⟨162, 0x0200150080, .one, [⟨2, 0, .rw, 0x0, none⟩]⟩
/-- DMC.ECC_CNT (R337). -/
def DMC_ECC_CNT : RegDef := ⟨163, 0x0200150084, .subch, [⟨31, 16, .rc, 0x0, none⟩, ⟨15, 0, .rc, 0x0, none⟩]⟩
/-- DMC.EVT (R337). -/
def DMC_EVT : RegDef := ⟨164, 0x0200150090, .one, [⟨5, 5, .w1c, 0x0, none⟩, ⟨4, 4, .w1c, 0x0, none⟩, ⟨3, 3, .w1c, 0x0, none⟩, ⟨2, 2, .w1c, 0x0, none⟩, ⟨1, 1, .w1c, 0x0, none⟩, ⟨0, 0, .w1c, 0x0, none⟩]⟩
/-- DMC.EVT_IE (R337). -/
def DMC_EVT_IE : RegDef := ⟨165, 0x0200150094, .one, [⟨5, 0, .rw, 0x0, none⟩]⟩
/-- CIPH.CTL (R309). -/
def CIPH_CTL : RegDef := ⟨166, 0x0200160000, .one, [⟨1, 1, .ro, 0x0, none⟩, ⟨0, 0, .rw, 0x0, none⟩]⟩
/-- CIPH.EPOCH (R309). -/
def CIPH_EPOCH : RegDef := ⟨167, 0x0200160004, .one, [⟨31, 30, .ro, 0x0, none⟩, ⟨29, 0, .rw, 0x0, none⟩]⟩
/-- CIPH.NONCE_LO (R309). -/
def CIPH_NONCE_LO : RegDef := ⟨168, 0x0200160008, .one, [⟨31, 0, .ro, 0x0, none⟩]⟩
/-- CIPH.NONCE_HI (R309). -/
def CIPH_NONCE_HI : RegDef := ⟨169, 0x020016000C, .one, [⟨31, 0, .ro, 0x0, none⟩]⟩
/-- CIPH.LANE_OK_LO (R309). -/
def CIPH_LANE_OK_LO : RegDef := ⟨170, 0x0200160010, .one, [⟨31, 0, .ro, 0x0, none⟩]⟩
/-- CIPH.LANE_OK_HI (R309). -/
def CIPH_LANE_OK_HI : RegDef := ⟨171, 0x0200160014, .one, [⟨15, 0, .ro, 0x0, none⟩]⟩
/-- CIPH.WR_SHARE (R309). -/
def CIPH_WR_SHARE : RegDef := ⟨172, 0x0200160018, .one, [⟨3, 0, .rw, 0x3, some (1, 15)⟩]⟩
/-- CIPH.SLOT_SEL (R309). -/
def CIPH_SLOT_SEL : RegDef := ⟨173, 0x0200160020, .one, [⟨12, 0, .rw, 0x0, some (0, 4159)⟩]⟩
/-- CIPH.SLOT (R309). -/
def CIPH_SLOT : RegDef := ⟨174, 0x0200160024, .keySlot, [⟨31, 30, .ro, 0x0, none⟩, ⟨29, 28, .ro, 0x0, none⟩, ⟨27, 27, .rw, 0x0, none⟩]⟩
/-- CIPH.SLOT_GEN (R309). -/
def CIPH_SLOT_GEN : RegDef := ⟨175, 0x0200160028, .keySlot, [⟨31, 0, .ro, 0x0, none⟩]⟩
/-- CIPH.KEY_CMD (R309). -/
def CIPH_KEY_CMD : RegDef := ⟨176, 0x0200160030, .one, [⟨31, 31, .w1s, 0x0, none⟩, ⟨7, 6, .rw, 0x0, none⟩, ⟨5, 4, .rw, 0x0, some (0, 2)⟩, ⟨3, 0, .rw, 0x0, some (1, 3)⟩]⟩
/-- CIPH.KEY_ADDR_LO (R309). -/
def CIPH_KEY_ADDR_LO : RegDef := ⟨177, 0x0200160034, .one, [⟨31, 7, .rw, 0x0, none⟩]⟩
/-- CIPH.KEY_ADDR_HI (R309). -/
def CIPH_KEY_ADDR_HI : RegDef := ⟨178, 0x0200160038, .one, [⟨7, 0, .rw, 0x0, none⟩]⟩
/-- CIPH.KEY_STAT (R309). -/
def CIPH_KEY_STAT : RegDef := ⟨179, 0x020016003C, .one, [⟨3, 0, .ro, 0x0, none⟩]⟩
/-- CIPH.JOB_D0 (R309). -/
def CIPH_JOB_D0 : RegDef := ⟨180, 0x0200160040, .graver, [⟨31, 0, .wo, 0x0, none⟩]⟩
/-- CIPH.JOB_D1 (R309). -/
def CIPH_JOB_D1 : RegDef := ⟨181, 0x0200160044, .graver, [⟨31, 0, .wo, 0x0, none⟩]⟩
/-- CIPH.JOB_D2 (R309). -/
def CIPH_JOB_D2 : RegDef := ⟨182, 0x0200160048, .graver, [⟨31, 0, .wo, 0x0, none⟩]⟩
/-- CIPH.JOB_D3 (R309). -/
def CIPH_JOB_D3 : RegDef := ⟨183, 0x020016004C, .graver, [⟨31, 0, .wo, 0x0, none⟩]⟩
/-- CIPH.JOB_D4 (R309). -/
def CIPH_JOB_D4 : RegDef := ⟨184, 0x0200160050, .graver, [⟨31, 0, .wo, 0x0, none⟩]⟩
/-- CIPH.JOB_D5 (R309). -/
def CIPH_JOB_D5 : RegDef := ⟨185, 0x0200160054, .graver, [⟨31, 0, .wo, 0x0, none⟩]⟩
/-- CIPH.JOB_D6 (R309). -/
def CIPH_JOB_D6 : RegDef := ⟨186, 0x0200160058, .graver, [⟨31, 0, .wo, 0x0, none⟩]⟩
/-- CIPH.JOB_D7 (R309). -/
def CIPH_JOB_D7 : RegDef := ⟨187, 0x020016005C, .graver, [⟨31, 0, .wo, 0x0, none⟩]⟩
/-- CIPH.JOB_STAT (R309). -/
def CIPH_JOB_STAT : RegDef := ⟨188, 0x0200160060, .graver, [⟨31, 30, .ro, 0x0, none⟩]⟩
/-- CIPH.JCQ_BASE_LO (R309). -/
def CIPH_JCQ_BASE_LO : RegDef := ⟨189, 0x0200160070, .one, [⟨31, 4, .rw, 0x0, none⟩]⟩
/-- CIPH.JCQ_BASE_HI (R309). -/
def CIPH_JCQ_BASE_HI : RegDef := ⟨190, 0x0200160074, .one, [⟨7, 0, .rw, 0x0, none⟩]⟩
/-- CIPH.JCQ_CFG (R309). -/
def CIPH_JCQ_CFG : RegDef := ⟨191, 0x0200160078, .one, [⟨4, 0, .rw, 0xA, some (6, 16)⟩]⟩
/-- CIPH.JCQ_HEAD (R309). -/
def CIPH_JCQ_HEAD : RegDef := ⟨192, 0x020016007C, .one, [⟨15, 0, .rw, 0x0, none⟩]⟩
/-- CIPH.JCQ_TAIL (R309). -/
def CIPH_JCQ_TAIL : RegDef := ⟨193, 0x0200160080, .one, [⟨15, 0, .ro, 0x0, none⟩]⟩
/-- CIPH.CNT_AUTH (R309). -/
def CIPH_CNT_AUTH : RegDef := ⟨194, 0x0200160090, .one, [⟨31, 16, .rc, 0x0, none⟩, ⟨15, 0, .rc, 0x0, none⟩]⟩
/-- CIPH.EVT (R309). -/
def CIPH_EVT : RegDef := ⟨195, 0x02001600A0, .one, [⟨5, 5, .w1c, 0x0, none⟩, ⟨4, 4, .w1c, 0x0, none⟩, ⟨3, 3, .w1c, 0x0, none⟩, ⟨2, 2, .w1c, 0x0, none⟩, ⟨1, 1, .w1c, 0x0, none⟩, ⟨0, 0, .w1c, 0x0, none⟩]⟩
/-- CIPH.EVT_IE (R309). -/
def CIPH_EVT_IE : RegDef := ⟨196, 0x02001600A4, .one, [⟨5, 0, .rw, 0x0, none⟩]⟩
/-- LDPC.UNIT_EN (R285). -/
def LDPC_UNIT_EN : RegDef := ⟨197, 0x0200170000, .one, [⟨25, 24, .rw, 0x3, none⟩, ⟨23, 16, .rw, 0xFF, none⟩]⟩
/-- LDPC.STAT (R285). -/
def LDPC_STAT : RegDef := ⟨198, 0x0200170004, .one, [⟨25, 24, .ro, 0x0, none⟩, ⟨23, 16, .ro, 0x0, none⟩, ⟨15, 8, .ro, 0x0, none⟩, ⟨7, 0, .ro, 0x0, none⟩]⟩
/-- LDPC.LEVELS (R285). -/
def LDPC_LEVELS : RegDef := ⟨199, 0x0200170008, .one, [⟨15, 8, .rw, 0x8, none⟩, ⟨7, 0, .rw, 0x28, none⟩]⟩
/-- LDPC.WEAK (R285). -/
def LDPC_WEAK : RegDef := ⟨200, 0x020017000C, .one, [⟨7, 0, .rw, 0x38, none⟩]⟩
/-- LDPC.ESC_BASE_LO (R285). -/
def LDPC_ESC_BASE_LO : RegDef := ⟨201, 0x0200170010, .one, [⟨31, 5, .rw, 0x0, none⟩]⟩
/-- LDPC.ESC_BASE_HI (R285). -/
def LDPC_ESC_BASE_HI : RegDef := ⟨202, 0x0200170014, .one, [⟨7, 0, .rw, 0x0, none⟩]⟩
/-- LDPC.ESC_CFG (R285). -/
def LDPC_ESC_CFG : RegDef := ⟨203, 0x0200170018, .one, [⟨4, 0, .rw, 0xA, some (6, 16)⟩]⟩
/-- LDPC.ESC_HEAD (R285). -/
def LDPC_ESC_HEAD : RegDef := ⟨204, 0x020017001C, .one, [⟨15, 0, .rw, 0x0, none⟩]⟩
/-- LDPC.ESC_TAIL (R285). -/
def LDPC_ESC_TAIL : RegDef := ⟨205, 0x0200170020, .one, [⟨15, 0, .ro, 0x0, none⟩]⟩
/-- LDPC.LB_SEL (R285). -/
def LDPC_LB_SEL : RegDef := ⟨206, 0x0200170030, .one, [⟨5, 0, .rw, 0x0, none⟩]⟩
/-- LDPC.LB_CFG (R285). -/
def LDPC_LB_CFG : RegDef := ⟨207, 0x0200170034, .bucket, [⟨31, 16, .rw, 0x0, none⟩, ⟨15, 0, .rw, 0x0, none⟩]⟩
/-- LDPC.LB_LEVEL (R285). -/
def LDPC_LB_LEVEL : RegDef := ⟨208, 0x0200170038, .bucket, [⟨31, 16, .rc, 0x0, none⟩, ⟨15, 0, .ro, 0x0, none⟩]⟩
/-- LDPC.LB_OVER_LO (R285). -/
def LDPC_LB_OVER_LO : RegDef := ⟨209, 0x020017003C, .one, [⟨31, 0, .w1c, 0x0, none⟩]⟩
/-- LDPC.LB_OVER_HI (R285). -/
def LDPC_LB_OVER_HI : RegDef := ⟨210, 0x0200170040, .one, [⟨31, 0, .w1c, 0x0, none⟩]⟩
/-- LDPC.LB_IE_LO (R285). -/
def LDPC_LB_IE_LO : RegDef := ⟨211, 0x0200170044, .one, [⟨31, 0, .rw, 0x0, none⟩]⟩
/-- LDPC.LB_IE_HI (R285). -/
def LDPC_LB_IE_HI : RegDef := ⟨212, 0x0200170048, .one, [⟨31, 0, .rw, 0x0, none⟩]⟩
/-- LDPC.CNT_ESC (R285). -/
def LDPC_CNT_ESC : RegDef := ⟨213, 0x0200170050, .one, [⟨31, 16, .rc, 0x0, none⟩, ⟨15, 0, .rc, 0x0, none⟩]⟩
/-- LDPC.CNT_DEEP (R285). -/
def LDPC_CNT_DEEP : RegDef := ⟨214, 0x0200170054, .one, [⟨31, 16, .rc, 0x0, none⟩, ⟨15, 0, .rc, 0x0, none⟩]⟩
/-- LDPC.CNT_MISC (R285). -/
def LDPC_CNT_MISC : RegDef := ⟨215, 0x0200170058, .one, [⟨31, 16, .rc, 0x0, none⟩, ⟨15, 0, .rc, 0x0, none⟩]⟩
/-- LDPC.ST_SEL (R285). -/
def LDPC_ST_SEL : RegDef := ⟨216, 0x0200170060, .one, [⟨31, 31, .w1s, 0x0, none⟩, ⟨7, 0, .rw, 0x0, some (0, 67)⟩]⟩
/-- LDPC.ST_RES (R285). -/
def LDPC_ST_RES : RegDef := ⟨217, 0x0200170064, .checker, [⟨31, 31, .ro, 0x0, none⟩, ⟨30, 30, .ro, 0x0, none⟩, ⟨29, 24, .ro, 0x0, none⟩]⟩
/-- LDPC.EVT (R285). -/
def LDPC_EVT : RegDef := ⟨218, 0x0200170070, .one, [⟨4, 4, .w1c, 0x0, none⟩, ⟨3, 3, .w1c, 0x0, none⟩, ⟨2, 2, .w1c, 0x0, none⟩, ⟨1, 1, .w1c, 0x0, none⟩, ⟨0, 0, .w1c, 0x0, none⟩]⟩
/-- LDPC.EVT_IE (R285). -/
def LDPC_EVT_IE : RegDef := ⟨219, 0x0200170074, .one, [⟨4, 0, .rw, 0x0, none⟩]⟩
/-- PAR.CTL (R286). -/
def PAR_CTL : RegDef := ⟨220, 0x0200180000, .one, [⟨2, 0, .rw, 0x0, none⟩]⟩
/-- PAR.MAP (R286). -/
def PAR_MAP : RegDef := ⟨221, 0x0200180004, .one, [⟨5, 4, .rw, 0x2, some (0, 2)⟩, ⟨3, 2, .rw, 0x1, some (0, 2)⟩, ⟨1, 0, .rw, 0x0, some (0, 2)⟩]⟩
/-- PAR.STAT (R286). -/
def PAR_STAT : RegDef := ⟨222, 0x0200180008, .one, [⟨27, 16, .ro, 0x0, none⟩, ⟨2, 0, .ro, 0x0, none⟩]⟩
/-- PAR.ACC_BASE_LO (R286). -/
def PAR_ACC_BASE_LO : RegDef := ⟨223, 0x0200180010, .one, [⟨31, 20, .rw, 0x0, none⟩]⟩
/-- PAR.ACC_BASE_HI (R286). -/
def PAR_ACC_BASE_HI : RegDef := ⟨224, 0x0200180014, .one, [⟨7, 0, .rw, 0x0, none⟩]⟩
/-- PAR.JOB_D0 (R286). -/
def PAR_JOB_D0 : RegDef := ⟨225, 0x0200180020, .graver, [⟨31, 0, .wo, 0x0, none⟩]⟩
/-- PAR.JOB_D1 (R286). -/
def PAR_JOB_D1 : RegDef := ⟨226, 0x0200180024, .graver, [⟨31, 0, .wo, 0x0, none⟩]⟩
/-- PAR.JOB_D2 (R286). -/
def PAR_JOB_D2 : RegDef := ⟨227, 0x0200180028, .graver, [⟨31, 0, .wo, 0x0, none⟩]⟩
/-- PAR.JOB_D3 (R286). -/
def PAR_JOB_D3 : RegDef := ⟨228, 0x020018002C, .graver, [⟨31, 0, .wo, 0x0, none⟩]⟩
/-- PAR.JOB_D4 (R286). -/
def PAR_JOB_D4 : RegDef := ⟨229, 0x0200180030, .graver, [⟨31, 0, .wo, 0x0, none⟩]⟩
/-- PAR.JOB_D5 (R286). -/
def PAR_JOB_D5 : RegDef := ⟨230, 0x0200180034, .graver, [⟨31, 0, .wo, 0x0, none⟩]⟩
/-- PAR.JOB_D6 (R286). -/
def PAR_JOB_D6 : RegDef := ⟨231, 0x0200180038, .graver, [⟨31, 0, .wo, 0x0, none⟩]⟩
/-- PAR.JOB_D7 (R286). -/
def PAR_JOB_D7 : RegDef := ⟨232, 0x020018003C, .graver, [⟨31, 0, .wo, 0x0, none⟩]⟩
/-- PAR.JOB_STAT (R286). -/
def PAR_JOB_STAT : RegDef := ⟨233, 0x0200180040, .graver, [⟨31, 30, .ro, 0x0, none⟩, ⟨9, 8, .ro, 0x0, none⟩, ⟨7, 0, .ro, 0x0, none⟩]⟩
/-- PAR.JCQ_BASE_LO (R286). -/
def PAR_JCQ_BASE_LO : RegDef := ⟨234, 0x0200180050, .one, [⟨31, 4, .rw, 0x0, none⟩]⟩
/-- PAR.JCQ_BASE_HI (R286). -/
def PAR_JCQ_BASE_HI : RegDef := ⟨235, 0x0200180054, .one, [⟨7, 0, .rw, 0x0, none⟩]⟩
/-- PAR.JCQ_CFG (R286). -/
def PAR_JCQ_CFG : RegDef := ⟨236, 0x0200180058, .one, [⟨4, 0, .rw, 0xA, some (6, 16)⟩]⟩
/-- PAR.JCQ_HEAD (R286). -/
def PAR_JCQ_HEAD : RegDef := ⟨237, 0x020018005C, .one, [⟨15, 0, .rw, 0x0, none⟩]⟩
/-- PAR.JCQ_TAIL (R286). -/
def PAR_JCQ_TAIL : RegDef := ⟨238, 0x0200180060, .one, [⟨15, 0, .ro, 0x0, none⟩]⟩
/-- PAR.CNT (R286). -/
def PAR_CNT : RegDef := ⟨239, 0x0200180070, .one, [⟨31, 16, .rc, 0x0, none⟩, ⟨15, 0, .rc, 0x0, none⟩]⟩
/-- PAR.EVT (R286). -/
def PAR_EVT : RegDef := ⟨240, 0x0200180080, .one, [⟨3, 3, .w1c, 0x0, none⟩, ⟨2, 2, .w1c, 0x0, none⟩, ⟨1, 1, .w1c, 0x0, none⟩, ⟨0, 0, .w1c, 0x0, none⟩]⟩
/-- PAR.EVT_IE (R286). -/
def PAR_EVT_IE : RegDef := ⟨241, 0x0200180084, .one, [⟨3, 0, .rw, 0x0, none⟩]⟩
/-- STIP.CTL (R287). -/
def STIP_CTL : RegDef := ⟨242, 0x0200190000, .one, [⟨11, 8, .rw, 0x6, some (4, 8)⟩, ⟨1, 1, .rw, 0x0, none⟩, ⟨0, 0, .rw, 0x0, none⟩]⟩
/-- STIP.TARGET (R287). -/
def STIP_TARGET : RegDef := ⟨243, 0x0200190004, .one, [⟨31, 0, .rw, 0x2750000, none⟩]⟩
/-- STIP.MAP_BASE_LO (R287). -/
def STIP_MAP_BASE_LO : RegDef := ⟨244, 0x0200190008, .one, [⟨31, 12, .rw, 0x0, none⟩]⟩
/-- STIP.MAP_BASE_HI (R287). -/
def STIP_MAP_BASE_HI : RegDef := ⟨245, 0x020019000C, .one, [⟨7, 0, .rw, 0x0, none⟩]⟩
/-- STIP.URG_POST (R287). -/
def STIP_URG_POST : RegDef := ⟨246, 0x0200190010, .one, [⟨22, 16, .wo, 0x0, none⟩, ⟨11, 0, .wo, 0x0, none⟩]⟩
/-- STIP.URG_STAT (R287). -/
def STIP_URG_STAT : RegDef := ⟨247, 0x0200190014, .one, [⟨12, 0, .ro, 0x0, none⟩]⟩
/-- STIP.LAP_LAST (R287). -/
def STIP_LAP_LAST : RegDef := ⟨248, 0x0200190018, .one, [⟨31, 0, .ro, 0x0, none⟩]⟩
/-- STIP.LAP_MAX (R287). -/
def STIP_LAP_MAX : RegDef := ⟨249, 0x020019001C, .one, [⟨31, 0, .rc, 0x0, none⟩]⟩
/-- STIP.CH_SEL (R287). -/
def STIP_CH_SEL : RegDef := ⟨250, 0x0200190020, .one, [⟨5, 0, .rw, 0x0, some (0, 47)⟩]⟩
/-- STIP.CH_LAP (R287). -/
def STIP_CH_LAP : RegDef := ⟨251, 0x0200190024, .chSel, [⟨31, 0, .ro, 0x0, none⟩]⟩
/-- STIP.CH_POS (R287). -/
def STIP_CH_POS : RegDef := ⟨252, 0x0200190028, .chSel, [⟨31, 20, .ro, 0x0, none⟩, ⟨19, 15, .ro, 0x0, none⟩, ⟨14, 0, .ro, 0x0, none⟩]⟩
/-- STIP.CNT_PAGES (R287). -/
def STIP_CNT_PAGES : RegDef := ⟨253, 0x020019002C, .one, [⟨31, 0, .rc, 0x0, none⟩]⟩
/-- STIP.CNT_WEAK (R287). -/
def STIP_CNT_WEAK : RegDef := ⟨254, 0x0200190030, .one, [⟨31, 16, .rc, 0x0, none⟩, ⟨15, 0, .rc, 0x0, none⟩]⟩
/-- STIP.EVT (R287). -/
def STIP_EVT : RegDef := ⟨255, 0x0200190040, .one, [⟨3, 3, .w1c, 0x0, none⟩, ⟨2, 2, .w1c, 0x0, none⟩, ⟨1, 1, .w1c, 0x0, none⟩, ⟨0, 0, .w1c, 0x0, none⟩]⟩
/-- STIP.EVT_IE (R287). -/
def STIP_EVT_IE : RegDef := ⟨256, 0x0200190044, .one, [⟨3, 0, .rw, 0x0, none⟩]⟩
/-- JNM.CTL (R401). -/
def JNM_CTL : RegDef := ⟨257, 0x02001A0000, .one, [⟨4, 4, .rw, 0x0, none⟩, ⟨3, 3, .rw, 0x0, none⟩, ⟨2, 2, .rw, 0x0, none⟩, ⟨1, 1, .rw, 0x0, none⟩, ⟨0, 0, .rw, 0x0, none⟩]⟩
/-- JNM.STAT (R401). -/
def JNM_STAT : RegDef := ⟨258, 0x02001A0004, .one, [⟨31, 24, .ro, 0x0, none⟩, ⟨23, 16, .ro, 0x0, none⟩, ⟨0, 0, .ro, 0x0, none⟩]⟩
/-- JNM.MCTP (R401). -/
def JNM_MCTP : RegDef := ⟨259, 0x02001A0008, .one, [⟨31, 24, .rw, 0x0, none⟩, ⟨22, 16, .rw, 0x1D, none⟩]⟩
/-- JNM.BUF_BASE_LO (R401). -/
def JNM_BUF_BASE_LO : RegDef := ⟨260, 0x02001A0010, .one, [⟨31, 16, .rw, 0x0, none⟩]⟩
/-- JNM.BUF_BASE_HI (R401). -/
def JNM_BUF_BASE_HI : RegDef := ⟨261, 0x02001A0014, .one, [⟨7, 0, .rw, 0x0, none⟩]⟩
/-- JNM.CACHE_BASE_LO (R401). -/
def JNM_CACHE_BASE_LO : RegDef := ⟨262, 0x02001A0018, .one, [⟨31, 16, .rw, 0x0, none⟩]⟩
/-- JNM.CACHE_BASE_HI (R401). -/
def JNM_CACHE_BASE_HI : RegDef := ⟨263, 0x02001A001C, .one, [⟨7, 0, .rw, 0x0, none⟩]⟩
/-- JNM.RXQ (R401). -/
def JNM_RXQ : RegDef := ⟨264, 0x02001A0020, .one, [⟨8, 0, .rw, 0x0, none⟩]⟩
/-- JNM.TX (R401). -/
def JNM_TX : RegDef := ⟨265, 0x02001A0024, .one, [⟨28, 24, .wo, 0x0, none⟩, ⟨16, 0, .wo, 0x0, none⟩]⟩
/-- JNM.ORG_SEL (R401). -/
def JNM_ORG_SEL : RegDef := ⟨266, 0x02001A0028, .one, [⟨3, 0, .rw, 0x0, none⟩]⟩
/-- JNM.ORG (R401). -/
def JNM_ORG : RegDef := ⟨267, 0x02001A002C, .origin, [⟨31, 31, .ro, 0x0, none⟩, ⟨30, 24, .ro, 0x0, none⟩, ⟨15, 0, .ro, 0x0, none⟩]⟩
/-- JNM.ORG_SEQ (R401). -/
def JNM_ORG_SEQ : RegDef := ⟨268, 0x02001A0030, .origin, [⟨31, 0, .ro, 0x0, none⟩]⟩
/-- JNM.CNT (R401). -/
def JNM_CNT : RegDef := ⟨269, 0x02001A0034, .one, [⟨31, 16, .rc, 0x0, none⟩, ⟨15, 0, .rc, 0x0, none⟩]⟩
/-- JNM.CNT2 (R401). -/
def JNM_CNT2 : RegDef := ⟨270, 0x02001A0038, .one, [⟨31, 16, .rc, 0x0, none⟩, ⟨15, 8, .rc, 0x0, none⟩, ⟨7, 0, .rc, 0x0, none⟩]⟩
/-- JNM.EVT (R401). -/
def JNM_EVT : RegDef := ⟨271, 0x02001A0040, .one, [⟨5, 5, .w1c, 0x0, none⟩, ⟨4, 4, .w1c, 0x0, none⟩, ⟨3, 3, .w1c, 0x0, none⟩, ⟨2, 2, .w1c, 0x0, none⟩, ⟨1, 1, .w1c, 0x0, none⟩, ⟨0, 0, .w1c, 0x0, none⟩]⟩
/-- JNM.EVT_IE (R401). -/
def JNM_EVT_IE : RegDef := ⟨272, 0x02001A0044, .one, [⟨5, 0, .rw, 0x0, none⟩]⟩
/-- DLK.CTL (R471). -/
def DLK_CTL : RegDef := ⟨273, 0x02001B0000, .one, [⟨1, 1, .rw, 0x0, none⟩, ⟨0, 0, .rw, 0x0, none⟩]⟩
/-- DLK.ROLE (R471). -/
def DLK_ROLE : RegDef := ⟨274, 0x02001B0004, .one, [⟨10, 10, .ro, 0x0, none⟩, ⟨9, 8, .ro, 0x0, none⟩, ⟨7, 4, .ro, 0x0, none⟩, ⟨1, 0, .ro, 0x0, none⟩]⟩
/-- DLK.LINK (R471). -/
def DLK_LINK : RegDef := ⟨275, 0x02001B0008, .one, [⟨15, 15, .ro, 0x0, none⟩, ⟨14, 12, .ro, 0x0, none⟩, ⟨7, 7, .ro, 0x0, none⟩, ⟨6, 4, .ro, 0x0, none⟩, ⟨3, 2, .ro, 0x0, none⟩, ⟨1, 0, .ro, 0x0, none⟩]⟩
/-- DLK.HOLD (R471). -/
def DLK_HOLD : RegDef := ⟨276, 0x02001B000C, .one, [⟨15, 0, .rw, 0x7D0, some (100, 65535)⟩]⟩
/-- DLK.CNT_RETRY (R471). -/
def DLK_CNT_RETRY : RegDef := ⟨277, 0x02001B0010, .one, [⟨31, 16, .rc, 0x0, none⟩, ⟨15, 0, .rc, 0x0, none⟩]⟩
/-- DLK.CNT_DUP (R471). -/
def DLK_CNT_DUP : RegDef := ⟨278, 0x02001B0014, .one, [⟨31, 16, .rc, 0x0, none⟩, ⟨15, 0, .rc, 0x0, none⟩]⟩
/-- DLK.EVT (R471). -/
def DLK_EVT : RegDef := ⟨279, 0x02001B0020, .one, [⟨5, 5, .w1c, 0x0, none⟩, ⟨4, 4, .w1c, 0x0, none⟩, ⟨3, 3, .w1c, 0x0, none⟩, ⟨2, 2, .w1c, 0x0, none⟩, ⟨1, 1, .w1c, 0x0, none⟩, ⟨0, 0, .w1c, 0x0, none⟩]⟩
/-- DLK.EVT_IE (R471). -/
def DLK_EVT_IE : RegDef := ⟨280, 0x02001B0024, .one, [⟨5, 0, .rw, 0x0, none⟩]⟩
/-- GRV.SEL (R381). -/
def GRV_SEL : RegDef := ⟨281, 0x02001C0000, .one, [⟨5, 0, .rw, 0x0, none⟩]⟩
/-- GRV.STATE (R381). -/
def GRV_STATE : RegDef := ⟨282, 0x02001C0004, .gravSel, [⟨31, 28, .ro, 0x0, none⟩, ⟨27, 24, .ro, 0x0, none⟩]⟩
/-- GRV.CTL (R381). -/
def GRV_CTL : RegDef := ⟨283, 0x02001C0008, .gravSel, [⟨3, 3, .w1s, 0x0, none⟩, ⟨2, 2, .w1s, 0x0, none⟩, ⟨1, 1, .w1s, 0x0, none⟩, ⟨0, 0, .w1s, 0x0, none⟩]⟩
/-- GRV.START_LO (R381). -/
def GRV_START_LO : RegDef := ⟨284, 0x02001C000C, .gravSel, [⟨31, 0, .rw, 0x40000000, none⟩]⟩
/-- GRV.START_HI (R381). -/
def GRV_START_HI : RegDef := ⟨285, 0x02001C0010, .gravSel, [⟨7, 0, .rw, 0x0, none⟩]⟩
/-- GRV.WD (R381). -/
def GRV_WD : RegDef := ⟨286, 0x02001C0014, .gravSel, [⟨15, 0, .rw, 0x80, none⟩]⟩
/-- GRV.PET (R381). -/
def GRV_PET : RegDef := ⟨287, 0x02001C0018, .one, [⟨31, 0, .wo, 0x0, none⟩]⟩
/-- GRV.SPARE_LO (R381). -/
def GRV_SPARE_LO : RegDef := ⟨288, 0x02001C001C, .one, [⟨31, 0, .rw, 0x0, none⟩]⟩
/-- GRV.SPARE_HI (R381). -/
def GRV_SPARE_HI : RegDef := ⟨289, 0x02001C0020, .one, [⟨31, 0, .rw, 0x0, none⟩]⟩
/-- GRV.STEWARD (R381). -/
def GRV_STEWARD : RegDef := ⟨290, 0x02001C0024, .one, [⟨5, 0, .ro, 0x0, none⟩]⟩
/-- GRV.MIGRATE (R381). -/
def GRV_MIGRATE : RegDef := ⟨291, 0x02001C0028, .one, [⟨13, 8, .wo, 0x0, none⟩, ⟨5, 0, .wo, 0x0, none⟩]⟩
/-- GRV.BOOT (R381). -/
def GRV_BOOT : RegDef := ⟨292, 0x02001C002C, .one, [⟨31, 28, .ro, 0x0, none⟩, ⟨27, 26, .ro, 0x0, none⟩, ⟨25, 20, .ro, 0x0, none⟩, ⟨19, 16, .ro, 0x0, none⟩, ⟨5, 0, .ro, 0x0, none⟩]⟩
/-- GRV.QSEL (R381). -/
def GRV_QSEL : RegDef := ⟨293, 0x02001C0030, .one, [⟨8, 0, .rw, 0x0, none⟩]⟩
/-- GRV.QOWN (R381). -/
def GRV_QOWN : RegDef := ⟨294, 0x02001C0034, .queue, [⟨21, 16, .rw, 0x0, none⟩, ⟨6, 0, .ro, 0x0, none⟩]⟩
/-- GRV.UQMASK_LO (R381). -/
def GRV_UQMASK_LO : RegDef := ⟨295, 0x02001C0038, .gravSel, [⟨31, 0, .rw, 0x0, none⟩]⟩
/-- GRV.UQMASK_HI (R381). -/
def GRV_UQMASK_HI : RegDef := ⟨296, 0x02001C003C, .gravSel, [⟨31, 0, .rw, 0x0, none⟩]⟩
/-- GRV.IRQ_SEL (R381). -/
def GRV_IRQ_SEL : RegDef := ⟨297, 0x02001C0040, .one, [⟨7, 0, .rw, 0x0, none⟩]⟩
/-- GRV.IRQ_ROUTE (R381). -/
def GRV_IRQ_ROUTE : RegDef := ⟨298, 0x02001C0044, .irq, [⟨5, 0, .rw, 0x0, none⟩]⟩
/-- GRV.MEAS_SEL (R381). -/
def GRV_MEAS_SEL : RegDef := ⟨299, 0x02001C0050, .one, [⟨11, 8, .rw, 0x0, some (0, 11)⟩, ⟨3, 0, .rw, 0x0, some (1, 12)⟩]⟩
/-- GRV.MEAS (R381). -/
def GRV_MEAS : RegDef := ⟨300, 0x02001C0054, .one, [⟨31, 0, .ro, 0x0, none⟩]⟩
/-- GRV.MEAS_EXT0 (R381). -/
def GRV_MEAS_EXT0 : RegDef := ⟨301, 0x02001C0058, .one, [⟨31, 0, .wo, 0x0, none⟩]⟩
/-- GRV.MEAS_EXT1 (R381). -/
def GRV_MEAS_EXT1 : RegDef := ⟨302, 0x02001C005C, .one, [⟨31, 0, .wo, 0x0, none⟩]⟩
/-- GRV.MEAS_EXT2 (R381). -/
def GRV_MEAS_EXT2 : RegDef := ⟨303, 0x02001C0060, .one, [⟨31, 0, .wo, 0x0, none⟩]⟩
/-- GRV.MEAS_EXT3 (R381). -/
def GRV_MEAS_EXT3 : RegDef := ⟨304, 0x02001C0064, .one, [⟨31, 0, .wo, 0x0, none⟩]⟩
/-- GRV.MEAS_EXT4 (R381). -/
def GRV_MEAS_EXT4 : RegDef := ⟨305, 0x02001C0068, .one, [⟨31, 0, .wo, 0x0, none⟩]⟩
/-- GRV.MEAS_EXT5 (R381). -/
def GRV_MEAS_EXT5 : RegDef := ⟨306, 0x02001C006C, .one, [⟨31, 0, .wo, 0x0, none⟩]⟩
/-- GRV.MEAS_EXT6 (R381). -/
def GRV_MEAS_EXT6 : RegDef := ⟨307, 0x02001C0070, .one, [⟨31, 0, .wo, 0x0, none⟩]⟩
/-- GRV.MEAS_EXT7 (R381). -/
def GRV_MEAS_EXT7 : RegDef := ⟨308, 0x02001C0074, .one, [⟨31, 0, .wo, 0x0, none⟩]⟩
/-- GRV.MEAS_EXT8 (R381). -/
def GRV_MEAS_EXT8 : RegDef := ⟨309, 0x02001C0078, .one, [⟨31, 0, .wo, 0x0, none⟩]⟩
/-- GRV.MEAS_EXT9 (R381). -/
def GRV_MEAS_EXT9 : RegDef := ⟨310, 0x02001C007C, .one, [⟨31, 0, .wo, 0x0, none⟩]⟩
/-- GRV.MEAS_EXT10 (R381). -/
def GRV_MEAS_EXT10 : RegDef := ⟨311, 0x02001C0080, .one, [⟨31, 0, .wo, 0x0, none⟩]⟩
/-- GRV.MEAS_EXT11 (R381). -/
def GRV_MEAS_EXT11 : RegDef := ⟨312, 0x02001C0084, .one, [⟨31, 0, .wo, 0x0, none⟩]⟩
/-- GRV.EVT (R381). -/
def GRV_EVT : RegDef := ⟨313, 0x02001C0090, .one, [⟨3, 3, .w1c, 0x0, none⟩, ⟨2, 2, .w1c, 0x0, none⟩, ⟨1, 1, .w1c, 0x0, none⟩, ⟨0, 0, .w1c, 0x0, none⟩]⟩
/-- GRV.EVT_IE (R381). -/
def GRV_EVT_IE : RegDef := ⟨314, 0x02001C0094, .one, [⟨3, 0, .rw, 0x0, none⟩]⟩
/-- CHANn.SEQ_CTL (R202). -/
def SEQ_CTL : RegDef := ⟨315, 0x0201000000, .one, [⟨2, 2, .rw, 0x0, none⟩, ⟨1, 1, .w1s, 0x0, none⟩, ⟨0, 0, .rw, 0x0, none⟩]⟩
/-- CHANn.SEQ_STAT (R202). -/
def SEQ_STAT : RegDef := ⟨316, 0x0201000004, .one, [⟨26, 16, .ro, 0x0, none⟩, ⟨2, 2, .ro, 0x0, none⟩, ⟨1, 1, .ro, 0x0, none⟩, ⟨0, 0, .ro, 0x0, none⟩]⟩
/-- CHANn.SEQ_POST_D0 (R202). -/
def SEQ_POST_D0 : RegDef := ⟨317, 0x0201000010, .graver, [⟨31, 0, .wo, 0x0, none⟩]⟩
/-- CHANn.SEQ_POST_D1 (R202). -/
def SEQ_POST_D1 : RegDef := ⟨318, 0x0201000014, .graver, [⟨31, 0, .wo, 0x0, none⟩]⟩
/-- CHANn.SEQ_POST_D2 (R202). -/
def SEQ_POST_D2 : RegDef := ⟨319, 0x0201000018, .graver, [⟨31, 0, .wo, 0x0, none⟩]⟩
/-- CHANn.SEQ_POST_D3 (R202). -/
def SEQ_POST_D3 : RegDef := ⟨320, 0x020100001C, .graver, [⟨31, 0, .wo, 0x0, none⟩]⟩
/-- CHANn.SEQ_POST_D4 (R202). -/
def SEQ_POST_D4 : RegDef := ⟨321, 0x0201000020, .graver, [⟨31, 0, .wo, 0x0, none⟩]⟩
/-- CHANn.SEQ_POST_D5 (R202). -/
def SEQ_POST_D5 : RegDef := ⟨322, 0x0201000024, .graver, [⟨31, 0, .wo, 0x0, none⟩]⟩
/-- CHANn.SEQ_POST_D6 (R202). -/
def SEQ_POST_D6 : RegDef := ⟨323, 0x0201000028, .graver, [⟨31, 0, .wo, 0x0, none⟩]⟩
/-- CHANn.SEQ_POST_D7 (R202). -/
def SEQ_POST_D7 : RegDef := ⟨324, 0x020100002C, .graver, [⟨31, 0, .wo, 0x0, none⟩]⟩
/-- CHANn.SEQ_POST_STAT (R202). -/
def SEQ_POST_STAT : RegDef := ⟨325, 0x0201000030, .graver, [⟨1, 0, .ro, 0x0, none⟩]⟩
/-- CHANn.SEQ_CQ_BASE_LO (R202). -/
def SEQ_CQ_BASE_LO : RegDef := ⟨326, 0x0201000040, .one, [⟨31, 4, .rw, 0x0, none⟩]⟩
/-- CHANn.SEQ_CQ_BASE_HI (R202). -/
def SEQ_CQ_BASE_HI : RegDef := ⟨327, 0x0201000044, .one, [⟨7, 0, .rw, 0x0, none⟩]⟩
/-- CHANn.SEQ_CQ_CFG (R202). -/
def SEQ_CQ_CFG : RegDef := ⟨328, 0x0201000048, .one, [⟨4, 0, .rw, 0xA, some (6, 16)⟩]⟩
/-- CHANn.SEQ_CQ_HEAD (R202). -/
def SEQ_CQ_HEAD : RegDef := ⟨329, 0x020100004C, .one, [⟨15, 0, .rw, 0x0, none⟩]⟩
/-- CHANn.SEQ_CQ_TAIL (R202). -/
def SEQ_CQ_TAIL : RegDef := ⟨330, 0x0201000050, .one, [⟨15, 0, .ro, 0x0, none⟩]⟩
/-- CHANn.SEQ_SUSP_CFG (R202). -/
def SEQ_SUSP_CFG : RegDef := ⟨331, 0x0201000060, .one, [⟨29, 24, .rw, 0x20, none⟩, ⟨21, 16, .rw, 0x8, none⟩, ⟨11, 8, .rw, 0x4, some (1, 15)⟩]⟩
/-- CHANn.SEQ_PROOF_CFG (R202). -/
def SEQ_PROOF_CFG : RegDef := ⟨332, 0x0201000064, .one, [⟨31, 24, .rw, 0x1, none⟩, ⟨23, 16, .rw, 0x30, none⟩, ⟨15, 0, .rw, 0x8001, none⟩]⟩
/-- CHANn.SEQ_T_READ (R202). -/
def SEQ_T_READ : RegDef := ⟨333, 0x0201000070, .one, [⟨31, 16, .rw, 0x3B, none⟩, ⟨15, 0, .rw, 0x78, none⟩]⟩
/-- CHANn.SEQ_T_PROG (R202). -/
def SEQ_T_PROG : RegDef := ⟨334, 0x0201000074, .one, [⟨31, 16, .rw, 0x36F, none⟩, ⟨15, 0, .rw, 0x708, none⟩]⟩
/-- CHANn.SEQ_T_ERASE (R202). -/
def SEQ_T_ERASE : RegDef := ⟨335, 0x0201000078, .one, [⟨31, 16, .rw, 0x16E4, none⟩, ⟨15, 0, .rw, 0x2EE0, none⟩]⟩
/-- CHANn.SEQ_T_SUSP (R202). -/
def SEQ_T_SUSP : RegDef := ⟨336, 0x020100007C, .one, [⟨31, 16, .rw, 0xD, none⟩, ⟨15, 0, .rw, 0x19, none⟩]⟩
/-- CHANn.SEQ_DIE_SEL (R202). -/
def SEQ_DIE_SEL : RegDef := ⟨337, 0x0201000080, .one, [⟨4, 0, .rw, 0x0, none⟩]⟩
/-- CHANn.SEQ_DIE_STAT (R202). -/
def SEQ_DIE_STAT : RegDef := ⟨338, 0x0201000084, .die, [⟨31, 28, .ro, 0xA, none⟩, ⟨27, 22, .ro, 0x0, none⟩, ⟨21, 16, .ro, 0x0, none⟩, ⟨15, 15, .ro, 0x0, none⟩, ⟨11, 0, .ro, 0x0, none⟩]⟩
/-- CHANn.SEQ_DIE_CTL (R202). -/
def SEQ_DIE_CTL : RegDef := ⟨339, 0x0201000088, .die, [⟨1, 1, .w1s, 0x0, none⟩, ⟨0, 0, .rw, 0x0, none⟩]⟩
/-- CHANn.SEQ_BST_SEL (R202). -/
def SEQ_BST_SEL : RegDef := ⟨340, 0x0201000090, .one, [⟨28, 24, .rw, 0x0, none⟩, ⟨11, 0, .rw, 0x0, none⟩]⟩
/-- CHANn.SEQ_BST_DATA (R202). -/
def SEQ_BST_DATA : RegDef := ⟨341, 0x0201000094, .blockState, [⟨1, 0, .rw, 0x0, some (0, 2)⟩]⟩
/-- CHANn.SEQ_CNT_SUSP (R202). -/
def SEQ_CNT_SUSP : RegDef := ⟨342, 0x02010000A0, .one, [⟨31, 16, .rc, 0x0, none⟩, ⟨15, 0, .rc, 0x0, none⟩]⟩
/-- CHANn.SEQ_CNT_DUP (R202). -/
def SEQ_CNT_DUP : RegDef := ⟨343, 0x02010000A4, .one, [⟨31, 16, .rc, 0x0, none⟩, ⟨15, 0, .rc, 0x0, none⟩]⟩
/-- CHANn.SEQ_EVT (R202). -/
def SEQ_EVT : RegDef := ⟨344, 0x02010000B0, .one, [⟨6, 6, .w1c, 0x0, none⟩, ⟨5, 5, .w1c, 0x0, none⟩, ⟨4, 4, .w1c, 0x0, none⟩, ⟨3, 3, .w1c, 0x0, none⟩, ⟨2, 2, .w1c, 0x0, none⟩, ⟨1, 1, .w1c, 0x0, none⟩, ⟨0, 0, .w1c, 0x0, none⟩]⟩
/-- CHANn.SEQ_EVT_IE (R202). -/
def SEQ_EVT_IE : RegDef := ⟨345, 0x02010000B4, .one, [⟨6, 0, .rw, 0x0, none⟩]⟩
/-- CHANn.CARB_WAIT_LIMIT (R217). -/
def CARB_WAIT_LIMIT : RegDef := ⟨346, 0x0201002000, .one, [⟨7, 0, .rw, 0x20, some (1, 255)⟩]⟩
/-- CHANn.CARB_CLS_PRI (R217). -/
def CARB_CLS_PRI : RegDef := ⟨347, 0x0201002004, .one, [⟨31, 30, .rw, 0x2, none⟩, ⟨29, 0, .rw, 0x15555555, none⟩]⟩
/-- CHANn.CARB_STAT (R217). -/
def CARB_STAT : RegDef := ⟨348, 0x0201002008, .one, [⟨31, 31, .ro, 0x0, none⟩, ⟨30, 28, .ro, 0x0, none⟩, ⟨27, 24, .ro, 0x0, none⟩, ⟨23, 19, .ro, 0x0, none⟩, ⟨18, 16, .ro, 0x0, none⟩, ⟨6, 0, .ro, 0x0, none⟩]⟩
/-- CHANn.CARB_PQ_SEL (R217). -/
def CARB_PQ_SEL : RegDef := ⟨349, 0x0201002010, .one, [⟨5, 0, .rw, 0x0, none⟩]⟩
/-- CHANn.CARB_PQ_ENTRY (R217). -/
def CARB_PQ_ENTRY : RegDef := ⟨350, 0x0201002014, .pq, [⟨31, 31, .ro, 0x0, none⟩, ⟨30, 30, .ro, 0x0, none⟩, ⟨29, 27, .ro, 0x0, none⟩, ⟨26, 23, .ro, 0x0, none⟩, ⟨22, 18, .ro, 0x0, none⟩, ⟨17, 15, .ro, 0x0, none⟩, ⟨14, 13, .ro, 0x0, none⟩, ⟨7, 0, .ro, 0x0, none⟩]⟩
/-- CHANn.CARB_CNT_GRANT (R217). -/
def CARB_CNT_GRANT : RegDef := ⟨351, 0x0201002020, .one, [⟨31, 16, .rc, 0x0, none⟩, ⟨15, 0, .rc, 0x0, none⟩]⟩
/-- CHANn.CARB_CNT_FORCE (R217). -/
def CARB_CNT_FORCE : RegDef := ⟨352, 0x0201002024, .one, [⟨31, 24, .rc, 0x0, none⟩, ⟨15, 0, .rc, 0x0, none⟩]⟩
/-- CHANn.CARB_EVT (R217). -/
def CARB_EVT : RegDef := ⟨353, 0x0201002030, .one, [⟨1, 1, .w1c, 0x0, none⟩, ⟨0, 0, .w1c, 0x0, none⟩]⟩
/-- CHANn.CARB_EVT_IE (R217). -/
def CARB_EVT_IE : RegDef := ⟨354, 0x0201002034, .one, [⟨1, 0, .rw, 0x0, none⟩]⟩
/-- CHANn.HATCH_CTL (R65). -/
def HATCH_CTL : RegDef := ⟨355, 0x0201003000, .one, [⟨6, 6, .rw, 0x0, none⟩, ⟨5, 5, .rw, 0x0, none⟩, ⟨4, 4, .rw, 0x0, none⟩, ⟨3, 3, .rw, 0x1, none⟩, ⟨2, 2, .wo, 0x0, none⟩, ⟨1, 1, .wo, 0x0, none⟩, ⟨0, 0, .w1s, 0x0, none⟩]⟩
/-- CHANn.HATCH_STAT (R65). -/
def HATCH_STAT : RegDef := ⟨356, 0x0201003004, .one, [⟨9, 9, .w1c, 0x0, none⟩, ⟨8, 8, .w1c, 0x0, none⟩, ⟨7, 7, .w1c, 0x0, none⟩, ⟨6, 6, .w1c, 0x0, none⟩, ⟨5, 5, .w1c, 0x0, none⟩, ⟨4, 4, .w1c, 0x0, none⟩, ⟨3, 3, .w1c, 0x0, none⟩, ⟨2, 2, .ro, 0x0, none⟩, ⟨1, 1, .ro, 0x0, none⟩, ⟨0, 0, .ro, 0x0, none⟩]⟩
/-- CHANn.HATCH_ARM_SHEET (R65). -/
def HATCH_ARM_SHEET : RegDef := ⟨357, 0x0201003008, .one, [⟨31, 0, .rw, 0x0, none⟩]⟩
/-- CHANn.HATCH_SEAL_A (R65). -/
def HATCH_SEAL_A : RegDef := ⟨358, 0x020100300C, .one, [⟨15, 0, .rw, 0x0, none⟩]⟩
/-- CHANn.HATCH_SEAL_B (R65). -/
def HATCH_SEAL_B : RegDef := ⟨359, 0x0201003010, .one, [⟨15, 0, .rw, 0x0, none⟩]⟩
/-- CHANn.HATCH_USE (R65). -/
def HATCH_USE : RegDef := ⟨360, 0x0201003014, .one, [⟨24, 16, .ro, 0x0, none⟩, ⟨8, 0, .ro, 0x0, none⟩]⟩
/-- CHANn.HATCH_SWITCH_SHEET (R65). -/
def HATCH_SWITCH_SHEET : RegDef := ⟨361, 0x0201003018, .one, [⟨31, 0, .ro, 0x0, none⟩]⟩
/-- CHANn.PHY_RATE (R202). -/
def PHY_RATE : RegDef := ⟨362, 0x0201008000, .one, [⟨18, 16, .ro, 0x0, none⟩, ⟨8, 8, .w1s, 0x0, none⟩, ⟨2, 0, .rw, 0x4, some (1, 4)⟩]⟩
/-- CHANn.PHY_CAL_CTL (R202). -/
def PHY_CAL_CTL : RegDef := ⟨363, 0x0201008004, .one, [⟨31, 24, .rw, 0x18, none⟩, ⟨23, 16, .rw, 0x4, none⟩, ⟨2, 2, .rw, 0x1, none⟩, ⟨1, 1, .rw, 0x1, none⟩, ⟨0, 0, .rw, 0x1, none⟩]⟩
/-- CHANn.PHY_CAL_STAT (R202). -/
def PHY_CAL_STAT : RegDef := ⟨364, 0x0201008008, .one, [⟨31, 16, .rc, 0x0, none⟩, ⟨5, 0, .ro, 0x0, none⟩]⟩
/-- CHANn.PHY_EYE_SEL (R202). -/
def PHY_EYE_SEL : RegDef := ⟨365, 0x0201008010, .one, [⟨4, 0, .rw, 0x0, none⟩]⟩
/-- CHANn.PHY_EYE (R202). -/
def PHY_EYE : RegDef := ⟨366, 0x0201008014, .eye, [⟨31, 24, .ro, 0x0, none⟩, ⟨23, 16, .ro, 0x0, none⟩, ⟨15, 8, .ro, 0x0, none⟩, ⟨7, 0, .ro, 0x0, none⟩]⟩
/-- CHANn.PHY_EVT (R202). -/
def PHY_EVT : RegDef := ⟨367, 0x0201008020, .one, [⟨3, 3, .w1c, 0x0, none⟩, ⟨2, 2, .w1c, 0x0, none⟩, ⟨1, 1, .w1c, 0x0, none⟩, ⟨0, 0, .w1c, 0x0, none⟩]⟩
/-- CHANn.PHY_EVT_IE (R202). -/
def PHY_EVT_IE : RegDef := ⟨368, 0x0201008024, .one, [⟨3, 0, .rw, 0x0, none⟩]⟩

end Rg

namespace Fd

def SYS_IDENT_VENDOR : Fld := ⟨Rg.SYS_IDENT, 31, 16⟩
def SYS_IDENT_PART : Fld := ⟨Rg.SYS_IDENT, 15, 0⟩
def SYS_REVISION_STEP : Fld := ⟨Rg.SYS_REVISION, 15, 8⟩
def SYS_REVISION_METAL : Fld := ⟨Rg.SYS_REVISION, 7, 0⟩
def SYS_RST_CTL_COLD : Fld := ⟨Rg.SYS_RST_CTL, 0, 0⟩
def SYS_RST_CAUSE_FLUSH : Fld := ⟨Rg.SYS_RST_CAUSE, 4, 4⟩
def SYS_RST_CAUSE_FATAL : Fld := ⟨Rg.SYS_RST_CAUSE, 3, 3⟩
def SYS_RST_CAUSE_TRIP : Fld := ⟨Rg.SYS_RST_CAUSE, 2, 2⟩
def SYS_RST_CAUSE_SW : Fld := ⟨Rg.SYS_RST_CAUSE, 1, 1⟩
def SYS_RST_CAUSE_POWER : Fld := ⟨Rg.SYS_RST_CAUSE, 0, 0⟩
def SYS_FAULT_FATAL : Fld := ⟨Rg.SYS_FAULT, 9, 9⟩
def SYS_FAULT_FLUSH_INC : Fld := ⟨Rg.SYS_FAULT, 8, 8⟩
def SYS_FAULT_REBUILD : Fld := ⟨Rg.SYS_FAULT, 7, 7⟩
def SYS_FAULT_RATE_LOW : Fld := ⟨Rg.SYS_FAULT, 6, 6⟩
def SYS_FAULT_DLK_LANE : Fld := ⟨Rg.SYS_FAULT, 5, 5⟩
def SYS_FAULT_PORT : Fld := ⟨Rg.SYS_FAULT, 4, 4⟩
def SYS_FAULT_DRAM : Fld := ⟨Rg.SYS_FAULT, 3, 3⟩
def SYS_FAULT_GRAVER : Fld := ⟨Rg.SYS_FAULT, 2, 2⟩
def SYS_FAULT_MEDIA : Fld := ⟨Rg.SYS_FAULT, 1, 1⟩
def SYS_FAULT_UNLOCK : Fld := ⟨Rg.SYS_FAULT, 0, 0⟩
def SYS_EVT_EVT : Fld := ⟨Rg.SYS_EVT, 9, 0⟩
def SYS_EVT_IE_IE : Fld := ⟨Rg.SYS_EVT_IE, 9, 0⟩
def SYS_FLUSH_SEQ_FSEQ : Fld := ⟨Rg.SYS_FLUSH_SEQ, 31, 0⟩
def SYS_FLUSH_TIME_END : Fld := ⟨Rg.SYS_FLUSH_TIME, 31, 31⟩
def SYS_FLUSH_TIME_US10 : Fld := ⟨Rg.SYS_FLUSH_TIME, 15, 0⟩
def STRK_CTL_LOAD : Fld := ⟨Rg.STRK_CTL, 2, 2⟩
def STRK_CTL_CMP_IE : Fld := ⟨Rg.STRK_CTL, 1, 1⟩
def STRK_CTL_SHEET_IE : Fld := ⟨Rg.STRK_CTL, 0, 0⟩
def STRK_STAT_UNLOCK : Fld := ⟨Rg.STRK_STAT, 4, 4⟩
def STRK_STAT_LOADED : Fld := ⟨Rg.STRK_STAT, 3, 3⟩
def STRK_STAT_CMP : Fld := ⟨Rg.STRK_STAT, 2, 2⟩
def STRK_STAT_SHEET : Fld := ⟨Rg.STRK_STAT, 1, 1⟩
def STRK_STAT_LOCK : Fld := ⟨Rg.STRK_STAT, 0, 0⟩
def STRK_COUNT_LO_COUNT : Fld := ⟨Rg.STRK_COUNT_LO, 31, 0⟩
def STRK_COUNT_HI_COUNT : Fld := ⟨Rg.STRK_COUNT_HI, 31, 0⟩
def STRK_PHASE_STROKE : Fld := ⟨Rg.STRK_PHASE, 17, 10⟩
def STRK_PHASE_CYCLE : Fld := ⟨Rg.STRK_PHASE, 9, 0⟩
def STRK_CMP_LO_CMP : Fld := ⟨Rg.STRK_CMP_LO, 31, 0⟩
def STRK_CMP_HI_CMP : Fld := ⟨Rg.STRK_CMP_HI, 31, 0⟩
def STRK_LOAD_LO_SHEET_LO : Fld := ⟨Rg.STRK_LOAD_LO, 31, 0⟩
def STRK_LOAD_HI_SHEET_HI : Fld := ⟨Rg.STRK_LOAD_HI, 23, 0⟩
def STRK_SLIPS_COUNT : Fld := ⟨Rg.STRK_SLIPS, 15, 0⟩
def PWR_CTL_HOLD : Fld := ⟨Rg.PWR_CTL, 1, 1⟩
def PWR_CTL_ENTRY_EN : Fld := ⟨Rg.PWR_CTL, 0, 0⟩
def PWR_STAT_BUSY : Fld := ⟨Rg.PWR_STAT, 31, 31⟩
def PWR_STAT_LEVEL : Fld := ⟨Rg.PWR_STAT, 25, 24⟩
def PWR_STAT_CAP : Fld := ⟨Rg.PWR_STAT, 21, 20⟩
def PWR_STAT_OP : Fld := ⟨Rg.PWR_STAT, 17, 16⟩
def PWR_STAT_SEL : Fld := ⟨Rg.PWR_STAT, 10, 8⟩
def PWR_STAT_PS : Fld := ⟨Rg.PWR_STAT, 2, 0⟩
def PWR_OP_CTL_CAP : Fld := ⟨Rg.PWR_OP_CTL, 5, 4⟩
def PWR_OP_CTL_TARGET : Fld := ⟨Rg.PWR_OP_CTL, 1, 0⟩
def PWR_OP_V0_VOUT : Fld := ⟨Rg.PWR_OP_V0, 31, 16⟩
def PWR_OP_V0_TRIM : Fld := ⟨Rg.PWR_OP_V0, 3, 0⟩
def PWR_OP_V1_VOUT : Fld := ⟨Rg.PWR_OP_V1, 31, 16⟩
def PWR_OP_V1_TRIM : Fld := ⟨Rg.PWR_OP_V1, 3, 0⟩
def PWR_OP_V2_VOUT : Fld := ⟨Rg.PWR_OP_V2, 31, 16⟩
def PWR_OP_V2_TRIM : Fld := ⟨Rg.PWR_OP_V2, 3, 0⟩
def PWR_OP_V3_VOUT : Fld := ⟨Rg.PWR_OP_V3, 31, 16⟩
def PWR_OP_V3_TRIM : Fld := ⟨Rg.PWR_OP_V3, 3, 0⟩
def PWR_PMB_CFG_EXP : Fld := ⟨Rg.PWR_PMB_CFG, 28, 24⟩
def PWR_PMB_CFG_RATE : Fld := ⟨Rg.PWR_PMB_CFG, 17, 16⟩
def PWR_PMB_CFG_PAGE : Fld := ⟨Rg.PWR_PMB_CFG, 15, 8⟩
def PWR_PMB_CFG_ADDR : Fld := ⟨Rg.PWR_PMB_CFG, 6, 0⟩
def PWR_VSETTLE_TOL : Fld := ⟨Rg.PWR_VSETTLE, 23, 16⟩
def PWR_VSETTLE_US : Fld := ⟨Rg.PWR_VSETTLE, 15, 0⟩
def PWR_IDLE_MS : Fld := ⟨Rg.PWR_IDLE, 31, 0⟩
def PWR_ENTRY_CNT_REFUSED : Fld := ⟨Rg.PWR_ENTRY_CNT, 31, 16⟩
def PWR_ENTRY_CNT_ABORTED : Fld := ⟨Rg.PWR_ENTRY_CNT, 15, 0⟩
def PWR_REFUSER_ABORT : Fld := ⟨Rg.PWR_REFUSER, 23, 20⟩
def PWR_REFUSER_KIND : Fld := ⟨Rg.PWR_REFUSER, 15, 12⟩
def PWR_REFUSER_INDEX : Fld := ⟨Rg.PWR_REFUSER, 11, 0⟩
def PWR_THERM_THERM_N : Fld := ⟨Rg.PWR_THERM, 16, 16⟩
def PWR_THERM_KELVIN : Fld := ⟨Rg.PWR_THERM, 15, 0⟩
def PWR_THERM_CFG_HYST : Fld := ⟨Rg.PWR_THERM_CFG, 31, 24⟩
def PWR_THERM_CFG_T3 : Fld := ⟨Rg.PWR_THERM_CFG, 23, 16⟩
def PWR_THERM_CFG_T2 : Fld := ⟨Rg.PWR_THERM_CFG, 15, 8⟩
def PWR_THERM_CFG_T1 : Fld := ⟨Rg.PWR_THERM_CFG, 7, 0⟩
def PWR_EVT_TRIP : Fld := ⟨Rg.PWR_EVT, 5, 5⟩
def PWR_EVT_LEVEL : Fld := ⟨Rg.PWR_EVT, 4, 4⟩
def PWR_EVT_PMB_FAIL : Fld := ⟨Rg.PWR_EVT, 3, 3⟩
def PWR_EVT_ABORTED : Fld := ⟨Rg.PWR_EVT, 2, 2⟩
def PWR_EVT_REFUSED : Fld := ⟨Rg.PWR_EVT, 1, 1⟩
def PWR_EVT_PS : Fld := ⟨Rg.PWR_EVT, 0, 0⟩
def PWR_EVT_IE_IE : Fld := ⟨Rg.PWR_EVT_IE, 5, 0⟩
def AON_STAT_AON_LOST : Fld := ⟨Rg.AON_STAT, 5, 5⟩
def AON_STAT_CLK_STOP : Fld := ⟨Rg.AON_STAT, 4, 4⟩
def AON_STAT_TIME_LOST : Fld := ⟨Rg.AON_STAT, 3, 3⟩
def AON_STAT_SEALED : Fld := ⟨Rg.AON_STAT, 1, 1⟩
def AON_STAT_SAVED : Fld := ⟨Rg.AON_STAT, 0, 0⟩
def AON_TICK_LO_TICKS : Fld := ⟨Rg.AON_TICK_LO, 31, 0⟩
def AON_TICK_HI_TICKS : Fld := ⟨Rg.AON_TICK_HI, 15, 0⟩
def AON_SAVE_SHEET_LO_SHEET : Fld := ⟨Rg.AON_SAVE_SHEET_LO, 31, 0⟩
def AON_SAVE_SHEET_HI_SHEET : Fld := ⟨Rg.AON_SAVE_SHEET_HI, 23, 0⟩
def AON_SAVE_TICK_LO_TICKS : Fld := ⟨Rg.AON_SAVE_TICK_LO, 31, 0⟩
def AON_SAVE_TICK_HI_TICKS : Fld := ⟨Rg.AON_SAVE_TICK_HI, 15, 0⟩
def AON_WAKE_EN_EN : Fld := ⟨Rg.AON_WAKE_EN, 23, 0⟩
def AON_WAKE_SRC_SRC : Fld := ⟨Rg.AON_WAKE_SRC, 23, 0⟩
def AON_ALARM_LO_TICKS : Fld := ⟨Rg.AON_ALARM_LO, 31, 0⟩
def AON_ALARM_HI_TICKS : Fld := ⟨Rg.AON_ALARM_HI, 15, 0⟩
def AON_KB_BAD_BAD : Fld := ⟨Rg.AON_KB_BAD, 31, 0⟩
def AON_KB_SEL_BANK : Fld := ⟨Rg.AON_KB_SEL, 4, 0⟩
def AON_KB_SIG_LO_SIG : Fld := ⟨Rg.AON_KB_SIG_LO, 31, 0⟩
def AON_KB_SIG_HI_SIG : Fld := ⟨Rg.AON_KB_SIG_HI, 31, 0⟩
def AON_EVT_IE_IE : Fld := ⟨Rg.AON_EVT_IE, 3, 0⟩
def HQ_CTL_FETCH_HOLD : Fld := ⟨Rg.HQ_CTL, 0, 0⟩
def HQ_PORT_CFG_MODE : Fld := ⟨Rg.HQ_PORT_CFG, 1, 0⟩
def HQ_LINK_STAT_UP1 : Fld := ⟨Rg.HQ_LINK_STAT, 31, 31⟩
def HQ_LINK_STAT_FLIT1 : Fld := ⟨Rg.HQ_LINK_STAT, 30, 30⟩
def HQ_LINK_STAT_IDE1 : Fld := ⟨Rg.HQ_LINK_STAT, 29, 29⟩
def HQ_LINK_STAT_RATE1 : Fld := ⟨Rg.HQ_LINK_STAT, 28, 26⟩
def HQ_LINK_STAT_WIDTH1 : Fld := ⟨Rg.HQ_LINK_STAT, 25, 21⟩
def HQ_LINK_STAT_UP0 : Fld := ⟨Rg.HQ_LINK_STAT, 15, 15⟩
def HQ_LINK_STAT_FLIT0 : Fld := ⟨Rg.HQ_LINK_STAT, 14, 14⟩
def HQ_LINK_STAT_IDE0 : Fld := ⟨Rg.HQ_LINK_STAT, 13, 13⟩
def HQ_LINK_STAT_RATE0 : Fld := ⟨Rg.HQ_LINK_STAT, 12, 10⟩
def HQ_LINK_STAT_WIDTH0 : Fld := ⟨Rg.HQ_LINK_STAT, 9, 5⟩
def HQ_FETCH_BUDGET_BUDGET : Fld := ⟨Rg.HQ_FETCH_BUDGET, 9, 0⟩
def HQ_INFLIGHT_COUNT : Fld := ⟨Rg.HQ_INFLIGHT, 17, 0⟩
def HQ_QPOOL_SQ_FREE : Fld := ⟨Rg.HQ_QPOOL, 30, 16⟩
def HQ_QPOOL_CQ_FREE : Fld := ⟨Rg.HQ_QPOOL, 14, 0⟩
def HQ_FUNC_SEL_FUNC : Fld := ⟨Rg.HQ_FUNC_SEL, 10, 0⟩
def HQ_FUNC_STAT_DWE : Fld := ⟨Rg.HQ_FUNC_STAT, 6, 6⟩
def HQ_FUNC_STAT_MAINT : Fld := ⟨Rg.HQ_FUNC_STAT, 5, 5⟩
def HQ_FUNC_STAT_SHN : Fld := ⟨Rg.HQ_FUNC_STAT, 4, 4⟩
def HQ_FUNC_STAT_FLR : Fld := ⟨Rg.HQ_FUNC_STAT, 3, 3⟩
def HQ_FUNC_STAT_RDY : Fld := ⟨Rg.HQ_FUNC_STAT, 2, 2⟩
def HQ_FUNC_STAT_EN : Fld := ⟨Rg.HQ_FUNC_STAT, 1, 1⟩
def HQ_FUNC_STAT_PRESENT : Fld := ⟨Rg.HQ_FUNC_STAT, 0, 0⟩
def HQ_FUNC_QUEUES_SQ_USED : Fld := ⟨Rg.HQ_FUNC_QUEUES, 28, 16⟩
def HQ_FUNC_QUEUES_CQ_USED : Fld := ⟨Rg.HQ_FUNC_QUEUES, 12, 0⟩
def HQ_FUNC_INFLIGHT_COUNT : Fld := ⟨Rg.HQ_FUNC_INFLIGHT, 17, 0⟩
def HQ_CIDC_COUNT : Fld := ⟨Rg.HQ_CIDC, 15, 0⟩
def HQ_ABORTS_MISSED : Fld := ⟨Rg.HQ_ABORTS, 31, 16⟩
def HQ_ABORTS_DONE : Fld := ⟨Rg.HQ_ABORTS, 15, 0⟩
def HQ_EVT_DWE : Fld := ⟨Rg.HQ_EVT, 5, 5⟩
def HQ_EVT_CQ_STALL : Fld := ⟨Rg.HQ_EVT, 4, 4⟩
def HQ_EVT_BAD_DB : Fld := ⟨Rg.HQ_EVT, 3, 3⟩
def HQ_EVT_CIDC : Fld := ⟨Rg.HQ_EVT, 2, 2⟩
def HQ_EVT_LINK1 : Fld := ⟨Rg.HQ_EVT, 1, 1⟩
def HQ_EVT_LINK0 : Fld := ⟨Rg.HQ_EVT, 0, 0⟩
def HQ_EVT_IE_IE : Fld := ⟨Rg.HQ_EVT_IE, 5, 0⟩
def ZONE_CTL_REFOLD_HOLD : Fld := ⟨Rg.ZONE_CTL, 1, 1⟩
def ZONE_CTL_BIND_HOLD : Fld := ⟨Rg.ZONE_CTL, 0, 0⟩
def ZONE_ACTIVE_LIMIT : Fld := ⟨Rg.ZONE_ACTIVE, 27, 16⟩
def ZONE_ACTIVE_COUNT : Fld := ⟨Rg.ZONE_ACTIVE, 11, 0⟩
def ZONE_ROWS_FREE : Fld := ⟨Rg.ZONE_ROWS, 18, 0⟩
def ZONE_ROWS_LOW_THRESH : Fld := ⟨Rg.ZONE_ROWS_LOW, 18, 0⟩
def ZONE_REFOLD_QUEUED : Fld := ⟨Rg.ZONE_REFOLD, 31, 16⟩
def ZONE_REFOLD_RUNNING : Fld := ⟨Rg.ZONE_REFOLD, 6, 0⟩
def ZONE_NS_SEL_NSID : Fld := ⟨Rg.ZONE_NS_SEL, 12, 0⟩
def ZONE_NS_INFO_PRESENT : Fld := ⟨Rg.ZONE_NS_INFO, 31, 31⟩
def ZONE_NS_INFO_ZONED : Fld := ⟨Rg.ZONE_NS_INFO, 30, 30⟩
def ZONE_NS_INFO_ZONES : Fld := ⟨Rg.ZONE_NS_INFO, 18, 0⟩
def ZONE_NS_ACT_LIMIT : Fld := ⟨Rg.ZONE_NS_ACT, 27, 16⟩
def ZONE_NS_ACT_COUNT : Fld := ⟨Rg.ZONE_NS_ACT, 11, 0⟩
def ZONE_Z_SEL_ZONE : Fld := ⟨Rg.ZONE_Z_SEL, 18, 0⟩
def ZONE_Z_INFO_STATE : Fld := ⟨Rg.ZONE_Z_INFO, 31, 28⟩
def ZONE_Z_INFO_HANDLE : Fld := ⟨Rg.ZONE_Z_INFO, 27, 24⟩
def ZONE_Z_INFO_RDST : Fld := ⟨Rg.ZONE_Z_INFO, 23, 23⟩
def ZONE_Z_INFO_RSRC : Fld := ⟨Rg.ZONE_Z_INFO, 22, 22⟩
def ZONE_Z_INFO_LOST : Fld := ⟨Rg.ZONE_Z_INFO, 21, 21⟩
def ZONE_Z_INFO_LAND : Fld := ⟨Rg.ZONE_Z_INFO, 20, 20⟩
def ZONE_Z_INFO_GROUP : Fld := ⟨Rg.ZONE_Z_INFO, 18, 12⟩
def ZONE_Z_INFO_ROW : Fld := ⟨Rg.ZONE_Z_INFO, 11, 0⟩
def ZONE_Z_WP_OFFSET : Fld := ⟨Rg.ZONE_Z_WP, 18, 0⟩
def ZONE_Z_CP_OFFSET : Fld := ⟨Rg.ZONE_Z_CP, 18, 0⟩
def ZONE_LAND_CNT_MISMATCH : Fld := ⟨Rg.ZONE_LAND_CNT, 31, 16⟩
def ZONE_LAND_CNT_HITS : Fld := ⟨Rg.ZONE_LAND_CNT, 15, 0⟩
def ZONE_EVT_REFOLD_DONE : Fld := ⟨Rg.ZONE_EVT, 5, 5⟩
def ZONE_EVT_LAND_MISMATCH : Fld := ⟨Rg.ZONE_EVT, 4, 4⟩
def ZONE_EVT_EXHAUSTED : Fld := ⟨Rg.ZONE_EVT, 3, 3⟩
def ZONE_EVT_ROWS_LOW : Fld := ⟨Rg.ZONE_EVT, 2, 2⟩
def ZONE_EVT_OFFLINE : Fld := ⟨Rg.ZONE_EVT, 1, 1⟩
def ZONE_EVT_READONLY : Fld := ⟨Rg.ZONE_EVT, 0, 0⟩
def ZONE_EVT_IE_IE : Fld := ⟨Rg.ZONE_EVT_IE, 5, 0⟩
def ZONE_Z_LOC_DEV : Fld := ⟨Rg.ZONE_Z_LOC, 10, 9⟩
def ZONE_Z_LOC_CGROUP : Fld := ⟨Rg.ZONE_Z_LOC, 8, 0⟩
def TEN_T_SEL_TENANT : Fld := ⟨Rg.TEN_T_SEL, 9, 0⟩
def TEN_T_CFG_PRESENT : Fld := ⟨Rg.TEN_T_CFG, 31, 31⟩
def TEN_T_CFG_EXCL_GROUPS : Fld := ⟨Rg.TEN_T_CFG, 30, 30⟩
def TEN_T_CFG_NAMESPACES : Fld := ⟨Rg.TEN_T_CFG, 12, 0⟩
def TEN_T_CELL_FLOOR_CELLS : Fld := ⟨Rg.TEN_T_CELL_FLOOR, 25, 0⟩
def TEN_T_CELL_CAP_CELLS : Fld := ⟨Rg.TEN_T_CELL_CAP, 25, 0⟩
def TEN_T_CELL_USED_CELLS : Fld := ⟨Rg.TEN_T_CELL_USED, 25, 0⟩
def TEN_T_STAGE_USED : Fld := ⟨Rg.TEN_T_STAGE, 26, 16⟩
def TEN_T_STAGE_RESERVE : Fld := ⟨Rg.TEN_T_STAGE, 8, 0⟩
def TEN_T_REFOLD_RUNNING : Fld := ⟨Rg.TEN_T_REFOLD, 22, 16⟩
def TEN_T_REFOLD_CAP : Fld := ⟨Rg.TEN_T_REFOLD, 14, 8⟩
def TEN_T_REFOLD_FLOOR : Fld := ⟨Rg.TEN_T_REFOLD, 6, 0⟩
def TEN_F_SEL_FUNC : Fld := ⟨Rg.TEN_F_SEL, 10, 0⟩
def TEN_F_CFG_TEARDOWN : Fld := ⟨Rg.TEN_F_CFG, 31, 31⟩
def TEN_F_CFG_TENANT : Fld := ⟨Rg.TEN_F_CFG, 9, 0⟩
def TEN_F_SLOT_FLOOR_SLOTS : Fld := ⟨Rg.TEN_F_SLOT_FLOOR, 17, 0⟩
def TEN_F_SLOT_CAP_SLOTS : Fld := ⟨Rg.TEN_F_SLOT_CAP, 17, 0⟩
def TEN_CLS_SEL_CLASS : Fld := ⟨Rg.TEN_CLS_SEL, 3, 0⟩
def TEN_CLS_CFG_EXCL : Fld := ⟨Rg.TEN_CLS_CFG, 31, 31⟩
def TEN_CLS_CFG_PACE : Fld := ⟨Rg.TEN_CLS_CFG, 30, 30⟩
def TEN_CLS_CFG_SOFT_RSV : Fld := ⟨Rg.TEN_CLS_CFG, 29, 29⟩
def TEN_CLS_CFG_OWNER : Fld := ⟨Rg.TEN_CLS_CFG, 9, 0⟩
def TEN_CLS_PACE_PACE : Fld := ⟨Rg.TEN_CLS_PACE, 19, 0⟩
def TEN_CLS_MISS_SUSP : Fld := ⟨Rg.TEN_CLS_MISS, 31, 16⟩
def TEN_CLS_MISS_OTHER : Fld := ⟨Rg.TEN_CLS_MISS, 15, 0⟩
def TEN_EVT_MOVE_IGN : Fld := ⟨Rg.TEN_EVT, 3, 3⟩
def TEN_EVT_CAP_WAIT : Fld := ⟨Rg.TEN_EVT, 2, 2⟩
def TEN_EVT_PACE_MISS : Fld := ⟨Rg.TEN_EVT, 1, 1⟩
def TEN_EVT_TEARDOWN_DONE : Fld := ⟨Rg.TEN_EVT, 0, 0⟩
def TEN_EVT_IE_IE : Fld := ⟨Rg.TEN_EVT_IE, 3, 0⟩
def CAM_CTL_HOLD : Fld := ⟨Rg.CAM_CTL, 1, 1⟩
def CAM_CTL_EN : Fld := ⟨Rg.CAM_CTL, 0, 0⟩
def CAM_STAT_W_USED : Fld := ⟨Rg.CAM_STAT, 31, 16⟩
def CAM_STAT_BAND : Fld := ⟨Rg.CAM_STAT, 15, 14⟩
def CAM_STAT_Z_USED : Fld := ⟨Rg.CAM_STAT, 13, 0⟩
def CAM_PART_SEG_OFF : Fld := ⟨Rg.CAM_PART, 31, 24⟩
def CAM_PART_ZONE_MAX : Fld := ⟨Rg.CAM_PART, 13, 0⟩
def CAM_RATE_B3 : Fld := ⟨Rg.CAM_RATE, 31, 24⟩
def CAM_RATE_B2 : Fld := ⟨Rg.CAM_RATE, 23, 16⟩
def CAM_RATE_B1 : Fld := ⟨Rg.CAM_RATE, 15, 8⟩
def CAM_RATE_B0 : Fld := ⟨Rg.CAM_RATE, 7, 0⟩
def CAM_TEMP_HYST : Fld := ⟨Rg.CAM_TEMP, 31, 24⟩
def CAM_TEMP_T3 : Fld := ⟨Rg.CAM_TEMP, 23, 16⟩
def CAM_TEMP_T2 : Fld := ⟨Rg.CAM_TEMP, 15, 8⟩
def CAM_TEMP_T1 : Fld := ⟨Rg.CAM_TEMP, 7, 0⟩
def CAM_IDX_INDEX : Fld := ⟨Rg.CAM_IDX, 14, 0⟩
def CAM_ENT_D0_DW : Fld := ⟨Rg.CAM_ENT_D0, 31, 0⟩
def CAM_ENT_D1_DW : Fld := ⟨Rg.CAM_ENT_D1, 31, 0⟩
def CAM_ENT_D2_DW : Fld := ⟨Rg.CAM_ENT_D2, 31, 0⟩
def CAM_ENT_D3_DW : Fld := ⟨Rg.CAM_ENT_D3, 31, 0⟩
def CAM_ENT_D4_DW : Fld := ⟨Rg.CAM_ENT_D4, 31, 0⟩
def CAM_ENT_D5_DW : Fld := ⟨Rg.CAM_ENT_D5, 31, 0⟩
def CAM_OP_GO : Fld := ⟨Rg.CAM_OP, 31, 31⟩
def CAM_OP_SEQLIM : Fld := ⟨Rg.CAM_OP, 3, 3⟩
def CAM_OP_OP : Fld := ⟨Rg.CAM_OP, 2, 0⟩
def CAM_RES_HIT : Fld := ⟨Rg.CAM_RES, 31, 31⟩
def CAM_RES_MULTI : Fld := ⟨Rg.CAM_RES, 30, 30⟩
def CAM_RES_POISON : Fld := ⟨Rg.CAM_RES, 29, 29⟩
def CAM_RES_PRI : Fld := ⟨Rg.CAM_RES, 28, 25⟩
def CAM_RES_STATUS : Fld := ⟨Rg.CAM_RES, 24, 23⟩
def CAM_RES_INDEX : Fld := ⟨Rg.CAM_RES, 14, 0⟩
def CAM_CNT_MULTI : Fld := ⟨Rg.CAM_CNT, 31, 16⟩
def CAM_CNT_DEFER : Fld := ⟨Rg.CAM_CNT, 15, 0⟩
def CAM_CNT_WAIT_ENTRY : Fld := ⟨Rg.CAM_CNT_WAIT, 31, 16⟩
def CAM_CNT_WAIT_OVERLAP : Fld := ⟨Rg.CAM_CNT_WAIT, 15, 0⟩
def CAM_EVT_CFG_IGN : Fld := ⟨Rg.CAM_EVT, 5, 5⟩
def CAM_EVT_BADENT : Fld := ⟨Rg.CAM_EVT, 4, 4⟩
def CAM_EVT_POISON : Fld := ⟨Rg.CAM_EVT, 3, 3⟩
def CAM_EVT_ZMULTI : Fld := ⟨Rg.CAM_EVT, 2, 2⟩
def CAM_EVT_DEFER : Fld := ⟨Rg.CAM_EVT, 1, 1⟩
def CAM_EVT_BAND : Fld := ⟨Rg.CAM_EVT, 0, 0⟩
def CAM_EVT_IE_IE : Fld := ⟨Rg.CAM_EVT_IE, 5, 0⟩
def CELL_CTL_HOLD : Fld := ⟨Rg.CELL_CTL, 1, 1⟩
def CELL_CTL_EN : Fld := ⟨Rg.CELL_CTL, 0, 0⟩
def CELL_STAT_READY : Fld := ⟨Rg.CELL_STAT, 31, 31⟩
def CELL_STAT_CFG_ERR : Fld := ⟨Rg.CELL_STAT, 30, 30⟩
def CELL_STAT_FREE : Fld := ⟨Rg.CELL_STAT, 25, 0⟩
def CELL_DRAM_N_N : Fld := ⟨Rg.CELL_DRAM_N, 25, 0⟩
def CELL_ONCHIP_EXCL : Fld := ⟨Rg.CELL_ONCHIP, 21, 16⟩
def CELL_ONCHIP_COUNT : Fld := ⟨Rg.CELL_ONCHIP, 15, 0⟩
def CELL_DEV_USED : Fld := ⟨Rg.CELL_DEV, 16, 0⟩
def CELL_BASE_LO_ADDR_LO : Fld := ⟨Rg.CELL_BASE_LO, 31, 12⟩
def CELL_BASE_HI_ADDR_HI : Fld := ⟨Rg.CELL_BASE_HI, 7, 0⟩
def CELL_LINK_BASE_LO_ADDR_LO : Fld := ⟨Rg.CELL_LINK_BASE_LO, 31, 12⟩
def CELL_LINK_BASE_HI_ADDR_HI : Fld := ⟨Rg.CELL_LINK_BASE_HI, 7, 0⟩
def CELL_META_BASE_LO_ADDR_LO : Fld := ⟨Rg.CELL_META_BASE_LO, 31, 12⟩
def CELL_META_BASE_HI_ADDR_HI : Fld := ⟨Rg.CELL_META_BASE_HI, 7, 0⟩
def CELL_RING_BASE_LO_ADDR_LO : Fld := ⟨Rg.CELL_RING_BASE_LO, 31, 12⟩
def CELL_RING_BASE_HI_ADDR_HI : Fld := ⟨Rg.CELL_RING_BASE_HI, 7, 0⟩
def CELL_ALLOC_REQ_DEV : Fld := ⟨Rg.CELL_ALLOC_REQ, 31, 31⟩
def CELL_ALLOC_REQ_TENANT : Fld := ⟨Rg.CELL_ALLOC_REQ, 30, 21⟩
def CELL_ALLOC_REQ_COUNT : Fld := ⟨Rg.CELL_ALLOC_REQ, 10, 0⟩
def CELL_ALLOC_RES_RESULT : Fld := ⟨Rg.CELL_ALLOC_RES, 31, 30⟩
def CELL_ALLOC_RES_HEAD : Fld := ⟨Rg.CELL_ALLOC_RES, 25, 0⟩
def CELL_FREE_HEAD : Fld := ⟨Rg.CELL_FREE, 25, 0⟩
def CELL_FREE_RES_RESULT : Fld := ⟨Rg.CELL_FREE_RES, 31, 30⟩
def CELL_FREE_RES_CELLS : Fld := ⟨Rg.CELL_FREE_RES, 25, 0⟩
def CELL_SPLICE_T_HANDLE : Fld := ⟨Rg.CELL_SPLICE_T, 25, 0⟩
def CELL_SPLICE_H_HANDLE : Fld := ⟨Rg.CELL_SPLICE_H, 25, 0⟩
def CELL_SPLICE_RES_RESULT : Fld := ⟨Rg.CELL_SPLICE_RES, 1, 0⟩
def CELL_LINK_SEL_HANDLE : Fld := ⟨Rg.CELL_LINK_SEL, 25, 0⟩
def CELL_LINK_LO_ENTRY : Fld := ⟨Rg.CELL_LINK_LO, 31, 0⟩
def CELL_LINK_HI_ENTRY : Fld := ⟨Rg.CELL_LINK_HI, 31, 0⟩
def CELL_DBL_HANDLE : Fld := ⟨Rg.CELL_DBL, 25, 0⟩
def CELL_CNT_DBL_FREE : Fld := ⟨Rg.CELL_CNT, 31, 16⟩
def CELL_CNT_SPLICE_REF : Fld := ⟨Rg.CELL_CNT, 15, 0⟩
def CELL_EVT_WAIT : Fld := ⟨Rg.CELL_EVT, 3, 3⟩
def CELL_EVT_SPLICE_REF : Fld := ⟨Rg.CELL_EVT, 2, 2⟩
def CELL_EVT_DBL_FREE : Fld := ⟨Rg.CELL_EVT, 1, 1⟩
def CELL_EVT_READY : Fld := ⟨Rg.CELL_EVT, 0, 0⟩
def CELL_EVT_IE_IE : Fld := ⟨Rg.CELL_EVT_IE, 3, 0⟩
def DMC_CTL_PATROL_EN : Fld := ⟨Rg.DMC_CTL, 2, 2⟩
def DMC_CTL_TRAIN : Fld := ⟨Rg.DMC_CTL, 1, 1⟩
def DMC_CTL_EN : Fld := ⟨Rg.DMC_CTL, 0, 0⟩
def DMC_STAT_RETIRED : Fld := ⟨Rg.DMC_STAT, 31, 24⟩
def DMC_STAT_PRESENT : Fld := ⟨Rg.DMC_STAT, 23, 16⟩
def DMC_STAT_INIT_DONE : Fld := ⟨Rg.DMC_STAT, 2, 2⟩
def DMC_STAT_TRAINED : Fld := ⟨Rg.DMC_STAT, 1, 1⟩
def DMC_STAT_READY : Fld := ⟨Rg.DMC_STAT, 0, 0⟩
def DMC_CAP_MIB : Fld := ⟨Rg.DMC_CAP, 16, 0⟩
def DMC_GEOM_DENSITY : Fld := ⟨Rg.DMC_GEOM, 31, 24⟩
def DMC_GEOM_RANKS : Fld := ⟨Rg.DMC_GEOM, 23, 22⟩
def DMC_GEOM_DROWS : Fld := ⟨Rg.DMC_GEOM, 21, 0⟩
def DMC_RETIRE_SUBCH : Fld := ⟨Rg.DMC_RETIRE, 7, 0⟩
def DMC_HASH_P0_MASK : Fld := ⟨Rg.DMC_HASH_P0, 29, 2⟩
def DMC_HASH_P1_MASK : Fld := ⟨Rg.DMC_HASH_P1, 29, 2⟩
def DMC_HASH_B0_MASK : Fld := ⟨Rg.DMC_HASH_B0, 27, 9⟩
def DMC_HASH_B1_MASK : Fld := ⟨Rg.DMC_HASH_B1, 27, 9⟩
def DMC_HASH_B2_MASK : Fld := ⟨Rg.DMC_HASH_B2, 27, 9⟩
def DMC_HASH_B3_MASK : Fld := ⟨Rg.DMC_HASH_B3, 27, 9⟩
def DMC_WM_AGE : Fld := ⟨Rg.DMC_WM, 31, 24⟩
def DMC_WM_HI : Fld := ⟨Rg.DMC_WM, 15, 8⟩
def DMC_WM_LO : Fld := ⟨Rg.DMC_WM, 7, 0⟩
def DMC_PORT_SEL_PORT : Fld := ⟨Rg.DMC_PORT_SEL, 2, 0⟩
def DMC_PORT_CFG_SPILL : Fld := ⟨Rg.DMC_PORT_CFG, 31, 31⟩
def DMC_PORT_CFG_CREDIT : Fld := ⟨Rg.DMC_PORT_CFG, 15, 0⟩
def DMC_PORT_USE_WAITS : Fld := ⟨Rg.DMC_PORT_USE, 31, 16⟩
def DMC_PORT_USE_LINES : Fld := ⟨Rg.DMC_PORT_USE, 15, 0⟩
def DMC_RH_CFG_THRESH : Fld := ⟨Rg.DMC_RH_CFG, 31, 16⟩
def DMC_RH_CFG_HOLD : Fld := ⟨Rg.DMC_RH_CFG, 15, 8⟩
def DMC_RH_CFG_ACT_LIM : Fld := ⟨Rg.DMC_RH_CFG, 7, 0⟩
def DMC_RH_CNT_THROTTLES : Fld := ⟨Rg.DMC_RH_CNT, 31, 16⟩
def DMC_RH_CNT_RFM : Fld := ⟨Rg.DMC_RH_CNT, 15, 0⟩
def DMC_PATROL_SHEETS : Fld := ⟨Rg.DMC_PATROL, 31, 0⟩
def DMC_PATROL_LAP_SHEETS : Fld := ⟨Rg.DMC_PATROL_LAP, 31, 0⟩
def DMC_ECC_SEL_SUBCH : Fld := ⟨Rg.DMC_ECC_SEL, 2, 0⟩
def DMC_ECC_CNT_UNCORR : Fld := ⟨Rg.DMC_ECC_CNT, 31, 16⟩
def DMC_ECC_CNT_CORR : Fld := ⟨Rg.DMC_ECC_CNT, 15, 0⟩
def DMC_EVT_CFG_IGN : Fld := ⟨Rg.DMC_EVT, 5, 5⟩
def DMC_EVT_RETIRED : Fld := ⟨Rg.DMC_EVT, 4, 4⟩
def DMC_EVT_UNCORR_BOTH : Fld := ⟨Rg.DMC_EVT, 3, 3⟩
def DMC_EVT_THROTTLE : Fld := ⟨Rg.DMC_EVT, 2, 2⟩
def DMC_EVT_PATROL_LATE : Fld := ⟨Rg.DMC_EVT, 1, 1⟩
def DMC_EVT_TRAIN_DONE : Fld := ⟨Rg.DMC_EVT, 0, 0⟩
def DMC_EVT_IE_IE : Fld := ⟨Rg.DMC_EVT_IE, 5, 0⟩
def CIPH_CTL_EPOCH_SET : Fld := ⟨Rg.CIPH_CTL, 1, 1⟩
def CIPH_CTL_EN : Fld := ⟨Rg.CIPH_CTL, 0, 0⟩
def CIPH_EPOCH_POS : Fld := ⟨Rg.CIPH_EPOCH, 31, 30⟩
def CIPH_EPOCH_EPOCH : Fld := ⟨Rg.CIPH_EPOCH, 29, 0⟩
def CIPH_NONCE_LO_COUNT : Fld := ⟨Rg.CIPH_NONCE_LO, 31, 0⟩
def CIPH_NONCE_HI_COUNT : Fld := ⟨Rg.CIPH_NONCE_HI, 31, 0⟩
def CIPH_LANE_OK_LO_OK : Fld := ⟨Rg.CIPH_LANE_OK_LO, 31, 0⟩
def CIPH_LANE_OK_HI_OK : Fld := ⟨Rg.CIPH_LANE_OK_HI, 15, 0⟩
def CIPH_WR_SHARE_N : Fld := ⟨Rg.CIPH_WR_SHARE, 3, 0⟩
def CIPH_SLOT_SEL_SLOT : Fld := ⟨Rg.CIPH_SLOT_SEL, 12, 0⟩
def CIPH_SLOT_STATE : Fld := ⟨Rg.CIPH_SLOT, 31, 30⟩
def CIPH_SLOT_MODE : Fld := ⟨Rg.CIPH_SLOT, 29, 28⟩
def CIPH_SLOT_AUTH_FLAG : Fld := ⟨Rg.CIPH_SLOT, 27, 27⟩
def CIPH_SLOT_GEN_KEYGEN : Fld := ⟨Rg.CIPH_SLOT_GEN, 31, 0⟩
def CIPH_KEY_CMD_GO : Fld := ⟨Rg.CIPH_KEY_CMD, 31, 31⟩
def CIPH_KEY_CMD_MODE : Fld := ⟨Rg.CIPH_KEY_CMD, 7, 6⟩
def CIPH_KEY_CMD_WRAP : Fld := ⟨Rg.CIPH_KEY_CMD, 5, 4⟩
def CIPH_KEY_CMD_OP : Fld := ⟨Rg.CIPH_KEY_CMD, 3, 0⟩
def CIPH_KEY_ADDR_LO_ADDR_LO : Fld := ⟨Rg.CIPH_KEY_ADDR_LO, 31, 7⟩
def CIPH_KEY_ADDR_HI_ADDR_HI : Fld := ⟨Rg.CIPH_KEY_ADDR_HI, 7, 0⟩
def CIPH_KEY_STAT_RESULT : Fld := ⟨Rg.CIPH_KEY_STAT, 3, 0⟩
def CIPH_JOB_D0_DW : Fld := ⟨Rg.CIPH_JOB_D0, 31, 0⟩
def CIPH_JOB_D1_DW : Fld := ⟨Rg.CIPH_JOB_D1, 31, 0⟩
def CIPH_JOB_D2_DW : Fld := ⟨Rg.CIPH_JOB_D2, 31, 0⟩
def CIPH_JOB_D3_DW : Fld := ⟨Rg.CIPH_JOB_D3, 31, 0⟩
def CIPH_JOB_D4_DW : Fld := ⟨Rg.CIPH_JOB_D4, 31, 0⟩
def CIPH_JOB_D5_DW : Fld := ⟨Rg.CIPH_JOB_D5, 31, 0⟩
def CIPH_JOB_D6_DW : Fld := ⟨Rg.CIPH_JOB_D6, 31, 0⟩
def CIPH_JOB_D7_DW : Fld := ⟨Rg.CIPH_JOB_D7, 31, 0⟩
def CIPH_JOB_STAT_RESULT : Fld := ⟨Rg.CIPH_JOB_STAT, 31, 30⟩
def CIPH_JCQ_BASE_LO_ADDR_LO : Fld := ⟨Rg.CIPH_JCQ_BASE_LO, 31, 4⟩
def CIPH_JCQ_BASE_HI_ADDR_HI : Fld := ⟨Rg.CIPH_JCQ_BASE_HI, 7, 0⟩
def CIPH_JCQ_CFG_LOG2 : Fld := ⟨Rg.CIPH_JCQ_CFG, 4, 0⟩
def CIPH_JCQ_HEAD_INDEX : Fld := ⟨Rg.CIPH_JCQ_HEAD, 15, 0⟩
def CIPH_JCQ_TAIL_INDEX : Fld := ⟨Rg.CIPH_JCQ_TAIL, 15, 0⟩
def CIPH_CNT_AUTH_FLAGGED : Fld := ⟨Rg.CIPH_CNT_AUTH, 31, 16⟩
def CIPH_CNT_AUTH_FAILED : Fld := ⟨Rg.CIPH_CNT_AUTH, 15, 0⟩
def CIPH_EVT_CFG_IGN : Fld := ⟨Rg.CIPH_EVT, 5, 5⟩
def CIPH_EVT_LANE_FAIL : Fld := ⟨Rg.CIPH_EVT, 4, 4⟩
def CIPH_EVT_KEY_DONE : Fld := ⟨Rg.CIPH_EVT, 3, 3⟩
def CIPH_EVT_JCQ_NE : Fld := ⟨Rg.CIPH_EVT, 2, 2⟩
def CIPH_EVT_DENIED : Fld := ⟨Rg.CIPH_EVT, 1, 1⟩
def CIPH_EVT_AUTH : Fld := ⟨Rg.CIPH_EVT, 0, 0⟩
def CIPH_EVT_IE_IE : Fld := ⟨Rg.CIPH_EVT_IE, 5, 0⟩
def LDPC_UNIT_EN_DEEP : Fld := ⟨Rg.LDPC_UNIT_EN, 25, 24⟩
def LDPC_UNIT_EN_SOFT : Fld := ⟨Rg.LDPC_UNIT_EN, 23, 16⟩
def LDPC_STAT_DEEP_OK : Fld := ⟨Rg.LDPC_STAT, 25, 24⟩
def LDPC_STAT_SOFT_OK : Fld := ⟨Rg.LDPC_STAT, 23, 16⟩
def LDPC_STAT_DEEP_Q : Fld := ⟨Rg.LDPC_STAT, 15, 8⟩
def LDPC_STAT_SOFT_Q : Fld := ⟨Rg.LDPC_STAT, 7, 0⟩
def LDPC_LEVELS_SLC_LAST : Fld := ⟨Rg.LDPC_LEVELS, 15, 8⟩
def LDPC_LEVELS_QLC_LAST : Fld := ⟨Rg.LDPC_LEVELS, 7, 0⟩
def LDPC_WEAK_LIMIT : Fld := ⟨Rg.LDPC_WEAK, 7, 0⟩
def LDPC_ESC_BASE_LO_ADDR_LO : Fld := ⟨Rg.LDPC_ESC_BASE_LO, 31, 5⟩
def LDPC_ESC_BASE_HI_ADDR_HI : Fld := ⟨Rg.LDPC_ESC_BASE_HI, 7, 0⟩
def LDPC_ESC_CFG_LOG2 : Fld := ⟨Rg.LDPC_ESC_CFG, 4, 0⟩
def LDPC_ESC_HEAD_INDEX : Fld := ⟨Rg.LDPC_ESC_HEAD, 15, 0⟩
def LDPC_ESC_TAIL_INDEX : Fld := ⟨Rg.LDPC_ESC_TAIL, 15, 0⟩
def LDPC_LB_SEL_BUCKET : Fld := ⟨Rg.LDPC_LB_SEL, 5, 0⟩
def LDPC_LB_CFG_THRESH : Fld := ⟨Rg.LDPC_LB_CFG, 31, 16⟩
def LDPC_LB_CFG_DRAIN : Fld := ⟨Rg.LDPC_LB_CFG, 15, 0⟩
def LDPC_LB_LEVEL_PEAK : Fld := ⟨Rg.LDPC_LB_LEVEL, 31, 16⟩
def LDPC_LB_LEVEL_LEVEL : Fld := ⟨Rg.LDPC_LB_LEVEL, 15, 0⟩
def LDPC_LB_OVER_LO_OVER : Fld := ⟨Rg.LDPC_LB_OVER_LO, 31, 0⟩
def LDPC_LB_OVER_HI_OVER : Fld := ⟨Rg.LDPC_LB_OVER_HI, 31, 0⟩
def LDPC_LB_IE_LO_IE : Fld := ⟨Rg.LDPC_LB_IE_LO, 31, 0⟩
def LDPC_LB_IE_HI_IE : Fld := ⟨Rg.LDPC_LB_IE_HI, 31, 0⟩
def LDPC_CNT_ESC_TO_DEEP : Fld := ⟨Rg.LDPC_CNT_ESC, 31, 16⟩
def LDPC_CNT_ESC_TO_SOFT : Fld := ⟨Rg.LDPC_CNT_ESC, 15, 0⟩
def LDPC_CNT_DEEP_FAIL : Fld := ⟨Rg.LDPC_CNT_DEEP, 31, 16⟩
def LDPC_CNT_DEEP_OK : Fld := ⟨Rg.LDPC_CNT_DEEP, 15, 0⟩
def LDPC_CNT_MISC_NOTE_LOST : Fld := ⟨Rg.LDPC_CNT_MISC, 31, 16⟩
def LDPC_CNT_MISC_SCRC : Fld := ⟨Rg.LDPC_CNT_MISC, 15, 0⟩
def LDPC_ST_SEL_RUN : Fld := ⟨Rg.LDPC_ST_SEL, 31, 31⟩
def LDPC_ST_SEL_INDEX : Fld := ⟨Rg.LDPC_ST_SEL, 7, 0⟩
def LDPC_ST_RES_DONE : Fld := ⟨Rg.LDPC_ST_RES, 31, 31⟩
def LDPC_ST_RES_PASS : Fld := ⟨Rg.LDPC_ST_RES, 30, 30⟩
def LDPC_ST_RES_STEP : Fld := ⟨Rg.LDPC_ST_RES, 29, 24⟩
def LDPC_EVT_ST_FAIL : Fld := ⟨Rg.LDPC_EVT, 4, 4⟩
def LDPC_EVT_NOTE_LOST : Fld := ⟨Rg.LDPC_EVT, 3, 3⟩
def LDPC_EVT_ESC_NE : Fld := ⟨Rg.LDPC_EVT, 2, 2⟩
def LDPC_EVT_DEEP_FAIL : Fld := ⟨Rg.LDPC_EVT, 1, 1⟩
def LDPC_EVT_SCRC : Fld := ⟨Rg.LDPC_EVT, 0, 0⟩
def LDPC_EVT_IE_IE : Fld := ⟨Rg.LDPC_EVT_IE, 4, 0⟩
def PAR_CTL_EN : Fld := ⟨Rg.PAR_CTL, 2, 0⟩
def PAR_MAP_BAND2 : Fld := ⟨Rg.PAR_MAP, 5, 4⟩
def PAR_MAP_BAND1 : Fld := ⟨Rg.PAR_MAP, 3, 2⟩
def PAR_MAP_BAND0 : Fld := ⟨Rg.PAR_MAP, 1, 0⟩
def PAR_STAT_ACC_USED : Fld := ⟨Rg.PAR_STAT, 27, 16⟩
def PAR_STAT_OK : Fld := ⟨Rg.PAR_STAT, 2, 0⟩
def PAR_ACC_BASE_LO_ADDR_LO : Fld := ⟨Rg.PAR_ACC_BASE_LO, 31, 20⟩
def PAR_ACC_BASE_HI_ADDR_HI : Fld := ⟨Rg.PAR_ACC_BASE_HI, 7, 0⟩
def PAR_JOB_D0_DW : Fld := ⟨Rg.PAR_JOB_D0, 31, 0⟩
def PAR_JOB_D1_DW : Fld := ⟨Rg.PAR_JOB_D1, 31, 0⟩
def PAR_JOB_D2_DW : Fld := ⟨Rg.PAR_JOB_D2, 31, 0⟩
def PAR_JOB_D3_DW : Fld := ⟨Rg.PAR_JOB_D3, 31, 0⟩
def PAR_JOB_D4_DW : Fld := ⟨Rg.PAR_JOB_D4, 31, 0⟩
def PAR_JOB_D5_DW : Fld := ⟨Rg.PAR_JOB_D5, 31, 0⟩
def PAR_JOB_D6_DW : Fld := ⟨Rg.PAR_JOB_D6, 31, 0⟩
def PAR_JOB_D7_DW : Fld := ⟨Rg.PAR_JOB_D7, 31, 0⟩
def PAR_JOB_STAT_RESULT : Fld := ⟨Rg.PAR_JOB_STAT, 31, 30⟩
def PAR_JOB_STAT_ENGINE : Fld := ⟨Rg.PAR_JOB_STAT, 9, 8⟩
def PAR_JOB_STAT_SLOT : Fld := ⟨Rg.PAR_JOB_STAT, 7, 0⟩
def PAR_JCQ_BASE_LO_ADDR_LO : Fld := ⟨Rg.PAR_JCQ_BASE_LO, 31, 4⟩
def PAR_JCQ_BASE_HI_ADDR_HI : Fld := ⟨Rg.PAR_JCQ_BASE_HI, 7, 0⟩
def PAR_JCQ_CFG_LOG2 : Fld := ⟨Rg.PAR_JCQ_CFG, 4, 0⟩
def PAR_JCQ_HEAD_INDEX : Fld := ⟨Rg.PAR_JCQ_HEAD, 15, 0⟩
def PAR_JCQ_TAIL_INDEX : Fld := ⟨Rg.PAR_JCQ_TAIL, 15, 0⟩
def PAR_CNT_FAIL : Fld := ⟨Rg.PAR_CNT, 31, 16⟩
def PAR_CNT_OK : Fld := ⟨Rg.PAR_CNT, 15, 0⟩
def PAR_EVT_CFG_IGN : Fld := ⟨Rg.PAR_EVT, 3, 3⟩
def PAR_EVT_ACC_ERR : Fld := ⟨Rg.PAR_EVT, 2, 2⟩
def PAR_EVT_RECON_FAIL : Fld := ⟨Rg.PAR_EVT, 1, 1⟩
def PAR_EVT_JCQ_NE : Fld := ⟨Rg.PAR_EVT, 0, 0⟩
def PAR_EVT_IE_IE : Fld := ⟨Rg.PAR_EVT_IE, 3, 0⟩
def STIP_CTL_PAGES_LOG2 : Fld := ⟨Rg.STIP_CTL, 11, 8⟩
def STIP_CTL_HOLD : Fld := ⟨Rg.STIP_CTL, 1, 1⟩
def STIP_CTL_EN : Fld := ⟨Rg.STIP_CTL, 0, 0⟩
def STIP_TARGET_SHEETS : Fld := ⟨Rg.STIP_TARGET, 31, 0⟩
def STIP_MAP_BASE_LO_ADDR_LO : Fld := ⟨Rg.STIP_MAP_BASE_LO, 31, 12⟩
def STIP_MAP_BASE_HI_ADDR_HI : Fld := ⟨Rg.STIP_MAP_BASE_HI, 7, 0⟩
def STIP_URG_POST_GROUP : Fld := ⟨Rg.STIP_URG_POST, 22, 16⟩
def STIP_URG_POST_ROW : Fld := ⟨Rg.STIP_URG_POST, 11, 0⟩
def STIP_URG_STAT_COUNT : Fld := ⟨Rg.STIP_URG_STAT, 12, 0⟩
def STIP_LAP_LAST_SHEETS : Fld := ⟨Rg.STIP_LAP_LAST, 31, 0⟩
def STIP_LAP_MAX_SHEETS : Fld := ⟨Rg.STIP_LAP_MAX, 31, 0⟩
def STIP_CH_SEL_CHANNEL : Fld := ⟨Rg.STIP_CH_SEL, 5, 0⟩
def STIP_CH_LAP_SHEETS : Fld := ⟨Rg.STIP_CH_LAP, 31, 0⟩
def STIP_CH_POS_BLOCK : Fld := ⟨Rg.STIP_CH_POS, 31, 20⟩
def STIP_CH_POS_TARGET : Fld := ⟨Rg.STIP_CH_POS, 19, 15⟩
def STIP_CH_POS_LAPS : Fld := ⟨Rg.STIP_CH_POS, 14, 0⟩
def STIP_CNT_PAGES_PAGES : Fld := ⟨Rg.STIP_CNT_PAGES, 31, 0⟩
def STIP_CNT_WEAK_STALE : Fld := ⟨Rg.STIP_CNT_WEAK, 31, 16⟩
def STIP_CNT_WEAK_WEAK : Fld := ⟨Rg.STIP_CNT_WEAK, 15, 0⟩
def STIP_EVT_URG_FULL : Fld := ⟨Rg.STIP_EVT, 3, 3⟩
def STIP_EVT_WEAK : Fld := ⟨Rg.STIP_EVT, 2, 2⟩
def STIP_EVT_LATE : Fld := ⟨Rg.STIP_EVT, 1, 1⟩
def STIP_EVT_LAP : Fld := ⟨Rg.STIP_EVT, 0, 0⟩
def STIP_EVT_IE_IE : Fld := ⟨Rg.STIP_EVT_IE, 3, 0⟩
def JNM_CTL_DIAG_WR : Fld := ⟨Rg.JNM_CTL, 4, 4⟩
def JNM_CTL_MCTP_WR : Fld := ⟨Rg.JNM_CTL, 3, 3⟩
def JNM_CTL_I3C_EN : Fld := ⟨Rg.JNM_CTL, 2, 2⟩
def JNM_CTL_SMB_EN : Fld := ⟨Rg.JNM_CTL, 1, 1⟩
def JNM_CTL_EN : Fld := ⟨Rg.JNM_CTL, 0, 0⟩
def JNM_STAT_BUF_USED : Fld := ⟨Rg.JNM_STAT, 31, 24⟩
def JNM_STAT_ORIGINS : Fld := ⟨Rg.JNM_STAT, 23, 16⟩
def JNM_STAT_BUSY : Fld := ⟨Rg.JNM_STAT, 0, 0⟩
def JNM_MCTP_EID : Fld := ⟨Rg.JNM_MCTP, 31, 24⟩
def JNM_MCTP_SMB_ADDR : Fld := ⟨Rg.JNM_MCTP, 22, 16⟩
def JNM_BUF_BASE_LO_ADDR_LO : Fld := ⟨Rg.JNM_BUF_BASE_LO, 31, 16⟩
def JNM_BUF_BASE_HI_ADDR_HI : Fld := ⟨Rg.JNM_BUF_BASE_HI, 7, 0⟩
def JNM_CACHE_BASE_LO_ADDR_LO : Fld := ⟨Rg.JNM_CACHE_BASE_LO, 31, 16⟩
def JNM_CACHE_BASE_HI_ADDR_HI : Fld := ⟨Rg.JNM_CACHE_BASE_HI, 7, 0⟩
def JNM_RXQ_QUEUE : Fld := ⟨Rg.JNM_RXQ, 8, 0⟩
def JNM_TX_BUF : Fld := ⟨Rg.JNM_TX, 28, 24⟩
def JNM_TX_LEN : Fld := ⟨Rg.JNM_TX, 16, 0⟩
def JNM_ORG_SEL_RECORD : Fld := ⟨Rg.JNM_ORG_SEL, 3, 0⟩
def JNM_ORG_VALID : Fld := ⟨Rg.JNM_ORG, 31, 31⟩
def JNM_ORG_CACHED : Fld := ⟨Rg.JNM_ORG, 30, 24⟩
def JNM_ORG_ORIGIN : Fld := ⟨Rg.JNM_ORG, 15, 0⟩
def JNM_ORG_SEQ_SEQ : Fld := ⟨Rg.JNM_ORG_SEQ, 31, 0⟩
def JNM_CNT_REPLAY : Fld := ⟨Rg.JNM_CNT, 31, 16⟩
def JNM_CNT_CONFLICT : Fld := ⟨Rg.JNM_CNT, 15, 0⟩
def JNM_CNT2_STALE : Fld := ⟨Rg.JNM_CNT2, 31, 16⟩
def JNM_CNT2_BADHDR : Fld := ⟨Rg.JNM_CNT2, 15, 8⟩
def JNM_CNT2_DROPPED : Fld := ⟨Rg.JNM_CNT2, 7, 0⟩
def JNM_EVT_CFG_IGN : Fld := ⟨Rg.JNM_EVT, 5, 5⟩
def JNM_EVT_DROP : Fld := ⟨Rg.JNM_EVT, 4, 4⟩
def JNM_EVT_EVICT : Fld := ⟨Rg.JNM_EVT, 3, 3⟩
def JNM_EVT_CONFLICT : Fld := ⟨Rg.JNM_EVT, 2, 2⟩
def JNM_EVT_REPLAY : Fld := ⟨Rg.JNM_EVT, 1, 1⟩
def JNM_EVT_RX : Fld := ⟨Rg.JNM_EVT, 0, 0⟩
def JNM_EVT_IE_IE : Fld := ⟨Rg.JNM_EVT_IE, 5, 0⟩
def DLK_CTL_RING : Fld := ⟨Rg.DLK_CTL, 1, 1⟩
def DLK_CTL_EN : Fld := ⟨Rg.DLK_CTL, 0, 0⟩
def DLK_ROLE_RING_UP : Fld := ⟨Rg.DLK_ROLE, 10, 10⟩
def DLK_ROLE_LAST : Fld := ⟨Rg.DLK_ROLE, 9, 8⟩
def DLK_ROLE_ADMIT : Fld := ⟨Rg.DLK_ROLE, 7, 4⟩
def DLK_ROLE_POS : Fld := ⟨Rg.DLK_ROLE, 1, 0⟩
def DLK_LINK_UP_UP : Fld := ⟨Rg.DLK_LINK, 15, 15⟩
def DLK_LINK_UP_WIDTH : Fld := ⟨Rg.DLK_LINK, 14, 12⟩
def DLK_LINK_DN_UP : Fld := ⟨Rg.DLK_LINK, 7, 7⟩
def DLK_LINK_DN_WIDTH : Fld := ⟨Rg.DLK_LINK, 6, 4⟩
def DLK_LINK_UP_PEER : Fld := ⟨Rg.DLK_LINK, 3, 2⟩
def DLK_LINK_DN_PEER : Fld := ⟨Rg.DLK_LINK, 1, 0⟩
def DLK_HOLD_MS : Fld := ⟨Rg.DLK_HOLD, 15, 0⟩
def DLK_CNT_RETRY_DN : Fld := ⟨Rg.DLK_CNT_RETRY, 31, 16⟩
def DLK_CNT_RETRY_UP : Fld := ⟨Rg.DLK_CNT_RETRY, 15, 0⟩
def DLK_CNT_DUP_E2E : Fld := ⟨Rg.DLK_CNT_DUP, 31, 16⟩
def DLK_CNT_DUP_FLIT : Fld := ⟨Rg.DLK_CNT_DUP, 15, 0⟩
def DLK_EVT_TOPO : Fld := ⟨Rg.DLK_EVT, 5, 5⟩
def DLK_EVT_UNREACH : Fld := ⟨Rg.DLK_EVT, 4, 4⟩
def DLK_EVT_REROUTE : Fld := ⟨Rg.DLK_EVT, 3, 3⟩
def DLK_EVT_LANE : Fld := ⟨Rg.DLK_EVT, 2, 2⟩
def DLK_EVT_LINK_DN : Fld := ⟨Rg.DLK_EVT, 1, 1⟩
def DLK_EVT_LINK_UP : Fld := ⟨Rg.DLK_EVT, 0, 0⟩
def DLK_EVT_IE_IE : Fld := ⟨Rg.DLK_EVT_IE, 5, 0⟩
def GRV_SEL_GRAVER : Fld := ⟨Rg.GRV_SEL, 5, 0⟩
def GRV_STATE_STATE : Fld := ⟨Rg.GRV_STATE, 31, 28⟩
def GRV_STATE_CAUSE : Fld := ⟨Rg.GRV_STATE, 27, 24⟩
def GRV_CTL_MLOCK : Fld := ⟨Rg.GRV_CTL, 3, 3⟩
def GRV_CTL_FAIL : Fld := ⟨Rg.GRV_CTL, 2, 2⟩
def GRV_CTL_HALT : Fld := ⟨Rg.GRV_CTL, 1, 1⟩
def GRV_CTL_RUN : Fld := ⟨Rg.GRV_CTL, 0, 0⟩
def GRV_START_LO_ADDR : Fld := ⟨Rg.GRV_START_LO, 31, 0⟩
def GRV_START_HI_ADDR : Fld := ⟨Rg.GRV_START_HI, 7, 0⟩
def GRV_WD_LIMIT : Fld := ⟨Rg.GRV_WD, 15, 0⟩
def GRV_PET_PET : Fld := ⟨Rg.GRV_PET, 31, 0⟩
def GRV_SPARE_LO_MASK : Fld := ⟨Rg.GRV_SPARE_LO, 31, 0⟩
def GRV_SPARE_HI_MASK : Fld := ⟨Rg.GRV_SPARE_HI, 31, 0⟩
def GRV_STEWARD_GRAVER : Fld := ⟨Rg.GRV_STEWARD, 5, 0⟩
def GRV_MIGRATE_TO : Fld := ⟨Rg.GRV_MIGRATE, 13, 8⟩
def GRV_MIGRATE_FROM : Fld := ⟨Rg.GRV_MIGRATE, 5, 0⟩
def GRV_BOOT_STATUS : Fld := ⟨Rg.GRV_BOOT, 31, 28⟩
def GRV_BOOT_SLOT : Fld := ⟨Rg.GRV_BOOT, 27, 26⟩
def GRV_BOOT_SVN : Fld := ⟨Rg.GRV_BOOT, 25, 20⟩
def GRV_BOOT_REVOKED : Fld := ⟨Rg.GRV_BOOT, 19, 16⟩
def GRV_BOOT_GRAVER : Fld := ⟨Rg.GRV_BOOT, 5, 0⟩
def GRV_QSEL_QUEUE : Fld := ⟨Rg.GRV_QSEL, 8, 0⟩
def GRV_QOWN_OWNER : Fld := ⟨Rg.GRV_QOWN, 21, 16⟩
def GRV_QOWN_COUNT : Fld := ⟨Rg.GRV_QOWN, 6, 0⟩
def GRV_UQMASK_LO_MASK : Fld := ⟨Rg.GRV_UQMASK_LO, 31, 0⟩
def GRV_UQMASK_HI_MASK : Fld := ⟨Rg.GRV_UQMASK_HI, 31, 0⟩
def GRV_IRQ_SEL_SOURCE : Fld := ⟨Rg.GRV_IRQ_SEL, 7, 0⟩
def GRV_IRQ_ROUTE_GRAVER : Fld := ⟨Rg.GRV_IRQ_ROUTE, 5, 0⟩
def GRV_MEAS_SEL_DWORD : Fld := ⟨Rg.GRV_MEAS_SEL, 11, 8⟩
def GRV_MEAS_SEL_INDEX : Fld := ⟨Rg.GRV_MEAS_SEL, 3, 0⟩
def GRV_MEAS_VALUE : Fld := ⟨Rg.GRV_MEAS, 31, 0⟩
def GRV_MEAS_EXT0_HASH : Fld := ⟨Rg.GRV_MEAS_EXT0, 31, 0⟩
def GRV_MEAS_EXT1_HASH : Fld := ⟨Rg.GRV_MEAS_EXT1, 31, 0⟩
def GRV_MEAS_EXT2_HASH : Fld := ⟨Rg.GRV_MEAS_EXT2, 31, 0⟩
def GRV_MEAS_EXT3_HASH : Fld := ⟨Rg.GRV_MEAS_EXT3, 31, 0⟩
def GRV_MEAS_EXT4_HASH : Fld := ⟨Rg.GRV_MEAS_EXT4, 31, 0⟩
def GRV_MEAS_EXT5_HASH : Fld := ⟨Rg.GRV_MEAS_EXT5, 31, 0⟩
def GRV_MEAS_EXT6_HASH : Fld := ⟨Rg.GRV_MEAS_EXT6, 31, 0⟩
def GRV_MEAS_EXT7_HASH : Fld := ⟨Rg.GRV_MEAS_EXT7, 31, 0⟩
def GRV_MEAS_EXT8_HASH : Fld := ⟨Rg.GRV_MEAS_EXT8, 31, 0⟩
def GRV_MEAS_EXT9_HASH : Fld := ⟨Rg.GRV_MEAS_EXT9, 31, 0⟩
def GRV_MEAS_EXT10_HASH : Fld := ⟨Rg.GRV_MEAS_EXT10, 31, 0⟩
def GRV_MEAS_EXT11_HASH : Fld := ⟨Rg.GRV_MEAS_EXT11, 31, 0⟩
def GRV_EVT_MEAS_REF : Fld := ⟨Rg.GRV_EVT, 3, 3⟩
def GRV_EVT_MIG_REF : Fld := ⟨Rg.GRV_EVT, 2, 2⟩
def GRV_EVT_ETCH_STOP : Fld := ⟨Rg.GRV_EVT, 1, 1⟩
def GRV_EVT_FAIL : Fld := ⟨Rg.GRV_EVT, 0, 0⟩
def GRV_EVT_IE_IE : Fld := ⟨Rg.GRV_EVT_IE, 3, 0⟩
def SEQ_CTL_HOLD : Fld := ⟨Rg.SEQ_CTL, 2, 2⟩
def SEQ_CTL_RETIRE : Fld := ⟨Rg.SEQ_CTL, 1, 1⟩
def SEQ_CTL_EN : Fld := ⟨Rg.SEQ_CTL, 0, 0⟩
def SEQ_STAT_QUEUED : Fld := ⟨Rg.SEQ_STAT, 26, 16⟩
def SEQ_STAT_CQ_HELD : Fld := ⟨Rg.SEQ_STAT, 2, 2⟩
def SEQ_STAT_RETIRED : Fld := ⟨Rg.SEQ_STAT, 1, 1⟩
def SEQ_STAT_RUNNING : Fld := ⟨Rg.SEQ_STAT, 0, 0⟩
def SEQ_POST_D0_DW : Fld := ⟨Rg.SEQ_POST_D0, 31, 0⟩
def SEQ_POST_D1_DW : Fld := ⟨Rg.SEQ_POST_D1, 31, 0⟩
def SEQ_POST_D2_DW : Fld := ⟨Rg.SEQ_POST_D2, 31, 0⟩
def SEQ_POST_D3_DW : Fld := ⟨Rg.SEQ_POST_D3, 31, 0⟩
def SEQ_POST_D4_DW : Fld := ⟨Rg.SEQ_POST_D4, 31, 0⟩
def SEQ_POST_D5_DW : Fld := ⟨Rg.SEQ_POST_D5, 31, 0⟩
def SEQ_POST_D6_DW : Fld := ⟨Rg.SEQ_POST_D6, 31, 0⟩
def SEQ_POST_D7_DW : Fld := ⟨Rg.SEQ_POST_D7, 31, 0⟩
def SEQ_POST_STAT_RESULT : Fld := ⟨Rg.SEQ_POST_STAT, 1, 0⟩
def SEQ_CQ_BASE_LO_ADDR_LO : Fld := ⟨Rg.SEQ_CQ_BASE_LO, 31, 4⟩
def SEQ_CQ_BASE_HI_ADDR_HI : Fld := ⟨Rg.SEQ_CQ_BASE_HI, 7, 0⟩
def SEQ_CQ_CFG_LOG2 : Fld := ⟨Rg.SEQ_CQ_CFG, 4, 0⟩
def SEQ_CQ_HEAD_INDEX : Fld := ⟨Rg.SEQ_CQ_HEAD, 15, 0⟩
def SEQ_CQ_TAIL_INDEX : Fld := ⟨Rg.SEQ_CQ_TAIL, 15, 0⟩
def SEQ_SUSP_CFG_ERASE_LIMIT : Fld := ⟨Rg.SEQ_SUSP_CFG, 29, 24⟩
def SEQ_SUSP_CFG_PROG_LIMIT : Fld := ⟨Rg.SEQ_SUSP_CFG, 21, 16⟩
def SEQ_SUSP_CFG_READS : Fld := ⟨Rg.SEQ_SUSP_CFG, 11, 8⟩
def SEQ_PROOF_CFG_MARGIN : Fld := ⟨Rg.SEQ_PROOF_CFG, 31, 24⟩
def SEQ_PROOF_CFG_LIMIT : Fld := ⟨Rg.SEQ_PROOF_CFG, 23, 16⟩
def SEQ_PROOF_CFG_PAGES : Fld := ⟨Rg.SEQ_PROOF_CFG, 15, 0⟩
def SEQ_T_READ_TIMEOUT : Fld := ⟨Rg.SEQ_T_READ, 31, 16⟩
def SEQ_T_READ_FLOOR : Fld := ⟨Rg.SEQ_T_READ, 15, 0⟩
def SEQ_T_PROG_TIMEOUT : Fld := ⟨Rg.SEQ_T_PROG, 31, 16⟩
def SEQ_T_PROG_FLOOR : Fld := ⟨Rg.SEQ_T_PROG, 15, 0⟩
def SEQ_T_ERASE_TIMEOUT : Fld := ⟨Rg.SEQ_T_ERASE, 31, 16⟩
def SEQ_T_ERASE_FLOOR : Fld := ⟨Rg.SEQ_T_ERASE, 15, 0⟩
def SEQ_T_SUSP_TIMEOUT : Fld := ⟨Rg.SEQ_T_SUSP, 31, 16⟩
def SEQ_T_SUSP_FLOOR : Fld := ⟨Rg.SEQ_T_SUSP, 15, 0⟩
def SEQ_DIE_SEL_TARGET : Fld := ⟨Rg.SEQ_DIE_SEL, 4, 0⟩
def SEQ_DIE_STAT_STATE : Fld := ⟨Rg.SEQ_DIE_STAT, 31, 28⟩
def SEQ_DIE_STAT_SUSPENDS : Fld := ⟨Rg.SEQ_DIE_STAT, 27, 22⟩
def SEQ_DIE_STAT_QUEUED : Fld := ⟨Rg.SEQ_DIE_STAT, 21, 16⟩
def SEQ_DIE_STAT_RD : Fld := ⟨Rg.SEQ_DIE_STAT, 15, 15⟩
def SEQ_DIE_STAT_BLOCK : Fld := ⟨Rg.SEQ_DIE_STAT, 11, 0⟩
def SEQ_DIE_CTL_RETIRE : Fld := ⟨Rg.SEQ_DIE_CTL, 1, 1⟩
def SEQ_DIE_CTL_PRESENT : Fld := ⟨Rg.SEQ_DIE_CTL, 0, 0⟩
def SEQ_BST_SEL_TARGET : Fld := ⟨Rg.SEQ_BST_SEL, 28, 24⟩
def SEQ_BST_SEL_BLOCK : Fld := ⟨Rg.SEQ_BST_SEL, 11, 0⟩
def SEQ_BST_DATA_STATE : Fld := ⟨Rg.SEQ_BST_DATA, 1, 0⟩
def SEQ_CNT_SUSP_EXH : Fld := ⟨Rg.SEQ_CNT_SUSP, 31, 16⟩
def SEQ_CNT_SUSP_SUSP : Fld := ⟨Rg.SEQ_CNT_SUSP, 15, 0⟩
def SEQ_CNT_DUP_WDRAW : Fld := ⟨Rg.SEQ_CNT_DUP, 31, 16⟩
def SEQ_CNT_DUP_DUP : Fld := ⟨Rg.SEQ_CNT_DUP, 15, 0⟩
def SEQ_EVT_CFG_IGN : Fld := ⟨Rg.SEQ_EVT, 6, 6⟩
def SEQ_EVT_CQ_HELD : Fld := ⟨Rg.SEQ_EVT, 5, 5⟩
def SEQ_EVT_TIMEOUT : Fld := ⟨Rg.SEQ_EVT, 4, 4⟩
def SEQ_EVT_FAIL : Fld := ⟨Rg.SEQ_EVT, 3, 3⟩
def SEQ_EVT_BAD_DESC : Fld := ⟨Rg.SEQ_EVT, 2, 2⟩
def SEQ_EVT_DUP : Fld := ⟨Rg.SEQ_EVT, 1, 1⟩
def SEQ_EVT_CQ_NE : Fld := ⟨Rg.SEQ_EVT, 0, 0⟩
def SEQ_EVT_IE_IE : Fld := ⟨Rg.SEQ_EVT_IE, 6, 0⟩
def CARB_WAIT_LIMIT_LIMIT : Fld := ⟨Rg.CARB_WAIT_LIMIT, 7, 0⟩
def CARB_CLS_PRI_LPRI15 : Fld := ⟨Rg.CARB_CLS_PRI, 31, 30⟩
def CARB_CLS_PRI_LPRI14_0 : Fld := ⟨Rg.CARB_CLS_PRI, 29, 0⟩
def CARB_STAT_BUSY : Fld := ⟨Rg.CARB_STAT, 31, 31⟩
def CARB_STAT_KIND : Fld := ⟨Rg.CARB_STAT, 30, 28⟩
def CARB_STAT_CLASS : Fld := ⟨Rg.CARB_STAT, 27, 24⟩
def CARB_STAT_TARGET : Fld := ⟨Rg.CARB_STAT, 23, 19⟩
def CARB_STAT_LEFT : Fld := ⟨Rg.CARB_STAT, 18, 16⟩
def CARB_STAT_PENDING : Fld := ⟨Rg.CARB_STAT, 6, 0⟩
def CARB_PQ_SEL_INDEX : Fld := ⟨Rg.CARB_PQ_SEL, 5, 0⟩
def CARB_PQ_ENTRY_VALID : Fld := ⟨Rg.CARB_PQ_ENTRY, 31, 31⟩
def CARB_PQ_ENTRY_FORCED : Fld := ⟨Rg.CARB_PQ_ENTRY, 30, 30⟩
def CARB_PQ_ENTRY_KIND : Fld := ⟨Rg.CARB_PQ_ENTRY, 29, 27⟩
def CARB_PQ_ENTRY_CLASS : Fld := ⟨Rg.CARB_PQ_ENTRY, 26, 23⟩
def CARB_PQ_ENTRY_TARGET : Fld := ⟨Rg.CARB_PQ_ENTRY, 22, 18⟩
def CARB_PQ_ENTRY_LEN : Fld := ⟨Rg.CARB_PQ_ENTRY, 17, 15⟩
def CARB_PQ_ENTRY_PROGRESS : Fld := ⟨Rg.CARB_PQ_ENTRY, 14, 13⟩
def CARB_PQ_ENTRY_WAIT : Fld := ⟨Rg.CARB_PQ_ENTRY, 7, 0⟩
def CARB_CNT_GRANT_LENT : Fld := ⟨Rg.CARB_CNT_GRANT, 31, 16⟩
def CARB_CNT_GRANT_PREEMPT : Fld := ⟨Rg.CARB_CNT_GRANT, 15, 0⟩
def CARB_CNT_FORCE_MAXWAIT : Fld := ⟨Rg.CARB_CNT_FORCE, 31, 24⟩
def CARB_CNT_FORCE_FORCED : Fld := ⟨Rg.CARB_CNT_FORCE, 15, 0⟩
def CARB_EVT_FORCE : Fld := ⟨Rg.CARB_EVT, 1, 1⟩
def CARB_EVT_PREEMPT : Fld := ⟨Rg.CARB_EVT, 0, 0⟩
def CARB_EVT_IE_IE : Fld := ⟨Rg.CARB_EVT_IE, 1, 0⟩
def HATCH_CTL_MARK_IE : Fld := ⟨Rg.HATCH_CTL, 6, 6⟩
def HATCH_CTL_SW_IE : Fld := ⟨Rg.HATCH_CTL, 5, 5⟩
def HATCH_CTL_BANK : Fld := ⟨Rg.HATCH_CTL, 4, 4⟩
def HATCH_CTL_ANYSHEET : Fld := ⟨Rg.HATCH_CTL, 3, 3⟩
def HATCH_CTL_STOP : Fld := ⟨Rg.HATCH_CTL, 2, 2⟩
def HATCH_CTL_DISARM : Fld := ⟨Rg.HATCH_CTL, 1, 1⟩
def HATCH_CTL_ARM : Fld := ⟨Rg.HATCH_CTL, 0, 0⟩
def HATCH_STAT_ECC_NULL : Fld := ⟨Rg.HATCH_STAT, 9, 9⟩
def HATCH_STAT_MARKED : Fld := ⟨Rg.HATCH_STAT, 8, 8⟩
def HATCH_STAT_WR_IGN : Fld := ⟨Rg.HATCH_STAT, 7, 7⟩
def HATCH_STAT_RSVBIT : Fld := ⟨Rg.HATCH_STAT, 6, 6⟩
def HATCH_STAT_NOCAL : Fld := ⟨Rg.HATCH_STAT, 5, 5⟩
def HATCH_STAT_LATE : Fld := ⟨Rg.HATCH_STAT, 4, 4⟩
def HATCH_STAT_SWITCHED : Fld := ⟨Rg.HATCH_STAT, 3, 3⟩
def HATCH_STAT_ACTIVE : Fld := ⟨Rg.HATCH_STAT, 2, 2⟩
def HATCH_STAT_ARMED : Fld := ⟨Rg.HATCH_STAT, 1, 1⟩
def HATCH_STAT_LIVE : Fld := ⟨Rg.HATCH_STAT, 0, 0⟩
def HATCH_ARM_SHEET_SHEET : Fld := ⟨Rg.HATCH_ARM_SHEET, 31, 0⟩
def HATCH_SEAL_A_SEAL : Fld := ⟨Rg.HATCH_SEAL_A, 15, 0⟩
def HATCH_SEAL_B_SEAL : Fld := ⟨Rg.HATCH_SEAL_B, 15, 0⟩
def HATCH_USE_LENT : Fld := ⟨Rg.HATCH_USE, 24, 16⟩
def HATCH_USE_IDLE : Fld := ⟨Rg.HATCH_USE, 8, 0⟩
def HATCH_SWITCH_SHEET_SHEET : Fld := ⟨Rg.HATCH_SWITCH_SHEET, 31, 0⟩
def PHY_RATE_CUR : Fld := ⟨Rg.PHY_RATE, 18, 16⟩
def PHY_RATE_RETRAIN : Fld := ⟨Rg.PHY_RATE, 8, 8⟩
def PHY_RATE_RATE : Fld := ⟨Rg.PHY_RATE, 2, 0⟩
def PHY_CAL_CTL_EYE_MIN : Fld := ⟨Rg.PHY_CAL_CTL, 31, 24⟩
def PHY_CAL_CTL_DRIFT_MAX : Fld := ⟨Rg.PHY_CAL_CTL, 23, 16⟩
def PHY_CAL_CTL_ZQ_EN : Fld := ⟨Rg.PHY_CAL_CTL, 2, 2⟩
def PHY_CAL_CTL_WR_EN : Fld := ⟨Rg.PHY_CAL_CTL, 1, 1⟩
def PHY_CAL_CTL_EN : Fld := ⟨Rg.PHY_CAL_CTL, 0, 0⟩
def PHY_CAL_STAT_SKIPS : Fld := ⟨Rg.PHY_CAL_STAT, 31, 16⟩
def PHY_CAL_STAT_NEXT : Fld := ⟨Rg.PHY_CAL_STAT, 5, 0⟩
def PHY_EYE_SEL_TARGET : Fld := ⟨Rg.PHY_EYE_SEL, 4, 0⟩
def PHY_EYE_RD_WIDTH : Fld := ⟨Rg.PHY_EYE, 31, 24⟩
def PHY_EYE_RD_CENTER : Fld := ⟨Rg.PHY_EYE, 23, 16⟩
def PHY_EYE_WR_WIDTH : Fld := ⟨Rg.PHY_EYE, 15, 8⟩
def PHY_EYE_WR_CENTER : Fld := ⟨Rg.PHY_EYE, 7, 0⟩
def PHY_EVT_RATE_DONE : Fld := ⟨Rg.PHY_EVT, 3, 3⟩
def PHY_EVT_SKIP : Fld := ⟨Rg.PHY_EVT, 2, 2⟩
def PHY_EVT_DRIFT : Fld := ⟨Rg.PHY_EVT, 1, 1⟩
def PHY_EVT_EYE_LOW : Fld := ⟨Rg.PHY_EVT, 0, 0⟩
def PHY_EVT_IE_IE : Fld := ⟨Rg.PHY_EVT_IE, 3, 0⟩

end Fd

/-- Registers of the SYS window. -/
def regsSys : List RegDef :=
  [Rg.SYS_IDENT, Rg.SYS_REVISION, Rg.SYS_RST_CTL, Rg.SYS_RST_CAUSE,
   Rg.SYS_FAULT, Rg.SYS_EVT, Rg.SYS_EVT_IE, Rg.SYS_FLUSH_SEQ,
   Rg.SYS_FLUSH_TIME]
/-- Registers of the STRK window. -/
def regsStrk : List RegDef :=
  [Rg.STRK_CTL, Rg.STRK_STAT, Rg.STRK_COUNT_LO, Rg.STRK_COUNT_HI,
   Rg.STRK_PHASE, Rg.STRK_CMP_LO, Rg.STRK_CMP_HI, Rg.STRK_LOAD_LO,
   Rg.STRK_LOAD_HI, Rg.STRK_SLIPS]
/-- Registers of the PWR window. -/
def regsPwr : List RegDef :=
  [Rg.PWR_CTL, Rg.PWR_STAT, Rg.PWR_OP_CTL, Rg.PWR_OP_V0,
   Rg.PWR_OP_V1, Rg.PWR_OP_V2, Rg.PWR_OP_V3, Rg.PWR_PMB_CFG,
   Rg.PWR_VSETTLE, Rg.PWR_IDLE, Rg.PWR_ENTRY_CNT, Rg.PWR_REFUSER,
   Rg.PWR_THERM, Rg.PWR_THERM_CFG, Rg.PWR_EVT, Rg.PWR_EVT_IE]
/-- Registers of the AON window. -/
def regsAon : List RegDef :=
  [Rg.AON_STAT, Rg.AON_TICK_LO, Rg.AON_TICK_HI, Rg.AON_SAVE_SHEET_LO,
   Rg.AON_SAVE_SHEET_HI, Rg.AON_SAVE_TICK_LO, Rg.AON_SAVE_TICK_HI, Rg.AON_WAKE_EN,
   Rg.AON_WAKE_SRC, Rg.AON_ALARM_LO, Rg.AON_ALARM_HI, Rg.AON_KB_BAD,
   Rg.AON_KB_SEL, Rg.AON_KB_SIG_LO, Rg.AON_KB_SIG_HI, Rg.AON_EVT_IE]
/-- Registers of the HQ window. -/
def regsHq : List RegDef :=
  [Rg.HQ_CTL, Rg.HQ_PORT_CFG, Rg.HQ_LINK_STAT, Rg.HQ_FETCH_BUDGET,
   Rg.HQ_INFLIGHT, Rg.HQ_QPOOL, Rg.HQ_FUNC_SEL, Rg.HQ_FUNC_STAT,
   Rg.HQ_FUNC_QUEUES, Rg.HQ_FUNC_INFLIGHT, Rg.HQ_CIDC, Rg.HQ_ABORTS,
   Rg.HQ_EVT, Rg.HQ_EVT_IE]
/-- Registers of the ZONE window. -/
def regsZone : List RegDef :=
  [Rg.ZONE_CTL, Rg.ZONE_ACTIVE, Rg.ZONE_ROWS, Rg.ZONE_ROWS_LOW,
   Rg.ZONE_REFOLD, Rg.ZONE_NS_SEL, Rg.ZONE_NS_INFO, Rg.ZONE_NS_ACT,
   Rg.ZONE_Z_SEL, Rg.ZONE_Z_INFO, Rg.ZONE_Z_WP, Rg.ZONE_Z_CP,
   Rg.ZONE_LAND_CNT, Rg.ZONE_EVT, Rg.ZONE_EVT_IE, Rg.ZONE_Z_LOC]
/-- Registers of the TEN window. -/
def regsTen : List RegDef :=
  [Rg.TEN_T_SEL, Rg.TEN_T_CFG, Rg.TEN_T_CELL_FLOOR, Rg.TEN_T_CELL_CAP,
   Rg.TEN_T_CELL_USED, Rg.TEN_T_STAGE, Rg.TEN_T_REFOLD, Rg.TEN_F_SEL,
   Rg.TEN_F_CFG, Rg.TEN_F_SLOT_FLOOR, Rg.TEN_F_SLOT_CAP, Rg.TEN_CLS_SEL,
   Rg.TEN_CLS_CFG, Rg.TEN_CLS_PACE, Rg.TEN_CLS_MISS, Rg.TEN_EVT,
   Rg.TEN_EVT_IE]
/-- Registers of the CAM window. -/
def regsCam : List RegDef :=
  [Rg.CAM_CTL, Rg.CAM_STAT, Rg.CAM_PART, Rg.CAM_RATE,
   Rg.CAM_TEMP, Rg.CAM_IDX, Rg.CAM_ENT_D0, Rg.CAM_ENT_D1,
   Rg.CAM_ENT_D2, Rg.CAM_ENT_D3, Rg.CAM_ENT_D4, Rg.CAM_ENT_D5,
   Rg.CAM_OP, Rg.CAM_RES, Rg.CAM_CNT, Rg.CAM_CNT_WAIT,
   Rg.CAM_EVT, Rg.CAM_EVT_IE]
/-- Registers of the CELL window. -/
def regsCell0 : List RegDef :=
  [Rg.CELL_CTL, Rg.CELL_STAT, Rg.CELL_DRAM_N, Rg.CELL_ONCHIP,
   Rg.CELL_DEV, Rg.CELL_BASE_LO, Rg.CELL_BASE_HI, Rg.CELL_LINK_BASE_LO,
   Rg.CELL_LINK_BASE_HI, Rg.CELL_META_BASE_LO, Rg.CELL_META_BASE_HI, Rg.CELL_RING_BASE_LO,
   Rg.CELL_RING_BASE_HI, Rg.CELL_ALLOC_REQ, Rg.CELL_ALLOC_RES, Rg.CELL_FREE,
   Rg.CELL_FREE_RES, Rg.CELL_SPLICE_T, Rg.CELL_SPLICE_H, Rg.CELL_SPLICE_RES,
   Rg.CELL_LINK_SEL, Rg.CELL_LINK_LO, Rg.CELL_LINK_HI, Rg.CELL_DBL]
/-- Registers of the CELL window. -/
def regsCell1 : List RegDef :=
  [Rg.CELL_CNT, Rg.CELL_EVT, Rg.CELL_EVT_IE]
/-- Registers of the DMC window. -/
def regsDmc : List RegDef :=
  [Rg.DMC_CTL, Rg.DMC_STAT, Rg.DMC_CAP, Rg.DMC_GEOM,
   Rg.DMC_RETIRE, Rg.DMC_HASH_P0, Rg.DMC_HASH_P1, Rg.DMC_HASH_B0,
   Rg.DMC_HASH_B1, Rg.DMC_HASH_B2, Rg.DMC_HASH_B3, Rg.DMC_WM,
   Rg.DMC_PORT_SEL, Rg.DMC_PORT_CFG, Rg.DMC_PORT_USE, Rg.DMC_RH_CFG,
   Rg.DMC_RH_CNT, Rg.DMC_PATROL, Rg.DMC_PATROL_LAP, Rg.DMC_ECC_SEL,
   Rg.DMC_ECC_CNT, Rg.DMC_EVT, Rg.DMC_EVT_IE]
/-- Registers of the CIPH window. -/
def regsCiph0 : List RegDef :=
  [Rg.CIPH_CTL, Rg.CIPH_EPOCH, Rg.CIPH_NONCE_LO, Rg.CIPH_NONCE_HI,
   Rg.CIPH_LANE_OK_LO, Rg.CIPH_LANE_OK_HI, Rg.CIPH_WR_SHARE, Rg.CIPH_SLOT_SEL,
   Rg.CIPH_SLOT, Rg.CIPH_SLOT_GEN, Rg.CIPH_KEY_CMD, Rg.CIPH_KEY_ADDR_LO,
   Rg.CIPH_KEY_ADDR_HI, Rg.CIPH_KEY_STAT, Rg.CIPH_JOB_D0, Rg.CIPH_JOB_D1,
   Rg.CIPH_JOB_D2, Rg.CIPH_JOB_D3, Rg.CIPH_JOB_D4, Rg.CIPH_JOB_D5,
   Rg.CIPH_JOB_D6, Rg.CIPH_JOB_D7, Rg.CIPH_JOB_STAT, Rg.CIPH_JCQ_BASE_LO]
/-- Registers of the CIPH window. -/
def regsCiph1 : List RegDef :=
  [Rg.CIPH_JCQ_BASE_HI, Rg.CIPH_JCQ_CFG, Rg.CIPH_JCQ_HEAD, Rg.CIPH_JCQ_TAIL,
   Rg.CIPH_CNT_AUTH, Rg.CIPH_EVT, Rg.CIPH_EVT_IE]
/-- Registers of the LDPC window. -/
def regsLdpc : List RegDef :=
  [Rg.LDPC_UNIT_EN, Rg.LDPC_STAT, Rg.LDPC_LEVELS, Rg.LDPC_WEAK,
   Rg.LDPC_ESC_BASE_LO, Rg.LDPC_ESC_BASE_HI, Rg.LDPC_ESC_CFG, Rg.LDPC_ESC_HEAD,
   Rg.LDPC_ESC_TAIL, Rg.LDPC_LB_SEL, Rg.LDPC_LB_CFG, Rg.LDPC_LB_LEVEL,
   Rg.LDPC_LB_OVER_LO, Rg.LDPC_LB_OVER_HI, Rg.LDPC_LB_IE_LO, Rg.LDPC_LB_IE_HI,
   Rg.LDPC_CNT_ESC, Rg.LDPC_CNT_DEEP, Rg.LDPC_CNT_MISC, Rg.LDPC_ST_SEL,
   Rg.LDPC_ST_RES, Rg.LDPC_EVT, Rg.LDPC_EVT_IE]
/-- Registers of the PAR window. -/
def regsPar : List RegDef :=
  [Rg.PAR_CTL, Rg.PAR_MAP, Rg.PAR_STAT, Rg.PAR_ACC_BASE_LO,
   Rg.PAR_ACC_BASE_HI, Rg.PAR_JOB_D0, Rg.PAR_JOB_D1, Rg.PAR_JOB_D2,
   Rg.PAR_JOB_D3, Rg.PAR_JOB_D4, Rg.PAR_JOB_D5, Rg.PAR_JOB_D6,
   Rg.PAR_JOB_D7, Rg.PAR_JOB_STAT, Rg.PAR_JCQ_BASE_LO, Rg.PAR_JCQ_BASE_HI,
   Rg.PAR_JCQ_CFG, Rg.PAR_JCQ_HEAD, Rg.PAR_JCQ_TAIL, Rg.PAR_CNT,
   Rg.PAR_EVT, Rg.PAR_EVT_IE]
/-- Registers of the STIP window. -/
def regsStip : List RegDef :=
  [Rg.STIP_CTL, Rg.STIP_TARGET, Rg.STIP_MAP_BASE_LO, Rg.STIP_MAP_BASE_HI,
   Rg.STIP_URG_POST, Rg.STIP_URG_STAT, Rg.STIP_LAP_LAST, Rg.STIP_LAP_MAX,
   Rg.STIP_CH_SEL, Rg.STIP_CH_LAP, Rg.STIP_CH_POS, Rg.STIP_CNT_PAGES,
   Rg.STIP_CNT_WEAK, Rg.STIP_EVT, Rg.STIP_EVT_IE]
/-- Registers of the JNM window. -/
def regsJnm : List RegDef :=
  [Rg.JNM_CTL, Rg.JNM_STAT, Rg.JNM_MCTP, Rg.JNM_BUF_BASE_LO,
   Rg.JNM_BUF_BASE_HI, Rg.JNM_CACHE_BASE_LO, Rg.JNM_CACHE_BASE_HI, Rg.JNM_RXQ,
   Rg.JNM_TX, Rg.JNM_ORG_SEL, Rg.JNM_ORG, Rg.JNM_ORG_SEQ,
   Rg.JNM_CNT, Rg.JNM_CNT2, Rg.JNM_EVT, Rg.JNM_EVT_IE]
/-- Registers of the DLK window. -/
def regsDlk : List RegDef :=
  [Rg.DLK_CTL, Rg.DLK_ROLE, Rg.DLK_LINK, Rg.DLK_HOLD,
   Rg.DLK_CNT_RETRY, Rg.DLK_CNT_DUP, Rg.DLK_EVT, Rg.DLK_EVT_IE]
/-- Registers of the GRV window. -/
def regsGrv0 : List RegDef :=
  [Rg.GRV_SEL, Rg.GRV_STATE, Rg.GRV_CTL, Rg.GRV_START_LO,
   Rg.GRV_START_HI, Rg.GRV_WD, Rg.GRV_PET, Rg.GRV_SPARE_LO,
   Rg.GRV_SPARE_HI, Rg.GRV_STEWARD, Rg.GRV_MIGRATE, Rg.GRV_BOOT,
   Rg.GRV_QSEL, Rg.GRV_QOWN, Rg.GRV_UQMASK_LO, Rg.GRV_UQMASK_HI,
   Rg.GRV_IRQ_SEL, Rg.GRV_IRQ_ROUTE, Rg.GRV_MEAS_SEL, Rg.GRV_MEAS,
   Rg.GRV_MEAS_EXT0, Rg.GRV_MEAS_EXT1, Rg.GRV_MEAS_EXT2, Rg.GRV_MEAS_EXT3]
/-- Registers of the GRV window. -/
def regsGrv1 : List RegDef :=
  [Rg.GRV_MEAS_EXT4, Rg.GRV_MEAS_EXT5, Rg.GRV_MEAS_EXT6, Rg.GRV_MEAS_EXT7,
   Rg.GRV_MEAS_EXT8, Rg.GRV_MEAS_EXT9, Rg.GRV_MEAS_EXT10, Rg.GRV_MEAS_EXT11,
   Rg.GRV_EVT, Rg.GRV_EVT_IE]
/-- Registers of the CHAN window. -/
def regsChan0 : List RegDef :=
  [Rg.SEQ_CTL, Rg.SEQ_STAT, Rg.SEQ_POST_D0, Rg.SEQ_POST_D1,
   Rg.SEQ_POST_D2, Rg.SEQ_POST_D3, Rg.SEQ_POST_D4, Rg.SEQ_POST_D5,
   Rg.SEQ_POST_D6, Rg.SEQ_POST_D7, Rg.SEQ_POST_STAT, Rg.SEQ_CQ_BASE_LO,
   Rg.SEQ_CQ_BASE_HI, Rg.SEQ_CQ_CFG, Rg.SEQ_CQ_HEAD, Rg.SEQ_CQ_TAIL,
   Rg.SEQ_SUSP_CFG, Rg.SEQ_PROOF_CFG, Rg.SEQ_T_READ, Rg.SEQ_T_PROG,
   Rg.SEQ_T_ERASE, Rg.SEQ_T_SUSP, Rg.SEQ_DIE_SEL, Rg.SEQ_DIE_STAT]
/-- Registers of the CHAN window. -/
def regsChan1 : List RegDef :=
  [Rg.SEQ_DIE_CTL, Rg.SEQ_BST_SEL, Rg.SEQ_BST_DATA, Rg.SEQ_CNT_SUSP,
   Rg.SEQ_CNT_DUP, Rg.SEQ_EVT, Rg.SEQ_EVT_IE, Rg.CARB_WAIT_LIMIT,
   Rg.CARB_CLS_PRI, Rg.CARB_STAT, Rg.CARB_PQ_SEL, Rg.CARB_PQ_ENTRY,
   Rg.CARB_CNT_GRANT, Rg.CARB_CNT_FORCE, Rg.CARB_EVT, Rg.CARB_EVT_IE,
   Rg.HATCH_CTL, Rg.HATCH_STAT, Rg.HATCH_ARM_SHEET, Rg.HATCH_SEAL_A,
   Rg.HATCH_SEAL_B, Rg.HATCH_USE, Rg.HATCH_SWITCH_SHEET, Rg.PHY_RATE]
/-- Registers of the CHAN window. -/
def regsChan2 : List RegDef :=
  [Rg.PHY_CAL_CTL, Rg.PHY_CAL_STAT, Rg.PHY_EYE_SEL, Rg.PHY_EYE,
   Rg.PHY_EVT, Rg.PHY_EVT_IE]

/-- The registers of a window, by the number of its 64 KiB (Table 1-7): 0x02_0000_0000 is number 0. -/
def windowRegs (win : Nat) : List RegDef :=
  if win = 0x0 then regsSys
  else if win = 0x1 then regsStrk
  else if win = 0x2 then regsPwr
  else if win = 0x3 then regsAon
  else if win = 0x10 then regsHq
  else if win = 0x11 then regsZone
  else if win = 0x12 then regsTen
  else if win = 0x13 then regsCam
  else if win = 0x14 then regsCell0 ++ regsCell1
  else if win = 0x15 then regsDmc
  else if win = 0x16 then regsCiph0 ++ regsCiph1
  else if win = 0x17 then regsLdpc
  else if win = 0x18 then regsPar
  else if win = 0x19 then regsStip
  else if win = 0x1A then regsJnm
  else if win = 0x1B then regsDlk
  else if win = 0x1C then regsGrv0 ++ regsGrv1
  else if 0x100 ≤ win ∧ win ≤ 0x12F then regsChan0 ++ regsChan1 ++ regsChan2
  else []

end Sys2Proof.Machine
end

