-- ==== Sys2Proof/Machine/TypesFlash.lean ====
section
/-! DEFINITION. The state of the channel engines, the dies and the flash medium (chapters 1, 2, 6 and 7). -/

namespace Sys2Proof.Machine

/-- The states of a die (Table 6-1), in the order of their codes 0x0 to 0xA. -/
inductive DieState where
  | idle | read | out | load | prog | erase | progSusp | eraseSusp | reset | retired | absent
  deriving DecidableEq, Repr

/-- The kinds of bus request (Table 7-1), in the order of their codes 0 to 6. -/
inductive ReqKind where
  | readOut | readStart | poll | resume | start | load | reset
  deriving DecidableEq, Repr

/-- A bus request in a channel's pending queue (R203, R204, R210, R213): its path (program or read), die, class,
codewords still to transfer, progress of a preempted load, the cycle it was raised and its place among those raised while the clock stands (R37), its wait count, whether it is
forced, whether it is class-15 work done for no single namespace (R48), whether it is a stipple array read, and the tag
of the descriptor it serves. -/
structure Req where
  kind : ReqKind
  prog : Bool
  target : Nat
  cls : Nat
  len : Nat
  progress : Nat
  age : Nat
  seq : Nat
  wait : Nat
  forced : Bool
  dev : Bool
  stipple : Bool
  tag : Word
  deriving DecidableEq, Repr

/-- What holds the bus (R205, Table 7-6): the granted request, the index of the burst's first codeword slot, its length,
the cycle at which its span ends, whether it transfers (a command sequence does not, and a READ_OUT whose poll found the
die busy holds its span idle), and whether the stroke is owned by the request's class. -/
structure Holder where
  req : Req
  first : Nat
  len : Nat
  endC : Nat
  moving : Bool
  owned : Bool
  deriving DecidableEq, Repr

/-- A descriptor held by a die (R171): the posted words, whether its tag was posted again (R193), whether it is device
work of no namespace (R41), whether it is one of the sequencer's own AUTOPROOF reads (R183), the status a faulty
descriptor completes with when the completion buffer has room (R173, R175), and whether the read was detached (R159). -/
structure QDesc where
  desc : Desc
  dup : Bool := false
  dev : Bool := false
  auto : Bool := false
  bad : Option Nat := none
  detached : Bool := false
  deriving DecidableEq, Repr

/-- A completion entry of Table 6-6: dwords 0 to 3. -/
structure CqEntry where
  dw0 : Word
  dw1 : Word
  dw2 : Word
  dw3 : Word
  deriving DecidableEq, Repr

/-- A read that a die runs (R179): its descriptor, the cycle and the stroke of its start sequence, the cycle from which
it may be polled, the cycle of its time-out, whether it was started in a suspension, whether the floor has passed, the
strokes to the poll that found the die ready, and the last status byte read. -/
structure RdOp where
  q : QDesc
  startT : Nat
  floorT : Nat
  limitT : Nat
  inSusp : Bool
  polling : Bool
  busy : Nat
  status : Nat
  deriving DecidableEq, Repr

/-- A read whose codewords have left the bus and whose decodes still hold the die (R46, R179): its tag and the codewords
not yet released; for a proof read also what its completion still needs. -/
structure Held where
  q : QDesc
  left : Nat
  busy : Nat
  status : Nat
  proofCw : Nat
  proofMax : Nat
  deriving DecidableEq, Repr

/-- Where a program or erase stands (R181, R182, R185 to R187). -/
inductive PePhase where
  | waiting   -- a cancelled load, to be loaded again from its first page
  | loading   -- pages are being loaded
  | starting  -- loaded (or an erase at the head of the queue), its start sequence not yet issued
  | running
  | suspended
  deriving DecidableEq, Repr

/-- A program or erase that a die holds: its descriptor, pages loaded, codewords of the page loaded by a preempted load,
the cycle of its start sequence, the cycle of its last start or resume, its running time before that, the cycle from
which it may be polled, the cycle of its time-out, its suspensions, the reads started in the current suspension, the
last status byte; of its loads, the codewords that have gone to the bus, and the column and the codeword of the page that the last load
set-up chose (R181, R211). -/
structure PeOp where
  q : QDesc
  phase : PePhase
  pages : Nat
  startT : Nat
  sinceT : Nat
  ranT : Nat
  floorT : Nat
  limitT : Nat
  polling : Bool
  susps : Nat
  susReads : Nat
  status : Nat
  data : List Sector
  column : Nat
  encCw : Nat
  deriving DecidableEq, Repr

/-- A passed program or erase whose AUTOPROOF reads are still to finish (R183): its completion so far and the proof
reads left. -/
structure ProofJob where
  q : QDesc
  susps : Nat
  busy : Nat
  status : Nat
  left : Nat
  proofCw : Nat
  proofMax : Nat
  deriving DecidableEq, Repr

/-- One die and its sequencer (R165, R171, R192, R195); `awaitReset`: the class of the operation that timed out, and whether it was class-15
device work. -/
structure Die where
  st : DieState
  queue : List QDesc
  rd : Option RdOp
  held : List Held
  op : Option PeOp
  proofs : List ProofJob
  resetEnd : Option Nat
  resetQ : Option QDesc
  awaitReset : Option (Nat × Bool)
  done : List CqEntry
  blocks : SMap Nat
  rdWidth : Nat
  rdCenter : Nat
  rdNext : Option Nat
  rdLow : Nat
  wrWidth : Nat
  wrCenter : Nat
  wrNext : Option Nat
  wrLow : Nat
  deriving DecidableEq, Repr

/-- A die at reset: absent (Table 6-22), every block GOOD (Table 6-24), eyes 0 (Table 6-29). -/
def Die.reset : Die :=
  { st := .absent, queue := [], rd := none, held := [], op := none, proofs := [], resetEnd := none, resetQ := none,
    awaitReset := none, done := [], blocks := [], rdWidth := 0, rdCenter := 0, rdNext := none, rdLow := 0, wrWidth := 0,
    wrCenter := 0, wrNext := none, wrLow := 0 }

/-- The boundary an arm request waits for (R54): the first sheet boundary at least one stroke after the write (`skip`: the
next one comes too soon), or the boundary into the sheet with these low 32 bits. -/
inductive ArmTarget where
  | any (skip : Bool)
  | sheet (low : Nat)
  deriving DecidableEq, Repr

/-- An arm request (R54, R55): its bank (true: B), its boundary, whether its check still runs, the cycle of the write,
and whether the write came too late. -/
structure ArmReq where
  bank : Bool
  target : ArmTarget
  checking : Bool
  writtenT : Nat
  late : Bool
  deriving DecidableEq, Repr

/-- The bus rates of Table 6-27, in the order of their codes 0 to 4. -/
inductive Rate where
  | sdr | r800 | r1600 | r2400 | r3600
  deriving DecidableEq, Repr

/-- The training of a PHY (R201). -/
inductive Training where
  | none | requested | running | ended
  deriving DecidableEq, Repr

/-- One channel engine: hatch (R30, R42 to R58), dies, arbiter (R203 to R216; `nextSlot` is the first command slot of the
stroke whose start is still to come; `arrivals`: requests raised since the clock stands), completion buffer (R175), PHY (R198 to R201; `fall`: a bus-rate fall is under way, R448). Entries and seal masks are held as written, reserved bits too (R54 checks them). -/
structure Chan where
  hatchA : SMap DWord
  hatchB : SMap DWord
  eccBad : List Nat
  sealA : Word
  sealB : Word
  arm : Option ArmReq
  stop : Option Bool
  active : Bool
  live : Bool
  suspended : Bool
  entry : DWord
  nullStroke : Bool
  calStroke : Bool
  calDone : Bool
  idleStroke : Bool
  lentNow : Bool
  usedNow : Bool
  lentSheet : Nat
  idleSheet : Nat
  retired : Bool
  dies : SMap Die
  pq : List Req
  arrivals : Nat
  holder : Option Holder
  nextSlot : Nat
  pri : Word
  limit : Nat
  cq : List CqEntry
  dupWait : List CqEntry
  staging : SMap (List Word)
  rate : Rate
  trained : Bool
  training : Training
  trainRate : Rate
  calNext : Nat
  fall : Bool
  tmoRun : Nat
  deriving DecidableEq, Repr

/-- The entry every stroke is treated as having while a channel runs unscheduled (R53). -/
def unscheduledEntry : DWord := 0xFC000000FFFFFFFF

/-- A channel at reset: banks zero (Table 2-3), unscheduled (Table 2-19), dies absent, PHY in SDR mode 0 (R201). -/
def Chan.reset : Chan :=
  { hatchA := [], hatchB := [], eccBad := [], sealA := 0, sealB := 0, arm := none, stop := none, active := false,
    live := false, suspended := false, entry := unscheduledEntry, nullStroke := false, calStroke := false,
    calDone := false, idleStroke := false, lentNow := false, usedNow := false, lentSheet := 0, idleSheet := 0,
    retired := false, dies := [], pq := [], arrivals := 0, holder := none, nextSlot := 0, pri := 0x95555555, limit := 32, cq := [], dupWait := [],
    staging := [], rate := .sdr, trained := false, training := .none, trainRate := .sdr, calNext := 0, fall := false, tmoRun := 0 }

end Sys2Proof.Machine
end

