-- ==== Sys2Proof/Machine/TypesData.lean ====
section
/-! DEFINITION. The state of the data path inside the device: decoders, parity, stipple, cipher, DRAM, cells (chapters 9,
10 and 11). -/

namespace Sys2Proof.Machine

/-- Where a codeword stands between the bus and its destination (Table 9-3). -/
inductive EccStage where
  | hard                   -- in the channel's hard decoder
  | reread (i : Nat)       -- soft re-read `i` posted
  | softWait (i : Nat)     -- its last read delivered, awaiting a soft decoder
  | softRun (i dec : Nat)  -- in soft decoder `dec`
  | waitRecord             -- third soft decode failed, no escalation record taken yet
  deriving DecidableEq, Repr

/-- A codeword that left the bus and is not yet delivered (R252 to R255). `readTag` is the tag of the read that holds the
die, `rrTag` the tag of the re-read posted last, `first` the first codeword of that read's
mask, `dev` whether the read is device work of no namespace (R41), `sector` what the medium holds there (none: never programmed),
`order` its place in the order of arrival at the tier where it waits (R254, R255). -/
structure EccItem where
  ch : Nat
  target : Nat
  block : Nat
  plane : Nat
  page : Nat
  cw : Nat
  slc : Bool
  first : Nat
  readTag : Word
  rrTag : Word
  ctx : Word
  cls : Nat
  level : Nat
  wdraw : Bool
  dev : Bool
  owned : Bool
  proof : Bool
  stage : EccStage
  sector : Option Sector
  detached : Bool
  order : Nat := 0
  deriving DecidableEq, Repr

/-- How one of the two paths of an escalation record stands (R255, R256). -/
inductive EscPath where
  | none | queued | running | failed | passed
  deriving DecidableEq, Repr

/-- An escalation record (R255, R256). -/
structure Escalation where
  item : EccItem
  reads : Nat
  deep : EscPath
  parity : EscPath
  delivered : Bool
  deriving DecidableEq, Repr

/-- A notice of Table 9-4: its kind and its eight dwords. -/
structure Notice where
  kind : Nat
  words : List Word
  deriving DecidableEq, Repr

/-- A leaky bucket (R276): its level and whether it is armed. -/
structure Bucket where
  level : Nat
  armed : Bool
  deriving DecidableEq, Repr

/-- The result of a checker (R282): tested, passed, first failing step. -/
structure CheckRes where
  done : Bool
  pass : Bool
  step : Nat
  deriving DecidableEq, Repr

/-- The LDPC block; `routed`: a descriptor has been posted since reset, so the notice ring is fixed (Table 9-15); `softUsed`: the soft
decoders that have taken their codeword of this stroke (Table 2-2); `arrivals` counts arrivals at the soft and deep tiers (R254, R255); `idleAt`: the
cycle at which each decoder, parity engine and lane last ended its work (R283, R307). -/
structure Ecc where
  items : List EccItem
  escs : SMap Escalation
  notices : List Notice
  buckets : SMap Bucket
  checks : SMap CheckRes
  nextTag : Nat
  routed : Bool
  softUsed : List Nat
  arrivals : Nat
  idleAt : SMap Nat
  deriving DecidableEq, Repr

/-- A parity accumulator (R263): its bitmap, the P and Q sectors built so far, and whether a word of it is
uncorrectable (R275). -/
structure Acc where
  bitmap : Nat
  p : SMap Sector
  q : SMap Sector
  bad : Bool
  deriving DecidableEq, Repr

/-- A parity job in a slot (R269): its words, the contributions absorbed, the accumulator sectors and bitmap copied at
its start (R266), and its status once it has one. -/
structure ParJob where
  words : Desc
  got : List (Nat × Nat × Sector)
  copyP : SMap Sector
  copyQ : SMap Sector
  copyMap : Nat
  status : Option Nat
  failPos : Nat
  deriving DecidableEq, Repr

/-- A contribution on its way from a decoder to a parity engine (Table 9-5): band, job slot, position, unit codeword,
the sector or nothing where every tier failed. -/
structure Contribution where
  band : Nat
  slot : Nat
  pos : Nat
  cw : Nat
  sector : Option Sector
  deriving DecidableEq, Repr

/-- The parity block. -/
structure Par where
  accs : SMap Acc
  jobs : SMap ParJob
  contribs : List Contribution
  used : SMap Nat
  cq : List (List Word)
  staging : SMap (List Word)
  ok : Nat
  deriving DecidableEq, Repr

/-- A stipple read that was posted and has not been answered: tag, target, block, GEN of the map at the post (R279), and whether it
met an ERASED codeword (R251). -/
structure StipPost where
  tag : Word
  target : Nat
  block : Nat
  gen : Nat
  erased : Bool := false
  deriving DecidableEq, Repr

/-- The stipple pass of one channel (R278 to R281): the block, target and page index visited next, the pass number, the sheet
it began, its log2 of pages per block (0: no pass has begun), the last pass in sheets, whether this pass is marked late, the
reads posted and not completed, the page index next of an urgent row's member, and the target, block and wordline at which a read met the end
of programmed data (R251). -/
structure StipChan where
  block : Nat
  target : Nat
  k : Nat
  lap : Nat
  start : Nat
  log2 : Nat
  lastLap : Nat
  late : Bool
  posted : List StipPost
  urgK : Nat
  dataEnd : Option (Nat × Nat × Nat) := none
  deriving DecidableEq, Repr

def StipChan.reset : StipChan :=
  { block := 0, target := 0, k := 0, lap := 0, start := 0, log2 := 0, lastLap := 0, late := false, posted := [], urgK := 0 }

/-- An urgent row (R281): its die group and row, and the members still to read. -/
structure UrgRow where
  group : Nat
  row : Nat
  left : List Nat
  deriving DecidableEq, Repr

/-- The stipple block. -/
structure Stip where
  chans : SMap StipChan
  urgent : List UrgRow
  nextTag : Nat
  deriving DecidableEq, Repr

/-- What a cipher lane works on: a read sector on its way to the host (command slot, index of the sector in the command),
a write sector on its way into cells (command slot, index), or a management job. -/
inductive LaneWork where
  | read (slot idx : Nat) (sector : Sector)
  | write (slot idx : Nat) (data : Payload)
  | job (words : Desc) (g : Nat)
  deriving DecidableEq, Repr

/-- A sector or job waiting for a lane (R289): its work, its channel, whether its burst was granted in a stroke its class
owns, and the cycle it began to wait. -/
structure LaneItem where
  work : LaneWork
  ch : Nat
  owned : Bool
  since : Nat
  order : Nat
  deriving DecidableEq, Repr

/-- The command slot a sector belongs to. -/
def LaneItem.slotNo (i : LaneItem) : Option Nat :=
  match i.work with
  | .read k _ _ => some k
  | .write k _ _ => some k
  | .job _ _ => none

/-- A cipher lane (R288, R289): the work in progress with the key slot it runs under and the key, mode and generation it latched
(R301), the status of a job that cannot run, and the tier-3 sectors served in a run. -/
structure Lane where
  busy : Option LaneItem
  slot : Nat
  key : BitVec 512
  mode : Nat
  gen : Nat
  status : Nat
  run : Nat
  deriving DecidableEq, Repr

def Lane.reset : Lane := { busy := none, slot := 0, key := 0, mode := 0, gen := 0, status := 0, run := 0 }

/-- The states of a key slot (R298). -/
inductive SlotState where
  | empty | loaded | purging
  deriving DecidableEq, Repr

/-- A key slot (R298): its state, mode (0 none, 1 XTS, 2 GCM), generation and key. -/
structure KeySlot where
  state : SlotState
  mode : Nat
  gen : Nat
  key : BitVec 512
  deriving DecidableEq, Repr

/-- The cipher block. -/
structure Ciph where
  lanes : SMap Lane
  laneOk : Nat
  readQ : List LaneItem
  writeQ : List LaneItem
  jobQ : List LaneItem
  nonce : Nat
  nonceHi : Nat
  epochSet : Bool
  slots : SMap KeySlot
  staging : SMap (List Word)
  jcq : List (List Word)
  seq : Nat
  deriving DecidableEq, Repr

/-- A DRAM request at its port (R324, R325): byte address, read or write, whole line or part, the stroke it came. -/
structure DramReq where
  port : Nat
  addr : Nat
  write : Bool
  whole : Bool
  since : Nat
  deriving DecidableEq, Repr

/-- A regulator port (R324): credit left in the stroke, credit charged in this stroke, charged in the last one, whether it
spills in this stroke, and whether it held a request for want of credit in this stroke. -/
structure DramPort where
  credit : Nat
  charged : Nat
  last : Nat
  spill : Bool
  waited : Bool
  deriving DecidableEq, Repr

/-- A row-hammer throttle (R327): port, sub-channel, bank of a rank and the strokes left. -/
structure Throttle where
  port : Nat
  sub : Nat
  bank : Nat
  left : Nat
  deriving DecidableEq, Repr

/-- Activates of one row by one port in one stroke (R327). -/
structure Activates where
  sub : Nat
  bank : Nat
  row : Nat
  port : Nat
  stroke : Nat
  count : Nat
  deriving DecidableEq, Repr

/-- The DRAM controller: what training found, the queues of the sub-channels, the ports and the requests that wait at them, the
open row of every bank, the rolling activate count of every bank (R327), the ECC lines of each sub-channel's cache, the one used last first (R317),
the activates of the last 32 ms, throttles, patrol, and the sheet each sub-channel was last tracked. -/
structure Dram where
  present : Nat
  retired : Nat
  training : Bool
  trained : Bool
  initDone : Bool
  density : Nat
  ranks : Nat
  drows : Nat
  mib : Nat
  raaimt : Nat
  readQ : SMap (List DramReq)
  writeQ : SMap (List DramReq)
  ports : SMap DramPort
  lastPort : Nat
  waiting : List DramReq
  openRow : SMap Nat
  raa : SMap Nat
  eccLines : SMap (List Nat)
  acts : List Activates
  throttles : List Throttle
  patrol : Nat
  lapStart : Nat
  trackedAt : SMap Nat
  deriving DecidableEq, Repr

/-- A cell (R330, R331): link entry, data and the metadata entry; `passed`: the unit that its sector belongs to has passed its program and its
proof reads, so that Thrumlux may release it (R228). -/
structure Cell where
  alloc : Bool
  dev : Bool
  tenant : Nat
  next : Nat
  data : BitVec 8192
  md : BitVec 512
  passed : Bool := false
  deriving DecidableEq, Repr

/-- The handle that ends a chain (R329). -/
def endOfChain : Nat := 0x3FFFFFF

/-- A cell nothing has written. -/
def Cell.empty : Cell := { alloc := false, dev := false, tenant := 0, next := 0, data := 0, md := 0 }

/-- An allocation that waits (R332, R148): the graver, or the command slot of a write, the owner (none: the device) and
the count, in the order it came. -/
structure AllocReq where
  graver : Nat
  owner : Option Nat
  count : Nat
  deriving DecidableEq, Repr

/-- The cell pool (R329 to R336). `onUsed` lists the on-chip handles that are not free, in rising order; `cache` is the
on-chip handle cache; the ring holds the handles `ringFresh` to `ringEnd` - 1 of its first filling and then `ring`; `spoilt` holds cells not used again (Table 9-8). -/
structure Pool where
  cells : SMap Cell
  onUsed : List Nat
  excluded : List Nat
  cache : List Nat
  ringFresh : Nat
  ringEnd : Nat
  ring : List Nat
  ready : Bool
  initBusy : Bool
  cfgErr : Bool
  used : SMap Nat
  devUsed : Nat
  waiting : List AllocReq
  linkHi : Nat
  spoilt : List Nat
  deriving DecidableEq, Repr

end Sys2Proof.Machine
end

