-- ==== Sys2Proof/Machine/TypesHost.lean ====
section
/-! DEFINITION. The state of the host interface, the namespaces and zones, media health and the range CAM (chapters 3, 4, 5, 8
and 12). -/

namespace Sys2Proof.Machine

/-- A completion: status code type, status code, Do Not Retry, and the two result dwords. -/
structure Cpl where
  sct : Nat
  sc : Nat
  dnr : Bool
  dw0 : Word
  dw1 : Word
  deriving DecidableEq, Repr

/-- Where a command stands between its fetch and its completion entry. -/
inductive SlotPhase where
  | fetched   -- not yet examined by its own row
  | waiting   -- examined; waits for order, room or a grant
  | moving    -- its data is on its way
  | asleep    -- an asynchronous event request, or a command whose work is passed on inside the device
  | due       -- its completion is formed
  deriving DecidableEq, Repr

/-- A command in its slot (R81): function, SQ, entry, fetch number, phase, whether its commit point is past (R93), its
completion, the slots whose completion entries come first (R92, R95, R96, R119), whether its namespace was in maintenance at
its fetch (R90) and whether the entry only collects a fixed status; for a read the sectors still to come and the descriptors
still to post; for a write its position, cells, staged share and what has arrived; for a paced read the cycle its descriptor
came to the head of its die's queue and what has happened to it (R154, R157); and whether it has waited for a CAM entry (R340). -/
structure Slot where
  fn : Nat
  qid : Nat
  sqe : Sqe
  seq : Nat
  phase : SlotPhase
  committed : Bool
  cpl : Option Cpl
  after : List Nat
  maint : Bool
  conflict : Bool
  left : Nat
  total : Nat
  bad : Option Cpl
  zone : Option Nat
  start : Nat
  chain : Nat
  share : Option Bool
  arrived : List Nat
  landing : Option Nat
  cam : Option Nat
  headT : Option Nat
  single : Bool
  reread : Bool
  suspHit : Bool
  held : Bool
  entryWait : Bool := false
  deriving DecidableEq, Repr

/-- A submission queue: size, its CQ, the tail the host has given, the next entry to read, the next entry to fetch, entries
fetched since its creation, and the slot of a Delete I/O SQ under way. -/
structure Sq where
  size : Nat
  cq : Nat
  tail : Nat
  issue : Nat
  head : Nat
  fetched : Nat
  deleting : Option Nat
  deriving DecidableEq, Repr

/-- A completion queue: size, head, tail, phase tag, interrupt, entries posted, strokes in which posting was held, completions
held for want of an entry (slots, oldest first), and the stroke last counted. -/
structure Cq where
  size : Nat
  head : Nat
  tail : Nat
  phase : Bool
  ien : Bool
  vector : Nat
  posted : Nat
  stalls : Nat
  holding : List Nat
  stallAt : Option Nat
  deriving DecidableEq, Repr

/-- A submission-entry read that was issued (R81): its SQ, the entry, the slot set aside, and the entry once it returned. -/
structure Issued where
  fn : Nat
  qid : Nat
  idx : Nat
  slot : Nat
  sqe : Option Sqe
  deriving DecidableEq, Repr

/-- An asynchronous event: type, information, log page. -/
structure AsyncEvent where
  kind : Nat
  info : Nat
  log : Nat
  deriving DecidableEq, Repr

/-- An Error Information entry (log 0x01): count, SQ, CID, status, LBA, namespace. -/
structure ErrEntry where
  count : Nat
  sqid : Nat
  cid : Nat
  status : Nat
  lba : Nat
  nsid : Nat
  deriving DecidableEq, Repr

/-- A function (R69): CC.EN, CSTS.RDY, shutdown status, VF presence, a disabling under way (R161), its queues, feature values
(by identifier), the events masked until their log is read, the events that await a request, the Error Information entries,
the Changed Zone list (zone keys) with the namespaces whose list overflowed, the Changed Namespace list, the quotas (R79), the
round-robin place of its I/O SQs, and the Critical Warning last seen. -/
structure Func where
  en : Bool
  rdy : Bool
  shn : Bool
  shst : Nat
  vf : Bool
  flr : Bool
  stopping : Bool
  sqs : SMap Sq
  cqs : SMap Cq
  feats : SMap Nat
  masked : List Nat
  errs : List ErrEntry
  errCount : Nat
  changedZones : List Nat
  zonesOver : List Nat
  changedNs : List Nat
  sqQuota : Nat
  cqQuota : Nat
  lastSq : Nat
  crit : Nat
  deriving DecidableEq, Repr

/-- A function at reset: no queue, no quota (Table 3-17). -/
def Func.reset : Func :=
  { en := false, rdy := false, shn := false, shst := 0, vf := false, flr := false, stopping := false, sqs := [], cqs := [],
    feats := [], masked := [], errs := [], errCount := 0, changedZones := [], zonesOver := [], changedNs := [],
    sqQuota := 0, cqQuota := 0, lastSq := 0, crit := 0 }

/-- A deferred-error record of one function (Table 3-11), with the number of commands fetched before it was made. -/
structure DweRec where
  seq : Nat
  mark : Nat
  fn : Nat
  nsid : Nat
  sqid : Nat
  cid : Nat
  slba : Nat
  nlb : Nat
  cause : Nat
  delivered : Bool
  announced : Bool
  stroke : Nat
  zslba : Nat
  read : Bool
  deriving DecidableEq, Repr

/-- A port's link (Table 3-14): up, FLIT mode, rate, width, the IDE streams (true: Secure) and those in the Insecure state, VF
Enable and NumVFs, whether link training has started (R484), PERST_N is high, the boot ROM has released the link, the width trained
first, and the IDE streams whose keys are programmed and not yet active. -/
structure Port where
  up : Bool
  flit : Bool
  rate : Nat
  width : Nat
  secure : List Nat
  insecure : List Nat
  vfEnable : Bool
  numVfs : Nat
  training : Bool
  perst : Bool
  released : Bool
  widest : Nat
  keyed : List Nat
  deriving DecidableEq, Repr

def Port.reset : Port :=
  { up := false, flit := false, rate := 0, width := 0, secure := [], insecure := [], vfEnable := false, numVfs := 0,
    training := false, perst := false, released := false, widest := 0, keyed := [] }

/-- The keys of a secure session (AES-256-GCM): the device's key pair and the requester's public key they come from, and how often each side
has changed its key. -/
structure SpdmKeys where
  pair : Nat
  pub : BitVec 768
  reqGen : Nat
  rspGen : Nat
  deriving DecidableEq, Repr

/-- An SPDM connection of a PF's DOE mailbox (Table 3-2): the version (0x10 once it has been asked for), whether capabilities and
algorithms were exchanged, the algorithms chosen (bit 0 signature, 1 hash, 2 key exchange, 3 secured messages), the open sessions with
whether each is finished, their keys, and the number of the next one. -/
structure Spdm where
  version : Nat
  caps : Bool
  algs : Bool
  chosen : Nat
  sessions : List (Nat × Bool)
  keys : SMap SpdmKeys
  nextSession : Nat
  deriving DecidableEq, Repr

def Spdm.reset : Spdm := { version := 0, caps := false, algs := false, chosen := 0, sessions := [], keys := [], nextSession := 1 }

/-- The host interface (R69 to R102): slots, the fetch counter, functions, entries whose reads were issued, round robin and budget, deferred
errors, staged shares, tags, ports, SPDM, the device self-test (0 none, 1 short, 2 extended), its first failing segment, the stroke it
began and its results, and the reads completed with Unrecovered Read Error. -/
structure HostIf where
  slots : SMap Slot
  seq : Nat
  funcs : SMap Func
  issued : List Issued
  rrFunc : Nat
  fetchLeft : Nat
  fetchOn : Bool
  dual : Bool
  dwe : List DweRec
  dweSeq : Nat
  dweLost : SMap Nat
  dweTotal : SMap Nat
  stagedOf : SMap Nat
  stagedShared : Nat
  tag : Nat
  ports : SMap Port
  spdm : SMap Spdm
  selfTest : Nat
  selfBad : Nat
  selfAt : Nat
  selfLog : List (List Byte)
  unrec : Nat
  deriving DecidableEq, Repr

/-- The zone states of Table 4-2. -/
inductive ZoneState where
  | empty | implOpen | explOpen | closed | full | readOnly | offline
  deriving DecidableEq, Repr

def ZoneState.code : ZoneState → Nat
  | .empty => 1 | .implOpen => 2 | .explOpen => 3 | .closed => 4 | .full => 0xE | .readOnly => 0xD | .offline => 0xF

/-- A landing record (Table 4-4). -/
structure Landing where
  token : Nat
  lba : Nat
  nlb : Nat
  done : Bool
  seq : Nat
  slot : Nat
  deriving DecidableEq, Repr

/-- Sectors of a zone that one write brought: first offset, count, the write's SQ and CID (Table 3-11). -/
structure Wrote where
  first : Nat
  n : Nat
  sqid : Nat
  cid : Nat
  deriving DecidableEq, Repr

/-- A zone (R106, R107, R112): state, visible write pointer, check pointer, end of its data (R124), its row, the handle that
bound it, landing records (newest first), refold role, lost ranges, staged sectors (sector offset to first cell, and whether its ceiling share is of the reserve), a Read Only
mark under way (R115) with the fetch number it counts as, the strokes at which it was reset (0: never) and first committed to, and what
writes brought its data. -/
structure Zone where
  st : ZoneState
  wp : Nat
  cp : Nat
  eod : Nat
  row : Option (Nat × Nat)
  handle : Nat
  recs : List Landing
  refDst : Option Nat
  refSrc : List Nat
  lost : List (Nat × Nat)
  staged : SMap (Nat × Bool)
  marked : Option Nat
  resetAt : Nat
  bornAt : Nat
  wrote : List Wrote
  deriving DecidableEq, Repr

def Zone.fresh : Zone :=
  { st := .empty, wp := 0, cp := 0, eod := 0, row := none, handle := 0, recs := [], refDst := none, refSrc := [], lost := [],
    staged := [], marked := none, resetAt := 0, bornAt := 0, wrote := [] }

/-- A placement handle (R109). -/
structure Handle where
  groups : List Nat
  spill : Bool
  deriving DecidableEq, Repr

/-- Where a sector of a conventional namespace stands: in cells, on the medium, or lost. -/
inductive ConvAt where
  | cells (h : Nat) (reserve : Bool)
  | media (key : Nat) (slc : Bool)
  | lost
  deriving DecidableEq, Repr

/-- A namespace (R108, R109, R113, R131, R141 to R143, R304): kind, owner, sharing, class, zones, reservations by group, handles,
active-zone limit, attached functions, service state, sectors, the mode set for its next key, EUI, statistics. -/
structure Ns where
  zoned : Bool
  owner : Nat
  shared : Bool
  cls : Nat
  zones : Nat
  rows : SMap Nat
  handles : SMap Handle
  limit : Nat
  attached : List Nat
  maint : Bool
  sectors : Nat
  newMode : Option Nat
  eui : Nat
  reads : Nat
  writes : Nat
  sectorsRead : Nat
  sectorsWritten : Nat
  mediaErrs : Nat
  deriving DecidableEq, Repr

/-- A row (R107, R221, R237): what is bound to it, whether it is retired, the members that still need an erase, the members
lost, the cause of a worn mark (of a conventional row: that it takes no new data, R219), and the members that carry nothing from a wordline
on for want of a spare (W3 of Table 8-5). -/
structure Row where
  bound : Option (Nat × Nat)
  retired : Bool
  dirty : Nat
  lost : List Nat
  worn : Option Nat
  short : List (Nat × Nat)
  deriving DecidableEq, Repr

def Row.fresh : Row := { bound := none, retired := false, dirty := 0, lost := [], worn := none, short := [] }

/-- A refold past its checks (R132 to R138), named by the fetch number `seq` of its command: the slot that awaits its completion
(none after its function was disabled), the held-back unit's cells and the part of the staged ceiling it took. -/
structure RefoldJob where
  slot : Option Nat
  nsid : Nat
  dst : Nat
  ranges : List RefoldRange
  resetSrc : Bool
  finish : Bool
  running : Bool
  tenant : Nat
  seq : Nat
  chain : Nat
  share : Option Bool
  deriving DecidableEq, Repr

/-- The zone manager: namespaces, zones, the map of the conventional region by namespace and LBA, the place each staged
conventional sector was programmed to (by first cell), the place a sector was copied into cells from, refolds. -/
structure Zm where
  ns : SMap Ns
  zones : SMap Zone
  conv : SMap ConvAt
  convProg : SMap Nat
  convCopy : SMap Nat
  refolds : List RefoldJob
  deriving DecidableEq, Repr

/-- A grown bad-block record (Table 8-4). -/
structure BadRec where
  seq : Nat
  stroke : Nat
  die : Nat
  block : Nat
  cause : Nat
  state : Nat
  group : Nat
  spare : Nat
  wear : Nat
  deriving DecidableEq, Repr

/-- A Media health event (Table 8-9). -/
structure HealthEvent where
  seq : Nat
  stroke : Nat
  kind : Nat
  cause : Nat
  die : Nat
  row : Nat
  group : Nat
  nsid : Nat
  zone : Nat
  readBy : List Nat
  deriving DecidableEq, Repr

/-- What Thrumlux counts of a die (Table 8-10, R235): retirement cause, counters, the sheets of its time-outs and of its grown
bad blocks, the blocks whose reads failed every tier while parity recovered the data, with the last such sheet, the blocks whose reads failed
every tier at all, its last event. -/
structure DieHealth where
  cause : Nat
  proofFails : Nat
  refreshes : Nat
  timeouts : Nat
  tmoAt : List Nat
  grown : List Nat
  grownBad : Nat
  unrec : List (Nat × Nat)
  failed : List Nat
  last : Nat
  deriving DecidableEq, Repr

def DieHealth.fresh : DieHealth :=
  { cause := 0, proofFails := 0, refreshes := 0, timeouts := 0, tmoAt := [], grown := [], grownBad := 0, unrec := [],
    failed := [], last := 0 }

/-- A block replacement in progress on a die (R230): the die and index the block serves as, the block, the spare, cause, the wordline from which units come from cells,
the last wordline programmed to the spare so far, and whether the spare is erased and proofed (step 2). -/
structure Replace where
  home : Nat
  block : Nat
  old : Nat
  spare : Nat
  cause : Nat
  first : Nat
  done : Nat
  ready : Bool
  deriving DecidableEq, Repr

/-- A block of a bound row that must be replaced (R226, R229): its die, the die and index it serves as, cause, and the wordline from which its
units come from cells. -/
structure Wanted where
  die : Nat
  home : Nat
  role : Nat
  cause : Nat
  wl : Nat
  deriving DecidableEq, Repr

/-- A row migration (R224) of a die group. -/
structure Migration where
  group : Nat
  src : Nat
  dst : Nat
  nsid : Nat
  zone : Nat
  deriving DecidableEq, Repr

/-- A member of a bound row that is lost and to be rebuilt (R271), with its destination (die and block) once named
and the first stripe programmed there directly. -/
structure Rebuild where
  group : Nat
  row : Nat
  member : Nat
  dest : Option (Nat × Nat)
  front : Nat
  deriving DecidableEq, Repr

/-- A completion that Thrumlux has yet to act on (R227 to R229): its channel, descriptor and status. -/
structure Heard where
  ch : Nat
  desc : Desc
  dev : Bool
  status : Nat
  deriving DecidableEq, Repr

/-- A program or erase that Thrumlux proof-reads itself (R227): its channel and descriptor, the tags of the proof reads still out, and whether
one of them failed. -/
structure Proving where
  ch : Nat
  desc : Desc
  dev : Bool
  tags : List Word
  bad : Bool
  deriving DecidableEq, Repr

/-- Media health (chapter 8). `used` is the Percentage Used last reported on; `heard`, `proving` and `owed` (descriptors of a channel that
wait for room in their die's queue, with whether they are device work) carry out R227 to R230; `erases` holds the blocks whose erase is
awaited, with the attempts made (R229); `retiring` the die and block of a replaced block that descriptors still name, whether it becomes
BAD, and whether it is in SLC mode (R230). -/
structure Med where
  wear : SMap Nat
  level : SMap Nat
  reads : SMap Nat
  remap : SMap Nat
  rows : SMap Row
  recs : List BadRec
  recSeq : Nat
  events : List HealthEvent
  eventSeq : Nat
  eventTotal : Nat
  eventLost : SMap Nat
  thresh : SMap Nat
  threshNext : SMap Nat
  dies : SMap DieHealth
  chanCause : SMap Nat
  chanDies : SMap (List Nat)
  replace : SMap Replace
  wanted : List Wanted
  migrate : List Migration
  rebuild : List Rebuild
  refreshes : Nat
  grownBad : Nat
  ckpt : Nat
  ckptWear : SMap Nat
  used : Nat
  spareLow : Bool
  heard : List Heard
  proving : List Proving
  owed : List (Nat × Desc × Bool)
  erases : SMap Nat
  retiring : List (Nat × Nat × Bool × Bool)
  deriving DecidableEq, Repr

/-- The states of a CAM entry (R339), and poison (R351). -/
inductive CamState where
  | free | held | live
  deriving DecidableEq, Repr

/-- A CAM entry: state, poison, content (Table 12-1; bit 191 is given by the state). -/
structure CamEntry where
  st : CamState
  poison : Bool
  data : BitVec 192
  deriving DecidableEq, Repr

def CamEntry.free : CamEntry := { st := .free, poison := false, data := 0 }

/-- The answer of a search (R344): the winner's index and priority, MULTI, and whether it is poisoned. -/
structure CamHit where
  index : Nat
  pri : Nat
  multi : Bool
  poison : Bool
  deriving DecidableEq, Repr

/-- The range CAM: entries, band, searches left in the stroke, the searches of commands whose result is on its way, and the
commands that wait on a hit with the index they hit. -/
structure Cam where
  entries : SMap CamEntry
  band : Nat
  left : Nat
  searches : List (Nat × Option CamHit)
  waits : List (Nat × Nat)
  deriving DecidableEq, Repr

end Sys2Proof.Machine
end

