-- ==== Sys2Proof/Machine/TypesMisc.lean ====
section
/-! DEFINITION. The smaller pieces of the state: the stroke counter, the internal fabric's last answer, what the device has
sent. -/

namespace Sys2Proof.Machine

/-- The stroke counter (R33 to R37): count, cycle within the stroke, PLL lock, whether the counter has been started, the
sheet number a pending load will put in, the latch behind COUNT_HI, and the strokes begun since the last cold reset, which a load does not
move. -/
structure Strk where
  count : Nat
  cycle : Nat
  lock : Bool
  started : Bool
  load : Option Nat
  hi : Nat
  ran : Nat
  deriving DecidableEq, Repr

/-- The last answer of the internal fabric to a graver (R8, R28): the data read and whether it was a bus error. -/
structure Bus where
  data : DWord
  err : Bool
  deriving DecidableEq, Repr

/-- What the device sends out. -/
inductive Out where
  /-- The read of a submission entry (R81). -/
  | sqeRead (fn qid idx : Nat)
  /-- The data of a command is requested from host memory. -/
  | hostRead (fn slot : Nat)
  /-- A sector of read data written to host memory. -/
  | hostSector (fn slot idx : Nat) (data : Payload)
  /-- Log, Identify or reply bytes written to the buffer of a command. -/
  | hostBytes (fn cid : Nat) (bytes : List Byte)
  /-- A completion entry written to a CQ. -/
  | cqe (fn cq idx : Nat) (words : List Word)
  /-- An MSI-X message. -/
  | msix (fn vector : Nat)
  /-- An MCTP message sent on SMBus (false) or I3C to an endpoint with a tag: its type and its body (R386). -/
  | mctp (i3c : Bool) (eid tag kind : Nat) (body : List Byte)
  /-- A DOE or SPDM response object on a port's mailbox (R70). -/
  | doe (port : Nat) (body : List Byte)
  /-- An IDE_KM response on a stream of a port (R70). -/
  | ideKm (port stream : Nat) (ok : Bool)
  /-- A received request completed as Unsupported Request (R71). -/
  | unsupported (fn : Nat)
  /-- A voltage sent to the core regulator, as its mantissa, or the regulator commanded off (R408, R421). -/
  | pmbus (mantissa : Nat)
  | pmbusOff
  /-- A Dalesk data flit, ACK or NAK sent on a port (R459, R460). -/
  | flit (port : Nat) (bytes : List Byte)
  | ack (port seq : Nat)
  | nak (port seq : Nat)
  /-- A message to another device of the cascade (R461): position, request ID, content. -/
  | dlk (pos id : Nat) (body : List Byte)
  /-- The Dalesk wake pattern on a port (R412). -/
  | wakePattern (port : Nat)
  /-- WAKEn_N driven low (chapter 18). -/
  | wakeN (port : Nat)
  deriving DecidableEq, Repr

end Sys2Proof.Machine
end

