-- ==== Sys2Proof/Machine/TypesSys.lean ====
section
/-! DEFINITION. The state of the gravers, Jenam, power and time, start-up and flush, and the Dalesk link (chapters 13 to 18). -/

namespace Sys2Proof.Machine

/-! ### Gravers (chapter 13) -/

/-- The graver states of Table 13-3, in the order of their codes. -/
inductive GravState where
  | halt | run | etch | spare | failed
  deriving DecidableEq, Repr

def GravState.code : GravState → Nat
  | .halt => 0 | .run => 1 | .etch => 2 | .spare => 3 | .failed => 4

/-- A stalled QWAIT or QWAITG (R360): which one, its mask and its destination. -/
structure QStall where
  group : Bool
  mask : DWord
  rd : Nat
  deriving DecidableEq, Repr

/-- A PMP entry of a graver (R356): the range that U-mode may read and write, and whether it may execute there. -/
structure Pmp where
  base : Nat
  bytes : Nat
  exec : Bool
  deriving DecidableEq, Repr

/-- A graver (R354 to R363): state, cause of the last failure, mode (true: M), program counter, registers x1 to x31, the CSRs by
number (log entry 14), the address reserved by LR, a stalled queue wait, the stroke of the last pet, and the etching slot it serves. -/
structure Graver where
  st : GravState
  cause : Nat
  machine : Bool
  pc : DWord
  x : SMap DWord
  csr : SMap DWord
  resv : Option Nat
  timecmp : DWord
  stall : Option QStall
  petAt : Nat
  slot : Option Nat
  pmp : List Pmp
  deriving DecidableEq, Repr

/-- A graver at reset: HALT (R362), in M-mode, registers zero (log entry 14). -/
def Graver.reset : Graver :=
  { st := .halt, cause := 0, machine := true, pc := 0, x := [], csr := [], resv := none, timecmp := BitVec.allOnes 64, stall := none, petAt := 0, slot := none, pmp := [] }

/-- An etching slot (R376 to R378, R400): whether it is disabled, the image loaded, the DRAM window (base and bytes), its graver, stops
(stroke counter and cause, newest first), the event records not yet returned, and a waiting EV_NEXT (buffer and class mask). -/
structure EtchSlot where
  disabled : Bool
  image : List Byte
  window : Nat × Nat
  graver : Option Nat
  stops : List (Nat × Nat)
  events : List (Nat × List Byte)
  waiting : Option (Nat × Nat)
  deriving DecidableEq, Repr

def EtchSlot.fresh : EtchSlot :=
  { disabled := false, image := [], window := (0, 0), graver := none, stops := [], events := [], waiting := none }

/-- The graver block: gravers, queues, measurements, MLOCK, etchings and their staging areas, migrations
(stroke, from, to; newest first), failed gravers whose work has not been taken over (oldest first), and the traces of telemetry Data Areas 1 and 2. -/
structure Grv where
  gravers : SMap Graver
  queues : SMap (List DWord)
  meas : SMap (BitVec 384)
  mlock : Bool
  etch : SMap EtchSlot
  stage : SMap Byte
  moves : List (Nat × Nat × Nat)
  lost : List Nat
  trace1 : List (Nat × Nat × Nat)
  trace2 : List (List Byte)
  deriving DecidableEq, Repr

def Grv.reset : Grv :=
  { gravers := [], queues := [], meas := [], mlock := false, etch := [], stage := [], moves := [], lost := [], trace1 := [], trace2 := [] }

/-! ### Jenam (chapter 14) -/

/-- A cached reply (R388): its SEQ, the CRC and LEN of its request, the reply, and whether its opcode is marked P (R385). -/
structure Cached where
  seq : Nat
  crc : Nat
  len : Nat
  reply : List Byte
  secret : Bool
  deriving DecidableEq, Repr

/-- An origin record (R388): ORIGIN, h, cached replies (oldest first), the sequence numbers answered with a status that R390 keeps out of
the cache, which may be sent again, and the order of its last use. -/
structure Origin where
  origin : Nat
  h : Nat
  cache : List Cached
  again : List Nat
  used : Nat
  deriving DecidableEq, Repr

/-- How a request in a buffer stands: its data is on its way, arrived but no origin record can be had, accepted and waiting its turn, sent
to a follower, answered (the reply stands in the buffer), or a resend that awaits the reply of the request in another buffer (R387 to
R389, R395). -/
inductive JPhase where
  | moving | arrived | accepted | forwarded | answered | twin (buf : Nat)
  deriving DecidableEq, Repr

/-- A buffer in use (R387): its number, path (0 and 1 the PFs, 2 SMBus, 3 I3C, 4 another device of the cascade), the command slot, or the
requester's EID and message tag (its position and request ID in the cascade),
the packet, the order in which packets were complete, and how it stands. -/
structure JBuf where
  buf : Nat
  path : Nat
  slot : Option Nat
  eid : Nat
  tag : Nat
  packet : List Byte
  order : Nat
  phase : JPhase
  deriving DecidableEq, Repr

/-- The Jenam block: buffers, origin records, the order counter, Jenam Sends that wait for a buffer (slots, oldest first), Receives that wait
for a reply (slot, ORIGIN, SEQ), the banks written by HATCH_WRITE since the channel's last switch, and of the NVMe-MI configuration the SMBus
frequency of each endpoint and the health changes it has acknowledged. -/
structure Jnm where
  bufs : List JBuf
  origins : List Origin
  next : Nat
  sends : List Nat
  receives : List (Nat × Nat × Nat)
  written : List Nat
  miFreq : SMap Nat
  miChange : SMap Nat
  deriving DecidableEq, Repr

def Jnm.reset : Jnm :=
  { bufs := [], origins := [], next := 0, sends := [], receives := [], written := [], miFreq := [], miChange := [] }

/-! ### Power and time (chapter 15) -/

/-- The voltage step of an operating-point transition in progress (R420): the point it moves to and whether the point is faster. -/
structure OpMove where
  target : Nat
  rise : Bool
  deriving DecidableEq, Repr

/-- An entry into PS3 or PS4 under way (R407, R408): the state entered, the operational state left, and whether its flush image is
written. -/
structure Entry where
  target : Nat
  left : Nat
  written : Bool
  deriving DecidableEq, Repr

/-- Power (chapter 15): the state in force, the last operational state, each PF's selection, the entry under way, the cycle at which the device became idle, the
sheet of the last attempt plus 1 (0: none since idleness began), throttle level, THERM_N low, operating point, transition, composite temperature, the limit set in force, the tick count last shown, the keep-bank signatures, the wake sources' entry state, the timestamp (value, counter), Synch, the
restore after PS4 still to finish once the DRAM serves accesses, the keep banks that failed their check at the exit from PS4 (R417), and the
point whose transition failed, until another one is asked for (R422). -/
structure Pwr where
  ps : Nat
  last : Nat
  sel : SMap Nat
  entry : Option Entry
  idleAt : Option Nat
  lastTry : Nat
  level : Nat
  thermN : Bool
  op : Nat
  move : Option OpMove
  kelvin : Nat
  limit : Nat
  ticks : Nat
  sigs : SMap (BitVec 64)
  stamp : Option (Nat × Nat)
  synch : Bool
  restoring : Bool
  badBanks : List Nat
  tried : Option Nat
  deriving DecidableEq, Repr

def Pwr.reset : Pwr :=
  { ps := 0, last := 0, sel := [], entry := none, idleAt := none, lastTry := 0, level := 0, thermN := false, op := 3, move := none, kelvin := 0,
    limit := 0, ticks := 0, sigs := [], stamp := none, synch := false, restoring := false, badBanks := [], tried := none }

/-! ### Start-up, flush and faults (chapter 16) -/

/-- What is kept durable of the device's tables (R233, R434, R440): namespaces and zones, health, the TEN registers, the queue quotas,
deferred-error records, wrapped keys, and the sheet number. -/
structure Tables where
  zm : Zm
  med : Med
  ten : SMap Word
  quotas : SMap (Nat × Nat)
  dwe : List DweRec
  dweSeq : Nat
  dweLost : SMap Nat
  dweTotal : SMap Nat
  keys : SMap KeySlot
  deriving DecidableEq, Repr

/-- A unit of a flush image (R440, R441): its place, kind, destination, and sectors. -/
structure FlushUnit where
  die : Nat
  block : Nat
  unit : Nat
  kind : Nat
  nsid : Nat
  lba : Nat
  zone : Nat
  sectors : List Sector
  deriving DecidableEq, Repr

/-- A flush image in HOLD (R440 to R445): its directory and its end marker as bytes (R441), and the dies and rescue blocks that hold them. -/
structure Image where
  fseq : Nat
  stroke : Nat
  units : List FlushUnit
  tables : Tables
  ended : Bool
  dir : List Byte
  mark : List Byte
  dirAt : List (Nat × Nat)
  deriving DecidableEq, Repr

/-- The four rescue blocks of a die (R241): the states (0 ACTIVE, 1 HOLD, 2 FREE, 3 DIRTY), and the units used of the active one. -/
structure Rescue where
  states : List Nat
  used : Nat
  deriving DecidableEq, Repr

def Rescue.fresh : Rescue := { states := [0, 2, 2, 2], used := 0 }

/-- What outlasts a loss of power: tables, the grown bad-block records with the dies that hold their three copies (R233), images in HOLD, rescue blocks, flush sequence number, the plan last armed through Jenam (by
channel: entries and seal mask), firmware slots, the slot pointer, fuses, the owner's chain, the etching store, and what was downloaded. -/
structure Nvm where
  tables : Option Tables
  recs : List (BadRec × List Nat)
  images : List Image
  rescue : SMap Rescue
  fseq : Nat
  sheet : Nat
  plan : SMap (SMap DWord × Word)
  fw : SMap (List Byte)
  active : Nat
  pending : Nat
  failed : Bool
  svn : Nat
  revoked : Nat
  cert : Option (List Byte)
  etch : SMap (List Byte × Nat)
  epoch : Nat
  deriving DecidableEq, Repr

def Nvm.reset : Nvm :=
  { tables := none, recs := [], images := [], rescue := [], fseq := 0, sheet := 0, plan := [], fw := [], active := 1, pending := 0,
    failed := false, svn := 0, revoked := 0, cert := none, etch := [], epoch := 0 }

/-- Why a flush runs, or what the next cold reset follows (Table 16-7). -/
inductive Why where
  | power | software | trip | fatal
  deriving DecidableEq, Repr

/-- How far Thrumlux's start-up has come (R435): the channels train (step 3), the default plan is armed, the stored plan is armed (R437). -/
inductive StartStep where
  | training | plan | stored
  deriving DecidableEq, Repr

/-- Where the device stands between power-on and service (R432 to R452). -/
inductive Stage where
  | reset (why : Why) (flushed : Bool)   -- cold reset held
  | waiting (why : Why) (flushed : Bool) -- power good, PWRFAIL_N low
  | boot                                  -- boot ROM, Ground, Thrumlux until step 2
  | starting (found : StartObs) (at' : StartStep) -- Thrumlux's steps 3 to 9
  | noSlot                                -- no firmware slot accepted (R371)
  | service
  | flushing (why : Why) (saved : Bool)   -- the AON save record is written
  | stopped (why : Why)                   -- a fatal stop or start
  | off                                   -- core off, after a flush without power
  deriving DecidableEq, Repr

/-- The system block: stage, PWRFAIL_N low, CSTS.CFS, the flash pins held safe (R480), the channels whose
FLn_WP_N has been driven high since power-up (bit n, R487), the image downloaded so far, the role straps
(R454), and whether the self-test of R282 runs. -/
structure Sys where
  stage : Stage
  failLow : Bool
  cfs : Bool
  pinsSafe : Bool
  wp : Nat
  download : SMap (List Byte)
  role : Nat
  selftest : Bool
  deriving DecidableEq, Repr

def Sys.reset : Sys :=
  { stage := .reset .power false, failLow := false, cfs := false, pinsSafe := false, wp := 0, download := [], role := 0, selftest := false }

/-! ### Dalesk (chapter 17) -/

/-- A Dalesk port (R457 to R460): up, width, the peer's position, the next sequence number to send, flits sent and not acknowledged (oldest
first), flits that wait to be sent, the number expected, flits accepted since the last ACK, replays in a row that began at the oldest flit. -/
structure DlkPort where
  up : Bool
  width : Nat
  peer : Nat
  tx : Nat
  unacked : List DlkFlit
  ready : List DlkFlit
  expect : Nat
  accepted : Nat
  replays : Nat
  deriving DecidableEq, Repr

def DlkPort.reset : DlkPort :=
  { up := false, width := 0, peer := 0, tx := 0, unacked := [], ready := [], expect := 0, accepted := 0, replays := 0 }

/-- A request between devices (R461): the position it comes from or goes to, its ID, its virtual channel and its message. -/
structure DlkMsg where
  pos : Nat
  id : Nat
  vc : Nat
  body : List Byte
  deriving DecidableEq, Repr

/-- What the master has asked of a follower (R463): sectors to go into its cells, to be programmed, a
sector to be read, or work on a row that changes nothing here (an erase, a copied sector). -/
inductive MoveKind where
  | cells | program | read | other
  deriving DecidableEq, Repr

/-- A media request of the master that is unanswered: the follower, the request, the zone and its sectors, and for a read the command slot and
the index of the sector. -/
structure DlkMove where
  pos : Nat
  id : Nat
  kind : MoveKind
  nsid : Nat
  zone : Nat
  first : Nat
  n : Nat
  slot : Nat
  idx : Nat
  deriving DecidableEq, Repr

/-- A request that a follower has received and cannot begin yet: its sender, its ID, what it asks. -/
structure DlkJob where
  pos : Nat
  id : Nat
  ask : DlkRequest
  deriving DecidableEq, Repr

/-- A descriptor posted for another device (R461): its tag, that device and its request, and whether its completion has been reported. -/
structure DlkPost where
  tag : Nat
  pos : Nat
  id : Nat
  told : Bool
  deriving DecidableEq, Repr

/-- The Dalesk block: ports (0 DLK_DN, 1 DLK_UP), admitted positions, the next request ID for each position, requests unanswered and what
those for media asked, requests executed from each position with their responses (newest first), requests that wait for room, the descriptors
that came from other devices, unreachable followers with the cycle at which each became so, those whose hold has
expired, whether traffic was rerouted, positions that have ended step 8, positions seen and not admitted, the HOLD directory entries
that followers have reported, and whether this follower has lost its master (R468). -/
structure Dlk where
  ports : SMap DlkPort
  admitted : List Nat
  nextId : SMap Nat
  asked : List DlkMsg
  moves : List DlkMove
  held : List DlkMsg
  jobs : List DlkJob
  posted : List DlkPost
  unreach : List (Nat × Nat)
  expired : List Nat
  rerouted : Bool
  ready : List Nat
  seen : SMap Nat
  reported : List (Nat × Nat)
  masterLost : Bool
  deriving DecidableEq, Repr

def Dlk.reset : Dlk :=
  { ports := [], admitted := [], nextId := [], asked := [], moves := [], held := [], jobs := [], posted := [], unreach := [], expired := [],
    rerouted := false, ready := [], seen := [], reported := [], masterLost := false }

end Sys2Proof.Machine
end

