-- ==== Sys2Proof/Machine/State.lean ====
section
/-! DEFINITION. The state of the block as plain data, its reset value, and the reasons a step can stop. -/

namespace Sys2Proof.Machine

/-- Why a step stops with a fault. -/
inductive Fault where
  /-- Raised by a command whose list operand has a length that its protocol has no form for (an APST table that is not 32 entries), so that
  the term spells no command (WellFormed). Safe: no sender can make it. -/
  | illFormed (what : String)
  deriving DecidableEq, Repr

/-- Why a step is refused. -/
inductive Refusal where
  /-- Raised by exec's arm of a command that has no meaning yet. Safe. -/
  | notModelled (mnemonic : String)
  deriving DecidableEq, Repr

/-- Everything the block holds but its memory and its queue of commands. -/
structure Dev where
  nfree : Nat
  regs : SMap Word
  bus : Bus
  strk : Strk
  chans : SMap Chan
  media : SMap Sector
  ecc : Ecc
  par : Par
  stip : Stip
  ciph : Ciph
  dram : Dram
  pool : Pool
  host : HostIf
  zm : Zm
  med : Med
  cam : Cam
  grv : Grv
  jnm : Jnm
  pwr : Pwr
  nvm : Nvm
  sys : Sys
  dlk : Dlk
  out : List Out
  deriving DecidableEq, Repr

/-- The block: the commands that wait, first in, first out; memory; the rest. -/
structure State where
  pending : List Instr
  mem : List Host.Cell
  dev : Dev
  deriving DecidableEq, Repr

def Ecc.reset : Ecc := { items := [], escs := [], notices := [], buckets := [], checks := [], nextTag := 0, routed := false, softUsed := [], arrivals := 0, idleAt := [] }
def Par.reset : Par := { accs := [], jobs := [], contribs := [], used := [], cq := [], staging := [], ok := 0 }
def Stip.reset : Stip := { chans := [], urgent := [], nextTag := 0 }
def Ciph.reset : Ciph :=
  { lanes := [], laneOk := 0, readQ := [], writeQ := [], jobQ := [], nonce := 0, nonceHi := 0, epochSet := false,
    slots := [], staging := [], jcq := [], seq := 0 }
def Dram.reset : Dram :=
  { present := 0, retired := 0, training := false, trained := false, initDone := false, density := 0, ranks := 0,
    drows := 0, mib := 0, raaimt := 0, readQ := [], writeQ := [], ports := [], lastPort := 7, waiting := [], openRow := [], raa := [], eccLines := [], acts := [],
    throttles := [], patrol := 0, lapStart := 0, trackedAt := [] }
def Pool.reset : Pool :=
  { cells := [], onUsed := [], excluded := [], cache := [], ringFresh := 0, ringEnd := 0, ring := [], ready := false,
    initBusy := false, cfgErr := false, used := [], devUsed := 0, waiting := [], linkHi := 0, spoilt := [] }
def HostIf.reset : HostIf :=
  { slots := [], seq := 0, funcs := [], issued := [], rrFunc := 0, fetchLeft := 0, fetchOn := false, dual := false, dwe := [], dweSeq := 0,
    dweLost := [], dweTotal := [], stagedOf := [], stagedShared := 0, tag := 0, ports := [], spdm := [],
    selfTest := 0, selfBad := 0, selfAt := 0, selfLog := [], unrec := 0 }
def Zm.reset : Zm := { ns := [], zones := [], conv := [], convProg := [], convCopy := [], refolds := [] }
def Med.reset : Med :=
  { wear := [], level := [], reads := [], remap := [], rows := [], recs := [], recSeq := 0, events := [], eventSeq := 0,
    eventTotal := 0, eventLost := [], thresh := [], threshNext := [], dies := [], chanCause := [], chanDies := [], replace := [], wanted := [], migrate := [],
    rebuild := [], refreshes := 0, grownBad := 0, ckpt := 0, ckptWear := [], used := 0, spareLow := false, heard := [], proving := [],
    owed := [], erases := [], retiring := [] }
def Cam.reset : Cam := { entries := [], band := 0, left := 0, searches := [], waits := [] }
def Strk.reset : Strk := { count := 0, cycle := 0, lock := false, started := false, load := none, hi := 0, ran := 0 }

def Dev.reset : Dev :=
  { nfree := 0, regs := [], bus := { data := 0, err := false }, strk := Strk.reset, chans := [], media := [],
    ecc := Ecc.reset, par := Par.reset, stip := Stip.reset, ciph := Ciph.reset, dram := Dram.reset, pool := Pool.reset,
    host := HostIf.reset, zm := Zm.reset, med := Med.reset, cam := Cam.reset, grv := Grv.reset, jnm := Jnm.reset,
    pwr := Pwr.reset, nvm := Nvm.reset, sys := Sys.reset, dlk := Dlk.reset, out := [] }

/-- The machine right after reset: every register at its reset value (an unlisted register reads it), memory with nothing
listed, no command waiting. -/
def State.reset : State := { pending := [], mem := [], dev := Dev.reset }

end Sys2Proof.Machine
end

