-- ==== Sys2Proof/Machine/Ops.lean ====
section
/-! DEFINITION. The named operations over registers, channels, dies and time that every family uses. -/

namespace Sys2Proof.Machine

/-! ### Outcomes -/

/-- A report of an event that the state has no room for (`what` is not under way, not there or not asked for): nothing has happened, and
the block goes on as it is (log entry 2). -/
def noEvent (_what : String) (s : State) : Host.Outcome State Fault Refusal := .next s

/-- A command that changes everything but memory: `f` answers the new device, or what is not there for it to act on. -/
def onDev (s : State) (f : Dev → Except String Dev) : Host.Outcome State Fault Refusal :=
  match f s.dev with
  | .ok d => .next { s with dev := d }
  | .error e => noEvent e s

/-- A command that always has its effect. -/
def always (f : Dev → Dev) : Dev → Except String Dev := fun d => .ok (f d)

/-- A command that acts while `due` holds, and on nothing otherwise. -/
def onlyIf (due : Bool) (what : String) (f : Dev → Dev) : Dev → Except String Dev :=
  fun d => if due then .ok (f d) else .error what

/-! ### Free values -/

/-- Takes `k` fresh free values: the counter behind them advances (log entry 9). -/
def Dev.tick (d : Dev) (k : Nat) : Dev := { d with nfree := d.nfree + k }

/-! ### Writes that set an RSV bit (R7, R14) -/

/-- Whether such a write acts by its other bits: the spec does not define it (log entry 3). -/
def Dev.obeys (d : Dev) : Bool := bit (Config.freeByte 650 0 d.nfree).toNat 0

/-- A register write with the effect `f`. Where it sets an RSV bit (`rsv`) its effect is not defined: it acts by its other bits or not at all,
so that whatever the device owes to others stands (R7). -/
def orRsv (rsv : Bool) (f : Dev → Dev) : Dev → Except String Dev := fun d =>
  .ok (if rsv then (if d.obeys then f d else d).tick 1 else f d)

/-- The same for a write that also reaches memory. -/
def orRsvWide (rsv : Bool) (f : State → State) (s : State) : State :=
  if rsv then let t := if s.dev.obeys then f s else s; { t with dev := t.dev.tick 1 } else f s

/-! ### Registers (R8 to R13) -/

/-- The default THRESH and DRAIN of a leaky bucket (Table 9-9), as `LB_CFG` reads. -/
def bucketReset (b : Nat) : Nat :=
  if b < 48 then 1024 * 65536 + 4
  else if b < 56 then 64 * 65536 + 1
  else if b < 59 then 32 * 65536 + 1
  else if b = 59 then 16 * 65536 + 1
  else if b = 60 then 2 * 65536 + 1
  else if b < 63 then 1
  else 0xFFFF * 65536

/-- The default credit of a DRAM port (Table 11-3), with SPILL = 1 (Table 11-10). -/
def portCfgReset (p : Nat) : Nat :=
  2147483648 + (match p with
    | 0 => 1024 | 1 => 3584 | 2 => 3072 | 3 => 1024 | 4 => 2560 | 5 => 512 | 6 => 256 | _ => 1024)

/-- The reset value of copy `i` of a register: its fields' reset values, and the tables that give one for each copy:
Table 9-9, Table 11-3, Table 13-10 (queue q belongs to graver q div 8), Table 5-6 (only tenant 0 is present). -/
def RegDef.resetWord (r : RegDef) (i : Nat) : Nat :=
  if r.addr = Rg.LDPC_LB_CFG.addr then bucketReset i
  else if r.addr = Rg.DMC_PORT_CFG.addr then portCfgReset i
  else if r.addr = Rg.GRV_QOWN.addr then (i / 8 % 64) * 65536
  else if r.addr = Rg.TEN_T_CFG.addr then (if i = 0 then 2147483648 else 0)
  else r.fields.foldl (fun w f => w + f.reset * 2 ^ f.lo) 0

/-- Where copy `i` of a register of channel `n` (0 for other windows) stands in the register file. -/
def RegDef.key (r : RegDef) (n i : Nat) : Nat := r.num % 512 + 512 * (n + 64 * i)
/-- The entry of the register file belongs to one of these registers. -/
def keyIn (rs : List RegDef) (key : Nat) : Bool := rs.any fun r => decide (r.num = key % 512)

/-- The stored value of a register. -/
def Dev.regGet (d : Dev) (r : RegDef) (n i : Nat) : Nat :=
  (mapGet (BitVec.ofNat 32 (r.resetWord i)) d.regs (r.key n i)).toNat

/-- Stores a register. -/
def Dev.regSet (d : Dev) (r : RegDef) (n i v : Nat) : Dev :=
  { d with regs := mapSet (BitVec.ofNat 32 (r.resetWord i)) d.regs (r.key n i) (BitVec.ofNat 32 v) }

/-- Reads a field of copy `i` of a register of channel `n`. -/
def Dev.rdx (d : Dev) (n i : Nat) (f : Fld) : Nat := bits (d.regGet f.reg n i) f.hi f.lo

/-- Writes a field of copy `i` of a register of channel `n`. -/
def Dev.wrx (d : Dev) (n i : Nat) (f : Fld) (v : Nat) : Dev :=
  d.regSet f.reg n i (setBits (d.regGet f.reg n i) f.hi f.lo v)

/-- Reads a field. -/
def Dev.rd (d : Dev) (f : Fld) : Nat := d.rdx 0 0 f
/-- Writes a field. -/
def Dev.wr (d : Dev) (f : Fld) (v : Nat) : Dev := d.wrx 0 0 f v
/-- Reads a field of copy `i`. -/
def Dev.rdb (d : Dev) (i : Nat) (f : Fld) : Nat := d.rdx 0 i f
/-- Writes a field of copy `i`. -/
def Dev.wrb (d : Dev) (i : Nat) (f : Fld) (v : Nat) : Dev := d.wrx 0 i f v
/-- Reads a field of channel `n`. -/
def Dev.rdc (d : Dev) (n : Nat) (f : Fld) : Nat := d.rdx n 0 f
/-- Writes a field of channel `n`. -/
def Dev.wrc (d : Dev) (n : Nat) (f : Fld) (v : Nat) : Dev := d.wrx n 0 f v
/-- A one-bit field reads 1. -/
def Dev.is (d : Dev) (f : Fld) : Bool := d.rd f = 1
/-- A one-bit field of channel `n` reads 1. -/
def Dev.isc (d : Dev) (n : Nat) (f : Fld) : Bool := d.rdc n f = 1

/-- Sets a one-bit field where `c` holds. -/
def Dev.flagIf (d : Dev) (c : Bool) (f : Fld) : Dev := if c then d.wr f 1 else d
/-- Sets a one-bit field of channel `n` where `c` holds. -/
def Dev.flagcIf (d : Dev) (c : Bool) (n : Nat) (f : Fld) : Dev := if c then d.wrc n f 1 else d

/-- Adds to a counter field that saturates at its width. -/
def Dev.addx (d : Dev) (n i : Nat) (f : Fld) (k : Nat) : Dev :=
  d.wrx n i f (satAdd (2 ^ (f.hi - f.lo + 1) - 1) (d.rdx n i f) k)
/-- Adds to a counter field. -/
def Dev.add (d : Dev) (f : Fld) (k : Nat) : Dev := d.addx 0 0 f k
/-- Adds to a counter field of channel `n`. -/
def Dev.addc (d : Dev) (n : Nat) (f : Fld) (k : Nat) : Dev := d.addx n 0 f k

/-- The 40-bit address held by a pair of base registers. -/
def Dev.base (d : Dev) (lo hi : RegDef) (n : Nat) : Nat := d.regGet lo n 0 + d.regGet hi n 0 % 256 * 2 ^ 32

/-- A condition of `SYS.FAULT` (its bit) begins: it reads 1, and its bit of `SYS.EVT` is set (R451). -/
def faultOn (b : Nat) (d : Dev) : Dev :=
  if bit (d.regGet Rg.SYS_FAULT 0 0) b then d
  else (d.regSet Rg.SYS_FAULT 0 0 (setBits (d.regGet Rg.SYS_FAULT 0 0) b b 1)).regSet Rg.SYS_EVT 0 0
    (setBits (d.regGet Rg.SYS_EVT 0 0) b b 1)
/-- A condition of `SYS.FAULT` ends. -/
def faultOff (b : Nat) (d : Dev) : Dev := d.regSet Rg.SYS_FAULT 0 0 (setBits (d.regGet Rg.SYS_FAULT 0 0) b b 0)

/-! ### Channels and dies -/

def Dev.chan (d : Dev) (n : Nat) : Chan := mapGet Chan.reset d.chans n
def Dev.setChan (d : Dev) (n : Nat) (c : Chan) : Dev := { d with chans := mapSet Chan.reset d.chans n c }
def Dev.modChan (d : Dev) (n : Nat) (f : Chan → Chan) : Dev := d.setChan n (f (d.chan n))
def Chan.die (c : Chan) (t : Nat) : Die := mapGet Die.reset c.dies t
def Chan.setDie (c : Chan) (t : Nat) (x : Die) : Chan := { c with dies := mapSet Die.reset c.dies t x }
def Chan.modDie (c : Chan) (t : Nat) (f : Die → Die) : Chan := c.setDie t (f (c.die t))
def Dev.die (d : Dev) (n t : Nat) : Die := (d.chan n).die t
def Dev.modDie (d : Dev) (n t : Nat) (f : Die → Die) : Dev := d.modChan n (fun c => c.modDie t f)

/-- Die number of target `t` of channel `n` (R17). -/
def dieNumber (n t : Nat) : Nat := 32 * n + t
/-- Band of a channel (R18). -/
def bandOf (n : Nat) : Nat := n / 16
/-- Die group of target `t` on channel `n` (R18). -/
def groupOf (n t : Nat) : Nat := 32 * (n / 16) + t
/-- Channel of member `m` of die group `g` (R18). -/
def memberChan (g m : Nat) : Nat := 16 * (g / 32) + m
/-- Target position of die group `g` (R18). -/
def groupTarget (g : Nat) : Nat := g % 32

/-! ### Tables of the medium (R107, R219, R221) -/

def Dev.modMed (d : Dev) (f : Med → Med) : Dev := { d with med := f d.med }
/-- A die and a block of it as one number. -/
def blockKey (die b : Nat) : Nat := die * 4096 + b
/-- The die and block that serve index `b` of a die (R219, R271). -/
def Dev.mapped (d : Dev) (die b : Nat) : Nat × Nat :=
  let k := (mapFind d.med.remap (blockKey die b)).getD (blockKey die b)
  (k / 4096, k % 4096)
/-- The die and index that a block serves as. -/
def Dev.roleOf (d : Dev) (die b : Nat) : Nat × Nat :=
  match d.med.remap.find? (fun e => decide (e.2 = blockKey die b)) with
  | some e => (e.1 / 4096, e.1 % 4096)
  | none => (die, b)
def rowKey (g r : Nat) : Nat := g * 4096 + r
def Dev.row (d : Dev) (g r : Nat) : Row := mapGet Row.fresh d.med.rows (rowKey g r)
def Dev.modRow (d : Dev) (g r : Nat) (f : Row → Row) : Dev :=
  d.modMed fun m => { m with rows := mapMod Row.fresh m.rows (rowKey g r) f }

/-- The default of a threshold of Table 8-2. -/
def threshDefault (i : Nat) : Nat :=
  [30000, 45000, 56, 100000, 1000000, 2160, 1500, 16, 10, 3, 3, 32, 4].getD i 0
/-- A threshold of Table 8-2. -/
def Dev.thresh (d : Dev) (i : Nat) : Nat := (mapFind d.med.thresh i).getD (threshDefault i)

/-- A block of a bound zone row, or of a conventional row, must be replaced (R219, R226, R229); it is named once. -/
def wantReplace (die b cause wl : Nat) (d : Dev) : Dev :=
  let (die0, r) := d.roleOf die b
  let spare := match mapFind d.med.replace die with | some p => decide (p.spare = b) | none => false
  let (die0, r) := match mapFind d.med.replace die with
    | some p => if p.spare = b then (p.home, p.block) else (die0, r)
    | none => (die0, r)
  let bound := decide (r = 12) || decide (r = 13) || (d.row (groupOf (die0 / 32) (die0 % 32)) r).bound.isSome
  if !bound || d.med.wanted.any (fun w => decide (w.die = die) && decide (w.role = r)) then d
  else if spare then
    d.modMed fun m => { m with replace := mapErase m.replace die, wanted := { die := die, home := die0, role := r, cause := cause, wl := wl } :: m.wanted }
  else if (mapFind d.med.replace die).any (fun p => decide (p.block = r)) then d
  else d.modMed fun m => { m with wanted := m.wanted ++ [{ die := die, home := die0, role := r, cause := cause, wl := wl }] }

/-! ### Time (R33 to R36) -/

/-- The stroke-clock cycle the device is in, counted from the last cold reset: a load of the counter does not move it (log entry 96). -/
def Dev.now (d : Dev) : Nat := d.strk.ran * 1024 + d.strk.cycle
/-- The units that are retested while idle: the checkers of Table 9-10 under their indices, and lane `n` of the cipher at `laneChecker + n`. -/
def laneChecker : Nat := 68
/-- Clock cycles of a sheet. -/
def sheetCycles : Nat := 262144
/-- A unit has ended its work. -/
def Dev.idleFrom (d : Dev) (k : Nat) : Dev := { d with ecc := { d.ecc with idleAt := mapInsert d.ecc.idleAt k d.now } }
/-- The unit has ended no work for a sheet (R283). -/
def Dev.idleSheet (d : Dev) (k : Nat) : Bool := match mapFind d.ecc.idleAt k with | some t => decide (t + sheetCycles ≤ d.now) | none => true
/-- The cycle `t` has come. While the PLL is unlocked the cycle count stands, so what is reported to have come has (R37, log entry 96). -/
def Dev.reached (d : Dev) (t : Nat) : Bool := !d.strk.lock || decide (t ≤ d.now)
/-- The sheet number. -/
def Dev.sheet (d : Dev) : Nat := d.strk.count / 256
/-- The stroke index. -/
def Dev.stroke (d : Dev) : Nat := d.strk.count % 256
/-- Moves to a cycle of the running stroke; the clock stands while the stroke PLL is unlocked (R37). -/
def Dev.atCycle (d : Dev) (cyc : BitVec 10) : Dev :=
  if d.strk.lock then { d with strk := { d.strk with cycle := cyc.toNat } } else d

/-- The device is starting up, and has not yet enabled fetch (R435). -/
def Dev.startingUp (d : Dev) : Bool := match d.sys.stage with | .boot | .starting _ _ => true | _ => false

/-- Stroke-clock cycles in a microsecond (R33). -/
def usCycles (us : Nat) : Nat := 125 * us

end Sys2Proof.Machine
end

