-- ==== Sys2Proof/Machine/Hatch.lean ====
section
/-! DEFINITION. Hatch tables: entries, seal masks, arming, disarming and stopping (R42, R53 to R58, R493). -/

namespace Sys2Proof.Machine

/-! ### Fields of an entry (Table 2-3) -/

def entryOwner (e : DWord) : Nat := bits e.toNat 63 60
def entryCal (e : DWord) : Bool := bit e.toNat 59
def entryScrub (e : DWord) : Bool := bit e.toNat 58
def entryMark (e : DWord) : Bool := bit e.toNat 57
def entrySusp (e : DWord) (j : Nat) : Bool := bit e.toNat (24 + j)
def entryErase (e : DWord) (j : Nat) : Bool := bit e.toNat (16 + j)
def entryProg (e : DWord) (j : Nat) : Bool := bit e.toNat (8 + j)
def entryRead (e : DWord) (j : Nat) : Bool := bit e.toNat j

/-- The reserved bits [56:32] of an entry. -/
def entryRsv (e : DWord) : Nat := bits e.toNat 56 32

/-- The die set of a target position (R43). -/
def dieSet (t : Nat) : Nat := t / 4

/-- Entry `k` of a bank (true: B). -/
def Chan.bankEntry (c : Chan) (bankB : Bool) (k : Nat) : DWord :=
  mapGet 0 (if bankB then c.hatchB else c.hatchA) k

/-- The seal mask of a bank. -/
def Chan.sealOf (c : Chan) (bankB : Bool) : Word := if bankB then c.sealB else c.sealA

/-- Scheduling governs the bus: active, and not laid aside since a loss of lock (R37). -/
def Chan.governed (c : Chan) : Bool := c.active && !c.suspended

/-- Class `k` is sealed now: the live bank's mask, no class while the channel runs unscheduled (R53), never bit 15 (R51). -/
def Chan.sealedNow (c : Chan) (k : Nat) : Bool :=
  c.governed && decide (k < 15) && bit (c.sealOf c.live).toNat k

/-- Class `k` is contracted: it owns a stroke of the live bank (R41). -/
def Chan.contracted (c : Chan) (k : Nat) : Bool :=
  c.governed && decide (k < 15) &&
    (List.range 256).any (fun i => decide (entryOwner (c.bankEntry c.live i) = k))

/-- A bank and its mask are locked: live under scheduling (R53), or under a request (R55). -/
def Chan.bankLocked (c : Chan) (bankB : Bool) : Bool :=
  (c.active && c.live == bankB) || (match c.arm with | some r => r.bank == bankB | none => false)

/-! ### Writes of a bank -/

/-- Replaces half of an entry (R30); a written entry no longer holds a storage error. -/
def Chan.putEntry (c : Chan) (bankB : Bool) (k : Nat) (high : Bool) (v : Word) : Chan :=
  let old := (c.bankEntry bankB k).toNat
  let new : DWord := BitVec.ofNat 64 (if high then setBits old 63 32 v.toNat else setBits old 31 0 v.toNat)
  let bad := c.eccBad.filter (fun x => x ≠ b2n bankB * 256 + k)
  if bankB then { c with hatchB := mapSet 0 c.hatchB k new, eccBad := bad }
  else { c with hatchA := mapSet 0 c.hatchA k new, eccBad := bad }

/-- A write to a bank entry (R53, R55). -/
def hatchEntryStore (n : Nat) (bankB : Bool) (k : Nat) (high : Bool) (v : Word) (d : Dev) : Dev :=
  if (d.chan n).bankLocked bankB then d.wrc n Fd.HATCH_STAT_WR_IGN 1
  else d.modChan n (fun c => c.putEntry bankB k high v)

/-- A write to a seal mask (R53, R55); reserved bits are kept for the check of R54. -/
def hatchSealStore (n : Nat) (bankB : Bool) (v : Word) (d : Dev) : Dev :=
  if (d.chan n).bankLocked bankB then d.wrc n Fd.HATCH_STAT_WR_IGN 1
  else d.modChan n (fun c => if bankB then { c with sealB := v } else { c with sealA := v })

/-! ### Requests -/

/-- Cycles from now to the next sheet boundary. -/
def Dev.toSheet (d : Dev) : Nat := (256 - d.stroke) * 1024 - d.strk.cycle

/-- The next sheet boundary lies less than one stroke ahead. -/
def Dev.sheetTooNear (d : Dev) : Bool := decide (d.toSheet < 1024)

/-- A target sheet (low 32 bits) is less than one stroke ahead, or not ahead at all (R54). -/
def Dev.armLate (d : Dev) (target : Nat) : Bool :=
  let diff := (target + 2 ^ 32 - d.sheet % 2 ^ 32) % 2 ^ 32
  decide (diff = 0) || decide (2 ^ 31 ≤ diff) || (decide (diff = 1) && d.sheetTooNear)

/-- Withdraws a request that is armed or being checked (R57). -/
def hatchDisarm (n : Nat) (d : Dev) : Dev := d.modChan n (fun c => { c with arm := none })

/-- STOP (R58). -/
def hatchStop (n : Nat) (d : Dev) : Dev :=
  let d := hatchDisarm n d
  let c := d.chan n
  if c.active && c.stop.isNone then d.modChan n (fun c => { c with stop := some d.sheetTooNear }) else d

/-- The request an ARM makes (R54). -/
def Dev.armRequest (d : Dev) (n : Nat) : ArmReq :=
  let c := d.chan n
  let any := d.isc n Fd.HATCH_CTL_ANYSHEET
  let sheet := d.rdc n Fd.HATCH_ARM_SHEET_SHEET
  { bank := if c.active then !c.live else d.isc n Fd.HATCH_CTL_BANK
    target := if any then .any d.sheetTooNear else .sheet sheet
    checking := true
    writtenT := d.now
    late := !any && d.armLate sheet }

/-- ARM (R54, R55, R58): ignored with WR_IGN while a request stands or a STOP waits for its boundary. -/
def hatchArm (n : Nat) (d : Dev) : Dev :=
  let c := d.chan n
  if c.arm.isSome || c.stop.isSome then d.wrc n Fd.HATCH_STAT_WR_IGN 1
  else d.modChan n (fun c => { c with arm := some (d.armRequest n) })

/-- One write to HATCH_CTL acts in the order of R493: the RW fields, DISARM, STOP, ARM. -/
def hatchCtlStore (n : Nat) (v : Nat) (d : Dev) : Dev :=
  let d := d.wrc n Fd.HATCH_CTL_MARK_IE (bits v 6 6)
  let d := d.wrc n Fd.HATCH_CTL_SW_IE (bits v 5 5)
  let d := d.wrc n Fd.HATCH_CTL_BANK (bits v 4 4)
  let d := d.wrc n Fd.HATCH_CTL_ANYSHEET (bits v 3 3)
  let d := if bit v 1 then hatchDisarm n d else d
  let d := if bit v 2 then hatchStop n d else d
  if bit v 0 then hatchArm n d else d

/-- No entry of the bank can carry a calibration step (R54, NOCAL). -/
def Chan.noCal (c : Chan) (bankB : Bool) : Bool :=
  !(List.range 256).any (fun k =>
    let e := c.bankEntry bankB k
    decide (entryOwner e = 15) && entryCal e)

/-- An entry or the seal mask of the bank has a reserved bit set (R54, RSVBIT). -/
def Chan.rsvSet (c : Chan) (bankB : Bool) : Bool :=
  (List.range 256).any (fun k => decide (entryRsv (c.bankEntry bankB k) ≠ 0)) ||
    decide (bits (c.sealOf bankB).toNat 31 16 ≠ 0)

/-- The check of R54 ends: accepted, or refused with every flag that applies. -/
def hatchCheckEnd (n : Nat) (r : ArmReq) (d : Dev) : Dev :=
  let c := d.chan n
  let nocal := c.noCal r.bank
  let rsv := c.rsvSet r.bank
  if nocal || rsv || r.late then
    let d := hatchDisarm n d
    let d := d.flagcIf nocal n Fd.HATCH_STAT_NOCAL
    let d := d.flagcIf rsv n Fd.HATCH_STAT_RSVBIT
    d.flagcIf r.late n Fd.HATCH_STAT_LATE
  else d.modChan n (fun c => { c with arm := some { r with checking := false } })

/-- RSV bits of HATCH_CTL. -/
def hatchCtlRsv (v : Nat) : Bool := decide (bits v 31 7 ≠ 0)

/-- A write of HATCH_CTL at a cycle of the running stroke. -/
def hatchCtlWrite (n v : Nat) (cyc : BitVec 10) : Dev → Except String Dev :=
  orRsv (hatchCtlRsv v) fun d => hatchCtlStore n v (d.atCycle cyc)

/-- HATCH_CTL_ARM: a write of HATCH_CTL with ARM = 1. -/
def execHatchCtlArm (ch : Fin 48) (v : Word) (cyc : BitVec 10) (s : State) : Host.Outcome State Fault Refusal :=
  onDev s (hatchCtlWrite ch (setBits v.toNat 0 0 1) cyc)

/-- HATCH_CTL_DISARM: a write of HATCH_CTL with DISARM = 1. -/
def execHatchCtlDisarm (ch : Fin 48) (v : Word) (cyc : BitVec 10) (s : State) : Host.Outcome State Fault Refusal :=
  onDev s (hatchCtlWrite ch (setBits v.toNat 1 1 1) cyc)

/-- HATCH_CTL_STOP: a write of HATCH_CTL with STOP = 1. -/
def execHatchCtlStop (ch : Fin 48) (v : Word) (cyc : BitVec 10) (s : State) : Host.Outcome State Fault Refusal :=
  onDev s (hatchCtlWrite ch (setBits v.toNat 2 2 1) cyc)

/-- HATCH_ARM_CHECK_DONE: the check ends within 256 cycles of the write (R54). -/
def execHatchArmCheckDone (ch : Fin 48) (cyc : BitVec 10) (s : State) : Host.Outcome State Fault Refusal :=
  onDev s fun d =>
    let d := d.atCycle cyc
    match (d.chan ch).arm with
    | some r =>
      if r.checking && decide (r.writtenT ≤ d.now) && decide (d.now ≤ r.writtenT + 256) then .ok (hatchCheckEnd ch r d)
      else .error "hatch check"
    | none => .error "hatch check"

/-- HATCH_ENTRY_WRITE: a 32-bit write of one half of a bank entry (R30, R53, R55). -/
def execHatchEntryWrite (ch : Fin 48) (bankB : Bool) (k : Fin 256) (high : Bool) (v : Word) (s : State) :
    Host.Outcome State Fault Refusal :=
  onDev s (always (hatchEntryStore ch bankB k high v))

/-- HATCH_SEAL_WRITE: a write of a seal mask (R53, R55). -/
def execHatchSealWrite (ch : Fin 48) (bankB : Bool) (v : Word) (s : State) : Host.Outcome State Fault Refusal :=
  onDev s (always (hatchSealStore ch bankB v))

end Sys2Proof.Machine
end

