-- ==== Sys2Proof/Machine/Operands.lean ====
section
/-! DEFINITION. The operand forms: the fields of a descriptor (Table 6-5), the address forms of the medium, the bytes of
sector metadata (Table 9-2, Table 10-1), and how bytes and words are laid out. -/

namespace Sys2Proof

open Sys2Proof.Machine

/-! ### Descriptor fields (Table 6-5) -/

def Desc.op (x : Desc) : Nat := bits x.d0.toNat 31 28
def Desc.cls (x : Desc) : Nat := bits x.d0.toNat 27 24
def Desc.target (x : Desc) : Nat := bits x.d0.toNat 23 19
def Desc.wdraw (x : Desc) : Bool := bit x.d0.toNat 18
def Desc.slc (x : Desc) : Bool := bit x.d0.toNat 17
def Desc.raw (x : Desc) : Bool := bit x.d0.toNat 16
def Desc.autoproof (x : Desc) : Bool := bit x.d0.toNat 15
def Desc.cwmask (x : Desc) : Nat := bits x.d0.toNat 11 8
def Desc.level (x : Desc) : Nat := bits x.d0.toNat 7 0
def Desc.block (x : Desc) : Nat := bits x.d1.toNat 31 20
def Desc.page (x : Desc) : Nat := bits x.d1.toNat 19 8
def Desc.plane (x : Desc) : Nat := bits x.d1.toNat 7 6
def Desc.suspMax (x : Desc) : Nat := bits x.d1.toNat 5 0
def Desc.ctx (x : Desc) : Word := x.d2
def Desc.cell (x : Desc) : Nat := bits x.d3.toNat 25 0
def Desc.plimit (x : Desc) : Nat := bits x.d4.toNat 31 16
def Desc.margin (x : Desc) : Nat := bits x.d4.toNat 15 8
def Desc.tag (x : Desc) : Word := x.d6

/-- A reserved bit of the descriptor is set. -/
def Desc.rsv (x : Desc) : Bool :=
  decide (bits x.d0.toNat 14 12 ≠ 0) || decide (bits x.d3.toNat 31 26 ≠ 0) || decide (bits x.d4.toNat 7 0 ≠ 0) ||
    decide (x.d5 ≠ 0) || decide (x.d7 ≠ 0)

def Desc.isRead (x : Desc) : Bool := decide (x.op = 1) || decide (x.op = 4)
def Desc.isPe (x : Desc) : Bool := decide (x.op = 2) || decide (x.op = 3)
def Desc.isCtl (x : Desc) : Bool := decide (x.op = 5) || decide (x.op = 6)

/-- The first codeword of a mask. -/
def maskFirst (m : Nat) : Nat := if bit m 0 then 0 else if bit m 1 then 1 else if bit m 2 then 2 else 3
/-- The codewords of a mask. -/
def maskCount (m : Nat) : Nat := b2n (bit m 0) + b2n (bit m 1) + b2n (bit m 2) + b2n (bit m 3)
/-- A mask is not empty and has no gap. -/
def maskOk (m : Nat) : Bool := decide (m ≠ 0) && decide (m = (2 ^ maskCount m - 1) * 2 ^ maskFirst m)

/-- Tags the LDPC block posts with (R259). -/
def ldpcTag (t : Word) : Bool := decide (bits t.toNat 31 28 = 14)
/-- Tags stipple posts with (R259). -/
def stippleTag (t : Word) : Bool := decide (bits t.toNat 31 28 = 15)

/-! ### Geometry of the reference die Q4 (R16, R21; log entry 13) -/

/-- The geometry of a die type (Tables 1-2, 1-3): planes, bits per cell, pages of a block in QLC mode, user and spare bytes of a plane's
page, and the division of its blocks in the order of Table 8-1. -/
structure DieType where
  planes : Nat
  bits : Nat
  pages : Nat
  pageBytes : Nat
  spareBytes : Nat
  metadata : Nat
  rescue : Nat
  conventional : Nat
  zoneRows : Nat
  spares : Nat
  deriving DecidableEq, Repr

/-- Q4, whose dies the modelled device carries. -/
def q4 : DieType :=
  { planes := 4, bits := 4, pages := 2304, pageBytes := 16384, spareBytes := 2048, metadata := 8, rescue := 4, conventional := 2
    zoneRows := 3350, spares := 236 }

/-- Blocks per die. -/
def DieType.blocks (x : DieType) : Nat := x.metadata + x.rescue + x.conventional + x.zoneRows + x.spares
/-- Sectors of a zone: 14 data members of one block each (R18). -/
def DieType.zoneSectors (x : DieType) : Nat := 14 * (x.planes * x.pages * x.pageBytes / 4096)
/-- Zones that a device of 96 die groups forms, and the rows it leaves as spares (R22). -/
def DieType.zones (x : DieType) : Nat := min 327680 (96 * x.zoneRows)
def DieType.excessRows (x : DieType) : Nat := 96 * x.zoneRows - x.zones

def q4Blocks : Nat := 3600
def q4Wordlines : Nat := 576
/-- Pages of one plane's block: 2,304, or 576 in SLC mode (R180). -/
def q4Pages (slc : Bool) : Nat := if slc then 576 else 2304
/-- Pages of a program unit (R181). -/
def unitPages (slc : Bool) : Nat := if slc then 4 else 16
/-- Sectors of a program unit (R331). -/
def unitSectors (slc : Bool) : Nat := if slc then 16 else 64
/-- The wordline of a page (R261). -/
def pageWordline (slc : Bool) (page : Nat) : Nat := if slc then page else page / 4

/-- The descriptor is malformed (R173, status 0x25). -/
def Desc.malformed (x : Desc) : Bool :=
  !(x.isRead || x.isPe || x.isCtl) || x.rsv || decide (x.tag = 0) || ((x.wdraw || x.raw) && !x.isRead) ||
    (x.isRead && !maskOk x.cwmask)

/-- A field the operation uses lies outside the geometry (R173, status 0x24). -/
def Desc.outside (x : Desc) : Bool :=
  (x.isRead && (decide (q4Blocks ≤ x.block) || decide (q4Pages x.slc ≤ x.page))) ||
    (decide (x.op = 2) && (decide (q4Blocks ≤ x.block) || decide (q4Wordlines ≤ x.page))) ||
    (decide (x.op = 3) && decide (q4Blocks ≤ x.block))

end Sys2Proof

namespace Sys2Proof.Machine

/-- Where a codeword stands in the medium: die, block, plane, page of the plane, codeword of the page. -/
def mediaKey (die block plane page cw : Nat) : Nat := (((die * 4096 + block) * 4 + plane) * 4096 + page) * 4 + cw

/-- Plane, page and codeword of sector `j` of the unit on wordline `wl` (R261). -/
def unitPlace (slc : Bool) (wl j : Nat) : Nat × Nat × Nat :=
  if slc then (j / 4, wl, j % 4) else (j / 16, 4 * wl + j / 4 % 4, j % 4)

/-! ### Sector metadata (Table 9-2, Table 10-1) -/

def mdGet (md : BitVec 512) (byte len : Nat) : Nat := md.toNat / 2 ^ (8 * byte) % 2 ^ (8 * len)
def mdSet (md : BitVec 512) (byte len v : Nat) : BitVec 512 :=
  BitVec.ofNat 512 (md.toNat - mdGet md byte len * 2 ^ (8 * byte) + v % 2 ^ (8 * len) * 2 ^ (8 * byte))

def mdKeygen (md : BitVec 512) : Nat := mdGet md 0 4
def mdNonce (md : BitVec 512) : Nat := mdGet md 4 12
def mdTag (md : BitVec 512) : Nat := mdGet md 16 16
def mdNsid (md : BitVec 512) : Nat := mdGet md 32 4
def mdFmt (md : BitVec 512) : Nat := mdGet md 36 2
def mdOrigLba (md : BitVec 512) : Nat := mdGet md 40 8
def mdStamp (md : BitVec 512) : Nat := mdGet md 48 8
def mdScrc (md : BitVec 512) : Nat := mdGet md 60 4

/-! ### Bytes and words -/

/-- Byte `i` of a number laid out little-endian. -/
def byteAt (v i : Nat) : Byte := BitVec.ofNat 8 (v / 2 ^ (8 * i))
/-- The `n` bytes of a number, the lowest first. -/
def leBytes : Nat → Nat → List Byte
  | 0, _ => []
  | n + 1, v => BitVec.ofNat 8 v :: leBytes n (v / 256)
/-- The number a list of bytes spells, the lowest first. -/
def leNat : List Byte → Nat
  | [] => 0
  | b :: bs => b.toNat + 256 * leNat bs
/-- The bytes of dwords, each little-endian. -/
def wordsBytes : List Word → List Byte
  | [] => []
  | w :: ws => leBytes 4 w.toNat ++ wordsBytes ws

/-- One step of CRC-32C over a bit (the reflected polynomial 0x82F63B78 of RFC 3720). -/
def crcBit (c : Nat) : Nat := if c % 2 = 1 then c / 2 ^^^ 0x82F63B78 else c / 2
/-- CRC-32C over a byte. -/
def crcByte (c : Nat) (b : Byte) : Nat :=
  crcBit (crcBit (crcBit (crcBit (crcBit (crcBit (crcBit (crcBit (c ^^^ b.toNat))))))))
/-- CRC-32C of a list of bytes. -/
def crc32c (bs : List Byte) : Nat := bs.foldl crcByte 0xFFFFFFFF ^^^ 0xFFFFFFFF

/-- The SCRC of a sector (Table 9-2): user bytes 0 to 4,095 and metadata bytes 0 to 59. -/
def sectorCrc (x : Sector) : Nat := crc32c (leBytes 4096 x.data.toNat ++ leBytes 60 x.md.toNat)

/-- The sector check of R250 on the sector itself. -/
def sectorOk (x : Sector) : Bool := decide (mdScrc x.md = sectorCrc x)

/-- The metadata of a write sector before it is encrypted (Table 9-2). -/
def writeMd (nsid lba stroke : Nat) : BitVec 512 :=
  mdSet (mdSet (mdSet (mdSet 0 32 4 nsid) 36 2 0x1000) 40 8 lba) 48 8 stroke

/-- A sector that pads a program unit: FMT bit 1 (Table 9-2); what its payload holds the spec does not state (log entry 124). -/
def padSector (k nsid lba stroke : Nat) : Sector :=
  let y : Sector := { data := Config.freePayload k lba, md := mdSet (writeMd nsid lba stroke) 36 2 0x1002 }
  { y with md := mdSet y.md 60 4 (sectorCrc y) }

/-- A pad sector. -/
def isPad (x : Sector) : Bool := bit (mdFmt x.md) 1

/-- A step of the reflected CRC-64 of R416, and a byte. -/
def crc64Bit (c : Nat) : Nat := if c % 2 = 1 then c / 2 ^^^ 0xC96C5795D7870F42 else c / 2
def crc64Byte (c : Nat) (b : Byte) : Nat :=
  let c := c ^^^ b.toNat
  crc64Bit (crc64Bit (crc64Bit (crc64Bit (crc64Bit (crc64Bit (crc64Bit (crc64Bit c)))))))
/-- CRC-64 with initial value and final XOR of all ones (R416). -/
def crc64 (bs : List Byte) : Nat := bs.foldl crc64Byte 0xFFFFFFFFFFFFFFFF ^^^ 0xFFFFFFFFFFFFFFFF

end Sys2Proof.Machine
end

