-- ==== Sys2Proof/Machine/Cells.lean ====
section
/-! DEFINITION. The cell pool (R143, R145, R328 to R336, R338). -/

namespace Sys2Proof.Machine

/-- On-chip cells (R329). -/
def onChipCells : Nat := 40960
/-- The handle of DRAM cell 0 (R329). -/
def firstDramHandle : Nat := 65536
/-- Cells kept out of every floor for the device (R143). -/
def deviceCells : Nat := 65536

def Pool.cell (p : Pool) (h : Nat) : Cell := mapGet Cell.empty p.cells h
def Pool.setCell (p : Pool) (h : Nat) (c : Cell) : Pool := { p with cells := mapSet Cell.empty p.cells h c }
def Pool.modCell (p : Pool) (h : Nat) (f : Cell → Cell) : Pool := p.setCell h (f (p.cell h))
def Dev.modPool (d : Dev) (f : Pool → Pool) : Dev := { d with pool := f d.pool }

/-- The link entry of a cell (Table 11-5). -/
def Cell.link (c : Cell) : DWord :=
  BitVec.ofNat 64 (b2n c.alloc * 2 ^ 63 + b2n c.dev * 2 ^ 62 + (if c.dev then 0 else c.tenant % 1024) * 2 ^ 48 +
    c.next % 2 ^ 26)

/-- The first number from `k` on that a rising list does not hold. -/
def firstGap : List Nat → Nat → Nat
  | [], k => k
  | x :: xs, k => if x < k then firstGap xs k else if x = k then firstGap xs (k + 1) else k

/-- Puts a number into a rising list. -/
def insertNat : List Nat → Nat → List Nat
  | [], k => [k]
  | x :: xs, k => if k < x then k :: x :: xs else if k = x then x :: xs else x :: insertNat xs k

/-- Moves handles from the ring to the cache: 256 at a time while the cache holds fewer than 512 (R335). -/
def Pool.ringOne (p : Pool) : Option (Nat × Pool) :=
  if p.ringFresh < p.ringEnd then some (p.ringFresh, { p with ringFresh := p.ringFresh + 1 })
  else match p.ring with
    | h :: rest => some (h, { p with ring := rest })
    | [] => none

def Pool.refill : Nat → Pool → Pool
  | 0, p => p
  | n + 1, p =>
    match p.ringOne with
    | some (h, p) => ({ p with cache := p.cache ++ [h] }).refill n
    | none => p
termination_by structural n => n

/-- The cache and the ring in balance (R335): a refill of 256 below 512 handles, a spill of 256 above 1,536. -/
def Pool.balance (p : Pool) : Pool :=
  if p.cache.length < 512 then p.refill 256
  else if 1536 < p.cache.length then { p with cache := p.cache.drop 256, ring := p.ring ++ p.cache.take 256 }
  else p

/-- A free cell: on-chip cells first, the lowest handle, then DRAM cells from the free store (R332). -/
def Pool.take (p : Pool) : Option (Nat × Pool) :=
  let k := firstGap p.onUsed 0
  if k < onChipCells then some (k, { p with onUsed := insertNat p.onUsed k })
  else
    let p := if p.cache.isEmpty then p.balance else p
    match p.cache with
    | h :: rest => some (h, ({ p with cache := rest }).balance)
    | [] => none

/-- Gives a handle back to the on-chip free set or the free store (R333). -/
def Pool.give (p : Pool) (h : Nat) : Pool :=
  if h ∈ p.spoilt then p
  else if h < onChipCells then { p with onUsed := p.onUsed.filter (fun k => k ≠ h) }
  else ({ p with cache := p.cache ++ [h] }).balance

/-- Free cells (`CELL.STAT.FREE`). -/
def Pool.free (p : Pool) : Nat :=
  if p.ready then
    onChipCells - p.onUsed.length + p.cache.length + (p.ringEnd - p.ringFresh) + p.ring.length
  else 0

/-- The cells tenant `t` holds. -/
def Pool.held (p : Pool) (t : Nat) : Nat := mapGet 0 p.used t

/-- The shared part's free cells: the pool less every tenant's unused floor and the unused device cells (R145). -/
def Dev.sharedCells (d : Dev) : Nat :=
  d.pool.free -
    ((List.range 1024).foldl (fun a t => a + (d.rdb t Fd.TEN_T_CELL_FLOOR_CELLS - d.pool.held t)) 0 +
      (deviceCells - d.pool.devUsed))

/-- `n` cells may be granted to an owner at once (R145, R332; none: the device). -/
def Dev.canGrant (d : Dev) (owner : Option Nat) (n : Nat) : Bool :=
  d.pool.ready && !d.is Fd.CELL_CTL_HOLD &&
  match owner with
  | some t =>
    let h := d.pool.held t
    decide (h + n ≤ d.rdb t Fd.TEN_T_CELL_CAP_CELLS) &&
      decide (h + n - max h (d.rdb t Fd.TEN_T_CELL_FLOOR_CELLS) ≤ d.sharedCells)
  | none => decide (n ≤ (deviceCells - d.pool.devUsed) + d.sharedCells)

/-- The grant lies within the owner's floor, so that it never waits behind another tenant (R148). -/
def Dev.withinFloor (d : Dev) (owner : Option Nat) (n : Nat) : Bool :=
  match owner with
  | some t => decide (d.pool.held t + n ≤ d.rdb t Fd.TEN_T_CELL_FLOOR_CELLS)
  | none => decide (n ≤ deviceCells - d.pool.devUsed)

/-- Takes `n` cells as a chain linked in allocation order, the owner written in every cell (R332). -/
def Pool.takeChain (owner : Option Nat) : Nat → Pool → List Nat × Pool
  | 0, p => ([], p)
  | n + 1, p =>
    match p.take with
    | some (h, p) =>
      let (rest, p) := takeChain owner n p
      let next := match rest with
        | x :: _ => x
        | [] => endOfChain
      (h :: rest, p.modCell h (fun c =>
        { c with alloc := true, dev := owner.isNone, tenant := owner.getD 0, next := next, passed := false }))
    | none => ([], p)

/-- Grants `n` cells: the head of the chain. -/
def grantCells (owner : Option Nat) (n : Nat) (d : Dev) : Nat × Dev :=
  let (hs, p) := d.pool.takeChain owner n
  let p := match owner with
    | some t => { p with used := mapMod 0 p.used t (fun k => k + hs.length) }
    | none => { p with devUsed := p.devUsed + hs.length }
  (match hs with | h :: _ => h | [] => endOfChain, { d with pool := p })

/-- Walks a chain and frees it (R333): the cells freed, and the cell at which it stopped, if it met a free one. -/
def freeWalk : Nat → Nat → Pool → Nat × Option Nat × Pool
  | 0, _, p => (0, none, p)
  | fuel + 1, h, p =>
    let c := p.cell h
    if c.alloc then
      let p := p.setCell h { c with alloc := false }
      let p := if c.dev then { p with devUsed := p.devUsed - 1 }
        else { p with used := mapMod 0 p.used c.tenant (fun k => k - 1) }
      let p := p.give h
      if c.next = endOfChain then (1, none, p)
      else
        let (k, stop, p) := freeWalk fuel c.next p
        (k + 1, stop, p)
    else (0, some h, p)

/-- Frees the chain at `h`: cells freed, whether a double free stopped it, and the device. -/
def freeChain (h : Nat) (d : Dev) : Nat × Bool × Dev :=
  let (k, stop, p) := freeWalk (d.pool.cells.length + 1) h d.pool
  let d := { d with pool := p }
  match stop with
  | some x => (k, true, ((d.wr Fd.CELL_DBL_HANDLE x).add Fd.CELL_CNT_DBL_FREE 1).wr Fd.CELL_EVT_DBL_FREE 1)
  | none => (k, false, d)

/-- Frees a chain for the device's own use. -/
def Dev.release (d : Dev) (h : Nat) : Dev := if h = endOfChain then d else (freeChain h d).2.2

/-- The cell `k` places down a chain. -/
def Pool.follow (p : Pool) : Nat → Nat → Nat
  | 0, h => h
  | k + 1, h => p.follow k (p.cell h).next
termination_by structural k => k

/-- Sector `j` of a chain (R331). -/
def Pool.sector (p : Pool) (head j : Nat) : Sector :=
  let h0 := p.follow (4 * j) head
  let h1 := (p.cell h0).next
  let h2 := (p.cell h1).next
  let h3 := (p.cell h2).next
  { data := (p.cell h3).data ++ (p.cell h2).data ++ (p.cell h1).data ++ (p.cell h0).data
    md := (p.cell h0).md }

/-- Writes sector `j` of a chain: four cells and the metadata entry of the first (R331). -/
def Pool.putSector (p : Pool) (head j : Nat) (x : Sector) : Pool :=
  let h0 := p.follow (4 * j) head
  let h1 := (p.cell h0).next
  let h2 := (p.cell h1).next
  let h3 := (p.cell h2).next
  let part (i : Nat) : BitVec 8192 := BitVec.ofNat 8192 (x.data.toNat / 2 ^ (8192 * i))
  let p := p.modCell h0 (fun c => { c with data := part 0, md := x.md })
  let p := p.modCell h1 (fun c => { c with data := part 1 })
  let p := p.modCell h2 (fun c => { c with data := part 2 })
  p.modCell h3 (fun c => { c with data := part 3 })

/-- Joins two chains, or refuses (R334): whether it was done. -/
def Pool.splice (p : Pool) (tail head : Nat) : Option Pool :=
  let a := p.cell tail
  let b := p.cell head
  if a.alloc && b.alloc && decide (a.next = endOfChain) && a.dev == b.dev && (a.dev || decide (a.tenant = b.tenant)) then
    some (p.setCell tail { a with next := head })
  else none

/-! ### The commands -/

/-- A grant of `n` cells would take its owner past its own cap (R145): it does not wait for the shared part. -/
def Dev.pastCap (d : Dev) (owner : Option Nat) (n : Nat) : Bool :=
  match owner with
  | some t => decide (d.rdb t Fd.TEN_T_CELL_CAP_CELLS < d.pool.held t + n)
  | none => false

/-- An allocation may be granted past those that wait before it (R148): none of them is of its owner, and it lies within its owner's floor or
none of them waits for the shared part. -/
def Dev.mayGrant (d : Dev) (before : List AllocReq) (r : AllocReq) : Bool :=
  d.canGrant r.owner r.count && before.all (fun b => b.owner != r.owner) &&
    (d.withinFloor r.owner r.count || before.all fun b => d.pastCap b.owner b.count)

/-- The first waiting allocation that may be granted. -/
def Dev.nextGrant (d : Dev) : List AllocReq → List AllocReq → Option AllocReq
  | _, [] => none
  | before, r :: rest => if d.mayGrant before r then some r else d.nextGrant (before ++ [r]) rest

/-- CELL_ALLOC_REQUEST: a write of CELL.ALLOC_REQ (R332). -/
def cellAllocRequest (g v : Nat) (d : Dev) : Dev :=
  let n := bits v 10 0
  let owner : Option Nat := if bit v 31 then none else some (bits v 30 21)
  if n = 0 || 1024 < n then (d.wrb g Fd.CELL_ALLOC_RES_RESULT 3).wrb g Fd.CELL_ALLOC_RES_HEAD endOfChain
  else
    let r : AllocReq := { graver := g, owner := owner, count := n }
    let d := d.modPool (fun p => { p with waiting := p.waiting.filter (fun x => x.graver ≠ g) })
    if d.mayGrant d.pool.waiting r then
      let (h, d) := grantCells owner n d
      (d.wrb g Fd.CELL_ALLOC_RES_RESULT 1).wrb g Fd.CELL_ALLOC_RES_HEAD h
    else
      let d := d.modPool (fun p => { p with waiting := p.waiting ++ [r] })
      ((d.wrb g Fd.CELL_ALLOC_RES_RESULT 2).wrb g Fd.CELL_ALLOC_RES_HEAD endOfChain).wr Fd.CELL_EVT_WAIT 1

def execCellAllocRequest (g : Fin 64) (v : Word) (s : State) : Host.Outcome State Fault Refusal :=
  onDev s (orRsv (decide (bits v.toNat 20 11 ≠ 0)) (cellAllocRequest g v.toNat))

/-- CELL_ALLOC_GRANT: the first waiting allocation that R148 lets through is granted whole (R332). -/
def execCellAllocGrant (s : State) : Host.Outcome State Fault Refusal :=
  onDev s fun d =>
    match d.nextGrant [] d.pool.waiting with
    | some r =>
      let (h, d) := grantCells r.owner r.count d
      let d := d.modPool (fun p => { p with waiting := listEraseFirst (fun x => x == r) p.waiting })
      .ok ((d.wrb r.graver Fd.CELL_ALLOC_RES_RESULT 1).wrb r.graver Fd.CELL_ALLOC_RES_HEAD h)
    | none => .error "cell grant"

/-- A write of CELL.FREE (R333). -/
def cellFree (g v : Nat) (d : Dev) : Dev :=
  let (k, dbl, d) := freeChain (bits v 25 0) d
  (d.wrb g Fd.CELL_FREE_RES_RESULT (if dbl then 2 else 1)).wrb g Fd.CELL_FREE_RES_CELLS k

/-- A write of CELL.SPLICE_H (R334). -/
def cellSplice (g v : Nat) (d : Dev) : Dev :=
  let head := bits v 25 0
  let d := d.wrb g Fd.CELL_SPLICE_H_HANDLE head
  match d.pool.splice (d.rdb g Fd.CELL_SPLICE_T_HANDLE) head with
  | some p => ({ d with pool := p }).wrb g Fd.CELL_SPLICE_RES_RESULT 1
  | none => ((d.wrb g Fd.CELL_SPLICE_RES_RESULT 2).add Fd.CELL_CNT_SPLICE_REF 1).wr Fd.CELL_EVT_SPLICE_REF 1

def execCellSplice (g : Fin 64) (v : Word) (s : State) : Host.Outcome State Fault Refusal :=
  onDev s (orRsv (decide (bits v.toNat 31 26 ≠ 0)) (cellSplice g v.toNat))

/-- The four areas of the pool (R336): start and length. -/
def Dev.poolAreas (d : Dev) : List (Nat × Nat) :=
  let n := d.rd Fd.CELL_DRAM_N_N
  [(d.base Rg.CELL_BASE_LO Rg.CELL_BASE_HI 0, 1024 * n), (d.base Rg.CELL_LINK_BASE_LO Rg.CELL_LINK_BASE_HI 0, 8 * n),
   (d.base Rg.CELL_META_BASE_LO Rg.CELL_META_BASE_HI 0, 64 * n), (d.base Rg.CELL_RING_BASE_LO Rg.CELL_RING_BASE_HI 0, 4 * n)]

/-- The base of the DRAM range (Table 1-7). -/
def dramBase : Nat := 0x1000000000

/-- The areas lie inside the addressable DRAM and apart from one another (R336). -/
def Dev.poolFits (d : Dev) : Bool :=
  d.poolAreas.all (fun a => decide (dramBase ≤ a.1) && decide (a.1 + a.2 ≤ dramBase + d.dram.mib * 2 ^ 20)) &&
    d.poolAreas.Pairwise (fun a b => a.1 + a.2 ≤ b.1 ∨ b.1 + b.2 ≤ a.1 ∨ a.2 = 0 ∨ b.2 = 0)

/-- A write of CELL.CTL (R336): setting EN checks the areas and begins the initialisation. -/
def cellCtlWrite (v : Nat) (d : Dev) : Dev :=
  let was := d.is Fd.CELL_CTL_EN
  let d := (d.wr Fd.CELL_CTL_HOLD (bits v 1 1)).wr Fd.CELL_CTL_EN (bits v 0 0)
  if bit v 0 then
    if was then d
    else if d.poolFits then d.modPool (fun p => { p with initBusy := true, cfgErr := false })
    else d.modPool (fun p => { p with cfgErr := true })
  else d.modPool (fun p => { p with ready := false, initBusy := false })

/-- CELL_POOL_ENABLE: a write of CELL.CTL with EN = 1. -/
def execCellPoolEnable (v : Word) (s : State) : Host.Outcome State Fault Refusal :=
  onDev s (orRsv (decide (bits v.toNat 31 2 ≠ 0)) (cellCtlWrite (setBits v.toNat 0 0 1)))

/-- The pool as its initialisation leaves it: every cell free, the ring filled in ascending order, READY (R336). -/
def poolReady (d : Dev) : Dev :=
  let n := d.rd Fd.CELL_DRAM_N_N
  let d := d.modPool (fun p =>
    { p with
      cells := p.cells.map (fun e => (e.1, { e.2 with alloc := false, dev := false, tenant := 0, next := 0 }))
      onUsed := p.excluded.flatMap (fun k => (List.range 1024).map (fun i => 1024 * k + i))
      cache := [], ringFresh := firstDramHandle, ringEnd := firstDramHandle + n, ring := [], ready := true,
      initBusy := false, used := [], devUsed := 0 })
  d.wr Fd.CELL_EVT_READY 1

def execCellPoolReady (s : State) : Host.Outcome State Fault Refusal :=
  onDev s fun d => onlyIf d.pool.initBusy "pool initialisation" poolReady d

/-- LINK_LO_READ: both halves of the selected link entry are taken (Table 11-16). -/
def linkLoRead (d : Dev) : Dev :=
  let e := (d.pool.cell (d.rd Fd.CELL_LINK_SEL_HANDLE)).link
  { d with pool := { d.pool with linkHi := bits e.toNat 63 32 }
           bus := { data := BitVec.ofNat 64 (bits e.toNat 31 0), err := false } }

def execLinkLoRead (s : State) : Host.Outcome State Fault Refusal := onDev s (always linkLoRead)

end Sys2Proof.Machine
end

