-- ==== Sys2Proof/Machine/Memory.lean ====
section
/-! DEFINITION. Memory: the internal address map (R27, R28), byte reads and writes, the rings hardware writes (R175). -/

namespace Sys2Proof.Machine

/-- Memory in its canonical form: addresses strictly rising, no byte equal to what an unlisted address reads as (0, log
entry 5). -/
abbrev Memory := List Host.Cell

/-- What a byte nothing has written reads as. -/
def unwritten : Byte := 0

/-- The canonical form of memory. -/
def Memory.wf (m : Memory) : Bool := mapWf unwritten m

/-- The byte at a key of memory. -/
def memGet (m : Memory) (a : Nat) : Byte := mapGet unwritten m a
/-- Writes the byte at a key. -/
def memPut (m : Memory) (a : Nat) (b : Byte) : Memory := mapSet unwritten m a b

/-- The regions of Table 1-7. -/
inductive Region where
  | localSram | bootRom | staging | keep | control | dram | unmapped
  deriving DecidableEq, Repr

/-- The region of an address, the DRAM up to its addressable capacity (R27, R28, R312). -/
def regionOf (mib a : Nat) : Region :=
  if a < 0x40000 then .localSram
  else if 0x40000000 ≤ a && a < 0x40040000 then .bootRom
  else if 0x100000000 ≤ a && a < 0x102800000 then .staging
  else if 0x102800000 ≤ a && a < 0x103000000 then .keep
  else if 0x200000000 ≤ a && a < 0x200040000 then .control
  else if 0x200100000 ≤ a && a < 0x2001D0000 then .control
  else if 0x201000000 ≤ a && a < 0x201300000 then .control
  else if dramBase ≤ a && a < dramBase + mib * 2 ^ 20 then .dram
  else .unmapped

/-- The DRAM serves accesses (R313). -/
def Dram.ready (x : Dram) : Bool := x.initDone

/-- What a byte address holds: a byte of memory, a byte of a cell's data, of its link entry, or of its metadata entry
(R329, R330). -/
inductive Place where
  | mem (key : Nat)
  | cellData (h off : Nat)
  | cellLink (h off : Nat)
  | cellMd (h off : Nat)
  deriving DecidableEq, Repr

/-- The place of an address of shared SRAM or DRAM. -/
def Dev.place (d : Dev) (a : Nat) : Place :=
  if 0x100000000 ≤ a && a < 0x102800000 then .cellData ((a - 0x100000000) / 1024) ((a - 0x100000000) % 1024)
  else if d.pool.ready then
    let n := d.rd Fd.CELL_DRAM_N_N
    let b := d.base Rg.CELL_BASE_LO Rg.CELL_BASE_HI 0
    let l := d.base Rg.CELL_LINK_BASE_LO Rg.CELL_LINK_BASE_HI 0
    let m := d.base Rg.CELL_META_BASE_LO Rg.CELL_META_BASE_HI 0
    if b ≤ a && a < b + 1024 * n then .cellData (firstDramHandle + (a - b) / 1024) ((a - b) % 1024)
    else if l ≤ a && a < l + 8 * n then .cellLink (firstDramHandle + (a - l) / 8) ((a - l) % 8)
    else if m ≤ a && a < m + 64 * n then .cellMd (firstDramHandle + (a - m) / 64) ((a - m) % 64)
    else .mem a
  else .mem a

/-- Replaces byte `i` of a number. -/
def putByte (v i : Nat) (b : Byte) : Nat := setBits v (8 * i + 7) (8 * i) b.toNat

/-- A link entry read back from its 64 bits (Table 11-5). -/
def Cell.withLink (c : Cell) (v : Nat) : Cell :=
  { c with alloc := bit v 63, dev := bit v 62, tenant := bits v 57 48, next := bits v 25 0 }

/-- The byte at an address of shared SRAM or DRAM. -/
def State.readByte (s : State) (a : Nat) : Byte :=
  match s.dev.place a with
  | .mem k => memGet s.mem k
  | .cellData h o => byteAt (s.dev.pool.cell h).data.toNat o
  | .cellLink h o => byteAt (s.dev.pool.cell h).link.toNat o
  | .cellMd h o => byteAt (s.dev.pool.cell h).md.toNat o

/-- Writes a byte at an address of shared SRAM or DRAM. -/
def State.writeByte (s : State) (a : Nat) (b : Byte) : State :=
  match s.dev.place a with
  | .mem k => { s with mem := memPut s.mem k b }
  | .cellData h o =>
    { s with dev := s.dev.modPool fun p => p.modCell h fun c => { c with data := BitVec.ofNat 8192 (putByte c.data.toNat o b) } }
  | .cellLink h o =>
    { s with dev := s.dev.modPool fun p => p.modCell h fun c => c.withLink (putByte c.link.toNat o b) }
  | .cellMd h o =>
    { s with dev := s.dev.modPool fun p => p.modCell h fun c => { c with md := BitVec.ofNat 512 (putByte c.md.toNat o b) } }

/-- An address a hardware master may reach: shared SRAM, a keep bank, or DRAM that serves accesses (R28, R313). -/
def Dev.reachable (d : Dev) (a : Nat) : Bool :=
  match regionOf d.dram.mib a with
  | .staging | .keep => true
  | .dram => d.dram.ready
  | _ => false

/-- The byte a hardware master gets: the boot ROM's, memory's, or, after a bus error (R28), a free byte (log entry 121: the spec does not
say what the master then does; the model's masters go on). -/
def State.masterByte (s : State) (a : Nat) : Byte :=
  match regionOf s.dev.dram.mib a with
  | .bootRom => Config.bootRom (a - 0x40000000)
  | _ => if s.dev.reachable a then s.readByte a else Config.freeByte 28 a s.dev.nfree

/-- A hardware master reads `n` bytes (R28). -/
def State.readBytes (s : State) : Nat → Nat → List Byte
  | 0, _ => []
  | n + 1, a => s.masterByte a :: s.readBytes n (a + 1)
termination_by structural n => n

/-- A hardware master writes bytes; a byte it cannot reach, or of the boot ROM, is not changed (R28, log entry 121). -/
def State.writeBytes (s : State) (a : Nat) : List Byte → State
  | [] => s
  | b :: bs => (if s.dev.reachable a then s.writeByte a b else s).writeBytes (a + 1) bs
termination_by structural l => l

def State.modDev (s : State) (f : Dev → Dev) : State := { s with dev := f s.dev }

/-! ### Rings (R175, R258, R269, R306) -/

/-- A ring that hardware writes: its registers and the bytes of an entry. -/
structure Ring where
  baseLo : RegDef
  baseHi : RegDef
  log2 : Fld
  head : Fld
  tail : Fld
  written : Fld
  entry : Nat
  deriving DecidableEq, Repr

def seqRing : Ring :=
  ⟨Rg.SEQ_CQ_BASE_LO, Rg.SEQ_CQ_BASE_HI, Fd.SEQ_CQ_CFG_LOG2, Fd.SEQ_CQ_HEAD_INDEX, Fd.SEQ_CQ_TAIL_INDEX, Fd.SEQ_EVT_CQ_NE, 16⟩
def escRing : Ring :=
  ⟨Rg.LDPC_ESC_BASE_LO, Rg.LDPC_ESC_BASE_HI, Fd.LDPC_ESC_CFG_LOG2, Fd.LDPC_ESC_HEAD_INDEX, Fd.LDPC_ESC_TAIL_INDEX, Fd.LDPC_EVT_ESC_NE, 32⟩
def parRing : Ring :=
  ⟨Rg.PAR_JCQ_BASE_LO, Rg.PAR_JCQ_BASE_HI, Fd.PAR_JCQ_CFG_LOG2, Fd.PAR_JCQ_HEAD_INDEX, Fd.PAR_JCQ_TAIL_INDEX, Fd.PAR_EVT_JCQ_NE, 16⟩
def ciphRing : Ring :=
  ⟨Rg.CIPH_JCQ_BASE_LO, Rg.CIPH_JCQ_BASE_HI, Fd.CIPH_JCQ_CFG_LOG2, Fd.CIPH_JCQ_HEAD_INDEX, Fd.CIPH_JCQ_TAIL_INDEX, Fd.CIPH_EVT_JCQ_NE, 16⟩

/-- The ring is full: TAIL + 1 equals HEAD, modulo its size (R175). -/
def Dev.ringFull (d : Dev) (r : Ring) (n : Nat) : Bool :=
  let m := 2 ^ d.rdc n r.log2
  decide ((d.rdc n r.tail + 1) % m = d.rdc n r.head % m)

/-- Writes one entry at the tail and advances it. -/
def ringPut (r : Ring) (n : Nat) (ws : List Word) (s : State) : State :=
  let d := s.dev
  let tail := d.rdc n r.tail
  let s := s.writeBytes (d.base r.baseLo r.baseHi n + r.entry * tail) (wordsBytes ws)
  s.modDev fun d => (d.wrc n r.tail ((tail + 1) % 2 ^ d.rdc n r.log2)).wrc n r.written 1

/-- Writes the waiting entries, in order, while the ring has room: the entries still held. -/
def ringDrain (r : Ring) (n : Nat) : List (List Word) → State → List (List Word) × State
  | [], s => ([], s)
  | e :: es, s => if s.dev.ringFull r n then (e :: es, s) else ringDrain r n es (ringPut r n e s)

def CqEntry.words (e : CqEntry) : List Word := [e.dw0, e.dw1, e.dw2, e.dw3]

/-- The completion buffer of a channel goes to its ring (R175). -/
def drainSeq (n : Nat) (s : State) : State :=
  let (left, s) := ringDrain seqRing n ((s.dev.chan n).cq.map CqEntry.words) s
  s.modDev fun d =>
    let d := d.modChan n (fun c => { c with cq := c.cq.drop (c.cq.length - left.length) })
    d.flagcIf (!left.isEmpty) n Fd.SEQ_EVT_CQ_HELD

/-- The held notices go to the notice ring (R258). -/
def drainEsc (s : State) : State :=
  let (left, s) := ringDrain escRing 0 (s.dev.ecc.notices.map Notice.words) s
  s.modDev fun d => { d with ecc := { d.ecc with notices := d.ecc.notices.drop (d.ecc.notices.length - left.length) } }

/-- The parity completions go to their ring (R269). -/
def drainPar (s : State) : State :=
  let (left, s) := ringDrain parRing 0 s.dev.par.cq s
  s.modDev fun d => { d with par := { d.par with cq := left } }

/-- The cipher job completions go to their ring (R306). -/
def drainCiph (s : State) : State :=
  let (left, s) := ringDrain ciphRing 0 s.dev.ciph.jcq s
  s.modDev fun d => { d with ciph := { d.ciph with jcq := left } }

/-- A command over the device whose completions then go to a ring. -/
def onDevThen (s : State) (f : Dev → Except String Dev) (g : State → State) : Host.Outcome State Fault Refusal :=
  match f s.dev with
  | .ok d => .next (g { s with dev := d })
  | .error e => noEvent e s

end Sys2Proof.Machine
end

