-- ==== Sys2Proof/Machine/Die.lean ====
section
/-! DEFINITION. The die sequencers: posting, what may start, completions, raising bus requests (R165 to R197, R203, R212). -/

namespace Sys2Proof.Machine

/-! ### Completions (R175 to R177, R192, R195, R196) -/

/-- Entries the completion buffer must keep free before anything new starts (R175). -/
def cqRoomNeeded : Nat := 64
/-- At least 64 of the 96 entries of the completion buffer are free (R175). -/
def Chan.cqRoom (c : Chan) : Bool := decide (c.cq.length + cqRoomNeeded ≤ 96)

/-- A completion entry (Table 6-6). -/
def mkCqEntry (x : Desc) (dup : Bool) (status dieStatus susps busy proofCw proofMax : Nat) : CqEntry :=
  { dw0 := BitVec.ofNat 32 (status * 2 ^ 24 + x.op * 2 ^ 20 + x.target * 2 ^ 15 + b2n dup * 2 ^ 14 +
      dieStatus % 256 * 2 ^ 6 + min susps 63)
    dw1 := x.tag
    dw2 := x.ctx
    dw3 := BitVec.ofNat 32 (min busy 4095 * 2 ^ 20 + min proofCw 15 * 2 ^ 16 + min proofMax 0xFFFF) }

/-- The entry with DUP = 1 (R193). -/
def CqEntry.asDup (e : CqEntry) : CqEntry := { e with dw0 := BitVec.ofNat 32 (setBits e.dw0.toNat 14 14 1) }

/-- Sets the state of a block (R195, R196). -/
def Die.setBlock (x : Die) (block st : Nat) : Die := { x with blocks := mapSet 0 x.blocks block st }
def Die.blockState (x : Die) (block : Nat) : Nat := mapGet 0 x.blocks block

/-- What a completion tells beside its status. -/
structure Done where
  status : Nat
  dieStatus : Nat := 0
  susps : Nat := 0
  busy : Nat := 0
  proofCw : Nat := 0
  proofMax : Nat := 0
  deriving DecidableEq, Repr

/-- What a completion adds to the counts of its die (Table 8-10). -/
def DieHealth.count (h : DieHealth) (status sheet stroke : Nat) : DieHealth :=
  if status = 0x12 then { h with proofFails := satAdd 0xFFFF h.proofFails 1, last := stroke }
  else if status = 0x30 then { h with timeouts := satAdd 0xFFFF h.timeouts 1, tmoAt := h.tmoAt ++ [sheet], last := stroke }
  else h

/-- The time-outs in a row of a channel after a completion: a die that answers ends the row. -/
def Chan.tmoNext (c : Chan) (status : Nat) : Nat :=
  if status = 0x30 then c.tmoRun + 1 else if status < 0x20 then 0 else c.tmoRun

/-- A descriptor completes: its entry goes to the completion buffer and the tag window (the last 32); a failed program or
erase makes its block READONLY (R196); the events of Table 6-26. Thrumlux acts on it next (R229). -/
def complete (n : Nat) (q : QDesc) (r : Done) (d : Dev) : Dev :=
  let x := q.desc
  let e := mkCqEntry x q.dup r.status r.dieStatus r.susps r.busy r.proofCw r.proofMax
  let failed := decide (r.status = 0x10) || decide (r.status = 0x11)
  let d := d.modChan n (fun c =>
    let c := { c with cq := c.cq ++ [e], tmoRun := c.tmoNext r.status }
    c.modDie x.target (fun y =>
      let y := { y with done := (e :: y.done).take 32 }
      if failed then y.setBlock x.block 1 else y))
  let d := d.modMed fun m =>
    { m with
      dies := mapMod DieHealth.fresh m.dies (dieNumber n x.target) (·.count r.status d.sheet d.strk.count)
      heard := if 2 ≤ x.op && x.op ≤ 4 then m.heard ++ [{ ch := n, desc := x, dev := q.dev, status := r.status }] else m.heard }
  let d := d.flagcIf failed n Fd.SEQ_EVT_FAIL
  d.flagcIf (decide (r.status = 0x24) || decide (r.status = 0x25)) n Fd.SEQ_EVT_BAD_DESC

/-! ### Posting (R171, R173, R193) -/

/-- Descriptors of a die that count against its 32 entries. -/
def Die.queued (x : Die) : Nat := (x.queue.filter (fun q => !q.auto)).length

/-- The status a new descriptor completes with at once, if any (R173, R197). -/
def faultOf (c : Chan) (x : Die) (desc : Desc) : Option Nat :=
  if c.retired || x.st == .retired then some 0x31
  else if desc.malformed then some 0x25
  else if x.st == .absent || desc.outside then some 0x24
  else none

/-- The tag is that of a queued, running or suspended descriptor (Table 6-9). -/
def Die.tagLive (x : Die) (t : Word) : Bool :=
  x.queue.any (fun q => q.desc.tag == t) || (match x.rd with | some r => r.q.desc.tag == t | none => false) ||
    (match x.op with | some o => o.q.desc.tag == t | none => false) || x.proofs.any (fun p => p.q.desc.tag == t) ||
    (match x.resetQ with | some q => q.desc.tag == t | none => false) ||
    x.held.any (fun h => h.q.desc.op == 4 && h.q.desc.tag == t)

/-- Marks the original of a re-posted tag (R193). -/
def Die.markDup (x : Die) (t : Word) : Die :=
  let f (q : QDesc) : QDesc := if q.desc.tag == t then { q with dup := true } else q
  { x with
    queue := x.queue.map f
    rd := x.rd.map (fun r => { r with q := f r.q })
    op := x.op.map (fun o => { o with q := f o.q })
    proofs := x.proofs.map (fun p => { p with q := f p.q })
    resetQ := x.resetQ.map f
    held := x.held.map (fun h => { h with q := f h.q }) }

/-- The completion of a tag among the last 32 completed. -/
def Die.doneTag (x : Die) (t : Word) : Option CqEntry := x.done.find? (fun e => e.dw1 == t)

/-- A descriptor is taken into its die's queue, absorbed or answered with its stored completion (R171, R173, R193). -/
def takeDesc (n : Nat) (q : QDesc) (front : Bool) (d : Dev) : Dev :=
  let t := q.desc.target
  let tag := q.desc.tag
  let c := d.chan n
  let x := c.die t
  let gone := c.retired || x.st == .retired
  let dupCount := fun d : Dev => (d.addc n Fd.SEQ_CNT_DUP_DUP 1).wrc n Fd.SEQ_EVT_DUP 1
  if !gone && tag != 0 && x.tagLive tag then dupCount (d.modDie n t (fun y => y.markDup tag))
  else
    match (if gone || tag == 0 then none else x.doneTag tag) with
    | some e => dupCount (d.modChan n (fun c => { c with dupWait := c.dupWait ++ [e.asDup] }))
    | none =>
      let q := { q with bad := faultOf c x q.desc }
      { d with ecc := { d.ecc with routed := true } }.modDie n t (fun y => { y with queue := if front then q :: y.queue else y.queue ++ [q] })

/-- A post by a graver (R171): taken if its die's queue has room, and RESULT says which. -/
def postDesc (n g : Nat) (desc : Desc) (dev : Bool) (d : Dev) : Dev :=
  if (d.die n desc.target).queued < 32 then
    takeDesc n { desc := desc, dev := dev } false (d.wrx n g Fd.SEQ_POST_STAT_RESULT 1)
  else d.wrx n g Fd.SEQ_POST_STAT_RESULT 2

/-! ### What may start (R174, R178, R181 to R191) -/

/-- Class `k` may be served in the stroke (R51, R206). -/
def Chan.served (c : Chan) (k : Nat) : Bool :=
  let own := entryOwner c.entry
  (!c.sealedNow k || decide (own = k)) && (!c.sealedNow own || decide (k = own))

/-- The sequencers run: EN = 1 and the PHY is trained, no training under way (Table 6-12). -/
def Dev.running (d : Dev) (n : Nat) : Bool :=
  d.isc n Fd.SEQ_CTL_EN && (d.chan n).trained && (d.chan n).training != .running

/-- New operations may start on the channel: running, HOLD = 0, room for completions, not retired, not a null stroke, and on a follower its
master not lost (R468). -/
def Dev.mayStartNew (d : Dev) (n : Nat) : Bool :=
  let c := d.chan n
  d.running n && !d.isc n Fd.SEQ_CTL_HOLD && c.cqRoom && !c.retired && !c.nullStroke && !d.dlk.masterLost

/-- The suspension limit of an operation (R186). -/
def Dev.suspLimit (d : Dev) (n : Nat) (x : Desc) : Nat :=
  let dflt := d.rdc n (if x.op = 3 then Fd.SEQ_SUSP_CFG_ERASE_LIMIT else Fd.SEQ_SUSP_CFG_PROG_LIMIT)
  if x.suspMax = 0 then dflt else min x.suspMax dflt

/-- The status with which a read of the block under erase or of the open wordline completes (R189, R190), or of a BAD
block (R195). -/
def Die.readRefusal (x : Die) (r : Desc) : Option Nat :=
  let onOp := match x.op with
    | some o =>
      if o.phase == .running || o.phase == .suspended then
        if o.q.desc.op = 3 && decide (o.q.desc.block = r.block) then some 0x22
        else if o.q.desc.op = 2 && decide (o.q.desc.block = r.block) &&
            decide (pageWordline r.slc r.page = o.q.desc.page) then some 0x23
        else none
      else none
    | none => none
  match onOp with
  | some s => some s
  | none => if x.blockState r.block = 2 then some 0x20 else none

/-- How a read may start on its die (R179, R181, R185, R187, R45). -/
inductive ReadMode where
  | plain | suspend | cancel | withdraw
  deriving DecidableEq, Repr

/-- SUSP_SET allows a suspension for a read of class `k` (R44). -/
def Chan.suspAllowed (c : Chan) (t k : Nat) : Bool :=
  entrySusp c.entry (dieSet t) && (decide (entryOwner c.entry = 15) || decide (entryOwner c.entry = k))

/-- How queued read `q` of die `t` may start in the current stroke, if it may. -/
def Dev.readMode (d : Dev) (n t : Nat) (q : QDesc) : Option ReadMode :=
  let c := d.chan n
  let x := c.die t
  let r := q.desc
  let susp := c.suspAllowed t r.cls && !r.wdraw &&
    (match x.op with | some o => decide (o.susps < d.suspLimit n o.q.desc) | none => false)
  if !d.mayStartNew n || q.bad.isSome || !r.isRead || x.awaitReset.isSome || (x.readRefusal r).isSome then none
  else if !entryRead c.entry (dieSet t) || !c.served r.cls || (stippleTag r.tag && !c.idleStroke) then none
  else match x.st with
    | .idle => if x.rd.isNone then some .plain else none
    | .out => if ldpcTag r.tag && x.rd.isNone then some .plain else none
    | .prog | .erase => if susp then some .suspend else none
    | .load => if susp then some .cancel else none
    | .progSusp | .eraseSusp =>
      let n' := match x.op with | some o => o.susReads | none => 0
      if !r.wdraw && x.rd.isNone && (decide (n' < d.rdc n Fd.SEQ_SUSP_CFG_READS) || ldpcTag r.tag) then some .plain
      else none
    | .read =>
      match x.rd with
      | some run => if run.q.desc.wdraw && !r.wdraw && c.contracted r.cls then some .withdraw else none
      | none => none
    | .reset | .retired | .absent => none

/-- The oldest queued read of die `t` that may start in the current stroke (R174). -/
def Dev.readCandidate (d : Dev) (n t : Nat) : Option QDesc :=
  (d.die n t).queue.find? (fun q => (d.readMode n t q).isSome)

/-- The first of the programs, erases, status and reset descriptors still queued (R174). -/
def Die.peHead (x : Die) : Option QDesc := x.queue.find? (fun q => !q.desc.isRead)

/-! ### Completing without a command sequence -/

/-- Removes the first queued descriptor with this tag and kind. -/
def Die.dropQueued (x : Die) (q : QDesc) : Die := { x with queue := listEraseFirst (fun y => y == q) x.queue }

/-- The status with which the program or erase at the head completes (R195). -/
def Die.peRefusal (x : Die) (r : Desc) : Option Nat :=
  if !r.isPe then none
  else match x.blockState r.block with
    | 1 => some 0x21
    | 2 => some 0x20
    | _ => none

/-- One descriptor of the die that completes without a command sequence now, with its status: a faulty one (R173, R197), the
oldest read if it is refused (R189, R190, R195), the program or erase at the head of the order if its block forbids it. -/
def Die.nextRefused (x : Die) : Option (QDesc × Nat) :=
  match x.queue.find? (fun q => q.bad.isSome) with
  | some q => some (q, q.bad.getD 0x25)
  | none =>
    match (match x.queue.find? (fun q => q.desc.isRead) with
        | some q => (x.readRefusal q.desc).map (fun s => (q, s))
        | none => none) with
    | some a => some a
    | none =>
      match x.peHead with
      | some q => (x.peRefusal q.desc).map (fun s => (q, s))
      | none => none

/-- A proof read of AUTOPROOF that cannot be read counts as a codeword that did not decode (R183). -/
def Die.failAutoProof (x : Die) (q : QDesc) : Die :=
  { x with
    queue := listEraseFirst (fun y => y == q) x.queue
    proofs := x.proofs.map (fun p =>
      if p.q.desc.tag == q.desc.tag then
        { p with left := p.left - 1, proofCw := p.proofCw + maskCount q.desc.cwmask, proofMax := 0xFFFF }
      else p) }

/-- The AUTOPROOF jobs that have no read left complete (R183). -/
def finishProofs (n t : Nat) : Nat → Dev → Dev
  | 0, d => d
  | fuel + 1, d =>
    match (d.die n t).proofs.find? (fun p => p.left == 0) with
    | some p =>
      let d := d.modDie n t (fun x => { x with proofs := listEraseFirst (fun y => y == p) x.proofs })
      finishProofs n t fuel (complete n p.q
        { status := if p.proofCw = 0 then 0 else 0x12, dieStatus := p.status, susps := p.susps, busy := p.busy,
          proofCw := p.proofCw, proofMax := p.proofMax } d)
    | none => d

/-- The pending request of a descriptor that completes without a command sequence is gone with it. -/
def Chan.dropAsk (c : Chan) (t : Nat) (q : QDesc) : Chan :=
  { c with pq := c.pq.filter fun r => !(r.target == t && r.tag == q.desc.tag && r.prog == !q.desc.isRead) }

/-- Completes what needs no command sequence, while the completion buffer has room (R175). -/
def settleDie (n t : Nat) : Nat → Dev → Dev
  | 0, d => d
  | fuel + 1, d =>
    if (d.chan n).cqRoom then
      match (d.die n t).nextRefused with
      | some (q, st) =>
        let d := d.modChan n fun c => c.dropAsk t q
        let d := if q.auto then d.modDie n t (fun x => x.failAutoProof q)
          else complete n q { status := st } (d.modDie n t (fun x => x.dropQueued q))
        settleDie n t fuel d
      | none => d
    else d

/-- Duplicate completions that wait for room (R175, R193). -/
def settleDups (n : Nat) : Nat → Dev → Dev
  | 0, d => d
  | fuel + 1, d =>
    let c := d.chan n
    if c.cqRoom then
      match c.dupWait with
      | e :: rest => settleDups n fuel (d.setChan n { c with cq := c.cq ++ [e], dupWait := rest })
      | [] => d
    else d

/-! ### Raising requests (R203, Table 7-1) -/

/-- A request of a die for one of its paths is pending, or holds the bus. -/
def Chan.hasReq (c : Chan) (t : Nat) (prog : Bool) : Bool :=
  c.pq.any (fun r => r.target == t && r.prog == prog) ||
    (match c.holder with | some h => h.req.target == t && h.req.prog == prog && h.moving | none => false)

/-- A new request for a descriptor, raised now. -/
def newReq (d : Dev) (kind : ReqKind) (prog : Bool) (t : Nat) (q : QDesc) (len : Nat) : Req :=
  { kind := kind, prog := prog, target := t, cls := q.desc.cls, len := len, progress := 0, age := d.now, seq := 0, wait := 0,
    forced := false, dev := q.dev && decide (q.desc.cls = 15),
    stipple := stippleTag q.desc.tag && kind == .readStart, tag := q.desc.tag }

/-- The age of a request, oldest first (R204): the cycle it was raised at, its place among those raised while the clock stands, the lower
target. -/
def Req.order (r : Req) : List Nat := [r.age, r.seq, r.target]

/-- Lexicographic order. -/
def lexLt : List Nat → List Nat → Bool
  | [], [] => false
  | [], _ :: _ => true
  | _ :: _, [] => false
  | x :: xs, y :: ys => decide (x < y) || (decide (x = y) && lexLt xs ys)

/-- Puts a request at its place by age in the pending queue (R204, R210). -/
def insertReq (r : Req) : List Req → List Req
  | [] => [r]
  | x :: xs => if lexLt r.order x.order then r :: x :: xs else x :: insertReq r xs

/-- A request that keeps its age goes back to the pending queue (R205, R210). -/
def Chan.requeue (c : Chan) (r : Req) : Chan := { c with pq := insertReq r c.pq }

/-- A new request enters the pending queue. -/
def Dev.addReq (d : Dev) (n : Nat) (r : Req) : Dev :=
  d.modChan n fun c =>
    let k := if d.strk.lock then 0 else c.arrivals
    { c.requeue { r with seq := k } with arrivals := if d.strk.lock then 0 else k + 1 }

/-- Removes the pending requests of a die on one path (R212). -/
def Chan.dropReqs (c : Chan) (t : Nat) (prog : Bool) : Chan :=
  { c with pq := c.pq.filter (fun r => !(r.target == t && r.prog == prog)) }

/-- A pending READ_START of the die asks for read `q`: its place, age and wait count stay (R214). -/
def Req.askFor (r : Req) (t : Nat) (q : QDesc) : Req :=
  if r.target == t && r.kind == .readStart then
    { r with cls := q.desc.cls, dev := q.dev && decide (q.desc.cls = 15), stipple := stippleTag q.desc.tag, tag := q.desc.tag }
  else r

/-- The read path of a die: a READ_OUT for a read whose floor has passed, else a READ_START for the oldest read that may
start in the stroke. A READ_START that is pending stands for the read path as a whole: it asks for that read, and keeps its place, its age
and its wait count (R174, R203, R214; log entry 97). -/
def raiseRead (n t : Nat) (d : Dev) : Dev :=
  let c := d.chan n
  let x := c.die t
  match d.readCandidate n t with
  | some q =>
    if c.pq.any (fun r => r.target == t && r.kind == .readStart) then
      d.modChan n fun c => { c with pq := c.pq.map fun r => r.askFor t q }
    else if c.hasReq t false then d
    else d.addReq n (newReq d .readStart false t q 0)
  | none =>
    match x.rd with
    | some run =>
      if run.polling && !c.hasReq t false then
        d.addReq n (newReq d .readOut false t run.q (maskCount run.q.desc.cwmask))
      else d
    | none => d

/-- A program or erase the die takes. -/
def PeOp.fresh (q : QDesc) (phase : PePhase) : PeOp :=
  { q := q, phase := phase, pages := 0, startT := 0, sinceT := 0, ranT := 0, floorT := 0, limitT := 0, polling := false, susps := 0,
    susReads := 0, status := 0, data := [], column := 0, encCw := 0 }

/-- Nothing of the unit is loaded (R181). -/
def PeOp.unloaded (o : PeOp) (phase : PePhase) : PeOp := { o with phase := phase, pages := 0, data := [], column := 0, encCw := 0 }

/-- A program of which nothing is loaded asks for its first load set-up. -/
def Die.loadWaits (x : Die) : Bool :=
  match x.op with
  | some o => o.phase == .waiting
  | none => true

/-- The program or erase the die holds, if any, has started (R174). -/
def Die.peStarted (x : Die) : Bool :=
  match x.op with
  | some o => o.phase == .running || o.phase == .suspended
  | none => true

/-- The program path of a die: reset of a timed-out operation, status and reset descriptors, then the operation's own needs,
then the program or erase at the head of the order (R174, R178, R181 to R184, R187, R203). -/
def raiseProg (n t : Nat) (d : Dev) : Dev :=
  let c := d.chan n
  let x := c.die t
  if c.hasReq t true then d
  else match x.awaitReset with
    | some k =>
      d.addReq n { kind := .reset, prog := true, target := t, cls := k.1, len := 0, progress := 0, age := d.now, seq := 0, wait := 0,
                   forced := false, dev := k.2, stipple := false, tag := 0 }
    | none =>
      match x.peHead with
      | some q =>
        if q.desc.isCtl && q.bad.isNone && x.st != .reset && x.peStarted && d.mayStartNew n then
          d.addReq n (newReq d (if q.desc.op = 5 then .poll else .reset) true t q 0)
        else raiseOp x d
      | none => raiseOp x d
where
  /-- What the held operation, or the head of the order, asks for. -/
  raiseOp (x : Die) (d : Dev) : Dev :=
    match x.op with
    | some o =>
      match o.phase with
      | .loading => d.addReq n (newReq d .load true t o.q 4)
      | .starting => d.addReq n (newReq d .start true t o.q 0)
      | .running => if o.polling then d.addReq n (newReq d .poll true t o.q 0) else d
      | .suspended =>
        if x.rd.isNone && x.held.isEmpty then d.addReq n (newReq d .resume true t o.q 0) else d
      | .waiting =>
        if x.st == .idle && (d.readCandidate n t).isNone && d.mayStartNew n then d.addReq n (newReq d .load true t o.q 4) else d
    | none =>
      match x.peHead with
      | some q =>
        if x.st != .idle || q.bad.isSome || (x.peRefusal q.desc).isSome || !d.mayStartNew n then d
        else if q.desc.op = 2 then
          if (d.readCandidate n t).isNone then d.addReq n (newReq d .load true t q 4) else d
        else if q.desc.op = 3 then d.addReq n (newReq d .start true t q 0)
        else d
      | none => d

/-- After anything that bears on die `t`: what needs no command sequence completes, and its requests are raised. -/
def refreshDie (n t : Nat) (d : Dev) : Dev :=
  let d := settleDie n t ((d.die n t).queue.length + 1) d
  let d := finishProofs n t ((d.die n t).proofs.length + 1) d
  let d := settleDups n ((d.chan n).dupWait.length + 1) d
  if d.running n then raiseProg n t (raiseRead n t d) else d

/-- The same for every die of the channel. -/
def refreshChan (n : Nat) (d : Dev) : Dev := forUpTo 32 (fun t d => refreshDie n t d) d

/-- A die that nothing occupies any more is idle again. -/
def Die.relax (x : Die) : Die :=
  if (x.st == .out || x.st == .read) && x.rd.isNone && x.held.isEmpty && x.awaitReset.isNone then { x with st := .idle } else x

/-- Ends what a die runs or holds suspended, with a status (R184, R197): the read, the program or erase, and the AUTOPROOF
reads still to come. -/
def endOps (n t st : Nat) (d : Dev) : Dev :=
  let x := d.die n t
  let d : Dev := match x.rd with
    | some r =>
      if r.q.auto then d.modDie n t (fun y => { (y.failAutoProof r.q) with rd := none })
      else complete n r.q { status := st, dieStatus := r.status, busy := r.busy } (d.modDie n t (fun y => { y with rd := none }))
    | none => d
  let d : Dev := match x.op with
    | some o =>
      if o.phase == .running || o.phase == .suspended then
        complete n o.q { status := st, dieStatus := o.status, susps := o.susps, busy := d.strk.ran - o.startT / 1024 }
          (d.modDie n t (fun y => { y with op := none }))
      else d
    | none => d
  d.modChan n (fun c => (c.dropReqs t false).dropReqs t true)

end Sys2Proof.Machine
end

