-- ==== Sys2Proof/Machine/Cam.lean ====
section
/-! DEFINITION. The range CAM (R339 to R353). -/

namespace Sys2Proof.Machine

/-! ### Entries (Table 12-1) -/

def camKind (x : BitVec 192) : Nat := bits x.toNat 190 189
def camPri (x : BitVec 192) : Nat := bits x.toNat 188 185
def camNsid (x : BitVec 192) : Nat := bits x.toNat 184 172
def camFirst (x : BitVec 192) : Nat := bits x.toNat 163 124
def camLast (x : BitVec 192) : Nat := bits x.toNat 123 84
def camSeq (x : BitVec 192) : Nat := bits x.toNat 63 32
def camSlot (x : BitVec 192) : Nat := bits x.toNat 16 0

/-- A WRITE entry as hardware makes it. -/
def camWriteEntry (nsid first last seq slot : Nat) : BitVec 192 :=
  BitVec.ofNat 192 (2 ^ 189 + 8 * 2 ^ 185 + nsid % 8192 * 2 ^ 172 + first % 2 ^ 40 * 2 ^ 124 + last % 2 ^ 40 * 2 ^ 84 +
    seq % 2 ^ 32 * 2 ^ 32 + slot % 2 ^ 17)

/-- A ZONE entry as hardware makes it. -/
def camZoneEntry (nsid first cp wp pf : Nat) : BitVec 192 :=
  BitVec.ofNat 192 (2 * 2 ^ 189 + 8 * 2 ^ 185 + nsid % 8192 * 2 ^ 172 + first % 2 ^ 40 * 2 ^ 124 +
    (first + 524287) % 2 ^ 40 * 2 ^ 84 + cp % 2 ^ 19 * 2 ^ 38 + wp % 2 ^ 19 * 2 ^ 19 + pf % 2 ^ 19)

def Cam.entry (c : Cam) (i : Nat) : CamEntry := mapGet CamEntry.free c.entries i
def Cam.setEntry (c : Cam) (i : Nat) (e : CamEntry) : Cam := { c with entries := mapSet CamEntry.free c.entries i e }
def Dev.modCam (d : Dev) (f : Cam → Cam) : Dev := { d with cam := f d.cam }

/-- Segment `k` is out (R352). -/
def Dev.segOff (d : Dev) (k : Nat) : Bool := bit (d.rd Fd.CAM_PART_SEG_OFF) k

/-! ### Searches (R343, R344, R351) -/

/-- A search key. -/
structure CamKey where
  mask : Nat
  nsid : Nat
  first : Nat
  last : Nat
  limit : Option Nat
  deriving DecidableEq, Repr

/-- A LIVE entry matches the key; a poisoned one matches every search. -/
def CamEntry.hits (e : CamEntry) (k : CamKey) : Bool :=
  e.poison ||
  (e.st == .live && bit k.mask (camKind e.data - 1) && decide (camKind e.data ≠ 0) && decide (camNsid e.data = k.nsid) &&
    decide (camFirst e.data ≤ k.last) && decide (k.first ≤ camLast e.data) &&
    (match k.limit with
      | some l =>
        let x := (l + 2 ^ 32 - camSeq e.data) % 2 ^ 32
        decide (1 ≤ x) && decide (x ≤ 2 ^ 31 - 1)
      | none => true))

/-- The priority of a match: 15 when poisoned (R351). -/
def CamEntry.rank (e : CamEntry) : Nat := if e.poison then 15 else camPri e.data

/-- The winner so far and one more match, in rising order of index (R344). -/
def camJoin (a : Option CamHit) (i : Nat) (e : CamEntry) : Option CamHit :=
  match a with
  | none => some { index := i, pri := e.rank, multi := false, poison := e.poison }
  | some h =>
    if h.pri < e.rank then some { index := i, pri := e.rank, multi := false, poison := e.poison }
    else if h.pri = e.rank then some { h with multi := true }
    else some h

/-- A search over the segments that are in. -/
def Dev.camSearch (d : Dev) (k : CamKey) : Option CamHit :=
  d.cam.entries.foldl (fun a e => if !d.segOff (e.1 / 4096) && e.2.hits k then camJoin a e.1 e.2 else a) none

/-- The searches of a stroke in the present band (R347). -/
def Dev.camBudget (d : Dev) : Nat :=
  256 * d.rd (match d.cam.band with
    | 0 => Fd.CAM_RATE_B0 | 1 => Fd.CAM_RATE_B1 | 2 => Fd.CAM_RATE_B2 | _ => Fd.CAM_RATE_B3)

/-- Takes one search from the stroke's budget. -/
def Dev.spendSearch (d : Dev) : Dev := d.modCam fun c => { c with left := c.left - 1 }

/-- A search is left for the next stroke (R348). -/
def Dev.deferSearch (d : Dev) : Dev := (d.add Fd.CAM_CNT_DEFER 1).wr Fd.CAM_EVT_DEFER 1

/-- The search results counted (R344, R351): MULTI, ZMULTI of a ZONE search, POISON. -/
def Dev.countHit (d : Dev) (zone : Bool) (h : Option CamHit) : Dev :=
  match h with
  | some h =>
    let d := if h.multi then d.add Fd.CAM_CNT_MULTI 1 else d
    (d.flagIf (zone && h.multi) Fd.CAM_EVT_ZMULTI).flagIf h.poison Fd.CAM_EVT_POISON
  | none => d

/-! ### Entries that hardware makes (R340 to R342) -/

/-- Entries in use of a kind: WRITE 1, ZONE 2. -/
def Dev.camUsed (d : Dev) (kind : Nat) : Nat :=
  (d.cam.entries.filter (fun e => e.2.st != .free && decide (camKind e.2.data = kind))).length

/-- The lowest free index from `k` on, in the segments that are in. -/
def Dev.camLowFree (d : Dev) : Nat → Nat → Option Nat
  | 0, _ => none
  | n + 1, k =>
    if 32768 ≤ k then none
    else if d.segOff (k / 4096) || (d.cam.entry k).st != .free || (d.cam.entry k).poison then d.camLowFree n (k + 1)
    else some k
termination_by structural n => n

/-- The highest free index below `k`. -/
def Dev.camHighFree (d : Dev) : Nat → Nat → Option Nat
  | 0, _ => none
  | _, 0 => none
  | n + 1, k + 1 =>
    if d.segOff (k / 4096) || (d.cam.entry k).st != .free || (d.cam.entry k).poison then d.camHighFree n k else some k
termination_by structural n => n

/-- Entries a search for a free one may have to pass. -/
def Dev.camFuel (d : Dev) : Nat := if d.rd Fd.CAM_PART_SEG_OFF = 0 then d.cam.entries.length + 1 else 32768

/-- Makes an entry (R349: the three steps of a hardware update are one). -/
def Dev.camMake (d : Dev) (i : Nat) (x : BitVec 192) : Dev :=
  d.modCam fun c => c.setEntry i { st := .live, poison := false, data := x }

/-- Frees an entry. -/
def Dev.camFree (d : Dev) (i : Nat) : Dev := d.modCam fun c => c.setEntry i .free

/-- The live ZONE entry of the zone that starts at `first`. -/
def Dev.zoneEntry (d : Dev) (nsid first : Nat) : Option Nat :=
  (d.cam.entries.find? (fun e =>
    e.2.st == .live && decide (camKind e.2.data = 2) && decide (camNsid e.2.data = nsid) &&
      decide (camFirst e.2.data = first))).map (·.1)

/-- WRITE entries in all, less the segments that are out (R342, R352). -/
def Dev.camWriteRoom (d : Dev) : Nat :=
  32768 - d.rd Fd.CAM_PART_ZONE_MAX - 4096 * countUpTo 8 (fun k => d.segOff k)

/-- The WRITE share of a function (R342). -/
def Dev.camShare (d : Dev) (f : Nat) : Nat := d.rdb f Fd.TEN_F_SLOT_FLOOR_SLOTS * d.camWriteRoom / 131072

/-! ### Firmware's operations (R350) -/

/-- The graver's ENT registers as one entry. -/
def Dev.camEnt (d : Dev) (g : Nat) : BitVec 192 :=
  BitVec.ofNat 192 (d.rdb g Fd.CAM_ENT_D0_DW + d.rdb g Fd.CAM_ENT_D1_DW * 2 ^ 32 + d.rdb g Fd.CAM_ENT_D2_DW * 2 ^ 64 +
    d.rdb g Fd.CAM_ENT_D3_DW * 2 ^ 96 + d.rdb g Fd.CAM_ENT_D4_DW * 2 ^ 128 + d.rdb g Fd.CAM_ENT_D5_DW * 2 ^ 160)

/-- Stores an entry into the graver's ENT registers. -/
def Dev.setCamEnt (d : Dev) (g : Nat) (x : Nat) : Dev :=
  (((((d.wrb g Fd.CAM_ENT_D0_DW x).wrb g Fd.CAM_ENT_D1_DW (x / 2 ^ 32)).wrb g Fd.CAM_ENT_D2_DW (x / 2 ^ 64)).wrb g
    Fd.CAM_ENT_D3_DW (x / 2 ^ 96)).wrb g Fd.CAM_ENT_D4_DW (x / 2 ^ 128)).wrb g Fd.CAM_ENT_D5_DW (x / 2 ^ 160)

/-- The result register after an operation other than a search. -/
def Dev.camRes (d : Dev) (g st : Nat) : Dev := d.regSet Rg.CAM_RES 0 g (st * 2 ^ 23)

/-- An entry that VALIDATE refuses. -/
def camBadEntry (x : BitVec 192) : Bool :=
  decide (camKind x = 3) || decide (bits x.toNat 171 164 ≠ 0) || decide (bits x.toNat 83 64 ≠ 0) ||
    (decide (camKind x = 1) && decide (bits x.toNat 31 17 ≠ 0)) ||
    (decide (camKind x = 2) && decide (bits x.toNat 63 57 ≠ 0)) ||
    (decide (camKind x ≠ 0) && (decide (camLast x < camFirst x) || decide (camNsid x = 0) || decide (4096 < camNsid x)))

/-- A write of CAM.OP without its GO bit: the RW fields. -/
def Dev.camOpFields (d : Dev) (g v : Nat) : Dev :=
  let d := d.wrb g Fd.CAM_OP_SEQLIM (bits v 3 3)
  if bits v 2 0 ≤ 5 then d.wrb g Fd.CAM_OP_OP (bits v 2 0) else d

def camInvalidate (g v : Nat) (d : Dev) : Dev :=
  let d := d.camOpFields g v
  let i := d.rdb g Fd.CAM_IDX_INDEX
  (d.modCam fun c => c.setEntry i { c.entry i with st := .held }).camRes g 0

def camWrite (g v : Nat) (d : Dev) : Dev :=
  let d := d.camOpFields g v
  let i := d.rdb g Fd.CAM_IDX_INDEX
  if (d.cam.entry i).st == .held then
    (d.modCam fun c => c.setEntry i { st := .held, poison := false, data := BitVec.ofNat 192 (bits (d.camEnt g).toNat 190 0) }).camRes g 0
  else d.camRes g 2

/-- VALIDATE: LIVE, FREE with KIND 0, or refused. -/
def camValidate (g v : Nat) (d : Dev) : Dev :=
  let d := d.camOpFields g v
  let i := d.rdb g Fd.CAM_IDX_INDEX
  let e := d.cam.entry i
  if e.st != .held then d.camRes g 2
  else if camBadEntry e.data then (d.camRes g 1).wr Fd.CAM_EVT_BADENT 1
  else if camKind e.data = 0 then (d.camFree i).camRes g 0
  else (d.modCam fun c => c.setEntry i { e with st := .live }).camRes g 0

def camRead (g v : Nat) (d : Dev) : Dev :=
  let d := d.camOpFields g v
  let e := d.cam.entry (d.rdb g Fd.CAM_IDX_INDEX)
  (d.setCamEnt g (setBits e.data.toNat 191 191 (b2n (e.st == .live)))).camRes g 0

/-- SEARCH from the ENT registers (R348: firmware searches come last in the stroke's budget). -/
def camFwSearch (g v : Nat) (d : Dev) : Dev :=
  let d := d.camOpFields g v
  let x := d.camEnt g
  let key : CamKey := { mask := camKind x, nsid := camNsid x, first := camFirst x, last := camLast x,
                        limit := if bit v 3 then some (camSeq x) else none }
  let h := d.camSearch key
  let d := (d.spendSearch).countHit false h
  match h with
  | some h =>
    d.regSet Rg.CAM_RES 0 g (2 ^ 31 + b2n h.multi * 2 ^ 30 + b2n h.poison * 2 ^ 29 + h.pri * 2 ^ 25 + h.index)
  | none => d.regSet Rg.CAM_RES 0 g 0

/-- A firmware search left without budget stays in OP with GO set until it is written again in a later stroke. -/
def camSearchOp (g v : Nat) (d : Dev) : Dev :=
  if d.cam.left = 0 then ((d.camOpFields g v).deferSearch).wrb g Fd.CAM_OP_GO 1
  else (camFwSearch g v d).wrb g Fd.CAM_OP_GO 0

/-- Firmware searches left over from an earlier stroke run while budget remains. -/
def camDeferred (d : Dev) : Dev :=
  forUpTo 64 (fun g d =>
    if d.rdb g Fd.CAM_OP_GO = 1 then camSearchOp g (d.regGet Rg.CAM_OP 0 g) d else d) d

/-- RSV bits of CAM.OP. -/
def camOpRsv (v : Nat) : Bool := decide (bits v 30 4 ≠ 0)

/-- A write of CAM.OP by graver `g` with GO = 1 and this operation. -/
def camOp (f : Nat → Nat → Dev → Dev) (op : Nat) (g : Fin 64) (v : Word) (s : State) : Host.Outcome State Fault Refusal :=
  onDev s (orRsv (camOpRsv v.toNat) (f g (setBits v.toNat 2 0 op)))

def execCamInvalidate (g : Fin 64) (v : Word) (s : State) : Host.Outcome State Fault Refusal := camOp camInvalidate 1 g v s
def execCamWrite (g : Fin 64) (v : Word) (s : State) : Host.Outcome State Fault Refusal := camOp camWrite 2 g v s
def execCamValidate (g : Fin 64) (v : Word) (s : State) : Host.Outcome State Fault Refusal := camOp camValidate 3 g v s
def execCamRead (g : Fin 64) (v : Word) (s : State) : Host.Outcome State Fault Refusal := camOp camRead 4 g v s
def execCamSearch (g : Fin 64) (v : Word) (s : State) : Host.Outcome State Fault Refusal := camOp camSearchOp 5 g v s

end Sys2Proof.Machine
end

