-- ==== Sys2Proof/Machine/Host.lean ====
section
/-! DEFINITION. The host interface's shared operations: functions, slots, completions, events, deferred errors
(R66 to R103, R141, R142, R147). -/

namespace Sys2Proof.Machine

/-! ### Access -/

def Dev.modHost (d : Dev) (f : HostIf → HostIf) : Dev := { d with host := f d.host }
def Dev.func (d : Dev) (f : Nat) : Func := mapGet Func.reset d.host.funcs f
def Dev.modFunc (d : Dev) (f : Nat) (g : Func → Func) : Dev :=
  d.modHost fun h => { h with funcs := mapMod Func.reset h.funcs f g }
def Dev.slot? (d : Dev) (k : Nat) : Option Slot := mapFind d.host.slots k
def Dev.setSlot (d : Dev) (k : Nat) (x : Slot) : Dev := d.modHost fun h => { h with slots := mapInsert h.slots k x }
def Dev.modSlot (d : Dev) (k : Nat) (g : Slot → Slot) : Dev :=
  match d.slot? k with
  | some x => d.setSlot k (g x)
  | none => d
def Dev.dropSlot (d : Dev) (k : Nat) : Dev := d.modHost fun h => { h with slots := mapErase h.slots k }
def Dev.port (d : Dev) (p : Nat) : Port := mapGet Port.reset d.host.ports p
def Dev.modPort (d : Dev) (p : Nat) (g : Port → Port) : Dev :=
  d.modHost fun h => { h with ports := mapMod Port.reset h.ports p g }

/-! ### Functions (R66, R69) -/

/-- The link is two x8 ports (R66): the mode taken at the last cold reset. -/
def Dev.dual (d : Dev) : Bool := d.host.dual
/-- The port of a function. -/
def Dev.portOf (d : Dev) (f : Nat) : Nat := if f = 1025 || (d.dual && decide (513 ≤ f)) then 1 else 0
def isPf (f : Nat) : Bool := decide (f = 0) || decide (f = 1025)
/-- The IDE stream that carries a function's traffic: the Selective stream that the host's association registers give it (free, log entry
100) where that stream has been set up, else the Link stream 0. -/
def Dev.streamOf (d : Dev) (f : Nat) : Nat :=
  let p := d.port (d.portOf f)
  let s := Config.selectiveStream f % 9
  if s ∈ p.secure || s ∈ p.insecure then s else 0
/-- The stream that carries the function's traffic is in the Insecure state: no request is issued on it (R71). -/
def Dev.insecure (d : Dev) (f : Nat) : Bool := decide (d.streamOf f ∈ (d.port (d.portOf f)).insecure)
/-- The function is being disabled, or its link stream is Insecure: nothing is issued on its behalf (R71, R101). -/
def Dev.mute (d : Dev) (f : Nat) : Bool := (d.func f).stopping || d.insecure f
/-- Sends something out. -/
def Dev.send (d : Dev) (o : Out) : Dev :=
  match o with
  | .sqeRead f _ _ | .hostRead f _ | .hostSector f _ _ _ | .hostBytes f _ _ | .cqe f _ _ _ | .msix f _ =>
    if d.mute f then d else { d with out := o :: d.out }
  | _ => { d with out := o :: d.out }
/-- A write to host memory that carries the Relaxed Ordering attribute: read data alone, where the function has it enabled (R68). -/
def Out.relaxed : Out → Bool
  | .hostSector f _ _ _ => Config.relaxedOrdering f
  | _ => false
/-- The number of a VF on its port. -/
def Dev.vfNumber (d : Dev) (f : Nat) : Nat := if d.dual && decide (513 ≤ f) then f - 512 else f
/-- The function exists: a PF of a port that is there, or a VF covered by NumVFs with VF Enable set (Table 3-19). -/
def Dev.present (d : Dev) (f : Nat) : Bool :=
  if f = 0 then true
  else if f = 1025 then d.dual
  else
    let p := d.port (d.portOf f)
    decide (f ≤ 1024) && p.vfEnable && decide (d.vfNumber f ≤ p.numVfs)
/-- The functions 0 to 1,025. -/
def allFuncs : List Nat := List.range 1026
/-- The VFs of a port. -/
def Dev.vfsOf (d : Dev) (p : Nat) : List Nat := allFuncs.filter fun f => !isPf f && decide (d.portOf f = p)

end Sys2Proof.Machine

namespace Sys2Proof

open Sys2Proof.Machine

/-! ### Fields of a submission entry -/

/-- Starting LBA, CDW10 and CDW11. -/
def Sqe.slba (x : Sqe) : Nat := x.cdw10.toNat + x.cdw11.toNat * 2 ^ 32
/-- Sectors, CDW12[15:0] plus one. -/
def Sqe.nlb (x : Sqe) : Nat := bits x.cdw12.toNat 15 0 + 1
/-- FNC, CDW12[16] (R89). -/
def Sqe.fnc (x : Sqe) : Bool := bit x.cdw12.toNat 16
/-- The placement handle, CDW13[19:16] (R109). -/
def Sqe.handle (x : Sqe) : Nat := bits x.cdw13.toNat 19 16
/-- DTYPE, CDW12[23:20] (R109). -/
def Sqe.dtype (x : Sqe) : Nat := bits x.cdw12.toNat 23 20
/-- The landing token, CDW15:CDW14 (R128). -/
def Sqe.token (x : Sqe) : Nat := x.cdw14.toNat + x.cdw15.toNat * 2 ^ 32
def Sqe.op (x : Sqe) : Nat := x.opc.toNat

end Sys2Proof

namespace Sys2Proof.Machine

/-- Sectors of a zone of LBA space (R104). -/
def zoneSpan : Nat := 524288
/-- Capacity of a zone on Q4 (R104). -/
def zoneCap : Nat := 516096

/-! ### Completions -/

/-- A completion; where the spec gives no Do Not Retry it is free (log entry 9). -/
def stat (sct sc : Nat) : Cpl := { sct := sct, sc := sc, dnr := Config.dnr (256 * sct + sc), dw0 := 0, dw1 := 0 }
def success : Cpl := { sct := 0, sc := 0, dnr := false, dw0 := 0, dw1 := 0 }
def successWith (v : Nat) : Cpl := { success with dw0 := BitVec.ofNat 32 v }
def stInvalidOpcode : Cpl := stat 0 1
def stInvalidField : Cpl := stat 0 2
def stInvalidNs : Cpl := stat 0 0xB
def stLbaRange : Cpl := stat 0 0x80
def stInvalidQid : Cpl := stat 1 1
/-- The vendor codes of Table 4-8 carry DNR = 1 (R139). -/
def stVendor (sc : Nat) : Cpl := { stat 7 sc with dnr := true }

/-- A tag of a descriptor that the host read path or Thrumlux posts. -/
def Dev.hostTag (d : Dev) : Nat × Dev :=
  (d.host.tag % 0xDFFFFFFF + 1, d.modHost fun h => { h with tag := h.tag + 1 })

/-- A command's completion is formed. -/
def finish (k : Nat) (c : Cpl) (d : Dev) : Dev := d.modSlot k fun x => { x with phase := .due, cpl := some c }

/-! ### Asynchronous events (R84, R99, R118) -/

/-- The outstanding Asynchronous Event Request of a function that was fetched first. -/
def Dev.aer (d : Dev) (f : Nat) : Option Nat :=
  (d.host.slots.foldl (fun (a : Option (Nat × Nat)) e =>
    if e.2.fn = f && e.2.qid = 0 && e.2.sqe.op = 0x0C && e.2.phase == .asleep then
      (match a with
        | some b => if e.2.seq < b.2 then some (e.1, e.2.seq) else some b
        | none => some (e.1, e.2.seq))
    else a) none).map (·.1)

/-- Completes an outstanding request of the function with the event, unless the event is masked until its log is read. -/
def raiseEvent (f : Nat) (e : AsyncEvent) (d : Dev) : Dev :=
  if e.log ∈ (d.func f).masked && e.log ≠ 0 then d
  else match d.aer f with
    | some k =>
      let d := finish k (successWith (e.log * 65536 + e.info * 256 + e.kind)) d
      if e.log = 0 then d else d.modFunc f fun x => { x with masked := listAdd x.masked e.log }
    | none => d

/-- A feature's stored value. -/
def Func.feat (x : Func) (id dflt : Nat) : Nat := (mapFind x.feats id).getD dflt

/-! ### Events for etchings (R379) -/

/-- The event classes of EV_NEXT, in the order of Table 13-8: media health, zone state, pace miss, bucket crossing. -/
def etchHealth : Nat := 0
def etchZone : Nat := 1
def etchPace : Nat := 2
def etchBucket : Nat := 3

/-- The next event of a class goes to each etching that waits for it; the layout of records that no table gives is left open. -/
def tellEtchings (cls : Nat) (rec : List Byte) (d : Dev) : Dev :=
  { d with grv := { d.grv with etch := d.grv.etch.map fun e =>
      match e.2.waiting with
      | some (_, mask) => if bit mask cls && e.2.events.isEmpty then (e.1, { e.2 with events := [(cls, rec)] }) else e
      | none => e } }

/-! ### Namespaces (R142) -/

def Dev.ns? (d : Dev) (n : Nat) : Option Ns := mapFind d.zm.ns n
def Dev.modZm (d : Dev) (f : Zm → Zm) : Dev := { d with zm := f d.zm }
def Dev.modNs (d : Dev) (n : Nat) (g : Ns → Ns) : Dev :=
  match d.ns? n with
  | some x => d.modZm fun z => { z with ns := mapInsert z.ns n (g x) }
  | none => d
/-- The namespace of a command, where it is attached to the issuing function. -/
def Dev.nsOf (d : Dev) (f n : Nat) : Option Ns :=
  match d.ns? n with
  | some x => if f ∈ x.attached then some x else none
  | none => none
/-- The tenant of a function (R141). -/
def Dev.tenantOf (d : Dev) (f : Nat) : Nat := d.rdb f Fd.TEN_F_CFG_TENANT

/-! ### Deferred write errors (R97 to R100) -/

/-- One record for a function; the 256 most recent are kept (R100). -/
def addDwe (r : DweRec) (d : Dev) : Dev :=
  d.modHost fun h =>
    let mine := h.dwe.filter fun x => decide (x.fn = r.fn)
    let full := decide (256 ≤ mine.length)
    let old := mine.getLast?
    let dwe := match full, old with
      | true, some o => listEraseFirst (fun x => x == o) (h.dwe.reverse) |>.reverse
      | _, _ => h.dwe
    { h with
      dwe := r :: dwe
      dweTotal := mapMod 0 h.dweTotal r.fn (· + 1)
      dweLost := if full && old.any (fun o => !o.read) then mapMod 0 h.dweLost r.fn (satAdd 0xFFFF 1) else h.dweLost }

/-- An Error Information entry of a function (ELPE: the 64 most recent). -/
def addErr (f sqid cid status lba nsid : Nat) (d : Dev) : Dev :=
  d.modFunc f fun x =>
    { x with
      errCount := x.errCount + 1
      errs := ({ count := x.errCount + 1, sqid := sqid, cid := cid, status := status, lba := lba, nsid := nsid } :: x.errs).take 64 }

/-- SQ and CID of the write that all of a range came from; 0xFFFF where they are not known: after replay, or where the range is of
several writes, of copies or of a conventional namespace (Table 3-11, log entry 101). -/
def Dev.originOf (d : Dev) (nsid slba nlb cause : Nat) : Nat × Nat :=
  let s := slba % zoneSpan
  match cause, (mapGet Zone.fresh d.zm.zones (nsid * 2 ^ 20 + slba / zoneSpan)).wrote.find? fun w =>
      decide (w.first ≤ s) && decide (s + nlb ≤ w.first + w.n) with
  | 3, _ => (0xFFFF, 0xFFFF)
  | _, some w => (w.sqid, w.cid)
  | _, none => (0xFFFF, 0xFFFF)

/-- Acknowledged data of a namespace is lost (R97, R99): one record for every attached function. -/
def deferredError (nsid slba nlb cause : Nat) (d : Dev) : Dev :=
  let (sqid, cid) := d.originOf nsid slba nlb cause
  match d.ns? nsid with
  | none => d
  | some ns =>
    let d := d.modNs nsid fun y => { y with mediaErrs := y.mediaErrs + 1 }
    let d := ns.attached.foldl (fun d f =>
      let seq := d.host.dweSeq
      let told := bit ((d.func f).feat 0x0B 0) 31 && (d.aer f).isSome && !decide (0xC2 ∈ (d.func f).masked)
      let d := addDwe { seq := seq, mark := d.host.seq, fn := f, nsid := nsid, sqid := sqid, cid := cid, slba := slba, nlb := nlb, cause := cause,
                        delivered := false, announced := told, stroke := d.strk.count,
                        zslba := if ns.zoned then slba / zoneSpan * zoneSpan else 0, read := false } d
      let d := addErr f sqid cid (7 * 256 + 0xC0) slba nsid d
      let d := d.modHost fun h => { h with dweSeq := seq + 1 }
      if told then raiseEvent f { kind := 7, info := 0xC0, log := 0xC2 } d else d) d
    d.wr Fd.HQ_EVT_DWE 1

/-- The oldest record that awaits delivery to this function for this namespace and was made before the command with this fetch
number was fetched (R98). -/
def Dev.dweDue (d : Dev) (f n seq : Nat) : Option DweRec :=
  d.host.dwe.foldl (fun a r =>
    if r.fn = f && r.nsid = n && !r.delivered && r.mark < seq then
      (match a with
        | some b => if r.seq < b.seq then some r else some b
        | none => some r)
    else a) none

/-- A command to which a record may be delivered (R98). -/
def Slot.takesDwe (x : Slot) : Bool := decide (x.qid ≠ 0) && decide (x.sqe.op ∈ [0x00, 0x01, 0x08, 0x7D]) && !x.conflict

/-- An eligible command of the function to the namespace that was fetched earlier has not been examined: the record is for it (R98). -/
def Dev.dweBehind (d : Dev) (x : Slot) : Bool :=
  d.host.slots.any fun e => decide (e.2.seq < x.seq) && decide (e.2.fn = x.fn) && e.2.sqe.nsid == x.sqe.nsid && e.2.takesDwe &&
    (e.2.phase == .fetched || (e.2.phase == .waiting && decide (e.2.total = 0) && e.2.landing.isNone))

/-- Delivers a record through a command, which is not executed (R98). -/
def deliverDwe (k : Nat) (r : DweRec) (d : Dev) : Dev :=
  let d := d.modHost fun h => { h with dwe := h.dwe.map fun x => if x == r then { x with delivered := true } else x }
  finish k { sct := 7, sc := 0xC0, dnr := false, dw0 := BitVec.ofNat 32 r.seq, dw1 := 0 } d

/-! ### Command slots (R81, R147) -/

/-- Slots a function holds, those set aside for issued reads included. -/
def Dev.slotsOf (d : Dev) (f : Nat) : Nat :=
  (d.host.slots.filter fun e => decide (e.2.fn = f)).length + (d.host.issued.filter fun i => decide (i.fn = f)).length
/-- Slots in use across the device. -/
def Dev.slotsUsed (d : Dev) : Nat := d.host.slots.length + d.host.issued.length
/-- The unused floors of all functions (R147). -/
def Dev.floorsOwed (d : Dev) : Nat :=
  allFuncs.foldl (fun a f =>
    let fl := d.rdb f Fd.TEN_F_SLOT_FLOOR_SLOTS
    if fl = 0 then a else a + (fl - d.slotsOf f)) 0
/-- The function may take a slot. -/
def Dev.slotFor (d : Dev) (f : Nat) : Bool :=
  let h := d.slotsOf f
  let fl := d.rdb f Fd.TEN_F_SLOT_FLOOR_SLOTS
  decide (h < fl) || (decide (h < d.rdb f Fd.TEN_F_SLOT_CAP_SLOTS) && decide (d.slotsUsed + d.floorsOwed < 131072))
/-- The lowest slot number free. -/
def Dev.freeSlot (d : Dev) : Nat :=
  firstGap ((d.host.slots.map (·.1)).foldl insertNat ((d.host.issued.map (·.slot)).foldl insertNat [])) 0

/-! ### Which row serves an entry (R73) -/

/-- An admin command of Table 3-4 for this function. -/
def adminKnown (f op : Nat) : Bool :=
  op ∈ [0x00, 0x01, 0x02, 0x04, 0x05, 0x06, 0x08, 0x09, 0x0A, 0x0C] ||
    (isPf f && op ∈ [0x10, 0x11, 0x14, 0x1D, 0x1E, 0x80, 0x84, 0xC1, 0xC2])
/-- An I/O command of Table 3-5. -/
def ioKnown (op : Nat) : Bool := op ∈ [0x00, 0x01, 0x02, 0x08, 0x0C, 0x79, 0x7A, 0x7D, 0x83]

/-- Actions and codes the tables give a row; any other completes with Invalid Field in Command. -/
def actionKnown (qid : Nat) (x : Sqe) : Bool :=
  if qid = 0 then
    (if x.op = 0x10 then bits x.cdw10.toNat 5 3 ∈ [0, 1, 2, 3]
     else if x.op = 0x14 then bits x.cdw10.toNat 3 0 ∈ [1, 2, 0xF]
     else true)
  else
    (if x.op = 0x79 then bits x.cdw13.toNat 7 0 ∈ [1, 2, 3, 4, 5, 0x80]
     else if x.op = 0x7A then bits x.cdw13.toNat 7 0 ∈ [0, 1, 0x80]
     else true)

/-- A slot at its fetch. -/
def newSlot (f qid : Nat) (x : Sqe) (seq : Nat) (maint : Bool) : Slot :=
  { fn := f, qid := qid, sqe := x, seq := seq, phase := .fetched, committed := false, cpl := none, after := [], maint := maint,
    conflict := false, left := 0, total := 0, bad := none, zone := none, start := 0, chain := endOfChain, share := none,
    arrived := [], landing := none, cam := none, headT := none, single := false, reread := false, suspHit := false,
    held := false }

/-- A slot in a phase with this opcode and queue kind. -/
def Slot.is (x : Slot) (admin : Bool) (op : Nat) : Bool := decide (x.qid = 0) == admin && decide (x.sqe.op = op)

/-- The command of a slot awaits its row. -/
def Slot.pend (x : Slot) : Bool := x.phase == .fetched || x.phase == .waiting

/-- The sectors of an image's unit meet a range of LBAs of a namespace. -/
def FlushUnit.meets (u : FlushUnit) (nsid slba nlb : Nat) : Bool :=
  decide (u.nsid = nsid) && decide (u.lba < slba + nlb) && decide (slba < u.lba + u.sectors.length)

/-- After a PS4 exit, until the full restore, a command waits as Table 15-8 gives; a read waits for sectors held in the flush image, and
for its namespace's key where the keep bank that held its blob is bad, for zones, block states and the remap where theirs is (R414, R417). -/
def Dev.restoreHolds (d : Dev) (x : Slot) : Bool :=
  let nsid := x.sqe.nsid.toNat
  let zoned := match mapFind d.zm.ns nsid with | some ns => ns.zoned | none => true
  let keyed := decide (24 + (nsid - 1) * 128 / 262144 ∉ d.pwr.badBanks)
  let tables := d.pwr.badBanks.all fun b => decide (b < 2 ∨ 23 < b)
  d.pwr.restoring &&
    (if x.qid = 0 then x.sqe.op = 0xC1 || x.sqe.op = 0xC2
     else if !zoned || !keyed || !tables then true
     else match x.sqe.op with
       | 0x02 | 0x0C => d.nvm.images.any fun m => m.units.any fun u => u.meets nsid x.sqe.slba x.sqe.nlb
       | 0x7A => false
       | _ => true)

/-- A command row on slot `k`: `g` gets the slot, which holds a command of this kind that has not been taken up yet. -/
def onSlot (k : Nat) (admin : Bool) (op : Nat) (g : Slot → Dev → Except String Dev) (d : Dev) : Except String Dev :=
  match d.slot? k with
  | some x =>
    if x.is admin op && x.pend then (if d.restoreHolds x then .ok (d.modSlot k fun x => { x with phase := .waiting }) else g x d) else .error "command"
  | none => .error "command"

end Sys2Proof.Machine
end

