-- ==== Sys2Proof/Machine/Link.lean ====
section
/-! DEFINITION. The Dalesk link: ports, routes, flits in order, replay, and the requests and responses that other blocks send over it
(R456 to R461, R463). -/

namespace Sys2Proof.Machine

def Dev.modDlk (d : Dev) (f : Dlk → Dlk) : Dev := { d with dlk := f d.dlk }
def Dev.dlkPort (d : Dev) (p : Nat) : DlkPort := mapGet DlkPort.reset d.dlk.ports p
def Dev.modDlkPort (d : Dev) (p : Nat) (f : DlkPort → DlkPort) : Dev :=
  d.modDlk fun x => { x with ports := mapMod DlkPort.reset x.ports p f }

/-- Devices admitted to the cascade, this one included. -/
def Dev.cascade (d : Dev) : Nat := 1 + d.dlk.admitted.length
/-- The closed ring is expected (R455). -/
def Dev.isRing (d : Dev) : Bool := d.is Fd.DLK_CTL_RING

/-! ### Virtual channels and routes (R457, R458) -/

/-- Virtual channels: owned read sectors; media requests, write data and bulk traffic; management. -/
def vcOwned : Nat := 0
def vcMedia : Nat := 1
def vcManage : Nat := 2

/-- The port with the fewer hops to a position: 0 is DLK_DN, 1 is DLK_UP. -/
def Dev.nearPort (d : Dev) (pos : Nat) : Nat :=
  if d.isRing && decide (d.sys.role = 0) then (if pos ≤ d.cascade - pos then 0 else 1)
  else if d.sys.role < pos then 0 else 1

/-- The port that frames to a position leave by: on a ring the other direction, once the nearer link is lost (R466). -/
def Dev.portTo (d : Dev) (pos : Nat) : Nat :=
  let p := d.nearPort pos
  if (d.dlkPort p).up || !d.isRing || !(d.dlkPort (1 - p)).up then p else 1 - p

/-! ### Flits (R458 to R460) -/

/-- Data flits that a replay buffer holds. -/
def replayRoom : Nat := 1024
/-- Accepted flits after which an ACK is sent at the latest. -/
def ackEvery : Nat := 64
/-- Replays in a row from one flit that take a port down. -/
def maxReplays : Nat := 8

/-- A flit as its 256 bytes (Table 17-2): SEQ, ROUTE, the payload, CRC-64 over bytes 0 to 243, and the lanes' FEC parity. -/
def flitImage (f : DlkFlit) : List Byte :=
  let head := leBytes 2 (f.kind.val * 4096 + f.seq.toNat) ++ leBytes 2 (f.dst.val * 64 + f.src.val * 16 + f.vc.val * 4) ++ leBytes 240 f.payload.toNat
  let body := head ++ leBytes 8 (crc64 head)
  body ++ leBytes 4 (Config.laneFec body).toNat

/-- The oldest ready flit of the lowest-numbered virtual channel that has one. -/
def nextFlit (fs : List DlkFlit) : Option DlkFlit :=
  match fs.find? (fun f => decide (f.vc.val = 0)), fs.find? (fun f => decide (f.vc.val = 1)) with
  | some f, _ => some f
  | none, some f => some f
  | none, none => fs.head?

/-- Sends ready flits while the port is up and the replay buffer has room. -/
def transmit (p : Nat) : Nat → Dev → Dev
  | 0, d => d
  | n + 1, d =>
    let x := d.dlkPort p
    if x.up && decide (x.unacked.length < replayRoom) then
      match nextFlit x.ready with
      | some f =>
        let g := { f with seq := BitVec.ofNat 12 x.tx }
        let d := d.modDlkPort p fun x => { x with
          ready := listEraseFirst (fun y => y == f) x.ready, unacked := x.unacked ++ [g], tx := (x.tx + 1) % 4096 }
        transmit p n (d.send (.flit p (flitImage g)))
      | none => d
    else d

/-- Flits become ready on a port. -/
def enqueueFlits (p : Nat) (fs : List DlkFlit) (d : Dev) : Dev :=
  let d := d.modDlkPort p fun x => { x with ready := x.ready ++ fs }
  transmit p (d.dlkPort p).ready.length d

/-- Payload bytes of a flit. -/
def flitBytes : Nat := 240

/-- Bytes in pieces of one flit's payload. -/
def flitPieces : Nat → List Byte → List (List Byte)
  | 0, _ => []
  | n + 1, bs => if bs.isEmpty then [] else bs.take flitBytes :: flitPieces n (bs.drop flitBytes)

/-- A message goes out as flits; its layout in them is left open. -/
def sendMessage (pos id vc : Nat) (body : List Byte) (d : Dev) : Dev :=
  let bs := Config.encode 0x1700 (id :: body.map (·.toNat))
  let fs := (flitPieces bs.length bs).map fun b =>
    ({ kind := 1, seq := 0, dst := Fin.ofNat 4 pos, src := Fin.ofNat 4 d.sys.role, vc := Fin.ofNat 3 vc, payload := BitVec.ofNat 1920 (leNat b),
       ok := true } : DlkFlit)
  enqueueFlits (d.portTo pos) fs (d.send (.dlk pos id body))

/-! ### Requests and responses (R461) -/

/-- The ID that the next request to a position carries. -/
def Dev.nextAsk (d : Dev) (pos : Nat) : Nat := mapGet 0 d.dlk.nextId pos

/-- A request is sent to another device and kept until its response arrives. -/
def askDlk (pos vc : Nat) (body : List Byte) (d : Dev) : Dev :=
  let id := d.nextAsk pos
  sendMessage pos id vc body (d.modDlk fun x => { x with
    nextId := mapSet 0 x.nextId pos ((id + 1) % 2 ^ 32), asked := x.asked ++ [{ pos := pos, id := id, vc := vc, body := body }] })

/-- A media request of the master; its response finds it by its ID. -/
def askMedia (m : DlkMove) (body : List Nat) (d : Dev) : Dev :=
  let id := d.nextAsk m.pos
  let k := match m.kind with | .cells => 0 | .program => 1 | .read => 2 | .other => 3
  (askDlk m.pos vcMedia (Config.encode (0x1710 + k) body) d).modDlk fun x => { x with moves := x.moves ++ [{ m with id := id }] }

/-- A response is sent, and held with its request's ID among the last 4,096 of its position. -/
def respondDlk (pos id vc : Nat) (body : List Byte) (d : Dev) : Dev :=
  sendMessage pos id vc body (d.modDlk fun x => { x with held :=
    { pos := pos, id := id, vc := vc, body := body } :: ((x.held.filter fun m => decide (m.pos = pos)).take 4095 ++
      x.held.filter fun m => decide (m.pos ≠ pos)) })

/-- A response arrived: its request is no longer kept. -/
def answered (pos id : Nat) (d : Dev) : Dev :=
  d.modDlk fun x => { x with
    asked := x.asked.filter fun m => !(decide (m.pos = pos) && decide (m.id = id))
    moves := x.moves.filter fun m => !(decide (m.pos = pos) && decide (m.id = id)) }

/-- Requests to a position, or to every one, are sent again under their own IDs (R461). -/
def resend (p : DlkMsg → Bool) (d : Dev) : Dev :=
  (d.dlk.asked.filter p).foldl (fun (d : Dev) m => sendMessage m.pos m.id m.vc m.body d) d

/-! ### What a follower reports of media work (R461, R463) -/

/-- A sector, or its loss, goes back to the device that asked for the read with this tag. -/
def sendFar (tag vc kind : Nat) (body : List Nat) (d : Dev) : Dev :=
  match d.dlk.posted.find? fun p => decide (p.tag = tag) with
  | some p => respondDlk p.pos p.id vc (Config.encode kind (p.id :: body)) d
  | none => d

/-- Completions of a channel whose descriptors came from another device are reported to it. -/
def farDone (n : Nat) (d : Dev) : Dev :=
  if d.dlk.posted.isEmpty then d
  else (d.chan n).cq.foldl (fun (d : Dev) e =>
    match d.dlk.posted.find? fun p => decide (p.tag = e.dw1.toNat) && !p.told with
    | some p =>
      let d := d.modDlk fun x => { x with posted := x.posted.map fun q => if q = p then { q with told := true } else q }
      respondDlk p.pos p.id vcMedia (Config.encode 0x1730 [p.id, e.dw0.toNat]) d
    | none => d) d

/-! ### Followers as the master sees them (R395, R456, R467) -/

/-- A position answers: it is admitted and not lost. -/
def Dev.reaches (d : Dev) (pos : Nat) : Bool := pos ∈ d.dlk.admitted && !d.dlk.unreach.any fun u => decide (u.1 = pos)

/-- The follower that holds a die group of the cascade; none for this device's own (R462). -/
def groupDev (g : Nat) : Option Nat := if g < 96 then none else some (g / 96)

/-- The follower of a row is lost. -/
def Dev.groupLost (d : Dev) (g : Nat) : Bool :=
  match groupDev g with
  | some p => d.dlk.unreach.any fun u => decide (u.1 = p)
  | none => false
/-- Its hold has expired, too. -/
def Dev.groupGone (d : Dev) (g : Nat) : Bool :=
  match groupDev g with
  | some p => decide (p ∈ d.dlk.expired)
  | none => false

/-- Device Unreachable (R470). -/
def stUnreachable : Cpl := { stat 7 0xC8 with dnr := false }

/-- A follower's row is to be erased before its next use. -/
def eraseFar (g r : Nat) (d : Dev) : Dev :=
  match groupDev g with
  | some p => askMedia { pos := p, id := 0, kind := .other, nsid := 0, zone := 0, first := r, n := 0, slot := 0, idx := 0 } [g, r] d
  | none => d

end Sys2Proof.Machine
end

