-- ==== Sys2Proof/Machine/Zone.lean ====
section
/-! DEFINITION. The zone manager's shared operations: rows, binding, release, check pointers, withdrawal, worn marks
(R104 to R120, R218 to R223, R237, R238). -/

namespace Sys2Proof.Machine

/-! ### Zones -/

def zoneKey (nsid z : Nat) : Nat := nsid * 2 ^ 20 + z
def Dev.zone (d : Dev) (nsid z : Nat) : Zone := mapGet Zone.fresh d.zm.zones (zoneKey nsid z)
/-- A zone changes; a change of its state is an event for the etchings. -/
def Dev.modZone (d : Dev) (nsid z : Nat) (g : Zone → Zone) : Dev :=
  let x := g (d.zone nsid z)
  let d' := d.modZm fun m => { m with zones := mapMod Zone.fresh m.zones (zoneKey nsid z) g }
  if x.st = (d.zone nsid z).st then d' else tellEtchings etchZone (Config.encode 0x1301 [nsid, z, x.st.code]) d'
/-- The first LBA of a zone (R104). -/
def zoneStart (z : Nat) : Nat := z * zoneSpan

/-- The zone is active (R113). -/
def Zone.active (z : Zone) : Bool :=
  z.st == .implOpen || z.st == .explOpen || z.st == .closed || z.refDst.isSome
/-- The zones of a namespace that are not fresh, with their numbers. -/
def Dev.zonesOf (d : Dev) (nsid : Nat) : List (Nat × Zone) :=
  (d.zm.zones.filter fun e => decide (e.1 / 2 ^ 20 = nsid)).map fun e => (e.1 % 2 ^ 20, e.2)
/-- Active zones of a namespace. -/
def Dev.activeOf (d : Dev) (nsid : Nat) : Nat := ((d.zonesOf nsid).filter fun e => e.2.active).length
/-- Active zones across the device. -/
def Dev.activeAll (d : Dev) : Nat := (d.zm.zones.filter fun e => e.2.active).length

/-- The programmed front: the first sector still staged (Table 12-1). -/
def Zone.front (z : Zone) : Nat :=
  match z.staged with
  | (s, _) :: _ => s
  | [] => z.eod

/-- The state a read-only zone reports while it is a refold destination (R136). -/
def Zone.shown (z : Zone) : ZoneState := if z.refDst.isSome then .explOpen else z.st

/-- A sector of the zone is lost (R97, R135). -/
def Zone.isLost (z : Zone) (s : Nat) : Bool := z.lost.any fun r => decide (r.1 ≤ s) && decide (s < r.1 + r.2)

/-! ### The ZONE entry (R341) -/

/-- The CAM can take the zone's entry: it has one, or one is free below the limit (R340). -/
def Dev.zoneEntryRoom (d : Dev) (nsid z : Nat) : Bool :=
  (d.zoneEntry nsid (zoneStart z)).isSome ||
    (decide (d.camUsed 2 < d.rd Fd.CAM_PART_ZONE_MAX) && (d.camHighFree d.camFuel 32768).isSome)

/-- Brings the zone's CAM entry in step with the zone. -/
def syncZone (nsid z : Nat) (d : Dev) : Dev :=
  let x := d.zone nsid z
  let want := x.active || !x.staged.isEmpty
  let c := camZoneEntry nsid (zoneStart z) x.cp x.wp x.front
  match d.zoneEntry nsid (zoneStart z) with
  | some i => if want then d.camMake i c else d.camFree i
  | none =>
    if want then
      match d.camHighFree d.camFuel 32768 with
      | some i => d.camMake i c
      | none => d
    else d

/-! ### Rows (R107, R108, R110, R218, R221, R223, R237) -/

def firstRow : Nat := 14
def rowCount : Nat := 3350

/-- Die of member `m` of a die group. -/
def memberDie (g m : Nat) : Nat := dieNumber (memberChan g m) (groupTarget g)
/-- Wear points of a block (R221). -/
def Dev.wearOf (d : Dev) (die b : Nat) : Nat := mapGet 0 d.med.wear (blockKey die b)
/-- Wear points of the block that serves as member `m` of a row. -/
def Dev.memberWear (d : Dev) (g r m : Nat) : Nat :=
  let (die, b) := d.mapped (memberDie g m) r
  d.wearOf die b
/-- A row's wear: the highest of its 16 blocks (R221). -/
def Dev.rowWear (d : Dev) (g r : Nat) : Nat :=
  (List.range 16).foldl (fun a m => max a (d.memberWear g r m)) 0

def Dev.extended (d : Dev) (g r : Nat) : Bool := decide (d.thresh 0 ≤ d.rowWear g r)

/-- Rows of a group that are not retired. -/
def Dev.healthyRows (d : Dev) (g : Nat) : Nat :=
  rowCount - (d.med.rows.filter fun e => decide (e.1 / 4096 = g) && e.2.retired).length
/-- Rows of a group in some namespace's reservation (R108). -/
def Dev.reservedRows (d : Dev) (g : Nat) : Nat := d.zm.ns.foldl (fun a e => a + mapGet 0 e.2.rows g) 0
/-- Rows of a group in no reservation. -/
def Dev.unassigned (d : Dev) (g : Nat) : Nat := d.healthyRows g - d.reservedRows g
/-- `ZONE.ROWS.FREE`. -/
def Dev.unassignedAll (d : Dev) : Nat := (List.range 96).foldl (fun a g => a + d.unassigned g) 0
/-- Rows of a group bound to zones of a namespace. -/
def Dev.boundRows (d : Dev) (nsid g : Nat) : Nat :=
  ((d.zonesOf nsid).filter fun e => match e.2.row with | some r => decide (r.1 = g) | none => false).length
/-- Free reserved rows of a namespace in a group (R110). -/
def Dev.freeReserved (d : Dev) (nsid : Nat) (ns : Ns) (g : Nat) : Nat := mapGet 0 ns.rows g - d.boundRows nsid g

/-! ### Spares (R219, R447) -/

/-- The keys of a block lie between these. -/
def inBlock (die block k : Nat) : Bool :=
  decide (mediaKey die block 0 0 0 ≤ k) && decide (k < mediaKey die (block + 1) 0 0 0)

/-- A die that serves: present and not retired, on a channel that is not. -/
def Dev.dieHealthy (d : Dev) (die : Nat) : Bool :=
  let x := (d.die (die / 32) (die % 32)).st
  x != .absent && x != .retired && !(d.chan (die / 32)).retired

/-- Blocks of a die that serve no index of their own: the spares, and those whose index was remapped. -/
def Dev.spareBlocks (d : Dev) (die : Nat) : List Nat :=
  (((d.med.remap.filter fun e => decide (e.1 / 4096 = die)).map fun e => e.1 % 4096).filter fun b => decide (b < 3364)) ++
    (List.range 236).map (3364 + ·)

/-- A block serves as a remap, awaits its erase or its last read, or is named as a spare or a destination. -/
def Dev.blockTaken (d : Dev) (die b : Nat) : Bool :=
  d.med.remap.any (fun e => decide (e.2 = blockKey die b)) || (mapFind d.med.erases (blockKey die b)).isSome ||
    d.med.retiring.any (fun x => decide (x.1 = die) && decide (x.2.1 = b)) ||
    (match mapFind d.med.replace die with | some p => decide (p.spare = b) | none => false) ||
    d.med.rebuild.any (fun x => x.dest == some (die, b))

/-- Free spares of a die. -/
def Dev.freeSpares (d : Dev) (die : Nat) : List Nat :=
  (d.spareBlocks die).filter fun b => !d.blockTaken die b && decide ((d.die (die / 32) (die % 32)).blockState b ≠ 2)

/-- The free spare with the fewest wear points, on a tie the lowest index. -/
def Dev.bestSpare (d : Dev) (die : Nat) : Option Nat :=
  (d.freeSpares die).foldl (fun a b =>
    match a with
    | none => some b
    | some c =>
      if d.wearOf die b < d.wearOf die c || (d.wearOf die b = d.wearOf die c && b < c) then some b else some c) none

/-- The class in which a die is tried as a destination: channel and die set of the lost member first. -/
def destClass (die lost : Nat) : Nat :=
  let sameSet := decide (die % 32 / 4 = lost % 32 / 4)
  if die / 32 = lost / 32 then (if sameSet then 0 else 1) else if sameSet then 2 else 3

/-- The destination of a lost member: a free spare of a healthy die of the band that holds no member of the row's die group and
keeps 32 free spares for its own wear (R447). -/
def Dev.rebuildDest (d : Dev) (g r m : Nat) : Option (Nat × Nat) :=
  let lost := memberDie g m
  let cands := ((List.range 16).flatMap fun c => (List.range 32).map fun t => dieNumber (memberChan g c) t).filter fun x =>
    d.dieHealthy x && decide (x % 32 ≠ groupTarget g) && !(List.range 16).any (fun k => decide ((d.mapped (memberDie g k) r).1 = x))
  let best := cands.foldl (fun (a : Option (Nat × Nat × Nat)) x =>
    let n := (d.freeSpares x).length
    if n ≤ 32 then a
    else match a with
      | none => some (destClass x lost, n, x)
      | some (c, k, y) =>
        if destClass x lost < c || (destClass x lost = c && (k < n || (k = n && x < y))) then some (destClass x lost, n, x)
        else some (c, k, y)) none
  match best with
  | some (_, _, x) => (d.bestSpare x).map fun b => (x, b)
  | none => none

/-- The block that is to serve as member `m` of a free row at its binding: its own, a spare for a BAD block, a destination for a
lost die (R229, R447). A follower sees to its own rows (R457). -/
def Dev.memberBlock (d : Dev) (g r m : Nat) : Option (Nat × Nat) :=
  let (die, b) := d.mapped (memberDie g m) r
  if 96 ≤ g then some (die, b)
  else if !d.dieHealthy die then d.rebuildDest g r m
  else if (d.die (die / 32) (die % 32)).blockState b = 2 then (d.bestSpare die).map fun x => (die, x)
  else some (die, b)

/-- A row of the group that is neither bound nor retired, and has a block for each member. -/
def Dev.rowFree (d : Dev) (g r : Nat) : Bool :=
  let x := d.row g r
  x.bound.isNone && !x.retired && !d.med.migrate.any (fun m => decide (m.group = g) && decide (m.dst = r)) &&
    (List.range 16).all (fun m => (d.memberBlock g r m).isSome)

/-- The rank of a free row: erased first, then out of extended life, then wear, then index (R223). -/
def Dev.rowRank (d : Dev) (g r : Nat) : List Nat :=
  [if (d.row g r).dirty = 0 then 0 else 1, if d.extended g r then 1 else 0, d.rowWear g r, r]

/-- The free row that R223 chooses in a group. -/
def Dev.bestRow (d : Dev) (g : Nat) : Option Nat :=
  (List.range rowCount).foldl (fun a i =>
    let r := firstRow + i
    if d.rowFree g r then
      match a with
      | none => some r
      | some b => if lexLess (d.rowRank g r) (d.rowRank g b) then some r else some b
    else a) none
where
  /-- Lexicographic order. -/
  lexLess : List Nat → List Nat → Bool
    | [], [] => false
    | [], _ :: _ => true
    | _ :: _, [] => false
    | x :: xs, y :: ys => decide (x < y) || (decide (x = y) && lexLess xs ys)

/-- A group holds an erased free row. -/
def Dev.hasErased (d : Dev) (g : Nat) : Bool :=
  (List.range rowCount).any fun i => d.rowFree g (firstRow + i) && decide ((d.row g (firstRow + i)).dirty = 0)

/-- The group that R110 takes among some groups. -/
def Dev.bestGroup (d : Dev) (nsid : Nat) (ns : Ns) (gs : List Nat) : Option Nat :=
  let free := gs.filter fun g => decide (0 < d.freeReserved nsid ns g)
  let erased := free.filter d.hasErased
  let pool := if erased.isEmpty then free else erased
  pool.foldl (fun a g =>
    match a with
    | none => some g
    | some b =>
      let x := d.freeReserved nsid ns g
      let y := d.freeReserved nsid ns b
      if y < x || (x = y && g < b) then some g else some b) none

/-- The groups of a namespace's set D. -/
def Ns.groups (ns : Ns) : List Nat := ns.rows.map (·.1)

/-- The row for a binding with handle `h` (R110, R111). -/
def Dev.pickRow (d : Dev) (nsid : Nat) (ns : Ns) (h : Nat) : Option (Nat × Nat) :=
  let hd : Handle := if h = 0 then { groups := ns.groups, spill := false }
    else (mapFind ns.handles h).getD { groups := [], spill := false }
  let g := match d.bestGroup nsid ns hd.groups with
    | some g => some g
    | none => if hd.spill then d.bestGroup nsid ns ns.groups else none
  match g with
  | some g => (d.bestRow g).map fun r => (g, r)
  | none => none

/-- The checks of a binding in the order of R111: the status that refuses it, or the row. -/
def Dev.bindCheck (d : Dev) (nsid : Nat) (ns : Ns) (h : Nat) : Except Cpl (Nat × Nat) :=
  if h ≠ 0 && (mapFind ns.handles h).isNone then .error stInvalidField
  else if ns.limit < d.activeOf nsid + 1 then .error (stat 1 0xBD)
  else match d.pickRow nsid ns h with
    | some r => .ok r
    | none => .error (stVendor 0xC1)

/-- A refused binding leaves its event (R111). -/
def bindRefused (c : Cpl) (d : Dev) : Dev := d.flagIf (c.sct = 7 && c.sc = 0xC1) Fd.ZONE_EVT_EXHAUSTED

/-- `ZONE.EVT.ROWS_LOW` where the unassigned rows fell below the threshold (Table 4-21). -/
def rowsLow (before : Nat) (d : Dev) : Dev :=
  let t := d.rd Fd.ZONE_ROWS_LOW_THRESH
  d.flagIf (decide (t ≤ before) && decide (d.unassignedAll < t)) Fd.ZONE_EVT_ROWS_LOW

/-! ### Grown bad-block records and health events (R233, R244) -/

/-- A function sees an event in its own view of the Media health log (R152, R245). -/
def Dev.seesEvent (d : Dev) (f : Nat) (e : HealthEvent) : Bool :=
  isPf f || decide (5 ≤ e.kind) || (decide (3 ≤ e.kind) && (d.nsOf f e.nsid).isSome)

/-- The view of every present function that has not read an event loses it. -/
def loseEvent (e : HealthEvent) (d : Dev) : Dev :=
  allFuncs.foldl (fun d f =>
    if d.present f && d.seesEvent f e && !decide (f ∈ e.readBy) then
      d.modMed fun m => { m with eventLost := mapMod 0 m.eventLost f (satAdd 0xFFFF 1) }
    else d) d

/-- The bytes of a Media health event (Table 8-9); a group of 1,000 or more is the cascade's group above 1,000, on a follower. -/
def HealthEvent.bytes (e : HealthEvent) (pos : Nat) : List Byte :=
  let (g, p) := if e.group < 1000 then (e.group, pos) else ((e.group - 1000) % 96, (e.group - 1000) / 96)
  leBytes 8 e.seq ++ leBytes 8 e.stroke ++ leBytes 1 e.kind ++ leBytes 1 e.cause ++ leBytes 2 e.die ++ leBytes 2 e.row ++
    leBytes 1 g ++ leBytes 1 p ++ leBytes 4 e.nsid ++ leBytes 4 e.zone

/-- An event of the Media health log, and for the etchings. -/
def healthEvent (kind cause die row group nsid zone : Nat) (d : Dev) : Dev :=
  let d := match d.med.events.drop 127 with | e :: _ => loseEvent e d | [] => d
  let e : HealthEvent := { seq := d.med.eventSeq + 1, stroke := d.strk.count, kind := kind, cause := cause, die := die, row := row,
                           group := group, nsid := nsid, zone := zone, readBy := [] }
  tellEtchings etchHealth (e.bytes (d.rd Fd.DLK_ROLE_POS)) (d.modMed fun m =>
    { m with eventSeq := m.eventSeq + 1, eventTotal := m.eventTotal + 1, events := (e :: m.events).take 128 })

/-- A block of the die became BAD. -/
def DieHealth.addGrown (h : DieHealth) (sheet stroke : Nat) : DieHealth :=
  { h with grown := h.grown ++ [sheet], grownBad := satAdd 0xFFFF h.grownBad 1, last := stroke }

/-- The dies whose metadata blocks take a record: a healthy one of each band (R233), the lowest-numbered (log entry 118). -/
def Dev.recDies (d : Dev) : List Nat := [0, 1, 2].filterMap fun b => ((List.range 512).map (512 * b + ·)).find? d.dieHealthy

/-- A record says already that the block is BAD. -/
def Dev.knownBad (d : Dev) (die block : Nat) : Bool :=
  d.med.recs.any fun r => decide (r.die = die) && decide (r.block = block) && decide (r.state = 2)

/-- A grown bad-block record is made durable, before what it records takes effect, with its event (R233, R244). -/
def badRecord (die block cause state group spare wear : Nat) (d : Dev) : Dev :=
  let r : BadRec := { seq := d.med.recSeq + 1, stroke := d.strk.count, die := die, block := block, cause := cause, state := state, group := group,
                      spare := spare, wear := wear }
  let new := decide (state = 2) && !d.knownBad die block
  let d : Dev := { d with nvm := { d.nvm with recs := d.nvm.recs ++ [(r, d.recDies)] } }
  let d := d.modMed fun m =>
    { m with
      recSeq := m.recSeq + 1
      recs := m.recs ++ [r]
      grownBad := if new then m.grownBad + 1 else m.grownBad
      dies := if new then mapMod DieHealth.fresh m.dies die (·.addGrown d.sheet d.strk.count) else m.dies }
  let kind := if state = 5 then 2 else if state = 3 then 5 else if state = 4 then 6 else 1
  healthEvent kind cause (if state = 5 then 0xFFFF else die) block group 0 0xFFFFFFFF d

/-- Index `r` of a die is served by another block from now on, with its record (R219, R233). -/
def remapTo (die r : Nat) (to' : Nat × Nat) (cause state : Nat) (d : Dev) : Dev :=
  let (die0, old) := d.mapped die r
  let d := badRecord die0 old cause state 0xFF to'.2 (d.wearOf die0 old) d
  d.modMed fun m => { m with remap := mapSet (blockKey die r) m.remap (blockKey die r) (blockKey to'.1 to'.2) }

/-! ### Blocks that fail or are replaced (R219, R229, R230, R232, R242) -/

/-- The block serves the index it is recorded under. -/
def Dev.serving (d : Dev) (die b : Nat) : Bool :=
  let (x, r) := d.roleOf die b
  decide (d.mapped x r = (die, b))

/-- Usable rescue blocks of a die: those that are not BAD (R241, R242). -/
def Dev.rescueUsable (d : Dev) (die : Nat) : Nat :=
  countUpTo 4 fun i =>
    let (x, b) := d.mapped die (8 + i)
    decide ((d.die (x / 32) (x % 32)).blockState b ≠ 2)

/-- Rescue block `i` of a die enters a state. -/
def setRescue (die i st : Nat) (d : Dev) : Dev :=
  { d with nvm := { d.nvm with rescue := mapMod Rescue.fresh d.nvm.rescue die fun r => { r with states := listSetAt r.states i st } } }

/-- A metadata or rescue block gets its spare, or a rescue block is lost: a die left with fewer than two is logged (R219, R242). -/
def replaceFixed (die b role : Nat) (spare : Option Nat) (d : Dev) : Dev :=
  match spare with
  | some x =>
    let d := d.modMed fun m => { m with remap := mapSet (blockKey die role) m.remap (blockKey die role) (blockKey die x) }
    if 8 ≤ role then setRescue die (role - 8) 2 d else d
  | none =>
    if 8 ≤ role && d.rescueUsable die < 2 then healthEvent 1 0x0D die b 0xFF 0 0xFFFFFFFF d else d

/-- A block becomes BAD, with its record. A metadata or rescue block that serves is replaced at once, a spare that was to replace another makes
way for the next one, and a free row's member awaits no erase any more: it is replaced before the row is next bound (R219, R229, R232). -/
def makeBad (die b cause : Nat) (d : Dev) : Dev :=
  let (die0, role) := d.roleOf die b
  let own := d.serving die b
  let spare := if own && role < 12 then d.bestSpare die else none
  let d := badRecord die b cause 2 0xFF (spare.getD 0xFFFF) (d.wearOf die b) d
  let d := d.modDie (die / 32) (die % 32) fun x => x.setBlock b 2
  let d := d.modMed fun m => { m with erases := mapErase m.erases (blockKey die b) }
  let d := match mapFind d.med.replace die with
    | some p => if p.spare = b then wantReplace die b p.cause p.first d else d
    | none => d
  if !own then d
  else if role < 12 then replaceFixed die b role spare d
  else
    let m := die0 / 32 % 16
    d.modRow (groupOf (die0 / 32) (die0 % 32)) role fun r => { r with dirty := setBits r.dirty m m 0 }

/-- A program failed on a block: one of a row is to be replaced with its data, another becomes BAD at once (R219, R229). -/
def blockFailed (die b cause wl : Nat) (d : Dev) : Dev :=
  if d.serving die b && (d.roleOf die b).2 < 12 then makeBad die b cause d else wantReplace die b cause wl d

/-- Places on the medium move from one block of a die to another. -/
def moveKey (die old new k : Nat) : Nat := if inBlock die old k then k - mediaKey die old 0 0 0 + mediaKey die new 0 0 0 else k

/-- The switch of a replacement: the remap names the spare, the sectors of a conventional row with it, and the old block waits until no
descriptor names it (step 5 of R230). -/
def swapBlock (die : Nat) (p : Replace) (d : Dev) : Dev :=
  let soft := decide (p.cause = 5) || decide (p.cause = 6)
  let d := d.modMed fun m => { m with
    remap := mapSet (blockKey p.home p.block) m.remap (blockKey p.home p.block) (blockKey die p.spare)
    replace := mapErase m.replace die
    refreshes := if soft then m.refreshes + 1 else m.refreshes
    dies := if soft then mapMod DieHealth.fresh m.dies die fun h => { h with refreshes := satAdd 0xFFFF h.refreshes 1, last := d.strk.count }
      else m.dies
    retiring := m.retiring ++ [(die, p.old, !soft, decide (p.block < 14))] }
  let to' (k : Nat) : Nat := moveKey die p.old p.spare k
  d.modZm fun m => { m with
    conv := m.conv.map fun e => (e.1, match e.2 with | .media k slc => .media (to' k) slc | x => x)
    convProg := m.convProg.map fun e => (e.1, to' e.2)
    convCopy := m.convCopy.map fun e => (e.1, to' e.2) }

/-- The array reads of a copy count toward the read disturb of their blocks, one for each page (R226). -/
def countReads (keys : List Nat) (d : Dev) : Dev :=
  let pages := keys.foldl (fun l k => listAdd l (k / 4)) []
  let blocks := pages.foldl (fun l p => listAdd l (p / 16384)) []
  let d := d.modMed fun m => { m with reads := pages.foldl (fun r p => mapMod 0 r (p / 16384) (· + 1)) m.reads }
  blocks.foldl (fun d b =>
    let slc := decide ((d.roleOf (b / 4096) (b % 4096)).2 < 14)
    if d.thresh (if slc then 4 else 3) ≤ mapGet 0 d.med.reads b then wantReplace (b / 4096) (b % 4096) 6 576 d else d) d

/-- A block stands in for a member of the row. -/
def memberOfRow (g r home role : Nat) : Bool := decide (groupOf (home / 32) (home % 32) = g) && decide (role = r)

/-- The row is given up or starts anew: copies to its blocks stop and their switches take place, failed blocks become BAD, and a refresh that
has not begun is not needed any more (R229, R232). -/
def settleMembers (g r : Nat) (d : Dev) : Dev :=
  let d := (d.med.replace.filter fun e => memberOfRow g r e.2.home e.2.block).foldl (fun d e => swapBlock e.1 e.2 d) d
  let gone := d.med.wanted.filter fun w => memberOfRow g r w.home w.role
  let d := d.modMed fun m => { m with wanted := m.wanted.filter fun w => !memberOfRow g r w.home w.role }
  gone.foldl (fun d w => if w.cause = 2 || w.cause = 4 then makeBad w.die (d.mapped w.home w.role).2 w.cause d else d) d

/-- The descriptor of an erase that Thrumlux orders: class-15 device work with AUTOPROOF = 1 (R227, R230, R241). -/
def eraseDesc (die b tag : Nat) (slc : Bool) : Desc :=
  { d0 := BitVec.ofNat 32 (3 * 2 ^ 28 + 15 * 2 ^ 24 + die % 32 * 2 ^ 19 + b2n slc * 2 ^ 17 + 2 ^ 15)
    d1 := BitVec.ofNat 32 (b * 2 ^ 20)
    d2 := 0xC0000000, d3 := 0, d4 := 0, d5 := 0, d6 := BitVec.ofNat 32 tag, d7 := 0 }

/-- Attempt `k` at an erase that Thrumlux orders: it is posted as soon as its die's queue has room. -/
def orderErase (die b k : Nat) (slc : Bool) (d : Dev) : Dev :=
  let (tag, d) := d.hostTag
  d.modMed fun m => { m with owed := m.owed ++ [(die / 32, eraseDesc die b tag slc, true)], erases := mapInsert m.erases (blockKey die b) k }

/-- A free row gets a block for each member that has none (R229, R447). -/
def fillMembers (g r : Nat) (d : Dev) : Dev :=
  forUpTo 16 (fun m d =>
    match d.memberBlock g r m with
    | some p =>
      if p = d.mapped (memberDie g m) r then d
      else if d.dieHealthy (d.mapped (memberDie g m) r).1 then remapTo (memberDie g m) r p 3 2 d
      else remapTo (memberDie g m) r p (mapGet DieHealth.fresh d.med.dies (memberDie g m)).cause 0 d
    | none => d) d

/-- Binds a zone to a row. -/
def bindZone (nsid z h : Nat) (at' : Nat × Nat) (st : ZoneState) (d : Dev) : Dev :=
  let d := (fillMembers at'.1 at'.2 d).modRow at'.1 at'.2 fun r => { r with bound := some (nsid, z) }
  d.modZone nsid z fun x => { x with row := some at', handle := h, st := st }

/-! ### Releasing a row (R107, R237, R117) -/

/-- A block of the row is BAD and its die has no free spare. -/
def Dev.rowUnreplaceable (d : Dev) (g r : Nat) : Bool :=
  (List.range 16).any fun m =>
    let (die, b) := d.mapped (memberDie g m) r
    decide ((d.die (die / 32) (die % 32)).blockState b = 2) && (d.freeSpares die).isEmpty

/-- Takes one unassigned row into a reservation that lost one: from the group of D with the most, on a tie the lowest (R117); without one
the reservation stays short (R237). -/
def takeUnassigned (nsid : Nat) (d : Dev) : Dev × Bool :=
  match d.ns? nsid with
  | none => (d, false)
  | some ns =>
    let best := ns.groups.foldl (fun a x =>
      let n := d.unassigned x
      if n = 0 then a
      else match a with
        | none => some x
        | some b => if d.unassigned b < n || (d.unassigned b = n && x < b) then some x else some b) none
    match best with
    | some x =>
      (d.modNs nsid fun ns => { ns with rows := mapInsert ns.rows x (mapGet 0 ns.rows x + 1) }, true)
    | none => (d, false)

/-- Retires a row with its record (R237). -/
def retireRow (g r cause : Nat) (d : Dev) : Dev :=
  let d := settleMembers g r d
  let d := d.modRow g r fun x => { x with retired := true, bound := none }
  badRecord 0xFFFF r cause 5 g 0xFFFF (d.rowWear g r) d

/-- A row of a reservation is retired: the reservation drops by one and takes an unassigned row where there is one (R117, R237). -/
def retireReserved (nsid g r cause : Nat) (d : Dev) : Dev × Bool :=
  let before := d.unassignedAll
  let d := (retireRow g r cause d).modNs nsid fun ns => { ns with rows := mapInsert ns.rows g (mapGet 0 ns.rows g - 1) }
  let (d, ok) := takeUnassigned nsid d
  (rowsLow before d, ok)

/-- The row of a zone goes back to its reservation to be erased, or is retired (R107, R237). -/
def releaseRow (nsid g r : Nat) (d : Dev) : Dev :=
  let d := settleMembers g r d
  let wear := d.rowWear g r
  if d.thresh 1 ≤ wear + 10 then (retireReserved nsid g r 0x09 d).1
  else if d.rowUnreplaceable g r then (retireReserved nsid g r 0x0D d).1
  else eraseFar g r (d.modRow g r fun x => { x with bound := none, dirty := if g < 96 then 0xFFFF else 0, lost := [], worn := none, short := [] })

/-! ### Staged sectors (R146, R78) -/

/-- Sectors of the staged ceiling. -/
def ceilingSectors : Nat := 262144
/-- The staged reserve of a tenant, in sectors. -/
def Dev.stageReserve (d : Dev) (t : Nat) : Nat := 256 * d.rdb t Fd.TEN_T_STAGE_RESERVE
/-- Part of the ceiling that is no tenant's reserve. -/
def Dev.stageShared (d : Dev) : Nat :=
  ceilingSectors - (List.range 1024).foldl (fun a t => a + d.stageReserve t) 0
/-- The write draws on its tenant's reserve. -/
def Dev.stageFromReserve (d : Dev) (t n : Nat) : Bool := decide (mapGet 0 d.host.stagedOf t + n ≤ d.stageReserve t)
/-- There is room for a write of `n` sectors (R146). -/
def Dev.stageRoom (d : Dev) (t n : Nat) : Bool :=
  d.stageFromReserve t n || decide (d.host.stagedShared + n ≤ d.stageShared)
/-- Takes a share: the device, and whether it came from the reserve. -/
def takeStage (t n : Nat) (d : Dev) : Dev × Bool :=
  if d.stageFromReserve t n then (d.modHost fun h => { h with stagedOf := mapMod 0 h.stagedOf t (· + n) }, true)
  else (d.modHost fun h => { h with stagedShared := h.stagedShared + n }, false)
/-- Returns a share to the part it came from. -/
def dropStage (t n : Nat) (reserve : Bool) (d : Dev) : Dev :=
  if reserve then d.modHost fun h => { h with stagedOf := mapMod 0 h.stagedOf t (fun k => k - n) }
  else d.modHost fun h => { h with stagedShared := h.stagedShared - n }

/-- Frees the four cells of a staged sector, and the pad sectors that follow it in its unit; one that stands in a follower's cells has none here (R463). -/
def freeSectorCells (h : Nat) (d : Dev) : Dev :=
  if h = endOfChain then d else
  let p := d.pool
  let hs := [h, p.follow 1 h, p.follow 2 h, p.follow 3 h]
  let pad := p.follow 4 h
  let pads (p : Pool) : Pool :=
    if pad ≠ endOfChain && (p.cell pad).alloc && isPad (p.sector pad 0) then (freeWalk (p.cells.length + 1) pad p).2.2 else p
  d.modPool fun p => pads (hs.foldl (fun p h =>
    let c := p.cell h
    if c.alloc then
      let p := p.setCell h { c with alloc := false }
      let p := if c.dev then { p with devUsed := p.devUsed - 1 }
        else { p with used := mapMod 0 p.used c.tenant (fun k => k - 1) }
      p.give h
    else p) p)

/-- Pads the last program unit of a zone's committed data, where it is short: pad sectors in cells of the device, linked to its last
sector (R115, R124, log entry 124). -/
def padUnit (nsid z : Nat) (d : Dev) : Dev :=
  let x := d.zone nsid z
  match if x.eod % 64 = 0 then none else mapFind x.staged (x.eod - 1) with
  | some (h, _) =>
    let last := d.pool.follow 3 h
    let n := 64 - x.eod % 64
    if h = endOfChain || (d.pool.cell last).next ≠ endOfChain || !d.canGrant none (4 * n) then d
    else
      let (c, d) := grantCells none (4 * n) d
      let d := d.modPool fun p => p.modCell last fun y => { y with next := c }
      (d.modPool fun p => forUpTo n (fun i p => p.putSector c i (padSector d.nfree nsid (zoneStart z + x.eod + i) d.strk.count)) p).tick 1
  | none => d

/-- Staged data of a zone is discarded: cells freed, ceiling share returned (R123); what a follower answers about it later counts for nothing. -/
def discardStaged (owner nsid z : Nat) (d : Dev) : Dev :=
  let x := d.zone nsid z
  let d := x.staged.foldl (fun d e => dropStage owner 1 e.2.2 (freeSectorCells e.2.1 d)) d
  let d := d.modDlk fun y => { y with moves := y.moves.filter fun m => !(decide (m.nsid = nsid) && decide (m.zone = z) && m.kind != .read) }
  d.modZone nsid z fun x => { x with staged := [] }

/-! ### Reports of zone changes (R118) -/

/-- A zone entered Read Only or Offline. -/
def reportZone (nsid z : Nat) (off : Bool) (cause : Nat) (d : Dev) : Dev :=
  let x := d.zone nsid z
  let d : Dev := match d.ns? nsid with
    | some ns => ns.attached.foldl (fun (d : Dev) f =>
        let d := d.modFunc f fun y =>
          if zoneKey nsid z ∈ y.changedZones then y
          else if (y.changedZones.filter fun k => decide (k / 2 ^ 20 = nsid)).length < 511 then
            { y with changedZones := y.changedZones ++ [zoneKey nsid z] }
          else { y with zonesOver := listAdd y.zonesOver nsid }
        if bit ((d.func f).feat 0x0B 0) 27 then raiseEvent f { kind := 2, info := 0xEF, log := 0xBF } d else d) d
    | none => d
  let d := if off then d.wr Fd.ZONE_EVT_OFFLINE 1 else d.wr Fd.ZONE_EVT_READONLY 1
  let (g, r) := x.row.getD (0xFF, 0xFFFF)
  healthEvent (if off then 4 else 3) cause 0xFFFF r (if x.row.isSome && 96 ≤ g then 1000 + g else g) nsid z d

/-! ### Commands and zones (R120, R122) -/

/-- The zone an I/O command names. -/
def sqeZone (x : Sqe) : Nat := x.slba / zoneSpan

/-- A command touches zone `z` of its namespace, as far as its entry says: the ranges of a refold come with its buffer. -/
def touches (x : Slot) (nsid z : Nat) : Bool :=
  x.qid ≠ 0 && decide (x.sqe.nsid.toNat = nsid) && !x.conflict &&
  (match x.sqe.op with
    | 0x01 | 0x08 | 0x7D | 0x02 | 0x0C =>
      decide (sqeZone x.sqe ≤ z) && decide (z ≤ (x.sqe.slba + x.sqe.nlb - 1) / zoneSpan)
    | 0x79 => bit x.sqe.cdw13.toNat 8 || decide (sqeZone x.sqe = z)
    | _ => false)

/-- A write, Write Zeroes or append. -/
def Slot.isWrite (x : Slot) : Bool := decide (x.qid ≠ 0) && decide (x.sqe.op ∈ [0x01, 0x08, 0x7D])

/-- A Zone Management Send. -/
def Slot.isSend (x : Slot) : Bool := decide (x.qid ≠ 0) && decide (x.sqe.op = 0x79)

/-- An earlier Send to the zone has not had its completion entry written (R122). -/
def Dev.behindSend (d : Dev) (x : Slot) (nsid z : Nat) : Bool :=
  d.host.slots.any fun e => decide (e.2.seq < x.seq) && e.2.isSend && touches e.2 nsid z

/-- A Refold touches the zone: its destination or a zone of its ranges; until it has been examined it may touch any zone of the namespace
(R122, R133). -/
def Dev.refoldTouches (d : Dev) (x : Slot) (nsid z : Nat) : Bool :=
  x.qid ≠ 0 && decide (x.sqe.op = 0x83) && decide (x.sqe.nsid.toNat = nsid) && !x.conflict &&
    (match d.zm.refolds.find? fun j => decide (j.seq = x.seq) with
      | some j => decide (j.dst = z) || j.ranges.any fun r => decide (r.slba / zoneSpan = z)
      | none => x.pend)

/-- An earlier command to the zone has not had its completion entry written (R122). -/
def Dev.behindAny (d : Dev) (x : Slot) (nsid z : Nat) : Bool :=
  d.host.slots.any fun e => decide (e.2.seq < x.seq) && (touches e.2 nsid z || d.refoldTouches e.2 nsid z)

/-- The zone was marked before the command was fetched: a Send or a Refold waits behind the mark (R115, R240). -/
def Dev.behindMark (d : Dev) (x : Slot) (nsid z : Nat) : Bool := (d.zone nsid z).marked.any fun m => decide (m < x.seq)

/-- The write and append commands checked into a zone and not committed, in check order. -/
def Dev.zoneWriters (d : Dev) (nsid z : Nat) : List (Nat × Slot) :=
  (d.host.slots.filter fun e => e.2.zone == some (zoneKey nsid z) && !e.2.committed && e.2.phase != .due).foldl
    (fun l e => insertBy e l) []
where
  /-- Inserts by start LBA: positions rise in check order. -/
  insertBy (e : Nat × Slot) : List (Nat × Slot) → List (Nat × Slot)
    | [] => [e]
    | y :: ys => if e.2.start < y.2.start then e :: y :: ys else y :: insertBy e ys

/-- What a write holds is given back: cells, ceiling share, CAM entry (R94). -/
def giveBack (k : Nat) (d : Dev) : Dev :=
  match d.slot? k with
  | none => d
  | some x =>
    let owner := match d.ns? x.sqe.nsid.toNat with | some ns => ns.owner | none => 0
    let d := d.release x.chain
    let d := match x.share with | some r => dropStage owner x.total r d | none => d
    let d := match x.cam with | some i => d.camFree i | none => d
    let d : Dev := { d with ciph := { d.ciph with writeQ := d.ciph.writeQ.filter (fun i => i.slotNo != some k) } }
    d.modSlot k fun x => { x with chain := endOfChain, share := none, cam := none, zone := none }

/-- Removes a pending landing record of a slot. -/
def dropLanding (nsid z k : Nat) (d : Dev) : Dev :=
  d.modZone nsid z fun x => { x with recs := x.recs.filter fun r => r.done || decide (r.slot ≠ k) }

/-- Withdraws a zone write at a position: the check pointer falls back, later uncommitted writes fail, later appends are given
new positions in their order (R120). -/
def fallBack (nsid z start : Nat) (d : Dev) : Dev :=
  let later := (d.zoneWriters nsid z).filter fun e => decide (start < e.2.start)
  let (d, cp) := later.foldl (fun (a : Dev × Nat) e =>
    let (d, cp) := a
    let k := e.1
    if e.2.sqe.op = 0x7D then
      let d := d.modSlot k fun x => { x with start := cp }
      let d := d.modZone nsid z fun x => { x with recs := x.recs.map fun r =>
        if !r.done && r.slot = k then { r with lba := cp } else r }
      (d, cp + e.2.total)
    else
      (finish k (stat 1 0xBC) (giveBack k d), cp)) (d, start)
  syncZone nsid z (d.modZone nsid z fun x => { x with cp := cp - zoneStart z })

/-- A write, append or write of zeroes before its commit point leaves no trace (R94, R120). -/
def withdrawWrite (k : Nat) (d : Dev) : Dev :=
  match d.slot? k with
  | none => d
  | some x =>
    match x.zone with
    | some zk =>
      let nsid := zk / 2 ^ 20
      let z := zk % 2 ^ 20
      fallBack nsid z x.start (dropLanding nsid z k (giveBack k d))
    | none => giveBack k d

end Sys2Proof.Machine
end

