-- ==== Sys2Proof/Machine/Verify.lean ====
section
/-! DEFINITION. What Thrumlux does when a program, an erase or one of its own proof reads completes (R227 to R230, R241, R242). -/

namespace Sys2Proof.Machine

/-! ### Proof reads (R183, R227) -/

/-- The pages that prove an operation, and whether they are read RAW: the first and the last page of an erased block, the pages that
`SEQ_PROOF_CFG.PAGES` selects of a QLC unit, the four pages of an SLC unit. -/
def Dev.proofPlaces (d : Dev) (n : Nat) (x : Desc) : List (Bool × Nat × Nat) :=
  if x.op = 3 then [(true, 0, 0), (true, 0, q4Pages x.slc - 1)]
  else ((List.range (unitPages x.slc)).filter (fun i => bit (d.rdc n Fd.SEQ_PROOF_CFG_PAGES) i)).map (fun i =>
    let (plane, page, _) := unitPlace x.slc x.page (4 * i)
    (false, plane, page))

/-- A proof read of a page of the operation's block, in the operation's class. -/
def proofDesc (x : Desc) (tag : Word) (limit : Nat) (p : Bool × Nat × Nat) : Desc :=
  { d0 := BitVec.ofNat 32 (4 * 2 ^ 28 + x.cls * 2 ^ 24 + x.target * 2 ^ 19 + 2 ^ 18 + b2n x.slc * 2 ^ 17 +
      b2n p.1 * 2 ^ 16 + 15 * 2 ^ 8 + x.level)
    d1 := BitVec.ofNat 32 (x.block * 2 ^ 20 + p.2.2 * 2 ^ 8 + p.2.1 * 2 ^ 6)
    d2 := 0xC0000000, d3 := 0, d4 := BitVec.ofNat 32 (limit * 2 ^ 16), d5 := 0, d6 := tag, d7 := 0 }

/-- PLIMIT by the policy: 40 for a zone row's block in extended life, else 0 (R227). -/
def Dev.policyLimit (d : Dev) (n : Nat) (x : Desc) : Nat :=
  if x.op = 2 && !x.slc && d.thresh 0 ≤ d.wearOf (dieNumber n x.target) x.block then 40 else 0

/-- The operation carried the proof reads that the policy asks for: an erase its AUTOPROOF, a QLC program its AUTOPROOF and PLIMIT. An SLC
program carries none (R227). -/
def Dev.proofCarried (d : Dev) (n : Nat) (x : Desc) : Bool :=
  x.autoproof && (decide (x.op = 3) || (!x.slc && decide (x.plimit = d.policyLimit n x)))

/-- The pages that Thrumlux reads itself to prove an operation: all four of an SLC unit, whatever PAGES selects. -/
def Dev.ownPlaces (d : Dev) (n : Nat) (x : Desc) : List (Bool × Nat × Nat) :=
  if x.op = 2 && x.slc then (List.range 4).map fun i => (false, i, x.page) else d.proofPlaces n x

/-- Thrumlux's proof reads of an operation are to be posted. -/
def orderProofs (h : Heard) (d : Dev) : Dev :=
  let limit := d.policyLimit h.ch h.desc
  let (d, tags) := (d.ownPlaces h.ch h.desc).foldl (fun (a : Dev × List Word) p =>
    let (tag, d) := a.1.hostTag
    let t := BitVec.ofNat 32 tag
    (d.modMed fun m => { m with owed := m.owed ++ [(h.ch, proofDesc h.desc t limit p, h.dev)] }, a.2 ++ [t])) (d, [])
  d.modMed fun m => { m with proving := m.proving ++ [{ ch := h.ch, desc := h.desc, dev := h.dev, tags := tags, bad := false }] }

/-! ### Outcomes (R228, R229) -/

/-- The unit is safe on the medium: Thrumlux may release its cells (R228). -/
def passUnit (x : Desc) (d : Dev) : Dev :=
  d.modPool fun p => forUpTo (unitSectors x.slc) (fun j p =>
    let h := p.follow (4 * j) x.cell
    if (p.cell h).alloc then p.modCell h fun c => { c with passed := true } else p) p

/-- A block is erased and proofed: a spare is ready for the copy, a rescue block is FREE (R230, R241). -/
def erasePassed (die b : Nat) (d : Dev) : Dev :=
  let d := d.modMed fun m => { m with
    erases := mapErase m.erases (blockKey die b)
    replace := m.replace.map fun e => (e.1, if e.1 = die && e.2.spare = b then { e.2 with ready := true } else e.2) }
  let (die0, role) := d.roleOf die b
  let dirty := decide (((mapGet Rescue.fresh d.nvm.rescue die0).states.getD (role - 8) 0) = 3)
  if 8 ≤ role && role < 12 && d.serving die b && dirty then setRescue die0 (role - 8) 2 d else d

/-- An erase that its proof does not bear out: it is repeated once, and the second time the block is BAD (R229). -/
def eraseWeak (x : Desc) (die : Nat) (d : Dev) : Dev :=
  match mapFind d.med.erases (blockKey die x.block) with
  | some 2 => makeBad die x.block 4 d
  | _ =>
    let (die0, role) := d.roleOf die x.block
    let m := die0 / 32 % 16
    let d := if 14 ≤ role && d.serving die x.block then
        d.modRow (groupOf (die0 / 32) (die0 % 32)) role fun r => { r with dirty := setBits r.dirty m m 1 }
      else d
    orderErase die x.block 2 x.slc d

/-- The operation has passed with its proof reads. -/
def provedGood (n : Nat) (x : Desc) (d : Dev) : Dev :=
  if x.op = 2 then passUnit x d else erasePassed (dieNumber n x.target) x.block d

/-- A proof read failed: after a program the block is set READONLY and replaced (R229). -/
def provedBad (n : Nat) (x : Desc) (d : Dev) : Dev :=
  let die := dieNumber n x.target
  if x.op = 2 then
    let d := if (d.die n x.target).blockState x.block = 0 then d.modDie n x.target fun y => y.setBlock x.block 1 else d
    blockFailed die x.block 4 x.page d
  else eraseWeak x die d

/-- One of Thrumlux's proof reads is over; with the last the operation has passed or failed. -/
def proofHeard (h : Heard) (d : Dev) : Dev :=
  match d.med.proving.find? fun p => decide (p.ch = h.ch) && decide (h.desc.tag ∈ p.tags) with
  | none => d
  | some p =>
    let p' : Proving := { p with tags := p.tags.filter fun t => t != h.desc.tag, bad := p.bad || decide (h.status ≠ 0) }
    if p'.tags.isEmpty then
      let d := d.modMed fun m => { m with proving := listEraseFirst (fun y => y == p) m.proving }
      if p'.bad then provedBad p.ch p.desc d else provedGood p.ch p.desc d
    else d.modMed fun m => { m with proving := listModFirst (fun y => y == p) (fun _ => p') m.proving }

/-- Thrumlux acts on a completion (R227 to R229). -/
def hear (h : Heard) (d : Dev) : Dev :=
  let x := h.desc
  let die := dieNumber h.ch x.target
  if x.op = 4 then proofHeard h d
  else match h.status with
    | 0x00 =>
      if d.proofCarried h.ch x || (d.ownPlaces h.ch x).isEmpty then provedGood h.ch x d else orderProofs h d
    | 0x10 => blockFailed die x.block 2 x.page d
    | 0x11 => makeBad die x.block 3 d
    | 0x12 => provedBad h.ch x d
    | _ => d

/-! ### Old blocks, and what waits for room -/

/-- A descriptor that names a block waits or runs on its die. -/
def Die.names (x : Die) (b : Nat) : Bool :=
  x.queue.any (fun q => decide (q.desc.block = b) && !q.desc.isCtl) || x.rd.any (fun r => decide (r.q.desc.block = b)) ||
    x.op.any (fun o => decide (o.q.desc.block = b)) || x.held.any (fun h => decide (h.q.desc.block = b))

/-- A replaced block of channel `n` that no descriptor names any more is made BAD, or erased to return to the spares (step 5 of R230). -/
def settleOld (n : Nat) (d : Dev) : Dev :=
  (d.med.retiring.filter fun x => decide (x.1 / 32 = n)).foldl (fun d x =>
    if (d.die n (x.1 % 32)).names x.2.1 then d
    else
      let d := d.modMed fun m => { m with retiring := listEraseFirst (fun y => y == x) m.retiring }
      if x.2.2.1 then d.modDie n (x.1 % 32) fun y => y.setBlock x.2.1 2
      else orderErase x.1 x.2.1 1 x.2.2.2 d) d

/-- Descriptors of Thrumlux's own are posted as their dies' queues have room. -/
def postOwed (n : Nat) (d : Dev) : Dev :=
  (d.med.owed.filter fun o => decide (o.1 = n)).foldl (fun d o =>
    if (d.die n o.2.1.target).queued < 32 then
      takeDesc n { desc := o.2.1, dev := o.2.2 } false (d.modMed fun m => { m with owed := listEraseFirst (fun y => y == o) m.owed })
    else d) d

/-- Thrumlux hears the completions of a channel and acts on them. -/
def thrumlux (n : Nat) (d : Dev) : Dev :=
  let hs := d.med.heard.filter fun h => decide (h.ch = n)
  let d := d.modMed fun m => { m with heard := m.heard.filter fun h => decide (h.ch ≠ n) }
  postOwed n (settleOld n (hs.foldl (fun d h => hear h d) d))

end Sys2Proof.Machine
end

