-- ==== Sys2Proof/Machine/Arb.lean ====
section
/-! DEFINITION. The bus arbiter and what a grant does: decision points, preemption points, ends of bursts, floors,
time-outs, retirement (R38, R39, R170, R178 to R197, R203 to R216). -/

namespace Sys2Proof.Machine

/-! ### The grid (Tables 2-1 and 6-4) -/

/-- Start cycles of the command slots. -/
def Rate.cmdSlots : Rate → List Nat
  | .r3600 | .sdr => [0, 336, 672, 1008]
  | .r2400 => [0, 496, 752, 1008]
  | .r1600 => [0, 376, 752, 1008]
  | .r800 => [0, 736, 752, 1008]

/-- Start cycles of the codeword slots. -/
def Rate.cwSlots : Rate → List Nat
  | .r3600 | .sdr => [16, 176, 352, 512, 688, 848]
  | .r2400 => [16, 256, 512, 768]
  | .r1600 => [16, 392]
  | .r800 => [16]

/-- Cycles of a codeword slot. -/
def Rate.cwLen : Rate → Nat
  | .r3600 | .sdr => 160
  | .r2400 => 240
  | .r1600 => 360
  | .r800 => 720

/-- Start cycle of command slot `i`. -/
def Rate.cmdStart (r : Rate) (i : Nat) : Nat := r.cmdSlots.getD i 1024
/-- The first codeword slot after command slot `i`. -/
def Rate.firstCw (r : Rate) (i : Nat) : Nat := (r.cwSlots.filter (fun c => decide (c < r.cmdStart i))).length
/-- The codewords of a burst set up in command slot `i` that fit in the stroke (R39): none where no codeword slot follows
the command slot directly (R169). -/
def Rate.room (r : Rate) (i : Nat) : Nat :=
  if r.cwSlots.contains (r.cmdStart i + 16) then r.cwSlots.length - r.firstCw i else 0
/-- End of the codeword slot `k`. -/
def Rate.cwEnd (r : Rate) (k : Nat) : Nat := r.cwSlots.getD k 0 + r.cwLen

/-! ### Eligibility (R206) -/

/-- The path's owner may ask for what the request asks for in this stroke: the permission sets (R44) and what R174, R187 and
R203 need. -/
def Dev.permits (d : Dev) (n : Nat) (r : Req) : Bool :=
  let c := d.chan n
  let x := c.die r.target
  let j := dieSet r.target
  match r.kind with
  | .readStart =>
    (match x.queue.find? (fun q => q.desc.tag == r.tag && q.desc.isRead) with
      | some q => (d.readMode n r.target q).isSome
      | none => false)
  | .readOut | .poll | .reset => true
  | .load => !x.loadWaits || (x.st == .idle && (d.readCandidate n r.target).isNone && d.mayStartNew n)
  | .resume =>
    (match x.op with
      | some o =>
        (if o.q.desc.op = 3 then entryErase c.entry j else entryProg c.entry j) &&
          x.rd.isNone && x.held.isEmpty &&
          ((d.readCandidate n r.target).isNone || decide (d.rdc n Fd.SEQ_SUSP_CFG_READS ≤ o.susReads))
      | none => false)
  | .start =>
    d.mayStartNew n &&
    (match x.op with
      | some _ => entryProg c.entry j
      | none => entryErase c.entry j && x.st == .idle && (d.readCandidate n r.target).isNone)

/-- What the limit set in force lets start at command slot `i` (R405, Table 15-3). -/
def Dev.withinLimit (d : Dev) (n i : Nat) (r : Req) : Bool :=
  let c := d.chan n
  let owner := if c.governed then entryOwner c.entry else 15
  let first := c.rate.firstCw i
  if d.pwr.limit = 0 || !d.strk.lock then true
  else if owner = 15 then
    (match d.pwr.limit with
      | 1 => r.len = 0 || decide (first + r.len ≤ 4)
      | 2 => r.len = 0 || decide (first + r.len ≤ 2)
      | _ => false)
  else decide (owner = r.cls) && (d.pwr.limit < 3 || r.len = 0 || (first % 2 = 0 && decide (r.len ≤ 2)))

/-- A request is eligible at command slot `i` (R206); while the stroke PLL is unlocked no grid holds (R216). -/
def Dev.eligible (d : Dev) (n i : Nat) (r : Req) : Bool :=
  let c := d.chan n
  d.running n && !c.retired && !c.nullStroke && !c.calStroke && c.served r.cls && d.permits n r && d.withinLimit n i r && decide (d.pwr.ps < 3) &&
    (r.len = 0 || !d.strk.lock || decide (r.len ≤ c.rate.room i))

/-! ### Rank (R207) -/

/-- Class `k` owns the stroke. -/
def Chan.ownsStroke (c : Chan) (k : Nat) : Bool :=
  c.governed && decide (entryOwner c.entry < 15) && decide (entryOwner c.entry = k)

/-- The stroke is owned by a contractable class. -/
def Chan.ownedStroke (c : Chan) : Bool := c.governed && decide (entryOwner c.entry < 15)

/-- The lend priority of a class in force (Table 7-5). -/
def Chan.lendPri (c : Chan) (k : Nat) : Nat := bits c.pri.toNat (2 * k + 1) (2 * k)

def ReqKind.code : ReqKind → Nat
  | .readOut => 0 | .readStart => 1 | .poll => 2 | .resume => 3 | .start => 4 | .load => 5 | .reset => 6

/-- The rank of a request, smaller first: tier, then what R207 names in order; in arrival order while the PLL is unlocked. -/
def Dev.rank (d : Dev) (n : Nat) (r : Req) : List Nat :=
  let c := d.chan n
  if !d.strk.lock then r.order
  else if c.ownsStroke r.cls then [0, r.kind.code] ++ r.order
  else if r.forced then 1 :: r.order
  else [2, c.lendPri r.cls, r.kind.code] ++ r.order

/-- The first of a list that ranks before every other. -/
def firstRanked (rank : Req → List Nat) : List Req → Option Req
  | [] => none
  | r :: rest =>
    match firstRanked rank rest with
    | some b => if lexLt (rank b) (rank r) then some b else some r
    | none => some r

/-- The request that R207 grants at command slot `i`. -/
def Dev.winner (d : Dev) (n i : Nat) : Option Req :=
  firstRanked (d.rank n) ((d.chan n).pq.filter (d.eligible n i))

/-! ### What a grant does to its die -/

/-- Floor and time-out of a start sequence issued now, counted from the end of its command slot (R178). -/
def Dev.floorOf (d : Dev) (n : Nat) (fs : List Fld) : Nat :=
  d.now + 16 + usCycles (fs.foldl (fun a f => a + d.rdc n f) 0)
def Dev.limitOf (d : Dev) (n : Nat) (fs : List Fld) : Nat :=
  d.now + 16 + 1024 * fs.foldl (fun a f => a + d.rdc n f) 0

/-- One more suspension of the die's operation (R186). -/
def countSusp (n t : Nat) (d : Dev) : Dev :=
  let d := d.addc n Fd.SEQ_CNT_SUSP_SUSP 1
  match (d.die n t).op with
  | some o =>
    let d := d.modDie n t (fun x => { x with op := some { o with susps := o.susps + 1 } })
    if o.susps + 1 = d.suspLimit n o.q.desc then d.addc n Fd.SEQ_CNT_SUSP_EXH 1 else d
  | none => d

/-- The command slot a host read's descriptor serves (Table 9-5). -/
def descSlot (x : Desc) : Option Nat :=
  if x.op = 1 && bits x.ctx.toNat 31 30 = 0 then some (bits x.ctx.toNat 29 13) else none

/-- The read runs on its die; every array read counts toward its block's read disturb (R226). A host read that starts ahead of earlier
descriptors is at the head of its die's queue from now on (R154, log entry 110). -/
def setRead (n t : Nat) (q : QDesc) (long : Bool) (st : DieState) (d : Dev) : Dev :=
  let run : RdOp :=
    { q := q, startT := d.now, inSusp := st == .progSusp || st == .eraseSusp, polling := false, busy := 0, status := 0
      floorT := d.floorOf n (if long then [Fd.SEQ_T_SUSP_FLOOR, Fd.SEQ_T_READ_FLOOR] else [Fd.SEQ_T_READ_FLOOR])
      limitT := d.limitOf n (if long then [Fd.SEQ_T_SUSP_TIMEOUT, Fd.SEQ_T_READ_TIMEOUT] else [Fd.SEQ_T_READ_TIMEOUT]) }
  let d := d.modDie n t (fun x => { (x.dropQueued q) with st := st, rd := some run })
  let d := d.modMed fun m => { m with reads := mapMod 0 m.reads (blockKey (dieNumber n t) q.desc.block) (· + 1) }
  let d := match descSlot q.desc with
    | some k => if q.detached then d else d.modSlot k fun y => { y with headT := some (y.headT.getD d.now) }
    | none => d
  if d.thresh (if q.desc.slc then 4 else 3) ≤ mapGet 0 d.med.reads (blockKey (dieNumber n t) q.desc.block) then
    wantReplace (dieNumber n t) q.desc.block 6 576 d
  else d

/-- The operation the die runs is suspended now (R185). -/
def suspendOp (n t : Nat) (d : Dev) : Dev :=
  d.modDie n t (fun x =>
    { x with op := x.op.map (fun o =>
        { o with phase := .suspended, ranT := o.ranT + (d.now + 16 - o.sinceT), polling := false, susReads := 1 }) })

/-- A granted READ_START (R179, R181, R185, R187, R191). -/
def grantReadStart (n t : Nat) (q : QDesc) (m : ReadMode) (d : Dev) : Dev :=
  let x := d.die n t
  match m with
  | .plain =>
    let d := d.modDie n t (fun x => { x with op := x.op.map (fun o =>
      if o.phase == .suspended then { o with susReads := o.susReads + 1 } else o) })
    setRead n t q false (if x.st == .idle then .read else x.st) d
  | .suspend =>
    let d := (suspendOp n t (countSusp n t d)).modChan n (fun c => c.dropReqs t true)
    setRead n t q true (if x.st == .erase then .eraseSusp else .progSusp) d
  | .cancel =>
    let d := (countSusp n t d).modChan n (fun c => c.dropReqs t true)
    let d := d.modDie n t (fun x => { x with op := x.op.map fun o => o.unloaded .waiting })
    setRead n t q true .read d
  | .withdraw =>
    let d := d.addc n Fd.SEQ_CNT_DUP_WDRAW 1
    let d := setRead n t q true .read d
    match x.rd with
    | some old => d.modDie n t (fun y => { y with queue := old.q :: y.queue })
    | none => d

/-- A codeword whose content the spec does not give: counter and place. -/
def freeSector (k j : Nat) : Sector := { data := Config.freePayload k j, md := Config.freeMd k j }

/-- A unit on the medium whose content the spec does not give: a program that failed or was broken off (log entry 9). -/
def tearUnit (die : Nat) (x : Desc) (d : Dev) : Dev :=
  let k := unitSectors x.slc
  let m := forUpTo k (fun j m =>
    let (plane, page, cw) := unitPlace x.slc x.page j
    mapInsert m (mediaKey die x.block plane page cw)
      (freeSector d.nfree j)) d.media
  ({ d with media := m }).tick 1

/-- A program writes its unit: the codewords its loads brought (R181, R261). -/
def storeUnit (die : Nat) (x : Desc) (data : List Sector) (d : Dev) : Dev :=
  { d with media := forUpTo (unitSectors x.slc) (fun j m =>
      let (plane, page, cw) := unitPlace x.slc x.page j
      mapInsert m (mediaKey die x.block plane page cw) (data.getD j (freeSector d.nfree j))) d.media
           med := { d.med with replace := d.med.replace.map fun e =>
             (e.1, if e.1 = die && e.2.spare = x.block then { e.2 with done := max e.2.done x.page } else e.2) } }

/-- Sectors of the conventional region that a unit holds: a staged one is noted with its place, unless the row takes no new data any more
(R219), one copied from elsewhere on the medium moves (R131). -/
def moveConv (die : Nat) (x : Desc) (d : Dev) : Dev :=
  forUpTo (unitSectors x.slc) (fun j d =>
    let (plane, page, cw) := unitPlace x.slc x.page j
    let key := mediaKey die x.block plane page cw
    let h := d.pool.follow (4 * j) x.cell
    let move (m : Zm) : Zm := match mapFind m.convCopy h with
      | some old => { m with convCopy := mapErase m.convCopy h
                             conv := m.conv.map fun e => (e.1, if e.2 == .media old true then .media key true else e.2) }
      | none => m
    let (home, row) := d.roleOf die x.block
    let open' := (d.row (groupOf (home / 32) (home % 32)) row).worn.isNone
    let prog (m : Zm) : Zm :=
      if open' && m.conv.any fun e => (match e.2 with | .cells f _ => decide (f = h) | _ => false) then
        { m with convProg := mapInsert m.convProg h key }
      else m
    { d with zm := prog (move d.zm) }) d

/-- Wear points of an erase (R221). -/
def erasePoints (slc : Bool) : Nat := if slc then 1 else 10

/-- An erase adds to its block's wear, whether it passed or failed (R221). -/
def wearBlock (die block : Nat) (slc : Bool) (d : Dev) : Dev :=
  d.modMed fun m => { m with wear := mapMod 0 m.wear (blockKey die block) (· + erasePoints slc) }

/-- An erase empties its block (R182): the level set and the read count begin anew (R222, R225), and the row member the block
serves as no longer awaits its erase. -/
def eraseBlock (die block : Nat) (d : Dev) : Dev :=
  let (die0, role) := d.roleOf die block
  let m := die0 / 32 % 16
  let d := d.modRow (groupOf (die0 / 32) (die0 % 32)) role fun r => { r with dirty := setBits r.dirty m m 0 }
  { d with media := d.media.filter (fun e => !inBlock die block e.1)
           med := { d.med with level := mapErase d.med.level (blockKey die block)
                               reads := mapErase d.med.reads (blockKey die block) } }

/-- A broken-off erase leaves what the block held in no state the spec gives. -/
def tearBlock (die block : Nat) (d : Dev) : Dev :=
  let m : SMap Sector := d.media.map fun e => (e.1, if inBlock die block e.1 then freeSector d.nfree e.1 else e.2)
  ({ d with media := m }).tick 1

/-- What a program or erase broken off in its course leaves on the medium. -/
def tearOp (n t : Nat) (d : Dev) : Dev :=
  match (d.die n t).op with
  | some o =>
    if o.phase == .running || o.phase == .suspended then
      if o.q.desc.op = 3 then tearBlock (dieNumber n t) o.q.desc.block d else tearUnit (dieNumber n t) o.q.desc d
    else d
  | none => d

/-- The AUTOPROOF reads of a passed operation (R183), in the operation's class and device work as it was (R41). -/
def Dev.autoProofs (d : Dev) (n : Nat) (q : QDesc) : List QDesc :=
  (d.proofPlaces n q.desc).map fun p => { desc := proofDesc q.desc q.desc.tag 0 p, auto := true, dev := q.dev }

/-- A poll found the program or erase ready (R181 to R183, R196). -/
def opReady (n t : Nat) (o : PeOp) (p : PollResult) (d : Dev) : Dev :=
  let x := o.q.desc
  let busy := d.strk.ran - o.startT / 1024
  let d := d.modDie n t (fun y => { y with st := .idle, op := none })
  let r : Done := { status := 0, dieStatus := p.status.toNat, susps := o.susps, busy := busy }
  if p.fail then
    if x.op = 3 then
      let die := dieNumber n t
      complete n o.q { r with status := 0x11 } (wearBlock die x.block x.slc (tearBlock die x.block d))
    else complete n o.q { r with status := 0x10 } (tearUnit (dieNumber n t) x d)
  else
    let d := if x.op = 3 then eraseBlock (dieNumber n t) x.block (wearBlock (dieNumber n t) x.block x.slc d)
      else
        let d := storeUnit (dieNumber n t) x o.data d
        if x.slc then moveConv (dieNumber n t) x d else d
    let proofs := if x.autoproof then d.autoProofs n o.q else []
    if proofs.isEmpty then complete n o.q r d
    else d.modDie n t (fun y =>
      { y with
        queue := y.queue ++ proofs
        proofs := y.proofs ++
          [{ q := o.q, susps := o.susps, busy := busy, status := p.status.toNat, left := proofs.length, proofCw := 0,
             proofMax := 0 }] })

/-- Codewords of the mask at place `k`. -/
def maskCw (m k : Nat) : Nat := maskFirst m + k

/-- A granted POLL: of a status operation (R184), or of the running program or erase. -/
def grantPoll (n t : Nat) (r : Req) (p : PollResult) (d : Dev) : Dev :=
  let x := d.die n t
  match x.queue.find? (fun q => q.desc.op = 5 && q.desc.tag == r.tag) with
  | some q => complete n q { status := 0, dieStatus := p.status.toNat } (d.modDie n t (fun y => y.dropQueued q))
  | none =>
    match x.op with
    | some o =>
      let o := { o with status := p.status.toNat }
      if p.ready then opReady n t o p d else d.modDie n t (fun y => { y with op := some o })
    | none => d

/-- A granted RESUME (R178, R187). -/
def grantResume (n t : Nat) (d : Dev) : Dev :=
  match (d.die n t).op with
  | some o =>
    let e := decide (o.q.desc.op = 3)
    let floor := usCycles (d.rdc n (if e then Fd.SEQ_T_ERASE_FLOOR else Fd.SEQ_T_PROG_FLOOR))
    let lim := 1024 * d.rdc n (if e then Fd.SEQ_T_ERASE_TIMEOUT else Fd.SEQ_T_PROG_TIMEOUT)
    let t0 := d.now + 16
    d.modDie n t (fun x => { x with
      st := if e then .erase else .prog
      op := some { o with phase := .running, sinceT := t0, floorT := t0 + (floor - o.ranT), limitT := t0 + (lim - o.ranT),
                          polling := false } })
  | none => d

/-- A started program or erase. -/
def startedOp (o : PeOp) (d : Dev) (n : Nat) (floor limit : Fld) : PeOp :=
  { o with phase := .running, startT := d.now, sinceT := d.now + 16, ranT := 0, floorT := d.floorOf n [floor],
           limitT := d.limitOf n [limit], polling := false }

/-- A granted START: the loaded program, or the erase at the head of the order (R181, R182). -/
def grantStart (n t : Nat) (r : Req) (d : Dev) : Dev :=
  let x := d.die n t
  match x.op with
  | some o =>
    d.modDie n t (fun x => { x with
      st := .prog, op := some (startedOp o d n Fd.SEQ_T_PROG_FLOOR Fd.SEQ_T_PROG_TIMEOUT) })
  | none =>
    match x.queue.find? (fun q => q.desc.op = 3 && q.desc.tag == r.tag) with
    | some q =>
      let o := PeOp.fresh q .running
      d.modDie n t (fun x => { (x.dropQueued q) with
        st := .erase, op := some (startedOp o d n Fd.SEQ_T_ERASE_FLOOR Fd.SEQ_T_ERASE_TIMEOUT) })
    | none => d

/-- A reset sequence leaves on the bus: the die is held for tSUS (R184). A load it cuts short begins again later. -/
def resetDie (n t : Nat) (q : Option QDesc) (d : Dev) : Dev :=
  let e := d.floorOf n [Fd.SEQ_T_SUSP_FLOOR]
  d.modDie n t (fun x => { x with
    st := .reset, resetEnd := some e, resetQ := q, awaitReset := none
    held := x.held.filter (fun h => h.q.desc.op = 4)
    op := x.op.map fun o => o.unloaded .waiting })

/-- A granted LOAD (R181, R211): the first set-up of a program takes it, or begins a cancelled load again; every set-up names the column, and
the encoder takes codewords of the page from the request's progress on. -/
def grantLoad (n t : Nat) (r : Req) (d : Dev) : Dev :=
  let setUp (o : PeOp) : PeOp := { o with column := 4608 * r.progress, encCw := r.progress }
  d.modDie n t fun x =>
    match x.op with
    | some o => if o.phase == .waiting then { x with st := .load, op := some (setUp (o.unloaded .loading)) } else { x with op := some (setUp o) }
    | none =>
      match x.queue.find? (fun q => q.desc.op = 2 && q.desc.tag == r.tag) with
      | some q => { (x.dropQueued q) with st := .load, op := some (setUp (PeOp.fresh q .loading)) }
      | none => x

/-- `k` more codewords of the page that the die loads have gone to the bus, from its cell chain through the encoder (R181, R211). -/
def sentCws (n t k : Nat) (d : Dev) : Dev :=
  d.modDie n t fun x => { x with op := x.op.map fun o =>
    { o with data := o.data ++ (List.range k).map fun i => d.pool.sector o.q.desc.cell (4 * o.pages + o.encCw + i) } }

/-- A granted RESET: of a time-out, or of a reset operation, which ends what runs on the die (R178, R184). -/
def grantReset (n t : Nat) (r : Req) (d : Dev) : Dev :=
  match (d.die n t).queue.find? (fun q => q.desc.op = 6 && q.desc.tag == r.tag) with
  | some q => resetDie n t (some q) (endOps n t 0x30 (tearOp n t (d.modDie n t (fun y => y.dropQueued q))))
  | none => resetDie n t none d

/-- A poll-and-read-out: whether the burst follows. The poll that finds the die ready ends the read's BUSY time. -/
def grantReadOut (n t : Nat) (p : PollResult) (d : Dev) : Dev :=
  d.modDie n t (fun x => { x with
    st := if p.ready && x.st == .read then .out else x.st
    rd := x.rd.map (fun run =>
      { run with status := p.status.toNat, busy := if p.ready then d.strk.ran - run.startT / 1024 else run.busy }) })

/-! ### Decision points (R205 to R208, R213) -/

/-- Counts the losses of R213 at a decision point that a request of tier F or L won. -/
def countLosses (n i : Nat) (win : Req) (d : Dev) : Dev :=
  let c := d.chan n
  let pq := c.pq.map (fun r =>
    if r != win && d.eligible n i r then
      { r with wait := satAdd 255 r.wait 1, forced := r.forced || decide (c.limit ≤ r.wait + 1) } else r)
  let top := pq.foldl (fun a r => max a r.wait) (d.rdc n Fd.CARB_CNT_FORCE_MAXWAIT)
  (d.setChan n { c with pq := pq }).wrc n Fd.CARB_CNT_FORCE_MAXWAIT top

/-- Removes a granted request from the queue and puts its grant on the bus. -/
def holdBus (n i : Nat) (r : Req) (moving : Bool) (d : Dev) : Dev :=
  d.modChan n (fun c =>
    let first := c.rate.firstCw i
    { c with
      pq := listEraseFirst (fun y => y == r) c.pq
      holder := some { req := { r with wait := 0, forced := false }, first := first, len := r.len, moving := moving,
                       owned := c.ownsStroke r.cls,
                       endC := if r.len = 0 then c.rate.cmdStart i + 16 else c.rate.cwEnd (first + r.len - 1) }
      usedNow := c.usedNow || (moving && c.ownsStroke r.cls) })

/-- The effect of granting command slot `i` to request `r`. -/
def grant (n i : Nat) (r : Req) (p : PollResult) (d : Dev) : Dev :=
  let t := r.target
  let d := holdBus n i r (r.kind == .load || (r.kind == .readOut && p.ready)) d
  match r.kind with
  | .readStart =>
    (match (d.die n t).queue.find? (fun q => q.desc.tag == r.tag && q.desc.isRead) with
      | some q =>
        (match d.readMode n t q with
          | some m => grantReadStart n t q m d
          | none => d)
      | none => d)
  | .readOut =>
    let d := grantReadOut n t p d
    if p.ready then d else d.modChan n fun c => c.requeue { r with wait := 0, forced := false }
  | .poll => grantPoll n t r p d
  | .resume => grantResume n t d
  | .start => grantStart n t r d
  | .load => grantLoad n t r d
  | .reset => grantReset n t r d

/-- A decision point at which `r` wins (R207, R213; Tables 7-8, 7-9, 7-10). -/
def winAt (n i : Nat) (r : Req) (p : PollResult) (d : Dev) : Dev :=
  let c := d.chan n
  let tierO := d.strk.lock && c.ownsStroke r.cls
  let lent := d.strk.lock && c.ownedStroke && !tierO
  let d := if d.strk.lock && !tierO then countLosses n i r d else d
  let d := if lent then (d.addc n Fd.CARB_CNT_GRANT_LENT 1).modChan n (fun c => { c with lentNow := true }) else d
  let d := if r.forced && d.strk.lock then (d.addc n Fd.CARB_CNT_FORCE_FORCED 1).wrc n Fd.CARB_EVT_FORCE 1 else d
  grant n i r p d

/-- The start of command slot `i` is still to come in this stroke. -/
def Dev.slotAhead (d : Dev) (n i : Nat) : Bool :=
  !d.strk.lock || (decide ((d.chan n).nextSlot ≤ i) && decide (d.strk.cycle ≤ (d.chan n).rate.cmdStart i))

/-- Moves to the start of command slot `i`. -/
def Dev.toSlot (d : Dev) (n i : Nat) : Dev :=
  (d.atCycle (BitVec.ofNat 10 ((d.chan n).rate.cmdStart i))).modChan n (fun c => { c with nextSlot := i + 1 })

/-- No burst, and no idle span of a read-out that found its die busy, lies over the start of command slot `i` (R205, R215). -/
def Chan.slotFree (c : Chan) (lock : Bool) (i : Nat) : Bool :=
  match c.holder with
  | some h => !h.moving && (!lock || decide (h.endC ≤ c.rate.cmdStart i))
  | none => true

/-- A re-read of the LDPC block that completed without data leaves its codeword undecoded (R253). -/
def orphanRereads (n : Nat) (d : Dev) : Dev :=
  let items := d.ecc.items.map fun y =>
    match y.stage with
    | .reread _ => if y.ch = n && !(d.die n y.target).tagLive y.rrTag then { y with stage := .waitRecord } else y
    | _ => y
  { d with ecc := { d.ecc with items := items } }

/-- A host read whose descriptor has come to the head of its die's queue takes its time (R154, R174); one that waits there on
an operation that may not be suspended any more is marked (R157). -/
def markHead (n t : Nat) (d : Dev) : Dev :=
  let x := d.die n t
  match x.queue with
  | q :: _ =>
    (match descSlot q.desc with
      | some k =>
        let spent := match x.op with
          | some o => o.phase == .running && decide (d.suspLimit n o.q.desc ≤ o.susps)
          | none => false
        if x.peStarted && !q.detached then d.modSlot k fun y => { y with headT := some (y.headT.getD d.now), suspHit := y.suspHit || spent }
        else d
      | none => d)
  | [] => d

/-- The address of a stipple map entry (R277). -/
def Dev.stipAddr (d : Dev) (ch t b : Nat) : Nat :=
  d.base Rg.STIP_MAP_BASE_LO Rg.STIP_MAP_BASE_HI 0 + ((ch * 32 + t) * 4096 + b) * 4

/-- A stipple map entry (Table 9-10a). -/
def State.stipEntry (s : State) (ch t b : Nat) : Nat := leNat (s.readBytes 4 (s.dev.stipAddr ch t b))

def Dev.stipChan (d : Dev) (n : Nat) : StipChan := mapGet StipChan.reset d.stip.chans n
def Dev.modStip (d : Dev) (n : Nat) (f : StipChan → StipChan) : Dev :=
  { d with stip := { d.stip with chans := mapMod StipChan.reset d.stip.chans n f } }

/-- The completion of a posted stipple read, if it has come. -/
def Dev.stipDone (d : Dev) (n : Nat) (p : StipPost) : Option CqEntry := (d.die n p.target).doneTag p.tag

/-- What stipple does with the completion of a read (R279). -/
def stipAnswer (gen : Nat) (p : StipPost) (e : CqEntry) (d : Dev) : Dev :=
  let st := bits e.dw0.toNat 31 24
  let d := if st = 0 || st = 0x12 then d.add Fd.STIP_CNT_PAGES_PAGES 1 else d
  let d := if st = 0x12 && !p.erased then d.add Fd.STIP_CNT_WEAK_WEAK 1 else d
  if gen ≠ p.gen then d.add Fd.STIP_CNT_WEAK_STALE 1
  else d.flagIf (decide (st = 0x12) && !p.erased) Fd.STIP_EVT_WEAK

/-- The posted stipple reads of a channel whose completions have come are answered. -/
def stipResults (n : Nat) (s : State) : State :=
  (s.dev.stipChan n).posted.foldl (fun (s : State) p =>
    match s.dev.stipDone n p with
    | some e =>
      let gen := bits (s.stipEntry n p.target p.block) 29 24
      s.modDev fun d => (stipAnswer gen p e d).modStip n fun c => { c with posted := listEraseFirst (fun q => q == p) c.posted }
    | none => s) s

/-- What follows every event of a channel: completions reported to the device that asked, and to the ring, requests raised, completions those
bring, what Thrumlux does on them and the requests of that, stipple's own completions answered. -/
def afterChan (n : Nat) (s : State) : State :=
  stipResults n (drainSeq n ((drainSeq n (s.modDev (farDone n))).modDev fun d =>
    farDone n (forUpTo 32 (fun t d => markHead n t d) (orphanRereads n (refreshChan n (thrumlux n (refreshChan n d)))))))

/-- DECISION_POINT: the start of a command slot no burst holds. -/
def decisionPoint (n i : Nat) (p : PollResult) (d : Dev) : Except String Dev :=
  if d.slotAhead n i && (d.chan n).slotFree d.strk.lock i then
    let d := (d.toSlot n i).modChan n (fun c => { c with holder := none })
    let d := refreshChan n d
    match d.winner n i with
    | some r => .ok (winAt n i r p d)
    | none => .ok d
  else .error "decision point"

def execDecisionPoint (ch : Fin 48) (slot : Fin 4) (poll : PollResult) (s : State) : Host.Outcome State Fault Refusal :=
  onDevThen s (decisionPoint ch slot poll) (afterChan ch)

/-! ### Preemption points (R209 to R211) -/

/-- The owner's reads that are eligible at command slot `i`. -/
def Dev.ownerReads (d : Dev) (n i : Nat) : List Req :=
  (d.chan n).pq.filter (fun r =>
    d.eligible n i r && (d.chan n).ownsStroke r.cls && (r.kind == .readOut || r.kind == .readStart))

/-- Ends the LOAD that holds the bus: it returns to the queue with its age and its progress (R210). -/
def preemptLoad (n i : Nat) (h : Holder) (d : Dev) : Dev :=
  let sent := (d.chan n).rate.firstCw i - h.first
  let d := sentCws n h.req.target sent d
  let d := d.modChan n fun c =>
    { c.requeue { h.req with progress := h.req.progress + sent, len := h.req.len - sent } with holder := none }
  (d.addc n Fd.CARB_CNT_GRANT_PREEMPT 1).wrc n Fd.CARB_EVT_PREEMPT 1

/-- PREEMPTION_POINT: the start of a command slot inside a burst. -/
def preemptionPoint (n i : Nat) (p : PollResult) (d : Dev) : Except String Dev :=
  match (d.chan n).holder with
  | some h =>
    if d.strk.lock && h.moving && d.slotAhead n i && decide ((d.chan n).rate.cmdStart i < h.endC) then
      let d := refreshChan n (d.toSlot n i)
      if h.req.kind == .load then
        match firstRanked (d.rank n) (d.ownerReads n i) with
        | some r =>
          .ok (winAt n i r p (preemptLoad n i h d))
        | none => .ok d
      else .ok d
    else .error "preemption point"
  | none => .error "preemption point"

def execPreemptionPoint (ch : Fin 48) (slot : Fin 4) (poll : PollResult) (s : State) : Host.Outcome State Fault Refusal :=
  onDevThen s (preemptionPoint ch slot poll) (afterChan ch)

end Sys2Proof.Machine
end

