-- ==== Sys2Proof/Machine/Channel.lean ====
section
/-! DEFINITION. The channel engine's other commands: descriptors, ends of bursts, floors, time-outs, die resets,
retirement, block states, PHY rate (R171 to R202). -/

namespace Sys2Proof.Machine

/-! ### Descriptors (R171 to R173, R193) -/

/-- A post with an operation code of Table 6-5: the write of SEQ_POST_D7 by graver `g`. -/
def postOp (op ch : Nat) (g : Fin 64) (desc : Desc) (dev : Bool) (cyc : BitVec 10) (s : State) :
    Host.Outcome State Fault Refusal :=
  let desc := { desc with d0 := BitVec.ofNat 32 (setBits desc.d0.toNat 31 28 op) }
  onDevThen s (always fun d => postDesc ch g desc dev (d.atCycle cyc)) (afterChan ch)

def execDescriptorRead (ch : Fin 48) (g : Fin 64) (desc : Desc) (dev : Bool) (cyc : BitVec 10) (s : State) :
    Host.Outcome State Fault Refusal := postOp 1 ch g desc dev cyc s
def execDescriptorProgram (ch : Fin 48) (g : Fin 64) (desc : Desc) (dev : Bool) (cyc : BitVec 10) (s : State) :
    Host.Outcome State Fault Refusal := postOp 2 ch g desc dev cyc s
def execDescriptorErase (ch : Fin 48) (g : Fin 64) (desc : Desc) (dev : Bool) (cyc : BitVec 10) (s : State) :
    Host.Outcome State Fault Refusal := postOp 3 ch g desc dev cyc s
def execDescriptorProofRead (ch : Fin 48) (g : Fin 64) (desc : Desc) (dev : Bool) (cyc : BitVec 10) (s : State) :
    Host.Outcome State Fault Refusal := postOp 4 ch g desc dev cyc s
def execDescriptorStatus (ch : Fin 48) (g : Fin 64) (desc : Desc) (dev : Bool) (cyc : BitVec 10) (s : State) :
    Host.Outcome State Fault Refusal := postOp 5 ch g desc dev cyc s
def execDescriptorReset (ch : Fin 48) (g : Fin 64) (desc : Desc) (dev : Bool) (cyc : BitVec 10) (s : State) :
    Host.Outcome State Fault Refusal := postOp 6 ch g desc dev cyc s

/-! ### Ends of bursts (R179, R183, R198, R253) -/

/-- Codeword `k` of a read as the medium holds it. -/
def Dev.mediaAt (d : Dev) (n : Nat) (x : Desc) (cw : Nat) : Option Sector :=
  mapFind d.media (mediaKey (dieNumber n x.target) x.block x.plane x.page cw)

/-- Passive tracking: the read centre moves by at most one tap per stroke, at the next boundary (R198). -/
def trackEye (n t : Nat) (drift : Option Bool) (d : Dev) : Dev :=
  match drift with
  | some up =>
    d.modDie n t (fun x =>
      { x with rdNext := match x.rdNext with
          | some v => some v
          | none => some (if up then min 255 (x.rdCenter + 1) else x.rdCenter - 1) })
  | none => d

/-- The codewords of a burst of a read in order, each with its number in the page. -/
def burstCws (x : Desc) : List Nat := (List.range (maskCount x.cwmask)).map (maskCw x.cwmask)

/-- The level set of a proof read: MARGIN, or its default (R183). -/
def Dev.marginOf (d : Dev) (n : Nat) (x : Desc) : Nat := if x.margin = 0 then d.rdc n Fd.SEQ_PROOF_CFG_MARGIN else x.margin

/-- The codewords of a first read pass to the hard decoder (R252). -/
def toHard (n : Nat) (q : QDesc) (owned : Bool) (d : Dev) : Dev :=
  let x := q.desc
  let items := (burstCws x).map fun cw =>
    ({ ch := n, target := x.target, block := x.block, plane := x.plane, page := x.page, cw := cw, slc := x.slc,
       first := maskFirst x.cwmask, readTag := x.tag, rrTag := x.tag, ctx := x.ctx, cls := x.cls,
       level := if x.op = 4 then d.marginOf n x else x.level,
       wdraw := x.wdraw, dev := q.dev, owned := owned, proof := x.op = 4, stage := .hard, sector := d.mediaAt n x cw,
       detached := q.detached } : EccItem)
  { d with ecc := { d.ecc with items := d.ecc.items ++ items } }

/-- A re-read of the LDPC block brought its codeword: a soft re-read readies it for a soft decoder (R253), a deep read adds
to what the deep decoder combines (R255). -/
def toReread (n : Nat) (x : Desc) (d : Dev) : Dev :=
  let mine (y : EccItem) : Bool := decide (y.ch = n) && decide (y.target = x.target) && y.rrTag == x.tag
  let items := d.ecc.items.map fun y =>
    match y.stage with
    | .reread i => if mine y then { y with stage := .softWait i, order := d.ecc.arrivals } else y
    | _ => y
  let escs : SMap Escalation := d.ecc.escs.map fun e =>
    (e.1, if mine e.2.item then { e.2 with reads := e.2.reads + 1 } else e.2)
  { d with ecc := { d.ecc with items := items, escs := escs, arrivals := d.ecc.arrivals + 1 } }

/-- Data of a RAW read: the medium's bits, with errors the spec does not give (free). -/
def rawSectors (x : Desc) (d : Dev) : List (Nat × Sector) × Dev :=
  ((burstCws x).map fun cw => (cw, freeSector d.nfree cw), d.tick 1)

/-- A RAW read delivers to the cells its CTX names (Table 9-5); its other destinations take decoded sectors only. -/
def rawDeliver (x : Desc) (d : Dev) : Dev :=
  let (cws, d) := rawSectors x d
  if bits x.ctx.toNat 31 30 = 2 then
    d.modPool fun p => cws.foldl (fun p c => p.putSector (bits x.ctx.toNat 25 0) (c.1 - maskFirst x.cwmask) c.2) p
  else d

/-- The status of a proof read (R183). -/
def proofStatus (cw : Nat) : Nat := if cw = 0 then 0 else 0x12

/-- The limit on a proof read's counts. -/
def Dev.proofLimit (d : Dev) (n : Nat) (x : Desc) : Nat :=
  if x.plimit = 0 then d.rdc n Fd.SEQ_PROOF_CFG_LIMIT else x.plimit

/-- A proof read of the sequencer's own joins the account of its program or erase (R183). -/
def proofToJob (n t : Nat) (q : QDesc) (cw top : Nat) (d : Dev) : Dev :=
  d.modDie n t fun x => { x with proofs := x.proofs.map fun p =>
    if p.q.desc.tag == q.desc.tag then
      { p with left := p.left - 1, proofCw := p.proofCw + cw, proofMax := max p.proofMax top } else p }

/-- A proof read is over: its completion, or its share in an AUTOPROOF completion. -/
def endProof (n : Nat) (h : Held) (d : Dev) : Dev :=
  if h.q.auto then proofToJob n h.q.desc.target h.q h.proofCw h.proofMax d
  else complete n h.q { status := proofStatus h.proofCw, dieStatus := h.status, busy := h.busy, proofCw := h.proofCw,
                        proofMax := h.proofMax } d

/-- A RAW proof read counts zero bits (R183). -/
def rawProof (n : Nat) (run : RdOp) (zeros : List Nat) (d : Dev) : Dev :=
  let lim := d.proofLimit n run.q.desc
  let zs := zeros.take (maskCount run.q.desc.cwmask)
  endProof n { q := run.q, left := 0, busy := run.busy, status := run.status,
               proofCw := (zs.filter (fun z => decide (lim < z))).length, proofMax := min 0xFFFF (zs.foldl max 0) } d

/-- The die holds a read until its codewords are released (R46, R179). -/
def holdRead (n : Nat) (run : RdOp) (d : Dev) : Dev :=
  d.modDie n run.q.desc.target fun x => { x with held := x.held ++
    [{ q := run.q, left := maskCount run.q.desc.cwmask, busy := run.busy, status := run.status, proofCw := 0,
       proofMax := 0 }] }

/-- The last codeword of the read that a die runs has left the bus (R179). -/
def readDone (n : Nat) (run : RdOp) (owned : Bool) (zeros : List Nat) (d : Dev) : Dev :=
  let x := run.q.desc
  let t := x.target
  let d := d.modDie n t fun y => { y with rd := none }
  let d :=
    if x.op = 4 then
      if x.raw then rawProof n run zeros d else toHard n run.q owned (holdRead n run d)
    else
      let d := complete n run.q { status := 0, dieStatus := run.status, busy := run.busy } d
      if x.raw then rawDeliver x d
      else if ldpcTag x.tag then toReread n x d
      else toHard n run.q owned (holdRead n run d)
  d.modDie n t Die.relax

/-- The cycle at which the span on the bus ends. -/
def Dev.toSpanEnd (d : Dev) (h : Holder) : Dev := d.atCycle (BitVec.ofNat 10 h.endC)

/-- READ_BURST_END: the last codeword of the read-out that holds the bus. -/
def readBurstEnd (n : Nat) (zeros : List Nat) (drift : Option Bool) (d : Dev) : Except String Dev :=
  match (d.chan n).holder with
  | some h =>
    if h.moving && h.req.kind == .readOut then
      let t := h.req.target
      let d := (d.toSpanEnd h).modChan n (fun c => { c with holder := none })
      let d := trackEye n t drift d
      match (d.die n t).rd with
      | some run => .ok (readDone n run h.owned zeros d)
      | none => .ok d
    else .error "read burst"
  | none => .error "read burst"

def execReadBurstEnd (ch : Fin 48) (zeros : List Nat) (drift : Option Bool) (s : State) : Host.Outcome State Fault Refusal :=
  onDevThen s (readBurstEnd ch zeros drift) (afterChan ch)

/-- A page of the unit is loaded: the next page, or the start (R181). -/
def pageLoaded (n t : Nat) (d : Dev) : Dev :=
  d.modDie n t fun x => { x with op := x.op.map fun o =>
    { o with pages := o.pages + 1
             phase := if unitPages o.q.desc.slc ≤ o.pages + 1 then .starting else .loading } }

/-- LOAD_BURST_END: the last codeword of the load that holds the bus. -/
def loadBurstEnd (n : Nat) (d : Dev) : Except String Dev :=
  match (d.chan n).holder with
  | some h =>
    if h.moving && h.req.kind == .load then
      let d := sentCws n h.req.target h.len ((d.toSpanEnd h).modChan n (fun c => { c with holder := none }))
      .ok (pageLoaded n h.req.target d)
    else .error "load burst"
  | none => .error "load burst"

def execLoadBurstEnd (ch : Fin 48) (s : State) : Host.Outcome State Fault Refusal :=
  onDevThen s (loadBurstEnd ch) (afterChan ch)

/-! ### Floors, time-outs, resets (R178, R184) -/

/-- The program or erase runs and its floor has passed. -/
def PeOp.floorDue (o : PeOp) (d : Dev) : Bool := o.phase == .running && !o.polling && d.reached o.floorT
/-- The program or erase runs past its time-out. -/
def PeOp.timedOut (o : PeOp) (d : Dev) : Bool := o.phase == .running && d.reached o.limitT
def RdOp.floorDue (r : RdOp) (d : Dev) : Bool := !r.polling && d.reached r.floorT

/-- POLL_FLOOR_PASS: the die may be polled from now on. -/
def pollFloorPass (n t : Nat) (cyc : BitVec 10) (d : Dev) : Except String Dev :=
  let d := d.atCycle cyc
  let x := d.die n t
  let a := x.rd.any (·.floorDue d)
  let b := x.op.any (·.floorDue d)
  if a || b then
    .ok (d.modDie n t fun x => { x with
      rd := if a then x.rd.map (fun r => { r with polling := true }) else x.rd
      op := if b then x.op.map (fun o => { o with polling := true }) else x.op })
  else .error "poll floor"

def execPollFloorPass (ch : Fin 48) (t : Fin 32) (cyc : BitVec 10) (s : State) : Host.Outcome State Fault Refusal :=
  onDevThen s (pollFloorPass ch t cyc) (afterChan ch)

/-- The class of a descriptor, and whether it is class-15 device work. -/
def QDesc.classOf (q : QDesc) : Nat × Bool := (q.desc.cls, q.dev && decide (q.desc.cls = 15))

/-- The class of the operation of a die that has timed out. -/
def Die.timeoutClass (x : Die) (d : Dev) : Option (Nat × Bool) :=
  match x.rd with
  | some r => if d.reached r.limitT then some r.q.classOf else opClass
  | none => opClass
where opClass : Option (Nat × Bool) :=
  match x.op with
  | some o => if o.timedOut d then some o.q.classOf else none
  | none => none

/-- OPERATION_TIMEOUT (R178): what the reset will end completes with 0x30, and the reset is requested. -/
def operationTimeout (n t : Nat) (cyc : BitVec 10) (d : Dev) : Except String Dev :=
  let d := d.atCycle cyc
  match (d.die n t).timeoutClass d with
  | some k =>
    if (d.chan n).holder.any (fun h => h.moving && h.req.target == t) then .error "time-out"
    else
      let d := endOps n t 0x30 (tearOp n t d)
      .ok ((d.modDie n t fun x => { x with awaitReset := some k }).wrc n Fd.SEQ_EVT_TIMEOUT 1)
  | none => .error "time-out"

def execOperationTimeout (ch : Fin 48) (t : Fin 32) (cyc : BitVec 10) (s : State) : Host.Outcome State Fault Refusal :=
  onDevThen s (operationTimeout ch t cyc) (afterChan ch)

/-- DIE_RESET_DONE: the hold of a die reset ends (R184). -/
def dieResetDone (n t : Nat) (cyc : BitVec 10) (d : Dev) : Except String Dev :=
  let d := d.atCycle cyc
  let x := d.die n t
  match x.resetEnd with
  | some e =>
    if d.reached e then
      let d := d.modDie n t fun y =>
        { y with resetEnd := none, resetQ := none, st := if y.st == .reset then .idle else y.st }
      match x.resetQ with
      | some q => .ok (complete n q { status := 0 } d)
      | none => .ok d
    else .error "die reset"
  | none => .error "die reset"

def execDieResetDone (ch : Fin 48) (t : Fin 32) (cyc : BitVec 10) (s : State) : Host.Outcome State Fault Refusal :=
  onDevThen s (dieResetDone ch t cyc) (afterChan ch)

/-! ### Registers with an action -/

/-- SEQ_CQ_HEAD_WRITE: the firmware consumes entries (R175). -/
def execSeqCqHeadWrite (ch : Fin 48) (v : Word) (s : State) : Host.Outcome State Fault Refusal :=
  onDevThen s (orRsv (decide (bits v.toNat 31 16 ≠ 0)) fun d => d.wrc ch Fd.SEQ_CQ_HEAD_INDEX v.toNat) (afterChan ch)

/-- The state that the records give a block (R233). -/
def Dev.recordedState (d : Dev) (die b : Nat) : Nat :=
  d.med.recs.foldl (fun a r => if r.die = die && r.block = b && r.state < 3 then r.state else a) 0

/-- BLOCK_STATE_WRITE: the state of the selected block (R195, Table 6-24); code 3 leaves it unchanged. A change to READONLY or BAD that no record
tells of yet is recorded first; its cause, which the write does not carry, is free (R233, log entry 120). -/
def blockStateWrite (n v : Nat) (d : Dev) : Dev :=
  let t := d.rdc n Fd.SEQ_BST_SEL_TARGET
  let b := d.rdc n Fd.SEQ_BST_SEL_BLOCK
  let st := bits v 1 0
  let die := dieNumber n t
  if st = 3 then d
  else
    let d := if 0 < st && d.recordedState die b ≠ st && (d.die n t).blockState b ≠ st then
        (badRecord die b (Config.freeByte 233 die d.nfree).toNat st 0xFF 0xFFFF (d.wearOf die b) d).tick 1
      else d
    d.modDie n t fun x => x.setBlock b st

def execBlockStateWrite (ch : Fin 48) (v : Word) (s : State) : Host.Outcome State Fault Refusal :=
  onDevThen s (orRsv (decide (bits v.toNat 31 2 ≠ 0)) (blockStateWrite ch v.toNat)) (afterChan ch)

/-- Retires a die (R197): what it runs ends with 0x31, and so will every queued descriptor. -/
def retireDie (n t : Nat) (d : Dev) : Dev :=
  let d := endOps n t 0x31 (tearOp n t d)
  let d := match (d.die n t).op with
    | some o => complete n o.q { status := 0x31, susps := o.susps } (d.modDie n t fun x => { x with op := none })
    | none => d
  let x := d.die n t
  let d := x.proofs.foldl (fun (d : Dev) p => complete n p.q { status := 0x31, dieStatus := p.status, susps := p.susps, busy := p.busy } d) d
  let d := (x.held.filter fun h => h.q.desc.op = 4 && !h.q.auto).foldl (fun (d : Dev) h =>
    complete n h.q { status := 0x31, dieStatus := h.status, busy := h.busy } d) d
  d.modDie n t fun x => { x with
    st := .retired, awaitReset := none, resetEnd := none, resetQ := none, proofs := [], held := []
    queue := (x.resetQ.toList ++ x.queue.filter fun q => !q.auto).map fun q => { q with bad := some 0x31 } }

/-- A die that is no longer there: what is queued on it completes with 0x24 (R173). -/
def Die.makeAbsent (x : Die) : Die :=
  { x with st := .absent, queue := x.queue.map fun q => if q.bad.isNone then { q with bad := some 0x24 } else q }

/-- A write of SEQ_DIE_CTL (Table 6-23). -/
def dieCtlWrite (n v : Nat) (d : Dev) : Dev :=
  let t := d.rdc n Fd.SEQ_DIE_SEL_TARGET
  let x := d.die n t
  let d :=
    if d.isc n Fd.SEQ_CTL_EN || !(x.st == .absent || x.st == .idle) then d.wrc n Fd.SEQ_EVT_CFG_IGN 1
    else d.modDie n t fun x => if bit v 0 then { x with st := .idle } else x.makeAbsent
  if bit v 1 then retireDie n t d else d


/-- Retires a channel (R197). -/
def retireChan (n : Nat) (d : Dev) : Dev :=
  let d := forUpTo 32 (fun t d => if (d.die n t).st == .absent then d else retireDie n t d) d
  d.modChan n fun c => { c with retired := true, pq := [] }

/-- The sequencers of a channel run; with the first time since power-up FLn_WP_N is driven high (R487). -/
def enableSeq (n : Nat) (d : Dev) : Dev :=
  { d.wrc n Fd.SEQ_CTL_EN 1 with sys := { d.sys with wp := setBits d.sys.wp n n 1 } }

/-- A write of SEQ_CTL (Table 6-11). -/
def seqCtlWrite (n v : Nat) (d : Dev) : Dev :=
  let d := d.wrc n Fd.SEQ_CTL_HOLD (bits v 2 2)
  let d := if bit v 0 then enableSeq n d else d.wrc n Fd.SEQ_CTL_EN 0
  if bit v 1 then retireChan n d else d


/-! ### PHY (R201) -/

/-- The rate of a code of Table 6-27. -/
def Rate.ofCode : Nat → Rate
  | 1 => .r800 | 2 => .r1600 | 3 => .r2400 | 4 => .r3600 | _ => .sdr
def Rate.code : Rate → Nat
  | .sdr => 0 | .r800 => 1 | .r1600 => 2 | .r2400 => 3 | .r3600 => 4

/-- Asks for a full training at RATE at the next sheet boundary. -/
def requestTraining (n : Nat) (d : Dev) : Dev :=
  d.modChan n fun c => { c with training := .requested, trainRate := Rate.ofCode (d.rdc n Fd.PHY_RATE_RATE) }

/-- A write of PHY_RATE: RATE, then RETRAIN, which acts only while scheduling is inactive. -/
def phyRateWrite (n v : Nat) (d : Dev) : Dev :=
  let r := bits v 2 0
  let d := if 1 ≤ r && r ≤ 4 then d.wrc n Fd.PHY_RATE_RATE r else d
  if bit v 8 then
    if (d.chan n).active then d.wrc n Fd.SEQ_EVT_CFG_IGN 1
    else if (d.chan n).training == .none then requestTraining n d else d
  else d

def phyRateStore (ch : Fin 48) (v : Nat) (s : State) : Host.Outcome State Fault Refusal :=
  onDev s (orRsv (decide (bits v 31 19 ≠ 0) || decide (bits v 15 9 ≠ 0) || decide (bits v 7 3 ≠ 0)) (phyRateWrite ch v))

/-- PHY_RETRAIN: a write of PHY_RATE with RETRAIN = 1. -/
def execPhyRetrain (ch : Fin 48) (v : Word) (s : State) : Host.Outcome State Fault Refusal :=
  phyRateStore ch (setBits v.toNat 8 8 1) s

/-- TRAINING_END: a full training ends; its rate takes effect at the next sheet boundary (R201). -/
def execTrainingEnd (ch : Fin 48) (s : State) : Host.Outcome State Fault Refusal :=
  onDev s fun d => onlyIf ((d.chan ch).training == .running) "training"
    (fun d => d.modChan ch fun c => { c with training := .ended }) d

end Sys2Proof.Machine
end

