-- ==== Sys2Proof/Machine/Sleep.lean ====
section
/-! DEFINITION. Idleness and the abort of an entry into a non-operational state (R406, R409, R410). -/

namespace Sys2Proof.Machine

/-- Idleness ends (R410). -/
def wakeIdle (d : Dev) : Dev := { d with pwr := { d.pwr with idleAt := none, lastTry := 0 } }

/-- The rescue blocks that hold an image await their erase (R241). -/
def dirtyImage (m : Image) (d : Dev) : Dev :=
  let rs := m.units.foldl (fun (rs : SMap Rescue) u =>
    mapMod Rescue.fresh rs u.die fun r => { r with states := listSetAt r.states (u.block - 8) 3 }) d.nvm.rescue
  let rs := m.dirAt.foldl (fun (rs : SMap Rescue) e =>
    mapMod Rescue.fresh rs e.1 fun r => { r with states := listSetAt r.states (e.2 - 8) 3 }) rs
  { d with nvm := { d.nvm with rescue := rs } }

/-- An entry under way is aborted (R409): the cause of Table 15-13; an image it has written is not replayed. -/
def abortEntry (cause : Nat) (d : Dev) : Dev :=
  match d.pwr.entry with
  | none => d
  | some e =>
    let d := ((d.add Fd.PWR_ENTRY_CNT_ABORTED 1).wr Fd.PWR_REFUSER_ABORT cause).wr Fd.PWR_EVT_ABORTED 1
    let d := { d with pwr := { d.pwr with entry := none } }
    if e.written then
      match d.nvm.images.getLast? with
      | some m => dirtyImage m { d with nvm := { d.nvm with images := d.nvm.images.dropLast } }
      | none => d
    else d

/-- A doorbell ends idleness and aborts an entry (R406, R409). -/
def wakeDoorbell (d : Dev) : Dev := abortEntry 1 (wakeIdle d)

end Sys2Proof.Machine
end

