-- ==== Sys2Proof/Machine/HostQueue.lean ====
section
/-! DEFINITION. Queues of the host interface: doorbells, fetch, completion posting, pacing, queue creation and deletion, Abort,
asynchronous event requests (R79 to R99, R154, R157). -/

namespace Sys2Proof.Machine

/-! ### Shutdown (R102) -/

/-- A function under a shutdown notification whose fetched commands have all completed, asynchronous event requests apart, reports
the shutdown complete (R102). -/
def settleShutdown (f : Nat) (d : Dev) : Dev :=
  if (d.func f).shn && !d.host.slots.any (fun e => decide (e.2.fn = f) && !(e.2.is true 0x0C)) then
    d.modFunc f fun x => { x with shn := false, shst := 2 }
  else d

/-! ### Doorbells (R84, R87) -/

/-- Entries between two places of a ring. -/
def ringDist (size a b : Nat) : Nat := (b + size - a % size) % size

/-- The doorbell write is ignored as invalid. -/
def badDoorbell (f : Nat) (d : Dev) : Dev :=
  raiseEvent f { kind := 0, info := 1, log := 1 } (d.wr Fd.HQ_EVT_BAD_DB 1)

/-- SQ_TAIL_DOORBELL; a queue that is not there takes no value (log entry 102). -/
def sqTail (f q v : Nat) (d : Dev) : Dev :=
  match mapFind (d.func f).sqs q with
  | some sq =>
    if v = sq.tail then d
    else if v < sq.size && decide (ringDist sq.size sq.head sq.tail + ringDist sq.size sq.tail v < sq.size) then
      wakeDoorbell (d.modFunc f fun x => { x with sqs := mapInsert x.sqs q { sq with tail := v } })
    else badDoorbell f d
  | none => badDoorbell f d

def execSqTailDoorbell (f : Fin 1026) (q : BitVec 16) (v : Word) (s : State) : Host.Outcome State Fault Refusal :=
  onDev s (always fun d => if d.insecure f then d.send (.unsupported f) else sqTail f q.toNat v.toNat d)

/-- The queue has no free entry. -/
def Cq.full (c : Cq) : Bool := decide (ringDist c.size c.head c.tail + 1 = c.size)

/-- The status field of a completion entry with the phase tag (bits 31 to 16 of dword 3). -/
def Cpl.field (c : Cpl) (phase : Bool) : Nat := b2n c.dnr * 2 ^ 15 + c.sct * 2 ^ 9 + c.sc * 2 + b2n phase

/-- The completion entry of a command is formed and written, and its slot is free; a change of service state takes effect (R81, R85, R90,
R342; an entry that was held is formed as it is written, log entry 103). -/
def writeCqe (k : Nat) (x : Slot) (c : Cpl) (cqid : Nat) (cq : Cq) (d : Dev) : Dev :=
  let f := x.fn
  let head := match mapFind (d.func f).sqs x.qid with | some sq => sq.head | none => 0
  let words : List Word :=
    [c.dw0, c.dw1, BitVec.ofNat 32 (x.qid * 65536 + head), BitVec.ofNat 32 (c.field cq.phase * 65536 + x.sqe.cid.toNat)]
  let d := d.send (.cqe f cqid cq.tail words)
  let d := if cq.ien then d.send (.msix f cq.vector) else d
  let tail := (cq.tail + 1) % cq.size
  let d := d.modFunc f fun y => { y with
    cqs := mapInsert y.cqs cqid { cq with tail := tail, phase := if tail = 0 then !cq.phase else cq.phase,
                                          posted := cq.posted + 1, holding := cq.holding.filter (fun j => j ≠ k) } }
  let d := match x.cam with | some i => d.camFree i | none => d
  let d := if x.qid = 0 && x.sqe.op = 0x00 && c.sc = 0 && c.sct = 0 then
      d.modFunc f fun y => { y with sqs := mapErase y.sqs (bits x.sqe.cdw10.toNat 15 0) }
    else d
  let d := if x.qid = 0 && x.sqe.op = 0x09 && bits x.sqe.cdw10.toNat 7 0 = 0xC1 && c.sc = 0 && c.sct = 0 then
      d.modNs x.sqe.nsid.toNat fun y => { y with maint := bit x.sqe.cdw11.toNat 0 }
    else d
  d.dropSlot k

/-- The completion goes to its CQ, or is held for want of an entry (R87). -/
def postCqe (k : Nat) (x : Slot) (c : Cpl) (d : Dev) : Dev :=
  let f := x.fn
  let cqid := match mapFind (d.func f).sqs x.qid with | some sq => sq.cq | none => 0
  match mapFind (d.func f).cqs cqid with
  | some cq =>
    if cq.full then
      let fresh := cq.stallAt != some d.strk.count
      let cq := { cq with holding := listAdd cq.holding k, stallAt := some d.strk.count,
                          stalls := if fresh then cq.stalls + 1 else cq.stalls }
      (d.modFunc f fun y => { y with cqs := mapInsert y.cqs cqid cq }).wr Fd.HQ_EVT_CQ_STALL 1
    else writeCqe k x c cqid cq d
  | none => d.dropSlot k

/-- A command with this fetch number has not had its completion entry written. -/
def Dev.seqLive (d : Dev) (n : Nat) : Bool := d.host.slots.any fun e => decide (e.2.seq = n)

/-- What must be written before this completion has been written. -/
def Dev.inTurn (d : Dev) (x : Slot) : Bool :=
  x.after.all (fun n => !d.seqLive n) &&
  (if x.qid = 0 && x.sqe.op = 0x00 && (x.cpl.any fun c => decide (c.sc = 0)) then
    let q := bits x.sqe.cdw10.toNat 15 0
    !d.host.slots.any (fun e => decide (e.2.fn = x.fn) && decide (e.2.qid = q)) &&
      !d.host.issued.any (fun i => decide (i.fn = x.fn) && decide (i.qid = q))
  else true)

/-- Posts the completions that a CQ holds while it has free entries, each in its turn (R87, R92). -/
def releaseHeld (f cqid : Nat) : Nat → Dev → Dev
  | 0, d => d
  | n + 1, d =>
    match mapFind (d.func f).cqs cqid with
    | some cq =>
      (match cq.full, cq.holding.find? fun k => (d.slot? k).any d.inTurn with
        | false, some k =>
          (match d.slot? k with
            | some x =>
              (match x.cpl with
                | some c => releaseHeld f cqid n (writeCqe k x c cqid cq d)
                | none => d)
            | none => d)
        | _, _ => d)
    | none => d

/-- CQ_HEAD_DOORBELL: entries are freed and held completions posted; a value it cannot take is treated as for a tail (log entry 102). -/
def cqHead (f q v : Nat) (d : Dev) : Dev :=
  match mapFind (d.func f).cqs q with
  | some cq =>
    if v < cq.size && decide (ringDist cq.size cq.head v ≤ ringDist cq.size cq.head cq.tail) then
      releaseHeld f q (cq.holding.length + 1) (d.modFunc f fun x => { x with cqs := mapInsert x.cqs q { cq with head := v } })
    else badDoorbell f d
  | none => badDoorbell f d

def execCqHeadDoorbell (f : Fin 1026) (q : BitVec 16) (v : Word) (s : State) : Host.Outcome State Fault Refusal :=
  onDev s (always fun d => if d.insecure f then d.send (.unsupported f) else settleShutdown f (cqHead f q.toNat v.toNat d))

/-! ### Fetch (R81, R82, R91) -/

/-- Entries of an SQ the host has given and the device has not read. -/
def Sq.unread (q : Sq) : Nat := ringDist q.size q.issue q.tail

/-- A function the host interface would visit. -/
def Dev.visitable (d : Dev) (f : Nat) : Bool :=
  let x := d.func f
  d.pwr.entry.isNone && decide (d.pwr.ps < 3) && x.en && !x.stopping && !x.shn && decide (x.shst = 0) && d.present f && !d.insecure f &&
    x.sqs.any (fun q => decide (0 < q.2.unread) && q.2.deleting.isNone)

/-- The next function in round robin (R82). -/
def Dev.nextFunc (d : Dev) : Option Nat :=
  ((List.range 1026).map fun i => (d.host.rrFunc + 1 + i) % 1026).find? d.visitable

/-- The next I/O SQ of a function in round robin. -/
def Func.nextSq (x : Func) : Option Nat :=
  let live := x.sqs.filter fun q => q.1 ≠ 0 && decide (0 < q.2.unread) && q.2.deleting.isNone
  match live.find? (fun q => decide (x.lastSq < q.1)) with
  | some q => some q.1
  | none => live.head?.map (·.1)

/-- Issues the read of one submission entry, for which a slot is set aside. -/
def issueRead (f q : Nat) (d : Dev) : Dev :=
  match mapFind (d.func f).sqs q with
  | some sq =>
    let k := d.freeSlot
    let d := d.send (.sqeRead f q sq.issue)
    let d := d.modHost fun h => { h with
      issued := h.issued ++ [{ fn := f, qid := q, idx := sq.issue, slot := k, sqe := none }], fetchLeft := h.fetchLeft - 1 }
    d.modFunc f fun x => { x with sqs := mapInsert x.sqs q { sq with issue := (sq.issue + 1) % sq.size } }
  | none => d

/-- Issues up to `n` reads from one SQ while the budget and the slots allow; entries that wait at their function's cap leave the event of Table
5-16. -/
def issueFrom (f q : Nat) : Nat → Nat × Dev → Nat × Dev
  | 0, a => a
  | n + 1, (used, d) =>
    match mapFind (d.func f).sqs q with
    | some sq =>
      if 0 < sq.unread && sq.deleting.isNone && 0 < d.host.fetchLeft then
        if d.slotFor f then issueFrom f q n (used + 1, issueRead f q d)
        else (used, d.flagIf (decide (d.rdb f Fd.TEN_F_SLOT_CAP_SLOTS ≤ d.slotsOf f)) Fd.TEN_EVT_CAP_WAIT)
      else (used, d)
    | none => (used, d)

/-- The Arbitration Burst of a function: 2^AB commands, 7 meaning no limit (R75, R82). -/
def Func.burst (x : Func) : Nat :=
  let ab := bits (x.feat 0x01 3) 2 0
  if ab = 7 then 1024 else 2 ^ ab

/-- One visit of the host interface to the next function with recorded doorbells. -/
def fetchVisit (d : Dev) : Dev :=
  if d.is Fd.HQ_CTL_FETCH_HOLD || !d.host.fetchOn || d.host.fetchLeft = 0 then d
  else match d.nextFunc with
    | none => d
    | some f =>
      let d := d.modHost fun h => { h with rrFunc := f }
      let b := (d.func f).burst
      let (used, d) := issueFrom f 0 b (0, d)
      match (d.func f).nextSq with
      | some q =>
        let (n, d) := issueFrom f q (b - used) (0, d)
        if n = 0 then d else d.modFunc f fun x => { x with lastSq := q }
      | none => d

/-- COMMAND_FETCH_ISSUE. -/
def execCommandFetchIssue (s : State) : Host.Outcome State Fault Refusal := onDev s (always fetchVisit)

/-- From the fetch of a Delete I/O SQ on, no entry of its SQ is read (R96). -/
def stopSq (k f : Nat) (x : Sqe) (d : Dev) : Dev :=
  let q := bits x.cdw10.toNat 15 0
  match mapFind (d.func f).sqs q with
  | some sq =>
    if x.op = 0x00 && q ≠ 0 && sq.deleting.isNone then
      d.modFunc f fun y => { y with sqs := mapInsert y.sqs q { sq with deleting := some k } }
    else d
  | none => d

/-- The command is fetched on this clock: conflict, SQ deletion, unknown opcode, else it waits for its row (R73, R81, R91, R96). -/
def fetchOne (i : Issued) (x : Sqe) (d : Dev) : Dev :=
  let k := i.slot
  let seq := d.host.seq + 1
  let maint := match d.ns? x.nsid.toNat with | some ns => ns.maint | none => false
  let first := d.host.slots.find? fun e =>
    decide (e.2.fn = i.fn) && decide (e.2.qid = i.qid) && e.2.sqe.cid == x.cid && !e.2.conflict
  let deleting := match mapFind (d.func i.fn).sqs i.qid with | some sq => sq.deleting.isSome | none => true
  let d := d.modHost fun h => { h with seq := seq, issued := listEraseFirst (fun j => j == i) h.issued }
  let d := d.modFunc i.fn fun y => { y with sqs := match mapFind y.sqs i.qid with
    | some sq => mapInsert y.sqs i.qid { sq with head := (sq.head + 1) % sq.size, fetched := sq.fetched + 1 }
    | none => y.sqs }
  let d := d.setSlot k (newSlot i.fn i.qid x seq maint)
  match first with
  | some e =>
    let d := finish k { sct := 0, sc := 3, dnr := true, dw0 := 0, dw1 := 0 } (d.modSlot k fun y => { y with conflict := true })
    let d := d.modSlot e.1 fun y => { y with after := seq :: y.after }
    (d.add Fd.HQ_CIDC_COUNT 1).wr Fd.HQ_EVT_CIDC 1
  | none =>
    if deleting then finish k { sct := 0, sc := 8, dnr := false, dw0 := 0, dw1 := 0 } d
    else if !(if i.qid = 0 then adminKnown i.fn x.op else ioKnown x.op) then finish k stInvalidOpcode d
    else if !actionKnown i.qid x then finish k stInvalidField d
    else if i.qid = 0 && x.op ≠ 0x0C then
      stopSq k i.fn x (d.modSlot k fun y => { y with committed := true })
    else d

/-- Fetches the returned entries of an SQ in queue order. -/
def fetchReady (f q : Nat) : Nat → Dev → Dev
  | 0, d => d
  | n + 1, d =>
    match d.host.issued.find? (fun i => decide (i.fn = f) && decide (i.qid = q)) with
    | some i =>
      (match i.sqe with
        | some x => fetchReady f q n (fetchOne i x d)
        | none => d)
    | none => d

/-- COMMAND_FETCH: a submission entry returns. -/
def commandFetch (f q idx : Nat) (x : Sqe) (d : Dev) : Except String Dev :=
  match d.host.issued.find? (fun i => decide (i.fn = f) && decide (i.qid = q) && decide (i.idx = idx) && i.sqe.isNone) with
  | some i =>
    let d := d.modHost fun h => { h with issued := listModFirst (fun j => j == i) (fun j => { j with sqe := some x }) h.issued }
    .ok (fetchReady f q (d.host.issued.length + 1) d)
  | none => .error "submission entry"

def execCommandFetch (f : Fin 1026) (q idx : BitVec 16) (sqe : Sqe) (s : State) : Host.Outcome State Fault Refusal :=
  onDev s (commandFetch f q.toNat idx.toNat sqe)

/-! ### Completion posting (R85, R92, R95, R96, R154, R157) -/

/-- The class of a read is paced, and the read covers 1 to 4 codewords on one die (R154). -/
def Dev.pacedClass (d : Dev) (x : Slot) : Option Nat :=
  if x.single then
    match d.ns? x.sqe.nsid.toNat with
    | some ns => if d.rdb ns.cls Fd.TEN_CLS_CFG_PACE = 1 then some ns.cls else none
    | none => none
  else none

/-- The cycle of the paced completion. -/
def Dev.paceEnd (d : Dev) (x : Slot) (cls : Nat) : Nat := x.headT.getD 0 + d.rdb cls Fd.TEN_CLS_PACE_PACE

/-- Counts a pace miss (R157). -/
def paceMiss (cls : Nat) (susp : Bool) (d : Dev) : Dev :=
  let d := if susp then d.addx 0 cls Fd.TEN_CLS_MISS_SUSP 1 else d.addx 0 cls Fd.TEN_CLS_MISS_OTHER 1
  tellEtchings etchPace (Config.encode 0x1302 [cls, b2n susp]) (d.wr Fd.TEN_EVT_PACE_MISS 1)

/-- Posts a due completion; a paced read that comes late is a miss, and so is one that no descriptor of its die served, for its die is lost
(R157, log entry 110); one that is early waits for PACE_EXPIRY. -/
def completionPost (k : Nat) (cyc : BitVec 10) (d : Dev) : Except String Dev :=
  let d := d.atCycle cyc
  match d.slot? k with
  | some x =>
    (match x.cpl with
      | some c =>
        if !d.inTurn x || x.phase != .due || d.mute x.fn then .error "completion"
        else match d.pacedClass x with
          | some cls =>
            let pace := d.rdb cls Fd.TEN_CLS_PACE_PACE
            if pace = 0 || x.headT.isNone || d.paceEnd x cls < d.now then .ok (settleShutdown x.fn (postCqe k x c (paceMiss cls x.suspHit d)))
            else if x.reread then .ok (settleShutdown x.fn (postCqe k x c d))
            else .error "paced completion"
          | none => .ok (settleShutdown x.fn (postCqe k x c d))
      | none => .error "completion")
  | none => .error "completion"

def execCompletionPost (slot : Fin 131072) (cyc : BitVec 10) (s : State) : Host.Outcome State Fault Refusal :=
  onDev s (completionPost slot cyc)

/-- PACE_EXPIRY: the held completion of a paced read is written exactly PACE cycles after its descriptor came to the head. -/
def paceExpiry (k : Nat) (cyc : BitVec 10) (d : Dev) : Except String Dev :=
  let d := d.atCycle cyc
  match d.slot? k with
  | some x =>
    (match x.cpl, d.pacedClass x with
      | some c, some cls =>
        if x.phase == .due && !x.reread && x.headT.isSome && d.inTurn x && !d.mute x.fn && decide (d.now = d.paceEnd x cls) then
          .ok (settleShutdown x.fn (postCqe k x c d))
        else .error "pace"
      | _, _ => .error "pace")
  | none => .error "pace"

def execPaceExpiry (slot : Fin 131072) (cyc : BitVec 10) (s : State) : Host.Outcome State Fault Refusal :=
  onDev s (paceExpiry slot cyc)

/-! ### Queue creation and deletion (R79, R96) -/

/-- Vectors of a function (Table 3-1). -/
def vectors (f : Nat) : Nat := if isPf f then 2048 else 65

def createCq (k : Nat) (x : Slot) (d : Dev) : Dev :=
  let y := d.func x.fn
  let q := bits x.sqe.cdw10.toNat 15 0
  let size := bits x.sqe.cdw10.toNat 31 16 + 1
  let iv := bits x.sqe.cdw11.toNat 31 16
  let ien := bit x.sqe.cdw11.toNat 1
  if q = 0 || y.cqQuota < q || (mapFind y.cqs q).isSome || y.cqQuota < (y.cqs.filter fun c => c.1 ≠ 0).length + 1 then
    finish k stInvalidQid d
  else if size < 2 then finish k (stat 1 2) d
  else if !bit x.sqe.cdw11.toNat 0 then finish k stInvalidField d
  else if ien && vectors x.fn ≤ iv then finish k (stat 1 8) d
  else
    let cq : Cq := { size := size, head := 0, tail := 0, phase := true, ien := ien, vector := iv, posted := 0, stalls := 0,
                     holding := [], stallAt := none }
    finish k success (d.modFunc x.fn fun y => { y with cqs := mapInsert y.cqs q cq })

def execCreateIoCq (slot : Fin 131072) (s : State) : Host.Outcome State Fault Refusal :=
  onDev s fun d => onSlot slot true 0x05 (fun x d => .ok (createCq slot x d)) d

def createSq (k : Nat) (x : Slot) (d : Dev) : Dev :=
  let y := d.func x.fn
  let q := bits x.sqe.cdw10.toNat 15 0
  let size := bits x.sqe.cdw10.toNat 31 16 + 1
  let cq := bits x.sqe.cdw11.toNat 31 16
  if q = 0 || y.sqQuota < q || (mapFind y.sqs q).isSome || y.sqQuota < (y.sqs.filter fun c => c.1 ≠ 0).length + 1 then
    finish k stInvalidQid d
  else if size < 2 then finish k (stat 1 2) d
  else if cq = 0 || (mapFind y.cqs cq).isNone then finish k (stat 1 0) d
  else if !bit x.sqe.cdw11.toNat 0 then finish k stInvalidField d
  else
    let sq : Sq := { size := size, cq := cq, tail := 0, issue := 0, head := 0, fetched := 0, deleting := none }
    finish k success (d.modFunc x.fn fun y => { y with sqs := mapInsert y.sqs q sq })

def execCreateIoSq (slot : Fin 131072) (s : State) : Host.Outcome State Fault Refusal :=
  onDev s fun d => onSlot slot true 0x01 (fun x d => .ok (createSq slot x d)) d

/-- A command is withdrawn before its commit point and completes with a status (R94, R96). -/
def withdrawCmd (k : Nat) (c : Cpl) (d : Dev) : Dev :=
  let d := withdrawWrite k d
  let d := d.modCam fun m => { m with searches := m.searches.filter (fun e => e.1 ≠ k), waits := m.waits.filter (fun e => e.1 ≠ k) }
  finish k c d

/-- The command can still be withdrawn: it has not reached its commit point, nor been refused by a check (log entry 104). -/
def Slot.withdrawable (x : Slot) : Bool := !x.committed && x.phase != .due

def deleteSq (k : Nat) (x : Slot) (d : Dev) : Dev :=
  let q := bits x.sqe.cdw10.toNat 15 0
  match mapFind (d.func x.fn).sqs q with
  | some sq =>
    if sq.deleting != some k then finish k stInvalidQid d
    else
      let mine := d.host.slots.filter fun e => decide (e.2.fn = x.fn) && decide (e.2.qid = q) && e.2.withdrawable
      let d := mine.foldl (fun d e => withdrawCmd e.1 { sct := 0, sc := 8, dnr := false, dw0 := 0, dw1 := 0 } d) d
      finish k success d
  | none => finish k stInvalidQid d

def execDeleteIoSq (slot : Fin 131072) (s : State) : Host.Outcome State Fault Refusal :=
  onDev s fun d => onSlot slot true 0x00 (fun x d => .ok (deleteSq slot x d)) d

def deleteCq (k : Nat) (x : Slot) (d : Dev) : Dev :=
  let y := d.func x.fn
  let q := bits x.sqe.cdw10.toNat 15 0
  if q = 0 || (mapFind y.cqs q).isNone then finish k stInvalidQid d
  else if y.sqs.any (fun s => s.1 ≠ 0 && decide (s.2.cq = q)) then finish k (stat 1 0xC) d
  else finish k success (d.modFunc x.fn fun y => { y with cqs := mapErase y.cqs q })

def execDeleteIoCq (slot : Fin 131072) (s : State) : Host.Outcome State Fault Refusal :=
  onDev s fun d => onSlot slot true 0x04 (fun x d => .ok (deleteCq slot x d)) d

/-! ### Abort (R94, R95) -/

/-- The target of an Abort. -/
def Dev.abortTarget (d : Dev) (x : Slot) : Option (Nat × Slot) :=
  d.host.slots.find? fun e =>
    decide (e.2.fn = x.fn) && decide (e.2.qid = bits x.sqe.cdw10.toNat 15 0) &&
      decide (e.2.sqe.cid.toNat = bits x.sqe.cdw10.toNat 31 16) && !e.2.conflict

/-- Aborts of the function that are outstanding at an Abort: itself and those fetched before it that were not turned away (R95). -/
def Dev.aborts (d : Dev) (x : Slot) : Nat :=
  (d.host.slots.filter fun e => decide (e.2.fn = x.fn) && decide (e.2.seq ≤ x.seq) && e.2.is true 0x08 && !e.2.conflict &&
    !e.2.cpl.any fun c => decide (c.sct = 1) && decide (c.sc = 3)).length

def abortMissed (k : Nat) (d : Dev) : Dev := finish k (successWith 1) (d.add Fd.HQ_ABORTS_MISSED 1)

def abort (k : Nat) (x : Slot) (d : Dev) : Dev :=
  if (d.abortTarget x).any fun e => decide (e.1 = k) then abortMissed k d
  else if 4 < d.aborts x then finish k (stat 1 3) d
  else match d.abortTarget x with
    | some (t, y) =>
      let d := d.modSlot k fun x => { x with after := y.seq :: x.after }
      if y.withdrawable then
        let d := withdrawCmd t { sct := 0, sc := 7, dnr := false, dw0 := 0, dw1 := 0 } d
        finish k (successWith 0) (d.add Fd.HQ_ABORTS_DONE 1)
      else abortMissed k d
    | none => abortMissed k d

def execAbortCmd (slot : Fin 131072) (s : State) : Host.Outcome State Fault Refusal :=
  onDev s fun d => onSlot slot true 0x08 (fun x d => .ok (abort slot x d)) d

/-! ### Asynchronous Event Request (R72, R99) -/

/-- Requests outstanding on a function. -/
def Dev.aers (d : Dev) (f : Nat) : Nat :=
  (d.host.slots.filter fun e => decide (e.2.fn = f) && e.2.is true 0x0C && e.2.phase == .asleep).length

def asyncRequest (k : Nat) (x : Slot) (d : Dev) : Dev :=
  if 8 ≤ d.aers x.fn then finish k (stat 1 5) d
  else d.modSlot k fun y => { y with phase := .asleep }

def execAsynchronousEventRequest (slot : Fin 131072) (s : State) : Host.Outcome State Fault Refusal :=
  onDev s fun d => onSlot slot true 0x0C (fun x d => .ok (asyncRequest slot x d)) d

end Sys2Proof.Machine
end

