-- ==== Sys2Proof/Machine/ZoneCmd.lean ====
section
/-! DEFINITION. Zone Management Send and Receive, worn marks, zones turning Read Only (R112 to R125). -/

namespace Sys2Proof.Machine

/-! ### Fences (R89) -/

/-- Two commands of one SQ to one namespace. -/
def sameStream (x y : Slot) : Bool := decide (x.fn = y.fn) && decide (x.qid = y.qid) && x.sqe.nsid == y.sqe.nsid && !y.conflict

/-- A command that starts only after, and holds, its neighbours in its SQ (R89). -/
def Slot.fenced (x : Slot) : Bool :=
  x.maint && (decide (x.sqe.op = 0x00) || (x.sqe.fnc && decide (x.sqe.op ∈ [0x01, 0x02, 0x08, 0x0C, 0x7D])))

/-- The command waits at a fence: its own, or one fetched earlier (R89). -/
def Dev.atFence (d : Dev) (x : Slot) : Bool :=
  d.host.slots.any fun e => decide (e.2.seq < x.seq) && decide (e.2.qid ≠ 0) && sameStream x e.2 && (x.fenced || e.2.fenced)

/-- The command waits, keeping its slot and its place. -/
def waitIo (k : Nat) (d : Dev) : Dev := d.modSlot k fun x => { x with phase := .waiting }

/-- A command that must wait for a free CAM entry is counted, once (R340, Table 12-8). -/
def countEntryWait (k : Nat) (d : Dev) : Dev :=
  if (d.slot? k).any fun x => x.entryWait then d
  else (d.add Fd.CAM_CNT_WAIT_ENTRY 1).modSlot k fun x => { x with entryWait := true }

/-! ### Program units of a zone on a follower (R463) -/

/-- Sectors that unit `u` of a zone holds: the last unit of one that takes no more data may be short (R115, R124). -/
def Zone.unitLen (y : Zone) (u : Nat) : Nat :=
  if y.st == .full || y.marked.isSome then min 64 (y.eod - 64 * u) else 64

/-- A unit stands whole in a follower's cells, and its program has not been asked for. -/
def Dev.unitWhole (d : Dev) (nsid z u : Nat) : Bool :=
  let n := (d.zone nsid z).unitLen u
  decide (0 < n) && (List.range n).all (fun i => (mapFind (d.zone nsid z).staged (64 * u + i)).any fun e => decide (e.1 = endOfChain)) &&
    !d.dlk.moves.any fun m => m.kind == .program && decide (m.nsid = nsid) && decide (m.zone = z) && decide (m.first = 64 * u)

/-- The program of a unit is asked of the follower that holds it. -/
def askProgram (nsid z u : Nat) (d : Dev) : Dev :=
  match (d.zone nsid z).row with
  | some (g, r) =>
    (match groupDev g, d.unitWhole nsid z u with
      | some p, true =>
        let n := (d.zone nsid z).unitLen u
        askMedia { pos := p, id := 0, kind := .program, nsid := nsid, zone := z, first := 64 * u, n := n, slot := 0, idx := 0 } [g, r, 64 * u, n] d
      | _, _ => d)
  | none => d

/-! ### What a Send does to one zone (Table 4-2) -/

/-- Work of Thrumlux on the row of a zone that a reset or another use of the zone abandons (R224, R232, R272). -/
def abandonRowWork (g r : Nat) (d : Dev) : Dev :=
  d.modMed fun m => { m with
    migrate := m.migrate.filter fun x => !(decide (x.group = g) && (decide (x.src = r) || decide (x.dst = r)))
    rebuild := m.rebuild.filter fun x => !(decide (x.group = g) && decide (x.row = r)) }

/-- A migration of the zone's row is abandoned (R224). -/
def abandonMigration (z : Zone) (d : Dev) : Dev :=
  match z.row with
  | some (g, r) => d.modMed fun m => { m with
      migrate := m.migrate.filter fun x => !(decide (x.group = g) && decide (x.src = r)) }
  | none => d

/-- The zone returns to Empty and gives up its row (R123). -/
def emptyZone (owner nsid z : Nat) (d : Dev) : Dev :=
  let x := d.zone nsid z
  let d := discardStaged owner nsid z d
  let d := match x.row with
    | some (g, r) => releaseRow nsid g r (abandonRowWork g r d)
    | none => d
  let d := d.modZone nsid z fun _ => { Zone.fresh with resetAt := d.strk.count }
  syncZone nsid z d

def stBadTransition : Cpl := stat 1 0xBF
def stZoneBusy : Cpl := stVendor 0xC2

/-- Takes an Empty zone out of Empty (R107, R110, R111). -/
def openEmpty (nsid z h : Nat) (ns : Ns) (st : ZoneState) (d : Dev) : Except Cpl Dev :=
  match d.bindCheck nsid ns h with
  | .ok r => .ok (syncZone nsid z (bindZone nsid z h r st d))
  | .error c => .error c

def sendOpen (nsid z h : Nat) (ns : Ns) (all : Bool) (d : Dev) : Except Cpl Dev :=
  match (d.zone nsid z).st with
  | .empty => if all then .ok d else openEmpty nsid z h ns .explOpen d
  | .closed => .ok (syncZone nsid z (d.modZone nsid z fun x => { x with st := .explOpen }))
  | .implOpen => if all then .ok d else .ok (syncZone nsid z (d.modZone nsid z fun x => { x with st := .explOpen }))
  | .explOpen => .ok d
  | _ => if all then .ok d else .error stBadTransition

def sendClose (nsid z : Nat) (all : Bool) (d : Dev) : Except Cpl Dev :=
  match (d.zone nsid z).st with
  | .implOpen | .explOpen => .ok (syncZone nsid z (d.modZone nsid z fun x => { x with st := .closed }))
  | _ => if all then .ok d else .error stBadTransition

/-- Finish: the write pointer goes to the capacity, the data ends where it ended (R124); the short last unit may be programmed. -/
def fillZone (nsid z : Nat) (d : Dev) : Dev :=
  let d := abandonMigration (d.zone nsid z) d
  let d := syncZone nsid z (d.modZone nsid z fun x => { x with st := .full, eod := x.wp, wp := zoneCap, cp := zoneCap })
  askProgram nsid z ((d.zone nsid z).eod / 64) (padUnit nsid z d)

def sendFinish (nsid z h : Nat) (ns : Ns) (all : Bool) (d : Dev) : Except Cpl Dev :=
  match (d.zone nsid z).st with
  | .empty =>
    if all then .ok d
    else match openEmpty nsid z h ns .explOpen d with
      | .ok d => .ok (fillZone nsid z d)
      | .error c => .error c
  | .implOpen | .explOpen | .closed => .ok (fillZone nsid z d)
  | .full => .ok (abandonMigration (d.zone nsid z) d)
  | _ => if all then .ok d else .error stBadTransition

def sendReset (owner nsid z : Nat) (all : Bool) (d : Dev) : Except Cpl Dev :=
  match (d.zone nsid z).st with
  | .empty => .ok d
  | .implOpen | .explOpen | .closed | .full => .ok (emptyZone owner nsid z d)
  | _ => if all then .ok d else .error stBadTransition

def sendOffline (nsid z : Nat) (all : Bool) (d : Dev) : Except Cpl Dev :=
  match (d.zone nsid z).st with
  | .readOnly =>
    .ok ((abandonMigration (d.zone nsid z) d).modZone nsid z fun x => { x with st := .offline })
  | _ => if all then .ok d else .error stBadTransition

/-- A row that is worn, or holds a lost member or a block that cannot be replaced (R117). -/
def Dev.rowSpent (d : Dev) (g r : Nat) : Bool :=
  (d.row g r).worn.isSome || !(d.row g r).lost.isEmpty || d.rowUnreplaceable g r

/-- Reground of one zone (R117). -/
def sendReground (owner nsid z : Nat) (all : Bool) (d : Dev) : Except Cpl Dev :=
  let x := d.zone nsid z
  match x.st with
  | .offline =>
    (match x.row with
      | some (g, r) =>
        if d.rowSpent g r then
          let (d', ok) := retireReserved nsid g r ((d.row g r).worn.getD 0x0D) d
          if ok then
            let d' := discardStaged owner nsid z (abandonRowWork g r d')
            .ok (syncZone nsid z (d'.modZone nsid z fun _ => { Zone.fresh with resetAt := d.strk.count }))
          else .error (stVendor 0xC4)
        else .ok (emptyZone owner nsid z d)
      | none => .ok (emptyZone owner nsid z d))
  | _ => if all then .ok d else .error stBadTransition

/-! ### Zone Management Send (R112, R122) -/

/-- A zone is taken up by a refold that turns Sends away (R136). -/
def Dev.zoneBusy (d : Dev) (nsid z : Nat) : Bool :=
  let x := d.zone nsid z
  x.refDst.isSome || x.refSrc.any fun k => d.zm.refolds.any fun j => decide (j.seq = k) && j.resetSrc

/-- A command that is passed to the zone manager and waits there for its order. -/
def waitOrder (k : Nat) (d : Dev) : Dev := d.modSlot k fun x => { x with phase := .waiting, committed := true }

/-- An earlier command to any zone of the namespace is outstanding. -/
def Dev.behindAll (d : Dev) (x : Slot) (nsid : Nat) : Bool :=
  d.host.slots.any fun e =>
    decide (e.2.seq < x.seq) && decide (e.2.qid ≠ 0) && decide (e.2.sqe.nsid.toNat = nsid) && !e.2.conflict &&
      decide (e.2.sqe.op ∈ [0x01, 0x08, 0x7D, 0x02, 0x0C, 0x79, 0x83])

/-- The result of an action on one zone ends the command. -/
def endSend (k : Nat) (r : Except Cpl Dev) (d : Dev) : Dev :=
  match r with
  | .ok d => finish k success d
  | .error c => finish k c (bindRefused c d)

/-- An action over all zones, in rising order: the device, and the status it ends with. A zone that a refold holds is left alone, as one
in a state from which the action is not allowed (log entry 105). -/
def sendAll (nsid : Nat) (zs : List Nat) (act : Nat → Dev → Except Cpl Dev) (d : Dev) : Dev × Cpl :=
  zs.foldl (fun (a : Dev × Cpl) z =>
    if a.1.zoneBusy nsid z then a
    else match act z a.1 with
      | .ok d => (d, a.2)
      | .error c => (a.1, c)) (d, success)

/-- A Zone Management Send with action `zsa`; `act` is the action on one zone (true: Select All). -/
def zoneSend (zsa : Nat) (act : Nat → Ns → Nat → Nat → Bool → Dev → Except Cpl Dev) (k : Nat) (d : Dev) : Except String Dev :=
  onSlot k false 0x79 (fun x d =>
    let nsid := x.sqe.nsid.toNat
    if bits x.sqe.cdw13.toNat 7 0 ≠ zsa then .error "zone action"
    else match d.nsOf x.fn nsid with
      | none => .ok (finish k stInvalidNs d)
      | some ns =>
        if !ns.zoned then .ok (finish k stInvalidOpcode d)
        else if d.atFence x then .ok (waitIo k d)
        else
          let h := x.sqe.handle
          if bit x.sqe.cdw13.toNat 8 then
            if d.behindAll x nsid || (d.zonesOf nsid).any (fun e => d.behindMark x nsid e.1) then .ok (waitOrder k d)
            else
              let zs := (d.zonesOf nsid).map (·.1)
              let (d, c) := sendAll nsid zs (fun z d => act nsid ns z h true d) d
              .ok (finish k c (d.modSlot k fun x => { x with committed := true }))
          else
            let z := sqeZone x.sqe
            if ns.zones ≤ z then .ok (finish k stLbaRange d)
            else if x.sqe.slba % zoneSpan ≠ 0 then .ok (finish k stInvalidField d)
            else if d.zoneBusy nsid z then .ok (finish k stZoneBusy d)
            else if d.behindAny x nsid z || d.behindMark x nsid z || (d.is Fd.ZONE_CTL_BIND_HOLD && (d.zone nsid z).st == .empty && (zsa = 2 || zsa = 3)) then
              .ok (waitOrder k d)
            else if (d.zone nsid z).st == .empty && (zsa = 2 || zsa = 3) && !d.zoneEntryRoom nsid z then .ok (waitOrder k (countEntryWait k d))
            else .ok (endSend k (act nsid ns z h false d) (d.modSlot k fun x => { x with committed := true }))) d

def execZoneClose (slot : Fin 131072) (s : State) : Host.Outcome State Fault Refusal :=
  onDev s (zoneSend 1 (fun n _ z _ a d => sendClose n z a d) slot)
def execZoneFinish (slot : Fin 131072) (s : State) : Host.Outcome State Fault Refusal :=
  onDev s (zoneSend 2 (fun n ns z h a d => sendFinish n z h ns a d) slot)
def execZoneOpen (slot : Fin 131072) (s : State) : Host.Outcome State Fault Refusal :=
  onDev s (zoneSend 3 (fun n ns z h a d => sendOpen n z h ns a d) slot)
def execZoneReset (slot : Fin 131072) (s : State) : Host.Outcome State Fault Refusal :=
  onDev s (zoneSend 4 (fun n ns z _ a d => sendReset ns.owner n z a d) slot)
def execZoneOffline (slot : Fin 131072) (s : State) : Host.Outcome State Fault Refusal :=
  onDev s (zoneSend 5 (fun n _ z _ a d => sendOffline n z a d) slot)
def execZoneReground (slot : Fin 131072) (s : State) : Host.Outcome State Fault Refusal :=
  onDev s (zoneSend 0x80 (fun n ns z _ a d => sendReground ns.owner n z a d) slot)

/-! ### Zone Management Receive (R125) -/

/-- A zone state passes the filter of a report. -/
def zoneFilter (f : Nat) (st : ZoneState) : Bool :=
  match f with
  | 0 => true
  | 1 => st == .empty | 2 => st == .implOpen | 3 => st == .explOpen | 4 => st == .closed | 5 => st == .full
  | 6 => st == .readOnly | 7 => st == .offline
  | _ => false

/-- Bytes laid out by offset and length over zeros. -/
def layout (n : Nat) (fs : List (Nat × Nat × Nat)) : List Byte :=
  leBytes n (fs.foldl (fun a f => a + f.2.2 % 2 ^ (8 * f.2.1) * 2 ^ (8 * f.1)) 0)

/-- The write pointer a zone reports: its start while it is a refold destination (R136). -/
def Zone.shownWp (z : Zone) : Nat := if z.refDst.isSome then 0 else z.wp

/-- A zone descriptor (R105): ZT, ZS, ZCAP, ZSLBA, WP. -/
def zoneDesc (z : Nat) (x : Zone) : List Byte :=
  layout 64 [(0, 1, 2), (1, 1, x.shown.code * 16), (8, 8, zoneCap), (16, 8, zoneStart z), (24, 8, zoneStart z + x.shownWp)]

/-- Mean erases of a row in QLC cycles (R221). -/
def Dev.meanErases (d : Dev) (g r : Nat) : Nat :=
  (List.range 16).foldl (fun a m => a + d.memberWear g r m) 0 / 160

/-- An entry of Report Zone Placement (Table 4-3); the PE of an unbound zone, which the table does not give, is 0 (log entry 106). -/
def placementEntry (d : Dev) (z : Nat) (x : Zone) : List Byte :=
  let flags := b2n x.refDst.isSome + 2 * b2n (!x.refSrc.isEmpty) + 4 * b2n (!x.lost.isEmpty) + 8 * b2n (!x.recs.isEmpty)
  match x.row with
  | some (g, r) =>
    layout 16 [(0, 8, zoneStart z), (8, 1, g % 96), (9, 1, x.handle), (10, 1, flags), (11, 1, g / 96), (12, 2, r),
               (14, 2, min 0xFFFF (d.meanErases g r))]
  | none => layout 16 [(0, 8, zoneStart z), (8, 1, 0xFF), (9, 1, 0xFF), (10, 1, flags), (11, 1, 0xFF), (12, 2, 0xFFFF), (14, 2, 0)]

/-- Bytes asked for by NUMD in CDW12. -/
def recvBytes (x : Sqe) : Nat := 4 * (x.cdw12.toNat + 1)

/-- A report over the zones from the one that holds SLBA on, with its filter and partial bit. -/
def zoneReport (d : Dev) (ns : Ns) (nsid : Nat) (x : Sqe) (size : Nat) (entry : Nat → Zone → List Byte) : List Byte :=
  let f := bits x.cdw13.toNat 15 8
  let zs := ((List.range ns.zones).filter fun z => decide (sqeZone x ≤ z) && zoneFilter f (d.zone nsid z).shown)
  let room := (recvBytes x - 64) / size
  let shown := zs.take room
  let n := if bit x.cdw13.toNat 16 then shown.length else zs.length
  (layout 64 [(0, 8, n)] ++ shown.flatMap fun z => entry z (d.zone nsid z)).take (recvBytes x)

/-- A Zone Management Receive with action `zra`: after every Send fetched before it (R122). -/
def zoneRecv (zra : Nat) (bytes : Dev → Ns → Nat → Sqe → Except Cpl (List Byte)) (k : Nat) (d : Dev) : Except String Dev :=
  onSlot k false 0x7A (fun x d =>
    let nsid := x.sqe.nsid.toNat
    if bits x.sqe.cdw13.toNat 7 0 ≠ zra then .error "zone action"
    else match d.nsOf x.fn nsid with
      | none => .ok (finish k stInvalidNs d)
      | some ns =>
        if !ns.zoned then .ok (finish k stInvalidOpcode d)
        else if d.atFence x then .ok (waitIo k d)
        else if d.host.slots.any (fun e => decide (e.2.seq < x.seq) && e.2.isSend && decide (e.2.sqe.nsid.toNat = nsid)) then
          .ok (waitOrder k d)
        else match bytes d ns nsid x.sqe with
          | .ok b => .ok (finish k success (d.send (.hostBytes x.fn x.sqe.cid.toNat b)))
          | .error c => .ok (finish k c d)) d

def execReportZones (slot : Fin 131072) (s : State) : Host.Outcome State Fault Refusal :=
  onDev s (zoneRecv 0 (fun d ns n x =>
    if ns.zones * zoneSpan ≤ x.slba then .error stLbaRange
    else .ok (zoneReport d ns n x 64 zoneDesc)) slot)

def execExtendedReportZones (slot : Fin 131072) (s : State) : Host.Outcome State Fault Refusal :=
  onDev s (zoneRecv 1 (fun _ _ _ _ => .error stInvalidField) slot)

def execReportZonePlacement (slot : Fin 131072) (s : State) : Host.Outcome State Fault Refusal :=
  onDev s (zoneRecv 0x80 (fun d ns n x =>
    if ns.zones * zoneSpan ≤ x.slba then .error stLbaRange
    else .ok (zoneReport d ns n x 16 (placementEntry d))) slot)

/-! ### Worn marks and Read Only (R115, R238, R240) -/

/-- Writes that may still add data to a zone marked at fetch number `m`: those fetched before, and a refold into it. -/
def Dev.dataDue (d : Dev) (nsid z m : Nat) : Bool :=
  (d.zone nsid z).refDst.isSome ||
    d.host.slots.any fun e => decide (e.2.seq ≤ m) && e.2.isWrite && !e.2.committed && touches e.2 nsid z

/-- A marked zone's last unit is padded once no write adds to it any more (R115, step 2). -/
def padMarked (nsid z : Nat) (d : Dev) : Dev :=
  match (d.zone nsid z).marked with
  | some m => if d.dataDue nsid z m then d else padUnit nsid z d
  | none => d

/-- A row of a bound zone is marked worn, or a deferred error is recorded against the zone: its zone starts turning Read Only. -/
def markZone (nsid z cause : Nat) (d : Dev) : Dev :=
  let x := d.zone nsid z
  if x.row.isNone || x.st == .readOnly || x.st == .offline || x.st == .empty && x.refDst.isNone || x.marked.isSome then d
  else
    let d := match x.row with
      | some (g, r) => if cause = 0 then d else d.modRow g r fun y => { y with worn := some cause }
      | none => d
    askProgram nsid z (x.eod / 64) (padMarked nsid z ((abandonMigration x d).modZone nsid z fun y => { y with marked := some d.host.seq }))

/-- Marks the zone bound to a row worn. -/
def wornMark (g r cause : Nat) (d : Dev) : Dev :=
  match (d.row g r).bound with
  | some (nsid, z) => markZone nsid z cause d
  | none => d

/-- ZONE_READ_ONLY_ENTRY: the committed data of a marked zone is programmed (R115). -/
def zoneReadOnly (nsid z : Nat) (d : Dev) : Except String Dev :=
  let x := d.zone nsid z
  match x.marked with
  | some m =>
    if !x.staged.isEmpty || x.refDst.isSome ||
        d.host.slots.any (fun e => decide (e.2.seq ≤ m) && (touches e.2 nsid z || d.refoldTouches e.2 nsid z)) then .error "read only"
    else
      let cause := match x.row with | some (g, r) => (d.row g r).worn.getD 0 | none => 0
      let d := d.modZone nsid z fun y => { y with st := .readOnly, marked := none, wp := y.eod, cp := y.eod }
      .ok (syncZone nsid z (reportZone nsid z false cause d))
  | none => .error "read only"

def execZoneReadOnlyEntry (nsid : Fin 4097) (z : Fin 524288) (s : State) : Host.Outcome State Fault Refusal :=
  onDev s (zoneReadOnly nsid z)

/-- The age of a row's data in hours, from the stroke counter (R238). -/
def strokesPerHour : Nat := 439453125

/-- DATA_AGE_EXPIRY: the oldest committed data of an extended-life row has been held for AGE_EXT (W2 of Table 8-5). -/
def dataAge (g r : Nat) (d : Dev) : Except String Dev :=
  match (d.row g r).bound with
  | some (nsid, z) =>
    if d.extended g r && decide (d.thresh 5 * strokesPerHour ≤ d.strk.count - (d.zone nsid z).bornAt) then .ok (wornMark g r 0x09 d)
    else .error "data age"
  | none => .error "data age"

def execDataAgeExpiry (g : Fin 96) (r : Fin 3600) (s : State) : Host.Outcome State Fault Refusal :=
  onDev s (dataAge g r)

end Sys2Proof.Machine
end

