-- ==== Sys2Proof/Machine/Ecc.lean ====
section
/-! DEFINITION. The decoder tiers, notices and leaky buckets (R246 to R260, R276). -/

namespace Sys2Proof.Machine

/-! ### Leaky buckets (R276) -/

def Dev.bucket (d : Dev) (b : Nat) : Bucket := mapGet { level := 0, armed := true } d.ecc.buckets b
def Dev.setBucket (d : Dev) (b : Nat) (x : Bucket) : Dev :=
  { d with ecc := { d.ecc with buckets := mapSet { level := 0, armed := true } d.ecc.buckets b x } }

/-- Sets the OVER bit of a bucket. -/
def setOver (b : Nat) (d : Dev) : Dev :=
  if b < 32 then d.wr Fd.LDPC_LB_OVER_LO_OVER (setBits (d.rd Fd.LDPC_LB_OVER_LO_OVER) b b 1)
  else d.wr Fd.LDPC_LB_OVER_HI_OVER (setBits (d.rd Fd.LDPC_LB_OVER_HI_OVER) (b - 32) (b - 32) 1)

/-- A source event of a bucket. -/
def bucketEvent (b : Nat) (d : Dev) : Dev :=
  let x := d.bucket b
  let level := satAdd 0xFFFF x.level 1
  let crossed := x.armed && decide (d.rdb b Fd.LDPC_LB_CFG_THRESH < level)
  let d := d.setBucket b { level := level, armed := x.armed && !crossed }
  let d := d.wrb b Fd.LDPC_LB_LEVEL_PEAK (max level (d.rdb b Fd.LDPC_LB_LEVEL_PEAK))
  if crossed then tellEtchings etchBucket (Config.encode 0x1303 [b, level]) (setOver b d) else d

/-- A sheet boundary drains a bucket and re-arms it at half its threshold. -/
def bucketDrain (b : Nat) (d : Dev) : Dev :=
  let x := d.bucket b
  let level := x.level - d.rdb b Fd.LDPC_LB_CFG_DRAIN
  d.setBucket b { level := level, armed := x.armed || decide (level ≤ d.rdb b Fd.LDPC_LB_CFG_THRESH / 2) }

/-! ### Notices (R258) -/

def Dev.modEcc (d : Dev) (f : Ecc → Ecc) : Dev := { d with ecc := f d.ecc }

/-- A notice of Table 9-4: held if it is of kinds 3 to 6, dropped and counted otherwise while the ring is full. -/
def notice (kind : Nat) (i : EccItem) (esc level count : Nat) (d : Dev) : Dev :=
  let e := if 3 ≤ kind then esc else 0
  let words : List Word :=
    [BitVec.ofNat 32 (kind * 2 ^ 28 + i.ch * 2 ^ 22 + i.target * 2 ^ 17 + i.plane * 2 ^ 15 + i.cw * 2 ^ 13 + e * 2 ^ 6),
     BitVec.ofNat 32 (i.block * 2 ^ 20 + i.page * 2 ^ 8 + level), i.ctx, i.readTag, BitVec.ofNat 32 count, 0,
     BitVec.ofNat 32 d.strk.count, BitVec.ofNat 32 (d.strk.count / 2 ^ 32)]
  if kind < 3 && (d.ringFull escRing 0 || !d.ecc.notices.isEmpty) then
    (d.add Fd.LDPC_CNT_MISC_NOTE_LOST 1).wr Fd.LDPC_EVT_NOTE_LOST 1
  else d.modEcc fun x => { x with notices := x.notices ++ [{ kind := kind, words := words }] }

/-! ### Where a codeword belongs (R218, R261) -/

/-- Member of its die groups that a channel holds (R18). -/
def memberOf (ch : Nat) : Nat := ch % 16

/-- The data position of member `m` on wordline `wl` of row `r` (R261): 14 P, 15 Q. -/
def positionOf (m wl r : Nat) : Nat :=
  let k := (m + 16 - (wl + r) % 16) % 16
  if k = 0 then 14 else if k = 1 then 15 else k - 2

/-- The sector of its unit that a codeword is (R261). -/
def unitSector (slc : Bool) (plane page cw : Nat) : Nat :=
  if slc then plane * 4 + cw else plane * 16 + page % 4 * 4 + cw

/-- Die, block, plane, page and codeword of sector `s` of the zone on row `r` of group `g` (R106, R261). -/
def Dev.sectorPlace (d : Dev) (g r s : Nat) : Nat × Nat × Nat × Nat × Nat :=
  let wl := s / 896
  let m := ((wl + r) % 16 + 2 + s / 64 % 14) % 16
  let (die, b) := d.mapped (memberDie g m) r
  let (plane, page, cw) := unitPlace false wl (s % 64)
  (die, b, plane, page, cw)

/-- The member that holds sector `s` of the zone on row `r` (R261). -/
def sectorMember (r s : Nat) : Nat := ((s / 896 + r) % 16 + 2 + s / 64 % 14) % 16

/-- The key of a zone sector on the medium. -/
def Dev.sectorKey (d : Dev) (g r s : Nat) : Nat :=
  let (die, b, plane, page, cw) := d.sectorPlace g r s
  mediaKey die b plane page cw

/-- The codeword belongs to a P or Q unit of a zone or conventional row. -/
def EccItem.isParity (d : Dev) (i : EccItem) : Bool :=
  let (die, r) := d.roleOf (dieNumber i.ch i.target) i.block
  if bits i.ctx.toNat 31 30 = 1 then decide (14 ≤ bits i.ctx.toNat 21 18)
  else decide (12 ≤ r) && decide (14 ≤ positionOf (memberOf (die / 32)) (pageWordline i.slc i.page) r)

/-- The row that a block of a die is a member of. -/
def EccItem.rowOf (d : Dev) (i : EccItem) : Nat × Nat :=
  let (die, r) := d.roleOf (dieNumber i.ch i.target) i.block
  (groupOf (die / 32) (die % 32), r)

/-- The zone sector a codeword holds, if its row is bound. -/
def EccItem.zoneSector (d : Dev) (i : EccItem) : Option (Nat × Nat × Nat) :=
  let (die, r) := d.roleOf (dieNumber i.ch i.target) i.block
  let g := groupOf (die / 32) (die % 32)
  match (d.row g r).bound with
  | some (nsid, z) =>
    let wl := pageWordline i.slc i.page
    let p := positionOf (memberOf (die / 32)) wl r
    if p < 14 then some (nsid, z, (wl * 14 + p) * 64 + unitSector i.slc i.plane i.page i.cw) else none
  | none => none

/-! ### The sector check (R250) -/

/-- The namespace of the reading command, for a codeword on the host read path. -/
def EccItem.wantNs (d : Dev) (i : EccItem) : Option Nat :=
  if bits i.ctx.toNat 31 30 = 0 && !i.detached && !i.proof then
    (d.slot? (bits i.ctx.toNat 29 13)).map fun x => x.sqe.nsid.toNat
  else none

/-- What a tier that decoded the codeword gives out: the sector if it passes the sector check; P and Q are checked by syndrome
alone. A wrong codeword that the syndrome passed is one whose content the spec does not give. -/
def decoded (i : EccItem) (wrong : Bool) (d : Dev) : Option Sector × Dev :=
  match i.sector with
  | none => (none, d)
  | some s =>
    if i.isParity d then
      if wrong then (some (freeSector d.nfree 0), d.tick 1) else (some s, d)
    else
      let nsOk := match i.wantNs d with | some n => decide (mdNsid s.md = n) | none => true
      if !wrong && sectorOk s && nsOk then (some s, d)
      else (none, bucketEvent 61 ((d.add Fd.LDPC_CNT_MISC_SCRC 1).wr Fd.LDPC_EVT_SCRC 1))

/-! ### Release and delivery (R46, R179, R256, R260) -/

/-- The class of a channel's codeword is contracted there (R41). -/
def EccItem.contracted (d : Dev) (i : EccItem) : Bool := (d.chan i.ch).contracted i.cls

/-- One codeword of a held read is released; the die is free of the read once all are. -/
def releaseCw (i : EccItem) (f : Held → Held) (d : Dev) : Dev :=
  let mine (h : Held) : Bool := h.q.desc.tag == i.readTag && (h.q.desc.op = 4) == i.proof
  match (d.die i.ch i.target).held.find? mine with
  | none => d
  | some h =>
    let h' := f { h with left := h.left - 1 }
    if h'.left = 0 then
      let d := d.modDie i.ch i.target fun x => Die.relax { x with held := listEraseFirst mine x.held }
      if i.proof then endProof i.ch h' d else d
    else d.modDie i.ch i.target fun x => { x with held := listModFirst mine (fun _ => h') x.held }

/-- A sector joins the queue of a cipher lane on its way to the host (Table 9-5). -/
def toLane (k idx ch : Nat) (owned : Bool) (s : Sector) (d : Dev) : Dev :=
  { d with ciph := { d.ciph with
      readQ := d.ciph.readQ ++ [{ work := .read k idx s, ch := ch, owned := owned, since := d.now, order := d.ciph.seq }]
      seq := d.ciph.seq + 1 } }

/-- The status of a failed tag (R308). -/
def Cpl.isAuth (c : Cpl) : Bool := decide (c.sct = 7) && (decide (c.sc = 0xC5) || decide (c.sc = 0xC6))

/-- One sector of a read command is over; with the last the command ends. A failed tag leaves one Error Information entry (R297). -/
def readEnd (k : Nat) (d : Dev) : Dev :=
  match d.slot? k with
  | some x =>
    let d := d.modSlot k fun x => { x with left := x.left - 1 }
    if x.left ≤ 1 then
      let c := x.bad.getD success
      let d := if c.isAuth then
          addErr x.fn x.qid x.sqe.cid.toNat (c.sct * 256 + c.sc) (x.sqe.slba + bits c.dw0.toNat 15 0) x.sqe.nsid.toNat d
        else d
      finish k c d
    else d
  | none => d

/-- One sector of a read command is over without data (R97, R256, R296): the first such status is the command's. -/
def readLost (k : Nat) (c : Cpl) (d : Dev) : Dev :=
  readEnd k (d.modSlot k fun x => { x with bad := match x.bad with | some b => some b | none => some c })

def stUnrecovered : Cpl := stat 2 0x81

/-- Counts an unrecovered read of a command (Table 8-7). -/
def countUnrecovered (k lbaOff : Nat) (d : Dev) : Dev :=
  let d := d.modHost fun h => { h with unrec := h.unrec + 1 }
  match d.slot? k with
  | some x =>
    let n := x.sqe.nsid.toNat
    let d := d.modNs n fun y => { y with mediaErrs := y.mediaErrs + 1 }
    addErr x.fn x.qid x.sqe.cid.toNat (2 * 256 + 0x81) (x.sqe.slba + lbaOff) n d
  | none => d

/-- A good sector goes where CTX names (Table 9-5). -/
def deliverGood (i : EccItem) (s : Sector) (d : Dev) : Dev :=
  if i.detached then d
  else
    let c := i.ctx.toNat
    let off := i.cw - i.first
    match bits c 31 30 with
    | 0 =>
      if d.sys.role = 0 then toLane (bits c 29 13) (bits c 12 4 + off) i.ch i.owned s d
      else sendFar i.readTag.toNat (if i.owned then vcOwned else vcMedia) 0x1731
        [bits c 29 13, bits c 12 4 + off, i.ch, s.data.toNat, s.md.toNat] d
    | 1 =>
      { d with par := { d.par with
          contribs := d.par.contribs ++ [{ band := bandOf i.ch, slot := bits c 29 22, pos := bits c 21 18,
                                           cw := bits c 17 12 + off, sector := some s }] } }
    | 2 =>
      let d := d.modPool fun p => p.putSector (bits c 25 0) off s
      let key := mediaKey (dieNumber i.ch i.target) i.block i.plane i.page i.cw
      if d.zm.conv.any fun e => e.2 == .media key i.slc then
        d.modZm fun m => { m with convCopy := mapInsert m.convCopy (d.pool.follow (4 * off) (bits c 25 0)) key }
      else d
    | _ => d

/-- The conventional sectors whose content a codeword holds: namespace times 2^40 and LBA. -/
def EccItem.convSectors (d : Dev) (i : EccItem) : List Nat :=
  (d.zm.conv.filter fun e => e.2 == .media (mediaKey (dieNumber i.ch i.target) i.block i.plane i.page i.cw) i.slc).map (·.1)

/-- An unrecovered sector always leaves an event in the Media health log (R239); the events of Table 8-9 have no type of its own for it (log
entry 128). -/
def lostEvent (i : EccItem) (d : Dev) : Dev :=
  let (g, r) := i.rowOf d
  match i.zoneSector d with
  | some (nsid, z, _) => healthEvent 3 8 (dieNumber i.ch i.target) r g nsid z d
  | none => healthEvent 1 8 (dieNumber i.ch i.target) i.block 0xFF 0 0xFFFFFFFF d

/-- A sector that no tier and no parity recovers is lost as cause 0x02 (R97, R256): of a zone, or of the conventional region. -/
def markLost (i : EccItem) (d : Dev) : Dev :=
  let d := (i.convSectors d).foldl (fun (d : Dev) k =>
    deferredError (k / 2 ^ 40) (k % 2 ^ 40) 1 2 (d.modZm fun m => { m with conv := mapInsert m.conv k .lost })) d
  match i.zoneSector d with
  | some (nsid, z, s) =>
    let d := d.modZone nsid z fun x => { x with lost := listAdd x.lost (s, 1) }
    markZone nsid z 0 (deferredError nsid (zoneStart z + s) 1 2 d)
  | none => d

/-- The context of the reads of segment 2 of a device self-test (R284). -/
def selfTestCtx : Word := 0xC05E1F00
/-- A segment of the device self-test fails; the log names the first (R284). -/
def selfTestFailed (seg : Nat) (d : Dev) : Dev :=
  d.modHost fun h => { h with selfBad := if h.selfTest = 0 then h.selfBad else if h.selfBad = 0 then seg else min h.selfBad seg }

/-- An unrecovered codeword (R256). -/
def deliverLost (i : EccItem) (d : Dev) : Dev :=
  if i.detached then d
  else
    let d := lostEvent i d
    let c := i.ctx.toNat
    match bits c 31 30 with
    | 0 =>
      if d.sys.role = 0 then
        readLost (bits c 29 13) stUnrecovered (countUnrecovered (bits c 29 13) (bits c 12 4 + (i.cw - i.first)) d)
      else sendFar i.readTag.toNat vcMedia 0x1732 [bits c 29 13, bits c 12 4 + (i.cw - i.first)] d
    | 1 =>
      { d with par := { d.par with
          contribs := d.par.contribs ++ [{ band := bandOf i.ch, slot := bits c 29 22, pos := bits c 21 18,
                                           cw := bits c 17 12 + (i.cw - i.first), sector := none }] } }
    | 2 => markLost i d
    | _ => if i.ctx = selfTestCtx then selfTestFailed 2 d else d

/-! ### Re-reads (R253, R255) -/

/-- The last level set of a block's mode. -/
def Dev.lastLevel (d : Dev) (slc : Bool) : Nat :=
  d.rd (if slc then Fd.LDPC_LEVELS_SLC_LAST else Fd.LDPC_LEVELS_QLC_LAST)

/-- The descriptor of a hardware re-read of one codeword. -/
def rereadDesc (i : EccItem) (tag level : Nat) (wdraw : Bool) : Desc :=
  { d0 := BitVec.ofNat 32 (1 * 2 ^ 28 + i.cls * 2 ^ 24 + i.target * 2 ^ 19 + b2n wdraw * 2 ^ 18 + b2n i.slc * 2 ^ 17 +
      2 ^ i.cw * 2 ^ 8 + level)
    d1 := BitVec.ofNat 32 (i.block * 2 ^ 20 + i.page * 2 ^ 8 + i.plane * 2 ^ 6)
    d2 := i.ctx, d3 := 0, d4 := 0, d5 := 0, d6 := BitVec.ofNat 32 tag, d7 := 0 }

/-- A fresh hardware tag (R259). -/
def Dev.ldpcTag (d : Dev) : Nat × Dev :=
  (0xE0000000 + d.ecc.nextTag % 2 ^ 28, d.modEcc fun x => { x with nextTag := x.nextTag + 1 })

/-- The command a codeword is for has needed a re-read (R154). -/
def markReread (i : EccItem) (d : Dev) : Dev :=
  if bits i.ctx.toNat 31 30 = 0 && !i.detached then d.modSlot (bits i.ctx.toNat 29 13) fun x => { x with reread := true } else d

/-- Replaces a codeword in the decoders. -/
def Dev.setItem (d : Dev) (old new : EccItem) : Dev :=
  d.modEcc fun x => { x with items := listModFirst (fun y => y == old) (fun _ => new) x.items }
def Dev.dropItem (d : Dev) (old : EccItem) : Dev :=
  d.modEcc fun x => { x with items := listEraseFirst (fun y => y == old) x.items }

/-- Posts soft re-read `k` of a codeword at the head of its die's reads (R253). -/
def postReread (i : EccItem) (k : Nat) (d : Dev) : Dev :=
  let (tag, d) := d.ldpcTag
  let level := min (i.level + k) (d.lastLevel i.slc)
  let d := d.setItem i { i with stage := .reread k, rrTag := BitVec.ofNat 32 tag }
  takeDesc i.ch { desc := rereadDesc i tag level i.wdraw, dev := i.dev, detached := i.detached } true (markReread i d)

/-- A codeword whose read was detached and that failed is dropped (R257). -/
def dropDetached (i : EccItem) (d : Dev) : Dev := releaseCw i id (d.dropItem i)

/-! ### The hard decoder (R251, R252) -/

/-- Codewords a hard decoder corrects without fail. -/
def hardCapability : Nat := 80
/-- A raw read with this many zero bits or fewer is classed ERASED. -/
def erasedZeros : Nat := 64

/-- A proof read's codeword: its count, or that it did not decode (R183). -/
def proofDecoded (i : EccItem) (good : Bool) (errs : Nat) (d : Dev) : Dev :=
  let lim := match (d.die i.ch i.target).held.find? (fun h => h.q.desc.tag == i.readTag && h.q.desc.op = 4) with
    | some h => d.proofLimit i.ch h.q.desc
    | none => 0
  let bad := !good || decide (lim < errs)
  let top := if good then errs else 0xFFFF
  releaseCw i (fun h => { h with proofCw := if bad then h.proofCw + 1 else h.proofCw, proofMax := max h.proofMax top })
    (d.dropItem i)

/-- A refresh cause met by a read: an extended-life row is marked worn, the block of another is replaced (R226, R238, W1). -/
def weakRow (i : EccItem) (d : Dev) : Dev :=
  let (g, r) := i.rowOf d
  if d.extended g r then wornMark g r 0x05 d else wantReplace (dieNumber i.ch i.target) i.block 0x05 576 d

/-- A soft re-read at set `level` with few corrected bits makes it the block's tracked set (R225); the last set that the mode
offers is a refresh cause (R226). -/
def trackLevel (i : EccItem) (level errs : Nat) (d : Dev) : Dev :=
  if errs < d.thresh 2 then
    let d := d.modMed fun m => { m with level := mapSet 0 m.level (blockKey (dieNumber i.ch i.target) i.block) level }
    if level = d.lastLevel i.slc then weakRow i d else d
  else d

/-- A stipple read that meets an ERASED codeword has met the end of programmed data (R251). -/
def stipErased (i : EccItem) (d : Dev) : Dev :=
  if stippleTag i.readTag then
    d.modStip i.ch fun c => { c with
      posted := c.posted.map fun p => if p.tag == i.readTag then { p with erased := true } else p
      dataEnd := some (i.target, i.block, pageWordline i.slc i.page) }
  else d

/-- The hard decode of a codeword ends. -/
def hardDone (i : EccItem) (r : DecodeResult) (d : Dev) : Dev :=
  let erased := decide (r.zeros ≤ erasedZeros)
  let syndrome := !erased && (decide (r.errs ≤ hardCapability) || r.ok)
  let (out, d) := if syndrome then decoded i r.wrong d else (none, d)
  let d := if syndrome && out.isSome && decide (d.rd Fd.LDPC_WEAK_LIMIT < r.errs) then notice 1 i 0 i.level r.errs d else d
  match out with
  | some s =>
    let d := if d.thresh 2 < r.errs then weakRow i d else d
    if i.proof then proofDecoded i true r.errs (if stippleTag i.readTag && decide (i.level ≠ 0) then trackLevel i i.level r.errs d else d)
    else deliverGood i s (releaseCw i id (d.dropItem i))
  | none =>
    let d := bucketEvent i.ch (d.add Fd.LDPC_CNT_ESC_TO_SOFT 1)
    if i.proof then proofDecoded i false 0 (if erased then stipErased i d else d)
    else if i.detached then dropDetached i d
    else postReread i 1 (weakRow i d)

/-- HARD_DECODE_DONE: the channel's oldest codeword. -/
def hardDecode (n : Nat) (r : DecodeResult) (cyc : BitVec 10) (d : Dev) : Except String Dev :=
  match d.ecc.items.find? (fun i => decide (i.ch = n) && i.stage == .hard) with
  | some i => .ok (hardDone i r (d.atCycle cyc))
  | none => .error "hard decode"

def execHardDecodeDone (ch : Fin 48) (r : DecodeResult) (cyc : BitVec 10) (s : State) : Host.Outcome State Fault Refusal :=
  onDevThen s (hardDecode ch r cyc) (fun s => drainEsc (afterChan ch s))

/-! ### Soft decoders (R253, R254) -/

/-- A checker passed its last test (R282). -/
def Dev.checkPass (d : Dev) (i : Nat) : Bool := (mapGet { done := false, pass := false, step := 0 } d.ecc.checks i).pass

/-- Soft decoder `s` may be used. -/
def Dev.softOk (d : Dev) (s : Nat) : Bool := bit (d.rd Fd.LDPC_UNIT_EN_SOFT) s && d.checkPass (48 + s)
/-- Deep decoder `s` may be used. -/
def Dev.deepOk (d : Dev) (s : Nat) : Bool := bit (d.rd Fd.LDPC_UNIT_EN_DEEP) s && d.checkPass (56 + s)

/-- The classes with a soft reserve (R157): the n-th of them has the n-th usable decoder. -/
def Dev.softClasses (d : Dev) : List Nat := (List.range 16).filter fun c => d.rdb c Fd.TEN_CLS_CFG_SOFT_RSV = 1

/-- The class a soft decoder is reserved for. -/
def Dev.softFor (d : Dev) (s : Nat) : Option Nat :=
  let ok := (List.range 8).filter d.softOk
  match ok.idxOf? s with
  | some n => d.softClasses[n]?
  | none => none

/-- The codeword a soft decoder works on. -/
def Dev.softBusy (d : Dev) (s : Nat) : Option EccItem :=
  d.ecc.items.find? fun i => match i.stage with | .softRun _ x => decide (x = s) | _ => false

/-- The decoder may take a codeword: it is idle and has taken none in this stroke (Table 2-2); while the PLL is unlocked no stroke passes, and
no budget holds it back (R37). -/
def Dev.softIdle (d : Dev) (s : Nat) : Bool := (d.softBusy s).isNone && !(d.strk.lock && decide (s ∈ d.ecc.softUsed))

def EccItem.waitsSoft (i : EccItem) : Option Nat := match i.stage with | .softWait k => some k | _ => none

/-- The decoder a waiting codeword may take now: its class's own, else a free unreserved one, else its class's own from a codeword of another
class that was in it when the reserve was made (R157); a contracted codeword may also take an unreserved decoder from work of class 15 or of an
uncontracted class. -/
def Dev.softFree (d : Dev) (i : EccItem) : Option (Nat × Option EccItem) :=
  let ok := (List.range 8).filter d.softOk
  let mine := ok.filter fun s => d.softFor s == some i.cls && d.softIdle s
  let free := ok.filter fun s => (d.softFor s).isNone && d.softIdle s
  let strange := ok.filterMap fun s =>
    if d.softFor s == some i.cls then (d.softBusy s).bind fun b => if b.cls = i.cls then none else some (s, some b) else none
  match (mine ++ free).map (fun s => (s, none)) ++ strange with
  | a :: _ => some a
  | [] =>
    if i.contracted d then
      (ok.filterMap fun s =>
        match d.softFor s, d.softBusy s with
        | none, some b => if b.contracted d then none else some (s, some b)
        | _, _ => none).head?
    else none

/-- The one that arrived first. -/
def earliest : List EccItem → Option EccItem
  | [] => none
  | i :: is =>
    match earliest is with
    | some j => if j.order < i.order then some j else some i
    | none => some i

/-- The codeword that is served next: contracted classes first, each in arrival order (R254, R255). -/
def Dev.servedNext (d : Dev) (ws : List EccItem) : Option EccItem :=
  match earliest (ws.filter (·.contracted d)) with
  | some i => some i
  | none => earliest ws

/-- SOFT_DECODE_START: contracted classes first, in arrival order; the decoder's budget of the stroke is spent (Table 2-2). -/
def softStart (d : Dev) : Except String Dev :=
  match d.servedNext (d.ecc.items.filter fun i => i.waitsSoft.isSome && (d.softFree i).isSome) with
  | some i =>
    (match d.softFree i, i.waitsSoft with
      | some (s, out), some k =>
        let d := match out with
          | some b =>
            (match b.stage with
              | .softRun j _ => d.setItem b { b with stage := .softWait j }
              | _ => d)
          | none => d
        .ok ((d.setItem i { i with stage := .softRun k s }).modEcc fun x => { x with softUsed := s :: x.softUsed })
      | _, _ => .error "soft decode")
  | none => .error "soft decode"

def execSoftDecodeStart (s : State) : Host.Outcome State Fault Refusal := onDev s softStart

/-- SOFT_DECODE_DONE: success is delivered and noted; failure leads to the next re-read, the third to the deep tier. -/
def softDone (s : Nat) (r : DecodeResult) (d : Dev) : Except String Dev :=
  match d.softBusy s with
  | some i =>
    let d := d.idleFrom (48 + s)
    let k := match i.stage with | .softRun k _ => k | _ => 1
    let level := min (i.level + k) (d.lastLevel i.slc)
    let (out, d) := if r.ok then decoded i r.wrong d else (none, d)
    (match out with
      | some x => .ok (deliverGood i x (releaseCw i id (notice 2 i 0 level r.errs (trackLevel i level r.errs (d.dropItem i)))))
      | none =>
        if i.detached then .ok (dropDetached i d)
        else if k < 3 then .ok (postReread i (k + 1) d)
        else .ok ((d.setItem i { i with stage := .waitRecord, order := d.ecc.arrivals }).modEcc fun x => { x with arrivals := x.arrivals + 1 }))
  | none => .error "soft decode"

/-- The channel of a decoder's codeword. -/
def Dev.softChan (d : Dev) (s : Nat) : Nat := match d.softBusy s with | some i => i.ch | none => 0

def execSoftDecodeDone (dec : Fin 8) (r : DecodeResult) (s : State) : Host.Outcome State Fault Refusal :=
  let n := s.dev.softChan dec
  onDevThen s (softDone dec r) (fun s => drainEsc (afterChan n s))

/-! ### The deep tier (R255, R256) -/

/-- Escalation record numbers in use, in rising order. -/
def Dev.freeEsc (d : Dev) : Nat := firstGap (d.ecc.escs.map (·.1)) 0

/-- Codewords in the deep queue. -/
def Dev.deepQueued (d : Dev) : Nat := (d.ecc.escs.filter fun e => e.2.deep == .queued).length

/-- The level sets of the deep reads, each once (R255). -/
def deepLevels (t last : Nat) : List Nat :=
  [min (t + 4) last, min (t + 5) last, min (t + 6) last, min (t + 7) last].eraseDups

/-- Posts the deep reads of a codeword; they may suspend operations (R255). -/
def postDeep (i : EccItem) (levels : List Nat) (d : Dev) : EccItem × Dev :=
  let (tag, d) := d.ldpcTag
  let d := levels.foldl (fun (d : Dev) l =>
    let (t, d) := d.ldpcTag
    let tg := if l = levels.headD 0 then tag else t
    takeDesc i.ch { desc := rereadDesc i tg l false, dev := i.dev } false d) d
  ({ i with rrTag := BitVec.ofNat 32 tag }, d)

/-- Deep decodes in progress. -/
def Dev.deepRunning (d : Dev) : Nat := (d.ecc.escs.filter fun e => e.2.deep == .running).length

/-- A free deep decoder takes the queued codeword that is served next (R255). -/
def deepStart (d : Dev) : Dev :=
  let q := d.ecc.escs.filter fun e => e.2.deep == .queued
  if b2n (d.deepOk 0) + b2n (d.deepOk 1) ≤ d.deepRunning then d
  else match d.servedNext (q.map fun e => e.2.item) with
    | some i =>
      (match q.find? fun e => e.2.item == i with
        | some e => d.modEcc fun x => { x with escs := mapInsert x.escs e.1 { e.2 with deep := .running } }
        | none => d)
    | none => d

/-- Both deep decoders are given work, while there is any. -/
def deepFill (d : Dev) : Dev := deepStart (deepStart d)

/-- DEEP_ESCALATION: a codeword takes a free record; contracted classes first. -/
def deepEscalate (d : Dev) : Except String Dev :=
  match d.servedNext (d.ecc.items.filter fun i => i.stage == .waitRecord) with
  | some i =>
    if i.detached then .ok (dropDetached i d)
    else if 128 ≤ d.ecc.escs.length then .error "escalation record"
    else
      let e := d.freeEsc
      let last := d.lastLevel i.slc
      let tried := min (i.level + 3) last
      let d := releaseCw i id (d.dropItem i)
      let d := bucketEvent 59 ((notice 3 i e tried 0xFFFF d).add Fd.LDPC_CNT_ESC_TO_DEEP 1)
      let skip := decide (64 ≤ d.deepQueued) || !(d.deepOk 0 || d.deepOk 1)
      let put (esc : Escalation) (d : Dev) : Dev := d.modEcc fun x => { x with escs := mapInsert x.escs e esc }
      if skip then
        .ok (put { item := i, reads := 4, deep := .none, parity := .queued, delivered := false }
          (bucketEvent 60 ((notice 6 i e tried 0xFFFF d).add Fd.LDPC_CNT_DEEP_FAIL 1)))
      else
        let (i', d) := postDeep i (deepLevels i.level last) d
        let i' := { i' with order := d.ecc.arrivals }
        let d := d.modEcc fun x => { x with arrivals := x.arrivals + 1 }
        .ok (deepFill (put { item := i', reads := 4, deep := .queued, parity := .queued, delivered := false } d))
  | none => .error "escalation"

/-- The channel of the codeword that escalates next. -/
def Dev.escChan (d : Dev) : Nat :=
  match d.servedNext (d.ecc.items.filter fun i => i.stage == .waitRecord) with
  | some i => i.ch
  | none => 0

def execDeepEscalation (s : State) : Host.Outcome State Fault Refusal :=
  let n := s.dev.escChan
  onDevThen s deepEscalate (fun s => drainEsc (afterChan n s))

/-- A path of a record that has ended. -/
def EscPath.ended (p : EscPath) : Bool := p == .none || p == .failed || p == .passed

/-- A read of a block failed every tier while parity recovered the data: the sheet of the latest one counts (R235). -/
def DieHealth.addUnrec (h : DieHealth) (block sheet : Nat) : DieHealth :=
  { h with unrec := h.unrec.filter (fun u => decide (u.1 ≠ block)) ++ [(block, sheet)] }

/-- A read of a block failed every tier (UNREC of Table 8-10). -/
def countDieFailed (i : EccItem) (d : Dev) : Dev :=
  d.modMed fun m => { m with
    dies := mapMod DieHealth.fresh m.dies (dieNumber i.ch i.target) fun h => { h with failed := listAdd h.failed i.block, last := d.strk.count } }

/-- A read in which a block failed every tier while parity recovered it counts toward DIE_UNREC (R235). -/
def countDieUnrec (i : EccItem) (d : Dev) : Dev :=
  d.modMed fun m => { m with
    dies := mapMod DieHealth.fresh m.dies (dieNumber i.ch i.target) fun h => h.addUnrec i.block d.sheet }

/-- The record is freed when both paths have ended; with both failed the codeword is unrecovered (R256). -/
def settleEsc (e : Nat) (d : Dev) : Dev :=
  match mapFind d.ecc.escs e with
  | some x =>
    if x.deep.ended && x.parity.ended then
      let d := d.modEcc fun c => { c with escs := mapErase c.escs e }
      let d := if x.deep == .failed then countDieFailed x.item d else d
      if x.delivered then
        if x.deep == .failed && x.parity == .passed then countDieUnrec x.item d else d
      else deliverLost x.item (bucketEvent 62 (d.wr Fd.LDPC_EVT_DEEP_FAIL 1))
    else d
  | none => d

/-- DEEP_DECODE_DONE: the deep decode of record `e` ends, with its notice; its sector is delivered unless parity came first. -/
def deepDone (e : Nat) (r : DecodeResult) (d : Dev) : Except String Dev :=
  match mapFind d.ecc.escs e with
  | some x =>
    if x.deep == .running then
      let i := x.item
        let d := (d.idleFrom 56).idleFrom 57
        let last := min (i.level + 7) (d.lastLevel i.slc)
        let (out, d) := if r.ok then decoded i r.wrong d else (none, d)
        (match out with
          | some s =>
            let d := (notice 4 i e last r.errs d).add Fd.LDPC_CNT_DEEP_OK 1
            let d := if x.delivered then d else deliverGood i s d
            .ok (deepFill (settleEsc e (d.modEcc fun c => { c with
              escs := mapInsert c.escs e { x with deep := .passed, delivered := true } })))
          | none =>
            let d := bucketEvent 60 ((notice 5 i e last 0xFFFF d).add Fd.LDPC_CNT_DEEP_FAIL 1)
            .ok (deepFill (settleEsc e (d.modEcc fun c => { c with escs := mapInsert c.escs e { x with deep := .failed } }))))
    else .error "deep decode"
  | none => .error "deep decode"

def execDeepDecodeDone (esc : Fin 128) (r : DecodeResult) (s : State) : Host.Outcome State Fault Refusal :=
  onDevThen s (deepDone esc r) drainEsc

/-- ESC_HEAD_WRITE: the firmware consumes notices. -/
def execEscHeadWrite (v : Word) (s : State) : Host.Outcome State Fault Refusal :=
  onDevThen s (orRsv (decide (bits v.toNat 31 16 ≠ 0)) fun d => d.wr Fd.LDPC_ESC_HEAD_INDEX v.toNat) drainEsc

end Sys2Proof.Machine
end

