-- ==== Sys2Proof/Machine/Parity.lean ====
section
/-! DEFINITION. Die parity: accumulators, jobs, reconstruction over GF(2^8) (R261 to R270). -/

namespace Sys2Proof

open Sys2Proof.Machine

/-! ### Fields of a parity job (Table 9-6) -/

def Desc.jOp (x : Desc) : Nat := bits x.d0.toNat 31 28
def Desc.jBand (x : Desc) : Nat := bits x.d0.toNat 27 26
def Desc.jFromReads (x : Desc) : Bool := bit x.d0.toNat 25
def Desc.jTwo (x : Desc) : Bool := bit x.d0.toNat 24
def Desc.jPos (x : Desc) : Nat := bits x.d0.toNat 23 20
def Desc.jPos2 (x : Desc) : Nat := bits x.d0.toNat 19 16
def Desc.jAcc (x : Desc) : Nat := bits x.d0.toNat 15 0
def Desc.jFirst (x : Desc) : Nat := bits x.d1.toNat 31 24
def Desc.jNcw (x : Desc) : Nat := bits x.d1.toNat 23 16
def Desc.jMask (x : Desc) : Nat := bits x.d1.toNat 15 0
def Desc.jCell (x : Desc) : Nat := bits x.d2.toNat 25 0
def Desc.jOut (x : Desc) : Nat := x.d3.toNat
def Desc.jEsc (x : Desc) : Option Nat := if bit x.d4.toNat 31 then some (bits x.d4.toNat 6 0) else none
/-- The unit codewords of a job. -/
def Desc.jCws (x : Desc) : List Nat := (List.range x.jNcw).map (x.jFirst + ·)

end Sys2Proof

namespace Sys2Proof.Machine

def Dev.modPar (d : Dev) (f : Par → Par) : Dev := { d with par := f d.par }

/-! ### GF(2^8) with polynomial 0x11D (R262) -/

/-- `n` bytes of value `b`. -/
def repByte (n b : Nat) : Nat := b * ((256 ^ n - 1) / 255)

/-- Every byte of an `n`-byte number times g = 0x02. -/
def gfDouble (n v : Nat) : Nat :=
  let top := v / 128 &&& repByte n 1
  ((v * 2) &&& repByte n 0xFE) ^^^ (top * 0x1D)

/-- Every byte of an `n`-byte number times the byte `c`, bit by bit from the low end. -/
def gfScale (n : Nat) : Nat → Nat → Nat → Nat
  | 0, _, _ => 0
  | k + 1, c, v => (if c % 2 = 1 then v else 0) ^^^ gfScale n k (c / 2) (gfDouble n v)

/-- A byte times a byte. -/
def gfMul (a b : Nat) : Nat := gfScale 1 8 a b
/-- g to a power. -/
def gfPow : Nat → Nat
  | 0 => 1
  | k + 1 => gfDouble 1 (gfPow k)
/-- The inverse of a byte: its 254th power. -/
def gfInv (a : Nat) : Nat :=
  let a2 := gfMul a a
  let a4 := gfMul a2 a2
  let a8 := gfMul a4 a4
  let a16 := gfMul a8 a8
  let a32 := gfMul a16 a16
  let a64 := gfMul a32 a32
  let a128 := gfMul a64 a64
  gfMul a2 (gfMul a4 (gfMul a8 (gfMul a16 (gfMul a32 (gfMul a64 a128)))))

def zeroSector : Sector := { data := 0, md := 0 }
def payloadBytes : Nat := 4160

end Sys2Proof.Machine

namespace Sys2Proof

open Sys2Proof.Machine

/-- The 4,160 bytes of a payload as one number. -/
def Sector.num (x : Sector) : Nat := x.data.toNat + x.md.toNat * 2 ^ 32768
def Sector.ofNum (v : Nat) : Sector := { data := BitVec.ofNat 32768 v, md := BitVec.ofNat 512 (v / 2 ^ 32768) }
def Sector.add (a b : Sector) : Sector := { data := a.data ^^^ b.data, md := a.md ^^^ b.md }
def Sector.scale (c : Nat) (x : Sector) : Sector := Sector.ofNum (gfScale payloadBytes 8 c x.num)

end Sys2Proof

namespace Sys2Proof.Machine

/-! ### Reconstruction (R266) -/

/-- The sum of the data positions below `n`, each times its power of g where `q`. -/
def dataSum (q : Bool) (at' : Nat → Sector) : Nat → Sector
  | 0 => zeroSector
  | n + 1 => (dataSum q at' n).add (if q then (at' n).scale (gfPow n) else at' n)

/-- The payload of position `x` from the 14 others named; `at'` gives zero for the two positions that are not named. -/
def solve (mask x : Nat) (at' : Nat → Sector) : Sector :=
  let other := ((List.range 16).filter fun k => !bit mask k && decide (k ≠ x)).headD x
  let sp := dataSum false at' 14
  let sq := dataSum true at' 14
  if x = 14 then
    if other = 15 || 14 ≤ other then sp
    else sp.add ((sq.add (at' 15)).scale (gfInv (gfPow other)))
  else if x = 15 then
    if 14 ≤ other then sq else sq.add ((sp.add (at' 14)).scale (gfPow other))
  else if other = 15 then sp.add (at' 14)
  else if other = 14 then (sq.add (at' 15)).scale (gfInv (gfPow x))
  else
    let a := sp.add (at' 14)
    let b := sq.add (at' 15)
    (b.add (a.scale (gfPow other))).scale (gfInv (gfPow x ^^^ gfPow other))

/-! ### Engines and slots (R269, R270) -/

/-- Engine `e` runs and passed its test. -/
def Dev.engineOk (d : Dev) (e : Nat) : Bool := bit (d.rd Fd.PAR_CTL_EN) e && bit d.par.ok e

def Dev.mapEngine (d : Dev) (b : Nat) : Nat :=
  d.rd (match b with | 0 => Fd.PAR_MAP_BAND0 | 1 => Fd.PAR_MAP_BAND1 | _ => Fd.PAR_MAP_BAND2)

/-- The engine that serves a band: its own, else that of the next band. -/
def Dev.engineFor (d : Dev) (b : Nat) : Option Nat :=
  [d.mapEngine b, d.mapEngine ((b + 1) % 3), d.mapEngine ((b + 2) % 3)].find? d.engineOk

def parKey (e slot : Nat) : Nat := e * 256 + slot
def Dev.parJob (d : Dev) (e slot : Nat) : Option ParJob := mapFind d.par.jobs (parKey e slot)
def Dev.setJob (d : Dev) (e slot : Nat) (j : ParJob) : Dev := d.modPar fun p => { p with jobs := mapInsert p.jobs (parKey e slot) j }
/-- The lowest free slot of an engine. -/
def Dev.freeJob (d : Dev) (e : Nat) : Nat :=
  firstGap ((d.par.jobs.filter fun x => decide (x.1 / 256 = e)).map (·.1 % 256)) 0

def Dev.acc? (d : Dev) (a : Nat) : Option Acc := mapFind d.par.accs a

/-- The job is malformed (Table 9-7, 0x10): a reserved operation, band, bit or value, a missing tag, codewords outside the unit,
a mask that does not fit the operation, or an accumulator that is not open. -/
def Dev.jobBad (d : Dev) (x : Desc) : Bool :=
  let cws := decide (x.jNcw = 0) || decide (64 < x.jFirst + x.jNcw)
  x.jOp = 0 || decide (6 < x.jOp) || decide (x.jBand = 3) || decide (x.tag = 0) || decide (bits x.d2.toNat 31 26 ≠ 0) ||
    decide (bits x.d4.toNat 30 7 ≠ 0) || decide (x.d5 ≠ 0) || decide (x.d7 ≠ 0) ||
    (match x.jOp with
      | 1 => decide (2304 ≤ x.jAcc)
      | 2 => cws || decide (13 < x.jPos) || (d.acc? x.jAcc).isNone
      | 3 => cws || (d.acc? x.jAcc).isNone
      | 4 =>
        cws || decide (((List.range 16).filter (bit x.jMask)).length ≠ 14) || bit x.jMask x.jPos ||
          (x.jTwo && (bit x.jMask x.jPos2 || decide (x.jPos2 = x.jPos))) ||
          (decide (x.jAcc ≠ 0xFFFF) && (d.acc? x.jAcc).isNone)
      | 5 => (d.acc? x.jAcc).isNone
      | _ => false)

/-! ### What a job does (R263 to R266) -/

/-- Adds a sector of a position to an accumulator. -/
def Acc.addCw (a : Acc) (pos cw : Nat) (s : Sector) : Acc :=
  { a with
    p := mapMod zeroSector a.p cw fun x => x.add s
    q := mapMod zeroSector a.q cw fun x => x.add (s.scale (gfPow pos)) }

/-- Adds the codewords of a data unit, unless its position is there already. -/
def addUnit (a pos : Nat) (cws : List (Nat × Sector)) (d : Dev) : Dev :=
  match d.acc? a with
  | some x =>
    if bit x.bitmap pos then d
    else
      let x := cws.foldl (fun x e => x.addCw pos e.1 e.2) x
      d.modPar fun p => { p with accs := mapInsert p.accs a { x with bitmap := x.bitmap + 2 ^ pos } }
  | none => d

/-- Writes P and Q into their chains and frees the accumulator. -/
def closeAcc (x : Desc) (a : Acc) (d : Dev) : Dev :=
  let d := x.jCws.foldl (fun (d : Dev) j => d.modPool fun p =>
    (p.putSector x.jCell j (mapGet zeroSector a.p j)).putSector (bits x.jOut 25 0) j (mapGet zeroSector a.q j)) d
  d.modPar fun p => { p with accs := mapErase p.accs x.jAcc }

/-- The job uses an accumulator that holds an uncorrectable word. -/
def Dev.accBad (d : Dev) (x : Desc) : Bool :=
  (x.jOp = 2 || x.jOp = 3 || (x.jOp = 4 && decide (x.jAcc ≠ 0xFFFF))) &&
    (match d.acc? x.jAcc with | some a => a.bad | none => false)

/-- The job in a slot that CANCEL names ends with status 0x02. -/
def cancelJob (e slot : Nat) (d : Dev) : Dev :=
  match d.parJob e slot with
  | some j => if j.status.isNone then d.setJob e slot { j with status := some 2 } else d
  | none => d

/-- A record's parity path runs while a job races for it (R256). -/
def racing (x : Desc) (st : EscPath) (d : Dev) : Dev :=
  match x.jEsc with
  | some e =>
    if x.jOp = 4 then
      match mapFind d.ecc.escs e with
      | some r => if r.parity.ended || r.item.detached then d else d.modEcc fun c => { c with escs := mapInsert c.escs e { r with parity := st } }
      | none => d
    else d
  | none => d

/-- A job begins: its status where it is known at once, and what it does at once. -/
def startJob (e slot : Nat) (x : Desc) (d : Dev) : Dev :=
  let job : ParJob := { words := x, got := [], copyP := [], copyQ := [], copyMap := 0, status := none, failPos := x.jPos }
  if d.jobBad x then d.setJob e slot { job with status := some 0x10 }
  else if d.accBad x then (d.setJob e slot { job with status := some 4 }).wr Fd.PAR_EVT_ACC_ERR 1
  else
    let ok := { job with status := some 0 }
    match x.jOp with
    | 1 =>
      (d.modPar fun p => { p with accs := mapInsert p.accs x.jAcc { bitmap := 0, p := [], q := [], bad := false } }).setJob e slot ok
    | 2 =>
      if x.jFromReads then d.setJob e slot job
      else (addUnit x.jAcc x.jPos (x.jCws.map fun j => (j, d.pool.sector x.jCell j)) d).setJob e slot ok
    | 3 =>
      (match d.acc? x.jAcc with
        | some a => (closeAcc x a d).setJob e slot ok
        | none => d)
    | 4 =>
      let job := match d.acc? x.jAcc with
        | some a => { job with copyP := a.p, copyQ := a.q, copyMap := a.bitmap + 0xC000 }
        | none => { job with copyMap := 0xFFFF }
      racing x .running (d.setJob e slot job)
    | 5 => (d.modPar fun p => { p with accs := mapErase p.accs x.jAcc }).setJob e slot ok
    | _ => cancelJob e (bits x.jAcc 7 0) (d.setJob e slot ok)

/-- A post by a graver: the engine's lowest free slot, or refused for want of one. -/
def parityPost (g : Nat) (x : Desc) (d : Dev) : Dev :=
  match d.engineFor x.jBand with
  | some e =>
    let slot := d.freeJob e
    if slot < 256 then
      startJob e slot x (((d.wrb g Fd.PAR_JOB_STAT_RESULT 1).wrb g Fd.PAR_JOB_STAT_ENGINE e).wrb g Fd.PAR_JOB_STAT_SLOT slot)
    else d.wrb g Fd.PAR_JOB_STAT_RESULT 2
  | none => d.wrb g Fd.PAR_JOB_STAT_RESULT 2

/-- A posted job with this operation. -/
def parityRow (op : Nat) (g : Fin 64) (job : Desc) (s : State) : Host.Outcome State Fault Refusal :=
  onDev s (always (parityPost g { job with d0 := BitVec.ofNat 32 (setBits job.d0.toNat 31 28 op) }))

def execParityOpen (g : Fin 64) (job : Desc) (s : State) : Host.Outcome State Fault Refusal := parityRow 1 g job s
def execParityAdd (g : Fin 64) (job : Desc) (s : State) : Host.Outcome State Fault Refusal := parityRow 2 g job s
def execParityClose (g : Fin 64) (job : Desc) (s : State) : Host.Outcome State Fault Refusal := parityRow 3 g job s
def execParityRecon (g : Fin 64) (job : Desc) (s : State) : Host.Outcome State Fault Refusal := parityRow 4 g job s
def execParityDrop (g : Fin 64) (job : Desc) (s : State) : Host.Outcome State Fault Refusal := parityRow 5 g job s
def execParityCancel (g : Fin 64) (job : Desc) (s : State) : Host.Outcome State Fault Refusal := parityRow 6 g job s

/-! ### Contributions (R267, R270) -/

/-- The position takes part in the job by a read of the medium. -/
def ParJob.wants (j : ParJob) (pos : Nat) : Bool :=
  if j.words.jOp = 2 then decide (pos = j.words.jPos)
  else bit j.words.jMask pos && (if j.words.jAcc = 0xFFFF then true else decide (pos < 14) && bit j.copyMap pos)

/-- A contribution is absorbed by its job; one that failed every tier ends the job. -/
def absorb (c : Contribution) (d : Dev) : Dev :=
  match d.engineFor c.band with
  | none => d
  | some e =>
    match d.parJob e c.slot with
    | none => d
    | some j =>
      if j.status.isSome || !j.wants c.pos || j.got.any (fun x => decide (x.1 = c.pos) && decide (x.2.1 = c.cw)) then d
      else match c.sector with
        | some s => d.setJob e c.slot { j with got := j.got ++ [(c.pos, c.cw, s)] }
        | none => d.setJob e c.slot { j with status := some 3, failPos := c.pos }

/-- PARITY_CONTRIBUTION: the band's oldest contribution, within its 96 codewords of the stroke. -/
def parityContribution (b : Nat) (d : Dev) : Except String Dev :=
  match d.par.contribs.find? (fun c => decide (c.band = b)) with
  | some c =>
    if mapGet 0 d.par.used b < 96 then
      .ok (absorb c (d.modPar fun p => { p with
        contribs := listEraseFirst (fun x => x == c) p.contribs, used := mapMod 0 p.used b (· + 1) }))
    else .error "parity contribution"
  | none => .error "parity contribution"

def execParityContribution (band : Fin 3) (s : State) : Host.Outcome State Fault Refusal := onDev s (parityContribution band)

/-! ### Completion (R256, R267, R269) -/

/-- Everything the job waits for has come. -/
def ParJob.complete (j : ParJob) : Bool :=
  (List.range 16).all fun p => !j.wants p ||
    j.words.jCws.all fun c => j.got.any fun g => decide (g.1 = p) && decide (g.2.1 = c)

/-- What position `p` gives for codeword `c`. -/
def ParJob.part (j : ParJob) (c p : Nat) : Sector :=
  match j.got.find? (fun g => decide (g.1 = p) && decide (g.2.1 = c)) with
  | some g => g.2.2
  | none =>
    if bit j.words.jMask p && decide (j.words.jAcc ≠ 0xFFFF) then
      (if p = 14 then mapGet zeroSector j.copyP c else if p = 15 then mapGet zeroSector j.copyQ c else zeroSector)
    else zeroSector

/-- The solved codewords of a reconstruction. -/
def ParJob.solved (j : ParJob) : List (Nat × Sector) :=
  j.words.jCws.map fun c => (c, solve j.words.jMask j.words.jPos (j.part c))

/-- Output of a reconstruction that races for no record goes where its CTX names (Table 9-5). -/
def deliverOut (x : Desc) (c : Nat) (s : Sector) (d : Dev) : Dev :=
  let ctx := x.jOut
  let off := c - x.jFirst
  match bits ctx 31 30 with
  | 0 => toLane (bits ctx 29 13) (bits ctx 12 4 + off) (memberChan (32 * x.jBand) 0) false s d
  | 1 =>
    d.modPar fun p => { p with
      contribs := p.contribs ++ [{ band := x.jBand, slot := bits ctx 29 22, pos := bits ctx 21 18, cw := bits ctx 17 12 + off,
                                   sector := some s }] }
  | 2 => d.modPool fun p => p.putSector (bits ctx 25 0) off s
  | _ => d

/-- A sector that no further job can reconstruct is lost to the read it was for (R256, R267). -/
def loseOut (x : Desc) (d : Dev) : Dev :=
  let ctx := x.jOut
  if bits ctx 31 30 = 0 then
    x.jCws.foldl (fun d c =>
      let k := bits ctx 29 13
      readLost k stUnrecovered (countUnrecovered k (bits ctx 12 4 + (c - x.jFirst)) d)) d
  else d

/-- The record of a racing job, while its codeword is not delivered. -/
def Dev.raceOpen (d : Dev) (e : Nat) : Option Escalation :=
  match mapFind d.ecc.escs e with
  | some r => if r.delivered then none else some r
  | none => none

/-- Ends the parity path of a record. -/
def endPath (e : Nat) (p : EscPath) (won : Bool) (d : Dev) : Dev :=
  match mapFind d.ecc.escs e with
  | some r => settleEsc e (d.modEcc fun c => { c with escs := mapInsert c.escs e { r with parity := p, delivered := r.delivered || won } })
  | none => d

/-- The namespace of the command that reads what a reconstruction gives: on the host read path the sector must be of it (R250). -/
def Dev.reconNs (d : Dev) (x : Desc) : Option Nat :=
  match x.jEsc.bind d.raceOpen with
  | some r => r.item.wantNs d
  | none => if x.jEsc.isNone && decide (bits x.jOut 31 30 = 0) then (d.slot? (bits x.jOut 29 13)).map fun y => y.sqe.nsid.toNat else none

/-- A reconstructed sector passes the sector check (R250): P and Q carry none. -/
def Dev.reconOk (d : Dev) (x : Desc) (s : Sector) : Bool :=
  decide (14 ≤ x.jPos) || (sectorOk s && (d.reconNs x).all fun n => decide (mdNsid s.md = n))

/-- The end of a reconstruction: its status, and its output where it has one. -/
def reconEnd (j : ParJob) (d : Dev) : Nat × Dev :=
  let x := j.words
  match j.status with
  | some 5 => (5, d)
  | some st =>
    let two := x.jTwo
    (match x.jEsc with
      | some e =>
        if (d.raceOpen e).isNone then (5, endPath e .passed false d)
        else if st = 3 && !two then (st, racing x .queued d)
        else if st = 2 then (st, racing x .queued d)
        else (st, endPath e .failed false d)
      | none => (st, if st = 3 && two then loseOut x d else d))
  | none =>
    let out := j.solved
    let good := out.all fun e => d.reconOk x e.2
    (match x.jEsc with
      | some e =>
        (match d.raceOpen e with
          | none => (5, endPath e .passed false d)
          | some r =>
            if good then
              (0, endPath e .passed true (match out with | o :: _ => deliverGood r.item o.2 d | [] => d))
            else (1, endPath e .failed false d))
      | none =>
        if good then (0, out.foldl (fun d e => deliverOut x e.1 e.2 d) d) else (1, loseOut x d))

/-- Counts the end of a reconstruction (Table 9-25, Table 9-26). -/
def countRecon (st : Nat) (d : Dev) : Dev :=
  if st = 0 then d.add Fd.PAR_CNT_OK 1
  else
    let d := if st = 1 || st = 3 then d.add Fd.PAR_CNT_FAIL 1 else d
    d.flagIf (decide (st = 1 || st = 3 || st = 4)) Fd.PAR_EVT_RECON_FAIL

/-- Codewords of its band's budget that an ADD from cells and a CLOSE take when they end (R270). -/
def ParJob.cost (j : ParJob) : Nat :=
  if j.status = some 0 && (j.words.jOp = 3 || (j.words.jOp = 2 && !j.words.jFromReads)) then j.words.jNcw else 0

/-- PARITY_JOB_DONE: the job leaves its slot with one entry in the ring, once what remains of its band's budget serves it. -/
def parityJobDone (e slot : Nat) (d : Dev) : Except String Dev :=
  match d.parJob e slot with
  | none => .error "parity job"
  | some j =>
    let x := j.words
    if (j.status.isNone && !j.complete) || decide (96 < mapGet 0 d.par.used x.jBand + j.cost) then .error "parity job"
    else
      let d := (d.modPar fun p => { p with jobs := mapErase p.jobs (parKey e slot), used := mapMod 0 p.used x.jBand (· + j.cost) }).idleFrom (58 + e)
      let (st, d) :=
        if x.jOp = 4 && j.status != some 0x10 then
          let (st, d) := reconEnd j d
          (st, countRecon st d)
        else match j.status with
          | some st => (st, d)
          | none => (0, addUnit x.jAcc x.jPos (j.got.map fun g => (g.2.1, g.2.2)) d)
      let entry : List Word :=
        [BitVec.ofNat 32 (st * 2 ^ 24 + x.jOp * 2 ^ 20 + (if st = 3 then j.failPos else x.jPos) * 2 ^ 16 + slot * 2 ^ 8),
         x.tag, BitVec.ofNat 32 x.jAcc, 0]
      .ok (d.modPar fun p => { p with cq := p.cq ++ [entry] })

def execParityJobDone (engine : Fin 3) (slot : Fin 256) (s : State) : Host.Outcome State Fault Refusal :=
  onDevThen s (parityJobDone engine slot) drainPar

/-- PARITY_JCQ_HEAD_WRITE. -/
def execParityJcqHeadWrite (v : Word) (s : State) : Host.Outcome State Fault Refusal :=
  onDevThen s (orRsv (decide (bits v.toNat 31 16 ≠ 0)) fun d => d.wr Fd.PAR_JCQ_HEAD_INDEX v.toNat) drainPar

end Sys2Proof.Machine
end

