-- ==== Sys2Proof/Machine/Cipher.lean ====
section
/-! DEFINITION. The cipher engine: lanes, key slots, jobs (R288 to R309). -/

namespace Sys2Proof.Machine

def Dev.modCiph (d : Dev) (f : Ciph → Ciph) : Dev := { d with ciph := f d.ciph }
def Dev.lane (d : Dev) (n : Nat) : Lane := mapGet Lane.reset d.ciph.lanes n
def Dev.modLane (d : Dev) (n : Nat) (f : Lane → Lane) : Dev := d.modCiph fun c => { c with lanes := mapMod Lane.reset c.lanes n f }

/-! ### Key slots (R298) -/

def rootSlot : Nat := 4159
def importSlot : Nat := 4158
/-- An empty slot. -/
def KeySlot.empty : KeySlot := { state := .empty, mode := 0, gen := 0, key := 0 }
/-- A slot; ROOT is always loaded. -/
def Dev.keySlot (d : Dev) (n : Nat) : KeySlot :=
  if n = rootSlot then { state := .loaded, mode := 2, gen := 0, key := Config.rootKey } else mapGet KeySlot.empty d.ciph.slots n
def Dev.setKey (d : Dev) (n : Nat) (x : KeySlot) : Dev := d.modCiph fun c => { c with slots := mapSet KeySlot.empty c.slots n x }
/-- The key slot of a namespace. -/
def nsSlot (nsid : Nat) : Nat := nsid - 1
def isNsSlot (n : Nat) : Bool := decide (n < 4096)
def isFwSlot (n : Nat) : Bool := decide (4096 ≤ n) && decide (n ≤ 4157)

/-! ### Nonces (R294) -/

/-- A device nonce: cascade position, epoch, counter; the counter advances. -/
def Dev.takeNonce (d : Dev) : Nat × Dev :=
  (d.rd Fd.CIPH_EPOCH_POS * 2 ^ 94 + d.rd Fd.CIPH_EPOCH_EPOCH * 2 ^ 64 + d.ciph.nonce % 2 ^ 64,
   d.modCiph fun c => { c with nonce := c.nonce + 1 })

/-- CIPH_EPOCH_WRITE: only while the lanes do not run (Table 10-7). -/
def epochWrite (v : Nat) (d : Dev) : Dev :=
  if d.is Fd.CIPH_CTL_EN then d.wr Fd.CIPH_EVT_CFG_IGN 1
  else (d.wr Fd.CIPH_EPOCH_EPOCH v).modCiph fun c => { c with nonce := 0, epochSet := true }

def execCiphEpochWrite (v : Word) (s : State) : Host.Outcome State Fault Refusal := onDev s (always (epochWrite v.toNat))

/-- NONCE_LO_READ: the high half is latched (Table 10-8). -/
def nonceLoRead (d : Dev) : Dev :=
  { d.modCiph fun c => { c with nonceHi := c.nonce / 2 ^ 32 % 2 ^ 32 } with
    bus := { data := BitVec.ofNat 64 (d.ciph.nonce % 2 ^ 32), err := false } }

def execNonceLoRead (s : State) : Host.Outcome State Fault Refusal := onDev s (always nonceLoRead)

/-! ### Sectors (R291 to R297) -/

/-- The additional data of a sector: metadata bytes 32 to 47, then 0 to 3 (R293). -/
def sectorAad (md : BitVec 512) : List Byte := leBytes 16 (mdGet md 32 16) ++ leBytes 4 (mdGet md 0 4)

/-- Encrypts a sector whose metadata bytes 32 to 63 are in place; SCRC comes last (R296). -/
def encryptSector (key : BitVec 512) (mode gen nonce : Nat) (x : Sector) : Sector :=
  let md := mdSet x.md 0 4 gen
  let fmt := mdFmt md / 2 * 2
  if mode = 2 then
    let md := mdSet (mdSet md 4 12 nonce) 36 2 (fmt + 1)
    let ct := Config.gcmText key nonce 4096 x.data.toNat
    let md := mdSet md 16 16 (Config.gcmTag key nonce (sectorAad md) 4096 ct).toNat
    let y : Sector := { data := BitVec.ofNat 32768 ct, md := md }
    { y with md := mdSet md 60 4 (sectorCrc y) }
  else
    let md := mdSet (mdSet (mdSet md 4 12 0) 16 16 0) 36 2 fmt
    let y : Sector := { data := BitVec.ofNat 32768 (Config.xtsEnc key (mdOrigLba md) 4096 x.data.toNat), md := md }
    { y with md := mdSet md 60 4 (sectorCrc y) }

/-- The plaintext of a sector, and whether its tag holds. -/
def decryptSector (key : BitVec 512) (mode : Nat) (x : Sector) : Payload × Bool :=
  if mode = 2 then
    (BitVec.ofNat 32768 (Config.gcmText key (mdNonce x.md) 4096 x.data.toNat),
     decide (mdTag x.md = (Config.gcmTag key (mdNonce x.md) (sectorAad x.md) 4096 x.data.toNat).toNat))
  else (BitVec.ofNat 32768 (Config.xtsDec key (mdOrigLba x.md) 4096 x.data.toNat), true)

/-! ### Which sector a lane takes (R289, R290) -/

def Dev.laneOk (d : Dev) (n : Nat) : Bool := bit d.ciph.laneOk n
/-- The lane of a channel: its own, else its pair's. -/
def Dev.laneOf (d : Dev) (ch : Nat) : Option Nat :=
  if d.laneOk ch then some ch else if d.laneOk (ch ^^^ 1) then some (ch ^^^ 1) else none

/-- Cycles a read sector waits on its own lane before another may take it. -/
def laneWait : Nat := 320

/-- The item that came first. -/
def firstItem (l : List LaneItem) : Option LaneItem :=
  l.foldl (fun a i => match a with
    | some b => if i.order < b.order then some i else some b
    | none => some i) none

/-- The key slot that an item runs under. -/
def Dev.itemSlot (d : Dev) (i : LaneItem) : Nat :=
  match i.work with
  | .read k _ _ | .write k _ _ => (match d.slot? k with | some x => nsSlot x.sqe.nsid.toNat | none => 0)
  | .job x _ => bits x.d0.toNat 12 0

/-- A write sector may start: a sealed one waits while no epoch has been written (R294). -/
def Dev.mayEncrypt (d : Dev) (i : LaneItem) : Bool :=
  let x := d.keySlot (d.itemSlot i)
  x.state != .loaded || decide (x.mode ≠ 2) || d.ciph.epochSet

/-- The write sector that is next: by fetch order of the commands, then by place. -/
def Dev.nextWrite (d : Dev) : Option LaneItem :=
  let place (i : LaneItem) : Nat × Nat := match i.work with
    | .write k idx _ => ((match d.slot? k with | some x => x.seq | none => 0), idx)
    | _ => (0, 0)
  ((d.ciph.writeQ.filter d.mayEncrypt).foldl (fun a i => match a with
    | some b =>
      let p := place i
      let q := place b
      if p.1 < q.1 || (p.1 = q.1 && p.2 < q.2) then some i else some b
    | none => some i) none)

/-- The choice of lane `n`, with the tier it comes from. -/
def Dev.laneChoice (d : Dev) (n : Nat) : Option (Nat × LaneItem) :=
  let reads := d.ciph.readQ
  let mine := reads.filter fun i => d.laneOf i.ch == some n
  let others := reads.filter fun i => match d.laneOf i.ch with
    | none => true
    | some l => decide (l ≠ n) && decide (i.since + laneWait ≤ d.now)
  let write := d.nextWrite
  let tier (t : Nat) (o : Option LaneItem) : Option (Nat × LaneItem) := o.map fun i => (t, i)
  let turn := decide (d.rd Fd.CIPH_WR_SHARE_N ≤ (d.lane n).run)
  [tier 1 (firstItem (mine.filter (·.owned))),
   if turn then tier 2 write else none,
   tier 3 (firstItem (mine.filter fun i => !i.owned)),
   tier 3 (firstItem others),
   tier 4 write,
   tier 5 (firstItem d.ciph.jobQ)].findSome? id

/-- Takes an item out of its queue. -/
def Ciph.drop (c : Ciph) (i : LaneItem) : Ciph :=
  let f := fun x => x == i
  { c with readQ := listEraseFirst f c.readQ, writeQ := listEraseFirst f c.writeQ, jobQ := listEraseFirst f c.jobQ }

/-- The lane's run of tier-3 sectors after it serves one of a tier. -/
def runAfter (tier run : Nat) (writes : Bool) : Nat :=
  if tier = 2 || tier = 4 then 0 else if tier = 3 && writes then run + 1 else run

def stDenied : Cpl := stat 2 0x86

/-- A write that still has a sector to encrypt under a slot that is not loaded is withdrawn (R301). -/
def denyWrite (k : Nat) (d : Dev) : Dev := withdrawCmd k stDenied d

/-- The status of a job (R304 to R306). -/
def Dev.jobStatus (d : Dev) (x : Desc) : Nat :=
  let op := bits x.d0.toNat 31 28
  let mode := bits x.d0.toNat 27 26
  let dn := bit x.d0.toNat 25
  let slot := bits x.d0.toNat 12 0
  let len := bits x.d1.toNat 24 0
  if !(op = 1 || op = 2) || !(mode = 1 || mode = 2) || decide (bits x.d0.toNat 24 13 ≠ 0) || decide (bits x.d1.toNat 31 25 ≠ 0) ||
      len = 0 || decide (2 ^ 24 < len) || decide (bits x.d3.toNat 31 24 ≠ 0) || decide (bits x.d6.toNat 31 12 ≠ 0) ||
      decide (4080 < bits x.d6.toNat 11 0) || (decide (mode = 1) && decide (bits x.d6.toNat 11 0 ≠ 0)) ||
      (dn && !(op = 1 && mode = 2)) || decide (x.d7 = 0) then 0x10
  else
    let k := d.keySlot slot
    if !(isFwSlot slot || slot = rootSlot) || k.state != .loaded || (decide (slot ≠ rootSlot) && decide (k.mode ≠ mode)) then 3
    else if dn && !d.ciph.epochSet then 4
    else 0

/-- LANE_SECTOR_START: lane `n` takes its next item and latches the key. A sector whose slot is not loaded, or a read sector of
another generation, is not processed (R296, R301). -/
def laneStart (n : Nat) (d : Dev) : Except String Dev :=
  if !d.is Fd.CIPH_CTL_EN || !d.laneOk n || (d.lane n).busy.isSome then .error "cipher lane"
  else match d.laneChoice n with
    | none => .error "cipher lane"
    | some (tier, i) =>
      let writes := !d.ciph.writeQ.isEmpty
      let d := (d.modCiph (·.drop i)).modLane n fun l => { l with run := runAfter tier l.run writes }
      let slot := d.itemSlot i
      let x := d.keySlot slot
      let start (st : Nat) : Dev := d.modLane n fun l =>
        { l with busy := some i, slot := slot, key := x.key, mode := x.mode, gen := x.gen, status := st }
      match i.work with
      | .read k _ s =>
        if x.state == .loaded && decide (mdKeygen s.md = x.gen) then .ok (start 0)
        else .ok (readLost k stDenied (d.wr Fd.CIPH_EVT_DENIED 1))
      | .write k _ _ =>
        if x.state == .loaded then .ok (start 0) else .ok (denyWrite k (d.wr Fd.CIPH_EVT_DENIED 1))
      | .job w _ => .ok (start (d.jobStatus w))

def execLaneSectorStart (lane : Fin 48) (cyc : BitVec 10) (s : State) : Host.Outcome State Fault Refusal :=
  onDev s fun d => laneStart lane (d.atCycle cyc)

/-! ### The end of a sector (R288, R296, R297, R301) -/

/-- A purging slot becomes EMPTY when no lane works under it any more (R301). -/
def purgeEnd (slot : Nat) (d : Dev) : Dev :=
  let x := d.keySlot slot
  if x.state == .purging && !((List.range 48).any fun n => (d.lane n).busy.isSome && decide ((d.lane n).slot = slot)) then
    (d.setKey slot { x with state := .empty }).wr Fd.CIPH_EVT_KEY_DONE 1
  else d

/-- A failed tag of sector `idx` of a read (R297, Table 10-2). -/
def tagFailed (k idx slot : Nat) (d : Dev) : Dev :=
  let isVerify := match d.slot? k with | some x => decide (x.sqe.op = 0x0C) | none => false
  let flagged := decide (d.rdb slot Fd.CIPH_SLOT_AUTH_FLAG = 1)
  let d := d.wr Fd.CIPH_EVT_AUTH 1
  let flagged := flagged && !isVerify
  let d := if flagged then d.add Fd.CIPH_CNT_AUTH_FLAGGED 1 else d.add Fd.CIPH_CNT_AUTH_FAILED 1
  let sc := if flagged then 0xC6 else 0xC5
  d.modSlot k fun x => { x with bad := match x.bad with
    | some b =>
      if b.isAuth then
        some { b with dw0 := BitVec.ofNat 32 ((bits b.dw0.toNat 31 16 + 1) * 65536 + min idx (bits b.dw0.toNat 15 0)) }
      else some b
    | none => some { stVendor sc with dw0 := BitVec.ofNat 32 (65536 + idx) } }

/-- A read sector leaves the lane: to the host, unless it is a Verify or its plaintext is withheld. -/
def readLaneEnd (k idx : Nat) (s : Sector) (l : Lane) (d : Dev) : Dev :=
  match d.slot? k with
  | none => d
  | some x =>
    let (p, ok) := decryptSector l.key l.mode s
    let d := if ok then d else tagFailed k idx l.slot d
    let give := decide (x.sqe.op ≠ 0x0C) && (ok || decide (d.rdb l.slot Fd.CIPH_SLOT_AUTH_FLAG = 1))
    let d := if give then d.send (.hostSector x.fn k idx p) else d
    readEnd k d

/-- A write sector leaves the lane into its cells. -/
def writeLaneEnd (k idx : Nat) (data : Payload) (l : Lane) (d : Dev) : Dev :=
  match d.slot? k with
  | none => d
  | some x =>
    let (nonce, d) := if l.mode = 2 then d.takeNonce else (0, d)
    let s := encryptSector l.key l.mode l.gen nonce { data := data, md := writeMd x.sqe.nsid.toNat (x.start + idx) d.strk.count }
    (d.modPool fun p => p.putSector x.chain idx s).modSlot k fun x => { x with arrived := listAdd x.arrived idx }

/-- LANE_SECTOR_DONE. -/
def laneDone (n : Nat) (d : Dev) : Except String Dev :=
  let l := d.lane n
  match l.busy with
  | some i =>
    let d := (d.modLane n fun l => { l with busy := none }).idleFrom (laneChecker + n)
    (match i.work with
      | .read k idx s => .ok (purgeEnd l.slot (readLaneEnd k idx s l d))
      | .write k idx p => .ok (purgeEnd l.slot (writeLaneEnd k idx p l d))
      | .job _ _ => .error "cipher sector")
  | none => .error "cipher sector"

def execLaneSectorDone (lane : Fin 48) (cyc : BitVec 10) (s : State) : Host.Outcome State Fault Refusal :=
  onDev s fun d => laneDone lane (d.atCycle cyc)

/-! ### Jobs (R304 to R306) -/

/-- A post by a graver. -/
def cipherPost (g : Nat) (x : Desc) (d : Dev) : Dev :=
  if d.ciph.jobQ.length < 256 then
    (d.modCiph fun c => { c with
      jobQ := c.jobQ ++ [{ work := .job x g, ch := 0, owned := false, since := d.now, order := c.seq }], seq := c.seq + 1 }).wrb g
        Fd.CIPH_JOB_STAT_RESULT 1
  else d.wrb g Fd.CIPH_JOB_STAT_RESULT 2

def execCipherJobEncrypt (g : Fin 64) (job : Desc) (s : State) : Host.Outcome State Fault Refusal :=
  onDev s (always (cipherPost g { job with d0 := BitVec.ofNat 32 (setBits job.d0.toNat 31 28 1) }))
def execCipherJobDecrypt (g : Fin 64) (job : Desc) (s : State) : Host.Outcome State Fault Refusal :=
  onDev s (always (cipherPost g { job with d0 := BitVec.ofNat 32 (setBits job.d0.toNat 31 28 2) }))

/-- What a runnable job does: its status, the bytes it wrote, and memory after it (R305). -/
def runJob (x : Desc) (key : BitVec 512) (s : State) : Nat × Nat × State :=
  let enc := decide (bits x.d0.toNat 31 28 = 1)
  let len := bits x.d1.toNat 24 0
  let src := x.d2.toNat + bits x.d3.toNat 7 0 * 2 ^ 32
  let dst := x.d4.toNat + bits x.d3.toNat 15 8 * 2 ^ 32
  let aux := x.d5.toNat + bits x.d3.toNat 23 16 * 2 ^ 32
  if bits x.d0.toNat 27 26 = 1 then
    let tweak := leNat (s.readBytes 16 aux)
    if 16 ≤ len then
      let v := leNat (s.readBytes len src)
      (0, len, s.writeBytes dst (leBytes len (if enc then Config.xtsEnc key tweak len v else Config.xtsDec key tweak len v)))
    else if enc then
      (0, 16, s.writeBytes dst (leBytes 16 (Config.xtsEnc key tweak 16 (leNat (s.readBytes len src)))))
    else
      let v := Config.xtsDec key tweak 16 (leNat (s.readBytes 16 src)) % 2 ^ 128
      if v < 2 ^ (8 * len) then (0, len, s.writeBytes dst (leBytes len v)) else (2, 0, s)
  else
    let aad := s.readBytes (bits x.d6.toNat 11 0) (aux + 16)
    if enc then
      let (iv, s) :=
        if bit x.d0.toNat 25 then
          let (n, d) := s.dev.takeNonce
          (n, ({ s with dev := d }).writeBytes aux (leBytes 12 n))
        else (leNat (s.readBytes 12 aux), s)
      let ct := Config.gcmText key iv len (leNat (s.readBytes len src)) % 2 ^ (8 * len)
      (0, len + 16, s.writeBytes dst (leBytes len ct ++ leBytes 16 (Config.gcmTag key iv aad len ct).toNat))
    else
      let iv := leNat (s.readBytes 12 aux)
      let ct := leNat (s.readBytes len src)
      let tag := leNat (s.readBytes 16 (src + len))
      if tag = (Config.gcmTag key iv aad len ct).toNat then (0, len, s.writeBytes dst (leBytes len (Config.gcmText key iv len ct)))
      else (1, 0, s.writeBytes dst (List.replicate len 0))

/-- CIPHER_JOB_DONE: the job of a lane ends with one completion entry. -/
def cipherJobDone (n : Nat) (s : State) : Except String State :=
  let l := s.dev.lane n
  match l.busy with
  | some i =>
    (match i.work with
      | .job x _ =>
        let s := s.modDev fun d => (d.modLane n fun l => { l with busy := none }).idleFrom (laneChecker + n)
        let (st, bytes, s) := if l.status = 0 then runJob x l.key s else (l.status, 0, s)
        let entry : List Word := [BitVec.ofNat 32 (st * 2 ^ 24), x.d7, BitVec.ofNat 32 bytes, 0]
        .ok (drainCiph (s.modDev fun d => purgeEnd l.slot (d.modCiph fun c => { c with jcq := c.jcq ++ [entry] })))
      | _ => .error "cipher job")
  | none => .error "cipher job"

def execCipherJobDone (lane : Fin 48) (s : State) : Host.Outcome State Fault Refusal :=
  match cipherJobDone lane s with
  | .ok s => .next s
  | .error e => noEvent e s

/-! ### Key commands (R299 to R302, Table 10-11) -/

/-- The bytes of a key wrapped under another (Table 10-4). -/
def wrapKey (wrapper : BitVec 512) (mode gen bind nonce : Nat) (key : BitVec 512) : List Byte :=
  let aad := leBytes 2 1 ++ leBytes 1 mode ++ leBytes 1 0 ++ leBytes 4 gen ++ leBytes 4 bind
  let pt := if mode = 2 then key.toNat % 2 ^ 256 else key.toNat
  let ct := Config.gcmText wrapper nonce 64 pt % 2 ^ 512
  aad ++ leBytes 12 nonce ++ leBytes 64 ct ++ leBytes 16 (Config.gcmTag wrapper nonce aad 64 ct).toNat ++ List.replicate 24 0

/-- What a blob binds to. -/
def keyBind (slot : Nat) : Nat := if isNsSlot slot then slot + 1 else slot

/-- The address of the key buffer. -/
def Dev.keyAddr (d : Dev) : Nat := d.base Rg.CIPH_KEY_ADDR_LO Rg.CIPH_KEY_ADDR_HI 0

/-- A key command ends with a result. -/
def keyDone (r : Nat) (d : Dev) : Dev := (d.wr Fd.CIPH_KEY_STAT_RESULT r).wr Fd.CIPH_EVT_KEY_DONE 1

/-- The RW fields of KEY_CMD. -/
def keyCmdFields (v op : Nat) (d : Dev) : Dev :=
  let d := d.wr Fd.CIPH_KEY_CMD_MODE (bits v 7 6)
  let d := if bits v 5 4 = 3 then d else d.wr Fd.CIPH_KEY_CMD_WRAP (bits v 5 4)
  d.wr Fd.CIPH_KEY_CMD_OP op

/-- Writes the ROOT-wrapped blob of a slot's key. -/
def putBlob (slot addr : Nat) (s : State) : State :=
  let x := s.dev.keySlot slot
  let (nonce, d) := s.dev.takeNonce
  ({ s with dev := d }).writeBytes addr (wrapKey Config.rootKey x.mode x.gen (keyBind slot) nonce x.key)

/-- GENERATE: a fresh key, one generation on, its blob at the buffer. -/
def keyGenerateIn (slot mode addr : Nat) (s : State) : State :=
  let x := s.dev.keySlot slot
  let key := Config.random s.dev.nfree
  putBlob slot addr (s.modDev fun d =>
    (d.tick 1).setKey slot { state := .loaded, mode := mode, gen := (x.gen + 1) % 2 ^ 32, key := key })

def keyGenerate (v : Nat) (s : State) : State :=
  let slot := s.dev.rd Fd.CIPH_SLOT_SEL_SLOT
  let s := s.modDev (keyCmdFields v 1)
  let mode := s.dev.rd Fd.CIPH_KEY_CMD_MODE
  if !(isNsSlot slot || isFwSlot slot) || !(mode = 1 || mode = 2) then s.modDev (keyDone 3)
  else if (s.dev.keySlot slot).state != .empty then s.modDev (keyDone 5)
  else (keyGenerateIn slot mode s.dev.keyAddr s).modDev (keyDone 0)

/-- The key that a wrapped blob gives a slot, or the result that refuses it: tag, then binding (R300, Table 10-4). -/
def blobKey (slot : Nat) (wrapper : BitVec 512) (b : List Byte) : Except Nat KeySlot :=
  let f (off len : Nat) : Nat := leNat ((b.drop off).take len)
  let nonce := f 12 12
  let mode := f 2 1
  if f 88 16 ≠ (Config.gcmTag wrapper nonce (b.take 12) 64 (f 24 64)).toNat then .error 1
  else if f 8 4 ≠ keyBind slot || !(mode = 1 || mode = 2) then .error 2
  else .ok { state := .loaded, mode := mode, gen := f 4 4, key := BitVec.ofNat 512 (Config.gcmText wrapper nonce 64 (f 24 64)) }

/-- A wrapped LOAD. -/
def loadResult (slot : Nat) (again : Bool) (r : Except Nat KeySlot) (s : State) : State :=
  match r with
  | .error r => s.modDev (keyDone r)
  | .ok k =>
    let s := s.modDev fun d => d.setKey slot k
    let s := if again then putBlob slot (s.dev.keyAddr + 128) s else s
    s.modDev (keyDone 0)

/-- A load of a wrapped key from its 128-byte blob. -/
def loadWrapped (slot : Nat) (wrapper : BitVec 512) (again : Bool) (s : State) : State :=
  loadResult slot again (blobKey slot wrapper (s.readBytes 128 s.dev.keyAddr)) s

/-- A plaintext load: 64 bytes of two XTS keys, or 32 bytes of a GCM key, and the wrapped blob back (R299). -/
def loadPlain (slot : Nat) (s : State) : State :=
  let a := s.dev.keyAddr
  let mode := if s.dev.rd Fd.CIPH_KEY_CMD_MODE = 1 then 1 else 2
  let gen := ((s.dev.keySlot slot).gen + 1) % 2 ^ 32
  let key := BitVec.ofNat 512 (leNat (s.readBytes (if mode = 1 then 64 else 32) a))
  (putBlob slot (a + 128) (s.modDev fun d =>
    d.setKey slot { state := .loaded, mode := mode, gen := gen, key := key })).modDev (keyDone 0)

def keyLoad (v : Nat) (s : State) : State :=
  let slot := s.dev.rd Fd.CIPH_SLOT_SEL_SLOT
  let s := s.modDev (keyCmdFields v 2)
  let wrap := s.dev.rd Fd.CIPH_KEY_CMD_WRAP
  let allowed := if wrap = 2 then isFwSlot slot || slot = importSlot else isNsSlot slot || isFwSlot slot
  if !allowed then s.modDev (keyDone 3)
  else if (s.dev.keySlot slot).state != .empty then s.modDev (keyDone 5)
  else if wrap = 0 then loadWrapped slot Config.rootKey false s
  else if wrap = 1 then
    if (s.dev.keySlot importSlot).state == .loaded then loadWrapped slot (s.dev.keySlot importSlot).key true s
    else s.modDev (keyDone 4)
  else loadPlain slot s

/-- PURGE of a slot: its key is gone at once; the slot is EMPTY once the sectors in progress under it have ended. -/
def purgeSlot (slot : Nat) (d : Dev) : Dev :=
  let x := d.keySlot slot
  purgeEnd slot (d.setKey slot { x with state := .purging, key := 0 })

def keyPurge (v : Nat) (d : Dev) : Dev :=
  let slot := d.rd Fd.CIPH_SLOT_SEL_SLOT
  let d := keyCmdFields v 3 d
  if slot = rootSlot then keyDone 3 d else purgeSlot slot (d.wr Fd.CIPH_KEY_STAT_RESULT 0)

/-- RSV bits of KEY_CMD. -/
def keyCmdRsv (v : Nat) : Bool := decide (bits v 30 8 ≠ 0)

def execKeyGenerate (v : Word) (s : State) : Host.Outcome State Fault Refusal :=
  .next (orRsvWide (keyCmdRsv v.toNat) (keyGenerate v.toNat) s)
def execKeyLoad (v : Word) (s : State) : Host.Outcome State Fault Refusal :=
  .next (orRsvWide (keyCmdRsv v.toNat) (keyLoad v.toNat) s)
def execKeyCmdPurge (v : Word) (s : State) : Host.Outcome State Fault Refusal :=
  onDev s (orRsv (keyCmdRsv v.toNat) (keyPurge v.toNat))

end Sys2Proof.Machine
end

