-- ==== Sys2Proof/Machine/Follower.lean ====
section
/-! DEFINITION. What a follower does with the requests it has received (R461, R463, R464). -/

namespace Sys2Proof.Machine

/-- The tag that a follower derives from a request's ID (R461): one of the host read path's, never zero. -/
def farTag (id : Nat) : Nat := id % 0xDFFFFFFF + 1

/-- The descriptor of a request, under its tag. -/
def farDesc (id : Nat) (x : Desc) : Desc := { x with d6 := BitVec.ofNat 32 (farTag id) }

/-- A request can begin: its die has room for one more descriptor, or the pool has the cells. -/
def Dev.jobFits (d : Dev) (j : DlkJob) : Bool :=
  match j.ask with
  | .media ch x => decide ((d.die ch (farDesc j.id x).target).queued < 32)
  | .cells _ xs => d.pool.ready && decide (4 * xs.length ≤ d.pool.free)
  | _ => true

/-- The sectors of a request go into cells of the tenant that writes them; the master alone keeps to floors and caps (R463). -/
def takeSectors (pos id tenant : Nat) (xs : List Sector) (d : Dev) : Dev :=
  let (h, d) := if xs.isEmpty then (endOfChain, d) else grantCells (some tenant) (4 * xs.length) d
  let d := d.modPool fun p => xs.zipIdx.foldl (fun p x => p.putSector h x.2 x.1) p
  respondDlk pos id vcMedia (Config.encode 0x1733 [id, h]) d

/-- A request begins. -/
def beginJob (j : DlkJob) (d : Dev) : Dev :=
  match j.ask with
  | .media ch x =>
    let d := d.modDlk fun y => { y with posted := { tag := farTag j.id, pos := j.pos, id := j.id, told := false } :: y.posted.take 4095 }
    takeDesc ch { desc := farDesc j.id x } false d
  | .cells t xs => takeSectors j.pos j.id t.toNat xs d
  | _ => d

/-- Requests begin in the order in which they came (R464). -/
def drainJobs : Nat → Dev → Dev
  | 0, d => d
  | n + 1, d =>
    match d.dlk.jobs with
    | j :: rest => if d.jobFits j then drainJobs n (beginJob j (d.modDlk fun x => { x with jobs := rest })) else d
    | [] => d

/-- Every request that may begin now; none while the master is lost (R468). -/
def beginJobs (d : Dev) : Dev := if d.dlk.masterLost then d else drainJobs d.dlk.jobs.length d

end Sys2Proof.Machine
end

