-- ==== Sys2Proof/Machine/Dram.lean ====
section
/-! DEFINITION. The DRAM controller (R310 to R327, R337) and the loss of a word of memory (R275). -/

namespace Sys2Proof.Machine

def Dev.modDram (d : Dev) (f : Dram → Dram) : Dev := { d with dram := f d.dram }

/-! ### Address mapping (R315, R316) -/

/-- The XOR of the low `n` bits. -/
def parityOf : Nat → Nat → Nat
  | 0, _ => 0
  | n + 1, v => (v % 2 + parityOf n (v / 2)) % 2

/-- The line of a byte address. -/
def dramLine (a : Nat) : Nat := (a - dramBase) / 64

/-- The hash masks as their registers read. -/
def Dev.hashP (d : Dev) (i : Nat) : Nat := d.regGet (if i = 0 then Rg.DMC_HASH_P0 else Rg.DMC_HASH_P1) 0 0
def Dev.hashB (d : Dev) (i : Nat) : Nat :=
  d.regGet (match i with | 0 => Rg.DMC_HASH_B0 | 1 => Rg.DMC_HASH_B1 | 2 => Rg.DMC_HASH_B2 | _ => Rg.DMC_HASH_B3) 0 0

/-- The mirror pair of a line. -/
def Dev.dramPair (d : Dev) (l : Nat) : Nat := (l % 4) ^^^ (parityOf 30 (l &&& d.hashP 1) * 2 + parityOf 30 (l &&& d.hashP 0))

/-- Column of a line within its row. -/
def dramColumn (l : Nat) : Nat := l / 4 % 32

/-- Bank of a line. -/
def Dev.dramBank (d : Dev) (l : Nat) : Nat :=
  let m := l / 4
  let b (i : Nat) : Nat := parityOf 28 (m &&& d.hashB i)
  (m / 32 % 16) ^^^ (b 0 + 2 * b 1 + 4 * b 2 + 8 * b 3)

/-- Rank and row of a line. -/
def Dev.dramRow (d : Dev) (l : Nat) : Nat × Nat := (l / 4 / 512 / d.dram.drows, l / 4 / 512 % d.dram.drows)

/-- Bank of a rank as one number. -/
def Dev.rankBank (d : Dev) (l : Nat) : Nat := (d.dramRow l).1 * 16 + d.dramBank l

/-- The ECC of a line, in the same rank and bank (Table 11-2): its ECC row, the ECC line of that row, and the first of its two bytes. -/
def Dev.eccPlace (d : Dev) (l : Nat) : Nat × Nat × Nat :=
  let row := (d.dramRow l).2
  (d.dram.drows + row / 32, row % 32, 2 * dramColumn l)

/-! ### Lost words (R275, Table 9-8) -/

/-- The cells of a sector that begins at `f`. -/
def Pool.four (p : Pool) (f : Nat) : List Nat := [f, p.follow 1 f, p.follow 2 f, p.follow 3 f]

/-- The unit of a zone sector is already programmed. -/
def Dev.programmed (d : Dev) (z : Zone) (s : Nat) : Bool :=
  match z.row with
  | some (g, r) => (mapFind d.media (d.sectorKey g r s)).isSome
  | none => false

/-- Staged sectors of a zone lost with a cell: cause 0x01 (R97). -/
def loseStaged (zk s f : Nat) (res : Bool) (d : Dev) : Dev :=
  let nsid := zk / 2 ^ 20
  let z := zk % 2 ^ 20
  let owner := match d.ns? nsid with | some ns => ns.owner | none => 0
  if d.programmed (d.zone nsid z) s then d
  else
    let d := dropStage owner 1 res (freeSectorCells f d)
    let d := d.modZone nsid z fun x => { x with staged := mapErase x.staged s, lost := listAdd x.lost (s, 1) }
    markZone nsid z 0 (deferredError nsid (zoneStart z + s) 1 1 d)

/-- A sector of a conventional namespace lost with a cell. -/
def loseConv (k f : Nat) (res : Bool) (d : Dev) : Dev :=
  let nsid := k / 2 ^ 40
  let owner := match d.ns? nsid with | some ns => ns.owner | none => 0
  let d := dropStage owner 1 res (freeSectorCells f d)
  deferredError nsid (k % 2 ^ 40) 1 1 (d.modZm fun m => { m with conv := mapInsert m.conv k .lost })

/-- A cell holds an uncorrectable word: it is not used again, and what stands only in it is lost. -/
def cellLost (h : Nat) (d : Dev) : Dev :=
  let d := d.modPool fun p => { p with spoilt := listAdd p.spoilt h }
  let d := d.zm.zones.foldl (fun (d : Dev) e =>
    e.2.staged.foldl (fun (d : Dev) x => if x.2.1 ≠ endOfChain && h ∈ d.pool.four x.2.1 then loseStaged e.1 x.1 x.2.1 x.2.2 d else d) d) d
  d.zm.conv.foldl (fun (d : Dev) e =>
    match e.2 with
    | .cells f res => if h ∈ d.pool.four f then loseConv e.1 f res d else d
    | _ => d) d

/-- The bytes of an accumulator. -/
def accBytes : Nat := 524288

/-- An uncorrectable word at a DRAM or shared-SRAM address. -/
def wordLost (a : Nat) (d : Dev) : Dev :=
  let acc := d.base Rg.PAR_ACC_BASE_LO Rg.PAR_ACC_BASE_HI 0
  match d.place a with
  | .cellData h _ | .cellLink h _ | .cellMd h _ => cellLost h d
  | .mem _ =>
    if acc ≤ a && a < acc + 2304 * accBytes then
      d.modPar fun p => { p with accs := match mapFind p.accs ((a - acc) / accBytes) with
        | some x => mapInsert p.accs ((a - acc) / accBytes) { x with bad := true }
        | none => p.accs }
    else d

/-! ### Training and initialisation (R313) -/

/-- A write of DMC.CTL: the RW fields, then TRAIN. -/
def dmcCtlWrite (v : Nat) (d : Dev) : Dev :=
  let d := (d.wr Fd.DMC_CTL_PATROL_EN (bits v 2 2)).wr Fd.DMC_CTL_EN (bits v 0 0)
  if bit v 1 then
    if d.is Fd.DMC_CTL_EN then d.wr Fd.DMC_EVT_CFG_IGN 1 else d.modDram fun x => { x with training := true }
  else d

def execDramTrain (v : Word) (s : State) : Host.Outcome State Fault Refusal :=
  onDev s (orRsv (decide (bits v.toNat 31 3 ≠ 0)) (dmcCtlWrite (setBits v.toNat 1 1 1)))

/-- Moves the queued reads of a retired sub-channel to its partner and drops its writes (R321). -/
def retireSub (s : Nat) (d : Dev) : Dev :=
  let p := (s + 4) % 8
  (d.modDram fun x => { x with
    retired := setBits x.retired s s 1
    readQ := mapErase (mapSet [] x.readQ p (mapGet [] x.readQ p ++ mapGet [] x.readQ s)) s
    writeQ := mapErase x.writeQ s }).wr Fd.DMC_EVT_RETIRED 1

/-- Thrumlux halves the credits of ports 2, 3 and 4 when a sub-channel is retired (Table 16-5). -/
def halveCredits (d : Dev) : Dev :=
  [2, 3, 4].foldl (fun (d : Dev) p => d.wrb p Fd.DMC_PORT_CFG_CREDIT (d.rdb p Fd.DMC_PORT_CFG_CREDIT / 2)) d

/-- Retires the sub-channels of a mask, unless that would take both of a pair. -/
def retireMask (m : Nat) (d : Dev) : Dev :=
  let all := d.dram.retired ||| m % 256
  if all % 16 &&& all / 16 ≠ 0 then d.wr Fd.DMC_EVT_CFG_IGN 1
  else
    let d := forUpTo 8 (fun s d => if bit m s && !bit d.dram.retired s then halveCredits (retireSub s d) else d) d
    if all = 0 then d else faultOn 3 d

def execSubchannelRetire (v : Word) (s : State) : Host.Outcome State Fault Refusal :=
  onDev s (orRsv (decide (bits v.toNat 31 8 ≠ 0)) (retireMask v.toNat))

/-- The result of checker `i`. -/
def Dev.setCheck (d : Dev) (i : Nat) (step : Option Nat) : Dev :=
  d.modEcc fun x => { x with checks := mapInsert x.checks i { done := true, pass := step.isNone, step := step.getD 0 } }

/-- DRAM_TRAINED: what was found, the capacity (R312), and the sub-channels that failed, retired before initialisation. At a start, and
after PS4, the firmware that asked for the training sets EN next (R313). -/
def dramTrained (t : DramTraining) (d : Dev) : Dev :=
  let d := d.modDram fun x => { x with
    training := false, trained := true, present := t.present.toNat, density := t.density, ranks := t.ranks
    drows := t.density * 3968, mib := t.ranks * t.density * 1024 * 31 / 64, raaimt := t.raaimt }
  let d := t.failed.foldl (fun d f => retireMask (2 ^ f.sub.toNat) d) (d.wr Fd.DMC_EVT_TRAIN_DONE 1)
  let d := d.flagIf (d.startingUp || d.pwr.restoring) Fd.DMC_CTL_EN
  d.setCheck 64 ((t.failed.find? fun f => decide (f.step.toNat ≠ 0)).map (·.step.toNat))

def execDramTrained (obs : DramTraining) (s : State) : Host.Outcome State Fault Refusal :=
  onDev s fun d => onlyIf d.dram.training "DRAM training" (dramTrained obs) d

/-- DRAM_INIT_DONE: every line reads as zeros. -/
def dramInit (s : State) : State :=
  { s with
    mem := s.mem.filter (fun e => decide (e.1 < dramBase) || decide (2 ^ 40 ≤ e.1))
    dev := { s.dev with
      dram := { s.dev.dram with initDone := true, lapStart := s.dev.sheet, patrol := 0 }
      pool := { s.dev.pool with cells := s.dev.pool.cells.filter (fun e => decide (e.1 < firstDramHandle)) } } }

def execDramInitDone (s : State) : Host.Outcome State Fault Refusal :=
  if s.dev.dram.trained && s.dev.is Fd.DMC_CTL_EN && !s.dev.dram.initDone then .next (dramInit s)
  else noEvent "DRAM initialisation" s

/-! ### Ports and queues (R322 to R326) -/

/-- A regulator port; before its first stroke boundary it has the credit of its reset value. -/
def Dev.dport (d : Dev) (p : Nat) : DramPort :=
  (mapFind d.dram.ports p).getD { credit := portCfgReset p % 65536, charged := 0, last := 0, spill := true, waited := false }
def Dev.modDport (d : Dev) (p : Nat) (f : DramPort → DramPort) : Dev :=
  let x := f (d.dport p)
  d.modDram fun y => { y with ports := mapInsert y.ports p x }

def Dev.readQ (d : Dev) (s : Nat) : List DramReq := mapGet [] d.dram.readQ s
def Dev.writeQ (d : Dev) (s : Nat) : List DramReq := mapGet [] d.dram.writeQ s
def Dev.subOk (d : Dev) (s : Nat) : Bool := !bit d.dram.retired s

/-- Lines of credit that a request costs (R325). -/
def DramReq.cost (r : DramReq) : Nat := if r.write && !r.whole then 2 else 1

/-- The sub-channels of a request's pair that are in use. -/
def Dev.subsOf (d : Dev) (r : DramReq) : List Nat :=
  let p := d.dramPair (dramLine r.addr)
  [p, p + 4].filter d.subOk

/-- The sub-channel that serves a read: the shorter read queue, the pair's own number on a tie (R318). -/
def Dev.readSub (d : Dev) (r : DramReq) : Option Nat :=
  match d.subsOf r with
  | [a, b] => some (if (d.readQ b).length < (d.readQ a).length then b else a)
  | [a] => some a
  | _ => none

/-- A write of the same line is queued (R323). -/
def Dev.lineQueued (d : Dev) (s : Nat) (r : DramReq) : Bool :=
  (d.writeQ s).any fun w => decide (dramLine w.addr = dramLine r.addr)

/-- The sub-channels that a request enters: none for a read that is forwarded from a queued write. -/
def Dev.enters (d : Dev) (r : DramReq) : List Nat :=
  if r.write then (d.subsOf r).filter fun s => !d.lineQueued s r
  else if (d.subsOf r).any fun s => d.lineQueued s r then []
  else (d.readSub r).toList

/-- The queues have room. -/
def Dev.queueRoom (d : Dev) (r : DramReq) : Bool :=
  (d.enters r).all fun s => decide (((if r.write then d.writeQ s else d.readQ s)).length < 64)

/-- The row a request needs in a sub-channel is not open. -/
def Dev.activates (d : Dev) (s : Nat) (r : DramReq) : Bool :=
  let l := dramLine r.addr
  mapFind d.dram.openRow (s * 64 + d.rankBank l) != some (d.dramRow l).2

/-- A throttle holds the access of a queued request to a sub-channel in this stroke (R327). -/
def Dev.throttled (d : Dev) (s : Nat) (r : DramReq) : Bool :=
  let b := d.rankBank (dramLine r.addr)
  d.activates s r &&
    d.dram.throttles.any (fun t => decide (t.port = r.port) && decide (t.sub = s) && decide (t.bank = b) && decide (0 < t.left)) &&
    decide (d.rd Fd.DMC_RH_CFG_ACT_LIM ≤
      ((d.dram.acts.filter fun a => decide (a.port = r.port) && decide (a.sub = s) && decide (a.bank = b) &&
        decide (a.stroke = d.strk.count)).map (·.count)).sum)

/-- Strokes in 32 ms. -/
def hammerStrokes : Nat := 3907

/-- One more activate of a row by a port. -/
def addAct (a : Activates) : List Activates → List Activates
  | [] => [a]
  | x :: xs =>
    if x.sub = a.sub && x.bank = a.bank && x.row = a.row && x.port = a.port && x.stroke = a.stroke then
      { x with count := x.count + 1 } :: xs
    else x :: addAct a xs

/-- The port with the most activates of a list. -/
def heaviest (l : List Activates) : Nat :=
  let sum (p : Nat) : Nat := ((l.filter fun a => decide (a.port = p)).map (·.count)).sum
  (List.range 8).foldl (fun b p => if sum b < sum p then p else b) 0

/-- The rolling activate count of a bank: it is an RFM that the devices require, once RAAIMT activates have come (R327). -/
def rollCount (s bank : Nat) (d : Dev) : Dev :=
  let n := mapGet 0 d.dram.raa (s * 64 + bank) + 1
  if 0 < d.dram.raaimt && d.dram.raaimt ≤ n then
    (d.modDram fun x => { x with raa := mapSet 0 x.raa (s * 64 + bank) (n - d.dram.raaimt) }).add Fd.DMC_RH_CNT_RFM 1
  else d.modDram fun x => { x with raa := mapSet 0 x.raa (s * 64 + bank) n }

/-- Opens a row of a bank for a port, unless it is open. The activate is counted; a row over the threshold gets RFM and its heaviest port is
limited (R327). -/
def activate (s bank row port : Nat) (d : Dev) : Dev :=
  if mapFind d.dram.openRow (s * 64 + bank) = some row then d
  else
    let d := rollCount s bank (d.modDram fun x => { x with
      openRow := mapInsert x.openRow (s * 64 + bank) row
      acts := addAct { sub := s, bank := bank, row := row, port := port, stroke := d.strk.count, count := 1 } x.acts })
    let mine := d.dram.acts.filter fun a => decide (a.sub = s) && decide (a.bank = bank) && decide (a.row = row) &&
      decide (d.strk.count < a.stroke + hammerStrokes)
    if d.rd Fd.DMC_RH_CFG_THRESH < (mine.map (·.count)).sum then
      let d := d.modDram fun x => { x with
        acts := x.acts.filter fun a => !(decide (a.sub = s) && decide (a.bank = bank) && decide (a.row = row))
        throttles := x.throttles ++ [{ port := heaviest mine, sub := s, bank := bank, left := d.rd Fd.DMC_RH_CFG_HOLD }] }
      ((d.add Fd.DMC_RH_CNT_RFM 1).add Fd.DMC_RH_CNT_THROTTLES 1).wr Fd.DMC_EVT_THROTTLE 1
    else d

/-- The ECC lines that a sub-channel's cache holds. -/
def eccCacheLines : Nat := 256

/-- A queued request is issued (R322): where its ECC line is not in the cache, that line is read first, in the same bank (R317). -/
def issueDram (s : Nat) (r : DramReq) (d : Dev) : Dev :=
  let l := dramLine r.addr
  let bank := d.rankBank l
  let row := (d.dramRow l).2
  let key := bank * 2 ^ 32 + row
  let lines := mapGet [] d.dram.eccLines s
  let d := if key ∈ lines then d else activate s bank (d.eccPlace l).1 r.port d
  activate s bank row r.port (d.modDram fun x => { x with
    eccLines := mapSet [] x.eccLines s ((key :: lines.filter (· ≠ key)).take eccCacheLines) })

/-- The request of a queue that goes next: of those that no throttle holds the oldest to an open row, else the oldest (R322). -/
def Dev.pickDram (d : Dev) (s : Nat) (q : List DramReq) : Option DramReq :=
  let q := q.filter fun r => !d.throttled s r
  match q.find? fun r => !d.activates s r with
  | some r => some r
  | none => q.head?

/-- The write of a sub-channel that goes next: one that has waited `age` strokes first, then any while more than `lo` wait (R322). A write waits
for the queued reads of its line (R323). -/
def Dev.dramWrite (d : Dev) (s age lo : Nat) : Option DramReq :=
  let q := d.writeQ s
  let free := q.filter fun r => !(d.readQ s).any fun x => decide (dramLine x.addr = dramLine r.addr)
  match d.pickDram s (free.filter fun r => decide (r.since + age ≤ d.strk.count)) with
  | some r => some r
  | none => if lo < q.length then d.pickDram s free else none

/-- Issues writes of a sub-channel. -/
def issueWrites (s age lo : Nat) : Nat → Dev → Dev
  | 0, d => d
  | n + 1, d =>
    match d.dramWrite s age lo with
    | some r =>
      issueWrites s age lo n (issueDram s r (d.modDram fun x => { x with 
        writeQ := mapSet [] x.writeQ s (listEraseFirst (fun y => y == r) (mapGet [] x.writeQ s)) }))
    | none => d

/-- Writes leave a queue until it holds LO entries, once it holds HI (R322). -/
def drainWrites (s : Nat) (d : Dev) : Dev :=
  let q := d.writeQ s
  if d.rd Fd.DMC_WM_HI ≤ q.length then issueWrites s (d.rd Fd.DMC_WM_AGE) (d.rd Fd.DMC_WM_LO) q.length d else d

/-- A request enters its queues. -/
def enqueue (r : DramReq) (d : Dev) : Dev :=
  (d.enters r).foldl (fun (d : Dev) s =>
    if r.write then drainWrites s (d.modDram fun x => { x with writeQ := mapSet [] x.writeQ s (mapGet [] x.writeQ s ++ [r]) })
    else d.modDram fun x => { x with readQ := mapSet [] x.readQ s (mapGet [] x.readQ s ++ [r]) }) d

/-- The request could enter now, leaving credit aside. -/
def Dev.mayEnter (d : Dev) (r : DramReq) : Bool := d.queueRoom r && !(d.subsOf r).isEmpty

/-- The port holds enough credit for the request. -/
def Dev.credited (d : Dev) (r : DramReq) : Bool := decide (r.cost ≤ (d.dport r.port).credit)

/-! ### Patrol (R320) -/

/-- Line copies of a patrol lap. -/
def Dev.patrolTotal (d : Dev) : Nat := 2 * d.dram.mib * 16384

/-- A patrol read is due: the next line copy, no sooner than an even pace over the lap gives. -/
def Dev.patrolDue (d : Dev) : Bool :=
  let gone := (d.sheet - d.dram.lapStart) * 256 + d.stroke
  d.dram.initDone && d.is Fd.DMC_CTL_PATROL_EN && decide (d.dram.patrol < d.patrolTotal) &&
    decide (d.dram.patrol * d.rd Fd.DMC_PATROL_SHEETS * 256 ≤ gone * d.patrolTotal)

/-- The sub-channel of the next line copy. -/
def Dev.patrolSub (d : Dev) : Nat := d.dramPair (d.dram.patrol / 2) + 4 * (d.dram.patrol % 2)

/-! ### Admission (R325, R326) -/

/-- No earlier request of the port to the same line waits. -/
def firstOfLine (r : DramReq) : List DramReq → Bool
  | [] => true
  | x :: xs => if x == r then true else !(decide (x.port = r.port) && decide (dramLine x.addr = dramLine r.addr)) && firstOfLine r xs

/-- The next request to admit: a credited one, round robin across ports; else one that spills past no credited request and no patrol read for
its queues (R325, R326). The flag says whether it is charged. -/
def Dev.nextDram (d : Dev) : Option (DramReq × Bool) :=
  let w := d.dram.waiting.filter fun r => d.mayEnter r && firstOfLine r d.dram.waiting
  let ports := (List.range 8).map fun i => (d.dram.lastPort + 1 + i) % 8
  match ports.findSome? (fun p => w.find? fun r => decide (r.port = p) && d.credited r) with
  | some r => some (r, true)
  | none =>
    (w.find? fun r => (d.dport r.port).spill && !(d.patrolDue && decide (d.patrolSub ∈ d.subsOf r)) &&
      !d.dram.waiting.any (fun c => d.credited c && (d.subsOf c).any fun s => decide (s ∈ d.subsOf r))).map fun r => (r, false)

/-- Admits what may be admitted. -/
def admitDram : Nat → Dev → Dev
  | 0, d => d
  | n + 1, d =>
    match d.nextDram with
    | some (r, paid) =>
      let d := enqueue r (d.modDram fun x => { x with waiting := listEraseFirst (fun y => y == r) x.waiting })
      let d := if paid then
          (d.modDport r.port fun p => { p with credit := p.credit - r.cost, charged := p.charged + r.cost }).modDram fun x =>
            { x with lastPort := r.port }
        else d
      admitDram n d
    | none => d

/-- Ports that hold a request for want of credit are marked. -/
def markWaits (d : Dev) : Dev :=
  forUpTo 8 (fun p d =>
    if d.dram.waiting.any fun r => decide (r.port = p) && !d.credited r then d.modDport p fun x => { x with waited := true } else d) d

def Dev.admitAll (d : Dev) : Dev := markWaits (admitDram (d.dram.waiting.length + 1) d)

/-- DRAM_REQUEST_ADMIT: a request comes to its port, and what may be admitted is. -/
def dramRequest (r : DramReq) (d : Dev) : Except String Dev :=
  if d.dram.initDone && decide (dramBase ≤ r.addr) && decide (r.addr < dramBase + d.dram.mib * 2 ^ 20) then
    .ok (d.modDram fun x => { x with waiting := x.waiting ++ [r] }).admitAll
  else .error "DRAM request"

def execDramRequestAdmit (port : Fin 8) (addr : BitVec 40) (write whole : Bool) (s : State) :
    Host.Outcome State Fault Refusal :=
  onDev s fun d => dramRequest { port := port, addr := addr.toNat, write := write, whole := whole, since := d.strk.count } d

/-- A stroke boundary at the DRAM controller: credits (R324), port settings (R326), throttles, aged writes (R322), and what can
then be admitted. -/
def dramStroke (d : Dev) : Dev :=
  let d := forUpTo 8 (fun p d =>
    let d := if (d.dport p).waited then d.addx 0 p Fd.DMC_PORT_USE_WAITS 1 else d
    d.modDport p fun x =>
      { credit := d.rdb p Fd.DMC_PORT_CFG_CREDIT, charged := 0, last := x.charged,
        spill := d.rdb p Fd.DMC_PORT_CFG_SPILL = 1, waited := false }) d
  let now := d.strk.count
  let d := d.modDram fun x => { x with
    throttles := x.throttles.map fun t => { t with left := t.left - 1 }
    acts := x.acts.filter fun a => decide (now < a.stroke + hammerStrokes) }
  let d := forUpTo 8 (fun s d =>
    let n := (d.writeQ s).length
    issueWrites s (d.rd Fd.DMC_WM_AGE) (if (d.readQ s).isEmpty then 0 else n) n d) d
  d.admitAll

/-- THROTTLE_HOLD_END: a throttle whose strokes are over ends (R327). -/
def throttleEnd (port sub bank : Nat) (d : Dev) : Except String Dev :=
  let f := fun t : Throttle => decide (t.port = port) && decide (t.sub = sub) && decide (t.bank = bank) && decide (t.left = 0)
  if d.dram.throttles.any f then .ok (d.modDram fun x => { x with throttles := listEraseFirst f x.throttles }).admitAll
  else .error "throttle"

def execThrottleHoldEnd (port : Fin 8) (sub : Fin 8) (bank : Fin 32) (s : State) : Host.Outcome State Fault Refusal :=
  onDev s (throttleEnd port sub bank)

/-! ### Copies (R319 to R321) -/

/-- A corrected word of a sub-channel. -/
def countCorr (s : Nat) (d : Dev) : Dev := bucketEvent (48 + s) (d.addx 0 s Fd.DMC_ECC_CNT_CORR 1)

/-- A copy on sub-channel `s` was read: repaired from the other where it is uncorrectable, lost where both are. -/
def copyRead (s a : Nat) (own other : CopyState) (d : Dev) : Dev :=
  let p := (s + 4) % 8
  match own with
  | .good => d
  | .corrected => countCorr s d
  | .bad =>
    if d.subOk p && other != .bad then
      let d := countCorr s d
      if other == .corrected then countCorr p d else d
    else
      let d := d.addx 0 s Fd.DMC_ECC_CNT_UNCORR 1
      let d := if d.subOk p then d.addx 0 p Fd.DMC_ECC_CNT_UNCORR 1 else d
      wordLost a (d.wr Fd.DMC_EVT_UNCORR_BOTH 1)

/-- DRAM_READ_RETURN: the next read of a sub-channel's queue returns (R322). -/
def dramReturn (s : Nat) (own other : CopyState) (d : Dev) : Except String Dev :=
  match d.pickDram s (d.readQ s) with
  | some r =>
    .ok (copyRead s r.addr own other (issueDram s r (d.modDram fun x => { x with
      readQ := mapSet [] x.readQ s (listEraseFirst (fun y => y == r) (mapGet [] x.readQ s)) }))).admitAll
  | none => .error "DRAM read"

def execDramReadReturn (sub : Fin 8) (own other : CopyState) (s : State) : Host.Outcome State Fault Refusal :=
  onDev s (dramReturn sub own other)

/-- DRAM_PATROL_READ: the next line copy, behind credited requests, where the read queue has room (R320, R326). -/
def patrolRead (own other : CopyState) (d : Dev) : Except String Dev :=
  let k := d.dram.patrol
  let total := d.patrolTotal
  let s := d.patrolSub
  if d.patrolDue && decide ((d.readQ s).length < 64) then
    let d := if d.subOk s then copyRead s (dramBase + 64 * (k / 2)) own other d else d
    let d := d.modDram fun x => { x with patrol := k + 1 }
    if k + 1 = total then
      let len := d.sheet - d.dram.lapStart
      let d := (d.wr Fd.DMC_PATROL_LAP_SHEETS len).flagIf (decide (d.rd Fd.DMC_PATROL_SHEETS < len)) Fd.DMC_EVT_PATROL_LATE
      .ok (d.modDram fun x => { x with patrol := 0, lapStart := d.sheet }).admitAll
    else .ok d.admitAll
  else .error "patrol read"

def execDramPatrolRead (own other : CopyState) (s : State) : Host.Outcome State Fault Refusal :=
  onDev s (patrolRead own other)

/-- DQS_TRACKING: once every 64 sheets on each sub-channel in use (R314). -/
def dqsTracking (s : Nat) (d : Dev) : Except String Dev :=
  if d.is Fd.DMC_CTL_EN && d.dram.trained && d.subOk s && bit d.dram.present s &&
      (match mapFind d.dram.trackedAt s with | some k => decide (k + 64 ≤ d.sheet) | none => true) then
    .ok (d.modDram fun x => { x with trackedAt := mapInsert x.trackedAt s d.sheet })
  else .error "DQS tracking"

def execDqsTracking (sub : Fin 8) (s : State) : Host.Outcome State Fault Refusal := onDev s (dqsTracking sub)

end Sys2Proof.Machine
end

