-- ==== Sys2Proof/Machine/Io.lean ====
section
/-! DEFINITION. Reads and writes of the host: checks, order, grants, data, commit (R77, R78, R88 to R90, R93, R98, R119 to R131,
R145, R148, R250, R341 to R348). -/

namespace Sys2Proof.Machine

/-! ### What every I/O command meets first -/

/-- The reads and writes that are checked in fetch order (R88, R346). -/
def Slot.isData (x : Slot) : Bool := decide (x.qid ≠ 0) && decide (x.sqe.op ∈ [0x01, 0x02, 0x08, 0x0C, 0x7D])

/-- A write or append that waits for its check: it has no place and no entry yet. -/
def Slot.unchecked (x : Slot) : Bool :=
  x.phase == .waiting && decide (x.sqe.op ∈ [0x01, 0x08, 0x7D]) && decide (x.total = 0) && x.landing.isNone

/-- Two commands to one zone, or to sectors of a conventional namespace that overlap. -/
def Dev.meet (d : Dev) (x y : Slot) : Bool :=
  x.sqe.nsid == y.sqe.nsid &&
    (if (d.ns? x.sqe.nsid.toNat).any (·.zoned) then decide (sqeZone x.sqe = sqeZone y.sqe)
     else decide (x.sqe.slba < y.sqe.slba + y.sqe.nlb) && decide (y.sqe.slba < x.sqe.slba + x.sqe.nlb))

/-- An earlier-fetched read or write has not been examined yet, or an earlier write of the same sectors or zone has not had its check
(R88, R119). -/
def Dev.outOfOrder (d : Dev) (x : Slot) : Bool :=
  (x.phase == .fetched || x.unchecked) && d.host.slots.any fun e => decide (e.2.seq < x.seq) && e.2.isData &&
    (e.2.phase == .fetched || (e.2.unchecked && d.meet x e.2))

/-- The command ends with a status. -/
def refuseIo (k : Nat) (c : Cpl) (d : Dev) : Dev := finish k c d

/-- A record of a deferred error goes to the first write or flush fetched after it (R98). -/
def Dev.mustDeliver (d : Dev) (x : Slot) : Option DweRec :=
  if x.takesDwe then d.dweDue x.fn x.sqe.nsid.toNat x.seq else none

/-- Sectors of a namespace. -/
def Ns.size (ns : Ns) : Nat := if ns.zoned then ns.zones * zoneSpan else ns.sectors

def stZoneBoundary : Cpl := stat 1 0xB8
def stZoneFull : Cpl := stat 1 0xB9
def stReadOnly : Cpl := stat 1 0xBA
def stOffline : Cpl := stat 1 0xBB
def stInvalidWrite : Cpl := stat 1 0xBC

/-- Sectors a command may transfer (MDTS, ZASL). -/
def maxSectors : Nat := 512

/-- The checks of a read or write that need no zone: their status, if one fails. -/
def Dev.ioRefusal (ns : Ns) (x : Sqe) : Option Cpl :=
  let op := x.op
  if decide (op ∈ [0x01, 0x08, 0x7D]) && decide (x.dtype ≠ 0) then some stInvalidField
  else if op = 0x7D && !ns.zoned then some stInvalidOpcode
  else if decide (op ∈ [0x01, 0x02, 0x7D]) && decide (maxSectors < x.nlb) then some stInvalidField
  else if op = 0x7D && decide (x.slba % zoneSpan ≠ 0) then some stInvalidField
  else if decide (ns.size < x.slba + x.nlb) then some stLbaRange
  else if ns.zoned && decide (op ∈ [0x02, 0x0C]) && decide (x.slba / zoneSpan ≠ (x.slba + x.nlb - 1) / zoneSpan) then
    some stZoneBoundary
  else none

/-- Runs `g` once the namespace, fences, deferred errors and the checks without a zone are past. -/
def ioCommand (k op : Nat) (g : Slot → Ns → Dev → Dev) (d : Dev) : Except String Dev :=
  onSlot k false op (fun x d =>
    if d.outOfOrder x || (x.phase == .waiting && (x.total ≠ 0 && x.sqe.op ≠ 0x02 && x.sqe.op ≠ 0x0C)) then
      .error "command"
    else match d.nsOf x.fn x.sqe.nsid.toNat with
      | none => .ok (refuseIo k stInvalidNs d)
      | some ns =>
        if d.atFence x then .ok (waitIo k d)
        else match d.mustDeliver x with
          | some r => if d.dweBehind x then .error "command" else .ok (deliverDwe k r d)
          | none =>
            match Dev.ioRefusal ns x.sqe with
            | some c => .ok (refuseIo k c d)
            | none => .ok (g x ns d)) d

/-! ### Flush (R80) -/

/-- FLUSH: every completed write is within the staged ceiling already. -/
def flush (k : Nat) (d : Dev) : Except String Dev :=
  onSlot k false 0x00 (fun x d =>
    match d.nsOf x.fn x.sqe.nsid.toNat with
    | none => .ok (refuseIo k stInvalidNs d)
    | some _ =>
      if d.atFence x then .ok (waitIo k d)
      else match d.mustDeliver x with
        | some r => if d.dweBehind x then .error "command" else .ok (deliverDwe k r d)
        | none => .ok (finish k success (d.modSlot k fun x => { x with committed := true }))) d

def execFlushCmd (slot : Fin 131072) (s : State) : Host.Outcome State Fault Refusal := onDev s (flush slot)

/-! ### The zone lookup (R341, R346, R351) -/

/-- The entries that cover a zone are made anew from the zone manager's table, where more than one did (R344). -/
def repairZone (nsid z : Nat) (d : Dev) : Dev :=
  let key : CamKey := { mask := 2, nsid := nsid, first := zoneStart z, last := zoneStart z + 524287, limit := none }
  syncZone nsid z (d.cam.entries.foldl (fun (d : Dev) e => if e.2.hits key && !e.2.poison then d.camFree e.1 else d) d)

/-- The first search of a command to a zoned namespace: the device after it, and whether the command must wait for a poisoned
entry, or because hardware searches wait. A command that waited for a poisoned entry looks at it again. -/
def zoneLookup (first : Bool) (nsid z : Nat) (d : Dev) : Bool × Dev :=
  if d.is Fd.CAM_CTL_HOLD then (true, d)
  else
    match d.camSearch { mask := 2, nsid := nsid, first := zoneStart z, last := zoneStart z + 524287, limit := none } with
    | some h =>
      let d := if first then d.spendSearch.countHit true (some h) else d
      (h.poison, if first && h.multi && !h.poison then repairZone nsid z d else d)
    | none => (false, if first then d.spendSearch else d)

/-! ### Writes to a zone (R112, R119, R120, R128 to R130) -/

/-- The record of a token in a zone. -/
def Zone.recOf (z : Zone) (token : Nat) : Option Landing := z.recs.find? fun r => decide (r.token = token)

/-- The status that a zone's state gives a write or append (Table 4-2, R115, R136). -/
def Dev.writeRefusal (d : Dev) (nsid z : Nat) (x : Slot) : Option Cpl :=
  let y := d.zone nsid z
  if d.zoneBusy nsid z then some stZoneBusy
  else match y.st with
    | .full => some stZoneFull
    | .readOnly => some stReadOnly
    | .offline => some stOffline
    | _ => (match y.marked with | some m => if m < x.seq then some stReadOnly else none | none => none)

/-- The check of a write's place: its own start, or the check pointer of an append; within the capacity (R119). -/
def Dev.placeRefusal (d : Dev) (nsid z : Nat) (x : Sqe) : Option Cpl :=
  let y := d.zone nsid z
  if x.op ≠ 0x7D && x.slba ≠ zoneStart z + y.cp then some stInvalidWrite
  else if zoneCap < y.cp + x.nlb then some stZoneBoundary
  else none

/-- A tenant's own cell cap lets it have `n` sectors more (R145). -/
def Dev.withinCap (d : Dev) (t n : Nat) : Bool := decide (d.pool.held t + 4 * n ≤ d.rdb t Fd.TEN_T_CELL_CAP_CELLS)

/-- A write that must wait because its tenant would pass its cell cap leaves its event (Table 5-16). -/
def capWait (nsid n : Nat) (d : Dev) : Dev :=
  match d.ns? nsid with
  | some ns => d.flagIf (!d.withinCap ns.owner n) Fd.TEN_EVT_CAP_WAIT
  | none => d

/-- Gives a write or append its position (R119, R128): the check pointer advances, a token leaves a pending record, and earlier
writes of the zone are posted first. -/
def takePlace (k : Nat) (x : Slot) (nsid z : Nat) (d : Dev) : Dev :=
  let y := d.zone nsid z
  let n := x.sqe.nlb
  let start := zoneStart z + y.cp
  let before := d.host.slots.filterMap fun e =>
    if e.2.zone == some (zoneKey nsid z) && decide (e.1 ≠ k) then some e.2.seq else none
  let token := x.sqe.token
  let d := d.modZone nsid z fun y =>
    { y with
      cp := y.cp + n
      st := if y.st == .closed then .implOpen else y.st
      recs := if x.sqe.op = 0x7D && token ≠ 0 then
          ({ token := token, lba := start, nlb := n, done := false, seq := d.strk.count, slot := k } :: y.recs).take 64
        else y.recs }
  let d := d.modSlot k fun x => { x with phase := .waiting, zone := some (zoneKey nsid z), start := start, total := n,
                                         after := x.after ++ before }
  capWait nsid n (syncZone nsid z d)

/-- The position check, binding an Empty zone first (R107, R111). -/
def placeWrite (k : Nat) (x : Slot) (ns : Ns) (nsid z : Nat) (d : Dev) : Dev :=
  match d.placeRefusal nsid z x.sqe with
  | some c => refuseIo k c d
  | none =>
    if !d.zoneEntryRoom nsid z then waitIo k (countEntryWait k d)
    else if (d.zone nsid z).st == .empty then
      if d.is Fd.ZONE_CTL_BIND_HOLD then waitIo k d
      else match d.bindCheck nsid ns x.sqe.handle with
        | .ok r => takePlace k x nsid z (bindZone nsid z x.sqe.handle r .implOpen d)
        | .error c => refuseIo k c (bindRefused c d)
    else takePlace k x nsid z d

/-- A matched retry: its data is fetched and discarded, and it completes with the record's LBA (R129). -/
def landHit (k lba : Nat) (d : Dev) : Dev :=
  let d := d.add Fd.ZONE_LAND_CNT_HITS 1
  let d := match d.slot? k with | some x => d.send (.hostRead x.fn k) | none => d
  finish k { success with dw0 := BitVec.ofNat 32 lba, dw1 := BitVec.ofNat 32 (lba / 2 ^ 32) }
    (d.modSlot k fun x => { x with committed := true })

/-- A record of another length under the same token (R129). -/
def landMismatch (k : Nat) (d : Dev) : Dev :=
  refuseIo k (stVendor 0xC3) ((d.add Fd.ZONE_LAND_CNT_MISMATCH 1).wr Fd.ZONE_EVT_LAND_MISMATCH 1)

/-- The token search of an append comes before the checks of its zone's state, but for an Offline zone (R129). -/
def Dev.landSearch (d : Dev) (nsid z : Nat) (x : Sqe) : Option Landing :=
  let y := d.zone nsid z
  if x.op = 0x7D && x.token ≠ 0 && y.st != .offline && y.st != .empty then y.recOf x.token else none

/-- The row of a zone lies on a follower that is lost, or whose hold has expired (R467). -/
def Dev.zoneLost (d : Dev) (nsid z : Nat) : Bool := (d.zone nsid z).row.any fun r => d.groupLost r.1
def Dev.zoneGone (d : Dev) (nsid z : Nat) : Bool := (d.zone nsid z).row.any fun r => d.groupGone r.1

/-- A write or append to a zoned namespace. -/
def zoneWrite (k : Nat) (x : Slot) (ns : Ns) (d : Dev) : Dev :=
  let nsid := x.sqe.nsid.toNat
  let z := sqeZone x.sqe
  if d.behindSend x nsid z then waitIo k d
  else
    let (hold, d) := zoneLookup (x.phase == .fetched) nsid z d
    if hold then waitIo k d
    else match d.landSearch nsid z x.sqe with
      | some r =>
        if r.nlb ≠ x.sqe.nlb then landMismatch k d
        else if r.done then landHit k r.lba d
        else (waitIo k d).modSlot k fun x => { x with landing := some r.slot }
      | none =>
        match d.writeRefusal nsid z x with
        | some c => refuseIo k c d
        | none =>
          if d.zoneGone nsid z then refuseIo k stUnreachable d
          else if d.zoneLost nsid z then waitIo k d
          else placeWrite k x ns nsid z (d.modSlot k fun x => { x with landing := none })

/-! ### Writes to a conventional namespace (R131, R340, R342, R346) -/

/-- WRITE entries of a function. -/
def Dev.camWritesOf (d : Dev) (f : Nat) : Nat :=
  (d.host.slots.filter fun e => decide (e.2.fn = f) && e.2.cam.isSome).length

/-- A function may have one more WRITE entry: within its share, or on those owed to no function's share. -/
def Dev.camWriteFor (d : Dev) (f : Nat) : Bool :=
  let mine := d.camWritesOf f
  let owed := allFuncs.foldl (fun a g => a + (d.camShare g - d.camWritesOf g)) 0
  (d.camLowFree d.camFuel 0).isSome &&
    (decide (mine < d.camShare f) || decide (d.camUsed 1 + owed < d.camWriteRoom))

/-- The overlap key of a command. -/
def overlapKey (x : Slot) : CamKey :=
  { mask := 1, nsid := x.sqe.nsid.toNat, first := x.sqe.slba, last := x.sqe.slba + x.sqe.nlb - 1, limit := some x.seq }

/-- Issues a search of a command; its result is on its way (R345). -/
def issueSearch (k : Nat) (x : Slot) (d : Dev) : Dev :=
  let h := d.camSearch (overlapKey x)
  (d.spendSearch.countHit false h).modCam fun c => { c with searches := c.searches ++ [(k, h)] }

/-- A write to a conventional namespace: its entry, then its first search in normal service. -/
def convWrite (k : Nat) (x : Slot) (d : Dev) : Dev :=
  if d.is Fd.CAM_CTL_HOLD then waitIo k d
  else if !d.camWriteFor x.fn then waitIo k (countEntryWait k d)
  else match d.camLowFree d.camFuel 0 with
    | none => waitIo k d
    | some i =>
      let q := x.sqe
      let d := d.camMake i (camWriteEntry q.nsid.toNat q.slba (q.slba + q.nlb - 1) x.seq k)
      let d := d.modSlot k fun x => { x with phase := .waiting, cam := some i, start := q.slba, total := q.nlb }
      let d := capWait q.nsid.toNat q.nlb d
      if x.maint then d else issueSearch k x d

/-- The last nonce epoch has been used: GCM namespaces take no write any more (R295). -/
def Dev.epochSpent (d : Dev) (nsid : Nat) : Bool :=
  !d.ciph.epochSet && decide (0x3FFFFFFF ≤ d.nvm.epoch) && decide ((d.keySlot (nsSlot nsid)).mode = 2)

/-- Write, Write Zeroes, Zone Append. -/
def writeRow (k op : Nat) (d : Dev) : Except String Dev :=
  ioCommand k op (fun x ns d => if d.epochSpent x.sqe.nsid.toNat then refuseIo k stDenied d else if ns.zoned then zoneWrite k x ns d else convWrite k x d) d

def execWriteCmd (slot : Fin 131072) (s : State) : Host.Outcome State Fault Refusal := onDev s (writeRow slot 0x01)
def execWriteZeroes (slot : Fin 131072) (s : State) : Host.Outcome State Fault Refusal := onDev s (writeRow slot 0x08)
def execZoneAppend (slot : Fin 131072) (s : State) : Host.Outcome State Fault Refusal := onDev s (writeRow slot 0x7D)

/-! ### The grant (R78, R145, R146, R148, R231) -/

/-- A checked write that waits for its cells and its staged room. -/
def Dev.wantsGrant (d : Dev) (k : Nat) (x : Slot) : Bool :=
  x.isWrite && x.phase == .waiting && decide (x.total ≠ 0) && decide (x.chain = endOfChain) &&
    !d.cam.searches.any (fun e => decide (e.1 = k)) && !d.cam.waits.any (fun e => decide (e.1 = k))

/-- The tenant a write draws on: its namespace's owner, whoever writes (log entry 107). -/
def Dev.ownerOf (d : Dev) (x : Slot) : Nat := match d.ns? x.sqe.nsid.toNat with | some ns => ns.owner | none => 0

/-- The zone's writes run too far ahead of a block replacement in its row (R231). -/
def Dev.lagging (d : Dev) (x : Slot) : Bool :=
  match x.zone with
  | some zk =>
    (match (d.zone (zk / 2 ^ 20) (zk % 2 ^ 20)).row with
      | some (g, r) =>
        let stripe := (x.start - zoneStart (zk % 2 ^ 20) + x.total) / 896
        (List.range 16).any fun m =>
          match mapFind d.med.replace (d.mapped (memberDie g m) r).1 with
          | some p => decide (p.home = memberDie g m) && decide (p.block = r) && decide (p.done + 16 < stripe)
          | none => false
      | none => false)
  | none => false

/-- The grant of `n` sectors would draw on the shared part of the pool, or of the ceiling. -/
def Dev.drawsShared (d : Dev) (t n : Nat) : Bool × Bool := (!d.withinFloor (some t) (4 * n), !d.stageFromReserve t n)

/-- An earlier waiting write holds this one: one of the same tenant, or one of another that waits for the same shared part (R148): what
stands at its own tenant's cap does not wait for it. -/
def Dev.heldBehind (d : Dev) (x : Slot) (e : Nat × Slot) : Bool :=
  decide (e.2.seq < x.seq) && d.wantsGrant e.1 e.2 && !d.lagging e.2 &&
    (let t := d.ownerOf x
     let u := d.ownerOf e.2
     let a := d.drawsShared t x.total
     let b := d.drawsShared u e.2.total
     decide (t = u) || (d.withinCap u e.2.total && ((a.1 && b.1) || (a.2 && b.2))))

/-- The write may have its grant now. -/
def Dev.grantable (d : Dev) (k : Nat) (x : Slot) : Bool :=
  let t := d.ownerOf x
  d.wantsGrant k x && !d.lagging x && d.canGrant (some t) (4 * x.total) && d.stageRoom t x.total &&
    !d.host.slots.any (d.heldBehind x)

/-- The write that is served next: the first fetched of those that may be. -/
def Dev.nextWriteGrant (d : Dev) : Option (Nat × Slot) :=
  d.host.slots.foldl (fun a e =>
    if d.grantable e.1 e.2 then
      (match a with
        | some b => if e.2.seq < b.2.seq then some e else some b
        | none => some e)
    else a) none

/-- A write sector waits for a lane; the lanes' runs begin anew where none waited (R289). -/
def toWriteQ (k idx : Nat) (p : Payload) (d : Dev) : Dev :=
  let d := if d.ciph.writeQ.isEmpty then d.modCiph fun c => { c with lanes := c.lanes.map fun l => (l.1, { l.2 with run := 0 }) } else d
  d.modCiph fun c => { c with
    writeQ := c.writeQ ++ [{ work := .write k idx p, ch := 0, owned := false, since := d.now, order := c.seq }], seq := c.seq + 1 }

/-- WRITE_GRANT: all cells and the staged share in one grant; then the data is fetched, or zeros are made. Writes that go on waiting at their
tenant's cap leave the event of Table 5-16. -/
def writeGrant (d : Dev) : Except String Dev :=
  match d.nextWriteGrant with
  | none => .error "write grant"
  | some (k, x) =>
    let t := d.ownerOf x
    let (h, d) := grantCells (some t) (4 * x.total) d
    let (d, res) := takeStage t x.total d
    let d := d.modSlot k fun x => { x with phase := .moving, chain := h, share := some res }
    let d := d.flagIf (d.host.slots.any fun e => d.wantsGrant e.1 e.2 && !d.withinCap (d.ownerOf e.2) e.2.total) Fd.TEN_EVT_CAP_WAIT
    if x.sqe.op = 0x08 then .ok (forUpTo x.total (fun i d => toWriteQ k i 0 d) d) else .ok (d.send (.hostRead x.fn k))

def execWriteGrant (s : State) : Host.Outcome State Fault Refusal := onDev s writeGrant

/-! ### Data and commit (R93, R119, R128, R248) -/

/-- Sector `idx` of a write is already with the device. -/
def Dev.sectorHere (d : Dev) (k idx : Nat) (x : Slot) : Bool :=
  let mine (i : LaneItem) : Bool := match i.work with
    | .write j n _ => decide (j = k) && decide (n = idx)
    | _ => false
  decide (idx ∈ x.arrived) || d.ciph.writeQ.any mine || (List.range 48).any fun n => (d.lane n).busy.any mine

/-- WRITE_DATA_ARRIVAL: a sector of a write's data comes from host memory. -/
def writeData (k idx : Nat) (p : Payload) (d : Dev) : Except String Dev :=
  match d.slot? k with
  | some x =>
    if x.isWrite && decide (x.sqe.op ≠ 0x08) && x.phase == .moving && decide (idx < x.total) && !d.sectorHere k idx x then
      .ok (toWriteQ k idx p d)
    else .error "write data"
  | none => .error "write data"

def execWriteDataArrival (slot : Fin 131072) (idx : Fin 65536) (data : Payload) (s : State) :
    Host.Outcome State Fault Refusal :=
  onDev s (writeData slot idx data)

/-- STAMP and SCRC of a write's sectors as they stand from its commit point on. -/
def stampChain (h n stroke : Nat) (d : Dev) : Dev :=
  d.modPool fun p => forUpTo n (fun j p =>
    let s := p.sector h j
    let s : Sector := { s with md := mdSet s.md 48 8 stroke }
    p.putSector h j { s with md := mdSet s.md 60 4 (sectorCrc s) }) p

/-- Retries that waited on a pending record complete with it (R129). -/
def releaseRetries (nsid token nlb lba : Nat) (d : Dev) : Dev :=
  let z := lba / zoneSpan
  let mine := d.host.slots.filter fun e =>
    e.2.landing.isSome && e.2.phase == .waiting && decide (e.2.sqe.op = 0x7D) && decide (e.2.sqe.nsid.toNat = nsid) &&
      decide (sqeZone e.2.sqe = z) && decide (e.2.sqe.token = token) && decide (e.2.sqe.nlb = nlb)
  mine.foldl (fun d e => landHit e.1 lba d) d

/-- Sectors of a zone on a follower are sent to its cells; this device's own stay until it acknowledges them (R463). -/
def moveOut (nsid z first n : Nat) (d : Dev) : Dev :=
  match if n = 0 then none else (d.zone nsid z).row.bind fun r => groupDev r.1 with
  | some p =>
    let sectors := (List.range n).filterMap fun j => (mapFind (d.zone nsid z).staged (first + j)).map fun e => d.pool.sector e.1 0
    askMedia { pos := p, id := 0, kind := .cells, nsid := nsid, zone := z, first := first, n := n, slot := 0, idx := 0 }
      ([nsid, z, first] ++ sectors.flatMap fun x => [x.data.toNat, x.md.toNat]) d
  | none => d

/-- Sectors of a zone stand in a follower's cells: this device's own are free, and units that are whole are programmed (R463). -/
def standsFar (nsid z first n : Nat) (d : Dev) : Dev :=
  let d := forUpTo n (fun i d =>
    match mapFind (d.zone nsid z).staged (first + i) with
    | some e => (freeSectorCells e.1 d).modZone nsid z fun y => { y with staged := mapInsert y.staged (first + i) (endOfChain, e.2) }
    | none => d) d
  forUpTo (n / 64 + 2) (fun i d => askProgram nsid z (first / 64 + i) d) d

/-- Sectors of a zone are programmed on a follower: their shares of the ceiling return. -/
def programmedFar (nsid z first n : Nat) (d : Dev) : Dev :=
  let owner := match d.ns? nsid with | some ns => ns.owner | none => 0
  let d := forUpTo n (fun i d =>
    match mapFind (d.zone nsid z).staged (first + i) with
    | some e =>
      if e.1 = endOfChain then
        (dropStage owner 1 e.2 d).modZone nsid z fun y => { y with staged := mapErase y.staged (first + i) }
      else d
    | none => d) d
  syncZone nsid z d

/-- Commit of a write to a zone. -/
def commitZone (k : Nat) (x : Slot) (nsid z : Nat) (d : Dev) : Dev :=
  let s0 := x.start - zoneStart z
  let res := x.share.getD false
  let p := d.pool
  let d := d.modZone nsid z fun y =>
    let wp := s0 + x.total
    { y with
      wp := wp, eod := wp
      bornAt := if s0 = 0 then d.strk.count else y.bornAt
      wrote := y.wrote ++ [{ first := s0, n := x.total, sqid := x.qid, cid := x.sqe.cid.toNat }]
      st := if wp = zoneCap then .full else y.st
      staged := forUpTo x.total (fun j m => mapInsert m (s0 + j) (p.follow (4 * j) x.chain, res)) y.staged
      recs := y.recs.map fun r => if !r.done && r.slot = k then { r with done := true } else r }
  let d := moveOut nsid z s0 x.total (syncZone nsid z d)
  if x.sqe.op = 0x7D && x.sqe.token ≠ 0 then releaseRetries nsid x.sqe.token x.total x.start d else d

/-- Commit of a write to a conventional namespace: the old places of its sectors are given up. -/
def commitConv (x : Slot) (nsid : Nat) (d : Dev) : Dev :=
  let t := d.ownerOf x
  let res := x.share.getD false
  let p := d.pool
  forUpTo x.total (fun j d =>
    let key := nsid * 2 ^ 40 + x.start + j
    let d := match mapFind d.zm.conv key with
      | some (.cells h r) => dropStage t 1 r (freeSectorCells h d)
      | _ => d
    d.modZm fun m => { m with conv := mapInsert m.conv key (.cells (p.follow (4 * j) x.chain) res) }) d

/-- The zone that a write has committed to is padded, where the write was the last before a mark. -/
def padAfter (k nsid z : Nat) (d : Dev) : Dev := padMarked nsid z (d.modSlot k fun x => { x with committed := true })

/-- WRITE_COMMIT: every sector is in cells; a zone's writes commit in check order. -/
def writeCommit (k : Nat) (d : Dev) : Except String Dev :=
  match d.slot? k with
  | none => .error "write commit"
  | some x =>
    let nsid := x.sqe.nsid.toNat
    let inOrder := match x.zone with
      | some zk => decide (x.start = zoneStart (zk % 2 ^ 20) + (d.zone nsid (zk % 2 ^ 20)).wp)
      | none => true
    if !(x.isWrite && x.phase == .moving && decide (x.arrived.length = x.total) && inOrder) then .error "write commit"
    else
      let d := stampChain x.chain x.total d.strk.count d
      let d := match x.zone with
        | some zk => padAfter k nsid (zk % 2 ^ 20) (commitZone k x nsid (zk % 2 ^ 20) d)
        | none => commitConv x nsid d
      let d := d.modNs nsid fun y => { y with writes := y.writes + 1, sectorsWritten := y.sectorsWritten + x.total }
      let d := d.modSlot k fun x => { x with committed := true, chain := endOfChain, share := none }
      .ok (finish k (if x.sqe.op = 0x7D then
          { success with dw0 := BitVec.ofNat 32 x.start, dw1 := BitVec.ofNat 32 (x.start / 2 ^ 32) } else success) d)

def execWriteCommit (slot : Fin 131072) (s : State) : Host.Outcome State Fault Refusal := onDev s (writeCommit slot)

/-- The status of a transfer that failed (NVMe 0x04). -/
def stTransfer : Cpl := stat 0 4

/-- DATA_TRANSFER_ERROR: a transfer over the host link failed; a write before its commit point is withdrawn (R120). -/
def transferError (k : Nat) (d : Dev) : Except String Dev :=
  match d.slot? k with
  | some x =>
    if x.phase == .moving && x.isWrite && !x.committed then .ok (withdrawCmd k stTransfer d)
    else if x.phase == .moving && decide (x.qid ≠ 0) && decide (x.sqe.op = 0x02) then
      .ok (d.modSlot k fun x => { x with bad := match x.bad with | some b => some b | none => some stTransfer })
    else .error "transfer error"
  | none => .error "transfer error"

def execDataTransferError (slot : Fin 131072) (s : State) : Host.Outcome State Fault Refusal := onDev s (transferError slot)

/-! ### Reads (R88, R97, R121, R250, R341) -/

/-- Where a sector of a read comes from. -/
inductive Source where
  | zeros
  | lost
  | cells (h ch : Nat)
  | media (ch target block plane page cw : Nat) (slc : Bool)
  | remote (pos g r s : Nat)   -- in a follower's cells or on its media (R463)
  | member (die : Nat)   -- on a member that is lost, which stood on this die: a reconstruction brings it
  deriving DecidableEq, Repr

/-- A member of a row cannot be read. -/
def Dev.memberLost (d : Dev) (g r m : Nat) : Bool :=
  decide (m ∈ (d.row g r).lost) || !d.dieHealthy (d.mapped (memberDie g m) r).1

/-- A member of a row is lost to stripe `wl`: as a whole, or from an earlier wordline on for want of a spare (W3 of Table 8-5). -/
def Dev.memberLostAt (d : Dev) (g r m wl : Nat) : Bool :=
  d.memberLost g r m || (d.row g r).short.any fun x => decide (x.1 = m) && decide (x.2 ≤ wl)

/-- The block on which a member under rebuild holds stripe `wl` already (R271). -/
def Dev.rebuilt (d : Dev) (g r m wl : Nat) : Option (Nat × Nat) :=
  match d.med.rebuild.find? fun x => decide (x.group = g) && decide (x.row = r) && decide (x.member = m) with
  | some x => if x.front ≤ wl then x.dest else none
  | none => none

/-- The lane that deciphers sectors of channel `n` of the device at a position (R463). -/
def farLane (pos n : Nat) : Nat := (n + 12 * pos) % 48

/-- Source of sector `s` of a zone. -/
def Dev.zoneSource (d : Dev) (z : Zone) (s : Nat) : Source :=
  if z.refDst.isSome then .zeros
  else if z.isLost s then .lost
  else match z.row with
    | none => .zeros
    | some (g, r) =>
      let (die, b, plane, page, cw) := d.sectorPlace g r s
      match mapFind z.staged s with
      | some e => if e.1 = endOfChain then .remote (g / 96) g r s else .cells e.1 (farLane (g / 96) (die / 32 % 48))
      | none =>
        if z.eod ≤ s then .zeros
        else if 96 ≤ g then .remote (g / 96) g r s
        else if d.memberLostAt g r (sectorMember r s) (s / 896) then
          match d.rebuilt g r (sectorMember r s) (s / 896) with
          | some (x, y) => .media (x / 32) (x % 32) y plane page cw false
          | none => .member die
        else .media (die / 32) (die % 32) b plane page cw false

/-- Source of a conventional sector. -/
def Dev.convSource (d : Dev) (nsid lba : Nat) : Source :=
  match mapFind d.zm.conv (nsid * 2 ^ 40 + lba) with
  | none => .zeros
  | some .lost => .lost
  | some (.cells h _) => .cells h (h % 48)
  | some (.media key slc) =>
    let die := key / 4 / 4096 / 4 / 4096
    let b := key / 4 / 4096 / 4 % 4096
    if (d.die (die / 32) (die % 32)).st == .retired then .member die
    else .media (die / 32) (die % 32) b (key / 4 / 4096 % 4) (key / 4 % 4096) (key % 4) slc

/-- The sources of a command's sectors. -/
def Dev.sources (d : Dev) (x : Sqe) (ns : Ns) : List Source :=
  (List.range x.nlb).map fun i =>
    if ns.zoned then d.zoneSource (d.zone x.nsid.toNat (sqeZone x)) (x.slba - zoneStart (sqeZone x) + i)
    else d.convSource x.nsid.toNat (x.slba + i)

/-- One descriptor of a read: its page, its mask, the index of its first sector. -/
structure ReadPart where
  ch : Nat
  target : Nat
  block : Nat
  plane : Nat
  page : Nat
  slc : Bool
  mask : Nat
  idx : Nat
  deriving DecidableEq, Repr

/-- Groups consecutive sectors of one page. -/
def readParts : Nat → List Source → List ReadPart
  | _, [] => []
  | i, .media ch t b pl pg cw slc :: rest =>
    let tail := readParts (i + 1) rest
    (match tail with
      | p :: ps =>
        if p.idx = i + 1 && p.ch = ch && p.target = t && p.block = b && p.plane = pl && p.page = pg && p.slc == slc &&
            maskFirst p.mask = cw + 1 then
          { p with mask := p.mask + 2 ^ cw, idx := i } :: ps
        else { ch := ch, target := t, block := b, plane := pl, page := pg, slc := slc, mask := 2 ^ cw, idx := i } :: tail
      | [] => [{ ch := ch, target := t, block := b, plane := pl, page := pg, slc := slc, mask := 2 ^ cw, idx := i }])
  | i, _ :: rest => readParts (i + 1) rest

/-- Every die has room for its descriptors of the read. -/
def Dev.partsFit (d : Dev) (ps : List ReadPart) : Bool :=
  ps.all fun p => decide ((d.die p.ch p.target).queued +
    (ps.filter fun q => decide (q.ch = p.ch) && decide (q.target = p.target)).length ≤ 32)

/-- Posts one descriptor of a read. -/
def postPart (k cls : Nat) (p : ReadPart) (d : Dev) : Dev :=
  let (tag, d) := d.hostTag
  let level := mapGet 0 d.med.level (blockKey (dieNumber p.ch p.target) p.block)
  takeDesc p.ch
    { desc :=
        { d0 := BitVec.ofNat 32 (2 ^ 28 + cls * 2 ^ 24 + p.target * 2 ^ 19 + b2n p.slc * 2 ^ 17 + p.mask * 2 ^ 8 + level)
          d1 := BitVec.ofNat 32 (p.block * 2 ^ 20 + p.page * 2 ^ 8 + p.plane * 2 ^ 6)
          d2 := BitVec.ofNat 32 (k * 2 ^ 13 + p.idx % 512 * 2 ^ 4)
          d3 := 0, d4 := 0, d5 := 0, d6 := BitVec.ofNat 32 tag, d7 := 0 } } false d

/-- A sector that needs no descriptor. -/
def serveSector (k i : Nat) (x : Slot) (s : Source) (d : Dev) : Dev :=
  match s with
  | .zeros => readEnd k (if x.sqe.op = 0x02 then d.send (.hostSector x.fn k i 0) else d)
  | .lost => readLost k stUnrecovered (countUnrecovered k i d)
  | .cells h ch =>
    let sec := d.pool.sector h 0
    if sectorOk sec && decide (mdNsid sec.md = x.sqe.nsid.toNat) then toLane k i ch false sec d
    else readLost k stUnrecovered (countUnrecovered k i (bucketEvent 61 ((d.add Fd.LDPC_CNT_MISC_SCRC 1).wr Fd.LDPC_EVT_SCRC 1)))
  | .remote p g r n =>
    askMedia { pos := p, id := 0, kind := .read, nsid := x.sqe.nsid.toNat, zone := sqeZone x.sqe, first := n, n := 1, slot := k, idx := i }
      [g, r, n, k, i] d
  | .media .. | .member _ => d

/-- The die a sector stands or stood on. -/
def Source.die : Source → Option Nat
  | .media ch t .. => some (dieNumber ch t)
  | .member die => some die
  | _ => none

/-- 1 to 4 codewords on one die (R154). -/
def oneDie (ss : List Source) : Bool :=
  decide (ss.length ≤ 4) && (match ss with
    | s :: rest => s.die.isSome && rest.all fun x => x.die == s.die
    | [] => false)

/-- A source on a follower that is lost, or whose hold has expired (R467). -/
def Source.lostAt (d : Dev) (s : Source) : Bool := match s with | .remote _ g _ _ => d.groupLost g | _ => false
def Source.goneAt (d : Dev) (s : Source) : Bool := match s with | .remote _ g _ _ => d.groupGone g | _ => false

/-- Serves a read that nothing holds any more: descriptors are posted, the rest is served at once; that is its commit point, with a
descriptor or without (log entry 108). -/
def serveRead (k : Nat) (x : Slot) (ns : Ns) (d : Dev) : Dev :=
  let src := d.sources x.sqe ns
  let ps := readParts 0 src
  if src.any (Source.goneAt d) then refuseIo k stUnreachable d
  else if src.any (Source.lostAt d) || !d.partsFit ps then waitIo k d
  else
    let n := x.sqe.nlb
    let d := d.modSlot k fun x => { x with phase := .moving, committed := true, left := n, total := n,
                                           single := oneDie src }
    let d := d.modNs x.sqe.nsid.toNat fun y => { y with reads := y.reads + 1, sectorsRead := y.sectorsRead + n }
    let d := ps.foldl (fun d p => postPart k ns.cls p d) d
    (src.zipIdx).foldl (fun d e => serveSector k e.2 x e.1 d) d

/-- A read of a zone: sectors of a checked write still in flight hold it (R121). The check pointer at its first examination
bounds the writes it waits for (R88). -/
def zoneRead (k : Nat) (x : Slot) (ns : Ns) (d : Dev) : Dev :=
  let nsid := x.sqe.nsid.toNat
  let z := sqeZone x.sqe
  let y := d.zone nsid z
  if d.behindSend x nsid z then waitIo k d
  else if y.st == .offline then refuseIo k stOffline d
  else
    let (hold, d) := zoneLookup (x.phase == .fetched) nsid z d
    if hold then waitIo k d
    else
      let lim := if x.total = 0 then y.cp else x.start
      let d := d.modSlot k fun x => { x with start := lim, total := x.sqe.nlb }
      let first := x.sqe.slba - zoneStart z
      let busy := decide (y.wp < first + x.sqe.nlb) && decide (first < min lim y.cp) && decide (y.wp < min lim y.cp) &&
        y.refDst.isNone && y.st != .full
      if busy then waitIo k d else serveRead k x ns d

/-- A read of a conventional namespace: first its overlap search, in normal service. -/
def convRead (k : Nat) (x : Slot) (ns : Ns) (d : Dev) : Dev :=
  if x.maint then serveRead k x ns d
  else if x.total = 0 then
    if d.is Fd.CAM_CTL_HOLD then waitIo k d
    else issueSearch k x (d.modSlot k fun x => { x with phase := .waiting, total := x.sqe.nlb })
  else if d.cam.searches.any (fun e => decide (e.1 = k)) || d.cam.waits.any (fun e => decide (e.1 = k)) then d
  else serveRead k x ns d

def readRow (k op : Nat) (d : Dev) : Except String Dev :=
  ioCommand k op (fun x ns d => if ns.zoned then zoneRead k x ns d else convRead k x ns d) d

/-- The channels a read touches are settled after it. -/
def afterRead (s : State) : State := forUpTo 48 (fun n s => afterChan n s) s

def execReadCmd (slot : Fin 131072) (s : State) : Host.Outcome State Fault Refusal := onDevThen s (readRow slot 0x02) afterRead
def execVerifyCmd (slot : Fin 131072) (s : State) : Host.Outcome State Fault Refusal := onDevThen s (readRow slot 0x0C) afterRead

/-! ### Results of overlap searches (R345, R346, R351) -/

/-- CAM_SEARCH_RESULT: on a miss the command proceeds, on a hit it waits for the winner. -/
def searchResult (k : Nat) (d : Dev) : Except String Dev :=
  match d.cam.searches.find? (fun e => decide (e.1 = k)) with
  | none => .error "search result"
  | some e =>
    let d := d.modCam fun c => { c with searches := listEraseFirst (fun y => decide (y.1 = k)) c.searches }
    match e.2 with
    | some h => .ok ((d.modCam fun c => { c with waits := c.waits ++ [(k, h.index)] }).add Fd.CAM_CNT_WAIT_OVERLAP 1)
    | none =>
      match d.slot? k with
      | some x =>
        (match d.ns? x.sqe.nsid.toNat with
          | some ns => if x.isWrite then .ok d else .ok (serveRead k x ns d)
          | none => .ok d)
      | none => .ok d

def execCamSearchResult (slot : Fin 131072) (s : State) : Host.Outcome State Fault Refusal :=
  onDevThen s (searchResult slot) afterRead

/-- The entry a command waits on no longer holds it. -/
def Dev.entryGone (d : Dev) (x : Slot) (i : Nat) : Bool := !(d.cam.entry i).hits (overlapKey x)

/-- CAM_RESEARCH: the winner is gone; the command searches again, or is left for the next stroke (R348). -/
def research (k : Nat) (d : Dev) : Except String Dev :=
  match d.cam.waits.find? (fun e => decide (e.1 = k)), d.slot? k with
  | some e, some x =>
    if !d.entryGone x e.2 || d.is Fd.CAM_CTL_HOLD then .error "search"
    else if d.cam.left = 0 then .ok d.deferSearch
    else .ok (issueSearch k x (d.modCam fun c => { c with waits := listEraseFirst (fun y => decide (y.1 = k)) c.waits }))
  | _, _ => .error "search"

def execCamResearch (slot : Fin 131072) (s : State) : Host.Outcome State Fault Refusal := onDev s (research slot)

/-! ### Freed cells (R107, R228, R333, R341) -/

/-- A staged sector is in cells, of this device or of a follower. -/
def Dev.stillStaged (d : Dev) (h : Nat) : Bool := decide (h = endOfChain) || (d.pool.cell h).alloc

/-- Staged sectors whose cells were freed are programmed: their ceiling share returns, the programmed front advances. -/
def settleFreed (d : Dev) : Dev :=
  let d := d.zm.zones.foldl (fun (d : Dev) e =>
    let gone := e.2.staged.filter fun x => !d.stillStaged x.2.1
    if gone.isEmpty then d
    else
      let nsid := e.1 / 2 ^ 20
      let z := e.1 % 2 ^ 20
      let owner := match d.ns? nsid with | some ns => ns.owner | none => 0
      let d := gone.foldl (fun d x => dropStage owner 1 x.2.2 d) d
      syncZone nsid z (d.modZone nsid z fun y => { y with staged := y.staged.filter fun x => d.stillStaged x.2.1 })) d
  d.zm.conv.foldl (fun (d : Dev) e =>
    match e.2 with
    | .cells h res =>
      if (d.pool.cell h).alloc then d
      else
        let owner := match d.ns? (e.1 / 2 ^ 40) with | some ns => ns.owner | none => 0
        let d := dropStage owner 1 res d
        d.modZm fun m => { m with
          conv := mapInsert m.conv e.1 (match mapFind m.convProg h with | some k => .media k true | none => .lost)
          convProg := mapErase m.convProg h }
    | _ => d) d

/-- The cells of a chain as far as they are allocated. -/
def Pool.chainCells (p : Pool) : Nat → Nat → List Nat
  | 0, _ => []
  | fuel + 1, h => if (p.cell h).alloc then h :: (if (p.cell h).next = endOfChain then [] else p.chainCells fuel (p.cell h).next) else []
termination_by structural fuel => fuel

/-- The unit of a zone's sector is lost at write: it is in its stripe's accumulator, and no program of it is posted (R265, W3). -/
def Dev.lostAtWrite (d : Dev) (z : Zone) (s : Nat) : Bool :=
  match z.row with
  | some (g, r) => d.memberLostAt g r (sectorMember r s) (s / 896) && (d.rebuilt g r (sectorMember r s) (s / 896)).isNone
  | none => false

/-- The chain holds a staged sector whose unit has not passed its program and proof reads: Thrumlux keeps its cells (R228). -/
def Dev.keepsCells (d : Dev) (h : Nat) : Bool :=
  let open' := (d.pool.chainCells (d.pool.cells.length + 1) h).filter fun k => !(d.pool.cell k).passed
  d.zm.zones.any (fun e => e.2.staged.any fun x => decide (x.2.1 ∈ open') && !d.lostAtWrite e.2 x.1) ||
    d.zm.conv.any fun e => match e.2 with | .cells k _ => decide (k ∈ open') | _ => false

/-- A write of CELL.FREE with what it means to the zone manager. Thrumlux makes none for cells it must keep (R228, log entry 119). -/
def cellFreed (g v : Nat) (d : Dev) : Dev := if d.keepsCells (bits v 25 0) then d else settleFreed (cellFree g v d)

/-- CELL_FREE: a write of CELL.FREE (R333). -/
def execCellFree (g : Fin 64) (v : Word) (s : State) : Host.Outcome State Fault Refusal :=
  onDev s (orRsv (decide (bits v.toNat 31 26 ≠ 0)) (cellFreed g v.toNat))

end Sys2Proof.Machine
end

