-- ==== Sys2Proof/Machine/Refold.lean ====
section
/-! DEFINITION. Refold: its checks, its slot, its commit (R132 to R138, R78, R147). -/

namespace Sys2Proof.Machine

/-! ### The command (Table 4-6) -/

/-- Reserved bits of the dwords of a refold. -/
def refoldRsv (x : Sqe) : Bool :=
  decide (bits x.cdw12.toNat 31 18 ≠ 0) || decide (bits x.cdw12.toNat 15 12 ≠ 0) || decide (bits x.cdw13.toNat 31 20 ≠ 0) ||
    decide (bits x.cdw13.toNat 15 0 ≠ 0) || decide (x.cdw14 ≠ 0) || decide (x.cdw15 ≠ 0)

def refoldCount (x : Sqe) : Nat := bits x.cdw12.toNat 11 0
def refoldReset (x : Sqe) : Bool := bit x.cdw12.toNat 16
def refoldFinish (x : Sqe) : Bool := bit x.cdw12.toNat 17

/-- Sectors of a list of ranges. -/
def rangeTotal (rs : List RefoldRange) : Nat := rs.foldl (fun a r => a + r.nlb) 0

/-- The zones of the ranges, each once. -/
def rangeZones (rs : List RefoldRange) : List Nat := rs.foldl (fun a r => listAdd a (r.slba / zoneSpan)) []

/-! ### The result (Table 4-7) -/

/-- Bytes 0 to 63 of the result: sectors copied and lost, the range at fault, the destination as it stands; the place of an unbound one,
which Table 4-7 does not give, reads 0xFF, 0xFFFF and 0 (log entry 109). -/
def refoldHead (d : Dev) (nsid z copied lost badRange : Nat) : List Byte :=
  let x := d.zone nsid z
  let (g, r, p) := match x.row with | some (g, r) => (g % 96, r, g / 96) | none => (0xFF, 0xFFFF, 0)
  layout 64 [(0, 8, copied), (8, 8, zoneStart z + x.shownWp), (16, 4, lost), (20, 2, badRange), (22, 1, x.shown.code), (23, 1, g),
             (24, 2, r), (26, 1, p)]

/-! ### The checks (R134) -/

/-- A range lies in one zone, below its write pointer, in a zone that holds data, and not in the destination. -/
def Dev.rangeOk (d : Dev) (nsid dst : Nat) (r : RefoldRange) : Bool :=
  let z := r.slba / zoneSpan
  let x := d.zone nsid z
  decide (0 < r.nlb) && decide (z = (r.slba + r.nlb - 1) / zoneSpan) && decide (r.slba + r.nlb ≤ zoneStart z + x.shownWp) &&
    x.st != .empty && x.st != .offline && decide (z ≠ dst)

/-- Two ranges share a sector. -/
def rangesMeet (a b : RefoldRange) : Bool := decide (a.slba < b.slba + b.nlb) && decide (b.slba < a.slba + a.nlb)

/-- The first range that `bad` holds of, given the ranges before it. -/
def firstBad (bad : List RefoldRange → RefoldRange → Bool) : List RefoldRange → Nat → List RefoldRange → Option Nat
  | _, _, [] => none
  | before, n, r :: rest => if bad before r then some n else firstBad bad (r :: before) (n + 1) rest

/-- A refusal of a refold before its binding: its status and the range at fault, 0xFFFF for none. The active-zone limit is the binding's
second check (R111). -/
def Dev.refoldRefusal (d : Dev) (ns : Ns) (x : Sqe) (rs : List RefoldRange) : Option (Cpl × Nat) :=
  let nsid := x.nsid.toNat
  let dst := x.slba / zoneSpan
  if (d.zone nsid dst).st != .empty || (d.zone nsid dst).refDst.isSome then some (stBadTransition, 0xFFFF)
  else match firstBad (fun _ r => decide (ns.size < r.slba + r.nlb)) [] 0 rs with
    | some n => some (stLbaRange, n)
    | none =>
      match firstBad (fun before r => !d.rangeOk nsid dst r || before.any (rangesMeet r)) [] 0 rs with
      | some n => some (stInvalidField, n)
      | none =>
        if zoneCap < rangeTotal rs then some (stZoneBoundary, 0xFFFF)
        else match firstBad (fun _ r =>
            let st := (d.zone nsid (r.slba / zoneSpan)).st
            refoldReset x && !(st == .full || st == .closed || st == .readOnly)) [] 0 rs with
          | some n => some (stBadTransition, n)
          | none => none

/-- The refold is refused whole: bytes 0 to 63 of the result are written, no zone changes. -/
def refuseRefold (k : Nat) (x : Slot) (c : Cpl) (n : Nat) (d : Dev) : Dev :=
  finish k c (d.send (.hostBytes x.fn x.sqe.cid.toNat (refoldHead d x.sqe.nsid.toNat (x.sqe.slba / zoneSpan) 0 0 n)))

/-- Refolds of a tenant that run. -/
def Dev.refoldsOf (d : Dev) (t : Nat) : Nat := (d.zm.refolds.filter fun j => j.running && decide (j.tenant = t)).length

/-- Refolds stand in fetch order (R135, R148). -/
def insertRefold (j : RefoldJob) : List RefoldJob → List RefoldJob
  | [] => [j]
  | y :: ys => if j.seq < y.seq then j :: y :: ys else y :: insertRefold j ys

/-- The refold is queued: its destination is bound and active, its sources are marked (R136, R224). -/
def queueRefold (k : Nat) (x : Slot) (ns : Ns) (rs : List RefoldRange) (at' : Nat × Nat) (d : Dev) : Dev :=
  let nsid := x.sqe.nsid.toNat
  let dst := x.sqe.slba / zoneSpan
  let d := bindZone nsid dst x.sqe.handle at' .explOpen d
  let d := d.modZone nsid dst fun z => { z with refDst := some x.seq }
  let d := (rangeZones rs).foldl (fun d z =>
    (abandonMigration (d.zone nsid z) d).modZone nsid z fun y => { y with refSrc := listAdd y.refSrc x.seq }) d
  let d := d.modZm fun m => { m with
    refolds := insertRefold { slot := some k, nsid := nsid, dst := dst, ranges := rs, resetSrc := refoldReset x.sqe,
                               finish := refoldFinish x.sqe, running := false, tenant := ns.owner, seq := x.seq,
                              chain := endOfChain, share := none } m.refolds }
  let d := d.flagIf (decide (d.rdb ns.owner Fd.TEN_T_REFOLD_CAP ≤ d.refoldsOf ns.owner)) Fd.TEN_EVT_CAP_WAIT
  syncZone nsid dst (d.modSlot k fun y => { y with phase := .asleep, committed := true })

/-- A Refold of the namespace fetched earlier has not been examined yet. -/
def Dev.refoldEarlier (d : Dev) (x : Slot) : Bool :=
  d.host.slots.any fun e => decide (e.2.seq < x.seq) && e.2.is false 0x83 && e.2.sqe.nsid == x.sqe.nsid && e.2.phase == .fetched && !e.2.conflict

/-- REFOLD: the whole command is checked; `rs` is what its buffer holds. While it waits it has not been passed to the zone manager: its
commit point, from which its destination is active (R93, R136), is its queueing. -/
def refold (k : Nat) (rs : List RefoldRange) (d : Dev) : Except String Dev :=
  onSlot k false 0x83 (fun x d =>
    let nsid := x.sqe.nsid.toNat
    let dst := x.sqe.slba / zoneSpan
    if rs.length ≠ refoldCount x.sqe || d.refoldEarlier x then .error "ranges"
    else match d.nsOf x.fn nsid with
      | none => .ok (finish k stInvalidNs d)
      | some ns =>
        if !ns.zoned then .ok (finish k stInvalidOpcode d)
        else if refoldRsv x.sqe || rs.isEmpty || decide (4092 < rs.length) || decide (x.sqe.slba % zoneSpan ≠ 0) then
          .ok (finish k stInvalidField d)
        else if ns.zones ≤ dst then .ok (finish k stLbaRange d)
        else if d.atFence x || (dst :: rangeZones rs).any (fun z => d.behindSend x nsid z || d.behindMark x nsid z) then .ok (waitIo k d)
        else match d.refoldRefusal ns x.sqe rs with
          | some (c, n) => .ok (refuseRefold k x c n d)
          | none =>
            if d.is Fd.ZONE_CTL_BIND_HOLD then .ok (waitIo k d)
            else if !d.zoneEntryRoom nsid dst then .ok (waitIo k (countEntryWait k d))
            else match d.bindCheck nsid ns x.sqe.handle with
              | .ok r => .ok (queueRefold k x ns rs r d)
              | .error c => .ok (refuseRefold k x c 0xFFFF (bindRefused c d))) d

def execRefoldCmd (slot : Fin 131072) (ranges : List RefoldRange) (s : State) : Host.Outcome State Fault Refusal :=
  onDev s (refold slot ranges)

/-! ### A refold slot (R135, R147) -/

/-- Refolds that run. -/
def Dev.refoldsRunning (d : Dev) : Nat := (d.zm.refolds.filter (·.running)).length
/-- Refold slots owed to floors that are not used. -/
def Dev.refoldOwed (d : Dev) : Nat :=
  (List.range 1024).foldl (fun a t => a + (d.rdb t Fd.TEN_T_REFOLD_FLOOR - d.refoldsOf t)) 0
/-- The tenant may take one of the 64 slots. -/
def Dev.refoldSlotFor (d : Dev) (t : Nat) : Bool :=
  let h := d.refoldsOf t
  decide (d.refoldsRunning < 64) &&
    (decide (h < d.rdb t Fd.TEN_T_REFOLD_FLOOR) ||
      (decide (h < d.rdb t Fd.TEN_T_REFOLD_CAP) && decide (d.refoldsRunning + d.refoldOwed < 64)))

/-- Sectors of the last partial program unit, held back from programming where the destination is not finished (R137). -/
def RefoldJob.heldBack (j : RefoldJob) : Nat := if j.finish || rangeTotal j.ranges = zoneCap then 0 else rangeTotal j.ranges % 64

/-- The refold's held-back unit has its cells and its ceiling share at once. -/
def Dev.refoldRoom (d : Dev) (j : RefoldJob) : Bool :=
  decide (j.heldBack = 0) || (d.canGrant none (4 * j.heldBack) && d.stageRoom j.tenant j.heldBack)

/-- The first queued refold that may start; a tenant's refolds start in fetch order. -/
def Dev.nextRefold (d : Dev) : List Nat → List RefoldJob → Option RefoldJob
  | _, [] => none
  | passed, j :: rest =>
    if !j.running && !decide (j.tenant ∈ passed) && d.refoldSlotFor j.tenant && d.refoldRoom j then some j
    else d.nextRefold (if j.running then passed else j.tenant :: passed) rest

/-- Changes a refold. -/
def Dev.modRefold (d : Dev) (seq : Nat) (f : RefoldJob → RefoldJob) : Dev :=
  d.modZm fun m => { m with refolds := m.refolds.map fun j => if j.seq = seq then f j else j }

/-- Refolds that wait at their tenant's cap leave the event of Table 5-16. -/
def refoldsAtCap (d : Dev) : Dev :=
  d.flagIf (d.zm.refolds.any fun j => !j.running && decide (d.rdb j.tenant Fd.TEN_T_REFOLD_CAP ≤ d.refoldsOf j.tenant)) Fd.TEN_EVT_CAP_WAIT

/-- REFOLD_START: a queued refold takes its slot and begins to copy as device work of its class. -/
def refoldStart (d : Dev) : Except String Dev :=
  if d.is Fd.ZONE_CTL_REFOLD_HOLD then .error "refold slot"
  else match d.nextRefold [] d.zm.refolds with
    | none => .error "refold slot"
    | some j =>
      let n := j.heldBack
      if n = 0 then .ok (refoldsAtCap (d.modRefold j.seq fun j => { j with running := true }))
      else
        let (h, d) := grantCells none (4 * n) d
        let (d, res) := takeStage j.tenant n d
        .ok (refoldsAtCap (d.modRefold j.seq fun j => { j with running := true, chain := h, share := some res }))

def execRefoldStart (s : State) : Host.Outcome State Fault Refusal := onDev s refoldStart

/-! ### The copy and its commit (R135, R137, R138, R240) -/

/-- The source sectors of a refold in the order of the copy. -/
def RefoldJob.sources (j : RefoldJob) : List Nat := j.ranges.flatMap fun r => (List.range r.nlb).map (r.slba + ·)

/-- A sector nothing was written to, as a copy writes it: zeros encrypted under the namespace's key. -/
def zeroCopy (nsid lba : Nat) (d : Dev) : Sector × Dev :=
  let k := d.keySlot (nsSlot nsid)
  let (n, d) := if k.mode = 2 then d.takeNonce else (0, d)
  (encryptSector k.key k.mode k.gen n { data := 0, md := writeMd nsid lba d.strk.count }, d)

/-- What a sector of a zone holds as it is copied: its ciphertext and metadata as they stand (R230); what a follower holds is its own to tell. -/
def sectorOf (nsid lba : Nat) (d : Dev) : Sector × Dev :=
  let z := d.zone nsid (lba / zoneSpan)
  let s := lba - zoneStart (lba / zoneSpan)
  match mapFind z.staged s with
  | some e => if e.1 = endOfChain then (freeSector d.nfree lba, d.tick 1) else (d.pool.sector e.1 0, d)
  | none =>
    match z.row with
    | some (g, r) =>
      if z.eod ≤ s then zeroCopy nsid lba d else ((mapFind d.media (d.sectorKey g r s)).getD (freeSector d.nfree lba), d.tick 1)
    | none => zeroCopy nsid lba d

/-- The place on this device's medium that a copy of a sector reads. -/
def Dev.mediaOf (d : Dev) (nsid lba : Nat) : Option Nat :=
  let z := d.zone nsid (lba / zoneSpan)
  let s := lba % zoneSpan
  match z.row with
  | some (g, r) => if g < 96 && s < z.eod && (mapFind z.staged s).isNone then some (d.sectorKey g r s) else none
  | none => none

/-- Writes P and Q of stripe `wl` of a row from its data sectors on the medium (R261, R262); a follower keeps its own parity. -/
def storeParity (g r wl : Nat) (d : Dev) : Dev :=
  if 96 ≤ g then d else
  let m0 := (wl + r) % 16
  (List.range 64).foldl (fun (d : Dev) j =>
    let (plane, page, cw) := unitPlace false wl j
    let at' (p : Nat) : Sector := mapGet zeroSector d.media (d.sectorKey g r (wl * 896 + p * 64 + j))
    let key (m : Nat) : Nat :=
      let (die, b) := d.mapped (memberDie g (m % 16)) r
      mediaKey die b plane page cw
    { d with media := mapInsert (mapInsert d.media (key m0) (dataSum false at' 14)) (key (m0 + 1)) (dataSum true at' 14) }) d

/-- Stores sector `s` of the zone on row `r` of group `g`; a follower is asked to (R457). -/
def storeSector (g r s : Nat) (x : Sector) (d : Dev) : Dev :=
  match groupDev g with
  | none => { d with media := mapInsert d.media (d.sectorKey g r s) x }
  | some p => askMedia { pos := p, id := 0, kind := .other, nsid := 0, zone := 0, first := s, n := 0, slot := 0, idx := 0 }
      [g, r, s, x.data.toNat, x.md.toNat] d

/-- Joins offsets in rising order into ranges. -/
def offsetRanges : List Nat → List (Nat × Nat)
  | [] => []
  | n :: rest =>
    match offsetRanges rest with
    | (a, l) :: more => if a = n + 1 then (n, l + 1) :: more else (n, 1) :: (a, l) :: more
    | [] => [(n, 1)]

/-- Copies the sectors that are not lost: programmed units go to the medium with P and Q of every complete stripe (of every
stripe, where the destination is finished, its last unit padded), the held-back unit into its cells. -/
def refoldCopy (j : RefoldJob) (at' : Nat × Nat) (lost : List Nat) (d : Dev) : Dev :=
  let src := j.sources
  let n := src.length
  let prog := n - j.heldBack
  let d := countReads (src.filterMap fun a => d.mediaOf j.nsid a) d
  let d := src.zipIdx.foldl (fun (d : Dev) e =>
    if e.2 ∈ lost then d
    else
      let (x, d) := sectorOf j.nsid e.1 d
      if e.2 < prog then storeSector at'.1 at'.2 e.2 x d else d.modPool fun p => p.putSector j.chain (e.2 - prog) x) d
  let pads := if j.finish then (64 - n % 64) % 64 else 0
  let d := (forUpTo pads (fun i d =>
    storeSector at'.1 at'.2 (n + i) (padSector d.nfree j.nsid (zoneStart j.dst + n + i) d.strk.count) d) d).tick pads
  forUpTo (if j.finish then (n + 895) / 896 else n / 896) (fun wl d => storeParity at'.1 at'.2 wl d) d

/-- RESET_SRC on one source zone (R138). -/
def refoldSource (owner nsid z : Nat) (d : Dev) : Dev :=
  match (d.zone nsid z).st with
  | .full | .closed => emptyZone owner nsid z d
  | .readOnly => (abandonMigration (d.zone nsid z) d).modZone nsid z fun x => { x with st := .offline }
  | _ => d

/-- The result of a refold: bytes 0 to 63 and an entry for each range. -/
def refoldResult (d : Dev) (j : RefoldJob) (lost : List Nat) : List Byte :=
  let n := rangeTotal j.ranges
  let entry (a : Nat × List Byte) (r : RefoldRange) : Nat × List Byte :=
    let l := (lost.filter fun i => decide (a.1 ≤ i) && decide (i < a.1 + r.nlb)).length
    (a.1 + r.nlb, a.2 ++ layout 16 [(0, 8, zoneStart j.dst + a.1), (8, 4, r.nlb), (12, 4, l)])
  refoldHead d j.nsid j.dst n lost.length 0xFFFF ++ (j.ranges.foldl entry (0, [])).2

/-- A source sector is marked lost already. -/
def Dev.lostSources (d : Dev) (j : RefoldJob) : List Nat :=
  (j.sources.zipIdx.filter fun e => (d.zone j.nsid (e.1 / zoneSpan)).isLost (e.1 % zoneSpan)).map (·.2)

/-- The commit of a refold, in one step. -/
def refoldEnd (j : RefoldJob) (at' : Nat × Nat) (lost : List Nat) (d : Dev) : Dev :=
  let n := rangeTotal j.ranges
  let hb := j.heldBack
  let lost := (List.range n).filter fun i => decide (i ∈ lost) || decide (i ∈ d.lostSources j)
  let d := refoldCopy j at' lost d
  let p := d.pool
  let full := j.finish || decide (n = zoneCap)
  let d := d.modZone j.nsid j.dst fun z =>
    { z with
      refDst := none
      st := if full then .full else .closed
      wp := if full then zoneCap else n
      cp := if full then zoneCap else n
      eod := n
      bornAt := d.strk.count
      lost := offsetRanges lost
      staged := forUpTo hb (fun i m => mapInsert m (n - hb + i) (p.follow (4 * i) j.chain, j.share.getD false)) z.staged }
  let d := moveOut j.nsid j.dst (n - hb) hb d
  let zs := rangeZones j.ranges
  let d := zs.foldl (fun d z => d.modZone j.nsid z fun y => { y with refSrc := y.refSrc.filter fun k => k ≠ j.seq }) d
  let owner := match d.ns? j.nsid with | some ns => ns.owner | none => 0
  let d := if j.resetSrc then zs.foldl (fun d z => refoldSource owner j.nsid z d) d else d
  let d := syncZone j.nsid j.dst d
  let d := (d.modZm fun m => { m with refolds := m.refolds.filter fun i => i.seq ≠ j.seq }).wr Fd.ZONE_EVT_REFOLD_DONE 1
  match j.slot.bind fun k => (d.slot? k).map fun x => (k, x) with
  | some (k, x) => finish k (successWith n) (d.send (.hostBytes x.fn x.sqe.cid.toNat (refoldResult d j lost)))
  | none => d

/-- REFOLD_COMMIT: every stripe of the copy of the refold with this fetch number is programmed and proof-read; `lost` are the
sectors of the copy that no tier recovered. -/
def refoldCommit (seq : Nat) (lost : List Nat) (d : Dev) : Except String Dev :=
  match d.zm.refolds.find? fun j => decide (j.seq = seq) with
  | some j =>
    (match j.running, (d.zone j.nsid j.dst).row with
      | true, some (g, r) => if (d.row g r).dirty = 0 then .ok (refoldEnd j (g, r) lost d) else .error "refold commit"
      | _, _ => .error "refold commit")
  | none => .error "refold commit"

def execRefoldCommit (seq : BitVec 64) (lost : List Nat) (s : State) : Host.Outcome State Fault Refusal :=
  onDev s (refoldCommit seq.toNat lost)

end Sys2Proof.Machine
end

