-- ==== Sys2Proof/Machine/Health.lean ====
section
/-! DEFINITION. Media health: lost members and their rebuild, block replacement, row migration, checkpoints (R116, R197, R222,
R224, R230, R232, R235, R236, R243, R244, R271, R272, R446, R447). -/

namespace Sys2Proof.Machine

/-! ### Lost members (R116, R271, R446, R447) -/

/-- Writes of a zone that went Offline and have not reached their commit point complete as if fetched afterwards, and so do the reads that are
being served (R116). -/
def failWriters (nsid z : Nat) (d : Dev) : Dev :=
  let d := (d.zoneWriters nsid z).foldl (fun d e => finish e.1 stOffline (giveBack e.1 d)) d
  d.modHost fun h => { h with slots := h.slots.map fun e =>
    (e.1, if (e.2.sqe.op = 0x02 || e.2.sqe.op = 0x0C) && e.2.phase == .moving && touches e.2 nsid z then { e.2 with bad := some stOffline }
      else e.2) }

/-- A refold ends without its copy: what it holds is given back, its sources are no longer marked, and its command is refused (R116). -/
def dropRefold (j : RefoldJob) (c : Cpl) (n : Nat) (d : Dev) : Dev :=
  let d := d.release j.chain
  let d := match j.share with | some r => dropStage j.tenant j.heldBack r d | none => d
  let d := (rangeZones j.ranges).foldl (fun d y => d.modZone j.nsid y fun x => { x with refSrc := x.refSrc.filter fun k => k ≠ j.seq }) d
  let d := d.modZm fun m => { m with refolds := m.refolds.filter fun i => i.seq ≠ j.seq }
  let d := d.modZone j.nsid j.dst fun x => { x with refDst := none }
  let d := if (d.zone j.nsid j.dst).st == .offline then d else emptyZone j.tenant j.nsid j.dst d
  match j.slot.bind fun k => (d.slot? k).map fun x => (k, x) with
  | some (k, x) => refuseRefold k x c n d
  | none => d

/-- Refolds of a zone that went Offline complete as if fetched afterwards: its destination is not Empty, or its range holds no data (R116,
R134). -/
def failRefolds (nsid z : Nat) (d : Dev) : Dev :=
  d.zm.refolds.foldl (fun d j =>
    if j.nsid ≠ nsid then d
    else if j.dst = z then dropRefold j stBadTransition 0xFFFF d
    else match j.ranges.findIdx? fun r => decide (r.slba / zoneSpan = z) with
      | some n => dropRefold j stInvalidField n d
      | none => d) d

/-- The staged data of a zone is recorded as lost with cause 0x04 and given up. -/
def loseZoneStaged (nsid z : Nat) (d : Dev) : Dev :=
  let owner := match d.ns? nsid with | some ns => ns.owner | none => 0
  let d := (offsetRanges ((d.zone nsid z).staged.map (·.1))).foldl
    (fun d r => deferredError nsid (zoneStart z + r.1) r.2 4 d) d
  discardStaged owner nsid z d

/-- A zone turns Offline (R116). -/
def zoneOffline (nsid z cause : Nat) (d : Dev) : Dev :=
  let x := d.zone nsid z
  if x.st == .offline then d
  else
    let d := match x.row with | some (g, r) => abandonRowWork g r d | none => d
    let d := loseZoneStaged nsid z (failWriters nsid z d)
    let d := d.modZone nsid z fun y => { y with st := .offline, recs := y.recs.filter (·.done), marked := none }
    syncZone nsid z (reportZone nsid z true cause (failRefolds nsid z d))

/-- Stripes of a row that hold programmed data. -/
def Dev.committedStripes (d : Dev) (g r : Nat) : Nat :=
  match (d.row g r).bound with
  | some (nsid, z) => ((d.zone nsid z).front + 895) / 896
  | none => 0

/-- Stripes of a zone whose P and Q are complete: those it has filled, and the last one too once it takes no more data (R115, R124). -/
def Zone.wholeStripes (z : Zone) : Nat :=
  if (z.st == .full || z.st == .readOnly || z.st == .offline) && z.staged.isEmpty then (z.eod + 895) / 896 else z.front / 896

/-- Programmed sectors of the zone, on lost members, of a stripe without its P and Q. -/
def Dev.brokenSectors (d : Dev) (g r nsid z : Nat) : List Nat :=
  let x := d.zone nsid z
  ((List.range (x.eod - 896 * x.wholeStripes)).map (896 * x.wholeStripes + ·)).filter fun s =>
    decide (sectorMember r s ∈ (d.row g r).lost) && (mapFind x.staged s).isNone && !x.isLost s

/-- What cannot be solved any more, three members being lost, is recorded as cause 0x02 (Table 3-10), and the zone is marked (R115). -/
def loseStripe (g r nsid z : Nat) (d : Dev) : Dev :=
  let ss := d.brokenSectors g r nsid z
  if ss.isEmpty then d
  else
    let d := (offsetRanges ss).foldl (fun d e =>
      (deferredError nsid (zoneStart z + e.1) e.2 2 d).modZone nsid z fun y => { y with lost := listAdd y.lost e }) d
    markZone nsid z 0 d

/-- A member of a bound row is lost: its rebuild is listed with its destination. With the third loss what the open stripe held is lost, and a
zone with a complete stripe, which can no longer be read, turns Offline (R97, R116). -/
def loseMember (g r m cause : Nat) (d : Dev) : Dev :=
  let x := d.row g r
  if m ∈ x.lost then d
  else
    let d := faultOn 7 (d.modRow g r fun x => { x with lost := x.lost ++ [m] })
    match x.bound with
    | some (nsid, z) =>
      let d := if 2 ≤ x.lost.length then loseStripe g r nsid z d else d
      if 2 ≤ x.lost.length && 0 < (d.zone nsid z).wholeStripes then zoneOffline nsid z cause d
      else
        let dest := d.rebuildDest g r m
        d.modMed fun y => { y with
          rebuild := y.rebuild ++ [{ group := g, row := r, member := m, dest := dest, front := d.committedStripes g r }] }
    | none => d

/-- Members of bound rows that stand on a die. -/
def Dev.membersOn (d : Dev) (die : Nat) : List (Nat × Nat × Nat) :=
  (d.med.rows.filter fun e => e.2.bound.isSome).flatMap fun e =>
    let g := e.1 / 4096
    let r := e.1 % 4096
    ((List.range 16).filter fun m => decide ((d.mapped (memberDie g m) r).1 = die)).map fun m => (g, r, m)

/-- What takes a die out of service ends its replacement and loses its members (R232, R446). -/
def loseDie (die cause : Nat) (d : Dev) : Dev :=
  let mem := d.membersOn die
  let d := d.modMed fun m => { m with
    replace := mapErase m.replace die
    wanted := m.wanted.filter fun w => w.die ≠ die
    owed := m.owed.filter fun o => dieNumber o.1 o.2.1.target ≠ die
    proving := m.proving.filter fun p => dieNumber p.ch p.desc.target ≠ die
    erases := m.erases.filter fun e => e.1 / 4096 ≠ die
    retiring := m.retiring.filter fun x => x.1 ≠ die
    rebuild := m.rebuild.map fun x => match x.dest with
      | some (y, _) => if y = die then { x with dest := none } else x
      | none => x }
  mem.foldl (fun d x => loseMember x.1 x.2.1 x.2.2 cause d) d

/-- Entries of a list of sheets within a window. -/
def Dev.within (d : Dev) (window : Nat) (l : List Nat) : Nat := (l.filter fun k => decide (d.sheet < k + window)).length

/-- The cause for which Thrumlux retires a die (R235): its counts, else an operator's request. -/
def Dev.dieCause (d : Dev) (die : Nat) : Nat :=
  let h := mapGet DieHealth.fresh d.med.dies die
  if d.thresh 9 ≤ d.within 1024 h.tmoAt then 7
  else if d.thresh 10 ≤ d.within 1024 (h.unrec.map (·.2)) then 8
  else if d.thresh 11 ≤ d.within 65536 h.grown then 0xA
  else 0xC

/-- The record and the counts of a retired die (R233, R236). -/
def dieRetired (die cause : Nat) (d : Dev) : Dev :=
  let d := badRecord die 0xFFFF cause 3 0xFF 0xFFFF 0 d
  let d := d.modMed fun m => { m with
    dies := mapMod DieHealth.fresh m.dies die fun h => { h with cause := cause, last := d.strk.count }
    chanDies := mapMod [] m.chanDies (die / 32) (· ++ [d.sheet]) }
  loseDie die cause (faultOn 1 d)

/-- A write of SEQ_DIE_CTL and what a retirement brings with it. -/
def dieCtl (ch v : Nat) (d : Dev) : Dev :=
  let t := d.rdc ch Fd.SEQ_DIE_SEL_TARGET
  let new := (d.die ch t).st != .retired
  let d := dieCtlWrite ch v d
  if new && (d.die ch t).st == .retired then dieRetired (dieNumber ch t) (d.dieCause (dieNumber ch t)) d else d

def dieCtlStore (ch : Fin 48) (v : Nat) (s : State) : Host.Outcome State Fault Refusal :=
  onDevThen s (orRsv (decide (bits v 31 2 ≠ 0)) (dieCtl ch v)) (afterChan ch)

/-- DIE_RETIRE: a write of SEQ_DIE_CTL with RETIRE = 1. -/
def execDieRetire (ch : Fin 48) (v : Word) (s : State) : Host.Outcome State Fault Refusal :=
  dieCtlStore ch (setBits v.toNat 1 1 1) s
/-- DIE_PRESENT_WRITE: a write of SEQ_DIE_CTL. -/
def execDiePresentWrite (ch : Fin 48) (v : Word) (s : State) : Host.Outcome State Fault Refusal :=
  dieCtlStore ch v.toNat s

/-- The cause for which Thrumlux retires a channel (R236). -/
def Dev.chanCauseOf (d : Dev) (ch : Nat) : Nat := if d.thresh 12 ≤ d.within 65536 (mapGet [] d.med.chanDies ch) then 0xB else 0xC

/-- Time-outs in a row across a channel's dies that make it a fault of the channel (Table 16-5). -/
def chanTimeouts : Nat := 16

/-- The cause for which a count retires a channel, 0 where none does: CH_DIES retired dies (R236), or time-outs in a row (Table 16-5, log
entry 130). -/
def Dev.countedCause (d : Dev) (ch : Nat) : Nat :=
  if d.chanCauseOf ch = 0xB then 0xB else if chanTimeouts ≤ (d.chan ch).tmoRun then 7 else 0

/-- Targets of a channel whose dies are there and not retired. -/
def Dev.liveTargets (d : Dev) (ch : Nat) : List Nat :=
  (List.range 32).filter fun t => (d.die ch t).st != .absent && (d.die ch t).st != .retired

/-- A channel is retired: one record, and the loss of its 32 dies (R236, R446). -/
def chanRetired (ch cause : Nat) (dies : List Nat) (d : Dev) : Dev :=
  let d := badRecord (32 * ch) 0xFFFF cause 4 0xFF 0xFFFF 0 d
  let d := d.modMed fun m => { m with chanCause := mapInsert m.chanCause ch cause }
  dies.foldl (fun d t => loseDie (dieNumber ch t) cause d) (faultOn 1 d)

/-- Dies that have met a count of R235 are retired (at a sheet boundary, log entry 117), and channels that a count retires (R236, R446). -/
def retireCounted (d : Dev) : Dev :=
  let d := (d.med.dies.map (·.1)).foldl (fun d die =>
    if d.dieHealthy die && d.dieCause die ≠ 0xC then dieRetired die (d.dieCause die) (retireDie (die / 32) (die % 32) d) else d) d
  forUpTo 48 (fun ch d =>
    if !(d.chan ch).retired && d.countedCause ch ≠ 0 then chanRetired ch (d.countedCause ch) (d.liveTargets ch) (retireChan ch d) else d) d

/-- A write of SEQ_CTL and what a retirement brings with it. -/
def seqCtl (ch v : Nat) (d : Dev) : Dev :=
  let new := !(d.chan ch).retired
  let dies := d.liveTargets ch
  let d := seqCtlWrite ch v d
  if new && (d.chan ch).retired then chanRetired ch (d.chanCauseOf ch) dies d else d

def seqCtlStore (ch : Fin 48) (v : Nat) (s : State) : Host.Outcome State Fault Refusal :=
  onDevThen s (orRsv (decide (bits v 31 3 ≠ 0)) (seqCtl ch v)) (afterChan ch)

/-- CHANNEL_RETIRE: a write of SEQ_CTL with RETIRE = 1. -/
def execChannelRetire (ch : Fin 48) (v : Word) (s : State) : Host.Outcome State Fault Refusal :=
  seqCtlStore ch (setBits v.toNat 1 1 1) s

/-! ### Rebuild (R271) -/

/-- The payload of position `p`, codeword `j` of a unit, of a stripe, solved from the others that are at hand (R266). -/
def Dev.solved (d : Dev) (g r wl j p : Nat) : Sector :=
  let m0 := (wl + r) % 16
  let posOf (m : Nat) : Nat := (m + 16 - m0 + 14) % 16
  let short := ((d.row g r).short.filter fun x => decide (x.2 ≤ wl)).map (·.1)
  let lost := ((d.row g r).lost ++ short).map posOf
  let other := match lost.find? (fun q => q ≠ p) with | some q => q | none => if p = 15 then 14 else 15
  let mask := (List.range 16).foldl (fun a q => if q = p || q = other then a else a + 2 ^ q) 0
  let (plane, page, cw) := unitPlace false wl j
  solve mask p fun q =>
    if q = p || q = other then zeroSector
    else
      let (die, b) := d.mapped (memberDie g ((m0 + 2 + q) % 16)) r
      mapGet zeroSector d.media (mediaKey die b plane page cw)

/-- A committed sector that cannot be rebuilt is lost, with its record and event (R97, R239, R256). -/
def rebuildLost (g r wl p j : Nat) (d : Dev) : Dev :=
  match (d.row g r).bound with
  | some (nsid, z) =>
    let s := (wl * 14 + p) * 64 + j
    let x := d.zone nsid z
    if 14 ≤ p || x.eod ≤ s || (mapFind x.staged s).isSome || x.isLost s then d
    else
      let d := healthEvent 3 8 0xFFFF r g nsid z d
      let d := d.modZone nsid z fun y => { y with lost := listAdd y.lost (s, 1) }
      markZone nsid z 0 (deferredError nsid (zoneStart z + s) 1 2 d)
  | none => d

/-- Rebuilds the unit of stripe `wl` on the destination, from the other members; of a stripe whose P and Q stand in its accumulator, from that
too, which brings back what was programmed. -/
def rebuildUnit (x : Rebuild) (dest : Nat × Nat) (wl : Nat) (d : Dev) : Dev :=
  let p := (x.member + 16 - (wl + x.row) % 16 + 14) % 16
  let whole := match (d.row x.group x.row).bound with | some (nsid, z) => decide (wl < (d.zone nsid z).wholeStripes) | none => true
  let (die, b) := d.mapped (memberDie x.group x.member) x.row
  let d := countReads ((List.range 16).flatMap fun m =>
    if m ∈ (d.row x.group x.row).lost then [] else
    let (y, c) := d.mapped (memberDie x.group m) x.row
    (List.range 16).map fun i => mediaKey y c (i / 4) (4 * wl + i % 4) 0) d
  (List.range 64).foldl (fun d j =>
    let (plane, page, cw) := unitPlace false wl j
    let y := if whole then d.solved x.group x.row wl j p else mapGet zeroSector d.media (mediaKey die b plane page cw)
    let d := if p < 14 && whole && !sectorOk y then rebuildLost x.group x.row wl p j d else d
    { d with media := mapInsert d.media (mediaKey dest.1 dest.2 plane page cw) y }) d

/-- Any row still lacks a member. -/
def rebuildFlag (d : Dev) : Dev :=
  if d.med.rows.any (fun e => e.2.bound.isSome && !e.2.lost.isEmpty) then d else faultOff 7 d

/-- REBUILD_SWITCH: the destination replaces the lost member as a remap. -/
def rebuildSwitch (g r m : Nat) (d : Dev) : Except String Dev :=
  match d.med.rebuild.find? fun x => decide (x.group = g) && decide (x.row = r) && decide (x.member = m) with
  | some x =>
    (match x.dest with
      | some p =>
        let d := forUpTo x.front (fun wl d => rebuildUnit x p wl d) d
        let d := remapTo (memberDie g m) r p (mapGet DieHealth.fresh d.med.dies (memberDie g m)).cause 0 d
        let d := d.modRow g r fun y => { y with lost := y.lost.filter fun k => k ≠ m }
        .ok (rebuildFlag (d.modMed fun y => { y with rebuild := y.rebuild.filter fun k => k != x }))
      | none => .error "rebuild switch")
  | none => .error "rebuild switch"

def execRebuildSwitch (g : Fin 96) (r : Fin 3600) (m : Fin 16) (s : State) : Host.Outcome State Fault Refusal :=
  onDev s (rebuildSwitch g r m)

/-! ### Block replacement (R230, R232) -/

/-- The places of a block that hold something programmed. -/
def Dev.blockKeys (d : Dev) (die b : Nat) : List Nat := (d.media.filter fun e => inBlock die b e.1).map (·.1)
/-- A block holds something programmed. -/
def Dev.blockUsed (d : Dev) (die b : Nat) : Bool := d.media.any fun e => inBlock die b e.1

/-- Step 2 of a replacement: the spare is erased and its erase proofed, unless it is already erased; nothing is copied yet (R230). -/
def readySpare (die : Nat) (p : Replace) (d : Dev) : Dev :=
  let used := d.blockUsed die p.spare
  let d := d.modMed fun m => { m with replace := mapInsert m.replace die { p with done := 0, ready := !used } }
  if used then orderErase die p.spare 1 (decide (p.block < 14)) d else d

/-- Replacements that a loss of power cut short begin again at step 2 (R232), and old blocks whose erase was awaited are erased. -/
def restartReplacements (d : Dev) : Dev :=
  let erases := d.med.erases
  let d := d.modMed fun m => { m with heard := [], proving := [], owed := [], erases := [] }
  let d := erases.foldl (fun d e =>
    if d.serving (e.1 / 4096) (e.1 % 4096) && e.1 % 4096 < 3364 then d
    else orderErase (e.1 / 4096) (e.1 % 4096) 1 (decide (e.1 % 4096 < 14)) d) d
  d.med.replace.foldl (fun (d : Dev) e => readySpare e.1 e.2 d) d

/-- No spare is free for a block that must be replaced: its member is lost to the row from the failed wordline on. A zone's row is worn (W3), a
conventional row takes no new data any more (R219). -/
def wantSpare (w : Wanted) (d : Dev) : Dev :=
  let g := groupOf (w.home / 32) (w.home % 32)
  let d := d.modRow g w.role fun y => { y with
    short := listAdd y.short (w.home / 32 % 16, w.wl), worn := if w.role < 14 then some 0xD else y.worn }
  wornMark g w.role 0xD d

/-- BLOCK_REPLACEMENT: the die's first block that must be replaced gets its spare, its record made durable (step 1 of R230), or marks its row
worn for want of one. -/
def blockReplacement (die : Nat) (d : Dev) : Except String Dev :=
  match d.med.wanted.find? (fun w => decide (w.die = die)), mapFind d.med.replace die with
  | some w, none =>
    let (_, old) := d.mapped w.home w.role
    let d := d.modMed fun m => { m with wanted := listEraseFirst (fun x => x == w) m.wanted }
    (match d.bestSpare die with
      | none => .ok (wantSpare w d)
      | some b =>
        let d := badRecord die old w.cause (if w.cause = 2 || w.cause = 4 then 2 else 0) 0xFF b (d.wearOf die old) d
        .ok (readySpare die
          { home := w.home, block := w.role, old := old, spare := b, cause := w.cause, first := w.wl, done := 0, ready := false } d))
  | _, _ => .error "block replacement"

def execBlockReplacement (die : Fin 1536) (s : State) : Host.Outcome State Fault Refusal := onDev s (blockReplacement die)

/-- A codeword of a block as the copy finds it: the decoder tiers give out what the medium holds, or P and Q rebuild it (step 3 of R230). -/
def Dev.copied (d : Dev) (p : Replace) (key : Nat) (x : Sector) : Sector :=
  let g := groupOf (p.home / 32) (p.home % 32)
  let page := key / 4 % 4096
  let plane := key / 4 / 4096 % 4
  let pos := positionOf (memberOf (p.home / 32)) (page / 4) p.block
  if p.block < 14 || 14 ≤ pos || sectorOk x then x else d.solved g p.block (page / 4) (plane * 16 + page % 4 * 4 + key % 4) pos

/-- Copies the wordlines of a block below the failed one to the spare. -/
def copyBlock (die : Nat) (p : Replace) (d : Dev) : Dev :=
  let slc := decide (p.block < 14)
  let moved := d.media.filterMap fun e =>
    if inBlock die p.old e.1 && decide (pageWordline slc (e.1 / 4 % 4096) < p.first) then some (moveKey die p.old p.spare e.1, d.copied p e.1 e.2)
    else none
  countReads (d.blockKeys die p.old) { d with media := moved.foldl (fun m e => mapInsert m e.1 e.2) d.media }

/-- REPLACEMENT_SWITCH: the copy is whole, and the remap names the spare (R230; the copy is made at this step, log entry 116). -/
def replacementSwitch (die : Nat) (d : Dev) : Except String Dev :=
  match mapFind d.med.replace die with
  | some p =>
    if p.ready then .ok (settleOld (die / 32) (swapBlock die p (copyBlock die p d))) else .error "replacement switch"
  | none => .error "replacement switch"

def execReplacementSwitch (die : Fin 1536) (s : State) : Host.Outcome State Fault Refusal := onDev s (replacementSwitch die)

/-! ### Row migration (R224) -/

/-- The most worn erased free row of a group below E_RATED. -/
def Dev.hotRow (d : Dev) (g : Nat) : Option Nat :=
  (List.range rowCount).foldl (fun a i =>
    let r := firstRow + i
    if d.rowFree g r && decide ((d.row g r).dirty = 0) && !d.extended g r then
      match a with
      | none => some r
      | some b => if d.rowWear g b < d.rowWear g r then some r else some b
    else a) none

/-- The least worn row of a group that is bound to a Full zone not reset within the last 1,048,576 sheets; one that was never reset is so too. -/
def Dev.coldRow (d : Dev) (g : Nat) : Option (Nat × Nat × Nat) :=
  d.med.rows.foldl (fun a e =>
    match e.2.bound with
    | some (nsid, z) =>
      let x := d.zone nsid z
      let r := e.1 % 4096
      if e.1 / 4096 = g && x.st == .full && x.marked.isNone &&
          decide (x.resetAt = 0 || x.resetAt + 1048576 * 256 ≤ d.strk.count) then
        match a with
        | none => some (r, nsid, z)
        | some (b, _, _) => if d.rowWear g r < d.rowWear g b then some (r, nsid, z) else a
      else a
    | none => a) none

/-- The free row is more worn than the cold zone's row by more than MIGRATE. -/
def Dev.worthMove (d : Dev) (g hot cold : Nat) : Bool := decide (d.rowWear g cold + d.thresh 6 < d.rowWear g hot)

/-- The cold zone of a group is to move into its most worn free row. -/
def migrateRow (g : Nat) (hot : Option Nat) (c : Option (Nat × Nat × Nat)) (d : Dev) : Except String Dev :=
  match hot, c with
  | some hot, some (cold, nsid, z) =>
    if d.worthMove g hot cold then
      .ok ((fillMembers g hot d).modMed fun m => { m with
        migrate := m.migrate ++ [{ group := g, src := cold, dst := hot, nsid := nsid, zone := z }] })
    else .error "row migration"
  | _, _ => .error "row migration"

/-- A row of the group is moving. -/
def Dev.moving (d : Dev) (g : Nat) : Bool := d.med.migrate.any fun m => decide (m.group = g)

/-- ROW_MIGRATION: one move at a time in a group. -/
def rowMigration (g : Nat) (d : Dev) : Except String Dev :=
  if d.moving g then .error "row migration" else migrateRow g (d.hotRow g) (d.coldRow g) d

def execRowMigration (g : Fin 96) (s : State) : Host.Outcome State Fault Refusal := onDev s (rowMigration g)

/-- MIGRATION_SWITCH: every stripe is programmed and proof-read on the new row; the binding switches in one step. -/
def migrationSwitch (g : Nat) (d : Dev) : Except String Dev :=
  match d.med.migrate.find? fun m => decide (m.group = g) with
  | some m =>
    if !(d.zone m.nsid m.zone).staged.isEmpty then .error "migration switch"
    else
      let x := d.zone m.nsid m.zone
      let d := d.modMed fun y => { y with migrate := y.migrate.filter fun k => k != m }
      let d := countReads ((List.range x.eod).map fun s => d.sectorKey g m.src s) d
      let d := forUpTo x.eod (fun s (d : Dev) =>
        match mapFind d.media (d.sectorKey g m.src s) with
        | some y => storeSector g m.dst s y d
        | none => d) d
      let d := forUpTo ((x.eod + 895) / 896) (fun wl d => storeParity g m.dst wl d) d
      let d := d.modRow g m.dst fun r => { r with bound := some (m.nsid, m.zone) }
      let d := d.modZone m.nsid m.zone fun z => { z with row := some (g, m.dst) }
      .ok (releaseRow m.nsid g m.src d)
  | none => .error "migration switch"

def execMigrationSwitch (g : Fin 96) (s : State) : Host.Outcome State Fault Refusal := onDev s (migrationSwitch g)

/-! ### Checkpoints (R222) -/

/-- The queue quotas in force (R79): the PFs', and those that were given to VFs. -/
def Dev.quotaList (d : Dev) : SMap (Nat × Nat) :=
  let q (f : Nat) : Nat × (Nat × Nat) := (f, ((d.func f).sqQuota, (d.func f).cqQuota))
  q 0 :: ((d.host.funcs.map fun e => q e.1).filter fun e => !isPf e.1 && decide (e.2 ≠ (0, 0))) ++ (if d.dual then [q 1025] else [])

/-- What the metadata blocks, or a flush, keep of the tables (R222, R233, R300, R434, R440). -/
def Dev.tables (d : Dev) : Tables :=
  { zm := d.zm, med := d.med
    ten := d.regs.filter fun e => keyIn (Rg.CIPH_SLOT :: regsTen) e.1
    quotas := d.quotaList
    dwe := d.host.dwe, dweSeq := d.host.dweSeq, dweLost := d.host.dweLost, dweTotal := d.host.dweTotal
    keys := (d.ciph.slots.filter fun e => decide (e.1 ≠ importSlot)) }

/-- A change is made durable in the metadata blocks (R233). -/
def makeDurable (d : Dev) : Dev := { d with nvm := { d.nvm with tables := some d.tables } }

/-- METADATA_CHECKPOINT: wear, level and read counts go to the metadata blocks; Thrumlux makes one 65,536 sheets after the last at the latest. -/
def metadataCheckpoint (d : Dev) : Dev :=
  let d := d.modMed fun m => { m with ckpt := d.sheet, ckptWear := m.wear }
  { d with nvm := { d.nvm with tables := some d.tables, sheet := d.sheet } }

/-- Sheets within which a checkpoint is made. -/
def checkpointEvery : Nat := 65536
/-- A checkpoint that no command made in time is made now. -/
def checkpointDue (d : Dev) : Dev := if d.med.ckpt + checkpointEvery ≤ d.sheet then metadataCheckpoint d else d

def execMetadataCheckpoint (s : State) : Host.Outcome State Fault Refusal := onDev s (always metadataCheckpoint)

/-! ### Reports (R243, R244) -/

/-- Healthy dies. -/
def Dev.healthyDies (d : Dev) : List Nat := (List.range 1536).filter d.dieHealthy

/-- Available Spare (Table 8-7). -/
def Dev.availableSpare (d : Dev) : Nat :=
  d.healthyDies.foldl (fun a x => min a ((d.freeSpares x).length * 100 / 236)) 100

/-- Wear points of the blocks that serve zone rows on healthy dies, block by block. -/
def Dev.zoneWears (d : Dev) : List Nat :=
  (d.med.wear.filter fun e =>
    let (_, r) := d.roleOf (e.1 / 4096) (e.1 % 4096)
    14 ≤ r && r < 3364 && d.dieHealthy (e.1 / 4096) && d.serving (e.1 / 4096) (e.1 % 4096)).map (·.2)
/-- Their sum. -/
def Dev.zoneWear (d : Dev) : Nat := d.zoneWears.foldl (· + ·) 0

/-- Mean wear of the zone-row blocks of healthy dies. -/
def Dev.meanWear (d : Dev) : Nat := d.zoneWear / (rowCount * d.healthyDies.length)

/-- Percentage Used: rounded up, at most 255. -/
def Dev.percentUsed (d : Dev) : Nat :=
  let n := rowCount * d.healthyDies.length
  if n = 0 then 0 else min 255 ((d.zoneWear * 100 + (n * d.thresh 0 - 1)) / (n * d.thresh 0))

/-- The milestones of Percentage Used that a rise passes. -/
def milestones (old new : Nat) : List Nat := [50, 75, 90, 100, 110, 125].filter fun m => decide (old ≤ m) && decide (m < new)

/-- Critical Warning bits 0, 2 and 4 (Table 8-7, R444); bit 1 is the temperature's. -/
def Dev.critMedia (d : Dev) : Nat :=
  b2n (decide (d.availableSpare < d.thresh 8)) +
    4 * b2n (d.zm.zones.any (fun e => e.2.st == .offline) || d.med.rows.any (fun e => e.2.bound.isSome && !e.2.lost.isEmpty)) +
    16 * b2n (bit (d.regGet Rg.SYS_FAULT 0 0) 8)

/-- Events of Available Spare, at each crossing of its threshold, and of Percentage Used, at each rise past a milestone (R244). -/
def healthWatch (d : Dev) : Dev :=
  let low := !d.healthyDies.isEmpty && decide (d.availableSpare < d.thresh 8)
  let d := if low != d.med.spareLow then healthEvent 7 0 0xFFFF 0xFFFF 0xFF 0 0xFFFFFFFF d else d
  let p := d.percentUsed
  let d := (milestones d.med.used p).foldl (fun d m => healthEvent 8 m 0xFFFF 0xFFFF 0xFF 0 0xFFFFFFFF d) d
  d.modMed fun y => { y with spareLow := low, used := p }

end Sys2Proof.Machine
end

