-- ==== Sys2Proof/Machine/FuncLife.lean ====
section
/-! DEFINITION. The life of functions and ports: enabling, disabling, FLR, VF Enable, link, shutdown, IDE failure; the registers
that move functions and set classes (R66 to R71, R101, R102, R141, R149, R157, R159 to R163). -/

namespace Sys2Proof.Machine

/-! ### A function is disabled (R101, R159) -/

/-- A descriptor of the host read path that serves command slot `k`. -/
def Desc.serves (x : Desc) (k : Nat) : Bool := decide (bits x.ctx.toNat 31 30 = 0) && decide (bits x.ctx.toNat 29 13 = k)

/-- A held descriptor of command slot `k` is detached. -/
def QDesc.detach (q : QDesc) (k : Nat) : QDesc :=
  if Desc.serves q.desc k && decide (Desc.op q.desc = 1) && !q.auto then { q with detached := true } else q

/-- A codeword of command slot `k` is detached. -/
def EccItem.detach (i : EccItem) (k : Nat) : EccItem :=
  if bits i.ctx.toNat 31 30 = 0 && bits i.ctx.toNat 29 13 = k && !i.proof then { i with detached := true } else i

/-- The reads of command slot `k` that a die holds are detached. -/
def Die.detach (x : Die) (k : Nat) : Die :=
  { x with
    queue := x.queue.map (·.detach k)
    rd := x.rd.map fun r => { r with q := r.q.detach k }
    held := x.held.map fun h => { h with q := h.q.detach k } }

/-- A reconstruction for command slot `k` runs on, and its output goes nowhere. -/
def ParJob.detach (j : ParJob) (k : Nat) : ParJob :=
  if bits j.words.jOut 31 30 = 0 && bits j.words.jOut 29 13 = k then { j with words := { j.words with d3 := 0xC0000000 } } else j

/-- A reconstruction that races for the record of a detached codeword is abandoned (R257). -/
def ParJob.abandon (j : ParJob) (d : Dev) (k : Nat) : ParJob :=
  match j.words.jEsc.bind (mapFind d.ecc.escs) with
  | some r => if j.words.jOp = 4 && (r.item.detach k).detached && j.status.isNone then { j with status := some 5 } else j
  | none => j

/-- Detaches the media work of command slot `k`: it runs to its end, its data is discarded at the decoder output, nothing of it is
deciphered, and its waits end (R159). -/
def detachRead (k : Nat) (d : Dev) : Dev :=
  let d : Dev := { d with
    chans := d.chans.map fun e => (e.1, { e.2 with dies := e.2.dies.map fun y => (y.1, y.2.detach k) })
    ecc := { d.ecc with
      items := d.ecc.items.map (·.detach k)
      escs := d.ecc.escs.filter fun e => !(e.2.item.detach k).detached }
    par := { d.par with jobs := d.par.jobs.map fun e => (e.1, (e.2.detach k).abandon d k) }
    ciph := { d.ciph with
      readQ := d.ciph.readQ.filter fun i => i.slotNo != some k
      lanes := d.ciph.lanes.map fun l => (l.1, { l.2 with busy := l.2.busy.filter fun i => i.slotNo != some k }) } }
  let d := d.modDlk fun x => { x with moves := x.moves.filter fun m => !(m.kind == .read && decide (m.slot = k)) }
  d.modCam fun m => { m with searches := m.searches.filter (fun e => e.1 ≠ k), waits := m.waits.filter (fun e => e.1 ≠ k) }

/-- A slot is given up with the CAM entry that its completion would have freed. -/
def giveUp (k : Nat) (d : Dev) : Dev :=
  let d := match (d.slot? k).bind (·.cam) with | some i => d.camFree i | none => d
  let d : Dev := { d with jnm := { d.jnm with
    sends := d.jnm.sends.filter fun e => e ≠ k
    receives := d.jnm.receives.filter fun e => e.1 ≠ k
    bufs := (d.jnm.bufs.filter fun b => !(b.slot == some k && b.phase == .moving)).map fun b =>
      if b.slot = some k then { b with slot := none } else b } }
  d.dropSlot k

/-- An uncommitted command is withdrawn and its slot freed. -/
def withdrawSlot (k : Nat) (d : Dev) : Dev := giveUp k (withdrawCmd k stInvalidOpcode d)

/-- The fate of one command of a disabled function (Table 5-2). A committed command that its row has not finished keeps its slot until
it has run; TEARDOWN_DONE gives it up. -/
def fate (k : Nat) (d : Dev) : Dev :=
  match d.slot? k with
  | none => d
  | some x =>
    if x.phase == .due || x.conflict then giveUp k d
    else if x.qid = 0 then (if x.sqe.op = 0x0C || (x.phase == .asleep && x.sqe.op ≠ 0xC1) then giveUp k d else d)
    else if !x.committed then withdrawSlot k d
    else if x.sqe.op = 0x02 || x.sqe.op = 0x0C then giveUp k (detachRead k d)
    else if x.sqe.op = 0x83 && x.phase == .asleep then
      giveUp k (d.modZm fun m => { m with refolds := m.refolds.map fun j => if j.slot = some k then { j with slot := none } else j })
    else if x.sqe.op = 0x79 || x.sqe.op = 0x7A || x.sqe.op = 0x83 then d
    else giveUp k d

/-- The function is disabled on this clock: fetching, posting and requests stop, its commands meet Table 5-2, its queues are deleted, its
features return to their defaults, its namespaces to normal service (R88, R101, R159, R160; for a link loss the queue deletion is
PRESUMED, see the log). -/
def disableFunc (f : Nat) (flr : Bool) (d : Dev) : Dev :=
  let d := d.modFunc f fun x => { x with en := false, rdy := false, stopping := true, flr := flr, shn := false, shst := 0 }
  let mine := (d.host.slots.filter fun e => decide (e.2.fn = f)).map (·.1)
  let d := mine.foldl (fun d k => fate k d) d
  let d := d.modHost fun h => { h with issued := h.issued.filter fun i => decide (i.fn ≠ f) }
  let d := d.modZm fun m => { m with ns := m.ns.map fun e => if f ∈ e.2.attached then (e.1, { e.2 with maint := false }) else e }
  let d : Dev := if isPf f then { d with pwr := { d.pwr with sel := mapErase d.pwr.sel f } } else d
  d.modFunc f fun x => { x with sqs := [], cqs := [], feats := [], masked := [] }

/-- The functions of a port that are present. -/
def Dev.portFuncs (d : Dev) (p : Nat) : List Nat := (if p = 0 then 0 else 1025) :: (d.vfsOf p).filter d.present

/-- The present functions of a list are disabled at one clock. -/
def disableAll (fs : List Nat) (flr : Bool) (d : Dev) : Dev := (fs.filter d.present).foldl (fun d f => disableFunc f flr d) d

/-- The port is there: port 1 only in dual-port mode (R66). -/
def Dev.hasPort (d : Dev) (p : Nat) : Bool := decide (p = 0) || d.dual

/-! ### CC.EN, FLR, VF Enable (R101, R161, R163) -/

/-- Every admitted follower has ended step 8 of its start-up, or is unreachable (R456). -/
def Dev.followersReady (d : Dev) : Bool := d.dlk.admitted.all fun p => p ∈ d.dlk.ready || d.dlk.unreach.any fun u => u.1 = p

/-- CSTS.RDY may read 1: start-up has ended, the followers' too, and nothing stopped the device (R161, R436, R456). -/
def Dev.mayBeReady (d : Dev) : Bool := d.sys.stage == .service && !d.sys.cfs && d.followersReady

/-- CC.EN is set from 0 to 1: the admin queues stand, and CSTS.RDY follows (R161). -/
def ccEnSet (f asqs acqs : Nat) (d : Dev) : Except String Dev :=
  if !d.present f || !(d.port (d.portOf f)).up then .error "function"
  else if d.insecure f then .ok (d.send (.unsupported f))
  else if (d.func f).en then .ok d
  else
    let ready := d.mayBeReady && !(d.func f).stopping
    .ok (d.modFunc f fun x => { x with
      en := true, rdy := ready, shn := false, shst := 0
      sqs := [(0, { size := asqs + 1, cq := 0, tail := 0, issue := 0, head := 0, fetched := 0, deleting := none })]
      cqs := [(0, { size := acqs + 1, head := 0, tail := 0, phase := true, ien := true, vector := 0, posted := 0, stalls := 0,
                    holding := [], stallAt := none })] })

def execCcEnSet (f : Fin 1026) (asqs acqs : BitVec 12) (s : State) : Host.Outcome State Fault Refusal :=
  onDev s (ccEnSet f asqs.toNat acqs.toNat)

/-- CC.EN goes from 1 to 0. -/
def ccEnClear (f : Nat) (d : Dev) : Except String Dev :=
  if !d.present f then .error "function"
  else if d.insecure f then .ok (d.send (.unsupported f))
  else if (d.func f).en then .ok (disableFunc f false d)
  else .ok d

def execCcEnClear (f : Fin 1026) (s : State) : Host.Outcome State Fault Refusal := onDev s (ccEnClear f)

/-- The PF of a port. -/
def pfOf (p : Nat) : Nat := if p = 0 then 0 else 1025

/-- Every VF of a port is disabled and VF Enable reads 0 (R163). -/
def vfsOff (p : Nat) (flr : Bool) (d : Dev) : Dev :=
  (disableAll (d.vfsOf p) flr d).modPort p fun x => { x with vfEnable := false, numVfs := 0 }

/-- An FLR: the function, and on a PF every VF of its port at the same clock; VF Enable is part of the PF's configuration space. -/
def functionLevelReset (f : Nat) (d : Dev) : Except String Dev :=
  if !d.present f then .error "function"
  else if d.insecure f then .ok (d.send (.unsupported f))
  else if isPf f then .ok (vfsOff (d.portOf f) true (disableFunc f true d))
  else .ok (disableFunc f true d)

def execFunctionLevelReset (f : Fin 1026) (s : State) : Host.Outcome State Fault Refusal := onDev s (functionLevelReset f)

/-- TotalVFs of a port (R69). -/
def Dev.totalVfs (d : Dev) : Nat := if d.dual then 512 else 1024

/-- VF Enable is set with NumVFs; NumVFs stands while VF Enable is set. -/
def vfEnableSet (p n : Nat) (d : Dev) : Except String Dev :=
  if !d.hasPort p || !(d.port p).up || d.totalVfs < n then .error "VF Enable"
  else if d.insecure (pfOf p) then .ok (d.send (.unsupported (pfOf p)))
  else if (d.port p).vfEnable then .ok d
  else .ok (d.modPort p fun x => { x with vfEnable := true, numVfs := n })

def execVfEnableSet (port : Fin 2) (n : Fin 1025) (s : State) : Host.Outcome State Fault Refusal := onDev s (vfEnableSet port n)

/-- VF Enable is cleared. -/
def vfEnableClear (p : Nat) (d : Dev) : Except String Dev :=
  if !d.hasPort p || !(d.port p).up then .error "VF Enable"
  else if d.insecure (pfOf p) then .ok (d.send (.unsupported (pfOf p)))
  else .ok (vfsOff p false d)

def execVfEnableClear (port : Fin 2) (s : State) : Host.Outcome State Fault Refusal := onDev s (vfEnableClear port)

/-! ### Links (R66, R101, R432, R484) -/

/-- `HQ.EVT.LINKn`. -/
def linkEvent (p : Nat) (d : Dev) : Dev := if p = 0 then d.wr Fd.HQ_EVT_LINK0 1 else d.wr Fd.HQ_EVT_LINK1 1

/-- `SYS.FAULT.PORT` follows the ports that have been up: one is down, or below the width it trained to first. -/
def portFault (d : Dev) : Dev :=
  let bad (p : Nat) : Bool :=
    let x := d.port p
    d.hasPort p && decide (x.widest ≠ 0) && (!x.up || decide (x.width < x.widest))
  if bad 0 || bad 1 then faultOn 4 d else faultOff 4 d

/-- The link of a port goes down: its functions are disabled and its IDE streams end. -/
def linkDown (p : Nat) (d : Dev) : Dev :=
  let fs := d.portFuncs p
  let d := disableAll fs false d
  let d := d.modPort p fun x => { x with up := false, flit := false, rate := 0, width := 0, secure := [], insecure := [], keyed := [],
                                         vfEnable := false, numVfs := 0 }
  let d := d.modHost fun h => { h with spdm := mapErase h.spdm p }
  portFault (linkEvent p d)

/-- PORT_LINK_DOWN. -/
def portLinkDown (p : Nat) (d : Dev) : Except String Dev :=
  if d.hasPort p && (d.port p).up then .ok (linkDown p d) else .error "link"

def execPortLinkDown (port : Fin 2) (s : State) : Host.Outcome State Fault Refusal := onDev s (portLinkDown port)

/-- The widths a port can train to (Table 3-1). -/
def Dev.widthOk (d : Dev) (w : Nat) : Bool := w ∈ [1, 2, 4, 8] || (!d.dual && decide (w = 16))

/-- PORT_LINK_UP: the link comes up, or an up link has recovered at another rate or width (Table 16-5). FLIT mode needs 8 GT/s or more,
and 64 GT/s needs FLIT mode (Table 3-1). -/
def portLinkUp (p : Nat) (flit : Bool) (rate w : Nat) (d : Dev) : Except String Dev :=
  let x := d.port p
  if !d.hasPort p || !x.training || !d.widthOk w || (flit && decide (rate < 2)) || (!flit && decide (rate = 5)) then
    .error "link"
  else
    let d := d.modPort p fun x => { x with up := true, flit := flit, rate := rate, width := w, widest := if x.widest = 0 then w else x.widest }
    .ok (portFault (if x.up then d else linkEvent p d))

def execPortLinkUp (port : Fin 2) (flit : Bool) (rate : Fin 6) (width : BitVec 5) (s : State) : Host.Outcome State Fault Refusal :=
  onDev s (portLinkUp port flit rate width.toNat)

/-- PERST_N of a port is asserted: link, configuration space and functions of that port, the other port untouched (Table 16-1). In
single-port mode the port-1 sidebands are ignored. -/
def portReset (p : Nat) (d : Dev) : Dev :=
  if !d.hasPort p then d
  else
    let d := if (d.port p).up then linkDown p d
      else (disableAll (d.portFuncs p) false d).modPort p fun x => { x with vfEnable := false, numVfs := 0 }
    d.modPort p fun x => { x with perst := false, training := false }

def execPortReset (port : Fin 2) (s : State) : Host.Outcome State Fault Refusal := onDev s (always (portReset port))

/-- PERST_N of a port rises: training starts once the boot ROM has released the link (R484). -/
def perstRise (p : Nat) (d : Dev) : Dev :=
  if d.hasPort p then d.modPort p fun x => { x with perst := true, training := x.released } else d

def execPerstRise (port : Fin 2) (s : State) : Host.Outcome State Fault Refusal := onDev s (always (perstRise port))

/-- An IDE stream that carries the device's traffic fails its integrity check and goes to Insecure (R71). -/
def ideFailure (p st : Nat) (d : Dev) : Except String Dev :=
  if st ∈ (d.port p).secure then
    .ok (d.modPort p fun x => { x with secure := x.secure.filter (fun k => k ≠ st), insecure := listAdd x.insecure st })
  else .error "IDE stream"

def execIdeIntegrityFailure (port : Fin 2) (stream : Fin 9) (s : State) : Host.Outcome State Fault Refusal :=
  onDev s (ideFailure port stream)

/-! ### The end of a disabling, shutdown (R102, R161) -/

/-- A Jenam Send that has not got its request yet; over a link that is down it gets it no more (Table 5-2, R385). -/
def Dev.sendOpen (d : Dev) (f k : Nat) : Bool :=
  (d.port (d.portOf f)).up && (decide (k ∈ d.jnm.sends) || d.jnm.bufs.any fun b => b.slot == some k && b.phase == .moving)

/-- A disabled function's committed commands have all run. -/
def Dev.torn (d : Dev) (f : Nat) : Bool :=
  (d.func f).stopping && !d.host.slots.any (fun e => decide (e.2.fn = f) && (e.2.pend || d.sendOpen f e.1))

/-- TEARDOWN_DONE: no slot, withdrawn cell or refold slot is held; a CC.EN set meanwhile is answered (R161). -/
def teardownDone (f : Nat) (d : Dev) : Except String Dev :=
  if !d.torn f then .error "teardown"
  else
    let mine := (d.host.slots.filter fun e => decide (e.2.fn = f)).map (·.1)
    let d := mine.foldl (fun d k => giveUp k d) d
    .ok ((d.modFunc f fun x => { x with stopping := false, flr := false, rdy := x.en && d.mayBeReady }).wr Fd.TEN_EVT_TEARDOWN_DONE 1)

def execTeardownDone (f : Fin 1026) (s : State) : Host.Outcome State Fault Refusal := onDev s (teardownDone f)

/-- SHUTDOWN_NOTIFICATION: fetching stops, what is fetched completes, and the tables are made durable (R102, R222, R425); an entry whose
read is outstanding is not fetched any more (log entry 111). -/
def shutdownNotification (f : Nat) (d : Dev) : Except String Dev :=
  if !d.present f || !(d.func f).en then .error "function"
  else if d.insecure f then .ok (d.send (.unsupported f))
  else
    let d := d.modFunc f fun x => { x with shn := true, shst := 1 }
    let d := d.modHost fun h => { h with issued := h.issued.filter fun i => decide (i.fn ≠ f) }
    .ok (settleShutdown f (metadataCheckpoint d))

def execShutdownNotification (f : Fin 1026) (s : State) : Host.Outcome State Fault Refusal := onDev s (shutdownNotification f)

/-! ### TEN.F_CFG and TEN.CLS_CFG (R141, R149, R157) -/

/-- A function may move to another tenant (R141). -/
def Dev.movable (d : Dev) (f : Nat) : Bool := !d.present f || (!(d.func f).en && decide (d.slotsOf f = 0))

/-- A write of `TEN.F_CFG`, for the function in `TEN.F_SEL`. -/
def tenantWrite (v : Nat) (d : Dev) : Dev :=
  let f := d.rd Fd.TEN_F_SEL_FUNC
  if f < 1026 && d.movable f then d.wrb f Fd.TEN_F_CFG_TENANT (bits v 9 0) else d.wr Fd.TEN_EVT_MOVE_IGN 1

def execFCfgTenantWrite (v : Word) (s : State) : Host.Outcome State Fault Refusal :=
  onDev s (orRsv (decide (bits v.toNat 30 10 ≠ 0)) (tenantWrite v.toNat))

/-- The classes that hold a soft decoder, but one. -/
def Dev.softHolders (d : Dev) (cls : Nat) : Nat :=
  countUpTo 15 fun k => decide (k ≠ cls) && decide (d.rdb k Fd.TEN_CLS_CFG_SOFT_RSV = 1)

/-- Sets the flags and owner of a class: class 15 keeps its flags 0, and a fifth soft reserve stays 0. -/
def classWrite (cls v : Nat) (d : Dev) : Dev :=
  let soft := bit v 29 && decide (d.softHolders cls < 4)
  let d := d.wrb cls Fd.TEN_CLS_CFG_OWNER (bits v 9 0)
  if cls = 15 then d
  else ((d.wrb cls Fd.TEN_CLS_CFG_EXCL (bits v 31 31)).wrb cls Fd.TEN_CLS_CFG_PACE (bits v 30 30)).wrb cls Fd.TEN_CLS_CFG_SOFT_RSV (b2n soft)

def execClsCfgWrite (v : Word) (s : State) : Host.Outcome State Fault Refusal :=
  onDev s (orRsv (decide (bits v.toNat 28 10 ≠ 0)) fun d => classWrite (d.rd Fd.TEN_CLS_SEL_CLASS) v.toNat d)

end Sys2Proof.Machine
end

