-- ==== Sys2Proof/Machine/Manage.lean ====
section
/-! DEFINITION. What the host commands, Jenam and start-up share over namespaces, keys and data structures: cryptographic erase, the
release of a namespace, firmware images, pages of bytes (R301 to R303, R369, R370, R397). -/

namespace Sys2Proof.Machine

def Dev.modNvm (d : Dev) (f : Nvm → Nvm) : Dev := { d with nvm := f d.nvm }
def Dev.modSys (d : Dev) (f : Sys → Sys) : Dev := { d with sys := f d.sys }
def Dev.modPwr (d : Dev) (f : Pwr → Pwr) : Dev := { d with pwr := f d.pwr }
def Dev.modGrv (d : Dev) (f : Grv → Grv) : Dev := { d with grv := f d.grv }
/-- An entry of telemetry Data Area 1 (R365, R417, R451): what happened (1 loss of PLL lock, 2 a keep bank that failed), and which unit. -/
def Dev.trace (d : Dev) (kind unit : Nat) : Dev := d.modGrv fun x => { x with trace1 := (d.strk.count, kind, unit) :: x.trace1 }
def Dev.modJnm (d : Dev) (f : Jnm → Jnm) : Dev := { d with jnm := f d.jnm }

/-! ### Pages of bytes -/

/-- Bytes `off` to `off + n` - 1 of a page of `size` bytes, given byte by byte. -/
def pageSlice (size off n : Nat) (at' : Nat → Byte) : List Byte := (List.range (min n (size - off))).map fun i => at' (off + i)

/-- A page of fields (offset, length, value) over bytes the spec leaves open. -/
def pageOver (id counter : Nat) (fs : List (Nat × Nat × Nat)) (i : Nat) : Byte :=
  match fs.find? fun f => decide (f.1 ≤ i) && decide (i < f.1 + f.2.1) with
  | some f => byteAt f.2.2 (i - f.1)
  | none => Config.freeByte id i counter

/-- A page of fields over zeros. -/
def pageZero (fs : List (Nat × Nat × Nat)) (i : Nat) : Byte :=
  match fs.find? fun f => decide (f.1 ≤ i) && decide (i < f.1 + f.2.1) with
  | some f => byteAt f.2.2 (i - f.1)
  | none => 0

/-- A page held as a list. -/
def pageList (bs : List Byte) (i : Nat) : Byte := bs.getD i 0

/-! ### Keys (R301, R303) -/

/-- A fresh key in an EMPTY slot, one generation on; its blob takes a nonce and is made durable with the tables (R299, R300). -/
def generateKey (slot mode : Nat) (d : Dev) : Dev :=
  let x := d.keySlot slot
  let key := Config.random d.nfree
  ((d.tick 1).setKey slot { state := .loaded, mode := mode, gen := (x.gen + 1) % 2 ^ 32, key := key }).takeNonce.2

/-- A lane works under the slot. -/
def Dev.slotBusy (d : Dev) (slot : Nat) : Bool := d.ciph.lanes.any fun l => l.2.busy.isSome && decide (l.2.slot = slot)

/-- The sectors a conventional namespace has staged are given up, and its mapping is cleared (R303). -/
def convClear (owner nsid : Nat) (d : Dev) : Dev :=
  let mine := d.zm.conv.filter fun e => decide (e.1 / 2 ^ 40 = nsid)
  let d := mine.foldl (fun (d : Dev) e =>
    match e.2 with
    | .cells h r => (dropStage owner 1 r (freeSectorCells h d)).modZm fun m => { m with convProg := mapErase m.convProg h }
    | _ => d) d
  d.modZm fun m => { m with conv := m.conv.filter fun e => decide (e.1 / 2 ^ 40 ≠ nsid) }

/-- Every zone of a namespace returns to Empty, or its mapping is cleared; staged data goes with it. -/
def resetNs (nsid : Nat) (ns : Ns) (d : Dev) : Dev :=
  if ns.zoned then (d.zonesOf nsid).foldl (fun d e => emptyZone ns.owner nsid e.1 d) d else convClear ns.owner nsid d

/-- The cryptographic erase of one namespace (R303): PURGE, staged data discarded, a new key, durable, zones Empty. -/
def cryptoErase (nsid : Nat) (d : Dev) : Dev :=
  match d.ns? nsid with
  | none => d
  | some ns =>
    let slot := nsSlot nsid
    let mode := ns.newMode.getD (d.keySlot slot).mode
    let d := purgeSlot slot d
    let d := resetNs nsid ns d
    let d := generateKey slot mode d
    makeDurable (d.modNs nsid fun x => { x with newMode := none })

/-- Nothing fetched earlier for the namespace is outstanding, no refold of it runs, and no lane works under its key: an order like that
of a Zone Management Send with Select All (R122, R303, R397). -/
def Dev.nsQuiet (d : Dev) (nsid seq : Nat) : Bool :=
  !d.host.slots.any (fun e => decide (e.2.seq < seq) && decide (e.2.qid ≠ 0) && decide (e.2.sqe.nsid.toNat = nsid) && !e.2.conflict) &&
    !d.zm.refolds.any (fun j => decide (j.nsid = nsid)) && !d.slotBusy (nsSlot nsid)

/-! ### Firmware images (R369 to R372, Table 13-6) -/

/-- A field of an image header. -/
def imgField (bs : List Byte) (off len : Nat) : Nat := leNat ((bs.drop off).take len)
def imgKind (bs : List Byte) : Nat := imgField bs 4 1
def imgKey (bs : List Byte) : Nat := imgField bs 5 1
def imgSvn (bs : List Byte) : Nat := imgField bs 6 2
def imgLen (bs : List Byte) : Nat := imgField bs 8 4
def imgLoad (bs : List Byte) : Nat := imgField bs 12 8
def imgEntry (bs : List Byte) : Nat := imgField bs 20 8
def imgHash (bs : List Byte) : BitVec 384 := BitVec.ofNat 384 (imgField bs 28 48)
def imgBody (bs : List Byte) : List Byte := (bs.drop 256).take (imgLen bs)

/-- An image is accepted (R370): format, signature over header bytes 0 to 159 and the body, key, and security version. -/
def Nvm.accepts (n : Nvm) (kind : Nat) (bs : List Byte) : Bool :=
  decide (imgField bs 0 4 = 0x4D525447) && decide (imgKind bs = kind) && decide (256 + imgLen bs ≤ bs.length) &&
    decide (imgField bs 76 84 = 0) && decide (imgKey bs < 4) && decide (imgSvn bs < 64) &&
    (imgHash bs == Config.fusedKey (imgKey bs)) && !bit n.revoked (imgKey bs) && decide (n.svn ≤ imgSvn bs) &&
    Config.ecdsaVerify (imgHash bs) (bs.take 160 ++ imgBody bs) ((bs.drop 160).take 96)

/-- The three images of a slot, one after another: Ground, Thrumlux, configuration (R369). -/
def slotImages (bs : List Byte) : List Byte × List Byte × List Byte :=
  let a := bs.drop (256 + imgLen bs)
  let b := a.drop (256 + imgLen a)
  (bs.take (256 + imgLen bs), a.take (256 + imgLen a), b.take (256 + imgLen b))

/-- A slot's three images are accepted. -/
def Nvm.slotOk (n : Nvm) (bs : List Byte) : Bool :=
  let (g, t, c) := slotImages bs
  n.accepts 1 g && n.accepts 2 t && n.accepts 3 c

/-- What a firmware slot holds: slot 1 is written in manufacture. -/
def Nvm.slotBytes (n : Nvm) (k : Nat) : List Byte := if k = 1 then Config.slot1 else (mapFind n.fw k).getD []

end Sys2Proof.Machine
end

