-- ==== Sys2Proof/Machine/HostLog.lean ====
section
/-! DEFINITION. Log pages, Identify, features, firmware download and commit, device self-test, Format NVM, Sanitize (R72 to R75, R79,
R85, R90, R99, R100, R142, R152, R243 to R245, R284, R303, R374, R375, R403, R404, R410, R426, R428). -/

namespace Sys2Proof.Machine

/-! ### Log pages (R74, Table 3-6) -/

/-- The log pages of a function. -/
def logKnown (f lid : Nat) : Bool :=
  lid ∈ [0x00, 0x01, 0x02, 0x03, 0x04, 0x05, 0x06, 0x12, 0xBF, 0xC0, 0xC2, 0xC3] || (isPf f && lid ∈ [0x07, 0x08])

/-- Supported Log Pages: LSUPP of each identifier. -/
def logSupported (f c : Nat) (i : Nat) : Byte :=
  if i % 4 = 0 then byteAt ((Config.freeByte 0x00 i c).toNat / 2 * 2 + b2n (logKnown f (i / 4))) 0 else Config.freeByte 0x00 i c

/-- An Error Information entry. -/
def errBytes (c : Nat) (n : Nat) (e : ErrEntry) (i : Nat) : Byte :=
  pageOver (0x0100 + n) c [(0, 8, e.count), (8, 2, e.sqid), (10, 2, e.cid), (12, 2, 2 * e.status), (16, 8, e.lba), (24, 4, e.nsid)] i

def logErrors (d : Dev) (f : Nat) (i : Nat) : Byte :=
  match (d.func f).errs[i / 64]? with
  | some e => errBytes d.nfree (i / 64) e (i % 64)
  | none => 0

/-- The temperature thresholds of a function (R428): over and under, in kelvin. -/
def Func.over (x : Func) : Nat := x.feat 0x0400 368
def Func.under (x : Func) : Nat := x.feat 0x0401 0

/-- Critical Warning as a function reads it (R243, R428). -/
def Dev.critOf (d : Dev) (f : Nat) : Nat :=
  d.critMedia + 2 * b2n (decide ((d.func f).over < d.pwr.kelvin) || decide (d.pwr.kelvin < (d.func f).under))

/-- The namespaces whose counts a SMART page shows: one, or those of the function's view (R152, R243). -/
def Dev.smartNs (d : Dev) (f nsid : Nat) : List Ns :=
  (d.zm.ns.filter fun e => if nsid = 0 || nsid = 0xFFFFFFFF then isPf f || decide (f ∈ e.2.attached) else decide (e.1 = nsid)).map (·.2)

/-- Units of 1,000 × 512 bytes, rounded up. -/
def dataUnits (sectors : Nat) : Nat := (sectors * 8 + 999) / 1000

/-- SMART / Health Information (Table 8-7; the other stated fields at the places of the base specification). -/
def logSmart (d : Dev) (f nsid : Nat) (i : Nat) : Byte :=
  let ns := d.smartNs f nsid
  let sum (g : Ns → Nat) : Nat := ns.foldl (fun a x => a + g x) 0
  let errs := if isPf f && (nsid = 0 || nsid = 0xFFFFFFFF) then d.host.unrec + d.host.dweSeq else sum (·.mediaErrs)
  pageOver 0x02 d.nfree
    [(0, 1, d.critOf f), (1, 2, d.pwr.kelvin), (3, 1, d.availableSpare), (4, 1, d.thresh 8), (5, 1, d.percentUsed),
     (32, 16, dataUnits (sum (·.sectorsRead))), (48, 16, dataUnits (sum (·.sectorsWritten))), (64, 16, sum (·.reads)),
     (80, 16, sum (·.writes)), (160, 16, errs), (176, 16, (d.func f).errCount)] i

/-- Firmware Slot Information: the active slot and the one for the next reset; the revision strings are open. -/
def logFirmware (d : Dev) (i : Nat) : Byte := pageOver 0x03 d.nfree [(0, 1, d.nvm.active + 16 * d.nvm.pending)] i

/-- Changed Namespace List. -/
def logNamespaces (d : Dev) (f : Nat) (i : Nat) : Byte := byteAt ((d.func f).changedNs.getD (i / 4) 0) (i % 4)

/-- Commands Supported and Effects: CSUPP of each admin command (from byte 0) and I/O command (from byte 1,024). -/
def logEffects (f c : Nat) (i : Nat) : Byte :=
  let known := if i < 1024 then adminKnown f (i / 4) else decide (i < 2048) && ioKnown (i / 4 - 256)
  if i % 4 = 0 then byteAt ((Config.freeByte 0x05 i c).toNat / 2 * 2 + b2n known) 0 else Config.freeByte 0x05 i c

/-- Device Self-test: the operation in progress, then the results, newest first (28 bytes each). -/
def logSelfTest (d : Dev) (i : Nat) : Byte :=
  if i < 4 then pageOver 0x06 d.nfree [(0, 1, d.host.selfTest)] i
  else pageList ((d.host.selfLog.take 20).flatMap id) (i - 4)

/-- The features of Table 3-7. -/
def featKnown (fid : Nat) : Bool := fid ∈ [0x01, 0x02, 0x04, 0x05, 0x07, 0x08, 0x09, 0x0B, 0x0C, 0x0E, 0xC1]

def logFeatures (c : Nat) (i : Nat) : Byte :=
  if i % 4 = 0 then byteAt ((Config.freeByte 0x12 i c).toNat / 2 * 2 + b2n (featKnown (i / 4))) 0 else Config.freeByte 0x12 i c

/-- Changed Zone List of a namespace: the count (0xFFFF after an overflow), then the zones' start LBAs. -/
def logZones (d : Dev) (f nsid : Nat) (i : Nat) : Byte :=
  let x := d.func f
  let zs := if nsid ∈ x.zonesOver then [] else x.changedZones.filter fun k => decide (k / 2 ^ 20 = nsid)
  if i < 8 then pageZero [(0, 2, if nsid ∈ x.zonesOver then 0xFFFF else zs.length)] i
  else match zs[(i - 8) / 8]? with
    | some k => byteAt (zoneStart (k % 2 ^ 20)) ((i - 8) % 8)
    | none => 0

/-- Healthy dies with two usable rescue blocks at least: the others are left out of the flush (R242). -/
def Dev.rescueDies (d : Dev) : List Nat := d.healthyDies.filter fun x => 2 ≤ d.rescueUsable x

/-- U of R241, reckoned without the dies that R242 leaves out. -/
def Dev.rescueU (d : Dev) : Nat :=
  let n := d.rescueDies.length
  if n = 0 then 16 else max 16 ((20480 + n - 1) / n)

/-- Media health (Tables 8-8 and 8-9), in the function's view (R245). -/
def logHealth (d : Dev) (f : Nat) (i : Nat) : Byte :=
  let es := d.med.events.filter fun e => d.seesEvent f e
  let zs := d.zm.zones.filter fun e => isPf f || (d.nsOf f (e.1 / 2 ^ 20)).isSome
  let spares := d.healthyDies.map fun x => (d.freeSpares x).length
  let wears := d.zoneWears
  let ext := (List.range 96).foldl (fun a g => a + countUpTo rowCount fun r => !(d.row g (firstRow + r)).retired && d.extended g (firstRow + r)) 0
  if i < 128 then
    pageZero [(0, 8, d.med.eventTotal), (8, 2, es.length), (10, 2, mapGet 0 d.med.eventLost f), (12, 4, wears.foldl max 0),
      (16, 4, d.meanWear), (20, 4, ext), (24, 4, (d.med.rows.filter fun e => e.2.retired).length),
      (28, 4, (zs.filter fun e => e.2.st == .readOnly).length), (32, 4, (zs.filter fun e => e.2.st == .offline).length),
      (36, 4, spares.foldl (· + ·) 0), (40, 2, spares.foldl min (if spares.isEmpty then 0 else 0xFFFF)),
      (42, 2, countUpTo 1536 fun x => (d.die (x / 32) (x % 32)).st == .retired), (44, 1, countUpTo 48 fun n => (d.chan n).retired),
      (45, 1, d.rescueU), (48, 8, d.med.refreshes), (56, 8, d.med.grownBad)] i
  else match es[(i - 128) / 32]? with
    | some e => pageList (e.bytes (d.rd Fd.DLK_ROLE_POS)) ((i - 128) % 32)
    | none => 0

/-- A record of the Deferred Write Errors log (Table 3-11). -/
def dweBytes (r : DweRec) : List Byte :=
  layout 64 [(0, 8, r.seq), (8, 4, r.nsid), (12, 2, r.sqid), (14, 2, r.cid), (16, 8, r.slba), (24, 4, r.nlb), (28, 1, r.cause),
             (29, 1, b2n r.delivered + 2 * b2n r.announced), (32, 8, r.stroke), (40, 8, r.zslba)]

/-- Deferred Write Errors (R100). -/
def logDwe (d : Dev) (f : Nat) (i : Nat) : Byte :=
  let rs := d.host.dwe.filter fun r => decide (r.fn = f)
  if i < 16 then pageZero [(0, 8, mapGet 0 d.host.dweTotal f), (8, 2, rs.length), (10, 2, mapGet 0 d.host.dweLost f)] i
  else match rs[(i - 16) / 64]? with
    | some r => pageList (dweBytes r) ((i - 16) % 64)
    | none => 0

/-- What the Queue Accounting log tells of each SQ (fetched, in flight) and each CQ (posted, in flight, strokes held) (R85). -/
def queueCounts (d : Dev) (f : Nat) : List Nat :=
  let x := d.func f
  let flight (p : Slot → Bool) : Nat := (d.host.slots.filter fun e => decide (e.2.fn = f) && p e.2).length
  (x.sqs.flatMap fun q => [0, q.1, q.2.fetched, flight fun s => decide (s.qid = q.1)]) ++
    (x.cqs.flatMap fun q => [1, q.1, q.2.posted,
      flight fun s => (match mapFind x.sqs s.qid with | some t => decide (t.cq = q.1) | none => false), q.2.stalls])

/-- Data Area 1 of telemetry tells the graver states and fault causes, the last 64 migrations, and the notes of R417 and R451. -/
def telemetry1 (d : Dev) : List Nat :=
  ((List.range 64).flatMap fun g => [(mapGet Graver.reset d.grv.gravers g).st.code, (mapGet Graver.reset d.grv.gravers g).cause]) ++
    ((d.grv.moves.take 64).flatMap fun m => [m.1, m.2.1, m.2.2]) ++ d.grv.trace1.flatMap fun m => [m.1, m.2.1, m.2.2]

/-- A telemetry log: the header names the last blocks of Data Areas 1 (64 KiB) and 2; Data Area 3 is not supported (R375). -/
def logTelemetry (d : Dev) (lid : Nat) (i : Nat) : Byte :=
  let a2 := d.grv.trace2.flatMap id
  let last2 := 128 + (a2.length + 511) / 512
  if i < 512 then pageOver lid d.nfree [(0, 1, lid), (8, 2, 128), (10, 2, last2), (12, 2, last2)] i
  else if i < 512 + 65536 then pageList (Config.encode lid (telemetry1 d)) (i - 512)
  else pageList a2 (i - 512 - 65536)

/-- Size and bytes of a log page for a function and namespace. -/
def logPage (d : Dev) (f lid nsid : Nat) : Nat × (Nat → Byte) :=
  match lid with
  | 0x00 => (1024, logSupported f d.nfree)
  | 0x01 => (4096, logErrors d f)
  | 0x02 => (512, logSmart d f nsid)
  | 0x03 => (512, logFirmware d)
  | 0x04 => (4096, logNamespaces d f)
  | 0x05 => (4096, logEffects f d.nfree)
  | 0x06 => (564, logSelfTest d)
  | 0x12 => (1024, logFeatures d.nfree)
  | 0xBF => (4096, logZones d f nsid)
  | 0xC0 => (4224, logHealth d f)
  | 0xC2 => (16400, logDwe d f)
  | 0xC3 => ((Config.encode 0xC3 (queueCounts d f)).length, pageList (Config.encode 0xC3 (queueCounts d f)))
  | _ => (512 + 65536 + (d.grv.trace2.flatMap id).length, logTelemetry d lid)

/-- What a read of a page ends: the mask of its event, the lists it empties; what it leaves marked as read. -/
def logSeen (f lid nsid : Nat) (d : Dev) : Dev :=
  let d := d.modFunc f fun x => { x with masked := x.masked.filter fun l => l ≠ lid }
  match lid with
  | 0x04 => d.modFunc f fun x => { x with changedNs := [] }
  | 0xBF => d.modFunc f fun x => { x with
      changedZones := x.changedZones.filter (fun k => decide (k / 2 ^ 20 ≠ nsid)), zonesOver := x.zonesOver.filter fun n => n ≠ nsid }
  | _ => d

/-- Record `i` of a page, whose records of `size` bytes follow `head` bytes, lies whole in the `n` bytes read from `off` on. -/
def inRead (head size off n i : Nat) : Bool := decide (off ≤ head + size * i) && decide (head + size * (i + 1) ≤ off + n)

/-- Records and events of a page that a function reads whole are no longer unread (R100, Table 8-8). -/
def logRead (f lid off n : Nat) (d : Dev) : Dev :=
  match lid with
  | 0xC0 =>
    let got := ((d.med.events.filter fun e => d.seesEvent f e).zipIdx.filter fun e => inRead 128 32 off n e.2).map fun e => e.1.seq
    d.modMed fun m => { m with events := m.events.map fun e => if e.seq ∈ got then { e with readBy := listAdd e.readBy f } else e }
  | 0xC2 =>
    let got := ((d.host.dwe.filter fun r => decide (r.fn = f)).zipIdx.filter fun e => inRead 16 64 off n e.2).map fun e => e.1.seq
    d.modHost fun h => { h with dwe := h.dwe.map fun r => if r.fn = f && decide (r.seq ∈ got) then { r with read := true } else r }
  | _ => d

/-- Get Log Page: LID, RAE, NUMD and offset as the base specification places them. -/
def getLogPage (k : Nat) (x : Slot) (d : Dev) : Dev :=
  let q := x.sqe
  let lid := bits q.cdw10.toNat 7 0
  let n := 4 * (bits q.cdw10.toNat 31 16 + bits q.cdw11.toNat 15 0 * 2 ^ 16 + 1)
  let off := q.cdw12.toNat + q.cdw13.toNat * 2 ^ 32
  let nsid := q.nsid.toNat
  if !logKnown x.fn lid then finish k (stat 1 9) d
  else if lid = 0xBF && (d.nsOf x.fn nsid).isNone then finish k stInvalidNs d
  else if lid = 0x02 && nsid ≠ 0 && nsid ≠ 0xFFFFFFFF && (d.nsOf x.fn nsid).isNone then finish k stInvalidNs d
  else
    let (size, at') := logPage d x.fn lid nsid
    if size < off then finish k stInvalidField d
    else
      let d := (d.send (.hostBytes x.fn q.cid.toNat (pageSlice size off n at'))).tick 1
      let d := logRead x.fn lid off n d
      finish k success (if bit q.cdw10.toNat 15 then d else logSeen x.fn lid nsid d)

def execGetLogPage (slot : Fin 131072) (s : State) : Host.Outcome State Fault Refusal :=
  onDev s fun d => onSlot slot true 0x02 (fun x d => .ok (getLogPage slot x d)) d

/-! ### Identify (R72, R142, R374, R403, R428) -/

/-- A power state descriptor (Table 15-2). -/
def powerState (d : Dev) (i : Nat) : List (Nat × Nat × Nat) :=
  let b := 2048 + 32 * i
  let mp := [6000, 4500, 3000, 400, 120].getD i 0
  let en := [0, 100, 100, 1000, 30000].getD i 0
  let ex := [0, 100, 100, 2000, 20000].getD i 0 + (if 3 ≤ i && 1 < d.cascade then 500 else 0)
  [(b, 2, mp), (b + 3, 1, if 3 ≤ i then 2 else 0), (b + 4, 4, en), (b + 8, 4, ex)]

/-- The optional admin commands of a function: Format NVM, firmware, self-test, NVMe-MI Send and Receive, on a PF (Table 3-4). -/
def oacs (f : Nat) : Nat := if isPf f then 0x56 else 0

/-- Controller Capabilities of every controller (Table 3-3), at the places of the base specification (log entry 8): MQES, CQR, TO, CSS, MPSMAX;
the other fields are 0. -/
def capRegister : Nat := 0xFFFF + 2 ^ 16 + 0x3C * 2 ^ 24 + 2 ^ 37 + 2 ^ 43 + 4 * 2 ^ 52
/-- Version: NVM Express Base Specification 2.1 (Table 0-2). -/
def nvmeVersion : Nat := 0x20100

/-- Identify Controller; a controller's ID is its function's index (log entry 113). -/
def idController (d : Dev) (f : Nat) : List (Nat × Nat × Nat) :=
  [(0, 2, 0x5658), (77, 1, 9), (78, 2, f), (80, 4, nvmeVersion), (256, 2, oacs f), (526, 2, 127), (528, 2, 127), (536, 4, 1), (84, 4, 30000000), (88, 4, 1000000), (258, 1, 3), (259, 1, 7), (260, 1, 0x07), (262, 1, 63), (263, 1, 4),
   (265, 1, 1), (266, 2, 368), (268, 2, 378), (270, 2, 10), (316, 2, 30), (512, 1, 0x66), (513, 1, 0x44), (516, 4, 4096),
   (520, 2, 0xC8), (525, 1, 0)] ++ (List.range 5).flatMap (powerState d)

/-- Identify Namespace: size and capacity, one format of 4,096 bytes without metadata; no NAWUPF (R126), and unwritten sectors of a zoned
namespace read as zeros (Table 4-1). `c` stands for the bits of NSFEAT that no table gives. -/
def idNamespace (ns : Ns) (c : Nat) : List (Nat × Nat × Nat) :=
  (if ns.zoned then [(33, 1, 1)] else []) ++
  [(0, 8, ns.size), (8, 8, ns.size), (24, 1, setBits (Config.freeByte 0x100 24 c).toNat 1 1 0), (36, 2, 0), (25, 1, 0), (26, 1, 0), (28, 1, 0), (29, 1, 0),
   (120, 8, ns.eui), (128, 4, 12 * 2 ^ 16)]

/-- The zoned part of Identify Namespace (Table 4-1): ZOC and OZCS, resources, the recommended limits, the zone size. -/
def idZoned (ns : Ns) : List (Nat × Nat × Nat) := [(0, 4, 0), (12, 32, 0), (4, 4, ns.limit - 1), (8, 4, ns.limit - 1), (2816, 8, zoneSpan), (2824, 1, 0)]

/-- Namespaces attached to a function above an NSID, at most 1,024. -/
def Dev.nsList (d : Dev) (f from' : Nat) : List Nat :=
  ((d.zm.ns.filter fun e => decide (from' < e.1) && decide (f ∈ e.2.attached)).map (·.1)).take 1024

/-- The data of an Identify command, or the status that refuses it. -/
def identifyData (d : Dev) (f : Nat) (q : Sqe) : Except Cpl (Nat → Byte) :=
  let cns := bits q.cdw10.toNat 7 0
  let csi := bits q.cdw11.toNat 31 24
  let n := q.nsid.toNat
  let c := d.nfree
  let own (g : Ns → Nat → Byte) : Except Cpl (Nat → Byte) := match d.nsOf f n with | some ns => .ok (g ns) | none => .error stInvalidNs
  match cns with
  | 0x00 => own fun ns => pageOver 0x100 c (idNamespace ns c)
  | 0x01 => .ok (pageOver 0x101 c (idController d f))
  | 0x02 => if 0xFFFFFFFE ≤ n then .error stInvalidNs else .ok fun i => byteAt ((d.nsList f n).getD (i / 4) 0) (i % 4)
  | 0x03 => own fun ns => pageZero [(0, 1, 1), (1, 1, 8), (4, 8, ns.eui), (12, 1, 4), (13, 1, 1), (16, 1, if ns.zoned then 2 else 0)]
  | 0x05 => own fun ns => if csi = 2 && ns.zoned then pageOver 0x105 c (idZoned ns) else pageOver 0x115 c []
  | 0x06 => .ok (pageOver (0x106 + csi) c (if csi = 2 then [(0, 1, 9)] else []))
  | 0x08 => own fun ns => pageOver 0x108 c [(8, 8, if ns.zoned then 2 else 0)]
  | 0x1C => .ok (pageOver 0x11C c [])
  | _ => .error stInvalidField

def identify (k : Nat) (x : Slot) (d : Dev) : Dev :=
  match identifyData d x.fn x.sqe with
  | .ok p => finish k success ((d.send (.hostBytes x.fn x.sqe.cid.toNat (pageSlice 4096 0 4096 p))).tick 1)
  | .error c => finish k c d

def execIdentify (slot : Fin 131072) (s : State) : Host.Outcome State Fault Refusal :=
  onDev s fun d => onSlot slot true 0x06 (fun x d => .ok (identify slot x d)) d

/-! ### Features (R75) -/

def Sqe.fid (q : Sqe) : Nat := bits q.cdw10.toNat 7 0

/-- A row of Set or Get Features for some identifiers. -/
def featRow (op : Nat) (p : Nat → Bool) (k : Nat) (g : Slot → Dev → Dev) (d : Dev) : Except String Dev :=
  onSlot k true op (fun x d => if p (Sqe.fid x.sqe) then .ok (g x d) else .error "feature") d

/-- Stores a feature value. -/
def putFeat (f key v : Nat) (d : Dev) : Dev := d.modFunc f fun x => { x with feats := mapInsert x.feats key v }

/-- The identifiers with a Set row of their own. -/
def ownSetRow (fid : Nat) : Bool := fid ∈ [0x02, 0x04, 0x07, 0x0B, 0x0C, 0x0E, 0xC1]

/-- SET_FEATURES: Arbitration, Error Recovery, Interrupt Coalescing and Vector Configuration are stored; any other identifier is not
supported. -/
def setFeature (k : Nat) (x : Slot) (d : Dev) : Dev :=
  let v := x.sqe.cdw11.toNat
  match Sqe.fid x.sqe with
  | 0x01 => finish k success (putFeat x.fn 0x01 v d)
  | 0x05 => finish k success (putFeat x.fn 0x05 v d)
  | 0x08 => finish k success (putFeat x.fn 0x08 (v % 2 ^ 16) d)
  | 0x09 => if vectors x.fn ≤ v % 2 ^ 16 then finish k stInvalidField d else finish k success (putFeat x.fn (0x90000 + v % 2 ^ 16) (bits v 16 16) d)
  | _ => finish k stInvalidField d

def execSetFeatures (slot : Fin 131072) (s : State) : Host.Outcome State Fault Refusal :=
  onDev s (featRow 0x09 (fun f => !ownSetRow f) slot (setFeature slot))

/-- A quota as a 0's based field (R79). -/
def lessOne (q : Nat) : Nat := q - 1
/-- NCQA and NSQA of a function. -/
def Func.queuesDw (x : Func) : Nat := lessOne x.cqQuota * 2 ^ 16 + lessOne x.sqQuota

/-- SET_FEATURES_NUMBER_OF_QUEUES. -/
def execSetFeaturesNumberOfQueues (slot : Fin 131072) (s : State) : Host.Outcome State Fault Refusal :=
  onDev s (featRow 0x09 (fun f => decide (f = 0x07)) slot fun x d => finish slot (successWith (d.func x.fn).queuesDw) d)

/-- SET_FEATURES_POWER_MANAGEMENT: a PF selects a power state; on a VF the value is only stored (R404). -/
def setPower (k : Nat) (x : Slot) (d : Dev) : Dev :=
  let ps := bits x.sqe.cdw11.toNat 4 0
  if 4 < ps then finish k stInvalidField d
  else
    let d := putFeat x.fn 0x02 x.sqe.cdw11.toNat d
    finish k success (if isPf x.fn then d.modPwr fun p => { p with sel := mapSet 0 p.sel x.fn ps } else d)

def execSetFeaturesPowerManagement (slot : Fin 131072) (s : State) : Host.Outcome State Fault Refusal :=
  onDev s (featRow 0x09 (fun f => decide (f = 0x02)) slot (setPower slot))

/-- An APST entry: ITPS and ITPT. -/
def apstItps (e : DWord) : Nat := bits e.toNat 7 3
def apstItpt (e : DWord) : Nat := bits e.toNat 31 8

/-- SET_FEATURES_APST: the 32 entries (R410). -/
def setApst (k : Nat) (t : List DWord) (x : Slot) (d : Dev) : Dev :=
  if t.any fun e => decide (apstItpt e ≠ 0) && (decide (apstItps e < 3) || decide (4 < apstItps e)) then finish k stInvalidField d
  else
    let d := putFeat x.fn 0x0C (bits x.sqe.cdw11.toNat 0 0) d
    finish k success ((t.zipIdx).foldl (fun d e => putFeat x.fn (0x0C00 + e.2) e.1.toNat d) d)

def execSetFeaturesApst (slot : Fin 131072) (table : List DWord) (s : State) : Host.Outcome State Fault Refusal :=
  if table.length = 32 then onDev s (featRow 0x09 (fun f => decide (f = 0x0C)) slot (setApst slot table)) else .fault (.illFormed "APST table")

/-- SET_FEATURES_TIMESTAMP: one value for the subsystem, with the counter at which it was set (R426). -/
def setStamp (k ts : Nat) (d : Dev) : Dev :=
  finish k success (d.modPwr fun p => { p with stamp := some (ts, d.strk.count), synch := false })

def execSetFeaturesTimestamp (slot : Fin 131072) (ts : BitVec 48) (s : State) : Host.Outcome State Fault Refusal :=
  onDev s (featRow 0x09 (fun f => decide (f = 0x0E)) slot fun _ d => setStamp slot ts.toNat d)

/-- The timestamp now, in milliseconds; unset it counts from the counter's zero (R426). -/
def Dev.timestamp (d : Dev) : Nat :=
  match d.pwr.stamp with
  | some (v, c) => (v + (d.strk.count - c) * 8192 / 1000000) % 2 ^ 48
  | none => d.strk.count * 8192 / 1000000 % 2 ^ 48

/-- The timestamp data structure: value, Synch (bit 0) and Origin (bits 3 to 1). -/
def Dev.stampBytes (d : Dev) : List Byte :=
  layout 8 [(0, 6, d.timestamp), (6, 1, b2n d.pwr.synch + 2 * b2n d.pwr.stamp.isSome)]

def execGetFeaturesTimestamp (slot : Fin 131072) (s : State) : Host.Outcome State Fault Refusal :=
  onDev s (featRow 0x0A (fun f => decide (f = 0x0E)) slot fun x d =>
    finish slot success (d.send (.hostBytes x.fn x.sqe.cid.toNat d.stampBytes)))

/-- SET_FEATURES_SERVICE_STATE: the change takes effect when the completion is written (R90). -/
def setService (k : Nat) (x : Slot) (d : Dev) : Dev :=
  match d.nsOf x.fn x.sqe.nsid.toNat with
  | some _ => finish k success d
  | none => finish k stInvalidNs d

def execSetFeaturesServiceState (slot : Fin 131072) (s : State) : Host.Outcome State Fault Refusal :=
  onDev s (featRow 0x09 (fun f => decide (f = 0xC1)) slot (setService slot))

/-- SET_FEATURES_ASYNC_EVENT_CONFIG. -/
def execSetFeaturesAsyncEventConfig (slot : Fin 131072) (s : State) : Host.Outcome State Fault Refusal :=
  onDev s (featRow 0x09 (fun f => decide (f = 0x0B)) slot fun x d => finish slot success (putFeat x.fn 0x0B x.sqe.cdw11.toNat d))

/-- SET_FEATURES_TEMP_THRESHOLD: TMPSEL 0 only; THSEL 0 the over-threshold, 1 the under-threshold (R428). -/
def setTemp (k : Nat) (x : Slot) (d : Dev) : Dev :=
  let v := x.sqe.cdw11.toNat
  if bits v 19 16 ≠ 0 || 1 < bits v 21 20 then finish k stInvalidField d
  else finish k success (putFeat x.fn (0x0400 + bits v 21 20) (bits v 15 0) d)

def execSetFeaturesTempThreshold (slot : Fin 131072) (s : State) : Host.Outcome State Fault Refusal :=
  onDev s (featRow 0x09 (fun f => decide (f = 0x04)) slot (setTemp slot))

/-- A feature's current value in DW0, with its data where it has any (Table 3-7). -/
def featValue (d : Dev) (f : Nat) (q : Sqe) : Except Cpl (Nat × List Byte) :=
  let x := d.func f
  let v := q.cdw11.toNat
  match Sqe.fid q with
  | 0x01 => .ok (x.feat 0x01 3, [])
  | 0x02 => .ok (if isPf f then mapGet 0 d.pwr.sel f else x.feat 0x02 0, [])
  | 0x04 => if bits v 19 16 ≠ 0 || 1 < bits v 21 20 then .error stInvalidField
            else .ok (if bits v 21 20 = 0 then x.over else x.under, [])
  | 0x05 => .ok (x.feat 0x05 0, [])
  | 0x07 => .ok (x.queuesDw, [])
  | 0x08 => .ok (x.feat 0x08 0, [])
  | 0x09 => if vectors f ≤ v % 2 ^ 16 then .error stInvalidField
            else .ok (v % 2 ^ 16 + 2 ^ 16 * x.feat (0x90000 + v % 2 ^ 16) 0, [])
  | 0x0B => .ok (x.feat 0x0B 0, [])
  | 0x0C => .ok (x.feat 0x0C 0, (List.range 32).flatMap fun i => leBytes 8 (x.feat (0x0C00 + i) 0))
  | 0xC1 => (match d.nsOf f q.nsid.toNat with | some ns => .ok (b2n ns.maint, []) | none => .error stInvalidNs)
  | _ => .error stInvalidField

def getFeature (k : Nat) (x : Slot) (d : Dev) : Dev :=
  match featValue d x.fn x.sqe with
  | .ok (v, []) => finish k (successWith v) d
  | .ok (v, bs) => finish k (successWith v) (d.send (.hostBytes x.fn x.sqe.cid.toNat bs))
  | .error c => finish k c d

/-- GET_FEATURES: every identifier but the timestamp, which has a row of its own. -/
def execGetFeatures (slot : Fin 131072) (s : State) : Host.Outcome State Fault Refusal :=
  onDev s (featRow 0x0A (fun f => decide (f ≠ 0x0E)) slot (getFeature slot))

/-! ### Firmware (R372, R374, R375) -/

/-- Bytes of the longest image. -/
def maxImage : Nat := 20480 * 1024

/-- Cuts a list into pieces of `n`, for `m` pieces. -/
def chunks (n : Nat) : Nat → List Byte → List (List Byte)
  | 0, _ => []
  | m + 1, bs => bs.take n :: chunks n m (bs.drop n)

/-- FIRMWARE_IMAGE_DOWNLOAD: a piece of whole 4 KiB pages at a 4 KiB offset. -/
def firmwareDownload (k : Nat) (data : List Byte) (x : Slot) (d : Dev) : Except String Dev :=
  let n := 4 * (x.sqe.cdw10.toNat + 1)
  let off := 4 * x.sqe.cdw11.toNat
  if n % 4096 ≠ 0 || off % 4096 ≠ 0 || maxImage < off + n then .ok (finish k stInvalidField d)
  else if data.length ≠ n then .error "download data"
  else
    let d := ((chunks 4096 (n / 4096) data).zipIdx).foldl (fun (d : Dev) e =>
      d.modSys fun y => { y with download := mapInsert y.download (off / 4096 + e.2) e.1 }) d
    .ok (finish k success d)

def execFirmwareImageDownload (slot : Fin 131072) (data : List Byte) (s : State) : Host.Outcome State Fault Refusal :=
  onDev s fun d => onSlot slot true 0x11 (firmwareDownload slot data) d

/-- The image downloaded, from offset 0 on without a gap. -/
def Sys.image (y : Sys) : List Byte :=
  (y.download.foldl (fun (a : Nat × List (List Byte)) e => if e.1 = a.1 then (a.1 + 1, e.2 :: a.2) else a) (0, [])).2.reverse.flatMap id

/-- The fused SVN rises to that of the booted Thrumlux image where the commit names its slot with bit 31 of CDW10 set (R372). -/
def raiseSvn (q : Sqe) (d : Dev) : Dev :=
  let fs := bits q.cdw10.toNat 2 0
  if bit q.cdw10.toNat 31 && fs = d.rd Fd.GRV_BOOT_SLOT then
    let svn := max d.nvm.svn (imgSvn (slotImages (d.nvm.slotBytes fs)).2.1)
    (d.modNvm fun n => { n with svn := svn }).wr Fd.GRV_BOOT_SVN svn
  else d

/-- The checks of a commit that writes a slot, and the write. -/
def commitWrite (k : Nat) (x : Slot) (then' : Nat → Dev → Dev) (d : Dev) : Dev :=
  let fs := bits x.sqe.cdw10.toNat 2 0
  if fs = 1 then finish k (stat 1 Config.slotReadOnly) d
  else if fs ≠ 2 && fs ≠ 3 then finish k (stat 1 6) d
  else if !d.nvm.slotOk d.sys.image then finish k (stat 1 7) d
  else
    let d := d.modNvm fun n => { n with fw := mapInsert n.fw fs d.sys.image }
    finish k success (raiseSvn x.sqe (then' fs (d.modSys fun y => { y with download := [] })))

/-- A commit with the action of its row. -/
def commitRow (ca k : Nat) (g : Slot → Dev → Dev) (d : Dev) : Except String Dev :=
  onSlot k true 0x10 (fun x d => if bits x.sqe.cdw10.toNat 5 3 = ca then .ok (g x d) else .error "commit action") d

def execFirmwareCommitReplace (slot : Fin 131072) (s : State) : Host.Outcome State Fault Refusal :=
  onDev s (commitRow 0 slot fun x d => commitWrite slot x (fun _ d => d) d)

def execFirmwareCommitReplaceActivate (slot : Fin 131072) (s : State) : Host.Outcome State Fault Refusal :=
  onDev s (commitRow 1 slot fun x d => commitWrite slot x (fun fs d => d.modNvm fun n => { n with pending := fs }) d)

/-- Action 0b010: an existing slot becomes the pending one. -/
def commitActivate (k : Nat) (x : Slot) (d : Dev) : Dev :=
  let fs := bits x.sqe.cdw10.toNat 2 0
  if fs = 0 || 3 < fs || (d.nvm.slotBytes fs).isEmpty then finish k (stat 1 6) d
  else finish k success (raiseSvn x.sqe (d.modNvm fun n => { n with pending := fs }))

def execFirmwareCommitActivate (slot : Fin 131072) (s : State) : Host.Outcome State Fault Refusal :=
  onDev s (commitRow 2 slot (commitActivate slot))

/-- Action 0b011: every role runs the new image from now on; no command fails (R375). -/
def execFirmwareCommitActivateNow (slot : Fin 131072) (s : State) : Host.Outcome State Fault Refusal :=
  onDev s (commitRow 3 slot fun x d =>
    commitWrite slot x (fun fs d => (d.modNvm fun n => { n with active := fs, pending := 0 }).wr Fd.GRV_BOOT_SLOT fs) d)

/-! ### Device self-test (R284) -/

/-- Segment 2: one page of block 0 of a healthy die is read through the tiers. -/
def selfRead (die : Nat) (d : Dev) : Dev :=
  let (tag, d) := d.hostTag
  takeDesc (die / 32)
    { desc :=
        { d0 := BitVec.ofNat 32 (2 ^ 28 + 15 * 2 ^ 24 + die % 32 * 2 ^ 19 + 2 ^ 17 + 15 * 2 ^ 8), d1 := 0, d2 := selfTestCtx
          d3 := 0, d4 := 0, d5 := 0, d6 := BitVec.ofNat 32 tag, d7 := 0 }
      dev := true } false d

/-- A self-test begins: the reads of segment 2 are posted. -/
def startSelfTest (code : Nat) (d : Dev) : Dev :=
  let d := d.modHost fun h => { h with selfTest := code, selfBad := 0, selfAt := d.strk.count }
  d.healthyDies.foldl (fun d x => selfRead x d) d

/-- A self-test of the row's code on namespace 0xFFFFFFFF, unless one runs. -/
def selfTestRow (code k : Nat) (d : Dev) : Except String Dev :=
  onSlot k true 0x14 (fun x d =>
    if bits x.sqe.cdw10.toNat 3 0 ≠ code then .error "self-test code"
    else if x.sqe.nsid.toNat ≠ 0xFFFFFFFF then .ok (finish k stInvalidNs d)
    else if d.host.selfTest ≠ 0 then .ok (finish k (stat 1 0x1D) d)
    else .ok (startSelfTest code (finish k success d))) d

def execDeviceSelfTestShort (slot : Fin 131072) (s : State) : Host.Outcome State Fault Refusal := onDev s (selfTestRow 1 slot)
def execDeviceSelfTestExtended (slot : Fin 131072) (s : State) : Host.Outcome State Fault Refusal := onDev s (selfTestRow 2 slot)

/-- A result of log 0x06: code and outcome (0 without error, 1 aborted, 7 a segment failed), and the first failing segment. -/
def selfResult (d : Dev) (outcome : Nat) : List Byte :=
  (List.range 28).map (pageOver 0x16 d.nfree [(0, 1, outcome + 16 * d.host.selfTest), (1, 1, d.host.selfBad)])

/-- The running self-test ends. -/
def endSelfTest (outcome : Nat) (d : Dev) : Dev :=
  (d.modHost fun h => { h with selfTest := 0, selfBad := 0, selfLog := (selfResult d outcome :: h.selfLog).take 20 }).tick 1

/-- Code 0xF aborts a running self-test. -/
def selfTestAbort (k : Nat) (d : Dev) : Except String Dev :=
  onSlot k true 0x14 (fun x d =>
    if bits x.sqe.cdw10.toNat 3 0 ≠ 0xF then .error "self-test code"
    else if x.sqe.nsid.toNat ≠ 0xFFFFFFFF then .ok (finish k stInvalidNs d)
    else .ok (finish k success (if d.host.selfTest = 0 then d else endSelfTest 1 d))) d

def execDeviceSelfTestAbort (slot : Fin 131072) (s : State) : Host.Outcome State Fault Refusal := onDev s (selfTestAbort slot)

/-- Segment 2 still has reads on their way. -/
def Dev.selfReading (d : Dev) : Bool :=
  d.ecc.items.any (fun i => i.ctx == selfTestCtx) || d.ecc.escs.any (fun e => e.2.item.ctx == selfTestCtx) ||
    d.chans.any fun c => c.2.dies.any fun x =>
      x.2.queue.any (fun q => q.desc.d2 == selfTestCtx) || x.2.rd.any (fun r => r.q.desc.d2 == selfTestCtx) ||
        x.2.held.any fun h => h.q.desc.d2 == selfTestCtx

/-- Segment 4 is over: every healthy channel ended a pass that began after the test did. -/
def Dev.selfPassed (d : Dev) : Bool :=
  (List.range 48).all fun n =>
    (d.chan n).retired || !(List.range 32).any (fun t => d.dieHealthy (dieNumber n t)) ||
      (let c := mapGet StipChan.reset d.stip.chans n
       decide (d.host.selfAt / 256 + c.lastLap ≤ c.start) && decide (0 < c.lastLap))

/-- At a sheet boundary the self-test ends once its segments are over; segment 1 fails on a checker whose last test failed. -/
def selfTestSheet (d : Dev) : Dev :=
  if d.host.selfTest = 0 || d.selfReading || (d.host.selfTest = 2 && !d.selfPassed) then d
  else
    let d := if d.ecc.checks.any (fun e => e.2.done && !e.2.pass) then selfTestFailed 1 d else d
    endSelfTest (if d.host.selfBad = 0 then 0 else 7) d

/-! ### Cryptographic erase (R303) -/

/-- Format NVM: SES 0b10 only, ordered as a Send with Select All. -/
def formatNvm (k : Nat) (x : Slot) (d : Dev) : Dev :=
  let nsid := x.sqe.nsid.toNat
  if bits x.sqe.cdw10.toNat 11 9 ≠ 2 then finish k stInvalidField d
  else match d.nsOf x.fn nsid with
    | none => finish k stInvalidNs d
    | some _ => if d.nsQuiet nsid x.seq then finish k success (cryptoErase nsid d) else waitOrder k d

def execFormatNvm (slot : Fin 131072) (s : State) : Host.Outcome State Fault Refusal :=
  onDev s fun d => onSlot slot true 0x80 (fun x d => .ok (formatNvm slot x d)) d

/-- Sanitize: the Crypto Erase action on every namespace. -/
def sanitize (k : Nat) (x : Slot) (d : Dev) : Dev :=
  if bits x.sqe.cdw10.toNat 2 0 ≠ 4 then finish k stInvalidField d
  else if d.zm.ns.all fun e => d.nsQuiet e.1 x.seq then finish k success ((d.zm.ns.map (·.1)).foldl (fun d n => cryptoErase n d) d)
  else waitOrder k d

def execSanitize (slot : Fin 131072) (s : State) : Host.Outcome State Fault Refusal :=
  onDev s fun d => onSlot slot true 0x84 (fun x d => .ok (sanitize slot x d)) d

end Sys2Proof.Machine
end

