-- ==== Sys2Proof/Machine/Flags.lean ====
section
/-! DEFINITION. The flag computations: the level of every interrupt source of Table 13-1 from the cause bits and their enables (R358),
the conditions of `SYS.FAULT` that gravers give. -/

namespace Sys2Proof.Machine

/-- Some cause bit of a register stands with its bit of the enable register. -/
def Dev.irqOf (d : Dev) (n : Nat) (evt ie : RegDef) : Bool := decide ((d.regGet evt n 0) &&& (d.regGet ie n 0) ≠ 0)

/-- Source 0: `STRK.STAT` CMP and SHEET with their enables in `STRK.CTL`. -/
def Dev.strkIrq (d : Dev) : Bool :=
  (d.is Fd.STRK_STAT_CMP && d.is Fd.STRK_CTL_CMP_IE) || (d.is Fd.STRK_STAT_SHEET && d.is Fd.STRK_CTL_SHEET_IE)

/-- Source 2: in order from bit 0 of `AON.EVT_IE`, a WAKE_SRC bit, a KB_BAD bit, TIME_LOST, CLK_STOP (R431). -/
def Dev.aonIrq (d : Dev) : Bool :=
  let ie := d.rd Fd.AON_EVT_IE_IE
  (bit ie 0 && decide (d.rd Fd.AON_WAKE_SRC_SRC ≠ 0)) || (bit ie 1 && decide (d.rd Fd.AON_KB_BAD_BAD ≠ 0)) ||
    (bit ie 2 && d.is Fd.AON_STAT_TIME_LOST) || (bit ie 3 && d.is Fd.AON_STAT_CLK_STOP)

/-- Source 10: `LDPC.EVT` with its enables, and a bucket's OVER with its enable (R285). -/
def Dev.ldpcIrq (d : Dev) : Bool :=
  d.irqOf 0 Rg.LDPC_EVT Rg.LDPC_EVT_IE || d.irqOf 0 Rg.LDPC_LB_OVER_LO Rg.LDPC_LB_IE_LO ||
    d.irqOf 0 Rg.LDPC_LB_OVER_HI Rg.LDPC_LB_IE_HI

/-- Source 64 + 4n + 2: MARKED with MARK_IE, and SWITCHED, LATE, NOCAL, RSVBIT or ECC_NULL with SW_IE. -/
def Dev.hatchIrq (d : Dev) (n : Nat) : Bool :=
  (d.isc n Fd.HATCH_STAT_MARKED && d.isc n Fd.HATCH_CTL_MARK_IE) ||
    (d.isc n Fd.HATCH_CTL_SW_IE && (d.isc n Fd.HATCH_STAT_SWITCHED || d.isc n Fd.HATCH_STAT_LATE ||
      d.isc n Fd.HATCH_STAT_NOCAL || d.isc n Fd.HATCH_STAT_RSVBIT || d.isc n Fd.HATCH_STAT_ECC_NULL))

/-- The level of an interrupt source (Table 13-1, R358). -/
def Dev.irq (d : Dev) (i : Nat) : Bool :=
  match i with
  | 0 => d.strkIrq
  | 1 => d.irqOf 0 Rg.PWR_EVT Rg.PWR_EVT_IE
  | 2 => d.aonIrq
  | 3 => d.irqOf 0 Rg.HQ_EVT Rg.HQ_EVT_IE
  | 4 => d.irqOf 0 Rg.ZONE_EVT Rg.ZONE_EVT_IE
  | 5 => d.irqOf 0 Rg.TEN_EVT Rg.TEN_EVT_IE
  | 6 => d.irqOf 0 Rg.CAM_EVT Rg.CAM_EVT_IE
  | 7 => d.irqOf 0 Rg.CELL_EVT Rg.CELL_EVT_IE
  | 8 => d.irqOf 0 Rg.DMC_EVT Rg.DMC_EVT_IE
  | 9 => d.irqOf 0 Rg.CIPH_EVT Rg.CIPH_EVT_IE
  | 10 => d.ldpcIrq
  | 11 => d.irqOf 0 Rg.PAR_EVT Rg.PAR_EVT_IE
  | 12 => d.irqOf 0 Rg.STIP_EVT Rg.STIP_EVT_IE
  | 13 => d.irqOf 0 Rg.JNM_EVT Rg.JNM_EVT_IE
  | 14 => d.irqOf 0 Rg.DLK_EVT Rg.DLK_EVT_IE
  | 15 => d.irqOf 0 Rg.GRV_EVT Rg.GRV_EVT_IE || d.irqOf 0 Rg.SYS_EVT Rg.SYS_EVT_IE
  | i =>
    if i < 64 || 256 ≤ i then false
    else
      let n := (i - 64) / 4
      match i % 4 with
      | 0 => d.irqOf n Rg.SEQ_EVT Rg.SEQ_EVT_IE
      | 1 => d.irqOf n Rg.CARB_EVT Rg.CARB_EVT_IE
      | 2 => d.hatchIrq n
      | _ => d.irqOf n Rg.PHY_EVT Rg.PHY_EVT_IE

/-! ### Gravers: states and the steward (R362, R364) -/

def Dev.graver (d : Dev) (g : Nat) : Graver := mapGet Graver.reset d.grv.gravers g
def Dev.modGraver (d : Dev) (g : Nat) (f : Graver → Graver) : Dev :=
  d.modGrv fun x => { x with gravers := mapMod Graver.reset x.gravers g f }

/-- The gravers in a state, in rising order. -/
def Dev.graversIn (d : Dev) (st : GravState) : List Nat := (List.range 64).filter fun g => (d.graver g).st == st

/-- The steward: the lowest-numbered graver in RUN (R364). -/
def Dev.steward (d : Dev) : Option Nat := (d.graversIn .run).head?

/-- The graver a source goes to: its route, source 15 the steward (R358, R364). -/
def Dev.irqTarget (d : Dev) (i : Nat) : Option Nat := if i = 15 then d.steward else some (d.rdb i Fd.GRV_IRQ_ROUTE_GRAVER)

/-- The external interrupt line of a graver (R358). -/
def Dev.externalIrq (d : Dev) (g : Nat) : Bool := (List.range 256).any fun i => d.irq i && d.irqTarget i == some g

/-- `SYS.FAULT.GRAVER` reads 1 while a graver is FAILED (R453). -/
def graverFault (d : Dev) : Dev := if (d.graversIn .failed).isEmpty then faultOff 2 d else faultOn 2 d

/-! ### Registers of a graver (log entry 14) -/

/-- x0 reads as zero. -/
def Graver.reg (v : Graver) (r : Nat) : DWord := if r = 0 then 0 else mapGet 0 v.x r
/-- A write to x0 has no effect. -/
def Graver.setReg (v : Graver) (r : Nat) (w : DWord) : Graver := if r = 0 then v else { v with x := mapSet 0 v.x r w }
def Graver.csrOf (v : Graver) (n : Nat) : DWord := mapGet 0 v.csr n
def Graver.setCsr (v : Graver) (n : Nat) (w : DWord) : Graver := { v with csr := mapSet 0 v.csr n w }
/-- The program counter past an instruction of `n` bytes. -/
def Graver.advance (v : Graver) (n : Nat) : Graver := { v with pc := v.pc + BitVec.ofNat 64 n }

/-- CSR numbers of the RISC-V privileged architecture (log entry 14). -/
def csrMstatus : Nat := 0x300
def csrMie : Nat := 0x304
def csrMtvec : Nat := 0x305
def csrMepc : Nat := 0x341
def csrMcause : Nat := 0x342
def csrMtval : Nat := 0x343

/-- The graver takes an exception in M-mode (log entry 14): the program counter is saved in mepc, the cause and the value in mcause and
mtval, MIE moves to MPIE and is cleared, the mode is kept in MPP, and the program counter takes the base of mtvec. -/
def Graver.trap (v : Graver) (cause : Nat) (tval : DWord) : Graver :=
  let ms := (v.csrOf csrMstatus).toNat
  let ms := setBits (setBits (setBits ms 7 7 (b2n (bit ms 3))) 3 3 0) 12 11 (if v.machine then 3 else 0)
  let v := (((v.setCsr csrMepc v.pc).setCsr csrMcause (BitVec.ofNat 64 cause)).setCsr csrMtval tval).setCsr csrMstatus (BitVec.ofNat 64 ms)
  let base := (v.csrOf csrMtvec).toNat / 4 * 4
  { v with machine := true, pc := BitVec.ofNat 64 base }

/-- The graver's etching waits in EV_NEXT (R379). -/
def Dev.awaitsEvent (d : Dev) (g : Nat) : Bool :=
  match (d.graver g).slot with
  | some e => (mapGet EtchSlot.fresh d.grv.etch e).waiting.isSome
  | none => false

/-- A graver executes an instruction: in RUN or ETCH, not stalled in a queue wait and not in EV_NEXT. -/
def Dev.executes (d : Dev) (g : Nat) : Bool :=
  ((d.graver g).st == .run || (d.graver g).st == .etch) && (d.graver g).stall.isNone && decide (d.pwr.ps < 3) && !d.awaitsEvent g

/-- A command that is an instruction of a graver. -/
def onGraver (g : Nat) (f : Dev → Except String Dev) (d : Dev) : Except String Dev :=
  if d.executes g then f d else .error "graver"

end Sys2Proof.Machine
end

