-- ==== Sys2Proof/Machine/Power.lean ====
section
/-! DEFINITION. Power states, operating points, temperature and the AON domain (R402 to R429), but for what the flush and the start-up
do. -/

namespace Sys2Proof.Machine

/-! ### Operating points (R419 to R422) -/

/-- Nominal VDD_CORE of a point in mV (Table 15-9). -/
def nominalMv (n : Nat) : Nat := [800, 720, 640, 580].getD n 580
def fldTrim (n : Nat) : Fld := [Fd.PWR_OP_V0_TRIM, Fd.PWR_OP_V1_TRIM, Fd.PWR_OP_V2_TRIM].getD n Fd.PWR_OP_V3_TRIM
/-- Stores TRIM of a point. -/
def setTrim (n t : Nat) (d : Dev) : Dev :=
  match n with
  | 0 => d.wr Fd.PWR_OP_V0_TRIM t
  | 1 => d.wr Fd.PWR_OP_V1_TRIM t
  | 2 => d.wr Fd.PWR_OP_V2_TRIM t
  | _ => d.wr Fd.PWR_OP_V3_TRIM t
/-- Stores VOUT of a point. -/
def setVout (n m : Nat) (d : Dev) : Dev :=
  match n with
  | 0 => d.wr Fd.PWR_OP_V0_VOUT m
  | 1 => d.wr Fd.PWR_OP_V1_VOUT m
  | 2 => d.wr Fd.PWR_OP_V2_VOUT m
  | _ => d.wr Fd.PWR_OP_V3_VOUT m

/-- The voltage of a point in mV: nominal plus 5 mV for each step of TRIM, at most 850 (R419). -/
def Dev.opMv (d : Dev) (n : Nat) : Nat := min 850 (nominalMv n + 5 * d.rd (fldTrim n))

/-- The mantissa of a voltage: ⌈V × 2^−N⌉, N the VOUT_MODE exponent in two's complement (R421). -/
def mantissa (exp mv : Nat) : Nat :=
  if exp < 16 then (mv + (1000 * 2 ^ exp - 1)) / (1000 * 2 ^ exp) else (mv * 2 ^ (32 - exp) + 999) / 1000

/-- Sends the voltage of a point to the regulator (R421). -/
def sendVolt (n : Nat) (d : Dev) : Dev :=
  let m := mantissa (d.rd Fd.PWR_PMB_CFG_EXP) (d.opMv n)
  setVout n m { d with out := .pmbus m :: d.out }

/-- The operating-point cap in force: of the limit set, and the operator's (R405, R419). -/
def Dev.opCap (d : Dev) : Nat := max d.pwr.limit (d.rd Fd.PWR_OP_CTL_CAP)
/-- The point the device should run at: the slowest of target and caps; OP3 in PS3 (R407, R419). -/
def Dev.opWanted (d : Dev) : Nat := if 3 ≤ d.pwr.ps then 3 else max d.opCap (d.rd Fd.PWR_OP_CTL_TARGET)

/-- Plans the next step from the point reached (R420): to a faster point the voltage first, to a slower one the frequency first. A transition
that failed is tried again only once another point has been asked for (R422). -/
def planOp (d : Dev) : Dev :=
  let w := d.opWanted
  let d := if d.pwr.tried = some w then d else d.modPwr fun p => { p with tried := none }
  if d.pwr.move.isSome || d.pwr.tried.isSome || w = d.pwr.op then d
  else if w < d.pwr.op then (sendVolt w d).modPwr fun p => { p with move := some { target := w, rise := true } }
  else (sendVolt w d).modPwr fun p => { p with op := w, move := some { target := w, rise := false } }

/-- OP_TARGET_WRITE: a write of `PWR.OP_CTL`. -/
def opCtlWrite (v : Nat) (d : Dev) : Dev := planOp ((d.wr Fd.PWR_OP_CTL_CAP (bits v 5 4)).wr Fd.PWR_OP_CTL_TARGET (bits v 1 0))

def opCtlRsv (v : Nat) : Bool := decide (bits v 31 6 ≠ 0) || decide (bits v 3 2 ≠ 0)

def execOpTargetWrite (v : Word) (s : State) : Host.Outcome State Fault Refusal :=
  onDev s (orRsv (opCtlRsv v.toNat) (opCtlWrite v.toNat))

/-- VOLTAGE_CONFIRMED: the step in progress has ended; a rise switches the frequency now (R420). -/
def voltageConfirmed (d : Dev) : Except String Dev :=
  match d.pwr.move with
  | some m => .ok (planOp (d.modPwr fun p => { p with op := if m.rise then m.target else p.op, move := none }))
  | none => .error "voltage step"

def execVoltageConfirmed (s : State) : Host.Outcome State Fault Refusal := onDev s voltageConfirmed

/-- PMBUS_TRANSACTION_FAIL: PMB_FAIL; a rise is abandoned, a fall keeps its lowered frequency; the next change of target tries again
(R422). -/
def execPmbusTransactionFail (s : State) : Host.Outcome State Fault Refusal :=
  onDev s (always fun d => (d.modPwr fun p => { p with move := none, tried := some d.opWanted }).wr Fd.PWR_EVT_PMB_FAIL 1)

/-- A write of `PWR.OP_Vn`: values of TRIM above 10 are reserved; a change for the current point is sent at once (R420). -/
def trimWrite (n v : Nat) (d : Dev) : Dev :=
  let t := bits v 3 0
  if 10 < t || t = d.rd (fldTrim n) then d
  else
    let d := setTrim n t d
    if n = d.pwr.op then sendVolt n d else d

/-- OP_TRIM_WRITE. -/
def execOpTrimWrite (point : Fin 4) (v : Word) (s : State) : Host.Outcome State Fault Refusal :=
  onDev s (orRsv (decide (bits v.toNat 15 4 ≠ 0)) (trimWrite point v.toNat))

/-! ### Selection and idleness (R404 to R406, R410) -/

/-- The PFs that are present: port 1's only in dual-port mode. -/
def Dev.pfs (d : Dev) : List Nat := if d.dual then [0, 1025] else [0]
def Dev.selOf (d : Dev) (f : Nat) : Nat := mapGet 0 d.pwr.sel f
/-- The lowest-numbered state that any present PF selects (R404). -/
def Dev.selected (d : Dev) : Nat := d.pfs.foldl (fun a f => min a (d.selOf f)) 4

/-- A function holds a slot other than for an asynchronous event request, or has a recorded doorbell (R406). -/
def Dev.funcBusy (d : Dev) (f : Nat) : Bool :=
  d.host.slots.any (fun e => e.2.fn = f && !(e.2.qid = 0 && e.2.sqe.op = 0x0C)) ||
    d.host.issued.any (fun i => i.fn = f) || (d.func f).sqs.any fun q => decide (0 < q.2.unread)

/-- The device is idle (R406). -/
def Dev.idle (d : Dev) : Bool :=
  (d.host.slots.all fun e => e.2.qid = 0 && e.2.sqe.op = 0x0C) && d.host.issued.isEmpty &&
    (d.host.funcs.all fun e => e.2.sqs.all fun q => q.2.unread = 0) && d.jnm.bufs.isEmpty

/-- Idle time in milliseconds (R410). -/
def Dev.idleMs (d : Dev) : Nat := match d.pwr.idleAt with | some t => (d.now - t) / 125000 | none => 0

/-- The time at which the device became idle, seen at a stroke boundary. -/
def watchIdle (d : Dev) : Dev :=
  if d.idle then (if d.pwr.idleAt.isNone then d.modPwr fun p => { p with idleAt := some d.now } else d) else wakeIdle d

/-- A change of the power state in force. -/
def enterPs (n : Nat) (d : Dev) : Dev :=
  if d.pwr.ps = n then d else (d.modPwr fun p => { p with ps := n, last := if n < 3 then n else p.last }).wr Fd.PWR_EVT_PS 1

/-- The selection takes the device from one operational state to another (R404). -/
def followSelection (d : Dev) : Dev := if d.pwr.ps < 3 && d.pwr.entry.isNone && d.selected < 3 then enterPs d.selected d else d

/-- APST_IDLE_EXPIRY: the idle time reaches the entry of a PF's table for its current state (R410). -/
def apstExpiry (p : Nat) (d : Dev) : Except String Dev :=
  let f := if p = 0 then 0 else 1025
  let e : DWord := BitVec.ofNat 64 ((d.func f).feat (0x0C00 + d.selOf f) 0)
  if f ∈ d.pfs && bit ((d.func f).feat 0x0C 0) 0 && apstItpt e ≠ 0 && d.pwr.idleAt.isSome && apstItpt e ≤ d.idleMs then
    .ok (d.modPwr fun y => { y with sel := mapSet 0 y.sel f (apstItps e) })
  else .error "idle time"

def execApstIdleExpiry (port : Fin 2) (s : State) : Host.Outcome State Fault Refusal := onDev s (apstExpiry port)

/-! ### Entry (R406 to R408) -/

/-- The die groups with a copy in progress. -/
def Dev.copyGroups (d : Dev) : List Nat :=
  (d.zm.refolds.filterMap fun j => if j.running then (d.zone j.nsid j.dst).row.map (·.1) else none) ++
    (d.med.migrate.map (·.group)) ++ (d.med.rebuild.map (·.group)) ++
    (d.med.replace.map fun e => groupOf (e.1 / 32) (e.1 % 32))

/-- A die runs a program or erase that may not be suspended again (R186). -/
def Dev.suspSpent (d : Dev) (n t : Nat) : Bool :=
  match (d.die n t).op with
  | some o => o.phase == .running && decide (d.suspLimit n o.q.desc ≤ o.susps)
  | none => false

/-- Free units of a die's ACTIVE rescue block (R241). -/
def Dev.rescueRoom (d : Dev) (die : Nat) : Nat := 576 - (mapGet Rescue.fresh d.nvm.rescue die).used

/-- The refusers of an entry, by kind and index (Table 15-4). -/
def Dev.refusers (d : Dev) (target : Nat) (followers : List Nat) : List (Nat × Nat) :=
  ((allFuncs.filter d.funcBusy).map fun f => (1, f)) ++
    (if target = 3 then ((List.range 48).filter fun n => (List.range 32).any (d.suspSpent n)).map fun n => (2, n) else []) ++
    ((List.range 96).filter (fun g => g ∈ d.copyGroups)).map (fun g => (3, g)) ++
    ((List.range 64).filter (fun g => g ∈ d.grv.lost)).map (fun g => (4, g)) ++
    (if d.jnm.bufs.isEmpty then [] else [(5, 0)]) ++
    ((List.range 4).filter (fun p => p ∈ followers)).map (fun p => (7, p)) ++
    (if d.is Fd.PWR_CTL_HOLD then [(8, 0)] else []) ++
    (if target = 4 then (d.rescueDies.filter fun x => d.rescueRoom x < d.rescueU).map fun x => (9, x) else [])

/-- An attempt is refused (R406). -/
def refuseEntry (r : Nat × Nat) (d : Dev) : Dev :=
  (((d.add Fd.PWR_ENTRY_CNT_REFUSED 1).wr Fd.PWR_REFUSER_KIND r.1).wr Fd.PWR_REFUSER_INDEX r.2).wr Fd.PWR_EVT_REFUSED 1

/-- A running device-internal read goes back to the head of its die's reads (R191, R407, R408). -/
def withdrawDieRead (n t : Nat) (d : Dev) : Dev :=
  match (d.die n t).rd with
  | some run =>
    if run.q.desc.wdraw then
      (d.modChan n fun c => (c.dropReqs t false).modDie t fun x => ({ x with rd := none, queue := run.q :: x.queue }).relax).addc n
        Fd.SEQ_CNT_DUP_WDRAW 1
    else d
  | none => d
def withdrawReads (d : Dev) : Dev := forUpTo 48 (fun n d => forUpTo 32 (fun t d => withdrawDieRead n t d) d) d

/-- PS_ENTRY_ATTEMPT: the device is idle and PS3 or PS4 is selected; every refuser refuses (R406), or the entry begins (R407, R408). A
failed keep-bank checker makes a PS4 selection one of PS3, with a refusal of kind 6. From PS3 the device goes on to PS4 by the state it left, so
that suspended operations end (log entry 129). -/
def psEntry (followers : List Nat) (d : Dev) : Except String Dev :=
  if d.selected < 3 || !d.is Fd.PWR_CTL_ENTRY_EN || d.selected ≤ d.pwr.ps || d.pwr.entry.isSome || !d.idle ||
      d.sys.stage != .service || (d.pwr.lastTry ≠ 0 && d.sheet + 1 < d.pwr.lastTry + 256) then .error "entry attempt"
  else
    let d := d.modPwr fun p => { p with lastTry := d.sheet + 1 }
    let check := mapGet { done := false, pass := false, step := 0 } d.ecc.checks 66
    let bad := d.selected = 4 && check.done && !check.pass
    let d := if bad then refuseEntry (6, 66) d else d
    let target := if bad then 3 else d.selected
    if target = d.pwr.ps then .ok d
    else match d.refusers target followers with
      | r :: _ => .ok (refuseEntry r d)
      | [] =>
        let d := if d.pwr.ps = 3 then planOp (enterPs d.pwr.last d) else d
        .ok ((withdrawReads d).modPwr fun p => { p with entry := some { target := target, left := p.ps, written := false } })

def execPsEntryAttempt (followers : List (Fin 4)) (s : State) : Host.Outcome State Fault Refusal :=
  onDev s (psEntry (followers.map (·.val)))

/-- Every running program and erase of the device is suspended (R407). -/
def suspendAll (d : Dev) : Dev :=
  forUpTo 48 (fun n d => forUpTo 32 (fun t d =>
    match (d.die n t).op with
    | some o =>
      if o.phase == .running then
        ((suspendOp n t (countSusp n t d)).modChan n fun c => c.dropReqs t true).modDie n t fun x =>
          { x with st := if o.q.desc.op = 3 then .eraseSusp else .progSusp }
      else d
    | none => d) d) d

/-- PS3 is reached at a stroke boundary (R407). -/
def reachPs3 (d : Dev) : Dev :=
  match d.pwr.entry with
  | some e => if e.target = 3 then planOp (enterPs 3 ((suspendAll d).modPwr fun p => { p with entry := none })) else d
  | none => d

/-- PS3 exit (R413): the state left is in force again. -/
def exitPs3 (d : Dev) : Dev := planOp (enterPs d.pwr.last (wakeIdle d))

/-! ### Temperature (R427) -/

/-- The threshold of a throttle level in degrees Celsius. -/
def Dev.throttleAt (d : Dev) (n : Nat) : Nat :=
  d.rd ([Fd.PWR_THERM_CFG_T1, Fd.PWR_THERM_CFG_T2].getD (n - 1) Fd.PWR_THERM_CFG_T3)

/-- The throttle level at a stroke boundary: it rises where a threshold is reached and falls below it less the hysteresis; THERM_N low
forces level 3. -/
def Dev.nextLevel (d : Dev) (kelvin : Nat) : Nat :=
  let hyst := d.rd Fd.PWR_THERM_CFG_HYST
  let at' (n : Nat) : Bool := decide (d.throttleAt n + 273 ≤ kelvin) || (decide (n ≤ d.pwr.level) && decide (d.throttleAt n + 273 ≤ kelvin + hyst))
  if d.pwr.thermN then 3 else if at' 3 then 3 else if at' 2 then 2 else if at' 1 then 1 else 0

/-- A change of the throttle level. -/
def setLevel (n : Nat) (d : Dev) : Dev :=
  if n = d.pwr.level then d else (d.modPwr fun p => { p with level := n }).wr Fd.PWR_EVT_LEVEL 1

/-- At a stroke boundary: temperature, throttle level and the limit set, the stricter of power state and level (R405, R427). Whether
THERM_N is still low is a free value (log entry 9). -/
def powerStroke (kelvin : Nat) (d : Dev) : Dev :=
  let low := d.pwr.thermN && (Config.freeByte 482 0 d.nfree).toNat % 2 = 1
  let d := if d.pwr.thermN then d.tick 1 else d
  let d := d.modPwr fun p => { p with kelvin := kelvin, thermN := low }
  let d := followSelection (setLevel (d.nextLevel kelvin) d)
  let d := d.modPwr fun p => { p with limit := max p.last p.level }
  planOp (reachPs3 (watchIdle d))

/-! ### The AON domain (R411, R423, R425) -/

/-- A wake source is recorded (R411). -/
def recordWake (b : Nat) (d : Dev) : Dev := d.wr Fd.AON_WAKE_SRC_SRC (setBits (d.rd Fd.AON_WAKE_SRC_SRC) b b 1)
/-- A source is enabled; PWRFAIL and THERM always are. -/
def Dev.wakeEnabled (d : Dev) (b : Nat) : Bool := b = 5 || b = 6 || bit (d.rd Fd.AON_WAKE_EN_EN) b
/-- The cause of an abort by a wake source (Table 15-13). -/
def wakeCause (b : Nat) : Nat := if b ≤ 6 then b + 2 else 9

/-- A wake source that is always enabled aborts an entry under way, or brings the device out of PS3 (R409, R411). -/
def wakeAlways (b : Nat) (d : Dev) : Dev :=
  let d := recordWake b d
  if d.pwr.entry.isSome then abortEntry (wakeCause b) (wakeIdle d) else if d.pwr.ps = 3 then exitPs3 d else d

/-- THERM_N_FALL: level 3, and wake source 6 is seen (R411, R427, R482). The exit from PS4 that it starts is the row WAKE_SOURCE, which reports
the state of the keep banks. -/
def execThermNFall (s : State) : Host.Outcome State Fault Refusal :=
  onDev s (always fun d => wakeAlways 6 (setLevel 3 (d.modPwr fun p => { p with thermN := true })))

/-- CLK32K_STOP: CLK_STOP is set; the save record no longer tells unpowered time (R423, R425). -/
def execClk32kStop (s : State) : Host.Outcome State Fault Refusal :=
  onDev s (always fun d => (d.wr Fd.AON_STAT_CLK_STOP 1).wr Fd.AON_STAT_SAVED 0)

/-- The AON tick count as the device last showed it. -/
def setTicks (t : Nat) (d : Dev) : Dev := d.modPwr fun p => { p with ticks := t }

/-- The save record: the sheet and the tick count of the same edge (R408, R424). -/
def saveTime (d : Dev) : Dev :=
  let d := (d.wr Fd.AON_SAVE_SHEET_LO_SHEET (d.sheet % 2 ^ 32)).wr Fd.AON_SAVE_SHEET_HI_SHEET (d.sheet / 2 ^ 32)
  let d := (d.wr Fd.AON_SAVE_TICK_LO_TICKS (d.pwr.ticks % 2 ^ 32)).wr Fd.AON_SAVE_TICK_HI_TICKS (d.pwr.ticks / 2 ^ 32)
  d.wr Fd.AON_STAT_SAVED (b2n (!d.is Fd.AON_STAT_CLK_STOP))

def Dev.savedSheet (d : Dev) : Nat := d.rd Fd.AON_SAVE_SHEET_LO_SHEET + d.rd Fd.AON_SAVE_SHEET_HI_SHEET * 2 ^ 32
def Dev.savedTick (d : Dev) : Nat := d.rd Fd.AON_SAVE_TICK_LO_TICKS + d.rd Fd.AON_SAVE_TICK_HI_TICKS * 2 ^ 32

/-- The sheet restored at the first lock: the saved sheet and ⌈(T1 − T0) × 10^9 / 2^36⌉, T1 − T0 modulo 2^48 (R424). -/
def Dev.restoredSheet (d : Dev) (ticks : Nat) : Nat :=
  let dt := (ticks + 2 ^ 48 - d.savedTick) % 2 ^ 48
  d.savedSheet + (dt * 10 ^ 9 + (2 ^ 36 - 1)) / 2 ^ 36

/-- The counter starts at stroke 0 of a sheet, whose boundary is still to come (R35). -/
def startCounter (sheet : Nat) (d : Dev) : Dev :=
  { d with strk := { count := sheet * 256, cycle := 0, lock := true, started := false, load := none, hi := 0, ran := d.strk.ran + 1 } }

end Sys2Proof.Machine
end

