-- ==== Sys2Proof/Machine/Flush.lean ====
section
/-! DEFINITION. The power-loss flush and what starts it: PWRFAIL_N, a thermal trip, a write of `SYS.RST_CTL.COLD`, a fatal stop, PS4 entry
(R408, R429, R438 to R442, R450, R452, R480, R481). -/

namespace Sys2Proof.Machine

/-! ### The image (R440, R441) -/

/-- Cuts numbered sectors, in rising order, into units of at most 16 that follow one another. -/
def cutUnits : List (Nat × Sector) → List (Nat × List Sector)
  | [] => []
  | (k, x) :: rest =>
    match cutUnits rest with
    | (j, xs) :: more => if j = k + 1 && xs.length < 16 then (k, x :: xs) :: more else (k, [x]) :: (j, xs) :: more
    | [] => [(k, [x])]

/-- The staged units of zones, without their places. -/
def Dev.zoneUnits (d : Dev) : List FlushUnit :=
  d.zm.zones.flatMap fun e =>
    (cutUnits ((e.2.staged.filter fun s => s.2.1 ≠ endOfChain).map fun s => (s.1, d.pool.sector s.2.1 0))).map fun u =>
      { die := 0, block := 0, unit := 0, kind := 1, nsid := e.1 / 2 ^ 20, lba := zoneStart (e.1 % 2 ^ 20) + u.1, zone := e.1 % 2 ^ 20
        sectors := u.2 }

/-- The staged sectors of conventional namespaces. -/
def Dev.convUnits (d : Dev) : List FlushUnit :=
  (cutUnits (d.zm.conv.filterMap fun e => match e.2 with
    | .cells h _ => if h = endOfChain then none else some (e.1, d.pool.sector h 0)
    | _ => none)).map fun u =>
    { die := 0, block := 0, unit := 0, kind := 2, nsid := u.1 / 2 ^ 40, lba := u.1 % 2 ^ 40, zone := 0xFFFFFFFF, sectors := u.2 }

/-- The pieces of 128 sectors of conventional writes that have all their data but no commit point yet: each is saved as new or not, as a
free value says (R126, log entry 125). -/
def Dev.pieceUnits (d : Dev) : List FlushUnit :=
  let sectors := d.host.slots.flatMap fun e =>
    let x := e.2
    if x.isWrite && x.phase == .moving && !x.committed && x.zone.isNone && decide (x.chain ≠ endOfChain) then
      (List.range x.total).filterMap fun j =>
        let whole := (List.range (min 128 (x.total - j / 128 * 128))).all fun i => decide (j / 128 * 128 + i ∈ x.arrived)
        if whole && (Config.freeByte 126 (e.1 * 512 + j / 128) d.nfree).toNat % 2 = 1 then
          some (x.sqe.nsid.toNat * 2 ^ 40 + x.start + j, d.pool.sector x.chain j)
        else none
    else []
  (cutUnits sectors).map fun u =>
    { die := 0, block := 0, unit := 0, kind := 2, nsid := u.1 / 2 ^ 40, lba := u.1 % 2 ^ 40, zone := 0xFFFFFFFF, sectors := u.2 }

/-- The mapping of saved pieces is committed (R126). -/
def commitPieces (us : List FlushUnit) (d : Dev) : Dev :=
  d.modZm fun m => { m with conv := us.foldl (fun (c : SMap ConvAt) u => forUpTo u.sectors.length (fun i c =>
    mapInsert c (u.nsid * 2 ^ 40 + u.lba + i) (.cells endOfChain false)) c) m.conv }

/-- The dies that take part in a flush: those with an ACTIVE rescue block (R241, R242). -/
def Dev.flushDies (d : Dev) : List Nat := d.rescueDies.filter fun x => 0 ∈ (mapGet Rescue.fresh d.nvm.rescue x).states

/-- The block of a die's ACTIVE rescue block (Table 8-1). -/
def Rescue.activeBlock (r : Rescue) : Nat := 8 + r.states.findIdx (· = 0)

/-- Deals units in turn over dies, each to its die's ACTIVE rescue block (R440). -/
def Dev.deal (d : Dev) (us : List FlushUnit) : List FlushUnit :=
  let dies := d.flushDies
  us.zipIdx.map fun e =>
    let die := dies.getD (e.2 % dies.length) 0
    let r := mapGet Rescue.fresh d.nvm.rescue die
    { e.1 with die := die, block := r.activeBlock, unit := r.used + e.2 / dies.length }

/-- The header of a flush directory; with kind 2 it is the end marker (Table 16-3). -/
def dirHeader (kind fseq stroke entries : Nat) : List Byte :=
  let b := leBytes 4 0x46454C46 ++ leBytes 4 kind ++ leBytes 8 fseq ++ leBytes 8 stroke ++ leBytes 4 entries ++ List.replicate 32 0
  b ++ leBytes 4 (crc32c b)

/-- The entry of a unit (Table 16-3). -/
def dirEntry (u : FlushUnit) : List Byte :=
  let b := leBytes 2 u.die ++ leBytes 2 u.block ++ leBytes 2 u.unit ++ leBytes 1 u.kind ++ leBytes 1 u.sectors.length ++ leBytes 4 u.nsid ++
    leBytes 8 u.lba ++ leBytes 4 u.zone ++ leBytes 4 0
  b ++ leBytes 4 (crc32c b)

/-- The dies that take the directory: the lowest-numbered that takes part, and the lowest-numbered of another band (R441). -/
def Dev.dirDies (d : Dev) : List Nat :=
  match d.flushDies with
  | a :: rest => a :: (rest.find? fun x => x / 512 ≠ a / 512).toList
  | [] => []

/-- SLC units of 64 KiB that a directory of so many entries takes. -/
def dirUnits (entries : Nat) : Nat := (64 + 32 * entries + 65535) / 65536

/-- The units of a directory are taken on the dies that hold it. -/
def takeDir (dies : List Nat) (n : Nat) (d : Dev) : Dev :=
  d.modNvm fun v => { v with rescue := dies.foldl (fun rs x => mapMod Rescue.fresh rs x fun r => { r with used := r.used + n }) v.rescue }

/-- Writes the flush image: it takes the next FSEQ, the tables go with it as its metadata delta, `more` units follow the staged ones; the
directory comes first, twice; the blocks that all of it lies in enter HOLD (R241, R440, R441). -/
def writeImage (more : List FlushUnit) (d : Dev) : Dev :=
  let us := d.zoneUnits ++ d.convUnits ++ more
  let dies := d.dirDies
  let dirAt := dies.map fun x => (x, (mapGet Rescue.fresh d.nvm.rescue x).activeBlock)
  let d := takeDir dies (dirUnits us.length) d
  let us := d.deal us
  let fseq := d.nvm.fseq + 1
  let m : Image := { fseq := fseq, stroke := d.strk.count, units := us, tables := d.tables, ended := false
                     dir := dirHeader 1 fseq d.strk.count us.length ++ us.flatMap dirEntry, mark := [], dirAt := dirAt }
  let rs := us.foldl (fun (rs : SMap Rescue) u =>
    mapMod Rescue.fresh rs u.die fun r => { states := listSetAt r.states (u.block - 8) 1, used := max r.used (u.unit + 1) }) d.nvm.rescue
  let rs := dirAt.foldl (fun (rs : SMap Rescue) e => mapMod Rescue.fresh rs e.1 fun r => { r with states := listSetAt r.states (e.2 - 8) 1 }) rs
  d.modNvm fun n => { n with images := n.images ++ [m], rescue := rs, fseq := fseq, sheet := d.sheet }

/-- A die gets an ACTIVE block with at least U free units, once it has a FREE one (R241). -/
def readyRescue (u : Nat) (r : Rescue) : Rescue :=
  if 0 ∈ r.states && u ≤ 576 - r.used then r
  else if 2 ∈ r.states then
    let states := r.states.map fun s => if s = 0 then 3 else s
    { states := listSetAt states (states.findIdx (· = 2)) 0, used := 0 }
  else r

/-- Every healthy die's ACTIVE rescue block is ready (R241, R435 step 8). -/
def rescueReady (d : Dev) : Dev :=
  d.rescueDies.foldl (fun (d : Dev) x =>
    d.modNvm fun n => { n with rescue := mapMod Rescue.fresh n.rescue x (readyRescue d.rescueU) }) d

/-- Every die that takes part in a flush has its ready room (R241). -/
def Dev.rescueIsReady (d : Dev) : Bool := d.rescueDies.all fun x =>
  decide (0 ∈ (mapGet Rescue.fresh d.nvm.rescue x).states) && decide (d.rescueU ≤ d.rescueRoom x)

/-- The erase of DIRTY blocks is ordered, for open strokes; they are FREE once it has passed with its proof (R241, R242). -/
def eraseDirty (d : Dev) : Dev :=
  d.nvm.rescue.foldl (fun (d : Dev) e =>
    if 3 ∈ e.2.states && d.dieHealthy e.1 then
      forUpTo 4 (fun i d =>
        let (die, b) := d.mapped e.1 (8 + i)
        if e.2.states.getD i 0 = 3 && (mapFind d.med.erases (blockKey die b)).isNone && (d.die (die / 32) (die % 32)).blockState b = 0 then
          orderErase die b 1 true d
        else d) d
    else d) d

/-- The sectors of a unit that are still staged. -/
def Dev.unitStaged (d : Dev) (u : FlushUnit) : Bool :=
  (List.range u.sectors.length).any fun i =>
    if u.kind = 1 then (mapFind (d.zone u.nsid u.zone).staged (u.lba + i - zoneStart u.zone)).isSome
    else match mapFind d.zm.conv (u.nsid * 2 ^ 40 + u.lba + i) with | some (.cells _ _) => true | _ => false

/-- Images whose every unit has been programmed at its destination are released (R445). -/
def releaseImages (d : Dev) : Dev :=
  d.nvm.images.foldl (fun (d : Dev) m =>
    if m.units.any d.unitStaged then d
    else dirtyImage m (d.modNvm fun n => { n with images := n.images.filter fun x => x.fseq ≠ m.fseq })) d

/-- The end marker of the last image is written: earlier images are carried by it, but those that a PS4 exit has not replayed yet (R414, R445);
an incomplete flush no longer stands (R444). -/
def endImage (d : Dev) : Dev :=
  let old := d.nvm.images.dropLast
  let kept := if d.pwr.restoring then old else []
  let d := if d.pwr.restoring then d else old.foldl (fun (d : Dev) m => dirtyImage m d) d
  let d := d.modNvm fun n => { n with images := kept ++ (n.images.drop old.length).map fun m => { m with
    ended := true, mark := dirHeader 2 m.fseq m.stroke m.units.length } }
  faultOff 8 (d.wr Fd.SYS_FLUSH_SEQ_FSEQ (d.nvm.fseq % 2 ^ 32))

/-! ### The flush (R439) -/

/-- What a die runs when the flush begins: an erase is ended by reset; a program runs to its end, passed or failed as a free value says
(log entry 9); loads are cancelled. -/
def endDieWork (n t : Nat) (d : Dev) : Dev :=
  match (d.die n t).op with
  | some o =>
    if o.phase == .running || o.phase == .suspended then
      if o.q.desc.op = 3 then tearBlock (dieNumber n t) o.q.desc.block d
      else if (Config.freeByte 439 (dieNumber n t) d.nfree).toNat % 2 = 1 then (storeUnit (dieNumber n t) o.q.desc o.data d).tick 1
      else tearUnit (dieNumber n t) o.q.desc d
    else d
  | none => d

/-- A channel's work stops: dies end what they run, queues and the bus empty, scheduling ends (R439). -/
def quietChan (n : Nat) (d : Dev) : Dev :=
  let d := forUpTo 32 (fun t d => endDieWork n t d) d
  d.modChan n fun c => { c with
    active := false, suspended := false, arm := none, stop := none, entry := unscheduledEntry, pq := [], holder := none
    dies := c.dies.map fun e => (e.1, { e.2 with
      st := if e.2.st == .retired || e.2.st == .absent then e.2.st else .idle
      queue := [], rd := none, held := [], op := none, proofs := [], resetEnd := none, resetQ := none, awaitReset := none }) }

/-- The flush begins (R439): every function is disabled, channels run unscheduled under limit set L0, the image is written. -/
def flushAll (why : Why) (d : Dev) : Dev :=
  let pieces := d.pieceUnits
  let d := disableAll allFuncs false (d.tick 1)
  let d := forUpTo 48 quietChan d
  let d := d.modHost fun h => { h with fetchOn := false }
  let d := d.modPwr fun p => { p with limit := 0, entry := none }
  writeImage pieces ((commitPieces pieces d).modSys fun y => { y with stage := .flushing why false })

/-- Data may be staged: the device is in service, or step 5 of its start-up has begun (R481). -/
def Dev.mayStage (d : Dev) : Bool :=
  match d.sys.stage with
  | .service | .starting _ .plan | .starting _ .stored => true
  | _ => false

/-- A fatal stop (R452). -/
def fatalStop (d : Dev) : Dev := if d.mayStage then flushAll .fatal d else d

/-- Fewer than 8 gravers in RUN, or no steward: a fatal stop (R450). -/
def graverShortage (d : Dev) : Dev := if (d.graversIn .run).length < 8 then fatalStop d else d

/-- FATAL_STOP: a fatal stop of the device in service. -/
def execFatalStop (s : State) : Host.Outcome State Fault Refusal :=
  onDev s fun d => onlyIf d.mayStage "service" fatalStop d

/-- THERMAL_TRIP: a sensor has read 125 °C or more for a whole stroke (R429). -/
def execThermalTrip (s : State) : Host.Outcome State Fault Refusal :=
  onDev s fun d => onlyIf d.mayStage "service" (fun d => flushAll .trip (d.wr Fd.PWR_EVT_TRIP 1)) d

/-- A write of `SYS.RST_CTL` with COLD = 1 (R439): the flush, then a cold reset; where nothing can be staged yet there is nothing to save. -/
def rstCold (d : Dev) : Dev :=
  if d.mayStage then flushAll .software d
  else match d.sys.stage with
    | .boot | .starting _ _ | .noSlot | .stopped _ => d.modSys fun y => { y with stage := .reset .software false }
    | _ => d

/-- RST_CTL_COLD. -/
def execRstCtlCold (v : Word) (s : State) : Host.Outcome State Fault Refusal :=
  onDev s (orRsv (decide (bits v.toNat 31 1 ≠ 0)) rstCold)

/-- PWRFAIL_FALL: PWRFAIL_N has been low for 500 ns (R411, R439, R481). In PS4 nothing is staged, and the fall is only recorded. -/
def pwrfailFall (d : Dev) : Dev :=
  let e := wakeAlways 5 (d.modSys fun y => { y with failLow := true })
  if d.mayStage then (if d.pwr.ps = 4 then e else flushAll .power e)
  else match d.sys.stage with
    | .boot | .starting _ _ | .noSlot => e.modSys fun y => { y with stage := .waiting .power false }
    | _ => e

def execPwrfailFall (s : State) : Host.Outcome State Fault Refusal := onDev s (always pwrfailFall)

/-- PWRFAIL_N_RISE: PWRFAIL_N has been high for 10 ms; a held start goes on (R481). -/
def execPwrfailNRise (s : State) : Host.Outcome State Fault Refusal :=
  onDev s (always fun d =>
    let d := d.modSys fun y => { y with failLow := false }
    match d.sys.stage with
    | .waiting why fl => d.modSys fun y => { y with stage := .reset why fl }
    | _ => d)

/-- RAIL_FAULT: power good falls; the flash pins are made safe and cold reset holds the core (R432, R480). -/
def execRailFault (s : State) : Host.Outcome State Fault Refusal :=
  onDev s (always fun d =>
    let d := forUpTo 48 quietChan d
    (d.modHost fun h => { h with fetchOn := false }).modSys fun y => { y with pinsSafe := true, wp := 0, stage := .off })

/-- Where the device goes once the flush has ended (R442, R452). -/
def afterFlush (why : Why) (power : Bool) (d : Dev) : Dev :=
  if !power then d.modSys fun y => { y with stage := .off }
  else match why with
    | .power | .software => d.modSys fun y => { y with stage := .reset why true }
    | .trip | .fatal => faultOn 9 (d.modSys fun y => { y with stage := .stopped why, cfs := true })

/-- FLUSH_END: the end marker stands; `SYS.FLUSH` records the flush (R442). -/
def flushEnd (us10 : Nat) (power : Bool) (d : Dev) : Except String Dev :=
  match d.sys.stage with
  | .flushing why true =>
    let d := ((endImage d).wr Fd.SYS_FLUSH_TIME_END 1).wr Fd.SYS_FLUSH_TIME_US10 us10
    .ok (afterFlush why power d)
  | _ => .error "flush"

def execFlushEnd (us10 : BitVec 16) (power : Bool) (s : State) : Host.Outcome State Fault Refusal :=
  onDev s (flushEnd us10.toNat power)

end Sys2Proof.Machine
end

