-- ==== Sys2Proof/Machine/Graver.lean ====
section
/-! DEFINITION. The gravers (chapter 13): queues and queue instructions, watchdog, control, failure and migration, measurements, and the
stops of etchings. -/

namespace Sys2Proof.Machine

/-! ### Local SRAM (R27, R354, R377) -/

/-- Where a byte of a graver's local SRAM stands in memory: above the internal address map. -/
def sramKey (g off : Nat) : Nat := 2 ^ 48 + g * 2 ^ 20 + off
/-- Local SRAM of a graver: 256 KiB (R27). -/
def sramBytes : Nat := 0x40000
/-- Memory with a range of keys zeroed. -/
def memClear (m : Memory) (lo hi : Nat) : Memory := m.filter fun c => c.1 < lo || hi ≤ c.1
/-- Memory with a list of bytes written from a key. -/
def memFill (m : Memory) (a : Nat) : List Byte → Memory
  | [] => m
  | b :: bs => memFill (memPut m a b) (a + 1) bs
def clearSram (g : Nat) (s : State) : State := { s with mem := memClear s.mem (sramKey g 0) (sramKey g sramBytes) }

/-! ### Etchings: stops (R378, R400) -/

def Dev.etch (d : Dev) (e : Nat) : EtchSlot := mapGet EtchSlot.fresh d.grv.etch e
def Dev.modEtch (d : Dev) (e : Nat) (f : EtchSlot → EtchSlot) : Dev :=
  d.modGrv fun x => { x with etch := mapMod EtchSlot.fresh x.etch e f }

/-- Stops within 65,536 sheets (R378). -/
def Dev.etchStops (d : Dev) (e : Nat) : Nat := ((d.etch e).stops.filter fun p => d.sheet < p.1 / 256 + 65536).length

/-- Where an etching's window of local SRAM begins, and its bytes (R377). -/
def etchBase : Nat := 0x10000
def etchBytes : Nat := 0x30000

/-- The DRAM window of an etching slot: 256 MiB apart, from 1 GiB on (log entry 60), of so many MiB. -/
def etchWindow (e mib : Nat) : Nat × Nat := (dramBase + (1024 + 256 * e) * 2 ^ 20, mib * 2 ^ 20)

/-- Starts an etching on its graver from the entry point in U-mode: its window of local SRAM holds zeros and its body, and PMP permits that window
with read, write and execute and the DRAM window with read and write (R376, R377). -/
def etchStart (e g : Nat) (s : State) : State :=
  let bs := (s.dev.etch e).image
  let m := memClear s.mem (sramKey g etchBase) (sramKey g (etchBase + etchBytes))
  let m := memFill m (sramKey g (imgLoad bs)) (imgBody bs)
  { s with mem := m }.modDev fun d => d.modGraver g fun v =>
    { v with st := .etch, machine := false, pc := BitVec.ofNat 64 (imgEntry bs), stall := none, petAt := d.strk.ran, slot := some e
             pmp := [{ base := etchBase, bytes := etchBytes, exec := true },
                     { base := (d.etch e).window.1, bytes := (d.etch e).window.2, exec := false }] }

/-- A graver goes back from an etching to the runtime (R378, R400, log entry 16). -/
def releaseGraver (g : Nat) (s : State) : State :=
  (clearSram g s).modDev fun d => d.modGraver g fun v =>
    { v with st := .run, machine := true, stall := none, slot := none, pmp := [], petAt := d.strk.ran,
             pc := BitVec.ofNat 64 (d.rdb g Fd.GRV_START_LO_ADDR + d.rdb g Fd.GRV_START_HI_ADDR * 2 ^ 32) }

/-- Graver `g` is named in `GRV.SPARE`. -/
def Dev.namedSpare (d : Dev) (g : Nat) : Bool :=
  if g < 32 then bit (d.rd Fd.GRV_SPARE_LO_MASK) g else bit (d.rd Fd.GRV_SPARE_HI_MASK) (g - 32)

/-- Thrumlux holds the gravers that `GRV.SPARE` names in SPARE, their local SRAM cleared (R362): a named one in HALT enters it, one in it that is
no longer named returns to HALT. -/
def holdSpares (s : State) : State :=
  forUpTo 64 (fun g s =>
    match (s.dev.graver g).st with
    | .halt => if s.dev.namedSpare g then (clearSram g s).modDev fun d => d.modGraver g fun v => { v with st := .spare } else s
    | .spare => if s.dev.namedSpare g then s else s.modDev fun d => d.modGraver g fun v => { v with st := .halt }
    | _ => s) s

/-- Records a stop and reports it (R378). -/
def noteStop (e cause : Nat) (d : Dev) : Dev :=
  (d.modEtch e fun x => { x with stops := (d.strk.count, cause) :: x.stops, waiting := none, events := [] }).wr Fd.GRV_EVT_ETCH_STOP 1

/-- An etching stops (R378): it restarts from its entry point, or after the third stop within 65,536 sheets its slot is disabled and its
graver released. -/
def etchStop (e cause : Nat) (s : State) : State :=
  match (s.dev.etch e).graver with
  | none => s
  | some g =>
    let s := s.modDev (noteStop e cause)
    if s.dev.etchStops e < 3 then etchStart e g s
    else releaseGraver g (s.modDev fun d => d.modEtch e fun x => { x with disabled := true, graver := none })

/-- A stop that Table 13-8's causes do not name: the graver was taken as a spare (R367). -/
def causeTaken : Nat := 256

/-- The highest-numbered loaded etching slot that has a graver (R367). -/
def Dev.lastEtching (d : Dev) : Option (Nat × Nat) :=
  (d.grv.etch.reverse.filterMap fun p => p.2.graver.map fun g => (p.1, g)).head?

/-- With no SPARE left, the steward takes the graver of the highest-numbered loaded etching slot as the spare (R367). -/
def takeEtching (s : State) : State :=
  if !(s.dev.graversIn .spare).isEmpty || s.dev.steward.isNone then s
  else match s.dev.lastEtching with
    | none => s
    | some (e, g) =>
      let s := (clearSram g s).modDev (noteStop e causeTaken)
      s.modDev fun d => (d.modEtch e fun x => { x with graver := none }).modGraver g fun v =>
        { v with st := .spare, machine := true, stall := none, slot := none }

/-! ### Failure (R363 to R367) -/

/-- Removes a graver from the spares named in `GRV.SPARE`. -/
def dropSpare (g : Nat) (d : Dev) : Dev :=
  if g < 32 then d.wr Fd.GRV_SPARE_LO_MASK (setBits (d.rd Fd.GRV_SPARE_LO_MASK) g g 0)
  else d.wr Fd.GRV_SPARE_HI_MASK (setBits (d.rd Fd.GRV_SPARE_HI_MASK) (g - 32) (g - 32) 0)

/-- A graver fails (R363): its queues keep their entries. A failed SPARE is only taken out of the spares. With fewer than 8 gravers left
in RUN the device makes a fatal stop (R450). -/
def failGraver (g cause : Nat) (s : State) : State :=
  match (s.dev.graver g).st with
  | .run | .etch =>
    (takeEtching (s.modDev fun d =>
      let d := match (d.graver g).slot with
        | some e => d.modEtch e fun x => { x with graver := none, waiting := none, events := [] }
        | none => d
      let d := d.modGraver g fun v => { v with st := .failed, cause := cause, stall := none, slot := none }
      graverFault ((d.modGrv fun x => { x with lost := x.lost ++ [g] }).wr Fd.GRV_EVT_FAIL 1))).modDev graverShortage
  | .spare => s.modDev fun d => graverFault (dropSpare g (d.modGraver g fun v => { v with st := .failed }))
  | .halt | .failed => s

/-- ETCHING_STOP: an access fault, an illegal instruction, a watchdog expiry or an overlong call (R378); its cause as Table 14-9 codes
it. -/
def execEtchingStop (e : Fin 8) (cause : Fin 4) (s : State) : Host.Outcome State Fault Refusal :=
  if (s.dev.etch e).graver.isSome then .next (etchStop e (cause.val + 1) s) else noEvent "etching" s

/-- WATCHDOG_EXPIRY: LIMIT strokes have passed without a pet (R363); an etching's watchdog stops the etching (R378). -/
def execWatchdogExpiry (g : Fin 64) (s : State) : Host.Outcome State Fault Refusal :=
  let v := s.dev.graver g
  let limit := s.dev.rdb g Fd.GRV_WD_LIMIT
  if limit = 0 || s.dev.strk.ran < v.petAt + limit then noEvent "watchdog" s
  else match v.st, v.slot with
    | .run, _ => .next (failGraver g 1 s)
    | .etch, some e => .next (etchStop e 3 s)
    | _, _ => noEvent "watchdog" s

/-- GRAVER_PET: any write of `GRV.PET` restarts the writer's watchdog (R363). -/
def execGraverPet (g : Fin 64) (_v : Word) (s : State) : Host.Outcome State Fault Refusal :=
  onDev s (always fun d => d.modGraver g fun x => { x with petAt := d.strk.ran })

/-! ### GRV.CTL (R363, R373, R381) -/

/-- Where a graver starts. -/
def Dev.startOf (d : Dev) (g : Nat) : DWord := BitVec.ofNat 64 (d.rdb g Fd.GRV_START_LO_ADDR + d.rdb g Fd.GRV_START_HI_ADDR * 2 ^ 32)

/-- Sets a graver to RUN from START, in M-mode. -/
def runGraver (g : Nat) (d : Dev) : Dev :=
  d.modGraver g fun v => { v with st := .run, machine := true, pc := d.startOf g, stall := none, petAt := d.strk.ran }

/-- A write of `GRV.CTL`: its bits act in rising order. -/
def grvCtlWrite (v : Nat) (s : State) : State :=
  let g := s.dev.rd Fd.GRV_SEL_GRAVER
  let s := if bit v 0 && (s.dev.graver g).st == .halt then s.modDev (runGraver g) else s
  let s := if bit v 1 && (s.dev.graver g).st == .run
    then s.modDev fun d => graverShortage (d.modGraver g fun x => { x with st := .halt, stall := none }) else s
  let s := if bit v 2 then failGraver g 5 s else s
  if bit v 3 then s.modDev fun d => d.modGrv fun x => { x with mlock := true } else s

def grvCtlStore (v : Nat) (s : State) : Host.Outcome State Fault Refusal :=
  .next (orRsvWide (decide (bits v 31 4 ≠ 0)) (grvCtlWrite v) s)

/-- GRV_CTL_RUN: a write of `GRV.CTL` with RUN = 1. -/
def execGrvCtlRun (v : Word) (s : State) : Host.Outcome State Fault Refusal := grvCtlStore (setBits v.toNat 0 0 1) s
/-- GRV_CTL_HALT: a write of `GRV.CTL` with HALT = 1. -/
def execGrvCtlHalt (v : Word) (s : State) : Host.Outcome State Fault Refusal := grvCtlStore (setBits v.toNat 1 1 1) s
/-- GRV_CTL_FAIL: a write of `GRV.CTL` with FAIL = 1. -/
def execGrvCtlFail (v : Word) (s : State) : Host.Outcome State Fault Refusal := grvCtlStore (setBits v.toNat 2 2 1) s
/-- GRV_CTL_MLOCK: a write of `GRV.CTL` with MLOCK = 1. -/
def execGrvCtlMlock (v : Word) (s : State) : Host.Outcome State Fault Refusal := grvCtlStore (setBits v.toNat 3 3 1) s

/-- Owner of a queue (R359). -/
def Dev.owner (d : Dev) (q : Nat) : Nat := d.rdb q Fd.GRV_QOWN_OWNER

/-- Every queue owned by `f` goes to `t`, every route that names `f` points at `t` (R365). -/
def moveRole (f t : Nat) (d : Dev) : Dev :=
  let d := forUpTo 512 (fun q d => if d.owner q = f then d.wrb q Fd.GRV_QOWN_OWNER t else d) d
  forUpTo 256 (fun i d => if d.rdb i Fd.GRV_IRQ_ROUTE_GRAVER = f then d.wrb i Fd.GRV_IRQ_ROUTE_GRAVER t else d) d

/-- A write of `GRV.MIGRATE` (R365). -/
def graverMigrate (v : Nat) (d : Dev) : Dev :=
  let f := bits v 5 0
  let t := bits v 13 8
  if (d.graver f).st == .failed && (d.graver t).st == .spare then
    let d := moveRole f t d
    let d := d.wrb t Fd.GRV_START_LO_ADDR (d.rdb f Fd.GRV_START_LO_ADDR)
    let d := d.wrb t Fd.GRV_START_HI_ADDR (d.rdb f Fd.GRV_START_HI_ADDR)
    let d := d.wrb t Fd.GRV_WD_LIMIT (d.rdb f Fd.GRV_WD_LIMIT)
    (runGraver t d).modGrv fun x =>
      { x with moves := ((d.strk.count, f, t) :: x.moves).take 64, lost := x.lost.filter (· ≠ f) }
  else d.wr Fd.GRV_EVT_MIG_REF 1

/-- RSV bits of `GRV.MIGRATE`. -/
def migrateRsv (v : Nat) : Bool := decide (bits v 31 14 ≠ 0) || decide (bits v 7 6 ≠ 0)

/-- GRAVER_MIGRATE (R365). -/
def execGraverMigrate (v : Word) (s : State) : Host.Outcome State Fault Refusal :=
  onDev s (orRsv (migrateRsv v.toNat) (graverMigrate v.toNat))

/-! ### Measurements (R373) -/

def Dev.meas (d : Dev) (i : Nat) : BitVec 384 := mapGet 0 d.grv.meas i
/-- Extends a measurement with a digest: SHA-384 of value and digest. -/
def extendMeas (i : Nat) (digest : BitVec 384) (d : Dev) : Dev :=
  d.modGrv fun x => { x with meas := mapSet 0 x.meas i (Config.sha384 (leBytes 48 (d.meas i).toNat ++ leBytes 48 digest.toNat)) }

/-- The digest that `GRV.MEAS_EXT0` to `MEAS_EXT11` hold. -/
def Dev.measDigest (d : Dev) : BitVec 384 :=
  BitVec.ofNat 384 (leNat ((List.range 12).flatMap fun i =>
    leBytes 4 (d.regGet { Rg.GRV_MEAS_EXT0 with addr := Rg.GRV_MEAS_EXT0.addr + 4 * i } 0 0)))

/-- A write of `GRV.MEAS_EXT11` (R373): refused by MLOCK for measurements 1 to 4; index 0, which names no measurement, is left alone. -/
def measExtend (v : Nat) (d : Dev) : Dev :=
  let d := d.regSet Rg.GRV_MEAS_EXT11 0 0 v
  let i := d.rd Fd.GRV_MEAS_SEL_INDEX
  if i = 0 then d
  else if d.grv.mlock && i ≤ 4 then d.wr Fd.GRV_EVT_MEAS_REF 1
  else extendMeas i d.measDigest d

/-- MEASUREMENT_EXTEND (R373). -/
def execMeasurementExtend (v : Word) (s : State) : Host.Outcome State Fault Refusal := onDev s (always (measExtend v.toNat))

/-! ### Hardware queues (R359 to R361) -/

def Dev.queue (d : Dev) (q : Nat) : List DWord := mapGet [] d.grv.queues q
def Dev.setQueue (d : Dev) (q : Nat) (l : List DWord) : Dev := d.modGrv fun x => { x with queues := mapSet [] x.queues q l }

/-- An entry is 63 bits. -/
def queueEntry (v : DWord) : DWord := BitVec.ofNat 64 (bits v.toNat 62 0)

/-- Appends to a queue if it has room (64 entries). -/
def pushQueue (q : Nat) (v : DWord) (d : Dev) : Bool × Dev :=
  if (d.queue q).length < 64 then (true, d.setQueue q (d.queue q ++ [queueEntry v])) else (false, d)

/-- A graver may push to a queue (R359). -/
def Dev.mayPush (d : Dev) (g q : Nat) : Bool :=
  (d.graver g).machine ||
    (if q < 256 then bit (d.rdb g Fd.GRV_UQMASK_LO_MASK) (q / 8) else bit (d.rdb g Fd.GRV_UQMASK_HI_MASK) (q / 8 - 32))

/-- An etching executes: its queue instructions are refused with code 2 (R377). -/
def Graver.etching (v : Graver) : Bool := v.st == .etch && !v.machine

/-- Ends an instruction of 4 bytes with a result. -/
def graverResult (g rd : Nat) (w : DWord) (d : Dev) : Dev := d.modGraver g fun v => (v.setReg rd w).advance 4

/-- QPUSH (Table 13-2). -/
def queuePush (g rd rs1 rs2 : Nat) (d : Dev) : Dev :=
  let v := d.graver g
  let q := (v.reg rs1).toNat
  if v.etching then graverResult g rd 2 d
  else if 511 < q then graverResult g rd 3 d
  else if !d.mayPush g q then graverResult g rd 2 d
  else match pushQueue q (v.reg rs2) d with
    | (true, d) => graverResult g rd 0 d
    | (false, d) => graverResult g rd 1 d

/-- QPUSH: appends rs2[62:0] to queue rs1 if permitted and not full. -/
def execQpush (g : Fin 64) (rd rs1 rs2 : Fin 32) (s : State) : Host.Outcome State Fault Refusal :=
  onDev s (onGraver g (always (queuePush g rd rs1 rs2)))

/-- QPOP (Table 13-2). -/
def queuePop (g rd rs1 : Nat) (d : Dev) : Dev :=
  let v := d.graver g
  let q := (v.reg rs1).toNat
  if v.etching then graverResult g rd 2 d
  else if 511 < q || d.owner q ≠ g then graverResult g rd 0 d
  else match d.queue q with
    | [] => graverResult g rd 0 d
    | x :: rest => graverResult g rd (BitVec.ofNat 64 (x.toNat + 2 ^ 63)) (d.setQueue q rest)

/-- QPOP: removes and returns the head of an owned queue with bit 63 set, or 0. -/
def execQpop (g : Fin 64) (rd rs1 : Fin 32) (s : State) : Host.Outcome State Fault Refusal :=
  onDev s (onGraver g (always (queuePop g rd rs1)))

/-- The mask of the numbers below `n` that `p` holds of. -/
def maskOf (n : Nat) (p : Nat → Bool) : Nat := ((List.range n).filter p).foldl (fun a i => a + 2 ^ i) 0

/-- A queue holds an entry and is owned by the graver. -/
def Dev.readyQueue (d : Dev) (g q : Nat) : Bool := d.owner q = g && !(d.queue q).isEmpty

/-- The non-empty queues, or groups, that a wait names (Table 13-2). -/
def Dev.waitReady (d : Dev) (g : Nat) (w : QStall) : Nat :=
  if w.group then maskOf 64 fun G => bit w.mask.toNat G && (List.range 8).any fun i => d.readyQueue g (8 * G + i)
  else maskOf 8 fun i => bit w.mask.toNat i && d.readyQueue g (8 * g + i)

/-- What the `time` CSR and the machine timer of every graver read: stroke counter × 1,024 + CYCLE, modulo 2^64 (R357); both stand while
the PLL is unlocked (R37). -/
def Dev.graverTime (d : Dev) : DWord := BitVec.ofNat 64 (d.strk.count * 1024 + d.strk.cycle)

/-- The machine timer interrupt is pending: the timer has reached the graver's compare value (log entry 123). -/
def Dev.timerIrq (d : Dev) (g : Nat) : Bool := decide ((d.graver g).timecmp ≤ d.graverTime)

/-- The machine external interrupt, or the machine timer's, is pending and enabled in mie. -/
def Dev.waitIrq (d : Dev) (g : Nat) : Bool :=
  let mie := ((d.graver g).csrOf csrMie).toNat
  (bit mie 11 && d.externalIrq g) || (bit mie 7 && d.timerIrq g)

/-- QWAIT and QWAITG: the result at once, or a stall (R360). -/
def queueWait (g : Nat) (w : QStall) (d : Dev) : Dev :=
  if (d.graver g).etching then graverResult g w.rd 2 d
  else if d.waitReady g w ≠ 0 || d.waitIrq g then graverResult g w.rd (BitVec.ofNat 64 (d.waitReady g w)) d
  else d.modGraver g fun v => { v with stall := some w }

/-- QWAIT: waits on the queues of the graver's own group named in rs1[7:0]. -/
def execQwait (g : Fin 64) (rd rs1 : Fin 32) (s : State) : Host.Outcome State Fault Refusal :=
  onDev s (onGraver g (always fun d => queueWait g { group := false, mask := (d.graver g).reg rs1, rd := rd } d))

/-- QWAITG: waits on the groups named in rs1. -/
def execQwaitg (g : Fin 64) (rd rs1 : Fin 32) (s : State) : Host.Outcome State Fault Refusal :=
  onDev s (onGraver g (always fun d => queueWait g { group := true, mask := (d.graver g).reg rs1, rd := rd } d))

/-- A stalled wait ends: a named queue is non-empty, or an interrupt enabled in mie is pending (`irq`: the timer's, its
compare value written by firmware in a way that the spec does not give; log entry 123). -/
def queueResume (g : Nat) (irq : Bool) (d : Dev) : Except String Dev :=
  match (d.graver g).stall with
  | none => .error "queue wait"
  | some w =>
    let timer := irq && bit ((d.graver g).csrOf csrMie).toNat 7
    if d.waitReady g w ≠ 0 || d.waitIrq g || timer then
      .ok (graverResult g w.rd (BitVec.ofNat 64 (d.waitReady g w)) (d.modGraver g fun v => { v with stall := none }))
    else .error "queue wait"

/-- QWAIT_RESUME (R360). -/
def execQwaitResume (g : Fin 64) (irq : Bool) (s : State) : Host.Outcome State Fault Refusal := onDev s (queueResume g irq)

end Sys2Proof.Machine
end

