-- ==== Sys2Proof/Machine/SelfTest.lean ====
section
/-! DEFINITION. The self-tests of the checkers (R282, R283, R307) and the patrol of the on-chip memories (R274, R275). -/

namespace Sys2Proof.Machine

/-- A channel is retired by Thrumlux (R197). -/
def retireChannel (n : Nat) (s : State) : State :=
  let v := 2 + s.dev.rdc n Fd.SEQ_CTL_EN + 4 * s.dev.rdc n Fd.SEQ_CTL_HOLD
  afterChan n (s.modDev (seqCtl n v))

/-- A fatal start (R436), or a fatal stop where the device is in service: storage that guards hatch banks, key slots or block states. -/
def fatalStorage (d : Dev) : Dev :=
  if d.sys.stage == .service then fatalStop d else faultOn 9 (d.modSys fun y => { y with stage := .stopped .fatal, cfs := true })

/-- A cipher lane is withdrawn (R290). -/
def withdrawLane (l : Nat) (d : Dev) : Dev :=
  (d.modCiph fun c => { c with laneOk := setBits c.laneOk l l 0 }).wr Fd.CIPH_EVT_LANE_FAIL 1

/-- The outcome of a failed checker (Table 9-10). A decoder is disabled by its result alone; so is what index 66 refuses (R406). -/
def checkerFailed (i unit : Nat) (s : State) : State :=
  if i < 48 then retireChannel i s
  else if i < 58 then s
  else if i < 61 then s.modDev fun d => d.modPar fun p => { p with ok := setBits p.ok (i - 58) (i - 58) 0 }
  else if i = 61 then s.modDev fun d => d.modPool fun p => { p with excluded := insertNat p.excluded unit }
  else if i = 62 then
    if unit = 0 then s.modDev fatalStorage
    else s.modDev fun d => d.wr Fd.CAM_PART_SEG_OFF (setBits (d.rd Fd.CAM_PART_SEG_OFF) (unit - 1) (unit - 1) 1)
  else if i = 63 then
    if (s.dev.graver unit).st == .halt then s.modDev fun d => graverFault (d.modGraver unit fun v => { v with st := .failed, cause := 4 })
    else failGraver unit 4 s
  else if i = 65 then retireChannel unit s
  else if i = 67 then s.modDev (withdrawLane unit)
  else s

/-! ### The start-up self-test (R282) -/

/-- A write of `LDPC.ST_SEL`. -/
def stSelWrite (v : Nat) (d : Dev) : Dev :=
  let d := if bits v 7 0 < 68 then d.wr Fd.LDPC_ST_SEL_INDEX (bits v 7 0) else d
  if bit v 31 && !d.sys.selftest then (d.wr Fd.LDPC_ST_SEL_RUN 1).modSys fun y => { y with selftest := true } else d

def stSelRsv (v : Nat) : Bool := decide (bits v 30 8 ≠ 0)

/-- SELFTEST_RUN: a write of `LDPC.ST_SEL` with RUN = 1. -/
def execSelftestRun (v : Word) (s : State) : Host.Outcome State Fault Refusal :=
  onDev s (orRsv (stSelRsv v.toNat) (stSelWrite (setBits v.toNat 31 31 1)))

/-- The results of a self-test: every checker but index 64 is tested. -/
def selfTestResults (fails : List CheckFail) (d : Dev) : Dev :=
  let d := forUpTo 68 (fun i d =>
    if i = 64 then d
    else d.setCheck i ((fails.find? fun f => decide (f.index.val = i)).map fun f => f.step.val)) d
  let d := d.modPar fun p => { p with ok := 7 }
  d.modCiph fun c => { c with laneOk := 2 ^ 48 - 1 }

/-- The self-test as a whole: results, then what follows from each failure. -/
def selfTestEnd (fails : List CheckFail) (s : State) : State :=
  let fails := fails.filter fun f => f.index.val ≠ 64
  let s := s.modDev fun d => (selfTestResults fails d).flagIf (!fails.isEmpty) Fd.LDPC_EVT_ST_FAIL
  let s := fails.foldl (fun s f => checkerFailed f.index.val f.unit s) s
  s.modDev fun d => (d.wr Fd.LDPC_ST_SEL_RUN 0).modSys fun y => { y with selftest := false }

/-- SELFTEST_DONE (R282). -/
def execSelftestDone (fails : List CheckFail) (s : State) : Host.Outcome State Fault Refusal :=
  if s.dev.sys.selftest then .next (selfTestEnd fails s) else noEvent "self-test" s

/-! ### Retests in service (R283, R307) -/

/-- A checker may be retested now: a codec in a stroke taken by a calibration step, a decoder, an engine or a lane once it has been idle for a
sheet. -/
def Dev.retestable (d : Dev) (i unit : Nat) : Bool :=
  if i < 48 then (d.chan i).calStroke && !d.ecc.items.any fun x => decide (x.ch = i) && x.stage == .hard
  else if i < 56 then (d.softBusy (i - 48)).isNone && d.idleSheet i
  else if i < 58 then !(d.ecc.escs.any fun e => e.2.deep == .running) && d.idleSheet i
  else if i < 61 then bit d.par.ok (i - 58) && !(d.par.jobs.any fun e => decide (e.1 / 256 = i - 58)) && d.idleSheet i
  else if i = 67 then unit < 48 && d.laneOk unit && (d.lane unit).busy.isNone && d.idleSheet (laneChecker + unit)
  else false

/-- A retest (R283): step 0 says that every step passed. -/
def retest (i unit step : Nat) (s : State) : State :=
  if step = 0 then s.modDev fun d => d.setCheck i none
  else checkerFailed i unit (s.modDev fun d => (d.setCheck i (some step)).wr Fd.LDPC_EVT_ST_FAIL 1)

/-- CHECKER_RETEST. -/
def execCheckerRetest (index : Fin 68) (unit : Nat) (step : Fin 64) (s : State) : Host.Outcome State Fault Refusal :=
  if s.dev.retestable index unit then .next (retest index unit step s) else noEvent "retest" s

/-! ### The memory patrol (R274, R275) -/

/-- The bucket of a corrected word (Table 9-9). -/
def siteBucket : SramSite → Nat
  | .cell _ | .accumulator _ | .keepBank _ => 56
  | .graverRam _ => 58
  | _ => 57

/-- Where the banks of a decoder have failed. -/
def decoderLost (i : Nat) (s : State) : State :=
  checkerFailed i 0 (s.modDev fun d => (d.setCheck i (some 1)).wr Fd.LDPC_EVT_ST_FAIL 1)

/-- An uncorrectable word (Table 9-8). A keep bank is rewritten from the tables it copies (R415); so is a table (R275). -/
def siteLost (site : SramSite) (s : State) : State :=
  match site with
  | .cell h => s.modDev (cellLost h.toNat)
  | .accumulator g => s.modDev fun d => d.modPar fun p => { p with
      accs := match mapFind p.accs g.val with
        | some x => mapInsert p.accs g.val { x with bad := true }
        | none => p.accs }
  | .hatch ch b k => s.modDev fun d => d.modChan ch fun c => { c with eccBad := listAdd c.eccBad (b2n b * 256 + k.val) }
  | .camEntry i => s.modDev fun d =>
      (d.modCam fun c => c.setEntry i { c.entry i with poison := true }).wr Fd.CAM_EVT_POISON 1
  | .table => s
  | .hardDecoder ch => decoderLost ch.val s
  | .softDecoder k => decoderLost (48 + k.val) s
  | .deepDecoder k => decoderLost (56 + k.val) s
  | .graverRam g => failGraver g.val 2 s
  | .keepBank _ => s

/-- SRAM_PATROL: a word of an on-chip memory is read; a corrected one is written back and counted. -/
def execSramPatrol (site : SramSite) (found : CopyState) (s : State) : Host.Outcome State Fault Refusal :=
  match found with
  | .good => .next s
  | .corrected => .next (s.modDev (bucketEvent (siteBucket site)))
  | .bad => .next (siteLost site s)

end Sys2Proof.Machine
end

