-- ==== Sys2Proof/Machine/Startup.lean ====
section
/-! DEFINITION. Resets and start-up (R432 to R437, R443 to R445, R454, R362, R368 to R373): power-on reset, the release of cold reset, the
boot ROM and Ground, and what Thrumlux does until fetch is enabled. -/

namespace Sys2Proof.Machine

/-! ### Resets (R432) -/

/-- POWER_ON_RESET: VDD_AON rises; everything is reset but what lies in flash and in the boot NOR. -/
def powerOn (d : Dev) : Dev :=
  { Dev.reset with media := d.media, nvm := d.nvm, nfree := d.nfree, out := d.out, sys := { Sys.reset with failLow := d.sys.failLow } }

def execPowerOnReset (s : State) : Host.Outcome State Fault Refusal := .next { s with mem := [], dev := powerOn s.dev }

/-- Registers that a cold reset keeps (Table 16-1): AON, PWR and `HQ.PORT_CFG`, and the record of the last flush (R442). -/
def keptAtReset : List RegDef := regsPwr ++ regsAon ++ [Rg.HQ_PORT_CFG, Rg.SYS_FLUSH_SEQ, Rg.SYS_FLUSH_TIME]

/-- The core and retention domains take their reset values; PERST_N of each port is what it is. -/
def coreReset (d : Dev) : Dev :=
  { Dev.reset with
    nfree := d.nfree, regs := d.regs.filter (fun e => keyIn keptAtReset e.1), media := d.media, nvm := d.nvm, out := d.out, sys := d.sys
    pwr := { d.pwr with ps := 0, last := 0, sel := [], entry := none, idleAt := none, lastTry := 0, op := 3, move := none, limit := 0,
                        restoring := false, badBanks := [], tried := none }
    host := { HostIf.reset with
      dual := d.host.dual
      ports := (List.range 2).foldl (fun m p => mapSet Port.reset m p { Port.reset with perst := (d.port p).perst }) [] } }

/-- What the cold reset that may be released now follows, and whether a flush with power retained went before it. -/
def Dev.resetWhy (d : Dev) : Option (Why × Bool) :=
  match d.sys.stage with
  | .reset why flushed => some (why, flushed)
  | .off => some (.power, false)
  | .stopped .trip => if d.pwr.kelvin < d.rd Fd.PWR_THERM_CFG_T1 + 273 then some (.trip, true) else none
  | _ => none

/-- `SYS.RST_CAUSE` (Table 16-7). -/
def causeWord (why : Why) (flushed fatal : Bool) : Nat :=
  16 * b2n flushed + 8 * b2n fatal + 4 * b2n (why == .trip) + 2 * b2n (why == .software) + b2n (why == .power && !flushed)

/-- Unpowered time is unknown where the AON domain or its clock was lost (R425); any reset clears SEALED (R416). -/
def aonReset (d : Dev) : Dev :=
  let lost := !d.is Fd.AON_STAT_SAVED && (d.is Fd.AON_STAT_AON_LOST || d.is Fd.AON_STAT_CLK_STOP)
  (d.wr Fd.AON_STAT_SEALED 0).flagIf lost Fd.AON_STAT_TIME_LOST

/-- The sheet at which the counter starts: restored from the save record (R424), else 0. -/
def Dev.firstSheet (d : Dev) (ticks : Nat) : Nat := if d.is Fd.AON_STAT_SAVED then d.restoredSheet ticks else 0

/-- The boot graver: the lowest-numbered one that passes its reset clear (R368). -/
def bootGraver (bad : List Nat) : Option Nat := (List.range 64).find? fun g => g ∉ bad

/-- Gravers after the reset clear: FAILED, or HALT; the boot graver runs the boot ROM in M-mode, and every source goes to it (R358, R362, R368). -/
def resetGravers (bad : List Nat) (d : Dev) : Dev :=
  let d := bad.foldl (fun (d : Dev) g => d.modGraver g fun v => { v with st := .failed, cause := 2 }) d
  match bootGraver bad with
  | none => graverFault d
  | some b =>
    let d := graverFault (d.modGraver b fun v => { v with st := .run, pc := 0x40000000, petAt := d.strk.ran })
    forUpTo 256 (fun i d => d.wrb i Fd.GRV_IRQ_ROUTE_GRAVER b) (d.wr Fd.GRV_BOOT_GRAVER b)

/-! ### The boot chain (R371 to R373) -/

/-- The slots in the order in which the ROM tries them (R371). -/
def Nvm.romOrder (n : Nvm) : List Nat :=
  (if n.pending = 0 then [] else [n.pending]) ++ [n.active] ++ [2, 3].filter (fun k => k ≠ n.active && k ≠ n.pending) ++ [1]
/-- The first slot whose three images are accepted. -/
def Nvm.romChoice (n : Nvm) : Option Nat := n.romOrder.find? fun k => n.slotOk (n.slotBytes k)

/-- The slot pointer after a boot (R371): a pending slot that boots becomes active, one that fails is cleared and reported. -/
def Nvm.booted (n : Nvm) (k : Nat) : Nvm :=
  if n.pending = 0 then n
  else if n.pending = k then { n with active := k, pending := 0, failed := false } else { n with pending := 0, failed := true }

/-- The boot ROM's image. -/
def romBytes : List Byte := (List.range 0x40000).map Config.bootRom

/-- The ports are released; a follower never trains its ports (R454, R484). -/
def releasePorts (d : Dev) : Dev :=
  if d.sys.role ≠ 0 then d
  else forUpTo 2 (fun p d => if d.hasPort p then d.modPort p fun x => { x with released := true, training := x.perst } else d) d

/-- A slot was accepted: it is measured, the port mode is in force before the link trains (R433), Ground raises the core to OP1 and writes
`DMC.CTL.TRAIN` (Table 16-2). -/
def bootSlot (k : Nat) (d : Dev) : Dev :=
  let (g, _, c) := slotImages (d.nvm.slotBytes k)
  let d := extendMeas 4 (Config.sha384 c) (extendMeas 2 (Config.sha384 g) d)
  let d := d.modNvm fun n => n.booted k
  let d := (d.wr Fd.GRV_BOOT_SLOT k).wr Fd.GRV_BOOT_STATUS 1
  let mode := Config.imageMode (imgBody c) % 2
  let d := (d.wr Fd.HQ_PORT_CFG_MODE mode).modHost fun h => { h with dual := decide (mode = 1) }
  let d := planOp (releasePorts (d.wr Fd.PWR_OP_CTL_TARGET 1))
  dmcCtlWrite 6 (d.modSys fun y => { y with stage := .boot })

/-- The ROM chooses a slot, or stops with the host link down (R371). -/
def bootRun (d : Dev) : Dev :=
  match d.nvm.romChoice with
  | some k => bootSlot k d
  | none =>
    let d := if d.nvm.pending = 0 then d else d.modNvm fun n => { n with pending := 0, failed := true }
    (d.wr Fd.GRV_BOOT_STATUS 3).modSys fun y => { y with stage := .noSlot }

/-- Cold reset is released (R432, R434, R454). -/
def coldStart (why : Why) (flushed : Bool) (o : ResetObs) (d : Dev) : Dev :=
  let fatal := d.sys.cfs && why != .trip
  let d := (coreReset d).regSet Rg.SYS_RST_CAUSE 0 0 (causeWord why flushed fatal)
  let d := d.modSys fun y => { y with cfs := false, pinsSafe := true, download := [], role := o.role.val, selftest := false, stage := .noSlot }
  let d := startCounter (d.firstSheet o.ticks.toNat) (setTicks o.ticks.toNat (aonReset d))
  let d := (d.wr Fd.PWR_PMB_CFG_EXP o.exp.toNat).wr Fd.CIPH_EPOCH_POS o.role.val
  let d := d.wr Fd.DLK_ROLE_POS o.role.val
  let d := resetGravers (o.badGravers.map (·.val)) d
  let d := ((d.wr Fd.GRV_BOOT_SVN d.nvm.svn).wr Fd.GRV_BOOT_REVOKED d.nvm.revoked)
  let d := extendMeas 1 (Config.sha384 romBytes) d
  if d.steward.isSome then bootRun d else d

/-- COLD_RESET: while PWRFAIL_N is low the start is held (R481). -/
def execColdReset (obs : ResetObs) (s : State) : Host.Outcome State Fault Refusal :=
  match s.dev.resetWhy with
  | none => noEvent "cold reset" s
  | some (why, flushed) =>
    if s.dev.sys.failLow then .next (s.modDev fun d => d.modSys fun y => { y with stage := .waiting why flushed })
    else .next { s with mem := [], dev := coldStart why flushed obs s.dev }

/-! ### Tables (R234, R435 step 4) -/

/-- An opened zone is Closed (R114); uncommitted landings and staged data are gone. -/
def Zone.restart (z : Zone) : Zone :=
  { z with
    st := if z.st == .implOpen || z.st == .explOpen then .closed else z.st
    cp := z.wp, recs := z.recs.filter (·.done), refSrc := [], staged := [], marked := z.marked.map fun _ => 0 }

/-- The zone manager without what stood in cells or was under way. -/
def Zm.restart (m : Zm) : Zm :=
  { m with
    zones := m.zones.filterMap fun e => if e.2.restart = Zone.fresh then none else some (e.1, e.2.restart)
    conv := m.conv.map fun e => (e.1, match e.2 with | .cells _ _ => .lost | x => x)
    convProg := [], convCopy := [], refolds := [] }

/-- A refold that had not committed is undone: its destination is Empty again and its row released (R137). -/
def undoRefolds (d : Dev) : Dev :=
  d.zm.zones.foldl (fun (d : Dev) e =>
    match e.2.refDst, e.2.row with
    | some _, some (g, r) =>
      let d := d.modZone (e.1 / 2 ^ 20) (e.1 % 2 ^ 20) fun _ => Zone.fresh
      releaseRow (e.1 / 2 ^ 20) g r d
    | _, _ => d) d

/-- The durable tables take their places. A slot that was PURGING is EMPTY; IMPORT is empty. -/
def loadTables (t : Tables) (d : Dev) : Dev :=
  let d := { d with zm := t.zm.restart, med := t.med, regs := t.ten.foldl (fun (m : SMap Word) (e : Nat × Word) => mapInsert m e.1 e.2) d.regs }
  let d := d.modCiph fun c => { c with slots := t.keys.filter fun e => e.2.state != SlotState.purging }
  let d := d.modHost fun h => { h with dwe := t.dwe, dweSeq := t.dweSeq, dweLost := t.dweLost, dweTotal := t.dweTotal }
  let d := t.quotas.foldl (fun (d : Dev) e => d.modFunc e.1 fun f => { f with sqQuota := e.2.1, cqQuota := e.2.2 }) d
  undoRefolds d

/-- The records of which a copy passes its CRC; one that no valid copy holds is taken as never made (R234). -/
def Nvm.validRecs (n : Nvm) (badCopies : List (Nat × Nat)) : List BadRec :=
  (n.recs.filter fun e => e.2.any fun die => (e.1.seq, die) ∉ badCopies).map (·.1)

/-- A record that the tables were written before takes effect in them: a replacement it began starts again at step 2, another remap holds, what
it retired is retired (R232 to R234). -/
def applyNew (r : BadRec) (d : Dev) : Dev :=
  let (home, role) := d.roleOf r.die r.block
  if r.state = 5 then d.modRow r.group r.block fun x => { x with retired := true, bound := none }
  else if r.state = 4 then d.modMed fun m => { m with chanCause := mapInsert m.chanCause (r.die / 32) r.cause }
  else if r.state = 3 then d.modMed fun m => { m with dies := mapMod DieHealth.fresh m.dies r.die fun h => { h with cause := r.cause } }
  else if r.spare = 0xFFFF || 1536 ≤ r.die then d
  else if r.cause = 2 || r.cause = 4 || r.cause = 5 || r.cause = 6 then
    let p : Replace :=
      { home := home, block := role, old := r.block, spare := r.spare, cause := r.cause, first := 576, done := 0, ready := false }
    d.modMed fun m => { m with replace := mapInsert m.replace r.die p }
  else d.modMed fun m => { m with remap := mapSet (blockKey home role) m.remap (blockKey home role) (blockKey r.die r.spare) }

/-- The state that a record gives its block: the old block of a replacement under way is still read (R230). -/
def applyState (r : BadRec) (d : Dev) : Dev :=
  let copying := (mapFind d.med.replace r.die).any fun p => decide (p.old = r.block)
  if r.state < 3 then d.modDie (r.die / 32) (r.die % 32) fun x => x.setBlock r.block (if copying && r.state = 2 then 1 else r.state) else d

/-- The valid records in SEQ order, over the tables, give the block states (R234), and the dies and channels retired before. -/
def applyRecs (badCopies : List (Nat × Nat)) (d : Dev) : Dev :=
  let rs := d.nvm.validRecs badCopies
  let last := d.med.recSeq
  let d := (rs.filter fun r => decide (last < r.seq)).foldl (fun d r => applyNew r d) d
  let d := d.modMed fun m => { m with recs := rs, recSeq := rs.foldl (fun a r => max a r.seq) last }
  let d := rs.foldl (fun d r => applyState r d) d
  let d := d.med.dies.foldl (fun (d : Dev) e =>
    if e.2.cause = 0 then d
    else faultOn 1 (d.modDie (e.1 / 32) (e.1 % 32) fun x => { x with st := if x.st == .absent then .absent else .retired })) d
  d.med.chanCause.foldl (fun (d : Dev) e =>
    if e.2 = 0 then d
    else faultOn 1 (d.modChan e.1 fun c => { c with
      retired := true, dies := c.dies.map fun x => (x.1, { x.2 with st := if x.2.st == .absent then .absent else .retired }) })) d

/-- The dies that answer are present, and every channel is to be trained to its rate from the next sheet boundary on (R435 step 3, R201). -/
def findDies (dies : List Nat) (d : Dev) : Dev :=
  let d := dies.foldl (fun (d : Dev) x => d.modDie (x / 32) (x % 32) fun y => { y with st := .idle }) d
  forUpTo 48 (fun n d => requestTraining n (enableSeq n d)) d

/-- Every channel that is not retired runs at the rate it was trained to. -/
def Dev.allTrained (d : Dev) : Bool := (List.range 48).all fun n => (d.chan n).retired || ((d.chan n).trained && (d.chan n).training == .none)

/-- The record of a die's and block's state at the latest (R234). -/
def Dev.recorded (d : Dev) (die b : Nat) : Bool := d.med.recs.any fun r => decide (r.die = die) && decide (r.block = b)

/-- A block found with a factory mark, at the first start-up of its die, is BAD (R195); the record of it is made then (R233). -/
def factoryMark (die b : Nat) (d : Dev) : Dev :=
  if d.recorded die b then d else makeBad die b 1 d

/-- The blocks of the dies that are there. -/
def Dev.allBlocks (d : Dev) : List Nat :=
  ((List.range 1536).filter fun die => (d.die (die / 32) (die % 32)).st != .absent).flatMap fun die => (List.range q4Blocks).map (blockKey die)

/-- What cannot be known of the blocks when the metadata delta of the last image is unreadable (R222): every block takes its last written wear
plus 100 points, level set 0, and half its read-disturb limit. -/
def wearUnknown (d : Dev) : Dev :=
  let ks := d.allBlocks
  d.modMed fun m => { m with
    wear := ks.map (fun k => (k, mapGet 0 m.ckptWear k + 100)), level := []
    reads := ks.map fun k => (k, d.thresh (if (d.roleOf (k / 4096) (k % 4096)).2 < 14 then 4 else 3) / 2) }

/-- With the unpowered time unknown, every bound extended-life row is scrubbed ahead of the normal stipple lap (R238). -/
def scrubFirst (d : Dev) : Dev :=
  if d.is Fd.AON_STAT_TIME_LOST then
    let rows := d.med.rows.filterMap fun e =>
      if e.2.bound.isSome && d.extended (e.1 / 4096) (e.1 % 4096) then
        some ({ group := e.1 / 4096, row := e.1 % 4096, left := List.range 16 } : UrgRow)
      else none
    { d with stip := { d.stip with urgent := d.stip.urgent ++ rows } }
  else d

/-- A load of the counter is asked for through `STRK.LOAD`: it acts at the next sheet boundary (R36). -/
def loadCounter (sheet : Nat) (d : Dev) : Dev :=
  let d := (d.wr Fd.STRK_LOAD_LO_SHEET_LO (sheet % 2 ^ 32)).wr Fd.STRK_LOAD_HI_SHEET_HI (sheet / 2 ^ 32)
  if d.strk.load.isSome then d else { d with strk := { d.strk with load := some sheet } }

/-- With TIME_LOST the counter is seeded 65,537 sheets above the last durable one (R425, R426), before fetch is enabled and so before the first
write is accepted. -/
def seedCounter (d : Dev) : Dev :=
  if d.is Fd.AON_STAT_TIME_LOST then (loadCounter (d.nvm.sheet + 65537) d).modPwr fun p => { p with stamp := none, synch := true } else d

/-! ### Where Thrumlux puts its areas in DRAM (log entry 60) -/

/-- Writes a base register pair that still reads zero. -/
def placeBase (lo hi : RegDef) (n a : Nat) (d : Dev) : Dev :=
  if d.base lo hi n ≠ 0 then d else (d.regSet lo n 0 (a % 2 ^ 32)).regSet hi n 0 (a / 2 ^ 32)

/-- Areas whose base registers still read zero are placed: Jenam's, the rings, the stipple map, the accumulators, and a pool of 256 cells
for each MiB of DRAM. -/
def placeAreas (d : Dev) : Dev :=
  let mib := d.dram.mib
  let at' (m : Nat) := dramBase + m * 2 ^ 20
  let d := placeBase Rg.JNM_BUF_BASE_LO Rg.JNM_BUF_BASE_HI 0 (at' 0) d
  let d := placeBase Rg.JNM_CACHE_BASE_LO Rg.JNM_CACHE_BASE_HI 0 (at' 2) d
  let d := forUpTo 48 (fun n d => placeBase Rg.SEQ_CQ_BASE_LO Rg.SEQ_CQ_BASE_HI n (at' 66 + n * 0x4000) d) d
  let d := placeBase Rg.LDPC_ESC_BASE_LO Rg.LDPC_ESC_BASE_HI 0 (at' 67) d
  let d := placeBase Rg.PAR_JCQ_BASE_LO Rg.PAR_JCQ_BASE_HI 0 (at' 67 + 0x10000) d
  let d := placeBase Rg.CIPH_JCQ_BASE_LO Rg.CIPH_JCQ_BASE_HI 0 (at' 67 + 0x20000) d
  let d := placeBase Rg.STIP_MAP_BASE_LO Rg.STIP_MAP_BASE_HI 0 (at' 68) d
  let d := placeBase Rg.PAR_ACC_BASE_LO Rg.PAR_ACC_BASE_HI 0 (at' 92) d
  if d.is Fd.CELL_CTL_EN || d.rd Fd.CELL_DRAM_N_N ≠ 0 then d
  else
    let link := dramBase + mib * 786432
    let d := d.wr Fd.CELL_DRAM_N_N (mib * 256)
    let d := placeBase Rg.CELL_BASE_LO Rg.CELL_BASE_HI 0 (dramBase + mib * 524288) d
    let d := placeBase Rg.CELL_LINK_BASE_LO Rg.CELL_LINK_BASE_HI 0 link d
    let d := placeBase Rg.CELL_META_BASE_LO Rg.CELL_META_BASE_HI 0 (link + mib * 4096) d
    placeBase Rg.CELL_RING_BASE_LO Rg.CELL_RING_BASE_HI 0 (link + mib * 20480) d

/-- CELL and CAM are enabled; the pool initialises itself (R336, R435 step 2). -/
def enableMemory (d : Dev) : Dev :=
  let d := placeAreas d
  let d := if d.is Fd.CELL_CTL_EN then d else cellCtlWrite 1 d
  let d := if d.pool.initBusy then poolReady d else d
  (d.wr Fd.CAM_CTL_EN 1).wr Fd.PAR_CTL_EN 7

/-- A new epoch is made durable and written, and the lanes run (R295); after the last one no epoch is written any more. -/
def enableCipher (d : Dev) : Dev :=
  let d :=
    if 0x3FFFFFFF ≤ d.nvm.epoch then d
    else
      let e := d.nvm.epoch + 1
      epochWrite e (d.modNvm fun n => { n with epoch := e })
  d.wr Fd.CIPH_CTL_EN 1

/-! ### Replay (R443 to R445) -/

/-- The owner of a namespace. -/
def Dev.nsOwner (d : Dev) (nsid : Nat) : Nat := match d.ns? nsid with | some ns => ns.owner | none => 0

/-- Puts a sector into four cells of a tenant: the first cell, and whether its share of the ceiling is of the reserve. -/
def cellSector (owner : Nat) (x : Sector) (d : Dev) : (Nat × Bool) × Dev :=
  let (h, d) := grantCells (some owner) 4 d
  let (d, res) := takeStage owner 1 d
  ((h, res), d.modPool fun p => p.putSector h 0 x)

/-- A zone sector goes back into cells; an earlier image's copy is replaced. -/
def restageZone (nsid z s : Nat) (x : Sector) (d : Dev) : Dev :=
  let owner := d.nsOwner nsid
  let d := match mapFind (d.zone nsid z).staged s with
    | some (f, res) => dropStage owner 1 res (freeSectorCells f d)
    | none => d
  let (c, d) := cellSector owner x d
  d.modZone nsid z fun y => { y with staged := mapInsert y.staged s c }

/-- A conventional sector goes back into cells. -/
def restageConv (k : Nat) (x : Sector) (d : Dev) : Dev :=
  let owner := d.nsOwner (k / 2 ^ 40)
  let d := match mapFind d.zm.conv k with
    | some (.cells f res) => dropStage owner 1 res (freeSectorCells f d)
    | _ => d
  let (c, d) := cellSector owner x d
  d.modZm fun m => { m with conv := mapInsert m.conv k (.cells c.1 c.2) }

/-- Sector `s` of a zone, from an image: dropped where the medium holds it already; where the program that the flush let end failed,
its block is replaced with cause 0x04 (R443). `bad`: no decoder tier reads it, and its zone turns Read Only (R115, R444). -/
def replayZone (last bad : Bool) (nsid z s : Nat) (x : Sector) (d : Dev) : Dev :=
  let y := d.zone nsid z
  match y.row with
  | some (g, r) =>
    if y.wp ≤ s then d
    else match mapFind d.media (d.sectorKey g r s) with
      | some m =>
        if m = x || !last then d
        else
          let (die, b, _, page, _) := d.sectorPlace g r s
          let d := wantReplace die b 4 (page / 4) d
          if bad then d else restageZone nsid z s x d
      | none =>
        if bad then
          markZone nsid z 0 ((deferredError nsid (zoneStart z + s) 1 3 d).modZone nsid z fun y => { y with lost := listAdd y.lost (s, 1) })
        else restageZone nsid z s x d
  | none => d

/-- A conventional sector from an image, under the region's mapping. -/
def replayConv (bad : Bool) (k : Nat) (x : Sector) (d : Dev) : Dev :=
  match mapFind d.zm.conv k with
  | some (.media _ _) | none => d
  | some _ => if bad then deferredError (k / 2 ^ 40) (k % 2 ^ 40) 1 3 d else restageConv k x d

/-- A unit of an image is applied (R443). -/
def replayUnit (last bad : Bool) (u : FlushUnit) (d : Dev) : Dev :=
  u.sectors.zipIdx.foldl (fun (d : Dev) e =>
    if u.kind = 1 then replayZone last bad u.nsid u.zone (u.lba + e.2 - zoneStart u.zone) e.1 d
    else replayConv bad (u.nsid * 2 ^ 40 + u.lba + e.2) e.1 d) d

/-- Image `i` of the HOLD images is applied. -/
def replayImage (count i : Nat) (m : Image) (badImages : List Nat) (badUnits : List (Nat × Nat)) (d : Dev) : Dev :=
  let d := m.units.zipIdx.foldl (fun (d : Dev) e => replayUnit (i + 1 = count) (i ∈ badImages || (i, e.2) ∈ badUnits) e.1 d) d
  let d := d.wr Fd.SYS_FLUSH_SEQ_FSEQ (m.fseq % 2 ^ 32)
  if m.ended then d else faultOn 8 d

/-- The tables of the last image whose directory can be read, else those of the metadata blocks (R222, R443). -/
def Dev.startTables (d : Dev) (badImages : List Nat) : Option Tables :=
  match (d.nvm.images.zipIdx.filter fun e => e.2 ∉ badImages).getLast? with
  | some e => some e.1.tables
  | none => d.nvm.tables

/-- A unit that a follower reported in its HOLD directory stands in its cells; one that this device's image held too is applied once (R469). -/
def replayFar (pos key : Nat) (d : Dev) : Dev :=
  let nsid := key / 2 ^ 40
  let z := key % 2 ^ 40 / zoneSpan
  let s0 := key % 2 ^ 40 % zoneSpan
  let x := d.zone nsid z
  if x.row.any fun r => groupDev r.1 == some pos then
    let n := min 64 (x.wp - s0)
    let d := forUpTo n (fun i d =>
      if (mapFind (d.zone nsid z).staged (s0 + i)).isSome then d
      else
        let (d, res) := takeStage (d.nsOwner nsid) 1 d
        d.modZone nsid z fun y => { y with staged := mapInsert y.staged (s0 + i) (endOfChain, res) }) d
    standsFar nsid z s0 n d
  else d

/-- Sectors that were put back into this device's cells and belong on a follower are sent there (R463). -/
def moveStaged (d : Dev) : Dev :=
  d.zm.zones.foldl (fun (d : Dev) e =>
    if e.2.row.any fun r => (groupDev r.1).isSome then
      e.2.staged.foldl (fun (d : Dev) x => if x.2.1 = endOfChain then d else moveOut (e.1 / 2 ^ 20) (e.1 % 2 ^ 20) x.1 1 d) d
    else d) d

/-- Replay: every HOLD image in ascending FSEQ order; a short last unit is padded again. -/
def replayAll (badImages : List Nat) (badUnits : List (Nat × Nat)) (d : Dev) : Dev :=
  let n := d.nvm.images.length
  let d := d.nvm.images.zipIdx.foldl (fun (d : Dev) e => replayImage n e.2 e.1 badImages badUnits d) d
  let d := moveStaged (d.dlk.reported.foldl (fun (d : Dev) e => replayFar e.1 e.2 d) d)
  d.zm.zones.foldl (fun (d : Dev) e =>
    let d := if e.2.st == .full || e.2.marked.isSome then padUnit (e.1 / 2 ^ 20) (e.1 % 2 ^ 20) d else d
    syncZone (e.1 / 2 ^ 20) (e.1 % 2 ^ 20) d) d

/-! ### Plans (R63, R437) -/

/-- An entry of the default plan (Table 2-6). -/
def defaultEntry (k : Nat) : DWord :=
  if k % 8 < 7 then BitVec.ofNat 64 (k % 8 * 2 ^ 60 + 0xFFFFFFFF)
  else if k = 7 || k = 135 then 0xFC000000FFFFFFFF else 0xF4000000FFFFFFFF
/-- The default plan. -/
def defaultBank : SMap DWord := (List.range 256).map fun k => (k, defaultEntry k)

/-- The default plan is written to bank A with seal mask 0, and armed for the next sheet boundary (BANK = 0, ANYSHEET = 1). -/
def armPlan (n : Nat) (d : Dev) : Dev :=
  if (d.chan n).retired then d
  else
    let d := d.modChan n fun c => { c with hatchA := defaultBank, sealA := 0 }
    hatchArm n ((d.wrc n Fd.HATCH_CTL_BANK 0).wrc n Fd.HATCH_CTL_ANYSHEET 1)

/-- The stored plan, if there is one, is written to bank B and armed for the sheet two sheets after the default plan's switch (ANYSHEET = 0). -/
def armStored (n : Nat) (d : Dev) : Dev :=
  match mapFind d.nvm.plan n with
  | some (b, m) =>
    if (d.chan n).retired then d
    else
      let d := d.modChan n fun c => { c with hatchB := b, sealB := m }
      let sheet := (d.rdc n Fd.HATCH_SWITCH_SHEET_SHEET + 2) % 2 ^ 32
      hatchArm n ((d.wrc n Fd.HATCH_ARM_SHEET_SHEET sheet).wrc n Fd.HATCH_CTL_ANYSHEET 0)
  | none => d

/-- No plan waits for its switch. -/
def Dev.plansLive (d : Dev) : Bool := (List.range 48).all fun n => (d.chan n).arm.isNone

/-! ### Gravers, Jenam and the host (R362, R369, R373, R392, R436) -/

/-- Thrumlux runs: the spares of `GRV.SPARE` are held, every other graver that passed runs; measurement 3, then MLOCK. -/
def runGravers (slot : Nat) (d : Dev) : Dev :=
  let (_, t, _) := slotImages (d.nvm.slotBytes slot)
  let d := d.wr Fd.GRV_SPARE_HI_MASK 0xF0000000
  let d := forUpTo 64 (fun g d =>
    match (d.graver g).st with
    | .halt => if 60 ≤ g then d.modGraver g fun v => { v with st := .spare } else runGraver g d
    | .run => d.modGraver g fun v => { v with pc := BitVec.ofNat 64 (imgEntry t), petAt := d.strk.ran }
    | _ => d) d
  let d := extendMeas 3 (Config.sha384 t) d
  (d.modGrv fun x => { x with mlock := true }).wr Fd.GRV_BOOT_STATUS 2

/-- Jenam is enabled on its paths, with the settings of the configuration image. -/
def enableJenam (slot : Nat) (d : Dev) : Dev :=
  let (_, _, c) := slotImages (d.nvm.slotBytes slot)
  let d := ((d.wr Fd.JNM_CTL_EN 1).wr Fd.JNM_CTL_SMB_EN 1).wr Fd.JNM_CTL_I3C_EN 1
  (d.wr Fd.JNM_CTL_MCTP_WR (b2n (Config.imageMctpWr (imgBody c)))).wr Fd.JNM_CTL_DIAG_WR (b2n (Config.imageDiagWr (imgBody c)))

/-- The graver an etching may be given (R376): the highest-numbered one in RUN, while more than 8 are. -/
def Dev.etchGraver (d : Dev) : Option Nat :=
  if (d.graversIn .run).length ≤ 8 then none else (d.graversIn .run).getLast?

/-- An etching of the store is loaded into its slot and started (R376). -/
def restartEtching (e : Nat) (bs : List Byte) (window : Nat) (s : State) : State :=
  match s.dev.etchGraver with
  | none => s.modDev fun d => d.modEtch e fun x => { x with image := bs, window := etchWindow e window }
  | some g =>
    etchStart e g (s.modDev fun d =>
      extendMeas (5 + e) (Config.sha384 bs) (d.modEtch e fun x => { x with image := bs, window := etchWindow e window, graver := some g }))

def restartEtchings (s : State) : State := s.dev.nvm.etch.foldl (fun s e => restartEtching e.1 e.2.1 e.2.2 s) s

/-- A CC.EN written before start-up ended is answered (R436). -/
def answerReady (d : Dev) : Dev :=
  if !d.mayBeReady then d
  else d.host.funcs.foldl (fun (d : Dev) e =>
    if e.2.en && !e.2.stopping && (d.port (d.portOf e.1)).up then d.modFunc e.1 fun x => { x with rdy := true } else d) d

/-! ### Start-up (R435) -/

/-- Until Jenam sets quotas, the PF of each port in use holds 1,024 SQs and 1,024 CQs (R79). -/
def defaultQuotas (d : Dev) : Dev :=
  d.pfs.foldl (fun (d : Dev) f => d.modFunc f fun x => { x with sqQuota := 1024, cqQuota := 1024 }) d

/-- Thrumlux runs on its gravers, steps 2 and 3: memory, cipher, dies, and the training of every channel begins. -/
def startHardware (o : StartObs) (d : Dev) : Dev :=
  let d := runGravers (d.rd Fd.GRV_BOOT_SLOT) d
  let d := defaultQuotas (enableCipher (enableMemory d))
  (findDies (o.dies.map (·.val)) d).modSys fun y => { y with stage := .starting o .training, pinsSafe := false }

/-- Step 4: tables, block states, keys, the counter's seed. -/
def startTables (o : StartObs) (d : Dev) : Dev :=
  let d := match d.startTables o.badImages with
    | some t => loadTables t d
    | none => d
  let d := if d.nvm.images.length - 1 ∈ o.badImages then wearUnknown d else d
  let d := applyRecs o.badCopies d
  let d := o.marked.foldl (fun (d : Dev) e => factoryMark e.1.val e.2.toNat d) d
  seedCounter (scrubFirst d)

/-- Steps 4 to 8, and the default plan armed (step 9). -/
def startWork (o : StartObs) (d : Dev) : Dev :=
  let d := replayAll o.badImages o.badUnits (startTables o d)
  let d := rescueReady (eraseDirty (releaseImages (restartReplacements d)))
  let d := enableJenam (d.rd Fd.GRV_BOOT_SLOT) d
  let d := metadataCheckpoint (if d.med.rows.any fun e => e.2.bound.isSome && !e.2.lost.isEmpty then faultOn 7 d else d)
  (forUpTo 48 armPlan d).modSys fun y => { y with stage := .starting o .plan }

/-- The end of step 9: fetch is enabled. -/
def startService (d : Dev) : Dev :=
  answerReady ((d.modSys fun y => { y with stage := .service }).modHost fun h => { h with fetchOn := true })

/-- Start-up goes on at a sheet boundary: once every channel is trained, steps 4 to 8 and the default plan; once that plan is live, the stored
one; once that is live too and the rescue blocks have their ready room (step 8), service. -/
def startSheet (s : State) : State :=
  match s.dev.sys.stage with
  | .starting o .training => if s.dev.allTrained then s.modDev (startWork o) else s
  | .starting o .plan =>
    if s.dev.plansLive then s.modDev fun d => (forUpTo 48 armStored d).modSys fun y => { y with stage := .starting o .stored } else s
  | .starting _ .stored =>
    let s := s.modDev rescueReady
    if s.dev.plansLive && s.dev.rescueIsReady then restartEtchings (s.modDev startService) else s
  | _ => s

/-- Thrumlux's start-up begins: self-test, memory, dies, training. A fatal failure of the self-test stops it (R436). -/
def thrumluxStart (o : StartObs) (s : State) : State :=
  if o.fails.any fun f => f.index.val = 62 && f.unit = 0 then s.modDev fun d => fatalStorage (selfTestResults o.fails d)
  else
    let s := selfTestEnd o.fails (s.modDev (startHardware o))
    o.badChannels.foldl (fun s n => retireChannel n.val s) s

/-- THRUMLUX_STARTUP: due once Ground has the DRAM in service. Its later steps follow at sheet boundaries (`startSheet`). -/
def execThrumluxStartup (obs : StartObs) (s : State) : Host.Outcome State Fault Refusal :=
  if s.dev.sys.stage == .boot && s.dev.dram.initDone then .next (thrumluxStart obs s) else noEvent "start-up" s

end Sys2Proof.Machine
end

