-- ==== Sys2Proof/Machine/Wake.lean ====
section
/-! DEFINITION. PS4 entry after its attempt, and the exits from PS3 and PS4 (R408, R411 to R418). -/

namespace Sys2Proof.Machine

/-! ### Entry (R408) -/

/-- The keep banks, and one of them: 32 banks of 256 KiB from 0x01_0280_0000 (R27). -/
def keepBase : Nat := 0x102800000
def keepBytes : Nat := 0x40000

/-- Memory that only keeps its keep banks. -/
def keepOnly (m : Memory) : Memory := m.filter fun c => keepBase ≤ c.1 && c.1 < keepBase + 32 * keepBytes

/-- The signature of each keep bank (R416). -/
def keepSigs (s : State) : SMap (BitVec 64) :=
  (List.range 32).foldl (fun m b =>
    mapSet 0 m b (BitVec.ofNat 64 (crc64 (s.readBytes keepBytes (keepBase + b * keepBytes))))) []

/-- No die runs anything. -/
def Dev.diesQuiet (d : Dev) : Bool := d.chans.all fun c => c.2.dies.all fun x => x.2.op.isNone && x.2.rd.isNone

/-- PS4 entry, step 2: once running programs and erases have ended, the flush image is written and enters HOLD (R408). -/
def ps4Image (d : Dev) : Dev :=
  match d.pwr.entry with
  | some e =>
    if e.target = 4 && !e.written && d.diesQuiet then
      (endImage (writeImage [] d)).modPwr fun p => { p with entry := some { e with written := true } }
    else d
  | none => d

/-- PS4 entry, steps 4 to 6, at a sheet boundary: the save record, the seals, the stroke clock stops, the regulator is commanded off. -/
def ps4Seal (s : State) : State :=
  let sigs := keepSigs s
  let s := s.modDev fun d =>
    let d := (saveTime d).wr Fd.AON_STAT_SEALED 1
    let d := enterPs 4 (d.modPwr fun p => { p with sigs := sigs, entry := none, move := none })
    { d with strk := { d.strk with lock := false, started := false, load := none }, out := .pmbusOff :: d.out }
  { s with mem := keepOnly s.mem }

/-- The entry into PS4 is complete but for its last steps. -/
def Dev.sealDue (d : Dev) : Bool :=
  match d.pwr.entry with
  | some e => e.target = 4 && e.written
  | none => false

/-! ### Exit from PS4 (R414 to R418) -/

/-- Registers whose values Thrumlux restores from the keep banks (Table 15-7): PWR and AON, which keep them, and the settings of HQ,
ZONE, TEN, CAM, the arbiters, the hatch logic and the queue routes. -/
def keptInPs4 : List RegDef :=
  keptAtReset ++ regsHq ++ regsZone ++ regsTen ++ regsCam ++
    ((regsChan0 ++ regsChan1 ++ regsChan2).filter fun r => decide (0x2000 ≤ r.addr % 0x10000) && decide (r.addr % 0x10000 < 0x4000)) ++
    [Rg.GRV_QOWN, Rg.GRV_IRQ_ROUTE, Rg.GRV_START_LO, Rg.GRV_START_HI, Rg.GRV_WD, Rg.GRV_SPARE_LO, Rg.GRV_SPARE_HI, Rg.GRV_BOOT,
     Rg.CIPH_SLOT, Rg.CIPH_EPOCH, Rg.DLK_ROLE]

/-- A keep bank that holds hatch banks, seal masks and the plan in force (Table 15-7) failed its check. -/
def planLost (bad : List Nat) : Bool := bad.any fun b => b = 27 || b = 28

/-- A channel after PS4: dies idle, hatch banks and seal masks restored and the plan armed with ANYSHEET, the PHY at its saved rate with
its saved centres (R408, R414). With the bank that held them lost, hatch banks and plan wait for the metadata blocks (R417). -/
def Chan.resume (c : Chan) (lost : Bool) (now : Nat) : Chan :=
  { Chan.reset with
    hatchA := if lost then [] else c.hatchA, hatchB := if lost then [] else c.hatchB
    sealA := if lost then 0 else c.sealA, sealB := if lost then 0 else c.sealB, retired := c.retired
    arm := if c.active && !lost then some { bank := c.live, target := .any true, checking := false, writtenT := now, late := false } else none
    dies := c.dies.map fun e => (e.1, { Die.reset with
      st := if e.2.st == .retired || e.2.st == .absent then e.2.st else .idle
      blocks := e.2.blocks
      rdWidth := e.2.rdWidth, rdCenter := e.2.rdCenter, wrWidth := e.2.wrWidth, wrCenter := e.2.wrCenter })
    rate := c.rate, trained := c.trained, trainRate := c.trainRate }

/-- A graver after PS4: its role restored, running from its START again. -/
def Graver.resume (v : Graver) (start : DWord) : Graver :=
  { Graver.reset with st := v.st, cause := v.cause, slot := v.slot, pc := start }

/-- The core powered again: registers at reset but for what the keep banks restore, keys from their blobs, the epoch chosen at the entry. -/
def resumeDev (bad : List Nat) (d : Dev) : Dev :=
  let r : Dev := { Dev.reset with
    nfree := d.nfree, regs := d.regs.filter (fun e => keyIn keptInPs4 e.1), media := d.media, host := d.host, zm := d.zm.restart, med := d.med
    strk := d.strk, nvm := d.nvm, sys := d.sys, dlk := d.dlk, out := d.out
    chans := d.chans.map fun e => (e.1, e.2.resume (planLost bad) d.now)
    ecc := { Ecc.reset with checks := d.ecc.checks, buckets := d.ecc.buckets }
    par := { Par.reset with ok := d.par.ok }
    ciph := { Ciph.reset with laneOk := d.ciph.laneOk, slots := d.ciph.slots.filter fun e => e.1 ≠ importSlot }
    grv := { d.grv with
      queues := [], stage := []
      gravers := d.grv.gravers.map fun e => (e.1, e.2.resume (d.startOf e.1)) }
    jnm := { Jnm.reset with miFreq := d.jnm.miFreq, miChange := d.jnm.miChange }
    pwr := { d.pwr with ps := d.pwr.last, op := 3, restoring := true, badBanks := bad, idleAt := none, lastTry := 0 } }
  let slot := r.rd Fd.GRV_BOOT_SLOT
  let r := enableJenam slot (enableCipher (r.wr Fd.GRV_BOOT_STATUS 2))
  let r := forUpTo 48 (fun n r => r.wrc n Fd.SEQ_CTL_EN 1) r
  let r := r.modHost fun h => { h with stagedOf := [], stagedShared := 0 }
  dmcCtlWrite 6 (planOp (r.wr Fd.PWR_EVT_PS 1))

/-- Exit from PS4: the counter is restored, or with its clock lost seeded (R424, R425); the banks are checked, and each bad bank is
recorded in telemetry Data Area 1, and a bad bank 0 or 1 makes the resume a cold start (R417). -/
def ps4Exit (bad : List Nat) (s : State) : State :=
  let s := s.modDev fun d =>
    let d := d.wr Fd.AON_KB_BAD_BAD (bad.foldl (fun w b => setBits w b b 1) (d.rd Fd.AON_KB_BAD_BAD))
    let d := bad.foldl (fun (d : Dev) b => d.trace 2 b) d
    if d.is Fd.AON_STAT_SAVED then startCounter (d.restoredSheet d.pwr.ticks) d
    else
      seedCounter (startCounter 0 (d.wr Fd.AON_STAT_TIME_LOST 1))
  if 0 ∈ bad || 1 ∈ bad then s.modDev fun d => d.modSys fun y => { y with stage := .reset .power false }
  else
    let s := { s with mem := keepOnly s.mem, dev := resumeDev bad s.dev }
    s.dev.grv.etch.foldl (fun s e => match e.2.graver with | some g => etchStart e.1 g s | none => s) s

/-- A channel's plan is loaded from the metadata blocks: the stored one, else the default one, for the next sheet boundary (R417, R437). -/
def reloadPlan (n : Nat) (d : Dev) : Dev :=
  match mapFind d.nvm.plan n with
  | some (b, m) =>
    if (d.chan n).retired then d
    else hatchArm n (((d.modChan n fun c => { c with hatchB := b, sealB := m }).wrc n Fd.HATCH_CTL_BANK 1).wrc n Fd.HATCH_CTL_ANYSHEET 1)
  | none => armPlan n d

/-- The full restore, once the DRAM serves accesses: what bad keep banks held, pool, image, rescue blocks (R414, R417). -/
def fullRestore (d : Dev) : Dev :=
  if d.pwr.restoring && d.dram.initDone then
    let d := if planLost d.pwr.badBanks then forUpTo 48 reloadPlan d else d
    let d := replayAll [] [] (placeAreas (enableMemory d))
    (rescueReady (releaseImages d)).modPwr fun p => { p with restoring := false, badBanks := [] }
  else d

/-! ### Wake sources (R411, R412) -/

/-- The wake pattern goes on through the cascade (R412): from the master down, from a follower's own source up, and on from a follower
that detected it. -/
def wakeCascade (b : Nat) (d : Dev) : Dev :=
  if d.sys.role = 0 then (if d.dlk.admitted.isEmpty then d else { d with out := .wakePattern 0 :: d.out })
  else if b = 3 then { d with out := .wakePattern 0 :: d.out }
  else { d with out := .wakePattern 1 :: d.out }

/-- The device drives WAKEn_N of each port whose own link is not the source that brings it out of PS3 or PS4 (R473). -/
def driveWake (b : Nat) (d : Dev) : Dev :=
  forUpTo 2 (fun p d => if (p = 0 || d.dual) && decide (b ≠ p) then d.send (.wakeN p) else d) d

/-- A source fires: it is recorded, and where enabled it aborts an entry under way, or starts the exit. A PWRFAIL in PS4 is recorded only. -/
def wakeUp (b : Nat) (bad : List Nat) (s : State) : State :=
  let s := s.modDev (recordWake b)
  let d := s.dev
  if !d.wakeEnabled b then s
  else if d.pwr.entry.isSome then s.modDev fun d => abortEntry (wakeCause b) (wakeIdle d)
  else if d.pwr.ps = 3 then s.modDev fun d => driveWake b (wakeCascade b (exitPs3 d))
  else if d.pwr.ps = 4 && b ≠ 5 then ps4Exit bad (s.modDev fun d => driveWake b (wakeCascade b d))
  else s

/-- WAKE_SOURCE: bit 7 names no source (Table 15-5). -/
def execWakeSource (bit : Fin 24) (obs : WakeObs) (s : State) : Host.Outcome State Fault Refusal :=
  if bit.val = 7 then noEvent "wake source" s
  else .next (wakeUp bit.val (obs.badBanks.map (·.val)) (s.modDev (setTicks obs.ticks.toNat)))

/-- `AON.ALARM`. -/
def Dev.alarm (d : Dev) : Nat := d.rd Fd.AON_ALARM_LO_TICKS + d.rd Fd.AON_ALARM_HI_TICKS * 2 ^ 32

/-- AON_ALARM: the tick count reaches the alarm (R411). -/
def execAonAlarm (s : State) : Host.Outcome State Fault Refusal :=
  if s.dev.pwr.ticks ≤ s.dev.alarm then .next (wakeUp 4 [] (s.modDev (setTicks s.dev.alarm))) else noEvent "alarm" s

end Sys2Proof.Machine
end

