-- ==== Sys2Proof/Machine/Stroke.lean ====
section
/-! DEFINITION. The stroke counter and what happens at stroke and sheet boundaries (R33 to R37, R42, R47 to R49, R56, R58, R199 to R201,
R214, R276, R347, R448). -/

namespace Sys2Proof.Machine

/-! ### The counter (R36, R37) -/

/-- A write of `STRK.CTL`: LOAD samples the sheet number, and is ignored while a load is pending. -/
def strkCtlWrite (v : Nat) (d : Dev) : Dev :=
  let d := (d.wr Fd.STRK_CTL_CMP_IE (bits v 1 1)).wr Fd.STRK_CTL_SHEET_IE (bits v 0 0)
  if bit v 2 && d.strk.load.isNone then
    { d with strk := { d.strk with load := some (d.rd Fd.STRK_LOAD_LO_SHEET_LO + d.rd Fd.STRK_LOAD_HI_SHEET_HI * 2 ^ 32) } }
  else d

/-- STRK_LOAD: a write of `STRK.CTL` with LOAD = 1. -/
def execStrkLoad (v : Word) (cyc : BitVec 10) (s : State) : Host.Outcome State Fault Refusal :=
  onDev s (orRsv (decide (bits v.toNat 31 3 ≠ 0)) fun d => strkCtlWrite (setBits v.toNat 2 2 1) (d.atCycle cyc))

/-- COUNT_LO_READ: both halves are taken in one clock (Tables 2-12 and 2-13). -/
def countLoRead (d : Dev) : Dev :=
  { d with strk := { d.strk with hi := bits d.strk.count 63 32 }
           bus := { data := BitVec.ofNat 64 (bits d.strk.count 31 0), err := false } }

def execCountLoRead (cyc : BitVec 10) (s : State) : Host.Outcome State Fault Refusal :=
  onDev s (always fun d => countLoRead (d.atCycle cyc))

/-- Scheduling is laid aside on every channel (R37). -/
def layAside (d : Dev) : Dev :=
  forUpTo 48 (fun n d => d.modChan n fun c =>
    { c with suspended := true, entry := unscheduledEntry, nullStroke := false, calStroke := false }) d

/-- Every channel begins its stroke again. -/
def slotsAnew (d : Dev) : Dev := forUpTo 48 (fun n d => d.modChan n fun c => { c with nextSlot := 0 }) d

/-- The stroke PLL loses lock (R37, R451): the counter holds, and every channel serves its bus in arrival order. -/
def pllUnlock (d : Dev) : Dev :=
  let d := layAside ((faultOn 0 ((d.wr Fd.STRK_STAT_UNLOCK 1).add Fd.STRK_SLIPS_COUNT 1)).trace 1 0)
  { d with strk := { d.strk with lock := false }, pwr := { d.pwr with synch := true } }

/-- STROKE_PLL_UNLOCK: while the stroke clock runs. -/
def execStrokePllUnlock (cyc : BitVec 10) (s : State) : Host.Outcome State Fault Refusal :=
  onDev s fun d => onlyIf d.strk.lock "PLL lock" (fun d => pllUnlock (d.atCycle cyc)) d


/-! ### End of a stroke (Table 2-22) -/

/-- The stroke that ends is counted for `HATCH_USE`. -/
def Chan.countStroke (c : Chan) : Chan :=
  let k := entryOwner c.entry
  let lent := c.lentNow && c.governed && k < 15 && !c.sealedNow k
  let idle := c.governed && k < 15 && c.sealedNow k && !c.usedNow
  { c with lentSheet := c.lentSheet + b2n lent, idleSheet := c.idleSheet + b2n idle, lentNow := false, usedNow := false }

/-! ### Sheet boundaries of a channel (R53 to R59, R199, R201, R448) -/

/-- The use of the sheet that ends, and its missing calibration stroke (R199). -/
def endSheet (n : Nat) (d : Dev) : Dev :=
  let c := d.chan n
  let d := (d.wrc n Fd.HATCH_USE_LENT c.lentSheet).wrc n Fd.HATCH_USE_IDLE c.idleSheet
  let skip := d.isc n Fd.PHY_CAL_CTL_EN && d.running n && !c.calDone && c.governed
  let d := if skip then (d.addc n Fd.PHY_CAL_STAT_SKIPS 1).wrc n Fd.PHY_EVT_SKIP 1 else d
  d.modChan n fun c => { c with lentSheet := 0, idleSheet := 0, calDone := false, suspended := false }

/-- A bank takes effect (R56). -/
def switchBank (n : Nat) (bank : Bool) (d : Dev) : Dev :=
  let d := d.modChan n fun c => { c with live := bank, active := true, arm := none }
  let d := { d with jnm := { d.jnm with written := d.jnm.written.filter fun k => k / 2 ≠ n } }
  (d.wrc n Fd.HATCH_STAT_SWITCHED 1).wrc n Fd.HATCH_SWITCH_SHEET_SHEET (d.sheet % 2 ^ 32)

/-- What was asked for acts at this boundary: an armed bank (R54, R56), or a stop (R58). -/
def hatchBoundary (n : Nat) (d : Dev) : Dev :=
  let d := match (d.chan n).arm with
    | some r => if r.checking then hatchCheckEnd n r d else d
    | none => d
  let d := match (d.chan n).arm with
    | some r =>
      (match r.target with
        | .any true => d.modChan n fun c => { c with arm := some { r with target := .any false } }
        | .any false => switchBank n r.bank d
        | .sheet low => if d.sheet % 2 ^ 32 = low then switchBank n r.bank d else d)
    | none => d
  match (d.chan n).stop with
  | some true => d.modChan n fun c => { c with stop := some false }
  | some false =>
    (d.modChan n fun c => { c with stop := none, active := false }).wrc n Fd.HATCH_SWITCH_SHEET_SHEET (d.sheet % 2 ^ 32)
  | none => d

/-- Sheets between two attempts to return to 3,600 MT/s (R448). -/
def rateRetry : Nat := 65536

/-- The new rate takes effect (R201); after a bus-rate fall the plan is armed again (R448). -/
def rateEffect (n : Nat) (d : Dev) : Dev :=
  let d := d.modChan n fun c =>
    { c with
      training := .none, rate := c.trainRate, trained := true, fall := false
      arm := if c.fall && !c.active then
          some { bank := c.live, target := .any false, checking := true, writtenT := d.now, late := false } else c.arm
      dies := c.dies.map fun e => (e.1, { e.2 with rdLow := 0, wrLow := 0 }) }
  d.wrc n Fd.PHY_EVT_RATE_DONE 1

/-- The training of a channel at a sheet boundary (R201); `was`: scheduling was active before it. -/
def trainSheet (n : Nat) (was : Bool) (d : Dev) : Dev :=
  let c := d.chan n
  match c.training with
  | .ended => rateEffect n d
  | .requested => if was then d else d.modChan n fun c => { c with training := .running }
  | .running => d
  | .none =>
    if d.sheet % rateRetry = 0 && c.trained && c.rate != .r3600 && !c.active && !c.retired then
      (d.wrc n Fd.PHY_RATE_RATE 4).modChan n fun c => { c with training := .requested, trainRate := .r3600 }
    else d

def sheetChan (n : Nat) (d : Dev) : Dev :=
  let was := (d.chan n).active
  trainSheet n was (hatchBoundary n (endSheet n d))

/-! ### Stroke boundaries of a channel (R42, R47 to R49, R198 to R200, R214) -/

/-- The centres found in the stroke before take effect (R198, R200). -/
def Die.applyEyes (x : Die) : Die :=
  { x with rdCenter := x.rdNext.getD x.rdCenter, wrCenter := x.wrNext.getD x.wrCenter, rdNext := none, wrNext := none }

/-- The entry of a null stroke governs nothing (R49). -/
def nullEntry : DWord := 0xF000000000000000

/-- The entry of the stroke is read: the live bank's, or that of R53; one that cannot be read makes the stroke null (R42, R49). -/
def readEntry (n : Nat) (fresh : Bool) (d : Dev) : Dev :=
  let c := d.chan n
  let key := b2n c.live * 256 + d.stroke
  if !c.governed then d.modChan n fun c => { c with entry := unscheduledEntry, nullStroke := false }
  else if fresh || key ∈ c.eccBad then
    (d.modChan n fun c => { c with entry := nullEntry, nullStroke := true, eccBad := listAdd c.eccBad key }).wrc n Fd.HATCH_STAT_ECC_NULL 1
  else
    let e := c.bankEntry c.live d.stroke
    (d.modChan n fun c => { c with entry := e, nullStroke := false }).flagcIf (entryMark e) n Fd.HATCH_STAT_MARKED

/-- Position due in the rotation (R199): write-eye positions are passed over while they are disabled. -/
def Dev.calDue (d : Dev) (n : Nat) : Nat :=
  let p := (d.chan n).calNext
  if 32 ≤ p && !d.isc n Fd.PHY_CAL_CTL_WR_EN then 0 else p

/-- The target of the step: the due one, else the next idle one of its kind, and whether NEXT advances. -/
def Dev.calTarget (d : Dev) (n : Nat) : Option (Nat × Bool) :=
  let t := d.calDue n % 32
  (((List.range 32).map fun i => (t + i) % 32).find? fun x => (d.die n x).st == .idle).map fun x => (x, decide (x = t))

/-- A centre moves by DRIFT_MAX taps at most: the new centre, and whether it was limited (R200). -/
def limitMove (cur new most : Nat) : Nat × Bool :=
  if cur + most < new then (cur + most, true) else if new + most < cur then (cur - most, true) else (new, false)

/-- The result of a step: a width, and the centre of the next stroke. -/
def putEye (n t width center : Nat) (write : Bool) (d : Dev) : Dev :=
  let x := d.die n t
  let low := decide (width < d.rdc n Fd.PHY_CAL_CTL_EYE_MIN)
  let (c, lim) := limitMove (if write then x.wrCenter else x.rdCenter) center (d.rdc n Fd.PHY_CAL_CTL_DRIFT_MAX)
  let count (k : Nat) : Nat := if low then satAdd 3 k 1 else 0
  let d := d.modDie n t fun x =>
    if write then { x with wrWidth := width, wrNext := some c, wrLow := count x.wrLow }
    else { x with rdWidth := width, rdNext := some c, rdLow := count x.rdLow }
  let x := d.die n t
  (d.flagcIf lim n Fd.PHY_EVT_DRIFT).flagcIf (low && decide ((if write then x.wrLow else x.rdLow) = 3)) n Fd.PHY_EVT_EYE_LOW

/-- The next lower rate of Table 6-4. -/
def Rate.lower : Rate → Option Rate
  | .r3600 => some .r2400 | .r2400 => some .r1600 | .r1600 => some .r800 | .r800 | .sdr => none

/-- A bus-rate fall (R448): scheduling stops, and training at the next lower rate is asked for. -/
def rateFall (n : Nat) (d : Dev) : Dev :=
  let c := d.chan n
  let lows := (c.dies.filter fun e => e.2.rdLow = 3 || e.2.wrLow = 3).length
  match c.rate.lower with
  | some r =>
    if 4 ≤ lows && c.training == .none then
      let d := (hatchStop n d).wrc n Fd.PHY_RATE_RATE r.code
      d.modChan n fun x => { x with training := .requested, trainRate := r, fall := c.active }
    else d
  | none => d

/-- A calibration step (R199, R200): it takes the stroke. What the PHY measures comes from outside; a measurement that is not given is a
free value. -/
def calStep (n t : Nat) (advance : Bool) (eye : Option EyeMeasure) (d : Dev) : Dev :=
  let p := d.calDue n
  let write := decide (32 ≤ p)
  let (w, c) := match eye with
    | some e => (e.width.toNat, e.center.toNat)
    | none => ((Config.freeByte 640 n d.nfree).toNat, (Config.freeByte 641 n d.nfree).toNat)
  let d := putEye n t w c write (if eye.isNone then d.tick 1 else d)
  rateFall n (d.modChan n fun x => { x with calStroke := true, calNext := if advance then (p + 1) % 64 else p })

/-- The calibration stroke of the sheet: the first stroke of it that allows one, whether or not a step is due there (R47, R199). While a non-operational state is entered or held, steps stop (R407, R408). -/
def calibrate (n : Nat) (eye : Option EyeMeasure) (d : Dev) : Dev :=
  let c := d.chan n
  let mine := entryOwner c.entry = 15 && entryCal c.entry && !c.nullStroke && !c.calDone
  let d := d.modChan n fun c => { c with calStroke := false, calDone := c.calDone || mine }
  if mine && d.isc n Fd.PHY_CAL_CTL_EN && d.running n && !c.retired && d.pwr.entry.isNone && d.pwr.ps < 3 then
    match d.calTarget n with
    | some (t, adv) => calStep n t adv eye d
    | none => (d.addc n Fd.PHY_CAL_STAT_SKIPS 1).wrc n Fd.PHY_EVT_SKIP 1
  else d

/-- An idle stroke (R48): only requests of class-15 work done for no single namespace are pending. -/
def Chan.isIdleStroke (c : Chan) : Bool :=
  entryOwner c.entry = 15 && entryScrub c.entry && !c.calStroke && !c.nullStroke && c.pq.all (·.dev)

/-- The arbiter's settings take effect, and a lowered limit forces what has reached it (R214). -/
def applySettings (n : Nat) (d : Dev) : Dev :=
  let pri := BitVec.ofNat 32 (d.regGet Rg.CARB_CLS_PRI n 0)
  let lim := d.rdc n Fd.CARB_WAIT_LIMIT_LIMIT
  d.modChan n fun c =>
    { c with pri := pri, limit := lim, pq := c.pq.map fun r => { r with forced := r.forced || decide (lim ≤ r.wait) } }

/-- One channel at a stroke boundary. -/
def strokeChan (n : Nat) (o : BoundaryObs) (d : Dev) : Dev :=
  let d := d.modChan n fun c =>
    { c with holder := none, nextSlot := 0, dies := c.dies.map fun e => (e.1, e.2.applyEyes) }
  let d := readEntry n (o.eccNull.any fun x => x.val = n) d
  let d := calibrate n (o.eyes.find? fun e => e.ch.val = n) d
  applySettings n (d.modChan n fun c => { c with idleStroke := c.isIdleStroke })

/-! ### Per-stroke budgets and watches of the other stages (R40) -/

/-- The band of the CAM's temperature: it rises where a threshold is reached and falls below it less the hysteresis (R347). -/
def Dev.nextBand (d : Dev) (t : Int) : Nat :=
  let h : Int := d.rd Fd.CAM_TEMP_HYST
  let at' (n : Nat) (f : Fld) : Bool :=
    let th : Int := d.rd f
    decide (th ≤ t) || (decide (n ≤ d.cam.band) && decide (th ≤ t + h))
  if at' 3 Fd.CAM_TEMP_T3 then 3 else if at' 2 Fd.CAM_TEMP_T2 then 2 else if at' 1 Fd.CAM_TEMP_T1 then 1 else 0

def camBand (t : Int) (d : Dev) : Dev :=
  let b := d.nextBand t
  if b = d.cam.band then d else (d.modCam fun c => { c with band := b }).wr Fd.CAM_EVT_BAND 1

/-- Completion queues with held completions count the stroke (R87). -/
def countStalls (d : Dev) : Dev :=
  d.modHost fun h => { h with funcs := h.funcs.map fun f =>
    (f.1, { f.2 with cqs := f.2.cqs.map fun q =>
      (q.1, if q.2.holding.isEmpty then q.2 else { q.2 with stalls := q.2.stalls + 1, stallAt := some d.strk.count }) }) }

/-- Every budget is refilled (R35, R40). -/
def refill (d : Dev) : Dev :=
  let d := { d with par := { d.par with used := [] }, ecc := { d.ecc with softUsed := [] } }
  let d := d.modHost fun h => { h with fetchLeft := d.rd Fd.HQ_FETCH_BUDGET_BUDGET }
  deepFill (camDeferred (dramStroke (d.modCam fun c => { c with left := d.camBudget })))

/-- The other stages at a stroke boundary. -/
def strokeDevice (o : BoundaryObs) (d : Dev) : Dev :=
  let d := beginJobs (refill (countStalls (camBand o.celsius d)))
  let d := setTicks o.ticks.toNat d
  let d := match d.sys.stage with
    | .service => powerStroke o.kelvin d
    | _ => d.modPwr fun p => { p with kelvin := o.kelvin }
  ps4Image d

/-- The PLL regains lock: the counter goes on from its held value at a stroke boundary, where every stage's budget is renewed and the
arbiters' settings act, and CYCLE from 0 (R35, R37). -/
def pllRelock (d : Dev) : Dev :=
  let d := slotsAnew (faultOff 0 d)
  let d := { d with strk := { d.strk with lock := true, cycle := 0, ran := d.strk.ran + 1 } }
  refill (forUpTo 48 applySettings d)

/-- STROKE_PLL_RELOCK: while the lock is lost. -/
def execStrokePllRelock (s : State) : Host.Outcome State Fault Refusal :=
  onDev s fun d => onlyIf (bit (d.regGet Rg.SYS_FAULT 0 0) 0) "PLL lock lost" pllRelock d

/-! ### What the firmware and the other stages do at a sheet boundary -/

/-- Changes of a bit of a function's Critical Warning are reported where its feature 0x0B allows (R243, R428). -/
def critEvents (d : Dev) : Dev :=
  d.host.funcs.foldl (fun (d : Dev) e =>
    let f := e.1
    let now := d.critOf f
    let new := (now ^^^ (d.func f).crit) &&& bits ((d.func f).feat 0x0B 0) 7 0
    let d := if new = 0 || !(d.func f).en then d
      else raiseEvent f { kind := 1, info := if bit new 1 then 1 else if bit new 0 then 2 else 0, log := 2 } d
    d.modFunc f fun x => { x with crit := now }) d

/-- A channel that is not retired runs below 3,600 MT/s (R448). -/
def rateFault (d : Dev) : Dev :=
  if d.chans.any fun e => e.2.trained && !e.2.retired && e.2.rate != .r3600 then faultOn 6 d else faultOff 6 d

/-- While a flush runs, its first sheet boundary writes the AON save record (R440). -/
def flushSheet (d : Dev) : Dev :=
  match d.sys.stage with
  | .flushing why false => (saveTime d).modSys fun y => { y with stage := .flushing why true }
  | _ => d

/-- The device at a sheet boundary: leaky buckets, thresholds (R250), health, self-test, rescue blocks, restore. -/
def sheetDevice (d : Dev) : Dev :=
  let d := forUpTo 64 bucketDrain d
  let d := d.modMed fun m => { m with thresh := m.threshNext }
  let d := rateFault d
  let d := match d.sys.stage with
    | .service => if d.pwr.restoring then fullRestore d
        else critEvents (selfTestSheet (healthWatch (checkpointDue (retireCounted (rescueReady (eraseDirty (releaseImages d)))))))
    | _ => d
  flushSheet d

/-! ### The two commands -/

/-- The stroke clock runs, and no burst is on a bus: none crosses a boundary (R39). -/
def Dev.boundaryDue (d : Dev) : Bool :=
  d.strk.lock && d.chans.all (fun e => e.2.holder.all fun h => !h.moving) &&
    (match d.sys.stage with | .reset _ _ | .waiting _ _ | .off => false | _ => true)

/-- The counter equals the compare value (Table 2-15); at the first boundary after the counter's start too, where it may already do so (log
entry 98). -/
def Dev.compareHit (d : Dev) : Bool :=
  d.strk.count = d.rd Fd.STRK_CMP_LO_CMP + d.rd Fd.STRK_CMP_HI_CMP * 2 ^ 32

/-- The counter at a boundary: the first one after its start moves nothing (R35). -/
def advance (d : Dev) : Dev :=
  let d := { d with strk := { d.strk with
    count := if d.strk.started then (d.strk.count + 1) % 2 ^ 64 else d.strk.count, started := true, cycle := 0, ran := d.strk.ran + 1 } }
  let d := match d.strk.load with
    | some v =>
      if d.strk.count % 256 = 0 then { d with strk := { d.strk with count := v * 256, load := none } }.wr Fd.STRK_STAT_LOADED 1 else d
    | none => d
  d.flagIf d.compareHit Fd.STRK_STAT_CMP

/-- What every boundary does, once the counter has moved. -/
def boundary (o : BoundaryObs) (s : State) : State :=
  let s := s.modDev fun d => forUpTo 48 (fun n d => strokeChan n o d) d
  forUpTo 48 afterChan (s.modDev (strokeDevice o))

/-- The accounts of the stroke that ends. -/
def countStrokes (d : Dev) : Dev := forUpTo 48 (fun n d => d.modChan n Chan.countStroke) d

/-- The end of a stroke: its accounts, then the counter. -/
def strokeEnd (d : Dev) : Dev := advance (countStrokes d)

/-- STROKE_BOUNDARY: within a sheet (R35). -/
def execStrokeBoundary (obs : BoundaryObs) (s : State) : Host.Outcome State Fault Refusal :=
  if s.dev.boundaryDue && s.dev.strk.started && decide (s.dev.stroke ≠ 255) then .next (boundary obs (s.modDev strokeEnd))
  else noEvent "stroke boundary" s

/-- What was pending acts at a sheet boundary (R34, R35). -/
def sheetActs (d : Dev) : Dev := sheetDevice (forUpTo 48 (fun n d => sheetChan n d) ((strokeEnd d).wr Fd.STRK_STAT_SHEET 1))

/-- A sheet boundary (R34, R35): what was pending acts, then what every boundary does; an entry into PS4 ends here (R408). -/
def sheetBoundary (o : BoundaryObs) (s : State) : State :=
  let s := boundary o (startSheet (s.modDev sheetActs))
  if s.dev.sealDue then ps4Seal s else s

/-- SHEET_BOUNDARY: the boundary at which the stroke index becomes 0, or the first one after the counter's start. -/
def execSheetBoundary (obs : BoundaryObs) (s : State) : Host.Outcome State Fault Refusal :=
  if s.dev.boundaryDue && (!s.dev.strk.started || decide (s.dev.stroke = 255)) then .next (sheetBoundary obs s)
  else noEvent "sheet boundary" s

end Sys2Proof.Machine
end

