-- ==== Sys2Proof/Machine/Jenam.lean ====
section
/-! DEFINITION. Jenam packets: their form, transports, buffers, origin records and the replay cache (R382 to R393, R395). -/

namespace Sys2Proof.Machine

/-! ### Packets (R382, R383) -/

/-- A field of a packet: 0 where the packet ends before it. -/
def jf (p : List Byte) (off len : Nat) : Nat := if off + len ≤ p.length then leNat ((p.drop off).take len) else 0

def jOp (p : List Byte) : Nat := jf p 4 2
def jDev (p : List Byte) : Nat := jf p 6 1
def jOrigin (p : List Byte) : Nat := jf p 8 2
def jStatus (p : List Byte) : Nat := jf p 10 2
def jSeq (p : List Byte) : Nat := jf p 12 4
def jLen (p : List Byte) : Nat := jf p 16 4
def jParams (p : List Byte) : List Byte := p.drop 32

/-- The CRC of a packet: CRC-32C over all of it, its own field taken as zero. -/
def jCrc (p : List Byte) : Nat := crc32c (p.take 28 ++ [0, 0, 0, 0] ++ p.drop 32)

/-- A request is malformed (R383). -/
def jMalformed (p : List Byte) : Bool :=
  decide (p.length < 32) || decide (jf p 0 2 ≠ 0x4E4A) || decide (jf p 2 1 ≠ 1) || bit (jf p 3 1) 0 || decide (jOrigin p = 0) ||
    decide (jLen p ≠ p.length - 32) || decide (65504 < jLen p) || decide (jLen p % 4 ≠ 0) || decide (jStatus p ≠ 0) ||
    decide (jf p 7 1 ≠ 0) || decide (jf p 20 8 ≠ 0) || decide (jf p 28 4 ≠ jCrc p)

/-- A reply to a request: its status, its parameters (none but for OK and ALREADY, and the replies that carry their own), and whether it comes
from the cache. -/
def jReply (p : List Byte) (status : Nat) (params : List Byte) (cached : Bool) : List Byte :=
  let head := leBytes 2 0x4E4A ++ [1, if cached then 3 else 1] ++ leBytes 2 (jOp p) ++ leBytes 1 (jDev p) ++ [0] ++
    leBytes 2 (jOrigin p) ++ leBytes 2 status ++ leBytes 4 (jSeq p) ++ leBytes 4 params.length ++ List.replicate 8 0
  let crc := crc32c (head ++ [0, 0, 0, 0] ++ params)
  head ++ leBytes 4 crc ++ params

/-- Jenam status codes (Table 14-4). -/
def jsOk : Nat := 0x00
def jsAlready : Nat := 0x01
def jsBadHeader : Nat := 0x10
def jsBadOpcode : Nat := 0x11
def jsBadParam : Nat := 0x12
def jsDenied : Nat := 0x13
def jsConflict : Nat := 0x20
def jsStale : Nat := 0x21
def jsNotFound : Nat := 0x30
def jsExists : Nat := 0x31
def jsState : Nat := 0x32
def jsLimit : Nat := 0x33
def jsIsolation : Nat := 0x34
def jsHatchRefused : Nat := 0x40
def jsKeyRefused : Nat := 0x41
def jsNoGraver : Nat := 0x50
def jsSigInvalid : Nat := 0x51
def jsUnreachable : Nat := 0x60

/-- Statuses whose replies are not cached (R390). -/
def jUncached (st : Nat) : Bool := st ∈ [0x10, 0x13, 0x20, 0x21, 0x60, 0x70]

/-- The classes of requests (R392). -/
inductive JClass where
  | r | w | p
  deriving DecidableEq, Repr

/-- The class of an opcode; none for an unknown one (Tables 14-5, 14-7 to 14-9, R398, R399). -/
def jClass (op : Nat) : Option JClass :=
  if op ∈ [0x0101, 0x0102, 0x0206, 0x0403, 0x0601, 0x0602, 0x0603, 0x0604, 0x0701, 0x0801, 0x0802, 0x0804, 0x0901, 0x0A01, 0x0A07] then
    some .r
  else if op ∈ [0x0201, 0x0202, 0x0203, 0x0204, 0x0205, 0x0301, 0x0302, 0x0303, 0x0304, 0x0305, 0x0306, 0x0307, 0x0401, 0x0402, 0x0404,
      0x0605, 0x0606, 0x0702] then some .w
  else if op ∈ [0x0501, 0x0502, 0x0503, 0x0504, 0x0803, 0x0A02, 0x0A03, 0x0A04, 0x0A05, 0x0A06] then some .p
  else none

/-! ### Buffers (R387) -/

/-- The address of a buffer. -/
def Dev.jBufAddr (d : Dev) (b : Nat) : Nat :=
  d.rd Fd.JNM_BUF_BASE_LO_ADDR_LO * 2 ^ 16 + d.rd Fd.JNM_BUF_BASE_HI_ADDR_HI * 2 ^ 32 + b * 65536

/-- The lowest-numbered free buffer, while packets are accepted. -/
def Dev.freeBuf (d : Dev) : Option Nat :=
  if d.is Fd.JNM_CTL_EN then (List.range 32).find? fun b => !d.jnm.bufs.any fun x => decide (x.buf = b) else none

def Dev.jBuf (d : Dev) (b : Nat) : Option JBuf := d.jnm.bufs.find? fun x => decide (x.buf = b)
def Dev.modBuf (d : Dev) (b : Nat) (f : JBuf → JBuf) : Dev :=
  d.modJnm fun j => { j with bufs := j.bufs.map fun x => if x.buf = b then f x else x }
def Dev.dropBuf (d : Dev) (b : Nat) : Dev := d.modJnm fun j => { j with bufs := j.bufs.filter fun x => x.buf ≠ b }

/-- A waiting Jenam Send takes a buffer, and its data transfer begins; it runs to its end even when its function is disabled meanwhile (Table
5-2). -/
def startSend (d : Dev) : Dev :=
  match d.jnm.sends, d.freeBuf with
  | k :: rest, some b =>
    let f := match d.slot? k with | some x => x.fn | none => 0
    let d := d.modJnm fun j => { j with
      sends := rest
      bufs := j.bufs ++ [{ buf := b, path := if f = 0 then 0 else 1, slot := some k, eid := 0, tag := 0, packet := [], order := 0, phase := .moving }] }
    { d with out := .hostRead f k :: d.out }
  | _, _ => d
def startSends (d : Dev) : Dev := forUpTo 32 (fun _ d => startSend d) d

/-! ### Origin records (R388) -/

def Dev.origin? (d : Dev) (o : Nat) : Option Origin := d.jnm.origins.find? fun r => decide (r.origin = o)
def Dev.modOrigin (d : Dev) (o : Nat) (f : Origin → Origin) : Dev :=
  d.modJnm fun j => { j with origins := j.origins.map fun r => if r.origin = o then f r else r }

/-- A record has a request buffered or executing. -/
def Dev.originBusy (d : Dev) (o : Nat) : Bool :=
  d.jnm.bufs.any fun b => decide (jOrigin b.packet = o) && b.phase != .moving && b.phase != .arrived

/-- The least recently used record that may be reused. -/
def Dev.oldOrigin (d : Dev) : Option Origin :=
  (d.jnm.origins.filter fun r => !d.originBusy r.origin).foldl (fun a r =>
    match a with
    | none => some r
    | some b => if r.used < b.used then some r else a) none

/-- A record for an ORIGIN: its own, a new one, or a reused one; none while every record is busy. The first request's SEQ counts as newer. -/
def originFor (o seq : Nat) (d : Dev) : Option Dev :=
  let fresh : Origin := { origin := o, h := (seq + (2 ^ 32 - 1)) % 2 ^ 32, cache := [], again := [], used := 0 }
  if (d.origin? o).isSome then some d
  else if d.jnm.origins.length < 16 then some (d.modJnm fun j => { j with origins := j.origins ++ [fresh] })
  else match d.oldOrigin with
    | some r =>
      some ((d.modJnm fun j => { j with origins := j.origins.map fun x => if x.origin = r.origin then fresh else x }).wr Fd.JNM_EVT_EVICT 1)
    | none => none

/-- The record is used now. -/
def touchOrigin (o : Nat) (d : Dev) : Dev :=
  (d.modOrigin o fun r => { r with used := d.jnm.next }).modJnm fun j => { j with next := j.next + 1 }

/-! ### Replies (R384 to R386, R390, R401) -/

/-- An MCTP message body: type 0x7E, vendor ID, kind byte, packet (R386; the order of the vendor ID's bytes is PRESUMED, as MCTP has it). -/
def mctpJenam (p : List Byte) : List Byte := [0x56, 0x58, 0x4A] ++ p

/-- The reply goes out on the path of its request. -/
def deliverReply (b : JBuf) (reply : List Byte) (d : Dev) : Dev :=
  if b.path < 2 then
    match b.slot with
    | some k => finish k (successWith (reply.length / 4 * 65536 + jStatus reply)) d
    | none => d
  else if b.path < 4 then d.send (.mctp (decide (b.path = 3)) b.eid b.tag 0x7E (mctpJenam reply))
  else respondDlk b.eid b.tag vcManage reply d

/-- Jenam Receive with a cached reply, or without one (R385). -/
def answerReceive (k o seq : Nat) (d : Dev) : Dev :=
  match d.slot? k, (d.origin? o).bind fun r => r.cache.find? fun c => decide (c.seq = seq) with
  | some x, some c => finish k (successWith c.reply.length) (d.send (.hostBytes x.fn x.sqe.cid.toNat (c.reply.take x.sqe.cdw12.toNat)))
  | _, _ => finish k (stVendor 0xC7) d

/-- Jenam Receives that waited for the reply. -/
def answerReceives (o seq : Nat) (d : Dev) : Dev :=
  let mine := d.jnm.receives.filter fun r => decide (r.2.1 = o) && decide (r.2.2 = seq)
  let d := d.modJnm fun j => { j with receives := j.receives.filter fun r => !(decide (r.2.1 = o) && decide (r.2.2 = seq)) }
  mine.foldl (fun (d : Dev) r => answerReceive r.1 o seq d) d

/-- The reply is cached, but for the statuses of R390, whose sequence number may then be sent again. -/
def cacheReply (b : JBuf) (reply : List Byte) (d : Dev) : Dev :=
  let q := b.packet
  if jUncached (jStatus reply) then
    d.modOrigin (jOrigin q) fun r => { r with again := listAdd r.again (jSeq q) }
  else
    let c : Cached := { seq := jSeq q, crc := jf q 28 4, len := jLen q, reply := reply, secret := jClass (jOp q) == some .p }
    d.modOrigin (jOrigin q) fun r => { r with cache := (r.cache ++ [c]).drop (r.cache.length + 1 - 64) }

/-- The reply of a buffer is sent and cached, its resends get it too, and the buffers are free (R389, R401). -/
def sendReply (b : JBuf) (reply : List Byte) (d : Dev) : Dev :=
  let d := (cacheReply b reply (deliverReply b reply d)).dropBuf b.buf
  let twins := d.jnm.bufs.filter fun x => x.phase == .twin b.buf
  let d := twins.foldl (fun (d : Dev) x => (deliverReply x reply d).dropBuf x.buf) d
  startSends (answerReceives (jOrigin b.packet) (jSeq b.packet) d)

/-- A request answered by the JNM block itself: nothing is executed or cached. -/
def turnAway (b : JBuf) (reply : List Byte) (d : Dev) : Dev := startSends ((deliverReply b reply d).dropBuf b.buf)

/-! ### Handling by SEQ (R389, R392) -/

/-- An MCTP path. -/
def JBuf.byMctp (b : JBuf) : Bool := decide (b.path = 2) || decide (b.path = 3)

/-- The request is not permitted on its path, or at all (R392). -/
def Dev.jDenied (d : Dev) (b : JBuf) : Bool :=
  match jClass (jOp b.packet) with
  | some .w => b.byMctp && !d.is Fd.JNM_CTL_MCTP_WR
  | some .p => b.byMctp || (decide (jOp b.packet = 0x0803) && !d.is Fd.JNM_CTL_DIAG_WR)
  | _ => false

/-- The same request bytes, by CRC and LEN. -/
def sameRequest (p : List Byte) (crc len : Nat) : Bool := decide (jf p 28 4 = crc) && decide (jLen p = len)

/-- SEQ_CONFLICT. -/
def conflict (b : JBuf) (d : Dev) : Dev :=
  turnAway b (jReply b.packet jsConflict [] false) ((d.add Fd.JNM_CNT_CONFLICT 1).wr Fd.JNM_EVT_CONFLICT 1)

/-- The request is accepted: h moves, and its buffer is pushed to the queue in `JNM.RXQ` (R389). -/
def acceptJenam (b : JBuf) (again : Bool) (d : Dev) : Dev :=
  let o := jOrigin b.packet
  let seq := jSeq b.packet
  let d := d.modOrigin o fun r => { r with h := if again then r.h else seq, again := r.again.filter fun k => k ≠ seq }
  let d := d.modBuf b.buf fun x => { x with phase := .accepted }
  let entry := b.buf * 2 ^ 24 + b.path % 8 * 2 ^ 20 + b.packet.length
  let (_, d) := pushQueue (d.rd Fd.JNM_RXQ_QUEUE) (BitVec.ofNat 64 entry) d
  d.wr Fd.JNM_EVT_RX 1

/-- Table 14-3, for a request with an origin record. -/
def bySeq (b : JBuf) (r : Origin) (d : Dev) : Dev :=
  let p := b.packet
  let s := jSeq p
  match r.cache.find? fun c => decide (c.seq = s) with
  | some c =>
    if sameRequest p c.crc c.len then
      turnAway b (jReply p (jStatus c.reply) (jParams c.reply) true) ((d.add Fd.JNM_CNT_REPLAY 1).wr Fd.JNM_EVT_REPLAY 1)
    else conflict b d
  | none =>
    match d.jnm.bufs.find? fun x => decide (x.buf ≠ b.buf) && (x.phase == .accepted || x.phase == .forwarded || x.phase == .answered) &&
        decide (jOrigin x.packet = r.origin) && decide (jSeq x.packet = s) with
    | some x =>
      if sameRequest p (jf x.packet 28 4) (jLen x.packet) then d.modBuf b.buf fun y => { y with phase := .twin x.buf } else conflict b d
    | none =>
      let diff := (s + 2 ^ 32 - r.h) % 2 ^ 32
      let again := decide (s ∈ r.again)
      if again || (0 < diff && diff < 2 ^ 31) then
        if d.jDenied b then turnAway b (jReply p jsDenied [] false) d else acceptJenam b again d
      else turnAway b (jReply p jsStale [] false) (d.add Fd.JNM_CNT2_STALE 1)

/-- A packet complete in its buffer is handled; with no record to be had it stays there (R388). -/
def handlePacket (b : JBuf) (d : Dev) : Dev :=
  let p := b.packet
  if jMalformed p then turnAway b (jReply p jsBadHeader [] false) (d.add Fd.JNM_CNT2_BADHDR 1)
  else if b.byMctp && jClass (jOp p) == some .p then turnAway b (jReply p jsDenied [] false) d
  else match originFor (jOrigin p) (jSeq p) d with
    | none => d.modBuf b.buf fun x => { x with phase := .arrived }
    | some d =>
      let d := touchOrigin (jOrigin p) d
      match d.origin? (jOrigin p) with
      | some r => bySeq b r d
      | none => d

/-- Requests that waited for a record are handled once one can be had, in the order of their arrival. -/
def retryArrived : Nat → Dev → Dev
  | 0, d => d
  | n + 1, d =>
    match firstArrived (d.jnm.bufs.filter fun b => b.phase == .arrived) with
    | some b =>
      (match originFor (jOrigin b.packet) (jSeq b.packet) d with
        | some _ => retryArrived n (handlePacket b d)
        | none => d)
    | none => d
where
  /-- The one whose packet was complete first. -/
  firstArrived : List JBuf → Option JBuf
    | [] => none
    | b :: rest =>
      match firstArrived rest with
      | some c => if c.order < b.order then some c else some b
      | none => some b

/-! ### Turns (R391, R395) -/

/-- The accepted request whose turn it is: packets are executed in the order in which they were complete, one at a time. -/
def Dev.jenamTurn (d : Dev) : Option JBuf :=
  if d.jnm.bufs.any (fun b => b.phase == .forwarded) || d.pwr.restoring then none
  else retryArrived.firstArrived (d.jnm.bufs.filter fun b => b.phase == .accepted)

/-- A request is answered: the reply stands over its request (R401). -/
def putReply (b : JBuf) (reply : List Byte) (s : State) : State :=
  (s.writeBytes (s.dev.jBufAddr b.buf) reply).modDev fun d => d.modBuf b.buf fun x => { x with phase := .answered }

/-- Groups that act on the cascade as a whole (R395). -/
def jWhole (op : Nat) : Bool := op / 256 ∈ [2, 3, 5]

/-- What Thrumlux answers without looking further: an unknown opcode, a DEV that the group forbids, a device that cannot be reached. -/
def Dev.jRefusal (d : Dev) (p : List Byte) : Option Nat :=
  if (jClass (jOp p)).isNone then some jsBadOpcode
  else if jWhole (jOp p) && decide (jDev p ≠ 0) then some jsBadParam
  else if decide (jDev p ≠ d.sys.role) && !d.reaches (jDev p) then some jsUnreachable
  else none

/-- Requests whose turn has come and that are not for this device's own opcodes are refused or sent on (R391, R395). -/
def settleTurns : Nat → State → State
  | 0, s => s
  | n + 1, s =>
    match s.dev.jenamTurn with
    | some b =>
      (match s.dev.jRefusal b.packet with
        | some st => settleTurns n (putReply b (jReply b.packet st [] false) s)
        | none =>
          if jDev b.packet ≠ s.dev.sys.role then
            s.modDev fun d => askDlk (jDev b.packet) vcManage b.packet (d.modBuf b.buf fun x => { x with phase := .forwarded })
          else s)
    | none => s

/-- What follows every event of the JNM block. -/
def settleJenam (s : State) : State := settleTurns 33 (s.modDev (retryArrived 32))

/-! ### The commands -/

/-- JENAM_SEND (R384, R387): the length is checked; the command waits for a buffer, then its data is transferred. -/
def jenamSend (k : Nat) (x : Slot) (d : Dev) : Dev :=
  let n := x.sqe.cdw10.toNat
  if n < 32 || 65536 < n || n % 4 ≠ 0 then finish k stInvalidField d
  else startSends ((d.modSlot k fun y => { y with phase := .asleep }).modJnm fun j => { j with sends := j.sends ++ [k] })

def execJenamSend (slot : Fin 131072) (s : State) : Host.Outcome State Fault Refusal :=
  onDev s fun d => onSlot slot true 0xC1 (fun x d => .ok (jenamSend slot x d)) d

/-- JENAM_RECEIVE (R385). -/
def jenamReceive (k : Nat) (x : Slot) (d : Dev) : Dev :=
  let seq := x.sqe.cdw10.toNat
  let o := bits x.sqe.cdw11.toNat 15 0
  let open' := d.jnm.bufs.any fun b => (b.phase == .accepted || b.phase == .forwarded || b.phase == .answered) &&
    decide (jOrigin b.packet = o) && decide (jSeq b.packet = seq)
  if open' then (d.modSlot k fun y => { y with phase := .asleep }).modJnm fun j => { j with receives := j.receives ++ [(k, o, seq)] }
  else answerReceive k o seq d

def execJenamReceive (slot : Fin 131072) (s : State) : Host.Outcome State Fault Refusal :=
  onDev s fun d => onSlot slot true 0xC2 (fun x d => .ok (jenamReceive slot x d)) d

/-- The packet stands in its buffer, and the JNM block handles it on that clock. -/
def packetIn (b : JBuf) (packet : List Byte) (s : State) : State :=
  let b := { b with packet := packet, order := s.dev.jnm.next }
  let s := s.writeBytes (s.dev.jBufAddr b.buf) packet
  settleJenam (s.modDev fun d =>
    handlePacket b ((wakeIdle (d.modBuf b.buf fun _ => b)).modJnm fun j => { j with next := j.next + 1 }))

/-- A packet from MCTP or from another device takes a buffer; with none, or with EN = 0, it is dropped (R387). -/
def packetBy (path eid tag : Nat) (packet : List Byte) (s : State) : State :=
  match s.dev.freeBuf with
  | some k =>
    let b : JBuf := { buf := k, path := path, slot := none, eid := eid, tag := tag, packet := [], order := 0, phase := .moving }
    packetIn b packet (s.modDev fun d => d.modJnm fun j => { j with bufs := j.bufs ++ [b] })
  | none => s.modDev fun d => (d.add Fd.JNM_CNT2_DROPPED 1).wr Fd.JNM_EVT_DROP 1

/-- The binding that would carry a message runs (R387). -/
def Dev.binding (d : Dev) (i3c : Bool) : Bool := d.is (if i3c then Fd.JNM_CTL_I3C_EN else Fd.JNM_CTL_SMB_EN)

/-- JENAM_PACKET_COMPLETE: the data of a Jenam Send has been transferred, or a message has been reassembled. -/
def execJenamPacketComplete (src : JenamSrc) (packet : List Byte) (s : State) : Host.Outcome State Fault Refusal :=
  match src with
  | .send k =>
    (match s.dev.jnm.bufs.find? fun b => b.slot == some k.val && b.phase == .moving, s.dev.slot? k with
      | some b, some x => if packet.length = x.sqe.cdw10.toNat then .next (packetIn b packet s) else noEvent "packet length" s
      | _, _ => noEvent "Jenam Send" s)
  | .mctp i3c eid tag =>
    if s.dev.binding i3c && decide (packet.length ≤ 65536) then
      .next (packetBy (if i3c then 3 else 2) eid.toNat tag.toNat packet s)
    else noEvent "MCTP message" s

/-- JENAM_REPLY_SEND: a write of `JNM.TX` (R401). A buffer that holds no accepted request has nothing to send. -/
def jenamTx (v : Nat) (s : State) : State :=
  match s.dev.jBuf (bits v 28 24) with
  | some b =>
    if b.phase == .accepted || b.phase == .answered then
      let reply := s.readBytes (bits v 16 0) (s.dev.jBufAddr b.buf)
      settleJenam (s.modDev (sendReply b reply))
    else s
  | none => s

def jenamTxRsv (v : Nat) : Bool := decide (bits v 31 29 ≠ 0) || decide (bits v 23 17 ≠ 0)

def execJenamReplySend (v : Word) (s : State) : Host.Outcome State Fault Refusal :=
  .next (orRsvWide (jenamTxRsv v.toNat) (jenamTx v.toNat) s)

/-! ### Opcode rows -/

/-- A row of an opcode: due when buffer `buf` holds the request whose turn it is, for this device; `f` gives the status, the reply's
parameters and what changed. -/
def jenamRow (op buf : Nat) (f : List Byte → State → Nat × List Byte × State) (s : State) : Host.Outcome State Fault Refusal :=
  match s.dev.jenamTurn with
  | some b =>
    if b.buf = buf && jOp b.packet = op && (s.dev.jRefusal b.packet).isNone && jDev b.packet = s.dev.sys.role then
      let (st, params, s) := f (jParams b.packet) s
      .next (settleTurns 33 (putReply b (jReply b.packet st params false) s))
    else noEvent "Jenam request" s
  | none => noEvent "Jenam request" s

/-- A refusal changes nothing. -/
def jNo (st : Nat) (s : State) : Nat × List Byte × State := (st, [], s)
/-- A request that is executed. -/
def jYes (params : List Byte) (s : State) : Nat × List Byte × State := (jsOk, params, s)

end Sys2Proof.Machine
end

