-- ==== Sys2Proof/Machine/Stipple.lean ====
section
/-! DEFINITION. Stipple: the pass over a channel, urgent rows, late passes (R277 to R281). -/

namespace Sys2Proof.Machine

/-! ### The pages of a block (R278, Table 9-10a) -/

def stipMode (e : Nat) : Nat := bits e 31 30
def stipGen (e : Nat) : Nat := bits e 29 24
def stipLevel (e : Nat) : Nat := bits e 23 16
def stipWlEnd (e : Nat) : Nat := bits e 9 0

/-- Pages of a block: 9,216, or 2,304 in SLC mode. -/
def stipBlockPages (slc : Bool) : Nat := if slc then 2304 else 9216

/-- Plane and page of the `k`-th page that pass `lap` reads of a block. -/
def stipPage (slc : Bool) (log2 lap k : Nat) : Nat × Nat :=
  let n := stipBlockPages slc
  let s := n / 2 ^ log2
  let q := k * s + lap % s
  (q / (n / 4), q % (n / 4))

/-- The first page index from `k` on that is programmed. -/
def stipNextK (e wlEnd log2 lap : Nat) : Nat → Nat → Option Nat
  | 0, _ => none
  | fuel + 1, k =>
    if 2 ^ log2 ≤ k then none
    else
      let slc := decide (stipMode e = 2)
      if pageWordline slc (stipPage slc log2 lap k).2 < wlEnd then some k else stipNextK e wlEnd log2 lap fuel (k + 1)

/-- The wordlines of a block that hold data: the map's WL_END, or fewer where a read of this block has met the end (R251). -/
def Dev.stipEnd (d : Dev) (ch t b e : Nat) : Nat :=
  match (d.stipChan ch).dataEnd with
  | some (t', b', wl) => if t' = t && b' = b then min wl (stipWlEnd e) else stipWlEnd e
  | none => stipWlEnd e

/-- The page index that is read next of a block, from `k` on: none where the map says skip, or the die cannot be read. -/
def State.stipVisit (s : State) (ch t b log2 lap k : Nat) : Option Nat :=
  let x := (s.dev.die ch t).st
  let e := s.stipEntry ch t b
  if x == .absent || x == .retired || !(decide (stipMode e = 1) || decide (stipMode e = 2)) then none
  else stipNextK e (s.dev.stipEnd ch t b e) log2 lap (2 ^ log2 + 1) k

/-- The next place of a pass from block `b`, target `t`, index `k` on. -/
def State.stipScan (s : State) (ch log2 lap : Nat) : Nat → Nat → Nat → Nat → Option (Nat × Nat × Nat)
  | 0, _, _, _ => none
  | fuel + 1, b, t, k =>
    if q4Blocks ≤ b then none
    else match s.stipVisit ch t b log2 lap k with
      | some k => some (b, t, k)
      | none => if t + 1 < 32 then s.stipScan ch log2 lap fuel b (t + 1) 0 else s.stipScan ch log2 lap fuel (b + 1) 0 0
termination_by structural fuel => fuel

/-- Places of a pass by block and target. -/
def stipPlaces : Nat := 3600 * 32 + 1

/-! ### Posting (R279) -/

/-- The descriptor of a stipple read. -/
def stipDesc (d : Dev) (e t b : Nat) (slc : Bool) (plane page tag : Nat) : Desc :=
  { d0 := BitVec.ofNat 32 (4 * 2 ^ 28 + 15 * 2 ^ 24 + t * 2 ^ 19 + 2 ^ 18 + b2n slc * 2 ^ 17 + 0xF * 2 ^ 8)
    d1 := BitVec.ofNat 32 (b * 2 ^ 20 + page * 2 ^ 8 + plane * 2 ^ 6)
    d2 := 0xC0000000, d3 := 0
    d4 := BitVec.ofNat 32 (d.rd Fd.LDPC_WEAK_LIMIT * 2 ^ 16 + stipLevel e * 2 ^ 8)
    d5 := 0, d6 := BitVec.ofNat 32 tag, d7 := 0 }

/-- Posts the proof read of page index `k` of a block. -/
def stipPost (ch t b log2 lap k : Nat) (s : State) : State :=
  let e := s.stipEntry ch t b
  let slc := decide (stipMode e = 2)
  let (plane, page) := stipPage slc log2 lap k
  let tag := 0xF0000000 + s.dev.stip.nextTag % 2 ^ 28
  s.modDev fun d =>
    let x := stipDesc d e t b slc plane page tag
    let d := { d with stip := { d.stip with nextTag := d.stip.nextTag + 1 } }
    let d := d.modStip ch fun c => { c with posted := c.posted ++ [{ tag := x.tag, target := t, block := b, gen := stipGen e }] }
    takeDesc ch { desc := x, dev := true } false d

/-- The longest most-recent pass over the healthy channels (R280). -/
def Dev.lapLast (d : Dev) : Nat :=
  (List.range 48).foldl (fun a n => if (d.chan n).retired then a else max a (d.stipChan n).lastLap) 0

/-- A pass ends and the next begins (R280). -/
def stipPassEnd (ch : Nat) (d : Dev) : Dev :=
  let time := d.sheet - (d.stipChan ch).start
  let d := d.modStip ch fun c => { c with
    block := 0, target := 0, k := 0, lap := c.lap + 1, start := d.sheet, log2 := d.rd Fd.STIP_CTL_PAGES_LOG2, lastLap := time,
    late := false }
  (d.wr Fd.STIP_LAP_MAX_SHEETS (max time (d.rd Fd.STIP_LAP_MAX_SHEETS))).wr Fd.STIP_EVT_LAP 1

/-- The first pass of every channel begins when stipple is enabled. -/
def stipEnable (d : Dev) : Dev :=
  forUpTo 48 (fun n d =>
    if (d.stipChan n).log2 = 0 then
      d.modStip n fun c => { c with start := d.sheet, log2 := d.rd Fd.STIP_CTL_PAGES_LOG2 }
    else d) d

/-- The oldest urgent row with a member still to read on the channel (R281). -/
def Dev.urgentOn (d : Dev) (ch : Nat) : Option UrgRow :=
  d.stip.urgent.find? fun u => decide (u.group / 32 = bandOf ch) && decide (ch % 16 ∈ u.left)

/-- Member of an urgent row is done; the row leaves the list with its last member. -/
def urgentDone (ch : Nat) (u : UrgRow) (d : Dev) : Dev :=
  let left := u.left.filter (fun m => m ≠ ch % 16)
  let f := fun x => x == u
  let urgent := if left.isEmpty then listEraseFirst f d.stip.urgent else listModFirst f (fun x => { x with left := left }) d.stip.urgent
  ({ d with stip := { d.stip with urgent := urgent } }).modStip ch fun c => { c with urgK := 0 }

/-- The die has room for one more descriptor. -/
def Dev.stipRoom (d : Dev) (ch t : Nat) : Bool := decide ((d.die ch t).queued < 32)

/-- Members of urgent rows that have nothing left to read on the channel are passed over; the next urgent read is posted. -/
def stipUrgent (ch : Nat) : Nat → State → Option (Except String State) × State
  | 0, s => (none, s)
  | fuel + 1, s =>
    match s.dev.urgentOn ch with
    | none => (none, s)
    | some u =>
      let t := u.group % 32
      let b := (s.dev.mapped (dieNumber ch t) u.row).2
      let c := s.dev.stipChan ch
      match s.stipVisit ch t b c.log2 c.lap c.urgK with
      | some k =>
        if s.dev.stipRoom ch t then
          (some (.ok ((stipPost ch t b c.log2 c.lap k s).modDev fun d => d.modStip ch fun c => { c with urgK := k + 1 })), s)
        else (some (.error "stipple read"), s)
      | none => stipUrgent ch fuel (s.modDev (urgentDone ch u))

/-- The next read of the pass, if there is one before its end. -/
def stipNext (ch : Nat) (s : State) : Option (Nat × Nat × Nat) :=
  let c := s.dev.stipChan ch
  s.stipScan ch c.log2 c.lap stipPlaces c.block c.target c.k

/-- Posts a read of the pass. -/
def stipAt (ch : Nat) (p : Nat × Nat × Nat) (s : State) : Except String State :=
  let (b, t, k) := p
  let c := s.dev.stipChan ch
  if s.dev.stipRoom ch t then
    .ok ((stipPost ch t b c.log2 c.lap k s).modDev fun d => d.modStip ch fun c => { c with block := b, target := t, k := k + 1 })
  else .error "stipple read"

/-- STIPPLE_READ_POST: urgent rows first, then the pass, which ends when nothing of it is left. -/
def stippleReadPost (ch : Nat) (s : State) : Except String State :=
  let d := s.dev
  if !d.is Fd.STIP_CTL_EN || d.is Fd.STIP_CTL_HOLD || (d.chan ch).retired then .error "stipple read"
  else
    match stipUrgent ch (d.stip.urgent.length + 1) s with
    | (some r, _) => r
    | (none, s) =>
      match stipNext ch s with
      | some p => stipAt ch p s
      | none =>
        let s := s.modDev (stipPassEnd ch)
        match stipNext ch s with
        | some p => stipAt ch p s
        | none => .ok s

def execStippleReadPost (ch : Fin 48) (s : State) : Host.Outcome State Fault Refusal :=
  match stippleReadPost ch s with
  | .ok s => .next (afterChan ch s)
  | .error e => noEvent e s

/-- STIPPLE_LATE: a pass longer than the target is marked once (R280). -/
def stippleLate (ch : Nat) (d : Dev) : Except String Dev :=
  let c := d.stipChan ch
  if c.log2 ≠ 0 && !c.late && decide (d.rd Fd.STIP_TARGET_SHEETS < d.sheet - c.start) then
    .ok ((d.modStip ch fun c => { c with late := true }).wr Fd.STIP_EVT_LATE 1)
  else .error "stipple late"

def execStippleLate (ch : Fin 48) (s : State) : Host.Outcome State Fault Refusal := onDev s (stippleLate ch)

/-- STIP_URG_POST: a row joins the list, or is ignored where the list is full; a group that does not exist names no row. -/
def stipUrgPost (v : Nat) (d : Dev) : Dev :=
  let g := bits v 22 16
  if 96 ≤ g then d
  else if 4096 ≤ d.stip.urgent.length then d.wr Fd.STIP_EVT_URG_FULL 1
  else { d with stip := { d.stip with urgent := d.stip.urgent ++ [{ group := g, row := bits v 11 0, left := List.range 16 }] } }

def execStipUrgPost (v : Word) (s : State) : Host.Outcome State Fault Refusal :=
  onDev s (orRsv (decide (bits v.toNat 31 23 ≠ 0) || decide (bits v.toNat 15 12 ≠ 0)) (stipUrgPost v.toNat))

end Sys2Proof.Machine
end

