-- ==== Sys2Proof/Machine/RegRead.lean ====
section
/-! DEFINITION. Reads of registers (R8 to R12): where a register stands, the fields that show the state of their block, the reads that
latch or clear. -/

namespace Sys2Proof.Machine

/-- A word of fields, each at its lowest bit. -/
def packed (fs : List (Nat × Nat)) : Nat := fs.foldl (fun w f => w + f.2 * 2 ^ f.1) 0

/-! ### Where a register stands (Table 1-7, R9) -/

/-- The window of an address of control space. -/
def winOf (a : Nat) : Nat := a / 0x10000 - 0x20000
/-- The channel of an address of control space (0 outside the CHANn windows). -/
def chanOfAddr (a : Nat) : Nat := if 0x201000000 ≤ a then winOf a - 0x100 else 0
/-- The offset of an address in its window. -/
def winOff (a : Nat) : Nat := a % 0x10000
/-- The register at an address. -/
def regAt (a : Nat) : Option RegDef := (windowRegs (winOf a)).find? fun r => decide (r.addr % 0x10000 = winOff a)
/-- The bank entry at an address (R30): channel, bank B, entry, high half. -/
def bankAt (a : Nat) : Option (Nat × Bool × Nat × Bool) :=
  let o := winOff a
  if 0x201000000 ≤ a && 0x4000 ≤ o && o < 0x5000 then some (chanOfAddr a, decide (0x4800 ≤ o), o % 0x800 / 8, decide (o % 8 = 4)) else none

/-- The copy of a register that an access reaches: the initiating graver's, or the one its window's selection register names. -/
def Dev.copyOf (d : Dev) (n g : Nat) (r : RegDef) : Nat :=
  match r.bank with
  | .one => 0
  | .graver => g
  | .tenant => d.rd Fd.TEN_T_SEL_TENANT
  | .tenFunc => d.rd Fd.TEN_F_SEL_FUNC
  | .cls => d.rd Fd.TEN_CLS_SEL_CLASS
  | .func => d.rd Fd.HQ_FUNC_SEL_FUNC
  | .ns => d.rd Fd.ZONE_NS_SEL_NSID
  | .zone => d.rd Fd.ZONE_Z_SEL_ZONE
  | .keepBank => d.rd Fd.AON_KB_SEL_BANK
  | .port => d.rd Fd.DMC_PORT_SEL_PORT
  | .subch => d.rd Fd.DMC_ECC_SEL_SUBCH
  | .keySlot => d.rd Fd.CIPH_SLOT_SEL_SLOT
  | .bucket => d.rd Fd.LDPC_LB_SEL_BUCKET
  | .checker => d.rd Fd.LDPC_ST_SEL_INDEX
  | .chSel => d.rd Fd.STIP_CH_SEL_CHANNEL
  | .origin => d.rd Fd.JNM_ORG_SEL_RECORD
  | .gravSel => d.rd Fd.GRV_SEL_GRAVER
  | .queue => d.rd Fd.GRV_QSEL_QUEUE
  | .irq => d.rd Fd.GRV_IRQ_SEL_SOURCE
  | .die => d.rdc n Fd.SEQ_DIE_SEL_TARGET
  | .blockState => d.rdc n Fd.SEQ_BST_SEL_TARGET
  | .eye => d.rdc n Fd.PHY_EYE_SEL_TARGET
  | .pq => d.rdc n Fd.CARB_PQ_SEL_INDEX

/-! ### Fields that show the state of their block; `w` is the stored word -/

/-- STRK (Tables 2-10 to 2-17). -/
def Dev.viewStrk (d : Dev) (a w : Nat) : Nat :=
  if a = Rg.STRK_CTL.addr then setBits w 2 2 (b2n d.strk.load.isSome)
  else if a = Rg.STRK_STAT.addr then setBits w 0 0 (b2n d.strk.lock)
  else if a = Rg.STRK_COUNT_LO.addr then bits d.strk.count 31 0
  else if a = Rg.STRK_COUNT_HI.addr then d.strk.hi
  else if a = Rg.STRK_PHASE.addr then packed [(10, d.stroke), (0, d.strk.cycle)]
  else w

/-- PWR and AON (Tables 15-11 to 15-16). -/
def Dev.viewPwr (d : Dev) (i a w : Nat) : Nat :=
  let p := d.pwr
  if a = Rg.PWR_STAT.addr then
    packed [(31, b2n (p.entry.isSome || p.move.isSome || p.restoring)), (24, p.level), (20, d.opCap), (16, p.op), (8, d.selected), (0, p.ps)]
  else if a = Rg.PWR_IDLE.addr then d.idleMs
  else if a = Rg.PWR_THERM.addr then packed [(16, b2n p.thermN), (0, p.kelvin % 65536)]
  else if a = Rg.AON_TICK_LO.addr then bits p.ticks 31 0
  else if a = Rg.AON_TICK_HI.addr then bits p.ticks 47 32
  else if a = Rg.AON_KB_SIG_LO.addr then bits (mapGet 0 p.sigs i).toNat 31 0
  else if a = Rg.AON_KB_SIG_HI.addr then bits (mapGet 0 p.sigs i).toNat 63 32
  else w

/-- Half of `HQ.LINK_STAT`: a port's link. -/
def Port.link (p : Port) : Nat :=
  if p.up then packed [(15, 1), (14, b2n p.flit), (13, b2n (!p.secure.isEmpty)), (10, p.rate), (5, p.width)] else 0

/-- Queues of the pool that no quota holds (Table 3-17). -/
def Dev.poolFree (d : Dev) (q : Func → Nat) : Nat := 16384 - (d.host.funcs.foldl (fun n f => n + q f.2) 0)

/-- The device is held in reset: its views still show their reset values (Tables 3-19 and 4-11, log entry 115). -/
def Dev.inReset (d : Dev) : Bool := match d.sys.stage with | .reset .. => true | _ => false

/-- HQ (Tables 3-14 to 3-21). -/
def Dev.viewHq (d : Dev) (f a w : Nat) : Nat :=
  let x := d.func f
  if a = Rg.HQ_LINK_STAT.addr then packed [(16, if d.dual then (d.port 1).link else 0), (0, (d.port 0).link)]
  else if a = Rg.HQ_INFLIGHT.addr then d.slotsUsed
  else if a = Rg.HQ_QPOOL.addr then packed [(16, d.poolFree Func.sqQuota), (0, d.poolFree Func.cqQuota)]
  else if a = Rg.HQ_FUNC_STAT.addr then
    packed [(6, b2n (d.host.dwe.any fun r => decide (r.fn = f) && !r.delivered)),
            (5, b2n (d.zm.ns.any fun n => n.2.maint && decide (f ∈ n.2.attached))), (4, b2n x.shn), (3, b2n x.flr), (2, b2n x.rdy),
            (1, b2n x.en), (0, b2n (!d.inReset && d.present f))]
  else if a = Rg.HQ_FUNC_QUEUES.addr then
    packed [(16, (x.sqs.filter fun q => decide (q.1 ≠ 0)).length), (0, (x.cqs.filter fun q => decide (q.1 ≠ 0)).length)]
  else if a = Rg.HQ_FUNC_INFLIGHT.addr then d.slotsOf f
  else w

/-- Healthy zone rows in no namespace's reservation, from start-up on. -/
def Dev.rowsFree (d : Dev) : Nat := if d.inReset || d.sys.stage == .boot then 0 else d.unassignedAll

/-- ZONE (Tables 4-10 to 4-22). -/
def Dev.viewZone (d : Dev) (a w : Nat) : Nat :=
  let nsid := d.rd Fd.ZONE_NS_SEL_NSID
  let z := d.rd Fd.ZONE_Z_SEL_ZONE
  let there := match d.ns? nsid with | some n => n.zoned && decide (z < n.zones) | none => false
  let x := d.zone nsid z
  if a = Rg.ZONE_ACTIVE.addr then setBits w 11 0 d.activeAll
  else if a = Rg.ZONE_ROWS.addr then d.rowsFree
  else if a = Rg.ZONE_REFOLD.addr then
    packed [(16, min 0xFFFF (d.zm.refolds.filter fun j => !j.running).length), (0, d.refoldsRunning)]
  else if a = Rg.ZONE_NS_INFO.addr then
    (match d.ns? nsid with | some n => packed [(31, 1), (30, b2n n.zoned), (0, n.zones)] | none => 0)
  else if a = Rg.ZONE_NS_ACT.addr then
    (match d.ns? nsid with | some n => packed [(16, n.limit), (0, d.activeOf nsid)] | none => 0)
  else if a = Rg.ZONE_Z_INFO.addr then
    let (g, r) := match x.row with | some (g, r) => (g % 96, r) | none => (0x7F, 0xFFF)
    if there then
      packed [(28, x.shown.code), (24, x.handle), (23, b2n x.refDst.isSome), (22, b2n (x.refSrc.any fun k => d.zm.refolds.any fun j => decide (j.seq = k) && j.running)), (21, b2n (!x.lost.isEmpty)),
              (20, b2n (!x.recs.isEmpty)), (12, g), (0, r)]
    else 0
  else if a = Rg.ZONE_Z_WP.addr then (if there then x.shownWp else 0)
  else if a = Rg.ZONE_Z_CP.addr then (if there then x.cp else 0)
  else if a = Rg.ZONE_Z_LOC.addr then
    (match there, x.row with
      | true, some (g, _) => packed [(9, d.sys.role + g / 96), (0, 96 * d.sys.role + g)]
      | _, _ => 0x1FF)
  else w

/-- Sectors that a tenant holds of the shared remainder of the staged ceiling (R146): under writes and refolds, and in its namespaces. -/
def Dev.stagedBeyond (d : Dev) (t : Nat) : Nat :=
  let mine (n : Nat) : Bool := match d.ns? n with | some ns => decide (ns.owner = t) | none => false
  d.host.slots.foldl (fun a e => if e.2.share = some false && mine e.2.sqe.nsid.toNat then a + e.2.total else a) 0 +
    d.zm.zones.foldl (fun a e => if mine (e.1 / 2 ^ 20) then a + (e.2.staged.filter fun x => !x.2.2).length else a) 0 +
    (d.zm.conv.filter fun e => mine (e.1 / 2 ^ 40) && (match e.2 with | .cells _ r => !r | _ => false)).length +
    d.zm.refolds.foldl (fun a j => if j.share = some false && j.tenant = t then a + j.heldBack else a) 0

/-- The staged-ceiling share that a tenant holds, in MiB rounded up. -/
def Dev.stagedMib (d : Dev) (t : Nat) : Nat := (mapGet 0 d.host.stagedOf t + d.stagedBeyond t + 255) / 256

/-- TEN (Tables 5-5 to 5-10). -/
def Dev.viewTen (d : Dev) (i a w : Nat) : Nat :=
  if a = Rg.TEN_T_CFG.addr then setBits w 12 0 (d.zm.ns.filter fun n => decide (n.2.owner = i)).length
  else if a = Rg.TEN_T_CELL_USED.addr then d.pool.held i
  else if a = Rg.TEN_T_STAGE.addr then setBits w 26 16 (d.stagedMib i)
  else if a = Rg.TEN_T_REFOLD.addr then setBits w 22 16 (d.refoldsOf i)
  else if a = Rg.TEN_F_CFG.addr then setBits w 31 31 (b2n (d.func i).stopping)
  else w

/-- CAM and CELL (Tables 12-5, 11-13, 11-14, 11-16). -/
def Dev.viewCells (d : Dev) (a w : Nat) : Nat :=
  if a = Rg.CAM_STAT.addr then packed [(16, d.camUsed 1), (14, d.cam.band), (0, d.camUsed 2)]
  else if a = Rg.CELL_STAT.addr then packed [(31, b2n d.pool.ready), (30, b2n d.pool.cfgErr), (0, if d.pool.ready then d.pool.free else 0)]
  else if a = Rg.CELL_ONCHIP.addr then packed [(16, d.pool.excluded.length), (0, onChipCells - 1024 * d.pool.excluded.length)]
  else if a = Rg.CELL_DEV.addr then d.pool.devUsed
  else if a = Rg.CELL_LINK_LO.addr then bits (d.pool.cell (d.rd Fd.CELL_LINK_SEL_HANDLE)).link.toNat 31 0
  else if a = Rg.CELL_LINK_HI.addr then d.pool.linkHi
  else w

/-- DMC (Tables 11-6, 11-7, 11-10, 11-11). -/
def Dev.viewDmc (d : Dev) (i a w : Nat) : Nat :=
  let x := d.dram
  if a = Rg.DMC_CTL.addr then setBits w 1 1 (b2n x.training)
  else if a = Rg.DMC_STAT.addr then
    packed [(24, x.retired), (16, x.present), (2, b2n x.initDone), (1, b2n x.trained), (0, b2n x.ready)]
  else if a = Rg.DMC_CAP.addr then x.mib
  else if a = Rg.DMC_GEOM.addr then packed [(24, x.density), (22, x.ranks), (0, x.drows)]
  else if a = Rg.DMC_RETIRE.addr then x.retired
  else if a = Rg.DMC_PORT_USE.addr then setBits w 15 0 (d.dport i).last
  else w

/-- A slot's mode as `CIPH.SLOT` shows it. -/
def SlotState.code : SlotState → Nat
  | .empty => 0 | .loaded => 1 | .purging => 2

/-- CIPH (Tables 10-7 to 10-10). -/
def Dev.viewCiph (d : Dev) (i a w : Nat) : Nat :=
  let k := d.keySlot i
  if a = Rg.CIPH_CTL.addr then setBits w 1 1 (b2n d.ciph.epochSet)
  else if a = Rg.CIPH_KEY_CMD.addr then setBits w 31 31 (b2n (d.ciph.slots.any fun e => e.2.state == .purging))
  else if a = Rg.CIPH_NONCE_LO.addr then d.ciph.nonce % 2 ^ 32
  else if a = Rg.CIPH_NONCE_HI.addr then d.ciph.nonceHi
  else if a = Rg.CIPH_LANE_OK_LO.addr then bits d.ciph.laneOk 31 0
  else if a = Rg.CIPH_LANE_OK_HI.addr then bits d.ciph.laneOk 47 32
  else if a = Rg.CIPH_SLOT.addr then setBits w 31 28 (packed [(2, k.state.code), (0, k.mode)])
  else if a = Rg.CIPH_SLOT_GEN.addr then k.gen
  else w

/-- LDPC, PAR and STIP (Tables 9-12, 9-16, 9-19, 9-21, 9-29, 9-30). -/
def Dev.viewEcc (d : Dev) (i a w : Nat) : Nat :=
  let st := d.stipChan i
  if a = Rg.LDPC_STAT.addr then
    packed [(24, maskOf 2 d.deepOk), (16, maskOf 8 d.softOk), (8, d.deepQueued),
            (0, min 255 (d.ecc.items.filter fun x => x.waitsSoft.isSome).length)]
  else if a = Rg.LDPC_LB_LEVEL.addr then setBits w 15 0 (d.bucket i).level
  else if a = Rg.LDPC_ST_SEL.addr then setBits w 31 31 (b2n d.sys.selftest)
  else if a = Rg.LDPC_ST_RES.addr then
    (let r := mapGet { done := false, pass := false, step := 0 } d.ecc.checks i
     packed [(31, b2n r.done), (30, b2n r.pass), (24, r.step)])
  else if a = Rg.PAR_STAT.addr then packed [(16, d.par.accs.length), (0, d.par.ok)]
  else if a = Rg.STIP_URG_STAT.addr then d.stip.urgent.length
  else if a = Rg.STIP_LAP_LAST.addr then d.lapLast
  else if a = Rg.STIP_CH_LAP.addr then st.lastLap
  else if a = Rg.STIP_CH_POS.addr then packed [(20, st.block), (15, st.target), (0, st.lap % 32768)]
  else w

/-- Half of `DLK.LINK`: up and lanes. -/
def DlkPort.link (p : DlkPort) : Nat := if p.up then 8 + p.width else 0

/-- The ring is closed and both ports of the master are up (Table 17-3). -/
def Dev.ringUp (d : Dev) : Bool :=
  let dn := mapGet DlkPort.reset d.dlk.ports 0
  let up := mapGet DlkPort.reset d.dlk.ports 1
  d.is Fd.DLK_CTL_RING && dn.up && up.up && decide (d.sys.role = 0)

/-- JNM and DLK (Tables 14-11, 14-13, 17-3). -/
def Dev.viewJnm (d : Dev) (i a w : Nat) : Nat :=
  let dn := mapGet DlkPort.reset d.dlk.ports 0
  let up := mapGet DlkPort.reset d.dlk.ports 1
  if a = Rg.JNM_STAT.addr then
    packed [(24, d.jnm.bufs.length), (16, d.jnm.origins.length),
            (0, b2n (d.jnm.bufs.any fun b => b.phase == .accepted || b.phase == .forwarded))]
  else if a = Rg.JNM_ORG.addr then
    (match d.jnm.origins[i]? with | some o => packed [(31, 1), (24, o.cache.length), (0, o.origin)] | none => 0)
  else if a = Rg.JNM_ORG_SEQ.addr then (match d.jnm.origins[i]? with | some o => o.h | none => 0)
  else if a = Rg.DLK_ROLE.addr then
    packed [(10, b2n d.ringUp), (8, d.dlk.admitted.foldl max 0), (4, maskOf 4 fun p => p ∈ d.dlk.admitted), (0, d.sys.role)]
  else if a = Rg.DLK_LINK.addr then packed [(12, up.link), (4, dn.link), (2, up.peer), (0, dn.peer)]
  else w

/-- GRV (Tables 13-9 to 13-13). -/
def Dev.viewGrv (d : Dev) (i a w : Nat) : Nat :=
  if a = Rg.GRV_STATE.addr then packed [(28, (d.graver i).st.code), (24, (d.graver i).cause)]
  else if a = Rg.GRV_CTL.addr then packed [(3, b2n d.grv.mlock)]
  else if a = Rg.GRV_STEWARD.addr then d.steward.getD 0
  else if a = Rg.GRV_QOWN.addr then setBits w 6 0 (d.queue i).length
  else if a = Rg.GRV_MEAS.addr then
    bits (d.meas (d.rd Fd.GRV_MEAS_SEL_INDEX)).toNat (32 * d.rd Fd.GRV_MEAS_SEL_DWORD + 31) (32 * d.rd Fd.GRV_MEAS_SEL_DWORD)
  else w

/-- A die in `SEQ_DIE_STAT` (Table 6-22). -/
def Die.stat (x : Die) : Nat :=
  let st := match x.st with
    | .idle => 0 | .read => 1 | .out => 2 | .load => 3 | .prog => 4 | .erase => 5 | .progSusp => 6 | .eraseSusp => 7 | .reset => 8
    | .retired => 9 | .absent => 10
  let (susps, block) := match x.op with
    | some o => if o.phase == .running || o.phase == .suspended then (o.susps, o.q.desc.block) else (0, 0)
    | none => (0, 0)
  let rd := match x.rd with | some r => r.inSusp | none => false
  packed [(28, st), (22, susps), (16, min 32 x.queued), (15, b2n rd), (0, block)]

/-- Codewords of the holder's burst that have not left the bus. -/
def Dev.burstLeft (d : Dev) (c : Chan) (h : Holder) : Nat :=
  if h.moving then countUpTo h.len fun k => decide (d.strk.cycle < c.rate.cwEnd (h.first + k)) else 0

/-- An entry of the pending queue (Table 7-7). -/
def Req.view (r : Req) : Nat :=
  packed [(31, 1), (30, b2n r.forced), (27, r.kind.code), (23, r.cls), (18, r.target), (15, r.len), (13, r.progress), (0, min 255 r.wait)]

/-- A channel (Tables 2-18 to 2-21, 6-12, 6-22 to 6-24, 6-27 to 6-29, 7-6, 7-7); `a` is the address in channel 0's window. -/
def Dev.viewChan (d : Dev) (n i a w : Nat) : Nat :=
  let c := d.chan n
  if a = Rg.SEQ_CTL.addr then setBits w 1 1 (b2n c.retired)
  else if a = Rg.SEQ_STAT.addr then
    packed [(16, (List.range 32).foldl (fun k t => k + min 32 (c.die t).queued) 0), (2, b2n (!c.cq.isEmpty)), (1, b2n c.retired), (0, b2n (d.running n))]
  else if a = Rg.SEQ_DIE_STAT.addr then (c.die i).stat
  else if a = Rg.SEQ_DIE_CTL.addr then packed [(1, b2n ((c.die i).st == .retired)), (0, b2n ((c.die i).st != .absent))]
  else if a = Rg.SEQ_BST_DATA.addr then (c.die i).blockState (d.rdc n Fd.SEQ_BST_SEL_BLOCK)
  else if a = Rg.CARB_STAT.addr then
    (match c.holder.filter fun h => h.moving || !d.strk.lock || decide (d.strk.cycle < h.endC) with
      | some h => packed [(31, 1), (28, h.req.kind.code), (24, h.req.cls), (19, h.req.target), (16, d.burstLeft c h), (0, c.pq.length)]
      | none => c.pq.length)
  else if a = Rg.CARB_PQ_ENTRY.addr then (match c.pq[i]? with | some r => r.view | none => 0)
  else if a = Rg.HATCH_CTL.addr then setBits (setBits w 2 1 0) 0 0 (b2n c.arm.isSome)
  else if a = Rg.HATCH_STAT.addr then
    setBits w 2 0 (packed [(2, b2n c.active), (1, b2n (match c.arm with | some r => !r.checking | none => false)), (0, b2n c.live)])
  else if a = Rg.HATCH_SEAL_A.addr then bits c.sealA.toNat 15 0
  else if a = Rg.HATCH_SEAL_B.addr then bits c.sealB.toNat 15 0
  else if a = Rg.PHY_RATE.addr then
    packed [(16, c.rate.code), (8, b2n (c.training == .requested || c.training == .running)), (0, w % 8)]
  else if a = Rg.PHY_CAL_STAT.addr then setBits w 5 0 (d.calDue n)
  else if a = Rg.PHY_EYE.addr then
    (let x := c.die i
     packed [(24, x.rdWidth), (16, x.rdCenter), (8, x.wrWidth), (0, x.wrCenter)])
  else w

/-- What copy `i` of a register of channel `n` reads as. -/
def Dev.view (d : Dev) (n i : Nat) (r : RegDef) : Nat :=
  let w := d.regGet r n i
  let a := r.addr
  let win := winOf a
  if win = 0x1 then d.viewStrk a w
  else if win = 0x2 || win = 0x3 then d.viewPwr i a w
  else if win = 0x10 then d.viewHq i a w
  else if win = 0x11 then d.viewZone a w
  else if win = 0x12 then d.viewTen i a w
  else if win = 0x13 || win = 0x14 then d.viewCells a w
  else if win = 0x15 then d.viewDmc i a w
  else if win = 0x16 then d.viewCiph i a w
  else if win = 0x17 || win = 0x18 || win = 0x19 then d.viewEcc i a w
  else if win = 0x1A || win = 0x1B then d.viewJnm i a w
  else if win = 0x1C then d.viewGrv i a w
  else if 0x100 ≤ win then d.viewChan n i a w
  else w

/-- The bits of a register whose fields have an access code. -/
def RegDef.accMask (r : RegDef) (p : Access → Bool) : Nat :=
  r.fields.foldl (fun m f => if p f.acc then m + (2 ^ (f.hi + 1) - 2 ^ f.lo) else m) 0

/-- A read of a register: RC fields are cleared (R12), WO fields read 0, and three reads latch the other half of a counter or entry. -/
def readReg (n i : Nat) (r : RegDef) (d : Dev) : Nat × Dev :=
  let v := d.view n i r &&& r.accMask (· != .wo)
  let rc := r.accMask (· == .rc)
  let w := d.regGet r n i
  let d := if rc = 0 then d else d.regSet r n i (w - (w &&& rc))
  let d :=
    if r.addr = Rg.STRK_COUNT_LO.addr then countLoRead d
    else if r.addr = Rg.CIPH_NONCE_LO.addr then nonceLoRead d
    else if r.addr = Rg.CELL_LINK_LO.addr then linkLoRead d
    else d
  (v, d)

/-- A 32-bit read of an address inside a mapped window by graver `g` (R9, R10). The reserved bits of a bank entry read 0. -/
def readControl (g a : Nat) (d : Dev) : Nat × Dev :=
  match bankAt a with
  | some (n, b, k, high) =>
    let e := (d.chan n).bankEntry b k
    (if high then bits e.toNat 63 57 * 2 ^ 25 else bits e.toNat 31 0, d)
  | none =>
    match regAt a with
    | some r => readReg (chanOfAddr a) (d.copyOf (chanOfAddr a) g r) r d
    | none => (0, d)

end Sys2Proof.Machine
end

