-- ==== Sys2Proof/Machine/RegWrite.lean ====
section
/-! DEFINITION. Writes of registers (R8 to R14): the access codes of the fields, configuration that is fixed while its block runs, the
registers whose write acts. -/

namespace Sys2Proof.Machine

/-! ### Fields (R10, R13) -/

/-- A field written with its bits of `v`: RW takes legal values, W1C clears, every other code keeps what stands. -/
def storeField (v w : Nat) (f : FieldDef) : Nat :=
  let x := bits v f.hi f.lo
  let old := bits w f.hi f.lo
  match f.acc with
  | .rw =>
    (match f.range with
      | some (lo, hi) => if lo ≤ x && x ≤ hi then setBits w f.hi f.lo x else w
      | none => setBits w f.hi f.lo x)
  | .w1c => setBits w f.hi f.lo (old - (old &&& x))
  | _ => w

/-- The write sets a bit of no field (R14). -/
def RegDef.rsvSet (r : RegDef) (v : Nat) : Bool := decide (v &&& r.accMask (fun _ => true) ≠ v)

/-- Stores copy `i` of a register by its fields. -/
def storeFields (n i : Nat) (r : RegDef) (v : Nat) (d : Dev) : Dev := d.regSet r n i (r.fields.foldl (storeField v) (d.regGet r n i))

/-! ### Configuration that its block holds fixed -/

/-- While `c` holds, a write does `f` and does not reach the register. -/
def fixedIf (c : Bool) (f : Dev → Dev) : Option (Dev → Dev) := if c then some f else none

/-- The write is ignored while the block runs; the event bit it sets, if any (R175, R286, R287, R316, R336, R353, R401, R471, Tables
9-15 and 10-11). -/
def Dev.fixed (d : Dev) (n a : Nat) : Option (Dev → Dev) :=
  let o := a % 0x10000
  let win := winOf a
  if a = Rg.CAM_PART.addr then fixedIf (d.is Fd.CAM_CTL_EN) (fun d => d.wr Fd.CAM_EVT_CFG_IGN 1)
  else if win = 0x14 && (o = 0x08 || (0x20 ≤ o && o < 0x40)) then fixedIf (d.is Fd.CELL_CTL_EN) id
  else if win = 0x15 && 0x20 ≤ o && o < 0x38 then fixedIf (d.is Fd.DMC_CTL_EN) (fun d => d.wr Fd.DMC_EVT_CFG_IGN 1)
  else if win = 0x16 && 0x70 ≤ o && o ≤ 0x78 then fixedIf (d.is Fd.CIPH_CTL_EN) (fun d => d.wr Fd.CIPH_EVT_CFG_IGN 1)
  else if win = 0x17 && 0x10 ≤ o && o ≤ 0x18 then fixedIf d.ecc.routed id
  else if win = 0x18 && (o = 0x04 || o = 0x10 || o = 0x14) then fixedIf (decide (d.rd Fd.PAR_CTL_EN ≠ 0)) (fun d => d.wr Fd.PAR_EVT_CFG_IGN 1)
  else if win = 0x19 && (o = 0x08 || o = 0x0C) then fixedIf (d.is Fd.STIP_CTL_EN) id
  else if win = 0x1A && 0x10 ≤ o && o ≤ 0x20 then fixedIf (d.is Fd.JNM_CTL_EN) (fun d => d.wr Fd.JNM_EVT_CFG_IGN 1)
  else if a = Rg.DLK_CTL.addr then fixedIf (d.is Fd.DLK_CTL_EN) id
  else if 0x100 ≤ win && 0x40 ≤ o && o ≤ 0x48 then fixedIf (d.isc n Fd.SEQ_CTL_EN) (fun d => d.wrc n Fd.SEQ_EVT_CFG_IGN 1)
  else none

/-! ### Eight-word posts (R171, R269, R304) -/

/-- Sets word `k` of a graver's words to post. -/
def stageWord (l : List Word) (k : Nat) (v : Nat) : List Word :=
  listSetAt (l ++ List.replicate (7 - l.length) 0) k (BitVec.ofNat 32 v)
/-- The post that the write of word 7 makes. -/
def postOf (l : List Word) (v : Nat) : Desc :=
  { d0 := l.getD 0 0, d1 := l.getD 1 0, d2 := l.getD 2 0, d3 := l.getD 3 0, d4 := l.getD 4 0, d5 := l.getD 5 0, d6 := l.getD 6 0
    d7 := BitVec.ofNat 32 v }

/-- A write of word `k` of a graver's staging. -/
def stageIn (m : SMap (List Word)) (g k v : Nat) : SMap (List Word) := mapSet [] m g (stageWord (mapGet [] m g) k v)

/-- A write of word `k` of `SEQ_POST`: a class-15 descriptor posted so is device work of no single namespace (log entry 126). -/
def seqPost (n g k v : Nat) (d : Dev) : Dev :=
  if k < 7 then d.modChan n fun c => { c with staging := stageIn c.staging g k v }
  else postDesc n g (postOf (mapGet [] (d.chan n).staging g) v) true d
def parPost (g k v : Nat) (d : Dev) : Dev :=
  if k < 7 then d.modPar fun p => { p with staging := stageIn p.staging g k v }
  else parityPost g (postOf (mapGet [] d.par.staging g) v) d
def ciphPost (g k v : Nat) (d : Dev) : Dev :=
  if k < 7 then d.modCiph fun c => { c with staging := stageIn c.staging g k v }
  else cipherPost g (postOf (mapGet [] d.ciph.staging g) v) d

/-! ### Registers whose write acts -/

/-- `CAM.OP`: the fields, then with GO the operation that OP names (a reserved code leaves OP as it was, R13). -/
def camOpWrite (g v : Nat) (d : Dev) : Dev :=
  let x := bits v 2 0
  let op := if 1 ≤ x && x ≤ 5 then x else d.rdb g Fd.CAM_OP_OP
  let v := setBits v 2 0 op
  if !bit v 31 then d.camOpFields g v
  else if op = 1 then camInvalidate g v d
  else if op = 2 then camWrite g v d
  else if op = 3 then camValidate g v d
  else if op = 4 then camRead g v d
  else if op = 5 then camSearchOp g v d
  else d.camOpFields g v

/-- `CIPH.KEY_CMD`, in the same way. -/
def keyCmdWrite (v : Nat) (s : State) : State :=
  let x := bits v 3 0
  let op := if 1 ≤ x && x ≤ 3 then x else s.dev.rd Fd.CIPH_KEY_CMD_OP
  if !bit v 31 then s.modDev (keyCmdFields v op)
  else if op = 1 then keyGenerate v s
  else if op = 2 then keyLoad v s
  else if op = 3 then s.modDev (keyPurge v)
  else s.modDev (keyCmdFields v op)

/-- `DMC.WM`: a write that would make LO at least HI leaves both (Table 11-9). -/
def wmWrite (v : Nat) (d : Dev) : Dev :=
  let new := Rg.DMC_WM.fields.foldl (storeField v) (d.regGet Rg.DMC_WM 0 0)
  if bits new 15 8 ≤ bits new 7 0 then d.wr Fd.DMC_WM_AGE (bits new 31 24) else d.regSet Rg.DMC_WM 0 0 new

/-- A whole register takes the value written. -/
def setAt (r : Option RegDef) (v : Nat) (d : Dev) : Dev := match r with | some r => d.regSet r 0 0 v | none => d

/-- Registers of the blocks without a channel whose write acts on the device alone. -/
def Dev.acts (g a v : Nat) : Option (Dev → Dev) :=
  let o := a % 0x10000
  let win := winOf a
  if a = Rg.STRK_CTL.addr then some (strkCtlWrite v)
  else if a = Rg.PWR_OP_CTL.addr then some (opCtlWrite v)
  else if win = 0x2 && 0x10 ≤ o && o ≤ 0x1C then some (trimWrite ((o - 0x10) / 4) v)
  else if a = Rg.AON_WAKE_EN.addr then some (fun d => d.wr Fd.AON_WAKE_EN_EN (setBits v 6 5 3))
  else if a = Rg.SYS_RST_CTL.addr then some (fun d => if bit v 0 then rstCold d else d)
  else if a = Rg.TEN_F_CFG.addr then some (tenantWrite v)
  else if a = Rg.TEN_CLS_CFG.addr then some (fun d => classWrite (d.rd Fd.TEN_CLS_SEL_CLASS) v d)
  else if a = Rg.CAM_OP.addr then some (camOpWrite g v)
  else if a = Rg.CELL_CTL.addr then some (cellCtlWrite v)
  else if a = Rg.CELL_ALLOC_REQ.addr then some (cellAllocRequest g v)
  else if a = Rg.CELL_FREE.addr then some (fun d => cellFreed g v d)
  else if a = Rg.CELL_SPLICE_H.addr then some (cellSplice g v)
  else if a = Rg.DMC_CTL.addr then some (dmcCtlWrite v)
  else if a = Rg.DMC_RETIRE.addr then some (retireMask v)
  else if a = Rg.DMC_WM.addr then some (wmWrite v)
  else if a = Rg.CIPH_EPOCH.addr then some (epochWrite (bits v 29 0))
  else if win = 0x16 && 0x40 ≤ o && o ≤ 0x5C then some (ciphPost g ((o - 0x40) / 4) v)
  else if a = Rg.LDPC_ST_SEL.addr then some (stSelWrite v)
  else if win = 0x18 && 0x20 ≤ o && o ≤ 0x3C then some (parPost g ((o - 0x20) / 4) v)
  else if a = Rg.STIP_CTL.addr then
    some (fun d => let d := storeFields 0 0 Rg.STIP_CTL v d; if bit v 0 then stipEnable d else d)
  else if a = Rg.STIP_URG_POST.addr then some (stipUrgPost v)
  else if a = Rg.GRV_PET.addr then some (fun d => d.modGraver g fun x => { x with petAt := d.strk.ran })
  else if a = Rg.GRV_MIGRATE.addr then some (graverMigrate v)
  else if a = Rg.GRV_MEAS_EXT11.addr then some (measExtend v)
  else if win = 0x1C && 0x58 ≤ o && o ≤ 0x80 then some (fun d => setAt (regAt a) v d)
  else none

/-- Registers whose write also reaches memory or a ring. -/
def actsWide (a v : Nat) : Option (State → State) :=
  if a = Rg.CIPH_KEY_CMD.addr then some (keyCmdWrite v)
  else if a = Rg.CIPH_JCQ_HEAD.addr then some fun s => drainCiph (s.modDev (storeFields 0 0 Rg.CIPH_JCQ_HEAD v))
  else if a = Rg.LDPC_ESC_HEAD.addr then some fun s => drainEsc (s.modDev (storeFields 0 0 Rg.LDPC_ESC_HEAD v))
  else if a = Rg.PAR_JCQ_HEAD.addr then some fun s => drainPar (s.modDev (storeFields 0 0 Rg.PAR_JCQ_HEAD v))
  else if a = Rg.JNM_CTL.addr then some fun s => settleJenam (s.modDev fun d => startSends (storeFields 0 0 Rg.JNM_CTL v d))
  else if a = Rg.JNM_TX.addr then some (jenamTx v)
  else if a = Rg.GRV_CTL.addr then some (grvCtlWrite v)
  else if a = Rg.GRV_SPARE_LO.addr || a = Rg.GRV_SPARE_HI.addr then some fun s => holdSpares (s.modDev (setAt (regAt a) v))
  else none

/-- Registers of a channel whose write acts; `a` is the address in channel 0's window. -/
def actsChan (n g a v : Nat) : Option (Dev → Dev) :=
  let o := a % 0x10000
  if a = Rg.SEQ_CTL.addr then some (seqCtl n v)
  else if 0x10 ≤ o && o ≤ 0x2C then some (seqPost n g ((o - 0x10) / 4) v)
  else if a = Rg.SEQ_DIE_CTL.addr then some (dieCtl n v)
  else if a = Rg.SEQ_BST_DATA.addr then some (blockStateWrite n v)
  else if a = Rg.HATCH_CTL.addr then some (hatchCtlStore n v)
  else if a = Rg.PHY_RATE.addr then some (phyRateWrite n v)
  else none

/-- What a write of copy `i` of a register does by its fields: it is ignored while its block holds the register fixed, acts, or is stored. -/
def putReg (n g i : Nat) (r : RegDef) (v : Nat) (s : State) : State :=
  match s.dev.fixed n r.addr with
  | some f => s.modDev f
  | none =>
    if 0x100 ≤ winOf r.addr then
      let s := s.modDev ((actsChan n g r.addr v).getD (storeFields n i r v))
      if r.addr % 0x10000 < 0x3000 then afterChan n s else s
    else match Dev.acts g r.addr v, actsWide r.addr v with
      | some f, _ => s.modDev f
      | none, some f => f s
      | none, none => s.modDev (storeFields 0 i r v)

/-- A write of copy `i` of a register (R10, R14). A seal mask keeps its reserved bits, which R54 checks. -/
def storeReg (n g i : Nat) (r : RegDef) (v : Nat) (s : State) : State :=
  if r.addr = Rg.HATCH_SEAL_A.addr then s.modDev (hatchSealStore n false (BitVec.ofNat 32 v))
  else if r.addr = Rg.HATCH_SEAL_B.addr then s.modDev (hatchSealStore n true (BitVec.ofNat 32 v))
  else orRsvWide (r.rsvSet v) (putReg n g i r (v &&& r.accMask fun _ => true)) s

/-- A 32-bit write of an address inside a mapped window by graver `g` (R9, R10). -/
def writeControl (g a v : Nat) (s : State) : State :=
  match bankAt a with
  | some (n, b, k, high) => s.modDev (hatchEntryStore n b k high (BitVec.ofNat 32 v))
  | none =>
    match regAt a with
    | some r => storeReg (chanOfAddr a) g (s.dev.copyOf (chanOfAddr a) g r) r v s
    | none => s

/-- The answer of the internal fabric to an access: data, or a bus error (R8, R28). -/
def busAnswer (data : Nat) (err : Bool) (d : Dev) : Dev := { d with bus := { data := BitVec.ofNat 64 data, err := err } }

/-- REGISTER_WRITE: a 32-bit write by a graver. An access that is not aligned, or to an address no range maps, is a bus error. -/
def execRegisterWrite (g : Fin 64) (addr : BitVec 40) (v : Word) (cyc : BitVec 10) (s : State) : Host.Outcome State Fault Refusal :=
  let a := addr.toNat
  match regionOf s.dev.dram.mib a with
  | .control =>
    if a % 4 ≠ 0 then .next (s.modDev (busAnswer 0 true))
    else .next ((writeControl g a v.toNat (s.modDev fun d => d.atCycle cyc)).modDev (busAnswer 0 false))
  | .unmapped | .bootRom => .next (s.modDev (busAnswer 0 true))
  | _ => noEvent "register" s

end Sys2Proof.Machine
end

