-- ==== Sys2Proof/Machine/GraverMem.lean ====
section
/-! DEFINITION. The memory accesses of a graver (R27, R28, R355, R356, R377). -/

namespace Sys2Proof

/-- The access is an AMO. -/
def MemKind.isAmo : MemKind → Bool
  | .load | .store | .lr | .sc => false
  | _ => true

/-- The access reads memory only. -/
def MemKind.reads : MemKind → Bool
  | .load | .lr => true
  | _ => false

/-- An encoding that RV64IMAC with these extensions does not have: LR, SC and AMO of less than 4 bytes, or in compressed form; a
zero-extending store or atomic, or doubleword load; a compressed access of a byte, a halfword or with zero extension. -/
def MemOp.illegal (op : MemOp) (comp : Bool) : Bool :=
  let atomic := op.kind.isAmo || op.kind == .lr || op.kind == .sc
  (atomic && (decide (op.log2.val < 2) || comp)) || (op.unsigned && (op.kind != .load || decide (op.log2.val = 3))) ||
    (comp && (op.unsigned || decide (op.log2.val < 2)))

end Sys2Proof

namespace Sys2Proof.Machine

/-- What an access of a graver reaches. -/
inductive Reach where
  | sram (key : Nat)
  | rom (off : Nat)
  | mem (a : Nat)
  | control (a : Nat)
  | none
  deriving DecidableEq, Repr

/-- What an address reaches for graver `g` (R27): its own local SRAM, the boot ROM, shared SRAM, DRAM that serves accesses (R313),
control space. -/
def Dev.reach (d : Dev) (g a : Nat) : Reach :=
  match regionOf d.dram.mib a with
  | .localSram => .sram (sramKey g a)
  | .bootRom => .rom (a - 0x40000000)
  | .staging | .keep => .mem a
  | .dram => if d.dram.ready then .mem a else .none
  | .control => .control a
  | .unmapped => .none

/-- U-mode may make the access (R356): a PMP entry of the graver permits it. -/
def Dev.pmpPermits (d : Dev) (g a n : Nat) : Bool :=
  (d.graver g).pmp.any fun p => decide (p.base ≤ a) && decide (a + n ≤ p.base + p.bytes)

/-- The bytes of an access to memory. -/
def State.readReach (s : State) (r : Reach) (n : Nat) : List Byte :=
  match r with
  | .sram k => (List.range n).map fun i => memGet s.mem (k + i)
  | .rom o => (List.range n).map fun i => Config.bootRom (o + i)
  | .mem a => (List.range n).map fun i => s.readByte (a + i)
  | _ => []

/-- Writes the bytes of an access to memory. -/
def State.writeReach (s : State) (r : Reach) (bs : List Byte) : State :=
  match r with
  | .sram k => { s with mem := memFill s.mem k bs }
  | .mem a => s.writeBytes a bs
  | _ => s

/-- Sign extension of an `n`-byte value to 64 bits. -/
def signExtend (n v : Nat) : Nat := if bit v (8 * n - 1) then v + (2 ^ 64 - 2 ^ (8 * n)) else v
/-- The signed value of `n` bytes. -/
def signedOf (n v : Nat) : Int := if bit v (8 * n - 1) then (v : Int) - 2 ^ (8 * n) else v

/-- What an AMO of `n` bytes writes (the RISC-V A extension; log entry 14). -/
def amoResult (k : MemKind) (n old src : Nat) : Nat :=
  match k with
  | .amoAdd => (old + src) % 2 ^ (8 * n)
  | .amoXor => old ^^^ src
  | .amoAnd => old &&& src
  | .amoOr => old ||| src
  | .amoMin => if signedOf n old ≤ signedOf n src then old else src
  | .amoMax => if signedOf n src ≤ signedOf n old then old else src
  | .amoMinu => min old src
  | .amoMaxu => max old src
  | _ => src

/-- The address: rs1, with the offset of a load or store. -/
def Graver.addrOf (v : Graver) (op : MemOp) : Nat :=
  match op.kind with
  | .load | .store => (v.reg op.rs1 + op.imm.signExtend 64).toNat
  | _ => (v.reg op.rs1).toNat

/-- An exception: an etching stops where R378 says so (`stop`: its cause of Table 14-9), another graver takes the trap. -/
def graverTrap (g cause tval : Nat) (stop : Option Nat) (s : State) : State :=
  let v := s.dev.graver g
  match v.etching, v.slot, stop with
  | true, some e, some c => etchStop e c s
  | _, _, _ => s.modDev fun d => d.modGraver g fun v => v.trap cause (BitVec.ofNat 64 tval)

/-- An access fault: cause 5 of a read, 7 of a write; with MIE = 0 in M-mode the graver fails (R363). -/
def accessFault (g a : Nat) (reads : Bool) (s : State) : State :=
  let v := s.dev.graver g
  if v.machine && !bit (v.csrOf csrMstatus).toNat 3 then failGraver g 3 s
  else graverTrap g (if reads then 5 else 7) a (some 1) s

/-- A store ends the reservations of other gravers on the bytes it writes (log entry 14). -/
def breakResv (g : Nat) (r : Reach) (d : Dev) : Dev :=
  match r with
  | .mem a =>
    if d.grv.gravers.any (fun e => e.2.resv.isSome) then
      forUpTo 64 (fun h d => d.modGraver h fun v =>
        if h ≠ g && v.resv.any (fun b => decide (b / 8 = a / 8)) then { v with resv := none } else v) d
    else d
  | _ => d

/-- The instruction ends: its result, and the program counter past it. -/
def memEnd (g rd len : Nat) (w : Option Nat) (d : Dev) : Dev :=
  d.modGraver g fun v => (match w with | some x => v.setReg rd (BitVec.ofNat 64 x) | none => v).advance len

/-- An access to memory that is permitted. -/
def memAccess (g a len : Nat) (r : Reach) (op : MemOp) (s : State) : State :=
  let n := 2 ^ op.log2.val
  let v := s.dev.graver g
  let src := (v.reg op.rs2).toNat % 2 ^ (8 * n)
  let old := leNat (s.readReach r n)
  let wide := fun x => if op.unsigned then x else signExtend n x
  let put (x : Nat) (s : State) : State := (s.writeReach r (leBytes n x)).modDev (breakResv g r)
  let answer (s : State) : State := match r with | .sram _ => s | _ => s.modDev (busAnswer old false)
  match op.kind with
  | .load => (answer s).modDev (memEnd g op.rd len (some (wide old)))
  | .store => (put src s).modDev (memEnd g 0 len none)
  | .lr => ((answer s).modDev fun d => d.modGraver g fun v => { v with resv := some a }).modDev (memEnd g op.rd len (some (wide old)))
  | .sc =>
    let held := v.resv == some a
    let s := if held then put src s else s
    (s.modDev fun d => d.modGraver g fun v => { v with resv := none }).modDev (memEnd g op.rd len (some (if held then 0 else 1)))
  | k => (put (amoResult k n old src) (answer s)).modDev (memEnd g op.rd len (some (wide old)))

/-- A memory instruction of graver `g`. On the boot ROM a load is served and every other access gets a bus error, LR too (log entry 122:
R28 serves reads, R355 names shared SRAM, DRAM and local SRAM for LR). -/
def graverAccess (g : Nat) (op : MemOp) (comp : Bool) (s : State) : State :=
  let len := if comp then 2 else 4
  let n := 2 ^ op.log2.val
  let v := s.dev.graver g
  let a := v.addrOf op
  let reads := op.kind.reads
  if op.illegal comp then graverTrap g 2 0 (some 2) s
  else if a % n ≠ 0 then graverTrap g (if reads then 4 else 6) a none s
  else if !v.machine && !s.dev.pmpPermits g a n then accessFault g a reads s
  else match s.dev.reach g a with
    | .none => accessFault g a reads (s.modDev (busAnswer 0 true))
    | .rom o =>
      if op.kind == .load then memAccess g a len (.rom o) op s else accessFault g a reads (s.modDev (busAnswer 0 true))
    | .control _ =>
      if n ≠ 4 || !(op.kind == .load || op.kind == .store) then accessFault g a reads (s.modDev (busAnswer 0 true))
      else if op.kind == .load then
        let (w, d) := readControl g a s.dev
        ({ s with dev := d }.modDev (busAnswer w false)).modDev (memEnd g op.rd len (some (if op.unsigned then w else signExtend 4 w)))
      else
        writeControl g a ((v.reg op.rs2).toNat % 2 ^ 32) (s.modDev fun d => busAnswer 0 false (memEnd g 0 len none d))
    | r => memAccess g a len r op s

/-- GRAVER_LOAD_STORE. -/
def execGraverLoadStore (g : Fin 64) (op : MemOp) (comp : Bool) (cyc : BitVec 10) (s : State) : Host.Outcome State Fault Refusal :=
  if s.dev.executes g then
    .next (graverAccess g op comp (s.modDev fun d => d.atCycle cyc))
  else noEvent "graver" s

end Sys2Proof.Machine
end

