-- ==== Sys2Proof/Machine/JenamTenant.lean ====
section
/-! DEFINITION. Jenam groups 0x01 to 0x03: device, tenants, namespaces and placement (R79, R108, R109, R113, R131, R141 to R144, R149,
R150, R157, R394 to R397, Tables 5-1 and 14-5 to 14-7). -/

namespace Sys2Proof.Machine

/-- Bytes `lo` to `hi` - 1 of the parameters are zero. -/
def jZero (p : List Byte) (lo hi : Nat) : Bool := decide (jf p lo (hi - lo) = 0)

/-- A create or an attach whose effect is in force already (R394). -/
def jSame (params : List Byte) (s : State) : Nat × List Byte × State := (jsAlready, params, s)

/-- A change that Jenam makes is durable before its reply (R233, R434). -/
def State.jDo (s : State) (f : Dev → Dev) : State := s.modDev fun d => makeDurable (f d)

/-! ### Group 0x01 (Table 14-5) -/

/-- GET_INFO. The step and the metal revision stand in `SYS.REVISION`. -/
def getInfo (p : List Byte) (s : State) : Nat × List Byte × State :=
  let d := s.dev
  if p.length ≠ 0 then jNo jsBadParam s
  else
    jYes (layout 12 [(0, 2, 0x4800), (2, 2, 0x5658), (4, 1, d.rd Fd.SYS_REVISION_STEP), (5, 1, d.rd Fd.SYS_REVISION_METAL), (6, 1, d.sys.role),
      (7, 1, d.cascade), (8, 1, d.rd Fd.GRV_BOOT_SLOT), (9, 1, d.nvm.svn)]) s

def execGetInfo (buf : Fin 32) (s : State) : Host.Outcome State Fault Refusal := jenamRow 0x0101 buf getInfo s

/-- The geometry of a device of a die type, as GET_GEOMETRY reports it (R21, R218). -/
def geometryBytes (x : DieType) : List Byte :=
  layout 28 [(0, 2, 48), (2, 2, 32), (4, 1, x.planes), (5, 1, x.bits), (6, 2, x.blocks), (8, 2, x.pages), (10, 2, x.pageBytes),
    (12, 2, x.metadata), (14, 2, x.rescue), (16, 2, x.conventional), (18, 2, x.zoneRows), (20, 2, x.spares), (22, 2, x.spareBytes),
    (24, 4, x.zoneSectors)]

/-- GET_GEOMETRY: channels, dies, planes, bits, blocks, pages, page bytes, the blocks of Table 8-1, spare bytes, zone capacity. -/
def getGeometry (p : List Byte) (s : State) : Nat × List Byte × State :=
  if p.length ≠ 0 then jNo jsBadParam s
  else
    jYes (geometryBytes q4) s

def execGetGeometry (buf : Fin 32) (s : State) : Host.Outcome State Fault Refusal := jenamRow 0x0102 buf getGeometry s

/-! ### Group 0x02: tenants (R143, R144, R150) -/

def Dev.tenantHere (d : Dev) (t : Nat) : Bool := decide (t < 1024) && decide (d.rdb t Fd.TEN_T_CFG_PRESENT = 1)

/-- The sum of a holding over every tenant but one. -/
def Dev.othersHold (d : Dev) (t : Nat) (f : Fld) : Nat :=
  (List.range 1024).foldl (fun a i => if i = t then a else a + d.rdb i f) 0

/-- Cells of the pool (R143). -/
def Dev.poolCells (d : Dev) : Nat := onChipCells + d.rd Fd.CELL_DRAM_N_N

/-- The operator has declared the tenant's die groups exclusive. -/
def Dev.exclGroups (d : Dev) (t : Nat) : Bool := decide (d.rdb t Fd.TEN_T_CFG_EXCL_GROUPS = 1)

/-- Die groups of a namespace `nsid` of tenant `t` meet those of another tenant's namespace, and one of the two tenants holds its groups
exclusively; `excl` says whether `t` does (R150). -/
def Dev.groupsClash (d : Dev) (t nsid : Nat) (excl : Bool) (gs : List Nat) : Bool :=
  d.zm.ns.any fun e =>
    decide (e.1 ≠ nsid) && decide (e.2.owner ≠ t) && (excl || d.exclGroups e.2.owner) && gs.any fun g => decide (g ∈ e.2.groups)

/-- A tenant's groups are shared with another tenant's namespace. -/
def Dev.groupsShared (d : Dev) (t : Nat) : Bool :=
  d.zm.ns.any fun e => decide (e.2.owner = t) && d.groupsClash t e.1 true e.2.groups

/-- The parameters of TEN_CREATE and TEN_SET are in range. -/
def tenantOk (p : List Byte) : Bool :=
  decide (p.length = 16) && decide (jf p 0 2 < 1024) && decide (jf p 2 1 < 2) && jZero p 3 4 && decide (jf p 4 4 < 2 ^ 26) &&
    decide (jf p 8 4 < 2 ^ 26) && decide (jf p 12 2 ≤ 256) && decide (jf p 14 1 ≤ 64) && decide (jf p 15 1 ≤ 64)

/-- The sums of Table 5-1 that a tenant's new holdings would break. -/
def Dev.tenantOver (d : Dev) (p : List Byte) : Bool :=
  let t := jf p 0 2
  decide (d.poolCells - deviceCells < d.othersHold t Fd.TEN_T_CELL_FLOOR_CELLS + jf p 4 4) ||
    decide (256 < d.othersHold t Fd.TEN_T_STAGE_RESERVE + jf p 12 2) || decide (64 < d.othersHold t Fd.TEN_T_REFOLD_FLOOR + jf p 14 1)

/-- The tenant has the values that TEN_CREATE would give it. -/
def Dev.tenantHas (d : Dev) (t : Nat) (p : List Byte) : Bool :=
  decide (d.rdb t Fd.TEN_T_CFG_EXCL_GROUPS = jf p 2 1) && decide (d.rdb t Fd.TEN_T_CELL_FLOOR_CELLS = jf p 4 4) &&
    decide (d.rdb t Fd.TEN_T_CELL_CAP_CELLS = jf p 8 4) && decide (d.rdb t Fd.TEN_T_STAGE_RESERVE = jf p 12 2) &&
    decide (d.rdb t Fd.TEN_T_REFOLD_FLOOR = jf p 14 1) && decide (d.rdb t Fd.TEN_T_REFOLD_CAP = jf p 15 1)

/-- TEN_CREATE and TEN_SET give a tenant its values. -/
def setTenant (t : Nat) (p : List Byte) (d : Dev) : Dev :=
  let d := (d.wrb t Fd.TEN_T_CFG_PRESENT 1).wrb t Fd.TEN_T_CFG_EXCL_GROUPS (jf p 2 1)
  let d := (d.wrb t Fd.TEN_T_CELL_FLOOR_CELLS (jf p 4 4)).wrb t Fd.TEN_T_CELL_CAP_CELLS (jf p 8 4)
  let d := d.wrb t Fd.TEN_T_STAGE_RESERVE (jf p 12 2)
  (d.wrb t Fd.TEN_T_REFOLD_FLOOR (jf p 14 1)).wrb t Fd.TEN_T_REFOLD_CAP (jf p 15 1)

/-- The refusals and the effect that TEN_CREATE and TEN_SET share. -/
def provisionTenant (p : List Byte) (s : State) : Nat × List Byte × State :=
  let t := jf p 0 2
  if s.dev.tenantOver p then jNo jsLimit s
  else if jf p 2 1 = 1 && s.dev.groupsShared t then jNo jsIsolation s
  else jYes (layout 4 [(0, 2, t)]) (s.jDo (setTenant t p))

/-- TEN_CREATE. -/
def tenCreate (p : List Byte) (s : State) : Nat × List Byte × State :=
  let t := jf p 0 2
  if !tenantOk p then jNo jsBadParam s
  else if s.dev.tenantHere t then
    if s.dev.tenantHas t p then jSame (layout 4 [(0, 2, t)]) s else jNo jsExists s
  else provisionTenant p s

def execTenCreate (buf : Fin 32) (s : State) : Host.Outcome State Fault Refusal := jenamRow 0x0201 buf tenCreate s

/-- TEN_SET. -/
def tenSet (p : List Byte) (s : State) : Nat × List Byte × State :=
  if !tenantOk p then jNo jsBadParam s
  else if !s.dev.tenantHere (jf p 0 2) then jNo jsNotFound s
  else provisionTenant p s

def execTenSet (buf : Fin 32) (s : State) : Host.Outcome State Fault Refusal := jenamRow 0x0202 buf tenSet s

/-- The tenant owns a function or a namespace. -/
def Dev.tenantOwns (d : Dev) (t : Nat) : Bool := d.zm.ns.any (fun e => decide (e.2.owner = t)) || allFuncs.any fun f => decide (d.tenantOf f = t)

/-- A tenant's registers return to their defaults. -/
def clearTenant (t : Nat) (d : Dev) : Dev :=
  let d := d.regSet Rg.TEN_T_CFG 0 t (Rg.TEN_T_CFG.resetWord t)
  let d := d.regSet Rg.TEN_T_CELL_FLOOR 0 t (Rg.TEN_T_CELL_FLOOR.resetWord t)
  let d := d.regSet Rg.TEN_T_CELL_CAP 0 t (Rg.TEN_T_CELL_CAP.resetWord t)
  let d := d.regSet Rg.TEN_T_STAGE 0 t (Rg.TEN_T_STAGE.resetWord t)
  d.regSet Rg.TEN_T_REFOLD 0 t (Rg.TEN_T_REFOLD.resetWord t)

/-- TEN_DELETE. -/
def tenDelete (p : List Byte) (s : State) : Nat × List Byte × State :=
  let t := jf p 0 2
  if p.length ≠ 4 || !jZero p 2 4 || t = 0 || 1023 < t then jNo jsBadParam s
  else if !s.dev.tenantHere t then jNo jsNotFound s
  else if s.dev.tenantOwns t then jNo jsState s
  else jYes [] (s.jDo (clearTenant t))

def execTenDelete (buf : Fin 32) (s : State) : Host.Outcome State Fault Refusal := jenamRow 0x0203 buf tenDelete s

/-- The sums of quotas and slot floors that FUNC_ASSIGN would break (R79, Table 5-1). -/
def Dev.funcOver (d : Dev) (f : Nat) (p : List Byte) : Bool :=
  let others (g : Func → Nat) : Nat := d.host.funcs.foldl (fun a e => if e.1 = f then a else a + g e.2) 0
  let floors := allFuncs.foldl (fun a k => if k = f then a else a + d.rdb k Fd.TEN_F_SLOT_FLOOR_SLOTS) 0
  decide (16384 < others (·.sqQuota) + jf p 4 2) || decide (16384 < others (·.cqQuota) + jf p 6 2) ||
    decide (131072 < floors + jf p 8 4)

/-- A function is attached to a namespace that a function of tenant `t` may not reach (R142). -/
def Dev.reachesForeign (d : Dev) (f t : Nat) : Bool := d.zm.ns.any fun e => decide (f ∈ e.2.attached) && !e.2.shared && decide (e.2.owner ≠ t)

/-- The tenant, quotas, floor and cap of a function. -/
def assignFunc (f : Nat) (p : List Byte) (d : Dev) : Dev :=
  let d := d.modFunc f fun x => { x with sqQuota := jf p 4 2, cqQuota := jf p 6 2 }
  ((d.wrb f Fd.TEN_F_CFG_TENANT (jf p 2 2)).wrb f Fd.TEN_F_SLOT_FLOOR_SLOTS (jf p 8 4)).wrb f Fd.TEN_F_SLOT_CAP_SLOTS (jf p 12 4)

/-- FUNC_ASSIGN. -/
def funcAssign (p : List Byte) (s : State) : Nat × List Byte × State :=
  let f := jf p 0 2
  let t := jf p 2 2
  let most := if isPf f then 4096 else 256
  if p.length ≠ 16 || 1023 < t || most < jf p 4 2 || most < jf p 6 2 || 131072 < jf p 8 4 || 131072 < jf p 12 4 then jNo jsBadParam s
  else if 1025 < f || !s.dev.tenantHere t then jNo jsNotFound s
  else if t ≠ s.dev.tenantOf f && !s.dev.movable f then jNo jsState s
  else if s.dev.reachesForeign f t then jNo jsIsolation s
  else if s.dev.funcOver f p then jNo jsLimit s
  else jYes [] (s.jDo (assignFunc f p))

def execFuncAssign (buf : Fin 32) (s : State) : Host.Outcome State Fault Refusal := jenamRow 0x0204 buf funcAssign s

/-- CLASS_SET: EXCL, PACE, SOFT_RSV, owner and pace. -/
def classSet (p : List Byte) (s : State) : Nat × List Byte × State :=
  let c := jf p 0 1
  let fl := jf p 1 1
  let t := jf p 2 2
  if p.length ≠ 8 || 15 < c || 7 < fl || (c = 15 && fl ≠ 0) || 1023 < t || 2 ^ 20 ≤ jf p 4 4 then jNo jsBadParam s
  else if bit fl 0 && !s.dev.tenantHere t then jNo jsNotFound s
  else if bit fl 0 && s.dev.zm.ns.any (fun e => decide (e.2.cls = c) && decide (e.2.owner ≠ t)) then jNo jsIsolation s
  else if bit fl 2 && 4 ≤ s.dev.softHolders c then jNo jsLimit s
  else
    let v := bits fl 0 0 * 2 ^ 31 + bits fl 1 1 * 2 ^ 30 + bits fl 2 2 * 2 ^ 29 + t
    jYes [] (s.jDo fun d => (classWrite c v d).wrb c Fd.TEN_CLS_PACE_PACE (jf p 4 4))

def execClassSet (buf : Fin 32) (s : State) : Host.Outcome State Fault Refusal := jenamRow 0x0205 buf classSet s

/-- The sum of a count over the tenant's namespaces. -/
def Dev.tenantSum (d : Dev) (t : Nat) (g : Ns → Nat) : Nat := d.zm.ns.foldl (fun a e => if e.2.owner = t then a + g e.2 else a) 0

/-- TEN_USAGE: what the tenant's namespaces have read and written, and what it holds. -/
def tenUsage (p : List Byte) (s : State) : Nat × List Byte × State :=
  let d := s.dev
  let t := jf p 0 2
  if p.length ≠ 4 || !jZero p 2 4 || 1023 < t then jNo jsBadParam s
  else if !d.tenantHere t then jNo jsNotFound s
  else
    jYes (layout 40 [(0, 8, d.tenantSum t (·.sectorsRead)), (8, 8, d.tenantSum t (·.sectorsWritten)), (16, 8, d.tenantSum t (·.reads)),
      (24, 8, d.tenantSum t (·.writes)),
      (32, 4, d.pool.held t), (36, 2, d.stagedMib t), (38, 1, d.refoldsOf t)]) s

def execTenUsage (buf : Fin 32) (s : State) : Host.Outcome State Fault Refusal := jenamRow 0x0206 buf tenUsage s

/-! ### Group 0x03: namespaces (R396) -/

/-- The row reservations of Table 14-6 that are not zero, by die group of the cascade. -/
def jRows (p : List Byte) : SMap Nat := (List.range 384).filterMap fun g => let r := jf p (32 + 2 * g) 2; if r = 0 then none else some (g, r)

/-- A reservation names a group of a device that is not in the cascade. -/
def Dev.rowsAstray (d : Dev) (rs : SMap Nat) : Bool := rs.any fun e => decide (96 ≤ e.1) && !decide (e.1 / 96 ∈ d.dlk.admitted)

/-- The zones of a set of reservations. -/
def rowSum (rs : SMap Nat) : Nat := rs.foldl (fun a e => a + e.2) 0

/-- The reservations of a namespace would pass a group's healthy rows (R108), or its zones their limit (R462). -/
def Dev.rowsOver (d : Dev) (nsid : Nat) (rs : SMap Nat) : Bool :=
  let own := (d.ns? nsid).elim [] (·.rows)
  decide (327680 < rowSum rs) || rs.any fun e => decide (d.healthyRows e.1 < d.reservedRows e.1 - mapGet 0 own e.1 + e.2)

/-- The active-zone limits of every namespace but one (R113). -/
def Dev.othersLimit (d : Dev) (nsid : Nat) : Nat := d.zm.ns.foldl (fun a e => if e.1 = nsid then a else a + e.2.limit) 0

/-- The class belongs to another tenant (R149). -/
def Dev.classForeign (d : Dev) (t c : Nat) : Bool :=
  decide (c < 15) && decide (d.rdb c Fd.TEN_CLS_CFG_EXCL = 1) && decide (d.rdb c Fd.TEN_CLS_CFG_OWNER ≠ t)

/-- The parameters of NS_CREATE are in range. -/
def nsCreateOk (p : List Byte) : Bool :=
  let zoned := decide (jf p 6 1 = 1)
  let z := rowSum (jRows p)
  decide (p.length = if bit (jf p 9 1) 2 then 928 else 800) && decide (1 ≤ jf p 0 4) && decide (jf p 0 4 ≤ 4096) && decide (jf p 4 2 < 1024) &&
    decide (jf p 6 1 < 2) && decide (jf p 7 1 < 16) && decide (1 ≤ jf p 8 1) && decide (jf p 8 1 ≤ 2) && decide (jf p 9 1 < 8) && jZero p 16 32 &&
    (if zoned then decide (1 ≤ jf p 10 2) && decide (jf p 10 2 ≤ 2048) && decide (jf p 12 4 = 0) && decide (0 < z)
     else decide (jf p 10 2 = 0) && decide (jf p 12 4 % 256 = 0) && decide (0 < jf p 12 4) && decide (z = 0))

/-- Sectors of the conventional namespaces, but one (R131). -/
def Dev.convSectors (d : Dev) (nsid : Nat) : Nat := d.zm.ns.foldl (fun a e => if e.1 = nsid || e.2.zoned then a else a + e.2.sectors) 0

/-- Sectors that the device offers as conventional namespaces: 64 GiB, unless the rows that still take data hold less (R131, R219). -/
def Dev.convOffered (d : Dev) : Nat :=
  let rows := (List.range 192).filter fun i => (d.row (i / 2) (12 + i % 2)).worn.isNone
  min (2 ^ 24) (rows.length * 14 * (q4Wordlines * 16))

/-- The namespace of NS_CREATE; its identifier in Identify is left open. -/
def newNs (p : List Byte) (d : Dev) : Ns :=
  let zoned := decide (jf p 6 1 = 1)
  { zoned := zoned, owner := jf p 4 2, shared := bit (jf p 9 1) 1, cls := jf p 7 1, zones := rowSum (jRows p), rows := jRows p, handles := []
    limit := jf p 10 2, attached := [], maint := false, sectors := if zoned then 0 else 256 * jf p 12 4, newMode := none
    eui := leNat ((List.range 8).map fun i => Config.freeByte 0x103 i d.nfree), reads := 0, writes := 0, sectorsRead := 0, sectorsWritten := 0
    mediaErrs := 0 }

/-- The existing namespace has the parameters of the request (R394). -/
def Dev.sameNs (d : Dev) (nsid : Nat) (ns : Ns) (p : List Byte) : Bool :=
  ns.zoned == decide (jf p 6 1 = 1) && decide (ns.owner = jf p 4 2) && ns.shared == bit (jf p 9 1) 1 && decide (ns.cls = jf p 7 1) &&
    decide (ns.rows = jRows p) && decide (ns.limit = jf p 10 2) && decide (ns.zoned || ns.sectors = 256 * jf p 12 4) &&
    decide ((d.keySlot (nsSlot nsid)).mode = jf p 8 1) && decide (d.rdb (nsSlot nsid) Fd.CIPH_SLOT_AUTH_FLAG = bits (jf p 9 1) 0 0)

/-- The reply of NS_CREATE. -/
def Dev.nsReply (d : Dev) (nsid : Nat) : List Byte :=
  match d.ns? nsid with
  | some ns => layout 20 [(0, 4, nsid), (4, 4, ns.zones), (8, 8, ns.size), (16, 4, (d.keySlot (nsSlot nsid)).gen)]
  | none => []

/-- A key command that failed: its result in byte 0. -/
def jKeyNo (r : Nat) (s : State) : Nat × List Byte × State := (jsKeyRefused, layout 4 [(0, 1, r)], s)

/-- Loads a namespace's slot from a blob wrapped under IMPORT; the ROOT-wrapped blob takes a nonce (R299, R300). -/
def importKey (slot : Nat) (blob : List Byte) (d : Dev) : Except Nat Dev :=
  if (d.keySlot slot).state != .empty then .error 5
  else if (d.keySlot importSlot).state != .loaded then .error 4
  else match blobKey slot (d.keySlot importSlot).key blob with
    | .ok k => .ok (d.setKey slot k).takeNonce.2
    | .error r => .error r

/-- The key of a new namespace. -/
def nsKey (nsid : Nat) (p : List Byte) (d : Dev) : Except Nat Dev :=
  let slot := nsSlot nsid
  if bit (jf p 9 1) 2 then importKey slot ((p.drop 800).take 128) d
  else if (d.keySlot slot).state != .empty then .error 5
  else .ok (generateKey slot (jf p 8 1) d)

/-- The refusals of a new namespace, in the order existence, isolation, sums. -/
def Dev.nsRefusal (d : Dev) (p : List Byte) : Option Nat :=
  let nsid := jf p 0 4
  let t := jf p 4 2
  let rs := jRows p
  if !d.tenantHere t then some jsNotFound
  else if d.classForeign t (jf p 7 1) || d.groupsClash t nsid (d.exclGroups t) (rs.map (·.1)) then some jsIsolation
  else if d.rowsOver nsid rs || decide (2048 < d.othersLimit nsid + jf p 10 2) ||
      (decide (jf p 6 1 = 0) && decide (d.convOffered < d.convSectors nsid + 256 * jf p 12 4)) then some jsLimit
  else none

/-- NS_CREATE. -/
def nsCreate (p : List Byte) (s : State) : Nat × List Byte × State :=
  let nsid := jf p 0 4
  let d := s.dev
  if !nsCreateOk p || d.rowsAstray (jRows p) then jNo jsBadParam s
  else match d.ns? nsid with
    | some ns => if d.sameNs nsid ns p then jSame (d.nsReply nsid) s else jNo jsExists s
    | none =>
      (match d.nsRefusal p with
        | some st => jNo st s
        | none =>
          (match nsKey nsid p d with
            | .error r => jKeyNo r s
            | .ok e =>
              let e := (e.wrb (nsSlot nsid) Fd.CIPH_SLOT_AUTH_FLAG (bits (jf p 9 1) 0 0)).modZm fun m =>
                { m with ns := mapInsert m.ns nsid (newNs p d) }
              let s := s.jDo fun _ => rowsLow d.unassignedAll (e.tick 1)
              jYes (s.dev.nsReply nsid) s))

def execNsCreate (buf : Fin 32) (s : State) : Host.Outcome State Fault Refusal := jenamRow 0x0301 buf nsCreate s

/-- The NSID goes into a function's Changed Namespace List, with its notice where the function has enabled it. -/
def noteNs (nsid f : Nat) (d : Dev) : Dev :=
  let d := d.modFunc f fun x => { x with changedNs := listAdd x.changedNs nsid }
  if bit ((d.func f).feat 0x0B 0) 8 then raiseEvent f { kind := 2, info := 0, log := 0x04 } d else d

def noteNsAll (nsid : Nat) (fs : List Nat) (d : Dev) : Dev := fs.foldl (fun d f => noteNs nsid f d) d

/-- A namespace goes: key purged and staged data discarded, zones reset and reservations released, its blob erased (R397). -/
def deleteNs (nsid : Nat) (ns : Ns) (d : Dev) : Dev :=
  let d := resetNs nsid ns (purgeSlot (nsSlot nsid) d)
  let d := d.modZm fun m => { m with ns := mapErase m.ns nsid, zones := m.zones.filter fun e => e.1 / 2 ^ 20 ≠ nsid }
  noteNsAll nsid ns.attached d

/-- A row that is ordered after every command to the namespace fetched before it: it happens once they are complete (R397). -/
def jenamOrdered (op buf : Nat) (f : List Byte → State → Nat × List Byte × State) (s : State) : Host.Outcome State Fault Refusal :=
  let waits := match s.dev.jBuf buf with
    | some b =>
      let n := jf (jParams b.packet) 0 4
      (s.dev.ns? n).isSome && !s.dev.nsQuiet n s.dev.host.seq
    | none => false
  if waits then noEvent "commands to the namespace" s else jenamRow op buf f s

/-- NS_DELETE. -/
def nsDelete (p : List Byte) (s : State) : Nat × List Byte × State :=
  if p.length ≠ 4 then jNo jsBadParam s
  else match s.dev.ns? (jf p 0 4) with
    | some ns => jYes [] (s.jDo (deleteNs (jf p 0 4) ns))
    | none => jNo jsNotFound s

def execNsDelete (buf : Fin 32) (s : State) : Host.Outcome State Fault Refusal := jenamOrdered 0x0302 buf nsDelete s

/-- NS_ATTACH. -/
def nsAttach (p : List Byte) (s : State) : Nat × List Byte × State :=
  let f := jf p 4 2
  let n := jf p 0 4
  if p.length ≠ 8 || !jZero p 6 8 then jNo jsBadParam s
  else match s.dev.ns? n with
    | none => jNo jsNotFound s
    | some ns =>
      if 1025 < f then jNo jsNotFound s
      else if f ∈ ns.attached then jSame [] s
      else if s.dev.tenantOf f ≠ ns.owner && !ns.shared then jNo jsIsolation s
      else jYes [] (s.jDo fun d => d.modNs n fun x => { x with attached := x.attached ++ [f] })

def execNsAttach (buf : Fin 32) (s : State) : Host.Outcome State Fault Refusal := jenamRow 0x0303 buf nsAttach s

/-- NS_DETACH. -/
def nsDetach (p : List Byte) (s : State) : Nat × List Byte × State :=
  let f := jf p 4 2
  let n := jf p 0 4
  if p.length ≠ 8 || !jZero p 6 8 then jNo jsBadParam s
  else match s.dev.ns? n with
    | none => jNo jsNotFound s
    | some ns =>
      if 1025 < f then jNo jsNotFound s
      else if f ∉ ns.attached then jSame [] s
      else jYes [] (s.jDo fun d => noteNs n f (d.modNs n fun x => { x with attached := x.attached.filter fun k => k ≠ f }))

def execNsDetach (buf : Fin 32) (s : State) : Host.Outcome State Fault Refusal := jenamOrdered 0x0304 buf nsDetach s

/-- NS_SET: class, sharing and the active-zone limit. -/
def nsSet (p : List Byte) (s : State) : Nat × List Byte × State :=
  let n := jf p 0 4
  let c := jf p 4 1
  let fl := jf p 5 1
  let a := jf p 6 2
  let d := s.dev
  if p.length ≠ 8 || 15 < c || (fl ≠ 0 && fl ≠ 2) then jNo jsBadParam s
  else match d.ns? n with
    | none => jNo jsNotFound s
    | some ns =>
      if (if ns.zoned then a = 0 || 2048 < a else a ≠ 0) then jNo jsBadParam s
      else if a < d.activeOf n || (fl = 0 && ns.attached.any fun f => decide (d.tenantOf f ≠ ns.owner)) then jNo jsState s
      else if d.classForeign ns.owner c then jNo jsIsolation s
      else if 2048 < d.othersLimit n + a then jNo jsLimit s
      else jYes [] (s.jDo fun d => d.modNs n fun x => { x with cls := c, shared := decide (fl = 2), limit := a })

def execNsSet (buf : Fin 32) (s : State) : Host.Outcome State Fault Refusal := jenamRow 0x0305 buf nsSet s

/-- A lowered zone count, or a lowered entry, is forbidden by what the namespace holds (R397). -/
def Dev.reserveHeld (d : Dev) (nsid : Nat) (ns : Ns) (rs : SMap Nat) : Bool :=
  (d.zonesOf nsid).any (fun e => decide (rowSum rs ≤ e.1) && e.2.st != .empty) ||
    ns.rows.any fun e => decide (mapGet 0 rs e.1 < d.boundRows nsid e.1)

/-- New reservations: zones are appended or dropped at the end, and a change of Z is reported. -/
def setReserve (nsid : Nat) (ns : Ns) (rs : SMap Nat) (d : Dev) : Dev :=
  let before := d.unassignedAll
  let z := rowSum rs
  let d := d.modNs nsid fun x => { x with rows := rs, zones := z }
  let d := d.modZm fun m => { m with zones := m.zones.filter fun e => !(decide (e.1 / 2 ^ 20 = nsid) && decide (z ≤ e.1 % 2 ^ 20)) }
  rowsLow before (if z = ns.zones then d else noteNsAll nsid ns.attached d)

/-- RESERVE_SET. -/
def reserveSet (p : List Byte) (s : State) : Nat × List Byte × State :=
  let n := jf p 0 4
  let rs := jRows p
  let d := s.dev
  if p.length ≠ 800 || !jZero p 4 32 || rowSum rs = 0 || d.rowsAstray rs then jNo jsBadParam s
  else match d.ns? n with
    | none => jNo jsNotFound s
    | some ns =>
      if !ns.zoned then jNo jsBadParam s
      else if d.reserveHeld n ns rs then jNo jsState s
      else if d.groupsClash ns.owner n (d.exclGroups ns.owner) (rs.map (·.1)) then jNo jsIsolation s
      else if d.rowsOver n rs then jNo jsLimit s
      else jYes [] (s.jDo (setReserve n ns rs))

def execReserveSet (buf : Fin 32) (s : State) : Host.Outcome State Fault Refusal := jenamRow 0x0306 buf reserveSet s

/-- HANDLE_SET. -/
def handleSet (p : List Byte) (s : State) : Nat × List Byte × State :=
  let n := jf p 0 4
  let h := jf p 4 1
  let fl := jf p 5 1
  let gs := (List.range 384).filter fun g => bit (jf p (8 + g / 8) 1) (g % 8)
  if p.length ≠ 56 || h = 0 || 15 < h || 3 < fl || !jZero p 6 8 then jNo jsBadParam s
  else match s.dev.ns? n with
    | none => jNo jsNotFound s
    | some ns =>
      if !ns.zoned || gs.any (fun g => decide (g ∉ ns.groups)) then jNo jsBadParam s
      else if bit fl 1 then jYes [] (s.jDo fun d => d.modNs n fun x => { x with handles := mapErase x.handles h })
      else jYes [] (s.jDo fun d => d.modNs n fun x => { x with handles := mapInsert x.handles h { groups := gs, spill := bit fl 0 } })

def execHandleSet (buf : Fin 32) (s : State) : Host.Outcome State Fault Refusal := jenamRow 0x0307 buf handleSet s

end Sys2Proof.Machine
end

