-- ==== Sys2Proof/Machine/JenamPlan.lean ====
section
/-! DEFINITION. Jenam groups 0x04 to 0x09: hatch plans, keys, health, power, diagnostics, cascade (R220, R235, R236, R246, R398, R399,
Tables 8-2, 8-4, 8-10 and 14-8). -/

namespace Sys2Proof.Machine

/-! ### Group 0x04: hatch plans (R398) -/

/-- The channels that a channel mask names. -/
def jChannels (p : List Byte) : List Nat := (List.range 48).filter fun n => bit (jf p 0 8) n
/-- Bits 48 to 63 of a channel mask are zero. -/
def jMaskOk (p : List Byte) : Bool := decide (jf p 0 8 < 2 ^ 48)

/-- The bank that HATCH_WRITE writes: the standby bank, or the one that was not last live. -/
def Chan.standby (c : Chan) : Bool := !c.live

/-- A bank and its mask are replaced. -/
def Chan.putBank (c : Chan) (bankB : Bool) (m : SMap DWord) (mask : Word) : Chan :=
  let bad := c.eccBad.filter fun x => x / 256 ≠ b2n bankB
  if bankB then { c with hatchB := m, sealB := mask, eccBad := bad } else { c with hatchA := m, sealA := mask, eccBad := bad }

/-- The entries of HATCH_WRITE. -/
def jEntries (p : List Byte) : SMap DWord :=
  (List.range 256).foldl (fun m k => mapSet 0 m k (BitVec.ofNat 64 (jf p (16 + 8 * k) 8))) []

/-- Writes a channel's standby bank. -/
def writePlan (m : SMap DWord) (mask : Word) (n : Nat) (d : Dev) : Dev :=
  let b := (d.chan n).standby
  (d.modChan n fun c => c.putBank b m mask).modJnm fun j => { j with written := listAdd j.written (2 * n + b2n b) }

/-- HATCH_WRITE. -/
def hatchWrite (p : List Byte) (s : State) : Nat × List Byte × State :=
  let ns := jChannels p
  if p.length ≠ 2064 || !jMaskOk p || !jZero p 10 16 then jNo jsBadParam s
  else if ns.any fun n => (s.dev.chan n).bankLocked (s.dev.chan n).standby then jNo jsState s
  else jYes [] (s.modDev fun d => ns.foldl (fun d n => writePlan (jEntries p) (BitVec.ofNat 32 (jf p 8 2)) n d) d)

def execHatchWrite (buf : Fin 32) (s : State) : Host.Outcome State Fault Refusal := jenamRow 0x0401 buf hatchWrite s

/-- Why a channel refuses an arm: NOCAL, RSVBIT, LATE. -/
def Dev.armFlags (d : Dev) (n sheet : Nat) : Nat :=
  let c := d.chan n
  b2n (c.noCal c.standby) + 2 * b2n (c.rsvSet c.standby) + 4 * b2n (d.armLate sheet)

/-- The reply of HATCH_ARM. -/
def armReply (sheet : Nat) (flags : List (Nat × Nat)) : List Byte :=
  layout 64 ([(0, 4, sheet), (8, 8, flags.foldl (fun a f => a + 2 ^ f.1) 0)] ++ flags.map fun f => (16 + f.1, 1, f.2))

/-- Thrumlux arms one channel's standby bank for a sheet; its check ends before the reply (R54). -/
def armChannel (sheet n : Nat) (d : Dev) : Dev :=
  let d := (d.wrc n Fd.HATCH_ARM_SHEET_SHEET sheet).wrc n Fd.HATCH_CTL_ANYSHEET 0
  let d := hatchArm n (d.wrc n Fd.HATCH_CTL_BANK (b2n (d.chan n).standby))
  match (d.chan n).arm with
  | some r => hatchCheckEnd n r d
  | none => d

/-- The plan of a channel is the one to start with from now on (R437). -/
def keepPlan (n : Nat) (d : Dev) : Dev :=
  let c := d.chan n
  let b := c.standby
  d.modNvm fun v => { v with plan := mapInsert v.plan n (if b then c.hatchB else c.hatchA, c.sealOf b) }

/-- A channel cannot be armed: its standby bank was not written since its last switch, or a request or a STOP stands (R55, R398). -/
def Dev.armBarred (d : Dev) (n : Nat) : Bool :=
  let c := d.chan n
  decide (2 * n + b2n c.standby ∉ d.jnm.written) || c.arm.isSome || c.stop.isSome

/-- HATCH_ARM with STOP or DISARM: each acts on every channel named. -/
def withdrawPlans (fl : Nat) (ns : List Nat) (d : Dev) : Dev :=
  ns.foldl (fun (d : Dev) n =>
    let d := if bit fl 2 then hatchDisarm n d else d
    if bit fl 1 then hatchStop n d else d) d

/-- HATCH_ARM: every channel named is armed for one sheet, or none is. -/
def hatchArmAll (p : List Byte) (s : State) : Nat × List Byte × State :=
  let ns := jChannels p
  let fl := jf p 12 1
  let d := s.dev
  if p.length ≠ 16 || !jMaskOk p || 7 < fl || !jZero p 13 16 then jNo jsBadParam s
  else if fl / 2 ≠ 0 then jYes (armReply 0 []) (s.modDev (withdrawPlans fl ns))
  else
    let sheet := if bit fl 0 then (d.sheet + 2) % 2 ^ 32 else jf p 8 4
    let ahead := (sheet + 2 ^ 32 - d.sheet % 2 ^ 32) % 2 ^ 32
    if ahead < 2 || 2 ^ 31 ≤ ahead then (jsHatchRefused, armReply sheet (ns.map fun n => (n, 4)), s)
    else if ns.any d.armBarred then jNo jsState s
    else
      let flags := (ns.map fun n => (n, d.armFlags n sheet)).filter fun f => f.2 ≠ 0
      let s := s.modDev fun d => ns.foldl (fun d n => armChannel sheet n d) d
      if flags.isEmpty then jYes (armReply sheet []) (s.jDo fun d => ns.foldl (fun d n => keepPlan n d) d)
      else (jsHatchRefused, armReply sheet flags, s.modDev fun d => ns.foldl (fun d n => hatchDisarm n d) d)

def execHatchArm (buf : Fin 32) (s : State) : Host.Outcome State Fault Refusal := jenamRow 0x0402 buf hatchArmAll s

/-- HATCH_READ. -/
def hatchRead (p : List Byte) (s : State) : Nat × List Byte × State :=
  let n := jf p 0 1
  if p.length ≠ 4 || 1 < jf p 1 1 || !jZero p 2 4 then jNo jsBadParam s
  else if 48 ≤ n then jNo jsNotFound s
  else
    let c := s.dev.chan n
    let b := decide (jf p 1 1 = 1)
    jYes (leBytes 16 (bits (c.sealOf b).toNat 15 0) ++ (List.range 256).flatMap fun k => leBytes 8 (c.bankEntry b k).toNat) s

def execHatchRead (buf : Fin 32) (s : State) : Host.Outcome State Fault Refusal := jenamRow 0x0403 buf hatchRead s

/-- ARB_SET: class priorities and wait limit, in effect at the next stroke boundary (R214). -/
def arbSet (p : List Byte) (s : State) : Nat × List Byte × State :=
  if p.length ≠ 16 || !jMaskOk p || !jZero p 13 16 then jNo jsBadParam s
  else
    jYes [] (s.modDev fun d => (jChannels p).foldl (fun (d : Dev) n =>
      let d := d.regSet Rg.CARB_CLS_PRI n 0 (jf p 8 4)
      if jf p 12 1 = 0 then d else d.wrc n Fd.CARB_WAIT_LIMIT_LIMIT (jf p 12 1)) d)

def execArbSet (buf : Fin 32) (s : State) : Host.Outcome State Fault Refusal := jenamRow 0x0404 buf arbSet s

/-! ### Group 0x05: keys (R399) -/

/-- The label of HKDF with salt "FZ4800" and info "Jenam IMPORT". -/
def labelImport : Nat := 1

/-- KEY_EXCHANGE: the derived key goes into IMPORT; the reply holds the device's public key and its signature over both. -/
def keyExchange (p : List Byte) (s : State) : Nat × List Byte × State :=
  let d := s.dev
  if p.length ≠ 96 then jNo jsBadParam s
  else
    let own := leBytes 96 (Config.ecdhPublic d.nfree).toNat
    let key := BitVec.ofNat 512 ((Config.ecdhDerive d.nfree (BitVec.ofNat 768 (leNat p)) labelImport).toNat % 2 ^ 256)
    let sig := leBytes 96 (Config.ecdsaSign d.nfree (p ++ own)).toNat
    let k : KeySlot := { state := .loaded, mode := 2, gen := ((d.keySlot importSlot).gen + 1) % 2 ^ 32, key := key }
    jYes (own ++ sig) (s.modDev fun d => (d.setKey importSlot k).tick 1)

def execKeyExchange (buf : Fin 32) (s : State) : Host.Outcome State Fault Refusal := jenamRow 0x0501 buf keyExchange s

/-- KEY_IMPORT. -/
def keyImport (p : List Byte) (s : State) : Nat × List Byte × State :=
  let n := jf p 0 4
  if p.length ≠ 132 then jNo jsBadParam s
  else if (s.dev.ns? n).isNone then jNo jsNotFound s
  else if (s.dev.keySlot (nsSlot n)).state != .empty then jNo jsState s
  else match importKey (nsSlot n) (p.drop 4) s.dev with
    | .ok d => jYes [] (s.jDo fun _ => d)
    | .error r => jKeyNo r s

def execKeyImport (buf : Fin 32) (s : State) : Host.Outcome State Fault Refusal := jenamRow 0x0502 buf keyImport s

/-- KEY_PURGE. -/
def keyPurgeNs (p : List Byte) (s : State) : Nat × List Byte × State :=
  let n := jf p 0 4
  if p.length ≠ 4 then jNo jsBadParam s
  else if (s.dev.ns? n).isNone then jNo jsNotFound s
  else jYes [] (s.jDo (purgeSlot (nsSlot n)))

def execKeyPurge (buf : Fin 32) (s : State) : Host.Outcome State Fault Refusal := jenamRow 0x0503 buf keyPurgeNs s

/-- KEY_SET: AUTH_FLAG, and the mode of the next cryptographic erase. -/
def keySet (p : List Byte) (s : State) : Nat × List Byte × State :=
  let n := jf p 0 4
  let mode := jf p 5 1
  if p.length ≠ 8 || 1 < jf p 4 1 || 2 < mode || !jZero p 6 8 then jNo jsBadParam s
  else if (s.dev.ns? n).isNone then jNo jsNotFound s
  else
    jYes [] (s.jDo fun d =>
      let d := d.wrb (nsSlot n) Fd.CIPH_SLOT_AUTH_FLAG (jf p 4 1)
      if mode = 0 then d else d.modNs n fun x => { x with newMode := some mode })

def execKeySet (buf : Fin 32) (s : State) : Host.Outcome State Fault Refusal := jenamRow 0x0504 buf keySet s

/-! ### Group 0x06: health (R246) -/

/-- The state byte of a die (Table 8-10). -/
def Dev.dieHealthState (d : Dev) (die : Nat) : Nat :=
  match (d.die (die / 32) (die % 32)).st with
  | .absent => 2
  | .retired => 1
  | _ => if (d.chan (die / 32)).retired then 1 else 0

/-- The cause for which a die is out of service: its own, or its channel's (R236). -/
def Dev.outCause (d : Dev) (die : Nat) : Nat :=
  let c := (mapGet DieHealth.fresh d.med.dies die).cause
  if c = 0 then mapGet 0 d.med.chanCause (die / 32) else c

/-- A die's record (Table 8-10). -/
def Dev.dieRecord (d : Dev) (die : Nat) : List Byte :=
  let h := mapGet DieHealth.fresh d.med.dies die
  let wear := (d.med.wear.filter fun e => decide (e.1 / 4096 = die)).map (·.2)
  layout 32 [(0, 2, die), (2, 1, d.dieHealthState die), (3, 1, d.outCause die), (4, 2, (d.freeSpares die).length), (6, 2, h.grownBad),
    (8, 2, wear.foldl max 0), (10, 2, wear.foldl (· + ·) 0 / q4Blocks), (12, 2, h.proofFails), (14, 2, h.refreshes), (16, 2, h.timeouts),
    (18, 1, d.rescueUsable die), (20, 4, h.failed.length), (24, 8, h.last)]

/-- DIE_HEALTH. -/
def dieHealthRow (p : List Byte) (s : State) : Nat × List Byte × State :=
  let a := jf p 0 2
  let n := jf p 2 2
  if p.length ≠ 4 || n = 0 || 1536 < a + n then jNo jsBadParam s
  else jYes ((List.range n).flatMap fun i => s.dev.dieRecord (a + i)) s

def execDieHealth (buf : Fin 32) (s : State) : Host.Outcome State Fault Refusal := jenamRow 0x0601 buf dieHealthRow s

/-- A grown bad-block record (Table 8-4). -/
def badRecBytes (r : BadRec) : List Byte :=
  let b := layout 44 [(0, 8, r.seq), (8, 8, r.stroke), (16, 2, r.die), (18, 2, r.block), (20, 1, r.cause), (21, 1, r.state), (22, 1, r.group),
    (24, 2, r.spare), (28, 4, r.wear)]
  b ++ leBytes 4 (crc32c b)

/-- BB_RECORDS. -/
def bbRecords (p : List Byte) (s : State) : Nat × List Byte × State :=
  let n := jf p 8 2
  if p.length ≠ 12 || n = 0 || 1364 < n || !jZero p 10 12 then jNo jsBadParam s
  else jYes (((s.dev.med.recs.filter fun r => decide (jf p 0 8 ≤ r.seq)).take n).flatMap badRecBytes) s

def execBbRecords (buf : Fin 32) (s : State) : Host.Outcome State Fault Refusal := jenamRow 0x0602 buf bbRecords s

/-- What ROW_INFO tells of a row: phase, wear, namespace and zone. -/
def Dev.rowRecord (d : Dev) (g r : Nat) : List Byte :=
  let x := d.row g r
  let phase := if x.retired then 2 else if d.extended g r then 1 else 0
  let (nsid, z) := x.bound.getD (0, 0xFFFFFFFF)
  layout 16 [(0, 2, r), (2, 1, phase), (4, 4, d.rowWear g r), (8, 4, nsid), (12, 4, z)]

/-- ROW_INFO. -/
def rowInfo (p : List Byte) (s : State) : Nat × List Byte × State :=
  let g := jf p 0 1
  let r := jf p 2 2
  let n := jf p 4 2
  if p.length ≠ 8 || 95 < g || !jZero p 1 2 || n = 0 || q4Blocks < r + n || !jZero p 6 8 then jNo jsBadParam s
  else jYes ((List.range n).flatMap fun i => s.dev.rowRecord g (r + i)) s

def execRowInfo (buf : Fin 32) (s : State) : Host.Outcome State Fault Refusal := jenamRow 0x0603 buf rowInfo s

/-- THRESH_GET. -/
def threshGet (p : List Byte) (s : State) : Nat × List Byte × State :=
  if p.length ≠ 0 then jNo jsBadParam s else jYes ((List.range 13).flatMap fun i => leBytes 4 (s.dev.thresh i)) s

def execThreshGet (buf : Fin 32) (s : State) : Host.Outcome State Fault Refusal := jenamRow 0x0604 buf threshGet s

/-- The range within which a threshold can be set; none for a fixed one (Table 8-2). -/
def threshRange : Nat → Option (Nat × Nat)
  | 1 => some (30000, 60000) | 2 => some (16, 72) | 3 => some (10000, 1000000) | 4 => some (100000, 10000000)
  | 5 => some (24, 8760) | 6 => some (300, 6000) | 8 => some (1, 50) | 9 => some (1, 15) | 10 => some (1, 15)
  | 11 => some (8, 236) | 12 => some (2, 16) | _ => none

/-- THRESH_SET: in effect at the next sheet boundary (R220). -/
def threshSet (p : List Byte) (s : State) : Nat × List Byte × State :=
  let v := jf p 4 4
  if p.length ≠ 8 || !jZero p 1 4 then jNo jsBadParam s
  else match threshRange (jf p 0 1) with
    | some (lo, hi) =>
      if v < lo || hi < v then jNo jsBadParam s
      else jYes [] (s.jDo fun d => d.modMed fun m => { m with threshNext := mapInsert m.threshNext (jf p 0 1) v })
    | none => jNo jsBadParam s

def execThreshSet (buf : Fin 32) (s : State) : Host.Outcome State Fault Refusal := jenamRow 0x0605 buf threshSet s

/-- The cause of a retirement that an operator asks for (Table 8-3). -/
def causeAsked : Nat := 0xC

/-- A die is retired on request, with what that brings (R195, R235). -/
def retireDieAsked (die : Nat) (s : State) : State :=
  let n := die / 32
  let t := die % 32
  if (s.dev.die n t).st == .retired then s
  else afterChan n (s.modDev fun d => dieRetired die causeAsked (retireDie n t d))

/-- A channel is retired on request (R197, R236). -/
def retireChanAsked (n : Nat) (s : State) : State :=
  if (s.dev.chan n).retired then s
  else afterChan n (s.modDev fun d => chanRetired n causeAsked (d.liveTargets n) (retireChan n d))

/-- RETIRE. -/
def retireUnit (p : List Byte) (s : State) : Nat × List Byte × State :=
  let k := jf p 0 1
  let n := jf p 2 2
  if p.length ≠ 4 || 1 < k || !jZero p 1 2 || (k = 0 && 1536 ≤ n) then jNo jsBadParam s
  else if k = 1 && 48 ≤ n then jNo jsNotFound s
  else jYes [] ((if k = 0 then retireDieAsked n s else retireChanAsked n s).jDo id)

def execRetireUnit (buf : Fin 32) (s : State) : Host.Outcome State Fault Refusal := jenamRow 0x0606 buf retireUnit s

/-! ### Group 0x07: power -/

/-- POWER_GET; the entry counts are reported without being cleared. -/
def powerGet (p : List Byte) (s : State) : Nat × List Byte × State :=
  let d := s.dev
  if p.length ≠ 0 then jNo jsBadParam s
  else
    jYes (layout 16 [(0, 1, d.pwr.ps), (1, 1, d.pwr.op), (2, 1, d.opCap), (3, 1, d.pwr.level), (4, 4, d.rd Fd.PWR_ENTRY_CNT_REFUSED),
      (8, 4, d.rd Fd.PWR_ENTRY_CNT_ABORTED), (12, 2, d.regGet Rg.PWR_REFUSER 0 0), (14, 2, d.pwr.kelvin)]) s

def execPowerGet (buf : Fin 32) (s : State) : Host.Outcome State Fault Refusal := jenamRow 0x0701 buf powerGet s

/-- POWER_SET: the cap, and whether PS0 is held. -/
def powerSet (p : List Byte) (s : State) : Nat × List Byte × State :=
  if p.length ≠ 4 || 3 < jf p 0 1 || 1 < jf p 1 1 || !jZero p 2 4 then jNo jsBadParam s
  else jYes [] (s.modDev fun d => planOp ((d.wr Fd.PWR_OP_CTL_CAP (jf p 0 1)).wr Fd.PWR_CTL_HOLD (jf p 1 1)))

def execPowerSet (buf : Fin 32) (s : State) : Host.Outcome State Fault Refusal := jenamRow 0x0702 buf powerSet s

/-! ### Group 0x08: diagnostics -/

/-- ECHO. -/
def echo (p : List Byte) (s : State) : Nat × List Byte × State := jYes p s

def execEcho (buf : Fin 32) (s : State) : Host.Outcome State Fault Refusal := jenamRow 0x0801 buf echo s

/-- Control space, as the diagnostic opcodes reach it. -/
def inControl (a n : Nat) : Bool := decide (a % 4 = 0) && decide (0x200000000 ≤ a) && decide (a + 4 * n ≤ 0x201300000)

/-- Reads `n` dwords from address `a`. -/
def readDwords (a : Nat) : Nat → Dev → List Byte × Dev
  | 0, d => ([], d)
  | n + 1, d =>
    let (v, d) := readControl 0 a d
    let (bs, d) := readDwords (a + 4) n d
    (leBytes 4 v ++ bs, d)

/-- REG_READ. -/
def regRead (p : List Byte) (s : State) : Nat × List Byte × State :=
  let n := jf p 8 2
  if p.length ≠ 12 || !jZero p 10 12 || n = 0 || 1024 < n || !inControl (jf p 0 8) n then jNo jsBadParam s
  else
    let (bs, d) := readDwords (jf p 0 8) n s.dev
    jYes bs { s with dev := { d with bus := s.dev.bus } }

def execRegRead (buf : Fin 32) (s : State) : Host.Outcome State Fault Refusal := jenamRow 0x0802 buf regRead s

/-- REG_WRITE: one 32-bit write. -/
def regWrite (p : List Byte) (s : State) : Nat × List Byte × State :=
  if p.length ≠ 12 || !inControl (jf p 0 8) 1 then jNo jsBadParam s
  else jYes [] (writeControl 0 (jf p 0 8) (jf p 8 4) s)

def execRegWrite (buf : Fin 32) (s : State) : Host.Outcome State Fault Refusal := jenamRow 0x0803 buf regWrite s

/-- SELFTEST_GET. -/
def selftestGet (p : List Byte) (s : State) : Nat × List Byte × State :=
  if p.length ≠ 0 then jNo jsBadParam s
  else jYes ((List.range 68).flatMap fun i => leBytes 4 (s.dev.viewEcc i Rg.LDPC_ST_RES.addr 0)) s

def execSelftestGet (buf : Fin 32) (s : State) : Host.Outcome State Fault Refusal := jenamRow 0x0804 buf selftestGet s

/-! ### Group 0x09: cascade -/

/-- What is known of a position: present, role, link up, and the Dalesk retries, which another device counts for itself. -/
def Dev.topology (d : Dev) (p : Nat) : List Byte :=
  let own := decide (p = d.sys.role)
  let seen := own || decide (p ∈ d.dlk.admitted) || decide (mapGet 0 d.dlk.seen p ≠ 0)
  let up := if own then d.dlk.ports.any fun e => e.2.up else d.reaches p || d.dlk.ports.any fun e => e.2.up && decide (e.2.peer = p)
  if !seen then List.replicate 8 0
  else
    layout 4 [(0, 1, 1), (1, 1, p), (2, 1, b2n up)] ++
      (if own then leBytes 4 (d.rd Fd.DLK_CNT_RETRY_DN + d.rd Fd.DLK_CNT_RETRY_UP)
       else (List.range 4).map fun i => Config.freeByte 0x901 (4 * p + i) d.nfree)

/-- CAS_TOPOLOGY: the devices, then eight bytes for each position, to a whole dword. -/
def casTopology (p : List Byte) (s : State) : Nat × List Byte × State :=
  if p.length ≠ 0 then jNo jsBadParam s
  else
    jYes (leBytes 1 s.dev.cascade ++ ((List.range 4).flatMap s.dev.topology) ++ [0, 0, 0]) (s.modDev fun d => d.tick 1)

def execCasTopology (buf : Fin 32) (s : State) : Host.Outcome State Fault Refusal := jenamRow 0x0901 buf casTopology s

end Sys2Proof.Machine
end

