-- ==== Sys2Proof/Machine/JenamFirm.lean ====
section
/-! DEFINITION. Jenam group 0x0A: firmware, the owner's certificate, etchings (R376 to R378, R400, Tables 13-6 and 14-9). -/

namespace Sys2Proof.Machine

/-- FW_INFO. -/
def fwInfo (p : List Byte) (s : State) : Nat × List Byte × State :=
  let n := s.dev.nvm
  if p.length ≠ 0 then jNo jsBadParam s
  else
    jYes (layout 16 ([(0, 1, n.active), (1, 1, n.pending), (2, 1, n.svn), (3, 1, n.revoked)] ++
      [1, 2, 3].map fun k => (4 * k, 4, imgSvn (slotImages (n.slotBytes k)).2.1))) s

def execFwInfo (buf : Fin 32) (s : State) : Host.Outcome State Fault Refusal := jenamRow 0x0A01 buf fwInfo s

/-- OWNER_CERT_SET. -/
def ownerCertSet (p : List Byte) (s : State) : Nat × List Byte × State :=
  if p.length = 0 || 16384 < p.length then jNo jsBadParam s
  else if s.dev.nvm.cert.isSome then jNo jsState s
  else if !Config.chainOk p then jNo jsSigInvalid s
  else jYes [] (s.modDev fun d => d.modNvm fun n => { n with cert := some p })

def execOwnerCertSet (buf : Fin 32) (s : State) : Host.Outcome State Fault Refusal := jenamRow 0x0A02 buf ownerCertSet s

/-- An etching goes: stopped, its graver released, its measurement zero, its area of the store empty. -/
def unloadEtching (e : Nat) (s : State) : State :=
  let s := match (s.dev.etch e).graver with | some g => releaseGraver g s | none => s
  s.modDev fun d =>
    (d.modGrv fun x => { x with etch := mapErase x.etch e, meas := mapErase x.meas (5 + e) }).modNvm fun n => { n with etch := mapErase n.etch e }

/-- OWNER_CERT_CLEAR: slot 1 is cleared and every etching unloaded. -/
def ownerCertClear (p : List Byte) (s : State) : Nat × List Byte × State :=
  if p.length ≠ 0 then jNo jsBadParam s
  else jYes [] ((forUpTo 8 unloadEtching s).modDev fun d => d.modNvm fun n => { n with cert := none })

def execOwnerCertClear (buf : Fin 32) (s : State) : Host.Outcome State Fault Refusal := jenamRow 0x0A03 buf ownerCertClear s

/-- The longest etching image: header and 192 KiB. -/
def maxEtching : Nat := 196864

/-- The place of a byte of a slot's staging area. -/
def stageKey (e off : Nat) : Nat := e * 2 ^ 20 + off

/-- ETCH_STAGE: a piece of an image, anywhere in the staging area. -/
def etchStage (p : List Byte) (s : State) : Nat × List Byte × State :=
  let e := jf p 0 1
  let off := jf p 4 4
  let data := p.drop 8
  if p.length < 8 || 7 < e || !jZero p 1 4 || maxEtching < off + data.length then jNo jsBadParam s
  else if !(s.dev.etch e).image.isEmpty then jNo jsState s
  else
    jYes [] (s.modDev fun d => d.modGrv fun x =>
      { x with stage := data.zipIdx.foldl (fun m b => mapSet 0 m (stageKey e (off + b.2)) b.1) x.stage })

def execEtchStage (buf : Fin 32) (s : State) : Host.Outcome State Fault Refusal := jenamRow 0x0A04 buf etchStage s

/-- An etching image is accepted (R370, R376): format, body inside its window of local SRAM, owner key, signature. -/
def Nvm.etchingOk (n : Nvm) (bs : List Byte) : Bool :=
  match n.cert with
  | none => false
  | some c =>
    decide (imgField bs 0 4 = 0x4D525447) && decide (imgKind bs = 0x10) && decide (imgKey bs = 0) && decide (256 + imgLen bs = bs.length) &&
      decide (imgField bs 76 84 = 0) && decide (etchBase ≤ imgLoad bs) && decide (imgLoad bs + imgLen bs ≤ etchBase + etchBytes) &&
      (imgHash bs == Config.chainKey c) && Config.ecdsaVerify (imgHash bs) (bs.take 160 ++ imgBody bs) ((bs.drop 160).take 96)

/-- The image staged in a slot's area. -/
def Dev.staged (d : Dev) (e n : Nat) : List Byte := (List.range n).map fun i => mapGet 0 d.grv.stage (stageKey e i)

/-- An accepted etching is stored, measured and started on a graver. -/
def loadEtching (e g : Nat) (bs : List Byte) (mib : Nat) (s : State) : State :=
  etchStart e g (s.modDev fun d =>
    let d := extendMeas (5 + e) (Config.sha384 bs) (d.modNvm fun n => { n with etch := mapInsert n.etch e (bs, mib) })
    let d := d.modGrv fun x => { x with stage := x.stage.filter fun b => b.1 / 2 ^ 20 ≠ e }
    d.modEtch e fun _ => { EtchSlot.fresh with image := bs, window := etchWindow e mib, graver := some g })

/-- ETCH_LOAD. -/
def etchLoad (p : List Byte) (s : State) : Nat × List Byte × State :=
  let e := jf p 0 1
  let n := jf p 4 4
  let mib := jf p 8 4
  let bs := s.dev.staged e n
  if p.length ≠ 12 || 7 < e || !jZero p 1 4 || maxEtching < n || mib = 0 || 256 < mib then jNo jsBadParam s
  else if !(s.dev.etch e).image.isEmpty then jNo jsState s
  else if !s.dev.nvm.etchingOk bs then jNo jsSigInvalid s
  else match s.dev.etchGraver with
    | some g => jYes [] (loadEtching e g bs mib s)
    | none => jNo jsNoGraver s

def execEtchLoad (buf : Fin 32) (s : State) : Host.Outcome State Fault Refusal := jenamRow 0x0A05 buf etchLoad s

/-- ETCH_UNLOAD. -/
def etchUnload (p : List Byte) (s : State) : Nat × List Byte × State :=
  let e := jf p 0 1
  if p.length ≠ 4 || 7 < e || !jZero p 1 4 then jNo jsBadParam s
  else jYes [] (unloadEtching e s)

def execEtchUnload (buf : Fin 32) (s : State) : Host.Outcome State Fault Refusal := jenamRow 0x0A06 buf etchUnload s

/-- The state of an etching slot; of a loaded one that stands without a graver the spec gives no code. -/
def Dev.etchState (d : Dev) (e : Nat) : Byte :=
  let x := d.etch e
  if x.image.isEmpty then 0 else if x.disabled then 3 else if x.graver.isSome then 1 else Config.freeByte 0xA07 e d.nfree

/-- What ETCH_STATUS tells of a slot; the number of a graver it does not have is left open. -/
def Dev.etchRecord (d : Dev) (e : Nat) : List Byte :=
  let x := d.etch e
  let g := match x.graver with | some g => byteAt g 0 | none => Config.freeByte 0xA07 (8 + e) d.nfree
  let stops := (x.stops.take 8).flatMap fun p => leBytes 6 p.1 ++ leBytes 1 p.2
  [d.etchState e, byteAt (min 255 (d.etchStops e)) 0, g, 0, 0, 0, 0, 0] ++ stops ++ List.replicate (56 - stops.length) 0

/-- ETCH_STATUS. -/
def etchStatus (p : List Byte) (s : State) : Nat × List Byte × State :=
  if p.length ≠ 0 then jNo jsBadParam s
  else jYes ((List.range 8).flatMap s.dev.etchRecord) (s.modDev fun d => d.tick 1)

def execEtchStatus (buf : Fin 32) (s : State) : Host.Outcome State Fault Refusal := jenamRow 0x0A07 buf etchStatus s

end Sys2Proof.Machine
end

