-- ==== Sys2Proof/Machine/EtchCall.lean ====
section
/-! DEFINITION. The policy calls of an etching (R379, Table 13-8): an ECALL in U-mode with the call's number in a7. -/

namespace Sys2Proof.Machine

/-- The errors a call returns in a0. -/
def callBad : DWord := BitVec.ofNat 64 (2 ^ 64 - 1)
def callRefused : DWord := BitVec.ofNat 64 (2 ^ 64 - 2)
def callBusy : DWord := BitVec.ofNat 64 (2 ^ 64 - 3)

/-- The error by which a call reports a Jenam status. -/
def callError (st : Nat) : DWord :=
  if st = jsBadParam || st = jsNotFound then callBad else if st = jsState then callBusy else callRefused

/-- Argument `i` of a call. -/
def Dev.arg (d : Dev) (g i : Nat) : Nat := ((d.graver g).reg (10 + i)).toNat

/-- The shim returns: the result in a0, behind the ECALL. -/
def callReturn (g : Nat) (w : DWord) (s : State) : State := s.modDev (graverResult g 10 w)

/-- The call `n` that an etching makes, with its slot: the graver executes it in ETCH, in U-mode. -/
def Dev.calls (d : Dev) (g n : Nat) : Option Nat :=
  let v := d.graver g
  if d.executes g && v.etching && decide ((v.reg 17).toNat = n) then v.slot else none

/-- A row of a call. -/
def callRow (g n : Nat) (f : Nat → State → State) (s : State) : Host.Outcome State Fault Refusal :=
  match s.dev.calls g n with
  | some e => .next (f e s)
  | none => noEvent "policy call" s

/-- A buffer of an etching: all of it lies where U-mode may go. -/
def Dev.bufferOk (d : Dev) (g a n : Nat) : Bool := d.pmpPermits g a n && (d.reach g a != .none)

/-! ### EV_NEXT -/

/-- EV_NEXT: the call waits for the next event of the classes it names. -/
def evNext (g e : Nat) (s : State) : State :=
  if s.dev.bufferOk g (s.dev.arg g 0) 1 then
    s.modDev fun d => d.modEtch e fun x => { x with waiting := some (d.arg g 0, d.arg g 1), events := [] }
  else callReturn g callBad s

def execEvNext (g : Fin 64) (s : State) : Host.Outcome State Fault Refusal := callRow g 1 (evNext g) s

/-- EV_NEXT_RETURN: the record is copied and its length returned; a buffer that ends before it is a bad argument. -/
def evReturn (g e : Nat) (s : State) : Except String State :=
  match (s.dev.etch e).waiting, (s.dev.etch e).events with
  | some (a, _), (_, rec) :: _ =>
    let s := s.modDev fun d => d.modEtch e fun x => { x with waiting := none, events := [] }
    if s.dev.bufferOk g a rec.length then
      .ok (callReturn g (BitVec.ofNat 64 rec.length) (s.writeReach (s.dev.reach g a) rec))
    else .ok (callReturn g callBad s)
  | _, _ => .error "event"

def execEvNextReturn (g : Fin 64) (s : State) : Host.Outcome State Fault Refusal :=
  match (s.dev.graver g).slot with
  | some e => (match evReturn g e s with | .ok s => .next s | .error x => noEvent x s)
  | none => noEvent "event" s

/-! ### STAT_READ -/

/-- A counter set, in the order of Table 13-8 (the sets' numbers are a DESIGN CHOICE): die health by die, pace misses by class, hatch use by
channel, port use by DRAM port. -/
def Dev.statSet (d : Dev) (set i : Nat) : Option (List Byte) :=
  match set with
  | 0 => if i < 1536 then some (d.dieRecord i) else none
  | 1 => if i < 16 then some (Config.encode 0x1311 [d.rdb i Fd.TEN_CLS_MISS_SUSP, d.rdb i Fd.TEN_CLS_MISS_OTHER]) else none
  | 2 => if i < 48 then some (Config.encode 0x1312 [d.rdc i Fd.HATCH_USE_LENT, d.rdc i Fd.HATCH_USE_IDLE]) else none
  | 3 => if i < 8 then some (Config.encode 0x1313 [d.rdb i Fd.DMC_PORT_USE_WAITS, (d.dport i).last]) else none
  | _ => none

def statRead (g : Nat) (s : State) : State :=
  match s.dev.statSet (s.dev.arg g 0) (s.dev.arg g 1) with
  | some bs =>
    let a := s.dev.arg g 2
    if s.dev.bufferOk g a bs.length then callReturn g (BitVec.ofNat 64 bs.length) (s.writeReach (s.dev.reach g a) bs)
    else callReturn g callBad s
  | none => callReturn g callBad s

def execStatRead (g : Fin 64) (s : State) : Host.Outcome State Fault Refusal := callRow g 2 (fun _ => statRead g) s

/-! ### Proposals -/

/-- HATCH_PROPOSE: HATCH_WRITE of the plan, laid out as HATCH_READ replies it, and HATCH_ARM for the sheet. -/
def hatchPropose (g : Nat) (s : State) : State :=
  let d := s.dev
  let a := d.arg g 0
  if !d.bufferOk g a 2064 || 2 ^ 32 ≤ d.arg g 1 || 2 ^ 32 ≤ d.arg g 2 || 2 ^ 32 ≤ d.arg g 3 then callReturn g callBad s
  else
    let plan := s.readReach (d.reach g a) 2064
    let mask := leBytes 4 (d.arg g 1) ++ leBytes 4 (d.arg g 2)
    let (st, _, s) := hatchWrite (mask ++ plan.take 2 ++ List.replicate 6 0 ++ plan.drop 16) s
    if st ≠ jsOk then callReturn g (callError st) s
    else
      let (st, _, s) := hatchArmAll (mask ++ leBytes 4 (d.arg g 3) ++ [0, 0, 0, 0]) s
      callReturn g (if st = jsOk then 0 else callError st) s

def execHatchPropose (g : Fin 64) (s : State) : Host.Outcome State Fault Refusal := callRow g 3 (fun _ => hatchPropose g) s

/-- LEND_PRI: ARB_SET of one channel, the wait limit unchanged. -/
def lendPri (g : Nat) (s : State) : State :=
  let n := s.dev.arg g 0
  let v := s.dev.arg g 1
  if 48 ≤ n || 2 ^ 32 ≤ v then callReturn g callBad s
  else
    let (st, _, s) := arbSet (leBytes 8 (2 ^ n) ++ leBytes 4 v ++ [0, 0, 0, 0]) s
    callReturn g (if st = jsOk then 0 else callError st) s

def execLendPri (g : Fin 64) (s : State) : Host.Outcome State Fault Refusal := callRow g 4 (fun _ => lendPri g) s

/-- STIP_URGENT: a post to `STIP.URG_POST`; with the list full the caller is to try later. -/
def etchUrgent (g : Nat) (s : State) : State :=
  let group := s.dev.arg g 0
  let row := s.dev.arg g 1
  if 96 ≤ group || q4Blocks ≤ row then callReturn g callBad s
  else
    let full := decide (4096 ≤ s.dev.stip.urgent.length)
    callReturn g (if full then callBusy else 0) (s.modDev (stipUrgPost (group * 65536 + row)))

def execStipUrgent (g : Fin 64) (s : State) : Host.Outcome State Fault Refusal := callRow g 5 (fun _ => etchUrgent g) s

/-! ### LOG and EXIT -/

/-- Telemetry Data Area 2 holds 32 MiB; the oldest entries make room. -/
def trimTrace : List (List Byte) → List (List Byte)
  | [] => []
  | x :: rest => if 33554432 < ((x :: rest).map List.length).sum then trimTrace rest else x :: rest

/-- LOG. -/
def etchLog (g : Nat) (s : State) : State :=
  let a := s.dev.arg g 0
  let n := s.dev.arg g 1
  if 256 < n || !s.dev.bufferOk g a n then callReturn g callBad s
  else
    let bs := s.readReach (s.dev.reach g a) n
    callReturn g 0 (s.modDev fun d => d.modGrv fun x => { x with trace2 := trimTrace (x.trace2 ++ [bs]) })

def execLogAppend (g : Fin 64) (s : State) : Host.Outcome State Fault Refusal := callRow g 6 (fun _ => etchLog g) s

/-- EXIT: the etching stops, and no stop is counted; its graver is released and its slot stays loaded. -/
def etchExit (g e : Nat) (s : State) : State :=
  releaseGraver g (s.modDev fun d => d.modEtch e fun x => { x with graver := none, waiting := none, events := [] })

def execEtchExit (g : Fin 64) (s : State) : Host.Outcome State Fault Refusal := callRow g 7 (etchExit g) s

end Sys2Proof.Machine
end

