-- ==== Sys2Proof/Machine/Mctp.lean ====
section
/-! DEFINITION. MCTP control messages and the NVMe-MI commands, on SMBus, on I3C and in band (R386, R387, Table 14-2). The forms of their
bodies are those of the base standards (log entry 8). -/

namespace Sys2Proof.Machine

/-- A message on a binding: answered while the binding runs, whatever `JNM.CTL.EN` holds; otherwise the device is no endpoint there (R387). -/
def onBinding (i3c : Bool) (src tag kind : Nat) (f : Dev → List Byte × Dev) (s : State) : Host.Outcome State Fault Refusal :=
  if s.dev.binding i3c then
    .next (s.modDev fun d =>
      let (body, d) := f (wakeIdle d)
      d.send (.mctp i3c src tag kind body))
  else .next s

/-! ### MCTP control messages (message type 0x00) -/

/-- Completion codes: success, invalid data, message type not supported. -/
def mcOk : Byte := 0x00
def mcBadData : Byte := 0x02
def mcNoType : Byte := 0x80

/-- Set Endpoint ID: set or force an assignable EID; the device has no static EID to return to. -/
def mcSetEid (op eid : Nat) (d : Dev) : List Byte × Dev :=
  if bits op 1 0 ≤ 1 && 8 ≤ eid && eid ≠ 0xFF then ([mcOk, 0, BitVec.ofNat 8 eid, 0], d.wr Fd.JNM_MCTP_EID eid) else ([mcBadData], d)

def execSetEndpointId (i3c : Bool) (src tag op eid : Byte) (s : State) : Host.Outcome State Fault Refusal :=
  onBinding i3c src.toNat tag.toNat 0 (mcSetEid op.toNat eid.toNat) s

/-- Get Endpoint ID: a simple endpoint with a dynamic EID. -/
def mcGetEid (d : Dev) : List Byte × Dev := ([mcOk, BitVec.ofNat 8 (d.rd Fd.JNM_MCTP_EID), 0, 0], d)

def execGetEndpointId (i3c : Bool) (src tag : Byte) (s : State) : Host.Outcome State Fault Refusal :=
  onBinding i3c src.toNat tag.toNat 0 mcGetEid s

/-- The message types of Table 14-2. -/
def mctpTypes : List Nat := [0x00, 0x04, 0x7E]

/-- Get MCTP Version Support, for the base (0xFF: version 1.3, Table 0-2, in the base standard's form, log entry 112) or a message type, whose
numbers are left to its own standard. -/
def mcVersions (kind : Nat) (d : Dev) : List Byte × Dev :=
  if kind = 0xFF then ([mcOk, 1, 0xF1, 0xF3, 0xF0, 0x00], d)
  else if kind ∈ mctpTypes then (mcOk :: Config.encode 0x1404 [kind], d) else ([mcNoType], d)

def execGetMctpVersionSupport (i3c : Bool) (src tag kind : Byte) (s : State) : Host.Outcome State Fault Refusal :=
  onBinding i3c src.toNat tag.toNat 0 (mcVersions kind.toNat) s

/-- Get Message Type Support: the types beside control. -/
def mcTypes (d : Dev) : List Byte × Dev := ([mcOk, 2, 0x04, 0x7E], d)

def execGetMessageTypeSupport (i3c : Bool) (src tag : Byte) (s : State) : Host.Outcome State Fault Refusal :=
  onBinding i3c src.toNat tag.toNat 0 mcTypes s

/-- Get Vendor Defined Message Support: one set, PCI vendor ID 0x5658; its version word is left open. -/
def mcVendor (sel : Nat) (d : Dev) : List Byte × Dev :=
  if sel = 0 then ([mcOk, 0xFF, 0, 0x56, 0x58, Config.freeByte 0x1406 0 0, Config.freeByte 0x1406 1 0], d) else ([mcBadData], d)

def execGetVendorDefinedMessageSupport (i3c : Bool) (src tag sel : Byte) (s : State) : Host.Outcome State Fault Refusal :=
  onBinding i3c src.toNat tag.toNat 0 (mcVendor sel.toNat) s

/-! ### NVMe-MI commands (message type 0x04) -/

/-- The outcome of an NVMe-MI command: status, management response, data. -/
structure MiReply where
  status : Nat
  mgmt : Nat
  data : List Byte
  deriving DecidableEq, Repr

def miOk (mgmt : Nat) (data : List Byte) : MiReply := { status := 0, mgmt := mgmt, data := data }
def miBadOpcode : MiReply := { status := 3, mgmt := 0, data := [] }
def miBadParam : MiReply := { status := 4, mgmt := 0, data := [] }

/-- The body of a response: status, management response, data. -/
def MiReply.body (r : MiReply) : List Byte := leBytes 1 r.status ++ leBytes 3 r.mgmt ++ r.data

/-- Read NVMe-MI Data Structure: types 0 to 4, with the revision of Table 0-2, 2.0. -/
def miDataStructure (dw0 : Nat) (d : Dev) : MiReply × Dev :=
  if bits dw0 31 24 ≤ 4 then (miOk 0 (Config.encode 0x0400 [dw0, b2n d.dual, d.cascade, 2, 0]), d) else (miBadParam, d)

/-- What the health polls report on: faults, temperature, spares, the functions enabled and ready, and the changes acknowledged. -/
def Dev.miHealth (d : Dev) (path : Nat) : List Nat :=
  [d.regGet Rg.SYS_FAULT 0 0, d.pwr.kelvin, b2n d.med.spareLow, b2n d.sys.cfs, countUpTo 1026 fun f => (d.func f).en,
   countUpTo 1026 fun f => (d.func f).rdy, mapGet 0 d.jnm.miChange path]

/-- A health poll; bit 31 of its second dword clears the changes it reports. -/
def miPoll (op path dw0 dw1 : Nat) (d : Dev) : MiReply × Dev :=
  let r := miOk 0 (Config.encode (0x0400 + op) ([dw0, dw1] ++ d.miHealth path))
  (r, if bit dw1 31 then d.modJnm fun j => { j with miChange := mapSet 0 j.miChange path 0xFFFFFFFF } else d)

/-- Bytes of a transmission unit, fixed (Table 14-2). -/
def mctpUnit : Nat := 64

/-- Configuration Get: SMBus frequency, Health Status Change, transmission unit. -/
def miConfigGet (dw0 : Nat) (d : Dev) : MiReply × Dev :=
  match bits dw0 7 0 with
  | 1 => (miOk (mapGet 1 d.jnm.miFreq 0) [], d)
  | 2 => (miOk 0 [], d)
  | 3 => (miOk mctpUnit [], d)
  | _ => (miBadParam, d)

/-- Configuration Set. -/
def miConfigSet (path dw0 dw1 : Nat) (d : Dev) : MiReply × Dev :=
  match bits dw0 7 0 with
  | 1 =>
    let f := bits dw0 11 8
    if 1 ≤ f && f ≤ 3 then (miOk 0 [], d.modJnm fun j => { j with miFreq := mapSet 1 j.miFreq 0 f }) else (miBadParam, d)
  | 2 => (miOk 0 [], d.modJnm fun j => { j with miChange := mapSet 0 j.miChange path dw1 })
  | 3 => if bits dw1 15 0 = mctpUnit then (miOk 0 [], d) else (miBadParam, d)
  | _ => (miBadParam, d)

/-- VPD Read: bytes that the board's data gives. -/
def miVpd (dw0 dw1 : Nat) (d : Dev) : MiReply × Dev :=
  (miOk 0 ((List.range (bits dw1 15 0)).map fun i => Config.freeByte 0x0405 (bits dw0 15 0 + i) 0), d)

/-- The endpoint an MCTP message comes to. -/
def miPath (i3c : Bool) : Nat := if i3c then 3 else 2

/-- An NVMe-MI command over MCTP. -/
def miRow (i3c : Bool) (src tag : Byte) (f : Dev → MiReply × Dev) (s : State) : Host.Outcome State Fault Refusal :=
  onBinding i3c src.toNat tag.toNat 4 (fun d => let (r, d) := f d; (r.body, d)) s

def execReadNvmeMiDataStructure (i3c : Bool) (src tag : Byte) (dw0 _dw1 : Word) (s : State) : Host.Outcome State Fault Refusal :=
  miRow i3c src tag (miDataStructure dw0.toNat) s
def execNvmSubsystemHealthStatusPoll (i3c : Bool) (src tag : Byte) (dw0 dw1 : Word) (s : State) : Host.Outcome State Fault Refusal :=
  miRow i3c src tag (miPoll 1 (miPath i3c) dw0.toNat dw1.toNat) s
def execControllerHealthStatusPoll (i3c : Bool) (src tag : Byte) (dw0 dw1 : Word) (s : State) : Host.Outcome State Fault Refusal :=
  miRow i3c src tag (miPoll 2 (miPath i3c) dw0.toNat dw1.toNat) s
def execConfigurationGet (i3c : Bool) (src tag : Byte) (dw0 _dw1 : Word) (s : State) : Host.Outcome State Fault Refusal :=
  miRow i3c src tag (miConfigGet dw0.toNat) s
def execConfigurationSet (i3c : Bool) (src tag : Byte) (dw0 dw1 : Word) (s : State) : Host.Outcome State Fault Refusal :=
  miRow i3c src tag (miConfigSet (miPath i3c) dw0.toNat dw1.toNat) s
def execVpdRead (i3c : Bool) (src tag : Byte) (dw0 dw1 : Word) (s : State) : Host.Outcome State Fault Refusal :=
  miRow i3c src tag (miVpd dw0.toNat dw1.toNat) s

/-! ### In band (R386) -/

/-- The completion of an NVMe-MI command in band. -/
def miFinish (k : Nat) (r : MiReply) (d : Dev) : Dev := finish k (successWith (r.status + 256 * r.mgmt)) d

/-- The opcode and the management dwords of an NVMe-MI command in band. -/
def Sqe.miOp (q : Sqe) : Nat := bits q.cdw11.toNat 7 0

/-- NVMe-MI Send: the commands that return no data. -/
def miSend (k : Nat) (x : Slot) (d : Dev) : Dev :=
  let (r, d) := if Sqe.miOp x.sqe = 3 then miConfigSet (x.fn / 1025) x.sqe.cdw12.toNat x.sqe.cdw13.toNat d else (miBadOpcode, d)
  miFinish k r d

def execNvmeMiSend (slot : Fin 131072) (_data : List Byte) (s : State) : Host.Outcome State Fault Refusal :=
  onDev s fun d => onSlot slot true 0x1D (fun x d => .ok (miSend slot x d)) d

/-- NVMe-MI Receive: the commands that return data. -/
def miReceive (k : Nat) (x : Slot) (d : Dev) : Dev :=
  let a := x.sqe.cdw12.toNat
  let b := x.sqe.cdw13.toNat
  let path := x.fn / 1025
  let (r, d) :=
    match Sqe.miOp x.sqe with
    | 0 => miDataStructure a d
    | 1 => miPoll 1 path a b d
    | 2 => miPoll 2 path a b d
    | 4 => miConfigGet a d
    | 5 => miVpd a b d
    | _ => (miBadOpcode, d)
  miFinish k r (if r.data.isEmpty then d else d.send (.hostBytes x.fn x.sqe.cid.toNat r.data))

def execNvmeMiReceive (slot : Fin 131072) (s : State) : Host.Outcome State Fault Refusal :=
  onDev s fun d => onSlot slot true 0x1E (fun x d => .ok (miReceive slot x d)) d

end Sys2Proof.Machine
end

