-- ==== Sys2Proof/Machine/Spdm.lean ====
section
/-! DEFINITION. DOE mailboxes, SPDM as responder, IDE key management (R70, R71, R373, Tables 3-2 and 13-7). The forms of the messages are
those of the base standards (log entry 8). -/

namespace Sys2Proof.Machine

/-! ### Mailboxes (R70) -/

def Dev.spdm (d : Dev) (p : Nat) : Spdm := mapGet Spdm.reset d.host.spdm p
def Dev.modSpdm (d : Dev) (p : Nat) (f : Spdm → Spdm) : Dev := d.modHost fun h => { h with spdm := mapMod Spdm.reset h.spdm p f }

/-- A request object on the mailbox of a port's PF: the port is there and its link is up. -/
def onMailbox (p : Nat) (f : Dev → Dev) (s : State) : Host.Outcome State Fault Refusal :=
  onDev s (onlyIf (s.dev.hasPort p && (s.dev.port p).up) "DOE mailbox" f)

/-- The largest object of a mailbox, in bytes, and what its headers take of it (Table 3-2). -/
def maxObject : Nat := 65536
def objectHeads : Nat := 16

/-- A response: its code and contents, laid out as the base standard has it. -/
def spdmReply (p code : Nat) (xs : List Nat) (d : Dev) : Dev := d.send (.doe p (Config.encode (0x1200 + code) xs))

/-- ERROR, with its code. -/
def spdmError (p code : Nat) (d : Dev) : Dev := spdmReply p 0x7F [code] d
def seInvalidRequest : Nat := 0x01
def seInvalidSession : Nat := 0x02
def seUnexpected : Nat := 0x04
def seDecrypt : Nat := 0x06
def seSessionLimit : Nat := 0x0A
def seVersion : Nat := 0x41

/-- The data object types of DOE Discovery, in order: Discovery, CMA-SPDM, Secured CMA-SPDM; after the last the index goes back to 0. -/
def doeDiscovery (p i : Nat) (d : Dev) : Dev :=
  let t := if i < 3 then [0x0001, i, if i < 2 then i + 1 else 0] else [0xFFFF, 0, 0]
  d.send (.doe p (Config.encode 0x1100 t))

def execDoeDiscovery (port : Fin 2) (index : Byte) (s : State) : Host.Outcome State Fault Refusal :=
  onMailbox port (doeDiscovery port index.toNat) s

/-! ### The connection -/

/-- The versions of Table 3-2: 1.2 and 1.3. -/
def spdmVersions : List Nat := [0x12, 0x13]

/-- GET_VERSION begins the connection anew; its sessions end. -/
def getVersion (p : Nat) (d : Dev) : Dev :=
  spdmReply p 0x04 spdmVersions (d.modSpdm p fun x => { Spdm.reset with version := 0x10, nextSession := x.nextSession })

def execSpdmGetVersion (port : Fin 2) (s : State) : Host.Outcome State Fault Refusal := onMailbox port (getVersion port) s

/-- GET_CAPABILITIES: certificates, challenges, measurements with signatures, sessions. -/
def getCapabilities (p v : Nat) (d : Dev) : Dev :=
  let x := d.spdm p
  if v ∉ spdmVersions then spdmError p seVersion d
  else if x.version = 0 || (x.caps && decide (x.version ≠ v)) then spdmError p seUnexpected d
  else spdmReply p 0x61 [v] (d.modSpdm p fun x => { x with version := v, caps := true })

def execSpdmGetCapabilities (port : Fin 2) (version : Byte) (s : State) : Host.Outcome State Fault Refusal :=
  onMailbox port (getCapabilities port version.toNat) s

/-- NEGOTIATE_ALGORITHMS: of each kind the one that Table 3-2 names is chosen, where the requester offers it. -/
def negotiate (p chosen : Nat) (d : Dev) : Dev :=
  if (d.spdm p).caps then spdmReply p 0x63 [chosen] (d.modSpdm p fun x => { x with algs := true, chosen := chosen })
  else spdmError p seUnexpected d

def execSpdmNegotiateAlgorithms (port : Fin 2) (sig hash dhe aead : Bool) (s : State) : Host.Outcome State Fault Refusal :=
  onMailbox port (negotiate port (b2n sig + 2 * b2n hash + 4 * b2n dhe + 8 * b2n aead)) s

/-- Algorithms by their bit of `Spdm.chosen`. -/
def algSign : Nat := 0
def algHash : Nat := 1
def algExchange : Nat := 2
def algSecure : Nat := 3

/-- A request that comes after the negotiation and needs some algorithms. -/
def afterNegotiation (p : Nat) (algs : List Nat) (f : Dev → Dev) (d : Dev) : Dev :=
  let x := d.spdm p
  if !x.algs then spdmError p seUnexpected d
  else if algs.all fun a => bit x.chosen a then f d
  else spdmError p seInvalidRequest d

/-! ### Identity (Table 3-2) -/

/-- The chain of a certificate slot: 0 the device's, 1 the owner's, where it is provisioned. -/
def Dev.certChain (d : Dev) (c : Nat) : Option (List Byte) := if c = 0 then some Config.deviceChain else if c = 1 then d.nvm.cert else none

/-- GET_DIGESTS: the slots that hold a chain, and their digests. -/
def getDigests (p : Nat) (d : Dev) : Dev :=
  let cs := (List.range 2).filterMap fun c => (d.certChain c).map fun bs => (c, (Config.sha384 bs).toNat)
  spdmReply p 0x01 (cs.flatMap fun c => [c.1, c.2]) d

def execSpdmGetDigests (port : Fin 2) (s : State) : Host.Outcome State Fault Refusal :=
  onMailbox port (afterNegotiation port [algHash] (getDigests port)) s

/-- GET_CERTIFICATE: a portion of a chain, with what remains after it. -/
def getCertificate (p c off len : Nat) (d : Dev) : Dev :=
  match d.certChain c with
  | some bs =>
    if bs.length < off then spdmError p seInvalidRequest d
    else
      let part := (bs.drop off).take (min len (maxObject - objectHeads))
      spdmReply p 0x02 ([c, part.length, bs.length - off - part.length] ++ part.map (·.toNat)) d
  | none => spdmError p seInvalidRequest d

def execSpdmGetCertificate (port : Fin 2) (cert : Fin 8) (off len : BitVec 16) (s : State) : Host.Outcome State Fault Refusal :=
  onMailbox port (afterNegotiation port [algHash] (getCertificate port cert off.toNat len.toNat)) s

/-- The device's signature with its identity key over what a response says and the requester's nonce. -/
def Dev.signed (d : Dev) (code nonce : Nat) (xs : List Nat) : Nat :=
  (Config.ecdsaSign d.nfree (Config.encode (0x1280 + code) (nonce :: xs))).toNat

/-- CHALLENGE: a signature with the key of slot 0; the device does not hold the owner's. -/
def challenge (p c nonce : Nat) (d : Dev) : Dev :=
  if c ≠ 0 then spdmError p seInvalidRequest d
  else
    let xs := [c, (Config.sha384 Config.deviceChain).toNat, (Config.random d.nfree).toNat]
    spdmReply p 0x03 (xs ++ [d.signed 0x03 nonce xs]) (d.tick 1)

def execSpdmChallenge (port : Fin 2) (cert : Fin 8) (nonce : BitVec 256) (s : State) : Host.Outcome State Fault Refusal :=
  onMailbox port (afterNegotiation port [algSign, algHash] (challenge port cert nonce.toNat)) s

/-- Measurements of Table 13-7. -/
def measCount : Nat := 12
def Dev.measure (d : Dev) (i : Nat) : List Nat := [i, (mapGet 0 d.grv.meas i).toNat]

/-- GET_MEASUREMENTS: how many there are (index 0), one of them, or all (0xFF). -/
def getMeasurements (p i : Nat) (sign : Bool) (nonce : Nat) (d : Dev) : Dev :=
  if measCount < i && i ≠ 0xFF then spdmError p seInvalidRequest d
  else
    let xs := if i = 0 then [measCount] else if i = 0xFF then (List.range measCount).flatMap fun k => d.measure (k + 1) else d.measure i
    spdmReply p 0x60 (if sign then xs ++ [(Config.random d.nfree).toNat, d.signed 0x60 nonce xs] else xs) (d.tick 1)

def execSpdmGetMeasurements (port : Fin 2) (index : Byte) (sign : Bool) (nonce : BitVec 256) (s : State) :
    Host.Outcome State Fault Refusal :=
  onMailbox port (afterNegotiation port (if sign then [algSign, algHash] else [algHash]) (getMeasurements port index.toNat sign nonce.toNat)) s

/-! ### Sessions (Table 3-2) -/

/-- Sessions that a PF holds at a time. -/
def maxSessions : Nat := 4

/-- KEY_EXCHANGE: a fresh pair of the device's, a signature, and a session that FINISH ends the handshake of. Sessions are named in the order
of their opening; the identifier on the link is left open. -/
def spdmKeyExchange (p c nonce : Nat) (pub : BitVec 768) (d : Dev) : Dev :=
  let x := d.spdm p
  if c ≠ 0 then spdmError p seInvalidRequest d
  else if maxSessions ≤ x.sessions.length then spdmError p seSessionLimit d
  else
    let xs := [x.nextSession, (Config.ecdhPublic d.nfree).toNat, (Config.ecdhDerive d.nfree pub 0x64).toNat, (Config.random d.nfree).toNat]
    let keys : SpdmKeys := { pair := d.nfree, pub := pub, reqGen := 0, rspGen := 0 }
    let d' := d.modSpdm p fun x => { x with
      sessions := x.sessions ++ [(x.nextSession, false)], keys := mapInsert x.keys x.nextSession keys, nextSession := (x.nextSession + 1) % 2 ^ 16 }
    spdmReply p 0x64 (xs ++ [d.signed 0x64 nonce xs]) (d'.tick 1)

def execSpdmKeyExchange (port : Fin 2) (cert : Fin 8) (nonce : BitVec 256) (pub : BitVec 768) (s : State) :
    Host.Outcome State Fault Refusal :=
  onMailbox port (afterNegotiation port [algSign, algHash, algExchange, algSecure] (spdmKeyExchange port cert nonce.toNat pub)) s

/-- A session, and whether its handshake is finished. -/
def Spdm.session (x : Spdm) (n : Nat) : Option Bool := (x.sessions.find? fun e => decide (e.1 = n)).map (·.2)
def dropSession (p n : Nat) (d : Dev) : Dev := d.modSpdm p fun x => { x with sessions := x.sessions.filter (fun e => e.1 ≠ n), keys := mapErase x.keys n }

/-- FINISH: a requester whose MAC checks has a secure session; the session of any other ends. -/
def spdmFinish (p n : Nat) (mac : Bool) (d : Dev) : Dev :=
  if (d.spdm p).session n ≠ some false then spdmError p seInvalidSession d
  else if !mac then spdmError p seDecrypt (dropSession p n d)
  else spdmReply p 0x65 [n] (d.modSpdm p fun x => { x with sessions := x.sessions.map fun e => if e.1 = n then (n, true) else e })

def execSpdmFinish (port : Fin 2) (session : BitVec 16) (mac : Bool) (s : State) : Host.Outcome State Fault Refusal :=
  onMailbox port (spdmFinish port session.toNat mac) s

/-- The key under which the device seals what it says in a session; a change of it makes another (AES-256-GCM, Table 3-2). -/
def SpdmKeys.sendKey (x : SpdmKeys) : BitVec 512 := Config.ecdhDerive x.pair x.pub (0x6900 + x.rspGen)

/-- A response inside a session: a Secured CMA-SPDM object, the response under the session's key. -/
def secureReply (p n code : Nat) (xs : List Nat) (d : Dev) : Dev :=
  match mapFind (d.spdm p).keys n with
  | some x =>
    let bs := Config.encode (0x1200 + code) xs
    d.send (.doe p (Config.encode 0x1300 [n, Config.gcmText x.sendKey x.rspGen bs.length (leNat bs)]))
  | none => spdmReply p code xs d

/-- A request inside a secure session. -/
def inSession (p n : Nat) (f : Dev → Dev) (d : Dev) : Dev :=
  if (d.spdm p).session n = some true then f d else spdmError p seInvalidSession d

def execSpdmHeartbeat (port : Fin 2) (session : BitVec 16) (s : State) : Host.Outcome State Fault Refusal :=
  onMailbox port (inSession port session.toNat (secureReply port session.toNat 0x68 [session.toNat])) s

/-- KEY_UPDATE: UpdateKey changes the requester's key, UpdateAllKeys both, VerifyNewKey none. -/
def keyUpdate (p n op : Nat) (d : Dev) : Dev :=
  if 1 ≤ op && op ≤ 3 then
    secureReply p n 0x69 [n, op] (d.modSpdm p fun x => { x with keys := x.keys.map fun e =>
      if e.1 = n then (n, { e.2 with reqGen := e.2.reqGen + b2n (decide (op ≠ 3)), rspGen := e.2.rspGen + b2n (decide (op = 2)) }) else e })
  else spdmError p seInvalidRequest d

def execSpdmKeyUpdate (port : Fin 2) (session : BitVec 16) (op : Byte) (s : State) : Host.Outcome State Fault Refusal :=
  onMailbox port (inSession port session.toNat (keyUpdate port session.toNat op.toNat)) s

def execSpdmEndSession (port : Fin 2) (session : BitVec 16) (s : State) : Host.Outcome State Fault Refusal :=
  onMailbox port (inSession port session.toNat fun d => dropSession port session.toNat (secureReply port session.toNat 0x6C [session.toNat] d)) s

/-! ### IDE keys (R70, R71) -/

/-- IDE_KM: keys are programmed into a stream; K_SET_GO makes a stream whose keys are programmed Secure. -/
def ideKm (p st : Nat) (go : Bool) (d : Dev) : Dev :=
  if !go then (d.modPort p fun x => { x with keyed := listAdd x.keyed st }).send (.ideKm p st true)
  else if st ∈ (d.port p).keyed then
    (d.modPort p fun x => { x with
      keyed := x.keyed.filter fun k => k ≠ st, insecure := x.insecure.filter fun k => k ≠ st, secure := listAdd x.secure st }).send (.ideKm p st true)
  else d.send (.ideKm p st false)

def execIdeKmRequest (port : Fin 2) (session : BitVec 16) (stream : Fin 9) (go : Bool) (s : State) : Host.Outcome State Fault Refusal :=
  onMailbox port (inSession port session.toNat (ideKm port stream go)) s

end Sys2Proof.Machine
end

