-- ==== Sys2Proof/Machine/Dalesk.lean ====
section
/-! DEFINITION. The Dalesk link's events and the cascade: flits, replay, ports, admission, requests, responses, unreachable followers
(R454 to R469). -/

namespace Sys2Proof.Machine

/-! ### Replay (R460) -/

/-- `SYS.FAULT.DLK_LANE`: a port runs below four lanes (R453). -/
def laneFault (d : Dev) : Dev :=
  if (List.range 2).any fun p => (d.dlkPort p).up && decide ((d.dlkPort p).width < 4) then faultOn 5 d else faultOff 5 d

/-- A follower has lost its master while no port leads to it (R468). -/
def masterWatch (d : Dev) : Dev :=
  d.modDlk fun x => { x with masterLost := decide (d.sys.role ≠ 0) && !(d.dlkPort (d.portTo 0)).up }

/-- `DLK.EVT.LINK_DN`: the port goes down and trains anew; what it had not delivered waits, on a closed ring at the other port, and there
every unanswered request goes out again (R460, R461, R466). -/
def dlkDown (p : Nat) (d : Dev) : Dev :=
  let x := d.dlkPort p
  let left := x.unacked ++ x.ready
  let around := d.isRing && (d.dlkPort (1 - p)).up
  let d := (d.modDlkPort p fun y => { DlkPort.reset with peer := y.peer, ready := if around then [] else left }).wr Fd.DLK_EVT_LINK_DN 1
  let d := masterWatch (laneFault d)
  if around then resend (fun _ => true) (enqueueFlits (1 - p) left ((d.modDlk fun y => { y with rerouted := true }).wr Fd.DLK_EVT_REROUTE 1))
  else d

/-- The sender replays from the oldest unacknowledged flit; the eighth replay in a row from one flit takes the port down. -/
def replayFlits (p : Nat) (d : Dev) : Dev :=
  let x := d.dlkPort p
  if x.unacked.isEmpty then d
  else
    let d := if p = 0 then d.add Fd.DLK_CNT_RETRY_DN 1 else d.add Fd.DLK_CNT_RETRY_UP 1
    let d := x.unacked.foldl (fun (d : Dev) f => d.send (.flit p (flitImage f))) d
    if maxReplays ≤ x.replays + 1 then dlkDown p d else d.modDlkPort p fun y => { y with replays := y.replays + 1 }

/-- Flits up to and with an acknowledged one leave the replay buffer. -/
def dropAcked (a : BitVec 12) : List DlkFlit → List DlkFlit
  | [] => []
  | f :: rest => if f.seq == a then rest else dropAcked a rest

/-- An ACK: flits leave the replay buffer, and others take their place. -/
def takeAck (p : Nat) (a : BitVec 12) (d : Dev) : Dev :=
  let x := d.dlkPort p
  if x.unacked.any fun f => f.seq == a then
    let d := d.modDlkPort p fun y => { y with unacked := dropAcked a y.unacked, replays := 0 }
    transmit p x.ready.length d
  else d

/-- The receiver acknowledges the last flit it accepted. -/
def sendAck (p : Nat) (d : Dev) : Dev :=
  (d.send (.ack p (((d.dlkPort p).expect + 4095) % 4096))).modDlkPort p fun y => { y with accepted := 0 }

/-- A flit for another position goes on by the other port; back, where a closed ring has lost that one (R457, R466). -/
def forwardFlit (p : Nat) (f : DlkFlit) (d : Dev) : Dev :=
  if f.dst.val = d.sys.role then d
  else enqueueFlits (if d.isRing && !(d.dlkPort (1 - p)).up then p else 1 - p) [f] d

/-- A flit is accepted: the expected number advances, and an ACK follows 64 of them. -/
def acceptFlit (p : Nat) (f : DlkFlit) (d : Dev) : Dev :=
  let d := d.modDlkPort p fun y => { y with expect := (y.expect + 1) % 4096, accepted := y.accepted + 1 }
  forwardFlit p f (if ackEvery ≤ (d.dlkPort p).accepted then sendAck p d else d)

/-- A data flit by its sequence number against the expected one. -/
def dataFlit (p : Nat) (f : DlkFlit) (d : Dev) : Dev :=
  let e := (d.dlkPort p).expect
  let diff := (f.seq.toNat + 4096 - e) % 4096
  if !f.ok || (1 ≤ diff && diff ≤ 2047) then d.send (.nak p e)
  else if diff = 0 then acceptFlit p f d
  else d.add Fd.DLK_CNT_DUP_FLIT 1

/-- A flit by its type: idle, data, ACK, NAK; of one whose CRC fails nothing but a data flit's NAK comes. -/
def takeFlit (p : Nat) (f : DlkFlit) (d : Dev) : Dev :=
  if f.kind.val = 1 then dataFlit p f d
  else if !f.ok || f.kind.val = 0 then d
  else if f.kind.val = 2 then takeAck p f.seq d
  else replayFlits p d

def execDaleskFlitReceive (port : Fin 2) (flit : DlkFlit) (s : State) : Host.Outcome State Fault Refusal :=
  onDev s fun d => onlyIf (d.dlkPort port).up "Dalesk port" (takeFlit port flit) d

def execDaleskAckSend (port : Fin 2) (s : State) : Host.Outcome State Fault Refusal :=
  onDev s fun d => onlyIf (d.dlkPort port).up "Dalesk port" (sendAck port) d

/-- DALESK_REPLAY_TIMEOUT: 4 µs have passed without an ACK for flits that were sent. -/
def execDaleskReplayTimeout (port : Fin 2) (s : State) : Host.Outcome State Fault Refusal :=
  onDev s fun d => onlyIf ((d.dlkPort port).up && !(d.dlkPort port).unacked.isEmpty) "replay time-out" (replayFlits port) d

/-! ### Ports (R455 to R457, R460) -/

def execDaleskPortDown (port : Fin 2) (s : State) : Host.Outcome State Fault Refusal :=
  onDev s fun d => onlyIf (d.dlkPort port).up "Dalesk port" (dlkDown port) d

/-- A lane fails its check: the port retrains at two lanes. -/
def laneFail (p : Nat) (d : Dev) : Dev :=
  laneFault ((d.modDlkPort p fun y => { y with width := min 2 y.width }).wr Fd.DLK_EVT_LANE 1)

def execDaleskLaneFail (port : Fin 2) (s : State) : Host.Outcome State Fault Refusal :=
  onDev s fun d => onlyIf (d.dlkPort port).up "Dalesk port" (laneFail port) d

/-- The highest admitted position, the master's own where it has admitted none. -/
def Dev.lastAdmitted (d : Dev) : Nat := d.dlk.admitted.foldl max 0

/-- A device is seen behind a position of the chain (R456): during the master's cold start the next position is admitted. -/
def seeDevice (behind pos : Nat) (d : Dev) : Dev :=
  if pos ∈ d.dlk.admitted then d
  else
    let d := d.modDlk fun x => { x with seen := mapSet 0 x.seen pos 1 }
    if pos ≠ behind + 1 then d.wr Fd.DLK_EVT_TOPO 1
    else if d.sys.role = 0 && d.lastAdmitted = behind && d.startingUp then d.modDlk fun x => { x with admitted := x.admitted ++ [pos] }
    else d

/-- DALESK_PORT_UP: the port has trained; flits that waited go out. -/
def dlkUp (p w peer : Nat) (d : Dev) : Except String Dev :=
  if !d.is Fd.DLK_CTL_EN || (d.dlkPort p).up || w ∉ [1, 2, 4] then .error "Dalesk port"
  else
    let d := (d.modDlkPort p fun y => { y with up := true, width := w, peer := peer }).wr Fd.DLK_EVT_LINK_UP 1
    let d := if p = 0 && !(d.isRing && decide (peer = 0)) then seeDevice d.sys.role peer d else d
    .ok (beginJobs (masterWatch (laneFault (transmit p (d.dlkPort p).ready.length d))))

def execDaleskPortUp (port : Fin 2) (width : Fin 5) (peer : Fin 4) (s : State) : Host.Outcome State Fault Refusal :=
  onDev s (dlkUp port width peer)

/-! ### Requests (R461, R464, R395, R467) -/

/-- A request of this position and ID has been executed, or is under way. -/
def Dev.heldAnswer (d : Dev) (pos id : Nat) : Option DlkMsg := d.dlk.held.find? fun m => decide (m.pos = pos) && decide (m.id = id)
def Dev.underWay (d : Dev) (pos id : Nat) : Bool :=
  d.dlk.jobs.any (fun j => decide (j.pos = pos) && decide (j.id = id)) ||
    d.dlk.posted.any (fun q => decide (q.pos = pos) && decide (q.id = id) && !q.told) ||
    d.jnm.bufs.any fun b => decide (b.path = 4) && decide (b.eid = pos) && decide (b.tag = id)

/-- A request that is new. -/
def newRequest (pos id : Nat) (body : DlkRequest) (s : State) : State :=
  match body with
  | .jenam packet => packetBy 4 pos id packet s
  | .live => s.modDev fun d => respondDlk pos id vcManage (Config.encode 0x1734 [id, b2n (d.sys.stage == .service)])
      (if d.sys.role = 0 then seeDevice d.lastAdmitted pos d else d)
  | .media ch x =>
    afterChan ch (s.modDev fun d => beginJobs (d.modDlk fun y => { y with jobs := y.jobs ++ [{ pos := pos, id := id, ask := .media ch x }] }))
  | .cells t xs => s.modDev fun d => beginJobs (d.modDlk fun y => { y with jobs := y.jobs ++ [{ pos := pos, id := id, ask := .cells t xs }] })

/-- Media work is asked of a follower in service (R464, R468). -/
def Dev.takesRequest (d : Dev) (body : DlkRequest) : Bool :=
  match body with
  | .media _ _ | .cells _ _ => decide (d.sys.role ≠ 0) && d.sys.stage == .service
  | _ => true

/-- DALESK_REQUEST_RECEIVE: a request is executed once by its ID; one that is held already gets its response again. -/
def daleskRequest (pos id : Nat) (body : DlkRequest) (s : State) : Host.Outcome State Fault Refusal :=
  let d := s.dev
  if pos = d.sys.role || !d.takesRequest body then noEvent "Dalesk request" s
  else match d.heldAnswer pos id with
    | some m => .next (s.modDev fun d => (sendMessage m.pos m.id m.vc m.body d).add Fd.DLK_CNT_DUP_E2E 1)
    | none => if d.underWay pos id then .next s else .next (newRequest pos id body s)

def execDaleskRequestReceive (src : Fin 4) (id : Word) (body : DlkRequest) (s : State) : Host.Outcome State Fault Refusal :=
  daleskRequest src id.toNat body s

/-! ### Responses (R463, R467, R469) -/

/-- What this device asked of a position under an ID. -/
def Dev.moveOf (d : Dev) (pos id : Nat) : Option DlkMove := d.dlk.moves.find? fun m => decide (m.pos = pos) && decide (m.id = id)
/-- The request is unanswered. -/
def Dev.awaits (d : Dev) (pos id : Nat) : Bool := d.dlk.asked.any fun m => decide (m.pos = pos) && decide (m.id = id)

/-- Media work that a follower has acknowledged. -/
def moveDone (m : DlkMove) (d : Dev) : Dev :=
  match m.kind with
  | .cells => standsFar m.nsid m.zone m.first m.n d
  | .program => programmedFar m.nsid m.zone m.first m.n d
  | .read | .other => d

/-- The follower has told whether step 8 of its start-up has ended (R456); a position not admitted yet is looked at. -/
def takeLive (pos : Nat) (ready : Bool) (d : Dev) : Dev :=
  let d := seeDevice d.lastAdmitted pos d
  if ready && d.reaches pos then answerReady (d.modDlk fun x => { x with ready := listAdd x.ready pos }) else d

/-- The reply of a follower to a forwarded request stands in the buffer of the request (R395). -/
def takeReply (pos : Nat) (packet : List Byte) (s : State) : State :=
  match s.dev.jnm.bufs.find? fun b => b.phase == .forwarded && decide (jDev b.packet = pos) with
  | some b => settleJenam (putReply b packet s)
  | none => s

/-- DALESK_RESPONSE_RECEIVE: a response that nothing awaits changes nothing, as after a resend (R461). -/
def daleskResponse (pos : Nat) (body : DlkResponse) (s : State) : Host.Outcome State Fault Refusal :=
  match body with
  | .acked id =>
    (match s.dev.moveOf pos id.toNat with
      | some m => .next (s.modDev fun d => moveDone m (answered pos id.toNat d))
      | none => .next (s.modDev (answered pos id.toNat)))
  | .sector id k idx ch owned x =>
    (match s.dev.moveOf pos id.toNat with
      | some m =>
        if m.kind == .read && decide (m.slot = k.val) && decide (m.idx = idx.val) then
          .next (s.modDev fun d => toLane k idx (farLane pos ch) owned x (answered pos id.toNat d))
        else noEvent "Dalesk response" s
      | none => .next (s.modDev (answered pos id.toNat)))
  | .lost id k idx =>
    (match s.dev.moveOf pos id.toNat with
      | some m =>
        if m.kind == .read && decide (m.slot = k.val) && decide (m.idx = idx.val) then
          .next (s.modDev fun d => readLost k stUnrecovered (countUnrecovered k idx (answered pos id.toNat d)))
        else noEvent "Dalesk response" s
      | none => .next (s.modDev (answered pos id.toNat)))
  | .jenam id packet =>
    if s.dev.awaits pos id.toNat then .next (takeReply pos packet (s.modDev (answered pos id.toNat))) else .next s
  | .live ready => .next (s.modDev (takeLive pos ready))
  | .hold units =>
    if s.dev.startingUp && decide (pos ∈ s.dev.dlk.admitted) then
      .next (s.modDev fun d => d.modDlk fun x => { x with reported := x.reported ++ units.map fun u => (pos, u.toNat) })
    else noEvent "HOLD directory" s

def execDaleskResponseReceive (src : Fin 4) (body : DlkResponse) (s : State) : Host.Outcome State Fault Refusal :=
  if s.dev.sys.role = 0 && src.val ≠ 0 then daleskResponse src body s else noEvent "Dalesk response" s

/-! ### Followers lost and found (R456, R467, R468) -/

/-- A follower is unreachable: the event, an Error Information entry on each PF, and UNREACHABLE for a Jenam request that went to it. -/
def loseFollower (pos : Nat) (s : State) : State :=
  let s := s.modDev fun d =>
    let d := (d.modDlk fun x => { x with unreach := x.unreach ++ [(pos, d.now)], ready := x.ready.filter fun p => p ≠ pos }).wr Fd.DLK_EVT_UNREACH 1
    d.pfs.foldl (fun (d : Dev) f => addErr f 0xFFFF 0xFFFF (7 * 256 + 0xC8) 0 0 d) d
  match s.dev.jnm.bufs.find? fun b => b.phase == .forwarded && decide (jDev b.packet = pos) with
  | some b =>
    let s := s.modDev fun d => d.modDlk fun x => { x with
      asked := x.asked.filter fun m => !(decide (m.pos = pos) && decide (m.vc = vcManage)) }
    settleJenam (putReply b (jReply b.packet jsUnreachable [] false) s)
  | none => s

/-- FOLLOWER_UNREACHABLE: no route is left, or no liveness message was answered for 10 ms. -/
def execFollowerUnreachable (pos : Fin 4) (s : State) : Host.Outcome State Fault Refusal :=
  if s.dev.sys.role = 0 && s.dev.reaches pos then .next (loseFollower pos s) else noEvent "follower" s

/-- ADMISSION_TIMEOUT: 5 s after power good, followers that have not ended step 8 are unreachable, and CSTS.RDY may be set (R456). -/
def execAdmissionTimeout (s : State) : Host.Outcome State Fault Refusal :=
  if s.dev.sys.role ≠ 0 then noEvent "admission" s
  else
    let late := s.dev.dlk.admitted.filter fun p => s.dev.reaches p && !decide (p ∈ s.dev.dlk.ready)
    .next ((late.foldl (fun s p => loseFollower p s) s).modDev answerReady)

/-- A read waits for sectors of a follower: they are lost to it, with Device Unreachable. -/
def endFarReads (pos : Nat) (d : Dev) : Dev :=
  let mine := d.dlk.moves.filter fun m => decide (m.pos = pos) && m.kind == .read
  mine.foldl (fun (d : Dev) m => readLost m.slot stUnreachable (answered pos m.id d)) d

/-- The zone of a command lies on a follower. -/
def Dev.onFollower (d : Dev) (pos : Nat) (x : Slot) : Bool :=
  match d.nsOf x.fn x.sqe.nsid.toNat with
  | some ns => ns.zoned && x.isData && (d.zone x.sqe.nsid.toNat (sqeZone x.sqe)).row.any fun r => groupDev r.1 == some pos
  | none => false

/-- A read that waits needs the follower: some sector of it stands there. -/
def Dev.needsFollower (d : Dev) (pos : Nat) (x : Slot) : Bool :=
  d.onFollower pos x && (x.isWrite || (match d.nsOf x.fn x.sqe.nsid.toNat with
    | some ns => (d.sources x.sqe ns).any fun s => match s with | .remote p _ _ _ => decide (p = pos) | _ => false
    | none => false))

/-- The hold expires: uncommitted commands that need the follower complete with Device Unreachable; withdrawn writes meet R94. -/
def holdExpiry (pos : Nat) (d : Dev) : Dev :=
  let d := endFarReads pos (d.modDlk fun x => { x with expired := x.expired ++ [pos] })
  let mine := d.host.slots.filter fun e => e.2.withdrawable && (e.2.phase == .waiting || e.2.phase == .moving) && d.needsFollower pos e.2
  mine.foldl (fun d e => withdrawCmd e.1 stUnreachable d) d

/-- Cycles of the stroke clock in `DLK.HOLD.MS`. -/
def Dev.holdCycles (d : Dev) : Nat := usCycles (1000 * d.rd Fd.DLK_HOLD_MS)

/-- UNREACHABLE_HOLD_EXPIRY: due once the follower has been unreachable for `DLK.HOLD.MS`. -/
def unreachableHold (pos : Nat) (d : Dev) : Except String Dev :=
  match d.dlk.unreach.find? fun u => decide (u.1 = pos) with
  | some u => if u.2 + d.holdCycles ≤ d.now && pos ∉ d.dlk.expired then .ok (holdExpiry pos d) else .error "hold"
  | none => .error "hold"

def execUnreachableHoldExpiry (pos : Fin 4) (s : State) : Host.Outcome State Fault Refusal := onDev s (unreachableHold pos)

/-- FOLLOWER_RETURN: a follower whose start-up and replay have ended is admitted again, and every unanswered request goes to it again. -/
def followerReturn (pos : Nat) (d : Dev) : Dev :=
  let d := d.modDlk fun x => { x with
    unreach := x.unreach.filter fun u => u.1 ≠ pos, expired := x.expired.filter fun p => p ≠ pos, ready := listAdd x.ready pos }
  answerReady (resend (fun m => decide (m.pos = pos)) d)

def execFollowerReturn (pos : Fin 4) (s : State) : Host.Outcome State Fault Refusal :=
  onDev s fun d => onlyIf (decide (d.sys.role = 0) && d.dlk.unreach.any (fun u => decide (u.1 = pos.val)) && (d.dlkPort (d.portTo pos)).up) "follower"
    (followerReturn pos) d

end Sys2Proof.Machine
end

