-- ==== Sys2Proof/Machine/Dispatch.lean ====
section
/-! DEFINITION. One arm for each command: a call of its meaning, or a rejection by name. -/

namespace Sys2Proof.Machine

def exec (i : Instr) (s : State) : Host.Outcome State Fault Refusal :=
  match i with
  | .strokeBoundary obs => Sys2Proof.Machine.execStrokeBoundary obs s
  | .sheetBoundary obs => Sys2Proof.Machine.execSheetBoundary obs s
  | .strkLoad v cyc => Sys2Proof.Machine.execStrkLoad v cyc s
  | .countLoRead cyc => Sys2Proof.Machine.execCountLoRead cyc s
  | .strokePllUnlock cyc => Sys2Proof.Machine.execStrokePllUnlock cyc s
  | .strokePllRelock => Sys2Proof.Machine.execStrokePllRelock s
  | .hatchCtlArm ch v cyc => Sys2Proof.Machine.execHatchCtlArm ch v cyc s
  | .hatchArmCheckDone ch cyc => Sys2Proof.Machine.execHatchArmCheckDone ch cyc s
  | .hatchCtlDisarm ch v cyc => Sys2Proof.Machine.execHatchCtlDisarm ch v cyc s
  | .hatchCtlStop ch v cyc => Sys2Proof.Machine.execHatchCtlStop ch v cyc s
  | .hatchEntryWrite ch bankB k high v => Sys2Proof.Machine.execHatchEntryWrite ch bankB k high v s
  | .hatchSealWrite ch bankB v => Sys2Proof.Machine.execHatchSealWrite ch bankB v s
  | .registerWrite g addr v cyc => Sys2Proof.Machine.execRegisterWrite g addr v cyc s
  | .graverLoadStore g op comp cyc => Sys2Proof.Machine.execGraverLoadStore g op comp cyc s
  | .sqTailDoorbell f q v => Sys2Proof.Machine.execSqTailDoorbell f q v s
  | .cqHeadDoorbell f q v => Sys2Proof.Machine.execCqHeadDoorbell f q v s
  | .commandFetchIssue => Sys2Proof.Machine.execCommandFetchIssue s
  | .commandFetch f q idx sqe => Sys2Proof.Machine.execCommandFetch f q idx sqe s
  | .completionPost slot cyc => Sys2Proof.Machine.execCompletionPost slot cyc s
  | .paceExpiry slot cyc => Sys2Proof.Machine.execPaceExpiry slot cyc s
  | .createIoSq slot => Sys2Proof.Machine.execCreateIoSq slot s
  | .createIoCq slot => Sys2Proof.Machine.execCreateIoCq slot s
  | .deleteIoSq slot => Sys2Proof.Machine.execDeleteIoSq slot s
  | .deleteIoCq slot => Sys2Proof.Machine.execDeleteIoCq slot s
  | .getLogPage slot => Sys2Proof.Machine.execGetLogPage slot s
  | .identify slot => Sys2Proof.Machine.execIdentify slot s
  | .abortCmd slot => Sys2Proof.Machine.execAbortCmd slot s
  | .setFeatures slot => Sys2Proof.Machine.execSetFeatures slot s
  | .getFeatures slot => Sys2Proof.Machine.execGetFeatures slot s
  | .setFeaturesNumberOfQueues slot => Sys2Proof.Machine.execSetFeaturesNumberOfQueues slot s
  | .setFeaturesPowerManagement slot => Sys2Proof.Machine.execSetFeaturesPowerManagement slot s
  | .setFeaturesApst slot table => Sys2Proof.Machine.execSetFeaturesApst slot table s
  | .setFeaturesTimestamp slot ts => Sys2Proof.Machine.execSetFeaturesTimestamp slot ts s
  | .getFeaturesTimestamp slot => Sys2Proof.Machine.execGetFeaturesTimestamp slot s
  | .setFeaturesServiceState slot => Sys2Proof.Machine.execSetFeaturesServiceState slot s
  | .setFeaturesAsyncEventConfig slot => Sys2Proof.Machine.execSetFeaturesAsyncEventConfig slot s
  | .setFeaturesTempThreshold slot => Sys2Proof.Machine.execSetFeaturesTempThreshold slot s
  | .asynchronousEventRequest slot => Sys2Proof.Machine.execAsynchronousEventRequest slot s
  | .firmwareImageDownload slot data => Sys2Proof.Machine.execFirmwareImageDownload slot data s
  | .firmwareCommitReplace slot => Sys2Proof.Machine.execFirmwareCommitReplace slot s
  | .firmwareCommitReplaceActivate slot => Sys2Proof.Machine.execFirmwareCommitReplaceActivate slot s
  | .firmwareCommitActivate slot => Sys2Proof.Machine.execFirmwareCommitActivate slot s
  | .firmwareCommitActivateNow slot => Sys2Proof.Machine.execFirmwareCommitActivateNow slot s
  | .deviceSelfTestShort slot => Sys2Proof.Machine.execDeviceSelfTestShort slot s
  | .deviceSelfTestExtended slot => Sys2Proof.Machine.execDeviceSelfTestExtended slot s
  | .deviceSelfTestAbort slot => Sys2Proof.Machine.execDeviceSelfTestAbort slot s
  | .nvmeMiSend slot data => Sys2Proof.Machine.execNvmeMiSend slot data s
  | .nvmeMiReceive slot => Sys2Proof.Machine.execNvmeMiReceive slot s
  | .formatNvm slot => Sys2Proof.Machine.execFormatNvm slot s
  | .sanitize slot => Sys2Proof.Machine.execSanitize slot s
  | .jenamSend slot => Sys2Proof.Machine.execJenamSend slot s
  | .jenamReceive slot => Sys2Proof.Machine.execJenamReceive slot s
  | .flushCmd slot => Sys2Proof.Machine.execFlushCmd slot s
  | .writeCmd slot => Sys2Proof.Machine.execWriteCmd slot s
  | .readCmd slot => Sys2Proof.Machine.execReadCmd slot s
  | .writeZeroes slot => Sys2Proof.Machine.execWriteZeroes slot s
  | .verifyCmd slot => Sys2Proof.Machine.execVerifyCmd slot s
  | .zoneAppend slot => Sys2Proof.Machine.execZoneAppend slot s
  | .writeGrant => Sys2Proof.Machine.execWriteGrant s
  | .writeCommit slot => Sys2Proof.Machine.execWriteCommit slot s
  | .zoneOpen slot => Sys2Proof.Machine.execZoneOpen slot s
  | .zoneClose slot => Sys2Proof.Machine.execZoneClose slot s
  | .zoneFinish slot => Sys2Proof.Machine.execZoneFinish slot s
  | .zoneReset slot => Sys2Proof.Machine.execZoneReset slot s
  | .zoneOffline slot => Sys2Proof.Machine.execZoneOffline slot s
  | .zoneReground slot => Sys2Proof.Machine.execZoneReground slot s
  | .reportZones slot => Sys2Proof.Machine.execReportZones slot s
  | .reportZonePlacement slot => Sys2Proof.Machine.execReportZonePlacement slot s
  | .extendedReportZones slot => Sys2Proof.Machine.execExtendedReportZones slot s
  | .refoldCmd slot ranges => Sys2Proof.Machine.execRefoldCmd slot ranges s
  | .refoldStart => Sys2Proof.Machine.execRefoldStart s
  | .refoldCommit seq lost => Sys2Proof.Machine.execRefoldCommit seq lost s
  | .zoneReadOnlyEntry nsid z => Sys2Proof.Machine.execZoneReadOnlyEntry nsid z s
  | .dataAgeExpiry g r => Sys2Proof.Machine.execDataAgeExpiry g r s
  | .ccEnSet f asqs acqs => Sys2Proof.Machine.execCcEnSet f asqs acqs s
  | .ccEnClear f => Sys2Proof.Machine.execCcEnClear f s
  | .functionLevelReset f => Sys2Proof.Machine.execFunctionLevelReset f s
  | .vfEnableClear port => Sys2Proof.Machine.execVfEnableClear port s
  | .portLinkDown port => Sys2Proof.Machine.execPortLinkDown port s
  | .portLinkUp port flit rate width => Sys2Proof.Machine.execPortLinkUp port flit rate width s
  | .teardownDone f => Sys2Proof.Machine.execTeardownDone f s
  | .shutdownNotification f => Sys2Proof.Machine.execShutdownNotification f s
  | .ideIntegrityFailure port stream => Sys2Proof.Machine.execIdeIntegrityFailure port stream s
  | .portReset port => Sys2Proof.Machine.execPortReset port s
  | .perstRise port => Sys2Proof.Machine.execPerstRise port s
  | .doeDiscovery port index => Sys2Proof.Machine.execDoeDiscovery port index s
  | .spdmGetVersion port => Sys2Proof.Machine.execSpdmGetVersion port s
  | .spdmGetCapabilities port version => Sys2Proof.Machine.execSpdmGetCapabilities port version s
  | .spdmNegotiateAlgorithms port sig hash dhe aead => Sys2Proof.Machine.execSpdmNegotiateAlgorithms port sig hash dhe aead s
  | .spdmGetDigests port => Sys2Proof.Machine.execSpdmGetDigests port s
  | .spdmGetCertificate port cert off len => Sys2Proof.Machine.execSpdmGetCertificate port cert off len s
  | .spdmChallenge port cert nonce => Sys2Proof.Machine.execSpdmChallenge port cert nonce s
  | .spdmGetMeasurements port index sign nonce => Sys2Proof.Machine.execSpdmGetMeasurements port index sign nonce s
  | .spdmKeyExchange port cert nonce pub => Sys2Proof.Machine.execSpdmKeyExchange port cert nonce pub s
  | .spdmFinish port session mac => Sys2Proof.Machine.execSpdmFinish port session mac s
  | .spdmHeartbeat port session => Sys2Proof.Machine.execSpdmHeartbeat port session s
  | .spdmKeyUpdate port session op => Sys2Proof.Machine.execSpdmKeyUpdate port session op s
  | .spdmEndSession port session => Sys2Proof.Machine.execSpdmEndSession port session s
  | .fCfgTenantWrite v => Sys2Proof.Machine.execFCfgTenantWrite v s
  | .clsCfgWrite v => Sys2Proof.Machine.execClsCfgWrite v s
  | .descriptorRead ch g desc dev cyc => Sys2Proof.Machine.execDescriptorRead ch g desc dev cyc s
  | .descriptorProgram ch g desc dev cyc => Sys2Proof.Machine.execDescriptorProgram ch g desc dev cyc s
  | .descriptorErase ch g desc dev cyc => Sys2Proof.Machine.execDescriptorErase ch g desc dev cyc s
  | .descriptorProofRead ch g desc dev cyc => Sys2Proof.Machine.execDescriptorProofRead ch g desc dev cyc s
  | .descriptorStatus ch g desc dev cyc => Sys2Proof.Machine.execDescriptorStatus ch g desc dev cyc s
  | .descriptorReset ch g desc dev cyc => Sys2Proof.Machine.execDescriptorReset ch g desc dev cyc s
  | .decisionPoint ch slot poll => Sys2Proof.Machine.execDecisionPoint ch slot poll s
  | .preemptionPoint ch slot poll => Sys2Proof.Machine.execPreemptionPoint ch slot poll s
  | .readBurstEnd ch zeros drift => Sys2Proof.Machine.execReadBurstEnd ch zeros drift s
  | .loadBurstEnd ch => Sys2Proof.Machine.execLoadBurstEnd ch s
  | .pollFloorPass ch t cyc => Sys2Proof.Machine.execPollFloorPass ch t cyc s
  | .operationTimeout ch t cyc => Sys2Proof.Machine.execOperationTimeout ch t cyc s
  | .dieResetDone ch t cyc => Sys2Proof.Machine.execDieResetDone ch t cyc s
  | .seqCqHeadWrite ch v => Sys2Proof.Machine.execSeqCqHeadWrite ch v s
  | .blockStateWrite ch v => Sys2Proof.Machine.execBlockStateWrite ch v s
  | .dieRetire ch v => Sys2Proof.Machine.execDieRetire ch v s
  | .channelRetire ch v => Sys2Proof.Machine.execChannelRetire ch v s
  | .diePresentWrite ch v => Sys2Proof.Machine.execDiePresentWrite ch v s
  | .phyRetrain ch v => Sys2Proof.Machine.execPhyRetrain ch v s
  | .trainingEnd ch => Sys2Proof.Machine.execTrainingEnd ch s
  | .blockReplacement die => Sys2Proof.Machine.execBlockReplacement die s
  | .replacementSwitch die => Sys2Proof.Machine.execReplacementSwitch die s
  | .rowMigration g => Sys2Proof.Machine.execRowMigration g s
  | .migrationSwitch g => Sys2Proof.Machine.execMigrationSwitch g s
  | .rebuildSwitch g r m => Sys2Proof.Machine.execRebuildSwitch g r m s
  | .metadataCheckpoint => Sys2Proof.Machine.execMetadataCheckpoint s
  | .hardDecodeDone ch r cyc => Sys2Proof.Machine.execHardDecodeDone ch r cyc s
  | .softDecodeStart => Sys2Proof.Machine.execSoftDecodeStart s
  | .softDecodeDone dec r => Sys2Proof.Machine.execSoftDecodeDone dec r s
  | .deepEscalation => Sys2Proof.Machine.execDeepEscalation s
  | .deepDecodeDone esc r => Sys2Proof.Machine.execDeepDecodeDone esc r s
  | .escHeadWrite v => Sys2Proof.Machine.execEscHeadWrite v s
  | .parityOpen g job => Sys2Proof.Machine.execParityOpen g job s
  | .parityAdd g job => Sys2Proof.Machine.execParityAdd g job s
  | .parityClose g job => Sys2Proof.Machine.execParityClose g job s
  | .parityRecon g job => Sys2Proof.Machine.execParityRecon g job s
  | .parityDrop g job => Sys2Proof.Machine.execParityDrop g job s
  | .parityCancel g job => Sys2Proof.Machine.execParityCancel g job s
  | .parityContribution band => Sys2Proof.Machine.execParityContribution band s
  | .parityJobDone engine slot => Sys2Proof.Machine.execParityJobDone engine slot s
  | .parityJcqHeadWrite v => Sys2Proof.Machine.execParityJcqHeadWrite v s
  | .sramPatrol site found => Sys2Proof.Machine.execSramPatrol site found s
  | .stippleReadPost ch => Sys2Proof.Machine.execStippleReadPost ch s
  | .stippleLate ch => Sys2Proof.Machine.execStippleLate ch s
  | .stipUrgPost v => Sys2Proof.Machine.execStipUrgPost v s
  | .selftestRun v => Sys2Proof.Machine.execSelftestRun v s
  | .selftestDone fails => Sys2Proof.Machine.execSelftestDone fails s
  | .checkerRetest index unit step => Sys2Proof.Machine.execCheckerRetest index unit step s
  | .laneSectorStart lane cyc => Sys2Proof.Machine.execLaneSectorStart lane cyc s
  | .laneSectorDone lane cyc => Sys2Proof.Machine.execLaneSectorDone lane cyc s
  | .keyGenerate v => Sys2Proof.Machine.execKeyGenerate v s
  | .keyLoad v => Sys2Proof.Machine.execKeyLoad v s
  | .keyCmdPurge v => Sys2Proof.Machine.execKeyCmdPurge v s
  | .ciphEpochWrite v => Sys2Proof.Machine.execCiphEpochWrite v s
  | .nonceLoRead => Sys2Proof.Machine.execNonceLoRead s
  | .cipherJobEncrypt g job => Sys2Proof.Machine.execCipherJobEncrypt g job s
  | .cipherJobDecrypt g job => Sys2Proof.Machine.execCipherJobDecrypt g job s
  | .cipherJobDone lane => Sys2Proof.Machine.execCipherJobDone lane s
  | .dramTrain v => Sys2Proof.Machine.execDramTrain v s
  | .dramTrained obs => Sys2Proof.Machine.execDramTrained obs s
  | .dramInitDone => Sys2Proof.Machine.execDramInitDone s
  | .subchannelRetire v => Sys2Proof.Machine.execSubchannelRetire v s
  | .dramRequestAdmit port addr write whole => Sys2Proof.Machine.execDramRequestAdmit port addr write whole s
  | .throttleHoldEnd port sub bank => Sys2Proof.Machine.execThrottleHoldEnd port sub bank s
  | .dramReadReturn sub own other => Sys2Proof.Machine.execDramReadReturn sub own other s
  | .dramPatrolRead own other => Sys2Proof.Machine.execDramPatrolRead own other s
  | .dqsTracking sub => Sys2Proof.Machine.execDqsTracking sub s
  | .cellAllocRequest g v => Sys2Proof.Machine.execCellAllocRequest g v s
  | .cellAllocGrant => Sys2Proof.Machine.execCellAllocGrant s
  | .cellFree g v => Sys2Proof.Machine.execCellFree g v s
  | .cellSplice g v => Sys2Proof.Machine.execCellSplice g v s
  | .cellPoolEnable v => Sys2Proof.Machine.execCellPoolEnable v s
  | .cellPoolReady => Sys2Proof.Machine.execCellPoolReady s
  | .linkLoRead => Sys2Proof.Machine.execLinkLoRead s
  | .camSearchResult slot => Sys2Proof.Machine.execCamSearchResult slot s
  | .camResearch slot => Sys2Proof.Machine.execCamResearch slot s
  | .camInvalidate g v => Sys2Proof.Machine.execCamInvalidate g v s
  | .camWrite g v => Sys2Proof.Machine.execCamWrite g v s
  | .camValidate g v => Sys2Proof.Machine.execCamValidate g v s
  | .camRead g v => Sys2Proof.Machine.execCamRead g v s
  | .camSearch g v => Sys2Proof.Machine.execCamSearch g v s
  | .qpush g rd rs1 rs2 => Sys2Proof.Machine.execQpush g rd rs1 rs2 s
  | .qpop g rd rs1 => Sys2Proof.Machine.execQpop g rd rs1 s
  | .qwait g rd rs1 => Sys2Proof.Machine.execQwait g rd rs1 s
  | .qwaitg g rd rs1 => Sys2Proof.Machine.execQwaitg g rd rs1 s
  | .qwaitResume g irq => Sys2Proof.Machine.execQwaitResume g irq s
  | .watchdogExpiry g => Sys2Proof.Machine.execWatchdogExpiry g s
  | .graverPet g v => Sys2Proof.Machine.execGraverPet g v s
  | .grvCtlRun v => Sys2Proof.Machine.execGrvCtlRun v s
  | .grvCtlHalt v => Sys2Proof.Machine.execGrvCtlHalt v s
  | .grvCtlFail v => Sys2Proof.Machine.execGrvCtlFail v s
  | .grvCtlMlock v => Sys2Proof.Machine.execGrvCtlMlock v s
  | .graverMigrate v => Sys2Proof.Machine.execGraverMigrate v s
  | .measurementExtend v => Sys2Proof.Machine.execMeasurementExtend v s
  | .etchingStop e cause => Sys2Proof.Machine.execEtchingStop e cause s
  | .evNext g => Sys2Proof.Machine.execEvNext g s
  | .evNextReturn g => Sys2Proof.Machine.execEvNextReturn g s
  | .statRead g => Sys2Proof.Machine.execStatRead g s
  | .hatchPropose g => Sys2Proof.Machine.execHatchPropose g s
  | .lendPri g => Sys2Proof.Machine.execLendPri g s
  | .stipUrgent g => Sys2Proof.Machine.execStipUrgent g s
  | .logAppend g => Sys2Proof.Machine.execLogAppend g s
  | .etchExit g => Sys2Proof.Machine.execEtchExit g s
  | .jenamPacketComplete src packet => Sys2Proof.Machine.execJenamPacketComplete src packet s
  | .jenamReplySend v => Sys2Proof.Machine.execJenamReplySend v s
  | .getInfo buf => Sys2Proof.Machine.execGetInfo buf s
  | .getGeometry buf => Sys2Proof.Machine.execGetGeometry buf s
  | .tenCreate buf => Sys2Proof.Machine.execTenCreate buf s
  | .tenSet buf => Sys2Proof.Machine.execTenSet buf s
  | .tenDelete buf => Sys2Proof.Machine.execTenDelete buf s
  | .funcAssign buf => Sys2Proof.Machine.execFuncAssign buf s
  | .classSet buf => Sys2Proof.Machine.execClassSet buf s
  | .tenUsage buf => Sys2Proof.Machine.execTenUsage buf s
  | .nsCreate buf => Sys2Proof.Machine.execNsCreate buf s
  | .nsDelete buf => Sys2Proof.Machine.execNsDelete buf s
  | .nsAttach buf => Sys2Proof.Machine.execNsAttach buf s
  | .nsDetach buf => Sys2Proof.Machine.execNsDetach buf s
  | .nsSet buf => Sys2Proof.Machine.execNsSet buf s
  | .reserveSet buf => Sys2Proof.Machine.execReserveSet buf s
  | .handleSet buf => Sys2Proof.Machine.execHandleSet buf s
  | .hatchWrite buf => Sys2Proof.Machine.execHatchWrite buf s
  | .hatchArm buf => Sys2Proof.Machine.execHatchArm buf s
  | .hatchRead buf => Sys2Proof.Machine.execHatchRead buf s
  | .arbSet buf => Sys2Proof.Machine.execArbSet buf s
  | .keyExchange buf => Sys2Proof.Machine.execKeyExchange buf s
  | .keyImport buf => Sys2Proof.Machine.execKeyImport buf s
  | .keyPurge buf => Sys2Proof.Machine.execKeyPurge buf s
  | .keySet buf => Sys2Proof.Machine.execKeySet buf s
  | .dieHealth buf => Sys2Proof.Machine.execDieHealth buf s
  | .bbRecords buf => Sys2Proof.Machine.execBbRecords buf s
  | .rowInfo buf => Sys2Proof.Machine.execRowInfo buf s
  | .threshGet buf => Sys2Proof.Machine.execThreshGet buf s
  | .threshSet buf => Sys2Proof.Machine.execThreshSet buf s
  | .retireUnit buf => Sys2Proof.Machine.execRetireUnit buf s
  | .powerGet buf => Sys2Proof.Machine.execPowerGet buf s
  | .powerSet buf => Sys2Proof.Machine.execPowerSet buf s
  | .echo buf => Sys2Proof.Machine.execEcho buf s
  | .regRead buf => Sys2Proof.Machine.execRegRead buf s
  | .regWrite buf => Sys2Proof.Machine.execRegWrite buf s
  | .selftestGet buf => Sys2Proof.Machine.execSelftestGet buf s
  | .casTopology buf => Sys2Proof.Machine.execCasTopology buf s
  | .fwInfo buf => Sys2Proof.Machine.execFwInfo buf s
  | .ownerCertSet buf => Sys2Proof.Machine.execOwnerCertSet buf s
  | .ownerCertClear buf => Sys2Proof.Machine.execOwnerCertClear buf s
  | .etchStage buf => Sys2Proof.Machine.execEtchStage buf s
  | .etchLoad buf => Sys2Proof.Machine.execEtchLoad buf s
  | .etchUnload buf => Sys2Proof.Machine.execEtchUnload buf s
  | .etchStatus buf => Sys2Proof.Machine.execEtchStatus buf s
  | .setEndpointId i3c src tag op eid => Sys2Proof.Machine.execSetEndpointId i3c src tag op eid s
  | .getEndpointId i3c src tag => Sys2Proof.Machine.execGetEndpointId i3c src tag s
  | .getMctpVersionSupport i3c src tag kind => Sys2Proof.Machine.execGetMctpVersionSupport i3c src tag kind s
  | .getMessageTypeSupport i3c src tag => Sys2Proof.Machine.execGetMessageTypeSupport i3c src tag s
  | .getVendorDefinedMessageSupport i3c src tag sel => Sys2Proof.Machine.execGetVendorDefinedMessageSupport i3c src tag sel s
  | .readNvmeMiDataStructure i3c src tag dw0 dw1 => Sys2Proof.Machine.execReadNvmeMiDataStructure i3c src tag dw0 dw1 s
  | .nvmSubsystemHealthStatusPoll i3c src tag dw0 dw1 => Sys2Proof.Machine.execNvmSubsystemHealthStatusPoll i3c src tag dw0 dw1 s
  | .controllerHealthStatusPoll i3c src tag dw0 dw1 => Sys2Proof.Machine.execControllerHealthStatusPoll i3c src tag dw0 dw1 s
  | .configurationGet i3c src tag dw0 dw1 => Sys2Proof.Machine.execConfigurationGet i3c src tag dw0 dw1 s
  | .configurationSet i3c src tag dw0 dw1 => Sys2Proof.Machine.execConfigurationSet i3c src tag dw0 dw1 s
  | .vpdRead i3c src tag dw0 dw1 => Sys2Proof.Machine.execVpdRead i3c src tag dw0 dw1 s
  | .psEntryAttempt followers => Sys2Proof.Machine.execPsEntryAttempt followers s
  | .apstIdleExpiry port => Sys2Proof.Machine.execApstIdleExpiry port s
  | .wakeSource bit obs => Sys2Proof.Machine.execWakeSource bit obs s
  | .aonAlarm => Sys2Proof.Machine.execAonAlarm s
  | .clk32kStop => Sys2Proof.Machine.execClk32kStop s
  | .opTargetWrite v => Sys2Proof.Machine.execOpTargetWrite v s
  | .voltageConfirmed => Sys2Proof.Machine.execVoltageConfirmed s
  | .opTrimWrite point v => Sys2Proof.Machine.execOpTrimWrite point v s
  | .pmbusTransactionFail => Sys2Proof.Machine.execPmbusTransactionFail s
  | .thermalTrip => Sys2Proof.Machine.execThermalTrip s
  | .thermNFall => Sys2Proof.Machine.execThermNFall s
  | .powerOnReset => Sys2Proof.Machine.execPowerOnReset s
  | .coldReset obs => Sys2Proof.Machine.execColdReset obs s
  | .thrumluxStartup obs => Sys2Proof.Machine.execThrumluxStartup obs s
  | .admissionTimeout => Sys2Proof.Machine.execAdmissionTimeout s
  | .rstCtlCold v => Sys2Proof.Machine.execRstCtlCold v s
  | .pwrfailFall => Sys2Proof.Machine.execPwrfailFall s
  | .flushEnd us10 power => Sys2Proof.Machine.execFlushEnd us10 power s
  | .railFault => Sys2Proof.Machine.execRailFault s
  | .fatalStop => Sys2Proof.Machine.execFatalStop s
  | .daleskFlitReceive port flit => Sys2Proof.Machine.execDaleskFlitReceive port flit s
  | .daleskAckSend port => Sys2Proof.Machine.execDaleskAckSend port s
  | .daleskReplayTimeout port => Sys2Proof.Machine.execDaleskReplayTimeout port s
  | .daleskPortDown port => Sys2Proof.Machine.execDaleskPortDown port s
  | .daleskLaneFail port => Sys2Proof.Machine.execDaleskLaneFail port s
  | .daleskRequestReceive src id body => Sys2Proof.Machine.execDaleskRequestReceive src id body s
  | .followerUnreachable pos => Sys2Proof.Machine.execFollowerUnreachable pos s
  | .unreachableHoldExpiry pos => Sys2Proof.Machine.execUnreachableHoldExpiry pos s
  | .followerReturn pos => Sys2Proof.Machine.execFollowerReturn pos s
  | .pwrfailNRise => Sys2Proof.Machine.execPwrfailNRise s
  | .dataTransferError slot => Sys2Proof.Machine.execDataTransferError slot s
  | .writeDataArrival slot idx data => Sys2Proof.Machine.execWriteDataArrival slot idx data s
  | .daleskPortUp port width peer => Sys2Proof.Machine.execDaleskPortUp port width peer s
  | .vfEnableSet port n => Sys2Proof.Machine.execVfEnableSet port n s
  | .ideKmRequest port session stream go => Sys2Proof.Machine.execIdeKmRequest port session stream go s
  | .daleskResponseReceive src body => Sys2Proof.Machine.execDaleskResponseReceive src body s

end Sys2Proof.Machine
end

