-- ==== Sys2Proof/Safety.lean ====
section
/-! DEFINITION. The terms in which claims about the block are stated: a command that completes, a safe run, what a command leaves as it
was. -/

namespace Sys2Proof.Machine

/-- The outcome is a next state that meets `P`. -/
def Gives (o : Host.Outcome State Fault Refusal) (P : State → Prop) : Prop := ∃ t, o = .next t ∧ P t

/-- The outcome is the state `s` with a device that meets `P`: memory and the queue are as they were. -/
def GivesDev (o : Host.Outcome State Fault Refusal) (s : State) (P : Dev → Prop) : Prop :=
  ∃ d, o = .next { s with dev := d } ∧ P d

/-- The outcome is what `after` makes of the state `s` with a device that meets `P`. -/
def GivesThen (o : Host.Outcome State Fault Refusal) (s : State) (after : State → State) (P : Dev → Prop) : Prop :=
  ∃ d, o = .next (after { s with dev := d }) ∧ P d

/-- Slot `k` holds the command `x` of this kind and opcode, whose row has come; PS4's restore does not hold it back. -/
def Taken (d : Dev) (k : Nat) (admin : Bool) (op : Nat) (x : Slot) : Prop :=
  d.slot? k = some x ∧ x.is admin op = true ∧ x.pend = true ∧ d.restoreHolds x = false

/-- The command in slot `k` has its completion `c` due. -/
def Completes (d : Dev) (k : Nat) (c : Cpl) : Prop := ∃ y, d.slot? k = some y ∧ y.phase = .due ∧ y.cpl = some c

/-- What a post of the descriptor `x` by graver `g` on channel `n` leaves (R171, R193): refused where its die holds 32; taken as a
duplicate where its tag is live; else at the end of its die's queue, with the status of a faulty one noted. -/
def Posts (n g : Nat) (x : Desc) (dev : Bool) (d e : Dev) : Prop :=
  if (d.die n x.target).queued < 32 then
    e.rdx n g Fd.SEQ_POST_STAT_RESULT = 1 ∧
    ((x.tag = 0 ∨ (d.die n x.target).tagLive x.tag = false ∧ (d.die n x.target).doneTag x.tag = none) →
      (e.die n x.target).queue = (d.die n x.target).queue ++
        [{ desc := x, dev := dev, bad := faultOf (d.chan n) (d.die n x.target) x }]) ∧
    ((d.chan n).retired = false → (d.die n x.target).st ≠ .retired → x.tag ≠ 0 → (d.die n x.target).tagLive x.tag = true →
      e.rdc n Fd.SEQ_EVT_DUP = 1 ∧ (e.die n x.target).queue.length = (d.die n x.target).queue.length)
  else e.rdx n g Fd.SEQ_POST_STAT_RESULT = 2 ∧ e.chans = d.chans

/-- The completion `c` of command `x` in slot `k` is written (R81, R85): its entry goes to the CQ of its SQ with the SQ's head, the phase
tag and the command identifier, the vector is signalled where the CQ has one enabled, and the slot is free. -/
def Writes (k : Nat) (x : Slot) (c : Cpl) (cqid : Nat) (cq : Cq) (d e : Dev) : Prop :=
  e.slot? k = none ∧
  e.out = (if cq.ien then [.msix x.fn cq.vector] else []) ++
    .cqe x.fn cqid cq.tail [c.dw0, c.dw1,
      BitVec.ofNat 32 (x.qid * 65536 + match mapFind (d.func x.fn).sqs x.qid with | some sq => sq.head | none => 0),
      BitVec.ofNat 32 (c.field cq.phase * 65536 + x.sqe.cid.toNat)] :: d.out

/-- The CQ that completes the commands of SQ `q` of function `f`, with its state. -/
def CqOf (d : Dev) (f q cqid : Nat) (cq : Cq) : Prop :=
  ∃ sq, mapFind (d.func f).sqs q = some sq ∧ sq.cq = cqid ∧ mapFind (d.func f).cqs cqid = some cq

/-- The descriptor with an operation code of Table 6-5. -/
def postedAs (op : Nat) (x : Desc) : Desc := { x with d0 := BitVec.ofNat 32 (setBits x.d0.toNat 31 28 op) }

/-- What request `r`, granted command slot `i` of channel `n`, holds the bus with. -/
def Dev.holds (d : Dev) (n i : Nat) (r : Req) (p : PollResult) : Holder :=
  { req := { r with wait := 0, forced := false }
    first := (d.chan n).rate.firstCw i
    len := r.len
    endC := if r.len = 0 then (d.chan n).rate.cmdStart i + 16 else (d.chan n).rate.cwEnd ((d.chan n).rate.firstCw i + r.len - 1)
    moving := r.kind == .load || (r.kind == .readOut && p.ready)
    owned := (d.chan n).ownsStroke r.cls }

/-- The read or write `x` in slot `k` is taken up in its turn; no fence, no deferred error and no check of its fields holds or ends it
(R88, R89, R98, R119). -/
def IoReady (d : Dev) (k op : Nat) (x : Slot) (ns : Ns) : Prop :=
  Taken d k false op x ∧ d.outOfOrder x = false ∧ (x.phase = .waiting → x.total = 0 ∨ x.sqe.op = 0x02 ∨ x.sqe.op = 0x0C) ∧
  d.nsOf x.fn x.sqe.nsid.toNat = some ns ∧ d.atFence x = false ∧ d.mustDeliver x = none ∧ Dev.ioRefusal ns x.sqe = none

/-- Nothing of a follower holds or ends the read, and its dies have room for its descriptors (R91, R467). -/
def Dev.readable (d : Dev) (x : Sqe) (ns : Ns) : Prop :=
  (d.sources x ns).any (Source.goneAt d) = false ∧ (d.sources x ns).any (Source.lostAt d) = false ∧ d.partsFit (readParts 0 (d.sources x ns)) = true

/-- A read of namespace `n` has been served: its counts have risen. -/
def Dev.readServed (d : Dev) (n nlb : Nat) (ns : Ns) : Prop :=
  ∃ y, d.ns? n = some y ∧ y.reads = ns.reads + 1 ∧ y.sectorsRead = ns.sectorsRead + nlb

/-- The Zone Management Send with this action in slot `k` addresses one zone of its namespace, and no earlier command, mark, fence or
hold keeps it waiting (R89, R112, R115, R122, R136). -/
def SendReady (d : Dev) (k zsa : Nat) (x : Slot) (ns : Ns) : Prop :=
  Taken d k false 0x79 x ∧ bits x.sqe.cdw13.toNat 7 0 = zsa ∧ d.nsOf x.fn x.sqe.nsid.toNat = some ns ∧ ns.zoned = true ∧
  bit x.sqe.cdw13.toNat 8 = false ∧ sqeZone x.sqe < ns.zones ∧ x.sqe.slba % zoneSpan = 0 ∧
  d.atFence x = false ∧ d.zoneBusy x.sqe.nsid.toNat (sqeZone x.sqe) = false ∧ d.behindAny x x.sqe.nsid.toNat (sqeZone x.sqe) = false ∧
  d.behindMark x x.sqe.nsid.toNat (sqeZone x.sqe) = false ∧
  ((d.zone x.sqe.nsid.toNat (sqeZone x.sqe)).st = .empty →
    d.is Fd.ZONE_CTL_BIND_HOLD = false ∧ d.zoneEntryRoom x.sqe.nsid.toNat (sqeZone x.sqe) = true)

/-- The states between which a Zone Management Send moves one zone (Table 4-2). -/
def sendMoves (k : Fin 131072) : List (Nat × Instr × ZoneState × ZoneState) :=
  [(1, .zoneClose k, .implOpen, .closed), (1, .zoneClose k, .explOpen, .closed), (2, .zoneFinish k, .implOpen, .full),
   (2, .zoneFinish k, .explOpen, .full), (2, .zoneFinish k, .closed, .full), (3, .zoneOpen k, .closed, .explOpen),
   (3, .zoneOpen k, .implOpen, .explOpen), (3, .zoneOpen k, .explOpen, .explOpen), (4, .zoneReset k, .implOpen, .empty),
   (4, .zoneReset k, .explOpen, .empty), (4, .zoneReset k, .closed, .empty), (4, .zoneReset k, .full, .empty),
   (5, .zoneOffline k, .readOnly, .offline)]

/-- The six Sends with their actions. -/
def sends (k : Fin 131072) : List (Nat × Instr) :=
  [(1, .zoneClose k), (2, .zoneFinish k), (3, .zoneOpen k), (4, .zoneReset k), (5, .zoneOffline k), (0x80, .zoneReground k)]

/-- The mailbox of a port's PF: the port is there and its link is up (R70). -/
def Dev.mailbox (d : Dev) (p : Nat) : Prop := d.hasPort p = true ∧ (d.port p).up = true

/-- The device answers a request object with a response of this code (Table 3-2). -/
def Answers (p code : Nat) (xs : List Nat) (d e : Dev) : Prop := e.out = .doe p (Config.encode (0x1200 + code) xs) :: d.out

/-- The connection has negotiated algorithms, these among them. -/
def Dev.agreed (d : Dev) (p : Nat) (algs : List Nat) : Prop := (d.spdm p).algs = true ∧ ∀ a ∈ algs, bit (d.spdm p).chosen a = true

/-- Inside session `n` with keys `x` the device answers with a response of this code, sealed under its key (Table 3-2). -/
def AnswersIn (p n code : Nat) (xs : List Nat) (x : SpdmKeys) (d e : Dev) : Prop :=
  e.out = .doe p (Config.encode 0x1300 [n, Config.gcmText x.sendKey x.rspGen (Config.encode (0x1200 + code) xs).length
    (leNat (Config.encode (0x1200 + code) xs))]) :: d.out

/-- Buffer `buf` holds the request whose turn it is, of opcode `op` with parameters `p`; it is for this device and not refused beforehand
(R391, R395). -/
def JenamReady (s : State) (buf op : Nat) (b : JBuf) (p : List Byte) : Prop :=
  s.dev.jenamTurn = some b ∧ b.buf = buf ∧ jOp b.packet = op ∧ s.dev.jRefusal b.packet = none ∧ jDev b.packet = s.dev.sys.role ∧
  jParams b.packet = p

/-- `t` with request `b` answered: the reply stands over the request, and the turns that come after it are settled (R391, R401). -/
def jenamDone (b : JBuf) (st : Nat) (ps : List Byte) (t : State) : State := settleTurns 33 (putReply b (jReply b.packet st ps false) t)

/-- The outcome is that request `b` is answered with a status and parameters, after its effect left a state that meets `P`. -/
def Replies (o : Host.Outcome State Fault Refusal) (b : JBuf) (st : Nat) (ps : List Byte) (P : State → Prop) : Prop :=
  ∃ t, o = .next (jenamDone b st ps t) ∧ P t
/-- From `s`, every command that waits completes, one after the other. -/
def runsSafely : Nat → State → Prop
  | 0, _ => True
  | k + 1, s => Gives (step s) (runsSafely k)

/-- The parts of the state beside the register file and the queue. -/
inductive Part where
  | nfree | bus | strk | chans | media | ecc | par | stip | ciph | dram | pool | host | zm | med | cam | grv | jnm | pwr | nvm | sys | dlk | out | mem
  deriving DecidableEq, Repr

/-- A part is the same in both states. -/
def Part.same (p : Part) (s t : State) : Prop :=
  match p with
  | .nfree => t.dev.nfree = s.dev.nfree
  | .bus => t.dev.bus = s.dev.bus
  | .strk => t.dev.strk = s.dev.strk
  | .chans => t.dev.chans = s.dev.chans
  | .media => t.dev.media = s.dev.media
  | .ecc => t.dev.ecc = s.dev.ecc
  | .par => t.dev.par = s.dev.par
  | .stip => t.dev.stip = s.dev.stip
  | .ciph => t.dev.ciph = s.dev.ciph
  | .dram => t.dev.dram = s.dev.dram
  | .pool => t.dev.pool = s.dev.pool
  | .host => t.dev.host = s.dev.host
  | .zm => t.dev.zm = s.dev.zm
  | .med => t.dev.med = s.dev.med
  | .cam => t.dev.cam = s.dev.cam
  | .grv => t.dev.grv = s.dev.grv
  | .jnm => t.dev.jnm = s.dev.jnm
  | .pwr => t.dev.pwr = s.dev.pwr
  | .nvm => t.dev.nvm = s.dev.nvm
  | .sys => t.dev.sys = s.dev.sys
  | .dlk => t.dev.dlk = s.dev.dlk
  | .out => t.dev.out = s.dev.out
  | .mem => t.mem = s.mem

/-- `t` differs from `s` at most in the parts `ps` and in the registers `rs`: every other part, every other register (each of its copies,
of every channel) and the queue are as they were. -/
def Frame (ps : List Part) (rs : List RegDef) (s t : State) : Prop :=
  t.pending = s.pending ∧ (∀ p, p ∉ ps → p.same s t) ∧
    ∀ r, (∀ q ∈ rs, q.num % 512 ≠ r.num % 512) → ∀ n i, t.dev.regGet r n i = s.dev.regGet r n i

/-- As `Frame`, for a command that may store any register. -/
def PartFrame (ps : List Part) (s t : State) : Prop := t.pending = s.pending ∧ ∀ p, p ∉ ps → p.same s t

end Sys2Proof.Machine
end

