-- ==== Sys2Proof/WellFormed.lean ====
section
/-! DEFINITION. The bounds on a command's operands that the spec gives and their types do not: lengths of lists and ranges of
numbers. A meaning does not lean on them: on an ill-formed command it stops, or treats what lies outside as absent. -/

namespace Sys2Proof

/-- Bit errors and zero bits of a codeword lie within its 4,608 bytes (R247). -/
def DecodeResult.wellFormed (r : DecodeResult) : Bool := decide (r.errs ≤ 36864) && decide (r.zeros ≤ 36864)

/-- The units of a checker of Table 9-10: 64 gravers (index 63), 48 channels (65), 32 keep banks (66), 48 lanes (67), banks of
shared SRAM (61) and of the other memories (62); one otherwise. -/
def checkerUnits (i : Nat) : Nat :=
  if i = 63 then 64 else if i = 65 ∨ i = 67 then 48 else if i = 66 then 32 else if i = 61 ∨ i = 62 then 64 else 1

/-- A checker that failed names a unit it has. -/
def CheckFail.wellFormed (c : CheckFail) : Bool := decide (c.unit < checkerUnits c.index)

/-- The operands of a command are in the ranges the spec gives: 32 entries of an APST table (R410), whole dwords of an image, a Jenam
packet of at most 65,536 bytes (R384), no more ranges than NR can count (R134), no more codewords than a burst carries (Table 7-1). -/
def Instr.wellFormed : Instr → Bool
  | .setFeaturesApst _ table => decide (table.length = 32)
  | .firmwareImageDownload _ data => decide (data.length % 4 = 0) && decide (0 < data.length)
  | .jenamPacketComplete _ packet => decide (packet.length ≤ 65536)
  | .refoldCmd _ ranges => decide (ranges.length < 4096)
  | .readBurstEnd _ zeros _ => decide (zeros.length ≤ 4)
  | .hardDecodeDone _ r _ => r.wellFormed
  | .softDecodeDone _ r => r.wellFormed
  | .deepDecodeDone _ r => r.wellFormed
  | .selftestDone fails => fails.all CheckFail.wellFormed
  | .thrumluxStartup obs => obs.fails.all CheckFail.wellFormed
  | .checkerRetest index unit _ => decide (unit < checkerUnits index)
  | .psEntryAttempt followers => !followers.contains 0
  | _ => true

end Sys2Proof
end

