-- ==== Sys2Proof/Certificates/Slice0/Obligations.lean ====
section
/-! DEFINITION. The statements about the block, each said to hold. -/

open Sys2Proof Sys2Proof.Machine

/-- A step takes the command at the front of the queue and answers what exec answers for it on the rest (log entry 1). -/
def Obligations.StepRunsFront : Prop := ∀ c s, step { s with pending := c :: s.pending } = exec c s

/-- On an empty queue the block idles: the model's choice (log entry 1), since every effect of time is a row of the table. -/
def Obligations.EmptyQueueIdles : Prop := ∀ s, s.pending = [] → step s = .next s

/-- Every step takes one command off the queue and adds none. -/
def Obligations.StepsTakeOneCommand : Prop := ∀ s t, step s = .next t → t.pending = s.pending.tail

/-- After reset every register reads its reset value (the copies of Tables 9-9, 11-3, 13-10 and 5-6 each their own), nothing waits, memory
lists nothing. The reset value of a register whose table gives none is the model's (log entry 4). -/
def Obligations.ResetLeaves : Prop :=
  (∀ r n i, State.reset.dev.regGet r n i = r.resetWord i % 2 ^ 32) ∧
  State.reset.pending = [] ∧ State.reset.mem = [] ∧
  (∀ f v, (f, v) ∈ [(Fd.SYS_IDENT_VENDOR, 0x5658), (Fd.CAM_PART_ZONE_MAX, 0x1000), (Fd.CAM_RATE_B0, 16), (Fd.CAM_RATE_B3, 4)] →
    State.reset.dev.rd f = v) ∧
  State.reset.dev.rdb 60 Fd.LDPC_LB_CFG_DRAIN + 65536 * State.reset.dev.rdb 60 Fd.LDPC_LB_CFG_THRESH = bucketReset 60 ∧
  State.reset.dev.rdc 47 Fd.CARB_WAIT_LIMIT_LIMIT = 0x20

/-- Memory after reset is in its canonical form. -/
def Obligations.ResetMemoryCanonical : Prop := Memory.wf State.reset.mem = true

/-- Every step keeps the canonical form of memory: addresses strictly rising, no byte equal to what an unlisted address reads as (R27). -/
def Obligations.StepsKeepMemoryCanonical : Prop :=
  ∀ s t, Memory.wf s.mem = true → step s = .next t → Memory.wf t.mem = true

/-- Bands and die groups (R18): band b holds channels 16 b to 16 b + 15; die group g holds the 16 dies at target g mod 32 on the channels of
band g div 32; the member index is the channel less 16 b. -/
def Obligations.BandsAndGroups : Prop :=
  (∀ b c, b < 3 → c < 48 → (bandOf c = b ↔ 16 * b ≤ c ∧ c ≤ 16 * b + 15)) ∧
  (∀ g c t, g < 96 → c < 48 → t < 32 → (groupOf c t = g ↔ t = g % 32 ∧ bandOf c = g / 32)) ∧
  (∀ g m c, g < 96 → c < 48 → (m < 16 ∧ memberChan g m = c ↔ bandOf c = g / 32 ∧ c = 16 * (g / 32) + m ∧ m = c - 16 * bandOf c))

/-- The entries of the CAM stand at rising indexes. -/
def Obligations.CamEntriesRise : Prop :=
  ∀ (c : Cam) i e, mapWf CamEntry.free c.entries = true → mapWf CamEntry.free (c.setEntry i e).entries = true ∧
    (c.setEntry i e).entry i = e ∧ ∀ j, j ≠ i → (c.setEntry i e).entry j = c.entry j

/-- The winner of a search (R344): a matching entry of the highest priority, the lowest index among those, MULTI set where there are several.
No winner where nothing matches. The entries are at rising indexes, as CamEntriesRise keeps them. -/
def Obligations.CamWinner : Prop :=
  ∀ (d : Dev) key, mapWf CamEntry.free d.cam.entries = true →
    let matching := d.cam.entries.filter fun e => !d.segOff (e.1 / 4096) && e.2.hits key
    match d.camSearch key with
    | none => matching = []
    | some h => ∃ e ∈ matching, e.1 = h.index ∧ e.2.rank = h.pri ∧ e.2.poison = h.poison ∧ (∀ x ∈ matching, x.2.rank ≤ h.pri) ∧
        (∀ x ∈ matching, x.2.rank = h.pri → h.index ≤ x.1) ∧
        (h.multi = true ↔ ∃ x ∈ matching, x.2.rank = h.pri ∧ x.1 ≠ h.index)

/-- A bank's entries (R30): a register write at a bank's base + 8 k writes bits [31:0] of entry k of an unlocked bank, at + 4 its bits
[63:32]; a read there answers them, the reserved bits [56:32] as zero (Table 2-3). -/
def Obligations.BankEntriesLie : Prop :=
  ∀ (g : Fin 64) (a : BitVec 40) v cyc s ch k (b hi : Bool), ch < 48 → k < 256 →
    a.toNat = 0x201000000 + 0x10000 * ch + (if b then 0x4800 else 0x4000) + 8 * k + (if hi then 4 else 0) →
    readControl g a.toNat s.dev = (if hi then bits ((s.dev.chan ch).bankEntry b k).toNat 63 57 * 2 ^ 25
      else bits ((s.dev.chan ch).bankEntry b k).toNat 31 0, s.dev) ∧
    ((s.dev.chan ch).bankLocked b = false → ∃ d, (exec (.registerWrite g a v cyc) s) = .next { s with dev := d } ∧ (
      d.bus = { data := 0, err := false } ∧ bits ((d.chan ch).bankEntry b k).toNat 31 0 =
        (if hi then bits ((s.dev.chan ch).bankEntry b k).toNat 31 0 else v.toNat) ∧
      bits ((d.chan ch).bankEntry b k).toNat 63 32 = (if hi then v.toNat else bits ((s.dev.chan ch).bankEntry b k).toNat 63 32) ∧
      ∀ b' k', (b', k') ≠ (b, k) → (d.chan ch).bankEntry b' k' = (s.dev.chan ch).bankEntry b' k'))

/-- Offsets that hold no register (R9): a read there answers 0, a write is ignored, neither is a bus error. -/
def Obligations.HolesIgnored : Prop :=
  ∀ (g : Fin 64) (a : BitVec 40) v cyc s, regionOf s.dev.dram.mib a.toNat = .control → a.toNat % 4 = 0 →
    bankAt a.toNat = none → regAt a.toNat = none →
    readControl g a.toNat s.dev = (0, s.dev) ∧
    ∃ d, (exec (.registerWrite g a v cyc) s) = .next { s with dev := d } ∧ (d.bus = { data := 0, err := false } ∧
      d = { s.dev.atCycle cyc with bus := d.bus })

/-- A write of a plain register (R13): a reserved encoding leaves an RW field as it was, the other fields written take effect: RW fields take
their bits, W1C fields lose the bits written as 1, every other field stays. -/
def Obligations.FieldsTakeLegalValues : Prop :=
  ∀ (g : Fin 64) (a : BitVec 40) (v : Word) cyc s r, regionOf s.dev.dram.mib a.toNat = .control → a.toNat % 4 = 0 → bankAt a.toNat = none →
    regAt a.toNat = some r → winOf r.addr < 0x100 → r.rsvSet v.toNat = false → s.dev.fixed (chanOfAddr a.toNat) r.addr = none →
    Dev.acts g r.addr v.toNat = none → actsWide r.addr v.toNat = none →
    ∃ d, (exec (.registerWrite g a v cyc) s) = .next { s with dev := d } ∧ (d.bus = { data := 0, err := false } ∧ ∀ f ∈ r.fields,
      let i := s.dev.copyOf (chanOfAddr a.toNat) g r
      let x := bits v.toNat f.hi f.lo
      let old := s.dev.rdx 0 i ⟨r, f.hi, f.lo⟩
      d.rdx 0 i ⟨r, f.hi, f.lo⟩ = match f.acc with
        | .rw => (match f.range with
          | some (lo, hi) => if lo ≤ x ∧ x ≤ hi then x else old
          | none => x)
        | .w1c => old - (old &&& x)
        | _ => old)

/-- An access of the wrong kind (R8): a register write that is not aligned to 4 bytes, or lies in no region or in the boot ROM, is a bus
error and changes nothing else. -/
def Obligations.BadAddressesErr : Prop :=
  ∀ (g : Fin 64) (a : BitVec 40) v cyc s,
    (regionOf s.dev.dram.mib a.toNat = .control ∧ a.toNat % 4 ≠ 0 ∨ regionOf s.dev.dram.mib a.toNat = .unmapped ∨
      regionOf s.dev.dram.mib a.toNat = .bootRom) →
    exec (.registerWrite g a v cyc) s = .next (s.modDev (busAnswer 0 true))

/-- A handle whose groups hold no free reserved row (R111): with SPILL the zone is bound as with handle 0; without, Zone Open completes with
Placement Exhausted, the zone stays Empty and `ZONE.EVT.EXHAUSTED` is set. -/
def Obligations.ExhaustedHandle : Prop :=
  ∀ (k : Fin 131072) s x ns hd, SendReady s.dev k 3 x ns → (s.dev.zone x.sqe.nsid.toNat (sqeZone x.sqe)).st = .empty →
    x.sqe.handle ≠ 0 → mapFind ns.handles x.sqe.handle = some hd → s.dev.activeOf x.sqe.nsid.toNat < ns.limit →
    (∀ g ∈ hd.groups, s.dev.freeReserved x.sqe.nsid.toNat ns g = 0) →
    (hd.spill = true → s.dev.bindCheck x.sqe.nsid.toNat ns x.sqe.handle = s.dev.bindCheck x.sqe.nsid.toNat ns 0) ∧
    (hd.spill = true → ∀ r, s.dev.bindCheck x.sqe.nsid.toNat ns 0 = .ok r → ∃ d, (exec (.zoneOpen k) s) = .next { s with dev := d } ∧ (
      Completes d k success ∧ (d.zone x.sqe.nsid.toNat (sqeZone x.sqe)).row = some r)) ∧
    (hd.spill = false → ∃ d, (exec (.zoneOpen k) s) = .next { s with dev := d } ∧ (Completes d k (stVendor 0xC1) ∧
      (d.zone x.sqe.nsid.toNat (sqeZone x.sqe)).st = .empty ∧ d.rd Fd.ZONE_EVT_EXHAUSTED = 1))

/-- The stroke counter (R35 to R37, Tables 2-10 to 2-17): within a sheet a boundary adds 1 to the count and starts CYCLE again; at a sheet
boundary a pending load takes effect, and without one the count goes on, no load staying pending but one that start-up asks for there; loss of lock freezes the count and sets UNLOCK, `SYS.FAULT` bit 0
and lays scheduling aside on every channel; relock goes on from the held count with CYCLE 0; a write of `STRK.CTL` with LOAD samples the
sheet registers unless a load is pending; a read of COUNT_LO answers the low half and latches the high half. -/
def Obligations.StrokeCounterMoves : Prop :=
  (∀ obs s, s.dev.boundaryDue = true → s.dev.strk.started = true → s.dev.stroke ≠ 255 → s.dev.strk.load = none →
    ∃ t, (exec (.strokeBoundary obs) s) = .next t ∧ (
      t.dev.strk = { s.dev.strk with count := (s.dev.strk.count + 1) % 2 ^ 64, cycle := 0, ran := s.dev.strk.ran + 1 } ∧ t.pending = s.pending)) ∧
  (∀ obs s, s.dev.boundaryDue = true → s.dev.strk.started = true → s.dev.stroke = 255 →
    ∃ t, (exec (.sheetBoundary obs) s) = .next t ∧ (
      t.dev.strk.cycle = 0 ∧ t.pending = s.pending ∧
      ((∀ x, (sheetActs s.dev).sys.stage ≠ .starting x .training) → t.dev.strk.load = none) ∧
      t.dev.strk.count = match s.dev.strk.load with
        | none => (s.dev.strk.count + 1) % 2 ^ 64
        | some v => v * 256)) ∧
  (∀ cyc s, s.dev.strk.lock = true → ∃ d, (exec (.strokePllUnlock cyc) s) = .next { s with dev := d } ∧ (
    d.strk.lock = false ∧ d.strk.count = s.dev.strk.count ∧ d.rd Fd.STRK_STAT_UNLOCK = 1 ∧ d.rd Fd.SYS_FAULT_UNLOCK = 1 ∧
      d.pwr.synch = true)) ∧
  (∀ s, s.dev.rd Fd.SYS_FAULT_UNLOCK = 1 → ∃ d, (exec .strokePllRelock s) = .next { s with dev := d } ∧ (
    d.strk = { s.dev.strk with lock := true, cycle := 0, ran := s.dev.strk.ran + 1 } ∧ d.rd Fd.SYS_FAULT_UNLOCK = 0)) ∧
  (∀ v cyc s, bits v.toNat 31 3 = 0 → ∃ d, (exec (.strkLoad v cyc) s) = .next { s with dev := d } ∧ (
    d.strk.load = (s.dev.strk.load.orElse fun _ =>
      some (s.dev.rd Fd.STRK_LOAD_LO_SHEET_LO + s.dev.rd Fd.STRK_LOAD_HI_SHEET_HI * 2 ^ 32)) ∧
    d.strk.count = s.dev.strk.count ∧ d.rd Fd.STRK_CTL_SHEET_IE = bits v.toNat 0 0)) ∧
  (∀ cyc s, ∃ d, (exec (.countLoRead cyc) s) = .next { s with dev := d } ∧ (
    d.bus.data.toNat = bits s.dev.strk.count 31 0 ∧ d.strk.hi = bits s.dev.strk.count 63 32 ∧ d.strk.count = s.dev.strk.count))

/-- Hatch requests (R53 to R58, R493, Table 2-6): an ARM with no request pending takes up a request whose bank is the one not live while the
channel is active, else BANK, and whose target is the next sheet with ANYSHEET, else ARM_SHEET; the check accepts a request with no fault, or
drops it with the flag of every fault it found; DISARM withdraws a request; STOP withdraws it and, while the channel is active and no stop
waits, waits for the next sheet boundary. -/
def Obligations.HatchRequestsAct : Prop :=
  (∀ ch v cyc s, bits v.toNat 31 7 = 0 → bit v.toNat 1 = false → bit v.toNat 2 = false →
    (s.dev.chan ch).arm = none → (s.dev.chan ch).stop = none →
    ∃ d, (exec (.hatchCtlArm ch v cyc) s) = .next { s with dev := d } ∧ (
      d.chan ch = { s.dev.chan ch with arm := (d.chan ch).arm } ∧ (d.chan ch).arm = some
      { bank := if (s.dev.chan ch).active then !(s.dev.chan ch).live else bit v.toNat 4,
        target := if bit v.toNat 3 then .any (s.dev.atCycle cyc).sheetTooNear else .sheet (s.dev.rdc ch Fd.HATCH_ARM_SHEET_SHEET),
        checking := true,
        writtenT := (s.dev.atCycle cyc).now,
        late := !bit v.toNat 3 && (s.dev.atCycle cyc).armLate (s.dev.rdc ch Fd.HATCH_ARM_SHEET_SHEET) })) ∧
  (∀ ch cyc s r, (s.dev.chan ch).arm = some r → r.checking = true → r.writtenT ≤ (s.dev.atCycle cyc).now →
    (s.dev.atCycle cyc).now ≤ r.writtenT + 256 →
    ∃ d, (exec (.hatchArmCheckDone ch cyc) s) = .next { s with dev := d } ∧ (
      if (s.dev.chan ch).noCal r.bank || (s.dev.chan ch).rsvSet r.bank || r.late then
        d.chan ch = { s.dev.chan ch with arm := none } ∧
        d.rdc ch Fd.HATCH_STAT_NOCAL = (if (s.dev.chan ch).noCal r.bank then 1 else s.dev.rdc ch Fd.HATCH_STAT_NOCAL) ∧
        d.rdc ch Fd.HATCH_STAT_RSVBIT = (if (s.dev.chan ch).rsvSet r.bank then 1 else s.dev.rdc ch Fd.HATCH_STAT_RSVBIT) ∧
        d.rdc ch Fd.HATCH_STAT_LATE = (if r.late then 1 else s.dev.rdc ch Fd.HATCH_STAT_LATE)
      else d.chan ch = { s.dev.chan ch with arm := some { r with checking := false } } ∧ d.regs = s.dev.regs)) ∧
  (∀ ch v cyc s, bits v.toNat 31 7 = 0 → bit v.toNat 0 = false → bit v.toNat 2 = false →
    ∃ d, (exec (.hatchCtlDisarm ch v cyc) s) = .next { s with dev := d } ∧ (d.chan ch = { s.dev.chan ch with arm := none })) ∧
  (∀ ch v cyc s, bits v.toNat 31 7 = 0 → bit v.toNat 0 = false →
    ∃ d, (exec (.hatchCtlStop ch v cyc) s) = .next { s with dev := d } ∧ (d.chan ch = { s.dev.chan ch with
      arm := none
      stop := if (s.dev.chan ch).active && (s.dev.chan ch).stop.isNone then some (s.dev.atCycle cyc).sheetTooNear
        else (s.dev.chan ch).stop }))

/-- Descriptors (R171, R173, R193, Table 6-5): a write of SEQ_POST_D7 posts the staged descriptor with the operation its row names. -/
def Obligations.PostsAct : Prop :=
  (∀ ch g x dev cyc s, ∃ d, (exec (.descriptorRead ch g x dev cyc) s) = .next ((afterChan ch) { s with dev := d }) ∧ ((Posts ch g (postedAs 1 x) dev s.dev) d)) ∧
  (∀ ch g x dev cyc s, ∃ d, (exec (.descriptorProgram ch g x dev cyc) s) = .next ((afterChan ch) { s with dev := d }) ∧ ((Posts ch g (postedAs 2 x) dev s.dev) d)) ∧
  (∀ ch g x dev cyc s, ∃ d, (exec (.descriptorErase ch g x dev cyc) s) = .next ((afterChan ch) { s with dev := d }) ∧ ((Posts ch g (postedAs 3 x) dev s.dev) d)) ∧
  (∀ ch g x dev cyc s, ∃ d, (exec (.descriptorProofRead ch g x dev cyc) s) = .next ((afterChan ch) { s with dev := d }) ∧ ((Posts ch g (postedAs 4 x) dev s.dev) d)) ∧
  (∀ ch g x dev cyc s, ∃ d, (exec (.descriptorStatus ch g x dev cyc) s) = .next ((afterChan ch) { s with dev := d }) ∧ ((Posts ch g (postedAs 5 x) dev s.dev) d)) ∧
  (∀ ch g x dev cyc s, ∃ d, (exec (.descriptorReset ch g x dev cyc) s) = .next ((afterChan ch) { s with dev := d }) ∧ ((Posts ch g (postedAs 6 x) dev s.dev) d))

/-- Bus and die events (R178, R179, R181, R184, R205, R207, R210): at a free command slot the request that ranks first holds the bus, none
where none may; a load that holds the bus gives way to the owner's first read; the end of a burst frees the bus; a floor that passes lets
its die be polled; an operation past its time-out asks for a reset; the end of a die reset frees the die. -/
def Obligations.BusEventsAct : Prop :=
  (∀ ch slot p s, s.dev.slotAhead ch slot = true → (s.dev.chan ch).slotFree s.dev.strk.lock slot = true →
    ∃ d, (exec (.decisionPoint ch slot p) s) = .next ((afterChan ch) { s with dev := d }) ∧ (
      let e := refreshChan ch ((s.dev.toSlot ch slot).modChan ch fun c => { c with holder := none })
      (d.chan ch).nextSlot = slot + 1 ∧ (d.chan ch).holder = (e.winner ch slot).map fun r => e.holds ch slot r p)) ∧
  (∀ ch slot p s h, (s.dev.chan ch).holder = some h → s.dev.strk.lock = true → h.moving = true → s.dev.slotAhead ch slot = true →
    (s.dev.chan ch).rate.cmdStart slot < h.endC →
    ∃ d, (exec (.preemptionPoint ch slot p) s) = .next ((afterChan ch) { s with dev := d }) ∧ (
      let e := refreshChan ch (s.dev.toSlot ch slot)
      (d.chan ch).nextSlot = slot + 1 ∧
      match (if h.req.kind == .load then firstRanked (e.rank ch) (e.ownerReads ch slot) else none) with
      | some r => (d.chan ch).holder = some ((preemptLoad ch slot h e).holds ch slot r p) ∧ d.rdc ch Fd.CARB_EVT_PREEMPT = 1
      | none => (d.chan ch).holder = some h)) ∧
  (∀ ch zeros drift s h r, (s.dev.chan ch).holder = some h → h.moving = true → h.req.kind = .readOut →
    (s.dev.die ch h.req.target).rd = some r → r.q.desc.target = h.req.target → r.q.desc.op = 1 → r.q.desc.raw = false → ldpcTag r.q.desc.tag = false →
    ∃ d, (exec (.readBurstEnd ch zeros drift) s) = .next ((afterChan ch) { s with dev := d }) ∧ (
      (d.chan ch).holder = none ∧ (d.die ch h.req.target).rd = none ∧
      (d.chan ch).cq = (s.dev.chan ch).cq ++ [mkCqEntry r.q.desc r.q.dup 0 r.status 0 r.busy 0 0] ∧
      d.ecc.items.length = s.dev.ecc.items.length + maskCount r.q.desc.cwmask)) ∧
  (∀ ch s h o, (s.dev.chan ch).holder = some h → h.moving = true → h.req.kind = .load → (s.dev.die ch h.req.target).op = some o →
    ∃ d, (exec (.loadBurstEnd ch) s) = .next ((afterChan ch) { s with dev := d }) ∧ (
      (d.chan ch).holder = none ∧ (d.die ch h.req.target).op = some { o with
        data := o.data ++ (List.range h.len).map fun i => s.dev.pool.sector o.q.desc.cell (4 * o.pages + o.encCw + i)
        pages := o.pages + 1
        phase := if unitPages o.q.desc.slc ≤ o.pages + 1 then .starting else .loading })) ∧
  (∀ ch t cyc s r, (s.dev.die ch t).rd = some r → r.floorDue (s.dev.atCycle cyc) = true →
    ∃ d, (exec (.pollFloorPass ch t cyc) s) = .next ((afterChan ch) { s with dev := d }) ∧ ((d.die ch t).rd = some { r with polling := true })) ∧
  (∀ ch t cyc s o, (s.dev.die ch t).op = some o → o.floorDue (s.dev.atCycle cyc) = true →
    ∃ d, (exec (.pollFloorPass ch t cyc) s) = .next ((afterChan ch) { s with dev := d }) ∧ ((d.die ch t).op = some { o with polling := true })) ∧
  (∀ ch t cyc s k, (s.dev.die ch t).timeoutClass (s.dev.atCycle cyc) = some k →
    (s.dev.chan ch).holder.any (fun h => h.moving && h.req.target == (t : Nat)) = false →
    ∃ d, (exec (.operationTimeout ch t cyc) s) = .next ((afterChan ch) { s with dev := d }) ∧ (
      (d.die ch t).awaitReset = some k ∧ d.rdc ch Fd.SEQ_EVT_TIMEOUT = 1)) ∧
  (∀ ch t cyc s e, (s.dev.die ch t).resetEnd = some e → (s.dev.atCycle cyc).reached e = true →
    ∃ d, (exec (.dieResetDone ch t cyc) s) = .next ((afterChan ch) { s with dev := d }) ∧ (
      (d.die ch t).resetEnd = none ∧ (d.die ch t).resetQ = none ∧
      (d.die ch t).st = (if (s.dev.die ch t).st = .reset then .idle else (s.dev.die ch t).st)))

/-- Registers of a channel with an effect of their own (R30, R53, R55, R175, R195, R201): a write of a hatch entry or seal mask of an
unlocked bank replaces the half or the mask, one of a locked bank only sets WR_IGN; CQ_HEAD moves; a block takes a state of Table 6-24;
RETRAIN asks for a training while scheduling is inactive; a training ends. -/
def Obligations.ChannelWritesAct : Prop :=
  (∀ ch b k hi v s, ∃ d, (exec (.hatchEntryWrite ch b k hi v) s) = .next { s with dev := d } ∧ (
    if (s.dev.chan ch).bankLocked b then d.rdc ch Fd.HATCH_STAT_WR_IGN = 1 ∧ d.chans = s.dev.chans
    else ((d.chan ch).bankEntry b k).toNat = (if hi then setBits ((s.dev.chan ch).bankEntry b k).toNat 63 32 v.toNat
        else setBits ((s.dev.chan ch).bankEntry b k).toNat 31 0 v.toNat) % 2 ^ 64 ∧
      (∀ j : Fin 256, j ≠ k → (d.chan ch).bankEntry b j = (s.dev.chan ch).bankEntry b j) ∧ d.regs = s.dev.regs)) ∧
  (∀ ch b v s, ∃ d, (exec (.hatchSealWrite ch b v) s) = .next { s with dev := d } ∧ (
    if (s.dev.chan ch).bankLocked b then d.rdc ch Fd.HATCH_STAT_WR_IGN = 1 ∧ d.chans = s.dev.chans
    else (d.chan ch).sealOf b = v ∧ (d.chan ch).sealOf (!b) = (s.dev.chan ch).sealOf (!b) ∧ d.regs = s.dev.regs)) ∧
  (∀ ch v s, bits v.toNat 31 16 = 0 → ∃ d, (exec (.seqCqHeadWrite ch v) s) = .next ((afterChan ch) { s with dev := d }) ∧ (
    d.rdc ch Fd.SEQ_CQ_HEAD_INDEX = v.toNat)) ∧
  (∀ ch v s, bits v.toNat 31 2 = 0 → ∃ d, (exec (.blockStateWrite ch v) s) = .next ((afterChan ch) { s with dev := d }) ∧ (
    if v.toNat = 3 then d = s.dev
    else (d.die ch (s.dev.rdc ch Fd.SEQ_BST_SEL_TARGET)).blockState (s.dev.rdc ch Fd.SEQ_BST_SEL_BLOCK) = v.toNat)) ∧
  (∀ ch v s, bits v.toNat 31 19 = 0 → bits v.toNat 15 9 = 0 → bits v.toNat 7 3 = 0 → 1 ≤ bits v.toNat 2 0 → bits v.toNat 2 0 ≤ 4 →
    ∃ d, (exec (.phyRetrain ch v) s) = .next { s with dev := d } ∧ (d.rdc ch Fd.PHY_RATE_RATE = bits v.toNat 2 0 ∧
      if (s.dev.chan ch).active then d.rdc ch Fd.SEQ_EVT_CFG_IGN = 1 ∧ d.chans = s.dev.chans
      else (s.dev.chan ch).training = .none →
        (d.chan ch).training = .requested ∧ (d.chan ch).trainRate = Rate.ofCode (bits v.toNat 2 0))) ∧
  (∀ ch s, (s.dev.chan ch).training = .running → ∃ d, (exec (.trainingEnd ch) s) = .next { s with dev := d } ∧ ((d.chan ch).training = .ended))

/-- Queues (R81, R82, R84, R85, R87, R91, R154): a tail doorbell within its ring is recorded and an invalid one is ignored with BAD_DB; a head
doorbell frees entries; a fetch visit takes the next function in turn; an entry that returns at the head of its queue is fetched into its slot,
one that returns early waits; a due completion in turn is written, at once where it is not paced, PACE cycles after the head where it is. -/
def Obligations.QueuesAct : Prop :=
  (∀ f q v s sq, s.dev.insecure f = false → mapFind (s.dev.func f).sqs q.toNat = some sq → v.toNat ≠ sq.tail → v.toNat < sq.size →
    ∃ d, (exec (.sqTailDoorbell f q v) s) = .next { s with dev := d } ∧ (
      if ringDist sq.size sq.head sq.tail + ringDist sq.size sq.tail v.toNat < sq.size then
        mapFind (d.func f).sqs q.toNat = some { sq with tail := v.toNat } ∧ d.pwr.entry = none
      else d.rd Fd.HQ_EVT_BAD_DB = 1 ∧ mapFind (d.func f).sqs q.toNat = some sq)) ∧
  (∀ f q v s cq, s.dev.insecure f = false → mapFind (s.dev.func f).cqs q.toNat = some cq → v.toNat < cq.size →
    ringDist cq.size cq.head v.toNat ≤ ringDist cq.size cq.head cq.tail → cq.holding = [] →
    ∃ d, (exec (.cqHeadDoorbell f q v) s) = .next { s with dev := d } ∧ (mapFind (d.func f).cqs q.toNat = some { cq with head := v.toNat })) ∧
  (∀ s, ∃ d, (exec .commandFetchIssue s) = .next { s with dev := d } ∧ (
    if s.dev.is Fd.HQ_CTL_FETCH_HOLD || !s.dev.host.fetchOn || decide (s.dev.host.fetchLeft = 0) then d = s.dev
    else match s.dev.nextFunc with
      | some f => d.host.rrFunc = f
      | none => d = s.dev)) ∧
  (∀ f q idx x s i, s.dev.host.issued.filter (fun j => decide (j.fn = f.val) && decide (j.qid = q.toNat)) = [i] →
    i.idx = idx.toNat → i.sqe = none → ∃ d, (exec (.commandFetch f q idx x) s) = .next { s with dev := d } ∧ (
      d.host.seq = s.dev.host.seq + 1 ∧
      ∃ y, d.slot? i.slot = some y ∧ y.fn = f ∧ y.qid = q.toNat ∧ y.sqe = x ∧ y.seq = s.dev.host.seq + 1)) ∧
  (∀ k cyc s x c cqid cq, s.dev.slot? k = some x → x.cpl = some c → x.phase = .due → (s.dev.atCycle cyc).inTurn x = true →
    s.dev.mute x.fn = false → s.dev.pacedClass x = none → CqOf s.dev x.fn x.qid cqid cq → cq.full = false →
    ∃ d, (exec (.completionPost k cyc) s) = .next { s with dev := d } ∧ ((Writes k x c cqid cq s.dev) d)) ∧
  (∀ k cyc s x c cls t cqid cq, s.dev.slot? k = some x → x.cpl = some c → x.phase = .due → (s.dev.atCycle cyc).inTurn x = true →
    s.dev.mute x.fn = false → s.dev.pacedClass x = some cls → x.reread = false →
    x.headT = some t → (s.dev.atCycle cyc).now = t + s.dev.rdb cls Fd.TEN_CLS_PACE_PACE → CqOf s.dev x.fn x.qid cqid cq → cq.full = false →
    ∃ d, (exec (.paceExpiry k cyc) s) = .next { s with dev := d } ∧ ((Writes k x c cqid cq s.dev) d))

/-- Queue commands (R79, R80, R94 to R96, R99): Create and Delete I/O CQ and SQ with what Table 3-6 asks for make and remove the queue
and succeed; Abort of a command before its commit point completes with Dword 0 of 0, of one that cannot be found with 1; an Asynchronous
Event Request within the limit waits. -/
def Obligations.QueueCommandsAct : Prop :=
  (∀ (k : Fin 131072) s x, Taken s.dev k true 0x05 x → bits x.sqe.cdw10.toNat 15 0 ≠ 0 → bits x.sqe.cdw10.toNat 15 0 ≤ (s.dev.func x.fn).cqQuota →
    mapFind (s.dev.func x.fn).cqs (bits x.sqe.cdw10.toNat 15 0) = none →
    ((s.dev.func x.fn).cqs.filter fun c => c.1 ≠ 0).length < (s.dev.func x.fn).cqQuota → 1 ≤ bits x.sqe.cdw10.toNat 31 16 →
    bit x.sqe.cdw11.toNat 0 = true → bits x.sqe.cdw11.toNat 31 16 < vectors x.fn →
    ∃ d, (exec (.createIoCq k) s) = .next { s with dev := d } ∧ (Completes d k success ∧
      mapFind (d.func x.fn).cqs (bits x.sqe.cdw10.toNat 15 0) = some
        { size := bits x.sqe.cdw10.toNat 31 16 + 1, head := 0, tail := 0, phase := true, ien := bit x.sqe.cdw11.toNat 1,
          vector := bits x.sqe.cdw11.toNat 31 16, posted := 0, stalls := 0, holding := [], stallAt := none })) ∧
  (∀ (k : Fin 131072) s x, Taken s.dev k true 0x01 x → bits x.sqe.cdw10.toNat 15 0 ≠ 0 → bits x.sqe.cdw10.toNat 15 0 ≤ (s.dev.func x.fn).sqQuota →
    mapFind (s.dev.func x.fn).sqs (bits x.sqe.cdw10.toNat 15 0) = none →
    ((s.dev.func x.fn).sqs.filter fun c => c.1 ≠ 0).length < (s.dev.func x.fn).sqQuota → 1 ≤ bits x.sqe.cdw10.toNat 31 16 →
    bit x.sqe.cdw11.toNat 0 = true → bits x.sqe.cdw11.toNat 31 16 ≠ 0 →
    (mapFind (s.dev.func x.fn).cqs (bits x.sqe.cdw11.toNat 31 16)).isSome = true →
    ∃ d, (exec (.createIoSq k) s) = .next { s with dev := d } ∧ (Completes d k success ∧
      mapFind (d.func x.fn).sqs (bits x.sqe.cdw10.toNat 15 0) = some
        { size := bits x.sqe.cdw10.toNat 31 16 + 1, cq := bits x.sqe.cdw11.toNat 31 16, tail := 0, issue := 0, head := 0, fetched := 0,
          deleting := none })) ∧
  (∀ (k : Fin 131072) s x sq, Taken s.dev k true 0x00 x → mapFind (s.dev.func x.fn).sqs (bits x.sqe.cdw10.toNat 15 0) = some sq →
    sq.deleting = some k.val → ∃ d, (exec (.deleteIoSq k) s) = .next { s with dev := d } ∧ (Completes d k success ∧
      mapFind (d.func x.fn).sqs (bits x.sqe.cdw10.toNat 15 0) = some sq)) ∧
  (∀ (k : Fin 131072) s x, Taken s.dev k true 0x04 x → bits x.sqe.cdw10.toNat 15 0 ≠ 0 →
    (mapFind (s.dev.func x.fn).cqs (bits x.sqe.cdw10.toNat 15 0)).isSome = true →
    ∃ d, (exec (.deleteIoCq k) s) = .next { s with dev := d } ∧ (
      if (s.dev.func x.fn).sqs.any (fun q => q.1 ≠ 0 && decide (q.2.cq = bits x.sqe.cdw10.toNat 15 0)) then Completes d k (stat 1 0xC)
      else Completes d k success ∧ mapFind (d.func x.fn).cqs (bits x.sqe.cdw10.toNat 15 0) = none)) ∧
  (∀ (k : Fin 131072) s x, Taken s.dev k true 0x08 x →
    ∃ d, (exec (.abortCmd k) s) = .next { s with dev := d } ∧ (
      match s.dev.abortTarget x with
      | some (t, y) =>
        if t = k then Completes d k (successWith 1)
        else if 4 < s.dev.aborts x then Completes d k (stat 1 3)
        else if y.withdrawable = true then Completes d k (successWith 0) else Completes d k (successWith 1)
      | none => if 4 < s.dev.aborts x then Completes d k (stat 1 3) else Completes d k (successWith 1))) ∧
  (∀ (k : Fin 131072) s x, Taken s.dev k true 0x0C x →
    ∃ d, (exec (.asynchronousEventRequest k) s) = .next { s with dev := d } ∧ (
      if 8 ≤ s.dev.aers x.fn then Completes d k (stat 1 5) else d.slot? k = some { x with phase := .asleep }))

/-- Features (R75, R79, R90, R404, R410, R426, R428, Table 3-7): a Set stores its value and succeeds; Number of Queues answers the quotas; a
Power Management of a PF selects a state; the timestamp is held with the counter of the moment; a Get answers what is held. -/
def Obligations.FeaturesAct : Prop :=
  (∀ (k : Fin 131072) s x, Taken s.dev k true 0x09 x → Sqe.fid x.sqe ∈ [0x01, 0x05] →
    ∃ d, (exec (.setFeatures k) s) = .next { s with dev := d } ∧ (Completes d k success ∧ (d.func x.fn).feat (Sqe.fid x.sqe) 0 = x.sqe.cdw11.toNat)) ∧
  (∀ (k : Fin 131072) s x, Taken s.dev k true 0x09 x → Sqe.fid x.sqe = 0x07 →
    ∃ d, (exec (.setFeaturesNumberOfQueues k) s) = .next { s with dev := d } ∧ (Completes d k (successWith
      (((s.dev.func x.fn).cqQuota - 1) * 2 ^ 16 + ((s.dev.func x.fn).sqQuota - 1))))) ∧
  (∀ (k : Fin 131072) s x, Taken s.dev k true 0x09 x → Sqe.fid x.sqe = 0x02 → bits x.sqe.cdw11.toNat 4 0 ≤ 4 →
    ∃ d, (exec (.setFeaturesPowerManagement k) s) = .next { s with dev := d } ∧ (Completes d k success ∧
      (isPf x.fn = true → mapGet 0 d.pwr.sel x.fn = bits x.sqe.cdw11.toNat 4 0) ∧ (isPf x.fn = false → d.pwr = s.dev.pwr))) ∧
  (∀ (k : Fin 131072) t s x, Taken s.dev k true 0x09 x → Sqe.fid x.sqe = 0x0C → t.length = 32 →
    ∃ d, (exec (.setFeaturesApst k t) s) = .next { s with dev := d } ∧ (
      if t.any fun e => decide (apstItpt e ≠ 0) && (decide (apstItps e < 3) || decide (4 < apstItps e)) then Completes d k stInvalidField
      else Completes d k success ∧ (d.func x.fn).feat 0x0C 0 = bits x.sqe.cdw11.toNat 0 0)) ∧
  (∀ (k : Fin 131072) ts s x, Taken s.dev k true 0x09 x → Sqe.fid x.sqe = 0x0E →
    ∃ d, (exec (.setFeaturesTimestamp k ts) s) = .next { s with dev := d } ∧ (Completes d k success ∧
      d.pwr = { s.dev.pwr with stamp := some (ts.toNat, s.dev.strk.count), synch := false })) ∧
  (∀ (k : Fin 131072) s x ns, Taken s.dev k true 0x09 x → Sqe.fid x.sqe = 0xC1 → s.dev.nsOf x.fn x.sqe.nsid.toNat = some ns →
    ∃ d, (exec (.setFeaturesServiceState k) s) = .next { s with dev := d } ∧ (Completes d k success)) ∧
  (∀ (k : Fin 131072) s x, Taken s.dev k true 0x09 x → Sqe.fid x.sqe = 0x0B →
    ∃ d, (exec (.setFeaturesAsyncEventConfig k) s) = .next { s with dev := d } ∧ (Completes d k success ∧ (d.func x.fn).feat 0x0B 0 = x.sqe.cdw11.toNat)) ∧
  (∀ (k : Fin 131072) s x, Taken s.dev k true 0x09 x → Sqe.fid x.sqe = 0x04 → bits x.sqe.cdw11.toNat 19 16 = 0 →
    bits x.sqe.cdw11.toNat 21 20 ≤ 1 → ∃ d, (exec (.setFeaturesTempThreshold k) s) = .next { s with dev := d } ∧ (Completes d k success ∧
      (d.func x.fn).feat (0x0400 + bits x.sqe.cdw11.toNat 21 20) 0 = bits x.sqe.cdw11.toNat 15 0)) ∧
  (∀ (k : Fin 131072) s x v bs, Taken s.dev k true 0x0A x → Sqe.fid x.sqe ≠ 0x0E → featValue s.dev x.fn x.sqe = .ok (v, bs) →
    ∃ d, (exec (.getFeatures k) s) = .next { s with dev := d } ∧ (Completes d k (successWith v))) ∧
  (∀ (k : Fin 131072) s x, Taken s.dev k true 0x0A x → Sqe.fid x.sqe = 0x0E → s.dev.mute x.fn = false →
    ∃ d, (exec (.getFeaturesTimestamp k) s) = .next { s with dev := d } ∧ (Completes d k success ∧
      d.out = .hostBytes x.fn x.sqe.cid.toNat s.dev.stampBytes :: s.dev.out))

/-- Log pages, Identify, firmware, self-test, cryptographic erase (R72, R74, R284, R303, R372, R374, R375): the page or structure asked for
goes to the host; a downloaded piece lands page by page; a commit of an image that verifies writes its slot, and makes it pending or
active as its action says; a self-test starts, or is aborted; Format NVM and Sanitize with their erase action succeed once what they
cover is quiet. -/
def Obligations.AdminCommandsAct : Prop :=
  (∀ (k : Fin 131072) s x, Taken s.dev k true 0x02 x → logKnown x.fn (bits x.sqe.cdw10.toNat 7 0) = true → s.dev.mute x.fn = false →
    (bits x.sqe.cdw10.toNat 7 0 = 0x02 ∨ bits x.sqe.cdw10.toNat 7 0 = 0xBF → ∃ ns, s.dev.nsOf x.fn x.sqe.nsid.toNat = some ns) →
    x.sqe.cdw12.toNat + x.sqe.cdw13.toNat * 2 ^ 32 ≤ (logPage s.dev x.fn (bits x.sqe.cdw10.toNat 7 0) x.sqe.nsid.toNat).1 →
    ∃ d, (exec (.getLogPage k) s) = .next { s with dev := d } ∧ (Completes d k success ∧
      d.out = .hostBytes x.fn x.sqe.cid.toNat (pageSlice (logPage s.dev x.fn (bits x.sqe.cdw10.toNat 7 0) x.sqe.nsid.toNat).1
        (x.sqe.cdw12.toNat + x.sqe.cdw13.toNat * 2 ^ 32)
        (4 * (bits x.sqe.cdw10.toNat 31 16 + bits x.sqe.cdw11.toNat 15 0 * 2 ^ 16 + 1))
        (logPage s.dev x.fn (bits x.sqe.cdw10.toNat 7 0) x.sqe.nsid.toNat).2) :: s.dev.out)) ∧
  (∀ (k : Fin 131072) s x p, Taken s.dev k true 0x06 x → identifyData s.dev x.fn x.sqe = .ok p → s.dev.mute x.fn = false →
    ∃ d, (exec (.identify k) s) = .next { s with dev := d } ∧ (Completes d k success ∧
      d.out = .hostBytes x.fn x.sqe.cid.toNat (pageSlice 4096 0 4096 p) :: s.dev.out)) ∧
  (∀ (k : Fin 131072) bs s x, Taken s.dev k true 0x11 x → x.sqe.cdw10.toNat = 1023 → x.sqe.cdw11.toNat % 1024 = 0 →
    x.sqe.cdw11.toNat < 5120 * 1024 → bs.length = 4096 →
    ∃ d, (exec (.firmwareImageDownload k bs) s) = .next { s with dev := d } ∧ (Completes d k success ∧
      mapFind d.sys.download (x.sqe.cdw11.toNat / 1024) = some bs)) ∧
  (∀ (k : Fin 131072) s x, Taken s.dev k true 0x10 x → bits x.sqe.cdw10.toNat 5 3 = 0 →
    bits x.sqe.cdw10.toNat 2 0 ∈ [2, 3] → s.dev.nvm.slotOk s.dev.sys.image = true →
    ∃ d, (exec (.firmwareCommitReplace k) s) = .next { s with dev := d } ∧ (Completes d k success ∧
      mapFind d.nvm.fw (bits x.sqe.cdw10.toNat 2 0) = some s.dev.sys.image ∧ d.nvm.pending = s.dev.nvm.pending ∧ d.sys.download = [])) ∧
  (∀ (k : Fin 131072) s x, Taken s.dev k true 0x10 x → bits x.sqe.cdw10.toNat 5 3 = 1 →
    bits x.sqe.cdw10.toNat 2 0 ∈ [2, 3] → s.dev.nvm.slotOk s.dev.sys.image = true →
    ∃ d, (exec (.firmwareCommitReplaceActivate k) s) = .next { s with dev := d } ∧ (Completes d k success ∧
      mapFind d.nvm.fw (bits x.sqe.cdw10.toNat 2 0) = some s.dev.sys.image ∧ d.nvm.pending = bits x.sqe.cdw10.toNat 2 0)) ∧
  (∀ (k : Fin 131072) s x, Taken s.dev k true 0x10 x → bits x.sqe.cdw10.toNat 5 3 = 2 →
    bits x.sqe.cdw10.toNat 2 0 ∈ [1, 2, 3] → s.dev.nvm.slotBytes (bits x.sqe.cdw10.toNat 2 0) ≠ [] →
    ∃ d, (exec (.firmwareCommitActivate k) s) = .next { s with dev := d } ∧ (Completes d k success ∧
      d.nvm.pending = bits x.sqe.cdw10.toNat 2 0 ∧ d.nvm.fw = s.dev.nvm.fw)) ∧
  (∀ (k : Fin 131072) s x, Taken s.dev k true 0x10 x → bits x.sqe.cdw10.toNat 5 3 = 3 →
    bits x.sqe.cdw10.toNat 2 0 ∈ [2, 3] → s.dev.nvm.slotOk s.dev.sys.image = true →
    ∃ d, (exec (.firmwareCommitActivateNow k) s) = .next { s with dev := d } ∧ (Completes d k success ∧
      mapFind d.nvm.fw (bits x.sqe.cdw10.toNat 2 0) = some s.dev.sys.image ∧ d.nvm.active = bits x.sqe.cdw10.toNat 2 0 ∧
      d.nvm.pending = 0)) ∧
  (∀ (k : Fin 131072) s x, Taken s.dev k true 0x14 x → bits x.sqe.cdw10.toNat 3 0 = 1 → x.sqe.nsid.toNat = 0xFFFFFFFF →
    s.dev.host.selfTest = 0 → ∃ d, (exec (.deviceSelfTestShort k) s) = .next { s with dev := d } ∧ (Completes d k success ∧ d.host.selfTest = 1)) ∧
  (∀ (k : Fin 131072) s x, Taken s.dev k true 0x14 x → bits x.sqe.cdw10.toNat 3 0 = 2 → x.sqe.nsid.toNat = 0xFFFFFFFF →
    s.dev.host.selfTest = 0 → ∃ d, (exec (.deviceSelfTestExtended k) s) = .next { s with dev := d } ∧ (Completes d k success ∧ d.host.selfTest = 2)) ∧
  (∀ (k : Fin 131072) s x, Taken s.dev k true 0x14 x → bits x.sqe.cdw10.toNat 3 0 = 0xF → x.sqe.nsid.toNat = 0xFFFFFFFF →
    ∃ d, (exec (.deviceSelfTestAbort k) s) = .next { s with dev := d } ∧ (Completes d k success ∧ d.host.selfTest = 0)) ∧
  (∀ (k : Fin 131072) s x ns, Taken s.dev k true 0x80 x → bits x.sqe.cdw10.toNat 11 9 = 2 → s.dev.nsOf x.fn x.sqe.nsid.toNat = some ns →
    s.dev.nsQuiet x.sqe.nsid.toNat x.seq = true → ∃ d, (exec (.formatNvm k) s) = .next { s with dev := d } ∧ (Completes d k success)) ∧
  (∀ (k : Fin 131072) s x, Taken s.dev k true 0x84 x → bits x.sqe.cdw10.toNat 2 0 = 4 → (s.dev.zm.ns.all fun e => s.dev.nsQuiet e.1 x.seq) = true →
    ∃ d, (exec (.sanitize k) s) = .next { s with dev := d } ∧ (Completes d k success))

/-- Reads and writes of the host (R80, R88, R119, R121, R128, R145, R341, R345, R346, R348): a Flush with nothing before it completes; a write
to a conventional namespace makes its WRITE entry and waits; a write or append to a zone that takes it gets the zone's check pointer as its
position; a read searches for writes it overlaps, or is served and counted; a miss lets the command go on and a hit makes it wait on the entry; a
new search follows when that entry is gone. -/
def Obligations.ReadsAndWritesStart : Prop :=
  (∀ (k : Fin 131072) s x ns, Taken s.dev k false 0x00 x → s.dev.nsOf x.fn x.sqe.nsid.toNat = some ns → s.dev.atFence x = false →
    s.dev.mustDeliver x = none → ∃ d, (exec (.flushCmd k) s) = .next { s with dev := d } ∧ (Completes d k success)) ∧
  (∀ op c (k : Fin 131072) s x ns i, (op, c) ∈ [(0x01, Instr.writeCmd k), (0x08, .writeZeroes k)] → IoReady s.dev k op x ns → ns.zoned = false →
    s.dev.epochSpent x.sqe.nsid.toNat = false → s.dev.is Fd.CAM_CTL_HOLD = false → s.dev.camWriteFor x.fn = true →
    s.dev.camLowFree s.dev.camFuel 0 = some i → ∃ d, (exec c s) = .next { s with dev := d } ∧ (
      d.cam.entry i = { st := .live, poison := false
                        data := camWriteEntry x.sqe.nsid.toNat x.sqe.slba (x.sqe.slba + x.sqe.nlb - 1) x.seq k } ∧
      ∃ y, d.slot? k = some y ∧ y.phase = .waiting ∧ y.cam = some i ∧ y.start = x.sqe.slba ∧ y.total = x.sqe.nlb)) ∧
  (∀ op c (k : Fin 131072) s x ns (d1 : Dev), (op, c) ∈ [(0x01, Instr.writeCmd k), (0x08, .writeZeroes k), (0x7D, .zoneAppend k)] →
    IoReady s.dev k op x ns → ns.zoned = true → s.dev.epochSpent x.sqe.nsid.toNat = false →
    s.dev.behindSend x x.sqe.nsid.toNat (sqeZone x.sqe) = false → zoneLookup (x.phase == .fetched) x.sqe.nsid.toNat (sqeZone x.sqe) s.dev = (false, d1) →
    d1.landSearch x.sqe.nsid.toNat (sqeZone x.sqe) x.sqe = none → d1.writeRefusal x.sqe.nsid.toNat (sqeZone x.sqe) x = none →
    d1.zoneGone x.sqe.nsid.toNat (sqeZone x.sqe) = false → d1.zoneLost x.sqe.nsid.toNat (sqeZone x.sqe) = false →
    d1.placeRefusal x.sqe.nsid.toNat (sqeZone x.sqe) x.sqe = none → d1.zoneEntryRoom x.sqe.nsid.toNat (sqeZone x.sqe) = true →
    (d1.zone x.sqe.nsid.toNat (sqeZone x.sqe)).st ≠ .empty → ∃ d, (exec c s) = .next { s with dev := d } ∧ (
      (d.zone x.sqe.nsid.toNat (sqeZone x.sqe)).cp = (d1.zone x.sqe.nsid.toNat (sqeZone x.sqe)).cp + x.sqe.nlb ∧
      ∃ y, d.slot? k = some y ∧ y.phase = .waiting ∧ y.zone = some (zoneKey x.sqe.nsid.toNat (sqeZone x.sqe)) ∧
        y.start = zoneStart (sqeZone x.sqe) + (d1.zone x.sqe.nsid.toNat (sqeZone x.sqe)).cp ∧ y.total = x.sqe.nlb)) ∧
  (∀ op c (k : Fin 131072) s x ns, (op, c) ∈ [(0x02, Instr.readCmd k), (0x0C, .verifyCmd k)] → IoReady s.dev k op x ns →
    (ns.zoned = false → x.maint = false → x.total = 0 → s.dev.is Fd.CAM_CTL_HOLD = false →
      ∃ d, (exec c s) = .next (afterRead { s with dev := d }) ∧ ((∃ h, d.cam.searches = s.dev.cam.searches ++ [(k.val, h)]) ∧
        ∃ y, d.slot? k = some y ∧ y.phase = .waiting ∧ y.total = x.sqe.nlb)) ∧
    (ns.zoned = false → x.maint = true → s.dev.readable x.sqe ns →
      ∃ d, (exec c s) = .next (afterRead { s with dev := d }) ∧ (d.readServed x.sqe.nsid.toNat x.sqe.nlb ns)) ∧
    (∀ d1, ns.zoned = true → s.dev.behindSend x x.sqe.nsid.toNat (sqeZone x.sqe) = false →
      (s.dev.zone x.sqe.nsid.toNat (sqeZone x.sqe)).st ≠ .offline →
      x.sqe.slba - zoneStart (sqeZone x.sqe) + x.sqe.nlb ≤ (s.dev.zone x.sqe.nsid.toNat (sqeZone x.sqe)).wp →
      zoneLookup (x.phase == .fetched) x.sqe.nsid.toNat (sqeZone x.sqe) s.dev = (false, d1) →
      d1.readable x.sqe ns → ∃ d, (exec c s) = .next (afterRead { s with dev := d }) ∧ (d.readServed x.sqe.nsid.toNat x.sqe.nlb ns))) ∧
  (∀ (k : Fin 131072) s e, s.dev.cam.searches.find? (fun e => decide (e.1 = k.val)) = some e → ∃ d, (exec (.camSearchResult k) s) = .next (afterRead { s with dev := d }) ∧ (
      match e.2 with
      | some h => d.cam.waits = s.dev.cam.waits ++ [(k.val, h.index)] ∧ d.host = s.dev.host
      | none => d.cam.waits = s.dev.cam.waits ∧
        ∀ x ns, s.dev.slot? k = some x → s.dev.ns? x.sqe.nsid.toNat = some ns → x.isWrite = false → s.dev.readable x.sqe ns →
          d.readServed x.sqe.nsid.toNat x.sqe.nlb ns)) ∧
  (∀ (k : Fin 131072) s e x, s.dev.cam.waits.find? (fun e => decide (e.1 = k.val)) = some e → s.dev.slot? k = some x → s.dev.entryGone x e.2 = true →
    s.dev.is Fd.CAM_CTL_HOLD = false → s.dev.cam.left ≠ 0 → ∃ d, (exec (.camResearch k) s) = .next { s with dev := d } ∧ (
      d.cam.searches = s.dev.cam.searches ++ [(k.val, s.dev.camSearch (overlapKey x))] ∧ d.cam.left = s.dev.cam.left - 1))

/-- Data and commit of writes (R78, R93, R119, R120, R128, R145): the first write that may have its grant gets cells and its share in one, and its
data is fetched, or zeros are made; each sector that arrives goes to the lanes; with all of them in cells, in check order, the write commits
and completes; a failed transfer withdraws a write and ends a read with its status. -/
def Obligations.WritesLand : Prop :=
  (∀ s k x, s.dev.nextWriteGrant = some (k, x) → s.dev.slot? k = some x → ∃ d, (exec .writeGrant s) = .next { s with dev := d } ∧ (
    (∃ y, d.slot? k = some y ∧ y.phase = .moving ∧ y.chain = (grantCells (some (s.dev.ownerOf x)) (4 * x.total) s.dev).1) ∧
    if x.sqe.op = 0x08 then d.ciph.writeQ.length = s.dev.ciph.writeQ.length + x.total
    else s.dev.mute x.fn = false → d.out = .hostRead x.fn k :: s.dev.out)) ∧
  (∀ (k : Fin 131072) (i : Fin 65536) p s x, s.dev.slot? k = some x → x.isWrite = true → x.sqe.op ≠ 0x08 → x.phase = .moving → i.val < x.total →
    s.dev.sectorHere k i x = false → ∃ d, (exec (.writeDataArrival k i p) s) = .next { s with dev := d } ∧ (
      ∃ w, d.ciph.writeQ = s.dev.ciph.writeQ ++ [w] ∧ w.work = .write k i p)) ∧
  (∀ (k : Fin 131072) s x, s.dev.slot? k = some x → x.isWrite = true → x.phase = .moving → x.arrived.length = x.total →
    (∀ zk, x.zone = some zk → x.start = zoneStart (zk % 2 ^ 20) + (s.dev.zone x.sqe.nsid.toNat (zk % 2 ^ 20)).wp) →
    ∃ d, (exec (.writeCommit k) s) = .next { s with dev := d } ∧ (
      Completes d k (if x.sqe.op = 0x7D then
        { success with dw0 := BitVec.ofNat 32 x.start, dw1 := BitVec.ofNat 32 (x.start / 2 ^ 32) } else success) ∧
      ∀ zk, x.zone = some zk → (d.zone x.sqe.nsid.toNat (zk % 2 ^ 20)).wp = x.start - zoneStart (zk % 2 ^ 20) + x.total)) ∧
  (∀ (k : Fin 131072) s x, s.dev.slot? k = some x → x.phase = .moving →
    (x.isWrite = true → x.committed = false → ∃ d, (exec (.dataTransferError k) s) = .next { s with dev := d } ∧ (Completes d k stTransfer)) ∧
    (x.isWrite = false → x.qid ≠ 0 → x.sqe.op = 0x02 → x.bad = none → ∃ d, (exec (.dataTransferError k) s) = .next { s with dev := d } ∧ (
      ∃ y, d.slot? k = some y ∧ y.bad = some stTransfer)))

/-- Zones (R107, R111, R112, R115, R117, R122 to R125, R135, R136, R138, R238): a Send moves its zone between the states of Table 4-2 and
completes, opens an Empty zone whose row can be bound, reground an Offline zone whose row is sound, and completes over all zones; reports are
returned; a marked zone whose data is programmed turns Read Only, and data held too long marks its zone; a refold is queued, starts when a slot
is free, and ends with its result. -/
def Obligations.ZonesMove : Prop :=
  (∀ zsa c (k : Fin 131072) s x ns a b, (zsa, c, a, b) ∈ sendMoves k → SendReady s.dev k zsa x ns →
    (s.dev.zone x.sqe.nsid.toNat (sqeZone x.sqe)).st = a → ∃ d, (exec c s) = .next { s with dev := d } ∧ (
      Completes d k success ∧ (d.zone x.sqe.nsid.toNat (sqeZone x.sqe)).st = b)) ∧
  (∀ (k : Fin 131072) s x ns r, SendReady s.dev k 3 x ns → (s.dev.zone x.sqe.nsid.toNat (sqeZone x.sqe)).st = .empty →
    s.dev.bindCheck x.sqe.nsid.toNat ns x.sqe.handle = .ok r → ∃ d, (exec (.zoneOpen k) s) = .next { s with dev := d } ∧ (
      Completes d k success ∧ (d.zone x.sqe.nsid.toNat (sqeZone x.sqe)).st = .explOpen ∧
      (d.zone x.sqe.nsid.toNat (sqeZone x.sqe)).row = some r)) ∧
  (∀ (k : Fin 131072) s x ns g r, SendReady s.dev k 0x80 x ns → (s.dev.zone x.sqe.nsid.toNat (sqeZone x.sqe)).st = .offline →
    (s.dev.zone x.sqe.nsid.toNat (sqeZone x.sqe)).row = some (g, r) → s.dev.rowSpent g r = false →
    ∃ d, (exec (.zoneReground k) s) = .next { s with dev := d } ∧ (Completes d k success ∧ (d.zone x.sqe.nsid.toNat (sqeZone x.sqe)).st = .empty)) ∧
  (∀ zsa c (k : Fin 131072) s x ns, (zsa, c) ∈ sends k → Taken s.dev k false 0x79 x → bits x.sqe.cdw13.toNat 7 0 = zsa →
    s.dev.nsOf x.fn x.sqe.nsid.toNat = some ns → ns.zoned = true → bit x.sqe.cdw13.toNat 8 = true → s.dev.atFence x = false →
    s.dev.behindAll x x.sqe.nsid.toNat = false → (s.dev.zonesOf x.sqe.nsid.toNat).any (fun e => s.dev.behindMark x x.sqe.nsid.toNat e.1) = false →
    ∃ d, (exec c s) = .next { s with dev := d } ∧ (∃ r, Completes d k r)) ∧
  (∀ zra c size (entry : Dev → Nat → Zone → List Byte) (k : Fin 131072) s x ns,
    (zra, c, size, entry) ∈ [(0, Instr.reportZones k, 64, fun _ => zoneDesc), (0x80, .reportZonePlacement k, 16, placementEntry)] →
    Taken s.dev k false 0x7A x → bits x.sqe.cdw13.toNat 7 0 = zra → s.dev.nsOf x.fn x.sqe.nsid.toNat = some ns → ns.zoned = true → s.dev.atFence x = false →
    s.dev.host.slots.any (fun e => decide (e.2.seq < x.seq) && e.2.isSend && decide (e.2.sqe.nsid.toNat = x.sqe.nsid.toNat)) = false →
    x.sqe.slba < ns.zones * zoneSpan → s.dev.mute x.fn = false → ∃ d, (exec c s) = .next { s with dev := d } ∧ (Completes d k success ∧
      d.out = .hostBytes x.fn x.sqe.cid.toNat (zoneReport s.dev ns x.sqe.nsid.toNat x.sqe size (entry s.dev)) :: s.dev.out)) ∧
  (∀ (k : Fin 131072) s x ns, Taken s.dev k false 0x7A x → bits x.sqe.cdw13.toNat 7 0 = 1 → s.dev.nsOf x.fn x.sqe.nsid.toNat = some ns →
    ns.zoned = true → s.dev.atFence x = false →
    s.dev.host.slots.any (fun e => decide (e.2.seq < x.seq) && e.2.isSend && decide (e.2.sqe.nsid.toNat = x.sqe.nsid.toNat)) = false →
    ∃ d, (exec (.extendedReportZones k) s) = .next { s with dev := d } ∧ (Completes d k stInvalidField)) ∧
  (∀ (n : Fin 4097) (z : Fin 524288) s m, (s.dev.zone n z).marked = some m → (s.dev.zone n z).staged = [] → (s.dev.zone n z).refDst = none →
    s.dev.host.slots.any (fun e => decide (e.2.seq ≤ m) && (touches e.2 n z || s.dev.refoldTouches e.2 n z)) = false →
    ∃ d, (exec (.zoneReadOnlyEntry n z) s) = .next { s with dev := d } ∧ ((d.zone n z).st = .readOnly ∧ (d.zone n z).marked = none ∧
      (d.zone n z).wp = (s.dev.zone n z).eod)) ∧
  (∀ (g : Fin 96) (r : Fin 3600) s n z, (s.dev.row g r).bound = some (n, z) → s.dev.extended g r = true →
    s.dev.thresh 5 * strokesPerHour ≤ s.dev.strk.count - (s.dev.zone n z).bornAt → (s.dev.zone n z).row.isSome = true →
    (s.dev.zone n z).st ∉ [.readOnly, .offline, .empty] → (s.dev.zone n z).marked = none →
    ∃ d, (exec (.dataAgeExpiry g r) s) = .next { s with dev := d } ∧ ((d.zone n z).marked = some s.dev.host.seq)) ∧
  (∀ (k : Fin 131072) rs s x ns r, Taken s.dev k false 0x83 x → rs.length = refoldCount x.sqe →
    s.dev.nsOf x.fn x.sqe.nsid.toNat = some ns → ns.zoned = true → refoldRsv x.sqe = false → rs ≠ [] → rs.length ≤ 4092 →
    x.sqe.slba % zoneSpan = 0 → x.sqe.slba / zoneSpan < ns.zones → s.dev.refoldEarlier x = false → s.dev.atFence x = false →
    (∀ z ∈ x.sqe.slba / zoneSpan :: rangeZones rs, s.dev.behindSend x x.sqe.nsid.toNat z = false ∧ s.dev.behindMark x x.sqe.nsid.toNat z = false) → s.dev.refoldRefusal ns x.sqe rs = none →
    s.dev.is Fd.ZONE_CTL_BIND_HOLD = false → s.dev.zoneEntryRoom x.sqe.nsid.toNat (x.sqe.slba / zoneSpan) = true →
    s.dev.bindCheck x.sqe.nsid.toNat ns x.sqe.handle = .ok r → ∃ d, (exec (.refoldCmd k rs) s) = .next { s with dev := d } ∧ (
      (∃ y, d.slot? k = some y ∧ y.phase = .asleep ∧ y.committed = true) ∧
      ∃ j ∈ d.zm.refolds, j.seq = x.seq ∧ j.slot = some k.val ∧ j.ranges = rs ∧ j.running = false)) ∧
  (∀ s j, s.dev.is Fd.ZONE_CTL_REFOLD_HOLD = false → s.dev.nextRefold [] s.dev.zm.refolds = some j →
    ∃ d, (exec .refoldStart s) = .next { s with dev := d } ∧ (∃ i ∈ d.zm.refolds, i.seq = j.seq ∧ i.running = true)) ∧
  (∀ seq lost s j g r, s.dev.zm.refolds.find? (fun j => decide (j.seq = seq.toNat)) = some j → j.running = true →
    (s.dev.zone j.nsid j.dst).row = some (g, r) → (s.dev.row g r).dirty = 0 → ∃ d, (exec (.refoldCommit seq lost) s) = .next { s with dev := d } ∧ (
      d.rd Fd.ZONE_EVT_REFOLD_DONE = 1 ∧ (∀ i ∈ d.zm.refolds, i.seq ≠ j.seq) ∧
      ∀ k, j.slot = some k → (s.dev.slot? k).isSome → Completes d k (successWith (rangeTotal j.ranges))))

/-- The cell pool and the CAM (R331 to R336, R343, R344, R348, R350): an allocation of 1 to 1,024 cells is granted at once or waits, one out of
range is refused; the first waiting one that may is granted; a free of a chain that nothing keeps frees it (log entry 119); a splice joins two chains or refuses; enabling the pool
checks its areas; an initialised pool is ready; a read of LINK_LO takes both halves; each CAM operation acts on the indexed entry. -/
def Obligations.PoolAndCamAct : Prop :=
  (∀ (g : Fin 64) v s, bits v.toNat 20 11 = 0 → ∃ d, (exec (.cellAllocRequest g v) s) = .next { s with dev := d } ∧ (
    let n := bits v.toNat 10 0
    let owner : Option Nat := if bit v.toNat 31 then none else some (bits v.toNat 30 21)
    let e := s.dev.modPool fun p => { p with waiting := p.waiting.filter fun x => x.graver ≠ g.val }
    if n = 0 ∨ 1024 < n then d.rdb g Fd.CELL_ALLOC_RES_RESULT = 3 ∧ d.pool = s.dev.pool
    else if e.mayGrant e.pool.waiting { graver := g, owner := owner, count := n } then
      d.rdb g Fd.CELL_ALLOC_RES_RESULT = 1 ∧ d.rdb g Fd.CELL_ALLOC_RES_HEAD = (grantCells owner n e).1 % 2 ^ 26 ∧ d.pool = (grantCells owner n e).2.pool
    else d.rdb g Fd.CELL_ALLOC_RES_RESULT = 2 ∧ d.rd Fd.CELL_EVT_WAIT = 1 ∧
      d.pool.waiting = e.pool.waiting ++ [{ graver := g, owner := owner, count := n }])) ∧
  (∀ s r, s.dev.nextGrant [] s.dev.pool.waiting = some r → ∃ d, (exec .cellAllocGrant s) = .next { s with dev := d } ∧ (
    d.rdb r.graver Fd.CELL_ALLOC_RES_RESULT = 1 ∧ d.rdb r.graver Fd.CELL_ALLOC_RES_HEAD = (grantCells r.owner r.count s.dev).1 % 2 ^ 26)) ∧
  (∀ (g : Fin 64) v s, bits v.toNat 31 26 = 0 → s.dev.keepsCells (bits v.toNat 25 0) = false → ∃ d, (exec (.cellFree g v) s) = .next { s with dev := d } ∧ (
    d.rdb g Fd.CELL_FREE_RES_RESULT = (if (freeChain (bits v.toNat 25 0) s.dev).2.1 then 2 else 1) ∧
    d.rdb g Fd.CELL_FREE_RES_CELLS = (freeChain (bits v.toNat 25 0) s.dev).1 % 2 ^ 26)) ∧
  (∀ (g : Fin 64) v s, bits v.toNat 31 26 = 0 → ∃ d, (exec (.cellSplice g v) s) = .next { s with dev := d } ∧ (
    d.rdb g Fd.CELL_SPLICE_H_HANDLE = bits v.toNat 25 0 ∧
    match s.dev.pool.splice (s.dev.rdb g Fd.CELL_SPLICE_T_HANDLE) (bits v.toNat 25 0) with
    | some p => d.pool = p ∧ d.rdb g Fd.CELL_SPLICE_RES_RESULT = 1
    | none => d.pool = s.dev.pool ∧ d.rdb g Fd.CELL_SPLICE_RES_RESULT = 2 ∧ d.rd Fd.CELL_EVT_SPLICE_REF = 1)) ∧
  (∀ v s, bits v.toNat 31 2 = 0 → ∃ d, (exec (.cellPoolEnable v) s) = .next { s with dev := d } ∧ (
    d.rd Fd.CELL_CTL_EN = 1 ∧ (s.dev.is Fd.CELL_CTL_EN = false →
      if s.dev.poolFits then d.pool.initBusy = true ∧ d.pool.cfgErr = false else d.pool.cfgErr = true))) ∧
  (∀ s, s.dev.pool.initBusy = true → ∃ d, (exec .cellPoolReady s) = .next { s with dev := d } ∧ (
    d.pool.ready = true ∧ d.pool.initBusy = false ∧ d.pool.used = [] ∧ d.pool.ringFresh = firstDramHandle ∧
    d.pool.ringEnd = firstDramHandle + s.dev.rd Fd.CELL_DRAM_N_N ∧ d.rd Fd.CELL_EVT_READY = 1)) ∧
  (∀ s, ∃ d, (exec .linkLoRead s) = .next { s with dev := d } ∧ (
    let e := (s.dev.pool.cell (s.dev.rd Fd.CELL_LINK_SEL_HANDLE)).link.toNat
    d.bus.data = BitVec.ofNat 64 (bits e 31 0) ∧ d.pool.linkHi = bits e 63 32)) ∧
  (∀ (g : Fin 64) v s, bits v.toNat 30 4 = 0 →
    (∃ d, (exec (.camInvalidate g v) s) = .next { s with dev := d } ∧ (
      d.cam.entry (s.dev.rdb g Fd.CAM_IDX_INDEX) = { s.dev.cam.entry (s.dev.rdb g Fd.CAM_IDX_INDEX) with st := .held } ∧
      d.regGet Rg.CAM_RES 0 g = 0)) ∧
    (∃ d, (exec (.camWrite g v) s) = .next { s with dev := d } ∧ (
      if (s.dev.cam.entry (s.dev.rdb g Fd.CAM_IDX_INDEX)).st = .held then
        d.cam.entry (s.dev.rdb g Fd.CAM_IDX_INDEX) = { st := .held, poison := false, data := BitVec.ofNat 192 (bits (s.dev.camEnt g).toNat 190 0) } ∧
        d.regGet Rg.CAM_RES 0 g = 0
      else d.cam = s.dev.cam ∧ d.regGet Rg.CAM_RES 0 g = 2 * 2 ^ 23)) ∧
    (∃ d, (exec (.camValidate g v) s) = .next { s with dev := d } ∧ (
      let e := s.dev.cam.entry (s.dev.rdb g Fd.CAM_IDX_INDEX)
      if e.st ≠ .held then d.cam = s.dev.cam ∧ d.regGet Rg.CAM_RES 0 g = 2 * 2 ^ 23
      else if camBadEntry e.data then d.cam = s.dev.cam ∧ d.regGet Rg.CAM_RES 0 g = 2 ^ 23 ∧ d.rd Fd.CAM_EVT_BADENT = 1
      else d.regGet Rg.CAM_RES 0 g = 0 ∧
        d.cam.entry (s.dev.rdb g Fd.CAM_IDX_INDEX) = if camKind e.data = 0 then .free else { e with st := .live })) ∧
    (∃ d, (exec (.camRead g v) s) = .next { s with dev := d } ∧ (
      let e := s.dev.cam.entry (s.dev.rdb g Fd.CAM_IDX_INDEX)
      d.camEnt g = BitVec.ofNat 192 (setBits e.data.toNat 191 191 (b2n (e.st == .live))) ∧ d.cam = s.dev.cam)) ∧
    (∃ d, (exec (.camSearch g v) s) = .next { s with dev := d } ∧ (
      if s.dev.cam.left = 0 then d.rdb g Fd.CAM_OP_GO = 1 ∧ d.cam = s.dev.cam ∧ d.rd Fd.CAM_EVT_DEFER = 1
      else d.rdb g Fd.CAM_OP_GO = 0 ∧ d.cam.left = s.dev.cam.left - 1)))

/-- The life of functions and ports (R66 to R71, R101, R102, R141, R149, R157, R159 to R163, R432, R484): enabling, disabling and resetting a
function, VF Enable, each answered as unsupported on an Insecure stream, links coming up and going down, PERST_N, an IDE stream that fails, the end of a teardown, a shutdown notification, and the
registers that move a function and set a class. -/
def Obligations.FunctionsLive : Prop :=
  (∀ f asqs acqs s, s.dev.present f = true → (s.dev.port (s.dev.portOf f)).up = true → s.dev.insecure f = false → (s.dev.func f).en = false →
    ∃ d, (exec (.ccEnSet f asqs acqs) s) = .next { s with dev := d } ∧ ((d.func f).en = true ∧ (d.func f).rdy = (s.dev.mayBeReady && !(s.dev.func f).stopping) ∧
      ∃ sq cq, (d.func f).sqs = [(0, sq)] ∧ sq.size = asqs.toNat + 1 ∧ (d.func f).cqs = [(0, cq)] ∧ cq.size = acqs.toNat + 1)) ∧
  (∀ f s, s.dev.present f = true → s.dev.insecure f = false → (s.dev.func f).en = true → ∃ d, (exec (.ccEnClear f) s) = .next { s with dev := d } ∧ (
    (d.func f).en = false ∧ (d.func f).rdy = false ∧ (d.func f).stopping = true ∧ (d.func f).sqs = [] ∧ (d.func f).cqs = [])) ∧
  (∀ f s, s.dev.present f = true → s.dev.insecure f = false → ∃ d, (exec (.functionLevelReset f) s) = .next { s with dev := d } ∧ (
    if isPf f then (d.port (s.dev.portOf f)).vfEnable = false ∧ (d.port (s.dev.portOf f)).numVfs = 0
    else (d.func f).en = false ∧ (d.func f).stopping = true ∧ (d.func f).flr = true)) ∧
  (∀ p n s, s.dev.hasPort p = true → (s.dev.port p).up = true → n.val ≤ s.dev.totalVfs → s.dev.insecure (pfOf p) = false → (s.dev.port p).vfEnable = false →
    ∃ d, (exec (.vfEnableSet p n) s) = .next { s with dev := d } ∧ ((d.port p).vfEnable = true ∧ (d.port p).numVfs = n)) ∧
  (∀ p s, s.dev.hasPort p = true → (s.dev.port p).up = true →
    (s.dev.insecure (pfOf p) = false → ∃ d, (exec (.vfEnableClear p) s) = .next { s with dev := d } ∧ ((d.port p).vfEnable = false ∧ (d.port p).numVfs = 0)) ∧
    (∃ d, (exec (.portLinkDown p) s) = .next { s with dev := d } ∧ ((d.port p).up = false ∧ (d.port p).vfEnable = false ∧ (d.port p).secure = []))) ∧
  (∀ f c s, s.dev.present f = true → s.dev.insecure f = true → (s.dev.port (s.dev.portOf f)).up = true → (s.dev.func f).en = true →
    c ∈ [Instr.ccEnSet f 0 0, .ccEnClear f, .functionLevelReset f, .shutdownNotification f] →
    ∃ d, (exec c s) = .next { s with dev := d } ∧ (d = s.dev.send (.unsupported f))) ∧
  (∀ p flit rate w s, s.dev.hasPort p = true → (s.dev.port p).training = true → s.dev.widthOk w.toNat = true →
    (flit = true → 2 ≤ rate.val) → (flit = false → rate.val ≠ 5) → ∃ d, (exec (.portLinkUp p flit rate w) s) = .next { s with dev := d } ∧ (
      (d.port p).up = true ∧ (d.port p).flit = flit ∧ (d.port p).rate = rate ∧ (d.port p).width = w.toNat)) ∧
  (∀ p s, s.dev.hasPort p = true →
    (∃ d, (exec (.portReset p) s) = .next { s with dev := d } ∧ ((d.port p).perst = false ∧ (d.port p).training = false)) ∧
    (∃ d, (exec (.perstRise p) s) = .next { s with dev := d } ∧ ((d.port p).perst = true ∧ (d.port p).training = (s.dev.port p).released))) ∧
  (∀ p k s, k.val ∈ (s.dev.port p).secure → ∃ d, (exec (.ideIntegrityFailure p k) s) = .next { s with dev := d } ∧ (
    k.val ∉ (d.port p).secure ∧ k.val ∈ (d.port p).insecure)) ∧
  (∀ f s, s.dev.torn f = true → ∃ d, (exec (.teardownDone f) s) = .next { s with dev := d } ∧ (
    (d.func f).stopping = false ∧ (d.func f).flr = false ∧ d.rd Fd.TEN_EVT_TEARDOWN_DONE = 1)) ∧
  (∀ f s, s.dev.present f = true → (s.dev.func f).en = true → s.dev.insecure f = false → ∃ d, (exec (.shutdownNotification f) s) = .next { s with dev := d } ∧ (
    ((d.func f).shn = true ∧ (d.func f).shst = 1 ∨ (d.func f).shst = 2) ∧ ∀ i ∈ d.host.issued, i.fn ≠ f.val)) ∧
  (∀ v s, bits v.toNat 30 10 = 0 → ∃ d, (exec (.fCfgTenantWrite v) s) = .next { s with dev := d } ∧ (
    if s.dev.rd Fd.TEN_F_SEL_FUNC < 1026 && s.dev.movable (s.dev.rd Fd.TEN_F_SEL_FUNC) then
      d.tenantOf (s.dev.rd Fd.TEN_F_SEL_FUNC) = bits v.toNat 9 0
    else d.rd Fd.TEN_EVT_MOVE_IGN = 1)) ∧
  (∀ v s, bits v.toNat 28 10 = 0 → ∃ d, (exec (.clsCfgWrite v) s) = .next { s with dev := d } ∧ (
    d.rdb (s.dev.rd Fd.TEN_CLS_SEL_CLASS) Fd.TEN_CLS_CFG_OWNER = bits v.toNat 9 0 ∧
    (s.dev.rd Fd.TEN_CLS_SEL_CLASS ≠ 15 → d.rdb (s.dev.rd Fd.TEN_CLS_SEL_CLASS) Fd.TEN_CLS_CFG_EXCL = bits v.toNat 31 31 ∧
      d.rdb (s.dev.rd Fd.TEN_CLS_SEL_CLASS) Fd.TEN_CLS_CFG_PACE = bits v.toNat 30 30)))

/-- DOE and SPDM (R70, R71, Tables 3-2 and 13-7): discovery lists the object types; a connection is begun, its capabilities and algorithms are
agreed; digests, certificates, challenges and measurements are answered; a session is opened, finished, kept, re-keyed and ended; inside one,
an IDE stream gets keys and turns Secure. -/
def Obligations.MailboxesAnswer : Prop :=
  (∀ p i s, s.dev.mailbox p → ∃ d, (exec (.doeDiscovery p i) s) = .next { s with dev := d } ∧ (
    d.out = .doe p (Config.encode 0x1100
      (if i.toNat < 3 then [0x0001, i.toNat, if i.toNat < 2 then i.toNat + 1 else 0] else [0xFFFF, 0, 0])) :: s.dev.out)) ∧
  (∀ p s, s.dev.mailbox p → ∃ d, (exec (.spdmGetVersion p) s) = .next { s with dev := d } ∧ (
    Answers p 0x04 [0x12, 0x13] s.dev d ∧ (d.spdm p).version = 0x10 ∧ (d.spdm p).caps = false ∧ (d.spdm p).sessions = [])) ∧
  (∀ p v s, s.dev.mailbox p → v.toNat ∈ [0x12, 0x13] → (s.dev.spdm p).version ≠ 0 →
    ((s.dev.spdm p).caps = true → (s.dev.spdm p).version = v.toNat) → ∃ d, (exec (.spdmGetCapabilities p v) s) = .next { s with dev := d } ∧ (
      Answers p 0x61 [v.toNat] s.dev d ∧ (d.spdm p).version = v.toNat ∧ (d.spdm p).caps = true)) ∧
  (∀ p a b c e s, s.dev.mailbox p → (s.dev.spdm p).caps = true → ∃ d, (exec (.spdmNegotiateAlgorithms p a b c e) s) = .next { s with dev := d } ∧ (
    Answers p 0x63 [b2n a + 2 * b2n b + 4 * b2n c + 8 * b2n e] s.dev d ∧ (d.spdm p).algs = true ∧
      (d.spdm p).chosen = b2n a + 2 * b2n b + 4 * b2n c + 8 * b2n e)) ∧
  (∀ p s, s.dev.mailbox p → s.dev.agreed p [algHash] → ∃ d, (exec (.spdmGetDigests p) s) = .next { s with dev := d } ∧ (
    Answers p 0x01 (((List.range 2).filterMap fun c => (s.dev.certChain c).map fun bs => (c, (Config.sha384 bs).toNat)).flatMap fun c => [c.1, c.2])
      s.dev d)) ∧
  (∀ p c off len s bs, s.dev.mailbox p → s.dev.agreed p [algHash] → s.dev.certChain c.val = some bs → off.toNat ≤ bs.length →
    ∃ d, (exec (.spdmGetCertificate p c off len) s) = .next { s with dev := d } ∧ (
      let part := (bs.drop off.toNat).take (min len.toNat (65536 - 16))
      Answers p 0x02 ([c.val, part.length, bs.length - off.toNat - part.length] ++ part.map (·.toNat)) s.dev d)) ∧
  (∀ p nonce s, s.dev.mailbox p → s.dev.agreed p [algSign, algHash] → ∃ d, (exec (.spdmChallenge p 0 nonce) s) = .next { s with dev := d } ∧ (
    ∃ xs, Answers p 0x03 (xs ++ [s.dev.signed 0x03 nonce.toNat xs]) s.dev d)) ∧
  (∀ p i sign nonce s, s.dev.mailbox p → s.dev.agreed p (if sign then [algSign, algHash] else [algHash]) → i.toNat ≤ measCount ∨ i.toNat = 0xFF →
    ∃ d, (exec (.spdmGetMeasurements p i sign nonce) s) = .next { s with dev := d } ∧ (
      let xs := if i.toNat = 0 then [measCount]
        else if i.toNat = 0xFF then (List.range measCount).flatMap fun k => s.dev.measure (k + 1) else s.dev.measure i.toNat
      if sign then ∃ r, Answers p 0x60 (xs ++ [r, s.dev.signed 0x60 nonce.toNat xs]) s.dev d else Answers p 0x60 xs s.dev d)) ∧
  (∀ p nonce pub s, s.dev.mailbox p → s.dev.agreed p [algSign, algHash, algExchange, algSecure] → (s.dev.spdm p).sessions.length < maxSessions →
    ∃ d, (exec (.spdmKeyExchange p 0 nonce pub) s) = .next { s with dev := d } ∧ (
      (d.spdm p).sessions = (s.dev.spdm p).sessions ++ [((s.dev.spdm p).nextSession, false)] ∧
      ∃ xs, Answers p 0x64 (xs ++ [s.dev.signed 0x64 nonce.toNat xs]) s.dev d)) ∧
  (∀ p n s, s.dev.mailbox p → (s.dev.spdm p).session n.toNat = some false → ∃ d, (exec (.spdmFinish p n true) s) = .next { s with dev := d } ∧ (
    Answers p 0x65 [n.toNat] s.dev d ∧ (d.spdm p).session n.toNat = some true)) ∧
  (∀ p n s x, s.dev.mailbox p → (s.dev.spdm p).session n.toNat = some true → mapFind (s.dev.spdm p).keys n.toNat = some x →
    (∃ d, (exec (.spdmHeartbeat p n) s) = .next { s with dev := d } ∧ (AnswersIn p n.toNat 0x68 [n.toNat] x s.dev d)) ∧
    (∀ op, op.toNat ∈ [1, 2, 3] → ∃ d, (exec (.spdmKeyUpdate p n op) s) = .next { s with dev := d } ∧ (
      let y : SpdmKeys := { x with reqGen := x.reqGen + (if op.toNat = 3 then 0 else 1), rspGen := x.rspGen + (if op.toNat = 2 then 1 else 0) }
      AnswersIn p n.toNat 0x69 [n.toNat, op.toNat] y s.dev d ∧ mapFind (d.spdm p).keys n.toNat = some y)) ∧
    (∃ d, (exec (.spdmEndSession p n) s) = .next { s with dev := d } ∧ (AnswersIn p n.toNat 0x6C [n.toNat] x s.dev d ∧ (d.spdm p).session n.toNat = none)) ∧
    (∀ k, ∃ d, (exec (.ideKmRequest p n k false) s) = .next { s with dev := d } ∧ (k.val ∈ (d.port p).keyed ∧ d.out = .ideKm p k true :: s.dev.out)) ∧
    (∀ k, k.val ∈ (s.dev.port p).keyed → ∃ d, (exec (.ideKmRequest p n k true) s) = .next { s with dev := d } ∧ (
      k.val ∈ (d.port p).secure ∧ k.val ∉ (d.port p).insecure ∧ d.out = .ideKm p k true :: s.dev.out)))

/-- Media health and self-test (R197, R219, R222 to R224, R230, R271, R274, R275, R282, R283, R351, Tables 6-11, 6-23, 9-8): a die or channel
is retired; an idle die is made present or absent; a rebuilt member and a replaced block serve through their remap; a cold row moves; tables
are made durable; a self-test runs and ends; a retest leaves its result; a patrolled word is passed, counted, or lost. -/
def Obligations.HealthActs : Prop :=
  (∀ ch v s, bits v.toNat 31 2 = 0 → ∃ d, (exec (.dieRetire ch v) s) = .next ((afterChan ch) { s with dev := d }) ∧ (
    (d.die ch (s.dev.rdc ch Fd.SEQ_DIE_SEL_TARGET)).st = .retired)) ∧
  (∀ ch v s, bits v.toNat 31 1 = 0 → s.dev.isc ch Fd.SEQ_CTL_EN = false →
    (s.dev.die ch (s.dev.rdc ch Fd.SEQ_DIE_SEL_TARGET)).st ∈ [.absent, .idle] →
    ∃ d, (exec (.diePresentWrite ch v) s) = .next ((afterChan ch) { s with dev := d }) ∧ (
      (d.die ch (s.dev.rdc ch Fd.SEQ_DIE_SEL_TARGET)).st = if bit v.toNat 0 then .idle else .absent)) ∧
  (∀ ch v s, bits v.toNat 31 3 = 0 → ∃ d, (exec (.channelRetire ch v) s) = .next ((afterChan ch) { s with dev := d }) ∧ (
    (d.chan ch).retired = true ∧ (d.chan ch).pq = [])) ∧
  (∀ (g : Fin 96) (r : Fin 3600) (m : Fin 16) s x p,
    s.dev.med.rebuild.find? (fun x => decide (x.group = g) && decide (x.row = r) && decide (x.member = m)) = some x →
    x.dest = some p → p.2 < 4096 → ∃ d, (exec (.rebuildSwitch g r m) s) = .next { s with dev := d } ∧ (
      d.mapped (memberDie g m) r = p ∧ m.val ∉ (d.row g r).lost ∧ x ∉ d.med.rebuild)) ∧
  (∀ (die : Fin 1536) s w b, s.dev.med.wanted.find? (fun w => decide (w.die = die.val)) = some w → mapFind s.dev.med.replace die = none →
    s.dev.bestSpare die = some b → ∃ d, (exec (.blockReplacement die) s) = .next { s with dev := d } ∧ (mapFind d.med.replace die =
      some { home := w.home, block := w.role, old := (s.dev.mapped w.home w.role).2, spare := b, cause := w.cause, first := w.wl, done := 0, ready := !s.dev.blockUsed die b })) ∧
  (∀ (die : Fin 1536) s w, s.dev.med.wanted.find? (fun w => decide (w.die = die.val)) = some w → mapFind s.dev.med.replace die = none →
    s.dev.bestSpare die = none → ∃ d, (exec (.blockReplacement die) s) = .next { s with dev := d } ∧ (mapFind d.med.replace die = none ∧
      d.med.wanted = listEraseFirst (fun x => x == w) s.dev.med.wanted)) ∧
  (∀ (die : Fin 1536) s p, mapFind s.dev.med.replace die = some p → p.ready = true → p.spare < 4096 →
    ∃ d, (exec (.replacementSwitch die) s) = .next { s with dev := d } ∧ (mapFind d.med.replace die = none ∧ d.mapped p.home p.block = (die.val, p.spare))) ∧
  (∀ g s hot cold n z, s.dev.moving g = false → s.dev.hotRow g = some hot → s.dev.coldRow g = some (cold, n, z) →
    s.dev.worthMove g hot cold = true → ∃ d, (exec (.rowMigration g) s) = .next { s with dev := d } ∧ (
      d.med.migrate = s.dev.med.migrate ++ [{ group := g.val, src := cold, dst := hot, nsid := n, zone := z }])) ∧
  (∀ g s m, s.dev.med.migrate.find? (fun m => decide (m.group = g.val)) = some m → (s.dev.zone m.nsid m.zone).staged = [] →
    ∃ d, (exec (.migrationSwitch g) s) = .next { s with dev := d } ∧ ((d.zone m.nsid m.zone).row = some (g.val, m.dst) ∧ m ∉ d.med.migrate)) ∧
  (∀ s, ∃ d, (exec .metadataCheckpoint s) = .next { s with dev := d } ∧ (d.nvm.sheet = s.dev.sheet ∧ d.nvm.tables = some d.tables ∧
    d.med.ckpt = s.dev.sheet ∧ d.med.ckptWear = s.dev.med.wear)) ∧
  (∀ v s, bits v.toNat 30 8 = 0 → ∃ d, (exec (.selftestRun v) s) = .next { s with dev := d } ∧ (d.sys.selftest = true ∧
    (s.dev.sys.selftest = false → d.rd Fd.LDPC_ST_SEL_RUN = 1))) ∧
  (∀ fails s, s.dev.sys.selftest = true → ∃ t, (exec (.selftestDone fails) s) = .next t ∧ (t.dev.sys.selftest = false ∧
    t.dev.rd Fd.LDPC_ST_SEL_RUN = 0 ∧ t.pending = s.pending)) ∧
  (∀ i unit s, s.dev.retestable i unit = true → ∃ t, (exec (.checkerRetest i unit 0) s) = .next t ∧ (t = s.modDev fun d => d.setCheck i none)) ∧
  (∀ (i : Fin 68) unit (step : Fin 64) s, s.dev.retestable i unit = true → 48 ≤ i.val → i.val < 58 → step.val ≠ 0 →
    ∃ d, (exec (.checkerRetest i unit step) s) = .next { s with dev := d } ∧ (d.rd Fd.LDPC_EVT_ST_FAIL = 1 ∧
      mapFind d.ecc.checks i = some { done := true, pass := false, step := step.val })) ∧
  (∀ site s, exec (.sramPatrol site .good) s = .next s) ∧
  (∀ site s, ∃ d, (exec (.sramPatrol site .corrected) s) = .next { s with dev := d } ∧ (
    (d.bucket (siteBucket site)).level = satAdd 0xFFFF (s.dev.bucket (siteBucket site)).level 1)) ∧
  (∀ i s, ∃ d, (exec (.sramPatrol (.camEntry i) .bad) s) = .next { s with dev := d } ∧ (d.cam.entry i = { s.dev.cam.entry i with poison := true } ∧
    d.rd Fd.CAM_EVT_POISON = 1)) ∧
  (∀ (ch : Fin 48) b k s, ∃ d, (exec (.sramPatrol (.hatch ch b k) .bad) s) = .next { s with dev := d } ∧ (
    b2n b * 256 + k.val ∈ (d.chan ch).eccBad))

/-- The decoder tiers (R252 to R256, R258): a hard decode lets its codeword go or posts its first re-read; a waiting codeword takes a soft
decoder, contracted classes first; a soft decode lets its codeword go, posts the next re-read, or after the third hands it to the deep tier; an
escalation takes a record; a deep decode ends one of its record's two paths, and the freed decoder takes the next (`deepFill`); firmware moves the
head of the notices. -/
def Obligations.TiersAct : Prop :=
  (∀ (ch : Fin 48) r cyc s i, s.dev.ecc.items.find? (fun i => decide (i.ch = ch) && i.stage == .hard) = some i →
    r.zeros ≤ 64 ∨ 80 < r.errs ∧ r.ok = false → i.proof = false → i.detached = false →
    ∃ d, (exec (.hardDecodeDone ch r cyc) s) = .next ((fun t => drainEsc (afterChan ch t)) { s with dev := d }) ∧ (
      d.ecc.items = listModFirst (fun y => y == i)
        (fun _ => { i with stage := .reread 1, rrTag := BitVec.ofNat 32 (0xE0000000 + s.dev.ecc.nextTag % 2 ^ 28) }) s.dev.ecc.items)) ∧
  (∀ (ch : Fin 48) r cyc s i x, s.dev.ecc.items.find? (fun i => decide (i.ch = ch) && i.stage == .hard) = some i →
    64 < r.zeros → r.errs ≤ 80 ∨ r.ok = true → (decoded i r.wrong (s.dev.atCycle cyc)).1 = some x →
    ∃ d, (exec (.hardDecodeDone ch r cyc) s) = .next ((fun t => drainEsc (afterChan ch t)) { s with dev := d }) ∧ (
      d.ecc.items = listEraseFirst (fun y => y == i) s.dev.ecc.items)) ∧
  (∀ s, (∃ i ∈ s.dev.ecc.items, i.waitsSoft.isSome = true ∧ (s.dev.softFree i).isSome = true) →
    ∃ d, (exec .softDecodeStart s) = .next { s with dev := d } ∧ (∃ i ∈ s.dev.ecc.items, ∃ k dec out,
      i.waitsSoft = some k ∧ s.dev.softFree i = some (dec, out) ∧ { i with stage := .softRun k dec } ∈ d.ecc.items ∧ dec ∈ d.ecc.softUsed ∧
      ∀ j ∈ s.dev.ecc.items, j.waitsSoft.isSome = true → (s.dev.softFree j).isSome = true →
        (j.contracted s.dev = true → i.contracted s.dev = true) ∧ (j.contracted s.dev = i.contracted s.dev → i.order ≤ j.order))) ∧
  (∀ (dec : Fin 8) r s i k, s.dev.softBusy dec = some i → i.stage = .softRun k dec → r.ok = false → i.detached = false →
    ∃ d, (exec (.softDecodeDone dec r) s) = .next ((fun t => drainEsc (afterChan i.ch t)) { s with dev := d }) ∧ (
      d.ecc.items = listModFirst (fun y => y == i)
        (fun _ => if k < 3 then
            { i with stage := .reread (k + 1), rrTag := BitVec.ofNat 32 (0xE0000000 + s.dev.ecc.nextTag % 2 ^ 28) }
          else { i with stage := .waitRecord, order := s.dev.ecc.arrivals }) s.dev.ecc.items)) ∧
  (∀ (dec : Fin 8) r s i x, s.dev.softBusy dec = some i → r.ok = true → (decoded i r.wrong s.dev).1 = some x →
    ∃ d, (exec (.softDecodeDone dec r) s) = .next ((fun t => drainEsc (afterChan i.ch t)) { s with dev := d }) ∧ (
      d.ecc.items = listEraseFirst (fun y => y == i) s.dev.ecc.items)) ∧
  (∀ s, (∃ i ∈ s.dev.ecc.items, i.stage = .waitRecord) → (∀ i ∈ s.dev.ecc.items, i.stage = .waitRecord → i.detached = false) →
    s.dev.ecc.escs.length < 128 →
    ∃ d, (exec .deepEscalation s) = .next ((fun t => drainEsc (afterChan s.dev.escChan t)) { s with dev := d }) ∧ (
      ∃ d0 x, d = (if x.deep = .queued then deepFill d0 else d0) ∧ mapFind d0.ecc.escs s.dev.freeEsc = some x ∧
        (∃ i ∈ s.dev.ecc.items, i.stage = .waitRecord ∧ ∃ tag n, x.item = { i with rrTag := tag, order := n }) ∧
        x.parity = .queued ∧ x.delivered = false ∧ (x.deep = .queued ∨ x.deep = .none) ∧
        (x.deep = .queued ↔ s.dev.deepQueued < 64 ∧ (s.dev.deepOk 0 = true ∨ s.dev.deepOk 1 = true)))) ∧
  (∀ (e : Fin 128) r s x, mapFind s.dev.ecc.escs e = some x → x.deep = .running → r.ok = false →
    ∃ d, (exec (.deepDecodeDone e r) s) = .next (drainEsc { s with dev := d }) ∧ (∃ d0, d = deepFill d0 ∧
      mapFind d0.ecc.escs e = if x.parity.ended then none else some { x with deep := .failed })) ∧
  (∀ (e : Fin 128) r s x y, mapFind s.dev.ecc.escs e = some x → x.deep = .running → r.ok = true →
    (decoded x.item r.wrong s.dev).1 = some y →
    ∃ d, (exec (.deepDecodeDone e r) s) = .next (drainEsc { s with dev := d }) ∧ (∃ d0, d = deepFill d0 ∧
      mapFind d0.ecc.escs e = if x.parity.ended then none else some { x with deep := .passed, delivered := true })) ∧
  (∀ v s, bits v.toNat 31 16 = 0 → ∃ d, (exec (.escHeadWrite v) s) = .next (drainEsc { s with dev := d }) ∧ (
    d.rd Fd.LDPC_ESC_HEAD_INDEX = v.toNat ∧ d.ecc = s.dev.ecc))

/-- The parity engines (R263 to R270): a posted job takes the lowest free slot of its band's engine, or is refused; a malformed one ends with
0x10; OPEN, ADD, CLOSE, RECON, DROP and CANCEL do what they name; a contribution is taken, 96 a stroke; a finished job leaves its slot with one
entry for the ring, within what remains of its band's budget (counted as
log entry 137 has it). -/
def Obligations.ParityActs : Prop :=
  (∀ g job s op i e, (op, i) ∈ [(1, Instr.parityOpen g job), (2, .parityAdd g job), (3, .parityClose g job), (4, .parityRecon g job),
      (5, .parityDrop g job), (6, .parityCancel g job)] →
    (s.dev.engineFor (postedAs op job).jBand = some e → s.dev.freeJob e < 256 → ∃ d, (exec i s) = .next { s with dev := d } ∧ (
      d.rdb g Fd.PAR_JOB_STAT_RESULT = 1 ∧ d.rdb g Fd.PAR_JOB_STAT_ENGINE = e ∧ d.rdb g Fd.PAR_JOB_STAT_SLOT = s.dev.freeJob e ∧
      (s.dev.jobBad (postedAs op job) = true → ∃ j, d.parJob e (s.dev.freeJob e) = some j ∧ j.status = some 0x10))) ∧
    (s.dev.engineFor (postedAs op job).jBand = none ∨ s.dev.engineFor (postedAs op job).jBand = some e ∧ 256 ≤ s.dev.freeJob e →
      ∃ d, (exec i s) = .next { s with dev := d } ∧ (d.rdb g Fd.PAR_JOB_STAT_RESULT = 2 ∧ d.par = s.dev.par))) ∧
  (∀ g job s e, s.dev.engineFor (postedAs 1 job).jBand = some e → s.dev.freeJob e < 256 → s.dev.jobBad (postedAs 1 job) = false →
    ∃ d, (exec (.parityOpen g job) s) = .next { s with dev := d } ∧ (d.acc? job.jAcc = some { bitmap := 0, p := [], q := [], bad := false } ∧
      ∃ j, d.parJob e (s.dev.freeJob e) = some j ∧ j.status = some 0)) ∧
  (∀ g job s e, s.dev.engineFor (postedAs 2 job).jBand = some e → s.dev.freeJob e < 256 → s.dev.jobBad (postedAs 2 job) = false →
    s.dev.accBad (postedAs 2 job) = false →
    ∃ d, (exec (.parityAdd g job) s) = .next { s with dev := d } ∧ (∃ j, d.parJob e (s.dev.freeJob e) = some j ∧
      j.status = (if (postedAs 2 job).jFromReads then none else some 0) ∧
      ((postedAs 2 job).jFromReads = false → ∃ a b, s.dev.acc? job.jAcc = some a ∧ d.acc? job.jAcc = some b ∧
        b.bitmap = if bit a.bitmap (postedAs 2 job).jPos then a.bitmap else a.bitmap + 2 ^ (postedAs 2 job).jPos))) ∧
  (∀ g job s e, s.dev.engineFor (postedAs 3 job).jBand = some e → s.dev.freeJob e < 256 → s.dev.jobBad (postedAs 3 job) = false →
    s.dev.accBad (postedAs 3 job) = false →
    ∃ d, (exec (.parityClose g job) s) = .next { s with dev := d } ∧ (d.acc? job.jAcc = none ∧ ∃ j, d.parJob e (s.dev.freeJob e) = some j ∧ j.status = some 0)) ∧
  (∀ g job s e, s.dev.engineFor (postedAs 4 job).jBand = some e → s.dev.freeJob e < 256 → s.dev.jobBad (postedAs 4 job) = false →
    s.dev.accBad (postedAs 4 job) = false →
    ∃ d, (exec (.parityRecon g job) s) = .next { s with dev := d } ∧ (d.par.accs = s.dev.par.accs ∧ ∃ j, d.parJob e (s.dev.freeJob e) = some j ∧ j.status = none ∧
      j.words = postedAs 4 job ∧ (∀ n r, job.jEsc = some n → mapFind s.dev.ecc.escs n = some r → r.parity.ended = false → r.item.detached = false →
        mapFind d.ecc.escs n = some { r with parity := .running }))) ∧
  (∀ g job s e, s.dev.engineFor (postedAs 5 job).jBand = some e → s.dev.freeJob e < 256 → s.dev.jobBad (postedAs 5 job) = false →
    ∃ d, (exec (.parityDrop g job) s) = .next { s with dev := d } ∧ (d.acc? job.jAcc = none ∧ ∃ j, d.parJob e (s.dev.freeJob e) = some j ∧ j.status = some 0)) ∧
  (∀ g job s e j, s.dev.engineFor (postedAs 6 job).jBand = some e → s.dev.freeJob e < 256 → s.dev.jobBad (postedAs 6 job) = false →
    s.dev.parJob e (bits job.jAcc 7 0) = some j → j.status = none → bits job.jAcc 7 0 ≠ s.dev.freeJob e →
    ∃ d, (exec (.parityCancel g job) s) = .next { s with dev := d } ∧ (d.parJob e (bits job.jAcc 7 0) = some { j with status := some 2 })) ∧
  (∀ (b : Fin 3) s c, s.dev.par.contribs.find? (fun c => decide (c.band = b.val)) = some c → mapGet 0 s.dev.par.used b < 96 →
    ∃ d, (exec (.parityContribution b) s) = .next { s with dev := d } ∧ (d.par.contribs = listEraseFirst (fun x => x == c) s.dev.par.contribs ∧
      mapGet 0 d.par.used b = mapGet 0 s.dev.par.used b + 1)) ∧
  (∀ (e : Fin 3) (k : Fin 256) s j, s.dev.parJob e k = some j → j.status.isSome = true ∨ j.complete = true →
    mapGet 0 s.dev.par.used j.words.jBand + j.cost ≤ 96 → ∃ d, (exec (.parityJobDone e k) s) = .next (drainPar { s with dev := d }) ∧ (d.parJob e k = none ∧
      ∃ w, d.par.cq = s.dev.par.cq ++ [[w, j.words.tag, BitVec.ofNat 32 j.words.jAcc, 0]])) ∧
  (∀ v s, bits v.toNat 31 16 = 0 → ∃ d, (exec (.parityJcqHeadWrite v) s) = .next (drainPar { s with dev := d }) ∧ (
    d.rd Fd.PAR_JCQ_HEAD_INDEX = v.toNat ∧ d.par = s.dev.par))

/-- Stipple (R277 to R281): the next read of an urgent row, else of the pass, is posted and remembered; a pass with nothing left ends and the
next begins; a pass past its target is marked once; an urgent row joins its list, or is told off where the list is full. -/
def Obligations.StippleActs : Prop :=
  (∀ (ch : Fin 48) s b t k, s.dev.is Fd.STIP_CTL_EN = true → s.dev.is Fd.STIP_CTL_HOLD = false → (s.dev.chan ch).retired = false →
    s.dev.urgentOn ch = none → stipNext ch s = some (b, t, k) → s.dev.stipRoom ch t = true →
    ∃ d, (exec (.stippleReadPost ch) s) = .next ((afterChan ch) { s with dev := d }) ∧ (
      (d.stipChan ch).block = b ∧ (d.stipChan ch).target = t ∧ (d.stipChan ch).k = k + 1 ∧
      (d.stipChan ch).posted = (s.dev.stipChan ch).posted ++ [{ tag := BitVec.ofNat 32 (0xF0000000 + s.dev.stip.nextTag % 2 ^ 28)
                                                                target := t, block := b, gen := stipGen (s.stipEntry ch t b) }])) ∧
  (∀ (ch : Fin 48) s u k, s.dev.is Fd.STIP_CTL_EN = true → s.dev.is Fd.STIP_CTL_HOLD = false → (s.dev.chan ch).retired = false →
    s.dev.urgentOn ch = some u →
    s.stipVisit ch (u.group % 32) (s.dev.mapped (dieNumber ch (u.group % 32)) u.row).2 (s.dev.stipChan ch).log2 (s.dev.stipChan ch).lap
      (s.dev.stipChan ch).urgK = some k →
    s.dev.stipRoom ch (u.group % 32) = true →
    ∃ d, (exec (.stippleReadPost ch) s) = .next ((afterChan ch) { s with dev := d }) ∧ ((d.stipChan ch).urgK = k + 1 ∧ d.stip.urgent = s.dev.stip.urgent ∧
      (d.stipChan ch).posted.length = (s.dev.stipChan ch).posted.length + 1)) ∧
  (∀ (ch : Fin 48) s, s.dev.is Fd.STIP_CTL_EN = true → s.dev.is Fd.STIP_CTL_HOLD = false → (s.dev.chan ch).retired = false →
    s.dev.urgentOn ch = none → stipNext ch s = none → stipNext ch (s.modDev (stipPassEnd ch)) = none →
    ∃ d, (exec (.stippleReadPost ch) s) = .next ((afterChan ch) { s with dev := d }) ∧ ((d.stipChan ch).lap = (s.dev.stipChan ch).lap + 1 ∧
      (d.stipChan ch).lastLap = s.dev.sheet - (s.dev.stipChan ch).start ∧ d.rd Fd.STIP_EVT_LAP = 1)) ∧
  (∀ (ch : Fin 48) s, (s.dev.stipChan ch).log2 ≠ 0 → (s.dev.stipChan ch).late = false →
    s.dev.rd Fd.STIP_TARGET_SHEETS < s.dev.sheet - (s.dev.stipChan ch).start →
    ∃ d, (exec (.stippleLate ch) s) = .next { s with dev := d } ∧ ((d.stipChan ch).late = true ∧ d.rd Fd.STIP_EVT_LATE = 1)) ∧
  (∀ v s, bits v.toNat 31 23 = 0 → bits v.toNat 15 12 = 0 → bits v.toNat 22 16 < 96 →
    ∃ d, (exec (.stipUrgPost v) s) = .next { s with dev := d } ∧ (
      if s.dev.stip.urgent.length < 4096 then
        d.stip.urgent = s.dev.stip.urgent ++ [{ group := bits v.toNat 22 16, row := bits v.toNat 11 0, left := List.range 16 }]
      else d.rd Fd.STIP_EVT_URG_FULL = 1 ∧ d.stip = s.dev.stip))

/-- The cipher engine (R288, R294, R296, R298 to R306): an epoch is taken only while the lanes stand still; the nonce is read whole; jobs queue or
are told off; a lane takes its choice, latches the key and leaves it once done; a slot that is not loaded denies; jobs end with their entry;
keys are generated, loaded from their blob or refused, and purged. -/
def Obligations.CipherActs : Prop :=
  (∀ v s, ∃ d, (exec (.ciphEpochWrite v) s) = .next { s with dev := d } ∧ (
    if s.dev.is Fd.CIPH_CTL_EN = true then d.rd Fd.CIPH_EVT_CFG_IGN = 1 ∧ d.ciph = s.dev.ciph
    else d.rd Fd.CIPH_EPOCH_EPOCH = v.toNat % 2 ^ (Fd.CIPH_EPOCH_EPOCH.hi - Fd.CIPH_EPOCH_EPOCH.lo + 1) ∧ d.ciph = { s.dev.ciph with nonce := 0, epochSet := true })) ∧
  (∀ s, ∃ d, (exec .nonceLoRead s) = .next { s with dev := d } ∧ (d.bus = { data := BitVec.ofNat 64 (s.dev.ciph.nonce % 2 ^ 32), err := false } ∧
    d.ciph = { s.dev.ciph with nonceHi := s.dev.ciph.nonce / 2 ^ 32 % 2 ^ 32 })) ∧
  (∀ (g : Fin 64) x s, ∀ p ∈ [(1, Instr.cipherJobEncrypt g x), (2, .cipherJobDecrypt g x)], ∃ d, (exec p.2 s) = .next { s with dev := d } ∧ (
    if s.dev.ciph.jobQ.length < 256 then d.rdb g Fd.CIPH_JOB_STAT_RESULT = 1 ∧ d.ciph.jobQ = s.dev.ciph.jobQ ++
      [{ work := .job (postedAs p.1 x) g, ch := 0, owned := false, since := s.dev.now, order := s.dev.ciph.seq }]
    else d.rdb g Fd.CIPH_JOB_STAT_RESULT = 2 ∧ d.ciph = s.dev.ciph)) ∧
  (∀ (n : Fin 48) cyc s t i, s.dev.is Fd.CIPH_CTL_EN = true → s.dev.laneOk n = true → (s.dev.lane n).busy = none →
    (s.dev.atCycle cyc).laneChoice n = some (t, i) →
    ∃ d, (exec (.laneSectorStart n cyc) s) = .next { s with dev := d } ∧ (
      let x := s.dev.keySlot (s.dev.itemSlot i)
      match i.work with
      | .read _ _ r => if x.state = .loaded ∧ mdKeygen r.md = x.gen then
            (d.lane n).busy = some i ∧ (d.lane n).key = x.key ∧ (d.lane n).mode = x.mode ∧ (d.lane n).gen = x.gen
          else d.rd Fd.CIPH_EVT_DENIED = 1 ∧ (d.lane n).busy = none
      | .write _ _ _ => if x.state = .loaded then
            (d.lane n).busy = some i ∧ (d.lane n).key = x.key ∧ (d.lane n).mode = x.mode ∧ (d.lane n).gen = x.gen
          else d.rd Fd.CIPH_EVT_DENIED = 1 ∧ (d.lane n).busy = none
      | .job w _ => (d.lane n).busy = some i ∧ (d.lane n).key = x.key ∧ (d.lane n).status = s.dev.jobStatus w)) ∧
  (∀ (n : Fin 48) cyc s i k idx p x, (s.dev.lane n).busy = some i → i.work = .write k idx p → s.dev.slot? k = some x →
    ∃ d, (exec (.laneSectorDone n cyc) s) = .next { s with dev := d } ∧ ((d.lane n).busy = none ∧
      (∃ y, d.slot? k = some y ∧ y.arrived = listAdd x.arrived idx) ∧
      d.ciph.nonce = if (s.dev.lane n).mode = 2 then s.dev.ciph.nonce + 1 else s.dev.ciph.nonce)) ∧
  (∀ (n : Fin 48) cyc s i k idx r x, (s.dev.lane n).busy = some i → i.work = .read k idx r → s.dev.slot? k = some x → s.dev.mute x.fn = false →
    ∃ d, (exec (.laneSectorDone n cyc) s) = .next { s with dev := d } ∧ ((d.lane n).busy = none ∧
      (x.sqe.op ≠ 0x0C → (decryptSector (s.dev.lane n).key (s.dev.lane n).mode r).2 = true →
        d.out = .hostSector x.fn k idx (decryptSector (s.dev.lane n).key (s.dev.lane n).mode r).1 :: s.dev.out) ∧
      (x.sqe.op = 0x0C → d.out = s.dev.out) ∧
      ((decryptSector (s.dev.lane n).key (s.dev.lane n).mode r).2 = false → d.rd Fd.CIPH_EVT_AUTH = 1))) ∧
  (∀ (n : Fin 48) s i w g, (s.dev.lane n).busy = some i → i.work = .job w g → (s.dev.lane n).status ≠ 0 →
    exec (.cipherJobDone n) s = .next (drainCiph (s.modDev fun d => purgeEnd (s.dev.lane n).slot
      (((d.modLane n fun l => { l with busy := none }).idleFrom (laneChecker + n)).modCiph fun c =>
        { c with jcq := c.jcq ++ [[BitVec.ofNat 32 ((s.dev.lane n).status * 2 ^ 24), w.d7, 0, 0]] })))) ∧
  (∀ (n : Fin 48) s i w g, (s.dev.lane n).busy = some i → i.work = .job w g →
    ∃ t, (exec (.cipherJobDone n) s) = .next t ∧ ((t.dev.lane n).busy = none)) ∧
  (∀ v s S, s.dev.rd Fd.CIPH_SLOT_SEL_SLOT = S → bits v.toNat 30 8 = 0 → isNsSlot S = true ∨ isFwSlot S = true →
    bits v.toNat 7 6 = 1 ∨ bits v.toNat 7 6 = 2 →
    ∃ t, (exec (.keyGenerate v) s) = .next t ∧ (t.dev.rd Fd.CIPH_EVT_KEY_DONE = 1 ∧
      if (s.dev.keySlot S).state = .empty then t.dev.rd Fd.CIPH_KEY_STAT_RESULT = 0 ∧
        t.dev.keySlot S = { state := .loaded, mode := bits v.toNat 7 6, gen := ((s.dev.keySlot S).gen + 1) % 2 ^ 32, key := Config.random s.dev.nfree }
      else t.dev.rd Fd.CIPH_KEY_STAT_RESULT = 5 ∧ t.dev.ciph = s.dev.ciph)) ∧
  (∀ v s S, s.dev.rd Fd.CIPH_SLOT_SEL_SLOT = S → bits v.toNat 30 8 = 0 → isNsSlot S = true ∨ isFwSlot S = true → bits v.toNat 5 4 = 0 →
    (s.dev.keySlot S).state = .empty →
    ∃ t, (exec (.keyLoad v) s) = .next t ∧ (t.dev.rd Fd.CIPH_EVT_KEY_DONE = 1 ∧
      match blobKey S Config.rootKey ((s.modDev (keyCmdFields v.toNat 2)).readBytes 128 s.dev.keyAddr) with
      | .ok k => t.dev.keySlot S = k ∧ t.dev.rd Fd.CIPH_KEY_STAT_RESULT = 0
      | .error r => t.dev.ciph = s.dev.ciph ∧ t.dev.rd Fd.CIPH_KEY_STAT_RESULT = r)) ∧
  (∀ v s S, s.dev.rd Fd.CIPH_SLOT_SEL_SLOT = S → S < 4159 → bits v.toNat 30 8 = 0 →
    ∃ d, (exec (.keyCmdPurge v) s) = .next { s with dev := d } ∧ (d.rd Fd.CIPH_KEY_STAT_RESULT = 0 ∧ (d.keySlot S).key = 0 ∧
      ((∀ n < 48, (s.dev.lane n).busy.isSome = true → (s.dev.lane n).slot ≠ S) → (d.keySlot S).state = .empty ∧ d.rd Fd.CIPH_EVT_KEY_DONE = 1) ∧
      ((∃ n < 48, (s.dev.lane n).busy.isSome = true ∧ (s.dev.lane n).slot = S) → (d.keySlot S).state = .purging)))

/-- Jenam groups 0x01 and 0x02 (R143, R144, R149, R150, R394, Tables 5-1, 14-4 and 14-5): a request whose turn it is is answered; the reports
change nothing; a tenant is created, changed and deleted, or the request refused with the code of its first failing check; a function and a
class take their new values. -/
def Obligations.JenamTenantsAct : Prop :=
  (∀ (buf : Fin 32) s b, JenamReady s buf 0x0101 b [] → ∃ t, (exec (.getInfo buf) s) = .next (jenamDone b jsOk (layout 12 [(0, 2, 0x4800), (2, 2, 0x5658), (4, 1, s.dev.rd Fd.SYS_REVISION_STEP), (5, 1, s.dev.rd Fd.SYS_REVISION_METAL), (6, 1, s.dev.sys.role),
      (7, 1, s.dev.cascade), (8, 1, s.dev.rd Fd.GRV_BOOT_SLOT), (9, 1, s.dev.nvm.svn)]) t) ∧ (t = s)) ∧
  (∀ (buf : Fin 32) s b, JenamReady s buf 0x0102 b [] → ∃ t, (exec (.getGeometry buf) s) = .next (jenamDone b jsOk (layout 28 [(0, 2, 48), (2, 2, 32), (4, 1, 4), (5, 1, 4), (6, 2, 3600), (8, 2, 2304), (10, 2, 16384), (12, 2, 8), (14, 2, 4), (16, 2, 2),
      (18, 2, 3350), (20, 2, 236), (22, 2, 2048), (24, 4, 516096)]) t) ∧ (t = s)) ∧
  (∀ (buf : Fin 32) s b p, JenamReady s buf 0x0201 b p → tenantOk p = true → s.dev.tenantHere (jf p 0 2) = false →
    s.dev.tenantOver p = false → (jf p 2 1 = 1 → s.dev.groupsShared (jf p 0 2) = false) →
    ∃ t, (exec (.tenCreate buf) s) = .next (jenamDone b jsOk (layout 4 [(0, 2, jf p 0 2)]) t) ∧ (t.dev.tenantHere (jf p 0 2) = true ∧
      t.dev.tenantHas (jf p 0 2) p = true)) ∧
  (∀ (buf : Fin 32) s b p, JenamReady s buf 0x0201 b p → tenantOk p = true → s.dev.tenantHere (jf p 0 2) = true →
    if s.dev.tenantHas (jf p 0 2) p = true then ∃ t, (exec (.tenCreate buf) s) = .next (jenamDone b jsAlready (layout 4 [(0, 2, jf p 0 2)]) t) ∧ (t = s)
    else ∃ t, (exec (.tenCreate buf) s) = .next (jenamDone b jsExists [] t) ∧ (t = s)) ∧
  (∀ (buf : Fin 32) s b p, JenamReady s buf 0x0202 b p → tenantOk p = true → s.dev.tenantHere (jf p 0 2) = true →
    s.dev.tenantOver p = false → (jf p 2 1 = 1 → s.dev.groupsShared (jf p 0 2) = false) →
    ∃ t, (exec (.tenSet buf) s) = .next (jenamDone b jsOk (layout 4 [(0, 2, jf p 0 2)]) t) ∧ (t.dev.tenantHere (jf p 0 2) = true ∧
      t.dev.tenantHas (jf p 0 2) p = true)) ∧
  (∀ (buf : Fin 32) s b p, tenantOk p = true → ∀ i ∈ [(0x0201, Instr.tenCreate buf, false), (0x0202, .tenSet buf, true)],
    JenamReady s buf i.1 b p → s.dev.tenantHere (jf p 0 2) = i.2.2 →
    (s.dev.tenantOver p = true → ∃ t, (exec i.2.1 s) = .next (jenamDone b jsLimit [] t) ∧ (t = s)) ∧
    (s.dev.tenantOver p = false → jf p 2 1 = 1 → s.dev.groupsShared (jf p 0 2) = true → ∃ t, (exec i.2.1 s) = .next (jenamDone b jsIsolation [] t) ∧ (t = s))) ∧
  (∀ (buf : Fin 32) s b p, JenamReady s buf 0x0203 b p → p.length = 4 → jf p 2 2 = 0 → 0 < jf p 0 2 → jf p 0 2 < 1024 →
    s.dev.tenantHere (jf p 0 2) = true →
    if s.dev.tenantOwns (jf p 0 2) = true then ∃ t, (exec (.tenDelete buf) s) = .next (jenamDone b jsState [] t) ∧ (t = s)
    else ∃ t, (exec (.tenDelete buf) s) = .next (jenamDone b jsOk [] t) ∧ (t.dev.tenantHere (jf p 0 2) = false)) ∧
  (∀ (buf : Fin 32) s b p, JenamReady s buf 0x0204 b p → p.length = 16 → jf p 0 2 ≤ 1025 → s.dev.tenantHere (jf p 2 2) = true →
    jf p 4 2 ≤ (if isPf (jf p 0 2) then 4096 else 256) → jf p 6 2 ≤ (if isPf (jf p 0 2) then 4096 else 256) → jf p 8 4 ≤ 131072 → jf p 12 4 ≤ 131072 →
    (jf p 2 2 ≠ s.dev.tenantOf (jf p 0 2) → s.dev.movable (jf p 0 2) = true) → s.dev.reachesForeign (jf p 0 2) (jf p 2 2) = false →
    s.dev.funcOver (jf p 0 2) p = false →
    ∃ t, (exec (.funcAssign buf) s) = .next (jenamDone b jsOk [] t) ∧ (t.dev.tenantOf (jf p 0 2) = jf p 2 2 ∧ (t.dev.func (jf p 0 2)).sqQuota = jf p 4 2 ∧
      (t.dev.func (jf p 0 2)).cqQuota = jf p 6 2 ∧ t.dev.rdb (jf p 0 2) Fd.TEN_F_SLOT_FLOOR_SLOTS = jf p 8 4 ∧
      t.dev.rdb (jf p 0 2) Fd.TEN_F_SLOT_CAP_SLOTS = jf p 12 4)) ∧
  (∀ (buf : Fin 32) s b p, JenamReady s buf 0x0205 b p → p.length = 8 → jf p 0 1 < 15 → jf p 1 1 < 8 → s.dev.tenantHere (jf p 2 2) = true →
    jf p 4 4 < 2 ^ 20 → (jf p 1 1 % 2 = 1 → ∀ e ∈ s.dev.zm.ns, e.2.cls = jf p 0 1 → e.2.owner = jf p 2 2) →
    (jf p 1 1 / 4 = 1 → s.dev.softHolders (jf p 0 1) < 4) →
    ∃ t, (exec (.classSet buf) s) = .next (jenamDone b jsOk [] t) ∧ (t.dev.rdb (jf p 0 1) Fd.TEN_CLS_CFG_EXCL = jf p 1 1 % 2 ∧
      t.dev.rdb (jf p 0 1) Fd.TEN_CLS_CFG_PACE = jf p 1 1 / 2 % 2 ∧ t.dev.rdb (jf p 0 1) Fd.TEN_CLS_CFG_SOFT_RSV = jf p 1 1 / 4 ∧
      t.dev.rdb (jf p 0 1) Fd.TEN_CLS_CFG_OWNER = jf p 2 2 ∧ t.dev.rdb (jf p 0 1) Fd.TEN_CLS_PACE_PACE = jf p 4 4)) ∧
  (∀ (buf : Fin 32) s b p, JenamReady s buf 0x0206 b p → p.length = 4 → jf p 2 2 = 0 → s.dev.tenantHere (jf p 0 2) = true →
    ∃ t, (exec (.tenUsage buf) s) = .next (jenamDone b jsOk (layout 40 [(0, 8, s.dev.tenantSum (jf p 0 2) (·.sectorsRead)),
      (8, 8, s.dev.tenantSum (jf p 0 2) (·.sectorsWritten)), (16, 8, s.dev.tenantSum (jf p 0 2) (·.reads)), (24, 8, s.dev.tenantSum (jf p 0 2) (·.writes)),
      (32, 4, s.dev.pool.held (jf p 0 2)), (36, 2, s.dev.stagedMib (jf p 0 2)), (38, 1, s.dev.refoldsOf (jf p 0 2))]) t) ∧ (t = s))

/-- Jenam group 0x03 (R108, R113, R141, R142, R149, R394, R396, R397, Table 14-6): a namespace is created with its key and its zones, attached and
detached, set, given reservations and handles, and deleted; what is in force already answers so, and a namespace that is not there is not found. -/
def Obligations.JenamNamespacesAct : Prop :=
  (∀ (buf : Fin 32) s b p, JenamReady s buf 0x0301 b p → nsCreateOk p = true → s.dev.rowsAstray (jRows p) = false → s.dev.ns? (jf p 0 4) = none →
    s.dev.nsRefusal p = none → bit (jf p 9 1) 2 = false → (s.dev.keySlot (nsSlot (jf p 0 4))).state = .empty →
    ∃ t, (exec (.nsCreate buf) s) = .next (jenamDone b jsOk (layout 20 [(0, 4, jf p 0 4), (4, 4, (newNs p s.dev).zones), (8, 8, (newNs p s.dev).size),
      (16, 4, ((s.dev.keySlot (nsSlot (jf p 0 4))).gen + 1) % 2 ^ 32)]) t) ∧ (t.dev.ns? (jf p 0 4) = some (newNs p s.dev) ∧
      t.dev.keySlot (nsSlot (jf p 0 4)) = { state := .loaded, mode := jf p 8 1, gen := ((s.dev.keySlot (nsSlot (jf p 0 4))).gen + 1) % 2 ^ 32, key := Config.random s.dev.nfree })) ∧
  (∀ (buf : Fin 32) s b p ns, JenamReady s buf 0x0301 b p → nsCreateOk p = true → s.dev.rowsAstray (jRows p) = false →
    s.dev.ns? (jf p 0 4) = some ns →
    if s.dev.sameNs (jf p 0 4) ns p = true then ∃ t, (exec (.nsCreate buf) s) = .next (jenamDone b jsAlready (s.dev.nsReply (jf p 0 4)) t) ∧ (t = s)
    else ∃ t, (exec (.nsCreate buf) s) = .next (jenamDone b jsExists [] t) ∧ (t = s)) ∧
  (∀ (buf : Fin 32) s b p st, JenamReady s buf 0x0301 b p → nsCreateOk p = true → s.dev.rowsAstray (jRows p) = false →
    s.dev.ns? (jf p 0 4) = none → s.dev.nsRefusal p = some st → ∃ t, (exec (.nsCreate buf) s) = .next (jenamDone b st [] t) ∧ (t = s)) ∧
  (∀ (buf : Fin 32) s b p ns, JenamReady s buf 0x0302 b p → s.dev.jBuf buf = some b → s.dev.nsQuiet (jf p 0 4) s.dev.host.seq = true →
    p.length = 4 → s.dev.ns? (jf p 0 4) = some ns → jf p 0 4 ≤ 4096 →
    ∃ t, (exec (.nsDelete buf) s) = .next (jenamDone b jsOk [] t) ∧ (t.dev.ns? (jf p 0 4) = none ∧ (t.dev.keySlot (nsSlot (jf p 0 4))).key = 0 ∧
      (∀ z, z < 2 ^ 20 → mapFind t.dev.zm.zones (jf p 0 4 * 2 ^ 20 + z) = none))) ∧
  (∀ (buf : Fin 32) s b p ns, JenamReady s buf 0x0303 b p → p.length = 8 → jf p 6 2 = 0 → s.dev.ns? (jf p 0 4) = some ns → jf p 4 2 ≤ 1025 →
    if jf p 4 2 ∈ ns.attached then ∃ t, (exec (.nsAttach buf) s) = .next (jenamDone b jsAlready [] t) ∧ (t = s)
    else if s.dev.tenantOf (jf p 4 2) = ns.owner ∨ ns.shared = true then ∃ t, (exec (.nsAttach buf) s) = .next (jenamDone b jsOk [] t) ∧ (
      t.dev.ns? (jf p 0 4) = some { ns with attached := ns.attached ++ [jf p 4 2] })
    else ∃ t, (exec (.nsAttach buf) s) = .next (jenamDone b jsIsolation [] t) ∧ (t = s)) ∧
  (∀ (buf : Fin 32) s b p ns, JenamReady s buf 0x0304 b p → s.dev.jBuf buf = some b → s.dev.nsQuiet (jf p 0 4) s.dev.host.seq = true →
    p.length = 8 → jf p 6 2 = 0 → s.dev.ns? (jf p 0 4) = some ns → jf p 4 2 ≤ 1025 →
    if jf p 4 2 ∈ ns.attached then ∃ t, (exec (.nsDetach buf) s) = .next (jenamDone b jsOk [] t) ∧ (
      t.dev.ns? (jf p 0 4) = some { ns with attached := ns.attached.filter fun k => k ≠ jf p 4 2 } ∧ jf p 0 4 ∈ (t.dev.func (jf p 4 2)).changedNs)
    else ∃ t, (exec (.nsDetach buf) s) = .next (jenamDone b jsAlready [] t) ∧ (t = s)) ∧
  (∀ (buf : Fin 32) s b p ns, JenamReady s buf 0x0305 b p → p.length = 8 → jf p 4 1 ≤ 15 → jf p 5 1 = 0 ∨ jf p 5 1 = 2 →
    s.dev.ns? (jf p 0 4) = some ns → (if ns.zoned = true then 0 < jf p 6 2 ∧ jf p 6 2 ≤ 2048 else jf p 6 2 = 0) →
    s.dev.activeOf (jf p 0 4) ≤ jf p 6 2 → (jf p 5 1 = 0 → ∀ f ∈ ns.attached, s.dev.tenantOf f = ns.owner) →
    s.dev.classForeign ns.owner (jf p 4 1) = false → s.dev.othersLimit (jf p 0 4) + jf p 6 2 ≤ 2048 →
    ∃ t, (exec (.nsSet buf) s) = .next (jenamDone b jsOk [] t) ∧ (
      t.dev.ns? (jf p 0 4) = some { ns with cls := jf p 4 1, shared := decide (jf p 5 1 = 2), limit := jf p 6 2 })) ∧
  (∀ (buf : Fin 32) s b p ns, JenamReady s buf 0x0306 b p → p.length = 800 → jf p 4 28 = 0 → 0 < rowSum (jRows p) → s.dev.rowsAstray (jRows p) = false →
    s.dev.ns? (jf p 0 4) = some ns → ns.zoned = true → s.dev.reserveHeld (jf p 0 4) ns (jRows p) = false →
    s.dev.groupsClash ns.owner (jf p 0 4) (s.dev.exclGroups ns.owner) ((jRows p).map (·.1)) = false → s.dev.rowsOver (jf p 0 4) (jRows p) = false →
    ∃ t, (exec (.reserveSet buf) s) = .next (jenamDone b jsOk [] t) ∧ (t.dev.ns? (jf p 0 4) = some { ns with rows := jRows p, zones := rowSum (jRows p) })) ∧
  (∀ (buf : Fin 32) s b p ns, JenamReady s buf 0x0307 b p → p.length = 56 → 0 < jf p 4 1 → jf p 4 1 ≤ 15 → jf p 5 1 ≤ 3 → jf p 6 2 = 0 →
    s.dev.ns? (jf p 0 4) = some ns → ns.zoned = true → (∀ g < 384, bit (jf p (8 + g / 8) 1) (g % 8) = true → g ∈ ns.groups) →
    ∃ t, (exec (.handleSet buf) s) = .next (jenamDone b jsOk [] t) ∧ (∃ y, t.dev.ns? (jf p 0 4) = some y ∧
      if bit (jf p 5 1) 1 = true then mapFind y.handles (jf p 4 1) = none
      else mapFind y.handles (jf p 4 1) = some { groups := (List.range 384).filter fun g => bit (jf p (8 + g / 8) 1) (g % 8), spill := bit (jf p 5 1) 0 })) ∧
  (∀ (buf : Fin 32) s b p, s.dev.ns? (jf p 0 4) = none →
    (JenamReady s buf 0x0302 b p → p.length = 4 → s.dev.jBuf buf = some b → ∃ t, (exec (.nsDelete buf) s) = .next (jenamDone b jsNotFound [] t) ∧ (t = s)) ∧
    (JenamReady s buf 0x0303 b p → p.length = 8 → jf p 6 2 = 0 → ∃ t, (exec (.nsAttach buf) s) = .next (jenamDone b jsNotFound [] t) ∧ (t = s)) ∧
    (JenamReady s buf 0x0305 b p → p.length = 8 → jf p 4 1 ≤ 15 → jf p 5 1 = 0 → ∃ t, (exec (.nsSet buf) s) = .next (jenamDone b jsNotFound [] t) ∧ (t = s)))

/-- Jenam groups 0x04 and 0x05 (R54, R55, R214, R299, R398, R399, Table 14-8): standby banks are written whole and read back; a plan is armed for
one sheet on every channel named or on none, stopped or withdrawn; class priorities are set; keys are agreed on, imported, purged and set. -/
def Obligations.JenamPlansAct : Prop :=
  (∀ (buf : Fin 32) s b p, JenamReady s buf 0x0401 b p → p.length = 2064 → jf p 0 8 < 2 ^ 48 → jf p 10 6 = 0 →
    if (jChannels p).any (fun n => (s.dev.chan n).bankLocked (s.dev.chan n).standby) = true then ∃ t, (exec (.hatchWrite buf) s) = .next (jenamDone b jsState [] t) ∧ (t = s)
    else ∃ t, (exec (.hatchWrite buf) s) = .next (jenamDone b jsOk [] t) ∧ (∀ n,
      if n ∈ jChannels p then (t.dev.chan n).live = (s.dev.chan n).live ∧ (t.dev.chan n).sealOf (s.dev.chan n).standby = BitVec.ofNat 32 (jf p 8 2) ∧
        (if (s.dev.chan n).standby then (t.dev.chan n).hatchB else (t.dev.chan n).hatchA) = jEntries p ∧
        (if (s.dev.chan n).standby then (t.dev.chan n).hatchA = (s.dev.chan n).hatchA else (t.dev.chan n).hatchB = (s.dev.chan n).hatchB)
      else t.dev.chan n = s.dev.chan n)) ∧
  (∀ (buf : Fin 32) s b p sheet, JenamReady s buf 0x0402 b p → p.length = 16 → jf p 0 8 < 2 ^ 48 → jf p 12 1 ≤ 1 → jf p 13 3 = 0 →
    sheet = (if jf p 12 1 = 1 then (s.dev.sheet + 2) % 2 ^ 32 else jf p 8 4) →
    if (sheet + 2 ^ 32 - s.dev.sheet % 2 ^ 32) % 2 ^ 32 < 2 ∨ 2 ^ 31 ≤ (sheet + 2 ^ 32 - s.dev.sheet % 2 ^ 32) % 2 ^ 32 then
      ∃ t, (exec (.hatchArm buf) s) = .next (jenamDone b jsHatchRefused (armReply sheet ((jChannels p).map fun n => (n, 4))) t) ∧ (t = s)
    else if (jChannels p).any s.dev.armBarred = true then ∃ t, (exec (.hatchArm buf) s) = .next (jenamDone b jsState [] t) ∧ (t = s)
    else if ∀ n ∈ jChannels p, s.dev.armFlags n sheet = 0 then ∃ t, (exec (.hatchArm buf) s) = .next (jenamDone b jsOk (armReply sheet []) t) ∧ (
      t = (s.modDev fun d => (jChannels p).foldl (fun d n => armChannel sheet n d) d).jDo fun d => (jChannels p).foldl (fun d n => keepPlan n d) d)
    else ∃ t, (exec (.hatchArm buf) s) = .next (jenamDone b jsHatchRefused (armReply sheet (((jChannels p).map fun n => (n, s.dev.armFlags n sheet)).filter fun f => f.2 ≠ 0)) t) ∧ (
        t = (s.modDev fun d => (jChannels p).foldl (fun d n => armChannel sheet n d) d).modDev fun d => (jChannels p).foldl (fun d n => hatchDisarm n d) d)) ∧
  (∀ (buf : Fin 32) s b p, JenamReady s buf 0x0402 b p → p.length = 16 → jf p 0 8 < 2 ^ 48 → 2 ≤ jf p 12 1 → jf p 12 1 ≤ 7 → jf p 13 3 = 0 →
    ∃ t, (exec (.hatchArm buf) s) = .next (jenamDone b jsOk (armReply 0 []) t) ∧ (t = s.modDev (withdrawPlans (jf p 12 1) (jChannels p)))) ∧
  (∀ (buf : Fin 32) s b p, JenamReady s buf 0x0403 b p → p.length = 4 → jf p 0 1 < 48 → jf p 1 1 ≤ 1 → jf p 2 2 = 0 →
    ∃ t, (exec (.hatchRead buf) s) = .next (jenamDone b jsOk (leBytes 16 (bits ((s.dev.chan (jf p 0 1)).sealOf (decide (jf p 1 1 = 1))).toNat 15 0) ++
      (List.range 256).flatMap fun k => leBytes 8 ((s.dev.chan (jf p 0 1)).bankEntry (decide (jf p 1 1 = 1)) k).toNat) t) ∧ (t = s)) ∧
  (∀ (buf : Fin 32) s b p, JenamReady s buf 0x0404 b p → p.length = 16 → jf p 0 8 < 2 ^ 48 → jf p 13 3 = 0 →
    ∃ t, (exec (.arbSet buf) s) = .next (jenamDone b jsOk [] t) ∧ (∀ n ∈ jChannels p, t.dev.regGet Rg.CARB_CLS_PRI n 0 = jf p 8 4 ∧
      t.dev.rdc n Fd.CARB_WAIT_LIMIT_LIMIT = if jf p 12 1 = 0 then s.dev.rdc n Fd.CARB_WAIT_LIMIT_LIMIT else jf p 12 1)) ∧
  (∀ (buf : Fin 32) s b p, JenamReady s buf 0x0501 b p → p.length = 96 →
    ∃ t, (exec (.keyExchange buf) s) = .next (jenamDone b jsOk (leBytes 96 (Config.ecdhPublic s.dev.nfree).toNat ++
        leBytes 96 (Config.ecdsaSign s.dev.nfree (p ++ leBytes 96 (Config.ecdhPublic s.dev.nfree).toNat)).toNat) t) ∧ (
      (t.dev.keySlot importSlot).state = .loaded ∧ (t.dev.keySlot importSlot).mode = 2 ∧
      (t.dev.keySlot importSlot).key = BitVec.ofNat 512 ((Config.ecdhDerive s.dev.nfree (BitVec.ofNat 768 (leNat p)) labelImport).toNat % 2 ^ 256) ∧
      t.dev.nfree = s.dev.nfree + 1)) ∧
  (∀ (buf : Fin 32) s b p ns, JenamReady s buf 0x0502 b p → p.length = 132 → s.dev.ns? (jf p 0 4) = some ns → jf p 0 4 ≤ 4096 →
    (s.dev.keySlot (nsSlot (jf p 0 4))).state = .empty →
    if (s.dev.keySlot importSlot).state = .loaded then
      match blobKey (nsSlot (jf p 0 4)) (s.dev.keySlot importSlot).key (p.drop 4) with
      | .ok k => ∃ t, (exec (.keyImport buf) s) = .next (jenamDone b jsOk [] t) ∧ (t.dev.keySlot (nsSlot (jf p 0 4)) = k)
      | .error r => ∃ t, (exec (.keyImport buf) s) = .next (jenamDone b jsKeyRefused (layout 4 [(0, 1, r)]) t) ∧ (t = s)
    else ∃ t, (exec (.keyImport buf) s) = .next (jenamDone b jsKeyRefused (layout 4 [(0, 1, 4)]) t) ∧ (t = s)) ∧
  (∀ (buf : Fin 32) s b p ns, JenamReady s buf 0x0503 b p → p.length = 4 → s.dev.ns? (jf p 0 4) = some ns → jf p 0 4 ≤ 4096 →
    ∃ t, (exec (.keyPurge buf) s) = .next (jenamDone b jsOk [] t) ∧ ((t.dev.keySlot (nsSlot (jf p 0 4))).key = 0 ∧
      (t.dev.keySlot (nsSlot (jf p 0 4))).state ≠ .loaded)) ∧
  (∀ (buf : Fin 32) s b p ns, JenamReady s buf 0x0504 b p → p.length = 8 → jf p 4 1 ≤ 1 → jf p 5 1 ≤ 2 → jf p 6 2 = 0 → s.dev.ns? (jf p 0 4) = some ns →
    ∃ t, (exec (.keySet buf) s) = .next (jenamDone b jsOk [] t) ∧ (t.dev.rdb (nsSlot (jf p 0 4)) Fd.CIPH_SLOT_AUTH_FLAG = jf p 4 1 ∧
      t.dev.ns? (jf p 0 4) = some (if jf p 5 1 = 0 then ns else { ns with newMode := some (jf p 5 1) }))) ∧
  (∀ (buf : Fin 32) s b p, s.dev.ns? (jf p 0 4) = none → ∀ i ∈ [(0x0502, Instr.keyImport buf, 132), (0x0503, .keyPurge buf, 4)],
    JenamReady s buf i.1 b p → p.length = i.2.2 → ∃ t, (exec i.2.1 s) = .next (jenamDone b jsNotFound [] t) ∧ (t = s))

/-- Jenam groups 0x06 to 0x09 (R218, R220, R233, R235, R236, R246, R395, R399, R405, Tables 8-2, 8-4, 8-10 and 14-8): the health, power,
self-test and cascade reports change nothing but the free values they take; a threshold waits for the next sheet; a unit is retired on request;
a cap is set; an echo returns its bytes; the control registers are read and written. -/
def Obligations.JenamHealthAct : Prop :=
  (∀ (buf : Fin 32) s b p, JenamReady s buf 0x0601 b p → p.length = 4 → 0 < jf p 2 2 → jf p 0 2 + jf p 2 2 ≤ 1536 →
    ∃ t, (exec (.dieHealth buf) s) = .next (jenamDone b jsOk ((List.range (jf p 2 2)).flatMap fun i => s.dev.dieRecord (jf p 0 2 + i)) t) ∧ (t = s)) ∧
  (∀ (buf : Fin 32) s b p, JenamReady s buf 0x0602 b p → p.length = 12 → 0 < jf p 8 2 → jf p 8 2 ≤ 1364 → jf p 10 2 = 0 →
    ∃ t, (exec (.bbRecords buf) s) = .next (jenamDone b jsOk (((s.dev.med.recs.filter fun r => decide (jf p 0 8 ≤ r.seq)).take (jf p 8 2)).flatMap badRecBytes) t) ∧ (t = s)) ∧
  (∀ (buf : Fin 32) s b p, JenamReady s buf 0x0603 b p → p.length = 8 → jf p 0 1 < 96 → jf p 1 1 = 0 → 0 < jf p 4 2 → jf p 2 2 + jf p 4 2 ≤ 3600 →
    jf p 6 2 = 0 → ∃ t, (exec (.rowInfo buf) s) = .next (jenamDone b jsOk ((List.range (jf p 4 2)).flatMap fun i => s.dev.rowRecord (jf p 0 1) (jf p 2 2 + i)) t) ∧ (t = s)) ∧
  (∀ (buf : Fin 32) s b, JenamReady s buf 0x0604 b [] →
    ∃ t, (exec (.threshGet buf) s) = .next (jenamDone b jsOk ((List.range 13).flatMap fun i => leBytes 4 (s.dev.thresh i)) t) ∧ (t = s)) ∧
  (∀ (buf : Fin 32) s b p lo hi, JenamReady s buf 0x0605 b p → p.length = 8 → jf p 1 3 = 0 → threshRange (jf p 0 1) = some (lo, hi) →
    if lo ≤ jf p 4 4 ∧ jf p 4 4 ≤ hi then ∃ t, (exec (.threshSet buf) s) = .next (jenamDone b jsOk [] t) ∧ (
      mapFind t.dev.med.threshNext (jf p 0 1) = some (jf p 4 4) ∧ t.dev.med.thresh = s.dev.med.thresh)
    else ∃ t, (exec (.threshSet buf) s) = .next (jenamDone b jsBadParam [] t) ∧ (t = s)) ∧
  (∀ (buf : Fin 32) s b p, JenamReady s buf 0x0606 b p → p.length = 4 → jf p 0 1 = 0 → jf p 1 1 = 0 → jf p 2 2 < 1536 →
    (s.dev.die (jf p 2 2 / 32) (jf p 2 2 % 32)).st ≠ .retired →
    ∃ t, (exec (.retireUnit buf) s) = .next (jenamDone b jsOk [] t) ∧ (∃ d, t = (afterChan (jf p 2 2 / 32) { s with dev := d }).jDo id ∧
      (d.die (jf p 2 2 / 32) (jf p 2 2 % 32)).st = .retired)) ∧
  (∀ (buf : Fin 32) s b p, JenamReady s buf 0x0606 b p → p.length = 4 → jf p 0 1 = 1 → jf p 1 1 = 0 →
    (48 ≤ jf p 2 2 → ∃ t, (exec (.retireUnit buf) s) = .next (jenamDone b jsNotFound [] t) ∧ (t = s)) ∧
    (jf p 2 2 < 48 → (s.dev.chan (jf p 2 2)).retired = false →
      ∃ t, (exec (.retireUnit buf) s) = .next (jenamDone b jsOk [] t) ∧ (∃ d, t = (afterChan (jf p 2 2) { s with dev := d }).jDo id ∧
        (d.chan (jf p 2 2)).retired = true ∧ (d.chan (jf p 2 2)).pq = []))) ∧
  (∀ (buf : Fin 32) s b, JenamReady s buf 0x0701 b [] → ∃ t, (exec (.powerGet buf) s) = .next (jenamDone b jsOk (layout 16 [(0, 1, s.dev.pwr.ps), (1, 1, s.dev.pwr.op), (2, 1, s.dev.opCap), (3, 1, s.dev.pwr.level), (4, 4, s.dev.rd Fd.PWR_ENTRY_CNT_REFUSED),
      (8, 4, s.dev.rd Fd.PWR_ENTRY_CNT_ABORTED), (12, 2, s.dev.regGet Rg.PWR_REFUSER 0 0), (14, 2, s.dev.pwr.kelvin)]) t) ∧ (t = s)) ∧
  (∀ (buf : Fin 32) s b p, JenamReady s buf 0x0702 b p → p.length = 4 → jf p 0 1 ≤ 3 → jf p 1 1 ≤ 1 → jf p 2 2 = 0 →
    ∃ t, (exec (.powerSet buf) s) = .next (jenamDone b jsOk [] t) ∧ (t.dev.rd Fd.PWR_OP_CTL_CAP = jf p 0 1 ∧ t.dev.rd Fd.PWR_CTL_HOLD = jf p 1 1)) ∧
  (∀ (buf : Fin 32) s b p, JenamReady s buf 0x0801 b p → ∃ t, (exec (.echo buf) s) = .next (jenamDone b jsOk p t) ∧ (t = s)) ∧
  (∀ (buf : Fin 32) s b p, JenamReady s buf 0x0802 b p → p.length = 12 → jf p 10 2 = 0 → 0 < jf p 8 2 → jf p 8 2 ≤ 1024 →
    inControl (jf p 0 8) (jf p 8 2) = true →
    ∃ t, (exec (.regRead buf) s) = .next (jenamDone b jsOk (readDwords (jf p 0 8) (jf p 8 2) s.dev).1 t) ∧ (
      t = { s with dev := { (readDwords (jf p 0 8) (jf p 8 2) s.dev).2 with bus := s.dev.bus } })) ∧
  (∀ (buf : Fin 32) s b p, JenamReady s buf 0x0803 b p → p.length = 12 → inControl (jf p 0 8) 1 = true →
    ∃ t, (exec (.regWrite buf) s) = .next (jenamDone b jsOk [] t) ∧ (t = writeControl 0 (jf p 0 8) (jf p 8 4) s)) ∧
  (∀ (buf : Fin 32) s b, JenamReady s buf 0x0804 b [] →
    ∃ t, (exec (.selftestGet buf) s) = .next (jenamDone b jsOk ((List.range 68).flatMap fun i => leBytes 4 (s.dev.viewEcc i Rg.LDPC_ST_RES.addr 0)) t) ∧ (t = s)) ∧
  (∀ (buf : Fin 32) s b, JenamReady s buf 0x0901 b [] →
    ∃ t, (exec (.casTopology buf) s) = .next (jenamDone b jsOk (leBytes 1 s.dev.cascade ++ ((List.range 4).flatMap s.dev.topology) ++ [0, 0, 0]) t) ∧ (
      t = { s with dev := s.dev.tick 1 }))

/-- Jenam group 0x0A (R373, R376 to R378, R400, Table 14-9): the firmware and etching reports; the owner's certificate is set once, and cleared with
every etching; an image is staged, accepted and started on a graver, refused, or unloaded. -/
def Obligations.JenamFirmwareAct : Prop :=
  (∀ (buf : Fin 32) s b, JenamReady s buf 0x0A01 b [] → ∃ t, (exec (.fwInfo buf) s) = .next (jenamDone b jsOk (layout 16 ([(0, 1, s.dev.nvm.active), (1, 1, s.dev.nvm.pending), (2, 1, s.dev.nvm.svn), (3, 1, s.dev.nvm.revoked)] ++
      [1, 2, 3].map fun k => (4 * k, 4, imgSvn (slotImages (s.dev.nvm.slotBytes k)).2.1))) t) ∧ (t = s)) ∧
  (∀ (buf : Fin 32) s b p, JenamReady s buf 0x0A02 b p → 0 < p.length → p.length ≤ 16384 →
    if s.dev.nvm.cert.isSome = true then ∃ t, (exec (.ownerCertSet buf) s) = .next (jenamDone b jsState [] t) ∧ (t = s)
    else if Config.chainOk p = true then ∃ t, (exec (.ownerCertSet buf) s) = .next (jenamDone b jsOk [] t) ∧ (t.dev.nvm = { s.dev.nvm with cert := some p })
    else ∃ t, (exec (.ownerCertSet buf) s) = .next (jenamDone b jsSigInvalid [] t) ∧ (t = s)) ∧
  (∀ (buf : Fin 32) s b, JenamReady s buf 0x0A03 b [] → ∃ t, (exec (.ownerCertClear buf) s) = .next (jenamDone b jsOk [] t) ∧ (
    t.dev.nvm.cert = none ∧ ∀ e < 8, t.dev.etch e = EtchSlot.fresh ∧ mapFind t.dev.nvm.etch e = none)) ∧
  (∀ (buf : Fin 32) s b p, JenamReady s buf 0x0A04 b p → 8 ≤ p.length → jf p 0 1 ≤ 7 → jf p 1 3 = 0 → jf p 4 4 + (p.length - 8) ≤ 196864 →
    if (s.dev.etch (jf p 0 1)).image = [] then ∃ t, (exec (.etchStage buf) s) = .next (jenamDone b jsOk [] t) ∧ (
      ∀ i v, (p.drop 8)[i]? = some v → mapGet 0 t.dev.grv.stage (stageKey (jf p 0 1) (jf p 4 4 + i)) = v)
    else ∃ t, (exec (.etchStage buf) s) = .next (jenamDone b jsState [] t) ∧ (t = s)) ∧
  (∀ (buf : Fin 32) s b p bs, JenamReady s buf 0x0A05 b p → p.length = 12 → jf p 0 1 ≤ 7 → jf p 1 3 = 0 → jf p 4 4 ≤ 196864 → 0 < jf p 8 4 →
    jf p 8 4 ≤ 256 → (s.dev.etch (jf p 0 1)).image = [] → s.dev.staged (jf p 0 1) (jf p 4 4) = bs →
    if s.dev.nvm.etchingOk bs = true then
      match s.dev.etchGraver with
      | none => ∃ t, (exec (.etchLoad buf) s) = .next (jenamDone b jsNoGraver [] t) ∧ (t = s)
      | some g => ∃ t, (exec (.etchLoad buf) s) = .next (jenamDone b jsOk [] t) ∧ ((t.dev.etch (jf p 0 1)).image = bs ∧
          (t.dev.etch (jf p 0 1)).graver = some g ∧ (t.dev.etch (jf p 0 1)).window = etchWindow (jf p 0 1) (jf p 8 4) ∧
          mapFind t.dev.nvm.etch (jf p 0 1) = some (bs, jf p 8 4) ∧ (t.dev.graver g).st = .etch ∧ (t.dev.graver g).machine = false ∧
          (t.dev.graver g).pc = BitVec.ofNat 64 (imgEntry bs) ∧
          t.dev.meas (5 + jf p 0 1) = Config.sha384 (leBytes 48 (s.dev.meas (5 + jf p 0 1)).toNat ++ leBytes 48 (Config.sha384 bs).toNat))
    else ∃ t, (exec (.etchLoad buf) s) = .next (jenamDone b jsSigInvalid [] t) ∧ (t = s)) ∧
  (∀ (buf : Fin 32) s b p, JenamReady s buf 0x0A06 b p → p.length = 4 → jf p 0 1 ≤ 7 → jf p 1 3 = 0 →
    ∃ t, (exec (.etchUnload buf) s) = .next (jenamDone b jsOk [] t) ∧ (t.dev.etch (jf p 0 1) = EtchSlot.fresh ∧ mapFind t.dev.nvm.etch (jf p 0 1) = none ∧
      t.dev.meas (5 + jf p 0 1) = 0 ∧ ∀ g, (s.dev.etch (jf p 0 1)).graver = some g → (t.dev.graver g).st = .run ∧ (t.dev.graver g).machine = true)) ∧
  (∀ (buf : Fin 32) s b, JenamReady s buf 0x0A07 b [] →
    ∃ t, (exec (.etchStatus buf) s) = .next (jenamDone b jsOk ((List.range 8).flatMap s.dev.etchRecord) t) ∧ (t = { s with dev := s.dev.tick 1 }))

/-- No Jenam opcode that takes parameters of a length takes one byte (Table 14-4): such a request is answered BAD_PARAM, and nothing changes. -/
def Obligations.JenamLengthsChecked : Prop :=
  ∀ (buf : Fin 32) s b p, p.length = 1 → ∀ i ∈ [(0x0101, Instr.getInfo buf), (0x0102, .getGeometry buf), (0x0201, .tenCreate buf), (0x0202, .tenSet buf),
    (0x0203, .tenDelete buf), (0x0204, .funcAssign buf), (0x0205, .classSet buf), (0x0206, .tenUsage buf), (0x0301, .nsCreate buf), (0x0303, .nsAttach buf),
    (0x0305, .nsSet buf), (0x0306, .reserveSet buf), (0x0307, .handleSet buf), (0x0401, .hatchWrite buf), (0x0402, .hatchArm buf), (0x0403, .hatchRead buf),
    (0x0404, .arbSet buf), (0x0501, .keyExchange buf), (0x0502, .keyImport buf), (0x0503, .keyPurge buf), (0x0504, .keySet buf), (0x0601, .dieHealth buf),
    (0x0602, .bbRecords buf), (0x0603, .rowInfo buf), (0x0604, .threshGet buf), (0x0605, .threshSet buf), (0x0606, .retireUnit buf), (0x0701, .powerGet buf),
    (0x0702, .powerSet buf), (0x0802, .regRead buf), (0x0803, .regWrite buf), (0x0804, .selftestGet buf), (0x0901, .casTopology buf), (0x0A01, .fwInfo buf),
    (0x0A03, .ownerCertClear buf), (0x0A04, .etchStage buf), (0x0A05, .etchLoad buf), (0x0A06, .etchUnload buf), (0x0A07, .etchStatus buf)],
    JenamReady s buf i.1 b p → ∃ t, (exec i.2 s) = .next (jenamDone b jsBadParam [] t) ∧ (t = s)

/-- Jenam's transports (R382 to R389, R401): a Send takes a buffer or waits for one; a Receive answers from the cache, waits, or finds nothing; a
packet stands in its buffer and is handled at once, or is dropped where there is no buffer; a reply is sent from its buffer. -/
def Obligations.JenamTransportsAct : Prop :=
  (∀ (k : Fin 131072) s x, Taken s.dev k true 0xC1 x → x.sqe.cdw10.toNat < 32 ∨ 65536 < x.sqe.cdw10.toNat ∨ x.sqe.cdw10.toNat % 4 ≠ 0 →
    ∃ d, (exec (.jenamSend k) s) = .next { s with dev := d } ∧ (Completes d k stInvalidField ∧ d.jnm = s.dev.jnm)) ∧
  (∀ (k : Fin 131072) s x, Taken s.dev k true 0xC1 x → 32 ≤ x.sqe.cdw10.toNat → x.sqe.cdw10.toNat ≤ 65536 → x.sqe.cdw10.toNat % 4 = 0 →
    s.dev.freeBuf = none →
    ∃ d, (exec (.jenamSend k) s) = .next { s with dev := d } ∧ (d.slot? k = some { x with phase := .asleep } ∧ d.jnm = { s.dev.jnm with sends := s.dev.jnm.sends ++ [k.val] })) ∧
  (∀ (k : Fin 131072) s x b, Taken s.dev k true 0xC1 x → 32 ≤ x.sqe.cdw10.toNat → x.sqe.cdw10.toNat ≤ 65536 → x.sqe.cdw10.toNat % 4 = 0 →
    s.dev.freeBuf = some b → s.dev.jnm.sends = [] →
    ∃ d, (exec (.jenamSend k) s) = .next { s with dev := d } ∧ (d.slot? k = some { x with phase := .asleep } ∧ d.out = .hostRead x.fn k :: s.dev.out ∧
      d.jnm = { s.dev.jnm with bufs := s.dev.jnm.bufs ++
        [{ buf := b, path := if x.fn = 0 then 0 else 1, slot := some k.val, eid := 0, tag := 0, packet := [], order := 0, phase := .moving }] })) ∧
  (∀ (k : Fin 131072) s x o, Taken s.dev k true 0xC2 x → o = bits x.sqe.cdw11.toNat 15 0 → (∃ b ∈ s.dev.jnm.bufs, b.phase ∈ [JPhase.accepted, .forwarded, .answered] ∧
      jOrigin b.packet = o ∧ jSeq b.packet = x.sqe.cdw10.toNat) →
    ∃ d, (exec (.jenamReceive k) s) = .next { s with dev := d } ∧ (d.slot? k = some { x with phase := .asleep } ∧
      d.jnm.receives = s.dev.jnm.receives ++ [(k.val, o, x.sqe.cdw10.toNat)])) ∧
  (∀ (k : Fin 131072) s x o, Taken s.dev k true 0xC2 x → o = bits x.sqe.cdw11.toNat 15 0 → (∀ b ∈ s.dev.jnm.bufs, b.phase ∈ [JPhase.accepted, .forwarded, .answered] →
      jOrigin b.packet = o → jSeq b.packet ≠ x.sqe.cdw10.toNat) →
    ∃ d, (exec (.jenamReceive k) s) = .next { s with dev := d } ∧ (
      match (s.dev.origin? o).bind fun r => r.cache.find? fun c => decide (c.seq = x.sqe.cdw10.toNat) with
      | some c => Completes d k (successWith c.reply.length) ∧
          (s.dev.mute x.fn = false → d.out = .hostBytes x.fn x.sqe.cid.toNat (c.reply.take x.sqe.cdw12.toNat) :: s.dev.out)
      | none => Completes d k (stVendor 0xC7))) ∧
  (∀ (k : Fin 131072) s x b packet, s.dev.jnm.bufs.find? (fun b => b.slot == some k.val && b.phase == .moving) = some b → s.dev.slot? k = some x →
    packet.length = x.sqe.cdw10.toNat → exec (.jenamPacketComplete (.send k) packet) s = .next (packetIn b packet s)) ∧
  (∀ i3c eid tag packet s, s.dev.binding i3c = true → packet.length ≤ 65536 →
    ∃ t, (exec (.jenamPacketComplete (.mctp i3c eid tag) packet) s) = .next t ∧ (
      match s.dev.freeBuf with
      | some b => t = packetIn { buf := b, path := if i3c then 3 else 2, slot := none, eid := eid.toNat, tag := tag.toNat, packet := [], order := 0, phase := .moving } packet
          (s.modDev fun d => d.modJnm fun j => { j with bufs := j.bufs ++ [{ buf := b, path := if i3c then 3 else 2, slot := none, eid := eid.toNat, tag := tag.toNat, packet := [], order := 0, phase := .moving }] })
      | none => t.dev.rd Fd.JNM_EVT_DROP = 1 ∧ t.dev.rd Fd.JNM_CNT2_DROPPED = satAdd 0xFF (s.dev.rd Fd.JNM_CNT2_DROPPED) 1 ∧ t.dev.jnm = s.dev.jnm)) ∧
  (∀ v s b, bits v.toNat 31 29 = 0 → bits v.toNat 23 17 = 0 → s.dev.jBuf (bits v.toNat 28 24) = some b → b.phase = .accepted ∨ b.phase = .answered →
    exec (.jenamReplySend v) s = .next (settleJenam (s.modDev (sendReply b (s.readBytes (bits v.toNat 16 0) (s.dev.jBufAddr b.buf)))))) ∧
  (∀ v s, bits v.toNat 31 29 = 0 → bits v.toNat 23 17 = 0 → s.dev.jBuf (bits v.toNat 28 24) = none → exec (.jenamReplySend v) s = .next s)

/-- A packet complete in its buffer (R383, R388, R389, Table 14-3): a malformed one is answered BAD_HEADER and counted; with an origin record, a
sequence number of the cache is a replay or a conflict, one not newer is stale, and a newer one is accepted and moves the record's mark. -/
def Obligations.JenamPacketsHandled : Prop :=
  (∀ b d, jMalformed b.packet = true →
    handlePacket b d = turnAway b (jReply b.packet jsBadHeader [] false) (d.add Fd.JNM_CNT2_BADHDR 1)) ∧
  (∀ b (r : Origin) d c, r.cache.find? (fun c => decide (c.seq = jSeq b.packet)) = some c →
    bySeq b r d = if jf b.packet 28 4 = c.crc ∧ jLen b.packet = c.len then
        turnAway b (jReply b.packet (jStatus c.reply) (jParams c.reply) true) ((d.add Fd.JNM_CNT_REPLAY 1).wr Fd.JNM_EVT_REPLAY 1)
      else turnAway b (jReply b.packet jsConflict [] false) ((d.add Fd.JNM_CNT_CONFLICT 1).wr Fd.JNM_EVT_CONFLICT 1)) ∧
  (∀ b (r : Origin) d, r.cache.find? (fun c => decide (c.seq = jSeq b.packet)) = none →
    (∀ x ∈ d.jnm.bufs, x.buf ≠ b.buf → x.phase ∈ [JPhase.accepted, .forwarded, .answered] → jOrigin x.packet = r.origin → jSeq x.packet ≠ jSeq b.packet) →
    jSeq b.packet ∉ r.again →
    bySeq b r d = if 0 < (jSeq b.packet + 2 ^ 32 - r.h) % 2 ^ 32 ∧ (jSeq b.packet + 2 ^ 32 - r.h) % 2 ^ 32 < 2 ^ 31 then
        if d.jDenied b = true then turnAway b (jReply b.packet jsDenied [] false) d else acceptJenam b false d
      else turnAway b (jReply b.packet jsStale [] false) (d.add Fd.JNM_CNT2_STALE 1)) ∧
  (∀ b (r : Origin) d, d.origin? (jOrigin b.packet) = some r →
    (∃ y, (acceptJenam b false d).origin? (jOrigin b.packet) = some y ∧ y.h = jSeq b.packet ∧ y.cache = r.cache) ∧
    (acceptJenam b false d).rd Fd.JNM_EVT_RX = 1 ∧
    ∀ x ∈ (acceptJenam b false d).jnm.bufs, x.buf = b.buf → x.phase = .accepted)

/-- MCTP and NVMe-MI (R386, R387, Tables 0-2 and 14-2): while a binding runs each control message and management command is answered to its sender
under its tag, with what the device is and holds; otherwise the device is no endpoint there. In band the same commands complete with their
response. -/
def Obligations.SidebandAnswers : Prop :=
  (∀ i3c src tag op eid s, s.dev.binding i3c = true → ∃ d, (exec (.setEndpointId i3c src tag op eid) s) = .next { s with dev := d } ∧ (
    if bits op.toNat 1 0 ≤ 1 ∧ 8 ≤ eid.toNat ∧ eid.toNat ≠ 0xFF then
      d.out = .mctp i3c src.toNat tag.toNat 0 [0x00, 0, BitVec.ofNat 8 eid.toNat, 0] :: s.dev.out ∧ d.rd Fd.JNM_MCTP_EID = eid.toNat
    else d.out = .mctp i3c src.toNat tag.toNat 0 [0x02] :: s.dev.out ∧ d.regs = s.dev.regs)) ∧
  (∀ i3c src tag s, s.dev.binding i3c = true →
    (∃ d, (exec (.getEndpointId i3c src tag) s) = .next { s with dev := d } ∧ (
      d.out = .mctp i3c src.toNat tag.toNat 0 [0x00, BitVec.ofNat 8 (s.dev.rd Fd.JNM_MCTP_EID), 0, 0] :: s.dev.out)) ∧
    (∃ d, (exec (.getMessageTypeSupport i3c src tag) s) = .next { s with dev := d } ∧ (d.out = .mctp i3c src.toNat tag.toNat 0 [0x00, 2, 0x04, 0x7E] :: s.dev.out))) ∧
  (∀ i3c src tag kind s, s.dev.binding i3c = true → ∃ d, (exec (.getMctpVersionSupport i3c src tag kind) s) = .next { s with dev := d } ∧ (
    d.out = .mctp i3c src.toNat tag.toNat 0 (if kind.toNat = 0xFF then [0x00, 1, 0xF1, 0xF3, 0xF0, 0x00]
      else if kind.toNat ∈ [0x00, 0x04, 0x7E] then 0x00 :: Config.encode 0x1404 [kind.toNat] else [0x80]) :: s.dev.out)) ∧
  (∀ i3c src tag sel s, s.dev.binding i3c = true → ∃ d, (exec (.getVendorDefinedMessageSupport i3c src tag sel) s) = .next { s with dev := d } ∧ (∃ a b : Byte,
    d.out = .mctp i3c src.toNat tag.toNat 0 (if sel.toNat = 0 then [0x00, 0xFF, 0, 0x56, 0x58, a, b] else [0x02]) :: s.dev.out)) ∧
  (∀ i3c src tag dw0 dw1 s, s.dev.binding i3c = true → ∃ d, (exec (.readNvmeMiDataStructure i3c src tag dw0 dw1) s) = .next { s with dev := d } ∧ (
    d.out = .mctp i3c src.toNat tag.toNat 4 (if bits dw0.toNat 31 24 ≤ 4 then
        (miOk 0 (Config.encode 0x0400 [dw0.toNat, b2n s.dev.dual, s.dev.cascade, 2, 0])).body else miBadParam.body) :: s.dev.out)) ∧
  (∀ i3c src tag dw0 dw1 s, s.dev.binding i3c = true →
    ∀ p ∈ [(1, Instr.nvmSubsystemHealthStatusPoll i3c src tag dw0 dw1), (2, .controllerHealthStatusPoll i3c src tag dw0 dw1)],
    ∃ d, (exec p.2 s) = .next { s with dev := d } ∧ (
      d.out = .mctp i3c src.toNat tag.toNat 4 (miOk 0 (Config.encode (0x0400 + p.1) ([dw0.toNat, dw1.toNat] ++ s.dev.miHealth (miPath i3c)))).body :: s.dev.out ∧
      (bit dw1.toNat 31 = true → mapGet 0 d.jnm.miChange (miPath i3c) = 0xFFFFFFFF) ∧ (bit dw1.toNat 31 = false → d.jnm = s.dev.jnm))) ∧
  (∀ i3c src tag dw0 dw1 s, s.dev.binding i3c = true → ∃ d, (exec (.configurationGet i3c src tag dw0 dw1) s) = .next { s with dev := d } ∧ (
    d.out = .mctp i3c src.toNat tag.toNat 4 (if bits dw0.toNat 7 0 = 1 then (miOk (mapGet 1 s.dev.jnm.miFreq 0) []).body
      else if bits dw0.toNat 7 0 = 2 then (miOk 0 []).body else if bits dw0.toNat 7 0 = 3 then (miOk 64 []).body else miBadParam.body) :: s.dev.out)) ∧
  (∀ i3c src tag dw0 dw1 s, s.dev.binding i3c = true → ∃ d, (exec (.configurationSet i3c src tag dw0 dw1) s) = .next { s with dev := d } ∧ (
    (bits dw0.toNat 7 0 = 1 → 1 ≤ bits dw0.toNat 11 8 → bits dw0.toNat 11 8 ≤ 3 →
      d.out = .mctp i3c src.toNat tag.toNat 4 (miOk 0 []).body :: s.dev.out ∧ mapGet 1 d.jnm.miFreq 0 = bits dw0.toNat 11 8) ∧
    (bits dw0.toNat 7 0 = 2 → d.out = .mctp i3c src.toNat tag.toNat 4 (miOk 0 []).body :: s.dev.out ∧
      mapGet 0 d.jnm.miChange (miPath i3c) = dw1.toNat) ∧
    (bits dw0.toNat 7 0 = 3 → d.out = .mctp i3c src.toNat tag.toNat 4 (if bits dw1.toNat 15 0 = 64 then miOk 0 [] else miBadParam).body :: s.dev.out ∧
      d.jnm = s.dev.jnm) ∧
    (4 ≤ bits dw0.toNat 7 0 → d.out = .mctp i3c src.toNat tag.toNat 4 miBadParam.body :: s.dev.out ∧ d.jnm = s.dev.jnm))) ∧
  (∀ i3c src tag dw0 dw1 s, s.dev.binding i3c = true → ∃ d, (exec (.vpdRead i3c src tag dw0 dw1) s) = .next { s with dev := d } ∧ (∃ data : List Byte,
    data.length = bits dw1.toNat 15 0 ∧ d.out = .mctp i3c src.toNat tag.toNat 4 (miOk 0 data).body :: s.dev.out)) ∧
  (∀ i3c src tag op eid kind sel dw0 dw1 s, s.dev.binding i3c = false → ∀ c ∈ [Instr.setEndpointId i3c src tag op eid, .getEndpointId i3c src tag,
    .getMctpVersionSupport i3c src tag kind, .getMessageTypeSupport i3c src tag, .getVendorDefinedMessageSupport i3c src tag sel,
    .readNvmeMiDataStructure i3c src tag dw0 dw1, .nvmSubsystemHealthStatusPoll i3c src tag dw0 dw1, .controllerHealthStatusPoll i3c src tag dw0 dw1,
    .configurationGet i3c src tag dw0 dw1, .configurationSet i3c src tag dw0 dw1, .vpdRead i3c src tag dw0 dw1], exec c s = .next s) ∧
  (∀ (k : Fin 131072) data s x, Taken s.dev k true 0x1D x → ∃ d, (exec (.nvmeMiSend k data) s) = .next { s with dev := d } ∧ (
    (bits x.sqe.cdw11.toNat 7 0 ≠ 3 → Completes d k (successWith 3)) ∧
    (bits x.sqe.cdw11.toNat 7 0 = 3 → bits x.sqe.cdw12.toNat 7 0 = 2 → Completes d k success ∧ mapGet 0 d.jnm.miChange (x.fn / 1025) = x.sqe.cdw13.toNat))) ∧
  (∀ (k : Fin 131072) s x, Taken s.dev k true 0x1E x → s.dev.mute x.fn = false → ∃ d, (exec (.nvmeMiReceive k) s) = .next { s with dev := d } ∧ (
    (bits x.sqe.cdw11.toNat 7 0 = 4 → bits x.sqe.cdw12.toNat 7 0 = 3 → Completes d k (successWith (256 * 64)) ∧ d.out = s.dev.out) ∧
    (∀ op ∈ [1, 2], bits x.sqe.cdw11.toNat 7 0 = op → Completes d k success ∧
      (Config.encode (0x0400 + op) ([x.sqe.cdw12.toNat, x.sqe.cdw13.toNat] ++ s.dev.miHealth (x.fn / 1025)) ≠ [] →
        d.out = .hostBytes x.fn x.sqe.cid.toNat (Config.encode (0x0400 + op) ([x.sqe.cdw12.toNat, x.sqe.cdw13.toNat] ++ s.dev.miHealth (x.fn / 1025))) :: s.dev.out)) ∧
    (6 ≤ bits x.sqe.cdw11.toNat 7 0 ∨ bits x.sqe.cdw11.toNat 7 0 = 3 → Completes d k (successWith 3))))

/-- The DRAM controller (R313, R314, R318, R320, R321, R325, R327): training, what it found, initialisation to zeros, sub-channels retired one of a
pair at most, requests admitted against credit or held, throttles that end, reads that return with their row open (log entry 131), patrol reads and DQS tracking. What waits is
admitted after each (`admitAll`, which does nothing where nothing waits). -/
def Obligations.DramActs : Prop :=
  (∀ v s, bits v.toNat 31 3 = 0 → ∃ d, (exec (.dramTrain v) s) = .next { s with dev := d } ∧ (
    d.rd Fd.DMC_CTL_EN = bits v.toNat 0 0 ∧ d.rd Fd.DMC_CTL_PATROL_EN = bits v.toNat 2 2 ∧
    (bit v.toNat 0 = false → d.dram = { s.dev.dram with training := true }) ∧
    (bit v.toNat 0 = true → d.rd Fd.DMC_EVT_CFG_IGN = 1 ∧ d.dram = s.dev.dram))) ∧
  (∀ obs s, s.dev.dram.training = true → ∃ d, (exec (.dramTrained obs) s) = .next { s with dev := d } ∧ (
    d.rd Fd.DMC_EVT_TRAIN_DONE = 1 ∧ d.dram.training = false ∧ d.dram.trained = true ∧ d.dram.present = obs.present.toNat ∧
    d.dram.density = obs.density ∧ d.dram.ranks = obs.ranks ∧ d.dram.drows = obs.density * 3968 ∧
    d.dram.mib = obs.ranks * obs.density * 1024 * 31 / 64 ∧ (obs.failed = [] → d.dram.retired = s.dev.dram.retired))) ∧
  (∀ s, s.dev.dram.trained = true → s.dev.is Fd.DMC_CTL_EN = true → s.dev.dram.initDone = false →
    ∃ t, (exec .dramInitDone s) = .next t ∧ (t.dev.dram.initDone = true ∧ (∀ a, dramBase ≤ a → a < 2 ^ 40 → memGet t.mem a = 0) ∧
      (∀ a, a < dramBase → memGet t.mem a = memGet s.mem a) ∧ (∀ h, firstDramHandle ≤ h → t.dev.pool.cell h = Cell.empty) ∧
      (∀ h, h < firstDramHandle → t.dev.pool.cell h = s.dev.pool.cell h))) ∧
  (∀ v s, bits v.toNat 31 8 = 0 →
    ((s.dev.dram.retired ||| v.toNat % 256) % 16 &&& (s.dev.dram.retired ||| v.toNat % 256) / 16 ≠ 0 →
      ∃ d, (exec (.subchannelRetire v) s) = .next { s with dev := d } ∧ (d.rd Fd.DMC_EVT_CFG_IGN = 1 ∧ d.dram = s.dev.dram)) ∧
    ((s.dev.dram.retired ||| v.toNat % 256) % 16 &&& (s.dev.dram.retired ||| v.toNat % 256) / 16 = 0 →
      ∃ d, (exec (.subchannelRetire v) s) = .next { s with dev := d } ∧ (∀ i < 8, bit d.dram.retired i = (bit s.dev.dram.retired i || bit v.toNat i)))) ∧
  (∀ port addr write whole s r, r = { port := port.val, addr := addr.toNat, write := write, whole := whole, since := s.dev.strk.count } →
    s.dev.dram.initDone = true → dramBase ≤ addr.toNat → addr.toNat < dramBase + s.dev.dram.mib * 2 ^ 20 → s.dev.dram.waiting = [] →
    ((s.dev.modDram fun x => { x with waiting := [r] }).mayEnter r = true → s.dev.credited r = true → ∃ d, (exec (.dramRequestAdmit port addr write whole) s) = .next { s with dev := d } ∧ (
      d.dram.waiting = [] ∧ d.dram.lastPort = port ∧ (d.dport port).credit = (s.dev.dport port).credit - r.cost ∧
      (d.dport port).charged = (s.dev.dport port).charged + r.cost)) ∧
    ((s.dev.modDram fun x => { x with waiting := [r] }).mayEnter r = false → ∃ d, (exec (.dramRequestAdmit port addr write whole) s) = .next { s with dev := d } ∧ (
      d.dram.waiting = [r] ∧ d.dram.readQ = s.dev.dram.readQ ∧ d.dram.writeQ = s.dev.dram.writeQ))) ∧
  (∀ (port sub : Fin 8) (bank : Fin 32) s t rest, s.dev.dram.throttles = t :: rest → t.port = port.val → t.sub = sub.val →
    t.bank = bank.val → t.left = 0 → ∃ d, (exec (.throttleHoldEnd port sub bank) s) = .next { s with dev := d } ∧ (
      d = (s.dev.modDram fun x => { x with throttles := rest }).admitAll)) ∧
  (∀ (sub : Fin 8) own other s r, s.dev.pickDram sub (s.dev.readQ sub) = some r → ∃ d, (exec (.dramReadReturn sub own other) s) = .next { s with dev := d } ∧ (
    ∃ e : Dev, d = e.admitAll ∧ e.readQ sub = listEraseFirst (fun y => y == r) (s.dev.readQ sub) ∧
      mapFind e.dram.openRow (sub * 64 + s.dev.rankBank (dramLine r.addr)) = some (s.dev.dramRow (dramLine r.addr)).2 ∧
      (own = .good → e.rd Fd.DMC_EVT_UNCORR_BOTH = s.dev.rd Fd.DMC_EVT_UNCORR_BOTH) ∧
      (own = .bad → other = .bad → e.rd Fd.DMC_EVT_UNCORR_BOTH = 1))) ∧
  (∀ other s, s.dev.dram.initDone = true → s.dev.is Fd.DMC_CTL_PATROL_EN = true → s.dev.dram.patrol < s.dev.patrolTotal →
    s.dev.dram.patrol * s.dev.rd Fd.DMC_PATROL_SHEETS * 256 ≤ ((s.dev.sheet - s.dev.dram.lapStart) * 256 + s.dev.stroke) * s.dev.patrolTotal →
    (s.dev.readQ s.dev.patrolSub).length < 64 → ∃ d, (exec (.dramPatrolRead .good other) s) = .next { s with dev := d } ∧ (∃ e : Dev, d = e.admitAll ∧
      (s.dev.dram.patrol + 1 < s.dev.patrolTotal → e.dram = { s.dev.dram with patrol := s.dev.dram.patrol + 1 } ∧ e.regs = s.dev.regs) ∧
      (s.dev.dram.patrol + 1 = s.dev.patrolTotal → e.dram = { s.dev.dram with patrol := 0, lapStart := s.dev.sheet } ∧
        (s.dev.rd Fd.DMC_PATROL_SHEETS < s.dev.sheet - s.dev.dram.lapStart → e.rd Fd.DMC_EVT_PATROL_LATE = 1)))) ∧
  (∀ d : Dev, d.dram.waiting = [] → d.admitAll = d) ∧
  (∀ (sub : Fin 8) s, s.dev.is Fd.DMC_CTL_EN = true → s.dev.dram.trained = true → s.dev.subOk sub = true → bit s.dev.dram.present sub = true →
    (∀ k, mapFind s.dev.dram.trackedAt sub = some k → k + 64 ≤ s.dev.sheet) →
    ∃ d, (exec (.dqsTracking sub) s) = .next { s with dev := d } ∧ (d.dram = { s.dev.dram with trackedAt := mapInsert s.dev.dram.trackedAt sub s.dev.sheet }))

/-- The gravers (R359 to R365, R373, R378): queue pushes, pops, waits and their ends; pets and expiries of watchdogs, writes of GRV.CTL, migration
to a spare, measurements extended, etchings stopped. Memory accesses in M-mode (R27, R355, log entry 14): a load reads memory into its register; on
local SRAM a store, LR, SC and AMO act as the architecture says; the program counter moves past the instruction. -/
def Obligations.GraversAct : Prop :=
  (∀ (g : Fin 64) (rd rs1 rs2 : Fin 32) s v q, s.dev.executes g = true → v = s.dev.graver g → q = (v.reg rs1).toNat →
    ∃ d, (exec (.qpush g rd rs1 rs2) s) = .next { s with dev := d } ∧ (
      if v.etching = true then d.graver g = (v.setReg rd 2).advance 4
      else if 511 < q then d.graver g = (v.setReg rd 3).advance 4
      else if s.dev.mayPush g q = false then d.graver g = (v.setReg rd 2).advance 4
      else if (s.dev.queue q).length < 64 then d.graver g = (v.setReg rd 0).advance 4 ∧ d.queue q = s.dev.queue q ++ [queueEntry (v.reg rs2)]
      else d.graver g = (v.setReg rd 1).advance 4 ∧ d.queue q = s.dev.queue q)) ∧
  (∀ (g : Fin 64) (rd rs1 : Fin 32) s v q, s.dev.executes g = true → v = s.dev.graver g → q = (v.reg rs1).toNat →
    ∃ d, (exec (.qpop g rd rs1) s) = .next { s with dev := d } ∧ (
      (v.etching = true → d.graver g = (v.setReg rd 2).advance 4) ∧
      (v.etching = false → 511 < q ∨ s.dev.owner q ≠ g ∨ s.dev.queue q = [] → d.graver g = (v.setReg rd 0).advance 4) ∧
      (∀ x rest, v.etching = false → q ≤ 511 → s.dev.owner q = g → s.dev.queue q = x :: rest →
        d.graver g = (v.setReg rd (BitVec.ofNat 64 (x.toNat + 2 ^ 63))).advance 4 ∧ d.queue q = rest))) ∧
  (∀ (g : Fin 64) (rd rs1 : Fin 32) s v, s.dev.executes g = true → v = s.dev.graver g →
    ∀ p ∈ [(false, Instr.qwait g rd rs1), (true, .qwaitg g rd rs1)], ∀ w, w = { group := p.1, mask := v.reg rs1, rd := rd.val } →
    ∃ d, (exec p.2 s) = .next { s with dev := d } ∧ (
      if v.etching = true then d.graver g = (v.setReg rd 2).advance 4
      else if s.dev.waitReady g w ≠ 0 ∨ s.dev.waitIrq g = true then d.graver g = (v.setReg rd (BitVec.ofNat 64 (s.dev.waitReady g w))).advance 4
      else d.graver g = { v with stall := some w })) ∧
  (∀ (g : Fin 64) irq s w, (s.dev.graver g).stall = some w → s.dev.waitReady g w ≠ 0 ∨ s.dev.waitIrq g = true →
    ∃ d, (exec (.qwaitResume g irq) s) = .next { s with dev := d } ∧ (
      d.graver g = ({ s.dev.graver g with stall := none }.setReg w.rd (BitVec.ofNat 64 (s.dev.waitReady g w))).advance 4)) ∧
  (∀ (g : Fin 64) v s, ∃ d, (exec (.graverPet g v) s) = .next { s with dev := d } ∧ (d.graver g = { s.dev.graver g with petAt := s.dev.strk.ran })) ∧
  (∀ (g : Fin 64) s, s.dev.rdb g Fd.GRV_WD_LIMIT ≠ 0 → (s.dev.graver g).petAt + s.dev.rdb g Fd.GRV_WD_LIMIT ≤ s.dev.strk.ran →
    ((s.dev.graver g).st = .run → (∃ h < 64, (s.dev.graver h).st = .spare) →
      8 ≤ ((List.range 64).filter fun h => decide (h ≠ g.val) && (s.dev.graver h).st == .run).length →
      ∃ t, (exec (.watchdogExpiry g) s) = .next t ∧ ((t.dev.graver g).st = .failed ∧ (t.dev.graver g).cause = 1 ∧ t.dev.grv.lost = s.dev.grv.lost ++ [g.val] ∧
        t.dev.rd Fd.GRV_EVT_FAIL = 1)) ∧
    (∀ e, (s.dev.graver g).st = .etch → (s.dev.graver g).slot = some e → (s.dev.etch e).graver = some g.val →
      ∃ t, (exec (.watchdogExpiry g) s) = .next t ∧ ((t.dev.etch e).stops = (s.dev.strk.count, 3) :: (s.dev.etch e).stops ∧ t.dev.rd Fd.GRV_EVT_ETCH_STOP = 1))) ∧
  (∀ (e : Fin 8) (c : Fin 4) s g, (s.dev.etch e).graver = some g → ∃ t, (exec (.etchingStop e c) s) = .next t ∧ (
    (t.dev.etch e).stops = (s.dev.strk.count, c.val + 1) :: (s.dev.etch e).stops ∧ t.dev.rd Fd.GRV_EVT_ETCH_STOP = 1 ∧
    ((t.dev.etch e).disabled = false → (t.dev.graver g).st = .etch ∧ (t.dev.graver g).machine = false))) ∧
  (∀ v s, bits v.toNat 31 4 = 0 → bits v.toNat 3 1 = 0 → (s.dev.graver (s.dev.rd Fd.GRV_SEL_GRAVER)).st = .halt →
    ∃ t, (exec (.grvCtlRun v) s) = .next t ∧ (∃ x, x = t.dev.graver (s.dev.rd Fd.GRV_SEL_GRAVER) ∧ x.st = .run ∧ x.machine = true ∧
      x.pc = s.dev.startOf (s.dev.rd Fd.GRV_SEL_GRAVER))) ∧
  (∀ v s, bits v.toNat 31 4 = 0 → bits v.toNat 0 0 = 0 → bits v.toNat 3 2 = 0 → (s.dev.graver (s.dev.rd Fd.GRV_SEL_GRAVER)).st = .run →
    8 ≤ ((List.range 64).filter fun h => decide (h ≠ s.dev.rd Fd.GRV_SEL_GRAVER) && (s.dev.graver h).st == .run).length →
    ∃ t, (exec (.grvCtlHalt v) s) = .next t ∧ ((t.dev.graver (s.dev.rd Fd.GRV_SEL_GRAVER)).st = .halt)) ∧
  (∀ v s, bits v.toNat 31 4 = 0 → bits v.toNat 1 0 = 0 → bits v.toNat 3 3 = 0 → (s.dev.graver (s.dev.rd Fd.GRV_SEL_GRAVER)).st = .run →
    (∃ h < 64, (s.dev.graver h).st = .spare) →
    8 ≤ ((List.range 64).filter fun h => decide (h ≠ s.dev.rd Fd.GRV_SEL_GRAVER) && (s.dev.graver h).st == .run).length →
    ∃ t, (exec (.grvCtlFail v) s) = .next t ∧ ((t.dev.graver (s.dev.rd Fd.GRV_SEL_GRAVER)).st = .failed ∧
      (t.dev.graver (s.dev.rd Fd.GRV_SEL_GRAVER)).cause = 5 ∧ t.dev.rd Fd.GRV_EVT_FAIL = 1)) ∧
  (∀ v s, bits v.toNat 31 4 = 0 → ∃ t, (exec (.grvCtlMlock v) s) = .next t ∧ (t.dev.grv.mlock = true)) ∧
  (∀ v s, bits v.toNat 31 14 = 0 → bits v.toNat 7 6 = 0 → ∃ d, (exec (.graverMigrate v) s) = .next { s with dev := d } ∧ (∃ f t, f = bits v.toNat 5 0 ∧ t = bits v.toNat 13 8 ∧
    ((s.dev.graver f).st = .failed → (s.dev.graver t).st = .spare → (d.graver t).st = .run ∧ (d.graver t).machine = true ∧
      (d.graver t).pc = s.dev.startOf f ∧ d.grv.moves = ((s.dev.strk.count, f, t) :: s.dev.grv.moves).take 64 ∧
      d.grv.lost = s.dev.grv.lost.filter (· ≠ f) ∧ ∀ q < 512, s.dev.owner q = f → d.owner q = t) ∧
    ((s.dev.graver f).st ≠ .failed ∨ (s.dev.graver t).st ≠ .spare → d.rd Fd.GRV_EVT_MIG_REF = 1 ∧ d.grv = s.dev.grv))) ∧
  (∀ v s, ∃ d, (exec (.measurementExtend v) s) = .next { s with dev := d } ∧ (∃ i, i = s.dev.rd Fd.GRV_MEAS_SEL_INDEX ∧
    if i = 0 then d.grv = s.dev.grv
    else if s.dev.grv.mlock = true ∧ i ≤ 4 then d.grv = s.dev.grv ∧ d.rd Fd.GRV_EVT_MEAS_REF = 1
    else d.meas i = Config.sha384 (leBytes 48 (s.dev.meas i).toNat ++ leBytes 48 d.measDigest.toNat))) ∧
  (∀ (g : Fin 64) (op : MemOp) comp cyc s v a n len, s.dev.executes g = true → v = s.dev.graver g → a = v.addrOf op → n = 2 ^ op.log2.val →
      len = (if comp then 2 else 4) → op.illegal comp = false → a % n = 0 → v.machine = true →
      (∀ o, op.kind = .load → s.dev.reach g a = .sram o ∨ s.dev.reach g a = .rom o → ∃ t, (exec (.graverLoadStore g op comp cyc) s) = .next t ∧ (
        ∃ x, x = leNat (s.readReach (s.dev.reach g a) n) ∧ t.mem = s.mem ∧
          t.dev.graver g = (v.setReg op.rd (BitVec.ofNat 64 (if op.unsigned then x else signExtend n x))).advance len)) ∧
      (∀ k old src, s.dev.reach g a = .sram k → old = leNat (s.readReach (.sram k) n) → src = (v.reg op.rs2).toNat % 2 ^ (8 * n) →
        (op.kind = .store → ∃ t, (exec (.graverLoadStore g op comp cyc) s) = .next t ∧ (
          t.readReach (.sram k) n = leBytes n src ∧ t.dev.graver g = v.advance len)) ∧
        (op.kind = .lr → ∃ t, (exec (.graverLoadStore g op comp cyc) s) = .next t ∧ (t.mem = s.mem ∧
          t.dev.graver g = ({ v with resv := some a }.setReg op.rd (BitVec.ofNat 64 (if op.unsigned then old else signExtend n old))).advance len)) ∧
        (op.kind = .sc → v.resv = some a → ∃ t, (exec (.graverLoadStore g op comp cyc) s) = .next t ∧ (t.readReach (.sram k) n = leBytes n src ∧
          t.dev.graver g = ({ v with resv := none }.setReg op.rd 0).advance len)) ∧
        (op.kind = .sc → v.resv ≠ some a → ∃ t, (exec (.graverLoadStore g op comp cyc) s) = .next t ∧ (t.mem = s.mem ∧
          t.dev.graver g = ({ v with resv := none }.setReg op.rd 1).advance len)) ∧
        (op.kind.isAmo = true → ∃ t, (exec (.graverLoadStore g op comp cyc) s) = .next t ∧ (
          t.readReach (.sram k) n = leBytes n (amoResult op.kind n old src) ∧
          t.dev.graver g = (v.setReg op.rd (BitVec.ofNat 64 (if op.unsigned then old else signExtend n old))).advance len))))

/-- The policy calls of an etching (R379, Table 13-8): waiting for events and their records, counter sets, plan and priority proposals, urgent stipple
rows, the log, and the exit; the result stands in a0, behind the ECALL. -/
def Obligations.PolicyCallsAct : Prop :=
  (∀ (g : Fin 64) s e, s.dev.calls g 1 = some e → ∃ t, (exec (.evNext g) s) = .next t ∧ (
    if s.dev.bufferOk g (s.dev.arg g 0) 1 then (t.dev.etch e).waiting = some (s.dev.arg g 0, s.dev.arg g 1) ∧ (t.dev.etch e).events = []
    else t.dev.graver g = ((s.dev.graver g).setReg 10 callBad).advance 4)) ∧
  (∀ (g : Fin 64) s e a m c rec rest, (s.dev.graver g).slot = some e → (s.dev.etch e).waiting = some (a, m) → (s.dev.etch e).events = (c, rec) :: rest →
    (s.dev.modEtch e fun x => { x with waiting := none, events := [] }).bufferOk g a rec.length = true →
    ∃ t, (exec (.evNextReturn g) s) = .next t ∧ ((t.dev.etch e).waiting = none ∧ (t.dev.etch e).events = [] ∧
      t.dev.graver g = ((s.dev.graver g).setReg 10 (BitVec.ofNat 64 rec.length)).advance 4)) ∧
  (∀ (g : Fin 64) s e, s.dev.calls g 2 = some e → ∃ t, (exec (.statRead g) s) = .next t ∧ (
    match s.dev.statSet (s.dev.arg g 0) (s.dev.arg g 1) with
    | some bs => if s.dev.bufferOk g (s.dev.arg g 2) bs.length then t.dev.graver g = ((s.dev.graver g).setReg 10 (BitVec.ofNat 64 bs.length)).advance 4
        else t.dev.graver g = ((s.dev.graver g).setReg 10 callBad).advance 4
    | none => t.dev.graver g = ((s.dev.graver g).setReg 10 callBad).advance 4)) ∧
  (∀ (g : Fin 64) s e plan mask b1 b2 s1 s2, s.dev.calls g 3 = some e → s.dev.bufferOk g (s.dev.arg g 0) 2064 = true → s.dev.arg g 1 < 2 ^ 32 →
    s.dev.arg g 2 < 2 ^ 32 → s.dev.arg g 3 < 2 ^ 32 → plan = s.readReach (s.dev.reach g (s.dev.arg g 0)) 2064 →
    mask = leBytes 4 (s.dev.arg g 1) ++ leBytes 4 (s.dev.arg g 2) →
    hatchWrite (mask ++ plan.take 2 ++ List.replicate 6 0 ++ plan.drop 16) s = (jsOk, b1, s1) →
    hatchArmAll (mask ++ leBytes 4 (s.dev.arg g 3) ++ [0, 0, 0, 0]) s1 = (jsOk, b2, s2) →
    ∃ t, (exec (.hatchPropose g) s) = .next t ∧ (t.dev.chans = s2.dev.chans ∧ t.dev.regs = s2.dev.regs ∧ t.mem = s2.mem ∧
      t.dev.graver g = ((s2.dev.graver g).setReg 10 0).advance 4)) ∧
  (∀ (g : Fin 64) s e b s1, s.dev.calls g 4 = some e → s.dev.arg g 0 < 48 → s.dev.arg g 1 < 2 ^ 32 →
    arbSet (leBytes 8 (2 ^ s.dev.arg g 0) ++ leBytes 4 (s.dev.arg g 1) ++ [0, 0, 0, 0]) s = (jsOk, b, s1) →
    ∃ t, (exec (.lendPri g) s) = .next t ∧ (t.dev.regs = s1.dev.regs ∧ t.dev.graver g = ((s1.dev.graver g).setReg 10 0).advance 4)) ∧
  (∀ (g : Fin 64) s e, s.dev.calls g 5 = some e → s.dev.arg g 0 < 96 → s.dev.arg g 1 < q4Blocks → ∃ t, (exec (.stipUrgent g) s) = .next t ∧ (
    if s.dev.stip.urgent.length < 4096 then
      t.dev.stip.urgent = s.dev.stip.urgent ++ [{ group := s.dev.arg g 0, row := s.dev.arg g 1, left := List.range 16 }] ∧
      t.dev.graver g = ((s.dev.graver g).setReg 10 0).advance 4
    else t.dev.stip = s.dev.stip ∧ t.dev.graver g = ((s.dev.graver g).setReg 10 callBusy).advance 4)) ∧
  (∀ (g : Fin 64) s e, s.dev.calls g 6 = some e → s.dev.arg g 1 ≤ 256 → s.dev.bufferOk g (s.dev.arg g 0) (s.dev.arg g 1) = true →
    ∃ t, (exec (.logAppend g) s) = .next t ∧ (t.dev.graver g = ((s.dev.graver g).setReg 10 0).advance 4 ∧
      t.dev.grv.trace2 = trimTrace (s.dev.grv.trace2 ++ [s.readReach (s.dev.reach g (s.dev.arg g 0)) (s.dev.arg g 1)]))) ∧
  (∀ (g : Fin 64) s e, s.dev.calls g 7 = some e → ∃ t, (exec (.etchExit g) s) = .next t ∧ (
    (t.dev.etch e).graver = none ∧ (t.dev.etch e).stops = (s.dev.etch e).stops ∧ (t.dev.etch e).image = (s.dev.etch e).image ∧
    (t.dev.graver g).st = .run ∧ (t.dev.graver g).machine = true ∧ (t.dev.graver g).slot = none))

/-- Power (R404 to R412, R419 to R423, R425, R427): attempts to enter PS3 or PS4, idle times, operating points and their steps, THERM_N, the clock of the
AON domain, wake sources and the alarm. That the way from PS3 to PS4 leads through
the state it left is log entry 129. -/
def Obligations.PowerActs : Prop :=
  (∀ followers s d1, 3 ≤ s.dev.selected → s.dev.is Fd.PWR_CTL_ENTRY_EN = true → s.dev.pwr.ps < s.dev.selected → s.dev.pwr.entry = none → s.dev.idle = true →
    s.dev.sys.stage = .service → (s.dev.pwr.lastTry = 0 ∨ s.dev.pwr.lastTry + 256 ≤ s.dev.sheet + 1) →
    (s.dev.selected = 4 → (mapGet { done := false, pass := false, step := 0 } s.dev.ecc.checks 66).done = true →
      (mapGet { done := false, pass := false, step := 0 } s.dev.ecc.checks 66).pass = true) →
    d1 = (s.dev.modPwr fun p => { p with lastTry := s.dev.sheet + 1 }) →
    ∃ d, (exec (.psEntryAttempt followers) s) = .next { s with dev := d } ∧ (
      (∀ r rest, d1.refusers s.dev.selected (followers.map (·.val)) = r :: rest → d.pwr.entry = none ∧ d.pwr.lastTry = s.dev.sheet + 1 ∧
        d.rd Fd.PWR_EVT_REFUSED = 1 ∧ d.rd Fd.PWR_REFUSER_KIND = r.1 % 16) ∧
      (d1.refusers s.dev.selected (followers.map (·.val)) = [] →
        d.pwr.entry = some { target := s.dev.selected, left := if s.dev.pwr.ps = 3 then s.dev.pwr.last else s.dev.pwr.ps, written := false }))) ∧
  (∀ port s f e, f = (if port.val = 0 then 0 else 1025) → e = BitVec.ofNat 64 ((s.dev.func f).feat (0x0C00 + s.dev.selOf f) 0) → f ∈ s.dev.pfs →
    bit ((s.dev.func f).feat 0x0C 0) 0 = true → apstItpt e ≠ 0 → s.dev.pwr.idleAt.isSome = true → apstItpt e ≤ s.dev.idleMs →
    ∃ d, (exec (.apstIdleExpiry port) s) = .next { s with dev := d } ∧ (d.selOf f = apstItps e)) ∧
  (∀ v s, bits v.toNat 31 6 = 0 → bits v.toNat 3 2 = 0 → ∃ d, (exec (.opTargetWrite v) s) = .next { s with dev := d } ∧ (
    d.rd Fd.PWR_OP_CTL_CAP = bits v.toNat 5 4 ∧ d.rd Fd.PWR_OP_CTL_TARGET = bits v.toNat 1 0 ∧
    (∀ w, w = (if 3 ≤ s.dev.pwr.ps then 3 else max (max s.dev.pwr.limit (bits v.toNat 5 4)) (bits v.toNat 1 0)) → s.dev.pwr.move = none →
      if s.dev.pwr.tried = some w then d.pwr = s.dev.pwr
      else d.pwr.tried = none ∧ if w = s.dev.pwr.op then d.pwr = { s.dev.pwr with tried := none }
      else if w < s.dev.pwr.op then d.pwr.op = s.dev.pwr.op ∧ d.pwr.move = some { target := w, rise := true }
      else d.pwr.op = w ∧ d.pwr.move = some { target := w, rise := false }))) ∧
  (∀ s m op, s.dev.pwr.move = some m → op = (if m.rise then m.target else s.dev.pwr.op) → s.dev.opWanted = op →
    ∃ d, (exec .voltageConfirmed s) = .next { s with dev := d } ∧ (d.pwr = { s.dev.pwr with op := op, move := none, tried := if s.dev.pwr.tried = some op then some op else none })) ∧
  (∀ s, ∃ d, (exec .pmbusTransactionFail s) = .next { s with dev := d } ∧ (d.pwr = { s.dev.pwr with move := none, tried := some s.dev.opWanted } ∧ d.rd Fd.PWR_EVT_PMB_FAIL = 1)) ∧
  (∀ point v s, bits v.toNat 15 4 = 0 → ∃ d, (exec (.opTrimWrite point v) s) = .next { s with dev := d } ∧ (
    if 10 < bits v.toNat 3 0 then d = s.dev else d.rd (fldTrim point) = bits v.toNat 3 0)) ∧
  (∀ s, ∃ d, (exec .thermNFall s) = .next { s with dev := d } ∧ (d.pwr.thermN = true ∧ d.pwr.level = 3 ∧ bit (d.rd Fd.AON_WAKE_SRC_SRC) 6 = true ∧
    (s.dev.pwr.entry.isSome = true → d.pwr.entry = none ∧ d.pwr.ps = s.dev.pwr.ps ∧ d.rd Fd.PWR_REFUSER_ABORT = 8) ∧
    (s.dev.pwr.entry = none → s.dev.pwr.ps = 3 → s.dev.pwr.last ≠ 3 → d.pwr.ps = s.dev.pwr.last ∧ d.rd Fd.PWR_EVT_PS = 1) ∧
    (s.dev.pwr.entry = none → s.dev.pwr.ps ≠ 3 → d.pwr = { s.dev.pwr with thermN := true, level := 3 }))) ∧
  (∀ s, ∃ d, (exec .clk32kStop s) = .next { s with dev := d } ∧ (d.rd Fd.AON_STAT_CLK_STOP = 1 ∧ d.rd Fd.AON_STAT_SAVED = 0)) ∧
  (∀ (b : Fin 24) obs s, b.val ≠ 7 → s.dev.pwr.entry = none → s.dev.pwr.ps ≠ 4 → ∃ t, (exec (.wakeSource b obs) s) = .next t ∧ (
    bit (t.dev.rd Fd.AON_WAKE_SRC_SRC) b = true ∧ t.dev.pwr.ticks = obs.ticks.toNat ∧
    (s.dev.pwr.ps < 3 → t.dev.pwr.ps = s.dev.pwr.ps) ∧
    (s.dev.pwr.ps = 3 → b.val = 5 ∨ b.val = 6 → s.dev.pwr.last ≠ 3 → t.dev.pwr.ps = s.dev.pwr.last ∧ t.dev.rd Fd.PWR_EVT_PS = 1))) ∧
  (∀ s, s.dev.pwr.ticks ≤ s.dev.alarm → s.dev.pwr.entry = none → s.dev.pwr.ps ≠ 4 → ∃ t, (exec .aonAlarm s) = .next t ∧ (
    bit (t.dev.rd Fd.AON_WAKE_SRC_SRC) 4 = true ∧ t.dev.pwr.ticks = s.dev.alarm ∧ (s.dev.pwr.ps < 3 → t.dev.pwr.ps = s.dev.pwr.ps)))

/-- Starts, flushes and stops (R415, R429, R432 to R442, R450, R452, R480, R481): what a power-on and a released cold reset keep, the boot, Thrumlux's
start, the flush, once data may be staged (`mayStage`), and what follows it, PWRFAIL_N and the rails. That a fatal stop,
a trip and a commanded reset flush from that moment on is log entry 139. -/
def Obligations.StartsAndFlushesAct : Prop :=
  (∀ s, ∃ t, (exec .powerOnReset s) = .next t ∧ (t.mem = [] ∧ t.dev.regs = [] ∧ t.dev.media = s.dev.media ∧ t.dev.nvm = s.dev.nvm ∧
    t.dev.sys = { Sys.reset with failLow := s.dev.sys.failLow } ∧ t.dev.pwr = Pwr.reset ∧ t.dev.host = HostIf.reset)) ∧
  (∀ obs s why fl, s.dev.resetWhy = some (why, fl) →
    (s.dev.sys.failLow = true → ∃ t, (exec (.coldReset obs) s) = .next t ∧ (t.dev.sys = { s.dev.sys with stage := .waiting why fl } ∧ t.mem = s.mem)) ∧
    (s.dev.sys.failLow = false → ∃ t, (exec (.coldReset obs) s) = .next t ∧ (t.mem = [] ∧ t.dev.media = s.dev.media ∧ t.dev.sys.role = obs.role.val ∧
      t.dev.regGet Rg.SYS_RST_CAUSE 0 0 = causeWord why fl (s.dev.sys.cfs && why != .trip) ∧ (s.dev.nvm.romChoice = none → t.dev.sys.stage = .noSlot) ∧
      (∀ k, s.dev.nvm.romChoice = some k → bootGraver (obs.badGravers.map (·.val)) ≠ none → t.dev.sys.stage = .boot ∧ t.dev.dram.training = true)))) ∧
  (∀ o s, s.dev.sys.stage = .boot → s.dev.dram.initDone = true →
    (o.fails = [] → o.badChannels = [] → ∃ t, (exec (.thrumluxStartup o) s) = .next t ∧ (t.dev.sys.stage = .starting o .training ∧ t.dev.sys.pinsSafe = false ∧
      t.dev.grv.mlock = true)) ∧
    ((∃ f ∈ o.fails, f.index.val = 62 ∧ f.unit = 0) → ∃ t, (exec (.thrumluxStartup o) s) = .next t ∧ (t.dev.sys.stage = .stopped .fatal ∧ t.dev.sys.cfs = true))) ∧
  (∀ s, s.dev.mayStage = true →
    (∀ p ∈ [(Why.fatal, Instr.fatalStop), (.trip, .thermalTrip)], ∃ d, (exec p.2 s) = .next { s with dev := d } ∧ (
      d.sys.stage = .flushing p.1 false ∧ d.nvm.fseq = s.dev.nvm.fseq + 1 ∧ d.host.fetchOn = false ∧ d.pwr.limit = 0)) ∧
    (∀ v, bits v.toNat 31 1 = 0 → ∃ d, (exec (.rstCtlCold v) s) = .next { s with dev := d } ∧ (
      d.sys.stage = .flushing .software false ∧ d.nvm.fseq = s.dev.nvm.fseq + 1 ∧ d.host.fetchOn = false)) ∧
    (s.dev.pwr.ps ≠ 4 → ∃ d, (exec .pwrfailFall s) = .next { s with dev := d } ∧ (d.sys.stage = .flushing .power false ∧ d.sys.failLow = true ∧ d.nvm.fseq = s.dev.nvm.fseq + 1))) ∧
  (∀ v s, bits v.toNat 31 1 = 0 → s.dev.mayStage = false → s.dev.sys.stage = .boot ∨ s.dev.sys.stage = .noSlot ∨ (∃ o a, s.dev.sys.stage = .starting o a) → ∃ d, (exec (.rstCtlCold v) s) = .next { s with dev := d } ∧ (
    d.sys.stage = .reset .software false ∧ d.nvm = s.dev.nvm)) ∧
  (∀ s, s.dev.mayStage = false → s.dev.sys.stage = .boot ∨ s.dev.sys.stage = .noSlot ∨ (∃ o a, s.dev.sys.stage = .starting o a) → ∃ d, (exec .pwrfailFall s) = .next { s with dev := d } ∧ (d.sys.stage = .waiting .power false ∧ d.sys.failLow = true)) ∧
  (∀ s, ∃ d, (exec .pwrfailNRise s) = .next { s with dev := d } ∧ (d.sys.failLow = false ∧
    (∀ why fl, s.dev.sys.stage = .waiting why fl → d.sys.stage = .reset why fl) ∧ ((∀ why fl, s.dev.sys.stage ≠ .waiting why fl) → d.sys.stage = s.dev.sys.stage))) ∧
  (∀ s, ∃ d, (exec .railFault s) = .next { s with dev := d } ∧ (d.sys.stage = .off ∧ d.sys.pinsSafe = true ∧ d.sys.wp = 0 ∧ d.host.fetchOn = false)) ∧
  (∀ us10 power s why, s.dev.sys.stage = .flushing why true → ∃ d, (exec (.flushEnd us10 power) s) = .next { s with dev := d } ∧ (
    d.rd Fd.SYS_FLUSH_TIME_END = 1 ∧ d.rd Fd.SYS_FLUSH_TIME_US10 = us10.toNat ∧ (power = false → d.sys.stage = .off) ∧
    (power = true → why = .power ∨ why = .software → d.sys.stage = .reset why true) ∧
    (power = true → why = .trip ∨ why = .fatal → d.sys.stage = .stopped why ∧ d.sys.cfs = true)))

/-- The Dalesk link and the cascade (R456, R457, R460, R461, R463, R466 to R469): flits by type and number, ACKs, replays, ports down, up and narrowed,
requests and responses, followers lost and found. -/
def Obligations.CascadeActs : Prop :=
  (∀ (p : Fin 2) f s x diff, x = s.dev.dlkPort p → x.up = true → diff = (f.seq.toNat + 4096 - x.expect) % 4096 →
    ∃ d, (exec (.daleskFlitReceive p f) s) = .next { s with dev := d } ∧ (
      (f.kind.val = 0 → d = s.dev) ∧
      (f.kind.val = 1 → f.ok = false ∨ (1 ≤ diff ∧ diff ≤ 2047) → d = s.dev.send (.nak p x.expect)) ∧
      (f.kind.val = 1 → f.ok = true → 2047 < diff → d = s.dev.add Fd.DLK_CNT_DUP_FLIT 1) ∧
      (f.kind.val = 1 → f.ok = true → diff = 0 → f.dst.val = s.dev.sys.role →
        if x.accepted + 1 < 64 then d.dlkPort p = { x with expect := (x.expect + 1) % 4096, accepted := x.accepted + 1 } ∧ d.out = s.dev.out
        else d.dlkPort p = { x with expect := (x.expect + 1) % 4096, accepted := 0 } ∧
          d.out = .ack p (((x.expect + 1) % 4096 + 4095) % 4096) :: s.dev.out) ∧
      (f.kind.val = 2 → f.ok = false ∨ (x.unacked.any fun y => y.seq == f.seq) = false → d = s.dev) ∧
      (f.kind.val = 2 → f.ok = true → (x.unacked.any fun y => y.seq == f.seq) = true → x.ready = [] →
        d.dlkPort p = { x with unacked := dropAcked f.seq x.unacked, replays := 0 }) ∧
      (f.kind.val = 3 → f.ok = false ∨ x.unacked = [] → d = s.dev) ∧
      (f.kind.val = 3 → f.ok = true → x.unacked ≠ [] → x.replays + 1 < 8 →
        d.dlkPort p = { x with replays := x.replays + 1 } ∧ d.out = (x.unacked.map fun y => Out.flit p (flitImage y)).reverse ++ s.dev.out) ∧
      (f.kind.val = 3 → f.ok = true → x.unacked ≠ [] → 8 ≤ x.replays + 1 → (d.dlkPort p).up = false))) ∧
  (∀ (p : Fin 2) s x, x = s.dev.dlkPort p → x.up = true → ∃ d, (exec (.daleskAckSend p) s) = .next { s with dev := d } ∧ (
    d.dlkPort p = { x with accepted := 0 } ∧ d.out = .ack p ((x.expect + 4095) % 4096) :: s.dev.out)) ∧
  (∀ (p : Fin 2) s x, x = s.dev.dlkPort p → x.up = true → x.unacked ≠ [] → ∃ d, (exec (.daleskReplayTimeout p) s) = .next { s with dev := d } ∧ (
    (x.replays + 1 < 8 → d.dlkPort p = { x with replays := x.replays + 1 } ∧ d.out = (x.unacked.map fun y => Out.flit p (flitImage y)).reverse ++ s.dev.out) ∧
    (8 ≤ x.replays + 1 → (d.dlkPort p).up = false ∧ d.rd Fd.DLK_EVT_LINK_DN = 1))) ∧
  (∀ (p : Fin 2) s x, x = s.dev.dlkPort p → x.up = true → ∃ d, (exec (.daleskPortDown p) s) = .next { s with dev := d } ∧ (
    (d.dlkPort p).up = false ∧ d.rd Fd.DLK_EVT_LINK_DN = 1 ∧
    (s.dev.isRing = false ∨ (s.dev.dlkPort (1 - p)).up = false → (d.dlkPort p).ready = x.unacked ++ x.ready) ∧
    (s.dev.isRing = true → (s.dev.dlkPort (1 - p)).up = true → d.rd Fd.DLK_EVT_REROUTE = 1))) ∧
  (∀ (p : Fin 2) s x, x = s.dev.dlkPort p → x.up = true → ∃ d, (exec (.daleskLaneFail p) s) = .next { s with dev := d } ∧ (
    d.dlkPort p = { x with width := min 2 x.width } ∧ d.rd Fd.DLK_EVT_LANE = 1 ∧ bit (d.regGet Rg.SYS_FAULT 0 0) 5 = true)) ∧
  (∀ (p : Fin 2) (w : Fin 5) (peer : Fin 4) s, s.dev.is Fd.DLK_CTL_EN = true → (s.dev.dlkPort p).up = false → w.val ∈ [1, 2, 4] →
    ∃ d, (exec (.daleskPortUp p w peer) s) = .next { s with dev := d } ∧ (
      (d.dlkPort p).up = true ∧ (d.dlkPort p).width = w ∧ (d.dlkPort p).peer = peer ∧ d.rd Fd.DLK_EVT_LINK_UP = 1)) ∧
  (∀ (src : Fin 4) (id : Word) body s, src.val ≠ s.dev.sys.role → s.dev.takesRequest body = true →
    ∃ t, (exec (.daleskRequestReceive src id body) s) = .next t ∧ (
      (∀ m, s.dev.heldAnswer src id.toNat = some m → t = { s with dev := (sendMessage m.pos m.id m.vc m.body s.dev).add Fd.DLK_CNT_DUP_E2E 1 }) ∧
      (s.dev.heldAnswer src id.toNat = none → s.dev.underWay src id.toNat = true → t = s) ∧
      (∀ tn xs j rest, s.dev.heldAnswer src id.toNat = none → s.dev.underWay src id.toNat = false → body = .cells tn xs →
        s.dev.dlk.jobs = j :: rest → s.dev.jobFits j = false →
        t.dev.dlk = { s.dev.dlk with jobs := s.dev.dlk.jobs ++ [{ pos := src, id := id.toNat, ask := .cells tn xs }] }) ∧
      (s.dev.heldAnswer src id.toNat = none → s.dev.underWay src id.toNat = false → body = .live →
        ∃ m, t.dev.dlk.held.head? = some m ∧ m.pos = src ∧ m.id = id.toNat))) ∧
  (∀ (src : Fin 4) s, s.dev.sys.role = 0 → src.val ≠ 0 →
    (∀ id : Word, ∃ t, (exec (.daleskResponseReceive src (.acked id)) s) = .next t ∧ (
      (s.dev.moveOf src id.toNat = none → t.mem = s.mem ∧ t.dev.dlk.asked = s.dev.dlk.asked.filter fun m => !(decide (m.pos = src.val) && decide (m.id = id.toNat))) ∧
      (∀ m, s.dev.moveOf src id.toNat = some m → t = { s with dev := moveDone m (answered src id.toNat s.dev) }))) ∧
    (∀ id packet, s.dev.awaits src id.toNat = false → ∃ t, (exec (.daleskResponseReceive src (.jenam id packet)) s) = .next t ∧ (t = s)) ∧
    (s.dev.reaches src = true → ∃ t, (exec (.daleskResponseReceive src (.live true)) s) = .next t ∧ (src.val ∈ t.dev.dlk.ready)) ∧
    (∀ units, s.dev.startingUp = true → src.val ∈ s.dev.dlk.admitted → ∃ t, (exec (.daleskResponseReceive src (.hold units)) s) = .next t ∧ (
      t.dev.dlk.reported = s.dev.dlk.reported ++ units.map fun u => (src.val, u.toNat)))) ∧
  (∀ (pos : Fin 4) s, s.dev.sys.role = 0 → s.dev.reaches pos = true → ∃ t, (exec (.followerUnreachable pos) s) = .next t ∧ (
    (s.dev.jnm.bufs.find? fun b => b.phase == .forwarded && decide (jDev b.packet = pos.val)) = none →
      t.dev.dlk = { s.dev.dlk with unreach := s.dev.dlk.unreach ++ [(pos.val, s.dev.now)], ready := s.dev.dlk.ready.filter fun p => p ≠ pos.val } ∧
      t.dev.rd Fd.DLK_EVT_UNREACH = 1)) ∧
  (∀ (pos : Fin 4) s u, (s.dev.dlk.unreach.find? fun u => decide (u.1 = pos.val)) = some u → u.2 + s.dev.holdCycles ≤ s.dev.now → pos.val ∉ s.dev.dlk.expired →
    ∃ d, (exec (.unreachableHoldExpiry pos) s) = .next { s with dev := d } ∧ (d.dlk.expired = s.dev.dlk.expired ++ [pos.val] ∧ d.dlk.unreach = s.dev.dlk.unreach)) ∧
  (∀ (pos : Fin 4) s, s.dev.sys.role = 0 → (s.dev.dlk.unreach.any fun u => decide (u.1 = pos.val)) = true → (s.dev.dlkPort (s.dev.portTo pos)).up = true →
    ∃ d, (exec (.followerReturn pos) s) = .next { s with dev := d } ∧ (d.dlk.unreach = s.dev.dlk.unreach.filter (fun u => u.1 ≠ pos.val) ∧
      d.dlk.expired = s.dev.dlk.expired.filter (fun p => p ≠ pos.val) ∧ pos.val ∈ d.dlk.ready ∧ d.dlk.asked = s.dev.dlk.asked)) ∧
  (∀ s late, s.dev.sys.role = 0 → late = (s.dev.dlk.admitted.filter fun p => s.dev.reaches p && !decide (p ∈ s.dev.dlk.ready)) →
    ∃ t, (exec .admissionTimeout s) = .next t ∧ ((late = [] → t = { s with dev := answerReady s.dev }) ∧
      (∀ p, late = [p] → (s.dev.jnm.bufs.find? fun b => b.phase == .forwarded && decide (jDev b.packet = p)) = none →
        t.dev.dlk.unreach = s.dev.dlk.unreach ++ [(p, s.dev.now)] ∧ t.dev.rd Fd.DLK_EVT_UNREACH = 1)))

/-- Every well-formed command completes, in every state and with every operand: no row ends in a fault or a refusal, and none touches the commands
behind it. Of an ill-formed one, an APST table of other than 32 entries is turned down (R410). -/
def Obligations.EveryCommandCompletes : Prop :=
  (∀ c s, Instr.wellFormed c = true → ∃ t, (exec c s) = .next t ∧ (t.pending = s.pending)) ∧
  (∀ slot table s, table.length ≠ 32 → exec (.setFeaturesApst slot table) s = .fault (.illFormed "APST table"))

/-- What the stroke, hatch and channel rows leave unchanged: every part of the state but those named, every register but those named (each copy, of every channel), and the queue are as they were when the row gives a next state. -/
def Obligations.StrokeAndChannelRowsLeave : Prop :=
  (∀ obs s u, exec (.strokeBoundary obs) s = .next u → Frame [.nfree, .strk, .chans, .ecc, .par, .stip, .dram, .pool, .host, .med, .cam, .grv, .pwr, .nvm, .dlk, .out, .mem] [Rg.SYS_FAULT, Rg.SYS_FLUSH_SEQ, Rg.STRK_STAT, Rg.PWR_OP_V0, Rg.PWR_OP_V1, Rg.PWR_OP_V2, Rg.PWR_OP_V3, Rg.PWR_EVT, Rg.CAM_OP, Rg.CAM_RES, Rg.CAM_CNT, Rg.CAM_EVT, Rg.DMC_PORT_USE, Rg.DMC_RH_CNT, Rg.DMC_EVT, Rg.STIP_CNT_PAGES, Rg.STIP_CNT_WEAK, Rg.STIP_EVT, Rg.SEQ_CQ_TAIL, Rg.SEQ_CNT_SUSP, Rg.SEQ_CNT_DUP, Rg.SEQ_EVT, Rg.HATCH_STAT, Rg.PHY_RATE, Rg.PHY_CAL_STAT, Rg.PHY_EVT] s u) ∧
  (∀ obs s u, exec (.sheetBoundary obs) s = .next u → PartFrame [.nfree, .strk, .chans, .media, .ecc, .par, .stip, .ciph, .dram, .pool, .host, .zm, .med, .cam, .grv, .jnm, .pwr, .nvm, .sys, .dlk, .out, .mem] s u) ∧
  (∀ v cyc s u, exec (.strkLoad v cyc) s = .next u → Frame [.nfree, .strk] [Rg.STRK_CTL] s u) ∧
  (∀ cyc s u, exec (.countLoRead cyc) s = .next u → Frame [.bus, .strk] [] s u) ∧
  (∀ cyc s u, exec (.strokePllUnlock cyc) s = .next u → Frame [.strk, .chans, .grv, .pwr] [Rg.SYS_FAULT, Rg.SYS_EVT, Rg.STRK_STAT, Rg.STRK_SLIPS] s u) ∧
  (∀ s u, exec (.strokePllRelock) s = .next u → Frame [.strk, .chans, .ecc, .par, .dram, .host, .cam] [Rg.SYS_FAULT, Rg.CAM_OP, Rg.CAM_RES, Rg.CAM_CNT, Rg.CAM_EVT, Rg.DMC_PORT_USE, Rg.DMC_RH_CNT, Rg.DMC_EVT] s u) ∧
  (∀ ch v cyc s u, exec (.hatchCtlArm ch v cyc) s = .next u → Frame [.nfree, .strk, .chans] [Rg.HATCH_CTL, Rg.HATCH_STAT] s u) ∧
  (∀ ch cyc s u, exec (.hatchArmCheckDone ch cyc) s = .next u → Frame [.strk, .chans] [Rg.HATCH_STAT] s u) ∧
  (∀ ch v cyc s u, exec (.hatchCtlDisarm ch v cyc) s = .next u → Frame [.nfree, .strk, .chans] [Rg.HATCH_CTL, Rg.HATCH_STAT] s u) ∧
  (∀ ch v cyc s u, exec (.hatchCtlStop ch v cyc) s = .next u → Frame [.nfree, .strk, .chans] [Rg.HATCH_CTL, Rg.HATCH_STAT] s u) ∧
  (∀ ch bankB k high v s u, exec (.hatchEntryWrite ch bankB k high v) s = .next u → Frame [.chans] [Rg.HATCH_STAT] s u) ∧
  (∀ ch bankB v s u, exec (.hatchSealWrite ch bankB v) s = .next u → Frame [.chans] [Rg.HATCH_STAT] s u) ∧
  (∀ ch g desc dev cyc s u, exec (.descriptorRead ch g desc dev cyc) s = .next u → Frame [.strk, .chans, .ecc, .stip, .pool, .host, .med, .grv, .nvm, .dlk, .out, .mem] [Rg.STIP_CNT_PAGES, Rg.STIP_CNT_WEAK, Rg.STIP_EVT, Rg.SEQ_POST_STAT, Rg.SEQ_CQ_TAIL, Rg.SEQ_CNT_DUP, Rg.SEQ_EVT] s u) ∧
  (∀ ch g desc dev cyc s u, exec (.descriptorProgram ch g desc dev cyc) s = .next u → Frame [.strk, .chans, .ecc, .stip, .pool, .host, .med, .grv, .nvm, .dlk, .out, .mem] [Rg.STIP_CNT_PAGES, Rg.STIP_CNT_WEAK, Rg.STIP_EVT, Rg.SEQ_POST_STAT, Rg.SEQ_CQ_TAIL, Rg.SEQ_CNT_DUP, Rg.SEQ_EVT] s u) ∧
  (∀ ch g desc dev cyc s u, exec (.descriptorErase ch g desc dev cyc) s = .next u → Frame [.strk, .chans, .ecc, .stip, .pool, .host, .med, .grv, .nvm, .dlk, .out, .mem] [Rg.STIP_CNT_PAGES, Rg.STIP_CNT_WEAK, Rg.STIP_EVT, Rg.SEQ_POST_STAT, Rg.SEQ_CQ_TAIL, Rg.SEQ_CNT_DUP, Rg.SEQ_EVT] s u) ∧
  (∀ ch g desc dev cyc s u, exec (.descriptorProofRead ch g desc dev cyc) s = .next u → Frame [.strk, .chans, .ecc, .stip, .pool, .host, .med, .grv, .nvm, .dlk, .out, .mem] [Rg.STIP_CNT_PAGES, Rg.STIP_CNT_WEAK, Rg.STIP_EVT, Rg.SEQ_POST_STAT, Rg.SEQ_CQ_TAIL, Rg.SEQ_CNT_DUP, Rg.SEQ_EVT] s u) ∧
  (∀ ch g desc dev cyc s u, exec (.descriptorStatus ch g desc dev cyc) s = .next u → Frame [.strk, .chans, .ecc, .stip, .pool, .host, .med, .grv, .nvm, .dlk, .out, .mem] [Rg.STIP_CNT_PAGES, Rg.STIP_CNT_WEAK, Rg.STIP_EVT, Rg.SEQ_POST_STAT, Rg.SEQ_CQ_TAIL, Rg.SEQ_CNT_DUP, Rg.SEQ_EVT] s u) ∧
  (∀ ch g desc dev cyc s u, exec (.descriptorReset ch g desc dev cyc) s = .next u → Frame [.strk, .chans, .ecc, .stip, .pool, .host, .med, .grv, .nvm, .dlk, .out, .mem] [Rg.STIP_CNT_PAGES, Rg.STIP_CNT_WEAK, Rg.STIP_EVT, Rg.SEQ_POST_STAT, Rg.SEQ_CQ_TAIL, Rg.SEQ_CNT_DUP, Rg.SEQ_EVT] s u) ∧
  (∀ ch slot poll s u, exec (.decisionPoint ch slot poll) s = .next u → Frame [.nfree, .strk, .chans, .media, .ecc, .stip, .pool, .host, .zm, .med, .grv, .nvm, .dlk, .out, .mem] [Rg.STIP_CNT_PAGES, Rg.STIP_CNT_WEAK, Rg.STIP_EVT, Rg.SEQ_CQ_TAIL, Rg.SEQ_CNT_SUSP, Rg.SEQ_CNT_DUP, Rg.SEQ_EVT, Rg.CARB_CNT_GRANT, Rg.CARB_CNT_FORCE, Rg.CARB_EVT] s u) ∧
  (∀ ch slot poll s u, exec (.preemptionPoint ch slot poll) s = .next u → Frame [.nfree, .strk, .chans, .media, .ecc, .stip, .pool, .host, .zm, .med, .grv, .nvm, .dlk, .out, .mem] [Rg.STIP_CNT_PAGES, Rg.STIP_CNT_WEAK, Rg.STIP_EVT, Rg.SEQ_CQ_TAIL, Rg.SEQ_CNT_SUSP, Rg.SEQ_CNT_DUP, Rg.SEQ_EVT, Rg.CARB_CNT_GRANT, Rg.CARB_CNT_FORCE, Rg.CARB_EVT] s u) ∧
  (∀ ch zeros drift s u, exec (.readBurstEnd ch zeros drift) s = .next u → Frame [.nfree, .strk, .chans, .ecc, .stip, .pool, .host, .med, .grv, .nvm, .dlk, .out, .mem] [Rg.STIP_CNT_PAGES, Rg.STIP_CNT_WEAK, Rg.STIP_EVT, Rg.SEQ_CQ_TAIL, Rg.SEQ_CNT_DUP, Rg.SEQ_EVT] s u) ∧
  (∀ ch s u, exec (.loadBurstEnd ch) s = .next u → Frame [.strk, .chans, .ecc, .stip, .pool, .host, .med, .grv, .nvm, .dlk, .out, .mem] [Rg.STIP_CNT_PAGES, Rg.STIP_CNT_WEAK, Rg.STIP_EVT, Rg.SEQ_CQ_TAIL, Rg.SEQ_CNT_DUP, Rg.SEQ_EVT] s u) ∧
  (∀ ch t cyc s u, exec (.pollFloorPass ch t cyc) s = .next u → Frame [.strk, .chans, .ecc, .stip, .pool, .host, .med, .grv, .nvm, .dlk, .out, .mem] [Rg.STIP_CNT_PAGES, Rg.STIP_CNT_WEAK, Rg.STIP_EVT, Rg.SEQ_CQ_TAIL, Rg.SEQ_CNT_DUP, Rg.SEQ_EVT] s u) ∧
  (∀ ch t cyc s u, exec (.operationTimeout ch t cyc) s = .next u → Frame [.nfree, .strk, .chans, .media, .ecc, .stip, .pool, .host, .med, .grv, .nvm, .dlk, .out, .mem] [Rg.STIP_CNT_PAGES, Rg.STIP_CNT_WEAK, Rg.STIP_EVT, Rg.SEQ_CQ_TAIL, Rg.SEQ_CNT_DUP, Rg.SEQ_EVT] s u) ∧
  (∀ ch t cyc s u, exec (.dieResetDone ch t cyc) s = .next u → Frame [.strk, .chans, .ecc, .stip, .pool, .host, .med, .grv, .nvm, .dlk, .out, .mem] [Rg.STIP_CNT_PAGES, Rg.STIP_CNT_WEAK, Rg.STIP_EVT, Rg.SEQ_CQ_TAIL, Rg.SEQ_CNT_DUP, Rg.SEQ_EVT] s u) ∧
  (∀ ch v s u, exec (.seqCqHeadWrite ch v) s = .next u → Frame [.nfree, .chans, .ecc, .stip, .pool, .host, .med, .grv, .nvm, .dlk, .out, .mem] [Rg.STIP_CNT_PAGES, Rg.STIP_CNT_WEAK, Rg.STIP_EVT, Rg.SEQ_CQ_HEAD, Rg.SEQ_CQ_TAIL, Rg.SEQ_CNT_DUP, Rg.SEQ_EVT] s u) ∧
  (∀ ch v s u, exec (.blockStateWrite ch v) s = .next u → Frame [.nfree, .chans, .ecc, .stip, .pool, .host, .med, .grv, .nvm, .dlk, .out, .mem] [Rg.STIP_CNT_PAGES, Rg.STIP_CNT_WEAK, Rg.STIP_EVT, Rg.SEQ_CQ_TAIL, Rg.SEQ_CNT_DUP, Rg.SEQ_EVT] s u) ∧
  (∀ ch v s u, exec (.phyRetrain ch v) s = .next u → Frame [.nfree, .chans] [Rg.SEQ_EVT, Rg.PHY_RATE] s u) ∧
  (∀ ch s u, exec (.trainingEnd ch) s = .next u → Frame [.chans] [] s u)

/-- What the queue and admin command rows leave unchanged: every part of the state but those named, every register but those named (each copy, of every channel), and the queue are as they were when the row gives a next state. -/
def Obligations.HostRowsLeave : Prop :=
  (∀ f q v s u, exec (.sqTailDoorbell f q v) s = .next u → Frame [.host, .pwr, .nvm, .out] [Rg.PWR_ENTRY_CNT, Rg.PWR_REFUSER, Rg.PWR_EVT, Rg.HQ_EVT] s u) ∧
  (∀ f q v s u, exec (.cqHeadDoorbell f q v) s = .next u → Frame [.host, .zm, .cam, .out] [Rg.HQ_EVT] s u) ∧
  (∀ s u, exec (.commandFetchIssue) s = .next u → Frame [.host, .out] [Rg.TEN_EVT] s u) ∧
  (∀ f q idx sqe s u, exec (.commandFetch f q idx sqe) s = .next u → Frame [.host] [Rg.HQ_CIDC, Rg.HQ_EVT] s u) ∧
  (∀ slot cyc s u, exec (.completionPost slot cyc) s = .next u → Frame [.strk, .host, .zm, .cam, .grv, .out] [Rg.HQ_EVT, Rg.TEN_CLS_MISS, Rg.TEN_EVT] s u) ∧
  (∀ slot cyc s u, exec (.paceExpiry slot cyc) s = .next u → Frame [.strk, .host, .zm, .cam, .out] [Rg.HQ_EVT] s u) ∧
  (∀ slot s u, exec (.createIoSq slot) s = .next u → Frame [.host] [] s u) ∧
  (∀ slot s u, exec (.createIoCq slot) s = .next u → Frame [.host] [] s u) ∧
  (∀ slot s u, exec (.deleteIoSq slot) s = .next u → Frame [.ciph, .pool, .host, .zm, .cam, .grv] [Rg.CELL_DBL, Rg.CELL_CNT, Rg.CELL_EVT] s u) ∧
  (∀ slot s u, exec (.deleteIoCq slot) s = .next u → Frame [.host] [] s u) ∧
  (∀ slot s u, exec (.getLogPage slot) s = .next u → Frame [.nfree, .host, .med, .out] [] s u) ∧
  (∀ slot s u, exec (.identify slot) s = .next u → Frame [.nfree, .host, .out] [] s u) ∧
  (∀ slot s u, exec (.abortCmd slot) s = .next u → Frame [.ciph, .pool, .host, .zm, .cam, .grv] [Rg.HQ_ABORTS, Rg.CELL_DBL, Rg.CELL_CNT, Rg.CELL_EVT] s u) ∧
  (∀ slot s u, exec (.setFeatures slot) s = .next u → Frame [.host] [] s u) ∧
  (∀ slot s u, exec (.getFeatures slot) s = .next u → Frame [.host, .out] [] s u) ∧
  (∀ slot s u, exec (.setFeaturesNumberOfQueues slot) s = .next u → Frame [.host] [] s u) ∧
  (∀ slot s u, exec (.setFeaturesPowerManagement slot) s = .next u → Frame [.host, .pwr] [] s u) ∧
  (∀ slot table s u, exec (.setFeaturesApst slot table) s = .next u → Frame [.host] [] s u) ∧
  (∀ slot ts s u, exec (.setFeaturesTimestamp slot ts) s = .next u → Frame [.host, .pwr] [] s u) ∧
  (∀ slot s u, exec (.getFeaturesTimestamp slot) s = .next u → Frame [.host, .out] [] s u) ∧
  (∀ slot s u, exec (.setFeaturesServiceState slot) s = .next u → Frame [.host] [] s u) ∧
  (∀ slot s u, exec (.setFeaturesAsyncEventConfig slot) s = .next u → Frame [.host] [] s u) ∧
  (∀ slot s u, exec (.setFeaturesTempThreshold slot) s = .next u → Frame [.host] [] s u) ∧
  (∀ slot s u, exec (.asynchronousEventRequest slot) s = .next u → Frame [.host] [] s u) ∧
  (∀ slot data s u, exec (.firmwareImageDownload slot data) s = .next u → Frame [.host, .sys] [] s u) ∧
  (∀ slot s u, exec (.firmwareCommitReplace slot) s = .next u → Frame [.host, .nvm, .sys] [Rg.GRV_BOOT] s u) ∧
  (∀ slot s u, exec (.firmwareCommitReplaceActivate slot) s = .next u → Frame [.host, .nvm, .sys] [Rg.GRV_BOOT] s u) ∧
  (∀ slot s u, exec (.firmwareCommitActivate slot) s = .next u → Frame [.host, .nvm] [Rg.GRV_BOOT] s u) ∧
  (∀ slot s u, exec (.firmwareCommitActivateNow slot) s = .next u → Frame [.host, .nvm, .sys] [Rg.GRV_BOOT] s u) ∧
  (∀ slot s u, exec (.deviceSelfTestShort slot) s = .next u → Frame [.chans, .ecc, .host] [Rg.SEQ_CNT_DUP, Rg.SEQ_EVT] s u) ∧
  (∀ slot s u, exec (.deviceSelfTestExtended slot) s = .next u → Frame [.chans, .ecc, .host] [Rg.SEQ_CNT_DUP, Rg.SEQ_EVT] s u) ∧
  (∀ slot s u, exec (.deviceSelfTestAbort slot) s = .next u → Frame [.nfree, .host] [] s u) ∧
  (∀ slot s u, exec (.formatNvm slot) s = .next u → Frame [.nfree, .chans, .ciph, .pool, .host, .zm, .med, .cam, .grv, .nvm, .dlk, .out] [Rg.ZONE_EVT, Rg.CIPH_EVT] s u) ∧
  (∀ slot s u, exec (.sanitize slot) s = .next u → Frame [.nfree, .chans, .ciph, .pool, .host, .zm, .med, .cam, .grv, .nvm, .dlk, .out] [Rg.ZONE_EVT, Rg.CIPH_EVT] s u)

/-- What the I/O, zone, refold and cell rows leave unchanged: every part of the state but those named, every register but those named (each copy, of every channel), and the queue are as they were when the row gives a next state. -/
def Obligations.DataRowsLeave : Prop :=
  (∀ slot s u, exec (.flushCmd slot) s = .next u → Frame [.host] [] s u) ∧
  (∀ slot s u, exec (.writeCmd slot) s = .next u → Frame [.host, .zm, .med, .cam, .grv, .nvm, .out] [Rg.ZONE_LAND_CNT, Rg.ZONE_EVT, Rg.TEN_EVT, Rg.CAM_CNT, Rg.CAM_CNT_WAIT, Rg.CAM_EVT] s u) ∧
  (∀ slot s u, exec (.readCmd slot) s = .next u → Frame [.chans, .ecc, .stip, .ciph, .pool, .host, .zm, .med, .cam, .grv, .nvm, .dlk, .out, .mem] [Rg.CAM_CNT, Rg.CAM_EVT, Rg.LDPC_LB_LEVEL, Rg.LDPC_LB_OVER_LO, Rg.LDPC_LB_OVER_HI, Rg.LDPC_CNT_MISC, Rg.LDPC_EVT, Rg.STIP_CNT_PAGES, Rg.STIP_CNT_WEAK, Rg.STIP_EVT, Rg.SEQ_CQ_TAIL, Rg.SEQ_CNT_DUP, Rg.SEQ_EVT] s u) ∧
  (∀ slot s u, exec (.writeZeroes slot) s = .next u → Frame [.host, .zm, .med, .cam, .grv, .nvm, .out] [Rg.ZONE_LAND_CNT, Rg.ZONE_EVT, Rg.TEN_EVT, Rg.CAM_CNT, Rg.CAM_CNT_WAIT, Rg.CAM_EVT] s u) ∧
  (∀ slot s u, exec (.verifyCmd slot) s = .next u → Frame [.chans, .ecc, .stip, .ciph, .pool, .host, .zm, .med, .cam, .grv, .nvm, .dlk, .out, .mem] [Rg.CAM_CNT, Rg.CAM_EVT, Rg.LDPC_LB_LEVEL, Rg.LDPC_LB_OVER_LO, Rg.LDPC_LB_OVER_HI, Rg.LDPC_CNT_MISC, Rg.LDPC_EVT, Rg.STIP_CNT_PAGES, Rg.STIP_CNT_WEAK, Rg.STIP_EVT, Rg.SEQ_CQ_TAIL, Rg.SEQ_CNT_DUP, Rg.SEQ_EVT] s u) ∧
  (∀ slot s u, exec (.zoneAppend slot) s = .next u → Frame [.host, .zm, .med, .cam, .grv, .nvm, .out] [Rg.ZONE_LAND_CNT, Rg.ZONE_EVT, Rg.TEN_EVT, Rg.CAM_CNT, Rg.CAM_CNT_WAIT, Rg.CAM_EVT] s u) ∧
  (∀ s u, exec (.writeGrant) s = .next u → Frame [.ciph, .pool, .host, .out] [Rg.TEN_EVT] s u) ∧
  (∀ slot s u, exec (.writeCommit slot) s = .next u → Frame [.nfree, .pool, .host, .zm, .cam, .grv, .dlk, .out] [Rg.ZONE_LAND_CNT] s u) ∧
  (∀ slot s u, exec (.zoneOpen slot) s = .next u → Frame [.host, .zm, .med, .cam, .grv, .nvm] [Rg.ZONE_EVT, Rg.CAM_CNT_WAIT] s u) ∧
  (∀ slot s u, exec (.zoneClose slot) s = .next u → Frame [.host, .zm, .cam, .grv] [Rg.ZONE_EVT, Rg.CAM_CNT_WAIT] s u) ∧
  (∀ slot s u, exec (.zoneFinish slot) s = .next u → Frame [.nfree, .pool, .host, .zm, .med, .cam, .grv, .nvm, .dlk, .out] [Rg.ZONE_EVT, Rg.CAM_CNT_WAIT] s u) ∧
  (∀ slot s u, exec (.zoneReset slot) s = .next u → Frame [.chans, .pool, .host, .zm, .med, .cam, .grv, .nvm, .dlk, .out] [Rg.ZONE_EVT, Rg.CAM_CNT_WAIT] s u) ∧
  (∀ slot s u, exec (.zoneOffline slot) s = .next u → Frame [.host, .zm, .med, .grv] [Rg.ZONE_EVT, Rg.CAM_CNT_WAIT] s u) ∧
  (∀ slot s u, exec (.zoneReground slot) s = .next u → Frame [.chans, .pool, .host, .zm, .med, .cam, .grv, .nvm, .dlk, .out] [Rg.ZONE_EVT, Rg.CAM_CNT_WAIT] s u) ∧
  (∀ slot s u, exec (.reportZones slot) s = .next u → Frame [.host, .out] [] s u) ∧
  (∀ slot s u, exec (.reportZonePlacement slot) s = .next u → Frame [.host, .out] [] s u) ∧
  (∀ slot s u, exec (.extendedReportZones slot) s = .next u → Frame [.host, .out] [] s u) ∧
  (∀ slot ranges s u, exec (.refoldCmd slot ranges) s = .next u → Frame [.host, .zm, .med, .cam, .grv, .nvm, .out] [Rg.ZONE_EVT, Rg.TEN_EVT, Rg.CAM_CNT_WAIT] s u) ∧
  (∀ s u, exec (.refoldStart) s = .next u → Frame [.pool, .host, .zm] [Rg.TEN_EVT] s u) ∧
  (∀ seq lost s u, exec (.refoldCommit seq lost) s = .next u → Frame [.nfree, .chans, .media, .ciph, .pool, .host, .zm, .med, .cam, .grv, .nvm, .dlk, .out] [Rg.ZONE_EVT] s u) ∧
  (∀ nsid z s u, exec (.zoneReadOnlyEntry nsid z) s = .next u → Frame [.host, .zm, .med, .cam, .grv] [Rg.ZONE_EVT] s u) ∧
  (∀ g r s u, exec (.dataAgeExpiry g r) s = .next u → Frame [.nfree, .pool, .zm, .med, .grv, .dlk, .out] [] s u) ∧
  (∀ g v s u, exec (.cellAllocRequest g v) s = .next u → Frame [.nfree, .pool] [Rg.CELL_ALLOC_RES, Rg.CELL_EVT] s u) ∧
  (∀ s u, exec (.cellAllocGrant) s = .next u → Frame [.pool] [Rg.CELL_ALLOC_RES] s u) ∧
  (∀ g v s u, exec (.cellFree g v) s = .next u → Frame [.nfree, .pool, .host, .zm, .cam, .grv] [Rg.CELL_FREE_RES, Rg.CELL_DBL, Rg.CELL_CNT, Rg.CELL_EVT] s u) ∧
  (∀ g v s u, exec (.cellSplice g v) s = .next u → Frame [.nfree, .pool] [Rg.CELL_SPLICE_H, Rg.CELL_SPLICE_RES, Rg.CELL_CNT, Rg.CELL_EVT] s u) ∧
  (∀ v s u, exec (.cellPoolEnable v) s = .next u → Frame [.nfree, .pool] [Rg.CELL_CTL] s u) ∧
  (∀ s u, exec (.cellPoolReady) s = .next u → Frame [.pool] [Rg.CELL_EVT] s u) ∧
  (∀ s u, exec (.linkLoRead) s = .next u → Frame [.bus, .pool] [] s u) ∧
  (∀ slot s u, exec (.camSearchResult slot) s = .next u → Frame [.chans, .ecc, .stip, .ciph, .pool, .host, .zm, .med, .cam, .grv, .nvm, .dlk, .out, .mem] [Rg.CAM_CNT_WAIT, Rg.LDPC_LB_LEVEL, Rg.LDPC_LB_OVER_LO, Rg.LDPC_LB_OVER_HI, Rg.LDPC_CNT_MISC, Rg.LDPC_EVT, Rg.STIP_CNT_PAGES, Rg.STIP_CNT_WEAK, Rg.STIP_EVT, Rg.SEQ_CQ_TAIL, Rg.SEQ_CNT_DUP, Rg.SEQ_EVT] s u) ∧
  (∀ slot s u, exec (.camResearch slot) s = .next u → Frame [.cam] [Rg.CAM_CNT, Rg.CAM_EVT] s u) ∧
  (∀ g v s u, exec (.camInvalidate g v) s = .next u → Frame [.nfree, .cam] [Rg.CAM_OP, Rg.CAM_RES] s u) ∧
  (∀ g v s u, exec (.camWrite g v) s = .next u → Frame [.nfree, .cam] [Rg.CAM_OP, Rg.CAM_RES] s u) ∧
  (∀ g v s u, exec (.camValidate g v) s = .next u → Frame [.nfree, .cam] [Rg.CAM_OP, Rg.CAM_RES, Rg.CAM_EVT] s u) ∧
  (∀ g v s u, exec (.camRead g v) s = .next u → Frame [.nfree] [Rg.CAM_ENT_D0, Rg.CAM_ENT_D1, Rg.CAM_ENT_D2, Rg.CAM_ENT_D3, Rg.CAM_ENT_D4, Rg.CAM_ENT_D5, Rg.CAM_OP, Rg.CAM_RES] s u) ∧
  (∀ g v s u, exec (.camSearch g v) s = .next u → Frame [.nfree, .cam] [Rg.CAM_OP, Rg.CAM_RES, Rg.CAM_CNT, Rg.CAM_EVT] s u) ∧
  (∀ slot s u, exec (.dataTransferError slot) s = .next u → Frame [.ciph, .pool, .host, .zm, .cam, .grv] [Rg.CELL_DBL, Rg.CELL_CNT, Rg.CELL_EVT] s u) ∧
  (∀ slot idx data s u, exec (.writeDataArrival slot idx data) s = .next u → Frame [.ciph] [] s u)

/-- What the function, link and SPDM rows leave unchanged: every part of the state but those named, every register but those named (each copy, of every channel), and the queue are as they were when the row gives a next state. -/
def Obligations.FunctionRowsLeave : Prop :=
  (∀ f asqs acqs s u, exec (.ccEnSet f asqs acqs) s = .next u → Frame [.host, .out] [] s u) ∧
  (∀ f s u, exec (.ccEnClear f) s = .next u → Frame [.chans, .ecc, .par, .ciph, .pool, .host, .zm, .cam, .grv, .jnm, .pwr, .dlk, .out] [Rg.CELL_DBL, Rg.CELL_CNT, Rg.CELL_EVT] s u) ∧
  (∀ f s u, exec (.functionLevelReset f) s = .next u → Frame [.chans, .ecc, .par, .ciph, .pool, .host, .zm, .cam, .grv, .jnm, .pwr, .dlk, .out] [Rg.CELL_DBL, Rg.CELL_CNT, Rg.CELL_EVT] s u) ∧
  (∀ port s u, exec (.vfEnableClear port) s = .next u → Frame [.chans, .ecc, .par, .ciph, .pool, .host, .zm, .cam, .grv, .jnm, .pwr, .dlk, .out] [Rg.CELL_DBL, Rg.CELL_CNT, Rg.CELL_EVT] s u) ∧
  (∀ port s u, exec (.portLinkDown port) s = .next u → Frame [.chans, .ecc, .par, .ciph, .pool, .host, .zm, .cam, .grv, .jnm, .pwr, .dlk] [Rg.SYS_FAULT, Rg.SYS_EVT, Rg.HQ_EVT, Rg.CELL_DBL, Rg.CELL_CNT, Rg.CELL_EVT] s u) ∧
  (∀ port flit rate width s u, exec (.portLinkUp port flit rate width) s = .next u → Frame [.host] [Rg.SYS_FAULT, Rg.SYS_EVT, Rg.HQ_EVT] s u) ∧
  (∀ f s u, exec (.teardownDone f) s = .next u → Frame [.host, .cam, .jnm] [Rg.TEN_EVT] s u) ∧
  (∀ f s u, exec (.shutdownNotification f) s = .next u → Frame [.host, .med, .nvm, .out] [] s u) ∧
  (∀ port stream s u, exec (.ideIntegrityFailure port stream) s = .next u → Frame [.host] [] s u) ∧
  (∀ port s u, exec (.portReset port) s = .next u → Frame [.chans, .ecc, .par, .ciph, .pool, .host, .zm, .cam, .grv, .jnm, .pwr, .dlk] [Rg.SYS_FAULT, Rg.SYS_EVT, Rg.HQ_EVT, Rg.CELL_DBL, Rg.CELL_CNT, Rg.CELL_EVT] s u) ∧
  (∀ port s u, exec (.perstRise port) s = .next u → Frame [.host] [] s u) ∧
  (∀ port index s u, exec (.doeDiscovery port index) s = .next u → Frame [.out] [] s u) ∧
  (∀ port s u, exec (.spdmGetVersion port) s = .next u → Frame [.host, .out] [] s u) ∧
  (∀ port version s u, exec (.spdmGetCapabilities port version) s = .next u → Frame [.host, .out] [] s u) ∧
  (∀ port sig hash dhe aead s u, exec (.spdmNegotiateAlgorithms port sig hash dhe aead) s = .next u → Frame [.host, .out] [] s u) ∧
  (∀ port s u, exec (.spdmGetDigests port) s = .next u → Frame [.out] [] s u) ∧
  (∀ port cert off len s u, exec (.spdmGetCertificate port cert off len) s = .next u → Frame [.out] [] s u) ∧
  (∀ port cert nonce s u, exec (.spdmChallenge port cert nonce) s = .next u → Frame [.nfree, .out] [] s u) ∧
  (∀ port index sign nonce s u, exec (.spdmGetMeasurements port index sign nonce) s = .next u → Frame [.nfree, .out] [] s u) ∧
  (∀ port cert nonce pub s u, exec (.spdmKeyExchange port cert nonce pub) s = .next u → Frame [.nfree, .host, .out] [] s u) ∧
  (∀ port session mac s u, exec (.spdmFinish port session mac) s = .next u → Frame [.host, .out] [] s u) ∧
  (∀ port session s u, exec (.spdmHeartbeat port session) s = .next u → Frame [.out] [] s u) ∧
  (∀ port session op s u, exec (.spdmKeyUpdate port session op) s = .next u → Frame [.host, .out] [] s u) ∧
  (∀ port session s u, exec (.spdmEndSession port session) s = .next u → Frame [.host, .out] [] s u) ∧
  (∀ v s u, exec (.fCfgTenantWrite v) s = .next u → Frame [.nfree] [Rg.TEN_F_CFG, Rg.TEN_EVT] s u) ∧
  (∀ v s u, exec (.clsCfgWrite v) s = .next u → Frame [.nfree] [Rg.TEN_CLS_CFG] s u) ∧
  (∀ port n s u, exec (.vfEnableSet port n) s = .next u → Frame [.host, .out] [] s u) ∧
  (∀ port session stream go s u, exec (.ideKmRequest port session stream go) s = .next u → Frame [.host, .out] [] s u)

/-- What the media health, correction, parity and stipple rows leave unchanged: every part of the state but those named, every register but those named (each copy, of every channel), and the queue are as they were when the row gives a next state. -/
def Obligations.MediaRowsLeave : Prop :=
  (∀ ch v s u, exec (.dieRetire ch v) s = .next u → Frame [.nfree, .chans, .media, .ecc, .stip, .ciph, .pool, .host, .zm, .med, .cam, .grv, .nvm, .dlk, .out, .mem] [Rg.SYS_FAULT, Rg.SYS_EVT, Rg.HQ_EVT, Rg.ZONE_EVT, Rg.CELL_DBL, Rg.CELL_CNT, Rg.CELL_EVT, Rg.STIP_CNT_PAGES, Rg.STIP_CNT_WEAK, Rg.STIP_EVT, Rg.SEQ_CQ_TAIL, Rg.SEQ_CNT_DUP, Rg.SEQ_EVT] s u) ∧
  (∀ ch v s u, exec (.channelRetire ch v) s = .next u → Frame [.nfree, .chans, .media, .ecc, .stip, .ciph, .pool, .host, .zm, .med, .cam, .grv, .nvm, .sys, .dlk, .out, .mem] [Rg.SYS_FAULT, Rg.SYS_EVT, Rg.HQ_EVT, Rg.ZONE_EVT, Rg.CELL_DBL, Rg.CELL_CNT, Rg.CELL_EVT, Rg.STIP_CNT_PAGES, Rg.STIP_CNT_WEAK, Rg.STIP_EVT, Rg.SEQ_CTL, Rg.SEQ_CQ_TAIL, Rg.SEQ_CNT_DUP, Rg.SEQ_EVT] s u) ∧
  (∀ ch v s u, exec (.diePresentWrite ch v) s = .next u → Frame [.nfree, .chans, .media, .ecc, .stip, .ciph, .pool, .host, .zm, .med, .cam, .grv, .nvm, .dlk, .out, .mem] [Rg.SYS_FAULT, Rg.SYS_EVT, Rg.HQ_EVT, Rg.ZONE_EVT, Rg.CELL_DBL, Rg.CELL_CNT, Rg.CELL_EVT, Rg.STIP_CNT_PAGES, Rg.STIP_CNT_WEAK, Rg.STIP_EVT, Rg.SEQ_CQ_TAIL, Rg.SEQ_CNT_DUP, Rg.SEQ_EVT] s u) ∧
  (∀ die s u, exec (.blockReplacement die) s = .next u → Frame [.nfree, .pool, .host, .zm, .med, .grv, .nvm, .dlk, .out] [] s u) ∧
  (∀ die s u, exec (.replacementSwitch die) s = .next u → Frame [.chans, .media, .host, .zm, .med] [] s u) ∧
  (∀ g s u, exec (.rowMigration g) s = .next u → Frame [.med, .grv, .nvm] [] s u) ∧
  (∀ g s u, exec (.migrationSwitch g) s = .next u → Frame [.chans, .media, .zm, .med, .grv, .nvm, .dlk, .out] [Rg.ZONE_EVT] s u) ∧
  (∀ g r m s u, exec (.rebuildSwitch g r m) s = .next u → Frame [.nfree, .media, .pool, .host, .zm, .med, .grv, .nvm, .dlk, .out] [Rg.SYS_FAULT, Rg.HQ_EVT] s u) ∧
  (∀ s u, exec (.metadataCheckpoint) s = .next u → Frame [.med, .nvm] [] s u) ∧
  (∀ ch r cyc s u, exec (.hardDecodeDone ch r cyc) s = .next u → Frame [.nfree, .strk, .chans, .ecc, .par, .stip, .ciph, .pool, .host, .zm, .med, .grv, .nvm, .dlk, .out, .mem] [Rg.LDPC_ESC_TAIL, Rg.LDPC_LB_LEVEL, Rg.LDPC_LB_OVER_LO, Rg.LDPC_LB_OVER_HI, Rg.LDPC_CNT_ESC, Rg.LDPC_CNT_MISC, Rg.LDPC_EVT, Rg.STIP_CNT_PAGES, Rg.STIP_CNT_WEAK, Rg.STIP_EVT, Rg.SEQ_CQ_TAIL, Rg.SEQ_CNT_DUP, Rg.SEQ_EVT] s u) ∧
  (∀ s u, exec (.softDecodeStart) s = .next u → Frame [.ecc] [] s u) ∧
  (∀ dec r s u, exec (.softDecodeDone dec r) s = .next u → Frame [.nfree, .chans, .ecc, .par, .stip, .ciph, .pool, .host, .zm, .med, .grv, .nvm, .dlk, .out, .mem] [Rg.LDPC_ESC_TAIL, Rg.LDPC_LB_LEVEL, Rg.LDPC_LB_OVER_LO, Rg.LDPC_LB_OVER_HI, Rg.LDPC_CNT_MISC, Rg.LDPC_EVT, Rg.STIP_CNT_PAGES, Rg.STIP_CNT_WEAK, Rg.STIP_EVT, Rg.SEQ_CQ_TAIL, Rg.SEQ_CNT_DUP, Rg.SEQ_EVT] s u) ∧
  (∀ s u, exec (.deepEscalation) s = .next u → Frame [.chans, .ecc, .stip, .pool, .host, .med, .grv, .nvm, .dlk, .out, .mem] [Rg.LDPC_ESC_TAIL, Rg.LDPC_LB_LEVEL, Rg.LDPC_LB_OVER_LO, Rg.LDPC_LB_OVER_HI, Rg.LDPC_CNT_ESC, Rg.LDPC_CNT_DEEP, Rg.LDPC_CNT_MISC, Rg.LDPC_EVT, Rg.STIP_CNT_PAGES, Rg.STIP_CNT_WEAK, Rg.STIP_EVT, Rg.SEQ_CQ_TAIL, Rg.SEQ_CNT_DUP, Rg.SEQ_EVT] s u) ∧
  (∀ esc r s u, exec (.deepDecodeDone esc r) s = .next u → Frame [.nfree, .ecc, .par, .ciph, .pool, .host, .zm, .med, .grv, .dlk, .out, .mem] [Rg.HQ_EVT, Rg.LDPC_ESC_TAIL, Rg.LDPC_LB_LEVEL, Rg.LDPC_LB_OVER_LO, Rg.LDPC_LB_OVER_HI, Rg.LDPC_CNT_DEEP, Rg.LDPC_CNT_MISC, Rg.LDPC_EVT] s u) ∧
  (∀ v s u, exec (.escHeadWrite v) s = .next u → Frame [.nfree, .ecc, .pool, .mem] [Rg.LDPC_ESC_HEAD, Rg.LDPC_ESC_TAIL, Rg.LDPC_EVT] s u) ∧
  (∀ g job s u, exec (.parityOpen g job) s = .next u → Frame [.ecc, .par, .pool] [Rg.PAR_JOB_STAT, Rg.PAR_EVT] s u) ∧
  (∀ g job s u, exec (.parityAdd g job) s = .next u → Frame [.ecc, .par, .pool] [Rg.PAR_JOB_STAT, Rg.PAR_EVT] s u) ∧
  (∀ g job s u, exec (.parityClose g job) s = .next u → Frame [.ecc, .par, .pool] [Rg.PAR_JOB_STAT, Rg.PAR_EVT] s u) ∧
  (∀ g job s u, exec (.parityRecon g job) s = .next u → Frame [.ecc, .par, .pool] [Rg.PAR_JOB_STAT, Rg.PAR_EVT] s u) ∧
  (∀ g job s u, exec (.parityDrop g job) s = .next u → Frame [.ecc, .par, .pool] [Rg.PAR_JOB_STAT, Rg.PAR_EVT] s u) ∧
  (∀ g job s u, exec (.parityCancel g job) s = .next u → Frame [.ecc, .par, .pool] [Rg.PAR_JOB_STAT, Rg.PAR_EVT] s u) ∧
  (∀ band s u, exec (.parityContribution band) s = .next u → Frame [.par] [] s u) ∧
  (∀ engine slot s u, exec (.parityJobDone engine slot) s = .next u → Frame [.nfree, .ecc, .par, .ciph, .pool, .host, .zm, .med, .grv, .dlk, .out, .mem] [Rg.HQ_EVT, Rg.LDPC_LB_LEVEL, Rg.LDPC_LB_OVER_LO, Rg.LDPC_LB_OVER_HI, Rg.LDPC_EVT, Rg.PAR_JCQ_TAIL, Rg.PAR_CNT, Rg.PAR_EVT] s u) ∧
  (∀ v s u, exec (.parityJcqHeadWrite v) s = .next u → Frame [.nfree, .par, .pool, .mem] [Rg.PAR_JCQ_HEAD, Rg.PAR_JCQ_TAIL, Rg.PAR_EVT] s u) ∧
  (∀ site found s u, exec (.sramPatrol site found) s = .next u → Frame [.nfree, .chans, .media, .ecc, .par, .stip, .ciph, .pool, .host, .zm, .med, .cam, .grv, .jnm, .pwr, .nvm, .sys, .dlk, .out, .mem] [Rg.SYS_FAULT, Rg.SYS_EVT, Rg.HQ_EVT, Rg.ZONE_EVT, Rg.CAM_PART, Rg.CAM_EVT, Rg.CELL_DBL, Rg.CELL_CNT, Rg.CELL_EVT, Rg.CIPH_EVT, Rg.LDPC_LB_LEVEL, Rg.LDPC_LB_OVER_LO, Rg.LDPC_LB_OVER_HI, Rg.LDPC_EVT, Rg.STIP_CNT_PAGES, Rg.STIP_CNT_WEAK, Rg.STIP_EVT, Rg.GRV_SPARE_LO, Rg.GRV_SPARE_HI, Rg.GRV_EVT, Rg.SEQ_CTL, Rg.SEQ_CQ_TAIL, Rg.SEQ_CNT_DUP, Rg.SEQ_EVT] s u) ∧
  (∀ ch s u, exec (.stippleReadPost ch) s = .next u → Frame [.chans, .ecc, .stip, .pool, .host, .med, .grv, .nvm, .dlk, .out, .mem] [Rg.STIP_LAP_MAX, Rg.STIP_CNT_PAGES, Rg.STIP_CNT_WEAK, Rg.STIP_EVT, Rg.SEQ_CQ_TAIL, Rg.SEQ_CNT_DUP, Rg.SEQ_EVT] s u) ∧
  (∀ ch s u, exec (.stippleLate ch) s = .next u → Frame [.stip] [Rg.STIP_EVT] s u) ∧
  (∀ v s u, exec (.stipUrgPost v) s = .next u → Frame [.nfree, .stip] [Rg.STIP_EVT] s u) ∧
  (∀ v s u, exec (.selftestRun v) s = .next u → Frame [.nfree, .sys] [Rg.LDPC_ST_SEL] s u) ∧
  (∀ fails s u, exec (.selftestDone fails) s = .next u → Frame [.nfree, .chans, .media, .ecc, .par, .stip, .ciph, .pool, .host, .zm, .med, .cam, .grv, .jnm, .pwr, .nvm, .sys, .dlk, .out, .mem] [Rg.SYS_FAULT, Rg.SYS_EVT, Rg.HQ_EVT, Rg.ZONE_EVT, Rg.CAM_PART, Rg.CELL_DBL, Rg.CELL_CNT, Rg.CELL_EVT, Rg.CIPH_EVT, Rg.LDPC_ST_SEL, Rg.LDPC_EVT, Rg.STIP_CNT_PAGES, Rg.STIP_CNT_WEAK, Rg.STIP_EVT, Rg.GRV_SPARE_LO, Rg.GRV_SPARE_HI, Rg.GRV_EVT, Rg.SEQ_CTL, Rg.SEQ_CQ_TAIL, Rg.SEQ_CNT_DUP, Rg.SEQ_EVT] s u) ∧
  (∀ index unit step s u, exec (.checkerRetest index unit step) s = .next u → Frame [.nfree, .chans, .media, .ecc, .par, .stip, .ciph, .pool, .host, .zm, .med, .cam, .grv, .jnm, .pwr, .nvm, .sys, .dlk, .out, .mem] [Rg.SYS_FAULT, Rg.SYS_EVT, Rg.HQ_EVT, Rg.ZONE_EVT, Rg.CAM_PART, Rg.CELL_DBL, Rg.CELL_CNT, Rg.CELL_EVT, Rg.CIPH_EVT, Rg.LDPC_EVT, Rg.STIP_CNT_PAGES, Rg.STIP_CNT_WEAK, Rg.STIP_EVT, Rg.GRV_SPARE_LO, Rg.GRV_SPARE_HI, Rg.GRV_EVT, Rg.SEQ_CTL, Rg.SEQ_CQ_TAIL, Rg.SEQ_CNT_DUP, Rg.SEQ_EVT] s u)

/-- What the cipher and DRAM rows leave unchanged: every part of the state but those named, every register but those named (each copy, of every channel), and the queue are as they were when the row gives a next state. -/
def Obligations.CipherAndBufferRowsLeave : Prop :=
  (∀ lane cyc s u, exec (.laneSectorStart lane cyc) s = .next u → Frame [.strk, .ciph, .pool, .host, .zm, .cam, .grv] [Rg.CELL_DBL, Rg.CELL_CNT, Rg.CELL_EVT, Rg.CIPH_EVT] s u) ∧
  (∀ lane cyc s u, exec (.laneSectorDone lane cyc) s = .next u → Frame [.strk, .ecc, .ciph, .pool, .host, .out] [Rg.CIPH_CNT_AUTH, Rg.CIPH_EVT] s u) ∧
  (∀ v s u, exec (.keyGenerate v) s = .next u → Frame [.nfree, .ciph, .pool, .mem] [Rg.CIPH_KEY_CMD, Rg.CIPH_KEY_STAT, Rg.CIPH_EVT] s u) ∧
  (∀ v s u, exec (.keyLoad v) s = .next u → Frame [.nfree, .ciph, .pool, .mem] [Rg.CIPH_KEY_CMD, Rg.CIPH_KEY_STAT, Rg.CIPH_EVT] s u) ∧
  (∀ v s u, exec (.keyCmdPurge v) s = .next u → Frame [.nfree, .ciph] [Rg.CIPH_KEY_CMD, Rg.CIPH_KEY_STAT, Rg.CIPH_EVT] s u) ∧
  (∀ v s u, exec (.ciphEpochWrite v) s = .next u → Frame [.ciph] [Rg.CIPH_EPOCH, Rg.CIPH_EVT] s u) ∧
  (∀ s u, exec (.nonceLoRead) s = .next u → Frame [.bus, .ciph] [] s u) ∧
  (∀ g job s u, exec (.cipherJobEncrypt g job) s = .next u → Frame [.ciph] [Rg.CIPH_JOB_STAT] s u) ∧
  (∀ g job s u, exec (.cipherJobDecrypt g job) s = .next u → Frame [.ciph] [Rg.CIPH_JOB_STAT] s u) ∧
  (∀ lane s u, exec (.cipherJobDone lane) s = .next u → Frame [.ecc, .ciph, .pool, .mem] [Rg.CIPH_JCQ_TAIL, Rg.CIPH_EVT] s u) ∧
  (∀ v s u, exec (.dramTrain v) s = .next u → Frame [.nfree, .dram] [Rg.DMC_CTL, Rg.DMC_EVT] s u) ∧
  (∀ obs s u, exec (.dramTrained obs) s = .next u → Frame [.ecc, .dram] [Rg.SYS_FAULT, Rg.SYS_EVT, Rg.DMC_CTL, Rg.DMC_PORT_CFG, Rg.DMC_EVT] s u) ∧
  (∀ s u, exec (.dramInitDone) s = .next u → Frame [.dram, .pool, .mem] [] s u) ∧
  (∀ v s u, exec (.subchannelRetire v) s = .next u → Frame [.nfree, .dram] [Rg.SYS_FAULT, Rg.SYS_EVT, Rg.DMC_PORT_CFG, Rg.DMC_EVT] s u) ∧
  (∀ port addr write whole s u, exec (.dramRequestAdmit port addr write whole) s = .next u → Frame [.dram] [Rg.DMC_RH_CNT, Rg.DMC_EVT] s u) ∧
  (∀ port sub bank s u, exec (.throttleHoldEnd port sub bank) s = .next u → Frame [.dram] [Rg.DMC_RH_CNT, Rg.DMC_EVT] s u) ∧
  (∀ sub own other s u, exec (.dramReadReturn sub own other) s = .next u → Frame [.nfree, .ecc, .par, .dram, .pool, .host, .zm, .med, .grv, .dlk, .out] [Rg.HQ_EVT, Rg.DMC_RH_CNT, Rg.DMC_ECC_CNT, Rg.DMC_EVT, Rg.LDPC_LB_LEVEL, Rg.LDPC_LB_OVER_LO, Rg.LDPC_LB_OVER_HI] s u) ∧
  (∀ own other s u, exec (.dramPatrolRead own other) s = .next u → Frame [.nfree, .ecc, .par, .dram, .pool, .host, .zm, .med, .grv, .dlk, .out] [Rg.HQ_EVT, Rg.DMC_RH_CNT, Rg.DMC_PATROL_LAP, Rg.DMC_ECC_CNT, Rg.DMC_EVT, Rg.LDPC_LB_LEVEL, Rg.LDPC_LB_OVER_LO, Rg.LDPC_LB_OVER_HI] s u) ∧
  (∀ sub s u, exec (.dqsTracking sub) s = .next u → Frame [.dram] [] s u)

/-- What the graver and etching rows leave unchanged: every part of the state but those named, every register but those named (each copy, of every channel), and the queue are as they were when the row gives a next state. -/
def Obligations.GraverRowsLeave : Prop :=
  (∀ g addr v cyc s u, exec (.registerWrite g addr v cyc) s = .next u → PartFrame [.nfree, .bus, .strk, .chans, .media, .ecc, .par, .stip, .ciph, .dram, .pool, .host, .zm, .med, .cam, .grv, .jnm, .pwr, .nvm, .sys, .dlk, .out, .mem] s u) ∧
  (∀ g op comp cyc s u, exec (.graverLoadStore g op comp cyc) s = .next u → PartFrame [.nfree, .bus, .strk, .chans, .media, .ecc, .par, .stip, .ciph, .dram, .pool, .host, .zm, .med, .cam, .grv, .jnm, .pwr, .nvm, .sys, .dlk, .out, .mem] s u) ∧
  (∀ g rd rs1 rs2 s u, exec (.qpush g rd rs1 rs2) s = .next u → Frame [.grv] [] s u) ∧
  (∀ g rd rs1 s u, exec (.qpop g rd rs1) s = .next u → Frame [.grv] [] s u) ∧
  (∀ g rd rs1 s u, exec (.qwait g rd rs1) s = .next u → Frame [.grv] [] s u) ∧
  (∀ g rd rs1 s u, exec (.qwaitg g rd rs1) s = .next u → Frame [.grv] [] s u) ∧
  (∀ g irq s u, exec (.qwaitResume g irq) s = .next u → Frame [.grv] [] s u) ∧
  (∀ g s u, exec (.watchdogExpiry g) s = .next u → Frame [.nfree, .chans, .media, .ecc, .par, .ciph, .pool, .host, .zm, .med, .cam, .grv, .jnm, .pwr, .nvm, .sys, .dlk, .mem] [Rg.SYS_FAULT, Rg.SYS_EVT, Rg.CELL_DBL, Rg.CELL_CNT, Rg.CELL_EVT, Rg.GRV_SPARE_LO, Rg.GRV_SPARE_HI, Rg.GRV_EVT] s u) ∧
  (∀ g v s u, exec (.graverPet g v) s = .next u → Frame [.grv] [] s u) ∧
  (∀ v s u, exec (.grvCtlRun v) s = .next u → Frame [.nfree, .chans, .media, .ecc, .par, .ciph, .pool, .host, .zm, .med, .cam, .grv, .jnm, .pwr, .nvm, .sys, .dlk, .mem] [Rg.SYS_FAULT, Rg.SYS_EVT, Rg.CELL_DBL, Rg.CELL_CNT, Rg.CELL_EVT, Rg.GRV_SPARE_LO, Rg.GRV_SPARE_HI, Rg.GRV_EVT] s u) ∧
  (∀ v s u, exec (.grvCtlHalt v) s = .next u → Frame [.nfree, .chans, .media, .ecc, .par, .ciph, .pool, .host, .zm, .med, .cam, .grv, .jnm, .pwr, .nvm, .sys, .dlk, .mem] [Rg.SYS_FAULT, Rg.SYS_EVT, Rg.CELL_DBL, Rg.CELL_CNT, Rg.CELL_EVT, Rg.GRV_SPARE_LO, Rg.GRV_SPARE_HI, Rg.GRV_EVT] s u) ∧
  (∀ v s u, exec (.grvCtlFail v) s = .next u → Frame [.nfree, .chans, .media, .ecc, .par, .ciph, .pool, .host, .zm, .med, .cam, .grv, .jnm, .pwr, .nvm, .sys, .dlk, .mem] [Rg.SYS_FAULT, Rg.SYS_EVT, Rg.CELL_DBL, Rg.CELL_CNT, Rg.CELL_EVT, Rg.GRV_SPARE_LO, Rg.GRV_SPARE_HI, Rg.GRV_EVT] s u) ∧
  (∀ v s u, exec (.grvCtlMlock v) s = .next u → Frame [.nfree, .chans, .media, .ecc, .par, .ciph, .pool, .host, .zm, .med, .cam, .grv, .jnm, .pwr, .nvm, .sys, .dlk, .mem] [Rg.SYS_FAULT, Rg.SYS_EVT, Rg.CELL_DBL, Rg.CELL_CNT, Rg.CELL_EVT, Rg.GRV_SPARE_LO, Rg.GRV_SPARE_HI, Rg.GRV_EVT] s u) ∧
  (∀ v s u, exec (.graverMigrate v) s = .next u → Frame [.nfree, .grv] [Rg.GRV_START_LO, Rg.GRV_START_HI, Rg.GRV_WD, Rg.GRV_QOWN, Rg.GRV_IRQ_ROUTE, Rg.GRV_EVT] s u) ∧
  (∀ v s u, exec (.measurementExtend v) s = .next u → Frame [.grv] [Rg.GRV_MEAS_EXT11, Rg.GRV_EVT] s u) ∧
  (∀ e cause s u, exec (.etchingStop e cause) s = .next u → Frame [.grv, .mem] [Rg.GRV_EVT] s u) ∧
  (∀ g s u, exec (.evNext g) s = .next u → Frame [.grv] [] s u) ∧
  (∀ g s u, exec (.evNextReturn g) s = .next u → Frame [.pool, .grv, .mem] [] s u) ∧
  (∀ g s u, exec (.statRead g) s = .next u → Frame [.pool, .grv, .mem] [] s u) ∧
  (∀ g s u, exec (.hatchPropose g) s = .next u → Frame [.chans, .grv, .jnm, .nvm] [Rg.HATCH_CTL, Rg.HATCH_STAT, Rg.HATCH_ARM_SHEET] s u) ∧
  (∀ g s u, exec (.lendPri g) s = .next u → Frame [.grv] [Rg.CARB_WAIT_LIMIT, Rg.CARB_CLS_PRI] s u) ∧
  (∀ g s u, exec (.stipUrgent g) s = .next u → Frame [.stip, .grv] [Rg.STIP_EVT] s u) ∧
  (∀ g s u, exec (.logAppend g) s = .next u → Frame [.grv] [] s u) ∧
  (∀ g s u, exec (.etchExit g) s = .next u → Frame [.grv, .mem] [] s u)

/-- What the Jenam rows leave unchanged: every part of the state but those named, every register but those named (each copy, of every channel), and the queue are as they were when the row gives a next state. -/
def Obligations.ManagementRowsLeave : Prop :=
  (∀ slot s u, exec (.jenamSend slot) s = .next u → Frame [.host, .jnm, .out] [] s u) ∧
  (∀ slot s u, exec (.jenamReceive slot) s = .next u → Frame [.host, .jnm, .out] [] s u) ∧
  (∀ src packet s u, exec (.jenamPacketComplete src packet) s = .next u → Frame [.pool, .host, .grv, .jnm, .pwr, .dlk, .out, .mem] [Rg.JNM_CNT, Rg.JNM_CNT2, Rg.JNM_EVT] s u) ∧
  (∀ v s u, exec (.jenamReplySend v) s = .next u → Frame [.nfree, .pool, .host, .grv, .jnm, .dlk, .out, .mem] [Rg.JNM_CNT, Rg.JNM_CNT2, Rg.JNM_EVT] s u) ∧
  (∀ buf s u, exec (.getInfo buf) s = .next u → Frame [.pool, .jnm, .dlk, .out, .mem] [] s u) ∧
  (∀ buf s u, exec (.getGeometry buf) s = .next u → Frame [.pool, .jnm, .dlk, .out, .mem] [] s u) ∧
  (∀ buf s u, exec (.tenCreate buf) s = .next u → Frame [.pool, .jnm, .nvm, .dlk, .out, .mem] [Rg.TEN_T_CFG, Rg.TEN_T_CELL_FLOOR, Rg.TEN_T_CELL_CAP, Rg.TEN_T_STAGE, Rg.TEN_T_REFOLD] s u) ∧
  (∀ buf s u, exec (.tenSet buf) s = .next u → Frame [.pool, .jnm, .nvm, .dlk, .out, .mem] [Rg.TEN_T_CFG, Rg.TEN_T_CELL_FLOOR, Rg.TEN_T_CELL_CAP, Rg.TEN_T_STAGE, Rg.TEN_T_REFOLD] s u) ∧
  (∀ buf s u, exec (.tenDelete buf) s = .next u → Frame [.pool, .jnm, .nvm, .dlk, .out, .mem] [Rg.TEN_T_CFG, Rg.TEN_T_CELL_FLOOR, Rg.TEN_T_CELL_CAP, Rg.TEN_T_STAGE, Rg.TEN_T_REFOLD] s u) ∧
  (∀ buf s u, exec (.funcAssign buf) s = .next u → Frame [.pool, .host, .jnm, .nvm, .dlk, .out, .mem] [Rg.TEN_F_CFG, Rg.TEN_F_SLOT_FLOOR, Rg.TEN_F_SLOT_CAP] s u) ∧
  (∀ buf s u, exec (.classSet buf) s = .next u → Frame [.pool, .jnm, .nvm, .dlk, .out, .mem] [Rg.TEN_CLS_CFG, Rg.TEN_CLS_PACE] s u) ∧
  (∀ buf s u, exec (.tenUsage buf) s = .next u → Frame [.pool, .jnm, .dlk, .out, .mem] [] s u) ∧
  (∀ buf s u, exec (.nsCreate buf) s = .next u → Frame [.nfree, .ciph, .pool, .zm, .jnm, .nvm, .dlk, .out, .mem] [Rg.ZONE_EVT, Rg.CIPH_SLOT] s u) ∧
  (∀ buf s u, exec (.nsDelete buf) s = .next u → Frame [.chans, .ciph, .pool, .host, .zm, .med, .cam, .grv, .jnm, .nvm, .dlk, .out, .mem] [Rg.ZONE_EVT, Rg.CIPH_EVT] s u) ∧
  (∀ buf s u, exec (.nsAttach buf) s = .next u → Frame [.pool, .zm, .jnm, .nvm, .dlk, .out, .mem] [] s u) ∧
  (∀ buf s u, exec (.nsDetach buf) s = .next u → Frame [.pool, .host, .zm, .jnm, .nvm, .dlk, .out, .mem] [] s u) ∧
  (∀ buf s u, exec (.nsSet buf) s = .next u → Frame [.pool, .zm, .jnm, .nvm, .dlk, .out, .mem] [] s u) ∧
  (∀ buf s u, exec (.reserveSet buf) s = .next u → Frame [.pool, .host, .zm, .jnm, .nvm, .dlk, .out, .mem] [Rg.ZONE_EVT] s u) ∧
  (∀ buf s u, exec (.handleSet buf) s = .next u → Frame [.pool, .zm, .jnm, .nvm, .dlk, .out, .mem] [] s u) ∧
  (∀ buf s u, exec (.hatchWrite buf) s = .next u → Frame [.chans, .pool, .jnm, .dlk, .out, .mem] [] s u) ∧
  (∀ buf s u, exec (.hatchArm buf) s = .next u → Frame [.chans, .pool, .jnm, .nvm, .dlk, .out, .mem] [Rg.HATCH_CTL, Rg.HATCH_STAT, Rg.HATCH_ARM_SHEET] s u) ∧
  (∀ buf s u, exec (.hatchRead buf) s = .next u → Frame [.pool, .jnm, .dlk, .out, .mem] [] s u) ∧
  (∀ buf s u, exec (.arbSet buf) s = .next u → Frame [.pool, .jnm, .dlk, .out, .mem] [Rg.CARB_WAIT_LIMIT, Rg.CARB_CLS_PRI] s u) ∧
  (∀ buf s u, exec (.keyExchange buf) s = .next u → Frame [.nfree, .ciph, .pool, .jnm, .dlk, .out, .mem] [] s u) ∧
  (∀ buf s u, exec (.keyImport buf) s = .next u → Frame [.ciph, .pool, .jnm, .nvm, .dlk, .out, .mem] [] s u) ∧
  (∀ buf s u, exec (.keyPurge buf) s = .next u → Frame [.ciph, .pool, .jnm, .nvm, .dlk, .out, .mem] [Rg.CIPH_EVT] s u) ∧
  (∀ buf s u, exec (.keySet buf) s = .next u → Frame [.pool, .zm, .jnm, .nvm, .dlk, .out, .mem] [Rg.CIPH_SLOT] s u) ∧
  (∀ buf s u, exec (.dieHealth buf) s = .next u → Frame [.pool, .jnm, .dlk, .out, .mem] [] s u) ∧
  (∀ buf s u, exec (.bbRecords buf) s = .next u → Frame [.pool, .jnm, .dlk, .out, .mem] [] s u) ∧
  (∀ buf s u, exec (.rowInfo buf) s = .next u → Frame [.pool, .jnm, .dlk, .out, .mem] [] s u) ∧
  (∀ buf s u, exec (.threshGet buf) s = .next u → Frame [.pool, .jnm, .dlk, .out, .mem] [] s u) ∧
  (∀ buf s u, exec (.threshSet buf) s = .next u → Frame [.pool, .med, .jnm, .nvm, .dlk, .out, .mem] [] s u) ∧
  (∀ buf s u, exec (.retireUnit buf) s = .next u → Frame [.nfree, .chans, .media, .ecc, .stip, .ciph, .pool, .host, .zm, .med, .cam, .grv, .jnm, .nvm, .dlk, .out, .mem] [Rg.SYS_FAULT, Rg.SYS_EVT, Rg.HQ_EVT, Rg.ZONE_EVT, Rg.CELL_DBL, Rg.CELL_CNT, Rg.CELL_EVT, Rg.STIP_CNT_PAGES, Rg.STIP_CNT_WEAK, Rg.STIP_EVT, Rg.SEQ_CQ_TAIL, Rg.SEQ_CNT_DUP, Rg.SEQ_EVT] s u) ∧
  (∀ buf s u, exec (.powerGet buf) s = .next u → Frame [.pool, .jnm, .dlk, .out, .mem] [] s u) ∧
  (∀ buf s u, exec (.powerSet buf) s = .next u → Frame [.pool, .jnm, .pwr, .dlk, .out, .mem] [Rg.PWR_CTL, Rg.PWR_OP_CTL, Rg.PWR_OP_V0, Rg.PWR_OP_V1, Rg.PWR_OP_V2, Rg.PWR_OP_V3] s u) ∧
  (∀ buf s u, exec (.echo buf) s = .next u → Frame [.pool, .jnm, .dlk, .out, .mem] [] s u) ∧
  (∀ buf s u, exec (.regRead buf) s = .next u → PartFrame [.bus, .strk, .ciph, .pool, .jnm, .dlk, .out, .mem] s u) ∧
  (∀ buf s u, exec (.regWrite buf) s = .next u → PartFrame [.nfree, .strk, .chans, .media, .ecc, .par, .stip, .ciph, .dram, .pool, .host, .zm, .med, .cam, .grv, .jnm, .pwr, .nvm, .sys, .dlk, .out, .mem] s u) ∧
  (∀ buf s u, exec (.selftestGet buf) s = .next u → Frame [.pool, .jnm, .dlk, .out, .mem] [] s u) ∧
  (∀ buf s u, exec (.casTopology buf) s = .next u → Frame [.nfree, .pool, .jnm, .dlk, .out, .mem] [] s u) ∧
  (∀ buf s u, exec (.fwInfo buf) s = .next u → Frame [.pool, .jnm, .dlk, .out, .mem] [] s u) ∧
  (∀ buf s u, exec (.ownerCertSet buf) s = .next u → Frame [.pool, .jnm, .nvm, .dlk, .out, .mem] [] s u) ∧
  (∀ buf s u, exec (.ownerCertClear buf) s = .next u → Frame [.pool, .grv, .jnm, .nvm, .dlk, .out, .mem] [] s u) ∧
  (∀ buf s u, exec (.etchStage buf) s = .next u → Frame [.pool, .grv, .jnm, .dlk, .out, .mem] [] s u) ∧
  (∀ buf s u, exec (.etchLoad buf) s = .next u → Frame [.pool, .grv, .jnm, .nvm, .dlk, .out, .mem] [] s u) ∧
  (∀ buf s u, exec (.etchUnload buf) s = .next u → Frame [.pool, .grv, .jnm, .nvm, .dlk, .out, .mem] [] s u) ∧
  (∀ buf s u, exec (.etchStatus buf) s = .next u → Frame [.nfree, .pool, .jnm, .dlk, .out, .mem] [] s u)

/-- What the MCTP, power, start-up and flush rows leave unchanged: every part of the state but those named, every register but those named (each copy, of every channel), and the queue are as they were when the row gives a next state. -/
def Obligations.SidebandAndPowerRowsLeave : Prop :=
  (∀ slot data s u, exec (.nvmeMiSend slot data) s = .next u → Frame [.host, .jnm] [] s u) ∧
  (∀ slot s u, exec (.nvmeMiReceive slot) s = .next u → Frame [.host, .jnm, .out] [] s u) ∧
  (∀ i3c src tag op eid s u, exec (.setEndpointId i3c src tag op eid) s = .next u → Frame [.pwr, .out] [Rg.JNM_MCTP] s u) ∧
  (∀ i3c src tag s u, exec (.getEndpointId i3c src tag) s = .next u → Frame [.pwr, .out] [] s u) ∧
  (∀ i3c src tag kind s u, exec (.getMctpVersionSupport i3c src tag kind) s = .next u → Frame [.pwr, .out] [] s u) ∧
  (∀ i3c src tag s u, exec (.getMessageTypeSupport i3c src tag) s = .next u → Frame [.pwr, .out] [] s u) ∧
  (∀ i3c src tag sel s u, exec (.getVendorDefinedMessageSupport i3c src tag sel) s = .next u → Frame [.pwr, .out] [] s u) ∧
  (∀ i3c src tag dw0 dw1 s u, exec (.readNvmeMiDataStructure i3c src tag dw0 dw1) s = .next u → Frame [.pwr, .out] [] s u) ∧
  (∀ i3c src tag dw0 dw1 s u, exec (.nvmSubsystemHealthStatusPoll i3c src tag dw0 dw1) s = .next u → Frame [.jnm, .pwr, .out] [] s u) ∧
  (∀ i3c src tag dw0 dw1 s u, exec (.controllerHealthStatusPoll i3c src tag dw0 dw1) s = .next u → Frame [.jnm, .pwr, .out] [] s u) ∧
  (∀ i3c src tag dw0 dw1 s u, exec (.configurationGet i3c src tag dw0 dw1) s = .next u → Frame [.pwr, .out] [] s u) ∧
  (∀ i3c src tag dw0 dw1 s u, exec (.configurationSet i3c src tag dw0 dw1) s = .next u → Frame [.jnm, .pwr, .out] [] s u) ∧
  (∀ i3c src tag dw0 dw1 s u, exec (.vpdRead i3c src tag dw0 dw1) s = .next u → Frame [.pwr, .out] [] s u) ∧
  (∀ followers s u, exec (.psEntryAttempt followers) s = .next u → Frame [.chans, .pwr, .out] [Rg.PWR_OP_V0, Rg.PWR_OP_V1, Rg.PWR_OP_V2, Rg.PWR_OP_V3, Rg.PWR_ENTRY_CNT, Rg.PWR_REFUSER, Rg.PWR_EVT, Rg.SEQ_CNT_DUP] s u) ∧
  (∀ port s u, exec (.apstIdleExpiry port) s = .next u → Frame [.pwr] [] s u) ∧
  (∀ bit obs s u, exec (.wakeSource bit obs) s = .next u → PartFrame [.nfree, .bus, .strk, .chans, .media, .ecc, .par, .stip, .ciph, .dram, .pool, .host, .zm, .med, .cam, .grv, .jnm, .pwr, .nvm, .sys, .dlk, .out, .mem] s u) ∧
  (∀ s u, exec (.aonAlarm) s = .next u → PartFrame [.nfree, .bus, .strk, .chans, .media, .ecc, .par, .stip, .ciph, .dram, .pool, .host, .zm, .med, .cam, .grv, .jnm, .pwr, .nvm, .sys, .dlk, .out, .mem] s u) ∧
  (∀ s u, exec (.clk32kStop) s = .next u → Frame [] [Rg.AON_STAT] s u) ∧
  (∀ v s u, exec (.opTargetWrite v) s = .next u → Frame [.nfree, .pwr, .out] [Rg.PWR_OP_CTL, Rg.PWR_OP_V0, Rg.PWR_OP_V1, Rg.PWR_OP_V2, Rg.PWR_OP_V3] s u) ∧
  (∀ s u, exec (.voltageConfirmed) s = .next u → Frame [.pwr, .out] [Rg.PWR_OP_V0, Rg.PWR_OP_V1, Rg.PWR_OP_V2, Rg.PWR_OP_V3] s u) ∧
  (∀ point v s u, exec (.opTrimWrite point v) s = .next u → Frame [.nfree, .out] [Rg.PWR_OP_V0, Rg.PWR_OP_V1, Rg.PWR_OP_V2, Rg.PWR_OP_V3] s u) ∧
  (∀ s u, exec (.pmbusTransactionFail) s = .next u → Frame [.pwr] [Rg.PWR_EVT] s u) ∧
  (∀ s u, exec (.thermalTrip) s = .next u → Frame [.nfree, .chans, .media, .ecc, .par, .ciph, .pool, .host, .zm, .med, .cam, .grv, .jnm, .pwr, .nvm, .sys, .dlk] [Rg.PWR_EVT, Rg.CELL_DBL, Rg.CELL_CNT, Rg.CELL_EVT] s u) ∧
  (∀ s u, exec (.thermNFall) s = .next u → Frame [.pwr, .nvm, .out] [Rg.PWR_OP_V0, Rg.PWR_OP_V1, Rg.PWR_OP_V2, Rg.PWR_OP_V3, Rg.PWR_ENTRY_CNT, Rg.PWR_REFUSER, Rg.PWR_EVT, Rg.AON_WAKE_SRC] s u) ∧
  (∀ s u, exec (.powerOnReset) s = .next u → PartFrame [.nfree, .bus, .strk, .chans, .media, .ecc, .par, .stip, .ciph, .dram, .pool, .host, .zm, .med, .cam, .grv, .jnm, .pwr, .nvm, .sys, .dlk, .out, .mem] s u) ∧
  (∀ obs s u, exec (.coldReset obs) s = .next u → PartFrame [.nfree, .bus, .strk, .chans, .media, .ecc, .par, .stip, .ciph, .dram, .pool, .host, .zm, .med, .cam, .grv, .jnm, .pwr, .nvm, .sys, .dlk, .out, .mem] s u) ∧
  (∀ obs s u, exec (.thrumluxStartup obs) s = .next u → Frame [.nfree, .chans, .media, .ecc, .par, .stip, .ciph, .pool, .host, .zm, .med, .cam, .grv, .jnm, .pwr, .nvm, .sys, .dlk, .out, .mem] [Rg.SYS_FAULT, Rg.SYS_EVT, Rg.HQ_EVT, Rg.ZONE_EVT, Rg.CAM_CTL, Rg.CAM_PART, Rg.CELL_CTL, Rg.CELL_DRAM_N, Rg.CELL_BASE_LO, Rg.CELL_BASE_HI, Rg.CELL_LINK_BASE_LO, Rg.CELL_LINK_BASE_HI, Rg.CELL_META_BASE_LO, Rg.CELL_META_BASE_HI, Rg.CELL_RING_BASE_LO, Rg.CELL_RING_BASE_HI, Rg.CELL_DBL, Rg.CELL_CNT, Rg.CELL_EVT, Rg.CIPH_CTL, Rg.CIPH_EPOCH, Rg.CIPH_JCQ_BASE_LO, Rg.CIPH_JCQ_BASE_HI, Rg.CIPH_EVT, Rg.LDPC_ESC_BASE_LO, Rg.LDPC_ESC_BASE_HI, Rg.LDPC_ST_SEL, Rg.LDPC_EVT, Rg.PAR_CTL, Rg.PAR_ACC_BASE_LO, Rg.PAR_ACC_BASE_HI, Rg.PAR_JCQ_BASE_LO, Rg.PAR_JCQ_BASE_HI, Rg.STIP_MAP_BASE_LO, Rg.STIP_MAP_BASE_HI, Rg.STIP_CNT_PAGES, Rg.STIP_CNT_WEAK, Rg.STIP_EVT, Rg.JNM_BUF_BASE_LO, Rg.JNM_BUF_BASE_HI, Rg.JNM_CACHE_BASE_LO, Rg.JNM_CACHE_BASE_HI, Rg.GRV_SPARE_LO, Rg.GRV_SPARE_HI, Rg.GRV_BOOT, Rg.GRV_EVT, Rg.SEQ_CTL, Rg.SEQ_CQ_BASE_LO, Rg.SEQ_CQ_BASE_HI, Rg.SEQ_CQ_TAIL, Rg.SEQ_CNT_DUP, Rg.SEQ_EVT] s u) ∧
  (∀ v s u, exec (.rstCtlCold v) s = .next u → Frame [.nfree, .chans, .media, .ecc, .par, .ciph, .pool, .host, .zm, .med, .cam, .grv, .jnm, .pwr, .nvm, .sys, .dlk] [Rg.CELL_DBL, Rg.CELL_CNT, Rg.CELL_EVT] s u) ∧
  (∀ s u, exec (.pwrfailFall) s = .next u → Frame [.nfree, .chans, .media, .ecc, .par, .ciph, .pool, .host, .zm, .med, .cam, .grv, .jnm, .pwr, .nvm, .sys, .dlk, .out] [Rg.PWR_OP_V0, Rg.PWR_OP_V1, Rg.PWR_OP_V2, Rg.PWR_OP_V3, Rg.PWR_ENTRY_CNT, Rg.PWR_REFUSER, Rg.PWR_EVT, Rg.AON_WAKE_SRC, Rg.CELL_DBL, Rg.CELL_CNT, Rg.CELL_EVT] s u) ∧
  (∀ us10 power s u, exec (.flushEnd us10 power) s = .next u → Frame [.nvm, .sys] [Rg.SYS_FAULT, Rg.SYS_EVT, Rg.SYS_FLUSH_SEQ, Rg.SYS_FLUSH_TIME] s u) ∧
  (∀ s u, exec (.railFault) s = .next u → Frame [.nfree, .chans, .media, .host, .med, .sys] [] s u) ∧
  (∀ s u, exec (.fatalStop) s = .next u → Frame [.nfree, .chans, .media, .ecc, .par, .ciph, .pool, .host, .zm, .med, .cam, .grv, .jnm, .pwr, .nvm, .sys, .dlk] [Rg.CELL_DBL, Rg.CELL_CNT, Rg.CELL_EVT] s u) ∧
  (∀ s u, exec (.pwrfailNRise) s = .next u → Frame [.sys] [] s u)

/-- What the Dalesk rows leave unchanged: every part of the state but those named, every register but those named (each copy, of every channel), and the queue are as they were when the row gives a next state. -/
def Obligations.DaleskRowsLeave : Prop :=
  (∀ s u, exec (.admissionTimeout) s = .next u → Frame [.pool, .host, .grv, .jnm, .dlk, .out, .mem] [Rg.JNM_CNT, Rg.JNM_CNT2, Rg.JNM_EVT, Rg.DLK_EVT] s u) ∧
  (∀ port flit s u, exec (.daleskFlitReceive port flit) s = .next u → Frame [.dlk, .out] [Rg.SYS_FAULT, Rg.SYS_EVT, Rg.DLK_CNT_RETRY, Rg.DLK_CNT_DUP, Rg.DLK_EVT] s u) ∧
  (∀ port s u, exec (.daleskAckSend port) s = .next u → Frame [.dlk, .out] [] s u) ∧
  (∀ port s u, exec (.daleskReplayTimeout port) s = .next u → Frame [.dlk, .out] [Rg.SYS_FAULT, Rg.SYS_EVT, Rg.DLK_CNT_RETRY, Rg.DLK_EVT] s u) ∧
  (∀ port s u, exec (.daleskPortDown port) s = .next u → Frame [.dlk, .out] [Rg.SYS_FAULT, Rg.SYS_EVT, Rg.DLK_EVT] s u) ∧
  (∀ port s u, exec (.daleskLaneFail port) s = .next u → Frame [.dlk] [Rg.SYS_FAULT, Rg.SYS_EVT, Rg.DLK_EVT] s u) ∧
  (∀ src id body s u, exec (.daleskRequestReceive src id body) s = .next u → Frame [.chans, .ecc, .stip, .pool, .host, .med, .grv, .jnm, .pwr, .nvm, .dlk, .out, .mem] [Rg.STIP_CNT_PAGES, Rg.STIP_CNT_WEAK, Rg.STIP_EVT, Rg.JNM_CNT, Rg.JNM_CNT2, Rg.JNM_EVT, Rg.DLK_CNT_DUP, Rg.DLK_EVT, Rg.SEQ_CQ_TAIL, Rg.SEQ_CNT_DUP, Rg.SEQ_EVT] s u) ∧
  (∀ pos s u, exec (.followerUnreachable pos) s = .next u → Frame [.pool, .host, .grv, .jnm, .dlk, .out, .mem] [Rg.JNM_CNT, Rg.JNM_CNT2, Rg.JNM_EVT, Rg.DLK_EVT] s u) ∧
  (∀ pos s u, exec (.unreachableHoldExpiry pos) s = .next u → Frame [.ciph, .pool, .host, .zm, .cam, .grv, .dlk] [Rg.CELL_DBL, Rg.CELL_CNT, Rg.CELL_EVT] s u) ∧
  (∀ pos s u, exec (.followerReturn pos) s = .next u → Frame [.host, .dlk, .out] [] s u) ∧
  (∀ port width peer s u, exec (.daleskPortUp port width peer) s = .next u → Frame [.chans, .ecc, .pool, .dlk, .out] [Rg.SYS_FAULT, Rg.SYS_EVT, Rg.DLK_EVT, Rg.SEQ_CNT_DUP, Rg.SEQ_EVT] s u) ∧
  (∀ src body s u, exec (.daleskResponseReceive src body) s = .next u → Frame [.ciph, .pool, .host, .zm, .cam, .grv, .jnm, .dlk, .out, .mem] [Rg.JNM_CNT, Rg.JNM_CNT2, Rg.JNM_EVT, Rg.DLK_EVT] s u)
end

