-- ==== Sys2Proof/Decode.lean ====
section
/-! DEFINITION. The command that a word spells by the bits of spec/opcode_table.json: no row of that table gives bits. -/

namespace Sys2Proof

/-- A block takes commands, not words: every row of the table has an empty list of fields, so no word spells a command (log entry 10). -/
def decodeTableWord (_nbits _w : Nat) : Option Instr := none

end Sys2Proof
end

