-- ==== Sys2Proof/Laws/Maps.lean ====
section
/-! SUPPORT. What the operations over sparse maps do: reading after writing, the canonical form kept. -/

namespace Sys2Proof.Machine

variable {α : Type}

@[simp] theorem mapGet_nil (dflt : α) (k : Nat) : mapGet dflt [] k = dflt := rfl
@[simp] theorem mapFind_nil (k : Nat) : mapFind ([] : SMap α) k = none := rfl

theorem mapGet_erase_same (dflt : α) (m : SMap α) (k : Nat) : mapGet dflt (mapErase m k) k = dflt := by
  induction m with
  | nil => rfl
  | cons e m ih => obtain ⟨a, v⟩ := e; by_cases h : a = k <;> simp [mapErase, mapGet, h, ih]

theorem mapGet_erase_other (dflt : α) (m : SMap α) {k j : Nat} (h : j ≠ k) :
    mapGet dflt (mapErase m k) j = mapGet dflt m j := by
  induction m with
  | nil => rfl
  | cons e m ih =>
    obtain ⟨a, v⟩ := e
    by_cases hk : a = k
    · subst hk; simp [mapErase, mapGet, ih, Ne.symm h]
    · simp [mapErase, mapGet, hk, ih]

@[simp] theorem mapGet_insert_same (dflt : α) (m : SMap α) (k : Nat) (v : α) : mapGet dflt (mapInsert m k v) k = v := by
  induction m with
  | nil => simp [mapInsert, mapGet]
  | cons e m ih =>
    obtain ⟨a, w⟩ := e
    by_cases h1 : k < a
    · simp [mapInsert, mapGet, h1]
    · by_cases h2 : a = k
      · simp [mapInsert, mapGet, h2]
      · simp [mapInsert, mapGet, h1, h2, ih]

theorem mapGet_insert_other (dflt : α) (m : SMap α) {k j : Nat} (v : α) (h : j ≠ k) :
    mapGet dflt (mapInsert m k v) j = mapGet dflt m j := by
  have h' : k ≠ j := Ne.symm h
  induction m with
  | nil => simp [mapInsert, mapGet, h']
  | cons e m ih =>
    obtain ⟨a, w⟩ := e
    by_cases h1 : k < a
    · simp [mapInsert, mapGet, h1, h']
    · by_cases h2 : a = k
      · subst h2; simp [mapInsert, mapGet, h']
      · simp [mapInsert, mapGet, h1, h2, ih]

@[simp] theorem mapGet_set_same [DecidableEq α] (dflt : α) (m : SMap α) (k : Nat) (v : α) :
    mapGet dflt (mapSet dflt m k v) k = v := by
  unfold mapSet; split
  · next h => rw [mapGet_erase_same, h]
  · simp

theorem mapGet_set_other [DecidableEq α] (dflt dflt' : α) (m : SMap α) {k j : Nat} (v : α) (h : j ≠ k) :
    mapGet dflt (mapSet dflt' m k v) j = mapGet dflt m j := by
  unfold mapSet; split
  · exact mapGet_erase_other dflt m h
  · exact mapGet_insert_other dflt m v h

@[simp] theorem mapGet_mod_same [DecidableEq α] (dflt : α) (m : SMap α) (k : Nat) (f : α → α) :
    mapGet dflt (mapMod dflt m k f) k = f (mapGet dflt m k) := by simp [mapMod]

theorem mapGet_mod_other [DecidableEq α] (dflt : α) (m : SMap α) {k j : Nat} (f : α → α) (h : j ≠ k) :
    mapGet dflt (mapMod dflt m k f) j = mapGet dflt m j := by simp [mapMod, mapGet_set_other, h]

@[simp] theorem mapFind_insert_same (m : SMap α) (k : Nat) (v : α) : mapFind (mapInsert m k v) k = some v := by
  induction m with
  | nil => simp [mapInsert, mapFind]
  | cons e m ih =>
    obtain ⟨a, w⟩ := e
    by_cases h1 : k < a
    · simp [mapInsert, mapFind, h1]
    · by_cases h2 : a = k
      · simp [mapInsert, mapFind, h2]
      · simp [mapInsert, mapFind, h1, h2, ih]

theorem mapGet_eq_getD (dflt : α) (m : SMap α) (k : Nat) : mapGet dflt m k = (mapFind m k).getD dflt := by
  induction m with
  | nil => rfl
  | cons e m ih => obtain ⟨a, v⟩ := e; unfold mapGet mapFind; split <;> simp_all

theorem mapFind_insert_other (m : SMap α) {k j : Nat} (v : α) (h : j ≠ k) : mapFind (mapInsert m k v) j = mapFind m j := by
  have h' : k ≠ j := Ne.symm h
  induction m with
  | nil => simp [mapInsert, mapFind, h']
  | cons e m ih =>
    obtain ⟨a, w⟩ := e
    by_cases h1 : k < a
    · simp [mapInsert, mapFind, h1, h']
    · by_cases h2 : a = k
      · subst h2; simp [mapInsert, mapFind, h']
      · simp [mapInsert, mapFind, h1, h2, ih]

@[simp] theorem mapFind_erase_same (m : SMap α) (k : Nat) : mapFind (mapErase m k) k = none := by
  induction m with
  | nil => rfl
  | cons e m ih => obtain ⟨a, v⟩ := e; by_cases h : a = k <;> simp [mapErase, mapFind, h, ih]

theorem mapFind_erase_other (m : SMap α) {k j : Nat} (h : j ≠ k) : mapFind (mapErase m k) j = mapFind m j := by
  induction m with
  | nil => rfl
  | cons e m ih =>
    obtain ⟨a, v⟩ := e
    by_cases hk : a = k
    · subst hk; simp [mapErase, mapFind, ih, Ne.symm h]
    · simp [mapErase, mapFind, hk, ih]

/-! ### The canonical form -/

theorem mapFind_set_other [DecidableEq α] {dflt : α} (m : SMap α) {k j : Nat} (v : α) (h : j ≠ k) :
    mapFind (mapSet dflt m k v) j = mapFind m j := by
  unfold mapSet; split
  · exact mapFind_erase_other m h
  · exact mapFind_insert_other m v h

theorem mapSortedFrom_mono {m : SMap α} {a b : Nat} (h : a ≤ b) (hb : mapSortedFrom b m = true) : mapSortedFrom a m = true := by
  cases m with
  | nil => rfl
  | cons e m =>
    obtain ⟨k, v⟩ := e
    simp only [mapSortedFrom, Bool.and_eq_true, decide_eq_true_eq] at hb ⊢
    exact ⟨le_trans h hb.1, hb.2⟩

theorem mapSortedFrom_erase {m : SMap α} {a : Nat} (k : Nat) (h : mapSortedFrom a m = true) :
    mapSortedFrom a (mapErase m k) = true := by
  induction m generalizing a with
  | nil => rfl
  | cons e m ih =>
    obtain ⟨b, v⟩ := e
    simp only [mapSortedFrom, Bool.and_eq_true, decide_eq_true_eq] at h
    by_cases hk : b = k
    · simp only [mapErase, hk, if_true]
      exact mapSortedFrom_mono (by omega) (ih h.2)
    · simp only [mapErase, hk, if_false, mapSortedFrom, Bool.and_eq_true, decide_eq_true_eq]
      exact ⟨h.1, ih h.2⟩

theorem mapSortedFrom_insert {m : SMap α} {a k : Nat} (v : α) (hk : a ≤ k) (h : mapSortedFrom a m = true) :
    mapSortedFrom a (mapInsert m k v) = true := by
  induction m generalizing a with
  | nil => simp [mapInsert, mapSortedFrom, hk]
  | cons e m ih =>
    obtain ⟨b, w⟩ := e
    have h0 := h
    simp only [mapSortedFrom, Bool.and_eq_true, decide_eq_true_eq] at h
    by_cases h1 : k < b
    · simp only [mapInsert, h1, if_true, mapSortedFrom, Bool.and_eq_true, decide_eq_true_eq]
      exact ⟨hk, by omega, h.2⟩
    · by_cases h2 : b = k
      · subst h2
        simp only [mapInsert, h1, if_false, if_true, mapSortedFrom, Bool.and_eq_true, decide_eq_true_eq]
        exact h
      · simp only [mapInsert, h1, h2, if_false, mapSortedFrom, Bool.and_eq_true, decide_eq_true_eq]
        exact ⟨h.1, ih (by omega) h.2⟩

theorem mapAll_erase {m : SMap α} (p : Nat × α → Bool) (k : Nat) (h : m.all p = true) : (mapErase m k).all p = true := by
  induction m with
  | nil => rfl
  | cons e m ih =>
    obtain ⟨b, v⟩ := e
    simp only [List.all_cons, Bool.and_eq_true] at h
    by_cases hk : b = k <;> simp [mapErase, hk, ih h.2]
    simpa [hk] using h.1

theorem mapAll_insert {m : SMap α} (p : Nat × α → Bool) {k : Nat} {v : α} (hv : p (k, v) = true) (h : m.all p = true) :
    (mapInsert m k v).all p = true := by
  induction m with
  | nil => simp [mapInsert, hv]
  | cons e m ih =>
    obtain ⟨b, w⟩ := e
    simp only [List.all_cons, Bool.and_eq_true] at h
    unfold mapInsert
    split
    · simp [hv, h.1, h.2]
    · split
      · simp [hv, h.2]
      · simp [h.1, ih h.2]

/-- Writing keeps the canonical form. -/
theorem mapWf_set [DecidableEq α] {dflt : α} {m : SMap α} (k : Nat) (v : α) (h : mapWf dflt m = true) :
    mapWf dflt (mapSet dflt m k v) = true := by
  simp only [mapWf, Bool.and_eq_true] at h ⊢
  unfold mapSet; split
  · exact ⟨mapSortedFrom_erase k h.1, mapAll_erase _ k h.2⟩
  · next hv => exact ⟨mapSortedFrom_insert v (Nat.zero_le _) h.1, mapAll_insert _ (by simpa using hv) h.2⟩

/-- Erasing keeps the canonical form. -/
theorem mapWf_erase [DecidableEq α] {dflt : α} {m : SMap α} (k : Nat) (h : mapWf dflt m = true) :
    mapWf dflt (mapErase m k) = true := by
  simp only [mapWf, Bool.and_eq_true] at h ⊢
  exact ⟨mapSortedFrom_erase k h.1, mapAll_erase _ k h.2⟩

theorem mapSortedFrom_filter {m : SMap α} {a : Nat} (p : Nat × α → Bool) (h : mapSortedFrom a m = true) :
    mapSortedFrom a (m.filter p) = true := by
  induction m generalizing a with
  | nil => rfl
  | cons e m ih =>
    obtain ⟨b, v⟩ := e
    simp only [mapSortedFrom, Bool.and_eq_true, decide_eq_true_eq] at h
    by_cases hp : p (b, v)
    · simp only [List.filter_cons, hp, if_true, mapSortedFrom, Bool.and_eq_true, decide_eq_true_eq]
      exact ⟨h.1, ih h.2⟩
    · simp only [List.filter_cons, hp, if_false]
      exact mapSortedFrom_mono (by omega) (ih h.2)

/-- Dropping entries keeps the canonical form. -/
theorem mapWf_filter [DecidableEq α] {dflt : α} {m : SMap α} (p : Nat × α → Bool) (h : mapWf dflt m = true) :
    mapWf dflt (m.filter p) = true := by
  simp only [mapWf, Bool.and_eq_true] at h ⊢
  refine ⟨mapSortedFrom_filter p h.1, ?_⟩
  rw [List.all_filter]
  rw [List.all_eq_true] at h ⊢
  intro e he
  simp [h.2 e he]

end Sys2Proof.Machine
end

