-- ==== Sys2Proof/Laws/State.lean ====
section
/-! SUPPORT. What each update of the device leaves as it was and what it writes: one lemma for each field of the state, so that
no proof unfolds a record update. -/

namespace Sys2Proof.Machine

variable (s : State) (d : Dev)

@[simp] theorem State.modDev_dev (f : Dev → Dev) : (s.modDev f).dev = f s.dev := rfl
@[simp] theorem State.modDev_mem (f : Dev → Dev) : (s.modDev f).mem = s.mem := rfl
@[simp] theorem State.modDev_pending (f : Dev → Dev) : (s.modDev f).pending = s.pending := rfl

@[simp] theorem Dev.modHost_nfree (f : HostIf → HostIf) : (d.modHost f).nfree = d.nfree := rfl
@[simp] theorem Dev.modHost_regs (f : HostIf → HostIf) : (d.modHost f).regs = d.regs := rfl
@[simp] theorem Dev.modHost_bus (f : HostIf → HostIf) : (d.modHost f).bus = d.bus := rfl
@[simp] theorem Dev.modHost_strk (f : HostIf → HostIf) : (d.modHost f).strk = d.strk := rfl
@[simp] theorem Dev.modHost_chans (f : HostIf → HostIf) : (d.modHost f).chans = d.chans := rfl
@[simp] theorem Dev.modHost_media (f : HostIf → HostIf) : (d.modHost f).media = d.media := rfl
@[simp] theorem Dev.modHost_ecc (f : HostIf → HostIf) : (d.modHost f).ecc = d.ecc := rfl
@[simp] theorem Dev.modHost_par (f : HostIf → HostIf) : (d.modHost f).par = d.par := rfl
@[simp] theorem Dev.modHost_stip (f : HostIf → HostIf) : (d.modHost f).stip = d.stip := rfl
@[simp] theorem Dev.modHost_ciph (f : HostIf → HostIf) : (d.modHost f).ciph = d.ciph := rfl
@[simp] theorem Dev.modHost_dram (f : HostIf → HostIf) : (d.modHost f).dram = d.dram := rfl
@[simp] theorem Dev.modHost_pool (f : HostIf → HostIf) : (d.modHost f).pool = d.pool := rfl
@[simp] theorem Dev.modHost_zm (f : HostIf → HostIf) : (d.modHost f).zm = d.zm := rfl
@[simp] theorem Dev.modHost_med (f : HostIf → HostIf) : (d.modHost f).med = d.med := rfl
@[simp] theorem Dev.modHost_cam (f : HostIf → HostIf) : (d.modHost f).cam = d.cam := rfl
@[simp] theorem Dev.modHost_grv (f : HostIf → HostIf) : (d.modHost f).grv = d.grv := rfl
@[simp] theorem Dev.modHost_jnm (f : HostIf → HostIf) : (d.modHost f).jnm = d.jnm := rfl
@[simp] theorem Dev.modHost_pwr (f : HostIf → HostIf) : (d.modHost f).pwr = d.pwr := rfl
@[simp] theorem Dev.modHost_nvm (f : HostIf → HostIf) : (d.modHost f).nvm = d.nvm := rfl
@[simp] theorem Dev.modHost_sys (f : HostIf → HostIf) : (d.modHost f).sys = d.sys := rfl
@[simp] theorem Dev.modHost_dlk (f : HostIf → HostIf) : (d.modHost f).dlk = d.dlk := rfl
@[simp] theorem Dev.modHost_out (f : HostIf → HostIf) : (d.modHost f).out = d.out := rfl
@[simp] theorem Dev.modHost_host (f : HostIf → HostIf) : (d.modHost f).host = f d.host := rfl

@[simp] theorem Dev.modFunc_nfree (n : Nat) (f : Func → Func) : (d.modFunc n f).nfree = d.nfree := rfl
@[simp] theorem Dev.modFunc_regs (n : Nat) (f : Func → Func) : (d.modFunc n f).regs = d.regs := rfl
@[simp] theorem Dev.modFunc_bus (n : Nat) (f : Func → Func) : (d.modFunc n f).bus = d.bus := rfl
@[simp] theorem Dev.modFunc_strk (n : Nat) (f : Func → Func) : (d.modFunc n f).strk = d.strk := rfl
@[simp] theorem Dev.modFunc_chans (n : Nat) (f : Func → Func) : (d.modFunc n f).chans = d.chans := rfl
@[simp] theorem Dev.modFunc_media (n : Nat) (f : Func → Func) : (d.modFunc n f).media = d.media := rfl
@[simp] theorem Dev.modFunc_ecc (n : Nat) (f : Func → Func) : (d.modFunc n f).ecc = d.ecc := rfl
@[simp] theorem Dev.modFunc_par (n : Nat) (f : Func → Func) : (d.modFunc n f).par = d.par := rfl
@[simp] theorem Dev.modFunc_stip (n : Nat) (f : Func → Func) : (d.modFunc n f).stip = d.stip := rfl
@[simp] theorem Dev.modFunc_ciph (n : Nat) (f : Func → Func) : (d.modFunc n f).ciph = d.ciph := rfl
@[simp] theorem Dev.modFunc_dram (n : Nat) (f : Func → Func) : (d.modFunc n f).dram = d.dram := rfl
@[simp] theorem Dev.modFunc_pool (n : Nat) (f : Func → Func) : (d.modFunc n f).pool = d.pool := rfl
@[simp] theorem Dev.modFunc_zm (n : Nat) (f : Func → Func) : (d.modFunc n f).zm = d.zm := rfl
@[simp] theorem Dev.modFunc_med (n : Nat) (f : Func → Func) : (d.modFunc n f).med = d.med := rfl
@[simp] theorem Dev.modFunc_cam (n : Nat) (f : Func → Func) : (d.modFunc n f).cam = d.cam := rfl
@[simp] theorem Dev.modFunc_grv (n : Nat) (f : Func → Func) : (d.modFunc n f).grv = d.grv := rfl
@[simp] theorem Dev.modFunc_jnm (n : Nat) (f : Func → Func) : (d.modFunc n f).jnm = d.jnm := rfl
@[simp] theorem Dev.modFunc_pwr (n : Nat) (f : Func → Func) : (d.modFunc n f).pwr = d.pwr := rfl
@[simp] theorem Dev.modFunc_nvm (n : Nat) (f : Func → Func) : (d.modFunc n f).nvm = d.nvm := rfl
@[simp] theorem Dev.modFunc_sys (n : Nat) (f : Func → Func) : (d.modFunc n f).sys = d.sys := rfl
@[simp] theorem Dev.modFunc_dlk (n : Nat) (f : Func → Func) : (d.modFunc n f).dlk = d.dlk := rfl
@[simp] theorem Dev.modFunc_out (n : Nat) (f : Func → Func) : (d.modFunc n f).out = d.out := rfl

@[simp] theorem Dev.setSlot_nfree (k : Nat) (x : Slot) : (d.setSlot k x).nfree = d.nfree := rfl
@[simp] theorem Dev.setSlot_regs (k : Nat) (x : Slot) : (d.setSlot k x).regs = d.regs := rfl
@[simp] theorem Dev.setSlot_bus (k : Nat) (x : Slot) : (d.setSlot k x).bus = d.bus := rfl
@[simp] theorem Dev.setSlot_strk (k : Nat) (x : Slot) : (d.setSlot k x).strk = d.strk := rfl
@[simp] theorem Dev.setSlot_chans (k : Nat) (x : Slot) : (d.setSlot k x).chans = d.chans := rfl
@[simp] theorem Dev.setSlot_media (k : Nat) (x : Slot) : (d.setSlot k x).media = d.media := rfl
@[simp] theorem Dev.setSlot_ecc (k : Nat) (x : Slot) : (d.setSlot k x).ecc = d.ecc := rfl
@[simp] theorem Dev.setSlot_par (k : Nat) (x : Slot) : (d.setSlot k x).par = d.par := rfl
@[simp] theorem Dev.setSlot_stip (k : Nat) (x : Slot) : (d.setSlot k x).stip = d.stip := rfl
@[simp] theorem Dev.setSlot_ciph (k : Nat) (x : Slot) : (d.setSlot k x).ciph = d.ciph := rfl
@[simp] theorem Dev.setSlot_dram (k : Nat) (x : Slot) : (d.setSlot k x).dram = d.dram := rfl
@[simp] theorem Dev.setSlot_pool (k : Nat) (x : Slot) : (d.setSlot k x).pool = d.pool := rfl
@[simp] theorem Dev.setSlot_zm (k : Nat) (x : Slot) : (d.setSlot k x).zm = d.zm := rfl
@[simp] theorem Dev.setSlot_med (k : Nat) (x : Slot) : (d.setSlot k x).med = d.med := rfl
@[simp] theorem Dev.setSlot_cam (k : Nat) (x : Slot) : (d.setSlot k x).cam = d.cam := rfl
@[simp] theorem Dev.setSlot_grv (k : Nat) (x : Slot) : (d.setSlot k x).grv = d.grv := rfl
@[simp] theorem Dev.setSlot_jnm (k : Nat) (x : Slot) : (d.setSlot k x).jnm = d.jnm := rfl
@[simp] theorem Dev.setSlot_pwr (k : Nat) (x : Slot) : (d.setSlot k x).pwr = d.pwr := rfl
@[simp] theorem Dev.setSlot_nvm (k : Nat) (x : Slot) : (d.setSlot k x).nvm = d.nvm := rfl
@[simp] theorem Dev.setSlot_sys (k : Nat) (x : Slot) : (d.setSlot k x).sys = d.sys := rfl
@[simp] theorem Dev.setSlot_dlk (k : Nat) (x : Slot) : (d.setSlot k x).dlk = d.dlk := rfl
@[simp] theorem Dev.setSlot_out (k : Nat) (x : Slot) : (d.setSlot k x).out = d.out := rfl

@[simp] theorem Dev.modSlot_nfree (k : Nat) (f : Slot → Slot) : (d.modSlot k f).nfree = d.nfree := by unfold Dev.modSlot; split <;> rfl
@[simp] theorem Dev.modSlot_regs (k : Nat) (f : Slot → Slot) : (d.modSlot k f).regs = d.regs := by unfold Dev.modSlot; split <;> rfl
@[simp] theorem Dev.modSlot_bus (k : Nat) (f : Slot → Slot) : (d.modSlot k f).bus = d.bus := by unfold Dev.modSlot; split <;> rfl
@[simp] theorem Dev.modSlot_strk (k : Nat) (f : Slot → Slot) : (d.modSlot k f).strk = d.strk := by unfold Dev.modSlot; split <;> rfl
@[simp] theorem Dev.modSlot_chans (k : Nat) (f : Slot → Slot) : (d.modSlot k f).chans = d.chans := by unfold Dev.modSlot; split <;> rfl
@[simp] theorem Dev.modSlot_media (k : Nat) (f : Slot → Slot) : (d.modSlot k f).media = d.media := by unfold Dev.modSlot; split <;> rfl
@[simp] theorem Dev.modSlot_ecc (k : Nat) (f : Slot → Slot) : (d.modSlot k f).ecc = d.ecc := by unfold Dev.modSlot; split <;> rfl
@[simp] theorem Dev.modSlot_par (k : Nat) (f : Slot → Slot) : (d.modSlot k f).par = d.par := by unfold Dev.modSlot; split <;> rfl
@[simp] theorem Dev.modSlot_stip (k : Nat) (f : Slot → Slot) : (d.modSlot k f).stip = d.stip := by unfold Dev.modSlot; split <;> rfl
@[simp] theorem Dev.modSlot_ciph (k : Nat) (f : Slot → Slot) : (d.modSlot k f).ciph = d.ciph := by unfold Dev.modSlot; split <;> rfl
@[simp] theorem Dev.modSlot_dram (k : Nat) (f : Slot → Slot) : (d.modSlot k f).dram = d.dram := by unfold Dev.modSlot; split <;> rfl
@[simp] theorem Dev.modSlot_pool (k : Nat) (f : Slot → Slot) : (d.modSlot k f).pool = d.pool := by unfold Dev.modSlot; split <;> rfl
@[simp] theorem Dev.modSlot_zm (k : Nat) (f : Slot → Slot) : (d.modSlot k f).zm = d.zm := by unfold Dev.modSlot; split <;> rfl
@[simp] theorem Dev.modSlot_med (k : Nat) (f : Slot → Slot) : (d.modSlot k f).med = d.med := by unfold Dev.modSlot; split <;> rfl
@[simp] theorem Dev.modSlot_cam (k : Nat) (f : Slot → Slot) : (d.modSlot k f).cam = d.cam := by unfold Dev.modSlot; split <;> rfl
@[simp] theorem Dev.modSlot_grv (k : Nat) (f : Slot → Slot) : (d.modSlot k f).grv = d.grv := by unfold Dev.modSlot; split <;> rfl
@[simp] theorem Dev.modSlot_jnm (k : Nat) (f : Slot → Slot) : (d.modSlot k f).jnm = d.jnm := by unfold Dev.modSlot; split <;> rfl
@[simp] theorem Dev.modSlot_pwr (k : Nat) (f : Slot → Slot) : (d.modSlot k f).pwr = d.pwr := by unfold Dev.modSlot; split <;> rfl
@[simp] theorem Dev.modSlot_nvm (k : Nat) (f : Slot → Slot) : (d.modSlot k f).nvm = d.nvm := by unfold Dev.modSlot; split <;> rfl
@[simp] theorem Dev.modSlot_sys (k : Nat) (f : Slot → Slot) : (d.modSlot k f).sys = d.sys := by unfold Dev.modSlot; split <;> rfl
@[simp] theorem Dev.modSlot_dlk (k : Nat) (f : Slot → Slot) : (d.modSlot k f).dlk = d.dlk := by unfold Dev.modSlot; split <;> rfl
@[simp] theorem Dev.modSlot_out (k : Nat) (f : Slot → Slot) : (d.modSlot k f).out = d.out := by unfold Dev.modSlot; split <;> rfl

@[simp] theorem Dev.dropSlot_nfree (k : Nat) : (d.dropSlot k).nfree = d.nfree := rfl
@[simp] theorem Dev.dropSlot_regs (k : Nat) : (d.dropSlot k).regs = d.regs := rfl
@[simp] theorem Dev.dropSlot_bus (k : Nat) : (d.dropSlot k).bus = d.bus := rfl
@[simp] theorem Dev.dropSlot_strk (k : Nat) : (d.dropSlot k).strk = d.strk := rfl
@[simp] theorem Dev.dropSlot_chans (k : Nat) : (d.dropSlot k).chans = d.chans := rfl
@[simp] theorem Dev.dropSlot_media (k : Nat) : (d.dropSlot k).media = d.media := rfl
@[simp] theorem Dev.dropSlot_ecc (k : Nat) : (d.dropSlot k).ecc = d.ecc := rfl
@[simp] theorem Dev.dropSlot_par (k : Nat) : (d.dropSlot k).par = d.par := rfl
@[simp] theorem Dev.dropSlot_stip (k : Nat) : (d.dropSlot k).stip = d.stip := rfl
@[simp] theorem Dev.dropSlot_ciph (k : Nat) : (d.dropSlot k).ciph = d.ciph := rfl
@[simp] theorem Dev.dropSlot_dram (k : Nat) : (d.dropSlot k).dram = d.dram := rfl
@[simp] theorem Dev.dropSlot_pool (k : Nat) : (d.dropSlot k).pool = d.pool := rfl
@[simp] theorem Dev.dropSlot_zm (k : Nat) : (d.dropSlot k).zm = d.zm := rfl
@[simp] theorem Dev.dropSlot_med (k : Nat) : (d.dropSlot k).med = d.med := rfl
@[simp] theorem Dev.dropSlot_cam (k : Nat) : (d.dropSlot k).cam = d.cam := rfl
@[simp] theorem Dev.dropSlot_grv (k : Nat) : (d.dropSlot k).grv = d.grv := rfl
@[simp] theorem Dev.dropSlot_jnm (k : Nat) : (d.dropSlot k).jnm = d.jnm := rfl
@[simp] theorem Dev.dropSlot_pwr (k : Nat) : (d.dropSlot k).pwr = d.pwr := rfl
@[simp] theorem Dev.dropSlot_nvm (k : Nat) : (d.dropSlot k).nvm = d.nvm := rfl
@[simp] theorem Dev.dropSlot_sys (k : Nat) : (d.dropSlot k).sys = d.sys := rfl
@[simp] theorem Dev.dropSlot_dlk (k : Nat) : (d.dropSlot k).dlk = d.dlk := rfl
@[simp] theorem Dev.dropSlot_out (k : Nat) : (d.dropSlot k).out = d.out := rfl

@[simp] theorem Dev.modPort_nfree (p : Nat) (f : Port → Port) : (d.modPort p f).nfree = d.nfree := rfl
@[simp] theorem Dev.modPort_regs (p : Nat) (f : Port → Port) : (d.modPort p f).regs = d.regs := rfl
@[simp] theorem Dev.modPort_bus (p : Nat) (f : Port → Port) : (d.modPort p f).bus = d.bus := rfl
@[simp] theorem Dev.modPort_strk (p : Nat) (f : Port → Port) : (d.modPort p f).strk = d.strk := rfl
@[simp] theorem Dev.modPort_chans (p : Nat) (f : Port → Port) : (d.modPort p f).chans = d.chans := rfl
@[simp] theorem Dev.modPort_media (p : Nat) (f : Port → Port) : (d.modPort p f).media = d.media := rfl
@[simp] theorem Dev.modPort_ecc (p : Nat) (f : Port → Port) : (d.modPort p f).ecc = d.ecc := rfl
@[simp] theorem Dev.modPort_par (p : Nat) (f : Port → Port) : (d.modPort p f).par = d.par := rfl
@[simp] theorem Dev.modPort_stip (p : Nat) (f : Port → Port) : (d.modPort p f).stip = d.stip := rfl
@[simp] theorem Dev.modPort_ciph (p : Nat) (f : Port → Port) : (d.modPort p f).ciph = d.ciph := rfl
@[simp] theorem Dev.modPort_dram (p : Nat) (f : Port → Port) : (d.modPort p f).dram = d.dram := rfl
@[simp] theorem Dev.modPort_pool (p : Nat) (f : Port → Port) : (d.modPort p f).pool = d.pool := rfl
@[simp] theorem Dev.modPort_zm (p : Nat) (f : Port → Port) : (d.modPort p f).zm = d.zm := rfl
@[simp] theorem Dev.modPort_med (p : Nat) (f : Port → Port) : (d.modPort p f).med = d.med := rfl
@[simp] theorem Dev.modPort_cam (p : Nat) (f : Port → Port) : (d.modPort p f).cam = d.cam := rfl
@[simp] theorem Dev.modPort_grv (p : Nat) (f : Port → Port) : (d.modPort p f).grv = d.grv := rfl
@[simp] theorem Dev.modPort_jnm (p : Nat) (f : Port → Port) : (d.modPort p f).jnm = d.jnm := rfl
@[simp] theorem Dev.modPort_pwr (p : Nat) (f : Port → Port) : (d.modPort p f).pwr = d.pwr := rfl
@[simp] theorem Dev.modPort_nvm (p : Nat) (f : Port → Port) : (d.modPort p f).nvm = d.nvm := rfl
@[simp] theorem Dev.modPort_sys (p : Nat) (f : Port → Port) : (d.modPort p f).sys = d.sys := rfl
@[simp] theorem Dev.modPort_dlk (p : Nat) (f : Port → Port) : (d.modPort p f).dlk = d.dlk := rfl
@[simp] theorem Dev.modPort_out (p : Nat) (f : Port → Port) : (d.modPort p f).out = d.out := rfl

@[simp] theorem Dev.modSpdm_nfree (p : Nat) (f : Spdm → Spdm) : (d.modSpdm p f).nfree = d.nfree := rfl
@[simp] theorem Dev.modSpdm_regs (p : Nat) (f : Spdm → Spdm) : (d.modSpdm p f).regs = d.regs := rfl
@[simp] theorem Dev.modSpdm_bus (p : Nat) (f : Spdm → Spdm) : (d.modSpdm p f).bus = d.bus := rfl
@[simp] theorem Dev.modSpdm_strk (p : Nat) (f : Spdm → Spdm) : (d.modSpdm p f).strk = d.strk := rfl
@[simp] theorem Dev.modSpdm_chans (p : Nat) (f : Spdm → Spdm) : (d.modSpdm p f).chans = d.chans := rfl
@[simp] theorem Dev.modSpdm_media (p : Nat) (f : Spdm → Spdm) : (d.modSpdm p f).media = d.media := rfl
@[simp] theorem Dev.modSpdm_ecc (p : Nat) (f : Spdm → Spdm) : (d.modSpdm p f).ecc = d.ecc := rfl
@[simp] theorem Dev.modSpdm_par (p : Nat) (f : Spdm → Spdm) : (d.modSpdm p f).par = d.par := rfl
@[simp] theorem Dev.modSpdm_stip (p : Nat) (f : Spdm → Spdm) : (d.modSpdm p f).stip = d.stip := rfl
@[simp] theorem Dev.modSpdm_ciph (p : Nat) (f : Spdm → Spdm) : (d.modSpdm p f).ciph = d.ciph := rfl
@[simp] theorem Dev.modSpdm_dram (p : Nat) (f : Spdm → Spdm) : (d.modSpdm p f).dram = d.dram := rfl
@[simp] theorem Dev.modSpdm_pool (p : Nat) (f : Spdm → Spdm) : (d.modSpdm p f).pool = d.pool := rfl
@[simp] theorem Dev.modSpdm_zm (p : Nat) (f : Spdm → Spdm) : (d.modSpdm p f).zm = d.zm := rfl
@[simp] theorem Dev.modSpdm_med (p : Nat) (f : Spdm → Spdm) : (d.modSpdm p f).med = d.med := rfl
@[simp] theorem Dev.modSpdm_cam (p : Nat) (f : Spdm → Spdm) : (d.modSpdm p f).cam = d.cam := rfl
@[simp] theorem Dev.modSpdm_grv (p : Nat) (f : Spdm → Spdm) : (d.modSpdm p f).grv = d.grv := rfl
@[simp] theorem Dev.modSpdm_jnm (p : Nat) (f : Spdm → Spdm) : (d.modSpdm p f).jnm = d.jnm := rfl
@[simp] theorem Dev.modSpdm_pwr (p : Nat) (f : Spdm → Spdm) : (d.modSpdm p f).pwr = d.pwr := rfl
@[simp] theorem Dev.modSpdm_nvm (p : Nat) (f : Spdm → Spdm) : (d.modSpdm p f).nvm = d.nvm := rfl
@[simp] theorem Dev.modSpdm_sys (p : Nat) (f : Spdm → Spdm) : (d.modSpdm p f).sys = d.sys := rfl
@[simp] theorem Dev.modSpdm_dlk (p : Nat) (f : Spdm → Spdm) : (d.modSpdm p f).dlk = d.dlk := rfl
@[simp] theorem Dev.modSpdm_out (p : Nat) (f : Spdm → Spdm) : (d.modSpdm p f).out = d.out := rfl

@[simp] theorem Dev.modCam_nfree (f : Cam → Cam) : (d.modCam f).nfree = d.nfree := rfl
@[simp] theorem Dev.modCam_regs (f : Cam → Cam) : (d.modCam f).regs = d.regs := rfl
@[simp] theorem Dev.modCam_bus (f : Cam → Cam) : (d.modCam f).bus = d.bus := rfl
@[simp] theorem Dev.modCam_strk (f : Cam → Cam) : (d.modCam f).strk = d.strk := rfl
@[simp] theorem Dev.modCam_chans (f : Cam → Cam) : (d.modCam f).chans = d.chans := rfl
@[simp] theorem Dev.modCam_media (f : Cam → Cam) : (d.modCam f).media = d.media := rfl
@[simp] theorem Dev.modCam_ecc (f : Cam → Cam) : (d.modCam f).ecc = d.ecc := rfl
@[simp] theorem Dev.modCam_par (f : Cam → Cam) : (d.modCam f).par = d.par := rfl
@[simp] theorem Dev.modCam_stip (f : Cam → Cam) : (d.modCam f).stip = d.stip := rfl
@[simp] theorem Dev.modCam_ciph (f : Cam → Cam) : (d.modCam f).ciph = d.ciph := rfl
@[simp] theorem Dev.modCam_dram (f : Cam → Cam) : (d.modCam f).dram = d.dram := rfl
@[simp] theorem Dev.modCam_pool (f : Cam → Cam) : (d.modCam f).pool = d.pool := rfl
@[simp] theorem Dev.modCam_host (f : Cam → Cam) : (d.modCam f).host = d.host := rfl
@[simp] theorem Dev.modCam_zm (f : Cam → Cam) : (d.modCam f).zm = d.zm := rfl
@[simp] theorem Dev.modCam_med (f : Cam → Cam) : (d.modCam f).med = d.med := rfl
@[simp] theorem Dev.modCam_grv (f : Cam → Cam) : (d.modCam f).grv = d.grv := rfl
@[simp] theorem Dev.modCam_jnm (f : Cam → Cam) : (d.modCam f).jnm = d.jnm := rfl
@[simp] theorem Dev.modCam_pwr (f : Cam → Cam) : (d.modCam f).pwr = d.pwr := rfl
@[simp] theorem Dev.modCam_nvm (f : Cam → Cam) : (d.modCam f).nvm = d.nvm := rfl
@[simp] theorem Dev.modCam_sys (f : Cam → Cam) : (d.modCam f).sys = d.sys := rfl
@[simp] theorem Dev.modCam_dlk (f : Cam → Cam) : (d.modCam f).dlk = d.dlk := rfl
@[simp] theorem Dev.modCam_out (f : Cam → Cam) : (d.modCam f).out = d.out := rfl
@[simp] theorem Dev.modCam_cam (f : Cam → Cam) : (d.modCam f).cam = f d.cam := rfl

@[simp] theorem Dev.modPool_nfree (f : Pool → Pool) : (d.modPool f).nfree = d.nfree := rfl
@[simp] theorem Dev.modPool_regs (f : Pool → Pool) : (d.modPool f).regs = d.regs := rfl
@[simp] theorem Dev.modPool_bus (f : Pool → Pool) : (d.modPool f).bus = d.bus := rfl
@[simp] theorem Dev.modPool_strk (f : Pool → Pool) : (d.modPool f).strk = d.strk := rfl
@[simp] theorem Dev.modPool_chans (f : Pool → Pool) : (d.modPool f).chans = d.chans := rfl
@[simp] theorem Dev.modPool_media (f : Pool → Pool) : (d.modPool f).media = d.media := rfl
@[simp] theorem Dev.modPool_ecc (f : Pool → Pool) : (d.modPool f).ecc = d.ecc := rfl
@[simp] theorem Dev.modPool_par (f : Pool → Pool) : (d.modPool f).par = d.par := rfl
@[simp] theorem Dev.modPool_stip (f : Pool → Pool) : (d.modPool f).stip = d.stip := rfl
@[simp] theorem Dev.modPool_ciph (f : Pool → Pool) : (d.modPool f).ciph = d.ciph := rfl
@[simp] theorem Dev.modPool_dram (f : Pool → Pool) : (d.modPool f).dram = d.dram := rfl
@[simp] theorem Dev.modPool_host (f : Pool → Pool) : (d.modPool f).host = d.host := rfl
@[simp] theorem Dev.modPool_zm (f : Pool → Pool) : (d.modPool f).zm = d.zm := rfl
@[simp] theorem Dev.modPool_med (f : Pool → Pool) : (d.modPool f).med = d.med := rfl
@[simp] theorem Dev.modPool_cam (f : Pool → Pool) : (d.modPool f).cam = d.cam := rfl
@[simp] theorem Dev.modPool_grv (f : Pool → Pool) : (d.modPool f).grv = d.grv := rfl
@[simp] theorem Dev.modPool_jnm (f : Pool → Pool) : (d.modPool f).jnm = d.jnm := rfl
@[simp] theorem Dev.modPool_pwr (f : Pool → Pool) : (d.modPool f).pwr = d.pwr := rfl
@[simp] theorem Dev.modPool_nvm (f : Pool → Pool) : (d.modPool f).nvm = d.nvm := rfl
@[simp] theorem Dev.modPool_sys (f : Pool → Pool) : (d.modPool f).sys = d.sys := rfl
@[simp] theorem Dev.modPool_dlk (f : Pool → Pool) : (d.modPool f).dlk = d.dlk := rfl
@[simp] theorem Dev.modPool_out (f : Pool → Pool) : (d.modPool f).out = d.out := rfl
@[simp] theorem Dev.modPool_pool (f : Pool → Pool) : (d.modPool f).pool = f d.pool := rfl

@[simp] theorem Dev.modCiph_nfree (f : Ciph → Ciph) : (d.modCiph f).nfree = d.nfree := rfl
@[simp] theorem Dev.modCiph_regs (f : Ciph → Ciph) : (d.modCiph f).regs = d.regs := rfl
@[simp] theorem Dev.modCiph_bus (f : Ciph → Ciph) : (d.modCiph f).bus = d.bus := rfl
@[simp] theorem Dev.modCiph_strk (f : Ciph → Ciph) : (d.modCiph f).strk = d.strk := rfl
@[simp] theorem Dev.modCiph_chans (f : Ciph → Ciph) : (d.modCiph f).chans = d.chans := rfl
@[simp] theorem Dev.modCiph_media (f : Ciph → Ciph) : (d.modCiph f).media = d.media := rfl
@[simp] theorem Dev.modCiph_ecc (f : Ciph → Ciph) : (d.modCiph f).ecc = d.ecc := rfl
@[simp] theorem Dev.modCiph_par (f : Ciph → Ciph) : (d.modCiph f).par = d.par := rfl
@[simp] theorem Dev.modCiph_stip (f : Ciph → Ciph) : (d.modCiph f).stip = d.stip := rfl
@[simp] theorem Dev.modCiph_dram (f : Ciph → Ciph) : (d.modCiph f).dram = d.dram := rfl
@[simp] theorem Dev.modCiph_pool (f : Ciph → Ciph) : (d.modCiph f).pool = d.pool := rfl
@[simp] theorem Dev.modCiph_host (f : Ciph → Ciph) : (d.modCiph f).host = d.host := rfl
@[simp] theorem Dev.modCiph_zm (f : Ciph → Ciph) : (d.modCiph f).zm = d.zm := rfl
@[simp] theorem Dev.modCiph_med (f : Ciph → Ciph) : (d.modCiph f).med = d.med := rfl
@[simp] theorem Dev.modCiph_cam (f : Ciph → Ciph) : (d.modCiph f).cam = d.cam := rfl
@[simp] theorem Dev.modCiph_grv (f : Ciph → Ciph) : (d.modCiph f).grv = d.grv := rfl
@[simp] theorem Dev.modCiph_jnm (f : Ciph → Ciph) : (d.modCiph f).jnm = d.jnm := rfl
@[simp] theorem Dev.modCiph_pwr (f : Ciph → Ciph) : (d.modCiph f).pwr = d.pwr := rfl
@[simp] theorem Dev.modCiph_nvm (f : Ciph → Ciph) : (d.modCiph f).nvm = d.nvm := rfl
@[simp] theorem Dev.modCiph_sys (f : Ciph → Ciph) : (d.modCiph f).sys = d.sys := rfl
@[simp] theorem Dev.modCiph_dlk (f : Ciph → Ciph) : (d.modCiph f).dlk = d.dlk := rfl
@[simp] theorem Dev.modCiph_out (f : Ciph → Ciph) : (d.modCiph f).out = d.out := rfl
@[simp] theorem Dev.modCiph_ciph (f : Ciph → Ciph) : (d.modCiph f).ciph = f d.ciph := rfl

@[simp] theorem Dev.modLane_nfree (n : Nat) (f : Lane → Lane) : (d.modLane n f).nfree = d.nfree := rfl
@[simp] theorem Dev.modLane_regs (n : Nat) (f : Lane → Lane) : (d.modLane n f).regs = d.regs := rfl
@[simp] theorem Dev.modLane_bus (n : Nat) (f : Lane → Lane) : (d.modLane n f).bus = d.bus := rfl
@[simp] theorem Dev.modLane_strk (n : Nat) (f : Lane → Lane) : (d.modLane n f).strk = d.strk := rfl
@[simp] theorem Dev.modLane_chans (n : Nat) (f : Lane → Lane) : (d.modLane n f).chans = d.chans := rfl
@[simp] theorem Dev.modLane_media (n : Nat) (f : Lane → Lane) : (d.modLane n f).media = d.media := rfl
@[simp] theorem Dev.modLane_ecc (n : Nat) (f : Lane → Lane) : (d.modLane n f).ecc = d.ecc := rfl
@[simp] theorem Dev.modLane_par (n : Nat) (f : Lane → Lane) : (d.modLane n f).par = d.par := rfl
@[simp] theorem Dev.modLane_stip (n : Nat) (f : Lane → Lane) : (d.modLane n f).stip = d.stip := rfl
@[simp] theorem Dev.modLane_dram (n : Nat) (f : Lane → Lane) : (d.modLane n f).dram = d.dram := rfl
@[simp] theorem Dev.modLane_pool (n : Nat) (f : Lane → Lane) : (d.modLane n f).pool = d.pool := rfl
@[simp] theorem Dev.modLane_host (n : Nat) (f : Lane → Lane) : (d.modLane n f).host = d.host := rfl
@[simp] theorem Dev.modLane_zm (n : Nat) (f : Lane → Lane) : (d.modLane n f).zm = d.zm := rfl
@[simp] theorem Dev.modLane_med (n : Nat) (f : Lane → Lane) : (d.modLane n f).med = d.med := rfl
@[simp] theorem Dev.modLane_cam (n : Nat) (f : Lane → Lane) : (d.modLane n f).cam = d.cam := rfl
@[simp] theorem Dev.modLane_grv (n : Nat) (f : Lane → Lane) : (d.modLane n f).grv = d.grv := rfl
@[simp] theorem Dev.modLane_jnm (n : Nat) (f : Lane → Lane) : (d.modLane n f).jnm = d.jnm := rfl
@[simp] theorem Dev.modLane_pwr (n : Nat) (f : Lane → Lane) : (d.modLane n f).pwr = d.pwr := rfl
@[simp] theorem Dev.modLane_nvm (n : Nat) (f : Lane → Lane) : (d.modLane n f).nvm = d.nvm := rfl
@[simp] theorem Dev.modLane_sys (n : Nat) (f : Lane → Lane) : (d.modLane n f).sys = d.sys := rfl
@[simp] theorem Dev.modLane_dlk (n : Nat) (f : Lane → Lane) : (d.modLane n f).dlk = d.dlk := rfl
@[simp] theorem Dev.modLane_out (n : Nat) (f : Lane → Lane) : (d.modLane n f).out = d.out := rfl

@[simp] theorem Dev.setKey_nfree (n : Nat) (x : KeySlot) : (d.setKey n x).nfree = d.nfree := rfl
@[simp] theorem Dev.setKey_regs (n : Nat) (x : KeySlot) : (d.setKey n x).regs = d.regs := rfl
@[simp] theorem Dev.setKey_bus (n : Nat) (x : KeySlot) : (d.setKey n x).bus = d.bus := rfl
@[simp] theorem Dev.setKey_strk (n : Nat) (x : KeySlot) : (d.setKey n x).strk = d.strk := rfl
@[simp] theorem Dev.setKey_chans (n : Nat) (x : KeySlot) : (d.setKey n x).chans = d.chans := rfl
@[simp] theorem Dev.setKey_media (n : Nat) (x : KeySlot) : (d.setKey n x).media = d.media := rfl
@[simp] theorem Dev.setKey_ecc (n : Nat) (x : KeySlot) : (d.setKey n x).ecc = d.ecc := rfl
@[simp] theorem Dev.setKey_par (n : Nat) (x : KeySlot) : (d.setKey n x).par = d.par := rfl
@[simp] theorem Dev.setKey_stip (n : Nat) (x : KeySlot) : (d.setKey n x).stip = d.stip := rfl
@[simp] theorem Dev.setKey_dram (n : Nat) (x : KeySlot) : (d.setKey n x).dram = d.dram := rfl
@[simp] theorem Dev.setKey_pool (n : Nat) (x : KeySlot) : (d.setKey n x).pool = d.pool := rfl
@[simp] theorem Dev.setKey_host (n : Nat) (x : KeySlot) : (d.setKey n x).host = d.host := rfl
@[simp] theorem Dev.setKey_zm (n : Nat) (x : KeySlot) : (d.setKey n x).zm = d.zm := rfl
@[simp] theorem Dev.setKey_med (n : Nat) (x : KeySlot) : (d.setKey n x).med = d.med := rfl
@[simp] theorem Dev.setKey_cam (n : Nat) (x : KeySlot) : (d.setKey n x).cam = d.cam := rfl
@[simp] theorem Dev.setKey_grv (n : Nat) (x : KeySlot) : (d.setKey n x).grv = d.grv := rfl
@[simp] theorem Dev.setKey_jnm (n : Nat) (x : KeySlot) : (d.setKey n x).jnm = d.jnm := rfl
@[simp] theorem Dev.setKey_pwr (n : Nat) (x : KeySlot) : (d.setKey n x).pwr = d.pwr := rfl
@[simp] theorem Dev.setKey_nvm (n : Nat) (x : KeySlot) : (d.setKey n x).nvm = d.nvm := rfl
@[simp] theorem Dev.setKey_sys (n : Nat) (x : KeySlot) : (d.setKey n x).sys = d.sys := rfl
@[simp] theorem Dev.setKey_dlk (n : Nat) (x : KeySlot) : (d.setKey n x).dlk = d.dlk := rfl
@[simp] theorem Dev.setKey_out (n : Nat) (x : KeySlot) : (d.setKey n x).out = d.out := rfl

@[simp] theorem Dev.modDram_nfree (f : Dram → Dram) : (d.modDram f).nfree = d.nfree := rfl
@[simp] theorem Dev.modDram_regs (f : Dram → Dram) : (d.modDram f).regs = d.regs := rfl
@[simp] theorem Dev.modDram_bus (f : Dram → Dram) : (d.modDram f).bus = d.bus := rfl
@[simp] theorem Dev.modDram_strk (f : Dram → Dram) : (d.modDram f).strk = d.strk := rfl
@[simp] theorem Dev.modDram_chans (f : Dram → Dram) : (d.modDram f).chans = d.chans := rfl
@[simp] theorem Dev.modDram_media (f : Dram → Dram) : (d.modDram f).media = d.media := rfl
@[simp] theorem Dev.modDram_ecc (f : Dram → Dram) : (d.modDram f).ecc = d.ecc := rfl
@[simp] theorem Dev.modDram_par (f : Dram → Dram) : (d.modDram f).par = d.par := rfl
@[simp] theorem Dev.modDram_stip (f : Dram → Dram) : (d.modDram f).stip = d.stip := rfl
@[simp] theorem Dev.modDram_ciph (f : Dram → Dram) : (d.modDram f).ciph = d.ciph := rfl
@[simp] theorem Dev.modDram_pool (f : Dram → Dram) : (d.modDram f).pool = d.pool := rfl
@[simp] theorem Dev.modDram_host (f : Dram → Dram) : (d.modDram f).host = d.host := rfl
@[simp] theorem Dev.modDram_zm (f : Dram → Dram) : (d.modDram f).zm = d.zm := rfl
@[simp] theorem Dev.modDram_med (f : Dram → Dram) : (d.modDram f).med = d.med := rfl
@[simp] theorem Dev.modDram_cam (f : Dram → Dram) : (d.modDram f).cam = d.cam := rfl
@[simp] theorem Dev.modDram_grv (f : Dram → Dram) : (d.modDram f).grv = d.grv := rfl
@[simp] theorem Dev.modDram_jnm (f : Dram → Dram) : (d.modDram f).jnm = d.jnm := rfl
@[simp] theorem Dev.modDram_pwr (f : Dram → Dram) : (d.modDram f).pwr = d.pwr := rfl
@[simp] theorem Dev.modDram_nvm (f : Dram → Dram) : (d.modDram f).nvm = d.nvm := rfl
@[simp] theorem Dev.modDram_sys (f : Dram → Dram) : (d.modDram f).sys = d.sys := rfl
@[simp] theorem Dev.modDram_dlk (f : Dram → Dram) : (d.modDram f).dlk = d.dlk := rfl
@[simp] theorem Dev.modDram_out (f : Dram → Dram) : (d.modDram f).out = d.out := rfl
@[simp] theorem Dev.modDram_dram (f : Dram → Dram) : (d.modDram f).dram = f d.dram := rfl

@[simp] theorem Dev.modDport_nfree (p : Nat) (f : DramPort → DramPort) : (d.modDport p f).nfree = d.nfree := rfl
@[simp] theorem Dev.modDport_regs (p : Nat) (f : DramPort → DramPort) : (d.modDport p f).regs = d.regs := rfl
@[simp] theorem Dev.modDport_bus (p : Nat) (f : DramPort → DramPort) : (d.modDport p f).bus = d.bus := rfl
@[simp] theorem Dev.modDport_strk (p : Nat) (f : DramPort → DramPort) : (d.modDport p f).strk = d.strk := rfl
@[simp] theorem Dev.modDport_chans (p : Nat) (f : DramPort → DramPort) : (d.modDport p f).chans = d.chans := rfl
@[simp] theorem Dev.modDport_media (p : Nat) (f : DramPort → DramPort) : (d.modDport p f).media = d.media := rfl
@[simp] theorem Dev.modDport_ecc (p : Nat) (f : DramPort → DramPort) : (d.modDport p f).ecc = d.ecc := rfl
@[simp] theorem Dev.modDport_par (p : Nat) (f : DramPort → DramPort) : (d.modDport p f).par = d.par := rfl
@[simp] theorem Dev.modDport_stip (p : Nat) (f : DramPort → DramPort) : (d.modDport p f).stip = d.stip := rfl
@[simp] theorem Dev.modDport_ciph (p : Nat) (f : DramPort → DramPort) : (d.modDport p f).ciph = d.ciph := rfl
@[simp] theorem Dev.modDport_pool (p : Nat) (f : DramPort → DramPort) : (d.modDport p f).pool = d.pool := rfl
@[simp] theorem Dev.modDport_host (p : Nat) (f : DramPort → DramPort) : (d.modDport p f).host = d.host := rfl
@[simp] theorem Dev.modDport_zm (p : Nat) (f : DramPort → DramPort) : (d.modDport p f).zm = d.zm := rfl
@[simp] theorem Dev.modDport_med (p : Nat) (f : DramPort → DramPort) : (d.modDport p f).med = d.med := rfl
@[simp] theorem Dev.modDport_cam (p : Nat) (f : DramPort → DramPort) : (d.modDport p f).cam = d.cam := rfl
@[simp] theorem Dev.modDport_grv (p : Nat) (f : DramPort → DramPort) : (d.modDport p f).grv = d.grv := rfl
@[simp] theorem Dev.modDport_jnm (p : Nat) (f : DramPort → DramPort) : (d.modDport p f).jnm = d.jnm := rfl
@[simp] theorem Dev.modDport_pwr (p : Nat) (f : DramPort → DramPort) : (d.modDport p f).pwr = d.pwr := rfl
@[simp] theorem Dev.modDport_nvm (p : Nat) (f : DramPort → DramPort) : (d.modDport p f).nvm = d.nvm := rfl
@[simp] theorem Dev.modDport_sys (p : Nat) (f : DramPort → DramPort) : (d.modDport p f).sys = d.sys := rfl
@[simp] theorem Dev.modDport_dlk (p : Nat) (f : DramPort → DramPort) : (d.modDport p f).dlk = d.dlk := rfl
@[simp] theorem Dev.modDport_out (p : Nat) (f : DramPort → DramPort) : (d.modDport p f).out = d.out := rfl

@[simp] theorem Dev.modEcc_nfree (f : Ecc → Ecc) : (d.modEcc f).nfree = d.nfree := rfl
@[simp] theorem Dev.modEcc_regs (f : Ecc → Ecc) : (d.modEcc f).regs = d.regs := rfl
@[simp] theorem Dev.modEcc_bus (f : Ecc → Ecc) : (d.modEcc f).bus = d.bus := rfl
@[simp] theorem Dev.modEcc_strk (f : Ecc → Ecc) : (d.modEcc f).strk = d.strk := rfl
@[simp] theorem Dev.modEcc_chans (f : Ecc → Ecc) : (d.modEcc f).chans = d.chans := rfl
@[simp] theorem Dev.modEcc_media (f : Ecc → Ecc) : (d.modEcc f).media = d.media := rfl
@[simp] theorem Dev.modEcc_par (f : Ecc → Ecc) : (d.modEcc f).par = d.par := rfl
@[simp] theorem Dev.modEcc_stip (f : Ecc → Ecc) : (d.modEcc f).stip = d.stip := rfl
@[simp] theorem Dev.modEcc_ciph (f : Ecc → Ecc) : (d.modEcc f).ciph = d.ciph := rfl
@[simp] theorem Dev.modEcc_dram (f : Ecc → Ecc) : (d.modEcc f).dram = d.dram := rfl
@[simp] theorem Dev.modEcc_pool (f : Ecc → Ecc) : (d.modEcc f).pool = d.pool := rfl
@[simp] theorem Dev.modEcc_host (f : Ecc → Ecc) : (d.modEcc f).host = d.host := rfl
@[simp] theorem Dev.modEcc_zm (f : Ecc → Ecc) : (d.modEcc f).zm = d.zm := rfl
@[simp] theorem Dev.modEcc_med (f : Ecc → Ecc) : (d.modEcc f).med = d.med := rfl
@[simp] theorem Dev.modEcc_cam (f : Ecc → Ecc) : (d.modEcc f).cam = d.cam := rfl
@[simp] theorem Dev.modEcc_grv (f : Ecc → Ecc) : (d.modEcc f).grv = d.grv := rfl
@[simp] theorem Dev.modEcc_jnm (f : Ecc → Ecc) : (d.modEcc f).jnm = d.jnm := rfl
@[simp] theorem Dev.modEcc_pwr (f : Ecc → Ecc) : (d.modEcc f).pwr = d.pwr := rfl
@[simp] theorem Dev.modEcc_nvm (f : Ecc → Ecc) : (d.modEcc f).nvm = d.nvm := rfl
@[simp] theorem Dev.modEcc_sys (f : Ecc → Ecc) : (d.modEcc f).sys = d.sys := rfl
@[simp] theorem Dev.modEcc_dlk (f : Ecc → Ecc) : (d.modEcc f).dlk = d.dlk := rfl
@[simp] theorem Dev.modEcc_out (f : Ecc → Ecc) : (d.modEcc f).out = d.out := rfl
@[simp] theorem Dev.modEcc_ecc (f : Ecc → Ecc) : (d.modEcc f).ecc = f d.ecc := rfl

@[simp] theorem Dev.setBucket_nfree (b : Nat) (x : Bucket) : (d.setBucket b x).nfree = d.nfree := rfl
@[simp] theorem Dev.setBucket_regs (b : Nat) (x : Bucket) : (d.setBucket b x).regs = d.regs := rfl
@[simp] theorem Dev.setBucket_bus (b : Nat) (x : Bucket) : (d.setBucket b x).bus = d.bus := rfl
@[simp] theorem Dev.setBucket_strk (b : Nat) (x : Bucket) : (d.setBucket b x).strk = d.strk := rfl
@[simp] theorem Dev.setBucket_chans (b : Nat) (x : Bucket) : (d.setBucket b x).chans = d.chans := rfl
@[simp] theorem Dev.setBucket_media (b : Nat) (x : Bucket) : (d.setBucket b x).media = d.media := rfl
@[simp] theorem Dev.setBucket_par (b : Nat) (x : Bucket) : (d.setBucket b x).par = d.par := rfl
@[simp] theorem Dev.setBucket_stip (b : Nat) (x : Bucket) : (d.setBucket b x).stip = d.stip := rfl
@[simp] theorem Dev.setBucket_ciph (b : Nat) (x : Bucket) : (d.setBucket b x).ciph = d.ciph := rfl
@[simp] theorem Dev.setBucket_dram (b : Nat) (x : Bucket) : (d.setBucket b x).dram = d.dram := rfl
@[simp] theorem Dev.setBucket_pool (b : Nat) (x : Bucket) : (d.setBucket b x).pool = d.pool := rfl
@[simp] theorem Dev.setBucket_host (b : Nat) (x : Bucket) : (d.setBucket b x).host = d.host := rfl
@[simp] theorem Dev.setBucket_zm (b : Nat) (x : Bucket) : (d.setBucket b x).zm = d.zm := rfl
@[simp] theorem Dev.setBucket_med (b : Nat) (x : Bucket) : (d.setBucket b x).med = d.med := rfl
@[simp] theorem Dev.setBucket_cam (b : Nat) (x : Bucket) : (d.setBucket b x).cam = d.cam := rfl
@[simp] theorem Dev.setBucket_grv (b : Nat) (x : Bucket) : (d.setBucket b x).grv = d.grv := rfl
@[simp] theorem Dev.setBucket_jnm (b : Nat) (x : Bucket) : (d.setBucket b x).jnm = d.jnm := rfl
@[simp] theorem Dev.setBucket_pwr (b : Nat) (x : Bucket) : (d.setBucket b x).pwr = d.pwr := rfl
@[simp] theorem Dev.setBucket_nvm (b : Nat) (x : Bucket) : (d.setBucket b x).nvm = d.nvm := rfl
@[simp] theorem Dev.setBucket_sys (b : Nat) (x : Bucket) : (d.setBucket b x).sys = d.sys := rfl
@[simp] theorem Dev.setBucket_dlk (b : Nat) (x : Bucket) : (d.setBucket b x).dlk = d.dlk := rfl
@[simp] theorem Dev.setBucket_out (b : Nat) (x : Bucket) : (d.setBucket b x).out = d.out := rfl

@[simp] theorem Dev.setCheck_nfree (i : Nat) (x : Option Nat) : (d.setCheck i x).nfree = d.nfree := rfl
@[simp] theorem Dev.setCheck_regs (i : Nat) (x : Option Nat) : (d.setCheck i x).regs = d.regs := rfl
@[simp] theorem Dev.setCheck_bus (i : Nat) (x : Option Nat) : (d.setCheck i x).bus = d.bus := rfl
@[simp] theorem Dev.setCheck_strk (i : Nat) (x : Option Nat) : (d.setCheck i x).strk = d.strk := rfl
@[simp] theorem Dev.setCheck_chans (i : Nat) (x : Option Nat) : (d.setCheck i x).chans = d.chans := rfl
@[simp] theorem Dev.setCheck_media (i : Nat) (x : Option Nat) : (d.setCheck i x).media = d.media := rfl
@[simp] theorem Dev.setCheck_par (i : Nat) (x : Option Nat) : (d.setCheck i x).par = d.par := rfl
@[simp] theorem Dev.setCheck_stip (i : Nat) (x : Option Nat) : (d.setCheck i x).stip = d.stip := rfl
@[simp] theorem Dev.setCheck_ciph (i : Nat) (x : Option Nat) : (d.setCheck i x).ciph = d.ciph := rfl
@[simp] theorem Dev.setCheck_dram (i : Nat) (x : Option Nat) : (d.setCheck i x).dram = d.dram := rfl
@[simp] theorem Dev.setCheck_pool (i : Nat) (x : Option Nat) : (d.setCheck i x).pool = d.pool := rfl
@[simp] theorem Dev.setCheck_host (i : Nat) (x : Option Nat) : (d.setCheck i x).host = d.host := rfl
@[simp] theorem Dev.setCheck_zm (i : Nat) (x : Option Nat) : (d.setCheck i x).zm = d.zm := rfl
@[simp] theorem Dev.setCheck_med (i : Nat) (x : Option Nat) : (d.setCheck i x).med = d.med := rfl
@[simp] theorem Dev.setCheck_cam (i : Nat) (x : Option Nat) : (d.setCheck i x).cam = d.cam := rfl
@[simp] theorem Dev.setCheck_grv (i : Nat) (x : Option Nat) : (d.setCheck i x).grv = d.grv := rfl
@[simp] theorem Dev.setCheck_jnm (i : Nat) (x : Option Nat) : (d.setCheck i x).jnm = d.jnm := rfl
@[simp] theorem Dev.setCheck_pwr (i : Nat) (x : Option Nat) : (d.setCheck i x).pwr = d.pwr := rfl
@[simp] theorem Dev.setCheck_nvm (i : Nat) (x : Option Nat) : (d.setCheck i x).nvm = d.nvm := rfl
@[simp] theorem Dev.setCheck_sys (i : Nat) (x : Option Nat) : (d.setCheck i x).sys = d.sys := rfl
@[simp] theorem Dev.setCheck_dlk (i : Nat) (x : Option Nat) : (d.setCheck i x).dlk = d.dlk := rfl
@[simp] theorem Dev.setCheck_out (i : Nat) (x : Option Nat) : (d.setCheck i x).out = d.out := rfl

@[simp] theorem Dev.setItem_nfree (x y : EccItem) : (d.setItem x y).nfree = d.nfree := rfl
@[simp] theorem Dev.setItem_regs (x y : EccItem) : (d.setItem x y).regs = d.regs := rfl
@[simp] theorem Dev.setItem_bus (x y : EccItem) : (d.setItem x y).bus = d.bus := rfl
@[simp] theorem Dev.setItem_strk (x y : EccItem) : (d.setItem x y).strk = d.strk := rfl
@[simp] theorem Dev.setItem_chans (x y : EccItem) : (d.setItem x y).chans = d.chans := rfl
@[simp] theorem Dev.setItem_media (x y : EccItem) : (d.setItem x y).media = d.media := rfl
@[simp] theorem Dev.setItem_par (x y : EccItem) : (d.setItem x y).par = d.par := rfl
@[simp] theorem Dev.setItem_stip (x y : EccItem) : (d.setItem x y).stip = d.stip := rfl
@[simp] theorem Dev.setItem_ciph (x y : EccItem) : (d.setItem x y).ciph = d.ciph := rfl
@[simp] theorem Dev.setItem_dram (x y : EccItem) : (d.setItem x y).dram = d.dram := rfl
@[simp] theorem Dev.setItem_pool (x y : EccItem) : (d.setItem x y).pool = d.pool := rfl
@[simp] theorem Dev.setItem_host (x y : EccItem) : (d.setItem x y).host = d.host := rfl
@[simp] theorem Dev.setItem_zm (x y : EccItem) : (d.setItem x y).zm = d.zm := rfl
@[simp] theorem Dev.setItem_med (x y : EccItem) : (d.setItem x y).med = d.med := rfl
@[simp] theorem Dev.setItem_cam (x y : EccItem) : (d.setItem x y).cam = d.cam := rfl
@[simp] theorem Dev.setItem_grv (x y : EccItem) : (d.setItem x y).grv = d.grv := rfl
@[simp] theorem Dev.setItem_jnm (x y : EccItem) : (d.setItem x y).jnm = d.jnm := rfl
@[simp] theorem Dev.setItem_pwr (x y : EccItem) : (d.setItem x y).pwr = d.pwr := rfl
@[simp] theorem Dev.setItem_nvm (x y : EccItem) : (d.setItem x y).nvm = d.nvm := rfl
@[simp] theorem Dev.setItem_sys (x y : EccItem) : (d.setItem x y).sys = d.sys := rfl
@[simp] theorem Dev.setItem_dlk (x y : EccItem) : (d.setItem x y).dlk = d.dlk := rfl
@[simp] theorem Dev.setItem_out (x y : EccItem) : (d.setItem x y).out = d.out := rfl

@[simp] theorem Dev.modGrv_nfree (f : Grv → Grv) : (d.modGrv f).nfree = d.nfree := rfl
@[simp] theorem Dev.modGrv_regs (f : Grv → Grv) : (d.modGrv f).regs = d.regs := rfl
@[simp] theorem Dev.modGrv_bus (f : Grv → Grv) : (d.modGrv f).bus = d.bus := rfl
@[simp] theorem Dev.modGrv_strk (f : Grv → Grv) : (d.modGrv f).strk = d.strk := rfl
@[simp] theorem Dev.modGrv_chans (f : Grv → Grv) : (d.modGrv f).chans = d.chans := rfl
@[simp] theorem Dev.modGrv_media (f : Grv → Grv) : (d.modGrv f).media = d.media := rfl
@[simp] theorem Dev.modGrv_ecc (f : Grv → Grv) : (d.modGrv f).ecc = d.ecc := rfl
@[simp] theorem Dev.modGrv_par (f : Grv → Grv) : (d.modGrv f).par = d.par := rfl
@[simp] theorem Dev.modGrv_stip (f : Grv → Grv) : (d.modGrv f).stip = d.stip := rfl
@[simp] theorem Dev.modGrv_ciph (f : Grv → Grv) : (d.modGrv f).ciph = d.ciph := rfl
@[simp] theorem Dev.modGrv_dram (f : Grv → Grv) : (d.modGrv f).dram = d.dram := rfl
@[simp] theorem Dev.modGrv_pool (f : Grv → Grv) : (d.modGrv f).pool = d.pool := rfl
@[simp] theorem Dev.modGrv_host (f : Grv → Grv) : (d.modGrv f).host = d.host := rfl
@[simp] theorem Dev.modGrv_zm (f : Grv → Grv) : (d.modGrv f).zm = d.zm := rfl
@[simp] theorem Dev.modGrv_med (f : Grv → Grv) : (d.modGrv f).med = d.med := rfl
@[simp] theorem Dev.modGrv_cam (f : Grv → Grv) : (d.modGrv f).cam = d.cam := rfl
@[simp] theorem Dev.modGrv_jnm (f : Grv → Grv) : (d.modGrv f).jnm = d.jnm := rfl
@[simp] theorem Dev.modGrv_pwr (f : Grv → Grv) : (d.modGrv f).pwr = d.pwr := rfl
@[simp] theorem Dev.modGrv_nvm (f : Grv → Grv) : (d.modGrv f).nvm = d.nvm := rfl
@[simp] theorem Dev.modGrv_sys (f : Grv → Grv) : (d.modGrv f).sys = d.sys := rfl
@[simp] theorem Dev.modGrv_dlk (f : Grv → Grv) : (d.modGrv f).dlk = d.dlk := rfl
@[simp] theorem Dev.modGrv_out (f : Grv → Grv) : (d.modGrv f).out = d.out := rfl
@[simp] theorem Dev.modGrv_grv (f : Grv → Grv) : (d.modGrv f).grv = f d.grv := rfl

@[simp] theorem Dev.modGraver_nfree (g : Nat) (f : Graver → Graver) : (d.modGraver g f).nfree = d.nfree := rfl
@[simp] theorem Dev.modGraver_regs (g : Nat) (f : Graver → Graver) : (d.modGraver g f).regs = d.regs := rfl
@[simp] theorem Dev.modGraver_bus (g : Nat) (f : Graver → Graver) : (d.modGraver g f).bus = d.bus := rfl
@[simp] theorem Dev.modGraver_strk (g : Nat) (f : Graver → Graver) : (d.modGraver g f).strk = d.strk := rfl
@[simp] theorem Dev.modGraver_chans (g : Nat) (f : Graver → Graver) : (d.modGraver g f).chans = d.chans := rfl
@[simp] theorem Dev.modGraver_media (g : Nat) (f : Graver → Graver) : (d.modGraver g f).media = d.media := rfl
@[simp] theorem Dev.modGraver_ecc (g : Nat) (f : Graver → Graver) : (d.modGraver g f).ecc = d.ecc := rfl
@[simp] theorem Dev.modGraver_par (g : Nat) (f : Graver → Graver) : (d.modGraver g f).par = d.par := rfl
@[simp] theorem Dev.modGraver_stip (g : Nat) (f : Graver → Graver) : (d.modGraver g f).stip = d.stip := rfl
@[simp] theorem Dev.modGraver_ciph (g : Nat) (f : Graver → Graver) : (d.modGraver g f).ciph = d.ciph := rfl
@[simp] theorem Dev.modGraver_dram (g : Nat) (f : Graver → Graver) : (d.modGraver g f).dram = d.dram := rfl
@[simp] theorem Dev.modGraver_pool (g : Nat) (f : Graver → Graver) : (d.modGraver g f).pool = d.pool := rfl
@[simp] theorem Dev.modGraver_host (g : Nat) (f : Graver → Graver) : (d.modGraver g f).host = d.host := rfl
@[simp] theorem Dev.modGraver_zm (g : Nat) (f : Graver → Graver) : (d.modGraver g f).zm = d.zm := rfl
@[simp] theorem Dev.modGraver_med (g : Nat) (f : Graver → Graver) : (d.modGraver g f).med = d.med := rfl
@[simp] theorem Dev.modGraver_cam (g : Nat) (f : Graver → Graver) : (d.modGraver g f).cam = d.cam := rfl
@[simp] theorem Dev.modGraver_jnm (g : Nat) (f : Graver → Graver) : (d.modGraver g f).jnm = d.jnm := rfl
@[simp] theorem Dev.modGraver_pwr (g : Nat) (f : Graver → Graver) : (d.modGraver g f).pwr = d.pwr := rfl
@[simp] theorem Dev.modGraver_nvm (g : Nat) (f : Graver → Graver) : (d.modGraver g f).nvm = d.nvm := rfl
@[simp] theorem Dev.modGraver_sys (g : Nat) (f : Graver → Graver) : (d.modGraver g f).sys = d.sys := rfl
@[simp] theorem Dev.modGraver_dlk (g : Nat) (f : Graver → Graver) : (d.modGraver g f).dlk = d.dlk := rfl
@[simp] theorem Dev.modGraver_out (g : Nat) (f : Graver → Graver) : (d.modGraver g f).out = d.out := rfl

@[simp] theorem Dev.modEtch_nfree (e : Nat) (f : EtchSlot → EtchSlot) : (d.modEtch e f).nfree = d.nfree := rfl
@[simp] theorem Dev.modEtch_regs (e : Nat) (f : EtchSlot → EtchSlot) : (d.modEtch e f).regs = d.regs := rfl
@[simp] theorem Dev.modEtch_bus (e : Nat) (f : EtchSlot → EtchSlot) : (d.modEtch e f).bus = d.bus := rfl
@[simp] theorem Dev.modEtch_strk (e : Nat) (f : EtchSlot → EtchSlot) : (d.modEtch e f).strk = d.strk := rfl
@[simp] theorem Dev.modEtch_chans (e : Nat) (f : EtchSlot → EtchSlot) : (d.modEtch e f).chans = d.chans := rfl
@[simp] theorem Dev.modEtch_media (e : Nat) (f : EtchSlot → EtchSlot) : (d.modEtch e f).media = d.media := rfl
@[simp] theorem Dev.modEtch_ecc (e : Nat) (f : EtchSlot → EtchSlot) : (d.modEtch e f).ecc = d.ecc := rfl
@[simp] theorem Dev.modEtch_par (e : Nat) (f : EtchSlot → EtchSlot) : (d.modEtch e f).par = d.par := rfl
@[simp] theorem Dev.modEtch_stip (e : Nat) (f : EtchSlot → EtchSlot) : (d.modEtch e f).stip = d.stip := rfl
@[simp] theorem Dev.modEtch_ciph (e : Nat) (f : EtchSlot → EtchSlot) : (d.modEtch e f).ciph = d.ciph := rfl
@[simp] theorem Dev.modEtch_dram (e : Nat) (f : EtchSlot → EtchSlot) : (d.modEtch e f).dram = d.dram := rfl
@[simp] theorem Dev.modEtch_pool (e : Nat) (f : EtchSlot → EtchSlot) : (d.modEtch e f).pool = d.pool := rfl
@[simp] theorem Dev.modEtch_host (e : Nat) (f : EtchSlot → EtchSlot) : (d.modEtch e f).host = d.host := rfl
@[simp] theorem Dev.modEtch_zm (e : Nat) (f : EtchSlot → EtchSlot) : (d.modEtch e f).zm = d.zm := rfl
@[simp] theorem Dev.modEtch_med (e : Nat) (f : EtchSlot → EtchSlot) : (d.modEtch e f).med = d.med := rfl
@[simp] theorem Dev.modEtch_cam (e : Nat) (f : EtchSlot → EtchSlot) : (d.modEtch e f).cam = d.cam := rfl
@[simp] theorem Dev.modEtch_jnm (e : Nat) (f : EtchSlot → EtchSlot) : (d.modEtch e f).jnm = d.jnm := rfl
@[simp] theorem Dev.modEtch_pwr (e : Nat) (f : EtchSlot → EtchSlot) : (d.modEtch e f).pwr = d.pwr := rfl
@[simp] theorem Dev.modEtch_nvm (e : Nat) (f : EtchSlot → EtchSlot) : (d.modEtch e f).nvm = d.nvm := rfl
@[simp] theorem Dev.modEtch_sys (e : Nat) (f : EtchSlot → EtchSlot) : (d.modEtch e f).sys = d.sys := rfl
@[simp] theorem Dev.modEtch_dlk (e : Nat) (f : EtchSlot → EtchSlot) : (d.modEtch e f).dlk = d.dlk := rfl
@[simp] theorem Dev.modEtch_out (e : Nat) (f : EtchSlot → EtchSlot) : (d.modEtch e f).out = d.out := rfl

@[simp] theorem Dev.setQueue_nfree (q : Nat) (l : List DWord) : (d.setQueue q l).nfree = d.nfree := rfl
@[simp] theorem Dev.setQueue_regs (q : Nat) (l : List DWord) : (d.setQueue q l).regs = d.regs := rfl
@[simp] theorem Dev.setQueue_bus (q : Nat) (l : List DWord) : (d.setQueue q l).bus = d.bus := rfl
@[simp] theorem Dev.setQueue_strk (q : Nat) (l : List DWord) : (d.setQueue q l).strk = d.strk := rfl
@[simp] theorem Dev.setQueue_chans (q : Nat) (l : List DWord) : (d.setQueue q l).chans = d.chans := rfl
@[simp] theorem Dev.setQueue_media (q : Nat) (l : List DWord) : (d.setQueue q l).media = d.media := rfl
@[simp] theorem Dev.setQueue_ecc (q : Nat) (l : List DWord) : (d.setQueue q l).ecc = d.ecc := rfl
@[simp] theorem Dev.setQueue_par (q : Nat) (l : List DWord) : (d.setQueue q l).par = d.par := rfl
@[simp] theorem Dev.setQueue_stip (q : Nat) (l : List DWord) : (d.setQueue q l).stip = d.stip := rfl
@[simp] theorem Dev.setQueue_ciph (q : Nat) (l : List DWord) : (d.setQueue q l).ciph = d.ciph := rfl
@[simp] theorem Dev.setQueue_dram (q : Nat) (l : List DWord) : (d.setQueue q l).dram = d.dram := rfl
@[simp] theorem Dev.setQueue_pool (q : Nat) (l : List DWord) : (d.setQueue q l).pool = d.pool := rfl
@[simp] theorem Dev.setQueue_host (q : Nat) (l : List DWord) : (d.setQueue q l).host = d.host := rfl
@[simp] theorem Dev.setQueue_zm (q : Nat) (l : List DWord) : (d.setQueue q l).zm = d.zm := rfl
@[simp] theorem Dev.setQueue_med (q : Nat) (l : List DWord) : (d.setQueue q l).med = d.med := rfl
@[simp] theorem Dev.setQueue_cam (q : Nat) (l : List DWord) : (d.setQueue q l).cam = d.cam := rfl
@[simp] theorem Dev.setQueue_jnm (q : Nat) (l : List DWord) : (d.setQueue q l).jnm = d.jnm := rfl
@[simp] theorem Dev.setQueue_pwr (q : Nat) (l : List DWord) : (d.setQueue q l).pwr = d.pwr := rfl
@[simp] theorem Dev.setQueue_nvm (q : Nat) (l : List DWord) : (d.setQueue q l).nvm = d.nvm := rfl
@[simp] theorem Dev.setQueue_sys (q : Nat) (l : List DWord) : (d.setQueue q l).sys = d.sys := rfl
@[simp] theorem Dev.setQueue_dlk (q : Nat) (l : List DWord) : (d.setQueue q l).dlk = d.dlk := rfl
@[simp] theorem Dev.setQueue_out (q : Nat) (l : List DWord) : (d.setQueue q l).out = d.out := rfl

@[simp] theorem Dev.trace_nfree (k u : Nat) : (d.trace k u).nfree = d.nfree := rfl
@[simp] theorem Dev.trace_regs (k u : Nat) : (d.trace k u).regs = d.regs := rfl
@[simp] theorem Dev.trace_bus (k u : Nat) : (d.trace k u).bus = d.bus := rfl
@[simp] theorem Dev.trace_strk (k u : Nat) : (d.trace k u).strk = d.strk := rfl
@[simp] theorem Dev.trace_chans (k u : Nat) : (d.trace k u).chans = d.chans := rfl
@[simp] theorem Dev.trace_media (k u : Nat) : (d.trace k u).media = d.media := rfl
@[simp] theorem Dev.trace_ecc (k u : Nat) : (d.trace k u).ecc = d.ecc := rfl
@[simp] theorem Dev.trace_par (k u : Nat) : (d.trace k u).par = d.par := rfl
@[simp] theorem Dev.trace_stip (k u : Nat) : (d.trace k u).stip = d.stip := rfl
@[simp] theorem Dev.trace_ciph (k u : Nat) : (d.trace k u).ciph = d.ciph := rfl
@[simp] theorem Dev.trace_dram (k u : Nat) : (d.trace k u).dram = d.dram := rfl
@[simp] theorem Dev.trace_pool (k u : Nat) : (d.trace k u).pool = d.pool := rfl
@[simp] theorem Dev.trace_host (k u : Nat) : (d.trace k u).host = d.host := rfl
@[simp] theorem Dev.trace_zm (k u : Nat) : (d.trace k u).zm = d.zm := rfl
@[simp] theorem Dev.trace_med (k u : Nat) : (d.trace k u).med = d.med := rfl
@[simp] theorem Dev.trace_cam (k u : Nat) : (d.trace k u).cam = d.cam := rfl
@[simp] theorem Dev.trace_jnm (k u : Nat) : (d.trace k u).jnm = d.jnm := rfl
@[simp] theorem Dev.trace_pwr (k u : Nat) : (d.trace k u).pwr = d.pwr := rfl
@[simp] theorem Dev.trace_nvm (k u : Nat) : (d.trace k u).nvm = d.nvm := rfl
@[simp] theorem Dev.trace_sys (k u : Nat) : (d.trace k u).sys = d.sys := rfl
@[simp] theorem Dev.trace_dlk (k u : Nat) : (d.trace k u).dlk = d.dlk := rfl
@[simp] theorem Dev.trace_out (k u : Nat) : (d.trace k u).out = d.out := rfl

@[simp] theorem Dev.tell_nfree (c : Nat) (r : List Byte) : (tellEtchings c r d).nfree = d.nfree := rfl
@[simp] theorem Dev.tell_regs (c : Nat) (r : List Byte) : (tellEtchings c r d).regs = d.regs := rfl
@[simp] theorem Dev.tell_bus (c : Nat) (r : List Byte) : (tellEtchings c r d).bus = d.bus := rfl
@[simp] theorem Dev.tell_strk (c : Nat) (r : List Byte) : (tellEtchings c r d).strk = d.strk := rfl
@[simp] theorem Dev.tell_chans (c : Nat) (r : List Byte) : (tellEtchings c r d).chans = d.chans := rfl
@[simp] theorem Dev.tell_media (c : Nat) (r : List Byte) : (tellEtchings c r d).media = d.media := rfl
@[simp] theorem Dev.tell_ecc (c : Nat) (r : List Byte) : (tellEtchings c r d).ecc = d.ecc := rfl
@[simp] theorem Dev.tell_par (c : Nat) (r : List Byte) : (tellEtchings c r d).par = d.par := rfl
@[simp] theorem Dev.tell_stip (c : Nat) (r : List Byte) : (tellEtchings c r d).stip = d.stip := rfl
@[simp] theorem Dev.tell_ciph (c : Nat) (r : List Byte) : (tellEtchings c r d).ciph = d.ciph := rfl
@[simp] theorem Dev.tell_dram (c : Nat) (r : List Byte) : (tellEtchings c r d).dram = d.dram := rfl
@[simp] theorem Dev.tell_pool (c : Nat) (r : List Byte) : (tellEtchings c r d).pool = d.pool := rfl
@[simp] theorem Dev.tell_host (c : Nat) (r : List Byte) : (tellEtchings c r d).host = d.host := rfl
@[simp] theorem Dev.tell_zm (c : Nat) (r : List Byte) : (tellEtchings c r d).zm = d.zm := rfl
@[simp] theorem Dev.tell_med (c : Nat) (r : List Byte) : (tellEtchings c r d).med = d.med := rfl
@[simp] theorem Dev.tell_cam (c : Nat) (r : List Byte) : (tellEtchings c r d).cam = d.cam := rfl
@[simp] theorem Dev.tell_jnm (c : Nat) (r : List Byte) : (tellEtchings c r d).jnm = d.jnm := rfl
@[simp] theorem Dev.tell_pwr (c : Nat) (r : List Byte) : (tellEtchings c r d).pwr = d.pwr := rfl
@[simp] theorem Dev.tell_nvm (c : Nat) (r : List Byte) : (tellEtchings c r d).nvm = d.nvm := rfl
@[simp] theorem Dev.tell_sys (c : Nat) (r : List Byte) : (tellEtchings c r d).sys = d.sys := rfl
@[simp] theorem Dev.tell_dlk (c : Nat) (r : List Byte) : (tellEtchings c r d).dlk = d.dlk := rfl
@[simp] theorem Dev.tell_out (c : Nat) (r : List Byte) : (tellEtchings c r d).out = d.out := rfl

@[simp] theorem Dev.modZm_nfree (f : Zm → Zm) : (d.modZm f).nfree = d.nfree := rfl
@[simp] theorem Dev.modZm_regs (f : Zm → Zm) : (d.modZm f).regs = d.regs := rfl
@[simp] theorem Dev.modZm_bus (f : Zm → Zm) : (d.modZm f).bus = d.bus := rfl
@[simp] theorem Dev.modZm_strk (f : Zm → Zm) : (d.modZm f).strk = d.strk := rfl
@[simp] theorem Dev.modZm_chans (f : Zm → Zm) : (d.modZm f).chans = d.chans := rfl
@[simp] theorem Dev.modZm_media (f : Zm → Zm) : (d.modZm f).media = d.media := rfl
@[simp] theorem Dev.modZm_ecc (f : Zm → Zm) : (d.modZm f).ecc = d.ecc := rfl
@[simp] theorem Dev.modZm_par (f : Zm → Zm) : (d.modZm f).par = d.par := rfl
@[simp] theorem Dev.modZm_stip (f : Zm → Zm) : (d.modZm f).stip = d.stip := rfl
@[simp] theorem Dev.modZm_ciph (f : Zm → Zm) : (d.modZm f).ciph = d.ciph := rfl
@[simp] theorem Dev.modZm_dram (f : Zm → Zm) : (d.modZm f).dram = d.dram := rfl
@[simp] theorem Dev.modZm_pool (f : Zm → Zm) : (d.modZm f).pool = d.pool := rfl
@[simp] theorem Dev.modZm_host (f : Zm → Zm) : (d.modZm f).host = d.host := rfl
@[simp] theorem Dev.modZm_med (f : Zm → Zm) : (d.modZm f).med = d.med := rfl
@[simp] theorem Dev.modZm_cam (f : Zm → Zm) : (d.modZm f).cam = d.cam := rfl
@[simp] theorem Dev.modZm_grv (f : Zm → Zm) : (d.modZm f).grv = d.grv := rfl
@[simp] theorem Dev.modZm_jnm (f : Zm → Zm) : (d.modZm f).jnm = d.jnm := rfl
@[simp] theorem Dev.modZm_pwr (f : Zm → Zm) : (d.modZm f).pwr = d.pwr := rfl
@[simp] theorem Dev.modZm_nvm (f : Zm → Zm) : (d.modZm f).nvm = d.nvm := rfl
@[simp] theorem Dev.modZm_sys (f : Zm → Zm) : (d.modZm f).sys = d.sys := rfl
@[simp] theorem Dev.modZm_dlk (f : Zm → Zm) : (d.modZm f).dlk = d.dlk := rfl
@[simp] theorem Dev.modZm_out (f : Zm → Zm) : (d.modZm f).out = d.out := rfl
@[simp] theorem Dev.modZm_zm (f : Zm → Zm) : (d.modZm f).zm = f d.zm := rfl

@[simp] theorem Dev.modNs_nfree (n : Nat) (f : Ns → Ns) : (d.modNs n f).nfree = d.nfree := by unfold Dev.modNs; split <;> rfl
@[simp] theorem Dev.modNs_regs (n : Nat) (f : Ns → Ns) : (d.modNs n f).regs = d.regs := by unfold Dev.modNs; split <;> rfl
@[simp] theorem Dev.modNs_bus (n : Nat) (f : Ns → Ns) : (d.modNs n f).bus = d.bus := by unfold Dev.modNs; split <;> rfl
@[simp] theorem Dev.modNs_strk (n : Nat) (f : Ns → Ns) : (d.modNs n f).strk = d.strk := by unfold Dev.modNs; split <;> rfl
@[simp] theorem Dev.modNs_chans (n : Nat) (f : Ns → Ns) : (d.modNs n f).chans = d.chans := by unfold Dev.modNs; split <;> rfl
@[simp] theorem Dev.modNs_media (n : Nat) (f : Ns → Ns) : (d.modNs n f).media = d.media := by unfold Dev.modNs; split <;> rfl
@[simp] theorem Dev.modNs_ecc (n : Nat) (f : Ns → Ns) : (d.modNs n f).ecc = d.ecc := by unfold Dev.modNs; split <;> rfl
@[simp] theorem Dev.modNs_par (n : Nat) (f : Ns → Ns) : (d.modNs n f).par = d.par := by unfold Dev.modNs; split <;> rfl
@[simp] theorem Dev.modNs_stip (n : Nat) (f : Ns → Ns) : (d.modNs n f).stip = d.stip := by unfold Dev.modNs; split <;> rfl
@[simp] theorem Dev.modNs_ciph (n : Nat) (f : Ns → Ns) : (d.modNs n f).ciph = d.ciph := by unfold Dev.modNs; split <;> rfl
@[simp] theorem Dev.modNs_dram (n : Nat) (f : Ns → Ns) : (d.modNs n f).dram = d.dram := by unfold Dev.modNs; split <;> rfl
@[simp] theorem Dev.modNs_pool (n : Nat) (f : Ns → Ns) : (d.modNs n f).pool = d.pool := by unfold Dev.modNs; split <;> rfl
@[simp] theorem Dev.modNs_host (n : Nat) (f : Ns → Ns) : (d.modNs n f).host = d.host := by unfold Dev.modNs; split <;> rfl
@[simp] theorem Dev.modNs_med (n : Nat) (f : Ns → Ns) : (d.modNs n f).med = d.med := by unfold Dev.modNs; split <;> rfl
@[simp] theorem Dev.modNs_cam (n : Nat) (f : Ns → Ns) : (d.modNs n f).cam = d.cam := by unfold Dev.modNs; split <;> rfl
@[simp] theorem Dev.modNs_grv (n : Nat) (f : Ns → Ns) : (d.modNs n f).grv = d.grv := by unfold Dev.modNs; split <;> rfl
@[simp] theorem Dev.modNs_jnm (n : Nat) (f : Ns → Ns) : (d.modNs n f).jnm = d.jnm := by unfold Dev.modNs; split <;> rfl
@[simp] theorem Dev.modNs_pwr (n : Nat) (f : Ns → Ns) : (d.modNs n f).pwr = d.pwr := by unfold Dev.modNs; split <;> rfl
@[simp] theorem Dev.modNs_nvm (n : Nat) (f : Ns → Ns) : (d.modNs n f).nvm = d.nvm := by unfold Dev.modNs; split <;> rfl
@[simp] theorem Dev.modNs_sys (n : Nat) (f : Ns → Ns) : (d.modNs n f).sys = d.sys := by unfold Dev.modNs; split <;> rfl
@[simp] theorem Dev.modNs_dlk (n : Nat) (f : Ns → Ns) : (d.modNs n f).dlk = d.dlk := by unfold Dev.modNs; split <;> rfl
@[simp] theorem Dev.modNs_out (n : Nat) (f : Ns → Ns) : (d.modNs n f).out = d.out := by unfold Dev.modNs; split <;> rfl

@[simp] theorem Dev.modZone_nfree (n z : Nat) (f : Zone → Zone) : (d.modZone n z f).nfree = d.nfree := by unfold Dev.modZone; simp only []; split <;> rfl
@[simp] theorem Dev.modZone_regs (n z : Nat) (f : Zone → Zone) : (d.modZone n z f).regs = d.regs := by unfold Dev.modZone; simp only []; split <;> rfl
@[simp] theorem Dev.modZone_bus (n z : Nat) (f : Zone → Zone) : (d.modZone n z f).bus = d.bus := by unfold Dev.modZone; simp only []; split <;> rfl
@[simp] theorem Dev.modZone_strk (n z : Nat) (f : Zone → Zone) : (d.modZone n z f).strk = d.strk := by unfold Dev.modZone; simp only []; split <;> rfl
@[simp] theorem Dev.modZone_chans (n z : Nat) (f : Zone → Zone) : (d.modZone n z f).chans = d.chans := by unfold Dev.modZone; simp only []; split <;> rfl
@[simp] theorem Dev.modZone_media (n z : Nat) (f : Zone → Zone) : (d.modZone n z f).media = d.media := by unfold Dev.modZone; simp only []; split <;> rfl
@[simp] theorem Dev.modZone_ecc (n z : Nat) (f : Zone → Zone) : (d.modZone n z f).ecc = d.ecc := by unfold Dev.modZone; simp only []; split <;> rfl
@[simp] theorem Dev.modZone_par (n z : Nat) (f : Zone → Zone) : (d.modZone n z f).par = d.par := by unfold Dev.modZone; simp only []; split <;> rfl
@[simp] theorem Dev.modZone_stip (n z : Nat) (f : Zone → Zone) : (d.modZone n z f).stip = d.stip := by unfold Dev.modZone; simp only []; split <;> rfl
@[simp] theorem Dev.modZone_ciph (n z : Nat) (f : Zone → Zone) : (d.modZone n z f).ciph = d.ciph := by unfold Dev.modZone; simp only []; split <;> rfl
@[simp] theorem Dev.modZone_dram (n z : Nat) (f : Zone → Zone) : (d.modZone n z f).dram = d.dram := by unfold Dev.modZone; simp only []; split <;> rfl
@[simp] theorem Dev.modZone_pool (n z : Nat) (f : Zone → Zone) : (d.modZone n z f).pool = d.pool := by unfold Dev.modZone; simp only []; split <;> rfl
@[simp] theorem Dev.modZone_host (n z : Nat) (f : Zone → Zone) : (d.modZone n z f).host = d.host := by unfold Dev.modZone; simp only []; split <;> rfl
@[simp] theorem Dev.modZone_med (n z : Nat) (f : Zone → Zone) : (d.modZone n z f).med = d.med := by unfold Dev.modZone; simp only []; split <;> rfl
@[simp] theorem Dev.modZone_cam (n z : Nat) (f : Zone → Zone) : (d.modZone n z f).cam = d.cam := by unfold Dev.modZone; simp only []; split <;> rfl
@[simp] theorem Dev.modZone_jnm (n z : Nat) (f : Zone → Zone) : (d.modZone n z f).jnm = d.jnm := by unfold Dev.modZone; simp only []; split <;> rfl
@[simp] theorem Dev.modZone_pwr (n z : Nat) (f : Zone → Zone) : (d.modZone n z f).pwr = d.pwr := by unfold Dev.modZone; simp only []; split <;> rfl
@[simp] theorem Dev.modZone_nvm (n z : Nat) (f : Zone → Zone) : (d.modZone n z f).nvm = d.nvm := by unfold Dev.modZone; simp only []; split <;> rfl
@[simp] theorem Dev.modZone_sys (n z : Nat) (f : Zone → Zone) : (d.modZone n z f).sys = d.sys := by unfold Dev.modZone; simp only []; split <;> rfl
@[simp] theorem Dev.modZone_dlk (n z : Nat) (f : Zone → Zone) : (d.modZone n z f).dlk = d.dlk := by unfold Dev.modZone; simp only []; split <;> rfl
@[simp] theorem Dev.modZone_out (n z : Nat) (f : Zone → Zone) : (d.modZone n z f).out = d.out := by unfold Dev.modZone; simp only []; split <;> rfl

@[simp] theorem Dev.modRefold_nfree (n : Nat) (f : RefoldJob → RefoldJob) : (d.modRefold n f).nfree = d.nfree := rfl
@[simp] theorem Dev.modRefold_regs (n : Nat) (f : RefoldJob → RefoldJob) : (d.modRefold n f).regs = d.regs := rfl
@[simp] theorem Dev.modRefold_bus (n : Nat) (f : RefoldJob → RefoldJob) : (d.modRefold n f).bus = d.bus := rfl
@[simp] theorem Dev.modRefold_strk (n : Nat) (f : RefoldJob → RefoldJob) : (d.modRefold n f).strk = d.strk := rfl
@[simp] theorem Dev.modRefold_chans (n : Nat) (f : RefoldJob → RefoldJob) : (d.modRefold n f).chans = d.chans := rfl
@[simp] theorem Dev.modRefold_media (n : Nat) (f : RefoldJob → RefoldJob) : (d.modRefold n f).media = d.media := rfl
@[simp] theorem Dev.modRefold_ecc (n : Nat) (f : RefoldJob → RefoldJob) : (d.modRefold n f).ecc = d.ecc := rfl
@[simp] theorem Dev.modRefold_par (n : Nat) (f : RefoldJob → RefoldJob) : (d.modRefold n f).par = d.par := rfl
@[simp] theorem Dev.modRefold_stip (n : Nat) (f : RefoldJob → RefoldJob) : (d.modRefold n f).stip = d.stip := rfl
@[simp] theorem Dev.modRefold_ciph (n : Nat) (f : RefoldJob → RefoldJob) : (d.modRefold n f).ciph = d.ciph := rfl
@[simp] theorem Dev.modRefold_dram (n : Nat) (f : RefoldJob → RefoldJob) : (d.modRefold n f).dram = d.dram := rfl
@[simp] theorem Dev.modRefold_pool (n : Nat) (f : RefoldJob → RefoldJob) : (d.modRefold n f).pool = d.pool := rfl
@[simp] theorem Dev.modRefold_host (n : Nat) (f : RefoldJob → RefoldJob) : (d.modRefold n f).host = d.host := rfl
@[simp] theorem Dev.modRefold_med (n : Nat) (f : RefoldJob → RefoldJob) : (d.modRefold n f).med = d.med := rfl
@[simp] theorem Dev.modRefold_cam (n : Nat) (f : RefoldJob → RefoldJob) : (d.modRefold n f).cam = d.cam := rfl
@[simp] theorem Dev.modRefold_grv (n : Nat) (f : RefoldJob → RefoldJob) : (d.modRefold n f).grv = d.grv := rfl
@[simp] theorem Dev.modRefold_jnm (n : Nat) (f : RefoldJob → RefoldJob) : (d.modRefold n f).jnm = d.jnm := rfl
@[simp] theorem Dev.modRefold_pwr (n : Nat) (f : RefoldJob → RefoldJob) : (d.modRefold n f).pwr = d.pwr := rfl
@[simp] theorem Dev.modRefold_nvm (n : Nat) (f : RefoldJob → RefoldJob) : (d.modRefold n f).nvm = d.nvm := rfl
@[simp] theorem Dev.modRefold_sys (n : Nat) (f : RefoldJob → RefoldJob) : (d.modRefold n f).sys = d.sys := rfl
@[simp] theorem Dev.modRefold_dlk (n : Nat) (f : RefoldJob → RefoldJob) : (d.modRefold n f).dlk = d.dlk := rfl
@[simp] theorem Dev.modRefold_out (n : Nat) (f : RefoldJob → RefoldJob) : (d.modRefold n f).out = d.out := rfl

@[simp] theorem Dev.modJnm_nfree (f : Jnm → Jnm) : (d.modJnm f).nfree = d.nfree := rfl
@[simp] theorem Dev.modJnm_regs (f : Jnm → Jnm) : (d.modJnm f).regs = d.regs := rfl
@[simp] theorem Dev.modJnm_bus (f : Jnm → Jnm) : (d.modJnm f).bus = d.bus := rfl
@[simp] theorem Dev.modJnm_strk (f : Jnm → Jnm) : (d.modJnm f).strk = d.strk := rfl
@[simp] theorem Dev.modJnm_chans (f : Jnm → Jnm) : (d.modJnm f).chans = d.chans := rfl
@[simp] theorem Dev.modJnm_media (f : Jnm → Jnm) : (d.modJnm f).media = d.media := rfl
@[simp] theorem Dev.modJnm_ecc (f : Jnm → Jnm) : (d.modJnm f).ecc = d.ecc := rfl
@[simp] theorem Dev.modJnm_par (f : Jnm → Jnm) : (d.modJnm f).par = d.par := rfl
@[simp] theorem Dev.modJnm_stip (f : Jnm → Jnm) : (d.modJnm f).stip = d.stip := rfl
@[simp] theorem Dev.modJnm_ciph (f : Jnm → Jnm) : (d.modJnm f).ciph = d.ciph := rfl
@[simp] theorem Dev.modJnm_dram (f : Jnm → Jnm) : (d.modJnm f).dram = d.dram := rfl
@[simp] theorem Dev.modJnm_pool (f : Jnm → Jnm) : (d.modJnm f).pool = d.pool := rfl
@[simp] theorem Dev.modJnm_host (f : Jnm → Jnm) : (d.modJnm f).host = d.host := rfl
@[simp] theorem Dev.modJnm_zm (f : Jnm → Jnm) : (d.modJnm f).zm = d.zm := rfl
@[simp] theorem Dev.modJnm_med (f : Jnm → Jnm) : (d.modJnm f).med = d.med := rfl
@[simp] theorem Dev.modJnm_cam (f : Jnm → Jnm) : (d.modJnm f).cam = d.cam := rfl
@[simp] theorem Dev.modJnm_grv (f : Jnm → Jnm) : (d.modJnm f).grv = d.grv := rfl
@[simp] theorem Dev.modJnm_pwr (f : Jnm → Jnm) : (d.modJnm f).pwr = d.pwr := rfl
@[simp] theorem Dev.modJnm_nvm (f : Jnm → Jnm) : (d.modJnm f).nvm = d.nvm := rfl
@[simp] theorem Dev.modJnm_sys (f : Jnm → Jnm) : (d.modJnm f).sys = d.sys := rfl
@[simp] theorem Dev.modJnm_dlk (f : Jnm → Jnm) : (d.modJnm f).dlk = d.dlk := rfl
@[simp] theorem Dev.modJnm_out (f : Jnm → Jnm) : (d.modJnm f).out = d.out := rfl
@[simp] theorem Dev.modJnm_jnm (f : Jnm → Jnm) : (d.modJnm f).jnm = f d.jnm := rfl

@[simp] theorem Dev.modBuf_nfree (b : Nat) (f : JBuf → JBuf) : (d.modBuf b f).nfree = d.nfree := rfl
@[simp] theorem Dev.modBuf_regs (b : Nat) (f : JBuf → JBuf) : (d.modBuf b f).regs = d.regs := rfl
@[simp] theorem Dev.modBuf_bus (b : Nat) (f : JBuf → JBuf) : (d.modBuf b f).bus = d.bus := rfl
@[simp] theorem Dev.modBuf_strk (b : Nat) (f : JBuf → JBuf) : (d.modBuf b f).strk = d.strk := rfl
@[simp] theorem Dev.modBuf_chans (b : Nat) (f : JBuf → JBuf) : (d.modBuf b f).chans = d.chans := rfl
@[simp] theorem Dev.modBuf_media (b : Nat) (f : JBuf → JBuf) : (d.modBuf b f).media = d.media := rfl
@[simp] theorem Dev.modBuf_ecc (b : Nat) (f : JBuf → JBuf) : (d.modBuf b f).ecc = d.ecc := rfl
@[simp] theorem Dev.modBuf_par (b : Nat) (f : JBuf → JBuf) : (d.modBuf b f).par = d.par := rfl
@[simp] theorem Dev.modBuf_stip (b : Nat) (f : JBuf → JBuf) : (d.modBuf b f).stip = d.stip := rfl
@[simp] theorem Dev.modBuf_ciph (b : Nat) (f : JBuf → JBuf) : (d.modBuf b f).ciph = d.ciph := rfl
@[simp] theorem Dev.modBuf_dram (b : Nat) (f : JBuf → JBuf) : (d.modBuf b f).dram = d.dram := rfl
@[simp] theorem Dev.modBuf_pool (b : Nat) (f : JBuf → JBuf) : (d.modBuf b f).pool = d.pool := rfl
@[simp] theorem Dev.modBuf_host (b : Nat) (f : JBuf → JBuf) : (d.modBuf b f).host = d.host := rfl
@[simp] theorem Dev.modBuf_zm (b : Nat) (f : JBuf → JBuf) : (d.modBuf b f).zm = d.zm := rfl
@[simp] theorem Dev.modBuf_med (b : Nat) (f : JBuf → JBuf) : (d.modBuf b f).med = d.med := rfl
@[simp] theorem Dev.modBuf_cam (b : Nat) (f : JBuf → JBuf) : (d.modBuf b f).cam = d.cam := rfl
@[simp] theorem Dev.modBuf_grv (b : Nat) (f : JBuf → JBuf) : (d.modBuf b f).grv = d.grv := rfl
@[simp] theorem Dev.modBuf_pwr (b : Nat) (f : JBuf → JBuf) : (d.modBuf b f).pwr = d.pwr := rfl
@[simp] theorem Dev.modBuf_nvm (b : Nat) (f : JBuf → JBuf) : (d.modBuf b f).nvm = d.nvm := rfl
@[simp] theorem Dev.modBuf_sys (b : Nat) (f : JBuf → JBuf) : (d.modBuf b f).sys = d.sys := rfl
@[simp] theorem Dev.modBuf_dlk (b : Nat) (f : JBuf → JBuf) : (d.modBuf b f).dlk = d.dlk := rfl
@[simp] theorem Dev.modBuf_out (b : Nat) (f : JBuf → JBuf) : (d.modBuf b f).out = d.out := rfl

@[simp] theorem Dev.modOrigin_nfree (o : Nat) (f : Origin → Origin) : (d.modOrigin o f).nfree = d.nfree := rfl
@[simp] theorem Dev.modOrigin_regs (o : Nat) (f : Origin → Origin) : (d.modOrigin o f).regs = d.regs := rfl
@[simp] theorem Dev.modOrigin_bus (o : Nat) (f : Origin → Origin) : (d.modOrigin o f).bus = d.bus := rfl
@[simp] theorem Dev.modOrigin_strk (o : Nat) (f : Origin → Origin) : (d.modOrigin o f).strk = d.strk := rfl
@[simp] theorem Dev.modOrigin_chans (o : Nat) (f : Origin → Origin) : (d.modOrigin o f).chans = d.chans := rfl
@[simp] theorem Dev.modOrigin_media (o : Nat) (f : Origin → Origin) : (d.modOrigin o f).media = d.media := rfl
@[simp] theorem Dev.modOrigin_ecc (o : Nat) (f : Origin → Origin) : (d.modOrigin o f).ecc = d.ecc := rfl
@[simp] theorem Dev.modOrigin_par (o : Nat) (f : Origin → Origin) : (d.modOrigin o f).par = d.par := rfl
@[simp] theorem Dev.modOrigin_stip (o : Nat) (f : Origin → Origin) : (d.modOrigin o f).stip = d.stip := rfl
@[simp] theorem Dev.modOrigin_ciph (o : Nat) (f : Origin → Origin) : (d.modOrigin o f).ciph = d.ciph := rfl
@[simp] theorem Dev.modOrigin_dram (o : Nat) (f : Origin → Origin) : (d.modOrigin o f).dram = d.dram := rfl
@[simp] theorem Dev.modOrigin_pool (o : Nat) (f : Origin → Origin) : (d.modOrigin o f).pool = d.pool := rfl
@[simp] theorem Dev.modOrigin_host (o : Nat) (f : Origin → Origin) : (d.modOrigin o f).host = d.host := rfl
@[simp] theorem Dev.modOrigin_zm (o : Nat) (f : Origin → Origin) : (d.modOrigin o f).zm = d.zm := rfl
@[simp] theorem Dev.modOrigin_med (o : Nat) (f : Origin → Origin) : (d.modOrigin o f).med = d.med := rfl
@[simp] theorem Dev.modOrigin_cam (o : Nat) (f : Origin → Origin) : (d.modOrigin o f).cam = d.cam := rfl
@[simp] theorem Dev.modOrigin_grv (o : Nat) (f : Origin → Origin) : (d.modOrigin o f).grv = d.grv := rfl
@[simp] theorem Dev.modOrigin_pwr (o : Nat) (f : Origin → Origin) : (d.modOrigin o f).pwr = d.pwr := rfl
@[simp] theorem Dev.modOrigin_nvm (o : Nat) (f : Origin → Origin) : (d.modOrigin o f).nvm = d.nvm := rfl
@[simp] theorem Dev.modOrigin_sys (o : Nat) (f : Origin → Origin) : (d.modOrigin o f).sys = d.sys := rfl
@[simp] theorem Dev.modOrigin_dlk (o : Nat) (f : Origin → Origin) : (d.modOrigin o f).dlk = d.dlk := rfl
@[simp] theorem Dev.modOrigin_out (o : Nat) (f : Origin → Origin) : (d.modOrigin o f).out = d.out := rfl

@[simp] theorem Dev.modDlk_nfree (f : Dlk → Dlk) : (d.modDlk f).nfree = d.nfree := rfl
@[simp] theorem Dev.modDlk_regs (f : Dlk → Dlk) : (d.modDlk f).regs = d.regs := rfl
@[simp] theorem Dev.modDlk_bus (f : Dlk → Dlk) : (d.modDlk f).bus = d.bus := rfl
@[simp] theorem Dev.modDlk_strk (f : Dlk → Dlk) : (d.modDlk f).strk = d.strk := rfl
@[simp] theorem Dev.modDlk_chans (f : Dlk → Dlk) : (d.modDlk f).chans = d.chans := rfl
@[simp] theorem Dev.modDlk_media (f : Dlk → Dlk) : (d.modDlk f).media = d.media := rfl
@[simp] theorem Dev.modDlk_ecc (f : Dlk → Dlk) : (d.modDlk f).ecc = d.ecc := rfl
@[simp] theorem Dev.modDlk_par (f : Dlk → Dlk) : (d.modDlk f).par = d.par := rfl
@[simp] theorem Dev.modDlk_stip (f : Dlk → Dlk) : (d.modDlk f).stip = d.stip := rfl
@[simp] theorem Dev.modDlk_ciph (f : Dlk → Dlk) : (d.modDlk f).ciph = d.ciph := rfl
@[simp] theorem Dev.modDlk_dram (f : Dlk → Dlk) : (d.modDlk f).dram = d.dram := rfl
@[simp] theorem Dev.modDlk_pool (f : Dlk → Dlk) : (d.modDlk f).pool = d.pool := rfl
@[simp] theorem Dev.modDlk_host (f : Dlk → Dlk) : (d.modDlk f).host = d.host := rfl
@[simp] theorem Dev.modDlk_zm (f : Dlk → Dlk) : (d.modDlk f).zm = d.zm := rfl
@[simp] theorem Dev.modDlk_med (f : Dlk → Dlk) : (d.modDlk f).med = d.med := rfl
@[simp] theorem Dev.modDlk_cam (f : Dlk → Dlk) : (d.modDlk f).cam = d.cam := rfl
@[simp] theorem Dev.modDlk_grv (f : Dlk → Dlk) : (d.modDlk f).grv = d.grv := rfl
@[simp] theorem Dev.modDlk_jnm (f : Dlk → Dlk) : (d.modDlk f).jnm = d.jnm := rfl
@[simp] theorem Dev.modDlk_pwr (f : Dlk → Dlk) : (d.modDlk f).pwr = d.pwr := rfl
@[simp] theorem Dev.modDlk_nvm (f : Dlk → Dlk) : (d.modDlk f).nvm = d.nvm := rfl
@[simp] theorem Dev.modDlk_sys (f : Dlk → Dlk) : (d.modDlk f).sys = d.sys := rfl
@[simp] theorem Dev.modDlk_out (f : Dlk → Dlk) : (d.modDlk f).out = d.out := rfl
@[simp] theorem Dev.modDlk_dlk (f : Dlk → Dlk) : (d.modDlk f).dlk = f d.dlk := rfl

@[simp] theorem Dev.modDlkPort_nfree (p : Nat) (f : DlkPort → DlkPort) : (d.modDlkPort p f).nfree = d.nfree := rfl
@[simp] theorem Dev.modDlkPort_regs (p : Nat) (f : DlkPort → DlkPort) : (d.modDlkPort p f).regs = d.regs := rfl
@[simp] theorem Dev.modDlkPort_bus (p : Nat) (f : DlkPort → DlkPort) : (d.modDlkPort p f).bus = d.bus := rfl
@[simp] theorem Dev.modDlkPort_strk (p : Nat) (f : DlkPort → DlkPort) : (d.modDlkPort p f).strk = d.strk := rfl
@[simp] theorem Dev.modDlkPort_chans (p : Nat) (f : DlkPort → DlkPort) : (d.modDlkPort p f).chans = d.chans := rfl
@[simp] theorem Dev.modDlkPort_media (p : Nat) (f : DlkPort → DlkPort) : (d.modDlkPort p f).media = d.media := rfl
@[simp] theorem Dev.modDlkPort_ecc (p : Nat) (f : DlkPort → DlkPort) : (d.modDlkPort p f).ecc = d.ecc := rfl
@[simp] theorem Dev.modDlkPort_par (p : Nat) (f : DlkPort → DlkPort) : (d.modDlkPort p f).par = d.par := rfl
@[simp] theorem Dev.modDlkPort_stip (p : Nat) (f : DlkPort → DlkPort) : (d.modDlkPort p f).stip = d.stip := rfl
@[simp] theorem Dev.modDlkPort_ciph (p : Nat) (f : DlkPort → DlkPort) : (d.modDlkPort p f).ciph = d.ciph := rfl
@[simp] theorem Dev.modDlkPort_dram (p : Nat) (f : DlkPort → DlkPort) : (d.modDlkPort p f).dram = d.dram := rfl
@[simp] theorem Dev.modDlkPort_pool (p : Nat) (f : DlkPort → DlkPort) : (d.modDlkPort p f).pool = d.pool := rfl
@[simp] theorem Dev.modDlkPort_host (p : Nat) (f : DlkPort → DlkPort) : (d.modDlkPort p f).host = d.host := rfl
@[simp] theorem Dev.modDlkPort_zm (p : Nat) (f : DlkPort → DlkPort) : (d.modDlkPort p f).zm = d.zm := rfl
@[simp] theorem Dev.modDlkPort_med (p : Nat) (f : DlkPort → DlkPort) : (d.modDlkPort p f).med = d.med := rfl
@[simp] theorem Dev.modDlkPort_cam (p : Nat) (f : DlkPort → DlkPort) : (d.modDlkPort p f).cam = d.cam := rfl
@[simp] theorem Dev.modDlkPort_grv (p : Nat) (f : DlkPort → DlkPort) : (d.modDlkPort p f).grv = d.grv := rfl
@[simp] theorem Dev.modDlkPort_jnm (p : Nat) (f : DlkPort → DlkPort) : (d.modDlkPort p f).jnm = d.jnm := rfl
@[simp] theorem Dev.modDlkPort_pwr (p : Nat) (f : DlkPort → DlkPort) : (d.modDlkPort p f).pwr = d.pwr := rfl
@[simp] theorem Dev.modDlkPort_nvm (p : Nat) (f : DlkPort → DlkPort) : (d.modDlkPort p f).nvm = d.nvm := rfl
@[simp] theorem Dev.modDlkPort_sys (p : Nat) (f : DlkPort → DlkPort) : (d.modDlkPort p f).sys = d.sys := rfl
@[simp] theorem Dev.modDlkPort_out (p : Nat) (f : DlkPort → DlkPort) : (d.modDlkPort p f).out = d.out := rfl

@[simp] theorem Dev.modNvm_nfree (f : Nvm → Nvm) : (d.modNvm f).nfree = d.nfree := rfl
@[simp] theorem Dev.modNvm_regs (f : Nvm → Nvm) : (d.modNvm f).regs = d.regs := rfl
@[simp] theorem Dev.modNvm_bus (f : Nvm → Nvm) : (d.modNvm f).bus = d.bus := rfl
@[simp] theorem Dev.modNvm_strk (f : Nvm → Nvm) : (d.modNvm f).strk = d.strk := rfl
@[simp] theorem Dev.modNvm_chans (f : Nvm → Nvm) : (d.modNvm f).chans = d.chans := rfl
@[simp] theorem Dev.modNvm_media (f : Nvm → Nvm) : (d.modNvm f).media = d.media := rfl
@[simp] theorem Dev.modNvm_ecc (f : Nvm → Nvm) : (d.modNvm f).ecc = d.ecc := rfl
@[simp] theorem Dev.modNvm_par (f : Nvm → Nvm) : (d.modNvm f).par = d.par := rfl
@[simp] theorem Dev.modNvm_stip (f : Nvm → Nvm) : (d.modNvm f).stip = d.stip := rfl
@[simp] theorem Dev.modNvm_ciph (f : Nvm → Nvm) : (d.modNvm f).ciph = d.ciph := rfl
@[simp] theorem Dev.modNvm_dram (f : Nvm → Nvm) : (d.modNvm f).dram = d.dram := rfl
@[simp] theorem Dev.modNvm_pool (f : Nvm → Nvm) : (d.modNvm f).pool = d.pool := rfl
@[simp] theorem Dev.modNvm_host (f : Nvm → Nvm) : (d.modNvm f).host = d.host := rfl
@[simp] theorem Dev.modNvm_zm (f : Nvm → Nvm) : (d.modNvm f).zm = d.zm := rfl
@[simp] theorem Dev.modNvm_med (f : Nvm → Nvm) : (d.modNvm f).med = d.med := rfl
@[simp] theorem Dev.modNvm_cam (f : Nvm → Nvm) : (d.modNvm f).cam = d.cam := rfl
@[simp] theorem Dev.modNvm_grv (f : Nvm → Nvm) : (d.modNvm f).grv = d.grv := rfl
@[simp] theorem Dev.modNvm_jnm (f : Nvm → Nvm) : (d.modNvm f).jnm = d.jnm := rfl
@[simp] theorem Dev.modNvm_pwr (f : Nvm → Nvm) : (d.modNvm f).pwr = d.pwr := rfl
@[simp] theorem Dev.modNvm_sys (f : Nvm → Nvm) : (d.modNvm f).sys = d.sys := rfl
@[simp] theorem Dev.modNvm_dlk (f : Nvm → Nvm) : (d.modNvm f).dlk = d.dlk := rfl
@[simp] theorem Dev.modNvm_out (f : Nvm → Nvm) : (d.modNvm f).out = d.out := rfl
@[simp] theorem Dev.modNvm_nvm (f : Nvm → Nvm) : (d.modNvm f).nvm = f d.nvm := rfl

@[simp] theorem Dev.modSys_nfree (f : Sys → Sys) : (d.modSys f).nfree = d.nfree := rfl
@[simp] theorem Dev.modSys_regs (f : Sys → Sys) : (d.modSys f).regs = d.regs := rfl
@[simp] theorem Dev.modSys_bus (f : Sys → Sys) : (d.modSys f).bus = d.bus := rfl
@[simp] theorem Dev.modSys_strk (f : Sys → Sys) : (d.modSys f).strk = d.strk := rfl
@[simp] theorem Dev.modSys_chans (f : Sys → Sys) : (d.modSys f).chans = d.chans := rfl
@[simp] theorem Dev.modSys_media (f : Sys → Sys) : (d.modSys f).media = d.media := rfl
@[simp] theorem Dev.modSys_ecc (f : Sys → Sys) : (d.modSys f).ecc = d.ecc := rfl
@[simp] theorem Dev.modSys_par (f : Sys → Sys) : (d.modSys f).par = d.par := rfl
@[simp] theorem Dev.modSys_stip (f : Sys → Sys) : (d.modSys f).stip = d.stip := rfl
@[simp] theorem Dev.modSys_ciph (f : Sys → Sys) : (d.modSys f).ciph = d.ciph := rfl
@[simp] theorem Dev.modSys_dram (f : Sys → Sys) : (d.modSys f).dram = d.dram := rfl
@[simp] theorem Dev.modSys_pool (f : Sys → Sys) : (d.modSys f).pool = d.pool := rfl
@[simp] theorem Dev.modSys_host (f : Sys → Sys) : (d.modSys f).host = d.host := rfl
@[simp] theorem Dev.modSys_zm (f : Sys → Sys) : (d.modSys f).zm = d.zm := rfl
@[simp] theorem Dev.modSys_med (f : Sys → Sys) : (d.modSys f).med = d.med := rfl
@[simp] theorem Dev.modSys_cam (f : Sys → Sys) : (d.modSys f).cam = d.cam := rfl
@[simp] theorem Dev.modSys_grv (f : Sys → Sys) : (d.modSys f).grv = d.grv := rfl
@[simp] theorem Dev.modSys_jnm (f : Sys → Sys) : (d.modSys f).jnm = d.jnm := rfl
@[simp] theorem Dev.modSys_pwr (f : Sys → Sys) : (d.modSys f).pwr = d.pwr := rfl
@[simp] theorem Dev.modSys_nvm (f : Sys → Sys) : (d.modSys f).nvm = d.nvm := rfl
@[simp] theorem Dev.modSys_dlk (f : Sys → Sys) : (d.modSys f).dlk = d.dlk := rfl
@[simp] theorem Dev.modSys_out (f : Sys → Sys) : (d.modSys f).out = d.out := rfl
@[simp] theorem Dev.modSys_sys (f : Sys → Sys) : (d.modSys f).sys = f d.sys := rfl

@[simp] theorem Dev.modPwr_nfree (f : Pwr → Pwr) : (d.modPwr f).nfree = d.nfree := rfl
@[simp] theorem Dev.modPwr_regs (f : Pwr → Pwr) : (d.modPwr f).regs = d.regs := rfl
@[simp] theorem Dev.modPwr_bus (f : Pwr → Pwr) : (d.modPwr f).bus = d.bus := rfl
@[simp] theorem Dev.modPwr_strk (f : Pwr → Pwr) : (d.modPwr f).strk = d.strk := rfl
@[simp] theorem Dev.modPwr_chans (f : Pwr → Pwr) : (d.modPwr f).chans = d.chans := rfl
@[simp] theorem Dev.modPwr_media (f : Pwr → Pwr) : (d.modPwr f).media = d.media := rfl
@[simp] theorem Dev.modPwr_ecc (f : Pwr → Pwr) : (d.modPwr f).ecc = d.ecc := rfl
@[simp] theorem Dev.modPwr_par (f : Pwr → Pwr) : (d.modPwr f).par = d.par := rfl
@[simp] theorem Dev.modPwr_stip (f : Pwr → Pwr) : (d.modPwr f).stip = d.stip := rfl
@[simp] theorem Dev.modPwr_ciph (f : Pwr → Pwr) : (d.modPwr f).ciph = d.ciph := rfl
@[simp] theorem Dev.modPwr_dram (f : Pwr → Pwr) : (d.modPwr f).dram = d.dram := rfl
@[simp] theorem Dev.modPwr_pool (f : Pwr → Pwr) : (d.modPwr f).pool = d.pool := rfl
@[simp] theorem Dev.modPwr_host (f : Pwr → Pwr) : (d.modPwr f).host = d.host := rfl
@[simp] theorem Dev.modPwr_zm (f : Pwr → Pwr) : (d.modPwr f).zm = d.zm := rfl
@[simp] theorem Dev.modPwr_med (f : Pwr → Pwr) : (d.modPwr f).med = d.med := rfl
@[simp] theorem Dev.modPwr_cam (f : Pwr → Pwr) : (d.modPwr f).cam = d.cam := rfl
@[simp] theorem Dev.modPwr_grv (f : Pwr → Pwr) : (d.modPwr f).grv = d.grv := rfl
@[simp] theorem Dev.modPwr_jnm (f : Pwr → Pwr) : (d.modPwr f).jnm = d.jnm := rfl
@[simp] theorem Dev.modPwr_nvm (f : Pwr → Pwr) : (d.modPwr f).nvm = d.nvm := rfl
@[simp] theorem Dev.modPwr_sys (f : Pwr → Pwr) : (d.modPwr f).sys = d.sys := rfl
@[simp] theorem Dev.modPwr_dlk (f : Pwr → Pwr) : (d.modPwr f).dlk = d.dlk := rfl
@[simp] theorem Dev.modPwr_out (f : Pwr → Pwr) : (d.modPwr f).out = d.out := rfl
@[simp] theorem Dev.modPwr_pwr (f : Pwr → Pwr) : (d.modPwr f).pwr = f d.pwr := rfl

@[simp] theorem Dev.setChan_nfree (n : Nat) (c : Chan) : (d.setChan n c).nfree = d.nfree := rfl
@[simp] theorem Dev.setChan_regs (n : Nat) (c : Chan) : (d.setChan n c).regs = d.regs := rfl
@[simp] theorem Dev.setChan_bus (n : Nat) (c : Chan) : (d.setChan n c).bus = d.bus := rfl
@[simp] theorem Dev.setChan_strk (n : Nat) (c : Chan) : (d.setChan n c).strk = d.strk := rfl
@[simp] theorem Dev.setChan_media (n : Nat) (c : Chan) : (d.setChan n c).media = d.media := rfl
@[simp] theorem Dev.setChan_ecc (n : Nat) (c : Chan) : (d.setChan n c).ecc = d.ecc := rfl
@[simp] theorem Dev.setChan_par (n : Nat) (c : Chan) : (d.setChan n c).par = d.par := rfl
@[simp] theorem Dev.setChan_stip (n : Nat) (c : Chan) : (d.setChan n c).stip = d.stip := rfl
@[simp] theorem Dev.setChan_ciph (n : Nat) (c : Chan) : (d.setChan n c).ciph = d.ciph := rfl
@[simp] theorem Dev.setChan_dram (n : Nat) (c : Chan) : (d.setChan n c).dram = d.dram := rfl
@[simp] theorem Dev.setChan_pool (n : Nat) (c : Chan) : (d.setChan n c).pool = d.pool := rfl
@[simp] theorem Dev.setChan_host (n : Nat) (c : Chan) : (d.setChan n c).host = d.host := rfl
@[simp] theorem Dev.setChan_zm (n : Nat) (c : Chan) : (d.setChan n c).zm = d.zm := rfl
@[simp] theorem Dev.setChan_med (n : Nat) (c : Chan) : (d.setChan n c).med = d.med := rfl
@[simp] theorem Dev.setChan_cam (n : Nat) (c : Chan) : (d.setChan n c).cam = d.cam := rfl
@[simp] theorem Dev.setChan_grv (n : Nat) (c : Chan) : (d.setChan n c).grv = d.grv := rfl
@[simp] theorem Dev.setChan_jnm (n : Nat) (c : Chan) : (d.setChan n c).jnm = d.jnm := rfl
@[simp] theorem Dev.setChan_pwr (n : Nat) (c : Chan) : (d.setChan n c).pwr = d.pwr := rfl
@[simp] theorem Dev.setChan_nvm (n : Nat) (c : Chan) : (d.setChan n c).nvm = d.nvm := rfl
@[simp] theorem Dev.setChan_sys (n : Nat) (c : Chan) : (d.setChan n c).sys = d.sys := rfl
@[simp] theorem Dev.setChan_dlk (n : Nat) (c : Chan) : (d.setChan n c).dlk = d.dlk := rfl
@[simp] theorem Dev.setChan_out (n : Nat) (c : Chan) : (d.setChan n c).out = d.out := rfl

@[simp] theorem Dev.modChan_nfree (n : Nat) (f : Chan → Chan) : (d.modChan n f).nfree = d.nfree := rfl
@[simp] theorem Dev.modChan_regs (n : Nat) (f : Chan → Chan) : (d.modChan n f).regs = d.regs := rfl
@[simp] theorem Dev.modChan_bus (n : Nat) (f : Chan → Chan) : (d.modChan n f).bus = d.bus := rfl
@[simp] theorem Dev.modChan_strk (n : Nat) (f : Chan → Chan) : (d.modChan n f).strk = d.strk := rfl
@[simp] theorem Dev.modChan_media (n : Nat) (f : Chan → Chan) : (d.modChan n f).media = d.media := rfl
@[simp] theorem Dev.modChan_ecc (n : Nat) (f : Chan → Chan) : (d.modChan n f).ecc = d.ecc := rfl
@[simp] theorem Dev.modChan_par (n : Nat) (f : Chan → Chan) : (d.modChan n f).par = d.par := rfl
@[simp] theorem Dev.modChan_stip (n : Nat) (f : Chan → Chan) : (d.modChan n f).stip = d.stip := rfl
@[simp] theorem Dev.modChan_ciph (n : Nat) (f : Chan → Chan) : (d.modChan n f).ciph = d.ciph := rfl
@[simp] theorem Dev.modChan_dram (n : Nat) (f : Chan → Chan) : (d.modChan n f).dram = d.dram := rfl
@[simp] theorem Dev.modChan_pool (n : Nat) (f : Chan → Chan) : (d.modChan n f).pool = d.pool := rfl
@[simp] theorem Dev.modChan_host (n : Nat) (f : Chan → Chan) : (d.modChan n f).host = d.host := rfl
@[simp] theorem Dev.modChan_zm (n : Nat) (f : Chan → Chan) : (d.modChan n f).zm = d.zm := rfl
@[simp] theorem Dev.modChan_med (n : Nat) (f : Chan → Chan) : (d.modChan n f).med = d.med := rfl
@[simp] theorem Dev.modChan_cam (n : Nat) (f : Chan → Chan) : (d.modChan n f).cam = d.cam := rfl
@[simp] theorem Dev.modChan_grv (n : Nat) (f : Chan → Chan) : (d.modChan n f).grv = d.grv := rfl
@[simp] theorem Dev.modChan_jnm (n : Nat) (f : Chan → Chan) : (d.modChan n f).jnm = d.jnm := rfl
@[simp] theorem Dev.modChan_pwr (n : Nat) (f : Chan → Chan) : (d.modChan n f).pwr = d.pwr := rfl
@[simp] theorem Dev.modChan_nvm (n : Nat) (f : Chan → Chan) : (d.modChan n f).nvm = d.nvm := rfl
@[simp] theorem Dev.modChan_sys (n : Nat) (f : Chan → Chan) : (d.modChan n f).sys = d.sys := rfl
@[simp] theorem Dev.modChan_dlk (n : Nat) (f : Chan → Chan) : (d.modChan n f).dlk = d.dlk := rfl
@[simp] theorem Dev.modChan_out (n : Nat) (f : Chan → Chan) : (d.modChan n f).out = d.out := rfl

@[simp] theorem Dev.modDie_nfree (n t : Nat) (f : Die → Die) : (d.modDie n t f).nfree = d.nfree := rfl
@[simp] theorem Dev.modDie_regs (n t : Nat) (f : Die → Die) : (d.modDie n t f).regs = d.regs := rfl
@[simp] theorem Dev.modDie_bus (n t : Nat) (f : Die → Die) : (d.modDie n t f).bus = d.bus := rfl
@[simp] theorem Dev.modDie_strk (n t : Nat) (f : Die → Die) : (d.modDie n t f).strk = d.strk := rfl
@[simp] theorem Dev.modDie_media (n t : Nat) (f : Die → Die) : (d.modDie n t f).media = d.media := rfl
@[simp] theorem Dev.modDie_ecc (n t : Nat) (f : Die → Die) : (d.modDie n t f).ecc = d.ecc := rfl
@[simp] theorem Dev.modDie_par (n t : Nat) (f : Die → Die) : (d.modDie n t f).par = d.par := rfl
@[simp] theorem Dev.modDie_stip (n t : Nat) (f : Die → Die) : (d.modDie n t f).stip = d.stip := rfl
@[simp] theorem Dev.modDie_ciph (n t : Nat) (f : Die → Die) : (d.modDie n t f).ciph = d.ciph := rfl
@[simp] theorem Dev.modDie_dram (n t : Nat) (f : Die → Die) : (d.modDie n t f).dram = d.dram := rfl
@[simp] theorem Dev.modDie_pool (n t : Nat) (f : Die → Die) : (d.modDie n t f).pool = d.pool := rfl
@[simp] theorem Dev.modDie_host (n t : Nat) (f : Die → Die) : (d.modDie n t f).host = d.host := rfl
@[simp] theorem Dev.modDie_zm (n t : Nat) (f : Die → Die) : (d.modDie n t f).zm = d.zm := rfl
@[simp] theorem Dev.modDie_med (n t : Nat) (f : Die → Die) : (d.modDie n t f).med = d.med := rfl
@[simp] theorem Dev.modDie_cam (n t : Nat) (f : Die → Die) : (d.modDie n t f).cam = d.cam := rfl
@[simp] theorem Dev.modDie_grv (n t : Nat) (f : Die → Die) : (d.modDie n t f).grv = d.grv := rfl
@[simp] theorem Dev.modDie_jnm (n t : Nat) (f : Die → Die) : (d.modDie n t f).jnm = d.jnm := rfl
@[simp] theorem Dev.modDie_pwr (n t : Nat) (f : Die → Die) : (d.modDie n t f).pwr = d.pwr := rfl
@[simp] theorem Dev.modDie_nvm (n t : Nat) (f : Die → Die) : (d.modDie n t f).nvm = d.nvm := rfl
@[simp] theorem Dev.modDie_sys (n t : Nat) (f : Die → Die) : (d.modDie n t f).sys = d.sys := rfl
@[simp] theorem Dev.modDie_dlk (n t : Nat) (f : Die → Die) : (d.modDie n t f).dlk = d.dlk := rfl
@[simp] theorem Dev.modDie_out (n t : Nat) (f : Die → Die) : (d.modDie n t f).out = d.out := rfl

@[simp] theorem Dev.modMed_nfree (f : Med → Med) : (d.modMed f).nfree = d.nfree := rfl
@[simp] theorem Dev.modMed_regs (f : Med → Med) : (d.modMed f).regs = d.regs := rfl
@[simp] theorem Dev.modMed_bus (f : Med → Med) : (d.modMed f).bus = d.bus := rfl
@[simp] theorem Dev.modMed_strk (f : Med → Med) : (d.modMed f).strk = d.strk := rfl
@[simp] theorem Dev.modMed_chans (f : Med → Med) : (d.modMed f).chans = d.chans := rfl
@[simp] theorem Dev.modMed_media (f : Med → Med) : (d.modMed f).media = d.media := rfl
@[simp] theorem Dev.modMed_ecc (f : Med → Med) : (d.modMed f).ecc = d.ecc := rfl
@[simp] theorem Dev.modMed_par (f : Med → Med) : (d.modMed f).par = d.par := rfl
@[simp] theorem Dev.modMed_stip (f : Med → Med) : (d.modMed f).stip = d.stip := rfl
@[simp] theorem Dev.modMed_ciph (f : Med → Med) : (d.modMed f).ciph = d.ciph := rfl
@[simp] theorem Dev.modMed_dram (f : Med → Med) : (d.modMed f).dram = d.dram := rfl
@[simp] theorem Dev.modMed_pool (f : Med → Med) : (d.modMed f).pool = d.pool := rfl
@[simp] theorem Dev.modMed_host (f : Med → Med) : (d.modMed f).host = d.host := rfl
@[simp] theorem Dev.modMed_zm (f : Med → Med) : (d.modMed f).zm = d.zm := rfl
@[simp] theorem Dev.modMed_cam (f : Med → Med) : (d.modMed f).cam = d.cam := rfl
@[simp] theorem Dev.modMed_grv (f : Med → Med) : (d.modMed f).grv = d.grv := rfl
@[simp] theorem Dev.modMed_jnm (f : Med → Med) : (d.modMed f).jnm = d.jnm := rfl
@[simp] theorem Dev.modMed_pwr (f : Med → Med) : (d.modMed f).pwr = d.pwr := rfl
@[simp] theorem Dev.modMed_nvm (f : Med → Med) : (d.modMed f).nvm = d.nvm := rfl
@[simp] theorem Dev.modMed_sys (f : Med → Med) : (d.modMed f).sys = d.sys := rfl
@[simp] theorem Dev.modMed_dlk (f : Med → Med) : (d.modMed f).dlk = d.dlk := rfl
@[simp] theorem Dev.modMed_out (f : Med → Med) : (d.modMed f).out = d.out := rfl
@[simp] theorem Dev.modMed_med (f : Med → Med) : (d.modMed f).med = f d.med := rfl

@[simp] theorem Dev.modRow_nfree (g r : Nat) (f : Row → Row) : (d.modRow g r f).nfree = d.nfree := rfl
@[simp] theorem Dev.modRow_regs (g r : Nat) (f : Row → Row) : (d.modRow g r f).regs = d.regs := rfl
@[simp] theorem Dev.modRow_bus (g r : Nat) (f : Row → Row) : (d.modRow g r f).bus = d.bus := rfl
@[simp] theorem Dev.modRow_strk (g r : Nat) (f : Row → Row) : (d.modRow g r f).strk = d.strk := rfl
@[simp] theorem Dev.modRow_chans (g r : Nat) (f : Row → Row) : (d.modRow g r f).chans = d.chans := rfl
@[simp] theorem Dev.modRow_media (g r : Nat) (f : Row → Row) : (d.modRow g r f).media = d.media := rfl
@[simp] theorem Dev.modRow_ecc (g r : Nat) (f : Row → Row) : (d.modRow g r f).ecc = d.ecc := rfl
@[simp] theorem Dev.modRow_par (g r : Nat) (f : Row → Row) : (d.modRow g r f).par = d.par := rfl
@[simp] theorem Dev.modRow_stip (g r : Nat) (f : Row → Row) : (d.modRow g r f).stip = d.stip := rfl
@[simp] theorem Dev.modRow_ciph (g r : Nat) (f : Row → Row) : (d.modRow g r f).ciph = d.ciph := rfl
@[simp] theorem Dev.modRow_dram (g r : Nat) (f : Row → Row) : (d.modRow g r f).dram = d.dram := rfl
@[simp] theorem Dev.modRow_pool (g r : Nat) (f : Row → Row) : (d.modRow g r f).pool = d.pool := rfl
@[simp] theorem Dev.modRow_host (g r : Nat) (f : Row → Row) : (d.modRow g r f).host = d.host := rfl
@[simp] theorem Dev.modRow_zm (g r : Nat) (f : Row → Row) : (d.modRow g r f).zm = d.zm := rfl
@[simp] theorem Dev.modRow_cam (g r : Nat) (f : Row → Row) : (d.modRow g r f).cam = d.cam := rfl
@[simp] theorem Dev.modRow_grv (g r : Nat) (f : Row → Row) : (d.modRow g r f).grv = d.grv := rfl
@[simp] theorem Dev.modRow_jnm (g r : Nat) (f : Row → Row) : (d.modRow g r f).jnm = d.jnm := rfl
@[simp] theorem Dev.modRow_pwr (g r : Nat) (f : Row → Row) : (d.modRow g r f).pwr = d.pwr := rfl
@[simp] theorem Dev.modRow_nvm (g r : Nat) (f : Row → Row) : (d.modRow g r f).nvm = d.nvm := rfl
@[simp] theorem Dev.modRow_sys (g r : Nat) (f : Row → Row) : (d.modRow g r f).sys = d.sys := rfl
@[simp] theorem Dev.modRow_dlk (g r : Nat) (f : Row → Row) : (d.modRow g r f).dlk = d.dlk := rfl
@[simp] theorem Dev.modRow_out (g r : Nat) (f : Row → Row) : (d.modRow g r f).out = d.out := rfl

@[simp] theorem Dev.modPar_nfree (f : Par → Par) : (d.modPar f).nfree = d.nfree := rfl
@[simp] theorem Dev.modPar_regs (f : Par → Par) : (d.modPar f).regs = d.regs := rfl
@[simp] theorem Dev.modPar_bus (f : Par → Par) : (d.modPar f).bus = d.bus := rfl
@[simp] theorem Dev.modPar_strk (f : Par → Par) : (d.modPar f).strk = d.strk := rfl
@[simp] theorem Dev.modPar_chans (f : Par → Par) : (d.modPar f).chans = d.chans := rfl
@[simp] theorem Dev.modPar_media (f : Par → Par) : (d.modPar f).media = d.media := rfl
@[simp] theorem Dev.modPar_ecc (f : Par → Par) : (d.modPar f).ecc = d.ecc := rfl
@[simp] theorem Dev.modPar_stip (f : Par → Par) : (d.modPar f).stip = d.stip := rfl
@[simp] theorem Dev.modPar_ciph (f : Par → Par) : (d.modPar f).ciph = d.ciph := rfl
@[simp] theorem Dev.modPar_dram (f : Par → Par) : (d.modPar f).dram = d.dram := rfl
@[simp] theorem Dev.modPar_pool (f : Par → Par) : (d.modPar f).pool = d.pool := rfl
@[simp] theorem Dev.modPar_host (f : Par → Par) : (d.modPar f).host = d.host := rfl
@[simp] theorem Dev.modPar_zm (f : Par → Par) : (d.modPar f).zm = d.zm := rfl
@[simp] theorem Dev.modPar_med (f : Par → Par) : (d.modPar f).med = d.med := rfl
@[simp] theorem Dev.modPar_cam (f : Par → Par) : (d.modPar f).cam = d.cam := rfl
@[simp] theorem Dev.modPar_grv (f : Par → Par) : (d.modPar f).grv = d.grv := rfl
@[simp] theorem Dev.modPar_jnm (f : Par → Par) : (d.modPar f).jnm = d.jnm := rfl
@[simp] theorem Dev.modPar_pwr (f : Par → Par) : (d.modPar f).pwr = d.pwr := rfl
@[simp] theorem Dev.modPar_nvm (f : Par → Par) : (d.modPar f).nvm = d.nvm := rfl
@[simp] theorem Dev.modPar_sys (f : Par → Par) : (d.modPar f).sys = d.sys := rfl
@[simp] theorem Dev.modPar_dlk (f : Par → Par) : (d.modPar f).dlk = d.dlk := rfl
@[simp] theorem Dev.modPar_out (f : Par → Par) : (d.modPar f).out = d.out := rfl
@[simp] theorem Dev.modPar_par (f : Par → Par) : (d.modPar f).par = f d.par := rfl

@[simp] theorem Dev.setJob_nfree (e k : Nat) (j : ParJob) : (d.setJob e k j).nfree = d.nfree := rfl
@[simp] theorem Dev.setJob_regs (e k : Nat) (j : ParJob) : (d.setJob e k j).regs = d.regs := rfl
@[simp] theorem Dev.setJob_bus (e k : Nat) (j : ParJob) : (d.setJob e k j).bus = d.bus := rfl
@[simp] theorem Dev.setJob_strk (e k : Nat) (j : ParJob) : (d.setJob e k j).strk = d.strk := rfl
@[simp] theorem Dev.setJob_chans (e k : Nat) (j : ParJob) : (d.setJob e k j).chans = d.chans := rfl
@[simp] theorem Dev.setJob_media (e k : Nat) (j : ParJob) : (d.setJob e k j).media = d.media := rfl
@[simp] theorem Dev.setJob_ecc (e k : Nat) (j : ParJob) : (d.setJob e k j).ecc = d.ecc := rfl
@[simp] theorem Dev.setJob_stip (e k : Nat) (j : ParJob) : (d.setJob e k j).stip = d.stip := rfl
@[simp] theorem Dev.setJob_ciph (e k : Nat) (j : ParJob) : (d.setJob e k j).ciph = d.ciph := rfl
@[simp] theorem Dev.setJob_dram (e k : Nat) (j : ParJob) : (d.setJob e k j).dram = d.dram := rfl
@[simp] theorem Dev.setJob_pool (e k : Nat) (j : ParJob) : (d.setJob e k j).pool = d.pool := rfl
@[simp] theorem Dev.setJob_host (e k : Nat) (j : ParJob) : (d.setJob e k j).host = d.host := rfl
@[simp] theorem Dev.setJob_zm (e k : Nat) (j : ParJob) : (d.setJob e k j).zm = d.zm := rfl
@[simp] theorem Dev.setJob_med (e k : Nat) (j : ParJob) : (d.setJob e k j).med = d.med := rfl
@[simp] theorem Dev.setJob_cam (e k : Nat) (j : ParJob) : (d.setJob e k j).cam = d.cam := rfl
@[simp] theorem Dev.setJob_grv (e k : Nat) (j : ParJob) : (d.setJob e k j).grv = d.grv := rfl
@[simp] theorem Dev.setJob_jnm (e k : Nat) (j : ParJob) : (d.setJob e k j).jnm = d.jnm := rfl
@[simp] theorem Dev.setJob_pwr (e k : Nat) (j : ParJob) : (d.setJob e k j).pwr = d.pwr := rfl
@[simp] theorem Dev.setJob_nvm (e k : Nat) (j : ParJob) : (d.setJob e k j).nvm = d.nvm := rfl
@[simp] theorem Dev.setJob_sys (e k : Nat) (j : ParJob) : (d.setJob e k j).sys = d.sys := rfl
@[simp] theorem Dev.setJob_dlk (e k : Nat) (j : ParJob) : (d.setJob e k j).dlk = d.dlk := rfl
@[simp] theorem Dev.setJob_out (e k : Nat) (j : ParJob) : (d.setJob e k j).out = d.out := rfl

@[simp] theorem Dev.modStip_nfree (n : Nat) (f : StipChan → StipChan) : (d.modStip n f).nfree = d.nfree := rfl
@[simp] theorem Dev.modStip_regs (n : Nat) (f : StipChan → StipChan) : (d.modStip n f).regs = d.regs := rfl
@[simp] theorem Dev.modStip_bus (n : Nat) (f : StipChan → StipChan) : (d.modStip n f).bus = d.bus := rfl
@[simp] theorem Dev.modStip_strk (n : Nat) (f : StipChan → StipChan) : (d.modStip n f).strk = d.strk := rfl
@[simp] theorem Dev.modStip_chans (n : Nat) (f : StipChan → StipChan) : (d.modStip n f).chans = d.chans := rfl
@[simp] theorem Dev.modStip_media (n : Nat) (f : StipChan → StipChan) : (d.modStip n f).media = d.media := rfl
@[simp] theorem Dev.modStip_ecc (n : Nat) (f : StipChan → StipChan) : (d.modStip n f).ecc = d.ecc := rfl
@[simp] theorem Dev.modStip_par (n : Nat) (f : StipChan → StipChan) : (d.modStip n f).par = d.par := rfl
@[simp] theorem Dev.modStip_ciph (n : Nat) (f : StipChan → StipChan) : (d.modStip n f).ciph = d.ciph := rfl
@[simp] theorem Dev.modStip_dram (n : Nat) (f : StipChan → StipChan) : (d.modStip n f).dram = d.dram := rfl
@[simp] theorem Dev.modStip_pool (n : Nat) (f : StipChan → StipChan) : (d.modStip n f).pool = d.pool := rfl
@[simp] theorem Dev.modStip_host (n : Nat) (f : StipChan → StipChan) : (d.modStip n f).host = d.host := rfl
@[simp] theorem Dev.modStip_zm (n : Nat) (f : StipChan → StipChan) : (d.modStip n f).zm = d.zm := rfl
@[simp] theorem Dev.modStip_med (n : Nat) (f : StipChan → StipChan) : (d.modStip n f).med = d.med := rfl
@[simp] theorem Dev.modStip_cam (n : Nat) (f : StipChan → StipChan) : (d.modStip n f).cam = d.cam := rfl
@[simp] theorem Dev.modStip_grv (n : Nat) (f : StipChan → StipChan) : (d.modStip n f).grv = d.grv := rfl
@[simp] theorem Dev.modStip_jnm (n : Nat) (f : StipChan → StipChan) : (d.modStip n f).jnm = d.jnm := rfl
@[simp] theorem Dev.modStip_pwr (n : Nat) (f : StipChan → StipChan) : (d.modStip n f).pwr = d.pwr := rfl
@[simp] theorem Dev.modStip_nvm (n : Nat) (f : StipChan → StipChan) : (d.modStip n f).nvm = d.nvm := rfl
@[simp] theorem Dev.modStip_sys (n : Nat) (f : StipChan → StipChan) : (d.modStip n f).sys = d.sys := rfl
@[simp] theorem Dev.modStip_dlk (n : Nat) (f : StipChan → StipChan) : (d.modStip n f).dlk = d.dlk := rfl
@[simp] theorem Dev.modStip_out (n : Nat) (f : StipChan → StipChan) : (d.modStip n f).out = d.out := rfl

@[simp] theorem Dev.regSet_nfree (r : RegDef) (n i v : Nat) : (d.regSet r n i v).nfree = d.nfree := rfl
@[simp] theorem Dev.regSet_bus (r : RegDef) (n i v : Nat) : (d.regSet r n i v).bus = d.bus := rfl
@[simp] theorem Dev.regSet_strk (r : RegDef) (n i v : Nat) : (d.regSet r n i v).strk = d.strk := rfl
@[simp] theorem Dev.regSet_chans (r : RegDef) (n i v : Nat) : (d.regSet r n i v).chans = d.chans := rfl
@[simp] theorem Dev.regSet_media (r : RegDef) (n i v : Nat) : (d.regSet r n i v).media = d.media := rfl
@[simp] theorem Dev.regSet_ecc (r : RegDef) (n i v : Nat) : (d.regSet r n i v).ecc = d.ecc := rfl
@[simp] theorem Dev.regSet_par (r : RegDef) (n i v : Nat) : (d.regSet r n i v).par = d.par := rfl
@[simp] theorem Dev.regSet_stip (r : RegDef) (n i v : Nat) : (d.regSet r n i v).stip = d.stip := rfl
@[simp] theorem Dev.regSet_ciph (r : RegDef) (n i v : Nat) : (d.regSet r n i v).ciph = d.ciph := rfl
@[simp] theorem Dev.regSet_dram (r : RegDef) (n i v : Nat) : (d.regSet r n i v).dram = d.dram := rfl
@[simp] theorem Dev.regSet_pool (r : RegDef) (n i v : Nat) : (d.regSet r n i v).pool = d.pool := rfl
@[simp] theorem Dev.regSet_host (r : RegDef) (n i v : Nat) : (d.regSet r n i v).host = d.host := rfl
@[simp] theorem Dev.regSet_zm (r : RegDef) (n i v : Nat) : (d.regSet r n i v).zm = d.zm := rfl
@[simp] theorem Dev.regSet_med (r : RegDef) (n i v : Nat) : (d.regSet r n i v).med = d.med := rfl
@[simp] theorem Dev.regSet_cam (r : RegDef) (n i v : Nat) : (d.regSet r n i v).cam = d.cam := rfl
@[simp] theorem Dev.regSet_grv (r : RegDef) (n i v : Nat) : (d.regSet r n i v).grv = d.grv := rfl
@[simp] theorem Dev.regSet_jnm (r : RegDef) (n i v : Nat) : (d.regSet r n i v).jnm = d.jnm := rfl
@[simp] theorem Dev.regSet_pwr (r : RegDef) (n i v : Nat) : (d.regSet r n i v).pwr = d.pwr := rfl
@[simp] theorem Dev.regSet_nvm (r : RegDef) (n i v : Nat) : (d.regSet r n i v).nvm = d.nvm := rfl
@[simp] theorem Dev.regSet_sys (r : RegDef) (n i v : Nat) : (d.regSet r n i v).sys = d.sys := rfl
@[simp] theorem Dev.regSet_dlk (r : RegDef) (n i v : Nat) : (d.regSet r n i v).dlk = d.dlk := rfl
@[simp] theorem Dev.regSet_out (r : RegDef) (n i v : Nat) : (d.regSet r n i v).out = d.out := rfl

@[simp] theorem Dev.wrx_nfree (n i : Nat) (f : Fld) (v : Nat) : (d.wrx n i f v).nfree = d.nfree := rfl
@[simp] theorem Dev.wrx_bus (n i : Nat) (f : Fld) (v : Nat) : (d.wrx n i f v).bus = d.bus := rfl
@[simp] theorem Dev.wrx_strk (n i : Nat) (f : Fld) (v : Nat) : (d.wrx n i f v).strk = d.strk := rfl
@[simp] theorem Dev.wrx_chans (n i : Nat) (f : Fld) (v : Nat) : (d.wrx n i f v).chans = d.chans := rfl
@[simp] theorem Dev.wrx_media (n i : Nat) (f : Fld) (v : Nat) : (d.wrx n i f v).media = d.media := rfl
@[simp] theorem Dev.wrx_ecc (n i : Nat) (f : Fld) (v : Nat) : (d.wrx n i f v).ecc = d.ecc := rfl
@[simp] theorem Dev.wrx_par (n i : Nat) (f : Fld) (v : Nat) : (d.wrx n i f v).par = d.par := rfl
@[simp] theorem Dev.wrx_stip (n i : Nat) (f : Fld) (v : Nat) : (d.wrx n i f v).stip = d.stip := rfl
@[simp] theorem Dev.wrx_ciph (n i : Nat) (f : Fld) (v : Nat) : (d.wrx n i f v).ciph = d.ciph := rfl
@[simp] theorem Dev.wrx_dram (n i : Nat) (f : Fld) (v : Nat) : (d.wrx n i f v).dram = d.dram := rfl
@[simp] theorem Dev.wrx_pool (n i : Nat) (f : Fld) (v : Nat) : (d.wrx n i f v).pool = d.pool := rfl
@[simp] theorem Dev.wrx_host (n i : Nat) (f : Fld) (v : Nat) : (d.wrx n i f v).host = d.host := rfl
@[simp] theorem Dev.wrx_zm (n i : Nat) (f : Fld) (v : Nat) : (d.wrx n i f v).zm = d.zm := rfl
@[simp] theorem Dev.wrx_med (n i : Nat) (f : Fld) (v : Nat) : (d.wrx n i f v).med = d.med := rfl
@[simp] theorem Dev.wrx_cam (n i : Nat) (f : Fld) (v : Nat) : (d.wrx n i f v).cam = d.cam := rfl
@[simp] theorem Dev.wrx_grv (n i : Nat) (f : Fld) (v : Nat) : (d.wrx n i f v).grv = d.grv := rfl
@[simp] theorem Dev.wrx_jnm (n i : Nat) (f : Fld) (v : Nat) : (d.wrx n i f v).jnm = d.jnm := rfl
@[simp] theorem Dev.wrx_pwr (n i : Nat) (f : Fld) (v : Nat) : (d.wrx n i f v).pwr = d.pwr := rfl
@[simp] theorem Dev.wrx_nvm (n i : Nat) (f : Fld) (v : Nat) : (d.wrx n i f v).nvm = d.nvm := rfl
@[simp] theorem Dev.wrx_sys (n i : Nat) (f : Fld) (v : Nat) : (d.wrx n i f v).sys = d.sys := rfl
@[simp] theorem Dev.wrx_dlk (n i : Nat) (f : Fld) (v : Nat) : (d.wrx n i f v).dlk = d.dlk := rfl
@[simp] theorem Dev.wrx_out (n i : Nat) (f : Fld) (v : Nat) : (d.wrx n i f v).out = d.out := rfl

@[simp] theorem Dev.wr_nfree (f : Fld) (v : Nat) : (d.wr f v).nfree = d.nfree := rfl
@[simp] theorem Dev.wr_bus (f : Fld) (v : Nat) : (d.wr f v).bus = d.bus := rfl
@[simp] theorem Dev.wr_strk (f : Fld) (v : Nat) : (d.wr f v).strk = d.strk := rfl
@[simp] theorem Dev.wr_chans (f : Fld) (v : Nat) : (d.wr f v).chans = d.chans := rfl
@[simp] theorem Dev.wr_media (f : Fld) (v : Nat) : (d.wr f v).media = d.media := rfl
@[simp] theorem Dev.wr_ecc (f : Fld) (v : Nat) : (d.wr f v).ecc = d.ecc := rfl
@[simp] theorem Dev.wr_par (f : Fld) (v : Nat) : (d.wr f v).par = d.par := rfl
@[simp] theorem Dev.wr_stip (f : Fld) (v : Nat) : (d.wr f v).stip = d.stip := rfl
@[simp] theorem Dev.wr_ciph (f : Fld) (v : Nat) : (d.wr f v).ciph = d.ciph := rfl
@[simp] theorem Dev.wr_dram (f : Fld) (v : Nat) : (d.wr f v).dram = d.dram := rfl
@[simp] theorem Dev.wr_pool (f : Fld) (v : Nat) : (d.wr f v).pool = d.pool := rfl
@[simp] theorem Dev.wr_host (f : Fld) (v : Nat) : (d.wr f v).host = d.host := rfl
@[simp] theorem Dev.wr_zm (f : Fld) (v : Nat) : (d.wr f v).zm = d.zm := rfl
@[simp] theorem Dev.wr_med (f : Fld) (v : Nat) : (d.wr f v).med = d.med := rfl
@[simp] theorem Dev.wr_cam (f : Fld) (v : Nat) : (d.wr f v).cam = d.cam := rfl
@[simp] theorem Dev.wr_grv (f : Fld) (v : Nat) : (d.wr f v).grv = d.grv := rfl
@[simp] theorem Dev.wr_jnm (f : Fld) (v : Nat) : (d.wr f v).jnm = d.jnm := rfl
@[simp] theorem Dev.wr_pwr (f : Fld) (v : Nat) : (d.wr f v).pwr = d.pwr := rfl
@[simp] theorem Dev.wr_nvm (f : Fld) (v : Nat) : (d.wr f v).nvm = d.nvm := rfl
@[simp] theorem Dev.wr_sys (f : Fld) (v : Nat) : (d.wr f v).sys = d.sys := rfl
@[simp] theorem Dev.wr_dlk (f : Fld) (v : Nat) : (d.wr f v).dlk = d.dlk := rfl
@[simp] theorem Dev.wr_out (f : Fld) (v : Nat) : (d.wr f v).out = d.out := rfl

@[simp] theorem Dev.wrb_nfree (i : Nat) (f : Fld) (v : Nat) : (d.wrb i f v).nfree = d.nfree := rfl
@[simp] theorem Dev.wrb_bus (i : Nat) (f : Fld) (v : Nat) : (d.wrb i f v).bus = d.bus := rfl
@[simp] theorem Dev.wrb_strk (i : Nat) (f : Fld) (v : Nat) : (d.wrb i f v).strk = d.strk := rfl
@[simp] theorem Dev.wrb_chans (i : Nat) (f : Fld) (v : Nat) : (d.wrb i f v).chans = d.chans := rfl
@[simp] theorem Dev.wrb_media (i : Nat) (f : Fld) (v : Nat) : (d.wrb i f v).media = d.media := rfl
@[simp] theorem Dev.wrb_ecc (i : Nat) (f : Fld) (v : Nat) : (d.wrb i f v).ecc = d.ecc := rfl
@[simp] theorem Dev.wrb_par (i : Nat) (f : Fld) (v : Nat) : (d.wrb i f v).par = d.par := rfl
@[simp] theorem Dev.wrb_stip (i : Nat) (f : Fld) (v : Nat) : (d.wrb i f v).stip = d.stip := rfl
@[simp] theorem Dev.wrb_ciph (i : Nat) (f : Fld) (v : Nat) : (d.wrb i f v).ciph = d.ciph := rfl
@[simp] theorem Dev.wrb_dram (i : Nat) (f : Fld) (v : Nat) : (d.wrb i f v).dram = d.dram := rfl
@[simp] theorem Dev.wrb_pool (i : Nat) (f : Fld) (v : Nat) : (d.wrb i f v).pool = d.pool := rfl
@[simp] theorem Dev.wrb_host (i : Nat) (f : Fld) (v : Nat) : (d.wrb i f v).host = d.host := rfl
@[simp] theorem Dev.wrb_zm (i : Nat) (f : Fld) (v : Nat) : (d.wrb i f v).zm = d.zm := rfl
@[simp] theorem Dev.wrb_med (i : Nat) (f : Fld) (v : Nat) : (d.wrb i f v).med = d.med := rfl
@[simp] theorem Dev.wrb_cam (i : Nat) (f : Fld) (v : Nat) : (d.wrb i f v).cam = d.cam := rfl
@[simp] theorem Dev.wrb_grv (i : Nat) (f : Fld) (v : Nat) : (d.wrb i f v).grv = d.grv := rfl
@[simp] theorem Dev.wrb_jnm (i : Nat) (f : Fld) (v : Nat) : (d.wrb i f v).jnm = d.jnm := rfl
@[simp] theorem Dev.wrb_pwr (i : Nat) (f : Fld) (v : Nat) : (d.wrb i f v).pwr = d.pwr := rfl
@[simp] theorem Dev.wrb_nvm (i : Nat) (f : Fld) (v : Nat) : (d.wrb i f v).nvm = d.nvm := rfl
@[simp] theorem Dev.wrb_sys (i : Nat) (f : Fld) (v : Nat) : (d.wrb i f v).sys = d.sys := rfl
@[simp] theorem Dev.wrb_dlk (i : Nat) (f : Fld) (v : Nat) : (d.wrb i f v).dlk = d.dlk := rfl
@[simp] theorem Dev.wrb_out (i : Nat) (f : Fld) (v : Nat) : (d.wrb i f v).out = d.out := rfl

@[simp] theorem Dev.wrc_nfree (n : Nat) (f : Fld) (v : Nat) : (d.wrc n f v).nfree = d.nfree := rfl
@[simp] theorem Dev.wrc_bus (n : Nat) (f : Fld) (v : Nat) : (d.wrc n f v).bus = d.bus := rfl
@[simp] theorem Dev.wrc_strk (n : Nat) (f : Fld) (v : Nat) : (d.wrc n f v).strk = d.strk := rfl
@[simp] theorem Dev.wrc_chans (n : Nat) (f : Fld) (v : Nat) : (d.wrc n f v).chans = d.chans := rfl
@[simp] theorem Dev.wrc_media (n : Nat) (f : Fld) (v : Nat) : (d.wrc n f v).media = d.media := rfl
@[simp] theorem Dev.wrc_ecc (n : Nat) (f : Fld) (v : Nat) : (d.wrc n f v).ecc = d.ecc := rfl
@[simp] theorem Dev.wrc_par (n : Nat) (f : Fld) (v : Nat) : (d.wrc n f v).par = d.par := rfl
@[simp] theorem Dev.wrc_stip (n : Nat) (f : Fld) (v : Nat) : (d.wrc n f v).stip = d.stip := rfl
@[simp] theorem Dev.wrc_ciph (n : Nat) (f : Fld) (v : Nat) : (d.wrc n f v).ciph = d.ciph := rfl
@[simp] theorem Dev.wrc_dram (n : Nat) (f : Fld) (v : Nat) : (d.wrc n f v).dram = d.dram := rfl
@[simp] theorem Dev.wrc_pool (n : Nat) (f : Fld) (v : Nat) : (d.wrc n f v).pool = d.pool := rfl
@[simp] theorem Dev.wrc_host (n : Nat) (f : Fld) (v : Nat) : (d.wrc n f v).host = d.host := rfl
@[simp] theorem Dev.wrc_zm (n : Nat) (f : Fld) (v : Nat) : (d.wrc n f v).zm = d.zm := rfl
@[simp] theorem Dev.wrc_med (n : Nat) (f : Fld) (v : Nat) : (d.wrc n f v).med = d.med := rfl
@[simp] theorem Dev.wrc_cam (n : Nat) (f : Fld) (v : Nat) : (d.wrc n f v).cam = d.cam := rfl
@[simp] theorem Dev.wrc_grv (n : Nat) (f : Fld) (v : Nat) : (d.wrc n f v).grv = d.grv := rfl
@[simp] theorem Dev.wrc_jnm (n : Nat) (f : Fld) (v : Nat) : (d.wrc n f v).jnm = d.jnm := rfl
@[simp] theorem Dev.wrc_pwr (n : Nat) (f : Fld) (v : Nat) : (d.wrc n f v).pwr = d.pwr := rfl
@[simp] theorem Dev.wrc_nvm (n : Nat) (f : Fld) (v : Nat) : (d.wrc n f v).nvm = d.nvm := rfl
@[simp] theorem Dev.wrc_sys (n : Nat) (f : Fld) (v : Nat) : (d.wrc n f v).sys = d.sys := rfl
@[simp] theorem Dev.wrc_dlk (n : Nat) (f : Fld) (v : Nat) : (d.wrc n f v).dlk = d.dlk := rfl
@[simp] theorem Dev.wrc_out (n : Nat) (f : Fld) (v : Nat) : (d.wrc n f v).out = d.out := rfl

@[simp] theorem Dev.flagIf_nfree (c : Bool) (f : Fld) : (d.flagIf c f).nfree = d.nfree := by unfold Dev.flagIf; split <;> rfl
@[simp] theorem Dev.flagIf_bus (c : Bool) (f : Fld) : (d.flagIf c f).bus = d.bus := by unfold Dev.flagIf; split <;> rfl
@[simp] theorem Dev.flagIf_strk (c : Bool) (f : Fld) : (d.flagIf c f).strk = d.strk := by unfold Dev.flagIf; split <;> rfl
@[simp] theorem Dev.flagIf_chans (c : Bool) (f : Fld) : (d.flagIf c f).chans = d.chans := by unfold Dev.flagIf; split <;> rfl
@[simp] theorem Dev.flagIf_media (c : Bool) (f : Fld) : (d.flagIf c f).media = d.media := by unfold Dev.flagIf; split <;> rfl
@[simp] theorem Dev.flagIf_ecc (c : Bool) (f : Fld) : (d.flagIf c f).ecc = d.ecc := by unfold Dev.flagIf; split <;> rfl
@[simp] theorem Dev.flagIf_par (c : Bool) (f : Fld) : (d.flagIf c f).par = d.par := by unfold Dev.flagIf; split <;> rfl
@[simp] theorem Dev.flagIf_stip (c : Bool) (f : Fld) : (d.flagIf c f).stip = d.stip := by unfold Dev.flagIf; split <;> rfl
@[simp] theorem Dev.flagIf_ciph (c : Bool) (f : Fld) : (d.flagIf c f).ciph = d.ciph := by unfold Dev.flagIf; split <;> rfl
@[simp] theorem Dev.flagIf_dram (c : Bool) (f : Fld) : (d.flagIf c f).dram = d.dram := by unfold Dev.flagIf; split <;> rfl
@[simp] theorem Dev.flagIf_pool (c : Bool) (f : Fld) : (d.flagIf c f).pool = d.pool := by unfold Dev.flagIf; split <;> rfl
@[simp] theorem Dev.flagIf_host (c : Bool) (f : Fld) : (d.flagIf c f).host = d.host := by unfold Dev.flagIf; split <;> rfl
@[simp] theorem Dev.flagIf_zm (c : Bool) (f : Fld) : (d.flagIf c f).zm = d.zm := by unfold Dev.flagIf; split <;> rfl
@[simp] theorem Dev.flagIf_med (c : Bool) (f : Fld) : (d.flagIf c f).med = d.med := by unfold Dev.flagIf; split <;> rfl
@[simp] theorem Dev.flagIf_cam (c : Bool) (f : Fld) : (d.flagIf c f).cam = d.cam := by unfold Dev.flagIf; split <;> rfl
@[simp] theorem Dev.flagIf_grv (c : Bool) (f : Fld) : (d.flagIf c f).grv = d.grv := by unfold Dev.flagIf; split <;> rfl
@[simp] theorem Dev.flagIf_jnm (c : Bool) (f : Fld) : (d.flagIf c f).jnm = d.jnm := by unfold Dev.flagIf; split <;> rfl
@[simp] theorem Dev.flagIf_pwr (c : Bool) (f : Fld) : (d.flagIf c f).pwr = d.pwr := by unfold Dev.flagIf; split <;> rfl
@[simp] theorem Dev.flagIf_nvm (c : Bool) (f : Fld) : (d.flagIf c f).nvm = d.nvm := by unfold Dev.flagIf; split <;> rfl
@[simp] theorem Dev.flagIf_sys (c : Bool) (f : Fld) : (d.flagIf c f).sys = d.sys := by unfold Dev.flagIf; split <;> rfl
@[simp] theorem Dev.flagIf_dlk (c : Bool) (f : Fld) : (d.flagIf c f).dlk = d.dlk := by unfold Dev.flagIf; split <;> rfl
@[simp] theorem Dev.flagIf_out (c : Bool) (f : Fld) : (d.flagIf c f).out = d.out := by unfold Dev.flagIf; split <;> rfl

@[simp] theorem Dev.flagcIf_nfree (c : Bool) (n : Nat) (f : Fld) : (d.flagcIf c n f).nfree = d.nfree := by unfold Dev.flagcIf; split <;> rfl
@[simp] theorem Dev.flagcIf_bus (c : Bool) (n : Nat) (f : Fld) : (d.flagcIf c n f).bus = d.bus := by unfold Dev.flagcIf; split <;> rfl
@[simp] theorem Dev.flagcIf_strk (c : Bool) (n : Nat) (f : Fld) : (d.flagcIf c n f).strk = d.strk := by unfold Dev.flagcIf; split <;> rfl
@[simp] theorem Dev.flagcIf_chans (c : Bool) (n : Nat) (f : Fld) : (d.flagcIf c n f).chans = d.chans := by unfold Dev.flagcIf; split <;> rfl
@[simp] theorem Dev.flagcIf_media (c : Bool) (n : Nat) (f : Fld) : (d.flagcIf c n f).media = d.media := by unfold Dev.flagcIf; split <;> rfl
@[simp] theorem Dev.flagcIf_ecc (c : Bool) (n : Nat) (f : Fld) : (d.flagcIf c n f).ecc = d.ecc := by unfold Dev.flagcIf; split <;> rfl
@[simp] theorem Dev.flagcIf_par (c : Bool) (n : Nat) (f : Fld) : (d.flagcIf c n f).par = d.par := by unfold Dev.flagcIf; split <;> rfl
@[simp] theorem Dev.flagcIf_stip (c : Bool) (n : Nat) (f : Fld) : (d.flagcIf c n f).stip = d.stip := by unfold Dev.flagcIf; split <;> rfl
@[simp] theorem Dev.flagcIf_ciph (c : Bool) (n : Nat) (f : Fld) : (d.flagcIf c n f).ciph = d.ciph := by unfold Dev.flagcIf; split <;> rfl
@[simp] theorem Dev.flagcIf_dram (c : Bool) (n : Nat) (f : Fld) : (d.flagcIf c n f).dram = d.dram := by unfold Dev.flagcIf; split <;> rfl
@[simp] theorem Dev.flagcIf_pool (c : Bool) (n : Nat) (f : Fld) : (d.flagcIf c n f).pool = d.pool := by unfold Dev.flagcIf; split <;> rfl
@[simp] theorem Dev.flagcIf_host (c : Bool) (n : Nat) (f : Fld) : (d.flagcIf c n f).host = d.host := by unfold Dev.flagcIf; split <;> rfl
@[simp] theorem Dev.flagcIf_zm (c : Bool) (n : Nat) (f : Fld) : (d.flagcIf c n f).zm = d.zm := by unfold Dev.flagcIf; split <;> rfl
@[simp] theorem Dev.flagcIf_med (c : Bool) (n : Nat) (f : Fld) : (d.flagcIf c n f).med = d.med := by unfold Dev.flagcIf; split <;> rfl
@[simp] theorem Dev.flagcIf_cam (c : Bool) (n : Nat) (f : Fld) : (d.flagcIf c n f).cam = d.cam := by unfold Dev.flagcIf; split <;> rfl
@[simp] theorem Dev.flagcIf_grv (c : Bool) (n : Nat) (f : Fld) : (d.flagcIf c n f).grv = d.grv := by unfold Dev.flagcIf; split <;> rfl
@[simp] theorem Dev.flagcIf_jnm (c : Bool) (n : Nat) (f : Fld) : (d.flagcIf c n f).jnm = d.jnm := by unfold Dev.flagcIf; split <;> rfl
@[simp] theorem Dev.flagcIf_pwr (c : Bool) (n : Nat) (f : Fld) : (d.flagcIf c n f).pwr = d.pwr := by unfold Dev.flagcIf; split <;> rfl
@[simp] theorem Dev.flagcIf_nvm (c : Bool) (n : Nat) (f : Fld) : (d.flagcIf c n f).nvm = d.nvm := by unfold Dev.flagcIf; split <;> rfl
@[simp] theorem Dev.flagcIf_sys (c : Bool) (n : Nat) (f : Fld) : (d.flagcIf c n f).sys = d.sys := by unfold Dev.flagcIf; split <;> rfl
@[simp] theorem Dev.flagcIf_dlk (c : Bool) (n : Nat) (f : Fld) : (d.flagcIf c n f).dlk = d.dlk := by unfold Dev.flagcIf; split <;> rfl
@[simp] theorem Dev.flagcIf_out (c : Bool) (n : Nat) (f : Fld) : (d.flagcIf c n f).out = d.out := by unfold Dev.flagcIf; split <;> rfl

@[simp] theorem Dev.addx_nfree (n i : Nat) (f : Fld) (k : Nat) : (d.addx n i f k).nfree = d.nfree := rfl
@[simp] theorem Dev.addx_bus (n i : Nat) (f : Fld) (k : Nat) : (d.addx n i f k).bus = d.bus := rfl
@[simp] theorem Dev.addx_strk (n i : Nat) (f : Fld) (k : Nat) : (d.addx n i f k).strk = d.strk := rfl
@[simp] theorem Dev.addx_chans (n i : Nat) (f : Fld) (k : Nat) : (d.addx n i f k).chans = d.chans := rfl
@[simp] theorem Dev.addx_media (n i : Nat) (f : Fld) (k : Nat) : (d.addx n i f k).media = d.media := rfl
@[simp] theorem Dev.addx_ecc (n i : Nat) (f : Fld) (k : Nat) : (d.addx n i f k).ecc = d.ecc := rfl
@[simp] theorem Dev.addx_par (n i : Nat) (f : Fld) (k : Nat) : (d.addx n i f k).par = d.par := rfl
@[simp] theorem Dev.addx_stip (n i : Nat) (f : Fld) (k : Nat) : (d.addx n i f k).stip = d.stip := rfl
@[simp] theorem Dev.addx_ciph (n i : Nat) (f : Fld) (k : Nat) : (d.addx n i f k).ciph = d.ciph := rfl
@[simp] theorem Dev.addx_dram (n i : Nat) (f : Fld) (k : Nat) : (d.addx n i f k).dram = d.dram := rfl
@[simp] theorem Dev.addx_pool (n i : Nat) (f : Fld) (k : Nat) : (d.addx n i f k).pool = d.pool := rfl
@[simp] theorem Dev.addx_host (n i : Nat) (f : Fld) (k : Nat) : (d.addx n i f k).host = d.host := rfl
@[simp] theorem Dev.addx_zm (n i : Nat) (f : Fld) (k : Nat) : (d.addx n i f k).zm = d.zm := rfl
@[simp] theorem Dev.addx_med (n i : Nat) (f : Fld) (k : Nat) : (d.addx n i f k).med = d.med := rfl
@[simp] theorem Dev.addx_cam (n i : Nat) (f : Fld) (k : Nat) : (d.addx n i f k).cam = d.cam := rfl
@[simp] theorem Dev.addx_grv (n i : Nat) (f : Fld) (k : Nat) : (d.addx n i f k).grv = d.grv := rfl
@[simp] theorem Dev.addx_jnm (n i : Nat) (f : Fld) (k : Nat) : (d.addx n i f k).jnm = d.jnm := rfl
@[simp] theorem Dev.addx_pwr (n i : Nat) (f : Fld) (k : Nat) : (d.addx n i f k).pwr = d.pwr := rfl
@[simp] theorem Dev.addx_nvm (n i : Nat) (f : Fld) (k : Nat) : (d.addx n i f k).nvm = d.nvm := rfl
@[simp] theorem Dev.addx_sys (n i : Nat) (f : Fld) (k : Nat) : (d.addx n i f k).sys = d.sys := rfl
@[simp] theorem Dev.addx_dlk (n i : Nat) (f : Fld) (k : Nat) : (d.addx n i f k).dlk = d.dlk := rfl
@[simp] theorem Dev.addx_out (n i : Nat) (f : Fld) (k : Nat) : (d.addx n i f k).out = d.out := rfl

@[simp] theorem Dev.add_nfree (f : Fld) (k : Nat) : (d.add f k).nfree = d.nfree := rfl
@[simp] theorem Dev.add_bus (f : Fld) (k : Nat) : (d.add f k).bus = d.bus := rfl
@[simp] theorem Dev.add_strk (f : Fld) (k : Nat) : (d.add f k).strk = d.strk := rfl
@[simp] theorem Dev.add_chans (f : Fld) (k : Nat) : (d.add f k).chans = d.chans := rfl
@[simp] theorem Dev.add_media (f : Fld) (k : Nat) : (d.add f k).media = d.media := rfl
@[simp] theorem Dev.add_ecc (f : Fld) (k : Nat) : (d.add f k).ecc = d.ecc := rfl
@[simp] theorem Dev.add_par (f : Fld) (k : Nat) : (d.add f k).par = d.par := rfl
@[simp] theorem Dev.add_stip (f : Fld) (k : Nat) : (d.add f k).stip = d.stip := rfl
@[simp] theorem Dev.add_ciph (f : Fld) (k : Nat) : (d.add f k).ciph = d.ciph := rfl
@[simp] theorem Dev.add_dram (f : Fld) (k : Nat) : (d.add f k).dram = d.dram := rfl
@[simp] theorem Dev.add_pool (f : Fld) (k : Nat) : (d.add f k).pool = d.pool := rfl
@[simp] theorem Dev.add_host (f : Fld) (k : Nat) : (d.add f k).host = d.host := rfl
@[simp] theorem Dev.add_zm (f : Fld) (k : Nat) : (d.add f k).zm = d.zm := rfl
@[simp] theorem Dev.add_med (f : Fld) (k : Nat) : (d.add f k).med = d.med := rfl
@[simp] theorem Dev.add_cam (f : Fld) (k : Nat) : (d.add f k).cam = d.cam := rfl
@[simp] theorem Dev.add_grv (f : Fld) (k : Nat) : (d.add f k).grv = d.grv := rfl
@[simp] theorem Dev.add_jnm (f : Fld) (k : Nat) : (d.add f k).jnm = d.jnm := rfl
@[simp] theorem Dev.add_pwr (f : Fld) (k : Nat) : (d.add f k).pwr = d.pwr := rfl
@[simp] theorem Dev.add_nvm (f : Fld) (k : Nat) : (d.add f k).nvm = d.nvm := rfl
@[simp] theorem Dev.add_sys (f : Fld) (k : Nat) : (d.add f k).sys = d.sys := rfl
@[simp] theorem Dev.add_dlk (f : Fld) (k : Nat) : (d.add f k).dlk = d.dlk := rfl
@[simp] theorem Dev.add_out (f : Fld) (k : Nat) : (d.add f k).out = d.out := rfl

@[simp] theorem Dev.addc_nfree (n : Nat) (f : Fld) (k : Nat) : (d.addc n f k).nfree = d.nfree := rfl
@[simp] theorem Dev.addc_bus (n : Nat) (f : Fld) (k : Nat) : (d.addc n f k).bus = d.bus := rfl
@[simp] theorem Dev.addc_strk (n : Nat) (f : Fld) (k : Nat) : (d.addc n f k).strk = d.strk := rfl
@[simp] theorem Dev.addc_chans (n : Nat) (f : Fld) (k : Nat) : (d.addc n f k).chans = d.chans := rfl
@[simp] theorem Dev.addc_media (n : Nat) (f : Fld) (k : Nat) : (d.addc n f k).media = d.media := rfl
@[simp] theorem Dev.addc_ecc (n : Nat) (f : Fld) (k : Nat) : (d.addc n f k).ecc = d.ecc := rfl
@[simp] theorem Dev.addc_par (n : Nat) (f : Fld) (k : Nat) : (d.addc n f k).par = d.par := rfl
@[simp] theorem Dev.addc_stip (n : Nat) (f : Fld) (k : Nat) : (d.addc n f k).stip = d.stip := rfl
@[simp] theorem Dev.addc_ciph (n : Nat) (f : Fld) (k : Nat) : (d.addc n f k).ciph = d.ciph := rfl
@[simp] theorem Dev.addc_dram (n : Nat) (f : Fld) (k : Nat) : (d.addc n f k).dram = d.dram := rfl
@[simp] theorem Dev.addc_pool (n : Nat) (f : Fld) (k : Nat) : (d.addc n f k).pool = d.pool := rfl
@[simp] theorem Dev.addc_host (n : Nat) (f : Fld) (k : Nat) : (d.addc n f k).host = d.host := rfl
@[simp] theorem Dev.addc_zm (n : Nat) (f : Fld) (k : Nat) : (d.addc n f k).zm = d.zm := rfl
@[simp] theorem Dev.addc_med (n : Nat) (f : Fld) (k : Nat) : (d.addc n f k).med = d.med := rfl
@[simp] theorem Dev.addc_cam (n : Nat) (f : Fld) (k : Nat) : (d.addc n f k).cam = d.cam := rfl
@[simp] theorem Dev.addc_grv (n : Nat) (f : Fld) (k : Nat) : (d.addc n f k).grv = d.grv := rfl
@[simp] theorem Dev.addc_jnm (n : Nat) (f : Fld) (k : Nat) : (d.addc n f k).jnm = d.jnm := rfl
@[simp] theorem Dev.addc_pwr (n : Nat) (f : Fld) (k : Nat) : (d.addc n f k).pwr = d.pwr := rfl
@[simp] theorem Dev.addc_nvm (n : Nat) (f : Fld) (k : Nat) : (d.addc n f k).nvm = d.nvm := rfl
@[simp] theorem Dev.addc_sys (n : Nat) (f : Fld) (k : Nat) : (d.addc n f k).sys = d.sys := rfl
@[simp] theorem Dev.addc_dlk (n : Nat) (f : Fld) (k : Nat) : (d.addc n f k).dlk = d.dlk := rfl
@[simp] theorem Dev.addc_out (n : Nat) (f : Fld) (k : Nat) : (d.addc n f k).out = d.out := rfl

@[simp] theorem Dev.faultOn_nfree (b : Nat) : (faultOn b d).nfree = d.nfree := by unfold faultOn; split <;> rfl
@[simp] theorem Dev.faultOn_bus (b : Nat) : (faultOn b d).bus = d.bus := by unfold faultOn; split <;> rfl
@[simp] theorem Dev.faultOn_strk (b : Nat) : (faultOn b d).strk = d.strk := by unfold faultOn; split <;> rfl
@[simp] theorem Dev.faultOn_chans (b : Nat) : (faultOn b d).chans = d.chans := by unfold faultOn; split <;> rfl
@[simp] theorem Dev.faultOn_media (b : Nat) : (faultOn b d).media = d.media := by unfold faultOn; split <;> rfl
@[simp] theorem Dev.faultOn_ecc (b : Nat) : (faultOn b d).ecc = d.ecc := by unfold faultOn; split <;> rfl
@[simp] theorem Dev.faultOn_par (b : Nat) : (faultOn b d).par = d.par := by unfold faultOn; split <;> rfl
@[simp] theorem Dev.faultOn_stip (b : Nat) : (faultOn b d).stip = d.stip := by unfold faultOn; split <;> rfl
@[simp] theorem Dev.faultOn_ciph (b : Nat) : (faultOn b d).ciph = d.ciph := by unfold faultOn; split <;> rfl
@[simp] theorem Dev.faultOn_dram (b : Nat) : (faultOn b d).dram = d.dram := by unfold faultOn; split <;> rfl
@[simp] theorem Dev.faultOn_pool (b : Nat) : (faultOn b d).pool = d.pool := by unfold faultOn; split <;> rfl
@[simp] theorem Dev.faultOn_host (b : Nat) : (faultOn b d).host = d.host := by unfold faultOn; split <;> rfl
@[simp] theorem Dev.faultOn_zm (b : Nat) : (faultOn b d).zm = d.zm := by unfold faultOn; split <;> rfl
@[simp] theorem Dev.faultOn_med (b : Nat) : (faultOn b d).med = d.med := by unfold faultOn; split <;> rfl
@[simp] theorem Dev.faultOn_cam (b : Nat) : (faultOn b d).cam = d.cam := by unfold faultOn; split <;> rfl
@[simp] theorem Dev.faultOn_grv (b : Nat) : (faultOn b d).grv = d.grv := by unfold faultOn; split <;> rfl
@[simp] theorem Dev.faultOn_jnm (b : Nat) : (faultOn b d).jnm = d.jnm := by unfold faultOn; split <;> rfl
@[simp] theorem Dev.faultOn_pwr (b : Nat) : (faultOn b d).pwr = d.pwr := by unfold faultOn; split <;> rfl
@[simp] theorem Dev.faultOn_nvm (b : Nat) : (faultOn b d).nvm = d.nvm := by unfold faultOn; split <;> rfl
@[simp] theorem Dev.faultOn_sys (b : Nat) : (faultOn b d).sys = d.sys := by unfold faultOn; split <;> rfl
@[simp] theorem Dev.faultOn_dlk (b : Nat) : (faultOn b d).dlk = d.dlk := by unfold faultOn; split <;> rfl
@[simp] theorem Dev.faultOn_out (b : Nat) : (faultOn b d).out = d.out := by unfold faultOn; split <;> rfl

@[simp] theorem Dev.faultOff_nfree (b : Nat) : (faultOff b d).nfree = d.nfree := rfl
@[simp] theorem Dev.faultOff_bus (b : Nat) : (faultOff b d).bus = d.bus := rfl
@[simp] theorem Dev.faultOff_strk (b : Nat) : (faultOff b d).strk = d.strk := rfl
@[simp] theorem Dev.faultOff_chans (b : Nat) : (faultOff b d).chans = d.chans := rfl
@[simp] theorem Dev.faultOff_media (b : Nat) : (faultOff b d).media = d.media := rfl
@[simp] theorem Dev.faultOff_ecc (b : Nat) : (faultOff b d).ecc = d.ecc := rfl
@[simp] theorem Dev.faultOff_par (b : Nat) : (faultOff b d).par = d.par := rfl
@[simp] theorem Dev.faultOff_stip (b : Nat) : (faultOff b d).stip = d.stip := rfl
@[simp] theorem Dev.faultOff_ciph (b : Nat) : (faultOff b d).ciph = d.ciph := rfl
@[simp] theorem Dev.faultOff_dram (b : Nat) : (faultOff b d).dram = d.dram := rfl
@[simp] theorem Dev.faultOff_pool (b : Nat) : (faultOff b d).pool = d.pool := rfl
@[simp] theorem Dev.faultOff_host (b : Nat) : (faultOff b d).host = d.host := rfl
@[simp] theorem Dev.faultOff_zm (b : Nat) : (faultOff b d).zm = d.zm := rfl
@[simp] theorem Dev.faultOff_med (b : Nat) : (faultOff b d).med = d.med := rfl
@[simp] theorem Dev.faultOff_cam (b : Nat) : (faultOff b d).cam = d.cam := rfl
@[simp] theorem Dev.faultOff_grv (b : Nat) : (faultOff b d).grv = d.grv := rfl
@[simp] theorem Dev.faultOff_jnm (b : Nat) : (faultOff b d).jnm = d.jnm := rfl
@[simp] theorem Dev.faultOff_pwr (b : Nat) : (faultOff b d).pwr = d.pwr := rfl
@[simp] theorem Dev.faultOff_nvm (b : Nat) : (faultOff b d).nvm = d.nvm := rfl
@[simp] theorem Dev.faultOff_sys (b : Nat) : (faultOff b d).sys = d.sys := rfl
@[simp] theorem Dev.faultOff_dlk (b : Nat) : (faultOff b d).dlk = d.dlk := rfl
@[simp] theorem Dev.faultOff_out (b : Nat) : (faultOff b d).out = d.out := rfl

@[simp] theorem Dev.tick_regs (k : Nat) : (d.tick k).regs = d.regs := rfl
@[simp] theorem Dev.tick_bus (k : Nat) : (d.tick k).bus = d.bus := rfl
@[simp] theorem Dev.tick_strk (k : Nat) : (d.tick k).strk = d.strk := rfl
@[simp] theorem Dev.tick_chans (k : Nat) : (d.tick k).chans = d.chans := rfl
@[simp] theorem Dev.tick_media (k : Nat) : (d.tick k).media = d.media := rfl
@[simp] theorem Dev.tick_ecc (k : Nat) : (d.tick k).ecc = d.ecc := rfl
@[simp] theorem Dev.tick_par (k : Nat) : (d.tick k).par = d.par := rfl
@[simp] theorem Dev.tick_stip (k : Nat) : (d.tick k).stip = d.stip := rfl
@[simp] theorem Dev.tick_ciph (k : Nat) : (d.tick k).ciph = d.ciph := rfl
@[simp] theorem Dev.tick_dram (k : Nat) : (d.tick k).dram = d.dram := rfl
@[simp] theorem Dev.tick_pool (k : Nat) : (d.tick k).pool = d.pool := rfl
@[simp] theorem Dev.tick_host (k : Nat) : (d.tick k).host = d.host := rfl
@[simp] theorem Dev.tick_zm (k : Nat) : (d.tick k).zm = d.zm := rfl
@[simp] theorem Dev.tick_med (k : Nat) : (d.tick k).med = d.med := rfl
@[simp] theorem Dev.tick_cam (k : Nat) : (d.tick k).cam = d.cam := rfl
@[simp] theorem Dev.tick_grv (k : Nat) : (d.tick k).grv = d.grv := rfl
@[simp] theorem Dev.tick_jnm (k : Nat) : (d.tick k).jnm = d.jnm := rfl
@[simp] theorem Dev.tick_pwr (k : Nat) : (d.tick k).pwr = d.pwr := rfl
@[simp] theorem Dev.tick_nvm (k : Nat) : (d.tick k).nvm = d.nvm := rfl
@[simp] theorem Dev.tick_sys (k : Nat) : (d.tick k).sys = d.sys := rfl
@[simp] theorem Dev.tick_dlk (k : Nat) : (d.tick k).dlk = d.dlk := rfl
@[simp] theorem Dev.tick_out (k : Nat) : (d.tick k).out = d.out := rfl

@[simp] theorem Dev.atCycle_nfree (c : BitVec 10) : (d.atCycle c).nfree = d.nfree := by unfold Dev.atCycle; split <;> rfl
@[simp] theorem Dev.atCycle_regs (c : BitVec 10) : (d.atCycle c).regs = d.regs := by unfold Dev.atCycle; split <;> rfl
@[simp] theorem Dev.atCycle_bus (c : BitVec 10) : (d.atCycle c).bus = d.bus := by unfold Dev.atCycle; split <;> rfl
@[simp] theorem Dev.atCycle_chans (c : BitVec 10) : (d.atCycle c).chans = d.chans := by unfold Dev.atCycle; split <;> rfl
@[simp] theorem Dev.atCycle_media (c : BitVec 10) : (d.atCycle c).media = d.media := by unfold Dev.atCycle; split <;> rfl
@[simp] theorem Dev.atCycle_ecc (c : BitVec 10) : (d.atCycle c).ecc = d.ecc := by unfold Dev.atCycle; split <;> rfl
@[simp] theorem Dev.atCycle_par (c : BitVec 10) : (d.atCycle c).par = d.par := by unfold Dev.atCycle; split <;> rfl
@[simp] theorem Dev.atCycle_stip (c : BitVec 10) : (d.atCycle c).stip = d.stip := by unfold Dev.atCycle; split <;> rfl
@[simp] theorem Dev.atCycle_ciph (c : BitVec 10) : (d.atCycle c).ciph = d.ciph := by unfold Dev.atCycle; split <;> rfl
@[simp] theorem Dev.atCycle_dram (c : BitVec 10) : (d.atCycle c).dram = d.dram := by unfold Dev.atCycle; split <;> rfl
@[simp] theorem Dev.atCycle_pool (c : BitVec 10) : (d.atCycle c).pool = d.pool := by unfold Dev.atCycle; split <;> rfl
@[simp] theorem Dev.atCycle_host (c : BitVec 10) : (d.atCycle c).host = d.host := by unfold Dev.atCycle; split <;> rfl
@[simp] theorem Dev.atCycle_zm (c : BitVec 10) : (d.atCycle c).zm = d.zm := by unfold Dev.atCycle; split <;> rfl
@[simp] theorem Dev.atCycle_med (c : BitVec 10) : (d.atCycle c).med = d.med := by unfold Dev.atCycle; split <;> rfl
@[simp] theorem Dev.atCycle_cam (c : BitVec 10) : (d.atCycle c).cam = d.cam := by unfold Dev.atCycle; split <;> rfl
@[simp] theorem Dev.atCycle_grv (c : BitVec 10) : (d.atCycle c).grv = d.grv := by unfold Dev.atCycle; split <;> rfl
@[simp] theorem Dev.atCycle_jnm (c : BitVec 10) : (d.atCycle c).jnm = d.jnm := by unfold Dev.atCycle; split <;> rfl
@[simp] theorem Dev.atCycle_pwr (c : BitVec 10) : (d.atCycle c).pwr = d.pwr := by unfold Dev.atCycle; split <;> rfl
@[simp] theorem Dev.atCycle_nvm (c : BitVec 10) : (d.atCycle c).nvm = d.nvm := by unfold Dev.atCycle; split <;> rfl
@[simp] theorem Dev.atCycle_sys (c : BitVec 10) : (d.atCycle c).sys = d.sys := by unfold Dev.atCycle; split <;> rfl
@[simp] theorem Dev.atCycle_dlk (c : BitVec 10) : (d.atCycle c).dlk = d.dlk := by unfold Dev.atCycle; split <;> rfl
@[simp] theorem Dev.atCycle_out (c : BitVec 10) : (d.atCycle c).out = d.out := by unfold Dev.atCycle; split <;> rfl

@[simp] theorem Dev.send_nfree (o : Out) : (d.send o).nfree = d.nfree := by unfold Dev.send; split <;> first | rfl | (split <;> rfl)
@[simp] theorem Dev.send_regs (o : Out) : (d.send o).regs = d.regs := by unfold Dev.send; split <;> first | rfl | (split <;> rfl)
@[simp] theorem Dev.send_bus (o : Out) : (d.send o).bus = d.bus := by unfold Dev.send; split <;> first | rfl | (split <;> rfl)
@[simp] theorem Dev.send_strk (o : Out) : (d.send o).strk = d.strk := by unfold Dev.send; split <;> first | rfl | (split <;> rfl)
@[simp] theorem Dev.send_chans (o : Out) : (d.send o).chans = d.chans := by unfold Dev.send; split <;> first | rfl | (split <;> rfl)
@[simp] theorem Dev.send_media (o : Out) : (d.send o).media = d.media := by unfold Dev.send; split <;> first | rfl | (split <;> rfl)
@[simp] theorem Dev.send_ecc (o : Out) : (d.send o).ecc = d.ecc := by unfold Dev.send; split <;> first | rfl | (split <;> rfl)
@[simp] theorem Dev.send_par (o : Out) : (d.send o).par = d.par := by unfold Dev.send; split <;> first | rfl | (split <;> rfl)
@[simp] theorem Dev.send_stip (o : Out) : (d.send o).stip = d.stip := by unfold Dev.send; split <;> first | rfl | (split <;> rfl)
@[simp] theorem Dev.send_ciph (o : Out) : (d.send o).ciph = d.ciph := by unfold Dev.send; split <;> first | rfl | (split <;> rfl)
@[simp] theorem Dev.send_dram (o : Out) : (d.send o).dram = d.dram := by unfold Dev.send; split <;> first | rfl | (split <;> rfl)
@[simp] theorem Dev.send_pool (o : Out) : (d.send o).pool = d.pool := by unfold Dev.send; split <;> first | rfl | (split <;> rfl)
@[simp] theorem Dev.send_host (o : Out) : (d.send o).host = d.host := by unfold Dev.send; split <;> first | rfl | (split <;> rfl)
@[simp] theorem Dev.send_zm (o : Out) : (d.send o).zm = d.zm := by unfold Dev.send; split <;> first | rfl | (split <;> rfl)
@[simp] theorem Dev.send_med (o : Out) : (d.send o).med = d.med := by unfold Dev.send; split <;> first | rfl | (split <;> rfl)
@[simp] theorem Dev.send_cam (o : Out) : (d.send o).cam = d.cam := by unfold Dev.send; split <;> first | rfl | (split <;> rfl)
@[simp] theorem Dev.send_grv (o : Out) : (d.send o).grv = d.grv := by unfold Dev.send; split <;> first | rfl | (split <;> rfl)
@[simp] theorem Dev.send_jnm (o : Out) : (d.send o).jnm = d.jnm := by unfold Dev.send; split <;> first | rfl | (split <;> rfl)
@[simp] theorem Dev.send_pwr (o : Out) : (d.send o).pwr = d.pwr := by unfold Dev.send; split <;> first | rfl | (split <;> rfl)
@[simp] theorem Dev.send_nvm (o : Out) : (d.send o).nvm = d.nvm := by unfold Dev.send; split <;> first | rfl | (split <;> rfl)
@[simp] theorem Dev.send_sys (o : Out) : (d.send o).sys = d.sys := by unfold Dev.send; split <;> first | rfl | (split <;> rfl)
@[simp] theorem Dev.send_dlk (o : Out) : (d.send o).dlk = d.dlk := by unfold Dev.send; split <;> first | rfl | (split <;> rfl)

@[simp] theorem Dev.finish_nfree (k : Nat) (c : Cpl) : (finish k c d).nfree = d.nfree := by unfold finish Dev.modSlot; split <;> rfl
@[simp] theorem Dev.finish_regs (k : Nat) (c : Cpl) : (finish k c d).regs = d.regs := by unfold finish Dev.modSlot; split <;> rfl
@[simp] theorem Dev.finish_bus (k : Nat) (c : Cpl) : (finish k c d).bus = d.bus := by unfold finish Dev.modSlot; split <;> rfl
@[simp] theorem Dev.finish_strk (k : Nat) (c : Cpl) : (finish k c d).strk = d.strk := by unfold finish Dev.modSlot; split <;> rfl
@[simp] theorem Dev.finish_chans (k : Nat) (c : Cpl) : (finish k c d).chans = d.chans := by unfold finish Dev.modSlot; split <;> rfl
@[simp] theorem Dev.finish_media (k : Nat) (c : Cpl) : (finish k c d).media = d.media := by unfold finish Dev.modSlot; split <;> rfl
@[simp] theorem Dev.finish_ecc (k : Nat) (c : Cpl) : (finish k c d).ecc = d.ecc := by unfold finish Dev.modSlot; split <;> rfl
@[simp] theorem Dev.finish_par (k : Nat) (c : Cpl) : (finish k c d).par = d.par := by unfold finish Dev.modSlot; split <;> rfl
@[simp] theorem Dev.finish_stip (k : Nat) (c : Cpl) : (finish k c d).stip = d.stip := by unfold finish Dev.modSlot; split <;> rfl
@[simp] theorem Dev.finish_ciph (k : Nat) (c : Cpl) : (finish k c d).ciph = d.ciph := by unfold finish Dev.modSlot; split <;> rfl
@[simp] theorem Dev.finish_dram (k : Nat) (c : Cpl) : (finish k c d).dram = d.dram := by unfold finish Dev.modSlot; split <;> rfl
@[simp] theorem Dev.finish_pool (k : Nat) (c : Cpl) : (finish k c d).pool = d.pool := by unfold finish Dev.modSlot; split <;> rfl
@[simp] theorem Dev.finish_zm (k : Nat) (c : Cpl) : (finish k c d).zm = d.zm := by unfold finish Dev.modSlot; split <;> rfl
@[simp] theorem Dev.finish_med (k : Nat) (c : Cpl) : (finish k c d).med = d.med := by unfold finish Dev.modSlot; split <;> rfl
@[simp] theorem Dev.finish_cam (k : Nat) (c : Cpl) : (finish k c d).cam = d.cam := by unfold finish Dev.modSlot; split <;> rfl
@[simp] theorem Dev.finish_grv (k : Nat) (c : Cpl) : (finish k c d).grv = d.grv := by unfold finish Dev.modSlot; split <;> rfl
@[simp] theorem Dev.finish_jnm (k : Nat) (c : Cpl) : (finish k c d).jnm = d.jnm := by unfold finish Dev.modSlot; split <;> rfl
@[simp] theorem Dev.finish_pwr (k : Nat) (c : Cpl) : (finish k c d).pwr = d.pwr := by unfold finish Dev.modSlot; split <;> rfl
@[simp] theorem Dev.finish_nvm (k : Nat) (c : Cpl) : (finish k c d).nvm = d.nvm := by unfold finish Dev.modSlot; split <;> rfl
@[simp] theorem Dev.finish_sys (k : Nat) (c : Cpl) : (finish k c d).sys = d.sys := by unfold finish Dev.modSlot; split <;> rfl
@[simp] theorem Dev.finish_dlk (k : Nat) (c : Cpl) : (finish k c d).dlk = d.dlk := by unfold finish Dev.modSlot; split <;> rfl
@[simp] theorem Dev.finish_out (k : Nat) (c : Cpl) : (finish k c d).out = d.out := by unfold finish Dev.modSlot; split <;> rfl

@[simp] theorem Dev.raiseEvent_nfree (n : Nat) (e : AsyncEvent) : (raiseEvent n e d).nfree = d.nfree := by
    unfold raiseEvent; split
    · rfl
    · split
      · dsimp only; split <;> simp [finish, Dev.modSlot, Dev.modFunc, Dev.modHost, Dev.setSlot] <;> split <;> rfl
      · rfl
@[simp] theorem Dev.raiseEvent_regs (n : Nat) (e : AsyncEvent) : (raiseEvent n e d).regs = d.regs := by
    unfold raiseEvent; split
    · rfl
    · split
      · dsimp only; split <;> simp [finish, Dev.modSlot, Dev.modFunc, Dev.modHost, Dev.setSlot] <;> split <;> rfl
      · rfl
@[simp] theorem Dev.raiseEvent_bus (n : Nat) (e : AsyncEvent) : (raiseEvent n e d).bus = d.bus := by
    unfold raiseEvent; split
    · rfl
    · split
      · dsimp only; split <;> simp [finish, Dev.modSlot, Dev.modFunc, Dev.modHost, Dev.setSlot] <;> split <;> rfl
      · rfl
@[simp] theorem Dev.raiseEvent_strk (n : Nat) (e : AsyncEvent) : (raiseEvent n e d).strk = d.strk := by
    unfold raiseEvent; split
    · rfl
    · split
      · dsimp only; split <;> simp [finish, Dev.modSlot, Dev.modFunc, Dev.modHost, Dev.setSlot] <;> split <;> rfl
      · rfl
@[simp] theorem Dev.raiseEvent_chans (n : Nat) (e : AsyncEvent) : (raiseEvent n e d).chans = d.chans := by
    unfold raiseEvent; split
    · rfl
    · split
      · dsimp only; split <;> simp [finish, Dev.modSlot, Dev.modFunc, Dev.modHost, Dev.setSlot] <;> split <;> rfl
      · rfl
@[simp] theorem Dev.raiseEvent_media (n : Nat) (e : AsyncEvent) : (raiseEvent n e d).media = d.media := by
    unfold raiseEvent; split
    · rfl
    · split
      · dsimp only; split <;> simp [finish, Dev.modSlot, Dev.modFunc, Dev.modHost, Dev.setSlot] <;> split <;> rfl
      · rfl
@[simp] theorem Dev.raiseEvent_ecc (n : Nat) (e : AsyncEvent) : (raiseEvent n e d).ecc = d.ecc := by
    unfold raiseEvent; split
    · rfl
    · split
      · dsimp only; split <;> simp [finish, Dev.modSlot, Dev.modFunc, Dev.modHost, Dev.setSlot] <;> split <;> rfl
      · rfl
@[simp] theorem Dev.raiseEvent_par (n : Nat) (e : AsyncEvent) : (raiseEvent n e d).par = d.par := by
    unfold raiseEvent; split
    · rfl
    · split
      · dsimp only; split <;> simp [finish, Dev.modSlot, Dev.modFunc, Dev.modHost, Dev.setSlot] <;> split <;> rfl
      · rfl
@[simp] theorem Dev.raiseEvent_stip (n : Nat) (e : AsyncEvent) : (raiseEvent n e d).stip = d.stip := by
    unfold raiseEvent; split
    · rfl
    · split
      · dsimp only; split <;> simp [finish, Dev.modSlot, Dev.modFunc, Dev.modHost, Dev.setSlot] <;> split <;> rfl
      · rfl
@[simp] theorem Dev.raiseEvent_ciph (n : Nat) (e : AsyncEvent) : (raiseEvent n e d).ciph = d.ciph := by
    unfold raiseEvent; split
    · rfl
    · split
      · dsimp only; split <;> simp [finish, Dev.modSlot, Dev.modFunc, Dev.modHost, Dev.setSlot] <;> split <;> rfl
      · rfl
@[simp] theorem Dev.raiseEvent_dram (n : Nat) (e : AsyncEvent) : (raiseEvent n e d).dram = d.dram := by
    unfold raiseEvent; split
    · rfl
    · split
      · dsimp only; split <;> simp [finish, Dev.modSlot, Dev.modFunc, Dev.modHost, Dev.setSlot] <;> split <;> rfl
      · rfl
@[simp] theorem Dev.raiseEvent_pool (n : Nat) (e : AsyncEvent) : (raiseEvent n e d).pool = d.pool := by
    unfold raiseEvent; split
    · rfl
    · split
      · dsimp only; split <;> simp [finish, Dev.modSlot, Dev.modFunc, Dev.modHost, Dev.setSlot] <;> split <;> rfl
      · rfl
@[simp] theorem Dev.raiseEvent_zm (n : Nat) (e : AsyncEvent) : (raiseEvent n e d).zm = d.zm := by
    unfold raiseEvent; split
    · rfl
    · split
      · dsimp only; split <;> simp [finish, Dev.modSlot, Dev.modFunc, Dev.modHost, Dev.setSlot] <;> split <;> rfl
      · rfl
@[simp] theorem Dev.raiseEvent_med (n : Nat) (e : AsyncEvent) : (raiseEvent n e d).med = d.med := by
    unfold raiseEvent; split
    · rfl
    · split
      · dsimp only; split <;> simp [finish, Dev.modSlot, Dev.modFunc, Dev.modHost, Dev.setSlot] <;> split <;> rfl
      · rfl
@[simp] theorem Dev.raiseEvent_cam (n : Nat) (e : AsyncEvent) : (raiseEvent n e d).cam = d.cam := by
    unfold raiseEvent; split
    · rfl
    · split
      · dsimp only; split <;> simp [finish, Dev.modSlot, Dev.modFunc, Dev.modHost, Dev.setSlot] <;> split <;> rfl
      · rfl
@[simp] theorem Dev.raiseEvent_grv (n : Nat) (e : AsyncEvent) : (raiseEvent n e d).grv = d.grv := by
    unfold raiseEvent; split
    · rfl
    · split
      · dsimp only; split <;> simp [finish, Dev.modSlot, Dev.modFunc, Dev.modHost, Dev.setSlot] <;> split <;> rfl
      · rfl
@[simp] theorem Dev.raiseEvent_jnm (n : Nat) (e : AsyncEvent) : (raiseEvent n e d).jnm = d.jnm := by
    unfold raiseEvent; split
    · rfl
    · split
      · dsimp only; split <;> simp [finish, Dev.modSlot, Dev.modFunc, Dev.modHost, Dev.setSlot] <;> split <;> rfl
      · rfl
@[simp] theorem Dev.raiseEvent_pwr (n : Nat) (e : AsyncEvent) : (raiseEvent n e d).pwr = d.pwr := by
    unfold raiseEvent; split
    · rfl
    · split
      · dsimp only; split <;> simp [finish, Dev.modSlot, Dev.modFunc, Dev.modHost, Dev.setSlot] <;> split <;> rfl
      · rfl
@[simp] theorem Dev.raiseEvent_nvm (n : Nat) (e : AsyncEvent) : (raiseEvent n e d).nvm = d.nvm := by
    unfold raiseEvent; split
    · rfl
    · split
      · dsimp only; split <;> simp [finish, Dev.modSlot, Dev.modFunc, Dev.modHost, Dev.setSlot] <;> split <;> rfl
      · rfl
@[simp] theorem Dev.raiseEvent_sys (n : Nat) (e : AsyncEvent) : (raiseEvent n e d).sys = d.sys := by
    unfold raiseEvent; split
    · rfl
    · split
      · dsimp only; split <;> simp [finish, Dev.modSlot, Dev.modFunc, Dev.modHost, Dev.setSlot] <;> split <;> rfl
      · rfl
@[simp] theorem Dev.raiseEvent_dlk (n : Nat) (e : AsyncEvent) : (raiseEvent n e d).dlk = d.dlk := by
    unfold raiseEvent; split
    · rfl
    · split
      · dsimp only; split <;> simp [finish, Dev.modSlot, Dev.modFunc, Dev.modHost, Dev.setSlot] <;> split <;> rfl
      · rfl
@[simp] theorem Dev.raiseEvent_out (n : Nat) (e : AsyncEvent) : (raiseEvent n e d).out = d.out := by
    unfold raiseEvent; split
    · rfl
    · split
      · dsimp only; split <;> simp [finish, Dev.modSlot, Dev.modFunc, Dev.modHost, Dev.setSlot] <;> split <;> rfl
      · rfl

end Sys2Proof.Machine
end

