-- ==== Sys2Proof/Laws/Keeps.lean ====
section
/-! SUPPORT. What an operation leaves as it was, said once for each operation: `DevKeeps m d e` says that `e` differs from `d` at most in
the parts of the device whose bits are set in `m` (bit 0 the first field of `Dev`, bit 22 the last; bit 23 is memory), and in the register
file at most in the registers whose bits are set (bit 24 + n: the register numbered n). -/

namespace Sys2Proof.Machine

/-- `e` is `d` but for the parts in `m`. -/
structure DevKeeps (m : Nat) (d e : Dev) : Prop where
  nfree : m.testBit 0 = false → e.nfree = d.nfree
  regs : m.testBit 1 = false → e.regs = d.regs
  bus : m.testBit 2 = false → e.bus = d.bus
  strk : m.testBit 3 = false → e.strk = d.strk
  chans : m.testBit 4 = false → e.chans = d.chans
  media : m.testBit 5 = false → e.media = d.media
  ecc : m.testBit 6 = false → e.ecc = d.ecc
  par : m.testBit 7 = false → e.par = d.par
  stip : m.testBit 8 = false → e.stip = d.stip
  ciph : m.testBit 9 = false → e.ciph = d.ciph
  dram : m.testBit 10 = false → e.dram = d.dram
  pool : m.testBit 11 = false → e.pool = d.pool
  host : m.testBit 12 = false → e.host = d.host
  zm : m.testBit 13 = false → e.zm = d.zm
  med : m.testBit 14 = false → e.med = d.med
  cam : m.testBit 15 = false → e.cam = d.cam
  grv : m.testBit 16 = false → e.grv = d.grv
  jnm : m.testBit 17 = false → e.jnm = d.jnm
  pwr : m.testBit 18 = false → e.pwr = d.pwr
  nvm : m.testBit 19 = false → e.nvm = d.nvm
  sys : m.testBit 20 = false → e.sys = d.sys
  dlk : m.testBit 21 = false → e.dlk = d.dlk
  out : m.testBit 22 = false → e.out = d.out
  reg : ∀ key, m.testBit (24 + key % 512) = false → mapFind e.regs key = mapFind d.regs key

/-- Every part and every register. -/
abbrev allMask : Nat := 0xFFFFFFFFFFFFFFFFFFFFFFFFFFFFFFFFFFFFFFFFFFFFFFFFFFFFFFFFFFFFFFFFFFFFFFFFFFFFFFFFFFFFFFFFFFFFFFFFFFFFFFFFFFFFFFFFFFFFFFFFFFFFFFFFFFFFFF
/-- Every part of the device and every register, but not memory. -/
abbrev devMask : Nat := 0xFFFFFFFFFFFFFFFFFFFFFFFFFFFFFFFFFFFFFFFFFFFFFFFFFFFFFFFFFFFFFFFFFFFFFFFFFFFFFFFFFFFFFFFFFFFFFFFFFFFFFFFFFFFFFFFFFFFFFFFFFFFFFFFF7FFFFF
/-- The register file, at one register. -/
def regMask (r : RegDef) : Nat := 2 + 2 ^ 24 * (2 ^ (r.num % 256) * (2 ^ 256) ^ (r.num / 256 % 2))

/-- `t` is `s` but for the parts in `m`; the queue is as it was, and memory keeps its canonical form. -/
structure StateKeeps (m : Nat) (s t : State) : Prop where
  dev : DevKeeps m s.dev t.dev
  pending : t.pending = s.pending
  mem : m.testBit 23 = false → t.mem = s.mem
  wf : Memory.wf s.mem = true → Memory.wf t.mem = true

theorem testBit_of_sub {m k : Nat} (h : m ||| k = m) {i : Nat} (hi : m.testBit i = false) : k.testBit i = false := by
  rw [← h] at hi; simp at hi; exact hi.2

theorem DevKeeps.refl (m : Nat) (d : Dev) : DevKeeps m d d := by constructor <;> intros <;> rfl

theorem DevKeeps.step {m k : Nat} {d e f : Dev} (h1 : DevKeeps m d e) (h2 : DevKeeps k e f) (h : m ||| k = m) : DevKeeps m d f where
  nfree := fun b => (h2.nfree (testBit_of_sub h b)).trans (h1.nfree b)
  regs := fun b => (h2.regs (testBit_of_sub h b)).trans (h1.regs b)
  bus := fun b => (h2.bus (testBit_of_sub h b)).trans (h1.bus b)
  strk := fun b => (h2.strk (testBit_of_sub h b)).trans (h1.strk b)
  chans := fun b => (h2.chans (testBit_of_sub h b)).trans (h1.chans b)
  media := fun b => (h2.media (testBit_of_sub h b)).trans (h1.media b)
  ecc := fun b => (h2.ecc (testBit_of_sub h b)).trans (h1.ecc b)
  par := fun b => (h2.par (testBit_of_sub h b)).trans (h1.par b)
  stip := fun b => (h2.stip (testBit_of_sub h b)).trans (h1.stip b)
  ciph := fun b => (h2.ciph (testBit_of_sub h b)).trans (h1.ciph b)
  dram := fun b => (h2.dram (testBit_of_sub h b)).trans (h1.dram b)
  pool := fun b => (h2.pool (testBit_of_sub h b)).trans (h1.pool b)
  host := fun b => (h2.host (testBit_of_sub h b)).trans (h1.host b)
  zm := fun b => (h2.zm (testBit_of_sub h b)).trans (h1.zm b)
  med := fun b => (h2.med (testBit_of_sub h b)).trans (h1.med b)
  cam := fun b => (h2.cam (testBit_of_sub h b)).trans (h1.cam b)
  grv := fun b => (h2.grv (testBit_of_sub h b)).trans (h1.grv b)
  jnm := fun b => (h2.jnm (testBit_of_sub h b)).trans (h1.jnm b)
  pwr := fun b => (h2.pwr (testBit_of_sub h b)).trans (h1.pwr b)
  nvm := fun b => (h2.nvm (testBit_of_sub h b)).trans (h1.nvm b)
  sys := fun b => (h2.sys (testBit_of_sub h b)).trans (h1.sys b)
  dlk := fun b => (h2.dlk (testBit_of_sub h b)).trans (h1.dlk b)
  out := fun b => (h2.out (testBit_of_sub h b)).trans (h1.out b)
  reg := fun k b => (h2.reg k (testBit_of_sub h b)).trans (h1.reg k b)

theorem DevKeeps.mono {m k : Nat} {d e : Dev} (h : DevKeeps k d e) (hs : m ||| k = m) : DevKeeps m d e :=
  (DevKeeps.refl m d).step h hs

theorem StateKeeps.refl (m : Nat) (s : State) : StateKeeps m s s := ⟨.refl m _, rfl, fun _ => rfl, id⟩

theorem StateKeeps.step {m k : Nat} {s t u : State} (h1 : StateKeeps m s t) (h2 : StateKeeps k t u) (h : m ||| k = m) :
    StateKeeps m s u :=
  ⟨h1.dev.step h2.dev h, h2.pending.trans h1.pending, fun b => (h2.mem (testBit_of_sub h b)).trans (h1.mem b), fun w => h2.wf (h1.wf w)⟩

/-- Where every part may change, nothing is said. -/
theorem devMask_testBit {k : Nat} (h : k < 512) : devMask.testBit (24 + k) = true := by
  have e : devMask = 2 ^ 24 * (2 ^ (256 + 256) - 1) + (2 ^ 23 - 1) := by rw [Nat.pow_add]; rfl
  rw [e, Nat.testBit_two_pow_mul_add _ (by decide), if_neg (by omega), Nat.add_sub_cancel_left, Nat.testBit_two_pow_sub_one]
  simpa using h

theorem DevKeeps.all (d e : Dev) : DevKeeps devMask d e := by
  constructor
  case reg => intro k h; rw [devMask_testBit (Nat.mod_lt _ (by decide))] at h; cases h
  all_goals intro h; exact absurd h (by decide)

theorem StateKeeps.all {s t : State} (hp : t.pending = s.pending) (hw : Memory.wf s.mem = true → Memory.wf t.mem = true) :
    StateKeeps allMask s t := ⟨(DevKeeps.all _ _).mono (by decide), hp, fun h => absurd h (by decide), hw⟩

theorem StateKeeps.setDev {m : Nat} {s t : State} {d : Dev} (h : StateKeeps m s t) (hd : DevKeeps m s.dev d) :
    StateKeeps m s { t with dev := d } := ⟨hd, h.pending, h.mem, h.wf⟩

theorem StateKeeps.modDev {m : Nat} {s t : State} {f : Dev → Dev} (h : StateKeeps m s t) (hd : DevKeeps m s.dev (f t.dev)) :
    StateKeeps m s (t.modDev f) := ⟨hd, h.pending, h.mem, h.wf⟩

theorem StateKeeps.setMem {m : Nat} {s t : State} {x : Memory} (h : StateKeeps m s t) (hw : Memory.wf t.mem = true → Memory.wf x = true)
    (hm : m.testBit 23 = true) : StateKeeps m s { t with mem := x } :=
  ⟨h.dev, h.pending, fun hb => by simp [hm] at hb, fun w => hw (h.wf w)⟩

theorem StateKeeps.memPut {m : Nat} {s t : State} (k : Nat) (b : Byte) (h : StateKeeps m s t) (hm : m.testBit 23 = true) :
    StateKeeps m s { t with mem := memPut t.mem k b } :=
  ⟨h.dev, h.pending, fun hb => by simp [hm] at hb, fun w => mapWf_set k b (h.wf w)⟩

theorem StateKeeps.mem0 {m : Nat} {s t : State} {d : Dev} (h : StateKeeps m s t) (hd : DevKeeps m s.dev d) (hm : m.testBit 23 = true) :
    StateKeeps m s { t with mem := [], dev := d } :=
  ⟨hd, h.pending, fun hb => by simp [hm] at hb, fun _ => rfl⟩

/-! ### Each part written alone -/

theorem regMask_testBit (r : RegDef) : (regMask r).testBit (24 + r.num % 512) = true := by
  have e : 2 ^ (r.num % 256) * (2 ^ 256) ^ (r.num / 256 % 2) = 2 ^ (r.num % 512) := by
    rw [← Nat.pow_mul, ← Nat.pow_add]; congr 1; omega
  rw [regMask, e, Nat.add_comm, Nat.testBit_two_pow_mul_add _ (by decide), if_neg (by omega), Nat.add_sub_cancel_left]
  simp

/-- Every register. -/
abbrev regsMask : Nat := 0xFFFFFFFFFFFFFFFFFFFFFFFFFFFFFFFFFFFFFFFFFFFFFFFFFFFFFFFFFFFFFFFFFFFFFFFFFFFFFFFFFFFFFFFFFFFFFFFFFFFFFFFFFFFFFFFFFFFFFFFFFFFFFFFF000002

theorem regsMask_testBit {k : Nat} (h : k < 512) : regsMask.testBit (24 + k) = true := by
  have e : regsMask = 2 ^ 24 * (2 ^ (256 + 256) - 1) + 2 := by rw [Nat.pow_add]; rfl
  rw [e, Nat.testBit_two_pow_mul_add _ (by decide), if_neg (by omega), Nat.add_sub_cancel_left, Nat.testBit_two_pow_sub_one]
  simpa using h

theorem regMask_sub (r : RegDef) : regsMask ||| regMask r = regsMask := by
  have e : 2 ^ (r.num % 256) * (2 ^ 256) ^ (r.num / 256 % 2) = 2 ^ (r.num % 512) := by
    rw [← Nat.pow_mul, ← Nat.pow_add]; congr 1; omega
  have e2 : regsMask = 2 ^ 24 * (2 ^ (256 + 256) - 1) + 2 := by rw [Nat.pow_add]; rfl
  apply Nat.eq_of_testBit_eq
  intro i
  rw [Nat.testBit_or, e2, regMask, e, Nat.add_comm 2, Nat.testBit_two_pow_mul_add _ (by decide), Nat.testBit_two_pow_mul_add _ (by decide),
    Nat.testBit_two_pow_sub_one, Nat.testBit_two_pow]
  split
  · simp
  · have := Nat.mod_lt r.num (show 0 < 512 by decide)
    by_cases h : r.num % 512 = i - 24
    · simp [h]; omega
    · simp [h]

theorem regMask_sub_of {m : Nat} (r : RegDef) (h : m ||| regsMask = m) : m ||| regMask r = m := by
  rw [← h, Nat.or_assoc, regMask_sub]

theorem DevKeeps.set_regs {m : Nat} {d e : Dev} (x) (h : DevKeeps m d e) (hm : m ||| regsMask = m) : DevKeeps m d { e with regs := x } := by
  refine h.step (k := regsMask) ?_ hm
  constructor
  case reg => intro k b; rw [regsMask_testBit (Nat.mod_lt _ (by decide))] at b; cases b
  case regs => intro b; exact absurd b (by decide)
  all_goals intro _; rfl

/-- A register written: the others keep their values. -/
theorem Dev.regSet_keeps (d : Dev) (r : RegDef) (n i v : Nat) : DevKeeps (regMask r) d (d.regSet r n i v) where
  regs := fun b => by
    have e : (regMask r).testBit 1 = true := by
      rw [regMask, Nat.add_comm, Nat.testBit_two_pow_mul_add _ (by decide), if_pos (by decide)]; decide
    rw [e] at b; cases b
  reg := fun k b => by
    have hk : k ≠ r.key n i := by
      rintro rfl
      have e : r.key n i % 512 = r.num % 512 := by unfold RegDef.key; omega
      rw [e, regMask_testBit] at b; cases b
    exact mapFind_set_other _ _ hk
  nfree := fun _ => rfl
  bus := fun _ => rfl
  strk := fun _ => rfl
  chans := fun _ => rfl
  media := fun _ => rfl
  ecc := fun _ => rfl
  par := fun _ => rfl
  stip := fun _ => rfl
  ciph := fun _ => rfl
  dram := fun _ => rfl
  pool := fun _ => rfl
  host := fun _ => rfl
  zm := fun _ => rfl
  med := fun _ => rfl
  cam := fun _ => rfl
  grv := fun _ => rfl
  jnm := fun _ => rfl
  pwr := fun _ => rfl
  nvm := fun _ => rfl
  sys := fun _ => rfl
  dlk := fun _ => rfl
  out := fun _ => rfl

theorem Dev.wrx_keeps (d : Dev) (n i : Nat) (f : Fld) (v : Nat) : DevKeeps (regMask f.reg) d (d.wrx n i f v) := d.regSet_keeps _ _ _ _
theorem Dev.wr_keeps (d : Dev) (f : Fld) (v : Nat) : DevKeeps (regMask f.reg) d (d.wr f v) := d.wrx_keeps _ _ _ _
theorem Dev.wrb_keeps (d : Dev) (i : Nat) (f : Fld) (v : Nat) : DevKeeps (regMask f.reg) d (d.wrb i f v) := d.wrx_keeps _ _ _ _
theorem Dev.wrc_keeps (d : Dev) (n : Nat) (f : Fld) (v : Nat) : DevKeeps (regMask f.reg) d (d.wrc n f v) := d.wrx_keeps _ _ _ _
theorem Dev.addx_keeps (d : Dev) (n i : Nat) (f : Fld) (k : Nat) : DevKeeps (regMask f.reg) d (d.addx n i f k) := d.wrx_keeps _ _ _ _
theorem Dev.add_keeps (d : Dev) (f : Fld) (k : Nat) : DevKeeps (regMask f.reg) d (d.add f k) := d.addx_keeps _ _ _ _
theorem Dev.addc_keeps (d : Dev) (n : Nat) (f : Fld) (k : Nat) : DevKeeps (regMask f.reg) d (d.addc n f k) := d.addx_keeps _ _ _ _
theorem Dev.flagIf_keeps (d : Dev) (c : Bool) (f : Fld) : DevKeeps (regMask f.reg) d (d.flagIf c f) := by
  unfold Dev.flagIf; split
  · exact d.wr_keeps _ _
  · exact .refl _ _
theorem Dev.flagcIf_keeps (d : Dev) (c : Bool) (n : Nat) (f : Fld) : DevKeeps (regMask f.reg) d (d.flagcIf c n f) := by
  unfold Dev.flagcIf; split
  · exact d.wrc_keeps _ _ _
  · exact .refl _ _

theorem DevKeeps.set_nfree {m : Nat} {d e : Dev} (x) (h : DevKeeps m d e) (hm : m.testBit 0 = true) : DevKeeps m d { e with nfree := x } where
  nfree := fun b => by simp [hm] at b
  regs := h.regs
  bus := h.bus
  strk := h.strk
  chans := h.chans
  media := h.media
  ecc := h.ecc
  par := h.par
  stip := h.stip
  ciph := h.ciph
  dram := h.dram
  pool := h.pool
  host := h.host
  zm := h.zm
  med := h.med
  cam := h.cam
  grv := h.grv
  jnm := h.jnm
  pwr := h.pwr
  nvm := h.nvm
  sys := h.sys
  dlk := h.dlk
  out := h.out
  reg := h.reg
theorem DevKeeps.set_bus {m : Nat} {d e : Dev} (x) (h : DevKeeps m d e) (hm : m.testBit 2 = true) : DevKeeps m d { e with bus := x } where
  nfree := h.nfree
  regs := h.regs
  bus := fun b => by simp [hm] at b
  strk := h.strk
  chans := h.chans
  media := h.media
  ecc := h.ecc
  par := h.par
  stip := h.stip
  ciph := h.ciph
  dram := h.dram
  pool := h.pool
  host := h.host
  zm := h.zm
  med := h.med
  cam := h.cam
  grv := h.grv
  jnm := h.jnm
  pwr := h.pwr
  nvm := h.nvm
  sys := h.sys
  dlk := h.dlk
  out := h.out
  reg := h.reg
theorem DevKeeps.set_strk {m : Nat} {d e : Dev} (x) (h : DevKeeps m d e) (hm : m.testBit 3 = true) : DevKeeps m d { e with strk := x } where
  nfree := h.nfree
  regs := h.regs
  bus := h.bus
  strk := fun b => by simp [hm] at b
  chans := h.chans
  media := h.media
  ecc := h.ecc
  par := h.par
  stip := h.stip
  ciph := h.ciph
  dram := h.dram
  pool := h.pool
  host := h.host
  zm := h.zm
  med := h.med
  cam := h.cam
  grv := h.grv
  jnm := h.jnm
  pwr := h.pwr
  nvm := h.nvm
  sys := h.sys
  dlk := h.dlk
  out := h.out
  reg := h.reg
theorem DevKeeps.set_chans {m : Nat} {d e : Dev} (x) (h : DevKeeps m d e) (hm : m.testBit 4 = true) : DevKeeps m d { e with chans := x } where
  nfree := h.nfree
  regs := h.regs
  bus := h.bus
  strk := h.strk
  chans := fun b => by simp [hm] at b
  media := h.media
  ecc := h.ecc
  par := h.par
  stip := h.stip
  ciph := h.ciph
  dram := h.dram
  pool := h.pool
  host := h.host
  zm := h.zm
  med := h.med
  cam := h.cam
  grv := h.grv
  jnm := h.jnm
  pwr := h.pwr
  nvm := h.nvm
  sys := h.sys
  dlk := h.dlk
  out := h.out
  reg := h.reg
theorem DevKeeps.set_media {m : Nat} {d e : Dev} (x) (h : DevKeeps m d e) (hm : m.testBit 5 = true) : DevKeeps m d { e with media := x } where
  nfree := h.nfree
  regs := h.regs
  bus := h.bus
  strk := h.strk
  chans := h.chans
  media := fun b => by simp [hm] at b
  ecc := h.ecc
  par := h.par
  stip := h.stip
  ciph := h.ciph
  dram := h.dram
  pool := h.pool
  host := h.host
  zm := h.zm
  med := h.med
  cam := h.cam
  grv := h.grv
  jnm := h.jnm
  pwr := h.pwr
  nvm := h.nvm
  sys := h.sys
  dlk := h.dlk
  out := h.out
  reg := h.reg
theorem DevKeeps.set_ecc {m : Nat} {d e : Dev} (x) (h : DevKeeps m d e) (hm : m.testBit 6 = true) : DevKeeps m d { e with ecc := x } where
  nfree := h.nfree
  regs := h.regs
  bus := h.bus
  strk := h.strk
  chans := h.chans
  media := h.media
  ecc := fun b => by simp [hm] at b
  par := h.par
  stip := h.stip
  ciph := h.ciph
  dram := h.dram
  pool := h.pool
  host := h.host
  zm := h.zm
  med := h.med
  cam := h.cam
  grv := h.grv
  jnm := h.jnm
  pwr := h.pwr
  nvm := h.nvm
  sys := h.sys
  dlk := h.dlk
  out := h.out
  reg := h.reg
theorem DevKeeps.set_par {m : Nat} {d e : Dev} (x) (h : DevKeeps m d e) (hm : m.testBit 7 = true) : DevKeeps m d { e with par := x } where
  nfree := h.nfree
  regs := h.regs
  bus := h.bus
  strk := h.strk
  chans := h.chans
  media := h.media
  ecc := h.ecc
  par := fun b => by simp [hm] at b
  stip := h.stip
  ciph := h.ciph
  dram := h.dram
  pool := h.pool
  host := h.host
  zm := h.zm
  med := h.med
  cam := h.cam
  grv := h.grv
  jnm := h.jnm
  pwr := h.pwr
  nvm := h.nvm
  sys := h.sys
  dlk := h.dlk
  out := h.out
  reg := h.reg
theorem DevKeeps.set_stip {m : Nat} {d e : Dev} (x) (h : DevKeeps m d e) (hm : m.testBit 8 = true) : DevKeeps m d { e with stip := x } where
  nfree := h.nfree
  regs := h.regs
  bus := h.bus
  strk := h.strk
  chans := h.chans
  media := h.media
  ecc := h.ecc
  par := h.par
  stip := fun b => by simp [hm] at b
  ciph := h.ciph
  dram := h.dram
  pool := h.pool
  host := h.host
  zm := h.zm
  med := h.med
  cam := h.cam
  grv := h.grv
  jnm := h.jnm
  pwr := h.pwr
  nvm := h.nvm
  sys := h.sys
  dlk := h.dlk
  out := h.out
  reg := h.reg
theorem DevKeeps.set_ciph {m : Nat} {d e : Dev} (x) (h : DevKeeps m d e) (hm : m.testBit 9 = true) : DevKeeps m d { e with ciph := x } where
  nfree := h.nfree
  regs := h.regs
  bus := h.bus
  strk := h.strk
  chans := h.chans
  media := h.media
  ecc := h.ecc
  par := h.par
  stip := h.stip
  ciph := fun b => by simp [hm] at b
  dram := h.dram
  pool := h.pool
  host := h.host
  zm := h.zm
  med := h.med
  cam := h.cam
  grv := h.grv
  jnm := h.jnm
  pwr := h.pwr
  nvm := h.nvm
  sys := h.sys
  dlk := h.dlk
  out := h.out
  reg := h.reg
theorem DevKeeps.set_dram {m : Nat} {d e : Dev} (x) (h : DevKeeps m d e) (hm : m.testBit 10 = true) : DevKeeps m d { e with dram := x } where
  nfree := h.nfree
  regs := h.regs
  bus := h.bus
  strk := h.strk
  chans := h.chans
  media := h.media
  ecc := h.ecc
  par := h.par
  stip := h.stip
  ciph := h.ciph
  dram := fun b => by simp [hm] at b
  pool := h.pool
  host := h.host
  zm := h.zm
  med := h.med
  cam := h.cam
  grv := h.grv
  jnm := h.jnm
  pwr := h.pwr
  nvm := h.nvm
  sys := h.sys
  dlk := h.dlk
  out := h.out
  reg := h.reg
theorem DevKeeps.set_pool {m : Nat} {d e : Dev} (x) (h : DevKeeps m d e) (hm : m.testBit 11 = true) : DevKeeps m d { e with pool := x } where
  nfree := h.nfree
  regs := h.regs
  bus := h.bus
  strk := h.strk
  chans := h.chans
  media := h.media
  ecc := h.ecc
  par := h.par
  stip := h.stip
  ciph := h.ciph
  dram := h.dram
  pool := fun b => by simp [hm] at b
  host := h.host
  zm := h.zm
  med := h.med
  cam := h.cam
  grv := h.grv
  jnm := h.jnm
  pwr := h.pwr
  nvm := h.nvm
  sys := h.sys
  dlk := h.dlk
  out := h.out
  reg := h.reg
theorem DevKeeps.set_host {m : Nat} {d e : Dev} (x) (h : DevKeeps m d e) (hm : m.testBit 12 = true) : DevKeeps m d { e with host := x } where
  nfree := h.nfree
  regs := h.regs
  bus := h.bus
  strk := h.strk
  chans := h.chans
  media := h.media
  ecc := h.ecc
  par := h.par
  stip := h.stip
  ciph := h.ciph
  dram := h.dram
  pool := h.pool
  host := fun b => by simp [hm] at b
  zm := h.zm
  med := h.med
  cam := h.cam
  grv := h.grv
  jnm := h.jnm
  pwr := h.pwr
  nvm := h.nvm
  sys := h.sys
  dlk := h.dlk
  out := h.out
  reg := h.reg
theorem DevKeeps.set_zm {m : Nat} {d e : Dev} (x) (h : DevKeeps m d e) (hm : m.testBit 13 = true) : DevKeeps m d { e with zm := x } where
  nfree := h.nfree
  regs := h.regs
  bus := h.bus
  strk := h.strk
  chans := h.chans
  media := h.media
  ecc := h.ecc
  par := h.par
  stip := h.stip
  ciph := h.ciph
  dram := h.dram
  pool := h.pool
  host := h.host
  zm := fun b => by simp [hm] at b
  med := h.med
  cam := h.cam
  grv := h.grv
  jnm := h.jnm
  pwr := h.pwr
  nvm := h.nvm
  sys := h.sys
  dlk := h.dlk
  out := h.out
  reg := h.reg
theorem DevKeeps.set_med {m : Nat} {d e : Dev} (x) (h : DevKeeps m d e) (hm : m.testBit 14 = true) : DevKeeps m d { e with med := x } where
  nfree := h.nfree
  regs := h.regs
  bus := h.bus
  strk := h.strk
  chans := h.chans
  media := h.media
  ecc := h.ecc
  par := h.par
  stip := h.stip
  ciph := h.ciph
  dram := h.dram
  pool := h.pool
  host := h.host
  zm := h.zm
  med := fun b => by simp [hm] at b
  cam := h.cam
  grv := h.grv
  jnm := h.jnm
  pwr := h.pwr
  nvm := h.nvm
  sys := h.sys
  dlk := h.dlk
  out := h.out
  reg := h.reg
theorem DevKeeps.set_cam {m : Nat} {d e : Dev} (x) (h : DevKeeps m d e) (hm : m.testBit 15 = true) : DevKeeps m d { e with cam := x } where
  nfree := h.nfree
  regs := h.regs
  bus := h.bus
  strk := h.strk
  chans := h.chans
  media := h.media
  ecc := h.ecc
  par := h.par
  stip := h.stip
  ciph := h.ciph
  dram := h.dram
  pool := h.pool
  host := h.host
  zm := h.zm
  med := h.med
  cam := fun b => by simp [hm] at b
  grv := h.grv
  jnm := h.jnm
  pwr := h.pwr
  nvm := h.nvm
  sys := h.sys
  dlk := h.dlk
  out := h.out
  reg := h.reg
theorem DevKeeps.set_grv {m : Nat} {d e : Dev} (x) (h : DevKeeps m d e) (hm : m.testBit 16 = true) : DevKeeps m d { e with grv := x } where
  nfree := h.nfree
  regs := h.regs
  bus := h.bus
  strk := h.strk
  chans := h.chans
  media := h.media
  ecc := h.ecc
  par := h.par
  stip := h.stip
  ciph := h.ciph
  dram := h.dram
  pool := h.pool
  host := h.host
  zm := h.zm
  med := h.med
  cam := h.cam
  grv := fun b => by simp [hm] at b
  jnm := h.jnm
  pwr := h.pwr
  nvm := h.nvm
  sys := h.sys
  dlk := h.dlk
  out := h.out
  reg := h.reg
theorem DevKeeps.set_jnm {m : Nat} {d e : Dev} (x) (h : DevKeeps m d e) (hm : m.testBit 17 = true) : DevKeeps m d { e with jnm := x } where
  nfree := h.nfree
  regs := h.regs
  bus := h.bus
  strk := h.strk
  chans := h.chans
  media := h.media
  ecc := h.ecc
  par := h.par
  stip := h.stip
  ciph := h.ciph
  dram := h.dram
  pool := h.pool
  host := h.host
  zm := h.zm
  med := h.med
  cam := h.cam
  grv := h.grv
  jnm := fun b => by simp [hm] at b
  pwr := h.pwr
  nvm := h.nvm
  sys := h.sys
  dlk := h.dlk
  out := h.out
  reg := h.reg
theorem DevKeeps.set_pwr {m : Nat} {d e : Dev} (x) (h : DevKeeps m d e) (hm : m.testBit 18 = true) : DevKeeps m d { e with pwr := x } where
  nfree := h.nfree
  regs := h.regs
  bus := h.bus
  strk := h.strk
  chans := h.chans
  media := h.media
  ecc := h.ecc
  par := h.par
  stip := h.stip
  ciph := h.ciph
  dram := h.dram
  pool := h.pool
  host := h.host
  zm := h.zm
  med := h.med
  cam := h.cam
  grv := h.grv
  jnm := h.jnm
  pwr := fun b => by simp [hm] at b
  nvm := h.nvm
  sys := h.sys
  dlk := h.dlk
  out := h.out
  reg := h.reg
theorem DevKeeps.set_nvm {m : Nat} {d e : Dev} (x) (h : DevKeeps m d e) (hm : m.testBit 19 = true) : DevKeeps m d { e with nvm := x } where
  nfree := h.nfree
  regs := h.regs
  bus := h.bus
  strk := h.strk
  chans := h.chans
  media := h.media
  ecc := h.ecc
  par := h.par
  stip := h.stip
  ciph := h.ciph
  dram := h.dram
  pool := h.pool
  host := h.host
  zm := h.zm
  med := h.med
  cam := h.cam
  grv := h.grv
  jnm := h.jnm
  pwr := h.pwr
  nvm := fun b => by simp [hm] at b
  sys := h.sys
  dlk := h.dlk
  out := h.out
  reg := h.reg
theorem DevKeeps.set_sys {m : Nat} {d e : Dev} (x) (h : DevKeeps m d e) (hm : m.testBit 20 = true) : DevKeeps m d { e with sys := x } where
  nfree := h.nfree
  regs := h.regs
  bus := h.bus
  strk := h.strk
  chans := h.chans
  media := h.media
  ecc := h.ecc
  par := h.par
  stip := h.stip
  ciph := h.ciph
  dram := h.dram
  pool := h.pool
  host := h.host
  zm := h.zm
  med := h.med
  cam := h.cam
  grv := h.grv
  jnm := h.jnm
  pwr := h.pwr
  nvm := h.nvm
  sys := fun b => by simp [hm] at b
  dlk := h.dlk
  out := h.out
  reg := h.reg
theorem DevKeeps.set_dlk {m : Nat} {d e : Dev} (x) (h : DevKeeps m d e) (hm : m.testBit 21 = true) : DevKeeps m d { e with dlk := x } where
  nfree := h.nfree
  regs := h.regs
  bus := h.bus
  strk := h.strk
  chans := h.chans
  media := h.media
  ecc := h.ecc
  par := h.par
  stip := h.stip
  ciph := h.ciph
  dram := h.dram
  pool := h.pool
  host := h.host
  zm := h.zm
  med := h.med
  cam := h.cam
  grv := h.grv
  jnm := h.jnm
  pwr := h.pwr
  nvm := h.nvm
  sys := h.sys
  dlk := fun b => by simp [hm] at b
  out := h.out
  reg := h.reg
theorem DevKeeps.set_out {m : Nat} {d e : Dev} (x) (h : DevKeeps m d e) (hm : m.testBit 22 = true) : DevKeeps m d { e with out := x } where
  nfree := h.nfree
  regs := h.regs
  bus := h.bus
  strk := h.strk
  chans := h.chans
  media := h.media
  ecc := h.ecc
  par := h.par
  stip := h.stip
  ciph := h.ciph
  dram := h.dram
  pool := h.pool
  host := h.host
  zm := h.zm
  med := h.med
  cam := h.cam
  grv := h.grv
  jnm := h.jnm
  pwr := h.pwr
  nvm := h.nvm
  sys := h.sys
  dlk := h.dlk
  out := fun b => by simp [hm] at b
  reg := h.reg

/-! ### Reads that a frame keeps -/

section Reads
variable {m : Nat} {d e : Dev}

theorem DevKeeps.regGet (h : DevKeeps m d e) (r : RegDef) (n i : Nat) (hm : m.testBit (24 + r.num % 512) = false) :
    e.regGet r n i = d.regGet r n i := by
  have hk : r.key n i % 512 = r.num % 512 := by unfold RegDef.key; omega
  have e1 := h.reg (r.key n i) (by rw [hk]; exact hm)
  unfold Dev.regGet
  rw [mapGet_eq_getD, mapGet_eq_getD, e1]
theorem DevKeeps.rdx (h : DevKeeps m d e) (n i : Nat) (f : Fld) (hm : m.testBit (24 + f.reg.num % 512) = false) : e.rdx n i f = d.rdx n i f := by
  unfold Dev.rdx; rw [h.regGet _ _ _ hm]
theorem DevKeeps.rd (h : DevKeeps m d e) (f : Fld) (hm : m.testBit (24 + f.reg.num % 512) = false) : e.rd f = d.rd f := h.rdx 0 0 f hm
theorem DevKeeps.rdc (h : DevKeeps m d e) (n : Nat) (f : Fld) (hm : m.testBit (24 + f.reg.num % 512) = false) : e.rdc n f = d.rdc n f :=
  h.rdx n 0 f hm
theorem DevKeeps.rdb (h : DevKeeps m d e) (i : Nat) (f : Fld) (hm : m.testBit (24 + f.reg.num % 512) = false) : e.rdb i f = d.rdb i f :=
  h.rdx 0 i f hm
theorem DevKeeps.chan (h : DevKeeps m d e) (n : Nat) (hm : m.testBit 4 = false) : e.chan n = d.chan n := by unfold Dev.chan; rw [h.chans hm]
theorem DevKeeps.func (h : DevKeeps m d e) (n : Nat) (hm : m.testBit 12 = false) : e.func n = d.func n := by unfold Dev.func; rw [h.host hm]
theorem DevKeeps.slot (h : DevKeeps m d e) (n : Nat) (hm : m.testBit 12 = false) : e.slot? n = d.slot? n := by unfold Dev.slot?; rw [h.host hm]

end Reads

/-! ### Results that hold a device or a state -/

/-- `P` holds of what an `.ok` answers. -/
@[reducible] def OkP {ε α : Type} (P : α → Prop) : Except ε α → Prop
  | .ok x => P x
  | .error _ => True
@[reducible] def SomeP {α : Type} (P : α → Prop) : Option α → Prop
  | some x => P x
  | none => True
@[reducible] def FstP {α β : Type} (P : α → Prop) (x : α × β) : Prop := P x.1
@[reducible] def SndP {α β : Type} (P : β → Prop) (x : α × β) : Prop := P x.2
/-- `P` holds of the next state of an outcome. -/
@[reducible] def NextP (P : State → Prop) : Host.Outcome State Fault Refusal → Prop
  | .next t => P t
  | _ => True

section Results
variable {ε α β σ : Type} {P Q : α → Prop}

theorem OkP.ok {x : α} (h : P x) : OkP (ε := ε) P (.ok x) := h
theorem OkP.error {e : ε} : OkP P (.error e) := trivial
theorem OkP.get {r : Except ε α} {x : α} (h : OkP P r) (e : r = .ok x) : P x := by subst e; exact h
theorem OkP.mono {r : Except ε α} (h : OkP P r) (f : ∀ x, P x → Q x) : OkP Q r := by cases r <;> [trivial; exact f _ h]
theorem SomeP.some {x : α} (h : P x) : SomeP P (.some x) := h
theorem SomeP.none : SomeP P .none := trivial
theorem SomeP.get {r : Option α} {x : α} (h : SomeP P r) (e : r = .some x) : P x := by subst e; exact h
theorem SomeP.mono {r : Option α} (h : SomeP P r) (f : ∀ x, P x → Q x) : SomeP Q r := by cases r <;> [trivial; exact f _ h]
theorem FstP.mk {x : α} {y : β} (h : P x) : FstP P (x, y) := h
theorem FstP.fst {p : α × β} (h : FstP P p) : P p.1 := h
theorem FstP.get {p : α × β} {x : α} {y : β} (h : FstP P p) (e : p = (x, y)) : P x := by subst e; exact h
theorem FstP.mono {p : α × β} (h : FstP P p) (f : ∀ x, P x → Q x) : FstP Q p := f _ h
theorem SndP.mk {x : β} {y : α} {P : β → Prop} (h : P x) : SndP P (y, x) := h
theorem SndP.snd {p : α × β} {P : β → Prop} (h : SndP P p) : P p.2 := h
theorem SndP.get {p : α × β} {P : β → Prop} {x : α} {y : β} (h : SndP P p) (e : p = (x, y)) : P y := by subst e; exact h
theorem SndP.mono {p : α × β} {P Q : β → Prop} (h : SndP P p) (f : ∀ x, P x → Q x) : SndP Q p := f _ h
theorem NextP.next {P : State → Prop} {t : State} (h : P t) : NextP P (.next t) := h
theorem NextP.fault {P : State → Prop} {r : Fault} : NextP P (.fault r) := trivial
theorem NextP.refused {P : State → Prop} {r : Refusal} : NextP P (.refused r) := trivial
theorem NextP.get {P : State → Prop} {r : Host.Outcome State Fault Refusal} {t : State} (h : NextP P r) (e : r = .next t) : P t := by
  subst e; exact h

theorem foldl_keeps (P : σ → Prop) {f : σ → α → σ} {l : List α} {x : σ} (h0 : P x) (h : ∀ y a, P y → P (f y a)) : P (l.foldl f x) := by
  induction l generalizing x with
  | nil => exact h0
  | cons a l ih => exact ih (h x a h0)

theorem forUpTo_keeps (P : σ → Prop) {f : Nat → σ → σ} {n : Nat} {x : σ} (h0 : P x) (h : ∀ a y, P y → P (f a y)) : P (forUpTo n f x) := by
  unfold forUpTo
  exact foldl_keeps P h0 fun y a hy => h a y hy

theorem iteP {c : Prop} [Decidable c] {x y : α} (h1 : c → P x) (h2 : ¬c → P y) : P (if c then x else y) := by
  split
  · exact h1 ‹_›
  · exact h2 ‹_›

end Results

theorem DevKeeps.foldl {α : Type} {m : Nat} {d : Dev} {f : Dev → α → Dev} {l : List α} {x : Dev} (h0 : DevKeeps m d x)
    (h : ∀ y a, DevKeeps m d y → DevKeeps m d (f y a)) : DevKeeps m d (l.foldl f x) := foldl_keeps (DevKeeps m d) h0 h
theorem FstP.foldl {α β : Type} {m : Nat} {d : Dev} {f : Dev × β → α → Dev × β} {l : List α} {x : Dev × β} (h0 : FstP (DevKeeps m d) x)
    (h : ∀ y a, FstP (DevKeeps m d) y → FstP (DevKeeps m d) (f y a)) : FstP (DevKeeps m d) (l.foldl f x) :=
  foldl_keeps (FstP (DevKeeps m d)) h0 h
theorem SndP.foldl {α β : Type} {m : Nat} {d : Dev} {f : β × Dev → α → β × Dev} {l : List α} {x : β × Dev} (h0 : SndP (DevKeeps m d) x)
    (h : ∀ y a, SndP (DevKeeps m d) y → SndP (DevKeeps m d) (f y a)) : SndP (DevKeeps m d) (l.foldl f x) :=
  foldl_keeps (SndP (DevKeeps m d)) h0 h
theorem StateKeeps.foldl {α : Type} {m : Nat} {d : State} {f : State → α → State} {l : List α} {x : State} (h0 : StateKeeps m d x)
    (h : ∀ y a, StateKeeps m d y → StateKeeps m d (f y a)) : StateKeeps m d (l.foldl f x) := foldl_keeps (StateKeeps m d) h0 h
theorem DevKeeps.forUpTo {m : Nat} {d : Dev} {f : Nat → Dev → Dev} {n : Nat} {x : Dev} (h0 : DevKeeps m d x)
    (h : ∀ a y, DevKeeps m d y → DevKeeps m d (f a y)) : DevKeeps m d (forUpTo n f x) := forUpTo_keeps (DevKeeps m d) h0 h
theorem StateKeeps.forUpTo {m : Nat} {d : State} {f : Nat → State → State} {n : Nat} {x : State} (h0 : StateKeeps m d x)
    (h : ∀ a y, StateKeeps m d y → StateKeeps m d (f a y)) : StateKeeps m d (forUpTo n f x) := forUpTo_keeps (StateKeeps m d) h0 h

section Steps
variable {m k : Nat} {d e : Dev} {s t : State}

theorem DevKeeps.stepOk {ε : Type} {r : Except ε Dev} (h1 : DevKeeps m d e) (h2 : OkP (DevKeeps k e) r) (h : m ||| k = m) :
    OkP (DevKeeps m d) r := h2.mono fun _ h3 => h1.step h3 h
theorem DevKeeps.stepSome {r : Option Dev} (h1 : DevKeeps m d e) (h2 : SomeP (DevKeeps k e) r) (h : m ||| k = m) :
    SomeP (DevKeeps m d) r := h2.mono fun _ h3 => h1.step h3 h
theorem DevKeeps.stepFst {β : Type} {r : Dev × β} (h1 : DevKeeps m d e) (h2 : FstP (DevKeeps k e) r) (h : m ||| k = m) :
    FstP (DevKeeps m d) r := h2.mono fun _ h3 => h1.step h3 h
theorem DevKeeps.stepSnd {β : Type} {r : β × Dev} (h1 : DevKeeps m d e) (h2 : SndP (DevKeeps k e) r) (h : m ||| k = m) :
    SndP (DevKeeps m d) r := h2.mono fun _ h3 => h1.step h3 h
theorem DevKeeps.stepSndSnd {β γ : Type} {r : β × γ × Dev} (h1 : DevKeeps m d e) (h2 : SndP (SndP (DevKeeps k e)) r) (h : m ||| k = m) :
    SndP (SndP (DevKeeps m d)) r := h2.mono fun _ h3 => h3.mono fun _ h4 => h1.step h4 h
theorem StateKeeps.stepOk {ε : Type} {r : Except ε State} (h1 : StateKeeps m s t) (h2 : OkP (StateKeeps k t) r) (h : m ||| k = m) :
    OkP (StateKeeps m s) r := h2.mono fun _ h3 => h1.step h3 h
theorem StateKeeps.stepSome {r : Option State} (h1 : StateKeeps m s t) (h2 : SomeP (StateKeeps k t) r) (h : m ||| k = m) :
    SomeP (StateKeeps m s) r := h2.mono fun _ h3 => h1.step h3 h
theorem StateKeeps.stepSnd {β : Type} {r : β × State} (h1 : StateKeeps m s t) (h2 : SndP (StateKeeps k t) r) (h : m ||| k = m) :
    SndP (StateKeeps m s) r := h2.mono fun _ h3 => h1.step h3 h
theorem StateKeeps.stepSndSnd {β γ : Type} {r : β × γ × State} (h1 : StateKeeps m s t) (h2 : SndP (SndP (StateKeeps k t)) r)
    (h : m ||| k = m) : SndP (SndP (StateKeeps m s)) r := h2.mono fun _ h3 => h3.mono fun _ h4 => h1.step h4 h
theorem StateKeeps.stepNext {r : Host.Outcome State Fault Refusal} (h1 : StateKeeps m s t) (h2 : NextP (StateKeeps k t) r)
    (h : m ||| k = m) : NextP (StateKeeps m s) r := by
  cases r with
  | next u => exact h1.step (show StateKeeps k t u from h2) h
  | fault _ => trivial
  | refused _ => trivial

end Steps

/-! ### The shapes of a command -/

theorem onDev_keeps {m : Nat} {s : State} {f : Dev → Except String Dev} (h : OkP (DevKeeps m s.dev) (f s.dev)) :
    NextP (StateKeeps m s) (onDev s f) := by
  unfold onDev
  split
  · next d hd => exact ⟨h.get hd, rfl, fun _ => rfl, id⟩
  · exact StateKeeps.refl _ _

theorem onDevThen_keeps {m : Nat} {s : State} {f : Dev → Except String Dev} {g : State → State} (h : OkP (DevKeeps m s.dev) (f s.dev))
    (hg : ∀ t, StateKeeps m s t → StateKeeps m s (g t)) : NextP (StateKeeps m s) (onDevThen s f g) := by
  unfold onDevThen
  split
  · next d hd => exact hg _ ⟨h.get hd, rfl, fun _ => rfl, id⟩
  · exact StateKeeps.refl _ _

theorem onlyIf_keeps {m : Nat} {d0 d : Dev} {b : Bool} {w : String} {f : Dev → Dev} (h : DevKeeps m d0 (f d)) :
    OkP (DevKeeps m d0) (onlyIf b w f d) := by
  unfold onlyIf; split
  · exact h
  · trivial

theorem always_keeps {m : Nat} {d0 d : Dev} {f : Dev → Dev} (h : DevKeeps m d0 (f d)) : OkP (DevKeeps m d0) (always f d) := h

theorem orRsv_keeps {m : Nat} {d0 d : Dev} {b : Bool} {f : Dev → Dev} (hd : DevKeeps m d0 d) (h : DevKeeps m d0 (f d))
    (hm : m.testBit 0 = true) : OkP (DevKeeps m d0) (orRsv b f d) := by
  have ht : ∀ e, DevKeeps m d0 e → DevKeeps m d0 (e.tick 1) := fun e he => he.set_nfree _ hm
  refine OkP.ok ?_
  refine iteP (P := DevKeeps m d0) (fun _ => ht _ ?_) (fun _ => h)
  exact iteP (P := DevKeeps m d0) (fun _ => h) (fun _ => hd)

theorem orRsvWide_keeps {m : Nat} {s t : State} {b : Bool} {f : State → State} (hs : StateKeeps m s t) (h : StateKeeps m s (f t))
    (hm : m.testBit 0 = true) : StateKeeps m s (orRsvWide b f t) := by
  have ht : ∀ u, StateKeeps m s u → StateKeeps m s { u with dev := u.dev.tick 1 } := fun u hu => hu.setDev (hu.dev.set_nfree _ hm)
  refine iteP (P := StateKeeps m s) (fun _ => ht _ ?_) (fun _ => h)
  exact iteP (P := StateKeeps m s) (fun _ => h) (fun _ => hs)

theorem onSlot_keeps {m k op : Nat} {a : Bool} {d0 d : Dev} {g : Slot → Dev → Except String Dev} (hd : DevKeeps m d0 d)
    (hm : m.testBit 12 = true) (h : ∀ x, OkP (DevKeeps m d0) (g x d)) : OkP (DevKeeps m d0) (onSlot k a op g d) := by
  unfold onSlot
  split
  · split
    · split
      · show DevKeeps m d0 (d.modSlot k _)
        unfold Dev.modSlot
        split
        · exact hd.set_host _ hm
        · exact hd
      · exact h _
    · trivial
  · trivial

end Sys2Proof.Machine
end

