-- ==== Sys2Proof/Laws/KeepOps.lean ====
section
/-! SUPPORT. What each operation of Machine/Ops.lean leaves as it was. -/

namespace Sys2Proof.Machine

theorem noEvent_keeps (a0 : String) (s : State) :
    NextP (StateKeeps 0 s) (noEvent a0 s) := by
  unfold noEvent
  refine NextP.next ?_
  exact (.refl _ _)

theorem Dev.tick_keeps (d : Dev) (a1 : ℕ) :
    DevKeeps 1 d (Dev.tick d a1) := by
  unfold Dev.tick
  exact DevKeeps.set_nfree _ (.refl _ _) rfl

theorem faultOn_keeps (a0 : ℕ) (d : Dev) :
    DevKeeps 0x30000002 d (faultOn a0 d) := by
  unfold faultOn
  refine iteP (P := DevKeeps 0x30000002 d) (fun _ => ?_) (fun _ => ?_)
  · exact (.refl _ _)
  · exact (DevKeeps.step (DevKeeps.step (.refl _ _) (Dev.regSet_keeps _ _ _ _ _) (by rfl)) (Dev.regSet_keeps _ _ _ _ _) (by rfl))

theorem faultOff_keeps (a0 : ℕ) (d : Dev) :
    DevKeeps 0x10000002 d (faultOff a0 d) := by
  unfold faultOff
  exact (DevKeeps.step (.refl _ _) (Dev.regSet_keeps _ _ _ _ _) (by rfl))

theorem Dev.setChan_keeps (d : Dev) (a1 : ℕ) (a2 : Chan) :
    DevKeeps 16 d (Dev.setChan d a1 a2) := by
  unfold Dev.setChan
  exact DevKeeps.set_chans _ (.refl _ _) rfl

theorem Dev.modChan_keeps (d : Dev) (a1 : ℕ) (a2 : Chan → Chan) :
    DevKeeps 16 d (Dev.modChan d a1 a2) := by
  unfold Dev.modChan
  exact (DevKeeps.step (.refl _ _) (Dev.setChan_keeps _ _ _) rfl)

theorem Dev.modDie_keeps (d : Dev) (a1 : ℕ) (a2 : ℕ) (a3 : Die → Die) :
    DevKeeps 16 d (Dev.modDie d a1 a2 a3) := by
  unfold Dev.modDie
  exact (DevKeeps.step (.refl _ _) (Dev.modChan_keeps _ _ _) rfl)

theorem Dev.modMed_keeps (d : Dev) (a1 : Med → Med) :
    DevKeeps 16384 d (Dev.modMed d a1) := by
  unfold Dev.modMed
  exact DevKeeps.set_med _ (.refl _ _) rfl

theorem Dev.modRow_keeps (d : Dev) (a1 : ℕ) (a2 : ℕ) (a3 : Row → Row) :
    DevKeeps 16384 d (Dev.modRow d a1 a2 a3) := by
  unfold Dev.modRow
  exact (DevKeeps.step (.refl _ _) (Dev.modMed_keeps _ _) rfl)

theorem wantReplace_keeps (a0 : ℕ) (a1 : ℕ) (a2 : ℕ) (a3 : ℕ) (d : Dev) :
    DevKeeps 16384 d (wantReplace a0 a1 a2 a3 d) := by
  unfold wantReplace
  split
  · extract_lets -merge -underBinder +onlyGivenNames x0
    clear_value x0
    split
    · extract_lets -merge -underBinder +onlyGivenNames x1
      clear_value x1
      refine iteP (P := DevKeeps 16384 d) (fun _ => ?_) (fun _ => ?_)
      · exact (.refl _ _)
      · refine iteP (P := DevKeeps 16384 d) (fun _ => ?_) (fun _ => ?_)
        · exact (DevKeeps.step (.refl _ _) (Dev.modMed_keeps _ _) rfl)
        · refine iteP (P := DevKeeps 16384 d) (fun _ => ?_) (fun _ => ?_)
          · exact (.refl _ _)
          · exact (DevKeeps.step (.refl _ _) (Dev.modMed_keeps _ _) rfl)

theorem Dev.idleFrom_keeps (d : Dev) (a1 : ℕ) :
    DevKeeps 64 d (Dev.idleFrom d a1) := by
  unfold Dev.idleFrom
  extract_lets -merge -underBinder +onlyGivenNames x0
  clear_value x0
  exact DevKeeps.set_ecc _ (.refl _ _) rfl

theorem Dev.atCycle_keeps (d : Dev) (a1 : BitVec 10) :
    DevKeeps 8 d (Dev.atCycle d a1) := by
  unfold Dev.atCycle
  extract_lets -merge -underBinder +onlyGivenNames x0
  clear_value x0
  refine iteP (P := DevKeeps 8 d) (fun _ => ?_) (fun _ => ?_)
  · exact DevKeeps.set_strk _ (.refl _ _) rfl
  · exact (.refl _ _)

end Sys2Proof.Machine
end

