-- ==== Sys2Proof/Laws/KeepHatch.lean ====
section
/-! SUPPORT. What each operation of Machine/Hatch.lean leaves as it was. -/

namespace Sys2Proof.Machine

theorem hatchEntryStore_keeps (a0 : ℕ) (a1 : Bool) (a2 : ℕ) (a3 : Bool) (a4 : Word) (d : Dev) :
    DevKeeps 0x100000000000000000000000000000000000000000000000000000000000000000000000000000000000000000000012 d (hatchEntryStore a0 a1 a2 a3 a4 d) := by
  unfold hatchEntryStore
  refine iteP (P := DevKeeps 0x100000000000000000000000000000000000000000000000000000000000000000000000000000000000000000000012 d) (fun _ => ?_) (fun _ => ?_)
  · exact (DevKeeps.step (.refl _ _) (Dev.wrc_keeps _ _ _ _) (by rfl))
  · exact (DevKeeps.step (.refl _ _) (Dev.modChan_keeps _ _ _) rfl)

theorem hatchSealStore_keeps (a0 : ℕ) (a1 : Bool) (a2 : Word) (d : Dev) :
    DevKeeps 0x100000000000000000000000000000000000000000000000000000000000000000000000000000000000000000000012 d (hatchSealStore a0 a1 a2 d) := by
  unfold hatchSealStore
  refine iteP (P := DevKeeps 0x100000000000000000000000000000000000000000000000000000000000000000000000000000000000000000000012 d) (fun _ => ?_) (fun _ => ?_)
  · exact (DevKeeps.step (.refl _ _) (Dev.wrc_keeps _ _ _ _) (by rfl))
  · exact (DevKeeps.step (.refl _ _) (Dev.modChan_keeps _ _ _) rfl)

theorem hatchDisarm_keeps (a0 : ℕ) (d : Dev) :
    DevKeeps 16 d (hatchDisarm a0 d) := by
  unfold hatchDisarm
  exact (DevKeeps.step (.refl _ _) (Dev.modChan_keeps _ _ _) rfl)

theorem hatchStop_keeps (a0 : ℕ) (d : Dev) :
    DevKeeps 16 d (hatchStop a0 d) := by
  unfold hatchStop
  extract_lets -merge -underBinder +onlyGivenNames x0
  have h0 : DevKeeps 16 d x0 := by
    subst x0
    exact (DevKeeps.step (.refl _ _) (hatchDisarm_keeps _ _) rfl)
  clear_value x0
  extract_lets -merge -underBinder +onlyGivenNames x1
  clear_value x1
  refine iteP (P := DevKeeps 16 d) (fun _ => ?_) (fun _ => ?_)
  · exact (DevKeeps.step h0 (Dev.modChan_keeps _ _ _) rfl)
  · exact h0

theorem hatchArm_keeps (a0 : ℕ) (d : Dev) :
    DevKeeps 0x100000000000000000000000000000000000000000000000000000000000000000000000000000000000000000000012 d (hatchArm a0 d) := by
  unfold hatchArm
  extract_lets -merge -underBinder +onlyGivenNames x0
  clear_value x0
  refine iteP (P := DevKeeps 0x100000000000000000000000000000000000000000000000000000000000000000000000000000000000000000000012 d) (fun _ => ?_) (fun _ => ?_)
  · exact (DevKeeps.step (.refl _ _) (Dev.wrc_keeps _ _ _ _) (by rfl))
  · exact (DevKeeps.step (.refl _ _) (Dev.modChan_keeps _ _ _) rfl)

theorem hatchCtlStore_keeps (a0 : ℕ) (a1 : ℕ) (d : Dev) :
    DevKeeps 0x180000000000000000000000000000000000000000000000000000000000000000000000000000000000000000000012 d (hatchCtlStore a0 a1 d) := by
  unfold hatchCtlStore
  extract_lets -merge -underBinder +onlyGivenNames x0
  have h0 : DevKeeps 0x180000000000000000000000000000000000000000000000000000000000000000000000000000000000000000000012 d x0 := by
    subst x0
    exact (DevKeeps.step (.refl _ _) (Dev.wrc_keeps _ _ _ _) (by rfl))
  clear_value x0
  extract_lets -merge -underBinder +onlyGivenNames x1
  have h1 : DevKeeps 0x180000000000000000000000000000000000000000000000000000000000000000000000000000000000000000000012 d x1 := by
    subst x1
    exact (DevKeeps.step h0 (Dev.wrc_keeps _ _ _ _) (by rfl))
  clear_value x1
  extract_lets -merge -underBinder +onlyGivenNames x2
  have h2 : DevKeeps 0x180000000000000000000000000000000000000000000000000000000000000000000000000000000000000000000012 d x2 := by
    subst x2
    exact (DevKeeps.step h1 (Dev.wrc_keeps _ _ _ _) (by rfl))
  clear_value x2
  extract_lets -merge -underBinder +onlyGivenNames x3
  have h3 : DevKeeps 0x180000000000000000000000000000000000000000000000000000000000000000000000000000000000000000000012 d x3 := by
    subst x3
    exact (DevKeeps.step h2 (Dev.wrc_keeps _ _ _ _) (by rfl))
  clear_value x3
  extract_lets -merge -underBinder +onlyGivenNames x4
  have h4 : DevKeeps 0x180000000000000000000000000000000000000000000000000000000000000000000000000000000000000000000012 d x4 := by
    subst x4
    refine iteP (P := DevKeeps 0x180000000000000000000000000000000000000000000000000000000000000000000000000000000000000000000012 d) (fun _ => ?_) (fun _ => ?_)
    · exact (DevKeeps.step h3 (hatchDisarm_keeps _ _) rfl)
    · exact h3
  clear_value x4
  extract_lets -merge -underBinder +onlyGivenNames x5
  have h5 : DevKeeps 0x180000000000000000000000000000000000000000000000000000000000000000000000000000000000000000000012 d x5 := by
    subst x5
    refine iteP (P := DevKeeps 0x180000000000000000000000000000000000000000000000000000000000000000000000000000000000000000000012 d) (fun _ => ?_) (fun _ => ?_)
    · exact (DevKeeps.step h4 (hatchStop_keeps _ _) rfl)
    · exact h4
  clear_value x5
  refine iteP (P := DevKeeps 0x180000000000000000000000000000000000000000000000000000000000000000000000000000000000000000000012 d) (fun _ => ?_) (fun _ => ?_)
  · exact (DevKeeps.step h5 (hatchArm_keeps _ _) rfl)
  · exact h5

theorem hatchCheckEnd_keeps (a0 : ℕ) (a1 : ArmReq) (d : Dev) :
    DevKeeps 0x100000000000000000000000000000000000000000000000000000000000000000000000000000000000000000000012 d (hatchCheckEnd a0 a1 d) := by
  unfold hatchCheckEnd
  extract_lets -merge -underBinder +onlyGivenNames x0
  clear_value x0
  extract_lets -merge -underBinder +onlyGivenNames x1
  clear_value x1
  extract_lets -merge -underBinder +onlyGivenNames x2
  clear_value x2
  extract_lets -merge -underBinder +onlyGivenNames x3
  have h3 : DevKeeps 0x100000000000000000000000000000000000000000000000000000000000000000000000000000000000000000000012 d x3 := by
    subst x3
    exact (DevKeeps.step (.refl _ _) (hatchDisarm_keeps _ _) rfl)
  clear_value x3
  extract_lets -merge -underBinder +onlyGivenNames x4
  have h4 : DevKeeps 0x100000000000000000000000000000000000000000000000000000000000000000000000000000000000000000000012 d x4 := by
    subst x4
    exact (DevKeeps.step h3 (Dev.flagcIf_keeps _ _ _ _) (by rfl))
  clear_value x4
  extract_lets -merge -underBinder +onlyGivenNames x5
  have h5 : DevKeeps 0x100000000000000000000000000000000000000000000000000000000000000000000000000000000000000000000012 d x5 := by
    subst x5
    exact (DevKeeps.step h4 (Dev.flagcIf_keeps _ _ _ _) (by rfl))
  clear_value x5
  refine iteP (P := DevKeeps 0x100000000000000000000000000000000000000000000000000000000000000000000000000000000000000000000012 d) (fun _ => ?_) (fun _ => ?_)
  · exact (DevKeeps.step h5 (Dev.flagcIf_keeps _ _ _ _) (by rfl))
  · exact (DevKeeps.step (.refl _ _) (Dev.modChan_keeps _ _ _) rfl)

theorem hatchCtlWrite_keeps (a0 : ℕ) (a1 : ℕ) (a2 : BitVec 10) (d : Dev) :
    OkP (DevKeeps 0x18000000000000000000000000000000000000000000000000000000000000000000000000000000000000000000001B d) (hatchCtlWrite a0 a1 a2 d) := by
  unfold hatchCtlWrite
  refine orRsv_keeps ?_ ?_ rfl
  · exact (.refl _ _)
  · beta_reduce
    exact (DevKeeps.step (DevKeeps.step (.refl _ _) (Dev.atCycle_keeps _ _) rfl) (hatchCtlStore_keeps _ _ _) rfl)

theorem execHatchCtlArm_keeps (a0 : Fin 48) (a1 : Word) (a2 : BitVec 10) (s : State) :
    NextP (StateKeeps 0x18000000000000000000000000000000000000000000000000000000000000000000000000000000000000000000001B s) (execHatchCtlArm a0 a1 a2 s) := by
  unfold execHatchCtlArm
  refine onDev_keeps ?_
  exact DevKeeps.stepOk (.refl _ _) (hatchCtlWrite_keeps _ _ _ _) rfl

theorem execHatchCtlDisarm_keeps (a0 : Fin 48) (a1 : Word) (a2 : BitVec 10) (s : State) :
    NextP (StateKeeps 0x18000000000000000000000000000000000000000000000000000000000000000000000000000000000000000000001B s) (execHatchCtlDisarm a0 a1 a2 s) := by
  unfold execHatchCtlDisarm
  refine onDev_keeps ?_
  exact DevKeeps.stepOk (.refl _ _) (hatchCtlWrite_keeps _ _ _ _) rfl

theorem execHatchCtlStop_keeps (a0 : Fin 48) (a1 : Word) (a2 : BitVec 10) (s : State) :
    NextP (StateKeeps 0x18000000000000000000000000000000000000000000000000000000000000000000000000000000000000000000001B s) (execHatchCtlStop a0 a1 a2 s) := by
  unfold execHatchCtlStop
  refine onDev_keeps ?_
  exact DevKeeps.stepOk (.refl _ _) (hatchCtlWrite_keeps _ _ _ _) rfl

theorem execHatchArmCheckDone_keeps (a0 : Fin 48) (a1 : BitVec 10) (s : State) :
    NextP (StateKeeps 0x10000000000000000000000000000000000000000000000000000000000000000000000000000000000000000000001A s) (execHatchArmCheckDone a0 a1 s) := by
  unfold execHatchArmCheckDone
  refine onDev_keeps ?_
  beta_reduce
  extract_lets -merge -underBinder +onlyGivenNames x0
  have h0 : DevKeeps 0x10000000000000000000000000000000000000000000000000000000000000000000000000000000000000000000001A s.dev x0 := by
    subst x0
    exact (DevKeeps.step (.refl _ _) (Dev.atCycle_keeps _ _) rfl)
  clear_value x0
  split
  · refine iteP (P := OkP (DevKeeps 0x10000000000000000000000000000000000000000000000000000000000000000000000000000000000000000000001A s.dev)) (fun _ => ?_) (fun _ => ?_)
    · refine OkP.ok ?_
      exact (DevKeeps.step h0 (hatchCheckEnd_keeps _ _ _) rfl)
    · exact trivial
  · exact trivial

theorem execHatchEntryWrite_keeps (a0 : Fin 48) (a1 : Bool) (a2 : Fin 256) (a3 : Bool) (a4 : Word) (s : State) :
    NextP (StateKeeps 0x100000000000000000000000000000000000000000000000000000000000000000000000000000000000000000000012 s) (execHatchEntryWrite a0 a1 a2 a3 a4 s) := by
  unfold execHatchEntryWrite
  refine onDev_keeps ?_
  refine always_keeps ?_
  exact (DevKeeps.step (.refl _ _) (hatchEntryStore_keeps _ _ _ _ _ _) rfl)

theorem execHatchSealWrite_keeps (a0 : Fin 48) (a1 : Bool) (a2 : Word) (s : State) :
    NextP (StateKeeps 0x100000000000000000000000000000000000000000000000000000000000000000000000000000000000000000000012 s) (execHatchSealWrite a0 a1 a2 s) := by
  unfold execHatchSealWrite
  refine onDev_keeps ?_
  refine always_keeps ?_
  exact (DevKeeps.step (.refl _ _) (hatchSealStore_keeps _ _ _ _) rfl)

end Sys2Proof.Machine
end

