-- ==== Sys2Proof/Laws/KeepCells.lean ====
section
/-! SUPPORT. What each operation of Machine/Cells.lean leaves as it was. -/

namespace Sys2Proof.Machine

theorem Dev.modPool_keeps (d : Dev) (a1 : Pool → Pool) :
    DevKeeps 2048 d (Dev.modPool d a1) := by
  unfold Dev.modPool
  exact DevKeeps.set_pool _ (.refl _ _) rfl

theorem grantCells_keeps (a0 : Option ℕ) (a1 : ℕ) (d : Dev) :
    SndP (DevKeeps 2048 d) (grantCells a0 a1 d) := by
  unfold grantCells
  split
  · extract_lets -merge -underBinder +onlyGivenNames x0
    clear_value x0
    refine SndP.mk ?_
    exact DevKeeps.set_pool _ (.refl _ _) rfl

theorem freeChain_keeps (a0 : ℕ) (d : Dev) :
    SndP (SndP (DevKeeps 0x380000000000000000000000000000000000000802 d)) (freeChain a0 d) := by
  unfold freeChain
  split
  · extract_lets -merge -underBinder +onlyGivenNames x0
    have h0 : DevKeeps 0x380000000000000000000000000000000000000802 d x0 := by
      subst x0
      exact DevKeeps.set_pool _ (.refl _ _) rfl
    clear_value x0
    split
    · refine SndP.mk ?_
      refine SndP.mk ?_
      exact (DevKeeps.step (DevKeeps.step (DevKeeps.step h0 (Dev.wr_keeps _ _ _) (by rfl)) (Dev.add_keeps _ _ _) (by rfl)) (Dev.wr_keeps _ _ _) (by rfl))
    · refine SndP.mk ?_
      refine SndP.mk ?_
      exact h0

theorem Dev.release_keeps (d : Dev) (a1 : ℕ) :
    DevKeeps 0x380000000000000000000000000000000000000802 d (Dev.release d a1) := by
  unfold Dev.release
  refine iteP (P := DevKeeps 0x380000000000000000000000000000000000000802 d) (fun _ => ?_) (fun _ => ?_)
  · exact (.refl _ _)
  · refine SndP.snd (P := DevKeeps 0x380000000000000000000000000000000000000802 d) ?_
    refine SndP.snd (P := SndP (DevKeeps 0x380000000000000000000000000000000000000802 d)) ?_
    exact DevKeeps.stepSndSnd (.refl _ _) (freeChain_keeps _ _) rfl

theorem cellAllocRequest_keeps (a0 : ℕ) (a1 : ℕ) (d : Dev) :
    DevKeeps 0x200400000000000000000000000000000000000802 d (cellAllocRequest a0 a1 d) := by
  unfold cellAllocRequest
  extract_lets -merge -underBinder +onlyGivenNames x0
  clear_value x0
  extract_lets -merge -underBinder +onlyGivenNames x1
  clear_value x1
  extract_lets -merge -underBinder +onlyGivenNames x2
  clear_value x2
  extract_lets -merge -underBinder +onlyGivenNames x3
  have h3 : DevKeeps 0x200400000000000000000000000000000000000802 d x3 := by
    subst x3
    exact (DevKeeps.step (.refl _ _) (Dev.modPool_keeps _ _) rfl)
  clear_value x3
  extract_lets -merge -underBinder +onlyGivenNames x4
  have h4 : DevKeeps 0x200400000000000000000000000000000000000802 d x4 := by
    subst x4
    exact (DevKeeps.step h3 (Dev.modPool_keeps _ _) rfl)
  clear_value x4
  refine iteP (P := DevKeeps 0x200400000000000000000000000000000000000802 d) (fun _ => ?_) (fun _ => ?_)
  · exact (DevKeeps.step (DevKeeps.step (.refl _ _) (Dev.wrb_keeps _ _ _ _) (by rfl)) (Dev.wrb_keeps _ _ _ _) (by rfl))
  · refine iteP (P := DevKeeps 0x200400000000000000000000000000000000000802 d) (fun _ => ?_) (fun _ => ?_)
    · split
      · rename_i v5_0 v5_1 q5
        have h6 : DevKeeps 0x200400000000000000000000000000000000000802 d v5_1 := by
          refine SndP.get (P := (DevKeeps 0x200400000000000000000000000000000000000802 d)) ?_ q5
          exact DevKeeps.stepSnd h3 (grantCells_keeps _ _ _) rfl
        exact (DevKeeps.step (DevKeeps.step h6 (Dev.wrb_keeps _ _ _ _) (by rfl)) (Dev.wrb_keeps _ _ _ _) (by rfl))
    · exact (DevKeeps.step (DevKeeps.step (DevKeeps.step h4 (Dev.wrb_keeps _ _ _ _) (by rfl)) (Dev.wrb_keeps _ _ _ _) (by rfl)) (Dev.wr_keeps _ _ _) (by rfl))

theorem execCellAllocRequest_keeps (a0 : Fin 64) (a1 : Word) (s : State) :
    NextP (StateKeeps 0x200400000000000000000000000000000000000803 s) (execCellAllocRequest a0 a1 s) := by
  unfold execCellAllocRequest
  refine onDev_keeps ?_
  refine orRsv_keeps ?_ ?_ rfl
  · exact (.refl _ _)
  · exact (DevKeeps.step (.refl _ _) (cellAllocRequest_keeps _ _ _) rfl)

theorem execCellAllocGrant_keeps (s : State) :
    NextP (StateKeeps 0x400000000000000000000000000000000000802 s) (execCellAllocGrant s) := by
  unfold execCellAllocGrant
  refine onDev_keeps ?_
  beta_reduce
  split
  · split
    · rename_i v0_0 v0_1 q0
      have h1 : DevKeeps 0x400000000000000000000000000000000000802 s.dev v0_1 := by
        refine SndP.get (P := (DevKeeps 0x400000000000000000000000000000000000802 s.dev)) ?_ q0
        exact DevKeeps.stepSnd (.refl _ _) (grantCells_keeps _ _ _) rfl
      extract_lets -merge -underBinder +onlyGivenNames x2
      have h2 : DevKeeps 0x400000000000000000000000000000000000802 s.dev x2 := by
        subst x2
        exact (DevKeeps.step h1 (Dev.modPool_keeps _ _) rfl)
      clear_value x2
      refine OkP.ok ?_
      exact (DevKeeps.step (DevKeeps.step h2 (Dev.wrb_keeps _ _ _ _) (by rfl)) (Dev.wrb_keeps _ _ _ _) (by rfl))
  · exact trivial

theorem cellFree_keeps (a0 : ℕ) (a1 : ℕ) (d : Dev) :
    DevKeeps 0x381000000000000000000000000000000000000802 d (cellFree a0 a1 d) := by
  unfold cellFree
  split
  · rename_i v0_0 v0_1 v0_2 q0
    have h1 : DevKeeps 0x381000000000000000000000000000000000000802 d v0_2 := by
      refine SndP.get (P := (DevKeeps 0x381000000000000000000000000000000000000802 d)) (SndP.get (P := SndP (DevKeeps 0x381000000000000000000000000000000000000802 d)) ?_ q0) rfl
      exact DevKeeps.stepSndSnd (.refl _ _) (freeChain_keeps _ _) rfl
    exact (DevKeeps.step (DevKeeps.step h1 (Dev.wrb_keeps _ _ _ _) (by rfl)) (Dev.wrb_keeps _ _ _ _) (by rfl))

theorem cellSplice_keeps (a0 : ℕ) (a1 : ℕ) (d : Dev) :
    DevKeeps 0x30C000000000000000000000000000000000000802 d (cellSplice a0 a1 d) := by
  unfold cellSplice
  extract_lets -merge -underBinder +onlyGivenNames x0
  clear_value x0
  extract_lets -merge -underBinder +onlyGivenNames x1
  have h1 : DevKeeps 0x30C000000000000000000000000000000000000802 d x1 := by
    subst x1
    exact (DevKeeps.step (.refl _ _) (Dev.wrb_keeps _ _ _ _) (by rfl))
  clear_value x1
  split
  · refine DevKeeps.step ?_ (Dev.wrb_keeps _ _ _ _) (by rfl)
    exact DevKeeps.set_pool _ h1 rfl
  · exact (DevKeeps.step (DevKeeps.step (DevKeeps.step h1 (Dev.wrb_keeps _ _ _ _) (by rfl)) (Dev.add_keeps _ _ _) (by rfl)) (Dev.wr_keeps _ _ _) (by rfl))

theorem execCellSplice_keeps (a0 : Fin 64) (a1 : Word) (s : State) :
    NextP (StateKeeps 0x30C000000000000000000000000000000000000803 s) (execCellSplice a0 a1 s) := by
  unfold execCellSplice
  refine onDev_keeps ?_
  refine orRsv_keeps ?_ ?_ rfl
  · exact (.refl _ _)
  · exact (DevKeeps.step (.refl _ _) (cellSplice_keeps _ _ _) rfl)

theorem cellCtlWrite_keeps (a0 : ℕ) (d : Dev) :
    DevKeeps 0x100000000000000000000000000000000802 d (cellCtlWrite a0 d) := by
  unfold cellCtlWrite
  extract_lets -merge -underBinder +onlyGivenNames x0
  clear_value x0
  extract_lets -merge -underBinder +onlyGivenNames x1
  have h1 : DevKeeps 0x100000000000000000000000000000000802 d x1 := by
    subst x1
    exact (DevKeeps.step (DevKeeps.step (.refl _ _) (Dev.wr_keeps _ _ _) (by rfl)) (Dev.wr_keeps _ _ _) (by rfl))
  clear_value x1
  refine iteP (P := DevKeeps 0x100000000000000000000000000000000802 d) (fun _ => ?_) (fun _ => ?_)
  · refine iteP (P := DevKeeps 0x100000000000000000000000000000000802 d) (fun _ => ?_) (fun _ => ?_)
    · exact h1
    · refine iteP (P := DevKeeps 0x100000000000000000000000000000000802 d) (fun _ => ?_) (fun _ => ?_)
      · exact (DevKeeps.step h1 (Dev.modPool_keeps _ _) rfl)
      · exact (DevKeeps.step h1 (Dev.modPool_keeps _ _) rfl)
  · exact (DevKeeps.step h1 (Dev.modPool_keeps _ _) rfl)

theorem execCellPoolEnable_keeps (a0 : Word) (s : State) :
    NextP (StateKeeps 0x100000000000000000000000000000000803 s) (execCellPoolEnable a0 s) := by
  unfold execCellPoolEnable
  refine onDev_keeps ?_
  refine orRsv_keeps ?_ ?_ rfl
  · exact (.refl _ _)
  · exact (DevKeeps.step (.refl _ _) (cellCtlWrite_keeps _ _) rfl)

theorem poolReady_keeps (d : Dev) :
    DevKeeps 0x200000000000000000000000000000000000000802 d (poolReady d) := by
  unfold poolReady
  extract_lets -merge -underBinder +onlyGivenNames x0
  clear_value x0
  extract_lets -merge -underBinder +onlyGivenNames x1
  have h1 : DevKeeps 0x200000000000000000000000000000000000000802 d x1 := by
    subst x1
    exact (DevKeeps.step (.refl _ _) (Dev.modPool_keeps _ _) rfl)
  clear_value x1
  exact (DevKeeps.step h1 (Dev.wr_keeps _ _ _) (by rfl))

theorem execCellPoolReady_keeps (s : State) :
    NextP (StateKeeps 0x200000000000000000000000000000000000000802 s) (execCellPoolReady s) := by
  unfold execCellPoolReady
  refine onDev_keeps ?_
  beta_reduce
  refine onlyIf_keeps ?_
  exact (DevKeeps.step (.refl _ _) (poolReady_keeps _) rfl)

theorem linkLoRead_keeps (d : Dev) :
    DevKeeps 2052 d (linkLoRead d) := by
  unfold linkLoRead
  extract_lets -merge -underBinder +onlyGivenNames x0
  clear_value x0
  extract_lets -merge -underBinder +onlyGivenNames x1
  clear_value x1
  refine DevKeeps.step (e := d) (k := 2052) ?_ ⟨fun _ => rfl, fun _ => rfl, fun h => absurd h (by decide), fun _ => rfl, fun _ => rfl, fun _ => rfl, fun _ => rfl, fun _ => rfl, fun _ => rfl, fun _ => rfl, fun _ => rfl, fun h => absurd h (by decide), fun _ => rfl, fun _ => rfl, fun _ => rfl, fun _ => rfl, fun _ => rfl, fun _ => rfl, fun _ => rfl, fun _ => rfl, fun _ => rfl, fun _ => rfl, fun _ => rfl, fun _ _ => rfl⟩ rfl
  exact (.refl _ _)

theorem execLinkLoRead_keeps (s : State) :
    NextP (StateKeeps 2052 s) (execLinkLoRead s) := by
  unfold execLinkLoRead
  refine onDev_keeps ?_
  refine always_keeps ?_
  exact (DevKeeps.step (.refl _ _) (linkLoRead_keeps _) rfl)

end Sys2Proof.Machine
end

