-- ==== Sys2Proof/Laws/KeepMemory.lean ====
section
/-! SUPPORT. What each operation of Machine/Memory.lean leaves as it was. -/

namespace Sys2Proof.Machine

theorem State.writeByte_keeps (s : State) (a : Nat) (b : Byte) : StateKeeps 8390656 s (s.writeByte a b) := by
  unfold State.writeByte
  split
  · exact StateKeeps.memPut _ _ (.refl _ _) rfl
  · exact StateKeeps.setDev (.refl _ _) ((Dev.modPool_keeps _ _).mono (by decide))
  · exact StateKeeps.setDev (.refl _ _) ((Dev.modPool_keeps _ _).mono (by decide))
  · exact StateKeeps.setDev (.refl _ _) ((Dev.modPool_keeps _ _).mono (by decide))

theorem State.writeBytes_keeps (s : State) (a : Nat) (l : List Byte) : StateKeeps 8390656 s (s.writeBytes a l) := by
  induction l generalizing s a with
  | nil => exact .refl _ _
  | cons b l ih =>
    unfold State.writeBytes
    refine StateKeeps.step ?_ (ih _ _) (by decide)
    split
    · exact State.writeByte_keeps _ _ _
    · exact .refl _ _

/-- The registers that a ring advances, and memory. -/
abbrev ringMask (r : Ring) : Nat := 8390656 ||| (regMask r.tail.reg ||| regMask r.written.reg)

theorem or_sub_right {a b c : Nat} : (a ||| (b ||| c)) ||| b = a ||| (b ||| c) := by
  apply Nat.eq_of_testBit_eq; intro i; simp only [Nat.testBit_or]; cases a.testBit i <;> cases b.testBit i <;> simp
theorem or_sub_last {a b c : Nat} : (a ||| (b ||| c)) ||| c = a ||| (b ||| c) := by
  apply Nat.eq_of_testBit_eq; intro i; simp only [Nat.testBit_or]; cases a.testBit i <;> cases b.testBit i <;> simp
theorem or_sub_left {a b : Nat} : (a ||| b) ||| a = a ||| b := by
  apply Nat.eq_of_testBit_eq; intro i; simp only [Nat.testBit_or]; cases a.testBit i <;> cases b.testBit i <;> simp

theorem ringPut_keeps (r : Ring) (n : Nat) (ws : List Word) (s : State) : StateKeeps (ringMask r) s (ringPut r n ws s) := by
  unfold ringPut
  extract_lets d tail x
  have hx : StateKeeps (ringMask r) s x := (StateKeeps.refl _ _).step (State.writeBytes_keeps _ _ _) or_sub_left
  exact hx.modDev ((hx.dev.step (Dev.wrc_keeps _ _ _ _) or_sub_right).step (Dev.wrc_keeps _ _ _ _) or_sub_last)

theorem ringDrain_keeps (r : Ring) (n : Nat) (l : List (List Word)) (s : State) : SndP (StateKeeps (ringMask r) s) (ringDrain r n l s) := by
  induction l generalizing s with
  | nil => exact SndP.mk (.refl _ _)
  | cons e l ih =>
    unfold ringDrain
    split
    · exact SndP.mk (.refl _ _)
    · exact StateKeeps.stepSnd (ringPut_keeps _ _ _ _) (ih _) (Nat.or_self _)

theorem drainSeq_keeps (a0 : ℕ) (s : State) :
    StateKeeps 0x100040000000000000000000000000000000000000000000000000000000000000000000000000000000000800812 s (drainSeq a0 s) := by
  unfold drainSeq
  split
  · rename_i v0_0 v0_1 q0
    have h1 : StateKeeps 0x100040000000000000000000000000000000000000000000000000000000000000000000000000000000000800812 s v0_1 := by
      refine SndP.get (P := (StateKeeps 0x100040000000000000000000000000000000000000000000000000000000000000000000000000000000000800812 s)) ?_ q0
      exact StateKeeps.stepSnd (.refl _ _) (ringDrain_keeps _ _ _ _) (by rfl)
    refine StateKeeps.modDev ?_ ?_
    · exact h1
    · beta_reduce
      extract_lets -merge -underBinder +onlyGivenNames x2
      have h2 : DevKeeps 0x100040000000000000000000000000000000000000000000000000000000000000000000000000000000000800812 s.dev x2 := by
        subst x2
        exact (DevKeeps.step (StateKeeps.dev h1) (Dev.modChan_keeps _ _ _) rfl)
      clear_value x2
      exact (DevKeeps.step h2 (Dev.flagcIf_keeps _ _ _ _) (by rfl))

theorem drainEsc_keeps (s : State) :
    StateKeeps 0x4002000000000000000000000000000000000000000000000000000800842 s (drainEsc s) := by
  unfold drainEsc
  split
  · rename_i v0_0 v0_1 q0
    have h1 : StateKeeps 0x4002000000000000000000000000000000000000000000000000000800842 s v0_1 := by
      refine SndP.get (P := (StateKeeps 0x4002000000000000000000000000000000000000000000000000000800842 s)) ?_ q0
      exact StateKeeps.stepSnd (.refl _ _) (ringDrain_keeps _ _ _ _) (by rfl)
    refine StateKeeps.modDev ?_ ?_
    · exact h1
    · beta_reduce
      extract_lets -merge -underBinder +onlyGivenNames x2
      clear_value x2
      exact DevKeeps.set_ecc _ (StateKeeps.dev h1) rfl

theorem drainPar_keeps (s : State) :
    StateKeeps 0x1400000000000000000000000000000000000000000000000000000000000800882 s (drainPar s) := by
  unfold drainPar
  split
  · rename_i v0_0 v0_1 q0
    have h1 : StateKeeps 0x1400000000000000000000000000000000000000000000000000000000000800882 s v0_1 := by
      refine SndP.get (P := (StateKeeps 0x1400000000000000000000000000000000000000000000000000000000000800882 s)) ?_ q0
      exact StateKeeps.stepSnd (.refl _ _) (ringDrain_keeps _ _ _ _) (by rfl)
    refine StateKeeps.modDev ?_ ?_
    · exact h1
    · beta_reduce
      extract_lets -merge -underBinder +onlyGivenNames x2
      clear_value x2
      exact DevKeeps.set_par _ (StateKeeps.dev h1) rfl

theorem drainCiph_keeps (s : State) :
    StateKeeps 0xA000000000000000000000000000000000000000000000000800A02 s (drainCiph s) := by
  unfold drainCiph
  split
  · rename_i v0_0 v0_1 q0
    have h1 : StateKeeps 0xA000000000000000000000000000000000000000000000000800A02 s v0_1 := by
      refine SndP.get (P := (StateKeeps 0xA000000000000000000000000000000000000000000000000800A02 s)) ?_ q0
      exact StateKeeps.stepSnd (.refl _ _) (ringDrain_keeps _ _ _ _) (by rfl)
    refine StateKeeps.modDev ?_ ?_
    · exact h1
    · beta_reduce
      extract_lets -merge -underBinder +onlyGivenNames x2
      clear_value x2
      exact DevKeeps.set_ciph _ (StateKeeps.dev h1) rfl

end Sys2Proof.Machine
end

