-- ==== Sys2Proof/Laws/KeepDie.lean ====
section
/-! SUPPORT. What each operation of Machine/Die.lean leaves as it was. -/

namespace Sys2Proof.Machine

theorem complete_keeps (a0 : ℕ) (a1 : QDesc) (a2 : Done) (d : Dev) :
    DevKeeps 0x100000000000000000000000000000000000000000000000000000000000000000000000000000000000000004012 d (complete a0 a1 a2 d) := by
  unfold complete
  extract_lets -merge -underBinder +onlyGivenNames x0
  clear_value x0
  extract_lets -merge -underBinder +onlyGivenNames x1
  clear_value x1
  extract_lets -merge -underBinder +onlyGivenNames x2
  clear_value x2
  extract_lets -merge -underBinder +onlyGivenNames x3
  have h3 : DevKeeps 0x100000000000000000000000000000000000000000000000000000000000000000000000000000000000000004012 d x3 := by
    subst x3
    exact (DevKeeps.step (.refl _ _) (Dev.modChan_keeps _ _ _) rfl)
  clear_value x3
  extract_lets -merge -underBinder +onlyGivenNames x4
  have h4 : DevKeeps 0x100000000000000000000000000000000000000000000000000000000000000000000000000000000000000004012 d x4 := by
    subst x4
    exact (DevKeeps.step h3 (Dev.modMed_keeps _ _) rfl)
  clear_value x4
  extract_lets -merge -underBinder +onlyGivenNames x5
  have h5 : DevKeeps 0x100000000000000000000000000000000000000000000000000000000000000000000000000000000000000004012 d x5 := by
    subst x5
    exact (DevKeeps.step h4 (Dev.flagcIf_keeps _ _ _ _) (by rfl))
  clear_value x5
  exact (DevKeeps.step h5 (Dev.flagcIf_keeps _ _ _ _) (by rfl))

theorem takeDesc_keeps (a0 : ℕ) (a1 : QDesc) (a2 : Bool) (d : Dev) :
    DevKeeps 0x180000000000000000000000000000000000000000000000000000000000000000000000000000000000000000052 d (takeDesc a0 a1 a2 d) := by
  unfold takeDesc
  extract_lets -merge -underBinder +onlyGivenNames x0
  clear_value x0
  extract_lets -merge -underBinder +onlyGivenNames x1
  clear_value x1
  extract_lets -merge -underBinder +onlyGivenNames x2
  clear_value x2
  extract_lets -merge -underBinder +onlyGivenNames x3
  clear_value x3
  extract_lets -merge -underBinder +onlyGivenNames x4
  clear_value x4
  extract_lets -merge -underBinder +onlyGivenNames x5
  subst x5
  beta_reduce
  refine iteP (P := DevKeeps 0x180000000000000000000000000000000000000000000000000000000000000000000000000000000000000000052 d) (fun _ => ?_) (fun _ => ?_)
  · exact (DevKeeps.step (DevKeeps.step (DevKeeps.step (.refl _ _) (Dev.modDie_keeps _ _ _ _) rfl) (Dev.addc_keeps _ _ _ _) (by rfl)) (Dev.wrc_keeps _ _ _ _) (by rfl))
  · split
    · exact (DevKeeps.step (DevKeeps.step (DevKeeps.step (.refl _ _) (Dev.modChan_keeps _ _ _) rfl) (Dev.addc_keeps _ _ _ _) (by rfl)) (Dev.wrc_keeps _ _ _ _) (by rfl))
    · extract_lets -merge -underBinder +onlyGivenNames x6
      clear_value x6
      extract_lets -merge -underBinder +onlyGivenNames x7
      clear_value x7
      refine DevKeeps.step ?_ (Dev.modDie_keeps _ _ _ _) rfl
      exact DevKeeps.set_ecc _ (.refl _ _) rfl

theorem postDesc_keeps (a0 : ℕ) (a1 : ℕ) (a2 : Desc) (a3 : Bool) (d : Dev) :
    DevKeeps 0x180002000000000000000000000000000000000000000000000000000000000000000000000000000000000000052 d (postDesc a0 a1 a2 a3 d) := by
  unfold postDesc
  refine iteP (P := DevKeeps 0x180002000000000000000000000000000000000000000000000000000000000000000000000000000000000000052 d) (fun _ => ?_) (fun _ => ?_)
  · exact (DevKeeps.step (DevKeeps.step (.refl _ _) (Dev.wrx_keeps _ _ _ _ _) (by rfl)) (takeDesc_keeps _ _ _ _) rfl)
  · exact (DevKeeps.step (.refl _ _) (Dev.wrx_keeps _ _ _ _ _) (by rfl))

theorem finishProofs_keeps (a0 : ℕ) (a1 : ℕ) (a2 : ℕ) (d : Dev) :
    DevKeeps 0x100000000000000000000000000000000000000000000000000000000000000000000000000000000000000004012 d (finishProofs a0 a1 a2 d) := by
  induction a2 generalizing d with
  | zero => exact DevKeeps.refl _ _
  | succ n ih =>
    unfold finishProofs
    split
    · extract_lets -merge -underBinder +onlyGivenNames x0
      have h0 : DevKeeps 0x100000000000000000000000000000000000000000000000000000000000000000000000000000000000000004012 d x0 := by
        subst x0
        exact (DevKeeps.step (.refl _ _) (Dev.modDie_keeps _ _ _ _) rfl)
      clear_value x0
      exact DevKeeps.step (DevKeeps.step h0 (complete_keeps _ _ _ _) rfl) (ih _) rfl
    · exact (.refl _ _)

theorem settleDie_keeps (a0 : ℕ) (a1 : ℕ) (a2 : ℕ) (d : Dev) :
    DevKeeps 0x100000000000000000000000000000000000000000000000000000000000000000000000000000000000000004012 d (settleDie a0 a1 a2 d) := by
  induction a2 generalizing d with
  | zero => exact DevKeeps.refl _ _
  | succ n ih =>
    unfold settleDie
    refine iteP (P := DevKeeps 0x100000000000000000000000000000000000000000000000000000000000000000000000000000000000000004012 d) (fun _ => ?_) (fun _ => ?_)
    · split
      · extract_lets -merge -underBinder +onlyGivenNames x0
        have h0 : DevKeeps 0x100000000000000000000000000000000000000000000000000000000000000000000000000000000000000004012 d x0 := by
          subst x0
          exact (DevKeeps.step (.refl _ _) (Dev.modChan_keeps _ _ _) rfl)
        clear_value x0
        extract_lets -merge -underBinder +onlyGivenNames x1
        have h1 : DevKeeps 0x100000000000000000000000000000000000000000000000000000000000000000000000000000000000000004012 d x1 := by
          subst x1
          refine iteP (P := DevKeeps 0x100000000000000000000000000000000000000000000000000000000000000000000000000000000000000004012 d) (fun _ => ?_) (fun _ => ?_)
          · exact (DevKeeps.step h0 (Dev.modDie_keeps _ _ _ _) rfl)
          · exact (DevKeeps.step (DevKeeps.step h0 (Dev.modDie_keeps _ _ _ _) rfl) (complete_keeps _ _ _ _) rfl)
        clear_value x1
        exact DevKeeps.step h1 (ih _) rfl
      · exact (.refl _ _)
    · exact (.refl _ _)

theorem settleDups_keeps (a0 : ℕ) (a1 : ℕ) (d : Dev) :
    DevKeeps 16 d (settleDups a0 a1 d) := by
  induction a1 generalizing d with
  | zero => exact DevKeeps.refl _ _
  | succ n ih =>
    unfold settleDups
    refine iteP (P := DevKeeps 16 d) (fun _ => ?_) (fun _ => ?_)
    · split
      · exact DevKeeps.step (DevKeeps.step (.refl _ _) (Dev.setChan_keeps _ _ _) rfl) (ih _) rfl
      · exact (.refl _ _)
    · exact (.refl _ _)

theorem Dev.addReq_keeps (d : Dev) (a1 : ℕ) (a2 : Req) :
    DevKeeps 16 d (Dev.addReq d a1 a2) := by
  unfold Dev.addReq
  exact (DevKeeps.step (.refl _ _) (Dev.modChan_keeps _ _ _) rfl)

theorem raiseRead_keeps (a0 : ℕ) (a1 : ℕ) (d : Dev) :
    DevKeeps 16 d (raiseRead a0 a1 d) := by
  unfold raiseRead
  extract_lets -merge -underBinder +onlyGivenNames x0
  clear_value x0
  extract_lets -merge -underBinder +onlyGivenNames x1
  clear_value x1
  split
  · refine iteP (P := DevKeeps 16 d) (fun _ => ?_) (fun _ => ?_)
    · exact (DevKeeps.step (.refl _ _) (Dev.modChan_keeps _ _ _) rfl)
    · refine iteP (P := DevKeeps 16 d) (fun _ => ?_) (fun _ => ?_)
      · exact (.refl _ _)
      · exact (DevKeeps.step (.refl _ _) (Dev.addReq_keeps _ _ _) rfl)
  · split
    · refine iteP (P := DevKeeps 16 d) (fun _ => ?_) (fun _ => ?_)
      · exact (DevKeeps.step (.refl _ _) (Dev.addReq_keeps _ _ _) rfl)
      · exact (.refl _ _)
    · exact (.refl _ _)

theorem raiseOp_keeps (n t : Nat) (x : Die) (d : Dev) : DevKeeps 16 d (raiseProg.raiseOp n t x d) := by
  have h : ∀ r, DevKeeps 16 d (d.addReq n r) := fun r => (Dev.addReq_keeps _ _ _).mono rfl
  unfold raiseProg.raiseOp
  split
  · split
    · exact h _
    · exact h _
    · exact iteP (P := DevKeeps 16 d) (fun _ => h _) (fun _ => .refl _ _)
    · exact iteP (P := DevKeeps 16 d) (fun _ => h _) (fun _ => .refl _ _)
    · exact iteP (P := DevKeeps 16 d) (fun _ => h _) (fun _ => .refl _ _)
  · split
    · refine iteP (P := DevKeeps 16 d) (fun _ => .refl _ _) (fun _ => ?_)
      refine iteP (P := DevKeeps 16 d) (fun _ => ?_) (fun _ => ?_)
      · exact iteP (P := DevKeeps 16 d) (fun _ => h _) (fun _ => .refl _ _)
      · exact iteP (P := DevKeeps 16 d) (fun _ => h _) (fun _ => .refl _ _)
    · exact .refl _ _

theorem raiseProg_keeps (a0 a1 : Nat) (d : Dev) : DevKeeps 16 d (raiseProg a0 a1 d) := by
  unfold raiseProg
  try dsimp only
  split
  · exact .refl _ _
  · split
    · exact ((DevKeeps.refl _ _).step (Dev.addReq_keeps _ _ _) rfl)
    · split
      · split
        · exact ((DevKeeps.refl _ _).step (Dev.addReq_keeps _ _ _) rfl)
        · exact raiseOp_keeps _ _ _ _
      · exact raiseOp_keeps _ _ _ _

theorem refreshDie_keeps (a0 : ℕ) (a1 : ℕ) (d : Dev) :
    DevKeeps 0x100000000000000000000000000000000000000000000000000000000000000000000000000000000000000004012 d (refreshDie a0 a1 d) := by
  unfold refreshDie
  extract_lets -merge -underBinder +onlyGivenNames x0
  have h0 : DevKeeps 0x100000000000000000000000000000000000000000000000000000000000000000000000000000000000000004012 d x0 := by
    subst x0
    exact (DevKeeps.step (.refl _ _) (settleDie_keeps _ _ _ _) rfl)
  clear_value x0
  extract_lets -merge -underBinder +onlyGivenNames x1
  have h1 : DevKeeps 0x100000000000000000000000000000000000000000000000000000000000000000000000000000000000000004012 d x1 := by
    subst x1
    exact (DevKeeps.step h0 (finishProofs_keeps _ _ _ _) rfl)
  clear_value x1
  extract_lets -merge -underBinder +onlyGivenNames x2
  have h2 : DevKeeps 0x100000000000000000000000000000000000000000000000000000000000000000000000000000000000000004012 d x2 := by
    subst x2
    exact (DevKeeps.step h1 (settleDups_keeps _ _ _) rfl)
  clear_value x2
  refine iteP (P := DevKeeps 0x100000000000000000000000000000000000000000000000000000000000000000000000000000000000000004012 d) (fun _ => ?_) (fun _ => ?_)
  · exact (DevKeeps.step (DevKeeps.step h2 (raiseRead_keeps _ _ _) rfl) (raiseProg_keeps _ _ _) rfl)
  · exact h2

theorem refreshChan_keeps (a0 : ℕ) (d : Dev) :
    DevKeeps 0x100000000000000000000000000000000000000000000000000000000000000000000000000000000000000004012 d (refreshChan a0 d) := by
  unfold refreshChan
  refine DevKeeps.forUpTo ?_ (fun a0 y0 h0 => ?_)
  · exact (.refl _ _)
  · beta_reduce
    exact (DevKeeps.step h0 (refreshDie_keeps _ _ _) rfl)

theorem endOps_keeps (a0 : ℕ) (a1 : ℕ) (a2 : ℕ) (d : Dev) :
    DevKeeps 0x100000000000000000000000000000000000000000000000000000000000000000000000000000000000000004012 d (endOps a0 a1 a2 d) := by
  unfold endOps
  extract_lets -merge -underBinder +onlyGivenNames x0
  clear_value x0
  extract_lets -merge -underBinder +onlyGivenNames x1
  have h1 : DevKeeps 0x100000000000000000000000000000000000000000000000000000000000000000000000000000000000000004012 d x1 := by
    subst x1
    split
    · refine iteP (P := DevKeeps 0x100000000000000000000000000000000000000000000000000000000000000000000000000000000000000004012 d) (fun _ => ?_) (fun _ => ?_)
      · exact (DevKeeps.step (.refl _ _) (Dev.modDie_keeps _ _ _ _) rfl)
      · exact (DevKeeps.step (DevKeeps.step (.refl _ _) (Dev.modDie_keeps _ _ _ _) rfl) (complete_keeps _ _ _ _) rfl)
    · exact (.refl _ _)
  clear_value x1
  extract_lets -merge -underBinder +onlyGivenNames x2
  have h2 : DevKeeps 0x100000000000000000000000000000000000000000000000000000000000000000000000000000000000000004012 d x2 := by
    subst x2
    split
    · refine iteP (P := DevKeeps 0x100000000000000000000000000000000000000000000000000000000000000000000000000000000000000004012 d) (fun _ => ?_) (fun _ => ?_)
      · exact (DevKeeps.step (DevKeeps.step h1 (Dev.modDie_keeps _ _ _ _) rfl) (complete_keeps _ _ _ _) rfl)
      · exact h1
    · exact h1
  clear_value x2
  exact (DevKeeps.step h2 (Dev.modChan_keeps _ _ _) rfl)

end Sys2Proof.Machine
end

