-- ==== Sys2Proof/Laws/KeepCam.lean ====
section
/-! SUPPORT. What each operation of Machine/Cam.lean leaves as it was. -/

namespace Sys2Proof.Machine

theorem Dev.modCam_keeps (d : Dev) (a1 : Cam → Cam) :
    DevKeeps 32768 d (Dev.modCam d a1) := by
  unfold Dev.modCam
  exact DevKeeps.set_cam _ (.refl _ _) rfl

theorem Dev.spendSearch_keeps (d : Dev) :
    DevKeeps 32768 d (Dev.spendSearch d) := by
  unfold Dev.spendSearch
  exact (DevKeeps.step (.refl _ _) (Dev.modCam_keeps _ _) rfl)

theorem Dev.deferSearch_keeps (d : Dev) :
    DevKeeps 0x50000000000000000000000000000000002 d (Dev.deferSearch d) := by
  unfold Dev.deferSearch
  exact (DevKeeps.step (DevKeeps.step (.refl _ _) (Dev.add_keeps _ _ _) (by rfl)) (Dev.wr_keeps _ _ _) (by rfl))

theorem Dev.countHit_keeps (d : Dev) (a1 : Bool) (a2 : Option CamHit) :
    DevKeeps 0x50000000000000000000000000000000002 d (Dev.countHit d a1 a2) := by
  unfold Dev.countHit
  split
  · extract_lets -merge -underBinder +onlyGivenNames x0
    have h0 : DevKeeps 0x50000000000000000000000000000000002 d x0 := by
      subst x0
      refine iteP (P := DevKeeps 0x50000000000000000000000000000000002 d) (fun _ => ?_) (fun _ => ?_)
      · exact (DevKeeps.step (.refl _ _) (Dev.add_keeps _ _ _) (by rfl))
      · exact (.refl _ _)
    clear_value x0
    exact (DevKeeps.step (DevKeeps.step h0 (Dev.flagIf_keeps _ _ _) (by rfl)) (Dev.flagIf_keeps _ _ _) (by rfl))
  · exact (.refl _ _)

theorem Dev.camMake_keeps (d : Dev) (a1 : ℕ) (a2 : BitVec 192) :
    DevKeeps 32768 d (Dev.camMake d a1 a2) := by
  unfold Dev.camMake
  exact (DevKeeps.step (.refl _ _) (Dev.modCam_keeps _ _) rfl)

theorem Dev.camFree_keeps (d : Dev) (a1 : ℕ) :
    DevKeeps 32768 d (Dev.camFree d a1) := by
  unfold Dev.camFree
  exact (DevKeeps.step (.refl _ _) (Dev.modCam_keeps _ _) rfl)

theorem Dev.setCamEnt_keeps (d : Dev) (a1 : ℕ) (a2 : ℕ) :
    DevKeeps 0x3F00000000000000000000000000000002 d (Dev.setCamEnt d a1 a2) := by
  unfold Dev.setCamEnt
  exact (DevKeeps.step (DevKeeps.step (DevKeeps.step (DevKeeps.step (DevKeeps.step (DevKeeps.step (.refl _ _) (Dev.wrb_keeps _ _ _ _) (by rfl)) (Dev.wrb_keeps _ _ _ _) (by rfl)) (Dev.wrb_keeps _ _ _ _) (by rfl)) (Dev.wrb_keeps _ _ _ _) (by rfl)) (Dev.wrb_keeps _ _ _ _) (by rfl)) (Dev.wrb_keeps _ _ _ _) (by rfl))

theorem Dev.camRes_keeps (d : Dev) (a1 : ℕ) (a2 : ℕ) :
    DevKeeps 0x8000000000000000000000000000000002 d (Dev.camRes d a1 a2) := by
  unfold Dev.camRes
  exact (DevKeeps.step (.refl _ _) (Dev.regSet_keeps _ _ _ _ _) (by rfl))

theorem Dev.camOpFields_keeps (d : Dev) (a1 : ℕ) (a2 : ℕ) :
    DevKeeps 0x4000000000000000000000000000000002 d (Dev.camOpFields d a1 a2) := by
  unfold Dev.camOpFields
  extract_lets -merge -underBinder +onlyGivenNames x0
  have h0 : DevKeeps 0x4000000000000000000000000000000002 d x0 := by
    subst x0
    exact (DevKeeps.step (.refl _ _) (Dev.wrb_keeps _ _ _ _) (by rfl))
  clear_value x0
  refine iteP (P := DevKeeps 0x4000000000000000000000000000000002 d) (fun _ => ?_) (fun _ => ?_)
  · exact (DevKeeps.step h0 (Dev.wrb_keeps _ _ _ _) (by rfl))
  · exact h0

theorem camInvalidate_keeps (a0 : ℕ) (a1 : ℕ) (d : Dev) :
    DevKeeps 0xC000000000000000000000000000008002 d (camInvalidate a0 a1 d) := by
  unfold camInvalidate
  extract_lets -merge -underBinder +onlyGivenNames x0
  have h0 : DevKeeps 0xC000000000000000000000000000008002 d x0 := by
    subst x0
    exact (DevKeeps.step (.refl _ _) (Dev.camOpFields_keeps _ _ _) rfl)
  clear_value x0
  extract_lets -merge -underBinder +onlyGivenNames x1
  clear_value x1
  exact (DevKeeps.step (DevKeeps.step h0 (Dev.modCam_keeps _ _) rfl) (Dev.camRes_keeps _ _ _) rfl)

theorem camWrite_keeps (a0 : ℕ) (a1 : ℕ) (d : Dev) :
    DevKeeps 0xC000000000000000000000000000008002 d (camWrite a0 a1 d) := by
  unfold camWrite
  extract_lets -merge -underBinder +onlyGivenNames x0
  have h0 : DevKeeps 0xC000000000000000000000000000008002 d x0 := by
    subst x0
    exact (DevKeeps.step (.refl _ _) (Dev.camOpFields_keeps _ _ _) rfl)
  clear_value x0
  extract_lets -merge -underBinder +onlyGivenNames x1
  clear_value x1
  refine iteP (P := DevKeeps 0xC000000000000000000000000000008002 d) (fun _ => ?_) (fun _ => ?_)
  · exact (DevKeeps.step (DevKeeps.step h0 (Dev.modCam_keeps _ _) rfl) (Dev.camRes_keeps _ _ _) rfl)
  · exact (DevKeeps.step h0 (Dev.camRes_keeps _ _ _) rfl)

theorem camValidate_keeps (a0 : ℕ) (a1 : ℕ) (d : Dev) :
    DevKeeps 0x4C000000000000000000000000000008002 d (camValidate a0 a1 d) := by
  unfold camValidate
  extract_lets -merge -underBinder +onlyGivenNames x0
  have h0 : DevKeeps 0x4C000000000000000000000000000008002 d x0 := by
    subst x0
    exact (DevKeeps.step (.refl _ _) (Dev.camOpFields_keeps _ _ _) rfl)
  clear_value x0
  extract_lets -merge -underBinder +onlyGivenNames x1
  clear_value x1
  extract_lets -merge -underBinder +onlyGivenNames x2
  clear_value x2
  refine iteP (P := DevKeeps 0x4C000000000000000000000000000008002 d) (fun _ => ?_) (fun _ => ?_)
  · exact (DevKeeps.step h0 (Dev.camRes_keeps _ _ _) rfl)
  · refine iteP (P := DevKeeps 0x4C000000000000000000000000000008002 d) (fun _ => ?_) (fun _ => ?_)
    · exact (DevKeeps.step (DevKeeps.step h0 (Dev.camRes_keeps _ _ _) rfl) (Dev.wr_keeps _ _ _) (by rfl))
    · refine iteP (P := DevKeeps 0x4C000000000000000000000000000008002 d) (fun _ => ?_) (fun _ => ?_)
      · exact (DevKeeps.step (DevKeeps.step h0 (Dev.camFree_keeps _ _) rfl) (Dev.camRes_keeps _ _ _) rfl)
      · exact (DevKeeps.step (DevKeeps.step h0 (Dev.modCam_keeps _ _) rfl) (Dev.camRes_keeps _ _ _) rfl)

theorem camRead_keeps (a0 : ℕ) (a1 : ℕ) (d : Dev) :
    DevKeeps 0xFF00000000000000000000000000000002 d (camRead a0 a1 d) := by
  unfold camRead
  extract_lets -merge -underBinder +onlyGivenNames x0
  have h0 : DevKeeps 0xFF00000000000000000000000000000002 d x0 := by
    subst x0
    exact (DevKeeps.step (.refl _ _) (Dev.camOpFields_keeps _ _ _) rfl)
  clear_value x0
  extract_lets -merge -underBinder +onlyGivenNames x1
  clear_value x1
  exact (DevKeeps.step (DevKeeps.step h0 (Dev.setCamEnt_keeps _ _ _) rfl) (Dev.camRes_keeps _ _ _) rfl)

theorem camFwSearch_keeps (a0 : ℕ) (a1 : ℕ) (d : Dev) :
    DevKeeps 0x5C000000000000000000000000000008002 d (camFwSearch a0 a1 d) := by
  unfold camFwSearch
  extract_lets -merge -underBinder +onlyGivenNames x0
  have h0 : DevKeeps 0x5C000000000000000000000000000008002 d x0 := by
    subst x0
    exact (DevKeeps.step (.refl _ _) (Dev.camOpFields_keeps _ _ _) rfl)
  clear_value x0
  extract_lets -merge -underBinder +onlyGivenNames x1
  clear_value x1
  extract_lets -merge -underBinder +onlyGivenNames x2
  clear_value x2
  extract_lets -merge -underBinder +onlyGivenNames x3
  clear_value x3
  extract_lets -merge -underBinder +onlyGivenNames x4
  have h4 : DevKeeps 0x5C000000000000000000000000000008002 d x4 := by
    subst x4
    exact (DevKeeps.step (DevKeeps.step h0 (Dev.spendSearch_keeps _) rfl) (Dev.countHit_keeps _ _ _) rfl)
  clear_value x4
  split
  · exact (DevKeeps.step h4 (Dev.regSet_keeps _ _ _ _ _) (by rfl))
  · exact (DevKeeps.step h4 (Dev.regSet_keeps _ _ _ _ _) (by rfl))

theorem camSearchOp_keeps (a0 : ℕ) (a1 : ℕ) (d : Dev) :
    DevKeeps 0x5C000000000000000000000000000008002 d (camSearchOp a0 a1 d) := by
  unfold camSearchOp
  refine iteP (P := DevKeeps 0x5C000000000000000000000000000008002 d) (fun _ => ?_) (fun _ => ?_)
  · exact (DevKeeps.step (DevKeeps.step (DevKeeps.step (.refl _ _) (Dev.camOpFields_keeps _ _ _) rfl) (Dev.deferSearch_keeps _) rfl) (Dev.wrb_keeps _ _ _ _) (by rfl))
  · exact (DevKeeps.step (DevKeeps.step (.refl _ _) (camFwSearch_keeps _ _ _) rfl) (Dev.wrb_keeps _ _ _ _) (by rfl))

theorem camDeferred_keeps (d : Dev) :
    DevKeeps 0x5C000000000000000000000000000008002 d (camDeferred d) := by
  unfold camDeferred
  refine DevKeeps.forUpTo ?_ (fun a0 y0 h0 => ?_)
  · exact (.refl _ _)
  · beta_reduce
    refine iteP (P := DevKeeps 0x5C000000000000000000000000000008002 d) (fun _ => ?_) (fun _ => ?_)
    · exact (DevKeeps.step h0 (camSearchOp_keeps _ _ _) rfl)
    · exact h0

theorem camOp_keeps {m : Nat} {s : State} {f : Nat → Nat → Dev → Dev} {op : Nat} {g : Fin 64} {v : Word}
    (h : ∀ n, DevKeeps m s.dev (f g n s.dev)) (hm : m.testBit 0 = true) : NextP (StateKeeps m s) (camOp f op g v s) :=
  onDev_keeps (orRsv_keeps (.refl _ _) (h _) hm)

theorem execCamInvalidate_keeps (a0 : Fin 64) (a1 : Word) (s : State) :
    NextP (StateKeeps 0xC000000000000000000000000000008003 s) (execCamInvalidate a0 a1 s) := by
  unfold execCamInvalidate
  refine camOp_keeps (fun _ => ?_) rfl
  exact (DevKeeps.step (.refl _ _) (camInvalidate_keeps _ _ _) rfl)

theorem execCamWrite_keeps (a0 : Fin 64) (a1 : Word) (s : State) :
    NextP (StateKeeps 0xC000000000000000000000000000008003 s) (execCamWrite a0 a1 s) := by
  unfold execCamWrite
  refine camOp_keeps (fun _ => ?_) rfl
  exact (DevKeeps.step (.refl _ _) (camWrite_keeps _ _ _) rfl)

theorem execCamValidate_keeps (a0 : Fin 64) (a1 : Word) (s : State) :
    NextP (StateKeeps 0x4C000000000000000000000000000008003 s) (execCamValidate a0 a1 s) := by
  unfold execCamValidate
  refine camOp_keeps (fun _ => ?_) rfl
  exact (DevKeeps.step (.refl _ _) (camValidate_keeps _ _ _) rfl)

theorem execCamRead_keeps (a0 : Fin 64) (a1 : Word) (s : State) :
    NextP (StateKeeps 0xFF00000000000000000000000000000003 s) (execCamRead a0 a1 s) := by
  unfold execCamRead
  refine camOp_keeps (fun _ => ?_) rfl
  exact (DevKeeps.step (.refl _ _) (camRead_keeps _ _ _) rfl)

theorem execCamSearch_keeps (a0 : Fin 64) (a1 : Word) (s : State) :
    NextP (StateKeeps 0x5C000000000000000000000000000008003 s) (execCamSearch a0 a1 s) := by
  unfold execCamSearch
  refine camOp_keeps (fun _ => ?_) rfl
  exact (DevKeeps.step (.refl _ _) (camSearchOp_keeps _ _ _) rfl)

end Sys2Proof.Machine
end

