-- ==== Sys2Proof/Laws/KeepHost.lean ====
section
/-! SUPPORT. What each operation of Machine/Host.lean leaves as it was. -/

namespace Sys2Proof.Machine

theorem Dev.modHost_keeps (d : Dev) (a1 : HostIf → HostIf) :
    DevKeeps 4096 d (Dev.modHost d a1) := by
  unfold Dev.modHost
  exact DevKeeps.set_host _ (.refl _ _) rfl

theorem Dev.modFunc_keeps (d : Dev) (a1 : ℕ) (a2 : Func → Func) :
    DevKeeps 4096 d (Dev.modFunc d a1 a2) := by
  unfold Dev.modFunc
  exact (DevKeeps.step (.refl _ _) (Dev.modHost_keeps _ _) rfl)

theorem Dev.setSlot_keeps (d : Dev) (a1 : ℕ) (a2 : Slot) :
    DevKeeps 4096 d (Dev.setSlot d a1 a2) := by
  unfold Dev.setSlot
  exact (DevKeeps.step (.refl _ _) (Dev.modHost_keeps _ _) rfl)

theorem Dev.modSlot_keeps (d : Dev) (a1 : ℕ) (a2 : Slot → Slot) :
    DevKeeps 4096 d (Dev.modSlot d a1 a2) := by
  unfold Dev.modSlot
  split
  · exact (DevKeeps.step (.refl _ _) (Dev.setSlot_keeps _ _ _) rfl)
  · exact (.refl _ _)

theorem Dev.dropSlot_keeps (d : Dev) (a1 : ℕ) :
    DevKeeps 4096 d (Dev.dropSlot d a1) := by
  unfold Dev.dropSlot
  exact (DevKeeps.step (.refl _ _) (Dev.modHost_keeps _ _) rfl)

theorem Dev.modPort_keeps (d : Dev) (a1 : ℕ) (a2 : Port → Port) :
    DevKeeps 4096 d (Dev.modPort d a1 a2) := by
  unfold Dev.modPort
  exact (DevKeeps.step (.refl _ _) (Dev.modHost_keeps _ _) rfl)

theorem Dev.send_keeps (d : Dev) (a1 : Out) :
    DevKeeps 4194304 d (Dev.send d a1) := by
  unfold Dev.send
  split
  · refine iteP (P := DevKeeps 4194304 d) (fun _ => ?_) (fun _ => ?_)
    · exact (.refl _ _)
    · exact DevKeeps.set_out _ (.refl _ _) rfl
  · refine iteP (P := DevKeeps 4194304 d) (fun _ => ?_) (fun _ => ?_)
    · exact (.refl _ _)
    · exact DevKeeps.set_out _ (.refl _ _) rfl
  · refine iteP (P := DevKeeps 4194304 d) (fun _ => ?_) (fun _ => ?_)
    · exact (.refl _ _)
    · exact DevKeeps.set_out _ (.refl _ _) rfl
  · refine iteP (P := DevKeeps 4194304 d) (fun _ => ?_) (fun _ => ?_)
    · exact (.refl _ _)
    · exact DevKeeps.set_out _ (.refl _ _) rfl
  · refine iteP (P := DevKeeps 4194304 d) (fun _ => ?_) (fun _ => ?_)
    · exact (.refl _ _)
    · exact DevKeeps.set_out _ (.refl _ _) rfl
  · refine iteP (P := DevKeeps 4194304 d) (fun _ => ?_) (fun _ => ?_)
    · exact (.refl _ _)
    · exact DevKeeps.set_out _ (.refl _ _) rfl
  · exact DevKeeps.set_out _ (.refl _ _) rfl

theorem Dev.hostTag_keeps (d : Dev) :
    SndP (DevKeeps 4096 d) (Dev.hostTag d) := by
  unfold Dev.hostTag
  refine SndP.mk ?_
  exact (DevKeeps.step (.refl _ _) (Dev.modHost_keeps _ _) rfl)

theorem finish_keeps (a0 : ℕ) (a1 : Cpl) (d : Dev) :
    DevKeeps 4096 d (finish a0 a1 d) := by
  unfold finish
  exact (DevKeeps.step (.refl _ _) (Dev.modSlot_keeps _ _ _) rfl)

theorem raiseEvent_keeps (a0 : ℕ) (a1 : AsyncEvent) (d : Dev) :
    DevKeeps 4096 d (raiseEvent a0 a1 d) := by
  unfold raiseEvent
  refine iteP (P := DevKeeps 4096 d) (fun _ => ?_) (fun _ => ?_)
  · exact (.refl _ _)
  · split
    · extract_lets -merge -underBinder +onlyGivenNames x0
      have h0 : DevKeeps 4096 d x0 := by
        subst x0
        exact (DevKeeps.step (.refl _ _) (finish_keeps _ _ _) rfl)
      clear_value x0
      refine iteP (P := DevKeeps 4096 d) (fun _ => ?_) (fun _ => ?_)
      · exact h0
      · exact (DevKeeps.step h0 (Dev.modFunc_keeps _ _ _) rfl)
    · exact (.refl _ _)

theorem tellEtchings_keeps (a0 : ℕ) (a1 : List Byte) (d : Dev) :
    DevKeeps 65536 d (tellEtchings a0 a1 d) := by
  unfold tellEtchings
  extract_lets -merge -underBinder +onlyGivenNames x0
  clear_value x0
  exact DevKeeps.set_grv _ (.refl _ _) rfl

theorem Dev.modZm_keeps (d : Dev) (a1 : Zm → Zm) :
    DevKeeps 8192 d (Dev.modZm d a1) := by
  unfold Dev.modZm
  exact DevKeeps.set_zm _ (.refl _ _) rfl

theorem Dev.modNs_keeps (d : Dev) (a1 : ℕ) (a2 : Ns → Ns) :
    DevKeeps 8192 d (Dev.modNs d a1 a2) := by
  unfold Dev.modNs
  split
  · exact (DevKeeps.step (.refl _ _) (Dev.modZm_keeps _ _) rfl)
  · exact (.refl _ _)

theorem addDwe_keeps (a0 : DweRec) (d : Dev) :
    DevKeeps 4096 d (addDwe a0 d) := by
  unfold addDwe
  exact (DevKeeps.step (.refl _ _) (Dev.modHost_keeps _ _) rfl)

theorem addErr_keeps (a0 : ℕ) (a1 : ℕ) (a2 : ℕ) (a3 : ℕ) (a4 : ℕ) (a5 : ℕ) (d : Dev) :
    DevKeeps 4096 d (addErr a0 a1 a2 a3 a4 a5 d) := by
  unfold addErr
  exact (DevKeeps.step (.refl _ _) (Dev.modFunc_keeps _ _ _) rfl)

theorem deferredError_keeps (a0 : ℕ) (a1 : ℕ) (a2 : ℕ) (a3 : ℕ) (d : Dev) :
    DevKeeps 0x8000000000000000003002 d (deferredError a0 a1 a2 a3 d) := by
  unfold deferredError
  split
  · split
    · exact (.refl _ _)
    · extract_lets -merge -underBinder +onlyGivenNames x0
      have h0 : DevKeeps 0x8000000000000000003002 d x0 := by
        subst x0
        exact (DevKeeps.step (.refl _ _) (Dev.modNs_keeps _ _ _) rfl)
      clear_value x0
      extract_lets -merge -underBinder +onlyGivenNames x1
      have h1 : DevKeeps 0x8000000000000000003002 d x1 := by
        subst x1
        refine DevKeeps.foldl ?_ (fun y2 a2 h2 => ?_)
        · exact h0
        · beta_reduce
          extract_lets -merge -underBinder +onlyGivenNames x3
          clear_value x3
          extract_lets -merge -underBinder +onlyGivenNames x4
          clear_value x4
          extract_lets -merge -underBinder +onlyGivenNames x5
          have h5 : DevKeeps 0x8000000000000000003002 d x5 := by
            subst x5
            exact (DevKeeps.step h2 (addDwe_keeps _ _) rfl)
          clear_value x5
          extract_lets -merge -underBinder +onlyGivenNames x6
          have h6 : DevKeeps 0x8000000000000000003002 d x6 := by
            subst x6
            exact (DevKeeps.step h5 (addErr_keeps _ _ _ _ _ _ _) rfl)
          clear_value x6
          extract_lets -merge -underBinder +onlyGivenNames x7
          have h7 : DevKeeps 0x8000000000000000003002 d x7 := by
            subst x7
            exact (DevKeeps.step h6 (Dev.modHost_keeps _ _) rfl)
          clear_value x7
          refine iteP (P := DevKeeps 0x8000000000000000003002 d) (fun _ => ?_) (fun _ => ?_)
          · exact (DevKeeps.step h7 (raiseEvent_keeps _ _ _) rfl)
          · exact h7
      clear_value x1
      exact (DevKeeps.step h1 (Dev.wr_keeps _ _ _) (by rfl))

theorem deliverDwe_keeps (a0 : ℕ) (a1 : DweRec) (d : Dev) :
    DevKeeps 4096 d (deliverDwe a0 a1 d) := by
  unfold deliverDwe
  extract_lets -merge -underBinder +onlyGivenNames x0
  have h0 : DevKeeps 4096 d x0 := by
    subst x0
    exact (DevKeeps.step (.refl _ _) (Dev.modHost_keeps _ _) rfl)
  clear_value x0
  exact (DevKeeps.step h0 (finish_keeps _ _ _) rfl)

end Sys2Proof.Machine
end

