-- ==== Sys2Proof/Laws/KeepLink.lean ====
section
/-! SUPPORT. What each operation of Machine/Link.lean leaves as it was. -/

namespace Sys2Proof.Machine

theorem Dev.modDlk_keeps (d : Dev) (a1 : Dlk → Dlk) :
    DevKeeps 2097152 d (Dev.modDlk d a1) := by
  unfold Dev.modDlk
  exact DevKeeps.set_dlk _ (.refl _ _) rfl

theorem Dev.modDlkPort_keeps (d : Dev) (a1 : ℕ) (a2 : DlkPort → DlkPort) :
    DevKeeps 2097152 d (Dev.modDlkPort d a1 a2) := by
  unfold Dev.modDlkPort
  exact (DevKeeps.step (.refl _ _) (Dev.modDlk_keeps _ _) rfl)

theorem transmit_keeps (a0 : ℕ) (a1 : ℕ) (d : Dev) :
    DevKeeps 6291456 d (transmit a0 a1 d) := by
  induction a1 generalizing d with
  | zero => exact DevKeeps.refl _ _
  | succ n ih =>
    unfold transmit
    refine iteP (P := DevKeeps 6291456 d) (fun _ => ?_) (fun _ => ?_)
    · split
      · extract_lets -merge -underBinder +onlyGivenNames x0
        clear_value x0
        extract_lets -merge -underBinder +onlyGivenNames x1
        have h1 : DevKeeps 6291456 d x1 := by
          subst x1
          exact (DevKeeps.step (.refl _ _) (Dev.modDlkPort_keeps _ _ _) rfl)
        clear_value x1
        exact DevKeeps.step (DevKeeps.step h1 (Dev.send_keeps _ _) rfl) (ih _) rfl
      · exact (.refl _ _)
    · exact (.refl _ _)

theorem enqueueFlits_keeps (a0 : ℕ) (a1 : List DlkFlit) (d : Dev) :
    DevKeeps 6291456 d (enqueueFlits a0 a1 d) := by
  unfold enqueueFlits
  extract_lets -merge -underBinder +onlyGivenNames x0
  have h0 : DevKeeps 6291456 d x0 := by
    subst x0
    exact (DevKeeps.step (.refl _ _) (Dev.modDlkPort_keeps _ _ _) rfl)
  clear_value x0
  exact (DevKeeps.step h0 (transmit_keeps _ _ _) rfl)

theorem sendMessage_keeps (a0 : ℕ) (a1 : ℕ) (a2 : ℕ) (a3 : List Byte) (d : Dev) :
    DevKeeps 6291456 d (sendMessage a0 a1 a2 a3 d) := by
  unfold sendMessage
  extract_lets -merge -underBinder +onlyGivenNames x0
  clear_value x0
  extract_lets -merge -underBinder +onlyGivenNames x1
  clear_value x1
  exact (DevKeeps.step (DevKeeps.step (.refl _ _) (Dev.send_keeps _ _) rfl) (enqueueFlits_keeps _ _ _) rfl)

theorem askDlk_keeps (a0 : ℕ) (a1 : ℕ) (a2 : List Byte) (d : Dev) :
    DevKeeps 6291456 d (askDlk a0 a1 a2 d) := by
  unfold askDlk
  extract_lets -merge -underBinder +onlyGivenNames x0
  clear_value x0
  exact (DevKeeps.step (DevKeeps.step (.refl _ _) (Dev.modDlk_keeps _ _) rfl) (sendMessage_keeps _ _ _ _ _) rfl)

theorem askMedia_keeps (a0 : DlkMove) (a1 : List ℕ) (d : Dev) :
    DevKeeps 6291456 d (askMedia a0 a1 d) := by
  unfold askMedia
  extract_lets -merge -underBinder +onlyGivenNames x0
  clear_value x0
  extract_lets -merge -underBinder +onlyGivenNames x1
  clear_value x1
  exact (DevKeeps.step (DevKeeps.step (.refl _ _) (askDlk_keeps _ _ _ _) rfl) (Dev.modDlk_keeps _ _) rfl)

theorem respondDlk_keeps (a0 : ℕ) (a1 : ℕ) (a2 : ℕ) (a3 : List Byte) (d : Dev) :
    DevKeeps 6291456 d (respondDlk a0 a1 a2 a3 d) := by
  unfold respondDlk
  exact (DevKeeps.step (DevKeeps.step (.refl _ _) (Dev.modDlk_keeps _ _) rfl) (sendMessage_keeps _ _ _ _ _) rfl)

theorem answered_keeps (a0 : ℕ) (a1 : ℕ) (d : Dev) :
    DevKeeps 2097152 d (answered a0 a1 d) := by
  unfold answered
  exact (DevKeeps.step (.refl _ _) (Dev.modDlk_keeps _ _) rfl)

theorem resend_keeps (a0 : DlkMsg → Bool) (d : Dev) :
    DevKeeps 6291456 d (resend a0 d) := by
  unfold resend
  refine DevKeeps.foldl ?_ (fun y0 a0 h0 => ?_)
  · exact (.refl _ _)
  · beta_reduce
    exact (DevKeeps.step h0 (sendMessage_keeps _ _ _ _ _) rfl)

theorem sendFar_keeps (a0 : ℕ) (a1 : ℕ) (a2 : ℕ) (a3 : List ℕ) (d : Dev) :
    DevKeeps 6291456 d (sendFar a0 a1 a2 a3 d) := by
  unfold sendFar
  split
  · exact (DevKeeps.step (.refl _ _) (respondDlk_keeps _ _ _ _ _) rfl)
  · exact (.refl _ _)

theorem farDone_keeps (a0 : ℕ) (d : Dev) :
    DevKeeps 6291456 d (farDone a0 d) := by
  unfold farDone
  refine iteP (P := DevKeeps 6291456 d) (fun _ => ?_) (fun _ => ?_)
  · exact (.refl _ _)
  · refine DevKeeps.foldl ?_ (fun y0 a0 h0 => ?_)
    · exact (.refl _ _)
    · beta_reduce
      split
      · extract_lets -merge -underBinder +onlyGivenNames x1
        have h1 : DevKeeps 6291456 d x1 := by
          subst x1
          exact (DevKeeps.step h0 (Dev.modDlk_keeps _ _) rfl)
        clear_value x1
        exact (DevKeeps.step h1 (respondDlk_keeps _ _ _ _ _) rfl)
      · exact h0

theorem eraseFar_keeps (a0 : ℕ) (a1 : ℕ) (d : Dev) :
    DevKeeps 6291456 d (eraseFar a0 a1 d) := by
  unfold eraseFar
  split
  · exact (DevKeeps.step (.refl _ _) (askMedia_keeps _ _ _) rfl)
  · exact (.refl _ _)

end Sys2Proof.Machine
end

