-- ==== Sys2Proof/Laws/KeepZone.lean ====
section
/-! SUPPORT. What each operation of Machine/Zone.lean leaves as it was. -/

namespace Sys2Proof.Machine

theorem Dev.modZone_keeps (d : Dev) (a1 : ℕ) (a2 : ℕ) (a3 : Zone → Zone) :
    DevKeeps 73728 d (Dev.modZone d a1 a2 a3) := by
  unfold Dev.modZone
  extract_lets -merge -underBinder +onlyGivenNames x0
  clear_value x0
  extract_lets -merge -underBinder +onlyGivenNames x1
  have h1 : DevKeeps 73728 d x1 := by
    subst x1
    exact (DevKeeps.step (.refl _ _) (Dev.modZm_keeps _ _) rfl)
  clear_value x1
  refine iteP (P := DevKeeps 73728 d) (fun _ => ?_) (fun _ => ?_)
  · exact h1
  · exact (DevKeeps.step h1 (tellEtchings_keeps _ _ _) rfl)

theorem syncZone_keeps (a0 : ℕ) (a1 : ℕ) (d : Dev) :
    DevKeeps 32768 d (syncZone a0 a1 d) := by
  unfold syncZone
  extract_lets -merge -underBinder +onlyGivenNames x0
  clear_value x0
  extract_lets -merge -underBinder +onlyGivenNames x1
  clear_value x1
  extract_lets -merge -underBinder +onlyGivenNames x2
  clear_value x2
  split
  · refine iteP (P := DevKeeps 32768 d) (fun _ => ?_) (fun _ => ?_)
    · exact (DevKeeps.step (.refl _ _) (Dev.camMake_keeps _ _ _) rfl)
    · exact (DevKeeps.step (.refl _ _) (Dev.camFree_keeps _ _) rfl)
  · refine iteP (P := DevKeeps 32768 d) (fun _ => ?_) (fun _ => ?_)
    · split
      · exact (DevKeeps.step (.refl _ _) (Dev.camMake_keeps _ _ _) rfl)
      · exact (.refl _ _)
    · exact (.refl _ _)

theorem bindRefused_keeps (a0 : Cpl) (d : Dev) :
    DevKeeps 0x40000000000000000000000002 d (bindRefused a0 d) := by
  unfold bindRefused
  exact (DevKeeps.step (.refl _ _) (Dev.flagIf_keeps _ _ _) (by rfl))

theorem rowsLow_keeps (a0 : ℕ) (d : Dev) :
    DevKeeps 0x40000000000000000000000002 d (rowsLow a0 d) := by
  unfold rowsLow
  extract_lets -merge -underBinder +onlyGivenNames x0
  clear_value x0
  exact (DevKeeps.step (.refl _ _) (Dev.flagIf_keeps _ _ _) (by rfl))

theorem loseEvent_keeps (a0 : HealthEvent) (d : Dev) :
    DevKeeps 16384 d (loseEvent a0 d) := by
  unfold loseEvent
  refine DevKeeps.foldl ?_ (fun y0 a0 h0 => ?_)
  · exact (.refl _ _)
  · beta_reduce
    refine iteP (P := DevKeeps 16384 d) (fun _ => ?_) (fun _ => ?_)
    · exact (DevKeeps.step h0 (Dev.modMed_keeps _ _) rfl)
    · exact h0

theorem healthEvent_keeps (a0 : ℕ) (a1 : ℕ) (a2 : ℕ) (a3 : ℕ) (a4 : ℕ) (a5 : ℕ) (a6 : ℕ) (d : Dev) :
    DevKeeps 81920 d (healthEvent a0 a1 a2 a3 a4 a5 a6 d) := by
  unfold healthEvent
  extract_lets -merge -underBinder +onlyGivenNames x0
  have h0 : DevKeeps 81920 d x0 := by
    subst x0
    split
    · exact (DevKeeps.step (.refl _ _) (loseEvent_keeps _ _) rfl)
    · exact (.refl _ _)
  clear_value x0
  extract_lets -merge -underBinder +onlyGivenNames x1
  clear_value x1
  exact (DevKeeps.step (DevKeeps.step h0 (Dev.modMed_keeps _ _) rfl) (tellEtchings_keeps _ _ _) rfl)

theorem badRecord_keeps (a0 : ℕ) (a1 : ℕ) (a2 : ℕ) (a3 : ℕ) (a4 : ℕ) (a5 : ℕ) (a6 : ℕ) (d : Dev) :
    DevKeeps 606208 d (badRecord a0 a1 a2 a3 a4 a5 a6 d) := by
  unfold badRecord
  extract_lets -merge -underBinder +onlyGivenNames x0
  clear_value x0
  extract_lets -merge -underBinder +onlyGivenNames x1
  clear_value x1
  extract_lets -merge -underBinder +onlyGivenNames x2
  clear_value x2
  extract_lets -merge -underBinder +onlyGivenNames x3
  have h3 : DevKeeps 606208 d x3 := by
    subst x3
    exact DevKeeps.set_nvm _ (.refl _ _) rfl
  clear_value x3
  extract_lets -merge -underBinder +onlyGivenNames x4
  have h4 : DevKeeps 606208 d x4 := by
    subst x4
    exact (DevKeeps.step h3 (Dev.modMed_keeps _ _) rfl)
  clear_value x4
  extract_lets -merge -underBinder +onlyGivenNames x5
  clear_value x5
  exact (DevKeeps.step h4 (healthEvent_keeps _ _ _ _ _ _ _ _) rfl)

theorem remapTo_keeps (a0 : ℕ) (a1 : ℕ) (a2 : ℕ × ℕ) (a3 : ℕ) (a4 : ℕ) (d : Dev) :
    DevKeeps 606208 d (remapTo a0 a1 a2 a3 a4 d) := by
  unfold remapTo
  split
  · extract_lets -merge -underBinder +onlyGivenNames x0
    have h0 : DevKeeps 606208 d x0 := by
      subst x0
      exact (DevKeeps.step (.refl _ _) (badRecord_keeps _ _ _ _ _ _ _ _) rfl)
    clear_value x0
    exact (DevKeeps.step h0 (Dev.modMed_keeps _ _) rfl)

theorem setRescue_keeps (a0 : ℕ) (a1 : ℕ) (a2 : ℕ) (d : Dev) :
    DevKeeps 524288 d (setRescue a0 a1 a2 d) := by
  unfold setRescue
  extract_lets -merge -underBinder +onlyGivenNames x0
  clear_value x0
  exact DevKeeps.set_nvm _ (.refl _ _) rfl

theorem replaceFixed_keeps (a0 : ℕ) (a1 : ℕ) (a2 : ℕ) (a3 : Option ℕ) (d : Dev) :
    DevKeeps 606208 d (replaceFixed a0 a1 a2 a3 d) := by
  unfold replaceFixed
  split
  · extract_lets -merge -underBinder +onlyGivenNames x0
    have h0 : DevKeeps 606208 d x0 := by
      subst x0
      exact (DevKeeps.step (.refl _ _) (Dev.modMed_keeps _ _) rfl)
    clear_value x0
    refine iteP (P := DevKeeps 606208 d) (fun _ => ?_) (fun _ => ?_)
    · exact (DevKeeps.step h0 (setRescue_keeps _ _ _ _) rfl)
    · exact h0
  · refine iteP (P := DevKeeps 606208 d) (fun _ => ?_) (fun _ => ?_)
    · exact (DevKeeps.step (.refl _ _) (healthEvent_keeps _ _ _ _ _ _ _ _) rfl)
    · exact (.refl _ _)

theorem makeBad_keeps (a0 : ℕ) (a1 : ℕ) (a2 : ℕ) (d : Dev) :
    DevKeeps 606224 d (makeBad a0 a1 a2 d) := by
  unfold makeBad
  split
  · extract_lets -merge -underBinder +onlyGivenNames x0
    clear_value x0
    extract_lets -merge -underBinder +onlyGivenNames x1
    clear_value x1
    extract_lets -merge -underBinder +onlyGivenNames x2
    have h2 : DevKeeps 606224 d x2 := by
      subst x2
      exact (DevKeeps.step (.refl _ _) (badRecord_keeps _ _ _ _ _ _ _ _) rfl)
    clear_value x2
    extract_lets -merge -underBinder +onlyGivenNames x3
    have h3 : DevKeeps 606224 d x3 := by
      subst x3
      exact (DevKeeps.step h2 (Dev.modDie_keeps _ _ _ _) rfl)
    clear_value x3
    extract_lets -merge -underBinder +onlyGivenNames x4
    have h4 : DevKeeps 606224 d x4 := by
      subst x4
      exact (DevKeeps.step h3 (Dev.modMed_keeps _ _) rfl)
    clear_value x4
    extract_lets -merge -underBinder +onlyGivenNames x5
    have h5 : DevKeeps 606224 d x5 := by
      subst x5
      split
      · refine iteP (P := DevKeeps 606224 d) (fun _ => ?_) (fun _ => ?_)
        · exact (DevKeeps.step h4 (wantReplace_keeps _ _ _ _ _) rfl)
        · exact h4
      · exact h4
    clear_value x5
    extract_lets -merge -underBinder +onlyGivenNames x6
    clear_value x6
    refine iteP (P := DevKeeps 606224 d) (fun _ => ?_) (fun _ => ?_)
    · exact h5
    · refine iteP (P := DevKeeps 606224 d) (fun _ => ?_) (fun _ => ?_)
      · exact (DevKeeps.step h5 (replaceFixed_keeps _ _ _ _ _) rfl)
      · exact (DevKeeps.step h5 (Dev.modRow_keeps _ _ _ _) rfl)

theorem blockFailed_keeps (a0 : ℕ) (a1 : ℕ) (a2 : ℕ) (a3 : ℕ) (d : Dev) :
    DevKeeps 606224 d (blockFailed a0 a1 a2 a3 d) := by
  unfold blockFailed
  refine iteP (P := DevKeeps 606224 d) (fun _ => ?_) (fun _ => ?_)
  · exact (DevKeeps.step (.refl _ _) (makeBad_keeps _ _ _ _) rfl)
  · exact (DevKeeps.step (.refl _ _) (wantReplace_keeps _ _ _ _ _) rfl)

theorem swapBlock_keeps (a0 : ℕ) (a1 : Replace) (d : Dev) :
    DevKeeps 24576 d (swapBlock a0 a1 d) := by
  unfold swapBlock
  extract_lets -merge -underBinder +onlyGivenNames x0
  clear_value x0
  extract_lets -merge -underBinder +onlyGivenNames x1
  have h1 : DevKeeps 24576 d x1 := by
    subst x1
    exact (DevKeeps.step (.refl _ _) (Dev.modMed_keeps _ _) rfl)
  clear_value x1
  extract_lets -merge -underBinder +onlyGivenNames x2
  clear_value x2
  exact (DevKeeps.step h1 (Dev.modZm_keeps _ _) rfl)

theorem countReads_keeps (a0 : List ℕ) (d : Dev) :
    DevKeeps 16384 d (countReads a0 d) := by
  unfold countReads
  extract_lets -merge -underBinder +onlyGivenNames x0
  clear_value x0
  extract_lets -merge -underBinder +onlyGivenNames x1
  clear_value x1
  extract_lets -merge -underBinder +onlyGivenNames x2
  have h2 : DevKeeps 16384 d x2 := by
    subst x2
    exact (DevKeeps.step (.refl _ _) (Dev.modMed_keeps _ _) rfl)
  clear_value x2
  refine DevKeeps.foldl ?_ (fun y3 a3 h3 => ?_)
  · exact h2
  · beta_reduce
    extract_lets -merge -underBinder +onlyGivenNames x4
    clear_value x4
    refine iteP (P := DevKeeps 16384 d) (fun _ => ?_) (fun _ => ?_)
    · exact (DevKeeps.step h3 (wantReplace_keeps _ _ _ _ _) rfl)
    · exact h3

theorem settleMembers_keeps (a0 : ℕ) (a1 : ℕ) (d : Dev) :
    DevKeeps 614416 d (settleMembers a0 a1 d) := by
  unfold settleMembers
  extract_lets -merge -underBinder +onlyGivenNames x0
  have h0 : DevKeeps 614416 d x0 := by
    subst x0
    refine DevKeeps.foldl ?_ (fun y1 a1 h1 => ?_)
    · exact (.refl _ _)
    · beta_reduce
      exact (DevKeeps.step h1 (swapBlock_keeps _ _ _) rfl)
  clear_value x0
  extract_lets -merge -underBinder +onlyGivenNames x2
  clear_value x2
  extract_lets -merge -underBinder +onlyGivenNames x3
  have h3 : DevKeeps 614416 d x3 := by
    subst x3
    exact (DevKeeps.step h0 (Dev.modMed_keeps _ _) rfl)
  clear_value x3
  refine DevKeeps.foldl ?_ (fun y4 a4 h4 => ?_)
  · exact h3
  · beta_reduce
    refine iteP (P := DevKeeps 614416 d) (fun _ => ?_) (fun _ => ?_)
    · exact (DevKeeps.step h4 (makeBad_keeps _ _ _ _) rfl)
    · exact h4

theorem orderErase_keeps (a0 : ℕ) (a1 : ℕ) (a2 : ℕ) (a3 : Bool) (d : Dev) :
    DevKeeps 20480 d (orderErase a0 a1 a2 a3 d) := by
  unfold orderErase
  split
  · rename_i v0_0 v0_1 q0
    have h1 : DevKeeps 20480 d v0_1 := by
      refine SndP.get (P := (DevKeeps 20480 d)) ?_ q0
      exact DevKeeps.stepSnd (.refl _ _) (Dev.hostTag_keeps _) rfl
    exact (DevKeeps.step h1 (Dev.modMed_keeps _ _) rfl)

theorem fillMembers_keeps (a0 : ℕ) (a1 : ℕ) (d : Dev) :
    DevKeeps 606208 d (fillMembers a0 a1 d) := by
  unfold fillMembers
  refine DevKeeps.forUpTo ?_ (fun a0 y0 h0 => ?_)
  · exact (.refl _ _)
  · beta_reduce
    split
    · refine iteP (P := DevKeeps 606208 d) (fun _ => ?_) (fun _ => ?_)
      · exact h0
      · refine iteP (P := DevKeeps 606208 d) (fun _ => ?_) (fun _ => ?_)
        · exact (DevKeeps.step h0 (remapTo_keeps _ _ _ _ _ _) rfl)
        · exact (DevKeeps.step h0 (remapTo_keeps _ _ _ _ _ _) rfl)
    · exact h0

theorem bindZone_keeps (a0 : ℕ) (a1 : ℕ) (a2 : ℕ) (a3 : ℕ × ℕ) (a4 : ZoneState) (d : Dev) :
    DevKeeps 614400 d (bindZone a0 a1 a2 a3 a4 d) := by
  unfold bindZone
  extract_lets -merge -underBinder +onlyGivenNames x0
  have h0 : DevKeeps 614400 d x0 := by
    subst x0
    exact (DevKeeps.step (DevKeeps.step (.refl _ _) (fillMembers_keeps _ _ _) rfl) (Dev.modRow_keeps _ _ _ _) rfl)
  clear_value x0
  exact (DevKeeps.step h0 (Dev.modZone_keeps _ _ _ _) rfl)

theorem takeUnassigned_keeps (a0 : ℕ) (d : Dev) :
    FstP (DevKeeps 8192 d) (takeUnassigned a0 d) := by
  unfold takeUnassigned
  split
  · refine FstP.mk ?_
    exact (.refl _ _)
  · extract_lets -merge -underBinder +onlyGivenNames x0
    clear_value x0
    split
    · refine FstP.mk ?_
      exact (DevKeeps.step (.refl _ _) (Dev.modNs_keeps _ _ _) rfl)
    · refine FstP.mk ?_
      exact (.refl _ _)

theorem retireRow_keeps (a0 : ℕ) (a1 : ℕ) (a2 : ℕ) (d : Dev) :
    DevKeeps 614416 d (retireRow a0 a1 a2 d) := by
  unfold retireRow
  extract_lets -merge -underBinder +onlyGivenNames x0
  have h0 : DevKeeps 614416 d x0 := by
    subst x0
    exact (DevKeeps.step (.refl _ _) (settleMembers_keeps _ _ _) rfl)
  clear_value x0
  extract_lets -merge -underBinder +onlyGivenNames x1
  have h1 : DevKeeps 614416 d x1 := by
    subst x1
    exact (DevKeeps.step h0 (Dev.modRow_keeps _ _ _ _) rfl)
  clear_value x1
  exact (DevKeeps.step h1 (badRecord_keeps _ _ _ _ _ _ _ _) rfl)

theorem retireReserved_keeps (a0 : ℕ) (a1 : ℕ) (a2 : ℕ) (a3 : ℕ) (d : Dev) :
    FstP (DevKeeps 0x40000000000000000000096012 d) (retireReserved a0 a1 a2 a3 d) := by
  unfold retireReserved
  extract_lets -merge -underBinder +onlyGivenNames x0
  clear_value x0
  extract_lets -merge -underBinder +onlyGivenNames x1
  have h1 : DevKeeps 0x40000000000000000000096012 d x1 := by
    subst x1
    exact (DevKeeps.step (DevKeeps.step (.refl _ _) (retireRow_keeps _ _ _ _) rfl) (Dev.modNs_keeps _ _ _) rfl)
  clear_value x1
  split
  · rename_i v2_0 v2_1 q2
    have h3 : DevKeeps 0x40000000000000000000096012 d v2_0 := by
      refine FstP.get (P := (DevKeeps 0x40000000000000000000096012 d)) ?_ q2
      exact DevKeeps.stepFst h1 (takeUnassigned_keeps _ _) rfl
    refine FstP.mk ?_
    exact (DevKeeps.step h3 (rowsLow_keeps _ _) rfl)

theorem releaseRow_keeps (a0 : ℕ) (a1 : ℕ) (a2 : ℕ) (d : Dev) :
    DevKeeps 0x40000000000000000000696012 d (releaseRow a0 a1 a2 d) := by
  unfold releaseRow
  extract_lets -merge -underBinder +onlyGivenNames x0
  have h0 : DevKeeps 0x40000000000000000000696012 d x0 := by
    subst x0
    exact (DevKeeps.step (.refl _ _) (settleMembers_keeps _ _ _) rfl)
  clear_value x0
  extract_lets -merge -underBinder +onlyGivenNames x1
  clear_value x1
  refine iteP (P := DevKeeps 0x40000000000000000000696012 d) (fun _ => ?_) (fun _ => ?_)
  · refine FstP.fst (P := DevKeeps 0x40000000000000000000696012 d) ?_
    exact DevKeeps.stepFst h0 (retireReserved_keeps _ _ _ _ _) rfl
  · refine iteP (P := DevKeeps 0x40000000000000000000696012 d) (fun _ => ?_) (fun _ => ?_)
    · refine FstP.fst (P := DevKeeps 0x40000000000000000000696012 d) ?_
      exact DevKeeps.stepFst h0 (retireReserved_keeps _ _ _ _ _) rfl
    · exact (DevKeeps.step (DevKeeps.step h0 (Dev.modRow_keeps _ _ _ _) rfl) (eraseFar_keeps _ _ _) rfl)

theorem takeStage_keeps (a0 : ℕ) (a1 : ℕ) (d : Dev) :
    FstP (DevKeeps 4096 d) (takeStage a0 a1 d) := by
  unfold takeStage
  refine iteP (P := FstP (DevKeeps 4096 d)) (fun _ => ?_) (fun _ => ?_)
  · refine FstP.mk ?_
    exact (DevKeeps.step (.refl _ _) (Dev.modHost_keeps _ _) rfl)
  · refine FstP.mk ?_
    exact (DevKeeps.step (.refl _ _) (Dev.modHost_keeps _ _) rfl)

theorem dropStage_keeps (a0 : ℕ) (a1 : ℕ) (a2 : Bool) (d : Dev) :
    DevKeeps 4096 d (dropStage a0 a1 a2 d) := by
  unfold dropStage
  refine iteP (P := DevKeeps 4096 d) (fun _ => ?_) (fun _ => ?_)
  · exact (DevKeeps.step (.refl _ _) (Dev.modHost_keeps _ _) rfl)
  · exact (DevKeeps.step (.refl _ _) (Dev.modHost_keeps _ _) rfl)

theorem freeSectorCells_keeps (a0 : ℕ) (d : Dev) :
    DevKeeps 2048 d (freeSectorCells a0 d) := by
  unfold freeSectorCells
  extract_lets -merge -underBinder +onlyGivenNames x0
  clear_value x0
  extract_lets -merge -underBinder +onlyGivenNames x1
  clear_value x1
  extract_lets -merge -underBinder +onlyGivenNames x2
  clear_value x2
  extract_lets -merge -underBinder +onlyGivenNames x3
  clear_value x3
  refine iteP (P := DevKeeps 2048 d) (fun _ => ?_) (fun _ => ?_)
  · exact (.refl _ _)
  · exact (DevKeeps.step (.refl _ _) (Dev.modPool_keeps _ _) rfl)

theorem padUnit_keeps (a0 : ℕ) (a1 : ℕ) (d : Dev) :
    DevKeeps 2049 d (padUnit a0 a1 d) := by
  unfold padUnit
  extract_lets -merge -underBinder +onlyGivenNames x0
  clear_value x0
  split
  · extract_lets -merge -underBinder +onlyGivenNames x1
    clear_value x1
    extract_lets -merge -underBinder +onlyGivenNames x2
    clear_value x2
    refine iteP (P := DevKeeps 2049 d) (fun _ => ?_) (fun _ => ?_)
    · exact (.refl _ _)
    · split
      · rename_i v3_0 v3_1 q3
        have h4 : DevKeeps 2049 d v3_1 := by
          refine SndP.get (P := (DevKeeps 2049 d)) ?_ q3
          exact DevKeeps.stepSnd (.refl _ _) (grantCells_keeps _ _ _) rfl
        extract_lets -merge -underBinder +onlyGivenNames x5
        have h5 : DevKeeps 2049 d x5 := by
          subst x5
          exact (DevKeeps.step h4 (Dev.modPool_keeps _ _) rfl)
        clear_value x5
        exact (DevKeeps.step (DevKeeps.step h5 (Dev.modPool_keeps _ _) rfl) (Dev.tick_keeps _ _) rfl)
  · exact (.refl _ _)

theorem discardStaged_keeps (a0 : ℕ) (a1 : ℕ) (a2 : ℕ) (d : Dev) :
    DevKeeps 2177024 d (discardStaged a0 a1 a2 d) := by
  unfold discardStaged
  extract_lets -merge -underBinder +onlyGivenNames x0
  clear_value x0
  extract_lets -merge -underBinder +onlyGivenNames x1
  have h1 : DevKeeps 2177024 d x1 := by
    subst x1
    refine DevKeeps.foldl ?_ (fun y2 a2 h2 => ?_)
    · exact (.refl _ _)
    · beta_reduce
      exact (DevKeeps.step (DevKeeps.step h2 (freeSectorCells_keeps _ _) rfl) (dropStage_keeps _ _ _ _) rfl)
  clear_value x1
  extract_lets -merge -underBinder +onlyGivenNames x3
  have h3 : DevKeeps 2177024 d x3 := by
    subst x3
    exact (DevKeeps.step h1 (Dev.modDlk_keeps _ _) rfl)
  clear_value x3
  exact (DevKeeps.step h3 (Dev.modZone_keeps _ _ _ _) rfl)

theorem reportZone_keeps (a0 : ℕ) (a1 : ℕ) (a2 : Bool) (a3 : ℕ) (d : Dev) :
    DevKeeps 0x40000000000000000000015002 d (reportZone a0 a1 a2 a3 d) := by
  unfold reportZone
  extract_lets -merge -underBinder +onlyGivenNames x0
  clear_value x0
  extract_lets -merge -underBinder +onlyGivenNames x1
  have h1 : DevKeeps 0x40000000000000000000015002 d x1 := by
    subst x1
    split
    · refine DevKeeps.foldl ?_ (fun y2 a2 h2 => ?_)
      · exact (.refl _ _)
      · beta_reduce
        extract_lets -merge -underBinder +onlyGivenNames x3
        have h3 : DevKeeps 0x40000000000000000000015002 d x3 := by
          subst x3
          exact (DevKeeps.step h2 (Dev.modFunc_keeps _ _ _) rfl)
        clear_value x3
        refine iteP (P := DevKeeps 0x40000000000000000000015002 d) (fun _ => ?_) (fun _ => ?_)
        · exact (DevKeeps.step h3 (raiseEvent_keeps _ _ _) rfl)
        · exact h3
    · exact (.refl _ _)
  clear_value x1
  extract_lets -merge -underBinder +onlyGivenNames x4
  have h4 : DevKeeps 0x40000000000000000000015002 d x4 := by
    subst x4
    refine iteP (P := DevKeeps 0x40000000000000000000015002 d) (fun _ => ?_) (fun _ => ?_)
    · exact (DevKeeps.step h1 (Dev.wr_keeps _ _ _) (by rfl))
    · exact (DevKeeps.step h1 (Dev.wr_keeps _ _ _) (by rfl))
  clear_value x4
  split
  · exact (DevKeeps.step h4 (healthEvent_keeps _ _ _ _ _ _ _ _) rfl)

theorem giveBack_keeps (a0 : ℕ) (d : Dev) :
    DevKeeps 0x380000000000000000000000000000000000009A02 d (giveBack a0 d) := by
  unfold giveBack
  split
  · exact (.refl _ _)
  · extract_lets -merge -underBinder +onlyGivenNames x0
    clear_value x0
    extract_lets -merge -underBinder +onlyGivenNames x1
    have h1 : DevKeeps 0x380000000000000000000000000000000000009A02 d x1 := by
      subst x1
      exact (DevKeeps.step (.refl _ _) (Dev.release_keeps _ _) rfl)
    clear_value x1
    extract_lets -merge -underBinder +onlyGivenNames x2
    have h2 : DevKeeps 0x380000000000000000000000000000000000009A02 d x2 := by
      subst x2
      split
      · exact (DevKeeps.step h1 (dropStage_keeps _ _ _ _) rfl)
      · exact h1
    clear_value x2
    extract_lets -merge -underBinder +onlyGivenNames x3
    have h3 : DevKeeps 0x380000000000000000000000000000000000009A02 d x3 := by
      subst x3
      split
      · exact (DevKeeps.step h2 (Dev.camFree_keeps _ _) rfl)
      · exact h2
    clear_value x3
    extract_lets -merge -underBinder +onlyGivenNames x4
    clear_value x4
    extract_lets -merge -underBinder +onlyGivenNames x5
    have h5 : DevKeeps 0x380000000000000000000000000000000000009A02 d x5 := by
      subst x5
      exact DevKeeps.set_ciph _ h3 rfl
    clear_value x5
    exact (DevKeeps.step h5 (Dev.modSlot_keeps _ _ _) rfl)

theorem dropLanding_keeps (a0 : ℕ) (a1 : ℕ) (a2 : ℕ) (d : Dev) :
    DevKeeps 73728 d (dropLanding a0 a1 a2 d) := by
  unfold dropLanding
  exact (DevKeeps.step (.refl _ _) (Dev.modZone_keeps _ _ _ _) rfl)

theorem fallBack_keeps (a0 : ℕ) (a1 : ℕ) (a2 : ℕ) (d : Dev) :
    DevKeeps 0x38000000000000000000000000000000000001BA02 d (fallBack a0 a1 a2 d) := by
  unfold fallBack
  extract_lets -merge -underBinder +onlyGivenNames x0
  clear_value x0
  split
  · rename_i v1_0 v1_1 q1
    have h2 : DevKeeps 0x38000000000000000000000000000000000001BA02 d v1_0 := by
      refine FstP.get (P := (DevKeeps 0x38000000000000000000000000000000000001BA02 d)) ?_ q1
      refine FstP.foldl ?_ (fun y3 a3 h3 => ?_)
      · refine FstP.mk ?_
        exact (.refl _ _)
      · beta_reduce
        split
        · rename_i v4_0 v4_1
          have h5 : DevKeeps 0x38000000000000000000000000000000000001BA02 d v4_0 := h3
          extract_lets -merge -underBinder +onlyGivenNames x6
          clear_value x6
          extract_lets -merge -underBinder +onlyGivenNames x7
          have h7 : DevKeeps 0x38000000000000000000000000000000000001BA02 d x7 := by
            subst x7
            exact (DevKeeps.step h5 (Dev.modSlot_keeps _ _ _) rfl)
          clear_value x7
          extract_lets -merge -underBinder +onlyGivenNames x8
          have h8 : DevKeeps 0x38000000000000000000000000000000000001BA02 d x8 := by
            subst x8
            exact (DevKeeps.step h7 (Dev.modZone_keeps _ _ _ _) rfl)
          clear_value x8
          refine iteP (P := FstP (DevKeeps 0x38000000000000000000000000000000000001BA02 d)) (fun _ => ?_) (fun _ => ?_)
          · refine FstP.mk ?_
            exact h8
          · refine FstP.mk ?_
            exact (DevKeeps.step (DevKeeps.step h5 (giveBack_keeps _ _) rfl) (finish_keeps _ _ _) rfl)
    exact (DevKeeps.step (DevKeeps.step h2 (Dev.modZone_keeps _ _ _ _) rfl) (syncZone_keeps _ _ _) rfl)

theorem withdrawWrite_keeps (a0 : ℕ) (d : Dev) :
    DevKeeps 0x38000000000000000000000000000000000001BA02 d (withdrawWrite a0 d) := by
  unfold withdrawWrite
  split
  · exact (.refl _ _)
  · split
    · extract_lets -merge -underBinder +onlyGivenNames x0
      clear_value x0
      extract_lets -merge -underBinder +onlyGivenNames x1
      clear_value x1
      exact (DevKeeps.step (DevKeeps.step (DevKeeps.step (.refl _ _) (giveBack_keeps _ _) rfl) (dropLanding_keeps _ _ _ _) rfl) (fallBack_keeps _ _ _ _) rfl)
    · exact (DevKeeps.step (.refl _ _) (giveBack_keeps _ _) rfl)

end Sys2Proof.Machine
end

