-- ==== Sys2Proof/Laws/KeepVerify.lean ====
section
/-! SUPPORT. What each operation of Machine/Verify.lean leaves as it was. -/

namespace Sys2Proof.Machine

theorem orderProofs_keeps (a0 : Heard) (d : Dev) :
    DevKeeps 20480 d (orderProofs a0 d) := by
  unfold orderProofs
  extract_lets -merge -underBinder +onlyGivenNames x0
  clear_value x0
  split
  · rename_i v1_0 v1_1 q1
    have h2 : DevKeeps 20480 d v1_0 := by
      refine FstP.get (P := (DevKeeps 20480 d)) ?_ q1
      refine FstP.foldl ?_ (fun y3 a3 h3 => ?_)
      · refine FstP.mk ?_
        exact (.refl _ _)
      · beta_reduce
        split
        · rename_i v4_0 v4_1 q4
          have h5 : DevKeeps 20480 d v4_1 := by
            refine SndP.get (P := (DevKeeps 20480 d)) ?_ q4
            refine DevKeeps.stepSnd ?_ (Dev.hostTag_keeps _) rfl
            refine FstP.fst (P := DevKeeps 20480 d) ?_
            exact h3
          extract_lets -merge -underBinder +onlyGivenNames x6
          clear_value x6
          refine FstP.mk ?_
          exact (DevKeeps.step h5 (Dev.modMed_keeps _ _) rfl)
    exact (DevKeeps.step h2 (Dev.modMed_keeps _ _) rfl)

theorem passUnit_keeps (a0 : Desc) (d : Dev) :
    DevKeeps 2048 d (passUnit a0 d) := by
  unfold passUnit
  exact (DevKeeps.step (.refl _ _) (Dev.modPool_keeps _ _) rfl)

theorem erasePassed_keeps (a0 : ℕ) (a1 : ℕ) (d : Dev) :
    DevKeeps 540672 d (erasePassed a0 a1 d) := by
  unfold erasePassed
  extract_lets -merge -underBinder +onlyGivenNames x0
  have h0 : DevKeeps 540672 d x0 := by
    subst x0
    exact (DevKeeps.step (.refl _ _) (Dev.modMed_keeps _ _) rfl)
  clear_value x0
  split
  · extract_lets -merge -underBinder +onlyGivenNames x1
    clear_value x1
    refine iteP (P := DevKeeps 540672 d) (fun _ => ?_) (fun _ => ?_)
    · exact (DevKeeps.step h0 (setRescue_keeps _ _ _ _) rfl)
    · exact h0

theorem eraseWeak_keeps (a0 : Desc) (a1 : ℕ) (d : Dev) :
    DevKeeps 610320 d (eraseWeak a0 a1 d) := by
  unfold eraseWeak
  split
  · exact (DevKeeps.step (.refl _ _) (makeBad_keeps _ _ _ _) rfl)
  · split
    · extract_lets -merge -underBinder +onlyGivenNames x0
      clear_value x0
      extract_lets -merge -underBinder +onlyGivenNames x1
      have h1 : DevKeeps 610320 d x1 := by
        subst x1
        refine iteP (P := DevKeeps 610320 d) (fun _ => ?_) (fun _ => ?_)
        · exact (DevKeeps.step (.refl _ _) (Dev.modRow_keeps _ _ _ _) rfl)
        · exact (.refl _ _)
      clear_value x1
      exact (DevKeeps.step h1 (orderErase_keeps _ _ _ _ _) rfl)

theorem provedGood_keeps (a0 : ℕ) (a1 : Desc) (d : Dev) :
    DevKeeps 542720 d (provedGood a0 a1 d) := by
  unfold provedGood
  refine iteP (P := DevKeeps 542720 d) (fun _ => ?_) (fun _ => ?_)
  · exact (DevKeeps.step (.refl _ _) (passUnit_keeps _ _) rfl)
  · exact (DevKeeps.step (.refl _ _) (erasePassed_keeps _ _ _) rfl)

theorem provedBad_keeps (a0 : ℕ) (a1 : Desc) (d : Dev) :
    DevKeeps 610320 d (provedBad a0 a1 d) := by
  unfold provedBad
  extract_lets -merge -underBinder +onlyGivenNames x0
  clear_value x0
  extract_lets -merge -underBinder +onlyGivenNames x1
  have h1 : DevKeeps 610320 d x1 := by
    subst x1
    refine iteP (P := DevKeeps 610320 d) (fun _ => ?_) (fun _ => ?_)
    · exact (DevKeeps.step (.refl _ _) (Dev.modDie_keeps _ _ _ _) rfl)
    · exact (.refl _ _)
  clear_value x1
  refine iteP (P := DevKeeps 610320 d) (fun _ => ?_) (fun _ => ?_)
  · exact (DevKeeps.step h1 (blockFailed_keeps _ _ _ _ _) rfl)
  · exact (DevKeeps.step (.refl _ _) (eraseWeak_keeps _ _ _) rfl)

theorem proofHeard_keeps (a0 : Heard) (d : Dev) :
    DevKeeps 612368 d (proofHeard a0 d) := by
  unfold proofHeard
  split
  · exact (.refl _ _)
  · extract_lets -merge -underBinder +onlyGivenNames x0
    clear_value x0
    extract_lets -merge -underBinder +onlyGivenNames x1
    have h1 : DevKeeps 612368 d x1 := by
      subst x1
      exact (DevKeeps.step (.refl _ _) (Dev.modMed_keeps _ _) rfl)
    clear_value x1
    refine iteP (P := DevKeeps 612368 d) (fun _ => ?_) (fun _ => ?_)
    · refine iteP (P := DevKeeps 612368 d) (fun _ => ?_) (fun _ => ?_)
      · exact (DevKeeps.step h1 (provedBad_keeps _ _ _) rfl)
      · exact (DevKeeps.step h1 (provedGood_keeps _ _ _) rfl)
    · exact (DevKeeps.step (.refl _ _) (Dev.modMed_keeps _ _) rfl)

theorem hear_keeps (a0 : Heard) (d : Dev) :
    DevKeeps 612368 d (hear a0 d) := by
  unfold hear
  extract_lets -merge -underBinder +onlyGivenNames x0
  clear_value x0
  extract_lets -merge -underBinder +onlyGivenNames x1
  clear_value x1
  refine iteP (P := DevKeeps 612368 d) (fun _ => ?_) (fun _ => ?_)
  · exact (DevKeeps.step (.refl _ _) (proofHeard_keeps _ _) rfl)
  · split
    · refine iteP (P := DevKeeps 612368 d) (fun _ => ?_) (fun _ => ?_)
      · exact (DevKeeps.step (.refl _ _) (provedGood_keeps _ _ _) rfl)
      · exact (DevKeeps.step (.refl _ _) (orderProofs_keeps _ _) rfl)
    · exact (DevKeeps.step (.refl _ _) (blockFailed_keeps _ _ _ _ _) rfl)
    · exact (DevKeeps.step (.refl _ _) (makeBad_keeps _ _ _ _) rfl)
    · exact (DevKeeps.step (.refl _ _) (provedBad_keeps _ _ _) rfl)
    · exact (.refl _ _)

theorem settleOld_keeps (a0 : ℕ) (d : Dev) :
    DevKeeps 20496 d (settleOld a0 d) := by
  unfold settleOld
  refine DevKeeps.foldl ?_ (fun y0 a0 h0 => ?_)
  · exact (.refl _ _)
  · beta_reduce
    extract_lets -merge -underBinder +onlyGivenNames x1
    have h1 : DevKeeps 20496 d x1 := by
      subst x1
      exact (DevKeeps.step h0 (Dev.modMed_keeps _ _) rfl)
    clear_value x1
    refine iteP (P := DevKeeps 20496 d) (fun _ => ?_) (fun _ => ?_)
    · exact h0
    · refine iteP (P := DevKeeps 20496 d) (fun _ => ?_) (fun _ => ?_)
      · exact (DevKeeps.step h1 (Dev.modDie_keeps _ _ _ _) rfl)
      · exact (DevKeeps.step h1 (orderErase_keeps _ _ _ _ _) rfl)

theorem postOwed_keeps (a0 : ℕ) (d : Dev) :
    DevKeeps 0x180000000000000000000000000000000000000000000000000000000000000000000000000000000000000004052 d (postOwed a0 d) := by
  unfold postOwed
  refine DevKeeps.foldl ?_ (fun y0 a0 h0 => ?_)
  · exact (.refl _ _)
  · beta_reduce
    refine iteP (P := DevKeeps 0x180000000000000000000000000000000000000000000000000000000000000000000000000000000000000004052 d) (fun _ => ?_) (fun _ => ?_)
    · exact (DevKeeps.step (DevKeeps.step h0 (Dev.modMed_keeps _ _) rfl) (takeDesc_keeps _ _ _ _) rfl)
    · exact h0

theorem thrumlux_keeps (a0 : ℕ) (d : Dev) :
    DevKeeps 0x180000000000000000000000000000000000000000000000000000000000000000000000000000000000000095852 d (thrumlux a0 d) := by
  unfold thrumlux
  extract_lets -merge -underBinder +onlyGivenNames x0
  clear_value x0
  extract_lets -merge -underBinder +onlyGivenNames x1
  have h1 : DevKeeps 0x180000000000000000000000000000000000000000000000000000000000000000000000000000000000000095852 d x1 := by
    subst x1
    exact (DevKeeps.step (.refl _ _) (Dev.modMed_keeps _ _) rfl)
  clear_value x1
  refine DevKeeps.step ?_ (postOwed_keeps _ _) rfl
  refine DevKeeps.step ?_ (settleOld_keeps _ _) rfl
  refine DevKeeps.foldl ?_ (fun y2 a2 h2 => ?_)
  · exact h1
  · beta_reduce
    exact (DevKeeps.step h2 (hear_keeps _ _) rfl)

end Sys2Proof.Machine
end

