-- ==== Sys2Proof/Laws/KeepArb.lean ====
section
/-! SUPPORT. What each operation of Machine/Arb.lean leaves as it was. -/

namespace Sys2Proof.Machine

theorem countSusp_keeps (a0 : ℕ) (a1 : ℕ) (d : Dev) :
    DevKeeps 0x40000000000000000000000000000000000000000000000000000000000000000000000000000000000000000012 d (countSusp a0 a1 d) := by
  unfold countSusp
  extract_lets -merge -underBinder +onlyGivenNames x0
  have h0 : DevKeeps 0x40000000000000000000000000000000000000000000000000000000000000000000000000000000000000000012 d x0 := by
    subst x0
    exact (DevKeeps.step (.refl _ _) (Dev.addc_keeps _ _ _ _) (by rfl))
  clear_value x0
  split
  · extract_lets -merge -underBinder +onlyGivenNames x1
    have h1 : DevKeeps 0x40000000000000000000000000000000000000000000000000000000000000000000000000000000000000000012 d x1 := by
      subst x1
      exact (DevKeeps.step h0 (Dev.modDie_keeps _ _ _ _) rfl)
    clear_value x1
    refine iteP (P := DevKeeps 0x40000000000000000000000000000000000000000000000000000000000000000000000000000000000000000012 d) (fun _ => ?_) (fun _ => ?_)
    · exact (DevKeeps.step h1 (Dev.addc_keeps _ _ _ _) (by rfl))
    · exact h1
  · exact h0

theorem setRead_keeps (n t : Nat) (q : QDesc) (b : Bool) (st : DieState) (d : Dev) : DevKeeps 20496 d (setRead n t q b st d) := by
  unfold setRead
  extract_lets run d1 d2 d3
  have h2 : DevKeeps 20496 d d2 := ((Dev.modDie_keeps _ _ _ _).mono rfl).step (Dev.modMed_keeps _ _) rfl
  have h3 : DevKeeps 20496 d d3 := by
    show DevKeeps 20496 d (match descSlot q.desc with | some k => _ | none => _)
    split
    · exact iteP (P := DevKeeps 20496 d) (fun _ => h2) (fun _ => h2.step (Dev.modSlot_keeps _ _ _) rfl)
    · exact h2
  exact iteP (P := DevKeeps 20496 d) (fun _ => h3.step (wantReplace_keeps _ _ _ _ _) rfl) (fun _ => h3)

theorem suspendOp_keeps (a0 : ℕ) (a1 : ℕ) (d : Dev) :
    DevKeeps 16 d (suspendOp a0 a1 d) := by
  unfold suspendOp
  exact (DevKeeps.step (.refl _ _) (Dev.modDie_keeps _ _ _ _) rfl)

theorem grantReadStart_keeps (a0 : ℕ) (a1 : ℕ) (a2 : QDesc) (a3 : ReadMode) (d : Dev) :
    DevKeeps 0xC0000000000000000000000000000000000000000000000000000000000000000000000000000000000000005012 d (grantReadStart a0 a1 a2 a3 d) := by
  unfold grantReadStart
  extract_lets -merge -underBinder +onlyGivenNames x0
  clear_value x0
  split
  · extract_lets -merge -underBinder +onlyGivenNames x1
    have h1 : DevKeeps 0xC0000000000000000000000000000000000000000000000000000000000000000000000000000000000000005012 d x1 := by
      subst x1
      exact (DevKeeps.step (.refl _ _) (Dev.modDie_keeps _ _ _ _) rfl)
    clear_value x1
    exact (DevKeeps.step h1 (setRead_keeps _ _ _ _ _ _) rfl)
  · extract_lets -merge -underBinder +onlyGivenNames x2
    have h2 : DevKeeps 0xC0000000000000000000000000000000000000000000000000000000000000000000000000000000000000005012 d x2 := by
      subst x2
      exact (DevKeeps.step (DevKeeps.step (DevKeeps.step (.refl _ _) (countSusp_keeps _ _ _) rfl) (suspendOp_keeps _ _ _) rfl) (Dev.modChan_keeps _ _ _) rfl)
    clear_value x2
    exact (DevKeeps.step h2 (setRead_keeps _ _ _ _ _ _) rfl)
  · extract_lets -merge -underBinder +onlyGivenNames x3
    have h3 : DevKeeps 0xC0000000000000000000000000000000000000000000000000000000000000000000000000000000000000005012 d x3 := by
      subst x3
      exact (DevKeeps.step (DevKeeps.step (.refl _ _) (countSusp_keeps _ _ _) rfl) (Dev.modChan_keeps _ _ _) rfl)
    clear_value x3
    extract_lets -merge -underBinder +onlyGivenNames x4
    have h4 : DevKeeps 0xC0000000000000000000000000000000000000000000000000000000000000000000000000000000000000005012 d x4 := by
      subst x4
      exact (DevKeeps.step h3 (Dev.modDie_keeps _ _ _ _) rfl)
    clear_value x4
    exact (DevKeeps.step h4 (setRead_keeps _ _ _ _ _ _) rfl)
  · extract_lets -merge -underBinder +onlyGivenNames x5
    have h5 : DevKeeps 0xC0000000000000000000000000000000000000000000000000000000000000000000000000000000000000005012 d x5 := by
      subst x5
      exact (DevKeeps.step (.refl _ _) (Dev.addc_keeps _ _ _ _) (by rfl))
    clear_value x5
    extract_lets -merge -underBinder +onlyGivenNames x6
    have h6 : DevKeeps 0xC0000000000000000000000000000000000000000000000000000000000000000000000000000000000000005012 d x6 := by
      subst x6
      exact (DevKeeps.step h5 (setRead_keeps _ _ _ _ _ _) rfl)
    clear_value x6
    split
    · exact (DevKeeps.step h6 (Dev.modDie_keeps _ _ _ _) rfl)
    · exact h6

theorem tearUnit_keeps (a0 : ℕ) (a1 : Desc) (d : Dev) :
    DevKeeps 33 d (tearUnit a0 a1 d) := by
  unfold tearUnit
  extract_lets -merge -underBinder +onlyGivenNames x0
  clear_value x0
  extract_lets -merge -underBinder +onlyGivenNames x1
  clear_value x1
  refine DevKeeps.step ?_ (Dev.tick_keeps _ _) rfl
  exact DevKeeps.set_media _ (.refl _ _) rfl

theorem storeUnit_keeps (a0 : ℕ) (a1 : Desc) (a2 : List Sector) (d : Dev) :
    DevKeeps 16416 d (storeUnit a0 a1 a2 d) := by
  unfold storeUnit
  extract_lets -merge -underBinder +onlyGivenNames x0
  clear_value x0
  refine DevKeeps.step (e := d) (k := 16416) ?_ ⟨fun _ => rfl, fun _ => rfl, fun _ => rfl, fun _ => rfl, fun _ => rfl, fun h => absurd h (by decide), fun _ => rfl, fun _ => rfl, fun _ => rfl, fun _ => rfl, fun _ => rfl, fun _ => rfl, fun _ => rfl, fun _ => rfl, fun h => absurd h (by decide), fun _ => rfl, fun _ => rfl, fun _ => rfl, fun _ => rfl, fun _ => rfl, fun _ => rfl, fun _ => rfl, fun _ => rfl, fun _ _ => rfl⟩ rfl
  exact (.refl _ _)

theorem moveConv_keeps (a0 : ℕ) (a1 : Desc) (d : Dev) :
    DevKeeps 8192 d (moveConv a0 a1 d) := by
  unfold moveConv
  refine DevKeeps.forUpTo ?_ (fun a0 y0 h0 => ?_)
  · exact (.refl _ _)
  · beta_reduce
    split
    · extract_lets -merge -underBinder +onlyGivenNames x1
      clear_value x1
      extract_lets -merge -underBinder +onlyGivenNames x2
      clear_value x2
      extract_lets -merge -underBinder +onlyGivenNames x3
      clear_value x3
      split
      · extract_lets -merge -underBinder +onlyGivenNames x4
        clear_value x4
        extract_lets -merge -underBinder +onlyGivenNames x5
        clear_value x5
        exact DevKeeps.set_zm _ h0 rfl

theorem wearBlock_keeps (a0 : ℕ) (a1 : ℕ) (a2 : Bool) (d : Dev) :
    DevKeeps 16384 d (wearBlock a0 a1 a2 d) := by
  unfold wearBlock
  exact (DevKeeps.step (.refl _ _) (Dev.modMed_keeps _ _) rfl)

theorem eraseBlock_keeps (a0 : ℕ) (a1 : ℕ) (d : Dev) :
    DevKeeps 16416 d (eraseBlock a0 a1 d) := by
  unfold eraseBlock
  split
  · extract_lets -merge -underBinder +onlyGivenNames x0
    clear_value x0
    extract_lets -merge -underBinder +onlyGivenNames x1
    have h1 : DevKeeps 16416 d x1 := by
      subst x1
      exact (DevKeeps.step (.refl _ _) (Dev.modRow_keeps _ _ _ _) rfl)
    clear_value x1
    extract_lets -merge -underBinder +onlyGivenNames x2
    clear_value x2
    refine DevKeeps.step (e := x1) (k := 16416) ?_ ⟨fun _ => rfl, fun _ => rfl, fun _ => rfl, fun _ => rfl, fun _ => rfl, fun h => absurd h (by decide), fun _ => rfl, fun _ => rfl, fun _ => rfl, fun _ => rfl, fun _ => rfl, fun _ => rfl, fun _ => rfl, fun _ => rfl, fun h => absurd h (by decide), fun _ => rfl, fun _ => rfl, fun _ => rfl, fun _ => rfl, fun _ => rfl, fun _ => rfl, fun _ => rfl, fun _ => rfl, fun _ _ => rfl⟩ rfl
    exact h1

theorem tearBlock_keeps (a0 : ℕ) (a1 : ℕ) (d : Dev) :
    DevKeeps 33 d (tearBlock a0 a1 d) := by
  unfold tearBlock
  extract_lets -merge -underBinder +onlyGivenNames x0
  clear_value x0
  refine DevKeeps.step ?_ (Dev.tick_keeps _ _) rfl
  exact DevKeeps.set_media _ (.refl _ _) rfl

theorem tearOp_keeps (a0 : ℕ) (a1 : ℕ) (d : Dev) :
    DevKeeps 33 d (tearOp a0 a1 d) := by
  unfold tearOp
  split
  · refine iteP (P := DevKeeps 33 d) (fun _ => ?_) (fun _ => ?_)
    · refine iteP (P := DevKeeps 33 d) (fun _ => ?_) (fun _ => ?_)
      · exact (DevKeeps.step (.refl _ _) (tearBlock_keeps _ _ _) rfl)
      · exact (DevKeeps.step (.refl _ _) (tearUnit_keeps _ _ _) rfl)
    · exact (.refl _ _)
  · exact (.refl _ _)

theorem opReady_keeps (a0 : ℕ) (a1 : ℕ) (a2 : PeOp) (a3 : PollResult) (d : Dev) :
    DevKeeps 0x100000000000000000000000000000000000000000000000000000000000000000000000000000000000000006033 d (opReady a0 a1 a2 a3 d) := by
  unfold opReady
  extract_lets -merge -underBinder +onlyGivenNames x0
  clear_value x0
  extract_lets -merge -underBinder +onlyGivenNames x1
  clear_value x1
  extract_lets -merge -underBinder +onlyGivenNames x2
  have h2 : DevKeeps 0x100000000000000000000000000000000000000000000000000000000000000000000000000000000000000006033 d x2 := by
    subst x2
    exact (DevKeeps.step (.refl _ _) (Dev.modDie_keeps _ _ _ _) rfl)
  clear_value x2
  extract_lets -merge -underBinder +onlyGivenNames x3
  clear_value x3
  extract_lets -merge -underBinder +onlyGivenNames x4
  clear_value x4
  extract_lets -merge -underBinder +onlyGivenNames x5
  have h5 : DevKeeps 0x100000000000000000000000000000000000000000000000000000000000000000000000000000000000000006033 d x5 := by
    subst x5
    exact (DevKeeps.step h2 (storeUnit_keeps _ _ _ _) rfl)
  clear_value x5
  extract_lets -merge -underBinder +onlyGivenNames x6
  have h6 : DevKeeps 0x100000000000000000000000000000000000000000000000000000000000000000000000000000000000000006033 d x6 := by
    subst x6
    refine iteP (P := DevKeeps 0x100000000000000000000000000000000000000000000000000000000000000000000000000000000000000006033 d) (fun _ => ?_) (fun _ => ?_)
    · exact (DevKeeps.step (DevKeeps.step h2 (wearBlock_keeps _ _ _ _) rfl) (eraseBlock_keeps _ _ _) rfl)
    · refine iteP (P := DevKeeps 0x100000000000000000000000000000000000000000000000000000000000000000000000000000000000000006033 d) (fun _ => ?_) (fun _ => ?_)
      · exact (DevKeeps.step h5 (moveConv_keeps _ _ _) rfl)
      · exact h5
  clear_value x6
  extract_lets -merge -underBinder +onlyGivenNames x7
  clear_value x7
  refine iteP (P := DevKeeps 0x100000000000000000000000000000000000000000000000000000000000000000000000000000000000000006033 d) (fun _ => ?_) (fun _ => ?_)
  · refine iteP (P := DevKeeps 0x100000000000000000000000000000000000000000000000000000000000000000000000000000000000000006033 d) (fun _ => ?_) (fun _ => ?_)
    · exact (DevKeeps.step (DevKeeps.step (DevKeeps.step h2 (tearBlock_keeps _ _ _) rfl) (wearBlock_keeps _ _ _ _) rfl) (complete_keeps _ _ _ _) rfl)
    · exact (DevKeeps.step (DevKeeps.step h2 (tearUnit_keeps _ _ _) rfl) (complete_keeps _ _ _ _) rfl)
  · refine iteP (P := DevKeeps 0x100000000000000000000000000000000000000000000000000000000000000000000000000000000000000006033 d) (fun _ => ?_) (fun _ => ?_)
    · exact (DevKeeps.step h6 (complete_keeps _ _ _ _) rfl)
    · exact (DevKeeps.step h6 (Dev.modDie_keeps _ _ _ _) rfl)

theorem grantPoll_keeps (a0 : ℕ) (a1 : ℕ) (a2 : Req) (a3 : PollResult) (d : Dev) :
    DevKeeps 0x100000000000000000000000000000000000000000000000000000000000000000000000000000000000000006033 d (grantPoll a0 a1 a2 a3 d) := by
  unfold grantPoll
  extract_lets -merge -underBinder +onlyGivenNames x0
  clear_value x0
  split
  · exact (DevKeeps.step (DevKeeps.step (.refl _ _) (Dev.modDie_keeps _ _ _ _) rfl) (complete_keeps _ _ _ _) rfl)
  · split
    · extract_lets -merge -underBinder +onlyGivenNames x1
      clear_value x1
      refine iteP (P := DevKeeps 0x100000000000000000000000000000000000000000000000000000000000000000000000000000000000000006033 d) (fun _ => ?_) (fun _ => ?_)
      · exact (DevKeeps.step (.refl _ _) (opReady_keeps _ _ _ _ _) rfl)
      · exact (DevKeeps.step (.refl _ _) (Dev.modDie_keeps _ _ _ _) rfl)
    · exact (.refl _ _)

theorem grantResume_keeps (a0 : ℕ) (a1 : ℕ) (d : Dev) :
    DevKeeps 16 d (grantResume a0 a1 d) := by
  unfold grantResume
  split
  · extract_lets -merge -underBinder +onlyGivenNames x0
    clear_value x0
    extract_lets -merge -underBinder +onlyGivenNames x1
    clear_value x1
    extract_lets -merge -underBinder +onlyGivenNames x2
    clear_value x2
    extract_lets -merge -underBinder +onlyGivenNames x3
    clear_value x3
    exact (DevKeeps.step (.refl _ _) (Dev.modDie_keeps _ _ _ _) rfl)
  · exact (.refl _ _)

theorem grantStart_keeps (a0 : ℕ) (a1 : ℕ) (a2 : Req) (d : Dev) :
    DevKeeps 16 d (grantStart a0 a1 a2 d) := by
  unfold grantStart
  extract_lets -merge -underBinder +onlyGivenNames x0
  clear_value x0
  split
  · exact (DevKeeps.step (.refl _ _) (Dev.modDie_keeps _ _ _ _) rfl)
  · split
    · extract_lets -merge -underBinder +onlyGivenNames x1
      clear_value x1
      exact (DevKeeps.step (.refl _ _) (Dev.modDie_keeps _ _ _ _) rfl)
    · exact (.refl _ _)

theorem resetDie_keeps (a0 : ℕ) (a1 : ℕ) (a2 : Option QDesc) (d : Dev) :
    DevKeeps 16 d (resetDie a0 a1 a2 d) := by
  unfold resetDie
  extract_lets -merge -underBinder +onlyGivenNames x0
  clear_value x0
  exact (DevKeeps.step (.refl _ _) (Dev.modDie_keeps _ _ _ _) rfl)

theorem grantLoad_keeps (a0 : ℕ) (a1 : ℕ) (a2 : Req) (d : Dev) :
    DevKeeps 16 d (grantLoad a0 a1 a2 d) := by
  unfold grantLoad
  extract_lets -merge -underBinder +onlyGivenNames x0
  clear_value x0
  exact (DevKeeps.step (.refl _ _) (Dev.modDie_keeps _ _ _ _) rfl)

theorem sentCws_keeps (a0 : ℕ) (a1 : ℕ) (a2 : ℕ) (d : Dev) :
    DevKeeps 16 d (sentCws a0 a1 a2 d) := by
  unfold sentCws
  exact (DevKeeps.step (.refl _ _) (Dev.modDie_keeps _ _ _ _) rfl)

theorem grantReset_keeps (a0 : ℕ) (a1 : ℕ) (a2 : Req) (d : Dev) :
    DevKeeps 0x100000000000000000000000000000000000000000000000000000000000000000000000000000000000000004033 d (grantReset a0 a1 a2 d) := by
  unfold grantReset
  split
  · exact (DevKeeps.step (DevKeeps.step (DevKeeps.step (DevKeeps.step (.refl _ _) (Dev.modDie_keeps _ _ _ _) rfl) (tearOp_keeps _ _ _) rfl) (endOps_keeps _ _ _ _) rfl) (resetDie_keeps _ _ _ _) rfl)
  · exact (DevKeeps.step (.refl _ _) (resetDie_keeps _ _ _ _) rfl)

theorem grantReadOut_keeps (a0 : ℕ) (a1 : ℕ) (a2 : PollResult) (d : Dev) :
    DevKeeps 16 d (grantReadOut a0 a1 a2 d) := by
  unfold grantReadOut
  exact (DevKeeps.step (.refl _ _) (Dev.modDie_keeps _ _ _ _) rfl)

theorem countLosses_keeps (a0 : ℕ) (a1 : ℕ) (a2 : Req) (d : Dev) :
    DevKeeps 0x10000000000000000000000000000000000000000000000000000000000000000000000000000000000000000000012 d (countLosses a0 a1 a2 d) := by
  unfold countLosses
  extract_lets -merge -underBinder +onlyGivenNames x0
  clear_value x0
  extract_lets -merge -underBinder +onlyGivenNames x1
  clear_value x1
  extract_lets -merge -underBinder +onlyGivenNames x2
  clear_value x2
  exact (DevKeeps.step (DevKeeps.step (.refl _ _) (Dev.setChan_keeps _ _ _) rfl) (Dev.wrc_keeps _ _ _ _) (by rfl))

theorem holdBus_keeps (a0 : ℕ) (a1 : ℕ) (a2 : Req) (a3 : Bool) (d : Dev) :
    DevKeeps 16 d (holdBus a0 a1 a2 a3 d) := by
  unfold holdBus
  exact (DevKeeps.step (.refl _ _) (Dev.modChan_keeps _ _ _) rfl)

theorem grant_keeps (a0 : ℕ) (a1 : ℕ) (a2 : Req) (a3 : PollResult) (d : Dev) :
    DevKeeps 0x1C0000000000000000000000000000000000000000000000000000000000000000000000000000000000000007033 d (grant a0 a1 a2 a3 d) := by
  unfold grant
  extract_lets -merge -underBinder +onlyGivenNames x0
  clear_value x0
  extract_lets -merge -underBinder +onlyGivenNames x1
  have h1 : DevKeeps 0x1C0000000000000000000000000000000000000000000000000000000000000000000000000000000000000007033 d x1 := by
    subst x1
    exact (DevKeeps.step (.refl _ _) (holdBus_keeps _ _ _ _ _) rfl)
  clear_value x1
  split
  · split
    · split
      · exact (DevKeeps.step h1 (grantReadStart_keeps _ _ _ _ _) rfl)
      · exact h1
    · exact h1
  · extract_lets -merge -underBinder +onlyGivenNames x2
    have h2 : DevKeeps 0x1C0000000000000000000000000000000000000000000000000000000000000000000000000000000000000007033 d x2 := by
      subst x2
      exact (DevKeeps.step h1 (grantReadOut_keeps _ _ _ _) rfl)
    clear_value x2
    refine iteP (P := DevKeeps 0x1C0000000000000000000000000000000000000000000000000000000000000000000000000000000000000007033 d) (fun _ => ?_) (fun _ => ?_)
    · exact h2
    · exact (DevKeeps.step h2 (Dev.modChan_keeps _ _ _) rfl)
  · exact (DevKeeps.step h1 (grantPoll_keeps _ _ _ _ _) rfl)
  · exact (DevKeeps.step h1 (grantResume_keeps _ _ _) rfl)
  · exact (DevKeeps.step h1 (grantStart_keeps _ _ _ _) rfl)
  · exact (DevKeeps.step h1 (grantLoad_keeps _ _ _ _) rfl)
  · exact (DevKeeps.step h1 (grantReset_keeps _ _ _ _) rfl)

theorem winAt_keeps (a0 : ℕ) (a1 : ℕ) (a2 : Req) (a3 : PollResult) (d : Dev) :
    DevKeeps 0x381C0000000000000000000000000000000000000000000000000000000000000000000000000000000000000007033 d (winAt a0 a1 a2 a3 d) := by
  unfold winAt
  extract_lets -merge -underBinder +onlyGivenNames x0
  clear_value x0
  extract_lets -merge -underBinder +onlyGivenNames x1
  clear_value x1
  extract_lets -merge -underBinder +onlyGivenNames x2
  clear_value x2
  extract_lets -merge -underBinder +onlyGivenNames x3
  have h3 : DevKeeps 0x381C0000000000000000000000000000000000000000000000000000000000000000000000000000000000000007033 d x3 := by
    subst x3
    refine iteP (P := DevKeeps 0x381C0000000000000000000000000000000000000000000000000000000000000000000000000000000000000007033 d) (fun _ => ?_) (fun _ => ?_)
    · exact (DevKeeps.step (.refl _ _) (countLosses_keeps _ _ _ _) rfl)
    · exact (.refl _ _)
  clear_value x3
  extract_lets -merge -underBinder +onlyGivenNames x4
  have h4 : DevKeeps 0x381C0000000000000000000000000000000000000000000000000000000000000000000000000000000000000007033 d x4 := by
    subst x4
    refine iteP (P := DevKeeps 0x381C0000000000000000000000000000000000000000000000000000000000000000000000000000000000000007033 d) (fun _ => ?_) (fun _ => ?_)
    · exact (DevKeeps.step (DevKeeps.step h3 (Dev.addc_keeps _ _ _ _) (by rfl)) (Dev.modChan_keeps _ _ _) rfl)
    · exact h3
  clear_value x4
  extract_lets -merge -underBinder +onlyGivenNames x5
  have h5 : DevKeeps 0x381C0000000000000000000000000000000000000000000000000000000000000000000000000000000000000007033 d x5 := by
    subst x5
    refine iteP (P := DevKeeps 0x381C0000000000000000000000000000000000000000000000000000000000000000000000000000000000000007033 d) (fun _ => ?_) (fun _ => ?_)
    · exact (DevKeeps.step (DevKeeps.step h4 (Dev.addc_keeps _ _ _ _) (by rfl)) (Dev.wrc_keeps _ _ _ _) (by rfl))
    · exact h4
  clear_value x5
  exact (DevKeeps.step h5 (grant_keeps _ _ _ _ _) rfl)

theorem Dev.toSlot_keeps (d : Dev) (a1 : ℕ) (a2 : ℕ) :
    DevKeeps 24 d (Dev.toSlot d a1 a2) := by
  unfold Dev.toSlot
  exact (DevKeeps.step (DevKeeps.step (.refl _ _) (Dev.atCycle_keeps _ _) rfl) (Dev.modChan_keeps _ _ _) rfl)

theorem orphanRereads_keeps (a0 : ℕ) (d : Dev) :
    DevKeeps 64 d (orphanRereads a0 d) := by
  unfold orphanRereads
  extract_lets -merge -underBinder +onlyGivenNames x0
  clear_value x0
  extract_lets -merge -underBinder +onlyGivenNames x1
  clear_value x1
  exact DevKeeps.set_ecc _ (.refl _ _) rfl

theorem markHead_keeps (a0 : ℕ) (a1 : ℕ) (d : Dev) :
    DevKeeps 4096 d (markHead a0 a1 d) := by
  unfold markHead
  extract_lets -merge -underBinder +onlyGivenNames x0
  clear_value x0
  split
  · split
    · extract_lets -merge -underBinder +onlyGivenNames x1
      clear_value x1
      refine iteP (P := DevKeeps 4096 d) (fun _ => ?_) (fun _ => ?_)
      · exact (DevKeeps.step (.refl _ _) (Dev.modSlot_keeps _ _ _) rfl)
      · exact (.refl _ _)
    · exact (.refl _ _)
  · exact (.refl _ _)

theorem Dev.modStip_keeps (d : Dev) (a1 : ℕ) (a2 : StipChan → StipChan) :
    DevKeeps 256 d (Dev.modStip d a1 a2) := by
  unfold Dev.modStip
  extract_lets -merge -underBinder +onlyGivenNames x0
  clear_value x0
  exact DevKeeps.set_stip _ (.refl _ _) rfl

theorem stipAnswer_keeps (a0 : ℕ) (a1 : StipPost) (a2 : CqEntry) (d : Dev) :
    DevKeeps 0xE000000000000000000000000000000000000000000000000000000000000000000002 d (stipAnswer a0 a1 a2 d) := by
  unfold stipAnswer
  extract_lets -merge -underBinder +onlyGivenNames x0
  clear_value x0
  extract_lets -merge -underBinder +onlyGivenNames x1
  have h1 : DevKeeps 0xE000000000000000000000000000000000000000000000000000000000000000000002 d x1 := by
    subst x1
    refine iteP (P := DevKeeps 0xE000000000000000000000000000000000000000000000000000000000000000000002 d) (fun _ => ?_) (fun _ => ?_)
    · exact (DevKeeps.step (.refl _ _) (Dev.add_keeps _ _ _) (by rfl))
    · exact (.refl _ _)
  clear_value x1
  extract_lets -merge -underBinder +onlyGivenNames x2
  have h2 : DevKeeps 0xE000000000000000000000000000000000000000000000000000000000000000000002 d x2 := by
    subst x2
    refine iteP (P := DevKeeps 0xE000000000000000000000000000000000000000000000000000000000000000000002 d) (fun _ => ?_) (fun _ => ?_)
    · exact (DevKeeps.step h1 (Dev.add_keeps _ _ _) (by rfl))
    · exact h1
  clear_value x2
  refine iteP (P := DevKeeps 0xE000000000000000000000000000000000000000000000000000000000000000000002 d) (fun _ => ?_) (fun _ => ?_)
  · exact (DevKeeps.step h2 (Dev.add_keeps _ _ _) (by rfl))
  · exact (DevKeeps.step h2 (Dev.flagIf_keeps _ _ _) (by rfl))

theorem stipResults_keeps (a0 : ℕ) (s : State) :
    StateKeeps 0xE000000000000000000000000000000000000000000000000000000000000000000102 s (stipResults a0 s) := by
  unfold stipResults
  refine StateKeeps.foldl ?_ (fun y0 a0 h0 => ?_)
  · exact (.refl _ _)
  · beta_reduce
    split
    · extract_lets -merge -underBinder +onlyGivenNames x1
      clear_value x1
      refine StateKeeps.modDev ?_ ?_
      · exact h0
      · beta_reduce
        exact (DevKeeps.step (DevKeeps.step (StateKeeps.dev h0) (stipAnswer_keeps _ _ _ _) rfl) (Dev.modStip_keeps _ _ _) rfl)
    · exact h0

theorem afterChan_keeps (a0 : ℕ) (s : State) :
    StateKeeps 0x18004000000000000000000E000000000000000000000000000000000000000000000000000000000000000E95952 s (afterChan a0 s) := by
  unfold afterChan
  refine StateKeeps.step ?_ (stipResults_keeps _ _) rfl
  refine StateKeeps.step ?_ (drainSeq_keeps _ _) rfl
  refine StateKeeps.modDev ?_ ?_
  · refine StateKeeps.step ?_ (drainSeq_keeps _ _) rfl
    refine StateKeeps.modDev ?_ ?_
    · exact (.refl _ _)
    · exact (DevKeeps.step (.refl _ _) (farDone_keeps _ _) rfl)
  · beta_reduce
    refine DevKeeps.step ?_ (farDone_keeps _ _) rfl
    refine DevKeeps.forUpTo ?_ (fun a0 y0 h0 => ?_)
    · refine DevKeeps.step ?_ (orphanRereads_keeps _ _) rfl
      refine DevKeeps.step ?_ (refreshChan_keeps _ _) rfl
      refine DevKeeps.step ?_ (thrumlux_keeps _ _) rfl
      refine DevKeeps.step ?_ (refreshChan_keeps _ _) rfl
      refine StateKeeps.dev ?_
      refine StateKeeps.step ?_ (drainSeq_keeps _ _) rfl
      refine StateKeeps.modDev ?_ ?_
      · exact (.refl _ _)
      · exact (DevKeeps.step (.refl _ _) (farDone_keeps _ _) rfl)
    · beta_reduce
      exact (DevKeeps.step h0 (markHead_keeps _ _ _) rfl)

theorem decisionPoint_keeps (a0 : ℕ) (a1 : ℕ) (a2 : PollResult) (d : Dev) :
    OkP (DevKeeps 0x381C000000000000000000000000000000000000000000000000000000000000000000000000000000000000000703B d) (decisionPoint a0 a1 a2 d) := by
  unfold decisionPoint
  extract_lets -merge -underBinder +onlyGivenNames x0
  have h0 : DevKeeps 0x381C000000000000000000000000000000000000000000000000000000000000000000000000000000000000000703B d x0 := by
    subst x0
    exact (DevKeeps.step (DevKeeps.step (.refl _ _) (Dev.toSlot_keeps _ _ _) rfl) (Dev.modChan_keeps _ _ _) rfl)
  clear_value x0
  extract_lets -merge -underBinder +onlyGivenNames x1
  have h1 : DevKeeps 0x381C000000000000000000000000000000000000000000000000000000000000000000000000000000000000000703B d x1 := by
    subst x1
    exact (DevKeeps.step h0 (refreshChan_keeps _ _) rfl)
  clear_value x1
  refine iteP (P := OkP (DevKeeps 0x381C000000000000000000000000000000000000000000000000000000000000000000000000000000000000000703B d)) (fun _ => ?_) (fun _ => ?_)
  · split
    · refine OkP.ok ?_
      exact (DevKeeps.step h1 (winAt_keeps _ _ _ _ _) rfl)
    · refine OkP.ok ?_
      exact h1
  · exact trivial

theorem execDecisionPoint_keeps (a0 : Fin 48) (a1 : Fin 4) (a2 : PollResult) (s : State) :
    NextP (StateKeeps 0x381C004000000000000000000E000000000000000000000000000000000000000000000000000000000000000E9797B s) (execDecisionPoint a0 a1 a2 s) := by
  unfold execDecisionPoint
  refine onDevThen_keeps ?_ (fun t0 h0 => ?_)
  · exact DevKeeps.stepOk (.refl _ _) (decisionPoint_keeps _ _ _ _) rfl
  · exact (StateKeeps.step h0 (afterChan_keeps _ _) rfl)

theorem preemptLoad_keeps (a0 : ℕ) (a1 : ℕ) (a2 : Holder) (d : Dev) :
    DevKeeps 0x28000000000000000000000000000000000000000000000000000000000000000000000000000000000000000000012 d (preemptLoad a0 a1 a2 d) := by
  unfold preemptLoad
  extract_lets -merge -underBinder +onlyGivenNames x0
  clear_value x0
  extract_lets -merge -underBinder +onlyGivenNames x1
  have h1 : DevKeeps 0x28000000000000000000000000000000000000000000000000000000000000000000000000000000000000000000012 d x1 := by
    subst x1
    exact (DevKeeps.step (.refl _ _) (sentCws_keeps _ _ _ _) rfl)
  clear_value x1
  extract_lets -merge -underBinder +onlyGivenNames x2
  have h2 : DevKeeps 0x28000000000000000000000000000000000000000000000000000000000000000000000000000000000000000000012 d x2 := by
    subst x2
    exact (DevKeeps.step h1 (Dev.modChan_keeps _ _ _) rfl)
  clear_value x2
  exact (DevKeeps.step (DevKeeps.step h2 (Dev.addc_keeps _ _ _ _) (by rfl)) (Dev.wrc_keeps _ _ _ _) (by rfl))

theorem preemptionPoint_keeps (a0 : ℕ) (a1 : ℕ) (a2 : PollResult) (d : Dev) :
    OkP (DevKeeps 0x381C000000000000000000000000000000000000000000000000000000000000000000000000000000000000000703B d) (preemptionPoint a0 a1 a2 d) := by
  unfold preemptionPoint
  split
  · extract_lets -merge -underBinder +onlyGivenNames x0
    have h0 : DevKeeps 0x381C000000000000000000000000000000000000000000000000000000000000000000000000000000000000000703B d x0 := by
      subst x0
      exact (DevKeeps.step (DevKeeps.step (.refl _ _) (Dev.toSlot_keeps _ _ _) rfl) (refreshChan_keeps _ _) rfl)
    clear_value x0
    refine iteP (P := OkP (DevKeeps 0x381C000000000000000000000000000000000000000000000000000000000000000000000000000000000000000703B d)) (fun _ => ?_) (fun _ => ?_)
    · refine iteP (P := OkP (DevKeeps 0x381C000000000000000000000000000000000000000000000000000000000000000000000000000000000000000703B d)) (fun _ => ?_) (fun _ => ?_)
      · split
        · refine OkP.ok ?_
          exact (DevKeeps.step (DevKeeps.step h0 (preemptLoad_keeps _ _ _ _) rfl) (winAt_keeps _ _ _ _ _) rfl)
        · refine OkP.ok ?_
          exact h0
      · refine OkP.ok ?_
        exact h0
    · exact trivial
  · exact trivial

theorem execPreemptionPoint_keeps (a0 : Fin 48) (a1 : Fin 4) (a2 : PollResult) (s : State) :
    NextP (StateKeeps 0x381C004000000000000000000E000000000000000000000000000000000000000000000000000000000000000E9797B s) (execPreemptionPoint a0 a1 a2 s) := by
  unfold execPreemptionPoint
  refine onDevThen_keeps ?_ (fun t0 h0 => ?_)
  · exact DevKeeps.stepOk (.refl _ _) (preemptionPoint_keeps _ _ _ _) rfl
  · exact (StateKeeps.step h0 (afterChan_keeps _ _) rfl)

end Sys2Proof.Machine
end

