-- ==== Sys2Proof/Laws/KeepChannel.lean ====
section
/-! SUPPORT. What each operation of Machine/Channel.lean leaves as it was. -/

namespace Sys2Proof.Machine

theorem postOp_keeps (a0 : ℕ) (a1 : ℕ) (a2 : Fin 64) (a3 : Desc) (a4 : Bool) (a5 : BitVec 10) (s : State) :
    NextP (StateKeeps 0x18004200000000000000000E000000000000000000000000000000000000000000000000000000000000000E9595A s) (postOp a0 a1 a2 a3 a4 a5 s) := by
  unfold postOp
  extract_lets -merge -underBinder +onlyGivenNames x0
  clear_value x0
  refine onDevThen_keeps ?_ (fun t1 h1 => ?_)
  · refine always_keeps ?_
    beta_reduce
    exact (DevKeeps.step (DevKeeps.step (.refl _ _) (Dev.atCycle_keeps _ _) rfl) (postDesc_keeps _ _ _ _ _) rfl)
  · exact (StateKeeps.step h1 (afterChan_keeps _ _) rfl)

theorem execDescriptorRead_keeps (a0 : Fin 48) (a1 : Fin 64) (a2 : Desc) (a3 : Bool) (a4 : BitVec 10) (s : State) :
    NextP (StateKeeps 0x18004200000000000000000E000000000000000000000000000000000000000000000000000000000000000E9595A s) (execDescriptorRead a0 a1 a2 a3 a4 s) := by
  unfold execDescriptorRead
  exact StateKeeps.stepNext (.refl _ _) (postOp_keeps _ _ _ _ _ _ _) rfl

theorem execDescriptorProgram_keeps (a0 : Fin 48) (a1 : Fin 64) (a2 : Desc) (a3 : Bool) (a4 : BitVec 10) (s : State) :
    NextP (StateKeeps 0x18004200000000000000000E000000000000000000000000000000000000000000000000000000000000000E9595A s) (execDescriptorProgram a0 a1 a2 a3 a4 s) := by
  unfold execDescriptorProgram
  exact StateKeeps.stepNext (.refl _ _) (postOp_keeps _ _ _ _ _ _ _) rfl

theorem execDescriptorErase_keeps (a0 : Fin 48) (a1 : Fin 64) (a2 : Desc) (a3 : Bool) (a4 : BitVec 10) (s : State) :
    NextP (StateKeeps 0x18004200000000000000000E000000000000000000000000000000000000000000000000000000000000000E9595A s) (execDescriptorErase a0 a1 a2 a3 a4 s) := by
  unfold execDescriptorErase
  exact StateKeeps.stepNext (.refl _ _) (postOp_keeps _ _ _ _ _ _ _) rfl

theorem execDescriptorProofRead_keeps (a0 : Fin 48) (a1 : Fin 64) (a2 : Desc) (a3 : Bool) (a4 : BitVec 10) (s : State) :
    NextP (StateKeeps 0x18004200000000000000000E000000000000000000000000000000000000000000000000000000000000000E9595A s) (execDescriptorProofRead a0 a1 a2 a3 a4 s) := by
  unfold execDescriptorProofRead
  exact StateKeeps.stepNext (.refl _ _) (postOp_keeps _ _ _ _ _ _ _) rfl

theorem execDescriptorStatus_keeps (a0 : Fin 48) (a1 : Fin 64) (a2 : Desc) (a3 : Bool) (a4 : BitVec 10) (s : State) :
    NextP (StateKeeps 0x18004200000000000000000E000000000000000000000000000000000000000000000000000000000000000E9595A s) (execDescriptorStatus a0 a1 a2 a3 a4 s) := by
  unfold execDescriptorStatus
  exact StateKeeps.stepNext (.refl _ _) (postOp_keeps _ _ _ _ _ _ _) rfl

theorem execDescriptorReset_keeps (a0 : Fin 48) (a1 : Fin 64) (a2 : Desc) (a3 : Bool) (a4 : BitVec 10) (s : State) :
    NextP (StateKeeps 0x18004200000000000000000E000000000000000000000000000000000000000000000000000000000000000E9595A s) (execDescriptorReset a0 a1 a2 a3 a4 s) := by
  unfold execDescriptorReset
  exact StateKeeps.stepNext (.refl _ _) (postOp_keeps _ _ _ _ _ _ _) rfl

theorem trackEye_keeps (a0 : ℕ) (a1 : ℕ) (a2 : Option Bool) (d : Dev) :
    DevKeeps 16 d (trackEye a0 a1 a2 d) := by
  unfold trackEye
  split
  · exact (DevKeeps.step (.refl _ _) (Dev.modDie_keeps _ _ _ _) rfl)
  · exact (.refl _ _)

theorem toHard_keeps (a0 : ℕ) (a1 : QDesc) (a2 : Bool) (d : Dev) :
    DevKeeps 64 d (toHard a0 a1 a2 d) := by
  unfold toHard
  extract_lets -merge -underBinder +onlyGivenNames x0
  clear_value x0
  extract_lets -merge -underBinder +onlyGivenNames x1
  clear_value x1
  extract_lets -merge -underBinder +onlyGivenNames x2
  clear_value x2
  exact DevKeeps.set_ecc _ (.refl _ _) rfl

theorem toReread_keeps (a0 : ℕ) (a1 : Desc) (d : Dev) :
    DevKeeps 64 d (toReread a0 a1 d) := by
  unfold toReread
  extract_lets -merge -underBinder +onlyGivenNames x0
  clear_value x0
  extract_lets -merge -underBinder +onlyGivenNames x1
  clear_value x1
  extract_lets -merge -underBinder +onlyGivenNames x2
  clear_value x2
  extract_lets -merge -underBinder +onlyGivenNames x3
  clear_value x3
  exact DevKeeps.set_ecc _ (.refl _ _) rfl

theorem rawSectors_keeps (a0 : Desc) (d : Dev) :
    SndP (DevKeeps 1 d) (rawSectors a0 d) := by
  unfold rawSectors
  refine SndP.mk ?_
  exact (DevKeeps.step (.refl _ _) (Dev.tick_keeps _ _) rfl)

theorem rawDeliver_keeps (a0 : Desc) (d : Dev) :
    DevKeeps 2049 d (rawDeliver a0 d) := by
  unfold rawDeliver
  split
  · rename_i v0_0 v0_1 q0
    have h1 : DevKeeps 2049 d v0_1 := by
      refine SndP.get (P := (DevKeeps 2049 d)) ?_ q0
      exact DevKeeps.stepSnd (.refl _ _) (rawSectors_keeps _ _) rfl
    refine iteP (P := DevKeeps 2049 d) (fun _ => ?_) (fun _ => ?_)
    · exact (DevKeeps.step h1 (Dev.modPool_keeps _ _) rfl)
    · exact h1

theorem proofToJob_keeps (a0 : ℕ) (a1 : ℕ) (a2 : QDesc) (a3 : ℕ) (a4 : ℕ) (d : Dev) :
    DevKeeps 16 d (proofToJob a0 a1 a2 a3 a4 d) := by
  unfold proofToJob
  exact (DevKeeps.step (.refl _ _) (Dev.modDie_keeps _ _ _ _) rfl)

theorem endProof_keeps (a0 : ℕ) (a1 : Held) (d : Dev) :
    DevKeeps 0x100000000000000000000000000000000000000000000000000000000000000000000000000000000000000004012 d (endProof a0 a1 d) := by
  unfold endProof
  refine iteP (P := DevKeeps 0x100000000000000000000000000000000000000000000000000000000000000000000000000000000000000004012 d) (fun _ => ?_) (fun _ => ?_)
  · exact (DevKeeps.step (.refl _ _) (proofToJob_keeps _ _ _ _ _ _) rfl)
  · exact (DevKeeps.step (.refl _ _) (complete_keeps _ _ _ _) rfl)

theorem rawProof_keeps (a0 : ℕ) (a1 : RdOp) (a2 : List ℕ) (d : Dev) :
    DevKeeps 0x100000000000000000000000000000000000000000000000000000000000000000000000000000000000000004012 d (rawProof a0 a1 a2 d) := by
  unfold rawProof
  extract_lets -merge -underBinder +onlyGivenNames x0
  clear_value x0
  extract_lets -merge -underBinder +onlyGivenNames x1
  clear_value x1
  exact (DevKeeps.step (.refl _ _) (endProof_keeps _ _ _) rfl)

theorem holdRead_keeps (a0 : ℕ) (a1 : RdOp) (d : Dev) :
    DevKeeps 16 d (holdRead a0 a1 d) := by
  unfold holdRead
  exact (DevKeeps.step (.refl _ _) (Dev.modDie_keeps _ _ _ _) rfl)

theorem readDone_keeps (a0 : ℕ) (a1 : RdOp) (a2 : Bool) (a3 : List ℕ) (d : Dev) :
    DevKeeps 0x100000000000000000000000000000000000000000000000000000000000000000000000000000000000000004853 d (readDone a0 a1 a2 a3 d) := by
  unfold readDone
  extract_lets -merge -underBinder +onlyGivenNames x0
  clear_value x0
  extract_lets -merge -underBinder +onlyGivenNames x1
  clear_value x1
  extract_lets -merge -underBinder +onlyGivenNames x2
  have h2 : DevKeeps 0x100000000000000000000000000000000000000000000000000000000000000000000000000000000000000004853 d x2 := by
    subst x2
    exact (DevKeeps.step (.refl _ _) (Dev.modDie_keeps _ _ _ _) rfl)
  clear_value x2
  extract_lets -merge -underBinder +onlyGivenNames x3
  have h3 : DevKeeps 0x100000000000000000000000000000000000000000000000000000000000000000000000000000000000000004853 d x3 := by
    subst x3
    exact (DevKeeps.step h2 (complete_keeps _ _ _ _) rfl)
  clear_value x3
  extract_lets -merge -underBinder +onlyGivenNames x4
  have h4 : DevKeeps 0x100000000000000000000000000000000000000000000000000000000000000000000000000000000000000004853 d x4 := by
    subst x4
    refine iteP (P := DevKeeps 0x100000000000000000000000000000000000000000000000000000000000000000000000000000000000000004853 d) (fun _ => ?_) (fun _ => ?_)
    · refine iteP (P := DevKeeps 0x100000000000000000000000000000000000000000000000000000000000000000000000000000000000000004853 d) (fun _ => ?_) (fun _ => ?_)
      · exact (DevKeeps.step h2 (rawProof_keeps _ _ _ _) rfl)
      · exact (DevKeeps.step (DevKeeps.step h2 (holdRead_keeps _ _ _) rfl) (toHard_keeps _ _ _ _) rfl)
    · refine iteP (P := DevKeeps 0x100000000000000000000000000000000000000000000000000000000000000000000000000000000000000004853 d) (fun _ => ?_) (fun _ => ?_)
      · exact (DevKeeps.step h3 (rawDeliver_keeps _ _) rfl)
      · refine iteP (P := DevKeeps 0x100000000000000000000000000000000000000000000000000000000000000000000000000000000000000004853 d) (fun _ => ?_) (fun _ => ?_)
        · exact (DevKeeps.step h3 (toReread_keeps _ _ _) rfl)
        · exact (DevKeeps.step (DevKeeps.step h3 (holdRead_keeps _ _ _) rfl) (toHard_keeps _ _ _ _) rfl)
  clear_value x4
  exact (DevKeeps.step h4 (Dev.modDie_keeps _ _ _ _) rfl)

theorem Dev.toSpanEnd_keeps (d : Dev) (a1 : Holder) :
    DevKeeps 8 d (Dev.toSpanEnd d a1) := by
  unfold Dev.toSpanEnd
  exact (DevKeeps.step (.refl _ _) (Dev.atCycle_keeps _ _) rfl)

theorem readBurstEnd_keeps (a0 : ℕ) (a1 : List ℕ) (a2 : Option Bool) (d : Dev) :
    OkP (DevKeeps 0x10000000000000000000000000000000000000000000000000000000000000000000000000000000000000000485B d) (readBurstEnd a0 a1 a2 d) := by
  unfold readBurstEnd
  split
  · extract_lets -merge -underBinder +onlyGivenNames x0
    clear_value x0
    extract_lets -merge -underBinder +onlyGivenNames x1
    have h1 : DevKeeps 0x10000000000000000000000000000000000000000000000000000000000000000000000000000000000000000485B d x1 := by
      subst x1
      exact (DevKeeps.step (DevKeeps.step (.refl _ _) (Dev.toSpanEnd_keeps _ _) rfl) (Dev.modChan_keeps _ _ _) rfl)
    clear_value x1
    extract_lets -merge -underBinder +onlyGivenNames x2
    have h2 : DevKeeps 0x10000000000000000000000000000000000000000000000000000000000000000000000000000000000000000485B d x2 := by
      subst x2
      exact (DevKeeps.step h1 (trackEye_keeps _ _ _ _) rfl)
    clear_value x2
    refine iteP (P := OkP (DevKeeps 0x10000000000000000000000000000000000000000000000000000000000000000000000000000000000000000485B d)) (fun _ => ?_) (fun _ => ?_)
    · split
      · refine OkP.ok ?_
        exact (DevKeeps.step h2 (readDone_keeps _ _ _ _ _) rfl)
      · refine OkP.ok ?_
        exact h2
    · exact trivial
  · exact trivial

theorem execReadBurstEnd_keeps (a0 : Fin 48) (a1 : List ℕ) (a2 : Option Bool) (s : State) :
    NextP (StateKeeps 0x18004000000000000000000E000000000000000000000000000000000000000000000000000000000000000E9595B s) (execReadBurstEnd a0 a1 a2 s) := by
  unfold execReadBurstEnd
  refine onDevThen_keeps ?_ (fun t0 h0 => ?_)
  · exact DevKeeps.stepOk (.refl _ _) (readBurstEnd_keeps _ _ _ _) rfl
  · exact (StateKeeps.step h0 (afterChan_keeps _ _) rfl)

theorem pageLoaded_keeps (a0 : ℕ) (a1 : ℕ) (d : Dev) :
    DevKeeps 16 d (pageLoaded a0 a1 d) := by
  unfold pageLoaded
  exact (DevKeeps.step (.refl _ _) (Dev.modDie_keeps _ _ _ _) rfl)

theorem loadBurstEnd_keeps (a0 : ℕ) (d : Dev) :
    OkP (DevKeeps 24 d) (loadBurstEnd a0 d) := by
  unfold loadBurstEnd
  split
  · extract_lets -merge -underBinder +onlyGivenNames x0
    have h0 : DevKeeps 24 d x0 := by
      subst x0
      exact (DevKeeps.step (DevKeeps.step (DevKeeps.step (.refl _ _) (Dev.toSpanEnd_keeps _ _) rfl) (Dev.modChan_keeps _ _ _) rfl) (sentCws_keeps _ _ _ _) rfl)
    clear_value x0
    refine iteP (P := OkP (DevKeeps 24 d)) (fun _ => ?_) (fun _ => ?_)
    · refine OkP.ok ?_
      exact (DevKeeps.step h0 (pageLoaded_keeps _ _ _) rfl)
    · exact trivial
  · exact trivial

theorem execLoadBurstEnd_keeps (a0 : Fin 48) (s : State) :
    NextP (StateKeeps 0x18004000000000000000000E000000000000000000000000000000000000000000000000000000000000000E9595A s) (execLoadBurstEnd a0 s) := by
  unfold execLoadBurstEnd
  refine onDevThen_keeps ?_ (fun t0 h0 => ?_)
  · exact DevKeeps.stepOk (.refl _ _) (loadBurstEnd_keeps _ _) rfl
  · exact (StateKeeps.step h0 (afterChan_keeps _ _) rfl)

theorem pollFloorPass_keeps (a0 : ℕ) (a1 : ℕ) (a2 : BitVec 10) (d : Dev) :
    OkP (DevKeeps 24 d) (pollFloorPass a0 a1 a2 d) := by
  unfold pollFloorPass
  extract_lets -merge -underBinder +onlyGivenNames x0
  have h0 : DevKeeps 24 d x0 := by
    subst x0
    exact (DevKeeps.step (.refl _ _) (Dev.atCycle_keeps _ _) rfl)
  clear_value x0
  extract_lets -merge -underBinder +onlyGivenNames x1
  clear_value x1
  extract_lets -merge -underBinder +onlyGivenNames x2
  clear_value x2
  extract_lets -merge -underBinder +onlyGivenNames x3
  clear_value x3
  refine iteP (P := OkP (DevKeeps 24 d)) (fun _ => ?_) (fun _ => ?_)
  · refine OkP.ok ?_
    exact (DevKeeps.step h0 (Dev.modDie_keeps _ _ _ _) rfl)
  · exact trivial

theorem execPollFloorPass_keeps (a0 : Fin 48) (a1 : Fin 32) (a2 : BitVec 10) (s : State) :
    NextP (StateKeeps 0x18004000000000000000000E000000000000000000000000000000000000000000000000000000000000000E9595A s) (execPollFloorPass a0 a1 a2 s) := by
  unfold execPollFloorPass
  refine onDevThen_keeps ?_ (fun t0 h0 => ?_)
  · exact DevKeeps.stepOk (.refl _ _) (pollFloorPass_keeps _ _ _ _) rfl
  · exact (StateKeeps.step h0 (afterChan_keeps _ _) rfl)

theorem operationTimeout_keeps (a0 : ℕ) (a1 : ℕ) (a2 : BitVec 10) (d : Dev) :
    OkP (DevKeeps 0x10000000000000000000000000000000000000000000000000000000000000000000000000000000000000000403B d) (operationTimeout a0 a1 a2 d) := by
  unfold operationTimeout
  extract_lets -merge -underBinder +onlyGivenNames x0
  have h0 : DevKeeps 0x10000000000000000000000000000000000000000000000000000000000000000000000000000000000000000403B d x0 := by
    subst x0
    exact (DevKeeps.step (.refl _ _) (Dev.atCycle_keeps _ _) rfl)
  clear_value x0
  split
  · extract_lets -merge -underBinder +onlyGivenNames x1
    have h1 : DevKeeps 0x10000000000000000000000000000000000000000000000000000000000000000000000000000000000000000403B d x1 := by
      subst x1
      exact (DevKeeps.step (DevKeeps.step h0 (tearOp_keeps _ _ _) rfl) (endOps_keeps _ _ _ _) rfl)
    clear_value x1
    refine iteP (P := OkP (DevKeeps 0x10000000000000000000000000000000000000000000000000000000000000000000000000000000000000000403B d)) (fun _ => ?_) (fun _ => ?_)
    · exact trivial
    · refine OkP.ok ?_
      exact (DevKeeps.step (DevKeeps.step h1 (Dev.modDie_keeps _ _ _ _) rfl) (Dev.wrc_keeps _ _ _ _) (by rfl))
  · exact trivial

theorem execOperationTimeout_keeps (a0 : Fin 48) (a1 : Fin 32) (a2 : BitVec 10) (s : State) :
    NextP (StateKeeps 0x18004000000000000000000E000000000000000000000000000000000000000000000000000000000000000E9597B s) (execOperationTimeout a0 a1 a2 s) := by
  unfold execOperationTimeout
  refine onDevThen_keeps ?_ (fun t0 h0 => ?_)
  · exact DevKeeps.stepOk (.refl _ _) (operationTimeout_keeps _ _ _ _) rfl
  · exact (StateKeeps.step h0 (afterChan_keeps _ _) rfl)

theorem dieResetDone_keeps (a0 : ℕ) (a1 : ℕ) (a2 : BitVec 10) (d : Dev) :
    OkP (DevKeeps 0x10000000000000000000000000000000000000000000000000000000000000000000000000000000000000000401A d) (dieResetDone a0 a1 a2 d) := by
  unfold dieResetDone
  extract_lets -merge -underBinder +onlyGivenNames x0
  have h0 : DevKeeps 0x10000000000000000000000000000000000000000000000000000000000000000000000000000000000000000401A d x0 := by
    subst x0
    exact (DevKeeps.step (.refl _ _) (Dev.atCycle_keeps _ _) rfl)
  clear_value x0
  extract_lets -merge -underBinder +onlyGivenNames x1
  clear_value x1
  split
  · extract_lets -merge -underBinder +onlyGivenNames x2
    have h2 : DevKeeps 0x10000000000000000000000000000000000000000000000000000000000000000000000000000000000000000401A d x2 := by
      subst x2
      exact (DevKeeps.step h0 (Dev.modDie_keeps _ _ _ _) rfl)
    clear_value x2
    refine iteP (P := OkP (DevKeeps 0x10000000000000000000000000000000000000000000000000000000000000000000000000000000000000000401A d)) (fun _ => ?_) (fun _ => ?_)
    · split
      · refine OkP.ok ?_
        exact (DevKeeps.step h2 (complete_keeps _ _ _ _) rfl)
      · refine OkP.ok ?_
        exact h2
    · exact trivial
  · exact trivial

theorem execDieResetDone_keeps (a0 : Fin 48) (a1 : Fin 32) (a2 : BitVec 10) (s : State) :
    NextP (StateKeeps 0x18004000000000000000000E000000000000000000000000000000000000000000000000000000000000000E9595A s) (execDieResetDone a0 a1 a2 s) := by
  unfold execDieResetDone
  refine onDevThen_keeps ?_ (fun t0 h0 => ?_)
  · exact DevKeeps.stepOk (.refl _ _) (dieResetDone_keeps _ _ _ _) rfl
  · exact (StateKeeps.step h0 (afterChan_keeps _ _) rfl)

theorem execSeqCqHeadWrite_keeps (a0 : Fin 48) (a1 : Word) (s : State) :
    NextP (StateKeeps 0x18006000000000000000000E000000000000000000000000000000000000000000000000000000000000000E95953 s) (execSeqCqHeadWrite a0 a1 s) := by
  unfold execSeqCqHeadWrite
  refine onDevThen_keeps ?_ (fun t0 h0 => ?_)
  · refine orRsv_keeps ?_ ?_ rfl
    · exact (.refl _ _)
    · beta_reduce
      exact (DevKeeps.step (.refl _ _) (Dev.wrc_keeps _ _ _ _) (by rfl))
  · exact (StateKeeps.step h0 (afterChan_keeps _ _) rfl)

theorem blockStateWrite_keeps (a0 : ℕ) (a1 : ℕ) (d : Dev) :
    DevKeeps 606225 d (blockStateWrite a0 a1 d) := by
  unfold blockStateWrite
  extract_lets -merge -underBinder +onlyGivenNames x0
  clear_value x0
  extract_lets -merge -underBinder +onlyGivenNames x1
  clear_value x1
  extract_lets -merge -underBinder +onlyGivenNames x2
  clear_value x2
  extract_lets -merge -underBinder +onlyGivenNames x3
  clear_value x3
  extract_lets -merge -underBinder +onlyGivenNames x4
  have h4 : DevKeeps 606225 d x4 := by
    subst x4
    refine iteP (P := DevKeeps 606225 d) (fun _ => ?_) (fun _ => ?_)
    · exact (DevKeeps.step (DevKeeps.step (.refl _ _) (badRecord_keeps _ _ _ _ _ _ _ _) rfl) (Dev.tick_keeps _ _) rfl)
    · exact (.refl _ _)
  clear_value x4
  refine iteP (P := DevKeeps 606225 d) (fun _ => ?_) (fun _ => ?_)
  · exact (.refl _ _)
  · exact (DevKeeps.step h4 (Dev.modDie_keeps _ _ _ _) rfl)

theorem execBlockStateWrite_keeps (a0 : Fin 48) (a1 : Word) (s : State) :
    NextP (StateKeeps 0x18004000000000000000000E000000000000000000000000000000000000000000000000000000000000000E95953 s) (execBlockStateWrite a0 a1 s) := by
  unfold execBlockStateWrite
  refine onDevThen_keeps ?_ (fun t0 h0 => ?_)
  · refine orRsv_keeps ?_ ?_ rfl
    · exact (.refl _ _)
    · exact (DevKeeps.step (.refl _ _) (blockStateWrite_keeps _ _ _) rfl)
  · exact (StateKeeps.step h0 (afterChan_keeps _ _) rfl)

theorem retireDie_keeps (a0 : ℕ) (a1 : ℕ) (d : Dev) :
    DevKeeps 0x100000000000000000000000000000000000000000000000000000000000000000000000000000000000000004033 d (retireDie a0 a1 d) := by
  unfold retireDie
  extract_lets -merge -underBinder +onlyGivenNames x0
  have h0 : DevKeeps 0x100000000000000000000000000000000000000000000000000000000000000000000000000000000000000004033 d x0 := by
    subst x0
    exact (DevKeeps.step (DevKeeps.step (.refl _ _) (tearOp_keeps _ _ _) rfl) (endOps_keeps _ _ _ _) rfl)
  clear_value x0
  extract_lets -merge -underBinder +onlyGivenNames x1
  have h1 : DevKeeps 0x100000000000000000000000000000000000000000000000000000000000000000000000000000000000000004033 d x1 := by
    subst x1
    split
    · exact (DevKeeps.step (DevKeeps.step h0 (Dev.modDie_keeps _ _ _ _) rfl) (complete_keeps _ _ _ _) rfl)
    · exact h0
  clear_value x1
  extract_lets -merge -underBinder +onlyGivenNames x2
  clear_value x2
  extract_lets -merge -underBinder +onlyGivenNames x3
  have h3 : DevKeeps 0x100000000000000000000000000000000000000000000000000000000000000000000000000000000000000004033 d x3 := by
    subst x3
    refine DevKeeps.foldl ?_ (fun y4 a4 h4 => ?_)
    · exact h1
    · beta_reduce
      exact (DevKeeps.step h4 (complete_keeps _ _ _ _) rfl)
  clear_value x3
  extract_lets -merge -underBinder +onlyGivenNames x5
  have h5 : DevKeeps 0x100000000000000000000000000000000000000000000000000000000000000000000000000000000000000004033 d x5 := by
    subst x5
    refine DevKeeps.foldl ?_ (fun y6 a6 h6 => ?_)
    · exact h3
    · beta_reduce
      exact (DevKeeps.step h6 (complete_keeps _ _ _ _) rfl)
  clear_value x5
  exact (DevKeeps.step h5 (Dev.modDie_keeps _ _ _ _) rfl)

theorem dieCtlWrite_keeps (a0 : ℕ) (a1 : ℕ) (d : Dev) :
    DevKeeps 0x100000000000000000000000000000000000000000000000000000000000000000000000000000000000000004033 d (dieCtlWrite a0 a1 d) := by
  unfold dieCtlWrite
  extract_lets -merge -underBinder +onlyGivenNames x0
  clear_value x0
  extract_lets -merge -underBinder +onlyGivenNames x1
  clear_value x1
  extract_lets -merge -underBinder +onlyGivenNames x2
  have h2 : DevKeeps 0x100000000000000000000000000000000000000000000000000000000000000000000000000000000000000004033 d x2 := by
    subst x2
    refine iteP (P := DevKeeps 0x100000000000000000000000000000000000000000000000000000000000000000000000000000000000000004033 d) (fun _ => ?_) (fun _ => ?_)
    · exact (DevKeeps.step (.refl _ _) (Dev.wrc_keeps _ _ _ _) (by rfl))
    · exact (DevKeeps.step (.refl _ _) (Dev.modDie_keeps _ _ _ _) rfl)
  clear_value x2
  refine iteP (P := DevKeeps 0x100000000000000000000000000000000000000000000000000000000000000000000000000000000000000004033 d) (fun _ => ?_) (fun _ => ?_)
  · exact (DevKeeps.step h2 (retireDie_keeps _ _ _) rfl)
  · exact h2

theorem retireChan_keeps (a0 : ℕ) (d : Dev) :
    DevKeeps 0x100000000000000000000000000000000000000000000000000000000000000000000000000000000000000004033 d (retireChan a0 d) := by
  unfold retireChan
  extract_lets -merge -underBinder +onlyGivenNames x0
  have h0 : DevKeeps 0x100000000000000000000000000000000000000000000000000000000000000000000000000000000000000004033 d x0 := by
    subst x0
    refine DevKeeps.forUpTo ?_ (fun a1 y1 h1 => ?_)
    · exact (.refl _ _)
    · beta_reduce
      refine iteP (P := DevKeeps 0x100000000000000000000000000000000000000000000000000000000000000000000000000000000000000004033 d) (fun _ => ?_) (fun _ => ?_)
      · exact h1
      · exact (DevKeeps.step h1 (retireDie_keeps _ _ _) rfl)
  clear_value x0
  exact (DevKeeps.step h0 (Dev.modChan_keeps _ _ _) rfl)

theorem enableSeq_keeps (a0 : ℕ) (d : Dev) :
    DevKeeps 0x8000000000000000000000000000000000000000000000000000000000000000000000000000000100002 d (enableSeq a0 d) := by
  unfold enableSeq
  extract_lets -merge -underBinder +onlyGivenNames x0
  have h0 : DevKeeps 0x8000000000000000000000000000000000000000000000000000000000000000000000000000000100002 d x0 := by
    subst x0
    exact (DevKeeps.step (.refl _ _) (Dev.wrc_keeps _ _ _ _) (by rfl))
  clear_value x0
  extract_lets -merge -underBinder +onlyGivenNames x1
  clear_value x1
  exact DevKeeps.set_sys _ h0 rfl

theorem seqCtlWrite_keeps (a0 : ℕ) (a1 : ℕ) (d : Dev) :
    DevKeeps 0x100000008000000000000000000000000000000000000000000000000000000000000000000000000000000104033 d (seqCtlWrite a0 a1 d) := by
  unfold seqCtlWrite
  extract_lets -merge -underBinder +onlyGivenNames x0
  have h0 : DevKeeps 0x100000008000000000000000000000000000000000000000000000000000000000000000000000000000000104033 d x0 := by
    subst x0
    exact (DevKeeps.step (.refl _ _) (Dev.wrc_keeps _ _ _ _) (by rfl))
  clear_value x0
  extract_lets -merge -underBinder +onlyGivenNames x1
  have h1 : DevKeeps 0x100000008000000000000000000000000000000000000000000000000000000000000000000000000000000104033 d x1 := by
    subst x1
    refine iteP (P := DevKeeps 0x100000008000000000000000000000000000000000000000000000000000000000000000000000000000000104033 d) (fun _ => ?_) (fun _ => ?_)
    · exact (DevKeeps.step h0 (enableSeq_keeps _ _) rfl)
    · exact (DevKeeps.step h0 (Dev.wrc_keeps _ _ _ _) (by rfl))
  clear_value x1
  refine iteP (P := DevKeeps 0x100000008000000000000000000000000000000000000000000000000000000000000000000000000000000104033 d) (fun _ => ?_) (fun _ => ?_)
  · exact (DevKeeps.step h1 (retireChan_keeps _ _) rfl)
  · exact h1

theorem requestTraining_keeps (a0 : ℕ) (d : Dev) :
    DevKeeps 16 d (requestTraining a0 d) := by
  unfold requestTraining
  exact (DevKeeps.step (.refl _ _) (Dev.modChan_keeps _ _ _) rfl)

theorem phyRateWrite_keeps (a0 : ℕ) (a1 : ℕ) (d : Dev) :
    DevKeeps 0x4000100000000000000000000000000000000000000000000000000000000000000000000000000000000000000000012 d (phyRateWrite a0 a1 d) := by
  unfold phyRateWrite
  extract_lets -merge -underBinder +onlyGivenNames x0
  clear_value x0
  extract_lets -merge -underBinder +onlyGivenNames x1
  have h1 : DevKeeps 0x4000100000000000000000000000000000000000000000000000000000000000000000000000000000000000000000012 d x1 := by
    subst x1
    refine iteP (P := DevKeeps 0x4000100000000000000000000000000000000000000000000000000000000000000000000000000000000000000000012 d) (fun _ => ?_) (fun _ => ?_)
    · exact (DevKeeps.step (.refl _ _) (Dev.wrc_keeps _ _ _ _) (by rfl))
    · exact (.refl _ _)
  clear_value x1
  refine iteP (P := DevKeeps 0x4000100000000000000000000000000000000000000000000000000000000000000000000000000000000000000000012 d) (fun _ => ?_) (fun _ => ?_)
  · refine iteP (P := DevKeeps 0x4000100000000000000000000000000000000000000000000000000000000000000000000000000000000000000000012 d) (fun _ => ?_) (fun _ => ?_)
    · exact (DevKeeps.step h1 (Dev.wrc_keeps _ _ _ _) (by rfl))
    · refine iteP (P := DevKeeps 0x4000100000000000000000000000000000000000000000000000000000000000000000000000000000000000000000012 d) (fun _ => ?_) (fun _ => ?_)
      · exact (DevKeeps.step h1 (requestTraining_keeps _ _) rfl)
      · exact h1
  · exact h1

theorem phyRateStore_keeps (a0 : Fin 48) (a1 : ℕ) (s : State) :
    NextP (StateKeeps 0x4000100000000000000000000000000000000000000000000000000000000000000000000000000000000000000000013 s) (phyRateStore a0 a1 s) := by
  unfold phyRateStore
  refine onDev_keeps ?_
  refine orRsv_keeps ?_ ?_ rfl
  · exact (.refl _ _)
  · exact (DevKeeps.step (.refl _ _) (phyRateWrite_keeps _ _ _) rfl)

theorem execPhyRetrain_keeps (a0 : Fin 48) (a1 : Word) (s : State) :
    NextP (StateKeeps 0x4000100000000000000000000000000000000000000000000000000000000000000000000000000000000000000000013 s) (execPhyRetrain a0 a1 s) := by
  unfold execPhyRetrain
  exact StateKeeps.stepNext (.refl _ _) (phyRateStore_keeps _ _ _) rfl

theorem execTrainingEnd_keeps (a0 : Fin 48) (s : State) :
    NextP (StateKeeps 16 s) (execTrainingEnd a0 s) := by
  unfold execTrainingEnd
  refine onDev_keeps ?_
  beta_reduce
  refine onlyIf_keeps ?_
  beta_reduce
  exact (DevKeeps.step (.refl _ _) (Dev.modChan_keeps _ _ _) rfl)

end Sys2Proof.Machine
end

