-- ==== Sys2Proof/Laws/KeepSleep.lean ====
section
/-! SUPPORT. What each operation of Machine/Sleep.lean leaves as it was. -/

namespace Sys2Proof.Machine

theorem wakeIdle_keeps (d : Dev) :
    DevKeeps 262144 d (wakeIdle d) := by
  unfold wakeIdle
  extract_lets -merge -underBinder +onlyGivenNames x0
  clear_value x0
  exact DevKeeps.set_pwr _ (.refl _ _) rfl

theorem dirtyImage_keeps (a0 : Image) (d : Dev) :
    DevKeeps 524288 d (dirtyImage a0 d) := by
  unfold dirtyImage
  extract_lets -merge -underBinder +onlyGivenNames x0
  clear_value x0
  extract_lets -merge -underBinder +onlyGivenNames x1
  clear_value x1
  extract_lets -merge -underBinder +onlyGivenNames x2
  clear_value x2
  exact DevKeeps.set_nvm _ (.refl _ _) rfl

theorem abortEntry_keeps (a0 : ℕ) (d : Dev) :
    DevKeeps 0x2600000000C0002 d (abortEntry a0 d) := by
  unfold abortEntry
  split
  · exact (.refl _ _)
  · extract_lets -merge -underBinder +onlyGivenNames x0
    have h0 : DevKeeps 0x2600000000C0002 d x0 := by
      subst x0
      exact (DevKeeps.step (DevKeeps.step (DevKeeps.step (.refl _ _) (Dev.add_keeps _ _ _) (by rfl)) (Dev.wr_keeps _ _ _) (by rfl)) (Dev.wr_keeps _ _ _) (by rfl))
    clear_value x0
    extract_lets -merge -underBinder +onlyGivenNames x1
    clear_value x1
    extract_lets -merge -underBinder +onlyGivenNames x2
    have h2 : DevKeeps 0x2600000000C0002 d x2 := by
      subst x2
      exact DevKeeps.set_pwr _ h0 rfl
    clear_value x2
    refine iteP (P := DevKeeps 0x2600000000C0002 d) (fun _ => ?_) (fun _ => ?_)
    · split
      · extract_lets -merge -underBinder +onlyGivenNames x3
        clear_value x3
        refine DevKeeps.step ?_ (dirtyImage_keeps _ _) rfl
        exact DevKeeps.set_nvm _ h2 rfl
      · exact h2
    · exact h2

theorem wakeDoorbell_keeps (d : Dev) :
    DevKeeps 0x2600000000C0002 d (wakeDoorbell d) := by
  unfold wakeDoorbell
  exact (DevKeeps.step (DevKeeps.step (.refl _ _) (wakeIdle_keeps _) rfl) (abortEntry_keeps _ _) rfl)

end Sys2Proof.Machine
end

