-- ==== Sys2Proof/Laws/KeepHostQueue.lean ====
section
/-! SUPPORT. What each operation of Machine/HostQueue.lean leaves as it was. -/

namespace Sys2Proof.Machine

theorem settleShutdown_keeps (a0 : ℕ) (d : Dev) :
    DevKeeps 4096 d (settleShutdown a0 d) := by
  unfold settleShutdown
  refine iteP (P := DevKeeps 4096 d) (fun _ => ?_) (fun _ => ?_)
  · exact (DevKeeps.step (.refl _ _) (Dev.modFunc_keeps _ _ _) rfl)
  · exact (.refl _ _)

theorem badDoorbell_keeps (a0 : ℕ) (d : Dev) :
    DevKeeps 0x8000000000000000001002 d (badDoorbell a0 d) := by
  unfold badDoorbell
  exact (DevKeeps.step (DevKeeps.step (.refl _ _) (Dev.wr_keeps _ _ _) (by rfl)) (raiseEvent_keeps _ _ _) rfl)

theorem sqTail_keeps (a0 : ℕ) (a1 : ℕ) (a2 : ℕ) (d : Dev) :
    DevKeeps 0x80000002600000000C1002 d (sqTail a0 a1 a2 d) := by
  unfold sqTail
  split
  · refine iteP (P := DevKeeps 0x80000002600000000C1002 d) (fun _ => ?_) (fun _ => ?_)
    · exact (.refl _ _)
    · refine iteP (P := DevKeeps 0x80000002600000000C1002 d) (fun _ => ?_) (fun _ => ?_)
      · exact (DevKeeps.step (DevKeeps.step (.refl _ _) (Dev.modFunc_keeps _ _ _) rfl) (wakeDoorbell_keeps _) rfl)
      · exact (DevKeeps.step (.refl _ _) (badDoorbell_keeps _ _) rfl)
  · exact (DevKeeps.step (.refl _ _) (badDoorbell_keeps _ _) rfl)

theorem execSqTailDoorbell_keeps (a0 : Fin 1026) (a1 : BitVec 16) (a2 : Word) (s : State) :
    NextP (StateKeeps 0x80000002600000004C1002 s) (execSqTailDoorbell a0 a1 a2 s) := by
  unfold execSqTailDoorbell
  refine onDev_keeps ?_
  refine always_keeps ?_
  beta_reduce
  refine iteP (P := DevKeeps 0x80000002600000004C1002 s.dev) (fun _ => ?_) (fun _ => ?_)
  · exact (DevKeeps.step (.refl _ _) (Dev.send_keeps _ _) rfl)
  · exact (DevKeeps.step (.refl _ _) (sqTail_keeps _ _ _ _) rfl)

theorem writeCqe_keeps (a0 : ℕ) (a1 : Slot) (a2 : Cpl) (a3 : ℕ) (a4 : Cq) (d : Dev) :
    DevKeeps 4239360 d (writeCqe a0 a1 a2 a3 a4 d) := by
  unfold writeCqe
  extract_lets -merge -underBinder +onlyGivenNames x0
  clear_value x0
  extract_lets -merge -underBinder +onlyGivenNames x1
  clear_value x1
  extract_lets -merge -underBinder +onlyGivenNames x2
  clear_value x2
  extract_lets -merge -underBinder +onlyGivenNames x3
  have h3 : DevKeeps 4239360 d x3 := by
    subst x3
    exact (DevKeeps.step (.refl _ _) (Dev.send_keeps _ _) rfl)
  clear_value x3
  extract_lets -merge -underBinder +onlyGivenNames x4
  have h4 : DevKeeps 4239360 d x4 := by
    subst x4
    refine iteP (P := DevKeeps 4239360 d) (fun _ => ?_) (fun _ => ?_)
    · exact (DevKeeps.step h3 (Dev.send_keeps _ _) rfl)
    · exact h3
  clear_value x4
  extract_lets -merge -underBinder +onlyGivenNames x5
  clear_value x5
  extract_lets -merge -underBinder +onlyGivenNames x6
  have h6 : DevKeeps 4239360 d x6 := by
    subst x6
    exact (DevKeeps.step h4 (Dev.modFunc_keeps _ _ _) rfl)
  clear_value x6
  extract_lets -merge -underBinder +onlyGivenNames x7
  have h7 : DevKeeps 4239360 d x7 := by
    subst x7
    split
    · exact (DevKeeps.step h6 (Dev.camFree_keeps _ _) rfl)
    · exact h6
  clear_value x7
  extract_lets -merge -underBinder +onlyGivenNames x8
  have h8 : DevKeeps 4239360 d x8 := by
    subst x8
    refine iteP (P := DevKeeps 4239360 d) (fun _ => ?_) (fun _ => ?_)
    · exact (DevKeeps.step h7 (Dev.modFunc_keeps _ _ _) rfl)
    · exact h7
  clear_value x8
  extract_lets -merge -underBinder +onlyGivenNames x9
  have h9 : DevKeeps 4239360 d x9 := by
    subst x9
    refine iteP (P := DevKeeps 4239360 d) (fun _ => ?_) (fun _ => ?_)
    · exact (DevKeeps.step h8 (Dev.modNs_keeps _ _ _) rfl)
    · exact h8
  clear_value x9
  exact (DevKeeps.step h9 (Dev.dropSlot_keeps _ _) rfl)

theorem postCqe_keeps (a0 : ℕ) (a1 : Slot) (a2 : Cpl) (d : Dev) :
    DevKeeps 0x800000000000000040B002 d (postCqe a0 a1 a2 d) := by
  unfold postCqe
  extract_lets -merge -underBinder +onlyGivenNames x0
  clear_value x0
  extract_lets -merge -underBinder +onlyGivenNames x1
  clear_value x1
  split
  · extract_lets -merge -underBinder +onlyGivenNames x2
    clear_value x2
    extract_lets -merge -underBinder +onlyGivenNames x3
    clear_value x3
    refine iteP (P := DevKeeps 0x800000000000000040B002 d) (fun _ => ?_) (fun _ => ?_)
    · exact (DevKeeps.step (DevKeeps.step (.refl _ _) (Dev.modFunc_keeps _ _ _) rfl) (Dev.wr_keeps _ _ _) (by rfl))
    · exact (DevKeeps.step (.refl _ _) (writeCqe_keeps _ _ _ _ _ _) rfl)
  · exact (DevKeeps.step (.refl _ _) (Dev.dropSlot_keeps _ _) rfl)

theorem releaseHeld_keeps (a0 : ℕ) (a1 : ℕ) (a2 : ℕ) (d : Dev) :
    DevKeeps 4239360 d (releaseHeld a0 a1 a2 d) := by
  induction a2 generalizing d with
  | zero => exact DevKeeps.refl _ _
  | succ n ih =>
    unfold releaseHeld
    split
    · split
      · split
        · split
          · exact DevKeeps.step (DevKeeps.step (.refl _ _) (writeCqe_keeps _ _ _ _ _ _) rfl) (ih _) rfl
          · exact (.refl _ _)
        · exact (.refl _ _)
      · exact (.refl _ _)
    · exact (.refl _ _)

theorem cqHead_keeps (a0 : ℕ) (a1 : ℕ) (a2 : ℕ) (d : Dev) :
    DevKeeps 0x800000000000000040B002 d (cqHead a0 a1 a2 d) := by
  unfold cqHead
  split
  · refine iteP (P := DevKeeps 0x800000000000000040B002 d) (fun _ => ?_) (fun _ => ?_)
    · exact (DevKeeps.step (DevKeeps.step (.refl _ _) (Dev.modFunc_keeps _ _ _) rfl) (releaseHeld_keeps _ _ _ _) rfl)
    · exact (DevKeeps.step (.refl _ _) (badDoorbell_keeps _ _) rfl)
  · exact (DevKeeps.step (.refl _ _) (badDoorbell_keeps _ _) rfl)

theorem execCqHeadDoorbell_keeps (a0 : Fin 1026) (a1 : BitVec 16) (a2 : Word) (s : State) :
    NextP (StateKeeps 0x800000000000000040B002 s) (execCqHeadDoorbell a0 a1 a2 s) := by
  unfold execCqHeadDoorbell
  refine onDev_keeps ?_
  refine always_keeps ?_
  beta_reduce
  refine iteP (P := DevKeeps 0x800000000000000040B002 s.dev) (fun _ => ?_) (fun _ => ?_)
  · exact (DevKeeps.step (.refl _ _) (Dev.send_keeps _ _) rfl)
  · exact (DevKeeps.step (DevKeeps.step (.refl _ _) (cqHead_keeps _ _ _ _) rfl) (settleShutdown_keeps _ _) rfl)

theorem issueRead_keeps (a0 : ℕ) (a1 : ℕ) (d : Dev) :
    DevKeeps 4198400 d (issueRead a0 a1 d) := by
  unfold issueRead
  split
  · extract_lets -merge -underBinder +onlyGivenNames x0
    clear_value x0
    extract_lets -merge -underBinder +onlyGivenNames x1
    have h1 : DevKeeps 4198400 d x1 := by
      subst x1
      exact (DevKeeps.step (.refl _ _) (Dev.send_keeps _ _) rfl)
    clear_value x1
    extract_lets -merge -underBinder +onlyGivenNames x2
    have h2 : DevKeeps 4198400 d x2 := by
      subst x2
      exact (DevKeeps.step h1 (Dev.modHost_keeps _ _) rfl)
    clear_value x2
    exact (DevKeeps.step h2 (Dev.modFunc_keeps _ _ _) rfl)
  · exact (.refl _ _)

theorem issueFrom_keeps (f q n : Nat) (a : Nat × Dev) : DevKeeps 0x1000000000000000000000000401002 a.2 (issueFrom f q n a).2 := by
  induction n generalizing a with
  | zero => exact .refl _ _
  | succ n ih =>
    obtain ⟨u, d⟩ := a
    unfold issueFrom
    split
    · split
      · split
        · exact DevKeeps.step (k := 0x1000000000000000000000000401002) (e := issueRead f q d) ((DevKeeps.refl _ _).step (issueRead_keeps _ _ _) rfl) (ih (u + 1, issueRead f q d)) rfl
        · exact (Dev.flagIf_keeps d _ _).mono (by rfl)
      · exact .refl _ _
    · exact .refl _ _

theorem fetchVisit_keeps (d : Dev) : DevKeeps 0x1000000000000000000000000401002 d (fetchVisit d) := by
  unfold fetchVisit
  refine iteP (P := DevKeeps 0x1000000000000000000000000401002 d) (fun _ => .refl _ _) (fun _ => ?_)
  split
  · exact .refl _ _
  · next f _ =>
    extract_lets d1 b
    have h1 : DevKeeps 0x1000000000000000000000000401002 d d1 := (Dev.modHost_keeps _ _).mono rfl
    have h2 : DevKeeps 0x1000000000000000000000000401002 d (issueFrom f 0 b (0, d1)).2 := h1.step (k := 0x1000000000000000000000000401002) (issueFrom_keeps f 0 b (0, d1)) rfl
    generalize issueFrom f 0 b (0, d1) = a at h2
    obtain ⟨used, d2⟩ := a
    show DevKeeps 0x1000000000000000000000000401002 d (match (d2.func f).nextSq with
      | some q =>
        let (n, d) := issueFrom f q (b - used) (0, d2)
        if n = 0 then d else d.modFunc f fun x => { x with lastSq := q }
      | none => d2)
    split
    · next q _ =>
      have h3 : DevKeeps 0x1000000000000000000000000401002 d (issueFrom f q (b - used) (0, d2)).2 := h2.step (k := 0x1000000000000000000000000401002) (issueFrom_keeps f q (b - used) (0, d2)) rfl
      generalize issueFrom f q (b - used) (0, d2) = a at h3
      obtain ⟨n, d3⟩ := a
      exact iteP (P := DevKeeps 0x1000000000000000000000000401002 d) (fun _ => h3) (fun _ => h3.step (Dev.modFunc_keeps _ _ _) rfl)
    · exact h2

theorem execCommandFetchIssue_keeps (s : State) :
    NextP (StateKeeps 0x1000000000000000000000000401002 s) (execCommandFetchIssue s) := by
  unfold execCommandFetchIssue
  refine onDev_keeps ?_
  refine always_keeps ?_
  exact (DevKeeps.step (.refl _ _) (fetchVisit_keeps _) rfl)

theorem stopSq_keeps (a0 : ℕ) (a1 : ℕ) (a2 : Sqe) (d : Dev) :
    DevKeeps 4096 d (stopSq a0 a1 a2 d) := by
  unfold stopSq
  extract_lets -merge -underBinder +onlyGivenNames x0
  clear_value x0
  split
  · refine iteP (P := DevKeeps 4096 d) (fun _ => ?_) (fun _ => ?_)
    · exact (DevKeeps.step (.refl _ _) (Dev.modFunc_keeps _ _ _) rfl)
    · exact (.refl _ _)
  · exact (.refl _ _)

theorem fetchOne_keeps (a0 : Issued) (a1 : Sqe) (d : Dev) :
    DevKeeps 0xA000000000000000001002 d (fetchOne a0 a1 d) := by
  unfold fetchOne
  extract_lets -merge -underBinder +onlyGivenNames x0
  clear_value x0
  extract_lets -merge -underBinder +onlyGivenNames x1
  clear_value x1
  extract_lets -merge -underBinder +onlyGivenNames x2
  clear_value x2
  extract_lets -merge -underBinder +onlyGivenNames x3
  clear_value x3
  extract_lets -merge -underBinder +onlyGivenNames x4
  clear_value x4
  extract_lets -merge -underBinder +onlyGivenNames x5
  have h5 : DevKeeps 0xA000000000000000001002 d x5 := by
    subst x5
    exact (DevKeeps.step (.refl _ _) (Dev.modHost_keeps _ _) rfl)
  clear_value x5
  extract_lets -merge -underBinder +onlyGivenNames x6
  have h6 : DevKeeps 0xA000000000000000001002 d x6 := by
    subst x6
    exact (DevKeeps.step h5 (Dev.modFunc_keeps _ _ _) rfl)
  clear_value x6
  extract_lets -merge -underBinder +onlyGivenNames x7
  have h7 : DevKeeps 0xA000000000000000001002 d x7 := by
    subst x7
    exact (DevKeeps.step h6 (Dev.setSlot_keeps _ _ _) rfl)
  clear_value x7
  split
  · extract_lets -merge -underBinder +onlyGivenNames x8
    have h8 : DevKeeps 0xA000000000000000001002 d x8 := by
      subst x8
      exact (DevKeeps.step (DevKeeps.step h7 (Dev.modSlot_keeps _ _ _) rfl) (finish_keeps _ _ _) rfl)
    clear_value x8
    extract_lets -merge -underBinder +onlyGivenNames x9
    have h9 : DevKeeps 0xA000000000000000001002 d x9 := by
      subst x9
      exact (DevKeeps.step h8 (Dev.modSlot_keeps _ _ _) rfl)
    clear_value x9
    exact (DevKeeps.step (DevKeeps.step h9 (Dev.add_keeps _ _ _) (by rfl)) (Dev.wr_keeps _ _ _) (by rfl))
  · refine iteP (P := DevKeeps 0xA000000000000000001002 d) (fun _ => ?_) (fun _ => ?_)
    · exact (DevKeeps.step h7 (finish_keeps _ _ _) rfl)
    · refine iteP (P := DevKeeps 0xA000000000000000001002 d) (fun _ => ?_) (fun _ => ?_)
      · exact (DevKeeps.step h7 (finish_keeps _ _ _) rfl)
      · refine iteP (P := DevKeeps 0xA000000000000000001002 d) (fun _ => ?_) (fun _ => ?_)
        · exact (DevKeeps.step h7 (finish_keeps _ _ _) rfl)
        · refine iteP (P := DevKeeps 0xA000000000000000001002 d) (fun _ => ?_) (fun _ => ?_)
          · exact (DevKeeps.step (DevKeeps.step h7 (Dev.modSlot_keeps _ _ _) rfl) (stopSq_keeps _ _ _ _) rfl)
          · exact h7

theorem fetchReady_keeps (a0 : ℕ) (a1 : ℕ) (a2 : ℕ) (d : Dev) :
    DevKeeps 0xA000000000000000001002 d (fetchReady a0 a1 a2 d) := by
  induction a2 generalizing d with
  | zero => exact DevKeeps.refl _ _
  | succ n ih =>
    unfold fetchReady
    split
    · split
      · exact DevKeeps.step (DevKeeps.step (.refl _ _) (fetchOne_keeps _ _ _) rfl) (ih _) rfl
      · exact (.refl _ _)
    · exact (.refl _ _)

theorem commandFetch_keeps (a0 : ℕ) (a1 : ℕ) (a2 : ℕ) (a3 : Sqe) (d : Dev) :
    OkP (DevKeeps 0xA000000000000000001002 d) (commandFetch a0 a1 a2 a3 d) := by
  unfold commandFetch
  split
  · extract_lets -merge -underBinder +onlyGivenNames x0
    have h0 : DevKeeps 0xA000000000000000001002 d x0 := by
      subst x0
      exact (DevKeeps.step (.refl _ _) (Dev.modHost_keeps _ _) rfl)
    clear_value x0
    refine OkP.ok ?_
    exact (DevKeeps.step h0 (fetchReady_keeps _ _ _ _) rfl)
  · exact trivial

theorem execCommandFetch_keeps (a0 : Fin 1026) (a1 : BitVec 16) (a2 : BitVec 16) (a3 : Sqe) (s : State) :
    NextP (StateKeeps 0xA000000000000000001002 s) (execCommandFetch a0 a1 a2 a3 s) := by
  unfold execCommandFetch
  refine onDev_keeps ?_
  exact DevKeeps.stepOk (.refl _ _) (commandFetch_keeps _ _ _ _ _) rfl

theorem paceMiss_keeps (a0 : ℕ) (a1 : Bool) (d : Dev) :
    DevKeeps 0x1800000000000000000000000010002 d (paceMiss a0 a1 d) := by
  unfold paceMiss
  extract_lets -merge -underBinder +onlyGivenNames x0
  have h0 : DevKeeps 0x1800000000000000000000000010002 d x0 := by
    subst x0
    refine iteP (P := DevKeeps 0x1800000000000000000000000010002 d) (fun _ => ?_) (fun _ => ?_)
    · exact (DevKeeps.step (.refl _ _) (Dev.addx_keeps _ _ _ _ _) (by rfl))
    · exact (DevKeeps.step (.refl _ _) (Dev.addx_keeps _ _ _ _ _) (by rfl))
  clear_value x0
  exact (DevKeeps.step (DevKeeps.step h0 (Dev.wr_keeps _ _ _) (by rfl)) (tellEtchings_keeps _ _ _) rfl)

theorem completionPost_keeps (a0 : ℕ) (a1 : BitVec 10) (d : Dev) :
    OkP (DevKeeps 0x180000000800000000000000041B00A d) (completionPost a0 a1 d) := by
  unfold completionPost
  extract_lets -merge -underBinder +onlyGivenNames x0
  have h0 : DevKeeps 0x180000000800000000000000041B00A d x0 := by
    subst x0
    exact (DevKeeps.step (.refl _ _) (Dev.atCycle_keeps _ _) rfl)
  clear_value x0
  split
  · split
    · refine iteP (P := OkP (DevKeeps 0x180000000800000000000000041B00A d)) (fun _ => ?_) (fun _ => ?_)
      · exact trivial
      · split
        · extract_lets -merge -underBinder +onlyGivenNames x1
          clear_value x1
          refine iteP (P := OkP (DevKeeps 0x180000000800000000000000041B00A d)) (fun _ => ?_) (fun _ => ?_)
          · refine OkP.ok ?_
            exact (DevKeeps.step (DevKeeps.step (DevKeeps.step h0 (paceMiss_keeps _ _ _) rfl) (postCqe_keeps _ _ _ _) rfl) (settleShutdown_keeps _ _) rfl)
          · refine iteP (P := OkP (DevKeeps 0x180000000800000000000000041B00A d)) (fun _ => ?_) (fun _ => ?_)
            · refine OkP.ok ?_
              exact (DevKeeps.step (DevKeeps.step h0 (postCqe_keeps _ _ _ _) rfl) (settleShutdown_keeps _ _) rfl)
            · exact trivial
        · refine OkP.ok ?_
          exact (DevKeeps.step (DevKeeps.step h0 (postCqe_keeps _ _ _ _) rfl) (settleShutdown_keeps _ _) rfl)
    · exact trivial
  · exact trivial

theorem execCompletionPost_keeps (a0 : Fin 131072) (a1 : BitVec 10) (s : State) :
    NextP (StateKeeps 0x180000000800000000000000041B00A s) (execCompletionPost a0 a1 s) := by
  unfold execCompletionPost
  refine onDev_keeps ?_
  exact DevKeeps.stepOk (.refl _ _) (completionPost_keeps _ _ _) rfl

theorem paceExpiry_keeps (a0 : ℕ) (a1 : BitVec 10) (d : Dev) :
    OkP (DevKeeps 0x800000000000000040B00A d) (paceExpiry a0 a1 d) := by
  unfold paceExpiry
  extract_lets -merge -underBinder +onlyGivenNames x0
  have h0 : DevKeeps 0x800000000000000040B00A d x0 := by
    subst x0
    exact (DevKeeps.step (.refl _ _) (Dev.atCycle_keeps _ _) rfl)
  clear_value x0
  split
  · split
    · refine iteP (P := OkP (DevKeeps 0x800000000000000040B00A d)) (fun _ => ?_) (fun _ => ?_)
      · refine OkP.ok ?_
        exact (DevKeeps.step (DevKeeps.step h0 (postCqe_keeps _ _ _ _) rfl) (settleShutdown_keeps _ _) rfl)
      · exact trivial
    · exact trivial
  · exact trivial

theorem execPaceExpiry_keeps (a0 : Fin 131072) (a1 : BitVec 10) (s : State) :
    NextP (StateKeeps 0x800000000000000040B00A s) (execPaceExpiry a0 a1 s) := by
  unfold execPaceExpiry
  refine onDev_keeps ?_
  exact DevKeeps.stepOk (.refl _ _) (paceExpiry_keeps _ _ _) rfl

theorem createCq_keeps (a0 : ℕ) (a1 : Slot) (d : Dev) :
    DevKeeps 4096 d (createCq a0 a1 d) := by
  unfold createCq
  extract_lets -merge -underBinder +onlyGivenNames x0
  clear_value x0
  extract_lets -merge -underBinder +onlyGivenNames x1
  clear_value x1
  extract_lets -merge -underBinder +onlyGivenNames x2
  clear_value x2
  extract_lets -merge -underBinder +onlyGivenNames x3
  clear_value x3
  extract_lets -merge -underBinder +onlyGivenNames x4
  clear_value x4
  extract_lets -merge -underBinder +onlyGivenNames x5
  clear_value x5
  refine iteP (P := DevKeeps 4096 d) (fun _ => ?_) (fun _ => ?_)
  · exact (DevKeeps.step (.refl _ _) (finish_keeps _ _ _) rfl)
  · refine iteP (P := DevKeeps 4096 d) (fun _ => ?_) (fun _ => ?_)
    · exact (DevKeeps.step (.refl _ _) (finish_keeps _ _ _) rfl)
    · refine iteP (P := DevKeeps 4096 d) (fun _ => ?_) (fun _ => ?_)
      · exact (DevKeeps.step (.refl _ _) (finish_keeps _ _ _) rfl)
      · refine iteP (P := DevKeeps 4096 d) (fun _ => ?_) (fun _ => ?_)
        · exact (DevKeeps.step (.refl _ _) (finish_keeps _ _ _) rfl)
        · exact (DevKeeps.step (DevKeeps.step (.refl _ _) (Dev.modFunc_keeps _ _ _) rfl) (finish_keeps _ _ _) rfl)

theorem execCreateIoCq_keeps (a0 : Fin 131072) (s : State) :
    NextP (StateKeeps 4096 s) (execCreateIoCq a0 s) := by
  unfold execCreateIoCq
  refine onDev_keeps ?_
  beta_reduce
  refine onSlot_keeps ?_ rfl (fun z0 => ?_)
  · exact (.refl _ _)
  · beta_reduce
    refine OkP.ok ?_
    exact (DevKeeps.step (.refl _ _) (createCq_keeps _ _ _) rfl)

theorem createSq_keeps (a0 : ℕ) (a1 : Slot) (d : Dev) :
    DevKeeps 4096 d (createSq a0 a1 d) := by
  unfold createSq
  extract_lets -merge -underBinder +onlyGivenNames x0
  clear_value x0
  extract_lets -merge -underBinder +onlyGivenNames x1
  clear_value x1
  extract_lets -merge -underBinder +onlyGivenNames x2
  clear_value x2
  extract_lets -merge -underBinder +onlyGivenNames x3
  clear_value x3
  extract_lets -merge -underBinder +onlyGivenNames x4
  clear_value x4
  refine iteP (P := DevKeeps 4096 d) (fun _ => ?_) (fun _ => ?_)
  · exact (DevKeeps.step (.refl _ _) (finish_keeps _ _ _) rfl)
  · refine iteP (P := DevKeeps 4096 d) (fun _ => ?_) (fun _ => ?_)
    · exact (DevKeeps.step (.refl _ _) (finish_keeps _ _ _) rfl)
    · refine iteP (P := DevKeeps 4096 d) (fun _ => ?_) (fun _ => ?_)
      · exact (DevKeeps.step (.refl _ _) (finish_keeps _ _ _) rfl)
      · refine iteP (P := DevKeeps 4096 d) (fun _ => ?_) (fun _ => ?_)
        · exact (DevKeeps.step (.refl _ _) (finish_keeps _ _ _) rfl)
        · exact (DevKeeps.step (DevKeeps.step (.refl _ _) (Dev.modFunc_keeps _ _ _) rfl) (finish_keeps _ _ _) rfl)

theorem execCreateIoSq_keeps (a0 : Fin 131072) (s : State) :
    NextP (StateKeeps 4096 s) (execCreateIoSq a0 s) := by
  unfold execCreateIoSq
  refine onDev_keeps ?_
  beta_reduce
  refine onSlot_keeps ?_ rfl (fun z0 => ?_)
  · exact (.refl _ _)
  · beta_reduce
    refine OkP.ok ?_
    exact (DevKeeps.step (.refl _ _) (createSq_keeps _ _ _) rfl)

theorem withdrawCmd_keeps (a0 : ℕ) (a1 : Cpl) (d : Dev) :
    DevKeeps 0x38000000000000000000000000000000000001BA02 d (withdrawCmd a0 a1 d) := by
  unfold withdrawCmd
  extract_lets -merge -underBinder +onlyGivenNames x0
  have h0 : DevKeeps 0x38000000000000000000000000000000000001BA02 d x0 := by
    subst x0
    exact (DevKeeps.step (.refl _ _) (withdrawWrite_keeps _ _) rfl)
  clear_value x0
  extract_lets -merge -underBinder +onlyGivenNames x1
  have h1 : DevKeeps 0x38000000000000000000000000000000000001BA02 d x1 := by
    subst x1
    exact (DevKeeps.step h0 (Dev.modCam_keeps _ _) rfl)
  clear_value x1
  exact (DevKeeps.step h1 (finish_keeps _ _ _) rfl)

theorem deleteSq_keeps (a0 : ℕ) (a1 : Slot) (d : Dev) :
    DevKeeps 0x38000000000000000000000000000000000001BA02 d (deleteSq a0 a1 d) := by
  unfold deleteSq
  extract_lets -merge -underBinder +onlyGivenNames x0
  clear_value x0
  split
  · extract_lets -merge -underBinder +onlyGivenNames x1
    clear_value x1
    extract_lets -merge -underBinder +onlyGivenNames x2
    have h2 : DevKeeps 0x38000000000000000000000000000000000001BA02 d x2 := by
      subst x2
      refine DevKeeps.foldl ?_ (fun y3 a3 h3 => ?_)
      · exact (.refl _ _)
      · beta_reduce
        exact (DevKeeps.step h3 (withdrawCmd_keeps _ _ _) rfl)
    clear_value x2
    refine iteP (P := DevKeeps 0x38000000000000000000000000000000000001BA02 d) (fun _ => ?_) (fun _ => ?_)
    · exact (DevKeeps.step (.refl _ _) (finish_keeps _ _ _) rfl)
    · exact (DevKeeps.step h2 (finish_keeps _ _ _) rfl)
  · exact (DevKeeps.step (.refl _ _) (finish_keeps _ _ _) rfl)

theorem execDeleteIoSq_keeps (a0 : Fin 131072) (s : State) :
    NextP (StateKeeps 0x38000000000000000000000000000000000001BA02 s) (execDeleteIoSq a0 s) := by
  unfold execDeleteIoSq
  refine onDev_keeps ?_
  beta_reduce
  refine onSlot_keeps ?_ rfl (fun z0 => ?_)
  · exact (.refl _ _)
  · beta_reduce
    refine OkP.ok ?_
    exact (DevKeeps.step (.refl _ _) (deleteSq_keeps _ _ _) rfl)

theorem deleteCq_keeps (a0 : ℕ) (a1 : Slot) (d : Dev) :
    DevKeeps 4096 d (deleteCq a0 a1 d) := by
  unfold deleteCq
  extract_lets -merge -underBinder +onlyGivenNames x0
  clear_value x0
  extract_lets -merge -underBinder +onlyGivenNames x1
  clear_value x1
  refine iteP (P := DevKeeps 4096 d) (fun _ => ?_) (fun _ => ?_)
  · exact (DevKeeps.step (.refl _ _) (finish_keeps _ _ _) rfl)
  · refine iteP (P := DevKeeps 4096 d) (fun _ => ?_) (fun _ => ?_)
    · exact (DevKeeps.step (.refl _ _) (finish_keeps _ _ _) rfl)
    · exact (DevKeeps.step (DevKeeps.step (.refl _ _) (Dev.modFunc_keeps _ _ _) rfl) (finish_keeps _ _ _) rfl)

theorem execDeleteIoCq_keeps (a0 : Fin 131072) (s : State) :
    NextP (StateKeeps 4096 s) (execDeleteIoCq a0 s) := by
  unfold execDeleteIoCq
  refine onDev_keeps ?_
  beta_reduce
  refine onSlot_keeps ?_ rfl (fun z0 => ?_)
  · exact (.refl _ _)
  · beta_reduce
    refine OkP.ok ?_
    exact (DevKeeps.step (.refl _ _) (deleteCq_keeps _ _ _) rfl)

theorem abortMissed_keeps (a0 : ℕ) (d : Dev) :
    DevKeeps 0x4000000000000000001002 d (abortMissed a0 d) := by
  unfold abortMissed
  exact (DevKeeps.step (DevKeeps.step (.refl _ _) (Dev.add_keeps _ _ _) (by rfl)) (finish_keeps _ _ _) rfl)

theorem abort_keeps (a0 : ℕ) (a1 : Slot) (d : Dev) :
    DevKeeps 0x38000000000000000000400000000000000001BA02 d (abort a0 a1 d) := by
  unfold abort
  refine iteP (P := DevKeeps 0x38000000000000000000400000000000000001BA02 d) (fun _ => ?_) (fun _ => ?_)
  · exact (DevKeeps.step (.refl _ _) (abortMissed_keeps _ _) rfl)
  · refine iteP (P := DevKeeps 0x38000000000000000000400000000000000001BA02 d) (fun _ => ?_) (fun _ => ?_)
    · exact (DevKeeps.step (.refl _ _) (finish_keeps _ _ _) rfl)
    · split
      · extract_lets -merge -underBinder +onlyGivenNames x0
        have h0 : DevKeeps 0x38000000000000000000400000000000000001BA02 d x0 := by
          subst x0
          exact (DevKeeps.step (.refl _ _) (Dev.modSlot_keeps _ _ _) rfl)
        clear_value x0
        extract_lets -merge -underBinder +onlyGivenNames x1
        have h1 : DevKeeps 0x38000000000000000000400000000000000001BA02 d x1 := by
          subst x1
          exact (DevKeeps.step h0 (withdrawCmd_keeps _ _ _) rfl)
        clear_value x1
        refine iteP (P := DevKeeps 0x38000000000000000000400000000000000001BA02 d) (fun _ => ?_) (fun _ => ?_)
        · exact (DevKeeps.step (DevKeeps.step h1 (Dev.add_keeps _ _ _) (by rfl)) (finish_keeps _ _ _) rfl)
        · exact (DevKeeps.step h0 (abortMissed_keeps _ _) rfl)
      · exact (DevKeeps.step (.refl _ _) (abortMissed_keeps _ _) rfl)

theorem execAbortCmd_keeps (a0 : Fin 131072) (s : State) :
    NextP (StateKeeps 0x38000000000000000000400000000000000001BA02 s) (execAbortCmd a0 s) := by
  unfold execAbortCmd
  refine onDev_keeps ?_
  beta_reduce
  refine onSlot_keeps ?_ rfl (fun z0 => ?_)
  · exact (.refl _ _)
  · beta_reduce
    refine OkP.ok ?_
    exact (DevKeeps.step (.refl _ _) (abort_keeps _ _ _) rfl)

theorem asyncRequest_keeps (a0 : ℕ) (a1 : Slot) (d : Dev) :
    DevKeeps 4096 d (asyncRequest a0 a1 d) := by
  unfold asyncRequest
  refine iteP (P := DevKeeps 4096 d) (fun _ => ?_) (fun _ => ?_)
  · exact (DevKeeps.step (.refl _ _) (finish_keeps _ _ _) rfl)
  · exact (DevKeeps.step (.refl _ _) (Dev.modSlot_keeps _ _ _) rfl)

theorem execAsynchronousEventRequest_keeps (a0 : Fin 131072) (s : State) :
    NextP (StateKeeps 4096 s) (execAsynchronousEventRequest a0 s) := by
  unfold execAsynchronousEventRequest
  refine onDev_keeps ?_
  beta_reduce
  refine onSlot_keeps ?_ rfl (fun z0 => ?_)
  · exact (.refl _ _)
  · beta_reduce
    refine OkP.ok ?_
    exact (DevKeeps.step (.refl _ _) (asyncRequest_keeps _ _ _) rfl)

end Sys2Proof.Machine
end

