-- ==== Sys2Proof/Laws/KeepZoneCmd.lean ====
section
/-! SUPPORT. What each operation of Machine/ZoneCmd.lean leaves as it was. -/

namespace Sys2Proof.Machine

theorem waitIo_keeps (a0 : ℕ) (d : Dev) :
    DevKeeps 4096 d (waitIo a0 d) := by
  unfold waitIo
  exact (DevKeeps.step (.refl _ _) (Dev.modSlot_keeps _ _ _) rfl)

theorem countEntryWait_keeps (a0 : ℕ) (d : Dev) :
    DevKeeps 0x20000000000000000000000000000001002 d (countEntryWait a0 d) := by
  unfold countEntryWait
  refine iteP (P := DevKeeps 0x20000000000000000000000000000001002 d) (fun _ => ?_) (fun _ => ?_)
  · exact (.refl _ _)
  · exact (DevKeeps.step (DevKeeps.step (.refl _ _) (Dev.add_keeps _ _ _) (by rfl)) (Dev.modSlot_keeps _ _ _) rfl)

theorem askProgram_keeps (a0 : ℕ) (a1 : ℕ) (a2 : ℕ) (d : Dev) :
    DevKeeps 6291456 d (askProgram a0 a1 a2 d) := by
  unfold askProgram
  split
  · split
    · extract_lets -merge -underBinder +onlyGivenNames x0
      clear_value x0
      exact (DevKeeps.step (.refl _ _) (askMedia_keeps _ _ _) rfl)
    · exact (.refl _ _)
  · exact (.refl _ _)

theorem abandonRowWork_keeps (a0 : ℕ) (a1 : ℕ) (d : Dev) :
    DevKeeps 16384 d (abandonRowWork a0 a1 d) := by
  unfold abandonRowWork
  exact (DevKeeps.step (.refl _ _) (Dev.modMed_keeps _ _) rfl)

theorem abandonMigration_keeps (a0 : Zone) (d : Dev) :
    DevKeeps 16384 d (abandonMigration a0 d) := by
  unfold abandonMigration
  split
  · exact (DevKeeps.step (.refl _ _) (Dev.modMed_keeps _ _) rfl)
  · exact (.refl _ _)

theorem emptyZone_keeps (a0 : ℕ) (a1 : ℕ) (a2 : ℕ) (d : Dev) :
    DevKeeps 0x4000000000000000000069F812 d (emptyZone a0 a1 a2 d) := by
  unfold emptyZone
  extract_lets -merge -underBinder +onlyGivenNames x0
  clear_value x0
  extract_lets -merge -underBinder +onlyGivenNames x1
  have h1 : DevKeeps 0x4000000000000000000069F812 d x1 := by
    subst x1
    exact (DevKeeps.step (.refl _ _) (discardStaged_keeps _ _ _ _) rfl)
  clear_value x1
  extract_lets -merge -underBinder +onlyGivenNames x2
  have h2 : DevKeeps 0x4000000000000000000069F812 d x2 := by
    subst x2
    split
    · exact (DevKeeps.step (DevKeeps.step h1 (abandonRowWork_keeps _ _ _) rfl) (releaseRow_keeps _ _ _ _) rfl)
    · exact h1
  clear_value x2
  extract_lets -merge -underBinder +onlyGivenNames x3
  have h3 : DevKeeps 0x4000000000000000000069F812 d x3 := by
    subst x3
    exact (DevKeeps.step h2 (Dev.modZone_keeps _ _ _ _) rfl)
  clear_value x3
  exact (DevKeeps.step h3 (syncZone_keeps _ _ _) rfl)

theorem openEmpty_keeps (a0 : ℕ) (a1 : ℕ) (a2 : ℕ) (a3 : Ns) (a4 : ZoneState) (d : Dev) :
    OkP (DevKeeps 647168 d) (openEmpty a0 a1 a2 a3 a4 d) := by
  unfold openEmpty
  split
  · refine OkP.ok ?_
    exact (DevKeeps.step (DevKeeps.step (.refl _ _) (bindZone_keeps _ _ _ _ _ _) rfl) (syncZone_keeps _ _ _) rfl)
  · exact trivial

theorem sendOpen_keeps (a0 : ℕ) (a1 : ℕ) (a2 : ℕ) (a3 : Ns) (a4 : Bool) (d : Dev) :
    OkP (DevKeeps 647168 d) (sendOpen a0 a1 a2 a3 a4 d) := by
  unfold sendOpen
  split
  · refine iteP (P := OkP (DevKeeps 647168 d)) (fun _ => ?_) (fun _ => ?_)
    · refine OkP.ok ?_
      exact (.refl _ _)
    · exact DevKeeps.stepOk (.refl _ _) (openEmpty_keeps _ _ _ _ _ _) rfl
  · refine OkP.ok ?_
    exact (DevKeeps.step (DevKeeps.step (.refl _ _) (Dev.modZone_keeps _ _ _ _) rfl) (syncZone_keeps _ _ _) rfl)
  · refine iteP (P := OkP (DevKeeps 647168 d)) (fun _ => ?_) (fun _ => ?_)
    · refine OkP.ok ?_
      exact (.refl _ _)
    · refine OkP.ok ?_
      exact (DevKeeps.step (DevKeeps.step (.refl _ _) (Dev.modZone_keeps _ _ _ _) rfl) (syncZone_keeps _ _ _) rfl)
  · refine OkP.ok ?_
    exact (.refl _ _)
  · refine iteP (P := OkP (DevKeeps 647168 d)) (fun _ => ?_) (fun _ => ?_)
    · refine OkP.ok ?_
      exact (.refl _ _)
    · exact trivial

theorem sendClose_keeps (a0 : ℕ) (a1 : ℕ) (a2 : Bool) (d : Dev) :
    OkP (DevKeeps 106496 d) (sendClose a0 a1 a2 d) := by
  unfold sendClose
  split
  · refine OkP.ok ?_
    exact (DevKeeps.step (DevKeeps.step (.refl _ _) (Dev.modZone_keeps _ _ _ _) rfl) (syncZone_keeps _ _ _) rfl)
  · refine OkP.ok ?_
    exact (DevKeeps.step (DevKeeps.step (.refl _ _) (Dev.modZone_keeps _ _ _ _) rfl) (syncZone_keeps _ _ _) rfl)
  · refine iteP (P := OkP (DevKeeps 106496 d)) (fun _ => ?_) (fun _ => ?_)
    · refine OkP.ok ?_
      exact (.refl _ _)
    · exact trivial

theorem fillZone_keeps (a0 : ℕ) (a1 : ℕ) (d : Dev) :
    DevKeeps 6416385 d (fillZone a0 a1 d) := by
  unfold fillZone
  extract_lets -merge -underBinder +onlyGivenNames x0
  have h0 : DevKeeps 6416385 d x0 := by
    subst x0
    exact (DevKeeps.step (.refl _ _) (abandonMigration_keeps _ _) rfl)
  clear_value x0
  extract_lets -merge -underBinder +onlyGivenNames x1
  have h1 : DevKeeps 6416385 d x1 := by
    subst x1
    exact (DevKeeps.step (DevKeeps.step h0 (Dev.modZone_keeps _ _ _ _) rfl) (syncZone_keeps _ _ _) rfl)
  clear_value x1
  exact (DevKeeps.step (DevKeeps.step h1 (padUnit_keeps _ _ _) rfl) (askProgram_keeps _ _ _ _) rfl)

theorem sendFinish_keeps (a0 : ℕ) (a1 : ℕ) (a2 : ℕ) (a3 : Ns) (a4 : Bool) (d : Dev) :
    OkP (DevKeeps 6940673 d) (sendFinish a0 a1 a2 a3 a4 d) := by
  unfold sendFinish
  split
  · refine iteP (P := OkP (DevKeeps 6940673 d)) (fun _ => ?_) (fun _ => ?_)
    · refine OkP.ok ?_
      exact (.refl _ _)
    · split
      · rename_i v0_0 q0
        have h1 : DevKeeps 6940673 d v0_0 := by
          refine OkP.get (P := (DevKeeps 6940673 d)) ?_ q0
          exact DevKeeps.stepOk (.refl _ _) (openEmpty_keeps _ _ _ _ _ _) rfl
        refine OkP.ok ?_
        exact (DevKeeps.step h1 (fillZone_keeps _ _ _) rfl)
      · exact trivial
  · refine OkP.ok ?_
    exact (DevKeeps.step (.refl _ _) (fillZone_keeps _ _ _) rfl)
  · refine OkP.ok ?_
    exact (DevKeeps.step (.refl _ _) (fillZone_keeps _ _ _) rfl)
  · refine OkP.ok ?_
    exact (DevKeeps.step (.refl _ _) (fillZone_keeps _ _ _) rfl)
  · refine OkP.ok ?_
    exact (DevKeeps.step (.refl _ _) (abandonMigration_keeps _ _) rfl)
  · refine iteP (P := OkP (DevKeeps 6940673 d)) (fun _ => ?_) (fun _ => ?_)
    · refine OkP.ok ?_
      exact (.refl _ _)
    · exact trivial

theorem sendReset_keeps (a0 : ℕ) (a1 : ℕ) (a2 : ℕ) (a3 : Bool) (d : Dev) :
    OkP (DevKeeps 0x4000000000000000000069F812 d) (sendReset a0 a1 a2 a3 d) := by
  unfold sendReset
  split
  · refine OkP.ok ?_
    exact (.refl _ _)
  · refine OkP.ok ?_
    exact (DevKeeps.step (.refl _ _) (emptyZone_keeps _ _ _ _) rfl)
  · refine OkP.ok ?_
    exact (DevKeeps.step (.refl _ _) (emptyZone_keeps _ _ _ _) rfl)
  · refine OkP.ok ?_
    exact (DevKeeps.step (.refl _ _) (emptyZone_keeps _ _ _ _) rfl)
  · refine OkP.ok ?_
    exact (DevKeeps.step (.refl _ _) (emptyZone_keeps _ _ _ _) rfl)
  · refine iteP (P := OkP (DevKeeps 0x4000000000000000000069F812 d)) (fun _ => ?_) (fun _ => ?_)
    · refine OkP.ok ?_
      exact (.refl _ _)
    · exact trivial

theorem sendOffline_keeps (a0 : ℕ) (a1 : ℕ) (a2 : Bool) (d : Dev) :
    OkP (DevKeeps 90112 d) (sendOffline a0 a1 a2 d) := by
  unfold sendOffline
  split
  · refine OkP.ok ?_
    exact (DevKeeps.step (DevKeeps.step (.refl _ _) (abandonMigration_keeps _ _) rfl) (Dev.modZone_keeps _ _ _ _) rfl)
  · refine iteP (P := OkP (DevKeeps 90112 d)) (fun _ => ?_) (fun _ => ?_)
    · refine OkP.ok ?_
      exact (.refl _ _)
    · exact trivial

theorem sendReground_keeps (a0 : ℕ) (a1 : ℕ) (a2 : ℕ) (a3 : Bool) (d : Dev) :
    OkP (DevKeeps 0x4000000000000000000069F812 d) (sendReground a0 a1 a2 a3 d) := by
  unfold sendReground
  extract_lets -merge -underBinder +onlyGivenNames x0
  clear_value x0
  split
  · split
    · refine iteP (P := OkP (DevKeeps 0x4000000000000000000069F812 d)) (fun _ => ?_) (fun _ => ?_)
      · split
        · rename_i v1_0 v1_1 q1
          have h2 : DevKeeps 0x4000000000000000000069F812 d v1_0 := by
            refine FstP.get (P := (DevKeeps 0x4000000000000000000069F812 d)) ?_ q1
            exact DevKeeps.stepFst (.refl _ _) (retireReserved_keeps _ _ _ _ _) rfl
          extract_lets -merge -underBinder +onlyGivenNames x3
          have h3 : DevKeeps 0x4000000000000000000069F812 d x3 := by
            subst x3
            exact (DevKeeps.step (DevKeeps.step h2 (abandonRowWork_keeps _ _ _) rfl) (discardStaged_keeps _ _ _ _) rfl)
          clear_value x3
          refine iteP (P := OkP (DevKeeps 0x4000000000000000000069F812 d)) (fun _ => ?_) (fun _ => ?_)
          · refine OkP.ok ?_
            exact (DevKeeps.step (DevKeeps.step h3 (Dev.modZone_keeps _ _ _ _) rfl) (syncZone_keeps _ _ _) rfl)
          · exact trivial
      · refine OkP.ok ?_
        exact (DevKeeps.step (.refl _ _) (emptyZone_keeps _ _ _ _) rfl)
    · refine OkP.ok ?_
      exact (DevKeeps.step (.refl _ _) (emptyZone_keeps _ _ _ _) rfl)
  · refine iteP (P := OkP (DevKeeps 0x4000000000000000000069F812 d)) (fun _ => ?_) (fun _ => ?_)
    · refine OkP.ok ?_
      exact (.refl _ _)
    · exact trivial

theorem waitOrder_keeps (a0 : ℕ) (d : Dev) :
    DevKeeps 4096 d (waitOrder a0 d) := by
  unfold waitOrder
  exact (DevKeeps.step (.refl _ _) (Dev.modSlot_keeps _ _ _) rfl)

theorem endSend_keeps {m k : Nat} {r : Except Cpl Dev} {d0 d : Dev} (hd : DevKeeps m d0 d) (hr : OkP (DevKeeps m d0) r)
    (hm : m ||| 0x40000000000000000000001002 = m) : DevKeeps m d0 (endSend k r d) := by
  unfold endSend
  split
  · exact DevKeeps.step (e := _) hr (finish_keeps _ _ _) (by rw [← hm, Nat.or_assoc]; congr 1)
  · exact (hd.step (bindRefused_keeps _ _) (by rw [← hm, Nat.or_assoc]; congr 1)).step (finish_keeps _ _ _) (by rw [← hm, Nat.or_assoc]; congr 1)

theorem sendAll_keeps {m nsid : Nat} {zs : List Nat} {f : Nat → Dev → Except Cpl Dev} {d0 d : Dev} (hd : DevKeeps m d0 d)
    (h : ∀ z e, DevKeeps m d0 e → OkP (DevKeeps m d0) (f z e)) : FstP (DevKeeps m d0) (sendAll nsid zs f d) := by
  unfold sendAll
  refine FstP.foldl (FstP.mk hd) fun y a hy => ?_
  try dsimp only
  split
  · exact hy
  · split
    · next e he => exact FstP.mk ((h _ _ hy.fst).get he)
    · exact FstP.mk hy.fst

theorem zoneSend_keeps {m zsa k : Nat} {f : Nat → Ns → Nat → Nat → Bool → Dev → Except Cpl Dev} {d0 d : Dev} (hd : DevKeeps m d0 d)
    (h : ∀ n ns z i b e, DevKeeps m d0 e → OkP (DevKeeps m d0) (f n ns z i b e)) (hm : m ||| 0x20000000040000000000000000000001002 = m) :
    OkP (DevKeeps m d0) (zoneSend zsa f k d) := by
  have m1 : m.testBit 12 = true := by rw [← hm]; simp; right; decide
  have hf : ∀ c e, DevKeeps m d0 e → DevKeeps m d0 (finish k c e) := fun c e he =>
    he.step (finish_keeps _ _ _) (by rw [← hm, Nat.or_assoc]; congr 1)
  have hi : ∀ e, DevKeeps m d0 e → DevKeeps m d0 (waitIo k e) := fun e he =>
    he.step (waitIo_keeps _ _) (by rw [← hm, Nat.or_assoc]; congr 1)
  have hw : ∀ e, DevKeeps m d0 e → DevKeeps m d0 (waitOrder k e) := fun e he =>
    he.step (waitOrder_keeps _ _) (by rw [← hm, Nat.or_assoc]; congr 1)
  have hmod : ∀ g e, DevKeeps m d0 e → DevKeeps m d0 (Dev.modSlot e k g) := fun g e he =>
    he.step (Dev.modSlot_keeps _ _ _) (by rw [← hm, Nat.or_assoc]; congr 1)
  unfold zoneSend
  refine onSlot_keeps hd m1 fun x => ?_
  try dsimp only
  split
  · trivial
  · split
    · exact OkP.ok (hf _ _ hd)
    · split
      · exact OkP.ok (hf _ _ hd)
      refine iteP (P := OkP (DevKeeps m d0)) (fun _ => OkP.ok (hi _ hd)) (fun _ => ?_)
      · split
        · split
          · exact OkP.ok (hw _ hd)
          · exact OkP.ok (hf _ _ (hmod _ _ (sendAll_keeps hd fun z e he => h _ _ _ _ _ _ he).fst))
        · split
          · exact OkP.ok (hf _ _ hd)
          · split
            · exact OkP.ok (hf _ _ hd)
            · split
              · exact OkP.ok (hf _ _ hd)
              · split
                · exact OkP.ok (hw _ hd)
                · split
                  · exact OkP.ok (hw _ (hd.step (countEntryWait_keeps _ _) (by rw [← hm, Nat.or_assoc]; congr 1)))
                  · exact OkP.ok (endSend_keeps (hmod _ _ hd) (h _ _ _ _ _ _ hd) (by rw [← hm, Nat.or_assoc]; congr 1))

theorem execZoneClose_keeps (a0 : Fin 131072) (s : State) :
    NextP (StateKeeps 0x2000000004000000000000000000001B002 s) (execZoneClose a0 s) := by
  unfold execZoneClose
  refine onDev_keeps ?_
  refine zoneSend_keeps ?_ (fun _ _ _ _ _ e0 h0 => ?_) rfl
  · exact (.refl _ _)
  · beta_reduce
    exact DevKeeps.stepOk h0 (sendClose_keeps _ _ _ _) rfl

theorem execZoneFinish_keeps (a0 : Fin 131072) (s : State) :
    NextP (StateKeeps 0x2000000004000000000000000000069F803 s) (execZoneFinish a0 s) := by
  unfold execZoneFinish
  refine onDev_keeps ?_
  refine zoneSend_keeps ?_ (fun _ _ _ _ _ e0 h0 => ?_) rfl
  · exact (.refl _ _)
  · beta_reduce
    exact DevKeeps.stepOk h0 (sendFinish_keeps _ _ _ _ _ _) rfl

theorem execZoneOpen_keeps (a0 : Fin 131072) (s : State) :
    NextP (StateKeeps 0x2000000004000000000000000000009F002 s) (execZoneOpen a0 s) := by
  unfold execZoneOpen
  refine onDev_keeps ?_
  refine zoneSend_keeps ?_ (fun _ _ _ _ _ e0 h0 => ?_) rfl
  · exact (.refl _ _)
  · beta_reduce
    exact DevKeeps.stepOk h0 (sendOpen_keeps _ _ _ _ _ _) rfl

theorem execZoneReset_keeps (a0 : Fin 131072) (s : State) :
    NextP (StateKeeps 0x2000000004000000000000000000069F812 s) (execZoneReset a0 s) := by
  unfold execZoneReset
  refine onDev_keeps ?_
  refine zoneSend_keeps ?_ (fun _ _ _ _ _ e0 h0 => ?_) rfl
  · exact (.refl _ _)
  · beta_reduce
    exact DevKeeps.stepOk h0 (sendReset_keeps _ _ _ _ _) rfl

theorem execZoneOffline_keeps (a0 : Fin 131072) (s : State) :
    NextP (StateKeeps 0x20000000040000000000000000000017002 s) (execZoneOffline a0 s) := by
  unfold execZoneOffline
  refine onDev_keeps ?_
  refine zoneSend_keeps ?_ (fun _ _ _ _ _ e0 h0 => ?_) rfl
  · exact (.refl _ _)
  · beta_reduce
    exact DevKeeps.stepOk h0 (sendOffline_keeps _ _ _ _) rfl

theorem execZoneReground_keeps (a0 : Fin 131072) (s : State) :
    NextP (StateKeeps 0x2000000004000000000000000000069F812 s) (execZoneReground a0 s) := by
  unfold execZoneReground
  refine onDev_keeps ?_
  refine zoneSend_keeps ?_ (fun _ _ _ _ _ e0 h0 => ?_) rfl
  · exact (.refl _ _)
  · beta_reduce
    exact DevKeeps.stepOk h0 (sendReground_keeps _ _ _ _ _) rfl

theorem zoneRecv_keeps {m zra k : Nat} {f : Dev → Ns → Nat → Sqe → Except Cpl (List Byte)} {d0 d : Dev} (hd : DevKeeps m d0 d)
    (hm : m ||| 4198400 = m) : OkP (DevKeeps m d0) (zoneRecv zra f k d) := by
  have m1 : m.testBit 12 = true := by rw [← hm]; simp; right; decide
  have hf : ∀ c e, DevKeeps m d0 e → DevKeeps m d0 (finish k c e) := fun c e he =>
    he.step (finish_keeps _ _ _) (by rw [← hm, Nat.or_assoc]; congr 1)
  have hi : ∀ e, DevKeeps m d0 e → DevKeeps m d0 (waitIo k e) := fun e he =>
    he.step (waitIo_keeps _ _) (by rw [← hm, Nat.or_assoc]; congr 1)
  unfold zoneRecv
  refine onSlot_keeps hd m1 fun x => ?_
  try dsimp only
  split
  · trivial
  · split
    · exact OkP.ok (hf _ _ hd)
    · split
      · exact OkP.ok (hf _ _ hd)
      refine iteP (P := OkP (DevKeeps m d0)) (fun _ => OkP.ok (hi _ hd)) (fun _ => ?_)
      · split
        · exact OkP.ok (hd.step (waitOrder_keeps _ _) (by rw [← hm, Nat.or_assoc]; congr 1))
        · split
          · exact OkP.ok (hf _ _ (hd.step (Dev.send_keeps _ _) (by rw [← hm, Nat.or_assoc]; congr 1)))
          · exact OkP.ok (hf _ _ hd)

theorem execReportZones_keeps (a0 : Fin 131072) (s : State) :
    NextP (StateKeeps 4198400 s) (execReportZones a0 s) := by
  unfold execReportZones
  refine onDev_keeps ?_
  refine zoneRecv_keeps ?_ rfl
  exact (.refl _ _)

theorem execExtendedReportZones_keeps (a0 : Fin 131072) (s : State) :
    NextP (StateKeeps 4198400 s) (execExtendedReportZones a0 s) := by
  unfold execExtendedReportZones
  refine onDev_keeps ?_
  refine zoneRecv_keeps ?_ rfl
  exact (.refl _ _)

theorem execReportZonePlacement_keeps (a0 : Fin 131072) (s : State) :
    NextP (StateKeeps 4198400 s) (execReportZonePlacement a0 s) := by
  unfold execReportZonePlacement
  refine onDev_keeps ?_
  refine zoneRecv_keeps ?_ rfl
  exact (.refl _ _)

theorem padMarked_keeps (a0 : ℕ) (a1 : ℕ) (d : Dev) :
    DevKeeps 2049 d (padMarked a0 a1 d) := by
  unfold padMarked
  split
  · refine iteP (P := DevKeeps 2049 d) (fun _ => ?_) (fun _ => ?_)
    · exact (.refl _ _)
    · exact (DevKeeps.step (.refl _ _) (padUnit_keeps _ _ _) rfl)
  · exact (.refl _ _)

theorem markZone_keeps (a0 : ℕ) (a1 : ℕ) (a2 : ℕ) (d : Dev) :
    DevKeeps 6383617 d (markZone a0 a1 a2 d) := by
  unfold markZone
  extract_lets -merge -underBinder +onlyGivenNames x0
  clear_value x0
  extract_lets -merge -underBinder +onlyGivenNames x1
  have h1 : DevKeeps 6383617 d x1 := by
    subst x1
    split
    · refine iteP (P := DevKeeps 6383617 d) (fun _ => ?_) (fun _ => ?_)
      · exact (.refl _ _)
      · exact (DevKeeps.step (.refl _ _) (Dev.modRow_keeps _ _ _ _) rfl)
    · exact (.refl _ _)
  clear_value x1
  refine iteP (P := DevKeeps 6383617 d) (fun _ => ?_) (fun _ => ?_)
  · exact (.refl _ _)
  · exact (DevKeeps.step (DevKeeps.step (DevKeeps.step (DevKeeps.step h1 (abandonMigration_keeps _ _) rfl) (Dev.modZone_keeps _ _ _ _) rfl) (padMarked_keeps _ _ _) rfl) (askProgram_keeps _ _ _ _) rfl)

theorem wornMark_keeps (a0 : ℕ) (a1 : ℕ) (a2 : ℕ) (d : Dev) :
    DevKeeps 6383617 d (wornMark a0 a1 a2 d) := by
  unfold wornMark
  split
  · exact (DevKeeps.step (.refl _ _) (markZone_keeps _ _ _ _) rfl)
  · exact (.refl _ _)

theorem zoneReadOnly_keeps (a0 : ℕ) (a1 : ℕ) (d : Dev) :
    OkP (DevKeeps 0x4000000000000000000001F002 d) (zoneReadOnly a0 a1 d) := by
  unfold zoneReadOnly
  extract_lets -merge -underBinder +onlyGivenNames x0
  clear_value x0
  split
  · extract_lets -merge -underBinder +onlyGivenNames x1
    clear_value x1
    extract_lets -merge -underBinder +onlyGivenNames x2
    have h2 : DevKeeps 0x4000000000000000000001F002 d x2 := by
      subst x2
      exact (DevKeeps.step (.refl _ _) (Dev.modZone_keeps _ _ _ _) rfl)
    clear_value x2
    refine iteP (P := OkP (DevKeeps 0x4000000000000000000001F002 d)) (fun _ => ?_) (fun _ => ?_)
    · exact trivial
    · refine OkP.ok ?_
      exact (DevKeeps.step (DevKeeps.step h2 (reportZone_keeps _ _ _ _ _) rfl) (syncZone_keeps _ _ _) rfl)
  · exact trivial

theorem execZoneReadOnlyEntry_keeps (a0 : Fin 4097) (a1 : Fin 524288) (s : State) :
    NextP (StateKeeps 0x4000000000000000000001F002 s) (execZoneReadOnlyEntry a0 a1 s) := by
  unfold execZoneReadOnlyEntry
  refine onDev_keeps ?_
  exact DevKeeps.stepOk (.refl _ _) (zoneReadOnly_keeps _ _ _) rfl

theorem dataAge_keeps (a0 : ℕ) (a1 : ℕ) (d : Dev) :
    OkP (DevKeeps 6383617 d) (dataAge a0 a1 d) := by
  unfold dataAge
  split
  · refine iteP (P := OkP (DevKeeps 6383617 d)) (fun _ => ?_) (fun _ => ?_)
    · refine OkP.ok ?_
      exact (DevKeeps.step (.refl _ _) (wornMark_keeps _ _ _ _) rfl)
    · exact trivial
  · exact trivial

theorem execDataAgeExpiry_keeps (a0 : Fin 96) (a1 : Fin 3600) (s : State) :
    NextP (StateKeeps 6383617 s) (execDataAgeExpiry a0 a1 s) := by
  unfold execDataAgeExpiry
  refine onDev_keeps ?_
  exact DevKeeps.stepOk (.refl _ _) (dataAge_keeps _ _ _) rfl

end Sys2Proof.Machine
end

