-- ==== Sys2Proof/Laws/KeepEcc.lean ====
section
/-! SUPPORT. What each operation of Machine/Ecc.lean leaves as it was. -/

namespace Sys2Proof.Machine

theorem Dev.setBucket_keeps (d : Dev) (a1 : ℕ) (a2 : Bucket) :
    DevKeeps 64 d (Dev.setBucket d a1 a2) := by
  unfold Dev.setBucket
  extract_lets -merge -underBinder +onlyGivenNames x0
  clear_value x0
  exact DevKeeps.set_ecc _ (.refl _ _) rfl

theorem setOver_keeps (a0 : ℕ) (d : Dev) :
    DevKeeps 0x60000000000000000000000000000000000000000000000000000000002 d (setOver a0 d) := by
  unfold setOver
  refine iteP (P := DevKeeps 0x60000000000000000000000000000000000000000000000000000000002 d) (fun _ => ?_) (fun _ => ?_)
  · exact (DevKeeps.step (.refl _ _) (Dev.wr_keeps _ _ _) (by rfl))
  · exact (DevKeeps.step (.refl _ _) (Dev.wr_keeps _ _ _) (by rfl))

theorem bucketEvent_keeps (a0 : ℕ) (d : Dev) :
    DevKeeps 0x70000000000000000000000000000000000000000000000000000010042 d (bucketEvent a0 d) := by
  unfold bucketEvent
  extract_lets -merge -underBinder +onlyGivenNames x0
  clear_value x0
  extract_lets -merge -underBinder +onlyGivenNames x1
  clear_value x1
  extract_lets -merge -underBinder +onlyGivenNames x2
  clear_value x2
  extract_lets -merge -underBinder +onlyGivenNames x3
  have h3 : DevKeeps 0x70000000000000000000000000000000000000000000000000000010042 d x3 := by
    subst x3
    exact (DevKeeps.step (.refl _ _) (Dev.setBucket_keeps _ _ _) rfl)
  clear_value x3
  extract_lets -merge -underBinder +onlyGivenNames x4
  have h4 : DevKeeps 0x70000000000000000000000000000000000000000000000000000010042 d x4 := by
    subst x4
    exact (DevKeeps.step h3 (Dev.wrb_keeps _ _ _ _) (by rfl))
  clear_value x4
  refine iteP (P := DevKeeps 0x70000000000000000000000000000000000000000000000000000010042 d) (fun _ => ?_) (fun _ => ?_)
  · exact (DevKeeps.step (DevKeeps.step h4 (setOver_keeps _ _) rfl) (tellEtchings_keeps _ _ _) rfl)
  · exact h4

theorem bucketDrain_keeps (a0 : ℕ) (d : Dev) :
    DevKeeps 64 d (bucketDrain a0 d) := by
  unfold bucketDrain
  extract_lets -merge -underBinder +onlyGivenNames x0
  clear_value x0
  extract_lets -merge -underBinder +onlyGivenNames x1
  clear_value x1
  exact (DevKeeps.step (.refl _ _) (Dev.setBucket_keeps _ _ _) rfl)

theorem Dev.modEcc_keeps (d : Dev) (a1 : Ecc → Ecc) :
    DevKeeps 64 d (Dev.modEcc d a1) := by
  unfold Dev.modEcc
  exact DevKeeps.set_ecc _ (.refl _ _) rfl

theorem notice_keeps (a0 : ℕ) (a1 : EccItem) (a2 : ℕ) (a3 : ℕ) (a4 : ℕ) (d : Dev) :
    DevKeeps 0x4800000000000000000000000000000000000000000000000000000000042 d (notice a0 a1 a2 a3 a4 d) := by
  unfold notice
  extract_lets -merge -underBinder +onlyGivenNames x0
  clear_value x0
  extract_lets -merge -underBinder +onlyGivenNames x1
  clear_value x1
  refine iteP (P := DevKeeps 0x4800000000000000000000000000000000000000000000000000000000042 d) (fun _ => ?_) (fun _ => ?_)
  · exact (DevKeeps.step (DevKeeps.step (.refl _ _) (Dev.add_keeps _ _ _) (by rfl)) (Dev.wr_keeps _ _ _) (by rfl))
  · exact (DevKeeps.step (.refl _ _) (Dev.modEcc_keeps _ _) rfl)

theorem decoded_keeps (a0 : EccItem) (a1 : Bool) (d : Dev) :
    SndP (DevKeeps 0x4870000000000000000000000000000000000000000000000000000010043 d) (decoded a0 a1 d) := by
  unfold decoded
  split
  · refine SndP.mk ?_
    exact (.refl _ _)
  · extract_lets -merge -underBinder +onlyGivenNames x0
    clear_value x0
    refine iteP (P := SndP (DevKeeps 0x4870000000000000000000000000000000000000000000000000000010043 d)) (fun _ => ?_) (fun _ => ?_)
    · refine iteP (P := SndP (DevKeeps 0x4870000000000000000000000000000000000000000000000000000010043 d)) (fun _ => ?_) (fun _ => ?_)
      · refine SndP.mk ?_
        exact (DevKeeps.step (.refl _ _) (Dev.tick_keeps _ _) rfl)
      · refine SndP.mk ?_
        exact (.refl _ _)
    · refine iteP (P := SndP (DevKeeps 0x4870000000000000000000000000000000000000000000000000000010043 d)) (fun _ => ?_) (fun _ => ?_)
      · refine SndP.mk ?_
        exact (.refl _ _)
      · refine SndP.mk ?_
        exact (DevKeeps.step (DevKeeps.step (DevKeeps.step (.refl _ _) (Dev.add_keeps _ _ _) (by rfl)) (Dev.wr_keeps _ _ _) (by rfl)) (bucketEvent_keeps _ _) rfl)

theorem releaseCw_keeps (a0 : EccItem) (a1 : Held → Held) (d : Dev) :
    DevKeeps 0x100000000000000000000000000000000000000000000000000000000000000000000000000000000000000004012 d (releaseCw a0 a1 d) := by
  unfold releaseCw
  extract_lets -merge -underBinder +onlyGivenNames x0
  clear_value x0
  split
  · exact (.refl _ _)
  · extract_lets -merge -underBinder +onlyGivenNames x1
    clear_value x1
    extract_lets -merge -underBinder +onlyGivenNames x2
    have h2 : DevKeeps 0x100000000000000000000000000000000000000000000000000000000000000000000000000000000000000004012 d x2 := by
      subst x2
      exact (DevKeeps.step (.refl _ _) (Dev.modDie_keeps _ _ _ _) rfl)
    clear_value x2
    refine iteP (P := DevKeeps 0x100000000000000000000000000000000000000000000000000000000000000000000000000000000000000004012 d) (fun _ => ?_) (fun _ => ?_)
    · refine iteP (P := DevKeeps 0x100000000000000000000000000000000000000000000000000000000000000000000000000000000000000004012 d) (fun _ => ?_) (fun _ => ?_)
      · exact (DevKeeps.step h2 (endProof_keeps _ _ _) rfl)
      · exact h2
    · exact (DevKeeps.step (.refl _ _) (Dev.modDie_keeps _ _ _ _) rfl)

theorem toLane_keeps (a0 : ℕ) (a1 : ℕ) (a2 : ℕ) (a3 : Bool) (a4 : Sector) (d : Dev) :
    DevKeeps 512 d (toLane a0 a1 a2 a3 a4 d) := by
  unfold toLane
  extract_lets -merge -underBinder +onlyGivenNames x0
  clear_value x0
  exact DevKeeps.set_ciph _ (.refl _ _) rfl

theorem readEnd_keeps (a0 : ℕ) (d : Dev) :
    DevKeeps 4096 d (readEnd a0 d) := by
  unfold readEnd
  split
  · extract_lets -merge -underBinder +onlyGivenNames x0
    have h0 : DevKeeps 4096 d x0 := by
      subst x0
      exact (DevKeeps.step (.refl _ _) (Dev.modSlot_keeps _ _ _) rfl)
    clear_value x0
    extract_lets -merge -underBinder +onlyGivenNames x1
    clear_value x1
    extract_lets -merge -underBinder +onlyGivenNames x2
    have h2 : DevKeeps 4096 d x2 := by
      subst x2
      refine iteP (P := DevKeeps 4096 d) (fun _ => ?_) (fun _ => ?_)
      · exact (DevKeeps.step h0 (addErr_keeps _ _ _ _ _ _ _) rfl)
      · exact h0
    clear_value x2
    refine iteP (P := DevKeeps 4096 d) (fun _ => ?_) (fun _ => ?_)
    · exact (DevKeeps.step h2 (finish_keeps _ _ _) rfl)
    · exact h0
  · exact (.refl _ _)

theorem readLost_keeps (a0 : ℕ) (a1 : Cpl) (d : Dev) :
    DevKeeps 4096 d (readLost a0 a1 d) := by
  unfold readLost
  exact (DevKeeps.step (DevKeeps.step (.refl _ _) (Dev.modSlot_keeps _ _ _) rfl) (readEnd_keeps _ _) rfl)

theorem countUnrecovered_keeps (a0 : ℕ) (a1 : ℕ) (d : Dev) :
    DevKeeps 12288 d (countUnrecovered a0 a1 d) := by
  unfold countUnrecovered
  extract_lets -merge -underBinder +onlyGivenNames x0
  have h0 : DevKeeps 12288 d x0 := by
    subst x0
    exact (DevKeeps.step (.refl _ _) (Dev.modHost_keeps _ _) rfl)
  clear_value x0
  split
  · extract_lets -merge -underBinder +onlyGivenNames x1
    clear_value x1
    extract_lets -merge -underBinder +onlyGivenNames x2
    have h2 : DevKeeps 12288 d x2 := by
      subst x2
      exact (DevKeeps.step h0 (Dev.modNs_keeps _ _ _) rfl)
    clear_value x2
    exact (DevKeeps.step h2 (addErr_keeps _ _ _ _ _ _ _) rfl)
  · exact h0

theorem deliverGood_keeps (a0 : EccItem) (a1 : Sector) (d : Dev) :
    DevKeeps 6302336 d (deliverGood a0 a1 d) := by
  unfold deliverGood
  extract_lets -merge -underBinder +onlyGivenNames x0
  clear_value x0
  extract_lets -merge -underBinder +onlyGivenNames x1
  clear_value x1
  refine iteP (P := DevKeeps 6302336 d) (fun _ => ?_) (fun _ => ?_)
  · exact (.refl _ _)
  · split
    · refine iteP (P := DevKeeps 6302336 d) (fun _ => ?_) (fun _ => ?_)
      · exact (DevKeeps.step (.refl _ _) (toLane_keeps _ _ _ _ _ _) rfl)
      · exact (DevKeeps.step (.refl _ _) (sendFar_keeps _ _ _ _ _) rfl)
    · extract_lets -merge -underBinder +onlyGivenNames x2
      clear_value x2
      exact DevKeeps.set_par _ (.refl _ _) rfl
    · extract_lets -merge -underBinder +onlyGivenNames x3
      have h3 : DevKeeps 6302336 d x3 := by
        subst x3
        exact (DevKeeps.step (.refl _ _) (Dev.modPool_keeps _ _) rfl)
      clear_value x3
      extract_lets -merge -underBinder +onlyGivenNames x4
      clear_value x4
      refine iteP (P := DevKeeps 6302336 d) (fun _ => ?_) (fun _ => ?_)
      · exact (DevKeeps.step h3 (Dev.modZm_keeps _ _) rfl)
      · exact h3
    · exact (.refl _ _)

theorem lostEvent_keeps (a0 : EccItem) (d : Dev) :
    DevKeeps 81920 d (lostEvent a0 d) := by
  unfold lostEvent
  split
  · split
    · exact (DevKeeps.step (.refl _ _) (healthEvent_keeps _ _ _ _ _ _ _ _) rfl)
    · exact (DevKeeps.step (.refl _ _) (healthEvent_keeps _ _ _ _ _ _ _ _) rfl)

theorem markLost_keeps (a0 : EccItem) (d : Dev) :
    DevKeeps 0x8000000000000000617803 d (markLost a0 d) := by
  unfold markLost
  extract_lets -merge -underBinder +onlyGivenNames x0
  have h0 : DevKeeps 0x8000000000000000617803 d x0 := by
    subst x0
    refine DevKeeps.foldl ?_ (fun y1 a1 h1 => ?_)
    · exact (.refl _ _)
    · beta_reduce
      exact (DevKeeps.step (DevKeeps.step h1 (Dev.modZm_keeps _ _) rfl) (deferredError_keeps _ _ _ _ _) rfl)
  clear_value x0
  split
  · extract_lets -merge -underBinder +onlyGivenNames x2
    have h2 : DevKeeps 0x8000000000000000617803 d x2 := by
      subst x2
      exact (DevKeeps.step h0 (Dev.modZone_keeps _ _ _ _) rfl)
    clear_value x2
    exact (DevKeeps.step (DevKeeps.step h2 (deferredError_keeps _ _ _ _ _) rfl) (markZone_keeps _ _ _ _) rfl)
  · exact h0

theorem selfTestFailed_keeps (a0 : ℕ) (d : Dev) :
    DevKeeps 4096 d (selfTestFailed a0 d) := by
  unfold selfTestFailed
  exact (DevKeeps.step (.refl _ _) (Dev.modHost_keeps _ _) rfl)

theorem deliverLost_keeps (a0 : EccItem) (d : Dev) :
    DevKeeps 0x8000000000000000617883 d (deliverLost a0 d) := by
  unfold deliverLost
  extract_lets -merge -underBinder +onlyGivenNames x0
  have h0 : DevKeeps 0x8000000000000000617883 d x0 := by
    subst x0
    exact (DevKeeps.step (.refl _ _) (lostEvent_keeps _ _) rfl)
  clear_value x0
  extract_lets -merge -underBinder +onlyGivenNames x1
  clear_value x1
  refine iteP (P := DevKeeps 0x8000000000000000617883 d) (fun _ => ?_) (fun _ => ?_)
  · exact (.refl _ _)
  · split
    · refine iteP (P := DevKeeps 0x8000000000000000617883 d) (fun _ => ?_) (fun _ => ?_)
      · exact (DevKeeps.step (DevKeeps.step h0 (countUnrecovered_keeps _ _ _) rfl) (readLost_keeps _ _ _) rfl)
      · exact (DevKeeps.step h0 (sendFar_keeps _ _ _ _ _) rfl)
    · extract_lets -merge -underBinder +onlyGivenNames x2
      clear_value x2
      exact DevKeeps.set_par _ h0 rfl
    · exact (DevKeeps.step h0 (markLost_keeps _ _) rfl)
    · refine iteP (P := DevKeeps 0x8000000000000000617883 d) (fun _ => ?_) (fun _ => ?_)
      · exact (DevKeeps.step h0 (selfTestFailed_keeps _ _) rfl)
      · exact h0

theorem Dev.ldpcTag_keeps (d : Dev) :
    SndP (DevKeeps 64 d) (Dev.ldpcTag d) := by
  unfold Dev.ldpcTag
  refine SndP.mk ?_
  exact (DevKeeps.step (.refl _ _) (Dev.modEcc_keeps _ _) rfl)

theorem markReread_keeps (a0 : EccItem) (d : Dev) :
    DevKeeps 4096 d (markReread a0 d) := by
  unfold markReread
  refine iteP (P := DevKeeps 4096 d) (fun _ => ?_) (fun _ => ?_)
  · exact (DevKeeps.step (.refl _ _) (Dev.modSlot_keeps _ _ _) rfl)
  · exact (.refl _ _)

theorem Dev.setItem_keeps (d : Dev) (a1 : EccItem) (a2 : EccItem) :
    DevKeeps 64 d (Dev.setItem d a1 a2) := by
  unfold Dev.setItem
  exact (DevKeeps.step (.refl _ _) (Dev.modEcc_keeps _ _) rfl)

theorem Dev.dropItem_keeps (d : Dev) (a1 : EccItem) :
    DevKeeps 64 d (Dev.dropItem d a1) := by
  unfold Dev.dropItem
  exact (DevKeeps.step (.refl _ _) (Dev.modEcc_keeps _ _) rfl)

theorem postReread_keeps (a0 : EccItem) (a1 : ℕ) (d : Dev) :
    DevKeeps 0x180000000000000000000000000000000000000000000000000000000000000000000000000000000000000001052 d (postReread a0 a1 d) := by
  unfold postReread
  split
  · rename_i v0_0 v0_1 q0
    have h1 : DevKeeps 0x180000000000000000000000000000000000000000000000000000000000000000000000000000000000000001052 d v0_1 := by
      refine SndP.get (P := (DevKeeps 0x180000000000000000000000000000000000000000000000000000000000000000000000000000000000000001052 d)) ?_ q0
      exact DevKeeps.stepSnd (.refl _ _) (Dev.ldpcTag_keeps _) rfl
    extract_lets -merge -underBinder +onlyGivenNames x2
    clear_value x2
    extract_lets -merge -underBinder +onlyGivenNames x3
    have h3 : DevKeeps 0x180000000000000000000000000000000000000000000000000000000000000000000000000000000000000001052 d x3 := by
      subst x3
      exact (DevKeeps.step h1 (Dev.setItem_keeps _ _ _) rfl)
    clear_value x3
    exact (DevKeeps.step (DevKeeps.step h3 (markReread_keeps _ _) rfl) (takeDesc_keeps _ _ _ _) rfl)

theorem dropDetached_keeps (a0 : EccItem) (d : Dev) :
    DevKeeps 0x100000000000000000000000000000000000000000000000000000000000000000000000000000000000000004052 d (dropDetached a0 d) := by
  unfold dropDetached
  exact (DevKeeps.step (DevKeeps.step (.refl _ _) (Dev.dropItem_keeps _ _) rfl) (releaseCw_keeps _ _ _) rfl)

theorem proofDecoded_keeps (a0 : EccItem) (a1 : Bool) (a2 : ℕ) (d : Dev) :
    DevKeeps 0x100000000000000000000000000000000000000000000000000000000000000000000000000000000000000004052 d (proofDecoded a0 a1 a2 d) := by
  unfold proofDecoded
  extract_lets -merge -underBinder +onlyGivenNames x0
  clear_value x0
  extract_lets -merge -underBinder +onlyGivenNames x1
  clear_value x1
  extract_lets -merge -underBinder +onlyGivenNames x2
  clear_value x2
  exact (DevKeeps.step (DevKeeps.step (.refl _ _) (Dev.dropItem_keeps _ _) rfl) (releaseCw_keeps _ _ _) rfl)

theorem weakRow_keeps (a0 : EccItem) (d : Dev) :
    DevKeeps 6383617 d (weakRow a0 d) := by
  unfold weakRow
  split
  · refine iteP (P := DevKeeps 6383617 d) (fun _ => ?_) (fun _ => ?_)
    · exact (DevKeeps.step (.refl _ _) (wornMark_keeps _ _ _ _) rfl)
    · exact (DevKeeps.step (.refl _ _) (wantReplace_keeps _ _ _ _ _) rfl)

theorem trackLevel_keeps (a0 : EccItem) (a1 : ℕ) (a2 : ℕ) (d : Dev) :
    DevKeeps 6383617 d (trackLevel a0 a1 a2 d) := by
  unfold trackLevel
  extract_lets -merge -underBinder +onlyGivenNames x0
  have h0 : DevKeeps 6383617 d x0 := by
    subst x0
    exact (DevKeeps.step (.refl _ _) (Dev.modMed_keeps _ _) rfl)
  clear_value x0
  refine iteP (P := DevKeeps 6383617 d) (fun _ => ?_) (fun _ => ?_)
  · refine iteP (P := DevKeeps 6383617 d) (fun _ => ?_) (fun _ => ?_)
    · exact (DevKeeps.step h0 (weakRow_keeps _ _) rfl)
    · exact h0
  · exact (.refl _ _)

theorem stipErased_keeps (a0 : EccItem) (d : Dev) :
    DevKeeps 256 d (stipErased a0 d) := by
  unfold stipErased
  refine iteP (P := DevKeeps 256 d) (fun _ => ?_) (fun _ => ?_)
  · exact (DevKeeps.step (.refl _ _) (Dev.modStip_keeps _ _ _) rfl)
  · exact (.refl _ _)

theorem hardDone_keeps (a0 : EccItem) (a1 : DecodeResult) (d : Dev) :
    DevKeeps 0x180000000000000000000000000000004A70000000000000000000000000000000000000000000000000000617BD3 d (hardDone a0 a1 d) := by
  unfold hardDone
  extract_lets -merge -underBinder +onlyGivenNames x0
  clear_value x0
  extract_lets -merge -underBinder +onlyGivenNames x1
  clear_value x1
  split
  · rename_i v2_0 v2_1 q2
    have h3 : DevKeeps 0x180000000000000000000000000000004A70000000000000000000000000000000000000000000000000000617BD3 d v2_1 := by
      refine SndP.get (P := (DevKeeps 0x180000000000000000000000000000004A70000000000000000000000000000000000000000000000000000617BD3 d)) ?_ q2
      refine iteP (P := SndP (DevKeeps 0x180000000000000000000000000000004A70000000000000000000000000000000000000000000000000000617BD3 d)) (fun _ => ?_) (fun _ => ?_)
      · exact DevKeeps.stepSnd (.refl _ _) (decoded_keeps _ _ _) rfl
      · refine SndP.mk ?_
        exact (.refl _ _)
    extract_lets -merge -underBinder +onlyGivenNames x4
    have h4 : DevKeeps 0x180000000000000000000000000000004A70000000000000000000000000000000000000000000000000000617BD3 d x4 := by
      subst x4
      refine iteP (P := DevKeeps 0x180000000000000000000000000000004A70000000000000000000000000000000000000000000000000000617BD3 d) (fun _ => ?_) (fun _ => ?_)
      · exact (DevKeeps.step h3 (notice_keeps _ _ _ _ _ _) rfl)
      · exact h3
    clear_value x4
    split
    · extract_lets -merge -underBinder +onlyGivenNames x5
      have h5 : DevKeeps 0x180000000000000000000000000000004A70000000000000000000000000000000000000000000000000000617BD3 d x5 := by
        subst x5
        refine iteP (P := DevKeeps 0x180000000000000000000000000000004A70000000000000000000000000000000000000000000000000000617BD3 d) (fun _ => ?_) (fun _ => ?_)
        · exact (DevKeeps.step h4 (weakRow_keeps _ _) rfl)
        · exact h4
      clear_value x5
      refine iteP (P := DevKeeps 0x180000000000000000000000000000004A70000000000000000000000000000000000000000000000000000617BD3 d) (fun _ => ?_) (fun _ => ?_)
      · refine DevKeeps.step ?_ (proofDecoded_keeps _ _ _ _) rfl
        refine iteP (P := DevKeeps 0x180000000000000000000000000000004A70000000000000000000000000000000000000000000000000000617BD3 d) (fun _ => ?_) (fun _ => ?_)
        · exact (DevKeeps.step h5 (trackLevel_keeps _ _ _ _) rfl)
        · exact h5
      · exact (DevKeeps.step (DevKeeps.step (DevKeeps.step h5 (Dev.dropItem_keeps _ _) rfl) (releaseCw_keeps _ _ _) rfl) (deliverGood_keeps _ _ _) rfl)
    · extract_lets -merge -underBinder +onlyGivenNames x6
      have h6 : DevKeeps 0x180000000000000000000000000000004A70000000000000000000000000000000000000000000000000000617BD3 d x6 := by
        subst x6
        exact (DevKeeps.step (DevKeeps.step h4 (Dev.add_keeps _ _ _) (by rfl)) (bucketEvent_keeps _ _) rfl)
      clear_value x6
      refine iteP (P := DevKeeps 0x180000000000000000000000000000004A70000000000000000000000000000000000000000000000000000617BD3 d) (fun _ => ?_) (fun _ => ?_)
      · refine DevKeeps.step ?_ (proofDecoded_keeps _ _ _ _) rfl
        refine iteP (P := DevKeeps 0x180000000000000000000000000000004A70000000000000000000000000000000000000000000000000000617BD3 d) (fun _ => ?_) (fun _ => ?_)
        · exact (DevKeeps.step h6 (stipErased_keeps _ _) rfl)
        · exact h6
      · refine iteP (P := DevKeeps 0x180000000000000000000000000000004A70000000000000000000000000000000000000000000000000000617BD3 d) (fun _ => ?_) (fun _ => ?_)
        · exact (DevKeeps.step h6 (dropDetached_keeps _ _) rfl)
        · exact (DevKeeps.step (DevKeeps.step h6 (weakRow_keeps _ _) rfl) (postReread_keeps _ _ _) rfl)

theorem hardDecode_keeps (a0 : ℕ) (a1 : DecodeResult) (a2 : BitVec 10) (d : Dev) :
    OkP (DevKeeps 0x180000000000000000000000000000004A70000000000000000000000000000000000000000000000000000617BDB d) (hardDecode a0 a1 a2 d) := by
  unfold hardDecode
  split
  · refine OkP.ok ?_
    exact (DevKeeps.step (DevKeeps.step (.refl _ _) (Dev.atCycle_keeps _ _) rfl) (hardDone_keeps _ _ _) rfl)
  · exact trivial

theorem execHardDecodeDone_keeps (a0 : Fin 48) (a1 : DecodeResult) (a2 : BitVec 10) (s : State) :
    NextP (StateKeeps 0x18004000000000000000000E000000004A72000000000000000000000000000000000000000000000000000E97BDB s) (execHardDecodeDone a0 a1 a2 s) := by
  unfold execHardDecodeDone
  refine onDevThen_keeps ?_ (fun t0 h0 => ?_)
  · exact DevKeeps.stepOk (.refl _ _) (hardDecode_keeps _ _ _ _) rfl
  · beta_reduce
    exact (StateKeeps.step (StateKeeps.step h0 (afterChan_keeps _ _) rfl) (drainEsc_keeps _) rfl)

theorem softStart_keeps (d : Dev) :
    OkP (DevKeeps 64 d) (softStart d) := by
  unfold softStart
  split
  · split
    · extract_lets -merge -underBinder +onlyGivenNames x0
      have h0 : DevKeeps 64 d x0 := by
        subst x0
        split
        · split
          · exact (DevKeeps.step (.refl _ _) (Dev.setItem_keeps _ _ _) rfl)
          · exact (.refl _ _)
        · exact (.refl _ _)
      clear_value x0
      refine OkP.ok ?_
      exact (DevKeeps.step (DevKeeps.step h0 (Dev.setItem_keeps _ _ _) rfl) (Dev.modEcc_keeps _ _) rfl)
    · exact trivial
  · exact trivial

theorem execSoftDecodeStart_keeps (s : State) :
    NextP (StateKeeps 64 s) (execSoftDecodeStart s) := by
  unfold execSoftDecodeStart
  refine onDev_keeps ?_
  exact DevKeeps.stepOk (.refl _ _) (softStart_keeps _) rfl

theorem softDone_keeps (a0 : ℕ) (a1 : DecodeResult) (d : Dev) :
    OkP (DevKeeps 0x180000000000000000000000000000004870000000000000000000000000000000000000000000000000000617AD3 d) (softDone a0 a1 d) := by
  unfold softDone
  split
  · extract_lets -merge -underBinder +onlyGivenNames x0
    have h0 : DevKeeps 0x180000000000000000000000000000004870000000000000000000000000000000000000000000000000000617AD3 d x0 := by
      subst x0
      exact (DevKeeps.step (.refl _ _) (Dev.idleFrom_keeps _ _) rfl)
    clear_value x0
    extract_lets -merge -underBinder +onlyGivenNames x1
    clear_value x1
    extract_lets -merge -underBinder +onlyGivenNames x2
    clear_value x2
    split
    · rename_i v3_0 v3_1 q3
      have h4 : DevKeeps 0x180000000000000000000000000000004870000000000000000000000000000000000000000000000000000617AD3 d v3_1 := by
        refine SndP.get (P := (DevKeeps 0x180000000000000000000000000000004870000000000000000000000000000000000000000000000000000617AD3 d)) ?_ q3
        refine iteP (P := SndP (DevKeeps 0x180000000000000000000000000000004870000000000000000000000000000000000000000000000000000617AD3 d)) (fun _ => ?_) (fun _ => ?_)
        · exact DevKeeps.stepSnd h0 (decoded_keeps _ _ _) rfl
        · refine SndP.mk ?_
          exact h0
      split
      · refine OkP.ok ?_
        exact (DevKeeps.step (DevKeeps.step (DevKeeps.step (DevKeeps.step (DevKeeps.step h4 (Dev.dropItem_keeps _ _) rfl) (trackLevel_keeps _ _ _ _) rfl) (notice_keeps _ _ _ _ _ _) rfl) (releaseCw_keeps _ _ _) rfl) (deliverGood_keeps _ _ _) rfl)
      · refine iteP (P := OkP (DevKeeps 0x180000000000000000000000000000004870000000000000000000000000000000000000000000000000000617AD3 d)) (fun _ => ?_) (fun _ => ?_)
        · refine OkP.ok ?_
          exact (DevKeeps.step h4 (dropDetached_keeps _ _) rfl)
        · refine iteP (P := OkP (DevKeeps 0x180000000000000000000000000000004870000000000000000000000000000000000000000000000000000617AD3 d)) (fun _ => ?_) (fun _ => ?_)
          · refine OkP.ok ?_
            exact (DevKeeps.step h4 (postReread_keeps _ _ _) rfl)
          · refine OkP.ok ?_
            exact (DevKeeps.step (DevKeeps.step h4 (Dev.setItem_keeps _ _ _) rfl) (Dev.modEcc_keeps _ _) rfl)
  · exact trivial

theorem execSoftDecodeDone_keeps (a0 : Fin 8) (a1 : DecodeResult) (s : State) :
    NextP (StateKeeps 0x18004000000000000000000E000000004872000000000000000000000000000000000000000000000000000E97BD3 s) (execSoftDecodeDone a0 a1 s) := by
  unfold execSoftDecodeDone
  extract_lets -merge -underBinder +onlyGivenNames x0
  clear_value x0
  refine onDevThen_keeps ?_ (fun t1 h1 => ?_)
  · exact DevKeeps.stepOk (.refl _ _) (softDone_keeps _ _ _) rfl
  · beta_reduce
    exact (StateKeeps.step (StateKeeps.step h1 (afterChan_keeps _ _) rfl) (drainEsc_keeps _) rfl)

theorem postDeep_keeps (a0 : EccItem) (a1 : List ℕ) (d : Dev) :
    SndP (DevKeeps 0x180000000000000000000000000000000000000000000000000000000000000000000000000000000000000000052 d) (postDeep a0 a1 d) := by
  unfold postDeep
  split
  · rename_i v0_0 v0_1 q0
    have h1 : DevKeeps 0x180000000000000000000000000000000000000000000000000000000000000000000000000000000000000000052 d v0_1 := by
      refine SndP.get (P := (DevKeeps 0x180000000000000000000000000000000000000000000000000000000000000000000000000000000000000000052 d)) ?_ q0
      exact DevKeeps.stepSnd (.refl _ _) (Dev.ldpcTag_keeps _) rfl
    extract_lets -merge -underBinder +onlyGivenNames x2
    have h2 : DevKeeps 0x180000000000000000000000000000000000000000000000000000000000000000000000000000000000000000052 d x2 := by
      subst x2
      refine DevKeeps.foldl ?_ (fun y3 a3 h3 => ?_)
      · exact h1
      · beta_reduce
        split
        · rename_i v4_0 v4_1 q4
          have h5 : DevKeeps 0x180000000000000000000000000000000000000000000000000000000000000000000000000000000000000000052 d v4_1 := by
            refine SndP.get (P := (DevKeeps 0x180000000000000000000000000000000000000000000000000000000000000000000000000000000000000000052 d)) ?_ q4
            exact DevKeeps.stepSnd h3 (Dev.ldpcTag_keeps _) rfl
          extract_lets -merge -underBinder +onlyGivenNames x6
          clear_value x6
          exact (DevKeeps.step h5 (takeDesc_keeps _ _ _ _) rfl)
    clear_value x2
    refine SndP.mk ?_
    exact h2

theorem deepStart_keeps (d : Dev) :
    DevKeeps 64 d (deepStart d) := by
  unfold deepStart
  extract_lets -merge -underBinder +onlyGivenNames x0
  clear_value x0
  refine iteP (P := DevKeeps 64 d) (fun _ => ?_) (fun _ => ?_)
  · exact (.refl _ _)
  · split
    · split
      · exact (DevKeeps.step (.refl _ _) (Dev.modEcc_keeps _ _) rfl)
      · exact (.refl _ _)
    · exact (.refl _ _)

theorem deepFill_keeps (d : Dev) :
    DevKeeps 64 d (deepFill d) := by
  unfold deepFill
  exact (DevKeeps.step (DevKeeps.step (.refl _ _) (deepStart_keeps _) rfl) (deepStart_keeps _) rfl)

theorem deepEscalate_keeps (d : Dev) :
    OkP (DevKeeps 0x180000000000000000000000000000004E70000000000000000000000000000000000000000000000000000014052 d) (deepEscalate d) := by
  unfold deepEscalate
  split
  · extract_lets -merge -underBinder +onlyGivenNames x0
    clear_value x0
    extract_lets -merge -underBinder +onlyGivenNames x1
    clear_value x1
    extract_lets -merge -underBinder +onlyGivenNames x2
    clear_value x2
    extract_lets -merge -underBinder +onlyGivenNames x3
    have h3 : DevKeeps 0x180000000000000000000000000000004E70000000000000000000000000000000000000000000000000000014052 d x3 := by
      subst x3
      exact (DevKeeps.step (DevKeeps.step (.refl _ _) (Dev.dropItem_keeps _ _) rfl) (releaseCw_keeps _ _ _) rfl)
    clear_value x3
    extract_lets -merge -underBinder +onlyGivenNames x4
    have h4 : DevKeeps 0x180000000000000000000000000000004E70000000000000000000000000000000000000000000000000000014052 d x4 := by
      subst x4
      exact (DevKeeps.step (DevKeeps.step (DevKeeps.step h3 (notice_keeps _ _ _ _ _ _) rfl) (Dev.add_keeps _ _ _) (by rfl)) (bucketEvent_keeps _ _) rfl)
    clear_value x4
    extract_lets -merge -underBinder +onlyGivenNames x5
    clear_value x5
    extract_lets -merge -underBinder +onlyGivenNames x6
    subst x6
    beta_reduce
    refine iteP (P := OkP (DevKeeps 0x180000000000000000000000000000004E70000000000000000000000000000000000000000000000000000014052 d)) (fun _ => ?_) (fun _ => ?_)
    · refine OkP.ok ?_
      exact (DevKeeps.step (.refl _ _) (dropDetached_keeps _ _) rfl)
    · refine iteP (P := OkP (DevKeeps 0x180000000000000000000000000000004E70000000000000000000000000000000000000000000000000000014052 d)) (fun _ => ?_) (fun _ => ?_)
      · exact trivial
      · refine iteP (P := OkP (DevKeeps 0x180000000000000000000000000000004E70000000000000000000000000000000000000000000000000000014052 d)) (fun _ => ?_) (fun _ => ?_)
        · refine OkP.ok ?_
          exact (DevKeeps.step (DevKeeps.step (DevKeeps.step (DevKeeps.step h4 (notice_keeps _ _ _ _ _ _) rfl) (Dev.add_keeps _ _ _) (by rfl)) (bucketEvent_keeps _ _) rfl) (Dev.modEcc_keeps _ _) rfl)
        · split
          · rename_i v7_0 v7_1 q7
            have h8 : DevKeeps 0x180000000000000000000000000000004E70000000000000000000000000000000000000000000000000000014052 d v7_1 := by
              refine SndP.get (P := (DevKeeps 0x180000000000000000000000000000004E70000000000000000000000000000000000000000000000000000014052 d)) ?_ q7
              exact DevKeeps.stepSnd h4 (postDeep_keeps _ _ _) rfl
            extract_lets -merge -underBinder +onlyGivenNames x9
            clear_value x9
            extract_lets -merge -underBinder +onlyGivenNames x10
            have h10 : DevKeeps 0x180000000000000000000000000000004E70000000000000000000000000000000000000000000000000000014052 d x10 := by
              subst x10
              exact (DevKeeps.step h8 (Dev.modEcc_keeps _ _) rfl)
            clear_value x10
            refine OkP.ok ?_
            exact (DevKeeps.step (DevKeeps.step h10 (Dev.modEcc_keeps _ _) rfl) (deepFill_keeps _) rfl)
  · exact trivial

theorem execDeepEscalation_keeps (s : State) :
    NextP (StateKeeps 0x18004000000000000000000E000000004E72000000000000000000000000000000000000000000000000000E95952 s) (execDeepEscalation s) := by
  unfold execDeepEscalation
  extract_lets -merge -underBinder +onlyGivenNames x0
  clear_value x0
  refine onDevThen_keeps ?_ (fun t1 h1 => ?_)
  · exact DevKeeps.stepOk (.refl _ _) (deepEscalate_keeps _) rfl
  · beta_reduce
    exact (StateKeeps.step (StateKeeps.step h1 (afterChan_keeps _ _) rfl) (drainEsc_keeps _) rfl)

theorem countDieFailed_keeps (a0 : EccItem) (d : Dev) :
    DevKeeps 16384 d (countDieFailed a0 d) := by
  unfold countDieFailed
  exact (DevKeeps.step (.refl _ _) (Dev.modMed_keeps _ _) rfl)

theorem countDieUnrec_keeps (a0 : EccItem) (d : Dev) :
    DevKeeps 16384 d (countDieUnrec a0 d) := by
  unfold countDieUnrec
  exact (DevKeeps.step (.refl _ _) (Dev.modMed_keeps _ _) rfl)

theorem settleEsc_keeps (a0 : ℕ) (d : Dev) :
    DevKeeps 0x40700000000000000000000000000000000000080000000000000006178C3 d (settleEsc a0 d) := by
  unfold settleEsc
  split
  · extract_lets -merge -underBinder +onlyGivenNames x0
    have h0 : DevKeeps 0x40700000000000000000000000000000000000080000000000000006178C3 d x0 := by
      subst x0
      exact (DevKeeps.step (.refl _ _) (Dev.modEcc_keeps _ _) rfl)
    clear_value x0
    extract_lets -merge -underBinder +onlyGivenNames x1
    have h1 : DevKeeps 0x40700000000000000000000000000000000000080000000000000006178C3 d x1 := by
      subst x1
      refine iteP (P := DevKeeps 0x40700000000000000000000000000000000000080000000000000006178C3 d) (fun _ => ?_) (fun _ => ?_)
      · exact (DevKeeps.step h0 (countDieFailed_keeps _ _) rfl)
      · exact h0
    clear_value x1
    refine iteP (P := DevKeeps 0x40700000000000000000000000000000000000080000000000000006178C3 d) (fun _ => ?_) (fun _ => ?_)
    · refine iteP (P := DevKeeps 0x40700000000000000000000000000000000000080000000000000006178C3 d) (fun _ => ?_) (fun _ => ?_)
      · refine iteP (P := DevKeeps 0x40700000000000000000000000000000000000080000000000000006178C3 d) (fun _ => ?_) (fun _ => ?_)
        · exact (DevKeeps.step h1 (countDieUnrec_keeps _ _) rfl)
        · exact h1
      · exact (DevKeeps.step (DevKeeps.step (DevKeeps.step h1 (Dev.wr_keeps _ _ _) (by rfl)) (bucketEvent_keeps _ _) rfl) (deliverLost_keeps _ _) rfl)
    · exact (.refl _ _)
  · exact (.refl _ _)

theorem deepDone_keeps (a0 : ℕ) (a1 : DecodeResult) (d : Dev) :
    OkP (DevKeeps 0x4C70000000000000000000000000000000000008000000000000000617AC3 d) (deepDone a0 a1 d) := by
  unfold deepDone
  split
  · extract_lets -merge -underBinder +onlyGivenNames x0
    clear_value x0
    extract_lets -merge -underBinder +onlyGivenNames x1
    have h1 : DevKeeps 0x4C70000000000000000000000000000000000008000000000000000617AC3 d x1 := by
      subst x1
      exact (DevKeeps.step (DevKeeps.step (.refl _ _) (Dev.idleFrom_keeps _ _) rfl) (Dev.idleFrom_keeps _ _) rfl)
    clear_value x1
    extract_lets -merge -underBinder +onlyGivenNames x2
    clear_value x2
    refine iteP (P := OkP (DevKeeps 0x4C70000000000000000000000000000000000008000000000000000617AC3 d)) (fun _ => ?_) (fun _ => ?_)
    · split
      · rename_i v3_0 v3_1 q3
        have h4 : DevKeeps 0x4C70000000000000000000000000000000000008000000000000000617AC3 d v3_1 := by
          refine SndP.get (P := (DevKeeps 0x4C70000000000000000000000000000000000008000000000000000617AC3 d)) ?_ q3
          refine iteP (P := SndP (DevKeeps 0x4C70000000000000000000000000000000000008000000000000000617AC3 d)) (fun _ => ?_) (fun _ => ?_)
          · exact DevKeeps.stepSnd h1 (decoded_keeps _ _ _) rfl
          · refine SndP.mk ?_
            exact h1
        split
        · extract_lets -merge -underBinder +onlyGivenNames x5
          have h5 : DevKeeps 0x4C70000000000000000000000000000000000008000000000000000617AC3 d x5 := by
            subst x5
            exact (DevKeeps.step (DevKeeps.step h4 (notice_keeps _ _ _ _ _ _) rfl) (Dev.add_keeps _ _ _) (by rfl))
          clear_value x5
          extract_lets -merge -underBinder +onlyGivenNames x6
          have h6 : DevKeeps 0x4C70000000000000000000000000000000000008000000000000000617AC3 d x6 := by
            subst x6
            refine iteP (P := DevKeeps 0x4C70000000000000000000000000000000000008000000000000000617AC3 d) (fun _ => ?_) (fun _ => ?_)
            · exact h5
            · exact (DevKeeps.step h5 (deliverGood_keeps _ _ _) rfl)
          clear_value x6
          refine OkP.ok ?_
          exact (DevKeeps.step (DevKeeps.step (DevKeeps.step h6 (Dev.modEcc_keeps _ _) rfl) (settleEsc_keeps _ _) rfl) (deepFill_keeps _) rfl)
        · extract_lets -merge -underBinder +onlyGivenNames x7
          have h7 : DevKeeps 0x4C70000000000000000000000000000000000008000000000000000617AC3 d x7 := by
            subst x7
            exact (DevKeeps.step (DevKeeps.step (DevKeeps.step h4 (notice_keeps _ _ _ _ _ _) rfl) (Dev.add_keeps _ _ _) (by rfl)) (bucketEvent_keeps _ _) rfl)
          clear_value x7
          refine OkP.ok ?_
          exact (DevKeeps.step (DevKeeps.step (DevKeeps.step h7 (Dev.modEcc_keeps _ _) rfl) (settleEsc_keeps _ _) rfl) (deepFill_keeps _) rfl)
    · exact trivial
  · exact trivial

theorem execDeepDecodeDone_keeps (a0 : Fin 128) (a1 : DecodeResult) (s : State) :
    NextP (StateKeeps 0x4C72000000000000000000000000000000000008000000000000000E17AC3 s) (execDeepDecodeDone a0 a1 s) := by
  unfold execDeepDecodeDone
  refine onDevThen_keeps ?_ (fun t0 h0 => ?_)
  · exact DevKeeps.stepOk (.refl _ _) (deepDone_keeps _ _ _) rfl
  · exact (StateKeeps.step h0 (drainEsc_keeps _) rfl)

theorem execEscHeadWrite_keeps (a0 : Word) (s : State) :
    NextP (StateKeeps 0x4003000000000000000000000000000000000000000000000000000800843 s) (execEscHeadWrite a0 s) := by
  unfold execEscHeadWrite
  refine onDevThen_keeps ?_ (fun t0 h0 => ?_)
  · refine orRsv_keeps ?_ ?_ rfl
    · exact (.refl _ _)
    · beta_reduce
      exact (DevKeeps.step (.refl _ _) (Dev.wr_keeps _ _ _) (by rfl))
  · exact (StateKeeps.step h0 (drainEsc_keeps _) rfl)

end Sys2Proof.Machine
end

