-- ==== Sys2Proof/Laws/KeepParity.lean ====
section
/-! SUPPORT. What each operation of Machine/Parity.lean leaves as it was. -/

namespace Sys2Proof.Machine

theorem Dev.modPar_keeps (d : Dev) (a1 : Par → Par) :
    DevKeeps 128 d (Dev.modPar d a1) := by
  unfold Dev.modPar
  exact DevKeeps.set_par _ (.refl _ _) rfl

theorem Dev.setJob_keeps (d : Dev) (a1 : ℕ) (a2 : ℕ) (a3 : ParJob) :
    DevKeeps 128 d (Dev.setJob d a1 a2 a3) := by
  unfold Dev.setJob
  exact (DevKeeps.step (.refl _ _) (Dev.modPar_keeps _ _) rfl)

theorem addUnit_keeps (a0 : ℕ) (a1 : ℕ) (a2 : List (ℕ × Sector)) (d : Dev) :
    DevKeeps 128 d (addUnit a0 a1 a2 d) := by
  unfold addUnit
  split
  · extract_lets -merge -underBinder +onlyGivenNames x0
    clear_value x0
    refine iteP (P := DevKeeps 128 d) (fun _ => ?_) (fun _ => ?_)
    · exact (.refl _ _)
    · exact (DevKeeps.step (.refl _ _) (Dev.modPar_keeps _ _) rfl)
  · exact (.refl _ _)

theorem closeAcc_keeps (a0 : Desc) (a1 : Acc) (d : Dev) :
    DevKeeps 2176 d (closeAcc a0 a1 d) := by
  unfold closeAcc
  extract_lets -merge -underBinder +onlyGivenNames x0
  have h0 : DevKeeps 2176 d x0 := by
    subst x0
    refine DevKeeps.foldl ?_ (fun y1 a1 h1 => ?_)
    · exact (.refl _ _)
    · beta_reduce
      exact (DevKeeps.step h1 (Dev.modPool_keeps _ _) rfl)
  clear_value x0
  exact (DevKeeps.step h0 (Dev.modPar_keeps _ _) rfl)

theorem cancelJob_keeps (a0 : ℕ) (a1 : ℕ) (d : Dev) :
    DevKeeps 128 d (cancelJob a0 a1 d) := by
  unfold cancelJob
  split
  · refine iteP (P := DevKeeps 128 d) (fun _ => ?_) (fun _ => ?_)
    · exact (DevKeeps.step (.refl _ _) (Dev.setJob_keeps _ _ _ _) rfl)
    · exact (.refl _ _)
  · exact (.refl _ _)

theorem racing_keeps (a0 : Desc) (a1 : EscPath) (d : Dev) :
    DevKeeps 64 d (racing a0 a1 d) := by
  unfold racing
  split
  · refine iteP (P := DevKeeps 64 d) (fun _ => ?_) (fun _ => ?_)
    · split
      · refine iteP (P := DevKeeps 64 d) (fun _ => ?_) (fun _ => ?_)
        · exact (.refl _ _)
        · exact (DevKeeps.step (.refl _ _) (Dev.modEcc_keeps _ _) rfl)
      · exact (.refl _ _)
    · exact (.refl _ _)
  · exact (.refl _ _)

theorem startJob_keeps (a0 : ℕ) (a1 : ℕ) (a2 : Desc) (d : Dev) :
    DevKeeps 0x10000000000000000000000000000000000000000000000000000000000000008C2 d (startJob a0 a1 a2 d) := by
  unfold startJob
  extract_lets -merge -underBinder +onlyGivenNames x0
  clear_value x0
  extract_lets -merge -underBinder +onlyGivenNames x1
  clear_value x1
  refine iteP (P := DevKeeps 0x10000000000000000000000000000000000000000000000000000000000000008C2 d) (fun _ => ?_) (fun _ => ?_)
  · exact (DevKeeps.step (.refl _ _) (Dev.setJob_keeps _ _ _ _) rfl)
  · refine iteP (P := DevKeeps 0x10000000000000000000000000000000000000000000000000000000000000008C2 d) (fun _ => ?_) (fun _ => ?_)
    · exact (DevKeeps.step (DevKeeps.step (.refl _ _) (Dev.setJob_keeps _ _ _ _) rfl) (Dev.wr_keeps _ _ _) (by rfl))
    · split
      · exact (DevKeeps.step (DevKeeps.step (.refl _ _) (Dev.modPar_keeps _ _) rfl) (Dev.setJob_keeps _ _ _ _) rfl)
      · refine iteP (P := DevKeeps 0x10000000000000000000000000000000000000000000000000000000000000008C2 d) (fun _ => ?_) (fun _ => ?_)
        · exact (DevKeeps.step (.refl _ _) (Dev.setJob_keeps _ _ _ _) rfl)
        · exact (DevKeeps.step (DevKeeps.step (.refl _ _) (addUnit_keeps _ _ _ _) rfl) (Dev.setJob_keeps _ _ _ _) rfl)
      · split
        · exact (DevKeeps.step (DevKeeps.step (.refl _ _) (closeAcc_keeps _ _ _) rfl) (Dev.setJob_keeps _ _ _ _) rfl)
        · exact (.refl _ _)
      · extract_lets -merge -underBinder +onlyGivenNames x2
        clear_value x2
        exact (DevKeeps.step (DevKeeps.step (.refl _ _) (Dev.setJob_keeps _ _ _ _) rfl) (racing_keeps _ _ _) rfl)
      · exact (DevKeeps.step (DevKeeps.step (.refl _ _) (Dev.modPar_keeps _ _) rfl) (Dev.setJob_keeps _ _ _ _) rfl)
      · exact (DevKeeps.step (DevKeeps.step (.refl _ _) (Dev.setJob_keeps _ _ _ _) rfl) (cancelJob_keeps _ _ _) rfl)

theorem parityPost_keeps (a0 : ℕ) (a1 : Desc) (d : Dev) :
    DevKeeps 0x10200000000000000000000000000000000000000000000000000000000000008C2 d (parityPost a0 a1 d) := by
  unfold parityPost
  split
  · extract_lets -merge -underBinder +onlyGivenNames x0
    clear_value x0
    refine iteP (P := DevKeeps 0x10200000000000000000000000000000000000000000000000000000000000008C2 d) (fun _ => ?_) (fun _ => ?_)
    · exact (DevKeeps.step (DevKeeps.step (DevKeeps.step (DevKeeps.step (.refl _ _) (Dev.wrb_keeps _ _ _ _) (by rfl)) (Dev.wrb_keeps _ _ _ _) (by rfl)) (Dev.wrb_keeps _ _ _ _) (by rfl)) (startJob_keeps _ _ _ _) rfl)
    · exact (DevKeeps.step (.refl _ _) (Dev.wrb_keeps _ _ _ _) (by rfl))
  · exact (DevKeeps.step (.refl _ _) (Dev.wrb_keeps _ _ _ _) (by rfl))

theorem parityRow_keeps (a0 : ℕ) (a1 : Fin 64) (a2 : Desc) (s : State) :
    NextP (StateKeeps 0x10200000000000000000000000000000000000000000000000000000000000008C2 s) (parityRow a0 a1 a2 s) := by
  unfold parityRow
  refine onDev_keeps ?_
  refine always_keeps ?_
  exact (DevKeeps.step (.refl _ _) (parityPost_keeps _ _ _) rfl)

theorem execParityOpen_keeps (a0 : Fin 64) (a1 : Desc) (s : State) :
    NextP (StateKeeps 0x10200000000000000000000000000000000000000000000000000000000000008C2 s) (execParityOpen a0 a1 s) := by
  unfold execParityOpen
  exact StateKeeps.stepNext (.refl _ _) (parityRow_keeps _ _ _ _) rfl

theorem execParityAdd_keeps (a0 : Fin 64) (a1 : Desc) (s : State) :
    NextP (StateKeeps 0x10200000000000000000000000000000000000000000000000000000000000008C2 s) (execParityAdd a0 a1 s) := by
  unfold execParityAdd
  exact StateKeeps.stepNext (.refl _ _) (parityRow_keeps _ _ _ _) rfl

theorem execParityClose_keeps (a0 : Fin 64) (a1 : Desc) (s : State) :
    NextP (StateKeeps 0x10200000000000000000000000000000000000000000000000000000000000008C2 s) (execParityClose a0 a1 s) := by
  unfold execParityClose
  exact StateKeeps.stepNext (.refl _ _) (parityRow_keeps _ _ _ _) rfl

theorem execParityRecon_keeps (a0 : Fin 64) (a1 : Desc) (s : State) :
    NextP (StateKeeps 0x10200000000000000000000000000000000000000000000000000000000000008C2 s) (execParityRecon a0 a1 s) := by
  unfold execParityRecon
  exact StateKeeps.stepNext (.refl _ _) (parityRow_keeps _ _ _ _) rfl

theorem execParityDrop_keeps (a0 : Fin 64) (a1 : Desc) (s : State) :
    NextP (StateKeeps 0x10200000000000000000000000000000000000000000000000000000000000008C2 s) (execParityDrop a0 a1 s) := by
  unfold execParityDrop
  exact StateKeeps.stepNext (.refl _ _) (parityRow_keeps _ _ _ _) rfl

theorem execParityCancel_keeps (a0 : Fin 64) (a1 : Desc) (s : State) :
    NextP (StateKeeps 0x10200000000000000000000000000000000000000000000000000000000000008C2 s) (execParityCancel a0 a1 s) := by
  unfold execParityCancel
  exact StateKeeps.stepNext (.refl _ _) (parityRow_keeps _ _ _ _) rfl

theorem absorb_keeps (a0 : Contribution) (d : Dev) :
    DevKeeps 128 d (absorb a0 d) := by
  unfold absorb
  split
  · exact (.refl _ _)
  · split
    · exact (.refl _ _)
    · refine iteP (P := DevKeeps 128 d) (fun _ => ?_) (fun _ => ?_)
      · exact (.refl _ _)
      · split
        · exact (DevKeeps.step (.refl _ _) (Dev.setJob_keeps _ _ _ _) rfl)
        · exact (DevKeeps.step (.refl _ _) (Dev.setJob_keeps _ _ _ _) rfl)

theorem parityContribution_keeps (a0 : ℕ) (d : Dev) :
    OkP (DevKeeps 128 d) (parityContribution a0 d) := by
  unfold parityContribution
  split
  · refine iteP (P := OkP (DevKeeps 128 d)) (fun _ => ?_) (fun _ => ?_)
    · refine OkP.ok ?_
      exact (DevKeeps.step (DevKeeps.step (.refl _ _) (Dev.modPar_keeps _ _) rfl) (absorb_keeps _ _) rfl)
    · exact trivial
  · exact trivial

theorem execParityContribution_keeps (a0 : Fin 3) (s : State) :
    NextP (StateKeeps 128 s) (execParityContribution a0 s) := by
  unfold execParityContribution
  refine onDev_keeps ?_
  exact DevKeeps.stepOk (.refl _ _) (parityContribution_keeps _ _) rfl

theorem deliverOut_keeps (a0 : Desc) (a1 : ℕ) (a2 : Sector) (d : Dev) :
    DevKeeps 2688 d (deliverOut a0 a1 a2 d) := by
  unfold deliverOut
  extract_lets -merge -underBinder +onlyGivenNames x0
  clear_value x0
  extract_lets -merge -underBinder +onlyGivenNames x1
  clear_value x1
  split
  · exact (DevKeeps.step (.refl _ _) (toLane_keeps _ _ _ _ _ _) rfl)
  · exact (DevKeeps.step (.refl _ _) (Dev.modPar_keeps _ _) rfl)
  · exact (DevKeeps.step (.refl _ _) (Dev.modPool_keeps _ _) rfl)
  · exact (.refl _ _)

theorem loseOut_keeps (a0 : Desc) (d : Dev) :
    DevKeeps 12288 d (loseOut a0 d) := by
  unfold loseOut
  extract_lets -merge -underBinder +onlyGivenNames x0
  clear_value x0
  refine iteP (P := DevKeeps 12288 d) (fun _ => ?_) (fun _ => ?_)
  · refine DevKeeps.foldl ?_ (fun y1 a1 h1 => ?_)
    · exact (.refl _ _)
    · beta_reduce
      extract_lets -merge -underBinder +onlyGivenNames x2
      clear_value x2
      exact (DevKeeps.step (DevKeeps.step h1 (countUnrecovered_keeps _ _ _) rfl) (readLost_keeps _ _ _) rfl)
  · exact (.refl _ _)

theorem endPath_keeps (a0 : ℕ) (a1 : EscPath) (a2 : Bool) (d : Dev) :
    DevKeeps 0x40700000000000000000000000000000000000080000000000000006178C3 d (endPath a0 a1 a2 d) := by
  unfold endPath
  split
  · exact (DevKeeps.step (DevKeeps.step (.refl _ _) (Dev.modEcc_keeps _ _) rfl) (settleEsc_keeps _ _) rfl)
  · exact (.refl _ _)

theorem reconEnd_keeps (a0 : ParJob) (d : Dev) :
    SndP (DevKeeps 0x4070000000000000000000000000000000000008000000000000000617AC3 d) (reconEnd a0 d) := by
  unfold reconEnd
  extract_lets -merge -underBinder +onlyGivenNames x0
  clear_value x0
  split
  · refine SndP.mk ?_
    exact (.refl _ _)
  · extract_lets -merge -underBinder +onlyGivenNames x1
    clear_value x1
    split
    · refine iteP (P := SndP (DevKeeps 0x4070000000000000000000000000000000000008000000000000000617AC3 d)) (fun _ => ?_) (fun _ => ?_)
      · refine SndP.mk ?_
        exact (DevKeeps.step (.refl _ _) (endPath_keeps _ _ _ _) rfl)
      · refine iteP (P := SndP (DevKeeps 0x4070000000000000000000000000000000000008000000000000000617AC3 d)) (fun _ => ?_) (fun _ => ?_)
        · refine SndP.mk ?_
          exact (DevKeeps.step (.refl _ _) (racing_keeps _ _ _) rfl)
        · refine iteP (P := SndP (DevKeeps 0x4070000000000000000000000000000000000008000000000000000617AC3 d)) (fun _ => ?_) (fun _ => ?_)
          · refine SndP.mk ?_
            exact (DevKeeps.step (.refl _ _) (racing_keeps _ _ _) rfl)
          · refine SndP.mk ?_
            exact (DevKeeps.step (.refl _ _) (endPath_keeps _ _ _ _) rfl)
    · refine SndP.mk ?_
      refine iteP (P := DevKeeps 0x4070000000000000000000000000000000000008000000000000000617AC3 d) (fun _ => ?_) (fun _ => ?_)
      · exact (DevKeeps.step (.refl _ _) (loseOut_keeps _ _) rfl)
      · exact (.refl _ _)
  · extract_lets -merge -underBinder +onlyGivenNames x2
    clear_value x2
    extract_lets -merge -underBinder +onlyGivenNames x3
    clear_value x3
    split
    · split
      · refine SndP.mk ?_
        exact (DevKeeps.step (.refl _ _) (endPath_keeps _ _ _ _) rfl)
      · refine iteP (P := SndP (DevKeeps 0x4070000000000000000000000000000000000008000000000000000617AC3 d)) (fun _ => ?_) (fun _ => ?_)
        · refine SndP.mk ?_
          refine DevKeeps.step ?_ (endPath_keeps _ _ _ _) rfl
          split
          · exact (DevKeeps.step (.refl _ _) (deliverGood_keeps _ _ _) rfl)
          · exact (.refl _ _)
        · refine SndP.mk ?_
          exact (DevKeeps.step (.refl _ _) (endPath_keeps _ _ _ _) rfl)
    · refine iteP (P := SndP (DevKeeps 0x4070000000000000000000000000000000000008000000000000000617AC3 d)) (fun _ => ?_) (fun _ => ?_)
      · refine SndP.mk ?_
        refine DevKeeps.foldl ?_ (fun y4 a4 h4 => ?_)
        · exact (.refl _ _)
        · beta_reduce
          exact (DevKeeps.step h4 (deliverOut_keeps _ _ _ _) rfl)
      · refine SndP.mk ?_
        exact (DevKeeps.step (.refl _ _) (loseOut_keeps _ _) rfl)

theorem countRecon_keeps (a0 : ℕ) (d : Dev) :
    DevKeeps 0x1800000000000000000000000000000000000000000000000000000000000000002 d (countRecon a0 d) := by
  unfold countRecon
  extract_lets -merge -underBinder +onlyGivenNames x0
  have h0 : DevKeeps 0x1800000000000000000000000000000000000000000000000000000000000000002 d x0 := by
    subst x0
    refine iteP (P := DevKeeps 0x1800000000000000000000000000000000000000000000000000000000000000002 d) (fun _ => ?_) (fun _ => ?_)
    · exact (DevKeeps.step (.refl _ _) (Dev.add_keeps _ _ _) (by rfl))
    · exact (.refl _ _)
  clear_value x0
  refine iteP (P := DevKeeps 0x1800000000000000000000000000000000000000000000000000000000000000002 d) (fun _ => ?_) (fun _ => ?_)
  · exact (DevKeeps.step (.refl _ _) (Dev.add_keeps _ _ _) (by rfl))
  · exact (DevKeeps.step h0 (Dev.flagIf_keeps _ _ _) (by rfl))

theorem parityJobDone_keeps (a0 : ℕ) (a1 : ℕ) (d : Dev) :
    OkP (DevKeeps 0x1800004070000000000000000000000000000000000008000000000000000617AC3 d) (parityJobDone a0 a1 d) := by
  unfold parityJobDone
  split
  · exact trivial
  · extract_lets -merge -underBinder +onlyGivenNames x0
    clear_value x0
    extract_lets -merge -underBinder +onlyGivenNames x1
    have h1 : DevKeeps 0x1800004070000000000000000000000000000000000008000000000000000617AC3 d x1 := by
      subst x1
      exact (DevKeeps.step (DevKeeps.step (.refl _ _) (Dev.modPar_keeps _ _) rfl) (Dev.idleFrom_keeps _ _) rfl)
    clear_value x1
    refine iteP (P := OkP (DevKeeps 0x1800004070000000000000000000000000000000000008000000000000000617AC3 d)) (fun _ => ?_) (fun _ => ?_)
    · exact trivial
    · split
      · rename_i v2_0 v2_1 q2
        have h3 : DevKeeps 0x1800004070000000000000000000000000000000000008000000000000000617AC3 d v2_1 := by
          refine SndP.get (P := (DevKeeps 0x1800004070000000000000000000000000000000000008000000000000000617AC3 d)) ?_ q2
          refine iteP (P := SndP (DevKeeps 0x1800004070000000000000000000000000000000000008000000000000000617AC3 d)) (fun _ => ?_) (fun _ => ?_)
          · split
            · rename_i v4_0 v4_1 q4
              have h5 : DevKeeps 0x1800004070000000000000000000000000000000000008000000000000000617AC3 d v4_1 := by
                refine SndP.get (P := (DevKeeps 0x1800004070000000000000000000000000000000000008000000000000000617AC3 d)) ?_ q4
                exact DevKeeps.stepSnd h1 (reconEnd_keeps _ _) rfl
              refine SndP.mk ?_
              exact (DevKeeps.step h5 (countRecon_keeps _ _) rfl)
          · split
            · refine SndP.mk ?_
              exact h1
            · refine SndP.mk ?_
              exact (DevKeeps.step h1 (addUnit_keeps _ _ _ _) rfl)
        extract_lets -merge -underBinder +onlyGivenNames x6
        clear_value x6
        refine OkP.ok ?_
        exact (DevKeeps.step h3 (Dev.modPar_keeps _ _) rfl)

theorem execParityJobDone_keeps (a0 : Fin 3) (a1 : Fin 256) (s : State) :
    NextP (StateKeeps 0x1C00004070000000000000000000000000000000000008000000000000000E17AC3 s) (execParityJobDone a0 a1 s) := by
  unfold execParityJobDone
  refine onDevThen_keeps ?_ (fun t0 h0 => ?_)
  · exact DevKeeps.stepOk (.refl _ _) (parityJobDone_keeps _ _ _) rfl
  · exact (StateKeeps.step h0 (drainPar_keeps _) rfl)

theorem execParityJcqHeadWrite_keeps (a0 : Word) (s : State) :
    NextP (StateKeeps 0x1600000000000000000000000000000000000000000000000000000000000800883 s) (execParityJcqHeadWrite a0 s) := by
  unfold execParityJcqHeadWrite
  refine onDevThen_keeps ?_ (fun t0 h0 => ?_)
  · refine orRsv_keeps ?_ ?_ rfl
    · exact (.refl _ _)
    · beta_reduce
      exact (DevKeeps.step (.refl _ _) (Dev.wr_keeps _ _ _) (by rfl))
  · exact (StateKeeps.step h0 (drainPar_keeps _) rfl)

end Sys2Proof.Machine
end

