-- ==== Sys2Proof/Laws/KeepCipher.lean ====
section
/-! SUPPORT. What each operation of Machine/Cipher.lean leaves as it was. -/

namespace Sys2Proof.Machine

theorem Dev.modCiph_keeps (d : Dev) (a1 : Ciph → Ciph) :
    DevKeeps 512 d (Dev.modCiph d a1) := by
  unfold Dev.modCiph
  exact DevKeeps.set_ciph _ (.refl _ _) rfl

theorem Dev.modLane_keeps (d : Dev) (a1 : ℕ) (a2 : Lane → Lane) :
    DevKeeps 512 d (Dev.modLane d a1 a2) := by
  unfold Dev.modLane
  exact (DevKeeps.step (.refl _ _) (Dev.modCiph_keeps _ _) rfl)

theorem Dev.setKey_keeps (d : Dev) (a1 : ℕ) (a2 : KeySlot) :
    DevKeeps 512 d (Dev.setKey d a1 a2) := by
  unfold Dev.setKey
  exact (DevKeeps.step (.refl _ _) (Dev.modCiph_keeps _ _) rfl)

theorem Dev.takeNonce_keeps (d : Dev) :
    SndP (DevKeeps 512 d) (Dev.takeNonce d) := by
  unfold Dev.takeNonce
  refine SndP.mk ?_
  exact (DevKeeps.step (.refl _ _) (Dev.modCiph_keeps _ _) rfl)

theorem epochWrite_keeps (a0 : ℕ) (d : Dev) :
    DevKeeps 0x8000000800000000000000000000000000000000000000000000202 d (epochWrite a0 d) := by
  unfold epochWrite
  refine iteP (P := DevKeeps 0x8000000800000000000000000000000000000000000000000000202 d) (fun _ => ?_) (fun _ => ?_)
  · exact (DevKeeps.step (.refl _ _) (Dev.wr_keeps _ _ _) (by rfl))
  · exact (DevKeeps.step (DevKeeps.step (.refl _ _) (Dev.wr_keeps _ _ _) (by rfl)) (Dev.modCiph_keeps _ _) rfl)

theorem execCiphEpochWrite_keeps (a0 : Word) (s : State) :
    NextP (StateKeeps 0x8000000800000000000000000000000000000000000000000000202 s) (execCiphEpochWrite a0 s) := by
  unfold execCiphEpochWrite
  refine onDev_keeps ?_
  refine always_keeps ?_
  exact (DevKeeps.step (.refl _ _) (epochWrite_keeps _ _) rfl)

theorem nonceLoRead_keeps (d : Dev) :
    DevKeeps 516 d (nonceLoRead d) := by
  unfold nonceLoRead
  extract_lets -merge -underBinder +onlyGivenNames x0
  have h0 : DevKeeps 516 d x0 := by
    subst x0
    exact (DevKeeps.step (.refl _ _) (Dev.modCiph_keeps _ _) rfl)
  clear_value x0
  exact DevKeeps.set_bus _ h0 rfl

theorem execNonceLoRead_keeps (s : State) :
    NextP (StateKeeps 516 s) (execNonceLoRead s) := by
  unfold execNonceLoRead
  refine onDev_keeps ?_
  refine always_keeps ?_
  exact (DevKeeps.step (.refl _ _) (nonceLoRead_keeps _) rfl)

theorem denyWrite_keeps (a0 : ℕ) (d : Dev) :
    DevKeeps 0x38000000000000000000000000000000000001BA02 d (denyWrite a0 d) := by
  unfold denyWrite
  exact (DevKeeps.step (.refl _ _) (withdrawCmd_keeps _ _ _) rfl)

theorem laneStart_keeps (a0 : ℕ) (d : Dev) :
    OkP (DevKeeps 0x800000000000038000000000000000000000000000000000001BA02 d) (laneStart a0 d) := by
  unfold laneStart
  refine iteP (P := OkP (DevKeeps 0x800000000000038000000000000000000000000000000000001BA02 d)) (fun _ => ?_) (fun _ => ?_)
  · exact trivial
  · split
    · exact trivial
    · extract_lets -merge -underBinder +onlyGivenNames x0
      clear_value x0
      extract_lets -merge -underBinder +onlyGivenNames x1
      have h1 : DevKeeps 0x800000000000038000000000000000000000000000000000001BA02 d x1 := by
        subst x1
        exact (DevKeeps.step (DevKeeps.step (.refl _ _) (Dev.modCiph_keeps _ _) rfl) (Dev.modLane_keeps _ _ _) rfl)
      clear_value x1
      extract_lets -merge -underBinder +onlyGivenNames x2
      clear_value x2
      extract_lets -merge -underBinder +onlyGivenNames x3
      clear_value x3
      extract_lets -merge -underBinder +onlyGivenNames x4
      subst x4
      beta_reduce
      split
      · refine iteP (P := OkP (DevKeeps 0x800000000000038000000000000000000000000000000000001BA02 d)) (fun _ => ?_) (fun _ => ?_)
        · refine OkP.ok ?_
          exact (DevKeeps.step h1 (Dev.modLane_keeps _ _ _) rfl)
        · refine OkP.ok ?_
          exact (DevKeeps.step (DevKeeps.step h1 (Dev.wr_keeps _ _ _) (by rfl)) (readLost_keeps _ _ _) rfl)
      · refine iteP (P := OkP (DevKeeps 0x800000000000038000000000000000000000000000000000001BA02 d)) (fun _ => ?_) (fun _ => ?_)
        · refine OkP.ok ?_
          exact (DevKeeps.step h1 (Dev.modLane_keeps _ _ _) rfl)
        · refine OkP.ok ?_
          exact (DevKeeps.step (DevKeeps.step h1 (Dev.wr_keeps _ _ _) (by rfl)) (denyWrite_keeps _ _) rfl)
      · refine OkP.ok ?_
        exact (DevKeeps.step h1 (Dev.modLane_keeps _ _ _) rfl)

theorem execLaneSectorStart_keeps (a0 : Fin 48) (a1 : BitVec 10) (s : State) :
    NextP (StateKeeps 0x800000000000038000000000000000000000000000000000001BA0A s) (execLaneSectorStart a0 a1 s) := by
  unfold execLaneSectorStart
  refine onDev_keeps ?_
  beta_reduce
  exact DevKeeps.stepOk (DevKeeps.step (.refl _ _) (Dev.atCycle_keeps _ _) rfl) (laneStart_keeps _ _) rfl

theorem purgeEnd_keeps (a0 : ℕ) (d : Dev) :
    DevKeeps 0x8000000000000000000000000000000000000000000000000000202 d (purgeEnd a0 d) := by
  unfold purgeEnd
  extract_lets -merge -underBinder +onlyGivenNames x0
  clear_value x0
  refine iteP (P := DevKeeps 0x8000000000000000000000000000000000000000000000000000202 d) (fun _ => ?_) (fun _ => ?_)
  · exact (DevKeeps.step (DevKeeps.step (.refl _ _) (Dev.setKey_keeps _ _ _) rfl) (Dev.wr_keeps _ _ _) (by rfl))
  · exact (.refl _ _)

theorem tagFailed_keeps (a0 : ℕ) (a1 : ℕ) (a2 : ℕ) (d : Dev) :
    DevKeeps 0xC000000000000000000000000000000000000000000000000001002 d (tagFailed a0 a1 a2 d) := by
  unfold tagFailed
  extract_lets -merge -underBinder +onlyGivenNames x0
  clear_value x0
  extract_lets -merge -underBinder +onlyGivenNames x1
  clear_value x1
  extract_lets -merge -underBinder +onlyGivenNames x2
  have h2 : DevKeeps 0xC000000000000000000000000000000000000000000000000001002 d x2 := by
    subst x2
    exact (DevKeeps.step (.refl _ _) (Dev.wr_keeps _ _ _) (by rfl))
  clear_value x2
  extract_lets -merge -underBinder +onlyGivenNames x3
  clear_value x3
  extract_lets -merge -underBinder +onlyGivenNames x4
  have h4 : DevKeeps 0xC000000000000000000000000000000000000000000000000001002 d x4 := by
    subst x4
    refine iteP (P := DevKeeps 0xC000000000000000000000000000000000000000000000000001002 d) (fun _ => ?_) (fun _ => ?_)
    · exact (DevKeeps.step h2 (Dev.add_keeps _ _ _) (by rfl))
    · exact (DevKeeps.step h2 (Dev.add_keeps _ _ _) (by rfl))
  clear_value x4
  extract_lets -merge -underBinder +onlyGivenNames x5
  clear_value x5
  exact (DevKeeps.step h4 (Dev.modSlot_keeps _ _ _) rfl)

theorem readLaneEnd_keeps (a0 : ℕ) (a1 : ℕ) (a2 : Sector) (a3 : Lane) (d : Dev) :
    DevKeeps 0xC000000000000000000000000000000000000000000000000401002 d (readLaneEnd a0 a1 a2 a3 d) := by
  unfold readLaneEnd
  split
  · exact (.refl _ _)
  · split
    · extract_lets -merge -underBinder +onlyGivenNames x0
      have h0 : DevKeeps 0xC000000000000000000000000000000000000000000000000401002 d x0 := by
        subst x0
        refine iteP (P := DevKeeps 0xC000000000000000000000000000000000000000000000000401002 d) (fun _ => ?_) (fun _ => ?_)
        · exact (.refl _ _)
        · exact (DevKeeps.step (.refl _ _) (tagFailed_keeps _ _ _ _) rfl)
      clear_value x0
      extract_lets -merge -underBinder +onlyGivenNames x1
      clear_value x1
      extract_lets -merge -underBinder +onlyGivenNames x2
      have h2 : DevKeeps 0xC000000000000000000000000000000000000000000000000401002 d x2 := by
        subst x2
        refine iteP (P := DevKeeps 0xC000000000000000000000000000000000000000000000000401002 d) (fun _ => ?_) (fun _ => ?_)
        · exact (DevKeeps.step h0 (Dev.send_keeps _ _) rfl)
        · exact h0
      clear_value x2
      exact (DevKeeps.step h2 (readEnd_keeps _ _) rfl)

theorem writeLaneEnd_keeps (a0 : ℕ) (a1 : ℕ) (a2 : Payload) (a3 : Lane) (d : Dev) :
    DevKeeps 6656 d (writeLaneEnd a0 a1 a2 a3 d) := by
  unfold writeLaneEnd
  split
  · exact (.refl _ _)
  · split
    · rename_i v0_0 v0_1 q0
      have h1 : DevKeeps 6656 d v0_1 := by
        refine SndP.get (P := (DevKeeps 6656 d)) ?_ q0
        refine iteP (P := SndP (DevKeeps 6656 d)) (fun _ => ?_) (fun _ => ?_)
        · exact DevKeeps.stepSnd (.refl _ _) (Dev.takeNonce_keeps _) rfl
        · refine SndP.mk ?_
          exact (.refl _ _)
      extract_lets -merge -underBinder +onlyGivenNames x2
      clear_value x2
      exact (DevKeeps.step (DevKeeps.step h1 (Dev.modPool_keeps _ _) rfl) (Dev.modSlot_keeps _ _ _) rfl)

theorem laneDone_keeps (a0 : ℕ) (d : Dev) :
    OkP (DevKeeps 0xC000000000000000000000000000000000000000000000000401A42 d) (laneDone a0 d) := by
  unfold laneDone
  extract_lets -merge -underBinder +onlyGivenNames x0
  clear_value x0
  split
  · extract_lets -merge -underBinder +onlyGivenNames x1
    have h1 : DevKeeps 0xC000000000000000000000000000000000000000000000000401A42 d x1 := by
      subst x1
      exact (DevKeeps.step (DevKeeps.step (.refl _ _) (Dev.modLane_keeps _ _ _) rfl) (Dev.idleFrom_keeps _ _) rfl)
    clear_value x1
    split
    · refine OkP.ok ?_
      exact (DevKeeps.step (DevKeeps.step h1 (readLaneEnd_keeps _ _ _ _ _) rfl) (purgeEnd_keeps _ _) rfl)
    · refine OkP.ok ?_
      exact (DevKeeps.step (DevKeeps.step h1 (writeLaneEnd_keeps _ _ _ _ _) rfl) (purgeEnd_keeps _ _) rfl)
    · exact trivial
  · exact trivial

theorem execLaneSectorDone_keeps (a0 : Fin 48) (a1 : BitVec 10) (s : State) :
    NextP (StateKeeps 0xC000000000000000000000000000000000000000000000000401A4A s) (execLaneSectorDone a0 a1 s) := by
  unfold execLaneSectorDone
  refine onDev_keeps ?_
  beta_reduce
  exact DevKeeps.stepOk (DevKeeps.step (.refl _ _) (Dev.atCycle_keeps _ _) rfl) (laneDone_keeps _ _) rfl

theorem cipherPost_keeps (a0 : ℕ) (a1 : Desc) (d : Dev) :
    DevKeeps 0x100000000000000000000000000000000000000000000000000202 d (cipherPost a0 a1 d) := by
  unfold cipherPost
  refine iteP (P := DevKeeps 0x100000000000000000000000000000000000000000000000000202 d) (fun _ => ?_) (fun _ => ?_)
  · exact (DevKeeps.step (DevKeeps.step (.refl _ _) (Dev.modCiph_keeps _ _) rfl) (Dev.wrb_keeps _ _ _ _) (by rfl))
  · exact (DevKeeps.step (.refl _ _) (Dev.wrb_keeps _ _ _ _) (by rfl))

theorem execCipherJobEncrypt_keeps (a0 : Fin 64) (a1 : Desc) (s : State) :
    NextP (StateKeeps 0x100000000000000000000000000000000000000000000000000202 s) (execCipherJobEncrypt a0 a1 s) := by
  unfold execCipherJobEncrypt
  refine onDev_keeps ?_
  refine always_keeps ?_
  exact (DevKeeps.step (.refl _ _) (cipherPost_keeps _ _ _) rfl)

theorem execCipherJobDecrypt_keeps (a0 : Fin 64) (a1 : Desc) (s : State) :
    NextP (StateKeeps 0x100000000000000000000000000000000000000000000000000202 s) (execCipherJobDecrypt a0 a1 s) := by
  unfold execCipherJobDecrypt
  refine onDev_keeps ?_
  refine always_keeps ?_
  exact (DevKeeps.step (.refl _ _) (cipherPost_keeps _ _ _) rfl)

theorem runJob_keeps (a0 : Desc) (a1 : BitVec 512) (s : State) :
    SndP (SndP (StateKeeps 8391168 s)) (runJob a0 a1 s) := by
  unfold runJob
  extract_lets -merge -underBinder +onlyGivenNames x0
  clear_value x0
  extract_lets -merge -underBinder +onlyGivenNames x1
  clear_value x1
  extract_lets -merge -underBinder +onlyGivenNames x2
  clear_value x2
  extract_lets -merge -underBinder +onlyGivenNames x3
  clear_value x3
  extract_lets -merge -underBinder +onlyGivenNames x4
  clear_value x4
  extract_lets -merge -underBinder +onlyGivenNames x5
  clear_value x5
  extract_lets -merge -underBinder +onlyGivenNames x6
  clear_value x6
  extract_lets -merge -underBinder +onlyGivenNames x7
  clear_value x7
  extract_lets -merge -underBinder +onlyGivenNames x8
  clear_value x8
  extract_lets -merge -underBinder +onlyGivenNames x9
  clear_value x9
  extract_lets -merge -underBinder +onlyGivenNames x10
  clear_value x10
  extract_lets -merge -underBinder +onlyGivenNames x11
  clear_value x11
  refine iteP (P := SndP (SndP (StateKeeps 8391168 s))) (fun _ => ?_) (fun _ => ?_)
  · refine iteP (P := SndP (SndP (StateKeeps 8391168 s))) (fun _ => ?_) (fun _ => ?_)
    · refine SndP.mk ?_
      refine SndP.mk ?_
      exact (StateKeeps.step (.refl _ _) (State.writeBytes_keeps _ _ _) rfl)
    · refine iteP (P := SndP (SndP (StateKeeps 8391168 s))) (fun _ => ?_) (fun _ => ?_)
      · refine SndP.mk ?_
        refine SndP.mk ?_
        exact (StateKeeps.step (.refl _ _) (State.writeBytes_keeps _ _ _) rfl)
      · refine iteP (P := SndP (SndP (StateKeeps 8391168 s))) (fun _ => ?_) (fun _ => ?_)
        · refine SndP.mk ?_
          refine SndP.mk ?_
          exact (StateKeeps.step (.refl _ _) (State.writeBytes_keeps _ _ _) rfl)
        · refine SndP.mk ?_
          refine SndP.mk ?_
          exact (.refl _ _)
  · refine iteP (P := SndP (SndP (StateKeeps 8391168 s))) (fun _ => ?_) (fun _ => ?_)
    · split
      · rename_i v12_0 v12_1 q12
        have h13 : StateKeeps 8391168 s v12_1 := by
          refine SndP.get (P := (StateKeeps 8391168 s)) ?_ q12
          refine iteP (P := SndP (StateKeeps 8391168 s)) (fun _ => ?_) (fun _ => ?_)
          · split
            · rename_i v14_0 v14_1 q14
              have h15 : DevKeeps 8391168 s.dev v14_1 := by
                refine SndP.get (P := (DevKeeps 8391168 s.dev)) ?_ q14
                exact DevKeeps.stepSnd (.refl _ _) (Dev.takeNonce_keeps _) rfl
              refine SndP.mk ?_
              refine StateKeeps.step ?_ (State.writeBytes_keeps _ _ _) rfl
              refine StateKeeps.setDev ?_ ?_
              · exact (.refl _ _)
              · exact h15
          · refine SndP.mk ?_
            exact (.refl _ _)
        extract_lets -merge -underBinder +onlyGivenNames x16
        clear_value x16
        refine SndP.mk ?_
        refine SndP.mk ?_
        exact (StateKeeps.step h13 (State.writeBytes_keeps _ _ _) rfl)
    · refine iteP (P := SndP (SndP (StateKeeps 8391168 s))) (fun _ => ?_) (fun _ => ?_)
      · refine SndP.mk ?_
        refine SndP.mk ?_
        exact (StateKeeps.step (.refl _ _) (State.writeBytes_keeps _ _ _) rfl)
      · refine SndP.mk ?_
        refine SndP.mk ?_
        exact (StateKeeps.step (.refl _ _) (State.writeBytes_keeps _ _ _) rfl)

theorem cipherJobDone_keeps (a0 : ℕ) (s : State) :
    OkP (StateKeeps 0xA000000000000000000000000000000000000000000000000800A42 s) (cipherJobDone a0 s) := by
  unfold cipherJobDone
  extract_lets -merge -underBinder +onlyGivenNames x0
  clear_value x0
  split
  · split
    · extract_lets -merge -underBinder +onlyGivenNames x1
      have h1 : StateKeeps 0xA000000000000000000000000000000000000000000000000800A42 s x1 := by
        subst x1
        refine StateKeeps.modDev ?_ ?_
        · exact (.refl _ _)
        · beta_reduce
          exact (DevKeeps.step (DevKeeps.step (.refl _ _) (Dev.modLane_keeps _ _ _) rfl) (Dev.idleFrom_keeps _ _) rfl)
      clear_value x1
      split
      · rename_i v2_0 v2_1 v2_2 q2
        have h3 : StateKeeps 0xA000000000000000000000000000000000000000000000000800A42 s v2_2 := by
          refine SndP.get (P := (StateKeeps 0xA000000000000000000000000000000000000000000000000800A42 s)) (SndP.get (P := SndP (StateKeeps 0xA000000000000000000000000000000000000000000000000800A42 s)) ?_ q2) rfl
          refine iteP (P := SndP (SndP (StateKeeps 0xA000000000000000000000000000000000000000000000000800A42 s))) (fun _ => ?_) (fun _ => ?_)
          · exact StateKeeps.stepSndSnd h1 (runJob_keeps _ _ _) rfl
          · refine SndP.mk ?_
            refine SndP.mk ?_
            exact h1
        extract_lets -merge -underBinder +onlyGivenNames x4
        clear_value x4
        refine OkP.ok ?_
        refine StateKeeps.step ?_ (drainCiph_keeps _) rfl
        refine StateKeeps.modDev ?_ ?_
        · exact h3
        · beta_reduce
          exact (DevKeeps.step (DevKeeps.step (StateKeeps.dev h3) (Dev.modCiph_keeps _ _) rfl) (purgeEnd_keeps _ _) rfl)
    · exact trivial
  · exact trivial

theorem execCipherJobDone_keeps (a0 : Fin 48) (s : State) :
    NextP (StateKeeps 0xA000000000000000000000000000000000000000000000000800A42 s) (execCipherJobDone a0 s) := by
  unfold execCipherJobDone
  split
  · rename_i v0_0 q0
    have h1 : StateKeeps 0xA000000000000000000000000000000000000000000000000800A42 s v0_0 := by
      refine OkP.get (P := (StateKeeps 0xA000000000000000000000000000000000000000000000000800A42 s)) ?_ q0
      exact StateKeeps.stepOk (.refl _ _) (cipherJobDone_keeps _ _) rfl
    refine NextP.next ?_
    exact h1
  · exact StateKeeps.stepNext (.refl _ _) (noEvent_keeps _ _) rfl

theorem keyDone_keeps (a0 : ℕ) (d : Dev) :
    DevKeeps 0x8000800000000000000000000000000000000000000000000000002 d (keyDone a0 d) := by
  unfold keyDone
  exact (DevKeeps.step (DevKeeps.step (.refl _ _) (Dev.wr_keeps _ _ _) (by rfl)) (Dev.wr_keeps _ _ _) (by rfl))

theorem keyCmdFields_keeps (a0 : ℕ) (a1 : ℕ) (d : Dev) :
    DevKeeps 0x100000000000000000000000000000000000000000000000002 d (keyCmdFields a0 a1 d) := by
  unfold keyCmdFields
  extract_lets -merge -underBinder +onlyGivenNames x0
  have h0 : DevKeeps 0x100000000000000000000000000000000000000000000000002 d x0 := by
    subst x0
    exact (DevKeeps.step (.refl _ _) (Dev.wr_keeps _ _ _) (by rfl))
  clear_value x0
  extract_lets -merge -underBinder +onlyGivenNames x1
  have h1 : DevKeeps 0x100000000000000000000000000000000000000000000000002 d x1 := by
    subst x1
    refine iteP (P := DevKeeps 0x100000000000000000000000000000000000000000000000002 d) (fun _ => ?_) (fun _ => ?_)
    · exact h0
    · exact (DevKeeps.step h0 (Dev.wr_keeps _ _ _) (by rfl))
  clear_value x1
  exact (DevKeeps.step h1 (Dev.wr_keeps _ _ _) (by rfl))

theorem putBlob_keeps (a0 : ℕ) (a1 : ℕ) (s : State) :
    StateKeeps 8391168 s (putBlob a0 a1 s) := by
  unfold putBlob
  extract_lets -merge -underBinder +onlyGivenNames x0
  clear_value x0
  split
  · rename_i v1_0 v1_1 q1
    have h2 : DevKeeps 8391168 s.dev v1_1 := by
      refine SndP.get (P := (DevKeeps 8391168 s.dev)) ?_ q1
      exact DevKeeps.stepSnd (.refl _ _) (Dev.takeNonce_keeps _) rfl
    refine StateKeeps.step ?_ (State.writeBytes_keeps _ _ _) rfl
    refine StateKeeps.setDev ?_ ?_
    · exact (.refl _ _)
    · exact h2

theorem keyGenerateIn_keeps (a0 : ℕ) (a1 : ℕ) (a2 : ℕ) (s : State) :
    StateKeeps 8391169 s (keyGenerateIn a0 a1 a2 s) := by
  unfold keyGenerateIn
  extract_lets -merge -underBinder +onlyGivenNames x0
  clear_value x0
  extract_lets -merge -underBinder +onlyGivenNames x1
  clear_value x1
  refine StateKeeps.step ?_ (putBlob_keeps _ _ _) rfl
  refine StateKeeps.modDev ?_ ?_
  · exact (.refl _ _)
  · beta_reduce
    exact (DevKeeps.step (DevKeeps.step (.refl _ _) (Dev.tick_keeps _ _) rfl) (Dev.setKey_keeps _ _ _) rfl)

theorem keyGenerate_keeps (a0 : ℕ) (s : State) :
    StateKeeps 0x8000900000000000000000000000000000000000000000000800A03 s (keyGenerate a0 s) := by
  unfold keyGenerate
  extract_lets -merge -underBinder +onlyGivenNames x0
  clear_value x0
  extract_lets -merge -underBinder +onlyGivenNames x1
  have h1 : StateKeeps 0x8000900000000000000000000000000000000000000000000800A03 s x1 := by
    subst x1
    refine StateKeeps.modDev ?_ ?_
    · exact (.refl _ _)
    · exact (DevKeeps.step (.refl _ _) (keyCmdFields_keeps _ _ _) rfl)
  clear_value x1
  extract_lets -merge -underBinder +onlyGivenNames x2
  clear_value x2
  refine iteP (P := StateKeeps 0x8000900000000000000000000000000000000000000000000800A03 s) (fun _ => ?_) (fun _ => ?_)
  · refine StateKeeps.modDev ?_ ?_
    · exact h1
    · exact (DevKeeps.step (StateKeeps.dev h1) (keyDone_keeps _ _) rfl)
  · refine iteP (P := StateKeeps 0x8000900000000000000000000000000000000000000000000800A03 s) (fun _ => ?_) (fun _ => ?_)
    · refine StateKeeps.modDev ?_ ?_
      · exact h1
      · exact (DevKeeps.step (StateKeeps.dev h1) (keyDone_keeps _ _) rfl)
    · refine StateKeeps.modDev ?_ ?_
      · exact (StateKeeps.step h1 (keyGenerateIn_keeps _ _ _ _) rfl)
      · exact (DevKeeps.step (StateKeeps.dev (StateKeeps.step h1 (keyGenerateIn_keeps _ _ _ _) rfl)) (keyDone_keeps _ _) rfl)

theorem loadResult_keeps (a0 : Nat) (a1 : Bool) (a2 : Except Nat KeySlot) (s : State) : StateKeeps 0x8000800000000000000000000000000000000000000000000800A02 s (loadResult a0 a1 a2 s) := by
  unfold loadResult
  split
  · exact StateKeeps.modDev (.refl _ _) ((keyDone_keeps _ _).mono rfl)
  · extract_lets x y
    have h1 : StateKeeps 0x8000800000000000000000000000000000000000000000000800A02 s x := StateKeeps.modDev (.refl _ _) ((Dev.setKey_keeps _ _ _).mono rfl)
    have h2 : StateKeeps 0x8000800000000000000000000000000000000000000000000800A02 s y := iteP (P := StateKeeps 0x8000800000000000000000000000000000000000000000000800A02 s) (fun _ => h1.step (putBlob_keeps _ _ _) rfl) (fun _ => h1)
    exact StateKeeps.modDev h2 (h2.dev.step (keyDone_keeps _ _) rfl)

theorem loadWrapped_keeps (a0 : ℕ) (a1 : BitVec 512) (a2 : Bool) (s : State) :
    StateKeeps 0x8000800000000000000000000000000000000000000000000800A02 s (loadWrapped a0 a1 a2 s) := by
  unfold loadWrapped
  exact (StateKeeps.step (.refl _ _) (loadResult_keeps _ _ _ _) rfl)

theorem loadPlain_keeps (a0 : Nat) (s : State) : StateKeeps 0x8000800000000000000000000000000000000000000000000800A02 s (loadPlain a0 s) := by
  unfold loadPlain
  extract_lets a mode gen key
  have h1 : ∀ x, StateKeeps 0x8000800000000000000000000000000000000000000000000800A02 s (putBlob a0 (a + 128) (s.modDev fun d => d.setKey a0 x)) := fun x =>
    StateKeeps.step (StateKeeps.modDev (.refl _ _) ((Dev.setKey_keeps _ _ _).mono rfl)) (putBlob_keeps _ _ _) rfl
  exact StateKeeps.modDev (h1 _) ((h1 _).dev.step (keyDone_keeps _ _) rfl)

theorem keyLoad_keeps (a0 : ℕ) (s : State) :
    StateKeeps 0x8000900000000000000000000000000000000000000000000800A02 s (keyLoad a0 s) := by
  unfold keyLoad
  extract_lets -merge -underBinder +onlyGivenNames x0
  clear_value x0
  extract_lets -merge -underBinder +onlyGivenNames x1
  have h1 : StateKeeps 0x8000900000000000000000000000000000000000000000000800A02 s x1 := by
    subst x1
    refine StateKeeps.modDev ?_ ?_
    · exact (.refl _ _)
    · exact (DevKeeps.step (.refl _ _) (keyCmdFields_keeps _ _ _) rfl)
  clear_value x1
  extract_lets -merge -underBinder +onlyGivenNames x2
  clear_value x2
  extract_lets -merge -underBinder +onlyGivenNames x3
  clear_value x3
  refine iteP (P := StateKeeps 0x8000900000000000000000000000000000000000000000000800A02 s) (fun _ => ?_) (fun _ => ?_)
  · refine StateKeeps.modDev ?_ ?_
    · exact h1
    · exact (DevKeeps.step (StateKeeps.dev h1) (keyDone_keeps _ _) rfl)
  · refine iteP (P := StateKeeps 0x8000900000000000000000000000000000000000000000000800A02 s) (fun _ => ?_) (fun _ => ?_)
    · refine StateKeeps.modDev ?_ ?_
      · exact h1
      · exact (DevKeeps.step (StateKeeps.dev h1) (keyDone_keeps _ _) rfl)
    · refine iteP (P := StateKeeps 0x8000900000000000000000000000000000000000000000000800A02 s) (fun _ => ?_) (fun _ => ?_)
      · exact (StateKeeps.step h1 (loadWrapped_keeps _ _ _ _) rfl)
      · refine iteP (P := StateKeeps 0x8000900000000000000000000000000000000000000000000800A02 s) (fun _ => ?_) (fun _ => ?_)
        · refine iteP (P := StateKeeps 0x8000900000000000000000000000000000000000000000000800A02 s) (fun _ => ?_) (fun _ => ?_)
          · exact (StateKeeps.step h1 (loadWrapped_keeps _ _ _ _) rfl)
          · refine StateKeeps.modDev ?_ ?_
            · exact h1
            · exact (DevKeeps.step (StateKeeps.dev h1) (keyDone_keeps _ _) rfl)
        · exact (StateKeeps.step h1 (loadPlain_keeps _ _) rfl)

theorem purgeSlot_keeps (a0 : ℕ) (d : Dev) :
    DevKeeps 0x8000000000000000000000000000000000000000000000000000202 d (purgeSlot a0 d) := by
  unfold purgeSlot
  extract_lets -merge -underBinder +onlyGivenNames x0
  clear_value x0
  exact (DevKeeps.step (DevKeeps.step (.refl _ _) (Dev.setKey_keeps _ _ _) rfl) (purgeEnd_keeps _ _) rfl)

theorem keyPurge_keeps (a0 : ℕ) (d : Dev) :
    DevKeeps 0x8000900000000000000000000000000000000000000000000000202 d (keyPurge a0 d) := by
  unfold keyPurge
  extract_lets -merge -underBinder +onlyGivenNames x0
  clear_value x0
  extract_lets -merge -underBinder +onlyGivenNames x1
  have h1 : DevKeeps 0x8000900000000000000000000000000000000000000000000000202 d x1 := by
    subst x1
    exact (DevKeeps.step (.refl _ _) (keyCmdFields_keeps _ _ _) rfl)
  clear_value x1
  refine iteP (P := DevKeeps 0x8000900000000000000000000000000000000000000000000000202 d) (fun _ => ?_) (fun _ => ?_)
  · exact (DevKeeps.step h1 (keyDone_keeps _ _) rfl)
  · exact (DevKeeps.step (DevKeeps.step h1 (Dev.wr_keeps _ _ _) (by rfl)) (purgeSlot_keeps _ _) rfl)

theorem execKeyGenerate_keeps (a0 : Word) (s : State) :
    NextP (StateKeeps 0x8000900000000000000000000000000000000000000000000800A03 s) (execKeyGenerate a0 s) := by
  unfold execKeyGenerate
  refine NextP.next ?_
  refine orRsvWide_keeps ?_ ?_ rfl
  · exact (.refl _ _)
  · exact (StateKeeps.step (.refl _ _) (keyGenerate_keeps _ _) rfl)

theorem execKeyLoad_keeps (a0 : Word) (s : State) :
    NextP (StateKeeps 0x8000900000000000000000000000000000000000000000000800A03 s) (execKeyLoad a0 s) := by
  unfold execKeyLoad
  refine NextP.next ?_
  refine orRsvWide_keeps ?_ ?_ rfl
  · exact (.refl _ _)
  · exact (StateKeeps.step (.refl _ _) (keyLoad_keeps _ _) rfl)

theorem execKeyCmdPurge_keeps (a0 : Word) (s : State) :
    NextP (StateKeeps 0x8000900000000000000000000000000000000000000000000000203 s) (execKeyCmdPurge a0 s) := by
  unfold execKeyCmdPurge
  refine onDev_keeps ?_
  refine orRsv_keeps ?_ ?_ rfl
  · exact (.refl _ _)
  · exact (DevKeeps.step (.refl _ _) (keyPurge_keeps _ _) rfl)

end Sys2Proof.Machine
end

