-- ==== Sys2Proof/Laws/KeepDram.lean ====
section
/-! SUPPORT. What each operation of Machine/Dram.lean leaves as it was. -/

namespace Sys2Proof.Machine

theorem Dev.modDram_keeps (d : Dev) (a1 : Dram → Dram) :
    DevKeeps 1024 d (Dev.modDram d a1) := by
  unfold Dev.modDram
  exact DevKeeps.set_dram _ (.refl _ _) rfl

theorem loseStaged_keeps (a0 : ℕ) (a1 : ℕ) (a2 : ℕ) (a3 : Bool) (d : Dev) :
    DevKeeps 0x8000000000000000617803 d (loseStaged a0 a1 a2 a3 d) := by
  unfold loseStaged
  extract_lets -merge -underBinder +onlyGivenNames x0
  clear_value x0
  extract_lets -merge -underBinder +onlyGivenNames x1
  clear_value x1
  extract_lets -merge -underBinder +onlyGivenNames x2
  clear_value x2
  extract_lets -merge -underBinder +onlyGivenNames x3
  have h3 : DevKeeps 0x8000000000000000617803 d x3 := by
    subst x3
    exact (DevKeeps.step (DevKeeps.step (.refl _ _) (freeSectorCells_keeps _ _) rfl) (dropStage_keeps _ _ _ _) rfl)
  clear_value x3
  extract_lets -merge -underBinder +onlyGivenNames x4
  have h4 : DevKeeps 0x8000000000000000617803 d x4 := by
    subst x4
    exact (DevKeeps.step h3 (Dev.modZone_keeps _ _ _ _) rfl)
  clear_value x4
  refine iteP (P := DevKeeps 0x8000000000000000617803 d) (fun _ => ?_) (fun _ => ?_)
  · exact (.refl _ _)
  · exact (DevKeeps.step (DevKeeps.step h4 (deferredError_keeps _ _ _ _ _) rfl) (markZone_keeps _ _ _ _) rfl)

theorem loseConv_keeps (a0 : ℕ) (a1 : ℕ) (a2 : Bool) (d : Dev) :
    DevKeeps 0x8000000000000000003802 d (loseConv a0 a1 a2 d) := by
  unfold loseConv
  extract_lets -merge -underBinder +onlyGivenNames x0
  clear_value x0
  extract_lets -merge -underBinder +onlyGivenNames x1
  clear_value x1
  extract_lets -merge -underBinder +onlyGivenNames x2
  have h2 : DevKeeps 0x8000000000000000003802 d x2 := by
    subst x2
    exact (DevKeeps.step (DevKeeps.step (.refl _ _) (freeSectorCells_keeps _ _) rfl) (dropStage_keeps _ _ _ _) rfl)
  clear_value x2
  exact (DevKeeps.step (DevKeeps.step h2 (Dev.modZm_keeps _ _) rfl) (deferredError_keeps _ _ _ _ _) rfl)

theorem cellLost_keeps (a0 : ℕ) (d : Dev) :
    DevKeeps 0x8000000000000000617803 d (cellLost a0 d) := by
  unfold cellLost
  extract_lets -merge -underBinder +onlyGivenNames x0
  have h0 : DevKeeps 0x8000000000000000617803 d x0 := by
    subst x0
    exact (DevKeeps.step (.refl _ _) (Dev.modPool_keeps _ _) rfl)
  clear_value x0
  extract_lets -merge -underBinder +onlyGivenNames x1
  have h1 : DevKeeps 0x8000000000000000617803 d x1 := by
    subst x1
    refine DevKeeps.foldl ?_ (fun y2 a2 h2 => ?_)
    · exact h0
    · beta_reduce
      refine DevKeeps.foldl ?_ (fun y3 a3 h3 => ?_)
      · exact h2
      · beta_reduce
        refine iteP (P := DevKeeps 0x8000000000000000617803 d) (fun _ => ?_) (fun _ => ?_)
        · exact (DevKeeps.step h3 (loseStaged_keeps _ _ _ _ _) rfl)
        · exact h3
  clear_value x1
  refine DevKeeps.foldl ?_ (fun y4 a4 h4 => ?_)
  · exact h1
  · beta_reduce
    split
    · refine iteP (P := DevKeeps 0x8000000000000000617803 d) (fun _ => ?_) (fun _ => ?_)
      · exact (DevKeeps.step h4 (loseConv_keeps _ _ _ _) rfl)
      · exact h4
    · exact h4

theorem wordLost_keeps (a0 : ℕ) (d : Dev) :
    DevKeeps 0x8000000000000000617883 d (wordLost a0 d) := by
  unfold wordLost
  extract_lets -merge -underBinder +onlyGivenNames x0
  clear_value x0
  split
  · exact (DevKeeps.step (.refl _ _) (cellLost_keeps _ _) rfl)
  · exact (DevKeeps.step (.refl _ _) (cellLost_keeps _ _) rfl)
  · exact (DevKeeps.step (.refl _ _) (cellLost_keeps _ _) rfl)
  · refine iteP (P := DevKeeps 0x8000000000000000617883 d) (fun _ => ?_) (fun _ => ?_)
    · exact (DevKeeps.step (.refl _ _) (Dev.modPar_keeps _ _) rfl)
    · exact (.refl _ _)

theorem dmcCtlWrite_keeps (a0 : ℕ) (d : Dev) :
    DevKeeps 0x100000800000000000000000000000000000000000000402 d (dmcCtlWrite a0 d) := by
  unfold dmcCtlWrite
  extract_lets -merge -underBinder +onlyGivenNames x0
  have h0 : DevKeeps 0x100000800000000000000000000000000000000000000402 d x0 := by
    subst x0
    exact (DevKeeps.step (DevKeeps.step (.refl _ _) (Dev.wr_keeps _ _ _) (by rfl)) (Dev.wr_keeps _ _ _) (by rfl))
  clear_value x0
  refine iteP (P := DevKeeps 0x100000800000000000000000000000000000000000000402 d) (fun _ => ?_) (fun _ => ?_)
  · refine iteP (P := DevKeeps 0x100000800000000000000000000000000000000000000402 d) (fun _ => ?_) (fun _ => ?_)
    · exact (DevKeeps.step h0 (Dev.wr_keeps _ _ _) (by rfl))
    · exact (DevKeeps.step h0 (Dev.modDram_keeps _ _) rfl)
  · exact h0

theorem execDramTrain_keeps (a0 : Word) (s : State) :
    NextP (StateKeeps 0x100000800000000000000000000000000000000000000403 s) (execDramTrain a0 s) := by
  unfold execDramTrain
  refine onDev_keeps ?_
  refine orRsv_keeps ?_ ?_ rfl
  · exact (.refl _ _)
  · exact (DevKeeps.step (.refl _ _) (dmcCtlWrite_keeps _ _) rfl)

theorem retireSub_keeps (a0 : ℕ) (d : Dev) :
    DevKeeps 0x100000000000000000000000000000000000000000000402 d (retireSub a0 d) := by
  unfold retireSub
  extract_lets -merge -underBinder +onlyGivenNames x0
  clear_value x0
  exact (DevKeeps.step (DevKeeps.step (.refl _ _) (Dev.modDram_keeps _ _) rfl) (Dev.wr_keeps _ _ _) (by rfl))

theorem halveCredits_keeps (d : Dev) :
    DevKeeps 0x1000000000000000000000000000000000000000000002 d (halveCredits d) := by
  unfold halveCredits
  refine DevKeeps.foldl ?_ (fun y0 a0 h0 => ?_)
  · exact (.refl _ _)
  · beta_reduce
    exact (DevKeeps.step h0 (Dev.wrb_keeps _ _ _ _) (by rfl))

theorem retireMask_keeps (a0 : ℕ) (d : Dev) :
    DevKeeps 0x101000000000000000000000000000000000000030000402 d (retireMask a0 d) := by
  unfold retireMask
  extract_lets -merge -underBinder +onlyGivenNames x0
  clear_value x0
  extract_lets -merge -underBinder +onlyGivenNames x1
  have h1 : DevKeeps 0x101000000000000000000000000000000000000030000402 d x1 := by
    subst x1
    refine DevKeeps.forUpTo ?_ (fun a2 y2 h2 => ?_)
    · exact (.refl _ _)
    · beta_reduce
      refine iteP (P := DevKeeps 0x101000000000000000000000000000000000000030000402 d) (fun _ => ?_) (fun _ => ?_)
      · exact (DevKeeps.step (DevKeeps.step h2 (retireSub_keeps _ _) rfl) (halveCredits_keeps _) rfl)
      · exact h2
  clear_value x1
  refine iteP (P := DevKeeps 0x101000000000000000000000000000000000000030000402 d) (fun _ => ?_) (fun _ => ?_)
  · exact (DevKeeps.step (.refl _ _) (Dev.wr_keeps _ _ _) (by rfl))
  · refine iteP (P := DevKeeps 0x101000000000000000000000000000000000000030000402 d) (fun _ => ?_) (fun _ => ?_)
    · exact h1
    · exact (DevKeeps.step h1 (faultOn_keeps _ _) rfl)

theorem execSubchannelRetire_keeps (a0 : Word) (s : State) :
    NextP (StateKeeps 0x101000000000000000000000000000000000000030000403 s) (execSubchannelRetire a0 s) := by
  unfold execSubchannelRetire
  refine onDev_keeps ?_
  refine orRsv_keeps ?_ ?_ rfl
  · exact (.refl _ _)
  · exact (DevKeeps.step (.refl _ _) (retireMask_keeps _ _) rfl)

theorem Dev.setCheck_keeps (d : Dev) (a1 : ℕ) (a2 : Option ℕ) :
    DevKeeps 64 d (Dev.setCheck d a1 a2) := by
  unfold Dev.setCheck
  exact (DevKeeps.step (.refl _ _) (Dev.modEcc_keeps _ _) rfl)

theorem dramTrained_keeps (a0 : DramTraining) (d : Dev) :
    DevKeeps 0x101000800000000000000000000000000000000030000442 d (dramTrained a0 d) := by
  unfold dramTrained
  extract_lets -merge -underBinder +onlyGivenNames x0
  have h0 : DevKeeps 0x101000800000000000000000000000000000000030000442 d x0 := by
    subst x0
    exact (DevKeeps.step (.refl _ _) (Dev.modDram_keeps _ _) rfl)
  clear_value x0
  extract_lets -merge -underBinder +onlyGivenNames x1
  have h1 : DevKeeps 0x101000800000000000000000000000000000000030000442 d x1 := by
    subst x1
    refine DevKeeps.foldl ?_ (fun y2 a2 h2 => ?_)
    · exact (DevKeeps.step h0 (Dev.wr_keeps _ _ _) (by rfl))
    · beta_reduce
      exact (DevKeeps.step h2 (retireMask_keeps _ _) rfl)
  clear_value x1
  extract_lets -merge -underBinder +onlyGivenNames x3
  have h3 : DevKeeps 0x101000800000000000000000000000000000000030000442 d x3 := by
    subst x3
    exact (DevKeeps.step h1 (Dev.flagIf_keeps _ _ _) (by rfl))
  clear_value x3
  exact (DevKeeps.step h3 (Dev.setCheck_keeps _ _ _) rfl)

theorem execDramTrained_keeps (a0 : DramTraining) (s : State) :
    NextP (StateKeeps 0x101000800000000000000000000000000000000030000442 s) (execDramTrained a0 s) := by
  unfold execDramTrained
  refine onDev_keeps ?_
  beta_reduce
  refine onlyIf_keeps ?_
  exact (DevKeeps.step (.refl _ _) (dramTrained_keeps _ _) rfl)

theorem dramInit_keeps (s : State) : StateKeeps 8391680 s (dramInit s) :=
  ⟨⟨fun _ => rfl, fun _ => rfl, fun _ => rfl, fun _ => rfl, fun _ => rfl, fun _ => rfl, fun _ => rfl, fun _ => rfl, fun _ => rfl, fun _ => rfl, fun h => absurd h (by decide), fun h => absurd h (by decide), fun _ => rfl, fun _ => rfl, fun _ => rfl, fun _ => rfl, fun _ => rfl, fun _ => rfl, fun _ => rfl, fun _ => rfl, fun _ => rfl, fun _ => rfl, fun _ => rfl, fun _ _ => rfl⟩, rfl, fun h => absurd h (by decide), mapWf_filter _⟩

theorem execDramInitDone_keeps (s : State) :
    NextP (StateKeeps 8391680 s) (execDramInitDone s) := by
  unfold execDramInitDone
  refine iteP (P := NextP (StateKeeps 8391680 s)) (fun _ => ?_) (fun _ => ?_)
  · refine NextP.next ?_
    exact (StateKeeps.step (.refl _ _) (dramInit_keeps _) rfl)
  · exact StateKeeps.stepNext (.refl _ _) (noEvent_keeps _ _) rfl

theorem Dev.modDport_keeps (d : Dev) (a1 : ℕ) (a2 : DramPort → DramPort) :
    DevKeeps 1024 d (Dev.modDport d a1 a2) := by
  unfold Dev.modDport
  extract_lets -merge -underBinder +onlyGivenNames x0
  clear_value x0
  exact (DevKeeps.step (.refl _ _) (Dev.modDram_keeps _ _) rfl)

theorem rollCount_keeps (a0 : ℕ) (a1 : ℕ) (d : Dev) :
    DevKeeps 0x8000000000000000000000000000000000000000000402 d (rollCount a0 a1 d) := by
  unfold rollCount
  extract_lets -merge -underBinder +onlyGivenNames x0
  clear_value x0
  refine iteP (P := DevKeeps 0x8000000000000000000000000000000000000000000402 d) (fun _ => ?_) (fun _ => ?_)
  · exact (DevKeeps.step (DevKeeps.step (.refl _ _) (Dev.modDram_keeps _ _) rfl) (Dev.add_keeps _ _ _) (by rfl))
  · exact (DevKeeps.step (.refl _ _) (Dev.modDram_keeps _ _) rfl)

theorem activate_keeps (a0 : ℕ) (a1 : ℕ) (a2 : ℕ) (a3 : ℕ) (d : Dev) :
    DevKeeps 0x108000000000000000000000000000000000000000000402 d (activate a0 a1 a2 a3 d) := by
  unfold activate
  extract_lets -merge -underBinder +onlyGivenNames x0
  have h0 : DevKeeps 0x108000000000000000000000000000000000000000000402 d x0 := by
    subst x0
    exact (DevKeeps.step (DevKeeps.step (.refl _ _) (Dev.modDram_keeps _ _) rfl) (rollCount_keeps _ _ _) rfl)
  clear_value x0
  extract_lets -merge -underBinder +onlyGivenNames x1
  clear_value x1
  extract_lets -merge -underBinder +onlyGivenNames x2
  have h2 : DevKeeps 0x108000000000000000000000000000000000000000000402 d x2 := by
    subst x2
    exact (DevKeeps.step h0 (Dev.modDram_keeps _ _) rfl)
  clear_value x2
  refine iteP (P := DevKeeps 0x108000000000000000000000000000000000000000000402 d) (fun _ => ?_) (fun _ => ?_)
  · exact (.refl _ _)
  · refine iteP (P := DevKeeps 0x108000000000000000000000000000000000000000000402 d) (fun _ => ?_) (fun _ => ?_)
    · exact (DevKeeps.step (DevKeeps.step (DevKeeps.step h2 (Dev.add_keeps _ _ _) (by rfl)) (Dev.add_keeps _ _ _) (by rfl)) (Dev.wr_keeps _ _ _) (by rfl))
    · exact h0

theorem issueDram_keeps (a0 : ℕ) (a1 : DramReq) (d : Dev) :
    DevKeeps 0x108000000000000000000000000000000000000000000402 d (issueDram a0 a1 d) := by
  unfold issueDram
  extract_lets -merge -underBinder +onlyGivenNames x0
  clear_value x0
  extract_lets -merge -underBinder +onlyGivenNames x1
  clear_value x1
  extract_lets -merge -underBinder +onlyGivenNames x2
  clear_value x2
  extract_lets -merge -underBinder +onlyGivenNames x3
  clear_value x3
  extract_lets -merge -underBinder +onlyGivenNames x4
  clear_value x4
  extract_lets -merge -underBinder +onlyGivenNames x5
  have h5 : DevKeeps 0x108000000000000000000000000000000000000000000402 d x5 := by
    subst x5
    refine iteP (P := DevKeeps 0x108000000000000000000000000000000000000000000402 d) (fun _ => ?_) (fun _ => ?_)
    · exact (.refl _ _)
    · exact (DevKeeps.step (.refl _ _) (activate_keeps _ _ _ _ _) rfl)
  clear_value x5
  exact (DevKeeps.step (DevKeeps.step h5 (Dev.modDram_keeps _ _) rfl) (activate_keeps _ _ _ _ _) rfl)

theorem issueWrites_keeps (a0 : ℕ) (a1 : ℕ) (a2 : ℕ) (a3 : ℕ) (d : Dev) :
    DevKeeps 0x108000000000000000000000000000000000000000000402 d (issueWrites a0 a1 a2 a3 d) := by
  induction a3 generalizing d with
  | zero => exact DevKeeps.refl _ _
  | succ n ih =>
    unfold issueWrites
    split
    · exact DevKeeps.step (DevKeeps.step (DevKeeps.step (.refl _ _) (Dev.modDram_keeps _ _) rfl) (issueDram_keeps _ _ _) rfl) (ih _) rfl
    · exact (.refl _ _)

theorem drainWrites_keeps (a0 : ℕ) (d : Dev) :
    DevKeeps 0x108000000000000000000000000000000000000000000402 d (drainWrites a0 d) := by
  unfold drainWrites
  extract_lets -merge -underBinder +onlyGivenNames x0
  clear_value x0
  refine iteP (P := DevKeeps 0x108000000000000000000000000000000000000000000402 d) (fun _ => ?_) (fun _ => ?_)
  · exact (DevKeeps.step (.refl _ _) (issueWrites_keeps _ _ _ _ _) rfl)
  · exact (.refl _ _)

theorem enqueue_keeps (a0 : DramReq) (d : Dev) :
    DevKeeps 0x108000000000000000000000000000000000000000000402 d (enqueue a0 d) := by
  unfold enqueue
  refine DevKeeps.foldl ?_ (fun y0 a0 h0 => ?_)
  · exact (.refl _ _)
  · beta_reduce
    refine iteP (P := DevKeeps 0x108000000000000000000000000000000000000000000402 d) (fun _ => ?_) (fun _ => ?_)
    · exact (DevKeeps.step (DevKeeps.step h0 (Dev.modDram_keeps _ _) rfl) (drainWrites_keeps _ _) rfl)
    · exact (DevKeeps.step h0 (Dev.modDram_keeps _ _) rfl)

theorem admitDram_keeps (a0 : ℕ) (d : Dev) :
    DevKeeps 0x108000000000000000000000000000000000000000000402 d (admitDram a0 d) := by
  induction a0 generalizing d with
  | zero => exact DevKeeps.refl _ _
  | succ n ih =>
    unfold admitDram
    split
    · extract_lets -merge -underBinder +onlyGivenNames x0
      have h0 : DevKeeps 0x108000000000000000000000000000000000000000000402 d x0 := by
        subst x0
        exact (DevKeeps.step (DevKeeps.step (.refl _ _) (Dev.modDram_keeps _ _) rfl) (enqueue_keeps _ _) rfl)
      clear_value x0
      extract_lets -merge -underBinder +onlyGivenNames x1
      have h1 : DevKeeps 0x108000000000000000000000000000000000000000000402 d x1 := by
        subst x1
        refine iteP (P := DevKeeps 0x108000000000000000000000000000000000000000000402 d) (fun _ => ?_) (fun _ => ?_)
        · exact (DevKeeps.step (DevKeeps.step h0 (Dev.modDport_keeps _ _ _) rfl) (Dev.modDram_keeps _ _) rfl)
        · exact h0
      clear_value x1
      exact DevKeeps.step h1 (ih _) rfl
    · exact (.refl _ _)

theorem markWaits_keeps (d : Dev) :
    DevKeeps 1024 d (markWaits d) := by
  unfold markWaits
  refine DevKeeps.forUpTo ?_ (fun a0 y0 h0 => ?_)
  · exact (.refl _ _)
  · beta_reduce
    refine iteP (P := DevKeeps 1024 d) (fun _ => ?_) (fun _ => ?_)
    · exact (DevKeeps.step h0 (Dev.modDport_keeps _ _ _) rfl)
    · exact h0

theorem Dev.admitAll_keeps (d : Dev) :
    DevKeeps 0x108000000000000000000000000000000000000000000402 d (Dev.admitAll d) := by
  unfold Dev.admitAll
  exact (DevKeeps.step (DevKeeps.step (.refl _ _) (admitDram_keeps _ _) rfl) (markWaits_keeps _) rfl)

theorem dramRequest_keeps (a0 : DramReq) (d : Dev) :
    OkP (DevKeeps 0x108000000000000000000000000000000000000000000402 d) (dramRequest a0 d) := by
  unfold dramRequest
  refine iteP (P := OkP (DevKeeps 0x108000000000000000000000000000000000000000000402 d)) (fun _ => ?_) (fun _ => ?_)
  · refine OkP.ok ?_
    exact (DevKeeps.step (DevKeeps.step (.refl _ _) (Dev.modDram_keeps _ _) rfl) (Dev.admitAll_keeps _) rfl)
  · exact trivial

theorem execDramRequestAdmit_keeps (a0 : Fin 8) (a1 : BitVec 40) (a2 : Bool) (a3 : Bool) (s : State) :
    NextP (StateKeeps 0x108000000000000000000000000000000000000000000402 s) (execDramRequestAdmit a0 a1 a2 a3 s) := by
  unfold execDramRequestAdmit
  refine onDev_keeps ?_
  beta_reduce
  exact DevKeeps.stepOk (.refl _ _) (dramRequest_keeps _ _) rfl

theorem dramStroke_keeps (d : Dev) :
    DevKeeps 0x10A000000000000000000000000000000000000000000402 d (dramStroke d) := by
  unfold dramStroke
  extract_lets -merge -underBinder +onlyGivenNames x0
  have h0 : DevKeeps 0x10A000000000000000000000000000000000000000000402 d x0 := by
    subst x0
    refine DevKeeps.forUpTo ?_ (fun a1 y1 h1 => ?_)
    · exact (.refl _ _)
    · beta_reduce
      extract_lets -merge -underBinder +onlyGivenNames x2
      have h2 : DevKeeps 0x10A000000000000000000000000000000000000000000402 d x2 := by
        subst x2
        refine iteP (P := DevKeeps 0x10A000000000000000000000000000000000000000000402 d) (fun _ => ?_) (fun _ => ?_)
        · exact (DevKeeps.step h1 (Dev.addx_keeps _ _ _ _ _) (by rfl))
        · exact h1
      clear_value x2
      exact (DevKeeps.step h2 (Dev.modDport_keeps _ _ _) rfl)
  clear_value x0
  extract_lets -merge -underBinder +onlyGivenNames x3
  clear_value x3
  extract_lets -merge -underBinder +onlyGivenNames x4
  have h4 : DevKeeps 0x10A000000000000000000000000000000000000000000402 d x4 := by
    subst x4
    exact (DevKeeps.step h0 (Dev.modDram_keeps _ _) rfl)
  clear_value x4
  extract_lets -merge -underBinder +onlyGivenNames x5
  have h5 : DevKeeps 0x10A000000000000000000000000000000000000000000402 d x5 := by
    subst x5
    refine DevKeeps.forUpTo ?_ (fun a6 y6 h6 => ?_)
    · exact h4
    · beta_reduce
      extract_lets -merge -underBinder +onlyGivenNames x7
      clear_value x7
      exact (DevKeeps.step h6 (issueWrites_keeps _ _ _ _ _) rfl)
  clear_value x5
  exact (DevKeeps.step h5 (Dev.admitAll_keeps _) rfl)

theorem throttleEnd_keeps (a0 : ℕ) (a1 : ℕ) (a2 : ℕ) (d : Dev) :
    OkP (DevKeeps 0x108000000000000000000000000000000000000000000402 d) (throttleEnd a0 a1 a2 d) := by
  unfold throttleEnd
  extract_lets -merge -underBinder +onlyGivenNames x0
  clear_value x0
  refine iteP (P := OkP (DevKeeps 0x108000000000000000000000000000000000000000000402 d)) (fun _ => ?_) (fun _ => ?_)
  · refine OkP.ok ?_
    exact (DevKeeps.step (DevKeeps.step (.refl _ _) (Dev.modDram_keeps _ _) rfl) (Dev.admitAll_keeps _) rfl)
  · exact trivial

theorem execThrottleHoldEnd_keeps (a0 : Fin 8) (a1 : Fin 8) (a2 : Fin 32) (s : State) :
    NextP (StateKeeps 0x108000000000000000000000000000000000000000000402 s) (execThrottleHoldEnd a0 a1 a2 s) := by
  unfold execThrottleHoldEnd
  refine onDev_keeps ?_
  exact DevKeeps.stepOk (.refl _ _) (throttleEnd_keeps _ _ _ _) rfl

theorem countCorr_keeps (a0 : ℕ) (d : Dev) :
    DevKeeps 0x70000000000080000000000000000000000000000000000000000010042 d (countCorr a0 d) := by
  unfold countCorr
  exact (DevKeeps.step (DevKeeps.step (.refl _ _) (Dev.addx_keeps _ _ _ _ _) (by rfl)) (bucketEvent_keeps _ _) rfl)

theorem copyRead_keeps (a0 : ℕ) (a1 : ℕ) (a2 : CopyState) (a3 : CopyState) (d : Dev) :
    DevKeeps 0x700000000001800000000000000000000000080000000000000006178C3 d (copyRead a0 a1 a2 a3 d) := by
  unfold copyRead
  extract_lets -merge -underBinder +onlyGivenNames x0
  clear_value x0
  split
  · exact (.refl _ _)
  · exact (DevKeeps.step (.refl _ _) (countCorr_keeps _ _) rfl)
  · extract_lets -merge -underBinder +onlyGivenNames x1
    have h1 : DevKeeps 0x700000000001800000000000000000000000080000000000000006178C3 d x1 := by
      subst x1
      exact (DevKeeps.step (.refl _ _) (countCorr_keeps _ _) rfl)
    clear_value x1
    extract_lets -merge -underBinder +onlyGivenNames x2
    have h2 : DevKeeps 0x700000000001800000000000000000000000080000000000000006178C3 d x2 := by
      subst x2
      exact (DevKeeps.step (.refl _ _) (Dev.addx_keeps _ _ _ _ _) (by rfl))
    clear_value x2
    extract_lets -merge -underBinder +onlyGivenNames x3
    have h3 : DevKeeps 0x700000000001800000000000000000000000080000000000000006178C3 d x3 := by
      subst x3
      refine iteP (P := DevKeeps 0x700000000001800000000000000000000000080000000000000006178C3 d) (fun _ => ?_) (fun _ => ?_)
      · exact (DevKeeps.step h2 (Dev.addx_keeps _ _ _ _ _) (by rfl))
      · exact h2
    clear_value x3
    refine iteP (P := DevKeeps 0x700000000001800000000000000000000000080000000000000006178C3 d) (fun _ => ?_) (fun _ => ?_)
    · refine iteP (P := DevKeeps 0x700000000001800000000000000000000000080000000000000006178C3 d) (fun _ => ?_) (fun _ => ?_)
      · exact (DevKeeps.step h1 (countCorr_keeps _ _) rfl)
      · exact h1
    · exact (DevKeeps.step (DevKeeps.step h3 (Dev.wr_keeps _ _ _) (by rfl)) (wordLost_keeps _ _) rfl)

theorem dramReturn_keeps (a0 : ℕ) (a1 : CopyState) (a2 : CopyState) (d : Dev) :
    OkP (DevKeeps 0x70000000000188000000000000000000000008000000000000000617CC3 d) (dramReturn a0 a1 a2 d) := by
  unfold dramReturn
  split
  · refine OkP.ok ?_
    exact (DevKeeps.step (DevKeeps.step (DevKeeps.step (DevKeeps.step (.refl _ _) (Dev.modDram_keeps _ _) rfl) (issueDram_keeps _ _ _) rfl) (copyRead_keeps _ _ _ _ _) rfl) (Dev.admitAll_keeps _) rfl)
  · exact trivial

theorem execDramReadReturn_keeps (a0 : Fin 8) (a1 : CopyState) (a2 : CopyState) (s : State) :
    NextP (StateKeeps 0x70000000000188000000000000000000000008000000000000000617CC3 s) (execDramReadReturn a0 a1 a2 s) := by
  unfold execDramReadReturn
  refine onDev_keeps ?_
  exact DevKeeps.stepOk (.refl _ _) (dramReturn_keeps _ _ _ _) rfl

theorem patrolRead_keeps (a0 : CopyState) (a1 : CopyState) (d : Dev) :
    OkP (DevKeeps 0x700000000001A8000000000000000000000008000000000000000617CC3 d) (patrolRead a0 a1 d) := by
  unfold patrolRead
  extract_lets -merge -underBinder +onlyGivenNames x0
  clear_value x0
  extract_lets -merge -underBinder +onlyGivenNames x1
  clear_value x1
  extract_lets -merge -underBinder +onlyGivenNames x2
  clear_value x2
  extract_lets -merge -underBinder +onlyGivenNames x3
  have h3 : DevKeeps 0x700000000001A8000000000000000000000008000000000000000617CC3 d x3 := by
    subst x3
    refine iteP (P := DevKeeps 0x700000000001A8000000000000000000000008000000000000000617CC3 d) (fun _ => ?_) (fun _ => ?_)
    · exact (DevKeeps.step (.refl _ _) (copyRead_keeps _ _ _ _ _) rfl)
    · exact (.refl _ _)
  clear_value x3
  extract_lets -merge -underBinder +onlyGivenNames x4
  have h4 : DevKeeps 0x700000000001A8000000000000000000000008000000000000000617CC3 d x4 := by
    subst x4
    exact (DevKeeps.step h3 (Dev.modDram_keeps _ _) rfl)
  clear_value x4
  extract_lets -merge -underBinder +onlyGivenNames x5
  clear_value x5
  extract_lets -merge -underBinder +onlyGivenNames x6
  have h6 : DevKeeps 0x700000000001A8000000000000000000000008000000000000000617CC3 d x6 := by
    subst x6
    exact (DevKeeps.step (DevKeeps.step h4 (Dev.wr_keeps _ _ _) (by rfl)) (Dev.flagIf_keeps _ _ _) (by rfl))
  clear_value x6
  refine iteP (P := OkP (DevKeeps 0x700000000001A8000000000000000000000008000000000000000617CC3 d)) (fun _ => ?_) (fun _ => ?_)
  · refine iteP (P := OkP (DevKeeps 0x700000000001A8000000000000000000000008000000000000000617CC3 d)) (fun _ => ?_) (fun _ => ?_)
    · refine OkP.ok ?_
      exact (DevKeeps.step (DevKeeps.step h6 (Dev.modDram_keeps _ _) rfl) (Dev.admitAll_keeps _) rfl)
    · refine OkP.ok ?_
      exact (DevKeeps.step h4 (Dev.admitAll_keeps _) rfl)
  · exact trivial

theorem execDramPatrolRead_keeps (a0 : CopyState) (a1 : CopyState) (s : State) :
    NextP (StateKeeps 0x700000000001A8000000000000000000000008000000000000000617CC3 s) (execDramPatrolRead a0 a1 s) := by
  unfold execDramPatrolRead
  refine onDev_keeps ?_
  exact DevKeeps.stepOk (.refl _ _) (patrolRead_keeps _ _ _) rfl

theorem dqsTracking_keeps (a0 : ℕ) (d : Dev) :
    OkP (DevKeeps 1024 d) (dqsTracking a0 d) := by
  unfold dqsTracking
  refine iteP (P := OkP (DevKeeps 1024 d)) (fun _ => ?_) (fun _ => ?_)
  · refine OkP.ok ?_
    exact (DevKeeps.step (.refl _ _) (Dev.modDram_keeps _ _) rfl)
  · exact trivial

theorem execDqsTracking_keeps (a0 : Fin 8) (s : State) :
    NextP (StateKeeps 1024 s) (execDqsTracking a0 s) := by
  unfold execDqsTracking
  refine onDev_keeps ?_
  exact DevKeeps.stepOk (.refl _ _) (dqsTracking_keeps _ _) rfl

end Sys2Proof.Machine
end

