-- ==== Sys2Proof/Laws/KeepIo.lean ====
section
/-! SUPPORT. What each operation of Machine/Io.lean leaves as it was. -/

namespace Sys2Proof.Machine

theorem refuseIo_keeps (a0 : ℕ) (a1 : Cpl) (d : Dev) :
    DevKeeps 4096 d (refuseIo a0 a1 d) := by
  unfold refuseIo
  exact (DevKeeps.step (.refl _ _) (finish_keeps _ _ _) rfl)

theorem ioCommand_keeps {m k op : Nat} {g : Slot → Ns → Dev → Dev} {d0 d : Dev} (hd : DevKeeps m d0 d)
    (h : ∀ x ns, DevKeeps m d0 (g x ns d)) (hm : m ||| 4096 = m) : OkP (DevKeeps m d0) (ioCommand k op g d) := by
  have m1 : m.testBit 12 = true := by rw [← hm]; simp; right; decide
  unfold ioCommand
  refine onSlot_keeps hd m1 fun x => ?_
  try dsimp only
  split
  · trivial
  · split
    · exact OkP.ok (hd.step (refuseIo_keeps _ _ _) (by rw [← hm, Nat.or_assoc]; congr 1))
    · split
      · exact OkP.ok (hd.step (waitIo_keeps _ _) (by rw [← hm, Nat.or_assoc]; congr 1))
      · split
        · refine iteP (P := OkP (DevKeeps m d0)) (fun _ => trivial) (fun _ => ?_)
          exact OkP.ok (hd.step (deliverDwe_keeps _ _ _) (by rw [← hm, Nat.or_assoc]; congr 1))
        · split
          · exact OkP.ok (hd.step (refuseIo_keeps _ _ _) (by rw [← hm, Nat.or_assoc]; congr 1))
          · exact OkP.ok (h _ _)

theorem flush_keeps (a0 : ℕ) (d : Dev) :
    OkP (DevKeeps 4096 d) (flush a0 d) := by
  unfold flush
  refine onSlot_keeps ?_ rfl (fun z0 => ?_)
  · exact (.refl _ _)
  · beta_reduce
    split
    · refine OkP.ok ?_
      exact (DevKeeps.step (.refl _ _) (refuseIo_keeps _ _ _) rfl)
    · refine iteP (P := OkP (DevKeeps 4096 d)) (fun _ => ?_) (fun _ => ?_)
      · refine OkP.ok ?_
        exact (DevKeeps.step (.refl _ _) (waitIo_keeps _ _) rfl)
      · split
        · refine iteP (P := OkP (DevKeeps 4096 d)) (fun _ => ?_) (fun _ => ?_)
          · exact trivial
          · refine OkP.ok ?_
            exact (DevKeeps.step (.refl _ _) (deliverDwe_keeps _ _ _) rfl)
        · refine OkP.ok ?_
          exact (DevKeeps.step (DevKeeps.step (.refl _ _) (Dev.modSlot_keeps _ _ _) rfl) (finish_keeps _ _ _) rfl)

theorem execFlushCmd_keeps (a0 : Fin 131072) (s : State) :
    NextP (StateKeeps 4096 s) (execFlushCmd a0 s) := by
  unfold execFlushCmd
  refine onDev_keeps ?_
  exact DevKeeps.stepOk (.refl _ _) (flush_keeps _ _) rfl

theorem repairZone_keeps (a0 : ℕ) (a1 : ℕ) (d : Dev) :
    DevKeeps 32768 d (repairZone a0 a1 d) := by
  unfold repairZone
  extract_lets -merge -underBinder +onlyGivenNames x0
  clear_value x0
  refine DevKeeps.step ?_ (syncZone_keeps _ _ _) rfl
  refine DevKeeps.foldl ?_ (fun y1 a1 h1 => ?_)
  · exact (.refl _ _)
  · beta_reduce
    refine iteP (P := DevKeeps 32768 d) (fun _ => ?_) (fun _ => ?_)
    · exact (DevKeeps.step h1 (Dev.camFree_keeps _ _) rfl)
    · exact h1

theorem zoneLookup_keeps (a0 : Bool) (a1 : ℕ) (a2 : ℕ) (d : Dev) :
    SndP (DevKeeps 0x50000000000000000000000000000008002 d) (zoneLookup a0 a1 a2 d) := by
  unfold zoneLookup
  refine iteP (P := SndP (DevKeeps 0x50000000000000000000000000000008002 d)) (fun _ => ?_) (fun _ => ?_)
  · refine SndP.mk ?_
    exact (.refl _ _)
  · split
    · extract_lets -merge -underBinder +onlyGivenNames x0
      have h0 : DevKeeps 0x50000000000000000000000000000008002 d x0 := by
        subst x0
        refine iteP (P := DevKeeps 0x50000000000000000000000000000008002 d) (fun _ => ?_) (fun _ => ?_)
        · exact (DevKeeps.step (DevKeeps.step (.refl _ _) (Dev.spendSearch_keeps _) rfl) (Dev.countHit_keeps _ _ _) rfl)
        · exact (.refl _ _)
      clear_value x0
      refine SndP.mk ?_
      refine iteP (P := DevKeeps 0x50000000000000000000000000000008002 d) (fun _ => ?_) (fun _ => ?_)
      · exact (DevKeeps.step h0 (repairZone_keeps _ _ _) rfl)
      · exact h0
    · refine SndP.mk ?_
      refine iteP (P := DevKeeps 0x50000000000000000000000000000008002 d) (fun _ => ?_) (fun _ => ?_)
      · exact (DevKeeps.step (.refl _ _) (Dev.spendSearch_keeps _) rfl)
      · exact (.refl _ _)

theorem capWait_keeps (a0 : ℕ) (a1 : ℕ) (d : Dev) :
    DevKeeps 0x1000000000000000000000000000002 d (capWait a0 a1 d) := by
  unfold capWait
  split
  · exact (DevKeeps.step (.refl _ _) (Dev.flagIf_keeps _ _ _) (by rfl))
  · exact (.refl _ _)

theorem takePlace_keeps (a0 : ℕ) (a1 : Slot) (a2 : ℕ) (a3 : ℕ) (d : Dev) :
    DevKeeps 0x100000000000000000000000001B002 d (takePlace a0 a1 a2 a3 d) := by
  unfold takePlace
  extract_lets -merge -underBinder +onlyGivenNames x0
  clear_value x0
  extract_lets -merge -underBinder +onlyGivenNames x1
  clear_value x1
  extract_lets -merge -underBinder +onlyGivenNames x2
  clear_value x2
  extract_lets -merge -underBinder +onlyGivenNames x3
  clear_value x3
  extract_lets -merge -underBinder +onlyGivenNames x4
  clear_value x4
  extract_lets -merge -underBinder +onlyGivenNames x5
  have h5 : DevKeeps 0x100000000000000000000000001B002 d x5 := by
    subst x5
    exact (DevKeeps.step (.refl _ _) (Dev.modZone_keeps _ _ _ _) rfl)
  clear_value x5
  extract_lets -merge -underBinder +onlyGivenNames x6
  have h6 : DevKeeps 0x100000000000000000000000001B002 d x6 := by
    subst x6
    exact (DevKeeps.step h5 (Dev.modSlot_keeps _ _ _) rfl)
  clear_value x6
  exact (DevKeeps.step (DevKeeps.step h6 (syncZone_keeps _ _ _) rfl) (capWait_keeps _ _ _) rfl)

theorem placeWrite_keeps (a0 : ℕ) (a1 : Slot) (a2 : Ns) (a3 : ℕ) (a4 : ℕ) (d : Dev) :
    DevKeeps 0x2000100004000000000000000000009F002 d (placeWrite a0 a1 a2 a3 a4 d) := by
  unfold placeWrite
  split
  · exact (DevKeeps.step (.refl _ _) (refuseIo_keeps _ _ _) rfl)
  · refine iteP (P := DevKeeps 0x2000100004000000000000000000009F002 d) (fun _ => ?_) (fun _ => ?_)
    · exact (DevKeeps.step (DevKeeps.step (.refl _ _) (countEntryWait_keeps _ _) rfl) (waitIo_keeps _ _) rfl)
    · refine iteP (P := DevKeeps 0x2000100004000000000000000000009F002 d) (fun _ => ?_) (fun _ => ?_)
      · refine iteP (P := DevKeeps 0x2000100004000000000000000000009F002 d) (fun _ => ?_) (fun _ => ?_)
        · exact (DevKeeps.step (.refl _ _) (waitIo_keeps _ _) rfl)
        · split
          · exact (DevKeeps.step (DevKeeps.step (.refl _ _) (bindZone_keeps _ _ _ _ _ _) rfl) (takePlace_keeps _ _ _ _ _) rfl)
          · exact (DevKeeps.step (DevKeeps.step (.refl _ _) (bindRefused_keeps _ _) rfl) (refuseIo_keeps _ _ _) rfl)
      · exact (DevKeeps.step (.refl _ _) (takePlace_keeps _ _ _ _ _) rfl)

theorem landHit_keeps (a0 : ℕ) (a1 : ℕ) (d : Dev) :
    DevKeeps 0x20000000000000000000401002 d (landHit a0 a1 d) := by
  unfold landHit
  extract_lets -merge -underBinder +onlyGivenNames x0
  have h0 : DevKeeps 0x20000000000000000000401002 d x0 := by
    subst x0
    exact (DevKeeps.step (.refl _ _) (Dev.add_keeps _ _ _) (by rfl))
  clear_value x0
  extract_lets -merge -underBinder +onlyGivenNames x1
  have h1 : DevKeeps 0x20000000000000000000401002 d x1 := by
    subst x1
    split
    · exact (DevKeeps.step h0 (Dev.send_keeps _ _) rfl)
    · exact h0
  clear_value x1
  extract_lets -merge -underBinder +onlyGivenNames x2
  clear_value x2
  exact (DevKeeps.step (DevKeeps.step h1 (Dev.modSlot_keeps _ _ _) rfl) (finish_keeps _ _ _) rfl)

theorem landMismatch_keeps (a0 : ℕ) (d : Dev) :
    DevKeeps 0x60000000000000000000001002 d (landMismatch a0 d) := by
  unfold landMismatch
  exact (DevKeeps.step (DevKeeps.step (DevKeeps.step (.refl _ _) (Dev.add_keeps _ _ _) (by rfl)) (Dev.wr_keeps _ _ _) (by rfl)) (refuseIo_keeps _ _ _) rfl)

theorem zoneWrite_keeps (a0 : ℕ) (a1 : Slot) (a2 : Ns) (d : Dev) :
    DevKeeps 0x7000100006000000000000000000049F002 d (zoneWrite a0 a1 a2 d) := by
  unfold zoneWrite
  extract_lets -merge -underBinder +onlyGivenNames x0
  clear_value x0
  extract_lets -merge -underBinder +onlyGivenNames x1
  clear_value x1
  refine iteP (P := DevKeeps 0x7000100006000000000000000000049F002 d) (fun _ => ?_) (fun _ => ?_)
  · exact (DevKeeps.step (.refl _ _) (waitIo_keeps _ _) rfl)
  · split
    · rename_i v2_0 v2_1 q2
      have h3 : DevKeeps 0x7000100006000000000000000000049F002 d v2_1 := by
        refine SndP.get (P := (DevKeeps 0x7000100006000000000000000000049F002 d)) ?_ q2
        exact DevKeeps.stepSnd (.refl _ _) (zoneLookup_keeps _ _ _ _) rfl
      refine iteP (P := DevKeeps 0x7000100006000000000000000000049F002 d) (fun _ => ?_) (fun _ => ?_)
      · exact (DevKeeps.step h3 (waitIo_keeps _ _) rfl)
      · split
        · refine iteP (P := DevKeeps 0x7000100006000000000000000000049F002 d) (fun _ => ?_) (fun _ => ?_)
          · exact (DevKeeps.step h3 (landMismatch_keeps _ _) rfl)
          · refine iteP (P := DevKeeps 0x7000100006000000000000000000049F002 d) (fun _ => ?_) (fun _ => ?_)
            · exact (DevKeeps.step h3 (landHit_keeps _ _ _) rfl)
            · exact (DevKeeps.step (DevKeeps.step h3 (waitIo_keeps _ _) rfl) (Dev.modSlot_keeps _ _ _) rfl)
        · split
          · exact (DevKeeps.step h3 (refuseIo_keeps _ _ _) rfl)
          · refine iteP (P := DevKeeps 0x7000100006000000000000000000049F002 d) (fun _ => ?_) (fun _ => ?_)
            · exact (DevKeeps.step h3 (refuseIo_keeps _ _ _) rfl)
            · refine iteP (P := DevKeeps 0x7000100006000000000000000000049F002 d) (fun _ => ?_) (fun _ => ?_)
              · exact (DevKeeps.step h3 (waitIo_keeps _ _) rfl)
              · exact (DevKeeps.step (DevKeeps.step h3 (Dev.modSlot_keeps _ _ _) rfl) (placeWrite_keeps _ _ _ _ _ _) rfl)

theorem issueSearch_keeps (a0 : ℕ) (a1 : Slot) (d : Dev) :
    DevKeeps 0x50000000000000000000000000000008002 d (issueSearch a0 a1 d) := by
  unfold issueSearch
  extract_lets -merge -underBinder +onlyGivenNames x0
  clear_value x0
  exact (DevKeeps.step (DevKeeps.step (DevKeeps.step (.refl _ _) (Dev.spendSearch_keeps _) rfl) (Dev.countHit_keeps _ _ _) rfl) (Dev.modCam_keeps _ _) rfl)

theorem convWrite_keeps (a0 : ℕ) (a1 : Slot) (d : Dev) :
    DevKeeps 0x70001000000000000000000000000009002 d (convWrite a0 a1 d) := by
  unfold convWrite
  refine iteP (P := DevKeeps 0x70001000000000000000000000000009002 d) (fun _ => ?_) (fun _ => ?_)
  · exact (DevKeeps.step (.refl _ _) (waitIo_keeps _ _) rfl)
  · refine iteP (P := DevKeeps 0x70001000000000000000000000000009002 d) (fun _ => ?_) (fun _ => ?_)
    · exact (DevKeeps.step (DevKeeps.step (.refl _ _) (countEntryWait_keeps _ _) rfl) (waitIo_keeps _ _) rfl)
    · split
      · exact (DevKeeps.step (.refl _ _) (waitIo_keeps _ _) rfl)
      · extract_lets -merge -underBinder +onlyGivenNames x0
        clear_value x0
        extract_lets -merge -underBinder +onlyGivenNames x1
        have h1 : DevKeeps 0x70001000000000000000000000000009002 d x1 := by
          subst x1
          exact (DevKeeps.step (.refl _ _) (Dev.camMake_keeps _ _ _) rfl)
        clear_value x1
        extract_lets -merge -underBinder +onlyGivenNames x2
        have h2 : DevKeeps 0x70001000000000000000000000000009002 d x2 := by
          subst x2
          exact (DevKeeps.step h1 (Dev.modSlot_keeps _ _ _) rfl)
        clear_value x2
        extract_lets -merge -underBinder +onlyGivenNames x3
        have h3 : DevKeeps 0x70001000000000000000000000000009002 d x3 := by
          subst x3
          exact (DevKeeps.step h2 (capWait_keeps _ _ _) rfl)
        clear_value x3
        refine iteP (P := DevKeeps 0x70001000000000000000000000000009002 d) (fun _ => ?_) (fun _ => ?_)
        · exact h3
        · exact (DevKeeps.step h3 (issueSearch_keeps _ _ _) rfl)

theorem writeRow_keeps (a0 : ℕ) (a1 : ℕ) (d : Dev) :
    OkP (DevKeeps 0x7000100006000000000000000000049F002 d) (writeRow a0 a1 d) := by
  unfold writeRow
  refine ioCommand_keeps ?_ (fun _ _ => ?_) rfl
  · exact (.refl _ _)
  · beta_reduce
    refine iteP (P := DevKeeps 0x7000100006000000000000000000049F002 d) (fun _ => ?_) (fun _ => ?_)
    · exact (DevKeeps.step (.refl _ _) (refuseIo_keeps _ _ _) rfl)
    · refine iteP (P := DevKeeps 0x7000100006000000000000000000049F002 d) (fun _ => ?_) (fun _ => ?_)
      · exact (DevKeeps.step (.refl _ _) (zoneWrite_keeps _ _ _ _) rfl)
      · exact (DevKeeps.step (.refl _ _) (convWrite_keeps _ _ _) rfl)

theorem execWriteCmd_keeps (a0 : Fin 131072) (s : State) :
    NextP (StateKeeps 0x7000100006000000000000000000049F002 s) (execWriteCmd a0 s) := by
  unfold execWriteCmd
  refine onDev_keeps ?_
  exact DevKeeps.stepOk (.refl _ _) (writeRow_keeps _ _ _) rfl

theorem execWriteZeroes_keeps (a0 : Fin 131072) (s : State) :
    NextP (StateKeeps 0x7000100006000000000000000000049F002 s) (execWriteZeroes a0 s) := by
  unfold execWriteZeroes
  refine onDev_keeps ?_
  exact DevKeeps.stepOk (.refl _ _) (writeRow_keeps _ _ _) rfl

theorem execZoneAppend_keeps (a0 : Fin 131072) (s : State) :
    NextP (StateKeeps 0x7000100006000000000000000000049F002 s) (execZoneAppend a0 s) := by
  unfold execZoneAppend
  refine onDev_keeps ?_
  exact DevKeeps.stepOk (.refl _ _) (writeRow_keeps _ _ _) rfl

theorem toWriteQ_keeps (a0 : ℕ) (a1 : ℕ) (a2 : Payload) (d : Dev) :
    DevKeeps 512 d (toWriteQ a0 a1 a2 d) := by
  unfold toWriteQ
  extract_lets -merge -underBinder +onlyGivenNames x0
  have h0 : DevKeeps 512 d x0 := by
    subst x0
    refine iteP (P := DevKeeps 512 d) (fun _ => ?_) (fun _ => ?_)
    · exact (DevKeeps.step (.refl _ _) (Dev.modCiph_keeps _ _) rfl)
    · exact (.refl _ _)
  clear_value x0
  exact (DevKeeps.step h0 (Dev.modCiph_keeps _ _) rfl)

theorem writeGrant_keeps (d : Dev) :
    OkP (DevKeeps 0x1000000000000000000000000401A02 d) (writeGrant d) := by
  unfold writeGrant
  split
  · exact trivial
  · extract_lets -merge -underBinder +onlyGivenNames x0
    clear_value x0
    split
    · rename_i v1_0 v1_1 q1
      have h2 : DevKeeps 0x1000000000000000000000000401A02 d v1_1 := by
        refine SndP.get (P := (DevKeeps 0x1000000000000000000000000401A02 d)) ?_ q1
        exact DevKeeps.stepSnd (.refl _ _) (grantCells_keeps _ _ _) rfl
      split
      · rename_i v3_0 v3_1 q3
        have h4 : DevKeeps 0x1000000000000000000000000401A02 d v3_0 := by
          refine FstP.get (P := (DevKeeps 0x1000000000000000000000000401A02 d)) ?_ q3
          exact DevKeeps.stepFst h2 (takeStage_keeps _ _ _) rfl
        extract_lets -merge -underBinder +onlyGivenNames x5
        have h5 : DevKeeps 0x1000000000000000000000000401A02 d x5 := by
          subst x5
          exact (DevKeeps.step h4 (Dev.modSlot_keeps _ _ _) rfl)
        clear_value x5
        extract_lets -merge -underBinder +onlyGivenNames x6
        have h6 : DevKeeps 0x1000000000000000000000000401A02 d x6 := by
          subst x6
          exact (DevKeeps.step h5 (Dev.flagIf_keeps _ _ _) (by rfl))
        clear_value x6
        refine iteP (P := OkP (DevKeeps 0x1000000000000000000000000401A02 d)) (fun _ => ?_) (fun _ => ?_)
        · refine OkP.ok ?_
          refine DevKeeps.forUpTo ?_ (fun a7 y7 h7 => ?_)
          · exact h6
          · beta_reduce
            exact (DevKeeps.step h7 (toWriteQ_keeps _ _ _ _) rfl)
        · refine OkP.ok ?_
          exact (DevKeeps.step h6 (Dev.send_keeps _ _) rfl)

theorem execWriteGrant_keeps (s : State) :
    NextP (StateKeeps 0x1000000000000000000000000401A02 s) (execWriteGrant s) := by
  unfold execWriteGrant
  refine onDev_keeps ?_
  exact DevKeeps.stepOk (.refl _ _) (writeGrant_keeps _) rfl

theorem writeData_keeps (a0 : ℕ) (a1 : ℕ) (a2 : Payload) (d : Dev) :
    OkP (DevKeeps 512 d) (writeData a0 a1 a2 d) := by
  unfold writeData
  split
  · refine iteP (P := OkP (DevKeeps 512 d)) (fun _ => ?_) (fun _ => ?_)
    · refine OkP.ok ?_
      exact (DevKeeps.step (.refl _ _) (toWriteQ_keeps _ _ _ _) rfl)
    · exact trivial
  · exact trivial

theorem execWriteDataArrival_keeps (a0 : Fin 131072) (a1 : Fin 65536) (a2 : Payload) (s : State) :
    NextP (StateKeeps 512 s) (execWriteDataArrival a0 a1 a2 s) := by
  unfold execWriteDataArrival
  refine onDev_keeps ?_
  exact DevKeeps.stepOk (.refl _ _) (writeData_keeps _ _ _ _) rfl

theorem stampChain_keeps (a0 : ℕ) (a1 : ℕ) (a2 : ℕ) (d : Dev) :
    DevKeeps 2048 d (stampChain a0 a1 a2 d) := by
  unfold stampChain
  exact (DevKeeps.step (.refl _ _) (Dev.modPool_keeps _ _) rfl)

theorem releaseRetries_keeps (a0 : ℕ) (a1 : ℕ) (a2 : ℕ) (a3 : ℕ) (d : Dev) :
    DevKeeps 0x20000000000000000000401002 d (releaseRetries a0 a1 a2 a3 d) := by
  unfold releaseRetries
  extract_lets -merge -underBinder +onlyGivenNames x0
  clear_value x0
  extract_lets -merge -underBinder +onlyGivenNames x1
  clear_value x1
  refine DevKeeps.foldl ?_ (fun y2 a2 h2 => ?_)
  · exact (.refl _ _)
  · beta_reduce
    exact (DevKeeps.step h2 (landHit_keeps _ _ _) rfl)

theorem moveOut_keeps (a0 : ℕ) (a1 : ℕ) (a2 : ℕ) (a3 : ℕ) (d : Dev) :
    DevKeeps 6291456 d (moveOut a0 a1 a2 a3 d) := by
  unfold moveOut
  split
  · extract_lets -merge -underBinder +onlyGivenNames x0
    clear_value x0
    exact (DevKeeps.step (.refl _ _) (askMedia_keeps _ _ _) rfl)
  · exact (.refl _ _)

theorem standsFar_keeps (a0 : ℕ) (a1 : ℕ) (a2 : ℕ) (a3 : ℕ) (d : Dev) :
    DevKeeps 6367232 d (standsFar a0 a1 a2 a3 d) := by
  unfold standsFar
  extract_lets -merge -underBinder +onlyGivenNames x0
  have h0 : DevKeeps 6367232 d x0 := by
    subst x0
    refine DevKeeps.forUpTo ?_ (fun a1 y1 h1 => ?_)
    · exact (.refl _ _)
    · beta_reduce
      split
      · exact (DevKeeps.step (DevKeeps.step h1 (freeSectorCells_keeps _ _) rfl) (Dev.modZone_keeps _ _ _ _) rfl)
      · exact h1
  clear_value x0
  refine DevKeeps.forUpTo ?_ (fun a2 y2 h2 => ?_)
  · exact h0
  · beta_reduce
    exact (DevKeeps.step h2 (askProgram_keeps _ _ _ _) rfl)

theorem programmedFar_keeps (a0 : ℕ) (a1 : ℕ) (a2 : ℕ) (a3 : ℕ) (d : Dev) :
    DevKeeps 110592 d (programmedFar a0 a1 a2 a3 d) := by
  unfold programmedFar
  extract_lets -merge -underBinder +onlyGivenNames x0
  clear_value x0
  extract_lets -merge -underBinder +onlyGivenNames x1
  have h1 : DevKeeps 110592 d x1 := by
    subst x1
    refine DevKeeps.forUpTo ?_ (fun a2 y2 h2 => ?_)
    · exact (.refl _ _)
    · beta_reduce
      split
      · refine iteP (P := DevKeeps 110592 d) (fun _ => ?_) (fun _ => ?_)
        · exact (DevKeeps.step (DevKeeps.step h2 (dropStage_keeps _ _ _ _) rfl) (Dev.modZone_keeps _ _ _ _) rfl)
        · exact h2
      · exact h2
  clear_value x1
  exact (DevKeeps.step h1 (syncZone_keeps _ _ _) rfl)

theorem commitZone_keeps (a0 : ℕ) (a1 : Slot) (a2 : ℕ) (a3 : ℕ) (d : Dev) :
    DevKeeps 0x2000000000000000000061B002 d (commitZone a0 a1 a2 a3 d) := by
  unfold commitZone
  extract_lets -merge -underBinder +onlyGivenNames x0
  clear_value x0
  extract_lets -merge -underBinder +onlyGivenNames x1
  clear_value x1
  extract_lets -merge -underBinder +onlyGivenNames x2
  clear_value x2
  extract_lets -merge -underBinder +onlyGivenNames x3
  have h3 : DevKeeps 0x2000000000000000000061B002 d x3 := by
    subst x3
    exact (DevKeeps.step (.refl _ _) (Dev.modZone_keeps _ _ _ _) rfl)
  clear_value x3
  extract_lets -merge -underBinder +onlyGivenNames x4
  have h4 : DevKeeps 0x2000000000000000000061B002 d x4 := by
    subst x4
    exact (DevKeeps.step (DevKeeps.step h3 (syncZone_keeps _ _ _) rfl) (moveOut_keeps _ _ _ _ _) rfl)
  clear_value x4
  refine iteP (P := DevKeeps 0x2000000000000000000061B002 d) (fun _ => ?_) (fun _ => ?_)
  · exact (DevKeeps.step h4 (releaseRetries_keeps _ _ _ _ _) rfl)
  · exact h4

theorem commitConv_keeps (a0 : Slot) (a1 : ℕ) (d : Dev) :
    DevKeeps 14336 d (commitConv a0 a1 d) := by
  unfold commitConv
  extract_lets -merge -underBinder +onlyGivenNames x0
  clear_value x0
  extract_lets -merge -underBinder +onlyGivenNames x1
  clear_value x1
  extract_lets -merge -underBinder +onlyGivenNames x2
  clear_value x2
  refine DevKeeps.forUpTo ?_ (fun a3 y3 h3 => ?_)
  · exact (.refl _ _)
  · beta_reduce
    extract_lets -merge -underBinder +onlyGivenNames x4
    clear_value x4
    extract_lets -merge -underBinder +onlyGivenNames x5
    have h5 : DevKeeps 14336 d x5 := by
      subst x5
      split
      · exact (DevKeeps.step (DevKeeps.step h3 (freeSectorCells_keeps _ _) rfl) (dropStage_keeps _ _ _ _) rfl)
      · exact h3
    clear_value x5
    exact (DevKeeps.step h5 (Dev.modZm_keeps _ _) rfl)

theorem padAfter_keeps (a0 : ℕ) (a1 : ℕ) (a2 : ℕ) (d : Dev) :
    DevKeeps 6145 d (padAfter a0 a1 a2 d) := by
  unfold padAfter
  exact (DevKeeps.step (DevKeeps.step (.refl _ _) (Dev.modSlot_keeps _ _ _) rfl) (padMarked_keeps _ _ _) rfl)

theorem writeCommit_keeps (a0 : ℕ) (d : Dev) :
    OkP (DevKeeps 0x2000000000000000000061B803 d) (writeCommit a0 d) := by
  unfold writeCommit
  split
  · exact trivial
  · extract_lets -merge -underBinder +onlyGivenNames x0
    clear_value x0
    extract_lets -merge -underBinder +onlyGivenNames x1
    clear_value x1
    extract_lets -merge -underBinder +onlyGivenNames x2
    have h2 : DevKeeps 0x2000000000000000000061B803 d x2 := by
      subst x2
      exact (DevKeeps.step (.refl _ _) (stampChain_keeps _ _ _ _) rfl)
    clear_value x2
    extract_lets -merge -underBinder +onlyGivenNames x3
    have h3 : DevKeeps 0x2000000000000000000061B803 d x3 := by
      subst x3
      split
      · exact (DevKeeps.step (DevKeeps.step h2 (commitZone_keeps _ _ _ _ _) rfl) (padAfter_keeps _ _ _ _) rfl)
      · exact (DevKeeps.step h2 (commitConv_keeps _ _ _) rfl)
    clear_value x3
    extract_lets -merge -underBinder +onlyGivenNames x4
    have h4 : DevKeeps 0x2000000000000000000061B803 d x4 := by
      subst x4
      exact (DevKeeps.step h3 (Dev.modNs_keeps _ _ _) rfl)
    clear_value x4
    extract_lets -merge -underBinder +onlyGivenNames x5
    have h5 : DevKeeps 0x2000000000000000000061B803 d x5 := by
      subst x5
      exact (DevKeeps.step h4 (Dev.modSlot_keeps _ _ _) rfl)
    clear_value x5
    extract_lets -merge -underBinder +onlyGivenNames x6
    clear_value x6
    refine iteP (P := OkP (DevKeeps 0x2000000000000000000061B803 d)) (fun _ => ?_) (fun _ => ?_)
    · exact trivial
    · refine OkP.ok ?_
      exact (DevKeeps.step h5 (finish_keeps _ _ _) rfl)

theorem execWriteCommit_keeps (a0 : Fin 131072) (s : State) :
    NextP (StateKeeps 0x2000000000000000000061B803 s) (execWriteCommit a0 s) := by
  unfold execWriteCommit
  refine onDev_keeps ?_
  exact DevKeeps.stepOk (.refl _ _) (writeCommit_keeps _ _) rfl

theorem transferError_keeps (a0 : ℕ) (d : Dev) :
    OkP (DevKeeps 0x38000000000000000000000000000000000001BA02 d) (transferError a0 d) := by
  unfold transferError
  split
  · refine iteP (P := OkP (DevKeeps 0x38000000000000000000000000000000000001BA02 d)) (fun _ => ?_) (fun _ => ?_)
    · refine OkP.ok ?_
      exact (DevKeeps.step (.refl _ _) (withdrawCmd_keeps _ _ _) rfl)
    · refine iteP (P := OkP (DevKeeps 0x38000000000000000000000000000000000001BA02 d)) (fun _ => ?_) (fun _ => ?_)
      · refine OkP.ok ?_
        exact (DevKeeps.step (.refl _ _) (Dev.modSlot_keeps _ _ _) rfl)
      · exact trivial
  · exact trivial

theorem execDataTransferError_keeps (a0 : Fin 131072) (s : State) :
    NextP (StateKeeps 0x38000000000000000000000000000000000001BA02 s) (execDataTransferError a0 s) := by
  unfold execDataTransferError
  refine onDev_keeps ?_
  exact DevKeeps.stepOk (.refl _ _) (transferError_keeps _ _) rfl

theorem postPart_keeps (a0 : ℕ) (a1 : ℕ) (a2 : ReadPart) (d : Dev) :
    DevKeeps 0x180000000000000000000000000000000000000000000000000000000000000000000000000000000000000001052 d (postPart a0 a1 a2 d) := by
  unfold postPart
  split
  · rename_i v0_0 v0_1 q0
    have h1 : DevKeeps 0x180000000000000000000000000000000000000000000000000000000000000000000000000000000000000001052 d v0_1 := by
      refine SndP.get (P := (DevKeeps 0x180000000000000000000000000000000000000000000000000000000000000000000000000000000000000001052 d)) ?_ q0
      exact DevKeeps.stepSnd (.refl _ _) (Dev.hostTag_keeps _) rfl
    extract_lets -merge -underBinder +onlyGivenNames x2
    clear_value x2
    exact (DevKeeps.step h1 (takeDesc_keeps _ _ _ _) rfl)

theorem serveSector_keeps (a0 : ℕ) (a1 : ℕ) (a2 : Slot) (a3 : Source) (d : Dev) :
    DevKeeps 0x4870000000000000000000000000000000000000000000000000000613242 d (serveSector a0 a1 a2 a3 d) := by
  unfold serveSector
  split
  · refine DevKeeps.step ?_ (readEnd_keeps _ _) rfl
    refine iteP (P := DevKeeps 0x4870000000000000000000000000000000000000000000000000000613242 d) (fun _ => ?_) (fun _ => ?_)
    · exact (DevKeeps.step (.refl _ _) (Dev.send_keeps _ _) rfl)
    · exact (.refl _ _)
  · exact (DevKeeps.step (DevKeeps.step (.refl _ _) (countUnrecovered_keeps _ _ _) rfl) (readLost_keeps _ _ _) rfl)
  · extract_lets -merge -underBinder +onlyGivenNames x0
    clear_value x0
    refine iteP (P := DevKeeps 0x4870000000000000000000000000000000000000000000000000000613242 d) (fun _ => ?_) (fun _ => ?_)
    · exact (DevKeeps.step (.refl _ _) (toLane_keeps _ _ _ _ _ _) rfl)
    · exact (DevKeeps.step (DevKeeps.step (DevKeeps.step (DevKeeps.step (DevKeeps.step (.refl _ _) (Dev.add_keeps _ _ _) (by rfl)) (Dev.wr_keeps _ _ _) (by rfl)) (bucketEvent_keeps _ _) rfl) (countUnrecovered_keeps _ _ _) rfl) (readLost_keeps _ _ _) rfl)
  · exact (DevKeeps.step (.refl _ _) (askMedia_keeps _ _ _) rfl)
  · exact (.refl _ _)
  · exact (.refl _ _)

theorem serveRead_keeps (a0 : ℕ) (a1 : Slot) (a2 : Ns) (d : Dev) :
    DevKeeps 0x180000000000000000000000000000004870000000000000000000000000000000000000000000000000000613252 d (serveRead a0 a1 a2 d) := by
  unfold serveRead
  extract_lets -merge -underBinder +onlyGivenNames x0
  clear_value x0
  extract_lets -merge -underBinder +onlyGivenNames x1
  clear_value x1
  extract_lets -merge -underBinder +onlyGivenNames x2
  clear_value x2
  extract_lets -merge -underBinder +onlyGivenNames x3
  have h3 : DevKeeps 0x180000000000000000000000000000004870000000000000000000000000000000000000000000000000000613252 d x3 := by
    subst x3
    exact (DevKeeps.step (.refl _ _) (Dev.modSlot_keeps _ _ _) rfl)
  clear_value x3
  extract_lets -merge -underBinder +onlyGivenNames x4
  have h4 : DevKeeps 0x180000000000000000000000000000004870000000000000000000000000000000000000000000000000000613252 d x4 := by
    subst x4
    exact (DevKeeps.step h3 (Dev.modNs_keeps _ _ _) rfl)
  clear_value x4
  extract_lets -merge -underBinder +onlyGivenNames x5
  have h5 : DevKeeps 0x180000000000000000000000000000004870000000000000000000000000000000000000000000000000000613252 d x5 := by
    subst x5
    refine DevKeeps.foldl ?_ (fun y6 a6 h6 => ?_)
    · exact h4
    · beta_reduce
      exact (DevKeeps.step h6 (postPart_keeps _ _ _ _) rfl)
  clear_value x5
  refine iteP (P := DevKeeps 0x180000000000000000000000000000004870000000000000000000000000000000000000000000000000000613252 d) (fun _ => ?_) (fun _ => ?_)
  · exact (DevKeeps.step (.refl _ _) (refuseIo_keeps _ _ _) rfl)
  · refine iteP (P := DevKeeps 0x180000000000000000000000000000004870000000000000000000000000000000000000000000000000000613252 d) (fun _ => ?_) (fun _ => ?_)
    · exact (DevKeeps.step (.refl _ _) (waitIo_keeps _ _) rfl)
    · refine DevKeeps.foldl ?_ (fun y7 a7 h7 => ?_)
      · exact h5
      · beta_reduce
        exact (DevKeeps.step h7 (serveSector_keeps _ _ _ _ _) rfl)

theorem zoneRead_keeps (a0 : ℕ) (a1 : Slot) (a2 : Ns) (d : Dev) :
    DevKeeps 0x18000000000000000000000000000000487000000000000000000000005000000000000000000000000000061B252 d (zoneRead a0 a1 a2 d) := by
  unfold zoneRead
  extract_lets -merge -underBinder +onlyGivenNames x0
  clear_value x0
  extract_lets -merge -underBinder +onlyGivenNames x1
  clear_value x1
  extract_lets -merge -underBinder +onlyGivenNames x2
  clear_value x2
  refine iteP (P := DevKeeps 0x18000000000000000000000000000000487000000000000000000000005000000000000000000000000000061B252 d) (fun _ => ?_) (fun _ => ?_)
  · exact (DevKeeps.step (.refl _ _) (waitIo_keeps _ _) rfl)
  · refine iteP (P := DevKeeps 0x18000000000000000000000000000000487000000000000000000000005000000000000000000000000000061B252 d) (fun _ => ?_) (fun _ => ?_)
    · exact (DevKeeps.step (.refl _ _) (refuseIo_keeps _ _ _) rfl)
    · split
      · rename_i v3_0 v3_1 q3
        have h4 : DevKeeps 0x18000000000000000000000000000000487000000000000000000000005000000000000000000000000000061B252 d v3_1 := by
          refine SndP.get (P := (DevKeeps 0x18000000000000000000000000000000487000000000000000000000005000000000000000000000000000061B252 d)) ?_ q3
          exact DevKeeps.stepSnd (.refl _ _) (zoneLookup_keeps _ _ _ _) rfl
        extract_lets -merge -underBinder +onlyGivenNames x5
        clear_value x5
        extract_lets -merge -underBinder +onlyGivenNames x6
        have h6 : DevKeeps 0x18000000000000000000000000000000487000000000000000000000005000000000000000000000000000061B252 d x6 := by
          subst x6
          exact (DevKeeps.step h4 (Dev.modSlot_keeps _ _ _) rfl)
        clear_value x6
        extract_lets -merge -underBinder +onlyGivenNames x7
        clear_value x7
        extract_lets -merge -underBinder +onlyGivenNames x8
        clear_value x8
        refine iteP (P := DevKeeps 0x18000000000000000000000000000000487000000000000000000000005000000000000000000000000000061B252 d) (fun _ => ?_) (fun _ => ?_)
        · exact (DevKeeps.step h4 (waitIo_keeps _ _) rfl)
        · refine iteP (P := DevKeeps 0x18000000000000000000000000000000487000000000000000000000005000000000000000000000000000061B252 d) (fun _ => ?_) (fun _ => ?_)
          · exact (DevKeeps.step h6 (waitIo_keeps _ _) rfl)
          · exact (DevKeeps.step h6 (serveRead_keeps _ _ _ _) rfl)

theorem convRead_keeps (a0 : ℕ) (a1 : Slot) (a2 : Ns) (d : Dev) :
    DevKeeps 0x18000000000000000000000000000000487000000000000000000000005000000000000000000000000000061B252 d (convRead a0 a1 a2 d) := by
  unfold convRead
  refine iteP (P := DevKeeps 0x18000000000000000000000000000000487000000000000000000000005000000000000000000000000000061B252 d) (fun _ => ?_) (fun _ => ?_)
  · exact (DevKeeps.step (.refl _ _) (serveRead_keeps _ _ _ _) rfl)
  · refine iteP (P := DevKeeps 0x18000000000000000000000000000000487000000000000000000000005000000000000000000000000000061B252 d) (fun _ => ?_) (fun _ => ?_)
    · refine iteP (P := DevKeeps 0x18000000000000000000000000000000487000000000000000000000005000000000000000000000000000061B252 d) (fun _ => ?_) (fun _ => ?_)
      · exact (DevKeeps.step (.refl _ _) (waitIo_keeps _ _) rfl)
      · exact (DevKeeps.step (DevKeeps.step (.refl _ _) (Dev.modSlot_keeps _ _ _) rfl) (issueSearch_keeps _ _ _) rfl)
    · refine iteP (P := DevKeeps 0x18000000000000000000000000000000487000000000000000000000005000000000000000000000000000061B252 d) (fun _ => ?_) (fun _ => ?_)
      · exact (.refl _ _)
      · exact (DevKeeps.step (.refl _ _) (serveRead_keeps _ _ _ _) rfl)

theorem readRow_keeps (a0 : ℕ) (a1 : ℕ) (d : Dev) :
    OkP (DevKeeps 0x18000000000000000000000000000000487000000000000000000000005000000000000000000000000000061B252 d) (readRow a0 a1 d) := by
  unfold readRow
  refine ioCommand_keeps ?_ (fun _ _ => ?_) rfl
  · exact (.refl _ _)
  · beta_reduce
    refine iteP (P := DevKeeps 0x18000000000000000000000000000000487000000000000000000000005000000000000000000000000000061B252 d) (fun _ => ?_) (fun _ => ?_)
    · exact (DevKeeps.step (.refl _ _) (zoneRead_keeps _ _ _ _) rfl)
    · exact (DevKeeps.step (.refl _ _) (convRead_keeps _ _ _ _) rfl)

theorem afterRead_keeps (s : State) :
    StateKeeps 0x18004000000000000000000E000000000000000000000000000000000000000000000000000000000000000E95952 s (afterRead s) := by
  unfold afterRead
  refine StateKeeps.forUpTo ?_ (fun a0 y0 h0 => ?_)
  · exact (.refl _ _)
  · beta_reduce
    exact (StateKeeps.step h0 (afterChan_keeps _ _) rfl)

theorem execReadCmd_keeps (a0 : Fin 131072) (s : State) :
    NextP (StateKeeps 0x18004000000000000000000E000000004870000000000000000000000050000000000000000000000000000E9FB52 s) (execReadCmd a0 s) := by
  unfold execReadCmd
  refine onDevThen_keeps ?_ (fun t0 h0 => ?_)
  · exact DevKeeps.stepOk (.refl _ _) (readRow_keeps _ _ _) rfl
  · exact (StateKeeps.step h0 (afterRead_keeps _) rfl)

theorem execVerifyCmd_keeps (a0 : Fin 131072) (s : State) :
    NextP (StateKeeps 0x18004000000000000000000E000000004870000000000000000000000050000000000000000000000000000E9FB52 s) (execVerifyCmd a0 s) := by
  unfold execVerifyCmd
  refine onDevThen_keeps ?_ (fun t0 h0 => ?_)
  · exact DevKeeps.stepOk (.refl _ _) (readRow_keeps _ _ _) rfl
  · exact (StateKeeps.step h0 (afterRead_keeps _) rfl)

theorem searchResult_keeps (a0 : ℕ) (d : Dev) :
    OkP (DevKeeps 0x18000000000000000000000000000000487000000000000000000000002000000000000000000000000000061B252 d) (searchResult a0 d) := by
  unfold searchResult
  split
  · exact trivial
  · extract_lets -merge -underBinder +onlyGivenNames x0
    have h0 : DevKeeps 0x18000000000000000000000000000000487000000000000000000000002000000000000000000000000000061B252 d x0 := by
      subst x0
      exact (DevKeeps.step (.refl _ _) (Dev.modCam_keeps _ _) rfl)
    clear_value x0
    split
    · refine OkP.ok ?_
      exact (DevKeeps.step (DevKeeps.step h0 (Dev.modCam_keeps _ _) rfl) (Dev.add_keeps _ _ _) (by rfl))
    · split
      · split
        · refine iteP (P := OkP (DevKeeps 0x18000000000000000000000000000000487000000000000000000000002000000000000000000000000000061B252 d)) (fun _ => ?_) (fun _ => ?_)
          · refine OkP.ok ?_
            exact h0
          · refine OkP.ok ?_
            exact (DevKeeps.step h0 (serveRead_keeps _ _ _ _) rfl)
        · refine OkP.ok ?_
          exact h0
      · refine OkP.ok ?_
        exact h0

theorem execCamSearchResult_keeps (a0 : Fin 131072) (s : State) :
    NextP (StateKeeps 0x18004000000000000000000E000000004870000000000000000000000020000000000000000000000000000E9FB52 s) (execCamSearchResult a0 s) := by
  unfold execCamSearchResult
  refine onDevThen_keeps ?_ (fun t0 h0 => ?_)
  · exact DevKeeps.stepOk (.refl _ _) (searchResult_keeps _ _) rfl
  · exact (StateKeeps.step h0 (afterRead_keeps _) rfl)

theorem research_keeps (a0 : ℕ) (d : Dev) :
    OkP (DevKeeps 0x50000000000000000000000000000008002 d) (research a0 d) := by
  unfold research
  split
  · refine iteP (P := OkP (DevKeeps 0x50000000000000000000000000000008002 d)) (fun _ => ?_) (fun _ => ?_)
    · exact trivial
    · refine iteP (P := OkP (DevKeeps 0x50000000000000000000000000000008002 d)) (fun _ => ?_) (fun _ => ?_)
      · refine OkP.ok ?_
        exact (DevKeeps.step (.refl _ _) (Dev.deferSearch_keeps _) rfl)
      · refine OkP.ok ?_
        exact (DevKeeps.step (DevKeeps.step (.refl _ _) (Dev.modCam_keeps _ _) rfl) (issueSearch_keeps _ _ _) rfl)
  · exact trivial

theorem execCamResearch_keeps (a0 : Fin 131072) (s : State) :
    NextP (StateKeeps 0x50000000000000000000000000000008002 s) (execCamResearch a0 s) := by
  unfold execCamResearch
  refine onDev_keeps ?_
  exact DevKeeps.stepOk (.refl _ _) (research_keeps _ _) rfl

theorem settleFreed_keeps (d : Dev) :
    DevKeeps 110592 d (settleFreed d) := by
  unfold settleFreed
  extract_lets -merge -underBinder +onlyGivenNames x0
  have h0 : DevKeeps 110592 d x0 := by
    subst x0
    refine DevKeeps.foldl ?_ (fun y1 a1 h1 => ?_)
    · exact (.refl _ _)
    · beta_reduce
      extract_lets -merge -underBinder +onlyGivenNames x2
      clear_value x2
      extract_lets -merge -underBinder +onlyGivenNames x3
      clear_value x3
      extract_lets -merge -underBinder +onlyGivenNames x4
      clear_value x4
      extract_lets -merge -underBinder +onlyGivenNames x5
      clear_value x5
      extract_lets -merge -underBinder +onlyGivenNames x6
      have h6 : DevKeeps 110592 d x6 := by
        subst x6
        refine DevKeeps.foldl ?_ (fun y7 a7 h7 => ?_)
        · exact h1
        · beta_reduce
          exact (DevKeeps.step h7 (dropStage_keeps _ _ _ _) rfl)
      clear_value x6
      refine iteP (P := DevKeeps 110592 d) (fun _ => ?_) (fun _ => ?_)
      · exact h1
      · exact (DevKeeps.step (DevKeeps.step h6 (Dev.modZone_keeps _ _ _ _) rfl) (syncZone_keeps _ _ _) rfl)
  clear_value x0
  refine DevKeeps.foldl ?_ (fun y8 a8 h8 => ?_)
  · exact h0
  · beta_reduce
    split
    · extract_lets -merge -underBinder +onlyGivenNames x9
      clear_value x9
      extract_lets -merge -underBinder +onlyGivenNames x10
      have h10 : DevKeeps 110592 d x10 := by
        subst x10
        exact (DevKeeps.step h8 (dropStage_keeps _ _ _ _) rfl)
      clear_value x10
      refine iteP (P := DevKeeps 110592 d) (fun _ => ?_) (fun _ => ?_)
      · exact h8
      · exact (DevKeeps.step h10 (Dev.modZm_keeps _ _) rfl)
    · exact h8

theorem cellFreed_keeps (a0 : ℕ) (a1 : ℕ) (d : Dev) :
    DevKeeps 0x38100000000000000000000000000000000001B802 d (cellFreed a0 a1 d) := by
  unfold cellFreed
  refine iteP (P := DevKeeps 0x38100000000000000000000000000000000001B802 d) (fun _ => ?_) (fun _ => ?_)
  · exact (.refl _ _)
  · exact (DevKeeps.step (DevKeeps.step (.refl _ _) (cellFree_keeps _ _ _) rfl) (settleFreed_keeps _) rfl)

theorem execCellFree_keeps (a0 : Fin 64) (a1 : Word) (s : State) :
    NextP (StateKeeps 0x38100000000000000000000000000000000001B803 s) (execCellFree a0 a1 s) := by
  unfold execCellFree
  refine onDev_keeps ?_
  refine orRsv_keeps ?_ ?_ rfl
  · exact (.refl _ _)
  · exact (DevKeeps.step (.refl _ _) (cellFreed_keeps _ _ _) rfl)

end Sys2Proof.Machine
end

