-- ==== Sys2Proof/Laws/Registers.lean ====
section
/-! SUPPORT. Reading registers, channels, dies, functions and slots after writing them. -/

namespace Sys2Proof.Machine

variable (d : Dev)

/-- A stored word reads back modulo 32 bits. -/
@[simp] theorem Dev.regGet_regSet_same (r : RegDef) (n i v : Nat) : (d.regSet r n i v).regGet r n i = v % 2 ^ 32 := by
  simp [Dev.regGet, Dev.regSet]

/-- A store leaves every register at another place as it was. -/
theorem Dev.regGet_regSet_other {r q : RegDef} {n i m j : Nat} (v : Nat) (h : q.key m j ≠ r.key n i) :
    (d.regSet r n i v).regGet q m j = d.regGet q m j := by
  simp [Dev.regGet, Dev.regSet, mapGet_set_other, h]

@[simp] theorem Dev.chan_setChan_same (n : Nat) (c : Chan) : (d.setChan n c).chan n = c := by
  simp [Dev.chan, Dev.setChan]

theorem Dev.chan_setChan_other {n m : Nat} (c : Chan) (h : m ≠ n) : (d.setChan n c).chan m = d.chan m := by
  simp [Dev.chan, Dev.setChan, mapGet_set_other, h]

@[simp] theorem Dev.chan_modChan_same (n : Nat) (f : Chan → Chan) : (d.modChan n f).chan n = f (d.chan n) := by
  simp [Dev.modChan]

theorem Dev.chan_modChan_other {n m : Nat} (f : Chan → Chan) (h : m ≠ n) : (d.modChan n f).chan m = d.chan m := by
  simp [Dev.modChan, Dev.chan_setChan_other, h]

@[simp] theorem Chan.die_setDie_same (c : Chan) (t : Nat) (x : Die) : (c.setDie t x).die t = x := by
  simp [Chan.die, Chan.setDie]

@[simp] theorem Dev.die_modDie_same (n t : Nat) (f : Die → Die) : (d.modDie n t f).die n t = f (d.die n t) := by
  simp [Dev.die, Dev.modDie, Chan.modDie]

@[simp] theorem Dev.func_modFunc_same (n : Nat) (f : Func → Func) : (d.modFunc n f).func n = f (d.func n) := by
  simp [Dev.func, Dev.modFunc, Dev.modHost]

theorem Dev.func_modFunc_other {n m : Nat} (f : Func → Func) (h : m ≠ n) : (d.modFunc n f).func m = d.func m := by
  simp [Dev.func, Dev.modFunc, Dev.modHost, mapGet_mod_other, h]

@[simp] theorem Dev.slot_setSlot_same (k : Nat) (x : Slot) : (d.setSlot k x).slot? k = some x := by
  simp [Dev.slot?, Dev.setSlot, Dev.modHost]

theorem Dev.slot_setSlot_other {k j : Nat} (x : Slot) (h : j ≠ k) : (d.setSlot k x).slot? j = d.slot? j := by
  simp [Dev.slot?, Dev.setSlot, Dev.modHost, mapFind_insert_other, h]

/-- What a changed slot holds. -/
theorem Dev.slot_modSlot_same (k : Nat) (f : Slot → Slot) : (d.modSlot k f).slot? k = (d.slot? k).map f := by
  unfold Dev.modSlot; split
  · next x h => simp [h]
  · next h => simp [h]

theorem Dev.slot_modSlot_other {k j : Nat} (f : Slot → Slot) (h : j ≠ k) : (d.modSlot k f).slot? j = d.slot? j := by
  unfold Dev.modSlot; split
  · exact Dev.slot_setSlot_other d _ h
  · rfl

/-- A finished command is due, with its completion. -/
theorem Dev.slot_finish_same (k : Nat) (c : Cpl) :
    (finish k c d).slot? k = (d.slot? k).map fun x => { x with phase := .due, cpl := some c } := Dev.slot_modSlot_same d k _

@[simp] theorem Dev.port_modPort_same (p : Nat) (f : Port → Port) : (d.modPort p f).port p = f (d.port p) := by
  simp [Dev.port, Dev.modPort, Dev.modHost]

/-! ### Registers that a change elsewhere leaves -/

/-- Registers read alike where they are held alike. -/
theorem Dev.regGet_congr {d e : Dev} (h : e.regs = d.regs) (r : RegDef) (n i : Nat) : e.regGet r n i = d.regGet r n i := by
  simp [Dev.regGet, h]

theorem Dev.rdx_congr {d e : Dev} (h : e.regs = d.regs) (n i : Nat) (f : Fld) : e.rdx n i f = d.rdx n i f := by
  simp [Dev.rdx, Dev.regGet_congr h]

theorem Dev.rd_congr {d e : Dev} (h : e.regs = d.regs) (f : Fld) : e.rd f = d.rd f := Dev.rdx_congr h 0 0 f

theorem Dev.chan_congr {d e : Dev} (h : e.chans = d.chans) (n : Nat) : e.chan n = d.chan n := by simp [Dev.chan, h]

/-! ### Bit fields -/

/-- A field that was replaced reads as the value put there. -/
theorem bits_setBits (w hi lo v : Nat) : bits (setBits w hi lo v) hi lo = v % 2 ^ (hi - lo + 1) := by
  unfold bits setBits bits
  generalize hk : 2 ^ (hi - lo + 1) = k
  generalize hl : 2 ^ lo = l
  have hl0 : 0 < l := by rw [← hl]; positivity
  have hk0 : 0 < k := by rw [← hk]; positivity
  have e1 : w = l * (k * (w / l / k)) + w / l % k * l + w % l := by
    conv_lhs => rw [← Nat.div_add_mod w l, ← Nat.div_add_mod (w / l) k]
    ring
  have h3 : w - w / l % k * l = l * (k * (w / l / k)) + w % l := by omega
  rw [h3]
  have h4 : l * (k * (w / l / k)) + w % l + v % k * l = l * (k * (w / l / k) + v % k) + w % l := by ring
  rw [h4, Nat.mul_add_div hl0, Nat.div_eq_of_lt (Nat.mod_lt _ hl0), Nat.add_zero, Nat.mul_add_mod, Nat.mod_mod]

theorem setBits_lt {w hi lo v : Nat} (h : hi < 32) (hl : lo ≤ hi) (hw : w < 2 ^ 32) : setBits w hi lo v < 2 ^ 32 := by
  unfold setBits bits
  have hp : 2 ^ (hi - lo + 1) * 2 ^ lo ≤ 2 ^ 32 := by
    rw [← Nat.pow_add]; exact Nat.pow_le_pow_right (by norm_num) (by omega)
  have hk0 : 0 < 2 ^ (hi - lo + 1) := by positivity
  have hl0 : 0 < 2 ^ lo := by positivity
  have hv : v % 2 ^ (hi - lo + 1) ≤ 2 ^ (hi - lo + 1) - 1 := by have := Nat.mod_lt v hk0; omega
  have hlp : 2 ^ 32 = 2 ^ (hi - lo + 1) * 2 ^ lo * 2 ^ (31 - hi) := by
    rw [← Nat.pow_add, ← Nat.pow_add]; congr 1; omega
  generalize 2 ^ (hi - lo + 1) = k at *
  generalize hL : 2 ^ lo = l at *
  generalize 2 ^ (31 - hi) = r at *
  have e1 : w = l * (k * (w / l / k)) + w / l % k * l + w % l := by
    conv_lhs => rw [← Nat.div_add_mod w l, ← Nat.div_add_mod (w / l) k]
    ring
  have hwr : w / l / k < r := by
    rw [Nat.div_div_eq_div_mul, Nat.div_lt_iff_lt_mul (by positivity)]
    calc w < 2 ^ 32 := hw
      _ = k * l * r := hlp
      _ = r * (l * k) := by ring
  have h5 : w - w / l % k * l = l * (k * (w / l / k)) + w % l := by omega
  rw [h5, hlp]
  have hm : w % l < l := Nat.mod_lt _ hl0
  calc l * (k * (w / l / k)) + w % l + v % k * l
      < l * (k * (w / l / k)) + l + (k - 1) * l := by
        have := Nat.mul_le_mul_right l hv
        omega
    _ = l * (k * (w / l / k)) + (1 + (k - 1)) * l := by ring
    _ = l * k * (w / l / k + 1) := by
        have : 1 + (k - 1) = k := by omega
        rw [this]; ring
    _ ≤ l * k * r := Nat.mul_le_mul_left _ hwr
    _ = k * l * r := by ring

theorem Dev.regGet_lt (r : RegDef) (n i : Nat) : d.regGet r n i < 2 ^ 32 := by
  unfold Dev.regGet; exact BitVec.isLt _

/-- A written field reads back modulo its width. -/
theorem Dev.rdx_wrx_same (n i : Nat) {f : Fld} (v : Nat) (h : f.hi < 32) (hl : f.lo ≤ f.hi) :
    (d.wrx n i f v).rdx n i f = v % 2 ^ (f.hi - f.lo + 1) := by
  unfold Dev.rdx Dev.wrx
  rw [Dev.regGet_regSet_same, Nat.mod_eq_of_lt (setBits_lt h hl (d.regGet_lt _ _ _)), bits_setBits]

theorem Dev.rd_wr_same {f : Fld} (v : Nat) (h : f.hi < 32) (hl : f.lo ≤ f.hi) :
    (d.wr f v).rd f = v % 2 ^ (f.hi - f.lo + 1) := d.rdx_wrx_same 0 0 v h hl

theorem Dev.rdb_wrb_same (i : Nat) {f : Fld} (v : Nat) (h : f.hi < 32) (hl : f.lo ≤ f.hi) :
    (d.wrb i f v).rdb i f = v % 2 ^ (f.hi - f.lo + 1) := d.rdx_wrx_same 0 i v h hl

theorem Dev.rdc_wrc_same (n : Nat) {f : Fld} (v : Nat) (h : f.hi < 32) (hl : f.lo ≤ f.hi) :
    (d.wrc n f v).rdc n f = v % 2 ^ (f.hi - f.lo + 1) := d.rdx_wrx_same n 0 v h hl

/-- A field of another register is as it was. -/
theorem Dev.rdx_wrx_other {n i m j : Nat} {f g : Fld} (v : Nat) (h : g.reg.key m j ≠ f.reg.key n i) :
    (d.wrx n i f v).rdx m j g = d.rdx m j g := by
  unfold Dev.rdx Dev.wrx
  rw [Dev.regGet_regSet_other d _ h]

/-- Bits of a word outside a field that was replaced. -/
theorem bits_setBits_below {w hi lo v h l : Nat} (hlt : h < lo) (hl : l ≤ h) : bits (setBits w hi lo v) h l = bits w h l := by
  unfold bits setBits bits
  generalize hx : v % 2 ^ (hi - lo + 1) = x
  generalize hy : w / 2 ^ lo % 2 ^ (hi - lo + 1) = y
  have hyw : y * 2 ^ lo ≤ w := by
    rw [← hy]
    calc _ ≤ w / 2 ^ lo * 2 ^ lo := Nat.mul_le_mul_right _ (Nat.mod_le _ _)
      _ ≤ w := Nat.div_mul_le_self _ _
  have e : 2 ^ lo = 2 ^ l * (2 ^ (h - l + 1) * 2 ^ (lo - h - 1)) := by
    rw [← Nat.pow_add, ← Nat.pow_add]; congr 1; omega
  rw [e] at hyw ⊢
  clear hy e
  generalize 2 ^ (h - l + 1) = a at *
  generalize 2 ^ (lo - h - 1) = b at *
  have hl0 : 0 < 2 ^ l := by positivity
  generalize 2 ^ l = c at *
  have key : ∀ z u, (z + u * (c * (a * b))) / c % a = z / c % a := by
    intro z u
    have : u * (c * (a * b)) = c * (a * (u * b)) := by ring
    rw [this, Nat.add_mul_div_left _ _ hl0, Nat.add_mul_mod_self_left]
  rw [key]
  conv_rhs => rw [show w = (w - y * (c * (a * b))) + y * (c * (a * b)) by omega]
  rw [key]

theorem bits_setBits_above {w hi lo v h l : Nat} (hlt : hi < l) (hl : lo ≤ hi) : bits (setBits w hi lo v) h l = bits w h l := by
  unfold bits setBits bits
  generalize hx : v % 2 ^ (hi - lo + 1) = x
  generalize hy : w / 2 ^ lo % 2 ^ (hi - lo + 1) = y
  have hp : 0 < 2 ^ (hi - lo + 1) := by positivity
  have hxk : x < 2 ^ (hi - lo + 1) := by rw [← hx]; exact Nat.mod_lt _ hp
  have e : 2 ^ l = 2 ^ lo * (2 ^ (hi - lo + 1) * 2 ^ (l - hi - 1)) := by
    rw [← Nat.pow_add, ← Nat.pow_add]; congr 1; omega
  rw [e]
  clear hx
  generalize 2 ^ (hi - lo + 1) = k at *
  generalize 2 ^ (l - hi - 1) = b at *
  have hl0 : 0 < 2 ^ lo := by positivity
  generalize 2 ^ lo = c at *
  have hw : w = c * (k * (w / c / k)) + y * c + w % c := by
    conv_lhs => rw [← Nat.div_add_mod w c, ← Nat.div_add_mod (w / c) k, hy]
    ring
  have e1 : w - y * c + x * c = c * (k * (w / c / k) + x) + w % c := by
    have : w - y * c = c * (k * (w / c / k)) + w % c := by omega
    rw [this]; ring
  have key : ∀ z u, u < k → (c * (k * z + u) + w % c) / (c * (k * b)) = z / b := by
    intro z u hu
    rw [← Nat.div_div_eq_div_mul, Nat.mul_add_div hl0, Nat.div_eq_of_lt (Nat.mod_lt _ hl0), Nat.add_zero, ← Nat.div_div_eq_div_mul,
      Nat.mul_add_div hp, Nat.div_eq_of_lt hu, Nat.add_zero]
  rw [e1, key _ _ hxk]
  have hyk : y < k := by rw [← hy]; exact Nat.mod_lt _ hp
  conv_rhs => rw [hw, show c * (k * (w / c / k)) + y * c + w % c = c * (k * (w / c / k) + y) + w % c by ring, key _ _ hyk]

/-- Another field of the same register is as it was. -/
theorem Dev.rdx_wrx_field {n i : Nat} {f g : Fld} (v : Nat) (hr : g.reg = f.reg) (h : f.hi < 32) (hl : f.lo ≤ f.hi) (hg : g.lo ≤ g.hi)
    (hd : g.hi < f.lo ∨ f.hi < g.lo) : (d.wrx n i f v).rdx n i g = d.rdx n i g := by
  unfold Dev.rdx Dev.wrx
  rw [hr, Dev.regGet_regSet_same, Nat.mod_eq_of_lt (setBits_lt h hl (d.regGet_lt _ _ _))]
  rcases hd with hd | hd
  · exact bits_setBits_below hd hg
  · exact bits_setBits_above hd hl

/-- A bit just written. -/
theorem bit_setBits_same (w i : Nat) : bit (setBits w i i 1) i = true := by
  have h := bits_setBits w i i 1
  simpa [bits, bit] using h

end Sys2Proof.Machine
end

