-- ==== Sys2Proof/Laws/Next.lean ====
section
/-! SUPPORT. When the shapes of a command answer a next state. -/

namespace Sys2Proof.Machine

variable {s : State} {P : State → Prop} {Q : Dev → Prop}

theorem gives_next {t : State} (h : P t) : Gives (.next t) P := ⟨t, rfl, h⟩
theorem givesDev_of_ok {f : Dev → Except String Dev} {d : Dev} (h : f s.dev = .ok d) (hq : Q d) : GivesDev (onDev s f) s Q :=
  ⟨d, by simp [onDev, h], hq⟩
theorem givesDev_always {f : Dev → Dev} (hq : Q (f s.dev)) : GivesDev (onDev s (always f)) s Q := ⟨f s.dev, rfl, hq⟩
theorem givesDev_onlyIf {b : Bool} {w : String} {f : Dev → Dev} (h : b = true) (hq : Q (f s.dev)) :
    GivesDev (onDev s (onlyIf b w f)) s Q := ⟨f s.dev, by simp [onDev, onlyIf, h], hq⟩
theorem givesDev_onlyIf' {b : Dev → Bool} {w : String} {f : Dev → Dev} (h : b s.dev = true) (hq : Q (f s.dev)) :
    GivesDev (onDev s fun d => onlyIf (b d) w f d) s Q := ⟨f s.dev, by simp [onDev, onlyIf, h], hq⟩
theorem givesDev_orRsv {b : Bool} {f : Dev → Dev} (h : b = false) (hq : Q (f s.dev)) : GivesDev (onDev s (orRsv b f)) s Q :=
  givesDev_of_ok (f := orRsv b f) (d := f s.dev) (by simp [orRsv, h]) hq
/-- A write that sets no RSV bit acts as its register says. -/
theorem orRsvWide_plain {b : Bool} {f : State → State} {t : State} (h : b = false) : orRsvWide b f t = f t := by simp [orRsvWide, h]
theorem givesThen_of_ok {f : Dev → Except String Dev} {g : State → State} {d : Dev} (h : f s.dev = .ok d) (hq : Q d) :
    GivesThen (onDevThen s f g) s g Q := ⟨d, by simp [onDevThen, h], hq⟩
theorem givesThen_always {f : Dev → Dev} {g : State → State} (hq : Q (f s.dev)) : GivesThen (onDevThen s (always f) g) s g Q :=
  ⟨f s.dev, rfl, hq⟩

theorem onSlot_taken {d : Dev} {k op : Nat} {a : Bool} {x : Slot} {g : Slot → Dev → Except String Dev} (h : Taken d k a op x) :
    onSlot k a op g d = g x d := by
  obtain ⟨h1, h2, h3, h4⟩ := h
  simp [onSlot, h1, h2, h3, h4]

/-- A command row whose command is taken up answers what its effect answers. -/
theorem givesDev_onSlot {k op : Nat} {a : Bool} {x : Slot} {g : Slot → Dev → Except String Dev} {d : Dev} (h : Taken s.dev k a op x)
    (hg : g x s.dev = .ok d) (hq : Q d) : GivesDev (onDev s fun d => onSlot k a op g d) s Q :=
  givesDev_of_ok (by rw [onSlot_taken h, hg]) hq

theorem completes_finish {d : Dev} {k : Nat} {x : Slot} (c : Cpl) (h : d.slot? k = some x) : Completes (finish k c d) k c :=
  ⟨{ x with phase := .due, cpl := some c }, by rw [Dev.slot_finish_same, h]; rfl, rfl, rfl⟩

/-! ### Registers read after other registers were written -/

/-- A write of another register changes no field of this one. -/
theorem Dev.rdx_wrx_reg {d : Dev} {n i m j v : Nat} {f g : Fld} (h : g.reg.num % 512 ≠ f.reg.num % 512) :
    (d.wrx n i f v).rdx m j g = d.rdx m j g :=
  Dev.rdx_wrx_other _ _ (by unfold RegDef.key; omega)
theorem Dev.regGet_wrx_reg {d : Dev} {n i m j v : Nat} {f : Fld} {r : RegDef} (h : r.num % 512 ≠ f.reg.num % 512) :
    (d.wrx n i f v).regGet r m j = d.regGet r m j :=
  Dev.regGet_regSet_other _ _ (by unfold RegDef.key; omega)
theorem Dev.rdx_regSet_reg {d : Dev} {n i m j v : Nat} {r : RegDef} {g : Fld} (h : g.reg.num % 512 ≠ r.num % 512) :
    (d.regSet r n i v).rdx m j g = d.rdx m j g := by
  unfold Dev.rdx; rw [Dev.regGet_regSet_other _ _ (by unfold RegDef.key; omega)]

theorem bit_setBits_other {w i j v : Nat} (h : i ≠ j) : bit (setBits w j j v) i = bit w i := by
  have e : bits (setBits w j j v) i i = bits w i i := by
    rcases Nat.lt_or_gt_of_ne h with h | h
    · exact bits_setBits_below h (le_refl _)
    · exact bits_setBits_above h (le_refl _)
  have e' : setBits w j j v / 2 ^ i % 2 = w / 2 ^ i % 2 := by simpa [bits] using e
  simp [bit, e']
theorem bits_self (w i : Nat) : bits w i i = b2n (bit w i) := by
  unfold bits bit b2n; simp; split <;> omega

/-- The field that was written. -/
theorem Dev.rdx_wrx_self {d : Dev} {n i v : Nat} {f : Fld} (h : f.hi < 32 ∧ f.lo ≤ f.hi) :
    (d.wrx n i f v).rdx n i f = v % 2 ^ (f.hi - f.lo + 1) := Dev.rdx_wrx_same _ _ _ _ h.1 h.2
/-- Another field of the register. -/
theorem Dev.rdx_wrx_fld {d : Dev} {n i v : Nat} {f g : Fld}
    (h : g.reg.num = f.reg.num ∧ g.reg.resetWord i = f.reg.resetWord i ∧ f.hi < 32 ∧ f.lo ≤ f.hi ∧ g.lo ≤ g.hi ∧ (g.hi < f.lo ∨ f.hi < g.lo)) :
    (d.wrx n i f v).rdx n i g = d.rdx n i g := by
  obtain ⟨h1, h2, h3, h4, h5, h6⟩ := h
  have e : ∀ (x : Dev), x.regGet g.reg n i = x.regGet f.reg n i := by intro x; unfold Dev.regGet RegDef.key; rw [h1, h2]
  unfold Dev.rdx Dev.wrx
  rw [e, e, Dev.regGet_regSet_same, Nat.mod_eq_of_lt (setBits_lt h3 h4 (d.regGet_lt _ _ _))]
  rcases h6 with h6 | h6
  · exact bits_setBits_below h6 h5
  · exact bits_setBits_above h6 h4
/-- Another field of the same register, at any index. -/
theorem Dev.rdx_wrx_fldAt {d : Dev} {n i v : Nat} {f g : Fld}
    (h : g.reg = f.reg ∧ (f.hi < 32 ∧ f.lo ≤ f.hi ∧ g.lo ≤ g.hi ∧ (g.hi < f.lo ∨ f.hi < g.lo))) : (d.wrx n i f v).rdx n i g = d.rdx n i g :=
  Dev.rdx_wrx_fld ⟨by rw [h.1], by rw [h.1], h.2⟩
theorem b2n_mod (b : Bool) : b2n b % 2 = b2n b := by cases b <;> rfl
theorem b2n_eq_one (b : Bool) : decide (b2n b = 1) = b := by cases b <;> rfl

end Sys2Proof.Machine
end

