-- ==== Sys2Proof/Laws/Host.lean ====
section
/-! SUPPORT. The host interface: completions written, entries fetched, slots under the changes of other slots. -/

namespace Sys2Proof.Machine

/-- What fetching the entry `x` issued as `i` leaves from `d`: the next fetch number, the entry no longer issued, its slot taken. -/
def FetchP (i : Issued) (x : Sqe) (d e : Dev) : Prop := e.host.seq = d.host.seq + 1 ∧ e.host.issued = listEraseFirst (fun j => j == i) d.host.issued ∧
    ∃ y, e.slot? i.slot = some y ∧ y.fn = i.fn ∧ y.qid = i.qid ∧ y.sqe = x ∧ y.seq = d.host.seq + 1
theorem settleShutdown_slots (f : Nat) (d : Dev) : (settleShutdown f d).host.slots = d.host.slots := by unfold settleShutdown; split <;> rfl
theorem settleShutdown_out (f : Nat) (d : Dev) : (settleShutdown f d).out = d.out := by unfold settleShutdown; split <;> rfl
theorem modNs_host (d : Dev) (n f) : (d.modNs n f).host = d.host := by unfold Dev.modNs; split <;> rfl
theorem modNs_out (d : Dev) (n f) : (d.modNs n f).out = d.out := by unfold Dev.modNs; split <;> rfl
theorem writeCqe_writes (k : Nat) (x : Slot) (c : Cpl) (cqid : Nat) (cq : Cq) (d : Dev) (h : d.mute x.fn = false) :
    Writes k x c cqid cq d (writeCqe k x c cqid cq d) := by
  unfold writeCqe
  extract_lets f head words d1 d2 tail d3 d4 d5 d6
  refine ⟨?_, ?_⟩
  · show mapFind (mapErase d6.host.slots k) k = none; exact mapFind_erase_same _ _
  · show d6.out = _
    have h6 : d6.out = d5.out := by subst d6; split; exacts [modNs_out _ _ _, rfl]
    have h5 : d5.out = d4.out := by subst d5; split <;> rfl
    have h4 : d4.out = d3.out := by subst d4; split <;> rfl
    have h3 : d3.out = d2.out := rfl
    rw [h6, h5, h4, h3]
    have h1 : d1.out = .cqe f cqid cq.tail words :: d.out := by subst d1; unfold Dev.send; simp [f, h]
    have hm : d1.mute f = d.mute f := by subst d1; unfold Dev.send; simp only [f, h]; exact h
    subst d2
    split
    · unfold Dev.send; simp only [hm, f, h, if_false, Bool.false_eq_true]; rw [h1]; rfl
    · rw [h1]; rfl
theorem post_writes {d : Dev} {k : Nat} {x : Slot} {c : Cpl} {cqid : Nat} {cq : Cq} (hq : CqOf d x.fn x.qid cqid cq) (hf : cq.full = false)
    (hm : d.mute x.fn = false) : Writes k x c cqid cq d (settleShutdown x.fn (postCqe k x c d)) := by
  obtain ⟨sq, q1, q2, q3⟩ := hq
  have e : postCqe k x c d = writeCqe k x c cqid cq d := by
    unfold postCqe
    simp only [q1, q2, q3, hf]; rfl
  obtain ⟨w1, w2⟩ := writeCqe_writes k x c cqid cq d hm
  rw [e]
  exact ⟨by unfold Dev.slot? at w1 ⊢; rw [settleShutdown_slots]; exact w1, by rw [settleShutdown_out]; exact w2⟩
theorem abortEntry_entry (c : Nat) (d : Dev) : (abortEntry c d).pwr.entry = none := by
  unfold abortEntry
  split
  · next h => exact h
  · extract_lets d1 src d2
    have h : d2.pwr.entry = none := rfl
    clear_value d2
    split
    · split
      · exact h
      · exact h
    · exact h
theorem raiseEvent_sqs (f : Nat) (e) (d : Dev) (g : Nat) : ((raiseEvent f e d).func g).sqs = (d.func g).sqs := by
  unfold raiseEvent
  split
  · rfl
  · split
    · next k _ =>
      extract_lets d1
      have h1 : (d1.func g) = (d.func g) := by
        subst d1; unfold finish Dev.modSlot; split <;> rfl
      clear_value d1
      split
      · rw [h1]
      · by_cases hg : g = f
        · subst hg; rw [Dev.func_modFunc_same, h1]
        · rw [Dev.func_modFunc_other _ _ hg, h1]
    · rfl
theorem issueFrom_rr (f q : Nat) : ∀ (n : Nat) (a : Nat × Dev), (issueFrom f q n a).2.host.rrFunc = a.2.host.rrFunc
  | 0, a => rfl
  | n + 1, (u, d) => by
    unfold issueFrom
    split
    · split
      · split
        · rw [issueFrom_rr f q n]
          show (issueRead f q d).host.rrFunc = d.host.rrFunc
          unfold issueRead
          split
          · show (d.send _).host.rrFunc = _
            rw [Dev.send_host]
          · rfl
        · rw [(Dev.flagIf_keeps d _ _).host (by rfl)]
      · rfl
    · rfl
theorem slot_modSlot (d : Dev) (k j : Nat) (f : Slot → Slot) : (d.modSlot k f).slot? j = if j = k then (d.slot? j).map f else d.slot? j := by
  split
  · next h => subst h; exact Dev.slot_modSlot_same _ _ _
  · next h => exact Dev.slot_modSlot_other _ _ h
theorem modSlot_seq (d : Dev) (k : Nat) (f) : (d.modSlot k f).host.seq = d.host.seq := by unfold Dev.modSlot; split <;> rfl
theorem fetchOne_slot (i : Issued) (x : Sqe) (d : Dev) : (fetchOne i x d).host.seq = d.host.seq + 1 ∧ (fetchOne i x d).host.issued = listEraseFirst (fun j => j == i) d.host.issued ∧
    ∃ y, (fetchOne i x d).slot? i.slot = some y ∧ y.fn = i.fn ∧ y.qid = i.qid ∧ y.sqe = x ∧ y.seq = d.host.seq + 1 := by
  unfold fetchOne
  extract_lets k seq maint first deleting d1 d2 d3 e4
  show FetchP i x d _
  have h3 : FetchP i x d d3 := ⟨rfl, rfl, _, Dev.slot_setSlot_same _ _ _, rfl, rfl, rfl, rfl⟩
  have key : ∀ (f : Slot → Slot) (j : Nat) (e : Dev), (∀ y, (f y).fn = y.fn ∧ (f y).qid = y.qid ∧ (f y).sqe = y.sqe ∧ (f y).seq = y.seq) →
      FetchP i x d e → FetchP i x d (e.modSlot j f) := by
    rintro f j e hf ⟨p1, p2, y, p3, p4, p5, p6, p7⟩
    refine ⟨by rw [modSlot_seq]; exact p1, by unfold Dev.modSlot; split <;> exact p2, ?_⟩
    rw [slot_modSlot]
    split
    · rw [p3]; exact ⟨f y, rfl, by rw [(hf y).1, p4], by rw [(hf y).2.1, p5], by rw [(hf y).2.2.1, p6], by rw [(hf y).2.2.2, p7]⟩
    · exact ⟨y, p3, p4, p5, p6, p7⟩
  clear_value d3
  have hfin : ∀ c j e, FetchP i x d e → FetchP i x d (finish j c e) := fun c j e he => key _ j e (fun _ => ⟨rfl, rfl, rfl, rfl⟩) he
  have hreg : ∀ {m : Nat} {e e' : Dev}, DevKeeps m e e' → m.testBit 12 = false → FetchP i x d e → FetchP i x d e' := by
    intro m e e' hk hm he
    unfold FetchP Dev.slot? at *
    rw [hk.host hm]; exact he
  have h4 : FetchP i x d e4 := hfin _ _ _ (key _ _ _ (fun _ => ⟨rfl, rfl, rfl, rfl⟩) h3)
  clear_value e4 first deleting
  split
  · extract_lets e5
    exact hreg (Dev.wr_keeps _ Fd.HQ_EVT_CIDC _) (by rfl) (hreg (Dev.add_keeps _ Fd.HQ_CIDC_COUNT _) (by rfl) (key _ _ _ (fun _ => ⟨rfl, rfl, rfl, rfl⟩) h4))
  · have hstop : ∀ e, FetchP i x d e → FetchP i x d (stopSq k i.fn x e) := by
      rintro e ⟨p1, p2, y, p3, p4⟩
      unfold stopSq
      extract_lets q
      split
      · split
        · exact ⟨p1, p2, y, p3, p4⟩
        · exact ⟨p1, p2, y, p3, p4⟩
      · exact ⟨p1, p2, y, p3, p4⟩
    repeat' split
    all_goals first | exact hfin _ _ _ h3 | exact h3 | exact hstop _ (key _ _ _ (fun _ => ⟨rfl, rfl, rfl, rfl⟩) h3)
theorem split_one {α : Type} {p : α → Bool} {l : List α} {i : α} (h : l.filter p = [i]) :
    ∃ a b, l = a ++ i :: b ∧ (∀ y ∈ a, p y = false) ∧ (∀ y ∈ b, p y = false) ∧ p i = true := by
  induction l with
  | nil => simp at h
  | cons x xs ih =>
    cases hx : p x
    · rw [List.filter_cons, hx] at h
      obtain ⟨a, b, h1, h2, h3, h4⟩ := ih (by simpa using h)
      exact ⟨x :: a, b, by rw [h1]; rfl, by intro y hy; rcases List.mem_cons.1 hy with rfl | hy; exacts [hx, h2 y hy], h3, h4⟩
    · rw [List.filter_cons, hx] at h
      simp only [if_true, List.cons.injEq] at h
      obtain ⟨rfl, h⟩ := h
      exact ⟨[], xs, rfl, by simp, by simpa [List.filter_eq_nil_iff] using h, hx⟩
theorem find_one {α : Type} {p : α → Bool} {a b : List α} {i : α} (ha : ∀ y ∈ a, p y = false) (hi : p i = true) : (a ++ i :: b).find? p = some i := by
  rw [List.find?_append, List.find?_eq_none.2 (by simpa using ha)]; simp [hi]
theorem listModFirst_one {α : Type} {p : α → Bool} {f : α → α} {a b : List α} {i : α} (ha : ∀ y ∈ a, p y = false) (hi : p i = true) :
    listModFirst p f (a ++ i :: b) = a ++ f i :: b := by
  induction a with
  | nil => simp [listModFirst, hi]
  | cons x xs ih => simp [listModFirst, ha x (by simp), ih fun y hy => ha y (by simp [hy])]
theorem listEraseFirst_one {α : Type} {p : α → Bool} {a b : List α} {i : α} (ha : ∀ y ∈ a, p y = false) (hi : p i = true) :
    listEraseFirst p (a ++ i :: b) = a ++ b := by
  induction a with
  | nil => simp [listEraseFirst, hi]
  | cons x xs ih => simp [listEraseFirst, ha x (by simp), ih fun y hy => ha y (by simp [hy])]

/-- Every slot that holds a command in `d` holds one in `e`, and the functions are as they were. -/
structure SlotsHeld (d e : Dev) : Prop where
  slots : ∀ k, (d.slot? k).isSome = true → (e.slot? k).isSome = true
  funcs : e.host.funcs = d.host.funcs
theorem SlotsHeld.refl (d : Dev) : SlotsHeld d d := ⟨fun _ h => h, rfl⟩
theorem SlotsHeld.trans {d e f : Dev} (h1 : SlotsHeld d e) (h2 : SlotsHeld e f) : SlotsHeld d f :=
  ⟨fun k h => h2.slots k (h1.slots k h), h2.funcs.trans h1.funcs⟩
theorem SlotsHeld.of_slots {d e : Dev} (h : e.host.slots = d.host.slots) (h' : e.host.funcs = d.host.funcs) : SlotsHeld d e :=
  ⟨fun k hk => by unfold Dev.slot? at *; rw [h]; exact hk, h'⟩
theorem SlotsHeld.of_keeps {m : Nat} {d e : Dev} (h : DevKeeps m d e) (hm : m.testBit 12 = false) : SlotsHeld d e :=
  .of_slots (by rw [h.host hm]) (by rw [h.host hm])
theorem SlotsHeld.modSlot (d : Dev) (k : Nat) (f : Slot → Slot) : SlotsHeld d (d.modSlot k f) where
  slots := fun j h => by
    rw [slot_modSlot]; split
    · rw [Option.isSome_map]; exact h
    · exact h
  funcs := by unfold Dev.modSlot; split <;> rfl
theorem SlotsHeld.completes {d e : Dev} {k : Nat} {x : Slot} (h : SlotsHeld d e) (hx : d.slot? k = some x) (c : Cpl) : Completes (finish k c e) k c := by
  have := h.slots k (by rw [hx]; rfl)
  obtain ⟨y, hy⟩ := Option.isSome_iff_exists.1 this
  exact completes_finish c hy
theorem release_slots (d : Dev) (h : Nat) : SlotsHeld d (d.release h) := .of_keeps (d.release_keeps h) (by rfl)
theorem camFree_slots (d : Dev) (i : Nat) : SlotsHeld d (d.camFree i) := .of_keeps (d.camFree_keeps i) (by rfl)
theorem dropStage_slots (t n : Nat) (r : Bool) (d : Dev) : SlotsHeld d (dropStage t n r d) := .of_slots (by unfold dropStage; split <;> rfl) (by unfold dropStage; split <;> rfl)
theorem modZone_slots (d : Dev) (a b : Nat) (f : Zone → Zone) : SlotsHeld d (d.modZone a b f) := .of_keeps (d.modZone_keeps a b f) (by rfl)
theorem syncZone_slots (a b : Nat) (d : Dev) : SlotsHeld d (syncZone a b d) := .of_keeps (syncZone_keeps a b d) (by rfl)
theorem giveBack_slots (k : Nat) (d : Dev) : SlotsHeld d (giveBack k d) := by
  unfold giveBack
  split
  · exact .refl d
  · extract_lets ow d1 d2 d3 src d4
    have h1 : SlotsHeld d d1 := release_slots _ _
    clear_value d1
    have h2 : SlotsHeld d d2 := by
      subst d2; split
      · exact h1.trans (dropStage_slots _ _ _ _)
      · exact h1
    clear_value d2
    have h3 : SlotsHeld d d3 := by
      subst d3; split
      · exact h2.trans (camFree_slots _ _)
      · exact h2
    clear_value d3
    have h4 : SlotsHeld d d4 := h3.trans (.of_slots rfl rfl)
    clear_value d4
    exact h4.trans (.modSlot _ _ _)
theorem fallBack_slots (a b c : Nat) (d : Dev) : SlotsHeld d (fallBack a b c d) := by
  unfold fallBack
  extract_lets later
  generalize hr : List.foldl _ (d, c) later = r
  have h : SlotsHeld d r.1 := by
    rw [← hr]
    refine foldl_keeps (fun a : Dev × Nat => SlotsHeld d a.1) (.refl d) ?_
    rintro ⟨e, cp⟩ x he
    dsimp only at he ⊢
    split
    · have h1 : SlotsHeld d (e.modSlot x.1 fun x => { x with start := cp }) := he.trans (.modSlot _ _ _)
      generalize (e.modSlot x.1 fun x => { x with start := cp }) = e2 at *
      refine h1.trans ?_
      dsimp only
      exact modZone_slots e2 a b _
    · exact (he.trans (giveBack_slots _ _)).trans (.modSlot _ _ _)
  obtain ⟨e, cp⟩ := r
  exact (h.trans (modZone_slots _ _ _ _)).trans (syncZone_slots _ _ _)
theorem withdrawWrite_slots (k : Nat) (d : Dev) : SlotsHeld d (withdrawWrite k d) := by
  unfold withdrawWrite
  split
  · exact .refl d
  · split
    · exact ((giveBack_slots _ _).trans (modZone_slots _ _ _ _)).trans (fallBack_slots _ _ _ _)
    · exact giveBack_slots _ _
theorem withdrawCmd_slots (k : Nat) (c : Cpl) (d : Dev) : SlotsHeld d (withdrawCmd k c d) := by
  unfold withdrawCmd
  extract_lets d1 d2
  have h2 : SlotsHeld d d2 := (withdrawWrite_slots k d).trans (.of_slots rfl rfl)
  exact h2.trans (.modSlot _ _ _)
theorem modSlot_func (d : Dev) (k : Nat) (f) (n : Nat) : (d.modSlot k f).func n = d.func n := by unfold Dev.modSlot; split <;> rfl
theorem finish_func (d : Dev) (k : Nat) (c) (n : Nat) : (finish k c d).func n = d.func n := modSlot_func _ _ _ _

end Sys2Proof.Machine
end

