-- ==== Sys2Proof/Laws/KeepRefold.lean ====
section
/-! SUPPORT. What each operation of Machine/Refold.lean leaves as it was. -/

namespace Sys2Proof.Machine

theorem refuseRefold_keeps (a0 : ℕ) (a1 : Slot) (a2 : Cpl) (a3 : ℕ) (d : Dev) :
    DevKeeps 4198400 d (refuseRefold a0 a1 a2 a3 d) := by
  unfold refuseRefold
  exact (DevKeeps.step (DevKeeps.step (.refl _ _) (Dev.send_keeps _ _) rfl) (finish_keeps _ _ _) rfl)

theorem queueRefold_keeps (a0 : ℕ) (a1 : Slot) (a2 : Ns) (a3 : List RefoldRange) (a4 : ℕ × ℕ) (d : Dev) :
    DevKeeps 0x100000000000000000000000009F002 d (queueRefold a0 a1 a2 a3 a4 d) := by
  unfold queueRefold
  extract_lets -merge -underBinder +onlyGivenNames x0
  clear_value x0
  extract_lets -merge -underBinder +onlyGivenNames x1
  clear_value x1
  extract_lets -merge -underBinder +onlyGivenNames x2
  have h2 : DevKeeps 0x100000000000000000000000009F002 d x2 := by
    subst x2
    exact (DevKeeps.step (.refl _ _) (bindZone_keeps _ _ _ _ _ _) rfl)
  clear_value x2
  extract_lets -merge -underBinder +onlyGivenNames x3
  have h3 : DevKeeps 0x100000000000000000000000009F002 d x3 := by
    subst x3
    exact (DevKeeps.step h2 (Dev.modZone_keeps _ _ _ _) rfl)
  clear_value x3
  extract_lets -merge -underBinder +onlyGivenNames x4
  have h4 : DevKeeps 0x100000000000000000000000009F002 d x4 := by
    subst x4
    refine DevKeeps.foldl ?_ (fun y5 a5 h5 => ?_)
    · exact h3
    · beta_reduce
      exact (DevKeeps.step (DevKeeps.step h5 (abandonMigration_keeps _ _) rfl) (Dev.modZone_keeps _ _ _ _) rfl)
  clear_value x4
  extract_lets -merge -underBinder +onlyGivenNames x6
  have h6 : DevKeeps 0x100000000000000000000000009F002 d x6 := by
    subst x6
    exact (DevKeeps.step h4 (Dev.modZm_keeps _ _) rfl)
  clear_value x6
  extract_lets -merge -underBinder +onlyGivenNames x7
  have h7 : DevKeeps 0x100000000000000000000000009F002 d x7 := by
    subst x7
    exact (DevKeeps.step h6 (Dev.flagIf_keeps _ _ _) (by rfl))
  clear_value x7
  exact (DevKeeps.step (DevKeeps.step h7 (Dev.modSlot_keeps _ _ _) rfl) (syncZone_keeps _ _ _) rfl)

theorem refold_keeps (a0 : ℕ) (a1 : List RefoldRange) (d : Dev) :
    OkP (DevKeeps 0x2000100004000000000000000000049F002 d) (refold a0 a1 d) := by
  unfold refold
  refine onSlot_keeps ?_ rfl (fun z0 => ?_)
  · exact (.refl _ _)
  · beta_reduce
    extract_lets -merge -underBinder +onlyGivenNames x1
    clear_value x1
    extract_lets -merge -underBinder +onlyGivenNames x2
    clear_value x2
    refine iteP (P := OkP (DevKeeps 0x2000100004000000000000000000049F002 d)) (fun _ => ?_) (fun _ => ?_)
    · exact trivial
    · split
      · refine OkP.ok ?_
        exact (DevKeeps.step (.refl _ _) (finish_keeps _ _ _) rfl)
      · refine iteP (P := OkP (DevKeeps 0x2000100004000000000000000000049F002 d)) (fun _ => ?_) (fun _ => ?_)
        · refine OkP.ok ?_
          exact (DevKeeps.step (.refl _ _) (finish_keeps _ _ _) rfl)
        · refine iteP (P := OkP (DevKeeps 0x2000100004000000000000000000049F002 d)) (fun _ => ?_) (fun _ => ?_)
          · refine OkP.ok ?_
            exact (DevKeeps.step (.refl _ _) (finish_keeps _ _ _) rfl)
          · refine iteP (P := OkP (DevKeeps 0x2000100004000000000000000000049F002 d)) (fun _ => ?_) (fun _ => ?_)
            · refine OkP.ok ?_
              exact (DevKeeps.step (.refl _ _) (finish_keeps _ _ _) rfl)
            · refine iteP (P := OkP (DevKeeps 0x2000100004000000000000000000049F002 d)) (fun _ => ?_) (fun _ => ?_)
              · refine OkP.ok ?_
                exact (DevKeeps.step (.refl _ _) (waitIo_keeps _ _) rfl)
              · split
                · refine OkP.ok ?_
                  exact (DevKeeps.step (.refl _ _) (refuseRefold_keeps _ _ _ _ _) rfl)
                · refine iteP (P := OkP (DevKeeps 0x2000100004000000000000000000049F002 d)) (fun _ => ?_) (fun _ => ?_)
                  · refine OkP.ok ?_
                    exact (DevKeeps.step (.refl _ _) (waitIo_keeps _ _) rfl)
                  · refine iteP (P := OkP (DevKeeps 0x2000100004000000000000000000049F002 d)) (fun _ => ?_) (fun _ => ?_)
                    · refine OkP.ok ?_
                      exact (DevKeeps.step (DevKeeps.step (.refl _ _) (countEntryWait_keeps _ _) rfl) (waitIo_keeps _ _) rfl)
                    · split
                      · refine OkP.ok ?_
                        exact (DevKeeps.step (.refl _ _) (queueRefold_keeps _ _ _ _ _ _) rfl)
                      · refine OkP.ok ?_
                        exact (DevKeeps.step (DevKeeps.step (.refl _ _) (bindRefused_keeps _ _) rfl) (refuseRefold_keeps _ _ _ _ _) rfl)

theorem execRefoldCmd_keeps (a0 : Fin 131072) (a1 : List RefoldRange) (s : State) :
    NextP (StateKeeps 0x2000100004000000000000000000049F002 s) (execRefoldCmd a0 a1 s) := by
  unfold execRefoldCmd
  refine onDev_keeps ?_
  exact DevKeeps.stepOk (.refl _ _) (refold_keeps _ _ _) rfl

theorem Dev.modRefold_keeps (d : Dev) (a1 : ℕ) (a2 : RefoldJob → RefoldJob) :
    DevKeeps 8192 d (Dev.modRefold d a1 a2) := by
  unfold Dev.modRefold
  exact (DevKeeps.step (.refl _ _) (Dev.modZm_keeps _ _) rfl)

theorem refoldsAtCap_keeps (d : Dev) :
    DevKeeps 0x1000000000000000000000000000002 d (refoldsAtCap d) := by
  unfold refoldsAtCap
  exact (DevKeeps.step (.refl _ _) (Dev.flagIf_keeps _ _ _) (by rfl))

theorem refoldStart_keeps (d : Dev) :
    OkP (DevKeeps 0x1000000000000000000000000003802 d) (refoldStart d) := by
  unfold refoldStart
  refine iteP (P := OkP (DevKeeps 0x1000000000000000000000000003802 d)) (fun _ => ?_) (fun _ => ?_)
  · exact trivial
  · split
    · exact trivial
    · extract_lets -merge -underBinder +onlyGivenNames x0
      clear_value x0
      refine iteP (P := OkP (DevKeeps 0x1000000000000000000000000003802 d)) (fun _ => ?_) (fun _ => ?_)
      · refine OkP.ok ?_
        exact (DevKeeps.step (DevKeeps.step (.refl _ _) (Dev.modRefold_keeps _ _ _) rfl) (refoldsAtCap_keeps _) rfl)
      · split
        · rename_i v1_0 v1_1 q1
          have h2 : DevKeeps 0x1000000000000000000000000003802 d v1_1 := by
            refine SndP.get (P := (DevKeeps 0x1000000000000000000000000003802 d)) ?_ q1
            exact DevKeeps.stepSnd (.refl _ _) (grantCells_keeps _ _ _) rfl
          split
          · rename_i v3_0 v3_1 q3
            have h4 : DevKeeps 0x1000000000000000000000000003802 d v3_0 := by
              refine FstP.get (P := (DevKeeps 0x1000000000000000000000000003802 d)) ?_ q3
              exact DevKeeps.stepFst h2 (takeStage_keeps _ _ _) rfl
            refine OkP.ok ?_
            exact (DevKeeps.step (DevKeeps.step h4 (Dev.modRefold_keeps _ _ _) rfl) (refoldsAtCap_keeps _) rfl)

theorem execRefoldStart_keeps (s : State) :
    NextP (StateKeeps 0x1000000000000000000000000003802 s) (execRefoldStart s) := by
  unfold execRefoldStart
  refine onDev_keeps ?_
  exact DevKeeps.stepOk (.refl _ _) (refoldStart_keeps _) rfl

theorem zeroCopy_keeps (a0 : ℕ) (a1 : ℕ) (d : Dev) :
    SndP (DevKeeps 512 d) (zeroCopy a0 a1 d) := by
  unfold zeroCopy
  extract_lets -merge -underBinder +onlyGivenNames x0
  clear_value x0
  split
  · rename_i v1_0 v1_1 q1
    have h2 : DevKeeps 512 d v1_1 := by
      refine SndP.get (P := (DevKeeps 512 d)) ?_ q1
      refine iteP (P := SndP (DevKeeps 512 d)) (fun _ => ?_) (fun _ => ?_)
      · exact DevKeeps.stepSnd (.refl _ _) (Dev.takeNonce_keeps _) rfl
      · refine SndP.mk ?_
        exact (.refl _ _)
    refine SndP.mk ?_
    exact h2

theorem sectorOf_keeps (a0 : ℕ) (a1 : ℕ) (d : Dev) :
    SndP (DevKeeps 513 d) (sectorOf a0 a1 d) := by
  unfold sectorOf
  extract_lets -merge -underBinder +onlyGivenNames x0
  clear_value x0
  extract_lets -merge -underBinder +onlyGivenNames x1
  clear_value x1
  split
  · refine iteP (P := SndP (DevKeeps 513 d)) (fun _ => ?_) (fun _ => ?_)
    · refine SndP.mk ?_
      exact (DevKeeps.step (.refl _ _) (Dev.tick_keeps _ _) rfl)
    · refine SndP.mk ?_
      exact (.refl _ _)
  · split
    · refine iteP (P := SndP (DevKeeps 513 d)) (fun _ => ?_) (fun _ => ?_)
      · exact DevKeeps.stepSnd (.refl _ _) (zeroCopy_keeps _ _ _) rfl
      · refine SndP.mk ?_
        exact (DevKeeps.step (.refl _ _) (Dev.tick_keeps _ _) rfl)
    · exact DevKeeps.stepSnd (.refl _ _) (zeroCopy_keeps _ _ _) rfl

theorem storeParity_keeps (a0 : ℕ) (a1 : ℕ) (a2 : ℕ) (d : Dev) :
    DevKeeps 32 d (storeParity a0 a1 a2 d) := by
  unfold storeParity
  extract_lets -merge -underBinder +onlyGivenNames x0
  clear_value x0
  refine iteP (P := DevKeeps 32 d) (fun _ => ?_) (fun _ => ?_)
  · exact (.refl _ _)
  · refine DevKeeps.foldl ?_ (fun y1 a1 h1 => ?_)
    · exact (.refl _ _)
    · beta_reduce
      split
      · extract_lets -merge -underBinder +onlyGivenNames x2
        clear_value x2
        extract_lets -merge -underBinder +onlyGivenNames x3
        clear_value x3
        exact DevKeeps.set_media _ h1 rfl

theorem storeSector_keeps (a0 : ℕ) (a1 : ℕ) (a2 : ℕ) (a3 : Sector) (d : Dev) :
    DevKeeps 6291488 d (storeSector a0 a1 a2 a3 d) := by
  unfold storeSector
  split
  · exact DevKeeps.set_media _ (.refl _ _) rfl
  · exact (DevKeeps.step (.refl _ _) (askMedia_keeps _ _ _) rfl)

theorem refoldCopy_keeps (a0 : RefoldJob) (a1 : ℕ × ℕ) (a2 : List ℕ) (d : Dev) :
    DevKeeps 6310433 d (refoldCopy a0 a1 a2 d) := by
  unfold refoldCopy
  extract_lets -merge -underBinder +onlyGivenNames x0
  clear_value x0
  extract_lets -merge -underBinder +onlyGivenNames x1
  clear_value x1
  extract_lets -merge -underBinder +onlyGivenNames x2
  clear_value x2
  extract_lets -merge -underBinder +onlyGivenNames x3
  have h3 : DevKeeps 6310433 d x3 := by
    subst x3
    exact (DevKeeps.step (.refl _ _) (countReads_keeps _ _) rfl)
  clear_value x3
  extract_lets -merge -underBinder +onlyGivenNames x4
  have h4 : DevKeeps 6310433 d x4 := by
    subst x4
    refine DevKeeps.foldl ?_ (fun y5 a5 h5 => ?_)
    · exact h3
    · beta_reduce
      refine iteP (P := DevKeeps 6310433 d) (fun _ => ?_) (fun _ => ?_)
      · exact h5
      · split
        · rename_i v6_0 v6_1 q6
          have h7 : DevKeeps 6310433 d v6_1 := by
            refine SndP.get (P := (DevKeeps 6310433 d)) ?_ q6
            exact DevKeeps.stepSnd h5 (sectorOf_keeps _ _ _) rfl
          refine iteP (P := DevKeeps 6310433 d) (fun _ => ?_) (fun _ => ?_)
          · exact (DevKeeps.step h7 (storeSector_keeps _ _ _ _ _) rfl)
          · exact (DevKeeps.step h7 (Dev.modPool_keeps _ _) rfl)
  clear_value x4
  extract_lets -merge -underBinder +onlyGivenNames x8
  clear_value x8
  extract_lets -merge -underBinder +onlyGivenNames x9
  have h9 : DevKeeps 6310433 d x9 := by
    subst x9
    refine DevKeeps.step ?_ (Dev.tick_keeps _ _) rfl
    refine DevKeeps.forUpTo ?_ (fun a10 y10 h10 => ?_)
    · exact h4
    · beta_reduce
      exact (DevKeeps.step h10 (storeSector_keeps _ _ _ _ _) rfl)
  clear_value x9
  refine DevKeeps.forUpTo ?_ (fun a11 y11 h11 => ?_)
  · exact h9
  · beta_reduce
    exact (DevKeeps.step h11 (storeParity_keeps _ _ _ _) rfl)

theorem refoldSource_keeps (a0 : ℕ) (a1 : ℕ) (a2 : ℕ) (d : Dev) :
    DevKeeps 0x4000000000000000000069F812 d (refoldSource a0 a1 a2 d) := by
  unfold refoldSource
  split
  · exact (DevKeeps.step (.refl _ _) (emptyZone_keeps _ _ _ _) rfl)
  · exact (DevKeeps.step (.refl _ _) (emptyZone_keeps _ _ _ _) rfl)
  · exact (DevKeeps.step (DevKeeps.step (.refl _ _) (abandonMigration_keeps _ _) rfl) (Dev.modZone_keeps _ _ _ _) rfl)
  · exact (.refl _ _)

theorem refoldEnd_keeps (a0 : RefoldJob) (a1 : ℕ × ℕ) (a2 : List ℕ) (d : Dev) :
    DevKeeps 0x4000000000000000000069FA33 d (refoldEnd a0 a1 a2 d) := by
  unfold refoldEnd
  extract_lets -merge -underBinder +onlyGivenNames x0
  clear_value x0
  extract_lets -merge -underBinder +onlyGivenNames x1
  clear_value x1
  extract_lets -merge -underBinder +onlyGivenNames x2
  clear_value x2
  extract_lets -merge -underBinder +onlyGivenNames x3
  have h3 : DevKeeps 0x4000000000000000000069FA33 d x3 := by
    subst x3
    exact (DevKeeps.step (.refl _ _) (refoldCopy_keeps _ _ _ _) rfl)
  clear_value x3
  extract_lets -merge -underBinder +onlyGivenNames x4
  clear_value x4
  extract_lets -merge -underBinder +onlyGivenNames x5
  clear_value x5
  extract_lets -merge -underBinder +onlyGivenNames x6
  have h6 : DevKeeps 0x4000000000000000000069FA33 d x6 := by
    subst x6
    exact (DevKeeps.step h3 (Dev.modZone_keeps _ _ _ _) rfl)
  clear_value x6
  extract_lets -merge -underBinder +onlyGivenNames x7
  have h7 : DevKeeps 0x4000000000000000000069FA33 d x7 := by
    subst x7
    exact (DevKeeps.step h6 (moveOut_keeps _ _ _ _ _) rfl)
  clear_value x7
  extract_lets -merge -underBinder +onlyGivenNames x8
  clear_value x8
  extract_lets -merge -underBinder +onlyGivenNames x9
  have h9 : DevKeeps 0x4000000000000000000069FA33 d x9 := by
    subst x9
    refine DevKeeps.foldl ?_ (fun y10 a10 h10 => ?_)
    · exact h7
    · beta_reduce
      exact (DevKeeps.step h10 (Dev.modZone_keeps _ _ _ _) rfl)
  clear_value x9
  extract_lets -merge -underBinder +onlyGivenNames x11
  clear_value x11
  extract_lets -merge -underBinder +onlyGivenNames x12
  have h12 : DevKeeps 0x4000000000000000000069FA33 d x12 := by
    subst x12
    refine iteP (P := DevKeeps 0x4000000000000000000069FA33 d) (fun _ => ?_) (fun _ => ?_)
    · refine DevKeeps.foldl ?_ (fun y13 a13 h13 => ?_)
      · exact h9
      · beta_reduce
        exact (DevKeeps.step h13 (refoldSource_keeps _ _ _ _) rfl)
    · exact h9
  clear_value x12
  extract_lets -merge -underBinder +onlyGivenNames x14
  have h14 : DevKeeps 0x4000000000000000000069FA33 d x14 := by
    subst x14
    exact (DevKeeps.step h12 (syncZone_keeps _ _ _) rfl)
  clear_value x14
  extract_lets -merge -underBinder +onlyGivenNames x15
  have h15 : DevKeeps 0x4000000000000000000069FA33 d x15 := by
    subst x15
    exact (DevKeeps.step (DevKeeps.step h14 (Dev.modZm_keeps _ _) rfl) (Dev.wr_keeps _ _ _) (by rfl))
  clear_value x15
  split
  · exact (DevKeeps.step (DevKeeps.step h15 (Dev.send_keeps _ _) rfl) (finish_keeps _ _ _) rfl)
  · exact h15

theorem refoldCommit_keeps (a0 : ℕ) (a1 : List ℕ) (d : Dev) :
    OkP (DevKeeps 0x4000000000000000000069FA33 d) (refoldCommit a0 a1 d) := by
  unfold refoldCommit
  split
  · split
    · refine iteP (P := OkP (DevKeeps 0x4000000000000000000069FA33 d)) (fun _ => ?_) (fun _ => ?_)
      · refine OkP.ok ?_
        exact (DevKeeps.step (.refl _ _) (refoldEnd_keeps _ _ _ _) rfl)
      · exact trivial
    · exact trivial
  · exact trivial

theorem execRefoldCommit_keeps (a0 : BitVec 64) (a1 : List ℕ) (s : State) :
    NextP (StateKeeps 0x4000000000000000000069FA33 s) (execRefoldCommit a0 a1 s) := by
  unfold execRefoldCommit
  refine onDev_keeps ?_
  exact DevKeeps.stepOk (.refl _ _) (refoldCommit_keeps _ _ _) rfl

end Sys2Proof.Machine
end

