-- ==== Sys2Proof/Laws/KeepHealth.lean ====
section
/-! SUPPORT. What each operation of Machine/Health.lean leaves as it was. -/

namespace Sys2Proof.Machine

theorem failWriters_keeps (a0 : ℕ) (a1 : ℕ) (d : Dev) :
    DevKeeps 0x380000000000000000000000000000000000009A02 d (failWriters a0 a1 d) := by
  unfold failWriters
  extract_lets -merge -underBinder +onlyGivenNames x0
  have h0 : DevKeeps 0x380000000000000000000000000000000000009A02 d x0 := by
    subst x0
    refine DevKeeps.foldl ?_ (fun y1 a1 h1 => ?_)
    · exact (.refl _ _)
    · beta_reduce
      exact (DevKeeps.step (DevKeeps.step h1 (giveBack_keeps _ _) rfl) (finish_keeps _ _ _) rfl)
  clear_value x0
  exact (DevKeeps.step h0 (Dev.modHost_keeps _ _) rfl)

theorem dropRefold_keeps (a0 : RefoldJob) (a1 : Cpl) (a2 : ℕ) (d : Dev) :
    DevKeeps 0x38000000000000004000000000000000000069F812 d (dropRefold a0 a1 a2 d) := by
  unfold dropRefold
  extract_lets -merge -underBinder +onlyGivenNames x0
  have h0 : DevKeeps 0x38000000000000004000000000000000000069F812 d x0 := by
    subst x0
    exact (DevKeeps.step (.refl _ _) (Dev.release_keeps _ _) rfl)
  clear_value x0
  extract_lets -merge -underBinder +onlyGivenNames x1
  have h1 : DevKeeps 0x38000000000000004000000000000000000069F812 d x1 := by
    subst x1
    split
    · exact (DevKeeps.step h0 (dropStage_keeps _ _ _ _) rfl)
    · exact h0
  clear_value x1
  extract_lets -merge -underBinder +onlyGivenNames x2
  have h2 : DevKeeps 0x38000000000000004000000000000000000069F812 d x2 := by
    subst x2
    refine DevKeeps.foldl ?_ (fun y3 a3 h3 => ?_)
    · exact h1
    · beta_reduce
      exact (DevKeeps.step h3 (Dev.modZone_keeps _ _ _ _) rfl)
  clear_value x2
  extract_lets -merge -underBinder +onlyGivenNames x4
  have h4 : DevKeeps 0x38000000000000004000000000000000000069F812 d x4 := by
    subst x4
    exact (DevKeeps.step h2 (Dev.modZm_keeps _ _) rfl)
  clear_value x4
  extract_lets -merge -underBinder +onlyGivenNames x5
  have h5 : DevKeeps 0x38000000000000004000000000000000000069F812 d x5 := by
    subst x5
    exact (DevKeeps.step h4 (Dev.modZone_keeps _ _ _ _) rfl)
  clear_value x5
  extract_lets -merge -underBinder +onlyGivenNames x6
  have h6 : DevKeeps 0x38000000000000004000000000000000000069F812 d x6 := by
    subst x6
    refine iteP (P := DevKeeps 0x38000000000000004000000000000000000069F812 d) (fun _ => ?_) (fun _ => ?_)
    · exact h5
    · exact (DevKeeps.step h5 (emptyZone_keeps _ _ _ _) rfl)
  clear_value x6
  split
  · exact (DevKeeps.step h6 (refuseRefold_keeps _ _ _ _ _) rfl)
  · exact h6

theorem failRefolds_keeps (a0 : ℕ) (a1 : ℕ) (d : Dev) :
    DevKeeps 0x38000000000000004000000000000000000069F812 d (failRefolds a0 a1 d) := by
  unfold failRefolds
  refine DevKeeps.foldl ?_ (fun y0 a0 h0 => ?_)
  · exact (.refl _ _)
  · beta_reduce
    refine iteP (P := DevKeeps 0x38000000000000004000000000000000000069F812 d) (fun _ => ?_) (fun _ => ?_)
    · exact h0
    · refine iteP (P := DevKeeps 0x38000000000000004000000000000000000069F812 d) (fun _ => ?_) (fun _ => ?_)
      · exact (DevKeeps.step h0 (dropRefold_keeps _ _ _ _) rfl)
      · split
        · exact (DevKeeps.step h0 (dropRefold_keeps _ _ _ _) rfl)
        · exact h0

theorem loseZoneStaged_keeps (a0 : ℕ) (a1 : ℕ) (d : Dev) :
    DevKeeps 0x8000000000000000213802 d (loseZoneStaged a0 a1 d) := by
  unfold loseZoneStaged
  extract_lets -merge -underBinder +onlyGivenNames x0
  clear_value x0
  extract_lets -merge -underBinder +onlyGivenNames x1
  have h1 : DevKeeps 0x8000000000000000213802 d x1 := by
    subst x1
    refine DevKeeps.foldl ?_ (fun y2 a2 h2 => ?_)
    · exact (.refl _ _)
    · beta_reduce
      exact (DevKeeps.step h2 (deferredError_keeps _ _ _ _ _) rfl)
  clear_value x1
  exact (DevKeeps.step h1 (discardStaged_keeps _ _ _ _) rfl)

theorem zoneOffline_keeps (a0 : ℕ) (a1 : ℕ) (a2 : ℕ) (d : Dev) :
    DevKeeps 0x38000000000000004000800000000000000069FA12 d (zoneOffline a0 a1 a2 d) := by
  unfold zoneOffline
  extract_lets -merge -underBinder +onlyGivenNames x0
  clear_value x0
  extract_lets -merge -underBinder +onlyGivenNames x1
  have h1 : DevKeeps 0x38000000000000004000800000000000000069FA12 d x1 := by
    subst x1
    split
    · exact (DevKeeps.step (.refl _ _) (abandonRowWork_keeps _ _ _) rfl)
    · exact (.refl _ _)
  clear_value x1
  extract_lets -merge -underBinder +onlyGivenNames x2
  have h2 : DevKeeps 0x38000000000000004000800000000000000069FA12 d x2 := by
    subst x2
    exact (DevKeeps.step (DevKeeps.step h1 (failWriters_keeps _ _ _) rfl) (loseZoneStaged_keeps _ _ _) rfl)
  clear_value x2
  extract_lets -merge -underBinder +onlyGivenNames x3
  have h3 : DevKeeps 0x38000000000000004000800000000000000069FA12 d x3 := by
    subst x3
    exact (DevKeeps.step h2 (Dev.modZone_keeps _ _ _ _) rfl)
  clear_value x3
  refine iteP (P := DevKeeps 0x38000000000000004000800000000000000069FA12 d) (fun _ => ?_) (fun _ => ?_)
  · exact (.refl _ _)
  · exact (DevKeeps.step (DevKeeps.step (DevKeeps.step h3 (failRefolds_keeps _ _ _) rfl) (reportZone_keeps _ _ _ _ _) rfl) (syncZone_keeps _ _ _) rfl)

theorem loseStripe_keeps (a0 : ℕ) (a1 : ℕ) (a2 : ℕ) (a3 : ℕ) (d : Dev) :
    DevKeeps 0x8000000000000000617803 d (loseStripe a0 a1 a2 a3 d) := by
  unfold loseStripe
  extract_lets -merge -underBinder +onlyGivenNames x0
  clear_value x0
  extract_lets -merge -underBinder +onlyGivenNames x1
  have h1 : DevKeeps 0x8000000000000000617803 d x1 := by
    subst x1
    refine DevKeeps.foldl ?_ (fun y2 a2 h2 => ?_)
    · exact (.refl _ _)
    · beta_reduce
      exact (DevKeeps.step (DevKeeps.step h2 (deferredError_keeps _ _ _ _ _) rfl) (Dev.modZone_keeps _ _ _ _) rfl)
  clear_value x1
  refine iteP (P := DevKeeps 0x8000000000000000617803 d) (fun _ => ?_) (fun _ => ?_)
  · exact (.refl _ _)
  · exact (DevKeeps.step h1 (markZone_keeps _ _ _ _) rfl)

theorem loseMember_keeps (a0 : ℕ) (a1 : ℕ) (a2 : ℕ) (a3 : ℕ) (d : Dev) :
    DevKeeps 0x38000000000000004000800000000000003069FA13 d (loseMember a0 a1 a2 a3 d) := by
  unfold loseMember
  extract_lets -merge -underBinder +onlyGivenNames x0
  clear_value x0
  extract_lets -merge -underBinder +onlyGivenNames x1
  have h1 : DevKeeps 0x38000000000000004000800000000000003069FA13 d x1 := by
    subst x1
    exact (DevKeeps.step (DevKeeps.step (.refl _ _) (Dev.modRow_keeps _ _ _ _) rfl) (faultOn_keeps _ _) rfl)
  clear_value x1
  refine iteP (P := DevKeeps 0x38000000000000004000800000000000003069FA13 d) (fun _ => ?_) (fun _ => ?_)
  · exact (.refl _ _)
  · split
    · extract_lets -merge -underBinder +onlyGivenNames x2
      have h2 : DevKeeps 0x38000000000000004000800000000000003069FA13 d x2 := by
        subst x2
        refine iteP (P := DevKeeps 0x38000000000000004000800000000000003069FA13 d) (fun _ => ?_) (fun _ => ?_)
        · exact (DevKeeps.step h1 (loseStripe_keeps _ _ _ _ _) rfl)
        · exact h1
      clear_value x2
      extract_lets -merge -underBinder +onlyGivenNames x3
      clear_value x3
      refine iteP (P := DevKeeps 0x38000000000000004000800000000000003069FA13 d) (fun _ => ?_) (fun _ => ?_)
      · exact (DevKeeps.step h2 (zoneOffline_keeps _ _ _ _) rfl)
      · exact (DevKeeps.step h2 (Dev.modMed_keeps _ _) rfl)
    · exact h1

theorem loseDie_keeps (a0 : ℕ) (a1 : ℕ) (d : Dev) :
    DevKeeps 0x38000000000000004000800000000000003069FA13 d (loseDie a0 a1 d) := by
  unfold loseDie
  extract_lets -merge -underBinder +onlyGivenNames x0
  clear_value x0
  extract_lets -merge -underBinder +onlyGivenNames x1
  have h1 : DevKeeps 0x38000000000000004000800000000000003069FA13 d x1 := by
    subst x1
    exact (DevKeeps.step (.refl _ _) (Dev.modMed_keeps _ _) rfl)
  clear_value x1
  refine DevKeeps.foldl ?_ (fun y2 a2 h2 => ?_)
  · exact h1
  · beta_reduce
    exact (DevKeeps.step h2 (loseMember_keeps _ _ _ _ _) rfl)

theorem dieRetired_keeps (a0 : ℕ) (a1 : ℕ) (d : Dev) :
    DevKeeps 0x38000000000000004000800000000000003069FA13 d (dieRetired a0 a1 d) := by
  unfold dieRetired
  extract_lets -merge -underBinder +onlyGivenNames x0
  have h0 : DevKeeps 0x38000000000000004000800000000000003069FA13 d x0 := by
    subst x0
    exact (DevKeeps.step (.refl _ _) (badRecord_keeps _ _ _ _ _ _ _ _) rfl)
  clear_value x0
  extract_lets -merge -underBinder +onlyGivenNames x1
  have h1 : DevKeeps 0x38000000000000004000800000000000003069FA13 d x1 := by
    subst x1
    exact (DevKeeps.step h0 (Dev.modMed_keeps _ _) rfl)
  clear_value x1
  exact (DevKeeps.step (DevKeeps.step h1 (faultOn_keeps _ _) rfl) (loseDie_keeps _ _ _) rfl)

theorem dieCtl_keeps (a0 : ℕ) (a1 : ℕ) (d : Dev) :
    DevKeeps 0x10000000000000000000000000000000000000000000000000038000000000000004000800000000000003069FA33 d (dieCtl a0 a1 d) := by
  unfold dieCtl
  extract_lets -merge -underBinder +onlyGivenNames x0
  clear_value x0
  extract_lets -merge -underBinder +onlyGivenNames x1
  clear_value x1
  extract_lets -merge -underBinder +onlyGivenNames x2
  have h2 : DevKeeps 0x10000000000000000000000000000000000000000000000000038000000000000004000800000000000003069FA33 d x2 := by
    subst x2
    exact (DevKeeps.step (.refl _ _) (dieCtlWrite_keeps _ _ _) rfl)
  clear_value x2
  refine iteP (P := DevKeeps 0x10000000000000000000000000000000000000000000000000038000000000000004000800000000000003069FA33 d) (fun _ => ?_) (fun _ => ?_)
  · exact (DevKeeps.step h2 (dieRetired_keeps _ _ _) rfl)
  · exact h2

theorem dieCtlStore_keeps (a0 : Fin 48) (a1 : ℕ) (s : State) :
    NextP (StateKeeps 0x18004000000000000000000E000000000000000000000000000380000000000000040008000000000000030E9FB73 s) (dieCtlStore a0 a1 s) := by
  unfold dieCtlStore
  refine onDevThen_keeps ?_ (fun t0 h0 => ?_)
  · refine orRsv_keeps ?_ ?_ rfl
    · exact (.refl _ _)
    · exact (DevKeeps.step (.refl _ _) (dieCtl_keeps _ _ _) rfl)
  · exact (StateKeeps.step h0 (afterChan_keeps _ _) rfl)

theorem execDieRetire_keeps (a0 : Fin 48) (a1 : Word) (s : State) :
    NextP (StateKeeps 0x18004000000000000000000E000000000000000000000000000380000000000000040008000000000000030E9FB73 s) (execDieRetire a0 a1 s) := by
  unfold execDieRetire
  exact StateKeeps.stepNext (.refl _ _) (dieCtlStore_keeps _ _ _) rfl

theorem execDiePresentWrite_keeps (a0 : Fin 48) (a1 : Word) (s : State) :
    NextP (StateKeeps 0x18004000000000000000000E000000000000000000000000000380000000000000040008000000000000030E9FB73 s) (execDiePresentWrite a0 a1 s) := by
  unfold execDiePresentWrite
  exact StateKeeps.stepNext (.refl _ _) (dieCtlStore_keeps _ _ _) rfl

theorem chanRetired_keeps (a0 : ℕ) (a1 : ℕ) (a2 : List ℕ) (d : Dev) :
    DevKeeps 0x38000000000000004000800000000000003069FA13 d (chanRetired a0 a1 a2 d) := by
  unfold chanRetired
  extract_lets -merge -underBinder +onlyGivenNames x0
  have h0 : DevKeeps 0x38000000000000004000800000000000003069FA13 d x0 := by
    subst x0
    exact (DevKeeps.step (.refl _ _) (badRecord_keeps _ _ _ _ _ _ _ _) rfl)
  clear_value x0
  extract_lets -merge -underBinder +onlyGivenNames x1
  have h1 : DevKeeps 0x38000000000000004000800000000000003069FA13 d x1 := by
    subst x1
    exact (DevKeeps.step h0 (Dev.modMed_keeps _ _) rfl)
  clear_value x1
  refine DevKeeps.foldl ?_ (fun y2 a2 h2 => ?_)
  · exact (DevKeeps.step h1 (faultOn_keeps _ _) rfl)
  · beta_reduce
    exact (DevKeeps.step h2 (loseDie_keeps _ _ _) rfl)

theorem retireCounted_keeps (d : Dev) :
    DevKeeps 0x10000000000000000000000000000000000000000000000000038000000000000004000800000000000003069FA33 d (retireCounted d) := by
  unfold retireCounted
  extract_lets -merge -underBinder +onlyGivenNames x0
  have h0 : DevKeeps 0x10000000000000000000000000000000000000000000000000038000000000000004000800000000000003069FA33 d x0 := by
    subst x0
    refine DevKeeps.foldl ?_ (fun y1 a1 h1 => ?_)
    · exact (.refl _ _)
    · beta_reduce
      refine iteP (P := DevKeeps 0x10000000000000000000000000000000000000000000000000038000000000000004000800000000000003069FA33 d) (fun _ => ?_) (fun _ => ?_)
      · exact (DevKeeps.step (DevKeeps.step h1 (retireDie_keeps _ _ _) rfl) (dieRetired_keeps _ _ _) rfl)
      · exact h1
  clear_value x0
  refine DevKeeps.forUpTo ?_ (fun a2 y2 h2 => ?_)
  · exact h0
  · beta_reduce
    refine iteP (P := DevKeeps 0x10000000000000000000000000000000000000000000000000038000000000000004000800000000000003069FA33 d) (fun _ => ?_) (fun _ => ?_)
    · exact (DevKeeps.step (DevKeeps.step h2 (retireChan_keeps _ _) rfl) (chanRetired_keeps _ _ _ _) rfl)
    · exact h2

theorem seqCtl_keeps (a0 : ℕ) (a1 : ℕ) (d : Dev) :
    DevKeeps 0x10000000800000000000000000000000000000000000000000038000000000000004000800000000000003079FA33 d (seqCtl a0 a1 d) := by
  unfold seqCtl
  extract_lets -merge -underBinder +onlyGivenNames x0
  clear_value x0
  extract_lets -merge -underBinder +onlyGivenNames x1
  clear_value x1
  extract_lets -merge -underBinder +onlyGivenNames x2
  have h2 : DevKeeps 0x10000000800000000000000000000000000000000000000000038000000000000004000800000000000003079FA33 d x2 := by
    subst x2
    exact (DevKeeps.step (.refl _ _) (seqCtlWrite_keeps _ _ _) rfl)
  clear_value x2
  refine iteP (P := DevKeeps 0x10000000800000000000000000000000000000000000000000038000000000000004000800000000000003079FA33 d) (fun _ => ?_) (fun _ => ?_)
  · exact (DevKeeps.step h2 (chanRetired_keeps _ _ _ _) rfl)
  · exact h2

theorem seqCtlStore_keeps (a0 : Fin 48) (a1 : ℕ) (s : State) :
    NextP (StateKeeps 0x18004000800000000000000E000000000000000000000000000380000000000000040008000000000000030F9FB73 s) (seqCtlStore a0 a1 s) := by
  unfold seqCtlStore
  refine onDevThen_keeps ?_ (fun t0 h0 => ?_)
  · refine orRsv_keeps ?_ ?_ rfl
    · exact (.refl _ _)
    · exact (DevKeeps.step (.refl _ _) (seqCtl_keeps _ _ _) rfl)
  · exact (StateKeeps.step h0 (afterChan_keeps _ _) rfl)

theorem execChannelRetire_keeps (a0 : Fin 48) (a1 : Word) (s : State) :
    NextP (StateKeeps 0x18004000800000000000000E000000000000000000000000000380000000000000040008000000000000030F9FB73 s) (execChannelRetire a0 a1 s) := by
  unfold execChannelRetire
  exact StateKeeps.stepNext (.refl _ _) (seqCtlStore_keeps _ _ _) rfl

theorem rebuildLost_keeps (a0 : ℕ) (a1 : ℕ) (a2 : ℕ) (a3 : ℕ) (a4 : ℕ) (d : Dev) :
    DevKeeps 0x8000000000000000617803 d (rebuildLost a0 a1 a2 a3 a4 d) := by
  unfold rebuildLost
  split
  · extract_lets -merge -underBinder +onlyGivenNames x0
    clear_value x0
    extract_lets -merge -underBinder +onlyGivenNames x1
    clear_value x1
    extract_lets -merge -underBinder +onlyGivenNames x2
    have h2 : DevKeeps 0x8000000000000000617803 d x2 := by
      subst x2
      exact (DevKeeps.step (.refl _ _) (healthEvent_keeps _ _ _ _ _ _ _ _) rfl)
    clear_value x2
    extract_lets -merge -underBinder +onlyGivenNames x3
    have h3 : DevKeeps 0x8000000000000000617803 d x3 := by
      subst x3
      exact (DevKeeps.step h2 (Dev.modZone_keeps _ _ _ _) rfl)
    clear_value x3
    refine iteP (P := DevKeeps 0x8000000000000000617803 d) (fun _ => ?_) (fun _ => ?_)
    · exact (.refl _ _)
    · exact (DevKeeps.step (DevKeeps.step h3 (deferredError_keeps _ _ _ _ _) rfl) (markZone_keeps _ _ _ _) rfl)
  · exact (.refl _ _)

theorem rebuildUnit_keeps (a0 : Rebuild) (a1 : ℕ × ℕ) (a2 : ℕ) (d : Dev) :
    DevKeeps 0x8000000000000000617823 d (rebuildUnit a0 a1 a2 d) := by
  unfold rebuildUnit
  extract_lets -merge -underBinder +onlyGivenNames x0
  clear_value x0
  extract_lets -merge -underBinder +onlyGivenNames x1
  clear_value x1
  split
  · extract_lets -merge -underBinder +onlyGivenNames x2
    have h2 : DevKeeps 0x8000000000000000617823 d x2 := by
      subst x2
      exact (DevKeeps.step (.refl _ _) (countReads_keeps _ _) rfl)
    clear_value x2
    refine DevKeeps.foldl ?_ (fun y3 a3 h3 => ?_)
    · exact h2
    · beta_reduce
      split
      · extract_lets -merge -underBinder +onlyGivenNames x4
        clear_value x4
        extract_lets -merge -underBinder +onlyGivenNames x5
        have h5 : DevKeeps 0x8000000000000000617823 d x5 := by
          subst x5
          refine iteP (P := DevKeeps 0x8000000000000000617823 d) (fun _ => ?_) (fun _ => ?_)
          · exact (DevKeeps.step h3 (rebuildLost_keeps _ _ _ _ _ _) rfl)
          · exact h3
        clear_value x5
        exact DevKeeps.set_media _ h5 rfl

theorem rebuildFlag_keeps (d : Dev) :
    DevKeeps 0x10000002 d (rebuildFlag d) := by
  unfold rebuildFlag
  refine iteP (P := DevKeeps 0x10000002 d) (fun _ => ?_) (fun _ => ?_)
  · exact (.refl _ _)
  · exact (DevKeeps.step (.refl _ _) (faultOff_keeps _ _) rfl)

theorem rebuildSwitch_keeps (a0 : ℕ) (a1 : ℕ) (a2 : ℕ) (d : Dev) :
    OkP (DevKeeps 0x8000000000000010697823 d) (rebuildSwitch a0 a1 a2 d) := by
  unfold rebuildSwitch
  split
  · split
    · extract_lets -merge -underBinder +onlyGivenNames x0
      have h0 : DevKeeps 0x8000000000000010697823 d x0 := by
        subst x0
        refine DevKeeps.forUpTo ?_ (fun a1 y1 h1 => ?_)
        · exact (.refl _ _)
        · beta_reduce
          exact (DevKeeps.step h1 (rebuildUnit_keeps _ _ _ _) rfl)
      clear_value x0
      extract_lets -merge -underBinder +onlyGivenNames x2
      have h2 : DevKeeps 0x8000000000000010697823 d x2 := by
        subst x2
        exact (DevKeeps.step h0 (remapTo_keeps _ _ _ _ _ _) rfl)
      clear_value x2
      extract_lets -merge -underBinder +onlyGivenNames x3
      have h3 : DevKeeps 0x8000000000000010697823 d x3 := by
        subst x3
        exact (DevKeeps.step h2 (Dev.modRow_keeps _ _ _ _) rfl)
      clear_value x3
      refine OkP.ok ?_
      exact (DevKeeps.step (DevKeeps.step h3 (Dev.modMed_keeps _ _) rfl) (rebuildFlag_keeps _) rfl)
    · exact trivial
  · exact trivial

theorem execRebuildSwitch_keeps (a0 : Fin 96) (a1 : Fin 3600) (a2 : Fin 16) (s : State) :
    NextP (StateKeeps 0x8000000000000010697823 s) (execRebuildSwitch a0 a1 a2 s) := by
  unfold execRebuildSwitch
  refine onDev_keeps ?_
  exact DevKeeps.stepOk (.refl _ _) (rebuildSwitch_keeps _ _ _ _) rfl

theorem readySpare_keeps (a0 : ℕ) (a1 : Replace) (d : Dev) :
    DevKeeps 20480 d (readySpare a0 a1 d) := by
  unfold readySpare
  extract_lets -merge -underBinder +onlyGivenNames x0
  clear_value x0
  extract_lets -merge -underBinder +onlyGivenNames x1
  have h1 : DevKeeps 20480 d x1 := by
    subst x1
    exact (DevKeeps.step (.refl _ _) (Dev.modMed_keeps _ _) rfl)
  clear_value x1
  refine iteP (P := DevKeeps 20480 d) (fun _ => ?_) (fun _ => ?_)
  · exact (DevKeeps.step h1 (orderErase_keeps _ _ _ _ _) rfl)
  · exact h1

theorem restartReplacements_keeps (d : Dev) :
    DevKeeps 20480 d (restartReplacements d) := by
  unfold restartReplacements
  extract_lets -merge -underBinder +onlyGivenNames x0
  clear_value x0
  extract_lets -merge -underBinder +onlyGivenNames x1
  have h1 : DevKeeps 20480 d x1 := by
    subst x1
    exact (DevKeeps.step (.refl _ _) (Dev.modMed_keeps _ _) rfl)
  clear_value x1
  extract_lets -merge -underBinder +onlyGivenNames x2
  have h2 : DevKeeps 20480 d x2 := by
    subst x2
    refine DevKeeps.foldl ?_ (fun y3 a3 h3 => ?_)
    · exact h1
    · beta_reduce
      refine iteP (P := DevKeeps 20480 d) (fun _ => ?_) (fun _ => ?_)
      · exact h3
      · exact (DevKeeps.step h3 (orderErase_keeps _ _ _ _ _) rfl)
  clear_value x2
  refine DevKeeps.foldl ?_ (fun y4 a4 h4 => ?_)
  · exact h2
  · beta_reduce
    exact (DevKeeps.step h4 (readySpare_keeps _ _ _) rfl)

theorem wantSpare_keeps (a0 : Wanted) (d : Dev) :
    DevKeeps 6383617 d (wantSpare a0 d) := by
  unfold wantSpare
  extract_lets -merge -underBinder +onlyGivenNames x0
  clear_value x0
  extract_lets -merge -underBinder +onlyGivenNames x1
  have h1 : DevKeeps 6383617 d x1 := by
    subst x1
    exact (DevKeeps.step (.refl _ _) (Dev.modRow_keeps _ _ _ _) rfl)
  clear_value x1
  exact (DevKeeps.step h1 (wornMark_keeps _ _ _ _) rfl)

theorem blockReplacement_keeps (a0 : ℕ) (d : Dev) :
    OkP (DevKeeps 6912001 d) (blockReplacement a0 d) := by
  unfold blockReplacement
  split
  · split
    · extract_lets -merge -underBinder +onlyGivenNames x0
      have h0 : DevKeeps 6912001 d x0 := by
        subst x0
        exact (DevKeeps.step (.refl _ _) (Dev.modMed_keeps _ _) rfl)
      clear_value x0
      split
      · refine OkP.ok ?_
        exact (DevKeeps.step h0 (wantSpare_keeps _ _) rfl)
      · extract_lets -merge -underBinder +onlyGivenNames x1
        have h1 : DevKeeps 6912001 d x1 := by
          subst x1
          exact (DevKeeps.step h0 (badRecord_keeps _ _ _ _ _ _ _ _) rfl)
        clear_value x1
        refine OkP.ok ?_
        exact (DevKeeps.step h1 (readySpare_keeps _ _ _) rfl)
  · exact trivial

theorem execBlockReplacement_keeps (a0 : Fin 1536) (s : State) :
    NextP (StateKeeps 6912001 s) (execBlockReplacement a0 s) := by
  unfold execBlockReplacement
  refine onDev_keeps ?_
  exact DevKeeps.stepOk (.refl _ _) (blockReplacement_keeps _ _) rfl

theorem copyBlock_keeps (a0 : ℕ) (a1 : Replace) (d : Dev) :
    DevKeeps 16416 d (copyBlock a0 a1 d) := by
  unfold copyBlock
  extract_lets -merge -underBinder +onlyGivenNames x0
  clear_value x0
  extract_lets -merge -underBinder +onlyGivenNames x1
  clear_value x1
  refine DevKeeps.step ?_ (countReads_keeps _ _) rfl
  exact DevKeeps.set_media _ (.refl _ _) rfl

theorem replacementSwitch_keeps (a0 : ℕ) (d : Dev) :
    OkP (DevKeeps 28720 d) (replacementSwitch a0 d) := by
  unfold replacementSwitch
  split
  · refine iteP (P := OkP (DevKeeps 28720 d)) (fun _ => ?_) (fun _ => ?_)
    · refine OkP.ok ?_
      exact (DevKeeps.step (DevKeeps.step (DevKeeps.step (.refl _ _) (copyBlock_keeps _ _ _) rfl) (swapBlock_keeps _ _ _) rfl) (settleOld_keeps _ _) rfl)
    · exact trivial
  · exact trivial

theorem execReplacementSwitch_keeps (a0 : Fin 1536) (s : State) :
    NextP (StateKeeps 28720 s) (execReplacementSwitch a0 s) := by
  unfold execReplacementSwitch
  refine onDev_keeps ?_
  exact DevKeeps.stepOk (.refl _ _) (replacementSwitch_keeps _ _) rfl

theorem migrateRow_keeps (a0 : Nat) (a1 : Option Nat) (a2 : Option (Nat × Nat × Nat)) (d : Dev) :
    OkP (DevKeeps 606208 d) (migrateRow a0 a1 a2 d) := by
  unfold migrateRow
  cases a1 with
  | none => exact OkP.error
  | some hot =>
    cases a2 with
    | none => exact OkP.error
    | some c =>
      dsimp only
      generalize d.worthMove _ _ _ = b
      cases b
      · exact OkP.error
      · exact OkP.ok (((fillMembers_keeps _ _ _).mono rfl).step (Dev.modMed_keeps _ _) rfl)

theorem rowMigration_keeps (a0 : Nat) (d : Dev) : OkP (DevKeeps 606208 d) (rowMigration a0 d) := by
  unfold rowMigration
  generalize d.moving a0 = b
  generalize d.hotRow a0 = z
  generalize d.coldRow a0 = w
  cases b
  · exact migrateRow_keeps _ _ _ _
  · exact OkP.error

theorem execRowMigration_keeps (a0 : Fin 96) (s : State) :
    NextP (StateKeeps 606208 s) (execRowMigration a0 s) := by
  unfold execRowMigration
  refine onDev_keeps ?_
  exact DevKeeps.stepOk (.refl _ _) (rowMigration_keeps _ _) rfl

theorem migrationSwitch_keeps (a0 : ℕ) (d : Dev) :
    OkP (DevKeeps 0x40000000000000000000696032 d) (migrationSwitch a0 d) := by
  unfold migrationSwitch
  split
  · extract_lets -merge -underBinder +onlyGivenNames x0
    clear_value x0
    extract_lets -merge -underBinder +onlyGivenNames x1
    have h1 : DevKeeps 0x40000000000000000000696032 d x1 := by
      subst x1
      exact (DevKeeps.step (.refl _ _) (Dev.modMed_keeps _ _) rfl)
    clear_value x1
    extract_lets -merge -underBinder +onlyGivenNames x2
    have h2 : DevKeeps 0x40000000000000000000696032 d x2 := by
      subst x2
      exact (DevKeeps.step h1 (countReads_keeps _ _) rfl)
    clear_value x2
    extract_lets -merge -underBinder +onlyGivenNames x3
    have h3 : DevKeeps 0x40000000000000000000696032 d x3 := by
      subst x3
      refine DevKeeps.forUpTo ?_ (fun a4 y4 h4 => ?_)
      · exact h2
      · beta_reduce
        split
        · exact (DevKeeps.step h4 (storeSector_keeps _ _ _ _ _) rfl)
        · exact h4
    clear_value x3
    extract_lets -merge -underBinder +onlyGivenNames x5
    have h5 : DevKeeps 0x40000000000000000000696032 d x5 := by
      subst x5
      refine DevKeeps.forUpTo ?_ (fun a6 y6 h6 => ?_)
      · exact h3
      · beta_reduce
        exact (DevKeeps.step h6 (storeParity_keeps _ _ _ _) rfl)
    clear_value x5
    extract_lets -merge -underBinder +onlyGivenNames x7
    have h7 : DevKeeps 0x40000000000000000000696032 d x7 := by
      subst x7
      exact (DevKeeps.step h5 (Dev.modRow_keeps _ _ _ _) rfl)
    clear_value x7
    extract_lets -merge -underBinder +onlyGivenNames x8
    have h8 : DevKeeps 0x40000000000000000000696032 d x8 := by
      subst x8
      exact (DevKeeps.step h7 (Dev.modZone_keeps _ _ _ _) rfl)
    clear_value x8
    refine iteP (P := OkP (DevKeeps 0x40000000000000000000696032 d)) (fun _ => ?_) (fun _ => ?_)
    · exact trivial
    · refine OkP.ok ?_
      exact (DevKeeps.step h8 (releaseRow_keeps _ _ _ _) rfl)
  · exact trivial

theorem execMigrationSwitch_keeps (a0 : Fin 96) (s : State) :
    NextP (StateKeeps 0x40000000000000000000696032 s) (execMigrationSwitch a0 s) := by
  unfold execMigrationSwitch
  refine onDev_keeps ?_
  exact DevKeeps.stepOk (.refl _ _) (migrationSwitch_keeps _ _) rfl

theorem makeDurable_keeps (d : Dev) :
    DevKeeps 524288 d (makeDurable d) := by
  unfold makeDurable
  extract_lets -merge -underBinder +onlyGivenNames x0
  clear_value x0
  exact DevKeeps.set_nvm _ (.refl _ _) rfl

theorem metadataCheckpoint_keeps (d : Dev) :
    DevKeeps 540672 d (metadataCheckpoint d) := by
  unfold metadataCheckpoint
  extract_lets -merge -underBinder +onlyGivenNames x0
  have h0 : DevKeeps 540672 d x0 := by
    subst x0
    exact (DevKeeps.step (.refl _ _) (Dev.modMed_keeps _ _) rfl)
  clear_value x0
  extract_lets -merge -underBinder +onlyGivenNames x1
  clear_value x1
  exact DevKeeps.set_nvm _ h0 rfl

theorem checkpointDue_keeps (d : Dev) :
    DevKeeps 540672 d (checkpointDue d) := by
  unfold checkpointDue
  refine iteP (P := DevKeeps 540672 d) (fun _ => ?_) (fun _ => ?_)
  · exact (DevKeeps.step (.refl _ _) (metadataCheckpoint_keeps _) rfl)
  · exact (.refl _ _)

theorem execMetadataCheckpoint_keeps (s : State) :
    NextP (StateKeeps 540672 s) (execMetadataCheckpoint s) := by
  unfold execMetadataCheckpoint
  refine onDev_keeps ?_
  refine always_keeps ?_
  exact (DevKeeps.step (.refl _ _) (metadataCheckpoint_keeps _) rfl)

theorem healthWatch_keeps (d : Dev) :
    DevKeeps 81920 d (healthWatch d) := by
  unfold healthWatch
  extract_lets -merge -underBinder +onlyGivenNames x0
  clear_value x0
  extract_lets -merge -underBinder +onlyGivenNames x1
  have h1 : DevKeeps 81920 d x1 := by
    subst x1
    refine iteP (P := DevKeeps 81920 d) (fun _ => ?_) (fun _ => ?_)
    · exact (DevKeeps.step (.refl _ _) (healthEvent_keeps _ _ _ _ _ _ _ _) rfl)
    · exact (.refl _ _)
  clear_value x1
  extract_lets -merge -underBinder +onlyGivenNames x2
  clear_value x2
  extract_lets -merge -underBinder +onlyGivenNames x3
  have h3 : DevKeeps 81920 d x3 := by
    subst x3
    refine DevKeeps.foldl ?_ (fun y4 a4 h4 => ?_)
    · exact h1
    · beta_reduce
      exact (DevKeeps.step h4 (healthEvent_keeps _ _ _ _ _ _ _ _) rfl)
  clear_value x3
  exact (DevKeeps.step h3 (Dev.modMed_keeps _ _) rfl)

end Sys2Proof.Machine
end

