-- ==== Sys2Proof/Laws/KeepFuncLife.lean ====
section
/-! SUPPORT. What each operation of Machine/FuncLife.lean leaves as it was. -/

namespace Sys2Proof.Machine

theorem detachRead_keeps (a0 : ℕ) (d : Dev) :
    DevKeeps 2130640 d (detachRead a0 d) := by
  unfold detachRead
  extract_lets -merge -underBinder +onlyGivenNames x0
  clear_value x0
  extract_lets -merge -underBinder +onlyGivenNames x1
  clear_value x1
  extract_lets -merge -underBinder +onlyGivenNames x2
  clear_value x2
  extract_lets -merge -underBinder +onlyGivenNames x3
  have h3 : DevKeeps 2130640 d x3 := by
    subst x3
    refine DevKeeps.step (e := d) (k := 720) ?_ ⟨fun _ => rfl, fun _ => rfl, fun _ => rfl, fun _ => rfl, fun h => absurd h (by decide), fun _ => rfl, fun h => absurd h (by decide), fun h => absurd h (by decide), fun _ => rfl, fun h => absurd h (by decide), fun _ => rfl, fun _ => rfl, fun _ => rfl, fun _ => rfl, fun _ => rfl, fun _ => rfl, fun _ => rfl, fun _ => rfl, fun _ => rfl, fun _ => rfl, fun _ => rfl, fun _ => rfl, fun _ => rfl, fun _ _ => rfl⟩ rfl
    exact (.refl _ _)
  clear_value x3
  extract_lets -merge -underBinder +onlyGivenNames x4
  have h4 : DevKeeps 2130640 d x4 := by
    subst x4
    exact (DevKeeps.step h3 (Dev.modDlk_keeps _ _) rfl)
  clear_value x4
  exact (DevKeeps.step h4 (Dev.modCam_keeps _ _) rfl)

theorem giveUp_keeps (a0 : ℕ) (d : Dev) :
    DevKeeps 167936 d (giveUp a0 d) := by
  unfold giveUp
  extract_lets -merge -underBinder +onlyGivenNames x0
  have h0 : DevKeeps 167936 d x0 := by
    subst x0
    split
    · exact (DevKeeps.step (.refl _ _) (Dev.camFree_keeps _ _) rfl)
    · exact (.refl _ _)
  clear_value x0
  extract_lets -merge -underBinder +onlyGivenNames x1
  clear_value x1
  extract_lets -merge -underBinder +onlyGivenNames x2
  have h2 : DevKeeps 167936 d x2 := by
    subst x2
    exact DevKeeps.set_jnm _ h0 rfl
  clear_value x2
  exact (DevKeeps.step h2 (Dev.dropSlot_keeps _ _) rfl)

theorem withdrawSlot_keeps (a0 : ℕ) (d : Dev) :
    DevKeeps 0x38000000000000000000000000000000000003BA02 d (withdrawSlot a0 d) := by
  unfold withdrawSlot
  exact (DevKeeps.step (DevKeeps.step (.refl _ _) (withdrawCmd_keeps _ _ _) rfl) (giveUp_keeps _ _) rfl)

theorem fate_keeps (a0 : ℕ) (d : Dev) :
    DevKeeps 0x38000000000000000000000000000000000023BAD2 d (fate a0 d) := by
  unfold fate
  split
  · exact (.refl _ _)
  · refine iteP (P := DevKeeps 0x38000000000000000000000000000000000023BAD2 d) (fun _ => ?_) (fun _ => ?_)
    · exact (DevKeeps.step (.refl _ _) (giveUp_keeps _ _) rfl)
    · refine iteP (P := DevKeeps 0x38000000000000000000000000000000000023BAD2 d) (fun _ => ?_) (fun _ => ?_)
      · refine iteP (P := DevKeeps 0x38000000000000000000000000000000000023BAD2 d) (fun _ => ?_) (fun _ => ?_)
        · exact (DevKeeps.step (.refl _ _) (giveUp_keeps _ _) rfl)
        · exact (.refl _ _)
      · refine iteP (P := DevKeeps 0x38000000000000000000000000000000000023BAD2 d) (fun _ => ?_) (fun _ => ?_)
        · exact (DevKeeps.step (.refl _ _) (withdrawSlot_keeps _ _) rfl)
        · refine iteP (P := DevKeeps 0x38000000000000000000000000000000000023BAD2 d) (fun _ => ?_) (fun _ => ?_)
          · exact (DevKeeps.step (DevKeeps.step (.refl _ _) (detachRead_keeps _ _) rfl) (giveUp_keeps _ _) rfl)
          · refine iteP (P := DevKeeps 0x38000000000000000000000000000000000023BAD2 d) (fun _ => ?_) (fun _ => ?_)
            · exact (DevKeeps.step (DevKeeps.step (.refl _ _) (Dev.modZm_keeps _ _) rfl) (giveUp_keeps _ _) rfl)
            · refine iteP (P := DevKeeps 0x38000000000000000000000000000000000023BAD2 d) (fun _ => ?_) (fun _ => ?_)
              · exact (.refl _ _)
              · exact (DevKeeps.step (.refl _ _) (giveUp_keeps _ _) rfl)

theorem disableFunc_keeps (a0 : ℕ) (a1 : Bool) (d : Dev) :
    DevKeeps 0x38000000000000000000000000000000000027BAD2 d (disableFunc a0 a1 d) := by
  unfold disableFunc
  extract_lets -merge -underBinder +onlyGivenNames x0
  have h0 : DevKeeps 0x38000000000000000000000000000000000027BAD2 d x0 := by
    subst x0
    exact (DevKeeps.step (.refl _ _) (Dev.modFunc_keeps _ _ _) rfl)
  clear_value x0
  extract_lets -merge -underBinder +onlyGivenNames x1
  clear_value x1
  extract_lets -merge -underBinder +onlyGivenNames x2
  have h2 : DevKeeps 0x38000000000000000000000000000000000027BAD2 d x2 := by
    subst x2
    refine DevKeeps.foldl ?_ (fun y3 a3 h3 => ?_)
    · exact h0
    · beta_reduce
      exact (DevKeeps.step h3 (fate_keeps _ _) rfl)
  clear_value x2
  extract_lets -merge -underBinder +onlyGivenNames x4
  have h4 : DevKeeps 0x38000000000000000000000000000000000027BAD2 d x4 := by
    subst x4
    exact (DevKeeps.step h2 (Dev.modHost_keeps _ _) rfl)
  clear_value x4
  extract_lets -merge -underBinder +onlyGivenNames x5
  have h5 : DevKeeps 0x38000000000000000000000000000000000027BAD2 d x5 := by
    subst x5
    exact (DevKeeps.step h4 (Dev.modZm_keeps _ _) rfl)
  clear_value x5
  extract_lets -merge -underBinder +onlyGivenNames x6
  clear_value x6
  extract_lets -merge -underBinder +onlyGivenNames x7
  have h7 : DevKeeps 0x38000000000000000000000000000000000027BAD2 d x7 := by
    subst x7
    refine iteP (P := DevKeeps 0x38000000000000000000000000000000000027BAD2 d) (fun _ => ?_) (fun _ => ?_)
    · exact DevKeeps.set_pwr _ h5 rfl
    · exact h5
  clear_value x7
  exact (DevKeeps.step h7 (Dev.modFunc_keeps _ _ _) rfl)

theorem disableAll_keeps (a0 : List ℕ) (a1 : Bool) (d : Dev) :
    DevKeeps 0x38000000000000000000000000000000000027BAD2 d (disableAll a0 a1 d) := by
  unfold disableAll
  refine DevKeeps.foldl ?_ (fun y0 a0 h0 => ?_)
  · exact (.refl _ _)
  · beta_reduce
    exact (DevKeeps.step h0 (disableFunc_keeps _ _ _) rfl)

theorem ccEnSet_keeps (a0 : ℕ) (a1 : ℕ) (a2 : ℕ) (d : Dev) :
    OkP (DevKeeps 4198400 d) (ccEnSet a0 a1 a2 d) := by
  unfold ccEnSet
  extract_lets -merge -underBinder +onlyGivenNames x0
  clear_value x0
  refine iteP (P := OkP (DevKeeps 4198400 d)) (fun _ => ?_) (fun _ => ?_)
  · exact trivial
  · refine iteP (P := OkP (DevKeeps 4198400 d)) (fun _ => ?_) (fun _ => ?_)
    · refine OkP.ok ?_
      exact (DevKeeps.step (.refl _ _) (Dev.send_keeps _ _) rfl)
    · refine iteP (P := OkP (DevKeeps 4198400 d)) (fun _ => ?_) (fun _ => ?_)
      · refine OkP.ok ?_
        exact (.refl _ _)
      · refine OkP.ok ?_
        exact (DevKeeps.step (.refl _ _) (Dev.modFunc_keeps _ _ _) rfl)

theorem execCcEnSet_keeps (a0 : Fin 1026) (a1 : BitVec 12) (a2 : BitVec 12) (s : State) :
    NextP (StateKeeps 4198400 s) (execCcEnSet a0 a1 a2 s) := by
  unfold execCcEnSet
  refine onDev_keeps ?_
  exact DevKeeps.stepOk (.refl _ _) (ccEnSet_keeps _ _ _ _) rfl

theorem ccEnClear_keeps (a0 : ℕ) (d : Dev) :
    OkP (DevKeeps 0x38000000000000000000000000000000000067BAD2 d) (ccEnClear a0 d) := by
  unfold ccEnClear
  refine iteP (P := OkP (DevKeeps 0x38000000000000000000000000000000000067BAD2 d)) (fun _ => ?_) (fun _ => ?_)
  · exact trivial
  · refine iteP (P := OkP (DevKeeps 0x38000000000000000000000000000000000067BAD2 d)) (fun _ => ?_) (fun _ => ?_)
    · refine OkP.ok ?_
      exact (DevKeeps.step (.refl _ _) (Dev.send_keeps _ _) rfl)
    · refine iteP (P := OkP (DevKeeps 0x38000000000000000000000000000000000067BAD2 d)) (fun _ => ?_) (fun _ => ?_)
      · refine OkP.ok ?_
        exact (DevKeeps.step (.refl _ _) (disableFunc_keeps _ _ _) rfl)
      · refine OkP.ok ?_
        exact (.refl _ _)

theorem execCcEnClear_keeps (a0 : Fin 1026) (s : State) :
    NextP (StateKeeps 0x38000000000000000000000000000000000067BAD2 s) (execCcEnClear a0 s) := by
  unfold execCcEnClear
  refine onDev_keeps ?_
  exact DevKeeps.stepOk (.refl _ _) (ccEnClear_keeps _ _) rfl

theorem vfsOff_keeps (a0 : ℕ) (a1 : Bool) (d : Dev) :
    DevKeeps 0x38000000000000000000000000000000000027BAD2 d (vfsOff a0 a1 d) := by
  unfold vfsOff
  exact (DevKeeps.step (DevKeeps.step (.refl _ _) (disableAll_keeps _ _ _) rfl) (Dev.modPort_keeps _ _ _) rfl)

theorem functionLevelReset_keeps (a0 : ℕ) (d : Dev) :
    OkP (DevKeeps 0x38000000000000000000000000000000000067BAD2 d) (functionLevelReset a0 d) := by
  unfold functionLevelReset
  refine iteP (P := OkP (DevKeeps 0x38000000000000000000000000000000000067BAD2 d)) (fun _ => ?_) (fun _ => ?_)
  · exact trivial
  · refine iteP (P := OkP (DevKeeps 0x38000000000000000000000000000000000067BAD2 d)) (fun _ => ?_) (fun _ => ?_)
    · refine OkP.ok ?_
      exact (DevKeeps.step (.refl _ _) (Dev.send_keeps _ _) rfl)
    · refine iteP (P := OkP (DevKeeps 0x38000000000000000000000000000000000067BAD2 d)) (fun _ => ?_) (fun _ => ?_)
      · refine OkP.ok ?_
        exact (DevKeeps.step (DevKeeps.step (.refl _ _) (disableFunc_keeps _ _ _) rfl) (vfsOff_keeps _ _ _) rfl)
      · refine OkP.ok ?_
        exact (DevKeeps.step (.refl _ _) (disableFunc_keeps _ _ _) rfl)

theorem execFunctionLevelReset_keeps (a0 : Fin 1026) (s : State) :
    NextP (StateKeeps 0x38000000000000000000000000000000000067BAD2 s) (execFunctionLevelReset a0 s) := by
  unfold execFunctionLevelReset
  refine onDev_keeps ?_
  exact DevKeeps.stepOk (.refl _ _) (functionLevelReset_keeps _ _) rfl

theorem vfEnableSet_keeps (a0 : ℕ) (a1 : ℕ) (d : Dev) :
    OkP (DevKeeps 4198400 d) (vfEnableSet a0 a1 d) := by
  unfold vfEnableSet
  refine iteP (P := OkP (DevKeeps 4198400 d)) (fun _ => ?_) (fun _ => ?_)
  · exact trivial
  · refine iteP (P := OkP (DevKeeps 4198400 d)) (fun _ => ?_) (fun _ => ?_)
    · refine OkP.ok ?_
      exact (DevKeeps.step (.refl _ _) (Dev.send_keeps _ _) rfl)
    · refine iteP (P := OkP (DevKeeps 4198400 d)) (fun _ => ?_) (fun _ => ?_)
      · refine OkP.ok ?_
        exact (.refl _ _)
      · refine OkP.ok ?_
        exact (DevKeeps.step (.refl _ _) (Dev.modPort_keeps _ _ _) rfl)

theorem execVfEnableSet_keeps (a0 : Fin 2) (a1 : Fin 1025) (s : State) :
    NextP (StateKeeps 4198400 s) (execVfEnableSet a0 a1 s) := by
  unfold execVfEnableSet
  refine onDev_keeps ?_
  exact DevKeeps.stepOk (.refl _ _) (vfEnableSet_keeps _ _ _) rfl

theorem vfEnableClear_keeps (a0 : ℕ) (d : Dev) :
    OkP (DevKeeps 0x38000000000000000000000000000000000067BAD2 d) (vfEnableClear a0 d) := by
  unfold vfEnableClear
  refine iteP (P := OkP (DevKeeps 0x38000000000000000000000000000000000067BAD2 d)) (fun _ => ?_) (fun _ => ?_)
  · exact trivial
  · refine iteP (P := OkP (DevKeeps 0x38000000000000000000000000000000000067BAD2 d)) (fun _ => ?_) (fun _ => ?_)
    · refine OkP.ok ?_
      exact (DevKeeps.step (.refl _ _) (Dev.send_keeps _ _) rfl)
    · refine OkP.ok ?_
      exact (DevKeeps.step (.refl _ _) (vfsOff_keeps _ _ _) rfl)

theorem execVfEnableClear_keeps (a0 : Fin 2) (s : State) :
    NextP (StateKeeps 0x38000000000000000000000000000000000067BAD2 s) (execVfEnableClear a0 s) := by
  unfold execVfEnableClear
  refine onDev_keeps ?_
  exact DevKeeps.stepOk (.refl _ _) (vfEnableClear_keeps _ _) rfl

theorem linkEvent_keeps (a0 : ℕ) (d : Dev) :
    DevKeeps 0x8000000000000000000002 d (linkEvent a0 d) := by
  unfold linkEvent
  refine iteP (P := DevKeeps 0x8000000000000000000002 d) (fun _ => ?_) (fun _ => ?_)
  · exact (DevKeeps.step (.refl _ _) (Dev.wr_keeps _ _ _) (by rfl))
  · exact (DevKeeps.step (.refl _ _) (Dev.wr_keeps _ _ _) (by rfl))

theorem portFault_keeps (d : Dev) :
    DevKeeps 0x30000002 d (portFault d) := by
  unfold portFault
  extract_lets -merge -underBinder +onlyGivenNames x0
  clear_value x0
  refine iteP (P := DevKeeps 0x30000002 d) (fun _ => ?_) (fun _ => ?_)
  · exact (DevKeeps.step (.refl _ _) (faultOn_keeps _ _) rfl)
  · exact (DevKeeps.step (.refl _ _) (faultOff_keeps _ _) rfl)

theorem linkDown_keeps (a0 : ℕ) (d : Dev) :
    DevKeeps 0x38000000000000000000800000000000003027BAD2 d (linkDown a0 d) := by
  unfold linkDown
  extract_lets -merge -underBinder +onlyGivenNames x0
  clear_value x0
  extract_lets -merge -underBinder +onlyGivenNames x1
  have h1 : DevKeeps 0x38000000000000000000800000000000003027BAD2 d x1 := by
    subst x1
    exact (DevKeeps.step (.refl _ _) (disableAll_keeps _ _ _) rfl)
  clear_value x1
  extract_lets -merge -underBinder +onlyGivenNames x2
  have h2 : DevKeeps 0x38000000000000000000800000000000003027BAD2 d x2 := by
    subst x2
    exact (DevKeeps.step h1 (Dev.modPort_keeps _ _ _) rfl)
  clear_value x2
  extract_lets -merge -underBinder +onlyGivenNames x3
  have h3 : DevKeeps 0x38000000000000000000800000000000003027BAD2 d x3 := by
    subst x3
    exact (DevKeeps.step h2 (Dev.modHost_keeps _ _) rfl)
  clear_value x3
  exact (DevKeeps.step (DevKeeps.step h3 (linkEvent_keeps _ _) rfl) (portFault_keeps _) rfl)

theorem portLinkDown_keeps (a0 : ℕ) (d : Dev) :
    OkP (DevKeeps 0x38000000000000000000800000000000003027BAD2 d) (portLinkDown a0 d) := by
  unfold portLinkDown
  refine iteP (P := OkP (DevKeeps 0x38000000000000000000800000000000003027BAD2 d)) (fun _ => ?_) (fun _ => ?_)
  · refine OkP.ok ?_
    exact (DevKeeps.step (.refl _ _) (linkDown_keeps _ _) rfl)
  · exact trivial

theorem execPortLinkDown_keeps (a0 : Fin 2) (s : State) :
    NextP (StateKeeps 0x38000000000000000000800000000000003027BAD2 s) (execPortLinkDown a0 s) := by
  unfold execPortLinkDown
  refine onDev_keeps ?_
  exact DevKeeps.stepOk (.refl _ _) (portLinkDown_keeps _ _) rfl

theorem portLinkUp_keeps (a0 : ℕ) (a1 : Bool) (a2 : ℕ) (a3 : ℕ) (d : Dev) :
    OkP (DevKeeps 0x8000000000000030001002 d) (portLinkUp a0 a1 a2 a3 d) := by
  unfold portLinkUp
  extract_lets -merge -underBinder +onlyGivenNames x0
  clear_value x0
  extract_lets -merge -underBinder +onlyGivenNames x1
  have h1 : DevKeeps 0x8000000000000030001002 d x1 := by
    subst x1
    exact (DevKeeps.step (.refl _ _) (Dev.modPort_keeps _ _ _) rfl)
  clear_value x1
  refine iteP (P := OkP (DevKeeps 0x8000000000000030001002 d)) (fun _ => ?_) (fun _ => ?_)
  · exact trivial
  · refine OkP.ok ?_
    refine DevKeeps.step ?_ (portFault_keeps _) rfl
    refine iteP (P := DevKeeps 0x8000000000000030001002 d) (fun _ => ?_) (fun _ => ?_)
    · exact h1
    · exact (DevKeeps.step h1 (linkEvent_keeps _ _) rfl)

theorem execPortLinkUp_keeps (a0 : Fin 2) (a1 : Bool) (a2 : Fin 6) (a3 : BitVec 5) (s : State) :
    NextP (StateKeeps 0x8000000000000030001002 s) (execPortLinkUp a0 a1 a2 a3 s) := by
  unfold execPortLinkUp
  refine onDev_keeps ?_
  exact DevKeeps.stepOk (.refl _ _) (portLinkUp_keeps _ _ _ _ _) rfl

theorem portReset_keeps (a0 : ℕ) (d : Dev) :
    DevKeeps 0x38000000000000000000800000000000003027BAD2 d (portReset a0 d) := by
  unfold portReset
  extract_lets -merge -underBinder +onlyGivenNames x0
  have h0 : DevKeeps 0x38000000000000000000800000000000003027BAD2 d x0 := by
    subst x0
    refine iteP (P := DevKeeps 0x38000000000000000000800000000000003027BAD2 d) (fun _ => ?_) (fun _ => ?_)
    · exact (DevKeeps.step (.refl _ _) (linkDown_keeps _ _) rfl)
    · exact (DevKeeps.step (DevKeeps.step (.refl _ _) (disableAll_keeps _ _ _) rfl) (Dev.modPort_keeps _ _ _) rfl)
  clear_value x0
  refine iteP (P := DevKeeps 0x38000000000000000000800000000000003027BAD2 d) (fun _ => ?_) (fun _ => ?_)
  · exact (.refl _ _)
  · exact (DevKeeps.step h0 (Dev.modPort_keeps _ _ _) rfl)

theorem execPortReset_keeps (a0 : Fin 2) (s : State) :
    NextP (StateKeeps 0x38000000000000000000800000000000003027BAD2 s) (execPortReset a0 s) := by
  unfold execPortReset
  refine onDev_keeps ?_
  refine always_keeps ?_
  exact (DevKeeps.step (.refl _ _) (portReset_keeps _ _) rfl)

theorem perstRise_keeps (a0 : ℕ) (d : Dev) :
    DevKeeps 4096 d (perstRise a0 d) := by
  unfold perstRise
  refine iteP (P := DevKeeps 4096 d) (fun _ => ?_) (fun _ => ?_)
  · exact (DevKeeps.step (.refl _ _) (Dev.modPort_keeps _ _ _) rfl)
  · exact (.refl _ _)

theorem execPerstRise_keeps (a0 : Fin 2) (s : State) :
    NextP (StateKeeps 4096 s) (execPerstRise a0 s) := by
  unfold execPerstRise
  refine onDev_keeps ?_
  refine always_keeps ?_
  exact (DevKeeps.step (.refl _ _) (perstRise_keeps _ _) rfl)

theorem ideFailure_keeps (a0 : ℕ) (a1 : ℕ) (d : Dev) :
    OkP (DevKeeps 4096 d) (ideFailure a0 a1 d) := by
  unfold ideFailure
  refine iteP (P := OkP (DevKeeps 4096 d)) (fun _ => ?_) (fun _ => ?_)
  · refine OkP.ok ?_
    exact (DevKeeps.step (.refl _ _) (Dev.modPort_keeps _ _ _) rfl)
  · exact trivial

theorem execIdeIntegrityFailure_keeps (a0 : Fin 2) (a1 : Fin 9) (s : State) :
    NextP (StateKeeps 4096 s) (execIdeIntegrityFailure a0 a1 s) := by
  unfold execIdeIntegrityFailure
  refine onDev_keeps ?_
  exact DevKeeps.stepOk (.refl _ _) (ideFailure_keeps _ _ _) rfl

theorem teardownDone_keeps (a0 : ℕ) (d : Dev) :
    OkP (DevKeeps 0x1000000000000000000000000029002 d) (teardownDone a0 d) := by
  unfold teardownDone
  extract_lets -merge -underBinder +onlyGivenNames x0
  clear_value x0
  extract_lets -merge -underBinder +onlyGivenNames x1
  have h1 : DevKeeps 0x1000000000000000000000000029002 d x1 := by
    subst x1
    refine DevKeeps.foldl ?_ (fun y2 a2 h2 => ?_)
    · exact (.refl _ _)
    · beta_reduce
      exact (DevKeeps.step h2 (giveUp_keeps _ _) rfl)
  clear_value x1
  refine iteP (P := OkP (DevKeeps 0x1000000000000000000000000029002 d)) (fun _ => ?_) (fun _ => ?_)
  · exact trivial
  · refine OkP.ok ?_
    exact (DevKeeps.step (DevKeeps.step h1 (Dev.modFunc_keeps _ _ _) rfl) (Dev.wr_keeps _ _ _) (by rfl))

theorem execTeardownDone_keeps (a0 : Fin 1026) (s : State) :
    NextP (StateKeeps 0x1000000000000000000000000029002 s) (execTeardownDone a0 s) := by
  unfold execTeardownDone
  refine onDev_keeps ?_
  exact DevKeeps.stepOk (.refl _ _) (teardownDone_keeps _ _) rfl

theorem shutdownNotification_keeps (a0 : ℕ) (d : Dev) :
    OkP (DevKeeps 4739072 d) (shutdownNotification a0 d) := by
  unfold shutdownNotification
  extract_lets -merge -underBinder +onlyGivenNames x0
  have h0 : DevKeeps 4739072 d x0 := by
    subst x0
    exact (DevKeeps.step (.refl _ _) (Dev.modFunc_keeps _ _ _) rfl)
  clear_value x0
  extract_lets -merge -underBinder +onlyGivenNames x1
  have h1 : DevKeeps 4739072 d x1 := by
    subst x1
    exact (DevKeeps.step h0 (Dev.modHost_keeps _ _) rfl)
  clear_value x1
  refine iteP (P := OkP (DevKeeps 4739072 d)) (fun _ => ?_) (fun _ => ?_)
  · exact trivial
  · refine iteP (P := OkP (DevKeeps 4739072 d)) (fun _ => ?_) (fun _ => ?_)
    · refine OkP.ok ?_
      exact (DevKeeps.step (.refl _ _) (Dev.send_keeps _ _) rfl)
    · refine OkP.ok ?_
      exact (DevKeeps.step (DevKeeps.step h1 (metadataCheckpoint_keeps _) rfl) (settleShutdown_keeps _ _) rfl)

theorem execShutdownNotification_keeps (a0 : Fin 1026) (s : State) :
    NextP (StateKeeps 4739072 s) (execShutdownNotification a0 s) := by
  unfold execShutdownNotification
  refine onDev_keeps ?_
  exact DevKeeps.stepOk (.refl _ _) (shutdownNotification_keeps _ _) rfl

theorem tenantWrite_keeps (a0 : ℕ) (d : Dev) :
    DevKeeps 0x1020000000000000000000000000002 d (tenantWrite a0 d) := by
  unfold tenantWrite
  extract_lets -merge -underBinder +onlyGivenNames x0
  clear_value x0
  refine iteP (P := DevKeeps 0x1020000000000000000000000000002 d) (fun _ => ?_) (fun _ => ?_)
  · exact (DevKeeps.step (.refl _ _) (Dev.wrb_keeps _ _ _ _) (by rfl))
  · exact (DevKeeps.step (.refl _ _) (Dev.wr_keeps _ _ _) (by rfl))

theorem execFCfgTenantWrite_keeps (a0 : Word) (s : State) :
    NextP (StateKeeps 0x1020000000000000000000000000003 s) (execFCfgTenantWrite a0 s) := by
  unfold execFCfgTenantWrite
  refine onDev_keeps ?_
  refine orRsv_keeps ?_ ?_ rfl
  · exact (.refl _ _)
  · exact (DevKeeps.step (.refl _ _) (tenantWrite_keeps _ _) rfl)

theorem classWrite_keeps (a0 : ℕ) (a1 : ℕ) (d : Dev) :
    DevKeeps 0x200000000000000000000000000002 d (classWrite a0 a1 d) := by
  unfold classWrite
  extract_lets -merge -underBinder +onlyGivenNames x0
  clear_value x0
  extract_lets -merge -underBinder +onlyGivenNames x1
  have h1 : DevKeeps 0x200000000000000000000000000002 d x1 := by
    subst x1
    exact (DevKeeps.step (.refl _ _) (Dev.wrb_keeps _ _ _ _) (by rfl))
  clear_value x1
  refine iteP (P := DevKeeps 0x200000000000000000000000000002 d) (fun _ => ?_) (fun _ => ?_)
  · exact h1
  · exact (DevKeeps.step (DevKeeps.step (DevKeeps.step h1 (Dev.wrb_keeps _ _ _ _) (by rfl)) (Dev.wrb_keeps _ _ _ _) (by rfl)) (Dev.wrb_keeps _ _ _ _) (by rfl))

theorem execClsCfgWrite_keeps (a0 : Word) (s : State) :
    NextP (StateKeeps 0x200000000000000000000000000003 s) (execClsCfgWrite a0 s) := by
  unfold execClsCfgWrite
  refine onDev_keeps ?_
  refine orRsv_keeps ?_ ?_ rfl
  · exact (.refl _ _)
  · beta_reduce
    exact (DevKeeps.step (.refl _ _) (classWrite_keeps _ _ _) rfl)

end Sys2Proof.Machine
end

