-- ==== Sys2Proof/Laws/KeepManage.lean ====
section
/-! SUPPORT. What each operation of Machine/Manage.lean leaves as it was. -/

namespace Sys2Proof.Machine

theorem Dev.modNvm_keeps (d : Dev) (a1 : Nvm → Nvm) :
    DevKeeps 524288 d (Dev.modNvm d a1) := by
  unfold Dev.modNvm
  exact DevKeeps.set_nvm _ (.refl _ _) rfl

theorem Dev.modSys_keeps (d : Dev) (a1 : Sys → Sys) :
    DevKeeps 1048576 d (Dev.modSys d a1) := by
  unfold Dev.modSys
  exact DevKeeps.set_sys _ (.refl _ _) rfl

theorem Dev.modPwr_keeps (d : Dev) (a1 : Pwr → Pwr) :
    DevKeeps 262144 d (Dev.modPwr d a1) := by
  unfold Dev.modPwr
  exact DevKeeps.set_pwr _ (.refl _ _) rfl

theorem Dev.modGrv_keeps (d : Dev) (a1 : Grv → Grv) :
    DevKeeps 65536 d (Dev.modGrv d a1) := by
  unfold Dev.modGrv
  exact DevKeeps.set_grv _ (.refl _ _) rfl

theorem Dev.trace_keeps (d : Dev) (a1 : ℕ) (a2 : ℕ) :
    DevKeeps 65536 d (Dev.trace d a1 a2) := by
  unfold Dev.trace
  exact (DevKeeps.step (.refl _ _) (Dev.modGrv_keeps _ _) rfl)

theorem Dev.modJnm_keeps (d : Dev) (a1 : Jnm → Jnm) :
    DevKeeps 131072 d (Dev.modJnm d a1) := by
  unfold Dev.modJnm
  exact DevKeeps.set_jnm _ (.refl _ _) rfl

theorem generateKey_keeps (a0 : ℕ) (a1 : ℕ) (d : Dev) :
    DevKeeps 513 d (generateKey a0 a1 d) := by
  unfold generateKey
  extract_lets -merge -underBinder +onlyGivenNames x0
  clear_value x0
  extract_lets -merge -underBinder +onlyGivenNames x1
  clear_value x1
  refine SndP.snd (P := DevKeeps 513 d) ?_
  exact DevKeeps.stepSnd (DevKeeps.step (DevKeeps.step (.refl _ _) (Dev.tick_keeps _ _) rfl) (Dev.setKey_keeps _ _ _) rfl) (Dev.takeNonce_keeps _) rfl

theorem convClear_keeps (a0 : ℕ) (a1 : ℕ) (d : Dev) :
    DevKeeps 14336 d (convClear a0 a1 d) := by
  unfold convClear
  extract_lets -merge -underBinder +onlyGivenNames x0
  clear_value x0
  extract_lets -merge -underBinder +onlyGivenNames x1
  have h1 : DevKeeps 14336 d x1 := by
    subst x1
    refine DevKeeps.foldl ?_ (fun y2 a2 h2 => ?_)
    · exact (.refl _ _)
    · beta_reduce
      split
      · exact (DevKeeps.step (DevKeeps.step (DevKeeps.step h2 (freeSectorCells_keeps _ _) rfl) (dropStage_keeps _ _ _ _) rfl) (Dev.modZm_keeps _ _) rfl)
      · exact h2
  clear_value x1
  exact (DevKeeps.step h1 (Dev.modZm_keeps _ _) rfl)

theorem resetNs_keeps (a0 : ℕ) (a1 : Ns) (d : Dev) :
    DevKeeps 0x4000000000000000000069F812 d (resetNs a0 a1 d) := by
  unfold resetNs
  refine iteP (P := DevKeeps 0x4000000000000000000069F812 d) (fun _ => ?_) (fun _ => ?_)
  · refine DevKeeps.foldl ?_ (fun y0 a0 h0 => ?_)
    · exact (.refl _ _)
    · beta_reduce
      exact (DevKeeps.step h0 (emptyZone_keeps _ _ _ _) rfl)
  · exact (DevKeeps.step (.refl _ _) (convClear_keeps _ _ _) rfl)

theorem cryptoErase_keeps (a0 : ℕ) (d : Dev) :
    DevKeeps 0x800000000000000000000000000004000000000000000000069FA13 d (cryptoErase a0 d) := by
  unfold cryptoErase
  split
  · exact (.refl _ _)
  · extract_lets -merge -underBinder +onlyGivenNames x0
    clear_value x0
    extract_lets -merge -underBinder +onlyGivenNames x1
    clear_value x1
    extract_lets -merge -underBinder +onlyGivenNames x2
    have h2 : DevKeeps 0x800000000000000000000000000004000000000000000000069FA13 d x2 := by
      subst x2
      exact (DevKeeps.step (.refl _ _) (purgeSlot_keeps _ _) rfl)
    clear_value x2
    extract_lets -merge -underBinder +onlyGivenNames x3
    have h3 : DevKeeps 0x800000000000000000000000000004000000000000000000069FA13 d x3 := by
      subst x3
      exact (DevKeeps.step h2 (resetNs_keeps _ _ _) rfl)
    clear_value x3
    extract_lets -merge -underBinder +onlyGivenNames x4
    have h4 : DevKeeps 0x800000000000000000000000000004000000000000000000069FA13 d x4 := by
      subst x4
      exact (DevKeeps.step h3 (generateKey_keeps _ _ _) rfl)
    clear_value x4
    exact (DevKeeps.step (DevKeeps.step h4 (Dev.modNs_keeps _ _ _) rfl) (makeDurable_keeps _) rfl)

end Sys2Proof.Machine
end

