-- ==== Sys2Proof/Laws/KeepHostLog.lean ====
section
/-! SUPPORT. What each operation of Machine/HostLog.lean leaves as it was. -/

namespace Sys2Proof.Machine

theorem logSeen_keeps (a0 : ℕ) (a1 : ℕ) (a2 : ℕ) (d : Dev) :
    DevKeeps 4096 d (logSeen a0 a1 a2 d) := by
  unfold logSeen
  extract_lets -merge -underBinder +onlyGivenNames x0
  have h0 : DevKeeps 4096 d x0 := by
    subst x0
    exact (DevKeeps.step (.refl _ _) (Dev.modFunc_keeps _ _ _) rfl)
  clear_value x0
  split
  · exact (DevKeeps.step h0 (Dev.modFunc_keeps _ _ _) rfl)
  · exact (DevKeeps.step h0 (Dev.modFunc_keeps _ _ _) rfl)
  · exact h0

theorem logRead_keeps (a0 : ℕ) (a1 : ℕ) (a2 : ℕ) (a3 : ℕ) (d : Dev) :
    DevKeeps 20480 d (logRead a0 a1 a2 a3 d) := by
  unfold logRead
  split
  · extract_lets -merge -underBinder +onlyGivenNames x0
    clear_value x0
    exact (DevKeeps.step (.refl _ _) (Dev.modMed_keeps _ _) rfl)
  · extract_lets -merge -underBinder +onlyGivenNames x1
    clear_value x1
    exact (DevKeeps.step (.refl _ _) (Dev.modHost_keeps _ _) rfl)
  · exact (.refl _ _)

theorem getLogPage_keeps (a0 : ℕ) (a1 : Slot) (d : Dev) :
    DevKeeps 4214785 d (getLogPage a0 a1 d) := by
  unfold getLogPage
  extract_lets -merge -underBinder +onlyGivenNames x0
  clear_value x0
  extract_lets -merge -underBinder +onlyGivenNames x1
  clear_value x1
  extract_lets -merge -underBinder +onlyGivenNames x2
  clear_value x2
  extract_lets -merge -underBinder +onlyGivenNames x3
  clear_value x3
  extract_lets -merge -underBinder +onlyGivenNames x4
  clear_value x4
  refine iteP (P := DevKeeps 4214785 d) (fun _ => ?_) (fun _ => ?_)
  · exact (DevKeeps.step (.refl _ _) (finish_keeps _ _ _) rfl)
  · refine iteP (P := DevKeeps 4214785 d) (fun _ => ?_) (fun _ => ?_)
    · exact (DevKeeps.step (.refl _ _) (finish_keeps _ _ _) rfl)
    · refine iteP (P := DevKeeps 4214785 d) (fun _ => ?_) (fun _ => ?_)
      · exact (DevKeeps.step (.refl _ _) (finish_keeps _ _ _) rfl)
      · split
        · extract_lets -merge -underBinder +onlyGivenNames x5
          have h5 : DevKeeps 4214785 d x5 := by
            subst x5
            exact (DevKeeps.step (DevKeeps.step (.refl _ _) (Dev.send_keeps _ _) rfl) (Dev.tick_keeps _ _) rfl)
          clear_value x5
          extract_lets -merge -underBinder +onlyGivenNames x6
          have h6 : DevKeeps 4214785 d x6 := by
            subst x6
            exact (DevKeeps.step h5 (logRead_keeps _ _ _ _ _) rfl)
          clear_value x6
          refine iteP (P := DevKeeps 4214785 d) (fun _ => ?_) (fun _ => ?_)
          · exact (DevKeeps.step (.refl _ _) (finish_keeps _ _ _) rfl)
          · refine DevKeeps.step ?_ (finish_keeps _ _ _) rfl
            refine iteP (P := DevKeeps 4214785 d) (fun _ => ?_) (fun _ => ?_)
            · exact h6
            · exact (DevKeeps.step h6 (logSeen_keeps _ _ _ _) rfl)

theorem execGetLogPage_keeps (a0 : Fin 131072) (s : State) :
    NextP (StateKeeps 4214785 s) (execGetLogPage a0 s) := by
  unfold execGetLogPage
  refine onDev_keeps ?_
  beta_reduce
  refine onSlot_keeps ?_ rfl (fun z0 => ?_)
  · exact (.refl _ _)
  · beta_reduce
    refine OkP.ok ?_
    exact (DevKeeps.step (.refl _ _) (getLogPage_keeps _ _ _) rfl)

theorem identify_keeps (a0 : ℕ) (a1 : Slot) (d : Dev) :
    DevKeeps 4198401 d (identify a0 a1 d) := by
  unfold identify
  split
  · exact (DevKeeps.step (DevKeeps.step (DevKeeps.step (.refl _ _) (Dev.send_keeps _ _) rfl) (Dev.tick_keeps _ _) rfl) (finish_keeps _ _ _) rfl)
  · exact (DevKeeps.step (.refl _ _) (finish_keeps _ _ _) rfl)

theorem execIdentify_keeps (a0 : Fin 131072) (s : State) :
    NextP (StateKeeps 4198401 s) (execIdentify a0 s) := by
  unfold execIdentify
  refine onDev_keeps ?_
  beta_reduce
  refine onSlot_keeps ?_ rfl (fun z0 => ?_)
  · exact (.refl _ _)
  · beta_reduce
    refine OkP.ok ?_
    exact (DevKeeps.step (.refl _ _) (identify_keeps _ _ _) rfl)

theorem featRow_keeps {m op k : Nat} {p : Nat → Bool} {g : Slot → Dev → Dev} {d0 d : Dev} (hd : DevKeeps m d0 d)
    (hm : m.testBit 12 = true) (h : ∀ x, DevKeeps m d0 (g x d)) : OkP (DevKeeps m d0) (featRow op p k g d) := by
  unfold featRow
  refine onSlot_keeps hd hm fun x => ?_
  split
  · exact h x
  · trivial

theorem putFeat_keeps (a0 : ℕ) (a1 : ℕ) (a2 : ℕ) (d : Dev) :
    DevKeeps 4096 d (putFeat a0 a1 a2 d) := by
  unfold putFeat
  exact (DevKeeps.step (.refl _ _) (Dev.modFunc_keeps _ _ _) rfl)

theorem setFeature_keeps (a0 : ℕ) (a1 : Slot) (d : Dev) :
    DevKeeps 4096 d (setFeature a0 a1 d) := by
  unfold setFeature
  extract_lets -merge -underBinder +onlyGivenNames x0
  clear_value x0
  split
  · exact (DevKeeps.step (DevKeeps.step (.refl _ _) (putFeat_keeps _ _ _ _) rfl) (finish_keeps _ _ _) rfl)
  · exact (DevKeeps.step (DevKeeps.step (.refl _ _) (putFeat_keeps _ _ _ _) rfl) (finish_keeps _ _ _) rfl)
  · exact (DevKeeps.step (DevKeeps.step (.refl _ _) (putFeat_keeps _ _ _ _) rfl) (finish_keeps _ _ _) rfl)
  · refine iteP (P := DevKeeps 4096 d) (fun _ => ?_) (fun _ => ?_)
    · exact (DevKeeps.step (.refl _ _) (finish_keeps _ _ _) rfl)
    · exact (DevKeeps.step (DevKeeps.step (.refl _ _) (putFeat_keeps _ _ _ _) rfl) (finish_keeps _ _ _) rfl)
  · exact (DevKeeps.step (.refl _ _) (finish_keeps _ _ _) rfl)

theorem execSetFeatures_keeps (a0 : Fin 131072) (s : State) :
    NextP (StateKeeps 4096 s) (execSetFeatures a0 s) := by
  unfold execSetFeatures
  refine onDev_keeps ?_
  refine featRow_keeps ?_ rfl (fun z0 => ?_)
  · exact (.refl _ _)
  · exact (DevKeeps.step (.refl _ _) (setFeature_keeps _ _ _) rfl)

theorem execSetFeaturesNumberOfQueues_keeps (a0 : Fin 131072) (s : State) :
    NextP (StateKeeps 4096 s) (execSetFeaturesNumberOfQueues a0 s) := by
  unfold execSetFeaturesNumberOfQueues
  refine onDev_keeps ?_
  refine featRow_keeps ?_ rfl (fun z0 => ?_)
  · exact (.refl _ _)
  · beta_reduce
    exact (DevKeeps.step (.refl _ _) (finish_keeps _ _ _) rfl)

theorem setPower_keeps (a0 : ℕ) (a1 : Slot) (d : Dev) :
    DevKeeps 266240 d (setPower a0 a1 d) := by
  unfold setPower
  extract_lets -merge -underBinder +onlyGivenNames x0
  clear_value x0
  extract_lets -merge -underBinder +onlyGivenNames x1
  have h1 : DevKeeps 266240 d x1 := by
    subst x1
    exact (DevKeeps.step (.refl _ _) (putFeat_keeps _ _ _ _) rfl)
  clear_value x1
  refine iteP (P := DevKeeps 266240 d) (fun _ => ?_) (fun _ => ?_)
  · exact (DevKeeps.step (.refl _ _) (finish_keeps _ _ _) rfl)
  · refine DevKeeps.step ?_ (finish_keeps _ _ _) rfl
    refine iteP (P := DevKeeps 266240 d) (fun _ => ?_) (fun _ => ?_)
    · exact (DevKeeps.step h1 (Dev.modPwr_keeps _ _) rfl)
    · exact h1

theorem execSetFeaturesPowerManagement_keeps (a0 : Fin 131072) (s : State) :
    NextP (StateKeeps 266240 s) (execSetFeaturesPowerManagement a0 s) := by
  unfold execSetFeaturesPowerManagement
  refine onDev_keeps ?_
  refine featRow_keeps ?_ rfl (fun z0 => ?_)
  · exact (.refl _ _)
  · exact (DevKeeps.step (.refl _ _) (setPower_keeps _ _ _) rfl)

theorem setApst_keeps (a0 : ℕ) (a1 : List DWord) (a2 : Slot) (d : Dev) :
    DevKeeps 4096 d (setApst a0 a1 a2 d) := by
  unfold setApst
  extract_lets -merge -underBinder +onlyGivenNames x0
  have h0 : DevKeeps 4096 d x0 := by
    subst x0
    exact (DevKeeps.step (.refl _ _) (putFeat_keeps _ _ _ _) rfl)
  clear_value x0
  refine iteP (P := DevKeeps 4096 d) (fun _ => ?_) (fun _ => ?_)
  · exact (DevKeeps.step (.refl _ _) (finish_keeps _ _ _) rfl)
  · refine DevKeeps.step ?_ (finish_keeps _ _ _) rfl
    refine DevKeeps.foldl ?_ (fun y1 a1 h1 => ?_)
    · exact h0
    · beta_reduce
      exact (DevKeeps.step h1 (putFeat_keeps _ _ _ _) rfl)

theorem execSetFeaturesApst_keeps (a0 : Fin 131072) (a1 : List DWord) (s : State) :
    NextP (StateKeeps 4096 s) (execSetFeaturesApst a0 a1 s) := by
  unfold execSetFeaturesApst
  refine iteP (P := NextP (StateKeeps 4096 s)) (fun _ => ?_) (fun _ => ?_)
  · refine onDev_keeps ?_
    refine featRow_keeps ?_ rfl (fun z0 => ?_)
    · exact (.refl _ _)
    · exact (DevKeeps.step (.refl _ _) (setApst_keeps _ _ _ _) rfl)
  · exact trivial

theorem setStamp_keeps (a0 : ℕ) (a1 : ℕ) (d : Dev) :
    DevKeeps 266240 d (setStamp a0 a1 d) := by
  unfold setStamp
  exact (DevKeeps.step (DevKeeps.step (.refl _ _) (Dev.modPwr_keeps _ _) rfl) (finish_keeps _ _ _) rfl)

theorem execSetFeaturesTimestamp_keeps (a0 : Fin 131072) (a1 : BitVec 48) (s : State) :
    NextP (StateKeeps 266240 s) (execSetFeaturesTimestamp a0 a1 s) := by
  unfold execSetFeaturesTimestamp
  refine onDev_keeps ?_
  refine featRow_keeps ?_ rfl (fun z0 => ?_)
  · exact (.refl _ _)
  · beta_reduce
    exact (DevKeeps.step (.refl _ _) (setStamp_keeps _ _ _) rfl)

theorem execGetFeaturesTimestamp_keeps (a0 : Fin 131072) (s : State) :
    NextP (StateKeeps 4198400 s) (execGetFeaturesTimestamp a0 s) := by
  unfold execGetFeaturesTimestamp
  refine onDev_keeps ?_
  refine featRow_keeps ?_ rfl (fun z0 => ?_)
  · exact (.refl _ _)
  · beta_reduce
    exact (DevKeeps.step (DevKeeps.step (.refl _ _) (Dev.send_keeps _ _) rfl) (finish_keeps _ _ _) rfl)

theorem setService_keeps (a0 : ℕ) (a1 : Slot) (d : Dev) :
    DevKeeps 4096 d (setService a0 a1 d) := by
  unfold setService
  split
  · exact (DevKeeps.step (.refl _ _) (finish_keeps _ _ _) rfl)
  · exact (DevKeeps.step (.refl _ _) (finish_keeps _ _ _) rfl)

theorem execSetFeaturesServiceState_keeps (a0 : Fin 131072) (s : State) :
    NextP (StateKeeps 4096 s) (execSetFeaturesServiceState a0 s) := by
  unfold execSetFeaturesServiceState
  refine onDev_keeps ?_
  refine featRow_keeps ?_ rfl (fun z0 => ?_)
  · exact (.refl _ _)
  · exact (DevKeeps.step (.refl _ _) (setService_keeps _ _ _) rfl)

theorem execSetFeaturesAsyncEventConfig_keeps (a0 : Fin 131072) (s : State) :
    NextP (StateKeeps 4096 s) (execSetFeaturesAsyncEventConfig a0 s) := by
  unfold execSetFeaturesAsyncEventConfig
  refine onDev_keeps ?_
  refine featRow_keeps ?_ rfl (fun z0 => ?_)
  · exact (.refl _ _)
  · beta_reduce
    exact (DevKeeps.step (DevKeeps.step (.refl _ _) (putFeat_keeps _ _ _ _) rfl) (finish_keeps _ _ _) rfl)

theorem setTemp_keeps (a0 : ℕ) (a1 : Slot) (d : Dev) :
    DevKeeps 4096 d (setTemp a0 a1 d) := by
  unfold setTemp
  extract_lets -merge -underBinder +onlyGivenNames x0
  clear_value x0
  refine iteP (P := DevKeeps 4096 d) (fun _ => ?_) (fun _ => ?_)
  · exact (DevKeeps.step (.refl _ _) (finish_keeps _ _ _) rfl)
  · exact (DevKeeps.step (DevKeeps.step (.refl _ _) (putFeat_keeps _ _ _ _) rfl) (finish_keeps _ _ _) rfl)

theorem execSetFeaturesTempThreshold_keeps (a0 : Fin 131072) (s : State) :
    NextP (StateKeeps 4096 s) (execSetFeaturesTempThreshold a0 s) := by
  unfold execSetFeaturesTempThreshold
  refine onDev_keeps ?_
  refine featRow_keeps ?_ rfl (fun z0 => ?_)
  · exact (.refl _ _)
  · exact (DevKeeps.step (.refl _ _) (setTemp_keeps _ _ _) rfl)

theorem getFeature_keeps (a0 : ℕ) (a1 : Slot) (d : Dev) :
    DevKeeps 4198400 d (getFeature a0 a1 d) := by
  unfold getFeature
  split
  · exact (DevKeeps.step (.refl _ _) (finish_keeps _ _ _) rfl)
  · exact (DevKeeps.step (DevKeeps.step (.refl _ _) (Dev.send_keeps _ _) rfl) (finish_keeps _ _ _) rfl)
  · exact (DevKeeps.step (.refl _ _) (finish_keeps _ _ _) rfl)

theorem execGetFeatures_keeps (a0 : Fin 131072) (s : State) :
    NextP (StateKeeps 4198400 s) (execGetFeatures a0 s) := by
  unfold execGetFeatures
  refine onDev_keeps ?_
  refine featRow_keeps ?_ rfl (fun z0 => ?_)
  · exact (.refl _ _)
  · exact (DevKeeps.step (.refl _ _) (getFeature_keeps _ _ _) rfl)

theorem firmwareDownload_keeps (a0 : ℕ) (a1 : List Byte) (a2 : Slot) (d : Dev) :
    OkP (DevKeeps 1052672 d) (firmwareDownload a0 a1 a2 d) := by
  unfold firmwareDownload
  extract_lets -merge -underBinder +onlyGivenNames x0
  clear_value x0
  extract_lets -merge -underBinder +onlyGivenNames x1
  clear_value x1
  extract_lets -merge -underBinder +onlyGivenNames x2
  have h2 : DevKeeps 1052672 d x2 := by
    subst x2
    refine DevKeeps.foldl ?_ (fun y3 a3 h3 => ?_)
    · exact (.refl _ _)
    · beta_reduce
      exact (DevKeeps.step h3 (Dev.modSys_keeps _ _) rfl)
  clear_value x2
  refine iteP (P := OkP (DevKeeps 1052672 d)) (fun _ => ?_) (fun _ => ?_)
  · refine OkP.ok ?_
    exact (DevKeeps.step (.refl _ _) (finish_keeps _ _ _) rfl)
  · refine iteP (P := OkP (DevKeeps 1052672 d)) (fun _ => ?_) (fun _ => ?_)
    · exact trivial
    · refine OkP.ok ?_
      exact (DevKeeps.step h2 (finish_keeps _ _ _) rfl)

theorem execFirmwareImageDownload_keeps (a0 : Fin 131072) (a1 : List Byte) (s : State) :
    NextP (StateKeeps 1052672 s) (execFirmwareImageDownload a0 a1 s) := by
  unfold execFirmwareImageDownload
  refine onDev_keeps ?_
  beta_reduce
  refine onSlot_keeps ?_ rfl (fun z0 => ?_)
  · exact (.refl _ _)
  · exact DevKeeps.stepOk (.refl _ _) (firmwareDownload_keeps _ _ _ _) rfl

theorem raiseSvn_keeps (a0 : Sqe) (d : Dev) :
    DevKeeps 0x10000000000000000000000000000000000000000000000000000000000000000000000000080002 d (raiseSvn a0 d) := by
  unfold raiseSvn
  extract_lets -merge -underBinder +onlyGivenNames x0
  clear_value x0
  extract_lets -merge -underBinder +onlyGivenNames x1
  clear_value x1
  refine iteP (P := DevKeeps 0x10000000000000000000000000000000000000000000000000000000000000000000000000080002 d) (fun _ => ?_) (fun _ => ?_)
  · exact (DevKeeps.step (DevKeeps.step (.refl _ _) (Dev.modNvm_keeps _ _) rfl) (Dev.wr_keeps _ _ _) (by rfl))
  · exact (.refl _ _)

theorem commitWrite_keeps {m k : Nat} {x : Slot} {f : Nat → Dev → Dev} {d0 d : Dev} (hd : DevKeeps m d0 d)
    (h : ∀ n e, DevKeeps m d0 e → DevKeeps m d0 (f n e)) (hm : m ||| 0x10000000000000000000000000000000000000000000000000000000000000000000000000181002 = m) : DevKeeps m d0 (commitWrite k x f d) := by
  have m1 : m.testBit 12 = true := by rw [← hm]; simp; right; decide
  have m2 : m.testBit 19 = true := by rw [← hm]; simp; right; decide
  have m3 : m.testBit 20 = true := by rw [← hm]; simp; right; decide
  have hf : ∀ c e, DevKeeps m d0 e → DevKeeps m d0 (finish k c e) := by
    intro c e he
    unfold finish Dev.modSlot
    split
    · exact he.set_host _ m1
    · exact he
  unfold commitWrite
  try dsimp only
  split
  · exact hf _ _ hd
  · split
    · exact hf _ _ hd
    · split
      · exact hf _ _ hd
      · exact hf _ _ ((h _ _ (DevKeeps.set_sys _ (hd.set_nvm _ m2) m3)).step (raiseSvn_keeps _ _) (by rw [← hm, Nat.or_assoc]; congr 1))

theorem commitRow_keeps {m ca k : Nat} {g : Slot → Dev → Dev} {d0 d : Dev} (hd : DevKeeps m d0 d)
    (hm : m.testBit 12 = true) (h : ∀ x, DevKeeps m d0 (g x d)) : OkP (DevKeeps m d0) (commitRow ca k g d) := by
  unfold commitRow
  refine onSlot_keeps hd hm fun x => ?_
  split
  · exact h x
  · trivial

theorem execFirmwareCommitReplace_keeps (a0 : Fin 131072) (s : State) :
    NextP (StateKeeps 0x10000000000000000000000000000000000000000000000000000000000000000000000000181002 s) (execFirmwareCommitReplace a0 s) := by
  unfold execFirmwareCommitReplace
  refine onDev_keeps ?_
  refine commitRow_keeps ?_ rfl (fun z0 => ?_)
  · exact (.refl _ _)
  · beta_reduce
    refine commitWrite_keeps ?_ (fun _ e1 h1 => ?_) rfl
    · exact (.refl _ _)
    · beta_reduce
      exact h1

theorem execFirmwareCommitReplaceActivate_keeps (a0 : Fin 131072) (s : State) :
    NextP (StateKeeps 0x10000000000000000000000000000000000000000000000000000000000000000000000000181002 s) (execFirmwareCommitReplaceActivate a0 s) := by
  unfold execFirmwareCommitReplaceActivate
  refine onDev_keeps ?_
  refine commitRow_keeps ?_ rfl (fun z0 => ?_)
  · exact (.refl _ _)
  · beta_reduce
    refine commitWrite_keeps ?_ (fun _ e1 h1 => ?_) rfl
    · exact (.refl _ _)
    · beta_reduce
      exact (DevKeeps.step h1 (Dev.modNvm_keeps _ _) rfl)

theorem commitActivate_keeps (a0 : ℕ) (a1 : Slot) (d : Dev) :
    DevKeeps 0x10000000000000000000000000000000000000000000000000000000000000000000000000081002 d (commitActivate a0 a1 d) := by
  unfold commitActivate
  extract_lets -merge -underBinder +onlyGivenNames x0
  clear_value x0
  refine iteP (P := DevKeeps 0x10000000000000000000000000000000000000000000000000000000000000000000000000081002 d) (fun _ => ?_) (fun _ => ?_)
  · exact (DevKeeps.step (.refl _ _) (finish_keeps _ _ _) rfl)
  · exact (DevKeeps.step (DevKeeps.step (DevKeeps.step (.refl _ _) (Dev.modNvm_keeps _ _) rfl) (raiseSvn_keeps _ _) rfl) (finish_keeps _ _ _) rfl)

theorem execFirmwareCommitActivate_keeps (a0 : Fin 131072) (s : State) :
    NextP (StateKeeps 0x10000000000000000000000000000000000000000000000000000000000000000000000000081002 s) (execFirmwareCommitActivate a0 s) := by
  unfold execFirmwareCommitActivate
  refine onDev_keeps ?_
  refine commitRow_keeps ?_ rfl (fun z0 => ?_)
  · exact (.refl _ _)
  · exact (DevKeeps.step (.refl _ _) (commitActivate_keeps _ _ _) rfl)

theorem execFirmwareCommitActivateNow_keeps (a0 : Fin 131072) (s : State) :
    NextP (StateKeeps 0x10000000000000000000000000000000000000000000000000000000000000000000000000181002 s) (execFirmwareCommitActivateNow a0 s) := by
  unfold execFirmwareCommitActivateNow
  refine onDev_keeps ?_
  refine commitRow_keeps ?_ rfl (fun z0 => ?_)
  · exact (.refl _ _)
  · beta_reduce
    refine commitWrite_keeps ?_ (fun _ e1 h1 => ?_) rfl
    · exact (.refl _ _)
    · beta_reduce
      exact (DevKeeps.step (DevKeeps.step h1 (Dev.modNvm_keeps _ _) rfl) (Dev.wr_keeps _ _ _) (by rfl))

theorem selfRead_keeps (a0 : ℕ) (d : Dev) :
    DevKeeps 0x180000000000000000000000000000000000000000000000000000000000000000000000000000000000000001052 d (selfRead a0 d) := by
  unfold selfRead
  split
  · rename_i v0_0 v0_1 q0
    have h1 : DevKeeps 0x180000000000000000000000000000000000000000000000000000000000000000000000000000000000000001052 d v0_1 := by
      refine SndP.get (P := (DevKeeps 0x180000000000000000000000000000000000000000000000000000000000000000000000000000000000000001052 d)) ?_ q0
      exact DevKeeps.stepSnd (.refl _ _) (Dev.hostTag_keeps _) rfl
    exact (DevKeeps.step h1 (takeDesc_keeps _ _ _ _) rfl)

theorem startSelfTest_keeps (a0 : ℕ) (d : Dev) :
    DevKeeps 0x180000000000000000000000000000000000000000000000000000000000000000000000000000000000000001052 d (startSelfTest a0 d) := by
  unfold startSelfTest
  extract_lets -merge -underBinder +onlyGivenNames x0
  have h0 : DevKeeps 0x180000000000000000000000000000000000000000000000000000000000000000000000000000000000000001052 d x0 := by
    subst x0
    exact (DevKeeps.step (.refl _ _) (Dev.modHost_keeps _ _) rfl)
  clear_value x0
  refine DevKeeps.foldl ?_ (fun y1 a1 h1 => ?_)
  · exact h0
  · beta_reduce
    exact (DevKeeps.step h1 (selfRead_keeps _ _) rfl)

theorem selfTestRow_keeps (a0 : ℕ) (a1 : ℕ) (d : Dev) :
    OkP (DevKeeps 0x180000000000000000000000000000000000000000000000000000000000000000000000000000000000000001052 d) (selfTestRow a0 a1 d) := by
  unfold selfTestRow
  refine onSlot_keeps ?_ rfl (fun z0 => ?_)
  · exact (.refl _ _)
  · beta_reduce
    refine iteP (P := OkP (DevKeeps 0x180000000000000000000000000000000000000000000000000000000000000000000000000000000000000001052 d)) (fun _ => ?_) (fun _ => ?_)
    · exact trivial
    · refine iteP (P := OkP (DevKeeps 0x180000000000000000000000000000000000000000000000000000000000000000000000000000000000000001052 d)) (fun _ => ?_) (fun _ => ?_)
      · refine OkP.ok ?_
        exact (DevKeeps.step (.refl _ _) (finish_keeps _ _ _) rfl)
      · refine iteP (P := OkP (DevKeeps 0x180000000000000000000000000000000000000000000000000000000000000000000000000000000000000001052 d)) (fun _ => ?_) (fun _ => ?_)
        · refine OkP.ok ?_
          exact (DevKeeps.step (.refl _ _) (finish_keeps _ _ _) rfl)
        · refine OkP.ok ?_
          exact (DevKeeps.step (DevKeeps.step (.refl _ _) (finish_keeps _ _ _) rfl) (startSelfTest_keeps _ _) rfl)

theorem execDeviceSelfTestShort_keeps (a0 : Fin 131072) (s : State) :
    NextP (StateKeeps 0x180000000000000000000000000000000000000000000000000000000000000000000000000000000000000001052 s) (execDeviceSelfTestShort a0 s) := by
  unfold execDeviceSelfTestShort
  refine onDev_keeps ?_
  exact DevKeeps.stepOk (.refl _ _) (selfTestRow_keeps _ _ _) rfl

theorem execDeviceSelfTestExtended_keeps (a0 : Fin 131072) (s : State) :
    NextP (StateKeeps 0x180000000000000000000000000000000000000000000000000000000000000000000000000000000000000001052 s) (execDeviceSelfTestExtended a0 s) := by
  unfold execDeviceSelfTestExtended
  refine onDev_keeps ?_
  exact DevKeeps.stepOk (.refl _ _) (selfTestRow_keeps _ _ _) rfl

theorem endSelfTest_keeps (a0 : ℕ) (d : Dev) :
    DevKeeps 4097 d (endSelfTest a0 d) := by
  unfold endSelfTest
  exact (DevKeeps.step (DevKeeps.step (.refl _ _) (Dev.modHost_keeps _ _) rfl) (Dev.tick_keeps _ _) rfl)

theorem selfTestAbort_keeps (a0 : ℕ) (d : Dev) :
    OkP (DevKeeps 4097 d) (selfTestAbort a0 d) := by
  unfold selfTestAbort
  refine onSlot_keeps ?_ rfl (fun z0 => ?_)
  · exact (.refl _ _)
  · beta_reduce
    refine iteP (P := OkP (DevKeeps 4097 d)) (fun _ => ?_) (fun _ => ?_)
    · exact trivial
    · refine iteP (P := OkP (DevKeeps 4097 d)) (fun _ => ?_) (fun _ => ?_)
      · refine OkP.ok ?_
        exact (DevKeeps.step (.refl _ _) (finish_keeps _ _ _) rfl)
      · refine OkP.ok ?_
        refine DevKeeps.step ?_ (finish_keeps _ _ _) rfl
        refine iteP (P := DevKeeps 4097 d) (fun _ => ?_) (fun _ => ?_)
        · exact (.refl _ _)
        · exact (DevKeeps.step (.refl _ _) (endSelfTest_keeps _ _) rfl)

theorem execDeviceSelfTestAbort_keeps (a0 : Fin 131072) (s : State) :
    NextP (StateKeeps 4097 s) (execDeviceSelfTestAbort a0 s) := by
  unfold execDeviceSelfTestAbort
  refine onDev_keeps ?_
  exact DevKeeps.stepOk (.refl _ _) (selfTestAbort_keeps _ _) rfl

theorem selfTestSheet_keeps (d : Dev) :
    DevKeeps 4097 d (selfTestSheet d) := by
  unfold selfTestSheet
  extract_lets -merge -underBinder +onlyGivenNames x0
  have h0 : DevKeeps 4097 d x0 := by
    subst x0
    refine iteP (P := DevKeeps 4097 d) (fun _ => ?_) (fun _ => ?_)
    · exact (DevKeeps.step (.refl _ _) (selfTestFailed_keeps _ _) rfl)
    · exact (.refl _ _)
  clear_value x0
  refine iteP (P := DevKeeps 4097 d) (fun _ => ?_) (fun _ => ?_)
  · exact (.refl _ _)
  · exact (DevKeeps.step h0 (endSelfTest_keeps _ _) rfl)

theorem formatNvm_keeps (a0 : ℕ) (a1 : Slot) (d : Dev) :
    DevKeeps 0x800000000000000000000000000004000000000000000000069FA13 d (formatNvm a0 a1 d) := by
  unfold formatNvm
  extract_lets -merge -underBinder +onlyGivenNames x0
  clear_value x0
  refine iteP (P := DevKeeps 0x800000000000000000000000000004000000000000000000069FA13 d) (fun _ => ?_) (fun _ => ?_)
  · exact (DevKeeps.step (.refl _ _) (finish_keeps _ _ _) rfl)
  · split
    · exact (DevKeeps.step (.refl _ _) (finish_keeps _ _ _) rfl)
    · refine iteP (P := DevKeeps 0x800000000000000000000000000004000000000000000000069FA13 d) (fun _ => ?_) (fun _ => ?_)
      · exact (DevKeeps.step (DevKeeps.step (.refl _ _) (cryptoErase_keeps _ _) rfl) (finish_keeps _ _ _) rfl)
      · exact (DevKeeps.step (.refl _ _) (waitOrder_keeps _ _) rfl)

theorem execFormatNvm_keeps (a0 : Fin 131072) (s : State) :
    NextP (StateKeeps 0x800000000000000000000000000004000000000000000000069FA13 s) (execFormatNvm a0 s) := by
  unfold execFormatNvm
  refine onDev_keeps ?_
  beta_reduce
  refine onSlot_keeps ?_ rfl (fun z0 => ?_)
  · exact (.refl _ _)
  · beta_reduce
    refine OkP.ok ?_
    exact (DevKeeps.step (.refl _ _) (formatNvm_keeps _ _ _) rfl)

theorem sanitize_keeps (a0 : ℕ) (a1 : Slot) (d : Dev) :
    DevKeeps 0x800000000000000000000000000004000000000000000000069FA13 d (sanitize a0 a1 d) := by
  unfold sanitize
  refine iteP (P := DevKeeps 0x800000000000000000000000000004000000000000000000069FA13 d) (fun _ => ?_) (fun _ => ?_)
  · exact (DevKeeps.step (.refl _ _) (finish_keeps _ _ _) rfl)
  · refine iteP (P := DevKeeps 0x800000000000000000000000000004000000000000000000069FA13 d) (fun _ => ?_) (fun _ => ?_)
    · refine DevKeeps.step ?_ (finish_keeps _ _ _) rfl
      refine DevKeeps.foldl ?_ (fun y0 a0 h0 => ?_)
      · exact (.refl _ _)
      · beta_reduce
        exact (DevKeeps.step h0 (cryptoErase_keeps _ _) rfl)
    · exact (DevKeeps.step (.refl _ _) (waitOrder_keeps _ _) rfl)

theorem execSanitize_keeps (a0 : Fin 131072) (s : State) :
    NextP (StateKeeps 0x800000000000000000000000000004000000000000000000069FA13 s) (execSanitize a0 s) := by
  unfold execSanitize
  refine onDev_keeps ?_
  beta_reduce
  refine onSlot_keeps ?_ rfl (fun z0 => ?_)
  · exact (.refl _ _)
  · beta_reduce
    refine OkP.ok ?_
    exact (DevKeeps.step (.refl _ _) (sanitize_keeps _ _ _) rfl)

end Sys2Proof.Machine
end

