-- ==== Sys2Proof/Laws/Zone.lean ====
section
/-! SUPPORT. Command slots under the changes of zones and namespaces. -/

namespace Sys2Proof.Machine

theorem slots_of_keeps {m : Nat} {d e : Dev} (h : DevKeeps m d e) (hm : m.testBit 12 = false) : e.host.slots = d.host.slots := by rw [h.host hm]

theorem dropStage_hostSlots (t n : Nat) (r : Bool) (d : Dev) : (dropStage t n r d).host.slots = d.host.slots := by unfold dropStage; split <;> rfl
theorem freeSectorCells_hostSlots (h : Nat) (d : Dev) : (freeSectorCells h d).host.slots = d.host.slots :=
  slots_of_keeps (freeSectorCells_keeps h d) (by rfl)

theorem discardStaged_hostSlots (o n z : Nat) (d : Dev) : (discardStaged o n z d).host.slots = d.host.slots := by
  unfold discardStaged
  extract_lets x d1 d2
  have h1 : d1.host.slots = d.host.slots := foldl_keeps (fun e : Dev => e.host.slots = d.host.slots) rfl fun e a he => by
    rw [dropStage_hostSlots, freeSectorCells_hostSlots, he]
  clear_value d1
  rw [slots_of_keeps (Dev.modZone_keeps _ _ _ _) (by rfl)]
  exact h1

theorem emptyZone_hostSlots (o n z : Nat) (d : Dev) : (emptyZone o n z d).host.slots = d.host.slots := by
  unfold emptyZone
  extract_lets x d1 d2 src d3
  have h1 : d1.host.slots = d.host.slots := discardStaged_hostSlots _ _ _ _
  clear_value d1
  have h2 : d2.host.slots = d.host.slots := by
    subst d2; split
    · next g r _ => rw [slots_of_keeps (releaseRow_keeps n g r _) (by rfl), slots_of_keeps (abandonRowWork_keeps g r d1) (by rfl), h1]
    · exact h1
  clear_value d2
  have h3 : d3.host.slots = d2.host.slots := slots_of_keeps (Dev.modZone_keeps _ _ _ _) (by rfl)
  rw [slots_of_keeps (syncZone_keeps n z d3) (by rfl), h3, h2]

theorem convClear_hostSlots (o n : Nat) (d : Dev) : (convClear o n d).host.slots = d.host.slots := by
  unfold convClear
  extract_lets mine d1
  have h1 : d1.host.slots = d.host.slots := foldl_keeps (fun e : Dev => e.host.slots = d.host.slots) rfl fun e a he => by
    split
    · show (dropStage _ _ _ _).host.slots = _
      rw [dropStage_hostSlots, freeSectorCells_hostSlots, he]
    · exact he
  exact h1

theorem resetNs_hostSlots (n : Nat) (ns : Ns) (d : Dev) : (resetNs n ns d).host.slots = d.host.slots := by
  unfold resetNs
  split
  · exact foldl_keeps (fun e : Dev => e.host.slots = d.host.slots) rfl fun e a he => by rw [emptyZone_hostSlots, he]
  · exact convClear_hostSlots _ _ _

theorem cryptoErase_hostSlots (n : Nat) (d : Dev) : (cryptoErase n d).host.slots = d.host.slots := by
  unfold cryptoErase
  split
  · rfl
  · extract_lets slot mode d1 d2 d3
    rw [slots_of_keeps (makeDurable_keeps _) (by rfl), modNs_host]
    show d3.host.slots = _
    rw [slots_of_keeps (generateKey_keeps slot mode d2) (by rfl)]
    show d2.host.slots = _
    rw [resetNs_hostSlots, slots_of_keeps (purgeSlot_keeps slot d) (by rfl)]

/-- A command that completes after changes that leave the slots. -/
theorem completes_of_slots {d e : Dev} {k : Nat} {x : Slot} (h : e.host.slots = d.host.slots) (hx : d.slot? k = some x) (c : Cpl) :
    Completes (finish k c e) k c := completes_finish c (x := x) (by unfold Dev.slot? at *; rw [h]; exact hx)
theorem givesDev_featRow {k op : Nat} {p : Nat → Bool} {g : Slot → Dev → Dev} {s : State} {x : Slot} {Q : Dev → Prop} (h : Taken s.dev k true op x)
    (hp : p (Sqe.fid x.sqe) = true) (hq : Q (g x s.dev)) : GivesDev (onDev s (featRow op p k g)) s Q := by
  refine givesDev_onSlot (g := fun x d => if p (Sqe.fid x.sqe) then .ok (g x d) else .error "feature") h ?_ hq
  rw [if_pos hp]
theorem putFeat_feat (f key v : Nat) (d : Dev) (z : Nat) : ((putFeat f key v d).func f).feat key z = v := by
  unfold putFeat Func.feat
  rw [Dev.func_modFunc_same]; simp
theorem putFeat_slots (f key v : Nat) (d : Dev) : (putFeat f key v d).host.slots = d.host.slots := rfl
theorem send_slots (o : Out) (d : Dev) : (d.send o).host.slots = d.host.slots := by rw [Dev.send_host]
theorem send_out {d : Dev} {f c : Nat} {bs : List Byte} (h : d.mute f = false) : (d.send (.hostBytes f c bs)).out = .hostBytes f c bs :: d.out := by
  unfold Dev.send; simp only [h]; rfl
theorem logSeen_slots (a b c) (d : Dev) : (logSeen a b c d).host.slots = d.host.slots := by unfold logSeen; split <;> rfl
theorem logRead_slots (a b x y) (d : Dev) : (logRead a b x y d).host.slots = d.host.slots := by unfold logRead; split <;> rfl
theorem commit_gives {ca k : Nat} {g : Slot → Dev → Dev} {s : State} {x : Slot} {Q : Dev → Prop} (ht : Taken s.dev k true 0x10 x) (hc : bits x.sqe.cdw10.toNat 5 3 = ca)
    (hq : Q (g x s.dev)) : GivesDev (onDev s (commitRow ca k g)) s Q :=
  givesDev_onSlot (g := fun x d => if bits x.sqe.cdw10.toNat 5 3 = ca then .ok (g x d) else .error "commit action") ht (if_pos hc) hq
theorem raiseSvn_host (q : Sqe) (d : Dev) : (raiseSvn q d).host = d.host := (raiseSvn_keeps q d).host (by rfl)
theorem raiseSvn_sys (q : Sqe) (d : Dev) : (raiseSvn q d).sys = d.sys := (raiseSvn_keeps q d).sys (by rfl)
theorem raiseSvn_nvm (q : Sqe) (d : Dev) : (raiseSvn q d).nvm.fw = d.nvm.fw ∧ (raiseSvn q d).nvm.pending = d.nvm.pending ∧ (raiseSvn q d).nvm.active = d.nvm.active := by
  unfold raiseSvn
  extract_lets fs svn
  clear_value svn
  split
  · rw [Dev.wr_nvm]; exact ⟨rfl, rfl, rfl⟩
  · exact ⟨rfl, rfl, rfl⟩
theorem commitWrite_ok {k : Nat} {s : State} {x : Slot} {t : Nat → Dev → Dev} (hs : s.dev.slot? k = some x) (h1 : bits x.sqe.cdw10.toNat 2 0 ∈ [2, 3]) (h2 : s.dev.nvm.slotOk s.dev.sys.image = true)
    (hd : ∀ fs d, (t fs d).host = d.host ∧ (t fs d).nvm.fw = d.nvm.fw ∧ (t fs d).sys = d.sys) :
    Completes (commitWrite k x t s.dev) k success ∧ mapFind (commitWrite k x t s.dev).nvm.fw (bits x.sqe.cdw10.toNat 2 0) = some s.dev.sys.image ∧
    (commitWrite k x t s.dev).sys.download = [] ∧ ∃ e, e.nvm.pending = s.dev.nvm.pending ∧ (commitWrite k x t s.dev).nvm.pending = (t (bits x.sqe.cdw10.toNat 2 0) e).nvm.pending ∧
      (commitWrite k x t s.dev).nvm.active = (t (bits x.sqe.cdw10.toNat 2 0) e).nvm.active := by
  unfold commitWrite
  extract_lets fs d1
  have hfs : fs = 2 ∨ fs = 3 := by simpa using h1
  rw [if_neg (by omega), if_neg (by simp; omega), if_neg (by simp [h2])]
  obtain ⟨g1, g2, g3⟩ := hd fs (d1.modSys fun y => { y with download := [] })
  obtain ⟨n1, n2, n3⟩ := raiseSvn_nvm x.sqe (t fs (d1.modSys fun y => { y with download := [] }))
  refine ⟨completes_of_slots (d := s.dev) (by rw [raiseSvn_host, g1]; rfl) hs _, ?_, ?_, d1.modSys (fun y => { y with download := [] }), rfl, ?_, ?_⟩
  rotate_left 2
  · rw [Dev.finish_nvm, n2]
  · rw [Dev.finish_nvm, n3]
  · rw [Dev.finish_nvm, n1, g2]; exact mapFind_insert_same _ _ _
  · rw [Dev.finish_sys, raiseSvn_sys, g3]; rfl
theorem startSelfTest_host (c : Nat) (d : Dev) : (startSelfTest c d).host.slots = d.host.slots ∧ (startSelfTest c d).host.selfTest = c := by
  unfold startSelfTest
  extract_lets d1
  have h1 : d1.host.slots = d.host.slots ∧ d1.host.selfTest = c := ⟨rfl, rfl⟩
  clear_value d1
  refine foldl_keeps (fun e : Dev => e.host.slots = d.host.slots ∧ e.host.selfTest = c) h1 fun e a he => ?_
  unfold selfRead
  generalize hx : e.hostTag = tg
  obtain ⟨tag, e2⟩ := tg
  have h2 : e2.host.slots = e.host.slots ∧ e2.host.selfTest = e.host.selfTest := by
    have : e2 = e.hostTag.2 := by rw [hx]
    rw [this]; exact ⟨rfl, rfl⟩
  dsimp only
  rw [(takeDesc_keeps _ _ _ _).host (by rfl), h2.1, h2.2]; exact he

end Sys2Proof.Machine
end

