-- ==== Sys2Proof/Laws/Io.lean ====
section
/-! SUPPORT. Reads and writes of the host: what their shared operations leave. -/

namespace Sys2Proof.Machine
theorem ioCommand_ready {k op : Nat} {x : Slot} {ns : Ns} {d : Dev} {g : Slot → Ns → Dev → Dev} (h : IoReady d k op x ns) : ioCommand k op g d = .ok (g x ns d) := by
  obtain ⟨h1, h2, h3, h4, h5, h6, h7⟩ := h
  unfold ioCommand
  rw [onSlot_taken h1]
  have : (x.phase == .waiting && (x.total ≠ 0 && x.sqe.op ≠ 0x02 && x.sqe.op ≠ 0x0C)) = false := by
    by_cases hp : x.phase = .waiting
    · rcases h3 hp with h | h | h <;> simp [h]
    · simp [hp]
  simp only [h2, Bool.false_or, this, Bool.false_eq_true, if_false, h4, h5, h6, h7]
theorem entry_setEntry_same (c : Cam) (i : Nat) (e : CamEntry) : (c.setEntry i e).entry i = e := mapGet_set_same CamEntry.free c.entries i e
theorem zone_modZone_same (d : Dev) (n z : Nat) (g : Zone → Zone) : (d.modZone n z g).zone n z = g (d.zone n z) := by
  unfold Dev.modZone
  extract_lets x d'
  have h : d'.zone n z = g (d.zone n z) := mapGet_mod_same Zone.fresh d.zm.zones (zoneKey n z) g
  split
  · exact h
  · rw [← h]; unfold Dev.zone; rw [(tellEtchings_keeps _ _ _).zm (by rfl)]
theorem camHighFree_congr {d e : Dev} (hc : e.cam = d.cam) (hr : e.regs = d.regs) : ∀ n k, e.camHighFree n k = d.camHighFree n k
  | 0, _ => by simp [Dev.camHighFree]
  | n + 1, 0 => by simp [Dev.camHighFree]
  | n + 1, k + 1 => by simp only [Dev.camHighFree, Dev.segOff, hc, Dev.rd_congr hr, camHighFree_congr hc hr n k]; rfl
theorem zoneEntryRoom_congr {d e : Dev} (hc : e.cam = d.cam) (hr : e.regs = d.regs) (n z : Nat) : e.zoneEntryRoom n z = d.zoneEntryRoom n z := by
  unfold Dev.zoneEntryRoom Dev.zoneEntry Dev.camUsed Dev.camFuel
  rw [hc, Dev.rd_congr hr, Dev.rd_congr hr, camHighFree_congr hc hr]
theorem modSlot_slot {d : Dev} {k : Nat} {x : Slot} (f : Slot → Slot) (h : d.slot? k = some x) : (d.modSlot k f).slot? k = some (f x) := by
  rw [slot_modSlot, if_pos rfl, h]; rfl
theorem issueSearch_adds {k : Nat} {x : Slot} {d : Dev} (hs : d.slot? k = some x) (x' : Slot) : (∃ h, (issueSearch k x' d).cam.searches = d.cam.searches ++ [(k, h)]) ∧
    (issueSearch k x' d).slot? k = some x := by
  unfold issueSearch
  refine ⟨⟨d.camSearch (overlapKey x'), ?_⟩, ?_⟩
  · show (Dev.countHit _ _ _).cam.searches ++ _ = _
    rw [(Dev.countHit_keeps _ _ _).cam (by rfl)]; rfl
  · show (Dev.countHit _ _ _).slot? k = _
    rw [(Dev.countHit_keeps _ _ _).slot _ (by rfl)]; exact hs
/-- The counts of a namespace's reads are the same. -/
def SameReads (n : Nat) (d e : Dev) : Prop := (e.ns? n).map (fun y => (y.reads, y.sectorsRead)) = (d.ns? n).map (fun y => (y.reads, y.sectorsRead))
theorem SameReads.of_zm {n : Nat} {d e : Dev} (h : e.zm = d.zm) : SameReads n d e := by unfold SameReads Dev.ns?; rw [h]
theorem SameReads.trans {n : Nat} {d e f : Dev} (h1 : SameReads n d e) (h2 : SameReads n e f) : SameReads n d f := Eq.trans h2 h1
theorem countUnrecovered_reads (n k i : Nat) (d : Dev) : SameReads n d (countUnrecovered k i d) := by
  unfold countUnrecovered
  extract_lets d1
  have h1 : SameReads n d d1 := .of_zm rfl
  split
  · rename_i x _
    extract_lets m d2
    refine h1.trans (SameReads.trans (e := d2) ?_ (.of_zm ((addErr_keeps _ _ _ _ _ _ _).zm (by rfl))))
    unfold SameReads
    show Option.map _ ((d1.modNs m _).ns? n) = _
    unfold Dev.modNs
    cases hn : d1.ns? m with
    | none => rfl
    | some y =>
      show Option.map _ (mapFind (mapInsert d1.zm.ns m _) n) = _
      by_cases hmn : n = m
      · subst hmn; rw [mapFind_insert_same, hn]; rfl
      · rw [mapFind_insert_other _ _ hmn]; rfl
  · exact h1
theorem readEnd_zm (k : Nat) (d : Dev) : (readEnd k d).zm = d.zm := (readEnd_keeps k d).zm (by rfl)
theorem readLost_zm (k : Nat) (c) (d : Dev) : (readLost k c d).zm = d.zm := (readLost_keeps k c d).zm (by rfl)
theorem serveSector_reads (n k i : Nat) (x) (c) (d : Dev) : SameReads n d (serveSector k i x c d) := by
  unfold serveSector
  split
  · refine .of_zm ?_
    rw [readEnd_zm]; split
    · exact (Dev.send_keeps _ _).zm (by rfl)
    · rfl
  · exact (countUnrecovered_reads n _ _ _).trans (.of_zm (readLost_zm _ _ _))
  · extract_lets sec
    split
    · exact .of_zm rfl
    · refine SameReads.trans ?_ ((countUnrecovered_reads n _ _ _).trans (.of_zm (readLost_zm _ _ _)))
      exact .of_zm ((bucketEvent_keeps _ _).zm (by rfl))
  · exact .of_zm ((askMedia_keeps _ _ _).zm (by rfl))
  · exact .of_zm rfl
  · exact .of_zm rfl
theorem foldl_inv {α β : Type} {P : β → β → Prop} (hr : ∀ b, P b b) (ht : ∀ a b c, P a b → P b c → P a c) {f : β → α → β} (h : ∀ b a, P b (f b a)) (l : List α) (b : β) : P b (l.foldl f b) := by
  induction l generalizing b with
  | nil => exact hr b
  | cons a l ih => exact ht _ _ _ (h b a) (ih _)
theorem serveRead_served {k : Nat} {x : Slot} {ns : Ns} {d : Dev} (hn : d.ns? x.sqe.nsid.toNat = some ns) (hr : d.readable x.sqe ns) :
    (serveRead k x ns d).readServed x.sqe.nsid.toNat x.sqe.nlb ns := by
  obtain ⟨h1, h2, h3⟩ := hr
  unfold serveRead
  extract_lets src ps n d1 d2 d3
  rw [if_neg (by show ¬ (d.sources x.sqe ns).any _ = true; rw [h1]; decide), if_neg (by show ¬ ((d.sources x.sqe ns).any _ || !d.partsFit _) = true; rw [h2, h3]; decide)]
  have e1 : d1.ns? x.sqe.nsid.toNat = some ns := by unfold Dev.ns?; rw [(Dev.modSlot_keeps _ _ _).zm (by rfl)]; exact hn
  have e2 : d2.ns? x.sqe.nsid.toNat = some { ns with
      reads := ns.reads + 1, sectorsRead := ns.sectorsRead + n } := by
    show (d1.modNs _ _).ns? _ = _
    unfold Dev.modNs; rw [e1]; exact mapFind_insert_same _ _ _
  have e3 : SameReads x.sqe.nsid.toNat d2 d3 :=
    foldl_inv (P := SameReads x.sqe.nsid.toNat) (fun _ => .of_zm rfl) (fun _ _ _ => .trans) (fun b p => .of_zm ((postPart_keeps _ _ _ _).zm (by rfl))) _ _
  have e4 := e3.trans (foldl_inv (P := SameReads x.sqe.nsid.toNat) (f := fun d (e : Source × Nat) => serveSector k e.2 x e.1 d) (fun _ => .of_zm rfl) (fun _ _ _ => .trans) (fun b e => serveSector_reads _ _ _ _ _ _) src.zipIdx d3)
  generalize List.foldl _ d3 _ = d4 at *
  unfold SameReads at e4
  rw [e2] at e4
  obtain ⟨y, hy, e5⟩ := Option.map_eq_some_iff.1 e4
  exact ⟨y, hy, (Prod.mk.inj e5).1, (Prod.mk.inj e5).2⟩
theorem nsOf_ns {d : Dev} {f n : Nat} {ns : Ns} (h : d.nsOf f n = some ns) : d.ns? n = some ns := by
  unfold Dev.nsOf at h; split at h
  · split at h
    · rw [← h]; assumption
    · cases h
  · cases h
theorem modSlot_readable (d : Dev) (k : Nat) (f) (x : Sqe) (ns : Ns) : (d.modSlot k f).readable x ns ↔ d.readable x ns := by
  unfold Dev.modSlot; split <;> exact Iff.rfl
theorem writeQ_toWriteQ (k i : Nat) (p) (d : Dev) : ∃ w, (toWriteQ k i p d).ciph.writeQ = d.ciph.writeQ ++ [w] ∧ w.work = .write k i p := by
  unfold toWriteQ
  extract_lets e
  have h : e.ciph.writeQ = d.ciph.writeQ := by show (if _ then _ else _ : Dev).ciph.writeQ = _; split <;> rfl
  exact ⟨_, by show e.ciph.writeQ ++ _ = _; rw [h], rfl⟩
theorem forUp_writeQ (k : Nat) (p) : ∀ n (d : Dev), (forUpTo n (fun i d => toWriteQ k i p d) d).ciph.writeQ.length = d.ciph.writeQ.length + n := by
  intro n d
  unfold forUpTo
  induction n generalizing d with
  | zero => rfl
  | succ n ih =>
    rw [List.range_succ, List.foldl_append]
    show (toWriteQ k n p _).ciph.writeQ.length = _
    obtain ⟨w, hw, _⟩ := writeQ_toWriteQ k n p (List.foldl (fun s i => toWriteQ k i p s) d (List.range n))
    rw [hw, List.length_append, ih]; rfl
theorem mute_congr {d e : Dev} (h : e.host = d.host) (f : Nat) : e.mute f = d.mute f := by
  unfold Dev.mute Dev.insecure Dev.streamOf Dev.port Dev.portOf Dev.dual Dev.func; rw [h]
theorem mute_modSlot (d : Dev) (k : Nat) (g) (f : Nat) : (d.modSlot k g).mute f = d.mute f := by unfold Dev.modSlot; split <;> rfl
theorem mute_takeStage (t n : Nat) (d : Dev) (f : Nat) : (takeStage t n d).1.mute f = d.mute f := by unfold takeStage; split <;> rfl
theorem landHit_slots (k l : Nat) (d : Dev) : SlotsHeld d (landHit k l d) := by
  unfold landHit
  extract_lets d1 d2
  have h1 : SlotsHeld d d1 := .of_slots rfl rfl
  have h2 : SlotsHeld d1 d2 := by
    show SlotsHeld d1 (match d1.slot? k with | some x => d1.send (.hostRead x.fn k) | none => d1)
    split
    · exact .of_keeps (Dev.send_keeps _ _) (by rfl)
    · exact .refl _
  exact (h1.trans h2).trans ((SlotsHeld.modSlot _ _ _).trans (SlotsHeld.modSlot _ _ _))
theorem SlotsHeld.foldl {α : Type} {f : Dev → α → Dev} (h : ∀ d a, SlotsHeld d (f d a)) (l : List α) (d : Dev) : SlotsHeld d (l.foldl f d) :=
  foldl_inv (P := SlotsHeld) SlotsHeld.refl (fun _ _ _ => SlotsHeld.trans) h l d
theorem releaseRetries_slots (a b c e : Nat) (d : Dev) : SlotsHeld d (releaseRetries a b c e d) := by
  unfold releaseRetries
  exact SlotsHeld.foldl (fun d e => landHit_slots _ _ _) _ _
theorem commitZone_slots (k) (x) (n z) (d : Dev) : SlotsHeld d (commitZone k x n z d) := by
  unfold commitZone
  extract_lets s0 r p wp d1 d2
  have h2 : SlotsHeld d d2 := (modZone_slots _ _ _ _).trans ((syncZone_slots _ _ _).trans (.of_keeps (moveOut_keeps _ _ _ _ _) (by rfl)))
  split
  · exact h2.trans (releaseRetries_slots _ _ _ _ _)
  · exact h2
theorem commitConv_slots (x) (n) (d : Dev) : SlotsHeld d (commitConv x n d) := by
  unfold commitConv
  extract_lets t r p
  refine forUpTo_keeps (SlotsHeld d) (.refl _) fun i e he => he.trans ?_
  extract_lets key e1
  refine SlotsHeld.trans (e := e1) ?_ (.of_slots rfl rfl)
  show SlotsHeld e (match mapFind e.zm.conv key with | some (.cells h r) => dropStage t 1 r (freeSectorCells h e) | _ => e)
  split
  · exact SlotsHeld.trans (.of_keeps (freeSectorCells_keeps _ _) (by rfl)) (dropStage_slots _ _ _ _)
  · exact .refl _
theorem commitZone_wp (k) (x : Slot) (n z) (d : Dev) : ((commitZone k x n z d).zone n z).wp = x.start - zoneStart z + x.total := by
  unfold commitZone
  extract_lets s0 r p wp d1 d2
  have h1 : (d1.zone n z).wp = x.start - zoneStart z + x.total := by
    show ((d.modZone _ _ _).zone n z).wp = _
    rw [zone_modZone_same]
  have h2 : d2.zm = d1.zm := ((moveOut_keeps _ _ _ _ _).zm (by rfl)).trans ((syncZone_keeps _ _ _).zm (by rfl))
  have h3 : (d2.zone n z).wp = (d1.zone n z).wp := by unfold Dev.zone; rw [h2]
  split
  · have : (releaseRetries n x.sqe.token x.total x.start d2).zm = d2.zm := (releaseRetries_keeps _ _ _ _ _).zm (by rfl)
    unfold Dev.zone at *; rw [this, h3, h1]
  · rw [h3, h1]
theorem modNs_zone (d : Dev) (n f m z) : (d.modNs n f).zone m z = d.zone m z := by unfold Dev.modNs; split <;> rfl

end Sys2Proof.Machine
end

