-- ==== Sys2Proof/Laws/Cam.lean ====
section
/-! SUPPORT. The pool's areas and the entries and result registers of the CAM. -/

namespace Sys2Proof.Machine
theorem poolFits_congr {d e : Dev} (h1 : ∀ r : RegDef, r ∈ [Rg.CELL_DRAM_N, Rg.CELL_BASE_LO, Rg.CELL_BASE_HI, Rg.CELL_LINK_BASE_LO, Rg.CELL_LINK_BASE_HI, Rg.CELL_META_BASE_LO, Rg.CELL_META_BASE_HI, Rg.CELL_RING_BASE_LO, Rg.CELL_RING_BASE_HI] →
    e.regGet r 0 0 = d.regGet r 0 0) (h2 : e.dram = d.dram) : e.poolFits = d.poolFits := by
  simp only [List.mem_cons, forall_eq_or_imp, List.not_mem_nil, IsEmpty.forall_iff, implies_true, and_true] at h1
  obtain ⟨a0, a1, a2, a3, a4, a5, a6, a7, a8⟩ := h1
  have hn : e.rd Fd.CELL_DRAM_N_N = d.rd Fd.CELL_DRAM_N_N := by unfold Dev.rd Dev.rdx; rw [show Fd.CELL_DRAM_N_N.reg = Rg.CELL_DRAM_N from rfl, a0]
  unfold Dev.poolFits Dev.poolAreas Dev.base
  rw [hn, a1, a2, a3, a4, a5, a6, a7, a8, h2]
theorem cam_fields (d : Dev) (g v : Nat) : (d.camOpFields g v).cam = d.cam ∧ (d.camOpFields g v).rdb g Fd.CAM_IDX_INDEX = d.rdb g Fd.CAM_IDX_INDEX ∧
    (d.camOpFields g v).camEnt g = d.camEnt g := by
  have h : ∀ r : RegDef, r.num % 512 ≠ Rg.CAM_OP.num % 512 → (d.camOpFields g v).regGet r 0 g = d.regGet r 0 g := by
    intro r hr
    unfold Dev.camOpFields
    extract_lets e
    have he : e.regGet r 0 g = d.regGet r 0 g := Dev.regGet_wrx_reg hr
    split
    · exact (Dev.regGet_wrx_reg hr).trans he
    · exact he
  have h' : ∀ f : Fld, f.reg.num % 512 ≠ Rg.CAM_OP.num % 512 → (d.camOpFields g v).rdb g f = d.rdb g f := by
    intro f hf; unfold Dev.rdb Dev.rdx; rw [h _ hf]
  refine ⟨(Dev.camOpFields_keeps _ _ _).cam (by rfl), h' _ (by decide), ?_⟩
  unfold Dev.camEnt
  rw [h' _ (by decide), h' _ (by decide), h' _ (by decide), h' _ (by decide), h' _ (by decide), h' _ (by decide)]
theorem cam_row {f : Nat → Nat → Dev → Dev} {op : Nat} {g : Fin 64} {v : Word} {s : State} {Q : Dev → Prop} (h : bits v.toNat 30 4 = 0) (hq : Q (f g (setBits v.toNat 2 0 op) s.dev)) :
    GivesDev (camOp f op g v s) s Q := givesDev_orRsv (by simp [camOpRsv, h]) hq
theorem camRes_get (d : Dev) (g st : Nat) (h : st * 2 ^ 23 < 2 ^ 32) : (d.camRes g st).regGet Rg.CAM_RES 0 g = st * 2 ^ 23 := by
  unfold Dev.camRes; rw [Dev.regGet_regSet_same, Nat.mod_eq_of_lt h]
theorem camRes_zero (d : Dev) (g : Nat) : (d.camRes g 0).regGet Rg.CAM_RES 0 g = 0 := (camRes_get d g 0 (by decide)).trans (by decide)
theorem camRes_cam (d : Dev) (g st : Nat) : (d.camRes g st).cam = d.cam := (Dev.camRes_keeps d g st).cam (by rfl)
theorem setBits_top (w v : Nat) (h : w < 2 ^ 192) : setBits w 191 191 v < 2 ^ 192 := by
  unfold setBits bits
  have h1 : w / 2 ^ 191 % 2 ^ (191 - 191 + 1) = w / 2 ^ 191 := Nat.mod_eq_of_lt (by omega)
  rw [h1]
  have h2 : v % 2 ^ (191 - 191 + 1) < 2 := Nat.mod_lt _ (by decide)
  omega
theorem setCamEnt_ent (d : Dev) (g x : Nat) (hx : x < 2 ^ 192) : (d.setCamEnt g x).camEnt g = BitVec.ofNat 192 x := by
  unfold Dev.camEnt Dev.setCamEnt
  simp (disch := decide) only [Dev.wrb, Dev.rdb, Dev.rdx_wrx_reg, Dev.rdx_wrx_self]
  congr 1
  simp only [show Fd.CAM_ENT_D0_DW.hi - Fd.CAM_ENT_D0_DW.lo + 1 = 32 from rfl, show Fd.CAM_ENT_D1_DW.hi - Fd.CAM_ENT_D1_DW.lo + 1 = 32 from rfl, show Fd.CAM_ENT_D2_DW.hi - Fd.CAM_ENT_D2_DW.lo + 1 = 32 from rfl, show Fd.CAM_ENT_D3_DW.hi - Fd.CAM_ENT_D3_DW.lo + 1 = 32 from rfl, show Fd.CAM_ENT_D4_DW.hi - Fd.CAM_ENT_D4_DW.lo + 1 = 32 from rfl, show Fd.CAM_ENT_D5_DW.hi - Fd.CAM_ENT_D5_DW.lo + 1 = 32 from rfl]
  omega

end Sys2Proof.Machine
end

