-- ==== Sys2Proof/Laws/Channel.lean ====
section
/-! SUPPORT. Channels: what a completion does to its channel, and what keeps the grant on the bus. -/

namespace Sys2Proof.Machine

/-- Every channel has the same grant on its bus, the same next command slot and the same hatch in `e` as in `d`. -/
structure HoldKeeps (d e : Dev) : Prop where
  holder : ∀ n, (e.chan n).holder = (d.chan n).holder
  nextSlot : ∀ n, (e.chan n).nextSlot = (d.chan n).nextSlot

theorem HoldKeeps.refl (d : Dev) : HoldKeeps d d := ⟨fun _ => rfl, fun _ => rfl⟩
theorem HoldKeeps.trans {d e f : Dev} (h1 : HoldKeeps d e) (h2 : HoldKeeps e f) : HoldKeeps d f :=
  ⟨fun n => (h2.holder n).trans (h1.holder n), fun n => (h2.nextSlot n).trans (h1.nextSlot n)⟩
theorem HoldKeeps.of_chans {d e : Dev} (h : e.chans = d.chans) : HoldKeeps d e :=
  ⟨fun n => by rw [Dev.chan_congr h], fun n => by rw [Dev.chan_congr h]⟩
theorem HoldKeeps.modChan (d : Dev) (n : Nat) {f : Chan → Chan} (h : ∀ c, (f c).holder = c.holder ∧ (f c).nextSlot = c.nextSlot) :
    HoldKeeps d (d.modChan n f) := by
  constructor <;> intro m <;> by_cases e : m = n
  · rw [e, Dev.chan_modChan_same, (h _).1]
  · rw [Dev.chan_modChan_other _ _ e]
  · rw [e, Dev.chan_modChan_same, (h _).2]
  · rw [Dev.chan_modChan_other _ _ e]
theorem HoldKeeps.setChan (d : Dev) (n : Nat) {c : Chan} (h : c.holder = (d.chan n).holder ∧ c.nextSlot = (d.chan n).nextSlot) :
    HoldKeeps d (d.setChan n c) := by
  constructor <;> intro m <;> by_cases e : m = n
  · rw [e, Dev.chan_setChan_same, h.1]
  · rw [Dev.chan_setChan_other _ _ e]
  · rw [e, Dev.chan_setChan_same, h.2]
  · rw [Dev.chan_setChan_other _ _ e]
theorem HoldKeeps.modDie (d : Dev) (n t : Nat) (f : Die → Die) : HoldKeeps d (d.modDie n t f) := .modChan _ _ fun _ => ⟨rfl, rfl⟩

/-- What a completion adds to its channel: the entry in the completion buffer, and on the die the tag window, and a failed block's state. -/
theorem complete_chan (n : Nat) (q : QDesc) (r : Done) (d : Dev) : (complete n q r d).chan n =
    { d.chan n with
      cq := (d.chan n).cq ++ [mkCqEntry q.desc q.dup r.status r.dieStatus r.susps r.busy r.proofCw r.proofMax]
      tmoRun := (d.chan n).tmoNext r.status }.modDie
      q.desc.target fun y =>
        let y := { y with done := (mkCqEntry q.desc q.dup r.status r.dieStatus r.susps r.busy r.proofCw r.proofMax :: y.done).take 32 }
        if decide (r.status = 0x10) || decide (r.status = 0x11) then y.setBlock q.desc.block 1 else y := by
  unfold complete
  simp only [Dev.chan_congr (Dev.flagcIf_chans _ _ _ _)]
  rw [Dev.chan_congr (Dev.modMed_chans _ _), Dev.chan_modChan_same]

theorem HoldKeeps.of_keeps {m : Nat} {d e : Dev} (k : DevKeeps m d e) (h : m.testBit 4 = false) : HoldKeeps d e := .of_chans (k.chans h)

theorem complete_holds (n : Nat) (q : QDesc) (r : Done) (d : Dev) : HoldKeeps d (complete n q r d) := by
  unfold complete
  extract_lets x e failed d1 d2 d3
  have h1 : HoldKeeps d d1 := HoldKeeps.modChan _ n fun c => ⟨rfl, rfl⟩
  clear_value d1
  have h2 : HoldKeeps d d2 := h1.trans (.of_chans rfl)
  clear_value d2
  exact (h2.trans (.of_keeps (Dev.flagcIf_keeps _ _ _ _) (by rfl))).trans (.of_keeps (Dev.flagcIf_keeps _ _ _ _) (by rfl))

theorem addc_holds (d : Dev) (n : Nat) (f : Fld) (k : Nat) : HoldKeeps d (d.addc n f k) := .of_chans (Dev.addc_chans _ _ _ _)
theorem tearUnit_holds (die : Nat) (x : Desc) (d : Dev) : HoldKeeps d (tearUnit die x d) := .of_keeps (tearUnit_keeps die x d) (by rfl)
theorem storeUnit_holds (die : Nat) (x : Desc) (l : List Sector) (d : Dev) : HoldKeeps d (storeUnit die x l d) :=
  .of_keeps (storeUnit_keeps die x l d) (by rfl)
theorem moveConv_holds (die : Nat) (x : Desc) (d : Dev) : HoldKeeps d (moveConv die x d) := .of_keeps (moveConv_keeps die x d) (by rfl)
theorem wearBlock_holds (a b : Nat) (c : Bool) (d : Dev) : HoldKeeps d (wearBlock a b c d) := .of_keeps (wearBlock_keeps a b c d) (by rfl)
theorem eraseBlock_holds (a b : Nat) (d : Dev) : HoldKeeps d (eraseBlock a b d) := .of_keeps (eraseBlock_keeps a b d) (by rfl)
theorem tearBlock_holds (a b : Nat) (d : Dev) : HoldKeeps d (tearBlock a b d) := .of_keeps (tearBlock_keeps a b d) (by rfl)
theorem tearOp_holds (n t : Nat) (d : Dev) : HoldKeeps d (tearOp n t d) := .of_keeps (tearOp_keeps n t d) (by rfl)
theorem endOps_holds (n t st : Nat) (d : Dev) : HoldKeeps d (endOps n t st d) := by
  unfold endOps
  extract_lets x d1 d2
  have h1 : HoldKeeps d d1 := by
    subst d1; split
    · split
      · exact .modDie _ _ _ _
      · exact (HoldKeeps.modDie _ _ _ _).trans (complete_holds _ _ _ _)
    · exact .refl _
  clear_value d1
  have h2 : HoldKeeps d d2 := by
    subst d2; split
    · split
      · exact (h1.trans (.modDie _ _ _ _)).trans (complete_holds _ _ _ _)
      · exact h1
    · exact h1
  clear_value d2
  exact h2.trans (.modChan _ _ fun _ => ⟨rfl, rfl⟩)
theorem countSusp_holds (n t : Nat) (d : Dev) : HoldKeeps d (countSusp n t d) := by
  unfold countSusp
  extract_lets d1
  have h1 : HoldKeeps d d1 := addc_holds _ _ _ _
  clear_value d1
  split
  · extract_lets d2
    have h2 : HoldKeeps d d2 := h1.trans (.modDie _ _ _ _)
    clear_value d2
    split
    · exact h2.trans (addc_holds _ _ _ _)
    · exact h2
  · exact h1
theorem setRead_holds (n t : Nat) (q : QDesc) (long : Bool) (st : DieState) (d : Dev) : HoldKeeps d (setRead n t q long st d) := by
  unfold setRead
  extract_lets run d1 d2 d3
  have h2 : HoldKeeps d d2 := (HoldKeeps.modDie _ _ _ _).trans (.of_chans rfl)
  have h3 : HoldKeeps d d3 := by
    subst d3; split
    · split
      · exact h2
      · exact h2.trans (.of_keeps (Dev.modSlot_keeps _ _ _) (by rfl))
    · exact h2
  exact iteP (P := HoldKeeps d) (fun _ => h3.trans (.of_keeps (wantReplace_keeps _ _ _ _ _) (by rfl))) (fun _ => h3)
theorem grantReadStart_holds (n t : Nat) (q : QDesc) (m : ReadMode) (d : Dev) : HoldKeeps d (grantReadStart n t q m d) := by
  unfold grantReadStart
  extract_lets x a b c1 c2 w1 w2
  have ha : HoldKeeps d a := .modDie _ _ _ _
  have hb : HoldKeeps d b := ((countSusp_holds n t d).trans (.modDie _ _ _ _ : HoldKeeps _ (suspendOp n t _))).trans
    (.modChan _ _ fun _ => ⟨rfl, rfl⟩)
  have hc1 : HoldKeeps d c1 := HoldKeeps.trans (countSusp_holds n t d) (.modChan _ _ fun _ => ⟨rfl, rfl⟩)
  have hc2 : HoldKeeps d c2 := hc1.trans (.modDie _ _ _ _)
  have hw1 : HoldKeeps d w1 := addc_holds _ _ _ _
  have hw2 : HoldKeeps d w2 := hw1.trans (setRead_holds _ _ _ _ _ _)
  clear_value a b c2 w2
  cases m
  · exact ha.trans (setRead_holds _ _ _ _ _ _)
  · exact hb.trans (setRead_holds _ _ _ _ _ _)
  · exact hc2.trans (setRead_holds _ _ _ _ _ _)
  · dsimp only
    split
    · exact hw2.trans (.modDie _ _ _ _)
    · exact hw2
theorem opReady_holds (n t : Nat) (o : PeOp) (p : PollResult) (d : Dev) : HoldKeeps d (opReady n t o p d) := by
  unfold opReady
  extract_lets x busy d1 r die d2 d3
  have h1 : HoldKeeps d d1 := .modDie _ _ _ _
  clear_value d1
  split
  · split
    · exact ((h1.trans (tearBlock_holds _ _ _)).trans (wearBlock_holds _ _ _ _)).trans (complete_holds _ _ _ _)
    · exact (h1.trans (tearUnit_holds _ _ _)).trans (complete_holds _ _ _ _)
  · have h3 : HoldKeeps d d3 := by
      subst d3; split
      · exact (h1.trans (wearBlock_holds _ _ _ _)).trans (eraseBlock_holds _ _ _)
      · split
        · exact (h1.trans (storeUnit_holds _ _ _ _)).trans (moveConv_holds _ _ _)
        · exact h1.trans (storeUnit_holds _ _ _ _)
    clear_value d3
    split
    · exact h3.trans (complete_holds _ _ _ _)
    · exact h3.trans (.modDie _ _ _ _)
theorem grantPoll_holds (n t : Nat) (r : Req) (p : PollResult) (d : Dev) : HoldKeeps d (grantPoll n t r p d) := by
  unfold grantPoll
  extract_lets x
  split
  · exact (HoldKeeps.modDie _ _ _ _).trans (complete_holds _ _ _ _)
  · split
    · split
      · exact opReady_holds _ _ _ _ _
      · exact .modDie _ _ _ _
    · exact .refl _
theorem grantResume_holds (n t : Nat) (d : Dev) : HoldKeeps d (grantResume n t d) := by
  unfold grantResume; split
  · exact .modDie _ _ _ _
  · exact .refl _
theorem grantStart_holds (n t : Nat) (r : Req) (d : Dev) : HoldKeeps d (grantStart n t r d) := by
  unfold grantStart
  extract_lets x
  split
  · exact .modDie _ _ _ _
  · split
    · exact .modDie _ _ _ _
    · exact .refl _
theorem grantReset_holds (n t : Nat) (r : Req) (d : Dev) : HoldKeeps d (grantReset n t r d) := by
  unfold grantReset
  split
  · exact (((HoldKeeps.modDie _ _ _ _).trans (tearOp_holds _ _ _)).trans (endOps_holds _ _ _ _)).trans (.modDie _ _ _ _)
  · exact .modDie _ _ _ _

/-- The granted request holds the bus: a command sequence 16 cycles, a burst to the end of its last codeword slot. -/
theorem grant_holder (n i : Nat) (r : Req) (p : PollResult) (d : Dev) :
    ((grant n i r p d).chan n).holder = some
      { req := { r with wait := 0, forced := false }
        first := (d.chan n).rate.firstCw i
        len := r.len
        endC := if r.len = 0 then (d.chan n).rate.cmdStart i + 16 else (d.chan n).rate.cwEnd ((d.chan n).rate.firstCw i + r.len - 1)
        moving := r.kind == .load || (r.kind == .readOut && p.ready)
        owned := (d.chan n).ownsStroke r.cls } ∧
    ((grant n i r p d).chan n).nextSlot = (d.chan n).nextSlot := by
  have hb : ∀ mv, ((holdBus n i r mv d).chan n).holder = some
      { req := { r with wait := 0, forced := false }
        first := (d.chan n).rate.firstCw i
        len := r.len
        endC := if r.len = 0 then (d.chan n).rate.cmdStart i + 16 else (d.chan n).rate.cwEnd ((d.chan n).rate.firstCw i + r.len - 1)
        moving := mv
        owned := (d.chan n).ownsStroke r.cls } ∧ ((holdBus n i r mv d).chan n).nextSlot = (d.chan n).nextSlot := by
    intro mv; unfold holdBus; rw [Dev.chan_modChan_same]; exact ⟨rfl, rfl⟩
  obtain ⟨b1, b2⟩ := hb (r.kind == .load || (r.kind == .readOut && p.ready))
  have key : HoldKeeps (holdBus n i r (r.kind == .load || (r.kind == .readOut && p.ready)) d) (grant n i r p d) := by
    unfold grant
    extract_lets t d1 d2
    change HoldKeeps d1 _
    clear_value d1
    split
    · split
      · split
        · exact grantReadStart_holds _ _ _ _ _
        · exact .refl _
      · exact .refl _
    · have h2 : HoldKeeps d1 d2 := .modDie _ _ _ _
      clear_value d2
      split
      · exact h2
      · exact h2.trans (.modChan _ _ fun _ => ⟨rfl, rfl⟩)
    · exact grantPoll_holds _ _ _ _ _
    · exact grantResume_holds _ _ _
    · exact grantStart_holds _ _ _ _
    · exact .modDie _ _ _ _
    · exact grantReset_holds _ _ _ _
  exact ⟨(key.holder n).trans b1, (key.nextSlot n).trans b2⟩

theorem settleDie_holds (n t : Nat) : ∀ (k : Nat) (d : Dev), HoldKeeps d (settleDie n t k d)
  | 0, d => .refl d
  | k + 1, d => by
    unfold settleDie
    split
    · split
      · extract_lets d1 d2
        have h1 : HoldKeeps d d1 := .modChan _ _ fun _ => ⟨rfl, rfl⟩
        have h2 : HoldKeeps d d2 :=
          iteP (P := HoldKeeps d) (fun _ => h1.trans (.modDie _ _ _ _)) (fun _ => (h1.trans (.modDie _ _ _ _)).trans (complete_holds _ _ _ _))
        exact h2.trans (settleDie_holds n t k d2)
      · exact .refl d
    · exact .refl d
theorem finishProofs_holds (n t : Nat) : ∀ (k : Nat) (d : Dev), HoldKeeps d (finishProofs n t k d)
  | 0, d => .refl d
  | k + 1, d => by
    unfold finishProofs
    split
    · extract_lets d1
      have h1 : HoldKeeps d d1 := .modDie _ _ _ _
      exact (h1.trans (complete_holds _ _ _ _)).trans (finishProofs_holds n t k _)
    · exact .refl d
theorem settleDups_holds (n : Nat) : ∀ (k : Nat) (d : Dev), HoldKeeps d (settleDups n k d)
  | 0, d => .refl d
  | k + 1, d => by
    unfold settleDups
    extract_lets c
    split
    · split
      · refine HoldKeeps.trans ?_ (settleDups_holds n k _)
        exact .setChan _ _ ⟨rfl, rfl⟩
      · exact .refl d
    · exact .refl d
theorem addReq_holds (d : Dev) (n : Nat) (r : Req) : HoldKeeps d (d.addReq n r) := .modChan _ _ fun _ => ⟨rfl, rfl⟩
theorem raiseRead_holds (n t : Nat) (d : Dev) : HoldKeeps d (raiseRead n t d) := by
  unfold raiseRead
  extract_lets c x
  split
  · split
    · exact .modChan _ _ fun _ => ⟨rfl, rfl⟩
    · split
      · exact .refl d
      · exact addReq_holds _ _ _
  · split
    · split
      · exact addReq_holds _ _ _
      · exact .refl d
    · exact .refl d
theorem raiseOp_holds (n t : Nat) (x : Die) (d : Dev) : HoldKeeps d (raiseProg.raiseOp n t x d) := by
  unfold raiseProg.raiseOp
  split
  · split
    · exact addReq_holds _ _ _
    · exact addReq_holds _ _ _
    · split
      · exact addReq_holds _ _ _
      · exact .refl d
    · split
      · exact addReq_holds _ _ _
      · exact .refl d
    · split
      · exact addReq_holds _ _ _
      · exact .refl d
  · split
    · split
      · exact .refl d
      · split
        · split
          · exact addReq_holds _ _ _
          · exact .refl d
        · split
          · exact addReq_holds _ _ _
          · exact .refl d
    · exact .refl d
theorem raiseProg_holds (n t : Nat) (d : Dev) : HoldKeeps d (raiseProg n t d) := by
  unfold raiseProg
  extract_lets c x
  split
  · exact .refl d
  · split
    · exact addReq_holds _ _ _
    · split
      · split
        · exact addReq_holds _ _ _
        · exact raiseOp_holds _ _ _ _
      · exact raiseOp_holds _ _ _ _
theorem refreshDie_holds (n t : Nat) (d : Dev) : HoldKeeps d (refreshDie n t d) := by
  unfold refreshDie
  extract_lets d1 d2 d3
  have h1 : HoldKeeps d d1 := settleDie_holds _ _ _ _
  have h2 : HoldKeeps d d2 := h1.trans (finishProofs_holds _ _ _ _)
  have h3 : HoldKeeps d d3 := h2.trans (settleDups_holds _ _ _)
  clear_value d3
  split
  · exact (h3.trans (raiseRead_holds _ _ _)).trans (raiseProg_holds _ _ _)
  · exact h3
/-- Raising requests leaves the grant on the bus. -/
theorem refreshChan_holds (n : Nat) (d : Dev) : HoldKeeps d (refreshChan n d) := by
  unfold refreshChan
  exact forUpTo_keeps (fun e => HoldKeeps d e) (.refl d) fun t e h => h.trans (refreshDie_holds n t e)


theorem Dev.holds_congr {d e : Dev} {n : Nat} (hr : (e.chan n).rate = (d.chan n).rate)
    (ho : ∀ k, (e.chan n).ownsStroke k = (d.chan n).ownsStroke k) (i : Nat) (r : Req) (p : PollResult) : e.holds n i r p = d.holds n i r p := by
  unfold Dev.holds; rw [hr, ho]

theorem winAt_holder (n i : Nat) (r : Req) (p : PollResult) (d : Dev) :
    ((winAt n i r p d).chan n).holder = some (d.holds n i r p) ∧ ((winAt n i r p d).chan n).nextSlot = (d.chan n).nextSlot := by
  unfold winAt
  extract_lets c tierO lent d1 d2 d3
  have h1 : (d1.chan n).rate = (d.chan n).rate ∧ (∀ k, (d1.chan n).ownsStroke k = (d.chan n).ownsStroke k) ∧
      (d1.chan n).nextSlot = (d.chan n).nextSlot := by
    subst d1; split
    · unfold countLosses
      rw [Dev.chan_congr (Dev.wrc_chans _ _ _ _), Dev.chan_setChan_same]; exact ⟨rfl, fun _ => rfl, rfl⟩
    · exact ⟨rfl, fun _ => rfl, rfl⟩
  clear_value d1
  have h2 : (d2.chan n).rate = (d1.chan n).rate ∧ (∀ k, (d2.chan n).ownsStroke k = (d1.chan n).ownsStroke k) ∧
      (d2.chan n).nextSlot = (d1.chan n).nextSlot := by
    subst d2; split
    · rw [Dev.chan_modChan_same, Dev.chan_congr (Dev.addc_chans _ _ _ _)]; exact ⟨rfl, fun _ => rfl, rfl⟩
    · exact ⟨rfl, fun _ => rfl, rfl⟩
  clear_value d2
  have h3 : d3.chan n = d2.chan n := by
    subst d3; split
    · rw [Dev.chan_congr (Dev.wrc_chans _ _ _ _), Dev.chan_congr (Dev.addc_chans _ _ _ _)]
    · rfl
  clear_value d3
  obtain ⟨g1, g2⟩ := grant_holder n i r p d3
  rw [g2, h3, h2.2.2, h1.2.2]
  refine ⟨?_, rfl⟩
  refine g1.trans ?_
  rw [← Dev.holds_congr (e := d3) (d := d) (by rw [h3, h2.1, h1.1]) (fun k => by rw [h3, h2.2.1, h1.2.1])]
  rfl
theorem takeDesc_posts (n g : Nat) (x : Desc) (dev : Bool) (d : Dev) : Posts n g x dev d (postDesc n g x dev d) := by
  unfold Posts postDesc
  split
  · next h =>
    have k := d.wrx_keeps n g Fd.SEQ_POST_STAT_RESULT 1
    have hr : (d.wrx n g Fd.SEQ_POST_STAT_RESULT 1).rdx n g Fd.SEQ_POST_STAT_RESULT = 1 := by
      rw [Dev.rdx_wrx_self ⟨by decide, by decide⟩]; rfl
    generalize d.wrx n g Fd.SEQ_POST_STAT_RESULT 1 = e at *
    have hc : e.chan n = d.chan n := k.chan _ (by rfl)
    refine ⟨?_, ?_, ?_⟩
    · rw [← hr]; exact (takeDesc_keeps n _ false e).rdx _ _ _ (by rfl)
    · intro ht
      unfold Dev.die at ht ⊢
      unfold takeDesc
      simp only [hc]
      have f1 : (!((d.chan n).retired || ((d.chan n).die x.target).st == .retired) && x.tag != 0 && ((d.chan n).die x.target).tagLive x.tag) = false := by
        rcases ht with ht | ⟨ht, -⟩ <;> simp [ht]
      have f2 : (if ((d.chan n).retired || ((d.chan n).die x.target).st == .retired) || x.tag == 0 then none
          else ((d.chan n).die x.target).doneTag x.tag) = none := by
        split
        · rfl
        · next hn => rcases ht with ht | ⟨-, ht⟩
                     · simp [ht] at hn
                     · exact ht
      simp only [f1, f2, Bool.false_eq_true, if_false]
      rw [← Dev.die, Dev.die_modDie_same]
      show ((e.chan n).die x.target).queue ++ _ = _
      rw [hc]
    · intro h1 h2 h3 h4
      unfold Dev.die at h2 h4 ⊢
      unfold takeDesc
      simp only [hc]
      have f1 : (!((d.chan n).retired || ((d.chan n).die x.target).st == .retired) && x.tag != 0 && ((d.chan n).die x.target).tagLive x.tag) = true := by
        rw [h1, h4, beq_false_of_ne h2, bne_iff_ne.2 h3]; rfl
      rw [if_pos f1]
      refine ⟨?_, ?_⟩
      · rw [Dev.rdc_wrc_same _ _ _ (by decide) (by decide)]; rfl
      · rw [Dev.chan_congr (Dev.wrc_chans _ _ _ _), Dev.chan_congr (Dev.addc_chans _ _ _ _), ← Dev.die, Dev.die_modDie_same, Dev.die, hc]
        simp [Die.markDup]
  · refine ⟨?_, Dev.wrx_chans _ _ _ _ _⟩
    rw [Dev.rdx_wrx_self ⟨by decide, by decide⟩]; rfl
theorem toSlot_next (d : Dev) (n i : Nat) : ((d.toSlot n i).chan n).nextSlot = i + 1 ∧ ((d.toSlot n i).chan n).holder = (d.chan n).holder := by
  unfold Dev.toSlot; rw [Dev.chan_modChan_same]; exact ⟨rfl, by rw [Dev.chan_congr (Dev.atCycle_chans _ _)]⟩
theorem preemptLoad_chan (n i : Nat) (h : Holder) (d : Dev) : (preemptLoad n i h d).chan n =
    { ((sentCws n h.req.target ((d.chan n).rate.firstCw i - h.first) d).chan n).requeue
        { h.req with progress := h.req.progress + ((d.chan n).rate.firstCw i - h.first),
                     len := h.req.len - ((d.chan n).rate.firstCw i - h.first) } with holder := none } := by
  unfold preemptLoad
  rw [Dev.chan_congr (Dev.wrc_chans _ _ _ _), Dev.chan_congr (Dev.addc_chans _ _ _ _), Dev.chan_modChan_same]
/-- Codewords sent change nothing of the channel but the die's operation. -/
theorem sentCws_pq (n t k : Nat) (d : Dev) : ((sentCws n t k d).chan n).pq = (d.chan n).pq ∧ ((sentCws n t k d).chan n).arrivals = (d.chan n).arrivals ∧
    ((sentCws n t k d).chan n).rate = (d.chan n).rate := by
  unfold sentCws Dev.modDie; rw [Dev.chan_modChan_same]; exact ⟨rfl, rfl, rfl⟩
theorem trackEye_chan (n t : Nat) (dr) (d : Dev) (m : Nat) : (((trackEye n t dr d).chan m).holder = (d.chan m).holder) ∧ ((trackEye n t dr d).chan m).cq = (d.chan m).cq ∧
    (∀ u, ((trackEye n t dr d).die m u).rd = (d.die m u).rd) := by
  unfold trackEye
  cases dr with
  | none => exact ⟨rfl, rfl, fun _ => rfl⟩
  | some up =>
    by_cases h : m = n
    · subst h
      refine ⟨?_, ?_, fun u => ?_⟩
      · show ((d.modChan m _).chan m).holder = _; rw [Dev.chan_modChan_same]; rfl
      · show ((d.modChan m _).chan m).cq = _; rw [Dev.chan_modChan_same]; rfl
      · unfold Dev.modDie Dev.die
        rw [Dev.chan_modChan_same]; unfold Chan.modDie
        by_cases e : u = t
        · subst e; rw [Chan.die_setDie_same]
        · unfold Chan.setDie Chan.die; simp only; rw [mapGet_set_other _ _ _ _ e]
    · unfold Dev.modDie Dev.die; rw [Dev.chan_modChan_other _ _ h]; exact ⟨rfl, rfl, fun _ => rfl⟩
theorem Chan.die_modDie_same (c : Chan) (t : Nat) (f : Die → Die) : (c.modDie t f).die t = f (c.die t) := Chan.die_setDie_same _ _ _
theorem modDie_chan (d : Dev) (n t : Nat) (f : Die → Die) : (d.modDie n t f).chan n = (d.chan n).modDie t f := Dev.chan_modChan_same _ _ _
theorem Chan.modDie_holder (c : Chan) (t f) : (c.modDie t f).holder = c.holder := rfl
theorem Chan.die_cq (c : Chan) (x k t) : ({ c with cq := x, tmoRun := k } : Chan).die t = c.die t := rfl
theorem Chan.modDie_cq (c : Chan) (t f) : (c.modDie t f).cq = c.cq := rfl
theorem readDone_read (n : Nat) (r : RdOp) (ow zs) (d : Dev) (h1 : r.q.desc.op = 1) (h2 : r.q.desc.raw = false) (h3 : ldpcTag r.q.desc.tag = false) :
    ((readDone n r ow zs d).chan n).holder = (d.chan n).holder ∧ ((readDone n r ow zs d).die n r.q.desc.target).rd = none ∧
    ((readDone n r ow zs d).chan n).cq = (d.chan n).cq ++ [mkCqEntry r.q.desc r.q.dup 0 r.status 0 r.busy 0 0] ∧
    (readDone n r ow zs d).ecc.items.length = d.ecc.items.length + maskCount r.q.desc.cwmask := by
  unfold readDone
  simp only [h1, h2, h3, Bool.false_eq_true, if_false]
  rw [if_neg (show ¬ (1:Nat) = 4 by decide)]
  unfold Dev.die
  rw [modDie_chan, Dev.chan_congr ((toHard_keeps _ _ _ _).chans (by rfl))]
  unfold holdRead
  rw [modDie_chan, complete_chan, modDie_chan]
  refine ⟨by simp only [Chan.modDie_holder], ?_, by simp only [Chan.modDie_cq], ?_⟩
  · simp only [Chan.die_modDie_same]
    have : ∀ x : Die, x.rd = none → x.relax.rd = none := by intro x hx; unfold Die.relax; split <;> exact hx
    apply this
    simp only [Nat.reduceEqDiff, decide_false, Bool.or_self, Bool.false_eq_true, if_false]
    rw [Chan.die_cq, Chan.die_modDie_same]
  · show (toHard _ _ _ _).ecc.items.length = _
    unfold toHard
    show (_ ++ _ : List EccItem).length = _
    rw [List.length_append]
    show (complete _ _ _ _).ecc.items.length + _ = _
    rw [(complete_keeps _ _ _ _).ecc (by rfl)]
    simp [burstCws]
theorem complete_die (n t : Nat) (q : QDesc) (r : Done) (d : Dev) : ((complete n q r d).die n t).resetEnd = (d.die n t).resetEnd ∧
    ((complete n q r d).die n t).resetQ = (d.die n t).resetQ ∧ ((complete n q r d).die n t).st = (d.die n t).st := by
  unfold Dev.die
  rw [complete_chan]
  by_cases h : t = q.desc.target
  · subst h
    rw [Chan.die_modDie_same]
    split <;> exact ⟨rfl, rfl, rfl⟩
  · unfold Chan.modDie Chan.setDie Chan.die; simp only; rw [mapGet_set_other _ _ _ _ h]; exact ⟨rfl, rfl, rfl⟩

end Sys2Proof.Machine
end

