-- ==== Sys2Proof/Laws/Frame.lean ====
section
/-! SUPPORT. From the masks of Laws/Keeps.lean to the frames of Safety.lean. -/

namespace Sys2Proof.Machine

/-- The place of a part in a mask. -/
def Part.ix : Part → Nat
  | .nfree => 0
  | .bus => 2
  | .strk => 3
  | .chans => 4
  | .media => 5
  | .ecc => 6
  | .par => 7
  | .stip => 8
  | .ciph => 9
  | .dram => 10
  | .pool => 11
  | .host => 12
  | .zm => 13
  | .med => 14
  | .cam => 15
  | .grv => 16
  | .jnm => 17
  | .pwr => 18
  | .nvm => 19
  | .sys => 20
  | .dlk => 21
  | .out => 22
  | .mem => 23

theorem Part.same_of_keeps {m : Nat} {s t : State} (p : Part) (h : StateKeeps m s t) (hm : m.testBit p.ix = false) : p.same s t := by
  cases p
  case nfree => exact h.dev.nfree hm
  case bus => exact h.dev.bus hm
  case strk => exact h.dev.strk hm
  case chans => exact h.dev.chans hm
  case media => exact h.dev.media hm
  case ecc => exact h.dev.ecc hm
  case par => exact h.dev.par hm
  case stip => exact h.dev.stip hm
  case ciph => exact h.dev.ciph hm
  case dram => exact h.dev.dram hm
  case pool => exact h.dev.pool hm
  case host => exact h.dev.host hm
  case zm => exact h.dev.zm hm
  case med => exact h.dev.med hm
  case cam => exact h.dev.cam hm
  case grv => exact h.dev.grv hm
  case jnm => exact h.dev.jnm hm
  case pwr => exact h.dev.pwr hm
  case nvm => exact h.dev.nvm hm
  case sys => exact h.dev.sys hm
  case dlk => exact h.dev.dlk hm
  case out => exact h.dev.out hm
  case mem => exact h.mem hm

/-- The parts whose bits are set in a mask are among `ps`. -/
def partsIn (m : Nat) (ps : List Part) : Bool :=
  [.nfree, .bus, .strk, .chans, .media, .ecc, .par, .stip, .ciph, .dram, .pool, .host, .zm, .med, .cam, .grv, .jnm, .pwr, .nvm, .sys, .dlk,
    .out, .mem].all fun (p : Part) => decide (p ∈ ps) || !m.testBit p.ix

theorem partsIn_out {m : Nat} {ps : List Part} (h : partsIn m ps = true) {p : Part} (hn : p ∉ ps) : m.testBit p.ix = false := by
  have h1 := List.all_eq_true.mp h p (by cases p <;> decide)
  simpa [hn] using h1

/-- The bits of registers. -/
def regBits : List RegDef → Nat
  | [] => 0
  | r :: rs => 2 ^ (r.num % 256) * (2 ^ 256) ^ (r.num / 256 % 2) ||| regBits rs

theorem regBits_testBit {rs : List RegDef} {k : Nat} (h : ∀ q ∈ rs, q.num % 512 ≠ k) : (regBits rs).testBit k = false := by
  induction rs with
  | nil => simp [regBits]
  | cons r rs ih =>
    have e : 2 ^ (r.num % 256) * (2 ^ 256) ^ (r.num / 256 % 2) = 2 ^ (r.num % 512) := by
      rw [← Nat.pow_mul, ← Nat.pow_add]; congr 1; omega
    rw [regBits, e, Nat.testBit_or, ih fun q hq => h q (List.mem_cons_of_mem _ hq), Nat.testBit_two_pow]
    simpa using h r List.mem_cons_self

theorem frame_of_keeps {m : Nat} {ps : List Part} {rs : List RegDef} {s t : State} (h : StateKeeps m s t)
    (hp : partsIn m ps = true) (hr : m / 2 ^ 24 = regBits rs) : Frame ps rs s t := by
  refine ⟨h.pending, fun p hn => p.same_of_keeps h (partsIn_out hp hn), fun r hq n i => ?_⟩
  have hk : (r.key n i) % 512 = r.num % 512 := by unfold RegDef.key; omega
  have hb : m.testBit (24 + r.key n i % 512) = false := by
    rw [Nat.add_comm, ← Nat.testBit_div_two_pow, hr, hk]; exact regBits_testBit hq
  have e := h.dev.reg _ hb
  unfold Dev.regGet
  rw [mapGet_eq_getD, mapGet_eq_getD, e]

theorem partFrame_of_keeps {m : Nat} {ps : List Part} {s t : State} (h : StateKeeps m s t)
    (hp : partsIn m ps = true) : PartFrame ps s t :=
  ⟨h.pending, fun p hn => p.same_of_keeps h (partsIn_out hp hn)⟩

end Sys2Proof.Machine
end

