-- ==== Sys2Proof/Laws/Func.lean ====
section
/-! SUPPORT. What disabling a function and a port leaves. -/

namespace Sys2Proof.Machine

/-- The functions' own state is the same. -/
def SameFuncs (d e : Dev) : Prop := e.host.funcs = d.host.funcs
theorem sameFuncs_trans {d e f : Dev} (h1 : SameFuncs d e) (h2 : SameFuncs e f) : SameFuncs d f := Eq.trans h2 h1
theorem sameFuncs_of_keeps {m : Nat} {d e : Dev} (h : DevKeeps m d e) (hm : m.testBit 12 = false) : SameFuncs d e := by unfold SameFuncs; rw [h.host hm]
theorem giveUp_funcs (k : Nat) (d : Dev) : SameFuncs d (giveUp k d) := by
  unfold giveUp
  extract_lets d1 src d2
  have h1 : SameFuncs d d1 := by
    show SameFuncs d (match (d.slot? k).bind (·.cam) with | some i => d.camFree i | none => d)
    split
    · exact sameFuncs_of_keeps (Dev.camFree_keeps _ _) (by rfl)
    · rfl
  exact h1
theorem fate_funcs (k : Nat) (d : Dev) : SameFuncs d (fate k d) := by
  unfold fate
  split
  · rfl
  · split
    · exact giveUp_funcs _ _
    split
    · split
      · exact giveUp_funcs _ _
      · rfl
    split
    · exact sameFuncs_trans (withdrawCmd_slots _ _ _).funcs (giveUp_funcs _ _)
    split
    · exact sameFuncs_trans (sameFuncs_of_keeps (detachRead_keeps _ _) (by rfl)) (giveUp_funcs _ _)
    split
    · exact sameFuncs_trans (e := d.modZm _) rfl (giveUp_funcs _ _)
    split
    · rfl
    · exact giveUp_funcs _ _
theorem disableFunc_func (f : Nat) (flr : Bool) (d : Dev) : ∃ y, (disableFunc f flr d).func f = y ∧ y.en = false ∧ y.rdy = false ∧ y.stopping = true ∧ y.flr = flr ∧ y.sqs = [] ∧ y.cqs = [] := by
  unfold disableFunc
  extract_lets d1 mine d2 d3 d4 src d5
  have h1 : d1.func f = { d.func f with
      en := false, rdy := false, stopping := true, flr := flr, shn := false, shst := 0 } := Dev.func_modFunc_same _ _ _
  have h2 : d2.host.funcs = d1.host.funcs := foldl_inv (P := SameFuncs) (fun _ => rfl) (fun _ _ _ => sameFuncs_trans) (fun d k => fate_funcs k d) mine d1
  have h5 : d5.host.funcs = d2.host.funcs := by
    show (if isPf f then { d4 with pwr := { d4.pwr with sel := mapErase d4.pwr.sel f } } else d4 : Dev).host.funcs = _
    split <;> rfl
  have e5 : d5.func f = d1.func f := by unfold Dev.func; rw [h5, h2]
  clear_value d5
  refine ⟨_, rfl, ?_⟩
  rw [Dev.func_modFunc_same, e5, h1]
  exact ⟨rfl, rfl, rfl, rfl, rfl, rfl⟩
theorem vfsOff_port (p : Nat) (flr : Bool) (d : Dev) : ((vfsOff p flr d).port p).vfEnable = false ∧ ((vfsOff p flr d).port p).numVfs = 0 := by
  unfold vfsOff; rw [Dev.port_modPort_same]; exact ⟨rfl, rfl⟩
theorem port_of_host {d e : Dev} (h : e.host = d.host) (p : Nat) : e.port p = d.port p := by unfold Dev.port; rw [h]
theorem linkDown_port (p : Nat) (d : Dev) : ((linkDown p d).port p).up = false ∧ ((linkDown p d).port p).vfEnable = false ∧ ((linkDown p d).port p).secure = [] := by
  unfold linkDown
  extract_lets fs d1 d2 d3
  rw [port_of_host ((portFault_keeps _).host (by rfl)), port_of_host ((linkEvent_keeps _ _).host (by rfl))]
  have : d3.port p = d2.port p := rfl
  rw [this, Dev.port_modPort_same]; exact ⟨rfl, rfl, rfl⟩
theorem mem_listAdd {l : List Nat} {k : Nat} : k ∈ listAdd l k := by
  unfold listAdd; split
  · assumption
  · simp
theorem onMailbox_gives {p : Nat} {s : State} {f : Dev → Dev} {Q : Dev → Prop} (h : s.dev.mailbox p) (hq : Q (f s.dev)) : GivesDev (onMailbox p f s) s Q := by
  unfold onMailbox
  exact givesDev_onlyIf (by simp [h.1, h.2]) hq
theorem afterNegotiation_agreed {p : Nat} {algs : List Nat} {f : Dev → Dev} {d : Dev} (h : d.agreed p algs) : afterNegotiation p algs f d = f d := by
  unfold afterNegotiation
  dsimp only
  rw [if_neg (by simp [h.1]), if_pos (List.all_eq_true.2 h.2)]
theorem inSession_open {p n : Nat} {f : Dev → Dev} {d : Dev} (h : (d.spdm p).session n = some true) : inSession p n f d = f d := by
  unfold inSession; rw [if_pos h]
theorem spdm_modSpdm (d : Dev) (p : Nat) (f : Spdm → Spdm) : (d.modSpdm p f).spdm p = f (d.spdm p) := mapGet_mod_same _ _ _ _

end Sys2Proof.Machine
end

