-- ==== Sys2Proof/Laws/Health.lean ====
section
/-! SUPPORT. What the loss of a die or a channel does to the channels: nothing but block states (R116, R197, R446). -/

namespace Sys2Proof.Machine

/-- Only the block states of dies may differ between two states: channels, their queues and their dies are as they were. -/
def BlocksOnly (d e : Dev) : Prop :=
  ∀ n, (e.chan n).retired = (d.chan n).retired ∧ (e.chan n).pq = (d.chan n).pq ∧ ∀ t, (e.die n t).st = (d.die n t).st

theorem BlocksOnly.refl (d : Dev) : BlocksOnly d d := fun _ => ⟨rfl, rfl, fun _ => rfl⟩
theorem BlocksOnly.trans {d e f : Dev} (h : BlocksOnly d e) (k : BlocksOnly e f) : BlocksOnly d f :=
  fun n => ⟨(k n).1.trans (h n).1, (k n).2.1.trans (h n).2.1, fun t => ((k n).2.2 t).trans ((h n).2.2 t)⟩
theorem BlocksOnly.of_chans {d e : Dev} (h : e.chans = d.chans) : BlocksOnly d e := fun n => by
  have : e.chan n = d.chan n := by unfold Dev.chan; rw [h]
  exact ⟨by rw [this], by rw [this], fun t => by unfold Dev.die; rw [this]⟩
theorem BlocksOnly.foldl {α : Type} {f : Dev → α → Dev} (h : ∀ d a, BlocksOnly d (f d a)) (l : List α) (d : Dev) : BlocksOnly d (l.foldl f d) :=
  foldl_inv (P := BlocksOnly) BlocksOnly.refl (fun _ _ _ => BlocksOnly.trans) h l d
theorem BlocksOnly.setBlock (d : Dev) (n t b st : Nat) : BlocksOnly d (d.modDie n t fun x => x.setBlock b st) := fun m => by
  by_cases hm : m = n
  · subst hm
    refine ⟨by rw [modDie_chan]; rfl, by rw [modDie_chan]; rfl, fun u => ?_⟩
    unfold Dev.die
    rw [modDie_chan]
    by_cases hu : u = t
    · subst hu; rw [Chan.die_modDie_same]; rfl
    · unfold Chan.modDie Chan.setDie Chan.die; dsimp only; rw [mapGet_set_other _ _ _ _ hu]
  · have : (d.modDie n t fun x => x.setBlock b st).chan m = d.chan m := Dev.chan_modChan_other _ _ hm
    exact ⟨by rw [this], by rw [this], fun u => by unfold Dev.die; rw [this]⟩

theorem makeBad_blocks (die b cause : Nat) (d : Dev) : BlocksOnly d (makeBad die b cause d) := by
  unfold makeBad
  rcases d.roleOf die b with ⟨die0, role⟩
  dsimp -zeta only
  extract_lets own spare d1 d2 d3 d4
  have h1 : BlocksOnly d d1 := .of_chans ((badRecord_keeps _ _ _ _ _ _ _ _).chans (by rfl))
  have h2 : BlocksOnly d1 d2 := .setBlock _ _ _ _ _
  have h3 : BlocksOnly d2 d3 := .of_chans rfl
  have h4 : BlocksOnly d3 d4 := by
    simp only [d4]; split
    · split
      · exact .of_chans ((wantReplace_keeps _ _ _ _ _).chans (by rfl))
      · exact .refl _
    · exact .refl _
  refine .trans (.trans (.trans (.trans h1 h2) h3) h4) ?_
  split
  · exact .refl _
  · split
    · exact .of_chans ((replaceFixed_keeps _ _ _ _ _).chans (by rfl))
    · exact .of_chans rfl
theorem settleMembers_blocks (g r : Nat) (d : Dev) : BlocksOnly d (settleMembers g r d) := by
  unfold settleMembers
  extract_lets d1 gone d2
  have h1 : BlocksOnly d d1 := .foldl (fun e a => .of_chans ((swapBlock_keeps _ _ _).chans (by rfl))) _ _
  have h2 : BlocksOnly d1 d2 := .of_chans rfl
  refine .trans (.trans h1 h2) (.foldl (fun e a => ?_) _ _)
  split
  · exact makeBad_blocks _ _ _ _
  · exact .refl _
theorem retireRow_blocks (g r c : Nat) (d : Dev) : BlocksOnly d (retireRow g r c d) := by
  unfold retireRow
  extract_lets d1 d2
  exact .trans (.trans (settleMembers_blocks _ _ _) (.of_chans rfl)) (.of_chans ((badRecord_keeps _ _ _ _ _ _ _ _).chans (by rfl)))
theorem retireReserved_blocks (n g r c : Nat) (d : Dev) : BlocksOnly d (retireReserved n g r c d).1 := by
  unfold retireReserved
  extract_lets b d1
  have h1 : BlocksOnly d d1 := .trans (retireRow_blocks g r c d) (.of_chans ((Dev.modNs_keeps _ _ _).chans (by rfl)))
  exact .trans (.trans h1 (.of_chans ((takeUnassigned_keeps _ _).chans (by rfl)))) (.of_chans ((rowsLow_keeps _ _).chans (by rfl)))
theorem releaseRow_blocks (n g r : Nat) (d : Dev) : BlocksOnly d (releaseRow n g r d) := by
  unfold releaseRow
  extract_lets d1 w
  refine .trans (settleMembers_blocks g r d) ?_
  split
  · exact retireReserved_blocks _ _ _ _ _
  · split
    · exact retireReserved_blocks _ _ _ _ _
    · exact .trans (.of_chans rfl) (.of_chans ((eraseFar_keeps _ _ _).chans (by rfl)))
theorem emptyZone_blocks (o n z : Nat) (d : Dev) : BlocksOnly d (emptyZone o n z d) := by
  unfold emptyZone
  extract_lets x d1 d2 y d3
  have h1 : BlocksOnly d d1 := .of_chans ((discardStaged_keeps _ _ _ _).chans (by rfl))
  have h2 : BlocksOnly d1 d2 := by
    simp only [d2]; split
    · exact .trans (.of_chans ((abandonRowWork_keeps _ _ _).chans (by rfl))) (releaseRow_blocks _ _ _ _)
    · exact .refl _
  have h3 : BlocksOnly d2 d3 := .of_chans ((Dev.modZone_keeps _ _ _ _).chans (by rfl))
  exact .trans (.trans (.trans h1 h2) h3) (.of_chans ((syncZone_keeps _ _ _).chans (by rfl)))
theorem dropRefold_blocks (j c n) (d : Dev) : BlocksOnly d (dropRefold j c n d) := by
  unfold dropRefold
  extract_lets d1 d2 d3 d4 d5 d6
  have h1 : BlocksOnly d d1 := .of_chans ((Dev.release_keeps _ _).chans (by rfl))
  have h2 : BlocksOnly d1 d2 := by
    simp only [d2]; split
    · exact .of_chans ((dropStage_keeps _ _ _ _).chans (by rfl))
    · exact .refl _
  have h3 : BlocksOnly d2 d3 := .foldl (fun e a => .of_chans ((Dev.modZone_keeps _ _ _ _).chans (by rfl))) _ _
  have h4 : BlocksOnly d3 d4 := .of_chans rfl
  have h5 : BlocksOnly d4 d5 := .of_chans ((Dev.modZone_keeps _ _ _ _).chans (by rfl))
  have h6 : BlocksOnly d5 d6 := by
    simp only [d6]; split
    · exact .refl _
    · exact emptyZone_blocks _ _ _ _
  refine .trans (.trans (.trans (.trans (.trans (.trans h1 h2) h3) h4) h5) h6) ?_
  split
  · exact .of_chans ((refuseRefold_keeps _ _ _ _ _).chans (by rfl))
  · exact .refl _
theorem failRefolds_blocks (n z : Nat) (d : Dev) : BlocksOnly d (failRefolds n z d) := by
  unfold failRefolds
  refine .foldl (fun e j => ?_) _ _
  split
  · exact .refl _
  · split
    · exact dropRefold_blocks _ _ _ _
    · split
      · exact dropRefold_blocks _ _ _ _
      · exact .refl _
theorem zoneOffline_blocks (n z c : Nat) (d : Dev) : BlocksOnly d (zoneOffline n z c d) := by
  unfold zoneOffline
  extract_lets x d1 d2 d3
  split
  · exact .refl _
  · have h1 : BlocksOnly d d1 := by
      simp only [d1]; split
      · exact .of_chans ((abandonRowWork_keeps _ _ _).chans (by rfl))
      · exact .refl _
    have h2 : BlocksOnly d1 d2 := .trans (.of_chans ((failWriters_keeps n z d1).chans (by rfl))) (.of_chans ((loseZoneStaged_keeps n z _).chans (by rfl)))
    have h3 : BlocksOnly d2 d3 := .of_chans ((Dev.modZone_keeps _ _ _ _).chans (by rfl))
    exact .trans (.trans (.trans (.trans (.trans h1 h2) h3) (failRefolds_blocks n z d3)) (.of_chans ((reportZone_keeps _ _ _ _ _).chans (by rfl))))
      (.of_chans ((syncZone_keeps _ _ _).chans (by rfl)))
theorem loseMember_blocks (g r m c : Nat) (d : Dev) : BlocksOnly d (loseMember g r m c d) := by
  unfold loseMember
  extract_lets x d1
  split
  · exact .refl _
  · have h1 : BlocksOnly d d1 := .trans (.of_chans (e := d.modRow g r _) rfl) (.of_chans ((faultOn_keeps _ _).chans (by rfl)))
    refine .trans h1 ?_
    split
    · extract_lets d2 dest
      have h2 : BlocksOnly d1 d2 := by
        simp only [d2]; split
        · exact .of_chans ((loseStripe_keeps _ _ _ _ _).chans (by rfl))
        · exact .refl _
      refine .trans h2 ?_
      split
      · exact zoneOffline_blocks _ _ _ _
      · exact .of_chans rfl
    · exact .refl _
/-- The loss of a die takes its members from their rows: no die changes but in its blocks' states. -/
theorem loseDie_blocks (die c : Nat) (d : Dev) : BlocksOnly d (loseDie die c d) := by
  unfold loseDie
  extract_lets mem d1
  exact .trans (e := d1) (.of_chans rfl) (.foldl (fun e x => loseMember_blocks _ _ _ _ _) _ _)
theorem dieRetired_blocks (die c : Nat) (d : Dev) : BlocksOnly d (dieRetired die c d) := by
  unfold dieRetired
  extract_lets d1 d2
  exact .trans (.trans (.of_chans (e := d1) ((badRecord_keeps _ _ _ _ _ _ _ _).chans (by rfl))) (.of_chans (e := d2) rfl))
    (.trans (.of_chans ((faultOn_keeps _ _).chans (by rfl))) (loseDie_blocks _ _ _))
theorem chanRetired_blocks (n c : Nat) (l : List Nat) (d : Dev) : BlocksOnly d (chanRetired n c l d) := by
  unfold chanRetired
  extract_lets d1 d2
  exact .trans (.trans (.of_chans (e := d1) ((badRecord_keeps _ _ _ _ _ _ _ _).chans (by rfl))) (.of_chans (e := d2) rfl))
    (.trans (.of_chans ((faultOn_keeps _ _).chans (by rfl))) (.foldl (fun e x => loseDie_blocks _ _ _) _ _))

end Sys2Proof.Machine
end

