-- ==== Sys2Proof/Laws/KeepFollower.lean ====
section
/-! SUPPORT. What each operation of Machine/Follower.lean leaves as it was. -/

namespace Sys2Proof.Machine

theorem takeSectors_keeps (a0 : ℕ) (a1 : ℕ) (a2 : ℕ) (a3 : List Sector) (d : Dev) :
    DevKeeps 6293504 d (takeSectors a0 a1 a2 a3 d) := by
  unfold takeSectors
  split
  · rename_i v0_0 v0_1 q0
    have h1 : DevKeeps 6293504 d v0_1 := by
      refine SndP.get (P := (DevKeeps 6293504 d)) ?_ q0
      refine iteP (P := SndP (DevKeeps 6293504 d)) (fun _ => ?_) (fun _ => ?_)
      · refine SndP.mk ?_
        exact (.refl _ _)
      · exact DevKeeps.stepSnd (.refl _ _) (grantCells_keeps _ _ _) rfl
    extract_lets -merge -underBinder +onlyGivenNames x2
    have h2 : DevKeeps 6293504 d x2 := by
      subst x2
      exact (DevKeeps.step h1 (Dev.modPool_keeps _ _) rfl)
    clear_value x2
    exact (DevKeeps.step h2 (respondDlk_keeps _ _ _ _ _) rfl)

theorem beginJob_keeps (a0 : DlkJob) (d : Dev) :
    DevKeeps 0x180000000000000000000000000000000000000000000000000000000000000000000000000000000000000600852 d (beginJob a0 d) := by
  unfold beginJob
  split
  · extract_lets -merge -underBinder +onlyGivenNames x0
    have h0 : DevKeeps 0x180000000000000000000000000000000000000000000000000000000000000000000000000000000000000600852 d x0 := by
      subst x0
      exact (DevKeeps.step (.refl _ _) (Dev.modDlk_keeps _ _) rfl)
    clear_value x0
    exact (DevKeeps.step h0 (takeDesc_keeps _ _ _ _) rfl)
  · exact (DevKeeps.step (.refl _ _) (takeSectors_keeps _ _ _ _ _) rfl)
  · exact (.refl _ _)

theorem drainJobs_keeps (a0 : ℕ) (d : Dev) :
    DevKeeps 0x180000000000000000000000000000000000000000000000000000000000000000000000000000000000000600852 d (drainJobs a0 d) := by
  induction a0 generalizing d with
  | zero => exact DevKeeps.refl _ _
  | succ n ih =>
    unfold drainJobs
    split
    · refine iteP (P := DevKeeps 0x180000000000000000000000000000000000000000000000000000000000000000000000000000000000000600852 d) (fun _ => ?_) (fun _ => ?_)
      · exact DevKeeps.step (DevKeeps.step (DevKeeps.step (.refl _ _) (Dev.modDlk_keeps _ _) rfl) (beginJob_keeps _ _) rfl) (ih _) rfl
      · exact (.refl _ _)
    · exact (.refl _ _)

theorem beginJobs_keeps (d : Dev) :
    DevKeeps 0x180000000000000000000000000000000000000000000000000000000000000000000000000000000000000600852 d (beginJobs d) := by
  unfold beginJobs
  refine iteP (P := DevKeeps 0x180000000000000000000000000000000000000000000000000000000000000000000000000000000000000600852 d) (fun _ => ?_) (fun _ => ?_)
  · exact (.refl _ _)
  · exact (DevKeeps.step (.refl _ _) (drainJobs_keeps _ _) rfl)

end Sys2Proof.Machine
end

