-- ==== Sys2Proof/Laws/KeepFlags.lean ====
section
/-! SUPPORT. What each operation of Machine/Flags.lean leaves as it was. -/

namespace Sys2Proof.Machine

theorem Dev.modGraver_keeps (d : Dev) (a1 : ℕ) (a2 : Graver → Graver) :
    DevKeeps 65536 d (Dev.modGraver d a1 a2) := by
  unfold Dev.modGraver
  exact (DevKeeps.step (.refl _ _) (Dev.modGrv_keeps _ _) rfl)

theorem graverFault_keeps (d : Dev) :
    DevKeeps 0x30000002 d (graverFault d) := by
  unfold graverFault
  refine iteP (P := DevKeeps 0x30000002 d) (fun _ => ?_) (fun _ => ?_)
  · exact (DevKeeps.step (.refl _ _) (faultOff_keeps _ _) rfl)
  · exact (DevKeeps.step (.refl _ _) (faultOn_keeps _ _) rfl)

theorem onGraver_keeps {m g : Nat} {f : Dev → Except String Dev} {d0 d : Dev} (h : OkP (DevKeeps m d0) (f d)) :
    OkP (DevKeeps m d0) (onGraver g f d) := by
  unfold onGraver
  split
  · exact h
  · trivial

end Sys2Proof.Machine
end

