-- ==== Sys2Proof/Laws/KeepPower.lean ====
section
/-! SUPPORT. What each operation of Machine/Power.lean leaves as it was. -/

namespace Sys2Proof.Machine

theorem setTrim_keeps (a0 : ℕ) (a1 : ℕ) (d : Dev) :
    DevKeeps 0x3C00000000002 d (setTrim a0 a1 d) := by
  unfold setTrim
  split
  · exact (DevKeeps.step (.refl _ _) (Dev.wr_keeps _ _ _) (by rfl))
  · exact (DevKeeps.step (.refl _ _) (Dev.wr_keeps _ _ _) (by rfl))
  · exact (DevKeeps.step (.refl _ _) (Dev.wr_keeps _ _ _) (by rfl))
  · exact (DevKeeps.step (.refl _ _) (Dev.wr_keeps _ _ _) (by rfl))

theorem setVout_keeps (a0 : ℕ) (a1 : ℕ) (d : Dev) :
    DevKeeps 0x3C00000000002 d (setVout a0 a1 d) := by
  unfold setVout
  split
  · exact (DevKeeps.step (.refl _ _) (Dev.wr_keeps _ _ _) (by rfl))
  · exact (DevKeeps.step (.refl _ _) (Dev.wr_keeps _ _ _) (by rfl))
  · exact (DevKeeps.step (.refl _ _) (Dev.wr_keeps _ _ _) (by rfl))
  · exact (DevKeeps.step (.refl _ _) (Dev.wr_keeps _ _ _) (by rfl))

theorem sendVolt_keeps (a0 : ℕ) (d : Dev) :
    DevKeeps 0x3C00000400002 d (sendVolt a0 d) := by
  unfold sendVolt
  extract_lets -merge -underBinder +onlyGivenNames x0
  clear_value x0
  refine DevKeeps.step ?_ (setVout_keeps _ _ _) rfl
  exact DevKeeps.set_out _ (.refl _ _) rfl

theorem planOp_keeps (d : Dev) :
    DevKeeps 0x3C00000440002 d (planOp d) := by
  unfold planOp
  extract_lets -merge -underBinder +onlyGivenNames x0
  clear_value x0
  extract_lets -merge -underBinder +onlyGivenNames x1
  have h1 : DevKeeps 0x3C00000440002 d x1 := by
    subst x1
    refine iteP (P := DevKeeps 0x3C00000440002 d) (fun _ => ?_) (fun _ => ?_)
    · exact (.refl _ _)
    · exact (DevKeeps.step (.refl _ _) (Dev.modPwr_keeps _ _) rfl)
  clear_value x1
  refine iteP (P := DevKeeps 0x3C00000440002 d) (fun _ => ?_) (fun _ => ?_)
  · exact h1
  · refine iteP (P := DevKeeps 0x3C00000440002 d) (fun _ => ?_) (fun _ => ?_)
    · exact (DevKeeps.step (DevKeeps.step h1 (sendVolt_keeps _ _) rfl) (Dev.modPwr_keeps _ _) rfl)
    · exact (DevKeeps.step (DevKeeps.step h1 (sendVolt_keeps _ _) rfl) (Dev.modPwr_keeps _ _) rfl)

theorem opCtlWrite_keeps (a0 : ℕ) (d : Dev) :
    DevKeeps 0x3E00000440002 d (opCtlWrite a0 d) := by
  unfold opCtlWrite
  exact (DevKeeps.step (DevKeeps.step (DevKeeps.step (.refl _ _) (Dev.wr_keeps _ _ _) (by rfl)) (Dev.wr_keeps _ _ _) (by rfl)) (planOp_keeps _) rfl)

theorem execOpTargetWrite_keeps (a0 : Word) (s : State) :
    NextP (StateKeeps 0x3E00000440003 s) (execOpTargetWrite a0 s) := by
  unfold execOpTargetWrite
  refine onDev_keeps ?_
  refine orRsv_keeps ?_ ?_ rfl
  · exact (.refl _ _)
  · exact (DevKeeps.step (.refl _ _) (opCtlWrite_keeps _ _) rfl)

theorem voltageConfirmed_keeps (d : Dev) :
    OkP (DevKeeps 0x3C00000440002 d) (voltageConfirmed d) := by
  unfold voltageConfirmed
  split
  · refine OkP.ok ?_
    exact (DevKeeps.step (DevKeeps.step (.refl _ _) (Dev.modPwr_keeps _ _) rfl) (planOp_keeps _) rfl)
  · exact trivial

theorem execVoltageConfirmed_keeps (s : State) :
    NextP (StateKeeps 0x3C00000440002 s) (execVoltageConfirmed s) := by
  unfold execVoltageConfirmed
  refine onDev_keeps ?_
  exact DevKeeps.stepOk (.refl _ _) (voltageConfirmed_keeps _) rfl

theorem execPmbusTransactionFail_keeps (s : State) :
    NextP (StateKeeps 0x200000000040002 s) (execPmbusTransactionFail s) := by
  unfold execPmbusTransactionFail
  refine onDev_keeps ?_
  refine always_keeps ?_
  beta_reduce
  exact (DevKeeps.step (DevKeeps.step (.refl _ _) (Dev.modPwr_keeps _ _) rfl) (Dev.wr_keeps _ _ _) (by rfl))

theorem trimWrite_keeps (a0 : ℕ) (a1 : ℕ) (d : Dev) :
    DevKeeps 0x3C00000400002 d (trimWrite a0 a1 d) := by
  unfold trimWrite
  extract_lets -merge -underBinder +onlyGivenNames x0
  clear_value x0
  extract_lets -merge -underBinder +onlyGivenNames x1
  have h1 : DevKeeps 0x3C00000400002 d x1 := by
    subst x1
    exact (DevKeeps.step (.refl _ _) (setTrim_keeps _ _ _) rfl)
  clear_value x1
  refine iteP (P := DevKeeps 0x3C00000400002 d) (fun _ => ?_) (fun _ => ?_)
  · exact (.refl _ _)
  · refine iteP (P := DevKeeps 0x3C00000400002 d) (fun _ => ?_) (fun _ => ?_)
    · exact (DevKeeps.step h1 (sendVolt_keeps _ _) rfl)
    · exact h1

theorem execOpTrimWrite_keeps (a0 : Fin 4) (a1 : Word) (s : State) :
    NextP (StateKeeps 0x3C00000400003 s) (execOpTrimWrite a0 a1 s) := by
  unfold execOpTrimWrite
  refine onDev_keeps ?_
  refine orRsv_keeps ?_ ?_ rfl
  · exact (.refl _ _)
  · exact (DevKeeps.step (.refl _ _) (trimWrite_keeps _ _ _) rfl)

theorem watchIdle_keeps (d : Dev) :
    DevKeeps 262144 d (watchIdle d) := by
  unfold watchIdle
  refine iteP (P := DevKeeps 262144 d) (fun _ => ?_) (fun _ => ?_)
  · refine iteP (P := DevKeeps 262144 d) (fun _ => ?_) (fun _ => ?_)
    · exact (DevKeeps.step (.refl _ _) (Dev.modPwr_keeps _ _) rfl)
    · exact (.refl _ _)
  · exact (DevKeeps.step (.refl _ _) (wakeIdle_keeps _) rfl)

theorem enterPs_keeps (a0 : ℕ) (d : Dev) :
    DevKeeps 0x200000000040002 d (enterPs a0 d) := by
  unfold enterPs
  refine iteP (P := DevKeeps 0x200000000040002 d) (fun _ => ?_) (fun _ => ?_)
  · exact (.refl _ _)
  · exact (DevKeeps.step (DevKeeps.step (.refl _ _) (Dev.modPwr_keeps _ _) rfl) (Dev.wr_keeps _ _ _) (by rfl))

theorem followSelection_keeps (d : Dev) :
    DevKeeps 0x200000000040002 d (followSelection d) := by
  unfold followSelection
  refine iteP (P := DevKeeps 0x200000000040002 d) (fun _ => ?_) (fun _ => ?_)
  · exact (DevKeeps.step (.refl _ _) (enterPs_keeps _ _) rfl)
  · exact (.refl _ _)

theorem apstExpiry_keeps (a0 : ℕ) (d : Dev) :
    OkP (DevKeeps 262144 d) (apstExpiry a0 d) := by
  unfold apstExpiry
  extract_lets -merge -underBinder +onlyGivenNames x0
  clear_value x0
  extract_lets -merge -underBinder +onlyGivenNames x1
  clear_value x1
  refine iteP (P := OkP (DevKeeps 262144 d)) (fun _ => ?_) (fun _ => ?_)
  · refine OkP.ok ?_
    exact (DevKeeps.step (.refl _ _) (Dev.modPwr_keeps _ _) rfl)
  · exact trivial

theorem execApstIdleExpiry_keeps (a0 : Fin 2) (s : State) :
    NextP (StateKeeps 262144 s) (execApstIdleExpiry a0 s) := by
  unfold execApstIdleExpiry
  refine onDev_keeps ?_
  exact DevKeeps.stepOk (.refl _ _) (apstExpiry_keeps _ _) rfl

theorem refuseEntry_keeps (a0 : ℕ × ℕ) (d : Dev) :
    DevKeeps 0x260000000000002 d (refuseEntry a0 d) := by
  unfold refuseEntry
  exact (DevKeeps.step (DevKeeps.step (DevKeeps.step (DevKeeps.step (.refl _ _) (Dev.add_keeps _ _ _) (by rfl)) (Dev.wr_keeps _ _ _) (by rfl)) (Dev.wr_keeps _ _ _) (by rfl)) (Dev.wr_keeps _ _ _) (by rfl))

theorem withdrawDieRead_keeps (a0 : ℕ) (a1 : ℕ) (d : Dev) :
    DevKeeps 0x80000000000000000000000000000000000000000000000000000000000000000000000000000000000000000012 d (withdrawDieRead a0 a1 d) := by
  unfold withdrawDieRead
  split
  · refine iteP (P := DevKeeps 0x80000000000000000000000000000000000000000000000000000000000000000000000000000000000000000012 d) (fun _ => ?_) (fun _ => ?_)
    · exact (DevKeeps.step (DevKeeps.step (.refl _ _) (Dev.modChan_keeps _ _ _) rfl) (Dev.addc_keeps _ _ _ _) (by rfl))
    · exact (.refl _ _)
  · exact (.refl _ _)

theorem withdrawReads_keeps (d : Dev) :
    DevKeeps 0x80000000000000000000000000000000000000000000000000000000000000000000000000000000000000000012 d (withdrawReads d) := by
  unfold withdrawReads
  refine DevKeeps.forUpTo ?_ (fun a0 y0 h0 => ?_)
  · exact (.refl _ _)
  · beta_reduce
    refine DevKeeps.forUpTo ?_ (fun a1 y1 h1 => ?_)
    · exact h0
    · beta_reduce
      exact (DevKeeps.step h1 (withdrawDieRead_keeps _ _ _) rfl)

theorem psEntry_keeps (a0 : List ℕ) (d : Dev) :
    OkP (DevKeeps 0x80000000000000000000000000000000000000000000000000000000000000000000000000000263C00000440012 d) (psEntry a0 d) := by
  unfold psEntry
  extract_lets -merge -underBinder +onlyGivenNames x0
  have h0 : DevKeeps 0x80000000000000000000000000000000000000000000000000000000000000000000000000000263C00000440012 d x0 := by
    subst x0
    exact (DevKeeps.step (.refl _ _) (Dev.modPwr_keeps _ _) rfl)
  clear_value x0
  extract_lets -merge -underBinder +onlyGivenNames x1
  clear_value x1
  extract_lets -merge -underBinder +onlyGivenNames x2
  clear_value x2
  extract_lets -merge -underBinder +onlyGivenNames x3
  have h3 : DevKeeps 0x80000000000000000000000000000000000000000000000000000000000000000000000000000263C00000440012 d x3 := by
    subst x3
    refine iteP (P := DevKeeps 0x80000000000000000000000000000000000000000000000000000000000000000000000000000263C00000440012 d) (fun _ => ?_) (fun _ => ?_)
    · exact (DevKeeps.step h0 (refuseEntry_keeps _ _) rfl)
    · exact h0
  clear_value x3
  extract_lets -merge -underBinder +onlyGivenNames x4
  clear_value x4
  refine iteP (P := OkP (DevKeeps 0x80000000000000000000000000000000000000000000000000000000000000000000000000000263C00000440012 d)) (fun _ => ?_) (fun _ => ?_)
  · exact trivial
  · refine iteP (P := OkP (DevKeeps 0x80000000000000000000000000000000000000000000000000000000000000000000000000000263C00000440012 d)) (fun _ => ?_) (fun _ => ?_)
    · refine OkP.ok ?_
      exact h3
    · split
      · refine OkP.ok ?_
        exact (DevKeeps.step h3 (refuseEntry_keeps _ _) rfl)
      · extract_lets -merge -underBinder +onlyGivenNames x5
        have h5 : DevKeeps 0x80000000000000000000000000000000000000000000000000000000000000000000000000000263C00000440012 d x5 := by
          subst x5
          refine iteP (P := DevKeeps 0x80000000000000000000000000000000000000000000000000000000000000000000000000000263C00000440012 d) (fun _ => ?_) (fun _ => ?_)
          · exact (DevKeeps.step (DevKeeps.step h3 (enterPs_keeps _ _) rfl) (planOp_keeps _) rfl)
          · exact h3
        clear_value x5
        refine OkP.ok ?_
        exact (DevKeeps.step (DevKeeps.step h5 (withdrawReads_keeps _) rfl) (Dev.modPwr_keeps _ _) rfl)

theorem execPsEntryAttempt_keeps (a0 : List (Fin 4)) (s : State) :
    NextP (StateKeeps 0x80000000000000000000000000000000000000000000000000000000000000000000000000000263C00000440012 s) (execPsEntryAttempt a0 s) := by
  unfold execPsEntryAttempt
  refine onDev_keeps ?_
  exact DevKeeps.stepOk (.refl _ _) (psEntry_keeps _ _) rfl

theorem suspendAll_keeps (d : Dev) :
    DevKeeps 0x40000000000000000000000000000000000000000000000000000000000000000000000000000000000000000012 d (suspendAll d) := by
  unfold suspendAll
  refine DevKeeps.forUpTo ?_ (fun a0 y0 h0 => ?_)
  · exact (.refl _ _)
  · beta_reduce
    refine DevKeeps.forUpTo ?_ (fun a1 y1 h1 => ?_)
    · exact h0
    · beta_reduce
      split
      · refine iteP (P := DevKeeps 0x40000000000000000000000000000000000000000000000000000000000000000000000000000000000000000012 d) (fun _ => ?_) (fun _ => ?_)
        · exact (DevKeeps.step (DevKeeps.step (DevKeeps.step (DevKeeps.step h1 (countSusp_keeps _ _ _) rfl) (suspendOp_keeps _ _ _) rfl) (Dev.modChan_keeps _ _ _) rfl) (Dev.modDie_keeps _ _ _ _) rfl)
        · exact h1
      · exact h1

theorem reachPs3_keeps (d : Dev) :
    DevKeeps 0x40000000000000000000000000000000000000000000000000000000000000000000000000000203C00000440012 d (reachPs3 d) := by
  unfold reachPs3
  split
  · refine iteP (P := DevKeeps 0x40000000000000000000000000000000000000000000000000000000000000000000000000000203C00000440012 d) (fun _ => ?_) (fun _ => ?_)
    · exact (DevKeeps.step (DevKeeps.step (DevKeeps.step (DevKeeps.step (.refl _ _) (suspendAll_keeps _) rfl) (Dev.modPwr_keeps _ _) rfl) (enterPs_keeps _ _) rfl) (planOp_keeps _) rfl)
    · exact (.refl _ _)
  · exact (.refl _ _)

theorem exitPs3_keeps (d : Dev) :
    DevKeeps 0x203C00000440002 d (exitPs3 d) := by
  unfold exitPs3
  exact (DevKeeps.step (DevKeeps.step (DevKeeps.step (.refl _ _) (wakeIdle_keeps _) rfl) (enterPs_keeps _ _) rfl) (planOp_keeps _) rfl)

theorem setLevel_keeps (a0 : ℕ) (d : Dev) :
    DevKeeps 0x200000000040002 d (setLevel a0 d) := by
  unfold setLevel
  refine iteP (P := DevKeeps 0x200000000040002 d) (fun _ => ?_) (fun _ => ?_)
  · exact (.refl _ _)
  · exact (DevKeeps.step (DevKeeps.step (.refl _ _) (Dev.modPwr_keeps _ _) rfl) (Dev.wr_keeps _ _ _) (by rfl))

theorem powerStroke_keeps (a0 : ℕ) (d : Dev) :
    DevKeeps 0x40000000000000000000000000000000000000000000000000000000000000000000000000000203C00000440013 d (powerStroke a0 d) := by
  unfold powerStroke
  extract_lets -merge -underBinder +onlyGivenNames x0
  clear_value x0
  extract_lets -merge -underBinder +onlyGivenNames x1
  have h1 : DevKeeps 0x40000000000000000000000000000000000000000000000000000000000000000000000000000203C00000440013 d x1 := by
    subst x1
    refine iteP (P := DevKeeps 0x40000000000000000000000000000000000000000000000000000000000000000000000000000203C00000440013 d) (fun _ => ?_) (fun _ => ?_)
    · exact (DevKeeps.step (.refl _ _) (Dev.tick_keeps _ _) rfl)
    · exact (.refl _ _)
  clear_value x1
  extract_lets -merge -underBinder +onlyGivenNames x2
  have h2 : DevKeeps 0x40000000000000000000000000000000000000000000000000000000000000000000000000000203C00000440013 d x2 := by
    subst x2
    exact (DevKeeps.step h1 (Dev.modPwr_keeps _ _) rfl)
  clear_value x2
  extract_lets -merge -underBinder +onlyGivenNames x3
  have h3 : DevKeeps 0x40000000000000000000000000000000000000000000000000000000000000000000000000000203C00000440013 d x3 := by
    subst x3
    exact (DevKeeps.step (DevKeeps.step h2 (setLevel_keeps _ _) rfl) (followSelection_keeps _) rfl)
  clear_value x3
  extract_lets -merge -underBinder +onlyGivenNames x4
  have h4 : DevKeeps 0x40000000000000000000000000000000000000000000000000000000000000000000000000000203C00000440013 d x4 := by
    subst x4
    exact (DevKeeps.step h3 (Dev.modPwr_keeps _ _) rfl)
  clear_value x4
  exact (DevKeeps.step (DevKeeps.step (DevKeeps.step h4 (watchIdle_keeps _) rfl) (reachPs3_keeps _) rfl) (planOp_keeps _) rfl)

theorem recordWake_keeps (a0 : ℕ) (d : Dev) :
    DevKeeps 0x80000000000000002 d (recordWake a0 d) := by
  unfold recordWake
  exact (DevKeeps.step (.refl _ _) (Dev.wr_keeps _ _ _) (by rfl))

theorem wakeAlways_keeps (a0 : ℕ) (d : Dev) :
    DevKeeps 0x80263C000004C0002 d (wakeAlways a0 d) := by
  unfold wakeAlways
  extract_lets -merge -underBinder +onlyGivenNames x0
  have h0 : DevKeeps 0x80263C000004C0002 d x0 := by
    subst x0
    exact (DevKeeps.step (.refl _ _) (recordWake_keeps _ _) rfl)
  clear_value x0
  refine iteP (P := DevKeeps 0x80263C000004C0002 d) (fun _ => ?_) (fun _ => ?_)
  · exact (DevKeeps.step (DevKeeps.step h0 (wakeIdle_keeps _) rfl) (abortEntry_keeps _ _) rfl)
  · refine iteP (P := DevKeeps 0x80263C000004C0002 d) (fun _ => ?_) (fun _ => ?_)
    · exact (DevKeeps.step h0 (exitPs3_keeps _) rfl)
    · exact h0

theorem execThermNFall_keeps (s : State) :
    NextP (StateKeeps 0x80263C000004C0002 s) (execThermNFall s) := by
  unfold execThermNFall
  refine onDev_keeps ?_
  refine always_keeps ?_
  beta_reduce
  exact (DevKeeps.step (DevKeeps.step (DevKeeps.step (.refl _ _) (Dev.modPwr_keeps _ _) rfl) (setLevel_keeps _ _) rfl) (wakeAlways_keeps _ _) rfl)

theorem execClk32kStop_keeps (s : State) :
    NextP (StateKeeps 0x800000000000002 s) (execClk32kStop s) := by
  unfold execClk32kStop
  refine onDev_keeps ?_
  refine always_keeps ?_
  beta_reduce
  exact (DevKeeps.step (DevKeeps.step (.refl _ _) (Dev.wr_keeps _ _ _) (by rfl)) (Dev.wr_keeps _ _ _) (by rfl))

theorem setTicks_keeps (a0 : ℕ) (d : Dev) :
    DevKeeps 262144 d (setTicks a0 d) := by
  unfold setTicks
  exact (DevKeeps.step (.refl _ _) (Dev.modPwr_keeps _ _) rfl)

theorem saveTime_keeps (d : Dev) :
    DevKeeps 0x3C800000000000002 d (saveTime d) := by
  unfold saveTime
  extract_lets -merge -underBinder +onlyGivenNames x0
  have h0 : DevKeeps 0x3C800000000000002 d x0 := by
    subst x0
    exact (DevKeeps.step (DevKeeps.step (.refl _ _) (Dev.wr_keeps _ _ _) (by rfl)) (Dev.wr_keeps _ _ _) (by rfl))
  clear_value x0
  extract_lets -merge -underBinder +onlyGivenNames x1
  have h1 : DevKeeps 0x3C800000000000002 d x1 := by
    subst x1
    exact (DevKeeps.step (DevKeeps.step h0 (Dev.wr_keeps _ _ _) (by rfl)) (Dev.wr_keeps _ _ _) (by rfl))
  clear_value x1
  exact (DevKeeps.step h1 (Dev.wr_keeps _ _ _) (by rfl))

theorem startCounter_keeps (a0 : ℕ) (d : Dev) :
    DevKeeps 8 d (startCounter a0 d) := by
  unfold startCounter
  exact DevKeeps.set_strk _ (.refl _ _) rfl

end Sys2Proof.Machine
end

