-- ==== Sys2Proof/Laws/KeepFlush.lean ====
section
/-! SUPPORT. What each operation of Machine/Flush.lean leaves as it was. -/

namespace Sys2Proof.Machine

theorem commitPieces_keeps (a0 : List FlushUnit) (d : Dev) :
    DevKeeps 8192 d (commitPieces a0 d) := by
  unfold commitPieces
  exact (DevKeeps.step (.refl _ _) (Dev.modZm_keeps _ _) rfl)

theorem takeDir_keeps (a0 : List ℕ) (a1 : ℕ) (d : Dev) :
    DevKeeps 524288 d (takeDir a0 a1 d) := by
  unfold takeDir
  exact (DevKeeps.step (.refl _ _) (Dev.modNvm_keeps _ _) rfl)

theorem writeImage_keeps (a0 : List FlushUnit) (d : Dev) :
    DevKeeps 524288 d (writeImage a0 d) := by
  unfold writeImage
  extract_lets -merge -underBinder +onlyGivenNames x0
  clear_value x0
  extract_lets -merge -underBinder +onlyGivenNames x1
  clear_value x1
  extract_lets -merge -underBinder +onlyGivenNames x2
  clear_value x2
  extract_lets -merge -underBinder +onlyGivenNames x3
  have h3 : DevKeeps 524288 d x3 := by
    subst x3
    exact (DevKeeps.step (.refl _ _) (takeDir_keeps _ _ _) rfl)
  clear_value x3
  extract_lets -merge -underBinder +onlyGivenNames x4
  clear_value x4
  extract_lets -merge -underBinder +onlyGivenNames x5
  clear_value x5
  extract_lets -merge -underBinder +onlyGivenNames x6
  clear_value x6
  extract_lets -merge -underBinder +onlyGivenNames x7
  clear_value x7
  extract_lets -merge -underBinder +onlyGivenNames x8
  clear_value x8
  exact (DevKeeps.step h3 (Dev.modNvm_keeps _ _) rfl)

theorem rescueReady_keeps (d : Dev) :
    DevKeeps 524288 d (rescueReady d) := by
  unfold rescueReady
  refine DevKeeps.foldl ?_ (fun y0 a0 h0 => ?_)
  · exact (.refl _ _)
  · beta_reduce
    exact (DevKeeps.step h0 (Dev.modNvm_keeps _ _) rfl)

theorem eraseDirty_keeps (d : Dev) :
    DevKeeps 20480 d (eraseDirty d) := by
  unfold eraseDirty
  refine DevKeeps.foldl ?_ (fun y0 a0 h0 => ?_)
  · exact (.refl _ _)
  · beta_reduce
    refine iteP (P := DevKeeps 20480 d) (fun _ => ?_) (fun _ => ?_)
    · refine DevKeeps.forUpTo ?_ (fun a1 y1 h1 => ?_)
      · exact h0
      · beta_reduce
        split
        · refine iteP (P := DevKeeps 20480 d) (fun _ => ?_) (fun _ => ?_)
          · exact (DevKeeps.step h1 (orderErase_keeps _ _ _ _ _) rfl)
          · exact h1
    · exact h0

theorem releaseImages_keeps (d : Dev) :
    DevKeeps 524288 d (releaseImages d) := by
  unfold releaseImages
  refine DevKeeps.foldl ?_ (fun y0 a0 h0 => ?_)
  · exact (.refl _ _)
  · beta_reduce
    refine iteP (P := DevKeeps 524288 d) (fun _ => ?_) (fun _ => ?_)
    · exact h0
    · exact (DevKeeps.step (DevKeeps.step h0 (Dev.modNvm_keeps _ _) rfl) (dirtyImage_keeps _ _) rfl)

theorem endImage_keeps (d : Dev) :
    DevKeeps 0x90080002 d (endImage d) := by
  unfold endImage
  extract_lets -merge -underBinder +onlyGivenNames x0
  clear_value x0
  extract_lets -merge -underBinder +onlyGivenNames x1
  clear_value x1
  extract_lets -merge -underBinder +onlyGivenNames x2
  have h2 : DevKeeps 0x90080002 d x2 := by
    subst x2
    refine iteP (P := DevKeeps 0x90080002 d) (fun _ => ?_) (fun _ => ?_)
    · exact (.refl _ _)
    · refine DevKeeps.foldl ?_ (fun y3 a3 h3 => ?_)
      · exact (.refl _ _)
      · beta_reduce
        exact (DevKeeps.step h3 (dirtyImage_keeps _ _) rfl)
  clear_value x2
  extract_lets -merge -underBinder +onlyGivenNames x4
  have h4 : DevKeeps 0x90080002 d x4 := by
    subst x4
    exact (DevKeeps.step h2 (Dev.modNvm_keeps _ _) rfl)
  clear_value x4
  exact (DevKeeps.step (DevKeeps.step h4 (Dev.wr_keeps _ _ _) (by rfl)) (faultOff_keeps _ _) rfl)

theorem endDieWork_keeps (a0 : ℕ) (a1 : ℕ) (d : Dev) :
    DevKeeps 16417 d (endDieWork a0 a1 d) := by
  unfold endDieWork
  split
  · refine iteP (P := DevKeeps 16417 d) (fun _ => ?_) (fun _ => ?_)
    · refine iteP (P := DevKeeps 16417 d) (fun _ => ?_) (fun _ => ?_)
      · exact (DevKeeps.step (.refl _ _) (tearBlock_keeps _ _ _) rfl)
      · refine iteP (P := DevKeeps 16417 d) (fun _ => ?_) (fun _ => ?_)
        · exact (DevKeeps.step (DevKeeps.step (.refl _ _) (storeUnit_keeps _ _ _ _) rfl) (Dev.tick_keeps _ _) rfl)
        · exact (DevKeeps.step (.refl _ _) (tearUnit_keeps _ _ _) rfl)
    · exact (.refl _ _)
  · exact (.refl _ _)

theorem quietChan_keeps (a0 : ℕ) (d : Dev) :
    DevKeeps 16433 d (quietChan a0 d) := by
  unfold quietChan
  extract_lets -merge -underBinder +onlyGivenNames x0
  have h0 : DevKeeps 16433 d x0 := by
    subst x0
    refine DevKeeps.forUpTo ?_ (fun a1 y1 h1 => ?_)
    · exact (.refl _ _)
    · beta_reduce
      exact (DevKeeps.step h1 (endDieWork_keeps _ _ _) rfl)
  clear_value x0
  exact (DevKeeps.step h0 (Dev.modChan_keeps _ _ _) rfl)

theorem flushAll_keeps (a0 : Why) (d : Dev) :
    DevKeeps 0x3800000000000000000000000000000000003FFAF3 d (flushAll a0 d) := by
  unfold flushAll
  extract_lets -merge -underBinder +onlyGivenNames x0
  clear_value x0
  extract_lets -merge -underBinder +onlyGivenNames x1
  have h1 : DevKeeps 0x3800000000000000000000000000000000003FFAF3 d x1 := by
    subst x1
    exact (DevKeeps.step (DevKeeps.step (.refl _ _) (Dev.tick_keeps _ _) rfl) (disableAll_keeps _ _ _) rfl)
  clear_value x1
  extract_lets -merge -underBinder +onlyGivenNames x2
  have h2 : DevKeeps 0x3800000000000000000000000000000000003FFAF3 d x2 := by
    subst x2
    refine DevKeeps.forUpTo ?_ (fun a3 y3 h3 => ?_)
    · exact h1
    · exact (DevKeeps.step h3 (quietChan_keeps _ _) rfl)
  clear_value x2
  extract_lets -merge -underBinder +onlyGivenNames x4
  have h4 : DevKeeps 0x3800000000000000000000000000000000003FFAF3 d x4 := by
    subst x4
    exact (DevKeeps.step h2 (Dev.modHost_keeps _ _) rfl)
  clear_value x4
  extract_lets -merge -underBinder +onlyGivenNames x5
  have h5 : DevKeeps 0x3800000000000000000000000000000000003FFAF3 d x5 := by
    subst x5
    exact (DevKeeps.step h4 (Dev.modPwr_keeps _ _) rfl)
  clear_value x5
  exact (DevKeeps.step (DevKeeps.step (DevKeeps.step h5 (commitPieces_keeps _ _) rfl) (Dev.modSys_keeps _ _) rfl) (writeImage_keeps _ _) rfl)

theorem fatalStop_keeps (d : Dev) :
    DevKeeps 0x3800000000000000000000000000000000003FFAF3 d (fatalStop d) := by
  unfold fatalStop
  refine iteP (P := DevKeeps 0x3800000000000000000000000000000000003FFAF3 d) (fun _ => ?_) (fun _ => ?_)
  · exact (DevKeeps.step (.refl _ _) (flushAll_keeps _ _) rfl)
  · exact (.refl _ _)

theorem graverShortage_keeps (d : Dev) :
    DevKeeps 0x3800000000000000000000000000000000003FFAF3 d (graverShortage d) := by
  unfold graverShortage
  refine iteP (P := DevKeeps 0x3800000000000000000000000000000000003FFAF3 d) (fun _ => ?_) (fun _ => ?_)
  · exact (DevKeeps.step (.refl _ _) (fatalStop_keeps _) rfl)
  · exact (.refl _ _)

theorem execFatalStop_keeps (s : State) :
    NextP (StateKeeps 0x3800000000000000000000000000000000003FFAF3 s) (execFatalStop s) := by
  unfold execFatalStop
  refine onDev_keeps ?_
  beta_reduce
  refine onlyIf_keeps ?_
  exact (DevKeeps.step (.refl _ _) (fatalStop_keeps _) rfl)

theorem execThermalTrip_keeps (s : State) :
    NextP (StateKeeps 0x3800000000000000000000000002000000003FFAF3 s) (execThermalTrip s) := by
  unfold execThermalTrip
  refine onDev_keeps ?_
  beta_reduce
  refine onlyIf_keeps ?_
  beta_reduce
  exact (DevKeeps.step (DevKeeps.step (.refl _ _) (Dev.wr_keeps _ _ _) (by rfl)) (flushAll_keeps _ _) rfl)

theorem rstCold_keeps (d : Dev) :
    DevKeeps 0x3800000000000000000000000000000000003FFAF3 d (rstCold d) := by
  unfold rstCold
  refine iteP (P := DevKeeps 0x3800000000000000000000000000000000003FFAF3 d) (fun _ => ?_) (fun _ => ?_)
  · exact (DevKeeps.step (.refl _ _) (flushAll_keeps _ _) rfl)
  · split
    · exact (DevKeeps.step (.refl _ _) (Dev.modSys_keeps _ _) rfl)
    · exact (DevKeeps.step (.refl _ _) (Dev.modSys_keeps _ _) rfl)
    · exact (DevKeeps.step (.refl _ _) (Dev.modSys_keeps _ _) rfl)
    · exact (DevKeeps.step (.refl _ _) (Dev.modSys_keeps _ _) rfl)
    · exact (.refl _ _)

theorem execRstCtlCold_keeps (a0 : Word) (s : State) :
    NextP (StateKeeps 0x3800000000000000000000000000000000003FFAF3 s) (execRstCtlCold a0 s) := by
  unfold execRstCtlCold
  refine onDev_keeps ?_
  refine orRsv_keeps ?_ ?_ rfl
  · exact (.refl _ _)
  · exact (DevKeeps.step (.refl _ _) (rstCold_keeps _) rfl)

theorem pwrfailFall_keeps (d : Dev) :
    DevKeeps 0x380000000000000000000000080263C000007FFAF3 d (pwrfailFall d) := by
  unfold pwrfailFall
  extract_lets -merge -underBinder +onlyGivenNames x0
  have h0 : DevKeeps 0x380000000000000000000000080263C000007FFAF3 d x0 := by
    subst x0
    exact (DevKeeps.step (DevKeeps.step (.refl _ _) (Dev.modSys_keeps _ _) rfl) (wakeAlways_keeps _ _) rfl)
  clear_value x0
  refine iteP (P := DevKeeps 0x380000000000000000000000080263C000007FFAF3 d) (fun _ => ?_) (fun _ => ?_)
  · refine iteP (P := DevKeeps 0x380000000000000000000000080263C000007FFAF3 d) (fun _ => ?_) (fun _ => ?_)
    · exact h0
    · exact (DevKeeps.step h0 (flushAll_keeps _ _) rfl)
  · split
    · exact (DevKeeps.step h0 (Dev.modSys_keeps _ _) rfl)
    · exact (DevKeeps.step h0 (Dev.modSys_keeps _ _) rfl)
    · exact (DevKeeps.step h0 (Dev.modSys_keeps _ _) rfl)
    · exact h0

theorem execPwrfailFall_keeps (s : State) :
    NextP (StateKeeps 0x380000000000000000000000080263C000007FFAF3 s) (execPwrfailFall s) := by
  unfold execPwrfailFall
  refine onDev_keeps ?_
  refine always_keeps ?_
  exact (DevKeeps.step (.refl _ _) (pwrfailFall_keeps _) rfl)

theorem execPwrfailNRise_keeps (s : State) :
    NextP (StateKeeps 1048576 s) (execPwrfailNRise s) := by
  unfold execPwrfailNRise
  refine onDev_keeps ?_
  refine always_keeps ?_
  beta_reduce
  extract_lets -merge -underBinder +onlyGivenNames x0
  have h0 : DevKeeps 1048576 s.dev x0 := by
    subst x0
    exact (DevKeeps.step (.refl _ _) (Dev.modSys_keeps _ _) rfl)
  clear_value x0
  split
  · exact (DevKeeps.step h0 (Dev.modSys_keeps _ _) rfl)
  · exact h0

theorem execRailFault_keeps (s : State) :
    NextP (StateKeeps 1069105 s) (execRailFault s) := by
  unfold execRailFault
  refine onDev_keeps ?_
  refine always_keeps ?_
  beta_reduce
  extract_lets -merge -underBinder +onlyGivenNames x0
  have h0 : DevKeeps 1069105 s.dev x0 := by
    subst x0
    refine DevKeeps.forUpTo ?_ (fun a1 y1 h1 => ?_)
    · exact (.refl _ _)
    · exact (DevKeeps.step h1 (quietChan_keeps _ _) rfl)
  clear_value x0
  exact (DevKeeps.step (DevKeeps.step h0 (Dev.modHost_keeps _ _) rfl) (Dev.modSys_keeps _ _) rfl)

theorem afterFlush_keeps (a0 : Why) (a1 : Bool) (d : Dev) :
    DevKeeps 0x30100002 d (afterFlush a0 a1 d) := by
  unfold afterFlush
  refine iteP (P := DevKeeps 0x30100002 d) (fun _ => ?_) (fun _ => ?_)
  · exact (DevKeeps.step (.refl _ _) (Dev.modSys_keeps _ _) rfl)
  · split
    · exact (DevKeeps.step (.refl _ _) (Dev.modSys_keeps _ _) rfl)
    · exact (DevKeeps.step (.refl _ _) (Dev.modSys_keeps _ _) rfl)
    · exact (DevKeeps.step (DevKeeps.step (.refl _ _) (Dev.modSys_keeps _ _) rfl) (faultOn_keeps _ _) rfl)
    · exact (DevKeeps.step (DevKeeps.step (.refl _ _) (Dev.modSys_keeps _ _) rfl) (faultOn_keeps _ _) rfl)

theorem flushEnd_keeps (a0 : ℕ) (a1 : Bool) (d : Dev) :
    OkP (DevKeeps 0x1B0180002 d) (flushEnd a0 a1 d) := by
  unfold flushEnd
  split
  · extract_lets -merge -underBinder +onlyGivenNames x0
    have h0 : DevKeeps 0x1B0180002 d x0 := by
      subst x0
      exact (DevKeeps.step (DevKeeps.step (DevKeeps.step (.refl _ _) (endImage_keeps _) rfl) (Dev.wr_keeps _ _ _) (by rfl)) (Dev.wr_keeps _ _ _) (by rfl))
    clear_value x0
    refine OkP.ok ?_
    exact (DevKeeps.step h0 (afterFlush_keeps _ _ _) rfl)
  · exact trivial

theorem execFlushEnd_keeps (a0 : BitVec 16) (a1 : Bool) (s : State) :
    NextP (StateKeeps 0x1B0180002 s) (execFlushEnd a0 a1 s) := by
  unfold execFlushEnd
  refine onDev_keeps ?_
  exact DevKeeps.stepOk (.refl _ _) (flushEnd_keeps _ _ _) rfl

end Sys2Proof.Machine
end

