-- ==== Sys2Proof/Laws/KeepGraver.lean ====
section
/-! SUPPORT. What each operation of Machine/Graver.lean leaves as it was. -/

namespace Sys2Proof.Machine

theorem clearSram_keeps (a0 : Nat) (s : State) : StateKeeps 8388608 s (clearSram a0 s) :=
  StateKeeps.setMem (.refl _ _) (mapWf_filter _) rfl

theorem Dev.modEtch_keeps (d : Dev) (a1 : ℕ) (a2 : EtchSlot → EtchSlot) :
    DevKeeps 65536 d (Dev.modEtch d a1 a2) := by
  unfold Dev.modEtch
  exact (DevKeeps.step (.refl _ _) (Dev.modGrv_keeps _ _) rfl)

theorem memFill_wf {m : Memory} (a : Nat) (l : List Byte) (h : Memory.wf m = true) : Memory.wf (memFill m a l) = true := by
  induction l generalizing m a with
  | nil => exact h
  | cons b l ih => exact ih _ (mapWf_set _ _ h)

theorem etchStart_keeps (a0 a1 : Nat) (s : State) : StateKeeps 8454144 s (etchStart a0 a1 s) := by
  unfold etchStart
  try dsimp only
  refine StateKeeps.modDev (t := { s with mem := _ }) ?_ ((Dev.modGraver_keeps _ _ _).mono rfl)
  exact StateKeeps.setMem (.refl _ _) (fun h => memFill_wf _ _ (mapWf_filter _ h)) rfl

theorem releaseGraver_keeps (a0 : ℕ) (s : State) :
    StateKeeps 8454144 s (releaseGraver a0 s) := by
  unfold releaseGraver
  refine StateKeeps.modDev ?_ ?_
  · exact (StateKeeps.step (.refl _ _) (clearSram_keeps _ _) rfl)
  · beta_reduce
    exact (DevKeeps.step (StateKeeps.dev (StateKeeps.step (.refl _ _) (clearSram_keeps _ _) rfl)) (Dev.modGraver_keeps _ _ _) rfl)

theorem holdSpares_keeps (s : State) :
    StateKeeps 8454144 s (holdSpares s) := by
  unfold holdSpares
  refine StateKeeps.forUpTo ?_ (fun a0 y0 h0 => ?_)
  · exact (.refl _ _)
  · beta_reduce
    split
    · refine iteP (P := StateKeeps 8454144 s) (fun _ => ?_) (fun _ => ?_)
      · refine StateKeeps.modDev ?_ ?_
        · exact (StateKeeps.step h0 (clearSram_keeps _ _) rfl)
        · beta_reduce
          exact (DevKeeps.step (StateKeeps.dev (StateKeeps.step h0 (clearSram_keeps _ _) rfl)) (Dev.modGraver_keeps _ _ _) rfl)
      · exact h0
    · refine iteP (P := StateKeeps 8454144 s) (fun _ => ?_) (fun _ => ?_)
      · exact h0
      · refine StateKeeps.modDev ?_ ?_
        · exact h0
        · beta_reduce
          exact (DevKeeps.step (StateKeeps.dev h0) (Dev.modGraver_keeps _ _ _) rfl)
    · exact h0

theorem noteStop_keeps (a0 : ℕ) (a1 : ℕ) (d : Dev) :
    DevKeeps 0x2000000000000000000000000000000000000000000000000000000000000000000000000000000010002 d (noteStop a0 a1 d) := by
  unfold noteStop
  exact (DevKeeps.step (DevKeeps.step (.refl _ _) (Dev.modEtch_keeps _ _ _) rfl) (Dev.wr_keeps _ _ _) (by rfl))

theorem etchStop_keeps (a0 : ℕ) (a1 : ℕ) (s : State) :
    StateKeeps 0x2000000000000000000000000000000000000000000000000000000000000000000000000000000810002 s (etchStop a0 a1 s) := by
  unfold etchStop
  split
  · exact (.refl _ _)
  · extract_lets -merge -underBinder +onlyGivenNames x0
    have h0 : StateKeeps 0x2000000000000000000000000000000000000000000000000000000000000000000000000000000810002 s x0 := by
      subst x0
      refine StateKeeps.modDev ?_ ?_
      · exact (.refl _ _)
      · exact (DevKeeps.step (.refl _ _) (noteStop_keeps _ _ _) rfl)
    clear_value x0
    refine iteP (P := StateKeeps 0x2000000000000000000000000000000000000000000000000000000000000000000000000000000810002 s) (fun _ => ?_) (fun _ => ?_)
    · exact (StateKeeps.step h0 (etchStart_keeps _ _ _) rfl)
    · refine StateKeeps.step ?_ (releaseGraver_keeps _ _) rfl
      refine StateKeeps.modDev ?_ ?_
      · exact h0
      · beta_reduce
        exact (DevKeeps.step (StateKeeps.dev h0) (Dev.modEtch_keeps _ _ _) rfl)

theorem takeEtching_keeps (s : State) :
    StateKeeps 0x2000000000000000000000000000000000000000000000000000000000000000000000000000000810002 s (takeEtching s) := by
  unfold takeEtching
  refine iteP (P := StateKeeps 0x2000000000000000000000000000000000000000000000000000000000000000000000000000000810002 s) (fun _ => ?_) (fun _ => ?_)
  · exact (.refl _ _)
  · split
    · exact (.refl _ _)
    · extract_lets -merge -underBinder +onlyGivenNames x0
      have h0 : StateKeeps 0x2000000000000000000000000000000000000000000000000000000000000000000000000000000810002 s x0 := by
        subst x0
        refine StateKeeps.modDev ?_ ?_
        · exact (StateKeeps.step (.refl _ _) (clearSram_keeps _ _) rfl)
        · exact (DevKeeps.step (StateKeeps.dev (StateKeeps.step (.refl _ _) (clearSram_keeps _ _) rfl)) (noteStop_keeps _ _ _) rfl)
      clear_value x0
      refine StateKeeps.modDev ?_ ?_
      · exact h0
      · beta_reduce
        exact (DevKeeps.step (DevKeeps.step (StateKeeps.dev h0) (Dev.modEtch_keeps _ _ _) rfl) (Dev.modGraver_keeps _ _ _) rfl)

theorem dropSpare_keeps (a0 : ℕ) (d : Dev) :
    DevKeeps 0x3000000000000000000000000000000000000000000000000000000000000000000000000000002 d (dropSpare a0 d) := by
  unfold dropSpare
  refine iteP (P := DevKeeps 0x3000000000000000000000000000000000000000000000000000000000000000000000000000002 d) (fun _ => ?_) (fun _ => ?_)
  · exact (DevKeeps.step (.refl _ _) (Dev.wr_keeps _ _ _) (by rfl))
  · exact (DevKeeps.step (.refl _ _) (Dev.wr_keeps _ _ _) (by rfl))

theorem failGraver_keeps (a0 : ℕ) (a1 : ℕ) (s : State) :
    StateKeeps 0x2000003000000000000000000000000000000000000380000000000000000000000000000000030BFFAF3 s (failGraver a0 a1 s) := by
  unfold failGraver
  split
  · refine StateKeeps.modDev ?_ ?_
    · refine StateKeeps.step ?_ (takeEtching_keeps _) rfl
      refine StateKeeps.modDev ?_ ?_
      · exact (.refl _ _)
      · beta_reduce
        extract_lets -merge -underBinder +onlyGivenNames x0
        have h0 : DevKeeps 0x2000003000000000000000000000000000000000000380000000000000000000000000000000030BFFAF3 s.dev x0 := by
          subst x0
          split
          · exact (DevKeeps.step (.refl _ _) (Dev.modEtch_keeps _ _ _) rfl)
          · exact (.refl _ _)
        clear_value x0
        extract_lets -merge -underBinder +onlyGivenNames x1
        have h1 : DevKeeps 0x2000003000000000000000000000000000000000000380000000000000000000000000000000030BFFAF3 s.dev x1 := by
          subst x1
          exact (DevKeeps.step h0 (Dev.modGraver_keeps _ _ _) rfl)
        clear_value x1
        exact (DevKeeps.step (DevKeeps.step (DevKeeps.step h1 (Dev.modGrv_keeps _ _) rfl) (Dev.wr_keeps _ _ _) (by rfl)) (graverFault_keeps _) rfl)
    · refine DevKeeps.step ?_ (graverShortage_keeps _) rfl
      refine StateKeeps.dev ?_
      refine StateKeeps.step ?_ (takeEtching_keeps _) rfl
      refine StateKeeps.modDev ?_ ?_
      · exact (.refl _ _)
      · beta_reduce
        extract_lets -merge -underBinder +onlyGivenNames x2
        have h2 : DevKeeps 0x2000003000000000000000000000000000000000000380000000000000000000000000000000030BFFAF3 s.dev x2 := by
          subst x2
          split
          · exact (DevKeeps.step (.refl _ _) (Dev.modEtch_keeps _ _ _) rfl)
          · exact (.refl _ _)
        clear_value x2
        extract_lets -merge -underBinder +onlyGivenNames x3
        have h3 : DevKeeps 0x2000003000000000000000000000000000000000000380000000000000000000000000000000030BFFAF3 s.dev x3 := by
          subst x3
          exact (DevKeeps.step h2 (Dev.modGraver_keeps _ _ _) rfl)
        clear_value x3
        exact (DevKeeps.step (DevKeeps.step (DevKeeps.step h3 (Dev.modGrv_keeps _ _) rfl) (Dev.wr_keeps _ _ _) (by rfl)) (graverFault_keeps _) rfl)
  · refine StateKeeps.modDev ?_ ?_
    · refine StateKeeps.step ?_ (takeEtching_keeps _) rfl
      refine StateKeeps.modDev ?_ ?_
      · exact (.refl _ _)
      · beta_reduce
        extract_lets -merge -underBinder +onlyGivenNames x4
        have h4 : DevKeeps 0x2000003000000000000000000000000000000000000380000000000000000000000000000000030BFFAF3 s.dev x4 := by
          subst x4
          split
          · exact (DevKeeps.step (.refl _ _) (Dev.modEtch_keeps _ _ _) rfl)
          · exact (.refl _ _)
        clear_value x4
        extract_lets -merge -underBinder +onlyGivenNames x5
        have h5 : DevKeeps 0x2000003000000000000000000000000000000000000380000000000000000000000000000000030BFFAF3 s.dev x5 := by
          subst x5
          exact (DevKeeps.step h4 (Dev.modGraver_keeps _ _ _) rfl)
        clear_value x5
        exact (DevKeeps.step (DevKeeps.step (DevKeeps.step h5 (Dev.modGrv_keeps _ _) rfl) (Dev.wr_keeps _ _ _) (by rfl)) (graverFault_keeps _) rfl)
    · refine DevKeeps.step ?_ (graverShortage_keeps _) rfl
      refine StateKeeps.dev ?_
      refine StateKeeps.step ?_ (takeEtching_keeps _) rfl
      refine StateKeeps.modDev ?_ ?_
      · exact (.refl _ _)
      · beta_reduce
        extract_lets -merge -underBinder +onlyGivenNames x6
        have h6 : DevKeeps 0x2000003000000000000000000000000000000000000380000000000000000000000000000000030BFFAF3 s.dev x6 := by
          subst x6
          split
          · exact (DevKeeps.step (.refl _ _) (Dev.modEtch_keeps _ _ _) rfl)
          · exact (.refl _ _)
        clear_value x6
        extract_lets -merge -underBinder +onlyGivenNames x7
        have h7 : DevKeeps 0x2000003000000000000000000000000000000000000380000000000000000000000000000000030BFFAF3 s.dev x7 := by
          subst x7
          exact (DevKeeps.step h6 (Dev.modGraver_keeps _ _ _) rfl)
        clear_value x7
        exact (DevKeeps.step (DevKeeps.step (DevKeeps.step h7 (Dev.modGrv_keeps _ _) rfl) (Dev.wr_keeps _ _ _) (by rfl)) (graverFault_keeps _) rfl)
  · refine StateKeeps.modDev ?_ ?_
    · exact (.refl _ _)
    · beta_reduce
      exact (DevKeeps.step (DevKeeps.step (DevKeeps.step (.refl _ _) (Dev.modGraver_keeps _ _ _) rfl) (dropSpare_keeps _ _) rfl) (graverFault_keeps _) rfl)
  · exact (.refl _ _)
  · exact (.refl _ _)

theorem execEtchingStop_keeps (a0 : Fin 8) (a1 : Fin 4) (s : State) :
    NextP (StateKeeps 0x2000000000000000000000000000000000000000000000000000000000000000000000000000000810002 s) (execEtchingStop a0 a1 s) := by
  unfold execEtchingStop
  refine iteP (P := NextP (StateKeeps 0x2000000000000000000000000000000000000000000000000000000000000000000000000000000810002 s)) (fun _ => ?_) (fun _ => ?_)
  · refine NextP.next ?_
    exact (StateKeeps.step (.refl _ _) (etchStop_keeps _ _ _) rfl)
  · exact StateKeeps.stepNext (.refl _ _) (noEvent_keeps _ _) rfl

theorem execWatchdogExpiry_keeps (a0 : Fin 64) (s : State) :
    NextP (StateKeeps 0x2000003000000000000000000000000000000000000380000000000000000000000000000000030BFFAF3 s) (execWatchdogExpiry a0 s) := by
  unfold execWatchdogExpiry
  extract_lets -merge -underBinder +onlyGivenNames x0
  clear_value x0
  extract_lets -merge -underBinder +onlyGivenNames x1
  clear_value x1
  refine iteP (P := NextP (StateKeeps 0x2000003000000000000000000000000000000000000380000000000000000000000000000000030BFFAF3 s)) (fun _ => ?_) (fun _ => ?_)
  · exact StateKeeps.stepNext (.refl _ _) (noEvent_keeps _ _) rfl
  · split
    · refine NextP.next ?_
      exact (StateKeeps.step (.refl _ _) (failGraver_keeps _ _ _) rfl)
    · refine NextP.next ?_
      exact (StateKeeps.step (.refl _ _) (etchStop_keeps _ _ _) rfl)
    · exact StateKeeps.stepNext (.refl _ _) (noEvent_keeps _ _) rfl

theorem execGraverPet_keeps (a0 : Fin 64) (a1 : Word) (s : State) :
    NextP (StateKeeps 65536 s) (execGraverPet a0 a1 s) := by
  unfold execGraverPet
  refine onDev_keeps ?_
  refine always_keeps ?_
  beta_reduce
  exact (DevKeeps.step (.refl _ _) (Dev.modGraver_keeps _ _ _) rfl)

theorem runGraver_keeps (a0 : ℕ) (d : Dev) :
    DevKeeps 65536 d (runGraver a0 d) := by
  unfold runGraver
  exact (DevKeeps.step (.refl _ _) (Dev.modGraver_keeps _ _ _) rfl)

theorem grvCtlWrite_keeps (a0 : ℕ) (s : State) :
    StateKeeps 0x2000003000000000000000000000000000000000000380000000000000000000000000000000030BFFAF3 s (grvCtlWrite a0 s) := by
  unfold grvCtlWrite
  extract_lets -merge -underBinder +onlyGivenNames x0
  clear_value x0
  extract_lets -merge -underBinder +onlyGivenNames x1
  have h1 : StateKeeps 0x2000003000000000000000000000000000000000000380000000000000000000000000000000030BFFAF3 s x1 := by
    subst x1
    refine iteP (P := StateKeeps 0x2000003000000000000000000000000000000000000380000000000000000000000000000000030BFFAF3 s) (fun _ => ?_) (fun _ => ?_)
    · refine StateKeeps.modDev ?_ ?_
      · exact (.refl _ _)
      · exact (DevKeeps.step (.refl _ _) (runGraver_keeps _ _) rfl)
    · exact (.refl _ _)
  clear_value x1
  extract_lets -merge -underBinder +onlyGivenNames x2
  have h2 : StateKeeps 0x2000003000000000000000000000000000000000000380000000000000000000000000000000030BFFAF3 s x2 := by
    subst x2
    refine iteP (P := StateKeeps 0x2000003000000000000000000000000000000000000380000000000000000000000000000000030BFFAF3 s) (fun _ => ?_) (fun _ => ?_)
    · refine StateKeeps.modDev ?_ ?_
      · exact h1
      · beta_reduce
        exact (DevKeeps.step (DevKeeps.step (StateKeeps.dev h1) (Dev.modGraver_keeps _ _ _) rfl) (graverShortage_keeps _) rfl)
    · exact h1
  clear_value x2
  extract_lets -merge -underBinder +onlyGivenNames x3
  have h3 : StateKeeps 0x2000003000000000000000000000000000000000000380000000000000000000000000000000030BFFAF3 s x3 := by
    subst x3
    refine iteP (P := StateKeeps 0x2000003000000000000000000000000000000000000380000000000000000000000000000000030BFFAF3 s) (fun _ => ?_) (fun _ => ?_)
    · exact (StateKeeps.step h2 (failGraver_keeps _ _ _) rfl)
    · exact h2
  clear_value x3
  refine iteP (P := StateKeeps 0x2000003000000000000000000000000000000000000380000000000000000000000000000000030BFFAF3 s) (fun _ => ?_) (fun _ => ?_)
  · refine StateKeeps.modDev ?_ ?_
    · exact h3
    · beta_reduce
      exact (DevKeeps.step (StateKeeps.dev h3) (Dev.modGrv_keeps _ _) rfl)
  · exact h3

theorem grvCtlStore_keeps (a0 : ℕ) (s : State) :
    NextP (StateKeeps 0x2000003000000000000000000000000000000000000380000000000000000000000000000000030BFFAF3 s) (grvCtlStore a0 s) := by
  unfold grvCtlStore
  refine NextP.next ?_
  refine orRsvWide_keeps ?_ ?_ rfl
  · exact (.refl _ _)
  · exact (StateKeeps.step (.refl _ _) (grvCtlWrite_keeps _ _) rfl)

theorem execGrvCtlRun_keeps (a0 : Word) (s : State) :
    NextP (StateKeeps 0x2000003000000000000000000000000000000000000380000000000000000000000000000000030BFFAF3 s) (execGrvCtlRun a0 s) := by
  unfold execGrvCtlRun
  exact StateKeeps.stepNext (.refl _ _) (grvCtlStore_keeps _ _) rfl

theorem execGrvCtlHalt_keeps (a0 : Word) (s : State) :
    NextP (StateKeeps 0x2000003000000000000000000000000000000000000380000000000000000000000000000000030BFFAF3 s) (execGrvCtlHalt a0 s) := by
  unfold execGrvCtlHalt
  exact StateKeeps.stepNext (.refl _ _) (grvCtlStore_keeps _ _) rfl

theorem execGrvCtlFail_keeps (a0 : Word) (s : State) :
    NextP (StateKeeps 0x2000003000000000000000000000000000000000000380000000000000000000000000000000030BFFAF3 s) (execGrvCtlFail a0 s) := by
  unfold execGrvCtlFail
  exact StateKeeps.stepNext (.refl _ _) (grvCtlStore_keeps _ _) rfl

theorem execGrvCtlMlock_keeps (a0 : Word) (s : State) :
    NextP (StateKeeps 0x2000003000000000000000000000000000000000000380000000000000000000000000000000030BFFAF3 s) (execGrvCtlMlock a0 s) := by
  unfold execGrvCtlMlock
  exact StateKeeps.stepNext (.refl _ _) (grvCtlStore_keeps _ _) rfl

theorem moveRole_keeps (a0 : ℕ) (a1 : ℕ) (d : Dev) :
    DevKeeps 0x440000000000000000000000000000000000000000000000000000000000000000000000000000002 d (moveRole a0 a1 d) := by
  unfold moveRole
  extract_lets -merge -underBinder +onlyGivenNames x0
  have h0 : DevKeeps 0x440000000000000000000000000000000000000000000000000000000000000000000000000000002 d x0 := by
    subst x0
    refine DevKeeps.forUpTo ?_ (fun a1 y1 h1 => ?_)
    · exact (.refl _ _)
    · beta_reduce
      refine iteP (P := DevKeeps 0x440000000000000000000000000000000000000000000000000000000000000000000000000000002 d) (fun _ => ?_) (fun _ => ?_)
      · exact (DevKeeps.step h1 (Dev.wrb_keeps _ _ _ _) (by rfl))
      · exact h1
  clear_value x0
  refine DevKeeps.forUpTo ?_ (fun a2 y2 h2 => ?_)
  · exact h0
  · beta_reduce
    refine iteP (P := DevKeeps 0x440000000000000000000000000000000000000000000000000000000000000000000000000000002 d) (fun _ => ?_) (fun _ => ?_)
    · exact (DevKeeps.step h2 (Dev.wrb_keeps _ _ _ _) (by rfl))
    · exact h2

theorem graverMigrate_keeps (a0 : ℕ) (d : Dev) :
    DevKeeps 0x2000440700000000000000000000000000000000000000000000000000000000000000000000000010002 d (graverMigrate a0 d) := by
  unfold graverMigrate
  extract_lets -merge -underBinder +onlyGivenNames x0
  clear_value x0
  extract_lets -merge -underBinder +onlyGivenNames x1
  clear_value x1
  extract_lets -merge -underBinder +onlyGivenNames x2
  have h2 : DevKeeps 0x2000440700000000000000000000000000000000000000000000000000000000000000000000000010002 d x2 := by
    subst x2
    exact (DevKeeps.step (.refl _ _) (moveRole_keeps _ _ _) rfl)
  clear_value x2
  extract_lets -merge -underBinder +onlyGivenNames x3
  have h3 : DevKeeps 0x2000440700000000000000000000000000000000000000000000000000000000000000000000000010002 d x3 := by
    subst x3
    exact (DevKeeps.step h2 (Dev.wrb_keeps _ _ _ _) (by rfl))
  clear_value x3
  extract_lets -merge -underBinder +onlyGivenNames x4
  have h4 : DevKeeps 0x2000440700000000000000000000000000000000000000000000000000000000000000000000000010002 d x4 := by
    subst x4
    exact (DevKeeps.step h3 (Dev.wrb_keeps _ _ _ _) (by rfl))
  clear_value x4
  extract_lets -merge -underBinder +onlyGivenNames x5
  have h5 : DevKeeps 0x2000440700000000000000000000000000000000000000000000000000000000000000000000000010002 d x5 := by
    subst x5
    exact (DevKeeps.step h4 (Dev.wrb_keeps _ _ _ _) (by rfl))
  clear_value x5
  refine iteP (P := DevKeeps 0x2000440700000000000000000000000000000000000000000000000000000000000000000000000010002 d) (fun _ => ?_) (fun _ => ?_)
  · exact (DevKeeps.step (DevKeeps.step h5 (runGraver_keeps _ _) rfl) (Dev.modGrv_keeps _ _) rfl)
  · exact (DevKeeps.step (.refl _ _) (Dev.wr_keeps _ _ _) (by rfl))

theorem execGraverMigrate_keeps (a0 : Word) (s : State) :
    NextP (StateKeeps 0x2000440700000000000000000000000000000000000000000000000000000000000000000000000010003 s) (execGraverMigrate a0 s) := by
  unfold execGraverMigrate
  refine onDev_keeps ?_
  refine orRsv_keeps ?_ ?_ rfl
  · exact (.refl _ _)
  · exact (DevKeeps.step (.refl _ _) (graverMigrate_keeps _ _) rfl)

theorem extendMeas_keeps (a0 : ℕ) (a1 : BitVec 384) (d : Dev) :
    DevKeeps 65536 d (extendMeas a0 a1 d) := by
  unfold extendMeas
  exact (DevKeeps.step (.refl _ _) (Dev.modGrv_keeps _ _) rfl)

theorem measExtend_keeps (a0 : ℕ) (d : Dev) :
    DevKeeps 0x3000000000000000000000000000000000000000000000000000000000000000000000000000000010002 d (measExtend a0 d) := by
  unfold measExtend
  extract_lets -merge -underBinder +onlyGivenNames x0
  have h0 : DevKeeps 0x3000000000000000000000000000000000000000000000000000000000000000000000000000000010002 d x0 := by
    subst x0
    exact (DevKeeps.step (.refl _ _) (Dev.regSet_keeps _ _ _ _ _) (by rfl))
  clear_value x0
  extract_lets -merge -underBinder +onlyGivenNames x1
  clear_value x1
  refine iteP (P := DevKeeps 0x3000000000000000000000000000000000000000000000000000000000000000000000000000000010002 d) (fun _ => ?_) (fun _ => ?_)
  · exact h0
  · refine iteP (P := DevKeeps 0x3000000000000000000000000000000000000000000000000000000000000000000000000000000010002 d) (fun _ => ?_) (fun _ => ?_)
    · exact (DevKeeps.step h0 (Dev.wr_keeps _ _ _) (by rfl))
    · exact (DevKeeps.step h0 (extendMeas_keeps _ _ _) rfl)

theorem execMeasurementExtend_keeps (a0 : Word) (s : State) :
    NextP (StateKeeps 0x3000000000000000000000000000000000000000000000000000000000000000000000000000000010002 s) (execMeasurementExtend a0 s) := by
  unfold execMeasurementExtend
  refine onDev_keeps ?_
  refine always_keeps ?_
  exact (DevKeeps.step (.refl _ _) (measExtend_keeps _ _) rfl)

theorem Dev.setQueue_keeps (d : Dev) (a1 : ℕ) (a2 : List DWord) :
    DevKeeps 65536 d (Dev.setQueue d a1 a2) := by
  unfold Dev.setQueue
  exact (DevKeeps.step (.refl _ _) (Dev.modGrv_keeps _ _) rfl)

theorem pushQueue_keeps (a0 : ℕ) (a1 : DWord) (d : Dev) :
    SndP (DevKeeps 65536 d) (pushQueue a0 a1 d) := by
  unfold pushQueue
  refine iteP (P := SndP (DevKeeps 65536 d)) (fun _ => ?_) (fun _ => ?_)
  · refine SndP.mk ?_
    exact (DevKeeps.step (.refl _ _) (Dev.setQueue_keeps _ _ _) rfl)
  · refine SndP.mk ?_
    exact (.refl _ _)

theorem graverResult_keeps (a0 : ℕ) (a1 : ℕ) (a2 : DWord) (d : Dev) :
    DevKeeps 65536 d (graverResult a0 a1 a2 d) := by
  unfold graverResult
  exact (DevKeeps.step (.refl _ _) (Dev.modGraver_keeps _ _ _) rfl)

theorem queuePush_keeps (a0 : ℕ) (a1 : ℕ) (a2 : ℕ) (a3 : ℕ) (d : Dev) :
    DevKeeps 65536 d (queuePush a0 a1 a2 a3 d) := by
  unfold queuePush
  extract_lets -merge -underBinder +onlyGivenNames x0
  clear_value x0
  extract_lets -merge -underBinder +onlyGivenNames x1
  clear_value x1
  refine iteP (P := DevKeeps 65536 d) (fun _ => ?_) (fun _ => ?_)
  · exact (DevKeeps.step (.refl _ _) (graverResult_keeps _ _ _ _) rfl)
  · refine iteP (P := DevKeeps 65536 d) (fun _ => ?_) (fun _ => ?_)
    · exact (DevKeeps.step (.refl _ _) (graverResult_keeps _ _ _ _) rfl)
    · refine iteP (P := DevKeeps 65536 d) (fun _ => ?_) (fun _ => ?_)
      · exact (DevKeeps.step (.refl _ _) (graverResult_keeps _ _ _ _) rfl)
      · split
        · rename_i v2_0 q2
          have h3 : DevKeeps 65536 d v2_0 := by
            refine SndP.get (P := (DevKeeps 65536 d)) ?_ q2
            exact DevKeeps.stepSnd (.refl _ _) (pushQueue_keeps _ _ _) rfl
          exact (DevKeeps.step h3 (graverResult_keeps _ _ _ _) rfl)
        · rename_i v4_0 q4
          have h5 : DevKeeps 65536 d v4_0 := by
            refine SndP.get (P := (DevKeeps 65536 d)) ?_ q4
            exact DevKeeps.stepSnd (.refl _ _) (pushQueue_keeps _ _ _) rfl
          exact (DevKeeps.step h5 (graverResult_keeps _ _ _ _) rfl)

theorem execQpush_keeps (a0 : Fin 64) (a1 : Fin 32) (a2 : Fin 32) (a3 : Fin 32) (s : State) :
    NextP (StateKeeps 65536 s) (execQpush a0 a1 a2 a3 s) := by
  unfold execQpush
  refine onDev_keeps ?_
  refine onGraver_keeps ?_
  refine always_keeps ?_
  exact (DevKeeps.step (.refl _ _) (queuePush_keeps _ _ _ _ _) rfl)

theorem queuePop_keeps (a0 : ℕ) (a1 : ℕ) (a2 : ℕ) (d : Dev) :
    DevKeeps 65536 d (queuePop a0 a1 a2 d) := by
  unfold queuePop
  extract_lets -merge -underBinder +onlyGivenNames x0
  clear_value x0
  extract_lets -merge -underBinder +onlyGivenNames x1
  clear_value x1
  refine iteP (P := DevKeeps 65536 d) (fun _ => ?_) (fun _ => ?_)
  · exact (DevKeeps.step (.refl _ _) (graverResult_keeps _ _ _ _) rfl)
  · refine iteP (P := DevKeeps 65536 d) (fun _ => ?_) (fun _ => ?_)
    · exact (DevKeeps.step (.refl _ _) (graverResult_keeps _ _ _ _) rfl)
    · split
      · exact (DevKeeps.step (.refl _ _) (graverResult_keeps _ _ _ _) rfl)
      · exact (DevKeeps.step (DevKeeps.step (.refl _ _) (Dev.setQueue_keeps _ _ _) rfl) (graverResult_keeps _ _ _ _) rfl)

theorem execQpop_keeps (a0 : Fin 64) (a1 : Fin 32) (a2 : Fin 32) (s : State) :
    NextP (StateKeeps 65536 s) (execQpop a0 a1 a2 s) := by
  unfold execQpop
  refine onDev_keeps ?_
  refine onGraver_keeps ?_
  refine always_keeps ?_
  exact (DevKeeps.step (.refl _ _) (queuePop_keeps _ _ _ _) rfl)

theorem queueWait_keeps (a0 : ℕ) (a1 : QStall) (d : Dev) :
    DevKeeps 65536 d (queueWait a0 a1 d) := by
  unfold queueWait
  refine iteP (P := DevKeeps 65536 d) (fun _ => ?_) (fun _ => ?_)
  · exact (DevKeeps.step (.refl _ _) (graverResult_keeps _ _ _ _) rfl)
  · refine iteP (P := DevKeeps 65536 d) (fun _ => ?_) (fun _ => ?_)
    · exact (DevKeeps.step (.refl _ _) (graverResult_keeps _ _ _ _) rfl)
    · exact (DevKeeps.step (.refl _ _) (Dev.modGraver_keeps _ _ _) rfl)

theorem execQwait_keeps (a0 : Fin 64) (a1 : Fin 32) (a2 : Fin 32) (s : State) :
    NextP (StateKeeps 65536 s) (execQwait a0 a1 a2 s) := by
  unfold execQwait
  refine onDev_keeps ?_
  refine onGraver_keeps ?_
  refine always_keeps ?_
  beta_reduce
  exact (DevKeeps.step (.refl _ _) (queueWait_keeps _ _ _) rfl)

theorem execQwaitg_keeps (a0 : Fin 64) (a1 : Fin 32) (a2 : Fin 32) (s : State) :
    NextP (StateKeeps 65536 s) (execQwaitg a0 a1 a2 s) := by
  unfold execQwaitg
  refine onDev_keeps ?_
  refine onGraver_keeps ?_
  refine always_keeps ?_
  beta_reduce
  exact (DevKeeps.step (.refl _ _) (queueWait_keeps _ _ _) rfl)

theorem queueResume_keeps (a0 : ℕ) (a1 : Bool) (d : Dev) :
    OkP (DevKeeps 65536 d) (queueResume a0 a1 d) := by
  unfold queueResume
  split
  · exact trivial
  · extract_lets -merge -underBinder +onlyGivenNames x0
    clear_value x0
    refine iteP (P := OkP (DevKeeps 65536 d)) (fun _ => ?_) (fun _ => ?_)
    · refine OkP.ok ?_
      exact (DevKeeps.step (DevKeeps.step (.refl _ _) (Dev.modGraver_keeps _ _ _) rfl) (graverResult_keeps _ _ _ _) rfl)
    · exact trivial

theorem execQwaitResume_keeps (a0 : Fin 64) (a1 : Bool) (s : State) :
    NextP (StateKeeps 65536 s) (execQwaitResume a0 a1 s) := by
  unfold execQwaitResume
  refine onDev_keeps ?_
  exact DevKeeps.stepOk (.refl _ _) (queueResume_keeps _ _ _) rfl

end Sys2Proof.Machine
end

