-- ==== Sys2Proof/Laws/KeepSelfTest.lean ====
section
/-! SUPPORT. What each operation of Machine/SelfTest.lean leaves as it was. -/

namespace Sys2Proof.Machine

theorem retireChannel_keeps (a0 : ℕ) (s : State) :
    StateKeeps 0x18004000800000000000000E000000000000000000000000000380000000000000040008000000000000030F9FB73 s (retireChannel a0 s) := by
  unfold retireChannel
  extract_lets -merge -underBinder +onlyGivenNames x0
  clear_value x0
  refine StateKeeps.step ?_ (afterChan_keeps _ _) rfl
  refine StateKeeps.modDev ?_ ?_
  · exact (.refl _ _)
  · exact (DevKeeps.step (.refl _ _) (seqCtl_keeps _ _ _) rfl)

theorem fatalStorage_keeps (d : Dev) :
    DevKeeps 0x3800000000000000000000000000000000303FFAF3 d (fatalStorage d) := by
  unfold fatalStorage
  refine iteP (P := DevKeeps 0x3800000000000000000000000000000000303FFAF3 d) (fun _ => ?_) (fun _ => ?_)
  · exact (DevKeeps.step (.refl _ _) (fatalStop_keeps _) rfl)
  · exact (DevKeeps.step (DevKeeps.step (.refl _ _) (Dev.modSys_keeps _ _) rfl) (faultOn_keeps _ _) rfl)

theorem withdrawLane_keeps (a0 : ℕ) (d : Dev) :
    DevKeeps 0x8000000000000000000000000000000000000000000000000000202 d (withdrawLane a0 d) := by
  unfold withdrawLane
  exact (DevKeeps.step (DevKeeps.step (.refl _ _) (Dev.modCiph_keeps _ _) rfl) (Dev.wr_keeps _ _ _) (by rfl))

theorem checkerFailed_keeps (a0 : ℕ) (a1 : ℕ) (s : State) :
    StateKeeps 0x18004000A00000300000000E000000000000008000000000000380000000010000040008000000000000030FFFBF3 s (checkerFailed a0 a1 s) := by
  unfold checkerFailed
  refine iteP (P := StateKeeps 0x18004000A00000300000000E000000000000008000000000000380000000010000040008000000000000030FFFBF3 s) (fun _ => ?_) (fun _ => ?_)
  · exact (StateKeeps.step (.refl _ _) (retireChannel_keeps _ _) rfl)
  · refine iteP (P := StateKeeps 0x18004000A00000300000000E000000000000008000000000000380000000010000040008000000000000030FFFBF3 s) (fun _ => ?_) (fun _ => ?_)
    · exact (.refl _ _)
    · refine iteP (P := StateKeeps 0x18004000A00000300000000E000000000000008000000000000380000000010000040008000000000000030FFFBF3 s) (fun _ => ?_) (fun _ => ?_)
      · refine StateKeeps.modDev ?_ ?_
        · exact (.refl _ _)
        · beta_reduce
          exact (DevKeeps.step (.refl _ _) (Dev.modPar_keeps _ _) rfl)
      · refine iteP (P := StateKeeps 0x18004000A00000300000000E000000000000008000000000000380000000010000040008000000000000030FFFBF3 s) (fun _ => ?_) (fun _ => ?_)
        · refine StateKeeps.modDev ?_ ?_
          · exact (.refl _ _)
          · beta_reduce
            exact (DevKeeps.step (.refl _ _) (Dev.modPool_keeps _ _) rfl)
        · refine iteP (P := StateKeeps 0x18004000A00000300000000E000000000000008000000000000380000000010000040008000000000000030FFFBF3 s) (fun _ => ?_) (fun _ => ?_)
          · refine iteP (P := StateKeeps 0x18004000A00000300000000E000000000000008000000000000380000000010000040008000000000000030FFFBF3 s) (fun _ => ?_) (fun _ => ?_)
            · refine StateKeeps.modDev ?_ ?_
              · exact (.refl _ _)
              · exact (DevKeeps.step (.refl _ _) (fatalStorage_keeps _) rfl)
            · refine StateKeeps.modDev ?_ ?_
              · exact (.refl _ _)
              · beta_reduce
                exact (DevKeeps.step (.refl _ _) (Dev.wr_keeps _ _ _) (by rfl))
          · refine iteP (P := StateKeeps 0x18004000A00000300000000E000000000000008000000000000380000000010000040008000000000000030FFFBF3 s) (fun _ => ?_) (fun _ => ?_)
            · refine iteP (P := StateKeeps 0x18004000A00000300000000E000000000000008000000000000380000000010000040008000000000000030FFFBF3 s) (fun _ => ?_) (fun _ => ?_)
              · refine StateKeeps.modDev ?_ ?_
                · exact (.refl _ _)
                · beta_reduce
                  exact (DevKeeps.step (DevKeeps.step (.refl _ _) (Dev.modGraver_keeps _ _ _) rfl) (graverFault_keeps _) rfl)
              · exact (StateKeeps.step (.refl _ _) (failGraver_keeps _ _ _) rfl)
            · refine iteP (P := StateKeeps 0x18004000A00000300000000E000000000000008000000000000380000000010000040008000000000000030FFFBF3 s) (fun _ => ?_) (fun _ => ?_)
              · exact (StateKeeps.step (.refl _ _) (retireChannel_keeps _ _) rfl)
              · refine iteP (P := StateKeeps 0x18004000A00000300000000E000000000000008000000000000380000000010000040008000000000000030FFFBF3 s) (fun _ => ?_) (fun _ => ?_)
                · refine StateKeeps.modDev ?_ ?_
                  · exact (.refl _ _)
                  · exact (DevKeeps.step (.refl _ _) (withdrawLane_keeps _ _) rfl)
                · exact (.refl _ _)

theorem stSelWrite_keeps (a0 : ℕ) (d : Dev) :
    DevKeeps 0x1000000000000000000000000000000000000000000000000000000100002 d (stSelWrite a0 d) := by
  unfold stSelWrite
  extract_lets -merge -underBinder +onlyGivenNames x0
  have h0 : DevKeeps 0x1000000000000000000000000000000000000000000000000000000100002 d x0 := by
    subst x0
    refine iteP (P := DevKeeps 0x1000000000000000000000000000000000000000000000000000000100002 d) (fun _ => ?_) (fun _ => ?_)
    · exact (DevKeeps.step (.refl _ _) (Dev.wr_keeps _ _ _) (by rfl))
    · exact (.refl _ _)
  clear_value x0
  refine iteP (P := DevKeeps 0x1000000000000000000000000000000000000000000000000000000100002 d) (fun _ => ?_) (fun _ => ?_)
  · exact (DevKeeps.step (DevKeeps.step h0 (Dev.wr_keeps _ _ _) (by rfl)) (Dev.modSys_keeps _ _) rfl)
  · exact h0

theorem execSelftestRun_keeps (a0 : Word) (s : State) :
    NextP (StateKeeps 0x1000000000000000000000000000000000000000000000000000000100003 s) (execSelftestRun a0 s) := by
  unfold execSelftestRun
  refine onDev_keeps ?_
  refine orRsv_keeps ?_ ?_ rfl
  · exact (.refl _ _)
  · exact (DevKeeps.step (.refl _ _) (stSelWrite_keeps _ _) rfl)

theorem selfTestResults_keeps (a0 : List CheckFail) (d : Dev) :
    DevKeeps 704 d (selfTestResults a0 d) := by
  unfold selfTestResults
  extract_lets -merge -underBinder +onlyGivenNames x0
  have h0 : DevKeeps 704 d x0 := by
    subst x0
    refine DevKeeps.forUpTo ?_ (fun a1 y1 h1 => ?_)
    · exact (.refl _ _)
    · beta_reduce
      refine iteP (P := DevKeeps 704 d) (fun _ => ?_) (fun _ => ?_)
      · exact h1
      · exact (DevKeeps.step h1 (Dev.setCheck_keeps _ _ _) rfl)
  clear_value x0
  extract_lets -merge -underBinder +onlyGivenNames x2
  have h2 : DevKeeps 704 d x2 := by
    subst x2
    exact (DevKeeps.step h0 (Dev.modPar_keeps _ _) rfl)
  clear_value x2
  exact (DevKeeps.step h2 (Dev.modCiph_keeps _ _) rfl)

theorem selfTestEnd_keeps (a0 : List CheckFail) (s : State) :
    StateKeeps 0x18004000A00000300000000E000000005000008000000000000380000000010000040008000000000000030FFFBF3 s (selfTestEnd a0 s) := by
  unfold selfTestEnd
  extract_lets -merge -underBinder +onlyGivenNames x0
  clear_value x0
  extract_lets -merge -underBinder +onlyGivenNames x1
  have h1 : StateKeeps 0x18004000A00000300000000E000000005000008000000000000380000000010000040008000000000000030FFFBF3 s x1 := by
    subst x1
    refine StateKeeps.modDev ?_ ?_
    · exact (.refl _ _)
    · beta_reduce
      exact (DevKeeps.step (DevKeeps.step (.refl _ _) (selfTestResults_keeps _ _) rfl) (Dev.flagIf_keeps _ _ _) (by rfl))
  clear_value x1
  extract_lets -merge -underBinder +onlyGivenNames x2
  have h2 : StateKeeps 0x18004000A00000300000000E000000005000008000000000000380000000010000040008000000000000030FFFBF3 s x2 := by
    subst x2
    refine StateKeeps.foldl ?_ (fun y3 a3 h3 => ?_)
    · exact h1
    · beta_reduce
      exact (StateKeeps.step h3 (checkerFailed_keeps _ _ _) rfl)
  clear_value x2
  refine StateKeeps.modDev ?_ ?_
  · exact h2
  · beta_reduce
    exact (DevKeeps.step (DevKeeps.step (StateKeeps.dev h2) (Dev.wr_keeps _ _ _) (by rfl)) (Dev.modSys_keeps _ _) rfl)

theorem execSelftestDone_keeps (a0 : List CheckFail) (s : State) :
    NextP (StateKeeps 0x18004000A00000300000000E000000005000008000000000000380000000010000040008000000000000030FFFBF3 s) (execSelftestDone a0 s) := by
  unfold execSelftestDone
  refine iteP (P := NextP (StateKeeps 0x18004000A00000300000000E000000005000008000000000000380000000010000040008000000000000030FFFBF3 s)) (fun _ => ?_) (fun _ => ?_)
  · refine NextP.next ?_
    exact (StateKeeps.step (.refl _ _) (selfTestEnd_keeps _ _) rfl)
  · exact StateKeeps.stepNext (.refl _ _) (noEvent_keeps _ _) rfl

theorem retest_keeps (a0 : ℕ) (a1 : ℕ) (a2 : ℕ) (s : State) :
    StateKeeps 0x18004000A00000300000000E000000004000008000000000000380000000010000040008000000000000030FFFBF3 s (retest a0 a1 a2 s) := by
  unfold retest
  refine iteP (P := StateKeeps 0x18004000A00000300000000E000000004000008000000000000380000000010000040008000000000000030FFFBF3 s) (fun _ => ?_) (fun _ => ?_)
  · refine StateKeeps.modDev ?_ ?_
    · exact (.refl _ _)
    · beta_reduce
      exact (DevKeeps.step (.refl _ _) (Dev.setCheck_keeps _ _ _) rfl)
  · refine StateKeeps.step ?_ (checkerFailed_keeps _ _ _) rfl
    refine StateKeeps.modDev ?_ ?_
    · exact (.refl _ _)
    · beta_reduce
      exact (DevKeeps.step (DevKeeps.step (.refl _ _) (Dev.setCheck_keeps _ _ _) rfl) (Dev.wr_keeps _ _ _) (by rfl))

theorem execCheckerRetest_keeps (a0 : Fin 68) (a1 : ℕ) (a2 : Fin 64) (s : State) :
    NextP (StateKeeps 0x18004000A00000300000000E000000004000008000000000000380000000010000040008000000000000030FFFBF3 s) (execCheckerRetest a0 a1 a2 s) := by
  unfold execCheckerRetest
  refine iteP (P := NextP (StateKeeps 0x18004000A00000300000000E000000004000008000000000000380000000010000040008000000000000030FFFBF3 s)) (fun _ => ?_) (fun _ => ?_)
  · refine NextP.next ?_
    exact (StateKeeps.step (.refl _ _) (retest_keeps _ _ _ _) rfl)
  · exact StateKeeps.stepNext (.refl _ _) (noEvent_keeps _ _) rfl

theorem decoderLost_keeps (a0 : ℕ) (s : State) :
    StateKeeps 0x18004000A00000300000000E000000004000008000000000000380000000010000040008000000000000030FFFBF3 s (decoderLost a0 s) := by
  unfold decoderLost
  refine StateKeeps.step ?_ (checkerFailed_keeps _ _ _) rfl
  refine StateKeeps.modDev ?_ ?_
  · exact (.refl _ _)
  · beta_reduce
    exact (DevKeeps.step (DevKeeps.step (.refl _ _) (Dev.setCheck_keeps _ _ _) rfl) (Dev.wr_keeps _ _ _) (by rfl))

theorem siteLost_keeps (a0 : SramSite) (s : State) :
    StateKeeps 0x18004000A00000300000000E000000004000008000000000000380000040010000040008000000000000030FFFBF3 s (siteLost a0 s) := by
  unfold siteLost
  split
  · refine StateKeeps.modDev ?_ ?_
    · exact (.refl _ _)
    · exact (DevKeeps.step (.refl _ _) (cellLost_keeps _ _) rfl)
  · refine StateKeeps.modDev ?_ ?_
    · exact (.refl _ _)
    · beta_reduce
      exact (DevKeeps.step (.refl _ _) (Dev.modPar_keeps _ _) rfl)
  · refine StateKeeps.modDev ?_ ?_
    · exact (.refl _ _)
    · beta_reduce
      exact (DevKeeps.step (.refl _ _) (Dev.modChan_keeps _ _ _) rfl)
  · refine StateKeeps.modDev ?_ ?_
    · exact (.refl _ _)
    · beta_reduce
      exact (DevKeeps.step (DevKeeps.step (.refl _ _) (Dev.modCam_keeps _ _) rfl) (Dev.wr_keeps _ _ _) (by rfl))
  · exact (.refl _ _)
  · exact (StateKeeps.step (.refl _ _) (decoderLost_keeps _ _) rfl)
  · exact (StateKeeps.step (.refl _ _) (decoderLost_keeps _ _) rfl)
  · exact (StateKeeps.step (.refl _ _) (decoderLost_keeps _ _) rfl)
  · exact (StateKeeps.step (.refl _ _) (failGraver_keeps _ _ _) rfl)
  · exact (.refl _ _)

theorem execSramPatrol_keeps (a0 : SramSite) (a1 : CopyState) (s : State) :
    NextP (StateKeeps 0x18004000A00000300000000E000000004070008000000000000380000040010000040008000000000000030FFFBF3 s) (execSramPatrol a0 a1 s) := by
  unfold execSramPatrol
  split
  · refine NextP.next ?_
    exact (.refl _ _)
  · refine NextP.next ?_
    refine StateKeeps.modDev ?_ ?_
    · exact (.refl _ _)
    · exact (DevKeeps.step (.refl _ _) (bucketEvent_keeps _ _) rfl)
  · refine NextP.next ?_
    exact (StateKeeps.step (.refl _ _) (siteLost_keeps _ _) rfl)

end Sys2Proof.Machine
end

