-- ==== Sys2Proof/Laws/KeepStartup.lean ====
section
/-! SUPPORT. What each operation of Machine/Startup.lean leaves as it was. -/

namespace Sys2Proof.Machine

theorem powerOn_keeps (d : Dev) : DevKeeps devMask d (powerOn d) := .all _ _

theorem execPowerOnReset_keeps (s : State) :
    NextP (StateKeeps allMask s) (execPowerOnReset s) := by
  unfold execPowerOnReset
  refine NextP.next ?_
  refine StateKeeps.mem0 ?_ ?_ rfl
  · exact (.refl _ _)
  · exact (DevKeeps.step (.refl _ _) (powerOn_keeps _) rfl)

theorem coreReset_keeps (d : Dev) : DevKeeps devMask d (coreReset d) := .all _ _

theorem aonReset_keeps (d : Dev) :
    DevKeeps 0x800000000000002 d (aonReset d) := by
  unfold aonReset
  extract_lets -merge -underBinder +onlyGivenNames x0
  clear_value x0
  exact (DevKeeps.step (DevKeeps.step (.refl _ _) (Dev.wr_keeps _ _ _) (by rfl)) (Dev.flagIf_keeps _ _ _) (by rfl))

theorem resetGravers_keeps (a0 : List ℕ) (d : Dev) :
    DevKeeps 0x410000000000000000000000000000000000000000000000000000000000000000000000030010002 d (resetGravers a0 d) := by
  unfold resetGravers
  extract_lets -merge -underBinder +onlyGivenNames x0
  have h0 : DevKeeps 0x410000000000000000000000000000000000000000000000000000000000000000000000030010002 d x0 := by
    subst x0
    refine DevKeeps.foldl ?_ (fun y1 a1 h1 => ?_)
    · exact (.refl _ _)
    · beta_reduce
      exact (DevKeeps.step h1 (Dev.modGraver_keeps _ _ _) rfl)
  clear_value x0
  split
  · exact (DevKeeps.step h0 (graverFault_keeps _) rfl)
  · extract_lets -merge -underBinder +onlyGivenNames x2
    have h2 : DevKeeps 0x410000000000000000000000000000000000000000000000000000000000000000000000030010002 d x2 := by
      subst x2
      exact (DevKeeps.step (DevKeeps.step h0 (Dev.modGraver_keeps _ _ _) rfl) (graverFault_keeps _) rfl)
    clear_value x2
    refine DevKeeps.forUpTo ?_ (fun a3 y3 h3 => ?_)
    · exact (DevKeeps.step h2 (Dev.wr_keeps _ _ _) (by rfl))
    · beta_reduce
      exact (DevKeeps.step h3 (Dev.wrb_keeps _ _ _ _) (by rfl))

theorem releasePorts_keeps (d : Dev) :
    DevKeeps 4096 d (releasePorts d) := by
  unfold releasePorts
  refine iteP (P := DevKeeps 4096 d) (fun _ => ?_) (fun _ => ?_)
  · exact (.refl _ _)
  · refine DevKeeps.forUpTo ?_ (fun a0 y0 h0 => ?_)
    · exact (.refl _ _)
    · beta_reduce
      refine iteP (P := DevKeeps 4096 d) (fun _ => ?_) (fun _ => ?_)
      · exact (DevKeeps.step h0 (Dev.modPort_keeps _ _ _) rfl)
      · exact h0

theorem bootSlot_keeps (a0 : ℕ) (d : Dev) :
    DevKeeps 0x10000000000000000000000000000000100000800000000000000000000010000003E000005D1402 d (bootSlot a0 d) := by
  unfold bootSlot
  split
  · extract_lets -merge -underBinder +onlyGivenNames x0
    have h0 : DevKeeps 0x10000000000000000000000000000000100000800000000000000000000010000003E000005D1402 d x0 := by
      subst x0
      exact (DevKeeps.step (DevKeeps.step (.refl _ _) (extendMeas_keeps _ _ _) rfl) (extendMeas_keeps _ _ _) rfl)
    clear_value x0
    extract_lets -merge -underBinder +onlyGivenNames x1
    have h1 : DevKeeps 0x10000000000000000000000000000000100000800000000000000000000010000003E000005D1402 d x1 := by
      subst x1
      exact (DevKeeps.step h0 (Dev.modNvm_keeps _ _) rfl)
    clear_value x1
    extract_lets -merge -underBinder +onlyGivenNames x2
    have h2 : DevKeeps 0x10000000000000000000000000000000100000800000000000000000000010000003E000005D1402 d x2 := by
      subst x2
      exact (DevKeeps.step (DevKeeps.step h1 (Dev.wr_keeps _ _ _) (by rfl)) (Dev.wr_keeps _ _ _) (by rfl))
    clear_value x2
    extract_lets -merge -underBinder +onlyGivenNames x3
    clear_value x3
    extract_lets -merge -underBinder +onlyGivenNames x4
    have h4 : DevKeeps 0x10000000000000000000000000000000100000800000000000000000000010000003E000005D1402 d x4 := by
      subst x4
      exact (DevKeeps.step (DevKeeps.step h2 (Dev.wr_keeps _ _ _) (by rfl)) (Dev.modHost_keeps _ _) rfl)
    clear_value x4
    extract_lets -merge -underBinder +onlyGivenNames x5
    have h5 : DevKeeps 0x10000000000000000000000000000000100000800000000000000000000010000003E000005D1402 d x5 := by
      subst x5
      exact (DevKeeps.step (DevKeeps.step (DevKeeps.step h4 (Dev.wr_keeps _ _ _) (by rfl)) (releasePorts_keeps _) rfl) (planOp_keeps _) rfl)
    clear_value x5
    exact (DevKeeps.step (DevKeeps.step h5 (Dev.modSys_keeps _ _) rfl) (dmcCtlWrite_keeps _ _) rfl)

theorem bootRun_keeps (d : Dev) :
    DevKeeps 0x10000000000000000000000000000000100000800000000000000000000010000003E000005D1402 d (bootRun d) := by
  unfold bootRun
  split
  · exact (DevKeeps.step (.refl _ _) (bootSlot_keeps _ _) rfl)
  · extract_lets -merge -underBinder +onlyGivenNames x0
    have h0 : DevKeeps 0x10000000000000000000000000000000100000800000000000000000000010000003E000005D1402 d x0 := by
      subst x0
      refine iteP (P := DevKeeps 0x10000000000000000000000000000000100000800000000000000000000010000003E000005D1402 d) (fun _ => ?_) (fun _ => ?_)
      · exact (.refl _ _)
      · exact (DevKeeps.step (.refl _ _) (Dev.modNvm_keeps _ _) rfl)
    clear_value x0
    exact (DevKeeps.step (DevKeeps.step h0 (Dev.wr_keeps _ _ _) (by rfl)) (Dev.modSys_keeps _ _) rfl)

theorem coldStart_keeps (a0 : Why) (a1 : Bool) (a2 : ResetObs) (d : Dev) :
    DevKeeps devMask d (coldStart a0 a1 a2 d) := by
  unfold coldStart
  extract_lets -merge -underBinder +onlyGivenNames x0
  clear_value x0
  extract_lets -merge -underBinder +onlyGivenNames x1
  have h1 : DevKeeps devMask d x1 := by
    subst x1
    exact (DevKeeps.step (DevKeeps.step (.refl _ _) (coreReset_keeps _) rfl) (Dev.regSet_keeps _ _ _ _ _) (by rfl))
  clear_value x1
  extract_lets -merge -underBinder +onlyGivenNames x2
  have h2 : DevKeeps devMask d x2 := by
    subst x2
    exact (DevKeeps.step h1 (Dev.modSys_keeps _ _) rfl)
  clear_value x2
  extract_lets -merge -underBinder +onlyGivenNames x3
  have h3 : DevKeeps devMask d x3 := by
    subst x3
    exact (DevKeeps.step (DevKeeps.step (DevKeeps.step h2 (aonReset_keeps _) rfl) (setTicks_keeps _ _) rfl) (startCounter_keeps _ _) rfl)
  clear_value x3
  extract_lets -merge -underBinder +onlyGivenNames x4
  have h4 : DevKeeps devMask d x4 := by
    subst x4
    exact (DevKeeps.step (DevKeeps.step h3 (Dev.wr_keeps _ _ _) (by rfl)) (Dev.wr_keeps _ _ _) (by rfl))
  clear_value x4
  extract_lets -merge -underBinder +onlyGivenNames x5
  have h5 : DevKeeps devMask d x5 := by
    subst x5
    exact (DevKeeps.step h4 (Dev.wr_keeps _ _ _) (by rfl))
  clear_value x5
  extract_lets -merge -underBinder +onlyGivenNames x6
  have h6 : DevKeeps devMask d x6 := by
    subst x6
    exact (DevKeeps.step h5 (resetGravers_keeps _ _) rfl)
  clear_value x6
  extract_lets -merge -underBinder +onlyGivenNames x7
  have h7 : DevKeeps devMask d x7 := by
    subst x7
    exact (DevKeeps.step (DevKeeps.step h6 (Dev.wr_keeps _ _ _) (by rfl)) (Dev.wr_keeps _ _ _) (by rfl))
  clear_value x7
  extract_lets -merge -underBinder +onlyGivenNames x8
  have h8 : DevKeeps devMask d x8 := by
    subst x8
    exact (DevKeeps.step h7 (extendMeas_keeps _ _ _) rfl)
  clear_value x8
  refine iteP (P := DevKeeps devMask d) (fun _ => ?_) (fun _ => ?_)
  · exact (DevKeeps.step h8 (bootRun_keeps _) rfl)
  · exact h8

theorem execColdReset_keeps (a0 : ResetObs) (s : State) :
    NextP (StateKeeps allMask s) (execColdReset a0 s) := by
  unfold execColdReset
  split
  · exact StateKeeps.stepNext (.refl _ _) (noEvent_keeps _ _) rfl
  · refine iteP (P := NextP (StateKeeps allMask s)) (fun _ => ?_) (fun _ => ?_)
    · refine NextP.next ?_
      refine StateKeeps.modDev ?_ ?_
      · exact (.refl _ _)
      · beta_reduce
        exact (DevKeeps.step (.refl _ _) (Dev.modSys_keeps _ _) rfl)
    · refine NextP.next ?_
      refine StateKeeps.mem0 ?_ ?_ rfl
      · exact (.refl _ _)
      · exact (DevKeeps.step (.refl _ _) (coldStart_keeps _ _ _ _) rfl)

theorem undoRefolds_keeps (d : Dev) :
    DevKeeps 0x40000000000000000000696012 d (undoRefolds d) := by
  unfold undoRefolds
  refine DevKeeps.foldl ?_ (fun y0 a0 h0 => ?_)
  · exact (.refl _ _)
  · beta_reduce
    split
    · extract_lets -merge -underBinder +onlyGivenNames x1
      have h1 : DevKeeps 0x40000000000000000000696012 d x1 := by
        subst x1
        exact (DevKeeps.step h0 (Dev.modZone_keeps _ _ _ _) rfl)
      clear_value x1
      exact (DevKeeps.step h1 (releaseRow_keeps _ _ _ _) rfl)
    · exact h0

theorem loadTables_keeps (a0 : Tables) (d : Dev) : DevKeeps 0xFFFFFFFFFFFFFFFFFFFFFFFFFFFFFFFFFFFFFFFFFFFFFFFFFFFFFFFFFFFFFFFFFFFFFFFFFFFFFFFFFFFFFFFFFFFFFFFFFFFFFFFFFFFFFFFFFFFFFFFFFFFFFFFF697212 d (loadTables a0 d) := by
  unfold loadTables
  extract_lets x0 x1 x2 x3
  have h0 : DevKeeps 0xFFFFFFFFFFFFFFFFFFFFFFFFFFFFFFFFFFFFFFFFFFFFFFFFFFFFFFFFFFFFFFFFFFFFFFFFFFFFFFFFFFFFFFFFFFFFFFFFFFFFFFFFFFFFFFFFFFFFFFFFFFFFFFFF697212 d x0 := by
    refine DevKeeps.set_regs (e := { d with zm := a0.zm.restart, med := a0.med }) _ ?_ rfl
    exact DevKeeps.set_zm (e := { d with med := a0.med }) _ (DevKeeps.set_med (e := d) _ (.refl _ _) rfl) rfl
  have h3 : DevKeeps 0xFFFFFFFFFFFFFFFFFFFFFFFFFFFFFFFFFFFFFFFFFFFFFFFFFFFFFFFFFFFFFFFFFFFFFFFFFFFFFFFFFFFFFFFFFFFFFFFFFFFFFFFFFFFFFFFFFFFFFFFFFFFFFFFF697212 d x3 := by
    refine DevKeeps.foldl ((h0.step (Dev.modCiph_keeps _ _) rfl).step (Dev.modHost_keeps _ _) rfl) (fun y a h => ?_)
    exact h.step (Dev.modFunc_keeps _ _ _) rfl
  exact h3.step (undoRefolds_keeps _) rfl

theorem applyNew_keeps (a0 : BadRec) (d : Dev) :
    DevKeeps 16384 d (applyNew a0 d) := by
  unfold applyNew
  split
  · extract_lets -merge -underBinder +onlyGivenNames x0
    clear_value x0
    refine iteP (P := DevKeeps 16384 d) (fun _ => ?_) (fun _ => ?_)
    · exact (DevKeeps.step (.refl _ _) (Dev.modRow_keeps _ _ _ _) rfl)
    · refine iteP (P := DevKeeps 16384 d) (fun _ => ?_) (fun _ => ?_)
      · exact (DevKeeps.step (.refl _ _) (Dev.modMed_keeps _ _) rfl)
      · refine iteP (P := DevKeeps 16384 d) (fun _ => ?_) (fun _ => ?_)
        · exact (DevKeeps.step (.refl _ _) (Dev.modMed_keeps _ _) rfl)
        · refine iteP (P := DevKeeps 16384 d) (fun _ => ?_) (fun _ => ?_)
          · exact (.refl _ _)
          · refine iteP (P := DevKeeps 16384 d) (fun _ => ?_) (fun _ => ?_)
            · exact (DevKeeps.step (.refl _ _) (Dev.modMed_keeps _ _) rfl)
            · exact (DevKeeps.step (.refl _ _) (Dev.modMed_keeps _ _) rfl)

theorem applyState_keeps (a0 : BadRec) (d : Dev) :
    DevKeeps 16 d (applyState a0 d) := by
  unfold applyState
  extract_lets -merge -underBinder +onlyGivenNames x0
  clear_value x0
  refine iteP (P := DevKeeps 16 d) (fun _ => ?_) (fun _ => ?_)
  · exact (DevKeeps.step (.refl _ _) (Dev.modDie_keeps _ _ _ _) rfl)
  · exact (.refl _ _)

theorem applyRecs_keeps (a0 : List (ℕ × ℕ)) (d : Dev) :
    DevKeeps 0x30004012 d (applyRecs a0 d) := by
  unfold applyRecs
  extract_lets -merge -underBinder +onlyGivenNames x0
  clear_value x0
  extract_lets -merge -underBinder +onlyGivenNames x1
  clear_value x1
  extract_lets -merge -underBinder +onlyGivenNames x2
  have h2 : DevKeeps 0x30004012 d x2 := by
    subst x2
    refine DevKeeps.foldl ?_ (fun y3 a3 h3 => ?_)
    · exact (.refl _ _)
    · beta_reduce
      exact (DevKeeps.step h3 (applyNew_keeps _ _) rfl)
  clear_value x2
  extract_lets -merge -underBinder +onlyGivenNames x4
  have h4 : DevKeeps 0x30004012 d x4 := by
    subst x4
    exact (DevKeeps.step h2 (Dev.modMed_keeps _ _) rfl)
  clear_value x4
  extract_lets -merge -underBinder +onlyGivenNames x5
  have h5 : DevKeeps 0x30004012 d x5 := by
    subst x5
    refine DevKeeps.foldl ?_ (fun y6 a6 h6 => ?_)
    · exact h4
    · beta_reduce
      exact (DevKeeps.step h6 (applyState_keeps _ _) rfl)
  clear_value x5
  extract_lets -merge -underBinder +onlyGivenNames x7
  have h7 : DevKeeps 0x30004012 d x7 := by
    subst x7
    refine DevKeeps.foldl ?_ (fun y8 a8 h8 => ?_)
    · exact h5
    · beta_reduce
      refine iteP (P := DevKeeps 0x30004012 d) (fun _ => ?_) (fun _ => ?_)
      · exact h8
      · exact (DevKeeps.step (DevKeeps.step h8 (Dev.modDie_keeps _ _ _ _) rfl) (faultOn_keeps _ _) rfl)
  clear_value x7
  refine DevKeeps.foldl ?_ (fun y9 a9 h9 => ?_)
  · exact h7
  · beta_reduce
    refine iteP (P := DevKeeps 0x30004012 d) (fun _ => ?_) (fun _ => ?_)
    · exact h9
    · exact (DevKeeps.step (DevKeeps.step h9 (Dev.modChan_keeps _ _ _) rfl) (faultOn_keeps _ _) rfl)

theorem findDies_keeps (a0 : List ℕ) (d : Dev) :
    DevKeeps 0x8000000000000000000000000000000000000000000000000000000000000000000000000000000100012 d (findDies a0 d) := by
  unfold findDies
  extract_lets -merge -underBinder +onlyGivenNames x0
  have h0 : DevKeeps 0x8000000000000000000000000000000000000000000000000000000000000000000000000000000100012 d x0 := by
    subst x0
    refine DevKeeps.foldl ?_ (fun y1 a1 h1 => ?_)
    · exact (.refl _ _)
    · beta_reduce
      exact (DevKeeps.step h1 (Dev.modDie_keeps _ _ _ _) rfl)
  clear_value x0
  refine DevKeeps.forUpTo ?_ (fun a2 y2 h2 => ?_)
  · exact h0
  · beta_reduce
    exact (DevKeeps.step (DevKeeps.step h2 (enableSeq_keeps _ _) rfl) (requestTraining_keeps _ _) rfl)

theorem factoryMark_keeps (a0 : ℕ) (a1 : ℕ) (d : Dev) :
    DevKeeps 606224 d (factoryMark a0 a1 d) := by
  unfold factoryMark
  refine iteP (P := DevKeeps 606224 d) (fun _ => ?_) (fun _ => ?_)
  · exact (.refl _ _)
  · exact (DevKeeps.step (.refl _ _) (makeBad_keeps _ _ _ _) rfl)

theorem wearUnknown_keeps (d : Dev) :
    DevKeeps 16384 d (wearUnknown d) := by
  unfold wearUnknown
  extract_lets -merge -underBinder +onlyGivenNames x0
  clear_value x0
  exact (DevKeeps.step (.refl _ _) (Dev.modMed_keeps _ _) rfl)

theorem scrubFirst_keeps (d : Dev) :
    DevKeeps 256 d (scrubFirst d) := by
  unfold scrubFirst
  extract_lets -merge -underBinder +onlyGivenNames x0
  clear_value x0
  extract_lets -merge -underBinder +onlyGivenNames x1
  clear_value x1
  refine iteP (P := DevKeeps 256 d) (fun _ => ?_) (fun _ => ?_)
  · exact DevKeeps.set_stip _ (.refl _ _) rfl
  · exact (.refl _ _)

theorem loadCounter_keeps (a0 : ℕ) (d : Dev) :
    DevKeeps 0x3000000000A d (loadCounter a0 d) := by
  unfold loadCounter
  extract_lets -merge -underBinder +onlyGivenNames x0
  have h0 : DevKeeps 0x3000000000A d x0 := by
    subst x0
    exact (DevKeeps.step (DevKeeps.step (.refl _ _) (Dev.wr_keeps _ _ _) (by rfl)) (Dev.wr_keeps _ _ _) (by rfl))
  clear_value x0
  extract_lets -merge -underBinder +onlyGivenNames x1
  clear_value x1
  refine iteP (P := DevKeeps 0x3000000000A d) (fun _ => ?_) (fun _ => ?_)
  · exact h0
  · exact DevKeeps.set_strk _ h0 rfl

theorem seedCounter_keeps (d : Dev) :
    DevKeeps 0x3000004000A d (seedCounter d) := by
  unfold seedCounter
  refine iteP (P := DevKeeps 0x3000004000A d) (fun _ => ?_) (fun _ => ?_)
  · exact (DevKeeps.step (DevKeeps.step (.refl _ _) (loadCounter_keeps _ _) rfl) (Dev.modPwr_keeps _ _) rfl)
  · exact (.refl _ _)

theorem placeBase_keeps (lo hi : RegDef) (n a : Nat) (d : Dev) : DevKeeps (0 ||| (regMask lo ||| regMask hi)) d (placeBase lo hi n a d) := by
  unfold placeBase
  split
  · exact .refl _ _
  · exact ((DevKeeps.refl _ _).step (Dev.regSet_keeps _ _ _ _ _) or_sub_right).step (Dev.regSet_keeps _ _ _ _ _) or_sub_last

theorem placeAreas_keeps (d : Dev) :
    DevKeeps 0xC000000000000000F000300C01800006006000000000000001FE400000000000000000000000000000000002 d (placeAreas d) := by
  unfold placeAreas
  extract_lets -merge -underBinder +onlyGivenNames x0
  clear_value x0
  extract_lets -merge -underBinder +onlyGivenNames x1
  clear_value x1
  extract_lets -merge -underBinder +onlyGivenNames x2
  have h2 : DevKeeps 0xC000000000000000F000300C01800006006000000000000001FE400000000000000000000000000000000002 d x2 := by
    subst x2
    exact (DevKeeps.step (.refl _ _) (placeBase_keeps _ _ _ _ _) (by rfl))
  clear_value x2
  extract_lets -merge -underBinder +onlyGivenNames x3
  have h3 : DevKeeps 0xC000000000000000F000300C01800006006000000000000001FE400000000000000000000000000000000002 d x3 := by
    subst x3
    exact (DevKeeps.step h2 (placeBase_keeps _ _ _ _ _) (by rfl))
  clear_value x3
  extract_lets -merge -underBinder +onlyGivenNames x4
  have h4 : DevKeeps 0xC000000000000000F000300C01800006006000000000000001FE400000000000000000000000000000000002 d x4 := by
    subst x4
    refine DevKeeps.forUpTo ?_ (fun a5 y5 h5 => ?_)
    · exact h3
    · beta_reduce
      exact (DevKeeps.step h5 (placeBase_keeps _ _ _ _ _) (by rfl))
  clear_value x4
  extract_lets -merge -underBinder +onlyGivenNames x6
  have h6 : DevKeeps 0xC000000000000000F000300C01800006006000000000000001FE400000000000000000000000000000000002 d x6 := by
    subst x6
    exact (DevKeeps.step h4 (placeBase_keeps _ _ _ _ _) (by rfl))
  clear_value x6
  extract_lets -merge -underBinder +onlyGivenNames x7
  have h7 : DevKeeps 0xC000000000000000F000300C01800006006000000000000001FE400000000000000000000000000000000002 d x7 := by
    subst x7
    exact (DevKeeps.step h6 (placeBase_keeps _ _ _ _ _) (by rfl))
  clear_value x7
  extract_lets -merge -underBinder +onlyGivenNames x8
  have h8 : DevKeeps 0xC000000000000000F000300C01800006006000000000000001FE400000000000000000000000000000000002 d x8 := by
    subst x8
    exact (DevKeeps.step h7 (placeBase_keeps _ _ _ _ _) (by rfl))
  clear_value x8
  extract_lets -merge -underBinder +onlyGivenNames x9
  have h9 : DevKeeps 0xC000000000000000F000300C01800006006000000000000001FE400000000000000000000000000000000002 d x9 := by
    subst x9
    exact (DevKeeps.step h8 (placeBase_keeps _ _ _ _ _) (by rfl))
  clear_value x9
  extract_lets -merge -underBinder +onlyGivenNames x10
  have h10 : DevKeeps 0xC000000000000000F000300C01800006006000000000000001FE400000000000000000000000000000000002 d x10 := by
    subst x10
    exact (DevKeeps.step h9 (placeBase_keeps _ _ _ _ _) (by rfl))
  clear_value x10
  extract_lets -merge -underBinder +onlyGivenNames x11
  clear_value x11
  extract_lets -merge -underBinder +onlyGivenNames x12
  have h12 : DevKeeps 0xC000000000000000F000300C01800006006000000000000001FE400000000000000000000000000000000002 d x12 := by
    subst x12
    exact (DevKeeps.step h10 (Dev.wr_keeps _ _ _) (by rfl))
  clear_value x12
  extract_lets -merge -underBinder +onlyGivenNames x13
  have h13 : DevKeeps 0xC000000000000000F000300C01800006006000000000000001FE400000000000000000000000000000000002 d x13 := by
    subst x13
    exact (DevKeeps.step h12 (placeBase_keeps _ _ _ _ _) (by rfl))
  clear_value x13
  extract_lets -merge -underBinder +onlyGivenNames x14
  have h14 : DevKeeps 0xC000000000000000F000300C01800006006000000000000001FE400000000000000000000000000000000002 d x14 := by
    subst x14
    exact (DevKeeps.step h13 (placeBase_keeps _ _ _ _ _) (by rfl))
  clear_value x14
  extract_lets -merge -underBinder +onlyGivenNames x15
  have h15 : DevKeeps 0xC000000000000000F000300C01800006006000000000000001FE400000000000000000000000000000000002 d x15 := by
    subst x15
    exact (DevKeeps.step h14 (placeBase_keeps _ _ _ _ _) (by rfl))
  clear_value x15
  refine iteP (P := DevKeeps 0xC000000000000000F000300C01800006006000000000000001FE400000000000000000000000000000000002 d) (fun _ => ?_) (fun _ => ?_)
  · exact h10
  · exact (DevKeeps.step h15 (placeBase_keeps _ _ _ _ _) (by rfl))

theorem enableMemory_keeps (d : Dev) :
    DevKeeps 0xC000000000000000F000300C01900006006000000000002001FE500004000000000000000000000000000802 d (enableMemory d) := by
  unfold enableMemory
  extract_lets -merge -underBinder +onlyGivenNames x0
  have h0 : DevKeeps 0xC000000000000000F000300C01900006006000000000002001FE500004000000000000000000000000000802 d x0 := by
    subst x0
    exact (DevKeeps.step (.refl _ _) (placeAreas_keeps _) rfl)
  clear_value x0
  extract_lets -merge -underBinder +onlyGivenNames x1
  have h1 : DevKeeps 0xC000000000000000F000300C01900006006000000000002001FE500004000000000000000000000000000802 d x1 := by
    subst x1
    refine iteP (P := DevKeeps 0xC000000000000000F000300C01900006006000000000002001FE500004000000000000000000000000000802 d) (fun _ => ?_) (fun _ => ?_)
    · exact h0
    · exact (DevKeeps.step h0 (cellCtlWrite_keeps _ _) rfl)
  clear_value x1
  extract_lets -merge -underBinder +onlyGivenNames x2
  have h2 : DevKeeps 0xC000000000000000F000300C01900006006000000000002001FE500004000000000000000000000000000802 d x2 := by
    subst x2
    refine iteP (P := DevKeeps 0xC000000000000000F000300C01900006006000000000002001FE500004000000000000000000000000000802 d) (fun _ => ?_) (fun _ => ?_)
    · exact (DevKeeps.step h1 (poolReady_keeps _) rfl)
    · exact h1
  clear_value x2
  exact (DevKeeps.step (DevKeeps.step h2 (Dev.wr_keeps _ _ _) (by rfl)) (Dev.wr_keeps _ _ _) (by rfl))

theorem enableCipher_keeps (d : Dev) :
    DevKeeps 0x8000000C00000000000000000000000000000000000000000080202 d (enableCipher d) := by
  unfold enableCipher
  extract_lets -merge -underBinder +onlyGivenNames x0
  clear_value x0
  extract_lets -merge -underBinder +onlyGivenNames x1
  have h1 : DevKeeps 0x8000000C00000000000000000000000000000000000000000080202 d x1 := by
    subst x1
    refine iteP (P := DevKeeps 0x8000000C00000000000000000000000000000000000000000080202 d) (fun _ => ?_) (fun _ => ?_)
    · exact (.refl _ _)
    · exact (DevKeeps.step (DevKeeps.step (.refl _ _) (Dev.modNvm_keeps _ _) rfl) (epochWrite_keeps _ _) rfl)
  clear_value x1
  exact (DevKeeps.step h1 (Dev.wr_keeps _ _ _) (by rfl))

theorem cellSector_keeps (a0 : ℕ) (a1 : Sector) (d : Dev) :
    SndP (DevKeeps 6144 d) (cellSector a0 a1 d) := by
  unfold cellSector
  split
  · rename_i v0_0 v0_1 q0
    have h1 : DevKeeps 6144 d v0_1 := by
      refine SndP.get (P := (DevKeeps 6144 d)) ?_ q0
      exact DevKeeps.stepSnd (.refl _ _) (grantCells_keeps _ _ _) rfl
    split
    · rename_i v2_0 v2_1 q2
      have h3 : DevKeeps 6144 d v2_0 := by
        refine FstP.get (P := (DevKeeps 6144 d)) ?_ q2
        exact DevKeeps.stepFst h1 (takeStage_keeps _ _ _) rfl
      refine SndP.mk ?_
      exact (DevKeeps.step h3 (Dev.modPool_keeps _ _) rfl)

theorem restageZone_keeps (a0 : ℕ) (a1 : ℕ) (a2 : ℕ) (a3 : Sector) (d : Dev) :
    DevKeeps 79872 d (restageZone a0 a1 a2 a3 d) := by
  unfold restageZone
  extract_lets -merge -underBinder +onlyGivenNames x0
  clear_value x0
  extract_lets -merge -underBinder +onlyGivenNames x1
  have h1 : DevKeeps 79872 d x1 := by
    subst x1
    split
    · exact (DevKeeps.step (DevKeeps.step (.refl _ _) (freeSectorCells_keeps _ _) rfl) (dropStage_keeps _ _ _ _) rfl)
    · exact (.refl _ _)
  clear_value x1
  split
  · rename_i v2_0 v2_1 q2
    have h3 : DevKeeps 79872 d v2_1 := by
      refine SndP.get (P := (DevKeeps 79872 d)) ?_ q2
      exact DevKeeps.stepSnd h1 (cellSector_keeps _ _ _) rfl
    exact (DevKeeps.step h3 (Dev.modZone_keeps _ _ _ _) rfl)

theorem restageConv_keeps (a0 : ℕ) (a1 : Sector) (d : Dev) :
    DevKeeps 14336 d (restageConv a0 a1 d) := by
  unfold restageConv
  extract_lets -merge -underBinder +onlyGivenNames x0
  clear_value x0
  extract_lets -merge -underBinder +onlyGivenNames x1
  have h1 : DevKeeps 14336 d x1 := by
    subst x1
    split
    · exact (DevKeeps.step (DevKeeps.step (.refl _ _) (freeSectorCells_keeps _ _) rfl) (dropStage_keeps _ _ _ _) rfl)
    · exact (.refl _ _)
  clear_value x1
  split
  · rename_i v2_0 v2_1 q2
    have h3 : DevKeeps 14336 d v2_1 := by
      refine SndP.get (P := (DevKeeps 14336 d)) ?_ q2
      exact DevKeeps.stepSnd h1 (cellSector_keeps _ _ _) rfl
    exact (DevKeeps.step h3 (Dev.modZm_keeps _ _) rfl)

theorem replayZone_keeps (a0 : Bool) (a1 : Bool) (a2 : ℕ) (a3 : ℕ) (a4 : ℕ) (a5 : Sector) (d : Dev) :
    DevKeeps 0x8000000000000000617803 d (replayZone a0 a1 a2 a3 a4 a5 d) := by
  unfold replayZone
  extract_lets -merge -underBinder +onlyGivenNames x0
  clear_value x0
  split
  · refine iteP (P := DevKeeps 0x8000000000000000617803 d) (fun _ => ?_) (fun _ => ?_)
    · exact (.refl _ _)
    · split
      · refine iteP (P := DevKeeps 0x8000000000000000617803 d) (fun _ => ?_) (fun _ => ?_)
        · exact (.refl _ _)
        · split
          · extract_lets -merge -underBinder +onlyGivenNames x1
            have h1 : DevKeeps 0x8000000000000000617803 d x1 := by
              subst x1
              exact (DevKeeps.step (.refl _ _) (wantReplace_keeps _ _ _ _ _) rfl)
            clear_value x1
            refine iteP (P := DevKeeps 0x8000000000000000617803 d) (fun _ => ?_) (fun _ => ?_)
            · exact h1
            · exact (DevKeeps.step h1 (restageZone_keeps _ _ _ _ _) rfl)
      · refine iteP (P := DevKeeps 0x8000000000000000617803 d) (fun _ => ?_) (fun _ => ?_)
        · exact (DevKeeps.step (DevKeeps.step (DevKeeps.step (.refl _ _) (deferredError_keeps _ _ _ _ _) rfl) (Dev.modZone_keeps _ _ _ _) rfl) (markZone_keeps _ _ _ _) rfl)
        · exact (DevKeeps.step (.refl _ _) (restageZone_keeps _ _ _ _ _) rfl)
  · exact (.refl _ _)

theorem replayConv_keeps (a0 : Bool) (a1 : ℕ) (a2 : Sector) (d : Dev) :
    DevKeeps 0x8000000000000000003802 d (replayConv a0 a1 a2 d) := by
  unfold replayConv
  split
  · exact (.refl _ _)
  · exact (.refl _ _)
  · refine iteP (P := DevKeeps 0x8000000000000000003802 d) (fun _ => ?_) (fun _ => ?_)
    · exact (DevKeeps.step (.refl _ _) (deferredError_keeps _ _ _ _ _) rfl)
    · exact (DevKeeps.step (.refl _ _) (restageConv_keeps _ _ _) rfl)

theorem replayUnit_keeps (a0 : Bool) (a1 : Bool) (a2 : FlushUnit) (d : Dev) :
    DevKeeps 0x8000000000000000617803 d (replayUnit a0 a1 a2 d) := by
  unfold replayUnit
  refine DevKeeps.foldl ?_ (fun y0 a0 h0 => ?_)
  · exact (.refl _ _)
  · beta_reduce
    refine iteP (P := DevKeeps 0x8000000000000000617803 d) (fun _ => ?_) (fun _ => ?_)
    · exact (DevKeeps.step h0 (replayZone_keeps _ _ _ _ _ _ _) rfl)
    · exact (DevKeeps.step h0 (replayConv_keeps _ _ _ _) rfl)

theorem replayImage_keeps (a0 : ℕ) (a1 : ℕ) (a2 : Image) (a3 : List ℕ) (a4 : List (ℕ × ℕ)) (d : Dev) :
    DevKeeps 0x80000000000000B0617803 d (replayImage a0 a1 a2 a3 a4 d) := by
  unfold replayImage
  extract_lets -merge -underBinder +onlyGivenNames x0
  have h0 : DevKeeps 0x80000000000000B0617803 d x0 := by
    subst x0
    refine DevKeeps.foldl ?_ (fun y1 a1 h1 => ?_)
    · exact (.refl _ _)
    · beta_reduce
      exact (DevKeeps.step h1 (replayUnit_keeps _ _ _ _) rfl)
  clear_value x0
  extract_lets -merge -underBinder +onlyGivenNames x2
  have h2 : DevKeeps 0x80000000000000B0617803 d x2 := by
    subst x2
    exact (DevKeeps.step h0 (Dev.wr_keeps _ _ _) (by rfl))
  clear_value x2
  refine iteP (P := DevKeeps 0x80000000000000B0617803 d) (fun _ => ?_) (fun _ => ?_)
  · exact h2
  · exact (DevKeeps.step h2 (faultOn_keeps _ _) rfl)

theorem replayFar_keeps (a0 : ℕ) (a1 : ℕ) (d : Dev) :
    DevKeeps 6371328 d (replayFar a0 a1 d) := by
  unfold replayFar
  extract_lets -merge -underBinder +onlyGivenNames x0
  clear_value x0
  extract_lets -merge -underBinder +onlyGivenNames x1
  clear_value x1
  extract_lets -merge -underBinder +onlyGivenNames x2
  clear_value x2
  extract_lets -merge -underBinder +onlyGivenNames x3
  clear_value x3
  extract_lets -merge -underBinder +onlyGivenNames x4
  clear_value x4
  extract_lets -merge -underBinder +onlyGivenNames x5
  have h5 : DevKeeps 6371328 d x5 := by
    subst x5
    refine DevKeeps.forUpTo ?_ (fun a6 y6 h6 => ?_)
    · exact (.refl _ _)
    · beta_reduce
      refine iteP (P := DevKeeps 6371328 d) (fun _ => ?_) (fun _ => ?_)
      · exact h6
      · split
        · rename_i v7_0 v7_1 q7
          have h8 : DevKeeps 6371328 d v7_0 := by
            refine FstP.get (P := (DevKeeps 6371328 d)) ?_ q7
            exact DevKeeps.stepFst h6 (takeStage_keeps _ _ _) rfl
          exact (DevKeeps.step h8 (Dev.modZone_keeps _ _ _ _) rfl)
  clear_value x5
  refine iteP (P := DevKeeps 6371328 d) (fun _ => ?_) (fun _ => ?_)
  · exact (DevKeeps.step h5 (standsFar_keeps _ _ _ _ _) rfl)
  · exact (.refl _ _)

theorem moveStaged_keeps (d : Dev) :
    DevKeeps 6291456 d (moveStaged d) := by
  unfold moveStaged
  refine DevKeeps.foldl ?_ (fun y0 a0 h0 => ?_)
  · exact (.refl _ _)
  · beta_reduce
    refine iteP (P := DevKeeps 6291456 d) (fun _ => ?_) (fun _ => ?_)
    · refine DevKeeps.foldl ?_ (fun y1 a1 h1 => ?_)
      · exact h0
      · beta_reduce
        refine iteP (P := DevKeeps 6291456 d) (fun _ => ?_) (fun _ => ?_)
        · exact h1
        · exact (DevKeeps.step h1 (moveOut_keeps _ _ _ _ _) rfl)
    · exact h0

theorem replayAll_keeps (a0 : List ℕ) (a1 : List (ℕ × ℕ)) (d : Dev) :
    DevKeeps 0x80000000000000B061F803 d (replayAll a0 a1 d) := by
  unfold replayAll
  extract_lets -merge -underBinder +onlyGivenNames x0
  clear_value x0
  extract_lets -merge -underBinder +onlyGivenNames x1
  have h1 : DevKeeps 0x80000000000000B061F803 d x1 := by
    subst x1
    refine DevKeeps.foldl ?_ (fun y2 a2 h2 => ?_)
    · exact (.refl _ _)
    · beta_reduce
      exact (DevKeeps.step h2 (replayImage_keeps _ _ _ _ _ _) rfl)
  clear_value x1
  extract_lets -merge -underBinder +onlyGivenNames x3
  have h3 : DevKeeps 0x80000000000000B061F803 d x3 := by
    subst x3
    refine DevKeeps.step ?_ (moveStaged_keeps _) rfl
    refine DevKeeps.foldl ?_ (fun y4 a4 h4 => ?_)
    · exact h1
    · beta_reduce
      exact (DevKeeps.step h4 (replayFar_keeps _ _ _) rfl)
  clear_value x3
  refine DevKeeps.foldl ?_ (fun y5 a5 h5 => ?_)
  · exact h3
  · beta_reduce
    extract_lets -merge -underBinder +onlyGivenNames x6
    have h6 : DevKeeps 0x80000000000000B061F803 d x6 := by
      subst x6
      refine iteP (P := DevKeeps 0x80000000000000B061F803 d) (fun _ => ?_) (fun _ => ?_)
      · exact (DevKeeps.step h5 (padUnit_keeps _ _ _) rfl)
      · exact h5
    clear_value x6
    exact (DevKeeps.step h6 (syncZone_keeps _ _ _) rfl)

theorem armPlan_keeps (a0 : ℕ) (d : Dev) :
    DevKeeps 0x180000000000000000000000000000000000000000000000000000000000000000000000000000000000000000000012 d (armPlan a0 d) := by
  unfold armPlan
  extract_lets -merge -underBinder +onlyGivenNames x0
  have h0 : DevKeeps 0x180000000000000000000000000000000000000000000000000000000000000000000000000000000000000000000012 d x0 := by
    subst x0
    exact (DevKeeps.step (.refl _ _) (Dev.modChan_keeps _ _ _) rfl)
  clear_value x0
  refine iteP (P := DevKeeps 0x180000000000000000000000000000000000000000000000000000000000000000000000000000000000000000000012 d) (fun _ => ?_) (fun _ => ?_)
  · exact (.refl _ _)
  · exact (DevKeeps.step (DevKeeps.step (DevKeeps.step h0 (Dev.wrc_keeps _ _ _ _) (by rfl)) (Dev.wrc_keeps _ _ _ _) (by rfl)) (hatchArm_keeps _ _) rfl)

theorem armStored_keeps (a0 : ℕ) (d : Dev) :
    DevKeeps 0x380000000000000000000000000000000000000000000000000000000000000000000000000000000000000000000012 d (armStored a0 d) := by
  unfold armStored
  split
  · extract_lets -merge -underBinder +onlyGivenNames x0
    have h0 : DevKeeps 0x380000000000000000000000000000000000000000000000000000000000000000000000000000000000000000000012 d x0 := by
      subst x0
      exact (DevKeeps.step (.refl _ _) (Dev.modChan_keeps _ _ _) rfl)
    clear_value x0
    extract_lets -merge -underBinder +onlyGivenNames x1
    clear_value x1
    refine iteP (P := DevKeeps 0x380000000000000000000000000000000000000000000000000000000000000000000000000000000000000000000012 d) (fun _ => ?_) (fun _ => ?_)
    · exact (.refl _ _)
    · exact (DevKeeps.step (DevKeeps.step (DevKeeps.step h0 (Dev.wrc_keeps _ _ _ _) (by rfl)) (Dev.wrc_keeps _ _ _ _) (by rfl)) (hatchArm_keeps _ _) rfl)
  · exact (.refl _ _)

theorem runGravers_keeps (a0 : ℕ) (d : Dev) :
    DevKeeps 0x12000000000000000000000000000000000000000000000000000000000000000000000000010002 d (runGravers a0 d) := by
  unfold runGravers
  split
  · extract_lets -merge -underBinder +onlyGivenNames x0
    have h0 : DevKeeps 0x12000000000000000000000000000000000000000000000000000000000000000000000000010002 d x0 := by
      subst x0
      exact (DevKeeps.step (.refl _ _) (Dev.wr_keeps _ _ _) (by rfl))
    clear_value x0
    extract_lets -merge -underBinder +onlyGivenNames x1
    have h1 : DevKeeps 0x12000000000000000000000000000000000000000000000000000000000000000000000000010002 d x1 := by
      subst x1
      refine DevKeeps.forUpTo ?_ (fun a2 y2 h2 => ?_)
      · exact h0
      · beta_reduce
        split
        · refine iteP (P := DevKeeps 0x12000000000000000000000000000000000000000000000000000000000000000000000000010002 d) (fun _ => ?_) (fun _ => ?_)
          · exact (DevKeeps.step h2 (Dev.modGraver_keeps _ _ _) rfl)
          · exact (DevKeeps.step h2 (runGraver_keeps _ _) rfl)
        · exact (DevKeeps.step h2 (Dev.modGraver_keeps _ _ _) rfl)
        · exact h2
    clear_value x1
    extract_lets -merge -underBinder +onlyGivenNames x3
    have h3 : DevKeeps 0x12000000000000000000000000000000000000000000000000000000000000000000000000010002 d x3 := by
      subst x3
      exact (DevKeeps.step h1 (extendMeas_keeps _ _ _) rfl)
    clear_value x3
    exact (DevKeeps.step (DevKeeps.step h3 (Dev.modGrv_keeps _ _) rfl) (Dev.wr_keeps _ _ _) (by rfl))

theorem enableJenam_keeps (a0 : ℕ) (d : Dev) :
    DevKeeps 0x20000000000000000000000000000000000000000000000000000000000000000000002 d (enableJenam a0 d) := by
  unfold enableJenam
  split
  · extract_lets -merge -underBinder +onlyGivenNames x0
    have h0 : DevKeeps 0x20000000000000000000000000000000000000000000000000000000000000000000002 d x0 := by
      subst x0
      exact (DevKeeps.step (DevKeeps.step (DevKeeps.step (.refl _ _) (Dev.wr_keeps _ _ _) (by rfl)) (Dev.wr_keeps _ _ _) (by rfl)) (Dev.wr_keeps _ _ _) (by rfl))
    clear_value x0
    exact (DevKeeps.step (DevKeeps.step h0 (Dev.wr_keeps _ _ _) (by rfl)) (Dev.wr_keeps _ _ _) (by rfl))

theorem restartEtching_keeps (a0 : ℕ) (a1 : List Byte) (a2 : ℕ) (s : State) :
    StateKeeps 8454144 s (restartEtching a0 a1 a2 s) := by
  unfold restartEtching
  split
  · refine StateKeeps.modDev ?_ ?_
    · exact (.refl _ _)
    · beta_reduce
      exact (DevKeeps.step (.refl _ _) (Dev.modEtch_keeps _ _ _) rfl)
  · refine StateKeeps.step ?_ (etchStart_keeps _ _ _) rfl
    refine StateKeeps.modDev ?_ ?_
    · exact (.refl _ _)
    · beta_reduce
      exact (DevKeeps.step (DevKeeps.step (.refl _ _) (Dev.modEtch_keeps _ _ _) rfl) (extendMeas_keeps _ _ _) rfl)

theorem restartEtchings_keeps (s : State) :
    StateKeeps 8454144 s (restartEtchings s) := by
  unfold restartEtchings
  refine StateKeeps.foldl ?_ (fun y0 a0 h0 => ?_)
  · exact (.refl _ _)
  · beta_reduce
    exact (StateKeeps.step h0 (restartEtching_keeps _ _ _ _) rfl)

theorem answerReady_keeps (d : Dev) :
    DevKeeps 4096 d (answerReady d) := by
  unfold answerReady
  refine iteP (P := DevKeeps 4096 d) (fun _ => ?_) (fun _ => ?_)
  · exact (.refl _ _)
  · refine DevKeeps.foldl ?_ (fun y0 a0 h0 => ?_)
    · exact (.refl _ _)
    · beta_reduce
      refine iteP (P := DevKeeps 4096 d) (fun _ => ?_) (fun _ => ?_)
      · exact (DevKeeps.step h0 (Dev.modFunc_keeps _ _ _) rfl)
      · exact h0

theorem defaultQuotas_keeps (d : Dev) :
    DevKeeps 4096 d (defaultQuotas d) := by
  unfold defaultQuotas
  refine DevKeeps.foldl ?_ (fun y0 a0 h0 => ?_)
  · exact (.refl _ _)
  · beta_reduce
    exact (DevKeeps.step h0 (Dev.modFunc_keeps _ _ _) rfl)

theorem startHardware_keeps (a0 : StartObs) (d : Dev) :
    DevKeeps 0xC008000012000000F000300C0190000608600000C000002001FE500004000000000000000000000000191A12 d (startHardware a0 d) := by
  unfold startHardware
  extract_lets -merge -underBinder +onlyGivenNames x0
  have h0 : DevKeeps 0xC008000012000000F000300C0190000608600000C000002001FE500004000000000000000000000000191A12 d x0 := by
    subst x0
    exact (DevKeeps.step (.refl _ _) (runGravers_keeps _ _) rfl)
  clear_value x0
  extract_lets -merge -underBinder +onlyGivenNames x1
  have h1 : DevKeeps 0xC008000012000000F000300C0190000608600000C000002001FE500004000000000000000000000000191A12 d x1 := by
    subst x1
    exact (DevKeeps.step (DevKeeps.step (DevKeeps.step h0 (enableMemory_keeps _) rfl) (enableCipher_keeps _) rfl) (defaultQuotas_keeps _) rfl)
  clear_value x1
  exact (DevKeeps.step (DevKeeps.step h1 (findDies_keeps _ _) rfl) (Dev.modSys_keeps _ _) rfl)

theorem startTables_keeps (a0 : StartObs) (d : Dev) :
    DevKeeps 0xFFFFFFFFFFFFFFFFFFFFFFFFFFFFFFFFFFFFFFFFFFFFFFFFFFFFFFFFFFFFFFFFFFFFFFFFFFFFFFFFFFFFFFFFFFFFFFFFFFFFFFFFFFFFFFFFFFFFFFFFFFFFFFFF6D731A d (startTables a0 d) := by
  unfold startTables
  extract_lets -merge -underBinder +onlyGivenNames x0
  have h0 : DevKeeps 0xFFFFFFFFFFFFFFFFFFFFFFFFFFFFFFFFFFFFFFFFFFFFFFFFFFFFFFFFFFFFFFFFFFFFFFFFFFFFFFFFFFFFFFFFFFFFFFFFFFFFFFFFFFFFFFFFFFFFFFFFFFFFFFFF6D731A d x0 := by
    subst x0
    split
    · exact (DevKeeps.step (.refl _ _) (loadTables_keeps _ _) rfl)
    · exact (.refl _ _)
  clear_value x0
  extract_lets -merge -underBinder +onlyGivenNames x1
  have h1 : DevKeeps 0xFFFFFFFFFFFFFFFFFFFFFFFFFFFFFFFFFFFFFFFFFFFFFFFFFFFFFFFFFFFFFFFFFFFFFFFFFFFFFFFFFFFFFFFFFFFFFFFFFFFFFFFFFFFFFFFFFFFFFFFFFFFFFFFF6D731A d x1 := by
    subst x1
    refine iteP (P := DevKeeps 0xFFFFFFFFFFFFFFFFFFFFFFFFFFFFFFFFFFFFFFFFFFFFFFFFFFFFFFFFFFFFFFFFFFFFFFFFFFFFFFFFFFFFFFFFFFFFFFFFFFFFFFFFFFFFFFFFFFFFFFFFFFFFFFFF6D731A d) (fun _ => ?_) (fun _ => ?_)
    · exact (DevKeeps.step h0 (wearUnknown_keeps _) rfl)
    · exact h0
  clear_value x1
  extract_lets -merge -underBinder +onlyGivenNames x2
  have h2 : DevKeeps 0xFFFFFFFFFFFFFFFFFFFFFFFFFFFFFFFFFFFFFFFFFFFFFFFFFFFFFFFFFFFFFFFFFFFFFFFFFFFFFFFFFFFFFFFFFFFFFFFFFFFFFFFFFFFFFFFFFFFFFFFFFFFFFFFF6D731A d x2 := by
    subst x2
    exact (DevKeeps.step h1 (applyRecs_keeps _ _) rfl)
  clear_value x2
  extract_lets -merge -underBinder +onlyGivenNames x3
  have h3 : DevKeeps 0xFFFFFFFFFFFFFFFFFFFFFFFFFFFFFFFFFFFFFFFFFFFFFFFFFFFFFFFFFFFFFFFFFFFFFFFFFFFFFFFFFFFFFFFFFFFFFFFFFFFFFFFFFFFFFFFFFFFFFFFFFFFFFFFF6D731A d x3 := by
    subst x3
    refine DevKeeps.foldl ?_ (fun y4 a4 h4 => ?_)
    · exact h2
    · beta_reduce
      exact (DevKeeps.step h4 (factoryMark_keeps _ _ _) rfl)
  clear_value x3
  exact (DevKeeps.step (DevKeeps.step h3 (scrubFirst_keeps _) rfl) (seedCounter_keeps _) rfl)

theorem startWork_keeps (a0 : StartObs) (d : Dev) :
    DevKeeps 0xFFFFFFFFFFFFFFFFFFFFFFFFFFFFFFFFFFFFFFFFFFFFFFFFFFFFFFFFFFFFFFFFFFFFFFFFFFFFFFFFFFFFFFFFFFFFFFFFFFFFFFFFFFFFFFFFFFFFFFFFFFFFFFFF7DFB1B d (startWork a0 d) := by
  unfold startWork
  extract_lets -merge -underBinder +onlyGivenNames x0
  have h0 : DevKeeps 0xFFFFFFFFFFFFFFFFFFFFFFFFFFFFFFFFFFFFFFFFFFFFFFFFFFFFFFFFFFFFFFFFFFFFFFFFFFFFFFFFFFFFFFFFFFFFFFFFFFFFFFFFFFFFFFFFFFFFFFFFFFFFFFFF7DFB1B d x0 := by
    subst x0
    exact (DevKeeps.step (DevKeeps.step (.refl _ _) (startTables_keeps _ _) rfl) (replayAll_keeps _ _ _) rfl)
  clear_value x0
  extract_lets -merge -underBinder +onlyGivenNames x1
  have h1 : DevKeeps 0xFFFFFFFFFFFFFFFFFFFFFFFFFFFFFFFFFFFFFFFFFFFFFFFFFFFFFFFFFFFFFFFFFFFFFFFFFFFFFFFFFFFFFFFFFFFFFFFFFFFFFFFFFFFFFFFFFFFFFFFFFFFFFFFF7DFB1B d x1 := by
    subst x1
    exact (DevKeeps.step (DevKeeps.step (DevKeeps.step (DevKeeps.step h0 (restartReplacements_keeps _) rfl) (releaseImages_keeps _) rfl) (eraseDirty_keeps _) rfl) (rescueReady_keeps _) rfl)
  clear_value x1
  extract_lets -merge -underBinder +onlyGivenNames x2
  have h2 : DevKeeps 0xFFFFFFFFFFFFFFFFFFFFFFFFFFFFFFFFFFFFFFFFFFFFFFFFFFFFFFFFFFFFFFFFFFFFFFFFFFFFFFFFFFFFFFFFFFFFFFFFFFFFFFFFFFFFFFFFFFFFFFFFFFFFFFFF7DFB1B d x2 := by
    subst x2
    exact (DevKeeps.step h1 (enableJenam_keeps _ _) rfl)
  clear_value x2
  extract_lets -merge -underBinder +onlyGivenNames x3
  have h3 : DevKeeps 0xFFFFFFFFFFFFFFFFFFFFFFFFFFFFFFFFFFFFFFFFFFFFFFFFFFFFFFFFFFFFFFFFFFFFFFFFFFFFFFFFFFFFFFFFFFFFFFFFFFFFFFFFFFFFFFFFFFFFFFFFFFFFFFFF7DFB1B d x3 := by
    subst x3
    refine DevKeeps.step ?_ (metadataCheckpoint_keeps _) rfl
    refine iteP (P := DevKeeps 0xFFFFFFFFFFFFFFFFFFFFFFFFFFFFFFFFFFFFFFFFFFFFFFFFFFFFFFFFFFFFFFFFFFFFFFFFFFFFFFFFFFFFFFFFFFFFFFFFFFFFFFFFFFFFFFFFFFFFFFFFFFFFFFFF7DFB1B d) (fun _ => ?_) (fun _ => ?_)
    · exact (DevKeeps.step h2 (faultOn_keeps _ _) rfl)
    · exact h2
  clear_value x3
  refine DevKeeps.step ?_ (Dev.modSys_keeps _ _) rfl
  refine DevKeeps.forUpTo ?_ (fun a4 y4 h4 => ?_)
  · exact h3
  · exact (DevKeeps.step h4 (armPlan_keeps _ _) rfl)

theorem startService_keeps (d : Dev) :
    DevKeeps 1052672 d (startService d) := by
  unfold startService
  exact (DevKeeps.step (DevKeeps.step (DevKeeps.step (.refl _ _) (Dev.modSys_keeps _ _) rfl) (Dev.modHost_keeps _ _) rfl) (answerReady_keeps _) rfl)

theorem startSheet_keeps (s : State) :
    StateKeeps 0xFFFFFFFFFFFFFFFFFFFFFFFFFFFFFFFFFFFFFFFFFFFFFFFFFFFFFFFFFFFFFFFFFFFFFFFFFFFFFFFFFFFFFFFFFFFFFFFFFFFFFFFFFFFFFFFFFFFFFFFFFFFFFFFFFDFB1B s (startSheet s) := by
  unfold startSheet
  split
  · refine iteP (P := StateKeeps 0xFFFFFFFFFFFFFFFFFFFFFFFFFFFFFFFFFFFFFFFFFFFFFFFFFFFFFFFFFFFFFFFFFFFFFFFFFFFFFFFFFFFFFFFFFFFFFFFFFFFFFFFFFFFFFFFFFFFFFFFFFFFFFFFFFDFB1B s) (fun _ => ?_) (fun _ => ?_)
    · refine StateKeeps.modDev ?_ ?_
      · exact (.refl _ _)
      · exact (DevKeeps.step (.refl _ _) (startWork_keeps _ _) rfl)
    · exact (.refl _ _)
  · refine iteP (P := StateKeeps 0xFFFFFFFFFFFFFFFFFFFFFFFFFFFFFFFFFFFFFFFFFFFFFFFFFFFFFFFFFFFFFFFFFFFFFFFFFFFFFFFFFFFFFFFFFFFFFFFFFFFFFFFFFFFFFFFFFFFFFFFFFFFFFFFFFDFB1B s) (fun _ => ?_) (fun _ => ?_)
    · refine StateKeeps.modDev ?_ ?_
      · exact (.refl _ _)
      · beta_reduce
        refine DevKeeps.step ?_ (Dev.modSys_keeps _ _) rfl
        refine DevKeeps.forUpTo ?_ (fun a0 y0 h0 => ?_)
        · exact (.refl _ _)
        · exact (DevKeeps.step h0 (armStored_keeps _ _) rfl)
    · exact (.refl _ _)
  · extract_lets -merge -underBinder +onlyGivenNames x1
    have h1 : StateKeeps 0xFFFFFFFFFFFFFFFFFFFFFFFFFFFFFFFFFFFFFFFFFFFFFFFFFFFFFFFFFFFFFFFFFFFFFFFFFFFFFFFFFFFFFFFFFFFFFFFFFFFFFFFFFFFFFFFFFFFFFFFFFFFFFFFFFDFB1B s x1 := by
      subst x1
      refine StateKeeps.modDev ?_ ?_
      · exact (.refl _ _)
      · exact (DevKeeps.step (.refl _ _) (rescueReady_keeps _) rfl)
    clear_value x1
    refine iteP (P := StateKeeps 0xFFFFFFFFFFFFFFFFFFFFFFFFFFFFFFFFFFFFFFFFFFFFFFFFFFFFFFFFFFFFFFFFFFFFFFFFFFFFFFFFFFFFFFFFFFFFFFFFFFFFFFFFFFFFFFFFFFFFFFFFFFFFFFFFFDFB1B s) (fun _ => ?_) (fun _ => ?_)
    · refine StateKeeps.step ?_ (restartEtchings_keeps _) rfl
      refine StateKeeps.modDev ?_ ?_
      · exact h1
      · exact (DevKeeps.step (StateKeeps.dev h1) (startService_keeps _) rfl)
    · exact h1
  · exact (.refl _ _)

theorem thrumluxStart_keeps (a0 : StartObs) (s : State) :
    StateKeeps 0x18004C00A000013000000F0E0300C0195000608600000C000003801FE500014000040008000000000000030FFFBF3 s (thrumluxStart a0 s) := by
  unfold thrumluxStart
  extract_lets -merge -underBinder +onlyGivenNames x0
  have h0 : StateKeeps 0x18004C00A000013000000F0E0300C0195000608600000C000003801FE500014000040008000000000000030FFFBF3 s x0 := by
    subst x0
    refine StateKeeps.step ?_ (selfTestEnd_keeps _ _) rfl
    refine StateKeeps.modDev ?_ ?_
    · exact (.refl _ _)
    · exact (DevKeeps.step (.refl _ _) (startHardware_keeps _ _) rfl)
  clear_value x0
  refine iteP (P := StateKeeps 0x18004C00A000013000000F0E0300C0195000608600000C000003801FE500014000040008000000000000030FFFBF3 s) (fun _ => ?_) (fun _ => ?_)
  · refine StateKeeps.modDev ?_ ?_
    · exact (.refl _ _)
    · beta_reduce
      exact (DevKeeps.step (DevKeeps.step (.refl _ _) (selfTestResults_keeps _ _) rfl) (fatalStorage_keeps _) rfl)
  · refine StateKeeps.foldl ?_ (fun y1 a1 h1 => ?_)
    · exact h0
    · beta_reduce
      exact (StateKeeps.step h1 (retireChannel_keeps _ _) rfl)

theorem execThrumluxStartup_keeps (a0 : StartObs) (s : State) :
    NextP (StateKeeps 0x18004C00A000013000000F0E0300C0195000608600000C000003801FE500014000040008000000000000030FFFBF3 s) (execThrumluxStartup a0 s) := by
  unfold execThrumluxStartup
  refine iteP (P := NextP (StateKeeps 0x18004C00A000013000000F0E0300C0195000608600000C000003801FE500014000040008000000000000030FFFBF3 s)) (fun _ => ?_) (fun _ => ?_)
  · refine NextP.next ?_
    exact (StateKeeps.step (.refl _ _) (thrumluxStart_keeps _ _) rfl)
  · exact StateKeeps.stepNext (.refl _ _) (noEvent_keeps _ _) rfl

end Sys2Proof.Machine
end

