-- ==== Sys2Proof/Laws/KeepWake.lean ====
section
/-! SUPPORT. What each operation of Machine/Wake.lean leaves as it was. -/

namespace Sys2Proof.Machine

theorem ps4Image_keeps (d : Dev) :
    DevKeeps 0x900C0002 d (ps4Image d) := by
  unfold ps4Image
  split
  · refine iteP (P := DevKeeps 0x900C0002 d) (fun _ => ?_) (fun _ => ?_)
    · exact (DevKeeps.step (DevKeeps.step (DevKeeps.step (.refl _ _) (writeImage_keeps _ _) rfl) (endImage_keeps _) rfl) (Dev.modPwr_keeps _ _) rfl)
    · exact (.refl _ _)
  · exact (.refl _ _)

theorem ps4Seal_keeps (s : State) : StateKeeps 0x3CA00000000C4000A s (ps4Seal s) := by
  unfold ps4Seal
  try dsimp only
  refine StateKeeps.setMem (t := State.modDev s _) ?_ (mapWf_filter _) rfl
  refine StateKeeps.modDev (.refl _ _) ?_
  refine DevKeeps.step (k := 8 + 4194304) (e := enterPs 4 (((saveTime s.dev).wr Fd.AON_STAT_SEALED 1).modPwr _)) ?_ ⟨fun _ => rfl, fun _ => rfl, fun _ => rfl, fun h => absurd h (by decide), fun _ => rfl, fun _ => rfl, fun _ => rfl, fun _ => rfl, fun _ => rfl, fun _ => rfl, fun _ => rfl, fun _ => rfl, fun _ => rfl, fun _ => rfl, fun _ => rfl, fun _ => rfl, fun _ => rfl, fun _ => rfl, fun _ => rfl, fun _ => rfl, fun _ => rfl, fun _ => rfl, fun h => absurd h (by decide), fun _ _ => rfl⟩ rfl
  exact ((((DevKeeps.refl _ _).step (saveTime_keeps _) rfl).step (Dev.wr_keeps _ _ _) (by rfl)).step (Dev.modPwr_keeps _ _) rfl).step (enterPs_keeps _ _) rfl

theorem resumeDev_keeps (bad : List Nat) (d : Dev) : DevKeeps devMask d (resumeDev bad d) := .all _ _

theorem ps4Exit_keeps (a0 : List Nat) (s : State) : StateKeeps allMask s (ps4Exit a0 s) := by
  unfold ps4Exit
  extract_lets x0 x1
  have h0 : StateKeeps allMask s x0 := .all rfl id
  refine iteP (P := StateKeeps allMask s) (fun _ => h0.modDev ((DevKeeps.all _ _).mono rfl)) (fun _ => ?_)
  refine StateKeeps.foldl (.all rfl fun h => mapWf_filter _ h) (fun y e h => ?_)
  split
  · exact h.step (etchStart_keeps _ _ _) rfl
  · exact h

theorem reloadPlan_keeps (a0 : ℕ) (d : Dev) :
    DevKeeps 0x180000000000000000000000000000000000000000000000000000000000000000000000000000000000000000000012 d (reloadPlan a0 d) := by
  unfold reloadPlan
  split
  · refine iteP (P := DevKeeps 0x180000000000000000000000000000000000000000000000000000000000000000000000000000000000000000000012 d) (fun _ => ?_) (fun _ => ?_)
    · exact (.refl _ _)
    · exact (DevKeeps.step (DevKeeps.step (DevKeeps.step (DevKeeps.step (.refl _ _) (Dev.modChan_keeps _ _ _) rfl) (Dev.wrc_keeps _ _ _ _) (by rfl)) (Dev.wrc_keeps _ _ _ _) (by rfl)) (hatchArm_keeps _ _) rfl)
  · exact (DevKeeps.step (.refl _ _) (armPlan_keeps _ _) rfl)

theorem fullRestore_keeps (d : Dev) :
    DevKeeps 0x18000000C000000000000000F000300C01900006006000000000002001FE5000040000000080000000000000B06DF813 d (fullRestore d) := by
  unfold fullRestore
  extract_lets -merge -underBinder +onlyGivenNames x0
  have h0 : DevKeeps 0x18000000C000000000000000F000300C01900006006000000000002001FE5000040000000080000000000000B06DF813 d x0 := by
    subst x0
    refine iteP (P := DevKeeps 0x18000000C000000000000000F000300C01900006006000000000002001FE5000040000000080000000000000B06DF813 d) (fun _ => ?_) (fun _ => ?_)
    · refine DevKeeps.forUpTo ?_ (fun a1 y1 h1 => ?_)
      · exact (.refl _ _)
      · exact (DevKeeps.step h1 (reloadPlan_keeps _ _) rfl)
    · exact (.refl _ _)
  clear_value x0
  extract_lets -merge -underBinder +onlyGivenNames x2
  have h2 : DevKeeps 0x18000000C000000000000000F000300C01900006006000000000002001FE5000040000000080000000000000B06DF813 d x2 := by
    subst x2
    exact (DevKeeps.step (DevKeeps.step (DevKeeps.step h0 (enableMemory_keeps _) rfl) (placeAreas_keeps _) rfl) (replayAll_keeps _ _ _) rfl)
  clear_value x2
  refine iteP (P := DevKeeps 0x18000000C000000000000000F000300C01900006006000000000002001FE5000040000000080000000000000B06DF813 d) (fun _ => ?_) (fun _ => ?_)
  · exact (DevKeeps.step (DevKeeps.step (DevKeeps.step h2 (releaseImages_keeps _) rfl) (rescueReady_keeps _) rfl) (Dev.modPwr_keeps _ _) rfl)
  · exact (.refl _ _)

theorem wakeCascade_keeps (a0 : ℕ) (d : Dev) :
    DevKeeps 4194304 d (wakeCascade a0 d) := by
  unfold wakeCascade
  refine iteP (P := DevKeeps 4194304 d) (fun _ => ?_) (fun _ => ?_)
  · refine iteP (P := DevKeeps 4194304 d) (fun _ => ?_) (fun _ => ?_)
    · exact (.refl _ _)
    · exact DevKeeps.set_out _ (.refl _ _) rfl
  · refine iteP (P := DevKeeps 4194304 d) (fun _ => ?_) (fun _ => ?_)
    · exact DevKeeps.set_out _ (.refl _ _) rfl
    · exact DevKeeps.set_out _ (.refl _ _) rfl

theorem driveWake_keeps (a0 : ℕ) (d : Dev) :
    DevKeeps 4194304 d (driveWake a0 d) := by
  unfold driveWake
  refine DevKeeps.forUpTo ?_ (fun a0 y0 h0 => ?_)
  · exact (.refl _ _)
  · beta_reduce
    refine iteP (P := DevKeeps 4194304 d) (fun _ => ?_) (fun _ => ?_)
    · exact (DevKeeps.step h0 (Dev.send_keeps _ _) rfl)
    · exact h0

theorem wakeUp_keeps (a0 : ℕ) (a1 : List ℕ) (s : State) :
    StateKeeps allMask s (wakeUp a0 a1 s) := by
  unfold wakeUp
  extract_lets -merge -underBinder +onlyGivenNames x0
  have h0 : StateKeeps allMask s x0 := by
    subst x0
    refine StateKeeps.modDev ?_ ?_
    · exact (.refl _ _)
    · exact (DevKeeps.step (.refl _ _) (recordWake_keeps _ _) rfl)
  clear_value x0
  extract_lets -merge -underBinder +onlyGivenNames x1
  have h1 : DevKeeps allMask s.dev x1 := by
    subst x1
    exact (StateKeeps.dev h0)
  clear_value x1
  refine iteP (P := StateKeeps allMask s) (fun _ => ?_) (fun _ => ?_)
  · exact h0
  · refine iteP (P := StateKeeps allMask s) (fun _ => ?_) (fun _ => ?_)
    · refine StateKeeps.modDev ?_ ?_
      · exact h0
      · beta_reduce
        exact (DevKeeps.step (DevKeeps.step (StateKeeps.dev h0) (wakeIdle_keeps _) rfl) (abortEntry_keeps _ _) rfl)
    · refine iteP (P := StateKeeps allMask s) (fun _ => ?_) (fun _ => ?_)
      · refine StateKeeps.modDev ?_ ?_
        · exact h0
        · beta_reduce
          exact (DevKeeps.step (DevKeeps.step (DevKeeps.step (StateKeeps.dev h0) (exitPs3_keeps _) rfl) (wakeCascade_keeps _ _) rfl) (driveWake_keeps _ _) rfl)
      · refine iteP (P := StateKeeps allMask s) (fun _ => ?_) (fun _ => ?_)
        · refine StateKeeps.step ?_ (ps4Exit_keeps _ _) rfl
          refine StateKeeps.modDev ?_ ?_
          · exact h0
          · beta_reduce
            exact (DevKeeps.step (DevKeeps.step (StateKeeps.dev h0) (wakeCascade_keeps _ _) rfl) (driveWake_keeps _ _) rfl)
        · exact h0

theorem execWakeSource_keeps (a0 : Fin 24) (a1 : WakeObs) (s : State) :
    NextP (StateKeeps allMask s) (execWakeSource a0 a1 s) := by
  unfold execWakeSource
  refine iteP (P := NextP (StateKeeps allMask s)) (fun _ => ?_) (fun _ => ?_)
  · exact StateKeeps.stepNext (.refl _ _) (noEvent_keeps _ _) rfl
  · refine NextP.next ?_
    refine StateKeeps.step ?_ (wakeUp_keeps _ _ _) rfl
    refine StateKeeps.modDev ?_ ?_
    · exact (.refl _ _)
    · exact (DevKeeps.step (.refl _ _) (setTicks_keeps _ _) rfl)

theorem execAonAlarm_keeps (s : State) :
    NextP (StateKeeps allMask s) (execAonAlarm s) := by
  unfold execAonAlarm
  refine iteP (P := NextP (StateKeeps allMask s)) (fun _ => ?_) (fun _ => ?_)
  · refine NextP.next ?_
    refine StateKeeps.step ?_ (wakeUp_keeps _ _ _) rfl
    refine StateKeeps.modDev ?_ ?_
    · exact (.refl _ _)
    · exact (DevKeeps.step (.refl _ _) (setTicks_keeps _ _) rfl)
  · exact StateKeeps.stepNext (.refl _ _) (noEvent_keeps _ _) rfl

end Sys2Proof.Machine
end

