-- ==== Sys2Proof/Laws/KeepStroke.lean ====
section
/-! SUPPORT. What each operation of Machine/Stroke.lean leaves as it was. -/

namespace Sys2Proof.Machine

theorem strkCtlWrite_keeps (a0 : ℕ) (d : Dev) :
    DevKeeps 0x20000000A d (strkCtlWrite a0 d) := by
  unfold strkCtlWrite
  extract_lets -merge -underBinder +onlyGivenNames x0
  have h0 : DevKeeps 0x20000000A d x0 := by
    subst x0
    exact (DevKeeps.step (DevKeeps.step (.refl _ _) (Dev.wr_keeps _ _ _) (by rfl)) (Dev.wr_keeps _ _ _) (by rfl))
  clear_value x0
  extract_lets -merge -underBinder +onlyGivenNames x1
  clear_value x1
  refine iteP (P := DevKeeps 0x20000000A d) (fun _ => ?_) (fun _ => ?_)
  · exact DevKeeps.set_strk _ h0 rfl
  · exact h0

theorem execStrkLoad_keeps (a0 : Word) (a1 : BitVec 10) (s : State) :
    NextP (StateKeeps 0x20000000B s) (execStrkLoad a0 a1 s) := by
  unfold execStrkLoad
  refine onDev_keeps ?_
  refine orRsv_keeps ?_ ?_ rfl
  · exact (.refl _ _)
  · beta_reduce
    exact (DevKeeps.step (DevKeeps.step (.refl _ _) (Dev.atCycle_keeps _ _) rfl) (strkCtlWrite_keeps _ _) rfl)

theorem countLoRead_keeps (d : Dev) :
    DevKeeps 12 d (countLoRead d) := by
  unfold countLoRead
  extract_lets -merge -underBinder +onlyGivenNames x0
  clear_value x0
  refine DevKeeps.step (e := d) (k := 12) ?_ ⟨fun _ => rfl, fun _ => rfl, fun h => absurd h (by decide), fun h => absurd h (by decide), fun _ => rfl, fun _ => rfl, fun _ => rfl, fun _ => rfl, fun _ => rfl, fun _ => rfl, fun _ => rfl, fun _ => rfl, fun _ => rfl, fun _ => rfl, fun _ => rfl, fun _ => rfl, fun _ => rfl, fun _ => rfl, fun _ => rfl, fun _ => rfl, fun _ => rfl, fun _ => rfl, fun _ => rfl, fun _ _ => rfl⟩ rfl
  exact (.refl _ _)

theorem execCountLoRead_keeps (a0 : BitVec 10) (s : State) :
    NextP (StateKeeps 12 s) (execCountLoRead a0 s) := by
  unfold execCountLoRead
  refine onDev_keeps ?_
  refine always_keeps ?_
  beta_reduce
  exact (DevKeeps.step (DevKeeps.step (.refl _ _) (Dev.atCycle_keeps _ _) rfl) (countLoRead_keeps _) rfl)

theorem layAside_keeps (d : Dev) :
    DevKeeps 16 d (layAside d) := by
  unfold layAside
  refine DevKeeps.forUpTo ?_ (fun a0 y0 h0 => ?_)
  · exact (.refl _ _)
  · beta_reduce
    exact (DevKeeps.step h0 (Dev.modChan_keeps _ _ _) rfl)

theorem slotsAnew_keeps (d : Dev) :
    DevKeeps 16 d (slotsAnew d) := by
  unfold slotsAnew
  refine DevKeeps.forUpTo ?_ (fun a0 y0 h0 => ?_)
  · exact (.refl _ _)
  · beta_reduce
    exact (DevKeeps.step h0 (Dev.modChan_keeps _ _ _) rfl)

theorem pllUnlock_keeps (d : Dev) :
    DevKeeps 0x4043005001A d (pllUnlock d) := by
  unfold pllUnlock
  extract_lets -merge -underBinder +onlyGivenNames x0
  have h0 : DevKeeps 0x4043005001A d x0 := by
    subst x0
    exact (DevKeeps.step (DevKeeps.step (DevKeeps.step (DevKeeps.step (DevKeeps.step (.refl _ _) (Dev.wr_keeps _ _ _) (by rfl)) (Dev.add_keeps _ _ _) (by rfl)) (faultOn_keeps _ _) rfl) (Dev.trace_keeps _ _ _) rfl) (layAside_keeps _) rfl)
  clear_value x0
  extract_lets -merge -underBinder +onlyGivenNames x1
  clear_value x1
  extract_lets -merge -underBinder +onlyGivenNames x2
  clear_value x2
  refine DevKeeps.step (e := x0) (k := 262152) ?_ ⟨fun _ => rfl, fun _ => rfl, fun _ => rfl, fun h => absurd h (by decide), fun _ => rfl, fun _ => rfl, fun _ => rfl, fun _ => rfl, fun _ => rfl, fun _ => rfl, fun _ => rfl, fun _ => rfl, fun _ => rfl, fun _ => rfl, fun _ => rfl, fun _ => rfl, fun _ => rfl, fun _ => rfl, fun h => absurd h (by decide), fun _ => rfl, fun _ => rfl, fun _ => rfl, fun _ => rfl, fun _ _ => rfl⟩ rfl
  exact h0

theorem execStrokePllUnlock_keeps (a0 : BitVec 10) (s : State) :
    NextP (StateKeeps 0x4043005001A s) (execStrokePllUnlock a0 s) := by
  unfold execStrokePllUnlock
  refine onDev_keeps ?_
  beta_reduce
  refine onlyIf_keeps ?_
  beta_reduce
  exact (DevKeeps.step (DevKeeps.step (.refl _ _) (Dev.atCycle_keeps _ _) rfl) (pllUnlock_keeps _) rfl)

theorem endSheet_keeps (a0 : ℕ) (d : Dev) :
    DevKeeps 0x91000000000000000000000000000000000000000000000000000000000000000000000000000000000000000000000012 d (endSheet a0 d) := by
  unfold endSheet
  extract_lets -merge -underBinder +onlyGivenNames x0
  clear_value x0
  extract_lets -merge -underBinder +onlyGivenNames x1
  have h1 : DevKeeps 0x91000000000000000000000000000000000000000000000000000000000000000000000000000000000000000000000012 d x1 := by
    subst x1
    exact (DevKeeps.step (DevKeeps.step (.refl _ _) (Dev.wrc_keeps _ _ _ _) (by rfl)) (Dev.wrc_keeps _ _ _ _) (by rfl))
  clear_value x1
  extract_lets -merge -underBinder +onlyGivenNames x2
  clear_value x2
  extract_lets -merge -underBinder +onlyGivenNames x3
  have h3 : DevKeeps 0x91000000000000000000000000000000000000000000000000000000000000000000000000000000000000000000000012 d x3 := by
    subst x3
    refine iteP (P := DevKeeps 0x91000000000000000000000000000000000000000000000000000000000000000000000000000000000000000000000012 d) (fun _ => ?_) (fun _ => ?_)
    · exact (DevKeeps.step (DevKeeps.step h1 (Dev.addc_keeps _ _ _ _) (by rfl)) (Dev.wrc_keeps _ _ _ _) (by rfl))
    · exact h1
  clear_value x3
  exact (DevKeeps.step h3 (Dev.modChan_keeps _ _ _) rfl)

theorem switchBank_keeps (a0 : ℕ) (a1 : Bool) (d : Dev) :
    DevKeeps 0x2100000000000000000000000000000000000000000000000000000000000000000000000000000000000000000020012 d (switchBank a0 a1 d) := by
  unfold switchBank
  extract_lets -merge -underBinder +onlyGivenNames x0
  have h0 : DevKeeps 0x2100000000000000000000000000000000000000000000000000000000000000000000000000000000000000000020012 d x0 := by
    subst x0
    exact (DevKeeps.step (.refl _ _) (Dev.modChan_keeps _ _ _) rfl)
  clear_value x0
  extract_lets -merge -underBinder +onlyGivenNames x1
  clear_value x1
  extract_lets -merge -underBinder +onlyGivenNames x2
  have h2 : DevKeeps 0x2100000000000000000000000000000000000000000000000000000000000000000000000000000000000000000020012 d x2 := by
    subst x2
    exact DevKeeps.set_jnm _ h0 rfl
  clear_value x2
  exact (DevKeeps.step (DevKeeps.step h2 (Dev.wrc_keeps _ _ _ _) (by rfl)) (Dev.wrc_keeps _ _ _ _) (by rfl))

theorem hatchBoundary_keeps (a0 : ℕ) (d : Dev) :
    DevKeeps 0x2100000000000000000000000000000000000000000000000000000000000000000000000000000000000000000020012 d (hatchBoundary a0 d) := by
  unfold hatchBoundary
  extract_lets -merge -underBinder +onlyGivenNames x0
  have h0 : DevKeeps 0x2100000000000000000000000000000000000000000000000000000000000000000000000000000000000000000020012 d x0 := by
    subst x0
    split
    · refine iteP (P := DevKeeps 0x2100000000000000000000000000000000000000000000000000000000000000000000000000000000000000000020012 d) (fun _ => ?_) (fun _ => ?_)
      · exact (DevKeeps.step (.refl _ _) (hatchCheckEnd_keeps _ _ _) rfl)
      · exact (.refl _ _)
    · exact (.refl _ _)
  clear_value x0
  extract_lets -merge -underBinder +onlyGivenNames x1
  have h1 : DevKeeps 0x2100000000000000000000000000000000000000000000000000000000000000000000000000000000000000000020012 d x1 := by
    subst x1
    split
    · split
      · exact (DevKeeps.step h0 (Dev.modChan_keeps _ _ _) rfl)
      · exact (DevKeeps.step h0 (switchBank_keeps _ _ _) rfl)
      · refine iteP (P := DevKeeps 0x2100000000000000000000000000000000000000000000000000000000000000000000000000000000000000000020012 d) (fun _ => ?_) (fun _ => ?_)
        · exact (DevKeeps.step h0 (switchBank_keeps _ _ _) rfl)
        · exact h0
    · exact h0
  clear_value x1
  split
  · exact (DevKeeps.step h1 (Dev.modChan_keeps _ _ _) rfl)
  · exact (DevKeeps.step (DevKeeps.step h1 (Dev.modChan_keeps _ _ _) rfl) (Dev.wrc_keeps _ _ _ _) (by rfl))
  · exact h1

theorem rateEffect_keeps (a0 : ℕ) (d : Dev) :
    DevKeeps 0x80000000000000000000000000000000000000000000000000000000000000000000000000000000000000000000000012 d (rateEffect a0 d) := by
  unfold rateEffect
  extract_lets -merge -underBinder +onlyGivenNames x0
  have h0 : DevKeeps 0x80000000000000000000000000000000000000000000000000000000000000000000000000000000000000000000000012 d x0 := by
    subst x0
    exact (DevKeeps.step (.refl _ _) (Dev.modChan_keeps _ _ _) rfl)
  clear_value x0
  exact (DevKeeps.step h0 (Dev.wrc_keeps _ _ _ _) (by rfl))

theorem trainSheet_keeps (a0 : ℕ) (a1 : Bool) (d : Dev) :
    DevKeeps 0x84000000000000000000000000000000000000000000000000000000000000000000000000000000000000000000000012 d (trainSheet a0 a1 d) := by
  unfold trainSheet
  extract_lets -merge -underBinder +onlyGivenNames x0
  clear_value x0
  split
  · exact (DevKeeps.step (.refl _ _) (rateEffect_keeps _ _) rfl)
  · refine iteP (P := DevKeeps 0x84000000000000000000000000000000000000000000000000000000000000000000000000000000000000000000000012 d) (fun _ => ?_) (fun _ => ?_)
    · exact (.refl _ _)
    · exact (DevKeeps.step (.refl _ _) (Dev.modChan_keeps _ _ _) rfl)
  · exact (.refl _ _)
  · refine iteP (P := DevKeeps 0x84000000000000000000000000000000000000000000000000000000000000000000000000000000000000000000000012 d) (fun _ => ?_) (fun _ => ?_)
    · exact (DevKeeps.step (DevKeeps.step (.refl _ _) (Dev.wrc_keeps _ _ _ _) (by rfl)) (Dev.modChan_keeps _ _ _) rfl)
    · exact (.refl _ _)

theorem sheetChan_keeps (a0 : ℕ) (d : Dev) :
    DevKeeps 0x97100000000000000000000000000000000000000000000000000000000000000000000000000000000000000000020012 d (sheetChan a0 d) := by
  unfold sheetChan
  extract_lets -merge -underBinder +onlyGivenNames x0
  clear_value x0
  exact (DevKeeps.step (DevKeeps.step (DevKeeps.step (.refl _ _) (endSheet_keeps _ _) rfl) (hatchBoundary_keeps _ _) rfl) (trainSheet_keeps _ _ _) rfl)

theorem readEntry_keeps (a0 : ℕ) (a1 : Bool) (d : Dev) :
    DevKeeps 0x100000000000000000000000000000000000000000000000000000000000000000000000000000000000000000000012 d (readEntry a0 a1 d) := by
  unfold readEntry
  extract_lets -merge -underBinder +onlyGivenNames x0
  clear_value x0
  extract_lets -merge -underBinder +onlyGivenNames x1
  clear_value x1
  extract_lets -merge -underBinder +onlyGivenNames x2
  clear_value x2
  refine iteP (P := DevKeeps 0x100000000000000000000000000000000000000000000000000000000000000000000000000000000000000000000012 d) (fun _ => ?_) (fun _ => ?_)
  · exact (DevKeeps.step (.refl _ _) (Dev.modChan_keeps _ _ _) rfl)
  · refine iteP (P := DevKeeps 0x100000000000000000000000000000000000000000000000000000000000000000000000000000000000000000000012 d) (fun _ => ?_) (fun _ => ?_)
    · exact (DevKeeps.step (DevKeeps.step (.refl _ _) (Dev.modChan_keeps _ _ _) rfl) (Dev.wrc_keeps _ _ _ _) (by rfl))
    · exact (DevKeeps.step (DevKeeps.step (.refl _ _) (Dev.modChan_keeps _ _ _) rfl) (Dev.flagcIf_keeps _ _ _ _) (by rfl))

theorem putEye_keeps (a0 : ℕ) (a1 : ℕ) (a2 : ℕ) (a3 : ℕ) (a4 : Bool) (d : Dev) :
    DevKeeps 0x80000000000000000000000000000000000000000000000000000000000000000000000000000000000000000000000012 d (putEye a0 a1 a2 a3 a4 d) := by
  unfold putEye
  extract_lets -merge -underBinder +onlyGivenNames x0
  clear_value x0
  extract_lets -merge -underBinder +onlyGivenNames x1
  clear_value x1
  split
  · extract_lets -merge -underBinder +onlyGivenNames x2
    clear_value x2
    extract_lets -merge -underBinder +onlyGivenNames x3
    have h3 : DevKeeps 0x80000000000000000000000000000000000000000000000000000000000000000000000000000000000000000000000012 d x3 := by
      subst x3
      exact (DevKeeps.step (.refl _ _) (Dev.modDie_keeps _ _ _ _) rfl)
    clear_value x3
    extract_lets -merge -underBinder +onlyGivenNames x4
    clear_value x4
    exact (DevKeeps.step (DevKeeps.step h3 (Dev.flagcIf_keeps _ _ _ _) (by rfl)) (Dev.flagcIf_keeps _ _ _ _) (by rfl))

theorem rateFall_keeps (a0 : ℕ) (d : Dev) :
    DevKeeps 0x4000000000000000000000000000000000000000000000000000000000000000000000000000000000000000000000012 d (rateFall a0 d) := by
  unfold rateFall
  extract_lets -merge -underBinder +onlyGivenNames x0
  clear_value x0
  extract_lets -merge -underBinder +onlyGivenNames x1
  clear_value x1
  split
  · extract_lets -merge -underBinder +onlyGivenNames x2
    have h2 : DevKeeps 0x4000000000000000000000000000000000000000000000000000000000000000000000000000000000000000000000012 d x2 := by
      subst x2
      exact (DevKeeps.step (DevKeeps.step (.refl _ _) (hatchStop_keeps _ _) rfl) (Dev.wrc_keeps _ _ _ _) (by rfl))
    clear_value x2
    refine iteP (P := DevKeeps 0x4000000000000000000000000000000000000000000000000000000000000000000000000000000000000000000000012 d) (fun _ => ?_) (fun _ => ?_)
    · exact (DevKeeps.step h2 (Dev.modChan_keeps _ _ _) rfl)
    · exact (.refl _ _)
  · exact (.refl _ _)

theorem calStep_keeps (a0 : ℕ) (a1 : ℕ) (a2 : Bool) (a3 : Option EyeMeasure) (d : Dev) :
    DevKeeps 0x84000000000000000000000000000000000000000000000000000000000000000000000000000000000000000000000013 d (calStep a0 a1 a2 a3 d) := by
  unfold calStep
  extract_lets -merge -underBinder +onlyGivenNames x0
  clear_value x0
  extract_lets -merge -underBinder +onlyGivenNames x1
  clear_value x1
  split
  · extract_lets -merge -underBinder +onlyGivenNames x2
    have h2 : DevKeeps 0x84000000000000000000000000000000000000000000000000000000000000000000000000000000000000000000000013 d x2 := by
      subst x2
      refine DevKeeps.step ?_ (putEye_keeps _ _ _ _ _ _) rfl
      refine iteP (P := DevKeeps 0x84000000000000000000000000000000000000000000000000000000000000000000000000000000000000000000000013 d) (fun _ => ?_) (fun _ => ?_)
      · exact (DevKeeps.step (.refl _ _) (Dev.tick_keeps _ _) rfl)
      · exact (.refl _ _)
    clear_value x2
    exact (DevKeeps.step (DevKeeps.step h2 (Dev.modChan_keeps _ _ _) rfl) (rateFall_keeps _ _) rfl)

theorem calibrate_keeps (a0 : ℕ) (a1 : Option EyeMeasure) (d : Dev) :
    DevKeeps 0x94000000000000000000000000000000000000000000000000000000000000000000000000000000000000000000000013 d (calibrate a0 a1 d) := by
  unfold calibrate
  extract_lets -merge -underBinder +onlyGivenNames x0
  clear_value x0
  extract_lets -merge -underBinder +onlyGivenNames x1
  clear_value x1
  extract_lets -merge -underBinder +onlyGivenNames x2
  have h2 : DevKeeps 0x94000000000000000000000000000000000000000000000000000000000000000000000000000000000000000000000013 d x2 := by
    subst x2
    exact (DevKeeps.step (.refl _ _) (Dev.modChan_keeps _ _ _) rfl)
  clear_value x2
  refine iteP (P := DevKeeps 0x94000000000000000000000000000000000000000000000000000000000000000000000000000000000000000000000013 d) (fun _ => ?_) (fun _ => ?_)
  · split
    · exact (DevKeeps.step h2 (calStep_keeps _ _ _ _ _) rfl)
    · exact (DevKeeps.step (DevKeeps.step h2 (Dev.addc_keeps _ _ _ _) (by rfl)) (Dev.wrc_keeps _ _ _ _) (by rfl))
  · exact h2

theorem applySettings_keeps (a0 : ℕ) (d : Dev) :
    DevKeeps 16 d (applySettings a0 d) := by
  unfold applySettings
  extract_lets -merge -underBinder +onlyGivenNames x0
  clear_value x0
  extract_lets -merge -underBinder +onlyGivenNames x1
  clear_value x1
  exact (DevKeeps.step (.refl _ _) (Dev.modChan_keeps _ _ _) rfl)

theorem strokeChan_keeps (a0 : ℕ) (a1 : BoundaryObs) (d : Dev) :
    DevKeeps 0x94100000000000000000000000000000000000000000000000000000000000000000000000000000000000000000000013 d (strokeChan a0 a1 d) := by
  unfold strokeChan
  extract_lets -merge -underBinder +onlyGivenNames x0
  have h0 : DevKeeps 0x94100000000000000000000000000000000000000000000000000000000000000000000000000000000000000000000013 d x0 := by
    subst x0
    exact (DevKeeps.step (.refl _ _) (Dev.modChan_keeps _ _ _) rfl)
  clear_value x0
  extract_lets -merge -underBinder +onlyGivenNames x1
  have h1 : DevKeeps 0x94100000000000000000000000000000000000000000000000000000000000000000000000000000000000000000000013 d x1 := by
    subst x1
    exact (DevKeeps.step h0 (readEntry_keeps _ _ _) rfl)
  clear_value x1
  extract_lets -merge -underBinder +onlyGivenNames x2
  have h2 : DevKeeps 0x94100000000000000000000000000000000000000000000000000000000000000000000000000000000000000000000013 d x2 := by
    subst x2
    exact (DevKeeps.step h1 (calibrate_keeps _ _ _) rfl)
  clear_value x2
  exact (DevKeeps.step (DevKeeps.step h2 (Dev.modChan_keeps _ _ _) rfl) (applySettings_keeps _ _) rfl)

theorem camBand_keeps (a0 : ℤ) (d : Dev) :
    DevKeeps 0x40000000000000000000000000000008002 d (camBand a0 d) := by
  unfold camBand
  extract_lets -merge -underBinder +onlyGivenNames x0
  clear_value x0
  refine iteP (P := DevKeeps 0x40000000000000000000000000000008002 d) (fun _ => ?_) (fun _ => ?_)
  · exact (.refl _ _)
  · exact (DevKeeps.step (DevKeeps.step (.refl _ _) (Dev.modCam_keeps _ _) rfl) (Dev.wr_keeps _ _ _) (by rfl))

theorem countStalls_keeps (d : Dev) :
    DevKeeps 4096 d (countStalls d) := by
  unfold countStalls
  exact (DevKeeps.step (.refl _ _) (Dev.modHost_keeps _ _) rfl)

theorem refill_keeps (d : Dev) :
    DevKeeps 0x10A00000000005C0000000000000000000000000000094C2 d (refill d) := by
  unfold refill
  extract_lets -merge -underBinder +onlyGivenNames x0
  clear_value x0
  extract_lets -merge -underBinder +onlyGivenNames x1
  clear_value x1
  extract_lets -merge -underBinder +onlyGivenNames x2
  have h2 : DevKeeps 0x10A00000000005C0000000000000000000000000000094C2 d x2 := by
    subst x2
    refine DevKeeps.step (e := d) (k := 192) ?_ ⟨fun _ => rfl, fun _ => rfl, fun _ => rfl, fun _ => rfl, fun _ => rfl, fun _ => rfl, fun h => absurd h (by decide), fun h => absurd h (by decide), fun _ => rfl, fun _ => rfl, fun _ => rfl, fun _ => rfl, fun _ => rfl, fun _ => rfl, fun _ => rfl, fun _ => rfl, fun _ => rfl, fun _ => rfl, fun _ => rfl, fun _ => rfl, fun _ => rfl, fun _ => rfl, fun _ => rfl, fun _ _ => rfl⟩ rfl
    exact (.refl _ _)
  clear_value x2
  extract_lets -merge -underBinder +onlyGivenNames x3
  have h3 : DevKeeps 0x10A00000000005C0000000000000000000000000000094C2 d x3 := by
    subst x3
    exact (DevKeeps.step h2 (Dev.modHost_keeps _ _) rfl)
  clear_value x3
  exact (DevKeeps.step (DevKeeps.step (DevKeeps.step (DevKeeps.step h3 (Dev.modCam_keeps _ _) rfl) (dramStroke_keeps _) rfl) (camDeferred_keeps _) rfl) (deepFill_keeps _) rfl)

theorem strokeDevice_keeps (a0 : BoundaryObs) (d : Dev) :
    DevKeeps 0x1C000000000000000000000000000000000000000000010A00000000005C000000000000000000203C000906C9CD3 d (strokeDevice a0 d) := by
  unfold strokeDevice
  extract_lets -merge -underBinder +onlyGivenNames x0
  have h0 : DevKeeps 0x1C000000000000000000000000000000000000000000010A00000000005C000000000000000000203C000906C9CD3 d x0 := by
    subst x0
    exact (DevKeeps.step (DevKeeps.step (DevKeeps.step (DevKeeps.step (.refl _ _) (camBand_keeps _ _) rfl) (countStalls_keeps _) rfl) (refill_keeps _) rfl) (beginJobs_keeps _) rfl)
  clear_value x0
  extract_lets -merge -underBinder +onlyGivenNames x1
  have h1 : DevKeeps 0x1C000000000000000000000000000000000000000000010A00000000005C000000000000000000203C000906C9CD3 d x1 := by
    subst x1
    exact (DevKeeps.step h0 (setTicks_keeps _ _) rfl)
  clear_value x1
  extract_lets -merge -underBinder +onlyGivenNames x2
  have h2 : DevKeeps 0x1C000000000000000000000000000000000000000000010A00000000005C000000000000000000203C000906C9CD3 d x2 := by
    subst x2
    split
    · exact (DevKeeps.step h1 (powerStroke_keeps _ _) rfl)
    · exact (DevKeeps.step h1 (Dev.modPwr_keeps _ _) rfl)
  clear_value x2
  exact (DevKeeps.step h2 (ps4Image_keeps _) rfl)

theorem pllRelock_keeps (d : Dev) :
    DevKeeps 0x10A00000000005C0000000000000000000000000100094DA d (pllRelock d) := by
  unfold pllRelock
  extract_lets -merge -underBinder +onlyGivenNames x0
  have h0 : DevKeeps 0x10A00000000005C0000000000000000000000000100094DA d x0 := by
    subst x0
    exact (DevKeeps.step (DevKeeps.step (.refl _ _) (faultOff_keeps _ _) rfl) (slotsAnew_keeps _) rfl)
  clear_value x0
  extract_lets -merge -underBinder +onlyGivenNames x1
  clear_value x1
  extract_lets -merge -underBinder +onlyGivenNames x2
  have h2 : DevKeeps 0x10A00000000005C0000000000000000000000000100094DA d x2 := by
    subst x2
    exact DevKeeps.set_strk _ h0 rfl
  clear_value x2
  refine DevKeeps.step ?_ (refill_keeps _) rfl
  refine DevKeeps.forUpTo ?_ (fun a3 y3 h3 => ?_)
  · exact h2
  · exact (DevKeeps.step h3 (applySettings_keeps _ _) rfl)

theorem execStrokePllRelock_keeps (s : State) :
    NextP (StateKeeps 0x10A00000000005C0000000000000000000000000100094DA s) (execStrokePllRelock s) := by
  unfold execStrokePllRelock
  refine onDev_keeps ?_
  beta_reduce
  refine onlyIf_keeps ?_
  exact (DevKeeps.step (.refl _ _) (pllRelock_keeps _) rfl)

theorem critEvents_keeps (d : Dev) :
    DevKeeps 4096 d (critEvents d) := by
  unfold critEvents
  refine DevKeeps.foldl ?_ (fun y0 a0 h0 => ?_)
  · exact (.refl _ _)
  · beta_reduce
    extract_lets -merge -underBinder +onlyGivenNames x1
    clear_value x1
    extract_lets -merge -underBinder +onlyGivenNames x2
    clear_value x2
    extract_lets -merge -underBinder +onlyGivenNames x3
    clear_value x3
    extract_lets -merge -underBinder +onlyGivenNames x4
    have h4 : DevKeeps 4096 d x4 := by
      subst x4
      refine iteP (P := DevKeeps 4096 d) (fun _ => ?_) (fun _ => ?_)
      · exact h0
      · exact (DevKeeps.step h0 (raiseEvent_keeps _ _ _) rfl)
    clear_value x4
    exact (DevKeeps.step h4 (Dev.modFunc_keeps _ _ _) rfl)

theorem rateFault_keeps (d : Dev) :
    DevKeeps 0x30000002 d (rateFault d) := by
  unfold rateFault
  refine iteP (P := DevKeeps 0x30000002 d) (fun _ => ?_) (fun _ => ?_)
  · exact (DevKeeps.step (.refl _ _) (faultOn_keeps _ _) rfl)
  · exact (DevKeeps.step (.refl _ _) (faultOff_keeps _ _) rfl)

theorem flushSheet_keeps (d : Dev) :
    DevKeeps 0x3C800000000100002 d (flushSheet d) := by
  unfold flushSheet
  split
  · exact (DevKeeps.step (DevKeeps.step (.refl _ _) (saveTime_keeps _) rfl) (Dev.modSys_keeps _ _) rfl)
  · exact (.refl _ _)

theorem sheetDevice_keeps (d : Dev) :
    DevKeeps 0x18010000C000000000000000F000300C01900006006000000000003801FE50000400004000800003C8000000B07DFA73 d (sheetDevice d) := by
  unfold sheetDevice
  extract_lets -merge -underBinder +onlyGivenNames x0
  have h0 : DevKeeps 0x18010000C000000000000000F000300C01900006006000000000003801FE50000400004000800003C8000000B07DFA73 d x0 := by
    subst x0
    refine DevKeeps.forUpTo ?_ (fun a1 y1 h1 => ?_)
    · exact (.refl _ _)
    · exact (DevKeeps.step h1 (bucketDrain_keeps _ _) rfl)
  clear_value x0
  extract_lets -merge -underBinder +onlyGivenNames x2
  have h2 : DevKeeps 0x18010000C000000000000000F000300C01900006006000000000003801FE50000400004000800003C8000000B07DFA73 d x2 := by
    subst x2
    exact (DevKeeps.step h0 (Dev.modMed_keeps _ _) rfl)
  clear_value x2
  extract_lets -merge -underBinder +onlyGivenNames x3
  have h3 : DevKeeps 0x18010000C000000000000000F000300C01900006006000000000003801FE50000400004000800003C8000000B07DFA73 d x3 := by
    subst x3
    exact (DevKeeps.step h2 (rateFault_keeps _) rfl)
  clear_value x3
  extract_lets -merge -underBinder +onlyGivenNames x4
  have h4 : DevKeeps 0x18010000C000000000000000F000300C01900006006000000000003801FE50000400004000800003C8000000B07DFA73 d x4 := by
    subst x4
    split
    · refine iteP (P := DevKeeps 0x18010000C000000000000000F000300C01900006006000000000003801FE50000400004000800003C8000000B07DFA73 d) (fun _ => ?_) (fun _ => ?_)
      · exact (DevKeeps.step h3 (fullRestore_keeps _) rfl)
      · exact (DevKeeps.step (DevKeeps.step (DevKeeps.step (DevKeeps.step (DevKeeps.step (DevKeeps.step (DevKeeps.step (DevKeeps.step h3 (releaseImages_keeps _) rfl) (eraseDirty_keeps _) rfl) (rescueReady_keeps _) rfl) (retireCounted_keeps _) rfl) (checkpointDue_keeps _) rfl) (healthWatch_keeps _) rfl) (selfTestSheet_keeps _) rfl) (critEvents_keeps _) rfl)
    · exact h3
  clear_value x4
  exact (DevKeeps.step h4 (flushSheet_keeps _) rfl)

theorem advance_keeps (d : Dev) :
    DevKeeps 0x40000000A d (advance d) := by
  unfold advance
  extract_lets -merge -underBinder +onlyGivenNames x0
  clear_value x0
  extract_lets -merge -underBinder +onlyGivenNames x1
  have h1 : DevKeeps 0x40000000A d x1 := by
    subst x1
    exact DevKeeps.set_strk _ (.refl _ _) rfl
  clear_value x1
  extract_lets -merge -underBinder +onlyGivenNames x2
  have h2 : DevKeeps 0x40000000A d x2 := by
    subst x2
    split
    · extract_lets -merge -underBinder +onlyGivenNames x3
      clear_value x3
      refine iteP (P := DevKeeps 0x40000000A d) (fun _ => ?_) (fun _ => ?_)
      · refine DevKeeps.step ?_ (Dev.wr_keeps _ _ _) (by rfl)
        exact DevKeeps.set_strk _ h1 rfl
      · exact h1
    · exact h1
  clear_value x2
  exact (DevKeeps.step h2 (Dev.flagIf_keeps _ _ _) (by rfl))

theorem boundary_keeps (a0 : BoundaryObs) (s : State) :
    StateKeeps 0x941001C004000000000000000000E00000000000000000000010A00000000005C000000000000000000203C00090EDDDD3 s (boundary a0 s) := by
  unfold boundary
  extract_lets -merge -underBinder +onlyGivenNames x0
  have h0 : StateKeeps 0x941001C004000000000000000000E00000000000000000000010A00000000005C000000000000000000203C00090EDDDD3 s x0 := by
    subst x0
    refine StateKeeps.modDev ?_ ?_
    · exact (.refl _ _)
    · beta_reduce
      refine DevKeeps.forUpTo ?_ (fun a1 y1 h1 => ?_)
      · exact (.refl _ _)
      · beta_reduce
        exact (DevKeeps.step h1 (strokeChan_keeps _ _ _) rfl)
  clear_value x0
  refine StateKeeps.forUpTo ?_ (fun a2 y2 h2 => ?_)
  · refine StateKeeps.modDev ?_ ?_
    · exact h0
    · exact (DevKeeps.step (StateKeeps.dev h0) (strokeDevice_keeps _ _) rfl)
  · exact (StateKeeps.step h2 (afterChan_keeps _ _) rfl)

theorem countStrokes_keeps (d : Dev) :
    DevKeeps 16 d (countStrokes d) := by
  unfold countStrokes
  refine DevKeeps.forUpTo ?_ (fun a0 y0 h0 => ?_)
  · exact (.refl _ _)
  · beta_reduce
    exact (DevKeeps.step h0 (Dev.modChan_keeps _ _ _) rfl)

theorem strokeEnd_keeps (d : Dev) :
    DevKeeps 0x40000001A d (strokeEnd d) := by
  unfold strokeEnd
  exact (DevKeeps.step (DevKeeps.step (.refl _ _) (countStrokes_keeps _) rfl) (advance_keeps _) rfl)

theorem execStrokeBoundary_keeps (a0 : BoundaryObs) (s : State) :
    NextP (StateKeeps 0x941001C004000000000000000000E00000000000000000000010A00000000005C000000000000000000203C00490EDDDDB s) (execStrokeBoundary a0 s) := by
  unfold execStrokeBoundary
  refine iteP (P := NextP (StateKeeps 0x941001C004000000000000000000E00000000000000000000010A00000000005C000000000000000000203C00490EDDDDB s)) (fun _ => ?_) (fun _ => ?_)
  · refine NextP.next ?_
    refine StateKeeps.step ?_ (boundary_keeps _ _) rfl
    refine StateKeeps.modDev ?_ ?_
    · exact (.refl _ _)
    · exact (DevKeeps.step (.refl _ _) (strokeEnd_keeps _) rfl)
  · exact StateKeeps.stepNext (.refl _ _) (noEvent_keeps _ _) rfl

theorem sheetActs_keeps (d : Dev) :
    DevKeeps 0x9718010000C000000000000000F000300C01900006006000000000003801FE50000400004000800003C8000004B07FFA7B d (sheetActs d) := by
  unfold sheetActs
  refine DevKeeps.step ?_ (sheetDevice_keeps _) rfl
  refine DevKeeps.forUpTo ?_ (fun a0 y0 h0 => ?_)
  · exact (DevKeeps.step (DevKeeps.step (.refl _ _) (strokeEnd_keeps _) rfl) (Dev.wr_keeps _ _ _) (by rfl))
  · beta_reduce
    exact (DevKeeps.step h0 (sheetChan_keeps _ _) rfl)

theorem sheetBoundary_keeps (a0 : BoundaryObs) (s : State) :
    StateKeeps 0xFFFFFFFFFFFFFFFFFFFFFFFFFFFFFFFFFFFFFFFFFFFFFFFFFFFFFFFFFFFFFFFFFFFFFFFFFFFFFFFFFFFFFFFFFFFFFFFFFFFFFFFFFFFFFFFFFFFFFFFFFFFFFFFFFFFFFB s (sheetBoundary a0 s) := by
  unfold sheetBoundary
  extract_lets -merge -underBinder +onlyGivenNames x0
  have h0 : StateKeeps 0xFFFFFFFFFFFFFFFFFFFFFFFFFFFFFFFFFFFFFFFFFFFFFFFFFFFFFFFFFFFFFFFFFFFFFFFFFFFFFFFFFFFFFFFFFFFFFFFFFFFFFFFFFFFFFFFFFFFFFFFFFFFFFFFFFFFFFB s x0 := by
    subst x0
    refine StateKeeps.step ?_ (boundary_keeps _ _) rfl
    refine StateKeeps.step ?_ (startSheet_keeps _) rfl
    refine StateKeeps.modDev ?_ ?_
    · exact (.refl _ _)
    · exact (DevKeeps.step (.refl _ _) (sheetActs_keeps _) rfl)
  clear_value x0
  refine iteP (P := StateKeeps 0xFFFFFFFFFFFFFFFFFFFFFFFFFFFFFFFFFFFFFFFFFFFFFFFFFFFFFFFFFFFFFFFFFFFFFFFFFFFFFFFFFFFFFFFFFFFFFFFFFFFFFFFFFFFFFFFFFFFFFFFFFFFFFFFFFFFFFB s) (fun _ => ?_) (fun _ => ?_)
  · exact (StateKeeps.step h0 (ps4Seal_keeps _) rfl)
  · exact h0

theorem execSheetBoundary_keeps (a0 : BoundaryObs) (s : State) :
    NextP (StateKeeps 0xFFFFFFFFFFFFFFFFFFFFFFFFFFFFFFFFFFFFFFFFFFFFFFFFFFFFFFFFFFFFFFFFFFFFFFFFFFFFFFFFFFFFFFFFFFFFFFFFFFFFFFFFFFFFFFFFFFFFFFFFFFFFFFFFFFFFFB s) (execSheetBoundary a0 s) := by
  unfold execSheetBoundary
  refine iteP (P := NextP (StateKeeps 0xFFFFFFFFFFFFFFFFFFFFFFFFFFFFFFFFFFFFFFFFFFFFFFFFFFFFFFFFFFFFFFFFFFFFFFFFFFFFFFFFFFFFFFFFFFFFFFFFFFFFFFFFFFFFFFFFFFFFFFFFFFFFFFFFFFFFFB s)) (fun _ => ?_) (fun _ => ?_)
  · refine NextP.next ?_
    exact (StateKeeps.step (.refl _ _) (sheetBoundary_keeps _ _) rfl)
  · exact StateKeeps.stepNext (.refl _ _) (noEvent_keeps _ _) rfl

end Sys2Proof.Machine
end

