-- ==== Sys2Proof/Laws/KeepJenam.lean ====
section
/-! SUPPORT. What each operation of Machine/Jenam.lean leaves as it was. -/

namespace Sys2Proof.Machine

theorem Dev.modBuf_keeps (d : Dev) (a1 : ℕ) (a2 : JBuf → JBuf) :
    DevKeeps 131072 d (Dev.modBuf d a1 a2) := by
  unfold Dev.modBuf
  exact (DevKeeps.step (.refl _ _) (Dev.modJnm_keeps _ _) rfl)

theorem Dev.dropBuf_keeps (d : Dev) (a1 : ℕ) :
    DevKeeps 131072 d (Dev.dropBuf d a1) := by
  unfold Dev.dropBuf
  exact (DevKeeps.step (.refl _ _) (Dev.modJnm_keeps _ _) rfl)

theorem startSend_keeps (d : Dev) :
    DevKeeps 4325376 d (startSend d) := by
  unfold startSend
  split
  · extract_lets -merge -underBinder +onlyGivenNames x0
    clear_value x0
    extract_lets -merge -underBinder +onlyGivenNames x1
    have h1 : DevKeeps 4325376 d x1 := by
      subst x1
      exact (DevKeeps.step (.refl _ _) (Dev.modJnm_keeps _ _) rfl)
    clear_value x1
    exact DevKeeps.set_out _ h1 rfl
  · exact (.refl _ _)

theorem startSends_keeps (d : Dev) :
    DevKeeps 4325376 d (startSends d) := by
  unfold startSends
  refine DevKeeps.forUpTo ?_ (fun a0 y0 h0 => ?_)
  · exact (.refl _ _)
  · beta_reduce
    exact (DevKeeps.step h0 (startSend_keeps _) rfl)

theorem Dev.modOrigin_keeps (d : Dev) (a1 : ℕ) (a2 : Origin → Origin) :
    DevKeeps 131072 d (Dev.modOrigin d a1 a2) := by
  unfold Dev.modOrigin
  exact (DevKeeps.step (.refl _ _) (Dev.modJnm_keeps _ _) rfl)

theorem originFor_keeps (a0 : ℕ) (a1 : ℕ) (d : Dev) :
    SomeP (DevKeeps 0x80000000000000000000000000000000000000000000000000000000000000000000020002 d) (originFor a0 a1 d) := by
  unfold originFor
  extract_lets -merge -underBinder +onlyGivenNames x0
  clear_value x0
  refine iteP (P := SomeP (DevKeeps 0x80000000000000000000000000000000000000000000000000000000000000000000020002 d)) (fun _ => ?_) (fun _ => ?_)
  · refine SomeP.some ?_
    exact (.refl _ _)
  · refine iteP (P := SomeP (DevKeeps 0x80000000000000000000000000000000000000000000000000000000000000000000020002 d)) (fun _ => ?_) (fun _ => ?_)
    · refine SomeP.some ?_
      exact (DevKeeps.step (.refl _ _) (Dev.modJnm_keeps _ _) rfl)
    · split
      · refine SomeP.some ?_
        exact (DevKeeps.step (DevKeeps.step (.refl _ _) (Dev.modJnm_keeps _ _) rfl) (Dev.wr_keeps _ _ _) (by rfl))
      · exact trivial

theorem touchOrigin_keeps (a0 : ℕ) (d : Dev) :
    DevKeeps 131072 d (touchOrigin a0 d) := by
  unfold touchOrigin
  exact (DevKeeps.step (DevKeeps.step (.refl _ _) (Dev.modOrigin_keeps _ _ _) rfl) (Dev.modJnm_keeps _ _) rfl)

theorem deliverReply_keeps (a0 : JBuf) (a1 : List Byte) (d : Dev) :
    DevKeeps 6295552 d (deliverReply a0 a1 d) := by
  unfold deliverReply
  refine iteP (P := DevKeeps 6295552 d) (fun _ => ?_) (fun _ => ?_)
  · split
    · exact (DevKeeps.step (.refl _ _) (finish_keeps _ _ _) rfl)
    · exact (.refl _ _)
  · refine iteP (P := DevKeeps 6295552 d) (fun _ => ?_) (fun _ => ?_)
    · exact (DevKeeps.step (.refl _ _) (Dev.send_keeps _ _) rfl)
    · exact (DevKeeps.step (.refl _ _) (respondDlk_keeps _ _ _ _ _) rfl)

theorem answerReceive_keeps (a0 : ℕ) (a1 : ℕ) (a2 : ℕ) (d : Dev) :
    DevKeeps 4198400 d (answerReceive a0 a1 a2 d) := by
  unfold answerReceive
  split
  · exact (DevKeeps.step (DevKeeps.step (.refl _ _) (Dev.send_keeps _ _) rfl) (finish_keeps _ _ _) rfl)
  · exact (DevKeeps.step (.refl _ _) (finish_keeps _ _ _) rfl)

theorem answerReceives_keeps (a0 : ℕ) (a1 : ℕ) (d : Dev) :
    DevKeeps 4329472 d (answerReceives a0 a1 d) := by
  unfold answerReceives
  extract_lets -merge -underBinder +onlyGivenNames x0
  clear_value x0
  extract_lets -merge -underBinder +onlyGivenNames x1
  have h1 : DevKeeps 4329472 d x1 := by
    subst x1
    exact (DevKeeps.step (.refl _ _) (Dev.modJnm_keeps _ _) rfl)
  clear_value x1
  refine DevKeeps.foldl ?_ (fun y2 a2 h2 => ?_)
  · exact h1
  · beta_reduce
    exact (DevKeeps.step h2 (answerReceive_keeps _ _ _ _) rfl)

theorem cacheReply_keeps (a0 : JBuf) (a1 : List Byte) (d : Dev) :
    DevKeeps 131072 d (cacheReply a0 a1 d) := by
  unfold cacheReply
  extract_lets -merge -underBinder +onlyGivenNames x0
  clear_value x0
  extract_lets -merge -underBinder +onlyGivenNames x1
  clear_value x1
  refine iteP (P := DevKeeps 131072 d) (fun _ => ?_) (fun _ => ?_)
  · exact (DevKeeps.step (.refl _ _) (Dev.modOrigin_keeps _ _ _) rfl)
  · exact (DevKeeps.step (.refl _ _) (Dev.modOrigin_keeps _ _ _) rfl)

theorem sendReply_keeps (a0 : JBuf) (a1 : List Byte) (d : Dev) :
    DevKeeps 6426624 d (sendReply a0 a1 d) := by
  unfold sendReply
  extract_lets -merge -underBinder +onlyGivenNames x0
  have h0 : DevKeeps 6426624 d x0 := by
    subst x0
    exact (DevKeeps.step (DevKeeps.step (DevKeeps.step (.refl _ _) (deliverReply_keeps _ _ _) rfl) (cacheReply_keeps _ _ _) rfl) (Dev.dropBuf_keeps _ _) rfl)
  clear_value x0
  extract_lets -merge -underBinder +onlyGivenNames x1
  clear_value x1
  extract_lets -merge -underBinder +onlyGivenNames x2
  have h2 : DevKeeps 6426624 d x2 := by
    subst x2
    refine DevKeeps.foldl ?_ (fun y3 a3 h3 => ?_)
    · exact h0
    · beta_reduce
      exact (DevKeeps.step (DevKeeps.step h3 (deliverReply_keeps _ _ _) rfl) (Dev.dropBuf_keeps _ _) rfl)
  clear_value x2
  exact (DevKeeps.step (DevKeeps.step h2 (answerReceives_keeps _ _ _) rfl) (startSends_keeps _) rfl)

theorem turnAway_keeps (a0 : JBuf) (a1 : List Byte) (d : Dev) :
    DevKeeps 6426624 d (turnAway a0 a1 d) := by
  unfold turnAway
  exact (DevKeeps.step (DevKeeps.step (DevKeeps.step (.refl _ _) (deliverReply_keeps _ _ _) rfl) (Dev.dropBuf_keeps _ _) rfl) (startSends_keeps _) rfl)

theorem conflict_keeps (a0 : JBuf) (d : Dev) :
    DevKeeps 0xA0000000000000000000000000000000000000000000000000000000000000000000621002 d (conflict a0 d) := by
  unfold conflict
  exact (DevKeeps.step (DevKeeps.step (DevKeeps.step (.refl _ _) (Dev.add_keeps _ _ _) (by rfl)) (Dev.wr_keeps _ _ _) (by rfl)) (turnAway_keeps _ _ _) rfl)

theorem acceptJenam_keeps (a0 : JBuf) (a1 : Bool) (d : Dev) :
    DevKeeps 0x80000000000000000000000000000000000000000000000000000000000000000000030002 d (acceptJenam a0 a1 d) := by
  unfold acceptJenam
  extract_lets -merge -underBinder +onlyGivenNames x0
  clear_value x0
  extract_lets -merge -underBinder +onlyGivenNames x1
  clear_value x1
  extract_lets -merge -underBinder +onlyGivenNames x2
  have h2 : DevKeeps 0x80000000000000000000000000000000000000000000000000000000000000000000030002 d x2 := by
    subst x2
    exact (DevKeeps.step (.refl _ _) (Dev.modOrigin_keeps _ _ _) rfl)
  clear_value x2
  extract_lets -merge -underBinder +onlyGivenNames x3
  have h3 : DevKeeps 0x80000000000000000000000000000000000000000000000000000000000000000000030002 d x3 := by
    subst x3
    exact (DevKeeps.step h2 (Dev.modBuf_keeps _ _ _) rfl)
  clear_value x3
  extract_lets -merge -underBinder +onlyGivenNames x4
  clear_value x4
  split
  · rename_i v5_0 v5_1 q5
    have h6 : DevKeeps 0x80000000000000000000000000000000000000000000000000000000000000000000030002 d v5_1 := by
      refine SndP.get (P := (DevKeeps 0x80000000000000000000000000000000000000000000000000000000000000000000030002 d)) ?_ q5
      exact DevKeeps.stepSnd h3 (pushQueue_keeps _ _ _) rfl
    exact (DevKeeps.step h6 (Dev.wr_keeps _ _ _) (by rfl))

theorem bySeq_keeps (a0 : JBuf) (a1 : Origin) (d : Dev) :
    DevKeeps 0xE0000000000000000000000000000000000000000000000000000000000000000000631002 d (bySeq a0 a1 d) := by
  unfold bySeq
  extract_lets -merge -underBinder +onlyGivenNames x0
  clear_value x0
  extract_lets -merge -underBinder +onlyGivenNames x1
  clear_value x1
  split
  · refine iteP (P := DevKeeps 0xE0000000000000000000000000000000000000000000000000000000000000000000631002 d) (fun _ => ?_) (fun _ => ?_)
    · exact (DevKeeps.step (DevKeeps.step (DevKeeps.step (.refl _ _) (Dev.add_keeps _ _ _) (by rfl)) (Dev.wr_keeps _ _ _) (by rfl)) (turnAway_keeps _ _ _) rfl)
    · exact (DevKeeps.step (.refl _ _) (conflict_keeps _ _) rfl)
  · split
    · refine iteP (P := DevKeeps 0xE0000000000000000000000000000000000000000000000000000000000000000000631002 d) (fun _ => ?_) (fun _ => ?_)
      · exact (DevKeeps.step (.refl _ _) (Dev.modBuf_keeps _ _ _) rfl)
      · exact (DevKeeps.step (.refl _ _) (conflict_keeps _ _) rfl)
    · extract_lets -merge -underBinder +onlyGivenNames x2
      clear_value x2
      extract_lets -merge -underBinder +onlyGivenNames x3
      clear_value x3
      refine iteP (P := DevKeeps 0xE0000000000000000000000000000000000000000000000000000000000000000000631002 d) (fun _ => ?_) (fun _ => ?_)
      · refine iteP (P := DevKeeps 0xE0000000000000000000000000000000000000000000000000000000000000000000631002 d) (fun _ => ?_) (fun _ => ?_)
        · exact (DevKeeps.step (.refl _ _) (turnAway_keeps _ _ _) rfl)
        · exact (DevKeeps.step (.refl _ _) (acceptJenam_keeps _ _ _) rfl)
      · exact (DevKeeps.step (DevKeeps.step (.refl _ _) (Dev.add_keeps _ _ _) (by rfl)) (turnAway_keeps _ _ _) rfl)

theorem handlePacket_keeps (a0 : JBuf) (d : Dev) :
    DevKeeps 0xE0000000000000000000000000000000000000000000000000000000000000000000631002 d (handlePacket a0 d) := by
  unfold handlePacket
  extract_lets -merge -underBinder +onlyGivenNames x0
  clear_value x0
  refine iteP (P := DevKeeps 0xE0000000000000000000000000000000000000000000000000000000000000000000631002 d) (fun _ => ?_) (fun _ => ?_)
  · exact (DevKeeps.step (DevKeeps.step (.refl _ _) (Dev.add_keeps _ _ _) (by rfl)) (turnAway_keeps _ _ _) rfl)
  · refine iteP (P := DevKeeps 0xE0000000000000000000000000000000000000000000000000000000000000000000631002 d) (fun _ => ?_) (fun _ => ?_)
    · exact (DevKeeps.step (.refl _ _) (turnAway_keeps _ _ _) rfl)
    · split
      · exact (DevKeeps.step (.refl _ _) (Dev.modBuf_keeps _ _ _) rfl)
      · rename_i v1_0 q1
        have h2 : DevKeeps 0xE0000000000000000000000000000000000000000000000000000000000000000000631002 d v1_0 := by
          refine SomeP.get (P := (DevKeeps 0xE0000000000000000000000000000000000000000000000000000000000000000000631002 d)) ?_ q1
          exact DevKeeps.stepSome (.refl _ _) (originFor_keeps _ _ _) rfl
        extract_lets -merge -underBinder +onlyGivenNames x3
        have h3 : DevKeeps 0xE0000000000000000000000000000000000000000000000000000000000000000000631002 d x3 := by
          subst x3
          exact (DevKeeps.step h2 (touchOrigin_keeps _ _) rfl)
        clear_value x3
        split
        · exact (DevKeeps.step h3 (bySeq_keeps _ _ _) rfl)
        · exact h3

theorem retryArrived_keeps (a0 : ℕ) (d : Dev) :
    DevKeeps 0xE0000000000000000000000000000000000000000000000000000000000000000000631002 d (retryArrived a0 d) := by
  induction a0 generalizing d with
  | zero => exact DevKeeps.refl _ _
  | succ n ih =>
    unfold retryArrived
    split
    · split
      · rename_i v0_0 q0
        have h1 : DevKeeps 0xE0000000000000000000000000000000000000000000000000000000000000000000631002 d v0_0 := by
          refine SomeP.get (P := (DevKeeps 0xE0000000000000000000000000000000000000000000000000000000000000000000631002 d)) ?_ q0
          exact DevKeeps.stepSome (.refl _ _) (originFor_keeps _ _ _) rfl
        exact DevKeeps.step (DevKeeps.step (.refl _ _) (handlePacket_keeps _ _) rfl) (ih _) rfl
      · exact (.refl _ _)
    · exact (.refl _ _)

theorem putReply_keeps (a0 : JBuf) (a1 : List Byte) (s : State) :
    StateKeeps 8521728 s (putReply a0 a1 s) := by
  unfold putReply
  refine StateKeeps.modDev ?_ ?_
  · exact (StateKeeps.step (.refl _ _) (State.writeBytes_keeps _ _ _) rfl)
  · beta_reduce
    exact (DevKeeps.step (StateKeeps.dev (StateKeeps.step (.refl _ _) (State.writeBytes_keeps _ _ _) rfl)) (Dev.modBuf_keeps _ _ _) rfl)

theorem settleTurns_keeps (a0 : ℕ) (s : State) :
    StateKeeps 14813184 s (settleTurns a0 s) := by
  induction a0 generalizing s with
  | zero => exact StateKeeps.refl _ _
  | succ n ih =>
    unfold settleTurns
    split
    · split
      · exact StateKeeps.step (StateKeeps.step (.refl _ _) (putReply_keeps _ _ _) rfl) (ih _) rfl
      · refine iteP (P := StateKeeps 14813184 s) (fun _ => ?_) (fun _ => ?_)
        · refine StateKeeps.modDev ?_ ?_
          · exact (.refl _ _)
          · beta_reduce
            exact (DevKeeps.step (DevKeeps.step (.refl _ _) (Dev.modBuf_keeps _ _ _) rfl) (askDlk_keeps _ _ _ _) rfl)
        · exact (.refl _ _)
    · exact (.refl _ _)

theorem settleJenam_keeps (s : State) :
    StateKeeps 0xE0000000000000000000000000000000000000000000000000000000000000000000E31802 s (settleJenam s) := by
  unfold settleJenam
  refine StateKeeps.step ?_ (settleTurns_keeps _ _) rfl
  refine StateKeeps.modDev ?_ ?_
  · exact (.refl _ _)
  · exact (DevKeeps.step (.refl _ _) (retryArrived_keeps _ _) rfl)

theorem jenamSend_keeps (a0 : ℕ) (a1 : Slot) (d : Dev) :
    DevKeeps 4329472 d (jenamSend a0 a1 d) := by
  unfold jenamSend
  extract_lets -merge -underBinder +onlyGivenNames x0
  clear_value x0
  refine iteP (P := DevKeeps 4329472 d) (fun _ => ?_) (fun _ => ?_)
  · exact (DevKeeps.step (.refl _ _) (finish_keeps _ _ _) rfl)
  · exact (DevKeeps.step (DevKeeps.step (DevKeeps.step (.refl _ _) (Dev.modSlot_keeps _ _ _) rfl) (Dev.modJnm_keeps _ _) rfl) (startSends_keeps _) rfl)

theorem execJenamSend_keeps (a0 : Fin 131072) (s : State) :
    NextP (StateKeeps 4329472 s) (execJenamSend a0 s) := by
  unfold execJenamSend
  refine onDev_keeps ?_
  beta_reduce
  refine onSlot_keeps ?_ rfl (fun z0 => ?_)
  · exact (.refl _ _)
  · beta_reduce
    refine OkP.ok ?_
    exact (DevKeeps.step (.refl _ _) (jenamSend_keeps _ _ _) rfl)

theorem jenamReceive_keeps (a0 : ℕ) (a1 : Slot) (d : Dev) :
    DevKeeps 4329472 d (jenamReceive a0 a1 d) := by
  unfold jenamReceive
  extract_lets -merge -underBinder +onlyGivenNames x0
  clear_value x0
  extract_lets -merge -underBinder +onlyGivenNames x1
  clear_value x1
  extract_lets -merge -underBinder +onlyGivenNames x2
  clear_value x2
  refine iteP (P := DevKeeps 4329472 d) (fun _ => ?_) (fun _ => ?_)
  · exact (DevKeeps.step (DevKeeps.step (.refl _ _) (Dev.modSlot_keeps _ _ _) rfl) (Dev.modJnm_keeps _ _) rfl)
  · exact (DevKeeps.step (.refl _ _) (answerReceive_keeps _ _ _ _) rfl)

theorem execJenamReceive_keeps (a0 : Fin 131072) (s : State) :
    NextP (StateKeeps 4329472 s) (execJenamReceive a0 s) := by
  unfold execJenamReceive
  refine onDev_keeps ?_
  beta_reduce
  refine onSlot_keeps ?_ rfl (fun z0 => ?_)
  · exact (.refl _ _)
  · beta_reduce
    refine OkP.ok ?_
    exact (DevKeeps.step (.refl _ _) (jenamReceive_keeps _ _ _) rfl)

theorem packetIn_keeps (a0 : JBuf) (a1 : List Byte) (s : State) :
    StateKeeps 0xE0000000000000000000000000000000000000000000000000000000000000000000E71802 s (packetIn a0 a1 s) := by
  unfold packetIn
  extract_lets -merge -underBinder +onlyGivenNames x0
  clear_value x0
  extract_lets -merge -underBinder +onlyGivenNames x1
  have h1 : StateKeeps 0xE0000000000000000000000000000000000000000000000000000000000000000000E71802 s x1 := by
    subst x1
    exact (StateKeeps.step (.refl _ _) (State.writeBytes_keeps _ _ _) rfl)
  clear_value x1
  refine StateKeeps.step ?_ (settleJenam_keeps _) rfl
  refine StateKeeps.modDev ?_ ?_
  · exact h1
  · beta_reduce
    exact (DevKeeps.step (DevKeeps.step (DevKeeps.step (DevKeeps.step (StateKeeps.dev h1) (Dev.modBuf_keeps _ _ _) rfl) (wakeIdle_keeps _) rfl) (Dev.modJnm_keeps _ _) rfl) (handlePacket_keeps _ _) rfl)

theorem packetBy_keeps (a0 : ℕ) (a1 : ℕ) (a2 : ℕ) (a3 : List Byte) (s : State) :
    StateKeeps 0xE0000000000000000000000000000000000000000000000000000000000000000000E71802 s (packetBy a0 a1 a2 a3 s) := by
  unfold packetBy
  split
  · extract_lets -merge -underBinder +onlyGivenNames x0
    clear_value x0
    refine StateKeeps.step ?_ (packetIn_keeps _ _ _) rfl
    refine StateKeeps.modDev ?_ ?_
    · exact (.refl _ _)
    · beta_reduce
      exact (DevKeeps.step (.refl _ _) (Dev.modJnm_keeps _ _) rfl)
  · refine StateKeeps.modDev ?_ ?_
    · exact (.refl _ _)
    · beta_reduce
      exact (DevKeeps.step (DevKeeps.step (.refl _ _) (Dev.add_keeps _ _ _) (by rfl)) (Dev.wr_keeps _ _ _) (by rfl))

theorem execJenamPacketComplete_keeps (a0 : JenamSrc) (a1 : List Byte) (s : State) :
    NextP (StateKeeps 0xE0000000000000000000000000000000000000000000000000000000000000000000E71802 s) (execJenamPacketComplete a0 a1 s) := by
  unfold execJenamPacketComplete
  split
  · split
    · refine iteP (P := NextP (StateKeeps 0xE0000000000000000000000000000000000000000000000000000000000000000000E71802 s)) (fun _ => ?_) (fun _ => ?_)
      · refine NextP.next ?_
        exact (StateKeeps.step (.refl _ _) (packetIn_keeps _ _ _) rfl)
      · exact StateKeeps.stepNext (.refl _ _) (noEvent_keeps _ _) rfl
    · exact StateKeeps.stepNext (.refl _ _) (noEvent_keeps _ _) rfl
  · refine iteP (P := NextP (StateKeeps 0xE0000000000000000000000000000000000000000000000000000000000000000000E71802 s)) (fun _ => ?_) (fun _ => ?_)
    · refine NextP.next ?_
      exact (StateKeeps.step (.refl _ _) (packetBy_keeps _ _ _ _ _) rfl)
    · exact StateKeeps.stepNext (.refl _ _) (noEvent_keeps _ _) rfl

theorem jenamTx_keeps (a0 : ℕ) (s : State) :
    StateKeeps 0xE0000000000000000000000000000000000000000000000000000000000000000000E31802 s (jenamTx a0 s) := by
  unfold jenamTx
  split
  · extract_lets -merge -underBinder +onlyGivenNames x0
    clear_value x0
    refine iteP (P := StateKeeps 0xE0000000000000000000000000000000000000000000000000000000000000000000E31802 s) (fun _ => ?_) (fun _ => ?_)
    · refine StateKeeps.step ?_ (settleJenam_keeps _) rfl
      refine StateKeeps.modDev ?_ ?_
      · exact (.refl _ _)
      · exact (DevKeeps.step (.refl _ _) (sendReply_keeps _ _ _) rfl)
    · exact (.refl _ _)
  · exact (.refl _ _)

theorem execJenamReplySend_keeps (a0 : Word) (s : State) :
    NextP (StateKeeps 0xE0000000000000000000000000000000000000000000000000000000000000000000E31803 s) (execJenamReplySend a0 s) := by
  unfold execJenamReplySend
  refine NextP.next ?_
  refine orRsvWide_keeps ?_ ?_ rfl
  · exact (.refl _ _)
  · exact (StateKeeps.step (.refl _ _) (jenamTx_keeps _ _) rfl)

theorem jenamRow_keeps {m op buf : Nat} {f : List Byte → State → Nat × List Byte × State} {s : State}
    (h : ∀ p, SndP (SndP (StateKeeps m s)) (f p s)) (hm : m ||| 14813184 = m) : NextP (StateKeeps m s) (jenamRow op buf f s) := by
  unfold jenamRow
  split
  · split
    · refine NextP.next ?_
      refine StateKeeps.step ?_ (settleTurns_keeps _ _) (by rw [← hm, Nat.or_assoc]; congr 1)
      exact StateKeeps.step (h _).snd.snd (putReply_keeps _ _ _) (by rw [← hm, Nat.or_assoc]; congr 1)
    · exact StateKeeps.refl _ _
  · exact StateKeeps.refl _ _

theorem jNo_keeps (a0 : ℕ) (s : State) :
    SndP (SndP (StateKeeps 0 s)) (jNo a0 s) := by
  unfold jNo
  refine SndP.mk ?_
  refine SndP.mk ?_
  exact (.refl _ _)

theorem jYes_keeps (a0 : List Byte) (s : State) :
    SndP (SndP (StateKeeps 0 s)) (jYes a0 s) := by
  unfold jYes
  refine SndP.mk ?_
  refine SndP.mk ?_
  exact (.refl _ _)

end Sys2Proof.Machine
end

