-- ==== Sys2Proof/Laws/KeepStipple.lean ====
section
/-! SUPPORT. What each operation of Machine/Stipple.lean leaves as it was. -/

namespace Sys2Proof.Machine

theorem stipPost_keeps (a0 : ℕ) (a1 : ℕ) (a2 : ℕ) (a3 : ℕ) (a4 : ℕ) (a5 : ℕ) (s : State) :
    StateKeeps 0x180000000000000000000000000000000000000000000000000000000000000000000000000000000000000000152 s (stipPost a0 a1 a2 a3 a4 a5 s) := by
  unfold stipPost
  extract_lets -merge -underBinder +onlyGivenNames x0
  clear_value x0
  extract_lets -merge -underBinder +onlyGivenNames x1
  clear_value x1
  split
  · extract_lets -merge -underBinder +onlyGivenNames x2
    clear_value x2
    refine StateKeeps.modDev ?_ ?_
    · exact (.refl _ _)
    · beta_reduce
      extract_lets -merge -underBinder +onlyGivenNames x3
      clear_value x3
      extract_lets -merge -underBinder +onlyGivenNames x4
      clear_value x4
      extract_lets -merge -underBinder +onlyGivenNames x5
      have h5 : DevKeeps 0x180000000000000000000000000000000000000000000000000000000000000000000000000000000000000000152 s.dev x5 := by
        subst x5
        exact DevKeeps.set_stip _ (.refl _ _) rfl
      clear_value x5
      extract_lets -merge -underBinder +onlyGivenNames x6
      have h6 : DevKeeps 0x180000000000000000000000000000000000000000000000000000000000000000000000000000000000000000152 s.dev x6 := by
        subst x6
        exact (DevKeeps.step h5 (Dev.modStip_keeps _ _ _) rfl)
      clear_value x6
      exact (DevKeeps.step h6 (takeDesc_keeps _ _ _ _) rfl)

theorem stipPassEnd_keeps (a0 : ℕ) (d : Dev) :
    DevKeeps 0x8200000000000000000000000000000000000000000000000000000000000000000102 d (stipPassEnd a0 d) := by
  unfold stipPassEnd
  extract_lets -merge -underBinder +onlyGivenNames x0
  clear_value x0
  extract_lets -merge -underBinder +onlyGivenNames x1
  have h1 : DevKeeps 0x8200000000000000000000000000000000000000000000000000000000000000000102 d x1 := by
    subst x1
    exact (DevKeeps.step (.refl _ _) (Dev.modStip_keeps _ _ _) rfl)
  clear_value x1
  exact (DevKeeps.step (DevKeeps.step h1 (Dev.wr_keeps _ _ _) (by rfl)) (Dev.wr_keeps _ _ _) (by rfl))

theorem stipEnable_keeps (d : Dev) :
    DevKeeps 256 d (stipEnable d) := by
  unfold stipEnable
  refine DevKeeps.forUpTo ?_ (fun a0 y0 h0 => ?_)
  · exact (.refl _ _)
  · beta_reduce
    refine iteP (P := DevKeeps 256 d) (fun _ => ?_) (fun _ => ?_)
    · exact (DevKeeps.step h0 (Dev.modStip_keeps _ _ _) rfl)
    · exact h0

theorem urgentDone_keeps (a0 : ℕ) (a1 : UrgRow) (d : Dev) :
    DevKeeps 256 d (urgentDone a0 a1 d) := by
  unfold urgentDone
  extract_lets -merge -underBinder +onlyGivenNames x0
  clear_value x0
  extract_lets -merge -underBinder +onlyGivenNames x1
  clear_value x1
  extract_lets -merge -underBinder +onlyGivenNames x2
  clear_value x2
  extract_lets -merge -underBinder +onlyGivenNames x3
  clear_value x3
  refine DevKeeps.step ?_ (Dev.modStip_keeps _ _ _) rfl
  exact DevKeeps.set_stip _ (.refl _ _) rfl

theorem stipUrgent_keeps (a0 : ℕ) (a1 : ℕ) (s : State) :
    SndP (StateKeeps 0x180000000000000000000000000000000000000000000000000000000000000000000000000000000000000000152 s) (stipUrgent a0 a1 s) := by
  induction a1 generalizing s with
  | zero => exact StateKeeps.refl _ _
  | succ n ih =>
    unfold stipUrgent
    split
    · refine SndP.mk ?_
      exact (.refl _ _)
    · extract_lets -merge -underBinder +onlyGivenNames x0
      clear_value x0
      extract_lets -merge -underBinder +onlyGivenNames x1
      clear_value x1
      extract_lets -merge -underBinder +onlyGivenNames x2
      clear_value x2
      split
      · refine iteP (P := SndP (StateKeeps 0x180000000000000000000000000000000000000000000000000000000000000000000000000000000000000000152 s)) (fun _ => ?_) (fun _ => ?_)
        · refine SndP.mk ?_
          exact (.refl _ _)
        · refine SndP.mk ?_
          exact (.refl _ _)
      · refine StateKeeps.stepSnd ?_ (ih _) rfl
        refine StateKeeps.modDev ?_ ?_
        · exact (.refl _ _)
        · exact (DevKeeps.step (.refl _ _) (urgentDone_keeps _ _ _) rfl)

theorem stipAt_keeps (a0 : ℕ) (a1 : ℕ × ℕ × ℕ) (s : State) :
    OkP (StateKeeps 0x180000000000000000000000000000000000000000000000000000000000000000000000000000000000000000152 s) (stipAt a0 a1 s) := by
  unfold stipAt
  split
  · extract_lets -merge -underBinder +onlyGivenNames x0
    clear_value x0
    refine iteP (P := OkP (StateKeeps 0x180000000000000000000000000000000000000000000000000000000000000000000000000000000000000000152 s)) (fun _ => ?_) (fun _ => ?_)
    · refine OkP.ok ?_
      refine StateKeeps.modDev ?_ ?_
      · exact (StateKeeps.step (.refl _ _) (stipPost_keeps _ _ _ _ _ _ _) rfl)
      · beta_reduce
        exact (DevKeeps.step (StateKeeps.dev (StateKeeps.step (.refl _ _) (stipPost_keeps _ _ _ _ _ _ _) rfl)) (Dev.modStip_keeps _ _ _) rfl)
    · exact trivial

theorem stipUrgent_result (ch n : Nat) (s : State) : SomeP (OkP (StateKeeps 0x180000000000000000000008200000000000000000000000000000000000000000000000000000000000000000152 s)) (stipUrgent ch n s).1 := by
  induction n generalizing s with
  | zero => trivial
  | succ n ih =>
    unfold stipUrgent
    split
    · trivial
    · dsimp only
      split
      · split
        · exact StateKeeps.modDev (StateKeeps.step (.refl _ _) (stipPost_keeps _ _ _ _ _ _ _) rfl)
            ((StateKeeps.step (.refl _ _) (stipPost_keeps _ _ _ _ _ _ _) rfl : StateKeeps 0x180000000000000000000008200000000000000000000000000000000000000000000000000000000000000000152 s _).dev.step (Dev.modStip_keeps _ _ _) rfl)
        · trivial
      · have h : StateKeeps 0x180000000000000000000008200000000000000000000000000000000000000000000000000000000000000000152 s (s.modDev (urgentDone ch ‹UrgRow›)) :=
          StateKeeps.modDev (.refl _ _) ((urgentDone_keeps _ _ _).mono rfl)
        exact (ih _).mono fun r hr => hr.mono fun _ ht => h.step ht rfl

theorem stippleReadPost_keeps (a0 : Nat) (s : State) : OkP (StateKeeps 0x180000000000000000000008200000000000000000000000000000000000000000000000000000000000000000152 s) (stippleReadPost a0 s) := by
  unfold stippleReadPost
  refine iteP (P := OkP (StateKeeps 0x180000000000000000000008200000000000000000000000000000000000000000000000000000000000000000152 s)) (fun _ => trivial) (fun _ => ?_)
  have h1 := stipUrgent_result a0 (s.dev.stip.urgent.length + 1) s
  have h2 := stipUrgent_keeps a0 (s.dev.stip.urgent.length + 1) s
  generalize stipUrgent a0 (s.dev.stip.urgent.length + 1) s = z at h1 h2
  obtain ⟨r, t⟩ := z
  have ht : StateKeeps 0x180000000000000000000008200000000000000000000000000000000000000000000000000000000000000000152 s t := StateKeeps.step (.refl _ _) h2 rfl
  cases r with
  | some r => exact h1
  | none =>
    dsimp only
    split
    · exact ht.stepOk (stipAt_keeps _ _ _) rfl
    · have h3 : StateKeeps 0x180000000000000000000008200000000000000000000000000000000000000000000000000000000000000000152 s (t.modDev (stipPassEnd a0)) := ht.modDev (ht.dev.step (stipPassEnd_keeps _ _) rfl)
      split
      · exact h3.stepOk (stipAt_keeps _ _ _) rfl
      · exact OkP.ok h3

theorem execStippleReadPost_keeps (a0 : Fin 48) (s : State) :
    NextP (StateKeeps 0x18004000000000000000000E200000000000000000000000000000000000000000000000000000000000000E95952 s) (execStippleReadPost a0 s) := by
  unfold execStippleReadPost
  split
  · rename_i v0_0 q0
    have h1 : StateKeeps 0x18004000000000000000000E200000000000000000000000000000000000000000000000000000000000000E95952 s v0_0 := by
      refine OkP.get (P := (StateKeeps 0x18004000000000000000000E200000000000000000000000000000000000000000000000000000000000000E95952 s)) ?_ q0
      exact StateKeeps.stepOk (.refl _ _) (stippleReadPost_keeps _ _) rfl
    refine NextP.next ?_
    exact (StateKeeps.step h1 (afterChan_keeps _ _) rfl)
  · exact StateKeeps.stepNext (.refl _ _) (noEvent_keeps _ _) rfl

theorem stippleLate_keeps (a0 : ℕ) (d : Dev) :
    OkP (DevKeeps 0x8000000000000000000000000000000000000000000000000000000000000000000102 d) (stippleLate a0 d) := by
  unfold stippleLate
  extract_lets -merge -underBinder +onlyGivenNames x0
  clear_value x0
  refine iteP (P := OkP (DevKeeps 0x8000000000000000000000000000000000000000000000000000000000000000000102 d)) (fun _ => ?_) (fun _ => ?_)
  · refine OkP.ok ?_
    exact (DevKeeps.step (DevKeeps.step (.refl _ _) (Dev.modStip_keeps _ _ _) rfl) (Dev.wr_keeps _ _ _) (by rfl))
  · exact trivial

theorem execStippleLate_keeps (a0 : Fin 48) (s : State) :
    NextP (StateKeeps 0x8000000000000000000000000000000000000000000000000000000000000000000102 s) (execStippleLate a0 s) := by
  unfold execStippleLate
  refine onDev_keeps ?_
  exact DevKeeps.stepOk (.refl _ _) (stippleLate_keeps _ _) rfl

theorem stipUrgPost_keeps (a0 : ℕ) (d : Dev) :
    DevKeeps 0x8000000000000000000000000000000000000000000000000000000000000000000102 d (stipUrgPost a0 d) := by
  unfold stipUrgPost
  extract_lets -merge -underBinder +onlyGivenNames x0
  clear_value x0
  extract_lets -merge -underBinder +onlyGivenNames x1
  clear_value x1
  refine iteP (P := DevKeeps 0x8000000000000000000000000000000000000000000000000000000000000000000102 d) (fun _ => ?_) (fun _ => ?_)
  · exact (.refl _ _)
  · refine iteP (P := DevKeeps 0x8000000000000000000000000000000000000000000000000000000000000000000102 d) (fun _ => ?_) (fun _ => ?_)
    · exact (DevKeeps.step (.refl _ _) (Dev.wr_keeps _ _ _) (by rfl))
    · exact DevKeeps.set_stip _ (.refl _ _) rfl

theorem execStipUrgPost_keeps (a0 : Word) (s : State) :
    NextP (StateKeeps 0x8000000000000000000000000000000000000000000000000000000000000000000103 s) (execStipUrgPost a0 s) := by
  unfold execStipUrgPost
  refine onDev_keeps ?_
  refine orRsv_keeps ?_ ?_ rfl
  · exact (.refl _ _)
  · exact (DevKeeps.step (.refl _ _) (stipUrgPost_keeps _ _) rfl)

end Sys2Proof.Machine
end

