-- ==== Sys2Proof/Laws/KeepRegRead.lean ====
section
/-! SUPPORT. What each operation of Machine/RegRead.lean leaves as it was. -/

namespace Sys2Proof.Machine

theorem readReg_keeps (a0 a1 : Nat) (a2 : RegDef) (d : Dev) : SndP (DevKeeps 0xFFFFFFFFFFFFFFFFFFFFFFFFFFFFFFFFFFFFFFFFFFFFFFFFFFFFFFFFFFFFFFFFFFFFFFFFFFFFFFFFFFFFFFFFFFFFFFFFFFFFFFFFFFFFFFFFFFFFFFFFFFFFFFFF000A0E d) (readReg a0 a1 a2 d) := by
  unfold readReg
  extract_lets v rc w d1 d2
  refine SndP.mk ?_
  have h1 : DevKeeps 0xFFFFFFFFFFFFFFFFFFFFFFFFFFFFFFFFFFFFFFFFFFFFFFFFFFFFFFFFFFFFFFFFFFFFFFFFFFFFFFFFFFFFFFFFFFFFFFFFFFFFFFFFFFFFFFFFFFFFFFFFFFFFFFFF000A0E d d1 := by
    refine iteP (P := DevKeeps 0xFFFFFFFFFFFFFFFFFFFFFFFFFFFFFFFFFFFFFFFFFFFFFFFFFFFFFFFFFFFFFFFFFFFFFFFFFFFFFFFFFFFFFFFFFFFFFFFFFFFFFFFFFFFFFFFFFFFFFFFFFFFFFFFF000A0E d) (fun _ => .refl _ _) (fun _ => ?_)
    exact (Dev.regSet_keeps d a2 a0 a1 _).mono (regMask_sub_of a2 rfl)
  refine iteP (P := DevKeeps 0xFFFFFFFFFFFFFFFFFFFFFFFFFFFFFFFFFFFFFFFFFFFFFFFFFFFFFFFFFFFFFFFFFFFFFFFFFFFFFFFFFFFFFFFFFFFFFFFFFFFFFFFFFFFFFFFFFFFFFFFFFFFFFFFF000A0E d) (fun _ => h1.step (countLoRead_keeps _) rfl) (fun _ => ?_)
  refine iteP (P := DevKeeps 0xFFFFFFFFFFFFFFFFFFFFFFFFFFFFFFFFFFFFFFFFFFFFFFFFFFFFFFFFFFFFFFFFFFFFFFFFFFFFFFFFFFFFFFFFFFFFFFFFFFFFFFFFFFFFFFFFFFFFFFFFFFFFFFFF000A0E d) (fun _ => h1.step (nonceLoRead_keeps _) rfl) (fun _ => ?_)
  exact iteP (P := DevKeeps 0xFFFFFFFFFFFFFFFFFFFFFFFFFFFFFFFFFFFFFFFFFFFFFFFFFFFFFFFFFFFFFFFFFFFFFFFFFFFFFFFFFFFFFFFFFFFFFFFFFFFFFFFFFFFFFFFFFFFFFFFFFFFFFFFF000A0E d) (fun _ => h1.step (linkLoRead_keeps _) rfl) (fun _ => h1)

theorem readControl_keeps (a0 a1 : Nat) (d : Dev) : SndP (DevKeeps 0xFFFFFFFFFFFFFFFFFFFFFFFFFFFFFFFFFFFFFFFFFFFFFFFFFFFFFFFFFFFFFFFFFFFFFFFFFFFFFFFFFFFFFFFFFFFFFFFFFFFFFFFFFFFFFFFFFFFFFFFFFFFFFFFF000A0E d) (readControl a0 a1 d) := by
  unfold readControl
  generalize bankAt a1 = z
  cases z with
  | some p => exact SndP.mk (.refl _ _)
  | none =>
    generalize regAt a1 = w
    cases w with
    | some r => exact (readReg_keeps _ _ _ _).mono fun _ h => h.mono rfl
    | none => exact SndP.mk (.refl _ _)

end Sys2Proof.Machine
end

