-- ==== Sys2Proof/Laws/KeepRegWrite.lean ====
section
/-! SUPPORT. What each operation of Machine/RegWrite.lean leaves as it was. -/

namespace Sys2Proof.Machine

theorem storeFields_keeps (n i : Nat) (r : RegDef) (v : Nat) (d : Dev) : DevKeeps (regMask r) d (storeFields n i r v d) := by
  unfold storeFields
  exact Dev.regSet_keeps _ _ _ _ _

theorem seqPost_keeps (a0 : ℕ) (a1 : ℕ) (a2 : ℕ) (a3 : ℕ) (d : Dev) :
    DevKeeps 0x180002000000000000000000000000000000000000000000000000000000000000000000000000000000000000052 d (seqPost a0 a1 a2 a3 d) := by
  unfold seqPost
  refine iteP (P := DevKeeps 0x180002000000000000000000000000000000000000000000000000000000000000000000000000000000000000052 d) (fun _ => ?_) (fun _ => ?_)
  · exact (DevKeeps.step (.refl _ _) (Dev.modChan_keeps _ _ _) rfl)
  · exact (DevKeeps.step (.refl _ _) (postDesc_keeps _ _ _ _ _) rfl)

theorem parPost_keeps (a0 : ℕ) (a1 : ℕ) (a2 : ℕ) (d : Dev) :
    DevKeeps 0x10200000000000000000000000000000000000000000000000000000000000008C2 d (parPost a0 a1 a2 d) := by
  unfold parPost
  refine iteP (P := DevKeeps 0x10200000000000000000000000000000000000000000000000000000000000008C2 d) (fun _ => ?_) (fun _ => ?_)
  · exact (DevKeeps.step (.refl _ _) (Dev.modPar_keeps _ _) rfl)
  · exact (DevKeeps.step (.refl _ _) (parityPost_keeps _ _ _) rfl)

theorem ciphPost_keeps (a0 : ℕ) (a1 : ℕ) (a2 : ℕ) (d : Dev) :
    DevKeeps 0x100000000000000000000000000000000000000000000000000202 d (ciphPost a0 a1 a2 d) := by
  unfold ciphPost
  refine iteP (P := DevKeeps 0x100000000000000000000000000000000000000000000000000202 d) (fun _ => ?_) (fun _ => ?_)
  · exact (DevKeeps.step (.refl _ _) (Dev.modCiph_keeps _ _) rfl)
  · exact (DevKeeps.step (.refl _ _) (cipherPost_keeps _ _ _) rfl)

theorem camOpWrite_keeps (a0 : ℕ) (a1 : ℕ) (d : Dev) :
    DevKeeps 0x5FF00000000000000000000000000008002 d (camOpWrite a0 a1 d) := by
  unfold camOpWrite
  extract_lets -merge -underBinder +onlyGivenNames x0
  clear_value x0
  extract_lets -merge -underBinder +onlyGivenNames x1
  clear_value x1
  extract_lets -merge -underBinder +onlyGivenNames x2
  clear_value x2
  refine iteP (P := DevKeeps 0x5FF00000000000000000000000000008002 d) (fun _ => ?_) (fun _ => ?_)
  · exact (DevKeeps.step (.refl _ _) (Dev.camOpFields_keeps _ _ _) rfl)
  · refine iteP (P := DevKeeps 0x5FF00000000000000000000000000008002 d) (fun _ => ?_) (fun _ => ?_)
    · exact (DevKeeps.step (.refl _ _) (camInvalidate_keeps _ _ _) rfl)
    · refine iteP (P := DevKeeps 0x5FF00000000000000000000000000008002 d) (fun _ => ?_) (fun _ => ?_)
      · exact (DevKeeps.step (.refl _ _) (camWrite_keeps _ _ _) rfl)
      · refine iteP (P := DevKeeps 0x5FF00000000000000000000000000008002 d) (fun _ => ?_) (fun _ => ?_)
        · exact (DevKeeps.step (.refl _ _) (camValidate_keeps _ _ _) rfl)
        · refine iteP (P := DevKeeps 0x5FF00000000000000000000000000008002 d) (fun _ => ?_) (fun _ => ?_)
          · exact (DevKeeps.step (.refl _ _) (camRead_keeps _ _ _) rfl)
          · refine iteP (P := DevKeeps 0x5FF00000000000000000000000000008002 d) (fun _ => ?_) (fun _ => ?_)
            · exact (DevKeeps.step (.refl _ _) (camSearchOp_keeps _ _ _) rfl)
            · exact (DevKeeps.step (.refl _ _) (Dev.camOpFields_keeps _ _ _) rfl)

theorem keyCmdWrite_keeps (a0 : ℕ) (s : State) :
    StateKeeps 0x8000900000000000000000000000000000000000000000000800A03 s (keyCmdWrite a0 s) := by
  unfold keyCmdWrite
  extract_lets -merge -underBinder +onlyGivenNames x0
  clear_value x0
  extract_lets -merge -underBinder +onlyGivenNames x1
  clear_value x1
  refine iteP (P := StateKeeps 0x8000900000000000000000000000000000000000000000000800A03 s) (fun _ => ?_) (fun _ => ?_)
  · refine StateKeeps.modDev ?_ ?_
    · exact (.refl _ _)
    · exact (DevKeeps.step (.refl _ _) (keyCmdFields_keeps _ _ _) rfl)
  · refine iteP (P := StateKeeps 0x8000900000000000000000000000000000000000000000000800A03 s) (fun _ => ?_) (fun _ => ?_)
    · exact (StateKeeps.step (.refl _ _) (keyGenerate_keeps _ _) rfl)
    · refine iteP (P := StateKeeps 0x8000900000000000000000000000000000000000000000000800A03 s) (fun _ => ?_) (fun _ => ?_)
      · exact (StateKeeps.step (.refl _ _) (keyLoad_keeps _ _) rfl)
      · refine iteP (P := StateKeeps 0x8000900000000000000000000000000000000000000000000800A03 s) (fun _ => ?_) (fun _ => ?_)
        · refine StateKeeps.modDev ?_ ?_
          · exact (.refl _ _)
          · exact (DevKeeps.step (.refl _ _) (keyPurge_keeps _ _) rfl)
        · refine StateKeeps.modDev ?_ ?_
          · exact (.refl _ _)
          · exact (DevKeeps.step (.refl _ _) (keyCmdFields_keeps _ _ _) rfl)

theorem wmWrite_keeps (a0 : ℕ) (d : Dev) :
    DevKeeps 0x400000000000000000000000000000000000000000002 d (wmWrite a0 d) := by
  unfold wmWrite
  extract_lets -merge -underBinder +onlyGivenNames x0
  clear_value x0
  refine iteP (P := DevKeeps 0x400000000000000000000000000000000000000000002 d) (fun _ => ?_) (fun _ => ?_)
  · exact (DevKeeps.step (.refl _ _) (Dev.wr_keeps _ _ _) (by rfl))
  · exact (DevKeeps.step (.refl _ _) (Dev.regSet_keeps _ _ _ _ _) (by rfl))

theorem setAt_keeps (r : Option RegDef) (v : Nat) (d : Dev) : DevKeeps regsMask d (setAt r v d) := by
  unfold setAt
  split
  · exact DevKeeps.set_regs _ (.refl _ _) rfl
  · exact .refl _ _

theorem iteSome {α : Type} {c : Prop} [Decidable c] {x y : Option α} {f : α} (h : (if c then x else y) = some f) :
    x = some f ∨ y = some f := by
  by_cases hc : c
  · rw [if_pos hc] at h; exact .inl h
  · rw [if_neg hc] at h; exact .inr h

theorem SomeP.intro {α : Type} {P : α → Prop} {x : Option α} (h : ∀ f : α, x = Option.some f → P f) : SomeP P x := by
  cases x with
  | none => trivial
  | some f => exact h f rfl

theorem actsChan_keeps (n g a v : Nat) (d : Dev) : SomeP (fun (f : Dev → Dev) => DevKeeps 0xFFFFFFFFFFFFFFFFFFFFFFFFFFFFFFFFFFFFFFFFFFFFFFFFFFFFFFFFFFFFFFFFFFFFFFFFFFFFFFFFFFFFFFFFFFFFFFFFFFFFFFFFFFFFFFFFFFFFFFFFFFFFFFFFFFFFFB d (f d)) (actsChan n g a v) := by
  refine SomeP.intro fun f h => ?_
  unfold actsChan at h
  extract_lets o at h
  rcases iteSome h with h | h
  · injection h with h; subst h
    exact (seqCtl_keeps _ _ _).mono rfl
  rcases iteSome h with h | h
  · injection h with h; subst h
    exact (seqPost_keeps _ _ _ _ _).mono rfl
  rcases iteSome h with h | h
  · injection h with h; subst h
    exact (dieCtl_keeps _ _ _).mono rfl
  rcases iteSome h with h | h
  · injection h with h; subst h
    exact (blockStateWrite_keeps _ _ _).mono rfl
  rcases iteSome h with h | h
  · injection h with h; subst h
    exact (hatchCtlStore_keeps _ _ _).mono rfl
  rcases iteSome h with h | h
  · injection h with h; subst h
    exact (phyRateWrite_keeps _ _ _).mono rfl
  simp at h

theorem Dev.acts_keeps (g a v : Nat) (d : Dev) : SomeP (fun (f : Dev → Dev) => DevKeeps 0xFFFFFFFFFFFFFFFFFFFFFFFFFFFFFFFFFFFFFFFFFFFFFFFFFFFFFFFFFFFFFFFFFFFFFFFFFFFFFFFFFFFFFFFFFFFFFFFFFFFFFFFFFFFFFFFFFFFFFFFFFFFFFFFFFFFFFB d (f d)) (Dev.acts g a v) := by
  refine SomeP.intro fun f h => ?_
  unfold Dev.acts at h
  extract_lets o win at h
  rcases iteSome h with h | h
  · injection h with h; subst h
    exact (strkCtlWrite_keeps _ _).mono rfl
  rcases iteSome h with h | h
  · injection h with h; subst h
    exact (opCtlWrite_keeps _ _).mono rfl
  rcases iteSome h with h | h
  · injection h with h; subst h
    exact (trimWrite_keeps _ _ _).mono rfl
  rcases iteSome h with h | h
  · injection h with h; subst h
    exact (Dev.wr_keeps _ _ _).mono (by rfl)
  rcases iteSome h with h | h
  · injection h with h; subst h
    exact iteP (P := DevKeeps 0xFFFFFFFFFFFFFFFFFFFFFFFFFFFFFFFFFFFFFFFFFFFFFFFFFFFFFFFFFFFFFFFFFFFFFFFFFFFFFFFFFFFFFFFFFFFFFFFFFFFFFFFFFFFFFFFFFFFFFFFFFFFFFFFFFFFFFB d) (fun _ => (rstCold_keeps _).mono rfl) (fun _ => .refl _ _)
  rcases iteSome h with h | h
  · injection h with h; subst h
    exact (tenantWrite_keeps _ _).mono rfl
  rcases iteSome h with h | h
  · injection h with h; subst h
    exact (classWrite_keeps _ _ _).mono rfl
  rcases iteSome h with h | h
  · injection h with h; subst h
    exact (camOpWrite_keeps _ _ _).mono rfl
  rcases iteSome h with h | h
  · injection h with h; subst h
    exact (cellCtlWrite_keeps _ _).mono rfl
  rcases iteSome h with h | h
  · injection h with h; subst h
    exact (cellAllocRequest_keeps _ _ _).mono rfl
  rcases iteSome h with h | h
  · injection h with h; subst h
    exact (cellFreed_keeps _ _ _).mono rfl
  rcases iteSome h with h | h
  · injection h with h; subst h
    exact (cellSplice_keeps _ _ _).mono rfl
  rcases iteSome h with h | h
  · injection h with h; subst h
    exact (dmcCtlWrite_keeps _ _).mono rfl
  rcases iteSome h with h | h
  · injection h with h; subst h
    exact (retireMask_keeps _ _).mono rfl
  rcases iteSome h with h | h
  · injection h with h; subst h
    exact (wmWrite_keeps _ _).mono rfl
  rcases iteSome h with h | h
  · injection h with h; subst h
    exact (epochWrite_keeps _ _).mono rfl
  rcases iteSome h with h | h
  · injection h with h; subst h
    exact (ciphPost_keeps _ _ _ _).mono rfl
  rcases iteSome h with h | h
  · injection h with h; subst h
    exact (stSelWrite_keeps _ _).mono rfl
  rcases iteSome h with h | h
  · injection h with h; subst h
    exact (parPost_keeps _ _ _ _).mono rfl
  rcases iteSome h with h | h
  · injection h with h; subst h
    exact iteP (P := DevKeeps 0xFFFFFFFFFFFFFFFFFFFFFFFFFFFFFFFFFFFFFFFFFFFFFFFFFFFFFFFFFFFFFFFFFFFFFFFFFFFFFFFFFFFFFFFFFFFFFFFFFFFFFFFFFFFFFFFFFFFFFFFFFFFFFFFFFFFFFB d) (fun _ => ((storeFields_keeps _ _ _ _ _).mono (by rfl)).step (stipEnable_keeps _) rfl)
          (fun _ => (storeFields_keeps _ _ _ _ _).mono (by rfl))
  rcases iteSome h with h | h
  · injection h with h; subst h
    exact (stipUrgPost_keeps _ _).mono rfl
  rcases iteSome h with h | h
  · injection h with h; subst h
    exact (Dev.modGraver_keeps _ _ _).mono rfl
  rcases iteSome h with h | h
  · injection h with h; subst h
    exact (graverMigrate_keeps _ _).mono rfl
  rcases iteSome h with h | h
  · injection h with h; subst h
    exact (measExtend_keeps _ _).mono rfl
  rcases iteSome h with h | h
  · injection h with h; subst h
    exact (setAt_keeps _ _ _).mono rfl
  simp at h

theorem Dev.fixed_keeps (n a : Nat) (d : Dev) : SomeP (fun (f : Dev → Dev) => DevKeeps 0xFFFFFFFFFFFFFFFFFFFFFFFFFFFFFFFFFFFFFFFFFFFFFFFFFFFFFFFFFFFFFFFFFFFFFFFFFFFFFFFFFFFFFFFFFFFFFFFFFFFFFFFFFFFFFFFFFFFFFFFFFFFFFFFFFFFFFB d (f d)) (d.fixed n a) := by
  refine SomeP.intro fun f h => ?_
  have hno : ∀ (c : Bool) (g : Dev → Dev), fixedIf c g = some f → DevKeeps 0xFFFFFFFFFFFFFFFFFFFFFFFFFFFFFFFFFFFFFFFFFFFFFFFFFFFFFFFFFFFFFFFFFFFFFFFFFFFFFFFFFFFFFFFFFFFFFFFFFFFFFFFFFFFFFFFFFFFFFFFFFFFFFFFFFFFFFB d (g d) → DevKeeps 0xFFFFFFFFFFFFFFFFFFFFFFFFFFFFFFFFFFFFFFFFFFFFFFFFFFFFFFFFFFFFFFFFFFFFFFFFFFFFFFFFFFFFFFFFFFFFFFFFFFFFFFFFFFFFFFFFFFFFFFFFFFFFFFFFFFFFFB d (f d) := by
    intro c g hc hg
    cases c
    · simp [fixedIf] at hc
    · simp only [fixedIf, if_true, Option.some.injEq] at hc; subst hc; exact hg
  unfold Dev.fixed at h
  extract_lets o win at h
  rcases iteSome h with h | h
  · exact hno _ _ h ((Dev.wr_keeps _ _ _).mono (by rfl))
  rcases iteSome h with h | h
  · exact hno _ _ h (.refl _ _)
  rcases iteSome h with h | h
  · exact hno _ _ h ((Dev.wr_keeps _ _ _).mono (by rfl))
  rcases iteSome h with h | h
  · exact hno _ _ h ((Dev.wr_keeps _ _ _).mono (by rfl))
  rcases iteSome h with h | h
  · exact hno _ _ h (.refl _ _)
  rcases iteSome h with h | h
  · exact hno _ _ h ((Dev.wr_keeps _ _ _).mono (by rfl))
  rcases iteSome h with h | h
  · exact hno _ _ h (.refl _ _)
  rcases iteSome h with h | h
  · exact hno _ _ h ((Dev.wr_keeps _ _ _).mono (by rfl))
  rcases iteSome h with h | h
  · exact hno _ _ h (.refl _ _)
  rcases iteSome h with h | h
  · exact hno _ _ h ((Dev.wrc_keeps _ _ _ _).mono (by rfl))
  simp at h

theorem actsWide_keeps (a v : Nat) (s : State) : SomeP (fun (f : State → State) => StateKeeps 0xFFFFFFFFFFFFFFFFFFFFFFFFFFFFFFFFFFFFFFFFFFFFFFFFFFFFFFFFFFFFFFFFFFFFFFFFFFFFFFFFFFFFFFFFFFFFFFFFFFFFFFFFFFFFFFFFFFFFFFFFFFFFFFFFFFFFFB s (f s)) (actsWide a v) := by
  refine SomeP.intro fun f h => ?_
  unfold actsWide at h
  rcases iteSome h with h | h
  · injection h with h; subst h
    exact StateKeeps.step (.refl _ _) (keyCmdWrite_keeps _ _) rfl
  rcases iteSome h with h | h
  · injection h with h; subst h
    exact StateKeeps.step (StateKeeps.modDev (.refl _ _) ((storeFields_keeps _ _ _ _ _).mono (by rfl))) (drainCiph_keeps _) rfl
  rcases iteSome h with h | h
  · injection h with h; subst h
    exact StateKeeps.step (StateKeeps.modDev (.refl _ _) ((storeFields_keeps _ _ _ _ _).mono (by rfl))) (drainEsc_keeps _) rfl
  rcases iteSome h with h | h
  · injection h with h; subst h
    exact StateKeeps.step (StateKeeps.modDev (.refl _ _) ((storeFields_keeps _ _ _ _ _).mono (by rfl))) (drainPar_keeps _) rfl
  rcases iteSome h with h | h
  · injection h with h; subst h
    exact StateKeeps.step (StateKeeps.modDev (.refl _ _) (((storeFields_keeps _ _ _ _ _).mono (by rfl)).step (startSends_keeps _) rfl)) (settleJenam_keeps _) rfl
  rcases iteSome h with h | h
  · injection h with h; subst h
    exact StateKeeps.step (.refl _ _) (jenamTx_keeps _ _) rfl
  rcases iteSome h with h | h
  · injection h with h; subst h
    exact StateKeeps.step (.refl _ _) (grvCtlWrite_keeps _ _) rfl
  rcases iteSome h with h | h
  · injection h with h; subst h
    exact StateKeeps.step (StateKeeps.modDev (.refl _ _) ((setAt_keeps _ _ _).mono rfl)) (holdSpares_keeps _) rfl
  simp at h

theorem putReg_keeps (a0 a1 a2 : Nat) (a3 : RegDef) (a4 : Nat) (s : State) : StateKeeps 0xFFFFFFFFFFFFFFFFFFFFFFFFFFFFFFFFFFFFFFFFFFFFFFFFFFFFFFFFFFFFFFFFFFFFFFFFFFFFFFFFFFFFFFFFFFFFFFFFFFFFFFFFFFFFFFFFFFFFFFFFFFFFFFFFFFFFFB s (putReg a0 a1 a2 a3 a4 s) := by
  unfold putReg
  have hf := Dev.fixed_keeps a0 a3.addr s.dev
  generalize s.dev.fixed a0 a3.addr = z at hf
  cases z with
  | some f => exact StateKeeps.modDev (.refl _ _) hf
  | none =>
    generalize winOf a3.addr = w
    refine iteP (P := StateKeeps 0xFFFFFFFFFFFFFFFFFFFFFFFFFFFFFFFFFFFFFFFFFFFFFFFFFFFFFFFFFFFFFFFFFFFFFFFFFFFFFFFFFFFFFFFFFFFFFFFFFFFFFFFFFFFFFFFFFFFFFFFFFFFFFFFFFFFFFB s) (fun _ => ?_) (fun _ => ?_)
    · have hc := actsChan_keeps a0 a1 a3.addr a4 s.dev
      generalize actsChan a0 a1 a3.addr a4 = c at hc
      have h1 : StateKeeps 0xFFFFFFFFFFFFFFFFFFFFFFFFFFFFFFFFFFFFFFFFFFFFFFFFFFFFFFFFFFFFFFFFFFFFFFFFFFFFFFFFFFFFFFFFFFFFFFFFFFFFFFFFFFFFFFFFFFFFFFFFFFFFFFFFFFFFFB s (s.modDev (c.getD (storeFields a0 a2 a3 a4))) := by
        refine StateKeeps.modDev (.refl _ _) ?_
        cases c with
        | some f => exact hc
        | none => exact (storeFields_keeps _ _ a3 _ _).mono (regMask_sub_of a3 rfl)
      exact iteP (P := StateKeeps 0xFFFFFFFFFFFFFFFFFFFFFFFFFFFFFFFFFFFFFFFFFFFFFFFFFFFFFFFFFFFFFFFFFFFFFFFFFFFFFFFFFFFFFFFFFFFFFFFFFFFFFFFFFFFFFFFFFFFFFFFFFFFFFFFFFFFFFB s) (fun _ => h1.step (afterChan_keeps _ _) rfl) (fun _ => h1)
    · have ha := Dev.acts_keeps a1 a3.addr a4 s.dev
      have hw := actsWide_keeps a3.addr a4 s
      generalize Dev.acts a1 a3.addr a4 = c at ha
      generalize actsWide a3.addr a4 = e at hw
      cases c with
      | some f => exact StateKeeps.modDev (.refl _ _) ha
      | none =>
        cases e with
        | some f => exact hw
        | none => exact StateKeeps.modDev (.refl _ _) ((storeFields_keeps _ _ a3 _ _).mono (regMask_sub_of a3 rfl))

theorem storeReg_keeps (a0 a1 a2 : Nat) (a3 : RegDef) (a4 : Nat) (s : State) : StateKeeps 0xFFFFFFFFFFFFFFFFFFFFFFFFFFFFFFFFFFFFFFFFFFFFFFFFFFFFFFFFFFFFFFFFFFFFFFFFFFFFFFFFFFFFFFFFFFFFFFFFFFFFFFFFFFFFFFFFFFFFFFFFFFFFFFFFFFFFFB s (storeReg a0 a1 a2 a3 a4 s) := by
  unfold storeReg
  refine iteP (P := StateKeeps 0xFFFFFFFFFFFFFFFFFFFFFFFFFFFFFFFFFFFFFFFFFFFFFFFFFFFFFFFFFFFFFFFFFFFFFFFFFFFFFFFFFFFFFFFFFFFFFFFFFFFFFFFFFFFFFFFFFFFFFFFFFFFFFFFFFFFFFB s) (fun _ => StateKeeps.modDev (.refl _ _) ((hatchSealStore_keeps _ _ _ _).mono rfl)) (fun _ => ?_)
  refine iteP (P := StateKeeps 0xFFFFFFFFFFFFFFFFFFFFFFFFFFFFFFFFFFFFFFFFFFFFFFFFFFFFFFFFFFFFFFFFFFFFFFFFFFFFFFFFFFFFFFFFFFFFFFFFFFFFFFFFFFFFFFFFFFFFFFFFFFFFFFFFFFFFFB s) (fun _ => StateKeeps.modDev (.refl _ _) ((hatchSealStore_keeps _ _ _ _).mono rfl)) (fun _ => ?_)
  exact orRsvWide_keeps (.refl _ _) (StateKeeps.step (.refl _ _) (putReg_keeps _ _ _ _ _ _) rfl) rfl

theorem writeControl_keeps (a0 a1 a2 : Nat) (s : State) : StateKeeps 0xFFFFFFFFFFFFFFFFFFFFFFFFFFFFFFFFFFFFFFFFFFFFFFFFFFFFFFFFFFFFFFFFFFFFFFFFFFFFFFFFFFFFFFFFFFFFFFFFFFFFFFFFFFFFFFFFFFFFFFFFFFFFFFFFFFFFFB s (writeControl a0 a1 a2 s) := by
  unfold writeControl
  generalize bankAt a1 = z
  cases z with
  | some p => exact StateKeeps.modDev (.refl _ _) ((hatchEntryStore_keeps _ _ _ _ _ _).mono rfl)
  | none =>
    generalize regAt a1 = w
    cases w with
    | some r => exact StateKeeps.step (.refl _ _) (storeReg_keeps _ _ _ _ _ _) rfl
    | none => exact .refl _ _

theorem busAnswer_keeps (a0 : ℕ) (a1 : Bool) (d : Dev) :
    DevKeeps 4 d (busAnswer a0 a1 d) := by
  unfold busAnswer
  exact DevKeeps.set_bus _ (.refl _ _) rfl

theorem execRegisterWrite_keeps (a0 : Fin 64) (a1 : BitVec 40) (a2 : Word) (a3 : BitVec 10) (s : State) :
    NextP (StateKeeps allMask s) (execRegisterWrite a0 a1 a2 a3 s) := by
  unfold execRegisterWrite
  extract_lets -merge -underBinder +onlyGivenNames x0
  clear_value x0
  split
  · refine iteP (P := NextP (StateKeeps allMask s)) (fun _ => ?_) (fun _ => ?_)
    · refine NextP.next ?_
      refine StateKeeps.modDev ?_ ?_
      · exact (.refl _ _)
      · exact (DevKeeps.step (.refl _ _) (busAnswer_keeps _ _ _) rfl)
    · refine NextP.next ?_
      refine StateKeeps.modDev ?_ ?_
      · refine StateKeeps.step ?_ (writeControl_keeps _ _ _ _) rfl
        refine StateKeeps.modDev ?_ ?_
        · exact (.refl _ _)
        · beta_reduce
          exact (DevKeeps.step (.refl _ _) (Dev.atCycle_keeps _ _) rfl)
      · refine DevKeeps.step ?_ (busAnswer_keeps _ _ _) rfl
        refine StateKeeps.dev ?_
        refine StateKeeps.step ?_ (writeControl_keeps _ _ _ _) rfl
        refine StateKeeps.modDev ?_ ?_
        · exact (.refl _ _)
        · beta_reduce
          exact (DevKeeps.step (.refl _ _) (Dev.atCycle_keeps _ _) rfl)
  · refine NextP.next ?_
    refine StateKeeps.modDev ?_ ?_
    · exact (.refl _ _)
    · exact (DevKeeps.step (.refl _ _) (busAnswer_keeps _ _ _) rfl)
  · refine NextP.next ?_
    refine StateKeeps.modDev ?_ ?_
    · exact (.refl _ _)
    · exact (DevKeeps.step (.refl _ _) (busAnswer_keeps _ _ _) rfl)
  · exact StateKeeps.stepNext (.refl _ _) (noEvent_keeps _ _) rfl

end Sys2Proof.Machine
end

