-- ==== Sys2Proof/Laws/KeepGraverMem.lean ====
section
/-! SUPPORT. What each operation of Machine/GraverMem.lean leaves as it was. -/

namespace Sys2Proof.Machine

theorem State.writeReach_keeps (s : State) (a1 : Reach) (a2 : List Byte) : StateKeeps 8390656 s (s.writeReach a1 a2) := by
  unfold State.writeReach
  split
  · exact StateKeeps.setMem (.refl _ _) (memFill_wf _ _) rfl
  · exact StateKeeps.step (.refl _ _) (State.writeBytes_keeps _ _ _) rfl
  · exact .refl _ _

theorem graverTrap_keeps (a0 : ℕ) (a1 : ℕ) (a2 : ℕ) (a3 : Option ℕ) (s : State) :
    StateKeeps 0x2000000000000000000000000000000000000000000000000000000000000000000000000000000810002 s (graverTrap a0 a1 a2 a3 s) := by
  unfold graverTrap
  extract_lets -merge -underBinder +onlyGivenNames x0
  clear_value x0
  split
  · exact (StateKeeps.step (.refl _ _) (etchStop_keeps _ _ _) rfl)
  · refine StateKeeps.modDev ?_ ?_
    · exact (.refl _ _)
    · beta_reduce
      exact (DevKeeps.step (.refl _ _) (Dev.modGraver_keeps _ _ _) rfl)

theorem accessFault_keeps (a0 : ℕ) (a1 : ℕ) (a2 : Bool) (s : State) :
    StateKeeps 0x2000003000000000000000000000000000000000000380000000000000000000000000000000030BFFAF3 s (accessFault a0 a1 a2 s) := by
  unfold accessFault
  extract_lets -merge -underBinder +onlyGivenNames x0
  clear_value x0
  refine iteP (P := StateKeeps 0x2000003000000000000000000000000000000000000380000000000000000000000000000000030BFFAF3 s) (fun _ => ?_) (fun _ => ?_)
  · exact (StateKeeps.step (.refl _ _) (failGraver_keeps _ _ _) rfl)
  · exact (StateKeeps.step (.refl _ _) (graverTrap_keeps _ _ _ _ _) rfl)

theorem breakResv_keeps (a0 : ℕ) (a1 : Reach) (d : Dev) :
    DevKeeps 65536 d (breakResv a0 a1 d) := by
  unfold breakResv
  split
  · refine iteP (P := DevKeeps 65536 d) (fun _ => ?_) (fun _ => ?_)
    · refine DevKeeps.forUpTo ?_ (fun a0 y0 h0 => ?_)
      · exact (.refl _ _)
      · beta_reduce
        exact (DevKeeps.step h0 (Dev.modGraver_keeps _ _ _) rfl)
    · exact (.refl _ _)
  · exact (.refl _ _)

theorem memEnd_keeps (a0 : ℕ) (a1 : ℕ) (a2 : ℕ) (a3 : Option ℕ) (d : Dev) :
    DevKeeps 65536 d (memEnd a0 a1 a2 a3 d) := by
  unfold memEnd
  exact (DevKeeps.step (.refl _ _) (Dev.modGraver_keeps _ _ _) rfl)

theorem memAccess_keeps (a0 : ℕ) (a1 : ℕ) (a2 : ℕ) (a3 : Reach) (a4 : MemOp) (s : State) :
    StateKeeps 8456196 s (memAccess a0 a1 a2 a3 a4 s) := by
  unfold memAccess
  extract_lets -merge -underBinder +onlyGivenNames x0
  clear_value x0
  extract_lets -merge -underBinder +onlyGivenNames x1
  clear_value x1
  extract_lets -merge -underBinder +onlyGivenNames x2
  clear_value x2
  extract_lets -merge -underBinder +onlyGivenNames x3
  clear_value x3
  extract_lets -merge -underBinder +onlyGivenNames x4
  clear_value x4
  extract_lets -merge -underBinder +onlyGivenNames x5
  subst x5
  beta_reduce
  extract_lets -merge -underBinder +onlyGivenNames x6
  subst x6
  beta_reduce
  split
  · refine StateKeeps.modDev ?_ ?_
    · split
      · exact (.refl _ _)
      · refine StateKeeps.modDev ?_ ?_
        · exact (.refl _ _)
        · exact (DevKeeps.step (.refl _ _) (busAnswer_keeps _ _ _) rfl)
    · refine DevKeeps.step ?_ (memEnd_keeps _ _ _ _ _) rfl
      refine StateKeeps.dev ?_
      split
      · exact (.refl _ _)
      · refine StateKeeps.modDev ?_ ?_
        · exact (.refl _ _)
        · exact (DevKeeps.step (.refl _ _) (busAnswer_keeps _ _ _) rfl)
  · refine StateKeeps.modDev ?_ ?_
    · refine StateKeeps.modDev ?_ ?_
      · exact (StateKeeps.step (.refl _ _) (State.writeReach_keeps _ _ _) rfl)
      · exact (DevKeeps.step (StateKeeps.dev (StateKeeps.step (.refl _ _) (State.writeReach_keeps _ _ _) rfl)) (breakResv_keeps _ _ _) rfl)
    · refine DevKeeps.step ?_ (memEnd_keeps _ _ _ _ _) rfl
      refine StateKeeps.dev ?_
      refine StateKeeps.modDev ?_ ?_
      · exact (StateKeeps.step (.refl _ _) (State.writeReach_keeps _ _ _) rfl)
      · exact (DevKeeps.step (StateKeeps.dev (StateKeeps.step (.refl _ _) (State.writeReach_keeps _ _ _) rfl)) (breakResv_keeps _ _ _) rfl)
  · refine StateKeeps.modDev ?_ ?_
    · refine StateKeeps.modDev ?_ ?_
      · split
        · exact (.refl _ _)
        · refine StateKeeps.modDev ?_ ?_
          · exact (.refl _ _)
          · exact (DevKeeps.step (.refl _ _) (busAnswer_keeps _ _ _) rfl)
      · beta_reduce
        refine DevKeeps.step ?_ (Dev.modGraver_keeps _ _ _) rfl
        refine StateKeeps.dev ?_
        split
        · exact (.refl _ _)
        · refine StateKeeps.modDev ?_ ?_
          · exact (.refl _ _)
          · exact (DevKeeps.step (.refl _ _) (busAnswer_keeps _ _ _) rfl)
    · refine DevKeeps.step ?_ (memEnd_keeps _ _ _ _ _) rfl
      refine StateKeeps.dev ?_
      refine StateKeeps.modDev ?_ ?_
      · split
        · exact (.refl _ _)
        · refine StateKeeps.modDev ?_ ?_
          · exact (.refl _ _)
          · exact (DevKeeps.step (.refl _ _) (busAnswer_keeps _ _ _) rfl)
      · beta_reduce
        refine DevKeeps.step ?_ (Dev.modGraver_keeps _ _ _) rfl
        refine StateKeeps.dev ?_
        split
        · exact (.refl _ _)
        · refine StateKeeps.modDev ?_ ?_
          · exact (.refl _ _)
          · exact (DevKeeps.step (.refl _ _) (busAnswer_keeps _ _ _) rfl)
  · extract_lets -merge -underBinder +onlyGivenNames x7
    clear_value x7
    extract_lets -merge -underBinder +onlyGivenNames x8
    have h8 : StateKeeps 8456196 s x8 := by
      subst x8
      refine iteP (P := StateKeeps 8456196 s) (fun _ => ?_) (fun _ => ?_)
      · refine StateKeeps.modDev ?_ ?_
        · exact (StateKeeps.step (.refl _ _) (State.writeReach_keeps _ _ _) rfl)
        · exact (DevKeeps.step (StateKeeps.dev (StateKeeps.step (.refl _ _) (State.writeReach_keeps _ _ _) rfl)) (breakResv_keeps _ _ _) rfl)
      · exact (.refl _ _)
    clear_value x8
    refine StateKeeps.modDev ?_ ?_
    · refine StateKeeps.modDev ?_ ?_
      · exact h8
      · beta_reduce
        exact (DevKeeps.step (StateKeeps.dev h8) (Dev.modGraver_keeps _ _ _) rfl)
    · refine DevKeeps.step ?_ (memEnd_keeps _ _ _ _ _) rfl
      refine StateKeeps.dev ?_
      refine StateKeeps.modDev ?_ ?_
      · exact h8
      · beta_reduce
        exact (DevKeeps.step (StateKeeps.dev h8) (Dev.modGraver_keeps _ _ _) rfl)
  · refine StateKeeps.modDev ?_ ?_
    · refine StateKeeps.modDev ?_ ?_
      · refine StateKeeps.step ?_ (State.writeReach_keeps _ _ _) rfl
        split
        · exact (.refl _ _)
        · refine StateKeeps.modDev ?_ ?_
          · exact (.refl _ _)
          · exact (DevKeeps.step (.refl _ _) (busAnswer_keeps _ _ _) rfl)
      · refine DevKeeps.step ?_ (breakResv_keeps _ _ _) rfl
        refine StateKeeps.dev ?_
        refine StateKeeps.step ?_ (State.writeReach_keeps _ _ _) rfl
        split
        · exact (.refl _ _)
        · refine StateKeeps.modDev ?_ ?_
          · exact (.refl _ _)
          · exact (DevKeeps.step (.refl _ _) (busAnswer_keeps _ _ _) rfl)
    · refine DevKeeps.step ?_ (memEnd_keeps _ _ _ _ _) rfl
      refine StateKeeps.dev ?_
      refine StateKeeps.modDev ?_ ?_
      · refine StateKeeps.step ?_ (State.writeReach_keeps _ _ _) rfl
        split
        · exact (.refl _ _)
        · refine StateKeeps.modDev ?_ ?_
          · exact (.refl _ _)
          · exact (DevKeeps.step (.refl _ _) (busAnswer_keeps _ _ _) rfl)
      · refine DevKeeps.step ?_ (breakResv_keeps _ _ _) rfl
        refine StateKeeps.dev ?_
        refine StateKeeps.step ?_ (State.writeReach_keeps _ _ _) rfl
        split
        · exact (.refl _ _)
        · refine StateKeeps.modDev ?_ ?_
          · exact (.refl _ _)
          · exact (DevKeeps.step (.refl _ _) (busAnswer_keeps _ _ _) rfl)

theorem graverAccess_keeps (a0 : ℕ) (a1 : MemOp) (a2 : Bool) (s : State) :
    StateKeeps allMask s (graverAccess a0 a1 a2 s) := by
  unfold graverAccess
  extract_lets -merge -underBinder +onlyGivenNames x0
  clear_value x0
  extract_lets -merge -underBinder +onlyGivenNames x1
  clear_value x1
  extract_lets -merge -underBinder +onlyGivenNames x2
  clear_value x2
  extract_lets -merge -underBinder +onlyGivenNames x3
  clear_value x3
  extract_lets -merge -underBinder +onlyGivenNames x4
  clear_value x4
  refine iteP (P := StateKeeps allMask s) (fun _ => ?_) (fun _ => ?_)
  · exact (StateKeeps.step (.refl _ _) (graverTrap_keeps _ _ _ _ _) rfl)
  · refine iteP (P := StateKeeps allMask s) (fun _ => ?_) (fun _ => ?_)
    · exact (StateKeeps.step (.refl _ _) (graverTrap_keeps _ _ _ _ _) rfl)
    · refine iteP (P := StateKeeps allMask s) (fun _ => ?_) (fun _ => ?_)
      · exact (StateKeeps.step (.refl _ _) (accessFault_keeps _ _ _ _) rfl)
      · split
        · refine StateKeeps.step ?_ (accessFault_keeps _ _ _ _) rfl
          refine StateKeeps.modDev ?_ ?_
          · exact (.refl _ _)
          · exact (DevKeeps.step (.refl _ _) (busAnswer_keeps _ _ _) rfl)
        · refine iteP (P := StateKeeps allMask s) (fun _ => ?_) (fun _ => ?_)
          · exact (StateKeeps.step (.refl _ _) (memAccess_keeps _ _ _ _ _ _) rfl)
          · refine StateKeeps.step ?_ (accessFault_keeps _ _ _ _) rfl
            refine StateKeeps.modDev ?_ ?_
            · exact (.refl _ _)
            · exact (DevKeeps.step (.refl _ _) (busAnswer_keeps _ _ _) rfl)
        · refine iteP (P := StateKeeps allMask s) (fun _ => ?_) (fun _ => ?_)
          · refine StateKeeps.step ?_ (accessFault_keeps _ _ _ _) rfl
            refine StateKeeps.modDev ?_ ?_
            · exact (.refl _ _)
            · exact (DevKeeps.step (.refl _ _) (busAnswer_keeps _ _ _) rfl)
          · refine iteP (P := StateKeeps allMask s) (fun _ => ?_) (fun _ => ?_)
            · split
              · rename_i v5_0 v5_1 q5
                have h6 : DevKeeps allMask s.dev v5_1 := by
                  refine SndP.get (P := (DevKeeps allMask s.dev)) ?_ q5
                  exact DevKeeps.stepSnd (.refl _ _) (readControl_keeps _ _ _) rfl
                refine StateKeeps.modDev ?_ ?_
                · refine StateKeeps.modDev ?_ ?_
                  · refine StateKeeps.setDev ?_ ?_
                    · exact (.refl _ _)
                    · exact h6
                  · refine DevKeeps.step ?_ (busAnswer_keeps _ _ _) rfl
                    refine StateKeeps.dev ?_
                    refine StateKeeps.setDev ?_ ?_
                    · exact (.refl _ _)
                    · exact h6
                · refine DevKeeps.step ?_ (memEnd_keeps _ _ _ _ _) rfl
                  refine StateKeeps.dev ?_
                  refine StateKeeps.modDev ?_ ?_
                  · refine StateKeeps.setDev ?_ ?_
                    · exact (.refl _ _)
                    · exact h6
                  · refine DevKeeps.step ?_ (busAnswer_keeps _ _ _) rfl
                    refine StateKeeps.dev ?_
                    refine StateKeeps.setDev ?_ ?_
                    · exact (.refl _ _)
                    · exact h6
            · refine StateKeeps.step ?_ (writeControl_keeps _ _ _ _) rfl
              refine StateKeeps.modDev ?_ ?_
              · exact (.refl _ _)
              · beta_reduce
                exact (DevKeeps.step (DevKeeps.step (.refl _ _) (memEnd_keeps _ _ _ _ _) rfl) (busAnswer_keeps _ _ _) rfl)
        · exact (StateKeeps.step (.refl _ _) (memAccess_keeps _ _ _ _ _ _) rfl)

theorem execGraverLoadStore_keeps (a0 : Fin 64) (a1 : MemOp) (a2 : Bool) (a3 : BitVec 10) (s : State) :
    NextP (StateKeeps allMask s) (execGraverLoadStore a0 a1 a2 a3 s) := by
  unfold execGraverLoadStore
  refine iteP (P := NextP (StateKeeps allMask s)) (fun _ => ?_) (fun _ => ?_)
  · refine NextP.next ?_
    refine StateKeeps.step ?_ (graverAccess_keeps _ _ _ _) rfl
    refine StateKeeps.modDev ?_ ?_
    · exact (.refl _ _)
    · beta_reduce
      exact (DevKeeps.step (.refl _ _) (Dev.atCycle_keeps _ _) rfl)
  · exact StateKeeps.stepNext (.refl _ _) (noEvent_keeps _ _) rfl

end Sys2Proof.Machine
end

