-- ==== Sys2Proof/Laws/KeepJenamTenant.lean ====
section
/-! SUPPORT. What each operation of Machine/JenamTenant.lean leaves as it was. -/

namespace Sys2Proof.Machine

theorem jSame_keeps (a0 : List Byte) (s : State) :
    SndP (SndP (StateKeeps 0 s)) (jSame a0 s) := by
  unfold jSame
  refine SndP.mk ?_
  refine SndP.mk ?_
  exact (.refl _ _)

theorem State.jDo_keeps {m : Nat} {s t : State} {f : Dev → Dev} (h : StateKeeps m s t) (hd : DevKeeps m s.dev (f t.dev))
    (hm : m ||| 524288 = m) : StateKeeps m s (t.jDo f) := h.modDev (hd.step (makeDurable_keeps _) hm)

theorem getInfo_keeps (a0 : List Byte) (s : State) :
    SndP (SndP (StateKeeps 0 s)) (getInfo a0 s) := by
  unfold getInfo
  extract_lets -merge -underBinder +onlyGivenNames x0
  have h0 : DevKeeps 0 s.dev x0 := by
    subst x0
    exact (.refl _ _)
  clear_value x0
  refine iteP (P := SndP (SndP (StateKeeps 0 s))) (fun _ => ?_) (fun _ => ?_)
  · exact StateKeeps.stepSndSnd (.refl _ _) (jNo_keeps _ _) rfl
  · exact StateKeeps.stepSndSnd (.refl _ _) (jYes_keeps _ _) rfl

theorem execGetInfo_keeps (a0 : Fin 32) (s : State) :
    NextP (StateKeeps 14813184 s) (execGetInfo a0 s) := by
  unfold execGetInfo
  refine jenamRow_keeps (fun _ => ?_) rfl
  exact StateKeeps.stepSndSnd (.refl _ _) (getInfo_keeps _ _) rfl

theorem getGeometry_keeps (a0 : List Byte) (s : State) :
    SndP (SndP (StateKeeps 0 s)) (getGeometry a0 s) := by
  unfold getGeometry
  refine iteP (P := SndP (SndP (StateKeeps 0 s))) (fun _ => ?_) (fun _ => ?_)
  · exact StateKeeps.stepSndSnd (.refl _ _) (jNo_keeps _ _) rfl
  · exact StateKeeps.stepSndSnd (.refl _ _) (jYes_keeps _ _) rfl

theorem execGetGeometry_keeps (a0 : Fin 32) (s : State) :
    NextP (StateKeeps 14813184 s) (execGetGeometry a0 s) := by
  unfold execGetGeometry
  refine jenamRow_keeps (fun _ => ?_) rfl
  exact StateKeeps.stepSndSnd (.refl _ _) (getGeometry_keeps _ _) rfl

theorem setTenant_keeps (a0 : ℕ) (a1 : List Byte) (d : Dev) :
    DevKeeps 0xDC00000000000000000000000002 d (setTenant a0 a1 d) := by
  unfold setTenant
  extract_lets -merge -underBinder +onlyGivenNames x0
  have h0 : DevKeeps 0xDC00000000000000000000000002 d x0 := by
    subst x0
    exact (DevKeeps.step (DevKeeps.step (.refl _ _) (Dev.wrb_keeps _ _ _ _) (by rfl)) (Dev.wrb_keeps _ _ _ _) (by rfl))
  clear_value x0
  extract_lets -merge -underBinder +onlyGivenNames x1
  have h1 : DevKeeps 0xDC00000000000000000000000002 d x1 := by
    subst x1
    exact (DevKeeps.step (DevKeeps.step h0 (Dev.wrb_keeps _ _ _ _) (by rfl)) (Dev.wrb_keeps _ _ _ _) (by rfl))
  clear_value x1
  extract_lets -merge -underBinder +onlyGivenNames x2
  have h2 : DevKeeps 0xDC00000000000000000000000002 d x2 := by
    subst x2
    exact (DevKeeps.step h1 (Dev.wrb_keeps _ _ _ _) (by rfl))
  clear_value x2
  exact (DevKeeps.step (DevKeeps.step h2 (Dev.wrb_keeps _ _ _ _) (by rfl)) (Dev.wrb_keeps _ _ _ _) (by rfl))

theorem provisionTenant_keeps (a0 : List Byte) (s : State) :
    SndP (SndP (StateKeeps 0xDC00000000000000000000080002 s)) (provisionTenant a0 s) := by
  unfold provisionTenant
  extract_lets -merge -underBinder +onlyGivenNames x0
  clear_value x0
  refine iteP (P := SndP (SndP (StateKeeps 0xDC00000000000000000000080002 s))) (fun _ => ?_) (fun _ => ?_)
  · exact StateKeeps.stepSndSnd (.refl _ _) (jNo_keeps _ _) rfl
  · refine iteP (P := SndP (SndP (StateKeeps 0xDC00000000000000000000080002 s))) (fun _ => ?_) (fun _ => ?_)
    · exact StateKeeps.stepSndSnd (.refl _ _) (jNo_keeps _ _) rfl
    · refine StateKeeps.stepSndSnd ?_ (jYes_keeps _ _) rfl
      refine State.jDo_keeps ?_ ?_ rfl
      · exact (.refl _ _)
      · exact (DevKeeps.step (.refl _ _) (setTenant_keeps _ _ _) rfl)

theorem tenCreate_keeps (a0 : List Byte) (s : State) :
    SndP (SndP (StateKeeps 0xDC00000000000000000000080002 s)) (tenCreate a0 s) := by
  unfold tenCreate
  extract_lets -merge -underBinder +onlyGivenNames x0
  clear_value x0
  refine iteP (P := SndP (SndP (StateKeeps 0xDC00000000000000000000080002 s))) (fun _ => ?_) (fun _ => ?_)
  · exact StateKeeps.stepSndSnd (.refl _ _) (jNo_keeps _ _) rfl
  · refine iteP (P := SndP (SndP (StateKeeps 0xDC00000000000000000000080002 s))) (fun _ => ?_) (fun _ => ?_)
    · refine iteP (P := SndP (SndP (StateKeeps 0xDC00000000000000000000080002 s))) (fun _ => ?_) (fun _ => ?_)
      · exact StateKeeps.stepSndSnd (.refl _ _) (jSame_keeps _ _) rfl
      · exact StateKeeps.stepSndSnd (.refl _ _) (jNo_keeps _ _) rfl
    · exact StateKeeps.stepSndSnd (.refl _ _) (provisionTenant_keeps _ _) rfl

theorem execTenCreate_keeps (a0 : Fin 32) (s : State) :
    NextP (StateKeeps 0xDC00000000000000000000EA0802 s) (execTenCreate a0 s) := by
  unfold execTenCreate
  refine jenamRow_keeps (fun _ => ?_) rfl
  exact StateKeeps.stepSndSnd (.refl _ _) (tenCreate_keeps _ _) rfl

theorem tenSet_keeps (a0 : List Byte) (s : State) :
    SndP (SndP (StateKeeps 0xDC00000000000000000000080002 s)) (tenSet a0 s) := by
  unfold tenSet
  refine iteP (P := SndP (SndP (StateKeeps 0xDC00000000000000000000080002 s))) (fun _ => ?_) (fun _ => ?_)
  · exact StateKeeps.stepSndSnd (.refl _ _) (jNo_keeps _ _) rfl
  · refine iteP (P := SndP (SndP (StateKeeps 0xDC00000000000000000000080002 s))) (fun _ => ?_) (fun _ => ?_)
    · exact StateKeeps.stepSndSnd (.refl _ _) (jNo_keeps _ _) rfl
    · exact StateKeeps.stepSndSnd (.refl _ _) (provisionTenant_keeps _ _) rfl

theorem execTenSet_keeps (a0 : Fin 32) (s : State) :
    NextP (StateKeeps 0xDC00000000000000000000EA0802 s) (execTenSet a0 s) := by
  unfold execTenSet
  refine jenamRow_keeps (fun _ => ?_) rfl
  exact StateKeeps.stepSndSnd (.refl _ _) (tenSet_keeps _ _) rfl

theorem clearTenant_keeps (a0 : ℕ) (d : Dev) :
    DevKeeps 0xDC00000000000000000000000002 d (clearTenant a0 d) := by
  unfold clearTenant
  extract_lets -merge -underBinder +onlyGivenNames x0
  have h0 : DevKeeps 0xDC00000000000000000000000002 d x0 := by
    subst x0
    exact (DevKeeps.step (.refl _ _) (Dev.regSet_keeps _ _ _ _ _) (by rfl))
  clear_value x0
  extract_lets -merge -underBinder +onlyGivenNames x1
  have h1 : DevKeeps 0xDC00000000000000000000000002 d x1 := by
    subst x1
    exact (DevKeeps.step h0 (Dev.regSet_keeps _ _ _ _ _) (by rfl))
  clear_value x1
  extract_lets -merge -underBinder +onlyGivenNames x2
  have h2 : DevKeeps 0xDC00000000000000000000000002 d x2 := by
    subst x2
    exact (DevKeeps.step h1 (Dev.regSet_keeps _ _ _ _ _) (by rfl))
  clear_value x2
  extract_lets -merge -underBinder +onlyGivenNames x3
  have h3 : DevKeeps 0xDC00000000000000000000000002 d x3 := by
    subst x3
    exact (DevKeeps.step h2 (Dev.regSet_keeps _ _ _ _ _) (by rfl))
  clear_value x3
  exact (DevKeeps.step h3 (Dev.regSet_keeps _ _ _ _ _) (by rfl))

theorem tenDelete_keeps (a0 : List Byte) (s : State) :
    SndP (SndP (StateKeeps 0xDC00000000000000000000080002 s)) (tenDelete a0 s) := by
  unfold tenDelete
  extract_lets -merge -underBinder +onlyGivenNames x0
  clear_value x0
  refine iteP (P := SndP (SndP (StateKeeps 0xDC00000000000000000000080002 s))) (fun _ => ?_) (fun _ => ?_)
  · exact StateKeeps.stepSndSnd (.refl _ _) (jNo_keeps _ _) rfl
  · refine iteP (P := SndP (SndP (StateKeeps 0xDC00000000000000000000080002 s))) (fun _ => ?_) (fun _ => ?_)
    · exact StateKeeps.stepSndSnd (.refl _ _) (jNo_keeps _ _) rfl
    · refine iteP (P := SndP (SndP (StateKeeps 0xDC00000000000000000000080002 s))) (fun _ => ?_) (fun _ => ?_)
      · exact StateKeeps.stepSndSnd (.refl _ _) (jNo_keeps _ _) rfl
      · refine StateKeeps.stepSndSnd ?_ (jYes_keeps _ _) rfl
        refine State.jDo_keeps ?_ ?_ rfl
        · exact (.refl _ _)
        · exact (DevKeeps.step (.refl _ _) (clearTenant_keeps _ _) rfl)

theorem execTenDelete_keeps (a0 : Fin 32) (s : State) :
    NextP (StateKeeps 0xDC00000000000000000000EA0802 s) (execTenDelete a0 s) := by
  unfold execTenDelete
  refine jenamRow_keeps (fun _ => ?_) rfl
  exact StateKeeps.stepSndSnd (.refl _ _) (tenDelete_keeps _ _) rfl

theorem assignFunc_keeps (a0 : ℕ) (a1 : List Byte) (d : Dev) :
    DevKeeps 0xE0000000000000000000000001002 d (assignFunc a0 a1 d) := by
  unfold assignFunc
  extract_lets -merge -underBinder +onlyGivenNames x0
  have h0 : DevKeeps 0xE0000000000000000000000001002 d x0 := by
    subst x0
    exact (DevKeeps.step (.refl _ _) (Dev.modFunc_keeps _ _ _) rfl)
  clear_value x0
  exact (DevKeeps.step (DevKeeps.step (DevKeeps.step h0 (Dev.wrb_keeps _ _ _ _) (by rfl)) (Dev.wrb_keeps _ _ _ _) (by rfl)) (Dev.wrb_keeps _ _ _ _) (by rfl))

theorem funcAssign_keeps (a0 : List Byte) (s : State) :
    SndP (SndP (StateKeeps 0xE0000000000000000000000081002 s)) (funcAssign a0 s) := by
  unfold funcAssign
  extract_lets -merge -underBinder +onlyGivenNames x0
  clear_value x0
  extract_lets -merge -underBinder +onlyGivenNames x1
  clear_value x1
  extract_lets -merge -underBinder +onlyGivenNames x2
  clear_value x2
  refine iteP (P := SndP (SndP (StateKeeps 0xE0000000000000000000000081002 s))) (fun _ => ?_) (fun _ => ?_)
  · exact StateKeeps.stepSndSnd (.refl _ _) (jNo_keeps _ _) rfl
  · refine iteP (P := SndP (SndP (StateKeeps 0xE0000000000000000000000081002 s))) (fun _ => ?_) (fun _ => ?_)
    · exact StateKeeps.stepSndSnd (.refl _ _) (jNo_keeps _ _) rfl
    · refine iteP (P := SndP (SndP (StateKeeps 0xE0000000000000000000000081002 s))) (fun _ => ?_) (fun _ => ?_)
      · exact StateKeeps.stepSndSnd (.refl _ _) (jNo_keeps _ _) rfl
      · refine iteP (P := SndP (SndP (StateKeeps 0xE0000000000000000000000081002 s))) (fun _ => ?_) (fun _ => ?_)
        · exact StateKeeps.stepSndSnd (.refl _ _) (jNo_keeps _ _) rfl
        · refine iteP (P := SndP (SndP (StateKeeps 0xE0000000000000000000000081002 s))) (fun _ => ?_) (fun _ => ?_)
          · exact StateKeeps.stepSndSnd (.refl _ _) (jNo_keeps _ _) rfl
          · refine StateKeeps.stepSndSnd ?_ (jYes_keeps _ _) rfl
            refine State.jDo_keeps ?_ ?_ rfl
            · exact (.refl _ _)
            · exact (DevKeeps.step (.refl _ _) (assignFunc_keeps _ _ _) rfl)

theorem execFuncAssign_keeps (a0 : Fin 32) (s : State) :
    NextP (StateKeeps 0xE0000000000000000000000EA1802 s) (execFuncAssign a0 s) := by
  unfold execFuncAssign
  refine jenamRow_keeps (fun _ => ?_) rfl
  exact StateKeeps.stepSndSnd (.refl _ _) (funcAssign_keeps _ _) rfl

theorem classSet_keeps (a0 : List Byte) (s : State) :
    SndP (SndP (StateKeeps 0x600000000000000000000000080002 s)) (classSet a0 s) := by
  unfold classSet
  extract_lets -merge -underBinder +onlyGivenNames x0
  clear_value x0
  extract_lets -merge -underBinder +onlyGivenNames x1
  clear_value x1
  extract_lets -merge -underBinder +onlyGivenNames x2
  clear_value x2
  extract_lets -merge -underBinder +onlyGivenNames x3
  clear_value x3
  refine iteP (P := SndP (SndP (StateKeeps 0x600000000000000000000000080002 s))) (fun _ => ?_) (fun _ => ?_)
  · exact StateKeeps.stepSndSnd (.refl _ _) (jNo_keeps _ _) rfl
  · refine iteP (P := SndP (SndP (StateKeeps 0x600000000000000000000000080002 s))) (fun _ => ?_) (fun _ => ?_)
    · exact StateKeeps.stepSndSnd (.refl _ _) (jNo_keeps _ _) rfl
    · refine iteP (P := SndP (SndP (StateKeeps 0x600000000000000000000000080002 s))) (fun _ => ?_) (fun _ => ?_)
      · exact StateKeeps.stepSndSnd (.refl _ _) (jNo_keeps _ _) rfl
      · refine iteP (P := SndP (SndP (StateKeeps 0x600000000000000000000000080002 s))) (fun _ => ?_) (fun _ => ?_)
        · exact StateKeeps.stepSndSnd (.refl _ _) (jNo_keeps _ _) rfl
        · refine StateKeeps.stepSndSnd ?_ (jYes_keeps _ _) rfl
          refine State.jDo_keeps ?_ ?_ rfl
          · exact (.refl _ _)
          · beta_reduce
            exact (DevKeeps.step (DevKeeps.step (.refl _ _) (classWrite_keeps _ _ _) rfl) (Dev.wrb_keeps _ _ _ _) (by rfl))

theorem execClassSet_keeps (a0 : Fin 32) (s : State) :
    NextP (StateKeeps 0x600000000000000000000000EA0802 s) (execClassSet a0 s) := by
  unfold execClassSet
  refine jenamRow_keeps (fun _ => ?_) rfl
  exact StateKeeps.stepSndSnd (.refl _ _) (classSet_keeps _ _) rfl

theorem tenUsage_keeps (a0 : List Byte) (s : State) :
    SndP (SndP (StateKeeps 0 s)) (tenUsage a0 s) := by
  unfold tenUsage
  extract_lets -merge -underBinder +onlyGivenNames x0
  have h0 : DevKeeps 0 s.dev x0 := by
    subst x0
    exact (.refl _ _)
  clear_value x0
  extract_lets -merge -underBinder +onlyGivenNames x1
  clear_value x1
  refine iteP (P := SndP (SndP (StateKeeps 0 s))) (fun _ => ?_) (fun _ => ?_)
  · exact StateKeeps.stepSndSnd (.refl _ _) (jNo_keeps _ _) rfl
  · refine iteP (P := SndP (SndP (StateKeeps 0 s))) (fun _ => ?_) (fun _ => ?_)
    · exact StateKeeps.stepSndSnd (.refl _ _) (jNo_keeps _ _) rfl
    · exact StateKeeps.stepSndSnd (.refl _ _) (jYes_keeps _ _) rfl

theorem execTenUsage_keeps (a0 : Fin 32) (s : State) :
    NextP (StateKeeps 14813184 s) (execTenUsage a0 s) := by
  unfold execTenUsage
  refine jenamRow_keeps (fun _ => ?_) rfl
  exact StateKeeps.stepSndSnd (.refl _ _) (tenUsage_keeps _ _) rfl

theorem jKeyNo_keeps (a0 : ℕ) (s : State) :
    SndP (SndP (StateKeeps 0 s)) (jKeyNo a0 s) := by
  unfold jKeyNo
  refine SndP.mk ?_
  refine SndP.mk ?_
  exact (.refl _ _)

theorem importKey_keeps (a0 : ℕ) (a1 : List Byte) (d : Dev) :
    OkP (DevKeeps 512 d) (importKey a0 a1 d) := by
  unfold importKey
  refine iteP (P := OkP (DevKeeps 512 d)) (fun _ => ?_) (fun _ => ?_)
  · exact trivial
  · refine iteP (P := OkP (DevKeeps 512 d)) (fun _ => ?_) (fun _ => ?_)
    · exact trivial
    · split
      · refine OkP.ok ?_
        refine SndP.snd (P := DevKeeps 512 d) ?_
        exact DevKeeps.stepSnd (DevKeeps.step (.refl _ _) (Dev.setKey_keeps _ _ _) rfl) (Dev.takeNonce_keeps _) rfl
      · exact trivial

theorem nsKey_keeps (a0 : ℕ) (a1 : List Byte) (d : Dev) :
    OkP (DevKeeps 513 d) (nsKey a0 a1 d) := by
  unfold nsKey
  extract_lets -merge -underBinder +onlyGivenNames x0
  clear_value x0
  refine iteP (P := OkP (DevKeeps 513 d)) (fun _ => ?_) (fun _ => ?_)
  · exact DevKeeps.stepOk (.refl _ _) (importKey_keeps _ _ _) rfl
  · refine iteP (P := OkP (DevKeeps 513 d)) (fun _ => ?_) (fun _ => ?_)
    · exact trivial
    · refine OkP.ok ?_
      exact (DevKeeps.step (.refl _ _) (generateKey_keeps _ _ _) rfl)

theorem nsCreate_keeps (a0 : List Byte) (s : State) :
    SndP (SndP (StateKeeps 0x40000000000000000000000040000000000000000000082203 s)) (nsCreate a0 s) := by
  unfold nsCreate
  extract_lets -merge -underBinder +onlyGivenNames x0
  clear_value x0
  extract_lets -merge -underBinder +onlyGivenNames x1
  have h1 : DevKeeps 0x40000000000000000000000040000000000000000000082203 s.dev x1 := by
    subst x1
    exact (.refl _ _)
  clear_value x1
  refine iteP (P := SndP (SndP (StateKeeps 0x40000000000000000000000040000000000000000000082203 s))) (fun _ => ?_) (fun _ => ?_)
  · exact StateKeeps.stepSndSnd (.refl _ _) (jNo_keeps _ _) rfl
  · split
    · refine iteP (P := SndP (SndP (StateKeeps 0x40000000000000000000000040000000000000000000082203 s))) (fun _ => ?_) (fun _ => ?_)
      · exact StateKeeps.stepSndSnd (.refl _ _) (jSame_keeps _ _) rfl
      · exact StateKeeps.stepSndSnd (.refl _ _) (jNo_keeps _ _) rfl
    · split
      · exact StateKeeps.stepSndSnd (.refl _ _) (jNo_keeps _ _) rfl
      · split
        · exact StateKeeps.stepSndSnd (.refl _ _) (jKeyNo_keeps _ _) rfl
        · rename_i v2_0 q2
          have h3 : DevKeeps 0x40000000000000000000000040000000000000000000082203 s.dev v2_0 := by
            refine OkP.get (P := (DevKeeps 0x40000000000000000000000040000000000000000000082203 s.dev)) ?_ q2
            exact DevKeeps.stepOk h1 (nsKey_keeps _ _ _) rfl
          extract_lets -merge -underBinder +onlyGivenNames x4
          have h4 : DevKeeps 0x40000000000000000000000040000000000000000000082203 s.dev x4 := by
            subst x4
            exact (DevKeeps.step (DevKeeps.step h3 (Dev.wrb_keeps _ _ _ _) (by rfl)) (Dev.modZm_keeps _ _) rfl)
          clear_value x4
          extract_lets -merge -underBinder +onlyGivenNames x5
          have h5 : StateKeeps 0x40000000000000000000000040000000000000000000082203 s x5 := by
            subst x5
            refine State.jDo_keeps ?_ ?_ rfl
            · exact (.refl _ _)
            · beta_reduce
              exact (DevKeeps.step (DevKeeps.step h4 (Dev.tick_keeps _ _) rfl) (rowsLow_keeps _ _) rfl)
          clear_value x5
          exact StateKeeps.stepSndSnd h5 (jYes_keeps _ _) rfl

theorem execNsCreate_keeps (a0 : Fin 32) (s : State) :
    NextP (StateKeeps 0x40000000000000000000000040000000000000000000EA2A03 s) (execNsCreate a0 s) := by
  unfold execNsCreate
  refine jenamRow_keeps (fun _ => ?_) rfl
  exact StateKeeps.stepSndSnd (.refl _ _) (nsCreate_keeps _ _) rfl

theorem noteNs_keeps (a0 : ℕ) (a1 : ℕ) (d : Dev) :
    DevKeeps 4096 d (noteNs a0 a1 d) := by
  unfold noteNs
  extract_lets -merge -underBinder +onlyGivenNames x0
  have h0 : DevKeeps 4096 d x0 := by
    subst x0
    exact (DevKeeps.step (.refl _ _) (Dev.modFunc_keeps _ _ _) rfl)
  clear_value x0
  refine iteP (P := DevKeeps 4096 d) (fun _ => ?_) (fun _ => ?_)
  · exact (DevKeeps.step h0 (raiseEvent_keeps _ _ _) rfl)
  · exact h0

theorem noteNsAll_keeps (a0 : ℕ) (a1 : List ℕ) (d : Dev) :
    DevKeeps 4096 d (noteNsAll a0 a1 d) := by
  unfold noteNsAll
  refine DevKeeps.foldl ?_ (fun y0 a0 h0 => ?_)
  · exact (.refl _ _)
  · beta_reduce
    exact (DevKeeps.step h0 (noteNs_keeps _ _ _) rfl)

theorem deleteNs_keeps (a0 : ℕ) (a1 : Ns) (d : Dev) :
    DevKeeps 0x800000000000000000000000000004000000000000000000069FA12 d (deleteNs a0 a1 d) := by
  unfold deleteNs
  extract_lets -merge -underBinder +onlyGivenNames x0
  have h0 : DevKeeps 0x800000000000000000000000000004000000000000000000069FA12 d x0 := by
    subst x0
    exact (DevKeeps.step (DevKeeps.step (.refl _ _) (purgeSlot_keeps _ _) rfl) (resetNs_keeps _ _ _) rfl)
  clear_value x0
  extract_lets -merge -underBinder +onlyGivenNames x1
  have h1 : DevKeeps 0x800000000000000000000000000004000000000000000000069FA12 d x1 := by
    subst x1
    exact (DevKeeps.step h0 (Dev.modZm_keeps _ _) rfl)
  clear_value x1
  exact (DevKeeps.step h1 (noteNsAll_keeps _ _ _) rfl)

theorem jenamOrdered_keeps {m op buf : Nat} {f : List Byte → State → Nat × List Byte × State} {s : State}
    (h : ∀ p, SndP (SndP (StateKeeps m s)) (f p s)) (hm : m ||| 14813184 = m) : NextP (StateKeeps m s) (jenamOrdered op buf f s) := by
  unfold jenamOrdered
  refine iteP (P := NextP (StateKeeps m s)) (fun _ => StateKeeps.refl _ _) (fun _ => jenamRow_keeps h hm)

theorem nsDelete_keeps (a0 : List Byte) (s : State) :
    SndP (SndP (StateKeeps 0x800000000000000000000000000004000000000000000000069FA12 s)) (nsDelete a0 s) := by
  unfold nsDelete
  refine iteP (P := SndP (SndP (StateKeeps 0x800000000000000000000000000004000000000000000000069FA12 s))) (fun _ => ?_) (fun _ => ?_)
  · exact StateKeeps.stepSndSnd (.refl _ _) (jNo_keeps _ _) rfl
  · split
    · refine StateKeeps.stepSndSnd ?_ (jYes_keeps _ _) rfl
      refine State.jDo_keeps ?_ ?_ rfl
      · exact (.refl _ _)
      · exact (DevKeeps.step (.refl _ _) (deleteNs_keeps _ _ _) rfl)
    · exact StateKeeps.stepSndSnd (.refl _ _) (jNo_keeps _ _) rfl

theorem execNsDelete_keeps (a0 : Fin 32) (s : State) :
    NextP (StateKeeps 0x8000000000000000000000000000040000000000000000000EBFA12 s) (execNsDelete a0 s) := by
  unfold execNsDelete
  refine jenamOrdered_keeps (fun _ => ?_) rfl
  exact StateKeeps.stepSndSnd (.refl _ _) (nsDelete_keeps _ _) rfl

theorem nsAttach_keeps (a0 : List Byte) (s : State) :
    SndP (SndP (StateKeeps 532480 s)) (nsAttach a0 s) := by
  unfold nsAttach
  extract_lets -merge -underBinder +onlyGivenNames x0
  clear_value x0
  extract_lets -merge -underBinder +onlyGivenNames x1
  clear_value x1
  refine iteP (P := SndP (SndP (StateKeeps 532480 s))) (fun _ => ?_) (fun _ => ?_)
  · exact StateKeeps.stepSndSnd (.refl _ _) (jNo_keeps _ _) rfl
  · split
    · exact StateKeeps.stepSndSnd (.refl _ _) (jNo_keeps _ _) rfl
    · refine iteP (P := SndP (SndP (StateKeeps 532480 s))) (fun _ => ?_) (fun _ => ?_)
      · exact StateKeeps.stepSndSnd (.refl _ _) (jNo_keeps _ _) rfl
      · refine iteP (P := SndP (SndP (StateKeeps 532480 s))) (fun _ => ?_) (fun _ => ?_)
        · exact StateKeeps.stepSndSnd (.refl _ _) (jSame_keeps _ _) rfl
        · refine iteP (P := SndP (SndP (StateKeeps 532480 s))) (fun _ => ?_) (fun _ => ?_)
          · exact StateKeeps.stepSndSnd (.refl _ _) (jNo_keeps _ _) rfl
          · refine StateKeeps.stepSndSnd ?_ (jYes_keeps _ _) rfl
            refine State.jDo_keeps ?_ ?_ rfl
            · exact (.refl _ _)
            · beta_reduce
              exact (DevKeeps.step (.refl _ _) (Dev.modNs_keeps _ _ _) rfl)

theorem execNsAttach_keeps (a0 : Fin 32) (s : State) :
    NextP (StateKeeps 15345664 s) (execNsAttach a0 s) := by
  unfold execNsAttach
  refine jenamRow_keeps (fun _ => ?_) rfl
  exact StateKeeps.stepSndSnd (.refl _ _) (nsAttach_keeps _ _) rfl

theorem nsDetach_keeps (a0 : List Byte) (s : State) :
    SndP (SndP (StateKeeps 536576 s)) (nsDetach a0 s) := by
  unfold nsDetach
  extract_lets -merge -underBinder +onlyGivenNames x0
  clear_value x0
  extract_lets -merge -underBinder +onlyGivenNames x1
  clear_value x1
  refine iteP (P := SndP (SndP (StateKeeps 536576 s))) (fun _ => ?_) (fun _ => ?_)
  · exact StateKeeps.stepSndSnd (.refl _ _) (jNo_keeps _ _) rfl
  · split
    · exact StateKeeps.stepSndSnd (.refl _ _) (jNo_keeps _ _) rfl
    · refine iteP (P := SndP (SndP (StateKeeps 536576 s))) (fun _ => ?_) (fun _ => ?_)
      · exact StateKeeps.stepSndSnd (.refl _ _) (jNo_keeps _ _) rfl
      · refine iteP (P := SndP (SndP (StateKeeps 536576 s))) (fun _ => ?_) (fun _ => ?_)
        · exact StateKeeps.stepSndSnd (.refl _ _) (jSame_keeps _ _) rfl
        · refine StateKeeps.stepSndSnd ?_ (jYes_keeps _ _) rfl
          refine State.jDo_keeps ?_ ?_ rfl
          · exact (.refl _ _)
          · beta_reduce
            exact (DevKeeps.step (DevKeeps.step (.refl _ _) (Dev.modNs_keeps _ _ _) rfl) (noteNs_keeps _ _ _) rfl)

theorem execNsDetach_keeps (a0 : Fin 32) (s : State) :
    NextP (StateKeeps 15349760 s) (execNsDetach a0 s) := by
  unfold execNsDetach
  refine jenamOrdered_keeps (fun _ => ?_) rfl
  exact StateKeeps.stepSndSnd (.refl _ _) (nsDetach_keeps _ _) rfl

theorem nsSet_keeps (a0 : List Byte) (s : State) :
    SndP (SndP (StateKeeps 532480 s)) (nsSet a0 s) := by
  unfold nsSet
  extract_lets -merge -underBinder +onlyGivenNames x0
  clear_value x0
  extract_lets -merge -underBinder +onlyGivenNames x1
  clear_value x1
  extract_lets -merge -underBinder +onlyGivenNames x2
  clear_value x2
  extract_lets -merge -underBinder +onlyGivenNames x3
  clear_value x3
  extract_lets -merge -underBinder +onlyGivenNames x4
  have h4 : DevKeeps 532480 s.dev x4 := by
    subst x4
    exact (.refl _ _)
  clear_value x4
  refine iteP (P := SndP (SndP (StateKeeps 532480 s))) (fun _ => ?_) (fun _ => ?_)
  · exact StateKeeps.stepSndSnd (.refl _ _) (jNo_keeps _ _) rfl
  · split
    · exact StateKeeps.stepSndSnd (.refl _ _) (jNo_keeps _ _) rfl
    · refine iteP (P := SndP (SndP (StateKeeps 532480 s))) (fun _ => ?_) (fun _ => ?_)
      · exact StateKeeps.stepSndSnd (.refl _ _) (jNo_keeps _ _) rfl
      · refine iteP (P := SndP (SndP (StateKeeps 532480 s))) (fun _ => ?_) (fun _ => ?_)
        · exact StateKeeps.stepSndSnd (.refl _ _) (jNo_keeps _ _) rfl
        · refine iteP (P := SndP (SndP (StateKeeps 532480 s))) (fun _ => ?_) (fun _ => ?_)
          · exact StateKeeps.stepSndSnd (.refl _ _) (jNo_keeps _ _) rfl
          · refine iteP (P := SndP (SndP (StateKeeps 532480 s))) (fun _ => ?_) (fun _ => ?_)
            · exact StateKeeps.stepSndSnd (.refl _ _) (jNo_keeps _ _) rfl
            · refine StateKeeps.stepSndSnd ?_ (jYes_keeps _ _) rfl
              refine State.jDo_keeps ?_ ?_ rfl
              · exact (.refl _ _)
              · beta_reduce
                exact (DevKeeps.step (.refl _ _) (Dev.modNs_keeps _ _ _) rfl)

theorem execNsSet_keeps (a0 : Fin 32) (s : State) :
    NextP (StateKeeps 15345664 s) (execNsSet a0 s) := by
  unfold execNsSet
  refine jenamRow_keeps (fun _ => ?_) rfl
  exact StateKeeps.stepSndSnd (.refl _ _) (nsSet_keeps _ _) rfl

theorem setReserve_keeps (a0 : ℕ) (a1 : Ns) (a2 : SMap ℕ) (d : Dev) :
    DevKeeps 0x40000000000000000000003002 d (setReserve a0 a1 a2 d) := by
  unfold setReserve
  extract_lets -merge -underBinder +onlyGivenNames x0
  clear_value x0
  extract_lets -merge -underBinder +onlyGivenNames x1
  clear_value x1
  extract_lets -merge -underBinder +onlyGivenNames x2
  have h2 : DevKeeps 0x40000000000000000000003002 d x2 := by
    subst x2
    exact (DevKeeps.step (.refl _ _) (Dev.modNs_keeps _ _ _) rfl)
  clear_value x2
  extract_lets -merge -underBinder +onlyGivenNames x3
  have h3 : DevKeeps 0x40000000000000000000003002 d x3 := by
    subst x3
    exact (DevKeeps.step h2 (Dev.modZm_keeps _ _) rfl)
  clear_value x3
  refine DevKeeps.step ?_ (rowsLow_keeps _ _) rfl
  refine iteP (P := DevKeeps 0x40000000000000000000003002 d) (fun _ => ?_) (fun _ => ?_)
  · exact h3
  · exact (DevKeeps.step h3 (noteNsAll_keeps _ _ _) rfl)

theorem reserveSet_keeps (a0 : List Byte) (s : State) :
    SndP (SndP (StateKeeps 0x40000000000000000000083002 s)) (reserveSet a0 s) := by
  unfold reserveSet
  extract_lets -merge -underBinder +onlyGivenNames x0
  clear_value x0
  extract_lets -merge -underBinder +onlyGivenNames x1
  clear_value x1
  extract_lets -merge -underBinder +onlyGivenNames x2
  have h2 : DevKeeps 0x40000000000000000000083002 s.dev x2 := by
    subst x2
    exact (.refl _ _)
  clear_value x2
  refine iteP (P := SndP (SndP (StateKeeps 0x40000000000000000000083002 s))) (fun _ => ?_) (fun _ => ?_)
  · exact StateKeeps.stepSndSnd (.refl _ _) (jNo_keeps _ _) rfl
  · split
    · exact StateKeeps.stepSndSnd (.refl _ _) (jNo_keeps _ _) rfl
    · refine iteP (P := SndP (SndP (StateKeeps 0x40000000000000000000083002 s))) (fun _ => ?_) (fun _ => ?_)
      · exact StateKeeps.stepSndSnd (.refl _ _) (jNo_keeps _ _) rfl
      · refine iteP (P := SndP (SndP (StateKeeps 0x40000000000000000000083002 s))) (fun _ => ?_) (fun _ => ?_)
        · exact StateKeeps.stepSndSnd (.refl _ _) (jNo_keeps _ _) rfl
        · refine iteP (P := SndP (SndP (StateKeeps 0x40000000000000000000083002 s))) (fun _ => ?_) (fun _ => ?_)
          · exact StateKeeps.stepSndSnd (.refl _ _) (jNo_keeps _ _) rfl
          · refine iteP (P := SndP (SndP (StateKeeps 0x40000000000000000000083002 s))) (fun _ => ?_) (fun _ => ?_)
            · exact StateKeeps.stepSndSnd (.refl _ _) (jNo_keeps _ _) rfl
            · refine StateKeeps.stepSndSnd ?_ (jYes_keeps _ _) rfl
              refine State.jDo_keeps ?_ ?_ rfl
              · exact (.refl _ _)
              · exact (DevKeeps.step (.refl _ _) (setReserve_keeps _ _ _ _) rfl)

theorem execReserveSet_keeps (a0 : Fin 32) (s : State) :
    NextP (StateKeeps 0x40000000000000000000EA3802 s) (execReserveSet a0 s) := by
  unfold execReserveSet
  refine jenamRow_keeps (fun _ => ?_) rfl
  exact StateKeeps.stepSndSnd (.refl _ _) (reserveSet_keeps _ _) rfl

theorem handleSet_keeps (a0 : List Byte) (s : State) :
    SndP (SndP (StateKeeps 532480 s)) (handleSet a0 s) := by
  unfold handleSet
  extract_lets -merge -underBinder +onlyGivenNames x0
  clear_value x0
  extract_lets -merge -underBinder +onlyGivenNames x1
  clear_value x1
  extract_lets -merge -underBinder +onlyGivenNames x2
  clear_value x2
  extract_lets -merge -underBinder +onlyGivenNames x3
  clear_value x3
  refine iteP (P := SndP (SndP (StateKeeps 532480 s))) (fun _ => ?_) (fun _ => ?_)
  · exact StateKeeps.stepSndSnd (.refl _ _) (jNo_keeps _ _) rfl
  · split
    · exact StateKeeps.stepSndSnd (.refl _ _) (jNo_keeps _ _) rfl
    · refine iteP (P := SndP (SndP (StateKeeps 532480 s))) (fun _ => ?_) (fun _ => ?_)
      · exact StateKeeps.stepSndSnd (.refl _ _) (jNo_keeps _ _) rfl
      · refine iteP (P := SndP (SndP (StateKeeps 532480 s))) (fun _ => ?_) (fun _ => ?_)
        · refine StateKeeps.stepSndSnd ?_ (jYes_keeps _ _) rfl
          refine State.jDo_keeps ?_ ?_ rfl
          · exact (.refl _ _)
          · beta_reduce
            exact (DevKeeps.step (.refl _ _) (Dev.modNs_keeps _ _ _) rfl)
        · refine StateKeeps.stepSndSnd ?_ (jYes_keeps _ _) rfl
          refine State.jDo_keeps ?_ ?_ rfl
          · exact (.refl _ _)
          · beta_reduce
            exact (DevKeeps.step (.refl _ _) (Dev.modNs_keeps _ _ _) rfl)

theorem execHandleSet_keeps (a0 : Fin 32) (s : State) :
    NextP (StateKeeps 15345664 s) (execHandleSet a0 s) := by
  unfold execHandleSet
  refine jenamRow_keeps (fun _ => ?_) rfl
  exact StateKeeps.stepSndSnd (.refl _ _) (handleSet_keeps _ _) rfl

end Sys2Proof.Machine
end

