-- ==== Sys2Proof/Laws/KeepJenamPlan.lean ====
section
/-! SUPPORT. What each operation of Machine/JenamPlan.lean leaves as it was. -/

namespace Sys2Proof.Machine

theorem writePlan_keeps (a0 : SMap DWord) (a1 : Word) (a2 : ℕ) (d : Dev) :
    DevKeeps 131088 d (writePlan a0 a1 a2 d) := by
  unfold writePlan
  extract_lets -merge -underBinder +onlyGivenNames x0
  clear_value x0
  exact (DevKeeps.step (DevKeeps.step (.refl _ _) (Dev.modChan_keeps _ _ _) rfl) (Dev.modJnm_keeps _ _) rfl)

theorem hatchWrite_keeps (a0 : List Byte) (s : State) :
    SndP (SndP (StateKeeps 131088 s)) (hatchWrite a0 s) := by
  unfold hatchWrite
  extract_lets -merge -underBinder +onlyGivenNames x0
  clear_value x0
  refine iteP (P := SndP (SndP (StateKeeps 131088 s))) (fun _ => ?_) (fun _ => ?_)
  · exact StateKeeps.stepSndSnd (.refl _ _) (jNo_keeps _ _) rfl
  · refine iteP (P := SndP (SndP (StateKeeps 131088 s))) (fun _ => ?_) (fun _ => ?_)
    · exact StateKeeps.stepSndSnd (.refl _ _) (jNo_keeps _ _) rfl
    · refine StateKeeps.stepSndSnd ?_ (jYes_keeps _ _) rfl
      refine StateKeeps.modDev ?_ ?_
      · exact (.refl _ _)
      · beta_reduce
        refine DevKeeps.foldl ?_ (fun y1 a1 h1 => ?_)
        · exact (.refl _ _)
        · beta_reduce
          exact (DevKeeps.step h1 (writePlan_keeps _ _ _ _) rfl)

theorem execHatchWrite_keeps (a0 : Fin 32) (s : State) :
    NextP (StateKeeps 14813200 s) (execHatchWrite a0 s) := by
  unfold execHatchWrite
  refine jenamRow_keeps (fun _ => ?_) rfl
  exact StateKeeps.stepSndSnd (.refl _ _) (hatchWrite_keeps _ _) rfl

theorem armChannel_keeps (a0 : ℕ) (a1 : ℕ) (d : Dev) :
    DevKeeps 0x380000000000000000000000000000000000000000000000000000000000000000000000000000000000000000000012 d (armChannel a0 a1 d) := by
  unfold armChannel
  extract_lets -merge -underBinder +onlyGivenNames x0
  have h0 : DevKeeps 0x380000000000000000000000000000000000000000000000000000000000000000000000000000000000000000000012 d x0 := by
    subst x0
    exact (DevKeeps.step (DevKeeps.step (.refl _ _) (Dev.wrc_keeps _ _ _ _) (by rfl)) (Dev.wrc_keeps _ _ _ _) (by rfl))
  clear_value x0
  extract_lets -merge -underBinder +onlyGivenNames x1
  have h1 : DevKeeps 0x380000000000000000000000000000000000000000000000000000000000000000000000000000000000000000000012 d x1 := by
    subst x1
    exact (DevKeeps.step (DevKeeps.step h0 (Dev.wrc_keeps _ _ _ _) (by rfl)) (hatchArm_keeps _ _) rfl)
  clear_value x1
  split
  · exact (DevKeeps.step h1 (hatchCheckEnd_keeps _ _ _) rfl)
  · exact h1

theorem keepPlan_keeps (a0 : ℕ) (d : Dev) :
    DevKeeps 524288 d (keepPlan a0 d) := by
  unfold keepPlan
  extract_lets -merge -underBinder +onlyGivenNames x0
  clear_value x0
  extract_lets -merge -underBinder +onlyGivenNames x1
  clear_value x1
  exact (DevKeeps.step (.refl _ _) (Dev.modNvm_keeps _ _) rfl)

theorem withdrawPlans_keeps (a0 : ℕ) (a1 : List ℕ) (d : Dev) :
    DevKeeps 16 d (withdrawPlans a0 a1 d) := by
  unfold withdrawPlans
  refine DevKeeps.foldl ?_ (fun y0 a0 h0 => ?_)
  · exact (.refl _ _)
  · beta_reduce
    extract_lets -merge -underBinder +onlyGivenNames x1
    have h1 : DevKeeps 16 d x1 := by
      subst x1
      refine iteP (P := DevKeeps 16 d) (fun _ => ?_) (fun _ => ?_)
      · exact (DevKeeps.step h0 (hatchDisarm_keeps _ _) rfl)
      · exact h0
    clear_value x1
    refine iteP (P := DevKeeps 16 d) (fun _ => ?_) (fun _ => ?_)
    · exact (DevKeeps.step h1 (hatchStop_keeps _ _) rfl)
    · exact h1

theorem hatchArmAll_keeps (a0 : List Byte) (s : State) :
    SndP (SndP (StateKeeps 0x380000000000000000000000000000000000000000000000000000000000000000000000000000000000000000080012 s)) (hatchArmAll a0 s) := by
  unfold hatchArmAll
  extract_lets -merge -underBinder +onlyGivenNames x0
  clear_value x0
  extract_lets -merge -underBinder +onlyGivenNames x1
  clear_value x1
  extract_lets -merge -underBinder +onlyGivenNames x2
  have h2 : DevKeeps 0x380000000000000000000000000000000000000000000000000000000000000000000000000000000000000000080012 s.dev x2 := by
    subst x2
    exact (.refl _ _)
  clear_value x2
  extract_lets -merge -underBinder +onlyGivenNames x3
  clear_value x3
  extract_lets -merge -underBinder +onlyGivenNames x4
  clear_value x4
  extract_lets -merge -underBinder +onlyGivenNames x5
  clear_value x5
  extract_lets -merge -underBinder +onlyGivenNames x6
  have h6 : StateKeeps 0x380000000000000000000000000000000000000000000000000000000000000000000000000000000000000000080012 s x6 := by
    subst x6
    refine StateKeeps.modDev ?_ ?_
    · exact (.refl _ _)
    · beta_reduce
      refine DevKeeps.foldl ?_ (fun y7 a7 h7 => ?_)
      · exact (.refl _ _)
      · beta_reduce
        exact (DevKeeps.step h7 (armChannel_keeps _ _ _) rfl)
  clear_value x6
  refine iteP (P := SndP (SndP (StateKeeps 0x380000000000000000000000000000000000000000000000000000000000000000000000000000000000000000080012 s))) (fun _ => ?_) (fun _ => ?_)
  · exact StateKeeps.stepSndSnd (.refl _ _) (jNo_keeps _ _) rfl
  · refine iteP (P := SndP (SndP (StateKeeps 0x380000000000000000000000000000000000000000000000000000000000000000000000000000000000000000080012 s))) (fun _ => ?_) (fun _ => ?_)
    · refine StateKeeps.stepSndSnd ?_ (jYes_keeps _ _) rfl
      refine StateKeeps.modDev ?_ ?_
      · exact (.refl _ _)
      · exact (DevKeeps.step (.refl _ _) (withdrawPlans_keeps _ _ _) rfl)
    · refine iteP (P := SndP (SndP (StateKeeps 0x380000000000000000000000000000000000000000000000000000000000000000000000000000000000000000080012 s))) (fun _ => ?_) (fun _ => ?_)
      · refine SndP.mk ?_
        refine SndP.mk ?_
        exact (.refl _ _)
      · refine iteP (P := SndP (SndP (StateKeeps 0x380000000000000000000000000000000000000000000000000000000000000000000000000000000000000000080012 s))) (fun _ => ?_) (fun _ => ?_)
        · exact StateKeeps.stepSndSnd (.refl _ _) (jNo_keeps _ _) rfl
        · refine iteP (P := SndP (SndP (StateKeeps 0x380000000000000000000000000000000000000000000000000000000000000000000000000000000000000000080012 s))) (fun _ => ?_) (fun _ => ?_)
          · refine StateKeeps.stepSndSnd ?_ (jYes_keeps _ _) rfl
            refine State.jDo_keeps ?_ ?_ rfl
            · exact h6
            · beta_reduce
              refine DevKeeps.foldl ?_ (fun y8 a8 h8 => ?_)
              · exact (StateKeeps.dev h6)
              · beta_reduce
                exact (DevKeeps.step h8 (keepPlan_keeps _ _) rfl)
          · refine SndP.mk ?_
            refine SndP.mk ?_
            refine StateKeeps.modDev ?_ ?_
            · exact h6
            · beta_reduce
              refine DevKeeps.foldl ?_ (fun y9 a9 h9 => ?_)
              · exact (StateKeeps.dev h6)
              · beta_reduce
                exact (DevKeeps.step h9 (hatchDisarm_keeps _ _) rfl)

theorem execHatchArm_keeps (a0 : Fin 32) (s : State) :
    NextP (StateKeeps 0x380000000000000000000000000000000000000000000000000000000000000000000000000000000000000000EA0812 s) (execHatchArm a0 s) := by
  unfold execHatchArm
  refine jenamRow_keeps (fun _ => ?_) rfl
  exact StateKeeps.stepSndSnd (.refl _ _) (hatchArmAll_keeps _ _) rfl

theorem hatchRead_keeps (a0 : List Byte) (s : State) :
    SndP (SndP (StateKeeps 0 s)) (hatchRead a0 s) := by
  unfold hatchRead
  extract_lets -merge -underBinder +onlyGivenNames x0
  clear_value x0
  extract_lets -merge -underBinder +onlyGivenNames x1
  clear_value x1
  extract_lets -merge -underBinder +onlyGivenNames x2
  clear_value x2
  refine iteP (P := SndP (SndP (StateKeeps 0 s))) (fun _ => ?_) (fun _ => ?_)
  · exact StateKeeps.stepSndSnd (.refl _ _) (jNo_keeps _ _) rfl
  · refine iteP (P := SndP (SndP (StateKeeps 0 s))) (fun _ => ?_) (fun _ => ?_)
    · exact StateKeeps.stepSndSnd (.refl _ _) (jNo_keeps _ _) rfl
    · exact StateKeeps.stepSndSnd (.refl _ _) (jYes_keeps _ _) rfl

theorem execHatchRead_keeps (a0 : Fin 32) (s : State) :
    NextP (StateKeeps 14813184 s) (execHatchRead a0 s) := by
  unfold execHatchRead
  refine jenamRow_keeps (fun _ => ?_) rfl
  exact StateKeeps.stepSndSnd (.refl _ _) (hatchRead_keeps _ _) rfl

theorem arbSet_keeps (a0 : List Byte) (s : State) :
    SndP (SndP (StateKeeps 0xC00000000000000000000000000000000000000000000000000000000000000000000000000000000000000000002 s)) (arbSet a0 s) := by
  unfold arbSet
  refine iteP (P := SndP (SndP (StateKeeps 0xC00000000000000000000000000000000000000000000000000000000000000000000000000000000000000000002 s))) (fun _ => ?_) (fun _ => ?_)
  · exact StateKeeps.stepSndSnd (.refl _ _) (jNo_keeps _ _) rfl
  · refine StateKeeps.stepSndSnd ?_ (jYes_keeps _ _) rfl
    refine StateKeeps.modDev ?_ ?_
    · exact (.refl _ _)
    · beta_reduce
      refine DevKeeps.foldl ?_ (fun y0 a0 h0 => ?_)
      · exact (.refl _ _)
      · beta_reduce
        extract_lets -merge -underBinder +onlyGivenNames x1
        have h1 : DevKeeps 0xC00000000000000000000000000000000000000000000000000000000000000000000000000000000000000000002 s.dev x1 := by
          subst x1
          exact (DevKeeps.step h0 (Dev.regSet_keeps _ _ _ _ _) (by rfl))
        clear_value x1
        refine iteP (P := DevKeeps 0xC00000000000000000000000000000000000000000000000000000000000000000000000000000000000000000002 s.dev) (fun _ => ?_) (fun _ => ?_)
        · exact h1
        · exact (DevKeeps.step h1 (Dev.wrc_keeps _ _ _ _) (by rfl))

theorem execArbSet_keeps (a0 : Fin 32) (s : State) :
    NextP (StateKeeps 0xC00000000000000000000000000000000000000000000000000000000000000000000000000000000000000E20802 s) (execArbSet a0 s) := by
  unfold execArbSet
  refine jenamRow_keeps (fun _ => ?_) rfl
  exact StateKeeps.stepSndSnd (.refl _ _) (arbSet_keeps _ _) rfl

theorem keyExchange_keeps (a0 : List Byte) (s : State) :
    SndP (SndP (StateKeeps 513 s)) (keyExchange a0 s) := by
  unfold keyExchange
  extract_lets -merge -underBinder +onlyGivenNames x0
  have h0 : DevKeeps 513 s.dev x0 := by
    subst x0
    exact (.refl _ _)
  clear_value x0
  extract_lets -merge -underBinder +onlyGivenNames x1
  clear_value x1
  extract_lets -merge -underBinder +onlyGivenNames x2
  clear_value x2
  extract_lets -merge -underBinder +onlyGivenNames x3
  clear_value x3
  extract_lets -merge -underBinder +onlyGivenNames x4
  clear_value x4
  refine iteP (P := SndP (SndP (StateKeeps 513 s))) (fun _ => ?_) (fun _ => ?_)
  · exact StateKeeps.stepSndSnd (.refl _ _) (jNo_keeps _ _) rfl
  · refine StateKeeps.stepSndSnd ?_ (jYes_keeps _ _) rfl
    refine StateKeeps.modDev ?_ ?_
    · exact (.refl _ _)
    · beta_reduce
      exact (DevKeeps.step (DevKeeps.step (.refl _ _) (Dev.setKey_keeps _ _ _) rfl) (Dev.tick_keeps _ _) rfl)

theorem execKeyExchange_keeps (a0 : Fin 32) (s : State) :
    NextP (StateKeeps 14813697 s) (execKeyExchange a0 s) := by
  unfold execKeyExchange
  refine jenamRow_keeps (fun _ => ?_) rfl
  exact StateKeeps.stepSndSnd (.refl _ _) (keyExchange_keeps _ _) rfl

theorem keyImport_keeps (a0 : List Byte) (s : State) :
    SndP (SndP (StateKeeps 524800 s)) (keyImport a0 s) := by
  unfold keyImport
  extract_lets -merge -underBinder +onlyGivenNames x0
  clear_value x0
  refine iteP (P := SndP (SndP (StateKeeps 524800 s))) (fun _ => ?_) (fun _ => ?_)
  · exact StateKeeps.stepSndSnd (.refl _ _) (jNo_keeps _ _) rfl
  · refine iteP (P := SndP (SndP (StateKeeps 524800 s))) (fun _ => ?_) (fun _ => ?_)
    · exact StateKeeps.stepSndSnd (.refl _ _) (jNo_keeps _ _) rfl
    · refine iteP (P := SndP (SndP (StateKeeps 524800 s))) (fun _ => ?_) (fun _ => ?_)
      · exact StateKeeps.stepSndSnd (.refl _ _) (jNo_keeps _ _) rfl
      · split
        · rename_i v1_0 q1
          have h2 : DevKeeps 524800 s.dev v1_0 := by
            refine OkP.get (P := (DevKeeps 524800 s.dev)) ?_ q1
            exact DevKeeps.stepOk (.refl _ _) (importKey_keeps _ _ _) rfl
          refine StateKeeps.stepSndSnd ?_ (jYes_keeps _ _) rfl
          refine State.jDo_keeps ?_ ?_ rfl
          · exact (.refl _ _)
          · beta_reduce
            exact h2
        · exact StateKeeps.stepSndSnd (.refl _ _) (jKeyNo_keeps _ _) rfl

theorem execKeyImport_keeps (a0 : Fin 32) (s : State) :
    NextP (StateKeeps 15337984 s) (execKeyImport a0 s) := by
  unfold execKeyImport
  refine jenamRow_keeps (fun _ => ?_) rfl
  exact StateKeeps.stepSndSnd (.refl _ _) (keyImport_keeps _ _) rfl

theorem keyPurgeNs_keeps (a0 : List Byte) (s : State) :
    SndP (SndP (StateKeeps 0x8000000000000000000000000000000000000000000000000080202 s)) (keyPurgeNs a0 s) := by
  unfold keyPurgeNs
  extract_lets -merge -underBinder +onlyGivenNames x0
  clear_value x0
  refine iteP (P := SndP (SndP (StateKeeps 0x8000000000000000000000000000000000000000000000000080202 s))) (fun _ => ?_) (fun _ => ?_)
  · exact StateKeeps.stepSndSnd (.refl _ _) (jNo_keeps _ _) rfl
  · refine iteP (P := SndP (SndP (StateKeeps 0x8000000000000000000000000000000000000000000000000080202 s))) (fun _ => ?_) (fun _ => ?_)
    · exact StateKeeps.stepSndSnd (.refl _ _) (jNo_keeps _ _) rfl
    · refine StateKeeps.stepSndSnd ?_ (jYes_keeps _ _) rfl
      refine State.jDo_keeps ?_ ?_ rfl
      · exact (.refl _ _)
      · exact (DevKeeps.step (.refl _ _) (purgeSlot_keeps _ _) rfl)

theorem execKeyPurge_keeps (a0 : Fin 32) (s : State) :
    NextP (StateKeeps 0x8000000000000000000000000000000000000000000000000EA0A02 s) (execKeyPurge a0 s) := by
  unfold execKeyPurge
  refine jenamRow_keeps (fun _ => ?_) rfl
  exact StateKeeps.stepSndSnd (.refl _ _) (keyPurgeNs_keeps _ _) rfl

theorem keySet_keeps (a0 : List Byte) (s : State) :
    SndP (SndP (StateKeeps 0x40000000000000000000000000000000000000000000082002 s)) (keySet a0 s) := by
  unfold keySet
  extract_lets -merge -underBinder +onlyGivenNames x0
  clear_value x0
  extract_lets -merge -underBinder +onlyGivenNames x1
  clear_value x1
  refine iteP (P := SndP (SndP (StateKeeps 0x40000000000000000000000000000000000000000000082002 s))) (fun _ => ?_) (fun _ => ?_)
  · exact StateKeeps.stepSndSnd (.refl _ _) (jNo_keeps _ _) rfl
  · refine iteP (P := SndP (SndP (StateKeeps 0x40000000000000000000000000000000000000000000082002 s))) (fun _ => ?_) (fun _ => ?_)
    · exact StateKeeps.stepSndSnd (.refl _ _) (jNo_keeps _ _) rfl
    · refine StateKeeps.stepSndSnd ?_ (jYes_keeps _ _) rfl
      refine State.jDo_keeps ?_ ?_ rfl
      · exact (.refl _ _)
      · beta_reduce
        extract_lets -merge -underBinder +onlyGivenNames x2
        have h2 : DevKeeps 0x40000000000000000000000000000000000000000000082002 s.dev x2 := by
          subst x2
          exact (DevKeeps.step (.refl _ _) (Dev.wrb_keeps _ _ _ _) (by rfl))
        clear_value x2
        refine iteP (P := DevKeeps 0x40000000000000000000000000000000000000000000082002 s.dev) (fun _ => ?_) (fun _ => ?_)
        · exact h2
        · exact (DevKeeps.step h2 (Dev.modNs_keeps _ _ _) rfl)

theorem execKeySet_keeps (a0 : Fin 32) (s : State) :
    NextP (StateKeeps 0x40000000000000000000000000000000000000000000EA2802 s) (execKeySet a0 s) := by
  unfold execKeySet
  refine jenamRow_keeps (fun _ => ?_) rfl
  exact StateKeeps.stepSndSnd (.refl _ _) (keySet_keeps _ _) rfl

theorem dieHealthRow_keeps (a0 : List Byte) (s : State) :
    SndP (SndP (StateKeeps 0 s)) (dieHealthRow a0 s) := by
  unfold dieHealthRow
  extract_lets -merge -underBinder +onlyGivenNames x0
  clear_value x0
  extract_lets -merge -underBinder +onlyGivenNames x1
  clear_value x1
  refine iteP (P := SndP (SndP (StateKeeps 0 s))) (fun _ => ?_) (fun _ => ?_)
  · exact StateKeeps.stepSndSnd (.refl _ _) (jNo_keeps _ _) rfl
  · exact StateKeeps.stepSndSnd (.refl _ _) (jYes_keeps _ _) rfl

theorem execDieHealth_keeps (a0 : Fin 32) (s : State) :
    NextP (StateKeeps 14813184 s) (execDieHealth a0 s) := by
  unfold execDieHealth
  refine jenamRow_keeps (fun _ => ?_) rfl
  exact StateKeeps.stepSndSnd (.refl _ _) (dieHealthRow_keeps _ _) rfl

theorem bbRecords_keeps (a0 : List Byte) (s : State) :
    SndP (SndP (StateKeeps 0 s)) (bbRecords a0 s) := by
  unfold bbRecords
  extract_lets -merge -underBinder +onlyGivenNames x0
  clear_value x0
  refine iteP (P := SndP (SndP (StateKeeps 0 s))) (fun _ => ?_) (fun _ => ?_)
  · exact StateKeeps.stepSndSnd (.refl _ _) (jNo_keeps _ _) rfl
  · exact StateKeeps.stepSndSnd (.refl _ _) (jYes_keeps _ _) rfl

theorem execBbRecords_keeps (a0 : Fin 32) (s : State) :
    NextP (StateKeeps 14813184 s) (execBbRecords a0 s) := by
  unfold execBbRecords
  refine jenamRow_keeps (fun _ => ?_) rfl
  exact StateKeeps.stepSndSnd (.refl _ _) (bbRecords_keeps _ _) rfl

theorem rowInfo_keeps (a0 : List Byte) (s : State) :
    SndP (SndP (StateKeeps 0 s)) (rowInfo a0 s) := by
  unfold rowInfo
  extract_lets -merge -underBinder +onlyGivenNames x0
  clear_value x0
  extract_lets -merge -underBinder +onlyGivenNames x1
  clear_value x1
  extract_lets -merge -underBinder +onlyGivenNames x2
  clear_value x2
  refine iteP (P := SndP (SndP (StateKeeps 0 s))) (fun _ => ?_) (fun _ => ?_)
  · exact StateKeeps.stepSndSnd (.refl _ _) (jNo_keeps _ _) rfl
  · exact StateKeeps.stepSndSnd (.refl _ _) (jYes_keeps _ _) rfl

theorem execRowInfo_keeps (a0 : Fin 32) (s : State) :
    NextP (StateKeeps 14813184 s) (execRowInfo a0 s) := by
  unfold execRowInfo
  refine jenamRow_keeps (fun _ => ?_) rfl
  exact StateKeeps.stepSndSnd (.refl _ _) (rowInfo_keeps _ _) rfl

theorem threshGet_keeps (a0 : List Byte) (s : State) :
    SndP (SndP (StateKeeps 0 s)) (threshGet a0 s) := by
  unfold threshGet
  refine iteP (P := SndP (SndP (StateKeeps 0 s))) (fun _ => ?_) (fun _ => ?_)
  · exact StateKeeps.stepSndSnd (.refl _ _) (jNo_keeps _ _) rfl
  · exact StateKeeps.stepSndSnd (.refl _ _) (jYes_keeps _ _) rfl

theorem execThreshGet_keeps (a0 : Fin 32) (s : State) :
    NextP (StateKeeps 14813184 s) (execThreshGet a0 s) := by
  unfold execThreshGet
  refine jenamRow_keeps (fun _ => ?_) rfl
  exact StateKeeps.stepSndSnd (.refl _ _) (threshGet_keeps _ _) rfl

theorem threshSet_keeps (a0 : List Byte) (s : State) :
    SndP (SndP (StateKeeps 540672 s)) (threshSet a0 s) := by
  unfold threshSet
  extract_lets -merge -underBinder +onlyGivenNames x0
  clear_value x0
  refine iteP (P := SndP (SndP (StateKeeps 540672 s))) (fun _ => ?_) (fun _ => ?_)
  · exact StateKeeps.stepSndSnd (.refl _ _) (jNo_keeps _ _) rfl
  · split
    · refine iteP (P := SndP (SndP (StateKeeps 540672 s))) (fun _ => ?_) (fun _ => ?_)
      · exact StateKeeps.stepSndSnd (.refl _ _) (jNo_keeps _ _) rfl
      · refine StateKeeps.stepSndSnd ?_ (jYes_keeps _ _) rfl
        refine State.jDo_keeps ?_ ?_ rfl
        · exact (.refl _ _)
        · beta_reduce
          exact (DevKeeps.step (.refl _ _) (Dev.modMed_keeps _ _) rfl)
    · exact StateKeeps.stepSndSnd (.refl _ _) (jNo_keeps _ _) rfl

theorem execThreshSet_keeps (a0 : Fin 32) (s : State) :
    NextP (StateKeeps 15353856 s) (execThreshSet a0 s) := by
  unfold execThreshSet
  refine jenamRow_keeps (fun _ => ?_) rfl
  exact StateKeeps.stepSndSnd (.refl _ _) (threshSet_keeps _ _) rfl

theorem retireDieAsked_keeps (a0 : ℕ) (s : State) :
    StateKeeps 0x18004000000000000000000E000000000000000000000000000380000000000000040008000000000000030E9FB73 s (retireDieAsked a0 s) := by
  unfold retireDieAsked
  extract_lets -merge -underBinder +onlyGivenNames x0
  clear_value x0
  extract_lets -merge -underBinder +onlyGivenNames x1
  clear_value x1
  refine iteP (P := StateKeeps 0x18004000000000000000000E000000000000000000000000000380000000000000040008000000000000030E9FB73 s) (fun _ => ?_) (fun _ => ?_)
  · exact (.refl _ _)
  · refine StateKeeps.step ?_ (afterChan_keeps _ _) rfl
    refine StateKeeps.modDev ?_ ?_
    · exact (.refl _ _)
    · beta_reduce
      exact (DevKeeps.step (DevKeeps.step (.refl _ _) (retireDie_keeps _ _ _) rfl) (dieRetired_keeps _ _ _) rfl)

theorem retireChanAsked_keeps (a0 : ℕ) (s : State) :
    StateKeeps 0x18004000000000000000000E000000000000000000000000000380000000000000040008000000000000030E9FB73 s (retireChanAsked a0 s) := by
  unfold retireChanAsked
  refine iteP (P := StateKeeps 0x18004000000000000000000E000000000000000000000000000380000000000000040008000000000000030E9FB73 s) (fun _ => ?_) (fun _ => ?_)
  · exact (.refl _ _)
  · refine StateKeeps.step ?_ (afterChan_keeps _ _) rfl
    refine StateKeeps.modDev ?_ ?_
    · exact (.refl _ _)
    · beta_reduce
      exact (DevKeeps.step (DevKeeps.step (.refl _ _) (retireChan_keeps _ _) rfl) (chanRetired_keeps _ _ _ _) rfl)

theorem retireUnit_keeps (a0 : List Byte) (s : State) :
    SndP (SndP (StateKeeps 0x18004000000000000000000E000000000000000000000000000380000000000000040008000000000000030E9FB73 s)) (retireUnit a0 s) := by
  unfold retireUnit
  extract_lets -merge -underBinder +onlyGivenNames x0
  clear_value x0
  extract_lets -merge -underBinder +onlyGivenNames x1
  clear_value x1
  refine iteP (P := SndP (SndP (StateKeeps 0x18004000000000000000000E000000000000000000000000000380000000000000040008000000000000030E9FB73 s))) (fun _ => ?_) (fun _ => ?_)
  · exact StateKeeps.stepSndSnd (.refl _ _) (jNo_keeps _ _) rfl
  · refine iteP (P := SndP (SndP (StateKeeps 0x18004000000000000000000E000000000000000000000000000380000000000000040008000000000000030E9FB73 s))) (fun _ => ?_) (fun _ => ?_)
    · exact StateKeeps.stepSndSnd (.refl _ _) (jNo_keeps _ _) rfl
    · refine StateKeeps.stepSndSnd ?_ (jYes_keeps _ _) rfl
      refine State.jDo_keeps ?_ ?_ rfl
      · refine iteP (P := StateKeeps 0x18004000000000000000000E000000000000000000000000000380000000000000040008000000000000030E9FB73 s) (fun _ => ?_) (fun _ => ?_)
        · exact (StateKeeps.step (.refl _ _) (retireDieAsked_keeps _ _) rfl)
        · exact (StateKeeps.step (.refl _ _) (retireChanAsked_keeps _ _) rfl)
      · show DevKeeps 0x18004000000000000000000E000000000000000000000000000380000000000000040008000000000000030E9FB73 s.dev _
        refine StateKeeps.dev ?_
        refine iteP (P := StateKeeps 0x18004000000000000000000E000000000000000000000000000380000000000000040008000000000000030E9FB73 s) (fun _ => ?_) (fun _ => ?_)
        · exact (StateKeeps.step (.refl _ _) (retireDieAsked_keeps _ _) rfl)
        · exact (StateKeeps.step (.refl _ _) (retireChanAsked_keeps _ _) rfl)

theorem execRetireUnit_keeps (a0 : Fin 32) (s : State) :
    NextP (StateKeeps 0x18004000000000000000000E000000000000000000000000000380000000000000040008000000000000030EBFB73 s) (execRetireUnit a0 s) := by
  unfold execRetireUnit
  refine jenamRow_keeps (fun _ => ?_) rfl
  exact StateKeeps.stepSndSnd (.refl _ _) (retireUnit_keeps _ _) rfl

theorem powerGet_keeps (a0 : List Byte) (s : State) :
    SndP (SndP (StateKeeps 0 s)) (powerGet a0 s) := by
  unfold powerGet
  extract_lets -merge -underBinder +onlyGivenNames x0
  have h0 : DevKeeps 0 s.dev x0 := by
    subst x0
    exact (.refl _ _)
  clear_value x0
  refine iteP (P := SndP (SndP (StateKeeps 0 s))) (fun _ => ?_) (fun _ => ?_)
  · exact StateKeeps.stepSndSnd (.refl _ _) (jNo_keeps _ _) rfl
  · exact StateKeeps.stepSndSnd (.refl _ _) (jYes_keeps _ _) rfl

theorem execPowerGet_keeps (a0 : Fin 32) (s : State) :
    NextP (StateKeeps 14813184 s) (execPowerGet a0 s) := by
  unfold execPowerGet
  refine jenamRow_keeps (fun _ => ?_) rfl
  exact StateKeeps.stepSndSnd (.refl _ _) (powerGet_keeps _ _) rfl

theorem powerSet_keeps (a0 : List Byte) (s : State) :
    SndP (SndP (StateKeeps 0x3E80000440002 s)) (powerSet a0 s) := by
  unfold powerSet
  refine iteP (P := SndP (SndP (StateKeeps 0x3E80000440002 s))) (fun _ => ?_) (fun _ => ?_)
  · exact StateKeeps.stepSndSnd (.refl _ _) (jNo_keeps _ _) rfl
  · refine StateKeeps.stepSndSnd ?_ (jYes_keeps _ _) rfl
    refine StateKeeps.modDev ?_ ?_
    · exact (.refl _ _)
    · beta_reduce
      exact (DevKeeps.step (DevKeeps.step (DevKeeps.step (.refl _ _) (Dev.wr_keeps _ _ _) (by rfl)) (Dev.wr_keeps _ _ _) (by rfl)) (planOp_keeps _) rfl)

theorem execPowerSet_keeps (a0 : Fin 32) (s : State) :
    NextP (StateKeeps 0x3E80000E60802 s) (execPowerSet a0 s) := by
  unfold execPowerSet
  refine jenamRow_keeps (fun _ => ?_) rfl
  exact StateKeeps.stepSndSnd (.refl _ _) (powerSet_keeps _ _) rfl

theorem echo_keeps (a0 : List Byte) (s : State) :
    SndP (SndP (StateKeeps 0 s)) (echo a0 s) := by
  unfold echo
  exact StateKeeps.stepSndSnd (.refl _ _) (jYes_keeps _ _) rfl

theorem execEcho_keeps (a0 : Fin 32) (s : State) :
    NextP (StateKeeps 14813184 s) (execEcho a0 s) := by
  unfold execEcho
  refine jenamRow_keeps (fun _ => ?_) rfl
  exact StateKeeps.stepSndSnd (.refl _ _) (echo_keeps _ _) rfl

theorem readDwords_keeps (a n : Nat) (d : Dev) : SndP (DevKeeps 0xFFFFFFFFFFFFFFFFFFFFFFFFFFFFFFFFFFFFFFFFFFFFFFFFFFFFFFFFFFFFFFFFFFFFFFFFFFFFFFFFFFFFFFFFFFFFFFFFFFFFFFFFFFFFFFFFFFFFFFFFFFFFFFFF000A0E d) (readDwords a n d) := by
  induction n generalizing a d with
  | zero => exact SndP.mk (.refl _ _)
  | succ n ih =>
    unfold readDwords
    try dsimp only
    exact SndP.mk ((readControl_keeps _ _ _).snd.step (ih _ _).snd (by decide))

theorem regRead_keeps (a0 : List Byte) (s : State) :
    SndP (SndP (StateKeeps 0xFFFFFFFFFFFFFFFFFFFFFFFFFFFFFFFFFFFFFFFFFFFFFFFFFFFFFFFFFFFFFFFFFFFFFFFFFFFFFFFFFFFFFFFFFFFFFFFFFFFFFFFFFFFFFFFFFFFFFFFFFFFFFFFF000A0E s)) (regRead a0 s) := by
  unfold regRead
  extract_lets -merge -underBinder +onlyGivenNames x0
  clear_value x0
  refine iteP (P := SndP (SndP (StateKeeps 0xFFFFFFFFFFFFFFFFFFFFFFFFFFFFFFFFFFFFFFFFFFFFFFFFFFFFFFFFFFFFFFFFFFFFFFFFFFFFFFFFFFFFFFFFFFFFFFFFFFFFFFFFFFFFFFFFFFFFFFFFFFFFFFFF000A0E s))) (fun _ => ?_) (fun _ => ?_)
  · exact StateKeeps.stepSndSnd (.refl _ _) (jNo_keeps _ _) rfl
  · split
    · rename_i v1_0 v1_1 q1
      have h2 : DevKeeps 0xFFFFFFFFFFFFFFFFFFFFFFFFFFFFFFFFFFFFFFFFFFFFFFFFFFFFFFFFFFFFFFFFFFFFFFFFFFFFFFFFFFFFFFFFFFFFFFFFFFFFFFFFFFFFFFFFFFFFFFFFFFFFFFFF000A0E s.dev v1_1 := by
        refine SndP.get (P := (DevKeeps 0xFFFFFFFFFFFFFFFFFFFFFFFFFFFFFFFFFFFFFFFFFFFFFFFFFFFFFFFFFFFFFFFFFFFFFFFFFFFFFFFFFFFFFFFFFFFFFFFFFFFFFFFFFFFFFFFFFFFFFFFFFFFFFFFF000A0E s.dev)) ?_ q1
        exact DevKeeps.stepSnd (.refl _ _) (readDwords_keeps _ _ _) rfl
      refine StateKeeps.stepSndSnd ?_ (jYes_keeps _ _) rfl
      refine StateKeeps.setDev ?_ ?_
      · exact (.refl _ _)
      · exact DevKeeps.set_bus _ h2 rfl

theorem execRegRead_keeps (a0 : Fin 32) (s : State) :
    NextP (StateKeeps 0xFFFFFFFFFFFFFFFFFFFFFFFFFFFFFFFFFFFFFFFFFFFFFFFFFFFFFFFFFFFFFFFFFFFFFFFFFFFFFFFFFFFFFFFFFFFFFFFFFFFFFFFFFFFFFFFFFFFFFFFFFFFFFFFFE20A0E s) (execRegRead a0 s) := by
  unfold execRegRead
  refine jenamRow_keeps (fun _ => ?_) rfl
  exact StateKeeps.stepSndSnd (.refl _ _) (regRead_keeps _ _) rfl

theorem regWrite_keeps (a0 : List Byte) (s : State) :
    SndP (SndP (StateKeeps 0xFFFFFFFFFFFFFFFFFFFFFFFFFFFFFFFFFFFFFFFFFFFFFFFFFFFFFFFFFFFFFFFFFFFFFFFFFFFFFFFFFFFFFFFFFFFFFFFFFFFFFFFFFFFFFFFFFFFFFFFFFFFFFFFFFFFFFB s)) (regWrite a0 s) := by
  unfold regWrite
  refine iteP (P := SndP (SndP (StateKeeps 0xFFFFFFFFFFFFFFFFFFFFFFFFFFFFFFFFFFFFFFFFFFFFFFFFFFFFFFFFFFFFFFFFFFFFFFFFFFFFFFFFFFFFFFFFFFFFFFFFFFFFFFFFFFFFFFFFFFFFFFFFFFFFFFFFFFFFFB s))) (fun _ => ?_) (fun _ => ?_)
  · exact StateKeeps.stepSndSnd (.refl _ _) (jNo_keeps _ _) rfl
  · exact StateKeeps.stepSndSnd (StateKeeps.step (.refl _ _) (writeControl_keeps _ _ _ _) rfl) (jYes_keeps _ _) rfl

theorem execRegWrite_keeps (a0 : Fin 32) (s : State) :
    NextP (StateKeeps 0xFFFFFFFFFFFFFFFFFFFFFFFFFFFFFFFFFFFFFFFFFFFFFFFFFFFFFFFFFFFFFFFFFFFFFFFFFFFFFFFFFFFFFFFFFFFFFFFFFFFFFFFFFFFFFFFFFFFFFFFFFFFFFFFFFFFFFB s) (execRegWrite a0 s) := by
  unfold execRegWrite
  refine jenamRow_keeps (fun _ => ?_) rfl
  exact StateKeeps.stepSndSnd (.refl _ _) (regWrite_keeps _ _) rfl

theorem selftestGet_keeps (a0 : List Byte) (s : State) :
    SndP (SndP (StateKeeps 0 s)) (selftestGet a0 s) := by
  unfold selftestGet
  refine iteP (P := SndP (SndP (StateKeeps 0 s))) (fun _ => ?_) (fun _ => ?_)
  · exact StateKeeps.stepSndSnd (.refl _ _) (jNo_keeps _ _) rfl
  · exact StateKeeps.stepSndSnd (.refl _ _) (jYes_keeps _ _) rfl

theorem execSelftestGet_keeps (a0 : Fin 32) (s : State) :
    NextP (StateKeeps 14813184 s) (execSelftestGet a0 s) := by
  unfold execSelftestGet
  refine jenamRow_keeps (fun _ => ?_) rfl
  exact StateKeeps.stepSndSnd (.refl _ _) (selftestGet_keeps _ _) rfl

theorem casTopology_keeps (a0 : List Byte) (s : State) :
    SndP (SndP (StateKeeps 1 s)) (casTopology a0 s) := by
  unfold casTopology
  refine iteP (P := SndP (SndP (StateKeeps 1 s))) (fun _ => ?_) (fun _ => ?_)
  · exact StateKeeps.stepSndSnd (.refl _ _) (jNo_keeps _ _) rfl
  · refine StateKeeps.stepSndSnd ?_ (jYes_keeps _ _) rfl
    refine StateKeeps.modDev ?_ ?_
    · exact (.refl _ _)
    · beta_reduce
      exact (DevKeeps.step (.refl _ _) (Dev.tick_keeps _ _) rfl)

theorem execCasTopology_keeps (a0 : Fin 32) (s : State) :
    NextP (StateKeeps 14813185 s) (execCasTopology a0 s) := by
  unfold execCasTopology
  refine jenamRow_keeps (fun _ => ?_) rfl
  exact StateKeeps.stepSndSnd (.refl _ _) (casTopology_keeps _ _) rfl

end Sys2Proof.Machine
end

