-- ==== Sys2Proof/Laws/KeepJenamFirm.lean ====
section
/-! SUPPORT. What each operation of Machine/JenamFirm.lean leaves as it was. -/

namespace Sys2Proof.Machine

theorem fwInfo_keeps (a0 : List Byte) (s : State) :
    SndP (SndP (StateKeeps 0 s)) (fwInfo a0 s) := by
  unfold fwInfo
  extract_lets -merge -underBinder +onlyGivenNames x0
  clear_value x0
  refine iteP (P := SndP (SndP (StateKeeps 0 s))) (fun _ => ?_) (fun _ => ?_)
  · exact StateKeeps.stepSndSnd (.refl _ _) (jNo_keeps _ _) rfl
  · exact StateKeeps.stepSndSnd (.refl _ _) (jYes_keeps _ _) rfl

theorem execFwInfo_keeps (a0 : Fin 32) (s : State) :
    NextP (StateKeeps 14813184 s) (execFwInfo a0 s) := by
  unfold execFwInfo
  refine jenamRow_keeps (fun _ => ?_) rfl
  exact StateKeeps.stepSndSnd (.refl _ _) (fwInfo_keeps _ _) rfl

theorem ownerCertSet_keeps (a0 : List Byte) (s : State) :
    SndP (SndP (StateKeeps 524288 s)) (ownerCertSet a0 s) := by
  unfold ownerCertSet
  refine iteP (P := SndP (SndP (StateKeeps 524288 s))) (fun _ => ?_) (fun _ => ?_)
  · exact StateKeeps.stepSndSnd (.refl _ _) (jNo_keeps _ _) rfl
  · refine iteP (P := SndP (SndP (StateKeeps 524288 s))) (fun _ => ?_) (fun _ => ?_)
    · exact StateKeeps.stepSndSnd (.refl _ _) (jNo_keeps _ _) rfl
    · refine iteP (P := SndP (SndP (StateKeeps 524288 s))) (fun _ => ?_) (fun _ => ?_)
      · exact StateKeeps.stepSndSnd (.refl _ _) (jNo_keeps _ _) rfl
      · refine StateKeeps.stepSndSnd ?_ (jYes_keeps _ _) rfl
        refine StateKeeps.modDev ?_ ?_
        · exact (.refl _ _)
        · beta_reduce
          exact (DevKeeps.step (.refl _ _) (Dev.modNvm_keeps _ _) rfl)

theorem execOwnerCertSet_keeps (a0 : Fin 32) (s : State) :
    NextP (StateKeeps 15337472 s) (execOwnerCertSet a0 s) := by
  unfold execOwnerCertSet
  refine jenamRow_keeps (fun _ => ?_) rfl
  exact StateKeeps.stepSndSnd (.refl _ _) (ownerCertSet_keeps _ _) rfl

theorem unloadEtching_keeps (a0 : ℕ) (s : State) :
    StateKeeps 8978432 s (unloadEtching a0 s) := by
  unfold unloadEtching
  extract_lets -merge -underBinder +onlyGivenNames x0
  have h0 : StateKeeps 8978432 s x0 := by
    subst x0
    split
    · exact (StateKeeps.step (.refl _ _) (releaseGraver_keeps _ _) rfl)
    · exact (.refl _ _)
  clear_value x0
  refine StateKeeps.modDev ?_ ?_
  · exact h0
  · beta_reduce
    exact (DevKeeps.step (DevKeeps.step (StateKeeps.dev h0) (Dev.modGrv_keeps _ _) rfl) (Dev.modNvm_keeps _ _) rfl)

theorem ownerCertClear_keeps (a0 : List Byte) (s : State) :
    SndP (SndP (StateKeeps 8978432 s)) (ownerCertClear a0 s) := by
  unfold ownerCertClear
  refine iteP (P := SndP (SndP (StateKeeps 8978432 s))) (fun _ => ?_) (fun _ => ?_)
  · exact StateKeeps.stepSndSnd (.refl _ _) (jNo_keeps _ _) rfl
  · refine StateKeeps.stepSndSnd ?_ (jYes_keeps _ _) rfl
    refine StateKeeps.modDev ?_ ?_
    · refine StateKeeps.forUpTo ?_ (fun a0 y0 h0 => ?_)
      · exact (.refl _ _)
      · exact (StateKeeps.step h0 (unloadEtching_keeps _ _) rfl)
    · beta_reduce
      refine DevKeeps.step ?_ (Dev.modNvm_keeps _ _) rfl
      refine StateKeeps.dev ?_
      refine StateKeeps.forUpTo ?_ (fun a1 y1 h1 => ?_)
      · exact (.refl _ _)
      · exact (StateKeeps.step h1 (unloadEtching_keeps _ _) rfl)

theorem execOwnerCertClear_keeps (a0 : Fin 32) (s : State) :
    NextP (StateKeeps 15403008 s) (execOwnerCertClear a0 s) := by
  unfold execOwnerCertClear
  refine jenamRow_keeps (fun _ => ?_) rfl
  exact StateKeeps.stepSndSnd (.refl _ _) (ownerCertClear_keeps _ _) rfl

theorem etchStage_keeps (a0 : List Byte) (s : State) :
    SndP (SndP (StateKeeps 65536 s)) (etchStage a0 s) := by
  unfold etchStage
  extract_lets -merge -underBinder +onlyGivenNames x0
  clear_value x0
  extract_lets -merge -underBinder +onlyGivenNames x1
  clear_value x1
  extract_lets -merge -underBinder +onlyGivenNames x2
  clear_value x2
  refine iteP (P := SndP (SndP (StateKeeps 65536 s))) (fun _ => ?_) (fun _ => ?_)
  · exact StateKeeps.stepSndSnd (.refl _ _) (jNo_keeps _ _) rfl
  · refine iteP (P := SndP (SndP (StateKeeps 65536 s))) (fun _ => ?_) (fun _ => ?_)
    · exact StateKeeps.stepSndSnd (.refl _ _) (jNo_keeps _ _) rfl
    · refine StateKeeps.stepSndSnd ?_ (jYes_keeps _ _) rfl
      refine StateKeeps.modDev ?_ ?_
      · exact (.refl _ _)
      · beta_reduce
        exact (DevKeeps.step (.refl _ _) (Dev.modGrv_keeps _ _) rfl)

theorem execEtchStage_keeps (a0 : Fin 32) (s : State) :
    NextP (StateKeeps 14878720 s) (execEtchStage a0 s) := by
  unfold execEtchStage
  refine jenamRow_keeps (fun _ => ?_) rfl
  exact StateKeeps.stepSndSnd (.refl _ _) (etchStage_keeps _ _) rfl

theorem loadEtching_keeps (a0 : ℕ) (a1 : ℕ) (a2 : List Byte) (a3 : ℕ) (s : State) :
    StateKeeps 8978432 s (loadEtching a0 a1 a2 a3 s) := by
  unfold loadEtching
  refine StateKeeps.step ?_ (etchStart_keeps _ _ _) rfl
  refine StateKeeps.modDev ?_ ?_
  · exact (.refl _ _)
  · beta_reduce
    extract_lets -merge -underBinder +onlyGivenNames x0
    have h0 : DevKeeps 8978432 s.dev x0 := by
      subst x0
      exact (DevKeeps.step (DevKeeps.step (.refl _ _) (Dev.modNvm_keeps _ _) rfl) (extendMeas_keeps _ _ _) rfl)
    clear_value x0
    extract_lets -merge -underBinder +onlyGivenNames x1
    have h1 : DevKeeps 8978432 s.dev x1 := by
      subst x1
      exact (DevKeeps.step h0 (Dev.modGrv_keeps _ _) rfl)
    clear_value x1
    exact (DevKeeps.step h1 (Dev.modEtch_keeps _ _ _) rfl)

theorem etchLoad_keeps (a0 : List Byte) (s : State) :
    SndP (SndP (StateKeeps 8978432 s)) (etchLoad a0 s) := by
  unfold etchLoad
  extract_lets -merge -underBinder +onlyGivenNames x0
  clear_value x0
  extract_lets -merge -underBinder +onlyGivenNames x1
  clear_value x1
  extract_lets -merge -underBinder +onlyGivenNames x2
  clear_value x2
  extract_lets -merge -underBinder +onlyGivenNames x3
  clear_value x3
  refine iteP (P := SndP (SndP (StateKeeps 8978432 s))) (fun _ => ?_) (fun _ => ?_)
  · exact StateKeeps.stepSndSnd (.refl _ _) (jNo_keeps _ _) rfl
  · refine iteP (P := SndP (SndP (StateKeeps 8978432 s))) (fun _ => ?_) (fun _ => ?_)
    · exact StateKeeps.stepSndSnd (.refl _ _) (jNo_keeps _ _) rfl
    · refine iteP (P := SndP (SndP (StateKeeps 8978432 s))) (fun _ => ?_) (fun _ => ?_)
      · exact StateKeeps.stepSndSnd (.refl _ _) (jNo_keeps _ _) rfl
      · split
        · exact StateKeeps.stepSndSnd (StateKeeps.step (.refl _ _) (loadEtching_keeps _ _ _ _ _) rfl) (jYes_keeps _ _) rfl
        · exact StateKeeps.stepSndSnd (.refl _ _) (jNo_keeps _ _) rfl

theorem execEtchLoad_keeps (a0 : Fin 32) (s : State) :
    NextP (StateKeeps 15403008 s) (execEtchLoad a0 s) := by
  unfold execEtchLoad
  refine jenamRow_keeps (fun _ => ?_) rfl
  exact StateKeeps.stepSndSnd (.refl _ _) (etchLoad_keeps _ _) rfl

theorem etchUnload_keeps (a0 : List Byte) (s : State) :
    SndP (SndP (StateKeeps 8978432 s)) (etchUnload a0 s) := by
  unfold etchUnload
  extract_lets -merge -underBinder +onlyGivenNames x0
  clear_value x0
  refine iteP (P := SndP (SndP (StateKeeps 8978432 s))) (fun _ => ?_) (fun _ => ?_)
  · exact StateKeeps.stepSndSnd (.refl _ _) (jNo_keeps _ _) rfl
  · exact StateKeeps.stepSndSnd (StateKeeps.step (.refl _ _) (unloadEtching_keeps _ _) rfl) (jYes_keeps _ _) rfl

theorem execEtchUnload_keeps (a0 : Fin 32) (s : State) :
    NextP (StateKeeps 15403008 s) (execEtchUnload a0 s) := by
  unfold execEtchUnload
  refine jenamRow_keeps (fun _ => ?_) rfl
  exact StateKeeps.stepSndSnd (.refl _ _) (etchUnload_keeps _ _) rfl

theorem etchStatus_keeps (a0 : List Byte) (s : State) :
    SndP (SndP (StateKeeps 1 s)) (etchStatus a0 s) := by
  unfold etchStatus
  refine iteP (P := SndP (SndP (StateKeeps 1 s))) (fun _ => ?_) (fun _ => ?_)
  · exact StateKeeps.stepSndSnd (.refl _ _) (jNo_keeps _ _) rfl
  · refine StateKeeps.stepSndSnd ?_ (jYes_keeps _ _) rfl
    refine StateKeeps.modDev ?_ ?_
    · exact (.refl _ _)
    · beta_reduce
      exact (DevKeeps.step (.refl _ _) (Dev.tick_keeps _ _) rfl)

theorem execEtchStatus_keeps (a0 : Fin 32) (s : State) :
    NextP (StateKeeps 14813185 s) (execEtchStatus a0 s) := by
  unfold execEtchStatus
  refine jenamRow_keeps (fun _ => ?_) rfl
  exact StateKeeps.stepSndSnd (.refl _ _) (etchStatus_keeps _ _) rfl

end Sys2Proof.Machine
end

