-- ==== Sys2Proof/Laws/Jenam.lean ====
section
/-! SUPPORT. What a Jenam row answers when its request's turn has come. -/

namespace Sys2Proof.Machine

/-- A row whose request is ready answers it with what its operation gives. -/
theorem replies_row {op buf st : Nat} {f : List Byte → State → Nat × List Byte × State} {s t : State} {b : JBuf} {p ps : List Byte}
    {P : State → Prop} (h : JenamReady s buf op b p) (hf : f p s = (st, ps, t)) (hp : P t) : Replies (jenamRow op buf f s) b st ps P := by
  obtain ⟨h1, h2, h3, h4, h5, h6⟩ := h
  refine ⟨t, ?_, hp⟩
  unfold jenamRow
  rw [h1]
  dsimp only
  rw [if_pos (by simp [h2, h3, h4, h5]), h6, hf]
  rfl

/-- The same for a row that waits for the commands of its namespace, once none of them is left. -/
theorem replies_ordered {op buf st : Nat} {f : List Byte → State → Nat × List Byte × State} {s t : State} {b : JBuf} {p ps : List Byte}
    {P : State → Prop} (h : JenamReady s buf op b p) (hb : s.dev.jBuf buf = some b) (hq : s.dev.nsQuiet (jf p 0 4) s.dev.host.seq = true)
    (hf : f p s = (st, ps, t)) (hp : P t) : Replies (jenamOrdered op buf f s) b st ps P := by
  have e : jenamOrdered op buf f s = jenamRow op buf f s := by
    unfold jenamOrdered
    rw [hb]
    dsimp only
    rw [h.2.2.2.2.2, if_neg (by simp [hq])]
  rw [e]
  exact replies_row h hf hp

/-- A durable change is the change, and the tables are saved. -/
@[simp] theorem State.jDo_dev (s : State) (f : Dev → Dev) : (s.jDo f).dev = makeDurable (f s.dev) := rfl
@[simp] theorem makeDurable_regs (d : Dev) : (makeDurable d).regs = d.regs := rfl
@[simp] theorem makeDurable_host (d : Dev) : (makeDurable d).host = d.host := rfl
@[simp] theorem makeDurable_zm (d : Dev) : (makeDurable d).zm = d.zm := rfl
@[simp] theorem makeDurable_ciph (d : Dev) : (makeDurable d).ciph = d.ciph := rfl
@[simp] theorem makeDurable_med (d : Dev) : (makeDurable d).med = d.med := rfl
@[simp] theorem makeDurable_chans (d : Dev) : (makeDurable d).chans = d.chans := rfl

end Sys2Proof.Machine
end

