-- ==== Sys2Proof/Laws/KeepEtchCall.lean ====
section
/-! SUPPORT. What each operation of Machine/EtchCall.lean leaves as it was. -/

namespace Sys2Proof.Machine

theorem callReturn_keeps (a0 : ℕ) (a1 : DWord) (s : State) :
    StateKeeps 65536 s (callReturn a0 a1 s) := by
  unfold callReturn
  refine StateKeeps.modDev ?_ ?_
  · exact (.refl _ _)
  · exact (DevKeeps.step (.refl _ _) (graverResult_keeps _ _ _ _) rfl)

theorem callRow_keeps {m g n : Nat} {f : Nat → State → State} {s : State} (h : ∀ e, StateKeeps m s (f e s)) :
    NextP (StateKeeps m s) (callRow g n f s) := by
  unfold callRow
  split
  · exact h _
  · exact StateKeeps.refl _ _

theorem evNext_keeps (a0 : ℕ) (a1 : ℕ) (s : State) :
    StateKeeps 65536 s (evNext a0 a1 s) := by
  unfold evNext
  refine iteP (P := StateKeeps 65536 s) (fun _ => ?_) (fun _ => ?_)
  · refine StateKeeps.modDev ?_ ?_
    · exact (.refl _ _)
    · beta_reduce
      exact (DevKeeps.step (.refl _ _) (Dev.modEtch_keeps _ _ _) rfl)
  · exact (StateKeeps.step (.refl _ _) (callReturn_keeps _ _ _) rfl)

theorem execEvNext_keeps (a0 : Fin 64) (s : State) :
    NextP (StateKeeps 65536 s) (execEvNext a0 s) := by
  unfold execEvNext
  refine callRow_keeps (fun _ => ?_)
  exact (StateKeeps.step (.refl _ _) (evNext_keeps _ _ _) rfl)

theorem evReturn_keeps (a0 : ℕ) (a1 : ℕ) (s : State) :
    OkP (StateKeeps 8456192 s) (evReturn a0 a1 s) := by
  unfold evReturn
  split
  · extract_lets -merge -underBinder +onlyGivenNames x0
    have h0 : StateKeeps 8456192 s x0 := by
      subst x0
      refine StateKeeps.modDev ?_ ?_
      · exact (.refl _ _)
      · beta_reduce
        exact (DevKeeps.step (.refl _ _) (Dev.modEtch_keeps _ _ _) rfl)
    clear_value x0
    refine iteP (P := OkP (StateKeeps 8456192 s)) (fun _ => ?_) (fun _ => ?_)
    · refine OkP.ok ?_
      exact (StateKeeps.step (StateKeeps.step h0 (State.writeReach_keeps _ _ _) rfl) (callReturn_keeps _ _ _) rfl)
    · refine OkP.ok ?_
      exact (StateKeeps.step h0 (callReturn_keeps _ _ _) rfl)
  · exact trivial

theorem execEvNextReturn_keeps (a0 : Fin 64) (s : State) :
    NextP (StateKeeps 8456192 s) (execEvNextReturn a0 s) := by
  unfold execEvNextReturn
  split
  · split
    · rename_i v0_0 q0
      have h1 : StateKeeps 8456192 s v0_0 := by
        refine OkP.get (P := (StateKeeps 8456192 s)) ?_ q0
        exact StateKeeps.stepOk (.refl _ _) (evReturn_keeps _ _ _) rfl
      refine NextP.next ?_
      exact h1
    · exact StateKeeps.stepNext (.refl _ _) (noEvent_keeps _ _) rfl
  · exact StateKeeps.stepNext (.refl _ _) (noEvent_keeps _ _) rfl

theorem statRead_keeps (a0 : ℕ) (s : State) :
    StateKeeps 8456192 s (statRead a0 s) := by
  unfold statRead
  split
  · extract_lets -merge -underBinder +onlyGivenNames x0
    clear_value x0
    refine iteP (P := StateKeeps 8456192 s) (fun _ => ?_) (fun _ => ?_)
    · exact (StateKeeps.step (StateKeeps.step (.refl _ _) (State.writeReach_keeps _ _ _) rfl) (callReturn_keeps _ _ _) rfl)
    · exact (StateKeeps.step (.refl _ _) (callReturn_keeps _ _ _) rfl)
  · exact (StateKeeps.step (.refl _ _) (callReturn_keeps _ _ _) rfl)

theorem execStatRead_keeps (a0 : Fin 64) (s : State) :
    NextP (StateKeeps 8456192 s) (execStatRead a0 s) := by
  unfold execStatRead
  refine callRow_keeps (fun _ => ?_)
  beta_reduce
  exact (StateKeeps.step (.refl _ _) (statRead_keeps _ _) rfl)

theorem hatchPropose_keeps (a0 : ℕ) (s : State) :
    StateKeeps 0x3800000000000000000000000000000000000000000000000000000000000000000000000000000000000000000B0012 s (hatchPropose a0 s) := by
  unfold hatchPropose
  extract_lets -merge -underBinder +onlyGivenNames x0
  have h0 : DevKeeps 0x3800000000000000000000000000000000000000000000000000000000000000000000000000000000000000000B0012 s.dev x0 := by
    subst x0
    exact (.refl _ _)
  clear_value x0
  extract_lets -merge -underBinder +onlyGivenNames x1
  clear_value x1
  extract_lets -merge -underBinder +onlyGivenNames x2
  clear_value x2
  extract_lets -merge -underBinder +onlyGivenNames x3
  clear_value x3
  refine iteP (P := StateKeeps 0x3800000000000000000000000000000000000000000000000000000000000000000000000000000000000000000B0012 s) (fun _ => ?_) (fun _ => ?_)
  · exact (StateKeeps.step (.refl _ _) (callReturn_keeps _ _ _) rfl)
  · split
    · rename_i v4_0 v4_1 v4_2 q4
      have h5 : StateKeeps 0x3800000000000000000000000000000000000000000000000000000000000000000000000000000000000000000B0012 s v4_2 := by
        refine SndP.get (P := (StateKeeps 0x3800000000000000000000000000000000000000000000000000000000000000000000000000000000000000000B0012 s)) (SndP.get (P := SndP (StateKeeps 0x3800000000000000000000000000000000000000000000000000000000000000000000000000000000000000000B0012 s)) ?_ q4) rfl
        exact StateKeeps.stepSndSnd (.refl _ _) (hatchWrite_keeps _ _) rfl
      refine iteP (P := StateKeeps 0x3800000000000000000000000000000000000000000000000000000000000000000000000000000000000000000B0012 s) (fun _ => ?_) (fun _ => ?_)
      · exact (StateKeeps.step h5 (callReturn_keeps _ _ _) rfl)
      · split
        · rename_i v6_0 v6_1 v6_2 q6
          have h7 : StateKeeps 0x3800000000000000000000000000000000000000000000000000000000000000000000000000000000000000000B0012 s v6_2 := by
            refine SndP.get (P := (StateKeeps 0x3800000000000000000000000000000000000000000000000000000000000000000000000000000000000000000B0012 s)) (SndP.get (P := SndP (StateKeeps 0x3800000000000000000000000000000000000000000000000000000000000000000000000000000000000000000B0012 s)) ?_ q6) rfl
            exact StateKeeps.stepSndSnd h5 (hatchArmAll_keeps _ _) rfl
          exact (StateKeeps.step h7 (callReturn_keeps _ _ _) rfl)

theorem execHatchPropose_keeps (a0 : Fin 64) (s : State) :
    NextP (StateKeeps 0x3800000000000000000000000000000000000000000000000000000000000000000000000000000000000000000B0012 s) (execHatchPropose a0 s) := by
  unfold execHatchPropose
  refine callRow_keeps (fun _ => ?_)
  beta_reduce
  exact (StateKeeps.step (.refl _ _) (hatchPropose_keeps _ _) rfl)

theorem lendPri_keeps (a0 : ℕ) (s : State) :
    StateKeeps 0xC00000000000000000000000000000000000000000000000000000000000000000000000000000000000000010002 s (lendPri a0 s) := by
  unfold lendPri
  extract_lets -merge -underBinder +onlyGivenNames x0
  clear_value x0
  extract_lets -merge -underBinder +onlyGivenNames x1
  clear_value x1
  refine iteP (P := StateKeeps 0xC00000000000000000000000000000000000000000000000000000000000000000000000000000000000000010002 s) (fun _ => ?_) (fun _ => ?_)
  · exact (StateKeeps.step (.refl _ _) (callReturn_keeps _ _ _) rfl)
  · split
    · rename_i v2_0 v2_1 v2_2 q2
      have h3 : StateKeeps 0xC00000000000000000000000000000000000000000000000000000000000000000000000000000000000000010002 s v2_2 := by
        refine SndP.get (P := (StateKeeps 0xC00000000000000000000000000000000000000000000000000000000000000000000000000000000000000010002 s)) (SndP.get (P := SndP (StateKeeps 0xC00000000000000000000000000000000000000000000000000000000000000000000000000000000000000010002 s)) ?_ q2) rfl
        exact StateKeeps.stepSndSnd (.refl _ _) (arbSet_keeps _ _) rfl
      exact (StateKeeps.step h3 (callReturn_keeps _ _ _) rfl)

theorem execLendPri_keeps (a0 : Fin 64) (s : State) :
    NextP (StateKeeps 0xC00000000000000000000000000000000000000000000000000000000000000000000000000000000000000010002 s) (execLendPri a0 s) := by
  unfold execLendPri
  refine callRow_keeps (fun _ => ?_)
  beta_reduce
  exact (StateKeeps.step (.refl _ _) (lendPri_keeps _ _) rfl)

theorem etchUrgent_keeps (a0 : ℕ) (s : State) :
    StateKeeps 0x8000000000000000000000000000000000000000000000000000000000000000010102 s (etchUrgent a0 s) := by
  unfold etchUrgent
  extract_lets -merge -underBinder +onlyGivenNames x0
  clear_value x0
  extract_lets -merge -underBinder +onlyGivenNames x1
  clear_value x1
  extract_lets -merge -underBinder +onlyGivenNames x2
  clear_value x2
  refine iteP (P := StateKeeps 0x8000000000000000000000000000000000000000000000000000000000000000010102 s) (fun _ => ?_) (fun _ => ?_)
  · exact (StateKeeps.step (.refl _ _) (callReturn_keeps _ _ _) rfl)
  · refine StateKeeps.step ?_ (callReturn_keeps _ _ _) rfl
    refine StateKeeps.modDev ?_ ?_
    · exact (.refl _ _)
    · exact (DevKeeps.step (.refl _ _) (stipUrgPost_keeps _ _) rfl)

theorem execStipUrgent_keeps (a0 : Fin 64) (s : State) :
    NextP (StateKeeps 0x8000000000000000000000000000000000000000000000000000000000000000010102 s) (execStipUrgent a0 s) := by
  unfold execStipUrgent
  refine callRow_keeps (fun _ => ?_)
  beta_reduce
  exact (StateKeeps.step (.refl _ _) (etchUrgent_keeps _ _) rfl)

theorem etchLog_keeps (a0 : ℕ) (s : State) :
    StateKeeps 65536 s (etchLog a0 s) := by
  unfold etchLog
  extract_lets -merge -underBinder +onlyGivenNames x0
  clear_value x0
  extract_lets -merge -underBinder +onlyGivenNames x1
  clear_value x1
  extract_lets -merge -underBinder +onlyGivenNames x2
  clear_value x2
  refine iteP (P := StateKeeps 65536 s) (fun _ => ?_) (fun _ => ?_)
  · exact (StateKeeps.step (.refl _ _) (callReturn_keeps _ _ _) rfl)
  · refine StateKeeps.step ?_ (callReturn_keeps _ _ _) rfl
    refine StateKeeps.modDev ?_ ?_
    · exact (.refl _ _)
    · beta_reduce
      exact (DevKeeps.step (.refl _ _) (Dev.modGrv_keeps _ _) rfl)

theorem execLogAppend_keeps (a0 : Fin 64) (s : State) :
    NextP (StateKeeps 65536 s) (execLogAppend a0 s) := by
  unfold execLogAppend
  refine callRow_keeps (fun _ => ?_)
  beta_reduce
  exact (StateKeeps.step (.refl _ _) (etchLog_keeps _ _) rfl)

theorem etchExit_keeps (a0 : ℕ) (a1 : ℕ) (s : State) :
    StateKeeps 8454144 s (etchExit a0 a1 s) := by
  unfold etchExit
  refine StateKeeps.step ?_ (releaseGraver_keeps _ _) rfl
  refine StateKeeps.modDev ?_ ?_
  · exact (.refl _ _)
  · beta_reduce
    exact (DevKeeps.step (.refl _ _) (Dev.modEtch_keeps _ _ _) rfl)

theorem execEtchExit_keeps (a0 : Fin 64) (s : State) :
    NextP (StateKeeps 8454144 s) (execEtchExit a0 s) := by
  unfold execEtchExit
  refine callRow_keeps (fun _ => ?_)
  exact (StateKeeps.step (.refl _ _) (etchExit_keeps _ _ _) rfl)

end Sys2Proof.Machine
end

