-- ==== Sys2Proof/Laws/KeepMctp.lean ====
section
/-! SUPPORT. What each operation of Machine/Mctp.lean leaves as it was. -/

namespace Sys2Proof.Machine

theorem onBinding_keeps {m src tag kind : Nat} {i : Bool} {f : Dev → List Byte × Dev} {s : State}
    (h : SndP (DevKeeps m s.dev) (f (wakeIdle s.dev))) (hm : m ||| 4194304 = m) : NextP (StateKeeps m s) (onBinding i src tag kind f s) := by
  unfold onBinding
  split
  · refine NextP.next (StateKeeps.modDev (.refl _ _) ?_)
    exact h.snd.step (Dev.send_keeps _ _) hm
  · exact NextP.next (.refl _ _)

theorem mcSetEid_keeps (a0 : ℕ) (a1 : ℕ) (d : Dev) :
    SndP (DevKeeps 0x80000000000000000000000000000000000000000000000000000000000000000000002 d) (mcSetEid a0 a1 d) := by
  unfold mcSetEid
  refine iteP (P := SndP (DevKeeps 0x80000000000000000000000000000000000000000000000000000000000000000000002 d)) (fun _ => ?_) (fun _ => ?_)
  · refine SndP.mk ?_
    exact (DevKeeps.step (.refl _ _) (Dev.wr_keeps _ _ _) (by rfl))
  · refine SndP.mk ?_
    exact (.refl _ _)

theorem execSetEndpointId_keeps (a0 : Bool) (a1 : Byte) (a2 : Byte) (a3 : Byte) (a4 : Byte) (s : State) :
    NextP (StateKeeps 0x80000000000000000000000000000000000000000000000000000000000000000440002 s) (execSetEndpointId a0 a1 a2 a3 a4 s) := by
  unfold execSetEndpointId
  refine onBinding_keeps ?_ rfl
  exact DevKeeps.stepSnd (DevKeeps.step (.refl _ _) (wakeIdle_keeps _) rfl) (mcSetEid_keeps _ _ _) rfl

theorem mcGetEid_keeps (d : Dev) :
    SndP (DevKeeps 0 d) (mcGetEid d) := by
  unfold mcGetEid
  refine SndP.mk ?_
  exact (.refl _ _)

theorem execGetEndpointId_keeps (a0 : Bool) (a1 : Byte) (a2 : Byte) (s : State) :
    NextP (StateKeeps 4456448 s) (execGetEndpointId a0 a1 a2 s) := by
  unfold execGetEndpointId
  refine onBinding_keeps ?_ rfl
  exact DevKeeps.stepSnd (DevKeeps.step (.refl _ _) (wakeIdle_keeps _) rfl) (mcGetEid_keeps _) rfl

theorem mcVersions_keeps (a0 : ℕ) (d : Dev) :
    SndP (DevKeeps 0 d) (mcVersions a0 d) := by
  unfold mcVersions
  refine iteP (P := SndP (DevKeeps 0 d)) (fun _ => ?_) (fun _ => ?_)
  · refine SndP.mk ?_
    exact (.refl _ _)
  · refine iteP (P := SndP (DevKeeps 0 d)) (fun _ => ?_) (fun _ => ?_)
    · refine SndP.mk ?_
      exact (.refl _ _)
    · refine SndP.mk ?_
      exact (.refl _ _)

theorem execGetMctpVersionSupport_keeps (a0 : Bool) (a1 : Byte) (a2 : Byte) (a3 : Byte) (s : State) :
    NextP (StateKeeps 4456448 s) (execGetMctpVersionSupport a0 a1 a2 a3 s) := by
  unfold execGetMctpVersionSupport
  refine onBinding_keeps ?_ rfl
  exact DevKeeps.stepSnd (DevKeeps.step (.refl _ _) (wakeIdle_keeps _) rfl) (mcVersions_keeps _ _) rfl

theorem mcTypes_keeps (d : Dev) :
    SndP (DevKeeps 0 d) (mcTypes d) := by
  unfold mcTypes
  refine SndP.mk ?_
  exact (.refl _ _)

theorem execGetMessageTypeSupport_keeps (a0 : Bool) (a1 : Byte) (a2 : Byte) (s : State) :
    NextP (StateKeeps 4456448 s) (execGetMessageTypeSupport a0 a1 a2 s) := by
  unfold execGetMessageTypeSupport
  refine onBinding_keeps ?_ rfl
  exact DevKeeps.stepSnd (DevKeeps.step (.refl _ _) (wakeIdle_keeps _) rfl) (mcTypes_keeps _) rfl

theorem mcVendor_keeps (a0 : ℕ) (d : Dev) :
    SndP (DevKeeps 0 d) (mcVendor a0 d) := by
  unfold mcVendor
  refine iteP (P := SndP (DevKeeps 0 d)) (fun _ => ?_) (fun _ => ?_)
  · refine SndP.mk ?_
    exact (.refl _ _)
  · refine SndP.mk ?_
    exact (.refl _ _)

theorem execGetVendorDefinedMessageSupport_keeps (a0 : Bool) (a1 : Byte) (a2 : Byte) (a3 : Byte) (s : State) :
    NextP (StateKeeps 4456448 s) (execGetVendorDefinedMessageSupport a0 a1 a2 a3 s) := by
  unfold execGetVendorDefinedMessageSupport
  refine onBinding_keeps ?_ rfl
  exact DevKeeps.stepSnd (DevKeeps.step (.refl _ _) (wakeIdle_keeps _) rfl) (mcVendor_keeps _ _) rfl

theorem miDataStructure_keeps (a0 : ℕ) (d : Dev) :
    SndP (DevKeeps 0 d) (miDataStructure a0 d) := by
  unfold miDataStructure
  refine iteP (P := SndP (DevKeeps 0 d)) (fun _ => ?_) (fun _ => ?_)
  · refine SndP.mk ?_
    exact (.refl _ _)
  · refine SndP.mk ?_
    exact (.refl _ _)

theorem miPoll_keeps (a0 : ℕ) (a1 : ℕ) (a2 : ℕ) (a3 : ℕ) (d : Dev) :
    SndP (DevKeeps 131072 d) (miPoll a0 a1 a2 a3 d) := by
  unfold miPoll
  extract_lets -merge -underBinder +onlyGivenNames x0
  clear_value x0
  refine SndP.mk ?_
  refine iteP (P := DevKeeps 131072 d) (fun _ => ?_) (fun _ => ?_)
  · exact (DevKeeps.step (.refl _ _) (Dev.modJnm_keeps _ _) rfl)
  · exact (.refl _ _)

theorem miConfigGet_keeps (a0 : ℕ) (d : Dev) :
    SndP (DevKeeps 0 d) (miConfigGet a0 d) := by
  unfold miConfigGet
  split
  · refine SndP.mk ?_
    exact (.refl _ _)
  · refine SndP.mk ?_
    exact (.refl _ _)
  · refine SndP.mk ?_
    exact (.refl _ _)
  · refine SndP.mk ?_
    exact (.refl _ _)

theorem miConfigSet_keeps (a0 : ℕ) (a1 : ℕ) (a2 : ℕ) (d : Dev) :
    SndP (DevKeeps 131072 d) (miConfigSet a0 a1 a2 d) := by
  unfold miConfigSet
  split
  · extract_lets -merge -underBinder +onlyGivenNames x0
    clear_value x0
    refine iteP (P := SndP (DevKeeps 131072 d)) (fun _ => ?_) (fun _ => ?_)
    · refine SndP.mk ?_
      exact (DevKeeps.step (.refl _ _) (Dev.modJnm_keeps _ _) rfl)
    · refine SndP.mk ?_
      exact (.refl _ _)
  · refine SndP.mk ?_
    exact (DevKeeps.step (.refl _ _) (Dev.modJnm_keeps _ _) rfl)
  · refine iteP (P := SndP (DevKeeps 131072 d)) (fun _ => ?_) (fun _ => ?_)
    · refine SndP.mk ?_
      exact (.refl _ _)
    · refine SndP.mk ?_
      exact (.refl _ _)
  · refine SndP.mk ?_
    exact (.refl _ _)

theorem miVpd_keeps (a0 : ℕ) (a1 : ℕ) (d : Dev) :
    SndP (DevKeeps 0 d) (miVpd a0 a1 d) := by
  unfold miVpd
  refine SndP.mk ?_
  exact (.refl _ _)

theorem miRow_keeps {m : Nat} {i : Bool} {src tag : Byte} {f : Dev → MiReply × Dev} {s : State}
    (h : SndP (DevKeeps m s.dev) (f (wakeIdle s.dev))) (hm : m ||| 4194304 = m) : NextP (StateKeeps m s) (miRow i src tag f s) :=
  onBinding_keeps h hm

theorem execReadNvmeMiDataStructure_keeps (a0 : Bool) (a1 : Byte) (a2 : Byte) (a3 : Word) (a4 : Word) (s : State) :
    NextP (StateKeeps 4456448 s) (execReadNvmeMiDataStructure a0 a1 a2 a3 a4 s) := by
  unfold execReadNvmeMiDataStructure
  refine miRow_keeps ?_ rfl
  exact DevKeeps.stepSnd (DevKeeps.step (.refl _ _) (wakeIdle_keeps _) rfl) (miDataStructure_keeps _ _) rfl

theorem execNvmSubsystemHealthStatusPoll_keeps (a0 : Bool) (a1 : Byte) (a2 : Byte) (a3 : Word) (a4 : Word) (s : State) :
    NextP (StateKeeps 4587520 s) (execNvmSubsystemHealthStatusPoll a0 a1 a2 a3 a4 s) := by
  unfold execNvmSubsystemHealthStatusPoll
  refine miRow_keeps ?_ rfl
  exact DevKeeps.stepSnd (DevKeeps.step (.refl _ _) (wakeIdle_keeps _) rfl) (miPoll_keeps _ _ _ _ _) rfl

theorem execControllerHealthStatusPoll_keeps (a0 : Bool) (a1 : Byte) (a2 : Byte) (a3 : Word) (a4 : Word) (s : State) :
    NextP (StateKeeps 4587520 s) (execControllerHealthStatusPoll a0 a1 a2 a3 a4 s) := by
  unfold execControllerHealthStatusPoll
  refine miRow_keeps ?_ rfl
  exact DevKeeps.stepSnd (DevKeeps.step (.refl _ _) (wakeIdle_keeps _) rfl) (miPoll_keeps _ _ _ _ _) rfl

theorem execConfigurationGet_keeps (a0 : Bool) (a1 : Byte) (a2 : Byte) (a3 : Word) (a4 : Word) (s : State) :
    NextP (StateKeeps 4456448 s) (execConfigurationGet a0 a1 a2 a3 a4 s) := by
  unfold execConfigurationGet
  refine miRow_keeps ?_ rfl
  exact DevKeeps.stepSnd (DevKeeps.step (.refl _ _) (wakeIdle_keeps _) rfl) (miConfigGet_keeps _ _) rfl

theorem execConfigurationSet_keeps (a0 : Bool) (a1 : Byte) (a2 : Byte) (a3 : Word) (a4 : Word) (s : State) :
    NextP (StateKeeps 4587520 s) (execConfigurationSet a0 a1 a2 a3 a4 s) := by
  unfold execConfigurationSet
  refine miRow_keeps ?_ rfl
  exact DevKeeps.stepSnd (DevKeeps.step (.refl _ _) (wakeIdle_keeps _) rfl) (miConfigSet_keeps _ _ _ _) rfl

theorem execVpdRead_keeps (a0 : Bool) (a1 : Byte) (a2 : Byte) (a3 : Word) (a4 : Word) (s : State) :
    NextP (StateKeeps 4456448 s) (execVpdRead a0 a1 a2 a3 a4 s) := by
  unfold execVpdRead
  refine miRow_keeps ?_ rfl
  exact DevKeeps.stepSnd (DevKeeps.step (.refl _ _) (wakeIdle_keeps _) rfl) (miVpd_keeps _ _ _) rfl

theorem miFinish_keeps (a0 : ℕ) (a1 : MiReply) (d : Dev) :
    DevKeeps 4096 d (miFinish a0 a1 d) := by
  unfold miFinish
  exact (DevKeeps.step (.refl _ _) (finish_keeps _ _ _) rfl)

theorem miSend_keeps (a0 : ℕ) (a1 : Slot) (d : Dev) :
    DevKeeps 135168 d (miSend a0 a1 d) := by
  unfold miSend
  split
  · rename_i v0_0 v0_1 q0
    have h1 : DevKeeps 135168 d v0_1 := by
      refine SndP.get (P := (DevKeeps 135168 d)) ?_ q0
      refine iteP (P := SndP (DevKeeps 135168 d)) (fun _ => ?_) (fun _ => ?_)
      · exact DevKeeps.stepSnd (.refl _ _) (miConfigSet_keeps _ _ _ _) rfl
      · refine SndP.mk ?_
        exact (.refl _ _)
    exact (DevKeeps.step h1 (miFinish_keeps _ _ _) rfl)

theorem execNvmeMiSend_keeps (a0 : Fin 131072) (a1 : List Byte) (s : State) :
    NextP (StateKeeps 135168 s) (execNvmeMiSend a0 a1 s) := by
  unfold execNvmeMiSend
  refine onDev_keeps ?_
  beta_reduce
  refine onSlot_keeps ?_ rfl (fun z0 => ?_)
  · exact (.refl _ _)
  · beta_reduce
    refine OkP.ok ?_
    exact (DevKeeps.step (.refl _ _) (miSend_keeps _ _ _) rfl)

theorem miReceive_keeps (a0 : ℕ) (a1 : Slot) (d : Dev) :
    DevKeeps 4329472 d (miReceive a0 a1 d) := by
  unfold miReceive
  extract_lets -merge -underBinder +onlyGivenNames x0
  clear_value x0
  extract_lets -merge -underBinder +onlyGivenNames x1
  clear_value x1
  extract_lets -merge -underBinder +onlyGivenNames x2
  clear_value x2
  split
  · rename_i v3_0 v3_1 q3
    have h4 : DevKeeps 4329472 d v3_1 := by
      refine SndP.get (P := (DevKeeps 4329472 d)) ?_ q3
      split
      · exact DevKeeps.stepSnd (.refl _ _) (miDataStructure_keeps _ _) rfl
      · exact DevKeeps.stepSnd (.refl _ _) (miPoll_keeps _ _ _ _ _) rfl
      · exact DevKeeps.stepSnd (.refl _ _) (miPoll_keeps _ _ _ _ _) rfl
      · exact DevKeeps.stepSnd (.refl _ _) (miConfigGet_keeps _ _) rfl
      · exact DevKeeps.stepSnd (.refl _ _) (miVpd_keeps _ _ _) rfl
      · refine SndP.mk ?_
        exact (.refl _ _)
    refine DevKeeps.step ?_ (miFinish_keeps _ _ _) rfl
    refine iteP (P := DevKeeps 4329472 d) (fun _ => ?_) (fun _ => ?_)
    · exact h4
    · exact (DevKeeps.step h4 (Dev.send_keeps _ _) rfl)

theorem execNvmeMiReceive_keeps (a0 : Fin 131072) (s : State) :
    NextP (StateKeeps 4329472 s) (execNvmeMiReceive a0 s) := by
  unfold execNvmeMiReceive
  refine onDev_keeps ?_
  beta_reduce
  refine onSlot_keeps ?_ rfl (fun z0 => ?_)
  · exact (.refl _ _)
  · beta_reduce
    refine OkP.ok ?_
    exact (DevKeeps.step (.refl _ _) (miReceive_keeps _ _ _) rfl)

end Sys2Proof.Machine
end

