-- ==== Sys2Proof/Laws/KeepSpdm.lean ====
section
/-! SUPPORT. What each operation of Machine/Spdm.lean leaves as it was. -/

namespace Sys2Proof.Machine

theorem Dev.modSpdm_keeps (d : Dev) (a1 : ℕ) (a2 : Spdm → Spdm) :
    DevKeeps 4096 d (Dev.modSpdm d a1 a2) := by
  unfold Dev.modSpdm
  exact (DevKeeps.step (.refl _ _) (Dev.modHost_keeps _ _) rfl)

theorem onMailbox_keeps {m p : Nat} {f : Dev → Dev} {s : State} (h : DevKeeps m s.dev (f s.dev)) :
    NextP (StateKeeps m s) (onMailbox p f s) := onDev_keeps (onlyIf_keeps h)

theorem spdmReply_keeps (a0 : ℕ) (a1 : ℕ) (a2 : List ℕ) (d : Dev) :
    DevKeeps 4194304 d (spdmReply a0 a1 a2 d) := by
  unfold spdmReply
  exact (DevKeeps.step (.refl _ _) (Dev.send_keeps _ _) rfl)

theorem spdmError_keeps (a0 : ℕ) (a1 : ℕ) (d : Dev) :
    DevKeeps 4194304 d (spdmError a0 a1 d) := by
  unfold spdmError
  exact (DevKeeps.step (.refl _ _) (spdmReply_keeps _ _ _ _) rfl)

theorem doeDiscovery_keeps (a0 : ℕ) (a1 : ℕ) (d : Dev) :
    DevKeeps 4194304 d (doeDiscovery a0 a1 d) := by
  unfold doeDiscovery
  extract_lets -merge -underBinder +onlyGivenNames x0
  clear_value x0
  exact (DevKeeps.step (.refl _ _) (Dev.send_keeps _ _) rfl)

theorem execDoeDiscovery_keeps (a0 : Fin 2) (a1 : Byte) (s : State) :
    NextP (StateKeeps 4194304 s) (execDoeDiscovery a0 a1 s) := by
  unfold execDoeDiscovery
  refine onMailbox_keeps ?_
  exact (DevKeeps.step (.refl _ _) (doeDiscovery_keeps _ _ _) rfl)

theorem getVersion_keeps (a0 : ℕ) (d : Dev) :
    DevKeeps 4198400 d (getVersion a0 d) := by
  unfold getVersion
  exact (DevKeeps.step (DevKeeps.step (.refl _ _) (Dev.modSpdm_keeps _ _ _) rfl) (spdmReply_keeps _ _ _ _) rfl)

theorem execSpdmGetVersion_keeps (a0 : Fin 2) (s : State) :
    NextP (StateKeeps 4198400 s) (execSpdmGetVersion a0 s) := by
  unfold execSpdmGetVersion
  refine onMailbox_keeps ?_
  exact (DevKeeps.step (.refl _ _) (getVersion_keeps _ _) rfl)

theorem getCapabilities_keeps (a0 : ℕ) (a1 : ℕ) (d : Dev) :
    DevKeeps 4198400 d (getCapabilities a0 a1 d) := by
  unfold getCapabilities
  extract_lets -merge -underBinder +onlyGivenNames x0
  clear_value x0
  refine iteP (P := DevKeeps 4198400 d) (fun _ => ?_) (fun _ => ?_)
  · exact (DevKeeps.step (.refl _ _) (spdmError_keeps _ _ _) rfl)
  · refine iteP (P := DevKeeps 4198400 d) (fun _ => ?_) (fun _ => ?_)
    · exact (DevKeeps.step (.refl _ _) (spdmError_keeps _ _ _) rfl)
    · exact (DevKeeps.step (DevKeeps.step (.refl _ _) (Dev.modSpdm_keeps _ _ _) rfl) (spdmReply_keeps _ _ _ _) rfl)

theorem execSpdmGetCapabilities_keeps (a0 : Fin 2) (a1 : Byte) (s : State) :
    NextP (StateKeeps 4198400 s) (execSpdmGetCapabilities a0 a1 s) := by
  unfold execSpdmGetCapabilities
  refine onMailbox_keeps ?_
  exact (DevKeeps.step (.refl _ _) (getCapabilities_keeps _ _ _) rfl)

theorem negotiate_keeps (a0 : ℕ) (a1 : ℕ) (d : Dev) :
    DevKeeps 4198400 d (negotiate a0 a1 d) := by
  unfold negotiate
  refine iteP (P := DevKeeps 4198400 d) (fun _ => ?_) (fun _ => ?_)
  · exact (DevKeeps.step (DevKeeps.step (.refl _ _) (Dev.modSpdm_keeps _ _ _) rfl) (spdmReply_keeps _ _ _ _) rfl)
  · exact (DevKeeps.step (.refl _ _) (spdmError_keeps _ _ _) rfl)

theorem execSpdmNegotiateAlgorithms_keeps (a0 : Fin 2) (a1 : Bool) (a2 : Bool) (a3 : Bool) (a4 : Bool) (s : State) :
    NextP (StateKeeps 4198400 s) (execSpdmNegotiateAlgorithms a0 a1 a2 a3 a4 s) := by
  unfold execSpdmNegotiateAlgorithms
  refine onMailbox_keeps ?_
  exact (DevKeeps.step (.refl _ _) (negotiate_keeps _ _ _) rfl)

theorem afterNegotiation_keeps {m p : Nat} {l : List Nat} {f : Dev → Dev} {d0 d : Dev} (hd : DevKeeps m d0 d) (h : DevKeeps m d0 (f d))
    (hm : m ||| 4194304 = m) : DevKeeps m d0 (afterNegotiation p l f d) := by
  unfold afterNegotiation
  try dsimp only
  split
  · exact hd.step (spdmError_keeps _ _ _) hm
  · split
    · exact h
    · exact hd.step (spdmError_keeps _ _ _) hm

theorem getDigests_keeps (a0 : ℕ) (d : Dev) :
    DevKeeps 4194304 d (getDigests a0 d) := by
  unfold getDigests
  extract_lets -merge -underBinder +onlyGivenNames x0
  clear_value x0
  exact (DevKeeps.step (.refl _ _) (spdmReply_keeps _ _ _ _) rfl)

theorem execSpdmGetDigests_keeps (a0 : Fin 2) (s : State) :
    NextP (StateKeeps 4194304 s) (execSpdmGetDigests a0 s) := by
  unfold execSpdmGetDigests
  refine onMailbox_keeps ?_
  refine afterNegotiation_keeps ?_ ?_ rfl
  · exact (.refl _ _)
  · exact (DevKeeps.step (.refl _ _) (getDigests_keeps _ _) rfl)

theorem getCertificate_keeps (a0 : ℕ) (a1 : ℕ) (a2 : ℕ) (a3 : ℕ) (d : Dev) :
    DevKeeps 4194304 d (getCertificate a0 a1 a2 a3 d) := by
  unfold getCertificate
  split
  · extract_lets -merge -underBinder +onlyGivenNames x0
    clear_value x0
    refine iteP (P := DevKeeps 4194304 d) (fun _ => ?_) (fun _ => ?_)
    · exact (DevKeeps.step (.refl _ _) (spdmError_keeps _ _ _) rfl)
    · exact (DevKeeps.step (.refl _ _) (spdmReply_keeps _ _ _ _) rfl)
  · exact (DevKeeps.step (.refl _ _) (spdmError_keeps _ _ _) rfl)

theorem execSpdmGetCertificate_keeps (a0 : Fin 2) (a1 : Fin 8) (a2 : BitVec 16) (a3 : BitVec 16) (s : State) :
    NextP (StateKeeps 4194304 s) (execSpdmGetCertificate a0 a1 a2 a3 s) := by
  unfold execSpdmGetCertificate
  refine onMailbox_keeps ?_
  refine afterNegotiation_keeps ?_ ?_ rfl
  · exact (.refl _ _)
  · exact (DevKeeps.step (.refl _ _) (getCertificate_keeps _ _ _ _ _) rfl)

theorem challenge_keeps (a0 : ℕ) (a1 : ℕ) (a2 : ℕ) (d : Dev) :
    DevKeeps 4194305 d (challenge a0 a1 a2 d) := by
  unfold challenge
  extract_lets -merge -underBinder +onlyGivenNames x0
  clear_value x0
  refine iteP (P := DevKeeps 4194305 d) (fun _ => ?_) (fun _ => ?_)
  · exact (DevKeeps.step (.refl _ _) (spdmError_keeps _ _ _) rfl)
  · exact (DevKeeps.step (DevKeeps.step (.refl _ _) (Dev.tick_keeps _ _) rfl) (spdmReply_keeps _ _ _ _) rfl)

theorem execSpdmChallenge_keeps (a0 : Fin 2) (a1 : Fin 8) (a2 : BitVec 256) (s : State) :
    NextP (StateKeeps 4194305 s) (execSpdmChallenge a0 a1 a2 s) := by
  unfold execSpdmChallenge
  refine onMailbox_keeps ?_
  refine afterNegotiation_keeps ?_ ?_ rfl
  · exact (.refl _ _)
  · exact (DevKeeps.step (.refl _ _) (challenge_keeps _ _ _ _) rfl)

theorem getMeasurements_keeps (a0 : ℕ) (a1 : ℕ) (a2 : Bool) (a3 : ℕ) (d : Dev) :
    DevKeeps 4194305 d (getMeasurements a0 a1 a2 a3 d) := by
  unfold getMeasurements
  extract_lets -merge -underBinder +onlyGivenNames x0
  clear_value x0
  refine iteP (P := DevKeeps 4194305 d) (fun _ => ?_) (fun _ => ?_)
  · exact (DevKeeps.step (.refl _ _) (spdmError_keeps _ _ _) rfl)
  · exact (DevKeeps.step (DevKeeps.step (.refl _ _) (Dev.tick_keeps _ _) rfl) (spdmReply_keeps _ _ _ _) rfl)

theorem execSpdmGetMeasurements_keeps (a0 : Fin 2) (a1 : Byte) (a2 : Bool) (a3 : BitVec 256) (s : State) :
    NextP (StateKeeps 4194305 s) (execSpdmGetMeasurements a0 a1 a2 a3 s) := by
  unfold execSpdmGetMeasurements
  refine onMailbox_keeps ?_
  refine afterNegotiation_keeps ?_ ?_ rfl
  · exact (.refl _ _)
  · exact (DevKeeps.step (.refl _ _) (getMeasurements_keeps _ _ _ _ _) rfl)

theorem spdmKeyExchange_keeps (a0 : ℕ) (a1 : ℕ) (a2 : ℕ) (a3 : BitVec 768) (d : Dev) :
    DevKeeps 4198401 d (spdmKeyExchange a0 a1 a2 a3 d) := by
  unfold spdmKeyExchange
  extract_lets -merge -underBinder +onlyGivenNames x0
  clear_value x0
  extract_lets -merge -underBinder +onlyGivenNames x1
  clear_value x1
  extract_lets -merge -underBinder +onlyGivenNames x2
  clear_value x2
  extract_lets -merge -underBinder +onlyGivenNames x3
  have h3 : DevKeeps 4198401 d x3 := by
    subst x3
    exact (DevKeeps.step (.refl _ _) (Dev.modSpdm_keeps _ _ _) rfl)
  clear_value x3
  refine iteP (P := DevKeeps 4198401 d) (fun _ => ?_) (fun _ => ?_)
  · exact (DevKeeps.step (.refl _ _) (spdmError_keeps _ _ _) rfl)
  · refine iteP (P := DevKeeps 4198401 d) (fun _ => ?_) (fun _ => ?_)
    · exact (DevKeeps.step (.refl _ _) (spdmError_keeps _ _ _) rfl)
    · exact (DevKeeps.step (DevKeeps.step h3 (Dev.tick_keeps _ _) rfl) (spdmReply_keeps _ _ _ _) rfl)

theorem execSpdmKeyExchange_keeps (a0 : Fin 2) (a1 : Fin 8) (a2 : BitVec 256) (a3 : BitVec 768) (s : State) :
    NextP (StateKeeps 4198401 s) (execSpdmKeyExchange a0 a1 a2 a3 s) := by
  unfold execSpdmKeyExchange
  refine onMailbox_keeps ?_
  refine afterNegotiation_keeps ?_ ?_ rfl
  · exact (.refl _ _)
  · exact (DevKeeps.step (.refl _ _) (spdmKeyExchange_keeps _ _ _ _ _) rfl)

theorem dropSession_keeps (a0 : ℕ) (a1 : ℕ) (d : Dev) :
    DevKeeps 4096 d (dropSession a0 a1 d) := by
  unfold dropSession
  exact (DevKeeps.step (.refl _ _) (Dev.modSpdm_keeps _ _ _) rfl)

theorem spdmFinish_keeps (a0 : ℕ) (a1 : ℕ) (a2 : Bool) (d : Dev) :
    DevKeeps 4198400 d (spdmFinish a0 a1 a2 d) := by
  unfold spdmFinish
  refine iteP (P := DevKeeps 4198400 d) (fun _ => ?_) (fun _ => ?_)
  · exact (DevKeeps.step (.refl _ _) (spdmError_keeps _ _ _) rfl)
  · refine iteP (P := DevKeeps 4198400 d) (fun _ => ?_) (fun _ => ?_)
    · exact (DevKeeps.step (DevKeeps.step (.refl _ _) (dropSession_keeps _ _ _) rfl) (spdmError_keeps _ _ _) rfl)
    · exact (DevKeeps.step (DevKeeps.step (.refl _ _) (Dev.modSpdm_keeps _ _ _) rfl) (spdmReply_keeps _ _ _ _) rfl)

theorem execSpdmFinish_keeps (a0 : Fin 2) (a1 : BitVec 16) (a2 : Bool) (s : State) :
    NextP (StateKeeps 4198400 s) (execSpdmFinish a0 a1 a2 s) := by
  unfold execSpdmFinish
  refine onMailbox_keeps ?_
  exact (DevKeeps.step (.refl _ _) (spdmFinish_keeps _ _ _ _) rfl)

theorem secureReply_keeps (a0 : ℕ) (a1 : ℕ) (a2 : ℕ) (a3 : List ℕ) (d : Dev) :
    DevKeeps 4194304 d (secureReply a0 a1 a2 a3 d) := by
  unfold secureReply
  split
  · extract_lets -merge -underBinder +onlyGivenNames x0
    clear_value x0
    exact (DevKeeps.step (.refl _ _) (Dev.send_keeps _ _) rfl)
  · exact (DevKeeps.step (.refl _ _) (spdmReply_keeps _ _ _ _) rfl)

theorem inSession_keeps {m p n : Nat} {f : Dev → Dev} {d0 d : Dev} (hd : DevKeeps m d0 d) (h : DevKeeps m d0 (f d))
    (hm : m ||| 4194304 = m) : DevKeeps m d0 (inSession p n f d) := by
  unfold inSession
  split
  · exact h
  · exact hd.step (spdmError_keeps _ _ _) hm

theorem execSpdmHeartbeat_keeps (a0 : Fin 2) (a1 : BitVec 16) (s : State) :
    NextP (StateKeeps 4194304 s) (execSpdmHeartbeat a0 a1 s) := by
  unfold execSpdmHeartbeat
  refine onMailbox_keeps ?_
  refine inSession_keeps ?_ ?_ rfl
  · exact (.refl _ _)
  · exact (DevKeeps.step (.refl _ _) (secureReply_keeps _ _ _ _ _) rfl)

theorem keyUpdate_keeps (a0 : ℕ) (a1 : ℕ) (a2 : ℕ) (d : Dev) :
    DevKeeps 4198400 d (keyUpdate a0 a1 a2 d) := by
  unfold keyUpdate
  refine iteP (P := DevKeeps 4198400 d) (fun _ => ?_) (fun _ => ?_)
  · exact (DevKeeps.step (DevKeeps.step (.refl _ _) (Dev.modSpdm_keeps _ _ _) rfl) (secureReply_keeps _ _ _ _ _) rfl)
  · exact (DevKeeps.step (.refl _ _) (spdmError_keeps _ _ _) rfl)

theorem execSpdmKeyUpdate_keeps (a0 : Fin 2) (a1 : BitVec 16) (a2 : Byte) (s : State) :
    NextP (StateKeeps 4198400 s) (execSpdmKeyUpdate a0 a1 a2 s) := by
  unfold execSpdmKeyUpdate
  refine onMailbox_keeps ?_
  refine inSession_keeps ?_ ?_ rfl
  · exact (.refl _ _)
  · exact (DevKeeps.step (.refl _ _) (keyUpdate_keeps _ _ _ _) rfl)

theorem execSpdmEndSession_keeps (a0 : Fin 2) (a1 : BitVec 16) (s : State) :
    NextP (StateKeeps 4198400 s) (execSpdmEndSession a0 a1 s) := by
  unfold execSpdmEndSession
  refine onMailbox_keeps ?_
  refine inSession_keeps ?_ ?_ rfl
  · exact (.refl _ _)
  · beta_reduce
    exact (DevKeeps.step (DevKeeps.step (.refl _ _) (secureReply_keeps _ _ _ _ _) rfl) (dropSession_keeps _ _ _) rfl)

theorem ideKm_keeps (a0 : ℕ) (a1 : ℕ) (a2 : Bool) (d : Dev) :
    DevKeeps 4198400 d (ideKm a0 a1 a2 d) := by
  unfold ideKm
  refine iteP (P := DevKeeps 4198400 d) (fun _ => ?_) (fun _ => ?_)
  · exact (DevKeeps.step (DevKeeps.step (.refl _ _) (Dev.modPort_keeps _ _ _) rfl) (Dev.send_keeps _ _) rfl)
  · refine iteP (P := DevKeeps 4198400 d) (fun _ => ?_) (fun _ => ?_)
    · exact (DevKeeps.step (DevKeeps.step (.refl _ _) (Dev.modPort_keeps _ _ _) rfl) (Dev.send_keeps _ _) rfl)
    · exact (DevKeeps.step (.refl _ _) (Dev.send_keeps _ _) rfl)

theorem execIdeKmRequest_keeps (a0 : Fin 2) (a1 : BitVec 16) (a2 : Fin 9) (a3 : Bool) (s : State) :
    NextP (StateKeeps 4198400 s) (execIdeKmRequest a0 a1 a2 a3 s) := by
  unfold execIdeKmRequest
  refine onMailbox_keeps ?_
  refine inSession_keeps ?_ ?_ rfl
  · exact (.refl _ _)
  · exact (DevKeeps.step (.refl _ _) (ideKm_keeps _ _ _ _) rfl)

end Sys2Proof.Machine
end

