-- ==== Sys2Proof/Laws/KeepDalesk.lean ====
section
/-! SUPPORT. What each operation of Machine/Dalesk.lean leaves as it was. -/

namespace Sys2Proof.Machine

theorem laneFault_keeps (d : Dev) :
    DevKeeps 0x30000002 d (laneFault d) := by
  unfold laneFault
  refine iteP (P := DevKeeps 0x30000002 d) (fun _ => ?_) (fun _ => ?_)
  · exact (DevKeeps.step (.refl _ _) (faultOn_keeps _ _) rfl)
  · exact (DevKeeps.step (.refl _ _) (faultOff_keeps _ _) rfl)

theorem masterWatch_keeps (d : Dev) :
    DevKeeps 2097152 d (masterWatch d) := by
  unfold masterWatch
  exact (DevKeeps.step (.refl _ _) (Dev.modDlk_keeps _ _) rfl)

theorem dlkDown_keeps (a0 : ℕ) (d : Dev) :
    DevKeeps 0x8000000000000000000000000000000000000000000000000000000000000000000030600002 d (dlkDown a0 d) := by
  unfold dlkDown
  extract_lets -merge -underBinder +onlyGivenNames x0
  clear_value x0
  extract_lets -merge -underBinder +onlyGivenNames x1
  clear_value x1
  extract_lets -merge -underBinder +onlyGivenNames x2
  clear_value x2
  extract_lets -merge -underBinder +onlyGivenNames x3
  have h3 : DevKeeps 0x8000000000000000000000000000000000000000000000000000000000000000000030600002 d x3 := by
    subst x3
    exact (DevKeeps.step (DevKeeps.step (.refl _ _) (Dev.modDlkPort_keeps _ _ _) rfl) (Dev.wr_keeps _ _ _) (by rfl))
  clear_value x3
  extract_lets -merge -underBinder +onlyGivenNames x4
  have h4 : DevKeeps 0x8000000000000000000000000000000000000000000000000000000000000000000030600002 d x4 := by
    subst x4
    exact (DevKeeps.step (DevKeeps.step h3 (laneFault_keeps _) rfl) (masterWatch_keeps _) rfl)
  clear_value x4
  refine iteP (P := DevKeeps 0x8000000000000000000000000000000000000000000000000000000000000000000030600002 d) (fun _ => ?_) (fun _ => ?_)
  · exact (DevKeeps.step (DevKeeps.step (DevKeeps.step (DevKeeps.step h4 (Dev.modDlk_keeps _ _) rfl) (Dev.wr_keeps _ _ _) (by rfl)) (enqueueFlits_keeps _ _ _) rfl) (resend_keeps _ _) rfl)
  · exact h4

theorem replayFlits_keeps (a0 : ℕ) (d : Dev) :
    DevKeeps 0xA000000000000000000000000000000000000000000000000000000000000000000030600002 d (replayFlits a0 d) := by
  unfold replayFlits
  extract_lets -merge -underBinder +onlyGivenNames x0
  clear_value x0
  extract_lets -merge -underBinder +onlyGivenNames x1
  have h1 : DevKeeps 0xA000000000000000000000000000000000000000000000000000000000000000000030600002 d x1 := by
    subst x1
    refine iteP (P := DevKeeps 0xA000000000000000000000000000000000000000000000000000000000000000000030600002 d) (fun _ => ?_) (fun _ => ?_)
    · exact (DevKeeps.step (.refl _ _) (Dev.add_keeps _ _ _) (by rfl))
    · exact (DevKeeps.step (.refl _ _) (Dev.add_keeps _ _ _) (by rfl))
  clear_value x1
  extract_lets -merge -underBinder +onlyGivenNames x2
  have h2 : DevKeeps 0xA000000000000000000000000000000000000000000000000000000000000000000030600002 d x2 := by
    subst x2
    refine DevKeeps.foldl ?_ (fun y3 a3 h3 => ?_)
    · exact h1
    · beta_reduce
      exact (DevKeeps.step h3 (Dev.send_keeps _ _) rfl)
  clear_value x2
  refine iteP (P := DevKeeps 0xA000000000000000000000000000000000000000000000000000000000000000000030600002 d) (fun _ => ?_) (fun _ => ?_)
  · exact (.refl _ _)
  · refine iteP (P := DevKeeps 0xA000000000000000000000000000000000000000000000000000000000000000000030600002 d) (fun _ => ?_) (fun _ => ?_)
    · exact (DevKeeps.step h2 (dlkDown_keeps _ _) rfl)
    · exact (DevKeeps.step h2 (Dev.modDlkPort_keeps _ _ _) rfl)

theorem takeAck_keeps (a0 : ℕ) (a1 : BitVec 12) (d : Dev) :
    DevKeeps 6291456 d (takeAck a0 a1 d) := by
  unfold takeAck
  extract_lets -merge -underBinder +onlyGivenNames x0
  clear_value x0
  extract_lets -merge -underBinder +onlyGivenNames x1
  have h1 : DevKeeps 6291456 d x1 := by
    subst x1
    exact (DevKeeps.step (.refl _ _) (Dev.modDlkPort_keeps _ _ _) rfl)
  clear_value x1
  refine iteP (P := DevKeeps 6291456 d) (fun _ => ?_) (fun _ => ?_)
  · exact (DevKeeps.step h1 (transmit_keeps _ _ _) rfl)
  · exact (.refl _ _)

theorem sendAck_keeps (a0 : ℕ) (d : Dev) :
    DevKeeps 6291456 d (sendAck a0 d) := by
  unfold sendAck
  exact (DevKeeps.step (DevKeeps.step (.refl _ _) (Dev.send_keeps _ _) rfl) (Dev.modDlkPort_keeps _ _ _) rfl)

theorem forwardFlit_keeps (a0 : ℕ) (a1 : DlkFlit) (d : Dev) :
    DevKeeps 6291456 d (forwardFlit a0 a1 d) := by
  unfold forwardFlit
  refine iteP (P := DevKeeps 6291456 d) (fun _ => ?_) (fun _ => ?_)
  · exact (.refl _ _)
  · exact (DevKeeps.step (.refl _ _) (enqueueFlits_keeps _ _ _) rfl)

theorem acceptFlit_keeps (a0 : ℕ) (a1 : DlkFlit) (d : Dev) :
    DevKeeps 6291456 d (acceptFlit a0 a1 d) := by
  unfold acceptFlit
  extract_lets -merge -underBinder +onlyGivenNames x0
  have h0 : DevKeeps 6291456 d x0 := by
    subst x0
    exact (DevKeeps.step (.refl _ _) (Dev.modDlkPort_keeps _ _ _) rfl)
  clear_value x0
  refine DevKeeps.step ?_ (forwardFlit_keeps _ _ _) rfl
  refine iteP (P := DevKeeps 6291456 d) (fun _ => ?_) (fun _ => ?_)
  · exact (DevKeeps.step h0 (sendAck_keeps _ _) rfl)
  · exact h0

theorem dataFlit_keeps (a0 : ℕ) (a1 : DlkFlit) (d : Dev) :
    DevKeeps 0x4000000000000000000000000000000000000000000000000000000000000000000000600002 d (dataFlit a0 a1 d) := by
  unfold dataFlit
  extract_lets -merge -underBinder +onlyGivenNames x0
  clear_value x0
  extract_lets -merge -underBinder +onlyGivenNames x1
  clear_value x1
  refine iteP (P := DevKeeps 0x4000000000000000000000000000000000000000000000000000000000000000000000600002 d) (fun _ => ?_) (fun _ => ?_)
  · exact (DevKeeps.step (.refl _ _) (Dev.send_keeps _ _) rfl)
  · refine iteP (P := DevKeeps 0x4000000000000000000000000000000000000000000000000000000000000000000000600002 d) (fun _ => ?_) (fun _ => ?_)
    · exact (DevKeeps.step (.refl _ _) (acceptFlit_keeps _ _ _) rfl)
    · exact (DevKeeps.step (.refl _ _) (Dev.add_keeps _ _ _) (by rfl))

theorem takeFlit_keeps (a0 : ℕ) (a1 : DlkFlit) (d : Dev) :
    DevKeeps 0xE000000000000000000000000000000000000000000000000000000000000000000030600002 d (takeFlit a0 a1 d) := by
  unfold takeFlit
  refine iteP (P := DevKeeps 0xE000000000000000000000000000000000000000000000000000000000000000000030600002 d) (fun _ => ?_) (fun _ => ?_)
  · exact (DevKeeps.step (.refl _ _) (dataFlit_keeps _ _ _) rfl)
  · refine iteP (P := DevKeeps 0xE000000000000000000000000000000000000000000000000000000000000000000030600002 d) (fun _ => ?_) (fun _ => ?_)
    · exact (.refl _ _)
    · refine iteP (P := DevKeeps 0xE000000000000000000000000000000000000000000000000000000000000000000030600002 d) (fun _ => ?_) (fun _ => ?_)
      · exact (DevKeeps.step (.refl _ _) (takeAck_keeps _ _ _) rfl)
      · exact (DevKeeps.step (.refl _ _) (replayFlits_keeps _ _) rfl)

theorem execDaleskFlitReceive_keeps (a0 : Fin 2) (a1 : DlkFlit) (s : State) :
    NextP (StateKeeps 0xE000000000000000000000000000000000000000000000000000000000000000000030600002 s) (execDaleskFlitReceive a0 a1 s) := by
  unfold execDaleskFlitReceive
  refine onDev_keeps ?_
  beta_reduce
  refine onlyIf_keeps ?_
  exact (DevKeeps.step (.refl _ _) (takeFlit_keeps _ _ _) rfl)

theorem execDaleskAckSend_keeps (a0 : Fin 2) (s : State) :
    NextP (StateKeeps 6291456 s) (execDaleskAckSend a0 s) := by
  unfold execDaleskAckSend
  refine onDev_keeps ?_
  beta_reduce
  refine onlyIf_keeps ?_
  exact (DevKeeps.step (.refl _ _) (sendAck_keeps _ _) rfl)

theorem execDaleskReplayTimeout_keeps (a0 : Fin 2) (s : State) :
    NextP (StateKeeps 0xA000000000000000000000000000000000000000000000000000000000000000000030600002 s) (execDaleskReplayTimeout a0 s) := by
  unfold execDaleskReplayTimeout
  refine onDev_keeps ?_
  beta_reduce
  refine onlyIf_keeps ?_
  exact (DevKeeps.step (.refl _ _) (replayFlits_keeps _ _) rfl)

theorem execDaleskPortDown_keeps (a0 : Fin 2) (s : State) :
    NextP (StateKeeps 0x8000000000000000000000000000000000000000000000000000000000000000000030600002 s) (execDaleskPortDown a0 s) := by
  unfold execDaleskPortDown
  refine onDev_keeps ?_
  beta_reduce
  refine onlyIf_keeps ?_
  exact (DevKeeps.step (.refl _ _) (dlkDown_keeps _ _) rfl)

theorem laneFail_keeps (a0 : ℕ) (d : Dev) :
    DevKeeps 0x8000000000000000000000000000000000000000000000000000000000000000000030200002 d (laneFail a0 d) := by
  unfold laneFail
  exact (DevKeeps.step (DevKeeps.step (DevKeeps.step (.refl _ _) (Dev.modDlkPort_keeps _ _ _) rfl) (Dev.wr_keeps _ _ _) (by rfl)) (laneFault_keeps _) rfl)

theorem execDaleskLaneFail_keeps (a0 : Fin 2) (s : State) :
    NextP (StateKeeps 0x8000000000000000000000000000000000000000000000000000000000000000000030200002 s) (execDaleskLaneFail a0 s) := by
  unfold execDaleskLaneFail
  refine onDev_keeps ?_
  beta_reduce
  refine onlyIf_keeps ?_
  exact (DevKeeps.step (.refl _ _) (laneFail_keeps _ _) rfl)

theorem seeDevice_keeps (a0 : ℕ) (a1 : ℕ) (d : Dev) :
    DevKeeps 0x8000000000000000000000000000000000000000000000000000000000000000000000200002 d (seeDevice a0 a1 d) := by
  unfold seeDevice
  extract_lets -merge -underBinder +onlyGivenNames x0
  have h0 : DevKeeps 0x8000000000000000000000000000000000000000000000000000000000000000000000200002 d x0 := by
    subst x0
    exact (DevKeeps.step (.refl _ _) (Dev.modDlk_keeps _ _) rfl)
  clear_value x0
  refine iteP (P := DevKeeps 0x8000000000000000000000000000000000000000000000000000000000000000000000200002 d) (fun _ => ?_) (fun _ => ?_)
  · exact (.refl _ _)
  · refine iteP (P := DevKeeps 0x8000000000000000000000000000000000000000000000000000000000000000000000200002 d) (fun _ => ?_) (fun _ => ?_)
    · exact (DevKeeps.step h0 (Dev.wr_keeps _ _ _) (by rfl))
    · refine iteP (P := DevKeeps 0x8000000000000000000000000000000000000000000000000000000000000000000000200002 d) (fun _ => ?_) (fun _ => ?_)
      · exact (DevKeeps.step h0 (Dev.modDlk_keeps _ _) rfl)
      · exact h0

theorem dlkUp_keeps (a0 : ℕ) (a1 : ℕ) (a2 : ℕ) (d : Dev) :
    OkP (DevKeeps 0x180000000000000008000000000000000000000000000000000000000000000000000000000000000000030600852 d) (dlkUp a0 a1 a2 d) := by
  unfold dlkUp
  extract_lets -merge -underBinder +onlyGivenNames x0
  have h0 : DevKeeps 0x180000000000000008000000000000000000000000000000000000000000000000000000000000000000030600852 d x0 := by
    subst x0
    exact (DevKeeps.step (DevKeeps.step (.refl _ _) (Dev.modDlkPort_keeps _ _ _) rfl) (Dev.wr_keeps _ _ _) (by rfl))
  clear_value x0
  extract_lets -merge -underBinder +onlyGivenNames x1
  have h1 : DevKeeps 0x180000000000000008000000000000000000000000000000000000000000000000000000000000000000030600852 d x1 := by
    subst x1
    refine iteP (P := DevKeeps 0x180000000000000008000000000000000000000000000000000000000000000000000000000000000000030600852 d) (fun _ => ?_) (fun _ => ?_)
    · exact (DevKeeps.step h0 (seeDevice_keeps _ _ _) rfl)
    · exact h0
  clear_value x1
  refine iteP (P := OkP (DevKeeps 0x180000000000000008000000000000000000000000000000000000000000000000000000000000000000030600852 d)) (fun _ => ?_) (fun _ => ?_)
  · exact trivial
  · refine OkP.ok ?_
    exact (DevKeeps.step (DevKeeps.step (DevKeeps.step (DevKeeps.step h1 (transmit_keeps _ _ _) rfl) (laneFault_keeps _) rfl) (masterWatch_keeps _) rfl) (beginJobs_keeps _) rfl)

theorem execDaleskPortUp_keeps (a0 : Fin 2) (a1 : Fin 5) (a2 : Fin 4) (s : State) :
    NextP (StateKeeps 0x180000000000000008000000000000000000000000000000000000000000000000000000000000000000030600852 s) (execDaleskPortUp a0 a1 a2 s) := by
  unfold execDaleskPortUp
  refine onDev_keeps ?_
  exact DevKeeps.stepOk (.refl _ _) (dlkUp_keeps _ _ _ _) rfl

theorem newRequest_keeps (a0 : ℕ) (a1 : ℕ) (a2 : DlkRequest) (s : State) :
    StateKeeps 0x1800400000000000080E000E000000000000000000000000000000000000000000000000000000000000000EF5952 s (newRequest a0 a1 a2 s) := by
  unfold newRequest
  split
  · exact (StateKeeps.step (.refl _ _) (packetBy_keeps _ _ _ _ _) rfl)
  · refine StateKeeps.modDev ?_ ?_
    · exact (.refl _ _)
    · beta_reduce
      refine DevKeeps.step ?_ (respondDlk_keeps _ _ _ _ _) rfl
      refine iteP (P := DevKeeps 0x1800400000000000080E000E000000000000000000000000000000000000000000000000000000000000000EF5952 s.dev) (fun _ => ?_) (fun _ => ?_)
      · exact (DevKeeps.step (.refl _ _) (seeDevice_keeps _ _ _) rfl)
      · exact (.refl _ _)
  · refine StateKeeps.step ?_ (afterChan_keeps _ _) rfl
    refine StateKeeps.modDev ?_ ?_
    · exact (.refl _ _)
    · beta_reduce
      exact (DevKeeps.step (DevKeeps.step (.refl _ _) (Dev.modDlk_keeps _ _) rfl) (beginJobs_keeps _) rfl)
  · refine StateKeeps.modDev ?_ ?_
    · exact (.refl _ _)
    · beta_reduce
      exact (DevKeeps.step (DevKeeps.step (.refl _ _) (Dev.modDlk_keeps _ _) rfl) (beginJobs_keeps _) rfl)

theorem daleskRequest_keeps (a0 : ℕ) (a1 : ℕ) (a2 : DlkRequest) (s : State) :
    NextP (StateKeeps 0x18004000000000000C0E000E000000000000000000000000000000000000000000000000000000000000000EF5952 s) (daleskRequest a0 a1 a2 s) := by
  unfold daleskRequest
  extract_lets -merge -underBinder +onlyGivenNames x0
  have h0 : DevKeeps 0x18004000000000000C0E000E000000000000000000000000000000000000000000000000000000000000000EF5952 s.dev x0 := by
    subst x0
    exact (.refl _ _)
  clear_value x0
  refine iteP (P := NextP (StateKeeps 0x18004000000000000C0E000E000000000000000000000000000000000000000000000000000000000000000EF5952 s)) (fun _ => ?_) (fun _ => ?_)
  · exact StateKeeps.stepNext (.refl _ _) (noEvent_keeps _ _) rfl
  · split
    · refine NextP.next ?_
      refine StateKeeps.modDev ?_ ?_
      · exact (.refl _ _)
      · beta_reduce
        exact (DevKeeps.step (DevKeeps.step (.refl _ _) (sendMessage_keeps _ _ _ _ _) rfl) (Dev.add_keeps _ _ _) (by rfl))
    · refine iteP (P := NextP (StateKeeps 0x18004000000000000C0E000E000000000000000000000000000000000000000000000000000000000000000EF5952 s)) (fun _ => ?_) (fun _ => ?_)
      · refine NextP.next ?_
        exact (.refl _ _)
      · refine NextP.next ?_
        exact (StateKeeps.step (.refl _ _) (newRequest_keeps _ _ _ _) rfl)

theorem execDaleskRequestReceive_keeps (a0 : Fin 4) (a1 : Word) (a2 : DlkRequest) (s : State) :
    NextP (StateKeeps 0x18004000000000000C0E000E000000000000000000000000000000000000000000000000000000000000000EF5952 s) (execDaleskRequestReceive a0 a1 a2 s) := by
  unfold execDaleskRequestReceive
  exact StateKeeps.stepNext (.refl _ _) (daleskRequest_keeps _ _ _ _) rfl

theorem moveDone_keeps (a0 : DlkMove) (d : Dev) :
    DevKeeps 6404096 d (moveDone a0 d) := by
  unfold moveDone
  split
  · exact (DevKeeps.step (.refl _ _) (standsFar_keeps _ _ _ _ _) rfl)
  · exact (DevKeeps.step (.refl _ _) (programmedFar_keeps _ _ _ _ _) rfl)
  · exact (.refl _ _)
  · exact (.refl _ _)

theorem takeLive_keeps (a0 : ℕ) (a1 : Bool) (d : Dev) :
    DevKeeps 0x8000000000000000000000000000000000000000000000000000000000000000000000201002 d (takeLive a0 a1 d) := by
  unfold takeLive
  extract_lets -merge -underBinder +onlyGivenNames x0
  have h0 : DevKeeps 0x8000000000000000000000000000000000000000000000000000000000000000000000201002 d x0 := by
    subst x0
    exact (DevKeeps.step (.refl _ _) (seeDevice_keeps _ _ _) rfl)
  clear_value x0
  refine iteP (P := DevKeeps 0x8000000000000000000000000000000000000000000000000000000000000000000000201002 d) (fun _ => ?_) (fun _ => ?_)
  · exact (DevKeeps.step (DevKeeps.step h0 (Dev.modDlk_keeps _ _) rfl) (answerReady_keeps _) rfl)
  · exact h0

theorem takeReply_keeps (a0 : ℕ) (a1 : List Byte) (s : State) :
    StateKeeps 0xE0000000000000000000000000000000000000000000000000000000000000000000E31802 s (takeReply a0 a1 s) := by
  unfold takeReply
  split
  · exact (StateKeeps.step (StateKeeps.step (.refl _ _) (putReply_keeps _ _ _) rfl) (settleJenam_keeps _) rfl)
  · exact (.refl _ _)

theorem daleskResponse_keeps (a0 : ℕ) (a1 : DlkResponse) (s : State) :
    NextP (StateKeeps 0x80E0000000000000000000000000000000000000000000000000000000000000000000E3BA02 s) (daleskResponse a0 a1 s) := by
  unfold daleskResponse
  split
  · split
    · refine NextP.next ?_
      refine StateKeeps.modDev ?_ ?_
      · exact (.refl _ _)
      · beta_reduce
        exact (DevKeeps.step (DevKeeps.step (.refl _ _) (answered_keeps _ _ _) rfl) (moveDone_keeps _ _) rfl)
    · refine NextP.next ?_
      refine StateKeeps.modDev ?_ ?_
      · exact (.refl _ _)
      · exact (DevKeeps.step (.refl _ _) (answered_keeps _ _ _) rfl)
  · split
    · refine iteP (P := NextP (StateKeeps 0x80E0000000000000000000000000000000000000000000000000000000000000000000E3BA02 s)) (fun _ => ?_) (fun _ => ?_)
      · refine NextP.next ?_
        refine StateKeeps.modDev ?_ ?_
        · exact (.refl _ _)
        · beta_reduce
          exact (DevKeeps.step (DevKeeps.step (.refl _ _) (answered_keeps _ _ _) rfl) (toLane_keeps _ _ _ _ _ _) rfl)
      · exact StateKeeps.stepNext (.refl _ _) (noEvent_keeps _ _) rfl
    · refine NextP.next ?_
      refine StateKeeps.modDev ?_ ?_
      · exact (.refl _ _)
      · exact (DevKeeps.step (.refl _ _) (answered_keeps _ _ _) rfl)
  · split
    · refine iteP (P := NextP (StateKeeps 0x80E0000000000000000000000000000000000000000000000000000000000000000000E3BA02 s)) (fun _ => ?_) (fun _ => ?_)
      · refine NextP.next ?_
        refine StateKeeps.modDev ?_ ?_
        · exact (.refl _ _)
        · beta_reduce
          exact (DevKeeps.step (DevKeeps.step (DevKeeps.step (.refl _ _) (answered_keeps _ _ _) rfl) (countUnrecovered_keeps _ _ _) rfl) (readLost_keeps _ _ _) rfl)
      · exact StateKeeps.stepNext (.refl _ _) (noEvent_keeps _ _) rfl
    · refine NextP.next ?_
      refine StateKeeps.modDev ?_ ?_
      · exact (.refl _ _)
      · exact (DevKeeps.step (.refl _ _) (answered_keeps _ _ _) rfl)
  · refine iteP (P := NextP (StateKeeps 0x80E0000000000000000000000000000000000000000000000000000000000000000000E3BA02 s)) (fun _ => ?_) (fun _ => ?_)
    · refine NextP.next ?_
      refine StateKeeps.step ?_ (takeReply_keeps _ _ _) rfl
      refine StateKeeps.modDev ?_ ?_
      · exact (.refl _ _)
      · exact (DevKeeps.step (.refl _ _) (answered_keeps _ _ _) rfl)
    · refine NextP.next ?_
      exact (.refl _ _)
  · refine NextP.next ?_
    refine StateKeeps.modDev ?_ ?_
    · exact (.refl _ _)
    · exact (DevKeeps.step (.refl _ _) (takeLive_keeps _ _ _) rfl)
  · refine iteP (P := NextP (StateKeeps 0x80E0000000000000000000000000000000000000000000000000000000000000000000E3BA02 s)) (fun _ => ?_) (fun _ => ?_)
    · refine NextP.next ?_
      refine StateKeeps.modDev ?_ ?_
      · exact (.refl _ _)
      · beta_reduce
        exact (DevKeeps.step (.refl _ _) (Dev.modDlk_keeps _ _) rfl)
    · exact StateKeeps.stepNext (.refl _ _) (noEvent_keeps _ _) rfl

theorem execDaleskResponseReceive_keeps (a0 : Fin 4) (a1 : DlkResponse) (s : State) :
    NextP (StateKeeps 0x80E0000000000000000000000000000000000000000000000000000000000000000000E3BA02 s) (execDaleskResponseReceive a0 a1 s) := by
  unfold execDaleskResponseReceive
  refine iteP (P := NextP (StateKeeps 0x80E0000000000000000000000000000000000000000000000000000000000000000000E3BA02 s)) (fun _ => ?_) (fun _ => ?_)
  · exact StateKeeps.stepNext (.refl _ _) (daleskResponse_keeps _ _ _) rfl
  · exact StateKeeps.stepNext (.refl _ _) (noEvent_keeps _ _) rfl

theorem loseFollower_keeps (a0 : ℕ) (s : State) :
    StateKeeps 0x80E0000000000000000000000000000000000000000000000000000000000000000000E31802 s (loseFollower a0 s) := by
  unfold loseFollower
  extract_lets -merge -underBinder +onlyGivenNames x0
  have h0 : StateKeeps 0x80E0000000000000000000000000000000000000000000000000000000000000000000E31802 s x0 := by
    subst x0
    refine StateKeeps.modDev ?_ ?_
    · exact (.refl _ _)
    · beta_reduce
      extract_lets -merge -underBinder +onlyGivenNames x1
      have h1 : DevKeeps 0x80E0000000000000000000000000000000000000000000000000000000000000000000E31802 s.dev x1 := by
        subst x1
        exact (DevKeeps.step (DevKeeps.step (.refl _ _) (Dev.modDlk_keeps _ _) rfl) (Dev.wr_keeps _ _ _) (by rfl))
      clear_value x1
      refine DevKeeps.foldl ?_ (fun y2 a2 h2 => ?_)
      · exact h1
      · beta_reduce
        exact (DevKeeps.step h2 (addErr_keeps _ _ _ _ _ _ _) rfl)
  clear_value x0
  split
  · extract_lets -merge -underBinder +onlyGivenNames x3
    have h3 : StateKeeps 0x80E0000000000000000000000000000000000000000000000000000000000000000000E31802 s x3 := by
      subst x3
      refine StateKeeps.modDev ?_ ?_
      · exact h0
      · beta_reduce
        exact (DevKeeps.step (StateKeeps.dev h0) (Dev.modDlk_keeps _ _) rfl)
    clear_value x3
    exact (StateKeeps.step (StateKeeps.step h3 (putReply_keeps _ _ _) rfl) (settleJenam_keeps _) rfl)
  · exact h0

theorem execFollowerUnreachable_keeps (a0 : Fin 4) (s : State) :
    NextP (StateKeeps 0x80E0000000000000000000000000000000000000000000000000000000000000000000E31802 s) (execFollowerUnreachable a0 s) := by
  unfold execFollowerUnreachable
  refine iteP (P := NextP (StateKeeps 0x80E0000000000000000000000000000000000000000000000000000000000000000000E31802 s)) (fun _ => ?_) (fun _ => ?_)
  · refine NextP.next ?_
    exact (StateKeeps.step (.refl _ _) (loseFollower_keeps _ _) rfl)
  · exact StateKeeps.stepNext (.refl _ _) (noEvent_keeps _ _) rfl

theorem execAdmissionTimeout_keeps (s : State) :
    NextP (StateKeeps 0x80E0000000000000000000000000000000000000000000000000000000000000000000E31802 s) (execAdmissionTimeout s) := by
  unfold execAdmissionTimeout
  extract_lets -merge -underBinder +onlyGivenNames x0
  clear_value x0
  refine iteP (P := NextP (StateKeeps 0x80E0000000000000000000000000000000000000000000000000000000000000000000E31802 s)) (fun _ => ?_) (fun _ => ?_)
  · exact StateKeeps.stepNext (.refl _ _) (noEvent_keeps _ _) rfl
  · refine NextP.next ?_
    refine StateKeeps.modDev ?_ ?_
    · refine StateKeeps.foldl ?_ (fun y1 a1 h1 => ?_)
      · exact (.refl _ _)
      · beta_reduce
        exact (StateKeeps.step h1 (loseFollower_keeps _ _) rfl)
    · refine DevKeeps.step ?_ (answerReady_keeps _) rfl
      refine StateKeeps.dev ?_
      refine StateKeeps.foldl ?_ (fun y2 a2 h2 => ?_)
      · exact (.refl _ _)
      · beta_reduce
        exact (StateKeeps.step h2 (loseFollower_keeps _ _) rfl)

theorem endFarReads_keeps (a0 : ℕ) (d : Dev) :
    DevKeeps 2101248 d (endFarReads a0 d) := by
  unfold endFarReads
  extract_lets -merge -underBinder +onlyGivenNames x0
  clear_value x0
  refine DevKeeps.foldl ?_ (fun y1 a1 h1 => ?_)
  · exact (.refl _ _)
  · beta_reduce
    exact (DevKeeps.step (DevKeeps.step h1 (answered_keeps _ _ _) rfl) (readLost_keeps _ _ _) rfl)

theorem holdExpiry_keeps (a0 : ℕ) (d : Dev) :
    DevKeeps 0x38000000000000000000000000000000000021BA02 d (holdExpiry a0 d) := by
  unfold holdExpiry
  extract_lets -merge -underBinder +onlyGivenNames x0
  have h0 : DevKeeps 0x38000000000000000000000000000000000021BA02 d x0 := by
    subst x0
    exact (DevKeeps.step (DevKeeps.step (.refl _ _) (Dev.modDlk_keeps _ _) rfl) (endFarReads_keeps _ _) rfl)
  clear_value x0
  extract_lets -merge -underBinder +onlyGivenNames x1
  clear_value x1
  refine DevKeeps.foldl ?_ (fun y2 a2 h2 => ?_)
  · exact h0
  · beta_reduce
    exact (DevKeeps.step h2 (withdrawCmd_keeps _ _ _) rfl)

theorem unreachableHold_keeps (a0 : ℕ) (d : Dev) :
    OkP (DevKeeps 0x38000000000000000000000000000000000021BA02 d) (unreachableHold a0 d) := by
  unfold unreachableHold
  split
  · refine iteP (P := OkP (DevKeeps 0x38000000000000000000000000000000000021BA02 d)) (fun _ => ?_) (fun _ => ?_)
    · refine OkP.ok ?_
      exact (DevKeeps.step (.refl _ _) (holdExpiry_keeps _ _) rfl)
    · exact trivial
  · exact trivial

theorem execUnreachableHoldExpiry_keeps (a0 : Fin 4) (s : State) :
    NextP (StateKeeps 0x38000000000000000000000000000000000021BA02 s) (execUnreachableHoldExpiry a0 s) := by
  unfold execUnreachableHoldExpiry
  refine onDev_keeps ?_
  exact DevKeeps.stepOk (.refl _ _) (unreachableHold_keeps _ _) rfl

theorem followerReturn_keeps (a0 : ℕ) (d : Dev) :
    DevKeeps 6295552 d (followerReturn a0 d) := by
  unfold followerReturn
  extract_lets -merge -underBinder +onlyGivenNames x0
  have h0 : DevKeeps 6295552 d x0 := by
    subst x0
    exact (DevKeeps.step (.refl _ _) (Dev.modDlk_keeps _ _) rfl)
  clear_value x0
  exact (DevKeeps.step (DevKeeps.step h0 (resend_keeps _ _) rfl) (answerReady_keeps _) rfl)

theorem execFollowerReturn_keeps (a0 : Fin 4) (s : State) :
    NextP (StateKeeps 6295552 s) (execFollowerReturn a0 s) := by
  unfold execFollowerReturn
  refine onDev_keeps ?_
  beta_reduce
  refine onlyIf_keeps ?_
  exact (DevKeeps.step (.refl _ _) (followerReturn_keeps _ _) rfl)

end Sys2Proof.Machine
end

