-- ==== Sys2Proof/Laws/Stroke.lean ====
section
/-! SUPPORT. The stroke counter over the boundaries. -/

namespace Sys2Proof.Machine

theorem forUpTo_strk {f : Nat → Dev → Dev} (hf : ∀ a e, (f a e).strk = e.strk) (n : Nat) (d : Dev) : (forUpTo n f d).strk = d.strk :=
  forUpTo_keeps (fun e => e.strk = d.strk) rfl fun a e h => (hf a e).trans h

/-- What the counter becomes depends on the counter alone. -/
theorem advance_congr {d e : Dev} (h : e.strk = d.strk) : (advance e).strk = (advance d).strk := by
  unfold advance; simp only [h, Dev.flagIf_strk]
  cases d.strk.load with
  | none => rfl
  | some v => simp only; split <;> split <;> simp_all

theorem countStrokes_strk (d : Dev) : (countStrokes d).strk = d.strk := by unfold countStrokes; rw [forUpTo_strk fun _ _ => Dev.modChan_strk _ _ _]
theorem strokeEnd_strk (d : Dev) : (strokeEnd d).strk = (advance d).strk := advance_congr (countStrokes_strk d)
theorem layAside_strk (d : Dev) : (layAside d).strk = d.strk := by unfold layAside; rw [forUpTo_strk fun _ _ => Dev.modChan_strk _ _ _]
theorem slotsAnew_strk (d : Dev) : (slotsAnew d).strk = d.strk := by unfold slotsAnew; rw [forUpTo_strk fun _ _ => Dev.modChan_strk _ _ _]
theorem atCycle_count (d : Dev) (c : BitVec 10) : (d.atCycle c).strk.count = d.strk.count := by unfold Dev.atCycle; split <;> rfl

/-- Within a sheet, or with no load pending, a boundary counts one stroke. -/
theorem advance_counts {d : Dev} (h : d.strk.load = none) (hs : d.strk.started = true) :
    (advance d).strk = { d.strk with count := (d.strk.count + 1) % 2 ^ 64, cycle := 0, ran := d.strk.ran + 1 } := by
  unfold advance
  simp only [h, hs, if_true, Dev.flagIf_strk]

/-- At the end of a sheet a pending load takes effect. -/
theorem advance_sheet {d : Dev} (hs : d.strk.started = true) (h : d.stroke = 255) :
    (advance d).strk.cycle = 0 ∧ (advance d).strk.load = none ∧
    (advance d).strk.count = match d.strk.load with
      | none => (d.strk.count + 1) % 2 ^ 64
      | some v => v * 256 := by
  have h' : (d.strk.count + 1) % 2 ^ 64 % 256 = 0 := by
    have : d.strk.count % 256 = 255 := h
    omega
  unfold advance
  simp only [hs, if_true, Dev.flagIf_strk]
  cases hl : d.strk.load with
  | none => exact ⟨rfl, rfl, rfl⟩
  | some v => simp only; rw [if_pos h']; simp

theorem sheetActs_strk (d : Dev) : (sheetActs d).strk = (advance d).strk := by
  unfold sheetActs
  rw [(sheetDevice_keeps _).strk (by rfl), forUpTo_strk (fun a e => (sheetChan_keeps a e).strk (by rfl)), Dev.wr_strk, strokeEnd_strk]

theorem ps4Seal_strk (s : State) : (ps4Seal s).dev.strk = { s.dev.strk with lock := false, started := false, load := none } := by
  unfold ps4Seal
  show ({ (enterPs 4 (((saveTime s.dev).wr Fd.AON_STAT_SEALED 1).modPwr _)).strk with lock := false, started := false, load := none } : Strk) = _
  rw [(enterPs_keeps _ _).strk (by rfl), Dev.modPwr_strk, Dev.wr_strk, (saveTime_keeps _).strk (by rfl)]

/-- The registers of a device that loses or regains lock are those of the device whose channels it has told. -/
theorem pllUnlock_regs (d : Dev) :
    (pllUnlock d).regs = (layAside ((faultOn 0 ((d.wr Fd.STRK_STAT_UNLOCK 1).add Fd.STRK_SLIPS_COUNT 1)).trace 1 0)).regs := by
  unfold pllUnlock; rfl
theorem pllUnlock_strk (d : Dev) : (pllUnlock d).strk = { d.strk with lock := false } := by
  unfold pllUnlock
  generalize hx : layAside _ = x
  have : x.strk = d.strk := by rw [← hx, layAside_strk]; simp
  simp [this]
theorem pllRelock_strk (d : Dev) : (pllRelock d).strk = { d.strk with lock := true, cycle := 0, ran := d.strk.ran + 1 } := by
  have key : ∀ y : Dev, (refill (forUpTo 48 applySettings y)).strk = y.strk := fun y => by
    rw [(refill_keeps _).strk (by rfl), forUpTo_strk fun a e => (applySettings_keeps a e).strk (by rfl)]
  unfold pllRelock
  extract_lets d1 d2
  have h1 : d1.strk = d.strk := (slotsAnew_strk _).trans ((faultOff_keeps _ _).strk (by rfl))
  clear_value d1
  rw [key]
  show ({ d1.strk with lock := true, cycle := 0, ran := d1.strk.ran + 1 } : Strk) = _
  rw [h1]

/-- A condition of `SYS.FAULT` that begins reads 1. -/
theorem faultOn_bit {b : Nat} (hb : b < 32) (d : Dev) : bits ((faultOn b d).regGet Rg.SYS_FAULT 0 0) b b = 1 := by
  unfold faultOn
  split
  · next h => simpa [bit, bits] using h
  · rw [Dev.regGet_regSet_other _ _ (by decide), Dev.regGet_regSet_same,
      Nat.mod_eq_of_lt (setBits_lt hb (le_refl _) (Dev.regGet_lt _ _ _ _)), bits_setBits]
    simp

/-- A condition of `SYS.FAULT` that has ended reads 0. -/
theorem faultOff_bit {b : Nat} (hb : b < 32) (d : Dev) : bits ((faultOff b d).regGet Rg.SYS_FAULT 0 0) b b = 0 := by
  unfold faultOff
  rw [Dev.regGet_regSet_same, Nat.mod_eq_of_lt (setBits_lt hb (le_refl _) (Dev.regGet_lt _ _ _ _)), bits_setBits]
  simp

theorem atCycle_load (d : Dev) (c : BitVec 10) : (d.atCycle c).strk.load = d.strk.load := by unfold Dev.atCycle; split <;> rfl

/-- `STRK.CTL` written with LOAD: the sheet registers are taken unless a load is pending; the enables are stored. -/
theorem strkCtlWrite_load {v : Nat} {d : Dev} (hv : bit v 2 = true) :
    (strkCtlWrite v d).strk.load = (d.strk.load.orElse fun _ =>
      some (d.rd Fd.STRK_LOAD_LO_SHEET_LO + d.rd Fd.STRK_LOAD_HI_SHEET_HI * 2 ^ 32)) ∧
    (strkCtlWrite v d).strk.count = d.strk.count ∧
    (strkCtlWrite v d).regs = ((d.wr Fd.STRK_CTL_CMP_IE (bits v 1 1)).wr Fd.STRK_CTL_SHEET_IE (bits v 0 0)).regs := by
  unfold strkCtlWrite
  have k : DevKeeps (regMask Rg.STRK_CTL) d ((d.wr Fd.STRK_CTL_CMP_IE (bits v 1 1)).wr Fd.STRK_CTL_SHEET_IE (bits v 0 0)) :=
    DevKeeps.step (DevKeeps.step (.refl _ _) (d.wr_keeps Fd.STRK_CTL_CMP_IE _) rfl) (Dev.wr_keeps _ Fd.STRK_CTL_SHEET_IE _) rfl
  generalize (d.wr Fd.STRK_CTL_CMP_IE (bits v 1 1)).wr Fd.STRK_CTL_SHEET_IE (bits v 0 0) = e at *
  simp only [hv, Bool.true_and, k.strk (by rfl), k.rd Fd.STRK_LOAD_LO_SHEET_LO (by rfl), k.rd Fd.STRK_LOAD_HI_SHEET_HI (by rfl)]
  cases hl : d.strk.load with
  | none => exact ⟨rfl, rfl, rfl⟩
  | some x => exact ⟨by simp [k.strk (by rfl), hl], by simp [k.strk (by rfl)], rfl⟩

theorem seedCounter_strk (d : Dev) : ∃ l, (seedCounter d).strk = { d.strk with load := l } := by
  have hl : ∀ n, ∃ l, (loadCounter n d).strk = { d.strk with load := l } := fun n => by
    unfold loadCounter
    extract_lets e
    have he : e.strk = d.strk := ((Dev.wr_keeps _ _ _).strk (by rfl)).trans ((Dev.wr_keeps _ _ _).strk (by rfl))
    clear_value e
    split
    · exact ⟨d.strk.load, he⟩
    · refine ⟨some n, ?_⟩
      show ({ e.strk with load := some n } : Strk) = _
      rw [he]
  unfold seedCounter
  split
  · rw [Dev.modPwr_strk]; exact hl _
  · exact ⟨d.strk.load, rfl⟩

theorem foldl_strk {α : Type} {f : Dev → α → Dev} (hf : ∀ e a, (f e a).strk = e.strk) (l : List α) (d : Dev) : (l.foldl f d).strk = d.strk :=
  foldl_keeps (fun e => e.strk = d.strk) rfl fun e a h => (hf e a).trans h

/-- Start-up asks for a load of the counter at most. -/
theorem startWork_strk (o : StartObs) (d : Dev) : ∃ l, (startWork o d).strk = { d.strk with load := l } := by
  have ht : ∃ l, (startTables o d).strk = { d.strk with load := l } := by
    unfold startTables
    extract_lets d1 d2 d3 d4
    have h1 : d1.strk = d.strk := by
      show (match d.startTables o.badImages with | some t => loadTables t d | none => d).strk = d.strk
      split
      · exact (loadTables_keeps _ _).strk (by rfl)
      · rfl
    have h2 : d2.strk = d.strk := by
      show (if _ then wearUnknown d1 else d1).strk = d.strk
      split
      · rw [(wearUnknown_keeps _).strk (by rfl), h1]
      · exact h1
    have h3 : d3.strk = d.strk := by rw [← h2]; exact (applyRecs_keeps _ _).strk (by rfl)
    have h4 : d4.strk = d.strk := by rw [← h3]; exact foldl_strk (fun e a => (factoryMark_keeps _ _ _).strk (by rfl)) _ _
    obtain ⟨l, hl⟩ := seedCounter_strk (scrubFirst d4)
    exact ⟨l, by rw [hl, (scrubFirst_keeps _).strk (by rfl), h4]⟩
  obtain ⟨l, hl⟩ := ht
  refine ⟨l, ?_⟩
  unfold startWork
  extract_lets d1 d2 d3 d4
  rw [Dev.modSys_strk, forUpTo_strk fun a e => (armPlan_keeps a e).strk (by rfl), ← hl]
  have h1 : d1.strk = (startTables o d).strk := (replayAll_keeps _ _ _).strk (by rfl)
  have h2 : d2.strk = d1.strk := by
    show (rescueReady (eraseDirty (releaseImages (restartReplacements d1)))).strk = _
    rw [(rescueReady_keeps _).strk (by rfl), (eraseDirty_keeps _).strk (by rfl), (releaseImages_keeps _).strk (by rfl),
      (restartReplacements_keeps _).strk (by rfl)]
  have h3 : d3.strk = d2.strk := (enableJenam_keeps _ _).strk (by rfl)
  have h4 : d4.strk = d3.strk := by
    clear_value d3
    have : ∀ c : Bool, (if c then faultOn 7 d3 else d3).strk = d3.strk := by
      intro c; cases c
      · rfl
      · exact (faultOn_keeps _ _).strk (by rfl)
    exact ((metadataCheckpoint_keeps _).strk (by rfl)).trans (this _)
  rw [h4, h3, h2, h1]

/-- Start-up's part of a sheet boundary moves no counter; it asks for a load of it at most once, where training has ended. -/
theorem startSheet_strk (s : State) : ∃ l, (startSheet s).dev.strk = { s.dev.strk with load := l } ∧
    (l = s.dev.strk.load ∨ ∃ o, s.dev.sys.stage = .starting o .training) := by
  unfold startSheet
  split
  · next o hs =>
    split
    · obtain ⟨l, hl⟩ := startWork_strk o s.dev
      exact ⟨l, hl, .inr ⟨o, hs⟩⟩
    · exact ⟨_, rfl, .inl rfl⟩
  · refine ⟨s.dev.strk.load, ?_, .inl rfl⟩
    split
    · rw [State.modDev_dev, Dev.modSys_strk, forUpTo_strk fun a e => (armStored_keeps a e).strk (by rfl)]
    · rfl
  · refine ⟨s.dev.strk.load, ?_, .inl rfl⟩
    extract_lets t
    have ht : t.dev.strk = s.dev.strk := by
      show (rescueReady s.dev).strk = _
      exact (rescueReady_keeps _).strk (by rfl)
    clear_value t
    split
    · rw [(restartEtchings_keeps _).dev.strk (by rfl), State.modDev_dev, (startService_keeps _).strk (by rfl), ht]
    · exact ht
  · exact ⟨_, rfl, .inl rfl⟩

/-- What a sheet boundary does after what was pending has acted. -/
def restOfSheet (o : BoundaryObs) (u : State) : State :=
  if (boundary o (startSheet u)).dev.sealDue then ps4Seal (boundary o (startSheet u)) else boundary o (startSheet u)

theorem restOfSheet_strk (o : BoundaryObs) (u : State) : (restOfSheet o u).dev.strk.count = u.dev.strk.count ∧
    (restOfSheet o u).dev.strk.cycle = u.dev.strk.cycle ∧
    ((restOfSheet o u).dev.strk.load = none ∨ (restOfSheet o u).dev.strk.load = u.dev.strk.load ∨
      ∃ x, u.dev.sys.stage = .starting x .training) := by
  obtain ⟨l, hl, hx⟩ := startSheet_strk u
  have hy := (boundary_keeps o (startSheet u)).dev.strk (by rfl)
  rw [hl] at hy
  unfold restOfSheet
  generalize boundary o (startSheet u) = y at *
  by_cases h : y.dev.sealDue = true
  · rw [if_pos h, ps4Seal_strk, hy]; exact ⟨rfl, rfl, .inl rfl⟩
  · rw [if_neg h, hy]; exact ⟨rfl, rfl, .inr hx⟩

/-- A sheet boundary moves the counter; the seal of PS4, where it is due, then stops it. -/
theorem sheetBoundary_strk (o : BoundaryObs) (s : State) : (sheetBoundary o s).dev.strk.count = (advance s.dev).strk.count ∧
    (sheetBoundary o s).dev.strk.cycle = (advance s.dev).strk.cycle ∧
    ((sheetBoundary o s).dev.strk.load = none ∨ (sheetBoundary o s).dev.strk.load = (advance s.dev).strk.load ∨
      ∃ x, (sheetActs s.dev).sys.stage = .starting x .training) := by
  have h := restOfSheet_strk o (s.modDev sheetActs)
  rw [← sheetActs_strk s.dev]
  exact h

end Sys2Proof.Machine
end

