-- ==== Sys2Proof/Laws/ZoneCmd.lean ====
section
/-! SUPPORT. What the Sends of a zone and the refolds leave. -/

namespace Sys2Proof.Machine

/-- The outcome is a device that holds the same slots. -/
def OkSlots (d : Dev) (r : Except Cpl Dev) : Prop := ∀ e, r = .ok e → e.host.slots = d.host.slots
theorem okSlots_ok {d e : Dev} (h : e.host.slots = d.host.slots) : OkSlots d (.ok e) := by rintro _ ⟨⟩; exact h
theorem okSlots_err {d : Dev} {c : Cpl} : OkSlots d (.error c) := by rintro _ ⟨⟩
theorem okSlots_of_keeps {m : Nat} {d : Dev} {r : Except Cpl Dev} (h : OkP (DevKeeps m d) r) (hm : m.testBit 12 = false) : OkSlots d r := by
  rintro e rfl; exact slots_of_keeps h hm
theorem sendClose_slots (n z : Nat) (a : Bool) (d : Dev) : OkSlots d (sendClose n z a d) := okSlots_of_keeps (sendClose_keeps _ _ _ _) (by rfl)
theorem sendOpen_slots (n z h : Nat) (ns) (a : Bool) (d : Dev) : OkSlots d (sendOpen n z h ns a d) := okSlots_of_keeps (sendOpen_keeps _ _ _ _ _ _) (by rfl)
theorem sendFinish_slots (n z h : Nat) (ns) (a : Bool) (d : Dev) : OkSlots d (sendFinish n z h ns a d) := okSlots_of_keeps (sendFinish_keeps _ _ _ _ _ _) (by rfl)
theorem sendOffline_slots (n z : Nat) (a : Bool) (d : Dev) : OkSlots d (sendOffline n z a d) := okSlots_of_keeps (sendOffline_keeps _ _ _ _) (by rfl)
theorem sendReset_slots (o n z : Nat) (a : Bool) (d : Dev) : OkSlots d (sendReset o n z a d) := by
  unfold sendReset; split
  · exact okSlots_ok rfl
  · exact okSlots_ok (emptyZone_hostSlots _ _ _ _)
  · exact okSlots_ok (emptyZone_hostSlots _ _ _ _)
  · exact okSlots_ok (emptyZone_hostSlots _ _ _ _)
  · exact okSlots_ok (emptyZone_hostSlots _ _ _ _)
  · split
    · exact okSlots_ok rfl
    · exact okSlots_err
theorem emptyZone_st (o n z : Nat) (d : Dev) : ((emptyZone o n z d).zone n z).st = .empty := by
  unfold emptyZone
  extract_lets x d1 d2 src d3
  have h : (d3.zone n z).st = .empty := by
    show ((d2.modZone n z _).zone n z).st = _
    rw [zone_modZone_same]; rfl
  unfold Dev.zone at *
  rw [(syncZone_keeps _ _ _).zm (by rfl)]; exact h
theorem zone_sync (n z a b : Nat) (d : Dev) : (syncZone a b d).zone n z = d.zone n z := by unfold Dev.zone; rw [(syncZone_keeps _ _ _).zm (by rfl)]
theorem sendReground_slots (o n z : Nat) (a : Bool) (d : Dev) : OkSlots d (sendReground o n z a d) := by
  have key : ∀ g r (e : Dev) k, e.host.slots = d.host.slots → (syncZone n z
      ((discardStaged o n z (abandonRowWork g r e)).modZone n z fun _ => { Zone.fresh with resetAt := k })).host.slots = d.host.slots := by
    intro g r e k he
    rw [slots_of_keeps (syncZone_keeps _ _ _) (by rfl), slots_of_keeps (Dev.modZone_keeps _ _ _ _) (by rfl), discardStaged_hostSlots,
      slots_of_keeps (abandonRowWork_keeps _ _ _) (by rfl), he]
  unfold sendReground
  extract_lets x
  split
  · split
    · next g r _ =>
      split
      · have h := slots_of_keeps (FstP.fst (retireReserved_keeps n g r ((d.row g r).worn.getD 0x0D) d)) (by rfl)
        generalize retireReserved n g r ((d.row g r).worn.getD 0x0D) d = w at h
        obtain ⟨e, ok⟩ := w
        cases ok
        · exact okSlots_err
        · exact okSlots_ok (key g r e _ h)
      · exact okSlots_ok (emptyZone_hostSlots _ _ _ _)
    · exact okSlots_ok (emptyZone_hostSlots _ _ _ _)
  · split
    · exact okSlots_ok rfl
    · exact okSlots_err
theorem zone_modSlot (d : Dev) (k : Nat) (f) (n z : Nat) : (d.modSlot k f).zone n z = d.zone n z := by unfold Dev.zone; rw [(Dev.modSlot_keeps _ _ _).zm (by rfl)]
theorem fillZone_st (n z : Nat) (d : Dev) : ((fillZone n z d).zone n z).st = .full := by
  unfold fillZone
  extract_lets d1 d2
  have h2 : (d2.zone n z).st = .full := by show ((syncZone _ _ _).zone n z).st = _; rw [zone_sync, zone_modZone_same]
  clear_value d2
  have h3 : (padUnit n z d2).zone n z = d2.zone n z := by unfold Dev.zone; rw [(padUnit_keeps _ _ _).zm (by rfl)]
  have h4 : ∀ u (e : Dev), (askProgram n z u e).zone n z = e.zone n z := by intro u e; unfold Dev.zone; rw [(askProgram_keeps _ _ _ _).zm (by rfl)]
  rw [h4, h3]; exact h2
theorem bindZone_zone (n z h : Nat) (r : Nat × Nat) (st : ZoneState) (d : Dev) : ((bindZone n z h r st d).zone n z).st = st ∧ ((bindZone n z h r st d).zone n z).row = some r := by
  unfold bindZone
  extract_lets d1
  rw [zone_modZone_same]; exact ⟨rfl, rfl⟩
theorem sendAll_slots {n : Nat} {zs : List Nat} {act : Nat → Dev → Except Cpl Dev} (h : ∀ z d, OkSlots d (act z d)) (d : Dev) : (sendAll n zs act d).1.host.slots = d.host.slots := by
  unfold sendAll
  suffices h : ∀ (l : List Nat) (a : Dev × Cpl), (l.foldl (fun (a : Dev × Cpl) z =>
    if a.1.zoneBusy n z then a
    else match act z a.1 with
      | .ok d => (d, a.2)
      | .error c => (a.1, c)) a).1.host.slots = a.1.host.slots from h _ _
  intro l
  induction l with
  | nil => intro a; rfl
  | cons z l ih =>
    intro a
    rw [List.foldl_cons, ih]
    split
    · rfl
    · split
      · next e he => exact h z a.1 e he
      · rfl
theorem nextRefold_mem (d : Dev) : ∀ (l : List RefoldJob) (p : List Nat) (j : RefoldJob), d.nextRefold p l = some j → j ∈ l
  | [], _, _, h => by simp [Dev.nextRefold] at h
  | i :: l, p, j, h => by
    unfold Dev.nextRefold at h
    split at h
    · cases h; exact List.mem_cons_self
    · exact List.mem_cons_of_mem _ (nextRefold_mem d l _ j h)
theorem refoldSource_slots (o n z : Nat) (d : Dev) : (refoldSource o n z d).host.slots = d.host.slots := by
  unfold refoldSource
  split
  · exact emptyZone_hostSlots _ _ _ _
  · exact emptyZone_hostSlots _ _ _ _
  · exact (slots_of_keeps (Dev.modZone_keeps _ _ _ _) (by rfl)).trans (slots_of_keeps (abandonMigration_keeps _ _) (by rfl))
  · rfl

end Sys2Proof.Machine
end

