-- ==== Sys2Proof/Tests/Slice0.lean ====
section
/-! SUPPORT. Tests: terms that are no command, states and operands that meet the hypotheses of every statement, and single steps with
what the spec says of them. -/

namespace Sys2Proof.Tests
open Sys2Proof Sys2Proof.Machine
set_option Elab.async false

/-! ### Small states -/

/-- The state after reset with its device changed. -/
def dev (f : Dev → Dev) : State := State.reset.modDev f
def sqe0 : Sqe := { opc := 0, flags := 0, cid := 7, nsid := 0, cdw2 := 0, cdw3 := 0, mptr := 0, dptr1 := 0, dptr2 := 0, cdw10 := 0, cdw11 := 0, cdw12 := 0, cdw13 := 0, cdw14 := 0, cdw15 := 0 }
/-- A command of queue `qid` as it was fetched. -/
def cmd (qid op : Nat) (f : Sqe → Sqe) : Slot := { fn := 0, qid := qid, sqe := f { sqe0 with opc := BitVec.ofNat 8 op }, seq := 5, phase := .fetched, committed := false, cpl := none, after := [], maint := false, conflict := false, left := 0, total := 0, bad := none, zone := none, start := 0, chain := 0, share := none, arrived := [], landing := none, cam := none, headT := none, single := false, reread := false, suspHit := false, held := false }
/-- Slot 0 holds a command. -/
def holds (x : Slot) (f : Dev → Dev) : State := dev fun d => f { d with host := { d.host with slots := [(0, x)] } }
def adm (op : Nat) (a b : Word) : Slot := cmd 0 op fun q => { q with cdw10 := a, cdw11 := b }
def conv : Ns := { zoned := false, owner := 0, shared := false, cls := 0, zones := 4, rows := [], handles := [], limit := 0, attached := [0], maint := false, sectors := 1024, newMode := none, eui := 0, reads := 0, writes := 0, sectorsRead := 0, sectorsWritten := 0, mediaErrs := 0 }
def zoned : Ns := { conv with zoned := true, zones := 4, rows := [(0, 4)], limit := 4 }
/-- Namespace 1, which every I/O command below names. -/
def hasNs (n : Ns) (d : Dev) : Dev := { d with zm := { d.zm with ns := [(1, n)] } }
def hasZone (z : Zone) (d : Dev) : Dev := { d with zm := { d.zm with zones := [(2 ^ 20, z)] } }
def io (op : Nat) : Slot := cmd 1 op fun q => { q with nsid := 1 }
def row (r : Nat) (z : ZoneState) : Zone := { Zone.fresh with st := z, row := some (0, r) }
/-- A Zone Management Send of namespace 1, zone 0. -/
def send (zsa : Word) : Slot := cmd 1 0x79 fun q => { q with nsid := 1, cdw13 := zsa }
/-- Channel 0 of its own. -/
def chan (f : Chan → Chan) : State := dev fun d => { d with chans := [(0, f Chan.reset)] }
def die (f : Die → Die) (c : Chan) : Chan := { c with dies := [(0, f Die.reset)] }
def desc0 : Desc := { d0 := 0, d1 := 0, d2 := 0, d3 := 0, d4 := 0, d5 := 0, d6 := 5, d7 := 0 }
def req (k : ReqKind) : Req := { kind := k, prog := false, target := 0, cls := 0, len := 1, progress := 0, age := 0, seq := 0, wait := 0, forced := false, dev := false, stipple := false, tag := 0 }
def grant (k : ReqKind) : Holder := { req := req k, first := 0, len := 1, endC := 900, moving := true, owned := false }
def reading : RdOp := { q := { desc := { desc0 with d0 := 0x10000000 } }, startT := 0, floorT := 0, limitT := 0, inSusp := false, polling := false, busy := 0, status := 0 }
def programming : PeOp := { q := { desc := { desc0 with d0 := 0x20000000 } }, phase := .running, pages := 0, startT := 0, sinceT := 0, ranT := 0, floorT := 0, limitT := 0, polling := false, susps := 0, susReads := 0, status := 0, data := [], column := 0, encCw := 0 }
def ticking (c : Nat) : State := dev fun d => { d with strk := { d.strk with lock := true, started := true, count := c }, sys := { d.sys with stage := .service } }
def staged (g : Stage) : State := dev fun d => { d with sys := { d.sys with stage := g } }
def func (f : Func → Func) (d : Dev) : Dev := { d with host := { d.host with funcs := [(0, f Func.reset)] } }
def sq4 : Sq := { size := 4, cq := 1, tail := 0, issue := 0, head := 0, fetched := 0, deleting := none }
def cq4 : Cq := { size := 4, head := 0, tail := 0, phase := true, ien := true, vector := 0, posted := 0, stalls := 0, holding := [], stallAt := none }
def port (f : Port → Port) : State := dev fun d => { d with host := { d.host with ports := [(0, f { Port.reset with up := true })] } }
def spdm (f : Spdm → Spdm) : State := dev fun d => { d with host := { d.host with ports := [(0, { Port.reset with up := true })], spdm := [(0, f { Spdm.reset with version := 0x12, caps := true, algs := true, chosen := 15 })] } }
def keys : SpdmKeys := { pair := 0, pub := 0, reqGen := 0, rspGen := 0 }
def nilSector : Sector := { data := 0, md := 0 }
def item (g : EccStage) : EccItem := { ch := 0, target := 0, block := 14, plane := 0, page := 0, cw := 0, slc := false, first := 0, readTag := 5, rrTag := 5, ctx := 0, cls := 0, level := 0, wdraw := false, dev := true, owned := false, proof := false, stage := g, sector := none, detached := false }
def ecc (xs : List EccItem) : State := dev fun d => { d with ecc := { d.ecc with items := xs } }
def noBits : DecodeResult := { errs := 0, ok := false, wrong := false, zeros := 0 }
def some1 : DecodeResult := { errs := 1, ok := true, wrong := false, zeros := 70 }
/-- A Jenam packet: 32 bytes of header with its opcode, and its parameters. -/
def packet (op : Nat) (p : List Byte) : List Byte := [0, 0, 0, 0, BitVec.ofNat 8 op, BitVec.ofNat 8 (op / 256)] ++ List.replicate 26 0 ++ p
def jbuf (op : Nat) (p : List Byte) : JBuf := { buf := 0, path := 1, slot := none, eid := 8, tag := 0, packet := packet op p, order := 0, phase := .accepted }
def jen (op : Nat) (p : List Byte) (f : Dev → Dev) : State := dev fun d => f { d with jnm := { d.jnm with bufs := [jbuf op p] } }
def zeros (n : Nat) : List Byte := List.replicate n 0
def tenant1 (d : Dev) : Dev := d.wrb 1 Fd.TEN_T_CFG_PRESENT 1
def graver (f : Graver → Graver) : State := dev fun d => { d with grv := { d.grv with gravers := [(0, f { Graver.reset with st := .run })] } }
def link (f : DlkPort → DlkPort) (g : Dlk → Dlk) : State := dev fun d => { d with dlk := g { d.dlk with ports := [(0, f { DlkPort.reset with up := true, width := 4, peer := 1 })] } }
def flit (k : Fin 4) : DlkFlit := { kind := k, seq := 0, dst := 0, src := 1, vc := 0, payload := 0, ok := true }
def asks (pos id : Nat) : DlkMsg := { pos := pos, id := id, vc := 1, body := [] }
/-- NS_CREATE: a conventional namespace of 256 sectors for tenant 1. -/
def convParams : List Byte := [1, 0, 0, 0, 1, 0, 0, 0, 1, 0, 0, 0, 0, 1, 0, 0] ++ zeros 784

/-! ### Terms that are no command: each check refuses one -/

theorem test_wellFormed_refuses_table : Instr.wellFormed (.setFeaturesApst 0 (List.replicate 31 0)) = false := by decide
theorem test_wellFormed_refuses_image : Instr.wellFormed (.firmwareImageDownload 0 [1, 2, 3]) = false := by decide
theorem test_wellFormed_refuses_ranges :
    Instr.wellFormed (.refoldCmd 0 (List.replicate 4096 { slba := 0, nlb := 1 })) = false := by decide +kernel
theorem test_wellFormed_refuses_burst : Instr.wellFormed (.readBurstEnd 0 [0, 0, 0, 0, 0] none) = false := by decide
theorem test_wellFormed_refuses_codeword :
    Instr.wellFormed (.hardDecodeDone 0 { noBits with errs := 36865 } 0) = false ∧ Instr.wellFormed (.softDecodeDone 0 { noBits with zeros := 36865 }) = false ∧
    Instr.wellFormed (.deepDecodeDone 0 { noBits with errs := 36865 }) = false := by decide
theorem test_wellFormed_refuses_checker :
    Instr.wellFormed (.checkerRetest 63 64 0) = false ∧ Instr.wellFormed (.selftestDone [{ index := 65, step := 0, unit := 48 }]) = false ∧
    Instr.wellFormed (.thrumluxStartup { fails := [{ index := 0, step := 0, unit := 1 }], dies := [], marked := [], badChannels := [], badImages := [], badUnits := [], badCopies := [] }) = false := by decide
theorem test_wellFormed_refuses_follower : Instr.wellFormed (.psEntryAttempt [1, 0]) = false := by decide
theorem test_wellFormed_refuses_packet : Instr.wellFormed (.jenamPacketComplete (.mctp false 8 0) (List.replicate 65537 0)) = false := by
  show decide ((List.replicate 65537 (0 : Byte)).length ≤ 65536) = false
  rw [List.length_replicate]; decide

/-! ### Single steps -/

/-- R17: the bands of channels 15, 16 and 47; R262: the powers of g over 0x11D. -/
theorem test_bands : bandOf 15 = 0 ∧ bandOf 16 = 1 ∧ bandOf 47 = 2 := by decide
theorem test_powers : gfPow 1 = 2 ∧ gfPow 7 = 0x80 ∧ gfPow 8 = 0x1D := by decide
/-- R104: zone 1 begins at 524,288. -/
theorem test_zoneStart : zoneStart 1 = 524288 ∧ zoneSpan = 524288 := by decide
/-- R28: a bus error on an unmapped address. -/
theorem test_unmapped_errs : exec (.registerWrite 0 0x300000 0 0) State.reset = .next (State.reset.modDev (busAnswer 0 true)) := by rfl
/-- R355: LB of a byte 0x80 sign-extends, LBU does not. -/
def byte80 : State := { (graver id) with mem := [(sramKey 0 4, 0x80)] }
def after (o : Host.Outcome State Fault Refusal) (f : State → Bool) : Bool := match o with | .next t => f t | _ => false
theorem test_lb : after (exec (.graverLoadStore 0 { kind := .load, log2 := 0, unsigned := false, rd := 3, rs1 := 0, rs2 := 0, imm := 4 } false 0) byte80)
    (fun t => (t.dev.graver 0).reg 3 == 0xFFFFFFFFFFFFFF80 && (t.dev.graver 0).pc == 4) = true := by decide +kernel
theorem test_lbu : after (exec (.graverLoadStore 0 { kind := .load, log2 := 0, unsigned := true, rd := 3, rs1 := 0, rs2 := 0, imm := 4 } false 0) byte80)
    (fun t => (t.dev.graver 0).reg 3 == 0x80) = true := by decide +kernel
/-- R355: AMOMIN.W compares signed words and returns the old one, sign-extended. -/
theorem test_amoMin : after (exec (.graverLoadStore 0 { kind := .amoMin, log2 := 2, unsigned := false, rd := 3, rs1 := 0, rs2 := 2, imm := 0 } false 0)
      { (graver fun v => { v with x := [(2, 1)] }) with mem := [(sramKey 0 3, 0x80)] })
    (fun t => (t.dev.graver 0).reg 3 == 0xFFFFFFFF80000000 && memGet t.mem (sramKey 0 3) == 0x80) = true := by decide +kernel
/-- Table 13-2: QPOP returns the head entry with bit 63 set, and removes it. -/
theorem test_qpop : after (exec (.qpop 0 5 0) ((graver id).modDev fun d => { d with grv := { d.grv with queues := [(0, [7, 8])] } }))
    (fun t => (t.dev.graver 0).reg 5 == 0x8000000000000007 && (t.dev.grv.queues == [(0, [8])])) = true := by decide +kernel
/-- R36: a LOAD waits for the sheet boundary. -/
theorem test_load_waits : after (exec (.strkLoad 7 0) (ticking 100)) (fun t => t.dev.strk.count == 100) = true := by decide +kernel

/-! ### States and operands that meet the hypotheses of statements -/

theorem witness_StepsTakeOneCommand : ∃ s t : State, step s = .next t ∧ Memory.wf s.mem = true := ⟨State.reset, State.reset, rfl, rfl⟩
theorem witness_CamEntriesRise : mapWf CamEntry.free [(3, { CamEntry.free with st := .live })] = true := by decide
theorem witness_BankEntriesLie : (0x2012F4FFC : BitVec 40).toNat = 0x201000000 + 0x10000 * 47 + 0x4800 + 8 * 255 + 4 ∧
    (State.reset.dev.chan 47).bankLocked true = false := by decide +kernel
theorem witness_HolesIgnored : regionOf State.reset.dev.dram.mib (0x200000FFC : BitVec 40).toNat = .control ∧ bankAt 0x200000FFC = none ∧
    regAt 0x200000FFC = none := by decide +kernel
theorem witness_BadAddressesErr : regionOf State.reset.dev.dram.mib (0x200000001 : BitVec 40).toNat = .control ∧
    regionOf State.reset.dev.dram.mib (0x300000 : BitVec 40).toNat = .unmapped ∧
    regionOf State.reset.dev.dram.mib (0x40000000 : BitVec 40).toNat = .bootRom := by decide +kernel
theorem witness_JenamLengthsChecked : JenamReady (jen 0x201 [0] id) 0 0x201 (jbuf 0x201 [0]) [0] := by unfold JenamReady; decide +kernel
theorem witness_JenamPacketsHandled : jMalformed [] = true := by decide
/-- Each group of rows leaves the rest of the state alone when one of them answers a next state, as these do. -/
theorem witness_RowsLeave : (∃ u, exec (.countLoRead 0) State.reset = .next u) ∧ (∃ u, exec .commandFetchIssue State.reset = .next u) ∧
    (∃ u, exec .linkLoRead State.reset = .next u) ∧ (∃ u, exec (.perstRise 0) State.reset = .next u) ∧
    (∃ u, exec .softDecodeStart State.reset = .next u) ∧ (∃ u, exec .nonceLoRead State.reset = .next u) ∧
    (∃ u, exec (.evNext 0) State.reset = .next u) ∧ (∃ u, exec (.getInfo 0) State.reset = .next u) ∧
    (∃ u, exec .clk32kStop State.reset = .next u) ∧ ∃ u, exec (.daleskAckSend 0) State.reset = .next u :=
  ⟨⟨_, rfl⟩, ⟨_, rfl⟩, ⟨_, rfl⟩, ⟨_, rfl⟩, ⟨_, rfl⟩, ⟨_, rfl⟩, ⟨_, rfl⟩, ⟨_, rfl⟩, ⟨_, rfl⟩, ⟨_, rfl⟩⟩

/-- The row counts of NS_CREATE above: all zero. -/
theorem convRows : jRows convParams = [] := by decide +kernel

/-- A group with a free row has a chosen one. -/
theorem bestRow_some {d : Dev} {g i : Nat} (hi : i < rowCount) (h : d.rowFree g (firstRow + i) = true) : ∃ r, d.bestRow g = some r := by
  have key : ∀ (xs : List Nat) (a : Option Nat), (a.isSome = true ∨ i ∈ xs) → (xs.foldl (fun a i =>
      let r := firstRow + i
      if d.rowFree g r then
        match a with
        | none => some r
        | some b => if Dev.bestRow.lexLess (d.rowRank g r) (d.rowRank g b) then some r else some b
      else a) a).isSome = true := by
    intro xs
    induction xs with
    | nil => intro a ha; simpa using ha
    | cons x xs ih =>
      intro a ha
      refine ih _ ?_
      rcases ha with ha | ha
      · left
        cases a with
        | none => cases ha
        | some b => dsimp only; split <;> [split <;> rfl; rfl]
      · rcases List.mem_cons.1 ha with rfl | ha
        · left; dsimp only; rw [if_pos h]; cases a with
          | none => rfl
          | some b => dsimp only; split <;> rfl
        · exact .inr ha
  exact Option.isSome_iff_exists.1 (key (List.range rowCount) none (.inr (List.mem_range.2 hi)))

/-- A handle-less binding takes the chosen row of the chosen group. -/
theorem bindCheck_ok {d : Dev} {n g i : Nat} {ns : Ns} (h1 : ¬ ns.limit < d.activeOf n + 1) (h2 : d.bestGroup n ns ns.groups = some g)
    (hi : i < rowCount) (h3 : d.rowFree g (firstRow + i) = true) : ∃ r, d.bindCheck n ns 0 = .ok r := by
  obtain ⟨r, h⟩ := bestRow_some hi h3
  exact ⟨(g, r), by simp [Dev.bindCheck, Dev.pickRow, h1, h2, h]⟩
/-- The dies of group 0 serve. -/
def serves (d : Dev) : Dev := { d with chans := (List.range 16).map fun c => (c, die (fun x => { x with st := .idle }) Chan.reset) }
theorem witness_ZonesMove_zoneOpen : ∃ (s : State) (r : Nat × Nat), SendReady s.dev 0 3 (send 3) zoned ∧ (s.dev.zone 1 0).st = .empty ∧
    s.dev.bindCheck 1 zoned 0 = .ok r :=
  ⟨holds (send 3) fun d => serves (hasNs zoned d), (bindCheck_ok (n := 1) (g := 0) (i := 0) (ns := zoned) (by decide +kernel) (by decide +kernel)
    (by decide) (by decide +kernel)).imp fun _ h => ⟨by unfold SendReady Taken; decide +kernel, by decide +kernel, h⟩⟩
def spills : Ns := { zoned with handles := [(1, { groups := [1], spill := true })] }
def spillOpen : Slot := cmd 1 0x79 fun q => { q with nsid := 1, cdw13 := 0x10003 }
theorem witness_ExhaustedHandle_spill : ∃ (s : State) (hd : Handle) (r : Nat × Nat), SendReady s.dev 0 3 spillOpen spills ∧ (s.dev.zone 1 0).st = .empty ∧
    spillOpen.sqe.handle ≠ 0 ∧ mapFind spills.handles spillOpen.sqe.handle = some hd ∧ s.dev.activeOf 1 < spills.limit ∧
    (∀ g ∈ hd.groups, s.dev.freeReserved 1 spills g = 0) ∧ hd.spill = true ∧ s.dev.bindCheck 1 spills 0 = .ok r :=
  ⟨holds spillOpen fun d => serves (hasNs spills d), { groups := [1], spill := true },
    (bindCheck_ok (n := 1) (g := 0) (i := 0) (ns := spills) (by decide +kernel) (by decide +kernel)
      (by decide) (by decide +kernel)).imp fun _ h => ⟨by unfold SendReady Taken; decide +kernel, by decide +kernel, by decide +kernel,
        by decide +kernel, by decide +kernel, by decide +kernel, rfl, h⟩⟩
def refolds : Slot := cmd 1 0x83 fun q => { q with nsid := 1, cdw12 := 1 }
def ranges : List RefoldRange := [{ slba := 524288, nlb := 8 }]
theorem witness_ZonesMove_refoldCmd : ∃ (s : State) (r : Nat × Nat), Taken s.dev 0 false 0x83 refolds ∧ ranges.length = refoldCount refolds.sqe ∧
    s.dev.nsOf 0 1 = some zoned ∧ refoldRsv refolds.sqe = false ∧ refolds.sqe.slba = 0 ∧ s.dev.refoldEarlier refolds = false ∧
    s.dev.atFence refolds = false ∧
    (∀ z ∈ 0 :: rangeZones ranges, s.dev.behindSend refolds 1 z = false ∧ s.dev.behindMark refolds 1 z = false) ∧
    s.dev.refoldRefusal zoned refolds.sqe ranges = none ∧ s.dev.is Fd.ZONE_CTL_BIND_HOLD = false ∧ s.dev.zoneEntryRoom 1 0 = true ∧
    s.dev.bindCheck 1 zoned 0 = .ok r :=
  ⟨holds refolds fun d => serves { hasNs zoned d with zm := { ns := [(1, zoned)], zones := [(2 ^ 20 + 1, { row 15 .closed with wp := 9 })], conv := [], convProg := [], convCopy := [], refolds := [] } },
    (bindCheck_ok (n := 1) (g := 0) (i := 0) (ns := zoned) (by decide +kernel) (by decide +kernel) (by decide) (by decide +kernel)).imp
      fun _ h => ⟨by unfold Taken; decide +kernel, by decide +kernel, by decide +kernel, by decide +kernel, by decide +kernel, by decide +kernel,
        by decide +kernel, by decide +kernel, by decide +kernel, by decide +kernel, by decide +kernel, h⟩⟩
theorem witness_StrokeCounterMoves :
    (∃ s : State, s.dev.boundaryDue = true ∧ s.dev.strk.started = true ∧ s.dev.stroke ≠ 255 ∧ s.dev.strk.load = none) ∧
    (∃ s : State, s.dev.boundaryDue = true ∧ s.dev.strk.started = true ∧ s.dev.stroke = 255) ∧
    (∃ s : State, s.dev.strk.lock = true) ∧
    (∃ s : State, s.dev.rd Fd.SYS_FAULT_UNLOCK = 1) ∧
    (bits (7 : Word).toNat 31 3 = 0) :=
  ⟨⟨(ticking 254), by decide +kernel, by decide +kernel, by decide +kernel, by decide +kernel⟩,
   ⟨(ticking 255), by decide +kernel, by decide +kernel, by decide +kernel⟩,
   ⟨(ticking 0), by decide +kernel⟩,
   ⟨(dev fun d => d.wr Fd.SYS_FAULT_UNLOCK 1), by decide +kernel⟩,
   by decide +kernel⟩

theorem witness_HatchRequestsAct :
    (∃ s : State, bits (121 : Word).toNat 31 7 = 0 ∧ bit (121 : Word).toNat 1 = false ∧ bit (121 : Word).toNat 2 = false ∧ (s.dev.chan (47 : Fin 48)).arm = none ∧ (s.dev.chan (47 : Fin 48)).stop = none) ∧
    (∃ s : State, (s.dev.chan (0 : Fin 48)).arm = some ({ bank := false, target := .any false, checking := true, writtenT := 0, late := false } : ArmReq) ∧ ({ bank := false, target := .any false, checking := true, writtenT := 0, late := false } : ArmReq).checking = true ∧ ({ bank := false, target := .any false, checking := true, writtenT := 0, late := false } : ArmReq).writtenT ≤ (s.dev.atCycle (256 : BitVec 10)).now ∧ (s.dev.atCycle (256 : BitVec 10)).now ≤ ({ bank := false, target := .any false, checking := true, writtenT := 0, late := false } : ArmReq).writtenT + 256) ∧
    (bits (2 : Word).toNat 31 7 = 0 ∧ bit (2 : Word).toNat 0 = false ∧ bit (2 : Word).toNat 2 = false) ∧
    (bits (4 : Word).toNat 31 7 = 0 ∧ bit (4 : Word).toNat 0 = false) :=
  ⟨⟨(State.reset), by decide +kernel, by decide +kernel, by decide +kernel, by decide +kernel, by decide +kernel⟩,
   ⟨(chan fun c => { c with arm := some { bank := false, target := .any false, checking := true, writtenT := 0, late := false } }), by decide +kernel, by decide +kernel, by decide +kernel, by decide +kernel⟩,
   ⟨by decide +kernel, by decide +kernel, by decide +kernel⟩,
   ⟨by decide +kernel, by decide +kernel⟩⟩

theorem witness_BusEventsAct :
    (∃ s : State, s.dev.slotAhead (0 : Fin 48) (3 : Fin 4) = true ∧ (s.dev.chan (0 : Fin 48)).slotFree s.dev.strk.lock (3 : Fin 4) = true) ∧
    (∃ s : State, (s.dev.chan (0 : Fin 48)).holder = some (grant .load) ∧ s.dev.strk.lock = true ∧ (grant .load).moving = true ∧ s.dev.slotAhead (0 : Fin 48) (1 : Fin 4) = true ∧ (s.dev.chan (0 : Fin 48)).rate.cmdStart (1 : Fin 4) < (grant .load).endC) ∧
    (∃ s : State, (s.dev.chan (0 : Fin 48)).holder = some (grant .readOut) ∧ (grant .readOut).moving = true ∧ (grant .readOut).req.kind = .readOut ∧ (s.dev.die (0 : Fin 48) (grant .readOut).req.target).rd = some reading ∧ reading.q.desc.target = (grant .readOut).req.target ∧ reading.q.desc.op = 1 ∧ reading.q.desc.raw = false ∧ ldpcTag reading.q.desc.tag = false) ∧
    (∃ s : State, (s.dev.chan (0 : Fin 48)).holder = some (grant .load) ∧ (grant .load).moving = true ∧ (grant .load).req.kind = .load ∧ (s.dev.die (0 : Fin 48) (grant .load).req.target).op = some programming) ∧
    (∃ s : State, (s.dev.die (0 : Fin 48) (0 : Fin 32)).rd = some reading ∧ reading.floorDue (s.dev.atCycle (0 : BitVec 10)) = true) ∧
    (∃ s : State, (s.dev.die (0 : Fin 48) (0 : Fin 32)).op = some programming ∧ programming.floorDue (s.dev.atCycle (0 : BitVec 10)) = true) ∧
    (∃ s : State, (s.dev.die (0 : Fin 48) (0 : Fin 32)).timeoutClass (s.dev.atCycle (0 : BitVec 10)) = some (((0, false) : Nat × Bool)) ∧ (s.dev.chan (0 : Fin 48)).holder.any (fun h' => h'.moving && h'.req.target == ((0 : Fin 32) : Nat)) = false) ∧
    (∃ s : State, (s.dev.die (0 : Fin 48) (0 : Fin 32)).resetEnd = some (0 : Nat) ∧ (s.dev.atCycle (0 : BitVec 10)).reached (0 : Nat) = true) :=
  ⟨⟨(ticking 0), by decide +kernel, by decide +kernel⟩,
   ⟨((ticking 0).modDev fun d => { d with chans := [(0, { Chan.reset with holder := some (grant .load) })] }), by decide +kernel, by decide +kernel, by decide +kernel, by decide +kernel, by decide +kernel⟩,
   ⟨(chan fun c => { die (fun x => { x with rd := some reading }) c with holder := some (grant .readOut) }), by decide +kernel, by decide +kernel, by decide +kernel, by decide +kernel, by decide +kernel, by decide +kernel, by decide +kernel, by decide +kernel⟩,
   ⟨(chan fun c => { die (fun x => { x with op := some programming }) c with holder := some (grant .load) }), by decide +kernel, by decide +kernel, by decide +kernel, by decide +kernel⟩,
   ⟨(chan (die fun x => { x with rd := some reading })), by decide +kernel, by decide +kernel⟩,
   ⟨(chan (die fun x => { x with op := some programming })), by decide +kernel, by decide +kernel⟩,
   ⟨(chan (die fun x => { x with rd := some reading })), by decide +kernel, by decide +kernel⟩,
   ⟨(chan (die fun x => { x with resetEnd := some 0 })), by decide +kernel, by decide +kernel⟩⟩

theorem witness_ChannelWritesAct :
    (bits (0xFFFF : Word).toNat 31 16 = 0) ∧
    (bits (3 : Word).toNat 31 2 = 0) ∧
    (bits (4 : Word).toNat 31 19 = 0 ∧ bits (4 : Word).toNat 15 9 = 0 ∧ bits (4 : Word).toNat 7 3 = 0 ∧ 1 ≤ bits (4 : Word).toNat 2 0 ∧ bits (4 : Word).toNat 2 0 ≤ 4) ∧
    (∃ s : State, (s.dev.chan (0 : Fin 48)).training = .running) :=
  ⟨by decide +kernel,
   by decide +kernel,
   ⟨by decide +kernel, by decide +kernel, by decide +kernel, by decide +kernel, by decide +kernel⟩,
   ⟨(chan fun c => { c with training := .running }), by decide +kernel⟩⟩

theorem witness_QueuesAct :
    (∃ s : State, s.dev.insecure (0 : Fin 1026) = false ∧ mapFind (s.dev.func (0 : Fin 1026)).sqs (1 : BitVec 16).toNat = some sq4 ∧ (3 : Word).toNat ≠ sq4.tail ∧ (3 : Word).toNat < sq4.size) ∧
    (∃ s : State, s.dev.insecure (0 : Fin 1026) = false ∧ mapFind (s.dev.func (0 : Fin 1026)).cqs (1 : BitVec 16).toNat = some cq4 ∧ (0 : Word).toNat < cq4.size ∧ ringDist cq4.size cq4.head (0 : Word).toNat ≤ ringDist cq4.size cq4.head cq4.tail ∧ cq4.holding = []) ∧
    (∃ s : State, s.dev.host.issued.filter (fun j' => decide (j'.fn = (0 : Fin 1026).val) && decide (j'.qid = (1 : BitVec 16).toNat)) = [({ fn := 0, qid := 1, idx := 0, slot := 0, sqe := none } : Issued)] ∧ ({ fn := 0, qid := 1, idx := 0, slot := 0, sqe := none } : Issued).idx = (0 : BitVec 16).toNat ∧ ({ fn := 0, qid := 1, idx := 0, slot := 0, sqe := none } : Issued).sqe = none) ∧
    (∃ s : State, s.dev.slot? (0 : Fin 131072) = some ({ io 2 with phase := .due, cpl := some success } : Slot) ∧ ({ io 2 with phase := .due, cpl := some success } : Slot).cpl = some success ∧ ({ io 2 with phase := .due, cpl := some success } : Slot).phase = .due ∧ (s.dev.atCycle (0 : BitVec 10)).inTurn ({ io 2 with phase := .due, cpl := some success } : Slot) = true ∧ s.dev.mute ({ io 2 with phase := .due, cpl := some success } : Slot).fn = false ∧ s.dev.pacedClass ({ io 2 with phase := .due, cpl := some success } : Slot) = none ∧ CqOf s.dev ({ io 2 with phase := .due, cpl := some success } : Slot).fn ({ io 2 with phase := .due, cpl := some success } : Slot).qid (1 : Nat) cq4 ∧ cq4.full = false) ∧
    (∃ s : State, s.dev.slot? (0 : Fin 131072) = some ({ io 2 with phase := .due, cpl := some success, single := true, headT := some 0 } : Slot) ∧ ({ io 2 with phase := .due, cpl := some success, single := true, headT := some 0 } : Slot).cpl = some success ∧ ({ io 2 with phase := .due, cpl := some success, single := true, headT := some 0 } : Slot).phase = .due ∧ (s.dev.atCycle (0 : BitVec 10)).inTurn ({ io 2 with phase := .due, cpl := some success, single := true, headT := some 0 } : Slot) = true ∧ s.dev.mute ({ io 2 with phase := .due, cpl := some success, single := true, headT := some 0 } : Slot).fn = false ∧ s.dev.pacedClass ({ io 2 with phase := .due, cpl := some success, single := true, headT := some 0 } : Slot) = some (0 : Nat) ∧ ({ io 2 with phase := .due, cpl := some success, single := true, headT := some 0 } : Slot).reread = false ∧ ({ io 2 with phase := .due, cpl := some success, single := true, headT := some 0 } : Slot).headT = some (0 : Nat) ∧ (s.dev.atCycle (0 : BitVec 10)).now = (0 : Nat) + s.dev.rdb (0 : Nat) Fd.TEN_CLS_PACE_PACE ∧ CqOf s.dev ({ io 2 with phase := .due, cpl := some success, single := true, headT := some 0 } : Slot).fn ({ io 2 with phase := .due, cpl := some success, single := true, headT := some 0 } : Slot).qid (1 : Nat) cq4 ∧ cq4.full = false) :=
  ⟨⟨(dev (func fun x => { x with sqs := [(1, sq4)] })), by decide +kernel, by decide +kernel, by decide +kernel, by decide +kernel⟩,
   ⟨(dev (func fun x => { x with cqs := [(1, cq4)] })), by decide +kernel, by decide +kernel, by decide +kernel, by decide +kernel, by decide +kernel⟩,
   ⟨(dev fun d => { d with host := { d.host with issued := [{ fn := 0, qid := 1, idx := 0, slot := 0, sqe := none }] } }), by decide +kernel, by decide +kernel, by decide +kernel⟩,
   ⟨(holds ({ io 2 with phase := .due, cpl := some success }) (func fun x => { x with sqs := [(1, sq4)], cqs := [(1, cq4)] })), by decide +kernel, by decide +kernel, by decide +kernel, by decide +kernel, by decide +kernel, by decide +kernel, ⟨_, rfl, rfl, rfl⟩, by decide +kernel⟩,
   ⟨(holds ({ io 2 with phase := .due, cpl := some success, single := true, headT := some 0 }) (fun d => (func (fun x => { x with sqs := [(1, sq4)], cqs := [(1, cq4)] }) (hasNs conv d)).wrb 0 Fd.TEN_CLS_CFG_PACE 1)), by decide +kernel, by decide +kernel, by decide +kernel, by decide +kernel, by decide +kernel, by decide +kernel, by decide +kernel, by decide +kernel, by decide +kernel, ⟨_, rfl, rfl, rfl⟩, by decide +kernel⟩⟩

theorem witness_QueueCommandsAct :
    (∃ s : State, Taken s.dev (0 : Fin 131072) true 0x05 (adm 5 0x10004 1) ∧ bits (adm 5 0x10004 1).sqe.cdw10.toNat 15 0 ≠ 0 ∧ bits (adm 5 0x10004 1).sqe.cdw10.toNat 15 0 ≤ (s.dev.func (adm 5 0x10004 1).fn).cqQuota ∧ mapFind (s.dev.func (adm 5 0x10004 1).fn).cqs (bits (adm 5 0x10004 1).sqe.cdw10.toNat 15 0) = none ∧ ((s.dev.func (adm 5 0x10004 1).fn).cqs.filter fun c' => c'.1 ≠ 0).length < (s.dev.func (adm 5 0x10004 1).fn).cqQuota ∧ 1 ≤ bits (adm 5 0x10004 1).sqe.cdw10.toNat 31 16 ∧ bit (adm 5 0x10004 1).sqe.cdw11.toNat 0 = true ∧ bits (adm 5 0x10004 1).sqe.cdw11.toNat 31 16 < vectors (adm 5 0x10004 1).fn) ∧
    (∃ s : State, Taken s.dev (0 : Fin 131072) true 0x01 (adm 1 0x10004 0x10001) ∧ bits (adm 1 0x10004 0x10001).sqe.cdw10.toNat 15 0 ≠ 0 ∧ bits (adm 1 0x10004 0x10001).sqe.cdw10.toNat 15 0 ≤ (s.dev.func (adm 1 0x10004 0x10001).fn).sqQuota ∧ mapFind (s.dev.func (adm 1 0x10004 0x10001).fn).sqs (bits (adm 1 0x10004 0x10001).sqe.cdw10.toNat 15 0) = none ∧ ((s.dev.func (adm 1 0x10004 0x10001).fn).sqs.filter fun c' => c'.1 ≠ 0).length < (s.dev.func (adm 1 0x10004 0x10001).fn).sqQuota ∧ 1 ≤ bits (adm 1 0x10004 0x10001).sqe.cdw10.toNat 31 16 ∧ bit (adm 1 0x10004 0x10001).sqe.cdw11.toNat 0 = true ∧ bits (adm 1 0x10004 0x10001).sqe.cdw11.toNat 31 16 ≠ 0 ∧ (mapFind (s.dev.func (adm 1 0x10004 0x10001).fn).cqs (bits (adm 1 0x10004 0x10001).sqe.cdw11.toNat 31 16)).isSome = true) ∧
    (∃ s : State, Taken s.dev (0 : Fin 131072) true 0x00 (adm 0 1 0) ∧ mapFind (s.dev.func (adm 0 1 0).fn).sqs (bits (adm 0 1 0).sqe.cdw10.toNat 15 0) = some ({ sq4 with deleting := some 0 }) ∧ ({ sq4 with deleting := some 0 }).deleting = some (0 : Fin 131072).val) ∧
    (∃ s : State, Taken s.dev (0 : Fin 131072) true 0x04 (adm 4 1 0) ∧ bits (adm 4 1 0).sqe.cdw10.toNat 15 0 ≠ 0 ∧ (mapFind (s.dev.func (adm 4 1 0).fn).cqs (bits (adm 4 1 0).sqe.cdw10.toNat 15 0)).isSome = true) ∧
    (∃ s : State, Taken s.dev (0 : Fin 131072) true 0x08 (adm 8 0 0)) ∧
    (∃ s : State, Taken s.dev (0 : Fin 131072) true 0x0C (adm 12 0 0)) :=
  ⟨⟨(holds (adm 5 0x10004 1) (func fun x => { x with sqQuota := 4, cqQuota := 4 })), by unfold Taken; decide +kernel, by decide +kernel, by decide +kernel, by decide +kernel, by decide +kernel, by decide +kernel, by decide +kernel, by decide +kernel⟩,
   ⟨(holds (adm 1 0x10004 0x10001) (func fun x => { x with sqQuota := 4, cqQuota := 4, cqs := [(1, cq4)] })), by unfold Taken; decide +kernel, by decide +kernel, by decide +kernel, by decide +kernel, by decide +kernel, by decide +kernel, by decide +kernel, by decide +kernel, by decide +kernel⟩,
   ⟨(holds (adm 0 1 0) (func fun x => { x with sqs := [(1, { sq4 with deleting := some 0 })] })), by unfold Taken; decide +kernel, by decide +kernel, by decide +kernel⟩,
   ⟨(holds (adm 4 1 0) (func fun x => { x with cqs := [(1, cq4)] })), by unfold Taken; decide +kernel, by decide +kernel, by decide +kernel⟩,
   ⟨(holds (adm 8 0 0) id), by unfold Taken; decide +kernel⟩,
   ⟨(holds (adm 12 0 0) id), by unfold Taken; decide +kernel⟩⟩

theorem witness_FeaturesAct :
    (∃ s : State, Taken s.dev (0 : Fin 131072) true 0x09 (adm 9 5 0) ∧ Sqe.fid (adm 9 5 0).sqe ∈ [0x01, 0x05]) ∧
    (∃ s : State, Taken s.dev (0 : Fin 131072) true 0x09 (adm 9 7 0) ∧ Sqe.fid (adm 9 7 0).sqe = 0x07) ∧
    (∃ s : State, Taken s.dev (0 : Fin 131072) true 0x09 (adm 9 2 4) ∧ Sqe.fid (adm 9 2 4).sqe = 0x02 ∧ bits (adm 9 2 4).sqe.cdw11.toNat 4 0 ≤ 4) ∧
    (∃ s : State, Taken s.dev (0 : Fin 131072) true 0x09 (adm 9 12 0) ∧ Sqe.fid (adm 9 12 0).sqe = 0x0C ∧ (List.replicate 32 (0 : DWord)).length = 32) ∧
    (∃ s : State, Taken s.dev (0 : Fin 131072) true 0x09 (adm 9 14 0) ∧ Sqe.fid (adm 9 14 0).sqe = 0x0E) ∧
    (∃ s : State, Taken s.dev (0 : Fin 131072) true 0x09 (cmd 0 9 fun q => { q with cdw10 := 0xC1, cdw11 := 0, nsid := 1 }) ∧ Sqe.fid (cmd 0 9 fun q => { q with cdw10 := 0xC1, cdw11 := 0, nsid := 1 }).sqe = 0xC1 ∧ s.dev.nsOf (cmd 0 9 fun q => { q with cdw10 := 0xC1, cdw11 := 0, nsid := 1 }).fn (cmd 0 9 fun q => { q with cdw10 := 0xC1, cdw11 := 0, nsid := 1 }).sqe.nsid.toNat = some conv) ∧
    (∃ s : State, Taken s.dev (0 : Fin 131072) true 0x09 (adm 9 11 0) ∧ Sqe.fid (adm 9 11 0).sqe = 0x0B) ∧
    (∃ s : State, Taken s.dev (0 : Fin 131072) true 0x09 (adm 9 4 0x100000) ∧ Sqe.fid (adm 9 4 0x100000).sqe = 0x04 ∧ bits (adm 9 4 0x100000).sqe.cdw11.toNat 19 16 = 0 ∧ bits (adm 9 4 0x100000).sqe.cdw11.toNat 21 20 ≤ 1) :=
  ⟨⟨(holds (adm 9 5 0) (id)), by unfold Taken; decide +kernel, by decide +kernel⟩,
   ⟨(holds (adm 9 7 0) (id)), by unfold Taken; decide +kernel, by decide +kernel⟩,
   ⟨(holds (adm 9 2 4) (id)), by unfold Taken; decide +kernel, by decide +kernel, by decide +kernel⟩,
   ⟨(holds (adm 9 12 0) (id)), by unfold Taken; decide +kernel, by decide +kernel, by decide +kernel⟩,
   ⟨(holds (adm 9 14 0) (id)), by unfold Taken; decide +kernel, by decide +kernel⟩,
   ⟨(holds (cmd 0 9 fun q => { q with cdw10 := 0xC1, cdw11 := 0, nsid := 1 }) (hasNs conv)), by unfold Taken; decide +kernel, by decide +kernel, by decide +kernel⟩,
   ⟨(holds (adm 9 11 0) (id)), by unfold Taken; decide +kernel, by decide +kernel⟩,
   ⟨(holds (adm 9 4 0x100000) (id)), by unfold Taken; decide +kernel, by decide +kernel, by decide +kernel, by decide +kernel⟩⟩

theorem witness_FeaturesAct_2 :
    (∃ s : State, ∃ v bs, Taken s.dev (0 : Fin 131072) true 0x0A (adm 10 1 0) ∧ Sqe.fid (adm 10 1 0).sqe ≠ 0x0E ∧ featValue s.dev (adm 10 1 0).fn (adm 10 1 0).sqe = .ok (v, bs)) ∧
    (∃ s : State, Taken s.dev (0 : Fin 131072) true 0x0A (adm 10 14 0) ∧ Sqe.fid (adm 10 14 0).sqe = 0x0E ∧ s.dev.mute (adm 10 14 0).fn = false) :=
  ⟨⟨(holds (adm 10 1 0) (id)), _, _, ⟨rfl, rfl, rfl, rfl⟩, by decide, rfl⟩,
   ⟨(holds (adm 10 14 0) (id)), by unfold Taken; decide +kernel, by decide +kernel, by decide +kernel⟩⟩

theorem witness_AdminCommandsAct :
    (∃ s : State, Taken s.dev (0 : Fin 131072) true 0x02 (adm 2 1 0) ∧ logKnown (adm 2 1 0).fn (bits (adm 2 1 0).sqe.cdw10.toNat 7 0) = true ∧ s.dev.mute (adm 2 1 0).fn = false ∧ ((bits (adm 2 1 0).sqe.cdw10.toNat 7 0 = 0x02 ∨ bits (adm 2 1 0).sqe.cdw10.toNat 7 0 = 0xBF → ∃ ns', s.dev.nsOf (adm 2 1 0).fn (adm 2 1 0).sqe.nsid.toNat = some ns')) ∧ (adm 2 1 0).sqe.cdw12.toNat + (adm 2 1 0).sqe.cdw13.toNat * 2 ^ 32 ≤ (logPage s.dev (adm 2 1 0).fn (bits (adm 2 1 0).sqe.cdw10.toNat 7 0) (adm 2 1 0).sqe.nsid.toNat).1) ∧
    (∃ s : State, ∃ p, Taken s.dev (0 : Fin 131072) true 0x06 (adm 6 1 0) ∧ identifyData s.dev (adm 6 1 0).fn (adm 6 1 0).sqe = .ok p ∧ s.dev.mute (adm 6 1 0).fn = false) ∧
    (∃ s : State, Taken s.dev (0 : Fin 131072) true 0x11 (adm 17 1023 (5120 * 1024 - 1024)) ∧ (adm 17 1023 (5120 * 1024 - 1024)).sqe.cdw10.toNat = 1023 ∧ (adm 17 1023 (5120 * 1024 - 1024)).sqe.cdw11.toNat % 1024 = 0 ∧ (adm 17 1023 (5120 * 1024 - 1024)).sqe.cdw11.toNat < 5120 * 1024 ∧ (zeros 4096).length = 4096) ∧
    (∃ s : State, Taken s.dev (0 : Fin 131072) true 0x10 (adm 16 (2 * 8 + 3) 0) ∧ bits (adm 16 (2 * 8 + 3) 0).sqe.cdw10.toNat 5 3 = 2 ∧ bits (adm 16 (2 * 8 + 3) 0).sqe.cdw10.toNat 2 0 ∈ [1, 2, 3] ∧ s.dev.nvm.slotBytes (bits (adm 16 (2 * 8 + 3) 0).sqe.cdw10.toNat 2 0) ≠ []) ∧
    (∃ s : State, Taken s.dev (0 : Fin 131072) true 0x14 (cmd 0 20 fun q => { q with cdw10 := 1, cdw11 := 0, nsid := 0xFFFFFFFF }) ∧ bits (cmd 0 20 fun q => { q with cdw10 := 1, cdw11 := 0, nsid := 0xFFFFFFFF }).sqe.cdw10.toNat 3 0 = 1 ∧ (cmd 0 20 fun q => { q with cdw10 := 1, cdw11 := 0, nsid := 0xFFFFFFFF }).sqe.nsid.toNat = 0xFFFFFFFF ∧ s.dev.host.selfTest = 0) ∧
    (∃ s : State, Taken s.dev (0 : Fin 131072) true 0x14 (cmd 0 20 fun q => { q with cdw10 := 2, cdw11 := 0, nsid := 0xFFFFFFFF }) ∧ bits (cmd 0 20 fun q => { q with cdw10 := 2, cdw11 := 0, nsid := 0xFFFFFFFF }).sqe.cdw10.toNat 3 0 = 2 ∧ (cmd 0 20 fun q => { q with cdw10 := 2, cdw11 := 0, nsid := 0xFFFFFFFF }).sqe.nsid.toNat = 0xFFFFFFFF ∧ s.dev.host.selfTest = 0) ∧
    (∃ s : State, Taken s.dev (0 : Fin 131072) true 0x14 (cmd 0 20 fun q => { q with cdw10 := 15, cdw11 := 0, nsid := 0xFFFFFFFF }) ∧ bits (cmd 0 20 fun q => { q with cdw10 := 15, cdw11 := 0, nsid := 0xFFFFFFFF }).sqe.cdw10.toNat 3 0 = 0xF ∧ (cmd 0 20 fun q => { q with cdw10 := 15, cdw11 := 0, nsid := 0xFFFFFFFF }).sqe.nsid.toNat = 0xFFFFFFFF) ∧
    (∃ s : State, Taken s.dev (0 : Fin 131072) true 0x80 (cmd 0 128 fun q => { q with cdw10 := 0x400, cdw11 := 0, nsid := 1 }) ∧ bits (cmd 0 128 fun q => { q with cdw10 := 0x400, cdw11 := 0, nsid := 1 }).sqe.cdw10.toNat 11 9 = 2 ∧ s.dev.nsOf (cmd 0 128 fun q => { q with cdw10 := 0x400, cdw11 := 0, nsid := 1 }).fn (cmd 0 128 fun q => { q with cdw10 := 0x400, cdw11 := 0, nsid := 1 }).sqe.nsid.toNat = some conv ∧ s.dev.nsQuiet (cmd 0 128 fun q => { q with cdw10 := 0x400, cdw11 := 0, nsid := 1 }).sqe.nsid.toNat (cmd 0 128 fun q => { q with cdw10 := 0x400, cdw11 := 0, nsid := 1 }).seq = true) :=
  ⟨⟨(holds (adm 2 1 0) (id)), ⟨rfl, rfl, rfl, rfl⟩, rfl, rfl, fun h => absurd h (by decide), Nat.zero_le _⟩,
   ⟨(holds (adm 6 1 0) (id)), _, ⟨rfl, rfl, rfl, rfl⟩, rfl, rfl⟩,
   ⟨(holds (adm 17 1023 (5120 * 1024 - 1024)) (id)), ⟨rfl, rfl, rfl, rfl⟩, rfl, rfl, by decide, List.length_replicate⟩,
   ⟨(holds (adm 16 (2 * 8 + 3) 0) (fun d => { d with nvm := { d.nvm with fw := [(3, [1])] } })), by unfold Taken; decide +kernel, by decide +kernel, by decide +kernel, by decide +kernel⟩,
   ⟨(holds (cmd 0 20 fun q => { q with cdw10 := 1, cdw11 := 0, nsid := 0xFFFFFFFF }) (id)), by unfold Taken; decide +kernel, by decide +kernel, by decide +kernel, by decide +kernel⟩,
   ⟨(holds (cmd 0 20 fun q => { q with cdw10 := 2, cdw11 := 0, nsid := 0xFFFFFFFF }) (id)), by unfold Taken; decide +kernel, by decide +kernel, by decide +kernel, by decide +kernel⟩,
   ⟨(holds (cmd 0 20 fun q => { q with cdw10 := 15, cdw11 := 0, nsid := 0xFFFFFFFF }) (id)), by unfold Taken; decide +kernel, by decide +kernel, by decide +kernel⟩,
   ⟨(holds (cmd 0 128 fun q => { q with cdw10 := 0x400, cdw11 := 0, nsid := 1 }) (hasNs conv)), by unfold Taken; decide +kernel, by decide +kernel, by decide +kernel, by decide +kernel⟩⟩

theorem witness_AdminCommandsAct_2 :
    ∃ s : State, Taken s.dev (0 : Fin 131072) true 0x84 (adm 132 4 0) ∧ bits (adm 132 4 0).sqe.cdw10.toNat 2 0 = 4 ∧ (s.dev.zm.ns.all fun e' => s.dev.nsQuiet e'.1 (adm 132 4 0).seq) = true :=
  ⟨(holds (adm 132 4 0) (id)), by unfold Taken; decide +kernel, by decide +kernel, by decide +kernel⟩

theorem witness_ReadsAndWritesStart :
    (∃ s : State, Taken s.dev (0 : Fin 131072) false 0x00 (io 0) ∧ s.dev.nsOf (io 0).fn (io 0).sqe.nsid.toNat = some conv ∧ s.dev.atFence (io 0) = false ∧ s.dev.mustDeliver (io 0) = none) ∧
    (∃ s : State, ((1 : Nat), (Instr.writeCmd 0)) ∈ [(0x01, Instr.writeCmd (0 : Fin 131072)), (0x08, .writeZeroes (0 : Fin 131072))] ∧ IoReady s.dev (0 : Fin 131072) (1 : Nat) (io 1) conv ∧ conv.zoned = false ∧ s.dev.epochSpent (io 1).sqe.nsid.toNat = false ∧ s.dev.is Fd.CAM_CTL_HOLD = false ∧ s.dev.camWriteFor (io 1).fn = true ∧ s.dev.camLowFree s.dev.camFuel 0 = some (0 : Nat)) ∧
    (∃ s : State, ((1 : Nat), (Instr.writeCmd 0)) ∈ [(0x01, Instr.writeCmd (0 : Fin 131072)), (0x08, .writeZeroes (0 : Fin 131072)), (0x7D, .zoneAppend (0 : Fin 131072))] ∧ IoReady s.dev (0 : Fin 131072) (1 : Nat) (io 1) zoned ∧ zoned.zoned = true ∧ s.dev.epochSpent (io 1).sqe.nsid.toNat = false ∧ s.dev.behindSend (io 1) (io 1).sqe.nsid.toNat (sqeZone (io 1).sqe) = false ∧ zoneLookup ((io 1).phase == .fetched) (io 1).sqe.nsid.toNat (sqeZone (io 1).sqe) s.dev = (false, ((zoneLookup true 1 0 s.dev).2)) ∧ ((zoneLookup true 1 0 s.dev).2).landSearch (io 1).sqe.nsid.toNat (sqeZone (io 1).sqe) (io 1).sqe = none ∧ ((zoneLookup true 1 0 s.dev).2).writeRefusal (io 1).sqe.nsid.toNat (sqeZone (io 1).sqe) (io 1) = none ∧ ((zoneLookup true 1 0 s.dev).2).zoneGone (io 1).sqe.nsid.toNat (sqeZone (io 1).sqe) = false ∧ ((zoneLookup true 1 0 s.dev).2).zoneLost (io 1).sqe.nsid.toNat (sqeZone (io 1).sqe) = false ∧ ((zoneLookup true 1 0 s.dev).2).placeRefusal (io 1).sqe.nsid.toNat (sqeZone (io 1).sqe) (io 1).sqe = none ∧ ((zoneLookup true 1 0 s.dev).2).zoneEntryRoom (io 1).sqe.nsid.toNat (sqeZone (io 1).sqe) = true ∧ (((zoneLookup true 1 0 s.dev).2).zone (io 1).sqe.nsid.toNat (sqeZone (io 1).sqe)).st ≠ .empty) ∧
    (∃ s : State, ((2 : Nat), (Instr.readCmd 0)) ∈ [(0x02, Instr.readCmd (0 : Fin 131072)), (0x0C, .verifyCmd (0 : Fin 131072))] ∧ IoReady s.dev (0 : Fin 131072) (2 : Nat) (io 2) conv ∧ conv.zoned = false ∧ (io 2).maint = false ∧ (io 2).total = 0 ∧ s.dev.is Fd.CAM_CTL_HOLD = false) ∧
    (∃ s : State, ((2 : Nat), (Instr.readCmd 0)) ∈ [(0x02, Instr.readCmd (0 : Fin 131072)), (0x0C, .verifyCmd (0 : Fin 131072))] ∧ IoReady s.dev (0 : Fin 131072) (2 : Nat) ({ io 2 with maint := true }) conv ∧ conv.zoned = false ∧ ({ io 2 with maint := true }).maint = true ∧ s.dev.readable ({ io 2 with maint := true }).sqe conv) ∧
    (∃ s : State, ((12 : Nat), (Instr.verifyCmd 0)) ∈ [(0x02, Instr.readCmd (0 : Fin 131072)), (0x0C, .verifyCmd (0 : Fin 131072))] ∧ IoReady s.dev (0 : Fin 131072) (12 : Nat) (io 12) zoned ∧ zoned.zoned = true ∧ s.dev.behindSend (io 12) (io 12).sqe.nsid.toNat (sqeZone (io 12).sqe) = false ∧ (s.dev.zone (io 12).sqe.nsid.toNat (sqeZone (io 12).sqe)).st ≠ .offline ∧ (io 12).sqe.slba - zoneStart (sqeZone (io 12).sqe) + (io 12).sqe.nlb ≤ (s.dev.zone (io 12).sqe.nsid.toNat (sqeZone (io 12).sqe)).wp ∧ zoneLookup ((io 12).phase == .fetched) (io 12).sqe.nsid.toNat (sqeZone (io 12).sqe) s.dev = (false, ((zoneLookup true 1 0 s.dev).2)) ∧ ((zoneLookup true 1 0 s.dev).2).readable (io 12).sqe zoned) ∧
    (∃ s : State, s.dev.cam.searches.find? (fun y' => decide (y'.1 = (0 : Fin 131072).val)) = some (((0, none) : Nat × Option CamHit))) ∧
    (∃ s : State, s.dev.cam.waits.find? (fun y' => decide (y'.1 = (0 : Fin 131072).val)) = some (((0, 3) : Nat × Nat)) ∧ s.dev.slot? (0 : Fin 131072) = some (io 2) ∧ s.dev.entryGone (io 2) (((0, 3) : Nat × Nat)).2 = true ∧ s.dev.is Fd.CAM_CTL_HOLD = false ∧ s.dev.cam.left ≠ 0) :=
  ⟨⟨(holds (io 0) (fun d => (id) (hasNs conv d))), by unfold Taken; decide +kernel, by decide +kernel, by decide +kernel, by decide +kernel⟩,
   ⟨(holds (io 1) (fun d => (fun d => d) (hasNs conv d))), by decide +kernel, by unfold IoReady Taken; decide +kernel, by decide +kernel, by decide +kernel, by decide +kernel, by decide +kernel, by decide +kernel⟩,
   ⟨(holds (io 1) (fun d => (hasZone (row 14 .implOpen)) (hasNs zoned d))), by decide +kernel, by unfold IoReady Taken; decide +kernel, by decide +kernel, by decide +kernel, by decide +kernel, by decide +kernel, by decide +kernel, by decide +kernel, by decide +kernel, by decide +kernel, by decide +kernel, by decide +kernel, by decide +kernel⟩,
   ⟨(holds (io 2) (fun d => (id) (hasNs conv d))), by decide +kernel, by unfold IoReady Taken; decide +kernel, by decide +kernel, by decide +kernel, by decide +kernel, by decide +kernel⟩,
   ⟨(holds ({ io 2 with maint := true }) (fun d => (id) (hasNs conv d))), by decide +kernel, by unfold IoReady Taken; decide +kernel, by decide +kernel, by decide +kernel, ⟨rfl, rfl, rfl⟩⟩,
   ⟨(holds (io 12) (fun d => (hasZone { row 14 .closed with wp := 1 }) (hasNs zoned d))), by decide +kernel, by unfold IoReady Taken; decide +kernel, by decide +kernel, by decide +kernel, by decide +kernel, by decide +kernel, by decide +kernel, ⟨rfl, rfl, rfl⟩⟩,
   ⟨(dev fun d => { d with cam := { d.cam with searches := [(0, none)] } }), by decide +kernel⟩,
   ⟨(holds (io 2) fun d => { d with cam := { d.cam with waits := [(0, 3)], left := 1 } }), by decide +kernel, by decide +kernel, by decide +kernel, by decide +kernel, by decide +kernel⟩⟩

theorem witness_WritesLand :
    (∃ s : State, s.dev.nextWriteGrant = some ((0 : Nat), ({ io 8 with phase := .waiting, total := 1, chain := endOfChain })) ∧ s.dev.slot? (0 : Nat) = some ({ io 8 with phase := .waiting, total := 1, chain := endOfChain })) ∧
    (∃ s : State, s.dev.slot? (0 : Fin 131072) = some ({ io 1 with phase := .moving, total := 1 }) ∧ ({ io 1 with phase := .moving, total := 1 }).isWrite = true ∧ ({ io 1 with phase := .moving, total := 1 }).sqe.op ≠ 0x08 ∧ ({ io 1 with phase := .moving, total := 1 }).phase = .moving ∧ (0 : Fin 65536).val < ({ io 1 with phase := .moving, total := 1 }).total ∧ s.dev.sectorHere (0 : Fin 131072) (0 : Fin 65536) ({ io 1 with phase := .moving, total := 1 }) = false) ∧
    (∃ s : State, s.dev.slot? (0 : Fin 131072) = some ({ io 1 with phase := .moving, total := 1, arrived := [0] }) ∧ ({ io 1 with phase := .moving, total := 1, arrived := [0] }).isWrite = true ∧ ({ io 1 with phase := .moving, total := 1, arrived := [0] }).phase = .moving ∧ ({ io 1 with phase := .moving, total := 1, arrived := [0] }).arrived.length = ({ io 1 with phase := .moving, total := 1, arrived := [0] }).total ∧ ((∀ zk', ({ io 1 with phase := .moving, total := 1, arrived := [0] }).zone = some zk' → ({ io 1 with phase := .moving, total := 1, arrived := [0] }).start = zoneStart (zk' % 2 ^ 20) + (s.dev.zone ({ io 1 with phase := .moving, total := 1, arrived := [0] }).sqe.nsid.toNat (zk' % 2 ^ 20)).wp))) ∧
    (∃ s : State, s.dev.slot? (0 : Fin 131072) = some ({ io 1 with phase := .moving, total := 1 }) ∧ ({ io 1 with phase := .moving, total := 1 }).phase = .moving ∧ ({ io 1 with phase := .moving, total := 1 }).isWrite = true ∧ ({ io 1 with phase := .moving, total := 1 }).committed = false) ∧
    (∃ s : State, s.dev.slot? (0 : Fin 131072) = some ({ io 2 with phase := .moving, total := 1 }) ∧ ({ io 2 with phase := .moving, total := 1 }).phase = .moving ∧ ({ io 2 with phase := .moving, total := 1 }).isWrite = false ∧ ({ io 2 with phase := .moving, total := 1 }).qid ≠ 0 ∧ ({ io 2 with phase := .moving, total := 1 }).sqe.op = 0x02 ∧ ({ io 2 with phase := .moving, total := 1 }).bad = none) :=
  ⟨⟨(holds ({ io 8 with phase := .waiting, total := 1, chain := endOfChain }) fun d => ({ hasNs conv d with pool := { d.pool with ready := true, ringEnd := 2000000 } }).wrb 0 Fd.TEN_T_CELL_CAP_CELLS 4), by decide +kernel, by decide +kernel⟩,
   ⟨(holds ({ io 1 with phase := .moving, total := 1 }) id), by decide +kernel, by decide +kernel, by decide +kernel, by decide +kernel, by decide +kernel, by decide +kernel⟩,
   ⟨(holds ({ io 1 with phase := .moving, total := 1, arrived := [0] }) id), rfl, rfl, rfl, rfl, fun _ h => by cases h⟩,
   ⟨(holds ({ io 1 with phase := .moving, total := 1 }) id), by decide +kernel, by decide +kernel, by decide +kernel, by decide +kernel⟩,
   ⟨(holds ({ io 2 with phase := .moving, total := 1 }) id), by decide +kernel, by decide +kernel, by decide +kernel, by decide +kernel, by decide +kernel, by decide +kernel⟩⟩

theorem witness_ZonesMove :
    (∃ s : State, ((1 : Nat), (Instr.zoneClose 0), ZoneState.explOpen, ZoneState.closed) ∈ sendMoves (0 : Fin 131072) ∧ SendReady s.dev (0 : Fin 131072) (1 : Nat) (send 1) zoned ∧ (s.dev.zone (send 1).sqe.nsid.toNat (sqeZone (send 1).sqe)).st = ZoneState.explOpen) ∧
    (∃ s : State, SendReady s.dev (0 : Fin 131072) 0x80 (send 0x80) zoned ∧ (s.dev.zone (send 0x80).sqe.nsid.toNat (sqeZone (send 0x80).sqe)).st = .offline ∧ (s.dev.zone (send 0x80).sqe.nsid.toNat (sqeZone (send 0x80).sqe)).row = some ((0 : Nat), (14 : Nat)) ∧ s.dev.rowSpent (0 : Nat) (14 : Nat) = false) ∧
    (∃ s : State, ((4 : Nat), (Instr.zoneReset 0)) ∈ sends (0 : Fin 131072) ∧ Taken s.dev (0 : Fin 131072) false 0x79 (send 0x104) ∧ bits (send 0x104).sqe.cdw13.toNat 7 0 = (4 : Nat) ∧ s.dev.nsOf (send 0x104).fn (send 0x104).sqe.nsid.toNat = some zoned ∧ zoned.zoned = true ∧ bit (send 0x104).sqe.cdw13.toNat 8 = true ∧ s.dev.atFence (send 0x104) = false ∧ s.dev.behindAll (send 0x104) (send 0x104).sqe.nsid.toNat = false ∧ (s.dev.zonesOf (send 0x104).sqe.nsid.toNat).any (fun e' => s.dev.behindMark (send 0x104) (send 0x104).sqe.nsid.toNat e'.1) = false) ∧
    (∃ s : State, ((0x80 : Nat), (Instr.reportZonePlacement 0), (16 : Nat), placementEntry) ∈ [(0, Instr.reportZones (0 : Fin 131072), 64, fun _' => zoneDesc), (0x80, .reportZonePlacement (0 : Fin 131072), 16, placementEntry)] ∧ Taken s.dev (0 : Fin 131072) false 0x7A (cmd 1 0x7A fun q => { q with nsid := 1, cdw13 := 0x80 }) ∧ bits (cmd 1 0x7A fun q => { q with nsid := 1, cdw13 := 0x80 }).sqe.cdw13.toNat 7 0 = (0x80 : Nat) ∧ s.dev.nsOf (cmd 1 0x7A fun q => { q with nsid := 1, cdw13 := 0x80 }).fn (cmd 1 0x7A fun q => { q with nsid := 1, cdw13 := 0x80 }).sqe.nsid.toNat = some zoned ∧ zoned.zoned = true ∧ s.dev.atFence (cmd 1 0x7A fun q => { q with nsid := 1, cdw13 := 0x80 }) = false ∧ s.dev.host.slots.any (fun e' => decide (e'.2.seq < (cmd 1 0x7A fun q => { q with nsid := 1, cdw13 := 0x80 }).seq) && e'.2.isSend && decide (e'.2.sqe.nsid.toNat = (cmd 1 0x7A fun q => { q with nsid := 1, cdw13 := 0x80 }).sqe.nsid.toNat)) = false ∧ (cmd 1 0x7A fun q => { q with nsid := 1, cdw13 := 0x80 }).sqe.slba < zoned.zones * zoneSpan ∧ s.dev.mute (cmd 1 0x7A fun q => { q with nsid := 1, cdw13 := 0x80 }).fn = false) ∧
    (∃ s : State, Taken s.dev (0 : Fin 131072) false 0x7A (cmd 1 0x7A fun q => { q with nsid := 1, cdw13 := 1 }) ∧ bits (cmd 1 0x7A fun q => { q with nsid := 1, cdw13 := 1 }).sqe.cdw13.toNat 7 0 = 1 ∧ s.dev.nsOf (cmd 1 0x7A fun q => { q with nsid := 1, cdw13 := 1 }).fn (cmd 1 0x7A fun q => { q with nsid := 1, cdw13 := 1 }).sqe.nsid.toNat = some zoned ∧ zoned.zoned = true ∧ s.dev.atFence (cmd 1 0x7A fun q => { q with nsid := 1, cdw13 := 1 }) = false ∧ s.dev.host.slots.any (fun e' => decide (e'.2.seq < (cmd 1 0x7A fun q => { q with nsid := 1, cdw13 := 1 }).seq) && e'.2.isSend && decide (e'.2.sqe.nsid.toNat = (cmd 1 0x7A fun q => { q with nsid := 1, cdw13 := 1 }).sqe.nsid.toNat)) = false) ∧
    (∃ s : State, (s.dev.zone (1 : Fin 4097) (0 : Fin 524288)).marked = some (9 : Nat) ∧ (s.dev.zone (1 : Fin 4097) (0 : Fin 524288)).staged = [] ∧ (s.dev.zone (1 : Fin 4097) (0 : Fin 524288)).refDst = none ∧ s.dev.host.slots.any (fun e' => decide (e'.2.seq ≤ (9 : Nat)) && (touches e'.2 (1 : Fin 4097) (0 : Fin 524288) || s.dev.refoldTouches e'.2 (1 : Fin 4097) (0 : Fin 524288))) = false) ∧
    (∃ s : State, (s.dev.row (0 : Fin 96) (14 : Fin 3600)).bound = some ((1 : Nat), (0 : Nat)) ∧ s.dev.extended (0 : Fin 96) (14 : Fin 3600) = true ∧ s.dev.thresh 5 * strokesPerHour ≤ s.dev.strk.count - (s.dev.zone (1 : Nat) (0 : Nat)).bornAt ∧ (s.dev.zone (1 : Nat) (0 : Nat)).row.isSome = true ∧ (s.dev.zone (1 : Nat) (0 : Nat)).st ∉ [.readOnly, .offline, .empty] ∧ (s.dev.zone (1 : Nat) (0 : Nat)).marked = none) ∧
    (∃ s : State, s.dev.zm.refolds.find? (fun j' => decide (j'.seq = (9 : BitVec 64).toNat)) = some ({ slot := none, nsid := 1, dst := 0, ranges := [], resetSrc := false, finish := false, running := true, tenant := 0, seq := 9, chain := 0, share := none } : RefoldJob) ∧ ({ slot := none, nsid := 1, dst := 0, ranges := [], resetSrc := false, finish := false, running := true, tenant := 0, seq := 9, chain := 0, share := none } : RefoldJob).running = true ∧ (s.dev.zone ({ slot := none, nsid := 1, dst := 0, ranges := [], resetSrc := false, finish := false, running := true, tenant := 0, seq := 9, chain := 0, share := none } : RefoldJob).nsid ({ slot := none, nsid := 1, dst := 0, ranges := [], resetSrc := false, finish := false, running := true, tenant := 0, seq := 9, chain := 0, share := none } : RefoldJob).dst).row = some ((0 : Nat), (14 : Nat)) ∧ (s.dev.row (0 : Nat) (14 : Nat)).dirty = 0) :=
  ⟨⟨(holds (send 1) (fun d => (hasZone (row 14 .explOpen)) (hasNs zoned d))), by decide +kernel, by unfold SendReady Taken; decide +kernel, by decide +kernel⟩,
   ⟨(holds (send 0x80) (fun d => (hasZone (row 14 .offline)) (hasNs zoned d))), by unfold SendReady Taken; decide +kernel, by decide +kernel, by decide +kernel, by decide +kernel⟩,
   ⟨(holds (send 0x104) (fun d => (id) (hasNs zoned d))), by decide +kernel, by unfold Taken; decide +kernel, by decide +kernel, by decide +kernel, by decide +kernel, by decide +kernel, by decide +kernel, by decide +kernel, by decide +kernel⟩,
   ⟨(holds (cmd 1 0x7A fun q => { q with nsid := 1, cdw13 := 0x80 }) (fun d => (id) (hasNs zoned d))), by simp, ⟨rfl, rfl, rfl, rfl⟩, rfl, rfl, rfl, rfl, rfl, by decide, rfl⟩,
   ⟨(holds (cmd 1 0x7A fun q => { q with nsid := 1, cdw13 := 1 }) (fun d => (id) (hasNs zoned d))), by unfold Taken; decide +kernel, by decide +kernel, by decide +kernel, by decide +kernel, by decide +kernel, by decide +kernel⟩,
   ⟨(dev fun d => hasZone { row 14 .closed with marked := some 9 } (hasNs zoned d)), by decide +kernel, by decide +kernel, by decide +kernel, by decide +kernel⟩,
   ⟨(dev fun d => hasZone { row 14 .closed with bornAt := 1 } { d with strk := { d.strk with count := 10 ^ 12 }, med := { d.med with rows := [(14, { Row.fresh with bound := some (1, 0) })], thresh := [(0, 0)] } }), by decide +kernel, by decide +kernel, by decide +kernel, by decide +kernel, by decide +kernel, by decide +kernel⟩,
   ⟨(dev fun d => { d with zm := { d.zm with zones := [(2 ^ 20, row 14 .empty)], refolds := [{ slot := none, nsid := 1, dst := 0, ranges := [], resetSrc := false, finish := false, running := true, tenant := 0, seq := 9, chain := 0, share := none }] } }), by decide +kernel, by decide +kernel, by decide +kernel, by decide +kernel⟩⟩

theorem witness_ZonesMove_2 :
    ∃ s : State, s.dev.is Fd.ZONE_CTL_REFOLD_HOLD = false ∧ s.dev.nextRefold [] s.dev.zm.refolds = some ({ slot := none, nsid := 1, dst := 0, ranges := [], resetSrc := false, finish := false, running := false, tenant := 0, seq := 9, chain := 0, share := none } : RefoldJob) :=
  ⟨(dev fun d => { d with zm := { d.zm with refolds := [({ slot := none, nsid := 1, dst := 0, ranges := [], resetSrc := false, finish := false, running := false, tenant := 0, seq := 9, chain := 0, share := none } : RefoldJob)] } }), by decide +kernel, by decide +kernel⟩

theorem witness_PoolAndCamAct :
    (bits (0x7FF : Word).toNat 20 11 = 0) ∧
    (∃ s : State, s.dev.nextGrant [] s.dev.pool.waiting = some ({ graver := 0, owner := none, count := 1 } : AllocReq)) ∧
    (∃ s : State, bits (0x3FFFFFF : Word).toNat 31 26 = 0 ∧ s.dev.keepsCells (bits (0x3FFFFFF : Word).toNat 25 0) = false) ∧
    (bits (0x3FFFFFF : Word).toNat 31 26 = 0) ∧
    (bits (3 : Word).toNat 31 2 = 0) ∧
    (∃ s : State, s.dev.pool.initBusy = true) ∧
    (bits (15 : Word).toNat 30 4 = 0) :=
  ⟨by decide +kernel,
   ⟨(dev fun d => { d with pool := { d.pool with ready := true, ringEnd := 4096, waiting := [{ graver := 0, owner := none, count := 1 }] } }), by decide +kernel⟩,
   ⟨(State.reset), by decide +kernel, by decide +kernel⟩,
   by decide +kernel,
   by decide +kernel,
   ⟨(dev fun d => { d with pool := { d.pool with initBusy := true } }), by decide +kernel⟩,
   by decide +kernel⟩

theorem witness_FunctionsLive :
    (∃ s : State, s.dev.present (0 : Fin 1026) = true ∧ (s.dev.port (s.dev.portOf (0 : Fin 1026))).up = true ∧ s.dev.insecure (0 : Fin 1026) = false ∧ (s.dev.func (0 : Fin 1026)).en = false) ∧
    (∃ s : State, s.dev.present (0 : Fin 1026) = true ∧ s.dev.insecure (0 : Fin 1026) = false ∧ (s.dev.func (0 : Fin 1026)).en = true) ∧
    (∃ s : State, s.dev.present (0 : Fin 1026) = true ∧ s.dev.insecure (0 : Fin 1026) = false) ∧
    (∃ s : State, s.dev.hasPort (0 : Fin 2) = true ∧ (s.dev.port (0 : Fin 2)).up = true ∧ (1024 : Fin 1025).val ≤ s.dev.totalVfs ∧ s.dev.insecure (pfOf (0 : Fin 2)) = false ∧ (s.dev.port (0 : Fin 2)).vfEnable = false) ∧
    (∃ s : State, s.dev.hasPort (0 : Fin 2) = true ∧ (s.dev.port (0 : Fin 2)).up = true ∧ s.dev.insecure (pfOf (0 : Fin 2)) = false) ∧
    (∃ s : State, s.dev.hasPort (0 : Fin 2) = true ∧ (s.dev.port (0 : Fin 2)).training = true ∧ s.dev.widthOk (16 : BitVec 5).toNat = true ∧ ((true = true → 2 ≤ (5 : Fin 6).val)) ∧ ((true = false → (5 : Fin 6).val ≠ 5))) ∧
    (∃ s : State, s.dev.hasPort (0 : Fin 2) = true) ∧
    (∃ s : State, (8 : Fin 9).val ∈ (s.dev.port (0 : Fin 2)).secure) :=
  ⟨⟨(dev (fun d => func (fun x => { x with en := false }) { d with host := { d.host with ports := [(0, { Port.reset with up := true })] } })), by decide +kernel, by decide +kernel, by decide +kernel, by decide +kernel⟩,
   ⟨(dev (fun d => func (fun x => { x with en := true }) { d with host := { d.host with ports := [(0, { Port.reset with up := true })] } })), by decide +kernel, by decide +kernel, by decide +kernel⟩,
   ⟨(dev (fun d => func (fun x => { x with en := true }) { d with host := { d.host with ports := [(0, { Port.reset with up := true })] } })), by decide +kernel, by decide +kernel⟩,
   ⟨(port id), by decide +kernel, by decide +kernel, by decide +kernel, by decide +kernel, by decide +kernel⟩,
   ⟨(port id), by decide +kernel, by decide +kernel, by decide +kernel⟩,
   ⟨(port fun p => { p with up := false, training := true }), by decide +kernel, by decide +kernel, by decide +kernel, by decide +kernel, by decide +kernel⟩,
   ⟨(State.reset), by decide +kernel⟩,
   ⟨(port fun p => { p with secure := [8] }), by decide +kernel⟩⟩

theorem witness_FunctionsLive_2 :
    (∃ s : State, s.dev.torn (0 : Fin 1026) = true) ∧
    (∃ s : State, s.dev.present (0 : Fin 1026) = true ∧ (s.dev.func (0 : Fin 1026)).en = true ∧ s.dev.insecure (0 : Fin 1026) = false) ∧
    (bits (0x3FF : Word).toNat 30 10 = 0) ∧
    (bits (0x3FF : Word).toNat 28 10 = 0) ∧
    (∃ s : State, s.dev.hasPort (0 : Fin 2) = true ∧ (s.dev.port (0 : Fin 2)).up = true) ∧
    (∃ s : State, s.dev.present (0 : Fin 1026) = true ∧ s.dev.insecure (0 : Fin 1026) = true ∧ (s.dev.port (s.dev.portOf (0 : Fin 1026))).up = true ∧ (s.dev.func (0 : Fin 1026)).en = true ∧ (Instr.ccEnClear 0) ∈ [Instr.ccEnSet (0 : Fin 1026) 0 0, .ccEnClear (0 : Fin 1026), .functionLevelReset (0 : Fin 1026), .shutdownNotification (0 : Fin 1026)]) :=
  ⟨⟨(dev (func fun x => { x with stopping := true })), by decide +kernel⟩,
   ⟨(dev (fun d => func (fun x => { x with en := true }) { d with host := { d.host with ports := [(0, { Port.reset with up := true })] } })), by decide +kernel, by decide +kernel, by decide +kernel⟩,
   by decide +kernel,
   by decide +kernel,
   ⟨(port id), by decide +kernel, by decide +kernel⟩,
   ⟨(dev fun d => func (fun x => { x with en := true }) { d with host := { d.host with ports := [(0, { Port.reset with up := true, insecure := List.range 9 })] } }), by decide +kernel, by show decide ((if _ then Config.selectiveStream 0 % 9 else 0) ∈ List.range 9) = true; rw [decide_eq_true_eq, List.mem_range]; split; exact Nat.mod_lt _ (by decide); decide, by decide +kernel, by decide +kernel, .tail _ (.head _)⟩⟩

theorem witness_MailboxesAnswer :
    (∃ s : State, s.dev.mailbox (0 : Fin 2)) ∧
    (∃ s : State, s.dev.mailbox (0 : Fin 2) ∧ (0x13 : Byte).toNat ∈ [0x12, 0x13] ∧ (s.dev.spdm (0 : Fin 2)).version ≠ 0 ∧ (((s.dev.spdm (0 : Fin 2)).caps = true → (s.dev.spdm (0 : Fin 2)).version = (0x13 : Byte).toNat))) ∧
    (∃ s : State, s.dev.mailbox (0 : Fin 2) ∧ (s.dev.spdm (0 : Fin 2)).caps = true) ∧
    (∃ s : State, s.dev.mailbox (0 : Fin 2) ∧ s.dev.agreed (0 : Fin 2) [algHash]) ∧
    (∃ s : State, s.dev.mailbox (0 : Fin 2) ∧ s.dev.agreed (0 : Fin 2) [algHash] ∧ s.dev.certChain (1 : Fin 8).val = some ([1, 2]) ∧ (2 : BitVec 16).toNat ≤ ([1, 2]).length) ∧
    (∃ s : State, s.dev.mailbox (0 : Fin 2) ∧ s.dev.agreed (0 : Fin 2) [algSign, algHash]) ∧
    (∃ s : State, s.dev.mailbox (0 : Fin 2) ∧ s.dev.agreed (0 : Fin 2) (if true then [algSign, algHash] else [algHash]) ∧ ((0xFF : Byte).toNat ≤ measCount ∨ (0xFF : Byte).toNat = 0xFF)) ∧
    (∃ s : State, s.dev.mailbox (0 : Fin 2) ∧ s.dev.agreed (0 : Fin 2) [algSign, algHash, algExchange, algSecure] ∧ (s.dev.spdm (0 : Fin 2)).sessions.length < maxSessions) :=
  ⟨⟨(port id), ⟨rfl, rfl⟩⟩,
   ⟨(spdm fun x => { x with version := 0x13 }), ⟨rfl, rfl⟩, by decide, by decide, fun _ => rfl⟩,
   ⟨(spdm id), ⟨rfl, rfl⟩, by decide +kernel⟩,
   ⟨(spdm id), ⟨rfl, rfl⟩, rfl, by decide⟩,
   ⟨((spdm id).modDev fun d => { d with nvm := { d.nvm with cert := some [1, 2] } }), ⟨rfl, rfl⟩, ⟨rfl, by decide⟩, rfl, by decide⟩,
   ⟨(spdm id), ⟨rfl, rfl⟩, rfl, by decide⟩,
   ⟨(spdm id), ⟨rfl, rfl⟩, ⟨rfl, by decide⟩, .inr rfl⟩,
   ⟨(spdm id), ⟨rfl, rfl⟩, ⟨rfl, by decide⟩, by decide⟩⟩

theorem witness_MailboxesAnswer_2 :
    (∃ s : State, s.dev.mailbox (0 : Fin 2) ∧ (s.dev.spdm (0 : Fin 2)).session (1 : BitVec 16).toNat = some false) ∧
    (∃ s : State, s.dev.mailbox (0 : Fin 2) ∧ (s.dev.spdm (0 : Fin 2)).session (1 : BitVec 16).toNat = some true ∧ mapFind (s.dev.spdm (0 : Fin 2)).keys (1 : BitVec 16).toNat = some keys) ∧
    (∃ s : State, s.dev.mailbox (0 : Fin 2) ∧ (s.dev.spdm (0 : Fin 2)).session (1 : BitVec 16).toNat = some true ∧ mapFind (s.dev.spdm (0 : Fin 2)).keys (1 : BitVec 16).toNat = some keys ∧ (8 : Fin 9).val ∈ (s.dev.port (0 : Fin 2)).keyed) ∧
    (∃ s : State, s.dev.mailbox (0 : Fin 2)) ∧
    (∃ s : State, s.dev.mailbox (0 : Fin 2) ∧ (s.dev.spdm (0 : Fin 2)).session (1 : BitVec 16).toNat = some true ∧ mapFind (s.dev.spdm (0 : Fin 2)).keys (1 : BitVec 16).toNat = some keys ∧ (3 : Byte).toNat ∈ [1, 2, 3]) ∧
    (∃ s : State, s.dev.mailbox (0 : Fin 2) ∧ (s.dev.spdm (0 : Fin 2)).session (1 : BitVec 16).toNat = some true ∧ mapFind (s.dev.spdm (0 : Fin 2)).keys (1 : BitVec 16).toNat = some keys) :=
  ⟨⟨(spdm fun x => { x with sessions := [(1, false)] }), ⟨rfl, rfl⟩, by decide +kernel⟩,
   ⟨((spdm fun x => { x with sessions := [(1, true)], keys := [(1, keys)] })), ⟨rfl, rfl⟩, by decide +kernel, by decide +kernel⟩,
   ⟨((spdm fun x => { x with sessions := [(1, true)], keys := [(1, keys)] }).modDev fun d => { d with host := { d.host with ports := [(0, { Port.reset with up := true, keyed := [8] })] } }), ⟨rfl, rfl⟩, by decide +kernel, by decide +kernel, by decide +kernel⟩,
   ⟨(port id), ⟨rfl, rfl⟩⟩,
   ⟨((spdm fun x => { x with sessions := [(1, true)], keys := [(1, keys)] })), ⟨rfl, rfl⟩, by decide +kernel, by decide +kernel, by decide +kernel⟩,
   ⟨((spdm fun x => { x with sessions := [(1, true)], keys := [(1, keys)] })), ⟨rfl, rfl⟩, by decide +kernel, by decide +kernel⟩⟩

theorem witness_HealthActs :
    (bits (3 : Word).toNat 31 2 = 0) ∧
    (∃ s : State, bits (1 : Word).toNat 31 1 = 0 ∧ s.dev.isc (0 : Fin 48) Fd.SEQ_CTL_EN = false ∧ (s.dev.die (0 : Fin 48) (s.dev.rdc (0 : Fin 48) Fd.SEQ_DIE_SEL_TARGET)).st ∈ [.absent, .idle]) ∧
    (bits (7 : Word).toNat 31 3 = 0) ∧
    (∃ s : State, s.dev.med.rebuild.find? (fun x' => decide (x'.group = (0 : Fin 96).val) && decide (x'.row = (14 : Fin 3600).val) && decide (x'.member = (3 : Fin 16).val)) = some (({ group := 0, row := 14, member := 3, dest := some (5, 4095), front := 0 } : Rebuild)) ∧ (({ group := 0, row := 14, member := 3, dest := some (5, 4095), front := 0 } : Rebuild)).dest = some (((5, 4095) : Nat × Nat)) ∧ (((5, 4095) : Nat × Nat)).2 < 4096) ∧
    (∃ s : State, s.dev.med.wanted.find? (fun w' => decide (w'.die = (0 : Fin 1536).val)) = some ({ die := 0, home := 14, role := 0, cause := 2, wl := 0 } : Wanted) ∧ mapFind s.dev.med.replace (0 : Fin 1536) = none ∧ s.dev.bestSpare (0 : Fin 1536) = some ((s.dev.bestSpare 0).getD 0)) ∧
    (∃ s : State, mapFind s.dev.med.replace (0 : Fin 1536) = some ({ home := 14, block := 14, old := 14, spare := 4095, cause := 2, first := 0, done := 0, ready := true } : Replace) ∧ ({ home := 14, block := 14, old := 14, spare := 4095, cause := 2, first := 0, done := 0, ready := true } : Replace).ready = true ∧ ({ home := 14, block := 14, old := 14, spare := 4095, cause := 2, first := 0, done := 0, ready := true } : Replace).spare < 4096) ∧
    (∃ s : State, s.dev.med.migrate.find? (fun m' => decide (m'.group = (0 : Fin 96).val)) = some ({ group := 0, src := 14, dst := 15, nsid := 1, zone := 0 } : Migration) ∧ (s.dev.zone ({ group := 0, src := 14, dst := 15, nsid := 1, zone := 0 } : Migration).nsid ({ group := 0, src := 14, dst := 15, nsid := 1, zone := 0 } : Migration).zone).staged = []) ∧
    (bits (0xFF : Word).toNat 30 8 = 0) :=
  ⟨by decide +kernel,
   ⟨(State.reset), by decide +kernel, by decide +kernel, by decide +kernel⟩,
   by decide +kernel,
   ⟨(dev fun d => { d with med := { d.med with rebuild := [{ group := 0, row := 14, member := 3, dest := some (5, 4095), front := 0 }] } }), by decide +kernel, by decide +kernel, by decide +kernel⟩,
   ⟨(dev fun d => { d with med := { d.med with wanted := [{ die := 0, home := 14, role := 0, cause := 2, wl := 0 }], remap := [] } }), by decide +kernel, by decide +kernel, by decide +kernel⟩,
   ⟨(dev fun d => { d with med := { d.med with replace := [(0, { home := 14, block := 14, old := 14, spare := 4095, cause := 2, first := 0, done := 0, ready := true })] } }), by decide +kernel, by decide +kernel, by decide +kernel⟩,
   ⟨(dev fun d => { d with med := { d.med with migrate := [{ group := 0, src := 14, dst := 15, nsid := 1, zone := 0 }] } }), by decide +kernel, by decide +kernel⟩,
   by decide +kernel⟩

theorem witness_HealthActs_2 :
    (∃ s : State, s.dev.sys.selftest = true) ∧
    (∃ s : State, s.dev.retestable (48 : Fin 68) (0 : Nat) = true) ∧
    (∃ s : State, s.dev.retestable (57 : Fin 68) (0 : Nat) = true ∧ 48 ≤ (57 : Fin 68).val ∧ (57 : Fin 68).val < 58 ∧ (63 : Fin 64).val ≠ 0) :=
  ⟨⟨(dev fun d => { d with sys := { d.sys with selftest := true } }), by decide +kernel⟩,
   ⟨(State.reset), by decide +kernel⟩,
   ⟨(State.reset), by decide +kernel, by decide +kernel, by decide +kernel, by decide +kernel⟩⟩

theorem witness_TiersAct :
    (∃ s : State, s.dev.ecc.items.find? (fun i' => decide (i'.ch = (0 : Fin 48).val) && i'.stage == .hard) = some (item .hard) ∧ (noBits.zeros ≤ 64 ∨ 80 < noBits.errs ∧ noBits.ok = false) ∧ (item .hard).proof = false ∧ (item .hard).detached = false) ∧
    (∃ s : State, ((∃ i' ∈ s.dev.ecc.items, i'.waitsSoft.isSome = true ∧ (s.dev.softFree i').isSome = true))) ∧
    (∃ s : State, s.dev.softBusy (7 : Fin 8) = some (item (.softRun 1 7)) ∧ (item (.softRun 1 7)).stage = .softRun (1 : Nat) (7 : Fin 8) ∧ noBits.ok = false ∧ (item (.softRun 1 7)).detached = false) ∧
    (∃ s : State, ((∃ i' ∈ s.dev.ecc.items, i'.stage = .waitRecord)) ∧ ((∀ i' ∈ s.dev.ecc.items, i'.stage = .waitRecord → i'.detached = false)) ∧ s.dev.ecc.escs.length < 128) ∧
    (∃ s : State, mapFind s.dev.ecc.escs (127 : Fin 128) = some ({ item := item .waitRecord, reads := 3, deep := .running, parity := .none, delivered := false } : Escalation) ∧ ({ item := item .waitRecord, reads := 3, deep := .running, parity := .none, delivered := false } : Escalation).deep = .running ∧ noBits.ok = false) ∧
    (bits (0xFFFF : Word).toNat 31 16 = 0) :=
  ⟨⟨(ecc [item .hard]), by decide +kernel, by decide +kernel, by decide +kernel, by decide +kernel⟩,
   ⟨((ecc [item (.softWait 1)]).modDev fun d => ({ d with ecc := { d.ecc with checks := [(48, { done := true, pass := true, step := 0 })] } }).wr Fd.LDPC_UNIT_EN_SOFT 1), item (.softWait 1), by decide, by decide, by decide⟩,
   ⟨(ecc [item (.softRun 1 7)]), by decide +kernel, by decide +kernel, by decide +kernel, by decide +kernel⟩,
   ⟨(ecc [item .waitRecord]), ⟨item .waitRecord, by decide, rfl⟩, by decide, by decide⟩,
   ⟨(dev fun d => { d with ecc := { d.ecc with escs := [(127, { item := item .waitRecord, reads := 3, deep := .running, parity := .none, delivered := false })] } }), by decide +kernel, by decide +kernel, by decide +kernel⟩,
   by decide +kernel⟩

theorem witness_ParityActs :
    (∃ s : State, s.dev.engineFor (postedAs 1 ({ desc0 with d0 := 0x10000000 } : Desc)).jBand = some (0 : Nat) ∧ s.dev.freeJob (0 : Nat) < 256 ∧ s.dev.jobBad (postedAs 1 ({ desc0 with d0 := 0x10000000 } : Desc)) = false) ∧
    (∃ s : State, ((1 : Nat), (Instr.parityOpen 0 { desc0 with d0 := 0x10000000 })) ∈ [(1, Instr.parityOpen (0 : Fin 64) ({ desc0 with d0 := 0x10000000 } : Desc)), (2, .parityAdd (0 : Fin 64) ({ desc0 with d0 := 0x10000000 } : Desc)), (3, .parityClose (0 : Fin 64) ({ desc0 with d0 := 0x10000000 } : Desc)), (4, .parityRecon (0 : Fin 64) ({ desc0 with d0 := 0x10000000 } : Desc)), (5, .parityDrop (0 : Fin 64) ({ desc0 with d0 := 0x10000000 } : Desc)), (6, .parityCancel (0 : Fin 64) ({ desc0 with d0 := 0x10000000 } : Desc))] ∧ s.dev.engineFor (postedAs (1 : Nat) ({ desc0 with d0 := 0x10000000 } : Desc)).jBand = some (0 : Nat) ∧ s.dev.freeJob (0 : Nat) < 256) ∧
    (∃ s : State, ((6 : Nat), (Instr.parityCancel 0 { desc0 with d0 := 0x10000000 })) ∈ [(1, Instr.parityOpen (0 : Fin 64) ({ desc0 with d0 := 0x10000000 } : Desc)), (2, .parityAdd (0 : Fin 64) ({ desc0 with d0 := 0x10000000 } : Desc)), (3, .parityClose (0 : Fin 64) ({ desc0 with d0 := 0x10000000 } : Desc)), (4, .parityRecon (0 : Fin 64) ({ desc0 with d0 := 0x10000000 } : Desc)), (5, .parityDrop (0 : Fin 64) ({ desc0 with d0 := 0x10000000 } : Desc)), (6, .parityCancel (0 : Fin 64) ({ desc0 with d0 := 0x10000000 } : Desc))] ∧ (s.dev.engineFor (postedAs (6 : Nat) ({ desc0 with d0 := 0x10000000 } : Desc)).jBand = none ∨ s.dev.engineFor (postedAs (6 : Nat) ({ desc0 with d0 := 0x10000000 } : Desc)).jBand = some (0 : Nat) ∧ 256 ≤ s.dev.freeJob (0 : Nat))) ∧
    (∃ s : State, s.dev.par.contribs.find? (fun c' => decide (c'.band = (0 : Fin 3).val)) = some ({ band := 0, slot := 0, pos := 0, cw := 0, sector := none } : Contribution) ∧ mapGet 0 s.dev.par.used (0 : Fin 3) < 96) ∧
    (∃ s : State, s.dev.parJob (2 : Fin 3) (255 : Fin 256) = some ({ words := desc0, got := [], copyP := [], copyQ := [], copyMap := 0, status := some 0, failPos := 0 } : ParJob) ∧ (({ words := desc0, got := [], copyP := [], copyQ := [], copyMap := 0, status := some 0, failPos := 0 } : ParJob).status.isSome = true ∨ ({ words := desc0, got := [], copyP := [], copyQ := [], copyMap := 0, status := some 0, failPos := 0 } : ParJob).complete = true) ∧ mapGet 0 s.dev.par.used ({ words := desc0, got := [], copyP := [], copyQ := [], copyMap := 0, status := some 0, failPos := 0 } : ParJob).words.jBand + ({ words := desc0, got := [], copyP := [], copyQ := [], copyMap := 0, status := some 0, failPos := 0 } : ParJob).cost ≤ 96) ∧
    (bits (0xFFFF : Word).toNat 31 16 = 0) ∧
    (∃ s : State, s.dev.engineFor (postedAs 2 ({ desc0 with d0 := 0x10000000, d1 := 0x10000 } : Desc)).jBand = some (0 : Nat) ∧ s.dev.freeJob (0 : Nat) < 256 ∧ s.dev.jobBad (postedAs 2 ({ desc0 with d0 := 0x10000000, d1 := 0x10000 } : Desc)) = false ∧ s.dev.accBad (postedAs 2 ({ desc0 with d0 := 0x10000000, d1 := 0x10000 } : Desc)) = false) ∧
    (∃ s : State, s.dev.engineFor (postedAs 3 ({ desc0 with d0 := 0x10000000, d1 := 0x10000 } : Desc)).jBand = some (0 : Nat) ∧ s.dev.freeJob (0 : Nat) < 256 ∧ s.dev.jobBad (postedAs 3 ({ desc0 with d0 := 0x10000000, d1 := 0x10000 } : Desc)) = false ∧ s.dev.accBad (postedAs 3 ({ desc0 with d0 := 0x10000000, d1 := 0x10000 } : Desc)) = false) :=
  ⟨⟨(dev fun d => ({ d with par := { d.par with ok := 7 } }).wr Fd.PAR_CTL_EN 7), by decide +kernel, by decide +kernel, by decide +kernel⟩,
   ⟨(dev fun d => ({ d with par := { d.par with ok := 7 } }).wr Fd.PAR_CTL_EN 7), by decide +kernel, by decide +kernel, by decide +kernel⟩,
   ⟨(State.reset), by decide +kernel, by decide +kernel⟩,
   ⟨(dev fun d => { d with par := { d.par with contribs := [{ band := 0, slot := 0, pos := 0, cw := 0, sector := none }] } }), by decide +kernel, by decide +kernel⟩,
   ⟨(dev fun d => { d with par := { d.par with jobs := [(767, { words := desc0, got := [], copyP := [], copyQ := [], copyMap := 0, status := some 0, failPos := 0 })] } }), by decide +kernel, by decide +kernel, by decide +kernel⟩,
   by decide +kernel,
   ⟨(dev fun d => ({ d with par := { d.par with ok := 7, accs := [(0, ({ bitmap := 0, p := [], q := [], bad := false } : Acc))] } }).wr Fd.PAR_CTL_EN 7), by decide +kernel, by decide +kernel, by decide +kernel, by decide +kernel⟩,
   ⟨(dev fun d => ({ d with par := { d.par with ok := 7, accs := [(0, ({ bitmap := 0, p := [], q := [], bad := false } : Acc))] } }).wr Fd.PAR_CTL_EN 7), by decide +kernel, by decide +kernel, by decide +kernel, by decide +kernel⟩⟩

theorem witness_ParityActs_2 :
    ∃ s : State, s.dev.engineFor (postedAs 5 ({ desc0 with d0 := 0x10000000, d1 := 0x10000 } : Desc)).jBand = some (0 : Nat) ∧ s.dev.freeJob (0 : Nat) < 256 ∧ s.dev.jobBad (postedAs 5 ({ desc0 with d0 := 0x10000000, d1 := 0x10000 } : Desc)) = false :=
  ⟨(dev fun d => ({ d with par := { d.par with ok := 7, accs := [(0, ({ bitmap := 0, p := [], q := [], bad := false } : Acc))] } }).wr Fd.PAR_CTL_EN 7), by decide +kernel, by decide +kernel, by decide +kernel⟩

theorem witness_StippleActs :
    (∃ s : State, s.dev.is Fd.STIP_CTL_EN = true ∧ s.dev.is Fd.STIP_CTL_HOLD = false ∧ (s.dev.chan (0 : Fin 48)).retired = false ∧ s.dev.urgentOn (0 : Fin 48) = none ∧ stipNext (0 : Fin 48) s = some ((0 : Nat), (0 : Nat), (0 : Nat)) ∧ s.dev.stipRoom (0 : Fin 48) (0 : Nat) = true) ∧
    (∃ s : State, (s.dev.stipChan (0 : Fin 48)).log2 ≠ 0 ∧ (s.dev.stipChan (0 : Fin 48)).late = false ∧ s.dev.rd Fd.STIP_TARGET_SHEETS < s.dev.sheet - (s.dev.stipChan (0 : Fin 48)).start) ∧
    (bits (0x5F0E1F : Word).toNat 31 23 = 0 ∧ bits (0x5F0E1F : Word).toNat 15 12 = 0 ∧ bits (0x5F0E1F : Word).toNat 22 16 < 96) :=
  ⟨⟨(({ (chan (die fun x => { x with st := .idle })) with mem := [(0x102800000, 0xFF), (0x102800003, 0x40)] }).modDev fun d => ((d.wr Fd.STIP_CTL_EN 1).wr Fd.STIP_MAP_BASE_HI_ADDR_HI 1).wr Fd.STIP_MAP_BASE_LO_ADDR_LO 0x2800), by decide +kernel, by decide +kernel, by decide +kernel, by decide +kernel, by decide +kernel, by decide +kernel⟩,
   ⟨(dev fun d => { d with strk := { d.strk with count := 10 ^ 12 }, stip := { d.stip with chans := [(0, { StipChan.reset with log2 := 1 })] } }), by decide +kernel, by decide +kernel, by decide +kernel⟩,
   ⟨by decide +kernel, by decide +kernel, by decide +kernel⟩⟩

theorem witness_CipherActs :
    (∃ s : State, s.dev.is Fd.CIPH_CTL_EN = true ∧ s.dev.laneOk (0 : Fin 48) = true ∧ (s.dev.lane (0 : Fin 48)).busy = none ∧ (s.dev.atCycle (0 : BitVec 10)).laneChoice (0 : Fin 48) = some ((1 : Nat), ({ work := .read 0 0 nilSector, ch := 0, owned := true, since := 0, order := 0 } : LaneItem))) ∧
    (∃ s : State, (s.dev.lane (47 : Fin 48)).busy = some ({ work := .write 0 0 0, ch := 0, owned := true, since := 0, order := 0 } : LaneItem) ∧ ({ work := .write 0 0 0, ch := 0, owned := true, since := 0, order := 0 } : LaneItem).work = .write (0 : Nat) (0 : Nat) (0 : Payload) ∧ s.dev.slot? (0 : Nat) = some (io 1)) ∧
    (∃ s : State, (s.dev.lane (0 : Fin 48)).busy = some ({ work := .read 0 0 nilSector, ch := 0, owned := true, since := 0, order := 0 } : LaneItem) ∧ ({ work := .read 0 0 nilSector, ch := 0, owned := true, since := 0, order := 0 } : LaneItem).work = .read (0 : Nat) (0 : Nat) nilSector ∧ s.dev.slot? (0 : Nat) = some (io 2) ∧ s.dev.mute (io 2).fn = false) ∧
    (∃ s : State, (s.dev.lane (0 : Fin 48)).busy = some ({ work := .job desc0 0, ch := 0, owned := false, since := 0, order := 0 } : LaneItem) ∧ ({ work := .job desc0 0, ch := 0, owned := false, since := 0, order := 0 } : LaneItem).work = .job desc0 (0 : Nat)) ∧
    (∃ s : State, s.dev.rd Fd.CIPH_SLOT_SEL_SLOT = (4157 : Nat) ∧ bits (0x80 : Word).toNat 30 8 = 0 ∧ (isNsSlot (4157 : Nat) = true ∨ isFwSlot (4157 : Nat) = true) ∧ (bits (0x80 : Word).toNat 7 6 = 1 ∨ bits (0x80 : Word).toNat 7 6 = 2)) ∧
    (∃ s : State, s.dev.rd Fd.CIPH_SLOT_SEL_SLOT = (4095 : Nat) ∧ bits (0x42 : Word).toNat 30 8 = 0 ∧ (isNsSlot (4095 : Nat) = true ∨ isFwSlot (4095 : Nat) = true) ∧ bits (0x42 : Word).toNat 5 4 = 0 ∧ (s.dev.keySlot (4095 : Nat)).state = .empty) ∧
    (∃ s : State, s.dev.rd Fd.CIPH_SLOT_SEL_SLOT = (4158 : Nat) ∧ (4158 : Nat) < 4159 ∧ bits (3 : Word).toNat 30 8 = 0) :=
  ⟨⟨(dev fun d => ({ d with ciph := { d.ciph with laneOk := 1, readQ := [{ work := .read 0 0 nilSector, ch := 0, owned := true, since := 0, order := 0 }] } }).wr Fd.CIPH_CTL_EN 1), by decide +kernel, by decide +kernel, by decide +kernel, by decide +kernel⟩,
   ⟨(holds (io 1) fun d => { d with ciph := { d.ciph with lanes := [(47, { Lane.reset with busy := some { work := .write 0 0 0, ch := 0, owned := true, since := 0, order := 0 } })] } }), by decide +kernel, by decide +kernel, by decide +kernel⟩,
   ⟨(holds (io 2) fun d => { d with ciph := { d.ciph with lanes := [(0, { Lane.reset with busy := some { work := .read 0 0 nilSector, ch := 0, owned := true, since := 0, order := 0 } })] } }), by decide +kernel, by decide +kernel, by decide +kernel, by decide +kernel⟩,
   ⟨(dev fun d => { d with ciph := { d.ciph with lanes := [(0, { Lane.reset with busy := some { work := .job desc0 0, ch := 0, owned := false, since := 0, order := 0 } })] } }), by decide +kernel, by decide +kernel⟩,
   ⟨(dev fun d => d.wr Fd.CIPH_SLOT_SEL_SLOT 4157), by decide +kernel, by decide +kernel, by decide +kernel, by decide +kernel⟩,
   ⟨(dev fun d => d.wr Fd.CIPH_SLOT_SEL_SLOT 4095), by decide +kernel, by decide +kernel, by decide +kernel, by decide +kernel, by decide +kernel⟩,
   ⟨(dev fun d => d.wr Fd.CIPH_SLOT_SEL_SLOT 4158), by decide +kernel, by decide +kernel, by decide +kernel⟩⟩

theorem witness_JenamTenantsAct :
    (∃ s : State, JenamReady s (0 : Fin 32) 0x0101 (jbuf 0x101 ([])) []) ∧
    (∃ s : State, JenamReady s (0 : Fin 32) 0x0102 (jbuf 0x102 ([])) []) ∧
    (∃ s : State, JenamReady s (0 : Fin 32) 0x0201 (jbuf 0x201 ([1, 0] ++ zeros 14)) ([1, 0] ++ zeros 14 : List Byte) ∧ tenantOk ([1, 0] ++ zeros 14 : List Byte) = true ∧ s.dev.tenantHere (jf ([1, 0] ++ zeros 14 : List Byte) 0 2) = false ∧ s.dev.tenantOver ([1, 0] ++ zeros 14 : List Byte) = false ∧ ((jf ([1, 0] ++ zeros 14 : List Byte) 2 1 = 1 → s.dev.groupsShared (jf ([1, 0] ++ zeros 14 : List Byte) 0 2) = false))) ∧
    (∃ s : State, JenamReady s (0 : Fin 32) 0x0202 (jbuf 0x202 ([1, 0] ++ zeros 14)) ([1, 0] ++ zeros 14 : List Byte) ∧ tenantOk ([1, 0] ++ zeros 14 : List Byte) = true ∧ s.dev.tenantHere (jf ([1, 0] ++ zeros 14 : List Byte) 0 2) = true ∧ s.dev.tenantOver ([1, 0] ++ zeros 14 : List Byte) = false ∧ ((jf ([1, 0] ++ zeros 14 : List Byte) 2 1 = 1 → s.dev.groupsShared (jf ([1, 0] ++ zeros 14 : List Byte) 0 2) = false))) ∧
    (∃ s : State, JenamReady s (0 : Fin 32) 0x0203 (jbuf 0x203 ([1, 0, 0, 0])) ([1, 0, 0, 0] : List Byte) ∧ ([1, 0, 0, 0] : List Byte).length = 4 ∧ jf ([1, 0, 0, 0] : List Byte) 2 2 = 0 ∧ 0 < jf ([1, 0, 0, 0] : List Byte) 0 2 ∧ jf ([1, 0, 0, 0] : List Byte) 0 2 < 1024 ∧ s.dev.tenantHere (jf ([1, 0, 0, 0] : List Byte) 0 2) = true) ∧
    (∃ s : State, JenamReady s (0 : Fin 32) 0x0204 (jbuf 0x204 ([1, 0, 1, 0] ++ zeros 12)) ([1, 0, 1, 0] ++ zeros 12 : List Byte) ∧ ([1, 0, 1, 0] ++ zeros 12 : List Byte).length = 16 ∧ jf ([1, 0, 1, 0] ++ zeros 12 : List Byte) 0 2 ≤ 1025 ∧ s.dev.tenantHere (jf ([1, 0, 1, 0] ++ zeros 12 : List Byte) 2 2) = true ∧ jf ([1, 0, 1, 0] ++ zeros 12 : List Byte) 4 2 ≤ (if isPf (jf ([1, 0, 1, 0] ++ zeros 12 : List Byte) 0 2) then 4096 else 256) ∧ jf ([1, 0, 1, 0] ++ zeros 12 : List Byte) 6 2 ≤ (if isPf (jf ([1, 0, 1, 0] ++ zeros 12 : List Byte) 0 2) then 4096 else 256) ∧ jf ([1, 0, 1, 0] ++ zeros 12 : List Byte) 8 4 ≤ 131072 ∧ jf ([1, 0, 1, 0] ++ zeros 12 : List Byte) 12 4 ≤ 131072 ∧ ((jf ([1, 0, 1, 0] ++ zeros 12 : List Byte) 2 2 ≠ s.dev.tenantOf (jf ([1, 0, 1, 0] ++ zeros 12 : List Byte) 0 2) → s.dev.movable (jf ([1, 0, 1, 0] ++ zeros 12 : List Byte) 0 2) = true)) ∧ s.dev.reachesForeign (jf ([1, 0, 1, 0] ++ zeros 12 : List Byte) 0 2) (jf ([1, 0, 1, 0] ++ zeros 12 : List Byte) 2 2) = false ∧ s.dev.funcOver (jf ([1, 0, 1, 0] ++ zeros 12 : List Byte) 0 2) ([1, 0, 1, 0] ++ zeros 12 : List Byte) = false) ∧
    (∃ s : State, JenamReady s (0 : Fin 32) 0x0205 (jbuf 0x205 ([14, 7, 1, 0, 0, 0, 0, 0])) ([14, 7, 1, 0, 0, 0, 0, 0] : List Byte) ∧ ([14, 7, 1, 0, 0, 0, 0, 0] : List Byte).length = 8 ∧ jf ([14, 7, 1, 0, 0, 0, 0, 0] : List Byte) 0 1 < 15 ∧ jf ([14, 7, 1, 0, 0, 0, 0, 0] : List Byte) 1 1 < 8 ∧ s.dev.tenantHere (jf ([14, 7, 1, 0, 0, 0, 0, 0] : List Byte) 2 2) = true ∧ jf ([14, 7, 1, 0, 0, 0, 0, 0] : List Byte) 4 4 < 2 ^ 20 ∧ ((jf ([14, 7, 1, 0, 0, 0, 0, 0] : List Byte) 1 1 % 2 = 1 → ∀ e' ∈ s.dev.zm.ns, e'.2.cls = jf ([14, 7, 1, 0, 0, 0, 0, 0] : List Byte) 0 1 → e'.2.owner = jf ([14, 7, 1, 0, 0, 0, 0, 0] : List Byte) 2 2)) ∧ ((jf ([14, 7, 1, 0, 0, 0, 0, 0] : List Byte) 1 1 / 4 = 1 → s.dev.softHolders (jf ([14, 7, 1, 0, 0, 0, 0, 0] : List Byte) 0 1) < 4))) ∧
    (∃ s : State, JenamReady s (0 : Fin 32) 0x0206 (jbuf 0x206 ([1, 0, 0, 0])) ([1, 0, 0, 0] : List Byte) ∧ ([1, 0, 0, 0] : List Byte).length = 4 ∧ jf ([1, 0, 0, 0] : List Byte) 2 2 = 0 ∧ s.dev.tenantHere (jf ([1, 0, 0, 0] : List Byte) 0 2) = true) :=
  ⟨⟨(jen 0x101 ([]) (id)), by unfold JenamReady; decide +kernel⟩,
   ⟨(jen 0x102 ([]) (id)), by unfold JenamReady; decide +kernel⟩,
   ⟨(jen 0x201 ([1, 0] ++ zeros 14) (id)), by unfold JenamReady; decide +kernel, by decide +kernel, by decide +kernel, by decide +kernel, by decide +kernel⟩,
   ⟨(jen 0x202 ([1, 0] ++ zeros 14) (tenant1)), by unfold JenamReady; decide +kernel, by decide +kernel, by decide +kernel, by decide +kernel, by decide +kernel⟩,
   ⟨(jen 0x203 ([1, 0, 0, 0]) (tenant1)), by unfold JenamReady; decide +kernel, by decide +kernel, by decide +kernel, by decide +kernel, by decide +kernel, by decide +kernel⟩,
   ⟨(jen 0x204 ([1, 0, 1, 0] ++ zeros 12) (tenant1)), by unfold JenamReady; decide +kernel, by decide +kernel, by decide +kernel, by decide +kernel, by decide +kernel, by decide +kernel, by decide +kernel, by decide +kernel, by decide +kernel, by decide +kernel, by decide +kernel⟩,
   ⟨(jen 0x205 ([14, 7, 1, 0, 0, 0, 0, 0]) (tenant1)), by unfold JenamReady; decide +kernel, by decide +kernel, by decide +kernel, by decide +kernel, by decide +kernel, by decide +kernel, by decide +kernel, by decide +kernel⟩,
   ⟨(jen 0x206 ([1, 0, 0, 0]) (tenant1)), by unfold JenamReady; decide +kernel, by decide +kernel, by decide +kernel, by decide +kernel⟩⟩

theorem witness_JenamTenantsAct_2 :
    ∃ s : State, JenamReady s (0 : Fin 32) 0x0201 (jbuf 0x201 ([1, 0] ++ zeros 14)) ([1, 0] ++ zeros 14 : List Byte) ∧ tenantOk ([1, 0] ++ zeros 14 : List Byte) = true ∧ s.dev.tenantHere (jf ([1, 0] ++ zeros 14 : List Byte) 0 2) = true :=
  ⟨(jen 0x201 ([1, 0] ++ zeros 14) (tenant1)), by unfold JenamReady; decide +kernel, by decide +kernel, by decide +kernel⟩

theorem witness_JenamNamespacesAct :
    (∃ s : State, JenamReady s (0 : Fin 32) 0x0302 (jbuf 0x302 ([1, 0, 0, 0])) ([1, 0, 0, 0] : List Byte) ∧ s.dev.jBuf (0 : Fin 32) = some (jbuf 0x302 ([1, 0, 0, 0])) ∧ s.dev.nsQuiet (jf ([1, 0, 0, 0] : List Byte) 0 4) s.dev.host.seq = true ∧ ([1, 0, 0, 0] : List Byte).length = 4 ∧ s.dev.ns? (jf ([1, 0, 0, 0] : List Byte) 0 4) = some conv ∧ jf ([1, 0, 0, 0] : List Byte) 0 4 ≤ 4096) ∧
    (∃ s : State, JenamReady s (0 : Fin 32) 0x0303 (jbuf 0x303 ([1, 0, 0, 0, 1, 4, 0, 0])) ([1, 0, 0, 0, 1, 4, 0, 0] : List Byte) ∧ ([1, 0, 0, 0, 1, 4, 0, 0] : List Byte).length = 8 ∧ jf ([1, 0, 0, 0, 1, 4, 0, 0] : List Byte) 6 2 = 0 ∧ s.dev.ns? (jf ([1, 0, 0, 0, 1, 4, 0, 0] : List Byte) 0 4) = some conv ∧ jf ([1, 0, 0, 0, 1, 4, 0, 0] : List Byte) 4 2 ≤ 1025) ∧
    (∃ s : State, JenamReady s (0 : Fin 32) 0x0304 (jbuf 0x304 ([1, 0, 0, 0, 0, 0, 0, 0])) ([1, 0, 0, 0, 0, 0, 0, 0] : List Byte) ∧ s.dev.jBuf (0 : Fin 32) = some (jbuf 0x304 ([1, 0, 0, 0, 0, 0, 0, 0])) ∧ s.dev.nsQuiet (jf ([1, 0, 0, 0, 0, 0, 0, 0] : List Byte) 0 4) s.dev.host.seq = true ∧ ([1, 0, 0, 0, 0, 0, 0, 0] : List Byte).length = 8 ∧ jf ([1, 0, 0, 0, 0, 0, 0, 0] : List Byte) 6 2 = 0 ∧ s.dev.ns? (jf ([1, 0, 0, 0, 0, 0, 0, 0] : List Byte) 0 4) = some conv ∧ jf ([1, 0, 0, 0, 0, 0, 0, 0] : List Byte) 4 2 ≤ 1025) :=
  ⟨⟨(jen 0x302 ([1, 0, 0, 0]) (hasNs conv)), by unfold JenamReady; decide +kernel, by decide +kernel, by decide +kernel, by decide +kernel, by decide +kernel, by decide +kernel⟩,
   ⟨(jen 0x303 ([1, 0, 0, 0, 1, 4, 0, 0]) (hasNs conv)), by unfold JenamReady; decide +kernel, by decide +kernel, by decide +kernel, by decide +kernel, by decide +kernel⟩,
   ⟨(jen 0x304 ([1, 0, 0, 0, 0, 0, 0, 0]) (hasNs conv)), by unfold JenamReady; decide +kernel, by decide +kernel, by decide +kernel, by decide +kernel, by decide +kernel, by decide +kernel, by decide +kernel⟩⟩

theorem witness_JenamNamespacesAct_2 :
    (∃ s : State, JenamReady s (0 : Fin 32) 0x0305 (jbuf 0x305 ([1, 0, 0, 0, 0, 2, 0, 8])) ([1, 0, 0, 0, 0, 2, 0, 8] : List Byte) ∧ ([1, 0, 0, 0, 0, 2, 0, 8] : List Byte).length = 8 ∧ jf ([1, 0, 0, 0, 0, 2, 0, 8] : List Byte) 4 1 ≤ 15 ∧ (jf ([1, 0, 0, 0, 0, 2, 0, 8] : List Byte) 5 1 = 0 ∨ jf ([1, 0, 0, 0, 0, 2, 0, 8] : List Byte) 5 1 = 2) ∧ s.dev.ns? (jf ([1, 0, 0, 0, 0, 2, 0, 8] : List Byte) 0 4) = some zoned ∧ ((if zoned.zoned = true then 0 < jf ([1, 0, 0, 0, 0, 2, 0, 8] : List Byte) 6 2 ∧ jf ([1, 0, 0, 0, 0, 2, 0, 8] : List Byte) 6 2 ≤ 2048 else jf ([1, 0, 0, 0, 0, 2, 0, 8] : List Byte) 6 2 = 0)) ∧ s.dev.activeOf (jf ([1, 0, 0, 0, 0, 2, 0, 8] : List Byte) 0 4) ≤ jf ([1, 0, 0, 0, 0, 2, 0, 8] : List Byte) 6 2 ∧ ((jf ([1, 0, 0, 0, 0, 2, 0, 8] : List Byte) 5 1 = 0 → ∀ f' ∈ zoned.attached, s.dev.tenantOf f' = zoned.owner)) ∧ s.dev.classForeign zoned.owner (jf ([1, 0, 0, 0, 0, 2, 0, 8] : List Byte) 4 1) = false ∧ s.dev.othersLimit (jf ([1, 0, 0, 0, 0, 2, 0, 8] : List Byte) 0 4) + jf ([1, 0, 0, 0, 0, 2, 0, 8] : List Byte) 6 2 ≤ 2048) ∧
    (∃ s : State, JenamReady s (0 : Fin 32) 0x0307 (jbuf 0x307 ([1, 0, 0, 0, 15, 3, 0, 0, 1] ++ zeros 47)) ([1, 0, 0, 0, 15, 3, 0, 0, 1] ++ zeros 47 : List Byte) ∧ ([1, 0, 0, 0, 15, 3, 0, 0, 1] ++ zeros 47 : List Byte).length = 56 ∧ 0 < jf ([1, 0, 0, 0, 15, 3, 0, 0, 1] ++ zeros 47 : List Byte) 4 1 ∧ jf ([1, 0, 0, 0, 15, 3, 0, 0, 1] ++ zeros 47 : List Byte) 4 1 ≤ 15 ∧ jf ([1, 0, 0, 0, 15, 3, 0, 0, 1] ++ zeros 47 : List Byte) 5 1 ≤ 3 ∧ jf ([1, 0, 0, 0, 15, 3, 0, 0, 1] ++ zeros 47 : List Byte) 6 2 = 0 ∧ s.dev.ns? (jf ([1, 0, 0, 0, 15, 3, 0, 0, 1] ++ zeros 47 : List Byte) 0 4) = some zoned ∧ zoned.zoned = true ∧ ((∀ g < 384, bit (jf ([1, 0, 0, 0, 15, 3, 0, 0, 1] ++ zeros 47 : List Byte) (8 + g / 8) 1) (g % 8) = true → g ∈ zoned.groups))) ∧
    (∃ s : State, s.dev.ns? (jf ([9, 0, 0, 0] : List Byte) 0 4) = none ∧ JenamReady s (0 : Fin 32) 0x0302 (jbuf 0x302 ([9, 0, 0, 0])) ([9, 0, 0, 0] : List Byte) ∧ ([9, 0, 0, 0] : List Byte).length = 4 ∧ s.dev.jBuf (0 : Fin 32) = some (jbuf 0x302 ([9, 0, 0, 0]))) :=
  ⟨⟨(jen 0x305 ([1, 0, 0, 0, 0, 2, 0, 8]) (hasNs zoned)), by unfold JenamReady; decide +kernel, by decide +kernel, by decide +kernel, by decide +kernel, by decide +kernel, by decide +kernel, by decide +kernel, by decide +kernel, by decide +kernel, by decide +kernel⟩,
   ⟨(jen 0x307 ([1, 0, 0, 0, 15, 3, 0, 0, 1] ++ zeros 47) (hasNs zoned)), by unfold JenamReady; decide +kernel, by decide +kernel, by decide +kernel, by decide +kernel, by decide +kernel, by decide +kernel, by decide +kernel, by decide +kernel, by decide +kernel⟩,
   ⟨(jen 0x302 ([9, 0, 0, 0]) (id)), by decide +kernel, by unfold JenamReady; decide +kernel, by decide +kernel, by decide +kernel⟩⟩

theorem witness_JenamNamespacesAct_3 :
    (∃ s : State, s.dev.ns? (jf ([1, 0, 0, 0, 1, 4, 0, 0] : List Byte) 0 4) = none ∧ JenamReady s (0 : Fin 32) 0x0303 (jbuf 0x303 ([1, 0, 0, 0, 1, 4, 0, 0])) ([1, 0, 0, 0, 1, 4, 0, 0] : List Byte) ∧ ([1, 0, 0, 0, 1, 4, 0, 0] : List Byte).length = 8 ∧ jf ([1, 0, 0, 0, 1, 4, 0, 0] : List Byte) 6 2 = 0) ∧
    (∃ s : State, s.dev.ns? (jf ([1, 0, 0, 0, 0, 0, 0, 8] : List Byte) 0 4) = none ∧ JenamReady s (0 : Fin 32) 0x0305 (jbuf 0x305 ([1, 0, 0, 0, 0, 0, 0, 8])) ([1, 0, 0, 0, 0, 0, 0, 8] : List Byte) ∧ ([1, 0, 0, 0, 0, 0, 0, 8] : List Byte).length = 8 ∧ jf ([1, 0, 0, 0, 0, 0, 0, 8] : List Byte) 4 1 ≤ 15 ∧ jf ([1, 0, 0, 0, 0, 0, 0, 8] : List Byte) 5 1 = 0) ∧
    (∃ s : State, JenamReady s (0 : Fin 32) 0x0301 (jbuf 0x301 (convParams)) (convParams : List Byte) ∧ nsCreateOk (convParams : List Byte) = true ∧ s.dev.rowsAstray (jRows (convParams : List Byte)) = false ∧ s.dev.ns? (jf (convParams : List Byte) 0 4) = none ∧ s.dev.nsRefusal (convParams : List Byte) = none ∧ bit (jf (convParams : List Byte) 9 1) 2 = false ∧ (s.dev.keySlot (nsSlot (jf (convParams : List Byte) 0 4))).state = .empty) :=
  ⟨⟨(jen 0x303 ([1, 0, 0, 0, 1, 4, 0, 0]) (id)), by decide +kernel, by unfold JenamReady; decide +kernel, by decide +kernel, by decide +kernel⟩,
   ⟨(jen 0x305 ([1, 0, 0, 0, 0, 0, 0, 8]) (id)), by decide +kernel, by unfold JenamReady; decide +kernel, by decide +kernel, by decide +kernel, by decide +kernel⟩,
   ⟨(jen 0x301 (convParams) (tenant1)), by unfold JenamReady; decide +kernel, by unfold nsCreateOk; rw [convRows]; decide +kernel, by rw [convRows]; rfl, by decide +kernel, by unfold Dev.nsRefusal; rw [convRows]; decide +kernel, by decide +kernel, by decide +kernel⟩⟩

theorem witness_JenamNamespacesAct_4 :
    (∃ s : State, JenamReady s (0 : Fin 32) 0x0301 (jbuf 0x301 (convParams)) (convParams : List Byte) ∧ nsCreateOk (convParams : List Byte) = true ∧ s.dev.rowsAstray (jRows (convParams : List Byte)) = false ∧ s.dev.ns? (jf (convParams : List Byte) 0 4) = some conv) ∧
    (∃ s : State, JenamReady s (0 : Fin 32) 0x0301 (jbuf 0x301 (convParams)) (convParams : List Byte) ∧ nsCreateOk (convParams : List Byte) = true ∧ s.dev.rowsAstray (jRows (convParams : List Byte)) = false ∧ s.dev.ns? (jf (convParams : List Byte) 0 4) = none ∧ s.dev.nsRefusal (convParams : List Byte) = some jsNotFound) :=
  ⟨⟨(jen 0x301 (convParams) (hasNs conv)), by unfold JenamReady; decide +kernel, by unfold nsCreateOk; rw [convRows]; decide +kernel, by rw [convRows]; rfl, by decide +kernel⟩,
   ⟨(jen 0x301 (convParams) (id)), by unfold JenamReady; decide +kernel, by unfold nsCreateOk; rw [convRows]; decide +kernel, by rw [convRows]; rfl, by decide +kernel, by decide +kernel⟩⟩

theorem witness_JenamPlansAct :
    (∃ s : State, JenamReady s (0 : Fin 32) 0x0401 (jbuf 0x401 ([255, 255, 255, 255, 255, 255, 0, 0] ++ zeros 2056)) ([255, 255, 255, 255, 255, 255, 0, 0] ++ zeros 2056 : List Byte) ∧ ([255, 255, 255, 255, 255, 255, 0, 0] ++ zeros 2056 : List Byte).length = 2064 ∧ jf ([255, 255, 255, 255, 255, 255, 0, 0] ++ zeros 2056 : List Byte) 0 8 < 2 ^ 48 ∧ jf ([255, 255, 255, 255, 255, 255, 0, 0] ++ zeros 2056 : List Byte) 10 6 = 0) ∧
    (∃ s : State, JenamReady s (0 : Fin 32) 0x0402 (jbuf 0x402 ([1, 0, 0, 0, 0, 0, 0, 0, 2, 0, 0, 0, 0, 0, 0, 0])) ([1, 0, 0, 0, 0, 0, 0, 0, 2, 0, 0, 0, 0, 0, 0, 0] : List Byte) ∧ ([1, 0, 0, 0, 0, 0, 0, 0, 2, 0, 0, 0, 0, 0, 0, 0] : List Byte).length = 16 ∧ jf ([1, 0, 0, 0, 0, 0, 0, 0, 2, 0, 0, 0, 0, 0, 0, 0] : List Byte) 0 8 < 2 ^ 48 ∧ jf ([1, 0, 0, 0, 0, 0, 0, 0, 2, 0, 0, 0, 0, 0, 0, 0] : List Byte) 12 1 ≤ 1 ∧ jf ([1, 0, 0, 0, 0, 0, 0, 0, 2, 0, 0, 0, 0, 0, 0, 0] : List Byte) 13 3 = 0 ∧ (2 : Nat) = (if jf ([1, 0, 0, 0, 0, 0, 0, 0, 2, 0, 0, 0, 0, 0, 0, 0] : List Byte) 12 1 = 1 then (s.dev.sheet + 2) % 2 ^ 32 else jf ([1, 0, 0, 0, 0, 0, 0, 0, 2, 0, 0, 0, 0, 0, 0, 0] : List Byte) 8 4)) ∧
    (∃ s : State, JenamReady s (0 : Fin 32) 0x0402 (jbuf 0x402 (zeros 12 ++ [7, 0, 0, 0])) (zeros 12 ++ [7, 0, 0, 0] : List Byte) ∧ (zeros 12 ++ [7, 0, 0, 0] : List Byte).length = 16 ∧ jf (zeros 12 ++ [7, 0, 0, 0] : List Byte) 0 8 < 2 ^ 48 ∧ 2 ≤ jf (zeros 12 ++ [7, 0, 0, 0] : List Byte) 12 1 ∧ jf (zeros 12 ++ [7, 0, 0, 0] : List Byte) 12 1 ≤ 7 ∧ jf (zeros 12 ++ [7, 0, 0, 0] : List Byte) 13 3 = 0) ∧
    (∃ s : State, JenamReady s (0 : Fin 32) 0x0403 (jbuf 0x403 ([47, 1, 0, 0])) ([47, 1, 0, 0] : List Byte) ∧ ([47, 1, 0, 0] : List Byte).length = 4 ∧ jf ([47, 1, 0, 0] : List Byte) 0 1 < 48 ∧ jf ([47, 1, 0, 0] : List Byte) 1 1 ≤ 1 ∧ jf ([47, 1, 0, 0] : List Byte) 2 2 = 0) ∧
    (∃ s : State, JenamReady s (0 : Fin 32) 0x0404 (jbuf 0x404 (zeros 16)) (zeros 16 : List Byte) ∧ (zeros 16 : List Byte).length = 16 ∧ jf (zeros 16 : List Byte) 0 8 < 2 ^ 48 ∧ jf (zeros 16 : List Byte) 13 3 = 0) ∧
    (∃ s : State, JenamReady s (0 : Fin 32) 0x0501 (jbuf 0x501 (zeros 96)) (zeros 96 : List Byte) ∧ (zeros 96 : List Byte).length = 96) ∧
    (∃ s : State, JenamReady s (0 : Fin 32) 0x0502 (jbuf 0x502 ([1, 0, 0, 0] ++ zeros 128)) ([1, 0, 0, 0] ++ zeros 128 : List Byte) ∧ ([1, 0, 0, 0] ++ zeros 128 : List Byte).length = 132 ∧ s.dev.ns? (jf ([1, 0, 0, 0] ++ zeros 128 : List Byte) 0 4) = some conv ∧ jf ([1, 0, 0, 0] ++ zeros 128 : List Byte) 0 4 ≤ 4096 ∧ (s.dev.keySlot (nsSlot (jf ([1, 0, 0, 0] ++ zeros 128 : List Byte) 0 4))).state = .empty) ∧
    (∃ s : State, JenamReady s (0 : Fin 32) 0x0503 (jbuf 0x503 ([1, 0, 0, 0])) ([1, 0, 0, 0] : List Byte) ∧ ([1, 0, 0, 0] : List Byte).length = 4 ∧ s.dev.ns? (jf ([1, 0, 0, 0] : List Byte) 0 4) = some conv ∧ jf ([1, 0, 0, 0] : List Byte) 0 4 ≤ 4096) :=
  ⟨⟨(jen 0x401 ([255, 255, 255, 255, 255, 255, 0, 0] ++ zeros 2056) (id)), by unfold JenamReady; decide +kernel, by decide +kernel, by decide +kernel, by decide +kernel⟩,
   ⟨(jen 0x402 ([1, 0, 0, 0, 0, 0, 0, 0, 2, 0, 0, 0, 0, 0, 0, 0]) (id)), by unfold JenamReady; decide +kernel, by decide +kernel, by decide +kernel, by decide +kernel, by decide +kernel, by decide +kernel⟩,
   ⟨(jen 0x402 (zeros 12 ++ [7, 0, 0, 0]) (id)), by unfold JenamReady; decide +kernel, by decide +kernel, by decide +kernel, by decide +kernel, by decide +kernel, by decide +kernel⟩,
   ⟨(jen 0x403 ([47, 1, 0, 0]) (id)), by unfold JenamReady; decide +kernel, by decide +kernel, by decide +kernel, by decide +kernel, by decide +kernel⟩,
   ⟨(jen 0x404 (zeros 16) (id)), by unfold JenamReady; decide +kernel, by decide +kernel, by decide +kernel, by decide +kernel⟩,
   ⟨(jen 0x501 (zeros 96) (id)), by unfold JenamReady; decide +kernel, by decide +kernel⟩,
   ⟨(jen 0x502 ([1, 0, 0, 0] ++ zeros 128) (hasNs conv)), by unfold JenamReady; decide +kernel, by decide +kernel, by decide +kernel, by decide +kernel, by decide +kernel⟩,
   ⟨(jen 0x503 ([1, 0, 0, 0]) (hasNs conv)), by unfold JenamReady; decide +kernel, by decide +kernel, by decide +kernel, by decide +kernel⟩⟩

theorem witness_JenamPlansAct_2 :
    ∃ s : State, JenamReady s (0 : Fin 32) 0x0504 (jbuf 0x504 ([1, 0, 0, 0, 1, 2, 0, 0])) ([1, 0, 0, 0, 1, 2, 0, 0] : List Byte) ∧ ([1, 0, 0, 0, 1, 2, 0, 0] : List Byte).length = 8 ∧ jf ([1, 0, 0, 0, 1, 2, 0, 0] : List Byte) 4 1 ≤ 1 ∧ jf ([1, 0, 0, 0, 1, 2, 0, 0] : List Byte) 5 1 ≤ 2 ∧ jf ([1, 0, 0, 0, 1, 2, 0, 0] : List Byte) 6 2 = 0 ∧ s.dev.ns? (jf ([1, 0, 0, 0, 1, 2, 0, 0] : List Byte) 0 4) = some conv :=
  ⟨(jen 0x504 ([1, 0, 0, 0, 1, 2, 0, 0]) (hasNs conv)), by unfold JenamReady; decide +kernel, by decide +kernel, by decide +kernel, by decide +kernel, by decide +kernel, by decide +kernel⟩

theorem witness_JenamHealthAct :
    (∃ s : State, JenamReady s (0 : Fin 32) 0x0601 (jbuf 0x601 ([255, 5, 1, 0])) ([255, 5, 1, 0] : List Byte) ∧ ([255, 5, 1, 0] : List Byte).length = 4 ∧ 0 < jf ([255, 5, 1, 0] : List Byte) 2 2 ∧ jf ([255, 5, 1, 0] : List Byte) 0 2 + jf ([255, 5, 1, 0] : List Byte) 2 2 ≤ 1536) ∧
    (∃ s : State, JenamReady s (0 : Fin 32) 0x0602 (jbuf 0x602 ([0, 0, 0, 0, 0, 0, 0, 0, 84, 5, 0, 0])) ([0, 0, 0, 0, 0, 0, 0, 0, 84, 5, 0, 0] : List Byte) ∧ ([0, 0, 0, 0, 0, 0, 0, 0, 84, 5, 0, 0] : List Byte).length = 12 ∧ 0 < jf ([0, 0, 0, 0, 0, 0, 0, 0, 84, 5, 0, 0] : List Byte) 8 2 ∧ jf ([0, 0, 0, 0, 0, 0, 0, 0, 84, 5, 0, 0] : List Byte) 8 2 ≤ 1364 ∧ jf ([0, 0, 0, 0, 0, 0, 0, 0, 84, 5, 0, 0] : List Byte) 10 2 = 0) ∧
    (∃ s : State, JenamReady s (0 : Fin 32) 0x0603 (jbuf 0x603 ([95, 0, 15, 14, 1, 0, 0, 0])) ([95, 0, 15, 14, 1, 0, 0, 0] : List Byte) ∧ ([95, 0, 15, 14, 1, 0, 0, 0] : List Byte).length = 8 ∧ jf ([95, 0, 15, 14, 1, 0, 0, 0] : List Byte) 0 1 < 96 ∧ jf ([95, 0, 15, 14, 1, 0, 0, 0] : List Byte) 1 1 = 0 ∧ 0 < jf ([95, 0, 15, 14, 1, 0, 0, 0] : List Byte) 4 2 ∧ jf ([95, 0, 15, 14, 1, 0, 0, 0] : List Byte) 2 2 + jf ([95, 0, 15, 14, 1, 0, 0, 0] : List Byte) 4 2 ≤ 3600 ∧ jf ([95, 0, 15, 14, 1, 0, 0, 0] : List Byte) 6 2 = 0) ∧
    (∃ s : State, JenamReady s (0 : Fin 32) 0x0604 (jbuf 0x604 ([])) []) ∧
    (∃ s : State, JenamReady s (0 : Fin 32) 0x0605 (jbuf 0x605 ([1, 0, 0, 0, 48, 117, 0, 0])) ([1, 0, 0, 0, 48, 117, 0, 0] : List Byte) ∧ ([1, 0, 0, 0, 48, 117, 0, 0] : List Byte).length = 8 ∧ jf ([1, 0, 0, 0, 48, 117, 0, 0] : List Byte) 1 3 = 0 ∧ threshRange (jf ([1, 0, 0, 0, 48, 117, 0, 0] : List Byte) 0 1) = some ((30000 : Nat), (60000 : Nat))) ∧
    (∃ s : State, JenamReady s (0 : Fin 32) 0x0606 (jbuf 0x606 ([0, 0, 255, 5])) ([0, 0, 255, 5] : List Byte) ∧ ([0, 0, 255, 5] : List Byte).length = 4 ∧ jf ([0, 0, 255, 5] : List Byte) 0 1 = 0 ∧ jf ([0, 0, 255, 5] : List Byte) 1 1 = 0 ∧ jf ([0, 0, 255, 5] : List Byte) 2 2 < 1536 ∧ (s.dev.die (jf ([0, 0, 255, 5] : List Byte) 2 2 / 32) (jf ([0, 0, 255, 5] : List Byte) 2 2 % 32)).st ≠ .retired) ∧
    (∃ s : State, JenamReady s (0 : Fin 32) 0x0606 (jbuf 0x606 ([1, 0, 48, 0])) ([1, 0, 48, 0] : List Byte) ∧ ([1, 0, 48, 0] : List Byte).length = 4 ∧ jf ([1, 0, 48, 0] : List Byte) 0 1 = 1 ∧ jf ([1, 0, 48, 0] : List Byte) 1 1 = 0 ∧ 48 ≤ jf ([1, 0, 48, 0] : List Byte) 2 2) ∧
    (∃ s : State, JenamReady s (0 : Fin 32) 0x0606 (jbuf 0x606 ([1, 0, 47, 0])) ([1, 0, 47, 0] : List Byte) ∧ ([1, 0, 47, 0] : List Byte).length = 4 ∧ jf ([1, 0, 47, 0] : List Byte) 0 1 = 1 ∧ jf ([1, 0, 47, 0] : List Byte) 1 1 = 0 ∧ jf ([1, 0, 47, 0] : List Byte) 2 2 < 48 ∧ (s.dev.chan (jf ([1, 0, 47, 0] : List Byte) 2 2)).retired = false) :=
  ⟨⟨(jen 0x601 ([255, 5, 1, 0]) (id)), by unfold JenamReady; decide +kernel, by decide +kernel, by decide +kernel, by decide +kernel⟩,
   ⟨(jen 0x602 ([0, 0, 0, 0, 0, 0, 0, 0, 84, 5, 0, 0]) (id)), by unfold JenamReady; decide +kernel, by decide +kernel, by decide +kernel, by decide +kernel, by decide +kernel⟩,
   ⟨(jen 0x603 ([95, 0, 15, 14, 1, 0, 0, 0]) (id)), by unfold JenamReady; decide +kernel, by decide +kernel, by decide +kernel, by decide +kernel, by decide +kernel, by decide +kernel, by decide +kernel⟩,
   ⟨(jen 0x604 ([]) (id)), by unfold JenamReady; decide +kernel⟩,
   ⟨(jen 0x605 ([1, 0, 0, 0, 48, 117, 0, 0]) (id)), by unfold JenamReady; decide +kernel, by decide +kernel, by decide +kernel, by decide +kernel⟩,
   ⟨(jen 0x606 ([0, 0, 255, 5]) (id)), by unfold JenamReady; decide +kernel, by decide +kernel, by decide +kernel, by decide +kernel, by decide +kernel, by decide +kernel⟩,
   ⟨(jen 0x606 ([1, 0, 48, 0]) (id)), by unfold JenamReady; decide +kernel, by decide +kernel, by decide +kernel, by decide +kernel, by decide +kernel⟩,
   ⟨(jen 0x606 ([1, 0, 47, 0]) (id)), by unfold JenamReady; decide +kernel, by decide +kernel, by decide +kernel, by decide +kernel, by decide +kernel, by decide +kernel⟩⟩

theorem witness_JenamHealthAct_2 :
    (∃ s : State, JenamReady s (0 : Fin 32) 0x0701 (jbuf 0x701 ([])) []) ∧
    (∃ s : State, JenamReady s (0 : Fin 32) 0x0702 (jbuf 0x702 ([3, 1, 0, 0])) ([3, 1, 0, 0] : List Byte) ∧ ([3, 1, 0, 0] : List Byte).length = 4 ∧ jf ([3, 1, 0, 0] : List Byte) 0 1 ≤ 3 ∧ jf ([3, 1, 0, 0] : List Byte) 1 1 ≤ 1 ∧ jf ([3, 1, 0, 0] : List Byte) 2 2 = 0) ∧
    (∃ s : State, JenamReady s (0 : Fin 32) 0x0801 (jbuf 0x801 ([])) ([] : List Byte)) ∧
    (∃ s : State, JenamReady s (0 : Fin 32) 0x0802 (jbuf 0x802 ([0, 0, 0, 0, 2, 0, 0, 0, 1, 0, 0, 0])) ([0, 0, 0, 0, 2, 0, 0, 0, 1, 0, 0, 0] : List Byte) ∧ ([0, 0, 0, 0, 2, 0, 0, 0, 1, 0, 0, 0] : List Byte).length = 12 ∧ jf ([0, 0, 0, 0, 2, 0, 0, 0, 1, 0, 0, 0] : List Byte) 10 2 = 0 ∧ 0 < jf ([0, 0, 0, 0, 2, 0, 0, 0, 1, 0, 0, 0] : List Byte) 8 2 ∧ jf ([0, 0, 0, 0, 2, 0, 0, 0, 1, 0, 0, 0] : List Byte) 8 2 ≤ 1024 ∧ inControl (jf ([0, 0, 0, 0, 2, 0, 0, 0, 1, 0, 0, 0] : List Byte) 0 8) (jf ([0, 0, 0, 0, 2, 0, 0, 0, 1, 0, 0, 0] : List Byte) 8 2) = true) ∧
    (∃ s : State, JenamReady s (0 : Fin 32) 0x0803 (jbuf 0x803 ([0, 0, 0, 0, 2, 0, 0, 0, 1, 0, 0, 0])) ([0, 0, 0, 0, 2, 0, 0, 0, 1, 0, 0, 0] : List Byte) ∧ ([0, 0, 0, 0, 2, 0, 0, 0, 1, 0, 0, 0] : List Byte).length = 12 ∧ inControl (jf ([0, 0, 0, 0, 2, 0, 0, 0, 1, 0, 0, 0] : List Byte) 0 8) 1 = true) ∧
    (∃ s : State, JenamReady s (0 : Fin 32) 0x0804 (jbuf 0x804 ([])) []) ∧
    (∃ s : State, JenamReady s (0 : Fin 32) 0x0901 (jbuf 0x901 ([])) []) :=
  ⟨⟨(jen 0x701 ([]) (id)), by unfold JenamReady; decide +kernel⟩,
   ⟨(jen 0x702 ([3, 1, 0, 0]) (id)), by unfold JenamReady; decide +kernel, by decide +kernel, by decide +kernel, by decide +kernel, by decide +kernel⟩,
   ⟨(jen 0x801 ([]) (id)), by unfold JenamReady; decide +kernel⟩,
   ⟨(jen 0x802 ([0, 0, 0, 0, 2, 0, 0, 0, 1, 0, 0, 0]) (id)), by unfold JenamReady; decide +kernel, by decide +kernel, by decide +kernel, by decide +kernel, by decide +kernel, by decide +kernel⟩,
   ⟨(jen 0x803 ([0, 0, 0, 0, 2, 0, 0, 0, 1, 0, 0, 0]) (id)), by unfold JenamReady; decide +kernel, by decide +kernel, by decide +kernel⟩,
   ⟨(jen 0x804 ([]) (id)), by unfold JenamReady; decide +kernel⟩,
   ⟨(jen 0x901 ([]) (id)), by unfold JenamReady; decide +kernel⟩⟩

theorem witness_JenamFirmwareAct :
    (∃ s : State, JenamReady s (0 : Fin 32) 0x0A01 (jbuf 0xA01 ([])) []) ∧
    (∃ s : State, JenamReady s (0 : Fin 32) 0x0A02 (jbuf 0xA02 ([1])) ([1] : List Byte) ∧ 0 < ([1] : List Byte).length ∧ ([1] : List Byte).length ≤ 16384) ∧
    (∃ s : State, JenamReady s (0 : Fin 32) 0x0A03 (jbuf 0xA03 ([])) []) ∧
    (∃ s : State, JenamReady s (0 : Fin 32) 0x0A04 (jbuf 0xA04 ([7, 0, 0, 0, 0, 1, 3, 0])) ([7, 0, 0, 0, 0, 1, 3, 0] : List Byte) ∧ 8 ≤ ([7, 0, 0, 0, 0, 1, 3, 0] : List Byte).length ∧ jf ([7, 0, 0, 0, 0, 1, 3, 0] : List Byte) 0 1 ≤ 7 ∧ jf ([7, 0, 0, 0, 0, 1, 3, 0] : List Byte) 1 3 = 0 ∧ jf ([7, 0, 0, 0, 0, 1, 3, 0] : List Byte) 4 4 + (([7, 0, 0, 0, 0, 1, 3, 0] : List Byte).length - 8) ≤ 196864) ∧
    (∃ s : State, JenamReady s (0 : Fin 32) 0x0A05 (jbuf 0xA05 ([7, 0, 0, 0, 0, 0, 0, 0, 0, 1, 0, 0])) ([7, 0, 0, 0, 0, 0, 0, 0, 0, 1, 0, 0] : List Byte) ∧ ([7, 0, 0, 0, 0, 0, 0, 0, 0, 1, 0, 0] : List Byte).length = 12 ∧ jf ([7, 0, 0, 0, 0, 0, 0, 0, 0, 1, 0, 0] : List Byte) 0 1 ≤ 7 ∧ jf ([7, 0, 0, 0, 0, 0, 0, 0, 0, 1, 0, 0] : List Byte) 1 3 = 0 ∧ jf ([7, 0, 0, 0, 0, 0, 0, 0, 0, 1, 0, 0] : List Byte) 4 4 ≤ 196864 ∧ 0 < jf ([7, 0, 0, 0, 0, 0, 0, 0, 0, 1, 0, 0] : List Byte) 8 4 ∧ jf ([7, 0, 0, 0, 0, 0, 0, 0, 0, 1, 0, 0] : List Byte) 8 4 ≤ 256 ∧ (s.dev.etch (jf ([7, 0, 0, 0, 0, 0, 0, 0, 0, 1, 0, 0] : List Byte) 0 1)).image = [] ∧ s.dev.staged (jf ([7, 0, 0, 0, 0, 0, 0, 0, 0, 1, 0, 0] : List Byte) 0 1) (jf ([7, 0, 0, 0, 0, 0, 0, 0, 0, 1, 0, 0] : List Byte) 4 4) = (s.dev.staged 7 0)) ∧
    (∃ s : State, JenamReady s (0 : Fin 32) 0x0A06 (jbuf 0xA06 ([7, 0, 0, 0])) ([7, 0, 0, 0] : List Byte) ∧ ([7, 0, 0, 0] : List Byte).length = 4 ∧ jf ([7, 0, 0, 0] : List Byte) 0 1 ≤ 7 ∧ jf ([7, 0, 0, 0] : List Byte) 1 3 = 0) ∧
    (∃ s : State, JenamReady s (0 : Fin 32) 0x0A07 (jbuf 0xA07 ([])) []) :=
  ⟨⟨(jen 0xA01 ([]) (id)), by unfold JenamReady; decide +kernel⟩,
   ⟨(jen 0xA02 ([1]) (id)), by unfold JenamReady; decide +kernel, by decide +kernel, by decide +kernel⟩,
   ⟨(jen 0xA03 ([]) (id)), by unfold JenamReady; decide +kernel⟩,
   ⟨(jen 0xA04 ([7, 0, 0, 0, 0, 1, 3, 0]) (id)), by unfold JenamReady; decide +kernel, by decide +kernel, by decide +kernel, by decide +kernel, by decide +kernel⟩,
   ⟨(jen 0xA05 ([7, 0, 0, 0, 0, 0, 0, 0, 0, 1, 0, 0]) (id)), by unfold JenamReady; decide +kernel, by decide +kernel, by decide +kernel, by decide +kernel, by decide +kernel, by decide +kernel, by decide +kernel, by decide +kernel, by decide +kernel⟩,
   ⟨(jen 0xA06 ([7, 0, 0, 0]) (id)), by unfold JenamReady; decide +kernel, by decide +kernel, by decide +kernel, by decide +kernel⟩,
   ⟨(jen 0xA07 ([]) (id)), by unfold JenamReady; decide +kernel⟩⟩

theorem witness_JenamTransportsAct :
    (∃ s : State, Taken s.dev (0 : Fin 131072) true 0xC1 (adm 0xC1 31 0) ∧ ((adm 0xC1 31 0).sqe.cdw10.toNat < 32 ∨ 65536 < (adm 0xC1 31 0).sqe.cdw10.toNat ∨ (adm 0xC1 31 0).sqe.cdw10.toNat % 4 ≠ 0)) ∧
    (∃ s : State, Taken s.dev (0 : Fin 131072) true 0xC1 (adm 0xC1 65536 0) ∧ 32 ≤ (adm 0xC1 65536 0).sqe.cdw10.toNat ∧ (adm 0xC1 65536 0).sqe.cdw10.toNat ≤ 65536 ∧ (adm 0xC1 65536 0).sqe.cdw10.toNat % 4 = 0 ∧ s.dev.freeBuf = none) ∧
    (∃ s : State, Taken s.dev (0 : Fin 131072) true 0xC1 (adm 0xC1 32 0) ∧ 32 ≤ (adm 0xC1 32 0).sqe.cdw10.toNat ∧ (adm 0xC1 32 0).sqe.cdw10.toNat ≤ 65536 ∧ (adm 0xC1 32 0).sqe.cdw10.toNat % 4 = 0 ∧ s.dev.freeBuf = some (0 : Nat) ∧ s.dev.jnm.sends = []) ∧
    (∃ s : State, Taken s.dev (0 : Fin 131072) true 0xC2 (adm 0xC2 0 0) ∧ (0 : Nat) = bits (adm 0xC2 0 0).sqe.cdw11.toNat 15 0 ∧ ((∃ b' ∈ s.dev.jnm.bufs, b'.phase ∈ [JPhase.accepted, .forwarded, .answered] ∧ jOrigin b'.packet = (0 : Nat) ∧ jSeq b'.packet = (adm 0xC2 0 0).sqe.cdw10.toNat))) ∧
    (∃ s : State, Taken s.dev (0 : Fin 131072) true 0xC2 (adm 0xC2 9 0) ∧ (0 : Nat) = bits (adm 0xC2 9 0).sqe.cdw11.toNat 15 0 ∧ ((∀ b' ∈ s.dev.jnm.bufs, b'.phase ∈ [JPhase.accepted, .forwarded, .answered] → jOrigin b'.packet = (0 : Nat) → jSeq b'.packet ≠ (adm 0xC2 9 0).sqe.cdw10.toNat))) ∧
    (∃ s : State, s.dev.binding false = true ∧ ([1, 2]).length ≤ 65536) :=
  ⟨⟨(holds (adm 0xC1 31 0) (id)), by unfold Taken; decide +kernel, by decide +kernel⟩,
   ⟨(holds (adm 0xC1 65536 0) (fun d => { d with jnm := { d.jnm with bufs := (List.range 32).map fun i => { jbuf 0x101 [] with buf := i } } })), by unfold Taken; decide +kernel, by decide +kernel, by decide +kernel, by decide +kernel, by decide +kernel⟩,
   ⟨(holds (adm 0xC1 32 0) (fun d => d.wr Fd.JNM_CTL_EN 1)), by unfold Taken; decide +kernel, by decide +kernel, by decide +kernel, by decide +kernel, by decide +kernel, by decide +kernel⟩,
   ⟨(holds (adm 0xC2 0 0) (fun d => { d with jnm := { d.jnm with bufs := [jbuf 0x101 []] } })), ⟨rfl, rfl, rfl, rfl⟩, rfl, jbuf 0x101 [], by decide, by decide, rfl, rfl⟩,
   ⟨(holds (adm 0xC2 9 0) (id)), by unfold Taken; decide +kernel, by decide +kernel, by decide +kernel⟩,
   ⟨(dev fun d => d.wr Fd.JNM_CTL_SMB_EN 1), by decide +kernel, by decide +kernel⟩⟩

theorem witness_DramActs :
    (bits (7 : Word).toNat 31 3 = 0) ∧
    (∃ s : State, s.dev.dram.training = true) ∧
    (∃ s : State, s.dev.dram.trained = true ∧ s.dev.is Fd.DMC_CTL_EN = true ∧ s.dev.dram.initDone = false) ∧
    (∃ s : State, bits (0x11 : Word).toNat 31 8 = 0 ∧ (s.dev.dram.retired ||| (0x11 : Word).toNat % 256) % 16 &&& (s.dev.dram.retired ||| (0x11 : Word).toNat % 256) / 16 ≠ 0) ∧
    (∃ s : State, bits (0x0F : Word).toNat 31 8 = 0 ∧ (s.dev.dram.retired ||| (0x0F : Word).toNat % 256) % 16 &&& (s.dev.dram.retired ||| (0x0F : Word).toNat % 256) / 16 = 0) ∧
    (∃ s : State, s.dev.dram.throttles = ({ port := 0, sub := 0, bank := 0, left := 0 } : Throttle) :: ([] : List Throttle) ∧ ({ port := 0, sub := 0, bank := 0, left := 0 } : Throttle).port = (0 : Fin 8).val ∧ ({ port := 0, sub := 0, bank := 0, left := 0 } : Throttle).sub = (0 : Fin 8).val ∧ ({ port := 0, sub := 0, bank := 0, left := 0 } : Throttle).bank = (0 : Fin 32).val ∧ ({ port := 0, sub := 0, bank := 0, left := 0 } : Throttle).left = 0) ∧
    (∃ s : State, s.dev.pickDram (0 : Fin 8) (s.dev.readQ (0 : Fin 8)) = some ({ port := 0, addr := dramBase, write := false, whole := true, since := 0 } : DramReq)) ∧
    (∃ s : State, s.dev.is Fd.DMC_CTL_EN = true ∧ s.dev.dram.trained = true ∧ s.dev.subOk (0 : Fin 8) = true ∧ bit s.dev.dram.present (0 : Fin 8) = true ∧ ((∀ k', mapFind s.dev.dram.trackedAt (0 : Fin 8) = some k' → k' + 64 ≤ s.dev.sheet))) :=
  ⟨by decide +kernel,
   ⟨(dev fun d => { d with dram := { d.dram with training := true } }), by decide +kernel⟩,
   ⟨(dev fun d => ({ d with dram := { d.dram with trained := true } }).wr Fd.DMC_CTL_EN 1), by decide +kernel, by decide +kernel, by decide +kernel⟩,
   ⟨(State.reset), by decide +kernel, by decide +kernel⟩,
   ⟨(State.reset), by decide +kernel, by decide +kernel⟩,
   ⟨(dev fun d => { d with dram := { d.dram with throttles := [{ port := 0, sub := 0, bank := 0, left := 0 }] } }), by decide +kernel, by decide +kernel, by decide +kernel, by decide +kernel, by decide +kernel⟩,
   ⟨(dev fun d => { d with dram := { d.dram with readQ := [(0, [{ port := 0, addr := dramBase, write := false, whole := true, since := 0 }])] } }), by decide +kernel⟩,
   ⟨(dev fun d => ({ d with dram := { d.dram with trained := true, present := 255 } }).wr Fd.DMC_CTL_EN 1), rfl, rfl, rfl, rfl, fun k h => by cases h⟩⟩

theorem witness_DramActs_2 :
    ∃ s : State, s.dev.dram.initDone = true ∧ s.dev.is Fd.DMC_CTL_PATROL_EN = true ∧ s.dev.dram.patrol < s.dev.patrolTotal ∧ s.dev.dram.patrol * s.dev.rd Fd.DMC_PATROL_SHEETS * 256 ≤ ((s.dev.sheet - s.dev.dram.lapStart) * 256 + s.dev.stroke) * s.dev.patrolTotal ∧ (s.dev.readQ s.dev.patrolSub).length < 64 :=
  ⟨(dev fun d => ({ d with dram := { d.dram with initDone := true, mib := 64 } }).wr Fd.DMC_CTL_PATROL_EN 1), by decide +kernel, by decide +kernel, by decide +kernel, by decide +kernel, by decide +kernel⟩

theorem witness_GraversAct :
    (∃ s : State, s.dev.executes (0 : Fin 64) = true ∧ ({ Graver.reset with st := .run }) = s.dev.graver (0 : Fin 64) ∧ (0 : Nat) = (({ Graver.reset with st := .run }).reg (0 : Fin 32)).toNat) ∧
    (∃ s : State, s.dev.executes (0 : Fin 64) = true ∧ ({ Graver.reset with st := .run }) = s.dev.graver (0 : Fin 64) ∧ (0 : Nat) = (({ Graver.reset with st := .run }).reg (0 : Fin 32)).toNat) ∧
    (∃ s : State, (s.dev.etch (7 : Fin 8)).graver = some (63 : Nat)) ∧
    (∃ s : State, bits (1 : Word).toNat 31 4 = 0 ∧ bits (1 : Word).toNat 3 1 = 0 ∧ (s.dev.graver (s.dev.rd Fd.GRV_SEL_GRAVER)).st = .halt) ∧
    (∃ s : State, bits (2 : Word).toNat 31 4 = 0 ∧ bits (2 : Word).toNat 0 0 = 0 ∧ bits (2 : Word).toNat 3 2 = 0 ∧ (s.dev.graver (s.dev.rd Fd.GRV_SEL_GRAVER)).st = .run ∧ 8 ≤ ((List.range 64).filter fun h' => decide (h' ≠ s.dev.rd Fd.GRV_SEL_GRAVER) && (s.dev.graver h').st == .run).length) ∧
    (bits (8 : Word).toNat 31 4 = 0) ∧
    (bits (0x3F3F : Word).toNat 31 14 = 0 ∧ bits (0x3F3F : Word).toNat 7 6 = 0) ∧
    (∃ s : State, bits (4 : Word).toNat 31 4 = 0 ∧ bits (4 : Word).toNat 1 0 = 0 ∧ bits (4 : Word).toNat 3 3 = 0 ∧ (s.dev.graver (s.dev.rd Fd.GRV_SEL_GRAVER)).st = .run ∧ ((∃ h < 64, (s.dev.graver h).st = .spare)) ∧ 8 ≤ ((List.range 64).filter fun h' => decide (h' ≠ s.dev.rd Fd.GRV_SEL_GRAVER) && (s.dev.graver h').st == .run).length) :=
  ⟨⟨(graver id), by decide +kernel, by decide +kernel, by decide +kernel⟩,
   ⟨(graver id), by decide +kernel, by decide +kernel, by decide +kernel⟩,
   ⟨(dev fun d => { d with grv := { d.grv with etch := [(7, { EtchSlot.fresh with graver := some 63 })] } }), by decide +kernel⟩,
   ⟨(State.reset), by decide +kernel, by decide +kernel, by decide +kernel⟩,
   ⟨((dev fun d => ({ d with grv := { d.grv with gravers := (List.range 64).map fun g => (g, { Graver.reset with st := if g < 10 then .run else .spare }) } }).wr Fd.GRV_SEL_GRAVER 0)), by decide +kernel, by decide +kernel, by decide +kernel, by decide +kernel, by decide +kernel⟩,
   by decide +kernel,
   ⟨by decide +kernel, by decide +kernel⟩,
   ⟨((dev fun d => ({ d with grv := { d.grv with gravers := (List.range 64).map fun g => (g, { Graver.reset with st := if g < 10 then .run else .spare }) } }).wr Fd.GRV_SEL_GRAVER 0)), rfl, rfl, rfl, rfl, ⟨63, by decide, rfl⟩, by decide⟩⟩

theorem witness_GraversAct_2 :
    (∃ s : State, s.dev.executes (0 : Fin 64) = true ∧ ({ Graver.reset with st := .run }) = s.dev.graver (0 : Fin 64) ∧ (8 : Nat) = ({ Graver.reset with st := .run }).addrOf ({ kind := .store, log2 := 3, unsigned := false, rd := 0, rs1 := 0, rs2 := 1, imm := 8 } : MemOp) ∧ (8 : Nat) = 2 ^ ({ kind := .store, log2 := 3, unsigned := false, rd := 0, rs1 := 0, rs2 := 1, imm := 8 } : MemOp).log2.val ∧ (2 : Nat) = (if true then 2 else 4) ∧ ({ kind := .store, log2 := 3, unsigned := false, rd := 0, rs1 := 0, rs2 := 1, imm := 8 } : MemOp).illegal true = false ∧ (8 : Nat) % (8 : Nat) = 0 ∧ ({ Graver.reset with st := .run }).machine = true ∧ s.dev.reach (0 : Fin 64) (8 : Nat) = .sram (sramKey 0 8) ∧ (0 : Nat) = leNat (s.readReach (.sram (sramKey 0 8)) (8 : Nat)) ∧ (0 : Nat) = (({ Graver.reset with st := .run }).reg ({ kind := .store, log2 := 3, unsigned := false, rd := 0, rs1 := 0, rs2 := 1, imm := 8 } : MemOp).rs2).toNat % 2 ^ (8 * (8 : Nat)) ∧ ({ kind := .store, log2 := 3, unsigned := false, rd := 0, rs1 := 0, rs2 := 1, imm := 8 } : MemOp).kind = .store) ∧
    (∃ s : State, s.dev.executes (0 : Fin 64) = true ∧ ({ Graver.reset with st := .run }) = s.dev.graver (0 : Fin 64) ∧ (0 : Nat) = ({ Graver.reset with st := .run }).addrOf ({ kind := .lr, log2 := 2, unsigned := false, rd := 1, rs1 := 0, rs2 := 0, imm := 0 } : MemOp) ∧ (4 : Nat) = 2 ^ ({ kind := .lr, log2 := 2, unsigned := false, rd := 1, rs1 := 0, rs2 := 0, imm := 0 } : MemOp).log2.val ∧ (4 : Nat) = (if false then 2 else 4) ∧ ({ kind := .lr, log2 := 2, unsigned := false, rd := 1, rs1 := 0, rs2 := 0, imm := 0 } : MemOp).illegal false = false ∧ (0 : Nat) % (4 : Nat) = 0 ∧ ({ Graver.reset with st := .run }).machine = true ∧ s.dev.reach (0 : Fin 64) (0 : Nat) = .sram (sramKey 0 0) ∧ (0 : Nat) = leNat (s.readReach (.sram (sramKey 0 0)) (4 : Nat)) ∧ (0 : Nat) = (({ Graver.reset with st := .run }).reg ({ kind := .lr, log2 := 2, unsigned := false, rd := 1, rs1 := 0, rs2 := 0, imm := 0 } : MemOp).rs2).toNat % 2 ^ (8 * (4 : Nat)) ∧ ({ kind := .lr, log2 := 2, unsigned := false, rd := 1, rs1 := 0, rs2 := 0, imm := 0 } : MemOp).kind = .lr) ∧
    (∃ s : State, s.dev.executes (0 : Fin 64) = true ∧ ({ Graver.reset with st := .run, resv := some 0 }) = s.dev.graver (0 : Fin 64) ∧ (0 : Nat) = ({ Graver.reset with st := .run, resv := some 0 }).addrOf ({ kind := .sc, log2 := 3, unsigned := false, rd := 1, rs1 := 0, rs2 := 0, imm := 0 } : MemOp) ∧ (8 : Nat) = 2 ^ ({ kind := .sc, log2 := 3, unsigned := false, rd := 1, rs1 := 0, rs2 := 0, imm := 0 } : MemOp).log2.val ∧ (4 : Nat) = (if false then 2 else 4) ∧ ({ kind := .sc, log2 := 3, unsigned := false, rd := 1, rs1 := 0, rs2 := 0, imm := 0 } : MemOp).illegal false = false ∧ (0 : Nat) % (8 : Nat) = 0 ∧ ({ Graver.reset with st := .run, resv := some 0 }).machine = true ∧ s.dev.reach (0 : Fin 64) (0 : Nat) = .sram (sramKey 0 0) ∧ (0 : Nat) = leNat (s.readReach (.sram (sramKey 0 0)) (8 : Nat)) ∧ (0 : Nat) = (({ Graver.reset with st := .run, resv := some 0 }).reg ({ kind := .sc, log2 := 3, unsigned := false, rd := 1, rs1 := 0, rs2 := 0, imm := 0 } : MemOp).rs2).toNat % 2 ^ (8 * (8 : Nat)) ∧ ({ kind := .sc, log2 := 3, unsigned := false, rd := 1, rs1 := 0, rs2 := 0, imm := 0 } : MemOp).kind = .sc ∧ ({ Graver.reset with st := .run, resv := some 0 }).resv = some (0 : Nat)) ∧
    (∃ s : State, s.dev.executes (0 : Fin 64) = true ∧ ({ Graver.reset with st := .run }) = s.dev.graver (0 : Fin 64) ∧ (0 : Nat) = ({ Graver.reset with st := .run }).addrOf ({ kind := .sc, log2 := 3, unsigned := false, rd := 1, rs1 := 0, rs2 := 0, imm := 0 } : MemOp) ∧ (8 : Nat) = 2 ^ ({ kind := .sc, log2 := 3, unsigned := false, rd := 1, rs1 := 0, rs2 := 0, imm := 0 } : MemOp).log2.val ∧ (4 : Nat) = (if false then 2 else 4) ∧ ({ kind := .sc, log2 := 3, unsigned := false, rd := 1, rs1 := 0, rs2 := 0, imm := 0 } : MemOp).illegal false = false ∧ (0 : Nat) % (8 : Nat) = 0 ∧ ({ Graver.reset with st := .run }).machine = true ∧ s.dev.reach (0 : Fin 64) (0 : Nat) = .sram (sramKey 0 0) ∧ (0 : Nat) = leNat (s.readReach (.sram (sramKey 0 0)) (8 : Nat)) ∧ (0 : Nat) = (({ Graver.reset with st := .run }).reg ({ kind := .sc, log2 := 3, unsigned := false, rd := 1, rs1 := 0, rs2 := 0, imm := 0 } : MemOp).rs2).toNat % 2 ^ (8 * (8 : Nat)) ∧ ({ kind := .sc, log2 := 3, unsigned := false, rd := 1, rs1 := 0, rs2 := 0, imm := 0 } : MemOp).kind = .sc ∧ ({ Graver.reset with st := .run }).resv ≠ some (0 : Nat)) ∧
    (∃ s : State, s.dev.executes (0 : Fin 64) = true ∧ ({ Graver.reset with st := .run }) = s.dev.graver (0 : Fin 64) ∧ (0 : Nat) = ({ Graver.reset with st := .run }).addrOf ({ kind := .amoMin, log2 := 2, unsigned := false, rd := 1, rs1 := 0, rs2 := 0, imm := 0 } : MemOp) ∧ (4 : Nat) = 2 ^ ({ kind := .amoMin, log2 := 2, unsigned := false, rd := 1, rs1 := 0, rs2 := 0, imm := 0 } : MemOp).log2.val ∧ (4 : Nat) = (if false then 2 else 4) ∧ ({ kind := .amoMin, log2 := 2, unsigned := false, rd := 1, rs1 := 0, rs2 := 0, imm := 0 } : MemOp).illegal false = false ∧ (0 : Nat) % (4 : Nat) = 0 ∧ ({ Graver.reset with st := .run }).machine = true ∧ s.dev.reach (0 : Fin 64) (0 : Nat) = .sram (sramKey 0 0) ∧ (0 : Nat) = leNat (s.readReach (.sram (sramKey 0 0)) (4 : Nat)) ∧ (0 : Nat) = (({ Graver.reset with st := .run }).reg ({ kind := .amoMin, log2 := 2, unsigned := false, rd := 1, rs1 := 0, rs2 := 0, imm := 0 } : MemOp).rs2).toNat % 2 ^ (8 * (4 : Nat)) ∧ ({ kind := .amoMin, log2 := 2, unsigned := false, rd := 1, rs1 := 0, rs2 := 0, imm := 0 } : MemOp).kind.isAmo = true) :=
  ⟨⟨(graver id), by decide +kernel, by decide +kernel, by decide +kernel, by decide +kernel, by decide +kernel, by decide +kernel, by decide +kernel, by decide +kernel, by decide +kernel, by decide +kernel, by decide +kernel, by decide +kernel⟩,
   ⟨(graver id), by decide +kernel, by decide +kernel, by decide +kernel, by decide +kernel, by decide +kernel, by decide +kernel, by decide +kernel, by decide +kernel, by decide +kernel, by decide +kernel, by decide +kernel, by decide +kernel⟩,
   ⟨(graver fun v => { v with resv := some 0 }), by decide +kernel, by decide +kernel, by decide +kernel, by decide +kernel, by decide +kernel, by decide +kernel, by decide +kernel, by decide +kernel, by decide +kernel, by decide +kernel, by decide +kernel, by decide +kernel, by decide +kernel⟩,
   ⟨(graver id), by decide +kernel, by decide +kernel, by decide +kernel, by decide +kernel, by decide +kernel, by decide +kernel, by decide +kernel, by decide +kernel, by decide +kernel, by decide +kernel, by decide +kernel, by decide +kernel, by decide +kernel⟩,
   ⟨(graver id), by decide +kernel, by decide +kernel, by decide +kernel, by decide +kernel, by decide +kernel, by decide +kernel, by decide +kernel, by decide +kernel, by decide +kernel, by decide +kernel, by decide +kernel, by decide +kernel⟩⟩

theorem witness_PowerActs :
    (bits (0x33 : Word).toNat 31 6 = 0 ∧ bits (0x33 : Word).toNat 3 2 = 0) ∧
    (∃ s : State, s.dev.pwr.move = some ({ target := 2, rise := true } : OpMove) ∧ (2 : Nat) = (if ({ target := 2, rise := true } : OpMove).rise then ({ target := 2, rise := true } : OpMove).target else s.dev.pwr.op) ∧ s.dev.opWanted = (2 : Nat)) ∧
    (bits (0xB : Word).toNat 15 4 = 0) ∧
    (∃ s : State, (23 : Fin 24).val ≠ 7 ∧ s.dev.pwr.entry = none ∧ s.dev.pwr.ps ≠ 4) ∧
    (∃ s : State, s.dev.pwr.ticks ≤ s.dev.alarm ∧ s.dev.pwr.entry = none ∧ s.dev.pwr.ps ≠ 4) ∧
    (∃ s : State, 3 ≤ s.dev.selected ∧ s.dev.is Fd.PWR_CTL_ENTRY_EN = true ∧ s.dev.pwr.ps < s.dev.selected ∧ s.dev.pwr.entry = none ∧ s.dev.idle = true ∧ s.dev.sys.stage = .service ∧ ((s.dev.pwr.lastTry = 0 ∨ s.dev.pwr.lastTry + 256 ≤ s.dev.sheet + 1)) ∧ ((s.dev.selected = 4 → (mapGet { done := false, pass := false, step := 0 } s.dev.ecc.checks 66).done = true → (mapGet { done := false, pass := false, step := 0 } s.dev.ecc.checks 66).pass = true)) ∧ (s.dev.modPwr fun p => { p with lastTry := s.dev.sheet + 1 }) = (s.dev.modPwr fun p' => { p' with lastTry := s.dev.sheet + 1 })) :=
  ⟨⟨by decide +kernel, by decide +kernel⟩,
   ⟨(dev fun d => ({ d with pwr := { d.pwr with move := some { target := 2, rise := true } } }).wr Fd.PWR_OP_CTL_TARGET 2), by decide +kernel, by decide +kernel, by decide +kernel⟩,
   by decide +kernel,
   ⟨(State.reset), by decide +kernel, by decide +kernel, by decide +kernel⟩,
   ⟨(dev fun d => { d with pwr := { d.pwr with ps := 3 } }), by decide +kernel, by decide +kernel, by decide +kernel⟩,
   ⟨(dev fun d => ({ d with sys := { d.sys with stage := .service }, pwr := { d.pwr with sel := [(0, 3), (1025, 3)] } }).wr Fd.PWR_CTL_ENTRY_EN 1), by decide +kernel, by decide +kernel, by decide +kernel, by decide +kernel, by decide +kernel, by decide +kernel, by decide +kernel, by decide +kernel, by decide +kernel⟩⟩

theorem witness_StartsAndFlushesAct :
    (∃ s : State, s.dev.resetWhy = some (Why.power, false) ∧ s.dev.sys.failLow = true) ∧
    (∃ s : State, s.dev.resetWhy = some (Why.power, false) ∧ s.dev.sys.failLow = false) ∧
    (∃ s : State, s.dev.sys.stage = .boot ∧ s.dev.dram.initDone = true ∧ ({ fails := [], dies := [], marked := [], badChannels := [], badImages := [], badUnits := [], badCopies := [] } : StartObs).fails = [] ∧ ({ fails := [], dies := [], marked := [], badChannels := [], badImages := [], badUnits := [], badCopies := [] } : StartObs).badChannels = []) ∧
    (∃ s : State, s.dev.sys.stage = .boot ∧ s.dev.dram.initDone = true ∧ ((∃ f' ∈ ({ fails := [{ index := 62, step := 0, unit := 0 }], dies := [], marked := [], badChannels := [], badImages := [], badUnits := [], badCopies := [] } : StartObs).fails, f'.index.val = 62 ∧ f'.unit = 0))) ∧
    (∃ s : State, s.dev.mayStage = true ∧ bits (1 : Word).toNat 31 1 = 0) ∧
    (∃ s : State, s.dev.mayStage = true ∧ s.dev.pwr.ps ≠ 4) ∧
    (∃ s : State, bits (1 : Word).toNat 31 1 = 0 ∧ s.dev.mayStage = false ∧ (s.dev.sys.stage = .boot ∨ s.dev.sys.stage = .noSlot ∨ (∃ o a, s.dev.sys.stage = .starting o a))) ∧
    (∃ s : State, s.dev.sys.stage = .flushing Why.trip true) :=
  ⟨⟨(dev fun d => { d with sys := { d.sys with failLow := true } }), by decide +kernel, by decide +kernel⟩,
   ⟨(State.reset), by decide +kernel, by decide +kernel⟩,
   ⟨(dev fun d => { d with sys := { d.sys with stage := .boot }, dram := { d.dram with initDone := true } }), by decide +kernel, by decide +kernel, by decide +kernel, by decide +kernel⟩,
   ⟨(dev fun d => { d with sys := { d.sys with stage := .boot }, dram := { d.dram with initDone := true } }), rfl, rfl, _, .head _, rfl, rfl⟩,
   ⟨(ticking 0), by decide +kernel, by decide +kernel⟩,
   ⟨(ticking 0), by decide +kernel, by decide +kernel⟩,
   ⟨(staged .noSlot), rfl, rfl, .inr (.inl rfl)⟩,
   ⟨(staged (.flushing .trip true)), by decide +kernel⟩⟩

theorem witness_StartsAndFlushesAct_2 :
    ∃ s : State, s.dev.mayStage = false ∧ (s.dev.sys.stage = .boot ∨ s.dev.sys.stage = .noSlot ∨ (∃ o a, s.dev.sys.stage = .starting o a)) :=
  ⟨(staged .noSlot), rfl, .inr (.inl rfl)⟩

theorem witness_CascadeActs :
    (∃ s : State, ({ DlkPort.reset with up := true, width := 4, peer := 1 }) = s.dev.dlkPort (0 : Fin 2) ∧ ({ DlkPort.reset with up := true, width := 4, peer := 1 }).up = true ∧ (0 : Nat) = ((flit 1).seq.toNat + 4096 - ({ DlkPort.reset with up := true, width := 4, peer := 1 }).expect) % 4096) ∧
    (∃ s : State, ({ DlkPort.reset with up := true, width := 4, peer := 1, unacked := [flit 1] }) = s.dev.dlkPort (0 : Fin 2) ∧ ({ DlkPort.reset with up := true, width := 4, peer := 1, unacked := [flit 1] }).up = true ∧ ({ DlkPort.reset with up := true, width := 4, peer := 1, unacked := [flit 1] }).unacked ≠ []) ∧
    (∃ s : State, s.dev.is Fd.DLK_CTL_EN = true ∧ (s.dev.dlkPort (1 : Fin 2)).up = false ∧ (4 : Fin 5).val ∈ [1, 2, 4]) ∧
    (∃ s : State, (3 : Fin 4).val ≠ s.dev.sys.role ∧ s.dev.takesRequest DlkRequest.live = true) ∧
    (∃ s : State, s.dev.sys.role = 0 ∧ (1 : Fin 4).val ≠ 0 ∧ s.dev.reaches (1 : Fin 4) = true) ∧
    (∃ s : State, s.dev.sys.role = 0 ∧ (1 : Fin 4).val ≠ 0 ∧ s.dev.startingUp = true ∧ (1 : Fin 4).val ∈ s.dev.dlk.admitted) ∧
    (∃ s : State, s.dev.sys.role = 0 ∧ s.dev.reaches (1 : Fin 4) = true) ∧
    (∃ s : State, (s.dev.dlk.unreach.find? fun y' => decide (y'.1 = (1 : Fin 4).val)) = some (((1, 0) : Nat × Nat)) ∧ (((1, 0) : Nat × Nat)).2 + s.dev.holdCycles ≤ s.dev.now ∧ (1 : Fin 4).val ∉ s.dev.dlk.expired) :=
  ⟨⟨(link id id), by decide +kernel, by decide +kernel, by decide +kernel⟩,
   ⟨(link (fun x => { x with unacked := [flit 1] }) id), by decide +kernel, by decide +kernel, by decide +kernel⟩,
   ⟨(dev fun d => d.wr Fd.DLK_CTL_EN 1), by decide +kernel, by decide +kernel, by decide +kernel⟩,
   ⟨(State.reset), by decide +kernel, by decide +kernel⟩,
   ⟨(link id fun x => { x with admitted := [1] }), by decide +kernel, by decide +kernel, by decide +kernel⟩,
   ⟨((link id fun x => { x with admitted := [1] }).modDev fun d => { d with sys := { d.sys with stage := .boot } }), by decide +kernel, by decide +kernel, by decide +kernel, by decide +kernel⟩,
   ⟨(link id fun x => { x with admitted := [1] }), by decide +kernel, by decide +kernel⟩,
   ⟨((link id fun x => { x with admitted := [1], unreach := [(1, 0)] }).modDev fun d => { d with strk := { d.strk with ran := 10 ^ 12 } }), by decide +kernel, by decide +kernel, by decide +kernel⟩⟩

theorem witness_CascadeActs_2 :
    (∃ s : State, s.dev.sys.role = 0 ∧ (s.dev.dlk.unreach.any fun y' => decide (y'.1 = (1 : Fin 4).val)) = true ∧ (s.dev.dlkPort (s.dev.portTo (1 : Fin 4))).up = true) ∧
    (∃ s : State, s.dev.sys.role = 0 ∧ ([1]) = (s.dev.dlk.admitted.filter fun p' => s.dev.reaches p' && !decide (p' ∈ s.dev.dlk.ready))) ∧
    (∃ s : State, ({ DlkPort.reset with up := true, width := 4, peer := 1 }) = s.dev.dlkPort (0 : Fin 2) ∧ ({ DlkPort.reset with up := true, width := 4, peer := 1 }).up = true) ∧
    (∃ s : State, s.dev.sys.role = 0 ∧ (1 : Fin 4).val ≠ 0) ∧
    (∃ s : State, s.dev.sys.role = 0 ∧ (1 : Fin 4).val ≠ 0 ∧ s.dev.awaits (1 : Fin 4) (0 : BitVec 16).toNat = false) :=
  ⟨⟨(link id fun x => { x with admitted := [1], unreach := [(1, 0)] }), by decide +kernel, by decide +kernel, by decide +kernel⟩,
   ⟨(link id fun x => { x with admitted := [1] }), by decide +kernel, by decide +kernel⟩,
   ⟨(link id id), by decide +kernel, by decide +kernel⟩,
   ⟨(State.reset), by decide +kernel, by decide +kernel⟩,
   ⟨(State.reset), by decide +kernel, by decide +kernel, by decide +kernel⟩⟩

theorem witness_FieldsTakeLegalValues :
    ∃ s : State, regionOf s.dev.dram.mib (0x200170000 : BitVec 40).toNat = .control ∧ (0x200170000 : BitVec 40).toNat % 4 = 0 ∧ bankAt (0x200170000 : BitVec 40).toNat = none ∧ regAt (0x200170000 : BitVec 40).toNat = some Rg.LDPC_UNIT_EN ∧ winOf Rg.LDPC_UNIT_EN.addr < 0x100 ∧ Rg.LDPC_UNIT_EN.rsvSet (0x1010000 : Word).toNat = false ∧ s.dev.fixed (chanOfAddr (0x200170000 : BitVec 40).toNat) Rg.LDPC_UNIT_EN.addr = none ∧ Dev.acts (0 : Fin 64) Rg.LDPC_UNIT_EN.addr (0x1010000 : Word).toNat = none ∧ actsWide Rg.LDPC_UNIT_EN.addr (0x1010000 : Word).toNat = none :=
  ⟨(State.reset), by decide +kernel, by decide +kernel, by decide +kernel, by decide +kernel, by decide +kernel, by decide +kernel, by decide +kernel, by decide +kernel, by decide +kernel⟩

theorem witness_ExhaustedHandle :
    ∃ s : State, SendReady s.dev (0 : Fin 131072) 3 (cmd 1 0x79 fun q => { q with nsid := 1, cdw13 := 0x10003 }) ({ zoned with handles := [(1, { groups := [0], spill := false })], rows := [(1, 4)] }) ∧ (s.dev.zone (cmd 1 0x79 fun q => { q with nsid := 1, cdw13 := 0x10003 }).sqe.nsid.toNat (sqeZone (cmd 1 0x79 fun q => { q with nsid := 1, cdw13 := 0x10003 }).sqe)).st = .empty ∧ (cmd 1 0x79 fun q => { q with nsid := 1, cdw13 := 0x10003 }).sqe.handle ≠ 0 ∧ mapFind ({ zoned with handles := [(1, { groups := [0], spill := false })], rows := [(1, 4)] }).handles (cmd 1 0x79 fun q => { q with nsid := 1, cdw13 := 0x10003 }).sqe.handle = some ({ groups := [0], spill := false } : Handle) ∧ s.dev.activeOf (cmd 1 0x79 fun q => { q with nsid := 1, cdw13 := 0x10003 }).sqe.nsid.toNat < ({ zoned with handles := [(1, { groups := [0], spill := false })], rows := [(1, 4)] }).limit ∧ ((∀ g' ∈ ({ groups := [0], spill := false } : Handle).groups, s.dev.freeReserved (cmd 1 0x79 fun q => { q with nsid := 1, cdw13 := 0x10003 }).sqe.nsid.toNat ({ zoned with handles := [(1, { groups := [0], spill := false })], rows := [(1, 4)] }) g' = 0)) ∧ ((({ groups := [0], spill := false } : Handle).spill = true → s.dev.bindCheck (cmd 1 0x79 fun q => { q with nsid := 1, cdw13 := 0x10003 }).sqe.nsid.toNat ({ zoned with handles := [(1, { groups := [0], spill := false })], rows := [(1, 4)] }) (cmd 1 0x79 fun q => { q with nsid := 1, cdw13 := 0x10003 }).sqe.handle = s.dev.bindCheck (cmd 1 0x79 fun q => { q with nsid := 1, cdw13 := 0x10003 }).sqe.nsid.toNat ({ zoned with handles := [(1, { groups := [0], spill := false })], rows := [(1, 4)] }) 0)) ∧ ({ groups := [0], spill := false } : Handle).spill = false :=
  ⟨(holds ((cmd 1 0x79 fun q => { q with nsid := 1, cdw13 := 0x10003 })) (fun d => (id) (hasNs { zoned with handles := [(1, { groups := [0], spill := false })], rows := [(1, 4)] } d))), by unfold SendReady Taken; decide +kernel, by decide +kernel, by decide +kernel, by decide +kernel, by decide +kernel, by decide +kernel, by decide +kernel, by decide +kernel⟩

theorem witness_SidebandAnswers :
    (∃ s : State, s.dev.binding false = true) ∧
    (∃ s : State, s.dev.binding false = true) ∧
    (∃ s : State, s.dev.binding false = true) ∧
    (∃ s : State, s.dev.binding false = true) ∧
    (∃ s : State, s.dev.binding false = true) ∧
    (∃ s : State, Taken s.dev (0 : Fin 131072) true 0x1D (adm 0x1D 0 0)) ∧
    (∃ s : State, Taken s.dev (0 : Fin 131072) true 0x1E (adm 0x1E 0 0) ∧ s.dev.mute (adm 0x1E 0 0).fn = false) :=
  ⟨⟨(dev fun d => d.wr Fd.JNM_CTL_SMB_EN 1), by decide +kernel⟩,
   ⟨(dev fun d => d.wr Fd.JNM_CTL_SMB_EN 1), by decide +kernel⟩,
   ⟨(dev fun d => d.wr Fd.JNM_CTL_SMB_EN 1), by decide +kernel⟩,
   ⟨(dev fun d => d.wr Fd.JNM_CTL_SMB_EN 1), by decide +kernel⟩,
   ⟨(dev fun d => d.wr Fd.JNM_CTL_SMB_EN 1), by decide +kernel⟩,
   ⟨(holds (adm 0x1D 0 0) (id)), by unfold Taken; decide +kernel⟩,
   ⟨(holds (adm 0x1E 0 0) (id)), by unfold Taken; decide +kernel, by decide +kernel⟩⟩

theorem witness_PolicyCallsAct :
    (∃ s : State, s.dev.calls (0 : Fin 64) 1 = some (7 : Nat)) ∧
    (∃ s : State, s.dev.calls (0 : Fin 64) 2 = some (7 : Nat)) ∧
    (∃ s : State, s.dev.calls (0 : Fin 64) 5 = some (7 : Nat) ∧ s.dev.arg (0 : Fin 64) 0 < 96 ∧ s.dev.arg (0 : Fin 64) 1 < q4Blocks) ∧
    (∃ s : State, s.dev.calls (0 : Fin 64) 7 = some (7 : Nat)) :=
  ⟨⟨(dev fun d => { d with grv := { d.grv with gravers := [(0, { Graver.reset with st := .etch, machine := false, slot := some 7, x := [] ++ [(17, 1)] })], etch := [(7, { EtchSlot.fresh with graver := some 0, window := (dramBase, 4096) })] } }), by decide +kernel⟩,
   ⟨(dev fun d => { d with grv := { d.grv with gravers := [(0, { Graver.reset with st := .etch, machine := false, slot := some 7, x := [] ++ [(17, 2)] })], etch := [(7, { EtchSlot.fresh with graver := some 0, window := (dramBase, 4096) })] } }), by decide +kernel⟩,
   ⟨(dev fun d => { d with grv := { d.grv with gravers := [(0, { Graver.reset with st := .etch, machine := false, slot := some 7, x := [(10, 95), (11, 3349)] ++ [(17, 5)] })], etch := [(7, { EtchSlot.fresh with graver := some 0, window := (dramBase, 4096) })] } }), by decide +kernel, by decide +kernel, by decide +kernel⟩,
   ⟨(dev fun d => { d with grv := { d.grv with gravers := [(0, { Graver.reset with st := .etch, machine := false, slot := some 7, x := [] ++ [(17, 7)] })], etch := [(7, { EtchSlot.fresh with graver := some 0, window := (dramBase, 4096) })] } }), by decide +kernel⟩⟩


end Sys2Proof.Tests
end

/-! PROOFS. Writes of control space: offsets that hold no register (R9), and what a write stores in the fields of a plain register (R13). -/

namespace Sys2Proof.Machine

/-! ### An aligned access of control space (R8, R9) -/

/-- An aligned write in control space reaches the register block and is answered without an error (R8). -/
theorem exec_registerWrite_control {g : Fin 64} {a : BitVec 40} {v : Word} {cyc : BitVec 10} {s : State}
    (hc : regionOf s.dev.dram.mib a.toNat = .control) (ha : a.toNat % 4 = 0) :
    exec (.registerWrite g a v cyc) s =
      .next ((writeControl g a.toNat v.toNat (s.modDev fun d => d.atCycle cyc)).modDev (busAnswer 0 false)) := by
  change execRegisterWrite g a v cyc s = _
  simp [execRegisterWrite, hc, ha]

theorem readControl_hole {a : Nat} (hb : bankAt a = none) (hr : regAt a = none) (g : Nat) (d : Dev) : readControl g a d = (0, d) := by
  unfold readControl; rw [hb, hr]

theorem writeControl_hole {a : Nat} (hb : bankAt a = none) (hr : regAt a = none) (g v : Nat) (s : State) : writeControl g a v s = s := by
  unfold writeControl; rw [hb, hr]

theorem writeControl_register {a : Nat} {r : RegDef} (hb : bankAt a = none) (hr : regAt a = some r) (g v : Nat) (s : State) :
    writeControl g a v s = storeReg (chanOfAddr a) g (s.dev.copyOf (chanOfAddr a) g r) r v s := by
  unfold writeControl; rw [hb, hr]

/-- The answer of the fabric stands in no register. -/
theorem rdx_busAnswer (data : Nat) (err : Bool) (d : Dev) (n i : Nat) (f : Fld) : (busAnswer data err d).rdx n i f = d.rdx n i f := rfl

/-! ### Plain registers -/

/-- A write of a plain register outside the CHANn windows that sets no RSV bit stores its fields. -/
theorem storeReg_plain {n g i v : Nat} {r : RegDef} {s : State} (hw : winOf r.addr < 0x100) (hv : r.rsvSet v = false)
    (hf : s.dev.fixed n r.addr = none) (ha : Dev.acts g r.addr v = none) (hs : actsWide r.addr v = none) :
    storeReg n g i r v s = s.modDev (storeFields 0 i r v) := by
  have sealA : r.addr ≠ Rg.HATCH_SEAL_A.addr := fun h => absurd (h ▸ hw) (by decide)
  have sealB : r.addr ≠ Rg.HATCH_SEAL_B.addr := fun h => absurd (h ▸ hw) (by decide)
  have whole : (v &&& r.accMask fun _ => true) = v := by simpa [RegDef.rsvSet] using hv
  rw [storeReg, if_neg sealA, if_neg sealB, orRsvWide_plain hv, whole, putReg, hf]
  simp only [if_neg (Nat.not_le.2 hw), ha, hs]

/-- The clock moves no register that configuration is held fixed by. -/
@[simp] theorem Dev.fixed_atCycle (d : Dev) (c : BitVec 10) (n a : Nat) : (d.atCycle c).fixed n a = d.fixed n a := by
  unfold Dev.atCycle; split <;> rfl

@[simp] theorem Dev.copyOf_atCycle (d : Dev) (c : BitVec 10) (n g : Nat) (r : RegDef) : (d.atCycle c).copyOf n g r = d.copyOf n g r := by
  unfold Dev.atCycle; split <;> rfl

/-! ### What a write leaves in a field (R10, R13) -/

/-- What a field that held `old` holds after a write of `x` to it: RW takes legal values, W1C loses the bits written as 1, every other
code keeps what stands. -/
def FieldDef.after (f : FieldDef) (x old : Nat) : Nat :=
  match f.acc with
  | .rw => (match f.range with
    | some (lo, hi) => if lo ≤ x ∧ x ≤ hi then x else old
    | none => x)
  | .w1c => old - (old &&& x)
  | _ => old

/-- The fields lie in the 32 bits of their register and no two of them overlap. -/
@[reducible] def FieldsApart (fs : List FieldDef) : Prop :=
  (∀ f ∈ fs, f.lo ≤ f.hi ∧ f.hi < 32) ∧ fs.Pairwise fun f g => f.hi < g.lo ∨ g.hi < f.lo

/-- The fields of every register lie apart: a check of the tables of each of the 18 kinds of window (Table 1-7). -/
theorem windowRegs_fieldsApart (win : Nat) : ∀ r ∈ windowRegs win, FieldsApart r.fields := by
  unfold windowRegs
  iterate 18 refine iteP (P := fun rs : List RegDef => ∀ r ∈ rs, FieldsApart r.fields) (fun _ => by decide +kernel) fun _ => ?_
  exact fun _ h => absurd h List.not_mem_nil

theorem regAt_fieldsApart {a : Nat} {r : RegDef} (h : regAt a = some r) : FieldsApart r.fields :=
  windowRegs_fieldsApart _ r (List.mem_of_find?_eq_some h)

theorem bits_lt (w hi lo : Nat) : bits w hi lo < 2 ^ (hi - lo + 1) := Nat.mod_lt _ (by positivity)

/-- A store of a field leaves the word as it was or replaces the field. -/
theorem storeField_cases (v w : Nat) (f : FieldDef) :
    storeField v w f = w ∧ f.after (bits v f.hi f.lo) (bits w f.hi f.lo) = bits w f.hi f.lo ∨
    storeField v w f = setBits w f.hi f.lo (f.after (bits v f.hi f.lo) (bits w f.hi f.lo)) := by
  unfold storeField FieldDef.after
  cases f.acc with
  | rw =>
    cases f.range with
    | none => exact .inr rfl
    | some p =>
      by_cases h : p.1 ≤ bits v f.hi f.lo ∧ bits v f.hi f.lo ≤ p.2
      · right; simp [h]
      · left; simp [h]
  | w1c => exact .inr rfl
  | ro | w1s | wo | rc => exact .inl ⟨rfl, rfl⟩

theorem FieldDef.after_lt {f : FieldDef} {x old n : Nat} (hx : x < n) (ho : old < n) : f.after x old < n := by
  unfold FieldDef.after
  repeat' split
  all_goals omega

theorem bits_storeField_same (v w : Nat) (f : FieldDef) :
    bits (storeField v w f) f.hi f.lo = f.after (bits v f.hi f.lo) (bits w f.hi f.lo) := by
  rcases storeField_cases v w f with ⟨hs, ha⟩ | hs
  · rw [hs, ha]
  · rw [hs, bits_setBits, Nat.mod_eq_of_lt (FieldDef.after_lt (bits_lt ..) (bits_lt ..))]

theorem bits_storeField_other {v w : Nat} {f g : FieldDef} (hf : f.lo ≤ f.hi) (hg : g.lo ≤ g.hi) (h : f.hi < g.lo ∨ g.hi < f.lo) :
    bits (storeField v w g) f.hi f.lo = bits w f.hi f.lo := by
  rcases storeField_cases v w g with ⟨hs, -⟩ | hs
  · rw [hs]
  · rw [hs]
    rcases h with h | h
    · exact bits_setBits_below h hf
    · exact bits_setBits_above h hg

theorem storeField_lt {v w : Nat} {f : FieldDef} (hl : f.lo ≤ f.hi) (hh : f.hi < 32) (hw : w < 2 ^ 32) : storeField v w f < 2 ^ 32 := by
  rcases storeField_cases v w f with ⟨hs, -⟩ | hs
  · rwa [hs]
  · rw [hs]; exact setBits_lt hh hl hw

theorem storeField_foldl_lt {v w : Nat} {fs : List FieldDef} (h : ∀ f ∈ fs, f.lo ≤ f.hi ∧ f.hi < 32) (hw : w < 2 ^ 32) :
    fs.foldl (storeField v) w < 2 ^ 32 :=
  List.foldlRecOn (motive := (· < 2 ^ 32)) fs (storeField v) hw fun _ hb f hf => storeField_lt (h f hf).1 (h f hf).2 hb

/-- Stores of other fields leave a field as it was. -/
theorem bits_storeField_foldl_other {v w : Nat} {f : FieldDef} {fs : List FieldDef} (hf : f.lo ≤ f.hi)
    (h : ∀ g ∈ fs, g.lo ≤ g.hi ∧ (f.hi < g.lo ∨ g.hi < f.lo)) : bits (fs.foldl (storeField v) w) f.hi f.lo = bits w f.hi f.lo :=
  List.foldlRecOn (motive := fun z => bits z f.hi f.lo = bits w f.hi f.lo) fs (storeField v) rfl fun _ hb g hg => (bits_storeField_other hf (h g hg).1 (h g hg).2).trans hb

/-- A write of all fields leaves in each of them what the write leaves in that field alone. -/
theorem bits_storeField_foldl {v w : Nat} {fs : List FieldDef} (h : FieldsApart fs) {f : FieldDef} (hf : f ∈ fs) :
    bits (fs.foldl (storeField v) w) f.hi f.lo = f.after (bits v f.hi f.lo) (bits w f.hi f.lo) := by
  induction fs generalizing w with
  | nil => cases hf
  | cons g gs ih =>
    obtain ⟨inWord, apart⟩ := h
    obtain ⟨apartG, apartGs⟩ := List.pairwise_cons.1 apart
    have inWordGs : ∀ e ∈ gs, e.lo ≤ e.hi ∧ e.hi < 32 := fun e he => inWord e (List.mem_cons_of_mem _ he)
    rw [List.foldl_cons]
    rcases List.mem_cons.1 hf with rfl | hfs
    · rw [bits_storeField_foldl_other (inWord f hf).1 fun e he => ⟨(inWordGs e he).1, apartG e he⟩, bits_storeField_same]
    · rw [ih ⟨inWordGs, apartGs⟩ hfs, bits_storeField_other (inWordGs f hfs).1 (inWord g List.mem_cons_self).1 (apartG f hfs).symm]

/-- A field after a write of its register. -/
theorem rdx_storeFields {r : RegDef} (h : FieldsApart r.fields) {f : FieldDef} (hf : f ∈ r.fields) (n i v : Nat) (d : Dev) :
    (storeFields n i r v d).rdx n i ⟨r, f.hi, f.lo⟩ = f.after (bits v f.hi f.lo) (d.rdx n i ⟨r, f.hi, f.lo⟩) := by
  unfold storeFields Dev.rdx
  rw [Dev.regGet_regSet_same, Nat.mod_eq_of_lt (storeField_foldl_lt h.1 (d.regGet_lt r n i)), bits_storeField_foldl h hf]

/-! ### The obligations -/

/-- Settles O11: at an offset without a bank entry and without a register neither access touches the device, but for the clock and the
answer of a write. -/
theorem holesIgnored : Obligations.HolesIgnored := by
  intro g a v cyc s hc ha hb hr
  refine ⟨readControl_hole hb hr _ _, busAnswer 0 false (s.dev.atCycle cyc), ?_, rfl, rfl⟩
  rw [exec_registerWrite_control hc ha, writeControl_hole hb hr]
  rfl

/-- Settles O12: the write is a store of the fields, and fields that do not overlap are stored each on its own. -/
theorem fieldsTakeLegalValues : Obligations.FieldsTakeLegalValues := by
  intro g a v cyc s r hc ha hb hr hw hv hfix hact hwide
  refine ⟨busAnswer 0 false (storeFields 0 (s.dev.copyOf (chanOfAddr a.toNat) g r) r v.toNat (s.dev.atCycle cyc)), ?_, rfl, ?_⟩
  · have hfix' : (s.modDev fun d => d.atCycle cyc).dev.fixed (chanOfAddr a.toNat) r.addr = none := by simpa using hfix
    rw [exec_registerWrite_control hc ha, writeControl_register hb hr, storeReg_plain hw hv hfix' hact hwide, State.modDev_dev,
      Dev.copyOf_atCycle]
    rfl
  · intro f hf i x old
    calc _ = (storeFields 0 i r v.toNat (s.dev.atCycle cyc)).rdx 0 i ⟨r, f.hi, f.lo⟩ := rdx_busAnswer ..
      _ = f.after x ((s.dev.atCycle cyc).rdx 0 i ⟨r, f.hi, f.lo⟩) := rdx_storeFields (regAt_fieldsApart hr) hf ..
      _ = f.after x old := by rw [Dev.rdx_congr (Dev.atCycle_regs s.dev cyc)]

end Sys2Proof.Machine

/-! PROOFS. Bands and die groups (R18), and where the entries of a hatch bank lie (R30). -/

namespace Sys2Proof.Machine

/-! ### Bands and die groups (R18) -/

theorem bandOf_eq_iff (b c : Nat) : bandOf c = b ↔ 16 * b ≤ c ∧ c ≤ 16 * b + 15 := by
  unfold bandOf; omega

/-- A die group names one target and one band. -/
theorem groupOf_eq_iff {t : Nat} (ht : t < 32) (g c : Nat) : groupOf c t = g ↔ t = g % 32 ∧ bandOf c = g / 32 := by
  unfold groupOf bandOf; omega

/-- The members of a die group are the channels of its band, in their order. -/
theorem memberChan_eq_iff (g m c : Nat) :
    m < 16 ∧ memberChan g m = c ↔ bandOf c = g / 32 ∧ c = 16 * (g / 32) + m ∧ m = c - 16 * bandOf c := by
  unfold memberChan
  constructor
  · rintro ⟨hm, rfl⟩
    have band : bandOf (16 * (g / 32) + m) = g / 32 := by rw [bandOf_eq_iff]; omega
    exact ⟨band, rfl, by rw [band]; omega⟩
  · rintro ⟨band, hc, -⟩
    rw [bandOf_eq_iff] at band
    omega

/-- Settles O7: each clause is the inversion of one formula of R18, true of every channel. -/
theorem bandsAndGroups : Obligations.BandsAndGroups :=
  ⟨fun b c _ _ => bandOf_eq_iff b c, fun g c _ _ _ ht => groupOf_eq_iff ht g c, fun g m c _ _ => memberChan_eq_iff g m c⟩

/-! ### The addresses of bank entries (R30) -/

/-- The address of a half of entry `k` of a bank of channel `ch`. -/
def bankEntryAddr (ch : Nat) (bankB : Bool) (k : Nat) (high : Bool) : Nat :=
  0x201000000 + 0x10000 * ch + (if bankB then 0x4800 else 0x4000) + 8 * k + (if high then 4 else 0)

section
variable {ch k : Nat} (b hi : Bool)

theorem winOff_bankEntryAddr (hk : k < 256) :
    winOff (bankEntryAddr ch b k hi) = (if b then 0x4800 else 0x4000) + 8 * k + (if hi then 4 else 0) := by
  unfold winOff bankEntryAddr
  split <;> split <;> omega

theorem chanOfAddr_bankEntryAddr (hk : k < 256) : chanOfAddr (bankEntryAddr ch b k hi) = ch := by
  unfold chanOfAddr winOf bankEntryAddr
  split <;> split <;> split <;> omega

/-- The decoder of control space finds the entry at its address. -/
theorem bankAt_bankEntryAddr (hk : k < 256) : bankAt (bankEntryAddr ch b k hi) = some (ch, b, k, hi) := by
  have window : 0x201000000 ≤ bankEntryAddr ch b k hi := by unfold bankEntryAddr; omega
  unfold bankAt
  rw [winOff_bankEntryAddr b hi hk, chanOfAddr_bankEntryAddr b hi hk]
  cases b <;> cases hi <;> simp [window] <;> omega

theorem bankEntryAddr_aligned : bankEntryAddr ch b k hi % 4 = 0 := by
  unfold bankEntryAddr
  split <;> split <;> omega

/-- Every entry lies in the windows of the channels. -/
theorem regionOf_bankEntryAddr (hch : ch < 48) (hk : k < 256) (mib : Nat) : regionOf mib (bankEntryAddr ch b k hi) = .control := by
  have low : 0x201000000 ≤ bankEntryAddr ch b k hi := by unfold bankEntryAddr; omega
  have high : bankEntryAddr ch b k hi < 0x201300000 := by unfold bankEntryAddr; split <;> split <;> omega
  generalize bankEntryAddr ch b k hi = a at low high
  unfold regionOf
  simp only [Bool.and_eq_true, decide_eq_true_eq]
  iterate 6 rw [if_neg (by omega)]
  exact if_pos ⟨low, high⟩

end

/-! ### A write of half an entry -/

/-- The number `w` with its high or its low 32 bits replaced. -/
def setHalf (w : Nat) (high : Bool) (v : Nat) : Nat := if high then setBits w 63 32 v else setBits w 31 0 v

theorem setHalf_lt {w : Nat} (hw : w < 2 ^ 64) (hi : Bool) (v : Nat) : setHalf w hi v < 2 ^ 64 := by
  unfold setHalf setBits bits
  split <;> omega

theorem bits_setHalf_low {v : Nat} (hv : v < 2 ^ 32) (w : Nat) (hi : Bool) :
    bits (setHalf w hi v) 31 0 = if hi then bits w 31 0 else v := by
  cases hi with
  | true => exact bits_setBits_below (by decide) (by decide)
  | false => exact (bits_setBits ..).trans (Nat.mod_eq_of_lt hv)

theorem bits_setHalf_high {v : Nat} (hv : v < 2 ^ 32) (w : Nat) (hi : Bool) :
    bits (setHalf w hi v) 63 32 = if hi then v else bits w 63 32 := by
  cases hi with
  | true => exact (bits_setBits ..).trans (Nat.mod_eq_of_lt hv)
  | false => exact bits_setBits_above (by decide) (by decide)

section
variable (c : Chan) (b : Bool) (k : Nat) (hi : Bool) (v : Word)

theorem Chan.bankEntry_putEntry_same :
    ((c.putEntry b k hi v).bankEntry b k).toNat = setHalf (c.bankEntry b k).toNat hi v.toNat := by
  have stored : (c.putEntry b k hi v).bankEntry b k = BitVec.ofNat 64 (setHalf (c.bankEntry b k).toNat hi v.toNat) := by
    cases b <;> exact mapGet_set_same ..
  rw [stored, BitVec.toNat_ofNat, Nat.mod_eq_of_lt (setHalf_lt (c.bankEntry b k).isLt hi v.toNat)]

theorem Chan.bankEntry_putEntry_other {b' : Bool} {k' : Nat} (h : (b', k') ≠ (b, k)) :
    (c.putEntry b k hi v).bankEntry b' k' = c.bankEntry b' k' := by
  by_cases hb : b' = b
  · subst hb
    have hk : k' ≠ k := fun e => h (by rw [e])
    cases b' <;> exact mapGet_set_other _ _ _ _ hk
  · cases b <;> cases b'
    case false.true | true.false => rfl
    all_goals exact absurd rfl hb

end

/-! ### Accesses of a bank entry -/

theorem readControl_bankEntry {a n k : Nat} {b hi : Bool} (h : bankAt a = some (n, b, k, hi)) (g : Nat) (d : Dev) :
    readControl g a d = (if hi then bits ((d.chan n).bankEntry b k).toNat 63 57 * 2 ^ 25
      else bits ((d.chan n).bankEntry b k).toNat 31 0, d) := by
  unfold readControl; rw [h]

theorem writeControl_bankEntry {a n k : Nat} {b hi : Bool} (h : bankAt a = some (n, b, k, hi)) (g v : Nat) (s : State) :
    writeControl g a v s = s.modDev (hatchEntryStore n b k hi (BitVec.ofNat 32 v)) := by
  unfold writeControl; rw [h]

theorem hatchEntryStore_unlocked {n k : Nat} {b hi : Bool} {v : Word} {d : Dev} (h : (d.chan n).bankLocked b = false) :
    hatchEntryStore n b k hi v d = d.modChan n fun c => c.putEntry b k hi v := by
  simp [hatchEntryStore, h]

/-- The device after a register write of half an entry of an unlocked bank. -/
def Dev.entryWritten (d : Dev) (cyc : BitVec 10) (n : Nat) (b : Bool) (k : Nat) (hi : Bool) (v : Word) : Dev :=
  busAnswer 0 false ((d.atCycle cyc).modChan n fun c => c.putEntry b k hi v)

theorem Dev.chan_entryWritten (d : Dev) (cyc : BitVec 10) (n : Nat) (b : Bool) (k : Nat) (hi : Bool) (v : Word) :
    (d.entryWritten cyc n b k hi v).chan n = (d.chan n).putEntry b k hi v := by
  calc _ = ((d.atCycle cyc).modChan n fun c => c.putEntry b k hi v).chan n := rfl
    _ = ((d.atCycle cyc).chan n).putEntry b k hi v := Dev.chan_modChan_same ..
    _ = _ := by rw [Dev.chan_congr (Dev.atCycle_chans d cyc)]

theorem exec_registerWrite_bankEntry {g : Fin 64} {a : BitVec 40} {v : Word} {cyc : BitVec 10} {s : State} {n k : Nat} {b hi : Bool}
    (hc : regionOf s.dev.dram.mib a.toNat = .control) (ha : a.toNat % 4 = 0) (entry : bankAt a.toNat = some (n, b, k, hi))
    (unlocked : (s.dev.chan n).bankLocked b = false) :
    exec (.registerWrite g a v cyc) s = .next { s with dev := s.dev.entryWritten cyc n b k hi v } := by
  have unlockedNow : ((s.dev.atCycle cyc).chan n).bankLocked b = false := by rwa [Dev.chan_congr (Dev.atCycle_chans s.dev cyc)]
  rw [exec_registerWrite_control hc ha, writeControl_bankEntry entry, BitVec.ofNat_toNat, BitVec.setWidth_eq]
  simp only [State.modDev, hatchEntryStore_unlocked unlockedNow, Dev.entryWritten]

/-- Settles O10: the address decodes to the entry, an unlocked bank stores the half written, and the store reaches no other entry. -/
theorem bankEntriesLie : Obligations.BankEntriesLie := by
  intro g a v cyc s ch k b hi hch hk ha
  change a.toNat = bankEntryAddr ch b k hi at ha
  have control : regionOf s.dev.dram.mib a.toNat = .control := ha ▸ regionOf_bankEntryAddr b hi hch hk _
  have aligned : a.toNat % 4 = 0 := ha ▸ bankEntryAddr_aligned b hi
  have entry : bankAt a.toNat = some (ch, b, k, hi) := ha ▸ bankAt_bankEntryAddr b hi hk
  refine ⟨readControl_bankEntry entry _ _, fun unlocked => ⟨_, exec_registerWrite_bankEntry control aligned entry unlocked, rfl, ?_⟩⟩
  rw [Dev.chan_entryWritten, Chan.bankEntry_putEntry_same]
  exact ⟨bits_setHalf_low v.isLt _ hi, bits_setHalf_high v.isLt _ hi, fun b' k' other => Chan.bankEntry_putEntry_other _ _ _ _ _ other⟩

end Sys2Proof.Machine

/-! PROOFS. Bindings with an exhausted placement handle (R110, R111). -/

namespace Sys2Proof.Machine

/-! ### The row a binding finds (R110, R111) -/

section
variable {d : Dev} {nsid h : Nat} {ns : Ns} {hd : Handle}

/-- R110 takes only groups that hold a free reserved row. -/
theorem Dev.bestGroup_exhausted {gs : List Nat} (exhausted : ∀ g ∈ gs, d.freeReserved nsid ns g = 0) : d.bestGroup nsid ns gs = none := by
  have noneFree : (gs.filter fun g => decide (0 < d.freeReserved nsid ns g)) = [] :=
    List.filter_eq_nil_iff.2 fun g hg => by simp [exhausted g hg]
  simp [Dev.bestGroup, noneFree]

/-- Handle 0 names the groups of D, without SPILL (R109). -/
theorem Dev.pickRow_zero : d.pickRow nsid ns 0 = (d.bestGroup nsid ns ns.groups).bind fun g => (d.bestRow g).map fun r => (g, r) := by
  cases group : d.bestGroup nsid ns ns.groups <;> simp [Dev.pickRow, group]

/-- An exhausted handle finds the row of handle 0 with SPILL, and none without (R111). -/
theorem Dev.pickRow_exhausted (handle : h ≠ 0) (named : mapFind ns.handles h = some hd)
    (exhausted : ∀ g ∈ hd.groups, d.freeReserved nsid ns g = 0) :
    d.pickRow nsid ns h = if hd.spill then d.pickRow nsid ns 0 else none := by
  have noGroup := Dev.bestGroup_exhausted exhausted
  cases spill : hd.spill with
  | true =>
    rw [if_pos rfl, Dev.pickRow_zero]
    cases group : d.bestGroup nsid ns ns.groups <;> simp [Dev.pickRow, handle, named, noGroup, spill, group]
  | false => simp [Dev.pickRow, handle, named, noGroup, spill]

/-- Below the limit of active zones, a binding with a handle that is 0 or defined is refused for placement only (R109, R111, R113). -/
theorem Dev.bindCheck_of_defined (defined : h = 0 ∨ (mapFind ns.handles h).isSome) (room : d.activeOf nsid < ns.limit) :
    d.bindCheck nsid ns h = (d.pickRow nsid ns h).elim (.error (stVendor 0xC1)) .ok := by
  have known : (decide (h ≠ 0) && (mapFind ns.handles h).isNone) = false := by
    rcases defined with rfl | found
    · rfl
    · rw [Option.isNone_eq_false_iff.2 found, Bool.and_false]
  unfold Dev.bindCheck
  rw [known, if_neg Bool.false_ne_true, if_neg (Nat.not_lt.2 room)]
  cases d.pickRow nsid ns h <;> rfl

end

/-! ### Zone Open of an Empty zone (Table 4-2) -/

section
variable {k : Fin 131072} {s : State} {x : Slot} {ns : Ns}

/-- The device once the command in slot `k` is committed. -/
def Dev.commitSlot (d : Dev) (k : Nat) : Dev := d.modSlot k fun x => { x with committed := true }

theorem Dev.commitSlot_slot {d : Dev} {k : Nat} {x : Slot} (held : d.slot? k = some x) :
    (d.commitSlot k).slot? k = some { x with committed := true } := by
  simp [Dev.commitSlot, Dev.slot_modSlot_same, held]

theorem Dev.zone_finish (d : Dev) (k : Nat) (c : Cpl) (nsid z : Nat) : (finish k c d).zone nsid z = d.zone nsid z := zone_modSlot d k _ nsid z

theorem Dev.zone_bindRefused (d : Dev) (c : Cpl) (nsid z : Nat) : (bindRefused c d).zone nsid z = d.zone nsid z := by
  simp [bindRefused, Dev.zone]

theorem Dev.rd_finish (d : Dev) (k : Nat) (c : Cpl) (f : Fld) : (finish k c d).rd f = d.rd f := by
  simp [Dev.rd, Dev.rdx, Dev.regGet]

/-- A Send that nothing keeps waiting acts on its zone and ends. -/
theorem zoneSend_ready {d : Dev} {k zsa : Nat} (act : Nat → Ns → Nat → Nat → Bool → Dev → Except Cpl Dev)
    (ready : SendReady d k zsa x ns) :
    zoneSend zsa act k d =
      .ok (endSend k (act x.sqe.nsid.toNat ns (sqeZone x.sqe) x.sqe.handle false d) (d.commitSlot k)) := by
  obtain ⟨taken, action, attached, zoned, oneZone, inRange, aligned, noFence, notBusy, notBehind, notMarked, mayBind⟩ := ready
  rw [zoneSend, onSlot_taken taken]
  cases empty : (d.zone x.sqe.nsid.toNat (sqeZone x.sqe)).st == .empty with
  | true =>
    obtain ⟨noHold, room⟩ := mayBind (eq_of_beq empty)
    simp [action, attached, zoned, oneZone, inRange.not_ge, aligned, noFence, notBusy, notBehind, notMarked, noHold, room, Dev.commitSlot]
  | false =>
    simp [action, attached, zoned, oneZone, inRange.not_ge, aligned, noFence, notBusy, notBehind, notMarked, empty, Dev.commitSlot]

theorem exec_zoneOpen_empty (ready : SendReady s.dev k 3 x ns) (empty : (s.dev.zone x.sqe.nsid.toNat (sqeZone x.sqe)).st = .empty) :
    exec (.zoneOpen k) s = .next { s with
      dev := endSend k (openEmpty x.sqe.nsid.toNat (sqeZone x.sqe) x.sqe.handle ns .explOpen s.dev) (s.dev.commitSlot k) } := by
  change onDev s (zoneSend 3 _ k) = _
  simp [onDev, zoneSend_ready _ ready, sendOpen, empty]

/-- An Empty zone whose binding finds a row is bound to it and opened (R107). -/
theorem zoneOpen_binds (ready : SendReady s.dev k 3 x ns) (empty : (s.dev.zone x.sqe.nsid.toNat (sqeZone x.sqe)).st = .empty)
    {r : Nat × Nat} (found : s.dev.bindCheck x.sqe.nsid.toNat ns x.sqe.handle = .ok r) :
    ∃ d, exec (.zoneOpen k) s = .next { s with dev := d } ∧ Completes d k success ∧
      (d.zone x.sqe.nsid.toNat (sqeZone x.sqe)).st = .explOpen ∧ (d.zone x.sqe.nsid.toNat (sqeZone x.sqe)).row = some r := by
  refine ⟨_, exec_zoneOpen_empty ready empty, ?_⟩
  rw [openEmpty, found, endSend]
  refine ⟨?completes, ?bound⟩
  case completes =>
    obtain ⟨⟨held, -⟩, -⟩ := ready
    exact ((SlotsHeld.of_keeps (bindZone_keeps _ _ _ _ _ _) rfl).trans (syncZone_slots _ _ _)).completes held success
  case bound =>
    rw [Dev.zone_finish, zone_sync]
    exact bindZone_zone ..

/-- An Empty zone whose binding is refused stays Empty, and the command ends with the refusal (R111). -/
theorem zoneOpen_refused (ready : SendReady s.dev k 3 x ns) (empty : (s.dev.zone x.sqe.nsid.toNat (sqeZone x.sqe)).st = .empty)
    {c : Cpl} (refused : s.dev.bindCheck x.sqe.nsid.toNat ns x.sqe.handle = .error c) :
    ∃ d, exec (.zoneOpen k) s = .next { s with dev := d } ∧ Completes d k c ∧
      (d.zone x.sqe.nsid.toNat (sqeZone x.sqe)).st = .empty ∧
      (c = stVendor 0xC1 → d.rd Fd.ZONE_EVT_EXHAUSTED = 1) := by
  refine ⟨_, exec_zoneOpen_empty ready empty, ?_⟩
  rw [openEmpty, refused, endSend]
  refine ⟨?completes, ?stays, ?event⟩
  case completes =>
    obtain ⟨⟨held, -⟩, -⟩ := ready
    exact (SlotsHeld.of_keeps (bindRefused_keeps c _) rfl).completes (Dev.commitSlot_slot held) c
  case stays =>
    rw [Dev.zone_finish, Dev.zone_bindRefused, Dev.commitSlot, zone_modSlot, empty]
  case event =>
    rintro rfl
    rw [Dev.rd_finish]
    exact Dev.rd_wr_same (f := Fd.ZONE_EVT_EXHAUSTED) _ 1 (by decide) (by decide)

end

/-! ### The obligation -/

/-- Settles O14: an exhausted handle picks no group of its own, so its binding is that of handle 0 with SPILL and is refused without. -/
theorem exhaustedHandle : Obligations.ExhaustedHandle := by
  intro k s x ns hd ready empty handle named room exhausted
  have defined : (mapFind ns.handles x.sqe.handle).isSome := by rw [named]; rfl
  have check := Dev.bindCheck_of_defined (.inr defined) room
  rw [Dev.pickRow_exhausted handle named exhausted] at check
  have spills (spill : hd.spill = true) :
      s.dev.bindCheck x.sqe.nsid.toNat ns x.sqe.handle = s.dev.bindCheck x.sqe.nsid.toNat ns 0 := by
    rw [check, spill, if_pos rfl, Dev.bindCheck_of_defined (.inl rfl) room]
  refine ⟨spills, fun spill r found => ?_, fun spill => ?_⟩
  · obtain ⟨d, next, completes, -, row⟩ := zoneOpen_binds ready empty ((spills spill).trans found)
    exact ⟨d, next, completes, row⟩
  · rw [spill, if_neg Bool.false_ne_true] at check
    obtain ⟨d, next, completes, stays, event⟩ := zoneOpen_refused ready empty check
    exact ⟨d, next, completes, stays, event rfl⟩

end Sys2Proof.Machine

/-! PROOFS. The winner of a CAM search (R344). -/

namespace Sys2Proof.Machine

/-! ### Maps in rising order -/

/-- A sorted map has its numbers at or above its bound, strictly rising. -/
theorem mapSortedFrom_rises {α : Type} {m : SMap α} {a : Nat} (h : mapSortedFrom a m = true) :
    (∀ x ∈ m, a ≤ x.1) ∧ m.Pairwise fun x y => x.1 < y.1 := by
  induction m generalizing a with
  | nil => simp
  | cons e m ih =>
    simp only [mapSortedFrom, Bool.and_eq_true, decide_eq_true_eq] at h
    obtain ⟨bound, rest⟩ := h
    obtain ⟨above, rises⟩ := ih rest
    refine ⟨List.forall_mem_cons.2 ⟨bound, fun x hx => ?_⟩, List.pairwise_cons.2 ⟨above, rises⟩⟩
    exact bound.trans (Nat.le_of_succ_le (above x hx))

theorem mapWf_rises {α : Type} [DecidableEq α] {dflt : α} {m : SMap α} (h : mapWf dflt m = true) :
    m.Pairwise fun x y => x.1 < y.1 := by
  simp only [mapWf, Bool.and_eq_true] at h
  exact (mapSortedFrom_rises h.1).2

/-! ### What a winner is (R344) -/

/-- `h` is the winner among the entries of `l`: one of the highest priority, of the lowest index among those, MULTI where another has that
priority too. -/
structure CamHit.Wins (h : CamHit) (l : SMap CamEntry) : Prop where
  stands : ∃ e ∈ l, e.1 = h.index ∧ e.2.rank = h.pri ∧ e.2.poison = h.poison
  highest : ∀ x ∈ l, x.2.rank ≤ h.pri
  lowest : ∀ x ∈ l, x.2.rank = h.pri → h.index ≤ x.1
  multi : h.multi = true ↔ ∃ x ∈ l, x.2.rank = h.pri ∧ x.1 ≠ h.index

/-- The answer that R344 gives where the entries of `l` match. -/
def CamAnswer (l : SMap CamEntry) : Option CamHit → Prop
  | none => l = []
  | some h => h.Wins l

/-- The answer where the entry of index `i` is the only one of its priority. -/
def CamEntry.hitAt (e : CamEntry) (i : Nat) : CamHit := { index := i, pri := e.rank, multi := false, poison := e.poison }

/-! ### One more match

A match of a higher index than all before it takes the place of the winner only with a strictly higher priority. -/

section
variable {l : SMap CamEntry} {h : CamHit} {i : Nat} {e : CamEntry}

theorem camJoin_none (i : Nat) (e : CamEntry) : camJoin none i e = some (e.hitAt i) := rfl

theorem camJoin_higher (higher : h.pri < e.rank) : camJoin (some h) i e = some (e.hitAt i) := if_pos higher

theorem camJoin_tie (tie : h.pri = e.rank) : camJoin (some h) i e = some { h with multi := true } := by
  simp [camJoin, tie]

theorem camJoin_lower (lower : e.rank < h.pri) : camJoin (some h) i e = some h := by
  simp [camJoin, lower.not_gt, lower.ne']

/-- A match of a higher priority than all before it wins alone. -/
theorem CamEntry.hitAt_wins (higher : ∀ x ∈ l, x.2.rank < e.rank) : (e.hitAt i).Wins (l ++ [(i, e)]) where
  stands := ⟨(i, e), by simp, rfl, rfl, rfl⟩
  highest := List.forall_mem_append.2 ⟨fun x hx => (higher x hx).le, by simp [hitAt]⟩
  lowest := List.forall_mem_append.2 ⟨fun x hx same => absurd same (higher x hx).ne, by simp [hitAt]⟩
  multi := by
    refine iff_of_false Bool.false_ne_true ?_
    rintro ⟨x, hx, same, other⟩
    rcases List.mem_append.1 hx with hx | hx
    · exact (higher x hx).ne same
    · exact other (by rw [List.mem_singleton.1 hx]; rfl)

/-- A later match of the winner's priority leaves the winner and sets MULTI. -/
theorem CamHit.Wins.tie (wins : h.Wins l) (later : ∀ x ∈ l, x.1 < i) (tie : h.pri = e.rank) :
    { h with multi := true }.Wins (l ++ [(i, e)]) := by
  obtain ⟨w, hw, index, pri, poison⟩ := wins.stands
  have below : h.index < i := index ▸ later w hw
  exact {
    stands := ⟨w, List.mem_append_left _ hw, index, pri, poison⟩
    highest := List.forall_mem_append.2 ⟨wins.highest, by simp [tie]⟩
    lowest := List.forall_mem_append.2 ⟨wins.lowest, by simp [below.le]⟩
    multi := iff_of_true rfl ⟨(i, e), by simp, tie.symm, below.ne'⟩ }

/-- A match of a lower priority changes nothing. -/
theorem CamHit.Wins.lower (wins : h.Wins l) (lower : e.rank < h.pri) : h.Wins (l ++ [(i, e)]) := by
  obtain ⟨w, hw, same⟩ := wins.stands
  exact {
    stands := ⟨w, List.mem_append_left _ hw, same⟩
    highest := List.forall_mem_append.2 ⟨wins.highest, by simp [lower.le]⟩
    lowest := List.forall_mem_append.2 ⟨wins.lowest, by simp [lower.ne]⟩
    multi := by simpa [or_and_right, exists_or, lower.ne] using wins.multi }

theorem camJoin_answer {a : Option CamHit} (answer : CamAnswer l a) (later : ∀ x ∈ l, x.1 < i) :
    CamAnswer (l ++ [(i, e)]) (camJoin a i e) := by
  cases a with
  | none =>
    obtain rfl : l = [] := answer
    rw [camJoin_none]
    exact CamEntry.hitAt_wins (by simp)
  | some h =>
    have wins : h.Wins l := answer
    rcases lt_trichotomy h.pri e.rank with higher | tie | lower
    · rw [camJoin_higher higher]
      exact CamEntry.hitAt_wins fun x hx => (wins.highest x hx).trans_lt higher
    · rw [camJoin_tie tie]
      exact wins.tie later tie
    · rw [camJoin_lower lower]
      exact wins.lower lower

end

/-! ### The search -/

/-- Joining matches in rising order of index gives the answer among them. -/
theorem foldl_camJoin_answer {l : SMap CamEntry} (rises : l.Pairwise fun x y => x.1 < y.1) :
    CamAnswer l (l.foldl (fun a e => camJoin a e.1 e.2) none) := by
  induction l using List.reverseRecOn with
  | nil => rfl
  | append_singleton l e ih =>
    obtain ⟨before, -, later⟩ := List.pairwise_append.1 rises
    rw [List.foldl_concat]
    exact camJoin_answer (ih before) fun x hx => later x hx e (List.mem_singleton_self e)

/-- A search joins the entries that match it, in the segments that are in. -/
theorem camSearch_eq_foldl_matching (d : Dev) (key : CamKey) :
    d.camSearch key =
      (d.cam.entries.filter fun e => !d.segOff (e.1 / 4096) && e.2.hits key).foldl (fun a e => camJoin a e.1 e.2) none :=
  List.foldl_filter.symm

/-- Settles O9: every join keeps the answer of R344 among the matches joined so far, since they come at rising indexes. -/
theorem camWinner : Obligations.CamWinner := by
  intro d key canonical matching
  have answer : CamAnswer matching (d.camSearch key) :=
    camSearch_eq_foldl_matching d key ▸ foldl_camJoin_answer ((mapWf_rises canonical).filter _)
  split
  case h_1 found =>
    rw [found] at answer
    exact answer
  case h_2 h found =>
    rw [found] at answer
    obtain ⟨⟨e, he, index, pri, poison⟩, highest, lowest, multi⟩ := answer
    exact ⟨e, he, index, pri, poison, highest, lowest, multi⟩

end Sys2Proof.Machine

/-! PROOFS. Steps: the queue, memory's canonical form, and that every well-formed command completes (R27, log entry 1). -/

namespace Sys2Proof.Machine

/-! ### What every command keeps -/

/-- `t` has the queue of `s`, and memory in its canonical form where `s` has it so. -/
structure Kept (s t : State) : Prop where
  pending : t.pending = s.pending
  wf : Memory.wf s.mem = true → Memory.wf t.mem = true

theorem NextP.kept {m : Nat} {s : State} {o : Host.Outcome State Fault Refusal} (h : NextP (StateKeeps m s) o) : NextP (Kept s) o := by
  cases o with
  | next t => exact ⟨h.pending, h.wf⟩
  | fault r => trivial
  | refused r => trivial

/-- No command touches the commands behind it or takes memory out of its canonical form: the frame of each row says so. -/
theorem exec_kept (c : Instr) (s : State) : NextP (Kept s) (exec c s) := by
  cases c with
  | strokeBoundary => exact (execStrokeBoundary_keeps _ s).kept
  | sheetBoundary => exact (execSheetBoundary_keeps _ s).kept
  | strkLoad => exact (execStrkLoad_keeps _ _ s).kept
  | countLoRead => exact (execCountLoRead_keeps _ s).kept
  | strokePllUnlock => exact (execStrokePllUnlock_keeps _ s).kept
  | strokePllRelock => exact (execStrokePllRelock_keeps s).kept
  | hatchCtlArm => exact (execHatchCtlArm_keeps _ _ _ s).kept
  | hatchArmCheckDone => exact (execHatchArmCheckDone_keeps _ _ s).kept
  | hatchCtlDisarm => exact (execHatchCtlDisarm_keeps _ _ _ s).kept
  | hatchCtlStop => exact (execHatchCtlStop_keeps _ _ _ s).kept
  | hatchEntryWrite => exact (execHatchEntryWrite_keeps _ _ _ _ _ s).kept
  | hatchSealWrite => exact (execHatchSealWrite_keeps _ _ _ s).kept
  | registerWrite => exact (execRegisterWrite_keeps _ _ _ _ s).kept
  | graverLoadStore => exact (execGraverLoadStore_keeps _ _ _ _ s).kept
  | sqTailDoorbell => exact (execSqTailDoorbell_keeps _ _ _ s).kept
  | cqHeadDoorbell => exact (execCqHeadDoorbell_keeps _ _ _ s).kept
  | commandFetchIssue => exact (execCommandFetchIssue_keeps s).kept
  | commandFetch => exact (execCommandFetch_keeps _ _ _ _ s).kept
  | completionPost => exact (execCompletionPost_keeps _ _ s).kept
  | paceExpiry => exact (execPaceExpiry_keeps _ _ s).kept
  | createIoSq => exact (execCreateIoSq_keeps _ s).kept
  | createIoCq => exact (execCreateIoCq_keeps _ s).kept
  | deleteIoSq => exact (execDeleteIoSq_keeps _ s).kept
  | deleteIoCq => exact (execDeleteIoCq_keeps _ s).kept
  | getLogPage => exact (execGetLogPage_keeps _ s).kept
  | identify => exact (execIdentify_keeps _ s).kept
  | abortCmd => exact (execAbortCmd_keeps _ s).kept
  | setFeatures => exact (execSetFeatures_keeps _ s).kept
  | getFeatures => exact (execGetFeatures_keeps _ s).kept
  | setFeaturesNumberOfQueues => exact (execSetFeaturesNumberOfQueues_keeps _ s).kept
  | setFeaturesPowerManagement => exact (execSetFeaturesPowerManagement_keeps _ s).kept
  | setFeaturesApst => exact (execSetFeaturesApst_keeps _ _ s).kept
  | setFeaturesTimestamp => exact (execSetFeaturesTimestamp_keeps _ _ s).kept
  | getFeaturesTimestamp => exact (execGetFeaturesTimestamp_keeps _ s).kept
  | setFeaturesServiceState => exact (execSetFeaturesServiceState_keeps _ s).kept
  | setFeaturesAsyncEventConfig => exact (execSetFeaturesAsyncEventConfig_keeps _ s).kept
  | setFeaturesTempThreshold => exact (execSetFeaturesTempThreshold_keeps _ s).kept
  | asynchronousEventRequest => exact (execAsynchronousEventRequest_keeps _ s).kept
  | firmwareImageDownload => exact (execFirmwareImageDownload_keeps _ _ s).kept
  | firmwareCommitReplace => exact (execFirmwareCommitReplace_keeps _ s).kept
  | firmwareCommitReplaceActivate => exact (execFirmwareCommitReplaceActivate_keeps _ s).kept
  | firmwareCommitActivate => exact (execFirmwareCommitActivate_keeps _ s).kept
  | firmwareCommitActivateNow => exact (execFirmwareCommitActivateNow_keeps _ s).kept
  | deviceSelfTestShort => exact (execDeviceSelfTestShort_keeps _ s).kept
  | deviceSelfTestExtended => exact (execDeviceSelfTestExtended_keeps _ s).kept
  | deviceSelfTestAbort => exact (execDeviceSelfTestAbort_keeps _ s).kept
  | nvmeMiSend slot data => exact (execNvmeMiSend_keeps slot data s).kept
  | nvmeMiReceive => exact (execNvmeMiReceive_keeps _ s).kept
  | formatNvm => exact (execFormatNvm_keeps _ s).kept
  | sanitize => exact (execSanitize_keeps _ s).kept
  | jenamSend => exact (execJenamSend_keeps _ s).kept
  | jenamReceive => exact (execJenamReceive_keeps _ s).kept
  | flushCmd => exact (execFlushCmd_keeps _ s).kept
  | writeCmd => exact (execWriteCmd_keeps _ s).kept
  | readCmd => exact (execReadCmd_keeps _ s).kept
  | writeZeroes => exact (execWriteZeroes_keeps _ s).kept
  | verifyCmd => exact (execVerifyCmd_keeps _ s).kept
  | zoneAppend => exact (execZoneAppend_keeps _ s).kept
  | writeGrant => exact (execWriteGrant_keeps s).kept
  | writeCommit => exact (execWriteCommit_keeps _ s).kept
  | zoneOpen => exact (execZoneOpen_keeps _ s).kept
  | zoneClose => exact (execZoneClose_keeps _ s).kept
  | zoneFinish => exact (execZoneFinish_keeps _ s).kept
  | zoneReset => exact (execZoneReset_keeps _ s).kept
  | zoneOffline => exact (execZoneOffline_keeps _ s).kept
  | zoneReground => exact (execZoneReground_keeps _ s).kept
  | reportZones => exact (execReportZones_keeps _ s).kept
  | reportZonePlacement => exact (execReportZonePlacement_keeps _ s).kept
  | extendedReportZones => exact (execExtendedReportZones_keeps _ s).kept
  | refoldCmd => exact (execRefoldCmd_keeps _ _ s).kept
  | refoldStart => exact (execRefoldStart_keeps s).kept
  | refoldCommit => exact (execRefoldCommit_keeps _ _ s).kept
  | zoneReadOnlyEntry => exact (execZoneReadOnlyEntry_keeps _ _ s).kept
  | dataAgeExpiry => exact (execDataAgeExpiry_keeps _ _ s).kept
  | ccEnSet => exact (execCcEnSet_keeps _ _ _ s).kept
  | ccEnClear => exact (execCcEnClear_keeps _ s).kept
  | functionLevelReset => exact (execFunctionLevelReset_keeps _ s).kept
  | vfEnableClear => exact (execVfEnableClear_keeps _ s).kept
  | portLinkDown => exact (execPortLinkDown_keeps _ s).kept
  | portLinkUp => exact (execPortLinkUp_keeps _ _ _ _ s).kept
  | teardownDone => exact (execTeardownDone_keeps _ s).kept
  | shutdownNotification => exact (execShutdownNotification_keeps _ s).kept
  | ideIntegrityFailure => exact (execIdeIntegrityFailure_keeps _ _ s).kept
  | portReset => exact (execPortReset_keeps _ s).kept
  | perstRise => exact (execPerstRise_keeps _ s).kept
  | doeDiscovery => exact (execDoeDiscovery_keeps _ _ s).kept
  | spdmGetVersion => exact (execSpdmGetVersion_keeps _ s).kept
  | spdmGetCapabilities => exact (execSpdmGetCapabilities_keeps _ _ s).kept
  | spdmNegotiateAlgorithms => exact (execSpdmNegotiateAlgorithms_keeps _ _ _ _ _ s).kept
  | spdmGetDigests => exact (execSpdmGetDigests_keeps _ s).kept
  | spdmGetCertificate => exact (execSpdmGetCertificate_keeps _ _ _ _ s).kept
  | spdmChallenge => exact (execSpdmChallenge_keeps _ _ _ s).kept
  | spdmGetMeasurements => exact (execSpdmGetMeasurements_keeps _ _ _ _ s).kept
  | spdmKeyExchange => exact (execSpdmKeyExchange_keeps _ _ _ _ s).kept
  | spdmFinish => exact (execSpdmFinish_keeps _ _ _ s).kept
  | spdmHeartbeat => exact (execSpdmHeartbeat_keeps _ _ s).kept
  | spdmKeyUpdate => exact (execSpdmKeyUpdate_keeps _ _ _ s).kept
  | spdmEndSession => exact (execSpdmEndSession_keeps _ _ s).kept
  | fCfgTenantWrite => exact (execFCfgTenantWrite_keeps _ s).kept
  | clsCfgWrite => exact (execClsCfgWrite_keeps _ s).kept
  | descriptorRead => exact (execDescriptorRead_keeps _ _ _ _ _ s).kept
  | descriptorProgram => exact (execDescriptorProgram_keeps _ _ _ _ _ s).kept
  | descriptorErase => exact (execDescriptorErase_keeps _ _ _ _ _ s).kept
  | descriptorProofRead => exact (execDescriptorProofRead_keeps _ _ _ _ _ s).kept
  | descriptorStatus => exact (execDescriptorStatus_keeps _ _ _ _ _ s).kept
  | descriptorReset => exact (execDescriptorReset_keeps _ _ _ _ _ s).kept
  | decisionPoint => exact (execDecisionPoint_keeps _ _ _ s).kept
  | preemptionPoint => exact (execPreemptionPoint_keeps _ _ _ s).kept
  | readBurstEnd => exact (execReadBurstEnd_keeps _ _ _ s).kept
  | loadBurstEnd => exact (execLoadBurstEnd_keeps _ s).kept
  | pollFloorPass => exact (execPollFloorPass_keeps _ _ _ s).kept
  | operationTimeout => exact (execOperationTimeout_keeps _ _ _ s).kept
  | dieResetDone => exact (execDieResetDone_keeps _ _ _ s).kept
  | seqCqHeadWrite => exact (execSeqCqHeadWrite_keeps _ _ s).kept
  | blockStateWrite => exact (execBlockStateWrite_keeps _ _ s).kept
  | dieRetire => exact (execDieRetire_keeps _ _ s).kept
  | channelRetire => exact (execChannelRetire_keeps _ _ s).kept
  | diePresentWrite => exact (execDiePresentWrite_keeps _ _ s).kept
  | phyRetrain => exact (execPhyRetrain_keeps _ _ s).kept
  | trainingEnd => exact (execTrainingEnd_keeps _ s).kept
  | blockReplacement => exact (execBlockReplacement_keeps _ s).kept
  | replacementSwitch => exact (execReplacementSwitch_keeps _ s).kept
  | rowMigration => exact (execRowMigration_keeps _ s).kept
  | migrationSwitch => exact (execMigrationSwitch_keeps _ s).kept
  | rebuildSwitch => exact (execRebuildSwitch_keeps _ _ _ s).kept
  | metadataCheckpoint => exact (execMetadataCheckpoint_keeps s).kept
  | hardDecodeDone => exact (execHardDecodeDone_keeps _ _ _ s).kept
  | softDecodeStart => exact (execSoftDecodeStart_keeps s).kept
  | softDecodeDone => exact (execSoftDecodeDone_keeps _ _ s).kept
  | deepEscalation => exact (execDeepEscalation_keeps s).kept
  | deepDecodeDone => exact (execDeepDecodeDone_keeps _ _ s).kept
  | escHeadWrite => exact (execEscHeadWrite_keeps _ s).kept
  | parityOpen => exact (execParityOpen_keeps _ _ s).kept
  | parityAdd => exact (execParityAdd_keeps _ _ s).kept
  | parityClose => exact (execParityClose_keeps _ _ s).kept
  | parityRecon => exact (execParityRecon_keeps _ _ s).kept
  | parityDrop => exact (execParityDrop_keeps _ _ s).kept
  | parityCancel => exact (execParityCancel_keeps _ _ s).kept
  | parityContribution => exact (execParityContribution_keeps _ s).kept
  | parityJobDone => exact (execParityJobDone_keeps _ _ s).kept
  | parityJcqHeadWrite => exact (execParityJcqHeadWrite_keeps _ s).kept
  | sramPatrol => exact (execSramPatrol_keeps _ _ s).kept
  | stippleReadPost => exact (execStippleReadPost_keeps _ s).kept
  | stippleLate => exact (execStippleLate_keeps _ s).kept
  | stipUrgPost => exact (execStipUrgPost_keeps _ s).kept
  | selftestRun => exact (execSelftestRun_keeps _ s).kept
  | selftestDone => exact (execSelftestDone_keeps _ s).kept
  | checkerRetest => exact (execCheckerRetest_keeps _ _ _ s).kept
  | laneSectorStart => exact (execLaneSectorStart_keeps _ _ s).kept
  | laneSectorDone => exact (execLaneSectorDone_keeps _ _ s).kept
  | keyGenerate => exact (execKeyGenerate_keeps _ s).kept
  | keyLoad => exact (execKeyLoad_keeps _ s).kept
  | keyCmdPurge => exact (execKeyCmdPurge_keeps _ s).kept
  | ciphEpochWrite => exact (execCiphEpochWrite_keeps _ s).kept
  | nonceLoRead => exact (execNonceLoRead_keeps s).kept
  | cipherJobEncrypt => exact (execCipherJobEncrypt_keeps _ _ s).kept
  | cipherJobDecrypt => exact (execCipherJobDecrypt_keeps _ _ s).kept
  | cipherJobDone => exact (execCipherJobDone_keeps _ s).kept
  | dramTrain => exact (execDramTrain_keeps _ s).kept
  | dramTrained => exact (execDramTrained_keeps _ s).kept
  | dramInitDone => exact (execDramInitDone_keeps s).kept
  | subchannelRetire => exact (execSubchannelRetire_keeps _ s).kept
  | dramRequestAdmit => exact (execDramRequestAdmit_keeps _ _ _ _ s).kept
  | throttleHoldEnd => exact (execThrottleHoldEnd_keeps _ _ _ s).kept
  | dramReadReturn => exact (execDramReadReturn_keeps _ _ _ s).kept
  | dramPatrolRead => exact (execDramPatrolRead_keeps _ _ s).kept
  | dqsTracking => exact (execDqsTracking_keeps _ s).kept
  | cellAllocRequest => exact (execCellAllocRequest_keeps _ _ s).kept
  | cellAllocGrant => exact (execCellAllocGrant_keeps s).kept
  | cellFree => exact (execCellFree_keeps _ _ s).kept
  | cellSplice => exact (execCellSplice_keeps _ _ s).kept
  | cellPoolEnable => exact (execCellPoolEnable_keeps _ s).kept
  | cellPoolReady => exact (execCellPoolReady_keeps s).kept
  | linkLoRead => exact (execLinkLoRead_keeps s).kept
  | camSearchResult => exact (execCamSearchResult_keeps _ s).kept
  | camResearch => exact (execCamResearch_keeps _ s).kept
  | camInvalidate => exact (execCamInvalidate_keeps _ _ s).kept
  | camWrite => exact (execCamWrite_keeps _ _ s).kept
  | camValidate => exact (execCamValidate_keeps _ _ s).kept
  | camRead => exact (execCamRead_keeps _ _ s).kept
  | camSearch => exact (execCamSearch_keeps _ _ s).kept
  | qpush => exact (execQpush_keeps _ _ _ _ s).kept
  | qpop => exact (execQpop_keeps _ _ _ s).kept
  | qwait => exact (execQwait_keeps _ _ _ s).kept
  | qwaitg => exact (execQwaitg_keeps _ _ _ s).kept
  | qwaitResume => exact (execQwaitResume_keeps _ _ s).kept
  | watchdogExpiry => exact (execWatchdogExpiry_keeps _ s).kept
  | graverPet g v => exact (execGraverPet_keeps g v s).kept
  | grvCtlRun => exact (execGrvCtlRun_keeps _ s).kept
  | grvCtlHalt => exact (execGrvCtlHalt_keeps _ s).kept
  | grvCtlFail => exact (execGrvCtlFail_keeps _ s).kept
  | grvCtlMlock => exact (execGrvCtlMlock_keeps _ s).kept
  | graverMigrate => exact (execGraverMigrate_keeps _ s).kept
  | measurementExtend => exact (execMeasurementExtend_keeps _ s).kept
  | etchingStop => exact (execEtchingStop_keeps _ _ s).kept
  | evNext => exact (execEvNext_keeps _ s).kept
  | evNextReturn => exact (execEvNextReturn_keeps _ s).kept
  | statRead => exact (execStatRead_keeps _ s).kept
  | hatchPropose => exact (execHatchPropose_keeps _ s).kept
  | lendPri => exact (execLendPri_keeps _ s).kept
  | stipUrgent => exact (execStipUrgent_keeps _ s).kept
  | logAppend => exact (execLogAppend_keeps _ s).kept
  | etchExit => exact (execEtchExit_keeps _ s).kept
  | jenamPacketComplete => exact (execJenamPacketComplete_keeps _ _ s).kept
  | jenamReplySend => exact (execJenamReplySend_keeps _ s).kept
  | getInfo => exact (execGetInfo_keeps _ s).kept
  | getGeometry => exact (execGetGeometry_keeps _ s).kept
  | tenCreate => exact (execTenCreate_keeps _ s).kept
  | tenSet => exact (execTenSet_keeps _ s).kept
  | tenDelete => exact (execTenDelete_keeps _ s).kept
  | funcAssign => exact (execFuncAssign_keeps _ s).kept
  | classSet => exact (execClassSet_keeps _ s).kept
  | tenUsage => exact (execTenUsage_keeps _ s).kept
  | nsCreate => exact (execNsCreate_keeps _ s).kept
  | nsDelete => exact (execNsDelete_keeps _ s).kept
  | nsAttach => exact (execNsAttach_keeps _ s).kept
  | nsDetach => exact (execNsDetach_keeps _ s).kept
  | nsSet => exact (execNsSet_keeps _ s).kept
  | reserveSet => exact (execReserveSet_keeps _ s).kept
  | handleSet => exact (execHandleSet_keeps _ s).kept
  | hatchWrite => exact (execHatchWrite_keeps _ s).kept
  | hatchArm => exact (execHatchArm_keeps _ s).kept
  | hatchRead => exact (execHatchRead_keeps _ s).kept
  | arbSet => exact (execArbSet_keeps _ s).kept
  | keyExchange => exact (execKeyExchange_keeps _ s).kept
  | keyImport => exact (execKeyImport_keeps _ s).kept
  | keyPurge => exact (execKeyPurge_keeps _ s).kept
  | keySet => exact (execKeySet_keeps _ s).kept
  | dieHealth => exact (execDieHealth_keeps _ s).kept
  | bbRecords => exact (execBbRecords_keeps _ s).kept
  | rowInfo => exact (execRowInfo_keeps _ s).kept
  | threshGet => exact (execThreshGet_keeps _ s).kept
  | threshSet => exact (execThreshSet_keeps _ s).kept
  | retireUnit => exact (execRetireUnit_keeps _ s).kept
  | powerGet => exact (execPowerGet_keeps _ s).kept
  | powerSet => exact (execPowerSet_keeps _ s).kept
  | echo => exact (execEcho_keeps _ s).kept
  | regRead => exact (execRegRead_keeps _ s).kept
  | regWrite => exact (execRegWrite_keeps _ s).kept
  | selftestGet => exact (execSelftestGet_keeps _ s).kept
  | casTopology => exact (execCasTopology_keeps _ s).kept
  | fwInfo => exact (execFwInfo_keeps _ s).kept
  | ownerCertSet => exact (execOwnerCertSet_keeps _ s).kept
  | ownerCertClear => exact (execOwnerCertClear_keeps _ s).kept
  | etchStage => exact (execEtchStage_keeps _ s).kept
  | etchLoad => exact (execEtchLoad_keeps _ s).kept
  | etchUnload => exact (execEtchUnload_keeps _ s).kept
  | etchStatus => exact (execEtchStatus_keeps _ s).kept
  | setEndpointId => exact (execSetEndpointId_keeps _ _ _ _ _ s).kept
  | getEndpointId => exact (execGetEndpointId_keeps _ _ _ s).kept
  | getMctpVersionSupport => exact (execGetMctpVersionSupport_keeps _ _ _ _ s).kept
  | getMessageTypeSupport => exact (execGetMessageTypeSupport_keeps _ _ _ s).kept
  | getVendorDefinedMessageSupport => exact (execGetVendorDefinedMessageSupport_keeps _ _ _ _ s).kept
  | readNvmeMiDataStructure i3c src tag dw0 dw1 => exact (execReadNvmeMiDataStructure_keeps i3c src tag dw0 dw1 s).kept
  | nvmSubsystemHealthStatusPoll => exact (execNvmSubsystemHealthStatusPoll_keeps _ _ _ _ _ s).kept
  | controllerHealthStatusPoll => exact (execControllerHealthStatusPoll_keeps _ _ _ _ _ s).kept
  | configurationGet i3c src tag dw0 dw1 => exact (execConfigurationGet_keeps i3c src tag dw0 dw1 s).kept
  | configurationSet => exact (execConfigurationSet_keeps _ _ _ _ _ s).kept
  | vpdRead => exact (execVpdRead_keeps _ _ _ _ _ s).kept
  | psEntryAttempt => exact (execPsEntryAttempt_keeps _ s).kept
  | apstIdleExpiry => exact (execApstIdleExpiry_keeps _ s).kept
  | wakeSource => exact (execWakeSource_keeps _ _ s).kept
  | aonAlarm => exact (execAonAlarm_keeps s).kept
  | clk32kStop => exact (execClk32kStop_keeps s).kept
  | opTargetWrite => exact (execOpTargetWrite_keeps _ s).kept
  | voltageConfirmed => exact (execVoltageConfirmed_keeps s).kept
  | opTrimWrite => exact (execOpTrimWrite_keeps _ _ s).kept
  | pmbusTransactionFail => exact (execPmbusTransactionFail_keeps s).kept
  | thermalTrip => exact (execThermalTrip_keeps s).kept
  | thermNFall => exact (execThermNFall_keeps s).kept
  | powerOnReset => exact (execPowerOnReset_keeps s).kept
  | coldReset => exact (execColdReset_keeps _ s).kept
  | thrumluxStartup => exact (execThrumluxStartup_keeps _ s).kept
  | admissionTimeout => exact (execAdmissionTimeout_keeps s).kept
  | rstCtlCold => exact (execRstCtlCold_keeps _ s).kept
  | pwrfailFall => exact (execPwrfailFall_keeps s).kept
  | flushEnd => exact (execFlushEnd_keeps _ _ s).kept
  | railFault => exact (execRailFault_keeps s).kept
  | fatalStop => exact (execFatalStop_keeps s).kept
  | daleskFlitReceive => exact (execDaleskFlitReceive_keeps _ _ s).kept
  | daleskAckSend => exact (execDaleskAckSend_keeps _ s).kept
  | daleskReplayTimeout => exact (execDaleskReplayTimeout_keeps _ s).kept
  | daleskPortDown => exact (execDaleskPortDown_keeps _ s).kept
  | daleskLaneFail => exact (execDaleskLaneFail_keeps _ s).kept
  | daleskRequestReceive => exact (execDaleskRequestReceive_keeps _ _ _ s).kept
  | followerUnreachable => exact (execFollowerUnreachable_keeps _ s).kept
  | unreachableHoldExpiry => exact (execUnreachableHoldExpiry_keeps _ s).kept
  | followerReturn => exact (execFollowerReturn_keeps _ s).kept
  | pwrfailNRise => exact (execPwrfailNRise_keeps s).kept
  | dataTransferError => exact (execDataTransferError_keeps _ s).kept
  | writeDataArrival => exact (execWriteDataArrival_keeps _ _ _ s).kept
  | daleskPortUp => exact (execDaleskPortUp_keeps _ _ _ s).kept
  | vfEnableSet => exact (execVfEnableSet_keeps _ _ s).kept
  | ideKmRequest => exact (execIdeKmRequest_keeps _ _ _ _ s).kept
  | daleskResponseReceive => exact (execDaleskResponseReceive_keeps _ _ s).kept

/-! ### The step -/

/-- Settles O1: a step is a match on the queue. -/
theorem stepRunsFront : Obligations.StepRunsFront := fun _ _ => rfl

theorem step_of_empty {s : State} (empty : s.pending = []) : step s = .next s := by simp [step, empty]

theorem step_of_cons {s : State} {c : Instr} {rest : List Instr} (front : s.pending = c :: rest) :
    step s = exec c { s with pending := rest } := by simp [step, front]

/-- Settles O2: the match on the queue answers the state itself. -/
theorem emptyQueueIdles : Obligations.EmptyQueueIdles := fun _ => step_of_empty

/-- A step takes the front command off the queue and keeps what every command keeps. -/
theorem step_kept {s t : State} (next : step s = .next t) : Kept { s with pending := s.pending.tail } t := by
  cases queue : s.pending with
  | nil =>
    obtain rfl : s = t := Host.Outcome.next.inj ((step_of_empty queue).symm.trans next)
    exact ⟨queue, id⟩
  | cons c rest => exact (exec_kept c { s with pending := rest }).get ((step_of_cons queue).symm.trans next)

/-- Settles O3: no command adds to the queue that it is run with. -/
theorem stepsTakeOneCommand : Obligations.StepsTakeOneCommand := fun _ _ next => (step_kept next).pending

/-- Settles O6: every command keeps the canonical form of memory. -/
theorem stepsKeepMemoryCanonical : Obligations.StepsKeepMemoryCanonical := fun _ _ canonical next => (step_kept next).wf canonical

/-! ### After reset -/

/-- Settles O5: memory lists nothing. -/
theorem resetMemoryCanonical : Obligations.ResetMemoryCanonical := rfl

/-- Settles O4: the register file lists nothing, so that every register reads its reset word. -/
theorem resetLeaves : Obligations.ResetLeaves := by
  refine ⟨fun r n i => ?registers, rfl, rfl, fun f v named => ?fields, by decide +kernel, by decide +kernel⟩
  case registers => exact BitVec.toNat_ofNat _ 32
  case fields =>
    have each : ∀ p ∈ [(Fd.SYS_IDENT_VENDOR, 0x5658), (Fd.CAM_PART_ZONE_MAX, 0x1000), (Fd.CAM_RATE_B0, 16), (Fd.CAM_RATE_B3, 4)],
        State.reset.dev.rd p.1 = p.2 := by decide +kernel
    exact each (f, v) named

/-! ### Every command completes -/

/-- The command gives a next state. -/
def Goes (o : Host.Outcome State Fault Refusal) : Prop := ∃ t, o = .next t

section
variable {s : State}

theorem goes_next (t : State) : Goes (.next t) := ⟨t, rfl⟩

theorem goes_noEvent (what : String) (s : State) : Goes (noEvent what s) := ⟨s, rfl⟩

theorem goes_onDev (s : State) (f : Dev → Except String Dev) : Goes (onDev s f) := by
  unfold onDev
  cases f s.dev with
  | ok d => exact goes_next _
  | error e => exact goes_noEvent e s

theorem goes_onDevThen (s : State) (f : Dev → Except String Dev) (g : State → State) : Goes (onDevThen s f g) := by
  unfold onDevThen
  cases f s.dev with
  | ok d => exact goes_next _
  | error e => exact goes_noEvent e s

theorem goes_postOp (op ch : Nat) (g : Fin 64) (x : Desc) (dev : Bool) (cyc : BitVec 10) (s : State) : Goes (postOp op ch g x dev cyc s) := by
  unfold postOp
  exact goes_onDevThen s _ _

theorem goes_dieCtlStore (ch : Fin 48) (v : Nat) (s : State) : Goes (dieCtlStore ch v s) := goes_onDevThen s _ _

theorem goes_seqCtlStore (ch : Fin 48) (v : Nat) (s : State) : Goes (seqCtlStore ch v s) := goes_onDevThen s _ _

theorem goes_phyRateStore (ch : Fin 48) (v : Nat) (s : State) : Goes (phyRateStore ch v s) := goes_onDev s _

theorem goes_onMailbox (p : Nat) (f : Dev → Dev) (s : State) : Goes (onMailbox p f s) := goes_onDev s _

theorem goes_parityRow (op : Nat) (g : Fin 64) (job : Desc) (s : State) : Goes (parityRow op g job s) := goes_onDev s _

theorem goes_camOp (f : Nat → Nat → Dev → Dev) (op : Nat) (g : Fin 64) (v : Word) (s : State) : Goes (camOp f op g v s) := goes_onDev s _

/-- A command that changes the whole state where its effect is due. -/
theorem goes_match_except (r : Except String State) (f : State → State) (s : State) :
    Goes (match r with | .ok t => .next (f t) | .error e => noEvent e s) := by
  cases r with
  | ok t => exact goes_next _
  | error e => exact goes_noEvent e s

theorem goes_ite {c : Prop} [Decidable c] {x y : Host.Outcome State Fault Refusal} (hx : Goes x) (hy : Goes y) : Goes (if c then x else y) :=
  iteP (P := Goes) (fun _ => hx) fun _ => hy

theorem goes_ite_pos {c : Prop} [Decidable c] {x y : Host.Outcome State Fault Refusal} (hc : c) (hx : Goes x) : Goes (if c then x else y) :=
  (if_pos hc).symm ▸ hx

theorem goes_jenamRow (op buf : Nat) (f : List Byte → State → Nat × List Byte × State) (s : State) : Goes (jenamRow op buf f s) := by
  unfold jenamRow
  cases s.dev.jenamTurn with
  | none => exact goes_noEvent _ s
  | some b => exact goes_ite (goes_next _) (goes_noEvent _ s)

theorem goes_jenamOrdered (op buf : Nat) (f : List Byte → State → Nat × List Byte × State) (s : State) : Goes (jenamOrdered op buf f s) :=
  goes_ite (goes_noEvent _ s) (goes_jenamRow op buf f s)

theorem goes_callRow (g n : Nat) (f : Nat → State → State) (s : State) : Goes (callRow g n f s) := by
  unfold callRow
  cases s.dev.calls g n with
  | none => exact goes_noEvent _ s
  | some e => exact goes_next _

theorem goes_onBinding (i3c : Bool) (src tag kind : Nat) (f : Dev → List Byte × Dev) (s : State) : Goes (onBinding i3c src tag kind f s) :=
  goes_ite (goes_next _) (goes_next s)

theorem goes_miRow (i3c : Bool) (src tag : Byte) (f : Dev → MiReply × Dev) (s : State) : Goes (miRow i3c src tag f s) :=
  goes_onBinding i3c _ _ _ _ s

theorem goes_grvCtlStore (v : Nat) (s : State) : Goes (grvCtlStore v s) := goes_next _

theorem goes_registerWrite (g : Fin 64) (a : BitVec 40) (v : Word) (cyc : BitVec 10) (s : State) : Goes (execRegisterWrite g a v cyc s) := by
  unfold execRegisterWrite
  dsimp only
  split
  · exact goes_ite (goes_next _) (goes_next _)
  · exact goes_next _
  · exact goes_next _
  · exact goes_noEvent _ s

theorem goes_watchdogExpiry (g : Fin 64) (s : State) : Goes (execWatchdogExpiry g s) := by
  refine goes_ite (goes_noEvent _ s) ?_
  split
  · exact goes_next _
  · exact goes_next _
  · exact goes_noEvent _ s

theorem goes_sramPatrol (site : SramSite) (found : CopyState) (s : State) : Goes (execSramPatrol site found s) := by
  cases found with
  | good | corrected | bad => exact goes_next _

theorem goes_coldReset (o : ResetObs) (s : State) : Goes (execColdReset o s) := by
  unfold execColdReset
  split
  · exact goes_noEvent _ s
  · exact goes_ite (goes_next _) (goes_next _)

theorem goes_jenamPacketComplete (src : JenamSrc) (packet : List Byte) (s : State) : Goes (execJenamPacketComplete src packet s) := by
  cases src with
  | send k =>
    dsimp only [execJenamPacketComplete]
    split
    · exact goes_ite (goes_next _) (goes_noEvent _ s)
    · exact goes_noEvent _ s
  | mctp i3c eid tag => exact goes_ite (goes_next _) (goes_noEvent _ s)

theorem goes_evNextReturn (g : Fin 64) (s : State) : Goes (execEvNextReturn g s) := by
  unfold execEvNextReturn
  split
  · exact goes_match_except _ id s
  · exact goes_noEvent _ s

theorem goes_softDecodeDone (dec : Fin 8) (r : DecodeResult) (s : State) : Goes (execSoftDecodeDone dec r s) := by
  unfold execSoftDecodeDone
  exact goes_onDevThen s _ _

theorem goes_deepEscalation (s : State) : Goes (execDeepEscalation s) := by
  unfold execDeepEscalation
  exact goes_onDevThen s _ _

theorem goes_daleskRequest (pos id : Nat) (body : DlkRequest) (s : State) : Goes (daleskRequest pos id body s) := by
  refine goes_ite (goes_noEvent _ s) ?_
  split
  · exact goes_next _
  · exact goes_ite (goes_next s) (goes_next _)

theorem goes_daleskResponse (pos : Nat) (body : DlkResponse) (s : State) : Goes (daleskResponse pos body s) := by
  cases body with
  | acked id => dsimp only [daleskResponse]; split <;> exact goes_next _
  | sector id k idx ch owned x =>
    dsimp only [daleskResponse]
    split
    · exact goes_ite (goes_next _) (goes_noEvent _ s)
    · exact goes_next _
  | lost id k idx =>
    dsimp only [daleskResponse]
    split
    · exact goes_ite (goes_next _) (goes_noEvent _ s)
    · exact goes_next _
  | jenam id packet => exact goes_ite (goes_next _) (goes_next s)
  | live ready => exact goes_next _
  | hold units => exact goes_ite (goes_next _) (goes_noEvent _ s)

end

/-- Every command but an ill-formed APST table gives a next state: a row that finds nothing to act on leaves the state (log entry 2). -/
theorem exec_goes {c : Instr} (s : State) (wellFormed : c.wellFormed = true) : Goes (exec c s) := by
  unfold exec
  cases c with
  | setFeaturesApst slot table =>
    have length : table.length = 32 := of_decide_eq_true wellFormed
    exact goes_ite_pos length (goes_onDev s _)
  | readCmd | verifyCmd | decisionPoint | preemptionPoint | readBurstEnd | loadBurstEnd | pollFloorPass | operationTimeout | dieResetDone
    | seqCqHeadWrite | blockStateWrite | hardDecodeDone | deepDecodeDone | escHeadWrite | parityJobDone | parityJcqHeadWrite | camSearchResult => exact goes_onDevThen _ _ _
  | getInfo | getGeometry | tenCreate | tenSet | tenDelete | funcAssign | classSet | tenUsage | nsCreate | nsAttach | nsSet | reserveSet | handleSet
    | hatchWrite | hatchArm | hatchRead | arbSet | keyExchange | keyImport | keyPurge | keySet | dieHealth | bbRecords | rowInfo | threshGet
    | threshSet | retireUnit | powerGet | powerSet | echo | regRead | regWrite | selftestGet | casTopology | fwInfo | ownerCertSet | ownerCertClear
    | etchStage | etchLoad | etchUnload | etchStatus => exact goes_jenamRow _ _ _ s
  | nsDelete | nsDetach => exact goes_jenamOrdered _ _ _ s
  | evNext | statRead | hatchPropose | lendPri | stipUrgent | logAppend | etchExit => exact goes_callRow _ _ _ s
  | readNvmeMiDataStructure | nvmSubsystemHealthStatusPoll | controllerHealthStatusPoll | configurationGet | configurationSet | vpdRead => exact goes_miRow _ _ _ _ s
  | descriptorRead | descriptorProgram | descriptorErase | descriptorProofRead | descriptorStatus | descriptorReset => exact goes_postOp _ _ _ _ _ _ s
  | dieRetire | diePresentWrite => exact goes_dieCtlStore _ _ s
  | channelRetire => exact goes_seqCtlStore _ _ s
  | phyRetrain => exact goes_phyRateStore _ _ s
  | doeDiscovery | spdmGetVersion | spdmGetCapabilities | spdmNegotiateAlgorithms | spdmGetDigests | spdmGetCertificate | spdmChallenge
    | spdmGetMeasurements | spdmKeyExchange | spdmFinish | spdmHeartbeat | spdmKeyUpdate | spdmEndSession | ideKmRequest => exact goes_onMailbox _ _ s
  | parityOpen | parityAdd | parityClose | parityRecon | parityDrop | parityCancel => exact goes_parityRow _ _ _ s
  | camInvalidate | camWrite | camValidate | camRead | camSearch => exact goes_camOp _ _ _ _ s
  | setEndpointId | getEndpointId | getMctpVersionSupport | getMessageTypeSupport | getVendorDefinedMessageSupport => exact goes_onBinding _ _ _ _ _ s
  | grvCtlRun | grvCtlHalt | grvCtlFail | grvCtlMlock => exact goes_grvCtlStore _ s
  | keyGenerate | keyLoad | jenamReplySend | powerOnReset => exact goes_next _
  | softDecodeDone dec r => exact goes_softDecodeDone dec r s
  | deepEscalation => exact goes_deepEscalation s
  | strokeBoundary | sheetBoundary | graverLoadStore | selftestDone | checkerRetest | dramInitDone | etchingStop | aonAlarm | thrumluxStartup
    | followerUnreachable => exact goes_ite (goes_next _) (goes_noEvent _ s)
  | wakeSource | admissionTimeout => exact goes_ite (goes_noEvent _ s) (goes_next _)
  | registerWrite g a v cyc => exact goes_registerWrite g a v cyc s
  | watchdogExpiry g => exact goes_watchdogExpiry g s
  | sramPatrol site found => exact goes_sramPatrol site found s
  | coldReset o => exact goes_coldReset o s
  | jenamPacketComplete src packet => exact goes_jenamPacketComplete src packet s
  | stippleReadPost ch => exact goes_match_except _ (afterChan ch) s
  | cipherJobDone lane => exact goes_match_except _ id s
  | evNextReturn g => exact goes_evNextReturn g s
  | daleskRequestReceive => exact goes_daleskRequest _ _ _ s
  | daleskResponseReceive => exact goes_ite (goes_daleskResponse _ _ s) (goes_noEvent _ s)
  | _ => exact goes_onDev s _

/-- Settles O50: a command gives a next state, which has the queue it was run with. -/
theorem everyCommandCompletes : Obligations.EveryCommandCompletes := by
  refine ⟨fun c s wellFormed => ?_, fun _ _ _ short => if_neg short⟩
  obtain ⟨t, next⟩ := exec_goes s wellFormed
  exact ⟨t, next, ((exec_kept c s).get next).pending⟩

end Sys2Proof.Machine

/-! PROOFS. Frames of the command, function, link and SPDM rows; the entries of the CAM; bus errors of writes. -/

namespace Sys2Proof.Machine

/-! ### Frames -/

/-- A mask names at most these parts, and these registers. -/
def maskFits (m : Nat) (ps : List Part) (rs : List RegDef) : Bool := partsIn m ps && decide (m / 2 ^ 24 = regBits rs)

/-- A row within its mask leaves what the mask leaves out. -/
theorem frame_of_next {m : Nat} {ps : List Part} {rs : List RegDef} {s u : State} {o : Host.Outcome State Fault Refusal}
    (keeps : NextP (StateKeeps m s) o) (fits : maskFits m ps rs = true) (next : o = .next u) : Frame ps rs s u := by
  simp only [maskFits, Bool.and_eq_true, decide_eq_true_eq] at fits
  exact frame_of_keeps (keeps.get next) fits.1 fits.2

/-- Settles O52: the mask of each row fits the parts and registers named for it. -/
theorem hostRowsLeave : Obligations.HostRowsLeave :=
    ⟨fun f q v s _ => frame_of_next (execSqTailDoorbell_keeps f q v s) (by decide +kernel),
    fun f q v s _ => frame_of_next (execCqHeadDoorbell_keeps f q v s) (by decide +kernel),
    fun s _ => frame_of_next (execCommandFetchIssue_keeps s) (by decide +kernel),
    fun f q idx sqe s _ => frame_of_next (execCommandFetch_keeps f q idx sqe s) (by decide +kernel),
    fun slot cyc s _ => frame_of_next (execCompletionPost_keeps slot cyc s) (by decide +kernel),
    fun slot cyc s _ => frame_of_next (execPaceExpiry_keeps slot cyc s) (by decide +kernel),
    fun slot s _ => frame_of_next (execCreateIoSq_keeps slot s) (by decide +kernel),
    fun slot s _ => frame_of_next (execCreateIoCq_keeps slot s) (by decide +kernel),
    fun slot s _ => frame_of_next (execDeleteIoSq_keeps slot s) (by decide +kernel),
    fun slot s _ => frame_of_next (execDeleteIoCq_keeps slot s) (by decide +kernel),
    fun slot s _ => frame_of_next (execGetLogPage_keeps slot s) (by decide +kernel),
    fun slot s _ => frame_of_next (execIdentify_keeps slot s) (by decide +kernel),
    fun slot s _ => frame_of_next (execAbortCmd_keeps slot s) (by decide +kernel),
    fun slot s _ => frame_of_next (execSetFeatures_keeps slot s) (by decide +kernel),
    fun slot s _ => frame_of_next (execGetFeatures_keeps slot s) (by decide +kernel),
    fun slot s _ => frame_of_next (execSetFeaturesNumberOfQueues_keeps slot s) (by decide +kernel),
    fun slot s _ => frame_of_next (execSetFeaturesPowerManagement_keeps slot s) (by decide +kernel),
    fun slot table s _ => frame_of_next (execSetFeaturesApst_keeps slot table s) (by decide +kernel),
    fun slot ts s _ => frame_of_next (execSetFeaturesTimestamp_keeps slot ts s) (by decide +kernel),
    fun slot s _ => frame_of_next (execGetFeaturesTimestamp_keeps slot s) (by decide +kernel),
    fun slot s _ => frame_of_next (execSetFeaturesServiceState_keeps slot s) (by decide +kernel),
    fun slot s _ => frame_of_next (execSetFeaturesAsyncEventConfig_keeps slot s) (by decide +kernel),
    fun slot s _ => frame_of_next (execSetFeaturesTempThreshold_keeps slot s) (by decide +kernel),
    fun slot s _ => frame_of_next (execAsynchronousEventRequest_keeps slot s) (by decide +kernel),
    fun slot data s _ => frame_of_next (execFirmwareImageDownload_keeps slot data s) (by decide +kernel),
    fun slot s _ => frame_of_next (execFirmwareCommitReplace_keeps slot s) (by decide +kernel),
    fun slot s _ => frame_of_next (execFirmwareCommitReplaceActivate_keeps slot s) (by decide +kernel),
    fun slot s _ => frame_of_next (execFirmwareCommitActivate_keeps slot s) (by decide +kernel),
    fun slot s _ => frame_of_next (execFirmwareCommitActivateNow_keeps slot s) (by decide +kernel),
    fun slot s _ => frame_of_next (execDeviceSelfTestShort_keeps slot s) (by decide +kernel),
    fun slot s _ => frame_of_next (execDeviceSelfTestExtended_keeps slot s) (by decide +kernel),
    fun slot s _ => frame_of_next (execDeviceSelfTestAbort_keeps slot s) (by decide +kernel),
    fun slot s _ => frame_of_next (execFormatNvm_keeps slot s) (by decide +kernel),
    fun slot s _ => frame_of_next (execSanitize_keeps slot s) (by decide +kernel)⟩

/-- Settles O54: the mask of each row fits the parts and registers named for it. -/
theorem functionRowsLeave : Obligations.FunctionRowsLeave :=
    ⟨fun f asqs acqs s _ => frame_of_next (execCcEnSet_keeps f asqs acqs s) (by decide +kernel),
    fun f s _ => frame_of_next (execCcEnClear_keeps f s) (by decide +kernel),
    fun f s _ => frame_of_next (execFunctionLevelReset_keeps f s) (by decide +kernel),
    fun port s _ => frame_of_next (execVfEnableClear_keeps port s) (by decide +kernel),
    fun port s _ => frame_of_next (execPortLinkDown_keeps port s) (by decide +kernel),
    fun port flit rate width s _ => frame_of_next (execPortLinkUp_keeps port flit rate width s) (by decide +kernel),
    fun f s _ => frame_of_next (execTeardownDone_keeps f s) (by decide +kernel),
    fun f s _ => frame_of_next (execShutdownNotification_keeps f s) (by decide +kernel),
    fun port stream s _ => frame_of_next (execIdeIntegrityFailure_keeps port stream s) (by decide +kernel),
    fun port s _ => frame_of_next (execPortReset_keeps port s) (by decide +kernel),
    fun port s _ => frame_of_next (execPerstRise_keeps port s) (by decide +kernel),
    fun port index s _ => frame_of_next (execDoeDiscovery_keeps port index s) (by decide +kernel),
    fun port s _ => frame_of_next (execSpdmGetVersion_keeps port s) (by decide +kernel),
    fun port version s _ => frame_of_next (execSpdmGetCapabilities_keeps port version s) (by decide +kernel),
    fun port sig hash dhe aead s _ => frame_of_next (execSpdmNegotiateAlgorithms_keeps port sig hash dhe aead s) (by decide +kernel),
    fun port s _ => frame_of_next (execSpdmGetDigests_keeps port s) (by decide +kernel),
    fun port cert off len s _ => frame_of_next (execSpdmGetCertificate_keeps port cert off len s) (by decide +kernel),
    fun port cert nonce s _ => frame_of_next (execSpdmChallenge_keeps port cert nonce s) (by decide +kernel),
    fun port index sign nonce s _ => frame_of_next (execSpdmGetMeasurements_keeps port index sign nonce s) (by decide +kernel),
    fun port cert nonce pub s _ => frame_of_next (execSpdmKeyExchange_keeps port cert nonce pub s) (by decide +kernel),
    fun port session mac s _ => frame_of_next (execSpdmFinish_keeps port session mac s) (by decide +kernel),
    fun port session s _ => frame_of_next (execSpdmHeartbeat_keeps port session s) (by decide +kernel),
    fun port session op s _ => frame_of_next (execSpdmKeyUpdate_keeps port session op s) (by decide +kernel),
    fun port session s _ => frame_of_next (execSpdmEndSession_keeps port session s) (by decide +kernel),
    fun v s _ => frame_of_next (execFCfgTenantWrite_keeps v s) (by decide +kernel),
    fun v s _ => frame_of_next (execClsCfgWrite_keeps v s) (by decide +kernel),
    fun port n s _ => frame_of_next (execVfEnableSet_keeps port n s) (by decide +kernel),
    fun port session stream go s _ => frame_of_next (execIdeKmRequest_keeps port session stream go s) (by decide +kernel)⟩

/-! ### The entries of the CAM -/

/-- Settles O8: a store in a sparse map keeps its form and reaches one number. -/
theorem camEntriesRise : Obligations.CamEntriesRise :=
  fun c i e canonical => ⟨mapWf_set i e canonical, entry_setEntry_same c i e, fun _ other => mapGet_set_other _ _ _ e other⟩

/-! ### Bus errors of writes (R8) -/

/-- Settles O13: each of the three cases answers at once, before the clock moves. -/
theorem badAddressesErr : Obligations.BadAddressesErr := by
  intro g a v cyc s bad
  change execRegisterWrite g a v cyc s = _
  rcases bad with ⟨control, misaligned⟩ | unmapped | bootRom
  · simp [execRegisterWrite, control, misaligned]
  · simp [execRegisterWrite, unmapped]
  · simp [execRegisterWrite, bootRom]

end Sys2Proof.Machine

/-! PROOFS. Hatch requests (R53 to R58, R493). -/

namespace Sys2Proof.Machine

/-! ### One-bit fields of a word that is written -/

/-- The low bits of a word written as 1 leave its high bits. -/
theorem bits_high_setBits {w hi lo i v : Nat} (low : i < lo) : bits (setBits w i i v) hi lo = bits w hi lo :=
  bits_setBits_above low (le_refl i)

/-- A one-bit field written with a bit of a word reads as that bit. -/
theorem Dev.isc_wrc_bit {d : Dev} {n w i : Nat} {f : Fld} (oneBit : f.hi = f.lo ∧ f.hi < 32) :
    (d.wrc n f (bits w i i)).isc n f = bit w i := by
  obtain ⟨same, inWord⟩ := oneBit
  rw [Dev.isc, Dev.rdc_wrc_same _ _ _ inWord same.ge, same, bits_self]
  cases bit w i <;> simp [b2n]

section
variable {d : Dev} {n v : Nat}

/-! ### A write of HATCH_CTL -/

/-- The RW fields of a write of HATCH_CTL (R493). -/
def Dev.hatchCtlFields (d : Dev) (n v : Nat) : Dev :=
  (((d.wrc n Fd.HATCH_CTL_MARK_IE (bits v 6 6)).wrc n Fd.HATCH_CTL_SW_IE (bits v 5 5)).wrc n Fd.HATCH_CTL_BANK (bits v 4 4)).wrc n
    Fd.HATCH_CTL_ANYSHEET (bits v 3 3)

@[simp] theorem Dev.hatchCtlFields_chan (m : Nat) : (d.hatchCtlFields n v).chan m = d.chan m := rfl
@[simp] theorem Dev.hatchCtlFields_strk : (d.hatchCtlFields n v).strk = d.strk := rfl

theorem Dev.hatchCtlFields_anySheet : (d.hatchCtlFields n v).isc n Fd.HATCH_CTL_ANYSHEET = bit v 3 := Dev.isc_wrc_bit (by decide)

theorem Dev.hatchCtlFields_bank : (d.hatchCtlFields n v).isc n Fd.HATCH_CTL_BANK = bit v 4 := by
  have kept : (d.hatchCtlFields n v).isc n Fd.HATCH_CTL_BANK =
      (((d.wrc n Fd.HATCH_CTL_MARK_IE (bits v 6 6)).wrc n Fd.HATCH_CTL_SW_IE (bits v 5 5)).wrc n Fd.HATCH_CTL_BANK (bits v 4 4)).isc n
        Fd.HATCH_CTL_BANK := by
    unfold Dev.isc Dev.hatchCtlFields Dev.rdc
    rw [Dev.wrc, Dev.rdx_wrx_fldAt (by decide)]
  rw [kept, Dev.isc_wrc_bit (by decide)]

theorem Dev.hatchCtlFields_armSheet :
    (d.hatchCtlFields n v).rdc n Fd.HATCH_ARM_SHEET_SHEET = d.rdc n Fd.HATCH_ARM_SHEET_SHEET := by
  simp (disch := decide) only [Dev.hatchCtlFields, Dev.rdc, Dev.wrc, Dev.rdx_wrx_reg]

/-- What a write that only arms leaves. -/
theorem hatchCtlStore_arm (arm : bit v 0 = true) (noDisarm : bit v 1 = false) (noStop : bit v 2 = false) :
    hatchCtlStore n v d = hatchArm n (d.hatchCtlFields n v) := by
  simp [hatchCtlStore, Dev.hatchCtlFields, arm, noDisarm, noStop]

theorem hatchCtlStore_disarm (noArm : bit v 0 = false) (disarm : bit v 1 = true) (noStop : bit v 2 = false) :
    hatchCtlStore n v d = hatchDisarm n (d.hatchCtlFields n v) := by
  simp [hatchCtlStore, Dev.hatchCtlFields, noArm, disarm, noStop]

@[simp] theorem Dev.sheetTooNear_modChan (f : Chan → Chan) : (d.modChan n f).sheetTooNear = d.sheetTooNear := rfl

/-- A write with STOP withdraws a request, whether DISARM is set with it or not. -/
theorem hatchCtlStore_stop (noArm : bit v 0 = false) (stop : bit v 2 = true) :
    (hatchCtlStore n v d).chan n = (hatchStop n (d.hatchCtlFields n v)).chan n := by
  have withdrawn : (hatchStop n (hatchDisarm n (d.hatchCtlFields n v))).chan n = (hatchStop n (d.hatchCtlFields n v)).chan n := by
    simp only [hatchStop, hatchDisarm, Dev.chan_modChan_same, Dev.sheetTooNear_modChan]
    split <;> simp
  cases disarm : bit v 1 with
  | true => exact (by simp [hatchCtlStore, Dev.hatchCtlFields, noArm, disarm, stop] :
      (hatchCtlStore n v d).chan n = (hatchStop n (hatchDisarm n (d.hatchCtlFields n v))).chan n).trans withdrawn
  | false => simp [hatchCtlStore, Dev.hatchCtlFields, noArm, disarm, stop]

/-! ### What the requests do to their channel -/

/-- The request of an ARM with the fields written by the same write (R54). -/
theorem Dev.hatchCtlFields_armRequest : (d.hatchCtlFields n v).armRequest n =
    { bank := if (d.chan n).active then !(d.chan n).live else bit v 4
      target := if bit v 3 then .any d.sheetTooNear else .sheet (d.rdc n Fd.HATCH_ARM_SHEET_SHEET)
      checking := true
      writtenT := d.now
      late := !bit v 3 && d.armLate (d.rdc n Fd.HATCH_ARM_SHEET_SHEET) } := by
  simp only [Dev.armRequest, Dev.hatchCtlFields_anySheet, Dev.hatchCtlFields_bank, Dev.hatchCtlFields_armSheet, Dev.hatchCtlFields_chan]
  rfl

theorem hatchArm_chan (noRequest : (d.chan n).arm = none) (noStop : (d.chan n).stop = none) :
    (hatchArm n d).chan n = { d.chan n with arm := some (d.armRequest n) } := by
  simp [hatchArm, noRequest, noStop]

theorem hatchDisarm_chan : (hatchDisarm n d).chan n = { d.chan n with arm := none } := Dev.chan_modChan_same ..

theorem hatchStop_chan : (hatchStop n d).chan n =
    { d.chan n with
      arm := none
      stop := if (d.chan n).active && (d.chan n).stop.isNone then some d.sheetTooNear else (d.chan n).stop } := by
  simp only [hatchStop, hatchDisarm, Dev.chan_modChan_same, Dev.sheetTooNear_modChan]
  split <;> simp

/-! ### The check of a request (R54) -/

theorem hatchCheckEnd_accepts {r : ArmReq} (faultless : ((d.chan n).noCal r.bank || (d.chan n).rsvSet r.bank || r.late) = false) :
    hatchCheckEnd n r d = d.modChan n fun c => { c with arm := some { r with checking := false } } := by
  simp [hatchCheckEnd, faultless]

/-- A flag set where `c` holds. -/
theorem Dev.rdc_flagcIf_same {c : Bool} {f : Fld} (oneBit : f.hi = f.lo ∧ f.hi < 32) :
    (d.flagcIf c n f).rdc n f = if c then 1 else d.rdc n f := by
  obtain ⟨same, inWord⟩ := oneBit
  cases c
  · rfl
  · exact (Dev.rdc_wrc_same _ _ _ inWord same.ge).trans (by simp [same])

theorem Dev.rdc_flagcIf_field {c : Bool} {f g : Fld}
    (apart : g.reg = f.reg ∧ (f.hi < 32 ∧ f.lo ≤ f.hi ∧ g.lo ≤ g.hi ∧ (g.hi < f.lo ∨ f.hi < g.lo))) :
    (d.flagcIf c n f).rdc n g = d.rdc n g := by
  cases c
  · rfl
  · exact Dev.rdx_wrx_fldAt apart

/-- A refused request sets the flag of every fault that was found, and no other. -/
theorem hatchCheckEnd_refuses {r : ArmReq} (faulty : ((d.chan n).noCal r.bank || (d.chan n).rsvSet r.bank || r.late) = true) :
    (hatchCheckEnd n r d).chan n = { d.chan n with arm := none } ∧
    (hatchCheckEnd n r d).rdc n Fd.HATCH_STAT_NOCAL = (if (d.chan n).noCal r.bank then 1 else d.rdc n Fd.HATCH_STAT_NOCAL) ∧
    (hatchCheckEnd n r d).rdc n Fd.HATCH_STAT_RSVBIT = (if (d.chan n).rsvSet r.bank then 1 else d.rdc n Fd.HATCH_STAT_RSVBIT) ∧
    (hatchCheckEnd n r d).rdc n Fd.HATCH_STAT_LATE = (if r.late then 1 else d.rdc n Fd.HATCH_STAT_LATE) := by
  have flags : hatchCheckEnd n r d =
      (((hatchDisarm n d).flagcIf ((d.chan n).noCal r.bank) n Fd.HATCH_STAT_NOCAL).flagcIf ((d.chan n).rsvSet r.bank) n
        Fd.HATCH_STAT_RSVBIT).flagcIf r.late n Fd.HATCH_STAT_LATE := by
    unfold hatchCheckEnd
    rw [if_pos faulty]
  rw [flags]
  refine ⟨?channel, ?noCal, ?rsvBit, ?late⟩
  case channel =>
    rw [Dev.chan_congr (Dev.flagcIf_chans ..), Dev.chan_congr (Dev.flagcIf_chans ..), Dev.chan_congr (Dev.flagcIf_chans ..), hatchDisarm_chan]
  case noCal => rw [Dev.rdc_flagcIf_field (by decide), Dev.rdc_flagcIf_field (by decide), Dev.rdc_flagcIf_same (by decide)]; rfl
  case rsvBit =>
    rw [Dev.rdc_flagcIf_field (by decide), Dev.rdc_flagcIf_same (by decide), Dev.rdc_flagcIf_field (by decide)]; rfl
  case late => rw [Dev.rdc_flagcIf_same (by decide), Dev.rdc_flagcIf_field (by decide), Dev.rdc_flagcIf_field (by decide)]; rfl

end

/-! ### The obligation -/

/-- The check of a pending request ends within its 256 cycles (R54). -/
theorem exec_hatchArmCheckDone {ch : Fin 48} {cyc : BitVec 10} {s : State} {r : ArmReq} (request : (s.dev.chan ch).arm = some r)
    (checking : r.checking = true) (begun : r.writtenT ≤ (s.dev.atCycle cyc).now) (inTime : (s.dev.atCycle cyc).now ≤ r.writtenT + 256) :
    exec (.hatchArmCheckDone ch cyc) s = .next { s with dev := hatchCheckEnd ch r (s.dev.atCycle cyc) } := by
  have request' : ((s.dev.atCycle cyc).chan ch).arm = some r := by rwa [Dev.chan_congr (Dev.atCycle_chans ..)]
  change execHatchArmCheckDone ch cyc s = _
  simp [execHatchArmCheckDone, onDev, request', checking, begun, inTime]

/-- A write of HATCH_CTL without RSV bits acts (R493). -/
theorem givesDev_hatchCtlWrite {ch : Fin 48} {v : Nat} {cyc : BitVec 10} {s : State} {P : Dev → Prop} (noRsv : bits v 31 7 = 0)
    (holds : P (hatchCtlStore ch v (s.dev.atCycle cyc))) : GivesDev (onDev s (hatchCtlWrite ch v cyc)) s P :=
  givesDev_orRsv (by simp [hatchCtlRsv, noRsv]) holds

/-- Settles O16: each request is one change of its channel, with the fields that the same write stores. -/
theorem hatchRequestsAct : Obligations.HatchRequestsAct := by
  refine ⟨fun ch v cyc s noRsv noDisarm noStop noRequest noWait => ?arm, fun ch cyc s r request checking begun inTime => ?check,
    fun ch v cyc s noRsv noArm noStop => ?disarm, fun ch v cyc s noRsv noArm => ?stop⟩
  case arm =>
    refine givesDev_hatchCtlWrite ((bits_high_setBits (by decide)).trans noRsv) ?_
    rw [hatchCtlStore_arm (bit_setBits_same _ _) (by rwa [bit_setBits_other (by decide)]) (by rwa [bit_setBits_other (by decide)])]
    have chan : ((s.dev.atCycle cyc).chan ch) = s.dev.chan ch := Dev.chan_congr (Dev.atCycle_chans ..) _
    have sheet : (s.dev.atCycle cyc).rdc ch Fd.HATCH_ARM_SHEET_SHEET = s.dev.rdc ch Fd.HATCH_ARM_SHEET_SHEET :=
      Dev.rdx_congr (Dev.atCycle_regs ..) ..
    rw [hatchArm_chan (by rwa [Dev.hatchCtlFields_chan, chan]) (by rwa [Dev.hatchCtlFields_chan, chan]), Dev.hatchCtlFields_armRequest,
      Dev.hatchCtlFields_chan, chan, sheet, bit_setBits_other (by decide), bit_setBits_other (by decide)]
    exact ⟨rfl, rfl⟩
  case check =>
    have chan : ((s.dev.atCycle cyc).chan ch) = s.dev.chan ch := Dev.chan_congr (Dev.atCycle_chans ..) _
    refine ⟨_, exec_hatchArmCheckDone request checking begun inTime, ?_⟩
    cases faulty : (s.dev.chan ch).noCal r.bank || (s.dev.chan ch).rsvSet r.bank || r.late with
    | true =>
      have regs (f : Fld) : (s.dev.atCycle cyc).rdc ch f = s.dev.rdc ch f := Dev.rdx_congr (Dev.atCycle_regs ..) ..
      have refused := hatchCheckEnd_refuses (d := s.dev.atCycle cyc) (n := ch) (r := r) (by rwa [chan])
      simpa only [if_true, chan, regs] using refused
    | false =>
      rw [if_neg Bool.false_ne_true, hatchCheckEnd_accepts (by rwa [chan]), Dev.chan_modChan_same, chan]
      exact ⟨rfl, Dev.atCycle_regs ..⟩
  case disarm =>
    refine givesDev_hatchCtlWrite ((bits_high_setBits (by decide)).trans noRsv) ?_
    rw [hatchCtlStore_disarm (by rwa [bit_setBits_other (by decide)]) (bit_setBits_same _ _) (by rwa [bit_setBits_other (by decide)]),
      hatchDisarm_chan, Dev.hatchCtlFields_chan, Dev.chan_congr (Dev.atCycle_chans ..)]
  case stop =>
    refine givesDev_hatchCtlWrite ((bits_high_setBits (by decide)).trans noRsv) ?_
    rw [hatchCtlStore_stop (by rwa [bit_setBits_other (by decide)]) (bit_setBits_same _ _), hatchStop_chan, Dev.hatchCtlFields_chan,
      Dev.chan_congr (Dev.atCycle_chans ..)]
    rfl

end Sys2Proof.Machine

/-! PROOFS. Posts of descriptors, bus and die events, and the channel registers with an effect of their own. -/

namespace Sys2Proof.Machine

/-! ### Descriptors (R171, R173, R193) -/

/-- What a post leaves is told from the channels before it alone. -/
theorem Posts.of_chans {n g : Nat} {x : Desc} {dev : Bool} {d d' e : Dev} (posts : Posts n g x dev d' e) (same : d'.chans = d.chans) :
    Posts n g x dev d e := by
  unfold Posts Dev.die Dev.chan at posts ⊢
  rwa [same] at posts

/-- A write of SEQ_POST_D7 posts the staged descriptor with the operation of its row. -/
theorem postOp_posts (op : Nat) (ch : Fin 48) (g : Fin 64) (x : Desc) (dev : Bool) (cyc : BitVec 10) (s : State) :
    GivesThen (postOp op ch g x dev cyc s) s (afterChan ch) (Posts ch g (postedAs op x) dev s.dev) := by
  unfold postOp
  exact givesThen_always ((takeDesc_posts _ _ _ _ _).of_chans (Dev.atCycle_chans ..))

/-- Settles O17: the six rows are one post, each with its own operation code. -/
theorem postsAct : Obligations.PostsAct :=
  ⟨postOp_posts 1, postOp_posts 2, postOp_posts 3, postOp_posts 4, postOp_posts 5, postOp_posts 6⟩

/-! ### Command slots (R205, R207, R210) -/

section
variable {d : Dev} {n i : Nat}

/-- The device at a free command slot, with the requests of its channel raised. -/
def Dev.atFreeSlot (d : Dev) (n i : Nat) : Dev := refreshChan n ((d.toSlot n i).modChan n fun c => { c with holder := none })

theorem Dev.atFreeSlot_chan : ((d.atFreeSlot n i).chan n).nextSlot = i + 1 ∧ ((d.atFreeSlot n i).chan n).holder = none := by
  have raised := refreshChan_holds n ((d.toSlot n i).modChan n fun c => { c with holder := none })
  refine ⟨(raised.nextSlot n).trans ?_, (raised.holder n).trans ?_⟩
  · rw [Dev.chan_modChan_same]; exact (toSlot_next d n i).1
  · rw [Dev.chan_modChan_same]

/-- At a free command slot the winner holds the bus, none where nothing may. -/
theorem decisionPoint_free {p : PollResult} (ahead : d.slotAhead n i = true) (free : (d.chan n).slotFree d.strk.lock i = true) :
    ∃ e, decisionPoint n i p d = .ok e ∧ (e.chan n).nextSlot = i + 1 ∧
      (e.chan n).holder = ((d.atFreeSlot n i).winner n i).map fun r => (d.atFreeSlot n i).holds n i r p := by
  obtain ⟨next, noHolder⟩ := d.atFreeSlot_chan (n := n) (i := i)
  have row : decisionPoint n i p d =
      (match (d.atFreeSlot n i).winner n i with | some r => .ok (winAt n i r p (d.atFreeSlot n i)) | none => .ok (d.atFreeSlot n i)) := by
    simp only [decisionPoint, ahead, free, Bool.and_self, if_true]
    rfl
  rw [row]
  cases (d.atFreeSlot n i).winner n i with
  | none => exact ⟨_, rfl, next, noHolder⟩
  | some r =>
    obtain ⟨holder, slot⟩ := winAt_holder n i r p (d.atFreeSlot n i)
    exact ⟨_, rfl, slot.trans next, holder⟩

/-- The device at a command slot inside a burst, with the requests of its channel raised. -/
def Dev.atHeldSlot (d : Dev) (n i : Nat) : Dev := refreshChan n (d.toSlot n i)

theorem Dev.atHeldSlot_chan {h : Holder} (held : (d.chan n).holder = some h) :
    ((d.atHeldSlot n i).chan n).nextSlot = i + 1 ∧ ((d.atHeldSlot n i).chan n).holder = some h := by
  have raised := refreshChan_holds n (d.toSlot n i)
  exact ⟨(raised.nextSlot n).trans (toSlot_next d n i).1, (raised.holder n).trans ((toSlot_next d n i).2.trans held)⟩

/-- A load that gives way leaves the next command slot as it is, and sets PREEMPT. -/
theorem preemptLoad_nextSlot (n i : Nat) (h : Holder) (d : Dev) : ((preemptLoad n i h d).chan n).nextSlot = (d.chan n).nextSlot := by
  rw [preemptLoad_chan, sentCws, modDie_chan]
  rfl

theorem preemptLoad_event (n i : Nat) (h : Holder) (d : Dev) : (preemptLoad n i h d).rdc n Fd.CARB_EVT_PREEMPT = 1 :=
  Dev.rdc_wrc_same _ _ _ (by decide) (by decide)

/-- A win sets no event but FORCE. -/
theorem winAt_preemptEvent (n i : Nat) (r : Req) (p : PollResult) (d : Dev) :
    (winAt n i r p d).rdc n Fd.CARB_EVT_PREEMPT = d.rdc n Fd.CARB_EVT_PREEMPT := by
  unfold winAt
  extract_lets c tierO lent d1 d2 d3
  have h1 : d1.rdc n Fd.CARB_EVT_PREEMPT = d.rdc n Fd.CARB_EVT_PREEMPT := by
    subst d1
    split
    · exact (countLosses_keeps n i r d).rdc _ _ (by rfl)
    · rfl
  have h2 : d2.rdc n Fd.CARB_EVT_PREEMPT = d1.rdc n Fd.CARB_EVT_PREEMPT := by
    subst d2
    split
    · exact (Dev.addc_keeps d1 n Fd.CARB_CNT_GRANT_LENT 1).rdc n Fd.CARB_EVT_PREEMPT (by rfl)
    · rfl
  have h3 : d3.rdc n Fd.CARB_EVT_PREEMPT = d2.rdc n Fd.CARB_EVT_PREEMPT := by
    subst d3
    split
    · exact (Dev.rdx_wrx_fldAt (by decide)).trans ((Dev.addc_keeps ..).rdc _ _ (by rfl))
    · rfl
  exact (((grant_keeps ..).rdc _ _ (by rfl)).trans h3).trans (h2.trans h1)

/-- A load that holds the bus gives way to the first of the owner's reads; any other burst goes on (R210). -/
theorem preemptionPoint_held {p : PollResult} {h : Holder} (held : (d.chan n).holder = some h) (lock : d.strk.lock = true)
    (moving : h.moving = true) (ahead : d.slotAhead n i = true) (inside : (d.chan n).rate.cmdStart i < h.endC) :
    ∃ e, preemptionPoint n i p d = .ok e ∧ (e.chan n).nextSlot = i + 1 ∧
      match (if h.req.kind == .load then firstRanked ((d.atHeldSlot n i).rank n) ((d.atHeldSlot n i).ownerReads n i) else none) with
      | some r => (e.chan n).holder = some ((preemptLoad n i h (d.atHeldSlot n i)).holds n i r p) ∧ e.rdc n Fd.CARB_EVT_PREEMPT = 1
      | none => (e.chan n).holder = some h := by
  obtain ⟨next, holder⟩ := d.atHeldSlot_chan (i := i) held
  have row : preemptionPoint n i p d =
      if h.req.kind == .load then
        match firstRanked ((d.atHeldSlot n i).rank n) ((d.atHeldSlot n i).ownerReads n i) with
        | some r => .ok (winAt n i r p (preemptLoad n i h (d.atHeldSlot n i)))
        | none => .ok (d.atHeldSlot n i)
      else .ok (d.atHeldSlot n i) := by
    simp only [preemptionPoint, held, lock, moving, ahead, inside, decide_true, Bool.and_self, if_true]
    rfl
  rw [row]
  cases h.req.kind == .load with
  | false => exact ⟨_, rfl, next, holder⟩
  | true =>
    rw [if_pos rfl, if_pos rfl]
    cases firstRanked ((d.atHeldSlot n i).rank n) ((d.atHeldSlot n i).ownerReads n i) with
    | none => exact ⟨_, rfl, next, holder⟩
    | some r =>
      obtain ⟨won, slot⟩ := winAt_holder n i r p (preemptLoad n i h (d.atHeldSlot n i))
      exact ⟨_, rfl, slot.trans ((preemptLoad_nextSlot ..).trans next), won, (winAt_preemptEvent ..).trans (preemptLoad_event ..)⟩

/-! ### Ends of bursts (R179, R181) -/

/-- A device in which no grant holds the bus of a channel, at the end of the span that did. -/
def Dev.atSpanEnd (d : Dev) (n : Nat) (h : Holder) : Dev := (d.toSpanEnd h).modChan n fun c => { c with holder := none }

theorem Dev.atSpanEnd_chan (h : Holder) : (d.atSpanEnd n h).chan n = { d.chan n with holder := none } := by
  rw [Dev.atSpanEnd, Dev.chan_modChan_same, Dev.toSpanEnd, Dev.chan_congr (Dev.atCycle_chans ..)]

/-- The last codeword of a read leaves the bus free, the read complete and its codewords with the hard decoder. -/
theorem readBurstEnd_read {zeros : List Nat} {drift : Option Bool} {h : Holder} {r : RdOp} (held : (d.chan n).holder = some h)
    (moving : h.moving = true) (readOut : h.req.kind = .readOut) (reads : (d.die n h.req.target).rd = some r)
    (target : r.q.desc.target = h.req.target) (op : r.q.desc.op = 1) (cooked : r.q.desc.raw = false) (ownRead : ldpcTag r.q.desc.tag = false) :
    ∃ e, readBurstEnd n zeros drift d = .ok e ∧ (e.chan n).holder = none ∧ (e.die n h.req.target).rd = none ∧
      (e.chan n).cq = (d.chan n).cq ++ [mkCqEntry r.q.desc r.q.dup 0 r.status 0 r.busy 0 0] ∧
      e.ecc.items.length = d.ecc.items.length + maskCount r.q.desc.cwmask := by
  obtain ⟨holder, cq, dies⟩ := trackEye_chan n h.req.target drift (d.atSpanEnd n h) n
  have spanEnd := d.atSpanEnd_chan (n := n) h
  have stillReads : ((trackEye n h.req.target drift (d.atSpanEnd n h)).die n h.req.target).rd = some r := by
    rw [dies, Dev.die, spanEnd]; exact reads
  have row : readBurstEnd n zeros drift d = .ok (readDone n r h.owned zeros (trackEye n h.req.target drift (d.atSpanEnd n h))) := by
    simp only [readBurstEnd, held, moving, readOut, beq_self_eq_true, Bool.and_self, if_true]
    change (match ((trackEye n h.req.target drift (d.atSpanEnd n h)).die n h.req.target).rd with | some run => _ | none => _) = _
    rw [stillReads]
    rfl
  obtain ⟨noHolder, noRead, entry, items⟩ :=
    readDone_read n r h.owned zeros (trackEye n h.req.target drift (d.atSpanEnd n h)) op cooked ownRead
  rw [target] at noRead
  refine ⟨_, row, noHolder.trans (holder.trans (by rw [spanEnd])), noRead, ?_, ?_⟩
  · rw [entry, cq, spanEnd]
  · have ecc : (d.atSpanEnd n h).ecc = d.ecc := (Dev.atCycle_keeps d (BitVec.ofNat 10 h.endC)).ecc (by rfl)
    rw [items, (trackEye_keeps ..).ecc (by rfl), ecc]

/-- The last codeword of a load leaves the bus free, and the page loaded. -/
theorem loadBurstEnd_load {h : Holder} {o : PeOp} (held : (d.chan n).holder = some h) (moving : h.moving = true) (load : h.req.kind = .load)
    (loads : (d.die n h.req.target).op = some o) :
    ∃ e, loadBurstEnd n d = .ok e ∧ (e.chan n).holder = none ∧ (e.die n h.req.target).op = some { o with
      data := o.data ++ (List.range h.len).map fun i => d.pool.sector o.q.desc.cell (4 * o.pages + o.encCw + i)
      pages := o.pages + 1
      phase := if unitPages o.q.desc.slc ≤ o.pages + 1 then .starting else .loading } := by
  have spanEnd := d.atSpanEnd_chan (n := n) h
  have row : loadBurstEnd n d = .ok (pageLoaded n h.req.target (sentCws n h.req.target h.len (d.atSpanEnd n h))) := by
    simp only [loadBurstEnd, held, moving, load, beq_self_eq_true, Bool.and_self, if_true]
    rfl
  have pool : (d.atSpanEnd n h).pool = d.pool := (Dev.atCycle_keeps d (BitVec.ofNat 10 h.endC)).pool (by rfl)
  have loads' : ((d.atSpanEnd n h).die n h.req.target).op = some o := by rw [Dev.die, spanEnd]; exact loads
  refine ⟨_, row, ?_, ?_⟩
  · rw [pageLoaded, modDie_chan, sentCws, modDie_chan, spanEnd]
    rfl
  · rw [pageLoaded, Dev.die_modDie_same, sentCws, Dev.die_modDie_same, loads', pool]
    rfl

/-! ### Floors, time-outs, resets (R178, R184) -/

section
variable {t : Nat} {cyc : BitVec 10}

theorem Dev.die_atCycle : (d.atCycle cyc).die n t = d.die n t := by rw [Dev.die, Dev.chan_congr (Dev.atCycle_chans ..)]; rfl

theorem pollFloorPass_read {r : RdOp} (reads : (d.die n t).rd = some r) (due : r.floorDue (d.atCycle cyc) = true) :
    ∃ e, pollFloorPass n t cyc d = .ok e ∧ (e.die n t).rd = some { r with polling := true } := by
  refine ⟨?after, ?row, ?die⟩
  case row =>
    simp only [pollFloorPass, Dev.die_atCycle, reads, Option.any_some, due, Bool.true_or, if_true]
    rfl
  case die =>
    rw [Dev.die_modDie_same, Dev.die_atCycle, reads]
    rfl

theorem pollFloorPass_op {o : PeOp} (runs : (d.die n t).op = some o) (due : o.floorDue (d.atCycle cyc) = true) :
    ∃ e, pollFloorPass n t cyc d = .ok e ∧ (e.die n t).op = some { o with polling := true } := by
  refine ⟨?after, ?row, ?die⟩
  case row =>
    simp only [pollFloorPass, Dev.die_atCycle, runs, Option.any_some, due, Bool.or_true, if_true]
    rfl
  case die =>
    rw [Dev.die_modDie_same, Dev.die_atCycle, runs]
    rfl

/-- An operation past its time-out asks for a reset of its die, unless a burst moves data of that die. -/
theorem operationTimeout_due {k : Nat × Bool} (late : (d.die n t).timeoutClass (d.atCycle cyc) = some k)
    (quiet : (d.chan n).holder.any (fun h => h.moving && h.req.target == t) = false) :
    ∃ e, operationTimeout n t cyc d = .ok e ∧ (e.die n t).awaitReset = some k ∧ e.rdc n Fd.SEQ_EVT_TIMEOUT = 1 := by
  refine ⟨?after, ?row, ?die, ?event⟩
  case row =>
    simp only [operationTimeout, Dev.die_atCycle, late, Dev.chan_congr (Dev.atCycle_chans d cyc), quiet, Bool.false_eq_true, if_false]
    rfl
  case die => rw [Dev.die, Dev.chan_congr (Dev.wrc_chans ..), ← Dev.die, Dev.die_modDie_same]
  case event => exact Dev.rdc_wrc_same _ _ _ (by decide) (by decide)

/-- The end of a die reset frees the die. -/
theorem dieResetDone_due {e : Nat} (held : (d.die n t).resetEnd = some e) (came : (d.atCycle cyc).reached e = true) :
    ∃ f, dieResetDone n t cyc d = .ok f ∧ (f.die n t).resetEnd = none ∧ (f.die n t).resetQ = none ∧
      (f.die n t).st = (if (d.die n t).st = .reset then .idle else (d.die n t).st) := by
  have freed (y : Die) : (if y.st == .reset then DieState.idle else y.st) = if y.st = .reset then .idle else y.st := by
    cases y.st <;> rfl
  cases queued : (d.die n t).resetQ with
  | none =>
    refine ⟨?after, ?row, ?die⟩
    case row =>
      simp only [dieResetDone, Dev.die_atCycle, held, came, queued, if_true]
      rfl
    case die =>
      rw [Dev.die_modDie_same, Dev.die_atCycle]
      exact ⟨rfl, rfl, freed _⟩
  | some q =>
    refine ⟨?completed, ?completes, ?freed⟩
    case completes =>
      simp only [dieResetDone, Dev.die_atCycle, held, came, queued, if_true]
      rfl
    case freed =>
      obtain ⟨resetEnd, resetQ, st⟩ := complete_die n t q { status := 0 }
        ((d.atCycle cyc).modDie n t fun y => { y with resetEnd := none, resetQ := none, st := if y.st == .reset then .idle else y.st })
      rw [resetEnd, resetQ, st, Dev.die_modDie_same, Dev.die_atCycle]
      exact ⟨rfl, rfl, freed _⟩

end

end

/-- A row that answers a device leads on from it. -/
theorem givesThen_of_exists {s : State} {f : Dev → Except String Dev} {g : State → State} {P : Dev → Prop}
    (row : ∃ d, f s.dev = .ok d ∧ P d) : GivesThen (onDevThen s f g) s g P := by
  obtain ⟨d, next, holds⟩ := row
  exact givesThen_of_ok next holds

/-- Settles O18: each event is one transition of its channel or die. -/
theorem busEventsAct : Obligations.BusEventsAct :=
  ⟨fun _ _ _ _ ahead free => givesThen_of_exists (decisionPoint_free ahead free),
    fun _ _ _ _ _ held lock moving ahead inside => givesThen_of_exists (preemptionPoint_held held lock moving ahead inside),
    fun _ _ _ _ _ _ held moving readOut reads target op cooked ownRead =>
      givesThen_of_exists (readBurstEnd_read held moving readOut reads target op cooked ownRead),
    fun _ _ _ _ held moving load loads => givesThen_of_exists (loadBurstEnd_load held moving load loads),
    fun _ _ _ _ _ reads due => givesThen_of_exists (pollFloorPass_read reads due),
    fun _ _ _ _ _ runs due => givesThen_of_exists (pollFloorPass_op runs due),
    fun _ _ _ _ _ late quiet => givesThen_of_exists (operationTimeout_due late quiet),
    fun _ _ _ _ _ held came => givesThen_of_exists (dieResetDone_due held came)⟩

end Sys2Proof.Machine

/-! PROOFS. The channel registers with an effect of their own. -/

namespace Sys2Proof.Machine

section
variable {d : Dev} {n : Nat}

/-! ### Hatch banks (R30) -/

/-- A write of a locked bank sets WR_IGN and nothing else. -/
theorem hatchLocked_ignored (n : Nat) (d : Dev) :
    (d.wrc n Fd.HATCH_STAT_WR_IGN 1).rdc n Fd.HATCH_STAT_WR_IGN = 1 ∧ (d.wrc n Fd.HATCH_STAT_WR_IGN 1).chans = d.chans :=
  ⟨Dev.rdc_wrc_same _ _ _ (by decide) (by decide), rfl⟩

theorem hatchEntryStore_moves (b : Bool) (k : Nat) (hi : Bool) (v : Word) :
    if (d.chan n).bankLocked b then
      (hatchEntryStore n b k hi v d).rdc n Fd.HATCH_STAT_WR_IGN = 1 ∧ (hatchEntryStore n b k hi v d).chans = d.chans
    else (((hatchEntryStore n b k hi v d).chan n).bankEntry b k).toNat = setHalf ((d.chan n).bankEntry b k).toNat hi v.toNat ∧
      (∀ j, j ≠ k → ((hatchEntryStore n b k hi v d).chan n).bankEntry b j = (d.chan n).bankEntry b j) ∧
      (hatchEntryStore n b k hi v d).regs = d.regs := by
  cases locked : (d.chan n).bankLocked b with
  | true =>
    rw [if_pos rfl, hatchEntryStore, if_pos locked]
    exact hatchLocked_ignored n d
  | false =>
    rw [if_neg Bool.false_ne_true, hatchEntryStore_unlocked locked, Dev.chan_modChan_same]
    exact ⟨Chan.bankEntry_putEntry_same .., fun j other => Chan.bankEntry_putEntry_other _ _ _ _ _ (by simp [other]), rfl⟩

theorem hatchSealStore_moves (b : Bool) (v : Word) :
    if (d.chan n).bankLocked b then
      (hatchSealStore n b v d).rdc n Fd.HATCH_STAT_WR_IGN = 1 ∧ (hatchSealStore n b v d).chans = d.chans
    else ((hatchSealStore n b v d).chan n).sealOf b = v ∧ ((hatchSealStore n b v d).chan n).sealOf (!b) = (d.chan n).sealOf (!b) ∧
      (hatchSealStore n b v d).regs = d.regs := by
  cases locked : (d.chan n).bankLocked b with
  | true =>
    rw [if_pos rfl, hatchSealStore, if_pos locked]
    exact hatchLocked_ignored n d
  | false =>
    rw [if_neg Bool.false_ne_true, hatchSealStore, if_neg (by rw [locked]; decide), Dev.chan_modChan_same]
    cases b <;> exact ⟨rfl, rfl, rfl⟩

/-! ### Block states (Table 6-24) -/

theorem Die.blockState_setBlock_same (x : Die) (b st : Nat) : (x.setBlock b st).blockState b = st := mapGet_set_same ..

/-- A block takes the state written, unless that is the reserved one. -/
theorem blockStateWrite_moves {v : Nat} (plain : bits v 31 2 = 0) (hv : v < 2 ^ 32) :
    if v = 3 then blockStateWrite n v d = d
    else ((blockStateWrite n v d).die n (d.rdc n Fd.SEQ_BST_SEL_TARGET)).blockState (d.rdc n Fd.SEQ_BST_SEL_BLOCK) = v := by
  have state : bits v 1 0 = v := by unfold bits at *; omega
  unfold blockStateWrite
  rw [state]
  by_cases reserved : v = 3
  · simp only [reserved, if_true]
  · simp only [reserved, if_false]
    rw [Dev.die_modDie_same, Die.blockState_setBlock_same]

/-! ### Training of the interface (R195, R201) -/

/-- RETRAIN takes the rate written; an inactive channel that trains nothing asks for a training at that rate. -/
theorem phyRateWrite_retrain {v : Nat} (low : 1 ≤ bits v 2 0) (high : bits v 2 0 ≤ 4) (retrain : bit v 8 = true) :
    (phyRateWrite n v d).rdc n Fd.PHY_RATE_RATE = bits v 2 0 ∧
      if (d.chan n).active then (phyRateWrite n v d).rdc n Fd.SEQ_EVT_CFG_IGN = 1 ∧ (phyRateWrite n v d).chans = d.chans
      else (d.chan n).training = .none → ((phyRateWrite n v d).chan n).training = .requested ∧
        ((phyRateWrite n v d).chan n).trainRate = Rate.ofCode (bits v 2 0) := by
  have rate : (d.wrc n Fd.PHY_RATE_RATE (bits v 2 0)).rdc n Fd.PHY_RATE_RATE = bits v 2 0 :=
    (Dev.rdc_wrc_same _ _ _ (by decide) (by decide)).trans (Nat.mod_eq_of_lt (by change _ < 8; omega))
  have row : phyRateWrite n v d = (if (d.chan n).active then (d.wrc n Fd.PHY_RATE_RATE (bits v 2 0)).wrc n Fd.SEQ_EVT_CFG_IGN 1
      else if (d.chan n).training == .none then requestTraining n (d.wrc n Fd.PHY_RATE_RATE (bits v 2 0))
      else d.wrc n Fd.PHY_RATE_RATE (bits v 2 0)) := by
    simp only [phyRateWrite, low, high, retrain, decide_true, Bool.and_self, if_true]
    rfl
  rw [row]
  cases (d.chan n).active with
  | true =>
    exact ⟨(Dev.rdx_wrx_reg (by decide)).trans rate, Dev.rdc_wrc_same _ _ _ (by decide) (by decide), rfl⟩
  | false =>
    simp only [Bool.false_eq_true, if_false]
    cases training : (d.chan n).training == .none with
    | true =>
      refine ⟨rate, fun _ => ?_⟩
      rw [if_pos rfl, requestTraining, Dev.chan_modChan_same, rate]
      exact ⟨rfl, rfl⟩
    | false => exact ⟨rate, fun none => by simp [none] at training⟩

end

/-- A write that sets no RSV bit leads on from what its register does. -/
theorem givesThen_orRsv {s : State} {b : Bool} {f : Dev → Dev} {g : State → State} {P : Dev → Prop} (plain : b = false) (holds : P (f s.dev)) :
    GivesThen (onDevThen s (orRsv b f) g) s g P :=
  givesThen_of_ok (f := orRsv b f) (by simp only [orRsv, plain]; rfl) holds

/-- Settles O19: each register's store is one transition of its channel. -/
theorem channelWritesAct : Obligations.ChannelWritesAct := by
  refine ⟨fun ch b k hi v s => givesDev_always ?_, fun ch b v s => givesDev_always (hatchSealStore_moves b v), fun ch v s plain => ?_,
    fun ch v s plain => ?_, fun ch v s h1 h2 h3 low high => ?_, fun ch s running => ?_⟩
  · have moves := hatchEntryStore_moves (d := s.dev) (n := ch) b k hi v
    by_cases locked : (s.dev.chan ch).bankLocked b
    · rw [if_pos locked] at moves ⊢
      exact moves
    · rw [if_neg locked] at moves ⊢
      obtain ⟨stored, others, regs⟩ := moves
      exact ⟨stored.trans (Nat.mod_eq_of_lt (setHalf_lt ((s.dev.chan ch).bankEntry b k).isLt hi v.toNat)).symm,
        fun j other => others j fun e => other (Fin.ext e), regs⟩
  · have fits : v.toNat < 2 ^ 16 := by have := v.isLt; unfold bits at plain; omega
    change GivesThen (execSeqCqHeadWrite ch v s) s _ _
    exact givesThen_orRsv (by simp only [plain]; rfl) ((Dev.rdc_wrc_same _ _ _ (by decide) (by decide)).trans (Nat.mod_eq_of_lt fits))
  · change GivesThen (execBlockStateWrite ch v s) s _ _
    exact givesThen_orRsv (by simp only [plain]; rfl) (blockStateWrite_moves plain v.isLt)
  · have at31 : bits (setBits v.toNat 8 8 1) 31 19 = 0 := (bits_setBits_above (by decide) (by decide)).trans h1
    have at15 : bits (setBits v.toNat 8 8 1) 15 9 = 0 := (bits_setBits_above (by decide) (by decide)).trans h2
    have at7 : bits (setBits v.toNat 8 8 1) 7 3 = 0 := (bits_setBits_below (by decide) (by decide)).trans h3
    have rate : bits (setBits v.toNat 8 8 1) 2 0 = bits v.toNat 2 0 := bits_setBits_below (by decide) (by decide)
    have moves := phyRateWrite_retrain (d := s.dev) (n := ch) (v := setBits v.toNat 8 8 1) (by rw [rate]; exact low) (by rw [rate]; exact high)
      (bit_setBits_same ..)
    rw [rate] at moves
    exact givesDev_orRsv (by simp only [at31, at15, at7]; rfl) moves
  · change GivesDev (execTrainingEnd ch s) s _
    exact givesDev_onlyIf' (b := fun d => (d.chan ch).training == .running) (by rw [running]; rfl) (by rw [Dev.chan_modChan_same])

end Sys2Proof.Machine

/-! PROOFS. Set and Get Features. -/

namespace Sys2Proof.Machine

section
variable {s : State} {k : Nat} {x : Slot}

/-- A command whose last step is its completion. -/
theorem Taken.completes {admin : Bool} {op : Nat} {d e : Dev} (taken : Taken d k admin op x) (slots : e.host.slots = d.host.slots) (c : Cpl) :
    Completes (finish k c e) k c := completes_of_slots slots taken.1 c

/-- A feature stored and the command completed: the value is held. -/
theorem putFeat_held (k f key v z : Nat) (c : Cpl) (d : Dev) : ((finish k c (putFeat f key v d)).func f).feat key z = v := by
  rw [finish_func]; exact putFeat_feat f key v d z

/-- The entries of an APST table have keys of their own: the feature's own value stays. -/
theorem apstEntries_feat (t : List (DWord × Nat)) (f z : Nat) (d : Dev) :
    ((t.foldl (fun d e => putFeat f (0x0C00 + e.2) e.1.toNat d) d).func f).feat 0x0C z = (d.func f).feat 0x0C z := by
  refine foldl_keeps (fun e : Dev => (e.func f).feat 0x0C z = (d.func f).feat 0x0C z) rfl fun e a same => ?_
  rw [← same, putFeat, Dev.func_modFunc_same]
  exact congrArg (Option.getD · z) (mapFind_insert_other _ _ (by omega))

theorem apstEntries_slots (t : List (DWord × Nat)) (f : Nat) (d : Dev) :
    (t.foldl (fun d e => putFeat f (0x0C00 + e.2) e.1.toNat d) d).host.slots = d.host.slots :=
  foldl_keeps (fun e : Dev => e.host.slots = d.host.slots) rfl fun _ _ same => same

theorem setFeature_stores {op : Nat} (taken : Taken s.dev k true op x) (known : Sqe.fid x.sqe ∈ [0x01, 0x05]) :
    Completes (setFeature k x s.dev) k success ∧ ((setFeature k x s.dev).func x.fn).feat (Sqe.fid x.sqe) 0 = x.sqe.cdw11.toNat := by
  have cases : Sqe.fid x.sqe = 0x01 ∨ Sqe.fid x.sqe = 0x05 := by simpa using known
  obtain fid | fid := cases
  all_goals
    unfold setFeature
    rw [fid]
    dsimp only
    exact ⟨taken.completes (by rfl) _, putFeat_held ..⟩

theorem setPower_selects {op : Nat} (taken : Taken s.dev k true op x) (valid : bits x.sqe.cdw11.toNat 4 0 ≤ 4) :
    Completes (setPower k x s.dev) k success ∧
      (isPf x.fn = true → mapGet 0 (setPower k x s.dev).pwr.sel x.fn = bits x.sqe.cdw11.toNat 4 0) ∧
      (isPf x.fn = false → (setPower k x s.dev).pwr = s.dev.pwr) := by
  have row : setPower k x s.dev = finish k success (if isPf x.fn then
      (putFeat x.fn 0x02 x.sqe.cdw11.toNat s.dev).modPwr fun p => { p with sel := mapSet 0 p.sel x.fn (bits x.sqe.cdw11.toNat 4 0) }
      else putFeat x.fn 0x02 x.sqe.cdw11.toNat s.dev) := by
    rw [setPower]; exact if_neg (by omega)
  rw [row]
  cases isPf x.fn with
  | true => exact ⟨taken.completes (by rfl) _, fun _ => by rw [Dev.finish_pwr]; exact mapGet_set_same .., nofun⟩
  | false => exact ⟨taken.completes (by rfl) _, nofun, fun _ => by rw [Dev.finish_pwr]; rfl⟩

theorem setApst_stores {op : Nat} (taken : Taken s.dev k true op x) (t : List DWord) :
    if t.any fun e => decide (apstItpt e ≠ 0) && (decide (apstItps e < 3) || decide (4 < apstItps e)) then
      Completes (setApst k t x s.dev) k stInvalidField
    else Completes (setApst k t x s.dev) k success ∧ ((setApst k t x s.dev).func x.fn).feat 0x0C 0 = bits x.sqe.cdw11.toNat 0 0 := by
  unfold setApst
  dsimp only
  split
  · exact taken.completes (by rfl) _
  · exact ⟨taken.completes (by exact apstEntries_slots ..) _, by rw [finish_func, apstEntries_feat, putFeat_feat]⟩

theorem getFeature_answers {op v : Nat} {bs : List Byte} (taken : Taken s.dev k true op x) (held : featValue s.dev x.fn x.sqe = .ok (v, bs)) :
    Completes (getFeature k x s.dev) k (successWith v) := by
  unfold getFeature
  rw [held]
  cases bs with
  | nil => exact taken.completes (by rfl) _
  | cons b bs => exact taken.completes (send_slots ..) _

end

/-- Settles O22: each row completes behind one change of the function's features or of the power state. -/
theorem featuresAct : Obligations.FeaturesAct := by
  refine ⟨fun k s x taken known => ?_, fun k s x taken fid => ?_, fun k s x taken fid valid => ?_, fun k t s x taken fid full => ?_,
    fun k ts s x taken fid => ?_, fun k s x ns taken fid present => ?_, fun k s x taken fid => ?_, fun k s x taken fid sel thsel => ?_,
    fun k s x v bs taken fid held => ?_, fun k s x taken fid heard => ?_⟩
  · have plain : (!ownSetRow (Sqe.fid x.sqe)) = true := by
      obtain fid | fid : Sqe.fid x.sqe = 0x01 ∨ Sqe.fid x.sqe = 0x05 := by simpa using known
      all_goals rw [fid]; rfl
    exact givesDev_featRow (p := fun f => !ownSetRow f) taken plain (setFeature_stores taken known)
  · exact givesDev_featRow (p := fun f => decide (f = 0x07)) taken (by simp [fid]) (taken.completes (by rfl) _)
  · exact givesDev_featRow (p := fun f => decide (f = 0x02)) taken (by simp [fid]) (setPower_selects taken valid)
  · change GivesDev (execSetFeaturesApst k t s) s _
    rw [execSetFeaturesApst, if_pos full]
    exact givesDev_featRow (p := fun f => decide (f = 0x0C)) taken (by simp [fid]) (setApst_stores taken t)
  · exact givesDev_featRow (p := fun f => decide (f = 0x0E)) (g := fun _ d => setStamp k ts.toNat d) taken (by simp [fid])
      ⟨taken.completes (by rfl) _, by rw [setStamp, Dev.finish_pwr]; rfl⟩
  · refine givesDev_featRow (p := fun f => decide (f = 0xC1)) (g := setService k) taken (by simp [fid]) ?_
    rw [setService, present]
    exact taken.completes (by rfl) _
  · exact givesDev_featRow (p := fun f => decide (f = 0x0B)) taken (by simp [fid]) ⟨taken.completes (by rfl) _, putFeat_held ..⟩
  · refine givesDev_featRow (p := fun f => decide (f = 0x04)) (g := setTemp k) taken (by simp [fid]) ?_
    rw [setTemp, if_neg (by simp; omega)]
    exact ⟨taken.completes (by rfl) _, putFeat_held ..⟩
  · exact givesDev_featRow (p := fun f => decide (f ≠ 0x0E)) taken (by simp [fid]) (getFeature_answers taken held)
  · exact givesDev_featRow (p := fun f => decide (f = 0x0E)) taken (by simp [fid])
      ⟨taken.completes (send_slots ..) _, by rw [Dev.finish_out]; exact send_out heard⟩

end Sys2Proof.Machine

/-! PROOFS. Log pages, Identify, firmware, self-test and erase commands. -/

namespace Sys2Proof.Machine

section
variable {s : State} {k : Nat} {x : Slot}

/-! ### Pages sent to the host (R72, R74) -/

theorem logRead_out (f lid off n : Nat) (d : Dev) : (logRead f lid off n d).out = d.out := by
  unfold logRead; split <;> rfl

theorem logSeen_out (f lid nsid : Nat) (d : Dev) : (logSeen f lid nsid d).out = d.out := by
  unfold logSeen; dsimp only; split <;> rfl

/-- A page that is there, from an offset inside it, goes to the host. -/
theorem getLogPage_sends {op : Nat} (taken : Taken s.dev k true op x) (known : logKnown x.fn (bits x.sqe.cdw10.toNat 7 0) = true)
    (heard : s.dev.mute x.fn = false)
    (present : bits x.sqe.cdw10.toNat 7 0 = 0x02 ∨ bits x.sqe.cdw10.toNat 7 0 = 0xBF → ∃ ns, s.dev.nsOf x.fn x.sqe.nsid.toNat = some ns)
    (inside : x.sqe.cdw12.toNat + x.sqe.cdw13.toNat * 2 ^ 32 ≤ (logPage s.dev x.fn (bits x.sqe.cdw10.toNat 7 0) x.sqe.nsid.toNat).1) :
    Completes (getLogPage k x s.dev) k success ∧
      (getLogPage k x s.dev).out = .hostBytes x.fn x.sqe.cid.toNat
        (pageSlice (logPage s.dev x.fn (bits x.sqe.cdw10.toNat 7 0) x.sqe.nsid.toNat).1 (x.sqe.cdw12.toNat + x.sqe.cdw13.toNat * 2 ^ 32) 
          (4 * (bits x.sqe.cdw10.toNat 31 16 + bits x.sqe.cdw11.toNat 15 0 * 2 ^ 16 + 1))
          (logPage s.dev x.fn (bits x.sqe.cdw10.toNat 7 0) x.sqe.nsid.toNat).2) :: s.dev.out := by
  have zones : ¬(bits x.sqe.cdw10.toNat 7 0 = 0xBF && (s.dev.nsOf x.fn x.sqe.nsid.toNat).isNone) = true := fun missing => by
    simp only [Bool.and_eq_true, decide_eq_true_eq] at missing
    obtain ⟨ns, found⟩ := present (.inr missing.1)
    simp [found] at missing
  have smart : ¬(bits x.sqe.cdw10.toNat 7 0 = 0x02 && x.sqe.nsid.toNat ≠ 0 && x.sqe.nsid.toNat ≠ 0xFFFFFFFF &&
      (s.dev.nsOf x.fn x.sqe.nsid.toNat).isNone) = true := fun missing => by
    simp only [Bool.and_eq_true, decide_eq_true_eq] at missing
    obtain ⟨ns, found⟩ := present (.inl missing.1.1.1)
    simp [found] at missing
  have sent : ∀ (bs : List Byte) (e : Dev), e = (s.dev.send (.hostBytes x.fn x.sqe.cid.toNat bs)).tick 1 →
      e.host.slots = s.dev.host.slots ∧ e.out = .hostBytes x.fn x.sqe.cid.toNat bs :: s.dev.out := by
    rintro bs _ rfl
    exact ⟨send_slots .., send_out heard⟩
  unfold getLogPage
  extract_lets q lid n off nsid
  rw [if_neg (by rw [known]; decide), if_neg zones, if_neg smart]
  generalize logPage s.dev x.fn (bits x.sqe.cdw10.toNat 7 0) x.sqe.nsid.toNat = page at inside ⊢
  obtain ⟨size, bytes⟩ := page
  dsimp only at inside ⊢
  rw [if_neg (show ¬size < off from Nat.not_lt.mpr inside)]
  obtain ⟨slots, out⟩ := sent _ _ rfl
  split
  · exact ⟨taken.completes ((logRead_slots ..).trans slots) _, by rw [Dev.finish_out, logRead_out]; exact out⟩
  · exact ⟨taken.completes ((logSeen_slots ..).trans ((logRead_slots ..).trans slots)) _, by
      rw [Dev.finish_out, logSeen_out, logRead_out]; exact out⟩

/-! ### Firmware (R372, R375) -/

/-- A page of 4 KiB at a page's offset lands whole. -/
theorem firmwareDownload_page {op : Nat} {bs : List Byte} (taken : Taken s.dev k true op x) (length : x.sqe.cdw10.toNat = 1023)
    (aligned : x.sqe.cdw11.toNat % 1024 = 0) (inside : x.sqe.cdw11.toNat < 5120 * 1024) (whole : bs.length = 4096) :
    ∃ d, firmwareDownload k bs x s.dev = .ok d ∧ Completes d k success ∧
      mapFind d.sys.download (x.sqe.cdw11.toNat / 1024) = some bs := by
  refine ⟨finish k success (s.dev.modSys fun y => { y with download := mapInsert y.download (x.sqe.cdw11.toNat / 1024) bs }), ?_,
    taken.completes (by rfl) _, ?_⟩
  · have chunk : chunks 4096 1 bs = [bs] := by rw [chunks, List.take_of_length_le (by omega)]; rfl
    have place : 4 * x.sqe.cdw11.toNat / 4096 = x.sqe.cdw11.toNat / 1024 := by omega
    have misplaced : ¬(decide (4 * (1023 + 1) % 4096 ≠ 0) || decide (4 * x.sqe.cdw11.toNat % 4096 ≠ 0) ||
        decide (maxImage < 4 * x.sqe.cdw11.toNat + 4 * (1023 + 1))) = true := by
      have page : 4 * x.sqe.cdw11.toNat % 4096 = 0 := by omega
      have fits : ¬maxImage < 4 * x.sqe.cdw11.toNat + 4 * (1023 + 1) := by unfold maxImage; omega
      simp [page, fits]
    unfold firmwareDownload
    simp only [length]
    rw [if_neg misplaced, if_neg (by simp [whole]), place, chunk]
    rfl
  · rw [Dev.finish_sys]
    exact mapFind_insert_same ..

/-- An image that is there becomes the pending one. -/
theorem commitActivate_pending {op : Nat} (taken : Taken s.dev k true op x) (slot : bits x.sqe.cdw10.toNat 2 0 ∈ [1, 2, 3])
    (holds : s.dev.nvm.slotBytes (bits x.sqe.cdw10.toNat 2 0) ≠ []) :
    Completes (commitActivate k x s.dev) k success ∧ (commitActivate k x s.dev).nvm.pending = bits x.sqe.cdw10.toNat 2 0 ∧
      (commitActivate k x s.dev).nvm.fw = s.dev.nvm.fw := by
  have valid : ¬(bits x.sqe.cdw10.toNat 2 0 = 0 || 3 < bits x.sqe.cdw10.toNat 2 0 ||
      (s.dev.nvm.slotBytes (bits x.sqe.cdw10.toNat 2 0)).isEmpty) = true := by
    simp only [List.mem_cons, List.not_mem_nil, or_false] at slot
    simp [holds]
    omega
  obtain ⟨fw, pending, _⟩ := raiseSvn_nvm x.sqe (s.dev.modNvm fun n => { n with pending := bits x.sqe.cdw10.toNat 2 0 })
  unfold commitActivate
  dsimp only
  rw [if_neg valid]
  refine ⟨taken.completes (by rw [raiseSvn_host]; rfl) _, ?_, ?_⟩
  · rw [Dev.finish_nvm, pending]; rfl
  · rw [Dev.finish_nvm, fw]; rfl

/-! ### Device self-test (R284) -/

/-- A self-test starts where none runs. -/
theorem selfTestRow_starts {code : Nat} (taken : Taken s.dev k true 0x14 x) (named : bits x.sqe.cdw10.toNat 3 0 = code)
    (all : x.sqe.nsid.toNat = 0xFFFFFFFF) (idle : s.dev.host.selfTest = 0) :
    GivesDev (onDev s (selfTestRow code k)) s fun d => Completes d k success ∧ d.host.selfTest = code := by
  obtain ⟨slots, runs⟩ := startSelfTest_host code (finish k success s.dev)
  refine givesDev_of_ok (d := startSelfTest code (finish k success s.dev)) ?_ ⟨?_, runs⟩
  · rw [selfTestRow, onSlot_taken taken, if_neg (not_not.mpr named), if_neg (not_not.mpr all), if_neg (not_not.mpr idle)]
  · obtain ⟨y, found, due, result⟩ := taken.completes (e := s.dev) rfl success
    refine ⟨y, ?_, due, result⟩
    rw [← found, Dev.slot?, Dev.slot?, slots]

theorem finish_selfTest (k : Nat) (c : Cpl) (d : Dev) : (finish k c d).host.selfTest = d.host.selfTest := by
  unfold finish Dev.modSlot; split <;> rfl

theorem selfTestAbort_ends (taken : Taken s.dev k true 0x14 x) (named : bits x.sqe.cdw10.toNat 3 0 = 0xF)
    (all : x.sqe.nsid.toNat = 0xFFFFFFFF) :
    GivesDev (onDev s (selfTestAbort k)) s fun d => Completes d k success ∧ d.host.selfTest = 0 := by
  refine givesDev_of_ok (d := finish k success (if s.dev.host.selfTest = 0 then s.dev else endSelfTest 1 s.dev)) ?_ ?_
  · rw [selfTestAbort, onSlot_taken taken, if_neg (not_not.mpr named), if_neg (not_not.mpr all)]
  · have ended : (if s.dev.host.selfTest = 0 then s.dev else endSelfTest 1 s.dev).host.selfTest = 0 := by
      split
      · assumption
      · rfl
    exact ⟨taken.completes (by split <;> rfl) _, (finish_selfTest ..).trans ended⟩

/-! ### Cryptographic erase (R303) -/

theorem cryptoErases_hostSlots (ns : List Nat) (d : Dev) : (ns.foldl (fun d n => cryptoErase n d) d).host.slots = d.host.slots :=
  foldl_keeps (fun e : Dev => e.host.slots = d.host.slots) rfl fun e n same => (cryptoErase_hostSlots n e).trans same

end

/-- Settles O23: each row completes behind one change of the device. -/
theorem adminCommandsAct : Obligations.AdminCommandsAct := by
  refine ⟨fun k s x taken known heard present inside => givesDev_onSlot taken rfl (getLogPage_sends taken known heard present inside),
    fun k s x p taken page heard => ?_, fun k bs s x taken length aligned inside whole => ?_, fun k s x taken action slot sound => ?_,
    fun k s x taken action slot sound => ?_, fun k s x taken action slot holds => commit_gives taken action (commitActivate_pending taken slot holds),
    fun k s x taken action slot sound => ?_, fun k s x taken named all idle => selfTestRow_starts taken named all idle,
    fun k s x taken named all idle => selfTestRow_starts taken named all idle, fun k s x taken named all => selfTestAbort_ends taken named all,
    fun k s x ns taken action present quiet => ?_, fun k s x taken action quiet => ?_⟩
  · refine givesDev_onSlot (d := identify k x s.dev) taken rfl ?_
    rw [identify, page]
    dsimp only
    exact ⟨taken.completes (by exact send_slots ..) _, by rw [Dev.finish_out]; exact send_out heard⟩
  · obtain ⟨d, row, lands⟩ := firmwareDownload_page taken length aligned inside whole
    exact givesDev_onSlot taken row lands
  · obtain ⟨completes, stored, cleared, e, kept, pending, _⟩ :=
      commitWrite_ok (k := k) (t := fun _ d => d) taken.1 slot sound fun _ _ => ⟨rfl, rfl, rfl⟩
    exact commit_gives (g := fun x d => commitWrite k x (fun _ d => d) d) taken action ⟨completes, stored, pending.trans kept, cleared⟩
  · obtain ⟨completes, stored, _, e, _, pending, _⟩ :=
      commitWrite_ok (k := k) (t := fun fs d => d.modNvm fun n => { n with pending := fs }) taken.1 slot sound fun _ _ => ⟨rfl, rfl, rfl⟩
    exact commit_gives (g := fun x d => commitWrite k x (fun fs d => d.modNvm fun n => { n with pending := fs }) d) taken action
      ⟨completes, stored, pending⟩
  · obtain ⟨completes, stored, _, e, _, pending, active⟩ :=
      commitWrite_ok (k := k) (t := fun fs d => (d.modNvm fun n => { n with active := fs, pending := 0 }).wr Fd.GRV_BOOT_SLOT fs) taken.1 slot sound
        fun _ _ => ⟨by rw [Dev.wr_host]; rfl, by rw [Dev.wr_nvm]; rfl, by rw [Dev.wr_sys]; rfl⟩
    rw [Dev.wr_nvm] at pending active
    exact commit_gives
      (g := fun x d => commitWrite k x (fun fs d => (d.modNvm fun n => { n with active := fs, pending := 0 }).wr Fd.GRV_BOOT_SLOT fs) d) taken action
      ⟨completes, stored, active, pending⟩
  · refine givesDev_onSlot (d := formatNvm k x s.dev) taken rfl ?_
    rw [formatNvm, if_neg (not_not.mpr action), present]
    dsimp only
    rw [if_pos quiet]
    exact taken.completes (cryptoErase_hostSlots ..) _
  · refine givesDev_onSlot (d := sanitize k x s.dev) taken rfl ?_
    rw [sanitize, if_neg (not_not.mpr action), if_pos quiet]
    exact taken.completes (cryptoErases_hostSlots ..) _

end Sys2Proof.Machine

/-! PROOFS. Reads, writes, appends and flushes of the host start. -/

namespace Sys2Proof.Machine

section
variable {d d1 : Dev} {k : Nat} {x : Slot} {ns : Ns}

/-! ### Flush -/

/-- A Flush with nothing before it completes. -/
theorem flush_completes (taken : Taken d k false 0x00 x) (present : d.nsOf x.fn x.sqe.nsid.toNat = some ns) (noFence : d.atFence x = false)
    (noWarning : d.mustDeliver x = none) : ∃ e, flush k d = .ok e ∧ Completes e k success := by
  refine ⟨finish k success (d.modSlot k fun x => { x with committed := true }), ?_, completes_finish _ (modSlot_slot _ taken.1)⟩
  rw [flush, onSlot_taken taken]
  simp only [present, noFence, noWarning, Bool.false_eq_true, if_false]

/-! ### Writes to a conventional namespace (R346) -/

theorem issueSearch_entry (k : Nat) (x : Slot) (d : Dev) (i : Nat) : (issueSearch k x d).cam.entry i = d.cam.entry i := by
  change (d.spendSearch.countHit false _).cam.entry i = _
  rw [(Dev.countHit_keeps ..).cam (by rfl)]
  rfl

/-- A write takes a free index, makes its entry there, and waits. -/
theorem convWrite_enters {i : Nat} (slot : d.slot? k = some x) (serves : d.is Fd.CAM_CTL_HOLD = false) (may : d.camWriteFor x.fn = true)
    (free : d.camLowFree d.camFuel 0 = some i) :
    (convWrite k x d).cam.entry i = { st := .live, poison := false
                                      data := camWriteEntry x.sqe.nsid.toNat x.sqe.slba (x.sqe.slba + x.sqe.nlb - 1) x.seq k } ∧
      ∃ y, (convWrite k x d).slot? k = some y ∧ y.phase = .waiting ∧ y.cam = some i ∧ y.start = x.sqe.slba ∧ y.total = x.sqe.nlb := by
  unfold convWrite
  rw [if_neg (by rw [serves]; decide), if_neg (by rw [may]; decide), free]
  dsimp only
  generalize made : d.camMake i (camWriteEntry x.sqe.nsid.toNat x.sqe.slba (x.sqe.slba + x.sqe.nlb - 1) x.seq k) = e
  have entry : e.cam.entry i = { st := .live, poison := false
                                 data := camWriteEntry x.sqe.nsid.toNat x.sqe.slba (x.sqe.slba + x.sqe.nlb - 1) x.seq k } := by
    rw [← made]; exact entry_setEntry_same ..
  have held : e.slot? k = some x := by rw [← made]; exact slot
  generalize waits : e.modSlot k (fun x' => { x' with phase := .waiting, cam := some i, start := x.sqe.slba, total := x.sqe.nlb }) = f
  have entryF : f.cam = e.cam := by rw [← waits]; exact Dev.modSlot_cam ..
  have slotF : f.slot? k = some { x with phase := .waiting, cam := some i, start := x.sqe.slba, total := x.sqe.nlb } := by
    rw [← waits]; exact modSlot_slot _ held
  have capped := capWait_keeps x.sqe.nsid.toNat x.sqe.nlb f
  have entryG : (capWait x.sqe.nsid.toNat x.sqe.nlb f).cam = e.cam := (capped.cam (by rfl)).trans entryF
  have slotG : (capWait x.sqe.nsid.toNat x.sqe.nlb f).slot? k = _ := (capped.slot k (by rfl)).trans slotF
  split
  · exact ⟨by rw [entryG]; exact entry, _, slotG, rfl, rfl, rfl, rfl⟩
  · exact ⟨by rw [issueSearch_entry, entryG]; exact entry, _, (issueSearch_adds slotG x).2, rfl, rfl, rfl, rfl⟩

/-! ### Writes and appends to a zone (R119, R128) -/

/-- A write takes the zone's check pointer as its position and moves it on. -/
theorem takePlace_places {y : Slot} {nsid z : Nat} (slot : d.slot? k = some y) :
    ((takePlace k x nsid z d).zone nsid z).cp = (d.zone nsid z).cp + x.sqe.nlb ∧
      ∃ w, (takePlace k x nsid z d).slot? k = some w ∧ w.phase = .waiting ∧ w.zone = some (zoneKey nsid z) ∧
        w.start = zoneStart z + (d.zone nsid z).cp ∧ w.total = x.sqe.nlb := by
  unfold takePlace
  extract_lets zone n start before token d2 d3
  have slot2 : d2.slot? k = some y := ((Dev.modZone_keeps ..).slot k (by rfl)).trans slot
  have zone2 : (d2.zone nsid z).cp = zone.cp + n := congrArg Zone.cp (zone_modZone_same d nsid z _)
  have slot3 := modSlot_slot
    (fun x => { x with phase := .waiting, zone := some (zoneKey nsid z), start := start, total := n, after := x.after ++ before }) slot2
  have zm : (capWait nsid n (syncZone nsid z d3)).zm = d2.zm :=
    ((capWait_keeps ..).zm (by rfl)).trans (((syncZone_keeps ..).zm (by rfl)).trans (Dev.modSlot_zm ..))
  refine ⟨?_, _, (((capWait_keeps ..).slot k (by rfl)).trans ((syncZone_keeps ..).slot k (by rfl))).trans slot3, rfl, rfl, rfl, rfl⟩
  rw [Dev.zone, zm]
  exact zone2

theorem placeWrite_places {y : Slot} {nsid z : Nat} (slot : d.slot? k = some y) (placed : d.placeRefusal nsid z x.sqe = none)
    (room : d.zoneEntryRoom nsid z = true) (bound : (d.zone nsid z).st ≠ .empty) : placeWrite k x ns nsid z d = takePlace k x nsid z d := by
  have notEmpty : ((d.zone nsid z).st == .empty) = false := by simpa using bound
  unfold placeWrite
  rw [placed]
  dsimp only
  rw [room, notEmpty]
  rfl

/-- What a lookup leaves: the slots and the zones. -/
theorem zoneLookup_leaves {first hold : Bool} {nsid z : Nat} (found : zoneLookup first nsid z d = (hold, d1)) :
    d1.host = d.host ∧ d1.zm = d.zm := by
  have keeps : DevKeeps 0x50000000000000000000000000000008002 d d1 := by
    have lookup := zoneLookup_keeps first nsid z d
    rw [found] at lookup
    exact lookup
  exact ⟨keeps.host (by rfl), keeps.zm (by rfl)⟩

theorem Dev.placeRefusal_modSlot (d : Dev) (k : Nat) (f : Slot → Slot) (nsid z : Nat) (q : Sqe) :
    (d.modSlot k f).placeRefusal nsid z q = d.placeRefusal nsid z q := by
  unfold Dev.modSlot; split <;> rfl

/-- A write or append to a bound zone that takes it gets its position. -/
theorem zoneWrite_places (slot : d.slot? k = some x) (first : d.behindSend x x.sqe.nsid.toNat (sqeZone x.sqe) = false)
    (found : zoneLookup (x.phase == .fetched) x.sqe.nsid.toNat (sqeZone x.sqe) d = (false, d1))
    (fresh : d1.landSearch x.sqe.nsid.toNat (sqeZone x.sqe) x.sqe = none) (takes : d1.writeRefusal x.sqe.nsid.toNat (sqeZone x.sqe) x = none)
    (here : d1.zoneGone x.sqe.nsid.toNat (sqeZone x.sqe) = false) (held : d1.zoneLost x.sqe.nsid.toNat (sqeZone x.sqe) = false)
    (placed : d1.placeRefusal x.sqe.nsid.toNat (sqeZone x.sqe) x.sqe = none) (room : d1.zoneEntryRoom x.sqe.nsid.toNat (sqeZone x.sqe) = true)
    (bound : (d1.zone x.sqe.nsid.toNat (sqeZone x.sqe)).st ≠ .empty) :
    ((zoneWrite k x ns d).zone x.sqe.nsid.toNat (sqeZone x.sqe)).cp = (d1.zone x.sqe.nsid.toNat (sqeZone x.sqe)).cp + x.sqe.nlb ∧
      ∃ y, (zoneWrite k x ns d).slot? k = some y ∧ y.phase = .waiting ∧ y.zone = some (zoneKey x.sqe.nsid.toNat (sqeZone x.sqe)) ∧
        y.start = zoneStart (sqeZone x.sqe) + (d1.zone x.sqe.nsid.toNat (sqeZone x.sqe)).cp ∧ y.total = x.sqe.nlb := by
  have slot1 : d1.slot? k = some x := by rw [Dev.slot?, (zoneLookup_leaves found).1]; exact slot
  have row : zoneWrite k x ns d = takePlace k x x.sqe.nsid.toNat (sqeZone x.sqe) (d1.modSlot k fun x => { x with landing := none }) := by
    unfold zoneWrite
    rw [if_neg (by rw [first]; decide), found]
    dsimp only
    rw [if_neg Bool.false_ne_true, fresh]
    dsimp only
    rw [takes]
    dsimp only
    rw [if_neg (by rw [here]; decide), if_neg (by rw [held]; decide)]
    exact placeWrite_places (modSlot_slot _ slot1) (by rw [Dev.placeRefusal_modSlot]; exact placed)
      (by rw [zoneEntryRoom_congr (Dev.modSlot_cam ..) (Dev.modSlot_regs ..)]; exact room) (by rw [zone_modSlot]; exact bound)
  rw [row, ← zone_modSlot d1 k fun x => { x with landing := none }]
  exact takePlace_places (modSlot_slot _ slot1)

/-! ### Reads (R121, R345) -/

theorem convRead_searches (slot : d.slot? k = some x) (normal : x.maint = false) (first : x.total = 0) (serves : d.is Fd.CAM_CTL_HOLD = false) :
    (∃ h, (convRead k x ns d).cam.searches = d.cam.searches ++ [(k, h)]) ∧
      ∃ y, (convRead k x ns d).slot? k = some y ∧ y.phase = .waiting ∧ y.total = x.sqe.nlb := by
  unfold convRead
  rw [if_neg (by rw [normal]; decide), if_pos first, if_neg (by rw [serves]; decide)]
  obtain ⟨⟨h, searches⟩, slots⟩ := issueSearch_adds (modSlot_slot (fun y => { y with phase := .waiting, total := y.sqe.nlb }) slot) x
  exact ⟨⟨h, by rw [searches, Dev.modSlot_cam]⟩, _, slots, rfl, rfl⟩

/-- A read of programmed sectors of a zone is served. -/
theorem zoneRead_serves (present : d.ns? x.sqe.nsid.toNat = some ns) (first : d.behindSend x x.sqe.nsid.toNat (sqeZone x.sqe) = false)
    (online : (d.zone x.sqe.nsid.toNat (sqeZone x.sqe)).st ≠ .offline)
    (written : x.sqe.slba - zoneStart (sqeZone x.sqe) + x.sqe.nlb ≤ (d.zone x.sqe.nsid.toNat (sqeZone x.sqe)).wp)
    (found : zoneLookup (x.phase == .fetched) x.sqe.nsid.toNat (sqeZone x.sqe) d = (false, d1)) (readable : d1.readable x.sqe ns) :
    (zoneRead k x ns d).readServed x.sqe.nsid.toNat x.sqe.nlb ns := by
  have here : ((d.zone x.sqe.nsid.toNat (sqeZone x.sqe)).st == .offline) = false := by simpa using online
  have present1 : d1.ns? x.sqe.nsid.toNat = some ns := by rw [Dev.ns?, (zoneLookup_leaves found).2]; exact present
  have idle : ¬(d.zone x.sqe.nsid.toNat (sqeZone x.sqe)).wp < x.sqe.slba - zoneStart (sqeZone x.sqe) + x.sqe.nlb := Nat.not_lt.mpr written
  unfold zoneRead
  dsimp only
  rw [if_neg (by rw [first]; decide), if_neg (by rw [here]; decide), found]
  simp only [idle, decide_false, Bool.false_and, Bool.false_eq_true, if_false]
  refine serveRead_served ?_ ((modSlot_readable ..).mpr readable)
  rw [Dev.ns?, Dev.modSlot_zm]
  exact present1

/-! ### Searches (R345, R348) -/

/-- A hit makes the command wait on the entry found; a miss lets it go on. -/
theorem searchResult_goesOn {e : Nat × Option CamHit} (pending : d.cam.searches.find? (fun e => decide (e.1 = k)) = some e) :
    ∃ f, searchResult k d = .ok f ∧ match e.2 with
      | some h => f.cam.waits = d.cam.waits ++ [(k, h.index)] ∧ f.host = d.host
      | none => f.cam.waits = d.cam.waits ∧
        ∀ x ns, d.slot? k = some x → d.ns? x.sqe.nsid.toNat = some ns → x.isWrite = false → d.readable x.sqe ns →
          f.readServed x.sqe.nsid.toNat x.sqe.nlb ns := by
  unfold searchResult
  rw [pending]
  obtain ⟨j, hit⟩ := e
  cases hit with
  | some h =>
    dsimp only
    exact ⟨_, rfl, by rw [Dev.add_cam]; rfl, by rw [Dev.add_host]; rfl⟩
  | none =>
    dsimp only
    generalize left : d.modCam (fun c => { c with searches := listEraseFirst (fun y => decide (y.1 = k)) c.searches }) = d2
    have same : d2.slot? k = d.slot? k ∧ d2.ns? = d.ns? ∧ d2.cam.waits = d.cam.waits ∧ ∀ x ns, d2.readable x ns ↔ d.readable x ns := by
      rw [← left]; exact ⟨rfl, rfl, rfl, fun _ _ => Iff.rfl⟩
    obtain ⟨slots, namespaces, waits, reads⟩ := same
    rw [slots]
    cases slot : d.slot? k with
    | none => exact ⟨_, rfl, waits, fun _ _ found => absurd found.symm (Option.some_ne_none _)⟩
    | some x =>
      dsimp only
      rw [namespaces]
      cases present : d.ns? x.sqe.nsid.toNat with
      | none =>
        refine ⟨_, rfl, waits, ?_⟩
        rintro _ ns ⟨⟩ found
        rw [present] at found
        cases found
      | some ns =>
        dsimp only
        cases writes : x.isWrite with
        | true =>
          refine ⟨_, rfl, waits, ?_⟩
          rintro _ _ ⟨⟩ _ isRead
          rw [writes] at isRead
          cases isRead
        | false =>
          refine ⟨_, rfl, ?_, ?_⟩
          · rw [← waits, (serveRead_keeps ..).cam (by rfl)]
          · rintro _ ns' ⟨⟩ found _ readable
            rw [present] at found
            cases found
            exact serveRead_served (by rw [namespaces]; exact present) ((reads ..).mpr readable)

/-- A command whose entry is gone searches again. -/
theorem research_searches {e : Nat × Nat} (waits : d.cam.waits.find? (fun e => decide (e.1 = k)) = some e) (slot : d.slot? k = some x)
    (gone : d.entryGone x e.2 = true) (serves : d.is Fd.CAM_CTL_HOLD = false) (left : d.cam.left ≠ 0) :
    ∃ f, research k d = .ok f ∧ f.cam.searches = d.cam.searches ++ [(k, d.camSearch (overlapKey x))] ∧ f.cam.left = d.cam.left - 1 := by
  refine ⟨issueSearch k x (d.modCam fun c => { c with waits := listEraseFirst (fun y => decide (y.1 = k)) c.waits }), ?_, ?_⟩
  · unfold research
    rw [waits, slot]
    simp only [gone, serves, Bool.not_true, Bool.or_self, Bool.false_eq_true, if_false, left]
  · generalize same : d.modCam (fun c => { c with waits := listEraseFirst (fun y => decide (y.1 = k)) c.waits }) = d2
    have parts : d2.cam.searches = d.cam.searches ∧ d2.cam.left = d.cam.left ∧ d2.camSearch (overlapKey x) = d.camSearch (overlapKey x) := by
      rw [← same]; exact ⟨rfl, rfl, rfl⟩
    obtain ⟨searches, budget, result⟩ := parts
    have spent : (d2.spendSearch.countHit false (d2.camSearch (overlapKey x))).cam = d2.spendSearch.cam := (Dev.countHit_keeps ..).cam (by rfl)
    unfold issueSearch
    change (d2.spendSearch.countHit _ _).cam.searches ++ _ = _ ∧ (d2.spendSearch.countHit _ _).cam.left = _
    rw [spent, result]
    exact ⟨congrArg (· ++ _) searches, congrArg (· - 1) budget⟩

end

/-- The rows of writes are one write, each with its own operation code. -/
theorem exec_write {op : Nat} {c : Instr} {k : Fin 131072} (write : (op, c) ∈ [(0x01, Instr.writeCmd k), (0x08, .writeZeroes k), (0x7D, .zoneAppend k)])
    (s : State) : exec c s = onDev s (writeRow k op) := by
  simp only [List.mem_cons, Prod.mk.injEq, List.not_mem_nil, or_false] at write
  obtain ⟨rfl, rfl⟩ | ⟨rfl, rfl⟩ | ⟨rfl, rfl⟩ := write
  all_goals rfl

/-- The rows of reads are one read, each with its own operation code. -/
theorem exec_read {op : Nat} {c : Instr} {k : Fin 131072} (read : (op, c) ∈ [(0x02, Instr.readCmd k), (0x0C, .verifyCmd k)])
    (s : State) : exec c s = onDevThen s (readRow k op) afterRead := by
  simp only [List.mem_cons, Prod.mk.injEq, List.not_mem_nil, or_false] at read
  obtain ⟨rfl, rfl⟩ | ⟨rfl, rfl⟩ := read
  all_goals rfl

/-- A read that may run runs by its namespace. -/
theorem readRow_ready {d : Dev} {k op : Nat} {x : Slot} {ns : Ns} (ready : IoReady d k op x ns) :
    readRow k op d = .ok (if ns.zoned then zoneRead k x ns d else convRead k x ns d) := ioCommand_ready ready

/-- A write that may run, in an epoch that takes it, runs by its namespace. -/
theorem writeRow_ready {d : Dev} {k op : Nat} {x : Slot} {ns : Ns} (ready : IoReady d k op x ns) (epoch : d.epochSpent x.sqe.nsid.toNat = false) :
    writeRow k op d = .ok (if ns.zoned then zoneWrite k x ns d else convWrite k x d) := by
  rw [writeRow, ioCommand_ready ready, if_neg (by rw [epoch]; decide)]

/-- Settles O24: a command that may run does what its namespace's kind says. -/
theorem readsAndWritesStart : Obligations.ReadsAndWritesStart := by
  refine ⟨fun k s x ns taken present noFence noWarning => ?_, fun op c k s x ns i row ready conv epoch serves may free => ?_,
    fun op c k s x ns d1 row ready zoned epoch first found fresh takes here held placed room bound => ?_,
    fun op c k s x ns row ready => ⟨fun conv normal first serves => ?_, fun conv maint readable => ?_,
      fun d1 zoned first online written found readable => ?_⟩,
    fun k s e pending => givesThen_of_exists (searchResult_goesOn pending),
    fun k s e x waits slot gone serves left => ?_⟩
  · obtain ⟨d, next, completes⟩ := flush_completes taken present noFence noWarning
    exact givesDev_of_ok next completes
  · have write : (op, c) ∈ [(0x01, Instr.writeCmd k), (0x08, .writeZeroes k), (0x7D, .zoneAppend k)] := by
      simp only [List.mem_cons, List.not_mem_nil, or_false] at row ⊢
      exact row.imp_right .inl
    have slot := ready.1.1
    rw [exec_write write]
    exact givesDev_of_ok (d := convWrite k x s.dev) (by rw [writeRow_ready ready epoch, conv, if_neg Bool.false_ne_true]) (convWrite_enters slot serves may free)
  · have slot := ready.1.1
    rw [exec_write row]
    exact givesDev_of_ok (d := zoneWrite k x ns s.dev) (by rw [writeRow_ready ready epoch, zoned, if_pos rfl]) (zoneWrite_places slot first found fresh takes here held placed room bound)
  · have slot := ready.1.1
    rw [exec_read row]
    exact givesThen_of_ok (d := convRead k x ns s.dev) (by rw [readRow_ready ready, conv, if_neg Bool.false_ne_true]) (convRead_searches slot normal first serves)
  · have present := ready.2.2.2.1
    have served : convRead k x ns s.dev = serveRead k x ns s.dev := by rw [convRead, if_pos maint]
    rw [exec_read row]
    exact givesThen_of_ok (d := convRead k x ns s.dev) (by rw [readRow_ready ready, conv, if_neg Bool.false_ne_true])
      (by rw [served]; exact serveRead_served (nsOf_ns present) readable)
  · have present := nsOf_ns ready.2.2.2.1
    rw [exec_read row]
    exact givesThen_of_ok (d := zoneRead k x ns s.dev) (by rw [readRow_ready ready, zoned, if_pos rfl]) (zoneRead_serves present first online written found readable)
  · obtain ⟨d, next, searches⟩ := research_searches waits slot gone serves left
    exact givesDev_of_ok next searches

end Sys2Proof.Machine

/-! PROOFS. Data of writes lands, and writes commit. -/

namespace Sys2Proof.Machine

section
variable {d : Dev} {k : Nat} {x : Slot}

/-! ### Grants (R93, R145) -/

theorem takeStage_slot (t n k : Nat) (d : Dev) : (takeStage t n d).1.slot? k = d.slot? k := by
  unfold takeStage; split <;> rfl

theorem takeStage_ciph (t n : Nat) (d : Dev) : (takeStage t n d).1.ciph = d.ciph := by
  unfold takeStage; split <;> rfl

theorem takeStage_out (t n : Nat) (d : Dev) : (takeStage t n d).1.out = d.out := by
  unfold takeStage; split <;> rfl

/-- Zeros made for every sector of a write leave the slots. -/
theorem zerosMade_slot (k j n : Nat) (p : Payload) (d : Dev) : (forUpTo n (fun i d => toWriteQ k i p d) d).slot? j = d.slot? j :=
  forUpTo_keeps (fun e => e.slot? j = d.slot? j) rfl fun i e same => ((toWriteQ_keeps k i p e).slot j (by rfl)).trans same

/-- The device with the cells of a write granted and its share taken, its data on the way. -/
def Dev.granted (d : Dev) (k : Nat) (x : Slot) : Dev :=
  let cells := grantCells (some (d.ownerOf x)) (4 * x.total) d
  let staged := takeStage (d.ownerOf x) x.total cells.2
  let e := staged.1.modSlot k fun x => { x with phase := .moving, chain := cells.1, share := some staged.2 }
  e.flagIf (e.host.slots.any fun y => e.wantsGrant y.1 y.2 && !e.withinCap (e.ownerOf y.2) y.2.total) Fd.TEN_EVT_CAP_WAIT

theorem Dev.granted_slot (slot : d.slot? k = some x) : ∃ y, (d.granted k x).slot? k = some y ∧ y.phase = .moving ∧
    y.chain = (grantCells (some (d.ownerOf x)) (4 * x.total) d).1 := by
  have held : (takeStage (d.ownerOf x) x.total (grantCells (some (d.ownerOf x)) (4 * x.total) d).2).1.slot? k = some x := by
    rw [takeStage_slot, Dev.slot?]; exact slot
  refine ⟨{ x with
    phase := .moving
    chain := (grantCells (some (d.ownerOf x)) (4 * x.total) d).1
    share := some (takeStage (d.ownerOf x) x.total (grantCells (some (d.ownerOf x)) (4 * x.total) d).2).2 }, ?_, rfl, rfl⟩
  rw [Dev.granted, Dev.slot?, Dev.flagIf_host]
  exact modSlot_slot _ held

theorem Dev.granted_ciph (k : Nat) (x : Slot) (d : Dev) : (d.granted k x).ciph = d.ciph := by
  rw [Dev.granted, Dev.flagIf_ciph, Dev.modSlot_ciph, takeStage_ciph]; rfl

theorem Dev.granted_out (k : Nat) (x : Slot) (d : Dev) : (d.granted k x).out = d.out := by
  rw [Dev.granted, Dev.flagIf_out, Dev.modSlot_out, takeStage_out]; rfl

theorem Dev.granted_mute (k : Nat) (x : Slot) (d : Dev) (f : Nat) : (d.granted k x).mute f = d.mute f := by
  rw [Dev.granted, mute_congr (Dev.flagIf_host ..), mute_modSlot, mute_takeStage]; rfl

/-- The first write that may have its grant moves: its data is fetched, or zeros are made. -/
theorem writeGrant_moves (first : d.nextWriteGrant = some (k, x)) (slot : d.slot? k = some x) :
    ∃ e, writeGrant d = .ok e ∧ (∃ y, e.slot? k = some y ∧ y.phase = .moving ∧ y.chain = (grantCells (some (d.ownerOf x)) (4 * x.total) d).1) ∧
      if x.sqe.op = 0x08 then e.ciph.writeQ.length = d.ciph.writeQ.length + x.total
      else d.mute x.fn = false → e.out = .hostRead x.fn k :: d.out := by
  have row : writeGrant d = if x.sqe.op = 0x08 then .ok (forUpTo x.total (fun i d => toWriteQ k i 0 d) (d.granted k x))
      else .ok ((d.granted k x).send (.hostRead x.fn k)) := by
    rw [writeGrant, first]; rfl
  obtain ⟨y, moving, phase, chain⟩ := Dev.granted_slot slot
  rw [row]
  by_cases zeroes : x.sqe.op = 0x08
  · rw [if_pos zeroes]
    refine ⟨_, rfl, ⟨y, (zerosMade_slot ..).trans moving, phase, chain⟩, ?_⟩
    rw [if_pos zeroes, forUp_writeQ, Dev.granted_ciph]
  · rw [if_neg zeroes]
    refine ⟨_, rfl, ⟨y, by rw [Dev.slot?, Dev.send_host]; exact moving, phase, chain⟩, ?_⟩
    rw [if_neg zeroes]
    intro heard
    have hears : (d.granted k x).mute x.fn = false := (Dev.granted_mute ..).trans heard
    simp only [Dev.send, hears, Bool.false_eq_true, if_false, Dev.granted_out]

/-! ### Arrivals and commits (R119, R128) -/

/-- A sector of a write that is not here yet goes to the lanes. -/
theorem writeData_lands {i : Nat} (p : Payload) (slot : d.slot? k = some x) (writes : x.isWrite = true) (carries : x.sqe.op ≠ 0x08)
    (moving : x.phase = .moving) (inside : i < x.total) (fresh : d.sectorHere k i x = false) :
    ∃ e, writeData k i p d = .ok e ∧ ∃ w, e.ciph.writeQ = d.ciph.writeQ ++ [w] ∧ w.work = .write k i p := by
  refine ⟨toWriteQ k i p d, ?_, writeQ_toWriteQ k i p d⟩
  rw [writeData, slot]
  dsimp only
  rw [if_pos (by simp [writes, carries, moving, inside, fresh])]

theorem padMarked_slots (nsid z : Nat) (d : Dev) : SlotsHeld d (padMarked nsid z d) := .of_keeps (padMarked_keeps ..) (by rfl)

theorem padAfter_slots (k nsid z : Nat) (d : Dev) : SlotsHeld d (padAfter k nsid z d) := (SlotsHeld.modSlot ..).trans (padMarked_slots ..)

theorem modNs_slots (d : Dev) (n : Nat) (f : Ns → Ns) : SlotsHeld d (d.modNs n f) := .of_keeps (Dev.modNs_keeps ..) (by rfl)

/-- The places of a committed write. -/
def commitPlaces (k : Nat) (x : Slot) (d : Dev) : Dev :=
  match x.zone with
  | some zk => padAfter k x.sqe.nsid.toNat (zk % 2 ^ 20) (commitZone k x x.sqe.nsid.toNat (zk % 2 ^ 20) d)
  | none => commitConv x x.sqe.nsid.toNat d

theorem commitPlaces_slots (k : Nat) (x : Slot) (d : Dev) : SlotsHeld d (commitPlaces k x d) := by
  unfold commitPlaces
  split
  · exact (commitZone_slots ..).trans (padAfter_slots ..)
  · exact commitConv_slots ..

theorem commitPlaces_wp {zk : Nat} (zoned : x.zone = some zk) (d : Dev) :
    ((commitPlaces k x d).zone x.sqe.nsid.toNat (zk % 2 ^ 20)).wp = x.start - zoneStart (zk % 2 ^ 20) + x.total := by
  rw [commitPlaces, zoned, Dev.zone, (padAfter_keeps ..).zm (by rfl)]
  exact commitZone_wp ..

/-- A write whose sectors are in cells, in check order, commits and completes. -/
theorem writeCommit_completes (slot : d.slot? k = some x) (writes : x.isWrite = true) (moving : x.phase = .moving)
    (whole : x.arrived.length = x.total)
    (inOrder : ∀ zk, x.zone = some zk → x.start = zoneStart (zk % 2 ^ 20) + (d.zone x.sqe.nsid.toNat (zk % 2 ^ 20)).wp) :
    ∃ e, writeCommit k d = .ok e ∧
      Completes e k (if x.sqe.op = 0x7D then
        { success with dw0 := BitVec.ofNat 32 x.start, dw1 := BitVec.ofNat 32 (x.start / 2 ^ 32) } else success) ∧
      ∀ zk, x.zone = some zk → (e.zone x.sqe.nsid.toNat (zk % 2 ^ 20)).wp = x.start - zoneStart (zk % 2 ^ 20) + x.total := by
  generalize answer : (if x.sqe.op = 0x7D then
    { success with dw0 := BitVec.ofNat 32 x.start, dw1 := BitVec.ofNat 32 (x.start / 2 ^ 32) } else success : Cpl) = c
  generalize stamped : stampChain x.chain x.total d.strk.count d = e
  have held : e.slot? k = some x := by rw [← stamped]; exact ((stampChain_keeps ..).slot k (by rfl)).trans slot
  have row : writeCommit k d = .ok (finish k c (((commitPlaces k x e).modNs x.sqe.nsid.toNat fun y =>
      { y with writes := y.writes + 1, sectorsWritten := y.sectorsWritten + x.total }).modSlot k fun x =>
        { x with committed := true, chain := endOfChain, share := none })) := by
    rw [← answer, ← stamped, writeCommit, slot]
    refine (if_neg ?_).trans rfl
    cases zone : x.zone with
    | none => simp [writes, moving, whole]
    | some zk => simpa [writes, moving, whole] using inOrder zk zone
  refine ⟨_, row, ?_, fun zk zoned => ?_⟩
  · exact (((commitPlaces_slots ..).trans (modNs_slots ..)).trans (SlotsHeld.modSlot ..)).completes held c
  · rw [Dev.zone, Dev.finish_zm, Dev.modSlot_zm, ← Dev.zone, modNs_zone]
    exact commitPlaces_wp zoned e

/-! ### Failed transfers (R120) -/

theorem transferError_withdraws (slot : d.slot? k = some x) (moving : x.phase = .moving) (writes : x.isWrite = true)
    (early : x.committed = false) : ∃ e, transferError k d = .ok e ∧ Completes e k stTransfer := by
  refine ⟨withdrawCmd k stTransfer d, ?_, ?_⟩
  · rw [transferError, slot]
    dsimp only
    rw [if_pos (by simp [moving, writes, early])]
  · exact SlotsHeld.completes (by exact (withdrawWrite_slots k d).trans (.of_slots rfl rfl)) slot _

theorem transferError_marks (slot : d.slot? k = some x) (moving : x.phase = .moving) (reads : x.isWrite = false) (queue : x.qid ≠ 0)
    (op : x.sqe.op = 0x02) (sound : x.bad = none) : ∃ e, transferError k d = .ok e ∧ ∃ y, e.slot? k = some y ∧ y.bad = some stTransfer := by
  refine ⟨_, ?_, _, modSlot_slot (fun x => { x with bad := match x.bad with | some b => some b | none => some stTransfer }) slot, ?_⟩
  · rw [transferError, slot]
    dsimp only
    rw [if_neg (by simp [reads]), if_pos (by simp [moving, queue, op])] <;> rfl
  · dsimp only
    rw [sound]

end

/-- A row that answers a device gives it. -/
theorem givesDev_of_exists {s : State} {f : Dev → Except String Dev} {P : Dev → Prop} (row : ∃ d, f s.dev = .ok d ∧ P d) :
    GivesDev (onDev s f) s P := by
  obtain ⟨d, next, holds⟩ := row
  exact givesDev_of_ok next holds

/-- Settles O25: each row is one transition of the write's slot. -/
theorem writesLand : Obligations.WritesLand :=
  ⟨fun _ _ _ first slot => givesDev_of_exists (writeGrant_moves first slot),
    fun _ _ p _ _ slot writes carries moving inside fresh => givesDev_of_exists (writeData_lands p slot writes carries moving inside fresh),
    fun _ _ _ slot writes moving whole inOrder => givesDev_of_exists (writeCommit_completes slot writes moving whole inOrder),
    fun _ _ _ slot moving => ⟨fun writes early => givesDev_of_exists (transferError_withdraws slot moving writes early),
      fun reads queue op sound => givesDev_of_exists (transferError_marks slot moving reads queue op sound)⟩⟩

end Sys2Proof.Machine

/-! PROOFS. Zone commands and refolds. -/

namespace Sys2Proof.Machine

section
variable {s : State} {k : Fin 131072} {x : Slot} {ns : Ns}

/-! ### Sends to one zone (Table 4-2) -/

/-- A Send whose action takes its zone to state `b` completes. -/
theorem zoneSend_moves {zsa : Nat} {b : ZoneState} {e : Dev} (act : Nat → Ns → Nat → Nat → Bool → Dev → Except Cpl Dev)
    (ready : SendReady s.dev k zsa x ns) (next : act x.sqe.nsid.toNat ns (sqeZone x.sqe) x.sqe.handle false s.dev = .ok e)
    (slots : OkSlots s.dev (act x.sqe.nsid.toNat ns (sqeZone x.sqe) x.sqe.handle false s.dev))
    (st : (e.zone x.sqe.nsid.toNat (sqeZone x.sqe)).st = b) :
    GivesDev (onDev s (zoneSend zsa act k)) s fun d => Completes d k success ∧ (d.zone x.sqe.nsid.toNat (sqeZone x.sqe)).st = b := by
  refine givesDev_of_ok (zoneSend_ready act ready) ?_
  rw [next, endSend]
  exact ⟨ready.1.completes (slots e next) _, by rw [Dev.zone_finish]; exact st⟩

/-- A zone's state after a change of the zone and a new entry for it. -/
theorem synced_st (n z : Nat) (f : Zone → Zone) (d : Dev) : ((syncZone n z (d.modZone n z f)).zone n z).st = (f (d.zone n z)).st := by
  rw [zone_sync, zone_modZone_same]

theorem zoneClose_moves (ready : SendReady s.dev k 1 x ns)
    (st : (s.dev.zone x.sqe.nsid.toNat (sqeZone x.sqe)).st = .implOpen ∨ (s.dev.zone x.sqe.nsid.toNat (sqeZone x.sqe)).st = .explOpen) :
    GivesDev (exec (.zoneClose k) s) s fun d => Completes d k success ∧ (d.zone x.sqe.nsid.toNat (sqeZone x.sqe)).st = .closed := by
  refine zoneSend_moves (fun n _ z _ a d => sendClose n z a d) ready ?_ (sendClose_slots _ _ _ _) (synced_st _ _ (fun x => { x with st := .closed }) s.dev)
  obtain st | st := st
  all_goals rw [sendClose, st]

theorem zoneFinish_moves (ready : SendReady s.dev k 2 x ns)
    (st : (s.dev.zone x.sqe.nsid.toNat (sqeZone x.sqe)).st = .implOpen ∨ (s.dev.zone x.sqe.nsid.toNat (sqeZone x.sqe)).st = .explOpen ∨
      (s.dev.zone x.sqe.nsid.toNat (sqeZone x.sqe)).st = .closed) :
    GivesDev (exec (.zoneFinish k) s) s fun d => Completes d k success ∧ (d.zone x.sqe.nsid.toNat (sqeZone x.sqe)).st = .full := by
  refine zoneSend_moves (fun n ns z h a d => sendFinish n z h ns a d) ready ?_ (sendFinish_slots _ _ _ _ _ _)
    (fillZone_st x.sqe.nsid.toNat (sqeZone x.sqe) s.dev)
  obtain st | st | st := st
  all_goals rw [sendFinish, st]

/-- Zone Open of a zone that is bound already. -/
theorem zoneOpen_moves (ready : SendReady s.dev k 3 x ns)
    (st : (s.dev.zone x.sqe.nsid.toNat (sqeZone x.sqe)).st = .closed ∨ (s.dev.zone x.sqe.nsid.toNat (sqeZone x.sqe)).st = .implOpen ∨
      (s.dev.zone x.sqe.nsid.toNat (sqeZone x.sqe)).st = .explOpen) :
    GivesDev (exec (.zoneOpen k) s) s fun d => Completes d k success ∧ (d.zone x.sqe.nsid.toNat (sqeZone x.sqe)).st = .explOpen := by
  have opened := synced_st x.sqe.nsid.toNat (sqeZone x.sqe) (fun x => { x with st := .explOpen }) s.dev
  obtain st | st | st := st
  · exact zoneSend_moves (fun n ns z h a d => sendOpen n z h ns a d) ready (by rw [sendOpen, st]) (sendOpen_slots _ _ _ _ _ _) opened
  · exact zoneSend_moves (fun n ns z h a d => sendOpen n z h ns a d) ready (by rw [sendOpen, st]; rfl) (sendOpen_slots _ _ _ _ _ _) opened
  · exact zoneSend_moves (fun n ns z h a d => sendOpen n z h ns a d) ready (by rw [sendOpen, st]) (sendOpen_slots _ _ _ _ _ _) st

theorem zoneReset_moves (ready : SendReady s.dev k 4 x ns)
    (st : (s.dev.zone x.sqe.nsid.toNat (sqeZone x.sqe)).st = .implOpen ∨ (s.dev.zone x.sqe.nsid.toNat (sqeZone x.sqe)).st = .explOpen ∨
      (s.dev.zone x.sqe.nsid.toNat (sqeZone x.sqe)).st = .closed ∨ (s.dev.zone x.sqe.nsid.toNat (sqeZone x.sqe)).st = .full) :
    GivesDev (exec (.zoneReset k) s) s fun d => Completes d k success ∧ (d.zone x.sqe.nsid.toNat (sqeZone x.sqe)).st = .empty := by
  refine zoneSend_moves (fun n ns z _ a d => sendReset ns.owner n z a d) ready ?_ (sendReset_slots _ _ _ _ _)
    (emptyZone_st ns.owner x.sqe.nsid.toNat (sqeZone x.sqe) s.dev)
  obtain st | st | st | st := st
  all_goals rw [sendReset, st]

theorem zoneOffline_moves (ready : SendReady s.dev k 5 x ns) (st : (s.dev.zone x.sqe.nsid.toNat (sqeZone x.sqe)).st = .readOnly) :
    GivesDev (exec (.zoneOffline k) s) s fun d => Completes d k success ∧ (d.zone x.sqe.nsid.toNat (sqeZone x.sqe)).st = .offline := by
  refine zoneSend_moves (fun n _ z _ a d => sendOffline n z a d) ready (by rw [sendOffline, st]) (sendOffline_slots _ _ _ _) ?_
  rw [zone_modZone_same]

/-- Zone Reground of a zone whose row is sound. -/
theorem zoneReground_moves {g r : Nat} (ready : SendReady s.dev k 0x80 x ns) (st : (s.dev.zone x.sqe.nsid.toNat (sqeZone x.sqe)).st = .offline)
    (row : (s.dev.zone x.sqe.nsid.toNat (sqeZone x.sqe)).row = some (g, r)) (sound : s.dev.rowSpent g r = false) :
    GivesDev (exec (.zoneReground k) s) s fun d => Completes d k success ∧ (d.zone x.sqe.nsid.toNat (sqeZone x.sqe)).st = .empty := by
  refine zoneSend_moves (fun n ns z _ a d => sendReground ns.owner n z a d) ready ?_ (sendReground_slots _ _ _ _ _)
    (emptyZone_st ns.owner x.sqe.nsid.toNat (sqeZone x.sqe) s.dev)
  simp only [sendReground, st, row, sound, Bool.false_eq_true, if_false]

theorem sendMoves_give {zsa : Nat} {c : Instr} {a b : ZoneState} (move : (zsa, c, a, b) ∈ sendMoves k) (ready : SendReady s.dev k zsa x ns)
    (st : (s.dev.zone x.sqe.nsid.toNat (sqeZone x.sqe)).st = a) :
    GivesDev (exec c s) s fun d => Completes d k success ∧ (d.zone x.sqe.nsid.toNat (sqeZone x.sqe)).st = b := by
  simp only [sendMoves, List.mem_cons, Prod.mk.injEq, List.not_mem_nil, or_false] at move
  obtain ⟨rfl, rfl, rfl, rfl⟩ | ⟨rfl, rfl, rfl, rfl⟩ | ⟨rfl, rfl, rfl, rfl⟩ | ⟨rfl, rfl, rfl, rfl⟩ | ⟨rfl, rfl, rfl, rfl⟩ | ⟨rfl, rfl, rfl, rfl⟩ |
    ⟨rfl, rfl, rfl, rfl⟩ | ⟨rfl, rfl, rfl, rfl⟩ | ⟨rfl, rfl, rfl, rfl⟩ | ⟨rfl, rfl, rfl, rfl⟩ | ⟨rfl, rfl, rfl, rfl⟩ | ⟨rfl, rfl, rfl, rfl⟩ |
    ⟨rfl, rfl, rfl, rfl⟩ := move
  · exact zoneClose_moves ready (.inl st)
  · exact zoneClose_moves ready (.inr st)
  · exact zoneFinish_moves ready (.inl st)
  · exact zoneFinish_moves ready (.inr (.inl st))
  · exact zoneFinish_moves ready (.inr (.inr st))
  · exact zoneOpen_moves ready (.inl st)
  · exact zoneOpen_moves ready (.inr (.inl st))
  · exact zoneOpen_moves ready (.inr (.inr st))
  · exact zoneReset_moves ready (.inl st)
  · exact zoneReset_moves ready (.inr (.inl st))
  · exact zoneReset_moves ready (.inr (.inr (.inl st)))
  · exact zoneReset_moves ready (.inr (.inr (.inr st)))
  · exact zoneOffline_moves ready st

/-! ### Sends to all zones (R122) -/

/-- A Send with Select All that nothing holds completes over all zones. -/
theorem zoneSend_all {zsa : Nat} {act : Nat → Ns → Nat → Nat → Bool → Dev → Except Cpl Dev} (taken : Taken s.dev k false 0x79 x)
    (action : bits x.sqe.cdw13.toNat 7 0 = zsa) (present : s.dev.nsOf x.fn x.sqe.nsid.toNat = some ns) (zoned : ns.zoned = true)
    (all : bit x.sqe.cdw13.toNat 8 = true) (noFence : s.dev.atFence x = false) (first : s.dev.behindAll x x.sqe.nsid.toNat = false)
    (unmarked : (s.dev.zonesOf x.sqe.nsid.toNat).any (fun e => s.dev.behindMark x x.sqe.nsid.toNat e.1) = false)
    (slots : ∀ n ns z h d, OkSlots d (act n ns z h true d)) :
    GivesDev (onDev s (zoneSend zsa act k)) s fun d => ∃ r, Completes d k r := by
  have left := sendAll_slots (n := x.sqe.nsid.toNat) (zs := (s.dev.zonesOf x.sqe.nsid.toNat).map (·.1))
    (fun z d => slots x.sqe.nsid.toNat ns z x.sqe.handle d) s.dev
  generalize ends : sendAll x.sqe.nsid.toNat ((s.dev.zonesOf x.sqe.nsid.toNat).map (·.1))
    (fun z d => act x.sqe.nsid.toNat ns z x.sqe.handle true d) s.dev = a at left
  obtain ⟨e, c⟩ := a
  refine givesDev_of_ok (d := finish k c (e.modSlot k fun x => { x with committed := true })) ?_ ⟨c, ?_⟩
  · rw [zoneSend, onSlot_taken taken]
    simp only [action, present, zoned, all, noFence, first, unmarked, ends, ne_eq, not_true_eq_false, Bool.not_true, Bool.or_self,
      Bool.false_eq_true, if_false, if_true]
  · have held : e.slot? k = some x := by rw [Dev.slot?, left]; exact taken.1
    exact completes_finish c (modSlot_slot _ held)

/-- The Sends as rows of one action, and what their actions leave. -/
theorem sends_give {zsa : Nat} {c : Instr} (send : (zsa, c) ∈ sends k) :
    ∃ act : Nat → Ns → Nat → Nat → Bool → Dev → Except Cpl Dev, exec c s = onDev s (zoneSend zsa act k) ∧
      ∀ n ns z h d, OkSlots d (act n ns z h true d) := by
  simp only [sends, List.mem_cons, Prod.mk.injEq, List.not_mem_nil, or_false] at send
  obtain ⟨rfl, rfl⟩ | ⟨rfl, rfl⟩ | ⟨rfl, rfl⟩ | ⟨rfl, rfl⟩ | ⟨rfl, rfl⟩ | ⟨rfl, rfl⟩ := send
  · exact ⟨fun n _ z _ a d => sendClose n z a d, rfl, fun _ _ _ _ _ => sendClose_slots _ _ _ _⟩
  · exact ⟨fun n ns z h a d => sendFinish n z h ns a d, rfl, fun _ _ _ _ _ => sendFinish_slots _ _ _ _ _ _⟩
  · exact ⟨fun n ns z h a d => sendOpen n z h ns a d, rfl, fun _ _ _ _ _ => sendOpen_slots _ _ _ _ _ _⟩
  · exact ⟨fun n ns z _ a d => sendReset ns.owner n z a d, rfl, fun _ _ _ _ _ => sendReset_slots _ _ _ _ _⟩
  · exact ⟨fun n _ z _ a d => sendOffline n z a d, rfl, fun _ _ _ _ _ => sendOffline_slots _ _ _ _⟩
  · exact ⟨fun n ns z _ a d => sendReground ns.owner n z a d, rfl, fun _ _ _ _ _ => sendReground_slots _ _ _ _ _⟩

/-! ### Reports (R122) -/

/-- A Receive behind every earlier Send answers. -/
theorem zoneRecv_ready {zra : Nat} {bytes : Dev → Ns → Nat → Sqe → Except Cpl (List Byte)} {d : Dev} (taken : Taken d k false 0x7A x)
    (action : bits x.sqe.cdw13.toNat 7 0 = zra) (present : d.nsOf x.fn x.sqe.nsid.toNat = some ns) (zoned : ns.zoned = true)
    (noFence : d.atFence x = false)
    (first : d.host.slots.any (fun e => decide (e.2.seq < x.seq) && e.2.isSend && decide (e.2.sqe.nsid.toNat = x.sqe.nsid.toNat)) = false) :
    zoneRecv zra bytes k d = match bytes d ns x.sqe.nsid.toNat x.sqe with
      | .ok b => .ok (finish k success (d.send (.hostBytes x.fn x.sqe.cid.toNat b)))
      | .error c => .ok (finish k c d) := by
  rw [zoneRecv, onSlot_taken taken]
  simp only [action, present, zoned, noFence, first, ne_eq, not_true_eq_false, Bool.not_true, Bool.false_eq_true, if_false] <;> rfl

/-- A report that is answered goes to the host. -/
theorem zoneRecv_sends {zra : Nat} {bytes : Dev → Ns → Nat → Sqe → Except Cpl (List Byte)} {b : List Byte} (taken : Taken s.dev k false 0x7A x)
    (action : bits x.sqe.cdw13.toNat 7 0 = zra) (present : s.dev.nsOf x.fn x.sqe.nsid.toNat = some ns) (zoned : ns.zoned = true)
    (noFence : s.dev.atFence x = false)
    (first : s.dev.host.slots.any (fun e => decide (e.2.seq < x.seq) && e.2.isSend && decide (e.2.sqe.nsid.toNat = x.sqe.nsid.toNat)) = false)
    (answer : bytes s.dev ns x.sqe.nsid.toNat x.sqe = .ok b) (heard : s.dev.mute x.fn = false) :
    GivesDev (onDev s (zoneRecv zra bytes k)) s fun d => Completes d k success ∧ d.out = .hostBytes x.fn x.sqe.cid.toNat b :: s.dev.out := by
  refine givesDev_of_ok (d := finish k success (s.dev.send (.hostBytes x.fn x.sqe.cid.toNat b))) ?_ ?_
  · rw [zoneRecv_ready taken action present zoned noFence first, answer]
  · exact ⟨taken.completes (send_slots ..) _, by rw [Dev.finish_out]; exact send_out heard⟩

end

/-! ### Read Only and worn marks (R115, R238) -/

section
variable {d : Dev} {n z : Nat}

/-- A marked zone whose data is programmed turns Read Only at the end of its data. -/
theorem zoneReadOnly_enters {m : Nat} (marked : (d.zone n z).marked = some m) (programmed : (d.zone n z).staged = [])
    (noRefold : (d.zone n z).refDst = none)
    (quiet : d.host.slots.any (fun e => decide (e.2.seq ≤ m) && (touches e.2 n z || d.refoldTouches e.2 n z)) = false) :
    ∃ e, zoneReadOnly n z d = .ok e ∧ (e.zone n z).st = .readOnly ∧ (e.zone n z).marked = none ∧ (e.zone n z).wp = (d.zone n z).eod := by
  refine ⟨?turned, ?row, ?zone⟩
  case row =>
    unfold zoneReadOnly
    dsimp only
    rw [marked]
    dsimp only
    rw [programmed, noRefold, quiet]
    rfl
  case zone =>
    have zone : ∀ off cause (e : Dev), (reportZone n z off cause e).zone n z = e.zone n z := fun off cause e => by
      rw [Dev.zone, (reportZone_keeps ..).zm (by rfl)]; rfl
    rw [zone_sync, zone, zone_modZone_same]
    exact ⟨rfl, rfl, rfl⟩

/-- Every zone that may be marked is. -/
theorem markZone_marks {cause : Nat} (bound : (d.zone n z).row.isSome = true) (st : (d.zone n z).st ∉ [.readOnly, .offline, .empty])
    (unmarked : (d.zone n z).marked = none) : ((markZone n z cause d).zone n z).marked = some d.host.seq := by
  have zone : ∀ u e, (askProgram n z u (padMarked n z e)).zone n z = e.zone n z := fun u e => by
    rw [Dev.zone, (askProgram_keeps ..).zm (by rfl), (padMarked_keeps ..).zm (by rfl)]; rfl
  have open' : ((d.zone n z).row.isNone || (d.zone n z).st == .readOnly || (d.zone n z).st == .offline ||
      (d.zone n z).st == .empty && (d.zone n z).refDst.isNone || (d.zone n z).marked.isSome) = false := by
    cases row : (d.zone n z).row with
    | none => rw [row] at bound; cases bound
    | some at' => cases stIs : (d.zone n z).st <;> simp [stIs, unmarked] at st ⊢
  unfold markZone
  rw [if_neg (by rw [open']; decide)]
  extract_lets e
  have seq : e.host.seq = d.host.seq := by
    subst e
    split
    · split <;> rfl
    · rfl
  rw [zone, zone_modZone_same]
  exact congrArg some seq

/-- The zone of a row of extended life is marked once its data is too old. -/
theorem dataAge_marks {g r : Nat} (bound : (d.row g r).bound = some (n, z)) (extended : d.extended g r = true)
    (old : d.thresh 5 * strokesPerHour ≤ d.strk.count - (d.zone n z).bornAt) (row : (d.zone n z).row.isSome = true)
    (st : (d.zone n z).st ∉ [.readOnly, .offline, .empty]) (unmarked : (d.zone n z).marked = none) :
    ∃ e, dataAge g r d = .ok e ∧ (e.zone n z).marked = some d.host.seq := by
  refine ⟨wornMark g r 0x09 d, ?_, ?_⟩
  · rw [dataAge, bound]
    dsimp only
    rw [if_pos (by rw [extended, decide_eq_true old]; rfl)]
  · rw [wornMark, bound]
    exact markZone_marks row st unmarked

end

/-! ### Refolds (R135 to R138) -/

section
variable {d : Dev}

theorem mem_insertRefold (j : RefoldJob) : ∀ js, j ∈ insertRefold j js
  | [] => List.mem_cons_self
  | i :: js => by
    unfold insertRefold
    split
    · exact List.mem_cons_self
    · exact List.mem_cons_of_mem _ (mem_insertRefold j js)

/-- A refold that may be queued sleeps with its job in the queue. -/
theorem queueRefold_queues {k : Nat} {x : Slot} {ns : Ns} {rs : List RefoldRange} {at' : Nat × Nat} (held : d.slot? k = some x) :
    (∃ y, (queueRefold k x ns rs at' d).slot? k = some y ∧ y.phase = .asleep ∧ y.committed = true) ∧
      ∃ j ∈ (queueRefold k x ns rs at' d).zm.refolds, j.seq = x.seq ∧ j.slot = some k ∧ j.ranges = rs ∧ j.running = false := by
  unfold queueRefold
  extract_lets nsid dst d1 d2 d3 d4 d5
  have slot2 : d2.slot? k = some x :=
    ((Dev.modZone_keeps ..).slot k (by rfl)).trans (((bindZone_keeps ..).slot k (by rfl)).trans held)
  have slot3 : d3.slot? k = some x := by
    refine foldl_keeps (fun e : Dev => e.slot? k = some x) slot2 fun e a same => ?_
    exact ((Dev.modZone_keeps ..).slot k (by rfl)).trans (((abandonMigration_keeps ..).slot k (by rfl)).trans same)
  have slot5 : d5.slot? k = some x := by rw [Dev.slot?, Dev.flagIf_host]; exact slot3
  have refolds : (syncZone nsid dst (d5.modSlot k fun y => { y with phase := .asleep, committed := true })).zm.refolds = d4.zm.refolds := by
    rw [(syncZone_keeps ..).zm (by rfl), Dev.modSlot_zm, Dev.flagIf_zm]
  refine ⟨⟨_, ((syncZone_keeps ..).slot k (by rfl)).trans (modSlot_slot _ slot5), rfl, rfl⟩, ?_⟩
  rw [refolds]
  exact ⟨_, mem_insertRefold _ _, rfl, rfl, rfl, rfl⟩

theorem refold_queues {k : Nat} {x : Slot} {ns : Ns} {rs : List RefoldRange} {r : Nat × Nat} (taken : Taken d k false 0x83 x)
    (count : rs.length = refoldCount x.sqe) (present : d.nsOf x.fn x.sqe.nsid.toNat = some ns) (zoned : ns.zoned = true)
    (plain : refoldRsv x.sqe = false) (some' : rs ≠ []) (few : rs.length ≤ 4092) (aligned : x.sqe.slba % zoneSpan = 0)
    (inside : x.sqe.slba / zoneSpan < ns.zones) (first : d.refoldEarlier x = false) (noFence : d.atFence x = false)
    (ordered : ∀ z ∈ x.sqe.slba / zoneSpan :: rangeZones rs, d.behindSend x x.sqe.nsid.toNat z = false ∧ d.behindMark x x.sqe.nsid.toNat z = false)
    (sound : d.refoldRefusal ns x.sqe rs = none) (mayBind : d.is Fd.ZONE_CTL_BIND_HOLD = false)
    (room : d.zoneEntryRoom x.sqe.nsid.toNat (x.sqe.slba / zoneSpan) = true) (bind : d.bindCheck x.sqe.nsid.toNat ns x.sqe.handle = .ok r) :
    refold k rs d = .ok (queueRefold k x ns rs r d) := by
  have nonempty : rs.isEmpty = false := by simpa using some'
  have notBehind : (x.sqe.slba / zoneSpan :: rangeZones rs).any
      (fun z => d.behindSend x x.sqe.nsid.toNat z || d.behindMark x x.sqe.nsid.toNat z) = false := by
    rw [List.any_eq_false]
    intro z mem
    obtain ⟨send, mark⟩ := ordered z mem
    simp [send, mark]
  rw [refold, onSlot_taken taken]
  simp only [count, first, present, zoned, plain, nonempty, Nat.not_lt.mpr (count ▸ few), aligned, Nat.not_le.mpr inside, noFence, notBehind, sound, mayBind,
    room, bind, ne_eq, not_true_eq_false, decide_false, Bool.or_self, Bool.not_true, Bool.false_eq_true, if_false]

/-- The first queued refold that may start runs. -/
theorem refoldStart_runs {j : RefoldJob} (serves : d.is Fd.ZONE_CTL_REFOLD_HOLD = false) (next : d.nextRefold [] d.zm.refolds = some j) :
    ∃ e, refoldStart d = .ok e ∧ ∃ i ∈ e.zm.refolds, i.seq = j.seq ∧ i.running = true := by
  have started (e : Dev) (f : RefoldJob → RefoldJob) (same : e.zm = d.zm) (seq : (f j).seq = j.seq) (runs : (f j).running = true) :
      ∃ i ∈ (refoldsAtCap (e.modRefold j.seq f)).zm.refolds, i.seq = j.seq ∧ i.running = true := by
    refine ⟨f j, ?_, seq, runs⟩
    rw [refoldsAtCap, Dev.flagIf_zm]
    change f j ∈ e.zm.refolds.map _
    rw [same]
    exact List.mem_map.mpr ⟨j, nextRefold_mem _ _ _ _ next, if_pos rfl⟩
  unfold refoldStart
  rw [if_neg (by rw [serves]; decide), next]
  dsimp only
  split
  · exact ⟨_, rfl, started d (fun j => { j with running := true }) rfl rfl rfl⟩
  · refine ⟨_, rfl, started _ (fun j => { j with running := true, chain := _, share := some _ }) ?_ rfl rfl⟩
    unfold takeStage
    split <;> rfl

/-- The last steps of a refold: it leaves the queue, and its command completes. -/
theorem refoldEnd_ends (j : RefoldJob) (at' : Nat × Nat) (lost : List Nat) (d : Dev) :
    (refoldEnd j at' lost d).rd Fd.ZONE_EVT_REFOLD_DONE = 1 ∧ (∀ i ∈ (refoldEnd j at' lost d).zm.refolds, i.seq ≠ j.seq) ∧
      ∀ k, j.slot = some k → (d.slot? k).isSome → Completes (refoldEnd j at' lost d) k (successWith (rangeTotal j.ranges)) := by
  unfold refoldEnd
  extract_lets n hb gone d1 p full d2 d3 zs d4 owner d5 d6 d7
  have held : ∀ k, (d.slot? k).isSome → (d7.slot? k).isSome := fun k here => by
    have h3 : SlotsHeld d d3 :=
      (SlotsHeld.of_keeps (refoldCopy_keeps ..) (by rfl)).trans ((modZone_slots ..).trans (.of_keeps (moveOut_keeps ..) (by rfl)))
    have h4 : SlotsHeld d3 d4 := SlotsHeld.foldl (fun e z => modZone_slots ..) _ _
    have h5 : d5.host.slots = d4.host.slots := by
      subst d5
      split
      · exact foldl_keeps (fun e : Dev => e.host.slots = d4.host.slots) rfl fun e z same => (refoldSource_slots ..).trans same
      · rfl
    have h7 : d7.slot? k = d5.slot? k := (syncZone_keeps ..).slot k (by rfl)
    rw [h7, Dev.slot?, h5]
    exact (h3.trans h4).slots k here
  have event : d7.rd Fd.ZONE_EVT_REFOLD_DONE = 1 := Dev.rd_wr_same _ _ (by decide) (by decide)
  have left : ∀ i ∈ d7.zm.refolds, i.seq ≠ j.seq := fun i mem => of_decide_eq_true (List.mem_filter.mp mem).2
  clear_value d7
  split
  · next k x found =>
    refine ⟨by rw [Dev.rd_finish, Dev.rd_congr (Dev.send_regs _ _)]; exact event, by rw [Dev.finish_zm, Dev.send_zm]; exact left, fun k' slot _ => ?_⟩
    obtain ⟨l, slot', mapped⟩ := Option.bind_eq_some_iff.mp found
    obtain ⟨y, here, pair⟩ := Option.map_eq_some_iff.mp mapped
    cases pair
    rw [slot] at slot'
    cases slot'
    exact completes_of_slots (send_slots ..) here _
  · next missing =>
    refine ⟨event, left, fun k slot here => ?_⟩
    obtain ⟨y, found⟩ := Option.isSome_iff_exists.mp (held k here)
    rw [slot, Option.bind_some, found] at missing
    cases missing

theorem refoldCommit_ends {seq : Nat} (lost : List Nat) {j : RefoldJob} {g r : Nat} (found : d.zm.refolds.find? (fun j => decide (j.seq = seq)) = some j)
    (runs : j.running = true) (row : (d.zone j.nsid j.dst).row = some (g, r)) (clean : (d.row g r).dirty = 0) :
    refoldCommit seq lost d = .ok (refoldEnd j (g, r) lost d) := by
  rw [refoldCommit, found]
  dsimp only
  rw [runs, row]
  dsimp only
  rw [if_pos clean]

end

/-- Settles O26: each row's action on its zone, behind what orders it. -/
theorem zonesMove : Obligations.ZonesMove := by
  refine ⟨fun zsa c k s x ns a b move ready st => sendMoves_give move ready st, fun k s x ns r ready empty found => zoneOpen_binds ready empty found,
    fun k s x ns g r ready st row sound => zoneReground_moves ready st row sound,
    fun zsa c k s x ns send taken action present zoned all noFence first unmarked => ?_,
    fun zra c size entry k s x ns report taken action present zoned noFence first inside heard => ?_,
    fun k s x ns taken action present zoned noFence first => ?_,
    fun n z s m marked programmed noRefold quiet => givesDev_of_exists (zoneReadOnly_enters marked programmed noRefold quiet),
    fun g r s n z bound extended old row st unmarked => givesDev_of_exists (dataAge_marks bound extended old row st unmarked),
    fun k rs s x ns r taken count present zoned plain some' few aligned inside first noFence ordered sound mayBind room bind => ?_,
    fun s j serves next => givesDev_of_exists (refoldStart_runs serves next),
    fun seq lost s j g r found runs row clean => givesDev_of_ok (refoldCommit_ends lost found runs row clean) (refoldEnd_ends ..)⟩
  · obtain ⟨act, row, slots⟩ := sends_give (s := s) send
    rw [row]
    exact zoneSend_all taken action present zoned all noFence first unmarked slots
  · have inRange : ¬ns.zones * zoneSpan ≤ x.sqe.slba := Nat.not_le.mpr inside
    simp only [List.mem_cons, Prod.mk.injEq, List.not_mem_nil, or_false] at report
    obtain ⟨rfl, rfl, rfl, rfl⟩ | ⟨rfl, rfl, rfl, rfl⟩ := report
    all_goals exact zoneRecv_sends taken action present zoned noFence first (if_neg inRange) heard
  · refine givesDev_of_ok (d := finish k stInvalidField s.dev) ?_ (taken.completes (by rfl) _)
    rw [zoneRecv_ready taken action present zoned noFence first]
  · exact givesDev_of_ok (refold_queues taken count present zoned plain some' few aligned inside first noFence ordered sound mayBind room bind)
      (queueRefold_queues taken.1)

end Sys2Proof.Machine

/-! PROOFS. The cell pool and the range CAM. -/

namespace Sys2Proof.Machine

section
variable {d : Dev} {g : Nat}

/-! ### Allocations (R331, R332) -/

/-- What a graver reads of an answered allocation. -/
theorem allocAnswer_result {result : Nat} (small : result < 4) (head : Nat) (d : Dev) :
    ((d.wrb g Fd.CELL_ALLOC_RES_RESULT result).wrb g Fd.CELL_ALLOC_RES_HEAD head).rdb g Fd.CELL_ALLOC_RES_RESULT = result :=
  (Dev.rdx_wrx_fldAt (by decide)).trans ((Dev.rdb_wrb_same _ _ _ (by decide) (by decide)).trans (Nat.mod_eq_of_lt small))

theorem allocAnswer_head (head : Nat) (d : Dev) : (d.wrb g Fd.CELL_ALLOC_RES_HEAD head).rdb g Fd.CELL_ALLOC_RES_HEAD = head % 2 ^ 26 :=
  Dev.rdb_wrb_same _ _ _ (by decide) (by decide)

/-- The request that a write of CELL.ALLOC makes. -/
def allocOf (g v : Nat) : AllocReq := { graver := g, owner := if bit v 31 then none else some (bits v 30 21), count := bits v 10 0 }

/-- The device with the graver's earlier request withdrawn. -/
def Dev.unasked (d : Dev) (g : Nat) : Dev := d.modPool fun p => { p with waiting := p.waiting.filter fun x => x.graver ≠ g }

section
variable {v : Nat}

/-- A count out of range is refused. -/
theorem cellAllocRequest_refused (range : bits v 10 0 = 0 ∨ 1024 < bits v 10 0) :
    (cellAllocRequest g v d).rdb g Fd.CELL_ALLOC_RES_RESULT = 3 ∧ (cellAllocRequest g v d).pool = d.pool := by
  have row : cellAllocRequest g v d = (d.wrb g Fd.CELL_ALLOC_RES_RESULT 3).wrb g Fd.CELL_ALLOC_RES_HEAD endOfChain := by
    rw [cellAllocRequest]; exact if_pos (by simpa using range)
  rw [row]
  exact ⟨allocAnswer_result (by decide) _ _, by rw [Dev.wrb_pool, Dev.wrb_pool]⟩

/-- A request that may have its grant has it at once. -/
theorem cellAllocRequest_granted (range : ¬(bits v 10 0 = 0 ∨ 1024 < bits v 10 0))
    (may : (d.unasked g).mayGrant (d.unasked g).pool.waiting (allocOf g v) = true) :
    (cellAllocRequest g v d).rdb g Fd.CELL_ALLOC_RES_RESULT = 1 ∧
      (cellAllocRequest g v d).rdb g Fd.CELL_ALLOC_RES_HEAD = (grantCells (allocOf g v).owner (bits v 10 0) (d.unasked g)).1 % 2 ^ 26 ∧
      (cellAllocRequest g v d).pool = (grantCells (allocOf g v).owner (bits v 10 0) (d.unasked g)).2.pool := by
  have row : cellAllocRequest g v d =
      ((grantCells (allocOf g v).owner (bits v 10 0) (d.unasked g)).2.wrb g Fd.CELL_ALLOC_RES_RESULT 1).wrb g Fd.CELL_ALLOC_RES_HEAD
        (grantCells (allocOf g v).owner (bits v 10 0) (d.unasked g)).1 := by
    rw [cellAllocRequest, if_neg (show ¬(decide (bits v 10 0 = 0) || decide (1024 < bits v 10 0)) = true by simpa using range)]
    exact if_pos may
  rw [row]
  exact ⟨allocAnswer_result (by decide) _ _, allocAnswer_head _ _, rfl⟩

/-- Any other request waits behind those before it. -/
theorem cellAllocRequest_waits (range : ¬(bits v 10 0 = 0 ∨ 1024 < bits v 10 0))
    (mayNot : ¬(d.unasked g).mayGrant (d.unasked g).pool.waiting (allocOf g v) = true) :
    (cellAllocRequest g v d).rdb g Fd.CELL_ALLOC_RES_RESULT = 2 ∧ (cellAllocRequest g v d).rd Fd.CELL_EVT_WAIT = 1 ∧
      (cellAllocRequest g v d).pool.waiting = (d.unasked g).pool.waiting ++ [allocOf g v] := by
  have row : cellAllocRequest g v d =
      ((((d.unasked g).modPool fun p => { p with waiting := p.waiting ++ [allocOf g v] }).wrb g Fd.CELL_ALLOC_RES_RESULT 2).wrb g
        Fd.CELL_ALLOC_RES_HEAD endOfChain).wr Fd.CELL_EVT_WAIT 1 := by
    rw [cellAllocRequest, if_neg (show ¬(decide (bits v 10 0 = 0) || decide (1024 < bits v 10 0)) = true by simpa using range)]
    exact if_neg mayNot
  rw [row]
  exact ⟨(Dev.rdx_wrx_reg (by decide)).trans (allocAnswer_result (by decide) _ _), Dev.rd_wr_same _ _ (by decide) (by decide), rfl⟩

end

/-- The device with a waiting allocation granted. -/
def cellsGranted (r : AllocReq) (d : Dev) : Dev :=
  let cells := grantCells r.owner r.count d
  ((cells.2.modPool fun p => { p with waiting := listEraseFirst (fun x => x == r) p.waiting }).wrb r.graver
    Fd.CELL_ALLOC_RES_RESULT 1).wrb r.graver Fd.CELL_ALLOC_RES_HEAD cells.1

/-! ### Frees and splices (R333, R335) -/

/-- A free of a chain that nothing keeps answers how many cells it freed, and whether it met a free one. -/
theorem cellFreed_answers {v : Nat} (unkept : d.keepsCells (bits v 25 0) = false) :
    (cellFreed g v d).rdb g Fd.CELL_FREE_RES_RESULT = (if (freeChain (bits v 25 0) d).2.1 then 2 else 1) ∧
      (cellFreed g v d).rdb g Fd.CELL_FREE_RES_CELLS = (freeChain (bits v 25 0) d).1 % 2 ^ 26 := by
  have row : cellFree g v d = ((freeChain (bits v 25 0) d).2.2.wrb g Fd.CELL_FREE_RES_RESULT
      (if (freeChain (bits v 25 0) d).2.1 then 2 else 1)).wrb g Fd.CELL_FREE_RES_CELLS (freeChain (bits v 25 0) d).1 := rfl
  rw [cellFreed, if_neg (by rw [unkept]; decide), (settleFreed_keeps ..).rdb _ _ (by rfl), (settleFreed_keeps ..).rdb _ _ (by rfl), row]
  generalize freeChain (bits v 25 0) d = freed
  refine ⟨(Dev.rdx_wrx_fldAt (by decide)).trans ((Dev.rdb_wrb_same _ _ _ (by decide) (by decide)).trans ?_), Dev.rdb_wrb_same _ _ _ (by decide) (by decide)⟩
  split <;> rfl

/-- A splice joins two chains, or is refused and changes no chain. -/
theorem cellSplice_answers {v : Nat} :
    (cellSplice g v d).rdb g Fd.CELL_SPLICE_H_HANDLE = bits v 25 0 ∧
      match d.pool.splice (d.rdb g Fd.CELL_SPLICE_T_HANDLE) (bits v 25 0) with
      | some p => (cellSplice g v d).pool = p ∧ (cellSplice g v d).rdb g Fd.CELL_SPLICE_RES_RESULT = 1
      | none => (cellSplice g v d).pool = d.pool ∧ (cellSplice g v d).rdb g Fd.CELL_SPLICE_RES_RESULT = 2 ∧
        (cellSplice g v d).rd Fd.CELL_EVT_SPLICE_REF = 1 := by
  have tail : (d.wrb g Fd.CELL_SPLICE_H_HANDLE (bits v 25 0)).rdb g Fd.CELL_SPLICE_T_HANDLE = d.rdb g Fd.CELL_SPLICE_T_HANDLE :=
    Dev.rdx_wrx_reg (by decide)
  have head : (d.wrb g Fd.CELL_SPLICE_H_HANDLE (bits v 25 0)).rdb g Fd.CELL_SPLICE_H_HANDLE = bits v 25 0 :=
    (Dev.rdb_wrb_same _ _ _ (by decide) (by decide)).trans (Nat.mod_eq_of_lt (bits_lt v 25 0))
  have row : cellSplice g v d = match d.pool.splice (d.rdb g Fd.CELL_SPLICE_T_HANDLE) (bits v 25 0) with
      | some p => ({ d.wrb g Fd.CELL_SPLICE_H_HANDLE (bits v 25 0) with pool := p }).wrb g Fd.CELL_SPLICE_RES_RESULT 1
      | none => (((d.wrb g Fd.CELL_SPLICE_H_HANDLE (bits v 25 0)).wrb g Fd.CELL_SPLICE_RES_RESULT 2).add Fd.CELL_CNT_SPLICE_REF 1).wr
          Fd.CELL_EVT_SPLICE_REF 1 := by
    rw [cellSplice, tail] <;> rfl
  rw [row]
  cases d.pool.splice (d.rdb g Fd.CELL_SPLICE_T_HANDLE) (bits v 25 0) with
  | some p => exact ⟨(Dev.rdx_wrx_reg (by decide)).trans head, rfl, Dev.rdb_wrb_same _ _ _ (by decide) (by decide)⟩
  | none =>
    dsimp only
    have kept (f : Fld) (event : f.reg.num % 512 ≠ Fd.CELL_EVT_SPLICE_REF.reg.num % 512) (count : f.reg.num % 512 ≠ Fd.CELL_CNT_SPLICE_REF.reg.num % 512)
        (e : Dev) : ((e.add Fd.CELL_CNT_SPLICE_REF 1).wr Fd.CELL_EVT_SPLICE_REF 1).rdb g f = e.rdb g f :=
      (Dev.rdx_wrx_reg event).trans (Dev.rdx_wrx_reg count)
    refine ⟨?_, rfl, ?_, Dev.rd_wr_same _ _ (by decide) (by decide)⟩
    · rw [kept _ (by decide) (by decide)]; exact (Dev.rdx_wrx_reg (by decide)).trans head
    · rw [kept _ (by decide) (by decide)]; exact Dev.rdb_wrb_same _ _ _ (by decide) (by decide)

/-! ### The pool comes up (R336) -/

/-- CELL.CTL is none of the registers of the areas. -/
theorem areaReg_ne {r : RegDef} (mem : r ∈ [Rg.CELL_DRAM_N, Rg.CELL_BASE_LO, Rg.CELL_BASE_HI, Rg.CELL_LINK_BASE_LO, Rg.CELL_LINK_BASE_HI,
    Rg.CELL_META_BASE_LO, Rg.CELL_META_BASE_HI, Rg.CELL_RING_BASE_LO, Rg.CELL_RING_BASE_HI]) : r.num % 512 ≠ Rg.CELL_CTL.num % 512 := by
  revert r; decide

/-- A write of CELL.CTL with EN set checks the areas where EN was clear. -/
theorem cellCtlWrite_enables {v : Nat} (enable : bit v 0 = true) :
    (cellCtlWrite v d).rd Fd.CELL_CTL_EN = 1 ∧ (d.is Fd.CELL_CTL_EN = false →
      if d.poolFits then (cellCtlWrite v d).pool.initBusy = true ∧ (cellCtlWrite v d).pool.cfgErr = false
      else (cellCtlWrite v d).pool.cfgErr = true) := by
  have low : bits v 0 0 = 1 := by rw [bits_self, enable]; rfl
  have en : ((d.wr Fd.CELL_CTL_HOLD (bits v 1 1)).wr Fd.CELL_CTL_EN (bits v 0 0)).rd Fd.CELL_CTL_EN = 1 := by
    rw [low]; exact Dev.rd_wr_same _ _ (by decide) (by decide)
  have fits : ((d.wr Fd.CELL_CTL_HOLD (bits v 1 1)).wr Fd.CELL_CTL_EN (bits v 0 0)).poolFits = d.poolFits :=
    poolFits_congr (fun r mem => (Dev.regGet_wrx_reg (areaReg_ne mem)).trans (Dev.regGet_wrx_reg (areaReg_ne mem))) rfl
  unfold cellCtlWrite
  dsimp only
  rw [if_pos enable, fits]
  cases was : d.is Fd.CELL_CTL_EN with
  | true => exact ⟨en, nofun⟩
  | false =>
    rw [if_neg Bool.false_ne_true]
    cases d.poolFits with
    | true => exact ⟨en, fun _ => ⟨rfl, rfl⟩⟩
    | false => exact ⟨en, fun _ => rfl⟩

theorem poolReady_ready (d : Dev) :
    (poolReady d).pool.ready = true ∧ (poolReady d).pool.initBusy = false ∧ (poolReady d).pool.used = [] ∧
      (poolReady d).pool.ringFresh = firstDramHandle ∧ (poolReady d).pool.ringEnd = firstDramHandle + d.rd Fd.CELL_DRAM_N_N ∧
      (poolReady d).rd Fd.CELL_EVT_READY = 1 :=
  ⟨rfl, rfl, rfl, rfl, rfl, Dev.rd_wr_same _ _ (by decide) (by decide)⟩

/-! ### Firmware's operations on the CAM (R350) -/

section
variable {v : Nat}

/-- The ENT registers stand beside the result register. -/
theorem camRes_ent (d : Dev) (g st : Nat) : (d.camRes g st).camEnt g = d.camEnt g := by
  have same (f : Fld) (other : f.reg.num % 512 ≠ Rg.CAM_RES.num % 512) : (d.camRes g st).rdb g f = d.rdb g f := by
    unfold Dev.rdb Dev.rdx
    exact congrArg (bits · f.hi f.lo) (Dev.regGet_regSet_other d _ fun key => other (by unfold RegDef.key at key; omega))
  unfold Dev.camEnt
  rw [same _ (by decide), same _ (by decide), same _ (by decide), same _ (by decide), same _ (by decide), same _ (by decide)]

theorem camInvalidate_holds : (camInvalidate g v d).cam.entry (d.rdb g Fd.CAM_IDX_INDEX) =
      { d.cam.entry (d.rdb g Fd.CAM_IDX_INDEX) with st := .held } ∧ (camInvalidate g v d).regGet Rg.CAM_RES 0 g = 0 := by
  obtain ⟨cam, index, _⟩ := cam_fields d g v
  unfold camInvalidate
  dsimp only
  refine ⟨?_, camRes_zero ..⟩
  rw [camRes_cam, index]
  change ((d.camOpFields g v).cam.setEntry _ { (d.camOpFields g v).cam.entry _ with st := .held }).entry _ = _
  rw [cam, entry_setEntry_same]

theorem camWrite_writes : if (d.cam.entry (d.rdb g Fd.CAM_IDX_INDEX)).st = .held then
      (camWrite g v d).cam.entry (d.rdb g Fd.CAM_IDX_INDEX) =
        { st := .held, poison := false, data := BitVec.ofNat 192 (bits (d.camEnt g).toNat 190 0) } ∧ (camWrite g v d).regGet Rg.CAM_RES 0 g = 0
    else (camWrite g v d).cam = d.cam ∧ (camWrite g v d).regGet Rg.CAM_RES 0 g = 2 * 2 ^ 23 := by
  obtain ⟨cam, index, ent⟩ := cam_fields d g v
  unfold camWrite
  dsimp only
  rw [index, cam, ent]
  by_cases held : (d.cam.entry (d.rdb g Fd.CAM_IDX_INDEX)).st = .held
  · rw [if_pos held, if_pos (by rw [held]; rfl)]
    exact ⟨by rw [camRes_cam]; exact entry_setEntry_same .., camRes_zero ..⟩
  · rw [if_neg held, if_neg (by simpa using held)]
    exact ⟨by rw [camRes_cam, cam], camRes_get _ _ _ (by decide)⟩

theorem camValidate_validates : if (d.cam.entry (d.rdb g Fd.CAM_IDX_INDEX)).st ≠ .held then
      (camValidate g v d).cam = d.cam ∧ (camValidate g v d).regGet Rg.CAM_RES 0 g = 2 * 2 ^ 23
    else if camBadEntry (d.cam.entry (d.rdb g Fd.CAM_IDX_INDEX)).data then
      (camValidate g v d).cam = d.cam ∧ (camValidate g v d).regGet Rg.CAM_RES 0 g = 2 ^ 23 ∧ (camValidate g v d).rd Fd.CAM_EVT_BADENT = 1
    else (camValidate g v d).regGet Rg.CAM_RES 0 g = 0 ∧ (camValidate g v d).cam.entry (d.rdb g Fd.CAM_IDX_INDEX) =
      if camKind (d.cam.entry (d.rdb g Fd.CAM_IDX_INDEX)).data = 0 then .free else { d.cam.entry (d.rdb g Fd.CAM_IDX_INDEX) with st := .live } := by
  obtain ⟨cam, index, _⟩ := cam_fields d g v
  unfold camValidate
  dsimp only
  rw [index, cam]
  by_cases held : (d.cam.entry (d.rdb g Fd.CAM_IDX_INDEX)).st ≠ .held
  · rw [if_pos held, if_pos (by simpa using held)]
    exact ⟨by rw [camRes_cam, cam], camRes_get _ _ _ (by decide)⟩
  · rw [if_neg held, if_neg (show ¬((d.cam.entry (d.rdb g Fd.CAM_IDX_INDEX)).st != .held) = true by simpa using held)]
    by_cases bad : camBadEntry (d.cam.entry (d.rdb g Fd.CAM_IDX_INDEX)).data = true
    · rw [if_pos bad, if_pos bad]
      refine ⟨by rw [Dev.wr_cam, camRes_cam, cam], ?_, Dev.rd_wr_same _ _ (by decide) (by decide)⟩
      exact (Dev.regGet_wrx_reg (by decide)).trans ((camRes_get _ _ 1 (by decide)).trans (Nat.one_mul _))
    · rw [if_neg bad, if_neg bad]
      by_cases free : camKind (d.cam.entry (d.rdb g Fd.CAM_IDX_INDEX)).data = 0
      · rw [if_pos free, if_pos free]
        exact ⟨camRes_zero .., by rw [camRes_cam]; exact entry_setEntry_same ..⟩
      · rw [if_neg free, if_neg free]
        exact ⟨camRes_zero .., by rw [camRes_cam]; exact entry_setEntry_same ..⟩

theorem camRead_reads : (camRead g v d).camEnt g =
      BitVec.ofNat 192 (setBits (d.cam.entry (d.rdb g Fd.CAM_IDX_INDEX)).data.toNat 191 191
        (b2n ((d.cam.entry (d.rdb g Fd.CAM_IDX_INDEX)).st == .live))) ∧ (camRead g v d).cam = d.cam := by
  obtain ⟨cam, index, _⟩ := cam_fields d g v
  unfold camRead
  dsimp only
  rw [index, cam]
  exact ⟨by rw [camRes_ent]; exact setCamEnt_ent _ _ _ (setBits_top _ _ (BitVec.isLt _)), by rw [camRes_cam, (Dev.setCamEnt_keeps ..).cam (by rfl), cam]⟩

/-- A firmware search leaves one search less of the stroke. -/
theorem camFwSearch_spends : (camFwSearch g v d).cam.left = d.cam.left - 1 := by
  obtain ⟨cam, _, _⟩ := cam_fields d g v
  unfold camFwSearch
  extract_lets e x key h f
  have spent : f.cam.left = d.cam.left - 1 := by
    have : f.cam = e.spendSearch.cam := (Dev.countHit_keeps ..).cam (by rfl)
    rw [this]
    change e.cam.left - 1 = _
    rw [cam]
  clear_value f h
  cases h
  · dsimp only; rw [Dev.regSet_cam]; exact spent
  · dsimp only; rw [Dev.regSet_cam]; exact spent

/-- A firmware search without budget waits in OP; with budget it is done. -/
theorem camSearchOp_answers : if d.cam.left = 0 then
      (camSearchOp g v d).rdb g Fd.CAM_OP_GO = 1 ∧ (camSearchOp g v d).cam = d.cam ∧ (camSearchOp g v d).rd Fd.CAM_EVT_DEFER = 1
    else (camSearchOp g v d).rdb g Fd.CAM_OP_GO = 0 ∧ (camSearchOp g v d).cam.left = d.cam.left - 1 := by
  unfold camSearchOp
  by_cases spent : d.cam.left = 0
  · rw [if_pos spent, if_pos spent]
    refine ⟨Dev.rdb_wrb_same _ _ _ (by decide) (by decide), ?_, ?_⟩
    · rw [Dev.wrb_cam, Dev.deferSearch, Dev.wr_cam, Dev.add_cam]
      exact (cam_fields d g v).1
    · exact (Dev.rdx_wrx_reg (by decide)).trans (Dev.rd_wr_same _ _ (by decide) (by decide))
  · rw [if_neg spent, if_neg spent]
    exact ⟨Dev.rdb_wrb_same _ _ _ (by decide) (by decide), by rw [Dev.wrb_cam]; exact camFwSearch_spends⟩

end

end

/-- Settles O27: each row is one operation of the pool or of the CAM. -/
theorem poolAndCamAct : Obligations.PoolAndCamAct := by
  refine ⟨fun g v s plain => givesDev_orRsv (by simp [plain]) ?_, fun s r next => ?_, fun g v s plain unkept => ?_, fun g v s plain => ?_,
    fun v s plain => ?_, fun s busy => ?_, fun s => ?_, fun g v s plain => ⟨?_, ?_, ?_, ?_, ?_⟩⟩
  · dsimp only
    by_cases range : bits v.toNat 10 0 = 0 ∨ 1024 < bits v.toNat 10 0
    · rw [if_pos range]; exact cellAllocRequest_refused range
    · rw [if_neg range]
      by_cases may : (s.dev.unasked g).mayGrant (s.dev.unasked g).pool.waiting (allocOf g v.toNat) = true
      · exact (if_pos may).symm ▸ cellAllocRequest_granted range may
      · exact (if_neg may).symm ▸ cellAllocRequest_waits range may
  · change GivesDev (execCellAllocGrant s) s _
    refine givesDev_of_ok (d := cellsGranted r s.dev) ?_ ⟨allocAnswer_result (by decide) _ _, allocAnswer_head _ _⟩
    simp only [next] <;> rfl
  · exact givesDev_orRsv (by simp [plain]) (cellFreed_answers unkept)
  · exact givesDev_orRsv (by simp [plain]) cellSplice_answers
  · have rsv : bits (setBits v.toNat 0 0 1) 31 2 = 0 := (bits_setBits_above (by decide) (by decide)).trans plain
    exact givesDev_orRsv (by simp [plain]) (cellCtlWrite_enables (bit_setBits_same ..))
  · exact givesDev_onlyIf' (b := fun d => d.pool.initBusy) busy (poolReady_ready s.dev)
  · exact givesDev_always ⟨rfl, rfl⟩
  · exact cam_row plain camInvalidate_holds
  · exact cam_row plain camWrite_writes
  · exact cam_row plain camValidate_validates
  · exact cam_row plain camRead_reads
  · exact cam_row plain camSearchOp_answers

end Sys2Proof.Machine

/-! PROOFS. The life of functions and ports. -/

namespace Sys2Proof.Machine

section
variable {d : Dev} {f p : Nat}

/-! ### Functions (R101, R161) -/

/-- CC.EN of a function that is there, with its link up, sets up its admin queues. -/
theorem ccEnSet_enables {asqs acqs : Nat} (here : d.present f = true) (up : (d.port (d.portOf f)).up = true) (secure : d.insecure f = false)
    (off : (d.func f).en = false) :
    ∃ e, ccEnSet f asqs acqs d = .ok e ∧ (e.func f).en = true ∧ (e.func f).rdy = (d.mayBeReady && !(d.func f).stopping) ∧
      ∃ sq cq, (e.func f).sqs = [(0, sq)] ∧ sq.size = asqs + 1 ∧ (e.func f).cqs = [(0, cq)] ∧ cq.size = acqs + 1 := by
  refine ⟨?enabled, ?row, ?func⟩
  case row =>
    simp only [ccEnSet, here, up, secure, off, Bool.not_true, Bool.or_self, Bool.false_eq_true, if_false]
    rfl
  case func =>
    rw [Dev.func_modFunc_same]
    exact ⟨rfl, rfl, _, _, rfl, rfl, rfl, rfl⟩

theorem ccEnClear_disables (here : d.present f = true) (secure : d.insecure f = false) (on : (d.func f).en = true) :
    ∃ e, ccEnClear f d = .ok e ∧ (e.func f).en = false ∧ (e.func f).rdy = false ∧ (e.func f).stopping = true ∧ (e.func f).sqs = [] ∧
      (e.func f).cqs = [] := by
  obtain ⟨y, func, en, rdy, stopping, _, sqs, cqs⟩ := disableFunc_func f false d
  refine ⟨disableFunc f false d, ?_, ?_⟩
  · simp only [ccEnClear, here, secure, on, Bool.not_true, Bool.false_eq_true, if_false, if_true]
  · rw [func]; exact ⟨en, rdy, stopping, sqs, cqs⟩

/-- An FLR disables the function, on a PF with the VFs of its port. -/
theorem functionLevelReset_disables (here : d.present f = true) (secure : d.insecure f = false) :
    ∃ e, functionLevelReset f d = .ok e ∧
      if isPf f then (e.port (d.portOf f)).vfEnable = false ∧ (e.port (d.portOf f)).numVfs = 0
      else (e.func f).en = false ∧ (e.func f).stopping = true ∧ (e.func f).flr = true := by
  simp only [functionLevelReset, here, secure, Bool.not_true, Bool.false_eq_true, if_false]
  cases isPf f with
  | true => exact ⟨_, rfl, vfsOff_port ..⟩
  | false =>
    obtain ⟨y, func, en, _, stopping, flr, _⟩ := disableFunc_func f true d
    refine ⟨_, rfl, ?_⟩
    rw [if_neg Bool.false_ne_true, func]
    exact ⟨en, stopping, flr⟩

/-- On an Insecure stream a function answers that it supports nothing of this. -/
theorem insecure_unsupported {s : State} {f : Fin 1026} {c : Instr} (here : s.dev.present f = true) (insecure : s.dev.insecure f = true)
    (up : (s.dev.port (s.dev.portOf f)).up = true) (on : (s.dev.func f).en = true)
    (row : c ∈ [Instr.ccEnSet f 0 0, .ccEnClear f, .functionLevelReset f, .shutdownNotification f]) :
    GivesDev (exec c s) s fun d => d = s.dev.send (.unsupported f) := by
  simp only [List.mem_cons, List.not_mem_nil, or_false] at row
  obtain rfl | rfl | rfl | rfl := row
  · change GivesDev (onDev s (ccEnSet f _ _)) s _
    exact givesDev_of_ok (by simp only [ccEnSet, here, up, insecure, Bool.not_true, Bool.or_self, Bool.false_eq_true, if_false, if_true]) rfl
  · change GivesDev (onDev s (ccEnClear f)) s _
    exact givesDev_of_ok (by simp only [ccEnClear, here, insecure, Bool.not_true, Bool.false_eq_true, if_false, if_true]) rfl
  · change GivesDev (onDev s (functionLevelReset f)) s _
    exact givesDev_of_ok (by simp only [functionLevelReset, here, insecure, Bool.not_true, Bool.false_eq_true, if_false, if_true]) rfl
  · change GivesDev (onDev s (shutdownNotification f)) s _
    exact givesDev_of_ok (by
      simp only [shutdownNotification, here, on, insecure, Bool.not_true, Bool.or_self, Bool.false_eq_true, if_false, if_true]) rfl

/-! ### Virtual functions and links (R66, R163) -/

theorem vfEnableSet_enables {n : Nat} (there : d.hasPort p = true) (up : (d.port p).up = true) (few : n ≤ d.totalVfs)
    (secure : d.insecure (pfOf p) = false) (off : (d.port p).vfEnable = false) :
    ∃ e, vfEnableSet p n d = .ok e ∧ (e.port p).vfEnable = true ∧ (e.port p).numVfs = n := by
  refine ⟨?enabled, ?row, ?port⟩
  case row =>
    simp only [vfEnableSet, there, up, Nat.not_lt.mpr few, secure, off, Bool.not_true, decide_false, Bool.or_self, Bool.false_eq_true, if_false]
    rfl
  case port =>
    rw [Dev.port_modPort_same]
    exact ⟨rfl, rfl⟩

theorem vfEnableClear_disables (there : d.hasPort p = true) (up : (d.port p).up = true) (secure : d.insecure (pfOf p) = false) :
    ∃ e, vfEnableClear p d = .ok e ∧ (e.port p).vfEnable = false ∧ (e.port p).numVfs = 0 := by
  refine ⟨vfsOff p false d, ?_, vfsOff_port ..⟩
  simp only [vfEnableClear, there, up, secure, Bool.not_true, Bool.or_self, Bool.false_eq_true, if_false]

theorem portLinkDown_downs (there : d.hasPort p = true) (up : (d.port p).up = true) :
    ∃ e, portLinkDown p d = .ok e ∧ (e.port p).up = false ∧ (e.port p).vfEnable = false ∧ (e.port p).secure = [] :=
  ⟨linkDown p d, by simp only [portLinkDown, there, up, Bool.and_self, if_true], linkDown_port p d⟩

theorem portLinkUp_ups {flit : Bool} {rate w : Nat} (there : d.hasPort p = true) (training : (d.port p).training = true)
    (width : d.widthOk w = true) (fast : flit = true → 2 ≤ rate) (slow : flit = false → rate ≠ 5) :
    ∃ e, portLinkUp p flit rate w d = .ok e ∧ (e.port p).up = true ∧ (e.port p).flit = flit ∧ (e.port p).rate = rate ∧ (e.port p).width = w := by
  have valid : (!d.hasPort p || !(d.port p).training || !d.widthOk w || (flit && decide (rate < 2)) || (!flit && decide (rate = 5))) = false := by
    cases flit with
    | true => simp [there, training, width, Nat.lt_of_succ_le (fast rfl)]
    | false => simp [there, training, width, slow rfl]
  refine ⟨?risen, ?row, ?port⟩
  case row =>
    rw [portLinkUp, if_neg (by rw [valid]; decide)]
  case port =>
    rw [port_of_host ((portFault_keeps _).host (by rfl))]
    split
    · rw [Dev.port_modPort_same]; exact ⟨rfl, rfl, rfl, rfl⟩
    · rw [port_of_host ((linkEvent_keeps _ _).host (by rfl)), Dev.port_modPort_same]; exact ⟨rfl, rfl, rfl, rfl⟩

theorem portReset_resets (there : d.hasPort p = true) : ((portReset p d).port p).perst = false ∧ ((portReset p d).port p).training = false := by
  rw [portReset, if_neg (by rw [there]; decide)]
  dsimp only
  rw [Dev.port_modPort_same]
  exact ⟨rfl, rfl⟩

theorem perstRise_rises (there : d.hasPort p = true) :
    ((perstRise p d).port p).perst = true ∧ ((perstRise p d).port p).training = (d.port p).released := by
  rw [perstRise, if_pos there, Dev.port_modPort_same]
  exact ⟨rfl, rfl⟩

/-- A stream that fails goes from Secure to Insecure. -/
theorem ideFailure_insecure {k : Nat} (secure : k ∈ (d.port p).secure) :
    ∃ e, ideFailure p k d = .ok e ∧ k ∉ (e.port p).secure ∧ k ∈ (e.port p).insecure := by
  refine ⟨_, if_pos secure, ?_⟩
  rw [Dev.port_modPort_same]
  exact ⟨by simp, mem_listAdd⟩

/-! ### The end of a teardown, shutdown (R102, R161) -/

theorem teardownDone_ends (torn : d.torn f = true) :
    ∃ e, teardownDone f d = .ok e ∧ (e.func f).stopping = false ∧ (e.func f).flr = false ∧ e.rd Fd.TEN_EVT_TEARDOWN_DONE = 1 := by
  refine ⟨?ended, ?row, ?stopping, ?flr, ?event⟩
  case row => rw [teardownDone, if_neg (by rw [torn]; decide)]
  case stopping => rw [Dev.func, Dev.wr_host, ← Dev.func, Dev.func_modFunc_same]
  case flr => rw [Dev.func, Dev.wr_host, ← Dev.func, Dev.func_modFunc_same]
  case event => exact Dev.rd_wr_same _ _ (by decide) (by decide)

/-- A shutdown is under way, or over, and nothing of the function is fetched any more. -/
theorem shutdownNotification_begins (here : d.present f = true) (on : (d.func f).en = true) (secure : d.insecure f = false) :
    ∃ e, shutdownNotification f d = .ok e ∧ ((e.func f).shn = true ∧ (e.func f).shst = 1 ∨ (e.func f).shst = 2) ∧
      ∀ i ∈ e.host.issued, i.fn ≠ f := by
  refine ⟨?begun, ?row, ?state⟩
  case row =>
    simp only [shutdownNotification, here, on, secure, Bool.not_true, Bool.or_self, Bool.false_eq_true, if_false]
    rfl
  case state =>
    generalize stops : metadataCheckpoint _ = e
    have func : (e.func f).shn = true ∧ (e.func f).shst = 1 := by
      rw [← stops, (metadataCheckpoint_keeps _).func f (by rfl)]
      have same (e : Dev) (left : HostIf → List Issued) : (e.modHost fun h => { h with issued := left h }).func f = e.func f := rfl
      rw [same, Dev.func_modFunc_same]
      exact ⟨rfl, rfl⟩
    have issued : ∀ i ∈ e.host.issued, i.fn ≠ f := by
      rw [← stops, (metadataCheckpoint_keeps _).host (by rfl)]
      exact fun i mem => of_decide_eq_true (List.mem_filter.mp mem).2
    unfold settleShutdown
    split
    · exact ⟨.inr (by rw [Dev.func_modFunc_same]), issued⟩
    · exact ⟨.inl func, issued⟩

/-! ### Registers of functions and classes (R141, R149) -/

theorem tenantWrite_moves (v : Nat) :
    if d.rd Fd.TEN_F_SEL_FUNC < 1026 && d.movable (d.rd Fd.TEN_F_SEL_FUNC) then
      (tenantWrite v d).tenantOf (d.rd Fd.TEN_F_SEL_FUNC) = bits v 9 0
    else (tenantWrite v d).rd Fd.TEN_EVT_MOVE_IGN = 1 := by
  unfold tenantWrite
  dsimp only
  split
  · exact (Dev.rdb_wrb_same _ _ _ (by decide) (by decide)).trans (Nat.mod_eq_of_lt (bits_lt v 9 0))
  · exact Dev.rd_wr_same _ _ (by decide) (by decide)

/-- A class takes its owner, and but class 15 its flags. -/
theorem classWrite_sets (cls v : Nat) :
    (classWrite cls v d).rdb cls Fd.TEN_CLS_CFG_OWNER = bits v 9 0 ∧ (cls ≠ 15 →
      (classWrite cls v d).rdb cls Fd.TEN_CLS_CFG_EXCL = bits v 31 31 ∧ (classWrite cls v d).rdb cls Fd.TEN_CLS_CFG_PACE = bits v 30 30) := by
  have owner : (d.wrb cls Fd.TEN_CLS_CFG_OWNER (bits v 9 0)).rdb cls Fd.TEN_CLS_CFG_OWNER = bits v 9 0 :=
    (Dev.rdb_wrb_same _ _ _ (by decide) (by decide)).trans (Nat.mod_eq_of_lt (bits_lt v 9 0))
  by_cases last : cls = 15
  · rw [classWrite, if_pos last]
    exact ⟨owner, fun other => absurd last other⟩
  · have flag (w i : Nat) : bits w i i % 2 = bits w i i := Nat.mod_eq_of_lt (by have := bits_lt w i i; rw [Nat.sub_self] at this; exact this)
    rw [classWrite, if_neg last]
    refine ⟨?_, fun _ => ⟨?_, ?_⟩⟩
    · exact (Dev.rdx_wrx_fldAt (by decide)).trans ((Dev.rdx_wrx_fldAt (by decide)).trans ((Dev.rdx_wrx_fldAt (by decide)).trans owner))
    · exact (Dev.rdx_wrx_fldAt (by decide)).trans ((Dev.rdx_wrx_fldAt (by decide)).trans
        ((Dev.rdb_wrb_same _ _ _ (by decide) (by decide)).trans (flag v 31)))
    · exact (Dev.rdx_wrx_fldAt (by decide)).trans ((Dev.rdb_wrb_same _ _ _ (by decide) (by decide)).trans (flag v 30))

end

/-- Settles O28: each row is one change of a function or a port. -/
theorem functionsLive : Obligations.FunctionsLive :=
  ⟨fun _ _ _ _ here up secure off => givesDev_of_exists (ccEnSet_enables here up secure off),
    fun _ _ here secure on => givesDev_of_exists (ccEnClear_disables here secure on),
    fun _ _ here secure => givesDev_of_exists (functionLevelReset_disables here secure),
    fun _ _ _ there up few secure off => givesDev_of_exists (vfEnableSet_enables there up few secure off),
    fun _ _ there up => ⟨fun secure => givesDev_of_exists (vfEnableClear_disables there up secure),
      givesDev_of_exists (portLinkDown_downs there up)⟩,
    fun _ _ _ here insecure up on row => insecure_unsupported here insecure up on row,
    fun _ _ _ _ _ there training width fast slow => givesDev_of_exists (portLinkUp_ups there training width fast slow),
    fun _ _ there => ⟨givesDev_always (portReset_resets there), givesDev_always (perstRise_rises there)⟩,
    fun _ _ _ secure => givesDev_of_exists (ideFailure_insecure secure),
    fun _ _ torn => givesDev_of_exists (teardownDone_ends torn),
    fun _ _ here on secure => givesDev_of_exists (shutdownNotification_begins here on secure),
    fun v s plain => givesDev_orRsv (by simp [plain]) (tenantWrite_moves _),
    fun v s plain => givesDev_orRsv (f := fun d => classWrite (d.rd Fd.TEN_CLS_SEL_CLASS) v.toNat d) (by simp [plain])
      (classWrite_sets (s.dev.rd Fd.TEN_CLS_SEL_CLASS) v.toNat)⟩

end Sys2Proof.Machine

/-! PROOFS. DOE mailboxes and SPDM. -/

namespace Sys2Proof.Machine

section
variable {d : Dev} {p : Nat}

/-! ### Responses -/

theorem spdmReply_answers (p code : Nat) (xs : List Nat) {d e : Dev} (same : e.out = d.out) : Answers p code xs d (spdmReply p code xs e) :=
  congrArg (Out.doe p (Config.encode (0x1200 + code) xs) :: ·) same

theorem spdm_spdmReply (p code : Nat) (xs : List Nat) (d : Dev) (q : Nat) : (spdmReply p code xs d).spdm q = d.spdm q := by
  rw [Dev.spdm, spdmReply, Dev.send_host]; rfl

/-- A response to a change of the connection. -/
theorem spdmReply_modSpdm (p code : Nat) (xs : List Nat) (f : Spdm → Spdm) (d : Dev) :
    Answers p code xs d (spdmReply p code xs (d.modSpdm p f)) ∧ (spdmReply p code xs (d.modSpdm p f)).spdm p = f (d.spdm p) :=
  ⟨spdmReply_answers _ _ _ rfl, by rw [spdm_spdmReply, spdm_modSpdm]⟩

/-- A response inside a session goes out under the session's key. -/
theorem secureReply_answers {n : Nat} (code : Nat) (xs : List Nat) {x : SpdmKeys} {d e : Dev} (keys : mapFind (e.spdm p).keys n = some x)
    (same : e.out = d.out) : AnswersIn p n code xs x d (secureReply p n code xs e) := by
  unfold secureReply
  rw [keys]
  exact congrArg (_ :: ·) same

theorem secureReply_spdm (p n code : Nat) (xs : List Nat) (d : Dev) (q : Nat) : (secureReply p n code xs d).spdm q = d.spdm q := by
  unfold secureReply
  split
  · rw [Dev.spdm, Dev.send_host]; rfl
  · exact spdm_spdmReply ..

/-! ### The connection -/

theorem getVersion_begins : Answers p 0x04 [0x12, 0x13] d (getVersion p d) ∧ ((getVersion p d).spdm p).version = 0x10 ∧
    ((getVersion p d).spdm p).caps = false ∧ ((getVersion p d).spdm p).sessions = [] := by
  obtain ⟨answers, spdm⟩ := spdmReply_modSpdm p 0x04 spdmVersions
    (fun x => { Spdm.reset with version := 0x10, nextSession := x.nextSession }) d
  unfold getVersion
  rw [spdm]
  exact ⟨answers, rfl, rfl, rfl⟩

theorem getCapabilities_agrees {v : Nat} (known : v ∈ spdmVersions) (begun : (d.spdm p).version ≠ 0)
    (same : (d.spdm p).caps = true → (d.spdm p).version = v) :
    Answers p 0x61 [v] d (getCapabilities p v d) ∧ ((getCapabilities p v d).spdm p).version = v ∧ ((getCapabilities p v d).spdm p).caps = true := by
  obtain ⟨answers, spdm⟩ := spdmReply_modSpdm p 0x61 [v] (fun x => { x with version := v, caps := true }) d
  have expected : ¬(decide ((d.spdm p).version = 0) || ((d.spdm p).caps && decide ((d.spdm p).version ≠ v))) = true := by
    simpa [begun] using same
  rw [getCapabilities, if_neg (not_not.mpr known)]
  rw [if_neg expected, spdm]
  exact ⟨answers, rfl, rfl⟩

theorem negotiate_agrees {chosen : Nat} (caps : (d.spdm p).caps = true) :
    Answers p 0x63 [chosen] d (negotiate p chosen d) ∧ ((negotiate p chosen d).spdm p).algs = true ∧
      ((negotiate p chosen d).spdm p).chosen = chosen := by
  obtain ⟨answers, spdm⟩ := spdmReply_modSpdm p 0x63 [chosen] (fun x => { x with algs := true, chosen := chosen }) d
  rw [negotiate, if_pos caps, spdm]
  exact ⟨answers, rfl, rfl⟩

/-! ### Identity -/

theorem getCertificate_answers {c off len : Nat} {bs : List Byte} (chain : d.certChain c = some bs) (inside : off ≤ bs.length) :
    Answers p 0x02 ([c, ((bs.drop off).take (min len (65536 - 16))).length,
      bs.length - off - ((bs.drop off).take (min len (65536 - 16))).length] ++ ((bs.drop off).take (min len (65536 - 16))).map (·.toNat))
      d (getCertificate p c off len d) := by
  unfold getCertificate
  rw [chain]
  dsimp only
  rw [if_neg (Nat.not_lt.mpr inside)]
  exact spdmReply_answers _ _ _ rfl

theorem challenge_signs (nonce : Nat) : ∃ xs, Answers p 0x03 (xs ++ [d.signed 0x03 nonce xs]) d (challenge p 0 nonce d) := by
  unfold challenge
  rw [if_neg (not_not.mpr rfl)]
  exact ⟨_, spdmReply_answers _ _ _ rfl⟩

/-- The measurements that an index names. -/
def Dev.measured (d : Dev) (i : Nat) : List Nat :=
  if i = 0 then [measCount] else if i = 0xFF then (List.range measCount).flatMap fun k => d.measure (k + 1) else d.measure i

theorem getMeasurements_answers {i : Nat} (sign : Bool) (nonce : Nat) (known : i ≤ measCount ∨ i = 0xFF) :
    if sign then ∃ r, Answers p 0x60 (d.measured i ++ [r, d.signed 0x60 nonce (d.measured i)]) d (getMeasurements p i sign nonce d)
    else Answers p 0x60 (d.measured i) d (getMeasurements p i sign nonce d) := by
  have valid : ¬(decide (measCount < i) && decide (i ≠ 0xFF)) = true := by
    simp only [Bool.and_eq_true, decide_eq_true_eq]
    omega
  have row : getMeasurements p i sign nonce d = spdmReply p 0x60
      (if sign then d.measured i ++ [(Config.random d.nfree).toNat, d.signed 0x60 nonce (d.measured i)] else d.measured i) (d.tick 1) := by
    rw [getMeasurements, if_neg valid]; rfl
  rw [row]
  cases sign with
  | true => exact ⟨_, spdmReply_answers _ _ _ rfl⟩
  | false => exact spdmReply_answers _ _ _ rfl

/-! ### Sessions -/

theorem spdmKeyExchange_opens (nonce : Nat) (pub : BitVec 768) (room : (d.spdm p).sessions.length < maxSessions) :
    ((spdmKeyExchange p 0 nonce pub d).spdm p).sessions = (d.spdm p).sessions ++ [((d.spdm p).nextSession, false)] ∧
      ∃ xs, Answers p 0x64 (xs ++ [d.signed 0x64 nonce xs]) d (spdmKeyExchange p 0 nonce pub d) := by
  unfold spdmKeyExchange
  dsimp only
  rw [if_neg (not_not.mpr rfl), if_neg (Nat.not_le.mpr room)]
  refine ⟨?_, _, spdmReply_answers _ _ _ rfl⟩
  rw [spdm_spdmReply]
  change ((d.modSpdm p _).spdm p).sessions = _
  rw [spdm_modSpdm]

/-- A session that is named is found after its mark. -/
theorem session_finished {x : Spdm} {n : Nat} {b : Bool} (open' : x.session n = some b) :
    Spdm.session { x with sessions := x.sessions.map fun e => if e.1 = n then (n, true) else e } n = some true := by
  have found : ∀ es : List (Nat × Bool), (es.find? fun e => decide (e.1 = n)).map (·.2) = some b →
      ((es.map fun e => if e.1 = n then (n, true) else e).find? fun e => decide (e.1 = n)).map (·.2) = some true := by
    intro es
    induction es with
    | nil => exact nofun
    | cons e es ih =>
      intro named
      by_cases here : e.1 = n
      · simp [here]
      · simp only [List.find?_cons, here, decide_false] at named
        simp only [List.map_cons, here, if_false, List.find?_cons, decide_false]
        exact ih named
  exact found x.sessions open'

theorem spdmFinish_secures {n : Nat} (handshake : (d.spdm p).session n = some false) :
    Answers p 0x65 [n] d (spdmFinish p n true d) ∧ ((spdmFinish p n true d).spdm p).session n = some true := by
  obtain ⟨answers, spdm⟩ := spdmReply_modSpdm p 0x65 [n]
    (fun x => { x with sessions := x.sessions.map fun e => if e.1 = n then (n, true) else e }) d
  have row : spdmFinish p n true d = spdmReply p 0x65 [n]
      (d.modSpdm p fun x => { x with sessions := x.sessions.map fun e => if e.1 = n then (n, true) else e }) := by
    rw [spdmFinish, if_neg (not_not.mpr handshake)]; rfl
  rw [row, spdm]
  exact ⟨answers, session_finished handshake⟩

/-- The keys of a session after a change of them. -/
theorem mapFind_map_same {α : Type} (g : α → α) (n : Nat) :
    ∀ m : SMap α, mapFind (m.map fun e => if e.1 = n then (n, g e.2) else e) n = (mapFind m n).map g
  | [] => rfl
  | (a, w) :: rest => by
    by_cases named : a = n
    · simp [mapFind, named]
    · simp [mapFind, named, mapFind_map_same g n rest]

/-- The keys of a session after a key update. -/
def SpdmKeys.updated (x : SpdmKeys) (op : Nat) : SpdmKeys :=
  { x with reqGen := x.reqGen + b2n (decide (op ≠ 3)), rspGen := x.rspGen + b2n (decide (op = 2)) }

theorem keyUpdate_answers {n op : Nat} {x : SpdmKeys} (keys : mapFind (d.spdm p).keys n = some x) (known : op ∈ [1, 2, 3]) :
    AnswersIn p n 0x69 [n, op] (x.updated op) d (keyUpdate p n op d) ∧ mapFind ((keyUpdate p n op d).spdm p).keys n = some (x.updated op) := by
  have valid : (decide (1 ≤ op) && decide (op ≤ 3)) = true := by
    simp only [List.mem_cons, List.not_mem_nil, or_false] at known
    simp only [Bool.and_eq_true, decide_eq_true_eq]
    omega
  have row : keyUpdate p n op d = secureReply p n 0x69 [n, op] (d.modSpdm p fun x => { x with keys := x.keys.map fun e =>
      if e.1 = n then (n, e.2.updated op) else e }) := by
    rw [keyUpdate, if_pos valid]; rfl
  have updated : mapFind ((d.modSpdm p fun x => { x with keys := x.keys.map fun e =>
      if e.1 = n then (n, e.2.updated op) else e }).spdm p).keys n = some (x.updated op) := by
    rw [spdm_modSpdm]
    exact (mapFind_map_same (SpdmKeys.updated · op) n _).trans (congrArg (Option.map _) keys)
  rw [row, secureReply_spdm]
  exact ⟨secureReply_answers _ _ updated rfl, updated⟩

theorem dropSession_session (p n : Nat) (d : Dev) : ((dropSession p n d).spdm p).session n = none := by
  rw [dropSession, spdm_modSpdm]
  exact congrArg (Option.map _) (List.find?_eq_none.mpr fun e mem named => by
    have other := (List.mem_filter.mp mem).2
    simp only [decide_eq_true_eq] at other named
    exact other named)

/-! ### IDE keys (R70, R71) -/

theorem ideKm_keys (k : Nat) : k ∈ ((ideKm p k false d).port p).keyed ∧ (ideKm p k false d).out = .ideKm p k true :: d.out := by
  refine ⟨?_, rfl⟩
  change k ∈ ((d.modPort p _).port p).keyed
  rw [Dev.port_modPort_same]
  exact mem_listAdd

theorem ideKm_secures {k : Nat} (keyed : k ∈ (d.port p).keyed) :
    k ∈ ((ideKm p k true d).port p).secure ∧ k ∉ ((ideKm p k true d).port p).insecure ∧ (ideKm p k true d).out = .ideKm p k true :: d.out := by
  have row : ideKm p k true d = (d.modPort p fun x => { x with
      keyed := x.keyed.filter fun j => j ≠ k, insecure := x.insecure.filter fun j => j ≠ k, secure := listAdd x.secure k }).send
      (.ideKm p k true) := by
    rw [ideKm, if_neg (by decide), if_pos keyed]
  rw [row]
  refine ⟨?_, ?_, rfl⟩
  · rw [port_of_host (Dev.send_host ..), Dev.port_modPort_same]
    exact mem_listAdd
  · rw [port_of_host (Dev.send_host ..), Dev.port_modPort_same]
    simp

end

/-- Settles O29: each request object is one answer, and one change of the connection of its port. -/
theorem mailboxesAnswer : Obligations.MailboxesAnswer := by
  refine ⟨fun p i s box => onMailbox_gives box rfl, fun p s box => onMailbox_gives box getVersion_begins,
    fun p v s box known begun same => onMailbox_gives box (getCapabilities_agrees known begun same),
    fun p a b c e s box caps => onMailbox_gives box (negotiate_agrees caps), fun p s box agreed => onMailbox_gives box ?_,
    fun p c off len s bs box agreed chain inside => onMailbox_gives box ?_, fun p nonce s box agreed => onMailbox_gives box ?_,
    fun p i sign nonce s box agreed known => onMailbox_gives box ?_, fun p nonce pub s box agreed room => onMailbox_gives box ?_,
    fun p n s box handshake => onMailbox_gives box (spdmFinish_secures handshake),
    fun p n s x box open' keys => ⟨onMailbox_gives box ?_, fun op known => onMailbox_gives box ?_, onMailbox_gives box ?_,
      fun k => onMailbox_gives box ?_, fun k keyed => onMailbox_gives box ?_⟩⟩
  · rw [afterNegotiation_agreed agreed]; exact spdmReply_answers _ _ _ rfl
  · rw [afterNegotiation_agreed agreed]; exact getCertificate_answers chain inside
  · rw [afterNegotiation_agreed agreed]; exact challenge_signs _
  · rw [afterNegotiation_agreed agreed]; exact getMeasurements_answers sign _ known
  · rw [afterNegotiation_agreed agreed]; exact spdmKeyExchange_opens _ pub room
  · rw [inSession_open open']; exact secureReply_answers _ _ keys rfl
  · rw [inSession_open open']
    have updated : x.updated op.toNat = { x with
        reqGen := x.reqGen + (if op.toNat = 3 then 0 else 1), rspGen := x.rspGen + (if op.toNat = 2 then 1 else 0) } := by
      simp only [SpdmKeys.updated, b2n, decide_eq_true_eq, ne_eq, ite_not]
    have answers := keyUpdate_answers keys known
    rw [updated] at answers
    exact answers
  · rw [inSession_open open']; exact ⟨secureReply_answers _ _ keys rfl, dropSession_session ..⟩
  · rw [inSession_open open']; exact ideKm_keys _
  · rw [inSession_open open']; exact ideKm_secures keyed

end Sys2Proof.Machine

/-! PROOFS. Retirement, rebuild, replacement, migration, checkpoints and self-test (R197, R222, R224, R230, R271, R274, R282, R283). -/

namespace Sys2Proof.Machine

/-! ### Retired dies and channels -/

theorem retireDie_st (n t : Nat) (d : Dev) : ((retireDie n t d).die n t).st = .retired := by
  unfold retireDie
  rw [Dev.die_modDie_same]

theorem retireChan_chan (n : Nat) (d : Dev) : ((retireChan n d).chan n).retired = true ∧ ((retireChan n d).chan n).pq = [] := by
  unfold retireChan
  rw [Dev.chan_modChan_same]
  exact ⟨rfl, rfl⟩

theorem dieCtl_retires {ch v : Nat} (retire : bit v 1 = true) (d : Dev) :
    ((dieCtl ch v d).die ch (d.rdc ch Fd.SEQ_DIE_SEL_TARGET)).st = .retired := by
  have written : ((dieCtlWrite ch v d).die ch (d.rdc ch Fd.SEQ_DIE_SEL_TARGET)).st = .retired := by
    unfold dieCtlWrite
    dsimp only
    rw [if_pos retire, retireDie_st]
  unfold dieCtl
  dsimp only
  split
  · rw [((dieRetired_blocks _ _ _) ch).2.2, written]
  · exact written

/-- A write of SEQ_DIE_CTL while the sequencer is off, and of an idle or absent die, says whether the die is there (R197). -/
theorem dieCtl_present {ch v : Nat} {d : Dev} (stays : bit v 1 = false) (off : d.isc ch Fd.SEQ_CTL_EN = false)
    (idle : (d.die ch (d.rdc ch Fd.SEQ_DIE_SEL_TARGET)).st ∈ [.absent, .idle]) :
    ((dieCtl ch v d).die ch (d.rdc ch Fd.SEQ_DIE_SEL_TARGET)).st = if bit v 0 then .idle else .absent := by
  have free : (!((d.die ch (d.rdc ch Fd.SEQ_DIE_SEL_TARGET)).st == .absent || (d.die ch (d.rdc ch Fd.SEQ_DIE_SEL_TARGET)).st == .idle)) = false := by
    rcases List.mem_pair.1 idle with h | h <;> rw [h] <;> rfl
  have written : ((dieCtlWrite ch v d).die ch (d.rdc ch Fd.SEQ_DIE_SEL_TARGET)).st = if bit v 0 then .idle else .absent := by
    unfold dieCtlWrite
    dsimp only
    rw [off, free, stays, if_neg Bool.false_ne_true, Bool.or_self, if_neg Bool.false_ne_true, Dev.die_modDie_same]
    split <;> rfl
  unfold dieCtl
  dsimp only
  rw [if_neg ?kept]
  case kept => rw [written]; cases bit v 0 <;> simp
  exact written

theorem seqCtl_retires {ch v : Nat} (retire : bit v 1 = true) (d : Dev) :
    ((seqCtl ch v d).chan ch).retired = true ∧ ((seqCtl ch v d).chan ch).pq = [] := by
  have written : ((seqCtlWrite ch v d).chan ch).retired = true ∧ ((seqCtlWrite ch v d).chan ch).pq = [] := by
    unfold seqCtlWrite
    dsimp only
    rw [if_pos retire]
    exact retireChan_chan _ _
  unfold seqCtl
  dsimp only
  split
  · have kept := (chanRetired_blocks ch (Dev.chanCauseOf (seqCtlWrite ch v d) ch) (d.liveTargets ch) (seqCtlWrite ch v d)) ch
    exact ⟨kept.1.trans written.1, kept.2.1.trans written.2⟩
  · exact written

/-- A register write of 32 bits that is clear from bit 1 on is so from bit 2 on, and its bit 1 is clear. -/
theorem bits_from_one {v : Nat} (clear : bits v 31 1 = 0) : bits v 31 2 = 0 ∧ bit v 1 = false := by
  unfold bits at clear ⊢
  unfold bit
  simp only [decide_eq_false_iff_not]
  omega

/-! ### Where a block of a die serves -/

theorem mapped_eq {d : Dev} {m : SMap Nat} {die b die' b' : Nat} (remap : d.med.remap = mapSet (blockKey die b) m (blockKey die b) (blockKey die' b'))
    (fits : b' < 4096) : d.mapped die b = (die', b') := by
  have key : (mapFind d.med.remap (blockKey die b)).getD (blockKey die b) = blockKey die' b' := by
    rw [remap, ← mapGet_eq_getD, mapGet_set_same]
  unfold Dev.mapped
  rw [key]
  unfold blockKey
  exact Prod.ext (by dsimp only; omega) (by dsimp only; omega)

/-- A rebuilt member serves from its destination, is no longer lost to its row, and its rebuild is over (R271). -/
theorem rebuildSwitch_serves {g r m : Nat} {x : Rebuild} {p : Nat × Nat} {d : Dev}
    (found : d.med.rebuild.find? (fun x => decide (x.group = g) && decide (x.row = r) && decide (x.member = m)) = some x)
    (dest : x.dest = some p) (fits : p.2 < 4096) :
    ∃ e, rebuildSwitch g r m d = .ok e ∧ e.mapped (memberDie g m) r = p ∧ m ∉ (e.row g r).lost ∧ x ∉ e.med.rebuild := by
  unfold rebuildSwitch
  rw [found]
  dsimp only
  rw [dest]
  dsimp only
  refine ⟨_, rfl, ?_⟩
  generalize hd1 : forUpTo x.front (fun wl d => rebuildUnit x p wl d) d = d1
  generalize hc : (mapGet DieHealth.fresh d1.med.dies (memberDie g m)).cause = c
  have flag : ∀ e : Dev, (rebuildFlag e).med = e.med := fun e => (rebuildFlag_keeps e).med (by rfl)
  refine ⟨?mapped, ?lost, ?ended⟩
  case mapped =>
    refine mapped_eq (die' := p.1) (b' := p.2) (m := ?_) ?_ fits
    case refine_2 => rw [flag]; rfl
  case lost =>
    unfold Dev.row
    rw [flag]
    dsimp only [Dev.modMed, Dev.modRow]
    rw [mapGet_mod_same]
    simp
  case ended =>
    rw [flag]
    change x ∉ List.filter _ _
    simp

/-! ### Block replacement -/

theorem orderErase_replace (die b k : Nat) (slc : Bool) (d : Dev) : (orderErase die b k slc d).med.replace = d.med.replace := rfl
theorem orderErase_remap (die b k : Nat) (slc : Bool) (d : Dev) : (orderErase die b k slc d).med.remap = d.med.remap := rfl

/-- A die's first wanted block gets its spare: its replacement is under way, ready where the spare is erased (R230, log entry 116). -/
theorem readySpare_replace (die : Nat) (p : Replace) (d : Dev) :
    mapFind (readySpare die p d).med.replace die = some { p with done := 0, ready := !d.blockUsed die p.spare } := by
  unfold readySpare
  dsimp only
  split
  · rw [orderErase_replace]; exact mapFind_insert_same _ _ _
  · exact mapFind_insert_same _ _ _

theorem blockReplacement_begins {die b : Nat} {w : Wanted} {d : Dev} (wanted : d.med.wanted.find? (fun w => decide (w.die = die)) = some w)
    (idle : mapFind d.med.replace die = none) (spare : d.bestSpare die = some b) :
    ∃ e, blockReplacement die d = .ok e ∧ mapFind e.med.replace die = some
      { home := w.home, block := w.role, old := (d.mapped w.home w.role).2, spare := b, cause := w.cause, first := w.wl, done := 0,
        ready := !d.blockUsed die b } := by
  unfold blockReplacement
  rw [wanted, idle]
  dsimp only
  rw [show (d.modMed fun m => { m with wanted := listEraseFirst (fun x => x == w) m.wanted }).bestSpare die = some b from spare]
  refine ⟨_, rfl, ?_⟩
  rw [readySpare_replace]
  have used : ∀ e : Dev, e.media = d.media → e.blockUsed die b = d.blockUsed die b := fun e h => by unfold Dev.blockUsed; rw [h]
  rw [used]
  exact (badRecord_keeps _ _ _ _ _ _ _ _).media (by rfl)

theorem abandonMigration_wanted (z : Zone) (d : Dev) :
    (abandonMigration z d).med.replace = d.med.replace ∧ (abandonMigration z d).med.wanted = d.med.wanted := by
  unfold abandonMigration
  split <;> exact ⟨rfl, rfl⟩

/-- What marks a zone for its row leaves the replacements alone. -/
theorem markZone_wanted (n z c : Nat) (d : Dev) :
    (markZone n z c d).med.replace = d.med.replace ∧ (markZone n z c d).med.wanted = d.med.wanted := by
  unfold markZone
  extract_lets x d1
  split
  · exact ⟨rfl, rfl⟩
  · have row : d1.med.replace = d.med.replace ∧ d1.med.wanted = d.med.wanted := by
      simp only [d1]
      split
      · split <;> exact ⟨rfl, rfl⟩
      · exact ⟨rfl, rfl⟩
    rw [(askProgram_keeps _ _ _ _).med (by rfl), (padMarked_keeps _ _ _).med (by rfl), (Dev.modZone_keeps _ _ _ _).med (by rfl),
      (abandonMigration_wanted _ _).1, (abandonMigration_wanted _ _).2]
    exact row

theorem blockReplacement_worn {die : Nat} {w : Wanted} {d : Dev} (wanted : d.med.wanted.find? (fun w => decide (w.die = die)) = some w)
    (idle : mapFind d.med.replace die = none) (spare : d.bestSpare die = none) :
    ∃ e, blockReplacement die d = .ok e ∧ mapFind e.med.replace die = none ∧ e.med.wanted = listEraseFirst (fun x => x == w) d.med.wanted := by
  have worn : ∀ e : Dev, (wantSpare w e).med.replace = e.med.replace ∧ (wantSpare w e).med.wanted = e.med.wanted := fun e => by
    unfold wantSpare wornMark
    dsimp only
    split
    · exact markZone_wanted _ _ _ _
    · exact ⟨rfl, rfl⟩
  unfold blockReplacement
  rw [wanted, idle]
  dsimp only
  rw [show (d.modMed fun m => { m with wanted := listEraseFirst (fun x => x == w) m.wanted }).bestSpare die = none from spare]
  refine ⟨_, rfl, ?_⟩
  rw [(worn _).1, (worn _).2]
  exact ⟨idle, rfl⟩

theorem settleOld_replace (n : Nat) (d : Dev) :
    (settleOld n d).med.replace = d.med.replace ∧ (settleOld n d).med.remap = d.med.remap := by
  unfold settleOld
  refine foldl_inv (P := fun a b : Dev => b.med.replace = a.med.replace ∧ b.med.remap = a.med.remap) (fun _ => ⟨rfl, rfl⟩)
    (fun _ _ _ h k => ⟨k.1.trans h.1, k.2.trans h.2⟩) (fun e x => ?_) _ d
  dsimp only
  split
  · exact ⟨rfl, rfl⟩
  · split <;> exact ⟨rfl, rfl⟩

/-- A whole copy serves: the remap names the spare, and the replacement is over (R230). -/
theorem replacementSwitch_serves {die : Nat} {p : Replace} {d : Dev} (found : mapFind d.med.replace die = some p) (ready : p.ready = true)
    (fits : p.spare < 4096) :
    ∃ e, replacementSwitch die d = .ok e ∧ mapFind e.med.replace die = none ∧ e.mapped p.home p.block = (die, p.spare) := by
  unfold replacementSwitch
  rw [found]
  dsimp only
  rw [if_pos ready]
  refine ⟨_, rfl, ?_, mapped_eq (m := (copyBlock die p d).med.remap) ?_ fits⟩
  · rw [(settleOld_replace _ _).1]
    exact mapFind_erase_same _ _
  · rw [(settleOld_replace _ _).2]
    rfl

/-! ### Row migration -/

/-- What only moves blocks and records leaves the zones and the moves of rows as they are. -/
structure BindingsHeld (d e : Dev) : Prop where
  zones : e.zm.zones = d.zm.zones
  migrate : e.med.migrate = d.med.migrate

theorem BindingsHeld.refl (d : Dev) : BindingsHeld d d := ⟨rfl, rfl⟩
theorem BindingsHeld.trans {d e f : Dev} (h : BindingsHeld d e) (k : BindingsHeld e f) : BindingsHeld d f :=
  ⟨k.zones.trans h.zones, k.migrate.trans h.migrate⟩
theorem BindingsHeld.of_same {d e : Dev} (zm : e.zm = d.zm) (med : e.med = d.med) : BindingsHeld d e := ⟨by rw [zm], by rw [med]⟩
theorem BindingsHeld.foldl {α : Type} {f : Dev → α → Dev} (h : ∀ d a, BindingsHeld d (f d a)) (l : List α) (d : Dev) :
    BindingsHeld d (l.foldl f d) := foldl_inv (P := BindingsHeld) .refl (fun _ _ _ => .trans) h l d
theorem BindingsHeld.forUpTo {n : Nat} {f : Nat → Dev → Dev} (h : ∀ i d, BindingsHeld d (f i d)) (d : Dev) :
    BindingsHeld d (forUpTo n f d) := forUpTo_keeps (P := BindingsHeld d) (.refl d) fun i e held => held.trans (h i e)

theorem wantReplace_binds (die b c wl : Nat) (d : Dev) : BindingsHeld d (wantReplace die b c wl d) := by
  refine ⟨by rw [(wantReplace_keeps _ _ _ _ _).zm (by rfl)], ?_⟩
  unfold wantReplace
  split
  extract_lets spare
  split
  extract_lets bound
  split
  · rfl
  · split
    · rfl
    · split <;> rfl
theorem countReads_binds (ks : List Nat) (d : Dev) : BindingsHeld d (countReads ks d) := by
  unfold countReads
  dsimp only
  refine .trans (e := d.modMed _) ⟨rfl, rfl⟩ (.foldl (fun e b => ?_) _ _)
  exact iteP (P := BindingsHeld e) (fun _ => wantReplace_binds _ _ _ _ _) (fun _ => .refl _)
theorem healthEvent_binds (k c x r g n z : Nat) (d : Dev) : BindingsHeld d (healthEvent k c x r g n z d) := by
  have lost : ∀ (e : HealthEvent) (d : Dev), BindingsHeld d (loseEvent e d) := fun e d => by
    unfold loseEvent
    refine .foldl (fun d f => ?_) _ _
    split
    · exact ⟨rfl, rfl⟩
    · exact .refl _
  unfold healthEvent
  extract_lets d1 ev
  have first : BindingsHeld d d1 := by
    simp only [d1]
    split
    · exact lost _ _
    · exact .refl _
  exact first.trans ⟨rfl, rfl⟩
theorem badRecord_binds (die b c st g sp w : Nat) (d : Dev) : BindingsHeld d (badRecord die b c st g sp w d) := by
  unfold badRecord
  extract_lets r new recs d1 d2 kind
  have h1 : BindingsHeld d d1 := ⟨rfl, rfl⟩
  exact (h1.trans (f := d2) ⟨rfl, rfl⟩).trans (healthEvent_binds _ _ _ _ _ _ _ _)
theorem remapTo_binds (die r : Nat) (p : Nat × Nat) (c st : Nat) (d : Dev) : BindingsHeld d (remapTo die r p c st d) := by
  unfold remapTo
  dsimp only
  exact .trans (badRecord_binds _ _ _ _ _ _ _ _) ⟨rfl, rfl⟩
theorem replaceFixed_binds (die b role : Nat) (sp : Option Nat) (d : Dev) : BindingsHeld d (replaceFixed die b role sp d) := by
  unfold replaceFixed
  split
  · dsimp only
    split <;> exact ⟨rfl, rfl⟩
  · split
    · exact healthEvent_binds _ _ _ _ _ _ _ _
    · exact .refl _
theorem makeBad_binds (die b c : Nat) (d : Dev) : BindingsHeld d (makeBad die b c d) := by
  unfold makeBad
  dsimp -zeta only
  extract_lets own spare d1 d2 d3 d4
  have h1 : BindingsHeld d d1 := badRecord_binds _ _ _ _ _ _ _ _
  have h3 : BindingsHeld d1 d3 := ⟨rfl, rfl⟩
  have h4 : BindingsHeld d3 d4 := by
    simp only [d4]
    split
    · split
      · exact wantReplace_binds _ _ _ _ _
      · exact .refl _
    · exact .refl _
  refine (h1.trans h3).trans (h4.trans ?_)
  split
  · exact .refl _
  · split
    · exact replaceFixed_binds _ _ _ _ _
    · exact ⟨rfl, rfl⟩
theorem swapBlock_binds (die : Nat) (p : Replace) (d : Dev) : BindingsHeld d (swapBlock die p d) := by
  unfold swapBlock
  extract_lets soft d1 to'
  have h1 : BindingsHeld d d1 := ⟨rfl, rfl⟩
  exact h1.trans ⟨rfl, rfl⟩
theorem settleMembers_binds (g r : Nat) (d : Dev) : BindingsHeld d (settleMembers g r d) := by
  unfold settleMembers
  extract_lets d1 gone d2
  have swapped : BindingsHeld d d1 := .foldl (fun e x => swapBlock_binds _ _ _) _ _
  refine .trans (swapped.trans (e := d1) (f := d2) ⟨rfl, rfl⟩) (.foldl (fun e w => ?_) _ _)
  split
  · exact makeBad_binds _ _ _ _
  · exact .refl _
theorem modNs_binds (n : Nat) (f : Ns → Ns) (d : Dev) : BindingsHeld d (d.modNs n f) := by
  unfold Dev.modNs
  split
  · exact ⟨rfl, rfl⟩
  · exact .refl _
theorem takeUnassigned_binds (n : Nat) (d : Dev) : BindingsHeld d (takeUnassigned n d).1 := by
  unfold takeUnassigned
  split
  · exact .refl _
  · dsimp only
    split
    · exact modNs_binds _ _ _
    · exact .refl _
theorem retireReserved_binds (n g r c : Nat) (d : Dev) : BindingsHeld d (retireReserved n g r c d).1 := by
  have row : BindingsHeld d (retireRow g r c d) := by
    unfold retireRow
    extract_lets d1 d2
    exact .trans (.trans (e := d1) (settleMembers_binds _ _ _) (f := d2) ⟨rfl, rfl⟩) (badRecord_binds _ _ _ _ _ _ _ _)
  unfold retireReserved
  dsimp only
  exact ((row.trans (modNs_binds _ _ _)).trans (takeUnassigned_binds _ _)).trans
    (.of_same ((rowsLow_keeps _ _).zm (by rfl)) ((rowsLow_keeps _ _).med (by rfl)))
/-- A row that its zone leaves takes no zone and no move with it. -/
theorem releaseRow_binds (n g r : Nat) (d : Dev) : BindingsHeld d (releaseRow n g r d) := by
  unfold releaseRow
  extract_lets d1 wear
  refine .trans (e := d1) (settleMembers_binds _ _ _) ?_
  split
  · exact retireReserved_binds _ _ _ _ _
  · split
    · exact retireReserved_binds _ _ _ _ _
    · exact .trans (e := Dev.modRow _ _ _ _) ⟨rfl, rfl⟩ (.of_same ((eraseFar_keeps _ _ _).zm (by rfl)) ((eraseFar_keeps _ _ _).med (by rfl)))
theorem fillMembers_binds (g r : Nat) (d : Dev) : BindingsHeld d (fillMembers g r d) := by
  unfold fillMembers
  refine .forUpTo (fun m e => ?_) _
  split
  · split
    · exact .refl _
    · split <;> exact remapTo_binds _ _ _ _ _ _
  · exact .refl _

theorem rowMigration_moves {g hot cold n z : Nat} {d : Dev} (still : d.moving g = false) (free : d.hotRow g = some hot)
    (bound : d.coldRow g = some (cold, n, z)) (worth : d.worthMove g hot cold = true) :
    ∃ e, rowMigration g d = .ok e ∧ e.med.migrate = d.med.migrate ++ [{ group := g, src := cold, dst := hot, nsid := n, zone := z }] := by
  unfold rowMigration migrateRow
  rw [still, free, bound, if_neg Bool.false_ne_true]
  dsimp only
  rw [if_pos worth]
  refine ⟨_, rfl, ?_⟩
  rw [← (fillMembers_binds g hot d).migrate]
  rfl

theorem BindingsHeld.zone_row {d e : Dev} (held : BindingsHeld d e) (n z : Nat) : e.zone n z = d.zone n z := by
  unfold Dev.zone; rw [held.zones]

/-- The move of a row ends: its zone is bound to the new row, and the move is over (R224). -/
theorem migrationSwitch_binds {g : Nat} {m : Migration} {d : Dev} (found : d.med.migrate.find? (fun m => decide (m.group = g)) = some m)
    (programmed : (d.zone m.nsid m.zone).staged = []) :
    ∃ e, migrationSwitch g d = .ok e ∧ (e.zone m.nsid m.zone).row = some (g, m.dst) ∧ m ∉ e.med.migrate := by
  unfold migrationSwitch
  rw [found]
  dsimp only
  rw [programmed, if_neg (by simp)]
  refine ⟨_, rfl, ?_⟩
  rw [(releaseRow_binds _ _ _ _).zone_row, (releaseRow_binds _ _ _ _).migrate, zone_modZone_same, (Dev.modZone_keeps _ _ _ _).med (by rfl)]
  refine ⟨rfl, ?_⟩
  change m ∉ (forUpTo _ _ (forUpTo _ _ (countReads _ _))).med.migrate
  rw [(BindingsHeld.forUpTo ?parity _).migrate, (BindingsHeld.forUpTo ?data _).migrate, (countReads_binds _ _).migrate]
  case parity => exact fun wl e => .of_same ((storeParity_keeps _ _ _ _).zm (by rfl)) ((storeParity_keeps _ _ _ _).med (by rfl))
  case data =>
    intro s e
    split
    · exact .of_same ((storeSector_keeps _ _ _ _ _).zm (by rfl)) ((storeSector_keeps _ _ _ _ _).med (by rfl))
    · exact .refl _
  change m ∉ List.filter _ _
  simp

/-! ### Checkpoints, self-test and patrol -/

theorem modSys_selftest (b : Bool) (d : Dev) : (d.modSys fun y => { y with selftest := b }).sys.selftest = b := rfl
theorem modSys_rd (f : Fld) (g : Sys → Sys) (d : Dev) : (d.modSys g).rd f = d.rd f := rfl

theorem stSelWrite_runs {v : Nat} (run : bit v 31 = true) (d : Dev) : (stSelWrite v d).sys.selftest = true ∧
    (d.sys.selftest = false → (stSelWrite v d).rd Fd.LDPC_ST_SEL_RUN = 1) := by
  unfold stSelWrite
  extract_lets d1
  have kept : d1.sys = d.sys := by
    simp only [d1]
    split
    · exact Dev.wr_sys _ _ _
    · rfl
  clear_value d1
  rw [run, Bool.true_and]
  cases h : d.sys.selftest with
  | false =>
    rw [if_pos (by rw [kept, h]; rfl)]
    exact ⟨modSys_selftest _ _, fun _ => (modSys_rd _ _ _).trans (Dev.rd_wr_same _ _ (by decide) (by decide))⟩
  | true =>
    rw [if_neg (by rw [kept, h]; exact Bool.false_ne_true)]
    exact ⟨by rw [kept, h], fun k => absurd k (by decide)⟩

theorem selfTestEnd_ends (fails : List CheckFail) (s : State) : (selfTestEnd fails s).dev.sys.selftest = false ∧
    (selfTestEnd fails s).dev.rd Fd.LDPC_ST_SEL_RUN = 0 ∧ (selfTestEnd fails s).pending = s.pending := by
  have ended : ∀ t : State, t.pending = s.pending → ∀ u, u = (t.modDev fun d => (d.wr Fd.LDPC_ST_SEL_RUN 0).modSys fun y => { y with selftest := false }) →
      u.dev.sys.selftest = false ∧ u.dev.rd Fd.LDPC_ST_SEL_RUN = 0 ∧ u.pending = s.pending := by
    rintro t held u rfl
    rw [State.modDev_dev, State.modDev_pending, modSys_rd, Dev.rd_wr_same _ _ (by decide) (by decide)]
    exact ⟨modSys_selftest _ _, rfl, held⟩
  unfold selfTestEnd
  extract_lets faults s1 s2
  refine ended s2 ?_ _ rfl
  have followed : s2.pending = s1.pending :=
    foldl_inv (P := fun s t : State => t.pending = s.pending) (fun _ => rfl) (fun _ _ _ h k => k.trans h)
      (fun s f => (checkerFailed_keeps _ _ s).pending) faults s1
  exact followed.trans (State.modDev_pending _ _)

theorem bucketEvent_level (b : Nat) (d : Dev) : ((bucketEvent b d).bucket b).level = satAdd 0xFFFF (d.bucket b).level 1 := by
  have filled : ∀ (x : Bucket) (e : Dev), e.ecc = (d.setBucket b x).ecc → e.bucket b = x := fun x e h => by
    unfold Dev.bucket
    rw [h]
    exact mapGet_set_same _ _ _ _
  unfold bucketEvent
  extract_lets x level crossed d1 d2
  have marked : d2.ecc = d1.ecc := (Dev.wrb_keeps _ _ _ _).ecc (by rfl)
  split
  · rw [filled _ _ (((tellEtchings_keeps _ _ _).ecc (by rfl)).trans (((setOver_keeps _ _).ecc (by rfl)).trans marked))]
  · rw [filled _ _ marked]

theorem siteLost_camEntry (i : Nat) (d : Dev) :
    (((d.modCam fun c => c.setEntry i { c.entry i with poison := true }).wr Fd.CAM_EVT_POISON 1).cam.entry i =
      { d.cam.entry i with poison := true }) := by
  rw [Dev.wr_cam]
  exact mapGet_set_same _ _ _ _

/-- Settles O30: each row of the health of the media and of the self-test does what it says, from the lemma of its operation. -/
theorem healthActs : Obligations.HealthActs := by
  unfold Obligations.HealthActs
  refine ⟨fun ch v s plain => ?_, fun ch v s plain off idle => ?_, fun ch v s plain => ?_, fun g r m s x p found dest fits => ?_,
    fun die s w b wanted idle spare => ?_, fun die s w wanted idle spare => ?_, fun die s p found ready fits => ?_,
    fun g s hot cold n z still free bound worth => ?_, fun g s m found programmed => ?_, fun s => ⟨_, rfl, rfl, rfl, rfl, rfl⟩,
    fun v s plain => ?_, fun fails s runs => ?_, fun i unit s may => ?_, fun i unit step s may low high failed => ?_, fun site s => rfl,
    fun site s => ⟨_, rfl, bucketEvent_level _ _⟩, fun i s => ⟨_, rfl, siteLost_camEntry _ _, Dev.rd_wr_same _ _ (by decide) (by decide)⟩,
    fun ch b k s => ⟨_, rfl, ?_⟩⟩
  · exact givesThen_orRsv (by rw [bits_setBits_above (by decide) (by decide), plain]; rfl) (dieCtl_retires (bit_setBits_same _ _) _)
  · exact givesThen_orRsv (f := dieCtl ch v.toNat) (by rw [(bits_from_one plain).1]; rfl) (dieCtl_present (bits_from_one plain).2 off idle)
  · exact givesThen_orRsv (by rw [bits_setBits_above (by decide) (by decide), plain]; rfl) (seqCtl_retires (bit_setBits_same _ _) _)
  · exact givesDev_of_exists (rebuildSwitch_serves found dest fits)
  · exact givesDev_of_exists (blockReplacement_begins wanted idle spare)
  · exact givesDev_of_exists (blockReplacement_worn wanted idle spare)
  · exact givesDev_of_exists (replacementSwitch_serves found ready fits)
  · exact givesDev_of_exists (rowMigration_moves still free bound worth)
  · exact givesDev_of_exists (migrationSwitch_binds found programmed)
  · exact givesDev_orRsv (by simp [stSelRsv, plain]) (stSelWrite_runs (bit_setBits_same _ _) _)
  · refine ⟨selfTestEnd fails s, ?_, selfTestEnd_ends fails s⟩
    change execSelftestDone fails s = _
    unfold execSelftestDone
    rw [if_pos runs]
  · refine ⟨_, ?_, rfl⟩
    change execCheckerRetest i unit 0 s = _
    unfold execCheckerRetest
    rw [if_pos may]
    rfl
  · refine ⟨(s.dev.setCheck i (some step)).wr Fd.LDPC_EVT_ST_FAIL 1, ?_, Dev.rd_wr_same _ _ (by decide) (by decide), ?_⟩
    · change execCheckerRetest i unit step s = _
      unfold execCheckerRetest retest checkerFailed
      rw [if_pos may, if_neg failed, if_neg (by omega), if_pos high]
      rfl
    · rw [(Dev.wr_keeps _ _ _).ecc (by rfl)]
      exact mapFind_insert_same _ _ _
  · change _ ∈ (Dev.chan (Dev.modChan _ _ _) _).eccBad
    rw [Dev.chan_modChan_same]
    exact mem_listAdd

end Sys2Proof.Machine

/-! PROOFS. The decoder tiers (R252 to R256, R258). -/

namespace Sys2Proof.Machine

/-! ### The work of the tiers, and what leaves it alone -/

/-- What counts, notes and posts leaves the codewords and records of the tiers as they are. -/
structure TiersHeld (d e : Dev) : Prop where
  items : e.ecc.items = d.ecc.items
  escs : e.ecc.escs = d.ecc.escs
  checks : e.ecc.checks = d.ecc.checks
  nextTag : e.ecc.nextTag = d.ecc.nextTag
  arrivals : e.ecc.arrivals = d.ecc.arrivals

theorem TiersHeld.refl (d : Dev) : TiersHeld d d := ⟨rfl, rfl, rfl, rfl, rfl⟩
theorem TiersHeld.trans {d e f : Dev} (h : TiersHeld d e) (k : TiersHeld e f) : TiersHeld d f :=
  ⟨k.items.trans h.items, k.escs.trans h.escs, k.checks.trans h.checks, k.nextTag.trans h.nextTag, k.arrivals.trans h.arrivals⟩
theorem TiersHeld.of_ecc {d e : Dev} (h : e.ecc = d.ecc) : TiersHeld d e := by constructor <;> rw [h]

theorem bucketEvent_tiers (b : Nat) (d : Dev) : TiersHeld d (bucketEvent b d) := by
  unfold bucketEvent
  extract_lets x level crossed d1 d2
  have set : TiersHeld d d1 := ⟨rfl, rfl, rfl, rfl, rfl⟩
  have marked : TiersHeld d1 d2 := .of_ecc (Dev.wrb_ecc _ _ _ _)
  refine (set.trans marked).trans ?_
  split
  · exact .of_ecc (((tellEtchings_keeps _ _ _).ecc (by rfl)).trans ((setOver_keeps _ _).ecc (by rfl)))
  · exact .refl _
theorem notice_tiers (k : Nat) (i : EccItem) (e l c : Nat) (d : Dev) : TiersHeld d (notice k i e l c d) := by
  unfold notice
  dsimp only
  split
  · exact .of_ecc (by rw [Dev.wr_ecc, Dev.add_ecc])
  · exact ⟨rfl, rfl, rfl, rfl, rfl⟩
theorem decoded_tiers (i : EccItem) (w : Bool) (d : Dev) : TiersHeld d (decoded i w d).2 := by
  unfold decoded
  split
  · exact .refl _
  · split
    · split
      · exact .of_ecc rfl
      · exact .refl _
    · exact iteP (P := fun o : Option Sector × Dev => TiersHeld d o.2) (fun _ => .refl _)
        (fun _ => .trans (.of_ecc ((Dev.wr_ecc _ _ _).trans (Dev.add_ecc _ _ _))) (bucketEvent_tiers _ _))
/-- What a tier gives out does not depend on the tiers' own state. -/
theorem decoded_fst_of {i : EccItem} {d e : Dev} (w : Bool) (nfree : e.nfree = d.nfree) (parity : i.isParity e = i.isParity d)
    (reads : i.wantNs e = i.wantNs d) : (decoded i w e).1 = (decoded i w d).1 := by
  unfold decoded
  rw [nfree, parity, reads]
  split
  · rfl
  · split
    · split <;> rfl
    · dsimp only
      rw [apply_ite Prod.fst, apply_ite Prod.fst]
theorem takeDesc_tiers (n : Nat) (q : QDesc) (front : Bool) (d : Dev) : TiersHeld d (takeDesc n q front d) := by
  unfold takeDesc
  dsimp only
  split
  · exact .of_ecc rfl
  · split
    · exact .of_ecc rfl
    · exact ⟨rfl, rfl, rfl, rfl, rfl⟩

/-! ### Re-reads -/

/-- Soft re-read `k` is posted under the next hardware tag (R253, R259). -/
theorem postReread_items (i : EccItem) (k : Nat) (d : Dev) : (postReread i k d).ecc.items = listModFirst (fun y => y == i)
    (fun _ => { i with stage := .reread k, rrTag := BitVec.ofNat 32 (0xE0000000 + d.ecc.nextTag % 2 ^ 28) }) d.ecc.items := by
  unfold postReread
  dsimp only [Dev.ldpcTag]
  rw [(takeDesc_tiers _ _ _ _).items, (markReread_keeps _ _).ecc (by rfl)]
  rfl

/-! ### The hard decoder -/

theorem hardDone_fails {i : EccItem} {r : DecodeResult} (fails : r.zeros ≤ 64 ∨ 80 < r.errs ∧ r.ok = false) (proof : i.proof = false)
    (attached : i.detached = false) (d : Dev) : (hardDone i r d).ecc.items = listModFirst (fun y => y == i)
      (fun _ => { i with stage := .reread 1, rrTag := BitVec.ofNat 32 (0xE0000000 + d.ecc.nextTag % 2 ^ 28) }) d.ecc.items := by
  have syndrome : (!decide (r.zeros ≤ erasedZeros) && (decide (r.errs ≤ hardCapability) || r.ok)) = false := by
    rcases fails with erased | ⟨many, bad⟩
    · rw [decide_eq_true (show r.zeros ≤ erasedZeros from erased)]; rfl
    · rw [decide_eq_false (show ¬ r.errs ≤ hardCapability from Nat.not_le.2 many), bad, Bool.or_self, Bool.and_false]
  unfold hardDone
  dsimp only
  rw [syndrome, if_neg Bool.false_ne_true]
  dsimp only
  rw [if_neg (show ¬ i.proof = true by rw [proof]; exact Bool.false_ne_true),
    if_neg (show ¬ i.detached = true by rw [attached]; exact Bool.false_ne_true), Bool.false_and, Bool.false_and, if_neg Bool.false_ne_true,
    postReread_items]
  have held : TiersHeld d (weakRow i (bucketEvent i.ch (d.add Fd.LDPC_CNT_ESC_TO_SOFT 1))) :=
    ((TiersHeld.of_ecc (Dev.add_ecc _ _ _)).trans (bucketEvent_tiers _ _)).trans (.of_ecc ((weakRow_keeps _ _).ecc (by rfl)))
  rw [held.items, held.nextTag]

theorem releaseCw_items (i : EccItem) (f : Held → Held) (d : Dev) :
    (releaseCw i f (d.dropItem i)).ecc.items = listEraseFirst (fun y => y == i) d.ecc.items := by
  rw [(releaseCw_keeps _ _ _).ecc (by rfl)]; rfl

/-- A codeword that the hard decoder gives out leaves the tiers (R252). -/
theorem hardDone_passes {i : EccItem} {r : DecodeResult} {x : Sector} {d : Dev} (zeros : 64 < r.zeros) (good : r.errs ≤ 80 ∨ r.ok = true)
    (out : (decoded i r.wrong d).1 = some x) : (hardDone i r d).ecc.items = listEraseFirst (fun y => y == i) d.ecc.items := by
  have syndrome : (!decide (r.zeros ≤ erasedZeros) && (decide (r.errs ≤ hardCapability) || r.ok)) = true := by
    rw [decide_eq_false (show ¬ r.zeros ≤ erasedZeros from Nat.not_le.2 zeros)]
    rcases good with few | ok
    · rw [decide_eq_true (show r.errs ≤ hardCapability from few)]; rfl
    · rw [ok, Bool.or_true]; rfl
  unfold hardDone
  dsimp only
  rw [syndrome, if_pos rfl]
  rw [show decoded i r.wrong d = (some x, (decoded i r.wrong d).2) from Prod.ext out rfl]
  dsimp only
  generalize hd1 : (decoded i r.wrong d).2 = d1
  have h1 : TiersHeld d d1 := hd1 ▸ decoded_tiers i r.wrong d
  generalize hd2 : (if (true && (some x).isSome && decide (d1.rd Fd.LDPC_WEAK_LIMIT < r.errs)) = true then notice 1 i 0 i.level r.errs d1 else d1) = d2
  have h2 : TiersHeld d1 d2 := by
    rw [← hd2]
    split
    · exact notice_tiers _ _ _ _ _ _
    · exact .refl _
  generalize hd3 : (if d2.thresh 2 < r.errs then weakRow i d2 else d2) = d3
  have h3 : TiersHeld d2 d3 := by
    rw [← hd3]
    split
    · exact .of_ecc ((weakRow_keeps _ _).ecc (by rfl))
    · exact .refl _
  have held := (h1.trans h2).trans h3
  split
  · unfold proofDecoded
    dsimp only
    rw [releaseCw_items]
    split
    · rw [(trackLevel_keeps _ _ _ _).ecc (by rfl), held.items]
    · rw [held.items]
  · rw [(deliverGood_keeps _ _ _).ecc (by rfl), releaseCw_items, held.items]

theorem hardDecode_found {n : Nat} {r : DecodeResult} {cyc : BitVec 10} {i : EccItem} {d : Dev}
    (found : d.ecc.items.find? (fun i => decide (i.ch = n) && i.stage == .hard) = some i) :
    hardDecode n r cyc d = .ok (hardDone i r (d.atCycle cyc)) := by
  unfold hardDecode
  rw [found]

/-! ### The codeword that is served next -/

theorem earliest_first {i : EccItem} : ∀ {l : List EccItem}, earliest l = some i → i ∈ l ∧ ∀ j ∈ l, i.order ≤ j.order
  | [], h => absurd h (by simp [earliest])
  | a :: l, h => by
    unfold earliest at h
    cases hl : earliest l with
    | none =>
      rw [hl] at h
      cases l with
      | nil => cases h; simp
      | cons b l => 
        unfold earliest at hl
        cases h' : earliest l <;> rw [h'] at hl <;> simp at hl
        split at hl <;> cases hl
    | some j =>
      obtain ⟨mem, first⟩ := earliest_first hl
      rw [hl] at h
      dsimp only at h
      split at h
      · cases h
        refine ⟨List.mem_cons_of_mem _ mem, fun k hk => ?_⟩
        rcases List.mem_cons.1 hk with rfl | hk
        · omega
        · exact first k hk
      · cases h
        refine ⟨List.mem_cons_self, fun k hk => ?_⟩
        rcases List.mem_cons.1 hk with rfl | hk
        · exact Nat.le_refl _
        · have := first k hk; omega

theorem earliest_isSome {l : List EccItem} (h : l ≠ []) : (earliest l).isSome = true := by
  cases l with
  | nil => exact absurd rfl h
  | cons a l =>
    unfold earliest
    split
    · split <;> rfl
    · rfl

/-- What is served next waits; a contracted codeword waits only behind contracted ones, and each class in arrival order (R254, R255). -/
theorem servedNext_first {d : Dev} {ws : List EccItem} {i : EccItem} (next : d.servedNext ws = some i) : i ∈ ws ∧
    ∀ j ∈ ws, (j.contracted d = true → i.contracted d = true) ∧ (j.contracted d = i.contracted d → i.order ≤ j.order) := by
  unfold Dev.servedNext at next
  cases h : earliest (ws.filter (·.contracted d)) with
  | some c =>
    rw [h] at next
    cases next
    obtain ⟨mem, first⟩ := earliest_first h
    obtain ⟨mem, contracted⟩ := List.mem_filter.1 mem
    exact ⟨mem, fun j hj => ⟨fun _ => contracted, fun same => first j (List.mem_filter.2 ⟨hj, same.trans contracted⟩)⟩⟩
  | none =>
    rw [h] at next
    obtain ⟨mem, first⟩ := earliest_first next
    have plain : ∀ j ∈ ws, j.contracted d = false := fun j hj => by
      by_contra c
      have := earliest_isSome (List.ne_nil_of_mem (List.mem_filter.2 ⟨hj, Bool.of_not_eq_false c⟩))
      rw [h] at this
      cases this
    exact ⟨mem, fun j hj => ⟨fun c => absurd c (by rw [plain j hj]; decide), fun _ => first j hj⟩⟩

theorem servedNext_exists {d : Dev} {ws : List EccItem} {i : EccItem} (mem : i ∈ ws) : ∃ j, d.servedNext ws = some j := by
  unfold Dev.servedNext
  split
  · exact ⟨_, rfl⟩
  · exact Option.isSome_iff_exists.1 (earliest_isSome (List.ne_nil_of_mem mem))

/-! ### Soft decoders -/

theorem mem_listModFirst_self {α : Type} [BEq α] [LawfulBEq α] {a b : α} : ∀ {l : List α}, a ∈ l → b ∈ listModFirst (fun y => y == a) (fun _ => b) l
  | x :: l, h => by
    unfold listModFirst
    split
    · exact List.mem_cons_self
    · next other =>
      rcases List.mem_cons.1 h with rfl | h
      · exact absurd (beq_self_eq_true a) other
      · exact List.mem_cons_of_mem _ (mem_listModFirst_self h)

theorem mem_listModFirst_other {α : Type} {p : α → Bool} {f : α → α} {a : α} (other : p a = false) : ∀ {l : List α}, a ∈ l → a ∈ listModFirst p f l
  | x :: l, h => by
    unfold listModFirst
    rcases List.mem_cons.1 h with rfl | h
    · rw [other]; exact List.mem_cons_self
    · split
      · exact List.mem_cons_of_mem _ h
      · exact List.mem_cons_of_mem _ (mem_listModFirst_other other h)

/-- A codeword waits for a soft decoder and may take one now. -/
def Dev.startable (d : Dev) (i : EccItem) : Bool := i.waitsSoft.isSome && (d.softFree i).isSome

/-- SOFT_DECODE_START: the codeword that is served next runs in the decoder it may take. -/
theorem softStart_runs {i : EccItem} {d : Dev} (mem : i ∈ d.ecc.items) (waits : i.waitsSoft.isSome = true) (free : (d.softFree i).isSome = true) :
    ∃ e, softStart d = .ok e ∧ ∃ i ∈ d.ecc.items, ∃ k dec out, i.waitsSoft = some k ∧ d.softFree i = some (dec, out) ∧
      { i with stage := .softRun k dec } ∈ e.ecc.items ∧ dec ∈ e.ecc.softUsed ∧
      ∀ j ∈ d.ecc.items, j.waitsSoft.isSome = true → (d.softFree j).isSome = true →
        (j.contracted d = true → i.contracted d = true) ∧ (j.contracted d = i.contracted d → i.order ≤ j.order) := by
  obtain ⟨i, next⟩ := servedNext_exists (d := d) (List.mem_filter (p := d.startable).2 ⟨mem, by unfold Dev.startable; rw [waits, free]; rfl⟩)
  obtain ⟨mem, first⟩ := servedNext_first next
  obtain ⟨mem, both⟩ := List.mem_filter.1 mem
  obtain ⟨waits, free⟩ := Bool.and_eq_true_iff.1 both
  obtain ⟨k, waits⟩ := Option.isSome_iff_exists.1 waits
  obtain ⟨⟨dec, out⟩, free⟩ := Option.isSome_iff_exists.1 free
  unfold softStart
  rw [show d.servedNext (d.ecc.items.filter fun i => i.waitsSoft.isSome && (d.softFree i).isSome) = some i from next]
  dsimp only
  rw [free, waits]
  refine ⟨_, rfl, i, mem, k, dec, out, waits, free, ?_, List.mem_cons_self,
    fun j hj w f => first j (List.mem_filter.2 ⟨hj, by unfold Dev.startable; rw [w, f]; rfl⟩)⟩
  have stage : i.stage = .softWait k := by
    unfold EccItem.waitsSoft at waits
    split at waits
    · cases waits; assumption
    · cases waits
  refine mem_listModFirst_self (l := Dev.ecc _ |>.items) ?_
  split
  · split
    · next b _ _ _ runs =>
      refine mem_listModFirst_other (a := i) (p := fun y => y == b) (beq_false_of_ne ?_) mem
      rintro rfl
      rw [stage] at runs
      cases runs
    · exact mem
  · exact mem

theorem softDone_fails {dec k : Nat} {r : DecodeResult} {i : EccItem} {d : Dev} (busy : d.softBusy dec = some i)
    (stage : i.stage = .softRun k dec) (bad : r.ok = false) (attached : i.detached = false) :
    ∃ e, softDone dec r d = .ok e ∧ e.ecc.items = listModFirst (fun y => y == i)
      (fun _ => if k < 3 then { i with stage := .reread (k + 1), rrTag := BitVec.ofNat 32 (0xE0000000 + d.ecc.nextTag % 2 ^ 28) }
        else { i with stage := .waitRecord, order := d.ecc.arrivals }) d.ecc.items := by
  unfold softDone
  rw [busy]
  dsimp only
  rw [stage, if_neg (show ¬ r.ok = true by rw [bad]; exact Bool.false_ne_true)]
  dsimp only
  rw [if_neg (show ¬ i.detached = true by rw [attached]; exact Bool.false_ne_true)]
  by_cases more : k < 3
  · simp only [if_pos more]
    exact ⟨_, rfl, postReread_items _ _ _⟩
  · simp only [if_neg more]
    exact ⟨_, rfl, rfl⟩

/-- A codeword that a soft decoder gives out leaves the tiers (R253). -/
theorem softDone_passes {dec : Nat} {r : DecodeResult} {i : EccItem} {x : Sector} {d : Dev} (busy : d.softBusy dec = some i)
    (ok : r.ok = true) (out : (decoded i r.wrong d).1 = some x) :
    ∃ e, softDone dec r d = .ok e ∧ e.ecc.items = listEraseFirst (fun y => y == i) d.ecc.items := by
  have given : (decoded i r.wrong (d.idleFrom (48 + dec))).1 = some x := by
    rw [← out]
    exact decoded_fst_of r.wrong rfl rfl rfl
  unfold softDone
  rw [busy]
  dsimp only
  rw [if_pos ok, show decoded i r.wrong (d.idleFrom (48 + dec)) = (some x, (decoded i r.wrong (d.idleFrom (48 + dec))).2) from Prod.ext given rfl]
  refine ⟨_, rfl, ?_⟩
  rw [(deliverGood_keeps _ _ _).ecc (by rfl), (releaseCw_keeps _ _ _).ecc (by rfl), (notice_tiers _ _ _ _ _ _).items,
    (trackLevel_keeps _ _ _ _).ecc (by rfl)]
  exact congrArg _ (decoded_tiers i r.wrong (d.idleFrom (48 + dec))).items

/-! ### The deep tier -/

theorem deepOk_of {d e : Dev} (held : TiersHeld d e) (enabled : e.rd Fd.LDPC_UNIT_EN_DEEP = d.rd Fd.LDPC_UNIT_EN_DEEP) (n : Nat) :
    e.deepOk n = d.deepOk n := by
  unfold Dev.deepOk Dev.checkPass
  rw [enabled, held.checks]

theorem record_queued {k : Nat} {x : Escalation} {d : Dev} {P : Escalation → Prop} (deep : x.deep = .queued) (holds : P x) :
    ∃ d0 y, deepFill (d.modEcc fun c => { c with escs := mapInsert c.escs k x }) = (if y.deep = .queued then deepFill d0 else d0) ∧
      mapFind d0.ecc.escs k = some y ∧ P y :=
  ⟨_, x, (if_pos deep).symm, mapFind_insert_same _ _ _, holds⟩

theorem record_unqueued {k : Nat} {x : Escalation} {d : Dev} {P : Escalation → Prop} (deep : x.deep ≠ .queued) (holds : P x) :
    ∃ d0 y, (d.modEcc fun c => { c with escs := mapInsert c.escs k x }) = (if y.deep = .queued then deepFill d0 else d0) ∧
      mapFind d0.ecc.escs k = some y ∧ P y :=
  ⟨_, x, (if_neg deep).symm, mapFind_insert_same _ _ _, holds⟩

/-- A codeword takes the lowest free record; its deep reads are posted while the deep queue has room and a deep decoder may be used (R255). -/
theorem deepEscalate_records {d : Dev} {i : EccItem} (mem : i ∈ d.ecc.items) (waits : i.stage = .waitRecord)
    (attached : ∀ i ∈ d.ecc.items, i.stage = .waitRecord → i.detached = false) (room : d.ecc.escs.length < 128) :
    ∃ e, deepEscalate d = .ok e ∧ ∃ d0 x, e = (if x.deep = .queued then deepFill d0 else d0) ∧ mapFind d0.ecc.escs d.freeEsc = some x ∧
      (∃ i ∈ d.ecc.items, i.stage = .waitRecord ∧ ∃ tag n, x.item = { i with rrTag := tag, order := n }) ∧
      x.parity = .queued ∧ x.delivered = false ∧ (x.deep = .queued ∨ x.deep = .none) ∧
      (x.deep = .queued ↔ d.deepQueued < 64 ∧ (d.deepOk 0 = true ∨ d.deepOk 1 = true)) := by
  obtain ⟨i, next⟩ := servedNext_exists (d := d) (List.mem_filter (p := fun i => i.stage == .waitRecord).2 ⟨mem, beq_iff_eq.2 waits⟩)
  obtain ⟨mem, stage⟩ := List.mem_filter.1 (servedNext_first next).1
  have stage := beq_iff_eq.1 stage
  unfold deepEscalate
  rw [next]
  dsimp only
  rw [if_neg (show ¬ i.detached = true by rw [attached i mem stage]; exact Bool.false_ne_true), if_neg (Nat.not_le.2 room)]
  generalize hd1 : bucketEvent 59 ((notice 3 i d.freeEsc (min (i.level + 3) (d.lastLevel i.slc)) 0xFFFF (releaseCw i id (d.dropItem i))).add
    Fd.LDPC_CNT_ESC_TO_DEEP 1) = d1
  have dropped : TiersHeld (d.dropItem i) d1 := by
    rw [← hd1]
    exact (((TiersHeld.of_ecc ((releaseCw_keeps _ _ _).ecc (by rfl))).trans (notice_tiers _ _ _ _ _ _)).trans (.of_ecc (Dev.add_ecc _ _ _))).trans
      (bucketEvent_tiers _ _)
  have enabled : d1.rd Fd.LDPC_UNIT_EN_DEEP = d.rd Fd.LDPC_UNIT_EN_DEEP := by
    rw [← hd1, (bucketEvent_keeps _ _).rd _ (by rfl), (Dev.add_keeps _ _ _).rd _ (by rfl), (notice_keeps _ _ _ _ _ _).rd _ (by rfl),
      (releaseCw_keeps _ _ _).rd _ (by rfl)]
    rfl
  have usable : ∀ n, d1.deepOk n = d.deepOk n := fun n => deepOk_of (d := d.dropItem i) dropped enabled n
  have queued : d1.deepQueued = d.deepQueued := by
    unfold Dev.deepQueued
    rw [dropped.escs]
    rfl
  have skips : (decide (64 ≤ d1.deepQueued) || !(d1.deepOk 0 || d1.deepOk 1)) =
      !decide (d.deepQueued < 64 ∧ (d.deepOk 0 = true ∨ d.deepOk 1 = true)) := by
    simp only [queued, usable, ← Nat.not_lt, Bool.decide_and, Bool.decide_or, Bool.decide_eq_true, Bool.not_and, decide_not]
  rw [skips]
  by_cases deep : d.deepQueued < 64 ∧ (d.deepOk 0 = true ∨ d.deepOk 1 = true)
  · rw [decide_eq_true deep, if_neg (by decide)]
    have tagged : ∀ levels, (postDeep i levels d1).1 = { i with rrTag := BitVec.ofNat 32 d1.ldpcTag.1 } := fun _ => rfl
    rw [tagged]
    generalize (postDeep i _ d1).2 = d2
    exact ⟨_, rfl, record_queued rfl ⟨⟨i, mem, stage, _, _, rfl⟩, rfl, rfl, .inl rfl, iff_of_true rfl deep⟩⟩
  · rw [decide_eq_false deep, if_pos (by decide)]
    exact ⟨_, rfl, record_unqueued (fun h => by cases h)
      ⟨⟨i, mem, stage, i.rrTag, i.order, rfl⟩, rfl, rfl, .inr rfl, iff_of_false (fun h => by cases h) deep⟩⟩

theorem settleEsc_escs {e : Nat} {x : Escalation} {d : Dev} (found : mapFind d.ecc.escs e = some x) (deep : x.deep.ended = true) :
    mapFind (settleEsc e d).ecc.escs e = if x.parity.ended then none else some x := by
  unfold settleEsc
  rw [found]
  dsimp only
  rw [deep, Bool.true_and]
  cases x.parity.ended with
  | false => rw [if_neg Bool.false_ne_true, if_neg Bool.false_ne_true]; exact found
  | true =>
    rw [if_pos rfl, if_pos rfl]
    generalize hd1 : (if (x.deep == .failed) = true then countDieFailed x.item (d.modEcc fun c => { c with escs := mapErase c.escs e })
      else d.modEcc fun c => { c with escs := mapErase c.escs e }) = d1
    have freed : mapFind d1.ecc.escs e = none := by
      rw [← hd1]
      split
      · rw [(countDieFailed_keeps _ _).ecc (by rfl)]; exact mapFind_erase_same _ _
      · exact mapFind_erase_same _ _
    split
    · split
      · rw [(countDieUnrec_keeps _ _).ecc (by rfl)]; exact freed
      · exact freed
    · rw [(deliverLost_keeps _ _).ecc (by rfl), (bucketEvent_tiers _ _).escs, Dev.wr_ecc]
      exact freed

theorem deepDone_fails {e : Nat} {r : DecodeResult} {x : Escalation} {d : Dev} (found : mapFind d.ecc.escs e = some x)
    (runs : x.deep = .running) (bad : r.ok = false) :
    ∃ f, deepDone e r d = .ok f ∧ ∃ d0, f = deepFill d0 ∧ mapFind d0.ecc.escs e = if x.parity.ended then none else some { x with deep := .failed } := by
  unfold deepDone
  rw [found]
  dsimp only
  rw [if_pos (beq_iff_eq.2 runs), if_neg (show ¬ r.ok = true by rw [bad]; exact Bool.false_ne_true)]
  exact ⟨_, rfl, _, rfl, settleEsc_escs (x := { x with deep := .failed }) (mapFind_insert_same _ _ _) rfl⟩

theorem deepDone_passes {e : Nat} {r : DecodeResult} {x : Escalation} {y : Sector} {d : Dev} (found : mapFind d.ecc.escs e = some x)
    (runs : x.deep = .running) (ok : r.ok = true) (out : (decoded x.item r.wrong d).1 = some y) :
    ∃ f, deepDone e r d = .ok f ∧ ∃ d0, f = deepFill d0 ∧
      mapFind d0.ecc.escs e = if x.parity.ended then none else some { x with deep := .passed, delivered := true } := by
  have given : (decoded x.item r.wrong ((d.idleFrom 56).idleFrom 57)).1 = some y := by
    rw [← out]
    exact decoded_fst_of r.wrong rfl rfl rfl
  unfold deepDone
  rw [found]
  dsimp only
  rw [if_pos (beq_iff_eq.2 runs), if_pos ok, show decoded x.item r.wrong ((d.idleFrom 56).idleFrom 57) =
    (some y, (decoded x.item r.wrong ((d.idleFrom 56).idleFrom 57)).2) from Prod.ext given rfl]
  exact ⟨_, rfl, _, rfl, settleEsc_escs (x := { x with deep := .passed, delivered := true }) (mapFind_insert_same _ _ _) rfl⟩

theorem softChan_of {dec : Nat} {i : EccItem} {d : Dev} (busy : d.softBusy dec = some i) : d.softChan dec = i.ch := by
  unfold Dev.softChan
  rw [busy]

theorem softDecodeDone_gives {dec : Fin 8} {r : DecodeResult} {s : State} {i : EccItem} {P : Dev → Prop} (busy : s.dev.softBusy dec = some i)
    (done : ∃ e, softDone dec r s.dev = .ok e ∧ P e) : GivesThen (exec (.softDecodeDone dec r) s) s (fun t => drainEsc (afterChan i.ch t)) P := by
  rw [← softChan_of busy]
  exact givesThen_of_exists (g := fun t => drainEsc (afterChan (s.dev.softChan dec) t)) done

theorem hardDecodeDone_gives {ch : Fin 48} {r : DecodeResult} {cyc : BitVec 10} {s : State} {i : EccItem} {P : Dev → Prop}
    (found : s.dev.ecc.items.find? (fun i => decide (i.ch = ch.val) && i.stage == .hard) = some i) (done : P (hardDone i r (s.dev.atCycle cyc))) :
    GivesThen (exec (.hardDecodeDone ch r cyc) s) s (fun t => drainEsc (afterChan ch t)) P :=
  givesThen_of_exists (g := fun t => drainEsc (afterChan ch t)) ⟨_, hardDecode_found found, done⟩

theorem low_half_fits {v : Nat} (word : v < 2 ^ 32) (plain : bits v 31 16 = 0) : v < 2 ^ 16 := by
  unfold bits at plain
  omega

/-- Settles O31: each row of the decoder tiers does what it says, from the lemma of its operation. -/
theorem tiersAct : Obligations.TiersAct := by
  unfold Obligations.TiersAct
  refine ⟨fun ch r cyc s i found fails proof attached => ?_, fun ch r cyc s i x found zeros good out => ?_, fun s ⟨i, mem, waits, free⟩ => ?_,
    fun dec r s i k busy stage bad attached => softDecodeDone_gives busy (softDone_fails busy stage bad attached),
    fun dec r s i x busy ok out => softDecodeDone_gives busy (softDone_passes busy ok out),
    fun s ⟨i, mem, waits⟩ attached room => ?_, fun e r s x found runs bad => ?_, fun e r s x y found runs ok out => ?_, fun v s plain => ?_⟩
  · refine hardDecodeDone_gives found ?_
    rw [hardDone_fails fails proof attached, Dev.atCycle_ecc]
  · refine hardDecodeDone_gives found ?_
    rw [hardDone_passes zeros good out, Dev.atCycle_ecc]
  · exact givesDev_of_exists (softStart_runs mem waits free)
  · exact givesThen_of_exists (g := fun t => drainEsc (afterChan s.dev.escChan t)) (deepEscalate_records mem waits attached room)
  · exact givesThen_of_exists (deepDone_fails found runs bad)
  · exact givesThen_of_exists (deepDone_passes found runs ok out)
  · exact givesThen_orRsv (f := fun d => d.wr Fd.LDPC_ESC_HEAD_INDEX v.toNat) (by rw [plain]; rfl)
      ⟨(Dev.rd_wr_same _ _ (by decide) (by decide)).trans (Nat.mod_eq_of_lt (low_half_fits v.isLt plain)), Dev.wr_ecc _ _ _⟩

end Sys2Proof.Machine

/-! PROOFS. Parity jobs, contributions and completions (R263 to R270). -/

namespace Sys2Proof.Machine

/-! ### Posted jobs -/

section
variable (op : Nat) (x : Desc)

theorem postedAs_d0 : (postedAs op x).d0.toNat = setBits x.d0.toNat 31 28 op := by
  unfold postedAs
  rw [BitVec.toNat_ofNat, Nat.mod_eq_of_lt (setBits_lt (by decide) (by decide) x.d0.isLt)]
theorem postedAs_jOp (fits : op < 16) : (postedAs op x).jOp = op := by
  unfold Desc.jOp
  rw [postedAs_d0, bits_setBits]
  exact Nat.mod_eq_of_lt fits
theorem postedAs_jAcc : (postedAs op x).jAcc = x.jAcc := by
  unfold Desc.jAcc
  rw [postedAs_d0, bits_setBits_below (by decide) (by decide)]
theorem jEsc_with_d0 (w : Word) : ({ x with d0 := w } : Desc).jEsc = x.jEsc := rfl
theorem postedAs_jEsc : (postedAs op x).jEsc = x.jEsc := by
  unfold postedAs
  rw [jEsc_with_d0]

end

theorem parityRow_posts {g : Fin 64} {job : Desc} {op : Nat} {i : Instr} (row : (op, i) ∈ [(1, Instr.parityOpen g job), (2, .parityAdd g job),
    (3, .parityClose g job), (4, .parityRecon g job), (5, .parityDrop g job), (6, .parityCancel g job)]) (s : State) :
    exec i s = onDev s (always (parityPost g (postedAs op job))) := by
  simp only [List.mem_cons, List.not_mem_nil, or_false, Prod.mk.injEq] at row
  rcases row with ⟨rfl, rfl⟩ | ⟨rfl, rfl⟩ | ⟨rfl, rfl⟩ | ⟨rfl, rfl⟩ | ⟨rfl, rfl⟩ | ⟨rfl, rfl⟩ <;> rfl

theorem engineFor_lt {d : Dev} {b e : Nat} (serves : d.engineFor b = some e) : e < 4 := by
  have mapped : ∀ b, d.mapEngine b < 4 := fun b => by
    unfold Dev.mapEngine
    split <;> exact bits_lt _ _ _
  have mem := List.mem_of_find?_eq_some serves
  simp only [List.mem_cons, List.not_mem_nil, or_false] at mem
  rcases mem with rfl | rfl | rfl <;> exact mapped _

/-- The status words of a graver's post: taken, by an engine, in a slot. -/
def jobTaken (g e slot : Nat) (d : Dev) : Dev :=
  ((d.wrb g Fd.PAR_JOB_STAT_RESULT 1).wrb g Fd.PAR_JOB_STAT_ENGINE e).wrb g Fd.PAR_JOB_STAT_SLOT slot

section
variable {g e : Nat} {x : Desc} {d : Dev}

theorem jobTaken_par (g e slot : Nat) (d : Dev) : (jobTaken g e slot d).par = d.par := by
  unfold jobTaken
  rw [Dev.wrb_par, Dev.wrb_par, Dev.wrb_par]

theorem jobTaken_ecc (g e slot : Nat) (d : Dev) : (jobTaken g e slot d).ecc = d.ecc := by
  unfold jobTaken
  rw [Dev.wrb_ecc, Dev.wrb_ecc, Dev.wrb_ecc]

theorem parityPost_starts (serves : d.engineFor x.jBand = some e) (free : d.freeJob e < 256) :
    parityPost g x d = startJob e (d.freeJob e) x (jobTaken g e (d.freeJob e) d) := by
  unfold parityPost
  rw [serves]
  dsimp only
  rw [if_pos free]
  rfl

theorem parityPost_refused (full : d.engineFor x.jBand = none ∨ d.engineFor x.jBand = some e ∧ 256 ≤ d.freeJob e) :
    parityPost g x d = d.wrb g Fd.PAR_JOB_STAT_RESULT 2 := by
  unfold parityPost
  rcases full with none | ⟨serves, full⟩
  · rw [none]
  · rw [serves]
    exact if_neg (Nat.not_lt.2 full)

theorem startJob_stat (slot : Nat) {f : Fld} (stat : f.reg = Rg.PAR_JOB_STAT) : (startJob e slot x d).rdb g f = d.rdb g f :=
  (startJob_keeps _ _ _ _).rdb _ _ (by rw [stat]; rfl)

/-- A post that is taken tells its graver the engine and the slot (R269). -/
theorem parityPost_tells (serves : d.engineFor x.jBand = some e) (free : d.freeJob e < 256) :
    (parityPost g x d).rdb g Fd.PAR_JOB_STAT_RESULT = 1 ∧ (parityPost g x d).rdb g Fd.PAR_JOB_STAT_ENGINE = e ∧
      (parityPost g x d).rdb g Fd.PAR_JOB_STAT_SLOT = d.freeJob e := by
  rw [parityPost_starts serves free, startJob_stat _ rfl, startJob_stat _ rfl, startJob_stat _ rfl]
  unfold jobTaken
  exact ⟨(Dev.rdx_wrx_fldAt (by decide)).trans ((Dev.rdx_wrx_fldAt (by decide)).trans (Dev.rdb_wrb_same _ _ _ (by decide) (by decide))),
    (Dev.rdx_wrx_fldAt (by decide)).trans ((Dev.rdb_wrb_same _ _ _ (by decide) (by decide)).trans (Nat.mod_eq_of_lt (engineFor_lt serves))),
    (Dev.rdb_wrb_same _ _ _ (by decide) (by decide)).trans (Nat.mod_eq_of_lt free)⟩

end

/-! ### What a job does at once -/

theorem acc?_of_par {d e : Dev} (par : e.par = d.par) (a : Nat) : e.acc? a = d.acc? a := by
  unfold Dev.acc?
  rw [par]
theorem jobBad_of_par {d e : Dev} (par : e.par = d.par) (x : Desc) : e.jobBad x = d.jobBad x := by
  unfold Dev.jobBad
  simp only [acc?_of_par par]
theorem accBad_of_par {d e : Dev} (par : e.par = d.par) (x : Desc) : e.accBad x = d.accBad x := by
  unfold Dev.accBad
  simp only [acc?_of_par par]

theorem parJob_setJob (e slot : Nat) (j : ParJob) (d : Dev) : (d.setJob e slot j).parJob e slot = some j := mapFind_insert_same _ _ _
theorem parJob_setJob_other {e slot k : Nat} (j : ParJob) (d : Dev) (other : k ≠ slot) : (d.setJob e slot j).parJob e k = d.parJob e k :=
  mapFind_insert_other _ _ (by unfold parKey; omega)
theorem setJob_accs (e slot : Nat) (j : ParJob) (d : Dev) : (d.setJob e slot j).par.accs = d.par.accs := rfl
theorem setJob_ecc (e slot : Nat) (j : ParJob) (d : Dev) : (d.setJob e slot j).ecc = d.ecc := rfl
theorem acc?_setJob (e slot a : Nat) (j : ParJob) (d : Dev) : (d.setJob e slot j).acc? a = d.acc? a := rfl

/-- A job as it is taken. -/
def freshJob (x : Desc) (status : Option Nat) : ParJob :=
  { words := x, got := [], copyP := [], copyQ := [], copyMap := 0, status := status, failPos := x.jPos }

section
variable {e slot : Nat} {x : Desc} {d : Dev}

theorem startJob_malformed (bad : d.jobBad x = true) : (startJob e slot x d).parJob e slot = some (freshJob x (some 0x10)) := by
  unfold startJob
  dsimp only
  rw [if_pos bad]
  exact parJob_setJob _ _ _ _

theorem startJob_opens (good : d.jobBad x = false) (op : x.jOp = 1) : startJob e slot x d =
    (d.modPar fun p => { p with accs := mapInsert p.accs x.jAcc { bitmap := 0, p := [], q := [], bad := false } }).setJob e slot (freshJob x (some 0)) := by
  have sound : d.accBad x = false := by unfold Dev.accBad; rw [op]; rfl
  unfold startJob
  dsimp only
  rw [good, sound, if_neg Bool.false_ne_true, if_neg Bool.false_ne_true, op]
  rfl

theorem startJob_adds (good : d.jobBad x = false) (sound : d.accBad x = false) (op : x.jOp = 2) : startJob e slot x d =
    if x.jFromReads then d.setJob e slot (freshJob x none)
    else (addUnit x.jAcc x.jPos (x.jCws.map fun j => (j, d.pool.sector x.jCell j)) d).setJob e slot (freshJob x (some 0)) := by
  unfold startJob
  dsimp only
  rw [good, sound, if_neg Bool.false_ne_true, if_neg Bool.false_ne_true, op]
  rfl

theorem startJob_closes {a : Acc} (good : d.jobBad x = false) (sound : d.accBad x = false) (op : x.jOp = 3) (opened : d.acc? x.jAcc = some a) :
    startJob e slot x d = (closeAcc x a d).setJob e slot (freshJob x (some 0)) := by
  unfold startJob
  dsimp only
  rw [good, sound, if_neg Bool.false_ne_true, if_neg Bool.false_ne_true, op]
  simp only [opened]
  rfl

theorem startJob_reconstructs (good : d.jobBad x = false) (sound : d.accBad x = false) (op : x.jOp = 4) :
    ∃ j, startJob e slot x d = racing x .running (d.setJob e slot j) ∧ j.status = none ∧ j.words = x := by
  unfold startJob
  dsimp only
  rw [good, sound, if_neg Bool.false_ne_true, if_neg Bool.false_ne_true, op]
  refine ⟨_, rfl, ?_⟩
  split <;> exact ⟨rfl, rfl⟩

theorem startJob_drops (good : d.jobBad x = false) (op : x.jOp = 5) : startJob e slot x d =
    (d.modPar fun p => { p with accs := mapErase p.accs x.jAcc }).setJob e slot (freshJob x (some 0)) := by
  have sound : d.accBad x = false := by unfold Dev.accBad; rw [op]; rfl
  unfold startJob
  dsimp only
  rw [good, sound, if_neg Bool.false_ne_true, if_neg Bool.false_ne_true, op]
  rfl

theorem startJob_cancels (good : d.jobBad x = false) (op : x.jOp = 6) :
    startJob e slot x d = cancelJob e (bits x.jAcc 7 0) (d.setJob e slot (freshJob x (some 0))) := by
  have sound : d.accBad x = false := by unfold Dev.accBad; rw [op]; rfl
  unfold startJob
  dsimp only
  rw [good, sound, if_neg Bool.false_ne_true, if_neg Bool.false_ne_true, op]
  rfl

/-- A well-formed ADD or CLOSE names an open accumulator (Table 9-7). -/
theorem acc_open (good : d.jobBad x = false) (op : x.jOp = 2 ∨ x.jOp = 3) : ∃ a, d.acc? x.jAcc = some a := by
  cases h : d.acc? x.jAcc with
  | some a => exact ⟨a, rfl⟩
  | none =>
    unfold Dev.jobBad at good
    rcases op with op | op <;> rw [op, h] at good <;> simp at good

end

theorem addUnit_bitmap {a pos : Nat} {x : Acc} {d : Dev} (cws : List (Nat × Sector)) (opened : d.acc? a = some x) :
    ∃ y, (addUnit a pos cws d).acc? a = some y ∧ y.bitmap = if bit x.bitmap pos then x.bitmap else x.bitmap + 2 ^ pos := by
  have added : (cws.foldl (fun x e => x.addCw pos e.1 e.2) x).bitmap = x.bitmap :=
    foldl_inv (P := fun a b : Acc => b.bitmap = a.bitmap) (f := fun x e => x.addCw pos e.1 e.2) (fun _ => rfl) (fun _ _ _ h k => k.trans h)
      (fun _ _ => rfl) cws x
  unfold addUnit
  rw [opened]
  dsimp only
  split
  · exact ⟨x, opened, rfl⟩
  · exact ⟨_, mapFind_insert_same _ _ _, congrArg (· + 2 ^ pos) added⟩

theorem racing_runs {x : Desc} {n : Nat} {r : Escalation} {d : Dev} (op : x.jOp = 4) (names : x.jEsc = some n)
    (found : mapFind d.ecc.escs n = some r) (open' : r.parity.ended = false) (attached : r.item.detached = false) (st : EscPath) :
    mapFind (racing x st d).ecc.escs n = some { r with parity := st } := by
  unfold racing
  rw [names]
  dsimp only
  rw [if_pos op, found]
  dsimp only
  rw [open', attached, if_neg (by decide)]
  exact mapFind_insert_same _ _ _

theorem cancelJob_cancels {e k : Nat} {j : ParJob} {d : Dev} (found : d.parJob e k = some j) (runs : j.status = none) :
    (cancelJob e k d).parJob e k = some { j with status := some 2 } := by
  unfold cancelJob
  rw [found]
  dsimp only
  rw [runs, if_pos Option.isNone_none]
  exact parJob_setJob _ _ _ _

/-! ### Contributions and completions -/

theorem absorb_contribs (c : Contribution) (d : Dev) : (absorb c d).par.contribs = d.par.contribs ∧ (absorb c d).par.used = d.par.used := by
  unfold absorb
  split
  · exact ⟨rfl, rfl⟩
  · split
    · exact ⟨rfl, rfl⟩
    · split
      · exact ⟨rfl, rfl⟩
      · split <;> exact ⟨rfl, rfl⟩

theorem parityContribution_takes {b : Nat} {c : Contribution} {d : Dev} (found : d.par.contribs.find? (fun c => decide (c.band = b)) = some c)
    (budget : mapGet 0 d.par.used b < 96) : ∃ e, parityContribution b d = .ok e ∧
      e.par.contribs = listEraseFirst (fun x => x == c) d.par.contribs ∧ mapGet 0 e.par.used b = mapGet 0 d.par.used b + 1 := by
  unfold parityContribution
  rw [found]
  dsimp only
  rw [if_pos budget]
  refine ⟨_, rfl, ?_⟩
  rw [(absorb_contribs _ _).1, (absorb_contribs _ _).2]
  exact ⟨rfl, mapGet_mod_same 0 d.par.used b (· + 1)⟩

/-- What the end of a job gives out leaves the other jobs and the ring as they are. -/
structure JobsHeld (d e : Dev) : Prop where
  jobs : e.par.jobs = d.par.jobs
  cq : e.par.cq = d.par.cq

theorem JobsHeld.refl (d : Dev) : JobsHeld d d := ⟨rfl, rfl⟩
theorem JobsHeld.trans {d e f : Dev} (h : JobsHeld d e) (k : JobsHeld e f) : JobsHeld d f := ⟨k.jobs.trans h.jobs, k.cq.trans h.cq⟩
theorem JobsHeld.of_par {d e : Dev} (h : e.par = d.par) : JobsHeld d e := ⟨by rw [h], by rw [h]⟩

theorem deliverGood_jobs (i : EccItem) (x : Sector) (d : Dev) : JobsHeld d (deliverGood i x d) := by
  unfold deliverGood
  split
  · exact .refl _
  · dsimp only
    split
    · split
      · exact .of_par ((toLane_keeps _ _ _ _ _ _).par (by rfl))
      · exact .of_par ((sendFar_keeps _ _ _ _ _).par (by rfl))
    · exact ⟨rfl, rfl⟩
    · split <;> exact .of_par rfl
    · exact .refl _
theorem deliverLost_jobs (i : EccItem) (d : Dev) : JobsHeld d (deliverLost i d) := by
  unfold deliverLost
  split
  · exact .refl _
  · refine .trans (.of_par ((lostEvent_keeps i d).par (by rfl))) ?_
    dsimp only
    split
    · split
      · exact .of_par (((readLost_keeps _ _ _).par (by rfl)).trans ((countUnrecovered_keeps _ _ _).par (by rfl)))
      · exact .of_par ((sendFar_keeps _ _ _ _ _).par (by rfl))
    · exact ⟨rfl, rfl⟩
    · exact .of_par ((markLost_keeps _ _).par (by rfl))
    · split
      · exact .of_par ((selfTestFailed_keeps _ _).par (by rfl))
      · exact .refl _
theorem settleEsc_jobs (e : Nat) (d : Dev) : JobsHeld d (settleEsc e d) := by
  unfold settleEsc
  split
  · next x _ =>
    split
    · dsimp only
      generalize hd1 : (if (x.deep == .failed) = true then countDieFailed x.item (d.modEcc fun c => { c with escs := mapErase c.escs e })
        else d.modEcc fun c => { c with escs := mapErase c.escs e }) = d1
      have freed : JobsHeld d d1 := by
        rw [← hd1]
        split
        · exact .of_par ((countDieFailed_keeps _ _).par (by rfl))
        · exact .of_par rfl
      refine freed.trans ?_
      split
      · split
        · exact .of_par ((countDieUnrec_keeps _ _).par (by rfl))
        · exact .refl _
      · exact .trans (.of_par (((bucketEvent_keeps _ _).par (by rfl)).trans (Dev.wr_par _ _ _))) (deliverLost_jobs _ _)
    · exact .refl _
  · exact .refl _
theorem endPath_jobs (e : Nat) (p : EscPath) (won : Bool) (d : Dev) : JobsHeld d (endPath e p won d) := by
  unfold endPath
  split
  · exact .trans (e := d.modEcc _) (.of_par rfl) (settleEsc_jobs _ _)
  · exact .refl _
theorem deliverOut_jobs (x : Desc) (c : Nat) (y : Sector) (d : Dev) : JobsHeld d (deliverOut x c y d) := by
  unfold deliverOut
  dsimp only
  split
  · exact .of_par ((toLane_keeps _ _ _ _ _ _).par (by rfl))
  · exact ⟨rfl, rfl⟩
  · exact .of_par rfl
  · exact .refl _
theorem loseOut_jobs (x : Desc) (d : Dev) : JobsHeld d (loseOut x d) := .of_par ((loseOut_keeps _ _).par (by rfl))
theorem racing_jobs (x : Desc) (st : EscPath) (d : Dev) : JobsHeld d (racing x st d) := .of_par ((racing_keeps _ _ _).par (by rfl))
theorem reconEnd_jobs (j : ParJob) (d : Dev) : JobsHeld d (reconEnd j d).2 := by
  unfold reconEnd
  split
  · exact .refl _
  · dsimp only
    split
    · split
      · exact endPath_jobs _ _ _ _
      · split
        · exact racing_jobs _ _ _
        · split
          · exact racing_jobs _ _ _
          · exact endPath_jobs _ _ _ _
    · dsimp only
      split
      · exact loseOut_jobs _ _
      · exact .refl _
  · dsimp only
    split
    · split
      · exact endPath_jobs _ _ _ _
      · split
        · refine .trans ?_ (endPath_jobs _ _ _ _)
          split
          · exact deliverGood_jobs _ _ _
          · exact .refl _
        · exact endPath_jobs _ _ _ _
    · split
      · exact foldl_inv (P := JobsHeld) .refl (fun _ _ _ => .trans) (fun _ _ => deliverOut_jobs _ _ _ _) _ _
      · exact loseOut_jobs _ _
theorem addUnit_jobs (a pos : Nat) (cws : List (Nat × Sector)) (d : Dev) : JobsHeld d (addUnit a pos cws d) := by
  unfold addUnit
  split
  · dsimp only
    split
    · exact .refl _
    · exact ⟨rfl, rfl⟩
  · exact .refl _

/-- The end of a job that may end: its status, and what it gives out. -/
def jobEnd (j : ParJob) (d : Dev) : Nat × Dev :=
  if j.words.jOp = 4 && j.status != some 0x10 then ((reconEnd j d).1, countRecon (reconEnd j d).1 (reconEnd j d).2)
  else match j.status with
    | some st => (st, d)
    | none => (0, addUnit j.words.jAcc j.words.jPos (j.got.map fun g => (g.2.1, g.2.2)) d)

theorem jobEnd_jobs (j : ParJob) (d : Dev) : JobsHeld d (jobEnd j d).2 := by
  unfold jobEnd
  split
  · exact (reconEnd_jobs _ _).trans (.of_par ((countRecon_keeps _ _).par (by rfl)))
  · split
    · exact .refl _
    · exact addUnit_jobs _ _ _ _

/-- The job's slot is free, its share of the budget spent, and its engine idle from now on. -/
def freeSlot (e k : Nat) (j : ParJob) (d : Dev) : Dev :=
  (d.modPar fun p => { p with jobs := mapErase p.jobs (parKey e k), used := mapMod 0 p.used j.words.jBand (· + j.cost) }).idleFrom (58 + e)

/-- A finished job leaves its slot, with one entry for the ring (R269). -/
theorem parityJobDone_leaves {e k : Nat} {j : ParJob} {d : Dev} (found : d.parJob e k = some j)
    (ended : j.status.isSome = true ∨ j.complete = true) (budget : mapGet 0 d.par.used j.words.jBand + j.cost ≤ 96) :
    ∃ f, parityJobDone e k d = .ok f ∧ f.parJob e k = none ∧ ∃ w, f.par.cq = d.par.cq ++ [[w, j.words.tag, BitVec.ofNat 32 j.words.jAcc, 0]] := by
  have ends : (j.status.isNone && !j.complete) = false := by
    rcases ended with h | h
    · rw [Option.isNone_eq_false_iff.2 h]; rfl
    · rw [h, Bool.not_true, Bool.and_false]
  have held := jobEnd_jobs j (freeSlot e k j d)
  have row : ∃ w, parityJobDone e k d = .ok ((jobEnd j (freeSlot e k j d)).2.modPar fun p =>
      { p with cq := p.cq ++ [[w, j.words.tag, BitVec.ofNat 32 j.words.jAcc, 0]] }) := by
    unfold parityJobDone
    rw [found]
    dsimp only
    rw [ends, decide_eq_false (Nat.not_lt.2 budget), if_neg (by decide)]
    exact ⟨_, rfl⟩
  obtain ⟨w, row⟩ := row
  refine ⟨_, row, ?_, w, congrArg (· ++ _) held.cq⟩
  change mapFind (jobEnd j (freeSlot e k j d)).2.par.jobs (parKey e k) = none
  rw [held.jobs]
  exact mapFind_erase_same _ _

/-! ### The rows -/

theorem jobTaken_bad (g e slot : Nat) (x : Desc) (d : Dev) : (jobTaken g e slot d).jobBad x = d.jobBad x := jobBad_of_par (jobTaken_par ..) x
theorem jobTaken_accBad (g e slot : Nat) (x : Desc) (d : Dev) : (jobTaken g e slot d).accBad x = d.accBad x := accBad_of_par (jobTaken_par ..) x

theorem cancelJob_parJob_other {e k slot : Nat} (d : Dev) (other : slot ≠ k) : (cancelJob e k d).parJob e slot = d.parJob e slot := by
  unfold cancelJob
  split
  · split
    · exact parJob_setJob_other _ _ other
    · rfl
  · rfl

section
variable {g : Fin 64} {job : Desc} {s : State} {op e : Nat} {i : Instr} {P : Dev → Prop}

theorem parityRow_gives (row : (op, i) ∈ [(1, Instr.parityOpen g job), (2, .parityAdd g job), (3, .parityClose g job), (4, .parityRecon g job),
    (5, .parityDrop g job), (6, .parityCancel g job)]) (serves : s.dev.engineFor (postedAs op job).jBand = some e) (free : s.dev.freeJob e < 256)
    (holds : P (startJob e (s.dev.freeJob e) (postedAs op job) (jobTaken g e (s.dev.freeJob e) s.dev))) : GivesDev (exec i s) s P := by
  rw [parityRow_posts row]
  exact givesDev_always (by rw [parityPost_starts serves free]; exact holds)

theorem parityOpen_gives (serves : s.dev.engineFor (postedAs 1 job).jBand = some e) (free : s.dev.freeJob e < 256)
    (good : s.dev.jobBad (postedAs 1 job) = false) : GivesDev (exec (.parityOpen g job) s) s fun d =>
      d.acc? job.jAcc = some { bitmap := 0, p := [], q := [], bad := false } ∧ ∃ j, d.parJob e (s.dev.freeJob e) = some j ∧ j.status = some 0 := by
  refine parityRow_gives (g := g) (job := job) (by simp) serves free ?_
  rw [startJob_opens (by rw [jobTaken_bad, good]) (postedAs_jOp _ _ (by decide)), postedAs_jAcc, acc?_setJob]
  exact ⟨mapFind_insert_same _ _ _, _, parJob_setJob _ _ _ _, rfl⟩

theorem parityAdd_gives (serves : s.dev.engineFor (postedAs 2 job).jBand = some e) (free : s.dev.freeJob e < 256)
    (good : s.dev.jobBad (postedAs 2 job) = false) (sound : s.dev.accBad (postedAs 2 job) = false) :
    GivesDev (exec (.parityAdd g job) s) s fun d => ∃ j, d.parJob e (s.dev.freeJob e) = some j ∧
      j.status = (if (postedAs 2 job).jFromReads then none else some 0) ∧
      ((postedAs 2 job).jFromReads = false → ∃ a b, s.dev.acc? job.jAcc = some a ∧ d.acc? job.jAcc = some b ∧
        b.bitmap = if bit a.bitmap (postedAs 2 job).jPos then a.bitmap else a.bitmap + 2 ^ (postedAs 2 job).jPos) := by
  have op : (postedAs 2 job).jOp = 2 := postedAs_jOp _ _ (by decide)
  obtain ⟨a, opened⟩ := acc_open good (.inl op)
  refine parityRow_gives (g := g) (job := job) (by simp) serves free ?_
  rw [startJob_adds (by rw [jobTaken_bad, good]) (by rw [jobTaken_accBad, sound]) op]
  cases reads : (postedAs 2 job).jFromReads with
  | true =>
    rw [if_pos rfl]
    exact ⟨_, parJob_setJob _ _ _ _, rfl, fun h => absurd h (by decide)⟩
  | false =>
    rw [if_neg Bool.false_ne_true]
    refine ⟨_, parJob_setJob _ _ _ _, rfl, fun _ => ?_⟩
    obtain ⟨b, added, bitmap⟩ := addUnit_bitmap (pos := (postedAs 2 job).jPos)
      ((postedAs 2 job).jCws.map fun j => (j, (jobTaken g e (s.dev.freeJob e) s.dev).pool.sector (postedAs 2 job).jCell j))
      ((acc?_of_par (jobTaken_par g e (s.dev.freeJob e) s.dev) _).trans opened)
    rw [postedAs_jAcc] at opened added
    exact ⟨a, b, opened, by rw [acc?_setJob, postedAs_jAcc]; exact added, bitmap⟩

theorem parityClose_gives (serves : s.dev.engineFor (postedAs 3 job).jBand = some e) (free : s.dev.freeJob e < 256)
    (good : s.dev.jobBad (postedAs 3 job) = false) (sound : s.dev.accBad (postedAs 3 job) = false) :
    GivesDev (exec (.parityClose g job) s) s fun d => d.acc? job.jAcc = none ∧ ∃ j, d.parJob e (s.dev.freeJob e) = some j ∧ j.status = some 0 := by
  have op : (postedAs 3 job).jOp = 3 := postedAs_jOp _ _ (by decide)
  obtain ⟨a, opened⟩ := acc_open good (.inr op)
  refine parityRow_gives (g := g) (job := job) (by simp) serves free ?_
  rw [startJob_closes (by rw [jobTaken_bad, good]) (by rw [jobTaken_accBad, sound]) op ((acc?_of_par (jobTaken_par ..) _).trans opened), acc?_setJob]
  refine ⟨?_, _, parJob_setJob _ _ _ _, rfl⟩
  unfold closeAcc
  rw [postedAs_jAcc]
  exact mapFind_erase_same _ _

theorem parityRecon_gives (serves : s.dev.engineFor (postedAs 4 job).jBand = some e) (free : s.dev.freeJob e < 256)
    (good : s.dev.jobBad (postedAs 4 job) = false) (sound : s.dev.accBad (postedAs 4 job) = false) :
    GivesDev (exec (.parityRecon g job) s) s fun d => d.par.accs = s.dev.par.accs ∧
      ∃ j, d.parJob e (s.dev.freeJob e) = some j ∧ j.status = none ∧ j.words = postedAs 4 job ∧
        (∀ n r, job.jEsc = some n → mapFind s.dev.ecc.escs n = some r → r.parity.ended = false → r.item.detached = false →
          mapFind d.ecc.escs n = some { r with parity := .running }) := by
  have op : (postedAs 4 job).jOp = 4 := postedAs_jOp _ _ (by decide)
  refine parityRow_gives (g := g) (job := job) (by simp) serves free ?_
  obtain ⟨j, starts, runs, words⟩ := startJob_reconstructs (e := e) (slot := s.dev.freeJob e) (d := jobTaken g e (s.dev.freeJob e) s.dev)
    (by rw [jobTaken_bad, good]) (by rw [jobTaken_accBad, sound]) op
  have par := (racing_keeps (postedAs 4 job) .running ((jobTaken g e (s.dev.freeJob e) s.dev).setJob e (s.dev.freeJob e) j)).par (by rfl)
  rw [starts]
  refine ⟨?_, j, ?_, runs, words, fun n r names found racing attached => racing_runs op ((postedAs_jEsc _ _).trans names) ?_ racing attached _⟩
  · rw [par, setJob_accs, jobTaken_par]
  · unfold Dev.parJob
    rw [par]
    exact parJob_setJob _ _ _ _
  · rw [setJob_ecc, jobTaken_ecc]
    exact found

theorem parityDrop_gives (serves : s.dev.engineFor (postedAs 5 job).jBand = some e) (free : s.dev.freeJob e < 256)
    (good : s.dev.jobBad (postedAs 5 job) = false) :
    GivesDev (exec (.parityDrop g job) s) s fun d => d.acc? job.jAcc = none ∧ ∃ j, d.parJob e (s.dev.freeJob e) = some j ∧ j.status = some 0 := by
  refine parityRow_gives (g := g) (job := job) (by simp) serves free ?_
  rw [startJob_drops (by rw [jobTaken_bad, good]) (postedAs_jOp _ _ (by decide)), acc?_setJob, postedAs_jAcc]
  exact ⟨mapFind_erase_same _ _, _, parJob_setJob _ _ _ _, rfl⟩

theorem parityCancel_gives {j : ParJob} (serves : s.dev.engineFor (postedAs 6 job).jBand = some e) (free : s.dev.freeJob e < 256)
    (good : s.dev.jobBad (postedAs 6 job) = false) (found : s.dev.parJob e (bits job.jAcc 7 0) = some j) (runs : j.status = none)
    (other : bits job.jAcc 7 0 ≠ s.dev.freeJob e) :
    GivesDev (exec (.parityCancel g job) s) s fun d => d.parJob e (bits job.jAcc 7 0) = some { j with status := some 2 } := by
  refine parityRow_gives (g := g) (job := job) (by simp) serves free ?_
  rw [startJob_cancels (by rw [jobTaken_bad, good]) (postedAs_jOp _ _ (by decide)), postedAs_jAcc]
  refine cancelJob_cancels ?_ runs
  rw [parJob_setJob_other _ _ other]
  unfold Dev.parJob
  rw [jobTaken_par]
  exact found

end

/-- Settles O32: each row of the parity engines does what it says, from the lemma of its operation. -/
theorem parityActs : Obligations.ParityActs := by
  unfold Obligations.ParityActs
  refine ⟨fun g job s op i e row => ⟨fun serves free => ?_, fun full => ?_⟩, fun g job s e serves free good => parityOpen_gives serves free good,
    fun g job s e serves free good sound => parityAdd_gives serves free good sound,
    fun g job s e serves free good sound => parityClose_gives serves free good sound,
    fun g job s e serves free good sound => parityRecon_gives serves free good sound,
    fun g job s e serves free good => parityDrop_gives serves free good,
    fun g job s e j serves free good found runs other => parityCancel_gives serves free good found runs other,
    fun b s c found budget => ?_, fun e k s j found ended budget => ?_, fun v s plain => ?_⟩
  · refine parityRow_gives row serves free ?_
    rw [← parityPost_starts serves free]
    obtain ⟨result, engine, slot⟩ := parityPost_tells (g := g) serves free
    refine ⟨result, engine, slot, fun bad => ?_⟩
    rw [parityPost_starts serves free]
    exact ⟨_, startJob_malformed (by rw [jobTaken_bad, bad]), rfl⟩
  · rw [parityRow_posts row]
    refine givesDev_always (f := parityPost g (postedAs op job)) ?_
    rw [parityPost_refused full]
    exact ⟨Dev.rdb_wrb_same _ _ _ (by decide) (by decide), Dev.wrb_par _ _ _ _⟩
  · exact givesDev_of_exists (parityContribution_takes found budget)
  · exact givesThen_of_exists (g := drainPar) (parityJobDone_leaves found ended budget)
  · exact givesThen_orRsv (f := fun d => d.wr Fd.PAR_JCQ_HEAD_INDEX v.toNat) (by rw [plain]; rfl)
      ⟨(Dev.rd_wr_same _ _ (by decide) (by decide)).trans (Nat.mod_eq_of_lt (low_half_fits v.isLt plain)), Dev.wr_par _ _ _⟩

end Sys2Proof.Machine

/-! PROOFS. Stipple (R277 to R281). -/

namespace Sys2Proof.Machine

theorem stipChan_modStip (d : Dev) (n : Nat) (f : StipChan → StipChan) : (d.modStip n f).stipChan n = f (d.stipChan n) :=
  mapGet_mod_same _ _ _ _
theorem stipChan_of_stip {d e : Dev} (h : e.stip = d.stip) (n : Nat) : e.stipChan n = d.stipChan n := by
  unfold Dev.stipChan
  rw [h]

section
variable {ch : Nat} {s : State} {P : Dev → Prop}

/-- A posted read is remembered under its tag; the urgent rows are as they were (R279). -/
theorem stipPost_posts (t b log2 lap k : Nat) (s : State) : ∃ d, stipPost ch t b log2 lap k s = { s with dev := d } ∧
    d.stip.urgent = s.dev.stip.urgent ∧ d.stipChan ch = { s.dev.stipChan ch with
      posted := (s.dev.stipChan ch).posted ++ [{ tag := BitVec.ofNat 32 (0xF0000000 + s.dev.stip.nextTag % 2 ^ 28)
                                                 target := t, block := b, gen := stipGen (s.stipEntry ch t b) }] } := by
  unfold stipPost
  dsimp only
  refine ⟨_, rfl, ?_, ?_⟩
  · rw [(takeDesc_keeps _ _ _ _).stip (by rfl)]
    rfl
  · rw [stipChan_of_stip ((takeDesc_keeps _ _ _ _).stip (by rfl)), stipChan_modStip]
    rfl

/-- Stipple runs on the channel. -/
structure Stippling (s : State) (ch : Nat) : Prop where
  enabled : s.dev.is Fd.STIP_CTL_EN = true
  held : s.dev.is Fd.STIP_CTL_HOLD = false
  retired : (s.dev.chan ch).retired = false

theorem stippleReadPost_runs (runs : Stippling s ch) {r : Option (Except String State)} {t : State}
    (urgent : stipUrgent ch (s.dev.stip.urgent.length + 1) s = (r, t)) : stippleReadPost ch s = match (generalizing := false) r with
      | some r => r
      | none => match stipNext ch t with
        | some p => stipAt ch p t
        | none => match stipNext ch (t.modDev (stipPassEnd ch)) with
          | some p => stipAt ch p (t.modDev (stipPassEnd ch))
          | none => .ok (t.modDev (stipPassEnd ch)) := by
  unfold stippleReadPost
  dsimp only
  rw [runs.enabled, runs.held, runs.retired, if_neg (by decide), urgent]
  cases r <;> rfl

theorem stipUrgent_none (none' : s.dev.urgentOn ch = none) (n : Nat) : stipUrgent ch (n + 1) s = (none, s) := by
  unfold stipUrgent
  rw [none']

theorem execStippleReadPost_gives {ch : Fin 48} (row : ∃ d, stippleReadPost ch s = .ok { s with dev := d } ∧ P d) :
    GivesThen (exec (.stippleReadPost ch) s) s (afterChan ch) P := by
  obtain ⟨d, ok, holds⟩ := row
  refine ⟨d, ?_, holds⟩
  change execStippleReadPost ch s = _
  unfold execStippleReadPost
  rw [ok]

/-- The next read of the pass is posted, and the pass stands behind it (R278, R279). -/
theorem stippleReadPost_next {b t k : Nat} (runs : Stippling s ch) (calm : s.dev.urgentOn ch = none) (next : stipNext ch s = some (b, t, k))
    (room : s.dev.stipRoom ch t = true) : ∃ d, stippleReadPost ch s = .ok { s with dev := d } ∧
      (d.stipChan ch).block = b ∧ (d.stipChan ch).target = t ∧ (d.stipChan ch).k = k + 1 ∧
      (d.stipChan ch).posted = (s.dev.stipChan ch).posted ++ [{ tag := BitVec.ofNat 32 (0xF0000000 + s.dev.stip.nextTag % 2 ^ 28)
                                                                target := t, block := b, gen := stipGen (s.stipEntry ch t b) }] := by
  obtain ⟨d, posts, -, chan⟩ := stipPost_posts (ch := ch) t b (s.dev.stipChan ch).log2 (s.dev.stipChan ch).lap k s
  rw [stippleReadPost_runs runs (stipUrgent_none calm _)]
  dsimp only
  rw [next]
  unfold stipAt
  dsimp only
  rw [if_pos room, posts]
  refine ⟨_, rfl, ?_⟩
  rw [stipChan_modStip, chan]
  exact ⟨rfl, rfl, rfl, rfl⟩

theorem stipUrgent_reads {u : UrgRow} {k : Nat} (n : Nat) (urgent : s.dev.urgentOn ch = some u)
    (visit : s.stipVisit ch (u.group % 32) (s.dev.mapped (dieNumber ch (u.group % 32)) u.row).2 (s.dev.stipChan ch).log2 (s.dev.stipChan ch).lap
      (s.dev.stipChan ch).urgK = some k) (room : s.dev.stipRoom ch (u.group % 32) = true) :
    stipUrgent ch (n + 1) s = (some (.ok ((stipPost ch (u.group % 32) (s.dev.mapped (dieNumber ch (u.group % 32)) u.row).2 (s.dev.stipChan ch).log2
      (s.dev.stipChan ch).lap k s).modDev fun d => d.modStip ch fun c => { c with urgK := k + 1 })), s) := by
  unfold stipUrgent
  rw [urgent]
  dsimp only
  rw [visit]
  dsimp only
  rw [if_pos room]

/-- An urgent row's next read is posted before the pass goes on (R281). -/
theorem stippleReadPost_urgent {u : UrgRow} {k : Nat} (runs : Stippling s ch) (urgent : s.dev.urgentOn ch = some u)
    (visit : s.stipVisit ch (u.group % 32) (s.dev.mapped (dieNumber ch (u.group % 32)) u.row).2 (s.dev.stipChan ch).log2 (s.dev.stipChan ch).lap
      (s.dev.stipChan ch).urgK = some k) (room : s.dev.stipRoom ch (u.group % 32) = true) :
    ∃ d, stippleReadPost ch s = .ok { s with dev := d } ∧ (d.stipChan ch).urgK = k + 1 ∧ d.stip.urgent = s.dev.stip.urgent ∧
      (d.stipChan ch).posted.length = (s.dev.stipChan ch).posted.length + 1 := by
  obtain ⟨d, posts, rows, chan⟩ := stipPost_posts (ch := ch) (u.group % 32) (s.dev.mapped (dieNumber ch (u.group % 32)) u.row).2
    (s.dev.stipChan ch).log2 (s.dev.stipChan ch).lap k s
  rw [stippleReadPost_runs runs (stipUrgent_reads _ urgent visit room), posts]
  refine ⟨_, rfl, ?_⟩
  rw [stipChan_modStip, chan]
  exact ⟨rfl, rows, List.length_append⟩

theorem stipPassEnd_ends (ch : Nat) (d : Dev) : ((stipPassEnd ch d).stipChan ch).lap = (d.stipChan ch).lap + 1 ∧
    ((stipPassEnd ch d).stipChan ch).lastLap = d.sheet - (d.stipChan ch).start ∧ (stipPassEnd ch d).rd Fd.STIP_EVT_LAP = 1 := by
  unfold stipPassEnd
  dsimp only
  refine ⟨?_, ?_, Dev.rd_wr_same _ _ (by decide) (by decide)⟩ <;>
    rw [stipChan_of_stip ((Dev.wr_stip _ _ _).trans (Dev.wr_stip _ _ _)), stipChan_modStip]

/-- A pass with nothing left to read ends, and the next begins (R280). -/
theorem stippleReadPost_ends (runs : Stippling s ch) (calm : s.dev.urgentOn ch = none) (last : stipNext ch s = none)
    (empty : stipNext ch (s.modDev (stipPassEnd ch)) = none) : stippleReadPost ch s = .ok { s with dev := stipPassEnd ch s.dev } := by
  rw [stippleReadPost_runs runs (stipUrgent_none calm _)]
  dsimp only
  rw [last]
  dsimp only
  rw [empty]
  rfl

theorem stippleLate_marks {d : Dev} (begun : (d.stipChan ch).log2 ≠ 0) (unmarked : (d.stipChan ch).late = false)
    (late : d.rd Fd.STIP_TARGET_SHEETS < d.sheet - (d.stipChan ch).start) :
    ∃ e, stippleLate ch d = .ok e ∧ (e.stipChan ch).late = true ∧ e.rd Fd.STIP_EVT_LATE = 1 := by
  unfold stippleLate
  dsimp only
  rw [decide_eq_true begun, unmarked, decide_eq_true late, if_pos (by rfl)]
  refine ⟨_, rfl, ?_, Dev.rd_wr_same _ _ (by decide) (by decide)⟩
  rw [stipChan_of_stip (Dev.wr_stip _ _ _), stipChan_modStip]

end

/-- An urgent row of a group that exists joins the list, or is told off where the list is full (R281). -/
theorem stipUrgPost_joins {v : Nat} (group : bits v 22 16 < 96) (d : Dev) : if d.stip.urgent.length < 4096 then
      (stipUrgPost v d).stip.urgent = d.stip.urgent ++ [{ group := bits v 22 16, row := bits v 11 0, left := List.range 16 }]
    else (stipUrgPost v d).rd Fd.STIP_EVT_URG_FULL = 1 ∧ (stipUrgPost v d).stip = d.stip := by
  unfold stipUrgPost
  dsimp only
  rw [if_neg (Nat.not_le.2 group)]
  split
  · next room =>
    rw [if_neg (Nat.not_le.2 room)]
  · next full =>
    rw [if_pos (Nat.not_lt.1 full)]
    exact ⟨Dev.rd_wr_same _ _ (by decide) (by decide), Dev.wr_stip _ _ _⟩

/-- Settles O33: each row of stipple does what it says, from the lemma of its operation. -/
theorem stippleActs : Obligations.StippleActs := by
  unfold Obligations.StippleActs
  refine ⟨fun ch s b t k enabled held retired calm next room => execStippleReadPost_gives (stippleReadPost_next ⟨enabled, held, retired⟩ calm next room),
    fun ch s u k enabled held retired urgent visit room =>
      execStippleReadPost_gives (stippleReadPost_urgent ⟨enabled, held, retired⟩ urgent visit room),
    fun ch s enabled held retired calm last empty =>
      execStippleReadPost_gives ⟨_, stippleReadPost_ends ⟨enabled, held, retired⟩ calm last empty, stipPassEnd_ends ch s.dev⟩,
    fun ch s begun unmarked late => givesDev_of_exists (stippleLate_marks begun unmarked late),
    fun v s high mid group => givesDev_orRsv (by rw [high, mid]; rfl) (stipUrgPost_joins group s.dev)⟩

end Sys2Proof.Machine

/-! PROOFS. The cipher engine: epochs, nonces, lanes, jobs and key commands (R288, R294, R296, R298 to R306). -/

namespace Sys2Proof.Machine

/-! ### Lanes and slots -/

theorem lane_modLane (n : Nat) (f : Lane → Lane) (d : Dev) : (d.modLane n f).lane n = f (d.lane n) := mapGet_mod_same _ _ _ _
theorem lane_of_ciph {d e : Dev} (h : e.ciph = d.ciph) (n : Nat) : e.lane n = d.lane n := by
  unfold Dev.lane
  rw [h]
theorem keySlot_of_slots {d e : Dev} (h : e.ciph.slots = d.ciph.slots) (n : Nat) : e.keySlot n = d.keySlot n := by
  unfold Dev.keySlot
  rw [h]
theorem keySlot_setKey {n : Nat} (x : KeySlot) (d : Dev) (plain : n ≠ rootSlot) : (d.setKey n x).keySlot n = x := by
  unfold Dev.keySlot
  rw [if_neg plain]
  exact mapGet_set_same _ _ _ _
theorem lane_setKey (n m : Nat) (x : KeySlot) (d : Dev) : (d.setKey m x).lane n = d.lane n := rfl

/-- What withdraws a write leaves the lanes as they are. -/
def LanesHeld (d e : Dev) : Prop := e.ciph.lanes = d.ciph.lanes

theorem LanesHeld.refl (d : Dev) : LanesHeld d d := Eq.refl d.ciph.lanes
theorem LanesHeld.trans {d e f : Dev} (h : LanesHeld d e) (k : LanesHeld e f) : LanesHeld d f := Eq.trans k h
theorem LanesHeld.of_ciph {d e : Dev} (h : e.ciph = d.ciph) : LanesHeld d e := by
  unfold LanesHeld
  rw [h]
theorem LanesHeld.lane {d e : Dev} (h : LanesHeld d e) (n : Nat) : e.lane n = d.lane n := by
  unfold Dev.lane
  rw [h]

theorem giveBack_lanes (k : Nat) (d : Dev) : LanesHeld d (giveBack k d) := by
  unfold giveBack
  split
  · exact .refl _
  · next x _ =>
    extract_lets owner d1 d2 d3 c d4
    have h1 : LanesHeld d d1 := .of_ciph ((Dev.release_keeps _ _).ciph (by rfl))
    have h2 : LanesHeld d1 d2 := by
      simp only [d2]
      split
      · exact .of_ciph ((dropStage_keeps _ _ _ _).ciph (by rfl))
      · exact .refl _
    have h3 : LanesHeld d2 d3 := by
      simp only [d3]
      split
      · exact .of_ciph ((Dev.camFree_keeps _ _).ciph (by rfl))
      · exact .refl _
    have h4 : LanesHeld d3 d4 := Eq.refl d3.ciph.lanes
    exact (((h1.trans h2).trans h3).trans h4).trans (.of_ciph (Dev.modSlot_ciph _ _ _))

theorem fallBack_lanes (n z start : Nat) (d : Dev) : LanesHeld d (fallBack n z start d) := by
  unfold fallBack
  extract_lets later
  split
  next e cp folded =>
  refine .trans (.trans (e := e) ?_ (.of_ciph ((Dev.modZone_keeps _ _ _ _).ciph (by rfl)))) (.of_ciph ((syncZone_keeps _ _ _).ciph (by rfl)))
  rw [← show (_ : Dev × Nat).1 = e from congrArg Prod.fst folded]
  refine foldl_inv (P := fun a b : Dev × Nat => LanesHeld a.1 b.1) (fun _ => .refl _) (fun _ _ _ => .trans) (fun a e => ?_) later (d, start)
  dsimp only
  split
  · exact .of_ciph (((Dev.modZone_keeps _ _ _ _).ciph (by rfl)).trans (Dev.modSlot_ciph _ _ _))
  · exact (giveBack_lanes _ _).trans (.of_ciph (Dev.finish_ciph _ _ _))

theorem withdrawCmd_lanes (k : Nat) (c : Cpl) (d : Dev) : LanesHeld d (withdrawCmd k c d) := by
  have write : LanesHeld d (withdrawWrite k d) := by
    unfold withdrawWrite
    split
    · exact .refl _
    · split
      · exact ((giveBack_lanes _ _).trans (.of_ciph ((dropLanding_keeps _ _ _ _).ciph (by rfl)))).trans (fallBack_lanes _ _ _ _)
      · exact giveBack_lanes _ _
  unfold withdrawCmd
  exact write.trans (.of_ciph (Dev.finish_ciph _ _ _))

theorem purgeEnd_lanes (slot : Nat) (d : Dev) : LanesHeld d (purgeEnd slot d) := by
  unfold purgeEnd
  dsimp only
  split
  · unfold LanesHeld
    rw [Dev.wr_ciph]
    rfl
  · exact .refl _
theorem purgeEnd_nonce (slot : Nat) (d : Dev) : (purgeEnd slot d).ciph.nonce = d.ciph.nonce := by
  unfold purgeEnd
  dsimp only
  split
  · rw [Dev.wr_ciph]
    rfl
  · rfl

/-! ### Epochs, nonces and posted jobs -/

theorem epochWrite_takes (v : Nat) (d : Dev) : if d.is Fd.CIPH_CTL_EN = true then (epochWrite v d).rd Fd.CIPH_EVT_CFG_IGN = 1 ∧ (epochWrite v d).ciph = d.ciph
    else (epochWrite v d).rd Fd.CIPH_EPOCH_EPOCH = v % 2 ^ (Fd.CIPH_EPOCH_EPOCH.hi - Fd.CIPH_EPOCH_EPOCH.lo + 1) ∧
      (epochWrite v d).ciph = { d.ciph with nonce := 0, epochSet := true } := by
  unfold epochWrite
  split
  · exact ⟨Dev.rd_wr_same _ _ (by decide) (by decide), Dev.wr_ciph _ _ _⟩
  · exact ⟨Dev.rd_wr_same (d := d) v (by decide) (by decide), by rw [← Dev.wr_ciph d Fd.CIPH_EPOCH_EPOCH v]; rfl⟩

theorem cipherPost_queues (g : Nat) (x : Desc) (d : Dev) : if d.ciph.jobQ.length < 256 then (cipherPost g x d).rdb g Fd.CIPH_JOB_STAT_RESULT = 1 ∧
      (cipherPost g x d).ciph.jobQ = d.ciph.jobQ ++ [{ work := .job x g, ch := 0, owned := false, since := d.now, order := d.ciph.seq }]
    else (cipherPost g x d).rdb g Fd.CIPH_JOB_STAT_RESULT = 2 ∧ (cipherPost g x d).ciph = d.ciph := by
  unfold cipherPost
  split
  · exact ⟨Dev.rdb_wrb_same _ _ _ (by decide) (by decide), by rw [Dev.wrb_ciph]; rfl⟩
  · exact ⟨Dev.rdb_wrb_same _ _ _ (by decide) (by decide), Dev.wrb_ciph _ _ _ _⟩

/-! ### A lane takes its choice -/

/-- A lane that takes an item: the item has left its queue. -/
def tookItem (n tier : Nat) (i : LaneItem) (d : Dev) : Dev :=
  (d.modCiph (·.drop i)).modLane n fun l => { l with run := runAfter tier l.run (!d.ciph.writeQ.isEmpty) }

/-- The lane works on an item, with the key latched (R301). -/
def laneRuns (n st : Nat) (i : LaneItem) (d : Dev) : Dev :=
  d.modLane n fun l => { l with busy := some i, slot := d.itemSlot i, key := (d.keySlot (d.itemSlot i)).key, mode := (d.keySlot (d.itemSlot i)).mode,
                                gen := (d.keySlot (d.itemSlot i)).gen, status := st }

section
variable {n tier : Nat} {i : LaneItem} {d : Dev}

theorem tookItem_itemSlot (n tier : Nat) (i j : LaneItem) (d : Dev) : (tookItem n tier i d).itemSlot j = d.itemSlot j := rfl
theorem tookItem_keySlot (n tier : Nat) (i : LaneItem) (k : Nat) (d : Dev) : (tookItem n tier i d).keySlot k = d.keySlot k := rfl
theorem tookItem_jobStatus (n tier : Nat) (i : LaneItem) (w : Desc) (d : Dev) : (tookItem n tier i d).jobStatus w = d.jobStatus w := rfl
theorem tookItem_busy (n tier : Nat) (i : LaneItem) (d : Dev) : ((tookItem n tier i d).lane n).busy = (d.lane n).busy := by
  unfold tookItem
  rw [lane_modLane]
  rfl

theorem laneStart_takes (enabled : d.is Fd.CIPH_CTL_EN = true) (sound : d.laneOk n = true) (idle : (d.lane n).busy = none)
    (choice : d.laneChoice n = some (tier, i)) : laneStart n d =
      match (generalizing := false) i.work with
      | .read k _ s =>
        if (d.keySlot (d.itemSlot i)).state == .loaded && decide (mdKeygen s.md = (d.keySlot (d.itemSlot i)).gen) then
          .ok (laneRuns n 0 i (tookItem n tier i d))
        else .ok (readLost k stDenied ((tookItem n tier i d).wr Fd.CIPH_EVT_DENIED 1))
      | .write k _ _ =>
        if (d.keySlot (d.itemSlot i)).state == .loaded then .ok (laneRuns n 0 i (tookItem n tier i d))
        else .ok (denyWrite k ((tookItem n tier i d).wr Fd.CIPH_EVT_DENIED 1))
      | .job w _ => .ok (laneRuns n (d.jobStatus w) i (tookItem n tier i d)) := by
  unfold laneStart
  rw [enabled, sound, idle, if_neg (by decide), choice]
  rfl

theorem laneRuns_lane (n st : Nat) (i : LaneItem) (d : Dev) : ((laneRuns n st i d).lane n).busy = some i ∧
    ((laneRuns n st i d).lane n).key = (d.keySlot (d.itemSlot i)).key ∧ ((laneRuns n st i d).lane n).mode = (d.keySlot (d.itemSlot i)).mode ∧
    ((laneRuns n st i d).lane n).gen = (d.keySlot (d.itemSlot i)).gen ∧ ((laneRuns n st i d).lane n).status = st := by
  unfold laneRuns
  rw [lane_modLane]
  exact ⟨rfl, rfl, rfl, rfl, rfl⟩

end

/-! ### The end of a sector -/

theorem slot_kept {d e : Dev} (h : e.host = d.host) (k : Nat) : e.slot? k = d.slot? k := by
  unfold Dev.slot?
  rw [h]

/-- The lane is idle from now on. -/
def laneIdles (n : Nat) (d : Dev) : Dev := (d.modLane n fun l => { l with busy := none }).idleFrom (laneChecker + n)

theorem laneIdles_busy (n : Nat) (d : Dev) : ((laneIdles n d).lane n).busy = none := by
  unfold laneIdles
  rw [lane_of_ciph ((Dev.idleFrom_keeps _ _).ciph (by rfl)), lane_modLane]
theorem laneIdles_host (n : Nat) (d : Dev) : (laneIdles n d).host = d.host := rfl
theorem laneIdles_nonce (n : Nat) (d : Dev) : (laneIdles n d).ciph.nonce = d.ciph.nonce := rfl
theorem laneIdles_out (n : Nat) (d : Dev) : (laneIdles n d).out = d.out := rfl

/-- An encrypted sector is in its cells; a sealed one has spent a nonce (R294, R296). -/
theorem writeLaneEnd_lands {k : Nat} {x : Slot} {d : Dev} (held : d.slot? k = some x) (idx : Nat) (p : Payload) (l : Lane) :
    (∃ y, (writeLaneEnd k idx p l d).slot? k = some y ∧ y.arrived = listAdd x.arrived idx) ∧
      (writeLaneEnd k idx p l d).ciph.nonce = (if l.mode = 2 then d.ciph.nonce + 1 else d.ciph.nonce) ∧ LanesHeld d (writeLaneEnd k idx p l d) := by
  have nonce : ∀ (e : Dev) (q : Pool → Pool), e.host = d.host →
      (∃ y, ((e.modPool q).modSlot k fun x => { x with arrived := listAdd x.arrived idx }).slot? k = some y ∧ y.arrived = listAdd x.arrived idx) ∧
      ((e.modPool q).modSlot k fun x => { x with arrived := listAdd x.arrived idx }).ciph = e.ciph := fun e q host =>
    ⟨⟨_, modSlot_slot _ ((slot_kept (d := d) host k).trans held), rfl⟩, Dev.modSlot_ciph _ _ _⟩
  unfold writeLaneEnd
  rw [held]
  dsimp only
  by_cases sealed' : l.mode = 2
  · rw [if_pos sealed', if_pos sealed']
    refine ⟨(nonce d.takeNonce.2 _ rfl).1, ?_, ?_⟩
    · rw [(nonce d.takeNonce.2 _ rfl).2]
      rfl
    · exact .trans (e := d.takeNonce.2) (Eq.refl d.ciph.lanes) (.of_ciph (nonce d.takeNonce.2 _ rfl).2)
  · rw [if_neg sealed', if_neg sealed']
    exact ⟨(nonce d _ rfl).1, congrArg Ciph.nonce (nonce d _ rfl).2, .of_ciph (nonce d _ rfl).2⟩

theorem laneDone_writes {n k idx : Nat} {i : LaneItem} {p : Payload} {x : Slot} {d : Dev} (busy : (d.lane n).busy = some i)
    (work : i.work = .write k idx p) (held : d.slot? k = some x) : ∃ e, laneDone n d = .ok e ∧ (e.lane n).busy = none ∧
      (∃ y, e.slot? k = some y ∧ y.arrived = listAdd x.arrived idx) ∧
      e.ciph.nonce = if (d.lane n).mode = 2 then d.ciph.nonce + 1 else d.ciph.nonce := by
  obtain ⟨⟨y, landed, arrived⟩, nonce, lanes⟩ := writeLaneEnd_lands (k := k) (x := x) (d := laneIdles n d)
    ((slot_kept (laneIdles_host n d) k).trans held) idx p (d.lane n)
  have row : laneDone n d = .ok (purgeEnd (d.lane n).slot (writeLaneEnd k idx p (d.lane n) (laneIdles n d))) := by
    unfold laneDone
    dsimp only
    rw [busy]
    dsimp only
    rw [work]
    rfl
  refine ⟨_, row, ?_, ⟨y, ?_, arrived⟩, ?_⟩
  · rw [(lanes.trans (purgeEnd_lanes _ _)).lane, laneIdles_busy]
  · rw [slot_kept ((purgeEnd_keeps _ _).host (by rfl)), landed]
  · rw [purgeEnd_nonce, nonce, laneIdles_nonce]

theorem readEnd_out (k : Nat) (d : Dev) : (readEnd k d).out = d.out := (readEnd_keeps _ _).out (by rfl)

theorem send_hostSector {f k idx : Nat} {p : Payload} {d : Dev} (loud : d.mute f = false) :
    (d.send (.hostSector f k idx p)).out = .hostSector f k idx p :: d.out := by
  unfold Dev.send
  dsimp only
  rw [loud, if_neg Bool.false_ne_true]

theorem tagFailed_flags (k idx slot : Nat) (d : Dev) : (tagFailed k idx slot d).rd Fd.CIPH_EVT_AUTH = 1 ∧ (tagFailed k idx slot d).out = d.out ∧
    LanesHeld d (tagFailed k idx slot d) := by
  refine ⟨?_, (tagFailed_keeps _ _ _ _).out (by rfl), .of_ciph ((tagFailed_keeps _ _ _ _).ciph (by rfl))⟩
  have set : (d.wr Fd.CIPH_EVT_AUTH 1).rd Fd.CIPH_EVT_AUTH = 1 := Dev.rd_wr_same _ _ (by decide) (by decide)
  unfold tagFailed
  dsimp only
  rw [(Dev.modSlot_keeps _ _ _).rd _ (by rfl)]
  refine iteP (P := fun e : Dev => e.rd Fd.CIPH_EVT_AUTH = 1) (fun _ => ?_) (fun _ => ?_)
  · rw [(Dev.add_keeps _ _ _).rd _ (by rfl), set]
  · rw [(Dev.add_keeps _ _ _).rd _ (by rfl), set]

theorem purgeEnd_auth (slot : Nat) (d : Dev) : (purgeEnd slot d).rd Fd.CIPH_EVT_AUTH = d.rd Fd.CIPH_EVT_AUTH := by
  unfold purgeEnd
  dsimp only
  split
  · exact Dev.rdx_wrx_fldAt (by decide)
  · rfl

/-- A read sector leaves the lane: to the host where its tag holds, and never for a Verify; a failed tag is flagged (R296, R297). -/
theorem readLaneEnd_gives {k idx : Nat} {r : Sector} {l : Lane} {x : Slot} {d : Dev} (held : d.slot? k = some x) (loud : d.mute x.fn = false) :
    LanesHeld d (readLaneEnd k idx r l d) ∧
      (x.sqe.op ≠ 0x0C → (decryptSector l.key l.mode r).2 = true →
        (readLaneEnd k idx r l d).out = .hostSector x.fn k idx (decryptSector l.key l.mode r).1 :: d.out) ∧
      (x.sqe.op = 0x0C → (readLaneEnd k idx r l d).out = d.out) ∧
      ((decryptSector l.key l.mode r).2 = false → (readLaneEnd k idx r l d).rd Fd.CIPH_EVT_AUTH = 1) := by
  unfold readLaneEnd
  rw [held]
  dsimp only
  rcases decryptSector l.key l.mode r with ⟨p, ok⟩
  dsimp only
  have quiet : ∀ e : Dev, (readEnd k e).out = e.out ∧ (readEnd k e).rd Fd.CIPH_EVT_AUTH = e.rd Fd.CIPH_EVT_AUTH ∧ LanesHeld e (readEnd k e) :=
    fun e => ⟨(readEnd_keeps _ _).out (by rfl), (readEnd_keeps _ _).rd _ (by rfl), .of_ciph ((readEnd_keeps _ _).ciph (by rfl))⟩
  have sent : ∀ (b : Bool) (o : Out) (e : Dev), (if b = true then e.send o else e).rd Fd.CIPH_EVT_AUTH = e.rd Fd.CIPH_EVT_AUTH ∧
      LanesHeld e (if b = true then e.send o else e) := fun b o e => by
    cases b
    · exact ⟨rfl, .refl _⟩
    · exact ⟨(Dev.send_keeps _ _).rd _ (by rfl), .of_ciph ((Dev.send_keeps _ _).ciph (by rfl))⟩
  cases ok with
  | true =>
    rw [if_pos rfl, Bool.true_or, Bool.and_true]
    refine ⟨(sent _ _ _).2.trans (quiet _).2.2, fun op _ => ?_, fun op => ?_, fun h => absurd h (by decide)⟩
    · rw [(quiet _).1, decide_eq_true op, if_pos rfl, send_hostSector loud]
    · rw [(quiet _).1, decide_eq_false (not_not.2 op), if_neg Bool.false_ne_true]
  | false =>
    rw [if_neg Bool.false_ne_true]
    obtain ⟨flag, out, lanes⟩ := tagFailed_flags k idx l.slot d
    refine ⟨(lanes.trans (sent _ _ _).2).trans (quiet _).2.2, fun _ h => absurd h (by decide), fun op => ?_, fun _ => ?_⟩
    · rw [(quiet _).1, decide_eq_false (not_not.2 op), Bool.false_and, if_neg Bool.false_ne_true, out]
    · rw [(quiet _).2.1, (sent _ _ _).1, flag]

theorem laneDone_reads {n k idx : Nat} {i : LaneItem} {r : Sector} {x : Slot} {d : Dev} (busy : (d.lane n).busy = some i)
    (work : i.work = .read k idx r) (held : d.slot? k = some x) (loud : d.mute x.fn = false) : ∃ e, laneDone n d = .ok e ∧ (e.lane n).busy = none ∧
      (x.sqe.op ≠ 0x0C → (decryptSector (d.lane n).key (d.lane n).mode r).2 = true →
        e.out = .hostSector x.fn k idx (decryptSector (d.lane n).key (d.lane n).mode r).1 :: d.out) ∧
      (x.sqe.op = 0x0C → e.out = d.out) ∧
      ((decryptSector (d.lane n).key (d.lane n).mode r).2 = false → e.rd Fd.CIPH_EVT_AUTH = 1) := by
  obtain ⟨lanes, gives, verify, failed⟩ := readLaneEnd_gives (idx := idx) (r := r) (l := d.lane n) (d := laneIdles n d)
    ((slot_kept (laneIdles_host n d) k).trans held) ((mute_congr (laneIdles_host n d) _).trans loud)
  have row : laneDone n d = .ok (purgeEnd (d.lane n).slot (readLaneEnd k idx r (d.lane n) (laneIdles n d))) := by
    unfold laneDone
    dsimp only
    rw [busy]
    dsimp only
    rw [work]
    rfl
  have out := (purgeEnd_keeps (d.lane n).slot (readLaneEnd k idx r (d.lane n) (laneIdles n d))).out (by rfl)
  refine ⟨_, row, ?_, fun op ok => ?_, fun op => ?_, fun bad => ?_⟩
  · rw [(lanes.trans (purgeEnd_lanes _ _)).lane, laneIdles_busy]
  · rw [out, gives op ok, laneIdles_out]
  · rw [out, verify op, laneIdles_out]
  · rw [purgeEnd_auth, failed bad]

/-! ### Jobs -/

theorem ringDrain_ciph (r : Ring) (mask : (ringMask r).testBit 9 = false) (n : Nat) (l : List (List Word)) (s : State) :
    (ringDrain r n l s).2.dev.ciph = s.dev.ciph := (ringDrain_keeps r n l s).dev.ciph mask

theorem drainCiph_lanes (s : State) : LanesHeld s.dev (drainCiph s).dev := by
  have kept := ringDrain_ciph ciphRing (by decide) 0 s.dev.ciph.jcq s
  unfold drainCiph
  generalize ringDrain ciphRing 0 s.dev.ciph.jcq s = p at kept ⊢
  have lanes : p.2.dev.ciph.lanes = s.dev.ciph.lanes := by rw [kept]
  exact lanes

theorem runJob_lanes (x : Desc) (key : BitVec 512) (s : State) : LanesHeld s.dev (runJob x key s).2.2.dev := by
  have written : ∀ (t : State) (a : Nat) (l : List Byte), LanesHeld t.dev (t.writeBytes a l).dev := fun t a l =>
    .of_ciph ((State.writeBytes_keeps t a l).dev.ciph (by rfl))
  unfold runJob
  extract_lets enc len src dst aux
  split
  · split
    · exact written _ _ _
    · split
      · exact written _ _ _
      · split
        · exact written _ _ _
        · exact .refl _
  · split
    · dsimp only
      refine .trans ?_ (written _ _ _)
      split
      · exact .trans (e := s.dev.takeNonce.2) (Eq.refl s.dev.ciph.lanes) (written _ _ _)
      · exact .refl _
    · split
      · exact written _ _ _
      · exact written _ _ _

/-- A job that ran leaves its lane (R305). -/
theorem cipherJobDone_ends {n : Nat} {i : LaneItem} {w : Desc} {g : Nat} {s : State} (busy : (s.dev.lane n).busy = some i)
    (work : i.work = .job w g) : ∃ t, cipherJobDone n s = .ok t ∧ (t.dev.lane n).busy = none := by
  have idle : ∀ t : State, LanesHeld (laneIdles n s.dev) t.dev → ∀ e : List Word,
      (((drainCiph (t.modDev fun d => purgeEnd (s.dev.lane n).slot (d.modCiph fun c => { c with jcq := c.jcq ++ [e] }))).dev.lane n).busy = none) := by
    intro t held e
    have queued : LanesHeld t.dev (t.dev.modCiph fun c => { c with jcq := c.jcq ++ [e] }) := Eq.refl t.dev.ciph.lanes
    rw [((((held.trans queued).trans (purgeEnd_lanes _ _))).trans (drainCiph_lanes _)).lane, laneIdles_busy]
  unfold cipherJobDone
  dsimp only
  rw [busy]
  dsimp only
  rw [work]
  refine ⟨_, rfl, idle _ ?_ _⟩
  split
  · exact runJob_lanes _ _ (s.modDev (laneIdles n))
  · exact .refl _

theorem cipherJobDone_refused {n : Nat} {i : LaneItem} {w : Desc} {g : Nat} {s : State} (busy : (s.dev.lane n).busy = some i)
    (work : i.work = .job w g) (bad : (s.dev.lane n).status ≠ 0) : cipherJobDone n s = .ok (drainCiph (s.modDev fun d => purgeEnd (s.dev.lane n).slot
      (((d.modLane n fun l => { l with busy := none }).idleFrom (laneChecker + n)).modCiph fun c =>
        { c with jcq := c.jcq ++ [[BitVec.ofNat 32 ((s.dev.lane n).status * 2 ^ 24), w.d7, 0, 0]] }))) := by
  unfold cipherJobDone
  dsimp only
  rw [busy]
  dsimp only
  rw [work]
  dsimp only
  rw [if_neg bad]
  rfl

/-! ### Key commands -/

theorem keyDone_result {r : Nat} (fits : r < 16) (d : Dev) : (keyDone r d).rd Fd.CIPH_EVT_KEY_DONE = 1 ∧
    (keyDone r d).rd Fd.CIPH_KEY_STAT_RESULT = r ∧ (keyDone r d).ciph = d.ciph := by
  unfold keyDone
  refine ⟨Dev.rd_wr_same _ _ (by decide) (by decide), ?_, by rw [Dev.wr_ciph, Dev.wr_ciph]⟩
  exact (Dev.rdx_wrx_reg (by decide)).trans ((Dev.rd_wr_same _ _ (by decide) (by decide)).trans (Nat.mod_eq_of_lt fits))

theorem keyCmdFields_ciph (v op : Nat) (d : Dev) : (keyCmdFields v op d).ciph = d.ciph := (keyCmdFields_keeps _ _ _).ciph (by rfl)
theorem keyCmdFields_nfree (v op : Nat) (d : Dev) : (keyCmdFields v op d).nfree = d.nfree := (keyCmdFields_keeps _ _ _).nfree (by rfl)
theorem keyCmdFields_slot (v op : Nat) (d : Dev) : (keyCmdFields v op d).rd Fd.CIPH_SLOT_SEL_SLOT = d.rd Fd.CIPH_SLOT_SEL_SLOT :=
  (keyCmdFields_keeps _ _ _).rd _ (by rfl)
theorem keyCmdFields_keySlot (v op n : Nat) (d : Dev) : (keyCmdFields v op d).keySlot n = d.keySlot n :=
  keySlot_of_slots (by rw [keyCmdFields_ciph]) n
theorem keyCmdFields_keyAddr (v op : Nat) (d : Dev) : (keyCmdFields v op d).keyAddr = d.keyAddr := by
  unfold Dev.keyAddr Dev.base
  rw [(keyCmdFields_keeps _ _ _).regGet _ _ _ (by rfl), (keyCmdFields_keeps _ _ _).regGet _ _ _ (by rfl)]
theorem keyCmdFields_mode (v op : Nat) (d : Dev) : (keyCmdFields v op d).rd Fd.CIPH_KEY_CMD_MODE = bits v 7 6 := by
  have mode : (d.wr Fd.CIPH_KEY_CMD_MODE (bits v 7 6)).rd Fd.CIPH_KEY_CMD_MODE = bits v 7 6 :=
    (Dev.rd_wr_same _ _ (by decide) (by decide)).trans (Nat.mod_eq_of_lt (bits_lt v 7 6))
  unfold keyCmdFields
  refine (Dev.rdx_wrx_fldAt (by decide)).trans ?_
  refine iteP (P := fun e : Dev => e.rd Fd.CIPH_KEY_CMD_MODE = bits v 7 6) (fun _ => mode) (fun _ => ?_)
  exact (Dev.rdx_wrx_fldAt (by decide)).trans mode
theorem keyCmdFields_wrap {v : Nat} (op : Nat) (d : Dev) (plain : bits v 5 4 ≠ 3) : (keyCmdFields v op d).rd Fd.CIPH_KEY_CMD_WRAP = bits v 5 4 := by
  unfold keyCmdFields
  dsimp only
  rw [if_neg plain]
  exact (Dev.rdx_wrx_fldAt (by decide)).trans ((Dev.rd_wr_same _ _ (by decide) (by decide)).trans (Nat.mod_eq_of_lt (bits_lt v 5 4)))

/-- A slot of a namespace or of the firmware is not ROOT. -/
theorem slot_ne_root {n : Nat} (slot : isNsSlot n = true ∨ isFwSlot n = true) : n ≠ rootSlot := by
  unfold isNsSlot isFwSlot at slot
  unfold rootSlot
  simp only [Bool.and_eq_true, decide_eq_true_eq] at slot
  omega

theorem takeNonce_slots (d : Dev) : d.takeNonce.2.ciph.slots = d.ciph.slots := rfl
theorem putBlob_slots (n a : Nat) (s : State) : (putBlob n a s).dev.ciph.slots = s.dev.ciph.slots := by
  have written : ∀ (t : State) (l : List Byte), (t.writeBytes a l).dev.ciph.slots = t.dev.ciph.slots := fun t l => by
    rw [(State.writeBytes_keeps _ _ _).dev.ciph (by rfl)]
  have slots := takeNonce_slots s.dev
  unfold putBlob
  generalize s.dev.takeNonce = p at slots ⊢
  rcases p with ⟨nonce, d⟩
  exact (written _ _).trans slots

theorem keyGenerateIn_keySlot {n : Nat} (mode a : Nat) (plain : n ≠ rootSlot) (s : State) : (keyGenerateIn n mode a s).dev.keySlot n =
    { state := .loaded, mode := mode, gen := ((s.dev.keySlot n).gen + 1) % 2 ^ 32, key := Config.random s.dev.nfree } := by
  unfold keyGenerateIn
  exact (keySlot_of_slots (putBlob_slots _ _ _) n).trans (keySlot_setKey _ _ plain)

section
variable {v S : Nat} {s : State}

theorem keyGenerate_generates (slot : s.dev.rd Fd.CIPH_SLOT_SEL_SLOT = S) (kind : isNsSlot S = true ∨ isFwSlot S = true)
    (mode : bits v 7 6 = 1 ∨ bits v 7 6 = 2) : (keyGenerate v s).dev.rd Fd.CIPH_EVT_KEY_DONE = 1 ∧
      if (s.dev.keySlot S).state = .empty then (keyGenerate v s).dev.rd Fd.CIPH_KEY_STAT_RESULT = 0 ∧
        (keyGenerate v s).dev.keySlot S = { state := .loaded, mode := bits v 7 6, gen := ((s.dev.keySlot S).gen + 1) % 2 ^ 32, key := Config.random s.dev.nfree }
      else (keyGenerate v s).dev.rd Fd.CIPH_KEY_STAT_RESULT = 5 ∧ (keyGenerate v s).dev.ciph = s.dev.ciph := by
  have allowed : (!(isNsSlot S || isFwSlot S) || !(decide (bits v 7 6 = 1) || decide (bits v 7 6 = 2))) = false := by
    rw [Bool.or_eq_true_iff.2 kind, Bool.or_eq_true_iff.2 (mode.imp decide_eq_true decide_eq_true)]
    rfl
  unfold keyGenerate
  dsimp only
  rw [slot, State.modDev_dev, keyCmdFields_mode, allowed, if_neg Bool.false_ne_true, keyCmdFields_keySlot]
  by_cases state : (s.dev.keySlot S).state = .empty
  · rw [if_neg (show ¬ ((s.dev.keySlot S).state != .empty) = true by rw [state]; decide), if_pos state, State.modDev_dev]
    generalize held : keyGenerateIn S (bits v 7 6) _ _ = t
    have key : t.dev.keySlot S =
        { state := .loaded, mode := bits v 7 6, gen := ((s.dev.keySlot S).gen + 1) % 2 ^ 32, key := Config.random s.dev.nfree } := by
      rw [← held]
      rw [keyGenerateIn_keySlot _ _ (slot_ne_root kind), State.modDev_dev, keyCmdFields_keySlot, keyCmdFields_nfree]
    obtain ⟨done, result, ciph⟩ := keyDone_result (r := 0) (by decide) t.dev
    exact ⟨done, result, (keySlot_of_slots (by rw [ciph]) S).trans key⟩
  · rw [if_pos (bne_iff_ne.2 state), if_neg state, State.modDev_dev, State.modDev_dev]
    obtain ⟨done, result, ciph⟩ := keyDone_result (r := 5) (by decide) (keyCmdFields v 1 s.dev)
    exact ⟨done, result, ciph.trans (keyCmdFields_ciph _ _ _)⟩

theorem loadResult_refused {n r : Nat} (fits : r < 16) (again : Bool) (s : State) : (loadResult n again (.error r) s).dev.rd Fd.CIPH_EVT_KEY_DONE = 1 ∧
    (loadResult n again (.error r) s).dev.ciph = s.dev.ciph ∧ (loadResult n again (.error r) s).dev.rd Fd.CIPH_KEY_STAT_RESULT = r := by
  obtain ⟨done, result, ciph⟩ := keyDone_result fits s.dev
  exact ⟨done, ciph, result⟩

theorem loadResult_loads {n : Nat} (plain : n ≠ rootSlot) (k : KeySlot) (s : State) : (loadResult n false (.ok k) s).dev.rd Fd.CIPH_EVT_KEY_DONE = 1 ∧
    (loadResult n false (.ok k) s).dev.keySlot n = k ∧ (loadResult n false (.ok k) s).dev.rd Fd.CIPH_KEY_STAT_RESULT = 0 := by
  obtain ⟨done, result, ciph⟩ := keyDone_result (r := 0) (by decide) (s.dev.setKey n k)
  refine ⟨done, ?_, result⟩
  exact (keySlot_of_slots (congrArg Ciph.slots ciph) n).trans (keySlot_setKey k s.dev plain)

theorem blobKey_error {n r : Nat} {wrapper : BitVec 512} {b : List Byte} (refused : blobKey n wrapper b = .error r) : r < 16 := by
  unfold blobKey at refused
  dsimp only at refused
  split at refused
  · cases refused; decide
  · split at refused
    · cases refused; decide
    · cases refused

theorem keyLoad_loads (slot : s.dev.rd Fd.CIPH_SLOT_SEL_SLOT = S) (kind : isNsSlot S = true ∨ isFwSlot S = true) (wrap : bits v 5 4 = 0)
    (state : (s.dev.keySlot S).state = .empty) : keyLoad v s = loadResult S false
      (blobKey S Config.rootKey ((s.modDev (keyCmdFields v 2)).readBytes 128 s.dev.keyAddr)) (s.modDev (keyCmdFields v 2)) := by
  unfold keyLoad
  dsimp only
  rw [slot, State.modDev_dev, keyCmdFields_wrap _ _ (by rw [wrap]; decide), wrap, if_neg (show ¬ (0 = 2) by decide),
    Bool.or_eq_true_iff.2 kind, if_neg (show ¬ (!true) = true by decide), keyCmdFields_keySlot,
    if_neg (show ¬ ((s.dev.keySlot S).state != .empty) = true by rw [state]; decide), if_pos rfl]
  unfold loadWrapped
  rw [State.modDev_dev, keyCmdFields_keyAddr]

/-- A purged slot is empty at once where no lane works under it, else when the last one ends (R301). -/
theorem purgeSlot_purges {d : Dev} (plain : S ≠ rootSlot) : ((purgeSlot S d).keySlot S).key = 0 ∧
    ((∀ n < 48, (d.lane n).busy.isSome = true → (d.lane n).slot ≠ S) → ((purgeSlot S d).keySlot S).state = .empty ∧
      (purgeSlot S d).rd Fd.CIPH_EVT_KEY_DONE = 1) ∧
    ((∃ n < 48, (d.lane n).busy.isSome = true ∧ (d.lane n).slot = S) → ((purgeSlot S d).keySlot S).state = .purging) := by
  have told : ∀ e : Dev, (e.wr Fd.CIPH_EVT_KEY_DONE 1).keySlot S = e.keySlot S := fun e =>
    keySlot_of_slots (congrArg Ciph.slots (Dev.wr_ciph _ _ _)) S
  unfold purgeSlot purgeEnd
  dsimp only
  rw [keySlot_setKey _ _ plain]
  by_cases used : ∃ n < 48, (d.lane n).busy.isSome = true ∧ (d.lane n).slot = S
  · have any : ((List.range 48).any fun n => ((d.setKey S { d.keySlot S with state := .purging, key := 0 }).lane n).busy.isSome &&
        decide (((d.setKey S { d.keySlot S with state := .purging, key := 0 }).lane n).slot = S)) = true := by
      obtain ⟨n, small, busy, at'⟩ := used
      exact List.any_eq_true.2 ⟨n, List.mem_range.2 small, by rw [lane_setKey, busy, decide_eq_true at']; rfl⟩
    rw [any, Bool.not_true, Bool.and_false, if_neg Bool.false_ne_true, keySlot_setKey _ _ plain]
    refine ⟨rfl, fun free => ?_, fun _ => rfl⟩
    obtain ⟨n, small, busy, at'⟩ := used
    exact absurd at' (free n small busy)
  · have none' : ((List.range 48).any fun n => ((d.setKey S { d.keySlot S with state := .purging, key := 0 }).lane n).busy.isSome &&
        decide (((d.setKey S { d.keySlot S with state := .purging, key := 0 }).lane n).slot = S)) = false := by
      refine List.any_eq_false.2 fun n small => ?_
      rw [lane_setKey]
      simp only [Bool.and_eq_true, decide_eq_true_eq]
      exact fun ⟨busy, at'⟩ => used ⟨n, List.mem_range.1 small, busy, at'⟩
    rw [none', Bool.not_false, Bool.and_true, if_pos (beq_iff_eq.2 rfl), told, keySlot_setKey _ _ plain]
    exact ⟨rfl, fun _ => ⟨rfl, Dev.rd_wr_same _ _ (by decide) (by decide)⟩, fun h => absurd h used⟩

theorem keyPurge_purges {d : Dev} (slot : d.rd Fd.CIPH_SLOT_SEL_SLOT = S) (small : S < 4159) : (keyPurge v d).rd Fd.CIPH_KEY_STAT_RESULT = 0 ∧
    ((keyPurge v d).keySlot S).key = 0 ∧
    ((∀ n < 48, (d.lane n).busy.isSome = true → (d.lane n).slot ≠ S) → ((keyPurge v d).keySlot S).state = .empty ∧
      (keyPurge v d).rd Fd.CIPH_EVT_KEY_DONE = 1) ∧
    ((∃ n < 48, (d.lane n).busy.isSome = true ∧ (d.lane n).slot = S) → ((keyPurge v d).keySlot S).state = .purging) := by
  have plain : S ≠ rootSlot := Nat.ne_of_lt small
  have row : keyPurge v d = purgeSlot S ((keyCmdFields v 3 d).wr Fd.CIPH_KEY_STAT_RESULT 0) := by
    unfold keyPurge
    dsimp only
    rw [slot, if_neg plain]
  obtain ⟨key, free, used⟩ := purgeSlot_purges (d := (keyCmdFields v 3 d).wr Fd.CIPH_KEY_STAT_RESULT 0) plain
  have lanes : ∀ n, ((keyCmdFields v 3 d).wr Fd.CIPH_KEY_STAT_RESULT 0).lane n = d.lane n :=
    lane_of_ciph ((Dev.wr_ciph _ _ _).trans (keyCmdFields_ciph _ _ _))
  simp only [lanes] at free used
  rw [row]
  refine ⟨?_, key, free, used⟩
  unfold purgeSlot
  rw [(purgeEnd_keeps _ _).rd _ (by rfl), (Dev.setKey_keeps _ _ _).rd _ (by rfl)]
  exact Dev.rd_wr_same _ _ (by decide) (by decide)

end

/-! ### The rows -/

theorem keyCmdRsv_plain {v : Nat} (plain : bits v 30 8 = 0) : keyCmdRsv v = false := by
  unfold keyCmdRsv
  rw [plain]
  rfl

/-- A lane that takes an item whose key it has not is told off, and stays idle (R296, R301). -/
theorem denied_idle {n tier : Nat} {i : LaneItem} {d e : Dev} (idle : (d.lane n).busy = none)
    (flag : e.rd Fd.CIPH_EVT_DENIED = ((tookItem n tier i d).wr Fd.CIPH_EVT_DENIED 1).rd Fd.CIPH_EVT_DENIED)
    (lanes : LanesHeld ((tookItem n tier i d).wr Fd.CIPH_EVT_DENIED 1) e) : e.rd Fd.CIPH_EVT_DENIED = 1 ∧ (e.lane n).busy = none := by
  refine ⟨flag.trans (Dev.rd_wr_same _ _ (by decide) (by decide)), ?_⟩
  rw [lanes.lane, lane_of_ciph (Dev.wr_ciph _ _ _), tookItem_busy, idle]

theorem laneSectorStart_gives {n : Fin 48} {cyc : BitVec 10} {s : State} {t : Nat} {i : LaneItem} (enabled : s.dev.is Fd.CIPH_CTL_EN = true)
    (sound : s.dev.laneOk n = true) (idle : (s.dev.lane n).busy = none) (choice : (s.dev.atCycle cyc).laneChoice n = some (t, i)) :
    GivesDev (exec (.laneSectorStart n cyc) s) s fun d =>
      let x := s.dev.keySlot (s.dev.itemSlot i)
      match i.work with
      | .read _ _ r => if x.state = .loaded ∧ mdKeygen r.md = x.gen then
            (d.lane n).busy = some i ∧ (d.lane n).key = x.key ∧ (d.lane n).mode = x.mode ∧ (d.lane n).gen = x.gen
          else d.rd Fd.CIPH_EVT_DENIED = 1 ∧ (d.lane n).busy = none
      | .write _ _ _ => if x.state = .loaded then
            (d.lane n).busy = some i ∧ (d.lane n).key = x.key ∧ (d.lane n).mode = x.mode ∧ (d.lane n).gen = x.gen
          else d.rd Fd.CIPH_EVT_DENIED = 1 ∧ (d.lane n).busy = none
      | .job w _ => (d.lane n).busy = some i ∧ (d.lane n).key = x.key ∧ (d.lane n).status = s.dev.jobStatus w := by
  generalize hd : s.dev.atCycle cyc = d at choice
  have slot : d.itemSlot i = s.dev.itemSlot i := by
    rw [← hd]
    unfold Dev.itemSlot
    simp only [slot_kept (Dev.atCycle_host s.dev cyc)]
  have key : ∀ k, d.keySlot k = s.dev.keySlot k := keySlot_of_slots (by rw [← hd, Dev.atCycle_ciph])
  have lane : d.lane n = s.dev.lane n := lane_of_ciph (by rw [← hd, Dev.atCycle_ciph]) n
  have status : ∀ w, d.jobStatus w = s.dev.jobStatus w := fun w => by
    unfold Dev.jobStatus
    simp only [key, show d.ciph = s.dev.ciph from by rw [← hd, Dev.atCycle_ciph]]
  have starts := laneStart_takes (d := d) (by unfold Dev.is at enabled ⊢; rw [← hd, (Dev.atCycle_keeps _ _).rd _ (by rfl)]; exact enabled)
    (by unfold Dev.laneOk at sound ⊢; rw [← hd, Dev.atCycle_ciph]; exact sound) (by rw [lane]; exact idle) choice
  refine givesDev_of_exists (f := fun d => laneStart n (d.atCycle cyc)) ?_
  dsimp only
  rw [hd, starts, slot, key]
  have runs : ∀ st, ((laneRuns n st i (tookItem n t i d)).lane n).busy = some i ∧
      ((laneRuns n st i (tookItem n t i d)).lane n).key = (s.dev.keySlot (s.dev.itemSlot i)).key ∧
      ((laneRuns n st i (tookItem n t i d)).lane n).mode = (s.dev.keySlot (s.dev.itemSlot i)).mode ∧
      ((laneRuns n st i (tookItem n t i d)).lane n).gen = (s.dev.keySlot (s.dev.itemSlot i)).gen ∧
      ((laneRuns n st i (tookItem n t i d)).lane n).status = st := fun st => by
    have latched := laneRuns_lane n st i (tookItem n t i d)
    rw [tookItem_itemSlot, tookItem_keySlot, slot, key] at latched
    exact latched
  cases work : i.work with
  | read k idx r =>
    dsimp only
    by_cases loaded : (s.dev.keySlot (s.dev.itemSlot i)).state = .loaded ∧ mdKeygen r.md = (s.dev.keySlot (s.dev.itemSlot i)).gen
    · rw [if_pos (by rw [loaded.1, decide_eq_true loaded.2]; rfl)]
      refine ⟨_, rfl, ?_⟩
      rw [if_pos loaded]
      obtain ⟨busy, key, mode, gen, -⟩ := runs 0
      exact ⟨busy, key, mode, gen⟩
    · rw [if_neg (by simpa only [Bool.and_eq_true, beq_iff_eq, decide_eq_true_eq] using loaded)]
      refine ⟨_, rfl, ?_⟩
      rw [if_neg loaded]
      exact denied_idle (d := d) (by rw [lane]; exact idle) ((readLost_keeps _ _ _).rd _ (by rfl)) (.of_ciph ((readLost_keeps _ _ _).ciph (by rfl)))
  | write k idx p =>
    dsimp only
    by_cases loaded : (s.dev.keySlot (s.dev.itemSlot i)).state = .loaded
    · rw [if_pos (by rw [loaded]; rfl)]
      refine ⟨_, rfl, ?_⟩
      rw [if_pos loaded]
      obtain ⟨busy, key, mode, gen, -⟩ := runs 0
      exact ⟨busy, key, mode, gen⟩
    · rw [if_neg (by simpa only [beq_iff_eq] using loaded)]
      refine ⟨_, rfl, ?_⟩
      rw [if_neg loaded]
      exact denied_idle (d := d) (by rw [lane]; exact idle) ((withdrawCmd_keeps _ _ _).rd _ (by rfl)) (withdrawCmd_lanes _ _ _)
  | job w g =>
    refine ⟨_, rfl, ?_⟩
    rw [status]
    obtain ⟨busy, key, -, -, st⟩ := runs (s.dev.jobStatus w)
    exact ⟨busy, key, st⟩

/-- Settles O34: each row of the cipher engine does what it says, from the lemma of its operation. -/
theorem cipherActs : Obligations.CipherActs := by
  unfold Obligations.CipherActs
  refine ⟨fun v s => givesDev_always (epochWrite_takes v.toNat s.dev), fun s => ⟨_, rfl, rfl, rfl⟩, fun g x s p row => ?_,
    fun n cyc s t i enabled sound idle choice => laneSectorStart_gives enabled sound idle choice,
    fun n cyc s i k idx p x busy work held => ?_, fun n cyc s i k idx r x busy work held loud => ?_, fun n s i w g busy work bad => ?_,
    fun n s i w g busy work => ?_, fun v s S slot plain kind mode => ⟨_, ?_, keyGenerate_generates slot kind mode⟩,
    fun v s S slot plain kind wrap state => ?_, fun v s S slot small plain => givesDev_orRsv (keyCmdRsv_plain plain) (keyPurge_purges slot small)⟩
  · simp only [List.mem_cons, List.not_mem_nil, or_false] at row
    rcases row with rfl | rfl
    · exact givesDev_always (cipherPost_queues g (postedAs 1 x) s.dev)
    · exact givesDev_always (cipherPost_queues g (postedAs 2 x) s.dev)
  · have lane : (s.dev.atCycle cyc).lane n = s.dev.lane n := lane_of_ciph (Dev.atCycle_ciph _ _) n
    obtain ⟨d, row, idle, landed, nonce⟩ := laneDone_writes (d := s.dev.atCycle cyc) (by rw [lane]; exact busy) work
      ((slot_kept (Dev.atCycle_host s.dev cyc) k).trans held)
    rw [lane, Dev.atCycle_ciph] at nonce
    exact givesDev_of_exists (f := fun d => laneDone n (d.atCycle cyc)) ⟨d, row, idle, landed, nonce⟩
  · have lane : (s.dev.atCycle cyc).lane n = s.dev.lane n := lane_of_ciph (Dev.atCycle_ciph _ _) n
    obtain ⟨d, row, idle, given⟩ := laneDone_reads (d := s.dev.atCycle cyc) (by rw [lane]; exact busy) work
      ((slot_kept (Dev.atCycle_host s.dev cyc) k).trans held) ((mute_congr (Dev.atCycle_host s.dev cyc) _).trans loud)
    rw [lane, Dev.atCycle_out] at given
    exact givesDev_of_exists (f := fun d => laneDone n (d.atCycle cyc)) ⟨d, row, idle, given⟩
  · change execCipherJobDone n s = _
    unfold execCipherJobDone
    rw [cipherJobDone_refused busy work bad]
  · obtain ⟨t, row, idle⟩ := cipherJobDone_ends busy work
    refine ⟨t, ?_, idle⟩
    change execCipherJobDone n s = _
    unfold execCipherJobDone
    rw [row]
  · change execKeyGenerate v s = _
    unfold execKeyGenerate
    rw [orRsvWide_plain (keyCmdRsv_plain plain)]
  · have row : exec (.keyLoad v) s = .next (keyLoad v.toNat s) := by
      change execKeyLoad v s = _
      unfold execKeyLoad
      rw [orRsvWide_plain (keyCmdRsv_plain plain)]
    refine ⟨_, row, ?_⟩
    rw [keyLoad_loads slot kind wrap state]
    cases loaded : blobKey S Config.rootKey ((s.modDev (keyCmdFields v.toNat 2)).readBytes 128 s.dev.keyAddr) with
    | ok k => exact loadResult_loads (slot_ne_root kind) k _
    | error r =>
      obtain ⟨done, ciph, result⟩ := loadResult_refused (n := S) (blobKey_error loaded) false (s.modDev (keyCmdFields v.toNat 2))
      exact ⟨done, ciph.trans (keyCmdFields_ciph _ _ _), result⟩

end Sys2Proof.Machine

/-! PROOFS. Jenam groups 0x01 and 0x02: what a request finds, what a provisioned tenant holds, and the refusals in their order (R143, R144,
R149, R150, R394, Tables 5-1, 14-4 and 14-5). -/

namespace Sys2Proof.Machine

/-! ### Parameters -/

theorem leNat_lt (bs : List Byte) : leNat bs < 256 ^ bs.length := by
  induction bs with
  | nil => exact Nat.one_pos
  | cons b bs ih =>
    rw [leNat, List.length_cons, Nat.pow_succ]
    have := b.isLt
    omega

/-- A parameter of `len` bytes. -/
theorem jf_lt (p : List Byte) (off len : Nat) : jf p off len < 256 ^ len := by
  unfold jf
  split
  · exact (leNat_lt _).trans_le (Nat.pow_le_pow_right (by decide) (List.length_take_le _ _))
  · exact Nat.pow_pos (by decide)

theorem tenantHere_lt {d : Dev} {t : Nat} (h : d.tenantHere t = true) : t < 1024 :=
  of_decide_eq_true (Bool.and_eq_true_iff.mp h).1

/-- A command whose row is `f` for opcode `op` answers the request that is ready with what `f` gives. -/
theorem answers_of_row {c : Instr} {op buf st : Nat} {f : List Byte → State → Nat × List Byte × State} {s t : State} {b : JBuf}
    {p ps : List Byte} {P : State → Prop} (ready : JenamReady s buf op b p) (gives : f p s = (st, ps, t))
    (runs : exec c s = jenamRow op buf f s) (holds : P t) : ∃ t, exec c s = .next (jenamDone b st ps t) ∧ P t :=
  runs ▸ replies_row ready gives holds

/-! ### What a durable change leaves to read -/

@[simp] theorem makeDurable_rdb (d : Dev) (i : Nat) (f : Fld) : (makeDurable d).rdb i f = d.rdb i f := rfl
@[simp] theorem makeDurable_func (d : Dev) (f : Nat) : (makeDurable d).func f = d.func f := rfl
@[simp] theorem makeDurable_tenantOf (d : Dev) (f : Nat) : (makeDurable d).tenantOf f = d.tenantOf f := rfl
@[simp] theorem makeDurable_tenantHere (d : Dev) (t : Nat) : (makeDurable d).tenantHere t = d.tenantHere t := rfl
@[simp] theorem makeDurable_tenantHas (d : Dev) (t : Nat) (p : List Byte) : (makeDurable d).tenantHas t p = d.tenantHas t p := rfl

section

variable {s : State} {p : List Byte}

/-! ### Group 0x01 -/

theorem getInfo_answers : getInfo [] s = (jsOk, layout 12 [(0, 2, 0x4800), (2, 2, 0x5658), (4, 1, s.dev.rd Fd.SYS_REVISION_STEP),
    (5, 1, s.dev.rd Fd.SYS_REVISION_METAL), (6, 1, s.dev.sys.role), (7, 1, s.dev.cascade), (8, 1, s.dev.rd Fd.GRV_BOOT_SLOT),
    (9, 1, s.dev.nvm.svn)], s) := rfl

theorem getGeometry_answers : getGeometry [] s = (jsOk, layout 28 [(0, 2, 48), (2, 2, 32), (4, 1, 4), (5, 1, 4), (6, 2, 3600), (8, 2, 2304),
    (10, 2, 16384), (12, 2, 8), (14, 2, 4), (16, 2, 2), (18, 2, 3350), (20, 2, 236), (22, 2, 2048), (24, 4, 516096)], s) := rfl

/-! ### Tenants -/

/-- The values that a request of parameters in range gives fit their fields. -/
theorem setTenant_has (t : Nat) (d : Dev) (ok : tenantOk p = true) (small : t < 1024) :
    (setTenant t p d).tenantHere t = true ∧ (setTenant t p d).tenantHas t p = true := by
  simp only [tenantOk, Bool.and_eq_true, decide_eq_true_eq] at ok
  obtain ⟨⟨⟨⟨⟨⟨⟨⟨-, -⟩, excl⟩, -⟩, floor⟩, cap⟩, stage⟩, refolds⟩, most⟩ := ok
  have present : (setTenant t p d).rdb t Fd.TEN_T_CFG_PRESENT = 1 := by
    refine (Dev.rdx_wrx_reg (by decide)).trans ((Dev.rdx_wrx_reg (by decide)).trans ((Dev.rdx_wrx_reg (by decide)).trans
      ((Dev.rdx_wrx_reg (by decide)).trans ((Dev.rdx_wrx_reg (by decide)).trans ((Dev.rdx_wrx_fldAt (by decide)).trans
      (Dev.rdb_wrb_same _ _ _ (by decide) (by decide)))))))
  have exclHeld : (setTenant t p d).rdb t Fd.TEN_T_CFG_EXCL_GROUPS = jf p 2 1 := by
    refine (Dev.rdx_wrx_reg (by decide)).trans ((Dev.rdx_wrx_reg (by decide)).trans ((Dev.rdx_wrx_reg (by decide)).trans
      ((Dev.rdx_wrx_reg (by decide)).trans ((Dev.rdx_wrx_reg (by decide)).trans
      ((Dev.rdb_wrb_same _ _ _ (by decide) (by decide)).trans (Nat.mod_eq_of_lt excl))))))
  have floorHeld : (setTenant t p d).rdb t Fd.TEN_T_CELL_FLOOR_CELLS = jf p 4 4 := by
    refine (Dev.rdx_wrx_reg (by decide)).trans ((Dev.rdx_wrx_reg (by decide)).trans ((Dev.rdx_wrx_reg (by decide)).trans
      ((Dev.rdx_wrx_reg (by decide)).trans ((Dev.rdb_wrb_same _ _ _ (by decide) (by decide)).trans (Nat.mod_eq_of_lt floor)))))
  have capHeld : (setTenant t p d).rdb t Fd.TEN_T_CELL_CAP_CELLS = jf p 8 4 := by
    refine (Dev.rdx_wrx_reg (by decide)).trans ((Dev.rdx_wrx_reg (by decide)).trans ((Dev.rdx_wrx_reg (by decide)).trans
      ((Dev.rdb_wrb_same _ _ _ (by decide) (by decide)).trans (Nat.mod_eq_of_lt cap))))
  have stageHeld : (setTenant t p d).rdb t Fd.TEN_T_STAGE_RESERVE = jf p 12 2 := by
    refine (Dev.rdx_wrx_reg (by decide)).trans ((Dev.rdx_wrx_reg (by decide)).trans
      ((Dev.rdb_wrb_same _ _ _ (by decide) (by decide)).trans (Nat.mod_eq_of_lt (stage.trans_lt (by decide)))))
  have refoldHeld : (setTenant t p d).rdb t Fd.TEN_T_REFOLD_FLOOR = jf p 14 1 :=
    (Dev.rdx_wrx_fldAt (by decide)).trans
      ((Dev.rdb_wrb_same _ _ _ (by decide) (by decide)).trans (Nat.mod_eq_of_lt (refolds.trans_lt (by decide))))
  have mostHeld : (setTenant t p d).rdb t Fd.TEN_T_REFOLD_CAP = jf p 15 1 :=
    (Dev.rdb_wrb_same _ _ _ (by decide) (by decide)).trans (Nat.mod_eq_of_lt (most.trans_lt (by decide)))
  exact ⟨by simp [Dev.tenantHere, present, small], by simp [Dev.tenantHas, exclHeld, floorHeld, capHeld, stageHeld, refoldHeld, mostHeld]⟩

theorem tenantOk_lt (ok : tenantOk p = true) : jf p 0 2 < 1024 := by
  simp only [tenantOk, Bool.and_eq_true, decide_eq_true_eq] at ok
  exact ok.1.1.1.1.1.1.1.2

theorem provisionTenant_limits (breaks : s.dev.tenantOver p = true) : provisionTenant p s = (jsLimit, [], s) := by
  rw [provisionTenant, if_pos breaks]
  rfl

theorem provisionTenant_isolates (fits : s.dev.tenantOver p = false) (excl : jf p 2 1 = 1)
    (shared : s.dev.groupsShared (jf p 0 2) = true) : provisionTenant p s = (jsIsolation, [], s) := by
  rw [provisionTenant, if_neg (by simp [fits]), if_pos (by simp [excl, shared])]
  rfl

theorem provisionTenant_sets (fits : s.dev.tenantOver p = false) (alone : jf p 2 1 = 1 → s.dev.groupsShared (jf p 0 2) = false) :
    provisionTenant p s = (jsOk, layout 4 [(0, 2, jf p 0 2)], s.jDo (setTenant (jf p 0 2) p)) := by
  have allowed : ¬ (decide (jf p 2 1 = 1) && s.dev.groupsShared (jf p 0 2)) = true := by
    rintro both
    obtain ⟨excl, shared⟩ := Bool.and_eq_true_iff.mp both
    exact Bool.false_ne_true ((alone (of_decide_eq_true excl)).symm.trans shared)
  rw [provisionTenant, if_neg (by simp [fits]), if_neg allowed]
  rfl

theorem tenCreate_new (ok : tenantOk p = true) (new : s.dev.tenantHere (jf p 0 2) = false) : tenCreate p s = provisionTenant p s := by
  rw [tenCreate, if_neg (by simp [ok]), if_neg (by simp [new])]

theorem tenCreate_again (ok : tenantOk p = true) (here : s.dev.tenantHere (jf p 0 2) = true) :
    tenCreate p s = if s.dev.tenantHas (jf p 0 2) p then (jsAlready, layout 4 [(0, 2, jf p 0 2)], s) else (jsExists, [], s) := by
  rw [tenCreate, if_neg (by simp [ok]), if_pos here]
  rfl

theorem tenSet_here (ok : tenantOk p = true) (here : s.dev.tenantHere (jf p 0 2) = true) : tenSet p s = provisionTenant p s := by
  rw [tenSet, if_neg (by simp [ok]), if_neg (by simp [here])]

theorem clearTenant_absent {t : Nat} (d : Dev) (other : t ≠ 0) : (clearTenant t d).tenantHere t = false := by
  have reset : Rg.TEN_T_CFG.resetWord t = 0 := by
    simp only [RegDef.resetWord, if_neg other]
    rfl
  have absent : (clearTenant t d).rdb t Fd.TEN_T_CFG_PRESENT = 0 := by
    refine (Dev.rdx_regSet_reg (by decide)).trans ((Dev.rdx_regSet_reg (by decide)).trans ((Dev.rdx_regSet_reg (by decide)).trans
      ((Dev.rdx_regSet_reg (by decide)).trans ?_)))
    rw [Dev.rdx, show Fd.TEN_T_CFG_PRESENT.reg = Rg.TEN_T_CFG from rfl, Dev.regGet_regSet_same, reset]
    rfl
  simp [Dev.tenantHere, absent]

theorem tenDelete_answers (long : p.length = 4) (zero : jf p 2 2 = 0) (other : 0 < jf p 0 2) (small : jf p 0 2 < 1024)
    (here : s.dev.tenantHere (jf p 0 2) = true) :
    tenDelete p s = if s.dev.tenantOwns (jf p 0 2) then (jsState, [], s) else (jsOk, [], s.jDo (clearTenant (jf p 0 2))) := by
  rw [tenDelete, if_neg (by simp [long, jZero, zero]; omega), if_neg (by simp [here])]
  rfl

/-! ### Functions and classes -/

theorem assignFunc_assigns (f : Nat) (d : Dev) (small : jf p 2 2 < 1024) (floor : jf p 8 4 ≤ 131072) (cap : jf p 12 4 ≤ 131072) :
    (assignFunc f p d).tenantOf f = jf p 2 2 ∧ ((assignFunc f p d).func f).sqQuota = jf p 4 2 ∧
      ((assignFunc f p d).func f).cqQuota = jf p 6 2 ∧ (assignFunc f p d).rdb f Fd.TEN_F_SLOT_FLOOR_SLOTS = jf p 8 4 ∧
      (assignFunc f p d).rdb f Fd.TEN_F_SLOT_CAP_SLOTS = jf p 12 4 := by
  have func : (assignFunc f p d).func f = { d.func f with sqQuota := jf p 4 2, cqQuota := jf p 6 2 } := Dev.func_modFunc_same ..
  refine ⟨?_, by rw [func], by rw [func], ?_, ?_⟩
  · exact (Dev.rdx_wrx_reg (by decide)).trans ((Dev.rdx_wrx_reg (by decide)).trans
      ((Dev.rdb_wrb_same _ _ _ (by decide) (by decide)).trans (Nat.mod_eq_of_lt small)))
  · exact (Dev.rdx_wrx_reg (by decide)).trans
      ((Dev.rdb_wrb_same _ _ _ (by decide) (by decide)).trans (Nat.mod_eq_of_lt (floor.trans_lt (by decide))))
  · exact (Dev.rdb_wrb_same _ _ _ (by decide) (by decide)).trans (Nat.mod_eq_of_lt (cap.trans_lt (by decide)))

theorem funcAssign_answers (long : p.length = 16) (func : jf p 0 2 ≤ 1025) (here : s.dev.tenantHere (jf p 2 2) = true)
    (subs : jf p 4 2 ≤ (if isPf (jf p 0 2) then 4096 else 256)) (comps : jf p 6 2 ≤ (if isPf (jf p 0 2) then 4096 else 256))
    (floor : jf p 8 4 ≤ 131072) (cap : jf p 12 4 ≤ 131072)
    (free : jf p 2 2 ≠ s.dev.tenantOf (jf p 0 2) → s.dev.movable (jf p 0 2) = true)
    (own : s.dev.reachesForeign (jf p 0 2) (jf p 2 2) = false) (fits : s.dev.funcOver (jf p 0 2) p = false) :
    funcAssign p s = (jsOk, [], s.jDo (assignFunc (jf p 0 2) p)) := by
  have small := tenantHere_lt here
  rw [funcAssign, if_neg (by simp only [Bool.or_eq_true, decide_eq_true_eq]; omega), if_neg (by simp [here, func]),
    if_neg (by simpa using free), if_neg (by simp [own]), if_neg (by simp [fits])]
  rfl

/-- The word of TEN.CLS_CFG that CLASS_SET writes, field by field. -/
theorem classWord_fields {fl t : Nat} (flags : fl < 8) (small : t < 1024) :
    let v := bits fl 0 0 * 2 ^ 31 + bits fl 1 1 * 2 ^ 30 + bits fl 2 2 * 2 ^ 29 + t
    bits v 31 31 = fl % 2 ∧ bits v 30 30 = fl / 2 % 2 ∧ bits v 29 29 = fl / 4 ∧ bits v 9 0 = t := by
  have excl : bits fl 0 0 < 2 := bits_lt fl 0 0
  have paced : bits fl 1 1 < 2 := bits_lt fl 1 1
  have soft : bits fl 2 2 < 2 := bits_lt fl 2 2
  have low : bits fl 0 0 = fl % 2 := by simp [bits]
  have mid : bits fl 1 1 = fl / 2 % 2 := by simp [bits]
  have high : bits fl 2 2 = fl / 4 := by simp [bits]; omega
  rw [← low, ← mid, ← high]
  generalize bits fl 0 0 = x at *
  generalize bits fl 1 1 = y at *
  generalize bits fl 2 2 = z at *
  clear low mid high
  simp only [bits]
  omega

theorem classSet_answers (long : p.length = 8) (cls : jf p 0 1 < 15) (flags : jf p 1 1 < 8) (here : s.dev.tenantHere (jf p 2 2) = true)
    (pace : jf p 4 4 < 2 ^ 20) (alone : jf p 1 1 % 2 = 1 → ∀ e ∈ s.dev.zm.ns, e.2.cls = jf p 0 1 → e.2.owner = jf p 2 2)
    (room : jf p 1 1 / 4 = 1 → s.dev.softHolders (jf p 0 1) < 4) :
    classSet p s = (jsOk, [], s.jDo fun d => (classWrite (jf p 0 1) (bits (jf p 1 1) 0 0 * 2 ^ 31 + bits (jf p 1 1) 1 1 * 2 ^ 30 +
      bits (jf p 1 1) 2 2 * 2 ^ 29 + jf p 2 2) d).wrb (jf p 0 1) Fd.TEN_CLS_PACE_PACE (jf p 4 4)) := by
  have small := tenantHere_lt here
  have excl : ¬ (bit (jf p 1 1) 0 && s.dev.zm.ns.any fun e => decide (e.2.cls = jf p 0 1) && decide (e.2.owner ≠ jf p 2 2)) = true := by
    intro clash
    obtain ⟨held, other⟩ := Bool.and_eq_true_iff.mp clash
    obtain ⟨e, mem, both⟩ := List.any_eq_true.mp other
    obtain ⟨same, foreign⟩ := Bool.and_eq_true_iff.mp both
    refine of_decide_eq_true foreign (alone ?_ e mem (of_decide_eq_true same))
    simpa [bit] using held
  have soft : ¬ (bit (jf p 1 1) 2 && decide (4 ≤ s.dev.softHolders (jf p 0 1))) = true := by
    intro full
    obtain ⟨asked, many⟩ := Bool.and_eq_true_iff.mp full
    have := room (by simp [bit] at asked; omega)
    have := of_decide_eq_true many
    omega
  rw [classSet, if_neg (by simp only [Bool.or_eq_true, Bool.and_eq_true, decide_eq_true_eq]; omega), if_neg (by simp [here]), if_neg excl,
    if_neg soft]
  rfl

/-- SOFT_RSV is written as asked where fewer than four other classes hold it. -/
theorem classWrite_soft {cls v : Nat} (d : Dev) (other : cls ≠ 15) (room : bits v 29 29 = 1 → d.softHolders cls < 4) :
    (classWrite cls v d).rdb cls Fd.TEN_CLS_CFG_SOFT_RSV = bits v 29 29 := by
  rw [classWrite, if_neg other]
  refine (Dev.rdb_wrb_same _ _ _ (by decide) (by decide)).trans ?_
  have two : bits v 29 29 < 2 := bits_lt v 29 29
  have asked : bit v 29 = decide (bits v 29 29 = 1) := by simp [bit, bits]
  rcases (show bits v 29 29 = 0 ∨ bits v 29 29 = 1 by omega) with off | on
  · simp [asked, off, b2n]
  · simp [asked, on, room on, b2n]

theorem classSet_sets {cls fl t pace : Nat} (d : Dev) (other : cls ≠ 15) (flags : fl < 8) (small : t < 1024) (fits : pace < 2 ^ 20)
    (room : fl / 4 = 1 → d.softHolders cls < 4) :
    let e := (classWrite cls (bits fl 0 0 * 2 ^ 31 + bits fl 1 1 * 2 ^ 30 + bits fl 2 2 * 2 ^ 29 + t) d).wrb cls Fd.TEN_CLS_PACE_PACE pace
    e.rdb cls Fd.TEN_CLS_CFG_EXCL = fl % 2 ∧ e.rdb cls Fd.TEN_CLS_CFG_PACE = fl / 2 % 2 ∧ e.rdb cls Fd.TEN_CLS_CFG_SOFT_RSV = fl / 4 ∧
      e.rdb cls Fd.TEN_CLS_CFG_OWNER = t ∧ e.rdb cls Fd.TEN_CLS_PACE_PACE = pace := by
  obtain ⟨exclBit, paceBit, softBit, ownerBits⟩ := classWord_fields flags small
  generalize bits fl 0 0 * 2 ^ 31 + bits fl 1 1 * 2 ^ 30 + bits fl 2 2 * 2 ^ 29 + t = v at *
  obtain ⟨owner, set⟩ := classWrite_sets (d := d) cls v
  obtain ⟨excl, paced⟩ := set other
  have soft := classWrite_soft (v := v) d other (by rw [softBit]; exact room)
  exact ⟨(Dev.rdx_wrx_reg (by decide)).trans (excl.trans exclBit), (Dev.rdx_wrx_reg (by decide)).trans (paced.trans paceBit),
    (Dev.rdx_wrx_reg (by decide)).trans (soft.trans softBit), (Dev.rdx_wrx_reg (by decide)).trans (owner.trans ownerBits),
    (Dev.rdb_wrb_same _ _ _ (by decide) (by decide)).trans (Nat.mod_eq_of_lt fits)⟩

theorem tenUsage_answers (long : p.length = 4) (zero : jf p 2 2 = 0) (here : s.dev.tenantHere (jf p 0 2) = true) :
    tenUsage p s = (jsOk, layout 40 [(0, 8, s.dev.tenantSum (jf p 0 2) (·.sectorsRead)),
      (8, 8, s.dev.tenantSum (jf p 0 2) (·.sectorsWritten)), (16, 8, s.dev.tenantSum (jf p 0 2) (·.reads)),
      (24, 8, s.dev.tenantSum (jf p 0 2) (·.writes)), (32, 4, s.dev.pool.held (jf p 0 2)), (36, 2, s.dev.stagedMib (jf p 0 2)),
      (38, 1, s.dev.refoldsOf (jf p 0 2))], s) := by
  have small := tenantHere_lt here
  rw [tenUsage, if_neg (by simp [long, jZero, zero]; omega), if_neg (by simp [here])]
  rfl

end

/-- Settles O35: a request that is ready is answered with what its operation gives. -/
theorem jenamTenantsAct : Obligations.JenamTenantsAct := by
  refine ⟨fun _ _ _ ready => answers_of_row ready getInfo_answers rfl rfl, fun _ _ _ ready => answers_of_row ready getGeometry_answers rfl rfl,
    fun _ _ _ p ready ok new fits alone => answers_of_row ready ((tenCreate_new ok new).trans (provisionTenant_sets fits alone)) rfl
      (by rw [State.jDo_dev, makeDurable_tenantHere, makeDurable_tenantHas]; exact setTenant_has _ _ ok (tenantOk_lt ok)),
    fun _ s _ p ready ok here => ?_,
    fun _ _ _ p ready ok here fits alone => answers_of_row ready ((tenSet_here ok here).trans (provisionTenant_sets fits alone)) rfl
      (by rw [State.jDo_dev, makeDurable_tenantHere, makeDurable_tenantHas]; exact setTenant_has _ _ ok (tenantOk_lt ok)),
    fun buf s b p ok i mem ready here => ?_,
    fun _ s _ p ready long zero other small here => ?_,
    fun _ _ _ p ready long func here subs comps floor cap free own fits =>
      answers_of_row ready (funcAssign_answers long func here subs comps floor cap free own fits) rfl
        (by simpa only [State.jDo_dev, makeDurable_tenantOf, makeDurable_func, makeDurable_rdb] using
          assignFunc_assigns _ _ (tenantHere_lt here) floor cap),
    fun _ s _ p ready long cls flags here pace alone room => answers_of_row ready (classSet_answers long cls flags here pace alone room) rfl
      (by simpa only [State.jDo_dev, makeDurable_rdb] using classSet_sets s.dev (by omega) flags (tenantHere_lt here) pace room),
    fun _ _ _ p ready long zero here => answers_of_row ready (tenUsage_answers long zero here) rfl rfl⟩
  · split
    case isTrue has => exact answers_of_row ready ((tenCreate_again ok here).trans (if_pos has)) rfl rfl
    case isFalse has => exact answers_of_row ready ((tenCreate_again ok here).trans (if_neg has)) rfl rfl
  · have row : ∃ f, exec i.2.1 s = jenamRow i.1 buf f s ∧ f p s = provisionTenant p s := by
      rcases List.mem_cons.mp mem with rfl | mem
      · exact ⟨tenCreate, rfl, tenCreate_new ok here⟩
      · obtain rfl := List.mem_singleton.mp mem
        exact ⟨tenSet, rfl, tenSet_here ok here⟩
    obtain ⟨f, runs, same⟩ := row
    exact ⟨fun breaks => answers_of_row ready (same.trans (provisionTenant_limits breaks)) runs rfl,
      fun fits excl shared => answers_of_row ready (same.trans (provisionTenant_isolates fits excl shared)) runs rfl⟩
  · split
    case isTrue owns => exact answers_of_row ready ((tenDelete_answers long zero other small here).trans (if_pos owns)) rfl rfl
    case isFalse owns =>
      exact answers_of_row ready ((tenDelete_answers long zero other small here).trans (if_neg owns)) rfl
        (by rw [State.jDo_dev, makeDurable_tenantHere]; exact clearTenant_absent s.dev (by omega))

end Sys2Proof.Machine

/-! PROOFS. Jenam group 0x03: namespaces are made, deleted, attached, detached and changed (R108, R113, R141, R142, R149, R394, R396, R397,
Table 14-6). -/

namespace Sys2Proof.Machine

/-! ### Namespaces and keys read back -/

theorem ns?_modNs_same {d : Dev} {n : Nat} {x : Ns} (g : Ns → Ns) (found : d.ns? n = some x) : (d.modNs n g).ns? n = some (g x) := by
  rw [Dev.modNs, found]
  exact mapFind_insert_same _ _ _

theorem ns?_of_zm {d e : Dev} (same : e.zm = d.zm) (n : Nat) : e.ns? n = d.ns? n := by rw [Dev.ns?, same]; rfl

theorem mapFind_filter_none {α : Type} {keep : Nat × α → Bool} {k : Nat} (dropped : ∀ v, keep (k, v) = false) :
    ∀ m : SMap α, mapFind (m.filter keep) k = none
  | [] => rfl
  | (a, v) :: m => by
    rw [List.filter_cons]
    split
    case isTrue kept =>
      have other : a ≠ k := by rintro rfl; exact Bool.false_ne_true ((dropped v).symm.trans kept)
      rw [mapFind, if_neg other]
      exact mapFind_filter_none dropped m
    case isFalse => exact mapFind_filter_none dropped m

theorem nsSlot_ne_root {n : Nat} (small : n ≤ 4096) : nsSlot n ≠ rootSlot := by
  unfold nsSlot rootSlot
  omega

theorem generateKey_loads {slot : Nat} (mode : Nat) (d : Dev) (plain : slot ≠ rootSlot) : (generateKey slot mode d).keySlot slot =
    { state := .loaded, mode := mode, gen := ((d.keySlot slot).gen + 1) % 2 ^ 32, key := Config.random d.nfree } :=
  (keySlot_of_slots (takeNonce_slots _) slot).trans (keySlot_setKey _ _ plain)

/-! ### The Changed Namespace List -/

theorem raiseEvent_changedNs (f g : Nat) (e : AsyncEvent) (d : Dev) : ((raiseEvent f e d).func g).changedNs = (d.func g).changedNs := by
  unfold raiseEvent
  split
  · rfl
  · split
    next k _ =>
      split
      · rw [finish_func]
      · by_cases same : g = f
        · rw [same, Dev.func_modFunc_same, finish_func]
        · rw [Dev.func_modFunc_other _ _ same, finish_func]
    next => rfl

theorem noteNs_notes (n f : Nat) (d : Dev) : n ∈ ((noteNs n f d).func f).changedNs := by
  have listed : n ∈ ((d.modFunc f fun x => { x with changedNs := listAdd x.changedNs n }).func f).changedNs := by
    rw [Dev.func_modFunc_same]
    exact mem_listAdd
  unfold noteNs
  dsimp only
  split
  · rw [raiseEvent_changedNs]; exact listed
  · exact listed

section

variable {s : State} {p : List Byte} {ns : Ns}

/-! ### NS_CREATE -/

theorem nsCreateOk_range (ok : nsCreateOk p = true) : 1 ≤ jf p 0 4 ∧ jf p 0 4 ≤ 4096 := by
  simp only [nsCreateOk, Bool.and_eq_true, decide_eq_true_eq] at ok
  exact ⟨ok.1.1.1.1.1.1.1.1.1.2, ok.1.1.1.1.1.1.1.1.2⟩

/-- The device once a new namespace has its key `e` and is listed. -/
def nsListed (p : List Byte) (d e : Dev) : Dev :=
  rowsLow d.unassignedAll (((e.wrb (nsSlot (jf p 0 4)) Fd.CIPH_SLOT_AUTH_FLAG (bits (jf p 9 1) 0 0)).modZm fun m =>
    { m with ns := mapInsert m.ns (jf p 0 4) (newNs p d) }).tick 1)

theorem nsListed_ns? (p : List Byte) (d e : Dev) : (nsListed p d e).ns? (jf p 0 4) = some (newNs p d) :=
  (ns?_of_zm ((rowsLow_keeps _ _).zm (by rfl)) _).trans (mapFind_insert_same _ _ _)

theorem nsListed_keySlot (p : List Byte) (d e : Dev) (n : Nat) : (nsListed p d e).keySlot n = e.keySlot n := by
  have named (x : Dev) (f : Zm → Zm) : ((x.modZm f).tick 1).ciph = x.ciph := rfl
  have kept : (nsListed p d e).ciph = e.ciph := by
    unfold nsListed
    rw [(rowsLow_keeps _ _).ciph (by rfl), named, Dev.wrb_ciph]
  rw [Dev.keySlot, Dev.keySlot, kept]

theorem nsCreate_creates (ok : nsCreateOk p = true) (here : s.dev.rowsAstray (jRows p) = false) (new : s.dev.ns? (jf p 0 4) = none)
    (passes : s.dev.nsRefusal p = none) (own : bit (jf p 9 1) 2 = false) (empty : (s.dev.keySlot (nsSlot (jf p 0 4))).state = .empty) :
    let t := s.jDo fun _ => nsListed p s.dev (generateKey (nsSlot (jf p 0 4)) (jf p 8 1) s.dev)
    nsCreate p s = (jsOk, t.dev.nsReply (jf p 0 4), t) := by
  have key : nsKey (jf p 0 4) p s.dev = .ok (generateKey (nsSlot (jf p 0 4)) (jf p 8 1) s.dev) := by
    simp [nsKey, own, empty]
  rw [nsCreate, if_neg (by simp [ok, here]), new]
  dsimp only
  rw [passes]
  dsimp only
  rw [key]
  rfl

/-- What the new namespace is, its key, and the reply that names both. -/
theorem nsCreate_state (d : Dev) (small : jf p 0 4 ≤ 4096) :
    let e := makeDurable (nsListed p d (generateKey (nsSlot (jf p 0 4)) (jf p 8 1) d))
    e.ns? (jf p 0 4) = some (newNs p d) ∧ e.keySlot (nsSlot (jf p 0 4)) = ⟨.loaded, jf p 8 1,
      ((d.keySlot (nsSlot (jf p 0 4))).gen + 1) % 2 ^ 32, Config.random d.nfree⟩ ∧
    e.nsReply (jf p 0 4) = layout 20 [(0, 4, jf p 0 4), (4, 4, (newNs p d).zones), (8, 8, (newNs p d).size),
      (16, 4, ((d.keySlot (nsSlot (jf p 0 4))).gen + 1) % 2 ^ 32)] := by
  intro e
  have listed : e.ns? (jf p 0 4) = some (newNs p d) := (ns?_of_zm (makeDurable_zm _) _).trans (nsListed_ns? _ _ _)
  have key := (keySlot_of_slots (congrArg Ciph.slots (makeDurable_ciph _)) (nsSlot (jf p 0 4))).trans
    ((nsListed_keySlot p d _ _).trans (generateKey_loads (jf p 8 1) d (nsSlot_ne_root small)))
  refine ⟨listed, key, ?_⟩
  rw [Dev.nsReply, listed]
  dsimp only
  rw [show e.keySlot (nsSlot (jf p 0 4)) = _ from key]

theorem nsCreate_again (ok : nsCreateOk p = true) (here : s.dev.rowsAstray (jRows p) = false) (found : s.dev.ns? (jf p 0 4) = some ns) :
    nsCreate p s = if s.dev.sameNs (jf p 0 4) ns p then (jsAlready, s.dev.nsReply (jf p 0 4), s) else (jsExists, [], s) := by
  rw [nsCreate, if_neg (by simp [ok, here]), found]
  rfl

theorem nsCreate_refuses {st : Nat} (ok : nsCreateOk p = true) (here : s.dev.rowsAstray (jRows p) = false)
    (new : s.dev.ns? (jf p 0 4) = none) (refused : s.dev.nsRefusal p = some st) : nsCreate p s = (st, [], s) := by
  rw [nsCreate, if_neg (by simp [ok, here]), new]
  dsimp only
  rw [refused]
  rfl

/-! ### NS_DELETE -/

theorem nsDelete_deletes (long : p.length = 4) (found : s.dev.ns? (jf p 0 4) = some ns) :
    nsDelete p s = (jsOk, [], s.jDo (deleteNs (jf p 0 4) ns)) := by
  rw [nsDelete, if_neg (by simp [long]), found]
  rfl

theorem deleteNs_zm (n : Nat) (ns : Ns) (d : Dev) : ∃ m : Zm, (deleteNs n ns d).zm =
    { m with ns := mapErase m.ns n, zones := m.zones.filter fun e => e.1 / 2 ^ 20 ≠ n } :=
  ⟨_, (noteNsAll_keeps _ _ _).zm (by rfl)⟩

theorem deleteNs_gone (n : Nat) (ns : Ns) (d : Dev) : (deleteNs n ns d).ns? n = none ∧
    ∀ z < 2 ^ 20, mapFind (deleteNs n ns d).zm.zones (n * 2 ^ 20 + z) = none := by
  obtain ⟨m, left⟩ := deleteNs_zm n ns d
  refine ⟨?_, fun z small => ?_⟩
  · rw [Dev.ns?, left]
    exact mapFind_erase_same _ _
  · rw [left]
    refine mapFind_filter_none (fun v => ?_) _
    have within : (n * 2 ^ 20 + z) / 2 ^ 20 = n := by omega
    simp only [within, ne_eq, not_true_eq_false, decide_false]

theorem deleteNs_key {n : Nat} (ns : Ns) (d : Dev) (small : n ≤ 4096) : ((deleteNs n ns d).keySlot (nsSlot n)).key = 0 := by
  have kept : (deleteNs n ns d).ciph = (purgeSlot (nsSlot n) d).ciph :=
    ((noteNsAll_keeps _ _ _).ciph (by rfl)).trans ((resetNs_keeps n ns (purgeSlot (nsSlot n) d)).ciph (by rfl))
  rw [keySlot_of_slots (congrArg Ciph.slots kept)]
  exact (purgeSlot_purges (nsSlot_ne_root small)).1

/-! ### NS_ATTACH and NS_DETACH -/

theorem nsAttach_answers (long : p.length = 8) (zero : jf p 6 2 = 0) (found : s.dev.ns? (jf p 0 4) = some ns) (func : jf p 4 2 ≤ 1025) :
    nsAttach p s = if jf p 4 2 ∈ ns.attached then (jsAlready, [], s)
      else if s.dev.tenantOf (jf p 4 2) ≠ ns.owner && !ns.shared then (jsIsolation, [], s)
      else (jsOk, [], s.jDo fun d => d.modNs (jf p 0 4) fun x => { x with attached := x.attached ++ [jf p 4 2] }) := by
  rw [nsAttach, if_neg (by simp [long, jZero, zero]), found]
  dsimp only
  rw [if_neg (by omega)]
  rfl

theorem nsDetach_answers (long : p.length = 8) (zero : jf p 6 2 = 0) (found : s.dev.ns? (jf p 0 4) = some ns) (func : jf p 4 2 ≤ 1025) :
    nsDetach p s = if jf p 4 2 ∉ ns.attached then (jsAlready, [], s)
      else (jsOk, [], s.jDo fun d => noteNs (jf p 0 4) (jf p 4 2) (d.modNs (jf p 0 4) fun x =>
        { x with attached := x.attached.filter fun k => k ≠ jf p 4 2 })) := by
  rw [nsDetach, if_neg (by simp [long, jZero, zero]), found]
  dsimp only
  rw [if_neg (by omega)]
  rfl

/-! ### NS_SET, RESERVE_SET and HANDLE_SET -/

theorem nsSet_sets (long : p.length = 8) (cls : jf p 4 1 ≤ 15) (flags : jf p 5 1 = 0 ∨ jf p 5 1 = 2)
    (found : s.dev.ns? (jf p 0 4) = some ns) (limit : if ns.zoned = true then 0 < jf p 6 2 ∧ jf p 6 2 ≤ 2048 else jf p 6 2 = 0)
    (active : s.dev.activeOf (jf p 0 4) ≤ jf p 6 2) (own : jf p 5 1 = 0 → ∀ f ∈ ns.attached, s.dev.tenantOf f = ns.owner)
    (open' : s.dev.classForeign ns.owner (jf p 4 1) = false) (fits : s.dev.othersLimit (jf p 0 4) + jf p 6 2 ≤ 2048) :
    nsSet p s = (jsOk, [], s.jDo fun d => d.modNs (jf p 0 4) fun x =>
      { x with cls := jf p 4 1, shared := decide (jf p 5 1 = 2), limit := jf p 6 2 }) := by
  have ranged : ¬ (if ns.zoned = true then (decide (jf p 6 2 = 0) || decide (2048 < jf p 6 2)) = true else jf p 6 2 ≠ 0) := by
    split at limit
    case isTrue zoned => rw [if_pos zoned]; simp; omega
    case isFalse zoned => rw [if_neg zoned]; simp [limit]
  have secluded : ¬ (decide (jf p 5 1 = 0) && ns.attached.any fun f => decide (s.dev.tenantOf f ≠ ns.owner)) = true := by
    intro both
    obtain ⟨unshared, some'⟩ := Bool.and_eq_true_iff.mp both
    obtain ⟨f, mem, foreign⟩ := List.any_eq_true.mp some'
    exact of_decide_eq_true foreign (own (of_decide_eq_true unshared) f mem)
  rw [nsSet, if_neg (by rcases flags with flags | flags <;> simp [long, flags, cls]), found]
  dsimp only
  rw [if_neg (by simpa using ranged), if_neg (by rw [Bool.or_eq_true, not_or]; exact ⟨by simpa using active, secluded⟩),
    if_neg (by simp [open']), if_neg (by omega)]
  rfl

theorem reserveSet_sets (long : p.length = 800) (zero : jf p 4 28 = 0) (some' : 0 < rowSum (jRows p))
    (here : s.dev.rowsAstray (jRows p) = false) (found : s.dev.ns? (jf p 0 4) = some ns) (zoned : ns.zoned = true)
    (free : s.dev.reserveHeld (jf p 0 4) ns (jRows p) = false)
    (alone : s.dev.groupsClash ns.owner (jf p 0 4) (s.dev.exclGroups ns.owner) ((jRows p).map (·.1)) = false)
    (fits : s.dev.rowsOver (jf p 0 4) (jRows p) = false) :
    reserveSet p s = (jsOk, [], s.jDo (setReserve (jf p 0 4) ns (jRows p))) := by
  rw [reserveSet, if_neg (by simp [long, jZero, zero, here]; omega), found]
  dsimp only
  rw [if_neg (by simp [zoned]), if_neg (by simp [free]), if_neg (by rw [alone]; exact Bool.false_ne_true), if_neg (by simp [fits])]
  rfl

theorem setReserve_sets {n : Nat} {rs : SMap Nat} {d : Dev} (found : d.ns? n = some ns) :
    (setReserve n ns rs d).ns? n = some { ns with rows := rs, zones := rowSum rs } := by
  unfold setReserve
  dsimp only
  refine (ns?_of_zm ((rowsLow_keeps _ _).zm (by rfl)) n).trans ?_
  have set : ∀ keep : Nat × Zone → Bool, ((d.modNs n fun x => { x with rows := rs, zones := rowSum rs }).modZm fun m =>
      { m with zones := m.zones.filter keep }).ns? n = some { ns with rows := rs, zones := rowSum rs } := fun _ => ns?_modNs_same _ found
  split
  · exact set _
  · exact (ns?_of_zm ((noteNsAll_keeps _ _ _).zm (by rfl)) n).trans (set _)

/-- The die groups that HANDLE_SET names. -/
def handleGroups (p : List Byte) : List Nat := (List.range 384).filter fun g => bit (jf p (8 + g / 8) 1) (g % 8)

theorem handleSet_sets (long : p.length = 56) (some' : 0 < jf p 4 1) (small : jf p 4 1 ≤ 15) (flags : jf p 5 1 ≤ 3) (zero : jf p 6 2 = 0)
    (found : s.dev.ns? (jf p 0 4) = some ns) (zoned : ns.zoned = true)
    (own : ∀ g < 384, bit (jf p (8 + g / 8) 1) (g % 8) = true → g ∈ ns.groups) :
    handleSet p s = if bit (jf p 5 1) 1 then (jsOk, [], s.jDo fun d => d.modNs (jf p 0 4) fun x =>
        { x with handles := mapErase x.handles (jf p 4 1) })
      else (jsOk, [], s.jDo fun d => d.modNs (jf p 0 4) fun x =>
        { x with handles := mapInsert x.handles (jf p 4 1) { groups := handleGroups p, spill := bit (jf p 5 1) 0 } }) := by
  have inside : ((List.range 384).filter fun g => bit (jf p (8 + g / 8) 1) (g % 8)).any (fun g => decide (g ∉ ns.groups)) = false := by
    refine List.any_eq_false.2 fun g mem => ?_
    obtain ⟨range, named⟩ := List.mem_filter.1 mem
    simp [own g (List.mem_range.1 range) named]
  rw [handleSet, if_neg (by simp [long, jZero, zero]; omega), found]
  dsimp only
  rw [if_neg (by rw [inside, zoned]; exact Bool.false_ne_true)]
  rfl

/-! ### A namespace that is not there -/

theorem nsDelete_absent (long : p.length = 4) (gone : s.dev.ns? (jf p 0 4) = none) : nsDelete p s = (jsNotFound, [], s) := by
  rw [nsDelete, if_neg (by simp [long]), gone]
  rfl

theorem nsAttach_absent (long : p.length = 8) (zero : jf p 6 2 = 0) (gone : s.dev.ns? (jf p 0 4) = none) :
    nsAttach p s = (jsNotFound, [], s) := by
  rw [nsAttach, if_neg (by simp [long, jZero, zero]), gone]
  rfl

theorem nsSet_absent (long : p.length = 8) (cls : jf p 4 1 ≤ 15) (flags : jf p 5 1 = 0) (gone : s.dev.ns? (jf p 0 4) = none) :
    nsSet p s = (jsNotFound, [], s) := by
  rw [nsSet, if_neg (by simp [long, flags, cls]), gone]
  rfl

end

/-- A row ordered behind the commands of its namespace runs once none of them is left, or where the namespace is not there. -/
theorem jenamOrdered_runs {op buf : Nat} {f : List Byte → State → Nat × List Byte × State} {s : State} {b : JBuf} {p : List Byte}
    (ready : JenamReady s buf op b p) (held : s.dev.jBuf buf = some b)
    (quiet : s.dev.ns? (jf p 0 4) = none ∨ s.dev.nsQuiet (jf p 0 4) s.dev.host.seq = true) :
    jenamOrdered op buf f s = jenamRow op buf f s := by
  obtain ⟨-, -, -, -, -, params⟩ := ready
  unfold jenamOrdered
  rw [held]
  dsimp only
  rw [params]
  rcases quiet with gone | quiet
  · rw [gone]; rfl
  · rw [quiet, Bool.not_true, Bool.and_false, if_neg Bool.false_ne_true]

/-- Settles O36: a request that is ready is answered with what its operation gives. -/
theorem jenamNamespacesAct : Obligations.JenamNamespacesAct := by
  refine ⟨fun _ s _ p ready ok here new passes own empty => ?_,
    fun _ s _ p ns ready ok here found => ?_,
    fun _ _ _ p _ ready ok here new refused => answers_of_row ready (nsCreate_refuses ok here new refused) rfl rfl,
    fun _ s _ p ns ready held quiet long found small => ?_,
    fun _ s _ p ns ready long zero found func => ?_,
    fun _ s _ p ns ready held quiet long zero found func => ?_,
    fun _ s _ p ns ready long cls flags found limit active own open' fits =>
      answers_of_row ready (nsSet_sets long cls flags found limit active own open' fits) rfl (ns?_modNs_same _ found),
    fun _ s _ p ns ready long zero some' here found zoned free alone fits =>
      answers_of_row ready (reserveSet_sets long zero some' here found zoned free alone fits) rfl (setReserve_sets found),
    fun _ s _ p ns ready long some' small flags zero found zoned own => ?_,
    fun _ s _ p gone => ⟨fun ready long held => answers_of_row ready (nsDelete_absent long gone) (jenamOrdered_runs ready held (.inl gone)) rfl,
      fun ready long zero => answers_of_row ready (nsAttach_absent long zero gone) rfl rfl,
      fun ready long cls flags => answers_of_row ready (nsSet_absent long cls flags gone) rfl rfl⟩⟩
  · obtain ⟨listed, key, reply⟩ := nsCreate_state s.dev (nsCreateOk_range ok).2
    have gives := nsCreate_creates ok here new passes own empty
    dsimp only at gives
    rw [State.jDo_dev, reply] at gives
    exact answers_of_row ready gives rfl ⟨listed, key⟩
  · split
    case isTrue same => exact answers_of_row ready ((nsCreate_again ok here found).trans (if_pos same)) rfl rfl
    case isFalse other => exact answers_of_row ready ((nsCreate_again ok here found).trans (if_neg other)) rfl rfl
  · obtain ⟨gone, zones⟩ := deleteNs_gone (jf p 0 4) ns s.dev
    exact answers_of_row ready (nsDelete_deletes long found) (jenamOrdered_runs ready held (.inr quiet))
      ⟨gone, deleteNs_key ns s.dev small, zones⟩
  · have gives := nsAttach_answers long zero found func
    split
    case isTrue mem => exact answers_of_row ready (gives.trans (if_pos mem)) rfl rfl
    case isFalse out =>
      rw [if_neg out] at gives
      split
      case isTrue may =>
        exact answers_of_row ready (gives.trans (if_neg (by rcases may with own | shared <;> simp [*]))) rfl (ns?_modNs_same _ found)
      case isFalse may =>
        rw [not_or] at may
        exact answers_of_row ready (gives.trans (if_pos (by simp [may]))) rfl rfl
  · have gives := nsDetach_answers long zero found func
    split
    case isTrue mem =>
      exact answers_of_row ready (gives.trans (if_neg (not_not_intro mem))) (jenamOrdered_runs ready held (.inr quiet))
        ⟨(ns?_of_zm ((noteNs_keeps _ _ _).zm (by rfl)) _).trans (ns?_modNs_same _ found), noteNs_notes _ _ _⟩
    case isFalse out =>
      exact answers_of_row ready (gives.trans (if_pos out)) (jenamOrdered_runs ready held (.inr quiet)) rfl
  · have gives := handleSet_sets long some' small flags zero found zoned own
    by_cases clears : bit (jf p 5 1) 1 = true
    · refine answers_of_row ready (gives.trans (if_pos clears)) rfl ⟨_, ns?_modNs_same _ found, ?_⟩
      rw [if_pos clears]
      exact mapFind_erase_same _ _
    · refine answers_of_row ready (gives.trans (if_neg clears)) rfl ⟨_, ns?_modNs_same _ found, ?_⟩
      rw [if_neg clears]
      exact mapFind_insert_same _ _ _

end Sys2Proof.Machine

/-! PROOFS. Jenam groups 0x04 and 0x05: plans are written, armed, withdrawn and read back, priorities and keys are set (R54, R55, R214, R299,
R398, R399, Table 14-8). -/

namespace Sys2Proof.Machine

/-! ### Every channel of a list -/

/-- A step for each channel named changes each of them by its own step, and leaves the others. -/
theorem chan_foldl {f : Dev → Nat → Dev} {g : Chan → Chan} (same : ∀ d n, (f d n).chan n = g (d.chan n))
    (other : ∀ d k n, n ≠ k → (f d k).chan n = d.chan n) {n : Nat} :
    ∀ {ns : List Nat}, ns.Nodup → ∀ d, (ns.foldl f d).chan n = if n ∈ ns then g (d.chan n) else d.chan n
  | [], _, d => by rw [if_neg (by simp)]; rfl
  | k :: ns, once, d => by
    obtain ⟨fresh, once⟩ := List.nodup_cons.1 once
    rw [List.foldl_cons, chan_foldl same other once]
    by_cases at' : n = k
    · subst at'
      rw [if_neg fresh, if_pos List.mem_cons_self, same]
    · rw [other _ _ _ at']
      simp only [List.mem_cons, at', false_or]

/-- What the step of a member sets, and every step keeps, holds at the end. -/
theorem foldl_establishes {α β : Type} {f : α → β → α} {P : α → Prop} {n : β} (sets : ∀ d, P (f d n)) (keeps : ∀ d k, P d → P (f d k)) :
    ∀ {ns : List β}, n ∈ ns → ∀ d, P (ns.foldl f d)
  | k :: ns, mem, d => by
    rcases List.mem_cons.1 mem with rfl | mem
    · exact List.foldlRecOn ns f (sets d) fun b held a _ => keeps b a held
    · exact foldl_establishes sets keeps mem (f d k)

theorem jChannels_nodup (p : List Byte) : (jChannels p).Nodup := List.nodup_range.filter _

section

variable {s : State} {p : List Byte}

/-! ### Group 0x04 -/

theorem writePlan_chan (m : SMap DWord) (mask : Word) (n : Nat) (d : Dev) :
    (writePlan m mask n d).chan n = (d.chan n).putBank (d.chan n).standby m mask :=
  Dev.chan_modChan_same d n fun c => c.putBank (d.chan n).standby m mask

theorem writePlan_other (m : SMap DWord) (mask : Word) {k n : Nat} (d : Dev) (other : n ≠ k) : (writePlan m mask k d).chan n = d.chan n :=
  Dev.chan_modChan_other d (fun c => c.putBank (d.chan k).standby m mask) other

theorem putBank_standby (c : Chan) (m : SMap DWord) (mask : Word) : (c.putBank c.standby m mask).live = c.live ∧
    (c.putBank c.standby m mask).sealOf c.standby = mask ∧
    (if c.standby then (c.putBank c.standby m mask).hatchB else (c.putBank c.standby m mask).hatchA) = m ∧
    (if c.standby then (c.putBank c.standby m mask).hatchA = c.hatchA else (c.putBank c.standby m mask).hatchB = c.hatchB) := by
  generalize c.standby = b
  cases b <;> exact ⟨rfl, rfl, rfl, rfl⟩

theorem jMaskOk_of (mask : jf p 0 8 < 2 ^ 48) : jMaskOk p = true := decide_eq_true mask

theorem hatchWrite_answers (long : p.length = 2064) (mask : jf p 0 8 < 2 ^ 48) (zero : jf p 10 6 = 0) :
    hatchWrite p s = if (jChannels p).any (fun n => (s.dev.chan n).bankLocked (s.dev.chan n).standby) then (jsState, [], s)
      else (jsOk, [], s.modDev fun d => (jChannels p).foldl (fun d n => writePlan (jEntries p) (BitVec.ofNat 32 (jf p 8 2)) n d) d) := by
  rw [hatchWrite, if_neg (by simp [long, jMaskOk_of mask, jZero, zero])]
  rfl

theorem hatchArmAll_withdraws (long : p.length = 16) (mask : jf p 0 8 < 2 ^ 48) (some' : 2 ≤ jf p 12 1) (flags : jf p 12 1 ≤ 7)
    (zero : jf p 13 3 = 0) : hatchArmAll p s = (jsOk, armReply 0 [], s.modDev (withdrawPlans (jf p 12 1) (jChannels p))) := by
  rw [hatchArmAll, if_neg (by simp [long, jMaskOk_of mask, jZero, zero]; omega), if_pos (by omega)]
  rfl

/-- The channels that would refuse the arm, with their flags. -/
def armRefusals (p : List Byte) (sheet : Nat) (d : Dev) : List (Nat × Nat) :=
  ((jChannels p).map fun n => (n, d.armFlags n sheet)).filter fun f => f.2 ≠ 0

theorem armRefusals_isEmpty {sheet : Nat} {d : Dev} :
    (armRefusals p sheet d).isEmpty = true ↔ ∀ n ∈ jChannels p, d.armFlags n sheet = 0 := by
  rw [List.isEmpty_iff, armRefusals, List.filter_eq_nil_iff]
  simp

theorem hatchArmAll_arms {sheet : Nat} (long : p.length = 16) (mask : jf p 0 8 < 2 ^ 48) (flags : jf p 12 1 ≤ 1) (zero : jf p 13 3 = 0)
    (target : sheet = (if jf p 12 1 = 1 then (s.dev.sheet + 2) % 2 ^ 32 else jf p 8 4)) :
    let ahead := (sheet + 2 ^ 32 - s.dev.sheet % 2 ^ 32) % 2 ^ 32
    let armed := s.modDev fun d => (jChannels p).foldl (fun d n => armChannel sheet n d) d
    hatchArmAll p s = if ahead < 2 || 2 ^ 31 ≤ ahead then (jsHatchRefused, armReply sheet ((jChannels p).map fun n => (n, 4)), s)
      else if (jChannels p).any s.dev.armBarred then (jsState, [], s)
      else if (armRefusals p sheet s.dev).isEmpty then
        (jsOk, armReply sheet [], armed.jDo fun d => (jChannels p).foldl (fun d n => keepPlan n d) d)
      else (jsHatchRefused, armReply sheet (armRefusals p sheet s.dev), armed.modDev fun d => (jChannels p).foldl (fun d n => hatchDisarm n d) d) := by
  have any : bit (jf p 12 1) 0 = decide (jf p 12 1 = 1) := by
    have : jf p 12 1 % 2 = jf p 12 1 := Nat.mod_eq_of_lt (by omega)
    simp [bit, this]
  rw [hatchArmAll, if_neg (by simp [long, jMaskOk_of mask, jZero, zero]; omega), if_neg (by omega), any]
  simp only [decide_eq_true_eq]
  rw [← target]
  rfl

theorem hatchRead_answers (long : p.length = 4) (chan : jf p 0 1 < 48) (bank : jf p 1 1 ≤ 1) (zero : jf p 2 2 = 0) :
    hatchRead p s = (jsOk, leBytes 16 (bits ((s.dev.chan (jf p 0 1)).sealOf (decide (jf p 1 1 = 1))).toNat 15 0) ++
      (List.range 256).flatMap fun k => leBytes 8 ((s.dev.chan (jf p 0 1)).bankEntry (decide (jf p 1 1 = 1)) k).toNat, s) := by
  rw [hatchRead, if_neg (by simp [long, jZero, zero]; omega), if_neg (by omega)]
  rfl

/-- ARB_SET on one channel. -/
def arbSetChan (p : List Byte) (d : Dev) (n : Nat) : Dev :=
  let d := d.regSet Rg.CARB_CLS_PRI n 0 (jf p 8 4)
  if jf p 12 1 = 0 then d else d.wrc n Fd.CARB_WAIT_LIMIT_LIMIT (jf p 12 1)

theorem arbSet_answers (long : p.length = 16) (mask : jf p 0 8 < 2 ^ 48) (zero : jf p 13 3 = 0) :
    arbSet p s = (jsOk, [], s.modDev fun d => (jChannels p).foldl (arbSetChan p) d) := by
  rw [arbSet, if_neg (by simp [long, jMaskOk_of mask, jZero, zero])]
  rfl

theorem arbSetChan_pri (d : Dev) (n : Nat) : (arbSetChan p d n).regGet Rg.CARB_CLS_PRI n 0 = jf p 8 4 := by
  have set : (d.regSet Rg.CARB_CLS_PRI n 0 (jf p 8 4)).regGet Rg.CARB_CLS_PRI n 0 = jf p 8 4 :=
    (Dev.regGet_regSet_same ..).trans (Nat.mod_eq_of_lt (jf_lt p 8 4))
  unfold arbSetChan
  dsimp only
  split
  · exact set
  · exact (Dev.regGet_wrx_reg (by decide)).trans set

theorem arbSetChan_pri_other (d : Dev) {k n : Nat} (other : n ≠ k) :
    (arbSetChan p d k).regGet Rg.CARB_CLS_PRI n 0 = d.regGet Rg.CARB_CLS_PRI n 0 := by
  have left : (d.regSet Rg.CARB_CLS_PRI k 0 (jf p 8 4)).regGet Rg.CARB_CLS_PRI n 0 = d.regGet Rg.CARB_CLS_PRI n 0 :=
    Dev.regGet_regSet_other _ _ (by unfold RegDef.key; omega)
  unfold arbSetChan
  dsimp only
  split
  · exact left
  · exact (Dev.regGet_wrx_reg (by decide)).trans left

theorem arbSetChan_limit (d : Dev) (n : Nat) : (arbSetChan p d n).rdc n Fd.CARB_WAIT_LIMIT_LIMIT =
    if jf p 12 1 = 0 then d.rdc n Fd.CARB_WAIT_LIMIT_LIMIT else jf p 12 1 := by
  unfold arbSetChan
  dsimp only
  split
  · exact Dev.rdx_regSet_reg (by decide)
  · exact (Dev.rdc_wrc_same _ _ _ (by decide) (by decide)).trans (Nat.mod_eq_of_lt (jf_lt p 12 1))

theorem arbSetChan_limit_other (d : Dev) {k n : Nat} (other : n ≠ k) :
    (arbSetChan p d k).rdc n Fd.CARB_WAIT_LIMIT_LIMIT = d.rdc n Fd.CARB_WAIT_LIMIT_LIMIT := by
  unfold arbSetChan
  dsimp only
  split
  · exact Dev.rdx_regSet_reg (by decide)
  · exact (Dev.rdx_wrx_other _ _ (by unfold RegDef.key; omega)).trans (Dev.rdx_regSet_reg (by decide))

/-- Each channel named takes the priorities, and the limit where one is given. -/
theorem arbSet_sets (d : Dev) {n : Nat} (named : n ∈ jChannels p) :
    ((jChannels p).foldl (arbSetChan p) d).regGet Rg.CARB_CLS_PRI n 0 = jf p 8 4 ∧
    ((jChannels p).foldl (arbSetChan p) d).rdc n Fd.CARB_WAIT_LIMIT_LIMIT =
      if jf p 12 1 = 0 then d.rdc n Fd.CARB_WAIT_LIMIT_LIMIT else jf p 12 1 := by
  refine ⟨foldl_establishes (P := fun e : Dev => e.regGet Rg.CARB_CLS_PRI n 0 = jf p 8 4) (fun e => arbSetChan_pri e n)
    (fun e k held => ?_) named d, ?_⟩
  · by_cases at' : n = k
    · exact at' ▸ arbSetChan_pri e n
    · exact (arbSetChan_pri_other e at').trans held
  · split
    case isTrue kept =>
      refine List.foldlRecOn (motive := fun e : Dev => e.rdc n Fd.CARB_WAIT_LIMIT_LIMIT = d.rdc n Fd.CARB_WAIT_LIMIT_LIMIT) _ _ rfl
        fun e held k _ => ?_
      by_cases at' : n = k
      · exact at' ▸ ((arbSetChan_limit e n).trans (if_pos kept)).trans held
      · exact (arbSetChan_limit_other e at').trans held
    case isFalse given =>
      refine foldl_establishes (P := fun e : Dev => e.rdc n Fd.CARB_WAIT_LIMIT_LIMIT = jf p 12 1)
        (fun e => (arbSetChan_limit e n).trans (if_neg given)) (fun e k held => ?_) named d
      by_cases at' : n = k
      · exact at' ▸ (arbSetChan_limit e n).trans (if_neg given)
      · exact (arbSetChan_limit_other e at').trans held

/-! ### Group 0x05 -/

theorem keyExchange_answers (long : p.length = 96) : keyExchange p s = (jsOk, leBytes 96 (Config.ecdhPublic s.dev.nfree).toNat ++
      leBytes 96 (Config.ecdsaSign s.dev.nfree (p ++ leBytes 96 (Config.ecdhPublic s.dev.nfree).toNat)).toNat,
    s.modDev fun d => (d.setKey importSlot ⟨.loaded, 2, ((s.dev.keySlot importSlot).gen + 1) % 2 ^ 32,
      BitVec.ofNat 512 ((Config.ecdhDerive s.dev.nfree (BitVec.ofNat 768 (leNat p)) labelImport).toNat % 2 ^ 256)⟩).tick 1) := by
  rw [keyExchange, if_neg (by simp [long])]
  rfl

theorem keyImport_answers {ns : Ns} (long : p.length = 132) (found : s.dev.ns? (jf p 0 4) = some ns)
    (empty : (s.dev.keySlot (nsSlot (jf p 0 4))).state = .empty) :
    keyImport p s = match importKey (nsSlot (jf p 0 4)) (p.drop 4) s.dev with
      | .ok d => (jsOk, [], s.jDo fun _ => d)
      | .error r => (jsKeyRefused, layout 4 [(0, 1, r)], s) := by
  rw [keyImport, if_neg (by simp [long]), if_neg (by simp [found]), if_neg (by simp [empty])]
  rfl

theorem importKey_loads {slot : Nat} {blob : List Byte} {d : Dev} (empty : (d.keySlot slot).state = .empty)
    (import' : (d.keySlot importSlot).state = .loaded) :
    importKey slot blob d = match blobKey slot (d.keySlot importSlot).key blob with
      | .ok k => .ok (d.setKey slot k).takeNonce.2
      | .error r => .error r := by
  rw [importKey, if_neg (by simp [empty]), if_neg (by simp [import'])] <;> rfl

theorem importKey_unready {slot : Nat} {blob : List Byte} {d : Dev} (empty : (d.keySlot slot).state = .empty)
    (import' : (d.keySlot importSlot).state ≠ .loaded) : importKey slot blob d = .error 4 := by
  rw [importKey, if_neg (by simp [empty]), if_pos (by simpa using import')]

theorem keyPurgeNs_purges {ns : Ns} (long : p.length = 4) (found : s.dev.ns? (jf p 0 4) = some ns) :
    keyPurgeNs p s = (jsOk, [], s.jDo (purgeSlot (nsSlot (jf p 0 4)))) := by
  rw [keyPurgeNs, if_neg (by simp [long]), if_neg (by simp [found])]
  rfl

/-- A purged slot is not loaded, whether lanes still use it or not. -/
theorem purgeSlot_unloaded {slot : Nat} (d : Dev) (plain : slot ≠ rootSlot) : ((purgeSlot slot d).keySlot slot).state ≠ .loaded := by
  obtain ⟨-, free, used⟩ := purgeSlot_purges (d := d) plain
  by_cases lanes : ∃ n < 48, (d.lane n).busy.isSome = true ∧ (d.lane n).slot = slot
  · rw [used lanes]
    decide
  · rw [(free fun n small busy at' => lanes ⟨n, small, busy, at'⟩).1]
    decide

/-- KEY_SET on a device. -/
def keySetDev (p : List Byte) (d : Dev) : Dev :=
  let d := d.wrb (nsSlot (jf p 0 4)) Fd.CIPH_SLOT_AUTH_FLAG (jf p 4 1)
  if jf p 5 1 = 0 then d else d.modNs (jf p 0 4) fun x => { x with newMode := some (jf p 5 1) }

theorem keySet_answers {ns : Ns} (long : p.length = 8) (flag : jf p 4 1 ≤ 1) (mode : jf p 5 1 ≤ 2) (zero : jf p 6 2 = 0)
    (found : s.dev.ns? (jf p 0 4) = some ns) : keySet p s = (jsOk, [], s.jDo (keySetDev p)) := by
  rw [keySet, if_neg (by simp [long, jZero, zero]; omega), if_neg (by simp [found])]
  rfl

theorem keySetDev_sets {ns : Ns} {d : Dev} (flag : jf p 4 1 ≤ 1) (found : d.ns? (jf p 0 4) = some ns) :
    (keySetDev p d).rdb (nsSlot (jf p 0 4)) Fd.CIPH_SLOT_AUTH_FLAG = jf p 4 1 ∧
    (keySetDev p d).ns? (jf p 0 4) = some (if jf p 5 1 = 0 then ns else { ns with newMode := some (jf p 5 1) }) := by
  have written : (d.wrb (nsSlot (jf p 0 4)) Fd.CIPH_SLOT_AUTH_FLAG (jf p 4 1)).rdb (nsSlot (jf p 0 4)) Fd.CIPH_SLOT_AUTH_FLAG = jf p 4 1 :=
    (Dev.rdb_wrb_same _ _ _ (by decide) (by decide)).trans (Nat.mod_eq_of_lt (show jf p 4 1 < 2 by omega))
  have listed : (d.wrb (nsSlot (jf p 0 4)) Fd.CIPH_SLOT_AUTH_FLAG (jf p 4 1)).ns? (jf p 0 4) = some ns :=
    (ns?_of_zm (Dev.wrb_zm _ _ _ _) _).trans found
  unfold keySetDev
  dsimp only
  split
  · exact ⟨written, listed⟩
  · exact ⟨((Dev.modNs_keeps _ _ _).rdb _ _ (by rfl)).trans written, ns?_modNs_same _ listed⟩

theorem keyImport_absent (long : p.length = 132) (gone : s.dev.ns? (jf p 0 4) = none) : keyImport p s = (jsNotFound, [], s) := by
  rw [keyImport, if_neg (by simp [long]), if_pos (by simp [gone])]
  rfl

theorem keyPurgeNs_absent (long : p.length = 4) (gone : s.dev.ns? (jf p 0 4) = none) : keyPurgeNs p s = (jsNotFound, [], s) := by
  rw [keyPurgeNs, if_neg (by simp [long]), if_pos (by simp [gone])]
  rfl

end

/-- Settles O37: a request that is ready is answered with what its operation gives. -/
theorem jenamPlansAct : Obligations.JenamPlansAct := by
  refine ⟨fun _ s _ p ready long mask zero => ?_,
    fun _ s _ p sheet ready long mask flags zero target => ?_,
    fun _ _ _ p ready long mask some' flags zero => answers_of_row ready (hatchArmAll_withdraws long mask some' flags zero) rfl rfl,
    fun _ _ _ p ready long chan bank zero => answers_of_row ready (hatchRead_answers long chan bank zero) rfl rfl,
    fun _ s _ p ready long mask zero => answers_of_row ready (arbSet_answers long mask zero) rfl fun _ named => arbSet_sets s.dev named,
    fun _ s _ p ready long => ?_,
    fun _ s _ p ns ready long found small empty => ?_,
    fun _ s _ p ns ready long found small => answers_of_row ready (keyPurgeNs_purges long found) rfl
      ⟨(purgeSlot_purges (nsSlot_ne_root small)).1, purgeSlot_unloaded s.dev (nsSlot_ne_root small)⟩,
    fun _ s _ p ns ready long flag mode zero found => ?_,
    fun buf s b p gone i mem => ?_⟩
  · have gives := hatchWrite_answers (s := s) long mask zero
    split
    case isTrue locked => exact answers_of_row ready (gives.trans (if_pos locked)) rfl rfl
    case isFalse clear =>
      refine answers_of_row ready (gives.trans (if_neg clear)) rfl fun n => ?_
      have chan := chan_foldl (g := fun c => c.putBank c.standby (jEntries p) (BitVec.ofNat 32 (jf p 8 2)))
        (fun d n => writePlan_chan (jEntries p) _ n d) (fun d k n other => writePlan_other _ _ d other) (n := n) (jChannels_nodup p) s.dev
      rw [State.modDev_dev, chan]
      by_cases named : n ∈ jChannels p
      · rw [if_pos named, if_pos named]
        exact putBank_standby _ _ _
      · rw [if_neg named, if_neg named]
  · have gives := hatchArmAll_arms long mask flags zero target
    dsimp only at gives
    split
    case isTrue late => exact answers_of_row ready (gives.trans (if_pos (by simpa using late))) rfl rfl
    case isFalse early =>
      rw [if_neg (by simpa using early)] at gives
      split
      case isTrue barred => exact answers_of_row ready (gives.trans (if_pos barred)) rfl rfl
      case isFalse free =>
        rw [if_neg free] at gives
        split
        case isTrue ready' => exact answers_of_row ready (gives.trans (if_pos (armRefusals_isEmpty.2 ready'))) rfl rfl
        case isFalse refused => exact answers_of_row ready (gives.trans (if_neg fun none' => refused (armRefusals_isEmpty.1 none'))) rfl rfl
  · refine answers_of_row ready (keyExchange_answers long) rfl ?_
    generalize e : KeySlot.mk _ _ _ _ = k
    have loaded : ((s.modDev fun d => (d.setKey importSlot k).tick 1).dev).keySlot importSlot = k := keySlot_setKey k s.dev (by decide)
    rw [loaded, ← e]
    exact ⟨rfl, rfl, rfl, rfl⟩
  · have gives := keyImport_answers long found empty
    split
    case isTrue import' =>
      rw [importKey_loads empty import'] at gives
      split
      next k blob =>
        rw [blob] at gives
        exact answers_of_row ready gives rfl ((keySlot_of_slots (takeNonce_slots _) _).trans (keySlot_setKey k s.dev (nsSlot_ne_root small)))
      next r blob =>
        rw [blob] at gives
        exact answers_of_row ready gives rfl rfl
    case isFalse unready =>
      rw [importKey_unready empty unready] at gives
      exact answers_of_row ready gives rfl rfl
  · exact answers_of_row ready (keySet_answers long flag mode zero found) rfl (keySetDev_sets flag found)
  · rcases List.mem_cons.1 mem with rfl | mem
    · exact fun ready long => answers_of_row ready (keyImport_absent long gone) rfl rfl
    · obtain rfl := List.mem_singleton.1 mem
      exact fun ready long => answers_of_row ready (keyPurgeNs_absent long gone) rfl rfl

end Sys2Proof.Machine

/-! PROOFS. Jenam groups 0x06 to 0x09: health, power, diagnostics and cascade (R218, R220, R233, R235, R236, R246, R395, R399, R405,
Tables 8-2, 8-4, 8-10 and 14-8). -/

namespace Sys2Proof.Machine

section

variable {s : State} {p : List Byte}

/-! ### Health -/

theorem dieHealthRow_answers (long : p.length = 4) (some' : 0 < jf p 2 2) (fits : jf p 0 2 + jf p 2 2 ≤ 1536) :
    dieHealthRow p s = (jsOk, (List.range (jf p 2 2)).flatMap fun i => s.dev.dieRecord (jf p 0 2 + i), s) := by
  rw [dieHealthRow, if_neg (by simp [long]; omega)]
  rfl

theorem bbRecords_answers (long : p.length = 12) (some' : 0 < jf p 8 2) (few : jf p 8 2 ≤ 1364) (zero : jf p 10 2 = 0) :
    bbRecords p s = (jsOk, ((s.dev.med.recs.filter fun r => decide (jf p 0 8 ≤ r.seq)).take (jf p 8 2)).flatMap badRecBytes, s) := by
  rw [bbRecords, if_neg (by simp [long, jZero, zero]; omega)]
  rfl

theorem rowInfo_answers (long : p.length = 8) (group : jf p 0 1 < 96) (low : jf p 1 1 = 0) (some' : 0 < jf p 4 2)
    (fits : jf p 2 2 + jf p 4 2 ≤ 3600) (high : jf p 6 2 = 0) :
    rowInfo p s = (jsOk, (List.range (jf p 4 2)).flatMap fun i => s.dev.rowRecord (jf p 0 1) (jf p 2 2 + i), s) := by
  rw [rowInfo, if_neg (by simp [long, jZero, low, high, show q4Blocks = 3600 from rfl]; omega)]
  rfl

theorem threshGet_answers : threshGet [] s = (jsOk, (List.range 13).flatMap fun i => leBytes 4 (s.dev.thresh i), s) := rfl

theorem threshSet_answers {lo hi : Nat} (long : p.length = 8) (zero : jf p 1 3 = 0) (range : threshRange (jf p 0 1) = some (lo, hi)) :
    threshSet p s = if lo ≤ jf p 4 4 ∧ jf p 4 4 ≤ hi then
        (jsOk, [], s.jDo fun d => d.modMed fun m => { m with threshNext := mapInsert m.threshNext (jf p 0 1) (jf p 4 4) })
      else (jsBadParam, [], s) := by
  rw [threshSet, if_neg (by simp [long, jZero, zero]), range]
  dsimp only
  by_cases within : lo ≤ jf p 4 4 ∧ jf p 4 4 ≤ hi
  · rw [if_pos within, if_neg (by simp; omega)]
    rfl
  · rw [if_neg within, if_pos (by simp; omega)]
    rfl

theorem retireUnit_die (long : p.length = 4) (kind : jf p 0 1 = 0) (zero : jf p 1 1 = 0) (die : jf p 2 2 < 1536) :
    retireUnit p s = (jsOk, [], (retireDieAsked (jf p 2 2) s).jDo id) := by
  rw [retireUnit, if_neg (by simp [long, kind, jZero, zero]; omega), if_neg (by simp [kind]), if_pos kind]
  rfl

theorem retireUnit_chan (long : p.length = 4) (kind : jf p 0 1 = 1) (zero : jf p 1 1 = 0) :
    retireUnit p s = if 48 ≤ jf p 2 2 then (jsNotFound, [], s) else (jsOk, [], (retireChanAsked (jf p 2 2) s).jDo id) := by
  rw [retireUnit, if_neg (by simp [long, kind, jZero, zero]), if_neg (c := jf p 0 1 = 0) (by omega)]
  simp only [kind, decide_true, Bool.true_and, decide_eq_true_eq]
  rfl

/-- A die in service is retired, and its channel looks at its queues again. -/
theorem retireDieAsked_retires {die : Nat} (serves : (s.dev.die (die / 32) (die % 32)).st ≠ .retired) :
    ∃ d, retireDieAsked die s = afterChan (die / 32) { s with dev := d } ∧ (d.die (die / 32) (die % 32)).st = .retired := by
  refine ⟨dieRetired die causeAsked (retireDie (die / 32) (die % 32) s.dev), ?_, ?_⟩
  · unfold retireDieAsked
    dsimp only
    rw [if_neg (by simpa using serves)]
    rfl
  · rw [((dieRetired_blocks _ _ _) _).2.2, retireDie_st]

theorem retireChanAsked_retires {n : Nat} (serves : (s.dev.chan n).retired = false) :
    ∃ d, retireChanAsked n s = afterChan n { s with dev := d } ∧ (d.chan n).retired = true ∧ (d.chan n).pq = [] := by
  refine ⟨chanRetired n causeAsked (s.dev.liveTargets n) (retireChan n s.dev), ?_, ?_⟩
  · unfold retireChanAsked
    rw [if_neg (by simp [serves])]
    rfl
  · obtain ⟨retired, empty⟩ := retireChan_chan n s.dev
    obtain ⟨keptRetired, keptQueue, -⟩ := (chanRetired_blocks n causeAsked (s.dev.liveTargets n) (retireChan n s.dev)) n
    exact ⟨keptRetired.trans retired, keptQueue.trans empty⟩

/-! ### Power -/

theorem powerGet_answers : powerGet [] s = (jsOk, layout 16 [(0, 1, s.dev.pwr.ps), (1, 1, s.dev.pwr.op), (2, 1, s.dev.opCap),
    (3, 1, s.dev.pwr.level), (4, 4, s.dev.rd Fd.PWR_ENTRY_CNT_REFUSED), (8, 4, s.dev.rd Fd.PWR_ENTRY_CNT_ABORTED),
    (12, 2, s.dev.regGet Rg.PWR_REFUSER 0 0), (14, 2, s.dev.pwr.kelvin)], s) := rfl

theorem powerSet_answers (long : p.length = 4) (cap : jf p 0 1 ≤ 3) (hold : jf p 1 1 ≤ 1) (zero : jf p 2 2 = 0) :
    powerSet p s = (jsOk, [], s.modDev fun d => planOp ((d.wr Fd.PWR_OP_CTL_CAP (jf p 0 1)).wr Fd.PWR_CTL_HOLD (jf p 1 1))) := by
  rw [powerSet, if_neg (by simp [long, jZero, zero]; omega)]
  rfl

theorem powerSet_sets {cap hold : Nat} (d : Dev) (capFits : cap ≤ 3) (holdFits : hold ≤ 1) :
    (planOp ((d.wr Fd.PWR_OP_CTL_CAP cap).wr Fd.PWR_CTL_HOLD hold)).rd Fd.PWR_OP_CTL_CAP = cap ∧
    (planOp ((d.wr Fd.PWR_OP_CTL_CAP cap).wr Fd.PWR_CTL_HOLD hold)).rd Fd.PWR_CTL_HOLD = hold :=
  ⟨((planOp_keeps _).rd _ (by rfl)).trans ((Dev.rdx_wrx_reg (by decide)).trans
      ((Dev.rd_wr_same _ _ (by decide) (by decide)).trans (Nat.mod_eq_of_lt (show cap < 4 by omega)))),
    ((planOp_keeps _).rd _ (by rfl)).trans
      ((Dev.rd_wr_same _ _ (by decide) (by decide)).trans (Nat.mod_eq_of_lt (show hold < 2 by omega)))⟩

/-! ### Diagnostics and cascade -/

theorem regRead_answers (long : p.length = 12) (zero : jf p 10 2 = 0) (some' : 0 < jf p 8 2) (few : jf p 8 2 ≤ 1024)
    (inside : inControl (jf p 0 8) (jf p 8 2) = true) : regRead p s = (jsOk, (readDwords (jf p 0 8) (jf p 8 2) s.dev).1,
      { s with dev := { (readDwords (jf p 0 8) (jf p 8 2) s.dev).2 with bus := s.dev.bus } }) := by
  rw [regRead, if_neg (by simp [long, jZero, zero, inside]; omega)]
  rfl

theorem regWrite_writes (long : p.length = 12) (inside : inControl (jf p 0 8) 1 = true) :
    regWrite p s = (jsOk, [], writeControl 0 (jf p 0 8) (jf p 8 4) s) := by
  rw [regWrite, if_neg (by simp [long, inside])]
  rfl

theorem selftestGet_answers :
    selftestGet [] s = (jsOk, (List.range 68).flatMap fun i => leBytes 4 (s.dev.viewEcc i Rg.LDPC_ST_RES.addr 0), s) := rfl

theorem casTopology_answers : casTopology [] s = (jsOk, leBytes 1 s.dev.cascade ++ ((List.range 4).flatMap s.dev.topology) ++ [0, 0, 0],
    { s with dev := s.dev.tick 1 }) := rfl

end

/-- Settles O38: a request that is ready is answered with what its operation gives. -/
theorem jenamHealthAct : Obligations.JenamHealthAct := by
  refine ⟨fun _ _ _ p ready long some' fits => answers_of_row ready (dieHealthRow_answers long some' fits) rfl rfl,
    fun _ _ _ p ready long some' few zero => answers_of_row ready (bbRecords_answers long some' few zero) rfl rfl,
    fun _ _ _ p ready long group low some' fits high => answers_of_row ready (rowInfo_answers long group low some' fits high) rfl rfl,
    fun _ _ _ ready => answers_of_row ready threshGet_answers rfl rfl,
    fun _ s _ p lo hi ready long zero range => ?_,
    fun _ s _ p ready long kind zero die serves => ?_,
    fun _ s _ p ready long kind zero => ⟨fun out => answers_of_row ready ((retireUnit_chan long kind zero).trans (if_pos out)) rfl rfl,
      fun chan serves => ?_⟩,
    fun _ _ _ ready => answers_of_row ready powerGet_answers rfl rfl,
    fun _ s _ p ready long cap hold zero => answers_of_row ready (powerSet_answers long cap hold zero) rfl (powerSet_sets s.dev cap hold),
    fun _ _ _ p ready => answers_of_row (f := echo) ready rfl rfl rfl,
    fun _ _ _ p ready long zero some' few inside => answers_of_row ready (regRead_answers long zero some' few inside) rfl rfl,
    fun _ _ _ p ready long inside => answers_of_row ready (regWrite_writes long inside) rfl rfl,
    fun _ _ _ ready => answers_of_row ready selftestGet_answers rfl rfl,
    fun _ _ _ ready => answers_of_row ready casTopology_answers rfl rfl⟩
  · have gives := threshSet_answers (s := s) long zero range
    split
    case isTrue within => exact answers_of_row ready (gives.trans (if_pos within)) rfl ⟨mapFind_insert_same _ _ _, rfl⟩
    case isFalse out => exact answers_of_row ready (gives.trans (if_neg out)) rfl rfl
  · obtain ⟨d, asked, retired⟩ := retireDieAsked_retires serves
    exact answers_of_row ready (retireUnit_die long kind zero die) rfl ⟨d, congrArg (State.jDo · id) asked, retired⟩
  · obtain ⟨d, asked, retired⟩ := retireChanAsked_retires serves
    exact answers_of_row ready ((retireUnit_chan long kind zero).trans (if_neg (by omega))) rfl
      ⟨d, congrArg (State.jDo · id) asked, retired⟩

end Sys2Proof.Machine

/-! PROOFS. Jenam group 0x0A: firmware reports, the owner's certificate, and etchings that are staged, started and unloaded (R373, R376 to
R378, R400, Table 14-9). -/

namespace Sys2Proof.Machine

/-! ### Gravers and etching slots read back -/

theorem Dev.graver_modGraver_same (d : Dev) (g : Nat) (f : Graver → Graver) : (d.modGraver g f).graver g = f (d.graver g) :=
  mapGet_mod_same ..

theorem Dev.etch_modEtch_same (d : Dev) (e : Nat) (f : EtchSlot → EtchSlot) : (d.modEtch e f).etch e = f (d.etch e) := mapGet_mod_same ..

/-- A graver released changes memory and the graver. -/
theorem releaseGraver_dev (g : Nat) (s : State) : ∃ f, (releaseGraver g s).dev = s.dev.modGraver g f ∧
    ∀ v, (f v).st = .run ∧ (f v).machine = true := ⟨_, rfl, fun _ => ⟨rfl, rfl⟩⟩

/-! ### Etchings unloaded -/

/-- The state without the graver of an etching. -/
def etchReleased (e : Nat) (s : State) : State :=
  match (s.dev.etch e).graver with
  | some g => releaseGraver g s
  | none => s

/-- Unloading takes the etching's slot, measurement and image, from the state without its graver. -/
theorem unloadEtching_eq (e : Nat) (s : State) : unloadEtching e s = (etchReleased e s).modDev fun d =>
    (d.modGrv fun x => { x with etch := mapErase x.etch e, meas := mapErase x.meas (5 + e) }).modNvm fun n =>
      { n with etch := mapErase n.etch e } := rfl

theorem etchReleased_etch (e n : Nat) (s : State) :
    (etchReleased e s).dev.etch n = s.dev.etch n ∧ (etchReleased e s).dev.nvm = s.dev.nvm := by
  unfold etchReleased
  split
  next g _ =>
    obtain ⟨f, dev, -⟩ := releaseGraver_dev g s
    rw [dev]
    exact ⟨rfl, rfl⟩
  next => exact ⟨rfl, rfl⟩

/-- Nothing of an etching is loaded. -/
def EtchingGone (e : Nat) (s : State) : Prop := s.dev.etch e = EtchSlot.fresh ∧ mapFind s.dev.nvm.etch e = none

theorem unloadEtching_gone (e : Nat) (s : State) : EtchingGone e (unloadEtching e s) := by
  rw [unloadEtching_eq]
  exact ⟨mapGet_erase_same _ _ _, mapFind_erase_same _ _⟩

theorem unloadEtching_keeps_gone {e : Nat} (k : Nat) {s : State} (gone : EtchingGone e s) : EtchingGone e (unloadEtching k s) := by
  by_cases at' : e = k
  · exact at' ▸ unloadEtching_gone e s
  · obtain ⟨slot, image⟩ := gone
    obtain ⟨keptSlot, keptNvm⟩ := etchReleased_etch k e s
    rw [unloadEtching_eq]
    refine ⟨(mapGet_erase_other _ _ at').trans (keptSlot.trans slot), (mapFind_erase_other _ at').trans ?_⟩
    exact (congrArg (fun n : Nvm => mapFind n.etch e) keptNvm).trans image

theorem unloadEtching_meas (e : Nat) (s : State) : (unloadEtching e s).dev.meas (5 + e) = 0 := mapGet_erase_same _ _ _

theorem unloadEtching_graver {e g : Nat} {s : State} (held : (s.dev.etch e).graver = some g) :
    ((unloadEtching e s).dev.graver g).st = .run ∧ ((unloadEtching e s).dev.graver g).machine = true := by
  obtain ⟨f, dev, runs⟩ := releaseGraver_dev g s
  have graver : (unloadEtching e s).dev.graver g = f (s.dev.graver g) := by
    have released : etchReleased e s = releaseGraver g s := by rw [etchReleased, held]
    rw [unloadEtching_eq, released]
    exact (congrArg (Dev.graver · g) dev).trans (Dev.graver_modGraver_same _ g f)
  rw [graver]
  exact runs _

theorem unloadEtching_all {e : Nat} (s : State) (slot : e < 8) : EtchingGone e (forUpTo 8 unloadEtching s) := by
  unfold forUpTo
  exact foldl_establishes (P := EtchingGone e) (f := fun s i => unloadEtching i s) (fun t => unloadEtching_gone e t)
    (fun t k gone => unloadEtching_keeps_gone k gone) (List.mem_range.2 slot) s

section

variable {s : State} {p : List Byte}

/-! ### Firmware and the owner's certificate -/

theorem fwInfo_answers : fwInfo [] s = (jsOk, layout 16 ([(0, 1, s.dev.nvm.active), (1, 1, s.dev.nvm.pending), (2, 1, s.dev.nvm.svn),
    (3, 1, s.dev.nvm.revoked)] ++ [1, 2, 3].map fun k => (4 * k, 4, imgSvn (slotImages (s.dev.nvm.slotBytes k)).2.1)), s) := rfl

theorem ownerCertSet_answers (some' : 0 < p.length) (fits : p.length ≤ 16384) :
    ownerCertSet p s = if s.dev.nvm.cert.isSome then (jsState, [], s)
      else if Config.chainOk p then (jsOk, [], s.modDev fun d => d.modNvm fun n => { n with cert := some p }) else (jsSigInvalid, [], s) := by
  rw [ownerCertSet, if_neg (by simp only [Bool.or_eq_true, decide_eq_true_eq]; omega)]
  cases Config.chainOk p <;> rfl

/-! ### Etchings staged and loaded -/

theorem etchStage_answers (long : 8 ≤ p.length) (slot : jf p 0 1 ≤ 7) (zero : jf p 1 3 = 0) (fits : jf p 4 4 + (p.length - 8) ≤ 196864) :
    etchStage p s = if (s.dev.etch (jf p 0 1)).image = [] then
        (jsOk, [], s.modDev fun d => d.modGrv fun x =>
          { x with stage := (p.drop 8).zipIdx.foldl (fun m b => mapSet 0 m (stageKey (jf p 0 1) (jf p 4 4 + b.2)) b.1) x.stage })
      else (jsState, [], s) := by
  rw [etchStage, if_neg (by simp [jZero, zero, maxEtching]; omega)]
  by_cases empty : (s.dev.etch (jf p 0 1)).image = []
  · rw [if_pos empty, if_neg (by simp [empty])]
    rfl
  · rw [if_neg empty, if_pos (by simpa using empty)]
    rfl

/-- Bytes stored from one place on leave the places before it. -/
theorem mapGet_stored_before {k : Nat → Nat} (rises : ∀ i j, i < j → k i ≠ k j) {i : Nat} :
    ∀ (bs : List Byte) {n : Nat} (m : SMap Byte), i < n →
      mapGet 0 ((bs.zipIdx n).foldl (fun m b => mapSet 0 m (k b.2) b.1) m) (k i) = mapGet 0 m (k i)
  | [], _, _, _ => rfl
  | b :: bs, n, m, before => by
    rw [List.zipIdx_cons, List.foldl_cons, mapGet_stored_before rises bs _ (by omega)]
    exact mapGet_set_other _ _ _ _ (rises i n before)

/-- Bytes stored from one place on stand there. -/
theorem mapGet_stored {k : Nat → Nat} (rises : ∀ i j, i < j → k i ≠ k j) {v : Byte} :
    ∀ (bs : List Byte) {n i : Nat} (m : SMap Byte), bs[i]? = some v →
      mapGet 0 ((bs.zipIdx n).foldl (fun m b => mapSet 0 m (k b.2) b.1) m) (k (n + i)) = v
  | b :: bs, n, 0, m, at' => by
    rw [List.zipIdx_cons, List.foldl_cons, Nat.add_zero, mapGet_stored_before rises bs _ (by omega)]
    exact (mapGet_set_same _ _ _ _).trans (Option.some.inj at')
  | b :: bs, n, i + 1, m, at' => by
    rw [List.zipIdx_cons, List.foldl_cons, show n + (i + 1) = n + 1 + i by omega]
    exact mapGet_stored rises bs _ at'

theorem etchLoad_answers (long : p.length = 12) (slot : jf p 0 1 ≤ 7) (zero : jf p 1 3 = 0) (size : jf p 4 4 ≤ 196864) (some' : 0 < jf p 8 4)
    (most : jf p 8 4 ≤ 256) (empty : (s.dev.etch (jf p 0 1)).image = []) :
    etchLoad p s = if s.dev.nvm.etchingOk (s.dev.staged (jf p 0 1) (jf p 4 4)) then
        match s.dev.etchGraver with
        | some g => (jsOk, [], loadEtching (jf p 0 1) g (s.dev.staged (jf p 0 1) (jf p 4 4)) (jf p 8 4) s)
        | none => (jsNoGraver, [], s)
      else (jsSigInvalid, [], s) := by
  have small : ¬ maxEtching < jf p 4 4 := Nat.not_lt.2 size
  rw [etchLoad, if_neg (by simp [long, jZero, zero, small]; omega),
    if_neg (by simp [empty])]
  cases s.dev.nvm.etchingOk (s.dev.staged (jf p 0 1) (jf p 4 4)) <;> rfl

/-- The device of an etching accepted, before its graver starts. -/
def etchAccepted (e g : Nat) (bs : List Byte) (mib : Nat) (d : Dev) : Dev :=
  let d := extendMeas (5 + e) (Config.sha384 bs) (d.modNvm fun n => { n with etch := mapInsert n.etch e (bs, mib) })
  let d := d.modGrv fun x => { x with stage := x.stage.filter fun b => b.1 / 2 ^ 20 ≠ e }
  d.modEtch e fun _ => { EtchSlot.fresh with image := bs, window := etchWindow e mib, graver := some g }

theorem etchAccepted_etch (e g : Nat) (bs : List Byte) (mib : Nat) (d : Dev) :
    (etchAccepted e g bs mib d).etch e = { EtchSlot.fresh with image := bs, window := etchWindow e mib, graver := some g } :=
  Dev.etch_modEtch_same _ _ _

theorem etchAccepted_stored (e g : Nat) (bs : List Byte) (mib : Nat) (d : Dev) :
    mapFind (etchAccepted e g bs mib d).nvm.etch e = some (bs, mib) := mapFind_insert_same _ _ _

theorem etchAccepted_meas (e g : Nat) (bs : List Byte) (mib : Nat) (d : Dev) : (etchAccepted e g bs mib d).meas (5 + e) =
    Config.sha384 (leBytes 48 (d.meas (5 + e)).toNat ++ leBytes 48 (Config.sha384 bs).toNat) := mapGet_set_same _ _ _ _

/-- A graver that starts an etching leaves the slots, the measurements and the store. -/
theorem etchStart_starts (e g : Nat) (s : State) : ∃ f, (etchStart e g s).dev = s.dev.modGraver g f ∧
    ∀ v, (f v).st = .etch ∧ (f v).machine = false ∧ (f v).pc = BitVec.ofNat 64 (imgEntry (s.dev.etch e).image) :=
  ⟨_, rfl, fun _ => ⟨rfl, rfl, rfl⟩⟩

theorem loadEtching_loads (e g : Nat) (bs : List Byte) (mib : Nat) (s : State) :
    let t := loadEtching e g bs mib s
    (t.dev.etch e).image = bs ∧ (t.dev.etch e).graver = some g ∧ (t.dev.etch e).window = etchWindow e mib ∧
      mapFind t.dev.nvm.etch e = some (bs, mib) ∧ (t.dev.graver g).st = .etch ∧ (t.dev.graver g).machine = false ∧
      (t.dev.graver g).pc = BitVec.ofNat 64 (imgEntry bs) ∧
      t.dev.meas (5 + e) = Config.sha384 (leBytes 48 (s.dev.meas (5 + e)).toNat ++ leBytes 48 (Config.sha384 bs).toNat) := by
  intro t
  obtain ⟨f, dev, starts⟩ := etchStart_starts e g (s.modDev (etchAccepted e g bs mib))
  have started : t.dev = (etchAccepted e g bs mib s.dev).modGraver g f := dev
  have slot : t.dev.etch e = _ := (congrArg (Dev.etch · e) started).trans (etchAccepted_etch e g bs mib s.dev)
  have graver : t.dev.graver g = f _ := (congrArg (Dev.graver · g) started).trans (Dev.graver_modGraver_same _ g f)
  obtain ⟨st, machine, pc⟩ := starts ((etchAccepted e g bs mib s.dev).graver g)
  rw [State.modDev_dev, etchAccepted_etch] at pc
  exact ⟨congrArg EtchSlot.image slot, congrArg EtchSlot.graver slot, congrArg EtchSlot.window slot,
    (congrArg (fun d : Dev => mapFind d.nvm.etch e) started).trans (etchAccepted_stored e g bs mib s.dev),
    (congrArg Graver.st graver).trans st, (congrArg Graver.machine graver).trans machine, (congrArg Graver.pc graver).trans pc,
    (congrArg (fun d : Dev => d.meas (5 + e)) started).trans (etchAccepted_meas e g bs mib s.dev)⟩

theorem etchUnload_answers (long : p.length = 4) (slot : jf p 0 1 ≤ 7) (zero : jf p 1 3 = 0) :
    etchUnload p s = (jsOk, [], unloadEtching (jf p 0 1) s) := by
  rw [etchUnload, if_neg (by simp [long, jZero, zero]; omega)]
  rfl

theorem etchStatus_answers : etchStatus [] s = (jsOk, (List.range 8).flatMap s.dev.etchRecord, { s with dev := s.dev.tick 1 }) := rfl

end

/-- Settles O39: a request that is ready is answered with what its operation gives. -/
theorem jenamFirmwareAct : Obligations.JenamFirmwareAct := by
  refine ⟨fun _ _ _ ready => answers_of_row ready fwInfo_answers rfl rfl,
    fun _ s _ p ready some' fits => ?_,
    fun _ s _ ready => answers_of_row (f := ownerCertClear) ready rfl rfl ⟨rfl, fun e slot => unloadEtching_all s slot⟩,
    fun _ s _ p ready long slot zero fits => ?_,
    fun _ s _ p bs ready long slot zero size some' most empty staged => ?_,
    fun _ s _ p ready long slot zero => ?_,
    fun _ _ _ ready => answers_of_row ready etchStatus_answers rfl rfl⟩
  · have gives := ownerCertSet_answers (s := s) some' fits
    split
    case isTrue set => exact answers_of_row ready (gives.trans (if_pos set)) rfl rfl
    case isFalse free =>
      rw [if_neg free] at gives
      split
      case isTrue ok => exact answers_of_row ready (gives.trans (if_pos ok)) rfl rfl
      case isFalse bad => exact answers_of_row ready (gives.trans (if_neg bad)) rfl rfl
  · have gives := etchStage_answers (s := s) long slot zero fits
    split
    case isTrue empty =>
      exact answers_of_row ready (gives.trans (if_pos empty)) rfl fun i v at' => by
        have stored := mapGet_stored (k := fun i => stageKey (jf p 0 1) (jf p 4 4 + i)) (n := 0)
          (fun i j less => by unfold stageKey; omega) (p.drop 8) s.dev.grv.stage at'
        rwa [Nat.zero_add] at stored
    case isFalse loaded => exact answers_of_row ready (gives.trans (if_neg loaded)) rfl rfl
  · have gives := etchLoad_answers long slot zero size some' most empty
    rw [staged] at gives
    split
    case isTrue ok =>
      rw [if_pos ok] at gives
      split
      next none' =>
        rw [none'] at gives
        exact answers_of_row ready gives rfl rfl
      next g found =>
        rw [found] at gives
        exact answers_of_row ready gives rfl (loadEtching_loads _ _ _ _ _)
    case isFalse bad => exact answers_of_row ready (gives.trans (if_neg bad)) rfl rfl
  · obtain ⟨slot', image⟩ := unloadEtching_gone (jf p 0 1) s
    exact answers_of_row ready (etchUnload_answers long slot zero) rfl
      ⟨slot', image, unloadEtching_meas _ _, fun g held => unloadEtching_graver held⟩

end Sys2Proof.Machine

/-! PROOFS. Jenam's transports: Send, Receive, packets and replies (R382 to R389, R401). -/

namespace Sys2Proof.Machine

/-! ### Sends that wait for a buffer -/

theorem forUpTo_const_succ {σ : Type} (f : σ → σ) (n : Nat) (x : σ) : forUpTo (n + 1) (fun _ => f) x = forUpTo n (fun _ => f) (f x) := by
  unfold forUpTo
  rw [List.range_succ_eq_map, List.foldl_cons, List.foldl_map]

theorem forUpTo_const_fixed {σ : Type} {f : σ → σ} {x : σ} (fixed : f x = x) (n : Nat) : forUpTo n (fun _ => f) x = x :=
  forUpTo_keeps (P := fun y => y = x) rfl fun _ y same => same ▸ fixed

theorem startSends_unbuffered {d : Dev} (full : d.freeBuf = none) : startSends d = d := by
  refine forUpTo_const_fixed (f := startSend) ?_ 32
  unfold startSend
  rw [full]
  cases d.jnm.sends <;> rfl

theorem startSend_idle {d : Dev} (idle : d.jnm.sends = []) : startSend d = d := by
  unfold startSend
  rw [idle]

/-- The device once the one Send that waits has a buffer. -/
def sendBuffered (k b : Nat) (x : Slot) (d : Dev) : Dev :=
  let d := d.modJnm fun j => { j with
    sends := []
    bufs := j.bufs ++ [{ buf := b, path := if x.fn = 0 then 0 else 1, slot := some k, eid := 0, tag := 0, packet := [], order := 0, phase := .moving }] }
  { d with out := .hostRead x.fn k :: d.out }

/-- The one Send that waits takes the free buffer. -/
theorem startSends_single {k b : Nat} {x : Slot} {d : Dev} (waits : d.jnm.sends = [k]) (free : d.freeBuf = some b) (held : d.slot? k = some x) :
    startSends d = sendBuffered k b x d := by
  have first : startSend d = sendBuffered k b x d := by
    unfold startSend
    rw [waits, free]
    dsimp only
    rw [held, sendBuffered]
  rw [startSends, forUpTo_const_succ, first]
  exact forUpTo_const_fixed (startSend_idle rfl) 31

section

variable {k : Nat} {x : Slot} {s : State} {d : Dev}

/-! ### Jenam Send -/

/-- The device with the command of slot `k` asleep among the Sends that wait. -/
def sendWaiting (k : Nat) (d : Dev) : Dev :=
  (d.modSlot k fun y => { y with phase := .asleep }).modJnm fun j => { j with sends := j.sends ++ [k] }

theorem jenamSend_invalid (size : x.sqe.cdw10.toNat < 32 ∨ 65536 < x.sqe.cdw10.toNat ∨ x.sqe.cdw10.toNat % 4 ≠ 0) :
    jenamSend k x d = finish k stInvalidField d := by
  rw [jenamSend, if_pos (by simpa [or_assoc] using size)]

theorem jenamSend_takes (least : 32 ≤ x.sqe.cdw10.toNat) (most : x.sqe.cdw10.toNat ≤ 65536) (dwords : x.sqe.cdw10.toNat % 4 = 0) :
    jenamSend k x d = startSends (sendWaiting k d) := by
  rw [jenamSend, if_neg (by simp [dwords]; omega)]
  rfl

theorem sendWaiting_slot (held : d.slot? k = some x) : (sendWaiting k d).slot? k = some { x with phase := .asleep } :=
  modSlot_slot _ held

theorem sendWaiting_jnm (k : Nat) (d : Dev) : (sendWaiting k d).jnm = { d.jnm with sends := d.jnm.sends ++ [k] } := by
  rw [sendWaiting, Dev.modJnm, Dev.modSlot_jnm]

theorem sendWaiting_out (k : Nat) (d : Dev) : (sendWaiting k d).out = d.out := Dev.modSlot_out ..

theorem sendWaiting_freeBuf (k : Nat) (d : Dev) : (sendWaiting k d).freeBuf = d.freeBuf := by
  have regs : (sendWaiting k d).regs = d.regs := Dev.modSlot_regs ..
  unfold Dev.freeBuf Dev.is Dev.rd Dev.rdx Dev.regGet
  rw [regs, sendWaiting_jnm]

theorem jenamSend_waits (least : 32 ≤ x.sqe.cdw10.toNat) (most : x.sqe.cdw10.toNat ≤ 65536) (dwords : x.sqe.cdw10.toNat % 4 = 0)
    (held : d.slot? k = some x) (full : d.freeBuf = none) : (jenamSend k x d).slot? k = some { x with phase := .asleep } ∧
      (jenamSend k x d).jnm = { d.jnm with sends := d.jnm.sends ++ [k] } := by
  rw [jenamSend_takes least most dwords, startSends_unbuffered ((sendWaiting_freeBuf k d).trans full)]
  exact ⟨sendWaiting_slot held, sendWaiting_jnm k d⟩

theorem jenamSend_buffers {b : Nat} (least : 32 ≤ x.sqe.cdw10.toNat) (most : x.sqe.cdw10.toNat ≤ 65536) (dwords : x.sqe.cdw10.toNat % 4 = 0)
    (held : d.slot? k = some x) (free : d.freeBuf = some b) (idle : d.jnm.sends = []) :
    jenamSend k x d = sendBuffered k b { x with phase := .asleep } (sendWaiting k d) := by
  rw [jenamSend_takes least most dwords]
  exact startSends_single (by rw [sendWaiting_jnm, idle]; rfl) ((sendWaiting_freeBuf k d).trans free) (sendWaiting_slot held)

theorem sendBuffered_jnm {b : Nat} (idle : d.jnm.sends = []) : (sendBuffered k b { x with phase := .asleep } (sendWaiting k d)).jnm =
    { d.jnm with bufs := d.jnm.bufs ++
      [{ buf := b, path := if x.fn = 0 then 0 else 1, slot := some k, eid := 0, tag := 0, packet := [], order := 0, phase := .moving }] } := by
  rw [sendBuffered, Dev.modJnm, sendWaiting_jnm, ← idle]

/-! ### Jenam Receive -/

/-- A request of this origin and number stands in a buffer with its reply not yet sent. -/
def replyPending (o seq : Nat) (d : Dev) : Prop :=
  ∃ b ∈ d.jnm.bufs, b.phase ∈ [JPhase.accepted, .forwarded, .answered] ∧ jOrigin b.packet = o ∧ jSeq b.packet = seq

theorem jenamReceive_eq (k : Nat) (x : Slot) (d : Dev) : (replyPending (bits x.sqe.cdw11.toNat 15 0) x.sqe.cdw10.toNat d →
      jenamReceive k x d = (d.modSlot k fun y => { y with phase := .asleep }).modJnm fun j =>
        { j with receives := j.receives ++ [(k, bits x.sqe.cdw11.toNat 15 0, x.sqe.cdw10.toNat)] }) ∧
    (¬ replyPending (bits x.sqe.cdw11.toNat 15 0) x.sqe.cdw10.toNat d →
      jenamReceive k x d = answerReceive k (bits x.sqe.cdw11.toNat 15 0) x.sqe.cdw10.toNat d) := by
  have pending : (d.jnm.bufs.any fun b => (b.phase == .accepted || b.phase == .forwarded || b.phase == .answered) &&
      decide (jOrigin b.packet = bits x.sqe.cdw11.toNat 15 0) && decide (jSeq b.packet = x.sqe.cdw10.toNat)) = true ↔
      replyPending (bits x.sqe.cdw11.toNat 15 0) x.sqe.cdw10.toNat d := by
    simp [replyPending, and_assoc, or_assoc]
  exact ⟨fun open' => if_pos (pending.2 open'), fun closed => if_neg fun open' => closed (pending.1 open')⟩

/-- The reply cached for a sequence number of an origin. -/
def cachedReply (o seq : Nat) (d : Dev) : Option Cached := (d.origin? o).bind fun r => r.cache.find? fun c => decide (c.seq = seq)

theorem answerReceive_found {o seq : Nat} {c : Cached} (held : d.slot? k = some x) (found : cachedReply o seq d = some c) :
    answerReceive k o seq d =
      finish k (successWith c.reply.length) (d.send (.hostBytes x.fn x.sqe.cid.toNat (c.reply.take x.sqe.cdw12.toNat))) := by
  unfold answerReceive
  unfold cachedReply at found
  rw [held, found]

theorem answerReceive_unknown {o seq : Nat} (held : d.slot? k = some x) (unknown : cachedReply o seq d = none) :
    answerReceive k o seq d = finish k (stVendor 0xC7) d := by
  unfold answerReceive
  unfold cachedReply at unknown
  rw [held, unknown]

/-! ### Packets -/

/-- A packet with no buffer for it is dropped and counted. -/
theorem packetBy_drops {path eid tag : Nat} {packet : List Byte} (full : s.dev.freeBuf = none) :
    packetBy path eid tag packet s = s.modDev fun d => (d.add Fd.JNM_CNT2_DROPPED 1).wr Fd.JNM_EVT_DROP 1 := by
  rw [packetBy, full]

theorem drop_counts (d : Dev) : ((d.add Fd.JNM_CNT2_DROPPED 1).wr Fd.JNM_EVT_DROP 1).rd Fd.JNM_EVT_DROP = 1 ∧
    ((d.add Fd.JNM_CNT2_DROPPED 1).wr Fd.JNM_EVT_DROP 1).rd Fd.JNM_CNT2_DROPPED = satAdd 0xFF (d.rd Fd.JNM_CNT2_DROPPED) 1 ∧
    ((d.add Fd.JNM_CNT2_DROPPED 1).wr Fd.JNM_EVT_DROP 1).jnm = d.jnm :=
  ⟨Dev.rd_wr_same _ _ (by decide) (by decide),
    (Dev.rdx_wrx_reg (by decide)).trans ((Dev.rd_wr_same _ _ (by decide) (by decide)).trans
      (Nat.mod_eq_of_lt (show satAdd 0xFF _ 1 < 256 from Nat.lt_succ_of_le (Nat.min_le_left _ _)))),
    (Dev.wr_jnm _ _ _).trans (Dev.wr_jnm _ _ _)⟩

/-! ### Replies -/

theorem jenamTx_sends {v : Nat} {b : JBuf} (found : s.dev.jBuf (bits v 28 24) = some b) (ready : b.phase = .accepted ∨ b.phase = .answered) :
    jenamTx v s = settleJenam (s.modDev (sendReply b (s.readBytes (bits v 16 0) (s.dev.jBufAddr b.buf)))) := by
  unfold jenamTx
  rw [found]
  dsimp only
  rw [if_pos (by rcases ready with h | h <;> rw [h] <;> rfl)]

theorem jenamTx_unknown {v : Nat} (unknown : s.dev.jBuf (bits v 28 24) = none) : jenamTx v s = s := by
  unfold jenamTx
  rw [unknown]

/-- A write of JNM.TX with its reserved bits clear acts alone. -/
theorem jenamReplySend_plain {v : Word} (high : bits v.toNat 31 29 = 0) (low : bits v.toNat 23 17 = 0) :
    exec (.jenamReplySend v) s = .next (jenamTx v.toNat s) :=
  congrArg Host.Outcome.next (orRsvWide_plain (by simp [jenamTxRsv, high, low]))

end

/-- Settles O41: each transport, by whether a buffer or a reply is there. -/
theorem jenamTransportsAct : Obligations.JenamTransportsAct := by
  refine ⟨fun k _ x taken size => ?_, fun k s x taken least most dwords full => ?_, fun k s x b taken least most dwords free idle => ?_,
    fun k s x o taken origin open' => ?_, fun k s x o taken origin closed => ?_, fun k s x b packet buffer held size => ?_,
    fun i3c eid tag packet s bound fits => ?_, fun v s b high low found ready => ?_, fun v s high low unknown => ?_⟩
  · refine givesDev_onSlot taken rfl ?_
    rw [jenamSend_invalid size]
    exact ⟨taken.completes rfl _, Dev.finish_jnm ..⟩
  · exact givesDev_onSlot taken rfl (jenamSend_waits least most dwords taken.1 full)
  · refine givesDev_onSlot taken rfl ?_
    rw [jenamSend_buffers least most dwords taken.1 free idle]
    exact ⟨sendWaiting_slot taken.1, congrArg (Out.hostRead x.fn k :: ·) (sendWaiting_out _ _), sendBuffered_jnm idle⟩
  · subst origin
    refine givesDev_onSlot taken rfl ?_
    rw [(jenamReceive_eq _ _ _).1 open']
    exact ⟨modSlot_slot _ taken.1, by rw [Dev.modJnm, Dev.modSlot_jnm]⟩
  · subst origin
    refine givesDev_onSlot taken rfl ?_
    rw [(jenamReceive_eq _ _ _).2 fun ⟨b, mem, phase, from', seq⟩ => closed b mem phase from' seq]
    split
    next c found =>
      rw [answerReceive_found taken.1 found]
      exact ⟨taken.completes (send_slots _ _) _, fun loud => (Dev.finish_out ..).trans (send_out loud)⟩
    next unknown =>
      rw [answerReceive_unknown taken.1 unknown]
      exact taken.completes rfl _
  · change execJenamPacketComplete (.send k) packet s = _
    unfold execJenamPacketComplete
    dsimp only
    rw [buffer, held]
    exact if_pos size
  · refine ⟨packetBy (if i3c then 3 else 2) eid.toNat tag.toNat packet s, if_pos (by simp [bound, fits]), ?_⟩
    split
    next b free => rw [packetBy, free]
    next full =>
      rw [packetBy_drops full]
      exact drop_counts s.dev
  · rw [jenamReplySend_plain high low, jenamTx_sends found ready]
  · rw [jenamReplySend_plain high low, jenamTx_unknown unknown]

end Sys2Proof.Machine

/-! PROOFS. MCTP control messages and NVMe-MI commands are answered on their binding and in band (R386, R387, Tables 0-2 and 14-2). -/

namespace Sys2Proof.Machine

/-! ### Messages on a binding -/

/-- A message on a running binding is answered to its sender. -/
theorem answers_of_binding {c : Instr} {i3c : Bool} {src tag kind : Nat} {f : Dev → List Byte × Dev} {s : State} {body : List Byte} {e : Dev}
    {Q : Dev → Prop} (bound : s.dev.binding i3c = true) (gives : f (wakeIdle s.dev) = (body, e))
    (runs : exec c s = onBinding i3c src tag kind f s) (holds : Q { e with out := .mctp i3c src tag kind body :: e.out }) :
    ∃ d, exec c s = .next { s with dev := d } ∧ Q d := by
  have sent := congrArg (fun p : List Byte × Dev => Host.Outcome.next (σ := State) (φ := Fault) (ρ := Refusal)
    ({ s with dev := p.2.send (.mctp i3c src tag kind p.1) } : State)) gives
  exact ⟨_, runs.trans ((if_pos bound).trans sent), holds⟩

/-- An NVMe-MI command on a running binding is answered with its status, management response and data. -/
theorem answers_of_mi {c : Instr} {i3c : Bool} {src tag : Byte} {f : Dev → MiReply × Dev} {s : State} {r : MiReply} {e : Dev}
    {Q : Dev → Prop} (bound : s.dev.binding i3c = true) (gives : f (wakeIdle s.dev) = (r, e))
    (runs : exec c s = miRow i3c src tag f s) (holds : Q { e with out := .mctp i3c src.toNat tag.toNat 4 r.body :: e.out }) :
    ∃ d, exec c s = .next { s with dev := d } ∧ Q d :=
  answers_of_binding bound (f := fun d => let (r, d) := f d; (r.body, d)) (by dsimp only; rw [gives]) runs holds

section

variable {d : Dev}

/-! ### MCTP control -/

theorem mcSetEid_set {op eid : Nat} (ok : bits op 1 0 ≤ 1 ∧ 8 ≤ eid ∧ eid ≠ 0xFF) :
    mcSetEid op eid d = ([0x00, 0, BitVec.ofNat 8 eid, 0], d.wr Fd.JNM_MCTP_EID eid) := by
  obtain ⟨set, assignable, unicast⟩ := ok
  exact if_pos (by simp [set, assignable, unicast])

theorem mcSetEid_bad {op eid : Nat} (bad : ¬ (bits op 1 0 ≤ 1 ∧ 8 ≤ eid ∧ eid ≠ 0xFF)) : mcSetEid op eid d = ([0x02], d) :=
  if_neg (by simpa [and_assoc] using bad)

theorem mcVersions_eq (kind : Nat) : mcVersions kind d = (if kind = 0xFF then [0x00, 1, 0xF1, 0xF3, 0xF0, 0x00]
    else if kind ∈ [0x00, 0x04, 0x7E] then 0x00 :: Config.encode 0x1404 [kind] else [0x80], d) := by
  unfold mcVersions
  split
  · rfl
  · split
    case isTrue known => exact congrArg (·, d) (if_pos (show kind ∈ [0x00, 0x04, 0x7E] from known)).symm
    case isFalse unknown => exact congrArg (·, d) (if_neg (show kind ∉ [0x00, 0x04, 0x7E] from unknown)).symm

theorem mcVendor_eq (sel : Nat) : mcVendor sel d = (if sel = 0 then
    [0x00, 0xFF, 0, 0x56, 0x58, Config.freeByte 0x1406 0 0, Config.freeByte 0x1406 1 0] else [0x02], d) := by
  unfold mcVendor
  split <;> rfl

/-! ### NVMe-MI commands -/

theorem miDataStructure_eq (dw0 : Nat) : miDataStructure dw0 d =
    (if bits dw0 31 24 ≤ 4 then miOk 0 (Config.encode 0x0400 [dw0, b2n d.dual, d.cascade, 2, 0]) else miBadParam, d) := by
  unfold miDataStructure
  split <;> rfl

/-- The device after a health poll. -/
def pollLeft (path dw1 : Nat) (d : Dev) : Dev :=
  if bit dw1 31 then d.modJnm fun j => { j with miChange := mapSet 0 j.miChange path 0xFFFFFFFF } else d

theorem miPoll_eq (op path dw0 dw1 : Nat) (d : Dev) : miPoll op path dw0 dw1 d =
    (miOk 0 (Config.encode (0x0400 + op) ([dw0, dw1] ++ d.miHealth path)), pollLeft path dw1 d) := rfl

theorem pollLeft_clears {path dw1 : Nat} (d : Dev) (clears : bit dw1 31 = true) : mapGet 0 (pollLeft path dw1 d).jnm.miChange path = 0xFFFFFFFF := by
  rw [pollLeft, if_pos clears]
  change mapGet 0 (mapSet 0 d.jnm.miChange path 0xFFFFFFFF) path = 0xFFFFFFFF
  exact mapGet_set_same _ _ _ _

theorem pollLeft_keeps {path dw1 : Nat} (d : Dev) (keeps : bit dw1 31 = false) : pollLeft path dw1 d = d :=
  if_neg (by simp [keeps])

theorem pollLeft_host (path dw1 : Nat) (d : Dev) : (pollLeft path dw1 d).host = d.host ∧ (pollLeft path dw1 d).out = d.out := by
  unfold pollLeft
  split <;> exact ⟨rfl, rfl⟩

theorem miConfigGet_eq (dw0 : Nat) : miConfigGet dw0 d = (if bits dw0 7 0 = 1 then miOk (mapGet 1 d.jnm.miFreq 0) []
    else if bits dw0 7 0 = 2 then miOk 0 [] else if bits dw0 7 0 = 3 then miOk 64 [] else miBadParam, d) := by
  unfold miConfigGet
  split
  next one => rw [if_pos one]
  next two => rw [two]; rfl
  next three => rw [three]; rfl
  next one two three => rw [if_neg one, if_neg two, if_neg three]

theorem miConfigSet_frequency {path dw0 dw1 : Nat} (item : bits dw0 7 0 = 1) (least : 1 ≤ bits dw0 11 8) (most : bits dw0 11 8 ≤ 3) :
    miConfigSet path dw0 dw1 d = (miOk 0 [], d.modJnm fun j => { j with miFreq := mapSet 1 j.miFreq 0 (bits dw0 11 8) }) := by
  unfold miConfigSet
  rw [item]
  exact if_pos (by simp [least, most])

theorem miConfigSet_change {path dw0 dw1 : Nat} (item : bits dw0 7 0 = 2) :
    miConfigSet path dw0 dw1 d = (miOk 0 [], d.modJnm fun j => { j with miChange := mapSet 0 j.miChange path dw1 }) := by
  unfold miConfigSet
  rw [item]
  rfl

theorem miConfigSet_unit {path dw0 dw1 : Nat} (item : bits dw0 7 0 = 3) :
    miConfigSet path dw0 dw1 d = (if bits dw1 15 0 = 64 then miOk 0 [] else miBadParam, d) := by
  unfold miConfigSet
  rw [item]
  change (if bits dw1 15 0 = 64 then (miOk 0 [], d) else (miBadParam, d)) = _
  split <;> rfl

theorem miConfigSet_unknown {path dw0 dw1 : Nat} (item : 4 ≤ bits dw0 7 0) : miConfigSet path dw0 dw1 d = (miBadParam, d) := by
  unfold miConfigSet
  split
  next one => omega
  next two => omega
  next three => omega
  next => rfl

/-! ### In band -/

/-- The command of an NVMe-MI Receive. -/
def miCommand (x : Slot) (d : Dev) : MiReply × Dev :=
  match Sqe.miOp x.sqe with
  | 0 => miDataStructure x.sqe.cdw12.toNat d
  | 1 => miPoll 1 (x.fn / 1025) x.sqe.cdw12.toNat x.sqe.cdw13.toNat d
  | 2 => miPoll 2 (x.fn / 1025) x.sqe.cdw12.toNat x.sqe.cdw13.toNat d
  | 4 => miConfigGet x.sqe.cdw12.toNat d
  | 5 => miVpd x.sqe.cdw12.toNat x.sqe.cdw13.toNat d
  | _ => (miBadOpcode, d)

/-- A Receive completes with its command's status and management response, once its data, where there is any, is sent. -/
theorem miReceive_eq {x : Slot} {r : MiReply} {e : Dev} (k : Nat) (gives : miCommand x d = (r, e)) : miReceive k x d =
    finish k (successWith (r.status + 256 * r.mgmt)) (if r.data.isEmpty then e else e.send (.hostBytes x.fn x.sqe.cid.toNat r.data)) := by
  have same : miReceive k x d = miFinish k (miCommand x d).1 (if (miCommand x d).1.data.isEmpty then (miCommand x d).2
      else (miCommand x d).2.send (.hostBytes x.fn x.sqe.cid.toNat (miCommand x d).1.data)) := by
    unfold miReceive miCommand
    rfl
  rw [same, gives]
  rfl

theorem miReceive_ok {x : Slot} {data : List Byte} {e : Dev} (k : Nat) (gives : miCommand x d = (miOk 0 data, e)) :
    miReceive k x d = finish k success (if data.isEmpty then e else e.send (.hostBytes x.fn x.sqe.cid.toNat data)) :=
  miReceive_eq k gives

theorem miCommand_poll {x : Slot} {op : Nat} (polls : op ∈ [1, 2]) (asked : bits x.sqe.cdw11.toNat 7 0 = op) :
    miCommand x d = miPoll op (x.fn / 1025) x.sqe.cdw12.toNat x.sqe.cdw13.toNat d := by
  have named : Sqe.miOp x.sqe = op := asked
  unfold miCommand
  rcases List.mem_pair.1 polls with rfl | rfl <;> rw [named] <;> rfl

theorem miCommand_unit {x : Slot} (asked : bits x.sqe.cdw11.toNat 7 0 = 4) (item : bits x.sqe.cdw12.toNat 7 0 = 3) :
    miCommand x d = (miOk 64 [], d) := by
  have named : Sqe.miOp x.sqe = 4 := asked
  unfold miCommand
  rw [named]
  change miConfigGet x.sqe.cdw12.toNat d = _
  rw [miConfigGet_eq, item]
  rfl

theorem miCommand_unknown {x : Slot} (asked : 6 ≤ bits x.sqe.cdw11.toNat 7 0 ∨ bits x.sqe.cdw11.toNat 7 0 = 3) :
    miCommand x d = (miBadOpcode, d) := by
  have named : 6 ≤ Sqe.miOp x.sqe ∨ Sqe.miOp x.sqe = 3 := asked
  unfold miCommand
  split
  next op => omega
  next op => omega
  next op => omega
  next op => omega
  next op => omega
  next => rfl

theorem miSend_unknown {x : Slot} (k : Nat) (asked : bits x.sqe.cdw11.toNat 7 0 ≠ 3) : miSend k x d = finish k (successWith 3) d := by
  unfold miSend
  rw [if_neg (show Sqe.miOp x.sqe ≠ 3 from asked)]
  rfl

theorem miSend_change {x : Slot} (k : Nat) (asked : bits x.sqe.cdw11.toNat 7 0 = 3) (item : bits x.sqe.cdw12.toNat 7 0 = 2) :
    miSend k x d = finish k success (d.modJnm fun j => { j with miChange := mapSet 0 j.miChange (x.fn / 1025) x.sqe.cdw13.toNat }) := by
  unfold miSend
  rw [if_pos (show Sqe.miOp x.sqe = 3 from asked), miConfigSet_change item]
  rfl

end

/-- A poll completes, and its data goes to the host. -/
theorem nvmeMiReceive_polls {k op : Nat} {x : Slot} {s : State} (taken : Taken s.dev k true 0x1E x) (loud : s.dev.mute x.fn = false)
    (polls : op ∈ [1, 2]) (asked : bits x.sqe.cdw11.toNat 7 0 = op) : Completes (miReceive k x s.dev) k success ∧
      (Config.encode (0x0400 + op) ([x.sqe.cdw12.toNat, x.sqe.cdw13.toNat] ++ s.dev.miHealth (x.fn / 1025)) ≠ [] →
        (miReceive k x s.dev).out = .hostBytes x.fn x.sqe.cid.toNat
          (Config.encode (0x0400 + op) ([x.sqe.cdw12.toNat, x.sqe.cdw13.toNat] ++ s.dev.miHealth (x.fn / 1025))) :: s.dev.out) := by
  obtain ⟨host, out⟩ := pollLeft_host (x.fn / 1025) x.sqe.cdw13.toNat s.dev
  rw [miReceive_ok k ((miCommand_poll polls asked).trans (miPoll_eq ..))]
  generalize Config.encode _ _ = data
  generalize pollLeft (x.fn / 1025) x.sqe.cdw13.toNat s.dev = e at host out
  refine ⟨taken.completes (c := success) ?_, fun some' => ?_⟩
  · split
    · rw [host]
    · rw [send_slots, host]
  · rw [Dev.finish_out, if_neg (by simpa using some'), send_out ((mute_congr host x.fn).trans loud), out]

/-- Settles O43: each message, by what its command answers. -/
theorem sidebandAnswers : Obligations.SidebandAnswers := by
  refine ⟨fun i3c src tag op eid s bound => ?_, fun i3c src tag s bound => ⟨?_, ?_⟩, fun i3c src tag kind s bound => ?_,
    fun i3c src tag sel s bound => ?_, fun i3c src tag dw0 dw1 s bound => ?_, fun i3c src tag dw0 dw1 s bound p mem => ?_,
    fun i3c src tag dw0 dw1 s bound => ?_, fun i3c src tag dw0 dw1 s bound => ?_, fun i3c src tag dw0 dw1 s bound => ?_,
    fun i3c src tag op eid kind sel dw0 dw1 s free c mem => ?_, fun k data s x taken => ?_, fun k s x taken loud => ?_⟩
  · split
    case isTrue ok =>
      exact answers_of_binding bound (mcSetEid_set ok) rfl ⟨congrArg _ (Dev.wr_out _ _ _),
        (Dev.rd_wr_same _ _ (by decide) (by decide)).trans (Nat.mod_eq_of_lt (show eid.toNat < 256 from eid.isLt))⟩
    case isFalse bad => exact answers_of_binding bound (mcSetEid_bad bad) rfl ⟨rfl, rfl⟩
  · exact answers_of_binding (f := mcGetEid) bound rfl rfl rfl
  · exact answers_of_binding (f := mcTypes) bound rfl rfl rfl
  · exact answers_of_binding bound (mcVersions_eq _) rfl rfl
  · exact answers_of_binding bound (mcVendor_eq _) rfl ⟨_, _, rfl⟩
  · exact answers_of_mi bound (miDataStructure_eq _) rfl (by rw [apply_ite MiReply.body]; rfl)
  · have row : exec p.2 s = miRow i3c src tag (miPoll p.1 (miPath i3c) dw0.toNat dw1.toNat) s := by
      rcases List.mem_pair.1 mem with rfl | rfl <;> rfl
    obtain ⟨-, out⟩ := pollLeft_host (miPath i3c) dw1.toNat (wakeIdle s.dev)
    exact answers_of_mi bound (miPoll_eq ..) row ⟨congrArg _ out, fun clears => pollLeft_clears _ clears,
      fun keeps => show (pollLeft (miPath i3c) dw1.toNat (wakeIdle s.dev)).jnm = s.dev.jnm by rw [pollLeft_keeps _ keeps]; rfl⟩
  · exact answers_of_mi bound (miConfigGet_eq _) rfl (by simp only [apply_ite MiReply.body]; rfl)
  · refine answers_of_mi bound (f := miConfigSet (miPath i3c) dw0.toNat dw1.toNat) (r := (miConfigSet (miPath i3c) dw0.toNat dw1.toNat (wakeIdle s.dev)).1)
      (e := (miConfigSet (miPath i3c) dw0.toNat dw1.toNat (wakeIdle s.dev)).2) rfl rfl
      ⟨fun item least most => ?_, fun item => ?_, fun item => ?_, fun item => ?_⟩
    · rw [miConfigSet_frequency item least most]
      exact ⟨rfl, mapGet_set_same _ _ _ _⟩
    · rw [miConfigSet_change item]
      exact ⟨rfl, mapGet_set_same _ _ _ _⟩
    · rw [miConfigSet_unit item]
      exact ⟨rfl, rfl⟩
    · rw [miConfigSet_unknown item]
      exact ⟨rfl, rfl⟩
  · exact answers_of_mi (f := miVpd dw0.toNat dw1.toNat) bound rfl rfl ⟨_, by rw [List.length_map, List.length_range], rfl⟩
  · simp only [List.mem_cons, List.not_mem_nil, or_false] at mem
    rcases mem with rfl | rfl | rfl | rfl | rfl | rfl | rfl | rfl | rfl | rfl | rfl <;>
      exact if_neg (by rw [free]; exact Bool.false_ne_true)
  · change GivesDev (execNvmeMiSend k data s) s _
    refine givesDev_onSlot (g := fun x d => .ok (miSend k x d)) (d := miSend k x s.dev) taken rfl ?_
    refine ⟨fun asked => ?_, fun asked item => ?_⟩
    · rw [miSend_unknown _ asked]
      exact taken.completes rfl _
    · rw [miSend_change _ asked item]
      refine ⟨taken.completes (by rfl) _, ?_⟩
      rw [Dev.finish_jnm]
      change mapGet 0 (mapSet 0 s.dev.jnm.miChange (x.fn / 1025) x.sqe.cdw13.toNat) (x.fn / 1025) = x.sqe.cdw13.toNat
      exact mapGet_set_same _ _ _ _
  · change GivesDev (execNvmeMiReceive k s) s _
    refine givesDev_onSlot (g := fun x d => .ok (miReceive k x d)) (d := miReceive k x s.dev) taken rfl ?_
    refine ⟨fun asked item => ?_, fun op polls asked => nvmeMiReceive_polls taken loud polls asked, fun asked => ?_⟩
    · rw [miReceive_eq _ (miCommand_unit asked item)]
      exact ⟨taken.completes rfl _, Dev.finish_out ..⟩
    · rw [miReceive_eq _ (miCommand_unknown asked)]
      exact taken.completes rfl _

end Sys2Proof.Machine

/-! PROOFS. The DRAM controller: training and initialisation, sub-channels retired, requests admitted, reads that return, patrol and DQS
tracking (R313, R314, R318, R320, R321, R325, R327). -/

namespace Sys2Proof.Machine

/-! ### Maps under a filter -/

theorem mapGet_filter_kept {α : Type} (dflt : α) {keep : Nat × α → Bool} {k : Nat} (kept : ∀ v, keep (k, v) = true) :
    ∀ m : SMap α, mapGet dflt (m.filter keep) k = mapGet dflt m k
  | [] => rfl
  | (a, v) :: m => by
    rw [List.filter_cons]
    split
    case isTrue => rw [mapGet, mapGet, mapGet_filter_kept dflt kept m]
    case isFalse dropped =>
      have other : a ≠ k := by rintro rfl; exact dropped (kept v)
      rw [mapGet, if_neg other, mapGet_filter_kept dflt kept m]

theorem mapGet_filter_dropped {α : Type} (dflt : α) {keep : Nat × α → Bool} {k : Nat} (dropped : ∀ v, keep (k, v) = false) (m : SMap α) :
    mapGet dflt (m.filter keep) k = dflt := by
  rw [mapGet_eq_getD, mapFind_filter_none dropped]
  rfl

/-! ### DMC.CTL (R313) -/

/-- The device with EN and PATROL_EN as a write of DMC.CTL gives them. -/
def dmcCtlFields (v : Nat) (d : Dev) : Dev := (d.wr Fd.DMC_CTL_PATROL_EN (bits v 2 2)).wr Fd.DMC_CTL_EN (bits v 0 0)

theorem dmcCtlFields_en (v : Nat) (d : Dev) : (dmcCtlFields v d).rd Fd.DMC_CTL_EN = bits v 0 0 :=
  (Dev.rd_wr_same _ _ (by decide) (by decide)).trans (Nat.mod_eq_of_lt (bits_lt v 0 0))

theorem dmcCtlFields_patrol (v : Nat) (d : Dev) : (dmcCtlFields v d).rd Fd.DMC_CTL_PATROL_EN = bits v 2 2 :=
  (Dev.rdx_wrx_fldAt (by decide)).trans ((Dev.rd_wr_same _ _ (by decide) (by decide)).trans (Nat.mod_eq_of_lt (bits_lt v 2 2)))

theorem dmcCtlFields_dram (v : Nat) (d : Dev) : (dmcCtlFields v d).dram = d.dram := (Dev.wr_dram _ _ _).trans (Dev.wr_dram _ _ _)

/-- A write of TRAIN asks for a training while EN is clear, else it is ignored. -/
theorem dmcCtlWrite_train (v : Nat) (d : Dev) : dmcCtlWrite (setBits v 1 1 1) d =
    if bit v 0 then (dmcCtlFields v d).wr Fd.DMC_EVT_CFG_IGN 1 else (dmcCtlFields v d).modDram fun x => { x with training := true } := by
  have fields : dmcCtlFields (setBits v 1 1 1) d = dmcCtlFields v d := by
    rw [dmcCtlFields, bits_setBits_above (by decide) (by decide), bits_setBits_below (by decide) (by decide), dmcCtlFields]
  have enabled : (dmcCtlFields v d).is Fd.DMC_CTL_EN = bit v 0 := by
    rw [Dev.is, dmcCtlFields_en, bits_self]
    exact b2n_eq_one _
  unfold dmcCtlWrite
  dsimp only
  rw [if_pos (bit_setBits_same v 1), show ((d.wr Fd.DMC_CTL_PATROL_EN (bits (setBits v 1 1 1) 2 2)).wr Fd.DMC_CTL_EN
    (bits (setBits v 1 1 1) 0 0)) = dmcCtlFields (setBits v 1 1 1) d from rfl, fields, enabled]

theorem dmcCtlWrite_trains (v : Nat) (d : Dev) : (dmcCtlWrite (setBits v 1 1 1) d).rd Fd.DMC_CTL_EN = bits v 0 0 ∧
    (dmcCtlWrite (setBits v 1 1 1) d).rd Fd.DMC_CTL_PATROL_EN = bits v 2 2 ∧
    (bit v 0 = false → (dmcCtlWrite (setBits v 1 1 1) d).dram = { d.dram with training := true }) ∧
    (bit v 0 = true → (dmcCtlWrite (setBits v 1 1 1) d).rd Fd.DMC_EVT_CFG_IGN = 1 ∧ (dmcCtlWrite (setBits v 1 1 1) d).dram = d.dram) := by
  rw [dmcCtlWrite_train]
  have dram := dmcCtlFields_dram v d
  cases on : bit v 0
  · rw [if_neg Bool.false_ne_true]
    refine ⟨dmcCtlFields_en v d, dmcCtlFields_patrol v d, fun _ => ?_, fun h => absurd h Bool.false_ne_true⟩
    rw [Dev.modDram, dram]
  · rw [if_pos rfl]
    exact ⟨(Dev.rdx_wrx_reg (by decide)).trans (dmcCtlFields_en v d), (Dev.rdx_wrx_reg (by decide)).trans (dmcCtlFields_patrol v d),
      fun h => absurd h.symm Bool.false_ne_true, fun _ => ⟨Dev.rd_wr_same _ _ (by decide) (by decide), (Dev.wr_dram _ _ _).trans dram⟩⟩

/-! ### Sub-channels retired (R321) -/

/-- TRAIN_DONE, and of the DRAM all but the sub-channels retired and their queues, stay. -/
def TrainingHeld (d e : Dev) : Prop :=
  e.rd Fd.DMC_EVT_TRAIN_DONE = d.rd Fd.DMC_EVT_TRAIN_DONE ∧ ∃ r q w, e.dram = { d.dram with retired := r, readQ := q, writeQ := w }

theorem TrainingHeld.refl (d : Dev) : TrainingHeld d d := ⟨rfl, d.dram.retired, d.dram.readQ, d.dram.writeQ, rfl⟩

theorem TrainingHeld.trans {d e f : Dev} (first : TrainingHeld d e) (second : TrainingHeld e f) : TrainingHeld d f := by
  obtain ⟨done, r, q, w, dram⟩ := first
  obtain ⟨done', r', q', w', dram'⟩ := second
  exact ⟨done'.trans done, r', q', w', by rw [dram', dram]⟩

theorem TrainingHeld.of_dram {d e : Dev} (done : e.rd Fd.DMC_EVT_TRAIN_DONE = d.rd Fd.DMC_EVT_TRAIN_DONE) (dram : e.dram = d.dram) :
    TrainingHeld d e := ⟨done, d.dram.retired, d.dram.readQ, d.dram.writeQ, dram⟩

/-- What retiring a sub-channel leaves of the DRAM. -/
theorem retireSub_dram (i : Nat) (d : Dev) : ∃ q w, (retireSub i d).dram =
    { d.dram with retired := setBits d.dram.retired i i 1, readQ := q, writeQ := w } := ⟨_, _, Dev.wr_dram _ _ _⟩

theorem retireSub_training (i : Nat) (d : Dev) : TrainingHeld d (retireSub i d) := by
  obtain ⟨q, w, dram⟩ := retireSub_dram i d
  exact ⟨Dev.rdx_wrx_fldAt (by decide), _, q, w, dram⟩

/-- The step of `retireMask` for one sub-channel. -/
def retireStep (m i : Nat) (d : Dev) : Dev := if bit m i && !bit d.dram.retired i then halveCredits (retireSub i d) else d

theorem retireMask_eq (m : Nat) (d : Dev) : retireMask m d =
    if (d.dram.retired ||| m % 256) % 16 &&& (d.dram.retired ||| m % 256) / 16 ≠ 0 then d.wr Fd.DMC_EVT_CFG_IGN 1
    else if d.dram.retired ||| m % 256 = 0 then forUpTo 8 (retireStep m) d else faultOn 3 (forUpTo 8 (retireStep m) d) := rfl

theorem retireStep_training (m i : Nat) (d : Dev) : TrainingHeld d (retireStep m i d) := by
  unfold retireStep
  split
  · exact (retireSub_training i d).trans
      (.of_dram ((halveCredits_keeps _).rd _ (by rfl)) ((halveCredits_keeps _).dram (by rfl)))
  · exact .refl d

theorem retireMask_training (m : Nat) (d : Dev) : TrainingHeld d (retireMask m d) := by
  have loop : TrainingHeld d (forUpTo 8 (retireStep m) d) :=
    forUpTo_keeps (TrainingHeld d) (.refl d) fun i e held => held.trans (retireStep_training m i e)
  rw [retireMask_eq]
  split
  · exact .of_dram (Dev.rdx_wrx_fldAt (by decide)) (Dev.wr_dram _ _ _)
  · split
    · exact loop
    · exact loop.trans (.of_dram ((faultOn_keeps _ _).rd _ (by rfl)) ((faultOn_keeps _ _).dram (by rfl)))

theorem retireStep_retired (m k i : Nat) (d : Dev) : bit (retireStep m k d).dram.retired i =
    (bit d.dram.retired i || (decide (k = i) && bit m i)) := by
  unfold retireStep
  split
  case isTrue new =>
    obtain ⟨named, -⟩ := Bool.and_eq_true_iff.1 new
    obtain ⟨q, w, dram⟩ := retireSub_dram k d
    rw [(halveCredits_keeps _).dram (by rfl), dram]
    by_cases at' : k = i
    · subst at'
      rw [bit_setBits_same, named]
      simp
    · rw [bit_setBits_other (Ne.symm at'), decide_eq_false at']
      simp
  case isFalse old =>
    by_cases at' : k = i
    · subst at'
      cases named : bit m k
      · simp
      · simpa [named] using old
    · simp [at']

/-- After every step each sub-channel of the mask is retired, and no other. -/
theorem retireSteps_retired (m : Nat) (d : Dev) {i : Nat} (sub : i < 8) :
    bit (forUpTo 8 (retireStep m) d).dram.retired i = (bit d.dram.retired i || bit m i) := by
  unfold forUpTo
  cases named : bit m i
  · rw [Bool.or_false]
    refine List.foldlRecOn (motive := fun e : Dev => bit e.dram.retired i = bit d.dram.retired i) _ _ rfl fun e held k _ => ?_
    rw [retireStep_retired, named, Bool.and_false, Bool.or_false, held]
  · rw [Bool.or_true]
    refine foldl_establishes (P := fun e : Dev => bit e.dram.retired i = true) (fun e => ?_) (fun e k held => ?_) (List.mem_range.2 sub) d
    · rw [retireStep_retired, named, decide_eq_true rfl]
      simp
    · rw [retireStep_retired, held, Bool.true_or]

theorem retireMask_refuses {m : Nat} {d : Dev} (pair : (d.dram.retired ||| m % 256) % 16 &&& (d.dram.retired ||| m % 256) / 16 ≠ 0) :
    (retireMask m d).rd Fd.DMC_EVT_CFG_IGN = 1 ∧ (retireMask m d).dram = d.dram := by
  rw [retireMask_eq, if_pos pair]
  exact ⟨Dev.rd_wr_same _ _ (by decide) (by decide), Dev.wr_dram _ _ _⟩

theorem retireMask_retires {m : Nat} {d : Dev} (single : (d.dram.retired ||| m % 256) % 16 &&& (d.dram.retired ||| m % 256) / 16 = 0) :
    ∀ i < 8, bit (retireMask m d).dram.retired i = (bit d.dram.retired i || bit m i) := by
  intro i sub
  rw [retireMask_eq, if_neg (not_not_intro single)]
  split
  · exact retireSteps_retired m d sub
  · rw [(faultOn_keeps _ _).dram (by rfl)]
    exact retireSteps_retired m d sub

/-! ### Training and initialisation (R313) -/

/-- The device with what a training found. -/
def trainingFound (t : DramTraining) (d : Dev) : Dev :=
  (d.modDram fun x => { x with
    training := false, trained := true, present := t.present.toNat, density := t.density, ranks := t.ranks
    drows := t.density * 3968, mib := t.ranks * t.density * 1024 * 31 / 64, raaimt := t.raaimt }).wr Fd.DMC_EVT_TRAIN_DONE 1

/-- The device once the sub-channels that failed are retired. -/
def trainingRetired (t : DramTraining) (d : Dev) : Dev := t.failed.foldl (fun d f => retireMask (2 ^ f.sub.toNat) d) (trainingFound t d)

theorem dramTrained_left (t : DramTraining) (d : Dev) : (dramTrained t d).dram = (trainingRetired t d).dram ∧
    (dramTrained t d).rd Fd.DMC_EVT_TRAIN_DONE = (trainingRetired t d).rd Fd.DMC_EVT_TRAIN_DONE :=
  ⟨Dev.flagIf_dram (trainingRetired t d) _ _, (Dev.flagIf_keeps (trainingRetired t d) _ _).rd Fd.DMC_EVT_TRAIN_DONE (by rfl)⟩

theorem trainingRetired_training (t : DramTraining) (d : Dev) : TrainingHeld (trainingFound t d) (trainingRetired t d) :=
  List.foldlRecOn (motive := TrainingHeld (trainingFound t d)) _ _ (.refl _) fun e held _ _ => held.trans (retireMask_training _ e)

theorem dramTrained_finds (t : DramTraining) (d : Dev) : (dramTrained t d).rd Fd.DMC_EVT_TRAIN_DONE = 1 ∧
    (dramTrained t d).dram.training = false ∧ (dramTrained t d).dram.trained = true ∧ (dramTrained t d).dram.present = t.present.toNat ∧
    (dramTrained t d).dram.density = t.density ∧ (dramTrained t d).dram.ranks = t.ranks ∧ (dramTrained t d).dram.drows = t.density * 3968 ∧
    (dramTrained t d).dram.mib = t.ranks * t.density * 1024 * 31 / 64 ∧ (t.failed = [] → (dramTrained t d).dram.retired = d.dram.retired) := by
  obtain ⟨leftDram, leftDone⟩ := dramTrained_left t d
  obtain ⟨done, r, q, w, dram⟩ := trainingRetired_training t d
  have told : (trainingFound t d).rd Fd.DMC_EVT_TRAIN_DONE = 1 := Dev.rd_wr_same _ _ (by decide) (by decide)
  refine ⟨leftDone.trans (done.trans told), ?_, ?_, ?_, ?_, ?_, ?_, ?_, fun sound => ?_⟩
  case refine_8 =>
    rw [leftDram, trainingRetired, sound]
    rfl
  all_goals rw [leftDram, dram]; rfl

theorem dramInit_clears (s : State) : (dramInit s).dev.dram.initDone = true ∧
    (∀ a, dramBase ≤ a → a < 2 ^ 40 → memGet (dramInit s).mem a = 0) ∧ (∀ a, a < dramBase → memGet (dramInit s).mem a = memGet s.mem a) ∧
    (∀ h, firstDramHandle ≤ h → (dramInit s).dev.pool.cell h = Cell.empty) ∧
    (∀ h, h < firstDramHandle → (dramInit s).dev.pool.cell h = s.dev.pool.cell h) :=
  ⟨rfl, fun _ low high => mapGet_filter_dropped _ (fun _ => by simp; omega) _, fun _ low => mapGet_filter_kept _ (fun _ => by simp [low]) _,
    fun _ dram => mapGet_filter_dropped _ (fun _ => by simpa using dram) _, fun _ chip => mapGet_filter_kept _ (fun _ => by simpa using chip) _⟩

/-! ### What the issue of a request leaves -/

/-- What waits, the ports, the read queues and UNCORR_BOTH stay. -/
structure IssueHeld (d e : Dev) : Prop where
  waiting : e.dram.waiting = d.dram.waiting
  ports : e.dram.ports = d.dram.ports
  readQ : e.dram.readQ = d.dram.readQ
  both : e.rd Fd.DMC_EVT_UNCORR_BOTH = d.rd Fd.DMC_EVT_UNCORR_BOTH

theorem IssueHeld.refl (d : Dev) : IssueHeld d d := ⟨rfl, rfl, rfl, rfl⟩

theorem IssueHeld.trans {d e f : Dev} (first : IssueHeld d e) (second : IssueHeld e f) : IssueHeld d f :=
  ⟨second.waiting.trans first.waiting, second.ports.trans first.ports, second.readQ.trans first.readQ, second.both.trans first.both⟩

theorem IssueHeld.of_dram {d e : Dev} (dram : e.dram = d.dram) (both : e.rd Fd.DMC_EVT_UNCORR_BOTH = d.rd Fd.DMC_EVT_UNCORR_BOTH) :
    IssueHeld d e := ⟨by rw [dram], by rw [dram], by rw [dram], both⟩

theorem rollCount_issue (i bank : Nat) (d : Dev) : IssueHeld d (rollCount i bank d) ∧ (rollCount i bank d).dram.openRow = d.dram.openRow := by
  unfold rollCount
  dsimp only
  split
  · refine ⟨.trans (e := d.modDram fun x => { x with raa := mapSet 0 x.raa (i * 64 + bank) (mapGet 0 d.dram.raa (i * 64 + bank) + 1 - d.dram.raaimt) })
      ⟨rfl, rfl, rfl, rfl⟩ (.of_dram (Dev.add_dram ..) ((Dev.add_keeps ..).rd _ (by rfl))), ?_⟩
    rw [Dev.add_dram]
    rfl
  · exact ⟨⟨rfl, rfl, rfl, rfl⟩, rfl⟩

/-- The device once a row over its threshold was told of. -/
def throttled (t : Dev) : Dev := ((t.add Fd.DMC_RH_CNT_RFM 1).add Fd.DMC_RH_CNT_THROTTLES 1).wr Fd.DMC_EVT_THROTTLE 1

theorem throttled_dram (t : Dev) : (throttled t).dram = t.dram := by rw [throttled, Dev.wr_dram, Dev.add_dram, Dev.add_dram]

theorem throttled_issue (t : Dev) : IssueHeld t (throttled t) :=
  .of_dram (throttled_dram t) ((Dev.rdx_wrx_fldAt (by decide)).trans
    (((Dev.add_keeps ..).rd _ (by rfl)).trans ((Dev.add_keeps ..).rd _ (by rfl))))

/-- The device with a row opened and its activate counted. -/
def rowOpened (i bank row port : Nat) (d : Dev) : Dev :=
  rollCount i bank (d.modDram fun x => { x with
    openRow := mapInsert x.openRow (i * 64 + bank) row
    acts := addAct { sub := i, bank := bank, row := row, port := port, stroke := d.strk.count, count := 1 } x.acts })

theorem rowOpened_issue (i bank row port : Nat) (d : Dev) : IssueHeld d (rowOpened i bank row port d) ∧
    mapFind (rowOpened i bank row port d).dram.openRow (i * 64 + bank) = some row := by
  unfold rowOpened
  generalize opens : d.modDram _ = e
  have opened : IssueHeld d e := by rw [← opens]; exact ⟨rfl, rfl, rfl, rfl⟩
  obtain ⟨held, openRow⟩ := rollCount_issue i bank e
  refine ⟨opened.trans held, ?_⟩
  rw [openRow, ← opens]
  exact mapFind_insert_same _ _ _

/-- A row is open once it was activated. -/
theorem activate_issue (i bank row port : Nat) (d : Dev) : IssueHeld d (activate i bank row port d) ∧
    mapFind (activate i bank row port d).dram.openRow (i * 64 + bank) = some row := by
  obtain ⟨held, opened⟩ := rowOpened_issue i bank row port d
  unfold activate
  split
  case isTrue already => exact ⟨.refl d, already⟩
  case isFalse =>
    rw [show rollCount i bank _ = rowOpened i bank row port d from rfl]
    generalize rowOpened i bank row port d = e at held opened
    dsimp only
    split
    · generalize limits : e.modDram _ = f
      have limited : IssueHeld e f := by rw [← limits]; exact ⟨rfl, rfl, rfl, rfl⟩
      refine ⟨held.trans (limited.trans (throttled_issue f)), ?_⟩
      change mapFind (throttled f).dram.openRow _ = _
      rw [throttled_dram, ← limits]
      exact opened
    · exact ⟨held, opened⟩

theorem issueDram_issue (i : Nat) (r : DramReq) (d : Dev) : IssueHeld d (issueDram i r d) ∧
    mapFind (issueDram i r d).dram.openRow (i * 64 + d.rankBank (dramLine r.addr)) = some (d.dramRow (dramLine r.addr)).2 := by
  unfold issueDram
  extract_lets l bank row key lines e
  have held : IssueHeld d e := by
    subst e
    split
    · exact .refl d
    · exact (activate_issue ..).1
  generalize hlines : e.modDram _ = f
  have lines : IssueHeld e f := by rw [← hlines]; exact ⟨rfl, rfl, rfl, rfl⟩
  obtain ⟨last, opened⟩ := activate_issue i (d.rankBank (dramLine r.addr)) (d.dramRow (dramLine r.addr)).2 r.port f
  exact ⟨held.trans (lines.trans last), opened⟩

/-! ### Admission (R325, R326) -/

/-- What waits and the ports stay. -/
def QueuedOnly (d e : Dev) : Prop := e.dram.waiting = d.dram.waiting ∧ e.dram.ports = d.dram.ports

theorem QueuedOnly.trans {d e f : Dev} (first : QueuedOnly d e) (second : QueuedOnly e f) : QueuedOnly d f :=
  ⟨second.1.trans first.1, second.2.trans first.2⟩

theorem issueWrites_queued (i age lo n : Nat) (d : Dev) : QueuedOnly d (issueWrites i age lo n d) := by
  induction n generalizing d with
  | zero => exact ⟨rfl, rfl⟩
  | succ n ih =>
    rw [issueWrites]
    split
    next r _ =>
      obtain ⟨held, -⟩ := issueDram_issue i r (d.modDram fun x => { x with
        writeQ := mapSet [] x.writeQ i (listEraseFirst (fun y => y == r) (mapGet [] x.writeQ i)) })
      exact .trans ⟨held.waiting, held.ports⟩ (ih _)
    next => exact ⟨rfl, rfl⟩

theorem drainWrites_queued (i : Nat) (d : Dev) : QueuedOnly d (drainWrites i d) := by
  unfold drainWrites
  dsimp only
  split
  · exact issueWrites_queued ..
  · exact ⟨rfl, rfl⟩

theorem enqueue_queued (r : DramReq) (d : Dev) : QueuedOnly d (enqueue r d) := by
  unfold enqueue
  refine List.foldlRecOn (motive := QueuedOnly d) _ _ ⟨rfl, rfl⟩ fun e held i _ => ?_
  split
  · exact held.trans (.trans (e := e.modDram fun x => { x with writeQ := mapSet [] x.writeQ i (mapGet [] x.writeQ i ++ [r]) }) ⟨rfl, rfl⟩
      (drainWrites_queued i _))
  · exact held.trans ⟨rfl, rfl⟩

/-- A search that finds the one answer of its place, and no other, finds it. -/
theorem findSome?_of_only {α : Type} {f : Nat → Option α} {q : Nat} {x : α} (found : f q = some x) (only : ∀ p, p ≠ q → f p = none) :
    ∀ {l : List Nat}, q ∈ l → l.findSome? f = some x
  | p :: l, mem => by
    by_cases at' : p = q
    · rw [List.findSome?_cons, at', found]
    · rw [List.findSome?_cons, only p at']
      exact findSome?_of_only found only ((List.mem_cons.1 mem).resolve_left (Ne.symm at'))

theorem port_in_turn (last : Nat) {p : Nat} (port : p < 8) : p ∈ (List.range 8).map fun i => (last + 1 + i) % 8 :=
  List.mem_map.2 ⟨(p + 8 - (last + 1) % 8) % 8, List.mem_range.2 (Nat.mod_lt _ (by decide)), by omega⟩

/-- The requests that may enter in their turn. -/
def enterable (d : Dev) : List DramReq := d.dram.waiting.filter fun r => d.mayEnter r && firstOfLine r d.dram.waiting

theorem nextDram_none {d : Dev} (none' : enterable d = []) : d.nextDram = none := by
  unfold Dev.nextDram
  rw [show d.dram.waiting.filter (fun r => d.mayEnter r && firstOfLine r d.dram.waiting) = [] from none']
  dsimp only [List.find?_nil]
  rw [show ((List.range 8).map fun i => (d.dram.lastPort + 1 + i) % 8).findSome? (fun _ => (none : Option DramReq)) = none from
    List.findSome?_eq_none_iff.2 fun _ _ => rfl]
  rfl

theorem nextDram_credited {d : Dev} {r : DramReq} (only : d.dram.waiting = [r]) (enters : d.mayEnter r = true) (paid : d.credited r = true)
    (port : r.port < 8) : d.nextDram = some (r, true) := by
  have mine : d.dram.waiting.filter (fun r => d.mayEnter r && firstOfLine r d.dram.waiting) = [r] := by
    rw [only]
    simp [enters, firstOfLine]
  have first : ((List.range 8).map fun i => (d.dram.lastPort + 1 + i) % 8).findSome?
      (fun p => [r].find? fun r => decide (r.port = p) && d.credited r) = some r :=
    findSome?_of_only (by simp [paid]) (fun p other => by simp [Ne.symm other]) (port_in_turn _ port)
  unfold Dev.nextDram
  rw [mine]
  dsimp only
  rw [first]

theorem admitDram_none {d : Dev} (none' : d.nextDram = none) (n : Nat) : admitDram n d = d := by
  cases n with
  | zero => rfl
  | succ n =>
    rw [admitDram, none']

theorem markWaits_none {d : Dev} (none' : d.dram.waiting = []) : markWaits d = d := by
  unfold markWaits
  refine forUpTo_keeps (P := fun e => e = d) rfl fun p e same => ?_
  subst same
  rw [none']
  rfl

/-- Nothing waits: nothing is admitted. -/
theorem admitAll_idle {d : Dev} (none' : d.dram.waiting = []) : d.admitAll = d := by
  have next : d.nextDram = none := nextDram_none (by rw [enterable, none']; rfl)
  rw [Dev.admitAll, admitDram_none next, markWaits_none none']

theorem dport_of_ports {d e : Dev} (same : e.dram.ports = d.dram.ports) (p : Nat) : e.dport p = d.dport p := by
  rw [Dev.dport, Dev.dport, same]

theorem Dev.dport_modDport_same (d : Dev) (p : Nat) (f : DramPort → DramPort) : (d.modDport p f).dport p = f (d.dport p) := by
  rw [Dev.dport, Dev.modDport, Dev.modDram, mapFind_insert_same]
  rfl

/-- The device once a credited request that waited alone is in its queues. -/
def admitted (r : DramReq) (d : Dev) : Dev :=
  ((enqueue r (d.modDram fun x => { x with waiting := listEraseFirst (fun y => y == r) x.waiting })).modDport r.port fun p =>
    { p with credit := p.credit - r.cost, charged := p.charged + r.cost }).modDram fun x => { x with lastPort := r.port }

theorem admitted_left {r : DramReq} {d : Dev} (only : d.dram.waiting = [r]) : (admitted r d).dram.waiting = [] ∧
    (admitted r d).dram.lastPort = r.port ∧ ((admitted r d).dport r.port).credit = (d.dport r.port).credit - r.cost ∧
    ((admitted r d).dport r.port).charged = (d.dport r.port).charged + r.cost := by
  obtain ⟨waiting, ports⟩ := enqueue_queued r (d.modDram fun x => { x with waiting := listEraseFirst (fun y => y == r) x.waiting })
  unfold admitted
  generalize enqueue r _ = e at waiting ports
  have same : e.dport r.port = d.dport r.port := dport_of_ports ports _
  have port : ((e.modDport r.port fun p => { p with credit := p.credit - r.cost, charged := p.charged + r.cost }).modDram fun x =>
      { x with lastPort := r.port }).dport r.port =
      { d.dport r.port with credit := (d.dport r.port).credit - r.cost, charged := (d.dport r.port).charged + r.cost } := by
    rw [← same]
    exact (dport_of_ports (d := e.modDport r.port fun p => { p with credit := p.credit - r.cost, charged := p.charged + r.cost })
      (by rfl) _).trans (Dev.dport_modDport_same e r.port _)
  have gone : listEraseFirst (fun y => y == r) d.dram.waiting = [] := by
    rw [only]
    simp [listEraseFirst]
  exact ⟨waiting.trans gone, rfl, by rw [port], by rw [port]⟩

/-- A credited request that may enter and waits alone is admitted and charged. -/
theorem admitAll_admits {r : DramReq} {d : Dev} (only : d.dram.waiting = [r]) (enters : d.mayEnter r = true) (paid : d.credited r = true)
    (port : r.port < 8) : d.admitAll = admitted r d := by
  obtain ⟨waiting, -⟩ := admitted_left only
  have none' : (admitted r d).nextDram = none := nextDram_none (by rw [enterable, waiting]; rfl)
  have first : admitDram (d.dram.waiting.length + 1) d = admitDram d.dram.waiting.length (admitted r d) := by
    rw [admitDram, nextDram_credited only enters paid port]
    rfl
  rw [Dev.admitAll, first, admitDram_none none', markWaits_none waiting]

/-- A request that cannot enter waits on. -/
theorem admitAll_holds {r : DramReq} {d : Dev} (only : d.dram.waiting = [r]) (barred : d.mayEnter r = false) :
    d.admitAll.dram.waiting = d.dram.waiting ∧ d.admitAll.dram.readQ = d.dram.readQ ∧ d.admitAll.dram.writeQ = d.dram.writeQ := by
  have next : d.nextDram = none := nextDram_none (by rw [enterable, only]; simp [barred])
  rw [Dev.admitAll, admitDram_none next]
  unfold markWaits
  refine forUpTo_keeps (P := fun e : Dev => e.dram.waiting = d.dram.waiting ∧ e.dram.readQ = d.dram.readQ ∧ e.dram.writeQ = d.dram.writeQ)
    ⟨rfl, rfl, rfl⟩ fun p e held => ?_
  split
  · exact held
  · exact held

/-! ### Reads that return (R322, R319) -/

theorem copyRead_left (i a : Nat) (own other : CopyState) (d : Dev) : (copyRead i a own other d).dram = d.dram ∧
    (own = .good → copyRead i a own other d = d) ∧
    (own = .bad → other = .bad → (copyRead i a own other d).rd Fd.DMC_EVT_UNCORR_BOTH = 1) := by
  refine ⟨(copyRead_keeps ..).dram (by rfl), fun good => by rw [good, copyRead], fun bad both => ?_⟩
  have lost (e : Dev) : (wordLost a (e.wr Fd.DMC_EVT_UNCORR_BOTH 1)).rd Fd.DMC_EVT_UNCORR_BOTH = 1 :=
    ((wordLost_keeps _ _).rd _ (by rfl)).trans (Dev.rd_wr_same _ _ (by decide) (by decide))
  rw [bad, both, copyRead]
  dsimp only
  rw [if_neg (by simp)]
  exact lost _

/-- The device once a queued read returned, before what waits is admitted. -/
def readReturned (i : Nat) (own other : CopyState) (r : DramReq) (d : Dev) : Dev :=
  copyRead i r.addr own other (issueDram i r (d.modDram fun x => { x with
    readQ := mapSet [] x.readQ i (listEraseFirst (fun y => y == r) (mapGet [] x.readQ i)) }))

theorem readReturned_left (i : Nat) (own other : CopyState) (r : DramReq) (d : Dev) :
    (readReturned i own other r d).readQ i = listEraseFirst (fun y => y == r) (d.readQ i) ∧
    mapFind (readReturned i own other r d).dram.openRow (i * 64 + d.rankBank (dramLine r.addr)) = some (d.dramRow (dramLine r.addr)).2 ∧
    (own = .good → (readReturned i own other r d).rd Fd.DMC_EVT_UNCORR_BOTH = d.rd Fd.DMC_EVT_UNCORR_BOTH) ∧
    (own = .bad → other = .bad → (readReturned i own other r d).rd Fd.DMC_EVT_UNCORR_BOTH = 1) := by
  obtain ⟨held, opened⟩ := issueDram_issue i r (d.modDram fun x => { x with
    readQ := mapSet [] x.readQ i (listEraseFirst (fun y => y == r) (mapGet [] x.readQ i)) })
  have both := held.both
  have queue := held.readQ
  unfold readReturned
  generalize issueDram i r _ = e at both queue opened
  obtain ⟨dram, good, bad⟩ := copyRead_left i r.addr own other e
  refine ⟨?_, by rw [dram]; exact opened, fun sound => by rw [good sound]; exact both, bad⟩
  rw [Dev.readQ, dram, queue]
  exact mapGet_set_same _ _ _ _

/-! ### Patrol (R320) -/

/-- The device once the lap of the patrol is told of. -/
def lapTold (d : Dev) : Dev :=
  (d.wr Fd.DMC_PATROL_LAP_SHEETS (d.sheet - d.dram.lapStart)).flagIf
    (decide (d.rd Fd.DMC_PATROL_SHEETS < d.sheet - d.dram.lapStart)) Fd.DMC_EVT_PATROL_LATE

/-- The device once the lap of the patrol ended. -/
def lapEnded (d : Dev) : Dev := (lapTold d).modDram fun x => { x with patrol := 0, lapStart := (lapTold d).sheet }

theorem lapEnded_left (d : Dev) : (lapEnded d).dram = { d.dram with patrol := 0, lapStart := d.sheet } ∧
    (d.rd Fd.DMC_PATROL_SHEETS < d.sheet - d.dram.lapStart → (lapEnded d).rd Fd.DMC_EVT_PATROL_LATE = 1) := by
  have dram : (lapTold d).dram = d.dram := by rw [lapTold, Dev.flagIf_dram, Dev.wr_dram]
  have strk : (lapTold d).strk = d.strk := by rw [lapTold, Dev.flagIf_strk, Dev.wr_strk]
  refine ⟨?_, fun late => ?_⟩
  · rw [lapEnded, Dev.modDram, dram, Dev.sheet, strk]
    rfl
  · have told : (lapTold d).rd Fd.DMC_EVT_PATROL_LATE = 1 := by
      rw [lapTold, decide_eq_true late, Dev.flagIf, if_pos rfl]
      exact Dev.rd_wr_same _ _ (by decide) (by decide)
    exact told

/-- The device once the patrol read a line copy. -/
def lineRead (d : Dev) : Dev := d.modDram fun x => { x with patrol := d.dram.patrol + 1 }

theorem patrolRead_good {other : CopyState} {d : Dev} (due : d.patrolDue = true) (room : (d.readQ d.patrolSub).length < 64) :
    patrolRead .good other d =
      .ok (if d.dram.patrol + 1 = d.patrolTotal then lapEnded (lineRead d) else lineRead d).admitAll := by
  have sound (i a : Nat) : (if d.subOk i then copyRead i a .good other d else d) = d := by
    rw [copyRead]
    exact ite_self d
  unfold patrolRead
  dsimp only
  rw [if_pos (by simp [due, room]), sound]
  by_cases last : d.dram.patrol + 1 = d.patrolTotal
  · rw [if_pos last, if_pos last, lapEnded, lapTold, lineRead]
  · rw [if_neg last, if_neg last, lineRead]

/-! ### DQS tracking (R314) -/

theorem dqsTracking_tracks {i : Nat} {d : Dev} (enabled : d.is Fd.DMC_CTL_EN = true) (trained : d.dram.trained = true)
    (used : d.subOk i = true) (there : bit d.dram.present i = true) (due : ∀ k, mapFind d.dram.trackedAt i = some k → k + 64 ≤ d.sheet) :
    dqsTracking i d = .ok (d.modDram fun x => { x with trackedAt := mapInsert x.trackedAt i d.sheet }) := by
  unfold dqsTracking
  rw [enabled, trained, used, there]
  cases last : mapFind d.dram.trackedAt i with
  | none => rfl
  | some k =>
    exact if_pos (decide_eq_true (due k last))

/-- Settles O44: each row of the DRAM controller, over what the issue of a request and an admission leave. -/
theorem dramActs : Obligations.DramActs := by
  refine ⟨fun v s plain => givesDev_orRsv (by simp [plain]) (dmcCtlWrite_trains v.toNat s.dev),
    fun t s training => givesDev_onlyIf' (b := fun d => d.dram.training) training (dramTrained_finds t s.dev),
    fun s trained enabled fresh => ⟨dramInit s, if_pos (by simp [trained, enabled, fresh]), dramInit_clears s⟩,
    fun v s plain => ⟨fun pair => givesDev_orRsv (by simp [plain]) (retireMask_refuses pair),
      fun single => givesDev_orRsv (by simp [plain]) (retireMask_retires single)⟩,
    fun port addr write whole s r asked ready low high idle => ?_,
    fun port sub bank s t rest first port' sub' bank' ended => ?_,
    fun sub own other s r picked => ?_,
    fun other s ready enabled left due room => ?_,
    fun d none' => admitAll_idle none',
    fun sub s enabled trained used there due => givesDev_of_ok (dqsTracking_tracks enabled trained used there due) rfl⟩
  · have comes : dramRequest r s.dev = .ok (s.dev.modDram fun x => { x with waiting := [r] }).admitAll := by
      have alone : (s.dev.modDram fun x => { x with waiting := x.waiting ++ [r] }) = s.dev.modDram fun x => { x with waiting := [r] } := by
        rw [Dev.modDram, idle]
        rfl
      subst asked
      rw [dramRequest, if_pos (by rw [ready, decide_eq_true low, decide_eq_true high]; rfl), alone]
    have runs : exec (.dramRequestAdmit port addr write whole) s = onDev s (dramRequest r) := by
      subst asked
      rfl
    have known : r.port = port.val := by rw [asked]
    refine ⟨fun enters paid => ?_, fun barred => ?_⟩
    · rw [runs]
      refine givesDev_of_ok comes ?_
      obtain ⟨waiting, last, credit, charged⟩ := admitted_left (r := r) (d := s.dev.modDram fun x => { x with waiting := [r] }) rfl
      rw [admitAll_admits rfl enters paid (by rw [known]; exact port.isLt), ← known]
      exact ⟨waiting, last, credit, charged⟩
    · rw [runs]
      exact givesDev_of_ok comes (admitAll_holds rfl barred)
  · have ends : (decide (t.port = port.val) && decide (t.sub = sub.val) && decide (t.bank = bank.val) && decide (t.left = 0)) = true := by
      simp [port', sub', bank', ended]
    have row : throttleEnd port sub bank s.dev = .ok (s.dev.modDram fun x => { x with throttles := rest }).admitAll := by
      unfold throttleEnd
      dsimp only
      rw [if_pos (by rw [first, List.any_cons, ends, Bool.true_or]), Dev.modDram, first, listEraseFirst, if_pos ends]
      rfl
    exact givesDev_of_ok row rfl
  · have row : dramReturn sub own other s.dev = .ok (readReturned sub own other r s.dev).admitAll := by
      unfold dramReturn
      rw [picked]
      rfl
    exact givesDev_of_ok row ⟨_, rfl, readReturned_left sub own other r s.dev⟩
  · have pace : s.dev.patrolDue = true := by simp [Dev.patrolDue, ready, enabled, left, due]
    refine givesDev_of_ok (patrolRead_good pace room) ⟨_, rfl, fun goesOn => ?_, fun last => ?_⟩
    · rw [if_neg (by omega)]
      exact ⟨rfl, rfl⟩
    · rw [if_pos last]
      obtain ⟨dram, late⟩ := lapEnded_left (lineRead s.dev)
      exact ⟨dram, late⟩

end Sys2Proof.Machine

/-! PROOFS. The gravers: queue instructions and waits, watchdogs, GRV.CTL, failures, stops of etchings, migration and measurements (R359 to
R365, R373, R378). -/

namespace Sys2Proof.Machine

/-! ### Bits and states read back -/

/-- A bit of a field that reads zero is clear. -/
theorem bit_of_bits_zero {w hi lo i : Nat} (zero : bits w hi lo = 0) (low : lo ≤ i) (high : i ≤ hi) : bit w i = false := by
  have tested : bit w i = w.testBit i := by rw [bit, Nat.testBit_eq_decide_div_mod_eq]
  have field : (bits w hi lo).testBit (i - lo) = w.testBit i := by
    rw [bits, Nat.testBit_mod_two_pow, decide_eq_true (by omega), Nat.testBit_div_two_pow, Bool.true_and, Nat.sub_add_cancel low]
  rw [tested, ← field, zero, Nat.zero_testBit]

/-- Setting one bit leaves the other bits of a field that reads zero. -/
theorem bit_setBits_of_zero {w hi lo i j v : Nat} (zero : bits w hi lo = 0) (low : lo ≤ i) (high : i ≤ hi) (other : i ≠ j) :
    bit (setBits w j j v) i = false := (bit_setBits_other other).trans (bit_of_bits_zero zero low high)

theorem Dev.graver_modGraver_other (d : Dev) {g h : Nat} (f : Graver → Graver) (other : h ≠ g) : (d.modGraver g f).graver h = d.graver h :=
  mapGet_set_other _ _ _ _ other

theorem graver_of_gravers {d e : Dev} (same : e.grv.gravers = d.grv.gravers) (g : Nat) : e.graver g = d.graver g := by
  rw [Dev.graver, Dev.graver, same]

theorem Dev.queue_setQueue_same (d : Dev) (q : Nat) (l : List DWord) : (d.setQueue q l).queue q = l := mapGet_set_same _ _ _ _

theorem graverResult_graver (g rd : Nat) (w : DWord) (d : Dev) : (graverResult g rd w d).graver g = ((d.graver g).setReg rd w).advance 4 :=
  Dev.graver_modGraver_same ..

theorem graverResult_queue (g rd q : Nat) (w : DWord) (d : Dev) : (graverResult g rd w d).queue q = d.queue q := rfl

/-- What the step of a member sets where an invariant holds, and every step keeps, holds at the end. -/
theorem foldl_establishes_under {α β : Type} {f : α → β → α} {I P : α → Prop} {n : β} (inv : ∀ d k, I d → I (f d k))
    (sets : ∀ d, I d → P (f d n)) (keeps : ∀ d k, P d → P (f d k)) : ∀ {ns : List β}, n ∈ ns → ∀ d, I d → P (ns.foldl f d)
  | k :: ns, mem, d, holds => by
    rcases List.mem_cons.1 mem with rfl | mem
    · exact List.foldlRecOn ns f (sets d holds) fun b held a _ => keeps b a held
    · exact foldl_establishes_under inv sets keeps mem (f d k) (inv d k holds)

section

variable {s : State} {d : Dev} {g : Nat}

theorem givesDev_onGraver {f : Dev → Dev} {Q : Dev → Prop} (executes : s.dev.executes g = true) (holds : Q (f s.dev)) :
    GivesDev (onDev s (onGraver g (always f))) s Q :=
  givesDev_of_ok (if_pos executes) holds

/-! ### Queue instructions (R359, Table 13-2) -/

theorem queuePush_pushes (rd rs1 rs2 : Nat) {v : Graver} {q : Nat} (graver : v = d.graver g) (queue : q = (v.reg rs1).toNat) :
    if v.etching = true then (queuePush g rd rs1 rs2 d).graver g = (v.setReg rd 2).advance 4
    else if 511 < q then (queuePush g rd rs1 rs2 d).graver g = (v.setReg rd 3).advance 4
    else if d.mayPush g q = false then (queuePush g rd rs1 rs2 d).graver g = (v.setReg rd 2).advance 4
    else if (d.queue q).length < 64 then (queuePush g rd rs1 rs2 d).graver g = (v.setReg rd 0).advance 4 ∧
      (queuePush g rd rs1 rs2 d).queue q = d.queue q ++ [queueEntry (v.reg rs2)]
    else (queuePush g rd rs1 rs2 d).graver g = (v.setReg rd 1).advance 4 ∧ (queuePush g rd rs1 rs2 d).queue q = d.queue q := by
  subst graver queue
  unfold queuePush pushQueue
  dsimp only
  split
  · exact graverResult_graver ..
  · split
    · exact graverResult_graver ..
    · by_cases barred : d.mayPush g ((d.graver g).reg rs1).toNat = false
      · rw [if_pos barred, if_pos (by simp [barred])]
        exact graverResult_graver ..
      · rw [if_neg barred, if_neg (c := (!d.mayPush g ((d.graver g).reg rs1).toNat) = true) (by simpa using barred)]
        by_cases room : (d.queue ((d.graver g).reg rs1).toNat).length < 64
        · rw [if_pos room, if_pos room]
          exact ⟨graverResult_graver .., Dev.queue_setQueue_same ..⟩
        · rw [if_neg room, if_neg room]
          exact ⟨graverResult_graver .., rfl⟩

theorem queuePop_pops (rd rs1 : Nat) {v : Graver} {q : Nat} (graver : v = d.graver g) (queue : q = (v.reg rs1).toNat) :
    (v.etching = true → (queuePop g rd rs1 d).graver g = (v.setReg rd 2).advance 4) ∧
    (v.etching = false → 511 < q ∨ d.owner q ≠ g ∨ d.queue q = [] → (queuePop g rd rs1 d).graver g = (v.setReg rd 0).advance 4) ∧
    (∀ x rest, v.etching = false → q ≤ 511 → d.owner q = g → d.queue q = x :: rest →
      (queuePop g rd rs1 d).graver g = (v.setReg rd (BitVec.ofNat 64 (x.toNat + 2 ^ 63))).advance 4 ∧
      (queuePop g rd rs1 d).queue q = rest) := by
  subst graver queue
  refine ⟨fun etching => ?_, fun plain none' => ?_, fun x rest plain small own held => ?_⟩
  · rw [queuePop, if_pos etching]
    exact graverResult_graver ..
  · rw [queuePop, if_neg (by simp [plain])]
    by_cases out : (decide (511 < ((d.graver g).reg rs1).toNat) || decide (d.owner ((d.graver g).reg rs1).toNat ≠ g)) = true
    · rw [if_pos out]
      exact graverResult_graver ..
    · have empty : d.queue ((d.graver g).reg rs1).toNat = [] := by
        rcases none' with big | other | empty
        · exact absurd (by simp [big]) out
        · exact absurd (by simp [other]) out
        · exact empty
      rw [if_neg out, empty]
      exact graverResult_graver ..
  · rw [queuePop, if_neg (by simp [plain]), if_neg (by simp [own]; omega), held]
    exact ⟨graverResult_graver .., Dev.queue_setQueue_same ..⟩

theorem queueWait_waits {w : QStall} {v : Graver} (graver : v = d.graver g) :
    if v.etching = true then (queueWait g w d).graver g = (v.setReg w.rd 2).advance 4
    else if d.waitReady g w ≠ 0 ∨ d.waitIrq g = true then
      (queueWait g w d).graver g = (v.setReg w.rd (BitVec.ofNat 64 (d.waitReady g w))).advance 4
    else (queueWait g w d).graver g = { v with stall := some w } := by
  subst graver
  unfold queueWait
  split
  · exact graverResult_graver ..
  · by_cases ready : d.waitReady g w ≠ 0 ∨ d.waitIrq g = true
    · rw [if_pos ready, if_pos (by simpa using ready)]
      exact graverResult_graver ..
    · rw [if_neg ready, if_neg (by simpa using ready)]
      exact Dev.graver_modGraver_same ..

theorem queueResume_resumes {irq : Bool} {w : QStall} (stalled : (d.graver g).stall = some w)
    (ready : d.waitReady g w ≠ 0 ∨ d.waitIrq g = true) : queueResume g irq d =
      .ok (graverResult g w.rd (BitVec.ofNat 64 (d.waitReady g w)) (d.modGraver g fun v => { v with stall := none })) := by
  unfold queueResume
  rw [stalled]
  exact if_pos (by rcases ready with some' | irq' <;> simp [*])

/-! ### Failures (R363 to R367) -/

/-- The device with a graver failed, before a spare is looked for. -/
def graverFailed (g cause : Nat) (d : Dev) : Dev :=
  let d := match (d.graver g).slot with
    | some e => d.modEtch e fun x => { x with graver := none, waiting := none, events := [] }
    | none => d
  let d := d.modGraver g fun v => { v with st := .failed, cause := cause, stall := none, slot := none }
  graverFault ((d.modGrv fun x => { x with lost := x.lost ++ [g] }).wr Fd.GRV_EVT_FAIL 1)

theorem failGraver_run (cause : Nat) (run : (s.dev.graver g).st = .run) :
    failGraver g cause s = (takeEtching (s.modDev (graverFailed g cause))).modDev graverShortage := by
  unfold failGraver
  rw [run]
  rfl

/-- What a failure leaves: the graver failed for its cause, the others as they were. -/
theorem graverFailed_left (g cause : Nat) (d : Dev) : ((graverFailed g cause d).graver g).st = .failed ∧
    ((graverFailed g cause d).graver g).cause = cause ∧ (∀ h, h ≠ g → (graverFailed g cause d).graver h = d.graver h) ∧
    (graverFailed g cause d).grv.lost = d.grv.lost ++ [g] ∧ (graverFailed g cause d).rd Fd.GRV_EVT_FAIL = 1 := by
  unfold graverFailed
  generalize released : (match (d.graver g).slot with
    | some e => d.modEtch e fun x => { x with graver := none, waiting := none, events := [] }
    | none => d) = e
  have gravers : e.grv.gravers = d.grv.gravers ∧ e.grv.lost = d.grv.lost := by
    rw [← released]
    split <;> exact ⟨rfl, rfl⟩
  obtain ⟨same, lost⟩ := gravers
  dsimp only
  generalize failed : e.modGraver g _ = f
  have kept : (graverFault ((f.modGrv fun x => { x with lost := x.lost ++ [g] }).wr Fd.GRV_EVT_FAIL 1)).grv =
      { f.grv with lost := f.grv.lost ++ [g] } := ((graverFault_keeps _).grv (by rfl)).trans (Dev.wr_grv _ _ _)
  have graver (h : Nat) : (graverFault ((f.modGrv fun x => { x with lost := x.lost ++ [g] }).wr Fd.GRV_EVT_FAIL 1)).graver h =
      f.graver h := by
    rw [Dev.graver, kept]
    rfl
  have mine : f.graver g = { e.graver g with st := .failed, cause := cause, stall := none, slot := none } := by
    rw [← failed]
    exact Dev.graver_modGraver_same ..
  refine ⟨by rw [graver, mine], by rw [graver, mine], fun h other => ?_, ?_, ?_⟩
  · rw [graver, ← failed, Dev.graver_modGraver_other _ _ other, Dev.graver, same]
    rfl
  · rw [kept, ← failed]
    exact congrArg (· ++ [g]) lost
  · exact ((graverFault_keeps _).rd _ (by rfl)).trans (Dev.rd_wr_same _ _ (by decide) (by decide))

/-- The gravers in RUN beside one. -/
def Dev.othersRun (d : Dev) (g : Nat) : List Nat := (List.range 64).filter fun h => decide (h ≠ g) && (d.graver h).st == .run

/-- A device in which one graver no longer runs, and the others are as they were, has the other gravers in RUN. -/
theorem graversIn_run {d e : Dev} (stopped : (e.graver g).st ≠ .run) (others : ∀ h, h ≠ g → e.graver h = d.graver h) :
    e.graversIn .run = d.othersRun g := by
  refine List.filter_congr fun h _ => ?_
  by_cases at' : h = g
  · subst at'
    simp [stopped]
  · rw [others h at']
    simp [at']

theorem graverShortage_enough {d e : Dev} (stopped : (e.graver g).st ≠ .run) (others : ∀ h, h ≠ g → e.graver h = d.graver h)
    (enough : 8 ≤ (d.othersRun g).length) : graverShortage e = e := by
  rw [graverShortage, graversIn_run stopped others, if_neg (by omega)]

/-- With a spare left and enough gravers in RUN, a failure changes the graver alone. -/
theorem failGraver_left {cause : Nat} (run : (s.dev.graver g).st = .run) (spare : ∃ h < 64, (s.dev.graver h).st = .spare)
    (enough : 8 ≤ (s.dev.othersRun g).length) : failGraver g cause s = s.modDev (graverFailed g cause) := by
  obtain ⟨failed, -, others, -, -⟩ := graverFailed_left g cause s.dev
  obtain ⟨h, small, st⟩ := spare
  have apart : h ≠ g := by rintro rfl; rw [st] at run; exact absurd run (by decide)
  have held : ((graverFailed g cause s.dev).graversIn .spare).isEmpty = false := by
    have mem : h ∈ (graverFailed g cause s.dev).graversIn .spare :=
      List.mem_filter.2 ⟨List.mem_range.2 small, by rw [others h apart, st]; rfl⟩
    exact List.isEmpty_eq_false_iff.2 (List.ne_nil_of_mem mem)
  have kept : takeEtching (s.modDev (graverFailed g cause)) = s.modDev (graverFailed g cause) := by
    unfold takeEtching
    rw [State.modDev_dev, held]
    exact if_pos rfl
  rw [failGraver_run _ run, kept]
  unfold State.modDev
  dsimp only
  rw [graverShortage_enough (by rw [failed]; decide) others enough]

/-! ### Stops of etchings (R378) -/

theorem noteStop_left (e cause : Nat) (d : Dev) : ((noteStop e cause d).etch e).stops = (d.strk.count, cause) :: (d.etch e).stops ∧
    (noteStop e cause d).rd Fd.GRV_EVT_ETCH_STOP = 1 := by
  refine ⟨?_, Dev.rd_wr_same _ _ (by decide) (by decide)⟩
  have slot : (noteStop e cause d).etch e =
      { d.etch e with stops := (d.strk.count, cause) :: (d.etch e).stops, waiting := none, events := [] } := by
    rw [Dev.etch, noteStop, Dev.wr_grv]
    exact Dev.etch_modEtch_same ..
  rw [slot]

theorem etchStop_stops {e cause : Nat} (held : (s.dev.etch e).graver = some g) :
    ((etchStop e cause s).dev.etch e).stops = (s.dev.strk.count, cause) :: (s.dev.etch e).stops ∧
    (etchStop e cause s).dev.rd Fd.GRV_EVT_ETCH_STOP = 1 ∧
    (((etchStop e cause s).dev.etch e).disabled = false →
      ((etchStop e cause s).dev.graver g).st = .etch ∧ ((etchStop e cause s).dev.graver g).machine = false) := by
  obtain ⟨stops, told⟩ := noteStop_left e cause s.dev
  unfold etchStop
  rw [held]
  dsimp only
  split
  · obtain ⟨f, dev, starts⟩ := etchStart_starts e g (s.modDev (noteStop e cause))
    rw [dev]
    refine ⟨stops, told, fun _ => ?_⟩
    rw [Dev.graver_modGraver_same]
    obtain ⟨st, machine, -⟩ := starts ((s.modDev (noteStop e cause)).dev.graver g)
    exact ⟨st, machine⟩
  · generalize disables : State.modDev (s.modDev (noteStop e cause)) _ = t
    have slot : t.dev.etch e = { (noteStop e cause s.dev).etch e with disabled := true, graver := none } := by
      rw [← disables]
      exact Dev.etch_modEtch_same ..
    obtain ⟨f, dev, -⟩ := releaseGraver_dev g t
    rw [dev]
    have kept : (t.dev.modGraver g f).etch e = t.dev.etch e := rfl
    refine ⟨by rw [kept, slot]; exact stops, ?_, fun enabled => ?_⟩
    · rw [← told, ← disables]
      rfl
    · rw [kept, slot] at enabled
      exact absurd enabled.symm Bool.false_ne_true

/-- WATCHDOG_EXPIRY of a graver whose watchdog has run out. -/
theorem watchdogExpiry_expires {g : Fin 64} (armed : s.dev.rdb g Fd.GRV_WD_LIMIT ≠ 0)
    (late : (s.dev.graver g).petAt + s.dev.rdb g Fd.GRV_WD_LIMIT ≤ s.dev.strk.ran) :
    ((s.dev.graver g).st = .run → exec (.watchdogExpiry g) s = .next (failGraver g 1 s)) ∧
    (∀ e, (s.dev.graver g).st = .etch → (s.dev.graver g).slot = some e → exec (.watchdogExpiry g) s = .next (etchStop e 3 s)) := by
  have expired : ¬ (decide (s.dev.rdb g Fd.GRV_WD_LIMIT = 0) ||
      decide (s.dev.strk.ran < (s.dev.graver g).petAt + s.dev.rdb g Fd.GRV_WD_LIMIT)) = true := by
    simp [armed, late]
  refine ⟨fun run => ?_, fun e etch slot => ?_⟩
  · change execWatchdogExpiry g s = _
    unfold execWatchdogExpiry
    dsimp only
    rw [if_neg expired, run]
  · change execWatchdogExpiry g s = _
    unfold execWatchdogExpiry
    dsimp only
    rw [if_neg expired, etch, slot]

/-! ### GRV.CTL (R363, R373, R381) -/

/-- A write of GRV.CTL with its reserved bits clear, one bit of it set, acts alone. -/
theorem grvCtlStore_plain {v i : Nat} (plain : bits v 31 4 = 0) (small : i < 4) :
    grvCtlStore (setBits v i i 1) s = .next (grvCtlWrite (setBits v i i 1) s) :=
  congrArg Host.Outcome.next (orRsvWide_plain (by
    rw [bits_setBits_above small (Nat.le_refl i), plain]
    rfl))

theorem grvCtlWrite_run {v : Nat} (alone : bits v 3 1 = 0) (halted : (s.dev.graver (s.dev.rd Fd.GRV_SEL_GRAVER)).st = .halt) :
    grvCtlWrite (setBits v 0 0 1) s = s.modDev (runGraver (s.dev.rd Fd.GRV_SEL_GRAVER)) := by
  unfold grvCtlWrite
  rw [bit_setBits_same, bit_setBits_of_zero alone (by decide) (by decide) (by decide),
    bit_setBits_of_zero alone (by decide) (by decide) (by decide), bit_setBits_of_zero alone (by decide) (by decide) (by decide)]
  dsimp only
  rw [halted]
  rfl

/-- The device with a graver halted. -/
def graverHalted (g : Nat) (d : Dev) : Dev := d.modGraver g fun x => { x with st := .halt, stall := none }

theorem graverHalted_graver (g : Nat) (d : Dev) : ((graverHalted g d).graver g).st = .halt := by
  rw [graverHalted, Dev.graver_modGraver_same]

theorem grvCtlWrite_halt {v : Nat} (low : bits v 0 0 = 0) (high : bits v 3 2 = 0)
    (running : (s.dev.graver (s.dev.rd Fd.GRV_SEL_GRAVER)).st = .run) (enough : 8 ≤ (s.dev.othersRun (s.dev.rd Fd.GRV_SEL_GRAVER)).length) :
    grvCtlWrite (setBits v 1 1 1) s = s.modDev (graverHalted (s.dev.rd Fd.GRV_SEL_GRAVER)) := by
  have served : graverShortage (graverHalted (s.dev.rd Fd.GRV_SEL_GRAVER) s.dev) = graverHalted (s.dev.rd Fd.GRV_SEL_GRAVER) s.dev :=
    graverShortage_enough (by rw [graverHalted_graver]; decide) (fun h other => Dev.graver_modGraver_other _ _ other) enough
  unfold grvCtlWrite
  rw [bit_setBits_same, bit_setBits_of_zero low (by decide) (by decide) (by decide),
    bit_setBits_of_zero high (by decide) (by decide) (by decide), bit_setBits_of_zero high (by decide) (by decide) (by decide)]
  simp only [Bool.false_and, Bool.false_eq_true, if_false]
  rw [running]
  exact congrArg (fun d => ({ s with dev := d } : State)) served

theorem grvCtlWrite_fail {v : Nat} (low : bits v 1 0 = 0) (high : bits v 3 3 = 0) :
    grvCtlWrite (setBits v 2 2 1) s = failGraver (s.dev.rd Fd.GRV_SEL_GRAVER) 5 s := by
  unfold grvCtlWrite
  rw [bit_setBits_same, bit_setBits_of_zero low (by decide) (by decide) (by decide),
    bit_setBits_of_zero low (by decide) (by decide) (by decide), bit_setBits_of_zero high (by decide) (by decide) (by decide)]
  rfl

theorem grvCtlWrite_mlock (v : Nat) : (grvCtlWrite (setBits v 3 3 1) s).dev.grv.mlock = true := by
  unfold grvCtlWrite
  extract_lets _ _ _ t
  rw [bit_setBits_same, if_pos rfl]
  rfl

/-! ### Migration and measurements (R365, R373) -/

/-- The first step of `moveRole` for one queue. -/
def moveQueue (f t q : Nat) (d : Dev) : Dev := if d.owner q = f then d.wrb q Fd.GRV_QOWN_OWNER t else d

theorem moveQueue_same {f t q : Nat} (fits : t < 64) (d : Dev) :
    (moveQueue f t q d).owner q = if d.owner q = f then t else d.owner q := by
  unfold moveQueue
  split
  · exact (Dev.rdb_wrb_same _ _ _ (by decide) (by decide)).trans (Nat.mod_eq_of_lt fits)
  · rfl

theorem moveQueue_other {f t q k : Nat} (other : q ≠ k) (d : Dev) : (moveQueue f t k d).owner q = d.owner q := by
  unfold moveQueue
  split
  · exact Dev.rdx_wrx_other _ _ (by unfold RegDef.key; omega)
  · rfl

/-- A queue of the failed graver goes to the one that takes its place. -/
theorem moveRole_owner {f t q : Nat} {d : Dev} (fits : t < 64) (queue : q < 512) (owned : d.owner q = f) : (moveRole f t d).owner q = t := by
  have first : (forUpTo 512 (moveQueue f t) d).owner q = t := by
    unfold forUpTo
    refine foldl_establishes_under (I := fun e : Dev => e.owner q = f ∨ e.owner q = t) (P := fun e : Dev => e.owner q = t)
      (fun e k either => ?_) (fun e either => ?_) (fun e k moved => ?_) (List.mem_range.2 queue) d (.inl owned)
    · by_cases at' : q = k
      · subst at'
        rw [moveQueue_same fits]
        rcases either with same | moved
        · exact .inr (if_pos same)
        · split
          · exact .inr rfl
          · exact .inr moved
      · rwa [moveQueue_other at']
    · rw [moveQueue_same fits]
      rcases either with same | moved
      · exact if_pos same
      · split
        · rfl
        · exact moved
    · by_cases at' : q = k
      · subst at'
        rw [moveQueue_same fits]
        split
        · rfl
        · exact moved
      · rwa [moveQueue_other at']
  refine forUpTo_keeps (P := fun e : Dev => e.owner q = t) first fun i e moved => ?_
  split
  · exact (Dev.rdx_wrx_reg (by decide)).trans moved
  · exact moved

/-- The device with a graver's START and LIMIT copied to another. -/
def startCopied (f t : Nat) (d : Dev) : Dev :=
  let d := d.wrb t Fd.GRV_START_LO_ADDR (d.rdb f Fd.GRV_START_LO_ADDR)
  let d := d.wrb t Fd.GRV_START_HI_ADDR (d.rdb f Fd.GRV_START_HI_ADDR)
  d.wrb t Fd.GRV_WD_LIMIT (d.rdb f Fd.GRV_WD_LIMIT)

theorem startCopied_startOf (f t : Nat) (d : Dev) : (startCopied f t d).startOf t = d.startOf f := by
  have low : (startCopied f t d).rdb t Fd.GRV_START_LO_ADDR = d.rdb f Fd.GRV_START_LO_ADDR :=
    (Dev.rdx_wrx_reg (by decide)).trans ((Dev.rdx_wrx_reg (by decide)).trans
      ((Dev.rdb_wrb_same _ _ _ (by decide) (by decide)).trans (Nat.mod_eq_of_lt (bits_lt _ 31 0))))
  have high : (startCopied f t d).rdb t Fd.GRV_START_HI_ADDR = d.rdb f Fd.GRV_START_HI_ADDR :=
    (Dev.rdx_wrx_reg (by decide)).trans ((Dev.rdb_wrb_same _ _ _ (by decide) (by decide)).trans
      ((Nat.mod_eq_of_lt (bits_lt _ 7 0)).trans (Dev.rdx_wrx_reg (by decide))))
  rw [Dev.startOf, low, high]
  rfl

theorem startCopied_grv (f t : Nat) (d : Dev) : (startCopied f t d).grv = d.grv ∧ (startCopied f t d).strk = d.strk := ⟨rfl, rfl⟩

theorem startCopied_owner (f t q : Nat) (d : Dev) : (startCopied f t d).owner q = d.owner q :=
  (Dev.rdx_wrx_reg (by decide)).trans ((Dev.rdx_wrx_reg (by decide)).trans (Dev.rdx_wrx_reg (by decide)))

theorem startOf_of_rdb {d e : Dev} {g : Nat} (low : e.rdb g Fd.GRV_START_LO_ADDR = d.rdb g Fd.GRV_START_LO_ADDR)
    (high : e.rdb g Fd.GRV_START_HI_ADDR = d.rdb g Fd.GRV_START_HI_ADDR) : e.startOf g = d.startOf g := by
  rw [Dev.startOf, low, high]
  rfl

theorem owner_of_regs {d e : Dev} (same : e.regs = d.regs) (q : Nat) : e.owner q = d.owner q := by
  unfold Dev.owner Dev.rdb Dev.rdx Dev.regGet
  rw [same]

theorem runGraver_left (t : Nat) (d : Dev) : (runGraver t d).grv.moves = d.grv.moves ∧ (runGraver t d).grv.lost = d.grv.lost ∧
    (runGraver t d).regs = d.regs := ⟨rfl, rfl, rfl⟩

theorem graverMigrate_refuses {v : Nat} (bad : (d.graver (bits v 5 0)).st ≠ .failed ∨ (d.graver (bits v 13 8)).st ≠ .spare) :
    (graverMigrate v d).rd Fd.GRV_EVT_MIG_REF = 1 ∧ (graverMigrate v d).grv = d.grv := by
  have refused : graverMigrate v d = d.wr Fd.GRV_EVT_MIG_REF 1 := by
    refine if_neg fun both => ?_
    obtain ⟨failed, spare⟩ := Bool.and_eq_true_iff.1 both
    rcases bad with bad | bad
    · exact bad (beq_iff_eq.1 failed)
    · exact bad (beq_iff_eq.1 spare)
  rw [refused]
  exact ⟨Dev.rd_wr_same _ _ (by decide) (by decide), Dev.wr_grv _ _ _⟩

theorem graverMigrate_migrates {v f t : Nat} (from' : f = bits v 5 0) (to' : t = bits v 13 8) (failed : (d.graver f).st = .failed)
    (spare : (d.graver t).st = .spare) : ((graverMigrate v d).graver t).st = .run ∧ ((graverMigrate v d).graver t).machine = true ∧
      ((graverMigrate v d).graver t).pc = d.startOf f ∧
      (graverMigrate v d).grv.moves = ((d.strk.count, f, t) :: d.grv.moves).take 64 ∧
      (graverMigrate v d).grv.lost = d.grv.lost.filter (· ≠ f) ∧ ∀ q < 512, d.owner q = f → (graverMigrate v d).owner q = t := by
  have fits : t < 64 := to' ▸ bits_lt v 13 8
  have row : graverMigrate v d = (runGraver t (startCopied f t (moveRole f t d))).modGrv fun x =>
      { x with moves := (((startCopied f t (moveRole f t d)).strk.count, f, t) :: x.moves).take 64, lost := x.lost.filter (· ≠ f) } := by
    subst from' to'
    unfold graverMigrate
    dsimp only
    rw [if_pos (by rw [failed, spare]; rfl), startCopied]
  obtain ⟨grv, strk⟩ := startCopied_grv f t (moveRole f t d)
  have role := moveRole_keeps f t d
  have startAt : (startCopied f t (moveRole f t d)).startOf t = d.startOf f :=
    (startCopied_startOf f t _).trans (startOf_of_rdb (role.rdb _ _ (by rfl)) (role.rdb _ _ (by rfl)))
  have owner (q : Nat) (queue : q < 512) (owned : d.owner q = f) : (startCopied f t (moveRole f t d)).owner q = t :=
    (startCopied_owner f t q _).trans (moveRole_owner fits queue owned)
  rw [row]
  rw [role.grv (by rfl)] at grv
  rw [role.strk (by rfl)] at strk
  generalize startCopied f t (moveRole f t d) = e at grv strk startAt owner
  have graver : (runGraver t e).graver t = { e.graver t with st := .run, machine := true, pc := e.startOf t, stall := none, petAt := e.strk.ran } :=
    Dev.graver_modGraver_same ..
  have kept : (runGraver t e).grv.moves = d.grv.moves ∧ (runGraver t e).grv.lost = d.grv.lost ∧ (runGraver t e).regs = e.regs := by
    obtain ⟨moves, lost, regs⟩ := runGraver_left t e
    exact ⟨moves.trans (congrArg Grv.moves grv), lost.trans (congrArg Grv.lost grv), regs⟩
  generalize runGraver t e = x at graver kept
  obtain ⟨moves, lost, regs⟩ := kept
  have same (h : Grv → Grv) (gravers : (h x.grv).gravers = x.grv.gravers) : (x.modGrv h).graver t = x.graver t := graver_of_gravers gravers t
  refine ⟨?_, ?_, ?_, ?_, ?_, fun q queue owned => (owner_of_regs (by exact regs) q).trans (owner q queue owned)⟩
  · rw [same _ rfl, graver]
  · rw [same _ rfl, graver]
  · rw [same _ rfl, graver]
    exact startAt
  · rw [← moves, ← strk]
    rfl
  · rw [← lost]
    rfl

theorem measDigest_of_regs {d e : Dev} (same : e.regs = d.regs) : e.measDigest = d.measDigest := by
  unfold Dev.measDigest Dev.regGet
  rw [same]

theorem extendMeas_meas (i : Nat) (digest : BitVec 384) (d : Dev) : (extendMeas i digest d).meas i =
    Config.sha384 (leBytes 48 (d.meas i).toNat ++ leBytes 48 digest.toNat) := mapGet_set_same _ _ _ _

theorem measExtend_extends (v : Nat) (d : Dev) : ∃ i, i = d.rd Fd.GRV_MEAS_SEL_INDEX ∧
    if i = 0 then (measExtend v d).grv = d.grv
    else if d.grv.mlock = true ∧ i ≤ 4 then (measExtend v d).grv = d.grv ∧ (measExtend v d).rd Fd.GRV_EVT_MEAS_REF = 1
    else (measExtend v d).meas i = Config.sha384 (leBytes 48 (d.meas i).toNat ++ leBytes 48 (measExtend v d).measDigest.toNat) := by
  refine ⟨_, rfl, ?_⟩
  have index : (d.regSet Rg.GRV_MEAS_EXT11 0 0 v).rd Fd.GRV_MEAS_SEL_INDEX = d.rd Fd.GRV_MEAS_SEL_INDEX := Dev.rdx_regSet_reg (by decide)
  unfold measExtend
  dsimp only
  rw [index]
  have grv : (d.regSet Rg.GRV_MEAS_EXT11 0 0 v).grv = d.grv := Dev.regSet_grv ..
  generalize d.regSet Rg.GRV_MEAS_EXT11 0 0 v = e at grv
  by_cases zero : d.rd Fd.GRV_MEAS_SEL_INDEX = 0
  · rw [if_pos zero, if_pos zero]
    exact grv
  · rw [if_neg zero, if_neg zero, grv]
    by_cases locked : d.grv.mlock = true ∧ d.rd Fd.GRV_MEAS_SEL_INDEX ≤ 4
    · rw [if_pos locked, if_pos (by simpa using locked)]
      exact ⟨(Dev.wr_grv _ _ _).trans grv, Dev.rd_wr_same _ _ (by decide) (by decide)⟩
    · rw [if_neg locked, if_neg (by simpa using locked)]
      have same : e.meas (d.rd Fd.GRV_MEAS_SEL_INDEX) = d.meas (d.rd Fd.GRV_MEAS_SEL_INDEX) := by rw [Dev.meas, grv]; rfl
      have digest : (extendMeas (d.rd Fd.GRV_MEAS_SEL_INDEX) e.measDigest e).measDigest = e.measDigest := measDigest_of_regs (by rfl)
      rw [← same, digest]
      exact extendMeas_meas _ _ _

end

end Sys2Proof.Machine

/-! PROOFS. Memory accesses of a graver in M-mode: loads, stores, LR, SC and AMOs on local SRAM, loads of the boot ROM (R27, R355). -/

namespace Sys2Proof.Machine

/-! ### Bytes stored and read back -/

theorem leBytes_length (n v : Nat) : (leBytes n v).length = n := by
  induction n generalizing v with
  | zero => rfl
  | succ n ih => rw [leBytes, List.length_cons, ih]

theorem memGet_memFill_before (bs : List Byte) {k a : Nat} (m : Memory) (before : a < k) : memGet (memFill m k bs) a = memGet m a := by
  induction bs generalizing m k with
  | nil => rfl
  | cons b bs ih => rw [memFill, ih _ (by omega), memGet, memPut, mapGet_set_other _ _ _ _ (by omega)]; rfl

theorem memGet_memFill (bs : List Byte) {k i : Nat} (m : Memory) (inside : i < bs.length) : memGet (memFill m k bs) (k + i) = bs[i] := by
  induction bs generalizing m k i with
  | nil => exact absurd inside (Nat.not_lt_zero _)
  | cons b bs ih =>
    rw [memFill]
    cases i with
    | zero =>
      rw [Nat.add_zero, memGet_memFill_before _ _ (by omega)]
      exact mapGet_set_same _ _ _ _
    | succ i =>
      rw [show k + (i + 1) = k + 1 + i by omega, ih _ (by simpa using inside)]
      rfl

/-- Bytes stored on local SRAM are read back. -/
theorem readReach_stored {t : State} {m : Memory} {k n v : Nat} (stored : t.mem = memFill m k (leBytes n v)) :
    t.readReach (.sram k) n = leBytes n v := by
  refine List.ext_getElem (by simp [State.readReach, leBytes_length]) fun i _ inside => ?_
  unfold State.readReach
  dsimp only
  simp only [stored, List.getElem_map, List.getElem_range]
  exact memGet_memFill _ _ inside

/-! ### The access once it is permitted -/

theorem memEnd_graver (g rd len : Nat) (w : Option Nat) (d : Dev) : (memEnd g rd len w d).graver g =
    (match w with | some x => (d.graver g).setReg rd (BitVec.ofNat 64 x) | none => d.graver g).advance len :=
  Dev.graver_modGraver_same ..

section

variable {s : State} {g a n len : Nat} {v : Graver} {op : MemOp} {comp : Bool}

/-- An aligned access in M-mode that has a meaning, and reaches local SRAM or, for a load, the boot ROM, is made. -/
theorem graverAccess_made (address : a = v.addrOf op) (graver : v = s.dev.graver g) (size : n = 2 ^ op.log2.val)
    (length : len = if comp then 2 else 4) (legal : op.illegal comp = false) (aligned : a % n = 0) (machine : v.machine = true)
    (reaches : (∃ k, s.dev.reach g a = .sram k) ∨ op.kind = .load ∧ ∃ o, s.dev.reach g a = .rom o) :
    graverAccess g op comp s = memAccess g a len (s.dev.reach g a) op s := by
  subst address graver size length
  unfold graverAccess
  dsimp only
  rw [if_neg (by simp [legal]), if_neg (by simp [aligned]), if_neg (by simp [machine])]
  rcases reaches with ⟨k, sram⟩ | ⟨load, o, rom⟩
  · rw [sram]
  · rw [rom]
    exact if_pos (by rw [load]; rfl)

/-- The value a read of `n` bytes gives a register. -/
def widened (op : MemOp) (n x : Nat) : Nat := if op.unsigned then x else signExtend n x

/-- The state after the bytes of a value are stored on local SRAM. -/
def sramStored (k n x : Nat) (s : State) : State := s.writeReach (.sram k) (leBytes n x)

theorem sramStored_left (k n x : Nat) (s : State) : (sramStored k n x s).mem = memFill s.mem k (leBytes n x) ∧
    (sramStored k n x s).dev = s.dev := ⟨rfl, rfl⟩

theorem memAccess_load {r : Reach} (load : op.kind = .load) (size : n = 2 ^ op.log2.val) :
    (memAccess g a len r op s).mem = s.mem ∧ (memAccess g a len r op s).dev.graver g =
      ((s.dev.graver g).setReg op.rd (BitVec.ofNat 64 (widened op n (leNat (s.readReach r n))))).advance len := by
  subst size
  unfold memAccess
  dsimp only
  rw [load]
  dsimp only
  cases r <;> exact ⟨rfl, memEnd_graver ..⟩

theorem memAccess_store {k : Nat} (store : op.kind = .store) (size : n = 2 ^ op.log2.val) :
    (memAccess g a len (.sram k) op s).mem = memFill s.mem k (leBytes n (((s.dev.graver g).reg op.rs2).toNat % 2 ^ (8 * n))) ∧
    (memAccess g a len (.sram k) op s).dev.graver g = (s.dev.graver g).advance len := by
  subst size
  unfold memAccess
  dsimp only
  rw [store]
  exact ⟨rfl, memEnd_graver ..⟩

theorem memAccess_lr {k : Nat} (lr : op.kind = .lr) (size : n = 2 ^ op.log2.val) :
    (memAccess g a len (.sram k) op s).mem = s.mem ∧ (memAccess g a len (.sram k) op s).dev.graver g =
      ({ s.dev.graver g with resv := some a }.setReg op.rd (BitVec.ofNat 64 (widened op n (leNat (s.readReach (.sram k) n))))).advance len := by
  subst size
  unfold memAccess
  dsimp only
  rw [lr]
  refine ⟨rfl, (memEnd_graver ..).trans ?_⟩
  dsimp only [State.modDev]
  rw [Dev.graver_modGraver_same]
  rfl

theorem memAccess_sc {k : Nat} (sc : op.kind = .sc) (size : n = 2 ^ op.log2.val) :
    (memAccess g a len (.sram k) op s).mem = (if (s.dev.graver g).resv = some a then
        memFill s.mem k (leBytes n (((s.dev.graver g).reg op.rs2).toNat % 2 ^ (8 * n))) else s.mem) ∧
    (memAccess g a len (.sram k) op s).dev.graver g =
      ({ s.dev.graver g with resv := none }.setReg op.rd (if (s.dev.graver g).resv = some a then 0 else 1)).advance len := by
  subst size
  unfold memAccess
  dsimp only
  rw [sc]
  dsimp only
  by_cases held : (s.dev.graver g).resv = some a
  · rw [if_pos held, if_pos held, if_pos (beq_iff_eq.2 held), if_pos (beq_iff_eq.2 held)]
    refine ⟨rfl, (memEnd_graver ..).trans ?_⟩
    dsimp only [State.modDev]
    rw [Dev.graver_modGraver_same]
    rfl
  · rw [if_neg held, if_neg held, if_neg (by simpa using held), if_neg (by simpa using held)]
    refine ⟨rfl, (memEnd_graver ..).trans ?_⟩
    dsimp only [State.modDev]
    rw [Dev.graver_modGraver_same]
    rfl

theorem memAccess_amo {k : Nat} (amo : op.kind.isAmo = true) (size : n = 2 ^ op.log2.val) :
    (memAccess g a len (.sram k) op s).mem = memFill s.mem k (leBytes n (amoResult op.kind n (leNat (s.readReach (.sram k) n))
      (((s.dev.graver g).reg op.rs2).toNat % 2 ^ (8 * n)))) ∧
    (memAccess g a len (.sram k) op s).dev.graver g =
      ((s.dev.graver g).setReg op.rd (BitVec.ofNat 64 (widened op n (leNat (s.readReach (.sram k) n))))).advance len := by
  subst size
  unfold memAccess
  dsimp only
  split
  next kind => rw [kind] at amo; exact absurd amo (by decide)
  next kind => rw [kind] at amo; exact absurd amo (by decide)
  next kind => rw [kind] at amo; exact absurd amo (by decide)
  next kind => rw [kind] at amo; exact absurd amo (by decide)
  next => exact ⟨rfl, memEnd_graver ..⟩

end

/-! ### A graver's row at a cycle -/

/-- The state at a cycle of the stroke. -/
def cycled (cyc : BitVec 10) (s : State) : State := s.modDev fun d => d.atCycle cyc

theorem cycled_left (cyc : BitVec 10) (s : State) (g a : Nat) : (cycled cyc s).mem = s.mem ∧ (cycled cyc s).dev.graver g = s.dev.graver g ∧
    (cycled cyc s).dev.reach g a = s.dev.reach g a := by
  have dram : (cycled cyc s).dev.dram = s.dev.dram := Dev.atCycle_dram ..
  have grv : (cycled cyc s).dev.grv = s.dev.grv := Dev.atCycle_grv ..
  refine ⟨rfl, graver_of_gravers (by rw [grv]) g, ?_⟩
  rw [Dev.reach, Dev.reach, dram]

/-- Local SRAM and the boot ROM read the same at any cycle. -/
theorem cycled_readReach (cyc : BitVec 10) (s : State) {r : Reach} (n : Nat) (plain : (∃ k, r = .sram k) ∨ ∃ o, r = .rom o) :
    (cycled cyc s).readReach r n = s.readReach r n := by
  rcases plain with ⟨k, rfl⟩ | ⟨o, rfl⟩ <;> rfl

theorem graverLoadStore_accesses {g : Fin 64} {op : MemOp} {comp : Bool} {cyc : BitVec 10} {s : State} {v : Graver} {a n len : Nat}
    (executes : s.dev.executes g = true) (graver : v = s.dev.graver g) (address : a = v.addrOf op) (size : n = 2 ^ op.log2.val)
    (length : len = if comp then 2 else 4) (legal : op.illegal comp = false) (aligned : a % n = 0) (machine : v.machine = true)
    (reaches : (∃ k, s.dev.reach g a = .sram k) ∨ op.kind = .load ∧ ∃ o, s.dev.reach g a = .rom o) :
    exec (.graverLoadStore g op comp cyc) s = .next (memAccess g a len (s.dev.reach g a) op (cycled cyc s)) := by
  obtain ⟨-, same, reach⟩ := cycled_left cyc s g a
  have made := graverAccess_made (s := cycled cyc s) address (graver.trans same.symm) size length legal aligned machine (by rw [reach]; exact reaches)
  rw [reach] at made
  rw [← made]
  exact if_pos executes

/-- Settles O45: each row of the gravers, by the graver, the queue and the memory it leaves. -/
theorem graversAct : Obligations.GraversAct := by
  refine ⟨fun g rd rs1 rs2 s v q executes graver queue => givesDev_onGraver executes (queuePush_pushes rd rs1 rs2 graver queue),
    fun g rd rs1 s v q executes graver queue => givesDev_onGraver executes (queuePop_pops rd rs1 graver queue),
    fun g rd rs1 s v executes graver p mem w wait => ?_,
    fun g irq s w stalled ready => givesDev_of_ok (queueResume_resumes stalled ready) ?_,
    fun g v s => givesDev_always (f := fun d => d.modGraver g fun x => { x with petAt := d.strk.ran })
      (Dev.graver_modGraver_same s.dev g fun x => { x with petAt := s.dev.strk.ran }),
    fun g s armed late => ⟨fun run spare enough => ?_, fun e etch slot held => ?_⟩,
    fun e c s g held => ⟨etchStop e (c.val + 1) s, if_pos (by rw [held]; rfl), etchStop_stops held⟩,
    fun v s plain alone halted => ⟨_, (grvCtlStore_plain plain (by decide)).trans (congrArg _ (grvCtlWrite_run alone halted)), ?_⟩,
    fun v s plain low high running enough =>
      ⟨_, (grvCtlStore_plain plain (by decide)).trans (congrArg _ (grvCtlWrite_halt low high running enough)), graverHalted_graver ..⟩,
    fun v s plain low high running spare enough =>
      ⟨_, (grvCtlStore_plain plain (by decide)).trans (congrArg _ ((grvCtlWrite_fail low high).trans (failGraver_left running spare enough))), ?_⟩,
    fun v s plain => ⟨_, grvCtlStore_plain plain (by decide), grvCtlWrite_mlock v.toNat⟩,
    fun v s high low => givesDev_orRsv (by simp [migrateRsv, high, low])
      ⟨_, _, rfl, rfl, fun failed spare => graverMigrate_migrates rfl rfl failed spare, fun bad => graverMigrate_refuses bad⟩,
    fun v s => givesDev_always (measExtend_extends v.toNat s.dev),
    fun g op comp cyc s v a n len executes graver address size length legal aligned machine => ⟨fun o load reach => ?_,
      fun k old src reach was from' => ?_⟩⟩
  · have row : exec p.2 s = onDev s (onGraver g (always fun d => queueWait g { group := p.1, mask := (d.graver g).reg rs1, rd := rd } d)) := by
      rcases List.mem_pair.1 mem with rfl | rfl <;> rfl
    subst graver wait
    rw [row]
    exact givesDev_onGraver executes (queueWait_waits rfl)
  · rw [graverResult_graver, Dev.graver_modGraver_same]
  · obtain ⟨failed, cause, -, lost, told⟩ := graverFailed_left g.val 1 s.dev
    exact ⟨_, ((watchdogExpiry_expires armed late).1 run).trans (congrArg _ (failGraver_left run spare enough)), failed, cause, lost, told⟩
  · obtain ⟨stops, told, -⟩ := etchStop_stops (cause := 3) held
    exact ⟨_, (watchdogExpiry_expires armed late).2 e etch slot, stops, told⟩
  · have graver := Dev.graver_modGraver_same s.dev (s.dev.rd Fd.GRV_SEL_GRAVER) fun v =>
      { v with st := .run, machine := true, pc := s.dev.startOf (s.dev.rd Fd.GRV_SEL_GRAVER), stall := none, petAt := s.dev.strk.ran }
    exact ⟨_, rfl, congrArg Graver.st graver, congrArg Graver.machine graver, congrArg Graver.pc graver⟩
  · obtain ⟨failed, cause, -, -, told⟩ := graverFailed_left (s.dev.rd Fd.GRV_SEL_GRAVER) 5 s.dev
    exact ⟨failed, cause, told⟩
  · obtain ⟨mem, same, -⟩ := cycled_left cyc s g a
    have plain : (∃ k, s.dev.reach g a = .sram k) ∨ ∃ o, s.dev.reach g a = .rom o := by
      rcases reach with sram | rom
      · exact .inl ⟨_, sram⟩
      · exact .inr ⟨_, rom⟩
    have runs := graverLoadStore_accesses (cyc := cyc) executes graver address size length legal aligned machine
      (plain.imp_right fun rom => ⟨load, rom⟩)
    obtain ⟨memory, result⟩ := memAccess_load (g := g) (a := a) (len := len) (s := cycled cyc s) (r := s.dev.reach g a) load size
    rw [same, ← graver, cycled_readReach _ _ _ plain] at result
    exact ⟨_, runs, _, rfl, memory.trans mem, result⟩
  · obtain ⟨mem, same, -⟩ := cycled_left cyc s g a
    have runs := graverLoadStore_accesses (cyc := cyc) executes graver address size length legal aligned machine (.inl ⟨k, reach⟩)
    have held : leNat ((cycled cyc s).readReach (.sram k) n) = old := by rw [cycled_readReach _ _ _ (.inl ⟨k, rfl⟩), was]
    have value : ((v.reg op.rs2).toNat % 2 ^ (8 * n)) = src := from'.symm
    rw [reach] at runs
    refine ⟨fun store => ?_, fun lr => ?_, fun sc resv => ?_, fun sc resv => ?_, fun amo => ?_⟩
    · obtain ⟨memory, result⟩ := memAccess_store (g := g) (a := a) (len := len) (s := cycled cyc s) (k := k) store size
      rw [same, ← graver] at memory result
      rw [value] at memory
      exact ⟨_, runs, readReach_stored memory, result⟩
    · obtain ⟨memory, result⟩ := memAccess_lr (g := g) (a := a) (len := len) (s := cycled cyc s) (k := k) lr size
      rw [same, ← graver, held] at result
      exact ⟨_, runs, memory.trans mem, result⟩
    · obtain ⟨memory, result⟩ := memAccess_sc (g := g) (a := a) (len := len) (s := cycled cyc s) (k := k) sc size
      rw [same, ← graver, if_pos resv] at memory result
      rw [value] at memory
      exact ⟨_, runs, readReach_stored memory, result⟩
    · obtain ⟨memory, result⟩ := memAccess_sc (g := g) (a := a) (len := len) (s := cycled cyc s) (k := k) sc size
      rw [same, ← graver, if_neg resv] at memory result
      exact ⟨_, runs, memory.trans mem, result⟩
    · obtain ⟨memory, result⟩ := memAccess_amo (g := g) (a := a) (len := len) (s := cycled cyc s) (k := k) amo size
      rw [same, ← graver, held] at memory result
      rw [value] at memory
      exact ⟨_, runs, readReach_stored memory, result⟩

end Sys2Proof.Machine

/-! PROOFS. The policy calls of an etching: events, counter sets, proposals, urgent rows, the log and the exit (R379, Table 13-8). -/

namespace Sys2Proof.Machine

/-! ### Calls and what they return -/

theorem callRow_next {g n e : Nat} {s : State} (calls : s.dev.calls g n = some e) (f : Nat → State → State) :
    callRow g n f s = .next (f e s) := by
  unfold callRow
  rw [calls]

/-- A call that is made holds wherever its effect does. -/
theorem callRow_gives {g n e : Nat} {s : State} {f : Nat → State → State} {P : State → Prop} (calls : s.dev.calls g n = some e)
    (holds : P (f e s)) : ∃ t, callRow g n f s = .next t ∧ P t := ⟨_, callRow_next calls f, holds⟩

/-- The result stands in a0, behind the ECALL. -/
theorem callReturn_graver (g : Nat) (w : DWord) (s : State) :
    (callReturn g w s).dev.graver g = ((s.dev.graver g).setReg 10 w).advance 4 := graverResult_graver ..

theorem writeReach_graver (s : State) (r : Reach) (bs : List Byte) (g : Nat) : (s.writeReach r bs).dev.graver g = s.dev.graver g := by
  rw [Dev.graver, Dev.graver, (State.writeReach_keeps s r bs).dev.grv (by rfl)]

theorem writeReach_etch (s : State) (r : Reach) (bs : List Byte) (e : Nat) : (s.writeReach r bs).dev.etch e = s.dev.etch e := by
  rw [Dev.etch, Dev.etch, (State.writeReach_keeps s r bs).dev.grv (by rfl)]

/-- A record written to a buffer of the etching, and its length returned. -/
theorem callReturn_graver_written (g : Nat) (w : DWord) (s : State) (r : Reach) (bs : List Byte) :
    (callReturn g w (s.writeReach r bs)).dev.graver g = ((s.dev.graver g).setReg 10 w).advance 4 := by
  rw [callReturn_graver, writeReach_graver]

/-! ### Events and counter sets -/

theorem evNext_waits (g e : Nat) (s : State) :
    if s.dev.bufferOk g (s.dev.arg g 0) 1 then
      ((evNext g e s).dev.etch e).waiting = some (s.dev.arg g 0, s.dev.arg g 1) ∧ ((evNext g e s).dev.etch e).events = []
    else (evNext g e s).dev.graver g = ((s.dev.graver g).setReg 10 callBad).advance 4 := by
  unfold evNext
  split
  · constructor
    · exact congrArg EtchSlot.waiting (Dev.etch_modEtch_same ..)
    · exact congrArg EtchSlot.events (Dev.etch_modEtch_same ..)
  · exact callReturn_graver ..

/-- The slot whose wait an event has ended. -/
def EtchSlot.woken (x : EtchSlot) : EtchSlot := { x with waiting := none, events := [] }

theorem evReturn_returns {g e a m c : Nat} {s : State} {rec : List Byte} {rest : List (Nat × List Byte)}
    (waits : (s.dev.etch e).waiting = some (a, m)) (event : (s.dev.etch e).events = (c, rec) :: rest)
    (fits : (s.dev.modEtch e EtchSlot.woken).bufferOk g a rec.length = true) :
    evReturn g e s = .ok (callReturn g (BitVec.ofNat 64 rec.length)
      ((s.modDev fun d => d.modEtch e EtchSlot.woken).writeReach ((s.dev.modEtch e EtchSlot.woken).reach g a) rec)) := by
  unfold evReturn
  rw [waits, event]
  exact if_pos fits

theorem execEvNextReturn_returns {g : Fin 64} {s : State} {e a m c : Nat} {rec : List Byte} {rest : List (Nat × List Byte)}
    (slot : (s.dev.graver g).slot = some e) (waits : (s.dev.etch e).waiting = some (a, m))
    (event : (s.dev.etch e).events = (c, rec) :: rest) (fits : (s.dev.modEtch e EtchSlot.woken).bufferOk g a rec.length = true) :
    ∃ t, execEvNextReturn g s = .next t ∧ ((t.dev.etch e).waiting = none ∧ (t.dev.etch e).events = [] ∧
      t.dev.graver g = ((s.dev.graver g).setReg 10 (BitVec.ofNat 64 rec.length)).advance 4) := by
  let s' := s.modDev fun d => d.modEtch e EtchSlot.woken
  let written := s'.writeReach (s'.dev.reach g a) rec
  have woken : (callReturn g (BitVec.ofNat 64 rec.length) written).dev.etch e = (s.dev.etch e).woken := by
    change written.dev.etch e = _
    rw [writeReach_etch]
    exact Dev.etch_modEtch_same ..
  refine ⟨callReturn g (BitVec.ofNat 64 rec.length) written, ?_, congrArg EtchSlot.waiting woken, congrArg EtchSlot.events woken, ?_⟩
  · unfold execEvNextReturn
    rw [slot]
    dsimp only
    rw [evReturn_returns waits event fits]
    rfl
  · exact callReturn_graver_written ..

theorem statRead_returns (g : Nat) (s : State) :
    match s.dev.statSet (s.dev.arg g 0) (s.dev.arg g 1) with
    | some bs => if s.dev.bufferOk g (s.dev.arg g 2) bs.length then
          (statRead g s).dev.graver g = ((s.dev.graver g).setReg 10 (BitVec.ofNat 64 bs.length)).advance 4
        else (statRead g s).dev.graver g = ((s.dev.graver g).setReg 10 callBad).advance 4
    | none => (statRead g s).dev.graver g = ((s.dev.graver g).setReg 10 callBad).advance 4 := by
  unfold statRead
  cases s.dev.statSet (s.dev.arg g 0) (s.dev.arg g 1) with
  | none => exact callReturn_graver ..
  | some bs =>
    dsimp only
    split
    · exact callReturn_graver_written ..
    · exact callReturn_graver ..

/-! ### Proposals -/

theorem hatchPropose_arms {g : Nat} {s s1 s2 : State} {plan mask b1 b2 : List Byte}
    (fits : s.dev.bufferOk g (s.dev.arg g 0) 2064 = true) (low : s.dev.arg g 1 < 2 ^ 32) (high : s.dev.arg g 2 < 2 ^ 32)
    (sheet : s.dev.arg g 3 < 2 ^ 32) (read : plan = s.readReach (s.dev.reach g (s.dev.arg g 0)) 2064)
    (channels : mask = leBytes 4 (s.dev.arg g 1) ++ leBytes 4 (s.dev.arg g 2))
    (written : hatchWrite (mask ++ plan.take 2 ++ List.replicate 6 0 ++ plan.drop 16) s = (jsOk, b1, s1))
    (armed : hatchArmAll (mask ++ leBytes 4 (s.dev.arg g 3) ++ [0, 0, 0, 0]) s1 = (jsOk, b2, s2)) :
    hatchPropose g s = callReturn g 0 s2 := by
  subst read channels
  unfold hatchPropose
  dsimp only
  rw [if_neg (by simp [fits]; omega), written]
  dsimp only
  rw [if_neg (by decide), armed]
  rfl

theorem lendPri_sets {g : Nat} {s s1 : State} {b : List Byte} (channel : s.dev.arg g 0 < 48) (value : s.dev.arg g 1 < 2 ^ 32)
    (set : arbSet (leBytes 8 (2 ^ s.dev.arg g 0) ++ leBytes 4 (s.dev.arg g 1) ++ [0, 0, 0, 0]) s = (jsOk, b, s1)) :
    lendPri g s = callReturn g 0 s1 := by
  unfold lendPri
  dsimp only
  rw [if_neg (by simp; omega), set]
  rfl

/-! ### Urgent rows, the log and the exit -/

/-- The group and the row of a post to `STIP.URG_POST`. -/
theorem urgPost_fields {group row : Nat} (hg : group < 96) (hr : row < q4Blocks) :
    bits (group * 65536 + row) 22 16 = group ∧ bits (group * 65536 + row) 11 0 = row := by
  have hr' : row < 3600 := hr
  unfold bits
  omega

theorem etchUrgent_posts {g : Nat} {s : State} (group : s.dev.arg g 0 < 96) (row : s.dev.arg g 1 < q4Blocks) :
    if s.dev.stip.urgent.length < 4096 then
      (etchUrgent g s).dev.stip.urgent =
        s.dev.stip.urgent ++ [{ group := s.dev.arg g 0, row := s.dev.arg g 1, left := List.range 16 }] ∧
      (etchUrgent g s).dev.graver g = ((s.dev.graver g).setReg 10 0).advance 4
    else (etchUrgent g s).dev.stip = s.dev.stip ∧ (etchUrgent g s).dev.graver g = ((s.dev.graver g).setReg 10 callBusy).advance 4 := by
  obtain ⟨hg, hr⟩ := urgPost_fields group row
  have joins := stipUrgPost_joins (v := s.dev.arg g 0 * 65536 + s.dev.arg g 1) (by rw [hg]; exact group) s.dev
  rw [hg, hr] at joins
  have kept : (stipUrgPost (s.dev.arg g 0 * 65536 + s.dev.arg g 1) s.dev).graver g = s.dev.graver g :=
    graver_of_gravers (congrArg (·.gravers) ((stipUrgPost_keeps _ s.dev).grv (by rfl))) g
  have posted : etchUrgent g s = callReturn g (if 4096 ≤ s.dev.stip.urgent.length then callBusy else 0)
      (s.modDev (stipUrgPost (s.dev.arg g 0 * 65536 + s.dev.arg g 1))) := by
    unfold etchUrgent
    dsimp only
    rw [if_neg (by simp [group, row])]
    simp only [decide_eq_true_eq]
  rw [posted]
  split at joins
  case isTrue room =>
    rw [if_pos room, if_neg (Nat.not_le.mpr room), callReturn_graver]
    exact ⟨joins, congrArg (fun v => (Graver.setReg v 10 0).advance 4) kept⟩
  case isFalse full =>
    rw [if_neg full, if_pos (Nat.not_lt.mp full), callReturn_graver]
    exact ⟨joins.2, congrArg (fun v => (Graver.setReg v 10 callBusy).advance 4) kept⟩

theorem etchLog_appends {g : Nat} {s : State} (short : s.dev.arg g 1 ≤ 256)
    (fits : s.dev.bufferOk g (s.dev.arg g 0) (s.dev.arg g 1) = true) :
    (etchLog g s).dev.graver g = ((s.dev.graver g).setReg 10 0).advance 4 ∧
    (etchLog g s).dev.grv.trace2 = trimTrace (s.dev.grv.trace2 ++ [s.readReach (s.dev.reach g (s.dev.arg g 0)) (s.dev.arg g 1)]) := by
  unfold etchLog
  dsimp only
  rw [if_neg (by simp [fits]; omega)]
  exact ⟨callReturn_graver .., rfl⟩

theorem releaseGraver_releases (g : Nat) (s : State) : ((releaseGraver g s).dev.graver g).st = .run ∧
    ((releaseGraver g s).dev.graver g).machine = true ∧ ((releaseGraver g s).dev.graver g).slot = none := by
  have released : ∃ f, (releaseGraver g s).dev = s.dev.modGraver g f ∧ ∀ v, (f v).st = .run ∧ (f v).machine = true ∧ (f v).slot = none :=
    ⟨_, rfl, fun _ => ⟨rfl, rfl, rfl⟩⟩
  obtain ⟨f, same, holds⟩ := released
  rw [same, Dev.graver_modGraver_same]
  exact holds _

/-- The slot that an etching leaves at its exit. -/
def EtchSlot.left (x : EtchSlot) : EtchSlot := { x with graver := none, waiting := none, events := [] }

theorem etchExit_slot (g e : Nat) (s : State) : ((etchExit g e s).dev.etch e).graver = none ∧
    ((etchExit g e s).dev.etch e).stops = (s.dev.etch e).stops ∧ ((etchExit g e s).dev.etch e).image = (s.dev.etch e).image := by
  have left : (etchExit g e s).dev.etch e = (s.dev.etch e).left := Dev.etch_modEtch_same s.dev e EtchSlot.left
  rw [left]
  exact ⟨rfl, rfl, rfl⟩

/-- Settles O46: a call of an etching has its effect and returns in a0 behind the ECALL; an exit releases the graver and keeps the slot. -/
theorem policyCallsAct : Obligations.PolicyCallsAct :=
  ⟨fun g s e calls => callRow_gives calls (evNext_waits g e s),
   fun _ _ _ _ _ _ _ _ slot waits event fits => execEvNextReturn_returns slot waits event fits,
   fun g s e calls => callRow_gives calls (statRead_returns g s),
   fun _ _ _ _ _ _ _ _ _ calls fits low high sheet read channels written armed =>
    ⟨_, (callRow_next calls _).trans (congrArg _ (hatchPropose_arms fits low high sheet read channels written armed)),
      rfl, rfl, rfl, callReturn_graver ..⟩,
   fun _ _ _ _ _ calls channel value set =>
    ⟨_, (callRow_next calls _).trans (congrArg _ (lendPri_sets channel value set)), rfl, callReturn_graver ..⟩,
   fun _ _ _ calls group row => callRow_gives calls (etchUrgent_posts group row),
   fun _ _ _ calls short fits => callRow_gives calls (etchLog_appends short fits),
   fun g s e calls => callRow_gives calls
    ⟨(etchExit_slot g e s).1, (etchExit_slot g e s).2.1, (etchExit_slot g e s).2.2, releaseGraver_releases g _⟩⟩

end Sys2Proof.Machine

/-! PROOFS. Power states, operating points, THERM_N, the AON clock, wake sources and the alarm (R404 to R412, R419 to R427). -/

namespace Sys2Proof.Machine

/-! ### Operating points -/

theorem sendVolt_pwr (n : Nat) (d : Dev) : (sendVolt n d).pwr = d.pwr := (sendVolt_keeps n d).pwr (by rfl)

/-- The plan of the next step changes the point, the step and what was tried, no other part of the power state. -/
theorem planOp_pwr (d : Dev) : ∃ op move tried, (planOp d).pwr = { d.pwr with op := op, move := move, tried := tried } := by
  let d' := if d.pwr.tried = some d.opWanted then d else d.modPwr fun p => { p with tried := none }
  have asked : ∃ tried, d'.pwr = { d.pwr with tried := tried } := by
    by_cases again : d.pwr.tried = some d.opWanted
    · exact ⟨d.pwr.tried, congrArg Dev.pwr (if_pos again)⟩
    · exact ⟨none, congrArg Dev.pwr (if_neg again)⟩
  obtain ⟨tried, asked⟩ := asked
  unfold planOp
  dsimp only
  change ∃ op move tried, Dev.pwr (if d'.pwr.move.isSome || d'.pwr.tried.isSome || decide (d.opWanted = d'.pwr.op) then d'
    else if d.opWanted < d'.pwr.op then (sendVolt d.opWanted d').modPwr fun p => { p with move := some { target := d.opWanted, rise := true } }
    else (sendVolt d.opWanted d').modPwr fun p => { p with op := d.opWanted, move := some { target := d.opWanted, rise := false } }) = _
  split
  · exact ⟨d.pwr.op, d.pwr.move, tried, asked⟩
  · split
    · exact ⟨d.pwr.op, some { target := d.opWanted, rise := true }, tried, by rw [Dev.modPwr, sendVolt_pwr, asked]⟩
    · exact ⟨d.opWanted, some { target := d.opWanted, rise := false }, tried, by rw [Dev.modPwr, sendVolt_pwr, asked]⟩

/-- With no step in progress: a point tried in vain waits for another, the point in force stays, and any other is stepped to (R420, R422). -/
theorem planOp_plans {d : Dev} (still : d.pwr.move = none) :
    if d.pwr.tried = some d.opWanted then (planOp d).pwr = d.pwr
    else (planOp d).pwr.tried = none ∧ if d.opWanted = d.pwr.op then (planOp d).pwr = { d.pwr with tried := none }
      else if d.opWanted < d.pwr.op then
        (planOp d).pwr.op = d.pwr.op ∧ (planOp d).pwr.move = some { target := d.opWanted, rise := true }
      else (planOp d).pwr.op = d.opWanted ∧ (planOp d).pwr.move = some { target := d.opWanted, rise := false } := by
  unfold planOp
  dsimp only
  by_cases again : d.pwr.tried = some d.opWanted
  · rw [if_pos again, if_pos again, if_pos (by rw [again]; simp)]
  rw [if_neg again, if_neg again]
  by_cases there : d.opWanted = d.pwr.op
  · rw [if_pos (by simp [Dev.modPwr, there]), if_pos there]
    exact ⟨rfl, rfl⟩
  rw [if_neg there, if_neg (by simpa [Dev.modPwr, still] using there)]
  by_cases faster : d.opWanted < d.pwr.op
  · rw [if_pos (show d.opWanted < (d.modPwr fun p => { p with tried := none }).pwr.op from faster), if_pos faster, Dev.modPwr, sendVolt_pwr]
    exact ⟨rfl, rfl, rfl⟩
  · rw [if_neg (show ¬ d.opWanted < (d.modPwr fun p => { p with tried := none }).pwr.op from faster), if_neg faster, Dev.modPwr, sendVolt_pwr]
    exact ⟨rfl, rfl, rfl⟩

/-- The device as a write of `PWR.OP_CTL` leaves it before the next step is planned. -/
def opCtlStored (v : Nat) (d : Dev) : Dev := (d.wr Fd.PWR_OP_CTL_CAP (bits v 5 4)).wr Fd.PWR_OP_CTL_TARGET (bits v 1 0)

theorem opCtlStored_fields (v : Nat) (d : Dev) :
    (opCtlStored v d).rd Fd.PWR_OP_CTL_CAP = bits v 5 4 ∧ (opCtlStored v d).rd Fd.PWR_OP_CTL_TARGET = bits v 1 0 :=
  ⟨(Dev.rdx_wrx_fldAt (by decide)).trans ((Dev.rd_wr_same _ _ (by decide) (by decide)).trans (Nat.mod_eq_of_lt (bits_lt v 5 4))),
    (Dev.rd_wr_same _ _ (by decide) (by decide)).trans (Nat.mod_eq_of_lt (bits_lt v 1 0))⟩

theorem opCtlStored_wanted (v : Nat) (d : Dev) : (opCtlStored v d).opWanted =
    if 3 ≤ d.pwr.ps then 3 else max (max d.pwr.limit (bits v 5 4)) (bits v 1 0) := by
  obtain ⟨cap, target⟩ := opCtlStored_fields v d
  rw [Dev.opWanted, Dev.opCap, cap, target]
  rfl

theorem opCtlWrite_plans (v : Nat) (d : Dev) :
    (opCtlWrite v d).rd Fd.PWR_OP_CTL_CAP = bits v 5 4 ∧ (opCtlWrite v d).rd Fd.PWR_OP_CTL_TARGET = bits v 1 0 ∧
    (∀ w, w = (if 3 ≤ d.pwr.ps then 3 else max (max d.pwr.limit (bits v 5 4)) (bits v 1 0)) → d.pwr.move = none →
      if d.pwr.tried = some w then (opCtlWrite v d).pwr = d.pwr
      else (opCtlWrite v d).pwr.tried = none ∧ if w = d.pwr.op then (opCtlWrite v d).pwr = { d.pwr with tried := none }
      else if w < d.pwr.op then (opCtlWrite v d).pwr.op = d.pwr.op ∧ (opCtlWrite v d).pwr.move = some { target := w, rise := true }
      else (opCtlWrite v d).pwr.op = w ∧ (opCtlWrite v d).pwr.move = some { target := w, rise := false }) := by
  have written : opCtlWrite v d = planOp (opCtlStored v d) := rfl
  obtain ⟨cap, target⟩ := opCtlStored_fields v d
  have keeps := planOp_keeps (opCtlStored v d)
  rw [written]
  refine ⟨(keeps.rd Fd.PWR_OP_CTL_CAP (by rfl)).trans cap, (keeps.rd Fd.PWR_OP_CTL_TARGET (by rfl)).trans target, fun w wanted still => ?_⟩
  have plans := planOp_plans (d := opCtlStored v d) still
  rw [opCtlStored_wanted, ← wanted] at plans
  exact plans

theorem voltageConfirmed_ends {d : Dev} {m : OpMove} {op : Nat} (moving : d.pwr.move = some m)
    (reached : op = (if m.rise then m.target else d.pwr.op)) (wanted : d.opWanted = op) : ∃ e, voltageConfirmed d = .ok e ∧
      e.pwr = { d.pwr with op := op, move := none, tried := if d.pwr.tried = some op then some op else none } := by
  let d' := d.modPwr fun p => { p with op := op, move := none }
  refine ⟨planOp d', ?_, ?_⟩
  · have asked : d' = d.modPwr fun p => { p with op := if m.rise then m.target else p.op, move := none } := by
      change d.modPwr (fun p => { p with op := op, move := none }) = _
      rw [reached]
      rfl
    unfold voltageConfirmed
    rw [moving, asked]
  · have plans := planOp_plans (d := d') rfl
    have wanted' : d'.opWanted = op := wanted
    rw [wanted'] at plans
    by_cases again : d.pwr.tried = some op
    · rw [if_pos again, ← again]
      exact (if_pos (show d'.pwr.tried = some op from again)).mp plans
    · rw [if_neg again]
      rw [if_neg (show ¬ d'.pwr.tried = some op from again), if_pos (show op = d'.pwr.op from rfl)] at plans
      exact plans.2

theorem setTrim_stores (n : Fin 4) {t : Nat} (small : t < 16) (d : Dev) : (setTrim n t d).rd (fldTrim n) = t := by
  have stored : ∀ f : Fld, (f.hi < 32 ∧ f.lo ≤ f.hi ∧ f.hi - f.lo + 1 = 4) → (d.wr f t).rd f = t := fun f ⟨high, low, wide⟩ => by
    rw [Dev.rd_wr_same _ _ high low, wide]
    exact Nat.mod_eq_of_lt small
  match n with
  | 0 => exact stored Fd.PWR_OP_V0_TRIM (by decide)
  | 1 => exact stored Fd.PWR_OP_V1_TRIM (by decide)
  | 2 => exact stored Fd.PWR_OP_V2_TRIM (by decide)
  | 3 => exact stored Fd.PWR_OP_V3_TRIM (by decide)

/-- Sending a voltage stores its mantissa, in the other field of the point's register. -/
theorem sendVolt_trim (n : Fin 4) (d : Dev) : (sendVolt n d).rd (fldTrim n) = d.rd (fldTrim n) := by
  match n with
  | 0 => exact Dev.rdx_wrx_fldAt (by decide)
  | 1 => exact Dev.rdx_wrx_fldAt (by decide)
  | 2 => exact Dev.rdx_wrx_fldAt (by decide)
  | 3 => exact Dev.rdx_wrx_fldAt (by decide)

theorem trimWrite_stores (n : Fin 4) (v : Nat) (d : Dev) :
    if 10 < bits v 3 0 then trimWrite n v d = d else (trimWrite n v d).rd (fldTrim n) = bits v 3 0 := by
  unfold trimWrite
  dsimp only
  split
  case isTrue reserved => rw [if_pos (by simp [reserved])]
  case isFalse plain =>
    by_cases same : bits v 3 0 = d.rd (fldTrim n)
    · rw [if_pos (by simp [same])]
      exact same.symm
    · rw [if_neg (by simp [same, plain])]
      have stored := setTrim_stores n (bits_lt v 3 0) d
      split
      · rw [sendVolt_trim, stored]
      · exact stored

/-! ### Changes of the power state -/

theorem enterPs_pwr (n : Nat) (d : Dev) : ∃ last, (enterPs n d).pwr = { d.pwr with ps := n, last := last } := by
  unfold enterPs
  split
  case isTrue same => exact ⟨d.pwr.last, by rw [← same]⟩
  case isFalse => exact ⟨_, rfl⟩

theorem enterPs_event {n : Nat} {d : Dev} (other : d.pwr.ps ≠ n) : (enterPs n d).rd Fd.PWR_EVT_PS = 1 := by
  unfold enterPs
  rw [if_neg other]
  exact Dev.rd_wr_same _ _ (by decide) (by decide)

/-- The exit from PS3 puts the state left in force again. -/
theorem exitPs3_restores (d : Dev) : (exitPs3 d).pwr.ps = d.pwr.last ∧ (exitPs3 d).pwr.thermN = d.pwr.thermN ∧
    (exitPs3 d).pwr.level = d.pwr.level ∧ (exitPs3 d).pwr.ticks = d.pwr.ticks := by
  obtain ⟨op, move, tried, planned⟩ := planOp_pwr (enterPs d.pwr.last (wakeIdle d))
  obtain ⟨last, entered⟩ := enterPs_pwr d.pwr.last (wakeIdle d)
  rw [exitPs3, planned, entered]
  exact ⟨rfl, rfl, rfl, rfl⟩

theorem exitPs3_event {d : Dev} (other : d.pwr.ps ≠ d.pwr.last) : (exitPs3 d).rd Fd.PWR_EVT_PS = 1 :=
  ((planOp_keeps _).rd Fd.PWR_EVT_PS (by rfl)).trans (enterPs_event (d := wakeIdle d) other)

theorem setLevel_pwr (n : Nat) (d : Dev) : (setLevel n d).pwr = { d.pwr with level := n } := by
  unfold setLevel
  split
  case isTrue same => rw [same]
  case isFalse => rfl

/-! ### Entry attempts -/

theorem refuseEntry_records (r : Nat × Nat) (d : Dev) : (refuseEntry r d).pwr = d.pwr ∧
    (refuseEntry r d).rd Fd.PWR_EVT_REFUSED = 1 ∧ (refuseEntry r d).rd Fd.PWR_REFUSER_KIND = r.1 % 16 :=
  ⟨rfl, Dev.rd_wr_same _ _ (by decide) (by decide),
    (Dev.rdx_wrx_reg (by decide)).trans ((Dev.rdx_wrx_fldAt (by decide)).trans (Dev.rd_wr_same _ _ (by decide) (by decide)))⟩

/-- The device as an attempt looks for refusers. -/
def entryTried (d : Dev) : Dev := d.modPwr fun p => { p with lastTry := d.sheet + 1 }

/-- The device as an entry begins: from PS3 it goes on by the state it left (log entry 129). -/
def entryFrom (d : Dev) : Dev := if d.pwr.ps = 3 then planOp (enterPs d.pwr.last d) else d

theorem entryFrom_ps (d : Dev) : (entryFrom d).pwr.ps = if d.pwr.ps = 3 then d.pwr.last else d.pwr.ps := by
  unfold entryFrom
  split
  · obtain ⟨op, move, tried, planned⟩ := planOp_pwr (enterPs d.pwr.last d)
    obtain ⟨last, entered⟩ := enterPs_pwr d.pwr.last d
    rw [planned, entered]
  · rfl

/-- The conditions of an attempt (R406). -/
structure EntryDue (d : Dev) : Prop where
  selected : 3 ≤ d.selected
  enabled : d.is Fd.PWR_CTL_ENTRY_EN = true
  deeper : d.pwr.ps < d.selected
  settled : d.pwr.entry = none
  idle : d.idle = true
  service : d.sys.stage = .service
  paced : d.pwr.lastTry = 0 ∨ d.pwr.lastTry + 256 ≤ d.sheet + 1
  checked : d.selected = 4 → (mapGet { done := false, pass := false, step := 0 } d.ecc.checks 66).done = true →
    (mapGet { done := false, pass := false, step := 0 } d.ecc.checks 66).pass = true

/-- No failed check of the keep banks turns a due attempt down. -/
theorem EntryDue.sound {d : Dev} (due : EntryDue d) :
    (decide (d.selected = 4) && (mapGet { done := false, pass := false, step := 0 } d.ecc.checks 66).done &&
      !(mapGet { done := false, pass := false, step := 0 } d.ecc.checks 66).pass) = false := by
  simp only [Bool.and_eq_false_iff, decide_eq_false_iff_not, Bool.not_eq_false']
  by_cases four : d.selected = 4
  · cases done : (mapGet { done := false, pass := false, step := 0 } d.ecc.checks 66).done with
    | false => exact .inl (.inr rfl)
    | true => exact .inr (due.checked four done)
  · exact .inl (.inl four)

theorem psEntry_of_due {d : Dev} (due : EntryDue d) (followers : List Nat) :
    (∀ r rest, (entryTried d).refusers d.selected followers = r :: rest → psEntry followers d = .ok (refuseEntry r (entryTried d))) ∧
    ((entryTried d).refusers d.selected followers = [] → psEntry followers d = .ok ((withdrawReads (entryFrom (entryTried d))).modPwr
      fun p => { p with entry := some { target := d.selected, left := p.ps, written := false } })) := by
  have sound : (decide ((entryTried d).selected = 4) && (mapGet { done := false, pass := false, step := 0 } (entryTried d).ecc.checks 66).done &&
      !(mapGet { done := false, pass := false, step := 0 } (entryTried d).ecc.checks 66).pass) = false := due.sound
  have target : (entryTried d).selected = d.selected := rfl
  have ps : (entryTried d).pwr.ps = d.pwr.ps := rfl
  obtain ⟨selected, enabled, deeper, settled, idle, service, paced, -⟩ := due
  unfold psEntry
  rw [if_neg (by simp [enabled, settled, idle, service]; omega)]
  dsimp only
  rw [← entryTried, sound, if_neg Bool.false_ne_true, if_neg Bool.false_ne_true, target, ps, if_neg (show ¬ d.selected = d.pwr.ps by omega)]
  constructor
  · intro r rest found
    rw [found]
  · intro found
    rw [found]
    rfl

theorem psEntry_attempts {d : Dev} (due : EntryDue d) (followers : List Nat) : ∃ e, psEntry followers d = .ok e ∧
    (∀ r rest, (entryTried d).refusers d.selected followers = r :: rest →
      e.pwr.entry = none ∧ e.pwr.lastTry = d.sheet + 1 ∧ e.rd Fd.PWR_EVT_REFUSED = 1 ∧ e.rd Fd.PWR_REFUSER_KIND = r.1 % 16) ∧
    ((entryTried d).refusers d.selected followers = [] →
      e.pwr.entry = some { target := d.selected, left := if d.pwr.ps = 3 then d.pwr.last else d.pwr.ps, written := false }) := by
  obtain ⟨refused, begun⟩ := psEntry_of_due due followers
  cases found : (entryTried d).refusers d.selected followers with
  | cons r rest =>
    obtain ⟨pwr, event, kind⟩ := refuseEntry_records r (entryTried d)
    refine ⟨_, refused r rest found, fun r' rest' same => ?_, fun empty => absurd empty (List.cons_ne_nil _ _)⟩
    obtain ⟨rfl, -⟩ := List.cons.inj same
    rw [pwr]
    exact ⟨due.settled, rfl, event, kind⟩
  | nil =>
    refine ⟨_, begun found, fun r rest same => absurd same.symm (List.cons_ne_nil r rest), fun _ => ?_⟩
    have left : (withdrawReads (entryFrom (entryTried d))).pwr.ps = if d.pwr.ps = 3 then d.pwr.last else d.pwr.ps := by
      rw [(withdrawReads_keeps _).pwr (by rfl), entryFrom_ps]
      rfl
    rw [← left]
    rfl

theorem apstExpiry_selects {p f : Nat} {d : Dev} {e : DWord} (func : f = if p = 0 then 0 else 1025)
    (entry : e = BitVec.ofNat 64 ((d.func f).feat (0x0C00 + d.selOf f) 0)) (pf : f ∈ d.pfs)
    (enabled : bit ((d.func f).feat 0x0C 0) 0 = true) (timed : apstItpt e ≠ 0) (idle : d.pwr.idleAt.isSome = true)
    (due : apstItpt e ≤ d.idleMs) : ∃ d', apstExpiry p d = .ok d' ∧ d'.selOf f = apstItps e := by
  subst func entry
  unfold apstExpiry
  dsimp only
  rw [if_pos (by simp [pf, enabled, timed, idle, due])]
  exact ⟨_, rfl, mapGet_set_same ..⟩

/-! ### Wake sources -/

theorem bit_mod {w n i : Nat} (low : i < n) : bit (w % 2 ^ n) i = bit w i := by
  rw [bit, bit, ← Nat.testBit_eq_decide_div_mod_eq, ← Nat.testBit_eq_decide_div_mod_eq, Nat.testBit_mod_two_pow, decide_eq_true low,
    Bool.true_and]

theorem recordWake_records {b : Nat} (source : b < 24) (d : Dev) : bit ((recordWake b d).rd Fd.AON_WAKE_SRC_SRC) b = true := by
  rw [recordWake, Dev.rd_wr_same _ _ (by decide) (by decide)]
  exact (bit_mod (n := 24) source).trans (bit_setBits_same _ _)

theorem recordWake_pwr (b : Nat) (d : Dev) : (recordWake b d).pwr = d.pwr := (recordWake_keeps b d).pwr (by rfl)

/-- An entry given up, once it is counted: an image already written is marked. -/
def entryDropped (e : Entry) (d : Dev) : Dev :=
  let d := { d with pwr := { d.pwr with entry := none } }
  if e.written then
    match d.nvm.images.getLast? with
    | some m => dirtyImage m { d with nvm := { d.nvm with images := d.nvm.images.dropLast } }
    | none => d
  else d

theorem entryDropped_pwr (e : Entry) (d : Dev) : (entryDropped e d).pwr = { d.pwr with entry := none } := by
  unfold entryDropped
  dsimp only
  split
  · split
    · exact (dirtyImage_keeps _ _).pwr (by rfl)
    · rfl
  · rfl

theorem entryDropped_regs (e : Entry) (d : Dev) : (entryDropped e d).regs = d.regs := by
  unfold entryDropped
  dsimp only
  split
  · split
    · exact (dirtyImage_keeps _ _).regs (by rfl)
    · rfl
  · rfl

theorem abortEntry_drops {d : Dev} {e : Entry} (c : Nat) (under : d.pwr.entry = some e) : abortEntry c d =
    entryDropped e (((d.add Fd.PWR_ENTRY_CNT_ABORTED 1).wr Fd.PWR_REFUSER_ABORT c).wr Fd.PWR_EVT_ABORTED 1) := by
  unfold abortEntry
  rw [under]
  rfl

theorem abortEntry_pwr {d : Dev} {e : Entry} (c : Nat) (under : d.pwr.entry = some e) :
    (abortEntry c d).pwr = { d.pwr with entry := none } := by
  have counted : (((d.add Fd.PWR_ENTRY_CNT_ABORTED 1).wr Fd.PWR_REFUSER_ABORT c).wr Fd.PWR_EVT_ABORTED 1).pwr = d.pwr := by
    rw [Dev.wr_pwr, Dev.wr_pwr, Dev.add_pwr]
  rw [abortEntry_drops c under, entryDropped_pwr, counted]

theorem abortEntry_cause {d : Dev} {e : Entry} {c : Nat} (under : d.pwr.entry = some e) (small : c < 16) :
    (abortEntry c d).rd Fd.PWR_REFUSER_ABORT = c :=
  (congrArg (Dev.rd · _) (abortEntry_drops c under)).trans ((Dev.rdx_congr (entryDropped_regs e _) 0 0 _).trans
    ((Dev.rdx_wrx_reg (by decide)).trans ((Dev.rd_wr_same _ _ (by decide) (by decide)).trans (Nat.mod_eq_of_lt small))))

/-- The device as THERM_N falling leaves it before its wake source is seen. -/
def thermFallen (d : Dev) : Dev := setLevel 3 (d.modPwr fun p => { p with thermN := true })

theorem thermFallen_pwr (d : Dev) : (thermFallen d).pwr = { d.pwr with thermN := true, level := 3 } := setLevel_pwr ..

theorem wakeAlways_aborts {b : Nat} {d : Dev} {e : Entry} (low : b ≤ 6) (under : d.pwr.entry = some e) :
    (wakeAlways b d).pwr = { d.pwr with idleAt := none, lastTry := 0, entry := none } ∧
    (wakeAlways b d).rd Fd.PWR_REFUSER_ABORT = b + 2 ∧
    (wakeAlways b d).rd Fd.AON_WAKE_SRC_SRC = (recordWake b d).rd Fd.AON_WAKE_SRC_SRC := by
  have under' : (wakeIdle (recordWake b d)).pwr.entry = some e := under
  have cause := abortEntry_cause (c := wakeCause b) under' (by rw [wakeCause, if_pos low]; omega)
  have woken : wakeAlways b d = abortEntry (wakeCause b) (wakeIdle (recordWake b d)) := by
    unfold wakeAlways
    dsimp only
    rw [if_pos (by rw [recordWake_pwr, under]; rfl)]
  rw [woken]
  exact ⟨abortEntry_pwr _ under', cause.trans (if_pos low), (abortEntry_keeps _ _).rd _ (by rfl)⟩

theorem wakeAlways_exits {b : Nat} {d : Dev} (settled : d.pwr.entry = none) (asleep : d.pwr.ps = 3) :
    wakeAlways b d = exitPs3 (recordWake b d) := by
  unfold wakeAlways
  dsimp only
  rw [if_neg (by rw [recordWake_pwr, settled]; decide), if_pos (by rw [recordWake_pwr, asleep])]

theorem wakeAlways_awake {b : Nat} {d : Dev} (settled : d.pwr.entry = none) (awake : d.pwr.ps ≠ 3) : wakeAlways b d = recordWake b d := by
  unfold wakeAlways
  dsimp only
  rw [if_neg (by rw [recordWake_pwr, settled]; decide), if_neg (by rw [recordWake_pwr]; exact awake)]

theorem thermNFall_falls (d : Dev) : (wakeAlways 6 (thermFallen d)).pwr.thermN = true ∧ (wakeAlways 6 (thermFallen d)).pwr.level = 3 ∧
    bit ((wakeAlways 6 (thermFallen d)).rd Fd.AON_WAKE_SRC_SRC) 6 = true ∧
    (d.pwr.entry.isSome = true → (wakeAlways 6 (thermFallen d)).pwr.entry = none ∧ (wakeAlways 6 (thermFallen d)).pwr.ps = d.pwr.ps ∧
      (wakeAlways 6 (thermFallen d)).rd Fd.PWR_REFUSER_ABORT = 8) ∧
    (d.pwr.entry = none → d.pwr.ps = 3 → d.pwr.last ≠ 3 → (wakeAlways 6 (thermFallen d)).pwr.ps = d.pwr.last ∧
      (wakeAlways 6 (thermFallen d)).rd Fd.PWR_EVT_PS = 1) ∧
    (d.pwr.entry = none → d.pwr.ps ≠ 3 → (wakeAlways 6 (thermFallen d)).pwr = { d.pwr with thermN := true, level := 3 }) := by
  have fallen := thermFallen_pwr d
  have recorded := recordWake_records (b := 6) (by decide) (thermFallen d)
  generalize thermFallen d = f at fallen recorded ⊢
  have entry : f.pwr.entry = d.pwr.entry := congrArg (·.entry) fallen
  have ps : f.pwr.ps = d.pwr.ps := congrArg (·.ps) fallen
  have last : f.pwr.last = d.pwr.last := congrArg (·.last) fallen
  cases under : d.pwr.entry with
  | some e =>
    obtain ⟨pwr, cause, source⟩ := wakeAlways_aborts (b := 6) (by decide) (entry.trans under)
    rw [source, pwr, fallen]
    exact ⟨rfl, rfl, recorded, fun _ => ⟨rfl, rfl, cause⟩, fun h => absurd h (Option.some_ne_none e), fun h => absurd h (Option.some_ne_none e)⟩
  | none =>
    by_cases asleep : d.pwr.ps = 3
    · rw [wakeAlways_exits (entry.trans under) (ps.trans asleep)]
      obtain ⟨restored, therm, level, -⟩ := exitPs3_restores (recordWake 6 f)
      rw [restored, therm, level, recordWake_pwr, last, fallen, (exitPs3_keeps _).rd Fd.AON_WAKE_SRC_SRC (by rfl)]
      refine ⟨rfl, rfl, recorded, fun h => absurd h (by decide), fun _ _ other => ⟨rfl, exitPs3_event ?_⟩, fun _ awake => absurd asleep awake⟩
      rw [recordWake_pwr, ps, last, asleep]
      exact other.symm
    · rw [wakeAlways_awake (entry.trans under) (fun h => asleep (ps.symm.trans h)), recordWake_pwr, fallen]
      exact ⟨rfl, rfl, recorded, fun h => absurd h (by decide), fun _ same => absurd same asleep, fun _ _ => rfl⟩

/-- The device out of PS3: the wake goes on through the cascade and to the ports. -/
def wokenFrom3 (b : Nat) (d : Dev) : Dev := driveWake b (wakeCascade b (exitPs3 d))

theorem wokenFrom3_pwr (b : Nat) (d : Dev) : (wokenFrom3 b d).pwr = (exitPs3 d).pwr ∧ (wokenFrom3 b d).regs = (exitPs3 d).regs :=
  ⟨((driveWake_keeps _ _).pwr (by rfl)).trans ((wakeCascade_keeps _ _).pwr (by rfl)),
    ((driveWake_keeps _ _).regs (by rfl)).trans ((wakeCascade_keeps _ _).regs (by rfl))⟩

/-- A source that meets no entry under way, in no PS4: recorded, and from PS3 the exit where the source is enabled. -/
theorem wakeUp_cases {b : Nat} {bad : List Nat} {s : State} (settled : s.dev.pwr.entry = none) (powered : s.dev.pwr.ps ≠ 4) :
    wakeUp b bad s = if (recordWake b s.dev).wakeEnabled b = true ∧ s.dev.pwr.ps = 3 then s.modDev fun d => wokenFrom3 b (recordWake b d)
      else s.modDev (recordWake b) := by
  unfold wakeUp
  dsimp only
  rw [State.modDev_dev]
  cases enabled : (recordWake b s.dev).wakeEnabled b with
  | false =>
    rw [if_pos (by rfl), if_neg (fun h => absurd h.1 (by decide))]
  | true =>
    rw [if_neg (by decide), if_neg (by rw [recordWake_pwr, settled]; decide), recordWake_pwr]
    by_cases asleep : s.dev.pwr.ps = 3
    · rw [if_pos asleep, if_pos ⟨rfl, asleep⟩]
      rfl
    · rw [if_neg asleep, if_neg (by simp [powered]), if_neg (fun h => asleep h.2)]

theorem wakeEnabled_always {b : Nat} (always : b = 5 ∨ b = 6) (d : Dev) : d.wakeEnabled b = true := by
  rcases always with rfl | rfl <;> rfl

theorem wakeUp_wakes {b : Nat} {bad : List Nat} {s : State} (source : b < 24) (settled : s.dev.pwr.entry = none) (powered : s.dev.pwr.ps ≠ 4) :
    bit ((wakeUp b bad s).dev.rd Fd.AON_WAKE_SRC_SRC) b = true ∧ (wakeUp b bad s).dev.pwr.ticks = s.dev.pwr.ticks ∧
    (s.dev.pwr.ps < 3 → (wakeUp b bad s).dev.pwr.ps = s.dev.pwr.ps) ∧
    (s.dev.pwr.ps = 3 → b = 5 ∨ b = 6 → s.dev.pwr.last ≠ 3 →
      (wakeUp b bad s).dev.pwr.ps = s.dev.pwr.last ∧ (wakeUp b bad s).dev.rd Fd.PWR_EVT_PS = 1) := by
  have recorded := recordWake_records source s.dev
  rw [wakeUp_cases settled powered]
  split
  case isTrue awake =>
    obtain ⟨-, asleep⟩ := awake
    obtain ⟨pwr, regs⟩ := wokenFrom3_pwr b (recordWake b s.dev)
    obtain ⟨restored, -, -, ticks⟩ := exitPs3_restores (recordWake b s.dev)
    have read : ∀ f, (wokenFrom3 b (recordWake b s.dev)).rd f = (exitPs3 (recordWake b s.dev)).rd f := fun f => Dev.rdx_congr regs 0 0 f
    rw [State.modDev_dev, pwr, read, read, restored, ticks, (exitPs3_keeps _).rd Fd.AON_WAKE_SRC_SRC (by rfl)]
    refine ⟨recorded, rfl, fun low => absurd asleep (Nat.ne_of_lt low), fun _ _ other => ⟨rfl, exitPs3_event ?_⟩⟩
    rw [recordWake_pwr, asleep]
    exact other.symm
  case isFalse still =>
    exact ⟨recorded, rfl, fun _ => rfl, fun asleep always => absurd ⟨wakeEnabled_always always _, asleep⟩ still⟩

theorem execAonAlarm_wakes {s : State} (due : s.dev.pwr.ticks ≤ s.dev.alarm) :
    execAonAlarm s = .next (wakeUp 4 [] (s.modDev (setTicks s.dev.alarm))) := by
  unfold execAonAlarm
  rw [if_pos due]

theorem wakeUp_at {b t : Nat} {bad : List Nat} {s : State} (source : b < 24) (settled : s.dev.pwr.entry = none) (powered : s.dev.pwr.ps ≠ 4) :
    bit ((wakeUp b bad (s.modDev (setTicks t))).dev.rd Fd.AON_WAKE_SRC_SRC) b = true ∧
    (wakeUp b bad (s.modDev (setTicks t))).dev.pwr.ticks = t ∧
    (s.dev.pwr.ps < 3 → (wakeUp b bad (s.modDev (setTicks t))).dev.pwr.ps = s.dev.pwr.ps) ∧
    (s.dev.pwr.ps = 3 → b = 5 ∨ b = 6 → s.dev.pwr.last ≠ 3 → (wakeUp b bad (s.modDev (setTicks t))).dev.pwr.ps = s.dev.pwr.last ∧
      (wakeUp b bad (s.modDev (setTicks t))).dev.rd Fd.PWR_EVT_PS = 1) :=
  wakeUp_wakes (s := s.modDev (setTicks t)) source settled powered

/-- Settles O47: power states and operating points move as the clauses say; a wake source is recorded, aborts an entry or ends PS3. -/
theorem powerActs : Obligations.PowerActs := by
  refine ⟨?_, ?_, ?_, ?_, ?_, ?_, ?_, ?_, ?_, ?_⟩
  · intro followers s d1 selected enabled deeper settled idle service paced checked tried
    subst tried
    obtain ⟨e, ok, holds⟩ := psEntry_attempts ⟨selected, enabled, deeper, settled, idle, service, paced, checked⟩ (followers.map (·.val))
    exact givesDev_of_ok ok holds
  · intro port s f e func entry pf enabled timed idle due
    obtain ⟨d, ok, holds⟩ := apstExpiry_selects func entry pf enabled timed idle due
    exact givesDev_of_ok ok holds
  · intro v s high mid
    exact givesDev_orRsv (by simp [opCtlRsv, high, mid]) (opCtlWrite_plans v.toNat s.dev)
  · intro s m op moving reached wanted
    obtain ⟨d, ok, holds⟩ := voltageConfirmed_ends moving reached wanted
    exact givesDev_of_ok ok holds
  · intro s
    exact ⟨_, rfl, Dev.wr_pwr .., Dev.rd_wr_same _ _ (by decide) (by decide)⟩
  · intro point v s plain
    exact givesDev_orRsv (by simp [plain]) (trimWrite_stores point v.toNat s.dev)
  · intro s
    exact ⟨_, rfl, thermNFall_falls s.dev⟩
  · intro s
    exact ⟨_, rfl, (Dev.rdx_wrx_fldAt (by decide)).trans (Dev.rd_wr_same _ _ (by decide) (by decide)),
      Dev.rd_wr_same _ _ (by decide) (by decide)⟩
  · intro b obs s source settled powered
    exact ⟨_, if_neg source, wakeUp_at b.isLt settled powered⟩
  · intro s due settled powered
    obtain ⟨recorded, ticks, low, -⟩ := wakeUp_at (b := 4) (t := s.dev.alarm) (bad := []) (by decide) settled powered
    exact ⟨_, execAonAlarm_wakes due, recorded, ticks, low⟩

end Sys2Proof.Machine

/-! PROOFS. Power-on and cold reset, the boot, Thrumlux's start, and the flush with what starts and follows it (R415, R432 to R442, R450,
R452, R480, R481). -/

namespace Sys2Proof.Machine

/-! ### Cold reset (R432) -/

/-- The device under cold reset, with its cause recorded. -/
def coldBase (why : Why) (flushed : Bool) (o : ResetObs) (d : Dev) : Dev :=
  ((coreReset d).regSet Rg.SYS_RST_CAUSE 0 0 (causeWord why flushed (d.sys.cfs && why != .trip))).modSys fun y =>
    { y with cfs := false, pinsSafe := true, download := [], role := o.role.val, selftest := false, stage := .noSlot }

/-- The counter and the AON record as the reset is released. -/
def coldCounter (o : ResetObs) (d : Dev) : Dev := startCounter (d.firstSheet o.ticks.toNat) (setTicks o.ticks.toNat (aonReset d))

/-- What the boot ROM finds on the pins. -/
def coldPins (o : ResetObs) (d : Dev) : Dev :=
  ((d.wr Fd.PWR_PMB_CFG_EXP o.exp.toNat).wr Fd.CIPH_EPOCH_POS o.role.val).wr Fd.DLK_ROLE_POS o.role.val

/-- The fuses that the boot ROM shows, with its own measurement. -/
def coldFuses (d : Dev) : Dev :=
  extendMeas 1 (Config.sha384 romBytes) ((d.wr Fd.GRV_BOOT_SVN d.nvm.svn).wr Fd.GRV_BOOT_REVOKED d.nvm.revoked)

/-- The device as the boot ROM chooses a slot. -/
def coldReady (o : ResetObs) (d : Dev) : Dev := coldFuses (resetGravers (o.badGravers.map (·.val)) (coldPins o (coldCounter o d)))

theorem coldStart_boots (why : Why) (flushed : Bool) (o : ResetObs) (d : Dev) : coldStart why flushed o d =
    if (coldReady o (coldBase why flushed o d)).steward.isSome then bootRun (coldReady o (coldBase why flushed o d))
    else coldReady o (coldBase why flushed o d) := rfl

/-- The parts, and the registers, that the release of cold reset writes between its reset values and the choice of a slot. -/
def coldMask : Nat := 0x41000040000000000000000000000000080000000000000000000000000000000080400003005000a

theorem coldReady_keeps (o : ResetObs) (d : Dev) : DevKeeps coldMask d (coldReady o d) := by
  have counter : DevKeeps coldMask d (coldCounter o d) :=
    .step (.step (.step (.refl _ _) (aonReset_keeps _) (by rfl)) (setTicks_keeps _ _) (by rfl)) (startCounter_keeps _ _) (by rfl)
  have pins : DevKeeps coldMask d (coldPins o (coldCounter o d)) :=
    .step (.step (.step counter (Dev.wr_keeps _ _ _) (by rfl)) (Dev.wr_keeps _ _ _) (by rfl)) (Dev.wr_keeps _ _ _) (by rfl)
  have gravers := DevKeeps.step pins (resetGravers_keeps (o.badGravers.map (·.val)) _) (by rfl)
  exact .step (.step (.step gravers (Dev.wr_keeps _ _ _) (by rfl)) (Dev.wr_keeps _ _ _) (by rfl)) (extendMeas_keeps _ _ _) (by rfl)

theorem coldBase_resets (why : Why) (flushed : Bool) (o : ResetObs) (d : Dev) :
    (coldBase why flushed o d).media = d.media ∧ (coldBase why flushed o d).nvm = d.nvm ∧
    (coldBase why flushed o d).sys.role = o.role.val ∧ (coldBase why flushed o d).sys.stage = .noSlot := ⟨rfl, rfl, rfl, rfl⟩

theorem coldBase_cause (why : Why) (flushed : Bool) (o : ResetObs) (d : Dev) :
    (coldBase why flushed o d).regGet Rg.SYS_RST_CAUSE 0 0 = causeWord why flushed (d.sys.cfs && why != .trip) := by
  refine (Dev.regGet_regSet_same ..).trans (Nat.mod_eq_of_lt ?_)
  unfold causeWord b2n
  split <;> split <;> split <;> split <;> split <;> decide

/-! ### The boot (R368, R371) -/

theorem steward_of_running {d : Dev} {g : Nat} (low : g < 64) (running : (d.graver g).st = .run) : d.steward.isSome = true := by
  have there : g ∈ d.graversIn .run := List.mem_filter.mpr ⟨List.mem_range.mpr low, by rw [running]; rfl⟩
  unfold Dev.steward
  cases all : d.graversIn .run with
  | nil => rw [all] at there; exact absurd there List.not_mem_nil
  | cons => rfl

theorem graver_keeps {m : Nat} {d e : Dev} (keeps : DevKeeps m d e) (none : m.testBit 16 = false) (g : Nat) : e.graver g = d.graver g :=
  graver_of_gravers (congrArg (·.gravers) (keeps.grv none)) g

theorem extendMeas_graver (i g : Nat) (digest : BitVec 384) (d : Dev) : (extendMeas i digest d).graver g = d.graver g := rfl

theorem extendMeas_sys (i : Nat) (digest : BitVec 384) (d : Dev) : (extendMeas i digest d).sys = d.sys := rfl

/-- The boot graver runs. -/
theorem resetGravers_runs {bad : List Nat} {b : Nat} (boots : bootGraver bad = some b) (d : Dev) :
    ((resetGravers bad d).graver b).st = .run := by
  unfold resetGravers
  rw [boots]
  dsimp only
  have routed : ∀ e : Dev, (forUpTo 256 (fun i d => d.wrb i Fd.GRV_IRQ_ROUTE_GRAVER b) e).graver b = e.graver b := fun e =>
    forUpTo_keeps (P := fun x : Dev => x.graver b = e.graver b) rfl fun i x same => (graver_keeps (x.wrb_keeps i _ b) (by rfl) b).trans same
  rw [routed, graver_keeps (Dev.wr_keeps _ _ _) (by rfl), graver_keeps (graverFault_keeps _) (by rfl), Dev.graver_modGraver_same]

theorem coldReady_steward {o : ResetObs} (boots : bootGraver (o.badGravers.map (·.val)) ≠ none) (d : Dev) :
    (coldReady o d).steward.isSome = true := by
  obtain ⟨b, boots⟩ := Option.ne_none_iff_exists'.mp boots
  have low : b < 64 := List.mem_range.mp (List.mem_of_find?_eq_some boots)
  have running := resetGravers_runs boots (coldPins o (coldCounter o d))
  refine steward_of_running low ?_
  rw [coldReady, coldFuses, extendMeas_graver, graver_keeps (Dev.wr_keeps _ _ _) (by rfl), graver_keeps (Dev.wr_keeps _ _ _) (by rfl), running]

/-- The device of a boot from a slot, measured, with its port mode, before Ground raises the core. -/
def bootMeasured (k : Nat) (d : Dev) : Dev :=
  let (g, _, c) := slotImages (d.nvm.slotBytes k)
  let d := extendMeas 4 (Config.sha384 c) (extendMeas 2 (Config.sha384 g) d)
  let d := d.modNvm fun n => n.booted k
  let d := (d.wr Fd.GRV_BOOT_SLOT k).wr Fd.GRV_BOOT_STATUS 1
  let mode := Config.imageMode (imgBody c) % 2
  (d.wr Fd.HQ_PORT_CFG_MODE mode).modHost fun h => { h with dual := decide (mode = 1) }

theorem modHost_sys (f : HostIf → HostIf) (d : Dev) : (d.modHost f).sys = d.sys := rfl
theorem modNvm_sys (f : Nvm → Nvm) (d : Dev) : (d.modNvm f).sys = d.sys := rfl

theorem bootMeasured_sys (k : Nat) (d : Dev) : (bootMeasured k d).sys = d.sys := by
  unfold bootMeasured
  dsimp only
  rw [modHost_sys, Dev.wr_sys, Dev.wr_sys, Dev.wr_sys, modNvm_sys, extendMeas_sys, extendMeas_sys]

theorem bootSlot_raises (k : Nat) (d : Dev) : bootSlot k d =
    dmcCtlWrite 6 ((planOp (releasePorts ((bootMeasured k d).wr Fd.PWR_OP_CTL_TARGET 1))).modSys fun y => { y with stage := .boot }) := rfl

theorem raised_sys (d : Dev) : (dmcCtlWrite 6 ((planOp (releasePorts (d.wr Fd.PWR_OP_CTL_TARGET 1))).modSys fun y => { y with stage := .boot })).sys =
    { d.sys with stage := .boot } := by
  rw [(dmcCtlWrite_keeps _ _).sys (by rfl), Dev.modSys, (planOp_keeps _).sys (by rfl), (releasePorts_keeps _).sys (by rfl), Dev.wr_sys]

theorem bootSlot_trains (k : Nat) (d : Dev) : (bootSlot k d).sys = { d.sys with stage := .boot } ∧ (bootSlot k d).dram.training = true := by
  have trains : ∀ e : Dev, (dmcCtlWrite 6 e).dram.training = true := fun e =>
    congrArg (·.training) ((dmcCtlWrite_trains 4 e).2.2.1 (by decide))
  rw [bootSlot_raises]
  exact ⟨by rw [raised_sys, bootMeasured_sys], trains _⟩

theorem bootRun_refused {d : Dev} (refused : d.nvm.romChoice = none) : (bootRun d).sys = { d.sys with stage := .noSlot } := by
  unfold bootRun
  rw [refused]
  refine congrArg (fun y : Sys => { y with stage := .noSlot }) ((Dev.wr_sys ..).trans ?_)
  split <;> rfl

theorem bootRun_accepted {d : Dev} {k : Nat} (accepted : d.nvm.romChoice = some k) : bootRun d = bootSlot k d := by
  unfold bootRun
  rw [accepted]

/-- The boot, with a steward or none, keeps media, the role and the cause of the reset. -/
theorem coldStart_resets (why : Why) (flushed : Bool) (o : ResetObs) (d : Dev) :
    (coldStart why flushed o d).media = d.media ∧ (coldStart why flushed o d).sys.role = o.role.val ∧
    (coldStart why flushed o d).regGet Rg.SYS_RST_CAUSE 0 0 = causeWord why flushed (d.sys.cfs && why != .trip) ∧
    (d.nvm.romChoice = none → (coldStart why flushed o d).sys.stage = .noSlot) ∧
    (∀ k, d.nvm.romChoice = some k → bootGraver (o.badGravers.map (·.val)) ≠ none →
      (coldStart why flushed o d).sys.stage = .boot ∧ (coldStart why flushed o d).dram.training = true) := by
  obtain ⟨media, nvm, role, stage⟩ := coldBase_resets why flushed o d
  have cause := coldBase_cause why flushed o d
  have boots := coldStart_boots why flushed o d
  have keeps := coldReady_keeps o (coldBase why flushed o d)
  have steward := fun runs => coldReady_steward (o := o) runs (coldBase why flushed o d)
  have media' := (keeps.media (by rfl)).trans media
  have nvm' := (keeps.nvm (by rfl)).trans nvm
  have sys' := keeps.sys (by rfl)
  have cause' := (keeps.regGet Rg.SYS_RST_CAUSE 0 0 (by rfl)).trans cause
  rw [boots]
  generalize coldReady o (coldBase why flushed o d) = e at keeps steward media' nvm' sys' cause' ⊢
  rw [← sys'] at role stage
  have boot := bootRun_keeps e
  cases choice : d.nvm.romChoice with
  | none =>
    have sys := bootRun_refused (d := e) (by rw [nvm', choice])
    split
    · rw [boot.media (by rfl), boot.regGet Rg.SYS_RST_CAUSE 0 0 (by rfl), sys]
      exact ⟨media', role, cause', fun _ => rfl, fun k same => absurd same (Option.some_ne_none k).symm⟩
    · exact ⟨media', role, cause', fun _ => stage, fun k same => absurd same (Option.some_ne_none k).symm⟩
  | some k =>
    have accepted := bootRun_accepted (d := e) (k := k) (by rw [nvm', choice])
    obtain ⟨sys, training⟩ := bootSlot_trains k e
    split
    · rw [boot.media (by rfl), boot.regGet Rg.SYS_RST_CAUSE 0 0 (by rfl), accepted, sys]
      exact ⟨media', role, cause', fun same => absurd same (Option.some_ne_none k), fun _ _ _ => ⟨rfl, training⟩⟩
    case isFalse alone =>
      exact ⟨media', role, cause', fun same => absurd same (Option.some_ne_none k), fun _ _ runs => absurd (steward runs) alone⟩

theorem execColdReset_held {s : State} {o : ResetObs} {why : Why} {fl : Bool} (due : s.dev.resetWhy = some (why, fl))
    (low : s.dev.sys.failLow = true) :
    execColdReset o s = .next (s.modDev fun d => d.modSys fun y => { y with stage := .waiting why fl }) := by
  unfold execColdReset
  rw [due]
  exact if_pos low

theorem execColdReset_released {s : State} {o : ResetObs} {why : Why} {fl : Bool} (due : s.dev.resetWhy = some (why, fl))
    (high : s.dev.sys.failLow = false) : execColdReset o s = .next { s with mem := [], dev := coldStart why fl o s.dev } := by
  unfold execColdReset
  rw [due]
  exact if_neg (by rw [high]; exact Bool.false_ne_true)

/-! ### Thrumlux's start (R435, R436) -/

theorem startHardware_starts (o : StartObs) (d : Dev) : (startHardware o d).sys.stage = .starting o .training ∧
    (startHardware o d).sys.pinsSafe = false ∧ (startHardware o d).grv.mlock = true := by
  have locked : (runGravers (d.rd Fd.GRV_BOOT_SLOT) d).grv.mlock = true := rfl
  refine ⟨rfl, rfl, ?_⟩
  unfold startHardware
  dsimp only
  generalize runGravers (d.rd Fd.GRV_BOOT_SLOT) d = e at locked ⊢
  rw [Dev.modSys, (findDies_keeps _ _).grv (by rfl), (defaultQuotas_keeps _).grv (by rfl), (enableCipher_keeps _).grv (by rfl),
    (enableMemory_keeps _).grv (by rfl), locked]

/-- A self-test without a failure leaves only its own results. -/
theorem selfTestEnd_passed (s : State) : (selfTestEnd [] s).dev.sys = { s.dev.sys with selftest := false } ∧
    (selfTestEnd [] s).dev.grv = s.dev.grv := by
  have passed : selfTestEnd [] s = (s.modDev fun d => (selfTestResults [] d).flagIf false Fd.LDPC_EVT_ST_FAIL).modDev
      fun d => (d.wr Fd.LDPC_ST_SEL_RUN 0).modSys fun y => { y with selftest := false } := rfl
  have results := selfTestResults_keeps [] s.dev
  rw [passed]
  constructor
  · rw [State.modDev_dev, State.modDev_dev, Dev.modSys, Dev.wr_sys, Dev.flagIf_sys, results.sys (by rfl)]
  · rw [State.modDev_dev, State.modDev_dev, Dev.modSys, Dev.wr_grv, Dev.flagIf_grv, results.grv (by rfl)]

theorem thrumluxStart_starts {o : StartObs} (sound : o.fails = []) (channels : o.badChannels = []) (s : State) :
    (thrumluxStart o s).dev.sys.stage = .starting o .training ∧ (thrumluxStart o s).dev.sys.pinsSafe = false ∧
    (thrumluxStart o s).dev.grv.mlock = true := by
  have starts : thrumluxStart o s = selfTestEnd [] (s.modDev (startHardware o)) := by
    unfold thrumluxStart
    rw [if_neg (by rw [sound]; exact Bool.false_ne_true), channels, sound]
    rfl
  obtain ⟨sys, grv⟩ := selfTestEnd_passed (s.modDev (startHardware o))
  rw [starts, sys, grv]
  exact startHardware_starts o s.dev

theorem thrumluxStart_stops {o : StartObs} {s : State} (boot : s.dev.sys.stage = .boot) (fatal : ∃ f ∈ o.fails, f.index.val = 62 ∧ f.unit = 0) :
    (thrumluxStart o s).dev.sys.stage = .stopped .fatal ∧ (thrumluxStart o s).dev.sys.cfs = true := by
  have fails : (o.fails.any fun f => f.index.val = 62 && f.unit = 0) = true := by simpa using fatal
  have stage : (selfTestResults o.fails s.dev).sys.stage = .boot := by rw [(selfTestResults_keeps _ _).sys (by rfl), boot]
  have stops : (thrumluxStart o s).dev = faultOn 9 ((selfTestResults o.fails s.dev).modSys fun y => { y with stage := .stopped .fatal, cfs := true }) := by
    unfold thrumluxStart
    rw [if_pos fails, State.modDev_dev]
    unfold fatalStorage
    rw [if_neg (by rw [stage]; decide)]
  rw [stops, (faultOn_keeps _ _).sys (by rfl)]
  exact ⟨rfl, rfl⟩

theorem execThrumluxStartup_due {o : StartObs} {s : State} (boot : s.dev.sys.stage = .boot) (ready : s.dev.dram.initDone = true) :
    execThrumluxStartup o s = .next (thrumluxStart o s) := by
  unfold execThrumluxStartup
  rw [if_pos (by rw [boot, ready]; rfl)]

/-! ### The flush (R439 to R442) -/

theorem takeDir_fseq (dies : List Nat) (n : Nat) (d : Dev) : (takeDir dies n d).nvm.fseq = d.nvm.fseq := rfl

theorem modNvm_nvm (f : Nvm → Nvm) (d : Dev) : (d.modNvm f).nvm = f d.nvm := rfl

theorem writeImage_fseq (more : List FlushUnit) (d : Dev) : (writeImage more d).nvm.fseq = d.nvm.fseq + 1 := by
  unfold writeImage
  dsimp only
  rw [modNvm_nvm, takeDir_fseq]

/-- The device that a flush has brought to rest. -/
def flushQuiet (d : Dev) : Dev := forUpTo 48 quietChan (disableAll allFuncs false (d.tick 1))

theorem flushQuiet_left (d : Dev) : (flushQuiet d).nvm = d.nvm ∧ (flushQuiet d).sys = d.sys := by
  have quiet := DevKeeps.forUpTo (n := 48) (f := quietChan) (.refl 16433 (disableAll allFuncs false (d.tick 1)))
    fun n y keeps => keeps.step (quietChan_keeps n y) (by rfl)
  have disabled := disableAll_keeps allFuncs false (d.tick 1)
  exact ⟨(quiet.nvm (by rfl)).trans (disabled.nvm (by rfl)), (quiet.sys (by rfl)).trans (disabled.sys (by rfl))⟩

/-- The image of a device at rest is written, with fetch off and the limit set lifted. -/
def flushWritten (why : Why) (us : List FlushUnit) (d : Dev) : Dev :=
  writeImage us ((commitPieces us ((d.modHost fun h => { h with fetchOn := false }).modPwr fun p => { p with limit := 0, entry := none })).modSys
    fun y => { y with stage := .flushing why false })

theorem flushAll_writes (why : Why) (d : Dev) : flushAll why d = flushWritten why d.pieceUnits (flushQuiet d) := rfl

theorem flushWritten_sys (why : Why) (us : List FlushUnit) (d : Dev) :
    (flushWritten why us d).sys = { d.sys with stage := .flushing why false } := by
  rw [flushWritten, (writeImage_keeps _ _).sys (by rfl), Dev.modSys, (commitPieces_keeps _ _).sys (by rfl)]
  rfl

theorem flushWritten_left (why : Why) (us : List FlushUnit) (d : Dev) : (flushWritten why us d).nvm.fseq = d.nvm.fseq + 1 ∧
    (flushWritten why us d).host.fetchOn = false ∧ (flushWritten why us d).pwr.limit = 0 := by
  refine ⟨?_, ?_, ?_⟩
  · rw [flushWritten, writeImage_fseq, Dev.modSys, (commitPieces_keeps _ _).nvm (by rfl)]
    rfl
  · rw [flushWritten, (writeImage_keeps _ _).host (by rfl), Dev.modSys, (commitPieces_keeps _ _).host (by rfl)]
    rfl
  · rw [flushWritten, (writeImage_keeps _ _).pwr (by rfl), Dev.modSys, (commitPieces_keeps _ _).pwr (by rfl)]
    rfl

theorem flushAll_flushes (why : Why) (d : Dev) : (flushAll why d).sys = { d.sys with stage := .flushing why false } ∧
    (flushAll why d).nvm.fseq = d.nvm.fseq + 1 ∧ (flushAll why d).host.fetchOn = false ∧ (flushAll why d).pwr.limit = 0 := by
  obtain ⟨nvm, sys⟩ := flushQuiet_left d
  rw [flushAll_writes, flushWritten_sys, sys, ← nvm]
  exact ⟨rfl, flushWritten_left ..⟩

theorem fatalStop_flushes {d : Dev} (staging : d.mayStage = true) : (fatalStop d).sys.stage = .flushing .fatal false ∧
    (fatalStop d).nvm.fseq = d.nvm.fseq + 1 ∧ (fatalStop d).host.fetchOn = false ∧ (fatalStop d).pwr.limit = 0 := by
  obtain ⟨sys, fseq, fetch, limit⟩ := flushAll_flushes .fatal d
  rw [fatalStop, if_pos staging, sys]
  exact ⟨rfl, fseq, fetch, limit⟩

theorem trip_flushes (d : Dev) : (flushAll .trip (d.wr Fd.PWR_EVT_TRIP 1)).sys.stage = .flushing .trip false ∧
    (flushAll .trip (d.wr Fd.PWR_EVT_TRIP 1)).nvm.fseq = d.nvm.fseq + 1 ∧ (flushAll .trip (d.wr Fd.PWR_EVT_TRIP 1)).host.fetchOn = false ∧
    (flushAll .trip (d.wr Fd.PWR_EVT_TRIP 1)).pwr.limit = 0 := by
  obtain ⟨sys, fseq, fetch, limit⟩ := flushAll_flushes .trip (d.wr Fd.PWR_EVT_TRIP 1)
  rw [sys, fseq, Dev.wr_nvm]
  exact ⟨rfl, rfl, fetch, limit⟩

theorem rstCold_flushes {d : Dev} (staging : d.mayStage = true) : rstCold d = flushAll .software d := if_pos staging

/-- Before data may be staged there is nothing to save. -/
theorem rstCold_resets {d : Dev} (empty : d.mayStage = false)
    (starting : d.sys.stage = .boot ∨ d.sys.stage = .noSlot ∨ ∃ o a, d.sys.stage = .starting o a) :
    rstCold d = d.modSys fun y => { y with stage := .reset .software false } := by
  unfold rstCold
  rw [if_neg (by rw [empty]; exact Bool.false_ne_true)]
  rcases starting with at' | at' | ⟨o, a, at'⟩ <;> rw [at']

/-! ### PWRFAIL_N (R411, R481) -/

theorem entryDropped_fseq (e : Entry) (d : Dev) : (entryDropped e d).nvm.fseq = d.nvm.fseq := by
  unfold entryDropped
  dsimp only
  split
  · split
    · rfl
    · rfl
  · rfl

theorem wakeAlways_fseq (b : Nat) (d : Dev) : (wakeAlways b d).nvm.fseq = d.nvm.fseq := by
  cases under : d.pwr.entry with
  | some e =>
    have woken : wakeAlways b d = abortEntry (wakeCause b) (wakeIdle (recordWake b d)) := by
      unfold wakeAlways
      dsimp only
      rw [if_pos (by rw [recordWake_pwr, under]; rfl)]
    rw [woken, abortEntry_drops _ (show (wakeIdle (recordWake b d)).pwr.entry = some e from under), entryDropped_fseq, Dev.wr_nvm, Dev.wr_nvm,
      Dev.add_nvm, (wakeIdle_keeps _).nvm (by rfl), (recordWake_keeps _ _).nvm (by rfl)]
  | none =>
    by_cases asleep : d.pwr.ps = 3
    · rw [wakeAlways_exits under asleep, (exitPs3_keeps _).nvm (by rfl), (recordWake_keeps _ _).nvm (by rfl)]
    · rw [wakeAlways_awake under asleep, (recordWake_keeps _ _).nvm (by rfl)]

/-- The device that has seen PWRFAIL_N fall. -/
def pwrfailSeen (d : Dev) : Dev := wakeAlways 5 (d.modSys fun y => { y with failLow := true })

theorem pwrfailSeen_left (d : Dev) : (pwrfailSeen d).sys = { d.sys with failLow := true } ∧ (pwrfailSeen d).nvm.fseq = d.nvm.fseq :=
  ⟨(wakeAlways_keeps _ _).sys (by rfl), wakeAlways_fseq _ _⟩

theorem pwrfailFall_flushes {d : Dev} (staging : d.mayStage = true) (powered : d.pwr.ps ≠ 4) :
    pwrfailFall d = flushAll .power (pwrfailSeen d) := by
  unfold pwrfailFall
  dsimp only
  rw [if_pos staging, if_neg powered]
  rfl

theorem pwrfailFall_waits {d : Dev} (empty : d.mayStage = false)
    (starting : d.sys.stage = .boot ∨ d.sys.stage = .noSlot ∨ ∃ o a, d.sys.stage = .starting o a) :
    pwrfailFall d = (pwrfailSeen d).modSys fun y => { y with stage := .waiting .power false } := by
  unfold pwrfailFall
  dsimp only
  rw [if_neg (by rw [empty]; exact Bool.false_ne_true)]
  rcases starting with at' | at' | ⟨o, a, at'⟩ <;> rw [at'] <;> rfl

/-- PWRFAIL_N high again: a held start goes on. -/
def pwrfailOver (d : Dev) : Dev :=
  let d := d.modSys fun y => { y with failLow := false }
  match d.sys.stage with
  | .waiting why fl => d.modSys fun y => { y with stage := .reset why fl }
  | _ => d

theorem pwrfailOver_resumes (d : Dev) : (pwrfailOver d).sys.failLow = false ∧
    (∀ why fl, d.sys.stage = .waiting why fl → (pwrfailOver d).sys.stage = .reset why fl) ∧
    ((∀ why fl, d.sys.stage ≠ .waiting why fl) → (pwrfailOver d).sys.stage = d.sys.stage) := by
  unfold pwrfailOver
  dsimp only [Dev.modSys]
  split
  case h_1 why fl held =>
    refine ⟨rfl, fun why' fl' held' => ?_, fun free => absurd held (free why fl)⟩
    obtain ⟨rfl, rfl⟩ := Stage.waiting.inj (held.symm.trans held')
    rfl
  case h_2 free => exact ⟨rfl, fun why fl held => absurd held (free why fl), fun _ => rfl⟩

/-! ### The end of the flush (R442, R452) -/

theorem afterFlush_goes (why : Why) (power : Bool) (d : Dev) : (power = false → (afterFlush why power d).sys.stage = .off) ∧
    (power = true → why = .power ∨ why = .software → (afterFlush why power d).sys.stage = .reset why true) ∧
    (power = true → why = .trip ∨ why = .fatal →
      (afterFlush why power d).sys.stage = .stopped why ∧ (afterFlush why power d).sys.cfs = true) := by
  have stopped : (faultOn 9 (d.modSys fun y => { y with stage := .stopped why, cfs := true })).sys = { d.sys with stage := .stopped why, cfs := true } :=
    (faultOn_keeps _ _).sys (by rfl)
  refine ⟨fun off => ?_, fun on next => ?_, fun on next => ?_⟩
  · subst off
    rfl
  · subst on
    rcases next with rfl | rfl <;> rfl
  · subst on
    have stops : afterFlush why true d = faultOn 9 (d.modSys fun y => { y with stage := .stopped why, cfs := true }) := by
      rcases next with rfl | rfl <;> rfl
    rw [stops, stopped]
    exact ⟨rfl, rfl⟩

theorem flushEnd_ends {d : Dev} {us10 : Nat} {power : Bool} {why : Why} (flushing : d.sys.stage = .flushing why true) (small : us10 < 2 ^ 16) :
    ∃ e, flushEnd us10 power d = .ok e ∧ e.rd Fd.SYS_FLUSH_TIME_END = 1 ∧ e.rd Fd.SYS_FLUSH_TIME_US10 = us10 ∧
      (power = false → e.sys.stage = .off) ∧ (power = true → why = .power ∨ why = .software → e.sys.stage = .reset why true) ∧
      (power = true → why = .trip ∨ why = .fatal → e.sys.stage = .stopped why ∧ e.sys.cfs = true) := by
  refine ⟨afterFlush why power (((endImage d).wr Fd.SYS_FLUSH_TIME_END 1).wr Fd.SYS_FLUSH_TIME_US10 us10), ?_, ?_, ?_, afterFlush_goes ..⟩
  · unfold flushEnd
    rw [flushing]
  · rw [(afterFlush_keeps _ _ _).rd _ (by rfl)]
    exact (Dev.rdx_wrx_fldAt (by decide)).trans (Dev.rd_wr_same _ _ (by decide) (by decide))
  · rw [(afterFlush_keeps _ _ _).rd _ (by rfl)]
    exact (Dev.rd_wr_same _ _ (by decide) (by decide)).trans (Nat.mod_eq_of_lt small)

/-- Settles O48: what a power-on and a cold reset keep, how the boot and Thrumlux start, what flushes the device and where it goes from there. -/
theorem startsAndFlushesAct : Obligations.StartsAndFlushesAct := by
  refine ⟨?_, ?_, ?_, ?_, ?_, ?_, ?_, ?_, ?_⟩
  · intro s
    exact ⟨_, rfl, rfl, rfl, rfl, rfl, rfl, rfl, rfl⟩
  · intro o s why fl due
    refine ⟨fun low => ⟨_, execColdReset_held due low, rfl, rfl⟩, fun high => ?_⟩
    obtain ⟨media, role, cause, refused, accepted⟩ := coldStart_resets why fl o s.dev
    exact ⟨_, execColdReset_released due high, rfl, media, role, cause, refused, accepted⟩
  · intro o s boot ready
    exact ⟨fun sound channels => ⟨_, execThrumluxStartup_due boot ready, thrumluxStart_starts sound channels s⟩,
      fun fatal => ⟨_, execThrumluxStartup_due boot ready, thrumluxStart_stops boot fatal⟩⟩
  · intro s staging
    refine ⟨fun p among => ?_, fun v plain => ?_, fun powered => ?_⟩
    · rcases List.mem_cons.mp among with rfl | among
      · exact givesDev_onlyIf' (b := Dev.mayStage) (f := fatalStop) staging (fatalStop_flushes staging)
      · obtain rfl := List.mem_singleton.mp among
        exact givesDev_onlyIf' (b := Dev.mayStage) (f := fun d => flushAll .trip (d.wr Fd.PWR_EVT_TRIP 1)) staging (trip_flushes s.dev)
    · obtain ⟨sys, fseq, fetch, -⟩ := flushAll_flushes .software s.dev
      refine givesDev_orRsv (f := rstCold) (by simp [plain]) ?_
      rw [rstCold_flushes staging, sys, fseq, fetch]
      exact ⟨rfl, rfl, rfl⟩
    · obtain ⟨sys, fseq, -, -⟩ := flushAll_flushes .power (pwrfailSeen s.dev)
      obtain ⟨seen, kept⟩ := pwrfailSeen_left s.dev
      refine givesDev_always (f := pwrfailFall) ?_
      rw [pwrfailFall_flushes staging powered, sys, seen, fseq, kept]
      exact ⟨rfl, rfl, rfl⟩
  · intro v s plain empty starting
    refine givesDev_orRsv (by simp [plain]) ?_
    rw [rstCold_resets empty starting]
    exact ⟨rfl, rfl⟩
  · intro s empty starting
    refine givesDev_always (f := pwrfailFall) ?_
    rw [pwrfailFall_waits empty starting]
    exact ⟨rfl, congrArg (·.failLow) (pwrfailSeen_left s.dev).1⟩
  · intro s
    exact ⟨_, rfl, pwrfailOver_resumes s.dev⟩
  · intro s
    exact ⟨_, rfl, rfl, rfl, rfl, rfl⟩
  · intro us10 power s why flushing
    obtain ⟨d, ok, holds⟩ := flushEnd_ends (power := power) flushing us10.isLt
    exact givesDev_of_ok ok holds

end Sys2Proof.Machine

/-! PROOFS. The Dalesk link and the cascade of followers (R456 to R469). -/

namespace Sys2Proof.Machine

/-! ### Ports and what sending leaves of them -/

theorem dlkPort_modDlkPort_same (p : Nat) (f : DlkPort → DlkPort) (d : Dev) : (d.modDlkPort p f).dlkPort p = f (d.dlkPort p) :=
  mapGet_mod_same ..

theorem dlkPort_of_dlk {d e : Dev} (same : e.dlk.ports = d.dlk.ports) (p : Nat) : e.dlkPort p = d.dlkPort p := by
  rw [Dev.dlkPort, Dev.dlkPort, same]

/-- What its training gave a port: whether it is up, how wide, and with which device behind it. -/
def Dev.line (d : Dev) (p : Nat) : Bool × Nat × Nat := ((d.dlkPort p).up, (d.dlkPort p).width, (d.dlkPort p).peer)

theorem line_of_dlk {d e : Dev} (same : e.dlk.ports = d.dlk.ports) (p : Nat) : e.line p = d.line p := by
  rw [Dev.line, Dev.line, dlkPort_of_dlk same]

theorem modDlkPort_line {f : DlkPort → DlkPort} (keeps : ∀ x, (f x).up = x.up ∧ (f x).width = x.width ∧ (f x).peer = x.peer) (q p : Nat) (d : Dev) :
    (d.modDlkPort q f).line p = d.line p := by
  by_cases same : p = q
  · subst same
    obtain ⟨up, width, peer⟩ := keeps (d.dlkPort p)
    rw [Dev.line, Dev.line, dlkPort_modDlkPort_same, up, width, peer]
  · have other : (d.modDlkPort q f).dlkPort p = d.dlkPort p := mapGet_mod_other _ _ f same
    rw [Dev.line, Dev.line, other]

/-- The state of the link but for its ports. -/
def Dlk.rest (x : Dlk) : Dlk := { x with ports := [] }

theorem transmit_line (q p n : Nat) (d : Dev) : (transmit q n d).line p = d.line p := by
  induction n generalizing d with
  | zero => rfl
  | succ n ih =>
    unfold transmit
    dsimp only
    split
    · split
      · exact (ih _).trans (modDlkPort_line (by exact fun x => ⟨rfl, rfl, rfl⟩) q p d)
      · rfl
    · rfl

theorem transmit_rest (q n : Nat) (d : Dev) : (transmit q n d).dlk.rest = d.dlk.rest := by
  induction n generalizing d with
  | zero => rfl
  | succ n ih =>
    unfold transmit
    dsimp only
    split
    · split
      · exact ih _
      · rfl
    · rfl

theorem enqueueFlits_line (q p : Nat) (fs : List DlkFlit) (d : Dev) : (enqueueFlits q fs d).line p = d.line p :=
  (transmit_line ..).trans (modDlkPort_line (by exact fun x => ⟨rfl, rfl, rfl⟩) q p d)

theorem enqueueFlits_rest (q : Nat) (fs : List DlkFlit) (d : Dev) : (enqueueFlits q fs d).dlk.rest = d.dlk.rest := transmit_rest ..

theorem sendMessage_line (pos id vc p : Nat) (body : List Byte) (d : Dev) : (sendMessage pos id vc body d).line p = d.line p :=
  enqueueFlits_line ..

theorem sendMessage_rest (pos id vc : Nat) (body : List Byte) (d : Dev) : (sendMessage pos id vc body d).dlk.rest = d.dlk.rest :=
  enqueueFlits_rest ..

theorem respondDlk_line (pos id vc p : Nat) (body : List Byte) (d : Dev) : (respondDlk pos id vc body d).line p = d.line p :=
  sendMessage_line ..

/-- The response is held first of all. -/
theorem respondDlk_holds (pos id vc : Nat) (body : List Byte) (d : Dev) :
    (respondDlk pos id vc body d).dlk.held.head? = some { pos := pos, id := id, vc := vc, body := body } :=
  congrArg (·.held.head?) (sendMessage_rest pos id vc body _)

theorem resend_line (asked : DlkMsg → Bool) (p : Nat) (d : Dev) : (resend asked d).line p = d.line p :=
  List.foldlRecOn (motive := fun e : Dev => e.line p = d.line p) _ _ rfl fun _ same _ _ => (sendMessage_line ..).trans same

theorem resend_rest (asked : DlkMsg → Bool) (d : Dev) : (resend asked d).dlk.rest = d.dlk.rest :=
  List.foldlRecOn (motive := fun e : Dev => e.dlk.rest = d.dlk.rest) _ _ rfl fun _ same _ _ => (sendMessage_rest ..).trans same

theorem seeDevice_ports (behind pos : Nat) (d : Dev) : (seeDevice behind pos d).dlk.ports = d.dlk.ports := by
  unfold seeDevice
  dsimp only
  split
  · rfl
  · split
    · rfl
    · split <;> rfl

/-! ### Flits (R457 to R460) -/

theorem sendFlits_out (p : Nat) (fs : List DlkFlit) (d : Dev) : fs.foldl (fun (d : Dev) f => d.send (.flit p (flitImage f))) d =
    { d with out := (fs.map fun f => Out.flit p (flitImage f)).reverse ++ d.out } := by
  induction fs generalizing d with
  | nil => rfl
  | cons f fs ih =>
    rw [List.foldl_cons, ih, List.map_cons, List.reverse_cons, List.append_assoc]
    rfl

theorem sendAck_sends (p : Nat) (d : Dev) : (sendAck p d).dlkPort p = { d.dlkPort p with accepted := 0 } ∧
    (sendAck p d).out = .ack p (((d.dlkPort p).expect + 4095) % 4096) :: d.out :=
  ⟨dlkPort_modDlkPort_same p (fun y => { y with accepted := 0 }) _, rfl⟩

/-- The device whose port has accepted one flit more. -/
def flitCounted (p : Nat) (d : Dev) : Dev :=
  d.modDlkPort p fun y => { y with expect := (y.expect + 1) % 4096, accepted := y.accepted + 1 }

theorem flitCounted_port (p : Nat) (d : Dev) : (flitCounted p d).dlkPort p =
    { d.dlkPort p with expect := ((d.dlkPort p).expect + 1) % 4096, accepted := (d.dlkPort p).accepted + 1 } := dlkPort_modDlkPort_same ..

/-- A flit for this device is accepted, and every 64th one acknowledged. -/
theorem acceptFlit_accepts {p : Nat} {f : DlkFlit} {d : Dev} (mine : f.dst.val = d.sys.role) :
    if (d.dlkPort p).accepted + 1 < 64 then
      (acceptFlit p f d).dlkPort p =
        { d.dlkPort p with expect := ((d.dlkPort p).expect + 1) % 4096, accepted := (d.dlkPort p).accepted + 1 } ∧ (acceptFlit p f d).out = d.out
    else (acceptFlit p f d).dlkPort p = { d.dlkPort p with expect := ((d.dlkPort p).expect + 1) % 4096, accepted := 0 } ∧
      (acceptFlit p f d).out = .ack p ((((d.dlkPort p).expect + 1) % 4096 + 4095) % 4096) :: d.out := by
  have counted := flitCounted_port p d
  have stays : ∀ e : Dev, e.sys = d.sys → forwardFlit p f e = e := fun e same => if_pos (by rw [same]; exact mine)
  have accepts : acceptFlit p f d = if 64 ≤ (d.dlkPort p).accepted + 1 then sendAck p (flitCounted p d) else flitCounted p d := by
    have number : ((flitCounted p d).dlkPort p).accepted = (d.dlkPort p).accepted + 1 := congrArg (·.accepted) counted
    unfold acceptFlit
    dsimp only
    change forwardFlit p f (if 64 ≤ ((flitCounted p d).dlkPort p).accepted then _ else _) = _
    rw [number]
    split
    · exact stays _ rfl
    · exact stays _ rfl
  rw [accepts]
  split
  case isTrue few =>
    rw [if_neg (Nat.not_le.mpr few)]
    exact ⟨counted, rfl⟩
  case isFalse many =>
    obtain ⟨port, out⟩ := sendAck_sends p (flitCounted p d)
    rw [if_pos (Nat.not_lt.mp many), port, out, counted]
    exact ⟨rfl, rfl⟩

theorem takeAck_drops {p : Nat} {a : BitVec 12} {d : Dev} (sent : ((d.dlkPort p).unacked.any fun y => y.seq == a) = true)
    (idle : (d.dlkPort p).ready = []) :
    (takeAck p a d).dlkPort p = { d.dlkPort p with unacked := dropAcked a (d.dlkPort p).unacked, replays := 0 } := by
  unfold takeAck
  dsimp only
  rw [if_pos sent, List.length_eq_zero_iff.mpr idle]
  exact dlkPort_modDlkPort_same p (fun y => { y with unacked := dropAcked a y.unacked, replays := 0 }) d

/-! ### Ports down (R460, R461, R466) -/

/-- The device whose port has gone down, with what waits there. -/
def dlkFallen (p : Nat) (kept : List DlkFlit) (d : Dev) : Dev :=
  masterWatch (laneFault ((d.modDlkPort p fun y => { DlkPort.reset with peer := y.peer, ready := kept }).wr Fd.DLK_EVT_LINK_DN 1))

theorem masterWatch_ports (d : Dev) : (masterWatch d).dlk.ports = d.dlk.ports := rfl

theorem dlkFallen_port (p : Nat) (kept : List DlkFlit) (d : Dev) :
    (dlkFallen p kept d).dlkPort p = { DlkPort.reset with peer := (d.dlkPort p).peer, ready := kept } := by
  refine (dlkPort_of_dlk ?_ p).trans (dlkPort_modDlkPort_same p (fun y => { DlkPort.reset with peer := y.peer, ready := kept }) d)
  rw [dlkFallen, masterWatch_ports, (laneFault_keeps _).dlk (by rfl), Dev.wr_dlk]

theorem dlkFallen_event (p : Nat) (kept : List DlkFlit) (d : Dev) : (dlkFallen p kept d).rd Fd.DLK_EVT_LINK_DN = 1 :=
  ((masterWatch_keeps _).rd _ (by rfl)).trans (((laneFault_keeps _).rd _ (by rfl)).trans (Dev.rd_wr_same _ _ (by decide) (by decide)))

/-- The device whose closed ring has lost a port, before it sends what waited there the other way. -/
def dlkOpened (p : Nat) (d : Dev) : Dev :=
  ((dlkFallen p [] d).modDlk fun y => { y with rerouted := true }).wr Fd.DLK_EVT_REROUTE 1

theorem modDlk_rd (f : Dlk → Dlk) (d : Dev) (g : Fld) : (d.modDlk f).rd g = d.rd g := rfl

theorem dlkOpened_events (p : Nat) (d : Dev) : (dlkOpened p d).rd Fd.DLK_EVT_LINK_DN = 1 ∧ (dlkOpened p d).rd Fd.DLK_EVT_REROUTE = 1 := by
  have fallen := dlkFallen_event p [] d
  unfold dlkOpened
  generalize dlkFallen p [] d = e at fallen ⊢
  rw [← modDlk_rd fun y => { y with rerouted := true }] at fallen
  exact ⟨(Dev.rdx_wrx_fldAt (by decide)).trans fallen, Dev.rd_wr_same _ _ (by decide) (by decide)⟩

theorem dlkOpened_line (p : Nat) (d : Dev) : (dlkOpened p d).line p = (dlkFallen p [] d).line p := by
  unfold dlkOpened
  exact line_of_dlk (by rw [Dev.wr_dlk]; rfl) p

/-- The device whose ring carries on by the other port. -/
def dlkRerouted (p : Nat) (d : Dev) : Dev :=
  resend (fun _ => true) (enqueueFlits (1 - p) ((d.dlkPort p).unacked ++ (d.dlkPort p).ready) (dlkOpened p d))

theorem dlkDown_alone {p : Nat} {d : Dev} (alone : (d.isRing && (d.dlkPort (1 - p)).up) = false) :
    dlkDown p d = dlkFallen p ((d.dlkPort p).unacked ++ (d.dlkPort p).ready) d := by
  unfold dlkDown
  simp only [alone]
  rfl

theorem dlkDown_around {p : Nat} {d : Dev} (around : (d.isRing && (d.dlkPort (1 - p)).up) = true) : dlkDown p d = dlkRerouted p d := by
  unfold dlkDown
  simp only [around]
  rfl

theorem dlkRerouted_line (p : Nat) (d : Dev) : ((dlkRerouted p d).dlkPort p).up = false := by
  have fallen : (dlkFallen p [] d).line p = (false, 0, (d.dlkPort p).peer) := by rw [Dev.line, dlkFallen_port]; rfl
  have same : (dlkRerouted p d).line p = (dlkOpened p d).line p := (resend_line ..).trans (enqueueFlits_line ..)
  exact congrArg (·.1) ((same.trans (dlkOpened_line p d)).trans fallen)

theorem dlkRerouted_rd (p : Nat) (d : Dev) (f : Fld) : (dlkRerouted p d).rd f = (dlkOpened p d).rd f :=
  Dev.rdx_congr (((resend_keeps _ _).regs (by rfl)).trans ((enqueueFlits_keeps _ _ _).regs (by rfl))) 0 0 f

theorem dlkRerouted_events (p : Nat) (d : Dev) :
    (dlkRerouted p d).rd Fd.DLK_EVT_LINK_DN = 1 ∧ (dlkRerouted p d).rd Fd.DLK_EVT_REROUTE = 1 := by
  rw [dlkRerouted_rd, dlkRerouted_rd]
  exact dlkOpened_events p d

theorem dlkDown_falls (p : Nat) (d : Dev) : ((dlkDown p d).dlkPort p).up = false ∧ (dlkDown p d).rd Fd.DLK_EVT_LINK_DN = 1 := by
  cases around : d.isRing && (d.dlkPort (1 - p)).up with
  | false =>
    rw [dlkDown_alone around, dlkFallen_port]
    exact ⟨rfl, dlkFallen_event ..⟩
  | true =>
    rw [dlkDown_around around]
    exact ⟨dlkRerouted_line p d, (dlkRerouted_events p d).1⟩

theorem dlkDown_reroutes (p : Nat) (d : Dev) : ((dlkDown p d).dlkPort p).up = false ∧ (dlkDown p d).rd Fd.DLK_EVT_LINK_DN = 1 ∧
    (d.isRing = false ∨ (d.dlkPort (1 - p)).up = false → ((dlkDown p d).dlkPort p).ready = (d.dlkPort p).unacked ++ (d.dlkPort p).ready) ∧
    (d.isRing = true → (d.dlkPort (1 - p)).up = true → (dlkDown p d).rd Fd.DLK_EVT_REROUTE = 1) := by
  obtain ⟨down, event⟩ := dlkDown_falls p d
  refine ⟨down, event, fun alone => ?_, fun ring other => ?_⟩
  · rw [dlkDown_alone (Bool.and_eq_false_iff.mpr alone), dlkFallen_port]
  · rw [dlkDown_around (by rw [ring, other]; rfl)]
    exact (dlkRerouted_events p d).2

/-! ### Replays (R460) -/

/-- The device that has counted a replay of a port. -/
def replayCounted (p : Nat) (d : Dev) : Dev := if p = 0 then d.add Fd.DLK_CNT_RETRY_DN 1 else d.add Fd.DLK_CNT_RETRY_UP 1

theorem replayCounted_left (p : Nat) (d : Dev) : (replayCounted p d).dlk = d.dlk ∧ (replayCounted p d).out = d.out := by
  unfold replayCounted
  split
  · exact ⟨Dev.add_dlk .., Dev.add_out ..⟩
  · exact ⟨Dev.add_dlk .., Dev.add_out ..⟩

/-- The device that has sent again what a port holds unacknowledged. -/
def replaySent (p : Nat) (d : Dev) : Dev :=
  { replayCounted p d with out := ((d.dlkPort p).unacked.map fun f => Out.flit p (flitImage f)).reverse ++ (replayCounted p d).out }

theorem replayFlits_sends {p : Nat} {d : Dev} (sent : (d.dlkPort p).unacked ≠ []) : replayFlits p d =
    if 8 ≤ (d.dlkPort p).replays + 1 then dlkDown p (replaySent p d) else (replaySent p d).modDlkPort p fun y => { y with replays := y.replays + 1 } := by
  unfold replayFlits
  dsimp only
  rw [if_neg (by rw [List.isEmpty_iff]; exact sent), sendFlits_out]
  rfl

theorem replayFlits_replays {p : Nat} {d : Dev} (sent : (d.dlkPort p).unacked ≠ []) (few : (d.dlkPort p).replays + 1 < 8) :
    (replayFlits p d).dlkPort p = { d.dlkPort p with replays := (d.dlkPort p).replays + 1 } ∧
    (replayFlits p d).out = ((d.dlkPort p).unacked.map fun y => Out.flit p (flitImage y)).reverse ++ d.out := by
  obtain ⟨dlk, out⟩ := replayCounted_left p d
  have port : (replaySent p d).dlkPort p = d.dlkPort p := dlkPort_of_dlk (congrArg (·.ports) dlk) p
  rw [replayFlits_sends sent, if_neg (Nat.not_le.mpr few), dlkPort_modDlkPort_same, port, ← out]
  exact ⟨rfl, rfl⟩

theorem replayFlits_fails {p : Nat} {d : Dev} (sent : (d.dlkPort p).unacked ≠ []) (many : 8 ≤ (d.dlkPort p).replays + 1) :
    ((replayFlits p d).dlkPort p).up = false ∧ (replayFlits p d).rd Fd.DLK_EVT_LINK_DN = 1 := by
  rw [replayFlits_sends sent, if_pos many]
  exact dlkDown_falls ..

theorem replayFlits_idle {p : Nat} {d : Dev} (none : (d.dlkPort p).unacked = []) : replayFlits p d = d := by
  unfold replayFlits
  dsimp only
  rw [none]
  rfl

/-! ### A flit by its type -/

theorem takeFlit_data {p : Nat} {f : DlkFlit} (kind : f.kind.val = 1) (d : Dev) : takeFlit p f d = dataFlit p f d := if_pos kind

theorem takeFlit_void {p : Nat} {f : DlkFlit} (other : f.kind.val ≠ 1) (void : f.ok = false ∨ f.kind.val = 0) (d : Dev) : takeFlit p f d = d := by
  unfold takeFlit
  rw [if_neg other, if_pos (by rcases void with h | h <;> simp [h])]

theorem takeFlit_ack {p : Nat} {f : DlkFlit} (kind : f.kind.val = 2) (ok : f.ok = true) (d : Dev) : takeFlit p f d = takeAck p f.seq d := by
  unfold takeFlit
  rw [if_neg (by omega), if_neg (by simp [ok, kind]), if_pos kind]

theorem takeFlit_nak {p : Nat} {f : DlkFlit} (kind : f.kind.val = 3) (ok : f.ok = true) (d : Dev) : takeFlit p f d = replayFlits p d := by
  unfold takeFlit
  rw [if_neg (by omega), if_neg (by simp [ok, kind]), if_neg (by omega)]

theorem dataFlit_gap {p : Nat} {f : DlkFlit} {d : Dev}
    (gap : f.ok = false ∨ (1 ≤ (f.seq.toNat + 4096 - (d.dlkPort p).expect) % 4096 ∧ (f.seq.toNat + 4096 - (d.dlkPort p).expect) % 4096 ≤ 2047)) :
    dataFlit p f d = d.send (.nak p (d.dlkPort p).expect) := by
  unfold dataFlit
  dsimp only
  rw [if_pos (by simpa using gap)]

theorem dataFlit_duplicate {p : Nat} {f : DlkFlit} {d : Dev} (ok : f.ok = true)
    (old : 2047 < (f.seq.toNat + 4096 - (d.dlkPort p).expect) % 4096) : dataFlit p f d = d.add Fd.DLK_CNT_DUP_FLIT 1 := by
  unfold dataFlit
  dsimp only
  rw [if_neg (by simp [ok]; omega), if_neg (by omega)]

theorem dataFlit_next {p : Nat} {f : DlkFlit} {d : Dev} (ok : f.ok = true) (next : (f.seq.toNat + 4096 - (d.dlkPort p).expect) % 4096 = 0) :
    dataFlit p f d = acceptFlit p f d := by
  unfold dataFlit
  dsimp only
  rw [if_neg (by simp [ok, next]), if_pos next]

theorem takeFlit_takes {p : Nat} {f : DlkFlit} {d : Dev} {x : DlkPort} {diff : Nat} (port : x = d.dlkPort p)
    (ahead : diff = (f.seq.toNat + 4096 - x.expect) % 4096) :
    (f.kind.val = 0 → takeFlit p f d = d) ∧
    (f.kind.val = 1 → f.ok = false ∨ (1 ≤ diff ∧ diff ≤ 2047) → takeFlit p f d = d.send (.nak p x.expect)) ∧
    (f.kind.val = 1 → f.ok = true → 2047 < diff → takeFlit p f d = d.add Fd.DLK_CNT_DUP_FLIT 1) ∧
    (f.kind.val = 1 → f.ok = true → diff = 0 → f.dst.val = d.sys.role →
      if x.accepted + 1 < 64 then
        (takeFlit p f d).dlkPort p = { x with expect := (x.expect + 1) % 4096, accepted := x.accepted + 1 } ∧ (takeFlit p f d).out = d.out
      else (takeFlit p f d).dlkPort p = { x with expect := (x.expect + 1) % 4096, accepted := 0 } ∧
        (takeFlit p f d).out = .ack p (((x.expect + 1) % 4096 + 4095) % 4096) :: d.out) ∧
    (f.kind.val = 2 → f.ok = false ∨ (x.unacked.any fun y => y.seq == f.seq) = false → takeFlit p f d = d) ∧
    (f.kind.val = 2 → f.ok = true → (x.unacked.any fun y => y.seq == f.seq) = true → x.ready = [] →
      (takeFlit p f d).dlkPort p = { x with unacked := dropAcked f.seq x.unacked, replays := 0 }) ∧
    (f.kind.val = 3 → f.ok = false ∨ x.unacked = [] → takeFlit p f d = d) ∧
    (f.kind.val = 3 → f.ok = true → x.unacked ≠ [] → x.replays + 1 < 8 →
      (takeFlit p f d).dlkPort p = { x with replays := x.replays + 1 } ∧
      (takeFlit p f d).out = (x.unacked.map fun y => Out.flit p (flitImage y)).reverse ++ d.out) ∧
    (f.kind.val = 3 → f.ok = true → x.unacked ≠ [] → 8 ≤ x.replays + 1 → ((takeFlit p f d).dlkPort p).up = false) := by
  subst port ahead
  refine ⟨fun kind => ?_, fun kind gap => ?_, fun kind ok old => ?_, fun kind ok next mine => ?_, fun kind void => ?_, fun kind ok sent idle => ?_,
    fun kind void => ?_, fun kind ok sent few => ?_, fun kind ok sent many => ?_⟩
  · exact takeFlit_void (by omega) (.inr kind) d
  · rw [takeFlit_data kind, dataFlit_gap gap]
  · rw [takeFlit_data kind, dataFlit_duplicate ok old]
  · rw [takeFlit_data kind, dataFlit_next ok next]
    exact acceptFlit_accepts mine
  · cases ok : f.ok with
    | false => exact takeFlit_void (by omega) (.inl ok) d
    | true =>
      have unknown := void.resolve_left (by rw [ok]; exact Bool.noConfusion)
      rw [takeFlit_ack kind ok]
      exact if_neg (by rw [unknown]; exact Bool.false_ne_true)
  · rw [takeFlit_ack kind ok]
    exact takeAck_drops sent idle
  · cases ok : f.ok with
    | false => exact takeFlit_void (by omega) (.inl ok) d
    | true => rw [takeFlit_nak kind ok, replayFlits_idle (void.resolve_left (by rw [ok]; exact Bool.noConfusion))]
  · rw [takeFlit_nak kind ok]
    exact replayFlits_replays sent few
  · rw [takeFlit_nak kind ok]
    exact (replayFlits_fails sent many).1

end Sys2Proof.Machine

/-! PROOFS. The ports of the cascade up and narrowed, its requests and responses, followers lost and found (R456, R461 to R469). -/

namespace Sys2Proof.Machine

/-! ### Lanes and ports up (R453, R456) -/

theorem laneFault_narrow {p : Nat} {d : Dev} (low : p < 2) (up : (d.dlkPort p).up = true) (narrow : (d.dlkPort p).width < 4) :
    laneFault d = faultOn 5 d :=
  if_pos (List.any_eq_true.mpr ⟨p, List.mem_range.mpr low, by rw [up, decide_eq_true narrow]; rfl⟩)

theorem faultOn_bit_set {b : Nat} (low : b < 32) (d : Dev) : bit ((faultOn b d).regGet Rg.SYS_FAULT 0 0) b = true := by
  have set := faultOn_bit low d
  rw [bits_self] at set
  exact (b2n_eq_one _).symm.trans (decide_eq_true set)

/-- The device whose port retrains at two lanes. -/
def laneLost (p : Nat) (d : Dev) : Dev := (d.modDlkPort p fun y => { y with width := min 2 y.width }).wr Fd.DLK_EVT_LANE 1

theorem laneLost_port (p : Nat) (d : Dev) : (laneLost p d).dlkPort p = { d.dlkPort p with width := min 2 (d.dlkPort p).width } :=
  (dlkPort_of_dlk (by rw [laneLost, Dev.wr_dlk]) p).trans (dlkPort_modDlkPort_same p (fun y => { y with width := min 2 y.width }) d)

theorem laneFail_narrows {p : Nat} {d : Dev} (low : p < 2) (up : (d.dlkPort p).up = true) :
    (laneFail p d).dlkPort p = { d.dlkPort p with width := min 2 (d.dlkPort p).width } ∧ (laneFail p d).rd Fd.DLK_EVT_LANE = 1 ∧
    bit ((laneFail p d).regGet Rg.SYS_FAULT 0 0) 5 = true := by
  have port := laneLost_port p d
  have width : ((laneLost p d).dlkPort p).width < 4 := by
    rw [port]
    exact Nat.lt_of_le_of_lt (Nat.min_le_left _ _) (by decide)
  have faulted : laneFail p d = faultOn 5 (laneLost p d) := laneFault_narrow low ((congrArg (·.up) port).trans up) width
  have event : (laneLost p d).rd Fd.DLK_EVT_LANE = 1 := Dev.rd_wr_same _ _ (by decide) (by decide)
  rw [faulted]
  exact ⟨(dlkPort_of_dlk (by rw [(faultOn_keeps _ _).dlk (by rfl)]) p).trans port, ((faultOn_keeps _ _).rd _ (by rfl)).trans event,
    faultOn_bit_set (by decide) _⟩

theorem takeSectors_line (pos id tenant p : Nat) (xs : List Sector) (d : Dev) : (takeSectors pos id tenant xs d).line p = d.line p := by
  unfold takeSectors
  by_cases empty : xs.isEmpty
  · rw [if_pos empty]
    exact respondDlk_line ..
  · rw [if_neg empty]
    exact respondDlk_line ..

theorem beginJob_line (j : DlkJob) (p : Nat) (d : Dev) : (beginJob j d).line p = d.line p := by
  unfold beginJob
  split
  · exact line_of_dlk (by rw [(takeDesc_keeps _ _ _ _).dlk (by rfl)]; rfl) p
  · exact takeSectors_line ..
  · rfl

theorem drainJobs_line (p n : Nat) (d : Dev) : (drainJobs n d).line p = d.line p := by
  induction n generalizing d with
  | zero => rfl
  | succ n ih =>
    unfold drainJobs
    split
    · split
      · exact (ih _).trans (beginJob_line ..)
      · rfl
    · rfl

theorem beginJobs_line (p : Nat) (d : Dev) : (beginJobs d).line p = d.line p := by
  unfold beginJobs
  split
  · rfl
  · exact drainJobs_line ..

theorem seeDevice_event (behind pos : Nat) (d : Dev) : (seeDevice behind pos d).rd Fd.DLK_EVT_LINK_UP = d.rd Fd.DLK_EVT_LINK_UP := by
  unfold seeDevice
  dsimp only
  split
  · rfl
  · split
    · exact Dev.rdx_wrx_fldAt (by decide)
    · split <;> rfl

/-- The device whose port has trained. -/
def portTrained (p w peer : Nat) (d : Dev) : Dev :=
  (d.modDlkPort p fun y => { y with up := true, width := w, peer := peer }).wr Fd.DLK_EVT_LINK_UP 1

theorem portTrained_line (p w peer : Nat) (d : Dev) : (portTrained p w peer d).line p = (true, w, peer) := by
  have port : (portTrained p w peer d).dlkPort p = { d.dlkPort p with up := true, width := w, peer := peer } :=
    (dlkPort_of_dlk (by rw [portTrained, Dev.wr_dlk]) p).trans
      (dlkPort_modDlkPort_same p (fun y => { y with up := true, width := w, peer := peer }) d)
  rw [Dev.line, port]

/-- What a trained port sets going: flits that waited, and requests that may begin. -/
def portGoes (p : Nat) (d : Dev) : Dev := beginJobs (masterWatch (laneFault (transmit p (d.dlkPort p).ready.length d)))

theorem portGoes_left (p : Nat) (d : Dev) : (portGoes p d).line p = d.line p ∧ (portGoes p d).rd Fd.DLK_EVT_LINK_UP = d.rd Fd.DLK_EVT_LINK_UP :=
  ⟨(beginJobs_line ..).trans ((line_of_dlk (by rw [masterWatch_ports, (laneFault_keeps _).dlk (by rfl)]) p).trans (transmit_line ..)),
    ((beginJobs_keeps _).rd _ (by rfl)).trans (((masterWatch_keeps _).rd _ (by rfl)).trans
      (((laneFault_keeps _).rd _ (by rfl)).trans ((transmit_keeps _ _ _).rd _ (by rfl))))⟩

theorem dlkUp_trains {p w peer : Nat} {d : Dev} (enabled : d.is Fd.DLK_CTL_EN = true) (down : (d.dlkPort p).up = false) (lanes : w ∈ [1, 2, 4]) :
    ∃ e, dlkUp p w peer d = .ok e ∧ (e.dlkPort p).up = true ∧ (e.dlkPort p).width = w ∧ (e.dlkPort p).peer = peer ∧
      e.rd Fd.DLK_EVT_LINK_UP = 1 := by
  have line := portTrained_line p w peer d
  have event : (portTrained p w peer d).rd Fd.DLK_EVT_LINK_UP = 1 := Dev.rd_wr_same _ _ (by decide) (by decide)
  have trains : ∃ e, dlkUp p w peer d = .ok (portGoes p e) ∧ e.line p = (true, w, peer) ∧ e.rd Fd.DLK_EVT_LINK_UP = 1 := by
    unfold dlkUp
    rw [if_neg (by rw [enabled, down]; simp only [lanes, not_true_eq_false, decide_false]; decide)]
    dsimp only
    split
    · exact ⟨_, rfl, (line_of_dlk (seeDevice_ports ..) p).trans line, (seeDevice_event ..).trans event⟩
    · exact ⟨_, rfl, line, event⟩
  obtain ⟨e, ok, line, event⟩ := trains
  obtain ⟨line', event'⟩ := portGoes_left p e
  have goes := line'.trans line
  exact ⟨_, ok, congrArg (·.1) goes, congrArg (·.2.1) goes, congrArg (·.2.2) goes, event'.trans event⟩

/-! ### Requests (R461, R464) -/

theorem daleskRequest_taken {pos id : Nat} {body : DlkRequest} {s : State} (other : pos ≠ s.dev.sys.role) (takes : s.dev.takesRequest body = true) :
    daleskRequest pos id body s = match s.dev.heldAnswer pos id with
      | some m => .next (s.modDev fun d => (sendMessage m.pos m.id m.vc m.body d).add Fd.DLK_CNT_DUP_E2E 1)
      | none => if s.dev.underWay pos id then .next s else .next (newRequest pos id body s) := by
  unfold daleskRequest
  dsimp only
  rw [if_neg (by simp [other, takes])] <;> rfl

/-- A request that cannot begin waits behind the ones that came before it. -/
theorem beginJobs_waits {d : Dev} {j : DlkJob} {rest : List DlkJob} (first : d.dlk.jobs = j :: rest) (full : d.jobFits j = false) :
    beginJobs d = d := by
  unfold beginJobs
  split
  · rfl
  · rw [first, List.length_cons]
    unfold drainJobs
    rw [first]
    exact if_neg (by rw [full]; exact Bool.false_ne_true)

theorem newRequest_waits {pos id : Nat} {tn : BitVec 10} {xs : List Sector} {s : State} {j : DlkJob} {rest : List DlkJob}
    (first : s.dev.dlk.jobs = j :: rest) (full : s.dev.jobFits j = false) :
    (newRequest pos id (.cells tn xs) s).dev.dlk = { s.dev.dlk with jobs := s.dev.dlk.jobs ++ [{ pos := pos, id := id, ask := .cells tn xs }] } := by
  let d := s.dev.modDlk fun y => { y with jobs := y.jobs ++ [{ pos := pos, id := id, ask := .cells tn xs }] }
  have first' : d.dlk.jobs = j :: (rest ++ [{ pos := pos, id := id, ask := .cells tn xs }]) := congrArg (· ++ [_]) first
  exact congrArg Dev.dlk (beginJobs_waits first' full)

theorem newRequest_live (pos id : Nat) (s : State) :
    ∃ m, (newRequest pos id .live s).dev.dlk.held.head? = some m ∧ m.pos = pos ∧ m.id = id :=
  ⟨_, respondDlk_holds .., rfl, rfl⟩

theorem daleskRequest_answers {pos id : Nat} {body : DlkRequest} {s : State} (other : pos ≠ s.dev.sys.role) (takes : s.dev.takesRequest body = true) :
    ∃ t, daleskRequest pos id body s = .next t ∧
      (∀ m, s.dev.heldAnswer pos id = some m → t = { s with dev := (sendMessage m.pos m.id m.vc m.body s.dev).add Fd.DLK_CNT_DUP_E2E 1 }) ∧
      (s.dev.heldAnswer pos id = none → s.dev.underWay pos id = true → t = s) ∧
      (s.dev.heldAnswer pos id = none → s.dev.underWay pos id = false → t = newRequest pos id body s) := by
  rw [daleskRequest_taken other takes]
  cases held : s.dev.heldAnswer pos id with
  | some m =>
    refine ⟨_, rfl, fun m' same => ?_, fun h => absurd h (Option.some_ne_none m), fun h => absurd h (Option.some_ne_none m)⟩
    obtain rfl := Option.some.inj same
    rfl
  | none =>
    cases under : s.dev.underWay pos id with
    | true => exact ⟨_, if_pos rfl, fun m same => absurd same.symm (Option.some_ne_none m), fun _ _ => rfl, fun _ h => absurd h.symm Bool.false_ne_true⟩
    | false => exact ⟨_, if_neg Bool.false_ne_true, fun m same => absurd same.symm (Option.some_ne_none m), fun _ h => absurd h Bool.false_ne_true, fun _ _ => rfl⟩

/-! ### Responses (R456, R461, R469) -/

theorem daleskResponse_acked (pos : Nat) (id : Word) (s : State) : ∃ t, daleskResponse pos (.acked id) s = .next t ∧
    (s.dev.moveOf pos id.toNat = none → t.mem = s.mem ∧
      t.dev.dlk.asked = s.dev.dlk.asked.filter fun m => !(decide (m.pos = pos) && decide (m.id = id.toNat))) ∧
    (∀ m, s.dev.moveOf pos id.toNat = some m → t = { s with dev := moveDone m (answered pos id.toNat s.dev) }) := by
  unfold daleskResponse
  dsimp only
  cases s.dev.moveOf pos id.toNat with
  | none => exact ⟨_, rfl, fun _ => ⟨rfl, rfl⟩, fun m same => absurd same.symm (Option.some_ne_none m)⟩
  | some m =>
    refine ⟨_, rfl, fun h => absurd h (Option.some_ne_none m), fun m' same => ?_⟩
    obtain rfl := Option.some.inj same
    rfl

theorem seeDevice_admitted {behind pos : Nat} {d : Dev} (admitted : pos ∈ d.dlk.admitted) : seeDevice behind pos d = d := if_pos admitted

theorem answerReady_dlk (d : Dev) : (answerReady d).dlk = d.dlk := (answerReady_keeps d).dlk (by rfl)

/-- A follower that answers, and has ended step 8, is ready. -/
theorem takeLive_ready {pos : Nat} {d : Dev} (reaches : d.reaches pos = true) : pos ∈ (takeLive pos true d).dlk.ready := by
  have admitted : pos ∈ d.dlk.admitted := of_decide_eq_true (Bool.and_eq_true_iff.mp reaches).1
  unfold takeLive
  dsimp only
  rw [seeDevice_admitted admitted, if_pos (by rw [reaches]; rfl), answerReady_dlk]
  exact mem_listAdd

/-! ### Followers lost (R467) -/

/-- The device that has lost a follower. -/
def followerLost (pos : Nat) (d : Dev) : Dev :=
  (d.modDlk fun x => { x with unreach := x.unreach ++ [(pos, d.now)], ready := x.ready.filter fun p => p ≠ pos }).wr Fd.DLK_EVT_UNREACH 1

/-- The loss told to each PF. -/
def followerTold (pos : Nat) (d : Dev) : Dev :=
  (followerLost pos d).pfs.foldl (fun (d : Dev) f => addErr f 0xFFFF 0xFFFF (7 * 256 + 0xC8) 0 0 d) (followerLost pos d)

theorem followerTold_left (pos : Nat) (d : Dev) : (followerTold pos d).dlk = (followerLost pos d).dlk ∧
    (followerTold pos d).regs = (followerLost pos d).regs ∧ (followerTold pos d).jnm = (followerLost pos d).jnm :=
  List.foldlRecOn (motive := fun e : Dev => e.dlk = (followerLost pos d).dlk ∧ e.regs = (followerLost pos d).regs ∧ e.jnm = (followerLost pos d).jnm)
    _ _ ⟨rfl, rfl, rfl⟩ fun _ same _ _ => same

theorem followerLost_left (pos : Nat) (d : Dev) : (followerLost pos d).dlk =
      { d.dlk with unreach := d.dlk.unreach ++ [(pos, d.now)], ready := d.dlk.ready.filter fun p => p ≠ pos } ∧
    (followerLost pos d).rd Fd.DLK_EVT_UNREACH = 1 ∧ (followerLost pos d).jnm = d.jnm :=
  ⟨Dev.wr_dlk .., Dev.rd_wr_same _ _ (by decide) (by decide), Dev.wr_jnm ..⟩

theorem loseFollower_alone {pos : Nat} {s : State}
    (alone : (s.dev.jnm.bufs.find? fun b => b.phase == .forwarded && decide (jDev b.packet = pos)) = none) :
    loseFollower pos s = s.modDev (followerTold pos) := by
  have jnm : (followerTold pos s.dev).jnm = s.dev.jnm := (followerTold_left pos s.dev).2.2.trans (followerLost_left pos s.dev).2.2
  have found : ((s.modDev (followerTold pos)).dev.jnm.bufs.find? fun b => b.phase == .forwarded && decide (jDev b.packet = pos)) = none := by
    rw [State.modDev_dev, jnm, alone]
  unfold loseFollower
  change (match (s.modDev (followerTold pos)).dev.jnm.bufs.find? fun b => b.phase == .forwarded && decide (jDev b.packet = pos) with
    | some b => _
    | none => s.modDev (followerTold pos)) = _
  rw [found]

theorem loseFollower_loses {pos : Nat} {s : State}
    (alone : (s.dev.jnm.bufs.find? fun b => b.phase == .forwarded && decide (jDev b.packet = pos)) = none) :
    (loseFollower pos s).dev.dlk =
      { s.dev.dlk with unreach := s.dev.dlk.unreach ++ [(pos, s.dev.now)], ready := s.dev.dlk.ready.filter fun p => p ≠ pos } ∧
    (loseFollower pos s).dev.rd Fd.DLK_EVT_UNREACH = 1 := by
  obtain ⟨dlk, regs, -⟩ := followerTold_left pos s.dev
  obtain ⟨lost, event, -⟩ := followerLost_left pos s.dev
  rw [loseFollower_alone alone]
  exact ⟨dlk.trans lost, (Dev.rdx_congr regs 0 0 _).trans event⟩

theorem execAdmissionTimeout_ends {s : State} (master : s.dev.sys.role = 0) : execAdmissionTimeout s =
    .next (((s.dev.dlk.admitted.filter fun p => s.dev.reaches p && !decide (p ∈ s.dev.dlk.ready)).foldl (fun s p => loseFollower p s) s).modDev
      answerReady) := by
  unfold execAdmissionTimeout
  rw [if_neg (by rw [master]; decide)]

/-! ### Holds and returns (R467, R468) -/

theorem endFarReads_left (pos : Nat) (d : Dev) : (endFarReads pos d).dlk.expired = d.dlk.expired ∧ (endFarReads pos d).dlk.unreach = d.dlk.unreach :=
  List.foldlRecOn (motive := fun e : Dev => e.dlk.expired = d.dlk.expired ∧ e.dlk.unreach = d.dlk.unreach) _ _ ⟨rfl, rfl⟩ fun e same m _ => by
    rw [(readLost_keeps _ _ _).dlk (by rfl)]
    exact same

theorem withdrawAll_dlk (c : Cpl) (l : List (Nat × Slot)) (d : Dev) : (l.foldl (fun d e => withdrawCmd e.1 c d) d).dlk = d.dlk :=
  List.foldlRecOn (motive := fun e : Dev => e.dlk = d.dlk) _ _ rfl fun _ same _ _ => ((withdrawCmd_keeps _ _ _).dlk (by rfl)).trans same

theorem holdExpiry_expires (pos : Nat) (d : Dev) : (holdExpiry pos d).dlk.expired = d.dlk.expired ++ [pos] ∧
    (holdExpiry pos d).dlk.unreach = d.dlk.unreach := by
  obtain ⟨expired, unreach⟩ := endFarReads_left pos (d.modDlk fun x => { x with expired := x.expired ++ [pos] })
  unfold holdExpiry
  dsimp only
  rw [withdrawAll_dlk, expired, unreach]
  exact ⟨rfl, rfl⟩

theorem unreachableHold_expires {pos : Nat} {d : Dev} {u : Nat × Nat} (lost : (d.dlk.unreach.find? fun u => decide (u.1 = pos)) = some u)
    (due : u.2 + d.holdCycles ≤ d.now) (fresh : pos ∉ d.dlk.expired) : unreachableHold pos d = .ok (holdExpiry pos d) := by
  unfold unreachableHold
  rw [lost]
  exact if_pos (by rw [decide_eq_true due, decide_eq_true fresh]; rfl)

theorem followerReturn_returns (pos : Nat) (d : Dev) : (followerReturn pos d).dlk.unreach = d.dlk.unreach.filter (fun u => u.1 ≠ pos) ∧
    (followerReturn pos d).dlk.expired = d.dlk.expired.filter (fun p => p ≠ pos) ∧ pos ∈ (followerReturn pos d).dlk.ready ∧
    (followerReturn pos d).dlk.asked = d.dlk.asked := by
  let e := d.modDlk fun x => { x with
    unreach := x.unreach.filter fun u => u.1 ≠ pos, expired := x.expired.filter fun p => p ≠ pos, ready := listAdd x.ready pos }
  have rest : (followerReturn pos d).dlk.rest = e.dlk.rest :=
    (congrArg Dlk.rest (answerReady_dlk _)).trans (resend_rest (fun m => decide (m.pos = pos)) e)
  have ready : (followerReturn pos d).dlk.ready = listAdd d.dlk.ready pos := congrArg (·.ready) rest
  rw [ready]
  exact ⟨congrArg (·.unreach) rest, congrArg (·.expired) rest, mem_listAdd, congrArg (·.asked) rest⟩

/-- Settles O49: flits, replays and ports of the link, requests and responses of the cascade, followers lost and found. -/
theorem cascadeActs : Obligations.CascadeActs := by
  refine ⟨?_, ?_, ?_, ?_, ?_, ?_, ?_, ?_, ?_, ?_, ?_, ?_⟩
  · intro p f s x diff port up ahead
    subst port
    exact givesDev_onlyIf' (b := fun d => (d.dlkPort p).up) (f := takeFlit p f) up (takeFlit_takes rfl ahead)
  · intro p s x port up
    subst port
    exact givesDev_onlyIf' (b := fun d => (d.dlkPort p).up) (f := sendAck p) up (sendAck_sends p s.dev)
  · intro p s x port up sent
    subst port
    exact givesDev_onlyIf' (b := fun d => (d.dlkPort p).up && !(d.dlkPort p).unacked.isEmpty) (f := replayFlits p)
      (by rw [up]; simpa using sent) ⟨replayFlits_replays sent, replayFlits_fails sent⟩
  · intro p s x port up
    subst port
    exact givesDev_onlyIf' (b := fun d => (d.dlkPort p).up) (f := dlkDown p) up (dlkDown_reroutes p s.dev)
  · intro p s x port up
    subst port
    exact givesDev_onlyIf' (b := fun d => (d.dlkPort p).up) (f := laneFail p) up (laneFail_narrows p.isLt up)
  · intro p w peer s enabled down lanes
    obtain ⟨d, ok, holds⟩ := dlkUp_trains (peer := peer.val) enabled down lanes
    exact givesDev_of_ok ok holds
  · intro src id body s other takes
    obtain ⟨t, gives, again, under, new⟩ := daleskRequest_answers (id := id.toNat) other takes
    refine ⟨t, gives, again, under, fun tn xs j rest unheld free body' first full => ?_, fun unheld free body' => ?_⟩
    · rw [new unheld free, body']
      exact newRequest_waits first full
    · rw [new unheld free, body']
      exact newRequest_live ..
  · intro src s master other
    have gives : ∀ body, execDaleskResponseReceive src body s = daleskResponse src body s := fun body =>
      if_pos (by rw [decide_eq_true master, decide_eq_true other]; rfl)
    refine ⟨fun id => ?_, fun id packet unasked => ?_, fun reaches => ?_, fun units starting admitted => ?_⟩
    · obtain ⟨t, next, holds⟩ := daleskResponse_acked src id s
      exact ⟨t, (gives _).trans next, holds⟩
    · exact ⟨s, (gives _).trans (if_neg (by rw [unasked]; exact Bool.false_ne_true)), rfl⟩
    · exact ⟨_, gives _, takeLive_ready reaches⟩
    · exact ⟨_, (gives _).trans (if_pos (by rw [starting, decide_eq_true admitted]; rfl)), rfl⟩
  · intro pos s master reaches
    exact ⟨_, if_pos (by rw [decide_eq_true master, reaches]; rfl), loseFollower_loses⟩
  · intro pos s u lost due fresh
    exact givesDev_of_ok (unreachableHold_expires lost due fresh) (holdExpiry_expires ..)
  · intro pos s master lost up
    exact givesDev_onlyIf'
      (b := fun d => decide (d.sys.role = 0) && d.dlk.unreach.any (fun u => decide (u.1 = pos.val)) && (d.dlkPort (d.portTo pos)).up)
      (f := followerReturn pos) (by rw [decide_eq_true master, lost, up]; rfl) (followerReturn_returns ..)
  · intro s late master which
    refine ⟨_, execAdmissionTimeout_ends master, fun none => ?_, fun p one alone => ?_⟩
    · rw [← which, none]
      rfl
    · obtain ⟨dlk, event⟩ := loseFollower_loses alone
      rw [← which, one]
      exact ⟨congrArg (·.unreach) ((answerReady_dlk _).trans dlk), ((answerReady_keeps _).rd _ (by rfl)).trans event⟩

end Sys2Proof.Machine
